-- ==== Sys2Proof/Word.lean ====
section
/-! DEFINITION. The word types of the model and their plainest arithmetic (R7, R8): bytes, little-endian
packing, signed readings, saturating and wrapping counts. -/

namespace Sys2Proof

/-- One byte (R8). -/
abbrev Byte := BitVec 8

/-- The IEEE 754 binary32 bit pattern of a float32 field (R8). -/
abbrev F32 := BitVec 32

/-- The IEEE 754 binary64 bit pattern of a float64 field (R112). -/
abbrev F64 := BitVec 64

/-- The `k` little-endian bytes of `n` (R8). -/
def leBytes : Nat → Nat → List Byte
  | 0, _ => []
  | k + 1, n => BitVec.ofNat 8 n :: leBytes k (n / 256)

/-- The number that little-endian bytes spell (R8). -/
def leNat : List Byte → Nat
  | [] => 0
  | b :: bs => b.toNat + 256 * leNat bs

/-- The two's complement reading of the low `w` bits of `n` (R8). -/
def sx (w n : Nat) : Int :=
  let m := n % 2 ^ w
  if 2 * m < 2 ^ w then (m : Int) else (m : Int) - (2 ^ w : Nat)

/-- The `w`-bit two's complement pattern of an integer (R8). -/
def ux (w : Nat) (i : Int) : Nat := (i % (2 ^ w : Nat)).toNat

/-- One more, never above the largest `w`-bit number: the counts the spec calls saturating. -/
def satInc (w n : Nat) : Nat := if n + 1 < 2 ^ w then n + 1 else 2 ^ w - 1

/-- One more in `w` bits, wrapping. -/
def wrapInc (w n : Nat) : Nat := (n + 1) % 2 ^ w

/-- An integer held within two bounds. -/
def clampInt (lo hi x : Int) : Int := if x < lo then lo else if hi < x then hi else x

/-- A natural number held within two bounds. -/
def clampNat (lo hi x : Nat) : Nat := if x < lo then lo else if hi < x then hi else x

/-- Bit `i` of a number. -/
def bit (n i : Nat) : Bool := (n / 2 ^ i) % 2 == 1

/-- The `w` bits of `n` from bit `lo` up. -/
def bits (n lo w : Nat) : Nat := (n / 2 ^ lo) % 2 ^ w

/-- A Bool as a bit. -/
def b2n (b : Bool) : Nat := if b then 1 else 0

/-- `n` with bit `i` set to `b`. -/
def setBit (n i : Nat) (b : Bool) : Nat :=
  if bit n i == b then n else if b then n + 2 ^ i else n - 2 ^ i

/-- Ticks of the Global Time Counter in one frame (R22). -/
def frameTicks : Nat := 48000

/-- Ticks in one tempo slot (R22). -/
def slotTicks : Nat := 3000

/-- GTC ticks in one microsecond (R7). -/
def usTicks : Nat := 480

/-- GTC ticks in one millisecond (R7). -/
def msTicks : Nat := 480000

/-- GTC ticks in one second (R7). -/
def secTicks : Nat := 480000000

end Sys2Proof
end

