-- ==== Sys2Proof/Syntax.lean ====
section
/-! DEFINITION. The commands of the PK-9648: one constructor of `Instr` for each row of spec/opcode_table.json,
with the row's operands. A descriptor command carries the descriptor the device read; a happening carries what
happened (an instant, a measured value, the bytes received). -/

namespace Sys2Proof

/-- The 12-bit code of one conversion of a sense converter (09, R292; 10, R305). -/
abbrev Code := BitVec 12

/-- A descriptor as the device read it (R37, R40): its submission ring, its 64 bytes, and the parameter block
that its pointer gave (R38), read once. -/
structure Desc where
  sq : Nat
  bytes : List Byte
  block : List Byte
  deriving DecidableEq, Repr

/-- The bodies of link packets (R26, R75, R93, R170, R174, R202). -/
inductive PKind where
  | bcast | mark | query | answer | sect | lock | lockAck | refCheck | refReply | enum | fault | asleep | view | chan
  deriving DecidableEq, Repr

/-- A record carried by the Osund link: its kind, the position it is for, the position it comes from, its bytes. -/
structure Packet where
  kind : PKind
  dst : Nat
  src : Nat
  body : List Byte
  deriving DecidableEq, Repr

/-- Which access of the host memory or the mailbox failed (R67). -/
inductive DmaAccess where
  | fetch (sq : Nat) (addr : Nat)
  | entry (ring : Nat) (addr : Nat)
  | shadow (sq : Nat) (addr : Nat)
  | block (d : Desc) (addr : Nat)
  deriving DecidableEq, Repr

/-- A digital input that is filtered (R352); `encAB` stands for A and B of one encoder changing at once (R353). -/
inductive Inp where
  | encA (n : Nat)
  | encB (n : Nat)
  | encAB (n : Nat)
  | encZ (n : Nat)
  | pulse (n : Nat)
  | gpio (n : Nat)
  | stepin (n : Nat)
  deriving DecidableEq, Repr


/-- A CAN frame on a bus (R376): identifier with bit 30 for the extended format, eflags, data. -/
structure CanFrame where
  id : Nat
  eflags : Nat
  data : List Byte
  deriving DecidableEq, Repr

/-- An error that a controller detects (R382, R384): while it transmits or not, the last error code of R400, the buffer
that was being sent, and what ISO 11898-1 makes of it beyond the code: `quiet` where its exceptions leave the transmit
counter alone, `more` further steps of 8 (log 23). -/
structure CanErr where
  tx : Bool
  code : Nat
  buf : Nat
  quiet : Bool
  more : Nat
  deriving DecidableEq, Repr

/-- What process data belong to (R396): a Section element, by tc_section, or the Function element. -/
inductive TcElem where
  | section_ (n : Nat)
  | function
  deriving DecidableEq, Repr

/-- The process data of R396, by designation. -/
inductive Pd where
  | setWorkState | sectionControl
  | setCondensed (group : Nat)
  | actCondensed (group : Nat)
  | actWorkState | onTime | offTime
  | setVolume | setMass | setCount
  | actVolume | actMass | actCount
  | other (ddi : Nat)
  deriving DecidableEq, Repr


/-- The commands (spec/opcode_table.json), in the table's order. -/
inductive Instr where
  /-- REGISTER_WRITE (R11): A host write to a register field that has no row of its own stores the value as its access type allows. -/
  | registerWrite (addr value : Nat)
  /-- GTC_LO_READ (R19): A read of GTC_LO returns GTC [31:0] and latches the upper 32 bits into GTC_HI. -/
  | gtcLoRead
  /-- PPS_CAP_LO_READ (R19): A read of PPS_CAP_LO returns the low word of the last accepted PPS capture and latches PPS_CAP_HI. -/
  | ppsCapLoRead
  /-- GTC_DISC_ENABLE (R20): Setting GTC_CTL.DISC_EN starts PPS discipline of the GTC rate. -/
  | gtcDiscEnable
  /-- GTC_DISC_DISABLE (R21): Clearing GTC_CTL.DISC_EN sets the discipline state to FREE and keeps the last adjustment. -/
  | gtcDiscDisable
  /-- GTC_FREQ_ADJ_WRITE (R21): A host write of GTC_FREQ_ADJ with FREQ_MAN set and DISC_EN clear is clamped and applied at the next frame boundary. -/
  | gtcFreqAdjWrite (v : Int)
  /-- PPS_EDGE (R20): A PPS edge of the selected polarity is captured and runs the discipline procedure. -/
  | ppsEdge (t : Nat) (falling : Bool)
  /-- PPS_HOLDOVER_TIMEOUT (R21): No accepted PPS edge for 2.5 s in ACQUIRING or LOCKED moves the state to HOLDOVER. -/
  | ppsHoldoverTimeout
  /-- FRAME_BOUNDARY (R23): At each GTC multiple of 48,000 all predictor shadows load, the frequency word takes effect and the lead pulses SYNC_MARKO. -/
  | frameBoundary
  /-- TEMPO_SLOT_RUN (R83): At the start of a tempo slot each engine runs its jobs for that slot in ascending handle index and commits those that finish. -/
  | tempoSlotRun (slot : Nat) (late : List Nat)
  /-- SLOT_END (R83): At the end of a tempo slot the fabric aborts any job still running. -/
  | slotEnd (slot : Nat)
  /-- FLAG_FALL_LIMIT (R85): ff_consec reaching a non-zero ff_limit raises FLAG_FALL_LIMIT as a class 1 fault to the object. -/
  | flagFallLimit (h : Nat)
  /-- REBALANCE_CASTLE (R87): Flag falls of one engine slot in three consecutive running frames castle its costliest automatic job away. -/
  | rebalanceCastle (engine slot : Nat)
  /-- PATH_INTEGRATOR_RUN (R134): The path integrator propagates the machine state to boundary N+1 and writes the machine state record. -/
  | pathIntegratorRun
  /-- KINEMATIC_BROADCAST_SEND (R26): At the start of slot 2 the lead sends the kinematic broadcast with the state for N+1 and the frequency word. -/
  | kinematicBroadcastSend
  /-- BROADCAST_RECEIVE (R24): A member receives a valid kinematic broadcast, ending any missed-broadcast count. -/
  | broadcastReceive (rec : List Byte) (upPos : Nat)
  /-- BROADCAST_DEADLINE (R24): A member without a valid broadcast by 31.25 µs propagates the last state and counts a missed broadcast. -/
  | broadcastDeadline
  /-- OSL_BCAST_STALE (R24): Three consecutive missed broadcasts raise OSL_BCAST_STALE to every channel of the member. -/
  | oslBcastStale
  /-- GEOPOINT_PROPAGATE (R144): Each device propagates every ENABLED geometry point and writes its path position, speed and acceleration to the predictor shadows. -/
  | geopointPropagate
  /-- OSL_ROLE_WRITE (R27): A write of OSL_CTL.ROLE selects the cluster role, or is refused while a channel is enabled. -/
  | oslRoleWrite (role : Nat)
  /-- OSL_SYNC_OUT_WRITE (R27): A write of OSL_CTL.SYNC_OUT_EN sets re-driving of the sync outputs, or is refused while a channel is enabled. -/
  | oslSyncOutWrite (on : Bool)
  /-- MEMBER_PLL_LOCK (R27): The member's PLL locks to SYNC_CLKI after its role is written. -/
  | memberPllLock
  /-- OSL_LANE_TRAINED (R27): A port's lanes complete training and OSL_LINK_UP is raised. -/
  | oslLaneTrained (port : Nat)
  /-- COARSE_LOAD (R27): At the next SYNC_MARKI after enumeration the member loads its GTC with the lead's boundary value. -/
  | coarseLoad (boundary : Nat)
  /-- SKEW_EXCHANGE (R28): A two-way timestamp exchange measures the hop delay and offset and corrects the PLL phase. -/
  | skewExchange (t1 t2 t3 t4 : Int) (upOffset : Int)
  /-- OSL_CAL_DONE (R27): After 256 exchanges the member steps its GTC once by the mean offset and sets CAL_DONE. -/
  | oslCalDone
  /-- SYNC_MARKI_ARRIVAL (R29): A calibrated member checks each SYNC_MARKI arrival against its expected arrival. -/
  | syncMarkiArrival (t : Nat)
  /-- OSL_MARK_SLIP (R29): A mark deviation above 24 ticks for 16 consecutive frames raises the device-class fault OSL_MARK_SLIP. -/
  | oslMarkSlip
  /-- SYNC_CLKI_LOSS (R29): Loss of SYNC_CLKI switches the PLL to XTAL_IN, keeps the frequency word and raises OSL_CLOCK_LOST. -/
  | syncClkiLoss
  /-- UPSTREAM_SILENCE (R29): No valid symbols on the upstream lane for 10 µs raises the device-class fault OSL_LINK_DOWN. -/
  | upstreamSilence
  /-- OSL_MEMBER_LOST (R76): The lead finds a member's records missing for three frames or its downstream link dropped, marks its entries absent and continues. -/
  | oslMemberLost (pos : Nat)
  /-- OSL_PACKET_RECEIVE (R26): A link packet is received whole, checked, consumed or forwarded cut-through. -/
  | oslPacketReceive (p : Packet) (crcOk : Bool)
  /-- SPI_WRITE (R33): SPI command 0x02 writes data on IO0 to the addressed space. -/
  | spiWrite (addr : Nat) (data : List Byte)
  /-- SPI_READ (R33): SPI command 0x0B reads data on IO1 after 8 dummy clocks. -/
  | spiRead (addr len : Nat)
  /-- SPI_QWRITE (R33): SPI command 0x32 writes data on IO0 to IO3. -/
  | spiQwrite (addr : Nat) (data : List Byte)
  /-- SPI_QREAD (R33): SPI command 0x6B reads data on IO0 to IO3 after 8 dummy clocks. -/
  | spiQread (addr len : Nat)
  /-- SPI_STATUS (R33): SPI command 0x05 returns the ready and discarded status byte. -/
  | spiStatus
  /-- SPI_BAD_COMMAND (R33): A transaction with an unknown command byte is ignored and sets STATUS bit 1. -/
  | spiBadCommand (cmd : Nat)
  /-- RING_ENABLE (R35): Setting RING_CFG.EN validates the ring block and starts the ring at head 0, tail 0, phase 1, or stops it in error. -/
  | ringEnable (r cfg : Nat)
  /-- HIF_RING_RESET (R36): A write of a ring number to HIF_RING_RESET resets that SQ, CQ, EQ or stream ring. -/
  | hifRingReset (r : Nat)
  /-- HOST_DETACH (R68): FLR, hot reset, link-down, PERST, VIO_H loss or HIF_RING_RESET 0xFFFF reset only the host interface. -/
  | hostDetach (cause : Nat)
  /-- RINGS_EN_CLEAR (R547): Clearing HIF_CTL.RINGS_EN without a detach pauses the host interface. -/
  | ringsEnClear
  /-- RINGS_EN_SET (R547): Setting RINGS_EN writes kept completions, then held events, then resumes fetching. -/
  | ringsEnSet
  /-- SQ_TAIL_DOORBELL (R47): An SQ tail doorbell adds descriptors to the ring or stops it as invalid. -/
  | sqTailDoorbell (n value : Nat)
  /-- CQ_HEAD_DOORBELL (R47): A CQ head doorbell frees consumed completion slots or stops the ring as invalid. -/
  | cqHeadDoorbell (n value : Nat)
  /-- EQ_HEAD_DOORBELL (R47): An EQ head doorbell frees consumed event slots or stops the ring as invalid. -/
  | eqHeadDoorbell (n value : Nat)
  /-- STREAM_HEAD_DOORBELL (R47): A trace or log stream head doorbell frees consumed entries or stops the ring as invalid. -/
  | streamHeadDoorbell (n value : Nat)
  /-- DESCRIPTOR_FETCH (R48): Once a doorbell covers it and a CQ slot is reserved, the device fetches a descriptor and starts it under the arbitration rules. -/
  | descriptorFetch (d : Desc)
  /-- HELD_EVENT_DRAIN (R57): When an EQ has room again the device writes held events in order, then EVENT_LOST, then new events. -/
  | heldEventDrain
  /-- INTERRUPT_MODERATION_TIMEOUT (R55): The oldest unsignalled entry reaching RING_MOD.TIME sends the ring's vector. -/
  | interruptModerationTimeout (r : Nat)
  /-- HOST_DMA_FAULT (R67): A failed host-memory or out-of-range mailbox access stops the ring or completes DMA_ERROR and raises HOST_DMA_FAULT. -/
  | hostDmaFault (a : DmaAccess)
  /-- EVENT_INTERVAL_END (R545): The end of a rate-limit interval raises the aggregated event with its count if any occurrence was counted. -/
  | eventIntervalEnd (code h sub : Nat)
  /-- NOP (R62): NOP has no effect and completes OK. -/
  | nop (d : Desc)
  /-- CREATE (R60): CREATE takes a free index of the given type and returns the new handle with the object DISABLED. -/
  | create (d : Desc)
  /-- DESTROY (R70): DESTROY frees a DISABLED unreferenced object and increments its generation. -/
  | destroy (d : Desc)
  /-- SET_PARAMS (R63): SET_PARAMS writes parameter bytes inline or from a block, all taking effect together. -/
  | setParams (d : Desc)
  /-- GET_PARAMS (R62): GET_PARAMS writes the requested range of the object's parameter block to the host. -/
  | getParams (d : Desc)
  /-- ENABLE (R70): ENABLE places the object's job at acceptance and schedules the object to become ENABLED at its take-effect boundary. -/
  | enable (d : Desc)
  /-- ENABLE_TAKE_EFFECT (R64): At the take-effect boundary the object becomes ENABLED and the deferred ENABLE completes. -/
  | enableTakeEffect (h : Nat)
  /-- DISABLE (R70): DISABLE is accepted and scheduled for its take-effect boundary. -/
  | disable (d : Desc)
  /-- DISABLE_TAKE_EFFECT (R70): At the take-effect boundary the job stops, its placement is released, its lines go to their disabled levels and the epoch retires. -/
  | disableTakeEffect (h : Nat)
  /-- GET_STATUS (R62): GET_STATUS writes the type's status block with its head in the result bytes. -/
  | getStatus (d : Desc)
  /-- RING_SYNC (R62): RING_SYNC completes once every descriptor started before it, deferred ones excepted, has completed. -/
  | ringSync (d : Desc)
  /-- ABORT (R62): ABORT cancels the pending deferred descriptor with the given cookie, which completes ABORTED. -/
  | abort (d : Desc)
  /-- CLASS1_FAULT (R70): A class 1 fault takes the object's fault action and moves it to FAULTED, with linked group members following. -/
  | class1Fault (h code : Nat)
  /-- CLUSTER_REF_CHECK (R75): A member checks a cluster reference sent by the lead and replies accept or refuse. -/
  | clusterRefCheck (h ty : Nat) (release : Bool)
  /-- CLUSTER_REF_TIMEOUT (R75): No member reply within two frames completes the descriptor REMOTE_REFUSED. -/
  | clusterRefTimeout (h pos : Nat)
  /-- JOB_MOVE (R548): JOB_MOVE finds a new placement and starts castling, or completes at once if the placement is unchanged. -/
  | jobMove (d : Desc)
  /-- CASTLE_COPY_DONE (R88): The working-set copy to the new engine finishes within 20 µs of boundary N. -/
  | castleCopyDone (h : Nat)
  /-- CASTLE_TAKEOVER (R88): At boundary N+2 the new engine runs the job, the epoch advances and old loads are released. -/
  | castleTakeover (h : Nat)
  /-- ENGINE_STATUS (R109): ENGINE_STATUS writes 24 engine records of state, loads and flag falls. -/
  | engineStatus (d : Desc)
  /-- ENGINE_RESTORE (R86): ENGINE_RESTORE reruns the self-test of an out-of-service engine and returns it to service on success. -/
  | engineRestore (d : Desc) (pass : Bool)
  /-- ENGINE_HUNG (R86): An engine not stopping within 64 cycles of an abort, or failing its self-check, is taken out of service and its jobs evacuated. -/
  | engineHung (engine : Nat)
  /-- TABLE_SWAP (R107): TABLE_SWAP accepts a swap of every reference to another table at a boundary. -/
  | tableSwap (d : Desc)
  /-- TABLE_SWAP_TAKE_EFFECT (R107): At its boundary every reference moves to the new table and TABLE_SWAPPED is raised. -/
  | tableSwapTakeEffect (h : Nat)
  /-- TABLE_SAVE (R108): TABLE_SAVE starts writing a table image to the MRAM store under a key. -/
  | tableSave (d : Desc)
  /-- TABLE_SAVE_WRITTEN (R108): The MRAM write of a saved table completes and TABLE_SAVE completes. -/
  | tableSaveWritten (key : Nat)
  /-- TABLE_RESTORE (R108): TABLE_RESTORE creates a table from a saved image after validating it. -/
  | tableRestore (d : Desc)
  /-- TABLE_ERASE (R108): TABLE_ERASE frees a key of the saved-table store. -/
  | tableErase (d : Desc)
  /-- TABLE_LIST (R108): TABLE_LIST writes 255 entries describing the saved-table store. -/
  | tableList (d : Desc)
  /-- STAGE_PARAMS (R92): STAGE_PARAMS holds a parameter change on a group member until a commit. -/
  | stageParams (d : Desc)
  /-- GROUP_COMMIT (R92): GROUP_COMMIT accepts application of all staged changes of a group at one boundary. -/
  | groupCommit (d : Desc)
  /-- GROUP_COMMIT_TAKE_EFFECT (R92): At its boundary each member's staged change is applied as one SET_PARAMS. -/
  | groupCommitTakeEffect (h : Nat)
  /-- GROUP_LOCK_MESSAGE (R93): A member device receives a group lock message and acknowledges it. -/
  | groupLockMessage (group kind boundary : Nat) (members : List Nat)
  /-- GROUP_LOCK_UNACKED (R94): A lock message not acknowledged before its boundary is applied anyway and GROUP_BROKEN is raised. -/
  | groupLockUnacked (h pos : Nat)
  /-- SM_EVENT_ARRIVAL (R103): An event for a state machine is queued, or dropped with SM_QUEUE_OVERFLOW when the queue is full. -/
  | smEventArrival (h off code : Nat)
  /-- SM_TIMER_EXPIRY (R103): A state-machine timer expires and its expiry event is queued. -/
  | smTimerExpiry (h off timer : Nat)
  /-- KIN_SET_CONFIG (R116): KIN_SET_CONFIG writes the kinematics configuration block. -/
  | kinSetConfig (d : Desc)
  /-- KIN_GET_CONFIG (R149): KIN_GET_CONFIG writes the kinematics configuration block to the host. -/
  | kinGetConfig (d : Desc)
  /-- KIN_SET_ORIGIN (R113): KIN_SET_ORIGIN sets the field origin while the unit is OFF and raises KIN_ORIGIN_SET. -/
  | kinSetOrigin (d : Desc)
  /-- KIN_ENABLE (R117): KIN_ENABLE validates the block and schedules the kinematics unit to start. -/
  | kinEnable (d : Desc)
  /-- KIN_ENABLE_TAKE_EFFECT (R117): At its boundary the kinematics unit starts, writes the IMU initialisation pairs and enters WAITING. -/
  | kinEnableTakeEffect
  /-- KIN_DISABLE (R117): KIN_DISABLE schedules the kinematics unit to stop, unless a GEOPOINT is ENABLED. -/
  | kinDisable (d : Desc)
  /-- KIN_DISABLE_TAKE_EFFECT (R115): At its boundary the kinematics unit becomes OFF with points holding their path positions. -/
  | kinDisableTakeEffect
  /-- KIN_FIX (R121): KIN_FIX queues a host position fix for the estimator. -/
  | kinFix (d : Desc)
  /-- KIN_GET_STATE (R149): KIN_GET_STATE writes the last broadcast record and diagnostic block. -/
  | kinGetState (d : Desc)
  /-- KIN_PREDICT (R148): KIN_PREDICT returns the predicted travel and speed of a point over a horizon. -/
  | kinPredict (d : Desc)
  /-- NMEA_SENTENCE (R118): A complete NMEA sentence on GNSS_RXD is checked and accepted or discarded and counted. -/
  | nmeaSentence (chars : List Byte) (tFirst tLast : Nat) (framing : Bool)
  /-- EPOCH_IDLE_CLOSE (R119): 2 ms without a character after a sentence closes the open epoch. -/
  | epochIdleClose
  /-- IMU_SAMPLE (R122): On a data-ready edge or poll tick the SPI master reads and decodes one IMU frame. -/
  | imuSample (t : Nat) (frame : List Byte)
  /-- IMU_TIMEOUT (R124): No IMU sample for 20 ms declares the IMU lost and raises KIN_IMU_LOST. -/
  | imuTimeout
  /-- IMU_RECOVERED (R124): 100 consecutive good samples set IMU_OK again. -/
  | imuRecovered
  /-- ESTIMATOR_RUN (R130): The error-state estimator propagates, fuses measurements in t_valid order and commits its output. -/
  | estimatorRun
  /-- KIN_POS_RESET (R131): Five class-4 or ten rejected position updates reset the position to the next usable fix. -/
  | kinPosReset
  /-- GNSS_TIMEOUT (R132): No position accepted for gnss_timeout moves RUNNING to DEAD_RECKONING and raises KIN_GNSS_LOST. -/
  | gnssTimeout
  /-- DR_LIMIT_EXPIRY (R132): Dead reckoning beyond dr_limit clears POS_VALID and raises KIN_DR_LIMIT. -/
  | drLimitExpiry
  /-- HEADING_TIMEOUT (R132): Without IMU and without an accepted heading for 2 s, HEADING_VALID clears. -/
  | headingTimeout
  /-- PATH_VALID_TIMEOUT (R132): 200 ms without an accepted speed measurement clears PATH_VALID. -/
  | pathValidTimeout
  /-- STANDSTILL_DETECT (R130): Tractor speed below standstill for 100 ms sets STANDSTILL. -/
  | standstillDetect
  /-- SPEED_SOURCE_IMPLAUSIBLE (R126): A source disagreeing with its reference for 2 s is excluded and KIN_SPEED_IMPLAUSIBLE raised. -/
  | speedSourceImplausible (k : Nat)
  /-- SPEED_SOURCE_RESTORE (R126): An implausible source returns after 5 s of agreement. -/
  | speedSourceRestore (k : Nat)
  /-- ISOBUS_SPEED_TIMEOUT (R125): An ISOBUS speed source without a message for 300 ms becomes invalid. -/
  | isobusSpeedTimeout (k : Nat)
  /-- REVERSE_DETECT (R127): Course detection sets or clears REVERSE after 1 s beyond its angle threshold and raises KIN_REVERSE. -/
  | reverseDetect
  /-- HITCH_IMPLAUSIBLE_TIMEOUT (R138): A measured hitch angle off the model by 0.1 rad for 2 s is replaced by the model value. -/
  | hitchImplausibleTimeout
  /-- HITCH_RESTORE (R138): A measured hitch angle within 0.02 rad of the model for 5 s is restored. -/
  | hitchRestore
  /-- STEER_HOLD_EXPIRY (R138): 200 ms after a steer-sensor fault the steer angle is set to 0. -/
  | steerHoldExpiry
  /-- WING_HOLD_EXPIRY (R141): 200 ms after a wing sensor fault the wing angle and rate are set to 0. -/
  | wingHoldExpiry (h : Nat)
  /-- WING_SENSOR_RESTORE (R141): 1 s of good wing readings sets the wing's kflags bit again. -/
  | wingSensorRestore (h : Nat)
  /-- BOARD_FLUSH (R183): BOARD_FLUSH accepts a write-back or discard of dirty tiles with its snapshot at the next boundary. -/
  | boardFlush (d : Desc)
  /-- BOARD_FLUSH_DONE (R183): Every tile dirty at the snapshot has been written and the flush completes. -/
  | boardFlushDone (h : Nat)
  /-- BOARD_FLUSH_TIMEOUT (R183): Tiles still pinned 5 s after the snapshot complete the flush FLUSH_INCOMPLETE. -/
  | boardFlushTimeout (h : Nat)
  /-- BOARD_PAINT (R181): BOARD_PAINT accepts a polygon to be painted onto the coverage layer tile by tile. -/
  | boardPaint (d : Desc)
  /-- BOARD_PAINT_DONE (R181): The last tile of a paint is updated and the descriptor completes. -/
  | boardPaintDone (h : Nat)
  /-- BOARD_TILE_READ (R182): BOARD_TILE_READ writes a cached tile to the host, fetching it first if needed. -/
  | boardTileRead (d : Desc)
  /-- BOARD_TILE_WRITE (R182): BOARD_TILE_WRITE replaces a cached tile and leaves it dirty. -/
  | boardTileWrite (d : Desc)
  /-- BOARD_TILE_ADDR (R161): BOARD_TILE_ADDR replaces one directory entry and acts on any cached copy of the tile. -/
  | boardTileAddr (d : Desc)
  /-- BOARD_INVALIDATE (R182): BOARD_INVALIDATE drops clean cached tiles and directory groups of a rectangle. -/
  | boardInvalidate (d : Desc)
  /-- BOARD_QUERY (R175): BOARD_QUERY counts squares for a host footprint and reports them in the completion. -/
  | boardQuery (d : Desc)
  /-- PREFETCH_CORRIDOR (R165): Every 10 ms the board unit builds the prefetch corridor and queues fetches of uncached tiles. -/
  | prefetchCorridor (t : Nat)
  /-- TILE_FETCH_DONE (R163): A tile or directory fetch completes and the tile enters the cache. -/
  | tileFetchDone (h : Nat) (group : Bool) (tx ty : Nat) (data : List Byte)
  /-- TILE_WRITEBACK_DONE (R164): A dirty tile's write-back completes. -/
  | tileWritebackDone (h tx ty : Nat)
  /-- TILE_FLUSH_TIMER (R164): flush_ms after a tile first became dirty it is written back. -/
  | tileFlushTimer (h tx ty : Nat)
  /-- BOARD_HOST_ACCESS_FAIL (R177): A failed board host access holds the tile out or pins it for retry and raises BOARD_HOST_FAULT. -/
  | boardHostAccessFail (h kind tx ty : Nat)
  /-- TILE_HOLDOUT_RETRY (R177): 1 s after a failed read the held-out tile or group is retried. -/
  | tileHoldoutRetry (h : Nat) (group : Bool) (tx ty : Nat)
  /-- WRITEBACK_RETRY (R177): A failed write-back is retried every 100 ms. -/
  | writebackRetry (h tx ty : Nat)
  /-- BOARD_DEGRADED_END (R177): 10 s without a failure ends DEGRADED. -/
  | boardDegradedEnd (h : Nat)
  /-- MARK_RECORD_ARRIVAL (R170): A mark or query record arrives at the board unit and waits for the next board window. -/
  | markRecordArrival (pos : Nat) (query : Bool) (rec : List Byte)
  /-- BOARD_WINDOW (R174): In slots 7 to 11 the board unit applies marks in arrival order and then answers queries. -/
  | boardWindow
  /-- LATE_QUERY (R174): A query arriving after slot 7 is answered at once from the miss policy with LATE set. -/
  | lateQuery (pos : Nat) (rec : List Byte)
  /-- ANSWER_RECEIVE (R174): A member receives its channel's answer record from the lead. -/
  | answerReceive (rec : List Byte)
  /-- SCHED_CHANNEL_CMD (R209): SCHED_CHANNEL_CMD queues a host on or off edge for a channel in one of four forms. -/
  | schedChannelCmd (d : Desc)
  /-- SCHED_SECTION_CMD (R209): SCHED_SECTION_CMD queues a host edge on every member of a host-mode section. -/
  | schedSectionCmd (d : Desc)
  /-- SCHED_GATE (R201): SCHED_GATE opens or closes a section's gate at the next boundary. -/
  | schedGate (d : Desc)
  /-- SCHED_RATE (R224): SCHED_RATE sets a section's rate and unit at the next boundary. -/
  | schedRate (d : Desc)
  /-- SCHED_CANCEL (R224): SCHED_CANCEL clears queued unfired edges at the next boundary. -/
  | schedCancel (d : Desc)
  /-- SCHED_LATENCY_SET (R193): SCHED_LATENCY_SET sets learned latencies and clears rejection counts. -/
  | schedLatencySet (d : Desc)
  /-- SCHED_LATENCY_SAVE (R194): SCHED_LATENCY_SAVE writes changed latency records and completes when written. -/
  | schedLatencySave (d : Desc)
  /-- SCHED_LATENCY_ERASE (R224): SCHED_LATENCY_ERASE removes a latency store record. -/
  | schedLatencyErase (d : Desc)
  /-- PREDICTOR_FIRE (R196): The edge predictor's head compare is crossed and the edge drives the channel output. -/
  | predictorFire (h lag : Nat)
  /-- PRECHARGE_FIRE (R215): A ROW pre-charge compare fires and the meter turns the pre-charge counts. -/
  | prechargeFire (h lag : Nat)
  /-- LATENCY_WINDOW_CLOSE (R191): A sample window closes and updates the learned latency or records why no sample was taken. -/
  | latencyWindowClose (h vbat t0 : Nat) (codes : List Code)
  /-- SCHED_LATENCY_SHIFT (R191): The sixteenth consecutive outlier raises SCHED_LATENCY_SHIFT. -/
  | schedLatencyShift (h : Nat)
  /-- SCHED_VALVE_STUCK (R193): Three consecutive confirm-flagged on edges without signature raise the class 1 SCHED_VALVE_STUCK. -/
  | schedValveStuck (h : Nat)
  /-- LATENCY_PERIODIC_SAVE (R194): Every 10 minutes changed latency records are written to MRAM. -/
  | latencyPeriodicSave
  /-- SECTION_RECORD_RECEIVE (R202): A section record arrives at a member or lead carrying a decision or an edge outcome. -/
  | sectionRecordReceive (pos : Nat) (rec : List Byte)
  /-- TC_TIMES_RESEND (R207): A reported turn-on or turn-off time that moved by more than 10 ms is re-sent and SCHED_TC_TIMES raised. -/
  | tcTimesResend (h : Nat)
  /-- ROW_NO_SEED_TIMEOUT (R217): A row on and moving without a seed pulse for blocked_ms raises ROW_NO_SEED. -/
  | rowNoSeedTimeout (h : Nat)
  /-- LOOP_STAGE (R242): LOOP_STAGE validates a coefficient bank into a law's stage. -/
  | loopStage (d : Desc)
  /-- LOOP_SEAL (R242): LOOP_SEAL schedules the atomic swap of staged banks at a sample. -/
  | loopSeal (d : Desc)
  /-- LOOP_SETPOINT (R252): LOOP_SETPOINT sets a law's host target at the next sample. -/
  | loopSetpoint (d : Desc)
  /-- LOOP_MODE (R244): LOOP_MODE schedules a mode change that starts a transfer at its sample. -/
  | loopMode (d : Desc)
  /-- LOOP_MANUAL (R237): LOOP_MANUAL sets the manual output at the next sample. -/
  | loopManual (d : Desc)
  /-- LOOP_RC (R252): LOOP_RC clears the repetitive bins or stops or resumes learning. -/
  | loopRc (d : Desc)
  /-- LOOP_BANK_READ (R252): LOOP_BANK_READ writes a law's bank or stage to the host. -/
  | loopBankRead (d : Desc)
  /-- TRANSFER_TIME_EXPIRY (R244): At xfer_time the transfer ends or, if still diverging, TRANSFER_DIVERGENT is raised. -/
  | transferTimeExpiry (h : Nat)
  /-- LOOP_FE_TIMEOUT (R245): The following-error timer reaching fe_time raises LOOP_FOLLOWING_ERROR. -/
  | loopFeTimeout (h : Nat)
  /-- TRC_ARM (R251): Writing TRC_CTL.ARM = 1 arms the trace or is refused with CFG_ERR. -/
  | trcArm
  /-- TRC_STOP (R251): Writing TRC_CTL.ARM = 0 stops a capture or stream. -/
  | trcStop
  /-- TRC_FORCE (R251): Writing TRC_CTL.FORCE = 1 triggers an armed capture at once. -/
  | trcForce
  /-- TRACE_RECORD (R250): A recorded trace clock instant samples the probes into buffer entries. -/
  | traceRecord
  /-- TRACE_DRAIN (R251): Buffered trace entries are written to the trace ring as it has room, with TRACE_DONE at the end of a capture. -/
  | traceDrain
  /-- PG_GROUP_CONFIG (R257): PG_GROUP_CONFIG sets a period group's period, sync mode and anchor. -/
  | pgGroupConfig (d : Desc)
  /-- PG_TRIP_CONFIG (R266): PG_TRIP_CONFIG sets a trip input's use, class and flags. -/
  | pgTripConfig (d : Desc)
  /-- PG_TRIP_CLEAR (R269): PG_TRIP_CLEAR clears latched trips whose inputs are inactive. -/
  | pgTripClear (d : Desc)
  /-- PG_COMM_CONFIG (R270): PG_COMM_CONFIG sets a group's commutation mask table. -/
  | pgCommConfig (d : Desc)
  /-- PG_COMMUTATE (R271): PG_COMMUTATE sets or advances a group's commutation step. -/
  | pgCommutate (d : Desc)
  /-- PG_STATUS (R277): PG_STATUS writes the period group and trip status block. -/
  | pgStatus (d : Desc)
  /-- PERIOD_START (R258): At a period start the group's compares, duty, flags and masks load and the minimum-pulse test runs. -/
  | periodStart (g : Nat)
  /-- PG_COMPARE_EDGE (R259): A SET or CLR compare tick drives the edge channel latch. -/
  | pgCompareEdge (h : Nat) (clr : Bool)
  /-- TRIP_INPUT_ASSERT (R267): An active trip input forces its masked channels inactive or to safe levels and raises PG_TRIP. -/
  | tripInputAssert (n : Nat)
  /-- TRIP_RELEASE_CLEAR (R269): With clear on release, a trip input inactive for 10 µs clears the latch. -/
  | tripReleaseClear (n : Nat)
  /-- BLANKING_END (R268): The end of a channel's blanking lets a still-active blankable trip act. -/
  | blankingEnd (h : Nat)
  /-- SWN_TRANSITION (R264): SWNp reaching the incoming level ends the adaptive dead time. -/
  | swnTransition (p : Nat) (high : Bool) (t : Nat)
  /-- DEAD_TIME_MAX (R264): dt_max elapsing turns the incoming side on and counts a timeout. -/
  | deadTimeMax (h : Nat)
  /-- COMMUTATION_INPUT (R271): A GPIO edge or hall code changes the commutation step or sets FLOAT on an invalid code. -/
  | commutationInput (g gpio : Nat) (level : Bool)
  /-- SW_CMD (R300): SW_CMD schedules a host on or off of a static switch line. -/
  | swCmd (d : Desc)
  /-- SW_CMD_TAKE_EFFECT (R300): At its take-effect GTC the gate changes and SW_CMD completes. -/
  | swCmdTakeEffect (h : Nat)
  /-- SW_CLEAR (R295): SW_CLEAR clears named latches whose conditions have ended. -/
  | swClear (d : Desc)
  /-- SW_GROUP_STATUS (R300): SW_GROUP_STATUS writes group current, temperature and on-count records. -/
  | swGroupStatus (d : Desc)
  /-- SW_IN_PIN_EDGE (R283): A filtered edge on a switch's IN pin changes its control line. -/
  | swInPinEdge (gpio : Nat) (level : Bool)
  /-- SW_CURRENT_LIMIT (R285): A channel's current reaching 8 A starts regulation at the limit. -/
  | swCurrentLimit (line t : Nat)
  /-- SW_LIMIT_TIMEOUT (R285): The limit time ending turns the channel off as an overcurrent shutdown with cause 0. -/
  | swLimitTimeout (line : Nat)
  /-- SW_SHORT_CIRCUIT (R285): Output below 4 V while limiting turns the channel off within 2 µs with cause 1. -/
  | swShortCircuit (line t : Nat)
  /-- SW_RETRY_DELAY_END (R288): retry_delay ending restarts the channel unless a thermal condition holds. -/
  | swRetryDelayEnd (line : Nat)
  /-- SW_THERMAL_CONDITION_END (R288): A waiting retry proceeds once no thermal condition holds. -/
  | swThermalConditionEnd (line : Nat)
  /-- SW_DT_LIMIT_REACHED (R286): ΔT reaching dt_limit turns the channel off and raises SW_DT_LIMIT. -/
  | swDtLimitReached (line : Nat) (tj tcase : F32)
  /-- SW_DT_RECOVER (R286): ΔT falling 15 K below the limit turns the channel on again. -/
  | swDtRecover (line : Nat) (tj tcase : F32)
  /-- SW_THERMAL_LATCH (R287): A junction at 170 °C turns the channel off and latches THERMAL. -/
  | swThermalLatch (line : Nat) (tj : F32)
  /-- SW_FUSE_TICK (R289): Every 1 ms the fuse integrator updates and latches FUSE at 1. -/
  | swFuseTick (line : Nat) (codes : List Code) (tj tcase : F32)
  /-- SW_CLAMP_EVENT (R290): A turn-off with clamp conduction counts a clamp event and may latch FREEWHEEL_MISSING. -/
  | swClampEvent (line us : Nat)
  /-- SW_OPEN_LOAD_INTERVAL (R291): An on-interval ends and is judged for open load. -/
  | swOpenLoadInterval (line us peak : Nat)
  /-- SW_GROUP_AVERAGE (R281): Every 1 s group and device averages are computed and SW_GROUP_CURRENT raised when exceeded. -/
  | swGroupAverage
  /-- SOL_BOOST_CONFIG (R307): SOL_BOOST_CONFIG sets the boost converter. -/
  | solBoostConfig (d : Desc)
  /-- SOL_CMD (R323): SOL_CMD schedules a host on or off of a solenoid channel. -/
  | solCmd (d : Desc)
  /-- SOL_CLEAR (R319): SOL_CLEAR clears the named solenoid latches. -/
  | solClear (d : Desc)
  /-- SOL_BOOST_STATUS (R323): SOL_BOOST_STATUS writes the boost converter status block. -/
  | solBoostStatus (d : Desc)
  /-- SOL_ON_COMMAND (R310): A gate opening starts an actuation, queuing for boost or entering PEAK. -/
  | solOnCommand (h : Nat)
  /-- SOL_OFF_COMMAND (R311): A gate closing starts DECAY on the high or low side. -/
  | solOffCommand (h : Nat)
  /-- BOOST_CONVERTER_PERIOD (R308): Each converter period turns Q_BST on until current limit or 90 % while a charge is requested. -/
  | boostConverterPeriod (t : Nat) (volts : F32) (limit : Bool)
  /-- VBOOST_REACHED (R309): VBOOST reaching vboost starts the head channel's boost. -/
  | vboostReached (t : Nat) (volts : F32)
  /-- BOOST_WAIT_EXPIRY (R309): boost_wait expiring runs the channel without boost and raises BOOST_SKIPPED. -/
  | boostWaitExpiry (h : Nat)
  /-- BOOST_OVERVOLTAGE (R309): VBOOST above its limit holds Q_BST off and raises BOOST_OV. -/
  | boostOvervoltage (volts : F32)
  /-- BOOST_END (R310): A boost ends at i_boost or t_boost and the channel enters PEAK. -/
  | boostEnd (h t : Nat) (atCurrent : Bool)
  /-- PEAK_END (R310): t_peak expiring moves the channel to HOLD. -/
  | peakEnd (h : Nat)
  /-- SOL_REGULATOR_THRESHOLD (R306): A current threshold crossing switches the regulating gate. -/
  | solRegulatorThreshold (h t : Nat) (upper : Bool)
  /-- SOL_DECAY_END (R311): Current below i_off ends DECAY and turns Q_Ln off. -/
  | solDecayEnd (h t : Nat)
  /-- SOL_TRIP_CURRENT (R318): Current at i_trip turns the gates off and latches OVERCURRENT. -/
  | solTripCurrent (h t : Nat)
  /-- SOL_OPEN_TIMEOUT (R318): Current below 10 % of target for t_open latches OPEN. -/
  | solOpenTimeout (h : Nat)
  /-- SOL_SIGNATURE_WINDOW_CLOSE (R313): A solenoid's signature window closes and SOL_CMD completes with t_sig and reason. -/
  | solSignatureWindowClose (h t0 : Nat) (codes last : List Code)
  /-- AXIS_TARGET (R328): AXIS_TARGET schedules a position, relative, velocity or timed target. -/
  | axisTarget (d : Desc)
  /-- AXIS_STOP (R347): AXIS_STOP quick-stops or cuts the axis and completes at rest. -/
  | axisStop (d : Desc)
  /-- AXIS_COMPARE (R338): AXIS_COMPARE queues a position compare with an optional output edge. -/
  | axisCompare (d : Desc)
  /-- AXIS_HOME (R341): AXIS_HOME starts the homing state machine. -/
  | axisHome (d : Desc)
  /-- AXIS_SET_POS (R347): AXIS_SET_POS sets the position of an axis at standstill. -/
  | axisSetPos (d : Desc)
  /-- GENERATOR_UPDATE (R329): Every 2.5 µs the profile generator updates position, velocity and acceleration toward its target. -/
  | generatorUpdate
  /-- AXIS_COMPARE_FIRE (R338): An armed axis compare is crossed and drives its edge channel. -/
  | axisCompareFire (h : Nat)
  /-- STEPIN_EDGE (R336): A STEPIN rising edge adds stepin_mult counts to a follow-mode target. -/
  | stepinEdge (n t : Nat)
  /-- STEPIN_TIMEOUT (R336): No STEPIN edge for stepin_to sets v_est to 0. -/
  | stepinTimeout (h : Nat)
  /-- AXIS_IDLE_TIMEOUT (R337): idle_ms of standstill applies the standstill option. -/
  | axisIdleTimeout (h : Nat)
  /-- AXIS_ENABLE_SETUP_END (R337): en_setup after en_gpio enables, held motion starts. -/
  | axisEnableSetupEnd (h : Nat)
  /-- AXIS_LIMIT_ASSERT (R339): A limit input asserting quick-stops the axis or raises AXIS_LIMIT. -/
  | axisLimitAssert (gpio : Nat) (level : Bool)
  /-- LIMIT_CHATTER (R340): More than chat_k transitions within chat_w quick-stops the axis with a class 1 fault. -/
  | limitChatter (h gpio : Nat)
  /-- HOME_INPUT_EDGE (R341): A home input edge goes to the homing table as an event. -/
  | homeInputEdge (gpio : Nat) (level : Bool)
  /-- AXIS_FE_TIMEOUT (R343): A following error persisting for fe_time raises AXIS_FOLLOWING_ERROR. -/
  | axisFeTimeout (h : Nat)
  /-- FB_SET_POS (R369): FB_SET_POS sets a counting feedback's position at the next boundary. -/
  | fbSetPos (d : Desc)
  /-- FB_CLEAR (R364): FB_CLEAR clears a feedback fault whose condition has ended. -/
  | fbClear (d : Desc)
  /-- FB_FILTER_SET (R352): FB_FILTER_SET sets the filter length of an unclaimed input. -/
  | fbFilterSet (d : Desc)
  /-- FB_ENCO_CONFIG (R366): FB_ENCO_CONFIG sets an encoder output's mode at the next boundary. -/
  | fbEncoConfig (d : Desc)
  /-- FILTERED_EDGE (R352): An input level stable for N samples is accepted and stamped. -/
  | filteredEdge (inp : Inp) (level : Bool) (t n : Nat)
  /-- SERIAL_READ_START (R357): At a frame boundary a serial port starts reading its encoder. -/
  | serialReadStart (port : Nat)
  /-- SERIAL_FRAME_DONE (R360): A serial frame ends and is judged good or bad. -/
  | serialFrameDone (port : Nat) (line : Bool) (bs : List Bool)
  /-- AIN_SAMPLE (R362): An AIN input is sampled at 20 kS/s. -/
  | ainSample (n t code : Nat)
  /-- AIN_RANGE_TIMEOUT (R362): V outside range for 10 ms faults with reason RANGE. -/
  | ainRangeTimeout (h : Nat)
  /-- ENCO_SYNTH_STEP (R366): A synthesised encoder output makes one quadrature step toward its target. -/
  | encoSynthStep (j : Nat)
  /-- CAN_SEND (R380): CAN_SEND places a frame in a transmit buffer. -/
  | canSend (d : Desc)
  /-- CAN_READ (R378): CAN_READ waits for frames in a FIFO. -/
  | canRead (d : Desc)
  /-- CAN_READ_DONE (R378): The minimum frame count or timeout is reached and frames are written. -/
  | canReadDone (h fifo : Nat)
  /-- CAN_FILTER_SET (R377): CAN_FILTER_SET replaces a port's filter list at a boundary. -/
  | canFilterSet (d : Desc)
  /-- CAN_TX_CONFIG (R381): CAN_TX_CONFIG makes a transmit buffer periodic. -/
  | canTxConfig (d : Desc)
  /-- CAN_TX_RELEASE (R385): CAN_TX_RELEASE clears a buffer's suspension and re-queues its frame. -/
  | canTxRelease (d : Desc)
  /-- CAN_SIGNAL_WRITE (R379): CAN_SIGNAL_WRITE writes up to six port signals. -/
  | canSignalWrite (d : Desc)
  /-- CAN_WAKE_CONFIG (R387): CAN_WAKE_CONFIG sets the CAN wake sources. -/
  | canWakeConfig (d : Desc)
  /-- CAN_INH_OFF (R388): CAN_INH_OFF puts the transceiver in low-power mode and sets INH to high impedance. -/
  | canInhOff (d : Desc)
  /-- CAN_FRAME_RECEIVED (R377): A received frame is filtered, stored, decoded or discarded. -/
  | canFrameReceived (h : Nat) (f : CanFrame) (t : Nat)
  /-- CAN_FRAME_TRANSMITTED (R380): A transmission succeeds and its CAN_SEND completes. -/
  | canFrameTransmitted (h buf start t : Nat)
  /-- CAN_TX_ERROR (R382): A detected error updates the error counters and error state. -/
  | canTxError (h : Nat) (e : CanErr)
  /-- CAN_PERIODIC_QUEUE (R381): A periodic buffer is queued at its period instant. -/
  | canPeriodicQueue (h buf : Nat)
  /-- CAN_BUS_OFF_RECOVERY (R383): After 128 × 11 recessive bits the port returns to error active. -/
  | canBusOffRecovery (h : Nat)
  /-- LONE_NODE (R384): 64 acknowledge-error attempts raise LONE_NODE and start throttling. -/
  | loneNode (h : Nat)
  /-- LONE_NODE_THROTTLE (R384): Each 50 ms a throttled port makes one transmission attempt. -/
  | loneNodeThrottle (h : Nat)
  /-- IDCOLL (R385): An identifier collision is raised and a third suspends the buffer. -/
  | idcoll (h buf : Nat)
  /-- CAN_WAKE (R388): A CAN wake source wakes the device and drives INH high. -/
  | canWake (reason port : Nat) (f : CanFrame)
  /-- ISB_CONFIG (R389): ISB_CONFIG configures and starts or stops the ISOBUS services. -/
  | isbConfig (d : Desc)
  /-- ISB_POOL_LOAD (R395): ISB_POOL_LOAD loads and validates the device descriptor object pool. -/
  | isbPoolLoad (d : Desc)
  /-- ISB_POOL_SAVE (R395): ISB_POOL_SAVE stores the pool in MRAM. -/
  | isbPoolSave (d : Desc)
  /-- ISB_PGN_SEND (R392): ISB_PGN_SEND sends one message by single frame or transport. -/
  | isbPgnSend (d : Desc)
  /-- ISB_PGN_READ (R392): ISB_PGN_READ completes with the oldest received message of a PGN. -/
  | isbPgnRead (d : Desc)
  /-- ISB_STATUS (R401): ISB_STATUS writes the services status block. -/
  | isbStatus (d : Desc)
  /-- ADDRESS_CLAIM_START (R390): At start, bus-on or wake the services send Address Claimed. -/
  | addressClaimStart
  /-- ADDRESS_CLAIM_TIMEOUT (R390): 250 ms without contention claims the address. -/
  | addressClaimTimeout
  /-- ADDRESS_CLAIM_RECEIVED (R390): A competing claim is resolved by NAME, possibly losing the address. -/
  | addressClaimReceived (src name : Nat)
  /-- REQUEST_FOR_ADDRESS_CLAIMED (R390): The services answer a Request for Address Claimed. -/
  | requestForAddressClaimed (src : Nat)
  /-- TP_CONNECTION_REQUEST (R391): A transport connection request is accepted or aborted. -/
  | tpConnectionRequest (src pgn size : Nat) (bcast : Bool)
  /-- TP_MESSAGE_COMPLETE (R391): A received transport message completes and is delivered or rejected. -/
  | tpMessageComplete (send : Bool) (peer pgn : Nat) (prio : Nat) (data : List Byte)
  /-- TP_TIMEOUT (R391): A transport protocol timeout aborts a session. -/
  | tpTimeout (send : Bool) (peer pgn reason : Nat)
  /-- TC_STATUS_RECEIVED (R394): A Task Controller status message advances the client's states. -/
  | tcStatusReceived (inst addr : Nat) (version : Option Nat)
  /-- TC_STATUS_LOST (R394): No TC status for 6 s raises ISB_TC_LOST and closes TC-mode gates. -/
  | tcStatusLost
  /-- TC_POOL_RESPONSE (R394): The Task Controller's pool answer moves the client to ACTIVE or REFUSED. -/
  | tcPoolResponse (ok : Bool) (err : Nat)
  /-- SETPOINT_CONDENSED_WORK_STATE (R397): A condensed work state setpoint commands TC-mode sections. -/
  | setpointCondensedWorkState (group value t : Nat)
  /-- TC_PROCESS_DATA (R396): A process data setpoint sets gates or rates. -/
  | tcProcessData (e : TcElem) (pd : Pd) (value : Int)
  /-- MEASUREMENT_COMMAND (R399): A measurement command is honoured or refused. -/
  | measurementCommand (e : TcElem) (pd : Pd) (cmd : Nat) (value : Int)
  /-- PD_MEASUREMENT_TRIGGER (R399): A measurement interval or threshold sends process data. -/
  | pdMeasurementTrigger (k : Nat)
  /-- WORK_STATE_DISAGREE_TIMEOUT (R398): Members disagreeing for 500 ms report the section as 0b10. -/
  | workStateDisagreeTimeout (h : Nat)
  /-- LEGACY_FRAME (R410): A 32-clock legacy frame ends and is checked, executed and replied to. -/
  | legacyFrame (w : Nat)
  /-- LEGACY_INVALID_FRAME (R410): An invalid frame sets STAT.FRAME and returns an error reply. -/
  | legacyInvalidFrame (clocks w : Nat)
  /-- LEGACY_TICK (R413): Each 1 ms tick applies due section changes and staggered turn-ons. -/
  | legacyTick
  /-- ENA_N_EDGE (R415): ENA_N high turns sections off; ENA_N low restores them staggered. -/
  | enaNEdge (high : Bool)
  /-- LEGACY_COMLOSS (R420): 500 ms without a valid frame turns every section off and raises FS_COMLOSS. -/
  | legacyComloss
  /-- LEGACY_LOCKOUT_END (R421): A password lockout ends. -/
  | legacyLockoutEnd
  /-- FS_PROMOTE (R426): FS_PROMOTE accepts a promotion to native mode. -/
  | fsPromote (d : Desc)
  /-- FS_STATUS (R429): FS_STATUS writes legacy status without clearing. -/
  | fsStatus (d : Desc)
  /-- PROMOTION_TAKE_EFFECT (R427): At B the legacy block stops and kept sections become ENABLED SWITCH objects without a gap. -/
  | promotionTakeEffect
  /-- SEC_INFO (R458): SEC_INFO writes the security status block. -/
  | secInfo (d : Desc)
  /-- SEC_CHALLENGE (R442): SEC_CHALLENGE issues a device nonce and session identifier. -/
  | secChallenge (d : Desc)
  /-- SEC_OPEN (R443): SEC_OPEN checks host_mac and opens the session. -/
  | secOpen (d : Desc)
  /-- SEC_CLOSE (R449): A tagged SEC_CLOSE closes its session. -/
  | secClose (d : Desc)
  /-- SEC_PROVISION (R439): SEC_PROVISION loads the OWNER key in clear while slot 0 is EMPTY. -/
  | secProvision (d : Desc)
  /-- SEC_KEY_LOAD (R440): SEC_KEY_LOAD unwraps and loads a key slot. -/
  | secKeyLoad (d : Desc)
  /-- SEC_KEY_ERASE (R440): SEC_KEY_ERASE empties a key slot 1 to 7. -/
  | secKeyErase (d : Desc)
  /-- SEC_POLICY (R437): SEC_POLICY sets the untagged role. -/
  | secPolicy (d : Desc)
  /-- SEC_FW_BEGIN (R453): SEC_FW_BEGIN starts a firmware update of a slot. -/
  | secFwBegin (d : Desc)
  /-- SEC_FW_WRITE (R453): SEC_FW_WRITE writes a block into the target slot. -/
  | secFwWrite (d : Desc)
  /-- SEC_FW_COMMIT (R453): SEC_FW_COMMIT validates the slot and makes it the boot candidate. -/
  | secFwCommit (d : Desc)
  /-- SEC_DEBUG_UNLOCK (R455): SEC_DEBUG_UNLOCK opens boundary-scan or engine debug until reset. -/
  | secDebugUnlock (d : Desc)
  /-- SEC_ZEROIZE (R456): SEC_ZEROIZE starts zeroization and completes when the erase is done. -/
  | secZeroize (d : Desc)
  /-- CHALLENGE_EXPIRY (R442): A challenge expires 5 s after its completion. -/
  | challengeExpiry (sq : Nat)
  /-- SESSION_IDLE_TIMEOUT (R449): No tagged descriptor for ttl closes the session. -/
  | sessionIdleTimeout (sq : Nat)
  /-- SESSION_TAG_FAILURES (R449): Three consecutive BAD_TAG close the session and count an authentication failure. -/
  | sessionTagFailures (sq : Nat)
  /-- SEC_LOCKOUT_END (R450): A key slot's authentication lockout ends. -/
  | secLockoutEnd (slot : Nat)
  /-- ZEROIZE_PIN (R456): ZEROIZE_N low for 1 ms starts zeroization. -/
  | zeroizePin
  /-- ZEROIZE_ERASE_DONE (R456): The key erase completes and SEC_ZEROIZED is raised and logged. -/
  | zeroizeEraseDone
  /-- ISL_WDT_SERVICE (R472): ISL_WDT_SERVICE restarts the watchdog when token and window match. -/
  | islWdtService (d : Desc)
  /-- ISL_FAULT_CLEAR (R468): ISL_FAULT_CLEAR checks that fault conditions have ended. -/
  | islFaultClear (d : Desc)
  /-- FAULT_CLEAR_TAKE_EFFECT (R468): At the next boundary the safe force is released and ISL_FAULT_CLEARED raised. -/
  | faultClearTakeEffect
  /-- ISL_RESET (R483): ISL_RESET completes and starts a SOFT reset 1 ms later. -/
  | islReset (d : Desc)
  /-- SOFT_RESET_START (R473): 1 ms after ISL_RESET the reset steps begin with cause SOFT. -/
  | softResetStart
  /-- ISL_LOG_READ (R480): ISL_LOG_READ writes log entries in index order. -/
  | islLogRead (d : Desc)
  /-- ISL_LOCK_WRITE (R11): Writing ISL_LOCK bit 0 closes the set-up lock until POR. -/
  | islLockWrite
  /-- WDT_ARM (R471): Writing WDT_CTL.EN = 1 arms the watchdog. -/
  | wdtArm
  /-- WDT_DISARM (R471): Writing WDT_CTL.EN = 0 while unlocked disarms the watchdog. -/
  | wdtDisarm
  /-- ESTOP_N_LOW (R469): ESTOP_N low for 50 ns sets ESTOP_LATCH and drives every output inactive. -/
  | estopNLow
  /-- ESTOP_RELEASE_TIMER (R469): ESTOP_N high for 10 ms raises ISL_ESTOP_RELEASED. -/
  | estopReleaseTimer
  /-- WATCHDOG_EXPIRY (R473): Watchdog expiry applies dispositions, writes the last-gasp record and resets the logic die. -/
  | watchdogExpiry
  /-- HOLD_TIMER_EXPIRY (R476): 500 ms after reset every unadopted HOLD line turns off. -/
  | holdTimerExpiry
  /-- TCLK_STOP (R474): No TCLK edge for 1 µs forces safe outputs and resets with cause CLOCK. -/
  | tclkStop
  /-- PLL_UNLOCK (R474): PLL_LOCK low for 2 µs resets with cause CLOCK. -/
  | pllUnlock
  /-- ACLK_FREQ_DEVIATION (R474): ACLK off by more than 10 % resets with cause CLOCK. -/
  | aclkFreqDeviation (ppm : Int)
  /-- DEBUG_HALT (R463): An engine debug halt asserts the safe force and raises ISL_DEBUG_HALT. -/
  | debugHalt (engine : Nat)
  /-- PDIE_LINK_LOSS (R481): No valid power-die status for 10 µs raises ISL_PDIE_LINK. -/
  | pdieLinkLoss
  /-- VIO_F_LOW (R487): VIO_F below 2.7 V for 10 µs raises PWR_VIOF_LOW. -/
  | vioFLow
  /-- VIO_H_LOW (R487): VIO_H below 1.55 V raises PWR_VIOH_LOW and may detach. -/
  | vioHLow
  /-- VDD_WARNING (R489): VDD below the warning level for 2 µs sets BOW and defers MRAM writes. -/
  | vddWarning (mv : Nat)
  /-- VDD_WARNING_END (R489): VDD above warning + 50 mV for 1 ms clears BOW and runs deferred writes. -/
  | vddWarningEnd (mv lowest : Nat)
  /-- VDD_WARNING_SUSTAINED (R489): No recovery within 100 ms raises SUPPLY_LOW_SUSTAINED. -/
  | vddWarningSustained
  /-- BROWN_OUT_RESET (R494): VDD below 2.50 V resets with cause BOR and all outputs OFF. -/
  | brownOutReset
  /-- POWER_ON_RESET (R494): VDD below 2.30 V resets with cause POR. -/
  | powerOnReset
  /-- RESET_N_LOW (R493): RESET_N low for 1 µs resets with cause RESET_N. -/
  | resetNLow
  /-- VBAT_UVLO_ENTER (R492): A VBAT group below 5.5 V locks out and raises PWR_VBAT_UVLO. -/
  | vbatUvloEnter (group mv : Nat)
  /-- VBAT_UVLO_LEAVE (R492): A VBAT group above 6.0 V leaves lockout. -/
  | vbatUvloLeave (group mv : Nat)
  /-- VBAT_WARNING_ENTER (R492): VBAT below its warning for 100 µs raises PWR_VBAT_LOW. -/
  | vbatWarningEnter (group mv : Nat)
  /-- VBAT_WARNING_LEAVE (R492): VBAT above warning + 0.5 V for 1 ms ends the warning. -/
  | vbatWarningLeave (group mv : Nat)
  /-- VBAT_HIGH_ENTER (R492): VBAT above 33 V for 100 µs raises PWR_VBAT_HIGH. -/
  | vbatHighEnter (group mv : Nat)
  /-- VBAT_HIGH_LEAVE (R492): VBAT below 32 V for 1 ms ends the high condition. -/
  | vbatHighLeave (group mv : Nat)
  /-- PWR_SLEEP (R497): PWR_SLEEP accepts SLEEP entry and aborts pending deferred descriptors. -/
  | pwrSleep (d : Desc)
  /-- SLEEP_ENTRY (R498): At boundary E objects are disabled and outputs held OFF. -/
  | sleepEntry
  /-- SLEEP_COMPLETE (R497): PWR_SLEEP completes and engines and PLL stop. -/
  | sleepComplete (t : Nat)
  /-- WAKE_SOURCE (R500): A wake source restarts the PLL, links and engines and raises PWR_WAKE. -/
  | wakeSource (reason t : Nat)
  /-- WAKE_TIMER_EXPIRY (R502): The wake timer expires and wakes the device. -/
  | wakeTimerExpiry
  /-- PWR_PARK (R501): PWR_PARK turns outputs off, saves latency records and powers down. -/
  | pwrPark (d : Desc)
  /-- PWR_WAKE_CONFIG (R502): PWR_WAKE_CONFIG sets the wake sources. -/
  | pwrWakeConfig (d : Desc)
  /-- PWR_BOOT_POLICY (R507): PWR_BOOT_POLICY sets the boot confirmation policy. -/
  | pwrBootPolicy (d : Desc)
  /-- PWR_BOOT_CONFIRM (R508): PWR_BOOT_CONFIRM confirms the boot. -/
  | pwrBootConfirm (d : Desc)
  /-- PWR_BOOT_REPORT (R511): PWR_BOOT_REPORT writes the boot report block. -/
  | pwrBootReport (d : Desc)
  /-- PWR_RETRY_BOOT (R510): PWR_RETRY_BOOT clears BOOT_COUNT and resets from bare king. -/
  | pwrRetryBoot (d : Desc)
  /-- RESET_RELEASE (R503): At reset release the boot ROM acts on the boot counter and starts booting or enters bare king. -/
  | resetRelease (straps : Nat)
  /-- BOOT_STAGE_COMPLETE (R505): A boot stage finishes and the next begins. -/
  | bootStageComplete (t : Nat)
  /-- BOOT_STAGE_FAIL (R506): A boot stage failure resets with cause BOOT and records the error. -/
  | bootStageFail (err alg : Nat)
  /-- END_OF_BOOT (R505): The end of boot releases FAULT_N, starts the watchdog and serves rings. -/
  | endOfBoot (t : Nat)
  /-- BOOT_CONFIRM_TIMEOUT (R507): No confirmation within 5 s resets with CONFIRM_TIMEOUT. -/
  | bootConfirmTimeout
  /-- SYS_ECH_MAP_WRITE (R519): A SYS_ECH_MAP write remaps unused edge channels 112 to 127 to GPIOs. -/
  | sysEchMapWrite (v : Nat)
  /-- PCIE_LINK_TRAINED (R32): The PCIe link completes training at x1 or x2 and HIF_STAT.LINK leaves 0b00. -/
  | pcieLinkTrained (lanes : Nat)
  /-- LATENCY_RECORDS_WRITTEN (R194): The MRAM write of changed latency records finishes and a pending SCHED_LATENCY_SAVE completes. -/
  | latencyRecordsWritten
  /-- PARK_WRITES_DONE (R501): PARK's latency writes finish or its 100 ms deferral wait runs out; the reset record is written, PWR_PARK completes and the device powers down. -/
  | parkWritesDone
  /-- ESTOP_N_HIGH (R469): ESTOP_N returns high, clearing ISL_STAT.ESTOP_PIN and starting the 10 ms release timer. -/
  | estopNHigh
  /-- ZEROIZE_N_HIGH (R456): ZEROIZE_N returns high, so SEC_PROVISION, SEC_KEY_LOAD and SEC_CHALLENGE are no longer refused with ZEROIZED. -/
  | zeroizeNHigh
  /-- VIO_F_RECOVERED (R487): VIO_F has been above 2.9 V for 10 ms, which ends the PWR_VIOF_LOW condition and sets VIOF_OK. -/
  | vioFRecovered
  /-- VIO_H_RECOVERED (R487): VIO_H has been above 1.65 V for 10 ms, which ends the PWR_VIOH_LOW condition and sets VIOH_OK. -/
  | vioHRecovered
  /-- PDIE_LINK_RESTORED (R468): The power-die status bus has delivered valid status for 10 ms, which ends the ISL_PDIE_LINK condition. -/
  | pdieLinkRestored
  /-- ENGINE_DEBUG_RESUME (R463): The last halted engine is resumed through debug access, which ends the debug-halt safe force and the ISL_DEBUG_HALT condition. -/
  | engineDebugResume (engine : Nat)
  /-- TRIP_INPUT_RELEASE (R269): A TRIPn input becomes inactive after its filter, so PG_TRIP_CLEAR can clear its latch and cycle trips stop acting again. -/
  | tripInputRelease (n : Nat)
  deriving DecidableEq, Repr

end Sys2Proof
end

