-- ==== Sys2Proof/Decode.lean ====
section
/-! DEFINITION. The reading of a table word: spec/opcode_table.json gives no row any bits, so no word spells a
command. -/

namespace Sys2Proof

/-- The command that `nbits` bits `w` spell by the opcode table: none, since no row has bits. -/
def decodeTableWord (_nbits _w : Nat) : Option Instr := none

end Sys2Proof
end

