-- ==== Sys2Proof/Config.lean ====
section
/-! DEFINITION. What the spec leaves open or an implementation fixes, as constants without a body: no proof can
see their values, so a statement holds whatever they are. -/

namespace Sys2Proof.Config

/-- A free value: the `n`-th one that the running device takes (log 7). -/
opaque freeValue : Nat → Nat

/-- Whether an open rounding of the fraction `n / d`, at the place `tag`, goes up (log 9). -/
opaque roundUp : Nat → Int → Nat → Bool

/-- The device's unique identifier, SEC_UID (R435): set at manufacture. -/
opaque uid : BitVec 64

/-- The two Bahelin key digests held in the boot ROM (R452). -/
opaque keyDigest : Bool → BitVec 256

/-- The rollback value and the version of the factory image (R454): they belong to the firmware release. -/
opaque factoryRollback : BitVec 6
opaque factoryVersion : BitVec 32

/-- What a member knows of a wing that only the lead's WING object describes (R140, R143): its parent and its hinge
[mm]. The manual does not say how a member learns them (log 17). -/
opaque wing (id : BitVec 3) : BitVec 8 × BitVec 32 × BitVec 32

/-- What a device element of an object pool is (R395). -/
inductive ElemKind where
  | device | function | section_ | other
  deriving DecidableEq, Repr

/-- A device element: kind, element number, object identifier, the parent's identifier, and the process data that hang
under it. -/
structure PoolElem where
  kind : ElemKind
  num : Nat
  id : Nat
  parent : Nat
  dpds : List Pd
  deriving DecidableEq, Repr

/-- An object pool: how many Device objects, and its elements. -/
structure Pool where
  devices : Nat
  elems : List PoolElem
  deriving DecidableEq, Repr

/-- The objects of a pool in the binary form of ISO 11783-10, which the manual does not give (R395, log 23); none where
one does not parse. -/
opaque poolParse : List Byte → Option Pool

/-- The ISO 11783-11 number of a process data designation, which the manual does not give (R396, log 23). -/
opaque ddi : Pd → BitVec 16

/-! ## The estimator (R129, R130; log 16)

The manual gives the filter's states, its measurements, their σ and their gates, and states no process noise, no initial
covariance and no error-state convention: the four operations of the filter and its start are open. -/

/-- The estimate: the nominal state (position east, north, up [mm]; velocity east, north, up [mm/s]; heading, pitch, roll
[rad]; gyro bias x, y, z [rad/s]; accelerometer bias x, y, z [m/s²]; speed scale), in 2^-96, and the 16 × 16 covariance
row by row. -/
structure KfEst where
  nom : List Int := []
  cov : List Int := []
  deriving DecidableEq, Repr, Inhabited

/-- What a run propagates with: whether the IMU is lost, angular rate [rad/s] and acceleration or specific force [m/s²]
in the tractor frame, in 2^-96. -/
structure KfImu where
  lost : Bool := false
  gyro : List Int := [0, 0, 0]
  acc : List Int := [0, 0, 0]
  deriving DecidableEq, Repr, Inhabited

/-- A measurement as the filter takes it: 0 position at the antenna, 1 velocity at the antenna, 2 heading, 3 heading from
course, 4 source speed, 5 non-holonomic, 6 zero velocity; its values and σ, and the arm of its point, in 2^-96. -/
structure KfMeas where
  kind : Nat := 0
  z : List Int := []
  sigma : List Int := []
  arm : List Int := []
  /-- source speed: at the implement axle, and the scale factor applies -/
  axle : Bool := false
  scaled : Bool := false
  deriving DecidableEq, Repr, Inhabited

/-- The estimate at KIN_ENABLE. -/
opaque kfStart : KfEst
/-- The estimate 1 ms later. -/
opaque kfPropagate : KfEst → KfImu → KfEst
/-- d² × 100 of a measurement's innovation. -/
opaque kfDistance : KfEst → KfMeas → Nat
/-- The estimate after an update, the error state injected and reset. -/
opaque kfUpdate : KfEst → KfMeas → KfEst
/-- The horizontal σ of an estimate [mm]. -/
opaque kfSigma : KfEst → Nat
/-- The acceleration of free fall at the machine [m/s²], in 2^-96. -/
opaque gravity : Int

end Sys2Proof.Config
end

