-- ==== Sys2Proof/Machine/Crc.lean ====
section
/-! DEFINITION. The check codes of the host interface: CRC-16 of the descriptor seal (R39) and CRC-32 of
parameter blocks and table images (R38, R96). -/

namespace Sys2Proof.Machine

/-- One bit of the CRC-16 register, polynomial 0x1021, not reflected (R39). -/
def crc16Bit (c : Nat) : Nat :=
  if c / 0x8000 % 2 = 1 then (2 * c % 0x10000) ^^^ 0x1021 else 2 * c % 0x10000

/-- One byte of CRC-16. -/
def crc16Byte (c : Nat) (b : Byte) : Nat :=
  crc16Bit (crc16Bit (crc16Bit (crc16Bit (crc16Bit (crc16Bit (crc16Bit (crc16Bit
    (c ^^^ (b.toNat * 256)))))))))

/-- CRC-16, initial value 0xFFFF, no final XOR (R39). -/
def crc16 (bs : List Byte) : Nat := bs.foldl crc16Byte 0xFFFF

/-- One bit of the reflected CRC-32 register, polynomial 0x04C1_1DB7 (R38). -/
def crc32Bit (c : Nat) : Nat := if c % 2 = 1 then (c / 2) ^^^ 0xEDB88320 else c / 2

/-- One byte of CRC-32. -/
def crc32Byte (c : Nat) (b : Byte) : Nat :=
  crc32Bit (crc32Bit (crc32Bit (crc32Bit (crc32Bit (crc32Bit (crc32Bit (crc32Bit
    (c ^^^ b.toNat))))))))

/-- CRC-32 of IEEE 802.3 (R38). -/
def crc32 (bs : List Byte) : Nat := bs.foldl crc32Byte 0xFFFFFFFF ^^^ 0xFFFFFFFF

/-- A list with the `n` bytes from `off` replaced by zeros (for CRC fields). -/
def zeroSpan (bs : List Byte) (off n : Nat) : List Byte :=
  bs.take off ++ List.replicate (min n (bs.length - off)) 0 ++ bs.drop (off + n)

/-- The seal of a 64 B descriptor: CRC-16 with bytes 44 and 45 taken as zero (R39). -/
def sealOf (d : List Byte) : Nat := crc16 (zeroSpan d 44 2)

end Sys2Proof.Machine
end

