-- ==== Sys2Proof/Machine/Float.lean ====
section
/-! DEFINITION. IEEE 754 binary32 arithmetic (R8), rounded to nearest, ties to even. A finite value is read as
an exact integer in units of 2^-149, so every operation is one exact integer computation and one rounding. -/

namespace Sys2Proof.Machine

/-- The quiet NaN that the operations below give. -/
def fNaN : F32 := 0x7FC00000#32

/-- Plus and minus infinity. -/
def fInf (neg : Bool) : F32 := if neg then 0xFF800000#32 else 0x7F800000#32

def fZero : F32 := 0#32
def fOne : F32 := 0x3F800000#32

def fNeg? (x : F32) : Bool := bit x.toNat 31
def fIsNaN (x : F32) : Bool := bits x.toNat 23 8 == 255 && bits x.toNat 0 23 != 0
def fIsInf (x : F32) : Bool := bits x.toNat 23 8 == 255 && bits x.toNat 0 23 == 0

/-- Neither infinite nor a NaN. -/
def fFinite (x : F32) : Bool := bits x.toNat 23 8 != 255

/-- The magnitude of a finite value in units of 2^-149. -/
def fMag (x : F32) : Nat :=
  let e := bits x.toNat 23 8
  let m := bits x.toNat 0 23
  if e = 0 then m else (2 ^ 23 + m) * 2 ^ (e - 1)

/-- A finite value in units of 2^-149. An infinity reads as a number beyond every finite value. -/
def fVal (x : F32) : Int :=
  let m : Int := if fIsInf x then (2 : Int) ^ 300 else fMag x
  if fNeg? x then -m else m

/-- The integer nearest to `n / d`, ties to even. -/
def divRne (n d : Nat) : Nat :=
  let q := n / d
  let r := n % d
  if 2 * r > d then q + 1 else if 2 * r = d ∧ q % 2 = 1 then q + 1 else q

/-- The binary32 value nearest to `n / d` units of 2^-149, ties to even, infinity on overflow. -/
def fRound (neg : Bool) (n d : Nat) : F32 :=
  let q := n / d
  let k := Nat.log2 q - 23
  let m := divRne n (d * 2 ^ k)
  let b := k * 2 ^ 23 + m
  let b := if b ≥ 0x7F800000 then 0x7F800000 else b
  BitVec.ofNat 32 (b + if neg then 2 ^ 31 else 0)

/-- The binary32 value nearest to `i` units of 2^-149. -/
def fOfUnits (i : Int) : F32 := fRound (i < 0) i.natAbs 1

/-- The binary32 value nearest to the fraction `n / d`. -/
def fOfFrac (n : Int) (d : Nat) : F32 := fRound (n < 0) (n.natAbs * 2 ^ 149) d

/-- The binary32 value nearest to an integer. -/
def fOfInt (i : Int) : F32 := fOfFrac i 1

def fAbs (x : F32) : F32 := BitVec.ofNat 32 (x.toNat % 2 ^ 31)
def fNeg (x : F32) : F32 := x ^^^ 0x80000000#32

def fAdd (x y : F32) : F32 :=
  if fIsNaN x || fIsNaN y then fNaN
  else if fIsInf x then (if fIsInf y && fNeg? x != fNeg? y then fNaN else x)
  else if fIsInf y then y
  else
    let s := fVal x + fVal y
    if s = 0 then fRound (fNeg? x && fNeg? y) 0 1 else fOfUnits s

def fSub (x y : F32) : F32 := if fIsNaN y then fNaN else fAdd x (fNeg y)

def fMul (x y : F32) : F32 :=
  let neg := fNeg? x != fNeg? y
  if fIsNaN x || fIsNaN y then fNaN
  else if fIsInf x || fIsInf y then
    (if (fFinite x && fMag x == 0) || (fFinite y && fMag y == 0) then fNaN else fInf neg)
  else fRound neg (fMag x * fMag y) (2 ^ 149)

def fDiv (x y : F32) : F32 :=
  let neg := fNeg? x != fNeg? y
  if fIsNaN x || fIsNaN y then fNaN
  else if fIsInf x then (if fIsInf y then fNaN else fInf neg)
  else if fIsInf y then fRound neg 0 1
  else if fMag y = 0 then (if fMag x = 0 then fNaN else fInf neg)
  else fRound neg (fMag x * 2 ^ 149) (fMag y)

/-- Integer square root by binary digits, `fuel` of them. -/
def isqrtAux (n : Nat) : Nat → Nat → Nat
  | 0, r => r
  | f + 1, r => let t := r + 2 ^ f; isqrtAux n f (if t * t ≤ n then t else r)

/-- The largest `r` with `r * r ≤ n`, for `n` below 2^1200. -/
def isqrt (n : Nat) : Nat := isqrtAux n (Nat.log2 n / 2 + 1) 0

def fSqrt (x : F32) : F32 :=
  if fIsNaN x then fNaN
  else if fFinite x && fMag x == 0 then x
  else if fNeg? x then fNaN
  else if fIsInf x then x
  else
    let n := fMag x * 2 ^ 149 * 2 ^ 64
    let r := isqrt n
    fRound false (2 * r + if r * r = n then 0 else 1) (2 ^ 33)

/-- Ordered comparison: false where either side is a NaN. -/
def fLt (x y : F32) : Bool := !fIsNaN x && !fIsNaN y && decide (fVal x < fVal y)
def fLe (x y : F32) : Bool := !fIsNaN x && !fIsNaN y && decide (fVal x ≤ fVal y)
def fEq (x y : F32) : Bool := !fIsNaN x && !fIsNaN y && decide (fVal x = fVal y)
def fMin (x y : F32) : F32 := if fLt y x then y else x
def fMax (x y : F32) : F32 := if fLt x y then y else x
def fClamp (lo hi x : F32) : F32 := fMax lo (fMin hi x)

/-- `x` times `k`, rounded toward minus infinity to an integer (0 where `x` is not finite). -/
def fFloorMul (x : F32) (k : Nat) : Int :=
  if fFinite x then (fVal x * k) / ((2 ^ 149 : Nat) : Int) else 0

/-- `x` times `k`, rounded to the nearest integer, ties to even (0 where `x` is not finite). -/
def fRoundMul (x : F32) (k : Nat) : Int :=
  if fFinite x then
    (let m := divRne (fMag x * k) (2 ^ 149); if fNeg? x then -(m : Int) else m)
  else 0

/-- The nearest integer, ties to even. -/
def fToInt (x : F32) : Int := fRoundMul x 1

/-- Within two bounds; false for a NaN. -/
def fIn (lo hi x : F32) : Bool := fLe lo x && fLe x hi

/-- Above zero. -/
def fPos (x : F32) : Bool := fLt fZero x

end Sys2Proof.Machine
end

