-- ==== Sys2Proof/Machine/State.lean ====
section
/-! DEFINITION. The state of the PK-9648 as plain data: one structure for each block, each field at the value
that the spec (or a log entry) gives it after a power-on reset. `State` at the end holds them all, with the queue
of waiting commands. -/

namespace Sys2Proof.Machine


/-- The discipline states of GTC_STAT.DSTATE (01, values of DSTATE). -/
inductive DState where
  | free | acquiring | locked | holdover | following
  deriving DecidableEq, Repr

/-- CLK/GTC block (01, registers; R17 to R21). -/
structure Clk where
  /-- CLK_STAT.PLL_LOCK -/
  pllLock : Bool := false
  /-- CLK_STAT.XTAL_PRESENT -/
  xtalPresent : Bool := false
  /-- CLK_STAT.SYNCI_PRESENT -/
  synciPresent : Bool := false
  /-- CLK_STAT.REF_SRC: true for SYNC_CLKI -/
  refSync : Bool := false
  /-- CLK_STAT.HOLDOVER -/
  holdover : Bool := false
  /-- CLK_STAT.SW_REFUSED (W1C) -/
  swRefused : Bool := false
  /-- GTC_HI as latched by a read of GTC_LO (R19); reset DESIGN CHOICE 0 (log 2) -/
  gtcHi : Nat := 0
  /-- GTC_CTL.DISC_GAIN -/
  discGain : Nat := 4
  /-- GTC_CTL.PPS_EDGE: true for falling -/
  ppsFalling : Bool := false
  /-- GTC_CTL.FREQ_MAN -/
  freqMan : Bool := false
  /-- GTC_CTL.DISC_EN -/
  discEn : Bool := false
  /-- GTC_STAT.DSTATE -/
  dstate : DState := .free
  /-- GTC_STAT.PPS_REJ (W1C) -/
  ppsRej : Bool := false
  /-- GTC_FREQ_ADJ in force (R17) -/
  freqAdj : Int := 0
  /-- an adjustment computed or written, waiting for the next boundary (R21) -/
  freqNext : Option Int := none
  /-- GTC at the last accepted PPS edge (R19); reset DESIGN CHOICE 0 (log 2) -/
  ppsCap : Nat := 0
  /-- PPS_CAP_HI as latched; reset DESIGN CHOICE 0 (log 2) -/
  ppsCapHi : Nat := 0
  /-- t_last of the discipline procedure (R20) -/
  ppsLast : Option Nat := none
  /-- the GTC from which the 2.5 s without an accepted edge count: the last accepted edge, or the one that began ACQUIRING (R21,
  log 29) -/
  ppsFrom : Nat := 0
  /-- `good` of the discipline procedure (R20) -/
  good : Nat := 0
  /-- PPS_COUNT, accepted, 16 bits saturating -/
  ppsAccepted : Nat := 0
  /-- PPS_COUNT, rejected, 16 bits saturating -/
  ppsRejected : Nat := 0
  deriving DecidableEq, Repr

/-- A group lock message (R93): the group ID, what it does (0 commit, 1 enable, 2 disable), its boundary, the GTC from
which it may be sent, and the members it concerns as position and handle; a member that holds one keeps its own. -/
structure LockMsg where
  group : Nat := 0
  kind : Nat := 0
  boundary : Nat := 0
  sendAt : Nat := 0
  members : List (Nat × Nat) := []
  deriving DecidableEq, Repr

/-- What a member holds of the ENABLED section of the lead that one of its channels belongs to (R202 to R211, log 19). -/
structure SecView where
  /-- the channel on this device, and the section on the lead -/
  chan : Nat := 0
  sec : Nat := 0
  /-- bytes 16 to 47 of the section's block -/
  ps : List Byte := []
  gate : Bool := false
  lost : Bool := false
  tcRate : Option (F32 × Nat) := none
  /-- T_q of the section-wide grain [µs] -/
  tq : Nat := 0
  /-- the first half of a LINE command -/
  half : List Byte := []
  deriving DecidableEq, Repr

/-- What a member holds of the lead's ENABLED layers (R171, R174, R180, R211, log 19). -/
structure BoardView where
  cov : Bool := false
  /-- square size [mm] and miss policy of the coverage layer -/
  size : Nat := 0
  miss : Nat := 0
  /-- miss policy, unit and default rate of the prescription layer -/
  pres : Option (Nat × Nat × F32) := none
  deriving DecidableEq, Repr

/-- What the lead holds of a channel of a member, as last reported (R180, R206, R207, R218, log 19). -/
structure FarChan where
  pos : Nat := 0
  handle : Nat := 0
  /-- channel index on its device -/
  chan : Nat := 0
  on : Bool := false
  out : Bool := false
  cmd : Bool := false
  /-- it marks, or its section decides by the board -/
  relies : Bool := false
  faulted : Bool := false
  /-- lead times [µs] -/
  leadOn : Nat := 0
  leadOff : Nat := 0
  /-- the application rate of its last run, with its unit -/
  rate : F32 := 0
  unit : Nat := 0
  deriving DecidableEq, Repr

/-- OSL block (01, registers; R24 to R29). -/
structure Osl where
  /-- OSL_CTL.ROLE: 0 standalone, 1 lead, 2 member (RWL) -/
  role : Nat := 0
  /-- OSL_CTL.SYNC_OUT_EN (RWL) -/
  syncOutEn : Bool := false
  /-- OSL_STAT.DEVICES -/
  devices : Nat := 0
  /-- OSL_STAT.POSITION -/
  position : Nat := 0
  /-- OSL_STAT.SKEW_FAULT (W1C) -/
  skewFault : Bool := false
  /-- OSL_STAT.MARK_SLIP (W1C) -/
  markSlip : Bool := false
  calDone : Bool := false
  enumDone : Bool := false
  dnLink : Bool := false
  upLink : Bool := false
  /-- OSL_SKEW, in 1/16 TCLK -/
  skew : Int := 0
  /-- OSL_ERRCNT, CRC errors, 16 bits saturating -/
  crcErrors : Nat := 0
  /-- OSL_ERRCNT, missed broadcasts, 16 bits saturating -/
  missed : Nat := 0
  /-- consecutive missed broadcasts (R24) -/
  missedRun : Nat := 0
  /-- a valid broadcast of this frame has arrived -/
  bcastSeen : Bool := false
  /-- the GTC was loaded at a SYNC_MARKI (R27 step 5) -/
  coarse : Bool := false
  /-- two-way exchanges done since the coarse load (R27 step 6) -/
  exchanges : Nat := 0
  /-- sum of their offsets, in 1/16 TCLK -/
  offsetSum : Int := 0
  /-- a lead's frequency word as its broadcast carries it for the next boundary (R17, R23) -/
  freqSent : Option Int := none
  /-- GTC of the last pulse driven on SYNC_MARKO (R23, R25) -/
  markoAt : Option Nat := none
  /-- the last hop delay measured (R28), in 1/16 TCLK -/
  hopDelay : Int := 0
  /-- phase correction still to be moved, in 1/16 TCLK (R28) -/
  phaseLeft : Int := 0
  /-- expected SYNC_MARKI arrival within a frame, recorded at CAL_DONE (R27, R29) -/
  markExpected : Option Nat := none
  /-- the last SYNC_MARKI arrival before CAL_DONE -/
  markLast : Option Nat := none
  /-- consecutive frames with a deviation above 24 ticks (R29) -/
  slipRun : Nat := 0
  /-- the frequency word of the last broadcast, for its boundary (R23) -/
  bcastFreq : Option Int := none
  /-- positions of members that have reported themselves asleep (R497) -/
  asleep : List Nat := []
  /-- positions of lost members (R76) -/
  absent : List Nat := []
  /-- this device's objects that the lead's spanning objects reference, each with the type of the object that refers to it
  (R75, R76) -/
  leadRefs : List (Nat × Nat) := []
  /-- a member: the sections of its channels, and the lead's layers -/
  secs : List SecView := []
  board : BoardView := {}
  /-- the lead: what it has told of a section, by position and channel, and of its layers, by position and 0 -/
  told : List (Nat × Nat × List Byte) := []
  /-- the lead: the members' channels -/
  far : List FarChan := []
  /-- records waiting to be sent, oldest first -/
  outbox : List Packet := []
  deriving DecidableEq, Repr


/-- An event without its phase bit and sequence routing (R43). -/
structure Ev where
  code : Nat := 0
  cls : Nat := 0
  handle : Nat := 0
  gtc : Nat := 0
  epoch : Nat := 0
  seq : Nat := 0
  /-- 11 data bytes -/
  data : List Byte := []
  superseded : Bool := false
  deriving DecidableEq, Repr

/-- One ring block with the ring's running positions (02, ring block table; R35, R45 to R49, R55). -/
structure Ring where
  base : Nat := 0
  en : Bool := false
  /-- RING_CFG.LOC: true for the mailbox -/
  loc : Bool := false
  prio : Nat := 0
  bind : Nat := 0
  vector : Nat := 0
  size : Nat := 0
  modTime : Nat := 0
  modCount : Nat := 0
  shadow : Nat := 0
  /-- RING_PTR [31:16]: for an SQ the next slot to fetch, else the host's consumer index -/
  head : Nat := 0
  /-- RING_PTR [15:0]: for an SQ the host's tail, else the next slot to write -/
  tail : Nat := 0
  /-- RING_STAT.LOST, 16 bits saturating -/
  lost : Nat := 0
  /-- RING_STAT.ERR -/
  err : Nat := 0
  phase : Bool := true
  error : Bool := false
  /-- an SQ reset waits for the last completion (R36) -/
  resetting : Bool := false
  /-- CQ: slots reserved for descriptors fetched and not yet completed (R48) -/
  reserved : Nat := 0
  /-- entries written since the ring's last interrupt (R55) -/
  unsig : Nat := 0
  /-- GTC at which the oldest of them was written -/
  unsigAt : Nat := 0
  /-- what the last slot written held before, and the event written there, should its write fail (R67) -/
  prev : List Byte := []
  prevEv : Option Ev := none
  /-- SQ: the descriptor at its head, read, whose fence waits for earlier ones (R50) -/
  fenced : Option Desc := none
  deriving DecidableEq, Repr

/-- A descriptor fetched and executing (R48, R50). -/
structure Started where
  desc : Desc
  /-- the role it acts with (R436) -/
  role : Nat := 0
  /-- the CQ in which its slot is reserved -/
  cq : Nat := 0
  /-- fetched before a detach: its completion is dropped (R68) -/
  orphan : Bool := false
  /-- the sid of the session whose tag it carried, and that session's K_wrap, which a close leaves to it (R449) -/
  sid : Option Nat := none
  wrap : Option (List Byte) := none
  /-- the parameter block as it was read once from the mailbox (R40) -/
  block : Option (List Byte) := none
  /-- the status that its checks at the fetch gave it, written when its turn comes (R41, R52) -/
  verdict : Option Nat := none
  /-- a RING_SYNC that waits for everything started before it (R62) -/
  sync : Bool := false
  deriving DecidableEq, Repr

/-- A deferred descriptor that was accepted and has not taken effect (R52). -/
structure Deferred where
  st : Started
  /-- opcode value -/
  op : Nat := 0
  handle : Nat := 0
  /-- the GTC at which it takes effect; 0 where a condition and no instant ends it -/
  due : Nat := 0
  /-- result bytes 24 to 30 prepared at acceptance (R64) -/
  result : List Byte := []
  /-- an argument of the opcode's own -/
  arg : Nat := 0
  deriving DecidableEq, Repr

/-- A running interval of a rate-limited event (R545). -/
structure Interval where
  code : Nat := 0
  handle : Nat := 0
  sub : Nat := 0
  cls : Nat := 0
  ends : Nat := 0
  length : Nat := 0
  count : Nat := 0
  /-- of the latest occurrence -/
  epoch : Nat := 0
  data : List Byte := []
  gtc : Nat := 0
  /-- data position of the count and its bytes, 0 bytes where the event carries none -/
  countAt : Nat := 0
  countLen : Nat := 0
  deriving DecidableEq, Repr

/-- A completion held while RINGS_EN = 0 (R547). -/
structure Kept where
  cq : Nat := 0
  entry : List Byte := []
  irqNow : Bool := false
  deriving DecidableEq, Repr

/-- What the PCIe endpoint is (R32): its identity, its base address windows, its limits and its capabilities. Nothing writes
them. -/
structure PcieCaps where
  deviceId : Nat := 0x9648
  classCode : Nat := 0x118000
  functions : Nat := 1
  bar0Bytes : Nat := 65536
  bar2Bytes : Nat := 4096
  vectors : Nat := 32
  msixTable : Nat := 0xF000
  msixPba : Nat := 0xF800
  maxPayload : Nat := 256
  maxReadRequest : Nat := 512
  functionLevelReset : Bool := true
  advancedErrorReporting : Bool := true
  l1 : Bool := true
  l0s : Bool := false
  deriving DecidableEq, Repr

/-- Host interface (02). -/
structure Hif where
  errVec : Nat := 0
  sealReq : Bool := false
  ringsEn : Bool := false
  heldOvf : Bool := false
  dbInvalid : Bool := false
  dmaFault : Bool := false
  detachSeen : Bool := false
  /-- HIF_STAT.CONFIG_LOST: 1 after a reset that loses run-time configuration (R61) -/
  configLost : Bool := true
  /-- HIF_STAT.LINK -/
  link : Nat := 0
  /-- HIF_INT_PEND; reset DESIGN CHOICE 0 (log 2) -/
  intPend : Nat := 0
  /-- HIF_INT_MASK; reset DESIGN CHOICE 0 (log 2) -/
  intMask : Nat := 0
  /-- HIF_EVQ_MAP; reset DESIGN CHOICE 0 (log 2) -/
  evqMap : Nat := 0
  /-- the holding queue, oldest first, at most 256 (R57) -/
  held : List Ev := []
  /-- events dropped since EVENT_LOST was last written, 16 bits saturating -/
  dropped : Nat := 0
  /-- how many EVENT_LOST will report, and seq of the first of them -/
  lost : Nat := 0
  firstLost : Nat := 0
  rings : List Ring := List.replicate 38 {}
  /-- completions that fell due while RINGS_EN = 0 -/
  kept : List Kept := []
  /-- device event sequence number (R43); reset DESIGN CHOICE 0 (log 2) -/
  evSeq : Nat := 0
  /-- completions dropped by a detach, reported by HIF_REATTACHED (R68) -/
  complDropped : Nat := 0
  /-- HIF_REATTACHED is due as the first event -/
  reattach : Bool := false
  started : List Started := []
  deferred : List Deferred := []
  intervals : List Interval := []
  /-- MSI-X table, 32 vectors of four words: address low, high, data, control (R32); reset PRESUMED masked (log 8) -/
  msix : List Nat := List.flatten (List.replicate 32 [0, 0, 0, 1])
  /-- what the endpoint is (R32) -/
  pcie : PcieCaps := {}
  /-- MSI-X Enable and Function Mask of the PCIe configuration space (R32, log 8) -/
  msixOn : Bool := false
  msixMask : Bool := false
  /-- MSI-X pending-bit array -/
  pba : Nat := 0
  /-- vector messages sent, per vector -/
  vecSent : List Nat := List.replicate 32 0
  /-- a host-interface error vector fell due while RINGS_EN = 0 -/
  errDue : Bool := false
  /-- the SQ last served, for the round robin (R50) -/
  lastSq : Nat := 15
  /-- SPI STATUS [1] (R33) -/
  spiDiscarded : Bool := false
  /-- what the last host read returned: bytes on the link (the model's own record) -/
  readData : List Byte := []
  deriving DecidableEq, Repr


/-- Object states (R69). FREE is the absence of the index. -/
inductive OState where
  | disabled | enabled | faulted
  deriving DecidableEq, Repr

/-- A state machine bound by an object's table field (R103). -/
structure Sm where
  /-- offset of the reference field that binds the table -/
  off : Nat := 0
  state : Nat := 0
  /-- variables 0 to 31; those bound start at 0 -/
  vars : List F32 := List.replicate 32 0
  /-- expiry instants of timers 0 to 7 -/
  timers : List (Option Nat) := List.replicate 8 none
  queue : List Nat := []
  entryPending : Bool := true
  entryChain : Nat := 0
  /-- timers that have expired since the last run, in the order of their expiry (R103) -/
  expired : List Nat := []
  deriving DecidableEq, Repr

/-- A control engine (R77, R81, R86, R109). -/
structure Engine where
  /-- 0 in service, 1 system, 2 out of service -/
  svc : Nat := 0
  /-- flag falls, 32 bits -/
  falls : Nat := 0
  /-- admitted loads of the 16 slots -/
  loads : List Nat := List.replicate 16 0
  /-- consecutive running frames with a flag fall, per slot (R87) -/
  fallRun : List Nat := List.replicate 16 0
  /-- GTC of the last change of its loads (R109) -/
  busyAt : Option Nat := none
  deriving DecidableEq, Repr

/-- A castling in progress (R88). -/
structure Move where
  handle : Nat := 0
  oldE : Nat := 0
  oldSlots : Nat := 0
  newE : Nat := 0
  newSlots : Nat := 0
  /-- boundary N -/
  boundary : Nat := 0
  /-- 0 host, 1 rebalance, 2 evacuation -/
  cause : Nat := 0
  pin : Bool := false
  copied : Bool := false
  deriving DecidableEq, Repr

/-- A job that has not finished its slot (R83 to R85). -/
structure Falling where
  idx : Nat := 0
  engine : Nat := 0
  slot : Nat := 0
  victim : Bool := false
  deriving DecidableEq, Repr

/-- A parameter write that waits for members to answer cluster references (R75). -/
structure RefWait where
  desc : Desc
  op : Nat := 0
  handle : Nat := 0
  block : List Byte := []
  /-- references not yet answered: position and handle -/
  waiting : List (Nat × Nat) := []
  due : Nat := 0
  deriving DecidableEq, Repr

/-- A cost change accepted and waiting for its boundary (R82): an increase is reserved from acceptance, a decrease is
released at the boundary. -/
structure CostChange where
  handle : Nat := 0
  delta : Int := 0
  boundary : Nat := 0
  /-- the deferred descriptor it belongs to: cookie and SQ, plus 1; 0 for a SET_PARAMS -/
  tag : Nat := 0
  deriving DecidableEq, Repr

/-- A write of the saved-table store in progress (R108): the descriptor, the key, and the image or none for an erase. -/
structure TabSave where
  desc : Desc
  key : Nat := 0
  image : Option (List Byte) := none
  /-- begun before a supply warning, which therefore does not defer it (R489) -/
  begun : Bool := true
  deriving DecidableEq, Repr

/-- Engines, tables and castling (03). -/
structure Eng where
  engines : List Engine := { svc := 1 } :: List.replicate 23 {}
  moves : List Move := []
  falling : List Falling := []
  refWaits : List RefWait := []
  costs : List CostChange := []
  /-- saved-table store: key and image (R108); contents as shipped DESIGN CHOICE empty (log 4) -/
  store : List (Nat × List Byte) := []
  /-- lock messages waiting to be sent, per group, and the GTC of the last one sent (R93) -/
  lockQueue : List LockMsg := []
  lockSent : List (Nat × Nat) := []
  /-- lock messages a member holds until their boundary -/
  lockHeld : List LockMsg := []
  /-- lock messages sent that a member device has not acknowledged: group ID, boundary, position (R94) -/
  unacked : List (Nat × Nat × Nat) := []
  /-- saves and erases of the table store that have not been written -/
  saves : List TabSave := []
  deriving DecidableEq, Repr



/-- A position in the local plane or an IMU vector: three numbers. -/
structure Vec3 where
  x : Int := 0
  y : Int := 0
  z : Int := 0
  deriving DecidableEq, Repr

/-- The fields that the unit takes from the sentences of one epoch (R119). UTC time in ns of the day; latitude,
longitude in 2^-96 degrees, height in 2^-96 m, HDOP, speed [mm/s] and angles [rad] in 2^-96. -/
structure Epoch where
  utc : Nat := 0
  /-- arrival GTC of its first character, and GTC of the last character received -/
  tArr : Nat := 0
  tLast : Nat := 0
  /-- GGA: latitude, longitude, height, HDOP and fix class -/
  gga : Option (Int × Int × Int × Int × Nat) := none
  /-- VTG and RMC: course and speed -/
  vtg : Option (Int × Int) := none
  rmc : Option (Int × Int) := none
  hdt : Option Int := none
  deriving DecidableEq, Repr

/-- A measurement waiting for the estimator (R130): kind 0 position [mm], 1 velocity (course [2^-96 rad], speed
[2^-96 mm/s]), 2 heading, 3 heading from course [2^-96 rad]. -/
structure KMeas where
  t : Nat := 0
  kind : Nat := 0
  host : Bool := false
  cls : Nat := 0
  /-- σ of the row of R129: horizontal [mm], [mm/s]; an angle's is computed from it -/
  sigma : Nat := 0
  v : Vec3 := {}
  deriving DecidableEq, Repr

/-- A stored run of the estimator (R130): its instant, its estimate and what it propagated with. -/
structure KfRun where
  t : Nat := 0
  est : Config.KfEst := {}
  imu : Config.KfImu := {}
  deriving DecidableEq, Repr

/-- A speed source (R125 to R127): its speed in 2^-96 mm/s. -/
structure SpeedSrc where
  valid : Bool := false
  implausible : Bool := false
  speed : Int := 0
  /-- the direction it reports: reverse -/
  dir : Option Bool := none
  /-- GTC of the last ISOBUS message -/
  last : Nat := 0
  badSince : Option Nat := none
  goodSince : Option Nat := none
  deriving DecidableEq, Repr

/-- The default block of R116. -/
def kinDefault : List Byte :=
  [0, 1, 50, 0, 0, 194, 1, 0, 1, 0, 244, 1, 196, 9, 244, 1, 200, 0, 20, 0, 16, 39, 0, 0, 0, 0, 0, 0] ++
  [0, 0, 0, 0, 0, 0, 0, 0, 0, 0, 0, 3, 0, 0, 0, 0, 0, 9, 61, 0, 232, 3, 1, 0, 0, 0, 0, 0] ++
  [0, 0, 0, 0, 0, 0, 0, 0, 0, 0, 0, 0, 0, 0, 0, 0, 0, 0, 0, 0, 0, 0, 0, 0, 0, 0, 0, 0] ++
  [0, 0, 0, 0, 0, 0, 0, 0, 0, 0, 0, 0, 0, 0, 0, 0, 0, 0, 0, 0, 0, 0, 0, 0, 0, 0, 0, 0] ++
  [1, 0, 1, 0, 0, 0, 0, 0, 0, 0, 0, 0, 0, 0, 0, 0, 0, 0, 0, 0, 0, 0, 128, 63, 0, 0, 0, 0] ++
  [0, 0, 0, 0, 0, 0, 128, 63, 0, 0, 0, 0, 5, 0, 232, 3, 184, 11, 200, 0, 80, 195, 0, 0, 0, 0, 72, 66] ++
  List.replicate 88 0


/-- Kinematics unit (04). Angles in 2^-96 rad, speeds in 2^-96 mm/s, lengths in 2^-96 mm unless said otherwise. -/
structure Kin where
  /-- the 256 B block of R116 -/
  cfg : List Byte := kinDefault
  /-- R115 -/
  kstate : Nat := 0
  originSet : Bool := false
  lat0 : F64 := 0
  lon0 : F64 := 0
  h0 : F32 := 0
  originId : Nat := 0
  -- GNSS (R118 to R121)
  pps : Option Nat := none
  pairedSec : Option Nat := none
  pairedAt : Nat := 0
  epoch : Option Epoch := none
  lastUtc : Option Nat := none
  epochsUsed : Nat := 0
  epochsDiscarded : Nat := 0
  sentDiscarded : Nat := 0
  posResets : Nat := 0
  meas : List KMeas := []
  /-- the estimate of the last run, and the last 256 runs, newest first (R129, R130) -/
  est : Config.KfEst := {}
  hist : List KfRun := []
  -- IMU (R122 to R124)
  /-- initialisation pairs written at KIN_ENABLE -/
  imuInit : List Byte := []
  /-- command bytes of the last transaction (R122) -/
  imuTx : List Byte := []
  /-- samples of the last 1 ms in the tractor frame, newest first: timestamp, rates and specific force -/
  imuBuf : List (Nat × List Int) := []
  imuOk : Bool := false
  imuLast : Option Nat := none
  /-- decoded variables 0 to 7 of the last sample -/
  imuVars : List F32 := []
  imuGood : Nat := 0
  imuMissed : Nat := 0
  /-- consecutive samples at a raw extreme, per axis -/
  imuSat : List Nat := [0, 0, 0, 0, 0, 0]
  imuFrozen : Nat := 0
  speeds : List SpeedSrc := [{}, {}, {}, {}]
  reverse : Bool := false
  /-- course detection: set or clear pending, since -/
  revSince : Option (Bool × Nat) := none
  standstill : Bool := false
  slowSince : Option Nat := none
  headingValid : Bool := false
  pathValid : Bool := false
  drExpired : Bool := false
  drAt : Nat := 0
  lastPos : Option Nat := none
  lastHeading : Option Nat := none
  lastVel : Option Nat := none
  fixClass : Nat := 0
  fixAt : Nat := 0
  rej4 : Nat := 0
  rejAny : Nat := 0
  /-- courses of the last accepted epochs, newest first, at most 3 (R132) -/
  courses : List Int := []
  scale : F32 := 0x3F800000
  scaleReported : F32 := 0x3F800000
  sigmaH : Nat := 0xFFFF
  -- the tractor as the path integrator has it for the next boundary (R134)
  pos : Vec3 := {}
  heading : Int := 0
  pitch : Int := 0
  roll : Int := 0
  u : Int := 0
  w0 : Int := 0
  /-- the IMU turn rate last used -/
  wz : Int := 0
  accel : Int := 0
  /-- derivative of w0 -/
  turnAccel : Int := 0
  /-- the same state at the present boundary -/
  posAt : Vec3 := {}
  headingAt : Int := 0
  uAt : Int := 0
  w0At : Int := 0
  /-- filtered derivative of u, and filtered w0 (R147) -/
  accelF : Int := 0
  wF : Int := 0
  /-- corrections still to be spread: frames left, and a tenth of each -/
  corrLeft : Nat := 0
  du : Int := 0
  dw : Int := 0
  dGamma : Int := 0
  dSteer : Int := 0
  gamma : Int := 0
  /-- the modelled hitch angle -/
  gammaModel : Int := 0
  hitchBad : Bool := false
  hitchOffSince : Option Nat := none
  hitchOnSince : Option Nat := none
  steer : Int := 0
  steerBad : Option Nat := none
  /-- implement velocity and turn rate of the last record, and their filters -/
  vx : Int := 0
  vy : Int := 0
  w1 : Int := 0
  /-- the implement last moved backward -/
  impRev : Bool := false
  impAccelF : Int := 0
  turnF : Int := 0
  /-- the 128 B record of the last boundary and of the next one (R135) -/
  rcd : List Byte := List.replicate 128 0
  rcdNext : List Byte := List.replicate 128 0
  seq : Nat := 0
  deriving DecidableEq, Repr

/-- Running state of a WING (R141): angle and rate in 2^-96 rad and rad/s. -/
structure WingRt where
  angle : Int := 0
  rate : Int := 0
  valid : Bool := false
  badSince : Option Nat := none
  goodSince : Option Nat := none
  deriving DecidableEq, Repr

/-- A geometry point at one boundary (R143 to R146): path position in 1/(2^16 × 200,000) µm, speed in
1/(2^16 × 10,000) mm/s, the change of speed in the frame that follows; so no rounding error accumulates. -/
structure GeoPt where
  s : Int := 0
  v : Int := 0
  a : Int := 0
  pos : Vec3 := {}
  heading : F32 := 0
  turn : F32 := 0
  boundary : Nat := 0
  deriving DecidableEq, Repr

/-- Running state of a GEOPOINT. -/
structure GeoRt where
  cur : GeoPt := {}
  next : Option GeoPt := none
  /-- the boundary at which the shadow loads (R23) -/
  nextAt : Nat := 0
  /-- last_sign of R143 -/
  sign : Int := 1
  moved : Bool := false
  lastRev : Bool := false
  /-- it has been ENABLED -/
  started : Bool := false
  deriving DecidableEq, Repr


/-- A tile in a layer's cache (R157, R163). -/
structure CTile where
  tx : Nat := 0
  ty : Nat := 0
  /-- its directory entry (R158) -/
  entry : Nat := 0
  /-- the bytes that differ from a blank tile, each exclusive-ored with the blank byte -/
  data : List Host.Cell := []
  dirty : Bool := false
  /-- GTC at which it first became dirty since its last write-back -/
  first : Nat := 0
  /-- 0 not pinned, 1 waiting for storage, 2 a write-back failed (R161, R177) -/
  pin : Nat := 0
  /-- GTC at which it was pinned, and of the last failure of its write-back -/
  pinAt : Nat := 0
  failAt : Nat := 0
  /-- order of its last use -/
  used : Nat := 0
  deriving DecidableEq, Repr

/-- A fetch under way (R163, R165): a directory group or a tile. -/
structure Fetch where
  /-- a directory group, with its number in `tx` -/
  group : Bool := false
  tx : Nat := 0
  ty : Nat := 0
  /-- the evicted tile whose way it takes once that is written -/
  way : Option (Nat × Nat) := none
  deriving DecidableEq, Repr

/-- A write-back under way: the tile as it was at one instant (R164). -/
structure WriteBack where
  tile : CTile := {}
  /-- order of its copy among all uses and commands of the board unit -/
  tick : Nat := 0
  /-- the tile has left the cache: its way is given on once this is done (R163) -/
  evicted : Bool := false
  deriving DecidableEq, Repr

/-- A tile or directory group held out after a failed read (R177). -/
structure HeldOut where
  group : Bool := false
  tx : Nat := 0
  ty : Nat := 0
  ends : Nat := 0
  deriving DecidableEq, Repr

/-- A BOARD_FLUSH in progress (R183). -/
structure Flush where
  id : Nat := 0
  due : Nat := 0
  discard : Bool := false
  started : Bool := false
  /-- order of the snapshot, the tiles that it found dirty, and those whose copies it found on their way to memory -/
  snap : Nat := 0
  left : List (Nat × Nat) := []
  flight : List (Nat × Nat) := []
  written : Nat := 0
  dropped : Nat := 0
  deriving DecidableEq, Repr

/-- A BOARD_PAINT in progress (R181). -/
structure Paint where
  id : Nat := 0
  value : Nat := 0
  verts : List (Int × Int) := []
  left : List (Nat × Nat) := []
  /-- tiles of `left` that were not cached when they were asked for -/
  brought : List (Nat × Nat) := []
  changed : Nat := 0
  skipped : Nat := 0
  deriving DecidableEq, Repr

/-- Running state of a LAYER (R163, R164, R177, R184). -/
structure LayerRt where
  tiles : List CTile := []
  /-- cached directory groups of 8 entries, most recently used first, at most 256 -/
  dir : List (Nat × List Nat) := []
  fetches : List Fetch := []
  wbs : List WriteBack := []
  held : List HeldOut := []
  corridor : List (Nat × Nat) := []
  /-- GTCs of the last host-memory failures -/
  fails : List Nat := []
  degraded : Bool := false
  /-- last demand fetch of a tile while DEGRADED -/
  demand : List ((Nat × Nat) × Nat) := []
  limitedAt : Option Nat := none
  flushes : List Flush := []
  paints : List Paint := []
  /-- BOARD_TILE_READ and BOARD_TILE_WRITE descriptors waiting for a fetch -/
  waiting : List Desc := []
  hits : Nat := 0
  missing : Nat := 0
  fetched : Nat := 0
  faults : Nat := 0
  writebacks : Nat := 0
  patches : Nat := 0
  marksLost : Nat := 0
  offBoard : Nat := 0
  late : Nat := 0
  unmarked : Nat := 0
  lastFlush : Nat := 0
  deriving DecidableEq, Repr

/-- A swept patch: the left and right ends of two footprint segments, in 2^-96 mm (R166). -/
structure Quad where
  la : Vec3 := {}
  ra : Vec3 := {}
  lb : Vec3 := {}
  rb : Vec3 := {}
  deriving DecidableEq, Repr

/-- What the board unit keeps of one channel of the cluster (R167 to R169, R176). -/
structure ChanBd where
  pos : Nat := 0
  chan : Nat := 0
  /-- the last mark record -/
  last : Option (List Byte) := none
  /-- retrace guard: patches with their path length in 2^-96 mm, newest first -/
  guard : List (Quad × Int) := []
  unmarked : Bool := false
  /-- a member's channel: the answer sent, and the one in force, with the boundary of its query and the query (R174, R206) -/
  next : Option (Nat × List Byte × List Byte) := none
  ans : Option (Nat × List Byte × List Byte) := none
  /-- the answer in force has not been decided on -/
  ansNew : Bool := false
  /-- the prescription code and rate last answered -/
  code : Nat := 255
  rate : F32 := 0x7FC00000
  deriving DecidableEq, Repr

/-- A mark record at the board unit: its order of receipt, the tiles of its patch still to be marked, the squares already
visited. -/
structure QMark where
  pos : Nat := 0
  bytes : List Byte := []
  tick : Nat := 0
  tiles : List (Nat × Nat) := []
  done : Nat := 0
  deriving DecidableEq, Repr

/-- The board unit (05), device-wide part. -/
structure Board where
  marks : List QMark := []
  queries : List (Nat × List Byte) := []
  chans : List ChanBd := []
  /-- counts uses and commands -/
  tick : Nat := 0
  /-- the frame that the next two count for; squares visited in it, and visits asked for in it (R175) -/
  frame : Nat := 0
  visited : Nat := 0
  asked : Nat := 0
  deriving DecidableEq, Repr

/-- An edge in a channel's predictor (R196, R200, R209). Positions in 1/(2^16 × 200,000) µm. -/
structure Edge where
  on : Bool := false
  /-- 0 NOW, 1 TIME, 2 LINE, 3 PATH -/
  form : Nat := 0
  /-- +1 forward, -1 reverse -/
  qual : Int := 1
  /-- t_P, or the path position in 1/(2^16 × 200,000) µm -/
  whenAt : Int := 0
  /-- LINE: e1, n1, e2, n2 [mm] -/
  line : List Int := []
  /-- LINE: the side the point was on at acceptance, 0 while it is on the line -/
  side : Int := 0
  /-- LINE, PATH: where the point was at the last search: path position, east and north [2^-96 mm] -/
  seen : Option (Int × Int × Int) := none
  /-- 0 waiting, 1 written to the shadow, 2 armed -/
  st : Nat := 0
  value : Int := 0
  dir : Int := 1
  /-- the boundary at which it loads -/
  load : Nat := 0
  /-- the opposite edge that it removes at its load -/
  removes : Bool := false
  /-- a LATE edge behind another entry: its distance [µm] -/
  lateBy : Option Nat := none
  /-- the number of the host command it belongs to -/
  cmd : Option Nat := none
  /-- a TC setpoint, queued again as NOW when BEHIND (R208) -/
  tc : Bool := false
  /-- the pre-charge compare of a ROW's on edge (R215): 0 none, 1 written, 2 armed, 3 fired, 4 BEHIND; value, direction -/
  pre : Nat × Int × Int := (0, 0, 1)
  deriving DecidableEq, Repr

/-- An open sample window (R191, R192). -/
structure Sample where
  on : Bool := false
  edge : Nat := 0
  reason : Nat := 0
  /-- GTC of the signature, or of a ROW's pulse that may be the one -/
  sig : Option Nat := none
  /-- an off edge: the GTC at which the SOLENOID's Q_Ln turned off in the window (R313) -/
  cut : Option Nat := none
  settle : Int := 0
  cmd : Option Nat := none
  /-- LATE, with its distance [µm] -/
  late : Bool := false
  dist : Nat := 0
  fired : Nat := 0
  /-- the end of the flow interval that the edge gave with the learned latency -/
  prov : Nat := 0
  /-- the channel's t_on before the edge -/
  was : Nat := 0
  deriving DecidableEq, Repr

/-- A look-ahead query whose answer is due (R171, R204). -/
structure Query where
  boundary : Nat := 0
  near : Int := 0
  len : Int := 0
  /-- the record sent -/
  body : List Byte := []
  deriving DecidableEq, Repr

/-- Running state of a NOZZLE or ROW (06, R188 to R222). -/
structure ChRt where
  /-- the channel's index on its device, 0 to 47 (log 19) -/
  chan : Nat := 0
  output : Bool := false
  /-- the state after the last fired edge -/
  last : Bool := false
  queue : List Edge := []
  /-- learned latencies on and off, in 2^-96 µs; samples and rejections -/
  latOn : Int := 0
  latOff : Int := 0
  samplesOn : Nat := 0
  samplesOff : Nat := 0
  rejOn : Nat := 0
  rejOff : Nat := 0
  /-- the sixteenth outlier waits to be reported: its sample [µs] -/
  shiftOn : Option Nat := none
  shiftOff : Option Nat := none
  lastReason : Nat := 0
  noSample : Nat := 0
  /-- consecutive on edges without a signature -/
  stuck : Nat := 0
  loaded : Bool := false
  windows : List Sample := []
  leadOn : Nat := 0
  leadOff : Nat := 0
  late : Nat := 0
  behind : Nat := 0
  lastLate : Nat := 0
  duty : F32 := 0
  flow : F32 := 0
  flowing : Bool := false
  tOn : Nat := 0
  tOff : Nat := 0
  /-- starts (true) and ends of flow intervals that the marks have still to tell, by time (R167) -/
  flows : List (Nat × Bool) := []
  /-- the marks tell of flow -/
  marking : Bool := false
  markSeq : Nat := 0
  queries : List Query := []
  /-- the answer in force, with its query, and the one received, with its query -/
  ans : Option (Query × List Byte) := none
  ansNext : Option (Query × List Byte) := none
  /-- the answer in force has not been decided on -/
  ansNew : Bool := false
  /-- the unit last found not to fit, 0 none (R211) -/
  unitBad : Nat := 0
  /-- the pressure last read [kPa] -/
  press : F32 := 0
  /-- a member has reported it to the lead as ENABLED -/
  told : Bool := false
  /-- the point's last boundary states, newest first, at most 12 (R167) -/
  hist : List GeoPt := []
  -- ROW (R215 to R217)
  /-- GTC at which a running pre-charge ends -/
  preUntil : Option Nat := none
  /-- rate_m [2^-96 seeds/m] and the target velocity [2^-96 counts/s] of the last run -/
  rateM : Int := 0
  want : Int := 0
  /-- the path position of the last seed -/
  seedPos : Option Int := none
  /-- spacings of the present window [2^-96 mm] with the target spacing -/
  spacings : List (Int × Int) := []
  mean : F32 := 0
  cv : F32 := 0
  single : F32 := 0
  skips : F32 := 0
  multi : F32 := 0
  popn : F32 := 0
  /-- ROW_NO_SEED counts from here -/
  dryAt : Nat := 0
  deriving DecidableEq, Repr

/-- Running state of a SECTION (06, R201 to R208, R223). -/
structure SecRt where
  gate : Bool := false
  /-- SCHED_GATE, SCHED_RATE and SCHED_CANCEL for the next boundary -/
  gateNext : Option Bool := none
  rateNext : Option (F32 × Nat) := none
  /-- the gate as commanded, kept while a lost wing closes it (log 19) -/
  gateReq : Bool := false
  decided : Bool := false
  wingLost : Bool := false
  /-- the Task Controller's setpoint rate with its unit (R211) -/
  tcRate : Option (F32 × Nat) := none
  repOn : Nat := 0
  repOff : Nat := 0
  /-- largest lead times of the members, rounded up, plus the margin [ms] -/
  nowOn : Nat := 0
  nowOff : Nat := 0
  repAt : Nat := 0
  fApp : F32 := 0
  fExc : F32 := 0
  /-- the demand part of each other device: position, flow, GTC of its record (R232) -/
  parts : List (Nat × F32 × Nat) := []
  lastTp : Int := 0
  /-- T_q of the section-wide grain [µs] (R204), and as the far members have been told -/
  tq : Nat := 0
  tqTold : Option Nat := none
  /-- records for far members that wait, and the GTC of the last one sent (R202) -/
  recs : List (List Byte) := []
  recAt : Option Nat := none
  /-- the members' outputs have disagreed since (R398), and 500 ms of it have passed -/
  disSince : Option Nat := none
  dis : Bool := false
  /-- state last reported in Actual Condensed Work State -/
  acws : Nat := 0
  deriving DecidableEq, Repr

/-- A host command on a section (R210): members still to report, by position and handle, and what they reported. -/
structure SecCmd where
  cmd : Nat := 0
  wait : List (Nat × Nat) := []
  fired : Nat := 0
  late : Nat := 0
  behind : Nat := 0
  absent : Nat := 0
  deriving DecidableEq, Repr

/-- A SCHED_CANCEL on a section whose far members have still to report: positions, and the edges cleared (R224). -/
structure SecCancel where
  cmd : Nat := 0
  handle : Nat := 0
  wait : List Nat := []
  count : Nat := 0
  deriving DecidableEq, Repr

/-- A record of the latency store (R194). -/
structure LatRec where
  key : Nat := 0
  on : Nat := 0
  off : Nat := 0
  samplesOn : Nat := 0
  samplesOff : Nat := 0
  deriving DecidableEq, Repr

/-- Section scheduler, device-wide part (06). -/
structure Sched where
  /-- the latency store in MRAM, by key (R194); as shipped DESIGN CHOICE empty (log 4) -/
  store : List LatRec := []
  /-- changed latency records on their way to MRAM, and the SCHED_LATENCY_SAVE descriptors that wait for them -/
  saving : List LatRec := []
  saveDescs : List Desc := []
  /-- numbers of host commands -/
  nextCmd : Nat := 0
  cmds : List SecCmd := []
  cancels : List SecCancel := []
  /-- GTC of the last periodic save -/
  savedAt : Nat := 0
  deriving DecidableEq, Repr


/-- One law of a LOOP: its bank and stage (R234, R242; empty where there is none), its section states z1 and z2,
its profile and its host target (R239, R232). -/
structure LawRt where
  bank : List Byte := []
  stage : List Byte := []
  z : List (F32 × F32) := List.replicate 8 (0, 0)
  r : F32 := 0
  rv : F32 := 0
  ra : F32 := 0
  target : F32 := 0
  deriving DecidableEq, Repr

/-- Running state of a LOOP (07, R227 to R248). -/
structure LoopRt where
  /-- 0 MANUAL, 1 LAW_A, 2 LAW_B -/
  mode : Nat := 0
  lawA : LawRt := {}
  lawB : LawRt := {}
  /-- 256 bins (R241) -/
  bins : List F32 := List.replicate 256 0
  /-- fade in ticks, 0 to 48,000,000 -/
  fade : Nat := 0
  /-- the episode of RC_RANGE or RC_PHASE_LOST has been reported -/
  rcOut : Bool := false
  rcstate : Nat := 0
  phi : F32 := 0
  fCycle : F32 := 0
  uManual : F32 := 0
  /-- LOOP_MANUAL for the next sample -/
  manNext : Option F32 := none
  /-- the last committed output, and the signals of the last sample -/
  u : F32 := 0
  v : F32 := 0
  e : F32 := 0
  y : F32 := 0
  uff : F32 := 0
  urc : F32 := 0
  demand : F32 := 0
  region : F32 := 0
  /-- 0 none, 1 transferring, 2 after TRANSFER_DIVERGENT -/
  xfer : Nat := 0
  /-- t_k of the transfer's first sample, the mode before it, matched, mismatch -/
  xAt : Nat := 0
  xFrom : Nat := 0
  matched : Bool := false
  mismatch : F32 := 0
  /-- its time has been judged; at the last sample its limit bound, and |u_a - u|; t_k of the last sample -/
  xTimed : Bool := false
  xBind : Bool := false
  xGap : F32 := 0
  lastTk : Nat := 0
  /-- a transfer starts at the next sample: at ENABLE -/
  fresh : Bool := false
  clampNow : Bool := false
  atLimit : Bool := false
  rateBinds : Bool := false
  stale : Bool := false
  /-- the following-error timer runs since -/
  feSince : Option Nat := none
  /-- |r - y| of the last sample, and the largest -/
  fe : F32 := 0
  fePeak : F32 := 0
  samples : Nat := 0
  seals : Nat := 0
  clamps : Nat := 0
  lastSeal : Nat := 0
  deriving DecidableEq, Repr

/-- The trace (R249 to R251). -/
structure Trc where
  /-- TRC_CTL.DECIM, MODE and EN -/
  decim : Nat := 0
  stream : Bool := false
  en : Bool := false
  /-- TRC_STAT.CFG_ERR, DROPPED, DONE (W1C) and STATE -/
  cfgErr : Bool := false
  dropped : Bool := false
  done : Bool := false
  state : Nat := 0
  /-- TRC_CLOCK, TRC_TRIG, TRC_LEVEL, TRC_PRE, TRC_POST; reset DESIGN CHOICE 0 (log 2) -/
  clock : Nat := 0
  trig : Nat := 0
  level : F32 := 0
  pre : Nat := 0
  post : Nat := 0
  /-- TRC_COUNT: entries dropped and entries written, saturating -/
  lost : Nat := 0
  written : Nat := 0
  /-- TRC_PROBE_H and TRC_PROBE_S; reset DESIGN CHOICE 0 (log 2) -/
  probeH : List Nat := List.replicate 8 0
  probeS : List Nat := List.replicate 8 0
  /-- clock instants since the arm, recorded instants, and those left after the trigger -/
  ticks : Nat := 0
  /-- a clock instant to be recorded -/
  due : Option Nat := none
  seq : Nat := 0
  left : Nat := 0
  /-- the entries in the buffer, oldest first, each with the number of its instant -/
  buf : List (Nat × List Byte) := []
  /-- the probe compared with the level, at the last recorded instant -/
  prev : Option F32 := none
  /-- a trigger has come and waits for the next recorded instant -/
  fired : Bool := false
  /-- a gap precedes the next entry -/
  gap : Bool := false
  /-- entries of this arm written to the ring, and a stopped stream that still writes its buffer -/
  sent : Nat := 0
  ending : Bool := false
  deriving DecidableEq, Repr


/-- A period group (R257, R258) with its commutation table (R270). -/
structure PgGroup where
  conf : Bool := false
  aligned : Bool := false
  /-- [TCLK] -/
  period : Nat := 0
  anchor : Int := 0
  /-- a new period of a running free group, for its next period start -/
  nextPeriod : Option Nat := none
  /-- GTC of the present period's start -/
  start : Option Nat := none
  /-- GTC of the next period start -/
  next : Option Nat := none
  /-- period index -/
  k : Nat := 0
  /-- the 80 B block of PG_COMM_CONFIG, when configured -/
  comm : Option (List Byte) := none
  step : Nat := 0
  /-- an invalid hall code sets FLOAT -/
  floating : Bool := false
  deriving DecidableEq, Repr

/-- A trip input (R266, R267): bytes 17 to 20 of its configuration. -/
structure Trip where
  en : Bool := false
  latch : Bool := true
  flags : Nat := 0
  filter : Nat := 0
  /-- a configuration waiting for the next boundary -/
  next : Option (List Byte) := none
  /-- the input is active after its filter -/
  input : Bool := false
  latched : Bool := false
  /-- GTC at which the input last became inactive -/
  released : Nat := 0
  deriving DecidableEq, Repr

/-- Pulse generator, device-wide part (08), and the GPIO balls (18). -/
structure Pg where
  groups : List PgGroup := List.replicate 16 {}
  trips : List Trip := List.replicate 8 {}
  /-- SYS_ECH_MAP (RWL, R519) -/
  echMap : Nat := 0
  /-- levels of edge channels 112 to 127 that no PWMCH serves -/
  ech : List Bool := List.replicate 16 false
  /-- filtered levels of GPIO0 to GPIO47 (R518) -/
  gpio : List Bool := List.replicate 48 false
  /-- levels of SWN0 to SWN31 -/
  swn : List Bool := List.replicate 32 false
  deriving DecidableEq, Repr

/-- A shadow of a PWMCH that a later write has replaced (R258): since when it stood, the block, the phase. -/
structure Shadow where
  since : Nat := 0
  params : List Byte := []
  phase : Option Nat := none
  deriving DecidableEq, Repr

/-- Running state of a PWMCH (08, R262 to R276). -/
structure PwmRt where
  gate : Bool := false
  /-- a removed driving reference keeps the gate closed until the next ENABLE (R262) -/
  shut : Bool := false
  /-- a NOZZLE's on edge forces the active level; not before this GTC does it end -/
  force : Option Nat := none
  /-- the latch that compares set and clear -/
  cmp : Bool := false
  setEdge : Option Nat := none
  clrEdge : Option Nat := none
  /-- L stays inactive in this period (R265) -/
  lOff : Bool := false
  /-- cycle trip in this period -/
  cyc : Bool := false
  /-- latched trips acting on the channel -/
  latched : Nat := 0
  /-- cleared, and waiting for the next period start (R269) -/
  await : Bool := false
  /-- made FAULTED by a class 1 trip: safe levels until DISABLE -/
  tripped : Bool := false
  /-- made FAULTED otherwise: the inactive level, or after a device fault the disposition's level (R468) -/
  dispHeld : Bool := false
  /-- H (or single) and L active from this GTC on -/
  h : Option Nat := none
  l : Option Nat := none
  /-- adaptive dead time in progress: rising, and its start -/
  turn : Option (Bool × Nat) := none
  blankUntil : Nat := 0
  carry : Int := 0
  shortPulse : Nat := 0
  dtRise : Nat := 0
  dtFall : Nat := 0
  measR : Bool := false
  measF : Bool := false
  dtTimeouts : Nat := 0
  periods : Nat := 0
  lastEdge : Nat := 0
  /-- GTC of the last change to the shadow -/
  shadowAt : Nat := 0
  /-- earlier shadows that a period start may still have to load, oldest first -/
  past : List Shadow := []
  /-- phase of a driving NOZZLE, in the shadow and loaded -/
  phaseSh : Option Nat := none
  phase : Option Nat := none
  deriving DecidableEq, Repr


/-- Running state of a SWITCH (09, R283 to R299). -/
structure SwRt where
  /-- the gate of a static line (R262) -/
  gate : Bool := false
  /-- the IN pin's active level (src 1) and since when it has been inactive -/
  inAct : Bool := false
  inSince : Nat := 0
  /-- the control command is on (R284) -/
  cmd : Bool := false
  out : Bool := false
  /-- the control line is ignored until a new on command (R294) -/
  dead : Bool := false
  latch : Nat := 0
  retries : Nat := 0
  /-- a retry delay ends at this GTC -/
  retryAt : Option Nat := none
  /-- its end came while a thermal condition held -/
  retryWait : Bool := false
  dtOff : Bool := false
  /-- start of the present limiting, and whether it began in the inrush window -/
  limAt : Option Nat := none
  limInrush : Bool := false
  turnOn : Nat := 0
  /-- adopted out of HOLD (R297) -/
  adopted : Bool := false
  current : F32 := 0
  iPeak : F32 := 0
  fuse : F32 := 0
  tj : F32 := 0
  ocLimit : Nat := 0
  ocShort : Nat := 0
  dtCycles : Nat := 0
  clamps : Nat := 0
  olEvents : Nat := 0
  onCmds : Nat := 0
  lastOn : Nat := 0
  /-- GTCs of clamp events within the last second -/
  clampAt : List Nat := []
  /-- consecutive open intervals, and the open-load condition -/
  olRun : Nat := 0
  openLoad : Bool := false
  deriving DecidableEq, Repr

/-- Switch channels, device-wide part (R281). -/
structure SwDev where
  /-- mean currents of the last completed second: groups 0 to 3 and the device [A] -/
  means : List F32 := [0, 0, 0, 0, 0]
  /-- sums of the present second's current codes of the groups -/
  acc : List Nat := [0, 0, 0, 0]
  /-- case temperatures of the groups [°C]; reset DESIGN CHOICE 0 (log 2) -/
  tcase : List F32 := [0, 0, 0, 0]
  deriving DecidableEq, Repr


/-- A learning or signature window (R191, R192, R313): its edge, when it began, and the first reason found. -/
structure Window where
  on : Bool := true
  edge : Nat := 0
  reason : Nat := 0
  /-- an off edge: the GTC at which Q_Ln turned off in the window (R313) -/
  cut : Option Nat := none
  deriving DecidableEq, Repr

/-- Running state of a SOLENOID (10, R310 to R322). -/
structure SolRt where
  gate : Bool := false
  /-- 0 OFF, 1 WAIT, 2 BOOST, 3 PEAK, 4 HOLD, 5 DECAY (R310) -/
  phase : Nat := 0
  /-- LSGn is on -/
  ls : Bool := false
  /-- GTC of its last change -/
  lsAt : Nat := 0
  skippedLast : Bool := false
  notReached : Bool := false
  tBoostEnd : Bool := false
  /-- ignores its gate until a new on command -/
  dead : Bool := false
  latch : Nat := 0
  lastReason : Nat := 0
  current : F32 := 0
  iMax : F32 := 0
  tWait : Nat := 0
  tBoostMeas : Nat := 0
  tSig : Nat := 0xFFFFFFFF
  boosts : Nat := 0
  skipped : Nat := 0
  overlaps : Nat := 0
  onCmds : Nat := 0
  lastOn : Nat := 0
  /-- GTC at which the present actuation began, and its phase -/
  onAt : Nat := 0
  phaseAt : Nat := 0
  /-- the hold target a LOOP gives (R310) -/
  loopTarget : Option F32 := none
  /-- the target that the channel regulates to (R310) -/
  target : F32 := 0
  window : Option Window := none
  /-- the present target has been reached -/
  reached : Bool := false
  deriving DecidableEq, Repr

/-- Boost converter (R307 to R309) and the banks' high sides. -/
structure Boost where
  en : Bool := false
  /-- bytes 18 to 35 of SOL_BOOST_CONFIG -/
  freq : Nat := 200
  vboost : F32 := 0x42400000
  ilim : F32 := 0x40A00000
  rcs : F32 := 0x41A00000
  boostWait : Nat := 2000
  tChop : Nat := 2
  /-- vboost, boost_wait and t_chop waiting for the next boundary -/
  next : Option (F32 × Nat × Nat) := none
  /-- measured VBOOST [V]; reset DESIGN CHOICE 0 (log 2) -/
  volts : F32 := 0
  /-- handles waiting, in the order of their on commands; the head may boost -/
  queue : List Nat := []
  running : Option Nat := none
  charging : Bool := false
  /-- the reservoir reached vboost in this charge -/
  charged : Bool := false
  overV : Bool := false
  chargeAt : Nat := 0
  boosts : Nat := 0
  skipped : Nat := 0
  longestWait : Nat := 0
  lastCharge : Nat := 0
  /-- HSGb of the four banks, GTC of their last changes, and BST_G -/
  hs : List Bool := [false, false, false, false]
  hsAt : List Nat := [0, 0, 0, 0]
  bstG : Bool := false
  deriving DecidableEq, Repr

/-- A target of an axis (R328): kind 0 POSITION, 1 RELATIVE, 2 VELOCITY, 3 TIMED; a position or distance in 2^-32
counts, or a velocity in 2^-96 counts/s; a duration in µs. -/
structure ATgt where
  kind : Nat := 0
  value : Int := 0
  dur : Nat := 0
  deriving DecidableEq, Repr

/-- A compare of an axis (R338): its descriptor, its position in counts, its qualifier, its edge. -/
structure ACmp where
  desc : Desc
  value : Int := 0
  rev : Bool := false
  edge : Nat := 0xFF
  level : Bool := false
  armed : Bool := false
  dir : Int := 1
  deriving DecidableEq, Repr

/-- Running state of an AXIS with its profile generator (11, R326 to R346): p in 2^-32 counts, v and a in 2^-96
counts/s and counts/s². -/
structure AxRt where
  /-- the fault action of a class 1 fault is under way: FAULTED follows at rest (R70, R343) -/
  faulting : Bool := false
  p : Int := 0
  v : Int := 0
  a : Int := 0
  /-- p and v where the present interval began, and its GTC -/
  p0 : Int := 0
  v0 : Int := 0
  t0 : Nat := 0
  /-- 0 position, 1 velocity, 2 follow -/
  mode : Nat := 0
  tgtP : Int := 0
  tgtV : Int := 0
  vCap : Option Int := none
  aCap : Option Int := none
  /-- the target in force has not ended, and it is the host's -/
  busy : Bool := false
  host : Bool := false
  late : Bool := false
  limStop : Bool := false
  /-- p and the sign of v at the update where it took effect, and the way since in the old direction -/
  fromP : Int := 0
  fromDir : Int := 0
  exc : Int := 0
  excursion : F32 := 0
  /-- a stop is under way -/
  stopping : Bool := false
  stopDescs : List Desc := []
  /-- what the driving object gave, for the job's next run; what the job committed, and its slot's end -/
  inbox : Option ATgt := none
  jobTgt : Option (Nat × ATgt) := none
  -- homing (R341, R342)
  homing : Bool := false
  homed : Bool := false
  homeFail : Nat := 0
  limits : Nat := 0
  idxPos : Int := 0
  setPos : Option Int := none
  compares : List ACmp := []
  -- output (R333, R334, R337)
  owed : Int := 0
  lastPulse : Nat := 0
  dirRev : Bool := false
  dirAt : Nat := 0
  en : Bool := false
  enAt : Nat := 0
  /-- motion waits: 1 for en_setup, 2 for a period start -/
  wait : Nat := 0
  /-- the standstill option is in effect, and which one -/
  optIn : Bool := false
  opt : Nat := 0
  stillAt : Option Nat := none
  /-- at rest the standstill option applies at once: 1 after a fault, 2 OFF after DISABLE -/
  atRest : Nat := 0
  limited : Bool := false
  lastRev : Bool := false
  moved : Bool := false
  -- follow mode (R336)
  vEst : Int := 0
  stepLast : Option Nat := none
  /-- transitions of lim_pos, lim_neg and home_gpio: GPIO and GTC (R340) -/
  trans : List (Nat × Nat) := []
  chatter : Bool := false
  -- following error (R343)
  feSince : Option Nat := none
  feDiff : F32 := 0
  fbPos : Int := 0
  arriveV : F32 := 0
  lateN : Nat := 0
  behindN : Nat := 0
  limitStops : Nat := 0
  lastStop : Nat := 0
  deriving DecidableEq, Repr


/-- Running state of a FEEDBACK (12, R351 to R368). -/
structure FbRt where
  /-- the signed count, or the unwrapped serial position -/
  pos : Int := 0
  /-- accepted counts with their stamps, newest first, at most 64 (R363) -/
  edges : List (Nat × Int) := []
  dirKnown : Bool := false
  rev : Bool := false
  /-- counts against the reported direction so far (R354) -/
  opp : Nat := 0
  tEdge : Nat := 0
  period : Nat := 0
  fault : Bool := false
  reason : Nat := 0
  sub : Nat := 0
  idxMiss : Nat := 0
  idxLast : Nat := 0
  corr : Int := 0
  idxPos : Int := 0
  /-- an index pulse starts the next check: its direction, no direction change since (R356) -/
  idxFrom : Option Bool := none
  ref : Option Int := none
  reref : Bool := false
  qerr : Nat := 0
  /-- GTCs of quadrature errors within 100 ms, and of ignored edges within 1 s -/
  qerrAt : List Nat := []
  glitches : Nat := 0
  glitchAt : List Nat := []
  badFrames : Nat := 0
  badRun : Nat := 0
  /-- the last good raw read, and good reads with their stamps, newest first -/
  raw : Option Nat := none
  reads : List (Nat × Int) := []
  /-- stamp of the read in progress -/
  reading : Option Nat := none
  /-- analog samples with their GTC, newest first -/
  samples : List (Nat × Nat) := []
  /-- V has been outside its range since -/
  rangeSince : Option Nat := none
  /-- speed at the last frame boundary [counts/s] -/
  speed : F32 := 0
  /-- FB_SET_POS, for the next boundary -/
  setPos : Option Int := none
  deriving DecidableEq, Repr

/-- An encoder output (R366). -/
structure Enco where
  mode : Nat := 0
  enc : Nat := 0
  flags : Nat := 0
  src : Nat := 0
  lines : Nat := 1024
  minEdge : Nat := 48
  scale : F32 := 0x3F800000
  /-- source position at configuration [2^-96 counts], and the output count -/
  base : Int := 0
  count : Int := 0
  /-- GTC of the last step -/
  stepAt : Nat := 0
  a : Bool := false
  b : Bool := false
  z : Bool := false
  /-- inline bytes 16 to 31 of a configuration waiting for the next boundary -/
  next : Option (List Byte) := none
  deriving DecidableEq, Repr

/-- Feedback, device-wide part: filtered input levels, filters of unclaimed inputs, encoder outputs. -/
structure FbDev where
  encA : List Bool := List.replicate 16 false
  encB : List Bool := List.replicate 16 false
  encZ : List Bool := List.replicate 16 false
  pulse : List Bool := List.replicate 8 false
  stepin : List Bool := List.replicate 8 false
  /-- N per GPIO, STEPIN, ENC and PULSE input (R352) -/
  filtGpio : List Nat := List.replicate 48 8
  filtStepin : List Nat := List.replicate 8 8
  filtEnc : List Nat := List.replicate 16 8
  filtPulse : List Nat := List.replicate 8 8
  /-- the last code of AIN0 to AIN15 (R362) -/
  ain : List Nat := List.replicate 16 0
  enco : List Enco := [{}, {}]
  deriving DecidableEq, Repr


/-- Defaults of the ISOBUS block (R389). -/
def isbDefault : List Byte := [0, 0, 0, 0, 0, 128, 128, 247, 0, 0, 0, 0, 0, 0, 0, 0, 1] ++ List.replicate 79 0

/-- Defaults of CAN_WAKE_CONFIG, bytes 16 to 43 (R387). -/
def canWakeDefault : List Byte := [1, 1, 8] ++ List.replicate 25 0

/-- A transmit buffer (R375, R380, R381, R385). -/
structure CanTx where
  /-- the frame that the buffer holds -/
  frame : Option CanFrame := none
  /-- queued for transmission and not yet sent -/
  pend : Bool := false
  /-- GTC since which it is queued -/
  since : Nat := 0
  single : Bool := false
  /-- GTC of the last successful transmission (R376) -/
  gtc : Nat := 0
  /-- inline bytes 16 to 43 of CAN_TX_CONFIG while the buffer is periodic -/
  cfg : Option (List Byte) := none
  nextAt : Nat := 0
  /-- identifier collisions since the last success -/
  coll : Nat := 0
  susp : Bool := false
  /-- a service buffer's message: the number of its ISB_PGN_SEND -/
  msg : Option Nat := none
  deriving DecidableEq, Repr

/-- A received element (R376): frame, accepting filter, timestamp. -/
structure CanRx where
  frame : CanFrame
  filter : Nat := 0
  gtc : Nat := 0
  deriving DecidableEq, Repr

/-- Running state of a CANPORT (13, R375 to R385, R400). -/
structure CanRt where
  /-- the filter list in force, 16 B an element, and one waiting for the next boundary (R377) -/
  filt : List Byte := []
  filtNext : Option (List Byte) := none
  /-- buffers 0 to 23, and 24 to 31 of the services -/
  tx : List CanTx := List.replicate 32 {}
  rx0 : List CanRx := []
  rx1 : List CanRx := []
  /-- signals 0 to 63 (R379) -/
  sig : List F32 := List.replicate 64 0
  tec : Nat := 0
  rxErr : Nat := 0
  busOff : Bool := false
  stopped : Bool := true
  lastErr : Nat := 0
  /-- consecutive attempts that ended in an acknowledge error (R384) -/
  ackRun : Nat := 0
  lone : Bool := false
  /-- while throttled: GTC of the last attempt, and an attempt is allowed -/
  attemptAt : Nat := 0
  attempt : Bool := false
  txFrames : Nat := 0
  rxFrames : Nat := 0
  rxDropped : Nat := 0
  busOffs : Nat := 0
  idcoll : Nat := 0
  undecoded : Nat := 0
  txLate : Nat := 0
  deriving DecidableEq, Repr

/-- A transport session (R391): peer address (255 a broadcast), PGN, bytes, extended protocol, ISB_PGN_SEND number when
sending. -/
structure TpSession where
  peer : Nat := 0
  pgn : Nat := 0
  size : Nat := 0
  msg : Option Nat := none
  deriving DecidableEq, Repr

/-- A received message that waits for a read (R392). -/
structure IsbMsg where
  pgn : Nat := 0
  src : Nat := 0
  prio : Nat := 0
  data : List Byte := []
  deriving DecidableEq, Repr

/-- A measurement that the Task Controller has asked for (R399): command 4 time, 5 distance, 6 and 7 thresholds, 8 on
change; its value; and when, where and what was last sent. -/
structure Meas where
  elem : TcElem
  pd : Pd
  cmd : Nat
  value : Int
  at' : Nat := 0
  dist : Nat := 0
  sent : Int := 0
  deriving DecidableEq, Repr

/-- The ISOBUS services (13, R389 to R399). -/
structure Isb where
  /-- the 96 B block of R389 -/
  cfg : List Byte := isbDefault
  address : Nat := 254
  /-- 0 none, 1 claiming, 2 claimed, 3 cannot claim (R401) -/
  claim : Nat := 0
  /-- Address Claimed is to be sent: at start, bus-on or wake (R390) -/
  claimDue : Bool := false
  /-- the address being claimed, the GTC of its Address Claimed, addresses known to be claimed by others -/
  trying : Nat := 254
  claimAt : Nat := 0
  taken : List Nat := []
  /-- client state (R394) -/
  tc : Nat := 0
  tcAddr : Nat := 254
  tcVer : Nat := 0
  /-- GTC of the last Task Controller status -/
  tcLast : Nat := 0
  /-- the loaded pool, and the pool store by key (R395); contents as shipped DESIGN CHOICE empty (log 4) -/
  pool : Option (List Byte) := none
  pools : List (Nat × List Byte) := []
  /-- Setpoint Work State and Section Control State per tc_section (R397) -/
  sws : Nat := 0
  scs : Nat := 0
  /-- Actual Condensed Work State last sent per group (R398) -/
  sent : List Nat := List.replicate 16 0
  meas : List Meas := []
  recv : List TpSession := []
  send : List TpSession := []
  msgs : List IsbMsg := []
  /-- frames of the services that wait for a buffer -/
  out : List (CanFrame × Option Nat) := []
  aborted : Nat := 0
  pdRecv : Nat := 0
  pdSent : Nat := 0
  dropped : Nat := 0
  /-- path of the implement origin, in steps of 0.1 µm (R399) -/
  path : Nat := 0
  nextMsg : Nat := 0
  deriving DecidableEq, Repr

/-- CAN wake sources and the transceiver (R387, R388): inline bytes 16 to 43 of CAN_WAKE_CONFIG, INH, and its
low-power mode. -/
structure CanDev where
  wake : List Byte := canWakeDefault
  inh : Bool := true
  lowPower : Bool := false
  deriving DecidableEq, Repr


/-- FS-216 legacy block (14). The sixteen sections themselves are SWITCH objects without a handle, at indices from
`legBase` on (log 24). -/
structure Leg where
  /-- the legacy job runs -/
  active : Bool := false
  /-- the password (R421), in MRAM: as shipped 0x0216_0000; and one in force whose MRAM write waits -/
  password : Nat := 0x02160000
  pwdNew : Option Nat := none
  /-- the promotion record (R428), in MRAM, and its write waits -/
  record : Bool := false
  recordDue : Bool := false
  /-- consecutive failed attempts and the present lockout length [s], in MRAM, and the end of a running lockout -/
  fails : Nat := 0
  lockLen : Nat := 0
  lockEnd : Option Nat := none
  unlocked : Bool := false
  /-- KEY_HI and PWD_HI of the valid frame before -/
  keyHi : Option Nat := none
  pwdHi : Option Nat := none
  -- registers (R412)
  out : Nat := 0
  ocflt : Nat := 0
  otflt : Nat := 0
  olflt : Nat := 0
  mask : Nat := 0
  inten : Nat := 0
  stagger : Nat := 0
  cfg : Nat := 0x000D
  dly : List Nat := List.replicate 16 0
  calgain : Nat := 1024
  /-- STAT [7:0]; PROMOTING is `promoting` -/
  stat : Nat := 0
  promoting : Bool := false
  /-- extension window (R424): XCTL, XADDR, the halves held and latched, DISCARD -/
  xctl : Nat := 0
  xaddr : Nat := 0
  xlo : Nat := 0
  xhi : Nat := 0
  xdiscard : Bool := false
  /-- the reply to the previous frame: address and data; none after entry (R410) -/
  reply : Option (Nat × Nat) := none
  /-- level of ENA_N (GPIO47); DESIGN CHOICE low at reset (log 2) -/
  enaHigh : Bool := false
  /-- requested states whose delays have passed -/
  want : Nat := 0
  /-- pending changes: section, state, due GTC; then the turn-ons that wait for their stagger step, and the GTC of it -/
  pend : List (Nat × Bool × Nat) := []
  queue : List Nat := []
  stagAt : Nat := 0
  /-- GTC of the last tick, and of the end of the last valid frame or the entry -/
  tick : Nat := 0
  frameAt : Nat := 0
  /-- the communication-loss timer runs -/
  armed : Bool := false
  framesOk : Nat := 0
  framesBad : Nat := 0
  comLosses : Nat := 0
  attemptsBad : Nat := 0
  deriving DecidableEq, Repr


/-- A key slot (R438, R450). -/
structure KeySlot where
  /-- the key, when LOADED -/
  key : Option (List Byte) := none
  fails : Nat := 0
  /-- length of the next lockout in seconds -/
  nextLock : Nat := 30
  /-- length and end of a running lockout -/
  lockLen : Nat := 0
  lockEnd : Option Nat := none
  deriving DecidableEq, Repr

/-- An outstanding challenge (R442). -/
structure Challenge where
  sq : Nat := 0
  role : Nat := 0
  slot : Nat := 0
  ttl : Nat := 300
  sid : Nat := 0
  /-- the context C of R443 -/
  ctx : List Byte := []
  expires : Nat := 0
  deriving DecidableEq, Repr

/-- An open session (R443 to R449). -/
structure Session where
  /-- its byte of SEC_SESS, 0 to 3 -/
  idx : Nat := 0
  sq : Nat := 0
  role : Nat := 0
  slot : Nat := 0
  sid : Nat := 0
  kTag : List Byte := []
  kWrap : List Byte := []
  /-- tagged descriptors fetched since it opened -/
  n : Nat := 0
  ttl : Nat := 300
  lastTagged : Nat := 0
  badRun : Nat := 0
  /-- it has loaded the configuration (R448) -/
  loaded : Bool := false
  deriving DecidableEq, Repr

/-- A firmware slot (R451): its bytes; the factory image's content is not in the spec. -/
structure FwSlot where
  factory : Bool := false
  bytes : List Host.Cell := []
  deriving DecidableEq, Repr

/-- A write of MRAM that a descriptor asks for (R395, R437, R440, R453, R507): a key slot, the untagged role, the erasure
of a firmware slot's header, firmware bytes, a commit, a stored pool, the boot policy, and the removal of a latency record. -/
inductive MramOp where
  | key (slot : Nat) (key : Option (List Byte))
  | policy (role : Nat)
  | fwErase (slot : Bool)
  | fwData (slot : Bool) (off : Nat) (bytes : List Byte)
  | fwCommit (slot : Bool)
  | pool (key : Nat) (bytes : List Byte)
  | bootPolicy (v : Nat)
  | latErase (key : Nat)
  deriving DecidableEq, Repr

/-- Security module (15). Contents of MRAM are those as shipped. -/
structure Sec where
  slots : List KeySlot := List.replicate 8 {}
  /-- the untagged role of the policy (R437): as shipped OPERATOR -/
  untagged : Nat := 1
  challenges : List Challenge := []
  sessions : List Session := []
  selftestDone : Bool := false
  /-- debug scopes unlocked since the last reset (R455) -/
  debugScopes : List Nat := []
  debugOpen : Bool := false
  legacyPwd : Bool := false
  /-- zeroization in progress, with its cause: 0 pin, 1 command (R456) -/
  zeroizing : Option Nat := none
  fwA : FwSlot := { factory := true }
  fwB : FwSlot := {}
  /-- running slot: false A, true B -/
  running : Bool := false
  /-- the candidate committed and awaiting its first boot (R453) -/
  candidate : Option Bool := none
  /-- the slot an update has begun on (R453) -/
  updating : Option Bool := none
  /-- anti-rollback counter, 0 to 63 (R454) -/
  rollback : Nat := 0
  deriving DecidableEq, Repr


/-- Safety island (16, registers; R461 to R481). -/
structure Isl where
  /-- ISL_STAT.LOG_WRAPPED (W1C) -/
  logWrapped : Bool := false
  /-- ISL_STAT.LASTGASP_LOST (W1C) -/
  lastgaspLost : Bool := false
  /-- ISL_STAT.BAD_SERVICE (W1C) -/
  badService : Bool := false
  /-- ISL_STAT.HOLD_ACTIVE: the HOLD timer runs -/
  holdActive : Bool := false
  /-- the device-fault safe force (R466), released by ISL_FAULT_CLEAR -/
  safeFault : Bool := false
  /-- the debug-halt safe force (R463) -/
  safeDebug : Bool := false
  /-- the safe force asserted from a reset or a clock fault until boot ends (R473, R474) -/
  safeReset : Bool := false
  /-- engines halted through debug access -/
  halted : List Nat := []
  zeroizePin : Bool := false
  estopPin : Bool := false
  estopLatch : Bool := false
  deviceFault : Bool := false
  wdtRunning : Bool := false
  /-- ISL_CTL.FLT_C1 (RWL) -/
  fltC1 : Bool := false
  /-- ISL_CTL.LOG_C1 (RWL) -/
  logC1 : Bool := false
  /-- ISL_LOCK: the set-up lock of R11 -/
  locked : Bool := false
  /-- ISL_RESET_CAUSE.CAUSE: 1 POR to 9 BOOT -/
  cause : Nat := 1
  /-- ISL_RESET_CAUSE.COUNT -/
  resetCount : Nat := 0
  /-- ISL_RESET_CAUSE.FAULT_CODE -/
  resetFault : Nat := 0
  /-- ISL_RESET_GTC -/
  resetGtc : Nat := 0
  /-- ISL_FAULT -/
  faultCode : Nat := 0
  /-- ISL_FAULT_HANDLE -/
  faultHandle : Nat := 0
  /-- WDT_CTL.EN (RWL) -/
  wdtEn : Bool := false
  /-- WDT_CTL.DEBUG_PAUSE (RWL) -/
  wdtDebugPause : Bool := false
  /-- WDT_TIMEOUT in ms (RWL) -/
  wdtTimeout : Nat := 1000
  /-- WDT_WINDOW in ms (RWL) -/
  wdtWindow : Nat := 0
  /-- WDT_STAT.TOKEN -/
  wdtToken : Nat := 0x5A
  /-- GTC of the last valid service or of the arming (R471, R472) -/
  wdtServed : Nat := 0
  /-- consecutive refused services (R472) -/
  wdtBad : Nat := 0
  /-- ISL_HOLD: lines in HOLD -/
  hold : List Nat := []
  /-- ISL_DISP_SW: per line 0 OFF, 2 HOLD -/
  dispSw : List Nat := List.replicate 48 0
  /-- ISL_DISP_PWM: per edge channel [1:0] safe level, [2] SAFE_LEVEL, [3] invert -/
  dispPwm : List Nat := List.replicate 64 0
  /-- while the HOLD timer runs: the lines of its first reset, the GTC at which it expires, the lines adopted (R476) -/
  holdFirst : List Nat := []
  holdEnds : Option Nat := none
  holdAdopted : Nat := 0
  /-- the log store: entries with their index, oldest first, at most 4,096 (R477); DESIGN CHOICE empty (log 4) -/
  log : List (List Byte) := []
  /-- ISL_LOG_INDEX; DESIGN CHOICE 0 (log 4) -/
  logIndex : Nat := 0
  /-- index below which every entry has been read (R477) -/
  logRead : Nat := 0
  /-- the island's copy of the GTC at the last boundary (R479) -/
  boundaryGtc : Nat := 0
  /-- conditions of latched device faults that persist, by event code (R468) -/
  conditions : List Nat := []
  /-- GTC since when ESTOP_N has been high after a stop (R469) -/
  estopHighAt : Option Nat := none
  /-- ISL_RESET has been accepted and starts 1 ms later (R483) -/
  softResetAt : Option Nat := none
  /-- its cause: 5 SOFT, or 9 BOOT for PWR_RETRY_BOOT (R510) -/
  softCause : Nat := 5
  /-- the watchdog pauses since this GTC for a debug halt (R471) -/
  wdtPausedAt : Option Nat := none
  /-- the last reset entry was written as a last-gasp record (R479) -/
  lastgasp : Bool := false
  /-- the log line bits of the last reset: 48 lines on at the reset (R479) -/
  resetLines : Nat := 0
  /-- and the number of lines that it left in HOLD -/
  resetHeld : Nat := 0
  deriving DecidableEq, Repr


/-- What the device runs as (R404, R496, R509). -/
inductive Mode where
  | booting | native | fs216 | bareKing | sleeping | parked
  deriving DecidableEq, Repr

/-- Boot (17, R503 to R511). -/
structure Boot where
  /-- MODE1, MODE0 straps as sampled: 0 PCIe, 1 SPI, 2 FS-216, 3 bare king (R496); DESIGN CHOICE 0 (log 6) -/
  straps : Nat := 0
  mode : Mode := .booting
  /-- SYS_MODE.MODE: the mode at the last reset: 0 native PCIe, 1 native SPI, 2 FS-216, 3 bare king; reset DESIGN CHOICE 0 (log 6) -/
  modeAt : Nat := 0
  /-- ISL_BOOT fields -/
  error : Nat := 0
  stage : Nat := 0
  fallback : Bool := false
  bkReason : Nat := 0
  confirmed : Bool := false
  /-- boot policy (R507), in MRAM: as shipped SELFTEST -/
  policy : Nat := 0
  bootCount : Nat := 0
  /-- per slot the stage and the error of its last failure (R511) -/
  reports : List (Nat × Nat) := [(0, 0), (0, 0)]
  lastConfirmed : Option Bool := none
  /-- reset has been released and the stages run (R503) -/
  released : Bool := false
  /-- the policy in force in this boot (R507) -/
  policyNow : Nat := 0
  /-- the preferred slot of this boot, and whether it was the candidate (R504) -/
  preferred : Bool := false
  tried : Bool := false
  /-- GTC at the end of boot -/
  gtcBoot : Nat := 0
  deriving DecidableEq, Repr

/-- What MRAM still holds of the records that the device writes of its own accord, while a supply warning defers those
writes (R489, R491): the failures and lockouts of the key slots and of the legacy password, and the outcome of boots. -/
structure MramOld where
  slots : List KeySlot := []
  fails : Nat := 0
  lockLen : Nat := 0
  lockEnd : Option Nat := none
  rollback : Nat := 0
  candidate : Option Bool := none
  lastConfirmed : Option Bool := none
  deriving DecidableEq, Repr

/-- Power (17, R485 to R502). -/
structure Pwr where
  /-- PWR_STAT.BOW: a supply warning runs -/
  bow : Bool := false
  supplyLow : Bool := false
  /-- MRAM writes that a supply warning defers, with their descriptors, in their order (R489) -/
  mramWait : List (Desc × MramOp) := []
  /-- records in MRAM as the warning found them -/
  mramOld : Option MramOld := none
  viofOk : Bool := false
  viohOk : Bool := false
  /-- per VBAT group -/
  vbatLow : List Bool := [false, false, false, false]
  vbatUvlo : List Bool := [false, false, false, false]
  vbatHigh : List Bool := [false, false, false, false]
  /-- PWR_VDD_WARN.STEP -/
  vddWarn : Nat := 0
  /-- PWR_VBAT_WARN -/
  vbatWarn : Nat := 80
  /-- PWR_VDD in mV and the lowest since; reset DESIGN CHOICE 0 (log 2) -/
  vdd : Nat := 0
  vddLow : Nat := 0
  /-- VBAT readings in 10 mV; reset DESIGN CHOICE 0 (log 2) -/
  vbat : List Nat := [0, 0, 0, 0]
  /-- PWR_WAKE_REASON: the reason, and 1 SLEEP, 2 PARK, 0 none -/
  wakeReason : Nat := 0
  wakeFrom : Nat := 0
  /-- GTC of the crossing of the warning level -/
  bowAt : Nat := 0
  /-- PWR_WAKE_CONFIG: gpio_mask, gpio_pol, wflags, timer (R502) -/
  wakeMask : Nat := 0
  wakePol : Nat := 0
  wakeFlags : Nat := 3
  wakeTimer : Nat := 0
  /-- the boundary E of an accepted PWR_SLEEP, and the GTC at which the wake timer fires -/
  sleepAt : Option Nat := none
  wakeAt : Option Nat := none
  /-- the boundary of an accepted PWR_PARK -/
  parkAt : Option Nat := none
  /-- the latency records that PARK has to write -/
  parkCount : Nat := 0
  /-- SLEEP and PARK hold every output OFF (R495) -/
  linesOff : Bool := false
  deriving DecidableEq, Repr


/-- What an object of each type holds besides its head and parameters. -/
inductive Rt where
  | none
  | pwm (r : PwmRt)
  | sw (r : SwRt)
  | sol (r : SolRt)
  | fb (r : FbRt)
  | wing (r : WingRt)
  | geo (r : GeoRt)
  | layer (r : LayerRt)
  | chan (r : ChRt)
  | sect (r : SecRt)
  | loop (r : LoopRt)
  | axis (r : AxRt)
  | can (r : CanRt)
  deriving DecidableEq, Repr

/-- An object (R69, R74): its index, type and generation, its state, its status head, its parameter block as the
host writes and reads it (`params`) and as it is in force (`act`), its staged changes and its running state. -/
structure Obj where
  idx : Nat := 0
  typ : Nat := 0
  gen : Nat := 1
  ost : OState := .disabled
  params : List Byte := []
  act : List Byte := []
  /-- staged changes, in order: offset and bytes (R92) -/
  staged : List (Nat × List Byte) := []
  engine : Nat := 0xFF
  slots : Nat := 0
  epoch : Nat := 0
  ffTotal : Nat := 0
  ffConsec : Nat := 0
  lastFault : Nat := 0
  discarded : Nat := 0
  cost : Nat := 0
  changed : Nat := 0
  sms : List Sm := []
  rt : Rt := .none
  deriving DecidableEq, Repr


/-- The reasons a command can stop the machine with a fault. -/
inductive Fault where
  /-- Raised by no meaning: the spec turns every error of this device into a completion status, an event or a reset (R65, R465). Safe. -/
  | none
  deriving DecidableEq, Repr

/-- The reasons a command is refused. -/
inductive Refusal where
  /-- A command that has no meaning yet, rejected by its arm of `exec`. Safe. -/
  | notModelled (mnemonic : String)
  deriving DecidableEq, Repr

/-- The state of the device, with the queue of waiting commands. Every default is the value after a power-on
reset (R495, R513), or a value that a log entry names. -/
structure State where
  /-- the commands that wait, first in first out (the model's own field) -/
  pending : List Instr := []
  /-- the Global Time Counter, 64 bits (R18) -/
  gtc : Nat := 0
  /-- how many free values the device has taken (the model's own field, log 7) -/
  freeCount : Nat := 0
  /-- CLK/GTC block -/
  clk : Clk := {}
  /-- OSL block -/
  osl : Osl := {}
  /-- host interface -/
  hif : Hif := {}
  /-- the 64 KiB SPI mailbox (R33): bytes that are not 0 -/
  mailbox : List Host.Cell := []
  /-- what the device has written to host memory: bytes that are not 0 -/
  hostMem : List Host.Cell := []
  /-- the objects that exist, by ascending index (R59, R69) -/
  objs : List Obj := []
  /-- generations of indices whose object was destroyed (R60) -/
  gens : List (Nat × Nat) := []
  /-- engines, castling, tables, groups -/
  eng : Eng := {}
  /-- safety island -/
  isl : Isl := {}
  /-- security module -/
  sec : Sec := {}
  /-- section scheduler, device-wide part -/
  sched : Sched := {}
  /-- boot and device mode -/
  boot : Boot := {}
  /-- supplies, sleep and wake -/
  pwr : Pwr := {}
  /-- FS-216 legacy block -/
  leg : Leg := {}
  /-- pulse generator and GPIO balls -/
  pg : Pg := {}
  /-- switch channels, device-wide part -/
  swd : SwDev := {}
  /-- boost converter and bank high sides -/
  boost : Boost := {}
  /-- feedback inputs and encoder outputs -/
  fbd : FbDev := {}
  /-- ISOBUS services -/
  isb : Isb := {}
  /-- CAN transceiver and wake sources -/
  cand : CanDev := {}
  /-- kinematics unit -/
  kin : Kin := {}
  /-- coverage board unit -/
  board : Board := {}
  /-- trace -/
  trc : Trc := {}
  deriving DecidableEq, Repr

/-- The device right after a power-on reset: every field at its default. -/
def State.reset : State := {}

end Sys2Proof.Machine
end

