-- ==== Sys2Proof/Machine/Ops.lean ====
section
/-! DEFINITION. The named operations every meaning is built from: time and boundaries, memory cells, parameter
bytes, rings, interrupts, events, the log, completions, objects and handles. -/

namespace Sys2Proof.Machine

/-! ## Time -/

/-- A timed happening carries its instant: the GTC moves on to it and never back (R18). -/
def toInstant (t : Nat) (s : State) : State :=
  if s.gtc < t then { s with gtc := t % 2 ^ 64 } else s

/-- The frame boundary that starts the present frame (R22). -/
def frameStart (t : Nat) : Nat := t / frameTicks * frameTicks

/-- The next frame boundary after an instant (R22). -/
def nextBoundary (t : Nat) : Nat := frameStart t + frameTicks

/-- The boundary at which a shadow write applies: the next one, from the start of slot 15 on the one after it (R23). -/
def shadowBoundary (t : Nat) : Nat := if t % frameTicks < 15 * slotTicks then nextBoundary t else nextBoundary t + frameTicks

/-- The first frame boundary at or after an instant. -/
def boundaryAt (t : Nat) : Nat := (t + frameTicks - 1) / frameTicks * frameTicks

/-- The take-effect boundary of R64 for a requested GTC: 0 and a GTC that precedes the next boundary give that one. -/
def takeEffect (now req : Nat) : Nat := max (boundaryAt req) (nextBoundary now)

/-- The ticks that R64 reports: how far the boundary lies after a requested GTC that precedes the next boundary. -/
def takeEffectLate (now req : Nat) : Nat :=
  if req ≠ 0 ∧ req < nextBoundary now then nextBoundary now - req else 0

/-- The frame number of an instant (R22). -/
def frameNo (t : Nat) : Nat := t / frameTicks

/-! ## Open values -/

/-- The next free value the device takes (log 7). -/
def takeFree (s : State) : Nat × State :=
  (Config.freeValue s.freeCount, { s with freeCount := s.freeCount + 1 })

/-- An integer next to the exact quotient `n / d`: exact where it divides, else either neighbour (log 9). -/
def roundOpen (tag : Nat) (n : Int) (d : Nat) : Int :=
  if n % (d : Int) = 0 then n / (d : Int)
  else n / (d : Int) + if Config.roundUp tag n d then 1 else 0

/-- A binary32 value next to the exact fraction `n / d`: exact where it is one, else either neighbour (log 9). -/
def fOpen (tag : Nat) (n : Int) (d : Nat) : F32 :=
  let q := n.natAbs * 2 ^ 149 / d
  let k := Nat.log2 q - 23
  let exact := n.natAbs * 2 ^ 149 % d == 0 && q % 2 ^ k == 0
  let b := k * 2 ^ 23 + q / 2 ^ k + (if !exact && Config.roundUp tag n d then 1 else 0)
  BitVec.ofNat 32 ((if b ≥ 0x7F800000 then 0x7F800000 else b) + if n < 0 then 2 ^ 31 else 0)

/-! ## Memory cells -/

/-- The byte at an address; a byte that no cell lists reads 0 (log 3). -/
def memRead : List Host.Cell → Nat → Byte
  | [], _ => 0
  | (x, y) :: r, a => if x = a then y else memRead r a

/-- Write one byte, keeping the canonical form: addresses rising, no cell equal to what an unlisted byte reads. -/
def memWrite : List Host.Cell → Nat → Byte → List Host.Cell
  | [], a, b => if b = 0 then [] else [(a, b)]
  | (x, y) :: r, a, b =>
    if a < x then (if b = 0 then (x, y) :: r else (a, b) :: (x, y) :: r)
    else if a = x then (if b = 0 then r else (a, b) :: r)
    else (x, y) :: memWrite r a b

/-- The canonical form of memory: strictly rising addresses from `lo` up, no zero byte listed. -/
def memWfFrom : Nat → List Host.Cell → Bool
  | _, [] => true
  | lo, (x, y) :: r => decide (lo ≤ x) && y != 0 && memWfFrom (x + 1) r

/-- The canonical form of memory. -/
def memWf (m : List Host.Cell) : Bool := memWfFrom 0 m

/-- Read `n` bytes. -/
def memReadN (m : List Host.Cell) (a : Nat) : Nat → List Byte
  | 0 => []
  | n + 1 => memRead m a :: memReadN m (a + 1) n

/-- Write bytes at rising addresses. -/
def memWriteN : List Host.Cell → Nat → List Byte → List Host.Cell
  | m, _, [] => m
  | m, a, b :: bs => memWriteN (memWrite m a b) (a + 1) bs

/-- Bytes in the mailbox (R33). -/
def mailboxSize : Nat := 0x10000

/-- A pointer names the mailbox when bit 63 is set (R34). -/
def ptrMailbox (p : Nat) : Bool := bit p 63

/-- Write bytes where a host pointer says; `none` for a mailbox access beyond 64 KiB, which is not made (R67). -/
def ptrWrite (p : Nat) (bs : List Byte) (s : State) : Option State :=
  if ptrMailbox p then
    if p % mailboxSize + bs.length > mailboxSize then none
    else some { s with mailbox := memWriteN s.mailbox (p % mailboxSize) bs }
  else some { s with hostMem := memWriteN s.hostMem p bs }

/-! ## Bytes of parameter blocks -/

/-- `n` bytes from `off`, 0 beyond the end. -/
def slice (bs : List Byte) (off n : Nat) : List Byte :=
  let p := (bs.drop off).take n
  p ++ List.replicate (n - p.length) 0

def u8 (bs : List Byte) (off : Nat) : Nat := (bs.getD off 0).toNat
def u16 (bs : List Byte) (off : Nat) : Nat := leNat (slice bs off 2)
def u32 (bs : List Byte) (off : Nat) : Nat := leNat (slice bs off 4)
def u64 (bs : List Byte) (off : Nat) : Nat := leNat (slice bs off 8)
def i8 (bs : List Byte) (off : Nat) : Int := sx 8 (u8 bs off)
def i16 (bs : List Byte) (off : Nat) : Int := sx 16 (u16 bs off)
def i32 (bs : List Byte) (off : Nat) : Int := sx 32 (u32 bs off)
def i64 (bs : List Byte) (off : Nat) : Int := sx 64 (u64 bs off)
def f32 (bs : List Byte) (off : Nat) : F32 := BitVec.ofNat 32 (u32 bs off)
def f64 (bs : List Byte) (off : Nat) : F64 := BitVec.ofNat 64 (u64 bs off)

/-- `bs` with the bytes of `v` from `off` on. -/
def putAt (bs : List Byte) (off : Nat) (v : List Byte) : List Byte :=
  bs.take off ++ v ++ bs.drop (off + v.length)

/-- Bytes padded with zeros, or cut, to a length. -/
def padTo (n : Nat) (bs : List Byte) : List Byte := (bs ++ List.replicate (n - bs.length) 0).take n

/-- The little-endian bytes of a float32. -/
def fBytes (x : F32) : List Byte := leBytes 4 x.toNat

/-- A signed number as `k` little-endian bytes. -/
def iBytes (k : Nat) (i : Int) : List Byte := leBytes k (ux (8 * k) i)

/-- A count as `k` bytes, saturating. -/
def satBytes (k n : Nat) : List Byte := leBytes k (min n (2 ^ (8 * k) - 1))

/-! ## Descriptors (R37, R38) -/

def dOp (d : Desc) : Nat := u16 d.bytes 0
def dFlags (d : Desc) : Nat := u8 d.bytes 2
def dTagLen (d : Desc) : Nat := u8 d.bytes 3
def dHandle (d : Desc) : Nat := u32 d.bytes 4
def dCookie (d : Desc) : Nat := u64 d.bytes 8
def dSealed (d : Desc) : Bool := bit (dFlags d) 7
def dPtr (d : Desc) : Bool := bit (dFlags d) 6
def dFence (d : Desc) : Bool := bit (dFlags d) 5
def dNocomp (d : Desc) : Bool := bit (dFlags d) 4
def dIrqNow (d : Desc) : Bool := bit (dFlags d) 3
def dBcrc (d : Desc) : Bool := bit (dFlags d) 2
/-- The block pointer, bytes 16 to 23 (R38). -/
def dBlockPtr (d : Desc) : Nat := u64 d.bytes 16
/-- The block length, bytes 24 to 27. -/
def dBlockLen (d : Desc) : Nat := u32 d.bytes 24
/-- The block CRC, bytes 28 to 31. -/
def dBlockCrc (d : Desc) : Nat := u32 d.bytes 28
/-- The opcode-specific offset, bytes 32 to 35. -/
def dOffset (d : Desc) : Nat := u32 d.bytes 32

/-! ## Rings -/

/-- Ring `r` of the 38 (R34). -/
def ringOf (s : State) (r : Nat) : Ring := s.hif.rings.getD r {}

/-- Change ring `r`. -/
def setRing (r : Nat) (f : Ring → Ring) (s : State) : State :=
  { s with hif := { s.hif with rings := s.hif.rings.set r (f (ringOf s r)) } }

/-- Entries written and not consumed. -/
def ringUsed (g : Ring) : Nat := if g.size = 0 then 0 else (g.tail + g.size - g.head) % g.size

/-- Room for one more entry (R45). -/
def ringRoom (g : Ring) : Bool := decide (ringUsed g + 1 < g.size)

/-- The device serves its rings: not before the end of boot, and not in SLEEP or PARK (R500, R505). -/
def modeServed (m : Mode) : Bool :=
  match m with
  | .booting | .sleeping | .parked => false
  | _ => true

/-- The GTC that a read returns: while SLEEP has stopped the root PLL it advances by 96, of which a boundary is a multiple
(R499). -/
def gtcSeen (s : State) : Nat := if s.boot.mode = .sleeping then s.gtc / 96 * 96 else s.gtc

/-- The device can write the ring now: enabled, not stopped, and the rings served. -/
def ringServed (s : State) (r : Nat) : Bool :=
  (ringOf s r).en && !(ringOf s r).error && s.hif.ringsEn && modeServed s.boot.mode

/-- The SPI strap, FS-216 mode or bare king: the PCIe endpoint is held in reset (R496). -/
def linkSpi (s : State) : Bool := s.hif.link == 3

/-- A vector is masked, by its own control word or by the function's mask (R55). -/
def vectorMasked (s : State) (v : Nat) : Bool := s.hif.msixMask || bit (s.hif.msix.getD (4 * v + 3) 1) 0

/-- Send vector `v`: a HIF_INT_PEND bit under the SPI strap (R56), else, with MSI-X enabled, a message, or while it is masked
its pending bit. -/
def sendVector (v : Nat) (s : State) : State :=
  if linkSpi s then
    { s with hif := { s.hif with intPend := setBit s.hif.intPend (v % 32) true } }
  else if !s.hif.msixOn then s
  else if vectorMasked s v then
    { s with hif := { s.hif with pba := setBit s.hif.pba (v % 32) true } }
  else
    let a := s.hif.msix.getD (4 * v) 0 + 2 ^ 32 * s.hif.msix.getD (4 * v + 1) 0
    { s with
      hostMem := memWriteN s.hostMem a (leBytes 4 (s.hif.msix.getD (4 * v + 2) 0))
      hif := { s.hif with vecSent := s.hif.vecSent.set v (s.hif.vecSent.getD v 0 + 1) } }

/-- Signal a host-interface error on ERR_VEC (R55); while RINGS_EN = 0 no message is sent and it stays due (R547). -/
def signalError (s : State) : State :=
  if s.hif.ringsEn then sendVector s.hif.errVec s
  else { s with hif := { s.hif with errDue := true } }

/-- The bytes of memory that a ring's slot occupies: in the mailbox or in host memory (R34). -/
def ringMemRead (s : State) (g : Ring) (off n : Nat) : List Byte :=
  if g.loc then memReadN s.mailbox ((g.base + off) % 2 ^ 63) n
  else memReadN s.hostMem (g.base + off) n

/-- Write into a ring's memory. -/
def ringMemWrite (g : Ring) (off : Nat) (bs : List Byte) (s : State) : State :=
  if g.loc then { s with mailbox := memWriteN s.mailbox ((g.base + off) % 2 ^ 63) bs }
  else { s with hostMem := memWriteN s.hostMem (g.base + off) bs }

/-- A 32 B entry with the phase bit in bit 7 of byte 31 (R45). -/
def withPhase (ph : Bool) (e : List Byte) : List Byte :=
  e.take 31 ++ [BitVec.ofNat 8 (u8 e 31 % 128 + if ph then 128 else 0)]

/-- The ring after one entry: tail and phase as `produce` of R45 has them, one more entry not signalled. -/
def ringAdvance (now : Nat) (prev : List Byte) (ev : Option Ev) (g : Ring) : Ring :=
  { g with
    tail := if g.tail + 1 = g.size then 0 else g.tail + 1
    phase := if g.tail + 1 = g.size then !g.phase else g.phase
    unsig := g.unsig + 1
    unsigAt := if g.unsig = 0 then now else g.unsigAt
    prev := prev
    prevEv := ev }

/-- Send the ring's vector and start counting anew (R55). -/
def ringSignal (r : Nat) (s : State) : State :=
  sendVector (ringOf s r).vector (setRing r (fun g => { g with unsig := 0 }) s)

/-- Write one entry to ring `r` (R45) and signal its vector when COUNT is reached or `now` is set (R55). -/
def ringProduce (r : Nat) (e : List Byte) (ev : Option Ev) (now : Bool) (s : State) : State :=
  let g := ringOf s r
  let prev := ringMemRead s g (32 * g.tail) 32
  let s := ringMemWrite g (32 * g.tail) (withPhase g.phase e) s
  let s := setRing r (ringAdvance s.gtc prev ev) s
  if now || decide (max 1 (ringOf s r).modCount ≤ (ringOf s r).unsig) then ringSignal r s else s

/-- An entry of a stream ring (R44): written if there is room, else dropped and counted. -/
def streamWrite (r : Nat) (e : List Byte) (s : State) : State :=
  if !(ringOf s r).en then s
  else if ringServed s r && ringRoom (ringOf s r) then ringProduce r e none false s
  else setRing r (fun g => { g with lost := satInc 16 g.lost }) s

/-! ## Events and the log -/

/-- The 32 bytes of an event, phase 0 (R43). -/
def evBytes (e : Ev) : List Byte :=
  leBytes 2 e.code ++ leBytes 1 e.cls ++ [0] ++ leBytes 4 e.handle ++ leBytes 8 e.gtc ++ leBytes 2 e.epoch
    ++ leBytes 2 e.seq ++ padTo 11 e.data ++ [if e.superseded then 0x40 else 0]

/-- Entries that the log holds at most (R477). -/
def logMax : Nat := 4096

/-- The 32 bytes of a log entry (R478). -/
def logBytes (code cls lflags handle gtc index : Nat) (data : List Byte) : List Byte :=
  leBytes 2 code ++ leBytes 1 cls ++ leBytes 1 lflags ++ leBytes 4 handle ++ leBytes 8 gtc
    ++ leBytes 4 index ++ padTo 11 data ++ [0]

/-- Put an entry into the store and the log stream ring (R477), the oldest overwritten. -/
def logPut (e : List Byte) (s : State) : State :=
  let l := s.isl.log ++ [e]
  streamWrite 37 e
    { s with isl := { s.isl with
        log := if l.length > logMax then l.drop 1 else l
        logIndex := wrapInc 32 s.isl.logIndex } }

/-- The oldest log entry held has not been read, and the store is full (R477). -/
def logOverwrites (s : State) : Bool :=
  s.isl.log.length == logMax && decide (s.isl.logRead ≤ s.isl.logIndex - logMax)

/-- Which EQ takes an event (R57): the one HIF_EVQ_MAP gives, else the lowest-numbered enabled one. -/
def evqFor (s : State) (code : Nat) : Option Nat :=
  let q := 32 + bits s.hif.evqMap (2 * (code / 256 % 16)) 2
  if (ringOf s q).en then some q
  else [32, 33, 34, 35].find? fun q => (ringOf s q).en

/-- Put an event into the holding queue, or drop and count it (R57). -/
def holdEvent (e : Ev) (s : State) : State :=
  if s.hif.held.length < 256 then { s with hif := { s.hif with held := s.hif.held ++ [e] } }
  else { s with hif := { s.hif with
    dropped := satInc 16 s.hif.dropped
    lost := s.hif.lost + 1
    heldOvf := true
    firstLost := if s.hif.lost = 0 then e.seq else s.hif.firstLost } }

/-- Events of class 2 and 3 signal at once (R55). -/
def evUrgent (e : Ev) : Bool := decide (2 ≤ e.cls)

/-- Deliver an event: to its EQ, or to the holding queue while that queue is not empty, the rings are not served,
the EQ is stopped or full, or HIF_REATTACHED is due (R57, R68, R547). -/
def deliver (e : Ev) (s : State) : State :=
  match evqFor s e.code with
  | none => holdEvent e s
  | some q =>
    if s.hif.held.isEmpty && !s.hif.reattach && ringServed s q && ringRoom (ringOf s q)
    then ringProduce q (evBytes e) (some e) (evUrgent e) s
    else holdEvent e s

/-- The island's own events, which the log receives (R477, R481). -/
def islandEvent (code : Nat) : Bool := decide (0x0150 ≤ code ∧ code ≤ 0x015C)

/-- An event of the given class is written to the log (R465, R477). -/
def logged (s : State) (code cls : Nat) : Bool :=
  decide (2 ≤ cls) || islandEvent code || (cls == 1 && s.isl.logC1)

/-- ISL_LOG_WRAP, the event of an overwritten unread entry. -/
def evLogWrap : Nat := 0x015C

/-- The trigger of an armed trace on an event code (R249, TRC_TRIG.SRC 4). -/
def trcEvent (code : Nat) (s : State) : State :=
  if s.trc.state = 1 ∧ s.trc.trig % 16 = 4 ∧ bits s.trc.trig 16 16 = code then { s with trc := { s.trc with fired := true } } else s

/-- The handle that an event names: a section of the legacy block has none, and the device stands for it (log 24). -/
def evHandle (h : Nat) : Nat := if h < 2 ^ 32 then h else 0

/-- Number and deliver an event of the instant `t`, without the log. -/
def raisePlain (t code cls handle epoch : Nat) (data : List Byte) (s : State) : State :=
  let e : Ev := { code := code, cls := cls, handle := evHandle handle, gtc := t, epoch := epoch,
                  seq := s.hif.evSeq, data := padTo 11 data }
  trcEvent code (deliver e { s with hif := { s.hif with evSeq := wrapInc 16 s.hif.evSeq } })

/-- Write a log entry of the instant `t`; the first overwrite of an unread one sets LOG_WRAPPED and raises ISL_LOG_WRAP
(R477). -/
def logWriteAt (t code cls lflags handle : Nat) (data : List Byte) (s : State) : State :=
  let exceeds := logOverwrites s && !s.isl.logWrapped
  let s' := logPut (logBytes code cls lflags handle t s.isl.logIndex data) s
  if exceeds then
    raisePlain s.gtc evLogWrap 0 0 0 []
      (logPut (logBytes evLogWrap 0 0 0 s.gtc s'.isl.logIndex []) { s' with isl := { s'.isl with logWrapped := true } })
  else s'

def logWrite (code cls lflags handle : Nat) (data : List Byte) (s : State) : State := logWriteAt s.gtc code cls lflags handle data s

/-- Raise an event of the instant `t` (R43, R57), with its log entry where the log receives it (R477). -/
def raiseAt (t code cls handle epoch : Nat) (data : List Byte) (s : State) : State :=
  raisePlain t code cls handle epoch data
    (if logged s code cls then logWriteAt t code cls 0 (evHandle handle) data s else s)

/-- Raise an event of the present instant. -/
def raiseE (code cls handle epoch : Nat) (data : List Byte) (s : State) : State := raiseAt s.gtc code cls handle epoch data s

/-- Raise an event of class 0 with no epoch. -/
def raise0 (code handle : Nat) (data : List Byte) (s : State) : State := raiseE code 0 handle 0 data s

/-- Raise an event at most once per interval (R545): at once when no interval runs, else counted. Its later report carries the
data of the latest occurrence, or with `first` those of the first since the last report. -/
def raiseHeld (first : Bool) (len code cls handle sub epoch : Nat) (data : List Byte) (countAt countLen : Nat) (s : State) :
    State :=
  if s.hif.intervals.any (fun i => i.code == code && i.handle == handle && i.sub == sub) then
    { s with hif := { s.hif with intervals := s.hif.intervals.map fun i =>
        if i.code == code && i.handle == handle && i.sub == sub
        then { i with count := i.count + 1, epoch := epoch, gtc := s.gtc
                      data := if first ∧ i.count ≠ 0 then i.data else data } else i } }
  else
    let iv : Interval := { code := code, handle := handle, sub := sub, cls := cls, ends := s.gtc + len,
                           length := len, epoch := epoch, data := data, gtc := s.gtc, countAt := countAt, countLen := countLen }
    raiseE code cls handle epoch (if countLen = 0 then data else putAt (padTo 11 data) countAt (satBytes countLen 1))
      { s with hif := { s.hif with intervals := s.hif.intervals ++ [iv] } }

def raiseLimited (len code cls handle sub epoch : Nat) (data : List Byte) (countAt countLen : Nat) (s : State) : State :=
  raiseHeld false len code cls handle sub epoch data countAt countLen s

/-! ## Completions -/

/-- What a completion says besides the descriptor's own fields (R42). -/
structure Reply where
  status : Nat := 0
  /-- result bytes 24 to 30 -/
  result : List Byte := []
  /-- the handle, where it is not the descriptor's -/
  handle : Option Nat := none
  epoch : Nat := 0
  writeback : Bool := false
  deferred : Bool := false
  /-- the GTC, where it is not the instant of writing -/
  gtc : Option Nat := none
  deriving DecidableEq, Repr

/-- The 32 bytes of a completion, phase 0 (R42). -/
def completionBytes (d : Desc) (r : Reply) (gtc : Nat) : List Byte :=
  leBytes 8 (dCookie d) ++ leBytes 4 (r.handle.getD (dHandle d)) ++ leBytes 2 r.status ++ leBytes 2 r.epoch
    ++ leBytes 8 (r.gtc.getD gtc) ++ padTo 7 r.result
    ++ [BitVec.ofNat 8 (32 * b2n r.writeback + 16 * b2n r.deferred + d.sq % 16)]

/-- The session bound to a submission ring. -/
def sessionOn (s : State) (sq : Nat) : Option Session := s.sec.sessions.find? fun x => x.sq == sq

/-- The record of a descriptor that executes: the one kept at its fetch, else one made on the spot. -/
def startedOf (s : State) (d : Desc) : Started :=
  (s.hif.started.find? fun x => decide (x.desc = d)).getD
    { desc := d, cq := 16 + (ringOf s d.sq).bind, role := 0
      sid := if dTagLen d = 16 then (sessionOn s d.sq).map (·.sid) else none
      wrap := if dTagLen d = 16 then (sessionOn s d.sq).map (·.kWrap) else none }

/-- Descriptors of an SQ that execute or are pending, or whose completion RINGS_EN = 0 keeps back (R36, R547). -/
def sqBusy (s : State) (sq : Nat) : Bool :=
  s.hif.started.any (fun x => x.desc.sq == sq) || s.hif.deferred.any (fun x => x.st.desc.sq == sq)
    || s.hif.kept.any (fun k => u8 k.entry 31 % 16 == sq)

/-- An SQ reset ends when the last completion has been written (R36). -/
def sqResetEnd (sq : Nat) (s : State) : State :=
  if (ringOf s sq).resetting && !sqBusy s sq then
    setRing sq (fun g => { g with en := false, error := false, err := 0, head := 0, tail := 0, resetting := false, fenced := none }) s
  else s

/-- Release one reserved completion slot (R48). -/
def unreserve (cq : Nat) (s : State) : State := setRing cq (fun g => { g with reserved := g.reserved - 1 }) s

/-- Put a completion into the slot reserved for it; it is dropped and counted while the CQ is stopped in error (R48). -/
def cqEntry (cq : Nat) (e : List Byte) (now : Bool) (s : State) : State :=
  if !(ringOf s cq).en then s
  else if (ringOf s cq).error then setRing cq (fun g => { g with lost := satInc 16 g.lost }) (unreserve cq s)
  else ringProduce cq e none now (unreserve cq s)

/-- Write a completion that falls due (R42, R48, R68, R547): none for an `OK` with NOCOMP, dropped and counted after
a detach or while the CQ is stopped, kept while RINGS_EN = 0. -/
def postCompletion (st : Started) (r : Reply) (s : State) : State :=
  let e := completionBytes st.desc r s.gtc
  if dNocomp st.desc && r.status == 0 then (if st.orphan then s else unreserve st.cq s)
  else if st.orphan then { s with hif := { s.hif with complDropped := s.hif.complDropped + 1 } }
  else if !s.hif.ringsEn && (ringOf s st.cq).en && !(ringOf s st.cq).error then
    { s with hif := { s.hif with kept := s.hif.kept ++ [{ cq := st.cq, entry := e, irqNow := dIrqNow st.desc }] } }
  else cqEntry st.cq e (dIrqNow st.desc) s

/-- Those that started before it (R50). -/
def startedBefore (s : State) (x : Started) : List Started := s.hif.started.takeWhile fun y => decide (y ≠ x)

/-- A descriptor's turn has come: none that started before it executes from the same SQ (R52) or names the same handle
(R51). -/
def turnOf (s : State) (x : Started) : Bool :=
  (startedBefore s x).all fun y => y.desc.sq != x.desc.sq && dHandle y.desc != dHandle x.desc

/-- Write the completion of a descriptor whose execution ends. -/
def finish (x : Started) (r : Reply) (s : State) : State :=
  let s := postCompletion x r s
  sqResetEnd x.desc.sq { s with hif := { s.hif with started := s.hif.started.erase x } }

/-- A descriptor that only waits for earlier ones: one refused at its fetch, until its turn, or a RING_SYNC, until it is the
first of all (R52, R62). -/
def waitOver (s : State) (x : Started) : Bool :=
  (x.verdict.isSome && turnOf s x) || (x.sync && (startedBefore s x).isEmpty)

/-- Complete what only waited for earlier descriptors. -/
def settle : Nat → State → State
  | 0, s => s
  | n + 1, s => match s.hif.started.find? (waitOver s) with
    | none => s
    | some x => settle n (finish x { status := x.verdict.getD 0 } s)

/-- Complete a descriptor that executes (R52). -/
def complete (d : Desc) (r : Reply) (s : State) : State :=
  settle s.hif.started.length (finish (startedOf s d) r s)

/-- Complete with a status and nothing else. -/
def fail (d : Desc) (status : Nat) (s : State) : State := complete d { status := status } s

/-- Complete with a status and result bytes. -/
def failWith (d : Desc) (status : Nat) (result : List Byte) (s : State) : State :=
  complete d { status := status, result := result } s

/-- Complete `OK` with result bytes. -/
def okWith (d : Desc) (result : List Byte) (s : State) : State := complete d { result := result } s

/-- Complete `OK`. -/
def ok (d : Desc) (s : State) : State := complete d {} s

/-- Accept a deferred descriptor: its execution ends, its completion is pending (R52). -/
def defer (d : Desc) (op handle due : Nat) (result : List Byte) (arg : Nat) (s : State) : State :=
  let st := startedOf s d
  settle s.hif.started.length { s with hif := { s.hif with
      started := s.hif.started.erase st
      deferred := s.hif.deferred ++ [{ st := st, op := op, handle := handle, due := due, result := result, arg := arg }] } }

/-- Complete one pending deferred descriptor, with DEFERRED = 1 (R52). -/
def completeDeferred (x : Deferred) (r : Reply) (s : State) : State :=
  let s := postCompletion x.st { r with deferred := true } s
  sqResetEnd x.st.desc.sq { s with hif := { s.hif with deferred := s.hif.deferred.erase x } }

/-- The first pending deferred descriptor of an opcode on a handle. -/
def deferredOf (s : State) (op h : Nat) : Option Deferred :=
  s.hif.deferred.find? fun x => x.op == op && x.handle == h

/-- The pending descriptor of an opcode on a handle, with an argument of a kind, that falls due first. -/
def firstDue (s : State) (op h : Nat) (p : Nat → Bool) : Option Deferred :=
  (s.hif.deferred.filter fun x => x.op == op && x.handle == h && p x.arg).foldl
    (fun b x => match b with
      | none => some x
      | some y => if x.due < y.due then some x else some y) none

/-- Complete the pending deferred descriptor of an opcode on a handle, if there is one. -/
def finishDeferred (op h : Nat) (r : Reply) (s : State) : State :=
  match deferredOf s op h with
  | none => s
  | some x => completeDeferred x r s

/-- Write a block back to the descriptor's pointer and complete; a mailbox access beyond its end completes
`DMA_ERROR` and raises HOST_DMA_FAULT (R53, R67). -/
def writeBack (d : Desc) (bs : List Byte) (r : Reply) (s : State) : State :=
  match ptrWrite (dBlockPtr d) bs s with
  | some s => complete d { r with writeback := true } s
  | none =>
    complete d { status := 0x000F } (raise0 0x0083 0 ([0xFF, 0, 0, 0] ++ leBytes 4 (dBlockPtr d % mailboxSize)) s)

/-! ## Objects and handles (R58 to R60, R69) -/

/-- Type codes (R59). -/
def tyNozzle : Nat := 1
def tyRow : Nat := 2
def tySection : Nat := 3
def tyLoop : Nat := 4
def tyAxis : Nat := 5
def tyFeedback : Nat := 6
def tySolenoid : Nat := 7
def tySwitch : Nat := 8
def tyPwmch : Nat := 9
def tyTable : Nat := 10
def tyCanport : Nat := 11
def tyGeopoint : Nat := 12
def tyLayer : Nat := 13
def tyWing : Nat := 14
def tyGroup : Nat := 15

/-- The handle of a generation, type and index (R58). -/
def mkHandle (gen typ idx : Nat) : Nat := gen * 2 ^ 24 + typ * 2 ^ 16 + idx

/-- The handle of an object. -/
def handleOf (o : Obj) : Nat := mkHandle o.gen o.typ o.idx

def hIndex (h : Nat) : Nat := h % 2 ^ 16
def hType (h : Nat) : Nat := bits h 16 8

/-- The object at an index. -/
def objAt (s : State) (i : Nat) : Option Obj := s.objs.find? fun o => o.idx == i

/-- The object that a present handle names (R60). -/
def objOf (s : State) (h : Nat) : Option Obj := s.objs.find? fun o => handleOf o == h

/-- Put an object into the list at its index. -/
def insertObj (o : Obj) : List Obj → List Obj
  | [] => [o]
  | x :: r => if o.idx < x.idx then o :: x :: r else if o.idx = x.idx then o :: r else x :: insertObj o r

/-- Change the object at an index. -/
def updObj (i : Nat) (f : Obj → Obj) (s : State) : State :=
  { s with objs := s.objs.map fun o => if o.idx = i then f o else o }

/-- Change the object that a handle names. -/
def updH (h : Nat) (f : Obj → Obj) (s : State) : State :=
  { s with objs := s.objs.map fun o => if handleOf o = h then f o else o }

/-- The object is ENABLED. -/
def isEnabled (o : Obj) : Bool := o.ost == .enabled

/-- The object that a handle names is ENABLED. -/
def enabledH (s : State) (h : Nat) : Bool := (objOf s h).any isEnabled

/-- Objects of a type. -/
def objsOf (s : State) (ty : Nat) : List Obj := s.objs.filter fun o => o.typ == ty

/-- The state byte of R69. -/
def ostByte : OState → Nat
  | .disabled => 1
  | .enabled => 2
  | .faulted => 3

/-- Move an object to a state, with the GTC of the change (R74). -/
def setOst (i : Nat) (st : OState) (s : State) : State :=
  updObj i (fun o => { o with ost := st, changed := s.gtc }) s

/-- The next state of an outcome, for a meaning that contains another one. -/
def after (r : Host.Outcome State Fault Refusal) (s : State) : State :=
  match r with
  | .next t => t
  | _ => s

/-! ## Status codes of the generic block (R65) -/

def stOk : Nat := 0x0000
def stBadOpcode : Nat := 0x0001
def stBadHandle : Nat := 0x0002
def stWrongType : Nat := 0x0003
def stBadParam : Nat := 0x0004
def stBadLength : Nat := 0x0005
def stTouched : Nat := 0x0006
def stSealRequired : Nat := 0x0007
def stBlockCrc : Nat := 0x0008
def stUnsupported : Nat := 0x0009
def stModeRefused : Nat := 0x000A
def stNoResource : Nat := 0x000B
def stBusy : Nat := 0x000C
def stInUse : Nat := 0x000D
def stState : Nat := 0x000E
def stDmaError : Nat := 0x000F
def stAborted : Nat := 0x0010

end Sys2Proof.Machine
end

