-- ==== Sys2Proof/Machine/Crypto.lean ====
section
/-! DEFINITION. The algorithms of the security module (15, R432): SHA-256 and HMAC (FIPS 180-4, FIPS 198-1), AES-256
(FIPS 197), CMAC (NIST SP 800-38B), AES key wrap (RFC 3394) and ECDSA P-256 (FIPS 186-4), computed in full. -/

namespace Sys2Proof.Machine

/-! ## SHA-256 -/

abbrev W32 := BitVec 32

/-- The 64 round constants, the first in the highest 32 bits. -/
def shaK : Nat := 0x428a2f9871374491b5c0fbcfe9b5dba53956c25b59f111f1923f82a4ab1c5ed5d807aa9812835b01243185be550c7dc372be5d7480deb1fe9bdc06a7c19bf174e49b69c1efbe47860fc19dc6240ca1cc2de92c6f4a7484aa5cb0a9dc76f988da983e5152a831c66db00327c8bf597fc7c6e00bf3d5a7914706ca63511429296727b70a852e1b21384d2c6dfc53380d13650a7354766a0abb81c2c92e92722c85a2bfe8a1a81a664bc24b8b70c76c51a3d192e819d6990624f40e3585106aa07019a4c1161e376c082748774c34b0bcb5391c0cb34ed8aa4a5b9cca4f682e6ff3748f82ee78a5636f84c878148cc7020890befffaa4506cebbef9a3f7c67178f2
/-- The 8 initial words, the first in the highest 32 bits. -/
def shaH : Nat := 0x6a09e667bb67ae853c6ef372a54ff53a510e527f9b05688c1f83d9ab5be0cd19

/-- Word `i` of `n` packed words. -/
def packed32 (x n i : Nat) : W32 := BitVec.ofNat 32 (x >>> (32 * (n - 1 - i)))

def rotr (x : W32) (k : Nat) : W32 := x.rotateRight k

/-- Big-endian bytes of a number. -/
def beBytes (k n : Nat) : List Byte := (leBytes k n).reverse

/-- The number that big-endian bytes spell. -/
def beNat (bs : List Byte) : Nat := bs.foldl (fun n b => 256 * n + b.toNat) 0

/-- Split into pieces of `k` bytes, at most `fuel` of them. -/
def pieces (k : Nat) : Nat → List Byte → List (List Byte)
  | 0, _ => []
  | n + 1, bs => if bs.isEmpty then [] else bs.take k :: pieces k n (bs.drop k)

/-- The padded message in blocks of 64 bytes. -/
def shaBlocks (m : List Byte) : List (List Byte) :=
  let z := (119 - m.length % 64) % 64
  let p := m ++ [0x80] ++ List.replicate z 0 ++ beBytes 8 (8 * m.length)
  pieces 64 (p.length / 64 + 1) p

/-- The message schedule, newest word first. -/
def shaSchedule : Nat → List W32 → List W32
  | 0, w => w
  | n + 1, w =>
    let a := w.getD 14 0
    let b := w.getD 1 0
    let s0 := rotr a 7 ^^^ rotr a 18 ^^^ (a >>> 3)
    let s1 := rotr b 17 ^^^ rotr b 19 ^^^ (b >>> 10)
    shaSchedule n ((w.getD 15 0 + s0 + w.getD 6 0 + s1) :: w)

/-- One round on the eight working words. -/
def shaRound (v : List W32) (kw : W32) : List W32 :=
  match v with
  | [a, b, c, d, e, f, g, h] =>
    let s1 := rotr e 6 ^^^ rotr e 11 ^^^ rotr e 25
    let ch := (e &&& f) ^^^ (~~~e &&& g)
    let t1 := h + s1 + ch + kw
    let s0 := rotr a 2 ^^^ rotr a 13 ^^^ rotr a 22
    let mj := (a &&& b) ^^^ (a &&& c) ^^^ (b &&& c)
    [t1 + s0 + mj, a, b, c, d + t1, e, f, g]
  | _ => v

/-- Compress one block. -/
def shaBlock (h : List W32) (b : List Byte) : List W32 :=
  let w := (shaSchedule 48 ((pieces 4 16 b).map fun x => BitVec.ofNat 32 (beNat x)).reverse).reverse
  let r := (w.zipIdx).foldl (fun v x => shaRound v (packed32 shaK 64 x.2 + x.1)) h
  List.zipWith (· + ·) h r

/-- SHA-256 of a message. -/
def sha256 (m : List Byte) : List Byte :=
  ((shaBlocks m).foldl shaBlock ((List.range 8).map (packed32 shaH 8))).flatMap fun w => beBytes 4 w.toNat

/-- HMAC-SHA-256 with a key of at most 64 bytes. -/
def hmac (key m : List Byte) : List Byte :=
  let k := padTo 64 key
  sha256 (k.map (· ^^^ 0x5C) ++ sha256 (k.map (· ^^^ 0x36) ++ m))

/-! ## AES-256 -/

def aesS : Nat := 0x637c777bf26b6fc53001672bfed7ab76ca82c97dfa5947f0add4a2af9ca472c0b7fd9326363ff7cc34a5e5f171d8311504c723c31896059a071280e2eb27b27509832c1a1b6e5aa0523bd6b329e32f8453d100ed20fcb15b6acbbe394a4c58cfd0efaafb434d338545f9027f503c9fa851a3408f929d38f5bcb6da2110fff3d2cd0c13ec5f974417c4a77e3d645d197360814fdc222a908846eeb814de5e0bdbe0323a0a4906245cc2d3ac629195e479e7c8376d8dd54ea96c56f4ea657aae08ba78252e1ca6b4c6e8dd741f4bbd8b8a703eb5664803f60e613557b986c11d9ee1f8981169d98e949b1e87e9ce5528df8ca1890dbfe6426841992d0fb054bb16
def aesI : Nat := 0x52096ad53036a538bf40a39e81f3d7fb7ce339829b2fff87348e4344c4dee9cb547b9432a6c2233dee4c950b42fac34e082ea16628d924b2765ba2496d8bd12572f8f66486689816d4a45ccc5d65b6926c704850fdedb9da5e154657a78d9d8490d8ab008cbcd30af7e45805b8b34506d02c1e8fca3f0f02c1afbd0301138a6b3a9111414f67dcea97f2cfcef0b4e67396ac7422e7ad3585e2f937e81c75df6e47f11a711d29c5896fb7620eaa18be1bfc563e4bc6d279209adbc0fe78cd5af41fdda8338807c731b11210592780ec5f60517fa919b54a0d2de57a9f93c99cefa0e03b4dae2af5b0c8ebbb3c83539961172b047eba77d626e169146355210c7d

/-- Byte `i` of a packed table of 256 bytes. -/
def packed8 (x i : Nat) : Byte := BitVec.ofNat 8 (x >>> (8 * (255 - i)))
def subByte (b : Byte) : Byte := packed8 aesS b.toNat
def invSubByte (b : Byte) : Byte := packed8 aesI b.toNat

/-- Multiplication by x in GF(2^8). -/
def xtime (b : Byte) : Byte := (b <<< 1) ^^^ if b.toNat < 128 then 0 else 0x1B

/-- Multiplication in GF(2^8) by a factor below 16. -/
def gmul (k : Nat) (b : Byte) : Byte :=
  let b2 := xtime b
  let b4 := xtime b2
  let b8 := xtime b4
  (if bit k 0 then b else 0) ^^^ (if bit k 1 then b2 else 0) ^^^ (if bit k 2 then b4 else 0) ^^^ (if bit k 3 then b8 else 0)

def xorBytes (a b : List Byte) : List Byte := List.zipWith (· ^^^ ·) a b

/-- Key expansion: words of four bytes, newest first, from word `i` on. -/
def aesExpand : Nat → Nat → Byte → List (List Byte) → List (List Byte)
  | 0, _, _, w => w
  | n + 1, i, rc, w =>
    let t := w.getD 0 []
    let t' := if i % 8 = 0 then
        (match (t.drop 1 ++ t.take 1).map subByte with
         | a :: r => (a ^^^ rc) :: r
         | [] => [])
      else if i % 8 = 4 then t.map subByte else t
    aesExpand n (i + 1) (if i % 8 = 0 then xtime rc else rc) (xorBytes (w.getD 7 []) t' :: w)

/-- The 15 round keys of a 32 B key. -/
def aesKeys (key : List Byte) : List (List Byte) :=
  pieces 16 15 ((aesExpand 52 8 1 (pieces 4 8 key).reverse).reverse.flatten)

/-- ShiftRows and its inverse as a choice of source bytes. -/
def shiftRows (s : List Byte) : List Byte := (List.range 16).map fun i => s.getD ((i + 4 * (i % 4)) % 16) 0
def invShiftRows (s : List Byte) : List Byte := (List.range 16).map fun i => s.getD ((i + 12 * (i % 4)) % 16) 0

/-- A column times the circulant matrix of first row `c`. -/
def mixCol (c : List Nat) (col : List Byte) : List Byte :=
  (List.range 4).map fun r => ((List.range 4).map fun j => gmul (c.getD ((j + 4 - r) % 4) 0) (col.getD j 0)).foldl (· ^^^ ·) 0

def mixColumns (c : List Nat) (s : List Byte) : List Byte := (pieces 4 4 s).flatMap (mixCol c)

/-- AES-256 encryption of one block. -/
def aesEnc (key blk : List Byte) : List Byte :=
  let ks := aesKeys key
  let s := xorBytes blk (ks.getD 0 [])
  let s := ((ks.drop 1).take 13).foldl (fun s k => xorBytes (mixColumns [2, 3, 1, 1] (shiftRows (s.map subByte))) k) s
  xorBytes (shiftRows (s.map subByte)) (ks.getD 14 [])

/-- AES-256 decryption of one block. -/
def aesDec (key blk : List Byte) : List Byte :=
  let ks := aesKeys key
  let s := (invShiftRows (xorBytes blk (ks.getD 14 []))).map invSubByte
  let s := ((ks.drop 1).take 13).reverse.foldl
    (fun s k => (invShiftRows (mixColumns [14, 11, 13, 9] (xorBytes s k))).map invSubByte) s
  xorBytes s (ks.getD 0 [])

/-- Doubling in GF(2^128), for the CMAC subkeys. -/
def cmacDouble (b : List Byte) : List Byte :=
  let n := beNat b
  beBytes 16 ((2 * n) % 2 ^ 128 ^^^ if bit n 127 then 0x87 else 0)

/-- AES-256-CMAC. -/
def cmac (key m : List Byte) : List Byte :=
  let k1 := cmacDouble (aesEnc key (List.replicate 16 0))
  let k2 := cmacDouble k1
  let n := max 1 ((m.length + 15) / 16)
  let last := m.drop (16 * (n - 1))
  let last := if last.length = 16 then xorBytes last k1 else xorBytes (padTo 16 (last ++ [0x80])) k2
  let x := (pieces 16 (n - 1) (m.take (16 * (n - 1)))).foldl (fun x b => aesEnc key (xorBytes x b)) (List.replicate 16 0)
  aesEnc key (xorBytes x last)

/-- One step of the RFC 3394 unwrapping: `t` counts down from 6n. -/
def unwrapStep (kek : List Byte) (n t : Nat) (a : List Byte) (r : List (List Byte)) : List Byte × List (List Byte) :=
  let i := (t - 1) % n
  let b := aesDec kek (xorBytes a (beBytes 8 t) ++ r.getD i [])
  (b.take 8, r.set i (b.drop 8))

/-- The steps `t` down to 1. -/
def unwrapSteps (kek : List Byte) (n : Nat) : Nat → List Byte → List (List Byte) → List Byte × List (List Byte)
  | 0, a, r => (a, r)
  | t + 1, a, r => let x := unwrapStep kek n (t + 1) a r; unwrapSteps kek n t x.1 x.2

/-- RFC 3394 unwrapping of a 32 B key from 40 bytes; `none` where the check value is wrong. -/
def keyUnwrap (kek c : List Byte) : Option (List Byte) :=
  let x := unwrapSteps kek 4 24 (c.take 8) (pieces 8 4 (c.drop 8))
  if x.1 = List.replicate 8 0xA6 then some x.2.flatten else none

/-! ## ECDSA P-256 -/

def p256P : Nat := 0xffffffff00000001000000000000000000000000ffffffffffffffffffffffff
def p256N : Nat := 0xffffffff00000000ffffffffffffffffbce6faada7179e84f3b9cac2fc632551
def p256B : Nat := 0x5ac635d8aa3a93e7b3ebbd55769886bc651d06b0cc53b0f63bce3c3e27d2604b
def p256G : Nat × Nat := (0x6b17d1f2e12c4247f8bce6e563a440f277037d812deb33a0f4a13945d898c296,
  0x4fe342e2fe1a7f9b8ee7eb4a7c0f9e162bce33576b315ececbb6406837bf51f5)

/-- Modular power by binary digits of the exponent, `fuel` of them. -/
def powMod (m : Nat) : Nat → Nat → Nat → Nat
  | 0, _, _ => 1
  | f + 1, b, e =>
    let r := powMod m f (b * b % m) (e / 2)
    if e % 2 = 1 then b * r % m else r

/-- The inverse modulo a prime. -/
def invMod (m a : Nat) : Nat := powMod m 256 (a % m) (m - 2)

/-- Subtraction modulo m. -/
def subMod (m a b : Nat) : Nat := (a + (m - b % m)) % m

/-- Addition of points of the curve; `none` is the point at infinity. -/
def ecAdd (a b : Option (Nat × Nat)) : Option (Nat × Nat) :=
  match a, b with
  | none, b => b
  | a, none => a
  | some (x1, y1), some (x2, y2) =>
    if x1 = x2 ∧ (y1 + y2) % p256P = 0 then none
    else
      let l := if x1 = x2 then (3 * x1 * x1 + (p256P - 3)) * invMod p256P (2 * y1) % p256P
        else subMod p256P y2 y1 * invMod p256P (subMod p256P x2 x1) % p256P
      let x3 := subMod p256P (l * l) (x1 + x2)
      some (x3, subMod p256P (l * subMod p256P x1 x3) y1)

/-- A multiple of a point, by binary digits. -/
def ecMul : Nat → Nat → Option (Nat × Nat) → Option (Nat × Nat)
  | 0, _, _ => none
  | f + 1, k, p =>
    let r := ecMul f (k / 2) (ecAdd p p)
    if k % 2 = 1 then ecAdd p r else r

/-- A point lies on the curve. -/
def onCurve (x y : Nat) : Bool :=
  decide (x < p256P) && decide (y < p256P) && y * y % p256P == (x * x * x + (p256P - 3) * x + p256B) % p256P

/-- ECDSA P-256 verification of a digest under the public key (x, y). -/
def ecdsaVerify (digest : List Byte) (x y r s : Nat) : Bool :=
  if ¬ (1 ≤ r ∧ r < p256N ∧ 1 ≤ s ∧ s < p256N ∧ onCurve x y) then false
  else
    let w := invMod p256N s
    let u1 := beNat digest * w % p256N
    let u2 := r * w % p256N
    match ecAdd (ecMul 256 u1 (some p256G)) (ecMul 256 u2 (some (x, y))) with
    | none => false
    | some q => q.1 % p256N == r

end Sys2Proof.Machine
end

