-- ==== Sys2Proof/Machine/Fixed.lean ====
section
/-! DEFINITION. Real arithmetic for the kinematics unit (04): fixed-point integers with `P` = 96 fraction bits, more
than any quantity of the unit carries. A result that leaves the unit is rounded where it does (log 9, log 15). -/

namespace Sys2Proof.Machine

/-- A real number in units of 2^-96. -/
abbrev Fx := Int

def fxOne : Int := 2 ^ 96
def fxOf (i : Int) : Fx := i * 2 ^ 96
/-- A fraction. -/
def fxFrac (n : Int) (d : Nat) : Fx := n * 2 ^ 96 / (d : Int)
/-- A finite float32. -/
def fxF (x : F32) : Fx := fVal x / 2 ^ 53
def fxMul (a b : Fx) : Fx := a * b / 2 ^ 96
def fxDiv (a b : Fx) : Fx := if b = 0 then 0 else a * 2 ^ 96 / b
def fxAbs (a : Fx) : Fx := a.natAbs
def fxSqrt (a : Fx) : Fx := isqrt (a.toNat * 2 ^ 96)

/-- π in units of 2^-96. -/
def fxPi : Fx := 1069028584064966747859680373161870783301 / 2 ^ 32
def fxTwoPi : Fx := 2 * fxPi

/-- The series of sin and cos: terms `x^k / k!` with alternating sign, from term `t` at index `k`. -/
def trigSeries (x2 : Fx) : Nat → Nat → Fx → Fx → Fx
  | 0, _, _, acc => acc
  | fuel + 1, k, t, acc =>
    let t := -(fxMul t x2) / (((k + 1) * (k + 2) : Nat) : Int)
    trigSeries x2 fuel (k + 2) t (acc + t)

/-- An angle brought to -π to π. -/
def fxReduce (x : Fx) : Fx :=
  let r := x % fxTwoPi
  if fxPi < r then r - fxTwoPi else r

def fxSin (x : Fx) : Fx := let r := fxReduce x; trigSeries (fxMul r r) 22 1 r r
def fxCos (x : Fx) : Fx := let r := fxReduce x; trigSeries (fxMul r r) 22 0 fxOne fxOne

/-- The series of atan for a small argument. -/
def atanSeries (x2 : Fx) : Nat → Nat → Fx → Fx → Fx
  | 0, _, _, acc => acc
  | fuel + 1, k, p, acc =>
    let p := -(fxMul p x2)
    atanSeries x2 fuel (k + 2) p (acc + p / ((k + 2 : Nat) : Int))

/-- atan of `y / x` for x > 0, halving the angle three times before the series. -/
def fxAtan (q : Fx) : Fx :=
  let half (t : Fx) : Fx := fxDiv t (fxOne + fxSqrt (fxOne + fxMul t t))
  let t := half (half (half q))
  8 * atanSeries (fxMul t t) 24 1 t t

/-- The angle of a vector, in -π to π. -/
def fxAtan2 (y x : Fx) : Fx :=
  if 0 < x then fxAtan (fxDiv y x)
  else if x < 0 then (if 0 ≤ y then fxAtan (fxDiv y x) + fxPi else fxAtan (fxDiv y x) - fxPi)
  else if 0 < y then fxPi / 2 else if y < 0 then -(fxPi / 2) else 0

/-- Radians of a number of degrees. -/
def fxDeg (d : Fx) : Fx := fxMul d fxPi / 180

/-- An integer next to a real, its rounding open (log 9). -/
def fxToInt (tag : Nat) (x : Fx) : Int := roundOpen tag x (2 ^ 96)
/-- A float32 next to a real. -/
def fxToF (tag : Nat) (x : Fx) : F32 := fOpen tag x (2 ^ 96)
/-- The integer nearest to a real, half away from zero. -/
def fxNear (x : Fx) : Int :=
  let n : Nat := (x.natAbs + 2 ^ 95) / 2 ^ 96
  if x < 0 then -(n : Int) else n

/-- A finite binary64 (R112). -/
def f64Finite (x : F64) : Bool := bits x.toNat 52 11 != 2047
def fxF64 (x : F64) : Fx :=
  let e := bits x.toNat 52 11
  let m := bits x.toNat 0 52
  -- in units of 2^-1074, brought to 2^-96
  let v : Nat := if e = 0 then m else (2 ^ 52 + m) * 2 ^ (e - 1)
  let r : Int := ((v / 2 ^ 978 : Nat) : Int)
  if bit x.toNat 63 then -r else r

end Sys2Proof.Machine
end

