-- ==== Sys2Proof/Machine/Tables.lean ====
section
/-! DEFINITION. Table images (03, R95 to R106): their judging, curves, state machines and formats. -/

namespace Sys2Proof.Machine

/-! ## Judging an image (R95 to R97) -/

/-- The first failure of a list of checks: each is a condition that must hold and its reason. -/
def firstBad : List (Bool × Nat) → Option Nat
  | [] => none
  | (ok, r) :: rest => if ok then firstBad rest else some r

/-- The first item that fails, with its index. -/
def firstBadItem (n : Nat) (check : Nat → Option Nat) : Option (Nat × Nat) :=
  (List.range n).findSome? fun i => (check i).map fun r => (r, i)

/-- All the bytes of a span are 0. -/
def zeroBytes (bs : List Byte) (off n : Nat) : Bool := (slice bs off n).all (· == 0)

def tabType (b : List Byte) : Nat := u8 b 0
def tabCount (b : List Byte) : Nat := u16 b 12
def tabMode (b : List Byte) : Nat := u8 b 14

/-- Point `k` of a curve image (R98). -/
def curveX (b : List Byte) (k : Nat) : F32 := f32 b (16 + 8 * k)
def curveY (b : List Byte) (k : Nat) : F32 := f32 b (20 + 8 * k)

/-- One point (step 4): x above the x before it, both finite. -/
def curvePointBad (b : List Byte) (k : Nat) : Option Nat :=
  firstBad [(k == 0 || fLt (curveX b (k - 1)) (curveX b k), 0x06),
            (fFinite (curveX b k) && fFinite (curveY b k), 0x07)]

/-- Counts of a state-machine image (R100). -/
def smS (b : List Byte) : Nat := tabCount b
def smT (b : List Byte) : Nat := u16 b 18
def smA (b : List Byte) : Nat := u8 b 20
/-- Offsets of state `i`, transition `t` and action `a`. -/
def smStateAt (i : Nat) : Nat := 24 + 4 * i
def smTransAt (b : List Byte) (t : Nat) : Nat := 24 + 4 * smS b + 16 * t
def smActAt (b : List Byte) (a : Nat) : Nat := 24 + 4 * smS b + 16 * smT b + 16 * a

def smStateBad (b : List Byte) (i : Nat) : Option Nat :=
  let o := smStateAt i
  firstBad [(decide (u8 b (o + 2) ≤ 16), 0x05), (decide (u16 b o + u8 b (o + 2) ≤ smT b), 0x08), (u8 b (o + 3) == 0, 0x0E)]

def smTransBad (b : List Byte) (t : Nat) : Option Nat :=
  let o := smTransAt b t
  firstBad [
    (decide (u8 b (o + 5) ≤ 4), 0x05),
    (fFinite (f32 b (o + 8)), 0x07),
    (u8 b (o + 2) == 0xFF || decide (u8 b (o + 2) < smS b), 0x08),
    ((List.range (min 4 (u8 b (o + 5)))).all fun i => decide (u8 b (o + 12 + i) < smA b), 0x09),
    (u8 b (o + 3) == 0xFF || decide (u8 b (o + 3) < 32), 0x0A),
    (decide (u8 b (o + 4) ≤ 6), 0x0D),
    (zeroBytes b (o + 6) 2, 0x0E)]

def smActBad (b : List Byte) (a : Nat) : Option Nat :=
  let o := smActAt b a
  let k := u8 b o
  firstBad [
    (fFinite (f32 b (o + 4)), 0x07),
    (decide (1 ≤ k ∧ k ≤ 5) && (k != 2 || decide (u8 b (o + 1) < u8 b 17)), 0x09),
    (k != 4 || decide (u8 b (o + 1) < 24), 0x0A),
    (k != 4 || decide (u16 b (o + 2) ≤ 1), 0x0D),
    (zeroBytes b (o + 12) 4, 0x0E)]

/-- Offset of field `f` of a format image (R105). -/
def fmtAt (f : Nat) : Nat := 20 + 16 * f
def fmtLen (b : List Byte) : Nat := u8 b 16

/-- The bit positions that a field of `len` bits visits, in the order of R106. -/
def fieldBits (big : Bool) : Nat → Nat → List Nat
  | _, 0 => []
  | k, n + 1 => k :: fieldBits big (if !big then k + 1 else if k % 8 = 0 then k + 15 else k - 1) n

/-- The bit positions of field `f` of a format image. -/
def fmtBits (b : List Byte) (f : Nat) : List Nat :=
  fieldBits (bit (u8 b (fmtAt f + 3)) 0) (u16 b (fmtAt f)) (u8 b (fmtAt f + 2))

def fmtEncodes (b : List Byte) (f : Nat) : Bool := bit (u8 b (fmtAt f + 3)) 3

def fmtFieldBad (b : List Byte) (f : Nat) : Option Nat :=
  let o := fmtAt f
  let fl := u8 b (o + 3)
  let n := u8 b (o + 2)
  firstBad [
    (fFinite (f32 b (o + 4)) && fFinite (f32 b (o + 8)) && fMag (f32 b (o + 4)) != 0, 0x07),
    (decide (1 ≤ n ∧ n ≤ 32) && (!bit fl 2 || n == 32) && (fmtBits b f).all (fun k => decide (k < 8 * fmtLen b)), 0x0B),
    (!fmtEncodes b f || !(List.range f).any (fun g => fmtEncodes b g && (fmtBits b g).any (fun k => (fmtBits b f).contains k)), 0x0C),
    (decide (fl < 32), 0x0D),
    (zeroBytes b (o + 14) 2, 0x0E)]

/-- Steps 1 to 3 of R95: type, version, length, CRC; header; the fields before the items and the layout's length. -/
def tableHeadBad (b : List Byte) : Option Nat :=
  let ty := tabType b
  let n := tabCount b
  let m := tabMode b
  firstBad ([
    (decide (1 ≤ ty ∧ ty ≤ 3), 0x01), (u8 b 1 == 1, 0x02),
    (u32 b 4 == b.length && decide (b.length ≤ 32768), 0x03), (u32 b 8 == crc32 (zeroSpan b 8 4), 0x04),
    (zeroBytes b 2 2 && zeroBytes b 15 1, 0x0E), (decide (1 ≤ n ∧ n ≤ 64), 0x05)] ++
    if ty = 1 then [(decide (m < 8) && m % 4 != 3, 0x0D), (m % 4 == 0 || decide (2 ≤ n), 0x05), (b.length == 16 + 8 * n, 0x03)]
    else if ty = 2 then [
      (m == 0, 0x0D), (decide (u8 b 16 < n), 0x08), (decide (u8 b 17 ≤ 8), 0x05), (decide (smT b ≤ 1024), 0x05),
      (zeroBytes b 21 3, 0x0E), (b.length == 24 + 4 * n + 16 * smT b + 16 * smA b, 0x03)]
    else [(m == 0, 0x0D), (decide (1 ≤ fmtLen b ∧ fmtLen b ≤ 64), 0x05), (zeroBytes b 17 3, 0x0E), (b.length == 20 + 16 * n, 0x03)])

/-- Step 4 of R95: the items in the order they lie in the image. -/
def tableItemBad (b : List Byte) : Option (Nat × Nat) :=
  if tabType b = 1 then firstBadItem (tabCount b) (curvePointBad b)
  else if tabType b = 2 then
    (firstBadItem (smS b) (smStateBad b)).or ((firstBadItem (smT b) (smTransBad b)).or (firstBadItem (smA b) (smActBad b)))
  else firstBadItem (tabCount b) (fmtFieldBad b)

/-- The judgement of an image: nothing, or the reason and the item's index (0xFFFF for steps 1 to 3). -/
def tableBad (b : List Byte) : Option (Nat × Nat) :=
  match tableHeadBad b with
  | some r => some (r, 0xFFFF)
  | none => tableItemBad b

/-! ## Curves (R98, R99) -/

def f2 : F32 := 0x40000000#32
def f3 : F32 := 0x40400000#32

/-- Slope `d[k]` of the load procedure. -/
def curveD (b : List Byte) (k : Nat) : F32 :=
  fDiv (fSub (curveY b (k + 1)) (curveY b k)) (fSub (curveX b (k + 1)) (curveX b k))

/-- Tangent `m[k]` of the load procedure. -/
def curveM (b : List Byte) (k : Nat) : F32 :=
  let n := tabCount b
  if k = 0 then curveD b 0
  else if k = n - 1 then curveD b (n - 2)
  else
    let p := curveD b (k - 1)
    let q := curveD b k
    if fLe (fMul p q) fZero then fZero else fDiv (fMul (fMul f2 p) q) (fAdd p q)

/-- The largest index with x[k] ≤ v, below `n`. -/
def curveSeg (b : List Byte) (v : F32) : Nat → Nat
  | 0 => 0
  | n + 1 => if fLe (curveX b n) v then n else curveSeg b v n

/-- `eval(v)` of R99. -/
def curveEval (b : List Byte) (v : F32) : F32 :=
  let n := tabCount b
  if fIsNaN v || fLe v (curveX b 0) then curveY b 0
  else if fLe (curveX b (n - 1)) v then curveY b (n - 1)
  else
    let k := curveSeg b v n
    if tabMode b % 4 = 0 then curveY b k
    else
      let h := fSub (curveX b (k + 1)) (curveX b k)
      let t := fDiv (fSub v (curveX b k)) h
      if tabMode b % 4 = 1 then fAdd (curveY b k) (fMul t (fSub (curveY b (k + 1)) (curveY b k)))
      else
        let u := fSub fOne t
        let h00 := fMul (fMul (fAdd fOne (fMul f2 t)) u) u
        let h10 := fMul (fMul t u) u
        let h01 := fMul (fMul t t) (fSub f3 (fMul f2 t))
        let h11 := fMul (fMul t t) (fSub t fOne)
        fAdd (fAdd (fAdd (fMul h00 (curveY b k)) (fMul (fMul h10 h) (curveM b k))) (fMul h01 (curveY b (k + 1))))
          (fMul (fMul h11 h) (curveM b (k + 1)))

/-- An input below, above or not a number: the cases that raise CURVE_RANGE when mode bit 2 is set (R98). -/
def curveOut (b : List Byte) (v : F32) : Bool :=
  fIsNaN v || fLt v (curveX b 0) || fLt (curveX b (tabCount b - 1)) v

/-- The image of the TABLE that a handle names. -/
def tableOf (s : State) (h : Nat) : Option (List Byte) :=
  match objOf s h with
  | some o => if o.typ = tyTable then some o.params else none
  | none => none

/-- Evaluate the curve table `h`, raising CURVE_RANGE at most once per 100 ms where the rule says so (R98). -/
def curveAt (h : Nat) (v : F32) (s : State) : F32 × State :=
  match tableOf s h with
  | none => (fZero, s)
  | some b =>
    (curveEval b v,
     if bit (tabMode b) 2 && curveOut b v then raiseLimited (100 * msTicks) 0x0349 0 h 0 0 (fBytes v) 0 0 s else s)

/-! ## State machines (R100 to R104) -/

/-- What a firing asks of the owning object or the host (R102). -/
inductive SmOut where
  | output (target : Nat) (value : F32)
  | event (code : Nat) (value : F32)
  | command (target : Nat) (value : F32)
  | loop (state : Nat)
  deriving DecidableEq, Repr

/-- A machine newly bound to an image (R103): its variables start at 0, the entry of the initial state is pending. -/
def smBind (off : Nat) (img : List Byte) : Sm := { off := off, state := u8 img 16 }

/-- A bound machine begins again in its initial state; its variables keep their values (R103, R341). -/
def smRestart (img : List Byte) (m : Option Sm) : Sm :=
  let n := smBind 52 img
  { n with vars := (m.map (·.vars)).getD n.vars }

/-- The guard of a transition (R101); with a NaN on either side it is false. -/
def smGuard (m : Sm) (b : List Byte) (o : Nat) : Bool :=
  let v := m.vars.getD (u8 b (o + 3)) 0
  let c := f32 b (o + 8)
  let op := u8 b (o + 4)
  if u8 b (o + 3) = 0xFF || op = 0 then true
  else if fIsNaN v || fIsNaN c then false
  else if op = 1 then fEq v c
  else if op = 2 then !fEq v c
  else if op = 3 then fLt v c
  else if op = 4 then fLe v c
  else if op = 5 then fLt c v
  else fLe c v

/-- Perform action `a` (R102) at GTC `now`. -/
def smAction (now : Nat) (b : List Byte) (a : Nat) (m : Sm) : Sm × List SmOut :=
  let o := smActAt b a
  let k := u8 b o
  let tgt := u8 b (o + 1)
  let code := u16 b (o + 2)
  let v := f32 b (o + 4)
  let arg := u32 b (o + 8)
  if k = 1 then (m, [.output tgt v])
  else if k = 2 then ({ m with timers := m.timers.set tgt (if arg = 0 then none else some (now + arg * usTicks)) }, [])
  else if k = 3 then (m, [.event code v])
  else if k = 4 then ({ m with vars := m.vars.set tgt (if code = 0 then v else fAdd (m.vars.getD tgt 0) v) }, [])
  else (m, [.command tgt v])

/-- Perform actions in order. -/
def smActions (now : Nat) (b : List Byte) (as : List Nat) (m : Sm) : Sm × List SmOut :=
  as.foldl (fun r a => let x := smAction now b a r.1; (x.1, r.2 ++ x.2)) (m, [])

/-- Take transition at offset `o` (R104). -/
def smTake (now : Nat) (b : List Byte) (o : Nat) (m : Sm) : Sm × List SmOut :=
  let r := smActions now b ((List.range (u8 b (o + 5))).map fun i => u8 b (o + 12 + i)) m
  let m := r.1
  let next := u8 b (o + 2)
  if next = 0xFF ∨ next = m.state then r
  else
    let chain := m.entryChain + 1
    let loop := decide (16 ≤ chain)
    ({ m with state := next, entryPending := !loop, entryChain := chain }, r.2 ++ if loop then [.loop next] else [])

/-- One firing with event `ev`: the first transition of the present state that matches (R104). -/
def smFire (now : Nat) (b : List Byte) (ev : Nat) (m : Sm) : Sm × List SmOut :=
  let st := smStateAt m.state
  let ts := (List.range (u8 b (st + 2))).map fun i => smTransAt b (u16 b st + i)
  match ts.find? fun o => u16 b o == ev && smGuard m b o with
  | some o => smTake now b o m
  | none => (m, [])

/-- Up to `n` firings (R104). -/
def smFirings (now : Nat) (b : List Byte) : Nat → Sm → Sm × List SmOut
  | 0, m => (m, [])
  | n + 1, m =>
    if m.entryPending then
      let r := smFire now b 0xFFFE { m with entryPending := false }
      let r' := smFirings now b n r.1
      (r'.1, r.2 ++ r'.2)
    else match m.queue with
      | [] => (m, [])
      | ev :: q =>
        let r := smFire now b ev { m with queue := q, entryChain := 0 }
        let r' := smFirings now b n r.1
        (r'.1, r.2 ++ r'.2)

/-- A run of the owning job: the read-only inputs are taken over, then at most four firings (R103, R104). -/
def smRun (now : Nat) (b : List Byte) (inputs : List F32) (m : Sm) : Sm × List SmOut :=
  smFirings now b 4 { m with vars := m.vars.take 24 ++ inputs }

/-- Queue an event for a machine of an object: up to 16, then dropped with SM_QUEUE_OVERFLOW (R103). -/
def smQueue (h off code : Nat) (s : State) : State :=
  match objOf s h with
  | none => s
  | some o =>
    match o.sms.find? fun m => m.off == off with
    | none => s
    | some m =>
      if m.queue.length < 16 then
        updH h (fun o => { o with sms := o.sms.map fun m => if m.off = off then { m with queue := m.queue ++ [code] } else m }) s
      else raise0 0x0347 h (leBytes 2 code) s

/-- SM_EVENT_ARRIVAL: an event for the machine bound at field `off` of object `h` is queued, or dropped (R103). -/
def execSmEventArrival (h off code : Nat) (s : State) : Host.Outcome State Fault Refusal := .next (smQueue h off code s)

/-- Change the machine bound at field `off` of an object. -/
def updSm (h off : Nat) (f : Sm → Sm) (s : State) : State :=
  updH h (fun o => { o with sms := o.sms.map fun m => if m.off = off then f m else m }) s

/-- The expiries since the last run are queued at this run (R103). -/
def smDue (h off : Nat) (s : State) : State :=
  match (objOf s h).bind fun o => o.sms.find? fun m => m.off == off with
  | none => s
  | some m => m.expired.foldl (fun s n => smQueue h off (0xFF00 + n) s) (updSm h off (fun m => { m with expired := [] }) s)

/-- SM_TIMER_EXPIRY: a timer that runs has reached its instant; it stops, and its expiry event is queued at the next run of the
job (R103). -/
def execSmTimerExpiry (h off timer : Nat) (s : State) : Host.Outcome State Fault Refusal :=
  .next (match (objOf s h).bind fun o => (o.sms.find? fun m => m.off == off).bind fun m => (m.timers.getD timer none) with
    | none => s
    | some t =>
      updSm h off (fun m => { m with timers := m.timers.set timer none, expired := m.expired ++ [timer] }) (toInstant t s))

/-! ## Formats (R105, R106) -/

/-- Bit `k` of a frame. -/
def frameBit (fr : List Byte) (k : Nat) : Bool := bit (u8 fr (k / 8)) (k % 8)

/-- `get_raw` (R106). -/
def fmtRaw (b fr : List Byte) (f : Nat) : Nat :=
  let ks := fmtBits b f
  if bit (u8 b (fmtAt f + 3)) 0 then ks.foldl (fun r k => 2 * r + b2n (frameBit fr k)) 0
  else ks.reverse.foldl (fun r k => 2 * r + b2n (frameBit fr k)) 0

/-- Gray code to binary, for up to 64 bits. -/
def grayToBin (n : Nat) : Nat :=
  let a := n ^^^ (n >>> 1)
  let a := a ^^^ (a >>> 2)
  let a := a ^^^ (a >>> 4)
  let a := a ^^^ (a >>> 8)
  let a := a ^^^ (a >>> 16)
  a ^^^ (a >>> 32)

/-- `decode` (R106): the value of field `f` of a frame. -/
def fmtDecode (b fr : List Byte) (f : Nat) : F32 :=
  let fl := u8 b (fmtAt f + 3)
  let n := u8 b (fmtAt f + 2)
  let raw := if bit fl 4 then grayToBin (fmtRaw b fr f) else fmtRaw b fr f
  let v := if bit fl 2 then BitVec.ofNat 32 raw else if bit fl 1 then fOfInt (sx n raw) else fOfInt raw
  fAdd (fMul v (f32 b (fmtAt f + 4))) (f32 b (fmtAt f + 8))

/-- The variables that a frame's decode fields give: variable number and value. -/
def fmtDecodeAll (b fr : List Byte) : List (Nat × F32) :=
  ((List.range (tabCount b)).filter fun f => !fmtEncodes b f).map fun f => (u16 b (fmtAt f + 12), fmtDecode b fr f)

/-- `encode` (R106): the raw bits of a value, and whether it saturated. A float field takes the bits of
(var - offset) / scale (DEDUCED, log 10). -/
def fmtEncode (b : List Byte) (f : Nat) (v : F32) : Nat × Bool :=
  let fl := u8 b (fmtAt f + 3)
  let n := u8 b (fmtAt f + 2)
  let q := fDiv (fSub v (f32 b (fmtAt f + 8))) (f32 b (fmtAt f + 4))
  let gray (u : Nat) : Nat := if bit fl 4 then u ^^^ (u / 2) else u
  if bit fl 2 then (if fIsNaN v then (gray 0, true) else (gray q.toNat, false))
  else
    let lo : Int := if bit fl 1 then -((2 ^ (n - 1) : Nat) : Int) else 0
    let hi : Int := if bit fl 1 then ((2 ^ (n - 1) : Nat) : Int) - 1 else ((2 ^ n : Nat) : Int) - 1
    let r : Int := if fIsNaN q then 0 else if fIsInf q then (if fNeg? q then lo - 1 else hi + 1) else fToInt q
    let c := clampInt lo hi r
    let u := ux n c
    (gray u, fIsNaN v || r != c)

/-- A frame with bit `k` set to `v`. -/
def frameSetBit (fr : List Byte) (k : Nat) (v : Bool) : List Byte :=
  fr.set (k / 8) (BitVec.ofNat 8 (setBit (u8 fr (k / 8)) (k % 8) v))

/-- Write the raw bits of field `f` in the bit order of `get_raw`. -/
def fmtPut (b : List Byte) (f raw : Nat) (fr : List Byte) : List Byte :=
  let ks := fmtBits b f
  let ks := if bit (u8 b (fmtAt f + 3)) 0 then ks.reverse else ks
  (ks.zipIdx).foldl (fun fr x => frameSetBit fr x.1 (bit raw x.2)) fr

/-- A frame built from the encode fields of a format, and the fields that saturated, in order. -/
def fmtEncodeAll (b : List Byte) (vars : Nat → F32) : List Byte × List Nat :=
  ((List.range (tabCount b)).filter (fmtEncodes b)).foldl
    (fun r f => let e := fmtEncode b f (vars (u16 b (fmtAt f + 12)))
                (fmtPut b f e.1 r.1, if e.2 then r.2 ++ [f] else r.2))
    (List.replicate (fmtLen b) 0, [])

/-- Build a frame with the format table `h`; every saturated encode raises FORMAT_SATURATED, at most once per 100 ms (R106). -/
def fmtBuild (h : Nat) (vars : Nat → F32) (s : State) : List Byte × State :=
  match tableOf s h with
  | none => ([], s)
  | some b =>
    let r := fmtEncodeAll b vars
    (r.1, r.2.foldl (fun s f => raiseLimited (100 * msTicks) 0x034A 0 h 0 0 (leBytes 1 f) 0 0 s) s)

end Sys2Proof.Machine
end

