-- ==== Sys2Proof/Machine/Loads.lean ====
section
/-! DEFINITION. The loads that jobs put on engine slots and the moves of jobs between engines (03, R81, R82, R88, R90). -/

namespace Sys2Proof.Machine

/-- Slots of a mask. -/
def maskSlots (m : Nat) : List Nat := (List.range 16).filter fun i => bit m i

/-- The loads of an engine's slots with a cost added to or taken from those of a mask. -/
def loadsWith (msk cost : Nat) (sub : Bool) (loads : List Nat) : List Nat :=
  loads.mapIdx fun q l => if bit msk q then (if sub then l - cost else l + cost) else l

/-- Change one engine. -/
def updEngine (e : Nat) (f : Engine → Engine) (s : State) : State :=
  { s with eng := { s.eng with engines := s.eng.engines.mapIdx fun i x => if i = e then f x else x } }

/-- Change the loads of an engine's slots. -/
def addLoad (e msk cost : Nat) (sub : Bool) (s : State) : State :=
  updEngine e (fun x => { x with loads := loadsWith msk cost sub x.loads, busyAt := some s.gtc }) s

/-- The castling in progress of an object. -/
def moveOf (s : State) (h : Nat) : Option Move := s.eng.moves.find? fun m => m.handle == h

/-- The load that an object's job holds in its slots: its cost and the increases reserved for it (R82). -/
def heldCost (s : State) (o : Obj) : Nat :=
  o.cost + ((s.eng.costs.filter fun c => c.handle == handleOf o).map fun c => c.delta.toNat).foldl (· + ·) 0

/-- Abandon a castling: the new slots are released and a JOB_MOVE that asked for it completes with `status` (R90). -/
def abandonMove (h status : Nat) (s : State) : State :=
  match moveOf s h with
  | none => s
  | some m =>
    let cost := ((objOf s h).map (heldCost s)).getD 0
    let s := addLoad m.newE m.newSlots cost true s
    finishDeferred 0x0300 h { status := status }
      { s with eng := { s.eng with moves := s.eng.moves.erase m } }

end Sys2Proof.Machine
end

