-- ==== Sys2Proof/Machine/Params.lean ====
section
/-! DEFINITION. Parameter blocks: the field maps of every object type as the manual's tables give them, the
defaults, the judging of a written block (R9, R63, R72, R73, R518), references and claims. -/

namespace Sys2Proof.Machine

/-- What a field of a parameter block may hold. -/
inductive FKind where
  /-- reserved: 0 (R9) -/
  | rsv
  /-- anything -/
  | raw
  /-- an unsigned number within bounds -/
  | nat (lo hi : Nat)
  /-- a signed number within bounds -/
  | int (lo hi : Int)
  /-- a float32 within bounds -/
  | flt (lo hi : F32)
  /-- a finite float32 -/
  | fin
  /-- a finite float32 above zero -/
  | pos
  /-- a handle of one of the types, driving or reading (R72, R73) -/
  | ref (types : List Nat) (driving : Bool)
  /-- a cluster reference to one of the types (R75) -/
  | cref (types : List Nat)
  deriving DecidableEq, Repr

/-- One field: offset, size, kind, default, and the bits that may not change while the object is ENABLED (R63);
`all` for every bit. -/
structure PField where
  off : Nat
  size : Nat
  kind : FKind
  dflt : Nat := 0
  busy : Nat := 0
  deriving DecidableEq, Repr

/-- Every bit of a field. -/
def all : Nat := 2 ^ 64 - 1

/-- The job head (R78), for the rates and slots of R79: placement, engine, slot and rate are fixed while ENABLED. -/
def headMap : List PField := [
  { off := 0, size := 1, kind := .nat 0 2, busy := all }, { off := 1, size := 1, kind := .raw, busy := all },
  { off := 2, size := 1, kind := .raw, busy := all }, { off := 3, size := 1, kind := .nat 0 4, dflt := 1, busy := all },
  { off := 4, size := 1, kind := .raw, dflt := 3 }, { off := 5, size := 1, kind := .nat 0 1, dflt := 1 },
  { off := 6, size := 10, kind := .rsv }]

/-- SWITCH (R298). -/
def switchMap : List PField := [
  { off := 0, size := 1, kind := .nat 0 47, busy := all }, { off := 1, size := 1, kind := .nat 0 1, busy := all },
  { off := 2, size := 1, kind := .nat 0 47, busy := all }, { off := 3, size := 1, kind := .nat 0 2, busy := all },
  { off := 4, size := 1, kind := .nat 0 15, dflt := 3 }, { off := 5, size := 1, kind := .nat 0 2, dflt := 1 },
  { off := 6, size := 1, kind := .nat 0 7, busy := 4 }, { off := 7, size := 1, kind := .nat 20 100, dflt := 60 },
  { off := 8, size := 4, kind := .ref [tyTable] false }, { off := 12, size := 2, kind := .nat 100 60000, dflt := 20000 },
  { off := 14, size := 2, kind := .nat 10 1000, dflt := 100 }, { off := 16, size := 2, kind := .nat 10 1000, dflt := 500 },
  { off := 18, size := 2, kind := .nat 0 100, dflt := 10 }, { off := 20, size := 2, kind := .nat 1 1000, dflt := 10 },
  { off := 22, size := 2, kind := .nat 0 500 }, { off := 24, size := 2, kind := .raw, dflt := 100 },
  { off := 26, size := 2, kind := .nat 100 65535, dflt := 2000 }, { off := 28, size := 1, kind := .nat 1 255, dflt := 3 },
  { off := 29, size := 1, kind := .rsv }, { off := 30, size := 2, kind := .nat 2 1000, dflt := 20 },
  { off := 32, size := 2, kind := .nat 20 5000, dflt := 200 }, { off := 34, size := 6, kind := .rsv }]

/-- PWMCH (R275). -/
def pwmchMap : List PField := [
  { off := 0, size := 1, kind := .nat 0 127, busy := all }, { off := 1, size := 1, kind := .nat 0 1, busy := all },
  { off := 2, size := 1, kind := .nat 0 15, busy := all }, { off := 3, size := 1, kind := .nat 0 1 },
  { off := 4, size := 4, kind := .ref [tySwitch] true, busy := all }, { off := 8, size := 4, kind := .raw },
  { off := 12, size := 4, kind := .raw }, { off := 16, size := 4, kind := .raw },
  { off := 20, size := 4, kind := .nat 0 16777215 }, { off := 24, size := 2, kind := .raw, dflt := 48 },
  { off := 26, size := 2, kind := .raw, dflt := 48 }, { off := 28, size := 2, kind := .raw, dflt := 240 },
  { off := 30, size := 2, kind := .raw, dflt := 4 }, { off := 32, size := 2, kind := .nat 0 4095, dflt := 96 },
  { off := 34, size := 1, kind := .raw }, { off := 35, size := 1, kind := .nat 0 63, dflt := 8, busy := 22 },
  { off := 36, size := 1, kind := .nat 0 15, busy := all }, { off := 37, size := 1, kind := .nat 0 1, busy := all },
  { off := 38, size := 2, kind := .rsv }]

/-- Float constants of the maps. -/
def fk (n : Int) : F32 := fOfInt n
def fq (n : Int) (d : Nat) : F32 := fOfFrac n d

/-- SOLENOID (R321). -/
def solenoidMap : List PField := [
  { off := 0, size := 1, kind := .nat 0 3, busy := all }, { off := 1, size := 1, kind := .nat 0 3, busy := all },
  { off := 2, size := 1, kind := .nat 0 0, busy := all }, { off := 3, size := 1, kind := .nat 0 3, dflt := 1 },
  { off := 4, size := 4, kind := .flt (fk 5) (fk 200), dflt := (fk 20).toNat, busy := all },
  { off := 8, size := 4, kind := .fin }, { off := 12, size := 4, kind := .nat 0 10000 },
  { off := 16, size := 4, kind := .fin, dflt := (fk 1).toNat }, { off := 20, size := 4, kind := .nat 0 1000000, dflt := 20000 },
  { off := 24, size := 4, kind := .fin, dflt := (fq 1 2).toNat }, { off := 28, size := 4, kind := .fin, dflt := (fq 1 20).toNat },
  { off := 32, size := 4, kind := .fin, dflt := (fq 1 50).toNat }, { off := 36, size := 4, kind := .fin, dflt := (fk 4).toNat },
  { off := 40, size := 2, kind := .nat 2 1000, dflt := 20 }, { off := 42, size := 2, kind := .nat 2 1000, dflt := 10 },
  { off := 44, size := 4, kind := .raw, dflt := 2000 }, { off := 48, size := 4, kind := .nat 0 1000000, dflt := 250000 },
  { off := 52, size := 2, kind := .nat 1 1000, dflt := 5 }, { off := 54, size := 10, kind := .rsv }]

/-- WING (R140): every field is fixed while ENABLED. -/
def wingMap : List PField := [
  { off := 0, size := 1, kind := .nat 0 7, busy := all }, { off := 1, size := 1, kind := .raw, dflt := 0xFF, busy := all },
  { off := 2, size := 1, kind := .nat 0 1, busy := all }, { off := 3, size := 1, kind := .nat 0 1, busy := all },
  { off := 4, size := 8, kind := .raw, busy := all }, { off := 12, size := 4, kind := .ref [tyFeedback] false, busy := all },
  { off := 16, size := 4, kind := .fin, dflt := (fk 1).toNat, busy := all }, { off := 20, size := 4, kind := .fin, busy := all },
  { off := 24, size := 4, kind := .ref [tyFeedback] false, busy := all },
  { off := 28, size := 4, kind := .fin, dflt := (fk 1).toNat, busy := all },
  { off := 32, size := 4, kind := .raw, dflt := 10000, busy := all }, { off := 36, size := 2, kind := .raw, dflt := 20, busy := all },
  { off := 38, size := 2, kind := .raw, dflt := 3500, busy := all }, { off := 40, size := 8, kind := .rsv }]

/-- GEOPOINT (R142). -/
def geopointMap : List PField := [
  { off := 0, size := 1, kind := .nat 0 2, dflt := 1, busy := all }, { off := 1, size := 1, kind := .nat 0 7, busy := all },
  { off := 2, size := 2, kind := .rsv }, { off := 4, size := 12, kind := .raw }, { off := 16, size := 8, kind := .raw, busy := all },
  { off := 24, size := 8, kind := .rsv }]

/-- LAYER (R154). -/
def layerMap : List PField := [
  { off := 0, size := 1, kind := .nat 1 2, busy := all }, { off := 1, size := 1, kind := .nat 0 2 },
  { off := 2, size := 1, kind := .nat 0 1 }, { off := 3, size := 1, kind := .nat 0 3, dflt := 2, busy := all },
  { off := 4, size := 2, kind := .raw, busy := all }, { off := 6, size := 2, kind := .nat 0 2000, dflt := 200, busy := all },
  { off := 8, size := 4, kind := .raw, busy := all }, { off := 12, size := 4, kind := .raw, busy := all },
  { off := 16, size := 4, kind := .raw, busy := all }, { off := 20, size := 2, kind := .nat 1 4096, busy := all },
  { off := 22, size := 2, kind := .nat 1 4096, busy := all }, { off := 24, size := 8, kind := .raw, busy := all },
  { off := 32, size := 4, kind := .nat 0 30000, dflt := 30000 }, { off := 36, size := 4, kind := .nat 0 10000, dflt := 2000 },
  { off := 40, size := 4, kind := .raw }, { off := 44, size := 4, kind := .raw }, { off := 48, size := 4, kind := .raw },
  { off := 52, size := 2, kind := .nat 0 60000, dflt := 1000 }, { off := 54, size := 1, kind := .nat 0 4, busy := all },
  { off := 55, size := 1, kind := .rsv }, { off := 56, size := 4, kind := .ref [tyTable] false }, { off := 60, size := 4, kind := .fin }]

/-- A float32 of 0 or more. -/
def nonneg : FKind := .flt fZero 0x7F7FFFFF#32

/-- One law block of a LOOP at `o` (R229). -/
def lawMap (o : Nat) : List PField := [
  { off := o, size := 4, kind := .ref [tyFeedback, tyLoop] false }, { off := o + 4, size := 1, kind := .nat 0 2, dflt := 2 },
  { off := o + 5, size := 1, kind := .nat 0 2 }, { off := o + 6, size := 1, kind := .nat 0 2 },
  { off := o + 7, size := 1, kind := .nat 0 2, dflt := 1 }, { off := o + 8, size := 4, kind := .fin, dflt := (fk 1).toNat },
  { off := o + 12, size := 4, kind := .fin }, { off := o + 16, size := 4, kind := .ref [tyLoop] false },
  { off := o + 20, size := 4, kind := .ref [tySection] false }, { off := o + 24, size := 4, kind := .ref [tySection] false },
  { off := o + 28, size := 4, kind := .ref [tySection] false }, { off := o + 32, size := 4, kind := .ref [tySection] false },
  { off := o + 36, size := 4, kind := .ref [tyTable] false }, { off := o + 40, size := 4, kind := .ref [tyTable] false },
  { off := o + 44, size := 1, kind := .nat 0 3 }, { off := o + 45, size := 3, kind := .rsv },
  { off := o + 48, size := 4, kind := .fin }, { off := o + 52, size := 4, kind := nonneg },
  { off := o + 56, size := 4, kind := .fin }, { off := o + 60, size := 4, kind := .fin },
  { off := o + 64, size := 4, kind := nonneg }, { off := o + 68, size := 4, kind := .raw }, { off := o + 72, size := 8, kind := .rsv }]

/-- LOOP (R228). -/
def loopMap : List PField := headMap ++ [
  { off := 16, size := 4, kind := .ref [tyPwmch, tySolenoid, tyAxis] true, busy := all },
  { off := 20, size := 1, kind := .nat 0 1, busy := all }, { off := 21, size := 1, kind := .nat 0 2 },
  { off := 22, size := 1, kind := .nat 0 1 }, { off := 23, size := 1, kind := .nat 0 3, busy := 1 },
  { off := 24, size := 4, kind := .fin }, { off := 28, size := 4, kind := .fin, dflt := (fk 1).toNat },
  { off := 32, size := 4, kind := nonneg }, { off := 36, size := 4, kind := .fin }, { off := 40, size := 4, kind := .fin },
  { off := 44, size := 4, kind := .fin }, { off := 48, size := 4, kind := .pos, dflt := (fq 1 2).toNat },
  { off := 52, size := 4, kind := .nat 1000 10000000, dflt := 500000 }, { off := 56, size := 4, kind := .fin, dflt := (fq 1 50).toNat },
  { off := 60, size := 4, kind := .ref [tyFeedback] false, busy := all }, { off := 64, size := 2, kind := .nat 1 65535, dflt := 1, busy := all },
  { off := 66, size := 1, kind := .nat 0 127 }, { off := 67, size := 1, kind := .rsv },
  { off := 68, size := 4, kind := .fin, dflt := (fq 1 5000).toNat }, { off := 72, size := 4, kind := .flt fZero (fq 1 10), dflt := (fq 1 1000).toNat },
  { off := 76, size := 4, kind := .pos, dflt := (fq 1 10).toNat }, { off := 80, size := 4, kind := .fin, dflt := (fk 1).toNat },
  { off := 84, size := 1, kind := .nat 1 8, dflt := 8, busy := all }, { off := 85, size := 1, kind := .nat 0 1, busy := all },
  { off := 86, size := 2, kind := .rsv }] ++ lawMap 88 ++ lawMap 168 ++ [{ off := 248, size := 8, kind := .rsv }]

/-- AXIS (R345). -/
def axisMap : List PField := headMap ++ [
  { off := 16, size := 1, kind := .nat 0 2, busy := all }, { off := 17, size := 1, kind := .nat 0 2, dflt := 1 },
  { off := 18, size := 1, kind := .nat 0 31 }, { off := 19, size := 1, kind := .nat 0 1 },
  { off := 20, size := 1, kind := .raw, busy := all }, { off := 21, size := 1, kind := .raw, dflt := 0xFF, busy := all },
  { off := 22, size := 1, kind := .raw, dflt := 0xFF, busy := all }, { off := 23, size := 1, kind := .nat 0 3 },
  { off := 24, size := 2, kind := .nat 48 4800, dflt := 240 }, { off := 26, size := 2, kind := .nat 48 48000, dflt := 480 },
  { off := 28, size := 2, kind := .nat 0 60000, dflt := 500 }, { off := 30, size := 2, kind := .nat 0 10000, dflt := 100 },
  { off := 32, size := 4, kind := nonneg, dflt := (fk 1000).toNat }, { off := 36, size := 4, kind := .pos, dflt := (fk 10000).toNat },
  { off := 40, size := 4, kind := .pos, dflt := (fk 1000000).toNat }, { off := 44, size := 2, kind := .raw, dflt := 4 },
  { off := 46, size := 1, kind := .raw, dflt := 0xFF, busy := all }, { off := 47, size := 1, kind := .raw, dflt := 0xFF, busy := all },
  { off := 48, size := 1, kind := .raw, dflt := 0xFF, busy := all }, { off := 49, size := 1, kind := .nat 2 255, dflt := 8 },
  { off := 50, size := 2, kind := .nat 1 10000, dflt := 100 }, { off := 52, size := 4, kind := .ref [tyTable] false },
  { off := 56, size := 4, kind := .ref [tyFeedback] false, busy := all }, { off := 60, size := 4, kind := .fin, dflt := (fk 1).toNat },
  { off := 64, size := 4, kind := .fin }, { off := 68, size := 4, kind := .raw, dflt := 10000 },
  { off := 72, size := 4, kind := .ref [tyPwmch] true, busy := all }, { off := 76, size := 4, kind := .ref [tyPwmch] true, busy := all },
  { off := 80, size := 4, kind := .ref [tyPwmch] true, busy := all }, { off := 84, size := 4, kind := .ref [tyPwmch] true, busy := all },
  { off := 88, size := 4, kind := .fin, dflt := (fk 1).toNat }, { off := 92, size := 4, kind := .fin, dflt := (fk 1).toNat },
  { off := 96, size := 4, kind := .fin, dflt := (fq 1 2).toNat }, { off := 100, size := 1, kind := .raw, dflt := 0xFF },
  { off := 101, size := 1, kind := .raw, dflt := 0xFF, busy := all }, { off := 102, size := 1, kind := .raw, dflt := 0xFF, busy := all },
  { off := 103, size := 1, kind := .nat 1 255, dflt := 16 }, { off := 104, size := 4, kind := .fin, dflt := (fk 1).toNat },
  { off := 108, size := 2, kind := .nat 100 50000, dflt := 2000 }, { off := 110, size := 2, kind := .nat 1 1000, dflt := 20 },
  { off := 112, size := 16, kind := .rsv }]

/-- FEEDBACK (R367): fields that do not apply to the kind are ignored. -/
def feedbackMap (ps : List Byte) : List PField :=
  let k := u8 ps 0
  let cnt := k == 0 || k == 2 || k == 3
  let only (c : Bool) (x : FKind) : FKind := if c then x else .raw
  [ { off := 0, size := 1, kind := .nat 0 4, busy := all }, { off := 1, size := 1, kind := .raw, busy := all },
    { off := 2, size := 1, kind := only cnt (.nat 1 255), dflt := 8 }, { off := 3, size := 1, kind := only cnt (.nat 0 31) },
    { off := 4, size := 2, kind := only (k == 0) (.nat 1 65535), dflt := 1024 }, { off := 6, size := 2, kind := only (k == 0) (.nat 0 1000), dflt := 4 },
    { off := 8, size := 1, kind := only (k == 0) (.nat 0 1) }, { off := 9, size := 1, kind := .raw, dflt := 2 },
    { off := 10, size := 1, kind := only (k == 0) (.nat 1 255), dflt := 4 }, { off := 11, size := 1, kind := only (k == 1) (.nat 1 255), dflt := 3 },
    { off := 12, size := 4, kind := .nat 100 1000000, dflt := 10000 }, { off := 16, size := 4, kind := only cnt (.nat 1000 10000000), dflt := 500000 },
    { off := 20, size := 4, kind := only (k == 2 || k == 3) (.nat 0 1000000) }, { off := 24, size := 2, kind := .raw, dflt := 100 },
    { off := 26, size := 1, kind := only (k == 1) (.nat 0 2), busy := all }, { off := 27, size := 1, kind := only (k == 1) (.nat 8 32), dflt := 24, busy := all },
    { off := 28, size := 4, kind := .raw, dflt := 1000000, busy := all }, { off := 32, size := 1, kind := only (k == 1) (.nat 1 100), dflt := 1 },
    { off := 33, size := 1, kind := only (k == 1) (.nat 0 7), busy := all }, { off := 34, size := 1, kind := only (k == 1) (.nat 0 16), dflt := 6, busy := all },
    { off := 35, size := 1, kind := only (k == 1) (.nat 0 3), dflt := 2 }, { off := 36, size := 2, kind := .raw, dflt := 3, busy := all },
    { off := 38, size := 2, kind := only (k == 1) (.nat 0 2000) }, { off := 40, size := 4, kind := .raw },
    { off := 44, size := 4, kind := only (k == 4) .fin, dflt := (fk 1).toNat }, { off := 48, size := 4, kind := only (k == 4) .fin },
    { off := 52, size := 4, kind := only (k == 4) .fin, dflt := (fq 1 4).toNat }, { off := 56, size := 4, kind := only (k == 4) .fin, dflt := (fq 19 4).toNat },
    { off := 60, size := 2, kind := only (k == 4) (.nat 1 256), dflt := 8 }, { off := 62, size := 2, kind := .rsv }]

/-- The fields that NOZZLE and ROW share, offsets 16 to 63 (R219, R220). -/
def channelMap (row : Bool) : List PField := headMap ++ [
  { off := 16, size := 4, kind := .ref [tyGeopoint] false, busy := all },
  { off := 20, size := 4, kind := .ref (if row then [tyAxis] else [tySwitch, tySolenoid, tyPwmch]) true, busy := all },
  { off := 24, size := 4, kind := .ref (if row then [tyFeedback] else [tySwitch, tySolenoid]) false, busy := all },
  { off := 28, size := 2, kind := .nat 10 5000, dflt := 500, busy := all }, { off := 30, size := 2, kind := .nat 10 5000, dflt := 500, busy := all },
  { off := 32, size := 1, kind := .nat 0 (if row then 15 else 31), dflt := 0x0D, busy := all }, { off := 33, size := 1, kind := .nat 0 1 },
  { off := 34, size := 2, kind := .nat 0 1000, dflt := 50 }, { off := 36, size := 4, kind := .raw, dflt := 50000, busy := all },
  { off := 40, size := 4, kind := .raw, dflt := 30000, busy := all }, { off := 44, size := 4, kind := .raw, dflt := 2000, busy := all },
  { off := 48, size := 4, kind := .nat 0 1000000, dflt := 250000, busy := all }, { off := 52, size := 4, kind := .nat 0 1000000 },
  { off := 56, size := 4, kind := .flt (fq 1 100) fOne, dflt := (fq 1 8).toNat }, { off := 60, size := 2, kind := .raw, dflt := 10000 },
  { off := 62, size := 2, kind := .nat 0 4095, busy := all }]

/-- NOZZLE (R219). -/
def nozzleMap : List PField := channelMap false ++ [
  { off := 64, size := 4, kind := .ref [tyTable] false, busy := all }, { off := 68, size := 4, kind := .ref [tyLoop, tyFeedback] false, busy := all },
  { off := 72, size := 1, kind := .nat 0 15 }, { off := 73, size := 1, kind := .raw, dflt := 20 }, { off := 74, size := 1, kind := .nat 0 4 },
  { off := 75, size := 1, kind := .rsv }, { off := 76, size := 4, kind := .ref [tyTable] false }, { off := 80, size := 4, kind := .ref [tyTable] false },
  { off := 84, size := 4, kind := .ref [tyTable] false }, { off := 88, size := 4, kind := .ref [tyTable] false },
  { off := 92, size := 4, kind := .fin }, { off := 96, size := 4, kind := .fin }, { off := 100, size := 4, kind := .fin }, { off := 104, size := 4, kind := .fin }]

/-- ROW (R220). -/
def rowMap : List PField := channelMap true ++ [
  { off := 64, size := 2, kind := .raw, dflt := 1, busy := all }, { off := 66, size := 2, kind := .rsv },
  { off := 68, size := 4, kind := .fin, dflt := (fk 3200).toNat, busy := all }, { off := 72, size := 4, kind := .fin, busy := all },
  { off := 76, size := 4, kind := .raw, dflt := 100000, busy := all }, { off := 80, size := 2, kind := .nat 100 60000, dflt := 2000, busy := all },
  { off := 82, size := 2, kind := .nat 10 10000, dflt := 100, busy := all }, { off := 84, size := 4, kind := .rsv }]

/-- Cluster references of a count, from `o` on (R75). -/
def crefMap (o n : Nat) (tys : List Nat) : List PField :=
  (List.range n).map fun k => { off := o + 8 * k, size := 8, kind := .cref tys, busy := all }

/-- SECTION (R221). -/
def sectionMap (ps : List Byte) : List PField := headMap ++ [
  { off := 16, size := 1, kind := .nat 0 2, dflt := 2, busy := all }, { off := 17, size := 1, kind := .nat 0 1, busy := all },
  { off := 18, size := 1, kind := .nat 0 2 }, { off := 19, size := 1, kind := .nat 0 2 },
  { off := 20, size := 4, kind := .flt fZero fOne, dflt := (fq 1 2).toNat }, { off := 24, size := 4, kind := .flt fZero fOne, dflt := (fq 1 5).toNat },
  { off := 28, size := 4, kind := .flt fZero fOne }, { off := 32, size := 1, kind := .nat 0 2 }, { off := 33, size := 1, kind := .nat 0 2, dflt := 1 },
  { off := 34, size := 2, kind := .raw, dflt := 0xFFFF, busy := all }, { off := 36, size := 4, kind := .ref [tyWing] false, busy := all },
  { off := 40, size := 2, kind := .nat 0 500, dflt := 20 }, { off := 42, size := 1, kind := .nat 0 2 }, { off := 43, size := 1, kind := .nat 1 4, dflt := 1 },
  { off := 44, size := 4, kind := .fin }, { off := 48, size := 1, kind := .nat 1 48, busy := all }, { off := 49, size := 7, kind := .rsv }]
  ++ crefMap 56 (min 48 (u8 ps 48)) [tyNozzle, tyRow]

/-- GROUP (R91). -/
def groupMap (ps : List Byte) : List PField := [
  { off := 0, size := 1, kind := .nat 0 7, busy := all }, { off := 1, size := 1, kind := .nat 0 1 },
  { off := 2, size := 1, kind := .nat 1 64, busy := all }, { off := 3, size := 5, kind := .rsv }]
  ++ crefMap 8 (min 64 (u8 ps 2)) [tyNozzle, tyRow, tySection, tyLoop, tyAxis]

/-- CANPORT (R373): every field is fixed while ENABLED. -/
def canportMap : List PField := [
  { off := 0, size := 1, kind := .nat 0 3, busy := all }, { off := 1, size := 1, kind := .nat 0 1, busy := all },
  { off := 2, size := 1, kind := .nat 0 31, busy := all }, { off := 3, size := 1, kind := .nat 0 160, dflt := 128, busy := all },
  { off := 4, size := 1, kind := .nat 1 32, dflt := 4, busy := all }, { off := 5, size := 1, kind := .nat 1 128, dflt := 10, busy := all },
  { off := 6, size := 2, kind := .nat 2 256, dflt := 69, busy := all }, { off := 8, size := 1, kind := .nat 2 128, dflt := 10, busy := all },
  { off := 9, size := 1, kind := .nat 1 32, dflt := 1, busy := all }, { off := 10, size := 1, kind := .nat 1 32, dflt := 11, busy := all },
  { off := 11, size := 1, kind := .nat 1 16, dflt := 4, busy := all }, { off := 12, size := 1, kind := .nat 1 16, dflt := 4, busy := all },
  { off := 13, size := 1, kind := .nat 0 127, dflt := 12, busy := all }, { off := 14, size := 2, kind := .rsv }]


/-- The field map of a type; a GROUP's and a SECTION's depend on the block's count. -/
def paramMap (ty : Nat) (ps : List Byte) : List PField :=
  if ty = tySolenoid then solenoidMap
  else if ty = tySwitch then switchMap
  else if ty = tyPwmch then pwmchMap
  else if ty = tyWing then wingMap
  else if ty = tyGeopoint then geopointMap
  else if ty = tyLayer then layerMap
  else if ty = tyLoop then loopMap
  else if ty = tyAxis then axisMap
  else if ty = tyFeedback then feedbackMap ps
  else if ty = tyNozzle then nozzleMap
  else if ty = tyRow then rowMap
  else if ty = tySection then sectionMap ps
  else if ty = tyGroup then groupMap ps
  else if ty = tyCanport then canportMap
  else []

/-- The length of a type's parameter block. -/
def paramLen (ty : Nat) (ps : List Byte) : Nat :=
  if ty = tyTable then ps.length else (paramMap ty ps).foldl (fun n f => max n (f.off + f.size)) 0

/-- The default block of a type (R62, R63); a field without a default is 0 (log 12). -/
def paramDefaults (ty : Nat) : List Byte :=
  (paramMap ty []).foldl (fun ps f => putAt ps f.off (leBytes f.size f.dflt))
    (List.replicate (paramLen ty []) 0)

/-- The value of a field. -/
def fieldVal (ps : List Byte) (f : PField) : Nat := leNat (slice ps f.off f.size)

/-- The handles in the reference fields of a block, local ones only: the handle and whether it is driving. -/
def refsOf (ty : Nat) (ps : List Byte) : List (Nat × Bool) :=
  (paramMap ty ps).filterMap fun f =>
    match f.kind with
    | .ref _ dr => if fieldVal ps f = 0 then none else some (fieldVal ps f, dr)
    | _ => none

/-- The cluster references of a block: position and handle (R75). -/
def crefsOf (ty : Nat) (ps : List Byte) : List (Nat × Nat) :=
  (paramMap ty ps).filterMap fun f =>
    match f.kind with
    | .cref _ => some (u8 ps f.off, u32 ps (f.off + 4))
    | _ => none

/-- Some object other than the one at index `self` holds a driving reference to `h` (R73). -/
def drivenBy (s : State) (self h : Nat) : Bool :=
  s.objs.any fun o => o.idx != self && (refsOf o.typ o.params).contains (h, true)

/-- The handle fields of the kinematics block (R116): offset, handle and type. -/
def kinRefs (b : List Byte) : List (Nat × Nat × Nat) :=
  ([(40, u32 b 40, tyTable), (128, u32 b 128, tyFeedback), (140, u32 b 140, tyFeedback)]
    ++ (List.range (min 4 (u8 b 168))).map fun k =>
      (180 + 16 * k, u32 b (180 + 16 * k), if u8 b (176 + 16 * k) ≤ 2 then tyFeedback else tyCanport)).filter fun r => r.2.1 != 0

/-- Running state of a CANPORT. -/
def canOf (o : Obj) : CanRt := match o.rt with | .can r => r | _ => {}

/-- The tables that a filter list names (R377), and those of a port's filters and periodic buffers. -/
def filtTables (b : List Byte) : List Nat :=
  (List.range (b.length / 16)).filterMap fun k => if u32 b (16 * k + 12) ≠ 0 then some (u32 b (16 * k + 12)) else none

def canRefs (o : Obj) : List Nat :=
  let r := canOf o
  filtTables r.filt ++ (r.filtNext.map filtTables).getD [] ++ r.tx.filterMap fun x => x.cfg.map fun c => u32 c 12

/-- Some object references `h`, by a reference field or a cluster reference of this device (R70), or a TABLE_SWAP
towards it is pending. -/
def referenced (s : State) (h : Nat) : Bool :=
  s.objs.any (fun o => (refsOf o.typ o.params).any (fun r => r.1 == h)
    || (crefsOf o.typ o.params).any (fun r => r.1 == s.osl.position && r.2 == h))
  || s.osl.leadRefs.any (fun r => r.1 == h)
  || s.objs.any (fun o => h != 0 && (canRefs o).contains h) || (u32 s.isb.cfg 0 == h && h != 0)
  || (kinRefs s.kin.cfg).any (fun r => r.2.1 == h)
  || s.hif.deferred.any (fun x => x.op == 0x0303 && x.arg == h)

/-- Sections of the FS-216 block are SWITCH objects from this index on: no handle names them (log 24). -/
def legBase : Nat := 65536

/-- The switch line of legacy section `k` (R406). -/
def legLine (k : Nat) : Nat := k % 4 + 12 * (k / 4)

/-- The lines that the legacy block owns (R425). -/
def legOwns (s : State) (line : Nat) : Bool := s.leg.active && (List.range 16).any fun k => legLine k == line

/-- Indices that CREATE may take: 4,096 objects at most (R59, R60). -/
def freeIndices (s : State) : List Nat := (List.range 4096).filter fun i => !s.objs.any fun o => o.idx == i

/-- A free index of the device's choosing, which is open (log 7), with its generation. -/
def takeIndex (s : State) : Option ((Nat × Nat) × State) :=
  let free := freeIndices s
  if free.isEmpty then none
  else
    let v := takeFree s
    let i := free.getD (v.1 % free.length) 0
    some ((i, ((s.gens.find? fun g => g.1 == i).map (·.2)).getD 1), v.2)

/-! ## Errors of a block -/

/-- An error of a parameter block: its status and result bytes. -/
structure PErr where
  status : Nat
  result : List Byte := []
  deriving DecidableEq, Repr

def badParam : PErr := { status := stBadParam }
/-- REF_INVALID with the field's offset (R72). -/
def refInvalid (off : Nat) : PErr := { status := 0x0308, result := leBytes 2 off }

/-- A condition that must hold, else an error. -/
def req (ok : Bool) (e : PErr) : Option PErr := if ok then none else some e

/-- The first error of a list. -/
def firstErr : List (Option PErr) → Option PErr
  | [] => none
  | some e :: _ => some e
  | none :: r => firstErr r

/-- The further condition of a driving reference to a SWITCH alone, the target of a PWMCH: it is the SWITCH of the
channel's line (R72, R256). -/
def lineFits (tys : List Nat) (dr : Bool) (ps : List Byte) (t : Obj) : Bool :=
  !(tys == [tySwitch] && dr) || (decide (64 ≤ u8 ps 0 ∧ u8 ps 0 < 112) && u8 t.params 0 == u8 ps 0 - 64)

/-- The judgement of one field (R9, R72, R73). -/
def fieldBad (s : State) (self : Nat) (ps : List Byte) (f : PField) : Option PErr :=
  let v := fieldVal ps f
  let x : F32 := BitVec.ofNat 32 v
  match f.kind with
  | .rsv => req ((slice ps f.off f.size).all (· == 0)) badParam
  | .raw => none
  | .nat lo hi => req (decide (lo ≤ v ∧ v ≤ hi)) badParam
  | .int lo hi => req (decide (lo ≤ sx (8 * f.size) v ∧ sx (8 * f.size) v ≤ hi)) badParam
  | .flt lo hi => req (fIn lo hi x) badParam
  | .fin => req (fFinite x) badParam
  | .pos => req (fFinite x && fPos x) badParam
  | .cref tys =>
    if !zeroBytes ps (f.off + 1) 3 then some badParam
    else if 7 < u8 ps f.off then some badParam
    else if !tys.contains (hType (u32 ps (f.off + 4))) then some (refInvalid f.off)
    else if u8 ps f.off = s.osl.position then req (objOf s (u32 ps (f.off + 4))).isSome (refInvalid f.off)
    else none
  | .ref tys dr =>
    if v = 0 then none
    else match objOf s v with
      | none => some (refInvalid f.off)
      | some t =>
        if !(tys.contains t.typ && lineFits tys dr ps t) then some (refInvalid f.off)
        else if dr && (drivenBy s self v || (t.typ == tySwitch && u8 t.params 1 == 1)) then some { status := stInUse }
        else none

/-- Some other object of the type has a property. -/
def anyOther (s : State) (self ty : Nat) (p : Obj → Bool) : Bool :=
  s.objs.any fun o => o.idx != self && o.typ == ty && p o

/-! ## GPIO claims (R518, R519) -/

def claimOut : Nat := 0
def claimExcl : Nat := 1
def claimShared : Nat := 2

/-- The GPIO of an edge channel 112 to 127 (R519). -/
def echGpio (map c : Nat) : Nat := if bit map (c - 112) then 16 + (c - 112) else 32 + (c - 112)

/-- The claims of an object's block: GPIO and kind. A field that its owner does not use claims nothing (log 13). -/
def claimsOf (s : State) (ty : Nat) (ps : List Byte) : List (Nat × Nat) :=
  if ty = tyPwmch then (if 112 ≤ u8 ps 0 then [(echGpio s.pg.echMap (u8 ps 0), claimOut)] else [])
  else if ty = tySwitch then (if u8 ps 1 = 1 then [(u8 ps 2, claimShared)] else [])
  else if ty = tyAxis then
    (if u8 ps 16 = 0 then [u8 ps 20, u8 ps 21, u8 ps 22] else []).map (fun g => (g, claimOut))
      ++ ([u8 ps 46, u8 ps 47, u8 ps 48] ++ if u8 ps 17 = 2 then [u8 ps 102] else []).map (fun g => (g, claimShared))
  else if ty = tyFeedback then (if u8 ps 0 = 3 then [(u8 ps 1, claimExcl)] else [])
  else []

/-- The claims of a commutation table (R270, R518): shared, of the GPIOs that its source uses. -/
def commClaims (b : List Byte) : List (Nat × Nat) :=
  (if u8 b 0 = 1 then [u8 b 2, u8 b 5] else if u8 b 0 = 2 then [u8 b 2, u8 b 3, u8 b 4] else []).map fun g => (g, claimShared)

/-- The claims of the kinematics block: shared, of the data-ready and direction inputs that it uses (R116, R518). -/
def kinClaims (b : List Byte) : List (Nat × Nat) :=
  (if u8 b 36 = 1 ∧ u8 b 37 = 1 then [(u8 b 38, claimShared)] else []) ++ (if u8 b 114 = 2 then [(u8 b 115, claimShared)] else [])

/-- Claims that no object holds: commutation tables (those of group `but` left out), the wake mask, GPIO47 in FS-216
mode (R518). -/
def claimsDevice (s : State) (but : Nat) : List (Nat × Nat) :=
  (s.pg.groups.zipIdx.flatMap fun g => if g.2 = but then [] else (g.1.comm.map commClaims).getD [])
  ++ kinClaims s.kin.cfg
  ++ ((List.range 8).filter fun i => bit s.pwr.wakeMask i).map (fun i => (i, claimShared))
  ++ (if s.boot.mode = .fs216 then [(47, claimExcl)] else [])

/-- Claims held by anything but the object at index `self`. -/
def claimsHeld (s : State) (self : Nat) : List (Nat × Nat) :=
  ((s.objs.filter fun o => o.idx != self).flatMap fun o => claimsOf s o.typ o.params) ++ claimsDevice s 16

/-- Two claims of one GPIO exclude each other (R518). -/
def claimClash (a b : Nat × Nat) : Bool :=
  a.1 == b.1 && a.1 != 0xFF && (a.2 == claimOut || b.2 == claimOut || (a.2 == claimExcl && b.2 == claimExcl))

/-- New claims against those held, and against each other. -/
def claimsBad (held new : List (Nat × Nat)) : Bool :=
  new.any (fun a => held.any (claimClash a))
  || new.zipIdx.any fun x => new.zipIdx.any fun y => decide (x.2 < y.2) && claimClash x.1 y.1

/-! ## Job heads and slots (R78, R79, R22) -/

def jobPlacement (ps : List Byte) : Nat := u8 ps 0
def jobEngine (ps : List Byte) : Nat := u8 ps 1
def jobSlot (ps : List Byte) : Nat := u8 ps 2
def jobRate (ps : List Byte) : Nat := u8 ps 3
def jobFfLimit (ps : List Byte) : Nat := u8 ps 4
def jobRebalance (ps : List Byte) : Bool := u8 ps 5 == 1

/-- Types that own a job (R78). -/
def jobTypes : List Nat := [tyNozzle, tyRow, tySection, tyLoop, tyAxis]

/-- First slots that R79 allows. -/
def firstSlots (ty rate : Nat) : List Nat :=
  if ty = tySection then [7, 8, 9]
  else if ty = tyNozzle ∨ ty = tyRow then [10, 11, 12, 13, 14]
  else if ty = tyLoop ∧ rate = 0 then List.range 8
  else List.range 16

/-- Rates that R79 allows. -/
def rateAllowed (ty rate : Nat) : Bool :=
  if ty = tyLoop then decide (rate ≤ 4)
  else if ty = tyAxis then decide (1 ≤ rate ∧ rate ≤ 4)
  else rate == 1

/-- The job head (R78, R79): the rate, and the engine and slot of a pinned placement. -/
def headBad (ty : Nat) (ps : List Byte) : Option PErr :=
  if !jobTypes.contains ty then none
  else firstErr [
    req (rateAllowed ty (jobRate ps)) badParam,
    req (jobPlacement ps == 0 || decide (1 ≤ jobEngine ps ∧ jobEngine ps ≤ 23)) badParam,
    req (jobPlacement ps != 2 || (firstSlots ty (jobRate ps)).contains (jobSlot ps)) badParam]

/-! ## Rules across the fields of a block -/

/-- SWITCH (R289, R291, R296, R298): the fuse curve, the open-load range, the disposition, the line. -/
def switchBad (s : State) (self : Nat) (ps : List Byte) : Option PErr :=
  let th := u16 ps 24
  let curveOk (b : List Byte) : Bool :=
    tabType b == 1 && decide (2 ≤ tabCount b ∧ tabCount b ≤ 16) && (List.range (tabCount b)).all fun k => fPos (curveY b k)
  let driven := anyOther s self tyPwmch fun o => u8 o.params 0 == 64 + u8 ps 0
  let me := (objAt s self).map handleOf
  firstErr [
    req (u32 ps 8 = 0 || ((tableOf s (u32 ps 8)).map curveOk).getD false) badParam,
    req (if u8 ps 5 = 2 then decide (4 ≤ th ∧ th ≤ 100) else if u8 ps 5 = 1 then decide (40 ≤ th ∧ th ≤ 1000) else decide (4 ≤ th ∧ th ≤ 1000)) badParam,
    req (u8 ps 3 = 0 || (u8 ps 3 == 2 && u8 ps 1 == 0 && !driven)) badParam,
    req (!anyOther s self tySwitch fun o => u8 o.params 0 == u8 ps 0) { status := stInUse },
    req (u8 ps 1 = 0 || !((me.map fun h => drivenBy s self h).getD false)) { status := stInUse }]

/-- PWMCH (R255, R256, R274, R275). -/
def pwmchBad (s : State) (self : Nat) (ps : List Byte) : Option PErr :=
  let c := u8 ps 0
  let pair := u8 ps 1 == 1
  let fl := u8 ps 35
  let safe := u8 ps 36
  let uses (o : Obj) (x : Nat) : Bool := u8 o.params 0 == x || (u8 o.params 1 == 1 && u8 o.params 0 + 1 == x)
  firstErr [
    req (!(decide (64 ≤ c ∧ c < 112) && legOwns s (c - 64))) { status := stInUse },
    req (!pair || (c % 2 == 0 && decide (c < 64))) badParam,
    req (u32 ps 4 != 0 || !decide (64 ≤ c ∧ c < 112)) badParam,
    req (decide (u16 ps 24 ≤ u16 ps 28 ∧ u16 ps 26 ≤ u16 ps 28)) badParam,
    req (pair || (!bit fl 4 && !bit fl 5)) badParam,
    req (bits safe 0 2 != 3 && bits safe 2 2 != 3 && (decide (c < 64) || (bits safe 0 2 != 2 && bits safe 2 2 != 2))) badParam,
    req (u8 ps 37 == 0 || decide (c < 64)) badParam,
    req (!(pair && bits safe 0 2 == 1 && bits safe 2 2 == 1)) { status := 0x0802 },
    req (!anyOther s self tyPwmch fun o => uses o c || (pair && uses o (c + 1))) { status := stInUse }]

/-- SOLENOID (R321). -/
def solenoidBad (s : State) (self : Nat) (ps : List Byte) : Option PErr :=
  let iTrip := f32 ps 36
  firstErr [
    req (fLe (f32 ps 24) (f32 ps 16) && fLe (f32 ps 16) iTrip) badParam,
    req (!fLt iTrip (f32 ps 8)) badParam,
    req (!fLt (fMul (fq 1 2) (f32 ps 24)) (f32 ps 28)) badParam,
    -- i_trip ≤ 0.95 × 200 mV / rshunt, in exact arithmetic: i_trip × rshunt ≤ 190
    req (decide (fVal iTrip * fVal (f32 ps 4) ≤ 190 * 2 ^ 298)) badParam,
    req (!anyOther s self tySolenoid fun o => u8 o.params 0 == u8 ps 0 && u8 o.params 1 == u8 ps 1) { status := stInUse }]

/-- The wing of an id. -/
def wingById (s : State) (self id : Nat) : Option Obj :=
  (objsOf s tyWing).find? fun o => o.idx != self && u8 o.params 0 == id

/-- Depth of a wing below the implement: at most two levels; 3 stands for deeper and for a cycle (R140). -/
def wingDepth (s : State) (self : Nat) : Nat → Nat → Nat
  | 0, _ => 3
  | fuel + 1, parent =>
    if parent = 0xFF then 1
    else match wingById s self parent with
      | none => 2
      | some w => 1 + wingDepth s self fuel (u8 w.params 1)

/-- WING (R140): the id, the parent, no cycle, at most two levels, also below the wings that hinge on it. -/
def wingBad (s : State) (self : Nat) (ps : List Byte) : Option PErr :=
  let id := u8 ps 0
  let par := u8 ps 1
  let child := anyOther s self tyWing fun o => u8 o.params 1 == id
  firstErr [
    req (par == 0xFF || decide (par < 8)) badParam,
    req (wingById s self id).isNone badParam,
    req (par != id) badParam,
    req (decide (wingDepth s self 3 par ≤ 2) && (par == 0xFF || !child)) badParam]

/-- GEOPOINT (R142): a member has no tractor points. -/
def geopointBad (s : State) (ps : List Byte) : Option PErr :=
  req (u8 ps 0 != 0 || s.osl.role != 2) badParam

/-- LAYER (R153, R154): sizes, the directory pointer, the kind's own fields, one layer of each kind. -/
def layerBad (s : State) (self : Nat) (ps : List Byte) : Option PErr :=
  let cov := u8 ps 0 == 1
  let size := u16 ps 4
  let ptr := u64 ps 24
  let curve (h : Nat) : Bool := ((tableOf s h).map fun b => tabType b == 1).getD false
  firstErr [
    req (cov || u8 ps 1 != 1) badParam,
    req (if cov then size % 25 == 0 && decide (25 ≤ size ∧ size ≤ 1000) else size % 500 == 0 && decide (500 ≤ size ∧ size ≤ 50000)) badParam,
    req (decide (u16 ps 20 * u16 ps 22 ≤ 1048576)) badParam,
    req (ptr % 64 == 0 && (ptr == 0) == bit (u8 ps 3) 0 && (!bit ptr 63 || decide (ptr % 2 ^ 63 < 0x10000))) badParam,
    req (decide (i32 ps 48 < i32 ps 44)) badParam,
    req (u16 ps 52 == 0 || decide (100 ≤ u16 ps 52)) badParam,
    req (if cov then u8 ps 54 == 0 else u8 ps 54 != 0) badParam,
    req (cov || u32 ps 56 == 0 || curve (u32 ps 56)) (refInvalid 56),
    req (cov || u32 ps 56 != 0 || !((objAt s self).map isEnabled).getD false) badParam,
    req (!anyOther s self tyLayer fun o => u8 o.params 0 == u8 ps 0) { status := 0x0503 }]

/-- A handle names a curve table. -/
def isCurve (s : State) (h : Nat) : Bool := ((tableOf s h).map fun b => tabType b == 1).getD false

/-- One law block of a LOOP (R229). -/
def lawBad (s : State) (o : Nat) (ps : List Byte) : Option PErr :=
  let prof := fPos (f32 ps (o + 52))
  firstErr [
    req (!fEq (f32 ps (o + 8)) fZero) badParam,
    req (u32 ps (o + 36) == 0 || isCurve s (u32 ps (o + 36))) (refInvalid (o + 36)),
    req (u32 ps (o + 40) == 0 || isCurve s (u32 ps (o + 40))) (refInvalid (o + 40)),
    req (!prof || (fPos (f32 ps (o + 56)) && fPos (f32 ps (o + 60)))) badParam]

/-- LOOP (R228, R229). -/
def loopBad (s : State) (ps : List Byte) : Option PErr :=
  firstErr [
    req (u8 ps 20 == 0 || hType (u32 ps 16) == tyAxis) badParam,
    lawBad s 88 ps, lawBad s 168 ps]

/-- AXIS (R337, R345): its pins, its standstill option, its homing table. -/
def axisBad (s : State) (ps : List Byte) : Option PErr :=
  let k := u8 ps 16
  let pin (o : Nat) : Bool := decide (u8 ps o < 48) || u8 ps o == 0xFF
  let st := u8 ps 23
  firstErr [
    req (k != 0 || decide (u8 ps 20 < 48)) badParam,
    req (pin 21 && pin 22 && pin 46 && pin 47 && pin 48 && pin 102) badParam,
    req (decide (u8 ps 100 < 16) || u8 ps 100 == 0xFF) badParam,
    req (decide (u8 ps 101 < 8) || u8 ps 101 == 0xFF) badParam,
    req (st == 0 || k == 1 || (st == 2 && k == 0)) badParam,
    req (u32 ps 52 == 0 || ((tableOf s (u32 ps 52)).map fun b => tabType b == 2).getD false) (refInvalid 52)]

/-- The encoder input that a FEEDBACK takes: of kind 0 its own, of kind 1 that of its port (R350). -/
def encInput (ps : List Byte) : Option Nat :=
  if u8 ps 0 = 0 then some (u8 ps 1) else if u8 ps 0 = 1 then some (12 + u8 ps 1) else none

/-- Bits of a serial frame at most, for the check that it ends in time (R357 to R359): an SSI frame's clocks; a BiSS C
frame's start bit comes after at most 64 clock periods. -/
def serialClocks (ps : List Byte) : Nat :=
  if u8 ps 26 = 2 then 64 + 2 + u8 ps 27 + (if bit (u8 ps 35) 1 then 2 else 0) + u8 ps 34
  else u8 ps 33 + u8 ps 27 + (if bit (u8 ps 35) 0 then 1 else 0)

/-- FEEDBACK (R350, R357, R367). -/
def feedbackBad (s : State) (self : Nat) (ps : List Byte) : Option PErr :=
  let k := u8 ps 0
  let n := if k = 0 ∨ k = 4 then 16 else if k = 1 then 4 else if k = 2 then 8 else 48
  let clk := u32 ps 28
  let same (o : Obj) : Bool :=
    (u8 o.params 0 == k && u8 o.params 1 == u8 ps 1) || ((encInput o.params).isSome && encInput o.params == encInput ps)
  firstErr [
    req (decide (u8 ps 1 < n)) badParam,
    req (k != 1 || decide (100000 ≤ clk ∧ clk ≤ if u8 ps 26 = 2 then 10000000 else 2000000)) badParam,
    req (k != 4 || !fEq (f32 ps 44) fZero) badParam,
    req (k != 4 || fLt (f32 ps 52) (f32 ps 56)) badParam,
    req (!anyOther s self tyFeedback same) { status := stInUse }]

/-- The fields NOZZLE and ROW share (R219). -/
def channelBad (ps : List Byte) : Option PErr :=
  req (decide (500 ≤ u32 ps 44 ∧ u32 ps 44 ≤ u32 ps 48)) badParam

/-- NOZZLE (R212, R219): the kind of out follows the pulsed flag; the curves. -/
def nozzleBad (s : State) (ps : List Byte) : Option PErr :=
  let pulsed := bit (u8 ps 32) 4
  let n := u8 ps 74
  let out := u32 ps 20
  firstErr [
    channelBad ps,
    req (out == 0 || (hType out == tyPwmch) == pulsed) (refInvalid 20),
    req (!pulsed || decide (1 ≤ n)) badParam,
    req ((List.range (n - 1)).all fun k => fLt (f32 ps (92 + 4 * k)) (f32 ps (96 + 4 * k))) badParam,
    req (u32 ps 64 == 0 || isCurve s (u32 ps 64)) (refInvalid 64),
    (List.range 4).findSome? fun k => req (u32 ps (76 + 4 * k) == 0 || isCurve s (u32 ps (76 + 4 * k))) (refInvalid (76 + 4 * k))]

/-- A unit is allowed for a channel type (R211). -/
def unitFits (ty unit : Nat) : Bool := if ty = tyNozzle then decide (unit ≤ 2) else decide (3 ≤ unit)

/-- SECTION (R201, R204, R221): thresholds, the Task Controller section, members of no other section, their unit. -/
def sectionBad (s : State) (self : Nat) (ps : List Byte) : Option PErr :=
  let ms := crefsOf tySection ps
  firstErr [
    req (fLt (f32 ps 24) (f32 ps 20)) badParam,
    req (u8 ps 16 != 1 || decide (u16 ps 34 ≤ 255)) badParam,
    req (u16 ps 34 == 0xFFFF || decide (u16 ps 34 ≤ 255)) badParam,
    req (ms.zipIdx.all fun x => ms.zipIdx.all fun y => x.2 == y.2 || x.1 != y.1) { status := stInUse },
    req (!anyOther s self tySection fun o => (crefsOf tySection o.params).any ms.contains) { status := stInUse },
    req (ms.all fun m => unitFits (hType m.2) (u8 ps 43)) { status := 0x0608 }]

/-- GROUP (R91): its ID, members of no other group; the status for one that another group has is a DESIGN CHOICE (log 25):
IN_USE. -/
def groupBad (s : State) (self : Nat) (ps : List Byte) : Option PErr :=
  let ms := crefsOf tyGroup ps
  firstErr [
    req (!anyOther s self tyGroup fun o => u8 o.params 0 == u8 ps 0) badParam,
    req (ms.zipIdx.all fun x => ms.zipIdx.all fun y => x.2 == y.2 || x.1 != y.1) { status := stInUse },
    req (!anyOther s self tyGroup fun o => (crefsOf tyGroup o.params).any ms.contains) { status := stInUse }]

/-- CANPORT (R373): one object for a port. -/
def canportBad (s : State) (self : Nat) (ps : List Byte) : Option PErr :=
  req (!anyOther s self tyCanport fun o => u8 o.params 0 == u8 ps 0) { status := stInUse }

--CROSS--

/-- The rules of a type across its fields. -/
def crossBad (s : State) (self ty : Nat) (ps : List Byte) : Option PErr :=
  if ty = tySolenoid then solenoidBad s self ps
  else if ty = tySwitch then switchBad s self ps
  else if ty = tyPwmch then pwmchBad s self ps
  else if ty = tyWing then wingBad s self ps
  else if ty = tyGeopoint then geopointBad s ps
  else if ty = tyLayer then layerBad s self ps
  else if ty = tyLoop then loopBad s ps
  else if ty = tyAxis then axisBad s ps
  else if ty = tyFeedback then feedbackBad s self ps
  else if ty = tyNozzle then nozzleBad s ps
  else if ty = tyRow then channelBad ps
  else if ty = tySection then sectionBad s self ps
  else if ty = tyGroup then groupBad s self ps
  else if ty = tyCanport then canportBad s self ps
  else none

/-- A block may not drive one object through two of its fields (R73). -/
def twiceDriven (ty : Nat) (ps : List Byte) : Option PErr :=
  let ds := (refsOf ty ps).filter (·.2)
  req (ds.eraseDups.length == ds.length) { status := stInUse }

/-- The judgement of a whole block: its fields in ascending order, then the rules across them, then its GPIO claims
(log 11). -/
def blockBad (s : State) (self ty : Nat) (ps : List Byte) : Option PErr :=
  match (paramMap ty ps).findSome? (fieldBad s self ps) with
  | some e => some e
  | none => match ((headBad ty ps).or (crossBad s self ty ps)).or (twiceDriven ty ps) with
    | some e => some e
    | none => req (!claimsBad (claimsHeld s self) (claimsOf s ty ps)) { status := stInUse }

/-- A field that an ENABLED object does not allow to change would change (R63). -/
def busyBad (o : Obj) (ps : List Byte) : Bool :=
  (paramMap o.typ o.params).any fun f => f.busy != 0 && (fieldVal o.params f &&& f.busy) != (fieldVal ps f &&& f.busy)

end Sys2Proof.Machine
end

