-- ==== Sys2Proof/Machine/Outputs.lean ====
section
/-! DEFINITION. The output stage (08, R262 to R274; 09, R282 to R297; 10, R306 to R317): the levels of PWM channels,
switch lines and solenoid gates, their gates, the safe force, and what an object's fault action does to them. -/

namespace Sys2Proof.Machine

/-! ## Running states -/

def pwmOf (o : Obj) : PwmRt := match o.rt with | .pwm r => r | _ => {}
def swOf (o : Obj) : SwRt := match o.rt with | .sw r => r | _ => {}
def solOf (o : Obj) : SolRt := match o.rt with | .sol r => r | _ => {}

def updPwm (i : Nat) (f : PwmRt → PwmRt) (s : State) : State := updObj i (fun o => { o with rt := .pwm (f (pwmOf o)) }) s
def updSw (i : Nat) (f : SwRt → SwRt) (s : State) : State := updObj i (fun o => { o with rt := .sw (f (swOf o)) }) s
def updSol (i : Nat) (f : SolRt → SolRt) (s : State) : State := updObj i (fun o => { o with rt := .sol (f (solOf o)) }) s

/-! ## Learning windows -/

def chanOf (o : Obj) : ChRt := match o.rt with | .chan r => r | _ => {}
def updChan (i : Nat) (f : ChRt → ChRt) (s : State) : State := updObj i (fun o => { o with rt := .chan (f (chanOf o)) }) s

/-- The sense channel of a NOZZLE: its own field, else its out, and none for a PWMCH; of a ROW its field (R219, R220). -/
def chSense (s : State) (o : Obj) : Nat :=
  if u32 o.act 24 ≠ 0 then u32 o.act 24
  else if o.typ = tyNozzle ∧ hType (u32 o.act 20) ≠ tyPwmch then u32 o.act 20
  else 0

/-- An attribution failure during the open windows of a channel: the first found applies (R192). -/
def chReason (i reason : Nat) (s : State) : State :=
  updChan i (fun r => { r with windows := r.windows.map fun w => if w.reason = 0 then { w with reason := reason } else w }) s

/-- Protection on a sense channel gives its reason to the open windows of the channels that learn from it (R192). -/
def senseReason (h reason : Nat) (s : State) : State :=
  (s.objs.filter fun o => o.typ == tyNozzle && chSense s o == h).foldl (fun s o => chReason o.idx reason s) s

/-! ## Flow intervals (R189) -/

def chOut (o : Obj) : Nat := u32 o.act 20

/-- Ticks of a latency in 2^-96 µs. -/
def fxTicks (l : Fx) : Nat := (fxToInt 70 (l * usTicks)).toNat

/-- A flow interval starts or ends: the status keeps it, and the marks have it to tell (R167). -/
def flowMark (i t : Nat) (on : Bool) (s : State) : State :=
  updChan i (fun r => { r with
    flowing := on
    tOn := if on then t else r.tOn
    tOff := if on then r.tOff else t
    flows := r.flows ++ [(t, on)] }) s

/-- The open interval ends: the output has gone off at the present instant (R189). -/
def flowEnd (o : Obj) (s : State) : State :=
  let r := chanOf o
  if r.flowing then flowMark o.idx (s.gtc + fxTicks r.latOff + u32 o.act 52 * usTicks) false s else s

/-- The channels whose output an object is, itself or as the line of their PWMCH. -/
def channelsOn (s : State) (h : Nat) : List Obj :=
  s.objs.filter fun c => (c.typ == tyNozzle || c.typ == tyRow)
    && (chOut c == h || ((objOf s (chOut c)).map fun p => p.typ == tyPwmch && u32 p.act 4 == h).getD false)

/-- An object is held off by more than its command: the channels that are on through it end their intervals (R189). -/
def forcedOff (h : Nat) (s : State) : State :=
  ((channelsOn s h).filter fun c => (chanOf c).output).foldl (fun s c => flowEnd c s) s

/-! ## Sources -/

/-- The object that holds the driving reference to `h` (R73). -/
def driverOf (s : State) (h : Nat) : Option Obj := s.objs.find? fun o => (refsOf o.typ o.params).contains (h, true)

/-- The island's safe force is asserted (R273). -/
def safeForced (s : State) : Bool := s.isl.safeFault || s.isl.safeDebug || s.isl.safeReset

/-! ## PWM channels (R259 to R274) -/

def pwChan (ps : List Byte) : Nat := u8 ps 0
def pwPair (ps : List Byte) : Bool := u8 ps 1 == 1
def pwGroup (ps : List Byte) : Nat := u8 ps 2
def pwFlags (ps : List Byte) : Nat := u8 ps 35
def pwAdaptive (ps : List Byte) : Bool := pwPair ps && bit (pwFlags ps) 4
def pwDisp (ps : List Byte) : Nat := u8 ps 37

def pgGroup (s : State) (g : Nat) : PgGroup := s.pg.groups.getD g {}
def updGroup (g : Nat) (f : PgGroup → PgGroup) (s : State) : State :=
  { s with pg := { s.pg with groups := s.pg.groups.set g (f (pgGroup s g)) } }

/-- The PWMCH that serves edge channel `c`, as H, single or L. -/
def pwmOnChan (s : State) (c : Nat) : Option Obj :=
  (objsOf s tyPwmch).find? fun o => pwChan o.params == c || (pwPair o.params && pwChan o.params + 1 == c)

/-- The safe levels of the block (R275): H or single, and L, active. -/
def pwSafe (ps : List Byte) : Bool × Bool :=
  (bits (u8 ps 36) 0 2 == 1, pwPair ps && bits (u8 ps 36) 2 2 == 1)

/-- The levels of the disposition (R273): SAFE_LEVEL only on PWM pins. -/
def pwDispLevels (ps : List Byte) : Bool × Bool :=
  if pwDisp ps = 1 ∧ pwChan ps < 64 then pwSafe ps else (false, false)

/-- The mask in force on a pair (R270, R271): 0 PASS, 1 LOW, 2 FLOAT, 3 HIGH. -/
def commMask (s : State) (ps : List Byte) : Nat :=
  let g := pgGroup s (pwGroup ps)
  match g.comm with
  | none => 0
  | some b =>
    if !(pwPair ps && bit (pwFlags ps) 5) then 0
    else if g.floating then 2
    else bits (u64 b (16 + 8 * g.step)) (pwChan ps) 2

/-- What the sources below the cycle trip ask of a channel (R272, ranks 4 to 6): H and L. -/
def pwLower (s : State) (ps : List Byte) (r : PwmRt) : Bool × Bool :=
  let m := commMask s ps
  if m = 1 then (false, true)
  else if m = 2 then (false, false)
  else if m = 3 then (true, false)
  else if !r.gate then (false, false)
  else if r.force.isSome then (true, false)
  else (r.cmp, pwPair ps && !r.cmp && !r.lOff)

/-- What the sources ask of a channel by the ranks of R272: H, L, and whether it is forced without dead time. -/
def pwWant (s : State) (o : Obj) (r : PwmRt) : (Bool × Bool) × Bool :=
  let ps := o.act
  if s.isl.estopLatch || s.pwr.linesOff then ((false, false), true)
  else if safeForced s then (if o.ost == .disabled then (false, false) else pwDispLevels ps, true)
  else if o.ost == .disabled then ((false, false), true)
  else if r.tripped then (pwSafe ps, true)
  else if r.dispHeld then (pwDispLevels ps, true)
  else if o.ost == .faulted then ((false, false), true)
  else if r.latched ≠ 0 || r.await then (pwSafe ps, true)
  else
    let w := pwLower s ps r
    if r.cyc then
      ((false, if commMask s ps ≠ 0 then w.2 else pwPair ps && r.gate && !r.lOff), false)
    else (w, !r.gate && commMask s ps == 0)

/-- A source above the compares holds the channel (R272, ranks 1 to 5). -/
def pwHeld (s : State) (o : Obj) (r : PwmRt) : Bool :=
  s.isl.estopLatch || s.pwr.linesOff || safeForced s || o.ost != .enabled || r.latched != 0 || r.await || r.cyc
    || commMask s o.act != 0 || !r.gate || r.force.isSome

/-- The safe levels of the block are what holds a channel (R267, R273). -/
def pwAtSafe (s : State) (o : Obj) (r : PwmRt) : Bool :=
  let disp := decide (pwDisp o.act = 1 ∧ pwChan o.act < 64)
  if s.isl.estopLatch || s.pwr.linesOff || o.ost == .disabled then false
  else if safeForced s then disp
  else if r.tripped then true
  else if r.dispHeld then disp
  else o.ost != .faulted && (r.latched != 0 || r.await)

/-- A ball's level. -/
inductive Ball where
  | low | high | floating
  deriving DecidableEq, Repr

/-- The level of PWM pin `c` (R274): the side's level through its invert bit, which the island keeps, high impedance where the safe
levels ask it, and the inactive level of a pin that no PWMCH serves. -/
def pwmBall (s : State) (c : Nat) : Ball :=
  let inv := bit (s.isl.dispPwm.getD c 0) 3
  let level (on : Bool) : Ball := if on != inv then .high else .low
  match pwmOnChan s c with
  | none => level false
  | some o =>
    let r := pwmOf o
    let isL := pwPair o.act && c % 2 == 1
    if pwAtSafe s o r ∧ bits (u8 o.act 36) (if isL then 2 else 0) 2 = 2 then .floating
    else level (((if isL then r.l else r.h).map fun t => decide (t ≤ s.gtc)).getD false)

/-- A PWMCH is held inactive by more than its gate and compares: ranks 1 to 4, a period's cycle trip apart. -/
def pwForced (s : State) (o : Obj) : Bool :=
  let r := pwmOf o
  (s.isl.estopLatch || s.pwr.linesOff || safeForced s || !isEnabled o || r.tripped || r.dispHeld || r.latched != 0 || r.await)
    && !(pwWant s o r).1.1

/-- The dead time of a direction with adaptive dead time off (R263, R264). -/
def pwDead (ps : List Byte) (rising : Bool) : Nat := u16 ps (if rising then 24 else 26)

/-- One side goes active: at once for a single channel or a forced level, else after the dead time (R263, R264);
blanking starts anew at the turn-on (R268). -/
def pwSideOn (now : Nat) (ps : List Byte) (hard rising : Bool) (r : PwmRt) : PwmRt :=
  let put (t : Nat) : PwmRt :=
    if rising then { r with h := some t, blankUntil := if hard then r.blankUntil else t + u16 ps 32 }
    else { r with l := some t, blankUntil := if hard then r.blankUntil else t + u16 ps 32 }
  if (if rising then r.h else r.l).isSome then r
  else if hard || !pwPair ps then put now
  else if pwAdaptive ps then
    (if (r.turn.map (·.1)) = some rising then r else { r with turn := some (rising, now) })
  else put (now + pwDead ps rising)

/-- One side goes inactive, at once; a dead time toward it ends (R263, R272). -/
def pwSideOff (now : Nat) (ps : List Byte) (hard rising : Bool) (r : PwmRt) : PwmRt :=
  let r := if (r.turn.map (·.1)) = some rising then { r with turn := none } else r
  let cur := if rising then r.h else r.l
  match cur with
  | none => r
  | some t =>
    let r := if t ≤ now then
        { r with lastEdge := now, blankUntil := if hard then r.blankUntil else now + u16 ps 32 } else r
    if rising then { r with h := none } else { r with l := none }

/-- The incoming side goes active at `t`, its dead time measured; blanking starts anew (R264, R268). -/
def pwTurned (t : Nat) (ps : List Byte) (rising : Bool) (start : Nat) (r : PwmRt) : PwmRt :=
  let r := { r with turn := none, blankUntil := t + u16 ps 32 }
  if rising then { r with h := some t, dtRise := t - start, measR := true } else { r with l := some t, dtFall := t - start, measF := true }

/-- The instant at which SWNp, having reached its level at `t`, lets the incoming side go active (R264). -/
def pwTurnAt (ps : List Byte) (rising : Bool) (start t : Nat) : Nat :=
  clampNat (start + pwDead ps rising) (start + u16 ps 28) (t + u16 ps 30)

/-- A transition that starts with SWNp at the level already needs no other sign of it. -/
def pwSwnThere (now : Nat) (ps : List Byte) (swn : Bool) (r : PwmRt) : PwmRt :=
  match r.turn with
  | some (rising, start) => if start = now ∧ swn = rising then pwTurned (pwTurnAt ps rising now now) ps rising now r else r
  | none => r

/-- Drive a channel to what its sources ask: the side that goes inactive first (R263). -/
def pwDrive (now : Nat) (ps : List Byte) (swn : Bool) (w : (Bool × Bool) × Bool) (r : PwmRt) : PwmRt :=
  let r := if w.1.1 then r else pwSideOff now ps w.2 true r
  let r := if w.1.2 then r else pwSideOff now ps w.2 false r
  let r := if w.1.1 then pwSideOn now ps w.2 true r else r
  pwSwnThere now ps swn (if w.1.2 then pwSideOn now ps w.2 false r else r)

/-- A side's level at present: active from its GTC on. -/
def sideAct (now : Nat) (x : Option Nat) : Bool := (x.map fun t => decide (t ≤ now)).getD false

/-! ## Switch lines (R282 to R297) -/

def swLine (ps : List Byte) : Nat := u8 ps 0
def swSrc (ps : List Byte) : Nat := u8 ps 1

/-- The SWITCH of a line. -/
def swOnLine (s : State) (k : Nat) : Option Obj := (objsOf s tySwitch).find? fun o => swLine o.params == k

/-- The group of a line (R280). -/
def lineGroup (k : Nat) : Nat := k / 12

/-- The line's control level (R283). -/
def swLevel (s : State) (o : Obj) : Bool :=
  if swSrc o.act = 1 then (swOf o).inAct
  else match pwmOnChan s (64 + swLine o.act) with
    | some p => (pwmOf p).h.isSome
    | none => (swOf o).gate

/-- The group's supply is in lockout (R282). -/
def groupUvlo (s : State) (k : Nat) : Bool := s.pwr.vbatUvlo.getD (lineGroup k) false

/-- Something else than its control line holds a SWITCH's output off (R282 to R296). -/
def swBlocked (s : State) (o : Obj) : Bool :=
  let r := swOf o
  !isEnabled o || r.dead || r.latch != 0 || r.retryAt.isSome || r.retryWait || r.dtOff
    || groupUvlo s (swLine o.act) || s.isl.estopLatch || safeForced s || s.pwr.linesOff

/-- The output follows its control line unless something holds it off. -/
def swWant (s : State) (o : Obj) : Bool := swLevel s o && !swBlocked s o

/-- Bring a SWITCH's output to what its control line and protections ask; a turn-on starts the inrush window and
the short-circuit blanking (R284). -/
def swRefresh (i : Nat) (s : State) : State :=
  match objAt s i with
  | none => s
  | some o =>
    let w := swWant s o
    let r := swOf o
    let s := if w == r.out then s
      else updSw i (fun r => { r with out := w, limAt := none, turnOn := if w then s.gtc else r.turnOn }) s
    if swBlocked s o then forcedOff (handleOf o) s else s

/-- An on command (R284, R288): the retry budget is renewed, and the control line is followed again unless a latch is set. -/
def swOnCmd (i : Nat) (s : State) : State :=
  match objAt s i with
  | none => s
  | some o =>
    if (swOf o).cmd then s
    else swRefresh i (updSw i (fun r => { r with
      cmd := true, onCmds := satInc 32 r.onCmds, lastOn := s.gtc, iPeak := 0
      retries := u8 o.act 4, dead := r.latch != 0 }) s)

/-- An off command: a retry wait ends and its budget with it (R288). -/
def swOffCmd (i : Nat) (s : State) : State :=
  swRefresh i (updSw i (fun r => { r with cmd := false, retryAt := none, retryWait := false }) s)

/-! ## Refreshing channels -/

/-- Bring one PWMCH, and the switch line it drives, to what the sources ask. Where a higher source holds the channel no
compare edge is replayed: the period runs on from the level that source left (R272). -/
def pwmRefresh (i : Nat) (s : State) : State :=
  match objAt s i with
  | none => s
  | some o =>
    let s := updPwm i (fun r =>
      let w := pwWant s o r
      let d := pwDrive s.gtc o.act (s.pg.swn.getD (pwChan o.act / 2) false) w r
      if pwHeld s o r then { d with cmp := w.1.1 } else d) s
    let s := if pwForced s o then forcedOff (handleOf o) s else s
    if 64 ≤ pwChan o.act ∧ pwChan o.act < 112 then
      match objOf s (u32 o.act 4) with
      | some w => swRefresh w.idx s
      | none => s
    else s

/-- Close a PWMCH's gate: its force ends and its carry clears (R262, R265); a gate edge starts blanking anew (R268). -/
def pwmGateClose (i : Nat) (s : State) : State :=
  let tgt := ((objAt s i).map fun o => u32 o.act 4).getD 0
  let blank := ((objAt s i).map fun o => u16 o.act 32).getD 0
  let s := pwmRefresh i (updPwm i (fun r => { r with
    gate := false, force := none, carry := 0, blankUntil := if r.gate then s.gtc + blank else r.blankUntil }) s)
  match objOf s tgt with
  | some w => swOffCmd w.idx s
  | none => s

/-- Open a PWMCH's gate; a pulsed NOZZLE forces the active level until `force` at the earliest (R262). The opening is
the on command of a switch line it drives (R284). -/
def pwmGateOpen (i : Nat) (force : Option Nat) (s : State) : State :=
  match objAt s i with
  | none => s
  | some o =>
    if (pwmOf o).shut || !isEnabled o then s
    else
      let s := updPwm i (fun r => { r with gate := true, force := force, blankUntil := s.gtc + u16 o.act 32 }) s
      let s := match objOf s (u32 o.act 4) with
        | some w => swOnCmd w.idx s
        | none => s
      pwmRefresh i s

/-! ## Solenoid channels (R306 to R317) -/

def solBank (ps : List Byte) : Nat := u8 ps 0
/-- Phases 2 to 4 are active (R312). -/
def solActive (r : SolRt) : Bool := decide (2 ≤ r.phase ∧ r.phase ≤ 4)

/-- The SOLENOIDs of a bank. -/
def bankObjs (s : State) (b : Nat) : List Obj := (objsOf s tySolenoid).filter fun o => solBank o.params == b

/-- Channels of a bank that are active. -/
def bankActive (s : State) (b : Nat) : List Obj := (bankObjs s b).filter fun o => solActive (solOf o)

/-- HSGb changes. -/
def setHs (b : Nat) (on : Bool) (s : State) : State :=
  if s.boost.hs.getD b false == on then s
  else { s with boost := { s.boost with hs := s.boost.hs.set b on, hsAt := s.boost.hsAt.set b s.gtc } }

/-- LSGn changes. -/
def setLs (i : Nat) (on : Bool) (s : State) : State :=
  updSol i (fun r => if r.ls == on then r else { r with ls := on, lsAt := s.gtc }) s

/-- Give a reason to a solenoid's open window, the first one found, and to those that learn from it (R192, R315). -/
def windowReason (i : Nat) (reason : Nat) (s : State) : State :=
  let s := match objAt s i with
    | some o => senseReason (handleOf o) reason s
    | none => s
  updSol i (fun r => { r with window := r.window.map fun w => if w.reason = 0 then { w with reason := reason } else w }) s

/-- Q_Ln turns off in an off edge's window: a signature after that is not one (R313). -/
def windowCut (i : Nat) (s : State) : State :=
  let s := match objAt s i with
    | some o => (s.objs.filter fun c => c.typ == tyNozzle && chSense s c == handleOf o).foldl (fun s c =>
        updChan c.idx (fun r => { r with windows := r.windows.map fun w =>
          if !w.on && w.reason == 0 && w.cut.isNone then { w with cut := some s.gtc } else w }) s) s
    | none => s
  updSol i (fun r => { r with window := r.window.map fun w =>
    if !w.on && w.reason == 0 && w.cut.isNone then { w with cut := some s.gtc } else w }) s

/-- An off edge's window had Q_Ln turned off before the signature, if it has one at all (R313). -/
def cutShort (cut sig : Option Nat) : Bool :=
  match cut with
  | none => false
  | some c => !(sig.map fun t => decide (t ≤ c)).getD false

/-- Another channel of a SOLENOID's bank is active (R192). -/
def bankOther (s : State) (o : Obj) : Bool := (bankActive s (solBank o.act)).any fun x => x.idx != o.idx

/-- The bank after a change of its active channels: in overlap the high side is held on and detection is suspended, and a window
in which another channel is active has that reason; with no active channel the high side is off (R192, R314, R315). -/
def bankSettle (b : Nat) (was : Nat) (s : State) : State :=
  let n := (bankActive s b).length
  let s := ((bankObjs s b).filter fun o => bankOther s o).foldl (fun s o => windowReason o.idx 1 s) s
  let s := if 2 ≤ n ∧ was < 2 then
      (bankActive s b).foldl (fun s o => updSol o.idx (fun r => { r with overlaps := satInc 32 r.overlaps }) s) s
    else s
  if 2 ≤ n then setHs b true s else if n = 0 then setHs b false s else s

/-- The power stage of the banks is off: VBAT_A lockout, safe force, ESTOP, SLEEP or PARK (R317, R320, R495). -/
def banksOff (s : State) : Bool := s.pwr.vbatUvlo.getD 0 false || s.isl.estopLatch || safeForced s || s.pwr.linesOff

/-- A charge is requested while the boost queue is not empty or a boost runs, the converter is enabled and not
overvolted (R308, R309). -/
def boostSettle (s : State) : State :=
  let want := s.boost.en && !s.boost.overV && !s.boost.queue.isEmpty && !banksOff s
  { s with boost := { s.boost with
      charging := want && !s.boost.charged
      charged := s.boost.charged && want
      chargeAt := if want && !s.boost.charging && !s.boost.charged then s.gtc else s.boost.chargeAt
      bstG := s.boost.bstG && want } }

/-- Enter PEAK, or HOLD where t_peak is 0; t_peak counts from the end of BOOST, or from the on command when there is
no boost (R310). -/
def solPeak (i : Nat) (s : State) : State :=
  match objAt s i with
  | none => s
  | some o =>
    let b := solBank o.act
    let was := (bankActive s b).length
    let s := updSol i (fun r => { r with
      phase := if u32 o.act 20 = 0 then 4 else 3, target := if u32 o.act 20 = 0 then r.loopTarget.getD (f32 o.act 24) else f32 o.act 16
      phaseAt := if r.phase = 2 then s.gtc else r.onAt, reached := false }) s
    bankSettle b was (setLs i true (setHs b true s))

/-- A channel leaves the boost queue. -/
def dequeue (h : Nat) (s : State) : State :=
  { s with boost := { s.boost with queue := s.boost.queue.filter (· != h)
                                   running := if s.boost.running = some h then none else s.boost.running } }

/-- The wait of a channel in µs: from its on command to now (R309). -/
def solWait (r : SolRt) (now : Nat) : Nat := (now - r.onAt) / usTicks

/-- A channel runs without its boost: BOOST_SKIPPED (R309). -/
def boostSkip (o : Obj) (s : State) : State :=
  let w := solWait (solOf o) s.gtc
  let s := updSol o.idx (fun r => { r with skippedLast := true, skipped := satInc 32 r.skipped, tWait := w }) s
  let s := { s with boost := { s.boost with skipped := wrapInc 32 s.boost.skipped, longestWait := max s.boost.longestWait w } }
  let s := raise0 0x0A40 (handleOf o) ([0, 0, 0, 0] ++ leBytes 4 w) s
  solPeak o.idx (windowReason o.idx 8 (dequeue (handleOf o) s))

/-- The head of the queue begins its boost (R309, R310). -/
def boostStart (o : Obj) (s : State) : State :=
  let h := handleOf o
  let b := solBank o.act
  let was := (bankActive s b).length
  let w := solWait (solOf o) s.gtc
  let s := updSol o.idx (fun r => { r with phase := 2, phaseAt := s.gtc, tWait := w, boosts := satInc 32 r.boosts }) s
  let s := { s with boost := { s.boost with
    running := some h, charged := false, boosts := wrapInc 32 s.boost.boosts, longestWait := max s.boost.longestWait w } }
  boostSettle (bankSettle b was (setLs o.idx true (setHs b true s)))

/-- The channel at the head of the boost queue. -/
def boostHead (s : State) : Option Obj := s.boost.queue.head?.bind (objOf s)

/-- The head of the queue begins its boost once the charge is complete and no other boost runs (R309). -/
def boostBegin (s : State) : State :=
  match boostHead s with
  | none => s
  | some o =>
    if s.boost.charged && fLe s.boost.vboost s.boost.volts && s.boost.running.isNone && (solOf o).phase == 1 then boostStart o s else s

/-- A target that was not reached in its phase is noted, and raised while a VBAT warning is present (R317, R322). -/
def solMissed (o : Obj) (s : State) : State :=
  let r := solOf o
  if r.reached then s
  else
    let s := updSol o.idx (fun r => { r with notReached := true }) s
    if s.pwr.vbatLow.getD 0 false then
      raiseLimited secTicks 0x0A44 0 (handleOf o) 0 0 (leBytes 1 r.phase ++ List.replicate 7 0) 4 4 s
    else s

/-- Start an actuation from WAIT or PEAK (R310, R317). -/
def solStart (i : Nat) (s : State) : State :=
  match objAt s i with
  | none => s
  | some o =>
    let b := solBank o.act
    -- a decaying channel of the bank turns Q_Ln off at once (R312)
    let s := ((bankObjs s b).filter fun x => x.idx != i && (solOf x).phase == 5).foldl
      (fun s x => setLs x.idx false (windowCut x.idx s)) s
    let s := updSol i (fun r => { r with onAt := s.gtc, phaseAt := s.gtc, skippedLast := false, notReached := false, tBoostEnd := false }) s
    if u32 o.act 12 = 0 then solPeak i s
    else if s.boost.overV then boostSkip o s
    else boostSettle { setLs i false (updSol i (fun r => { r with phase := 1 }) s) with
      boost := { s.boost with queue := s.boost.queue ++ [handleOf o] } }

/-- Completion result of SOL_CMD: t_sig and the reason (R323). -/
def solResult (sig : Option Nat) (reason : Nat) : List Byte := leBytes 4 (sig.getD 0xFFFFFFFF) ++ leBytes 1 reason

/-- A channel's signature window closes: its result is kept, and the SOL_CMD of its edge completes (R313, R323). -/
def solWindowEnd (i : Nat) (sig : Option Nat) (reason : Nat) (s : State) : State :=
  match objAt s i with
  | none => s
  | some o =>
    if (solOf o).window.isNone then s
    else
      let s := updSol i (fun r => { r with window := none, lastReason := reason, tSig := sig.getD 0xFFFFFFFF }) s
      match firstDue s 0x0A01 (handleOf o) (fun a => decide (2 ≤ a)) with
      | none => s
      | some x => completeDeferred x { result := solResult sig reason } s

/-- A SOLENOID's window opens with its edge, and with the failure that is there already (R192, R313, R317). -/
def windowOpen (i : Nat) (on : Bool) (s : State) : State :=
  match objAt s i with
  | none => s
  | some o => updSol i (fun r => { r with
      tSig := 0xFFFFFFFF
      window := some { on := on, edge := s.gtc, reason := if bankOther s o then 1 else if s.pwr.vbatLow.getD 0 false then 3 else 0 } }) s

/-- An on command of a SOLENOID: its block takes effect, its window opens, its actuation starts (R310, R313, R321). -/
def solOn (i : Nat) (s : State) : State :=
  match objAt s i with
  | none => s
  | some o =>
    if (solOf o).gate || !isEnabled o then s
    else if (solOf o).latch ≠ 0 then updSol i (fun r => { r with gate := true, dead := true }) s
    else
      let s := updObj i (fun o => { o with act := o.params }) (solWindowEnd i none 7 s)
      let s := windowOpen i true (updSol i (fun r => { r with
        gate := true, dead := false, onCmds := satInc 32 r.onCmds, lastOn := s.gtc, iMax := 0 }) s)
      if banksOff s then s else solStart i s

/-- A channel's current path is switched off: alone in its bank it decays slowly through Q_Ln, else Q_Ln turns off at
once (R311); the boost queue and the bank settle. -/
def solRelease (i : Nat) (s : State) : State :=
  match objAt s i with
  | none => s
  | some o =>
    let b := solBank o.act
    let r := solOf o
    let was := (bankActive s b).length
    let s := dequeue (handleOf o) s
    let s := if solActive r then
        bankSettle b was (setLs i (decide (was ≤ 1)) (updSol i (fun r => { r with phase := 5, phaseAt := s.gtc }) s))
      else updSol i (fun r => { r with phase := if r.phase = 5 then 5 else 0 }) s
    boostBegin (boostSettle s)

/-- An off command of a SOLENOID (R311, R313): the gate closes in any phase and the off edge's window opens. -/
def solOff (i : Nat) (s : State) : State :=
  match objAt s i with
  | none => s
  | some o =>
    if !(solOf o).gate then s
    else
      let s := solWindowEnd i none 7 (if 3 ≤ (solOf o).phase ∧ (solOf o).phase ≤ 4 then solMissed o s else s)
      solRelease i (windowOpen i false (updSol i (fun r => { r with gate := false }) s))

/-- Gates off at once: a latch, the lockout, the safe force or a fault action (R306, R317, R318, R320). -/
def solCut (i : Nat) (s : State) : State :=
  match objAt s i with
  | none => s
  | some o =>
    let b := solBank o.act
    let was := (bankActive s b).length
    let s := forcedOff (handleOf o) (windowCut i (dequeue (handleOf o) s))
    boostBegin (boostSettle (bankSettle b was (setLs i false (updSol i (fun r => { r with phase := if solActive r || r.phase == 5 then 5 else 0, phaseAt := s.gtc }) s))))

/-! ## Gates of driven outputs (R262, R283, R310) -/

/-- An object cannot go on by its command, whatever that is. -/
def outForced (s : State) (h : Nat) : Bool :=
  match objOf s h with
  | none => true
  | some o =>
    if o.typ = tyPwmch then pwForced s o || ((objOf s (u32 o.act 4)).map fun w => w.typ == tySwitch && swBlocked s w).getD false
    else if o.typ = tySwitch then swBlocked s o
    else if o.typ = tySolenoid then !isEnabled o || banksOff s || (solOf o).dead || (solOf o).latch != 0
    else !isEnabled o

/-- Open the gate of a target; `force` is the instant until which a pulsed NOZZLE forces the active level. -/
def gateOpen (h : Nat) (force : Option Nat) (s : State) : State :=
  match objOf s h with
  | none => s
  | some o =>
    if o.typ = tyPwmch then pwmGateOpen o.idx force s
    else if o.typ = tySwitch then swOnCmd o.idx (updSw o.idx (fun r => { r with gate := isEnabled o }) s)
    else if o.typ = tySolenoid then solOn o.idx s
    else s

/-- Close the gate of a target. -/
def gateClose (h : Nat) (s : State) : State :=
  match objOf s h with
  | none => s
  | some o =>
    if o.typ = tyPwmch then pwmGateClose o.idx s
    else if o.typ = tySwitch then swOffCmd o.idx (updSw o.idx (fun r => { r with gate := false }) s)
    else if o.typ = tySolenoid then solOff o.idx s
    else s

/-- The gate of a target is open. -/
def gateIsOpen (s : State) (h : Nat) : Bool :=
  match objOf s h with
  | none => false
  | some o => (pwmOf o).gate || (swOf o).gate || (solOf o).gate

/-- The shadow of a PWMCH is about to be written: what stands in it is kept for a period start less than 48 TCLK ahead (R258). -/
def shadowPush (i : Nat) (s : State) : State :=
  updObj i (fun o =>
    let r := pwmOf o
    let x : Shadow := { since := r.shadowAt, params := o.params, phase := r.phaseSh }
    { o with rt := .pwm { r with past := (if r.shadowAt + 48 ≤ s.gtc then [] else r.past) ++ [x], shadowAt := s.gtc } }) s

/-- Write a value to the duty of a PWMCH's shadow, with a set offset in sixteenths where a NOZZLE drives it (R213, R259). -/
def writeDuty (h : Nat) (duty : F32) (phase : Option Nat) (s : State) : State :=
  match objOf s h with
  | none => s
  | some o =>
    updPwm o.idx (fun r => { r with phaseSh := phase })
      (updObj o.idx (fun o => { o with params := putAt o.params 16 (fBytes duty) }) (shadowPush o.idx s))

end Sys2Proof.Machine
end

