-- ==== Sys2Proof/Machine/Sensing.lean ====
section
/-! DEFINITION. The sense converters of the switch channels and solenoid banks, and the armature signature found in their
samples (09, R292, R293; 10, R305, R313). A command that follows a stretch of conversions carries their 12-bit codes, one per
microsecond of the channel. -/

namespace Sys2Proof.Machine

/-! ## Conversion slots (R292, R305) -/

/-- The ADC that converts a switch line, and the line's slot in its round of eight (R292). -/
def adcOf (line : Nat) : Nat := line / 8
def adcSlot (line : Nat) : Nat := line % 8

/-- Ticks from the start of its converter's round to a sense channel's conversion: eight slots a microsecond for a SWITCH, four
for a SOLENOID (R292, R305). -/
def convTicks (x : Obj) : Nat := if x.typ = tySwitch then adcSlot (swLine x.act) * 60 else u8 x.act 1 % 4 * 120

/-- The GTC span of an edge's learning window (R191). -/
def learnSpan (c : Obj) (edge : Nat) : Nat × Nat := (edge + u32 c.act 44 * usTicks, edge + u32 c.act 48 * usTicks)

/-- The slot of a switch line measures the LSW_OUTk voltage in place of the current: an off edge of a NOZZLE that learns from the
line's SWITCH has its learning window open (R292). -/
def slotVolts (s : State) (line : Nat) : Bool :=
  match swOnLine s line with
  | none => false
  | some x => s.objs.any fun c => c.typ == tyNozzle && chSense s c == handleOf x && (chanOf c).windows.any fun w =>
      !w.on && decide ((learnSpan c w.edge).1 ≤ s.gtc ∧ s.gtc ≤ (learnSpan c w.edge).2)

/-- A voltage code is signed, 20 mV per LSB over -40.96 V to 40.96 V (R532); its sign's coding is the model's (log 14). -/
def voltMv (c : Code) : Int := 20 * c.toInt

/-- The current of a switch code: 2.5 mA per LSB, in 0.1 mA (R292). -/
def switchTenths (c : Code) : Nat := 25 * c.toNat

/-! ## A millisecond of samples (R289, R299, R322) -/

def codeSum (codes : List Code) : Nat := (codes.map (·.toNat)).foldl (· + ·) 0
def codeMax (codes : List Code) : Nat := (codes.map (·.toNat)).foldl max 0

/-- The current samples among a line's last 1,000: none while its slot measures the voltage. -/
def currentCodes (s : State) (line : Nat) (codes : List Code) : List Code := if slotVolts s line then [] else codes.take 1000

/-- The RMS, mean and largest current [A] of the last 1,000 samples of a line; a sample not given is 0 (R289, R292). -/
def switchRms (codes : List Code) : F32 :=
  let n := (codes.map fun c => switchTenths c * switchTenths c).foldl (· + ·) 0
  fxToF 97 (isqrt (n * 2 ^ 192 / (1000 * 10 ^ 8)))
def switchMean (codes : List Code) : F32 := fOpen 98 (25 * codeSum codes) (1000 * 10 ^ 4)
def switchPeak (codes : List Code) : F32 := fOpen 99 (25 * codeMax codes) (10 ^ 4)

/-- The current [A] of `n / d` codes of a SOLENOID: 200 mV over 4,096 codes, through rshunt [mΩ] (R305). -/
def shuntAmps (tag : Nat) (x : Obj) (n d : Nat) : F32 :=
  fOpen tag (n * 200 * 2 ^ 149 : Nat) (d * 4096 * (fVal (f32 x.act 4)).toNat)

/-! ## The armature signature (R293, R313) -/

/-- From `n` samples each a microsecond after the last, from instant `t`: their instants. -/
def stamped (t : Nat) (vs : List Int) : List (Nat × Int) := vs.mapIdx fun i v => (t + i * usTicks, v)

/-- Sums of eight successive samples, each at the instant of its newest: the running mean, times eight. -/
def runningSums : List (Nat × Int) → List (Nat × Int)
  | [] => []
  | x :: xs =>
    match (xs.take 7).getLast? with
    | some y => if (xs.take 7).length = 7 then (y.1, x.2 + ((xs.take 7).map (·.2)).foldl (· + ·) 0) :: runningSums xs else []
    | none => []

/-- The peak of a bump: the first fall of half the threshold `b / a` below the highest value gives that value's instant. -/
def bumpPeak (a b : Int) (t : Nat) (hi : Int) : List (Nat × Int) → Option Nat
  | [] => none
  | y :: ys =>
    if hi < y.2 then bumpPeak a b y.1 y.2 ys
    else if b ≤ 2 * a * (hi - y.2) then some t
    else bumpPeak a b t hi ys

/-- The bump in a falling value: a rise of the threshold `b / a` above the lowest value starts it. -/
def bump (a b low : Int) : List (Nat × Int) → Option Nat
  | [] => none
  | y :: ys =>
    if y.2 < low then bump a b y.2 ys
    else if b ≤ a * (y.2 - low) then bumpPeak a b y.1 y.2 ys
    else bump a b low ys

/-- The threshold of a sense channel's edge in sums of eight values, as a fraction `b / a`: dip_min or rel_min (R298, R321). -/
def sigThreshold (x : Obj) (on : Bool) : Int × Int :=
  if x.typ = tySwitch then
    if on then (5, 16 * (u16 x.act 30 : Int)) else (1, 8 * (u16 x.act 32 : Int))
  else (200000 * 2 ^ 149, (u16 x.act (if on then 40 else 42) : Int) * 32768 * fVal (f32 x.act 4))

/-- The value the procedure follows: the dip of an on edge is the bump of the negated current; of an off edge, a SWITCH gives the
magnitude of the negative voltage, a SOLENOID its current. -/
def sigValue (x : Obj) (on : Bool) (c : Code) : Int :=
  if x.typ = tySwitch then (if on then -(c.toNat : Int) else -voltMv c)
  else if on then -(c.toNat : Int) else c.toNat

/-- The armature signature of an edge in its window `lo` to `hi`, from the codes of its sense channel, whose converter began the
round of the first at `t0` (R293, R313). Of an off edge of a SWITCH only the window's samples are of the voltage. -/
def signatureOf (x : Obj) (on : Bool) (lo hi t0 : Nat) (codes : List Code) : Option Nat :=
  let inside (y : Nat × Int) : Bool := decide (lo ≤ y.1 ∧ y.1 ≤ hi)
  let ys := stamped (t0 + convTicks x) (codes.map (sigValue x on))
  let ys := if x.typ = tySwitch ∧ ¬ on then ys.filter inside else ys
  match (runningSums ys).filter inside with
  | [] => none
  | y :: rest => bump (sigThreshold x on).1 (sigThreshold x on).2 y.2 rest

end Sys2Proof.Machine
end

