-- ==== Sys2Proof/Machine/Readings.lean ====
section
/-! DEFINITION. What a reader takes from a FEEDBACK (12, R351, R362, R363): position, speed and value at its own
instant, as exact fractions; a float32 result rounds openly (log 9). -/

namespace Sys2Proof.Machine

def fbOf (o : Obj) : FbRt := match o.rt with | .fb r => r | _ => {}
def updFb (i : Nat) (f : FbRt → FbRt) (s : State) : State := updObj i (fun o => { o with rt := .fb (f (fbOf o)) }) s

def fbKind (ps : List Byte) : Nat := u8 ps 0
def fbInput (ps : List Byte) : Nat := u8 ps 1

/-- A fraction: numerator and positive denominator. -/
abbrev Frac := Int × Nat

/-- A float32 as a fraction. -/
def fracOfF (x : F32) : Frac := (fVal x, 2 ^ 149)

/-- The voltage of the newest `n` of some samples (R362): 5.0 V over 4,096 codes. -/
def voltsOf (xs : List (Nat × Nat)) (n : Nat) : Frac :=
  let v := xs.take (max 1 n)
  (((v.map (·.2)).foldl (· + ·) 0 * 5 : Nat), 4096 * max 1 v.length)

/-- The value of a kind 4 FEEDBACK from its newest samples (R351). -/
def analogValue (ps : List Byte) (xs : List (Nat × Nat)) : Frac :=
  let v := voltsOf xs (u16 ps 60)
  (fVal (f32 ps 44) * v.1 + fVal (f32 ps 48) * (v.2 : Int), 2 ^ 149 * v.2)

/-- The value quantity (R351). -/
def fbValue (o : Obj) : F32 :=
  if fbKind o.act = 4 then (let v := analogValue o.act (fbOf o).samples; fOpen 30 v.1 v.2)
  else fOpen 31 (fbOf o).pos 1

/-- The position quantity that a reader's rules name, as a float32: the value for kind 4 (R351). -/
def fbPosition (o : Obj) : F32 := fbValue o

/-- The oldest entry of a list, newest first, stamped within `win` ticks of `te`. -/
def oldestWithin (te win : Nat) (xs : List (Nat × Int)) : Option (Nat × Int) :=
  (xs.filter fun e => decide (te - e.1 ≤ win)).getLast?

/-- `speed(t)` of R363 for the counting kinds, in counts per tick. -/
def countSpeed (ps : List Byte) (r : FbRt) (t : Nat) : Frac :=
  match r.edges with
  | [] => (0, 1)
  | (te, ne) :: rest =>
    if u32 ps 16 * usTicks ≤ t - te ∨ 0 < r.opp then (0, 1)
    else
      let k := (oldestWithin te (u32 ps 12 * usTicks) r.edges).getD (te, ne)
      let sg : Int := if fbKind ps = 0 ∧ r.rev then -1 else 1
      let v : Option Frac :=
        if k.1 = te then (if rest.isEmpty then none else some (sg, r.period)) else some (ne - k.2, te - k.1)
      match v with
      | none => (0, 1)
      | some v =>
        -- no edge when one was due: t - te > 1 / |v|
        if v.2 < (t - te) * v.1.natAbs then (if v.1 < 0 then -1 else 1, t - te) else (v.1, max 1 v.2)

/-- The speed quantity at GTC `t` [per second] (R351, R363). -/
def fbSpeedFrac (o : Obj) (t : Nat) : Frac :=
  let r := fbOf o
  let ps := o.act
  if fbKind ps = 4 then
    match r.samples with
    | [] => (0, 1)
    | (t1, _) :: _ =>
      let old := r.samples.dropWhile fun x => decide (t1 - x.1 < u32 ps 12 * usTicks)
      match old with
      | [] => (0, 1)
      | (t0, _) :: _ =>
        let a := analogValue ps r.samples
        let b := analogValue ps old
        if t1 ≤ t0 then (0, 1)
        else ((a.1 * b.2 - b.1 * a.2) * secTicks, a.2 * b.2 * (t1 - t0))
  else if fbKind ps = 1 then
    match r.reads with
    | [] => (0, 1)
    | (t1, p1) :: _ =>
      match oldestWithin t1 (u32 ps 12 * usTicks) r.reads with
      | none => (0, 1)
      | some (t0, p0) => if t1 ≤ t0 then (0, 1) else ((p1 - p0) * secTicks, t1 - t0)
  else
    let v := countSpeed ps r t
    (v.1 * secTicks, v.2)

def fbSpeed (o : Obj) (t : Nat) : F32 := let v := fbSpeedFrac o t; fOpen 32 v.1 v.2

/-- The FEEDBACK that a reader's field names, when it is ENABLED and without a fault. -/
def goodFb (s : State) (h : Nat) : Option Obj :=
  match objOf s h with
  | some o => if o.typ = tyFeedback ∧ isEnabled o ∧ !(fbOf o).fault then some o else none
  | none => none

end Sys2Proof.Machine
end

