-- ==== Sys2Proof/Machine/Motors.lean ====
section
/-! DEFINITION. The profile generators (11, R326 to R344): motion, step output, local microstepping, standstill,
stops and compares. Velocities and accelerations are carried in 2^-96, positions in 2^-32 counts as R326 has them
(log 20). -/

namespace Sys2Proof.Machine

def axOf (o : Obj) : AxRt := match o.rt with | .axis r => r | _ => {}
def updAx (i : Nat) (f : AxRt → AxRt) (s : State) : State := updObj i (fun o => { o with rt := .axis (f (axOf o)) }) s

/-! ## Fields of the block (R345) -/

def axKind (ps : List Byte) : Nat := u8 ps 16
def axFlags (ps : List Byte) : Nat := u8 ps 18
def axVmax (ps : List Byte) : Fx := fxF (f32 ps 32)
def axAmax (ps : List Byte) : Fx := fxF (f32 ps 36)
def axJmax (ps : List Byte) : Fx := fxF (f32 ps 40)
/-- The PWMCH handles of local microstepping. -/
def axPairs (ps : List Byte) : List Nat := [u32 ps 72, u32 ps 76, u32 ps 80, u32 ps 84]

/-- Ticks of one generator update (R326), and updates in a second. -/
def axTicks : Nat := 1200
def axRate : Nat := 400000

/-- One count in the units of p. -/
def axCount : Int := 2 ^ 32
/-- A position or distance as a real number of counts. -/
def axFx (p : Int) : Fx := p * 2 ^ 64
/-- A real number of counts next to a position: its 32-bit fraction rounds openly (log 9). -/
def axOfFx (x : Fx) : Int := roundOpen 60 x (2 ^ 64)

def sgn (x : Int) : Int := if 0 < x then 1 else if x < 0 then -1 else 0

/-! ## The generator (R329 to R331) -/

/-- The distance to rest from velocity `v` > 0 and acceleration `a` under the limits `am` and `j` (R330): the
acceleration runs to -am or as far as it must, holds there, and returns to 0; where it already brakes too hard for
that, to the point where the velocity first is 0 (log 20). -/
def stopDistPos (v a am j : Fx) : Fx :=
  let half (x : Fx) : Fx := x / 2
  let third (x : Fx) : Fx := x / 6
  let sq (x : Fx) : Fx := fxMul x x
  if a < 0 ∧ 2 * fxMul j v < sq a then
    let t := fxDiv (-a - fxSqrt (sq a - 2 * fxMul j v)) j
    fxMul v t + half (fxMul a (sq t)) + third (fxMul j (fxMul t (sq t)))
  else
    let pk := fxSqrt (fxMul j v + half (sq a))
    let lim := if am < -a then -a else am
    let A := if pk < lim then pk else lim
    let t1 := fxDiv (a + A) j
    let v1 := v + fxMul a t1 - half (fxMul j (sq t1))
    let d1 := fxMul v t1 + half (fxMul a (sq t1)) - third (fxMul j (fxMul t1 (sq t1)))
    let t3 := fxDiv A j
    let need := v1 - half (fxMul A t3)
    let th := if 0 < need then fxDiv need A else 0
    let d2 := fxMul v1 th - half (fxMul A (sq th))
    let v2 := v1 - fxMul A th
    let d3 := fxMul v2 t3 - half (fxMul A (sq t3)) + third (fxMul j (fxMul t3 (sq t3)))
    d1 + d2 + d3

/-- stop_dist(v, a) of R329, by symmetry. -/
def stopDist (v a am j : Fx) : Fx := if v < 0 then stopDistPos (-v) (-a) am j else stopDistPos v a am j

/-- The velocity command of R329. -/
def axCommand (ps : List Byte) (r : AxRt) (e : Fx) : Fx :=
  let vm := axVmax ps
  let am := r.aCap.getD (axAmax ps)
  if r.mode = 1 then clampInt (-vm) vm r.tgtV
  else if r.mode = 2 then clampInt (-vm) vm (r.vEst + e * 1000000 / (max 1 (u16 ps 108) : Nat))
  else if 0 < sgn r.v * sgn e ∧ fxAbs e ≤ stopDist r.v r.a am (axJmax ps) then 0
  else sgn e * (r.vCap.getD vm)

/-- What one update does: the registers after it, the residual of an arrival, and whether it arrived (R329). -/
structure AxStep where
  p : Int
  v : Fx
  a : Fx
  arrive : Fx := 0
  arrived : Bool := false
  deriving DecidableEq, Repr

/-- `update` of R329. -/
def axStep (ps : List Byte) (r : AxRt) : AxStep :=
  let j := axJmax ps
  let jd := j / (axRate : Int)
  let vm := axVmax ps
  let am := r.aCap.getD (axAmax ps)
  let e := axFx (r.tgtP - r.p)
  let vc := axCommand ps r e
  let dv := vc - r.v
  let pk := fxSqrt (2 * fxMul j (fxAbs dv))
  let ad := sgn dv * (if am < pk then am else pk)
  let a := r.a + clampInt (-jd) jd (ad - r.a)
  let v1 := r.v + a / (axRate : Int)
  let exceeds := decide (vm < fxAbs v1)
  let a := if exceeds then 0 else a
  let v1 := if exceeds then sgn v1 * vm else v1
  let reached := decide (fxAbs (vc - v1) ≤ jd / (axRate : Int) ∧ fxAbs a ≤ jd)
  let a := if reached then 0 else a
  let v1 := if reached then vc else v1
  let p1 := r.p + axOfFx ((r.v + v1) / 2 / (axRate : Int))
  if r.mode = 0 ∧ (r.tgtP - p1) * sgn e ≤ 0 then
    { p := r.tgtP, v := 0, a := 0, arrive := v1, arrived := true }
  else { p := p1, v := v1, a := a }

/-- The cruise velocity and peak acceleration of a timed move, and whether it is late (R331); the search of the third
case is within 0.1 %, its place there open (`free`, log 7). -/
def axTimed (ps : List Byte) (dist dur free : Nat) : Fx × Option Fx × Bool :=
  let am := axAmax ps
  let j := axJmax ps
  let vm := axVmax ps
  let d : Fx := axFx dist
  let t : Fx := fxFrac ((dur : Int) - 1000) 1000000
  let tp := t - fxDiv am j
  let disc := fxMul (fxMul am am) (fxMul tp tp) - 4 * fxMul am d
  if tp ≤ 0 ∨ disc < 0 then (vm, none, true)
  else
    let vc := (fxMul am tp - fxSqrt disc) / 2
    if vm < vc then (vm, none, true)
    else if fxMul vc j ≥ fxMul am am then (vc, none, false)
    else if d = 0 then (0, none, false)
    else
      let f (x : Fx) : Fx := 2 * fxSqrt (fxDiv x j) + fxDiv d x
      -- the velocity of the shortest move: x^3 = d^2 j
      let cub := (List.range 160).foldl (fun (b : Fx × Fx) _ =>
        let m := (b.1 + b.2) / 2
        if fxMul m (fxMul m m) < fxMul (fxMul d d) j then (m, b.2) else (b.1, m)) (0, fxOne + fxMul d d + j)
      let top := cub.2
      if t < f top then (top, some (fxSqrt (fxMul top j)), true)
      else
        let b := (List.range 160).foldl (fun (b : Fx × Fx) _ =>
          let m := (b.1 + b.2) / 2
          if m ≤ 0 then (b.1, b.2) else if t < f m then (m, b.2) else (b.1, m)) (0, top)
        let x := b.2 + b.2 * ((free % 2001 : Nat) - 1000 : Int) / 1000000
        (x, some (fxSqrt (fxMul x j)), false)

/-! ## Positions between updates -/

/-- p at a tick of the present interval: it is quadratic between the updates (R326). -/
def axPosAt (r : AxRt) (t : Nat) : Int :=
  let k : Int := min axTicks (t - r.t0)
  let lin : Int := axOfFx (r.v0 * k / (axRate * axTicks : Nat))
  let whole : Int := axOfFx (r.v0 / (axRate : Int))
  r.p0 + lin + (r.p - r.p0 - whole) * k * k / ((axTicks * axTicks : Nat) : Int)

/-- The first tick of the present interval at which a condition on p holds. -/
def axFirstTick (r : AxRt) (q : Int → Bool) : Option Nat :=
  ((List.range (axTicks + 1)).find? fun k => q (axPosAt r (r.t0 + k))).map (r.t0 + ·)

/-! ## Step output (R333) -/

/-- One pulse is placed: at its crossing, or at the first tick that the spacings allow; past the interval it is owed. -/
def axPulse (ps : List Byte) (t : Nat) (r : AxRt) : AxRt :=
  let q := max t (max (if r.lastPulse = 0 then 0 else r.lastPulse + 2 * u16 ps 24) (if r.dirAt = 0 then 0 else r.dirAt + u16 ps 26))
  let sg : Int := if r.dirRev then -1 else 1
  if q < r.t0 + axTicks ∧ 0 < r.owed * sg then { r with owed := r.owed - sg, lastPulse := q } else r

/-- The output of one interval: the direction pin, the pulses owed, the pulses of the counts crossed. -/
def axOutput (ps : List Byte) (r : AxRt) : AxRt :=
  let rev := decide (r.v < 0 ∨ (r.v = 0 ∧ r.v0 < 0))
  let r := if (r.v ≠ 0 ∨ r.v0 ≠ 0) ∧ rev ≠ r.dirRev then
      let t := if sgn r.v0 * sgn r.v < 0 then r.t0 + (r.v0.natAbs * axTicks / (r.v0 - r.v).natAbs) else r.t0
      { r with dirRev := rev, dirAt := t }
    else r
  let fl (x : Int) : Int := x / axCount
  let cross : List Int := if r.p0 < r.p then (List.range (fl r.p - fl r.p0).toNat).map fun (k : Nat) => (fl r.p0 + 1 + (k : Int)) * axCount
    else (List.range (fl (-r.p) - fl (-r.p0)).toNat).map fun (k : Nat) => -((fl (-r.p0) + 1 + (k : Int)) * axCount)
  let sg : Int := if r.p0 < r.p then 1 else -1
  let r := (List.range r.owed.natAbs).foldl (fun r _ => axPulse ps r.t0 r) r
  cross.foldl (fun r n =>
    let t := (axFirstTick r fun p => decide (0 ≤ (p - n) * sg)).getD (r.t0 + axTicks)
    axPulse ps t { r with owed := r.owed + sg }) r

/-- The levels of the step, direction and enable pins (R333, R345): the step pin is active for step_w ticks from a pulse's start,
the direction pin high for reverse, the enable pin at its disabling level while the output is off; aflags invert them. -/
def axPins (o : Obj) (now : Nat) : Bool × Bool × Bool :=
  let r := axOf o
  let f := axFlags o.act
  let pulse := decide (r.lastPulse ≠ 0 ∧ r.lastPulse ≤ now ∧ now < r.lastPulse + u16 o.act 24)
  ((pulse && r.en) != bit f 0, r.dirRev != bit f 1, r.en != bit f 2)

/-! ## Local microstepping (R334) -/

/-- vbus in volts: vbus_scale times the value of the AIN, taken in volts, or the VBAT_A monitor (R334, log 20). -/
def axVbus (s : State) (ps : List Byte) : Fx :=
  if u8 ps 100 = 0xFF then fxFrac (s.pwr.vbat.getD 0 0) 100
  else fxMul (fxF (f32 ps 104)) (fxFrac (s.fbd.ain.getD (u8 ps 100) 0 * 5) 4096)

/-- The coil current that the axis asks for: i_run, or what the standstill option leaves. -/
def axCurrent (ps : List Byte) (r : AxRt) : Fx := fxF (f32 ps (if r.optIn ∧ r.opt = 1 then 96 else 92))

/-- m of one coil: the value, and whether it was clamped; with vbus 0 the quotient's sign alone counts, and at 0/0 it
is 0 (log 20). -/
def axModulation (x vbus : Fx) : Fx × Bool :=
  if vbus ≤ 0 then (sgn x * fxOne, x != 0)
  else
    let m := fxDiv x vbus
    (clampInt (-fxOne) fxOne m, decide (fxOne < fxAbs m))

/-- The duties of one axis for the period of group `g` that starts at `t`: written before the period start, so that
it takes them up (R258, R334). -/
def axDuties (t p : Nat) (o : Obj) (s : State) : State :=
  let r := axOf o
  let ps := o.act
  let dt : Fx := fxFrac (((2 * t + p : Nat) : Int) - 2 * r.t0) (2 * secTicks)
  let pm := axFx r.p0 + fxMul r.v0 dt + fxMul r.a (fxMul dt dt) / 2
  let theta := fxMul fxTwoPi (pm % (1024 * fxOne)) / 1024
  let i := axCurrent ps r
  let rc := fxF (f32 ps 88)
  let ma := axModulation (fxMul (fxMul i (fxCos theta)) rc) (axVbus s ps)
  let mb := axModulation (fxMul (fxMul i (fxSin theta)) rc) (axVbus s ps)
  let short := r.optIn && r.opt == 3
  let half := fxOne / 2
  let duty (x : Fx) : F32 := if short then fZero else fxToF 61 x
  let ds := [duty (half + ma.1 / 2), duty (half - ma.1 / 2), duty (half + mb.1 / 2), duty (half - mb.1 / 2)]
  let s := ((axPairs ps).zip ds).foldl (fun s x =>
    match objOf s x.1 with
    | none => s
    | some c => updPwm c.idx (fun r => { r with shadowAt := t - 48 })
        (updObj c.idx (fun c => { c with params := putAt c.params 16 (fBytes x.2) }) s)) s
  updAx o.idx (fun r => { r with limited := ma.2 || mb.2, wait := if r.wait = 2 then 0 else r.wait }) s

/-- The axes of local microstepping on a period group that write their duties: those that are not DISABLED, and those that
still stop after it. -/
def axesOnGroup (s : State) (g : Nat) : List Obj :=
  (objsOf s tyAxis).filter fun o => axKind o.act == 1 && (o.ost != .disabled || (axOf o).atRest != 0) &&
    ((axPairs o.act).head?.bind (objOf s)).any fun c => pwGroup c.act == g

/-! ## Standstill (R337) -/

/-- The standstill option takes effect. -/
def axOption (i opt : Nat) (s : State) : State :=
  match objAt s i with
  | none => s
  | some o =>
    let s := updAx i (fun r => { r with optIn := true, opt := opt, en := if opt = 2 ∧ axKind o.act = 0 then false else r.en }) s
    if opt = 2 ∧ axKind o.act = 1 then (axPairs o.act).foldl (fun s h => gateClose h s) s else s

/-- Motion is asked for: an option in effect ends, and the first motion waits until the output is ready. -/
def axWake (i : Nat) (s : State) : State :=
  match objAt s i with
  | none => s
  | some o =>
    let r := axOf o
    if !r.optIn then s
    else
      let off0 := axKind o.act == 0 && r.opt == 2 && u8 o.act 22 != 0xFF
      let s := updAx i (fun r => { r with
        optIn := false, stillAt := none
        en := r.en || axKind o.act == 0
        enAt := if off0 then s.gtc else r.enAt
        wait := if off0 then 1 else if axKind o.act = 1 ∧ r.opt ≠ 0 then 2 else 0 }) s
      if axKind o.act = 1 ∧ r.opt = 2 then (axPairs o.act).foldl (fun s h => gateOpen h none s) s else s

/-! ## Ends, stops, cuts (R332, R337 to R343) -/

/-- Result bytes of AXIS_TARGET (R332); a target that did not arrive has no residual. -/
def axResult (r : AxRt) (arrived : Bool) : List Byte :=
  let res := if arrived then min 255 (fxNear (fVal (fAbs r.arriveV) / 2 ^ 53)).toNat else 0
  fBytes (fxToF 62 (axFx r.exc)) ++ leBytes 1 (b2n r.late + 2 * b2n r.limStop) ++ leBytes 1 res ++ [0]

/-- The target in force ends with a status. -/
def axEnd (i status : Nat) (s : State) : State :=
  match objAt s i with
  | none => s
  | some o =>
    let r := axOf o
    if !r.busy then s
    else
      let s := updAx i (fun _ => { r with
        busy := false, host := false, exc := 0, fromDir := 0, late := false, limStop := false
        excursion := if r.fromDir = 0 then r.excursion else fxToF 62 (axFx r.exc) }) s
      if !r.host then s
      else match firstDue s 0x0B00 (handleOf o) (· == 1) with
        | none => s
        | some x => completeDeferred x { status := status, result := axResult r (status == 0 && r.mode == 0) } s

/-- The host target that waits ends with a status. -/
def axDropPending (i status : Nat) (s : State) : State :=
  match objAt s i with
  | none => s
  | some o =>
    match firstDue s 0x0B00 (handleOf o) (· == 0) with
    | none => s
    | some x => completeDeferred x { status := status } s

/-- Armed compares complete CANCELLED (0x0604), those not judged with them (R338). -/
def axCancel (i : Nat) (s : State) : State :=
  match objAt s i with
  | none => s
  | some o =>
    let s := updAx i (fun r => { r with compares := [] }) s
    (s.hif.deferred.filter fun x => x.op == 0x0B02 && x.handle == handleOf o).foldl
      (fun s x => completeDeferred x { status := 0x0604 } s) s

/-- Homing fails with a reason: HOMING_FAILED is raised; AXIS_HOME completes at rest (R342). -/
def axHomeFail (i reason : Nat) (s : State) : State :=
  match objAt s i with
  | none => s
  | some o =>
    if !(axOf o).homing then s
    else raiseE 0x0B42 0 (handleOf o) o.epoch (leBytes 1 reason)
      (updAx i (fun r => { r with homing := false, homed := false, homeFail := reason }) s)

/-- A quick stop: a velocity target of 0 (R329). -/
def axQuick (r : AxRt) : AxRt :=
  { r with mode := 1, tgtV := 0, vCap := none, aCap := none, jobTgt := none, stopping := r.v != 0 || r.a != 0 }

/-- The output stops at once: v = a = 0 where p stands (R343). -/
def axHalt (now : Nat) (r : AxRt) : AxRt :=
  let p := axPosAt r now
  { axQuick r with p := p, v := 0, a := 0, p0 := p, v0 := 0, t0 := now, tgtP := p, stopping := false, lastStop := now }

/-- An object becomes FAULTED: its job stops, and a castling of it is abandoned (R70, R90). -/
def becomeFaulted (o : Obj) (s : State) : State :=
  forcedOff (handleOf o) (abandonMove (handleOf o) stState (setOst o.idx .faulted s))

/-- What completes once the axis is at rest: AXIS_STOP, a failed AXIS_HOME, the option that follows a stop, the fault action
(R70). -/
def axSettle (i : Nat) (s : State) : State :=
  match objAt s i with
  | none => s
  | some o =>
    let r := axOf o
    if r.v ≠ 0 ∨ r.a ≠ 0 then s
    else
      let s := updAx i (fun r => { r with
        stopping := false, stopDescs := [], homeFail := 0, atRest := 0, faulting := false
        lastStop := if r.stopping then s.gtc else r.lastStop }) s
      let s := r.stopDescs.foldl (fun s d => ok d s) s
      let s := if r.homeFail = 0 then s
        else finishDeferred 0x0B03 (handleOf o) { status := 0x0B07, result := leBytes 1 r.homeFail } s
      let s := if r.atRest = 1 then axOption i (u8 o.act 23) s
        else if r.atRest = 2 then (if axKind o.act ≤ 1 then axOption i 2 s else axOption i 0 s)
        else s
      if r.faulting ∧ isEnabled o then becomeFaulted o s else s

/-- A stop that ends the target with STOPPED: by quick stop, or by a cut. -/
def axStop (i : Nat) (cut : Bool) (s : State) : State :=
  let s := axEnd i 0x0B04 s
  let s := updAx i (fun r => if cut then axHalt s.gtc r else axQuick r) s
  axSettle i s

/-- An axis' own fault action (R343): chatter takes the quick stop in every case (R340). -/
def axFaultAct (o : Obj) (s : State) : State :=
  let cut := u8 o.act 19 == 1 && !(axOf o).chatter
  let s := axCancel o.idx (axDropPending o.idx 0x0B04 (axHomeFail o.idx 3 s))
  let s := updAx o.idx (fun r => { r with atRest := 1, chatter := false, inbox := none, wait := 0 }) s
  axStop o.idx cut s

/-- A device fault leaves an axis where the safe force stopped it (R333, R466). -/
def axDeviceFault (o : Obj) (s : State) : State :=
  let s := axCancel o.idx (axDropPending o.idx 0x0B04 (axHomeFail o.idx 3 s))
  axStop o.idx true (updAx o.idx (fun r => { r with inbox := none, wait := 0 }) s)

/-- The safe force or ESTOP stops the output, and the position with it (R333, R344). -/
def axSafe (i : Nat) (s : State) : State := updAx i (fun r => { axHalt s.gtc r with en := false, owed := 0 }) s

/-! ## Limits (R339) -/

/-- A limit input is active: `pos` for lim_pos. -/
def axLimit (s : State) (ps : List Byte) (pos : Bool) : Bool :=
  let g := u8 ps (if pos then 46 else 47)
  g != 0xFF && (s.pg.gpio.getD g false == bit (axFlags ps) 3)

/-- Motion in a direction is towards an active limit. -/
def axBlocked (s : State) (ps : List Byte) (dir : Int) : Bool :=
  (decide (0 < dir) && axLimit s ps true) || (decide (dir < 0) && axLimit s ps false)

/-- The direction in which a target would move. -/
def axTgtDir (r : AxRt) (t : ATgt) : Int :=
  if t.kind = 2 then sgn t.value
  else if t.kind = 0 then sgn (t.value - r.p)
  else sgn ((if r.mode = 1 then 0 else r.tgtP - r.p) + t.value)

/-! ## Targets take effect (R328) -/

/-- The registers for a new target: the excursion counts from here where the target lies behind the motion (R330). -/
def axTake (ps : List Byte) (t : ATgt) (free : Nat) (host : Bool) (r : AxRt) : AxRt :=
  let base := if r.mode = 1 then r.p else r.tgtP
  let r := { r with busy := true, host := host, vCap := none, aCap := none, late := false, limStop := false, exc := 0
                    fromP := r.p, fromDir := 0, stopping := false }
  if t.kind = 2 then { r with mode := 1, tgtV := t.value }
  else
    let q := if t.kind = 0 then t.value else base + t.value
    let r := { r with mode := 0, tgtP := q, fromDir := if sgn (q - r.p) * sgn r.v < 0 then sgn r.v else 0 }
    if t.kind = 3 then
      let x := axTimed ps t.value.natAbs t.dur free
      { r with vCap := some x.1, aCap := x.2.1, late := x.2.2 }
    else r

/-- A target reaches the generator of axis `i`: the one in force ends with REPLACED. -/
def axTakeTarget (i : Nat) (t : ATgt) (host : Bool) (s : State) : State :=
  match objAt s i with
  | none => s
  | some o =>
    let s := axEnd i 0x0B03 s
    let fr := takeFree s
    let s := if t.kind = 3 then fr.2 else s
    let s := updAx i (axTake o.act t fr.1 host) s
    let wants := if t.kind = 2 then t.value != 0 else axTgtDir (axOf o) t != 0
    if wants then axWake i s else s

end Sys2Proof.Machine
end

