-- ==== Sys2Proof/Machine/Channels.lean ====
section
/-! DEFINITION. What a NOZZLE's or ROW's edges do to its output, its queue and its flow intervals (06, R189, R200,
R209, R210, R215, R218): the part that fault actions share with the scheduler. -/

namespace Sys2Proof.Machine

def secOf (o : Obj) : SecRt := match o.rt with | .sect r => r | _ => {}
def updSec (i : Nat) (f : SecRt → SecRt) (s : State) : State := updObj i (fun o => { o with rt := .sect (f (secOf o)) }) s

def chFlags (o : Obj) : Nat := u8 o.act 32
def chPulsed (o : Obj) : Bool := o.typ == tyNozzle && bit (chFlags o) 4

/-! ## Outcomes of edges (R210) -/

/-- What became of an edge. -/
inductive EdgeEnd where
  | fired | late | lateDropped | behind | cancelled | absent
  deriving DecidableEq, Repr

/-- The status of a channel command for its edge's outcome (R225). -/
def edgeStatus : EdgeEnd → Nat
  | .fired => 0
  | .late => 0x0601
  | .lateDropped => 0x0603
  | .behind => 0x0602
  | .cancelled | .absent => 0x0604

/-- Result bytes of a section command (R210). -/
def secCmdResult (c : SecCmd) : List Byte :=
  satBytes 2 c.fired ++ satBytes 2 c.late ++ satBytes 2 c.behind ++ satBytes 1 c.absent

/-- A section command counts one member's report and completes when every member has reported (R210). -/
def secReport (n : Nat) (m : Nat × Nat) (k : EdgeEnd) (s : State) : State :=
  match s.sched.cmds.find? (fun c => c.cmd == n && c.wait.contains m) with
  | none => s
  | some c =>
    let c : SecCmd := { c with
      wait := c.wait.erase m
      fired := if k = .fired ∨ k = .late then c.fired + 1 else c.fired
      late := if k = .late ∨ k = .lateDropped then c.late + 1 else c.late
      behind := if k = .behind then c.behind + 1 else c.behind
      absent := if k = .absent then c.absent + 1 else c.absent }
    let rest := s.sched.cmds.filter fun x => x.cmd != n
    if c.wait.isEmpty then
      match s.hif.deferred.find? fun x => x.op == 0x0601 && x.arg == n with
      | some x => completeDeferred x { result := secCmdResult c } { s with sched := { s.sched with cmds := rest } }
      | none => { s with sched := { s.sched with cmds := rest } }
    else { s with sched := { s.sched with cmds := rest ++ [c] } }

/-- A cancel on a section counts what a device has cleared, and completes when every device has reported (R224). -/
def cancelReport (pos h n : Nat) (s : State) : State :=
  match s.sched.cancels.find? fun c => c.handle == h && c.wait.contains pos with
  | none => s
  | some c =>
    let c : SecCancel := { c with wait := c.wait.erase pos, count := c.count + n }
    let rest := s.sched.cancels.filter fun x => x.cmd != c.cmd
    if c.wait.isEmpty then
      match s.hif.deferred.find? fun x => x.op == 0x0604 && x.arg == c.cmd with
      | some x => completeDeferred x { result := satBytes 1 c.count } { s with sched := { s.sched with cancels := rest } }
      | none => { s with sched := { s.sched with cancels := rest } }
    else { s with sched := { s.sched with cancels := rest ++ [c] } }

/-- What a lost member owes to commands on sections counts as absent (R76, R210, R224). -/
def lostReports (pos : Nat) (s : State) : State :=
  let s := (s.sched.cmds.flatMap fun c => (c.wait.filter fun m => m.1 == pos).map fun m => (c.cmd, m)).foldl
    (fun s x => secReport x.1 x.2 .absent s) s
  (s.sched.cancels.filter fun c => c.wait.contains pos).foldl (fun s c => cancelReport pos c.handle 0 s) s

/-- The number that stands for a command of another device, on an edge that came in a section record. -/
def farCmd : Nat := 2 ^ 32

/-- An outcome record for the lead (R202): handle, kind of edge, outcome, firing instant; its layout is the model's (log 19). -/
def outcomeRecord (h : Nat) (k : EdgeEnd) (on : Bool) (t : Nat) : List Byte :=
  let code : Nat := match k with
    | .fired => 0 | .late => 1 | .lateDropped => 2 | .behind => 3 | .cancelled => 4 | .absent => 5
  leBytes 4 h ++ leBytes 1 (b2n on) ++ leBytes 1 (128 + code) ++ [0, 0] ++ leBytes 8 t

/-- The host command of an edge gets the edge's outcome: distance [µm], sample outcome, firing instant (R210). -/
def edgeReport (o : Obj) (cmd : Option Nat) (on : Bool) (k : EdgeEnd) (dist reason t : Nat) (s : State) : State :=
  match cmd with
  | none => s
  | some n =>
    match s.hif.deferred.find? fun x => x.op == 0x0600 && x.arg == n with
    | some x => completeDeferred x { status := edgeStatus k, gtc := some t
                                     result := satBytes 4 dist ++ leBytes 1 reason ++ leBytes 1 (b2n on) ++ [0] } s
    | none =>
      if n = farCmd then
        { s with osl := { s.osl with outbox := s.osl.outbox ++ [{ kind := .sect, dst := 0, src := s.osl.position, body := outcomeRecord (handleOf o) k on t }] } }
      else secReport n (s.osl.position, handleOf o) k s

/-! ## The output (R213, R215) -/

/-- The output goes off: the gate closes, or the meter's target becomes 0; off is the state last commanded. -/
def chOff (o : Obj) (s : State) : State :=
  let was := ((objAt s o.idx).map chanOf).getD {}
  let s := updChan o.idx (fun r => { r with output := false, last := false, preUntil := none }) s
  let s := if o.typ = tyRow then
      match objOf s (chOut o) with
      | some a => if was.output || was.preUntil.isSome then axTakeTarget a.idx { kind := 2, value := 0 } false s else s
      | none => s
    else gateClose (chOut o) s
  if was.output then flowEnd { o with rt := .chan was } s else s

/-- Every queued edge is removed; its command completes with the outcome CANCELLED (R216, R218). -/
def chClear (o : Obj) (status : Nat) (s : State) : State :=
  match objAt s o.idx with
  | none => s
  | some o =>
    let r := chanOf o
    let run := r.queue.any (fun e => e.pre.1 == 3) && r.preUntil.isSome && !r.output
    let s := updChan o.idx (fun r => { r with queue := [], preUntil := none }) s
    let s := if run then
        (match objOf s (chOut o) with | some a => axTakeTarget a.idx { kind := 2, value := 0 } false s | none => s)
      else s
    r.queue.foldl (fun s e => edgeReport o e.cmd e.on (if status = 0x0604 then .cancelled else .absent) 0 0 s.gtc s) s

/-- The fault action of a channel (R218): the output goes off or holds, and the queue is cleared. -/
def chFaultAct (o : Obj) (s : State) : State :=
  chClear o 0x0604 (if u8 o.act 33 = 0 then chOff o s else s)

/-! ## The latency store (R194) -/

/-- The record of a channel: its learned values in µs, its sample counts. -/
def latRec (o : Obj) : LatRec :=
  let r := chanOf o
  { key := u16 o.act 62, on := (fxToInt 74 r.latOn).toNat, off := (fxToInt 75 r.latOff).toNat
    samplesOn := r.samplesOn, samplesOff := r.samplesOff }

/-- The record that will stand under a key: one on its way, else the stored one. -/
def latStored (s : State) (key : Nat) : Option LatRec :=
  ((s.sched.saving.reverse.find? fun x => x.key == key).or (s.sched.store.find? fun x => x.key == key))

/-- Channels whose record differs from the stored one. -/
def latChanged (s : State) : List LatRec :=
  (s.objs.filter fun o => (o.typ == tyNozzle || o.typ == tyRow) && o.ost != .disabled && u16 o.act 62 != 0).filterMap fun o =>
    if latStored s (u16 o.act 62) = some (latRec o) then none else some (latRec o)

/-- Changed records go to MRAM; LATENCY_RECORDS_WRITTEN ends the write. -/
def latSave (s : State) : State :=
  { s with sched := { s.sched with saving := s.sched.saving ++ latChanged s, savedAt := s.gtc } }

end Sys2Proof.Machine
end

