-- ==== Sys2Proof/Machine/FaultActs.lean ====
section
/-! DEFINITION. The fault action of each type (R70): what an object's own lines do when a class 1 fault stops it. -/

namespace Sys2Proof.Machine

/-! ## The safe force -/

/-- Every output goes to what the safe force and ESTOP leave it (R273, R296, R320, R333), or comes back when they end. -/
def refreshAll (s : State) : State :=
  let s := (objsOf s tyPwmch).foldl (fun s o => pwmRefresh o.idx s) s
  let s := (objsOf s tySwitch).foldl (fun s o => swRefresh o.idx s) s
  let s := if s.isl.estopLatch || safeForced s || s.pwr.linesOff then (objsOf s tyAxis).foldl (fun s o => forcedOff (handleOf o) (axSafe o.idx s)) s else s
  if banksOff s then
    let s := (objsOf s tySolenoid).foldl (fun s o => solCut o.idx s) s
    { s with boost := { s.boost with hs := [false, false, false, false], bstG := false, charging := false, running := none, queue := [] } }
  else s

/-- Assert the safe force on every output: HOLD lines go off too (R466 step 2). -/
def safeForce (s : State) : State :=
  refreshAll { s with isl := { s.isl with hold := [] }
                      pg := { s.pg with ech := List.replicate 16 false } }

/-! ## Fault actions -/

def loopOf (o : Obj) : LoopRt := match o.rt with | .loop r => r | _ => {}
def updLoop (i : Nat) (f : LoopRt → LoopRt) (s : State) : State := updObj i (fun o => { o with rt := .loop (f (loopOf o)) }) s

/-- A LOOP writes an output to the object it drives (R227): duty, hold current, or the target of an axis, which its job
takes up. -/
def loopWrite (o : Obj) (u : F32) (s : State) : State :=
  let h := u32 o.act 16
  let s := updLoop o.idx (fun r => { r with u := u }) s
  match objOf s h with
  | none => s
  | some t =>
    if t.typ = tyPwmch then writeDuty h u (pwmOf t).phaseSh s
    else if t.typ = tySolenoid then updSol t.idx (fun r => { r with loopTarget := some u }) s
    else if t.typ = tyAxis then
      updAx t.idx (fun r => { r with inbox := some (if u8 o.act 20 = 1
        then { kind := 0, value := axOfFx (fxF u) } else { kind := 2, value := fxF u }) }) s
    else s

/-- An object's own fault action (R70): a PWMCH, SWITCH or SOLENOID closes its gate (R262, R294, R318), a channel acts by
R218, a LOOP writes u_fault or leaves its last output (R247). -/
def faultAct (o : Obj) (s : State) : State :=
  if o.typ = tyPwmch ∨ o.typ = tySwitch ∨ o.typ = tySolenoid then gateClose (handleOf o) s
  else if o.typ = tyNozzle ∨ o.typ = tyRow then chFaultAct o s
  else if o.typ = tyLoop ∧ u8 o.act 22 = 0 then loopWrite o (f32 o.act 40) s
  else s

end Sys2Proof.Machine
end

