-- ==== Sys2Proof/Machine/Faults.lean ====
section
/-! DEFINITION. Fault classes 1 and 2 (R465 to R467, R70, R91): what an event of the class does to the device. -/

namespace Sys2Proof.Machine

/-! ## Groups (R91) -/

/-- The handles of a group's members on this device. -/
def groupMembers (s : State) (g : Obj) : List Nat :=
  (crefsOf g.typ g.params).filterMap fun r => if r.1 = s.osl.position then some r.2 else none

/-- The groups that an object belongs to. -/
def groupsWith (s : State) (h : Nat) : List Obj :=
  (objsOf s tyGroup).filter fun g => (groupMembers s g).contains h

/-! ## Class 1 (R70, R465) -/

/-- An axis is taking its fault action and moves still: it is ENABLED until that is complete (R70). -/
def axFaulting (o : Obj) : Bool := o.typ == tyAxis && (axOf o).faulting

/-- Take one object's fault action and move it to FAULTED once that is complete: an axis when it has come to rest (`axSettle`),
any other object at once; a castling of it is abandoned then (R70, R90). -/
def faultObj (h : Nat) (s : State) : State :=
  match objOf s h with
  | none => s
  | some o =>
    if !isEnabled o || axFaulting o then s
    else if o.typ = tyAxis then axFaultAct o (updAx o.idx (fun r => { r with faulting := true }) s)
    else becomeFaulted o (faultAct o s)

/-- Send a fault record to another device of the cluster (log 25): 0 a referenced object had a class 1 fault, 1 take the
fault action, 2 GROUP_BROKEN; then the handle and two data bytes. -/
def sendFault (pos kind h : Nat) (data : List Byte) (s : State) : State :=
  { s with osl := { s.osl with outbox := s.osl.outbox ++
      [{ kind := .fault, dst := pos, src := s.osl.position, body := leBytes 1 kind ++ leBytes 4 h ++ padTo 2 data }] } }

/-- The groups of this device with fault_link that an object of position `pos` belongs to. -/
def linkGroups (s : State) (pos h : Nat) : List Obj :=
  (objsOf s tyGroup).filter fun g => u8 g.act 1 == 1 && (crefsOf g.typ g.params).contains (pos, h)

/-- A fault of (pos, h) goes on to the members of its groups on this and on other devices (R91). -/
def linkFault (pos h : Nat) (s : State) : State :=
  ((linkGroups s pos h).flatMap fun g => (crefsOf g.typ g.params).filter (· != (pos, h))).foldl
    (fun s m => if m.1 = s.osl.position then faultObj m.2 s else if m.1 = pos then s else sendFault m.1 1 m.2 [] s) s

/-- A class 1 event to an object: raised; an ENABLED object takes its fault action and becomes FAULTED, and the
members of a lock group with fault_link follow; a member device tells the lead (R70, R91, R465). -/
def class1 (h code : Nat) (data : List Byte) (s : State) : State :=
  let ep := ((objOf s h).map (·.epoch)).getD 0
  let s := raiseE code 1 h ep data s
  let s := updH h (fun o => { o with lastFault := code }) s
  if ((objOf s h).map fun o => isEnabled o && !axFaulting o).getD false then
    let s := linkFault s.osl.position h (faultObj h s)
    if s.osl.role = 2 ∧ s.osl.leadRefs.any (fun r => r.1 == h) then sendFault 0 0 h [] s else s
  else s

/-- CLASS1_FAULT: a class 1 event of code `code` to object `h`. -/
def execClass1Fault (h code : Nat) (s : State) : Host.Outcome State Fault Refusal :=
  .next (match objOf s h with
    | none => s
    | some _ => class1 h code [] s)

/-! ## Class 2 (R466, R467) -/

/-- Types that a device fault makes FAULTED (R466 step 4). -/
def faultTypes : List Nat := [tyNozzle, tyRow, tySection, tyLoop, tyAxis, tyPwmch, tySwitch, tySolenoid]

/-- What a device fault leaves of an object without its own fault action: a PWMCH keeps its disposition's levels until
DISABLE (R468), a SWITCH's line stays at the off level of the force (R283), an axis stands where the safe force stopped it (R333), a channel's queue is cleared (log 19). -/
def holdDisposition (o : Obj) (s : State) : State :=
  if o.typ = tyPwmch then updPwm o.idx (fun r => { r with dispHeld := true, gate := false, force := none, carry := 0 }) s
  else if o.typ = tyAxis then axDeviceFault o s
  else if o.typ = tySwitch then gateClose (handleOf o) s
  else if o.typ = tyNozzle ∨ o.typ = tyRow then chClear o 0x0604 (chOff o s)
  else s

/-- Step 4 of R466: ENABLED objects of these types become FAULTED without their own fault action. -/
def faultAll (s : State) : State :=
  (s.objs.filter fun o => isEnabled o && faultTypes.contains o.typ).foldl
    (fun s o => holdDisposition o (becomeFaulted o s)) s

/-- DEVICE_FAULT_SEQUENCE: a class 2 event is raised and logged; the first one latches DEVICE_FAULT, ISL_FAULT keeps
it, the safe force is asserted, FAULT_N goes low and the objects become FAULTED (R466, R467). -/
def class2 (code handle : Nat) (data : List Byte) (s : State) : State :=
  let s := raiseE code 2 handle 0 data s
  let s := { s with isl := { s.isl with
    conditions := if s.isl.conditions.contains code then s.isl.conditions else s.isl.conditions ++ [code] } }
  if s.isl.deviceFault then s
  else
    let s := { s with isl := { s.isl with
      deviceFault := true, faultCode := code, faultHandle := handle, safeFault := true } }
    faultAll (safeForce s)

/-- The condition of a latched fault has ended (R468). -/
def conditionEnded (code : Nat) (s : State) : State :=
  { s with isl := { s.isl with conditions := s.isl.conditions.erase code } }

end Sys2Proof.Machine
end

