-- ==== Sys2Proof/Machine/Sessions.lean ====
section
/-! DEFINITION. Sessions, tags and lockouts (15, R435 to R450): what the descriptor path and the resets need of the
security module. -/

namespace Sys2Proof.Machine

/-- Roles of R435. -/
def roleNone : Nat := 0
def roleOperator : Nat := 1
def roleService : Nat := 2
def roleOwner : Nat := 3

/-- The role a key slot belongs to (R438). -/
def slotRole (i : Nat) : Nat := if i = 0 then 3 else if i ≤ 2 then 2 else 1

def keySlot (s : State) (i : Nat) : KeySlot := s.sec.slots.getD i {}

def updSlot (i : Nat) (f : KeySlot → KeySlot) (s : State) : State :=
  { s with sec := { s.sec with slots := s.sec.slots.set i (f (keySlot s i)) } }

def updSession (sq : Nat) (f : Session → Session) (s : State) : State :=
  { s with sec := { s.sec with sessions := s.sec.sessions.map fun x => if x.sq = sq then f x else x } }

/-- A CREATE, SET_PARAMS or ENABLE of a NOZZLE or ROW completes `OK`: the session under which it was tagged, if it is
still open, has loaded the configuration (R448). -/
def loadMark (st : Started) (ty : Nat) (s : State) : State :=
  match st.sid with
  | none => s
  | some i =>
    if ty = tyNozzle ∨ ty = tyRow then updSession st.desc.sq (fun x => if x.sid = i then { x with loaded := true } else x) s else s

/-- Reasons of R449. -/
def closeCommand : Nat := 0
def closeIdle : Nat := 1
def closeRing : Nat := 2
def closeTagFailures : Nat := 3
def closeSequence : Nat := 4
def closeZeroized : Nat := 5
def closeReset : Nat := 6

/-- Close the session of a ring: SEC_SESSION_CLOSED but for a reset, and the latency records of a session that
loaded the configuration (R448, R449). -/
def sessionClose (sq reason : Nat) (s : State) : State :=
  match sessionOn s sq with
  | none => s
  | some x =>
    let s := { s with sec := { s.sec with sessions := s.sec.sessions.filter fun y => y.sq != sq } }
    if reason = closeReset then s
    else
      let s := raise0 0x0F41 0 (leBytes 4 reason ++ leBytes 4 x.sid) s
      if x.loaded then latSave s else s

/-- Close every session. -/
def sessionsCloseAll (reason : Nat) (s : State) : State :=
  s.sec.sessions.foldl (fun s x => sessionClose x.sq reason s) s

/-- Seconds of a running lockout that remain, rounded up. -/
def lockRemaining (s : State) (slot : Nat) : Nat :=
  ((keySlot s slot).lockEnd.map fun t => (t - s.gtc + secTicks - 1) / secTicks).getD 0

/-- Start a lockout of a slot (R450). -/
def lockoutStart (slot : Nat) (s : State) : State :=
  let k := keySlot s slot
  raise0 0x0F43 0 (leBytes 4 slot ++ leBytes 4 k.nextLock)
    (updSlot slot (fun k => { k with
      lockLen := k.nextLock, lockEnd := some (s.gtc + k.nextLock * secTicks), nextLock := min 3600 (2 * k.nextLock) }) s)

/-- One authentication failure of a slot: counted and reported; the fifth, and each after a lockout has ended, starts
a lockout; one counted during a lockout starts none (R450). -/
def authFail (slot : Nat) (s : State) : State :=
  let s := updSlot slot (fun k => { k with fails := k.fails + 1 }) s
  let k := keySlot s slot
  let s := raise0 0x0F42 0 (leBytes 1 slot ++ satBytes 1 k.fails) s
  if k.lockEnd.isNone && decide (5 ≤ k.fails) then lockoutStart slot s else s

/-- The tag of a descriptor that is the n-th tagged one of its session (R446). -/
def tagOf (kTag : List Byte) (n : Nat) (d : Desc) (blk : List Byte) : List Byte :=
  cmac kTag (leBytes 8 n ++ zeroSpan (d.bytes.take 48) 44 2 ++ blk)

/-- CHALLENGE_EXPIRY: 5 s after its completion (R442). -/
def execChallengeExpiry (sq : Nat) (s : State) : Host.Outcome State Fault Refusal :=
  .next (match s.sec.challenges.find? fun c => c.sq == sq with
    | none => s
    | some c =>
      let s := toInstant c.expires s
      { s with sec := { s.sec with challenges := s.sec.challenges.erase c } })

/-- SESSION_IDLE_TIMEOUT: no tagged descriptor fetched for ttl (R449). -/
def execSessionIdleTimeout (sq : Nat) (s : State) : Host.Outcome State Fault Refusal :=
  .next (match sessionOn s sq with
    | none => s
    | some x => sessionClose sq closeIdle (toInstant (x.lastTagged + x.ttl * secTicks) s))

/-- SESSION_TAG_FAILURES: three consecutive BAD_TAG close the session and count one failure of its slot (R449). -/
def execSessionTagFailures (sq : Nat) (s : State) : Host.Outcome State Fault Refusal :=
  .next (match sessionOn s sq with
    | none => s
    | some x => if 3 ≤ x.badRun then authFail x.slot (sessionClose sq closeTagFailures s) else s)

/-- SEC_LOCKOUT_END: a slot's lockout ends (R450). -/
def execSecLockoutEnd (slot : Nat) (s : State) : Host.Outcome State Fault Refusal :=
  .next (match (keySlot s slot).lockEnd with
    | none => s
    | some t => updSlot slot (fun k => { k with lockEnd := none }) (toInstant t s))

end Sys2Proof.Machine
end

