-- ==== Sys2Proof/Machine/Descr.lean ====
section
/-! DEFINITION. Descriptors (02, R37 to R41, R546; 15, R436, R446): the table of opcodes with what each requires,
and the order of checks that every descriptor passes before its command acts. -/

namespace Sys2Proof.Machine

/-- What a descriptor's handle may name. -/
inductive Target where
  /-- the device handle 0 -/
  | dev
  /-- the device or any object -/
  | anyDev
  /-- an object of one of the types -/
  | types (tys : List Nat)
  /-- 0x00tt_0000, for the types -/
  | create (tys : List Nat)
  deriving DecidableEq, Repr

/-- The rule for a block's length (R546). -/
inductive LenRule where
  | any
  | exact (n : Nat)
  | mult (k : Nat)
  | atMost (n : Nat)
  | atLeast (n : Nat)
  /-- a multiple of `k`, at most `n` -/
  | multMost (k n : Nat)
  /-- the size of the layer's tiles (R182) -/
  | tile
  /-- a bank of R234: 48 bytes and 20 for each section; what its head says of the number is judged with it -/
  | bank
  deriving DecidableEq, Repr

/-- An opcode: value, target, PTR (0 not taken, 1 required, 2 optional), the inline bytes its definition names, the
bytes it names beside the block pointer, its length rule, and whether the device reads the block. -/
structure OpInfo where
  code : Nat
  tgt : Target := .dev
  ptr : Nat := 0
  spans : List (Nat × Nat) := []
  pspans : List (Nat × Nat) := []
  len : LenRule := .any
  reads : Bool := true
  deriving DecidableEq, Repr

def allTypes : List Nat := [1, 2, 3, 4, 5, 6, 7, 8, 9, 10, 11, 12, 13, 14, 15]
/-- Every type but TABLE, which SET_PARAMS, STAGE_PARAMS, ENABLE and DISABLE do not accept (R95). -/
def notTable : List Nat := [1, 2, 3, 4, 5, 6, 7, 8, 9, 11, 12, 13, 14, 15]

/-- Generic opcodes (R62). -/
def ops02 : List OpInfo := [
  { code := 0x0000, tgt := .anyDev },
  { code := 0x0001, tgt := .create allTypes, ptr := 2 },
  { code := 0x0002, tgt := .types allTypes },
  { code := 0x0003, tgt := .types notTable, ptr := 2, spans := [(16, 28)], pspans := [(32, 4)] },
  { code := 0x0004, tgt := .types allTypes, ptr := 1, pspans := [(32, 4)], reads := false },
  { code := 0x0005, tgt := .types notTable, spans := [(16, 8)] },
  { code := 0x0006, tgt := .types notTable, spans := [(16, 8)] },
  { code := 0x0007, tgt := .types allTypes, ptr := 1, reads := false },
  { code := 0x0008, tgt := .anyDev },
  { code := 0x0009, tgt := .anyDev, spans := [(16, 9)] }]

/-- Engines and tables (R109). -/
def ops03 : List OpInfo := [
  { code := 0x0300, tgt := .types [1, 2, 3, 4, 5], spans := [(16, 3)] },
  { code := 0x0301, ptr := 1, len := .exact 1152, reads := false },
  { code := 0x0302, spans := [(16, 1)] },
  { code := 0x0303, tgt := .types [10], spans := [(16, 4), (24, 8)] },
  { code := 0x0304, tgt := .types [10], spans := [(16, 1)] },
  { code := 0x0305, tgt := .create [10], spans := [(16, 1)] },
  { code := 0x0306, spans := [(16, 1)] },
  { code := 0x0307, ptr := 1, len := .exact 2040, reads := false },
  { code := 0x0308, tgt := .types notTable, ptr := 2, spans := [(16, 28)], pspans := [(32, 4)] },
  { code := 0x0309, tgt := .types [15], spans := [(16, 8)] }]

/-- Pulse generator (R277). -/
def ops08 : List OpInfo := [
  { code := 0x0800, spans := [(16, 2), (20, 12)] },
  { code := 0x0801, spans := [(16, 5)] },
  { code := 0x0802, spans := [(16, 1)] },
  { code := 0x0803, ptr := 1, len := .exact 80, pspans := [(32, 4)] },
  { code := 0x0804, spans := [(16, 3)] },
  { code := 0x0805, ptr := 1, len := .exact 264, reads := false }]

/-- Switch channels (R300). -/
def ops09 : List OpInfo := [
  { code := 0x0900, tgt := .types [8], spans := [(16, 1), (24, 8)] },
  { code := 0x0901, tgt := .types [8], spans := [(16, 1)] },
  { code := 0x0902, ptr := 1, len := .exact 64, reads := false }]

/-- Solenoid banks (R323). -/
def ops10 : List OpInfo := [
  { code := 0x0A00, spans := [(16, 1), (18, 18)] },
  { code := 0x0A01, tgt := .types [7], spans := [(16, 1), (24, 8)] },
  { code := 0x0A02, tgt := .types [7], spans := [(16, 1)] },
  { code := 0x0A03, ptr := 1, len := .exact 32, reads := false }]

/-- Kinematics (R149). -/
def ops04 : List OpInfo := [
  { code := 0x0400, ptr := 1, len := .exact 256 },
  { code := 0x0401, ptr := 1, len := .exact 256, reads := false },
  { code := 0x0402, spans := [(16, 24)] },
  { code := 0x0403, spans := [(16, 8)] },
  { code := 0x0404, spans := [(16, 8)] },
  { code := 0x0405, spans := [(16, 25)] },
  { code := 0x0406, ptr := 1, len := .exact 160, reads := false },
  { code := 0x0407, tgt := .types [12], spans := [(16, 4)] }]

/-- Coverage board (R185). -/
def ops05 : List OpInfo := [
  { code := 0x0500, tgt := .types [13], spans := [(16, 1)] },
  { code := 0x0501, tgt := .types [13], ptr := 1 },
  { code := 0x0502, tgt := .types [13], ptr := 1, len := .tile, pspans := [(32, 4)], reads := false },
  { code := 0x0503, tgt := .types [13], ptr := 1, len := .tile, pspans := [(32, 4)] },
  { code := 0x0504, tgt := .types [13], spans := [(16, 4), (24, 8)] },
  { code := 0x0505, tgt := .types [13], spans := [(16, 8)] },
  { code := 0x0506, tgt := .types [13], spans := [(16, 14)] }]

/-- Motion axes (R347). -/
def ops11 : List OpInfo := [
  { code := 0x0B00, tgt := .types [5], spans := [(16, 1), (20, 4), (24, 8), (32, 8)] },
  { code := 0x0B01, tgt := .types [5], spans := [(16, 1)] },
  { code := 0x0B02, tgt := .types [5], spans := [(16, 3), (24, 8)] },
  { code := 0x0B03, tgt := .types [5] },
  { code := 0x0B04, tgt := .types [5], spans := [(24, 8)] }]

/-- Loops (R252). -/
def ops07 : List OpInfo := [
  { code := 0x0700, tgt := .types [4], ptr := 1, len := .bank, pspans := [(32, 4)] },
  { code := 0x0701, tgt := .types [4], spans := [(16, 1), (24, 8)] },
  { code := 0x0702, tgt := .types [4], spans := [(16, 5)] },
  { code := 0x0703, tgt := .types [4], spans := [(16, 2), (20, 4), (24, 8)] },
  { code := 0x0704, tgt := .types [4], spans := [(16, 4)] },
  { code := 0x0705, tgt := .types [4], spans := [(16, 1)] },
  { code := 0x0706, tgt := .types [4], ptr := 1, pspans := [(32, 4)], reads := false }]

/-- Feedback (R369). -/
def ops12 : List OpInfo := [
  { code := 0x0C00, tgt := .types [6], spans := [(24, 8)] },
  { code := 0x0C01, tgt := .types [6] },
  { code := 0x0C02, spans := [(16, 3)] },
  { code := 0x0C03, spans := [(16, 16)] }]

/-- Section scheduling (R224). -/
def ops06 : List OpInfo := [
  { code := 0x0600, tgt := .types [1, 2], spans := [(16, 3), (24, 16)] },
  { code := 0x0601, tgt := .types [3], spans := [(16, 3), (24, 16)] },
  { code := 0x0602, tgt := .types [3], spans := [(16, 1)] },
  { code := 0x0603, tgt := .types [3], spans := [(16, 5)] },
  { code := 0x0604, tgt := .types [1, 2, 3] },
  { code := 0x0605, tgt := .types [1, 2], spans := [(16, 8)] },
  { code := 0x0606 },
  { code := 0x0607, spans := [(16, 2)] }]

/-- CAN and ISOBUS (R401). -/
def ops13 : List OpInfo := [
  { code := 0x0D00, tgt := .types [11], ptr := 2, spans := [(16, 3), (20, 24)], len := .exact 80 },
  { code := 0x0D01, tgt := .types [11], ptr := 1, pspans := [(32, 4)], len := .mult 80, reads := false },
  { code := 0x0D02, tgt := .types [11], ptr := 1, len := .multMost 16 1024 },
  { code := 0x0D03, tgt := .types [11], spans := [(16, 3), (20, 20)] },
  { code := 0x0D04, tgt := .types [11], spans := [(16, 1)] },
  { code := 0x0D05, tgt := .types [11], spans := [(16, 2), (20, 24)] },
  { code := 0x0D06, spans := [(16, 20)] },
  { code := 0x0D07 },
  { code := 0x0D08, ptr := 1, len := .exact 96 },
  { code := 0x0D09, ptr := 1 },
  { code := 0x0D0A, spans := [(16, 1)] },
  { code := 0x0D0B, ptr := 1, len := .atLeast 8 },
  { code := 0x0D0C, ptr := 1, pspans := [(32, 4)], reads := false },
  { code := 0x0D0D, ptr := 1, len := .exact 64, reads := false }]

/-- FS-216 mode (R429). -/
def ops14 : List OpInfo := [
  { code := 0x0E00, ptr := 1, len := .exact 80 },
  { code := 0x0E01, ptr := 1, len := .exact 32, reads := false }]

/-- Island (R483). -/
def ops16 : List OpInfo := [
  { code := 0x0100, spans := [(16, 1)] },
  { code := 0x0101 },
  { code := 0x0102, spans := [(16, 1)] },
  { code := 0x0103, ptr := 1, len := .mult 32, pspans := [(32, 4)], reads := false }]

/-- Power and boot (R512). -/
def ops17 : List OpInfo := [
  { code := 0x0110 },
  { code := 0x0111 },
  { code := 0x0112, spans := [(16, 3), (20, 4)] },
  { code := 0x0113, spans := [(16, 1)] },
  { code := 0x0114 },
  { code := 0x0115, ptr := 1, len := .exact 64, reads := false },
  { code := 0x0116 }]

/-- Security (R458). -/
def ops15 : List OpInfo := [
  { code := 0x0F00, ptr := 1, len := .exact 32, reads := false },
  { code := 0x0F01, ptr := 1, len := .exact 64 },
  { code := 0x0F02, ptr := 1, len := .exact 80 },
  { code := 0x0F03 },
  { code := 0x0F04, ptr := 1, len := .exact 32 },
  { code := 0x0F05, ptr := 1, len := .exact 48 },
  { code := 0x0F06, spans := [(16, 1)] },
  { code := 0x0F07, spans := [(16, 1)] },
  { code := 0x0F08, spans := [(16, 1)] },
  { code := 0x0F09, ptr := 1, pspans := [(32, 4)], len := .atMost 65536 },
  { code := 0x0F0A },
  { code := 0x0F0B, spans := [(16, 1)] },
  { code := 0x0F0C }]

/-- Every opcode of the device. -/
def opTable : List OpInfo := ops02 ++ ops03 ++ ops04 ++ ops05 ++ ops06 ++ ops07 ++ ops08 ++ ops09 ++ ops10 ++ ops11 ++ ops12 ++ ops13 ++ ops14 ++ ops15 ++ ops16 ++ ops17

def opInfo (code : Nat) : Option OpInfo := opTable.find? fun i => i.code == code

/-- Opcodes open to role NONE (R436). -/
def opsNone : List Nat := [
  0x0000, 0x0007, 0x0004, 0x0008, 0x0301, 0x0307, 0x0401, 0x0406, 0x0407, 0x0706, 0x0502, 0x0506, 0x0805, 0x0902, 0x0A03, 0x0D0D,
  0x0E01, 0x0F01, 0x0F02, 0x0F04, 0x0F00]
/-- Opcodes that need SERVICE; CREATE and DESTROY of a TABLE are added by type (R436). -/
def opsService : List Nat := [0x0303, 0x0304, 0x0305, 0x0306, 0x0605, 0x0607, 0x0400, 0x0D08, 0x0D09, 0x0D0A, 0x0302]
/-- Opcodes that need OWNER (R436). -/
def opsOwner : List Nat := [0x0F05, 0x0F06, 0x0F07, 0x0F08, 0x0F09, 0x0F0A, 0x0F0B, 0x0F0C]

/-- The role an opcode needs (R436). -/
def needRole (code : Nat) (d : Desc) : Nat :=
  if (code = 0x0001 ∨ code = 0x0002) ∧ hType (dHandle d) = tyTable then roleService
  else if opsNone.contains code then roleNone
  else if opsService.contains code then roleService
  else if opsOwner.contains code then roleOwner
  else roleOperator

/-- Opcodes served in bare king (R509). -/
def opsBareKing : List Nat :=
  [0x0000, 0x0008, 0x0F00, 0x0F01, 0x0F02, 0x0F03, 0x0F04, 0x0F08, 0x0F09, 0x0F0A, 0x0103, 0x0102, 0x0115, 0x0116]

/-- Opcodes that only FS-216 mode serves (R426, R429). -/
def opsFs216 : List Nat := [0x0E00, 0x0E01]

/-- An opcode is available in the present device mode (R41 step 4, R65, R509). -/
def modeServes (m : Mode) (code : Nat) : Bool :=
  match m with
  | .bareKing => opsBareKing.contains code
  | .fs216 => true
  | _ => !opsFs216.contains code

/-- The role a descriptor acts with (R436). -/
def roleOfDesc (s : State) (d : Desc) : Nat :=
  if dTagLen d = 16 then ((sessionOn s d.sq).map (·.role)).getD 0 else s.sec.untagged

/-- The bytes that must be 0 (R41 step 5): parameter bytes 16 to 47 that neither the opcode nor the chosen form names. BCRC,
which R37 defines with PTR, is refused without it: DESIGN CHOICE (log 28). -/
def reservedOk (i : OpInfo) (d : Desc) : Bool :=
  let named (k : Nat) : Bool :=
    (if dPtr d then
      decide (16 ≤ k ∧ k < 28) || (dBcrc d && decide (28 ≤ k ∧ k < 32)) || i.pspans.any (fun r => decide (r.1 ≤ k ∧ k < r.1 + r.2))
    else i.spans.any fun r => decide (r.1 ≤ k ∧ k < r.1 + r.2))
    || (dSealed d && decide (44 ≤ k ∧ k < 46))
  (List.range 32).all (fun j => named (16 + j) || u8 d.bytes (16 + j) == 0)
    && dFlags d % 4 == 0 && (dPtr d || !dBcrc d)
    && (dTagLen d != 0 || zeroBytes d.bytes 48 16)

/-- The bytes that the chosen form of an opcode does not use are reserved (R41): 24 to 39 of a scheduler command for NOW, 32
to 39 for TIME and PATH (R209); 20 to 23 of AXIS_TARGET but for TIMED, and 28 to 31 for VELOCITY (R347). -/
def formRsvOk (code : Nat) (d : Desc) : Bool :=
  if code = 0x0600 ∨ code = 0x0601 then
    (if u8 d.bytes 17 = 0 then zeroBytes d.bytes 24 16 else if u8 d.bytes 17 = 2 then true else zeroBytes d.bytes 32 8)
  else if code = 0x0B00 then
    (u8 d.bytes 16 == 3 || zeroBytes d.bytes 20 4) && (u8 d.bytes 16 != 2 || zeroBytes d.bytes 28 4)
  else true

/-- The presence of PTR (R546); CREATE requires it for a TABLE, which has no default image (R95). -/
def ptrOk (i : OpInfo) (d : Desc) : Bool :=
  if i.code = 0x0001 ∧ hType (dHandle d) = tyTable then dPtr d
  else i.ptr == 2 || (if dPtr d then i.ptr == 1 else i.ptr == 0)

/-- Step 6 of R41: generation, then type (R60). -/
def handleBad (s : State) (tgt : Target) (h : Nat) : Option Nat :=
  let present : Option Nat :=
    if (objOf s h).isSome then none
    else if s.objs.any (fun o => o.idx == hIndex h && o.gen == h / 2 ^ 24) then some stWrongType else some stBadHandle
  match tgt with
  | .dev => if h = 0 then none else some (present.getD stWrongType)
  | .anyDev => if h = 0 then none else present
  | .types tys => if h = 0 then some stWrongType else
      match present with
      | some e => some e
      | none => if tys.contains (hType h) then none else some stWrongType
  | .create tys => if h % 2 ^ 16 ≠ 0 ∨ h ≥ 2 ^ 24 then some stBadHandle
      else if tys.contains (hType h) then none else some stWrongType

/-- A layer of kind coverage (R154), and the bytes of a tile of it (R157). -/
def layCov (o : Obj) : Bool := u8 o.act 0 == 1
def tileBytes (o : Obj) : Nat := if layCov o then 1024 else 4096

/-- The length rule of R546. -/
def lenOk (s : State) (r : LenRule) (d : Desc) : Bool :=
  let n := dBlockLen d
  match r with
  | .any => true
  | .exact k => n == k
  | .mult k => n % k == 0
  | .atMost k => decide (n ≤ k)
  | .atLeast k => decide (k ≤ n)
  | .multMost k m => n % k == 0 && decide (n ≤ m)
  | .tile => match objOf s (dHandle d) with
    | some o => n == tileBytes o
    | none => true
  | .bank => decide (68 ≤ n) && (n - 48) % 20 == 0

/-- Bytes of the longest block (R38). -/
def maxBlock : Nat := 256 * 1024

/-- The parameter block as the device reads it (R38, R40): what it read once when the descriptor started, else from the
mailbox, or what the host's memory gave. -/
def blockOf (s : State) (d : Desc) : List Byte :=
  match (s.hif.started.find? fun x => decide (x.desc = d)).bind (·.block) with
  | some b => b
  | none =>
    if ptrMailbox (dBlockPtr d) then memReadN s.mailbox (dBlockPtr d % mailboxSize) (dBlockLen d) else padTo (dBlockLen d) d.block

/-- The pointer: 8 B aligned, in the mailbox with bits [62:16] zero, or in host memory but not under SPI (R34, R38). -/
def pointerOk (s : State) (d : Desc) : Bool :=
  dBlockPtr d % 8 == 0 && (if ptrMailbox (dBlockPtr d) then decide (dBlockPtr d % 2 ^ 63 < mailboxSize) else !linkSpi s)

/-- A block in the mailbox that runs beyond its end is not read (R67). -/
def blockBeyond (d : Desc) : Bool :=
  ptrMailbox (dBlockPtr d) && decide (mailboxSize < dBlockPtr d % mailboxSize + dBlockLen d)

/-- Steps 1 and 2 of R41: the seal. -/
def sealBad (s : State) (d : Desc) : Option Nat :=
  if s.hif.sealReq && !dSealed d then some stSealRequired
  else if dSealed d && u16 d.bytes 44 != sealOf d.bytes then some stTouched
  else none

/-- Step 4 of R41: opcode, mode and role. -/
def opcodeBad (m : Mode) (role : Nat) (d : Desc) : Option Nat :=
  match opInfo (dOp d) with
  | none => some stBadOpcode
  | some i =>
    if !modeServes m i.code then some stModeRefused
    else if role < needRole i.code d then some 0x0F01
    else none

/-- Steps 5 to 7 of R41 for opcode `i`, the block fetch excepted. -/
def formBad (s : State) (i : OpInfo) (d : Desc) : Option Nat :=
  if !reservedOk i d || !formRsvOk i.code d || !ptrOk i d then some stBadParam
  else match handleBad s i.tgt (dHandle d) with
    | some e => some e
    | none =>
      if !dPtr d then none
      else if dBlockLen d > maxBlock || !lenOk s i.len d then some stBadLength
      else if !pointerOk s d then some stBadParam
      else if i.reads && dBcrc d && !blockBeyond d && crc32 (blockOf s d) != dBlockCrc d then some stBlockCrc
      else none

/-- A descriptor that was fetched and executes: not one refused at its fetch or a RING_SYNC that waits, and not before its
turn (R51, R52). One that was never fetched may execute. -/
def mayExecute (s : State) (d : Desc) : Bool :=
  match s.hif.started.find? fun x => decide (x.desc = d) with
  | none => true
  | some x => x.verdict.isNone && !x.sync && turnOf s x

/-- A failed access to a parameter block in the mailbox (R67). -/
def blockFault (d : Desc) (s : State) : State := raise0 0x0083 0 ([0xFF, 0, 0, 0] ++ leBytes 4 (dBlockPtr d % mailboxSize)) s

/-- Execute a descriptor's command: steps 4 to 7 of R41 as they stand when it executes, then the body, which judges
the parameter values (step 8). Before its turn nothing happens. -/
def runDesc (code : Nat) (d : Desc) (body : State → State) (s : State) : State :=
  let role := if s.hif.started.any (fun x => decide (x.desc = d)) then (startedOf s d).role else roleOfDesc s d
  if !mayExecute s d then s
  else match opInfo code with
  | none => fail d stBadOpcode s
  | some i =>
    if !modeServes s.boot.mode code then fail d stModeRefused s
    else if role < needRole code d then fail d 0x0F01 s
    else match formBad s i d with
      | some e => fail d e s
      | none =>
        if dPtr d && i.reads && blockBeyond d then
          fail d stDmaError (blockFault d s)
        else body s

/-- As `runDesc`, for an opcode that acts on the object its handle names. -/
def runObj (code : Nat) (d : Desc) (body : Obj → State → State) (s : State) : State :=
  runDesc code d (fun s => match objOf s (dHandle d) with
    | some o => body o s
    | none => fail d stBadHandle s) s

end Sys2Proof.Machine
end

