-- ==== Sys2Proof/Machine/Axes.lean ====
section
/-! DEFINITION. Motion axes (11, R326 to R349): targets, stops, homing, limits, compares, follow mode and the axis
job, over the generators of `Machine/Motors.lean`. -/

namespace Sys2Proof.Machine

/-! ## Homing (R341, R342) -/

/-- An event for the homing table of an axis that homes. -/
def axEvent (o : Obj) (code : Nat) (s : State) : State :=
  if ((objAt s o.idx).map fun o => (axOf o).homing).getD false then smQueue (handleOf o) 52 code s else s

/-- The read-only inputs of the homing table (R341). -/
def axInputs (s : State) (o : Obj) : List F32 :=
  let r := axOf o
  let b (x : Bool) : F32 := if x then fOne else fZero
  let home := u8 o.act 48 != 0xFF && s.pg.gpio.getD (u8 o.act 48) false == bit (axFlags o.act) 4
  [fxToF 63 (axFx r.p), fxToF 64 r.v, b (axLimit s o.act true), b (axLimit s o.act false), b home,
   fxToF 65 (axFx r.idxPos), fOfInt r.limits, if r.lastRev then fOfInt (-1) else fOne]

/-- What the homing table asks of its axis, from the end of the job's slot on (R341). -/
def axSmOut (slotEnd : Nat) (o : Obj) (s : State) (x : SmOut) : State :=
  let h := handleOf o
  match x with
  | .output 0 v => updAx o.idx (fun r => { r with jobTgt := some (slotEnd, { kind := 2, value := fxF v }) }) s
  | .output 1 v => updAx o.idx (fun r => { r with jobTgt := some (slotEnd, { kind := 0, value := axOfFx (fxF v) }) }) s
  | .output _ _ => s
  | .command 0 _ => updAx o.idx (fun r => { r with jobTgt := some (slotEnd, { kind := 2, value := 0 }) }) s
  | .command 1 v => axCancel o.idx (updAx o.idx (fun r => { r with setPos := some (axOfFx (fxF v)) }) s)
  | .command 2 _ =>
    let s := updAx o.idx (fun r => { r with homing := false, homed := true }) s
    let p := ((objAt s o.idx).map fun o => (axOf o).setPos.getD (axOf o).p).getD 0
    finishDeferred 0x0B03 h {} (raiseE 0x0B43 0 h o.epoch (iBytes 8 (Int.tdiv p axCount)) s)
  | .command 3 _ => axStop o.idx false (axHomeFail o.idx 2 s)
  | .command _ _ => s
  | .event code v => raiseE code 0 h o.epoch (fBytes v) s
  | .loop st => class1 h 0x0346 (leBytes 1 st) s

/-- One run of the homing table, after the expiries that have come. -/
def axHomeRun (tk slotEnd : Nat) (o : Obj) (s : State) : State :=
  let s := smDue (handleOf o) 52 s
  let o := (objAt s o.idx).getD o
  match tableOf s (u32 o.act 52), o.sms.find? fun m => m.off == 52 with
  | some b, some m =>
    let x := smRun tk b (axInputs s o) m
    let s := updObj o.idx (fun o => { o with sms := o.sms.map fun m => if m.off = 52 then x.1 else m }) s
    x.2.foldl (axSmOut slotEnd o) s
  | _, _ => s

/-! ## Generator updates (R328, R329, R344) -/

/-- The host target that is due at an update takes effect, or is refused there: while homing, and towards an active
limit (R328, R339, R341). -/
def axHostTarget (t i : Nat) (s : State) : State :=
  match objAt s i with
  | none => s
  | some o =>
    match firstDue s 0x0B00 (handleOf o) (· == 0) with
    | none => s
    | some x =>
      if t < x.due then s
      else
        let b := x.st.desc.bytes
        let k := u8 b 16
        let tgt : ATgt := { kind := k, dur := u32 b 20, value := if k = 2 then fxF (f32 b 24) else i64 b 24 * axCount }
        if (axOf o).homing then completeDeferred x { status := 0x0B06 } s
        else if axBlocked s o.act (axTgtDir (axOf o) tgt) then completeDeferred x { status := 0x0B05 } s
        else
          let s := axTakeTarget i tgt true s
          { s with hif := { s.hif with deferred := s.hif.deferred.map fun y => if y = x then { y with arg := 1 } else y } }

/-- The target that the job committed takes effect once its slot has ended (R326). -/
def axJobTarget (t i : Nat) (s : State) : State :=
  match (objAt s i).bind fun o => (axOf o).jobTgt with
  | none => s
  | some (e, tgt) => if t < e then s else axTakeTarget i tgt false (updAx i (fun r => { r with jobTgt := none }) s)

/-- Edge channel `c` takes a level, unless the safe force holds it (R338, R273). -/
def driveEch (c : Nat) (level : Bool) (s : State) : State :=
  if c < 112 ∨ 128 ≤ c ∨ s.isl.estopLatch ∨ safeForced s then s
  else { s with pg := { s.pg with ech := s.pg.ech.set (c - 112) level } }

/-- A compare ends: its descriptor completes with the distance [counts] and the firing tick (R338). -/
def axCompareEnd (o : Obj) (c : ACmp) (status t : Nat) (dist : Int) (s : State) : State :=
  let s := updAx o.idx (fun r => { r with compares := r.compares.erase c }) s
  match s.hif.deferred.find? fun x => x.op == 0x0B02 && x.handle == handleOf o && decide (x.st.desc = c.desc) with
  | none => s
  | some x => completeDeferred x { status := status, gtc := some t, result := fBytes (fxToF 66 (axFx dist)) } s

/-- Judge one compare against p at this update, by the procedure of R197 (R338). -/
def axJudge (t : Nat) (o : Obj) (c : ACmp) (s : State) : State :=
  match objAt s o.idx with
  | none => s
  | some o =>
    let r := axOf o
    let dir : Int := if r.v ≠ 0 then sgn r.v else if r.moved then (if r.lastRev then -1 else 1) else if c.rev then -1 else 1
    let d := (c.value * axCount - r.p) * dir
    if 0 ≤ d then
      updAx o.idx (fun r => { r with compares := r.compares.map fun x => if x = c then { c with armed := true, dir := dir } else x }) s
    else if -d ≤ u16 o.act 44 * axCount then
      let s := updAx o.idx (fun r => { r with lateN := satInc 32 r.lateN }) s
      axCompareEnd o c 0x0B01 t (-d) (driveEch c.edge c.level s)
    else axCompareEnd o c 0x0B02 t (-d) (updAx o.idx (fun r => { r with behindN := satInc 32 r.behindN }) s)

/-- The motion of one update: a target of a driving object towards an active limit is held at a velocity of 0 (R339);
motion that waits for its output does not begin (R337). -/
def axMotion (t : Nat) (o : Obj) (s : State) : AxRt × Bool :=
  let r := axOf o
  let dir := sgn (axCommand o.act r (axFx (r.tgtP - r.p)))
  let held := !r.homing && !r.host && axBlocked s o.act dir
  if r.wait ≠ 0 ∧ r.v = 0 ∧ r.a = 0 then ({ r with p0 := r.p, v0 := 0, t0 := t }, false)
  else
    let x := axStep o.act (if held then { r with mode := 1, tgtV := 0 } else r)
    let moving := decide (x.v ≠ 0 ∨ x.p ≠ r.p)
    let r' := { r with
      p0 := r.p, v0 := r.v, t0 := t, p := x.p, v := x.v, a := x.a
      exc := max r.exc ((x.p - r.fromP) * r.fromDir)
      arriveV := if x.arrived && r.busy then fxToF 67 x.arrive else r.arriveV
      moved := r.moved || moving
      lastRev := if moving then decide (x.p < r.p ∨ (x.p = r.p ∧ x.v < 0)) else r.lastRev }
    (if axKind o.act = 0 then axOutput o.act r' else r', x.arrived)

/-- Ends that an update brings: arrival, a velocity reached, rest (R332, R341). -/
def axEnds (t : Nat) (arrived : Bool) (i : Nat) (s : State) : State :=
  match objAt s i with
  | none => s
  | some o =>
    let r := axOf o
    let s :=
      if r.busy ∧ r.mode = 0 ∧ arrived then
        axEvent o 0x0B65 (axEnd i 0 (updAx i (fun r => { r with lastStop := t }) s))
      else if r.busy ∧ r.mode = 1 ∧ r.v = r.tgtV then
        let s := axEnd i 0 (if r.tgtV = 0 then updAx i (fun r => { r with lastStop := t }) s else s)
        if r.tgtV = 0 then axEvent o 0x0B66 s else s
      else s
    axSettle i (updAx i (fun r => { r with
      stillAt := if r.v ≠ 0 ∨ r.busy then none else some (r.stillAt.getD t) }) s)

/-- One update of one generator, in the order of R344. -/
def axUpdate (t i : Nat) (s : State) : State :=
  if s.isl.estopLatch || safeForced s || s.pwr.linesOff then axSettle i (axSafe i s)
  else
    let s := updAx i (fun r => match r.setPos with
      | none => r
      | some p => { r with p := p, setPos := none, tgtP := if r.mode = 0 && !r.busy then p else r.tgtP }) s
    let s := axHostTarget t i (axJobTarget t i s)
    match objAt s i with
    | none => s
    | some o =>
      let m := axMotion t o s
      let s := updAx i (fun _ => m.1) s
      let s := (m.1.compares.filter fun c => !c.armed).foldl (fun s c => axJudge t o c s) s
      axEnds t m.2 i s

/-- GENERATOR_UPDATE: every 1,200 TCLK the generators of all axes move on (R326, R329). -/
def execGeneratorUpdate (s : State) : Host.Outcome State Fault Refusal :=
  .next (
    let t := (s.gtc / axTicks + 1) * axTicks
    let s := toInstant t s
    (objsOf s tyAxis).foldl (fun s o => axUpdate t o.idx s) s)

/-- AXIS_COMPARE_FIRE: an armed compare fires on the first tick of the present interval at which p has reached it in its
direction, and drives its edge channel (R338). -/
def execAxisCompareFire (h : Nat) (s : State) : Host.Outcome State Fault Refusal :=
  .next (match objOf s h with
    | none => s
    | some o =>
      let r := axOf o
      let due := r.compares.filterMap fun c =>
        if c.armed then (axFirstTick r fun p => decide (0 ≤ (p - c.value * axCount) * c.dir)).map fun t => (t, c) else none
      match due.foldl (fun (b : Option (Nat × ACmp)) x => match b with
        | none => some x
        | some y => if x.1 < y.1 then some x else some y) none with
      | none => s
      | some (t, c) => axCompareEnd o c 0 t 0 (driveEch c.edge c.level (toInstant t s)))

/-! ## Host commands (R347) -/

/-- AXIS_TARGET (R328, R332): deferred; a pending target is replaced. -/
def bodyAxisTarget (d : Desc) (o : Obj) (s : State) : State :=
  let b := d.bytes
  let k := u8 b 16
  let h := handleOf o
  if 4 ≤ k ∨ (k = 2 ∧ !fFinite (f32 b 24)) then fail d stBadParam s
  else if !isEnabled o || axFaulting o then fail d stState s
  else if (driverOf s h).isSome then fail d 0x0B08 s
  else if (axOf o).homing then fail d 0x0B06 s
  else defer d 0x0B00 h (u64 b 32) [] 0 (axDropPending o.idx 0x0B03 s)

def execAxisTarget (d : Desc) (s : State) : Host.Outcome State Fault Refusal := .next (runObj 0x0B00 d (bodyAxisTarget d) s)

/-- AXIS_STOP (R342, R347): completes at rest; a cut is that of fault action 1, and the standstill option applies (R343). -/
def bodyAxisStop (d : Desc) (o : Obj) (s : State) : State :=
  if 2 ≤ u8 d.bytes 16 then fail d stBadParam s
  else if o.ost = .disabled then fail d stState s
  else
    let s := axHomeFail o.idx 3 s
    let cut := u8 d.bytes 16 == 1
    axStop o.idx cut (updAx o.idx (fun r => { r with stopDescs := r.stopDescs ++ [d], atRest := if cut then 1 else r.atRest }) s)

def execAxisStop (d : Desc) (s : State) : Host.Outcome State Fault Refusal := .next (runObj 0x0B01 d (bodyAxisStop d) s)

/-- AXIS_COMPARE (R338): at most four, deferred. -/
def bodyAxisCompare (d : Desc) (o : Obj) (s : State) : State :=
  let b := d.bytes
  let c := u8 b 17
  if 2 ≤ u8 b 16 ∨ 2 ≤ u8 b 18 ∨ ¬ (c = 0xFF ∨ (112 ≤ c ∧ c < 128)) then fail d stBadParam s
  else if !isEnabled o then fail d stState s
  else if c ≠ 0xFF ∧ (pwmOnChan s c).isSome then fail d stInUse s
  else if 4 ≤ (axOf o).compares.length then fail d 0x0B09 s
  else
    let x : ACmp := { desc := d, value := i64 b 24, rev := u8 b 16 == 1, edge := c, level := u8 b 18 == 1 }
    defer d 0x0B02 (handleOf o) 0 [] 0 (updAx o.idx (fun r => { r with compares := r.compares ++ [x] }) s)

def execAxisCompare (d : Desc) (s : State) : Host.Outcome State Fault Refusal := .next (runObj 0x0B02 d (bodyAxisCompare d) s)

/-- AXIS_HOME (R341): the table starts in its initial state; without a table or on an axis that is not ENABLED STATE,
on a driven one AXIS_DRIVEN (log 20). -/
def bodyAxisHome (d : Desc) (o : Obj) (s : State) : State :=
  match tableOf s (u32 o.act 52) with
  | none => fail d stState s
  | some b =>
    if !isEnabled o then fail d stState s
    else if (driverOf s (handleOf o)).isSome then fail d 0x0B08 s
    else if (axOf o).homing then fail d 0x0B06 s
    else
      let s := updObj o.idx (fun o => { o with sms := [smRestart b (o.sms.find? fun m => m.off == 52)] }) s
      defer d 0x0B03 (handleOf o) 0 [] 0 (updAx o.idx (fun r => { r with homing := true, homeFail := 0, limits := 0 }) s)

def execAxisHome (d : Desc) (s : State) : Host.Outcome State Fault Refusal := .next (runObj 0x0B03 d (bodyAxisHome d) s)

/-- AXIS_SET_POS (R347): at standstill and not homing; armed compares are cancelled (R338). -/
def bodyAxisSetPos (d : Desc) (o : Obj) (s : State) : State :=
  let r := axOf o
  if r.v ≠ 0 ∨ r.busy ∨ r.homing then fail d stState s
  else
    let p := i64 d.bytes 24 * axCount
    ok d (axCancel o.idx (updAx o.idx (fun r => { r with p := p, p0 := p, v0 := 0, tgtP := p }) s))

def execAxisSetPos (d : Desc) (s : State) : Host.Outcome State Fault Refusal := .next (runObj 0x0B04 d (bodyAxisSetPos d) s)

/-! ## Inputs (R336, R339 to R341) -/

/-- A limit input of one axis has asserted: `pos` for lim_pos (R339, R341, R342). -/
def axLimitOn (pos : Bool) (o : Obj) (s : State) : State :=
  let r := axOf o
  let h := handleOf o
  let side : Nat := if pos then 0 else 1
  if r.homing then
    let s := axEvent o (if pos then 0x0B60 else 0x0B61) (updAx o.idx (fun r => { r with limits := r.limits + 1 }) s)
    if 1 ≤ r.limits then axStop o.idx false (axHomeFail o.idx 1 s) else s
  else
    let dir := if r.v ≠ 0 then sgn r.v else if r.busy then sgn (axCommand o.act r (axFx (r.tgtP - r.p))) else 0
    if dir = (if pos then 1 else -1) then
      let s := updAx o.idx (fun r => { r with limStop := true, limitStops := satInc 32 r.limitStops }) s
      raiseE 0x0B40 0 h o.epoch (leBytes 1 side ++ [1]) (axStop o.idx false s)
    else raiseE 0x0B40 0 h o.epoch (leBytes 1 side ++ [0]) s

/-- Transitions of one input within the chatter window that ends now (R340). -/
def axTransitions (ps : List Byte) (r : AxRt) (g now : Nat) : Nat :=
  (r.trans.filter fun x => x.1 == g && decide (now < x.2 + u16 ps 50 * msTicks)).length

/-- A GPIO's new level reaches one axis: transitions are counted, limits act, home events go to the table. -/
def axGpioOne (g : Nat) (level : Bool) (i : Nat) (s : State) : State :=
  match objAt s i with
  | none => s
  | some o =>
    let lp := u8 o.act 46 == g
    let ln := u8 o.act 47 == g
    let hm := u8 o.act 48 == g
    if !(lp || ln || hm) || o.ost == .disabled then s
    else
      let s := updAx i (fun r => { r with
        trans := (r.trans.filter fun x => decide (s.gtc < x.2 + u16 o.act 50 * msTicks)) ++ [(g, s.gtc)] }) s
      let s := if hm then axEvent o (if level == bit (axFlags o.act) 4 then 0x0B62 else 0x0B63) s else s
      let act := level == bit (axFlags o.act) 3
      let s := if lp && act then axLimitOn true o s else s
      if ln && act then axLimitOn false ((objAt s i).getD o) s else s

/-- A GPIO's new filtered level reaches every axis that names it as a limit or home input. -/
def axGpio (g : Nat) (level : Bool) (s : State) : State :=
  (objsOf s tyAxis).foldl (fun s o => axGpioOne g level o.idx s) s

/-- LIMIT_CHATTER: more than chat_k transitions of one input within chat_w: a quick stop whatever fault_action says,
class 1 (R340). -/
def execLimitChatter (h gpio : Nat) (s : State) : Host.Outcome State Fault Refusal :=
  .next (match objOf s h with
    | none => s
    | some o =>
      let n := axTransitions o.act (axOf o) gpio s.gtc
      if o.typ ≠ tyAxis ∨ !isEnabled o ∨ n ≤ u8 o.act 49 then s
      else
        class1 h 0x0B41 (leBytes 1 gpio ++ [0, 0, 0] ++ leBytes 4 n)
          (updAx o.idx (fun r => { r with chatter := true, trans := [] }) s))

/-- An index pulse of a FEEDBACK reaches the axes that read it (R341, R355). -/
def axIndex (fb : Nat) (s : State) : State :=
  ((objsOf s tyAxis).filter fun o => u32 o.act 56 == fb).foldl (fun s o =>
    axEvent o 0x0B64 (updAx o.idx (fun r => { r with idxPos := axPosAt r s.gtc }) s)) s

/-- A rising edge of STEPINn at `t` moves the target of each axis that follows it (R336). -/
def stepinEdge (n t : Nat) (s : State) : State :=
    let s := toInstant t s
    ((objsOf s tyAxis).filter fun o => isEnabled o && (axOf o).mode == 2 && u8 o.act 101 == n).foldl (fun s o =>
      let back := u8 o.act 102 != 0xFF && s.pg.gpio.getD (u8 o.act 102) false
      let k : Int := if back then -(u8 o.act 103 : Int) else u8 o.act 103
      let s := updAx o.idx (fun r =>
        let est : Int := match r.stepLast with
          | none => 0
          | some l => if t - l ≤ u16 o.act 110 * msTicks ∧ l < t then k * 2 ^ 96 * secTicks / ((t - l : Nat) : Int) else 0
        { r with tgtP := r.tgtP + k * axCount, vEst := est, stepLast := some t }) s
      axWake o.idx s) s

/-- STEPIN_EDGE: a rising edge of STEPINn (R336). -/
def execStepinEdge (n t : Nat) (s : State) : Host.Outcome State Fault Refusal := .next (stepinEdge n t s)

/-- STEPIN_TIMEOUT: no edge for stepin_to (R336). -/
def execStepinTimeout (h : Nat) (s : State) : Host.Outcome State Fault Refusal :=
  .next (match objOf s h with
    | none => s
    | some o => match (axOf o).stepLast with
      | none => s
      | some l => updAx o.idx (fun r => { r with vEst := 0, stepLast := none }) (toInstant (l + u16 o.act 110 * msTicks) s))

/-! ## Timers (R337, R343) -/

/-- AXIS_IDLE_TIMEOUT: idle_ms of standstill (R337). -/
def execAxisIdleTimeout (h : Nat) (s : State) : Host.Outcome State Fault Refusal :=
  .next (match objOf s h with
    | none => s
    | some o => match (axOf o).stillAt with
      | none => s
      | some t => if !isEnabled o || (axOf o).optIn then s else axOption o.idx (u8 o.act 23) (toInstant (t + u16 o.act 28 * msTicks) s))

/-- AXIS_ENABLE_SETUP_END: en_setup after en_gpio enables, held motion starts (R337). -/
def execAxisEnableSetupEnd (h : Nat) (s : State) : Host.Outcome State Fault Refusal :=
  .next (match objOf s h with
    | none => s
    | some o =>
      if (axOf o).wait = 1 then updAx o.idx (fun r => { r with wait := 0 }) (toInstant ((axOf o).enAt + u16 o.act 30 * usTicks) s)
      else s)

/-- AXIS_FE_TIMEOUT: a following error has persisted for fe_time (R343). -/
def execAxisFeTimeout (h : Nat) (s : State) : Host.Outcome State Fault Refusal :=
  .next (match objOf s h with
    | none => s
    | some o => match (axOf o).feSince with
      | none => s
      | some t =>
        let s := toInstant (t + u32 o.act 68 * usTicks) s
        class1 h 0x0B44 (fBytes (axOf o).feDiff) (updAx o.idx (fun r => { r with feSince := none }) s))

/-! ## The job (R326, R343, R345) -/

/-- fb_scale × the feedback position [counts]. -/
def axFbPos (s : State) (o : Obj) : Option Fx :=
  (objOf s (u32 o.act 56)).map fun f =>
    let x : Fx := if fbKind f.act = 4 then fxF (fbPosition f) else fxOf (fbOf f).pos
    fxMul (fxF (f32 o.act 60)) x

/-- A committed run of an axis job in the slot from `tk` to `slotEnd`. -/
def axJob (tk slotEnd i : Nat) (s : State) : State :=
  let s := updObj i (fun o => { o with act := o.params }) s
  let s := updAx i (fun r => match r.inbox with
    | none => r
    | some t => { r with inbox := none, jobTgt := some (slotEnd, t) }) s
  match objAt s i with
  | none => s
  | some o =>
    let s := if (axOf o).homing then axHomeRun tk slotEnd o s else s
    match axFbPos s o with
    | none => s
    | some x =>
      updAx i (fun r =>
        let diff := fxAbs (axFx (axPosAt r tk) - x)
        let lim := f32 o.act 64
        let exceeds := fPos lim && decide (fxF lim < diff)
        { r with fbPos := roundOpen 68 x (2 ^ 96), feDiff := fxToF 69 diff, feSince := if exceeds then some (r.feSince.getD tk) else none }) s

/-! ## Enabling and disabling (R337, R343, R345) -/

/-- An axis becomes ENABLED: its mode is the block's, it stands where it is, its output is enabled; where it was off, the first
motion waits for it (R337). -/
def axEnable (i : Nat) (s : State) : State :=
  match objAt s i with
  | none => s
  | some o =>
    let s := updAx i (fun r => { axHalt s.gtc r with
      mode := u8 o.act 17, tgtV := 0, en := true, enAt := s.gtc, optIn := false, atRest := 0, stillAt := some s.gtc
      wait := if axKind o.act = 1 then 2 else if axKind o.act = 0 ∧ ¬ r.en ∧ u8 o.act 22 ≠ 0xFF then 1 else 0
      vEst := 0, stepLast := none, feSince := none, chatter := false, trans := [] }) s
    if axKind o.act = 1 then (axPairs o.act).foldl (fun s h => gateOpen h none s) s else s

/-- An axis is disabled: a quick stop, then OFF where out_kind allows it (R343). -/
def axDisable (i : Nat) (s : State) : State :=
  match objAt s i with
  | none => s
  | some _ =>
    let s := axCancel i (axDropPending i 0x0B04 (axHomeFail i 3 s))
    axStop i false (updAx i (fun r => { r with atRest := 2, faulting := false, inbox := none, wait := 0, feSince := none }) s)

/-- What ENABLE of an axis asks besides its block (R333 to R335): the fastest step, the pairs, eight axes at most. -/
def axEnableBad (s : State) (o : Obj) : Option Nat :=
  let ps := o.params
  let vm := f32 ps 32
  if axKind ps = 0 then
    (if fLe vm (fOfInt 4000000) && decide (fVal vm * (2 * u16 ps 24 : Nat) ≤ (secTicks : Int) * 2 ^ 149) then none else some stBadParam)
  else if axKind ps = 1 then
    let cs := (axPairs ps).map (objOf s)
    let okc (c : Option Obj) : Bool := c.any fun c => c.typ == tyPwmch && pwPair c.params && u8 c.params 3 == 0
    let g := (cs.head?.bind id).map fun c => pwGroup c.params
    let others := (objsOf s tyAxis).filter fun x => x.idx != o.idx && x.ost != .disabled && axKind x.params == 1
    if !(cs.all okc) || !(cs.all fun c => c.map (fun c => pwGroup c.params) == g) || decide (8 ≤ others.length) then some stNoResource
    else
      let p := (pgGroup s (g.getD 0)).period
      if p ≠ 0 ∧ fVal vm * (p : Int) ≤ 64 * (secTicks : Int) * 2 ^ 149 then none else some stBadParam
  else none

/-! ## Status (R346) -/

def axisStatus (s : State) (o : Obj) : List Byte :=
  let r := axOf o
  let motion : Nat := if r.homing then 3 else if r.stopping then 2 else if r.v ≠ 0 ∨ r.busy then 1 else 0
  let xf := b2n r.homed + 2 * b2n (axLimit s o.act true) + 4 * b2n (axLimit s o.act false) + 8 * b2n r.optIn
    + 16 * b2n r.lastRev + 32 * b2n r.moved + 64 * b2n r.feSince.isSome + 128 * b2n r.limited
  iBytes 8 (Int.tdiv r.p axCount) ++ fBytes (fxToF 71 r.v) ++ fBytes (fxToF 72 r.a) ++ iBytes 8 (Int.tdiv r.tgtP axCount)
    ++ leBytes 1 motion ++ leBytes 1 xf ++ leBytes 1 (r.compares.filter (·.armed)).length ++ satBytes 1 r.owed.natAbs
    ++ fBytes r.excursion ++ iBytes 8 r.fbPos ++ fBytes r.arriveV ++ satBytes 4 r.lateN ++ satBytes 4 r.behindN
    ++ satBytes 4 r.limitStops ++ leBytes 8 r.lastStop

end Sys2Proof.Machine
end

