-- ==== Sys2Proof/Machine/Kinematics.lean ====
section
/-! DEFINITION. The kinematics unit (04, R112 to R133): configuration, GNSS, IMU and speed inputs, the estimator and
the state and flags that follow from it. -/

namespace Sys2Proof.Machine

/-! ## States and events (R115, R151) -/

def kOff : Nat := 0
def kWaiting : Nat := 1
def kAligning : Nat := 2
def kRunning : Nat := 3
def kDead : Nat := 4
def kFollowing : Nat := 5

def kc8 (s : State) (off : Nat) : Nat := u8 s.kin.cfg off
def kc16 (s : State) (off : Nat) : Nat := u16 s.kin.cfg off
def kcF (s : State) (off : Nat) : Fx := fxF (f32 s.kin.cfg off)

/-- The unit's state changes: KIN_STATE (R115). -/
def setKState (n : Nat) (s : State) : State :=
  if n = s.kin.kstate then s
  else raise0 0x0440 0 (leBytes 1 n ++ leBytes 1 s.kin.kstate) { s with kin := { s.kin with kstate := n } }

/-- The commit of the first estimator run at or after an instant: the end of slot 3 of a frame whose number is a
multiple of 10 (R129, R132). -/
def commitAt (t : Nat) : Nat :=
  let per := 10 * frameTicks
  let off := 4 * slotTicks
  if t ≤ off then off else (t - off + per - 1) / per * per + off

/-! ## Configuration (R116) -/

/-- Bytes of the block that may change while the unit is not OFF (R116). -/
def kinLive (o : Nat) : Bool :=
  decide ((10 ≤ o ∧ o < 22) ∨ (152 ≤ o ∧ o < 168)) || decide (176 ≤ o ∧ o < 240 ∧ 12 ≤ o % 16)

/-- Checks of a range of a field: its offset and whether the block meets it. -/
def kinNat (b : List Byte) (off size lo hi : Nat) : Nat × Bool :=
  (off, let v := leNat (slice b off size); decide (lo ≤ v ∧ v ≤ hi))

/-- Checks of speed source `k` (R125); of an entry beyond n_speed its reserved bits alone (R9). -/
def kinSpeedChecks (b : List Byte) (k : Nat) : List (Nat × Bool) :=
  let o := 176 + 16 * k
  if u8 b 168 ≤ k then [kinNat b (o + 2) 1 0 7, kinNat b (o + 3) 1 0 0]
  else [kinNat b o 1 1 4, (o + 1, !(List.range k).any fun j => u8 b (177 + 16 * j) == u8 b (o + 1)),
    kinNat b (o + 2) 1 0 7, kinNat b (o + 3) 1 0 0, (o + 8, fFinite (f32 b (o + 8)) && fPos (f32 b (o + 8))),
    (o + 12, fFinite (f32 b (o + 12)) && fPos (f32 b (o + 12)))]

/-- The block's conditions, by ascending offset (R116). -/
def kinChecks (s : State) (b : List Byte) : List (Nat × Bool) :=
  let imu := u8 b 36 == 1
  let model := u8 b 112
  [kinNat b 0 1 0 2, kinNat b 1 1 0 1, kinNat b 2 2 0 500, kinNat b 4 4 4800 921600, kinNat b 8 1 1 4, kinNat b 9 1 0 0,
   kinNat b 10 2 100 5000, kinNat b 20 2 0 60000, kinNat b 36 1 0 1, kinNat b 37 1 0 1, kinNat b 38 1 0 47,
   kinNat b 39 1 0 3, (40, !imu || u32 b 40 != 0), kinNat b 44 4 100000 20000000, kinNat b 48 2 100 2000, kinNat b 50 1 0 4,
   (51, !imu || ((tableOf s (u32 b 40)).map fun t => fmtLen t == u8 b 51).getD true), kinNat b 56 1 0 16,
   (57, zeroBytes b 57 3), (98, zeroBytes b 98 2), kinNat b 112 1 0 3, kinNat b 113 1 0 1, kinNat b 114 1 0 2, kinNat b 115 1 0 47,
   (124, decide (model < 2) || decide (500 ≤ u32 b 124 ∧ u32 b 124 ≤ 20000)),
   (128, u8 b 113 == 0 || u32 b 128 != 0), (132, fFinite (f32 b 132)), (136, fFinite (f32 b 136)),
   (140, model != 3 || u32 b 140 != 0), (144, fFinite (f32 b 144)), (148, fFinite (f32 b 148)),
   kinNat b 152 2 1 100, kinNat b 158 2 10 2000, kinNat b 160 4 5000 200000, (164, fFinite (f32 b 164)), kinNat b 168 1 0 4,
   (169, zeroBytes b 169 7)] ++ (List.range 4).flatMap (kinSpeedChecks b) ++ [(240, zeroBytes b 240 16)]

/-- The variables that a format's decode fields produce. -/
def fmtVars (b : List Byte) : List Nat :=
  ((List.range (tabCount b)).filter fun f => !fmtEncodes b f).map fun f => u16 b (fmtAt f + 12)

/-- The judgement of a block: the first offending field, its references, its GPIO claims (R116, R72, R518). -/
def kinCfgBad (s : State) (b : List Byte) : Option PErr :=
  match (kinChecks s b).find? fun c => !c.2 with
  | some c => some { status := stBadParam, result := leBytes 2 c.1 }
  | none =>
    match (kinRefs b).find? fun r => !((objOf s r.2.1).any fun o => o.typ == r.2.2
        && (r.1 != 40 || ((tableOf s r.2.1).map fun t => tabType t == 3).getD false)) with
    | some r => some (refInvalid r.1)
    | none =>
      let held := claimsHeld { s with kin := { s.kin with cfg := [] } } 0x10000
      req (!claimsBad held (kinClaims b)) { status := stInUse }

/-- KIN_SET_CONFIG (R116). -/
def bodyKinSetConfig (d : Desc) (s : State) : State :=
  let b := blockOf s d
  if s.osl.role = 2 then fail d 0x0309 s
  else if s.kin.kstate ≠ kOff ∧ (List.range 256).any (fun i => u8 b i != u8 s.kin.cfg i && !kinLive i) then fail d stBusy s
  else match kinCfgBad s b with
    | some e => failWith d e.status e.result s
    | none => ok d { s with kin := { s.kin with cfg := b } }

def execKinSetConfig (d : Desc) (s : State) : Host.Outcome State Fault Refusal :=
  .next (runDesc 0x0400 d (bodyKinSetConfig d) s)

/-- KIN_GET_CONFIG (R149). -/
def bodyKinGetConfig (d : Desc) (s : State) : State := writeBack d (padTo 256 s.kin.cfg) {} s

def execKinGetConfig (d : Desc) (s : State) : Host.Outcome State Fault Refusal :=
  .next (runDesc 0x0401 d (bodyKinGetConfig d) s)

/-- KIN_SET_ORIGIN (R113, R149). -/
def bodyKinSetOrigin (d : Desc) (s : State) : State :=
  let lat := f64 d.bytes 16
  let lon := f64 d.bytes 24
  let h := f32 d.bytes 32
  if s.kin.kstate ≠ kOff then fail d stBusy s
  else if !f64Finite lat || !f64Finite lon || !fFinite h || decide (fxOf 90 < fxAbs (fxF64 lat)) || decide (fxOf 180 < fxAbs (fxF64 lon))
  then fail d stBadParam s
  else
    let id := u32 d.bytes 36
    ok d (raise0 0x044D 0 (leBytes 4 id)
      { s with kin := { s.kin with originSet := true, lat0 := lat, lon0 := lon, h0 := h, originId := id } })

def execKinSetOrigin (d : Desc) (s : State) : Host.Outcome State Fault Refusal :=
  .next (runDesc 0x0402 d (bodyKinSetOrigin d) s)

/-! ## The local plane (R112 to R114) -/

/-- Earth-centred coordinates of a geodetic position: degrees, degrees, metres, in 2^-96. -/
def ecef (lat lon h : Fx) : Fx × Fx × Fx :=
  let a : Fx := fxOf 6378137
  let f := fxFrac 1000000000 298257223563
  let e2 := fxMul f (fxOf 2 - f)
  let p := fxDeg lat
  let l := fxDeg lon
  let sp := fxSin p
  let n := fxDiv a (fxSqrt (fxOne - fxMul e2 (fxMul sp sp)))
  (fxMul (n + h) (fxMul (fxCos p) (fxCos l)), fxMul (n + h) (fxMul (fxCos p) (fxSin l)), fxMul (fxMul n (fxOne - e2) + h) sp)

/-- The integer nearest to a result of binary64 arithmetic, half away from zero: within 2^-10 of a half the last bits of
that arithmetic decide, which are open (log 15). -/
def fxNear64 (x : Fx) : Int :=
  let f := x % fxOne
  if fxAbs (f - fxOne / 2) < fxOne / 1024 then roundOpen 56 x (2 ^ 96) else fxNear x

/-- `enu` of R112: mm, each rounded half away from zero. -/
def enuOf (s : State) (lat lon h : Fx) : Vec3 :=
  let la := fxF64 s.kin.lat0
  let lo := fxF64 s.kin.lon0
  let p := ecef lat lon h
  let q := ecef la lo (fxF s.kin.h0)
  let dx := p.1 - q.1
  let dy := p.2.1 - q.2.1
  let dz := p.2.2 - q.2.2
  let sa := fxSin (fxDeg la)
  let ca := fxCos (fxDeg la)
  let so := fxSin (fxDeg lo)
  let co := fxCos (fxDeg lo)
  let hor := fxMul co dx + fxMul so dy
  { x := fxNear64 (1000 * (fxMul co dy - fxMul so dx))
    y := fxNear64 (1000 * (fxMul ca dz - fxMul sa hor))
    z := fxNear64 (1000 * (fxMul ca hor + fxMul sa dz)) }

/-- A true heading or course in the local plane (R114), with 0 correction where the epoch gives no longitude (log 16). -/
def toGrid (s : State) (lon : Option Fx) (a : Fx) : Fx :=
  match lon with
  | none => a % fxTwoPi
  | some l => (a - fxMul (fxDeg (l - fxF64 s.kin.lon0)) (fxSin (fxDeg (fxF64 s.kin.lat0)))) % fxTwoPi

/-- Within 20,000 m of the origin (R113). -/
def inRange (v : Vec3) : Bool := decide (v.x * v.x + v.y * v.y ≤ 20000000 * 20000000)

/-! ## Enabling (R117) -/

/-- The unit is or will be enabled, with the pending KIN_ENABLE and KIN_DISABLE counted (R117). -/
def kinOnAfter (s : State) : Bool :=
  (s.hif.deferred.filter fun x => x.op == 0x0403 || x.op == 0x0404).foldl (fun _ x => x.op == 0x0403) (s.kin.kstate != kOff)

/-- Variables 0 to 5 that the IMU's format must produce (R123). -/
def imuTableBad (s : State) : Bool :=
  kc8 s 36 == 1 && ((tableOf s (u32 s.kin.cfg 40)).map fun t => !(List.range 6).all fun v => (fmtVars t).contains v).getD true

/-- KIN_ENABLE (R117, R123). -/
def bodyKinEnable (d : Desc) (s : State) : State :=
  let req := u64 d.bytes 16
  if kinOnAfter s then fail d stState s
  else match kinCfgBad s s.kin.cfg with
    | some e => failWith d e.status e.result s
    | none =>
      if imuTableBad s then failWith d stBadParam (leBytes 2 40) s
      else defer d 0x0403 0 (takeEffect s.gtc req) (leBytes 7 (takeEffectLate s.gtc req)) 0 s

def execKinEnable (d : Desc) (s : State) : Host.Outcome State Fault Refusal :=
  .next (runDesc 0x0403 d (bodyKinEnable d) s)

/-- KIN_DISABLE (R117). -/
def bodyKinDisable (d : Desc) (s : State) : State :=
  let req := u64 d.bytes 16
  if !kinOnAfter s || (objsOf s tyGeopoint).any isEnabled then fail d stState s
  else defer d 0x0404 0 (takeEffect s.gtc req) (leBytes 7 (takeEffectLate s.gtc req)) 0 s

def execKinDisable (d : Desc) (s : State) : Host.Outcome State Fault Refusal :=
  .next (runDesc 0x0404 d (bodyKinDisable d) s)

/-- REVERSE changes: KIN_REVERSE (R127). -/
def setReverse (r : Bool) (s : State) : State :=
  if s.kin.reverse == r then s
  else raise0 0x044E 0 (leBytes 1 (b2n r)) { s with kin := { s.kin with reverse := r } }

/-- What starts anew when the unit is enabled or disabled: everything but the configuration, the origin, the PPS
pairing, the counts and the record. -/
def kinFresh (k : Kin) : Kin :=
  { k with
    epoch := none, lastUtc := none, meas := [], imuOk := false, imuLast := none, imuGood := 0, imuMissed := 0
    imuSat := [0, 0, 0, 0, 0, 0], imuFrozen := 0, speeds := [{}, {}, {}, {}], reverse := false, revSince := none
    standstill := false, slowSince := none, headingValid := false, pathValid := false, drExpired := false
    lastPos := none, lastHeading := none, lastVel := none, fixClass := 0, rej4 := 0, rejAny := 0, courses := []
    scale := fOne, scaleReported := fOne, sigmaH := 0xFFFF, u := 0, w0 := 0, accel := 0, accelF := 0, wF := 0
    corrLeft := 0, gamma := 0, gammaModel := 0, hitchBad := false, hitchOffSince := none, hitchOnSince := none
    steerBad := none, impAccelF := 0, turnF := 0, imuBuf := [], est := {}, hist := [], turnAccel := 0
    posAt := k.pos, headingAt := k.heading, uAt := 0, w0At := 0 }

/-- KIN_ENABLE_TAKE_EFFECT: at its boundary the unit starts, writes the initialisation pairs and is WAITING, or
FOLLOWING on a member (R115, R117, R122). -/
def execKinEnableTakeEffect (s : State) : Host.Outcome State Fault Refusal :=
  .next (match deferredOf s 0x0403 0 with
    | none => s
    | some x =>
      let s := toInstant x.due s
      let n := kc8 s 56
      let s := setReverse false s
      let s := { s with kin := { kinFresh s.kin with
        est := { Config.kfStart with nom := Config.kfStart.nom.take 15 ++ [fxOne] }
        imuInit := if kc8 s 36 = 1 then slice s.kin.cfg 60 (2 * n) else [] } }
      completeDeferred x { result := x.result } (setKState (if s.osl.role = 2 then kFollowing else kWaiting) s))

/-- KIN_DISABLE_TAKE_EFFECT: OFF; all validity flags but ORIGIN_SET clear, points hold their path positions (R115).
A GEOPOINT that has become ENABLED meanwhile makes it STATE (R117). -/
def execKinDisableTakeEffect (s : State) : Host.Outcome State Fault Refusal :=
  .next (match deferredOf s 0x0404 0 with
    | none => s
    | some x =>
      let s := toInstant x.due s
      if (objsOf s tyGeopoint).any isEnabled then completeDeferred x { status := stState } s
      else
        let s := setReverse false s
        completeDeferred x { result := x.result } (setKState kOff { s with kin := kinFresh s.kin }))

/-! ## GNSS sentences (R118, R119) -/

/-- An ASCII digit. -/
def digitOf (b : Byte) : Option Nat := if 0x30 ≤ b.toNat ∧ b.toNat ≤ 0x39 then some (b.toNat - 0x30) else none

/-- A hexadecimal digit. -/
def hexOf (b : Byte) : Option Nat :=
  let n := b.toNat
  if 0x30 ≤ n ∧ n ≤ 0x39 then some (n - 0x30) else if 0x41 ≤ n ∧ n ≤ 0x46 then some (n - 55)
  else if 0x61 ≤ n ∧ n ≤ 0x66 then some (n - 87) else none

/-- Digits, with those after a point counted: value, fraction digits, whether a point was seen. -/
def decDigits : List Byte → Nat → Nat → Bool → Option (Nat × Nat)
  | [], v, k, _ => some (v, k)
  | b :: bs, v, k, pt =>
    if b = 0x2E then (if pt then none else decDigits bs v k true)
    else match digitOf b with
      | none => none
      | some d => decDigits bs (10 * v + d) (if pt then k + 1 else k) pt

/-- A decimal number as a fraction: none if it does not parse. -/
def decimal (bs : List Byte) : Option (Int × Nat) :=
  let neg := bs.head? == some 0x2D
  let t := if neg then bs.drop 1 else bs
  if !t.any (fun b => (digitOf b).isSome) then none
  else (decDigits t 0 0 false).map fun r => (if neg then -(r.1 : Int) else r.1, 10 ^ r.2)

def decimalFx (bs : List Byte) : Option Fx := (decimal bs).map fun r => fxFrac r.1 r.2

/-- The fields of a sentence, cut at commas. -/
def commas : List Byte → List Byte → List (List Byte)
  | [], cur => [cur.reverse]
  | b :: bs, cur => if b = 0x2C then cur.reverse :: commas bs [] else commas bs (b :: cur)

/-- `hhmmss.sss` in ns of the day. -/
def utcOf (bs : List Byte) : Option Nat :=
  match (bs.take 6).mapM digitOf, decimal (bs.drop 4) with
  | some [h1, h0, m1, m0, _, _], some (n, k) =>
    let h := 10 * h1 + h0
    let m := 10 * m1 + m0
    let ns := n.toNat * 1000000000 / k
    if h < 24 ∧ m < 60 ∧ ns < 61000000000 then some ((h * 3600 + m * 60) * 1000000000 + ns) else none
  | _, _ => none

/-- `ddmm.mmmm` with its hemisphere, in degrees. -/
def angleOf (bs hemi : List Byte) (pos neg : Byte) : Option Fx :=
  match decimal bs with
  | none => none
  | some (n, k) =>
    let deg := n / (k : Int) / 100
    let v := fxOf deg + fxFrac (n - 100 * deg * k) (60 * k)
    if n < 0 then none else if hemi = [pos] then some v else if hemi = [neg] then some (-v) else none

/-- The fix class of a GGA quality (R119); 0 is unusable. -/
def ggaClass (q : Nat) : Nat := if q = 1 then 1 else if q = 2 then 2 else if q = 5 then 3 else if q = 4 then 4 else 0

/-- What a sentence says. -/
inductive Nmea where
  | gga (utc : Nat) (fix : Option (Fx × Fx × Fx × Fx × Nat)) (cls : Nat)
  | rmc (utc : Nat) (vel : Option (Fx × Fx))
  | vtg (vel : Option (Fx × Fx))
  | hdt (heading : Fx)
  deriving DecidableEq, Repr

def nfield (f : List (List Byte)) (k : Nat) : List Byte := f.getD k []

def parseGga (f : List (List Byte)) : Option Nmea := do
  let u ← utcOf (nfield f 1)
  let q ← decimal (nfield f 6)
  let c := ggaClass (q.1.toNat / q.2)
  if c = 0 then some (.gga u none 0)
  else
    let lat ← angleOf (nfield f 2) (nfield f 3) 0x4E 0x53
    let lon ← angleOf (nfield f 4) (nfield f 5) 0x45 0x57
    let hd ← decimalFx (nfield f 8)
    let alt ← decimalFx (nfield f 9)
    let sep ← if (nfield f 11).isEmpty then some 0 else decimalFx (nfield f 11)
    some (.gga u (some (lat, lon, alt + sep, hd, c)) c)

def parseRmc (f : List (List Byte)) : Option Nmea := do
  let u ← utcOf (nfield f 1)
  if nfield f 2 = [0x56] then some (.rmc u none)
  else if nfield f 2 = [0x41] then
    let v ← decimalFx (nfield f 7)
    let c ← decimalFx (nfield f 8)
    some (.rmc u (some (fxDeg c, v * 4630 / 9)))
  else none

def parseVtg (f : List (List Byte)) : Option Nmea :=
  if nfield f 9 = [0x4E] then some (.vtg none)
  else do
    let c ← decimalFx (nfield f 1)
    let v ← decimalFx (nfield f 7)
    some (.vtg (some (fxDeg c, v * 2500 / 9)))

def parseHdt (f : List (List Byte)) : Option Nmea := (decimalFx (nfield f 1)).map fun h => .hdt (fxDeg h)

/-- The type of a sentence after its two-letter talker: 1 GGA, 2 RMC, 3 VTG, 4 HDT, 0 any other (R118). -/
def nmeaType (cs : List Byte) : Nat :=
  let t := (cs.drop 3).take 4
  if t = [0x47, 0x47, 0x41, 0x2C] then 1 else if t = [0x52, 0x4D, 0x43, 0x2C] then 2
  else if t = [0x56, 0x54, 0x47, 0x2C] then 3 else if t = [0x48, 0x44, 0x54, 0x2C] then 4 else 0

/-- The characters between `$` and `*`, if the checksum is there and right (R118). -/
def nmeaBody (cs : List Byte) : Option (List Byte) :=
  let body := (cs.drop 1).takeWhile (· != 0x2A)
  let tail := cs.drop (body.length + 2)
  match hexOf (tail.getD 0 0), hexOf (tail.getD 1 0) with
  | some a, some b =>
    if tail.length ≥ 2 ∧ cs.head? = some 0x24 ∧ body.foldl (fun x c => x ^^^ c.toNat) 0 = 16 * a + b then some body else none
  | _, _ => none

def parseNmea (cs : List Byte) : Option Nmea :=
  match nmeaBody cs with
  | none => none
  | some body =>
    let f := commas body []
    match nmeaType cs with
    | 1 => parseGga f
    | 2 => parseRmc f
    | 3 => parseVtg f
    | _ => parseHdt f

/-- A GNSS or host fix is rejected (R130, R151): source, reason, value; at most once per second. -/
def fixRejected (host : Bool) (reason value : Nat) (s : State) : State :=
  raiseLimited secTicks 0x0442 0 0 0 0 (leBytes 1 (b2n host) ++ leBytes 1 reason ++ [0, 0] ++ leBytes 4 value) 0 0 s

/-- Put a measurement behind those of earlier or equal validity time (R130). -/
def insertMeas (m : KMeas) : List KMeas → List KMeas
  | [] => [m]
  | x :: r => if m.t < x.t then m :: x :: r else x :: insertMeas m r

def addMeas (m : KMeas) (s : State) : State := { s with kin := { s.kin with meas := insertMeas m s.kin.meas } }

/-- σ of a fix class (R116). -/
def sigmaQ (s : State) (c : Nat) : Nat := kc16 s (12 + 2 * (c - 1))

/-- A position for the estimator: in range, of a class at or above min_quality (R113, R119, R129). -/
def addPosition (t : Nat) (host : Bool) (cls sigma : Nat) (v : Vec3) (s : State) : State :=
  if cls < kc8 s 8 then fixRejected host 4 0 s
  else if !inRange v then fixRejected host 3 0 s
  else addMeas { t := t, kind := 0, host := host, cls := cls, sigma := sigma, v := v } s

/-- σ of a GNSS velocity (R129): max(30 mm/s, σ_h / 10), σ_h that of the epoch's position, else of the estimate (log 16). -/
def velSigma (h : Option Nat) (s : State) : Nat := max 30 ((h.getD s.kin.sigmaH) / 10)

/-- Ticks of a number of ns, rounded half away from zero (R120). -/
def ticksOfNs (ns : Nat) : Nat := (24 * ns + 25) / 50

/-- The validity time of an epoch (R120). -/
def epochValid (e : Epoch) (s : State) : Nat × State :=
  let sec := e.utc / 1000000000
  let frac := e.utc % 1000000000
  let usePps := kc8 s 1 == 1
  let plain := (e.tArr - kc16 s 2 * msTicks,
    if usePps then raiseLimited secTicks 0x044A 0 0 0 0 [] 0 0 s else s)
  if usePps ∧ s.kin.pairedSec = some sec then (s.kin.pairedAt + ticksOfNs frac, s)
  else match s.kin.pps with
    | none => plain
    | some p =>
      if usePps ∧ p < e.tArr ∧ e.tArr - p ≤ secTicks then
        (p + ticksOfNs frac, { s with kin := { s.kin with pairedSec := some sec, pairedAt := p } })
      else plain

/-- The open epoch closes (R119): too soon after the last used one it is discarded, else it gives its measurements. -/
def closeEpoch (s : State) : State :=
  match s.kin.epoch with
  | none => s
  | some e =>
    let s := { s with kin := { s.kin with epoch := none } }
    let day := 86400000000000
    if (s.kin.lastUtc.map fun u => decide ((e.utc + day - u) % day < 45000000)).getD false then
      { s with kin := { s.kin with epochsDiscarded := s.kin.epochsDiscarded + 1 } }
    else
      let s := { s with kin := { s.kin with lastUtc := some e.utc, epochsUsed := s.kin.epochsUsed + 1 } }
      let tv := epochValid e s
      let t := tv.1
      let s := tv.2
      let lon := (e.gga.filter fun g => g.2.2.2.2 != 0).map fun g => g.2.1
      let s := match e.gga with
        | none => s
        | some (la, lo, h, hd, c) =>
          if !s.kin.originSet then s
          else
            let sig := fxNear (sigmaQ s c * max fxOne hd)
            if c = 0 then fixRejected false 4 0 s else addPosition t false c sig.toNat (enuOf s la lo h) s
      let sg := velSigma ((e.gga.filter fun g => g.2.2.2.2 != 0).map fun g => (fxNear (sigmaQ s g.2.2.2.2 * max fxOne g.2.2.2.1)).toNat) s
      let s := match e.vtg.or e.rmc with
        | none => s
        | some (c, v) =>
          let k := toGrid s lon c
          addMeas { t := t, kind := 3, sigma := sg, v := { x := k, y := v } }
            (addMeas { t := t, kind := 1, sigma := sg, v := { x := k, y := v } } s)
      match e.hdt with
      | none => s
      | some h =>
        addMeas { t := t, kind := 2, v := { x := toGrid s lon (h + fxDeg (fxFrac (i16 s.kin.cfg 22) 100)) } } s

/-- A sentence joins the open epoch, or closes it and opens its own (R119). -/
def takeSentence (tFirst tLast : Nat) (n : Nmea) (s : State) : State :=
  let utc : Option Nat := match n with
    | .gga u _ _ => some u
    | .rmc u _ => some u
    | _ => none
  let s := match utc, s.kin.epoch with
    | none, _ => s
    | some u, none => { s with kin := { s.kin with epoch := some { utc := u, tArr := tFirst } } }
    | some u, some e => if e.utc = u then s else
        let s := closeEpoch s
        { s with kin := { s.kin with epoch := some { utc := u, tArr := tFirst } } }
  { s with kin := { s.kin with epoch := s.kin.epoch.map fun e =>
      let e := { e with tLast := tLast }
      match n with
      | .gga _ fix c => { e with gga := some (fix.getD (0, 0, 0, 0, c)) }
      | .rmc _ v => { e with rmc := v }
      | .vtg v => { e with vtg := v }
      | .hdt h => { e with hdt := some h } } }

/-- A sentence is discarded and counted (R118, R151). -/
def sentenceBad (s : State) : State :=
  raiseLimited secTicks 0x0449 0 0 0 0 (List.replicate 4 0) 0 4
    { s with kin := { s.kin with sentDiscarded := s.kin.sentDiscarded + 1 } }

/-- NMEA_SENTENCE: its characters, the GTC of the first and the last, and whether a framing error occurred (R118). -/
def execNmeaSentence (chars : List Byte) (tFirst tLast : Nat) (framing : Bool) (s : State) :
    Host.Outcome State Fault Refusal :=
  .next (
    let s := toInstant tLast s
    if s.kin.kstate = kOff ∨ kc8 s 0 ≠ 0 then s
    else
      let s := { s with kin := { s.kin with epoch := s.kin.epoch.map fun e => { e with tLast := tLast } } }
      if nmeaType chars = 0 then s
      else if framing || decide (82 < chars.length) then sentenceBad s
      else match parseNmea chars with
        | none => sentenceBad s
        | some n => takeSentence tFirst tLast n s)

/-- EPOCH_IDLE_CLOSE: 2 ms without a character (R119). -/
def execEpochIdleClose (s : State) : Host.Outcome State Fault Refusal :=
  .next (match s.kin.epoch with
    | none => s
    | some e => closeEpoch (toInstant (e.tLast + 2 * msTicks) s))

/-- A PPS edge as the kinematics unit captures it, whether or not discipline is enabled (R120). -/
def kinPpsEdge (t : Nat) (falling : Bool) (s : State) : State :=
  if falling == s.clk.ppsFalling then { s with kin := { s.kin with pps := some t } } else s

/-- KIN_FIX (R121). -/
def bodyKinFix (d : Desc) (s : State) : State :=
  let b := d.bytes
  let tv := i64 b 16
  let cls := u8 b 40
  if cls = 0 ∨ 4 < cls then fail d stBadParam s
  else if kc8 s 0 ≠ 1 then fail d 0x0404 s
  else if !s.kin.originSet then fail d 0x0402 s
  else if s.kin.kstate = kOff then fail d 0x0401 s
  else if tv < (s.gtc : Int) - 250 * (msTicks : Int) then fail d 0x0403 s
  else if (s.gtc : Int) < tv then fail d stBadParam s
  else
    let v : Vec3 := { x := i32 b 24, y := i32 b 28, z := i32 b 32 }
    let sg := if u16 b 36 = 0 then sigmaQ s cls else u16 b 36
    let s := addPosition tv.toNat true cls sg v s
    ok d (if u16 b 38 = 0xFFFF ∨ !inRange v then s
      else addMeas { t := tv.toNat, kind := 2, host := true, v := { x := fxDeg (fxFrac (u16 b 38) 100) } } s)

def execKinFix (d : Desc) (s : State) : Host.Outcome State Fault Refusal :=
  .next (runDesc 0x0405 d (bodyKinFix d) s)

/-! ## IMU (R122 to R124) -/

/-- The IMU is lost (R124). -/
def imuLost (reason : Nat) (s : State) : State :=
  if s.kin.imuOk then raise0 0x0445 0 (leBytes 1 reason) { s with kin := { s.kin with imuOk := false, imuGood := 0 } }
  else { s with kin := { s.kin with imuGood := 0 } }

/-- A vector of the IMU's axes in the tractor frame (R123): roll, pitch (nose up) and yaw of imu_mount, in that order
(log 16). -/
def imuMount (s : State) (v : Vec3) : Vec3 :=
  let a (k : Nat) : Fx := fxDeg (fxFrac (i16 s.kin.cfg (92 + 2 * k)) 100)
  let turn (p q : Fx) (t : Fx) : Fx × Fx := (fxMul p (fxCos t) - fxMul q (fxSin t), fxMul p (fxSin t) + fxMul q (fxCos t))
  let r := turn v.y v.z (a 0)
  let p := turn v.x r.2 (a 1)
  let y := turn p.1 r.1 (a 2)
  { x := y.1, y := y.2, z := p.2 }

/-- Rates and specific force of decoded variables, in the tractor frame. -/
def imuVector (s : State) (vars : List F32) : List Int :=
  let v (k : Nat) : Vec3 := imuMount s { x := fxF (vars.getD k fZero), y := fxF (vars.getD (k + 1) fZero), z := fxF (vars.getD (k + 2) fZero) }
  [(v 0).x, (v 0).y, (v 0).z, (v 3).x, (v 3).y, (v 3).z]

/-- The decode field that gives variable `v`. -/
def fieldOf (b : List Byte) (v : Nat) : Option Nat :=
  (List.range (tabCount b)).find? fun f => !fmtEncodes b f && u16 b (fmtAt f + 12) == v

/-- The raw value of a field is its minimum or its maximum (R124). -/
def rawExtreme (b fr : List Byte) (f : Nat) : Bool :=
  let n := u8 b (fmtAt f + 2)
  let fl := u8 b (fmtAt f + 3)
  let r := if bit fl 4 then grayToBin (fmtRaw b fr f) else fmtRaw b fr f
  if bit fl 2 then false
  else if bit fl 1 then r == 2 ^ (n - 1) || r + 1 == 2 ^ (n - 1)
  else r == 0 || r + 1 == 2 ^ n

/-- The sample counter made another step than +1 modulo its field's range (R123). -/
def counterBad (b fr : List Byte) (old : Option F32) : Bool :=
  match fieldOf b 7, old with
  | some f, some x =>
    let n := u8 b (fmtAt f + 2)
    let sc := f32 b (fmtAt f + 4)
    let now := fDiv (fSub (fmtDecode b fr f) (f32 b (fmtAt f + 8))) sc
    let was := fDiv (fSub x (f32 b (fmtAt f + 8))) sc
    decide ((fToInt now - fToInt was - 1) % (2 ^ n : Nat) ≠ 0)
  | _, _ => false

/-- IMU_SAMPLE: a transaction sends the command bytes and reads a frame, of imu_frame bytes, at its timestamp: the
data-ready edge's or the poll's (R122). Missed samples, saturated axes and frozen readings lose the IMU, and a gap of 20 ms
starts its recovery anew (R123, R124). -/
def execImuSample (t : Nat) (frame : List Byte) (s : State) : Host.Outcome State Fault Refusal :=
  .next (
    let s := toInstant t s
    match tableOf s (u32 s.kin.cfg 40) with
    | none => s
    | some b =>
      if s.kin.kstate = kOff ∨ kc8 s 36 ≠ 1 then s
      else
        let k := s.kin
        let frame := padTo (kc8 s 51) frame
        let gap := (k.imuLast.map fun l => decide (20 * msTicks ≤ t - l)).getD false
        let dec := fmtDecodeAll b frame
        let var (v : Nat) : F32 := ((dec.find? fun x => x.1 == v).map (·.2)).getD fZero
        let vars := (List.range 8).map var
        let miss := counterBad b frame (if k.imuLast.isNone then none else k.imuVars[7]?)
        let sat := (List.range 6).map fun a =>
          if ((fieldOf b a).map (rawExtreme b frame)).getD false then k.imuSat.getD a 0 + 1 else 0
        let same := k.imuLast.isSome && (List.range 6).all fun a => k.imuVars[a]? == some (var a)
        let missed := if miss then k.imuMissed + 1 else 0
        let frozen := if same then k.imuFrozen + 1 else 0
        let s := { s with kin := { k with
          imuLast := some t, imuVars := vars, imuMissed := missed, imuSat := sat, imuFrozen := frozen
          imuGood := if gap then 1 else k.imuGood + 1
          imuTx := slice k.cfg 52 (kc8 s 50)
          imuBuf := ((t, imuVector s vars) :: k.imuBuf).filter fun x => decide (t < x.1 + 2 * msTicks) } }
        if 3 ≤ missed then imuLost 2 s
        else if sat.any (fun n => decide (10 ≤ n)) then imuLost 3 s
        else if 99 ≤ frozen then imuLost 4 s
        else if miss then { s with kin := { s.kin with imuGood := 0 } }
        else s)

/-- IMU_TIMEOUT: no sample for 20 ms: the IMU is lost, or its recovery starts anew (R124). -/
def execImuTimeout (s : State) : Host.Outcome State Fault Refusal :=
  .next (match s.kin.imuLast with
    | none => s
    | some t => if s.kin.kstate = kOff then s else imuLost 1 (toInstant (t + 20 * msTicks) s))

/-- IMU_RECOVERED: 100 consecutive good samples (R124). -/
def execImuRecovered (s : State) : Host.Outcome State Fault Refusal :=
  .next (if s.kin.kstate ≠ kOff ∧ kc8 s 36 = 1 ∧ 100 ≤ s.kin.imuGood then { s with kin := { s.kin with imuOk := true } } else s)

/-! ## Speed sources (R125 to R128) -/

def srcOff (k : Nat) : Nat := 176 + 16 * k
def srcKind (s : State) (k : Nat) : Nat := kc8 s (srcOff k)
def srcPrio (s : State) (k : Nat) : Nat := kc8 s (srcOff k + 1)
def srcFlags (s : State) (k : Nat) : Nat := kc8 s (srcOff k + 2)
def srcHandle (s : State) (k : Nat) : Nat := u32 s.kin.cfg (srcOff k + 4)

/-- The sources in use, highest priority first. -/
def sources (s : State) : List Nat :=
  let n := kc8 s 168
  (List.range 256).flatMap fun p => (List.range (min n 4)).filter fun k => srcPrio s k == p

def srcOf (s : State) (k : Nat) : SpeedSrc := s.kin.speeds.getD k {}
def updSrc (k : Nat) (f : SpeedSrc → SpeedSrc) (s : State) : State :=
  { s with kin := { s.kin with speeds := s.kin.speeds.set k (f (srcOf s k)) } }

/-- A pulse source takes the speed of its FEEDBACK, divided by ppm; a faulted one is invalid (R125, R127). -/
def readPulseSource (s : State) (k : Nat) : State :=
  if 2 < srcKind s k then s
  else match goodFb s (srcHandle s k) with
    | none => updSrc k (fun x => { x with valid := false }) s
    | some o =>
      let v := fbSpeedFrac o s.gtc
      let ppm := kcF s (srcOff k + 8)
      updSrc k (fun x => { x with
        valid := true, speed := fxAbs (1000 * fxDiv (fxFrac v.1 v.2) ppm)
        dir := if fbKind o.act = 0 ∧ (fbOf o).dirKnown then some (fbOf o).rev else none }) s

/-- An ISOBUS speed message of a port and kind (R125): mm/s and direction, none where "not available". -/
def isobusSpeed (port kind : Nat) (v : Option Nat) (rev : Option Bool) (s : State) : State :=
  (sources s).foldl (fun s k =>
    if srcKind s k = kind ∧ srcHandle s k = port then
      match v with
      | none => updSrc k (fun x => { x with valid := false, dir := rev, last := s.gtc }) s
      | some m => updSrc k (fun x => { x with
          valid := true, speed := m * kcF s (srcOff k + 8), dir := rev, last := s.gtc }) s
    else s) s

/-- ISOBUS_SPEED_TIMEOUT: no message for 300 ms (R125). -/
def execIsobusSpeedTimeout (k : Nat) (s : State) : Host.Outcome State Fault Refusal :=
  .next (if 3 ≤ srcKind s k ∧ k < kc8 s 168 ∧ (srcOf s k).valid then
    updSrc k (fun x => { x with valid := false }) (toInstant ((srcOf s k).last + 300 * msTicks) s)
  else s)

/-- The reference of a source's plausibility test (R126): the estimator's speed at its point while the last fix is of
class 3 or 4, else the highest-priority other valid source. -/
def srcReference (s : State) (k : Nat) : Option Fx :=
  if 3 ≤ s.kin.fixClass then some (fxAbs (if bit (srcFlags s k) 2 then s.kin.vx else s.kin.u))
  else ((sources s).find? fun j => j != k && (srcOf s j).valid).map fun j => (srcOf s j).speed

/-- A source differs by more than max(300 mm/s, 10 %) from its reference. -/
def srcDiff (s : State) (k : Nat) : Option (Fx × Bool) :=
  (srcReference s k).map fun r =>
    let d := fxAbs ((srcOf s k).speed - r)
    (d, decide (max (fxOf 300) (r / 10) < d))

/-- The plausibility of a source at an estimator run: since when it differs, since when it agrees; without a reference
neither (R126). -/
def trackSource (s : State) (k : Nat) : State :=
  let bad := (srcOf s k).valid && ((srcDiff s k).map (·.2)).getD false
  let good := (srcOf s k).valid && ((srcDiff s k).map (!·.2)).getD false
  updSrc k (fun x => { x with
    badSince := if bad then some (x.badSince.getD s.gtc) else none
    goodSince := if good then some (x.goodSince.getD s.gtc) else none }) s

/-- SPEED_SOURCE_IMPLAUSIBLE: it has differed for 2 s without break (R126). -/
def execSpeedSourceImplausible (k : Nat) (s : State) : Host.Outcome State Fault Refusal :=
  .next (match (srcOf s k).badSince with
    | none => s
    | some t =>
      if (srcOf s k).implausible || decide (kc8 s 168 ≤ k) then s
      else
        let s := toInstant (t + 2 * secTicks) s
        let d := fxToInt 40 (((srcDiff s k).map (·.1)).getD 0)
        raiseLimited secTicks 0x0446 0 0 0 0 (leBytes 1 k ++ [0, 0, 0] ++ iBytes 4 d) 0 0
          (updSrc k (fun x => { x with implausible := true }) s))

/-- SPEED_SOURCE_RESTORE: 5 s of agreement (R126). -/
def execSpeedSourceRestore (k : Nat) (s : State) : Host.Outcome State Fault Refusal :=
  .next (match (srcOf s k).goodSince with
    | none => s
    | some t => if (srcOf s k).implausible then
        updSrc k (fun x => { x with implausible := false }) (toInstant (t + 5 * secTicks) s) else s)

/-- The source that gives the direction: the highest-priority valid one that supplies and reports it (R127). -/
def dirSource (s : State) : Option Bool :=
  (sources s).findSome? fun k => if bit (srcFlags s k) 1 && (srcOf s k).valid then (srcOf s k).dir else none

/-- The direction comes from course detection (R127). -/
def courseDetects (s : State) : Bool := kc8 s 114 == 0 || (kc8 s 114 == 1 && (dirSource s).isNone)

/-- Direction from its sources or its input (R127). -/
def readDirection (s : State) : State :=
  if kc8 s 114 = 2 then setReverse (s.pg.gpio.getD (kc8 s 115) false) s
  else if kc8 s 114 = 1 then (match dirSource s with
    | some r => setReverse r s
    | none => s)
  else s

/-- Course detection on one GNSS velocity (R127): the angle between course and heading at align_speed and above. -/
def trackCourse (course speed : Fx) (s : State) : State :=
  let want : Option Bool :=
    if speed < fxOf (kc16 s 154) then none
    else
      let d := fxAbs (fxReduce (course - s.kin.heading))
      if fxDeg (fxOf 150) < d then some true else if d < fxDeg (fxOf 30) then some false else none
  { s with kin := { s.kin with revSince := want.map fun w =>
      match s.kin.revSince with
      | some (o, t) => if o = w then (o, t) else (w, s.gtc)
      | none => (w, s.gtc) } }

/-- REVERSE_DETECT: the angle has stayed beyond its threshold for 1 s (R127). -/
def execReverseDetect (s : State) : Host.Outcome State Fault Refusal :=
  .next (match s.kin.revSince with
    | none => s
    | some (w, t) => if courseDetects s then setReverse w (toInstant (t + secTicks) s) else s)

/-! ## The estimator (R129 to R132) -/

/-- χ² gates by dimension, × 100 (R130). -/
def gateOf (dim : Nat) : Nat := if dim = 1 then 1083 else if dim = 2 then 1382 else 1627

/-- The position lever of a point of a body: x and y, and its z offset under roll and pitch (R139): east, north, up. -/
def leverOf (heading pitch roll : Fx) (x y z : Fx) : Fx × Fx × Fx :=
  let x := x - fxMul z (fxMul (fxCos roll) (fxSin pitch))
  let y := y - fxMul z (fxSin roll)
  let c := fxCos heading
  let sn := fxSin heading
  (fxMul x sn - fxMul y c, fxMul x c + fxMul y sn, fxMul z (fxMul (fxCos roll) (fxCos pitch)))

/-- The tractor reference point for an antenna position. -/
def fromAntenna (s : State) (v : Vec3) : Vec3 :=
  let l := leverOf s.kin.heading s.kin.pitch s.kin.roll (fxOf (i32 s.kin.cfg 24)) (fxOf (i32 s.kin.cfg 28)) (fxOf (i32 s.kin.cfg 32))
  { x := fxOf v.x - l.1, y := fxOf v.y - l.2.1, z := fxOf v.z - l.2.2 }

/-- Enough rejected position updates in a row for a reset (R131). -/
def resetDue (s : State) : Bool := decide (5 ≤ s.kin.rej4 ∨ 10 ≤ s.kin.rejAny)

/-- A position was accepted: its class, its time, and the rejections start anew (R131, R132). -/
def positionAccepted (m : KMeas) (s : State) : State :=
  { s with kin := { s.kin with
    lastPos := some s.gtc, fixClass := m.cls, fixAt := m.t, rej4 := 0, rejAny := 0, drExpired := false } }

/-- The state's changes at a commit, in the order of R132: WAITING to ALIGNING, ALIGNING to RUNNING, DEAD_RECKONING to
RUNNING. -/
def kinStates (s : State) : State :=
  let got := s.kin.lastPos = some s.gtc
  let s := if s.kin.kstate = kWaiting ∧ got then setKState kAligning s else s
  let s := if s.kin.kstate = kAligning ∧ s.kin.headingValid then setKState kRunning s else s
  if s.kin.kstate = kDead ∧ got then setKState kRunning s else s

/-! ### The filter (R129, R130) -/

/-- The scale factor's source: with sflags bit 0, the largest prio (R128). -/
def scaleSource (s : State) : Option Nat := (sources s).reverse.find? fun k => bit (srcFlags s k) 0

/-- The scale factor is updated: class 4, at align_speed and above, below 0.02 rad/s (R128). -/
def scaleLearns (s : State) : Bool :=
  s.kin.fixClass == 4 && decide (fxOf (kc16 s 154) ≤ fxAbs s.kin.u) && decide (fxAbs s.kin.w0 < fxFrac 2 100)

/-- What a run propagates with (R130): the mean of the samples of the last 1 ms, of the last sample where there is none
(log 16); without the IMU the last turn rate and no acceleration (R124). -/
def kfInput (tk : Nat) (s : State) : Config.KfImu :=
  if !s.kin.imuOk then { lost := true, gyro := [0, 0, s.kin.wz], acc := [0, 0, 0] }
  else
    let xs := s.kin.imuBuf.filter fun x => decide (x.1 ≤ tk ∧ tk < x.1 + msTicks)
    let xs := if xs.isEmpty then s.kin.imuBuf.take 1 else xs
    let mean (j : Nat) : Int := (xs.map fun x => x.2.getD j 0).foldl (· + ·) 0 / (xs.length : Int)
    { gyro := [mean 0, mean 1, mean 2], acc := [mean 3, mean 4, mean 5] }

/-- A run propagates, and is stored: 256 runs (R130). -/
def kfPropagateRun (tk : Nat) (s : State) : State :=
  let i := kfInput tk s
  let e := Config.kfPropagate s.kin.est i
  { s with kin := { s.kin with est := e, hist := ({ t := tk, est := e, imu := i } :: s.kin.hist).take 256 } }

/-- The stored run at or before an instant; the oldest one where none is (log 16). -/
def kfRunAt (t : Nat) (s : State) : Nat :=
  (s.kin.hist.findIdx? fun r => decide (r.t ≤ t)).getD (s.kin.hist.length - 1)

/-- Later runs propagated anew through their stored means, oldest first. -/
def kfReplay : List KfRun → Config.KfEst → List KfRun → List KfRun
  | [], _, acc => acc
  | r :: rs, e, acc =>
    let e := Config.kfPropagate e r.imu
    kfReplay rs e ({ r with est := e } :: acc)

/-- The estimate of run `k` changes and the later ones follow (R130). -/
def kfRewrite (k : Nat) (f : Config.KfEst → Config.KfEst) (s : State) : State :=
  match s.kin.hist[k]? with
  | none => s
  | some r =>
    let e := f r.est
    let h := kfReplay (s.kin.hist.take k).reverse e ({ r with est := e } :: s.kin.hist.drop (k + 1))
    { s with kin := { s.kin with hist := h, est := ((h.head?).map (·.est)).getD s.kin.est } }

/-- d² × 100 of a measurement against the stored run of its time (R130). -/
def kfDist (t : Nat) (m : Config.KfMeas) (s : State) : Nat :=
  ((s.kin.hist[kfRunAt t s]?).map fun r => Config.kfDistance r.est m).getD 0

/-- A measurement is applied; the scale factor keeps its value while it is not updated (R128, R130). -/
def kfApply (t : Nat) (m : Config.KfMeas) (s : State) : State :=
  let l := scaleLearns s
  kfRewrite (kfRunAt t s) (fun e =>
    let u := Config.kfUpdate e m
    if l then u else { u with nom := u.nom.set 15 (e.nom.getD 15 fxOne) }) s

/-- The antenna in the tractor frame. -/
def antennaArm (s : State) : List Int := [fxOf (i32 s.kin.cfg 24), fxOf (i32 s.kin.cfg 28), fxOf (i32 s.kin.cfg 32)]

/-- A measurement waiting, as the filter takes it (R129): a vertical σ is twice the horizontal, a heading's 0.003 rad, a
course's atan(σ_v / speed). -/
def kfMeasOf (s : State) (m : KMeas) : Config.KfMeas :=
  let sg := fxOf m.sigma
  if m.kind = 0 then { kind := 0, z := [fxOf m.v.x, fxOf m.v.y, fxOf m.v.z], sigma := [sg, sg, 2 * sg], arm := antennaArm s }
  else if m.kind = 1 then
    { kind := 1, z := [fxMul m.v.y (fxSin m.v.x), fxMul m.v.y (fxCos m.v.x)], sigma := [sg, sg], arm := antennaArm s }
  else if m.kind = 2 then { kind := 2, z := [m.v.x], sigma := [fxFrac 3 1000] }
  else { kind := 3, z := [if s.kin.reverse then (m.v.x + fxPi) % fxTwoPi else m.v.x], sigma := [fxAtan2 sg m.v.y] }

/-- An estimate with its position set and its position covariance σ², the vertical σ twice (R131). -/
def kfPosSet (p : Vec3) (sg : Fx) (e : Config.KfEst) : Config.KfEst :=
  { nom := [p.x, p.y, p.z] ++ e.nom.drop 3
    cov := (List.range 256).map fun k =>
      let i := k / 16
      let j := k % 16
      if 3 ≤ i ∧ 3 ≤ j then e.cov.getD k 0
      else if i = j then (if i = 2 then 4 * fxMul sg sg else fxMul sg sg) else 0 }

/-- The position is set to a fix and its σ: KIN_POS_RESET with the horizontal jump (R131). Path positions do not move. -/
def posReset (m : KMeas) (s : State) : State :=
  let p := fromAntenna s m.v
  let dx := p.x - s.kin.pos.x
  let dy := p.y - s.kin.pos.y
  let jump := fxSqrt (fxMul dx dx + fxMul dy dy)
  let s := kfRewrite (kfRunAt m.t s) (kfPosSet p (fxOf m.sigma)) s
  let s := { s with kin := { s.kin with pos := p, sigmaH := min m.sigma 0xFFFF, posResets := s.kin.posResets + 1 } }
  positionAccepted m (raise0 0x0443 0 (iBytes 4 (fxToInt 41 jump)) s)

/-- KIN_POS_RESET: the next usable fix resets the position (R131). -/
def execKinPosReset (s : State) : Host.Outcome State Fault Refusal :=
  .next (if !resetDue s then s
  else match s.kin.meas.find? fun m => m.kind == 0 with
    | none => s
    | some m => kinStates (posReset m { s with kin := { s.kin with meas := s.kin.meas.erase m } }))

/-- The direction is known: from the input, from a source that reports it, or by course detection, which needs a valid
heading (R127; log 16). -/
def dirKnown (s : State) : Bool := kc8 s 114 == 2 || (kc8 s 114 == 1 && (dirSource s).isSome) || s.kin.headingValid

/-- Courses within 2° of each other. -/
def coursesAgree (cs : List Int) : Bool :=
  cs.all fun a => cs.all fun b => decide (fxAbs (fxReduce (a - b)) ≤ fxDeg (fxOf 2))

/-- An accepted epoch's velocity: it keeps PATH_VALID, and three in a row with like courses at align_speed and above, with
the direction known, make the heading valid (R132). -/
def velocityAccepted (m : KMeas) (s : State) : State :=
  let s := trackCourse m.v.x m.v.y { s with kin := { s.kin with lastVel := some s.gtc } }
  let cs := if m.v.y < fxOf (kc16 s 154) || !dirKnown s then [] else (m.v.x :: s.kin.courses).take 3
  { s with kin := { s.kin with courses := cs } }

/-- A measurement is used in this run (R129): heading from course only at align_speed and above, with the direction known
and a turn rate below 0.05 rad/s; others always. -/
def measUsed (s : State) (m : KMeas) : Bool :=
  m.kind != 3 || (dirKnown s && decide (fxOf (kc16 s 154) ≤ m.v.y) && decide (fxAbs s.kin.w0 < fxFrac 5 100))

def measDim (m : KMeas) : Nat := if m.kind = 0 then 3 else if m.kind = 1 then 2 else 1

/-- A rejected measurement: GNSS and host fixes report it (R130, R131). -/
def measRejected (m : KMeas) (reason value : Nat) (s : State) : State :=
  let s := fixRejected m.host reason value s
  if m.kind = 0 then
    { s with kin := { s.kin with
      rej4 := if m.cls = 4 then s.kin.rej4 + 1 else 0, rejAny := s.kin.rejAny + 1, courses := [] } }
  else if m.kind = 1 then { s with kin := { s.kin with courses := [] } } else s

/-- One measurement of a run at `tk` (R130). -/
def measStep (tk : Nat) (s : State) (m : KMeas) : State :=
  let d2 := kfDist m.t (kfMeasOf s m) s
  if m.t + 250 * msTicks < tk then measRejected m 2 ((tk - m.t) / msTicks) s
  else if !measUsed s m then s
  else if m.kind = 0 ∧ resetDue s then posReset m s
  else if gateOf (measDim m) < d2 then (if m.kind = 3 then s else measRejected m 1 d2 s)
  else
    let s := kfApply m.t (kfMeasOf s m) s
    if m.kind = 0 then positionAccepted m s
    else if m.kind = 1 then velocityAccepted m s
    else if m.kind = 2 then { s with kin := { s.kin with lastHeading := some s.gtc, headingValid := true, courses := [] } }
    else { s with kin := { s.kin with lastHeading := some s.gtc } }

/-- The learned scale (R128): updated only in class 4, at align_speed and above, below 0.02 rad/s; reported when it has
moved 2 %. -/
def learnScale (sc : F32) (s : State) : State :=
  match scaleSource s with
  | none => s
  | some k =>
    if !scaleLearns s then s
    else
      let s := { s with kin := { s.kin with scale := sc } }
      let d := fxAbs (fxF sc - fxF s.kin.scaleReported)
      if fxAbs (fxF s.kin.scaleReported) ≤ 50 * d then
        raise0 0x0447 0 (leBytes 1 k ++ [0, 0, 0] ++ fBytes sc) { s with kin := { s.kin with scaleReported := sc } }
      else s

/-- The output of a run becomes the path integrator's target (R134): what it corrects at the run's boundary is added, to
position and heading in one step, to speed, turn rate, hitch and steer angle in ten parts. While REVERSE is set the speed
is negative (R127). -/
def kfCommit (s : State) : State :=
  let k := s.kin
  let n (j : Nat) : Int := k.est.nom.getD j 0
  let h := n 6
  let sp := fxAbs (fxMul (n 3) (fxSin h) + fxMul (n 4) (fxCos h))
  let u := if k.reverse then -sp else sp
  let w := if k.imuOk then ((k.imuBuf.head?).map fun x => x.2.getD 2 0 - n 11).getD k.w0At else k.w0At
  { s with kin := { k with
    pos := { x := k.pos.x + (n 0 - k.posAt.x), y := k.pos.y + (n 1 - k.posAt.y), z := n 2 }
    heading := (k.heading + (h - k.headingAt)) % fxTwoPi, pitch := n 7, roll := n 8
    du := (u - k.uAt) / 10, dw := (w - k.w0At) / 10
    corrLeft := 10
    sigmaH := if k.lastPos.isSome then min (Config.kfSigma k.est) 0xFFFF else 0xFFFF } }

/-- A source's speed as the filter takes it (R125, R128, R129). -/
def srcMeas (s : State) (k : Nat) : Config.KfMeas :=
  { kind := 4, z := [(srcOf s k).speed], sigma := [kcF s (srcOff k + 12)]
    axle := bit (srcFlags s k) 2, scaled := scaleSource s == some k }

/-- A measurement that comes with the run itself: applied within its gate; it answers whether it was. -/
def runMeas (tk dim : Nat) (m : Config.KfMeas) (s : State) : Bool × State :=
  if gateOf dim < kfDist tk m s then (false, s) else (true, kfApply tk m s)

/-- Source speeds, the non-holonomic constraint and the zero-velocity update of a run; the sources' and the last keep
PATH_VALID (R129, R132). -/
def auxMeas (tk : Nat) (s : State) : State :=
  let vel (x : Bool × State) : State := if x.1 then { x.2 with kin := { x.2.kin with lastVel := some x.2.gtc } } else x.2
  let s := ((sources s).filter fun k => (srcOf s k).valid && !(srcOf s k).implausible).foldl
    (fun s k => vel (runMeas tk 1 (srcMeas s k) s)) s
  let s := if fxOf (kc16 s 152) ≤ fxAbs s.kin.u then
      (runMeas tk 2 { kind := 5, z := [0, 0], sigma := [kcF s 164, kcF s 164] } s).2 else s
  if s.kin.standstill then vel (runMeas tk 3 { kind := 6, z := [0, 0, 0], sigma := [fxOne, fxOne, fxOne] } s) else s

/-- ESTIMATOR_RUN: the estimate is propagated and stored, the measurements waiting are judged and applied in t_valid order,
then those of the run itself, and the output is committed at the end of slot 3 (R129, R130); the state and the flags
follow (R132). -/
def execEstimatorRun (s : State) : Host.Outcome State Fault Refusal :=
  .next (if s.kin.kstate = kOff ∨ s.osl.role = 2 then s
  else
    let tk := (s.gtc / (10 * frameTicks)) * (10 * frameTicks)
    let s := toInstant (tk + 4 * slotTicks) s
    let s := kfPropagateRun tk ((sources s).foldl readPulseSource s)
    let xs := s.kin.meas
    let s := xs.foldl (measStep tk) { s with kin := { s.kin with meas := [] } }
    let s := auxMeas tk s
    let s := if s.kin.courses.length = 3 ∧ coursesAgree s.kin.courses then { s with kin := { s.kin with headingValid := true } } else s
    let s := if s.kin.lastVel = some s.gtc then { s with kin := { s.kin with pathValid := true } } else s
    kinStates (learnScale (fxToF 57 (s.kin.est.nom.getD 15 fxOne)) (kfCommit ((sources s).foldl trackSource s))))

/-! ## Limits in time (R124, R130, R132, R138) -/

/-- GNSS_TIMEOUT: RUNNING becomes DEAD_RECKONING (R132). -/
def execGnssTimeout (s : State) : Host.Outcome State Fault Refusal :=
  .next (match s.kin.lastPos with
    | none => s
    | some t =>
      if s.kin.kstate = kRunning then
        let s := toInstant (commitAt (t + kc16 s 10 * msTicks)) s
        raise0 0x0441 0 [] (setKState kDead { s with kin := { s.kin with drAt := s.gtc } })
      else s)

/-- DR_LIMIT_EXPIRY: POS_VALID clears (R132). -/
def execDrLimitExpiry (s : State) : Host.Outcome State Fault Refusal :=
  .next (if s.kin.kstate = kDead ∧ ¬ s.kin.drExpired then
    raise0 0x0444 0 [] { toInstant (commitAt (s.kin.drAt + kc16 s 20 * msTicks)) s with kin := { s.kin with drExpired := true } }
  else s)

/-- HEADING_TIMEOUT: with IMU_OK = 0, 2 s without an accepted heading (R132). -/
def execHeadingTimeout (s : State) : Host.Outcome State Fault Refusal :=
  .next (if s.kin.headingValid && !s.kin.imuOk then
    { toInstant (commitAt ((s.kin.lastHeading.getD 0) + 2 * secTicks)) s with
        kin := { s.kin with headingValid := false, courses := [] } }
  else s)

/-- The NOZZLE and ROW objects that reference a geometry point (R133). -/
def pointedChannels (s : State) : List Obj :=
  s.objs.filter fun o => (o.typ == tyNozzle || o.typ == tyRow) && isEnabled o
    && (refsOf o.typ o.params).any fun r => hType r.1 == tyGeopoint

/-- PATH_VALID has cleared: KIN_PATH_INVALID to every channel with a geometry point (R133). -/
def pathInvalid (s : State) : State := (pointedChannels s).foldl (fun s o => class1 (handleOf o) 0x0448 [] s) s

/-- PATH_VALID_TIMEOUT: 200 ms without an accepted speed (R132, R133). -/
def execPathValidTimeout (s : State) : Host.Outcome State Fault Refusal :=
  .next (match s.kin.lastVel with
    | none => s
    | some t =>
      if s.kin.pathValid then
        pathInvalid { toInstant (commitAt (t + 200 * msTicks)) s with kin := { s.kin with pathValid := false } }
      else s)

/-- Every valid speed source reads below standstill (R130). -/
def sourcesSlow (s : State) : Bool :=
  (sources s).all fun k => !(srcOf s k).valid || decide ((srcOf s k).speed < fxOf (kc16 s 152))

/-- STANDSTILL_DETECT: the tractor speed has been below standstill for 100 ms (R130). -/
def execStandstillDetect (s : State) : Host.Outcome State Fault Refusal :=
  .next (match s.kin.slowSince with
    | none => s
    | some t =>
      let s := toInstant (t + 100 * msTicks) s
      if sourcesSlow s then { s with kin := { s.kin with standstill := true } } else s)

/-- HITCH_IMPLAUSIBLE_TIMEOUT: the measured angle has been off the model by 0.1 rad for 2 s (R138). -/
def execHitchImplausibleTimeout (s : State) : Host.Outcome State Fault Refusal :=
  .next (match s.kin.hitchOffSince with
    | none => s
    | some t =>
      if s.kin.hitchBad then s
      else raise0 0x044B 0 [0] { toInstant (t + 2 * secTicks) s with kin := { s.kin with hitchBad := true, hitchOnSince := none } })

/-- HITCH_RESTORE: within 0.02 rad of the model for 5 s (R138). -/
def execHitchRestore (s : State) : Host.Outcome State Fault Refusal :=
  .next (match s.kin.hitchOnSince with
    | none => s
    | some t => if s.kin.hitchBad then { toInstant (t + 5 * secTicks) s with kin := { s.kin with hitchBad := false } } else s)

/-- STEER_HOLD_EXPIRY: 200 ms after the steer sensor's fault the angle is 0 (R138). -/
def execSteerHoldExpiry (s : State) : Host.Outcome State Fault Refusal :=
  .next (match s.kin.steerBad with
    | none => s
    | some t => { toInstant (t + 200 * msTicks) s with kin := { s.kin with steer := 0 } })

end Sys2Proof.Machine
end

