-- ==== Sys2Proof/Machine/Link.lean ====
section
/-! DEFINITION. The Osund link (01, R24 to R29; 03, R75, R76): roles, bring-up, skew calibration and losses. -/

namespace Sys2Proof.Machine

/-- Events of R30. -/
def evLinkUp : Nat := 0x0143
def evCalDone : Nat := 0x0144
def evBcastMissed : Nat := 0x0145
def evBcastStale : Nat := 0x0146
def evLinkDown : Nat := 0x0147
def evClockLost : Nat := 0x0148
def evMarkSlip : Nat := 0x0149
def evSkewFault : Nat := 0x014A
def evMemberLost : Nat := 0x014B
def evCrcError : Nat := 0x014C

/-- Some channel object of this device is ENABLED (R27). -/
def channelEnabled (s : State) : Bool :=
  s.objs.any fun o => (o.typ == tyNozzle || o.typ == tyRow) && isEnabled o

/-- A refused role or sync-output write (R27). -/
def oslRefuse (s : State) : State := { s with clk := { s.clk with swRefused := true } }

/-- The device takes a role (R27 step 1): a member's PLL reference becomes SYNC_CLKI and it starts its bring-up; a
lead has position 0 and is the first device of its cluster. DESIGN CHOICE (log 29): a device that ceases to be a member is
FREE, and with DISC_EN = 1 its discipline procedure starts anew, with no previous accepted edge. -/
def takeRole (role : Nat) (s : State) : State :=
  if role = s.osl.role then s
  else
    { s with
      clk := { s.clk with
        refSync := role == 2
        holdover := false
        pllLock := if role = 2 then false else s.clk.pllLock
        ppsLast := none, good := 0
        dstate := if role = 2 then .following else if s.osl.role = 2 then .free else s.clk.dstate }
      osl := { s.osl with
        role := role, position := 0, devices := if role = 1 then 1 else 0
        freqSent := none, bcastFreq := none, calDone := false, enumDone := role == 1, coarse := false, exchanges := 0, offsetSum := 0
        missedRun := 0, slipRun := 0, markExpected := none, markLast := none
        secs := [], board := {}, told := [], far := [] } }

/-- OSL_ROLE_WRITE: ignored while the set-up lock is closed (R11), refused while a channel is ENABLED or for 0b11 (R27). -/
def execOslRoleWrite (role : Nat) (s : State) : Host.Outcome State Fault Refusal :=
  .next (if s.isl.locked then s
    else if channelEnabled s || decide (3 ≤ role) then oslRefuse s
    else takeRole role s)

/-- OSL_SYNC_OUT_WRITE: as the role, for SYNC_OUT_EN (R25, R27). -/
def execOslSyncOutWrite (on : Bool) (s : State) : Host.Outcome State Fault Refusal :=
  .next (if s.isl.locked then s
    else if channelEnabled s then oslRefuse s
    else { s with osl := { s.osl with syncOutEn := on } })

/-- What this device drives on SYNC_CLKO (R25): the lead its reference, a member with SYNC_OUT_EN the SYNC_CLKI it gets. -/
def syncClko (s : State) : Bool :=
  s.osl.role == 1 || (s.osl.role == 2 && s.osl.syncOutEn && s.clk.synciPresent)

/-- A pulse goes out on SYNC_MARKO: the lead's at its frame boundary, a member's with SYNC_OUT_EN as SYNC_MARKI comes (R23
step 1, R25). -/
def markOut (t : Nat) (s : State) : State :=
  if s.osl.role = 1 ∨ (s.osl.role = 2 ∧ s.osl.syncOutEn) then { s with osl := { s.osl with markoAt := some t } } else s

/-- MEMBER_PLL_LOCK: TCLK follows the lead's reference (R27 step 2). After a loss of SYNC_CLKI it says that the PLL follows
it again, so that REF_SRC is SYNC_CLKI and HOLDOVER ends: DESIGN CHOICE (log 29), R29 gives no instant. -/
def execMemberPllLock (s : State) : Host.Outcome State Fault Refusal :=
  .next (if s.osl.role = 2 then { s with clk := { s.clk with pllLock := true, synciPresent := true, refSync := true, holdover := false } } else s)

/-- OSL_LANE_TRAINED: port 0 is upstream, port 1 downstream; OSL_LINK_UP carries the port (R27 step 3, R30). -/
def execOslLaneTrained (port : Nat) (s : State) : Host.Outcome State Fault Refusal :=
  .next (
    let s := if port = 0 then conditionEnded evLinkDown { s with osl := { s.osl with upLink := true } }
      else { s with osl := { s.osl with dnLink := true } }
    raise0 evLinkUp 0 (leBytes 1 port) s)

/-- COARSE_LOAD: an enumerated member that is not calibrated loads its GTC with the lead's boundary value (R27 step 5). -/
def execCoarseLoad (boundary : Nat) (s : State) : Host.Outcome State Fault Refusal :=
  .next (if s.osl.role = 2 ∧ s.osl.enumDone ∧ ¬ s.osl.calDone then
    { s with gtc := boundary % 2 ^ 64
             isl := { s.isl with boundaryGtc := frameStart (boundary % 2 ^ 64) }
             osl := { s.osl with coarse := true, exchanges := 0, offsetSum := 0, markLast := some (boundary % frameTicks) } }
  else s)

/-- Hop delay and offset of a two-way exchange (R28), in 1/16 TCLK; halves round openly (log 9). -/
def hopDelayOf (t1 t2 t3 t4 : Int) : Int := roundOpen 2 ((t4 - t1) - (t3 - t2)) 2

/-- SKEW_EXCHANGE: the hop is measured, the offset to the lead is the sum of the hops (R28); before CAL_DONE it is
summed for the mean, after it the phase is corrected, and an offset above 24 ticks is OSL_SKEW_FAULT (R29). -/
def execSkewExchange (t1 t2 t3 t4 upOffset : Int) (s : State) : Host.Outcome State Fault Refusal :=
  .next (if s.osl.role ≠ 2 ∨ ¬ s.osl.coarse then s
  else
    let delay := hopDelayOf t1 t2 t3 t4
    let off := t2 - t1 - delay + upOffset
    let s := { s with osl := { s.osl with
      skew := off, hopDelay := delay
      exchanges := s.osl.exchanges + 1
      offsetSum := s.osl.offsetSum + off
      phaseLeft := if s.osl.calDone then -off else s.osl.phaseLeft } }
    if s.osl.calDone then
      if off.natAbs > 24 * 16 then
        class2 evSkewFault 0 (iBytes 4 off) { s with osl := { s.osl with skewFault := true } }
      else conditionEnded evSkewFault s
    else s)

/-- OSL_CAL_DONE: after 256 exchanges the GTC is stepped once by the mean offset, the expected SYNC_MARKI arrival is
recorded, and the event carries the offset (R27 steps 6 and 7, R30). -/
def execOslCalDone (s : State) : Host.Outcome State Fault Refusal :=
  .next (if s.osl.role = 2 ∧ s.osl.coarse ∧ ¬ s.osl.calDone ∧ 256 ≤ s.osl.exchanges then
    let step := roundOpen 3 s.osl.offsetSum (16 * s.osl.exchanges)
    let mean := roundOpen 4 s.osl.offsetSum s.osl.exchanges
    raise0 evCalDone 0 (iBytes 4 mean)
      { s with gtc := ux 64 ((s.gtc : Int) - step)
               osl := { s.osl with
                 calDone := true
                 markExpected := s.osl.markLast.map fun m => ((((m : Int) - step) % frameTicks).toNat) } }
  else s)

/-- The distance of two instants within a frame. -/
def frameDist (a b : Nat) : Nat :=
  let d := (a % frameTicks + frameTicks - b % frameTicks) % frameTicks
  min d (frameTicks - d)

/-- SYNC_MARKI_ARRIVAL: before CAL_DONE the arrival is noted; a calibrated member counts consecutive frames whose
deviation is above 24 ticks (R29). -/
def execSyncMarkiArrival (t : Nat) (s : State) : Host.Outcome State Fault Refusal :=
  .next (if s.osl.role ≠ 2 then s
  else
    let s := markOut t (toInstant t s)
    if !s.osl.calDone then { s with osl := { s.osl with markLast := some (t % frameTicks) } }
    else match s.osl.markExpected with
      | none => { s with osl := { s.osl with markExpected := some (t % frameTicks) } }
      | some e =>
        if frameDist t e > 24 then { s with osl := { s.osl with slipRun := s.osl.slipRun + 1 } }
        else conditionEnded evMarkSlip { s with osl := { s.osl with slipRun := 0 } })

/-- OSL_MARK_SLIP: 16 consecutive deviating frames (R29). -/
def execOslMarkSlip (s : State) : Host.Outcome State Fault Refusal :=
  .next (if s.osl.calDone ∧ 16 ≤ s.osl.slipRun then
    class2 evMarkSlip 0 [] { s with osl := { s.osl with markSlip := true, slipRun := 0 } }
  else s)

/-- SYNC_CLKI_LOSS: a member's PLL goes to XTAL_IN, the frequency word is kept, OSL_CLOCK_LOST is raised (R29). -/
def execSyncClkiLoss (s : State) : Host.Outcome State Fault Refusal :=
  .next (if s.osl.role = 2 then
    class2 evClockLost 0 [] { s with clk := { s.clk with refSync := false, holdover := true, synciPresent := false } }
  else s)

/-- UPSTREAM_SILENCE: no valid symbols on the upstream lane for 10 µs (R29). -/
def execUpstreamSilence (s : State) : Host.Outcome State Fault Refusal :=
  .next (if s.osl.role = 2 then class2 evLinkDown 0 [] { s with osl := { s.osl with upLink := false } } else s)

/-- OSL_MEMBER_LOST: the lead marks the member's entries absent and continues (R29, R76). The loss of the first member is that
of the downstream link (DEDUCED, log 29). -/
def execOslMemberLost (pos : Nat) (s : State) : Host.Outcome State Fault Refusal :=
  .next (if s.osl.role = 1 ∧ 1 ≤ pos ∧ pos ≤ 7 then
    raise0 evMemberLost 0 (leBytes 1 pos) (lostReports pos
      { s with osl := { s.osl with dnLink := s.osl.dnLink && pos != 1, absent := if s.osl.absent.contains pos then s.osl.absent else s.osl.absent ++ [pos] } })
  else s)

/-- CLUSTER_REF_CHECK: a member judges a reference the lead asks for, for a spanning object of type `ty`: the object exists, or
its generic status says why not; an accepted one counts as a reference (R75, R76). `release` is the lead removing it. -/
def execClusterRefCheck (h ty : Nat) (release : Bool) (s : State) : Host.Outcome State Fault Refusal :=
  .next (
    if release then { s with osl := { s.osl with leadRefs := s.osl.leadRefs.erase (h, ty) } }
    else
      let st := if (objOf s h).isSome then stOk
        else if s.objs.any (fun o => o.idx == hIndex h && o.typ != hType h) then stWrongType else stBadHandle
      let reply : Packet := { kind := .refReply, dst := 0, src := s.osl.position, body := leBytes 4 h ++ leBytes 2 st }
      { s with osl := { s.osl with
          leadRefs := if st = stOk then s.osl.leadRefs ++ [(h, ty)] else s.osl.leadRefs
          outbox := s.osl.outbox ++ [reply] } })

end Sys2Proof.Machine
end

