-- ==== Sys2Proof/Machine/Motion.lean ====
section
/-! DEFINITION. Motion (04, R134 to R148; 01, R23, R24, R26): the path integrator and the machine state record, the
kinematic broadcast, wings, geometry points and their prediction. -/

namespace Sys2Proof.Machine

/-- One frame, 100 µs, of a rate per second. -/
def perFrame (x : Fx) : Fx := x / 10000

/-- A first-order filter of time constant `tau` ms over one frame: forward Euler (DEDUCED, log 15). -/
def lowPass (tau : Nat) (x y : Fx) : Fx := y + (x - y) / ((10 * max 1 tau : Nat) : Int)

def fxRot (x y a : Fx) : Fx × Fx :=
  (fxMul x (fxCos a) - fxMul y (fxSin a), fxMul x (fxSin a) + fxMul y (fxCos a))

/-! ## Wings (R140, R141) -/

def wingOf (o : Obj) : WingRt := match o.rt with | .wing r => r | _ => {}
def updWing (i : Nat) (f : WingRt → WingRt) (s : State) : State := updObj i (fun o => { o with rt := .wing (f (wingOf o)) }) s

/-- A term of the wing angle: 0 without a source, none while its sensor is not good (R141). -/
def wingTerm (s : State) (src h : Nat) (f : F32 → Fx) : Option Fx :=
  if src = 0 then some 0 else (goodFb s h).map fun o => f (fbPosition o)

/-- The angle that the sensors give (R141): yaw + atan(sway / sway_dist). -/
def wingReading (s : State) (ps : List Byte) : Option Fx :=
  let yaw := wingTerm s (u8 ps 2) (u32 ps 12) fun x => fxF (f32 ps 20) + fxMul (fxF (f32 ps 16)) (fxF x)
  let sway := wingTerm s (u8 ps 3) (u32 ps 24) fun x => fxAtan2 (fxMul (fxF (f32 ps 28)) (fxF x)) (fxOf (u32 ps 32))
  match yaw, sway with
  | some a, some b => if fxAbs (a + b) ≤ fxFrac (u16 ps 38) 10000 then some (a + b) else none
  | _, _ => none

/-- A wing in one frame (R141): a bad reading clears its bit and holds the angle, for 200 ms from the one that cleared it;
while the bit is set a good one drives it; a disabled wing carries 0. -/
def wingFrame (s : State) (o : Obj) : State :=
  if !isEnabled o then updWing o.idx (fun _ => {}) s
  else match wingReading s o.act with
    | none =>
      let r := wingOf o
      let s := updWing o.idx (fun r => { r with
        valid := false, goodSince := none, badSince := if r.valid then some s.gtc else r.badSince.or (some s.gtc) }) s
      if r.valid then raise0 0x044C 0 (leBytes 1 (u8 o.act 0)) s else s
    | some a =>
      updWing o.idx (fun r =>
        if r.valid then { r with angle := a, rate := lowPass (u16 o.act 36) (10000 * (a - r.angle)) r.rate }
        else { r with goodSince := some (r.goodSince.getD s.gtc) }) s

/-- WING_HOLD_EXPIRY: 200 ms after its sensor's fault the angle and the rate are 0 (R141). -/
def execWingHoldExpiry (h : Nat) (s : State) : Host.Outcome State Fault Refusal :=
  .next (match objOf s h with
    | none => s
    | some o => match (wingOf o).badSince with
      | none => s
      | some t => updWing o.idx (fun r => { r with angle := 0, rate := 0 }) (toInstant (t + 200 * msTicks) s))

/-- WING_SENSOR_RESTORE: 1 s of good readings sets the bit again (R141). -/
def execWingSensorRestore (h : Nat) (s : State) : Host.Outcome State Fault Refusal :=
  .next (match objOf s h with
    | none => s
    | some o => match (wingOf o).goodSince with
      | none => s
      | some t =>
        if (wingOf o).valid then s
        else updWing o.idx (fun r => { r with valid := true, badSince := none, goodSince := none }) (toInstant (t + secTicks) s))

/-- The wing of an id: its parent, its hinge in the parent frame [mm]; a member without the object has only
`Config.wing` (log 17). -/
def wingGeom (s : State) (id : Nat) : Nat × Int × Int :=
  match (objsOf s tyWing).find? fun o => u8 o.act 0 == id with
  | some o => (u8 o.act 1, i32 o.act 4, i32 o.act 8)
  | none =>
    if s.osl.role = 2 then
      let c := Config.wing (BitVec.ofNat 3 id)
      (c.1.toNat, c.2.1.toInt, c.2.2.toInt)
    else (0xFF, 0, 0)

/-! ## The implement (R137, R138) -/

/-- Implement velocity and turn rate, from the tractor's (R137). -/
def implState (s : State) (u w0 gamma delta : Fx) : Fx × Fx × Fx :=
  let hx := fxOf (i32 s.kin.cfg 116)
  let hy := fxOf (i32 s.kin.cfg 120)
  let l := fxOf (u32 s.kin.cfg 124)
  let model := kc8 s 112
  let vhx := u - fxMul w0 hy
  let vhy := fxMul w0 hx
  if model = 0 then (u, 0, w0)
  else if model = 1 then (vhx, vhy, w0)
  else
    let vi := fxRot vhx vhy gamma
    let t := if model = 2 then 0 else fxDiv (fxSin delta) (fxCos delta)
    let w1 := fxDiv (vi.2 - fxMul vi.1 t) l
    (vi.1, vi.2 - fxMul w1 l, w1)

/-- The implement origin and heading (R137): the reference point, the hitch point or the axle centre. -/
def implPose (s : State) (pos : Vec3) (heading gamma : Fx) : Vec3 × Fx :=
  let model := kc8 s 112
  if model = 0 then (pos, heading)
  else
    let h := leverOf heading 0 0 (fxOf (i32 s.kin.cfg 116)) (fxOf (i32 s.kin.cfg 120)) 0
    let p : Vec3 := { x := pos.x + h.1, y := pos.y + h.2.1, z := pos.z }
    if model = 1 then (p, heading)
    else
      let hd := (heading + gamma) % fxTwoPi
      let l := fxOf (u32 s.kin.cfg 124)
      ({ p with x := p.x - fxMul l (fxSin hd), y := p.y - fxMul l (fxCos hd) }, hd)

/-- The measured hitch angle, none while its sensor is not good (R138). -/
def hitchMeasured (s : State) : Option Fx :=
  (goodFb s (u32 s.kin.cfg 128)).map fun o => kcF s 136 + fxMul (kcF s 132) (fxF (fbPosition o))

/-- The hitch sensor against the model (R138): a faulted sensor is replaced at once. -/
def trackHitch (s : State) : State :=
  if kc8 s 113 = 0 then s
  else match hitchMeasured s with
    | none =>
      let was := s.kin.hitchBad
      let s := { s with kin := { s.kin with hitchBad := true, hitchOnSince := none, hitchOffSince := none } }
      if was then s else raise0 0x044B 0 [0] s
    | some m =>
      let d := fxAbs (m - s.kin.gammaModel)
      let off := decide (fxFrac 1 10 < d) && decide (fxOf (kc16 s 154) ≤ fxAbs s.kin.u)
      { s with kin := { s.kin with
        hitchOffSince := if off then some (s.kin.hitchOffSince.getD s.gtc) else none
        hitchOnSince := if d ≤ fxFrac 2 100 then some (s.kin.hitchOnSince.getD s.gtc) else none } }

/-- The hitch angle to use: the model's, or the sensor's (R138). -/
def hitchTarget (s : State) : Fx :=
  if kc8 s 113 = 1 ∧ ¬ s.kin.hitchBad then (hitchMeasured s).getD s.kin.gammaModel else s.kin.gammaModel

/-- The steer sensor (R138): a fault is reported once, and its value held. -/
def trackSteer (s : State) : State :=
  if kc8 s 112 ≠ 3 then s
  else match goodFb s (u32 s.kin.cfg 140) with
    | some _ => { s with kin := { s.kin with steerBad := none } }
    | none => if s.kin.steerBad.isSome then s
      else raise0 0x044B 0 [1] { s with kin := { s.kin with steerBad := some s.gtc } }

def steerTarget (s : State) : Fx :=
  match goodFb s (u32 s.kin.cfg 140) with
  | some o => kcF s 148 + fxMul (kcF s 144) (fxF (fbPosition o))
  | none => s.kin.steer

/-! ## The record (R134, R135) -/

/-- The flags of the record (R135). -/
def kflags (s : State) : Nat :=
  let k := s.kin
  let on := k.kstate != kOff
  let pos := k.originSet && k.headingValid && (k.kstate == kRunning || (k.kstate == kDead && !k.drExpired))
  let wings := ((objsOf s tyWing).map fun o => if isEnabled o && (wingOf o).valid then 2 ^ (8 + u8 o.act 0) else 0).foldl (· + ·) 0
  b2n (on && pos) + 2 * b2n (on && k.pathValid) + 4 * b2n (on && k.headingValid) + 8 * b2n (k.kstate == kDead)
    + 16 * b2n (on && k.imuOk) + 32 * b2n (on && k.reverse) + 64 * b2n (on && k.standstill) + 128 * b2n k.originSet
    + (if on then wings else 0)

/-- Angle and rate of the ENABLED wing of an id, in 1/10,000 rad and 1/1,000 rad/s. -/
def wingField (s : State) (id : Nat) (rate : Bool) : Int :=
  match (objsOf s tyWing).find? fun o => isEnabled o && u8 o.act 0 == id with
  | none => 0
  | some o => clampInt (-32768) 32767 (if rate then fxToInt 43 (1000 * (wingOf o).rate) else fxToInt 42 (10000 * (wingOf o).angle))

/-- A filtered acceleration within ±pred_amax (R135, R147). -/
def predClamp (s : State) (a : Fx) : Fx := clampInt (-fxOf (kc16 s 156)) (fxOf (kc16 s 156)) a

/-- The 128 B record for a boundary (R26, R135): positions and speeds in 2^-96 mm. -/
def recordBytes (s : State) (b : Nat) (origin : Vec3) (hd vx vy ax ay w tw : Fx) : List Byte :=
  let k := s.kin
  let level := decide (2 ≤ kc8 s 112)
  let i4 (x : Fx) : List Byte := iBytes 4 (fxToInt 44 x)
  let fl (x : Fx) : List Byte := fBytes (fxToF 45 x)
  leBytes 2 1 ++ leBytes 2 128 ++ leBytes 8 b ++ iBytes 4 (s.clk.freqNext.getD s.clk.freqAdj)
    ++ i4 origin.x ++ i4 origin.y ++ i4 origin.z ++ fl hd
    ++ fl (if level then 0 else k.pitch) ++ fl (if level then 0 else k.roll)
    ++ i4 vx ++ i4 vy ++ i4 ax ++ i4 ay ++ fl w ++ fl tw
    ++ ((List.range 8).flatMap fun i => iBytes 2 (wingField s i false))
    ++ ((List.range 8).flatMap fun i => iBytes 2 (wingField s i true))
    ++ i4 (predClamp s k.impAccelF) ++ fl k.turnF ++ fl k.gamma ++ fl k.steer
    ++ leBytes 2 (kflags s) ++ leBytes 2 k.sigmaH ++ leBytes 4 k.originId ++ leBytes 4 k.seq
    ++ leBytes 1 (kc8 s 112) ++ leBytes 1 k.kstate ++ [0, 0]

/-- Since when the tractor speed is below standstill; STANDSTILL clears at the first value above (R130). -/
def trackStandstill (s : State) : State :=
  let slow := decide (fxAbs s.kin.u < fxOf (kc16 s 152))
  { s with kin := { s.kin with
    slowSince := if slow then some (s.kin.slowSince.getD s.gtc) else none
    standstill := s.kin.standstill && slow && sourcesSlow s } }

/-- The corrections of the last commit end one frame nearer (R134): hitch and steer go with them. -/
def startCorrections (s : State) : State :=
  if s.kin.corrLeft = 10 then
    { s with kin := { s.kin with
      dGamma := (hitchTarget s - s.kin.gamma) / 10
      dSteer := (steerTarget s - s.kin.steer) / 10 } }
  else s

/-- Forward acceleration [m/s²] and turn rate of the latest IMU sample, the estimate's biases and the part of free fall
under the pitch taken off (R134, log 16). -/
def imuForward (s : State) : Fx × Fx :=
  let v := ((s.kin.imuBuf.head?).map (·.2)).getD []
  let n (j : Nat) : Int := s.kin.est.nom.getD j 0
  (v.getD 3 0 - n 12 - fxMul Config.gravity (fxSin s.kin.pitch), v.getD 2 0 - n 11)

/-- The tractor and the hitch moved on by one frame (R134): with the IMU the latest sample's acceleration and turn rate,
without it the last turn rate and zero acceleration (R124). -/
def moveTractor (s : State) : State :=
  let k := s.kin
  let on : Int := if k.corrLeft = 0 then 0 else 1
  let a := if k.imuOk then 1000 * (imuForward s).1 else 0
  let wzN := if k.imuOk then (imuForward s).2 else k.wz
  let u := if k.kstate = kOff then 0 else k.u + perFrame a + on * k.du
  let w0 := if k.kstate = kOff then 0 else k.w0 + (wzN - k.wz) + on * k.dw
  let dist := perFrame k.u
  let im := implState s k.u k.w0 k.gamma k.steer
  let mo := implState s k.u k.w0 k.gammaModel k.steer
  let trailed := decide (2 ≤ kc8 s 112)
  { s with kin := { k with
    u := u, w0 := w0, wz := wzN, accel := 10000 * (u - k.u), turnAccel := 10000 * (w0 - k.w0)
    posAt := k.pos, headingAt := k.heading, uAt := k.u, w0At := k.w0
    pos := { k.pos with x := k.pos.x + fxMul dist (fxSin k.heading), y := k.pos.y + fxMul dist (fxCos k.heading) }
    heading := (k.heading - perFrame k.w0) % fxTwoPi
    gamma := if trailed then k.gamma + perFrame (k.w0 - im.2.2) + on * k.dGamma else 0
    gammaModel := if trailed then k.gammaModel + perFrame (k.w0 - mo.2.2) else 0
    steer := k.steer + on * k.dSteer
    corrLeft := k.corrLeft - 1 } }

/-- The implement and the filters for the next boundary, and its record (R134, R135, R147). -/
def moveImplement (b : Nat) (s : State) : State :=
  let k := s.kin
  let im := implState s k.u k.w0 k.gamma k.steer
  let ax := 10000 * (im.1 - k.vx)
  let ay := 10000 * (im.2.1 - k.vy)
  let tw := 10000 * (im.2.2 - k.w1)
  let tau := kc16 s 158
  let s := { s with kin := { k with
    vx := im.1, vy := im.2.1, w1 := im.2.2
    impRev := if im.1 = 0 then k.impRev else decide (im.1 < 0)
    impAccelF := lowPass tau ax k.impAccelF
    turnF := lowPass tau im.2.2 k.turnF
    accelF := lowPass tau k.accel k.accelF
    wF := lowPass tau k.w0 k.wF
    seq := wrapInc 32 k.seq } }
  let p := implPose s s.kin.pos s.kin.heading s.kin.gamma
  { s with kin := { s.kin with rcdNext := recordBytes s b p.1 p.2 im.1 im.2.1 ax ay im.2.2 tw } }

/-- PATH_INTEGRATOR_RUN: a lead or standalone device propagates its state to boundary N+1 from the last committed output and
the latest IMU sample, and writes the record (R134). -/
def execPathIntegratorRun (s : State) : Host.Outcome State Fault Refusal :=
  .next (if s.osl.role = 2 then s
  else
    let s := if s.kin.kstate = kOff then s else readDirection s
    let s := trackSteer (trackHitch s)
    let s := (objsOf s tyWing).foldl wingFrame s
    moveImplement (nextBoundary s.gtc) (trackStandstill (moveTractor (startCorrections s))))

/-! ## The broadcast (R23, R24, R26) -/

/-- A record's frequency word (R26). -/
def recordFreq (w : Int) (r : List Byte) : List Byte := putAt r 12 (iBytes 4 w)

/-- KINEMATIC_BROADCAST_SEND: at the start of slot 2 the lead sends the record, before all packets that wait (R23 step 3,
R26); its frequency word is then the one for that boundary. -/
def execKinematicBroadcastSend (s : State) : Host.Outcome State Fault Refusal :=
  .next (if s.osl.role = 1 then
    let s := toInstant (frameStart s.gtc + 2 * slotTicks) s
    let w := s.clk.freqNext.getD s.clk.freqAdj
    let r := recordFreq w s.kin.rcdNext
    { s with kin := { s.kin with rcdNext := r }
             osl := { s.osl with freqSent := some w, outbox := { kind := .bcast, dst := 0xFF, src := 0, body := r } :: s.osl.outbox } }
  else s)

/-- PATH_VALID of a record. -/
def recPathValid (r : List Byte) : Bool := bit (u16 r 112) 1
def recPosValid (r : List Byte) : Bool := bit (u16 r 112) 0
def recReverse (r : List Byte) : Bool := bit (u16 r 112) 5

/-- A broadcast is valid (R24; log 29): type and length are those of R26, and once the member's GTC has been loaded its
boundary is the next one of that GTC. -/
def bcastValid (r : List Byte) (s : State) : Bool :=
  u16 r 0 == 1 && u16 r 2 == 128 && (!s.osl.coarse || u64 r 4 == nextBoundary s.gtc)

/-- BROADCAST_RECEIVE: a valid record for N+1 with the frequency word; the count of missed ones ends (R24). The first one
gives a member its position, one more than its upstream neighbour's, which it reports to the lead (R27); a record that clears PATH_VALID reports so
(R133). -/
def execBroadcastReceive (rec : List Byte) (upPos : Nat) (s : State) : Host.Outcome State Fault Refusal :=
  .next (if s.osl.role ≠ 2 ∨ ¬ bcastValid (padTo 128 rec) s then s
  else
    let r := padTo 128 rec
    let lost := recPathValid s.kin.rcd && !recPathValid r
    let pos := if s.osl.enumDone then s.osl.position else upPos + 1
    let hello : List Packet := if s.osl.enumDone then [] else [{ kind := .enum, dst := 0, src := pos, body := [] }]
    let s := { s with
      osl := { s.osl with
        bcastSeen := true, missedRun := 0, bcastFreq := some (i32 r 12), position := pos, enumDone := true, outbox := s.osl.outbox ++ hello }
      kin := { s.kin with rcdNext := r } }
    if lost then pathInvalid s else s)

/-- A record moved on by one frame by its speed, acceleration and rates (R24, R144). -/
def recordNext (r : List Byte) : List Byte :=
  let b := u64 r 4
  let hd := fxF (f32 r 28)
  let vx := fxOf (i32 r 40)
  let vy := fxOf (i32 r 44)
  let ax := fxOf (i32 r 48)
  let ay := fxOf (i32 r 52)
  let w := fxF (f32 r 56)
  let tw := fxF (f32 r 60)
  let e := perFrame (fxMul vx (fxSin hd) - fxMul vy (fxCos hd))
  let n := perFrame (fxMul vx (fxCos hd) + fxMul vy (fxSin hd))
  let i4 (x : Fx) : List Byte := iBytes 4 (fxToInt 46 x)
  let wing (i : Nat) : List Byte := iBytes 2 (clampInt (-32768) 32767 (i16 r (64 + 2 * i) + roundOpen 47 (i16 r (80 + 2 * i)) 1000))
  let r := putAt r 4 (leBytes 8 (b + frameTicks))
  let r := putAt r 16 (i4 (fxOf (i32 r 16) + e) ++ i4 (fxOf (i32 r 20) + n))
  let r := putAt r 28 (fBytes (fxToF 48 ((hd - perFrame w) % fxTwoPi)))
  let r := putAt r 40 (i4 (vx + perFrame ax) ++ i4 (vy + perFrame ay))
  let r := putAt r 56 (fBytes (fxToF 49 (w + perFrame tw)))
  putAt r 64 ((List.range 8).flatMap wing)

/-- BROADCAST_DEADLINE: a member without a valid broadcast by 31.25 µs moves the last state on by one frame and counts
(R24). -/
def execBroadcastDeadline (s : State) : Host.Outcome State Fault Refusal :=
  .next (if s.osl.role ≠ 2 then s
  else
    let s := toInstant (frameStart s.gtc + 5 * slotTicks) s
    if s.osl.bcastSeen then s
    else raise0 evBcastMissed 0 []
      { s with osl := { s.osl with missed := satInc 16 s.osl.missed, missedRun := s.osl.missedRun + 1 }
               kin := { s.kin with rcdNext := recordNext s.kin.rcd } })

/-- OSL_BCAST_STALE: three consecutive missed broadcasts: the member's points have no valid path, which KIN_PATH_INVALID
tells its channels, and every channel it owns gets OSL_BCAST_STALE (R24, R133). -/
def execOslBcastStale (s : State) : Host.Outcome State Fault Refusal :=
  .next (if s.osl.role = 2 ∧ 3 ≤ s.osl.missedRun then
    let clear (r : List Byte) : List Byte := putAt r 112 (leBytes 2 (setBit (u16 r 112) 1 false))
    let s := pathInvalid { s with kin := { s.kin with rcd := clear s.kin.rcd, rcdNext := clear s.kin.rcdNext } }
    (s.objs.filter fun o => o.typ == tyNozzle || o.typ == tyRow).foldl (fun s o => class1 (handleOf o) evBcastStale [] s) s
  else s)

/-! ## Geometry points (R142 to R146) -/

def geoOf (o : Obj) : GeoRt := match o.rt with | .geo r => r | _ => {}
def updGeo (i : Nat) (f : GeoRt → GeoRt) (s : State) : State := updObj i (fun o => { o with rt := .geo (f (geoOf o)) }) s

/-- The body states that a point is computed from: speed, turn rate, origin, heading; wing angles and rates. -/
structure Body where
  vx : Fx := 0
  vy : Fx := 0
  w : Fx := 0
  origin : Vec3 := {}
  heading : Fx := 0
  pitch : Fx := 0
  roll : Fx := 0
  theta : List Fx := []
  rate : List Fx := []
  /-- the record's model -/
  model : Nat := 0
  deriving DecidableEq, Repr

/-- The implement as a record has it, moved on by `n` frames in speed and angle (R144). -/
def bodyOfRec (r : List Byte) (n : Int) : Body :=
  { vx := fxOf (i32 r 40) + n * perFrame (fxOf (i32 r 48))
    vy := fxOf (i32 r 44) + n * perFrame (fxOf (i32 r 52))
    w := fxF (f32 r 56) + n * perFrame (fxF (f32 r 60))
    origin := { x := fxOf (i32 r 16), y := fxOf (i32 r 20), z := fxOf (i32 r 24) }
    heading := fxF (f32 r 28), pitch := fxF (f32 r 32), roll := fxF (f32 r 36)
    theta := (List.range 8).map fun i => fxFrac (i16 r (64 + 2 * i)) 10000 + n * perFrame (fxFrac (i16 r (80 + 2 * i)) 1000)
    rate := (List.range 8).map fun i => fxFrac (i16 r (80 + 2 * i)) 1000, model := u8 r 124 }

/-- The body of a point (R143): the tractor of a lead or standalone device, else the implement. -/
def bodyFor (s : State) (ps : List Byte) (r : List Byte) (n : Int) : Body :=
  if u8 ps 0 = 0 then
    { vx := s.kin.u + n * perFrame s.kin.accel, w := s.kin.w0 + n * perFrame s.kin.turnAccel, origin := s.kin.pos, heading := s.kin.heading
      pitch := s.kin.pitch, roll := s.kin.roll }
  else bodyOfRec r n

/-- The wing chain from a point's wing up to the implement, innermost last (R143). -/
def wingChain (s : State) : Nat → Nat → List Nat
  | 0, _ => []
  | fuel + 1, id => if 8 ≤ id then [] else id :: wingChain s fuel (wingGeom s id).1

/-- The place of a point in the implement frame: arm, the velocity that the wings turn it with, the angle (R143). -/
def wingArm (s : State) (b : Body) (x y : Fx) (chain : List Nat) : (Fx × Fx) × (Fx × Fx) × Fx :=
  chain.foldl (fun a c =>
    let th := b.theta.getD c 0
    let om := b.rate.getD c 0
    let rr := fxRot a.1.1 a.1.2 th
    let vr := fxRot a.2.1.1 a.2.1.2 th
    let g := wingGeom s c
    ((fxOf g.2.1 + rr.1, fxOf g.2.2 + rr.2), (vr.1 - fxMul om rr.2, vr.2 + fxMul om rr.1), a.2.2 + th))
    ((x, y), (0, 0), 0)

/-- The arm of a point with its wings. -/
def pointArm (s : State) (ps : List Byte) (b : Body) : (Fx × Fx) × (Fx × Fx) × Fx :=
  wingArm s b (fxOf (i32 ps 4)) (fxOf (i32 ps 8)) (if u8 ps 0 = 2 then wingChain s 3 (u8 ps 1) else [])

/-- `point_velocity` (R143). -/
def pointVelocity (s : State) (ps : List Byte) (b : Body) : Fx × Fx :=
  let a := pointArm s ps b
  let vx := b.vx - fxMul b.w a.1.2 + a.2.1.1
  let vy := b.vy + fxMul b.w a.1.1 + a.2.1.2
  fxRot vx vy (-a.2.2)

/-- `signed_speed` with its last sign (R143). -/
def signedSpeed (still : Fx) (sign : Int) (v : Fx × Fx) : Fx × Int :=
  let m := fxSqrt (fxMul v.1 v.1 + fxMul v.2 v.2)
  if m < still then (0, sign)
  else
    let sg : Int := if m ≤ 10 * fxAbs v.1 then (if v.1 < 0 then -1 else 1) else sign
    (sg * m, sg)

/-- A point's ground position, the heading and the turn rate of its body (R139, R146). -/
def pointPose (s : State) (ps : List Byte) (b : Body) : Vec3 × Fx × Fx :=
  let a := pointArm s ps b
  let trailed := u8 ps 0 != 0 && decide (2 ≤ b.model)
  let l := leverOf b.heading (if trailed then 0 else b.pitch) (if trailed then 0 else b.roll) a.1.1 a.1.2 (fxOf (i32 ps 12))
  let om := ((if u8 ps 0 = 2 then wingChain s 3 (u8 ps 1) else []).map fun c => b.rate.getD c 0).foldl (· + ·) 0
  ({ x := b.origin.x + l.1, y := b.origin.y + l.2.1, z := b.origin.z + l.2.2 }, (b.heading - a.2.2) % fxTwoPi, b.w + om)

/-- A speed in 1/(2^16 × 10,000) mm/s, kept to 2^-16 mm/s (R144). -/
def speedUnits (v : Fx) : Int := fxToInt 50 (65536 * v) * 10000

/-- The state of a point at the boundary of record `r`: path position and speed given, `a` towards the speed of the
record moved on by one frame (R144). -/
def pointAt (s : State) (ps r : List Byte) (sign : Int) (sp v : Int) : GeoPt × Int :=
  let still := fxOf (kc16 s 152)
  let vh : Fx × Int := if recPathValid r then signedSpeed still sign (pointVelocity s ps (bodyFor s ps r 1)) else (0, sign)
  let lim : Int := (u32 s.kin.cfg 160 : Nat) * 65536
  let p := pointPose s ps (bodyFor s ps r 0)
  ({ s := sp, v := v, a := clampInt (-lim) lim (speedUnits vh.1 - v)
     pos := { x := fxToInt 51 p.1.x, y := fxToInt 51 p.1.y, z := fxToInt 51 p.1.z }
     heading := fxToF 52 p.2.1, turn := fxToF 53 p.2.2, boundary := u64 r 4 }, vh.2)

/-- One ENABLED point in step 5 of the frame (R144). -/
def geoPropagate (s : State) (o : Obj) : State :=
  let r := geoOf o
  let x := pointAt s o.act s.kin.rcdNext r.sign (r.cur.s + 2 * r.cur.v + r.cur.a) (r.cur.v + r.cur.a)
  updGeo o.idx (fun r => { r with next := some x.1, nextAt := shadowBoundary s.gtc, sign := x.2 }) s

/-- GEOPOINT_PROPAGATE: every ENABLED point, from the record for N+1 (R23 step 5, R144). -/
def execGeopointPropagate (s : State) : Host.Outcome State Fault Refusal :=
  .next (
    let s := toInstant (frameStart s.gtc + 5 * slotTicks) s
    ((objsOf s tyGeopoint).filter isEnabled).foldl geoPropagate s)

/-- At its boundary a point's shadow loads; its last direction and its ever-moved flag follow its speed (R23, R144, R145). -/
def geoLoad (b : Nat) (s : State) (o : Obj) : State :=
  match (geoOf o).next with
  | none => s
  | some x => if b < (geoOf o).nextAt then s else updGeo o.idx (fun r => { r with
      cur := x, next := none, moved := r.moved || x.v != 0
      lastRev := if x.v = 0 then r.lastRev else decide (x.v < 0) }) s

/-- The record for a boundary: the next one, or the present one. -/
def recFor (s : State) (b : Nat) : List Byte := if u64 s.kin.rcdNext 4 = b then s.kin.rcdNext else s.kin.rcd

/-- The point starts at its take-effect boundary (R143): s_init, the speed from the state for it, last_sign from REVERSE. -/
def geoStart (b : Nat) (o : Obj) (s : State) : State :=
  let r := recFor s b
  let sg : Int := if recReverse r then -1 else 1
  let v0 : Fx × Int := if recPathValid r then signedSpeed (fxOf (kc16 s 152)) sg (pointVelocity s o.act (bodyFor s o.act r 0)) else (0, sg)
  let v := speedUnits v0.1
  let x := pointAt s o.act r v0.2 (i64 o.act 16 * (65536 * 200000)) v
  updGeo o.idx (fun g => { g with
    started := true, cur := { x.1 with boundary := b }, next := none, sign := x.2, moved := g.moved || v != 0
    lastRev := if v = 0 then g.lastRev else decide (v < 0) }) s

/-- Integer division toward zero (R144). -/
def towardZero (a : Int) (d : Nat) : Int := Int.tdiv a d

/-- Type-specific status of a GEOPOINT (R146). -/
def geoStatus (s : State) (o : Obj) : List Byte :=
  let r := geoOf o
  let p := r.cur
  iBytes 4 p.pos.x ++ iBytes 4 p.pos.y ++ iBytes 4 p.pos.z ++ fBytes p.heading
    ++ iBytes 4 (towardZero p.v 655360000) ++ fBytes p.turn
    ++ iBytes 8 (if r.started then towardZero p.s 13107200000 else i64 o.params 16)
    ++ iBytes 4 (towardZero p.a 65536)
    ++ leBytes 1 (b2n (p.v != 0) + 2 * b2n r.lastRev + 4 * b2n r.moved + 8 * b2n (recPosValid s.kin.rcd) + 16 * b2n (recPathValid s.kin.rcd))
    ++ [0, 0, 0] ++ leBytes 8 p.boundary

/-- Type-specific status of a WING: the manual gives none. -/
def wingStatus : List Byte := []

/-- KIN_GET_STATE (R149): the last record and the diagnostic block. -/
def bodyKinGetState (d : Desc) (s : State) : State :=
  let k := s.kin
  let age := if k.fixClass = 0 then 0xFFFF else min 0xFFFF ((s.gtc - k.fixAt) / msTicks)
  let dr := if k.kstate = kDead then (s.gtc - k.drAt) / msTicks else 0
  writeBack d (padTo 128 k.rcd
    ++ leBytes 1 (if s.osl.role = 2 then kFollowing else k.kstate) ++ leBytes 1 k.fixClass ++ leBytes 2 age
    ++ leBytes 4 k.epochsUsed ++ leBytes 4 k.epochsDiscarded ++ leBytes 4 k.sentDiscarded ++ leBytes 4 k.posResets
    ++ fBytes k.scale ++ leBytes 4 dr ++ [0, 0, 0, 0]) {} s

def execKinGetState (d : Desc) (s : State) : Host.Outcome State Fault Refusal :=
  .next (runDesc 0x0406 d (bodyKinGetState d) s)

/-! ## Prediction (R147, R148) -/

/-- What a prediction starts from: v0, ratio, kappa and the filtered acceleration, the body's pose, the wings. -/
structure Pred where
  x : Fx := 0
  ratio : Fx := 0
  kappa : Fx := 0
  acc : Fx := 0
  origin : Vec3 := {}
  heading : Fx := 0
  sign : Int := 1
  ds : Fx := 0
  vp : Fx := 0
  deriving DecidableEq, Repr

/-- The start of a prediction for a point, from the record `rc` of a boundary (R147). -/
def predStart (s : State) (rc : List Byte) (o : Obj) : Pred :=
  let r := rc
  let b := bodyFor s o.act r 0
  let tr := u8 o.act 0 == 0
  let turn := if tr then s.kin.wF else fxF (f32 r 100)
  let big := decide (fxOf 100 ≤ fxAbs b.vx)
  { x := b.vx
    ratio := if big && !tr then fxDiv b.vy b.vx else 0
    kappa := if big then fxDiv turn b.vx else 0
    acc := if tr then predClamp s s.kin.accelF else fxOf (i32 r 96)
    origin := b.origin, heading := b.heading, sign := (geoOf o).sign }

/-- `vp(x)`: the point's signed speed at body speed `x`, wing angles held and rates 0 (R147). -/
def predSpeed (s : State) (rc : List Byte) (o : Obj) (p : Pred) (x : Fx) : Fx × Int :=
  let b := bodyFor s o.act rc 0
  signedSpeed (fxOf (kc16 s 152)) p.sign
    (pointVelocity s o.act { b with vx := x, vy := fxMul p.ratio x, w := fxMul p.kappa x, rate := [] })

/-- One step of the prediction, `dt` ticks long (R147); the pose follows the arc at its mean speed (log 15). -/
def predStep (s : State) (rc : List Byte) (o : Obj) (dt : Nat) (p : Pred) : Pred :=
  let x := p.x
  let x1 := x + p.acc * dt / (secTicks : Int)
  let x1 := if x = 0 ∨ (x1 < 0 ∧ 0 < x) ∨ (0 < x1 ∧ x < 0) then 0 else x1
  let v0 := predSpeed s rc o p x
  let v1 := predSpeed s rc o { p with sign := v0.2 } x1
  let xm := (x + x1) / 2
  let dh := fxMul p.kappa xm * dt / (secTicks : Int)
  let hm := p.heading - dh / 2
  let de := fxMul xm (fxSin hm) - fxMul (fxMul p.ratio xm) (fxCos hm)
  let dn := fxMul xm (fxCos hm) + fxMul (fxMul p.ratio xm) (fxSin hm)
  { p with
    x := x1, sign := v1.2, vp := v1.1
    ds := p.ds + (v0.1 + v1.1) / 2 * dt / (secTicks : Int)
    origin := { p.origin with x := p.origin.x + de * dt / (secTicks : Int), y := p.origin.y + dn * dt / (secTicks : Int) }
    heading := (p.heading - dh) % fxTwoPi }

/-- Steps of 10 ms, the last one shorter. -/
def predRun (s : State) (rc : List Byte) (o : Obj) : Nat → Nat → Pred → Pred
  | 0, _, p => p
  | fuel + 1, left, p =>
    if left = 0 then p
    else
      let dt := min left (10 * msTicks)
      predRun s rc o fuel (left - dt) (predStep s rc o dt p)

/-- The longest horizon: 2.5 s (R147). -/
def horizon : Nat := 2500 * msTicks

/-- `predict(p, tau)` for `tau` ticks (R147): travel and speed [2^-96 mm, mm/s], and the pose of the point's body. -/
def predict (s : State) (rc : List Byte) (o : Obj) (tau : Nat) : Pred :=
  let p := predStart s rc o
  predRun s rc o 251 (min tau horizon) { p with vp := (predSpeed s rc o p p.x).1 }

/-- The ground position of a point and its body's heading after a prediction. -/
def predPose (s : State) (rc : List Byte) (o : Obj) (p : Pred) : Vec3 × Fx :=
  let b := bodyFor s o.act rc 0
  let x := pointPose s o.act { b with origin := p.origin, heading := p.heading }
  (x.1, x.2.1)

/-- KIN_PREDICT (R148). -/
def bodyKinPredict (d : Desc) (o : Obj) (s : State) : State :=
  let tau := u32 d.bytes 16
  let p := predict s s.kin.rcd o (tau * usTicks)
  let exceeds := decide (2500000 < tau)
  let ds := clampInt (-2147483648) 2147483647 (fxToInt 54 (1000 * p.ds))
  let v := clampInt (-32768) 32767 (fxToInt 55 p.vp)
  failWith d (if exceeds then 0x0405 else stOk)
    (iBytes 4 ds ++ iBytes 2 v ++ leBytes 1 (b2n exceeds + 2 * b2n (recPathValid s.kin.rcd))) s

def execKinPredict (d : Desc) (s : State) : Host.Outcome State Fault Refusal :=
  .next (runObj 0x0407 d (bodyKinPredict d) s)

end Sys2Proof.Machine
end

