-- ==== Sys2Proof/Machine/Board.lean ====
section
/-! DEFINITION. The coverage board (05, R152 to R187): squares, tiles and their directory, the caches, marking,
look-ahead queries, painting, tile access, flushing and failed accesses. -/

namespace Sys2Proof.Machine

/-! ## Layers -/

def layerOf (o : Obj) : LayerRt := match o.rt with | .layer r => r | _ => {}
def updLayer (i : Nat) (f : LayerRt → LayerRt) (s : State) : State := updObj i (fun o => { o with rt := .layer (f (layerOf o)) }) s

/-- The layer at an index of the object list. -/
def layerAt (s : State) (i : Nat) : LayerRt := ((objAt s i).map layerOf).getD {}

def layMiss (o : Obj) : Nat := u8 o.act 1
def layCacheOnly (o : Obj) : Bool := bit (u8 o.act 3) 0
def laySize (o : Obj) : Nat := u16 o.act 4
def layE0 (o : Obj) : Int := i32 o.act 8
def layN0 (o : Obj) : Int := i32 o.act 12
def layW (o : Obj) : Nat := u16 o.act 20
def layH (o : Obj) : Nat := u16 o.act 22
def layDir (o : Obj) : Nat := u64 o.act 24
def layDefault (o : Obj) : F32 := f32 o.act 60

/-- The layer of a kind. -/
def layerKind (s : State) (cov : Bool) : Option Obj := (objsOf s tyLayer).find? fun o => layCov o == cov

/-- The ENABLED layer of a kind. -/
def layerOn (s : State) (cov : Bool) : Option Obj := (layerKind s cov).filter isEnabled

/-- The byte of a blank tile (R157). -/
def blankByte (o : Obj) : Byte := if layCov o then 0 else 0xFF

/-- The cache set of a tile (R163). -/
def tileSet (o : Obj) (tx ty : Nat) : Nat := if layCov o then tx % 16 + 16 * (ty % 8) else tx % 4 + 4 * (ty % 4)

/-- Memory at an address is the host's, and the host is out of reach: from a detach until RINGS_EN is set again (R178), and
while the device sleeps (R498). -/
def hostGone (s : State) (ptr : Nat) : Bool :=
  ((s.hif.reattach && !s.hif.ringsEn) || s.boot.mode == .sleeping) && !ptrMailbox ptr

/-- The directory of a layer is out of reach. -/
def boardDetached (s : State) (o : Obj) : Bool := !layCacheOnly o && hostGone s (layDir o)

/-- The storage of a directory entry is out of reach. -/
def tileGone (s : State) (e : Nat) : Bool := (e % 8 == 1 || e % 8 == 3) && hostGone s e

/-! ## The directory (R158, R159) -/

/-- An entry that is not treated as ABSENT for its bits: no reserved bit or class, storage of the layer's kind that the
board can reach. -/
def entryValid (s : State) (o : Obj) (e : Nat) : Bool :=
  bits e 3 7 == 0 && decide (e % 8 < 6) && (layCov o || bits e 10 2 == 0)
    && (!(e % 8 == 1 || e % 8 == 3) || !linkSpi s || bit e 63)

/-- The class of an entry (R159). -/
def entryClass (s : State) (o : Obj) (e : Nat) : Nat := if entryValid s o e then e % 8 else 0

/-- The tile address of an entry. -/
def entryAddr (e : Nat) : Nat := e / 1024 * 1024

def entryNo (o : Obj) (tx ty : Nat) : Nat := ty * layW o + tx

/-- The entry of a tile on the board, if its group is cached; every tile of a cache-only layer is blank (R160). -/
def entryOf (o : Obj) (tx ty : Nat) : Option Nat :=
  if layCacheOnly o then some 2
  else
    let n := entryNo o tx ty
    ((layerOf o).dir.find? fun g => g.1 == n / 8).map fun g => g.2.getD (n % 8) 0

/-- A directory group becomes the most recently used of at most 256 (R163). -/
def dirPut (g : Nat × List Nat) (dir : List (Nat × List Nat)) : List (Nat × List Nat) :=
  (g :: dir.filter fun x => x.1 != g.1).take 256

/-- Replace a tile's entry in the directory cache. -/
def dirSet (o : Obj) (tx ty e : Nat) (r : LayerRt) : LayerRt :=
  let n := entryNo o tx ty
  { r with dir := r.dir.map fun g => if g.1 = n / 8 then (g.1, g.2.set (n % 8) e) else g }

/-- A failure of a layer's access: counted; 16 within 1 s make it DEGRADED (R177). A directory read names the first tile of
its group (log 18). -/
def hostFault (o : Obj) (kind tx ty : Nat) (s : State) : State :=
  let at' : Nat × Nat := if kind = 2 then (8 * tx % max 1 (layW o), 8 * tx / max 1 (layW o)) else (tx, ty)
  let s := raise0 0x0542 (handleOf o) (leBytes 2 at'.1 ++ leBytes 2 at'.2 ++ leBytes 1 kind) s
  let now := s.gtc
  let r := layerAt s o.idx
  let fs := now :: r.fails.filter fun t => decide (now < t + secTicks)
  let deg := decide (16 ≤ fs.length) && !r.degraded
  let s := updLayer o.idx (fun r => { r with faults := satInc 32 r.faults, fails := fs.take 16, degraded := r.degraded || deg }) s
  if deg then raise0 0x0547 (handleOf o) [0, 0, 0, 0, 1] s else s

/-- Write a tile's entry to the directory in memory; an entry beyond the mailbox is a failed directory write. -/
def dirWrite (o : Obj) (tx ty e : Nat) (s : State) : State :=
  if layCacheOnly o then s
  else match ptrWrite (layDir o + 8 * entryNo o tx ty) (leBytes 8 e) s with
    | some t => t
    | none => hostFault o 3 tx ty s

/-! ## Tiles in the cache (R157, R163) -/

def tileAt (r : LayerRt) (tx ty : Nat) : Option CTile := r.tiles.find? fun t => t.tx == tx && t.ty == ty
def updTile (tx ty : Nat) (f : CTile → CTile) (r : LayerRt) : LayerRt :=
  { r with tiles := r.tiles.map fun t => if t.tx = tx ∧ t.ty = ty then f t else t }
def dropTile (tx ty : Nat) (r : LayerRt) : LayerRt :=
  { r with tiles := r.tiles.filter fun t => !(t.tx == tx && t.ty == ty) }

/-- A byte of a cached tile. -/
def tileByte (o : Obj) (t : CTile) (k : Nat) : Byte := memRead t.data k ^^^ blankByte o

/-- The bytes of a tile. -/
def tileImage (o : Obj) (t : CTile) : List Byte := (List.range (tileBytes o)).map (tileByte o t)

/-- The content of a tile with given bytes. -/
def tileData (o : Obj) (bs : List Byte) : List Host.Cell :=
  memWriteN [] 0 ((padTo (tileBytes o) bs).map fun b => b ^^^ blankByte o)

/-- Square (x, y) of a tile (R157). -/
def sqGet (o : Obj) (t : CTile) (x y : Nat) : Nat :=
  if layCov o then bits (tileByte o t (16 * y + x / 4)).toNat (2 * (x % 4)) 2 else (tileByte o t (64 * y + x)).toNat

/-- Set square (x, y) of a coverage tile. -/
def sqSet (x y v : Nat) (t : CTile) : CTile :=
  let k := 16 * y + x / 4
  let b := (memRead t.data k).toNat
  let sh := 2 * (x % 4)
  { t with data := memWrite t.data k (BitVec.ofNat 8 (b - bits b sh 2 * 2 ^ sh + v * 2 ^ sh)) }

/-- A tile lies in the present corridor, or has queued marks (R163). -/
def inCorridor (r : LayerRt) (tx ty : Nat) : Bool := r.corridor.contains (tx, ty)
def hasMarks (s : State) (o : Obj) (tx ty : Nat) : Bool := layCov o && s.board.marks.any fun m => m.tiles.contains (tx, ty)

/-- Unprotected (R163); `demand` may also take a clean corridor tile. -/
def evictable (s : State) (o : Obj) (demand : Bool) (t : CTile) : Bool :=
  t.pin == 0 && !hasMarks s o t.tx t.ty && (!inCorridor (layerOf o) t.tx t.ty || (demand && !t.dirty))

/-- The least recently used of some tiles; one outside the corridor first. -/
def leastUsed : List CTile → Option CTile
  | [] => none
  | t :: r => match leastUsed r with
    | none => some t
    | some u => if t.used ≤ u.used then some t else some u

/-- The write-back of a tile that is under way. -/
def wbOf (r : LayerRt) (tx ty : Nat) : Option WriteBack := r.wbs.find? fun w => w.tile.tx == tx && w.tile.ty == ty

/-- The evicted tiles of a set that are not yet written and whose ways no fetch waits for. -/
def leaving (o : Obj) (n : Nat) : List (Nat × Nat) :=
  let r := layerOf o
  ((r.wbs.filter fun w => w.evicted && tileSet o w.tile.tx w.tile.ty == n).map fun w => (w.tile.tx, w.tile.ty)).eraseDups.filter
    fun k => !r.fetches.any fun f => f.way == some k

/-- Ways of a set in use: by cached tiles, by tiles being fetched and by evicted ones not yet written (R163). -/
def setUse (o : Obj) (n : Nat) : Nat :=
  let r := layerOf o
  (r.tiles.filter fun t => tileSet o t.tx t.ty == n).length
    + (r.fetches.filter fun f => !f.group && tileSet o f.tx f.ty == n && (tileAt r f.tx f.ty).isNone).length
    + (leaving o n).length

/-- The victim of a set (R163): none is needed while a way is free. -/
def victimOf (s : State) (o : Obj) (demand : Bool) (n : Nat) : Option CTile :=
  let ts := (layerOf o).tiles.filter fun t => tileSet o t.tx t.ty == n
  (leastUsed (ts.filter (evictable s o false))).or (if demand then leastUsed (ts.filter (evictable s o true)) else none)

/-- BOARD_MARKS_LOST (R187), and its count. -/
def marksLost (o : Obj) (tx ty reason : Nat) (s : State) : State :=
  raise0 0x0543 (handleOf o) (leBytes 2 tx ++ leBytes 2 ty ++ leBytes 1 reason)
    (updLayer o.idx (fun r => { r with marksLost := satInc 32 r.marksLost }) s)

/-- Start a write-back: the tile is copied now (R164). -/
def startWb (o : Obj) (t : CTile) (s : State) : State :=
  let n := s.board.tick + 1
  updLayer o.idx (fun r => { updTile t.tx t.ty (fun t => { t with dirty := false }) r with
    wbs := r.wbs ++ [{ tile := t, tick := n }] }) { s with board := { s.board with tick := n } }

/-- Take a tile out of the cache; what of it is not yet written keeps its way until it is, or on a cache-only layer its marks
are lost (R163, R164). -/
def evict (o : Obj) (t : CTile) (s : State) : State :=
  let s := if !t.dirty then s else if layCacheOnly o then marksLost o t.tx t.ty 3 s else startWb o t s
  updLayer o.idx (fun r => { dropTile t.tx t.ty r with
    wbs := r.wbs.map fun w => if w.tile.tx = t.tx ∧ w.tile.ty = t.ty then { w with evicted := true } else w }) s

/-- A way of a tile's set: free, free once the named tile is written, or none. -/
inductive Way where
  | free
  | after (tx ty : Nat)
  | none
  deriving DecidableEq, Repr

/-- Make a way of a tile's set free. -/
def makeWay (o : Obj) (demand : Bool) (tx ty : Nat) (s : State) : Way × State :=
  let n := tileSet o tx ty
  if setUse o n < 8 then (.free, s)
  else match leaving o n with
    | k :: _ => (.after k.1 k.2, s)
    | [] => match victimOf s o demand n with
      | none => (.none, s)
      | some t =>
        let held := (t.dirty && !layCacheOnly o) || (wbOf (layerOf o) t.tx t.ty).isSome
        (if held then .after t.tx t.ty else .free, evict o t s)

/-- Put a tile into the cache. -/
def putTile (o : Obj) (tx ty e : Nat) (data : List Host.Cell) (s : State) : State :=
  let t : CTile := { tx := tx, ty := ty, entry := e, data := data, used := s.board.tick + 1 }
  updLayer o.idx (fun r => { dropTile tx ty r with tiles := (dropTile tx ty r).tiles ++ [t] })
    { s with board := { s.board with tick := s.board.tick + 1 } }

/-- A tile has been used. -/
def touchTile (o : Obj) (tx ty : Nat) (s : State) : State :=
  updLayer o.idx (updTile tx ty fun t => { t with used := s.board.tick + 1 })
    { s with board := { s.board with tick := s.board.tick + 1 } }

/-- A square visit to a cached tile (R163, R184). -/
def hitTile (i tx ty : Nat) (s : State) : State :=
  let n := s.board.tick + 1
  updLayer i (fun r => { updTile tx ty (fun t => { t with used := n }) r with hits := satInc 32 r.hits })
    { s with board := { s.board with tick := n } }

/-- The oldest pinned tile. -/
def oldestPin : List CTile → Option CTile
  | [] => none
  | t :: r => match oldestPin r with
    | none => if t.pin = 0 then none else some t
    | some u => if t.pin ≠ 0 ∧ t.pinAt ≤ u.pinAt then some t else some u

/-- A layer pins at most 64 tiles: the oldest goes when a 65th is needed (R177). -/
def limitPins (i : Nat) (s : State) : State :=
  match objAt s i with
  | none => s
  | some o =>
    let ps := (layerOf o).tiles.filter fun t => t.pin != 0
    if ps.length ≤ 64 then s
    else match oldestPin ps with
      | none => s
      | some t => marksLost o t.tx t.ty 0 (updLayer i (dropTile t.tx t.ty) s)

/-- A cached tile has become dirty; one without storage is pinned and asks for it (R159, R164). -/
def tileDirty (i tx ty : Nat) (s : State) : State :=
  match objAt s i with
  | none => s
  | some o => match tileAt (layerOf o) tx ty with
    | none => s
    | some t =>
      let ask := !layCacheOnly o && t.pin == 0 && entryClass s o t.entry == 2
      let s := updLayer i (updTile tx ty fun t => { t with
        dirty := true, first := if t.dirty then t.first else s.gtc
        pin := if ask then 1 else t.pin, pinAt := if ask then s.gtc else t.pinAt }) s
      if ask then limitPins i (raise0 0x0541 (handleOf o) (leBytes 2 tx ++ leBytes 2 ty) s) else s

/-! ## Fetches (R163, R165, R176, R177) -/

def heldOut (r : LayerRt) (group : Bool) (tx ty : Nat) : Bool := r.held.any fun h => h.group == group && h.tx == tx && h.ty == ty

/-- What became of asking for a group or a tile: under way, to be asked again later, or no way of its set unprotected. -/
inductive Asked where
  | going
  | later
  | noWay
  deriving DecidableEq, Repr

/-- Ask for a tile's directory group or for the tile. A prefetch (`pre`) is not made for a DEGRADED layer, another fetch of a
tile comes there once a second (R177); with `take` a clean corridor tile may give way (R163). -/
def askFetch (i : Nat) (group pre take : Bool) (tx ty : Nat) (s : State) : Asked × State :=
  match objAt s i with
  | none => (.later, s)
  | some o =>
    let r := layerOf o
    let key : Nat × Nat := if group then (entryNo o tx ty / 8, 0) else (tx, ty)
    let gone := boardDetached s o || (!group && ((entryOf o tx ty).map (tileGone s)).getD false)
    if r.fetches.any (fun f => f.group == group && f.tx == key.1 && f.ty == key.2) then (.going, s)
    else if heldOut r group key.1 key.2 || gone then (.later, s)
    else if r.degraded && (pre || r.demand.any (fun d => d.1 == key && decide (s.gtc < d.2 + secTicks))) then (.later, s)
    else
      let w := if group then (.free, s) else makeWay o take tx ty s
      let go (way : Option (Nat × Nat)) : Asked × State := (.going, updLayer i (fun r => { r with
        fetches := r.fetches ++ [{ group := group, tx := key.1, ty := key.2, way := way }]
        demand := if r.degraded then (r.demand.filter fun d => d.1 != key) ++ [(key, s.gtc)] else r.demand }) w.2)
      match w.1 with
      | .none => (.noWay, w.2)
      | .free => go none
      | .after x y => go (some (x, y))

/-- What a tile is at the moment of a visit. -/
inductive TileView where
  | off | excl
  | blank (entry : Nat)
  | here (t : CTile)
  | missing (group : Bool)
  deriving DecidableEq, Repr

/-- The view of a tile (R152, R159, R176). -/
def viewTile (s : State) (o : Obj) (tx ty : Int) : TileView :=
  if tx < 0 ∨ ty < 0 ∨ (layW o : Int) ≤ tx ∨ (layH o : Int) ≤ ty then .off
  else
    let x := tx.toNat
    let y := ty.toNat
    if boardDetached s o then .missing false
    else match entryOf o x y with
      | none => .missing true
      | some e =>
        let c := entryClass s o e
        if c = 0 then .off
        else if c = 4 ∨ c = 5 then .excl
        else match tileAt (layerOf o) x y with
          | some t => if tileGone s e then .missing false else .here t
          | none => if c = 1 || tileGone s e || (wbOf (layerOf o) x y).isSome then .missing false else .blank e

/-- A query, a mark or a paint asks for what a missing tile needs. -/
def demandTile (i : Nat) (group : Bool) (tx ty : Nat) (s : State) : State := (askFetch i group false true tx ty s).2

/-- Bring a tile into the cache for a change: whether it is there now (R163, R181). -/
def bringTile (i tx ty : Nat) (s : State) : Bool × State :=
  match objAt s i with
  | none => (false, s)
  | some o => match viewTile s o tx ty with
    | .here _ => (true, touchTile o tx ty s)
    | .blank e =>
      let w := makeWay o true tx ty s
      match w.1 with
      | .free => (true, putTile o tx ty e [] w.2)
      | _ => (false, w.2)
    | .missing g => (false, demandTile i g tx ty s)
    | _ => (false, s)

/-! ## Squares (R152) -/

/-- The number of the square that holds a position, in 2^-96 mm. -/
def sqIndex (size : Nat) (org : Int) (x : Fx) : Int := (x - fxOf org) / (fxOf size)

/-- The centre of a square. -/
def sqCentre (size : Nat) (org i : Int) : Fx := fxOf (org + i * size) + fxOf size / 2

/-- The squares with centres between two corners that meet a condition. -/
def squaresIn (o : Obj) (x0 y0 x1 y1 : Fx) (p : Fx → Fx → Bool) : List (Int × Int) :=
  let sz := laySize o
  let i0 := sqIndex sz (layE0 o) x0
  let j0 := sqIndex sz (layN0 o) y0
  let ni := (sqIndex sz (layE0 o) x1 - i0).toNat + 1
  let nj := (sqIndex sz (layN0 o) y1 - j0).toNat + 1
  (List.range nj).flatMap fun (b : Nat) => (List.range ni).filterMap fun (a : Nat) =>
    let i : Int := i0 + (a : Int)
    let j : Int := j0 + (b : Int)
    if p (sqCentre sz (layE0 o) i) (sqCentre sz (layN0 o) j) then some (i, j) else none

/-- The tile of a square, and its place there. -/
def tileOfSq (q : Int × Int) : Int × Int := (q.1 / 64, q.2 / 64)
def placeOfSq (q : Int × Int) : Nat × Nat := ((q.1 % 64).toNat, (q.2 % 64).toNat)

def minOf (a : Int) (xs : List Int) : Int := xs.foldl min a
def maxOf (a : Int) (xs : List Int) : Int := xs.foldl max a

/-! ## Swept patches (R166) -/

def cross (ax ay bx bY : Int) : Int := ax * bY - ay * bx

/-- λ = n / d puts the centre `p` (taken from L(t_a)) on the segment, at a place u from 0 to below 1, or on a segment of no
width; `n`, `d` exact. -/
def onSegment (q : Quad) (px py n d : Int) : Bool :=
  let mx := q.lb.x - q.la.x
  let my := q.lb.y - q.la.y
  let d0x := q.ra.x - q.la.x
  let d0y := q.ra.y - q.la.y
  let d1x := (q.rb.x - q.lb.x) - d0x
  let d1y := (q.rb.y - q.lb.y) - d0y
  let dx := d * d0x + n * d1x
  let dy := d * d0y + n * d1y
  let ux := d * px - n * mx
  let uy := d * py - n * my
  let num := ux * dx + uy * dy
  let den := dx * dx + dy * dy
  decide (if 0 < d then 0 ≤ n ∧ n < d else n ≤ 0 ∧ d < n)
    && decide (if den = 0 then ux = 0 ∧ uy = 0 else 0 ≤ num ∧ num < den)

/-- All the patch lies on one line with the centre: some λ puts the segment over it. The λ at which the centre meets an end,
or at which the segment turns round, part those that do from those that do not: each and each midpoint is tried. -/
def patchOnLine (q : Quad) (px py mx my d0x d0y d1x d1y : Int) : Bool :=
  let ex := if d0x = 0 ∧ d0y = 0 then d1x else d0x
  let ey := if d0x = 0 ∧ d0y = 0 then d1y else d0y
  let on (x y : Int) : Int := x * ex + y * ey
  let k := on mx my
  let e0 := on d0x d0y
  let e1 := on d1x d1y
  let bs : List (Int × Int) := ([(0, 1), (1, 1), (on px py, k), (on px py - e0, k + e1), (-e0, e1)] : List (Int × Int)).filter (·.2 != 0)
  bs.any fun a => bs.any fun b => onSegment q px py (a.1 * b.2 + b.1 * a.2) (2 * a.2 * b.2)

/-- A centre lies in the patch (R166). -/
def inPatch (q : Quad) (x y : Fx) : Bool :=
  let px := x - q.la.x
  let py := y - q.la.y
  let mx := q.lb.x - q.la.x
  let my := q.lb.y - q.la.y
  let d0x := q.ra.x - q.la.x
  let d0y := q.ra.y - q.la.y
  let d1x := (q.rb.x - q.lb.x) - d0x
  let d1y := (q.rb.y - q.lb.y) - d0y
  let k0 := cross px py d0x d0y
  let k1 := cross px py d1x d1y - cross mx my d0x d0y
  let k2 := -(cross mx my d1x d1y)
  if k2 = 0 then
    if k1 ≠ 0 then onSegment q px py (-k0) k1
    else k0 == 0 && patchOnLine q px py mx my d0x d0y d1x d1y
  else
    let disc := k1 * k1 - 4 * k2 * k0
    if disc < 0 then false
    else
      let r : Int := isqrt disc.toNat
      onSegment q px py (-k1 + r) (2 * k2) || onSegment q px py (-k1 - r) (2 * k2)

/-- The squares of a patch on a layer. -/
def patchSquares (o : Obj) (q : Quad) : List (Int × Int) :=
  let xs := [q.ra.x, q.lb.x, q.rb.x]
  let ys := [q.ra.y, q.lb.y, q.rb.y]
  squaresIn o (minOf q.la.x xs) (minOf q.la.y ys) (maxOf q.la.x xs) (maxOf q.la.y ys) (inPatch q)

/-- A heading in 2π/65,536 rad (R170). -/
def heading16 (h : Nat) : Fx := fxTwoPi * h / 65536

/-- The ends of the footprint segment of a mark record (R166, R170). -/
def recEnds (b : List Byte) : Vec3 × Vec3 :=
  let h := heading16 (u16 b 12)
  let w := fxOf (u16 b 2) / 2
  let e := fxOf (i32 b 4)
  let n := fxOf (i32 b 8)
  let lx := -(fxMul w (fxCos h))
  let ly := fxMul w (fxSin h)
  ({ x := e + lx, y := n + ly }, { x := e - lx, y := n - ly })

def patchOf (a b : List Byte) : Quad :=
  let p := recEnds a
  let q := recEnds b
  { la := p.1, ra := p.2, lb := q.1, rb := q.2 }

/-- The path between two records. -/
def recDist (a b : List Byte) : Fx :=
  let dx := fxOf (i32 b 4 - i32 a 4)
  let dy := fxOf (i32 b 8 - i32 a 8)
  fxSqrt (fxMul dx dx + fxMul dy dy)

/-! ## Channels at the board unit -/

def chanBd (s : State) (pos chan : Nat) : ChanBd :=
  (s.board.chans.find? fun c => c.pos == pos && c.chan == chan).getD { pos := pos, chan := chan }

def updChanBd (pos chan : Nat) (f : ChanBd → ChanBd) (s : State) : State :=
  let c := f (chanBd s pos chan)
  { s with board := { s.board with
      chans := (s.board.chans.filter fun x => !(x.pos == pos && x.chan == chan)) ++ [c] } }

/-- Guard after one more patch: the oldest goes once the rest span retrace_tol, or at 64 patches (R168). -/
def guardTrim (tol : Fx) : Nat → List (Quad × Int) → List (Quad × Int)
  | 0, g => g
  | fuel + 1, g =>
    let rest := g.dropLast
    if 64 < g.length ∨ (!rest.isEmpty ∧ tol ≤ (rest.map (·.2)).foldl (· + ·) 0) then guardTrim tol fuel rest else g

/-- Insert by a key, ahead of those of the same key. -/
def insertBy {α : Type} (key : α → Int) (x : α) : List α → List α
  | [] => [x]
  | y :: r => if key x ≤ key y then x :: y :: r else y :: insertBy key x r

/-- Sorted by a key; those of one key keep their order. -/
def sortBy {α : Type} (key : α → Int) (xs : List α) : List α := xs.foldr (fun x r => insertBy key x r) []

/-- The tiles of some squares, in ascending ty, then tx. -/
def tilesOf (qs : List (Int × Int)) : List (Int × Int) :=
  sortBy (·.2) (sortBy (·.1) (qs.map tileOfSq).eraseDups)

/-- The squares of a patch, tile by tile (R168). -/
def squaresByTile (o : Obj) (q : Quad) : List (Int × Int) :=
  let qs := patchSquares o q
  (tilesOf qs).flatMap fun t => qs.filter fun x => tileOfSq x == t

/-- Tiles on the board, by their numbers. -/
def onBoard (o : Obj) (ts : List (Int × Int)) : List (Nat × Nat) :=
  ts.filterMap fun t => if 0 ≤ t.1 ∧ 0 ≤ t.2 ∧ t.1 < (layW o : Int) ∧ t.2 < (layH o : Int) then some (t.1.toNat, t.2.toNat) else none

/-- One square of a patch (R168): its tile is in the cache, or none is needed. -/
def markSquare (i : Nat) (guard : List (Quad × Int)) (pos chan : Nat) (s : State) (q : Int × Int) : State :=
  match objAt s i with
  | none => s
  | some o =>
    let t := tileOfSq q
    match viewTile s o t.1 t.2 with
    | .off =>
      raiseLimited secTicks 0x0544 0 (handleOf o) (256 * pos + chan) 0 (leBytes 1 pos ++ leBytes 1 chan) 0 0
        (updLayer i (fun r => { r with offBoard := satInc 32 r.offBoard }) s)
    | .here c =>
      let p := placeOfSq q
      let v := sqGet o c p.1 p.2
      let x := sqCentre (laySize o) (layE0 o) q.1
      let y := sqCentre (laySize o) (layN0 o) q.2
      let s := hitTile i c.tx c.ty s
      if v = 3 ∨ guard.any (fun g => inPatch g.1 x y) then s
      else tileDirty i c.tx c.ty (updLayer i (updTile c.tx c.ty (sqSet p.1 p.2 (min 2 (v + 1)))) s)
    | _ => s

/-- A paint received before a mark has still to reach the tile (R181). -/
def paintAhead (o : Obj) (tick : Nat) (t : Int × Int) : Bool :=
  (layerOf o).paints.any fun p => decide (p.id < tick) && p.left.any fun x => decide (((x.1 : Nat) : Int) = t.1 ∧ ((x.2 : Nat) : Int) = t.2)

/-- A square's mark must wait: for its tile, or for a paint received earlier. -/
def markWaits (s : State) (i tick : Nat) (q : Int × Int) : Bool :=
  match objAt s i with
  | none => false
  | some o =>
    let t := tileOfSq q
    paintAhead o tick t || match viewTile s o t.1 t.2 with
      | .missing _ => true
      | .blank _ => true
      | _ => false

/-- Mark squares in order, at most `n`, as far as none must wait: how many were visited. -/
def markRun (i tick : Nat) (guard : List (Quad × Int)) (pos chan : Nat) : List (Int × Int) → Nat → State → Nat × State
  | [], _, s => (0, s)
  | _ :: _, 0, s => (0, s)
  | q :: qs, n + 1, s =>
    if markWaits s i tick q then (0, s)
    else
      let w := markRun i tick guard pos chan qs n (markSquare i guard pos chan s q)
      (w.1 + 1, w.2)

/-- Ask for the tiles of some squares. -/
def bringTiles (i : Nat) (qs : List (Int × Int)) (s : State) : State :=
  match objAt s i with
  | none => s
  | some o => (onBoard o (tilesOf qs)).foldl (fun s t => (bringTile i t.1 t.2 s).2) s

/-- The patch between a channel's last record and a new one, when one is formed (R167): the last is not END, the new one not
START. -/
def patchWith (last : Option (List Byte)) (rec : List Byte) : Option Quad :=
  match last with
  | none => none
  | some l => if bit (u8 l 1) 1 || bit (u8 rec 1) 0 then none else some (patchOf l rec)

/-- Take over a record as its channel's last; the guard is emptied at the end of the flow interval (R167, R168). -/
def recTaken (m : QMark) (s : State) : State :=
  updChanBd m.pos (u8 m.bytes 0) (fun c => { c with
    last := some m.bytes
    guard := if bit (u8 m.bytes 1) 1 || bit (u8 m.bytes 1) 0 then [] else c.guard
    unmarked := c.unmarked && bit (u8 m.bytes 1) 2 }) s

/-- Squares visited in a frame at most (R175). -/
def visitMax : Nat := 12288

/-- The counts of the present frame (R175). -/
def visitFrame (s : State) : State :=
  if s.board.frame = s.gtc / frameTicks then s
  else { s with board := { s.board with frame := s.gtc / frameTicks, visited := 0, asked := 0 } }

/-- Count visits made, and visits asked for. -/
def visits (made asked : Nat) (s : State) : State :=
  { s with board := { s.board with visited := s.board.visited + made, asked := s.board.asked + asked } }

/-- BOARD_OVERLOAD, with the visits requested in the frame (R175, R187). -/
def overload (s : State) : State :=
  match layerOn s true with
  | none => s
  | some o =>
    if s.board.asked ≤ visitMax then s
    else raiseLimited secTicks 0x0546 0 (handleOf o) 0 0 ([0, 0, 0, 0] ++ leBytes 4 s.board.asked) 0 0 s

/-- Apply the rest of a record's patch to the coverage layer (R168), within the visits of the frame; what still waits. -/
def applyPatch (o : Obj) (m : QMark) (q : Quad) (s : State) : Option QMark × State :=
  let chan := u8 m.bytes 0
  let c := chanBd s m.pos chan
  let all := squaresByTile o q
  let qs := all.drop m.done
  let room := visitMax - s.board.visited
  let w := markRun o.idx m.tick c.guard m.pos chan qs room (bringTiles o.idx qs s)
  let s := visits w.1 (if w.1 = room then qs.length else w.1) w.2
  if w.1 < qs.length then (some { m with done := m.done + w.1, tiles := onBoard o (tilesOf (qs.drop w.1)) }, s)
  else
    let s := updLayer o.idx (fun r => { r with patches := satInc 32 r.patches }) s
    let tol := fxOf (u16 o.act 6)
    let len := recDist (c.last.getD m.bytes) m.bytes
    (none, if all.isEmpty then s else
      updChanBd m.pos chan (fun c => { c with guard := guardTrim tol 65 ((q, len) :: c.guard) }) s)

/-- A record that marks nothing: NOPOS (R169). -/
def unmarked (o : Obj) (m : QMark) (s : State) : State :=
  let chan := u8 m.bytes 0
  let c := chanBd s m.pos chan
  let mm := (fxToInt 60 (recDist (c.last.getD m.bytes) m.bytes)).toNat
  let s := updLayer o.idx (fun r => { r with unmarked := min (r.unmarked + mm) 0xFFFFFFFF }) s
  if c.unmarked then s
  else raise0 0x0545 (handleOf o) (leBytes 1 m.pos ++ leBytes 1 chan)
    (updChanBd m.pos chan (fun c => { c with unmarked := true }) s)

/-- A gap in the sequence numbers of a channel's records (R169). -/
def markGap (c : ChanBd) (rec : List Byte) : Bool := (c.last.map fun l => (u16 l 14 + 1) % 65536 != u16 rec 14).getD false

/-- One mark record at the board unit (R167 to R170): what of it waits. -/
def doMark (m : QMark) (s : State) : Option QMark × State :=
  match layerOn s true with
  | none => (none, recTaken m s)
  | some o =>
    let c := chanBd s m.pos (u8 m.bytes 0)
    if markGap c m.bytes then (none, recTaken m (marksLost o 0 0 4 s))
    else match patchWith c.last m.bytes with
      | none => (none, recTaken m s)
      | some q =>
        if bit (u8 m.bytes 1) 2 then
          let s := unmarked o m s
          (none, updChanBd m.pos (u8 m.bytes 0) (fun c => { c with unmarked := true }) (recTaken m s))
        else
          let w := applyPatch o m q s
          match w.1 with
          | some m => (some m, w.2)
          | none => (none, recTaken m w.2)

/-- The record before a mark in its channel: the last one that waits ahead, else the last one taken. -/
def recBefore (s : State) (ahead : List QMark) (m : QMark) : Option (List Byte) :=
  ((ahead.filter fun x => x.pos == m.pos && u8 x.bytes 0 == u8 m.bytes 0).getLast?.map (·.bytes)).or
    (chanBd s m.pos (u8 m.bytes 0)).last

/-- The squares that a mark has still to visit behind some others. -/
def markSquares (s : State) (ahead : List QMark) (m : QMark) : List (Int × Int) :=
  match layerOn s true, patchWith (recBefore s ahead m) m.bytes with
  | some o, some q => if bit (u8 m.bytes 1) 2 then [] else (squaresByTile o q).drop m.done
  | _, _ => []

/-- The mark queue holds 4,096 records: the oldest goes, with reason 2 (R170). -/
def queueMark (m : QMark) (s : State) : State :=
  let n := s.board.tick + 1
  let qs := markSquares s s.board.marks m
  let m := { m with tick := n, tiles := ((layerOn s true).map fun o => onBoard o (tilesOf qs)).getD [] }
  let ms := s.board.marks ++ [m]
  let s := { s with board := { s.board with tick := n, marks := if ms.length ≤ 4096 then ms else ms.drop 1 } }
  if ms.length ≤ 4096 then s
  else
    let t := ((ms.head?).bind fun x => x.tiles.head?).getD (0, 0)
    match layerKind s true with
    | none => s
    | some o => marksLost o t.1 t.2 2 s

/-- Go through the marks in arrival order (R170, R174, R175): a channel whose record waits keeps its later ones waiting, and
all wait once the visits of the frame are made. `kept` wait already, and `wait` are their channels. -/
def markLoop : List QMark → List QMark → List (Nat × Nat) → State → State
  | [], kept, _, s => { s with board := { s.board with marks := kept } }
  | m :: ms, kept, wait, s =>
    let key := (m.pos, u8 m.bytes 0)
    let s := { s with board := { s.board with marks := kept ++ m :: ms } }
    if visitMax ≤ s.board.visited then markLoop ms (kept ++ [m]) wait (visits 0 (markSquares s kept m).length s)
    else if wait.contains key then markLoop ms (kept ++ [m]) wait s
    else
      let w := doMark m s
      match w.1 with
      | none => markLoop ms kept wait w.2
      | some m => markLoop ms (kept ++ [m]) (key :: wait) w.2

/-! ## Queries (R171 to R176) -/

/-- The footprint of a query record (R172): centre of the near edge, heading, width, length. -/
structure Foot where
  e : Fx := 0
  n : Fx := 0
  h : Fx := 0
  w : Fx := 0
  len : Fx := 0
  deriving DecidableEq, Repr

def footOf (b : List Byte) : Foot :=
  { e := fxOf (i32 b 4), n := fxOf (i32 b 8), h := heading16 (u16 b 12), w := fxOf (u16 b 2), len := fxOf (i16 b 14) }

/-- Along the heading and to the left of the near edge's centre. -/
def footRel (f : Foot) (x y : Fx) : Fx × Fx :=
  let dx := x - f.e
  let dy := y - f.n
  (fxMul dx (fxSin f.h) + fxMul dy (fxCos f.h), fxMul dy (fxSin f.h) - fxMul dx (fxCos f.h))

/-- A centre lies in the footprint (R171): 0 ≤ λ < 1 along, 0 ≤ u < 1 from the left end to the right. -/
def inFoot (f : Foot) (x y : Fx) : Bool :=
  let r := footRel f x y
  decide (if 0 ≤ f.len then 0 ≤ r.1 ∧ r.1 < f.len else f.len < r.1 ∧ r.1 ≤ 0) && decide (2 * r.2 ≤ f.w ∧ -f.w < 2 * r.2)

def footSquares (o : Obj) (f : Foot) : List (Int × Int) :=
  let c := fxCos f.h
  let sn := fxSin f.h
  let corner (a b : Fx) : Fx × Fx := (f.e + fxMul a sn - fxMul b c, f.n + fxMul a c + fxMul b sn)
  let ps := [corner 0 (f.w / 2), corner 0 (-f.w / 2), corner f.len (f.w / 2), corner f.len (-f.w / 2)]
  let xs := ps.map (·.1)
  let ys := ps.map (·.2)
  squaresIn o (minOf (xs.headD 0) xs) (minOf (ys.headD 0) ys) (maxOf (xs.headD 0) xs) (maxOf (ys.headD 0) ys) (inFoot f)

/-- The longest length, between `lo` and `hi`, that gives at most 1,024 squares, found by halving (R171). -/
def shortenFoot (o : Obj) (f : Foot) (qs : List (Int × Int)) : Nat → Fx → Fx → Fx
  | 0, lo, _ => lo
  | fuel + 1, lo, hi =>
    let mid := (lo + hi) / 2
    let g := { f with len := mid }
    let n := (qs.filter fun q => inFoot g (sqCentre (laySize o) (layE0 o) q.1) (sqCentre (laySize o) (layN0 o) q.2)).length
    if n ≤ 1024 then shortenFoot o f qs fuel mid hi else shortenFoot o f qs fuel lo mid

/-- The footprint that is counted, its squares, and whether it was clamped; the centre's square alone where none lies in it. -/
def countedFoot (o : Obj) (f : Foot) : Foot × List (Int × Int) × Bool :=
  let qs := footSquares o f
  let f2 := if qs.length ≤ 1024 then f else { f with len := shortenFoot o f qs 140 0 f.len }
  let qs2 := if qs.length ≤ 1024 then qs else footSquares o f2
  let cx := f2.e + fxMul (f2.len / 2) (fxSin f2.h)
  let cy := f2.n + fxMul (f2.len / 2) (fxCos f2.h)
  (f2, if qs2.isEmpty then [(sqIndex (laySize o) (layE0 o) cx, sqIndex (laySize o) (layN0 o) cy)] else qs2, decide (1024 < qs.length))

/-- The counts of a query (R173). -/
structure Counts where
  total : Nat := 0
  applied : Nat := 0
  excluded : Nat := 0
  missing : Nat := 0
  off : Bool := false
  deriving DecidableEq, Repr

/-- A missing square: counted, its tile demanded, BOARD_MISS reported (R176). -/
def missSquare (o : Obj) (g : Bool) (tx ty : Nat) (s : State) : State :=
  let s := updLayer o.idx (fun r => { r with missing := satInc 32 r.missing }) s
  demandTile o.idx g tx ty
    (raiseHeld true secTicks 0x0540 0 (handleOf o) 0 0 (leBytes 2 tx ++ leBytes 2 ty ++ [0, 0, 0, 0]) 4 4 s)

/-- One square of a query on the coverage layer (R173, R176). -/
def countSquare (i : Nat) (a : Counts × State) (q : Int × Int) : Counts × State :=
  match objAt a.2 i with
  | none => a
  | some o =>
    let t := tileOfSq q
    let c := { a.1 with total := a.1.total + 1 }
    let kept := u8 o.act 2 == 1
    match viewTile a.2 o t.1 t.2 with
    | .off => ({ c with off := true, excluded := c.excluded + if kept then 0 else 1 }, a.2)
    | .excl => ({ c with excluded := c.excluded + 1 }, a.2)
    | .blank _ => (c, a.2)
    | .here x =>
      let p := placeOfSq q
      let v := sqGet o x p.1 p.2
      ({ c with applied := c.applied + (if v = 1 ∨ v = 2 then 1 else 0), excluded := c.excluded + (if v = 3 then 1 else 0) },
        hitTile i x.tx x.ty a.2)
    | .missing g =>
      ({ c with missing := c.missing + 1, applied := c.applied + (if layMiss o = 1 then 1 else 0) },
        missSquare o g t.1.toNat t.2.toNat a.2)

/-- The prescription at the footprint's centre: code, rate, missing, hold (R171, R173, R176). -/
def prescription (s : State) (f : Foot) (last : Nat × F32) : (Nat × F32) × Bool × Bool × State :=
  match layerOn s false with
  | none => ((255, 0x7FC00000), false, false, s)
  | some o =>
    let cx := f.e + fxMul (f.len / 2) (fxSin f.h)
    let cy := f.n + fxMul (f.len / 2) (fxCos f.h)
    let q := (sqIndex (laySize o) (layE0 o) cx, sqIndex (laySize o) (layN0 o) cy)
    let t := tileOfSq q
    let rate (c : Nat) : F32 := if c = 255 then layDefault o
      else ((tableOf s (u32 o.act 56)).map fun b => curveEval b (fOfInt c)).getD (layDefault o)
    match viewTile s o t.1 t.2 with
    | .here x =>
      let p := placeOfSq q
      let c := sqGet o x p.1 p.2
      ((c, rate c), false, false, hitTile o.idx x.tx x.ty s)
    | .missing g =>
      let s := missSquare o g t.1.toNat t.2.toNat s
      if layMiss o = 2 then (last, true, true, s) else ((255, layDefault o), true, false, s)
    | _ => ((255, layDefault o), false, false, s)

/-- The prescription that the miss policy gives (R174, R176). -/
def lateRate (s : State) (last : Nat × F32) : (Nat × F32) × Bool :=
  match layerOn s false with
  | none => ((255, 0x7FC00000), false)
  | some l => if layMiss l = 2 then (last, true) else ((255, layDefault l), false)

/-- The answer to a query (R173). With `late`, the miss policy answers for every square, and nothing is visited (R174).
Without a coverage layer no square is counted. -/
def answerOf (pos : Nat) (b : List Byte) (late : Bool) (s : State) : List Byte × State :=
  let chan := u8 b 0
  let c := chanBd s pos chan
  let cov := layerOn s true
  let x := (cov.map fun o => countedFoot o (footOf b)).getD (footOf b, [], false)
  let n := x.2.1.length
  let miss := (cov.map layMiss).getD 0
  let r : Counts × State := match cov with
    | none => ({}, s)
    | some o => if late then ({ total := n, applied := if miss = 1 then n else 0 }, updLayer o.idx (fun r => { r with late := satInc 32 r.late }) s)
      else x.2.1.foldl (countSquare o.idx) ({}, s)
  let p : (Nat × F32) × Bool × Bool × State :=
    if late then let l := lateRate s (c.code, c.rate); (l.1, false, l.2, r.2) else prescription r.2 x.1 (c.code, c.rate)
  let missed := decide (0 < r.1.missing) || p.2.1
  let held := (miss == 2 && (late || decide (0 < r.1.missing))) || p.2.2.1
  let fl := b2n late + 2 * b2n missed + 4 * b2n held + 8 * b2n (bit (u8 b 1) 1) + 16 * b2n x.2.2 + 32 * b2n r.1.off
  (leBytes 1 chan ++ leBytes 1 fl ++ leBytes 2 r.1.total ++ leBytes 2 r.1.applied ++ leBytes 2 r.1.excluded
    ++ leBytes 2 r.1.missing ++ leBytes 1 p.1.1 ++ [0] ++ fBytes p.1.2,
   updChanBd pos chan (fun c => { c with code := p.1.1, rate := p.1.2 }) p.2.2.2)

/-- The channel of an index on this device. -/
def chanByIndex (s : State) (c : Nat) : Option Obj :=
  s.objs.find? fun o => (o.typ == tyNozzle || o.typ == tyRow) && (chanOf o).chan == c

/-- A channel of this device receives its answer, in force from slot 7 of the frame two after the query's boundary (R174). It is
the one to the query that waits, which cannot come before slot 7 of the frame after that boundary (log 18). -/
def takeAnswer (rec : List Byte) (s : State) : State :=
  match chanByIndex s (u8 rec 0) with
  | none => s
  | some o => match (chanOf o).queries with
    | [] => s
    | q :: qs =>
      if s.gtc < q.boundary + frameTicks + 7 * slotTicks then s
      else updChan o.idx (fun r => { r with queries := qs, ansNext := some (q, rec) }) s

/-- The answer to a query goes to its channel, or downstream to its member; the lead keeps a member's for section-wide decisions,
its boundary being that of the frame before (R174, R206). -/
def sendAnswer (pos : Nat) (query rec : List Byte) (s : State) : State :=
  if pos = s.osl.position then takeAnswer rec s
  else updChanBd pos (u8 rec 0) (fun c => { c with next := some (frameStart s.gtc - frameTicks, query, rec) })
    { s with osl := { s.osl with outbox := s.osl.outbox ++ [{ kind := .answer, dst := pos, src := s.osl.position, body := rec }] } }

/-- Answer the queries in order; from the first that does not fit into the frame's visits on they are LATE (R175). -/
def queryLoop : List (Nat × List Byte) → Bool → State → State
  | [], _, s => s
  | (pos, b) :: qs, full, s =>
    let size := ((layerOn s true).map fun o => (countedFoot o (footOf b)).2.1.length).getD 0
    let late := full || decide (visitMax < s.board.visited + size)
    let a := answerOf pos b late (visits (if late then 0 else size) size s)
    queryLoop qs late (sendAnswer pos b a.1 a.2)

/-! ## Painting (R181) -/

/-- The crossing rule for a centre; all in half mm. -/
def inPolygon (vs : List (Int × Int)) (cx cy : Int) : Bool :=
  let edges := vs.zip (vs.drop 1 ++ vs.take 1)
  (edges.filter fun e =>
    let ax := 2 * e.1.1
    let ay := 2 * e.1.2
    let bx := 2 * e.2.1
    let bY := 2 * e.2.2
    let inside := decide (min ay bY ≤ cy ∧ cy < max ay bY)
    let d := bY - ay
    -- the edge crosses the north line at ax + (cy - ay)(bx - ax)/d, east of the centre
    inside && decide (if 0 < d then (cx - ax) * d < (cy - ay) * (bx - ax) else (cy - ay) * (bx - ax) < (cx - ax) * d)).length % 2 == 1

/-- The squares of a tile inside a polygon. -/
def paintSquares (o : Obj) (vs : List (Int × Int)) (tx ty : Nat) : List (Nat × Nat) :=
  let sz := laySize o
  (List.range 64).flatMap fun y => (List.range 64).filterMap fun x =>
    let cx := 2 * (layE0 o + (64 * tx + x : Nat) * (sz : Int)) + sz
    let cy := 2 * (layN0 o + (64 * ty + y : Nat) * (sz : Int)) + sz
    if inPolygon vs cx cy then some (x, y) else none

/-- The tiles of the board that a polygon has squares of, in ascending ty, then tx. -/
def paintTiles (o : Obj) (vs : List (Int × Int)) : List (Nat × Nat) :=
  let t (org v : Int) : Int := (v - org) / (64 * (laySize o : Int))
  let xs := vs.map fun v => t (layE0 o) v.1
  let ys := vs.map fun v => t (layN0 o) v.2
  let x0 := (max 0 (minOf (xs.headD 0) xs)).toNat
  let x1 := (min ((layW o : Int) - 1) (maxOf (xs.headD 0) xs) + 1).toNat
  let y0 := (max 0 (minOf (ys.headD 0) ys)).toNat
  let y1 := (min ((layH o : Int) - 1) (maxOf (ys.headD 0) ys) + 1).toNat
  (List.range (y1 - y0)).flatMap fun b => (List.range (x1 - x0)).filterMap fun a =>
    let p := (x0 + a, y0 + b)
    if (paintSquares o vs p.1 p.2).isEmpty then none else some p

/-- What painting makes of a square. -/
def paintVal (value v : Nat) : Nat :=
  if value = 0 then 0 else if value = 1 then 3
  else if value = 2 then (if v < 2 then v + 1 else v)
  else if v = 3 then 0 else v

/-- Paint the squares of one cached tile; the squares changed. A tile that was brought for it is left dirty in any case. -/
def paintTile (i : Nat) (p : Paint) (tx ty : Nat) (s : State) : Nat × State :=
  match objAt s i with
  | none => (0, s)
  | some o => match tileAt (layerOf o) tx ty with
    | none => (0, s)
    | some t =>
      let r := (paintSquares o p.verts tx ty).foldl (fun a q =>
        let v := sqGet o a.2 q.1 q.2
        let w := paintVal p.value v
        if w = v then a else (a.1 + 1, sqSet q.1 q.2 w a.2)) (0, t)
      (r.1, if r.1 = 0 ∧ ¬ p.brought.contains (tx, ty) then s
        else tileDirty i tx ty (updLayer i (updTile tx ty fun t => { t with data := r.2.data }) s))

/-- Paint tile after tile while they can be had: a tile waits for its fetch, and for the marks received before (R181). -/
def paintRun (i : Nat) : Nat → Paint → State → Paint × State
  | 0, p, s => (p, s)
  | fuel + 1, p, s =>
    match p.left, objAt s i with
    | (tx, ty) :: rest, some o =>
      if s.board.marks.any fun m => decide (m.tick < p.id) && m.tiles.contains (tx, ty) then (p, s)
      else match viewTile s o tx ty with
        | .off => paintRun i fuel { p with left := rest, skipped := p.skipped + 1 } s
        | .excl => paintRun i fuel { p with left := rest, skipped := p.skipped + 1 } s
        | v =>
          let p := match v with
            | .here _ => p
            | _ => if p.brought.contains (tx, ty) then p else { p with brought := p.brought ++ [(tx, ty)] }
          let w := bringTile i tx ty s
          if !w.1 then (p, w.2)
          else
            let x := paintTile i p tx ty w.2
            paintRun i fuel { p with left := rest, brought := p.brought.erase (tx, ty), changed := p.changed + x.1 } x.2
    | _, _ => (p, s)

/-- Every paint of a layer goes on. -/
def paintAll (i : Nat) (s : State) : State :=
  (layerAt s i).paints.foldl (fun s p =>
    let w := paintRun i p.left.length p s
    updLayer i (fun r => { r with paints := r.paints.map fun x => if x.id = p.id then w.1 else x }) w.2) s

/-- BOARD_PAINT (R181). -/
def bodyBoardPaint (d : Desc) (o : Obj) (s : State) : State :=
  let b := blockOf s d
  let n := u8 b 1
  if b.length < 8 ∨ b.length ≠ 8 + 8 * n then fail d stBadLength s
  else if !layCov o then fail d 0x0502 s
  else if 3 < u8 b 0 ∨ n < 3 ∨ 64 < n ∨ ¬ zeroBytes b 2 6 then fail d stBadParam s
  else
    let vs := (List.range n).map fun k => (i32 b (8 + 8 * k), i32 b (12 + 8 * k))
    let id := s.board.tick + 1
    let p : Paint := { id := id, value := u8 b 0, verts := vs, left := paintTiles o vs }
    let s := { s with board := { s.board with tick := id } }
    let s := updLayer o.idx (fun r => { r with paints := r.paints ++ [p] }) s
    defer d 0x0501 (handleOf o) 0 [] id (paintAll o.idx s)

def execBoardPaint (d : Desc) (s : State) : Host.Outcome State Fault Refusal :=
  .next (runObj 0x0501 d (bodyBoardPaint d) s)

/-- BOARD_PAINT_DONE: the last tile is updated (R181). -/
def execBoardPaintDone (h : Nat) (s : State) : Host.Outcome State Fault Refusal :=
  .next (match objOf s h with
    | none => s
    | some o => match (layerOf o).paints.find? fun p => p.left.isEmpty with
      | none => s
      | some p =>
        let s := updLayer o.idx (fun r => { r with paints := r.paints.erase p }) s
        match s.hif.deferred.find? fun x => x.op == 0x0501 && x.handle == h && x.arg == p.id with
        | none => s
        | some x => completeDeferred x { result := satBytes 4 p.changed ++ satBytes 2 p.skipped } s)

/-! ## Tile access (R161, R182) -/

/-- A tile descriptor waits for a fetch: it is run again when one ends. -/
def tileWait (i : Nat) (d : Desc) (s : State) : State := updLayer i (fun r => { r with waiting := r.waiting ++ [d] }) s

/-- BOARD_TILE_READ (R182): the tile as cached, fetched first if needed. -/
def bodyTileRead (d : Desc) (o : Obj) (s : State) : State :=
  let tx := u16 d.bytes 32
  let ty := u16 d.bytes 34
  if layW o ≤ tx ∨ layH o ≤ ty then fail d 0x0504 s
  else match viewTile s o tx ty with
    | .off => fail d 0x0506 s
    | .excl => fail d 0x0506 s
    | .here t => writeBack d (tileImage o t) {} (touchTile o tx ty s)
    | .blank e => writeBack d (tileImage o { entry := e }) {} s
    | .missing g =>
      let w := askFetch o.idx g false false tx ty s
      if w.1 = .noWay then fail d stNoResource w.2 else tileWait o.idx d w.2

def execBoardTileRead (d : Desc) (s : State) : Host.Outcome State Fault Refusal :=
  .next (runObj 0x0502 d (bodyTileRead d) s)

/-- A fetch of a tile is not wanted any more. -/
def unfetch (i tx ty : Nat) (s : State) : State :=
  updLayer i (fun r => { r with fetches := r.fetches.filter fun f => f.group || f.tx != tx || f.ty != ty }) s

/-- BOARD_TILE_WRITE (R182): the cached tile is replaced and dirty; only its directory group need be fetched. -/
def bodyTileWrite (d : Desc) (o : Obj) (s : State) : State :=
  let tx := u16 d.bytes 32
  let ty := u16 d.bytes 34
  if layW o ≤ tx ∨ layH o ≤ ty then fail d 0x0504 s
  else
    let put (e : Nat) (s : State) : State :=
      ok d (tileDirty o.idx tx ty (putTile o tx ty e (tileData o (blockOf s d)) s))
    let fresh (e : Nat) : State :=
      let s := unfetch o.idx tx ty s
      match objAt s o.idx with
      | none => s
      | some o =>
        let w := makeWay o false tx ty s
        match w.1 with
        | .free => put e w.2
        | .after _ _ => tileWait o.idx d w.2
        | .none => fail d stNoResource w.2
    match viewTile s o tx ty with
    | .off => fail d 0x0506 s
    | .excl => fail d 0x0506 s
    | .here t => ok d (tileDirty o.idx tx ty
        (updLayer o.idx (updTile tx ty fun t => { t with data := tileData o (blockOf s d) }) (touchTile o t.tx t.ty s)))
    | .blank e => fresh e
    | .missing true => tileWait o.idx d (demandTile o.idx true tx ty s)
    | .missing false => match entryOf o tx ty with
      | some e => fresh e
      | none => tileWait o.idx d s

def execBoardTileWrite (d : Desc) (s : State) : Host.Outcome State Fault Refusal :=
  .next (runObj 0x0503 d (bodyTileWrite d) s)

/-- Run the waiting tile descriptors again. -/
def retryTileOps (i : Nat) (s : State) : State :=
  let ds := (layerAt s i).waiting
  ds.foldl (fun s d => match objAt s i with
    | none => s
    | some o => if dOp d = 0x0502 then bodyTileRead d o s else bodyTileWrite d o s)
    (updLayer i (fun r => { r with waiting := [] }) s)

/-- An evicted tile that is not yet written comes back to its way; a fetch that waited for the way, or for the tile, goes. -/
def rescue (o : Obj) (w : WriteBack) (s : State) : State :=
  let k := (w.tile.tx, w.tile.ty)
  updLayer o.idx (fun r => { r with
    tiles := r.tiles ++ [{ w.tile with dirty := false }]
    fetches := r.fetches.filter fun f => f.way != some k && (f.group || (f.tx, f.ty) != k)
    wbs := r.wbs.map fun w => if (w.tile.tx, w.tile.ty) = k then { w with evicted := false } else w }) s

/-- The last copy of an evicted tile on its way to memory. -/
def lastCopy (r : LayerRt) (tx ty : Nat) : Option WriteBack :=
  (r.wbs.filter fun w => w.evicted && w.tile.tx == tx && w.tile.ty == ty).getLast?

/-- BOARD_TILE_ADDR (R161): an evicted tile whose copy is still on its way counts as cached and dirty (log 18). -/
def bodyTileAddr (d : Desc) (o : Obj) (s : State) : State :=
  let tx := u16 d.bytes 16
  let ty := u16 d.bytes 18
  let e := u64 d.bytes 24
  let c := e % 8
  if layCacheOnly o then fail d stUnsupported s
  else if layW o ≤ tx ∨ layH o ≤ ty then fail d 0x0504 s
  else if !entryValid s o e then fail d stBadParam s
  else
    let gone := c == 0 || c == 4 || c == 5
    let left := lastCopy (layerOf o) tx ty
    if gone && (left.isSome || ((tileAt (layerOf o) tx ty).map (·.dirty)).getD false) then fail d 0x0505 s
    else
      let s := updLayer o.idx (dirSet o tx ty e) (dirWrite o tx ty e s)
      let s := match left with
        | some w => if entryAddr e = entryAddr w.tile.entry then s else rescue o w s
        | none => s
      ok d (match tileAt (layerAt s o.idx) tx ty with
        | none => if gone then unfetch o.idx tx ty s else s
        | some t =>
          if gone then updLayer o.idx (dropTile tx ty) s
          else
            let stored := c == 1 || c == 3
            let s := updLayer o.idx (updTile tx ty fun t => { t with entry := e }) s
            if t.pin = 1 ∧ stored then
              startWb o { t with entry := e, pin := 0 } (updLayer o.idx (updTile tx ty fun t => { t with pin := 0 }) s)
            else if entryAddr e ≠ entryAddr t.entry then tileDirty o.idx tx ty s
            else s)

def execBoardTileAddr (d : Desc) (s : State) : Host.Outcome State Fault Refusal :=
  .next (runObj 0x0504 d (bodyTileAddr d) s)

/-- BOARD_INVALIDATE (R182). -/
def bodyInvalidate (d : Desc) (o : Obj) (s : State) : State :=
  let x0 := u16 d.bytes 16
  let y0 := u16 d.bytes 18
  let x1 := u16 d.bytes 20
  let y1 := u16 d.bytes 22
  let inside (x y : Nat) : Bool := decide (x0 ≤ x ∧ x ≤ x1 ∧ y0 ≤ y ∧ y ≤ y1)
  let ts := (layerOf o).tiles.filter fun t => inside t.tx t.ty
  if ts.any (·.dirty) then fail d 0x0505 s
  else ok d (updLayer o.idx (fun r => { r with
    dir := r.dir.filter fun g => !(List.range 8).any fun k =>
      let n := 8 * g.1 + k
      inside (n % max 1 (layW o)) (n / max 1 (layW o)) }) (ts.foldl (fun s t => evict o t s) s))

def execBoardInvalidate (d : Desc) (s : State) : Host.Outcome State Fault Refusal :=
  .next (runObj 0x0505 d (bodyInvalidate d) s)

/-- BOARD_QUERY (R175, R185): the count for the footprint the host gives; its visits are among those of the frame. -/
def bodyBoardQuery (d : Desc) (o : Obj) (s : State) : State :=
  let b := d.bytes
  if !layCov o then fail d 0x0502 s
  else
    let rec16 : List Byte := [0, 0] ++ slice b 26 2 ++ slice b 16 4 ++ slice b 20 4 ++ slice b 24 2 ++ slice b 28 2
    let x := countedFoot o (footOf rec16)
    let n := x.2.1.length
    let s := visitFrame s
    let late := decide (visitMax < s.board.visited + n)
    let s := overload (visits (if late then 0 else n) n s)
    let r : Counts × State :=
      if late then ({ total := n, applied := if layMiss o = 1 then n else 0 }, updLayer o.idx (fun r => { r with late := satInc 32 r.late }) s)
      else x.2.1.foldl (countSquare o.idx) ({}, s)
    let miss := decide (0 < r.1.missing)
    let fl := b2n late + 2 * b2n miss + 4 * b2n (layMiss o == 2 && (late || miss)) + 16 * b2n x.2.2 + 32 * b2n r.1.off
    okWith d (leBytes 2 r.1.total ++ leBytes 2 r.1.applied ++ leBytes 2 r.1.excluded ++ leBytes 1 fl) r.2

def execBoardQuery (d : Desc) (s : State) : Host.Outcome State Fault Refusal :=
  .next (runObj 0x0506 d (bodyBoardQuery d) s)

/-! ## Flushing (R164, R183) -/

/-- BOARD_FLUSH (R183): the snapshot is taken at the next boundary. -/
def bodyBoardFlush (d : Desc) (o : Obj) (s : State) : State :=
  let a := u8 d.bytes 16
  if 2 ≤ a then fail d stBadParam s
  else if a = 1 ∧ o.ost ≠ .disabled then fail d stState s
  else
    let id := s.board.tick + 1
    let s := { s with board := { s.board with tick := id } }
    let s := updLayer o.idx (fun r => { r with flushes := r.flushes ++ [{ id := id, due := nextBoundary s.gtc, discard := a == 1 }] }) s
    defer d 0x0500 (handleOf o) (nextBoundary s.gtc) [] id s

def execBoardFlush (d : Desc) (s : State) : Host.Outcome State Fault Refusal :=
  .next (runObj 0x0500 d (bodyBoardFlush d) s)

/-- The snapshot of a flush: every dirty tile is written back, or discarded (R183). -/
def flushStart (i : Nat) (f : Flush) (s : State) : State :=
  match objAt s i with
  | none => s
  | some o =>
    let r := layerOf o
    let dirty := r.tiles.filter (·.dirty)
    if f.discard then
      updLayer i (fun r => { r with
        tiles := r.tiles.filter fun t => !t.dirty
        flushes := r.flushes.map fun x => if x.id = f.id then { x with started := true, dropped := dirty.length } else x }) s
    else
      let keys := dirty.map fun t => (t.tx, t.ty)
      let flight := (r.wbs.map fun w => (w.tile.tx, w.tile.ty)).eraseDups.filter fun k => !keys.contains k
      let s := updLayer i (fun r => { r with
        flushes := r.flushes.map fun x => if x.id = f.id
          then { x with started := true, snap := s.board.tick, left := keys, flight := flight } else x }) s
      if layCacheOnly o then s
      else (dirty.filter fun t => t.pin == 0).foldl (fun s t => startWb o t s) s

/-- At a frame boundary the flushes due take their snapshots. -/
def boardBoundary (s : State) : State :=
  (objsOf s tyLayer).foldl (fun s o =>
    ((layerOf o).flushes.filter fun f => !f.started && decide (f.due ≤ s.gtc)).foldl (fun s f => flushStart o.idx f s) s) s

/-- A flush completes. -/
def flushEnd (o : Obj) (f : Flush) (status : Nat) (s : State) : State :=
  let s := updLayer o.idx (fun r => { r with
    flushes := r.flushes.filter fun x => x.id != f.id, lastFlush := if status = stOk then f.due else r.lastFlush }) s
  match s.hif.deferred.find? fun x => x.op == 0x0500 && x.handle == handleOf o && x.arg == f.id with
  | none => s
  | some x => completeDeferred x { status := status, result := satBytes 2 f.written ++ satBytes 2 (f.dropped + f.left.length + f.flight.length) } s

/-- BOARD_FLUSH_DONE: every tile dirty at the snapshot has been written (R183). -/
def execBoardFlushDone (h : Nat) (s : State) : Host.Outcome State Fault Refusal :=
  .next (match objOf s h with
    | none => s
    | some o => match (layerOf o).flushes.find? fun f => f.started && f.left.isEmpty && f.flight.isEmpty with
      | none => s
      | some f => flushEnd o f stOk s)

/-- A tile of a snapshot that will not be written by itself: pinned, discarded since, or of a layer without storage
(log 18). -/
def unwritable (o : Obj) (k : Nat × Nat) : Bool :=
  match tileAt (layerOf o) k.1 k.2 with
  | some t => t.pin != 0 || layCacheOnly o
  | none => (wbOf (layerOf o) k.1 k.2).isNone

/-- BOARD_FLUSH_TIMEOUT: tiles still pinned 5 s after the snapshot (R183). -/
def execBoardFlushTimeout (h : Nat) (s : State) : Host.Outcome State Fault Refusal :=
  .next (match objOf s h with
    | none => s
    | some o => match (layerOf o).flushes.find? fun f => f.started && f.left.any (unwritable o) with
      | none => s
      | some f => flushEnd o f 0x0508 (toInstant (f.due + 5 * secTicks) s))

/-- Another copy of the tile of a write-back is under way, one copied no later than `snap` where given. -/
def otherCopy (r : LayerRt) (w : WriteBack) (snap : Option Nat) : Bool :=
  r.wbs.any fun x => x.tile.tx == w.tile.tx && x.tile.ty == w.tile.ty && (snap.map fun n => decide (x.tick ≤ n)).getD true

/-- A write-back fails (R177): the tile stays dirty and pinned; one that was evicted keeps its way. -/
def wbFail (o : Obj) (w : WriteBack) (s : State) : State :=
  let k := (w.tile.tx, w.tile.ty)
  let s := updLayer o.idx (fun r => { r with wbs := r.wbs.erase w }) s
  let r := layerAt s o.idx
  let s := updLayer o.idx (fun r => { r with
    flushes := r.flushes.map fun f =>
      if w.tick ≤ f.snap ∧ f.flight.contains k ∧ ¬ otherCopy r w (some f.snap)
      then { f with flight := f.flight.erase k, left := f.left ++ [k] } else f }) s
  let s := if w.evicted ∧ ¬ otherCopy r w none then rescue o w s else s
  limitPins o.idx (hostFault o 1 k.1 k.2 (updLayer o.idx (updTile k.1 k.2 fun t => { t with
    dirty := true, pin := 2, pinAt := if t.pin = 2 then t.pinAt else s.gtc, failAt := s.gtc }) s))

/-- TILE_WRITEBACK_DONE: the copy is in memory; a BLANK entry now has storage, a pin ends, a flush counts it (R159, R164).
One that needs the host waits while the host is out of reach (R178); one beyond the mailbox fails. -/
def wbDone (o : Obj) (w : WriteBack) (s : State) : State :=
  let k := (w.tile.tx, w.tile.ty)
  let e := w.tile.entry
  let blank := e % 8 == 3
  if tileGone s e || (blank && boardDetached s o) then s
  else match ptrWrite (entryAddr e) (tileImage o w.tile) s with
    | none => wbFail o w s
    | some s =>
      let now := (((tileAt (layerOf o) k.1 k.2).map (·.entry)).or (entryOf o k.1 k.2)).getD e
      let s := if blank && now == e then
          updLayer o.idx (fun r => updTile k.1 k.2 (fun t => { t with entry := e - 2 }) (dirSet o k.1 k.2 (e - 2) r))
            (dirWrite o k.1 k.2 (e - 2) s)
        else s
      updLayer o.idx (fun r => { updTile k.1 k.2 (fun t => { t with pin := if t.pin = 2 then 0 else t.pin }) r with
        wbs := r.wbs.erase w, writebacks := satInc 32 r.writebacks
        fetches := r.fetches.map fun f => if f.way = some k ∧ ¬ otherCopy { r with wbs := r.wbs.erase w } w none
          then { f with way := none } else f
        flushes := r.flushes.map fun f =>
          let f1 := { f with written := f.written + 1 }
          if w.tick ≤ f.snap ∧ f.flight.contains k ∧ ¬ otherCopy { r with wbs := r.wbs.erase w } w (some f.snap)
          then { f1 with flight := f.flight.erase k }
          else if f.snap < w.tick ∧ f.left.contains k then { f1 with left := f.left.erase k } else f }) s

def execTileWritebackDone (h tx ty : Nat) (s : State) : Host.Outcome State Fault Refusal :=
  .next (match objOf s h with
    | none => s
    | some o => match wbOf (layerOf o) tx ty with
      | none => s
      | some w => retryTileOps o.idx (paintAll o.idx (wbDone o w s)))

/-- TILE_FLUSH_TIMER: flush_ms after the tile first became dirty (R164). -/
def execTileFlushTimer (h tx ty : Nat) (s : State) : Host.Outcome State Fault Refusal :=
  .next (match objOf s h with
    | none => s
    | some o => match tileAt (layerOf o) tx ty with
      | none => s
      | some t =>
        if t.dirty ∧ t.pin = 0 ∧ u16 o.act 52 ≠ 0 ∧ ¬ layCacheOnly o ∧ ¬ tileGone s t.entry then
          startWb o t (toInstant (t.first + u16 o.act 52 * msTicks) s)
        else s)

/-! ## Fetches and failed accesses (R163, R176, R177) -/

/-- Bytes read from the mailbox, none beyond its end, else what the host's memory gave. -/
def backing (s : State) (ptr n : Nat) (data : List Byte) : Option (List Byte) :=
  if !ptrMailbox ptr then some (padTo n data)
  else if mailboxSize < ptr % 2 ^ 63 + n then none
  else some (memReadN s.mailbox (ptr % mailboxSize) n)

/-- A fetched directory group (R159): entries with reserved bits or classes are reported. -/
def groupDone (o : Obj) (g : Nat) (bs : List Byte) (s : State) : State :=
  let es := (List.range 8).map fun k => u64 bs (8 * k)
  let s := updLayer o.idx (fun r => { r with dir := dirPut (g, es) r.dir }) s
  (es.zipIdx).foldl (fun s e =>
    let n := 8 * g + e.2
    if entryValid s o e.1 || decide (layW o * layH o ≤ n) then s
    else raise0 0x0548 (handleOf o) (leBytes 2 (n % max 1 (layW o)) ++ leBytes 2 (n / max 1 (layW o))) s) s

/-- Discard the marks that wait for some tiles, with reason 1 (R177). -/
def dropMarksFor (o : Obj) (p : Nat × Nat → Bool) (s : State) : State :=
  let gone := s.board.marks.filter fun m => m.tiles.any p
  let s := { s with board := { s.board with marks := s.board.marks.filter fun m => !m.tiles.any p } }
  gone.foldl (fun s m =>
    let t := (m.tiles.find? p).getD (0, 0)
    recTaken m (marksLost o t.1 t.2 1 s)) s

/-- A read fails (R177): the tile or group is held out for 1 s, the marks queued for it are lost. -/
def readFail (o : Obj) (f : Fetch) (s : State) : State :=
  let s := updLayer o.idx (fun r => { r with
    fetches := r.fetches.erase f
    held := r.held ++ [{ group := f.group, tx := f.tx, ty := f.ty, ends := s.gtc + secTicks }] }) s
  let hit (t : Nat × Nat) : Bool := if f.group then entryNo o t.1 t.2 / 8 == f.tx else t == (f.tx, f.ty)
  hostFault o (if f.group then 2 else 0) f.tx f.ty (if layCov o then dropMarksFor o hit s else s)

/-- What a fetch waits for: the host, the evicted tile whose way it takes, a copy of its own tile on its way to memory. -/
def fetchWaits (s : State) (o : Obj) (f : Fetch) : Bool :=
  let r := layerOf o
  boardDetached s o || (!f.group && (((entryOf o f.tx f.ty).map (tileGone s)).getD false || (wbOf r f.tx f.ty).isSome))
    || (f.way.map fun k => (wbOf r k.1 k.2).isSome).getD false

/-- TILE_FETCH_DONE: a group enters the directory cache, a tile its way; what waited for it goes on (R163). -/
def fetchDone (o : Obj) (f : Fetch) (data : List Byte) (s : State) : State :=
  let gone (s : State) : State := updLayer o.idx (fun r => { r with fetches := r.fetches.erase f }) s
  if f.group then
    match backing s (layDir o + 64 * f.tx) 64 data with
    | none => readFail o f s
    | some bs => groupDone o f.tx bs (gone s)
  else match entryOf o f.tx f.ty with
    | none => gone s
    | some e =>
      if entryClass s o e ≠ 1 ∨ (tileAt (layerOf o) f.tx f.ty).isSome then gone s
      else match backing s (entryAddr e) (tileBytes o) data with
        | none => readFail o f s
        | some bs => putTile o f.tx f.ty e (tileData o bs) (updLayer o.idx (fun r => { r with fetched := satInc 32 r.fetched }) (gone s))

def execTileFetchDone (h : Nat) (group : Bool) (tx ty : Nat) (data : List Byte) (s : State) :
    Host.Outcome State Fault Refusal :=
  .next (match objOf s h with
    | none => s
    | some o => match (layerOf o).fetches.find? fun f => f.group == group && f.tx == tx && f.ty == ty with
      | none => s
      | some f => if fetchWaits s o f then s else retryTileOps o.idx (paintAll o.idx (fetchDone o f data s)))

/-- BOARD_HOST_ACCESS_FAIL: kind 0 tile read, 1 write-back, 2 directory read, 3 directory write (R177). -/
def execBoardHostAccessFail (h kind tx ty : Nat) (s : State) : Host.Outcome State Fault Refusal :=
  .next (match objOf s h with
    | none => s
    | some o =>
      let r := layerOf o
      if kind = 0 ∨ kind = 2 then
        match r.fetches.find? fun f => f.group == (kind == 2) && f.tx == tx && f.ty == ty with
        | none => s
        | some f => if fetchWaits s o f then s else readFail o f s
      else if kind = 1 then
        match wbOf r tx ty with
        | none => s
        | some w => if tileGone s w.tile.entry then s else wbFail o w s
      else hostFault o 3 tx ty s)

/-- TILE_HOLDOUT_RETRY: 1 s after a failed read (R177); it waits while the host is out of reach. -/
def execTileHoldoutRetry (h : Nat) (group : Bool) (tx ty : Nat) (s : State) : Host.Outcome State Fault Refusal :=
  .next (match objOf s h with
    | none => s
    | some o => match (layerOf o).held.find? fun x => x.group == group && x.tx == tx && x.ty == ty with
      | none => s
      | some x =>
        if boardDetached s o || (!group && ((entryOf o tx ty).map (tileGone s)).getD false) then s
        else
          let s := updLayer o.idx (fun r => { r with held := r.held.erase x }) (toInstant x.ends s)
          let w := max 1 (layW o)
          (if group then askFetch o.idx true false false (8 * tx % w) (8 * tx / w) s else askFetch o.idx false false false tx ty s).2)

/-- WRITEBACK_RETRY: every 100 ms (R177); it waits while the host is out of reach. -/
def execWritebackRetry (h tx ty : Nat) (s : State) : Host.Outcome State Fault Refusal :=
  .next (match objOf s h with
    | none => s
    | some o => match tileAt (layerOf o) tx ty with
      | none => s
      | some t =>
        if t.pin = 2 ∧ t.dirty ∧ ¬ tileGone s t.entry ∧ (wbOf (layerOf o) tx ty).isNone
        then startWb o t (toInstant (t.failAt + 100 * msTicks) s) else s)

/-- BOARD_DEGRADED_END: 10 s without a failure (R177). -/
def execBoardDegradedEnd (h : Nat) (s : State) : Host.Outcome State Fault Refusal :=
  .next (match objOf s h with
    | none => s
    | some o =>
      if !(layerOf o).degraded then s
      else
        let s := toInstant ((layerOf o).fails.headD 0 + 10 * secTicks) s
        raise0 0x0547 (handleOf o) [0, 0, 0, 0, 0] (updLayer o.idx (fun r => { r with degraded := false, demand := [] }) s))

/-! ## Prefetch (R165) -/

/-- A point fixed to the implement. -/
def virtualPoint (s : State) (x y : Int) : Obj :=
  { typ := tyGeopoint, act := [1, 0, 0, 0] ++ iBytes 4 x ++ iBytes 4 y ++ List.replicate 20 0
    rt := .geo { sign := if s.kin.impRev then -1 else 1 } }

/-- Projection of some points on an axis: least and greatest. -/
def project (ax ay : Fx) (ps : List (Fx × Fx)) : Fx × Fx :=
  let v := ps.map fun p => fxMul p.1 ax + fxMul p.2 ay
  (minOf (v.headD 0) v, maxOf (v.headD 0) v)

/-- Two shapes come within a margin of each other along an axis. -/
def nearOn (m ax ay : Fx) (ps qs : List (Fx × Fx)) : Bool :=
  let p := project ax ay ps
  let q := project ax ay qs
  let w := fxMul m (fxSqrt (fxMul ax ax + fxMul ay ay))
  decide (p.1 ≤ q.2 + w ∧ q.1 ≤ p.2 + w)

/-- A tile touches a quadrilateral widened by the margin (log 18): no axis of either parts them. -/
def tileTouches (o : Obj) (m : Fx) (ps : List (Fx × Fx)) (tx ty : Nat) : Bool :=
  let sz := 64 * (laySize o : Int)
  let x0 := fxOf (layE0 o + tx * sz)
  let y0 := fxOf (layN0 o + ty * sz)
  let t := [(x0, y0), (x0 + fxOf sz, y0), (x0 + fxOf sz, y0 + fxOf sz), (x0, y0 + fxOf sz)]
  nearOn m fxOne 0 ps t && nearOn m 0 fxOne ps t
    && (ps.zip (ps.drop 1 ++ ps.take 1)).all fun e =>
      nearOn m ((e.2.2 - e.1.2) / 65536) (-(e.2.1 - e.1.1) / 65536) ps t

/-- The tiles of the board that a widened quadrilateral touches. -/
def touchedTiles (o : Obj) (m : Fx) (ps : List (Fx × Fx)) : List (Nat × Nat) :=
  let xs := ps.map (·.1)
  let ys := ps.map (·.2)
  let t (org : Int) (v : Fx) : Int := (v - fxOf org) / fxOf (64 * (laySize o : Int))
  let x0 := (max 0 (t (layE0 o) (minOf (xs.headD 0) xs - m))).toNat
  let x1 := (min ((layW o : Int) - 1) (t (layE0 o) (maxOf (xs.headD 0) xs + m)) + 1).toNat
  let y0 := (max 0 (t (layN0 o) (minOf (ys.headD 0) ys - m))).toNat
  let y1 := (min ((layH o : Int) - 1) (t (layN0 o) (maxOf (ys.headD 0) ys + m)) + 1).toNat
  (List.range (y1 - y0)).flatMap fun b => (List.range (x1 - x0)).filterMap fun a =>
    if tileTouches o m ps (x0 + a) (y0 + b) then some (x0 + a, y0 + b) else none

/-- Poses of the ends of the working edge after `tau` ticks: left, right, heading, and the midpoint's travel. -/
def edgeAt (s : State) (o : Obj) (tau : Nat) : (Fx × Fx) × (Fx × Fx) × Fx × Fx :=
  let lo := virtualPoint s (i32 o.act 40) (i32 o.act 44)
  let ro := virtualPoint s (i32 o.act 40) (i32 o.act 48)
  let mo := virtualPoint s (i32 o.act 40) ((i32 o.act 44 + i32 o.act 48) / 2)
  let l := predPose s s.kin.rcd lo (predict s s.kin.rcd lo tau)
  let r := predPose s s.kin.rcd ro (predict s s.kin.rcd ro tau)
  ((l.1.x, l.1.y), (r.1.x, r.1.y), l.2, (predict s s.kin.rcd mo tau).ds)

/-- The quadrilaterals ahead, 0.25 s each, until prefetch_dist or 2.5 s is reached; then a straight one (R165). -/
def corridorSteps (s : State) (o : Obj) (dist : Fx) (sg : Int) : Nat → Nat → Fx → List (List (Fx × Fx))
  | 0, _, _ => []
  | fuel + 1, tau, d =>
    let a := edgeAt s o tau
    if dist ≤ d then []
    else if horizon ≤ tau then
      let k := sg * (dist - d)
      let dx := fxMul k (fxSin a.2.2.1)
      let dy := fxMul k (fxCos a.2.2.1)
      [[a.1, a.2.1, (a.2.1.1 + dx, a.2.1.2 + dy), (a.1.1 + dx, a.1.2 + dy)]]
    else
      let t1 := min (tau + 250 * msTicks) horizon
      let b := edgeAt s o t1
      [a.1, a.2.1, b.2.1, b.1] :: corridorSteps s o dist sg fuel t1 (d + fxAbs (b.2.2.2 - a.2.2.2))

/-- The corridor of a layer, nearest part first (R165). -/
def corridorQuads (s : State) (o : Obj) : List (List (Fx × Fx)) :=
  let a := edgeAt s o 0
  let v := fxOf (i32 s.kin.rcd 40)
  let sg : Int := if v < 0 ∨ (v = 0 ∧ s.kin.impRev) then -1 else 1
  let back := -sg * fxOf (u32 o.act 36)
  let dx := fxMul back (fxSin a.2.2.1)
  let dy := fxMul back (fxCos a.2.2.1)
  [a.1, a.2.1, (a.2.1.1 + dx, a.2.1.2 + dy), (a.1.1 + dx, a.1.2 + dy)] :: corridorSteps s o (fxOf (u32 o.act 32)) sg 12 0 0

/-- How far along a quadrilateral, from its first edge towards the opposite one, the centre of a tile lies. -/
def alongQuad (o : Obj) (ps : List (Fx × Fx)) (t : Nat × Nat) : Int :=
  let p (k : Nat) : Fx × Fx := ps.getD k (0, 0)
  let sz := 64 * (laySize o : Int)
  let cx := fxOf (layE0 o + t.1 * sz) + fxOf sz / 2
  let cy := fxOf (layN0 o + t.2 * sz) + fxOf sz / 2
  let mx := (p 2).1 + (p 3).1 - (p 0).1 - (p 1).1
  let my := (p 2).2 + (p 3).2 - (p 0).2 - (p 1).2
  (2 * cx - (p 0).1 - (p 1).1) * mx + (2 * cy - (p 0).2 - (p 1).2) * my

/-- The tiles of the corridor, in order of distance along it (R165). -/
def corridorTiles (s : State) (o : Obj) : List (Nat × Nat) :=
  ((corridorQuads s o).flatMap fun ps => sortBy (alongQuad o ps) (touchedTiles o (fxOf (u32 o.act 36)) ps)).eraseDups

/-- Queue the fetch of one corridor tile; one that finds no victim is counted (R163). -/
def prefetchTile (i : Nat) (s : State) (t : Nat × Nat) : State :=
  match objAt s i with
  | none => s
  | some o => match viewTile s o t.1 t.2 with
    | .missing g =>
      let w := askFetch i g true false t.1 t.2 s
      if w.1 ≠ .noWay then w.2
      else raiseLimited secTicks 0x0549 0 (handleOf o) 0 0 (List.replicate 8 0) 4 4
        (updLayer i (fun r => { r with limitedAt := some s.gtc }) w.2)
    | _ => s

/-- PREFETCH_CORRIDOR: every 10 ms, for every ENABLED layer with prefetch (R165). -/
def execPrefetchCorridor (t : Nat) (s : State) : Host.Outcome State Fault Refusal :=
  .next (
    let s := toInstant t s
    ((objsOf s tyLayer).filter fun o => isEnabled o && bit (u8 o.act 3) 1).foldl (fun s o =>
      let ts := corridorTiles s o
      ts.foldl (prefetchTile o.idx) (updLayer o.idx (fun r => { r with corridor := ts }) s)) s)

/-! ## Records and windows (R170 to R174) -/

/-- MARK_RECORD_ARRIVAL: a mark or query record of the device at position `pos` waits for the next window (R170, R174). -/
def execMarkRecordArrival (pos : Nat) (query : Bool) (rec : List Byte) (s : State) : Host.Outcome State Fault Refusal :=
  .next (
    let r := padTo 16 rec
    if query then { s with board := { s.board with queries := s.board.queries ++ [(pos, r)] } }
    else queueMark { pos := pos, bytes := r } s)

/-- BOARD_WINDOW: in slots 7 to 11, marks in arrival order, then queries; paints before and between, tile by tile (R174, R175,
R181). -/
def execBoardWindow (s : State) : Host.Outcome State Fault Refusal :=
  .next (
    let s := visitFrame (toInstant (frameStart s.gtc + 7 * slotTicks) s)
    let paints (s : State) : State := (objsOf s tyLayer).foldl (fun s o => retryTileOps o.idx (paintAll o.idx s)) s
    let s := paints s
    let s := paints (markLoop s.board.marks [] [] s)
    let qs := s.board.queries
    overload (queryLoop qs (decide (visitMax < s.board.asked)) { s with board := { s.board with queries := [] } }))

/-- LATE_QUERY: answered at once from the miss policy, with LATE set (R174). -/
def execLateQuery (pos : Nat) (rec : List Byte) (s : State) : Host.Outcome State Fault Refusal :=
  .next (
    let r := padTo 16 rec
    let a := answerOf pos r true { s with board := { s.board with queries := s.board.queries.filter fun q => q != (pos, r) } }
    sendAnswer pos r a.1 a.2)

/-- ANSWER_RECEIVE: a member's channel receives its answer (R174). -/
def execAnswerReceive (rec : List Byte) (s : State) : Host.Outcome State Fault Refusal := .next (takeAnswer (padTo 16 rec) s)

/-- Type-specific status of a LAYER (R184). -/
def layerStatus (s : State) (o : Obj) : List Byte :=
  let r := layerOf o
  let limited := (r.limitedAt.map fun t => decide (s.gtc < t + secTicks)).getD false
  leBytes 2 r.tiles.length ++ leBytes 2 (r.tiles.filter (·.dirty)).length ++ leBytes 2 (r.tiles.filter fun t => t.pin != 0).length
    ++ leBytes 2 (if layCov o then s.board.marks.length else 0)
    ++ leBytes 4 r.hits ++ leBytes 4 r.missing ++ leBytes 4 r.fetched ++ leBytes 4 r.faults ++ leBytes 4 r.writebacks
    ++ leBytes 4 r.patches ++ leBytes 4 r.marksLost ++ leBytes 4 r.offBoard ++ leBytes 4 r.late ++ leBytes 4 r.unmarked
    ++ leBytes 8 r.lastFlush ++ leBytes 1 (b2n r.degraded + 2 * b2n (boardDetached s o) + 4 * b2n limited) ++ [0, 0, 0]

end Sys2Proof.Machine
end

