-- ==== Sys2Proof/Machine/Security.lean ====
section
/-! DEFINITION. The security module's commands (15, R434 to R458). -/

namespace Sys2Proof.Machine

/-! ## Registers of the module (R434, R457) -/

/-- SEC_STAT.APPROVED (R434). -/
def secApproved (s : State) : Bool :=
  s.sec.selftestDone && (keySlot s 0).key.isSome && s.sec.untagged == 0 && !s.sec.legacyPwd && !s.sec.debugOpen
    && s.sec.zeroizing.isNone

/-- SEC_STAT. -/
def secStat (s : State) : Nat :=
  128 * b2n s.sec.zeroizing.isSome + 64 * b2n s.sec.debugOpen + 32 * b2n s.sec.legacyPwd
    + 16 * b2n (s.sec.untagged == 1) + 8 * b2n (keySlot s 0).key.isNone + 2 * b2n s.sec.selftestDone + b2n (secApproved s)

/-- SEC_SLOTS. -/
def secSlots (s : State) : Nat :=
  (s.sec.slots.zipIdx.map fun x => 2 ^ x.2 * b2n x.1.key.isSome + 2 ^ (8 + x.2) * b2n x.1.lockEnd.isSome).foldl (· + ·) 0

/-- Bytes of a firmware slot. -/
def fwBytes (f : FwSlot) (off n : Nat) : List Byte := memReadN f.bytes off n

def fwSlot (s : State) (b : Bool) : FwSlot := if b then s.sec.fwB else s.sec.fwA

def setFwSlot (b : Bool) (f : FwSlot → FwSlot) (s : State) : State :=
  if b then { s with sec := { s.sec with fwB := f s.sec.fwB } } else { s with sec := { s.sec with fwA := f s.sec.fwA } }

/-- The rollback and the version of a slot's image: header fields, the factory image's being open (R454). -/
def fwRollback (f : FwSlot) : Nat := if f.factory then Config.factoryRollback.toNat else u8 (fwBytes f 12 1) 0
def fwVersion (f : FwSlot) : Nat := if f.factory then Config.factoryVersion.toNat else leNat (fwBytes f 8 4)

/-- SEC_FW. -/
def secFw (s : State) : Nat :=
  2 ^ 24 * s.sec.rollback + 2 ^ 16 * fwRollback (fwSlot s s.sec.running) + 2 * b2n s.sec.candidate.isSome + b2n s.sec.running

/-- SEC_SESS: byte i for session i. -/
def secSess (s : State) : Nat :=
  (s.sec.sessions.map fun x => (128 + 32 * x.role + x.sq) * 256 ^ x.idx).foldl (· + ·) 0

/-- SEC_INFO (R458). -/
def bodySecInfo (d : Desc) (s : State) : State :=
  writeBack d (leBytes 4 (secStat s) ++ leBytes 4 (secSlots s) ++ leBytes 4 (secFw s) ++ leBytes 4 (secSess s)
    ++ leBytes 8 Config.uid.toNat ++ List.replicate 8 0) {} s

def execSecInfo (d : Desc) (s : State) : Host.Outcome State Fault Refusal := .next (runDesc 0x0F00 d (bodySecInfo d) s)

/-! ## Challenges and sessions (R442 to R445) -/

def stZeroized : Nat := 0x0F0E

/-- Provisioning, key loading and challenges are refused while ZEROIZE_N is low (R456), and while an erase runs. -/
def zeroizeBars (s : State) : Bool := s.isl.zeroizePin || s.sec.zeroizing.isSome

/-- The device nonce: an output of the DRBG, which no command fixes (R442, log 7). -/
def takeNonce (s : State) : List Byte × State :=
  let a := takeFree s
  (beBytes 16 a.1, a.2)

/-- The context C of R443. -/
def contextOf (sid role slot sq : Nat) (nh nd : List Byte) : List Byte :=
  leBytes 4 sid ++ leBytes 1 role ++ leBytes 1 slot ++ leBytes 1 sq ++ nh ++ nd ++ leBytes 8 Config.uid.toNat

/-- SEC_CHALLENGE (R442): the block is judged, then the device fills nd, sid and uid; a new challenge of the same sq
replaces the old. The session identifier's numbering is open (log 7). -/
def bodySecChallenge (d : Desc) (s : State) : State :=
  let b := blockOf s d
  let role := u8 b 0
  let slot := u8 b 1
  let sq := u8 b 2
  let ttl := u16 b 4
  if zeroizeBars s then fail d stZeroized s
  else if role = 0 ∨ 3 < role ∨ 8 ≤ slot ∨ slotRole slot ≠ role ∨ 16 ≤ sq ∨ ttl < 10 ∨ 3600 < ttl
      ∨ ¬ (zeroBytes b 3 1 ∧ zeroBytes b 6 2 ∧ zeroBytes b 52 12) then fail d stBadParam s
  else if (keySlot s slot).key.isNone then fail d 0x0F08 s
  else if (keySlot s slot).lockEnd.isSome then failWith d 0x0F05 (leBytes 4 (lockRemaining s slot)) s
  else if (sessionOn s sq).isSome then fail d stState s
  else
    let n := takeNonce s
    let f := takeFree n.2
    let sid := f.1 % 2 ^ 32
    let c : Challenge := { sq := sq, role := role, slot := slot, ttl := ttl, sid := sid,
                           ctx := contextOf sid role slot sq (slice b 8 16) n.1, expires := s.gtc + 5 * secTicks }
    let s := { f.2 with sec := { f.2.sec with challenges := (f.2.sec.challenges.filter fun x => x.sq != sq) ++ [c] } }
    writeBack d (b.take 24 ++ n.1 ++ leBytes 4 sid ++ leBytes 8 Config.uid.toNat ++ List.replicate 12 0) {} s

def execSecChallenge (d : Desc) (s : State) : Host.Outcome State Fault Refusal :=
  .next (runDesc 0x0F01 d (bodySecChallenge d) s)

/-- The ASCII strings of R443 and R444. -/
def asciiHost : List Byte := [0x48, 0x4F, 0x53, 0x54]
def asciiDev : List Byte := [0x44, 0x45, 0x56, 0x20]
def asciiSession : List Byte := [0x50, 0x4B, 0x39, 0x36, 0x34, 0x38, 0x2D, 0x53, 0x45, 0x53, 0x53, 0x49, 0x4F, 0x4E]

/-- T_i of R444. -/
def sessionKey (k ctx : List Byte) (i : Nat) : List Byte :=
  hmac k (beBytes 4 i ++ asciiSession ++ [0] ++ ctx ++ beBytes 4 512)

/-- The limits of R445 leave room for a session. -/
def sessionRoom (s : State) (c : Challenge) : Bool :=
  decide (s.sec.sessions.length < 4) && (sessionOn s c.sq).isNone
    && !(c.role == roleOwner && s.sec.sessions.any fun x => x.role == roleOwner)

/-- The byte of SEC_SESS that a new session takes: the lowest free one (log 35). -/
def sessionIndex (s : State) : Nat := ((List.range 4).find? fun i => !s.sec.sessions.any fun x => x.idx == i).getD 0

/-- SEC_OPEN (R443): the first case that applies decides; a live challenge is used up by every outcome. -/
def bodySecOpen (d : Desc) (s : State) : State :=
  let b := blockOf s d
  if !zeroBytes b 4 12 then fail d stBadParam s
  else match s.sec.challenges.find? fun c => c.sid == u32 b 0 && decide (s.gtc < c.expires) with
    | none => fail d 0x0F06 s
    | some c =>
      let s := { s with sec := { s.sec with challenges := s.sec.challenges.erase c } }
      let key := (keySlot s c.slot).key
      let k := key.getD []
      if (keySlot s c.slot).lockEnd.isSome then failWith d 0x0F05 (leBytes 4 (lockRemaining s c.slot)) s
      else if key.isNone ∨ slice b 16 32 ≠ hmac k (asciiHost ++ c.ctx) then fail d 0x0F04 (authFail c.slot s)
      else if !sessionRoom s c then fail d 0x0F07 s
      else
        let x : Session := { idx := sessionIndex s, sq := c.sq, role := c.role, slot := c.slot, sid := c.sid, kTag := sessionKey k c.ctx 1,
                             kWrap := sessionKey k c.ctx 2, ttl := c.ttl, lastTagged := s.gtc }
        let s := { s with sec := { s.sec with sessions := s.sec.sessions ++ [x] } }
        let s := updSlot c.slot (fun k => { k with fails := 0, nextLock := 30 }) s
        let s := writeBack d (b.take 48 ++ hmac k (asciiDev ++ c.ctx)) {} s
        raise0 0x0F40 0 ([BitVec.ofNat 8 c.role, BitVec.ofNat 8 c.slot, BitVec.ofNat 8 c.sq, 0] ++ leBytes 4 c.sid) s

def execSecOpen (d : Desc) (s : State) : Host.Outcome State Fault Refusal := .next (runDesc 0x0F02 d (bodySecOpen d) s)

/-- SEC_CLOSE (R449): tagged, else BAD_PARAM; result byte 24 says whether its session was still open. -/
def bodySecClose (d : Desc) (s : State) : State :=
  if dTagLen d ≠ 16 then fail d stBadParam s
  else if !((sessionOn s d.sq).any fun x => (startedOf s d).sid == some x.sid) then okWith d [0] s
  else okWith d [1] (sessionClose d.sq closeCommand s)

def execSecClose (d : Desc) (s : State) : Host.Outcome State Fault Refusal := .next (runDesc 0x0F03 d (bodySecClose d) s)

/-! ## Keys and policy (R437 to R440) -/

/-- The judgement of an image under R452: nothing, or the status of R453. -/
def fwBad (s : State) (f : FwSlot) : Option Nat :=
  let h := fwBytes f 0 256
  let len := u32 h 16
  let dig (b : Bool) : List Byte := beBytes 32 (Config.keyDigest b).toNat
  if u32 h 0 ≠ 0x57464B50 ∨ u16 h 4 ≠ 1 ∨ u16 h 6 ≠ 0x9648 ∨ 2096896 < len then some 0x0F0C
  else if (sha256 (slice h 64 64) ≠ dig false ∧ sha256 (slice h 64 64) ≠ dig true)
      ∨ ¬ ecdsaVerify (sha256 (h.take 128)) (beNat (slice h 64 32)) (beNat (slice h 96 32)) (beNat (slice h 128 32)) (beNat (slice h 160 32))
      ∨ sha256 (fwBytes f 256 len) ≠ slice h 32 32 then some 0x0F0B
  else if u8 h 12 < s.sec.rollback then some 0x0F0D
  else none

/-- SEC_FW_COMMIT checks the slot: a valid image becomes the candidate of the next boot, and in bare king clears
BOOT_COUNT (R453, R510). -/
def fwCommitRun (d : Desc) (b : Bool) (s : State) : State :=
  match fwBad s (fwSlot s b) with
  | some e => fail d e s
  | none =>
    let v := fwVersion (fwSlot s b)
    let s := { s with
      sec := { s.sec with updating := none, candidate := some b }
      boot := { s.boot with tried := false, bootCount := if s.boot.mode = .bareKing then 0 else s.boot.bootCount } }
    okWith d (leBytes 4 v) (raise0 0x0F45 0 (leBytes 4 (b2n b) ++ leBytes 4 v) s)

/-- Put a pool into the store under a key. -/
def poolPut (key : Nat) (b : List Byte) (s : State) : State :=
  { s with isb := { s.isb with pools := (List.range 5).flatMap fun k => if k = key then [(k, b)] else s.isb.pools.filter fun x => x.1 == k } }

/-- Bytes of the stored pools under other keys. -/
def poolRoom (key : Nat) (s : State) : Nat :=
  ((s.isb.pools.filter fun x => x.1 != key).map fun x => x.2.length).foldl (· + ·) 0

/-- Carry out a write of MRAM and complete its descriptor (R194, R395, R437, R440, R453, R507). -/
def mramApply (d : Desc) (w : MramOp) (s : State) : State :=
  match w with
  | .key i k =>
    if k.isSome && zeroizeBars s then fail d stZeroized s else ok d (updSlot i (fun x => { x with key := k }) s)
  | .policy r => ok d { s with sec := { s.sec with untagged := r } }
  | .fwErase b =>
    let s := setFwSlot b (fun f => { f with factory := false, bytes := memWriteN f.bytes 0 (List.replicate 256 0) }) s
    ok d { s with sec := { s.sec with updating := some b, candidate := if s.sec.candidate = some b then none else s.sec.candidate } }
  | .fwData b o bs => ok d (setFwSlot b (fun f => { f with bytes := memWriteN f.bytes o bs }) s)
  | .fwCommit b => fwCommitRun d b s
  | .pool k b => if 262144 < poolRoom k s + b.length then fail d 0x0305 s else ok d (poolPut k b s)
  | .bootPolicy v => ok d { s with boot := { s.boot with policy := v } }
  | .latErase k => ok d { s with sched := { s.sched with store := s.sched.store.filter fun x => x.key != k } }

/-- A write of MRAM: at once, or after the supply warning that defers it (R489). -/
def mramWrite (d : Desc) (w : MramOp) (s : State) : State :=
  if s.pwr.bow then { s with pwr := { s.pwr with mramWait := s.pwr.mramWait ++ [(d, w)] } } else mramApply d w s

/-- The writes that a supply warning deferred proceed in their order (R489). -/
def mramWaitRun (s : State) : State :=
  s.pwr.mramWait.foldl (fun s x => mramApply x.1 x.2 s) { s with pwr := { s.pwr with mramWait := [] } }

/-- A write that loads the OWNER key. -/
def ownerKey (w : MramOp) : Bool := match w with
  | .key i (some _) => i == 0
  | _ => false

/-- SEC_PROVISION (R439): one that a supply warning defers has the slot. -/
def bodySecProvision (d : Desc) (s : State) : State :=
  if zeroizeBars s then fail d stZeroized s
  else if (keySlot s 0).key.isSome || s.pwr.mramWait.any fun x => ownerKey x.2 then fail d 0x0F09 s
  else mramWrite d (.key 0 (some (blockOf s d))) s

def execSecProvision (d : Desc) (s : State) : Host.Outcome State Fault Refusal :=
  .next (runDesc 0x0F04 d (bodySecProvision d) s)

/-- SEC_KEY_LOAD (R440): the key unwraps under the session's K_wrap. -/
def bodySecKeyLoad (d : Desc) (s : State) : State :=
  let b := blockOf s d
  if zeroizeBars s then fail d stZeroized s
  else if 8 ≤ u8 b 0 ∨ ¬ zeroBytes b 1 7 then fail d stBadParam s
  else match (startedOf s d).wrap.bind fun k => keyUnwrap k (slice b 8 40) with
    | none => fail d 0x0F0A s
    | some key => mramWrite d (.key (u8 b 0) (some key)) s

def execSecKeyLoad (d : Desc) (s : State) : Host.Outcome State Fault Refusal :=
  .next (runDesc 0x0F05 d (bodySecKeyLoad d) s)

/-- SEC_KEY_ERASE (R440): slots 1 to 7. -/
def bodySecKeyErase (d : Desc) (s : State) : State :=
  let i := u8 d.bytes 16
  if i = 0 ∨ 8 ≤ i then fail d stBadParam s else mramWrite d (.key i none) s

def execSecKeyErase (d : Desc) (s : State) : Host.Outcome State Fault Refusal :=
  .next (runDesc 0x0F06 d (bodySecKeyErase d) s)

/-- SEC_POLICY (R437). -/
def bodySecPolicy (d : Desc) (s : State) : State :=
  let r := u8 d.bytes 16
  if 2 ≤ r then fail d stBadParam s else mramWrite d (.policy r) s

def execSecPolicy (d : Desc) (s : State) : Host.Outcome State Fault Refusal := .next (runDesc 0x0F07 d (bodySecPolicy d) s)

/-! ## Firmware update (R451 to R453) -/

/-- Bytes of a firmware slot. -/
def fwSize : Nat := 2097152

/-- SEC_FW_BEGIN (R453): the target slot's header becomes invalid; in bare king either slot may be named (R509). -/
def bodySecFwBegin (d : Desc) (s : State) : State :=
  let t := u8 d.bytes 16
  if 2 ≤ t then fail d stBadParam s
  else if (t == 1) == s.sec.running && s.boot.mode != .bareKing then fail d stState s
  else
    mramWrite d (.fwErase (t == 1)) { s with sec := { s.sec with updating := some (t == 1) } }

def execSecFwBegin (d : Desc) (s : State) : Host.Outcome State Fault Refusal := .next (runDesc 0x0F08 d (bodySecFwBegin d) s)

/-- SEC_FW_WRITE (R453). -/
def bodySecFwWrite (d : Desc) (s : State) : State :=
  match s.sec.updating with
  | none => fail d stState s
  | some b =>
    if fwSize < dOffset d + dBlockLen d then fail d stBadParam s
    else mramWrite d (.fwData b (dOffset d) (blockOf s d)) s

def execSecFwWrite (d : Desc) (s : State) : Host.Outcome State Fault Refusal := .next (runDesc 0x0F09 d (bodySecFwWrite d) s)

/-- SEC_FW_COMMIT (R453): a valid image becomes the candidate of the next boot; in bare king it clears BOOT_COUNT (R510). -/
def bodySecFwCommit (d : Desc) (s : State) : State :=
  match s.sec.updating with
  | none => fail d stState s
  | some b => mramWrite d (.fwCommit b) s

def execSecFwCommit (d : Desc) (s : State) : Host.Outcome State Fault Refusal :=
  .next (runDesc 0x0F0A d (bodySecFwCommit d) s)

/-! ## Debug and zeroization (R455, R456) -/

/-- SEC_DEBUG_UNLOCK (R455): scope 1 boundary scan, 2 engine debug. -/
def bodySecDebugUnlock (d : Desc) (s : State) : State :=
  let sc := u8 d.bytes 16
  if sc ≠ 1 ∧ sc ≠ 2 then fail d stBadParam s
  else
    let s := { s with sec := { s.sec with
      debugOpen := true, debugScopes := if s.sec.debugScopes.contains sc then s.sec.debugScopes else s.sec.debugScopes ++ [sc] } }
    ok d (raise0 0x0F47 0 (leBytes 1 sc) s)

def execSecDebugUnlock (d : Desc) (s : State) : Host.Outcome State Fault Refusal :=
  .next (runDesc 0x0F0B d (bodySecDebugUnlock d) s)

/-- A key load under way when zeroization starts is abandoned and completes ZEROIZED (R456). -/
def keyLoadsDrop (s : State) : State :=
  let key (x : Desc × MramOp) : Bool := match x.2 with
    | .key _ (some _) => true
    | _ => false
  (s.pwr.mramWait.filter key).foldl (fun s x => fail x.1 stZeroized s)
    { s with pwr := { s.pwr with mramWait := s.pwr.mramWait.filter fun x => !key x } }

/-- Zeroization starts: ZEROIZING sets, every session closes with reason ZEROIZED, outstanding challenges end with
the DRBG state (R456). -/
def zeroizeStart (cause : Nat) (s : State) : State :=
  if s.sec.zeroizing.isSome then s
  else
    let s := sessionsCloseAll closeZeroized (keyLoadsDrop { s with sec := { s.sec with zeroizing := some cause } })
    { s with sec := { s.sec with challenges := [] } }

/-- SEC_ZEROIZE: accepted, and completes when the erase is done (R456, R458). -/
def bodySecZeroize (d : Desc) (s : State) : State := defer d 0x0F0C 0 0 [] 0 (zeroizeStart 1 s)

def execSecZeroize (d : Desc) (s : State) : Host.Outcome State Fault Refusal :=
  .next (runDesc 0x0F0C d (bodySecZeroize d) s)

/-- ZEROIZE_PIN: ZEROIZE_N has been low for 1 ms (R456, R469). -/
def execZeroizePin (s : State) : Host.Outcome State Fault Refusal :=
  .next (zeroizeStart 0 { s with isl := { s.isl with zeroizePin := true } })

/-- ZEROIZE_N_HIGH: the pin returns high and its refusals end (R456). -/
def execZeroizeNHigh (s : State) : Host.Outcome State Fault Refusal :=
  .next { s with isl := { s.isl with zeroizePin := false } }

/-- ZEROIZE_ERASE_DONE: every key slot is EMPTY, the debug unlock ends, the FS-216 password is the factory one,
SEC_ZEROIZED is raised and logged, and a SEC_ZEROIZE completes (R456). -/
def execZeroizeEraseDone (s : State) : Host.Outcome State Fault Refusal :=
  .next (match s.sec.zeroizing with
    | none => s
    | some cause =>
      let s := { s with
        sec := { s.sec with zeroizing := none, debugScopes := [], slots := s.sec.slots.map fun k => { k with key := none } }
        leg := { s.leg with password := 0x02160000, pwdNew := none } }
      let s := logWrite 0x0F44 0 0 0 (leBytes 1 cause) s
      let s := raisePlain s.gtc 0x0F44 0 0 0 (leBytes 1 cause) s
      finishDeferred 0x0F0C 0 {} s)

end Sys2Proof.Machine
end

