-- ==== Sys2Proof/Machine/Confirm.lean ====
section
/-! DEFINITION. Confirming a boot (17, R507, R508; 15, R454). -/

namespace Sys2Proof.Machine

/-- The boot has reached its end and is not confirmed yet. -/
def awaitsConfirm (s : State) : Bool := s.boot.stage == 6 && !s.boot.confirmed

/-- A boot is confirmed (R508): the counter is cleared, the running slot is the last confirmed one, the anti-rollback
counter advances to its rollback value (R454). -/
def confirmBoot (s : State) : State :=
  if !awaitsConfirm s then s
  else
    let b := s.sec.running
    let rb := fwRollback (fwSlot s b)
    let s := { s with boot := { s.boot with
      bootCount := 0, confirmed := true, stage := 7, lastConfirmed := some b
      reports := s.boot.reports.set (b2n b) (7, ((s.boot.reports.getD (b2n b) (0, 0)).2)) }
                      sec := { s.sec with candidate := if s.sec.candidate = some b then none else s.sec.candidate } }
    let s := if s.sec.rollback < rb then
        raise0 0x0F46 0 (leBytes 1 rb) { s with sec := { s.sec with rollback := rb } }
      else s
    raise0 0x0168 0 (leBytes 1 (b2n b) ++ leBytes 1 s.boot.policyNow ++ [0, 0] ++ leBytes 4 (fwVersion (fwSlot s b))) s

/-- Under policy 1 or 2 the first valid legacy frame confirms a boot in FS-216 mode (R507). -/
def confirmByFrame (s : State) : State :=
  if s.boot.mode = .fs216 ∧ 1 ≤ s.boot.policyNow then confirmBoot s else s

/-- Under policy 2 an ISOBUS address claimed within 5 s confirms the boot (R507). -/
def confirmByClaim (s : State) : State :=
  if s.boot.policyNow = 2 ∧ s.gtc ≤ s.boot.gtcBoot + 5 * secTicks then confirmBoot s else s

end Sys2Proof.Machine
end

