-- ==== Sys2Proof/Machine/Switches.lean ====
section
/-! DEFINITION. Protected switch channels (09, R280 to R302). The hardware's happenings name the line; a line in HOLD
has no SWITCH and ends its HOLD at any shutdown (R297). -/

namespace Sys2Proof.Machine

/-! ## Latches and faults (R294) -/

/-- The object that SW_FAULT concerns: the one that drives the SWITCH, or that drives the PWMCH which does. -/
def swFaultTarget (s : State) (h : Nat) : Option Nat :=
  match driverOf s h with
  | none => none
  | some d =>
    if d.typ = tyPwmch then some (handleOf ((driverOf s (handleOf d)).getD d)) else some (handleOf d)

/-- SW_FAULT to the driving object (R302). -/
def swFault (h bitsv : Nat) (s : State) : State :=
  match swFaultTarget s h with
  | none => s
  | some x => class1 x 0x0942 (leBytes 4 h ++ leBytes 1 bitsv) s

/-- A section of the legacy block latches, or shows open load: its bit in OCFLT, OTFLT or OLFLT sets, and STAT's (R412,
R416). `b` is the latch bit, 7 open load. -/
def legFlag (i b : Nat) (s : State) : State :=
  if i < legBase then s
  else
    let k := i - legBase
    let l := s.leg
    { s with leg :=
      if b = 7 then { l with olflt := setBit l.olflt k true, stat := setBit l.stat 4 true }
      else if b = 1 then { l with otflt := setBit l.otflt k true, stat := setBit l.stat 3 true }
      else { l with ocflt := setBit l.ocflt k true, stat := setBit l.stat 2 true } }

/-- A latch sets (R294): bit `b` of the latch byte. -/
def swLatch (o : Obj) (b : Nat) (s : State) : State :=
  let h := handleOf o
  let s := swRefresh o.idx (updSw o.idx (fun r => { r with
    latch := setBit r.latch b true, dead := true, retryAt := none, retryWait := false }) s)
  let s := legFlag o.idx b (senseReason h 6 s)
  let s := raise0 0x0941 h (leBytes 1 (2 ^ b)) s
  swFault h (2 ^ b) s

/-- A line in HOLD turns off and leaves it (R297). -/
def holdShutdown (k : Nat) (s : State) : State :=
  { s with isl := { s.isl with hold := s.isl.hold.erase k } }

/-- What happens to the SWITCH of a line; a line in HOLD ends its HOLD when `shutdown` is set. -/
def onLine (k : Nat) (shutdown : Bool) (f : Obj → State → State) (s : State) : State :=
  if s.isl.hold.contains k then (if shutdown then holdShutdown k s else s)
  else match swOnLine s k with
    | none => s
    | some o => f o s

/-! ## Commands (R300) -/

/-- The gate of a static line changes by SW_CMD. -/
def swGate (h : Nat) (on : Bool) (s : State) : State := if on then gateOpen h none s else gateClose h s

/-- What SW_CMD is refused with at acceptance and at its instant (R300, R301). -/
def swCmdBad (s : State) (o : Obj) (on : Bool) : Option Nat :=
  if (driverOf s (handleOf o)).isSome || swSrc o.params == 1 then some 0x0901
  else if !isEnabled o then some stState
  else if on && (swOf o).latch != 0 then some 0x0903
  else none

/-- A pending SW_CMD takes effect (R300). -/
def swCmdRun (x : Deferred) (s : State) : State :=
  match objOf s x.handle with
  | none => completeDeferred x { status := stBadHandle } s
  | some o =>
    match swCmdBad s o (x.arg == 1) with
    | some e => completeDeferred x { status := e } s
    | none =>
      -- after a latch or a spent retry budget a SW_CMD on is the new on command (R295)
      let s := updSw o.idx (fun r => if r.dead && r.retryAt.isNone && !r.retryWait then { r with cmd := false } else r) s
      completeDeferred x {} (swGate x.handle (x.arg == 1) s)

/-- SW_CMD: byte 16 the state, bytes 24 to 31 the take-effect GTC; 0, or a GTC that has passed, acts at acceptance. -/
def bodySwCmd (d : Desc) (o : Obj) (s : State) : State :=
  let on := u8 d.bytes 16
  let g := u64 d.bytes 24
  if 2 ≤ on then fail d stBadParam s
  else match swCmdBad s o (on == 1) with
    | some e => fail d e s
    | none =>
      let x : Deferred := { st := startedOf s d, op := 0x0900, handle := handleOf o, due := g, arg := on }
      let s := defer d 0x0900 (handleOf o) g [] on s
      if g ≤ s.gtc then swCmdRun x s else s

def execSwCmd (d : Desc) (s : State) : Host.Outcome State Fault Refusal := .next (runObj 0x0900 d (bodySwCmd d) s)

/-- SW_CMD_TAKE_EFFECT: at its take-effect GTC the gate changes and SW_CMD completes (R300). -/
def execSwCmdTakeEffect (h : Nat) (s : State) : Host.Outcome State Fault Refusal :=
  .next (match firstDue s 0x0900 h (fun _ => true) with
    | none => s
    | some x => swCmdRun x (toInstant x.due s))

/-- Latches of a mask that stay because their condition has not ended (R295). -/
def swHeld (r : SwRt) (m : Nat) : Nat :=
  let can (b : Nat) : Bool := bit m b && (if b = 1 then fLt r.tj (fk 150) else if b = 2 then fLe r.fuse (fq 1 2) else true)
  ((List.range 4).filter fun b => bit r.latch b && !can b).foldl (fun a b => a + 2 ^ b) 0

/-- SW_CLEAR (R295): byte 16 the latch mask. -/
def bodySwClear (d : Desc) (o : Obj) (s : State) : State :=
  let m := u8 d.bytes 16
  let r := swOf o
  if 16 ≤ m then fail d stBadParam s
  else
    let left := swHeld r m
    let s := updSw o.idx (fun r => { r with latch := left }) s
    if left &&& m = 0 then ok d s else failWith d 0x0902 (leBytes 1 left) s

def execSwClear (d : Desc) (s : State) : Host.Outcome State Fault Refusal := .next (runObj 0x0901 d (bodySwClear d) s)

/-- The largest of some floats. -/
def fMaxOf : List F32 → F32
  | [] => fZero
  | [x] => x
  | x :: xs => fMax x (fMaxOf xs)

/-- SW_GROUP_STATUS (R281, R300). -/
def bodySwGroupStatus (d : Desc) (s : State) : State :=
  let onIn (p : Nat → Bool) : Nat := ((objsOf s tySwitch).filter fun o => (swOf o).out && p (swLine o.act)).length
    + (s.isl.hold.filter p).length
  let rec1 (g : Nat) : List Byte :=
    fBytes (s.swd.means.getD g 0) ++ fBytes (if g = 4 then fMaxOf s.swd.tcase else s.swd.tcase.getD g 0)
      ++ leBytes 2 (onIn fun k => g == 4 || lineGroup k == g) ++ [0, 0]
  writeBack d ((List.range 5).flatMap rec1 ++ List.replicate 4 0) {} s

def execSwGroupStatus (d : Desc) (s : State) : Host.Outcome State Fault Refusal :=
  .next (runDesc 0x0902 d (bodySwGroupStatus d) s)

/-! ## IN pins (R283, R284) -/

/-- The IN pin of one SWITCH takes a level: an active level after at least 1 ms inactive is an on command. -/
def swInEdge (act : Bool) (i : Nat) (s : State) : State :=
  match objAt s i with
  | none => s
  | some o =>
    let r := swOf o
    if r.inAct == act then s
    else if !act then swRefresh i (updSw i (fun r => { r with inAct := false, inSince := s.gtc }) s)
    else
      let s := updSw i (fun r => { r with inAct := true }) s
      if r.inSince + msTicks ≤ s.gtc ∧ isEnabled o then
        swOnCmd i (updSw i (fun r => { r with cmd := false, retryAt := none, retryWait := false }) s)
      else swRefresh i s

/-- A GPIO's new filtered level reaches the switches whose IN pin it is (R283). -/
def swInput (gpio : Nat) (level : Bool) (s : State) : State :=
  ((objsOf s tySwitch).filter fun o => swSrc o.act == 1 && u8 o.act 2 == gpio).foldl
    (fun s o => swInEdge (level != bit (u8 o.act 6) 0) o.idx s) s

/-! ## Overcurrent and retries (R285, R288) -/

/-- SW_CURRENT_LIMIT: the current has reached 8 A at `t`. -/
def execSwCurrentLimit (line t : Nat) (s : State) : Host.Outcome State Fault Refusal :=
  .next (onLine line false (fun o s =>
    if !(swOf o).out || (swOf o).limAt.isSome then s
    else
      let s := toInstant t s
      senseReason (handleOf o) 6 (updSw o.idx (fun r => { r with
        limAt := some s.gtc, limInrush := decide (s.gtc ≤ r.turnOn + u16 o.act 18 * msTicks) }) s)) s)

/-- An overcurrent shutdown (R288): the retry wait starts, or with no retry left OVERCURRENT latches. -/
def swShutdown (o : Obj) (cause : Nat) (s : State) : State :=
  let h := handleOf o
  let left := (swOf o).retries
  let s := updSw o.idx (fun r => { r with
    ocLimit := if cause = 0 then satInc 32 r.ocLimit else r.ocLimit
    ocShort := if cause = 1 then satInc 32 r.ocShort else r.ocShort
    dead := true
    retryAt := if left = 0 then none else some (s.gtc + u16 o.act 20 * msTicks) }) s
  let s := swRefresh o.idx s
  let s := raiseLimited (100 * msTicks) 0x0940 0 h 0 0 (leBytes 1 cause ++ leBytes 1 left ++ List.replicate 6 0) 4 4 s
  let s := senseReason h 6 s
  if left = 0 then swLatch o 0 s else s

/-- SW_LIMIT_TIMEOUT: the limit time ends (R285). -/
def execSwLimitTimeout (line : Nat) (s : State) : Host.Outcome State Fault Refusal :=
  .next (onLine line true (fun o s =>
    match (swOf o).limAt with
    | none => s
    | some t =>
      swShutdown o 0 (toInstant (t + u16 o.act (if (swOf o).limInrush then 16 else 14) * usTicks) s)) s)

/-- SW_SHORT_CIRCUIT: the output is below 4 V while limiting; the shutdown at `t` comes no earlier than the end of
sc_blank (R285). -/
def execSwShortCircuit (line t : Nat) (s : State) : Host.Outcome State Fault Refusal :=
  .next (onLine line true (fun o s =>
    if (swOf o).limAt.isNone then s
    else swShutdown o 1 (toInstant (max t ((swOf o).turnOn + u16 o.act 22 * usTicks)) s)) s)

/-- A thermal condition holds (R288). -/
def swThermal (r : SwRt) : Bool := r.dtOff || bit r.latch 1

/-- The on command has ended (R284, R288): an IN pin inactive for 1 ms, else the gate closed. -/
def swCmdEnded (s : State) (o : Obj) : Bool :=
  let r := swOf o
  if swSrc o.act = 1 then !r.inAct && decide (r.inSince + msTicks ≤ s.gtc) else !r.cmd

/-- A retry proceeds: the control line is followed again (R288). -/
def swRestart (o : Obj) (s : State) : State :=
  let s := updSw o.idx (fun r => { r with retryAt := none, retryWait := false }) s
  if swCmdEnded s o || (swOf o).latch != 0 then s
  else swRefresh o.idx (updSw o.idx (fun r => { r with retries := r.retries - 1, dead := false }) s)

/-- SW_RETRY_DELAY_END (R288). -/
def execSwRetryDelayEnd (line : Nat) (s : State) : Host.Outcome State Fault Refusal :=
  .next (onLine line false (fun o s =>
    match (swOf o).retryAt with
    | none => s
    | some t =>
      let s := toInstant t s
      if swThermal (swOf o) then updSw o.idx (fun r => { r with retryAt := none, retryWait := true }) s else swRestart o s) s)

/-- SW_THERMAL_CONDITION_END: a waiting retry proceeds once no thermal condition holds (R288). -/
def execSwThermalConditionEnd (line : Nat) (s : State) : Host.Outcome State Fault Refusal :=
  .next (onLine line false (fun o s => if (swOf o).retryWait && !swThermal (swOf o) then swRestart o s else s) s)

/-! ## Temperature (R286, R287) -/

/-- Temperatures as measured. -/
def swTemps (o : Obj) (tj tcase : F32) (s : State) : State :=
  updSw o.idx (fun r => { r with tj := tj })
    { s with swd := { s.swd with tcase := s.swd.tcase.set (lineGroup (swLine o.act)) tcase } }

/-- SW_DT_LIMIT_REACHED: ΔT has reached dt_limit (R286). -/
def execSwDtLimitReached (line : Nat) (tj tcase : F32) (s : State) : Host.Outcome State Fault Refusal :=
  .next (onLine line true (fun o s =>
    let r := swOf o
    let s := swTemps o tj tcase s
    if r.dtOff || !(r.out || r.retryAt.isSome) || !fLe (fk (u8 o.act 7)) (fSub tj tcase) then s
    else
      let s := swRefresh o.idx (updSw o.idx (fun r => { r with
        dtOff := true, dtCycles := if r.out then satInc 32 r.dtCycles else r.dtCycles }) s)
      let s := senseReason (handleOf o) 6 s
      raiseLimited secTicks 0x0943 0 (handleOf o) 1 0 [1] 0 0 s) s)

/-- SW_DT_RECOVER: ΔT has fallen 15 K below the limit (R286). -/
def execSwDtRecover (line : Nat) (tj tcase : F32) (s : State) : Host.Outcome State Fault Refusal :=
  .next (onLine line false (fun o s =>
    let s := swTemps o tj tcase s
    if !(swOf o).dtOff || !fLe (fSub tj tcase) (fk ((u8 o.act 7 : Int) - 15)) then s
    else raiseLimited secTicks 0x0943 0 (handleOf o) 0 0 [0] 0 0 (swRefresh o.idx (updSw o.idx (fun r => { r with dtOff := false }) s))) s)

/-- SW_THERMAL_LATCH: the junction has reached 170 °C (R287). -/
def execSwThermalLatch (line : Nat) (tj : F32) (s : State) : Host.Outcome State Fault Refusal :=
  .next (onLine line true (fun o s =>
    if !fLe (fk 170) tj || bit (swOf o).latch 1 then s else swLatch o 1 (updSw o.idx (fun r => { r with tj := tj }) s)) s)

/-! ## Fuse (R289) -/

/-- The default fuse curve, as points of a linear curve image. -/
def defaultFuse : List Byte :=
  [1, 1, 0, 0] ++ leBytes 4 56 ++ leBytes 4 0 ++ leBytes 2 5 ++ [1, 0]
    ++ ([(fq 5 2, fk 3600), (fk 4, fk 60), (fk 6, fk 10), (fk 8, fk 2), (fk 10, fq 1 2)].flatMap fun p => fBytes p.1 ++ fBytes p.2)

/-- `exp(-1/n)` in units of 2^-128, by its series. -/
def expNegAux (n : Nat) : Nat → Nat → Int → Int → Int
  | 0, _, _, acc => acc
  | fuel + 1, k, term, acc =>
    let t := -(term / ((n * k : Nat) : Int))
    expNegAux n fuel (k + 1) t (acc + t)
def expNegRecip (n : Nat) : Int := expNegAux n 24 1 (2 ^ 128) (2 ^ 128)

/-- One step of the integrator on a current above the curve's first point, whose curve value is `y`: exact arithmetic, its
rounding open (log 9). -/
def fuseRise (y f : F32) : F32 := fOpen 20 (fVal f * 1000 * fVal y + 2 ^ 298) (2 ^ 149 * 1000 * (fVal y).toNat)

/-- One step of a SWITCH's integrator: by its bound curve, evaluated as R98 has it, or by the default one. -/
def fuseNext (o : Obj) (f irms : F32) (s : State) : F32 × State :=
  let curve := (tableOf s (u32 o.act 8)).getD defaultFuse
  if fLt (curveX curve 0) irms then
    let x := if u32 o.act 8 = 0 then (curveEval curve irms, s) else curveAt (u32 o.act 8) irms s
    (fuseRise x.1 f, x.2)
  else (fOpen 21 (fVal f * expNegRecip (u16 o.act 12)) (2 ^ 277), s)

/-- The samples of a millisecond go into the second's mean of their group (R281). -/
def groupAdd (line : Nat) (codes : List Code) (s : State) : State :=
  { s with swd := { s.swd with acc := s.swd.acc.mapIdx fun g n => if g = lineGroup line then n + codeSum codes else n } }

/-- SW_FUSE_TICK: 1 ms of a line: its last 1,000 conversions and its temperatures (R289, R292, R299). -/
def execSwFuseTick (line : Nat) (codes : List Code) (tj tcase : F32) (s : State) : Host.Outcome State Fault Refusal :=
  let codes := currentCodes s line codes
  .next (onLine line false (fun o s =>
    let s := swTemps o tj tcase s
    let r := swOf o
    let x := fuseNext o r.fuse (if r.out then switchRms codes else fZero) s
    let f := x.1
    let s := x.2
    let s := updSw o.idx (fun r => { r with current := switchMean codes, iPeak := fMax r.iPeak (switchPeak codes), fuse := f }) s
    if isEnabled o && fLe fOne f && !bit r.latch 2 then swLatch o 2 s else s) (groupAdd line codes s))

/-! ## Clamp and open load (R290, R291) -/

/-- SW_CLAMP_EVENT: a turn-off whose clamp conducted for `us` µs. -/
def execSwClampEvent (line us : Nat) (s : State) : Host.Outcome State Fault Refusal :=
  .next (onLine line false (fun o s =>
    let recent := ((swOf o).clampAt.filter fun t => decide (s.gtc < t + secTicks)) ++ [s.gtc]
    let s := updSw o.idx (fun r => { r with clamps := satInc 32 r.clamps, clampAt := recent }) s
    let s := raiseLimited secTicks 0x0944 0 (handleOf o) 0 0 (satBytes 1 recent.length) 0 0 s
    if (8 ≤ recent.length ∨ 200 < us) ∧ ¬ bit (swOf o).latch 3 then swLatch o 3 s else s) s)

/-- The open-load threshold [µA]: ol_th in 0.5 mA units, a standard-range value rounded down to a multiple of 10 (R291). -/
def olThreshold (ps : List Byte) : Nat := (if u8 ps 5 = 1 then u16 ps 24 / 10 * 10 else u16 ps 24) * 500

/-- SW_OPEN_LOAD_INTERVAL: an on-interval of `us` µs has ended, `peak` its largest current after ol_blank [µA]. -/
def execSwOpenLoadInterval (line us peak : Nat) (s : State) : Host.Outcome State Fault Refusal :=
  .next (onLine line false (fun o s =>
    let r := swOf o
    let h := handleOf o
    if !isEnabled o || u8 o.act 5 == 0 || us ≤ u16 o.act 26 then s
    else if peak < olThreshold o.act then
      let s := updSw o.idx (fun r => { r with olRun := r.olRun + 1 }) s
      if r.openLoad ∨ r.olRun + 1 < u8 o.act 28 then s
      else
        let s := updSw o.idx (fun r => { r with openLoad := true, olEvents := satInc 32 r.olEvents }) s
        let s := raise0 0x0945 h [1] (legFlag o.idx 7 (senseReason h 6 s))
        if bit (u8 o.act 6) 1 then swFault h 0x80 s else s
    else
      let s := updSw o.idx (fun r => { r with olRun := 0, openLoad := false }) s
      if r.openLoad then raise0 0x0945 h [0] s else s) s)

/-- The mean of a completed second's 1 ms means, from the sum `n` of its codes at 2.5 mA (R281), as a fraction [A]. -/
def groupMean (n : Nat) : Nat × Nat := (n * 25, 10 ^ 10)

/-- SW_GROUP_AVERAGE: a second is complete: the averages of the groups and the device (R281). -/
def execSwGroupAverage (s : State) : Host.Outcome State Fault Refusal :=
  .next (
    let ns := s.swd.acc ++ [s.swd.acc.foldl (· + ·) 0]
    let s := { s with swd := { s.swd with means := ns.map fun n => fOpen 100 (groupMean n).1 (groupMean n).2, acc := [0, 0, 0, 0] } }
    (List.range 5).foldl (fun s g =>
      let m := groupMean (ns.getD g 0)
      if (if g = 4 then 36 else 10) * m.2 < m.1 then
        raise0 0x0946 0 (leBytes 1 g ++ [0, 0, 0] ++ leBytes 4 (roundOpen 22 (m.1 * 1000) m.2).toNat) s
      else s) s)

/-! ## Status (R299) -/

def swStatus (s : State) (o : Obj) : List Byte :=
  let r := swOf o
  let k := swLine o.act
  let held := s.isl.hold.contains k
  let out := b2n (r.out || held) + 2 * b2n (swLevel s o) + 4 * b2n r.limAt.isSome + 8 * b2n r.dtOff
    + 16 * b2n (r.retryAt.isSome || r.retryWait) + 32 * b2n r.openLoad + 64 * b2n (held || r.adopted)
    + 128 * b2n (safeForced s || s.isl.estopLatch)
  leBytes 1 out ++ leBytes 1 r.latch ++ leBytes 1 r.retries ++ [0] ++ fBytes r.current ++ fBytes r.iPeak ++ fBytes r.fuse
    ++ fBytes r.tj ++ fBytes (s.swd.tcase.getD (lineGroup k) 0) ++ leBytes 4 r.ocLimit ++ leBytes 4 r.ocShort ++ leBytes 4 r.dtCycles
    ++ leBytes 4 r.clamps ++ leBytes 4 r.olEvents ++ leBytes 4 r.onCmds ++ leBytes 8 r.lastOn

end Sys2Proof.Machine
end

