-- ==== Sys2Proof/Machine/Legacy.lean ====
section
/-! DEFINITION. The FS-216 block without its frames (14, R404 to R431): entry, sections, the tick, ENA_N, communication loss,
the password interface, promotion and status. -/

namespace Sys2Proof.Machine

def tickTicks : Nat := 480000

/-! ## Entry (R405, R406, R416) -/

/-- The switch block of section `k`: the settings of R416, which are the defaults but for line, retries and ol_mode. -/
def legParams (cfg k : Nat) : List Byte :=
  putAt (putAt (putAt (paramDefaults tySwitch) 0 (leBytes 1 (legLine k))) 4 (leBytes 1 (bits cfg 2 2))) 5 (leBytes 1 (bits cfg 0 1))

def legObj (s : State) (k : Nat) : Option Obj := objAt s (legBase + k)

/-- Section `k` at entry: off. What the channel itself holds, its temperature, its fuse state and the latches whose condition
persists (R416), outlasts a SOFTRST. -/
def legSection (s : State) (cfg k : Nat) : Obj :=
  let r := ((legObj s k).map swOf).getD {}
  { idx := legBase + k, typ := tySwitch, gen := 256, ost := .enabled, params := legParams cfg k, act := legParams cfg k
    rt := .sw { tj := r.tj, fuse := r.fuse, latch := swHeld r 15, dead := swHeld r 15 != 0 } }

/-- Entry into the mode, or SOFTRST: sections off, registers at reset, interface locked, the loss timer started. -/
def legEntry (s : State) : State :=
  let l := s.leg
  let leg : Leg := {
    active := true, password := l.password, pwdNew := l.pwdNew, record := l.record, recordDue := l.recordDue
    fails := l.fails, lockLen := l.lockLen, lockEnd := l.lockEnd, stat := 2, armed := true, enaHigh := l.enaHigh, tick := s.gtc, frameAt := s.gtc
    framesOk := l.framesOk, framesBad := l.framesBad, comLosses := l.comLosses, attemptsBad := l.attemptsBad }
  { s with leg := leg, objs := (s.objs.filter fun o => o.idx < legBase) ++ (List.range 16).map (legSection s leg.cfg) }

/-- Entry at the end of boot: the firmware arms the watchdog with 250 ms (R405). -/
def legBoot (s : State) : State :=
  let s := legEntry { s with leg := { s.leg with framesOk := 0, framesBad := 0, comLosses := 0, attemptsBad := 0 } }
  { s with isl := { s.isl with wdtEn := true, wdtRunning := true, wdtTimeout := 250, wdtServed := s.gtc, wdtBad := 0 } }

/-! ## Sections (R413 to R416) -/

/-- A section is held off by ENA_N or its MASK bit (R415). -/
def legHeld (s : State) (k : Nat) : Bool := s.leg.enaHigh || bit s.leg.mask k

/-- The line of section `k` is asked on or off; a turn-on is an on command (R416). -/
def legDrive (k : Nat) (on : Bool) (s : State) : State :=
  match legObj s k with
  | none => s
  | some o =>
    if (swOf o).gate == on then s
    else
      let s := updSw o.idx (fun r => { r with gate := on, cmd := if on then false else r.cmd }) s
      if on then swOnCmd o.idx s else swOffCmd o.idx s

def legWant (k : Nat) (on : Bool) (s : State) : State := { s with leg := { s.leg with want := setBit s.leg.want k on } }

/-- The requested state of a section comes into force. -/
def legApply (k : Nat) (on : Bool) (s : State) : State := legDrive k (on && !legHeld s k) (legWant k on s)

/-- The first tick at or after an instant. -/
def tickAtOrAfter (t : Nat) : Nat := (t + tickTicks - 1) / tickTicks * tickTicks
def nextTick (t : Nat) : Nat := t / tickTicks * tickTicks + tickTicks

/-- OUTST: the output states. -/
def legOutst (s : State) : Nat :=
  ((List.range 16).map fun k => if ((legObj s k).map fun o => (swOf o).out).getD false then 2 ^ k else 0).foldl (· + ·) 0

/-- The state that a section is going to: a pending change, a place in the queue, else the one in force. -/
def legTarget (s : State) (k : Nat) : Bool :=
  match s.leg.pend.find? fun x => x.1 == k with
  | some x => x.2.1
  | none => s.leg.queue.contains k || bit s.leg.want k

/-- A section that a shutdown left off and whose latches are clear turns on again by a 1 that takes back the pending off
change (R416): the 1 is a new on command. -/
def legAgain (k : Nat) (s : State) : State :=
  match legObj s k with
  | none => s
  | some o =>
    let r := swOf o
    if r.gate && r.dead && r.latch == 0 && r.retryAt.isNone && !r.retryWait then
      legDrive k true (updSw o.idx (fun r => { r with gate := false, cmd := false }) s)
    else s

/-- A section's OUT bit is written at the edge `t` (R413, R414). -/
def legOutBit (k : Nat) (on : Bool) (t : Nat) (s : State) : State :=
  if legTarget s k == on then s
  else
    -- a return under R414 that is still due stands where an off change is taken back
    let p := s.leg.pend.filter fun x => x.1 != k || x.2.1 == on
    let q := s.leg.queue.filter fun x => x != k || on
    let s := { s with leg := { s.leg with pend := p, queue := q } }
    if bit s.leg.want k == on || legTarget s k == on then (if on then legAgain k s else s)
    else
      let d := s.leg.dly.getD k 0
      let ms := 4 * if on then d % 256 else d / 256
      { s with leg := { s.leg with pend := s.leg.pend ++ [(k, on, tickAtOrAfter (t + ms * msTicks))] } }

/-- A write of OUT (R413, R416): a bit at 0 clears the section's latches whose condition has ended. -/
def legOutWrite (v t : Nat) (s : State) : State :=
  (List.range 16).foldl (fun s k =>
    let on := bit v k
    let s := if on then s else updSw (legBase + k) (fun r => { r with latch := swHeld r 15 }) s
    legOutBit k on t s) { s with leg := { s.leg with out := v } }

/-- A section that is held off no more turns on at the next tick, staggered (R414). -/
def legReturn (k : Nat) (s : State) : State :=
  if bit s.leg.want k && !legHeld s k && !((legObj s k).map fun o => (swOf o).gate).getD false then
    { (legWant k false s) with leg := { (legWant k false s).leg with pend := s.leg.pend ++ [(k, true, nextTick s.gtc)] } }
  else s

/-- Sections follow ENA_N and MASK. -/
def legFollow (s : State) : State :=
  (List.range 16).foldl (fun s k => if legHeld s k then legDrive k false s else legReturn k s) s

/-- ENA_N_EDGE: GPIO47 changes (R415). -/
def execEnaNEdge (high : Bool) (s : State) : Host.Outcome State Fault Refusal :=
  .next (
    if !s.leg.active then s
    else legFollow { s with leg := { s.leg with enaHigh := high, stat := setBit s.leg.stat 7 (bit s.leg.stat 7 || high) } })

/-- One turn-on from the queue. -/
def legTurn (s : State) : State :=
  match s.leg.queue with
  | [] => s
  | k :: r => legApply k true { s with leg := { s.leg with queue := r, stagAt := s.gtc + s.leg.stagger * msTicks } }

/-- Turn-ons of the queue at a tick: one, or with STAGGER 0 all. -/
def legTurns (s : State) : Nat → State
  | 0 => s
  | n + 1 => if s.leg.queue.isEmpty || decide (s.gtc < s.leg.stagAt) then s else legTurns (legTurn s) n

/-- Bits whose condition persists set again (R411). -/
def legSticky (s : State) : State :=
  let latched (f : SwRt → Bool) : Nat := ((List.range 16).map fun k => if ((legObj s k).map fun o => f (swOf o)).getD false then 2 ^ k else 0).foldl (· + ·) 0
  let oc := s.leg.ocflt ||| latched fun r => bit r.latch 0 || bit r.latch 2 || bit r.latch 3
  let ot := s.leg.otflt ||| latched fun r => bit r.latch 1
  let ol := s.leg.olflt ||| latched fun r => r.openLoad
  let st := s.leg.stat ||| (4 * b2n (oc != 0) + 8 * b2n (ot != 0) + 16 * b2n (ol != 0)
    + 32 * b2n (decide (s.pwr.vbat.getD 0 0 < 900)) + 128 * b2n s.leg.enaHigh)
  { s with leg := { s.leg with ocflt := oc, otflt := ot, olflt := ol, stat := st } }

/-- LEGACY_TICK: changes that are due act: turn-offs, then turn-ons in ascending section through the queue; the legacy job
services the watchdog (R405, R413, R414). -/
def execLegacyTick (s : State) : Host.Outcome State Fault Refusal :=
  .next (
    if !s.leg.active then s
    else
      let s := toInstant (max (nextTick s.leg.tick) (s.gtc / tickTicks * tickTicks)) s
      let due := s.leg.pend.filter fun x => decide (x.2.2 ≤ s.gtc)
      let offs := due.filter fun x => !x.2.1
      let ons := (List.range 16).filter fun k => (due.any fun x => x.2.1 && x.1 == k) && !(offs.any fun x => x.1 == k)
      let s := { s with
        leg := { s.leg with tick := s.gtc, queue := s.leg.queue.filter fun k => !(offs.any fun x => x.1 == k), pend := s.leg.pend.filter fun x => decide (s.gtc < x.2.2) }
        isl := { s.isl with wdtServed := s.gtc } }
      let s := offs.foldl (fun s x => legApply x.1 false s) s
      let held := ons.filter (legHeld s)
      let s := held.foldl (fun s k => legWant k true s) s
      let wait := ons.filter fun k => !legHeld s k
      let s := { s with leg := { s.leg with
        stagAt := if s.leg.queue.isEmpty then s.gtc else s.leg.stagAt, queue := s.leg.queue ++ wait } }
      legSticky (legTurns s 16))

/-- A promotion that waits is cancelled. -/
def legCancel (status : Nat) (s : State) : State :=
  if s.leg.promoting then finishDeferred 0x0E00 0 { status := status } { s with leg := { s.leg with promoting := false } } else s

/-- LEGACY_COMLOSS: 500 ms after the last valid frame, or after entry (R420). -/
def execLegacyComloss (s : State) : Host.Outcome State Fault Refusal :=
  .next (
    if !s.leg.active || !s.leg.armed then s
    else
      let s := toInstant (s.leg.frameAt + 500 * msTicks) s
      let was := legOutst s
      let s := { s with leg := { s.leg with
        pend := [], queue := [], out := 0, unlocked := false, keyHi := none, pwdHi := none, armed := false
        stat := setBit s.leg.stat 0 true, comLosses := satInc 32 s.leg.comLosses } }
      let s := (List.range 16).foldl (fun s k => legApply k false s) s
      legCancel 0x0E01 (raise0 0x0E40 0 (leBytes 2 was) s))

/-! ## The password interface (R421) -/

def legPassword (s : State) : Nat := s.leg.pwdNew.getD s.leg.password

/-- A failed attempt: from the fifth on each starts a lockout. -/
def legFail (s : State) : State :=
  let n := min 255 (s.leg.fails + 1)
  let len := if n < 5 then 0 else if s.leg.lockLen = 0 then 30 else min 3600 (2 * s.leg.lockLen)
  let s := { s with leg := { s.leg with
    fails := n, attemptsBad := satInc 32 s.leg.attemptsBad
    lockLen := if n < 5 then s.leg.lockLen else len
    lockEnd := if n < 5 then s.leg.lockEnd else some (s.gtc + len * secTicks) } }
  raise0 0x0E41 0 (leBytes 1 n ++ [0, 0, 0] ++ leBytes 4 len) s

/-- A write of KEY_LO outside a lockout. -/
def legUnlock (lo : Nat) (hi : Option Nat) (s : State) : State :=
  if hi.any fun h => h * 65536 + lo == legPassword s then
    { s with leg := { s.leg with unlocked := true, fails := 0, lockLen := 0 } }
  else legFail s

/-- A new password; its MRAM write waits while a supply warning runs. -/
def legNewPwd (v : Nat) (s : State) : State :=
  if v = 0xFFFFFFFF then s
  else if s.pwr.bow then { s with leg := { s.leg with pwdNew := some v } }
  else { s with leg := { s.leg with password := v, pwdNew := none } }

/-- MRAM writes of the block that a supply warning deferred proceed (R489). -/
def legSavesRun (s : State) : State :=
  { s with leg := { s.leg with
    password := legPassword s, pwdNew := none, record := s.leg.record || s.leg.recordDue, recordDue := false } }

/-- LEGACY_LOCKOUT_END. -/
def execLegacyLockoutEnd (s : State) : Host.Outcome State Fault Refusal :=
  .next (match s.leg.lockEnd with
    | none => s
    | some t => let s := toInstant t s; { s with leg := { s.leg with lockEnd := none } })

/-! ## Promotion (R426 to R428) -/

/-- STAT as FS_STATUS and the register show it. -/
def legStat (s : State) : Nat := s.leg.stat + 256 * b2n s.leg.promoting

def popCount (n : Nat) : Nat := ((List.range 16).filter (bit n)).length

/-- FS_PROMOTE: accepted, it waits for its boundary. -/
def bodyFsPromote (d : Desc) (s : State) : State :=
  let b := blockOf s d
  let wd := u32 b 4
  if s.leg.promoting then fail d stState s
  else if u16 b 2 ≠ 0 ∨ (wd ≠ 0 ∧ (wd < 10 ∨ 60000 < wd)) ∨ (wd = 0 ∧ s.isl.locked) then fail d stBadParam s
  else if (freeIndices s).length < popCount (u16 b 0) then fail d stNoResource s
  else defer d 0x0E00 0 (takeEffect s.gtc (u64 b 8)) [] (u16 b 0 + 65536 * wd) { s with leg := { s.leg with promoting := true } }

def execFsPromote (d : Desc) (s : State) : Host.Outcome State Fault Refusal := .next (runDesc 0x0E00 d (bodyFsPromote d) s)

/-- A kept section becomes a SWITCH with a handle of its own (R427); the handle, and the state. -/
def legKeep (k : Nat) (s : State) : Nat × State :=
  match legObj s k, takeIndex s with
  | some o, some (x, s) =>
    let r := swOf o
    let n : Obj := { o with
      idx := x.1, gen := x.2, changed := s.gtc
      rt := .sw { r with gate := r.out, cmd := r.out, retries := u8 o.act 4, retryAt := none, retryWait := false, dead := r.latch != 0 } }
    (handleOf n, { s with objs := insertObj n (s.objs.filter fun x => x.idx != o.idx) })
  | _, _ => (0, s)

/-- The promotion at boundary B. -/
def legPromote (x : Deferred) (s : State) : State :=
  let keep := x.arg % 65536
  let wd := x.arg / 65536
  let on := legOutst s
  let r := (List.range 16).foldl (fun (r : List Nat × State) k =>
    if bit keep k then let y := legKeep k r.2; (r.1 ++ [y.1], y.2) else (r.1 ++ [0], r.2)) ([], s)
  let s := r.2
  let s := { s with
    objs := s.objs.filter fun o => o.idx < legBase
    leg := { s.leg with
      active := false, promoting := false, unlocked := false, pend := [], queue := [], reply := none
      record := s.leg.record || !s.pwr.bow, recordDue := s.pwr.bow }
    boot := { s.boot with mode := .native }
    isl := { s.isl with
      wdtEn := wd != 0, wdtRunning := wd != 0, wdtTimeout := if wd = 0 then s.isl.wdtTimeout else wd
      wdtServed := s.gtc, wdtBad := 0 } }
  let s := match ptrWrite (dBlockPtr x.st.desc + 16) (r.1.flatMap (leBytes 4)) s with
    | some s => s
    | none => s
  let s := completeDeferred x { writeback := true, result := leBytes 2 on } s
  raise0 0x0E42 0 (leBytes 2 on ++ leBytes 1 (b2n s.leg.record)) s

/-- PROMOTION_TAKE_EFFECT: at B, the first boundary from the take-effect GTC on with no legacy change pending. -/
def execPromotionTakeEffect (s : State) : Host.Outcome State Fault Refusal :=
  .next (match deferredOf s 0x0E00 0 with
    | none => s
    | some x =>
      if !s.leg.pend.isEmpty || !s.leg.queue.isEmpty then s
      else legPromote x (toInstant (max x.due (boundaryAt s.gtc)) s))

/-! ## Status and pins (R422, R429) -/

/-- FS_STATUS. -/
def bodyFsStatus (d : Desc) (s : State) : State :=
  let l := s.leg
  writeBack d (leBytes 2 l.out ++ leBytes 2 (legOutst s) ++ leBytes 2 l.mask ++ leBytes 2 (legStat s) ++ satBytes 4 l.framesOk
    ++ satBytes 4 l.framesBad ++ satBytes 4 l.comLosses ++ satBytes 4 l.attemptsBad ++ List.replicate 8 0) {} s

def execFsStatus (d : Desc) (s : State) : Host.Outcome State Fault Refusal := .next (runDesc 0x0E01 d (bodyFsStatus d) s)

/-- HOST_INT_N is low (R56, R422). -/
def hostIntLow (s : State) : Bool :=
  (linkSpi s && (List.range 32).any fun v => bit s.hif.intPend v && !bit s.hif.intMask v)
    || (s.leg.active && legStat s &&& s.leg.inten != 0)

/-- A condition of the legacy block holds FAULT_N low (R422). -/
def legFaultLow (s : State) : Bool :=
  s.leg.active && (List.range 16).any fun k => ((legObj s k).map fun o =>
    (swOf o).latch != 0 || (bit s.leg.cfg 1 && (swOf o).openLoad)).getD false

end Sys2Proof.Machine
end

