-- ==== Sys2Proof/Machine/Rings.lean ====
section
/-! DEFINITION. Host rings (02, R35 to R57, R67, R68, R545, R547): enabling and resetting rings, doorbells, fetching
descriptors, holding and draining events, failed accesses, pausing and detaching. -/

namespace Sys2Proof.Machine

/-- Entry size of ring `r` (02, Where rings live). -/
def entrySize (r : Nat) : Nat := if r < 16 then 64 else 32

/-- RING_CFG as fields of a ring. -/
def ringCfg (cfg : Nat) (g : Ring) : Ring :=
  { g with loc := bit cfg 30, prio := bits cfg 28 2, bind := bits cfg 24 4, vector := bits cfg 16 5, size := bits cfg 0 13 }

/-- The mailbox offset of a mailbox ring's base, which may carry bit 63 (R34). -/
def mailboxBase (g : Ring) : Nat := g.base % 2 ^ 63

/-- The first check of R35 that fails. -/
def ringCheck (s : State) (r : Nat) (g : Ring) : Option Nat :=
  if g.base % entrySize r ≠ 0 then some 1
  else if g.size < 2 ∨ 4096 < g.size then some 2
  else if g.loc ∧ mailboxSize < mailboxBase g + g.size * entrySize r then some 1
  else if r < 16 ∧ ¬ (ringOf s (16 + g.bind)).en then some 3
  else if linkSpi s ∧ ¬ g.loc then some 4
  else none

/-- RING_ENABLE: RING_CFG of ring `r` is written with EN = 1 (R35). A ring that is enabled ignores the write. -/
def execRingEnable (r cfg : Nat) (s : State) : Host.Outcome State Fault Refusal :=
  .next (if 38 ≤ r ∨ (ringOf s r).en then s
  else
    let g := ringCfg cfg (ringOf s r)
    match ringCheck s r g with
    | some e => setRing r (fun _ => { g with error := true, err := e }) s
    | none => setRing r (fun _ => { g with
        en := true, error := false, err := 0, head := 0, tail := 0, phase := true, reserved := 0, unsig := 0, fenced := none }) s)

/-- RING_ERROR, HOST_DMA_FAULT, HIF_REATTACHED, EVENT_LOST (R66). -/
def evEventLost : Nat := 0x0080
def evRingError : Nat := 0x0081
def evReattached : Nat := 0x0082
def evHostDma : Nat := 0x0083

/-- An SQ reset (R36): fetching stops, the unfetched descriptors are dropped, the bound session closes. -/
def resetSq (r : Nat) (s : State) : State :=
  let s := sessionClose r closeRing s
  sqResetEnd r (setRing r (fun g => { g with resetting := true, tail := g.head, fenced := none }) s)

/-- Some enabled SQ is bound to CQ ring `r` (R36). -/
def cqBound (s : State) (r : Nat) : Bool :=
  (List.range 16).any fun q => (ringOf s q).en && (ringOf s q).bind + 16 == r

/-- A CQ reset (R36, R48). -/
def resetCq (r : Nat) (s : State) : State :=
  if cqBound s r then setRing r (fun g => { g with err := 9 }) s
  else
    let s := setRing r (fun g => { g with
      en := false, error := false, err := 0, lost := 0, reserved := 0, head := 0, tail := 0, unsig := 0 }) s
    { s with hif := { s.hif with kept := s.hif.kept.filter fun k => k.cq != r } }

/-- An EQ or stream ring reset (R36). -/
def resetEq (r : Nat) (s : State) : State :=
  setRing r (fun g => { g with en := false, error := false, err := 0, lost := 0, head := 0, tail := 0, unsig := 0 }) s

/-- The HIF registers after a detach (R68), with what the device keeps: held events and what executes. -/
def hifDetached (h : Hif) (link : Nat) : Hif :=
  { h with
    errVec := 0, sealReq := false, ringsEn := false, heldOvf := false, dbInvalid := false, dmaFault := false
    detachSeen := true, configLost := false, link := link, intPend := 0, intMask := 0, evqMap := 0
    rings := List.replicate 38 {}, kept := []
    dropped := 0, complDropped := h.complDropped + h.kept.length
    reattach := true, errDue := false, lastSq := 15
    started := h.started.map fun x => { x with orphan := true }
    deferred := h.deferred.map fun x => { x with st := { x.st with orphan := true } } }

/-- A detach (R68): only the host interface is reset; sessions close (R449). A lost PCIe link reads LINK 0b00; causes:
0 Function Level Reset, 1 hot reset, 2 link-down, 3 PERST, 4 VIO_H loss, 5 HIF_RING_RESET 0xFFFF. -/
def detach (cause : Nat) (s : State) : State :=
  let s := sessionsCloseAll closeRing s
  let link := if linkSpi s then 3 else if 1 ≤ cause ∧ cause ≤ 4 then 0 else s.hif.link
  { s with hif := hifDetached s.hif link }

/-- HOST_DETACH (R68, R493). -/
def execHostDetach (cause : Nat) (s : State) : Host.Outcome State Fault Refusal := .next (detach cause s)

/-- HIF_RING_RESET (R36). -/
def execHifRingReset (r : Nat) (s : State) : Host.Outcome State Fault Refusal :=
  .next (
    if r = 0xFFFF then detach 5 s
    else if r < 16 then resetSq r s
    else if r < 32 then resetCq r s
    else if r < 38 then resetEq r s
    else s)

/-! ## Doorbells (R46, R47) -/

/-- A doorbell that is not judged: the ring is not enabled, stopped, or its reset is in progress. -/
def dbIgnored (g : Ring) : Bool := !g.en || g.error || g.resetting

/-- An invalid doorbell stops the ring, sets DB_INVALID, raises RING_ERROR and signals ERR_VEC (R47, R55). -/
def dbInvalid (r err : Nat) (s : State) : State :=
  let s := setRing r (fun g => { g with error := true, err := err }) s
  signalError (raise0 evRingError 0 (leBytes 1 r ++ leBytes 1 err) { s with hif := { s.hif with dbInvalid := true } })

/-- Descriptors of an SQ that execute: a deferred one has ended its execution (R52). -/
def sqExecuting (s : State) (sq : Nat) : Nat := (s.hif.started.filter fun x => x.desc.sq == sq).length

/-- SQ_TAIL_DOORBELL (R47): byte offset 4n, the index in [15:0]. -/
def execSqTailDoorbell (n value : Nat) (s : State) : Host.Outcome State Fault Refusal :=
  .next (
    let g := ringOf s n
    let v := value % 2 ^ 16
    if 16 ≤ n ∨ dbIgnored g then s
    else if g.size ≤ v then dbInvalid n 5 s
    else if g.size - 1 < ringUsed g + (v + g.size - g.tail) % g.size + sqExecuting s n then dbInvalid n 6 s
    else setRing n (fun g => { g with tail := v }) s)

/-- A head doorbell of ring `r` (R47, R55). -/
def headDoorbell (r value : Nat) (s : State) : State :=
  let g := ringOf s r
  let v := value % 2 ^ 16
  if dbIgnored g then s
  else if g.size ≤ v then dbInvalid r 5 s
  else if ringUsed g < (v + g.size - g.head) % g.size then dbInvalid r 6 s
  else setRing r (fun g => { g with head := v, unsig := if v = g.tail then 0 else g.unsig }) s

/-- CQ_HEAD_DOORBELL (R47). -/
def execCqHeadDoorbell (n value : Nat) (s : State) : Host.Outcome State Fault Refusal :=
  .next (if 16 ≤ n then s else headDoorbell (16 + n) value s)

/-- EQ_HEAD_DOORBELL (R47). -/
def execEqHeadDoorbell (n value : Nat) (s : State) : Host.Outcome State Fault Refusal :=
  .next (if 4 ≤ n then s else headDoorbell (32 + n) value s)

/-- STREAM_HEAD_DOORBELL (R47): n = 0 the trace stream, 1 the log stream. -/
def execStreamHeadDoorbell (n value : Nat) (s : State) : Host.Outcome State Fault Refusal :=
  .next (if 2 ≤ n then s else headDoorbell (36 + n) value s)

/-! ## Fetching (R48 to R50) -/

/-- An SQ may be fetched from: served, not being reset, with a covered descriptor, a free completion slot and no
fence that waits at its head (R37, R48, R50); none after a PWR_SLEEP has been accepted (R497). -/
def sqReady (s : State) (q : Nat) : Bool :=
  let g := ringOf s q
  let c := ringOf s (16 + g.bind)
  ringServed s q && !g.resetting && g.head != g.tail && s.pwr.sleepAt.isNone
    && ringServed s (16 + g.bind) && decide (ringUsed c + c.reserved + 1 < c.size)
    && !(g.fenced.isSome && sqBusy s q)

/-- The SQ that the arbitration serves next (R50): the least PRIO, then round robin after the last one served. -/
def sqNext (s : State) : Option Nat :=
  let order := (List.range 16).map fun i => (s.hif.lastSq + 1 + i) % 16
  let ready := order.filter (sqReady s)
  let best := ready.foldl (fun m q => min m (ringOf s q).prio) 4
  ready.find? fun q => (ringOf s q).prio == best

/-- The descriptor in the SQ's head slot: the one that was read already, else from the mailbox, or what the host's memory
gave (R34, R40). -/
def headDesc (s : State) (d : Desc) : Desc :=
  let g := ringOf s d.sq
  g.fenced.getD { d with bytes := if g.loc then memReadN s.mailbox (mailboxBase g + 64 * g.head) 64 else padTo 64 d.bytes }

/-- A failed ring access stops the ring, sets DMA_FAULT, is signalled on ERR_VEC and raises HOST_DMA_FAULT (R67). -/
def ringDmaFault (r err addr : Nat) (s : State) : State :=
  let s := setRing r (fun g => { g with error := true, err := err }) s
  let s := { s with hif := { s.hif with dmaFault := true } }
  signalError (raise0 evHostDma 0 (leBytes 4 r ++ leBytes 4 addr) s)

/-- The SQ head moves on, the completion slot is reserved, and the head shadow is written (R48, R49); one
that runs beyond the mailbox is a failed shadow write (R67). Where the shadow lies R49 does not say: DESIGN CHOICE (log 28), in
the memory that LOC gives its ring, without bit 63 in the mailbox. -/
def fetchAdvance (q : Nat) (s : State) : State :=
  let g := ringOf s q
  let h := if g.head + 1 = g.size then 0 else g.head + 1
  let s := setRing q (fun g => { g with head := h, fenced := none }) s
  let s := setRing (16 + g.bind) (fun c => { c with reserved := c.reserved + 1 }) s
  let s := { s with hif := { s.hif with lastSq := q } }
  if g.shadow = 0 then s
  else if g.loc then
    if mailboxSize < g.shadow % 2 ^ 63 + 4 then ringDmaFault q 8 (g.shadow % 2 ^ 32) s
    else { s with mailbox := memWriteN s.mailbox (g.shadow % 2 ^ 63) (leBytes 4 h) }
  else { s with hostMem := memWriteN s.hostMem g.shadow (leBytes 4 h) }

/-- A tagged descriptor is counted at its fetch (R446, R449): its number n, the time of the last one, and the close
with reason SEQUENCE when n reaches 2^32. -/
def tagCount (q : Nat) (s : State) : State :=
  let s := updSession q (fun x => { x with n := x.n + 1, lastTagged := s.gtc }) s
  match sessionOn s q with
  | some x => if 2 ^ 32 ≤ x.n then sessionClose q closeSequence s else s
  | none => s

/-- TAG_CHECK (R446): what is wrong with a tagged descriptor, given the session as it was counted. -/
def tagBad (x : Option Session) (d : Desc) (blk : List Byte) : Option Nat :=
  match x with
  | none => some 0x0F03
  | some x => if slice d.bytes 48 16 = tagOf x.kTag x.n d blk then none else some 0x0F02

/-- Steps 1 to 7 of R41 as far as they are judged at the fetch: seal, tag, opcode, mode and role; a tagged descriptor
with a block passes steps 4 to 7 before its tag (R446). The handle and block of the others are judged when they execute. -/
def fetchBad (s : State) (x : Option Session) (d : Desc) : Option Nat :=
  let role := if dTagLen d = 16 then (x.map (·.role)).getD 0 else s.sec.untagged
  match sealBad s d with
  | some e => some e
  | none =>
    if dTagLen d ≠ 0 ∧ dTagLen d ≠ 16 then some stBadParam
    else if dTagLen d = 0 then
      (if dOp d = 0x0F03 then some stBadParam else opcodeBad s.boot.mode role d)
    else if dPtr d then
      match x with
      | none => some 0x0F03
      | some _ =>
        match opcodeBad s.boot.mode role d with
        | some e => some e
        | none =>
          match (opInfo (dOp d)).bind fun i => formBad s i d with
          | some e => some e
          | none => if ((opInfo (dOp d)).map (·.reads)).getD false && blockBeyond d then some stDmaError
            else tagBad x d (if ((opInfo (dOp d)).map (·.reads)).getD false then blockOf s d else [])
    else match tagBad x d [] with
      | some e => some e
      | none => opcodeBad s.boot.mode role d

/-- The descriptor is fetched, with its block where that lies in the mailbox (R40), and judged: it starts, and completes with
the first failure (R41) when its turn has come (R52). -/
def fetchStart (d : Desc) (s : State) : State :=
  let s := if dTagLen d = 16 then tagCount d.sq s else s
  let x := sessionOn s d.sq
  let reads := dPtr d && ((opInfo (dOp d)).map (·.reads)).getD false && ptrMailbox (dBlockPtr d) && !blockBeyond d
  let st : Started := { desc := d, cq := 16 + (ringOf s d.sq).bind, block := if reads then some (blockOf s d) else none,
                        role := if dTagLen d = 16 then (x.map (·.role)).getD 0 else s.sec.untagged,
                        sid := if dTagLen d = 16 then x.map (·.sid) else none
                        wrap := if dTagLen d = 16 then x.map (·.kWrap) else none }
  let start (v : Option Nat) (s : State) : State := { s with hif := { s.hif with started := s.hif.started ++ [{ st with verdict := v }] } }
  match fetchBad s x d with
  | none => start none (if dTagLen d = 16 then updSession d.sq (fun x => { x with badRun := 0 }) s else s)
  | some e =>
    let s := if e = 0x0F02 then updSession d.sq (fun x => { x with badRun := x.badRun + 1 }) s else if e = stDmaError then blockFault d s else s
    settle (s.hif.started.length + 1) (start (some e) s)

/-- DESCRIPTOR_FETCH (R48 to R50): the SQ that the arbitration serves has its head descriptor fetched and started. A
fence waits for every earlier descriptor of its ring, deferred ones included, and other rings are served meanwhile. -/
def execDescriptorFetch (d : Desc) (s : State) : Host.Outcome State Fault Refusal :=
  .next (if sqNext s ≠ some d.sq then s
  else
    let d := headDesc s d
    if dFence d && sqBusy s d.sq then setRing d.sq (fun g => { g with fenced := some d }) { s with hif := { s.hif with lastSq := d.sq } }
    else fetchStart d (fetchAdvance d.sq s))

/-! ## Held events, intervals and interrupts (R55, R57, R545, R547) -/

/-- HIF_REATTACHED, the first event after a re-attach (R68). -/
def writeReattached (s : State) : State :=
  if !s.hif.reattach then s
  else
    match evqFor s evReattached with
    | none => s
    | some q =>
      if ringServed s q && ringRoom (ringOf s q) then
        let e : Ev := { code := evReattached, gtc := s.gtc, seq := s.hif.evSeq,
                        data := padTo 11 (leBytes 4 s.hif.complDropped ++ leBytes 2 s.hif.held.length) }
        let s := { s with hif := { s.hif with evSeq := wrapInc 16 s.hif.evSeq, reattach := false, complDropped := 0 } }
        ringProduce q (evBytes e) (some e) false s
      else s

/-- The placement epoch of a result is retired: its object's job has another one now, or the object is DISABLED (R89). -/
def epochRetired (s : State) (h ep : Nat) : Bool :=
  ep != 0 && ((objOf s h).map fun o => o.epoch != ep || o.ost == .disabled).getD true

/-- A held event as it is written: SUPERSEDED where its epoch has been retired meanwhile (R54, R89). -/
def evLate (s : State) (e : Ev) : Ev := { e with superseded := epochRetired s e.handle e.epoch }

/-- A kept completion as it is written: SUPERSEDED where its epoch has been retired meanwhile (R42, R54, R89). -/
def keptEntry (s : State) (e : List Byte) : List Byte :=
  e.take 31 ++ [BitVec.ofNat 8 (u8 e 31 + if epochRetired s (u32 e 8) (u16 e 14) then 64 else 0)]

/-- Write held events in order while their EQs have room, at most `fuel` of them (R57). -/
def drainHeld : Nat → State → State
  | 0, s => s
  | n + 1, s =>
    match s.hif.held with
    | [] => s
    | e :: rest =>
      match evqFor s e.code with
      | none => s
      | some q =>
        if ringServed s q && ringRoom (ringOf s q) then
          drainHeld n (ringProduce q (evBytes (evLate s e)) (some e) (evUrgent e) { s with hif := { s.hif with held := rest } })
        else s

/-- EVENT_LOST with the number dropped, once the holding queue is empty (R57, R66); the count starts anew. -/
def writeEventLost (s : State) : State :=
  if s.hif.lost = 0 ∨ ¬ s.hif.held.isEmpty ∨ s.hif.reattach then s
  else
    let data := satBytes 4 s.hif.lost ++ leBytes 2 s.hif.firstLost
    raise0 evEventLost 0 data { s with hif := { s.hif with dropped := 0, lost := 0, firstLost := 0 } }

/-- The held events are written: HIF_REATTACHED first where it is due, then the queue, then EVENT_LOST (R57, R68). -/
def drain (s : State) : State :=
  let s := writeReattached s
  if s.hif.reattach then s else writeEventLost (drainHeld 256 s)

/-- HELD_EVENT_DRAIN: an EQ has room again (R57). -/
def execHeldEventDrain (s : State) : Host.Outcome State Fault Refusal := .next (drain s)

/-- RINGS_EN_CLEAR: the host interface pauses and nothing else changes (R547). -/
def execRingsEnClear (s : State) : Host.Outcome State Fault Refusal :=
  .next { s with hif := { s.hif with ringsEn := false } }

/-- Messages of vectors that are pending and no longer masked (R55). -/
def pbaSend (s : State) : State :=
  (List.range 32).foldl (fun s n =>
    if bit s.hif.pba n && !vectorMasked s n && s.hif.ringsEn && !linkSpi s
    then sendVector n { s with hif := { s.hif with pba := setBit s.hif.pba n false } } else s) s

/-- RINGS_EN_SET: kept completions in order, then held events, then fetching resumes (R547). -/
def execRingsEnSet (s : State) : Host.Outcome State Fault Refusal :=
  .next (if s.hif.ringsEn then s
  else
    let ks := s.hif.kept
    let due := s.hif.errDue
    let s := { s with hif := { s.hif with ringsEn := true, kept := [], errDue := false } }
    let s := if due then sendVector s.hif.errVec s else s
    let s := pbaSend s
    let s := ks.foldl (fun s k => cqEntry k.cq (keptEntry s k.entry) k.irqNow s) s
    drain ((List.range 16).foldl (fun s q => sqResetEnd q s) s))

/-- INTERRUPT_MODERATION_TIMEOUT: the oldest entry not signalled is TIME old (R55). -/
def execInterruptModerationTimeout (r : Nat) (s : State) : Host.Outcome State Fault Refusal :=
  .next (
    let g := ringOf s r
    if 16 ≤ r ∧ r < 38 ∧ g.en ∧ s.hif.ringsEn ∧ g.modTime ≠ 0 ∧ 0 < g.unsig then
      ringSignal r (toInstant (g.unsigAt + g.modTime * usTicks) s)
    else s)

/-- EVENT_INTERVAL_END (R545): an aggregated event with the count of the interval, or the interval just ends. -/
def execEventIntervalEnd (code h sub : Nat) (s : State) : Host.Outcome State Fault Refusal :=
  .next (match s.hif.intervals.find? fun i => i.code == code && i.handle == h && i.sub == sub with
    | none => s
    | some i =>
      let s := toInstant i.ends s
      let s := { s with hif := { s.hif with intervals := s.hif.intervals.erase i } }
      if i.count = 0 then s
      else
        let data := if i.countLen = 0 then i.data else putAt (padTo 11 i.data) i.countAt (satBytes i.countLen i.count)
        raiseAt i.gtc code i.cls h i.epoch data
          { s with hif := { s.hif with intervals := s.hif.intervals ++ [{ i with count := 0, ends := i.ends + i.length }] } })

/-! ## Failed accesses (R67) -/

/-- Take back the entry whose write failed: the slot holds what it held. -/
def unwriteEntry (r : Nat) (s : State) : State :=
  let g := ringOf s r
  let t := if g.tail = 0 then g.size - 1 else g.tail - 1
  let s := ringMemWrite g (32 * t) g.prev s
  setRing r (fun g => { g with
    tail := t, phase := if g.tail = 0 then !g.phase else g.phase, unsig := g.unsig - 1, prev := [], prevEv := none }) s

/-- An event whose entry write failed returns to the head of the holding queue; a full queue drops its newest (R67). -/
def reholdEvent (e : Ev) (s : State) : State :=
  if s.hif.held.length < 256 then { s with hif := { s.hif with held := e :: s.hif.held } }
  else
    let newest := (s.hif.held.getLast?).getD e
    { s with hif := { s.hif with
      held := e :: s.hif.held.dropLast
      dropped := satInc 16 s.hif.dropped
      lost := s.hif.lost + 1
      heldOvf := true
      firstLost := if s.hif.lost = 0 then newest.seq else s.hif.firstLost } }

/-- HOST_DMA_FAULT (R67): a descriptor fetch, an entry write, a shadow write, or a block access fails. -/
def execHostDmaFault (a : DmaAccess) (s : State) : Host.Outcome State Fault Refusal :=
  .next (match a with
    | .fetch sq addr => if sqNext s = some sq then ringDmaFault sq 7 addr s else s
    | .shadow sq addr => if (ringOf s sq).en then ringDmaFault sq 8 addr s else s
    | .entry r addr =>
      if !(ringOf s r).en || (ringOf s r).prev.isEmpty then s
      else
        let ev := (ringOf s r).prevEv
        let s := unwriteEntry r s
        let s := match ev with
          | some e => reholdEvent e s
          | none => setRing r (fun g => { g with lost := satInc 16 g.lost }) s
        ringDmaFault r 8 addr s
    | .block d addr => fail d stDmaError (raise0 evHostDma 0 ([0xFF, 0, 0, 0] ++ leBytes 4 addr) s))

/-! ## NOP, RING_SYNC and ABORT (R62) -/

def execNop (d : Desc) (s : State) : Host.Outcome State Fault Refusal := .next (runDesc 0x0000 d (ok d) s)

/-- RING_SYNC: completes when every descriptor started before it has completed, deferred ones excepted. -/
def bodyRingSync (d : Desc) (s : State) : State :=
  let st := startedOf s d
  if !s.hif.started.contains st || (startedBefore s st).isEmpty then ok d s
  else { s with hif := { s.hif with started := s.hif.started.map fun x => if x = st then { x with sync := true } else x } }

def execRingSync (d : Desc) (s : State) : Host.Outcome State Fault Refusal := .next (runDesc 0x0008 d (bodyRingSync d) s)

/-- PCIE_LINK_TRAINED: the link trains at x1 or x2 (R32); the host's enumeration, which no command of the table tells,
comes with it and enables MSI-X (log 8). -/
def execPcieLinkTrained (lanes : Nat) (s : State) : Host.Outcome State Fault Refusal :=
  .next (if linkSpi s then s else { s with hif := { s.hif with link := if lanes = 1 then 1 else 2, msixOn := true, msixMask := false } })

end Sys2Proof.Machine
end

