-- ==== Sys2Proof/Machine/Can.lean ====
section
/-! DEFINITION. CAN ports (13, R372 to R388, R400): filters, receive FIFOs, signals, transmit buffers, error confinement,
sleep and the wake sources. -/

namespace Sys2Proof.Machine

def updCan (i : Nat) (f : CanRt → CanRt) (s : State) : State := updObj i (fun o => { o with rt := .can (f (canOf o)) }) s

def canPort (o : Obj) : Nat := u8 o.act 0
def canFd (o : Obj) : Bool := u8 o.act 1 == 1
def canFlags (o : Obj) : Nat := u8 o.act 2
/-- Elements of a FIFO (R373): FIFO 1 has what FIFO 0 leaves of 160. -/
def fifoSize (o : Obj) (fifo : Nat) : Nat := if fifo = 0 then u8 o.act 3 else 160 - u8 o.act 3

/-! ## Enabling (R373, R374) -/

/-- What ENABLE refuses: jump widths, and bit rates from brp / 80 MHz quanta. -/
def canEnableBad (o : Obj) : Option Nat :=
  let p := o.params
  let n := u8 p 4 * (1 + u16 p 6 + u8 p 8)
  let dq := u8 p 9 * (1 + u8 p 10 + u8 p 11)
  if u8 p 8 < u8 p 5 ∨ u8 p 11 < u8 p 12 then some stBadParam
  else if n < 80 then some stBadParam
  else if u8 p 1 = 1 ∧ (dq < 16 ∨ n < dq) then some stBadParam
  else none

/-- The first instant at or after `t` that is `anchor` modulo the period. -/
def firstPeriod (t : Nat) (anchor : Int) (period : Nat) : Nat :=
  if period = 0 then t else t + ((anchor - t) % (period : Int)).toNat

/-- A periodic buffer that could not queue goes on at the next instant of its period (R381). -/
def txRealign (now : Nat) (t : CanTx) : CanTx :=
  match t.cfg with
  | none => t
  | some c => if now ≤ t.nextAt then t else { t with nextAt := firstPeriod now (i64 c 16) (u32 c 8 * usTicks) }

/-- A port becomes ENABLED: error active, counters at 0, signals 0 (R379). -/
def canEnable (i : Nat) (s : State) : State :=
  updCan i (fun r => { r with
    sig := List.replicate 64 0, tec := 0, rxErr := 0, busOff := false, stopped := false, ackRun := 0, lone := false, attempt := false
    tx := r.tx.map (txRealign s.gtc) }) s

/-- A port becomes DISABLED: its controller stops. -/
def canDisable (i : Nat) (s : State) : State := updCan i (fun r => { r with stopped := true }) s

/-- Type-specific status of a CANPORT (R400). -/
def canEstate (r : CanRt) : Nat := if r.stopped then 3 else if r.busOff then 2 else if 128 ≤ r.tec ∨ 128 ≤ r.rxErr then 1 else 0

/-- The throttle of a lone node is on (R384). -/
def canThrottled (o : Obj) : Bool := (canOf o).lone && !bit (canFlags o) 3

def suspMask (r : CanRt) : Nat := (r.tx.zipIdx.map fun x => if x.1.susp then 2 ^ x.2 else 0).foldl (· + ·) 0

def canStatus (o : Obj) : List Byte :=
  let r := canOf o
  leBytes 1 (canEstate r) ++ satBytes 1 r.tec ++ satBytes 1 r.rxErr ++ leBytes 1 (b2n r.lone + 2 * b2n (canThrottled o) + 8 * r.lastErr)
    ++ satBytes 4 r.txFrames ++ satBytes 4 r.rxFrames ++ satBytes 4 r.rxDropped ++ satBytes 4 r.busOffs ++ satBytes 4 r.idcoll
    ++ leBytes 1 r.rx0.length ++ leBytes 1 r.rx1.length ++ [0, 0] ++ leBytes 4 (suspMask r) ++ satBytes 4 r.undecoded
    ++ satBytes 4 r.txLate ++ List.replicate 8 0 ++ r.sig.flatMap fBytes

/-! ## Frames and filters (R376, R377) -/

def frExt (f : CanFrame) : Bool := bit f.id 30
def frFd (f : CanFrame) : Bool := bit f.eflags 0
def frRemote (f : CanFrame) : Bool := bit f.eflags 3

/-- Data lengths of a frame format (R372). -/
def lengthOk (fd : Bool) (n : Nat) : Bool := decide (n ≤ 8) || (fd && [12, 16, 20, 24, 32, 48, 64].contains n)

/-- An identifier fits its format (R376). -/
def idOk (id : Nat) : Bool := decide (id < 2 ^ 31) && !bit id 29 && (bit id 30 || decide (id % 2 ^ 30 < 2048))

/-- The order of arbitration: the lowest identifier first, a base identifier before the extended ones that begin with it. -/
def arbKey (f : CanFrame) : Nat := if frExt f then (f.id % 2 ^ 29) / 2 ^ 18 * 2 ^ 19 + 2 ^ 18 + f.id % 2 ^ 18 else f.id % 2048 * 2 ^ 19

/-- The 80 B element of a frame (R376). -/
def elementBytes (f : CanFrame) (filter gtc : Nat) : List Byte :=
  leBytes 4 f.id ++ leBytes 1 f.eflags ++ leBytes 1 f.data.length ++ leBytes 1 filter ++ [0] ++ leBytes 8 gtc ++ padTo 64 f.data

/-- Filter element `k` of a list accepts a frame (R377). -/
def filterHit (b : List Byte) (k : Nat) (f : CanFrame) : Bool :=
  let o := 16 * k
  let fl := u8 b (o + 9)
  bit fl 0 && (bit f.id 30 == bit (u32 b o) 30)
    && ((f.id ^^^ u32 b o) &&& u32 b (o + 4)) % 2 ^ 29 == 0
    && !(bit fl 1 && frFd f) && !(bit fl 2 && !frFd f) && !(frRemote f && !bit fl 3)

/-- A format table usable on a port: its variables are signals 0 to 63 (R379). -/
def sigTableOk (s : State) (h : Nat) : Bool :=
  match tableOf s h with
  | none => false
  | some b => tabType b == 3 && (List.range (tabCount b)).all fun f => decide (u16 b (fmtAt f + 12) ≤ 63)

/-- One filter element as written. -/
def filterBad (s : State) (b : List Byte) (k : Nat) : Option PErr :=
  let o := 16 * k
  firstErr [
    req (decide (u32 b o < 2 ^ 31) && !bit (u32 b o) 29) badParam,
    req (decide (u8 b (o + 8) ≤ 4) && decide (u8 b (o + 9) < 16) && zeroBytes b (o + 10) 2) badParam,
    req ((u8 b (o + 8) < 3 && u32 b (o + 12) == 0) || sigTableOk s (u32 b (o + 12))) (refInvalid (o + 12))]

/-- CAN_FILTER_SET: the list takes effect at the next boundary. -/
def bodyCanFilterSet (d : Desc) (o : Obj) (s : State) : State :=
  let b := blockOf s d
  match (List.range (b.length / 16)).findSome? (filterBad s b) with
    | some e => failWith d e.status e.result s
    | none => ok d (updCan o.idx (fun r => { r with filtNext := some b }) s)

def execCanFilterSet (d : Desc) (s : State) : Host.Outcome State Fault Refusal := .next (runObj 0x0D02 d (bodyCanFilterSet d) s)

/-- Ports at a boundary: a new filter list comes into force. -/
def canBoundary (s : State) : State :=
  (objsOf s tyCanport).foldl (fun s o => match (canOf o).filtNext with
    | none => s
    | some b => updCan o.idx (fun r => { r with filt := b, filtNext := none }) s) s

/-! ## Error states (R382, R383) -/

/-- Change the counters and raise what the change of error state asks for. -/
def canCount (i : Nat) (f : CanRt → CanRt) (s : State) : State :=
  match objAt s i with
  | none => s
  | some o =>
    let a := canEstate (canOf o)
    let r := f (canOf o)
    let r := { r with busOff := r.busOff || decide (255 < r.tec) }
    let b := canEstate r
    let h := handleOf o
    let s := updCan i (fun _ => r) s
    if a = b then s
    else if b = 2 then raise0 0x0D41 h [] s
    else if b = 1 then raise0 0x0D40 h [1] s
    else if a = 1 then raise0 0x0D40 h [0] s
    else s

/-! ## Reception (R377 to R379, R393) -/

/-- CAN_READ that waits on a FIFO. -/
def readOf (s : State) (h fifo : Nat) : Option Deferred := s.hif.deferred.find? fun x => x.op == 0x0D01 && x.handle == h && x.arg == fifo

/-- Store a frame in a FIFO, or drop and count it. -/
def fifoPut (i fifo : Nat) (x : CanRx) (s : State) : State :=
  match objAt s i with
  | none => s
  | some o =>
    let r := canOf o
    let q := if fifo = 0 then r.rx0 else r.rx1
    if q.length < fifoSize o fifo then
      updCan i (fun r => if fifo = 0 then { r with rx0 := r.rx0 ++ [x] } else { r with rx1 := r.rx1 ++ [x] }) s
    else
      raiseLimited secTicks 0x0D46 0 (handleOf o) 0 0 (leBytes 1 fifo) 4 4
        (updCan i (fun r => { r with rxDropped := satInc 32 r.rxDropped }) s)

/-- Decode a frame into the signals (R379). -/
def decodeInto (i table : Nat) (f : CanFrame) (s : State) : State :=
  match tableOf s table with
  | none => s
  | some b =>
    if f.data.length < fmtLen b then updCan i (fun r => { r with undecoded := satInc 32 r.undecoded }) s
    else updCan i (fun r => { r with sig := (fmtDecodeAll b f.data).foldl (fun g x => g.set x.1 x.2) r.sig }) s

/-- A frame that a port received is filtered (R377). -/
def canFilter (i : Nat) (f : CanFrame) (s : State) : State :=
  match objAt s i with
  | none => s
  | some o =>
    let b := (canOf o).filt
    match (List.range (b.length / 16)).find? (fun k => filterHit b k f) with
    | none => s
    | some k =>
      let target := u8 b (16 * k + 8)
      let x : CanRx := { frame := f, filter := k, gtc := s.gtc }
      let s := if 3 ≤ target then decodeInto i (u32 b (16 * k + 12)) f s else s
      if target = 1 ∨ target = 4 then fifoPut i 0 x s else if target = 2 then fifoPut i 1 x s else s

/-- Parameter group and destination of an extended identifier, as ISO 11783-3 has them (PRESUMED, log 23). -/
def pgnOf (id : Nat) : Nat := if bits id 16 8 < 240 then bits id 16 10 * 256 else bits id 8 18
def srcOfId (id : Nat) : Nat := id % 256
def dstOfId (id : Nat) : Nat := if bits id 16 8 < 240 then bits id 8 8 else 255

/-- The speed messages (R393): speed in mm/s in bytes 1 and 2, direction in bits [1:0] of byte 8 (PRESUMED, log 23). -/
def speedMessage (h : Nat) (f : CanFrame) (s : State) : State :=
  let p := pgnOf f.id
  if !frExt f || frFd f || frRemote f || f.data.length != 8 || (p != 0xFE48 && p != 0xFE49) then s
  else
    let v := u16 f.data 0
    let dir := u8 f.data 7 % 4
    isobusSpeed h (if p = 0xFE48 then 3 else 4) (if 0xFE00 ≤ v then none else some v)
      (if dir = 0 then some true else if dir = 1 then some false else none) s

/-- A successful reception lowers the receive error counter (ISO 11898-1, PRESUMED, log 23). -/
def recDown (n : Nat) : Nat := if 127 < n then 127 else n - 1

/-! ## Transmission (R380, R381) -/

def updTx (i b : Nat) (f : CanTx → CanTx) (s : State) : State := updCan i (fun r => { r with tx := r.tx.modify b f }) s
def txOf (o : Obj) (b : Nat) : CanTx := (canOf o).tx.getD b {}

/-- CAN0 without its transceiver cannot take part (R387, R388). -/
def canDeaf (s : State) (o : Obj) : Bool := canPort o == 0 && s.cand.lowPower

/-- A port may send: it runs, is not off the bus, monitors nothing only (R383), and a throttled one has an attempt. -/
def canMay (s : State) (o : Obj) : Bool :=
  isEnabled o && !(canOf o).busOff && !(canOf o).stopped && !bit (canFlags o) 0 && !bit (canFlags o) 1 && !canDeaf s o
    && (!canThrottled o || (canOf o).attempt)

/-- Buffers offered to arbitration by an instant, in buffer order. -/
def offered (o : Obj) (t : Nat) : List (CanTx × Nat) :=
  (canOf o).tx.zipIdx.filter fun x => x.1.pend && !x.1.susp && x.1.frame.isSome && decide (x.1.since ≤ t)

/-- The buffer that arbitration at `t` picks: the lowest identifier, among equals the lowest buffer. -/
def arbWinner (o : Obj) (t : Nat) : Option Nat :=
  ((offered o t).foldl (fun b x =>
    let k := (x.1.frame.map arbKey).getD 0
    match b with
    | none => some (k, x.2)
    | some y => if k < y.1 then some (k, x.2) else some y) none).map (·.2)

/-- Every descriptor that waits for a buffer's transmission completes. -/
def sendsEnd (h b status : Nat) (s : State) : State :=
  (s.hif.deferred.filter fun x => (x.op == 0x0D00 || x.op == 0x0D04) && x.handle == h && x.arg == b).foldl
    (fun s x => completeDeferred x { status := status } s) s

/-- Queue the frame that a buffer holds. -/
def txQueue (i b : Nat) (s : State) : State := updTx i b (fun x => { x with pend := true, since := s.gtc }) s

/-- The frame, buffer and single-shot flag of a CAN_SEND (R380). -/
def sendFrame (d : Desc) (s : State) : Nat × CanFrame × Bool × Bool :=
  if dPtr d then
    let b := blockOf s d
    let n := u8 b 5
    (u8 b 6, { id := u32 b 0, eflags := u8 b 4, data := slice b 16 n }, false, decide (u8 b 4 < 16 ∧ n ≤ 64) && u8 b 7 == 0)
  else
    let b := d.bytes
    let fl := u8 b 17
    let n := u8 b 18
    (u8 b 16, { id := u32 b 20 % 2 ^ 30 + if bit fl 0 then 2 ^ 30 else 0, eflags := bits fl 1 2, data := slice b 24 n }, bit fl 3,
     decide (fl < 16 ∧ n ≤ 20 ∧ u32 b 20 < 2 ^ 30))

/-- CAN_SEND (R380). Which free buffer 0xFF takes is open (log 7); on a port that does not run the frame waits in its buffer. -/
def bodyCanSend (d : Desc) (o : Obj) (s : State) : State :=
  let x := sendFrame d s
  let b := x.1
  let f := x.2.1
  if !x.2.2.2 || !(decide (b < 24) || b == 0xFF) || !idOk f.id then fail d stBadParam s
  else if !lengthOk (frFd f) f.data.length || (frFd f && !canFd o) || (frFd f && frRemote f) then fail d stBadParam s
  else
    let put (b : Nat) (s : State) : State :=
      txQueue o.idx b (updTx o.idx b (fun t => { t with frame := some f, single := x.2.2.1 }) (defer d 0x0D00 (dHandle d) 0 [] b s))
    if b = 0xFF then
      let free := (List.range 24).filter fun k => !(txOf o k).pend && (txOf o k).cfg.isNone
      if free.isEmpty then fail d stNoResource s
      else
        let v := takeFree s
        put (free.getD (v.1 % free.length) 0) v.2
    else
      let t := txOf o b
      match t.cfg with
      | some c => defer d 0x0D00 (dHandle d) 0 [] b (updTx o.idx b (fun t => { t with
          frame := some { id := u32 c 4 % 2 ^ 30 + (if bit (u8 c 1) 0 then 2 ^ 30 else 0), eflags := bits (u8 c 1) 1 2, data := padTo (u8 c 2) f.data } }) s)
      | none => if t.pend then fail d 0x0D04 s else put b s

def execCanSend (d : Desc) (s : State) : Host.Outcome State Fault Refusal := .next (runObj 0x0D00 d (bodyCanSend d) s)

/-- CAN_TX_CONFIG (R381). -/
def bodyCanTxConfig (d : Desc) (o : Obj) (s : State) : State :=
  let c := slice d.bytes 16 28
  let fl := u8 c 1
  let b := u8 c 0
  let p := u32 c 8
  if 24 ≤ b ∨ 32 ≤ fl ∨ p < 1000 ∨ 60000000 < p then fail d stBadParam s
  else if 2 ^ 30 ≤ u32 c 4 ∨ !idOk (u32 c 4 + if bit fl 0 then 2 ^ 30 else 0) then fail d stBadParam s
  else if !lengthOk (bit fl 1) (u8 c 2) || (bit fl 1 && !canFd o) then fail d stBadParam s
  else if (bit fl 3 ∨ u32 c 12 ≠ 0) ∧ !sigTableOk s (u32 c 12) then failWith d 0x0308 (leBytes 2 28) s
  else if bit fl 4 then
    ok d (updTx o.idx b (fun t => { t with cfg := some c, nextAt := firstPeriod (nextBoundary s.gtc) (i64 c 16) (p * usTicks) }) s)
  else ok d (updTx o.idx b (fun t => { t with cfg := none }) s)

def execCanTxConfig (d : Desc) (s : State) : Host.Outcome State Fault Refusal := .next (runObj 0x0D03 d (bodyCanTxConfig d) s)

/-- CAN_PERIODIC_QUEUE: a periodic buffer has reached its instant (R381). -/
def execCanPeriodicQueue (h buf : Nat) (s : State) : Host.Outcome State Fault Refusal :=
  .next (match objOf s h with
    | none => s
    | some o =>
      let t := txOf o buf
      match t.cfg with
      | none => s
      | some c =>
        if o.typ ≠ tyCanport ∨ !isEnabled o ∨ t.susp then s
        else
          let s := toInstant t.nextAt s
          let s := updTx o.idx buf (fun t => { t with nextAt := t.nextAt + u32 c 8 * usTicks }) s
          if t.pend then updCan o.idx (fun r => { r with txLate := satInc 32 r.txLate }) s
          else
            let enc := if bit (u8 c 1) 3 then fmtBuild (u32 c 12) (fun v => (canOf o).sig.getD v 0) s else ((t.frame.map (·.data)).getD [], s)
            txQueue o.idx buf (updTx o.idx buf (fun t => { t with
              frame := some { id := u32 c 4 + (if bit (u8 c 1) 0 then 2 ^ 30 else 0), eflags := bits (u8 c 1) 1 2, data := padTo (u8 c 2) enc.1 }
              single := false }) enc.2))

/-- CAN_TX_RELEASE (R385): only a suspended buffer is released. -/
def bodyCanTxRelease (d : Desc) (o : Obj) (s : State) : State :=
  let b := u8 d.bytes 16
  if 24 ≤ b then fail d stBadParam s
  else if !(txOf o b).susp then fail d stState s
  else txQueue o.idx b (updTx o.idx b (fun t => txRealign s.gtc { t with susp := false, coll := 0 }) (defer d 0x0D04 (dHandle d) 0 [] b s))

def execCanTxRelease (d : Desc) (s : State) : Host.Outcome State Fault Refusal := .next (runObj 0x0D04 d (bodyCanTxRelease d) s)

/-- CAN_SIGNAL_WRITE (R379). -/
def bodyCanSignalWrite (d : Desc) (o : Obj) (s : State) : State :=
  let a := u8 d.bytes 16
  let n := u8 d.bytes 17
  if n = 0 ∨ 6 < n ∨ 64 < a + n then fail d stBadParam s
  else ok d (updCan o.idx (fun r => { r with sig := (List.range n).foldl (fun g k => g.set (a + k) (f32 d.bytes (20 + 4 * k))) r.sig }) s)

def execCanSignalWrite (d : Desc) (s : State) : Host.Outcome State Fault Refusal := .next (runObj 0x0D05 d (bodyCanSignalWrite d) s)

/-- The end of one attempt of a throttled port. -/
def attemptEnd (i : Nat) (s : State) : State := updCan i (fun r => { r with attemptAt := s.gtc, attempt := false }) s

/-! ## Reading (R378) -/

/-- CAN_READ: accepted when none waits on the FIFO. -/
def bodyCanRead (d : Desc) (o : Obj) (s : State) : State :=
  let fifo := u8 d.bytes 32
  let least := u8 d.bytes 33
  let ms := u16 d.bytes 34
  if 1 < fifo ∨ least = 0 ∨ 64 < least then fail d stBadParam s
  else if (readOf s (dHandle d) fifo).isSome then fail d stBusy s
  else defer d 0x0D01 (dHandle d) (if ms = 0 then 0 else s.gtc + ms * msTicks) [] fifo s

def execCanRead (d : Desc) (s : State) : Host.Outcome State Fault Refusal := .next (runObj 0x0D01 d (bodyCanRead d) s)

/-- A deferred descriptor writes its block and completes (R53, R67). -/
def deferredWrite (x : Deferred) (bs : List Byte) (r : Reply) (s : State) : State :=
  match ptrWrite (dBlockPtr x.st.desc) bs s with
  | some s => completeDeferred x { r with writeback := true } s
  | none => completeDeferred x { status := stDmaError } (raise0 0x0083 0 ([0xFF, 0, 0, 0] ++ leBytes 4 (dBlockPtr x.st.desc % mailboxSize)) s)

/-- A read ends: the oldest frames that the block holds move to the host. -/
def readEnd (x : Deferred) (s : State) : State :=
  match objOf s x.handle with
  | none => completeDeferred x {} s
  | some o =>
    let q := if x.arg = 0 then (canOf o).rx0 else (canOf o).rx1
    let n := min q.length (dBlockLen x.st.desc / 80)
    let s := updCan o.idx (fun r => if x.arg = 0 then { r with rx0 := q.drop n } else { r with rx1 := q.drop n }) s
    deferredWrite x ((q.take n).flatMap fun e => elementBytes e.frame e.filter e.gtc) { result := leBytes 2 n ++ leBytes 2 (q.length - n) } s

/-- CAN_READ_DONE: the FIFO holds the least number, or the time is out. -/
def execCanReadDone (h fifo : Nat) (s : State) : Host.Outcome State Fault Refusal :=
  .next (match readOf s h fifo, objOf s h with
    | some x, some o =>
      let q := if fifo = 0 then (canOf o).rx0 else (canOf o).rx1
      if u8 x.st.desc.bytes 33 ≤ q.length then readEnd x s
      else if x.due = 0 then s
      else readEnd x (toInstant x.due s)
    | _, _ => s)

/-! ## Errors (R382 to R385) -/

/-- A single-shot frame has failed. -/
def singleFailed (o : Obj) (b : Nat) (s : State) : State :=
  if (txOf o b).single && (txOf o b).pend then sendsEnd (handleOf o) b 0x0D03 (updTx o.idx b (fun t => { t with pend := false }) s) else s

/-- CAN_TX_ERROR: an error that the controller detects (R382, R384). The steps of the counters are those of ISO 11898-1
(PRESUMED, log 23): a transmitter counts 8, a receiver 1. -/
def execCanTxError (h : Nat) (e : CanErr) (s : State) : Host.Outcome State Fault Refusal :=
  .next (match objOf s h with
    | none => s
    | some o =>
      if o.typ ≠ tyCanport ∨ !isEnabled o ∨ (canOf o).busOff ∨ canDeaf s o ∨ e.code = 0 ∨ 6 < e.code then s
      else if e.tx then
        if !canMay s o || !((offered o s.gtc).any fun x => x.2 == e.buf) then s
        else
          let passive := canEstate (canOf o) = 1
          let free := e.quiet && (if e.code = 3 then decide passive else e.code == 1)
          let s := canCount o.idx (fun r => { r with
            lastErr := e.code, tec := r.tec + (if free then 0 else 8) + 8 * e.more, ackRun := if e.code = 3 then r.ackRun + 1 else 0 }) s
          attemptEnd o.idx (singleFailed o e.buf s)
      else canCount o.idx (fun r => { r with lastErr := e.code, rxErr := min 255 (r.rxErr + 1 + 8 * e.more) }) s)

/-- LONE_NODE: 64 consecutive attempts have ended in an acknowledge error (R384). -/
def execLoneNode (h : Nat) (s : State) : Host.Outcome State Fault Refusal :=
  .next (match objOf s h with
    | none => s
    | some o =>
      if o.typ = tyCanport ∧ isEnabled o ∧ 64 ≤ (canOf o).ackRun ∧ !(canOf o).lone then
        raise0 0x0D44 h (leBytes 1 (b2n (!bit (canFlags o) 3))) (updCan o.idx (fun r => { r with lone := true, attemptAt := s.gtc, attempt := false }) s)
      else s)

/-- LONE_NODE_THROTTLE: 50 ms after the last attempt of a throttled port the next one may be made (R384). -/
def execLoneNodeThrottle (h : Nat) (s : State) : Host.Outcome State Fault Refusal :=
  .next (match objOf s h with
    | none => s
    | some o =>
      if o.typ = tyCanport ∧ isEnabled o ∧ canThrottled o ∧ !(canOf o).attempt then
        updCan o.idx (fun r => { r with attempt := true }) (toInstant ((canOf o).attemptAt + 50 * msTicks) s)
      else s)

/-- IDCOLL: a bit sent recessive after arbitration reads dominant; the third collision suspends the buffer (R385). -/
def execIdcoll (h buf : Nat) (s : State) : Host.Outcome State Fault Refusal :=
  .next (match objOf s h with
    | none => s
    | some o =>
      let t := txOf o buf
      if o.typ ≠ tyCanport ∨ !canMay s o ∨ !t.pend ∨ t.susp ∨ 32 ≤ buf then s
      else
        let n := t.coll + 1
        let s := updCan o.idx (fun r => { r with idcoll := satInc 32 r.idcoll, tx := r.tx.modify buf fun x => { x with coll := n } }) s
        let s := raise0 0x0D43 h (leBytes 4 ((t.frame.map (·.id)).getD 0) ++ leBytes 1 buf ++ satBytes 1 n) s
        if n < 3 then s else sendsEnd h buf 0x0D01 (updTx o.idx buf (fun x => { x with susp := true }) s))

/-! ## Wake sources and INH (R387, R388) -/

/-- CAN_WAKE_CONFIG. -/
def bodyCanWakeConfig (d : Desc) (s : State) : State :=
  let b := d.bytes
  if 2 < u8 b 16 ∨ 3 < u8 b 17 ∨ 8 < u8 b 18 ∨ u8 b 19 % 2 = 1 ∨ 16 ≤ u8 b 19 ∨ !idOk (u32 b 20) then fail d stBadParam s
  else ok d { s with cand := { s.cand with wake := slice b 16 28 } }

def execCanWakeConfig (d : Desc) (s : State) : Host.Outcome State Fault Refusal := .next (runDesc 0x0D06 d (bodyCanWakeConfig d) s)

/-- CAN_INH_OFF: the transceiver goes into low power with its wake sources armed, INH to high impedance. -/
def bodyCanInhOff (d : Desc) (s : State) : State := ok d { s with cand := { s.cand with inh := false, lowPower := true } }

def execCanInhOff (d : Desc) (s : State) : Host.Outcome State Fault Refusal := .next (runDesc 0x0D07 d (bodyCanInhOff d) s)

/-- A frame is the wake-up frame of the configuration (R387). -/
def wakeFrame (w : List Byte) (f : CanFrame) : Bool :=
  ((f.id ^^^ u32 w 4) &&& u32 w 8) % 2 ^ 31 == 0 && f.data.length == u8 w 2
    && (List.range 8).any fun k => u8 f.data k &&& u8 w (12 + k) != 0

/-- A wake reason that the configuration arms (R387): 1 pattern, 2 frame, 3 frame-error overflow, 4 RXD level. -/
def canWakes (s : State) (reason port : Nat) (f : CanFrame) : Bool :=
  let w := s.cand.wake
  if reason = 1 then u8 w 0 == 1
  else if reason = 2 then u8 w 0 == 2 && wakeFrame w f
  else if reason = 3 then u8 w 0 == 2
  else reason == 4 && decide (1 ≤ port ∧ port ≤ 3) && bit (u8 w 3) port

/-! ## Sleep (R386) -/

/-- Entry into SLEEP: pending sends complete TX_ABORTED and their frames are given up, pending reads OK with what their FIFOs hold. -/
def canSleep (s : State) : State :=
  let s := (s.hif.deferred.filter fun x => x.op == 0x0D00 || x.op == 0x0D04).foldl (fun s x =>
    completeDeferred x { status := 0x0D02 } (match objOf s x.handle with
      | some o => updTx o.idx x.arg (fun t => { t with pend := false }) s
      | none => s)) s
  (s.hif.deferred.filter fun x => x.op == 0x0D01).foldl (fun s x => readEnd x s) s

/-- The controllers stop; the transceiver goes into low power. -/
def canHalt (s : State) : State :=
  (objsOf s tyCanport).foldl (fun s o => updCan o.idx (fun r => { r with stopped := true }) s) { s with cand := { s.cand with lowPower := true } }

/-- A wake: each ENABLED port resumes error active with both counters at 0. -/
def canResume (s : State) : State :=
  ((objsOf s tyCanport).filter isEnabled).foldl (fun s o => updCan o.idx (fun r => { r with
    tec := 0, rxErr := 0, busOff := false, stopped := false, ackRun := 0, lone := false, attempt := false
    tx := r.tx.map (txRealign s.gtc) }) s)
    { s with cand := { s.cand with lowPower := false, inh := true } }

end Sys2Proof.Machine
end

