-- ==== Sys2Proof/Machine/Loops.lean ====
section
/-! DEFINITION. Rate, pressure and position loops (07, R227 to R248). Every quantity of a sample is a float32, computed
in the order in which the procedures write it (log 21). -/

namespace Sys2Proof.Machine

/-! ## Laws and banks (R229, R234) -/

def lawOff (l : Nat) : Nat := 88 + 80 * l
def lawOf (r : LoopRt) (l : Nat) : LawRt := if l = 0 then r.lawA else r.lawB
def setLaw (l : Nat) (x : LawRt) (r : LoopRt) : LoopRt := if l = 0 then { r with lawA := x } else { r with lawB := x }

/-- The law of a mode: 1 LAW_A, 2 LAW_B. -/
def modeLaw (m : Nat) : Nat := m - 1

def bkSecs (b : List Byte) : Nat := u8 b 0
def bkInt (b : List Byte) : Nat := u8 b 1
def bkPoints (b : List Byte) : Nat := u8 b 2
def bkPoint (b : List Byte) (k : Nat) : F32 := f32 b (12 + 4 * k)
/-- Coefficient `c` (b0, b1, b2, a1, a2) of section `j` of set `i`. -/
def bkCoef (b : List Byte) (i j c : Nat) : F32 := f32 b (48 + (i * bkSecs b + j) * 20 + 4 * c)
/-- The sets of a bank. -/
def bkSets (b : List Byte) : Nat := max 1 (bkPoints b)

/-- The coefficients of one section. -/
structure Sec5 where
  b0 : F32 := 0
  b1 : F32 := 0
  b2 : F32 := 0
  a1 : F32 := 0
  a2 : F32 := 0
  deriving DecidableEq, Repr

def bkSection (b : List Byte) (i j : Nat) : Sec5 :=
  { b0 := bkCoef b i j 0, b1 := bkCoef b i j 1, b2 := bkCoef b i j 2, a1 := bkCoef b i j 3, a2 := bkCoef b i j 4 }

/-- Set `i` of a bank. -/
def bkSet (b : List Byte) (i : Nat) : List Sec5 := (List.range (bkSecs b)).map (bkSection b i)

/-- The stability triangle (R240). -/
def secStable (x : Sec5) : Bool :=
  decide (fVal (fAbs x.a2) < 2 ^ 149) && decide (fVal (fAbs x.a1) < 2 ^ 149 + fVal x.a2)

/-- The first section of the first set that fails the test. -/
def bkUnstable (b : List Byte) : Option (Nat × Nat) :=
  (List.range (bkSets b)).findSome? fun i => (List.range (bkSecs b)).findSome? fun j =>
    if j ≠ bkInt b ∧ !secStable (bkSection b i j) then some (i, j) else none

/-- What LOOP_STAGE refuses of a bank (R230, R234): its length, its fields, its admission, its stability. -/
def bankBad (ps b : List Byte) : Option PErr :=
  let n := bkSecs b
  let p := bkPoints b
  let finiteAll := (List.range ((b.length - 48) / 4)).all fun k => fFinite (f32 b (48 + 4 * k))
  let bps := (List.range 8).all fun k => fFinite (bkPoint b k)
  let intOk := bkInt b == 0xFF || (bkInt b + 1 == n && (List.range (bkSets b)).all fun i =>
    fEq (bkCoef b i (n - 1) 3) (fOfInt (-1)) && fEq (bkCoef b i (n - 1) 4) fZero)
  firstErr [
    req (b.length == 48 + bkSets b * n * 20) { status := stBadLength },
    req (decide (1 ≤ n ∧ n ≤ 8) && (p == 0 || decide (2 ≤ p ∧ p ≤ 8)) && decide (u8 b 3 < 4)) badParam,
    req (finiteAll && bps && fFinite (f32 b 8) && fFinite (f32 b 44) && fIn fZero fOne (f32 b 4)) badParam,
    req intOk badParam,
    req ((List.range (p - 1)).all fun k => fLt (bkPoint b k) (bkPoint b (k + 1))) badParam,
    req (decide (n ≤ u8 ps 84) && (p == 0 || u8 ps 85 == 1)) { status := 0x0703 },
    match bkUnstable b with
    | some x => some { status := 0x0702, result := leBytes 1 x.1 ++ leBytes 1 x.2 }
    | none => none]

/-! ## Inputs of a sample (R231, R232) -/

/-- Ticks of a rate's period (R22, R78). -/
def rateTicks (rate : Nat) : Nat :=
  if rate = 0 then 24000 else if rate = 1 then 48000 else if rate = 2 then 96000 else if rate = 3 then 240000 else 480000

/-- T in seconds. -/
def loopT (o : Obj) : F32 := fOfFrac (rateTicks (jobRate o.act)) secTicks

/-- A quantity of a FEEDBACK: 0 position, 1 speed, 2 value. -/
def fbQuantity (f : Obj) (sel t : Nat) : F32 := if sel = 1 then fbSpeed f t else if sel = 0 then fbPosition f else fbValue f

/-- The measurement of a law (R232): `none` where its FEEDBACK has a fault or is not there. A LOOP shares that of its
present law, or of law A in MANUAL. -/
def lawMeas (s : State) (t : Nat) : Nat → Obj → Nat → Option F32
  | 0, _, _ => none
  | fuel + 1, o, l =>
    let q := lawOff l
    match objOf s (u32 o.act q) with
    | none => none
    | some m =>
      let raw : Option F32 :=
        if m.typ = tyLoop then lawMeas s t fuel m (modeLaw (max 1 (loopOf m).mode))
        else if isEnabled m && !(fbOf m).fault then some (fbQuantity m (u8 o.act (q + 4)) t) else none
      if m.typ = tyLoop then raw
      else raw.map fun x => fAdd (fMul (f32 o.act (q + 8)) x) (f32 o.act (q + 12))

/-- Members of a section on this device. -/
def localMembers (s : State) (sec : Obj) : List Obj :=
  (crefsOf tySection sec.act).filterMap fun r => if r.1 = s.osl.position then objOf s r.2 else none

/-- The demand of one section [L/min]: its members on this device whose output is on, and the parts that other devices
have reported within 5 ms; whether a part was older (R232). -/
def secDemand (s : State) (t : Nat) (h : Nat) : F32 × Bool :=
  match objOf s h with
  | none => (fZero, false)
  | some sec =>
    let own := (localMembers s sec).foldl (fun a c =>
      if c.typ = tyNozzle ∧ (chanOf c).output then fAdd a (chanOf c).flow else a) fZero
    (secOf sec).parts.foldl (fun a p =>
      if t ≤ p.2.2 + 5 * msTicks then (fAdd a.1 p.2.1, a.2) else (a.1, true)) (own, false)

/-- D of a law: the sum over its demand handles. -/
def lawDemand (s : State) (t : Nat) (o : Obj) (l : Nat) : F32 × Bool :=
  ((List.range 4).map fun k => u32 o.act (lawOff l + 20 + 4 * k)).foldl (fun a h =>
    if h = 0 then a else let x := secDemand s t h; (fAdd a.1 x.1, a.2 || x.2)) (fZero, false)

/-- The target of a law. -/
def lawTarget (s : State) (o : Obj) (l : Nat) (demand : F32) : F32 :=
  let src := u8 o.act (lawOff l + 5)
  if src = 1 then demand
  else if src = 2 then ((objOf s (u32 o.act (lawOff l + 16))).map fun x => (loopOf x).u).getD fZero
  else (lawOf (loopOf o) l).target

/-! ## Set-point, feed-forward, schedule (R238 to R240) -/

/-- The sign of a float32: -1, 0 or 1. -/
def fSign (x : F32) : F32 := if fLt fZero x then fOne else if fLt x fZero then fOfInt (-1) else fZero
/-- clamp(x, -m, m). -/
def fBound (m x : F32) : F32 := fClamp (fNeg m) m x

/-- `profile` of R239. -/
def lawProfile (o : Obj) (l : Nat) (tgt : F32) (x : LawRt) : LawRt :=
  let q := lawOff l
  let vm := f32 o.act (q + 52)
  let am := f32 o.act (q + 56)
  let jm := f32 o.act (q + 60)
  let T := loopT o
  if fEq vm fZero then { x with r := tgt, rv := fZero, ra := fZero }
  else
    let e0 := fSub tgt x.r
    let vc := fMul (fSign e0) (fMin vm (fSqrt (fMul am (fAbs e0))))
    let ac := fBound am (fDiv (fMul (fSub vc x.rv) jm) am)
    let ra := fAdd x.ra (fBound (fMul jm T) (fSub ac x.ra))
    let rv := fAdd x.rv (fMul ra T)
    let exceeds := fLt vm (fAbs rv)
    let rv1 := if exceeds then fMul (fSign rv) vm else rv
    let ra1 := if exceeds then fZero else ra
    let r := fAdd x.r (fMul rv1 T)
    if fLe (fMul (fSub tgt r) e0) fZero then { x with r := tgt, rv := fZero, ra := fZero }
    else { x with r := r, rv := rv1, ra := ra1 }

/-- A curve image of some points, linear or cubic: what R98 evaluates. -/
def curveOf (mode : Nat) (pts : List (F32 × F32)) : List Byte :=
  [1, 1, 0, 0] ++ leBytes 8 0 ++ leBytes 2 pts.length ++ leBytes 1 mode ++ [0] ++ pts.flatMap fun p => fBytes p.1 ++ fBytes p.2

/-- `coefficients` of R240: the sections, and the first section whose interpolation failed the test. -/
def bkCoefficients (b : List Byte) (rho : F32) : List Sec5 × Option Nat :=
  let n := bkPoints b
  if n = 0 then (bkSet b 0, none)
  else if fLe rho (bkPoint b 0) || fIsNaN rho then (bkSet b 0, none)
  else if fLe (bkPoint b (n - 1)) rho then (bkSet b (n - 1), none)
  else
    let i := ((List.range n).filter fun k => fLe (bkPoint b k) rho).getLast?.getD 0
    let lam := fDiv (fSub rho (bkPoint b i)) (fSub (bkPoint b (i + 1)) (bkPoint b i))
    let one (j c : Nat) : F32 :=
      let x := bkCoef b i j c
      if j = bkInt b ∧ 3 ≤ c then x
      else if bit (u8 b 3) 1 then curveEval (curveOf 2 ((List.range n).map fun k => (bkPoint b k, bkCoef b k j c))) rho
      else fAdd x (fMul lam (fSub (bkCoef b (i + 1) j c) x))
    let secs := (List.range (bkSecs b)).map fun j => ({ b0 := one j 0, b1 := one j 1, b2 := one j 2, a1 := one j 3, a2 := one j 4 } : Sec5)
    match (secs.zipIdx.find? fun x => x.2 != bkInt b && !secStable x.1) with
    | some x => (bkSet b (if fLt lam (fq 1 2) then i else i + 1), some x.2)
    | none => (secs, none)

/-! ## The cascade (R235, R236) -/

/-- One section in direct form II transposed: output and new states. -/
def secRun (c : Sec5) (z : F32 × F32) (x : F32) : F32 × (F32 × F32) :=
  let out := fAdd (fMul c.b0 x) z.1
  (out, (fAdd (fSub (fMul c.b1 x) (fMul c.a1 out)) z.2, fSub (fMul c.b2 x) (fMul c.a2 out)))

/-- The cascade from section `j` on: v, and the new states; z1 of the integrating section is held within ±z_lim. -/
def cascade (int : Nat) (zl : F32) : Nat → List Sec5 → List (F32 × F32) → F32 → F32 × List (F32 × F32)
  | _, [], _, x => (x, [])
  | j, c :: cs, z, x =>
    let y := secRun c (z.headD (0, 0)) x
    let z' := if j = int then (fBound zl y.2.1, y.2.2) else y.2
    let r := cascade int zl (j + 1) cs z.tail y.1
    (r.1, z' :: r.2)

/-- z_lim of a bank, u_max - u_min where it is 0 (R234). -/
def zLimit (ps b : List Byte) : F32 := if fEq (f32 b 44) fZero then fSub (f32 ps 28) (f32 ps 24) else fAbs (f32 b 44)

/-- The section that seeding acts on: the integrating one, else the last. -/
def seedSec (b : List Byte) : Nat := if bkInt b = 0xFF then bkSecs b - 1 else bkInt b

def setZ (k : Nat) (f : F32 × F32 → F32 × F32) (z : List (F32 × F32)) : List (F32 × F32) := z.set k (f (z.getD k (0, 0)))

/-- Section states padded to eight. -/
def z8 (z : List (F32 × F32)) : List (F32 × F32) := (z ++ List.replicate 8 (0, 0)).take 8

/-! ## The repetitive controller (R241) -/

/-- What the repetitive controller sees at a sample: its bin, φ, f_c, whether the cycle is in range, and whether its
FEEDBACK has a fault. -/
structure RcView where
  bin : Nat := 0
  phi : F32 := 0
  fc : F32 := 0
  inRange : Bool := false
  lost : Bool := false
  deriving DecidableEq, Repr

/-- The view at `t`. Without a period the part of the cycle since the last edge counts as whole, and the cycle is out of
range (log 21). -/
def rcView (s : State) (o : Obj) (t : Nat) : RcView :=
  match objOf s (u32 o.act 60) with
  | none => { lost := true }
  | some f =>
    let r := fbOf f
    let ppc := u16 o.act 64
    let n := (r.pos % (ppc : Int)).toNat
    let p := max 1 r.period
    let part := min p (t - r.tEdge)
    let num := (n * p + part) % (p * ppc)
    let lost := r.fault || !isEnabled f
    let fcOk := decide (fVal (f32 o.act 80) * (p * ppc : Nat) ≤ (secTicks : Int) * 2 ^ 149)
      && decide (rateTicks (jobRate o.act) * 256 ≤ p * ppc)
    { bin := 256 * num / (p * ppc), phi := fOpen 80 num (p * ppc)
      fc := if r.period = 0 then fZero else fOpen 81 secTicks (p * ppc)
      inRange := !lost && r.period != 0 && fcOk, lost := lost }

/-- Ticks in which fade moves from 0 to 1. -/
def fadeTicks : Nat := 100 * msTicks
def fadeOf (r : LoopRt) : F32 := fOfFrac r.fade fadeTicks

/-- The output of the controller at a sample. -/
def rcOutput (o : Obj) (r : LoopRt) (v : RcView) : F32 :=
  if bit (u8 o.act 23) 0 then fMul (fadeOf r) (r.bins.getD ((v.bin + u8 o.act 66) % 256) fZero) else fZero

/-- Learning, fade, the state shown, and what is reported once per episode. -/
def rcLearn (o : Obj) (v : RcView) (e : F32) (free : Bool) (r : LoopRt) : LoopRt × Option (Nat × List Byte) :=
  if !bit (u8 o.act 23) 0 then ({ r with rcstate := 0 }, none)
  else
    let learn := bit (u8 o.act 23) 1 && free && v.inRange
    let lim := f32 o.act 76
    let w := fAdd (fMul (fSub fOne (f32 o.act 72)) (r.bins.getD v.bin fZero)) (fMul (f32 o.act 68) e)
    let step := rateTicks (jobRate o.act)
    let r' := { r with
      bins := if learn then r.bins.set v.bin (fBound lim w) else r.bins
      fade := if v.inRange then min fadeTicks (r.fade + step) else r.fade - step
      phi := v.phi, fCycle := v.fc, rcOut := !v.inRange
      rcstate := if v.lost then 4 else if !v.inRange then 3 else if learn then 1 else 2 }
    (r', if v.inRange || r.rcOut then none else if v.lost then some (0x0747, []) else some (0x0746, fBytes v.fc))

/-! ## Transfers (R244) -/

/-- A transfer that has reached its time is judged by its last sample: it ends, or TRANSFER_DIVERGENT is raised, or it
goes on until its limit no longer binds. -/
def xferJudge (i : Nat) (s : State) : State :=
  match objAt s i with
  | none => s
  | some o =>
    let r := loopOf o
    let h := handleOf o
    if r.xfer = 0 ∨ r.lastTk < r.xAt + u32 o.act 52 * usTicks then s
    else if !r.xBind then
      raiseE 0x0743 0 h o.epoch (leBytes 1 r.xFrom ++ leBytes 1 r.mode ++ leBytes 1 (b2n r.matched)) (updLoop i (fun r => { r with xfer := 0, xTimed := false }) s)
    else if r.xTimed then s
    else if fLt (fMul (f32 o.act 56) (fSub (f32 o.act 28) (f32 o.act 24))) r.xGap then
      raiseE 0x0742 0 h o.epoch (fBytes r.xGap) (updLoop i (fun r => { r with xfer := 2, xTimed := true }) s)
    else updLoop i (fun r => { r with xTimed := true }) s

/-- TRANSFER_TIME_EXPIRY: the first sample at or after xfer_time has run. -/
def execTransferTimeExpiry (h : Nat) (s : State) : Host.Outcome State Fault Refusal :=
  .next (match objOf s h with
    | none => s
    | some o => if (loopOf o).xfer = 0 then s else xferJudge o.idx (toInstant ((loopOf o).xAt + u32 o.act 52 * usTicks) s))

/-! ## Sealed moves and mode changes at a sample (R242 to R244) -/

/-- A law takes its stage as its bank; section states carry over by index. -/
def sealLaw (x : LawRt) : LawRt :=
  let n := min (bkSecs x.bank) (bkSecs x.stage)
  { x with bank := x.stage, stage := [], z := z8 (x.z.take n) }

/-- Ticks from a requested GTC to the sample, 56 bits (R242). -/
def ticksLate (req t : Nat) : List Byte := leBytes 7 (if req = 0 then 0 else t - req)

/-- Apply the due sealed move of a loop; the mask of the laws it swapped. -/
def loopSeals (i t : Nat) (s : State) : Nat × State :=
  match objAt s i with
  | none => (0, s)
  | some o =>
    match s.hif.deferred.find? fun x => x.op == 0x0701 && x.handle == handleOf o && decide (x.due ≤ t) with
    | none => (0, s)
    | some x =>
      let f (r : LoopRt) : LoopRt :=
        let r := if bit x.arg 0 then setLaw 0 (sealLaw r.lawA) r else r
        let r := if bit x.arg 1 then setLaw 1 (sealLaw r.lawB) r else r
        { r with seals := satInc 32 r.seals, lastSeal := t }
      (x.arg, completeDeferred x { gtc := some t, epoch := o.epoch, result := ticksLate x.due t } (updLoop i f s))

/-- The mode changes that are due, in the order in which they started (R51). -/
def loopModeDue (s : State) (o : Obj) (t : Nat) : List Deferred :=
  s.hif.deferred.filter fun x => x.op == 0x0703 && x.handle == handleOf o && decide (x.due ≤ t)

/-- The mode that a sample enters and the manual value given with it, if it starts a transfer: that of the last change due; a
loop that has become ENABLED enters its own. -/
def modeEntered (r : LoopRt) (ds : List Deferred) : Option (Nat × Option F32) :=
  ds.foldl (fun a x =>
    let b := x.st.desc.bytes
    if u8 b 16 = (a.map (·.1)).getD r.mode ∧ !r.fresh then a else some (u8 b 16, if bit (u8 b 17) 0 then some (f32 b 20) else none))
    (if r.fresh then some (r.mode, some r.uManual) else none)

/-- Start a transfer into a mode. -/
def xferStart (t mode : Nat) (man : Option F32) (r : LoopRt) : LoopRt :=
  { r with
    xFrom := r.mode, mode := mode, xfer := 1, xAt := t, xTimed := false, xBind := false, matched := true, mismatch := fZero
    feSince := none, fresh := false
    fade := if r.mode = 0 ∨ mode = 0 then 0 else r.fade
    uManual := if mode = 0 then man.getD r.u else r.uManual }

/-! ## A sample (R233) -/

/-- What a law computes at a sample: its new running state, v, u_ff, u_rc, e, y, the target, D, ρ, the clamp section. -/
structure LawOut where
  law : LawRt
  old : List (F32 × F32)
  v : F32
  uff : F32
  urc : F32
  e : F32
  y : F32
  tgt : F32
  demand : F32
  stale : Bool
  rho : F32
  clamp : Option Nat
  matched : Bool
  mismatch : F32
  deriving DecidableEq, Repr

/-- The feed-forward (R238). -/
def lawFf (o : Obj) (l : Nat) (bank : List Byte) (r demand : F32) (s : State) : F32 × State :=
  let q := lawOff l
  let src := u8 o.act (q + 6)
  if src = 0 then (fZero, s)
  else
    let x := if src = 1 then r else demand
    if u32 o.act (q + 36) = 0 then (fMul (f32 bank 8) x, s) else curveAt (u32 o.act (q + 36)) x s

/-- ρ of a law (R240); with n_bp = 0 no region is found, and it reads 0 (log 21). -/
def lawRho (o : Obj) (l : Nat) (bank : List Byte) (r y demand : F32) (s : State) : F32 × State :=
  let q := lawOff l
  let src := u8 o.act (q + 44)
  let x := if src = 0 then r else if src = 1 then y else if src = 2 then demand else fAbs (fOfInt (i32 s.kin.rcd 40))
  if bkPoints bank = 0 then (fZero, s) else if u32 o.act (q + 40) = 0 then (x, s) else curveAt (u32 o.act (q + 40)) x s

/-- A law's sample with measurement `y`: `seed` at the first sample of a transfer, `bump` after a bumpless seal; its inputs are
latched in `s0` (R231). -/
def lawRun (o : Obj) (l t : Nat) (y : F32) (seed bump : Bool) (rc : RcView) (s0 s : State) : LawOut × State :=
  let rt := loopOf o
  let x := lawOf rt l
  let b := x.bank
  let d := lawDemand s0 t o l
  let tgt := lawTarget s0 o l d.1
  let x := if seed then { x with r := y, rv := fZero, ra := fZero } else lawProfile o l tgt x
  let ff := lawFf o l b x.r d.1 s
  let urc := rcOutput o rt rc
  let zl := zLimit o.act b
  let k := seedSec b
  let raw := fSub (fSub rt.u ff.1) urc
  let zs := if bkInt b = 0xFF then raw else fBound zl raw
  let z0 := if seed then setZ k (fun _ => (zs, fZero)) (List.replicate 8 (0, 0)) else x.z
  let e := fSub x.r y
  let rho := lawRho o l b x.r y d.1 ff.2
  let c := bkCoefficients b rho.1
  -- the bumpless seal sets z1 of the integrating section so that the output is that of the sample before (R243)
  let z1 := if bump && !seed && bkInt b != 0xFF then
      let inp := (cascade 0xFFFF zl 0 (c.1.take (bkInt b)) z0 e).1
      let b0 := ((c.1[bkInt b]?).map (·.b0)).getD fZero
      setZ (bkInt b) (fun z => (fBound zl (fSub rt.v (fMul b0 inp)), z.2)) z0
    else z0
  let w := cascade (bkInt b) zl 0 c.1 z1 e
  ({ law := { x with z := z8 w.2 }, old := z1, v := w.1, uff := ff.1, urc := urc, e := e, y := y, tgt := tgt, demand := d.1, stale := d.2
     rho := rho.1, clamp := c.2, matched := !seed || zs == raw
     mismatch := if seed then fAbs (fSub rt.u (fAdd (fAdd ff.1 urc) zs)) else fZero }, rho.2)

/-- Anti-windup on the integrating section (R236). -/
def antiWindup (o : Obj) (l : Nat) (x : LawOut) (raw ua : F32) : LawRt :=
  let b := x.law.bank
  let k := bkInt b
  if k = 0xFF ∨ fEq raw ua then x.law
  else
    let old := x.old.getD k (0, 0)
    let new := x.law.z.getD k (0, 0)
    let aw := u8 o.act (lawOff l + 7)
    if aw = 1 ∧ fLt fZero (fMul (fSub raw ua) (fSub new.1 old.1)) then { x.law with z := setZ k (fun _ => old) x.law.z }
    else if aw = 2 then
      { x.law with z := setZ k (fun z => (fBound (zLimit o.act b) (fAdd z.1 (fMul (f32 b 4) (fSub ua raw))), z.2)) x.law.z }
    else x.law

/-- The limits of R233 on a raw output: u_lim, u_a, u. -/
def loopLimits (o : Obj) (raw : F32) (active : Bool) (prev : F32) : F32 × F32 × F32 :=
  let T := loopT o
  let lim := fClamp (f32 o.act 24) (f32 o.act 28) raw
  let ur := f32 o.act 32
  let ua := if fPos ur then fAdd prev (fBound (fMul ur T) (fSub lim prev)) else lim
  (lim, ua, if active then fAdd prev (fBound (fMul (f32 o.act 48) T) (fSub ua prev)) else ua)

/-- A sample whose state or output is not finite is discarded: states and bins become 0, LOOP_NONFINITE (R246). -/
def loopNonfinite (i h : Nat) (s : State) : State :=
  class1 h 0x0745 [] (updLoop i (fun r => { r with
    lawA := { r.lawA with z := List.replicate 8 (0, 0) }, lawB := { r.lawB with z := List.replicate 8 (0, 0) }
    bins := List.replicate 256 0 }) s)

def lawFinite (x : LawRt) : Bool := fFinite x.r && fFinite x.rv && fFinite x.ra && x.z.all fun z => fFinite z.1 && fFinite z.2

/-- Supervision (R245): the following-error timer and the peak. -/
def loopSupervise (o : Obj) (l t : Nat) (fe : F32) (r : LoopRt) : LoopRt :=
  let lim := f32 o.act (lawOff l + 64)
  { r with fe := fe, fePeak := fMax r.fePeak fe
           feSince := if fPos lim && fLt lim fe then some (r.feSince.getD t) else none }

/-- Complete the LOOP_MODE descriptors of this sample (R244). -/
def modeComplete (ds : List Deferred) (i t : Nat) (s : State) : State :=
  ds.foldl (fun s x => match objAt s i with
    | some o => completeDeferred x
        { gtc := some t, epoch := o.epoch, result := leBytes 1 (b2n (loopOf o).matched) ++ fBytes (loopOf o).mismatch } s
    | none => s) s

/-- The end of every committed sample: the output, the counts, and the transfer's limit (R233, R244). -/
def loopCommit (i t : Nat) (lims : F32 × F32 × F32) (raw : F32) (s : State) : State :=
  match objAt s i with
  | none => s
  | some o =>
    let s := updLoop i (fun r => { r with
      samples := satInc 32 r.samples, lastTk := t
      atLimit := fEq lims.2.2 (f32 o.act 24) || fEq lims.2.2 (f32 o.act 28), rateBinds := !fEq lims.2.1 lims.1
      xBind := r.xfer != 0 && !fEq lims.2.2 lims.2.1, xGap := fAbs (fSub lims.2.1 lims.2.2) }) s
    let s := loopWrite o lims.2.2 s
    match objAt s i with
    | none => s
    | some o => if (loopOf o).xTimed then xferJudge i s else s

/-- What the repetitive controller reports of a sample. -/
def rcReport (o : Obj) (ev : Option (Nat × List Byte)) (s : State) : State :=
  match ev with
  | some ev => raiseE ev.1 0 (handleOf o) o.epoch ev.2 s
  | none => s

/-- A sample in MANUAL: the repetitive controller follows its cycle with fade 0 (R241). -/
def loopManual (i t : Nat) (s0 s : State) : State :=
  match objAt s i with
  | none => s
  | some o =>
    let r := loopOf o
    let lims := loopLimits o r.uManual (r.xfer != 0) r.u
    if !fFinite lims.2.2 then loopNonfinite i (handleOf o) s
    else
      let rc := rcLearn o (rcView s0 o t) fZero false r
      rcReport o rc.2 (loopCommit i t lims r.uManual (updLoop i (fun _ => { rc.1 with fade := 0 }) s))

/-- A sample in a law. -/
def loopLaw (i t : Nat) (seed bump : Bool) (s0 s : State) : State :=
  match objAt s i with
  | none => s
  | some o =>
    let h := handleOf o
    let r := loopOf o
    let l := modeLaw r.mode
    match (lawMeas s0 t 33 o l).bind fun y => if fFinite y then some y else none with
    | none => class1 h 0x0744 (leBytes 1 l) s
    | some y =>
      let rc := rcView s0 o t
      let w := lawRun o l t y seed bump rc s0 s
      let x := w.1
      let raw := fAdd (fAdd x.v x.uff) x.urc
      let active := r.xfer != 0
      let lims := loopLimits o raw active r.u
      let law := antiWindup o l x raw lims.2.1
      let learned := rcLearn o rc x.e (fEq raw lims.2.1 && !active) r
      let fe := fAbs (fSub law.r y)
      let r' := loopSupervise o l t fe { setLaw l law learned.1 with
        v := x.v, e := x.e, y := y, uff := x.uff, urc := x.urc, demand := x.demand, stale := x.stale, region := x.rho
        clampNow := x.clamp.isSome, clamps := if x.clamp.isSome then satInc 32 r.clamps else r.clamps
        matched := if seed then x.matched else r.matched, mismatch := if seed then x.mismatch else r.mismatch }
      if !(lawFinite law && fFinite lims.2.2 && r'.bins.all fFinite) then loopNonfinite i h w.2
      else
        let s := loopCommit i t lims raw (updLoop i (fun _ => r') w.2)
        let s := rcReport o learned.2 s
        match x.clamp with
        | some j => raiseLimited secTicks 0x0741 0 h 0 o.epoch (fBytes x.rho ++ leBytes 1 l ++ leBytes 1 j) 0 0 s
        | none => s

/-- A clock instant of the trace: every 2^DECIM-th is recorded (R249). -/
def trcTick (t : Nat) (s : State) : State :=
  if s.trc.state = 1 ∨ s.trc.state = 2 ∨ s.trc.state = 4 then
    { s with trc := { s.trc with
      ticks := s.trc.ticks + 1
      due := if s.trc.ticks % 2 ^ (min 10 s.trc.decim) = 0 then some t else s.trc.due } }
  else s

/-- One committed run of a loop's job: a sample at `t`, its inputs latched in `s0` (R231, R233). -/
def loopSample (t i : Nat) (s0 s : State) : State :=
  let s := updObj i (fun o => { o with act := o.params }) s
  let s := updLoop i (fun r => { r with uManual := r.manNext.getD r.uManual, manNext := none, clampNow := false }) s
  let sealed := loopSeals i t s
  let s := sealed.2
  match objAt s i with
  | none => s
  | some o =>
    let s := if !(loopOf o).xTimed then xferJudge i s else s
    let r := loopOf o
    let ds := loopModeDue s o t
    let start := modeEntered r ds
    let s := match start with
      | some m => updLoop i (xferStart t m.1 m.2) s
      | none => s
    let mode := (start.map (·.1)).getD r.mode
    let s :=
      if mode = 0 then loopManual i t s0 s
      else
        let l := modeLaw mode
        loopLaw i t start.isSome (bit sealed.1 l && bit (u8 (lawOf r l).bank 3) 0) s0 s
    let s := modeComplete ds i t s
    if s.trc.clock = handleOf o ∧ s.trc.clock ≠ 0 then trcTick t s else s

/-- LOOP_FE_TIMEOUT: the following-error timer has reached fe_time, judged at the last sample (R245, R246). -/
def execLoopFeTimeout (h : Nat) (s : State) : Host.Outcome State Fault Refusal :=
  .next (match objOf s h with
    | none => s
    | some o =>
      let r := loopOf o
      match r.feSince with
      | none => s
      | some t =>
        let l := modeLaw r.mode
        if r.lastTk < t + u32 o.act (lawOff l + 68) * usTicks then s
        else class1 h 0x0740 (fBytes r.fe ++ leBytes 1 l) (updLoop o.idx (fun r => { r with feSince := none }) s))

/-! ## Opcodes (R252) -/

/-- A seal of the loop is pending (R242). -/
def sealPending (s : State) (h : Nat) : Bool := s.hif.deferred.any fun x => x.op == 0x0701 && x.handle == h

/-- LOOP_STAGE (R230, R234, R242). -/
def bodyLoopStage (d : Desc) (o : Obj) (s : State) : State :=
  let b := blockOf s d
  if 2 ≤ dOffset d then fail d stBadParam s
  else if sealPending s (handleOf o) then fail d 0x0704 s
  else match bankBad o.params b with
    | some e => failWith d e.status e.result s
    | none => ok d (updLoop o.idx (fun r => setLaw (dOffset d) { lawOf r (dOffset d) with stage := b } r) s)

def execLoopStage (d : Desc) (s : State) : Host.Outcome State Fault Refusal := .next (runObj 0x0700 d (bodyLoopStage d) s)

/-- LOOP_SEAL (R242): at a sample of an ENABLED loop, else at acceptance. -/
def bodyLoopSeal (d : Desc) (o : Obj) (s : State) : State :=
  let m := u8 d.bytes 16
  let r := loopOf o
  let h := handleOf o
  if m = 0 ∨ 4 ≤ m then fail d stBadParam s
  else if sealPending s h then fail d 0x0704 s
  else if (bit m 0 && r.lawA.stage.isEmpty) || (bit m 1 && r.lawB.stage.isEmpty) then fail d 0x0701 s
  else if isEnabled o then defer d 0x0701 h (u64 d.bytes 24) [] m s
  else ok d (updLoop o.idx (fun r =>
    let r := if bit m 0 then setLaw 0 (sealLaw r.lawA) r else r
    if bit m 1 then setLaw 1 (sealLaw r.lawB) r else r) s)

def execLoopSeal (d : Desc) (s : State) : Host.Outcome State Fault Refusal := .next (runObj 0x0701 d (bodyLoopSeal d) s)

/-- LOOP_SETPOINT (R232, R252). -/
def bodyLoopSetpoint (d : Desc) (o : Obj) (s : State) : State :=
  let l := u8 d.bytes 20
  if 2 ≤ l ∨ !fFinite (f32 d.bytes 16) then fail d stBadParam s
  else if !isEnabled o ∨ u8 o.params (lawOff l + 5) ≠ 0 then fail d stState s
  else ok d (updLoop o.idx (fun r => setLaw l { lawOf r l with target := f32 d.bytes 16 } r) s)

def execLoopSetpoint (d : Desc) (s : State) : Host.Outcome State Fault Refusal := .next (runObj 0x0702 d (bodyLoopSetpoint d) s)

/-- A law can be entered: it has a measurement, else STATE, and a bank, else NO_BANK (R229, R253). -/
def lawEnterBad (o : Obj) (mode : Nat) : Option Nat :=
  if mode = 0 then none
  else if u32 o.params (lawOff (modeLaw mode)) = 0 then some stState
  else if (lawOf (loopOf o) (modeLaw mode)).bank.isEmpty then some 0x0701
  else none

/-- LOOP_MODE (R244): deferred to its sample. -/
def bodyLoopMode (d : Desc) (o : Obj) (s : State) : State :=
  let b := d.bytes
  if 3 ≤ u8 b 16 ∨ 2 ≤ u8 b 17 ∨ !fFinite (f32 b 20) then fail d stBadParam s
  else if !isEnabled o then fail d stState s
  else match lawEnterBad o (u8 b 16) with
    | some e => fail d e s
    | none => defer d 0x0703 (handleOf o) (u64 b 24) [] (u8 b 16) s

def execLoopMode (d : Desc) (s : State) : Host.Outcome State Fault Refusal := .next (runObj 0x0703 d (bodyLoopMode d) s)

/-- LOOP_MANUAL (R237, R252). -/
def bodyLoopManual (d : Desc) (o : Obj) (s : State) : State :=
  if !fFinite (f32 d.bytes 16) then fail d stBadParam s
  else if !isEnabled o ∨ (loopOf o).mode ≠ 0 then fail d stState s
  else ok d (updLoop o.idx (fun r => { r with manNext := some (f32 d.bytes 16) }) s)

def execLoopManual (d : Desc) (s : State) : Host.Outcome State Fault Refusal := .next (runObj 0x0704 d (bodyLoopManual d) s)

/-- LOOP_RC (R252). -/
def bodyLoopRc (d : Desc) (o : Obj) (s : State) : State :=
  let k := u8 d.bytes 16
  let put (ps : List Byte) (on : Bool) : List Byte := putAt ps 23 (leBytes 1 (setBit (u8 ps 23) 1 on))
  if 3 ≤ k then fail d stBadParam s
  else if k = 0 then ok d (updLoop o.idx (fun r => { r with bins := List.replicate 256 0 }) s)
  else ok d (updObj o.idx (fun o => { o with params := put o.params (k == 2), act := put o.act (k == 2) }) s)

def execLoopRc (d : Desc) (s : State) : Host.Outcome State Fault Refusal := .next (runObj 0x0705 d (bodyLoopRc d) s)

/-- LOOP_BANK_READ (R252): a law without that bank completes NO_BANK (log 21). -/
def bodyLoopBankRead (d : Desc) (o : Obj) (s : State) : State :=
  let q := dOffset d
  let x := lawOf (loopOf o) (q % 256)
  let b := if 256 ≤ q then x.stage else x.bank
  if ¬ (q % 256 < 2 ∧ q / 256 < 2) then fail d stBadParam s
  else if b.isEmpty then fail d 0x0701 s
  else writeBack d (b.take (dBlockLen d)) {} s

def execLoopBankRead (d : Desc) (s : State) : Host.Outcome State Fault Refusal := .next (runObj 0x0706 d (bodyLoopBankRead d) s)

/-! ## Enabling, disabling, status (R228, R229, R247, R248) -/

/-- What ENABLE of a loop asks besides its block: limits within the driven object's range, a PWMCH in duty mode (R259),
a law that can be entered. -/
def loopEnableBad (s : State) (o : Obj) : Option Nat :=
  let ps := o.params
  let lo := f32 ps 24
  let hi := f32 ps 28
  let within : Bool := match objOf s (u32 ps 16) with
    | none => true
    | some t =>
      if t.typ = tyPwmch then fLe fZero lo && fLe hi fOne && u8 t.params 3 == 0
      else if t.typ = tySolenoid then fLe fZero lo && fLe hi (f32 t.params 36)
      else if u8 ps 20 = 0 then fLe (fNeg (f32 t.params 32)) lo && fLe hi (f32 t.params 32)
      else true
  if !(fLt lo hi && within) then some stBadParam else lawEnterBad o (u8 ps 21)

/-- A loop becomes ENABLED: a transfer from u_off starts at its first sample; the driven gate opens (R244, R247, R262). -/
def loopEnable (i : Nat) (s : State) : State :=
  match objAt s i with
  | none => s
  | some o =>
    let zero (x : LawRt) (l : Nat) : LawRt := { x with z := List.replicate 8 (0, 0), target := f32 o.act (lawOff l + 48) }
    gateOpen (u32 o.act 16) none (updLoop i (fun r => { r with
      mode := u8 o.act 21, lawA := zero r.lawA 0, lawB := zero r.lawB 1, u := f32 o.act 44, uManual := f32 o.act 36
      manNext := none, fresh := true, xfer := 0, fade := 0, rcOut := false, feSince := none, fePeak := 0, samples := 0, v := 0, clampNow := false }) s)

/-- DISABLE writes u_off once (R247). -/
def loopDisable (i : Nat) (s : State) : State :=
  match objAt s i with
  | none => s
  | some o => loopWrite o (f32 o.act 44) (updLoop i (fun r => { r with xfer := 0, feSince := none }) s)

/-- The type-specific part of a LOOP's status (R248). -/
def loopStatus (s : State) (o : Obj) : List Byte :=
  let r := loopOf o
  let x := lawOf r (modeLaw (max 1 r.mode))
  let d := lawDemand s s.gtc o (modeLaw (max 1 r.mode))
  let fl := b2n (sealPending s (handleOf o)) + 2 * b2n r.clampNow + 4 * b2n r.atLimit + 8 * b2n r.rateBinds
    + 16 * b2n r.feSince.isSome + 32 * b2n r.stale
  leBytes 1 r.mode ++ leBytes 1 r.xfer ++ leBytes 1 r.rcstate ++ leBytes 1 fl ++ fBytes x.r ++ fBytes r.y ++ fBytes r.u
    ++ fBytes r.uff ++ fBytes r.urc ++ fBytes (lawTarget s o (modeLaw (max 1 r.mode)) d.1) ++ fBytes r.demand ++ fBytes r.region
    ++ fBytes r.fCycle ++ satBytes 4 r.samples ++ satBytes 4 r.seals ++ satBytes 4 r.clamps ++ fBytes r.fePeak
    ++ leBytes 8 r.lastSeal ++ fBytes r.mismatch ++ [0, 0, 0, 0]

end Sys2Proof.Machine
end

