-- ==== Sys2Proof/Machine/Predictor.lean ====
section
/-! DEFINITION. Edge predictors of NOZZLE and ROW channels (06, R188, R195 to R200, R209, R215, R216): lead times, the
compare of an edge, its judging, its firing, and the windows in which a valve's latency is learned (R190 to R194). -/

namespace Sys2Proof.Machine

def isChan (o : Obj) : Bool := o.typ == tyNozzle || o.typ == tyRow

/-- Path units in a micrometre. -/
def umUnits : Int := 13107200000

/-- The geometry point that places a channel. -/
def chPoint (s : State) (o : Obj) : Option Obj := objOf s (u32 o.act 16)

/-- A section of the lead as a member holds it (log 19): at no index of this device. -/
def viewSection (v : SecView) : Obj :=
  { idx := 4096, typ := tySection, ost := .enabled, act := List.replicate 16 0 ++ v.ps
    rt := .sect { gate := v.gate, wingLost := v.lost, tcRate := v.tcRate, tq := v.tq } }

/-- The ENABLED section that a channel belongs to, of this device or on a member of the lead (R201, R202). -/
def chSection (s : State) (o : Obj) : Option Obj :=
  if s.osl.role = 2 then (s.osl.secs.find? fun v => v.chan == handleOf o).map viewSection
  else (objsOf s tySection).find? fun x => isEnabled x && (crefsOf tySection x.act).contains (s.osl.position, handleOf o)

/-- A point's state for boundary `b`: the one waiting in its shadow, or the present one. -/
def geoFor (p : Obj) (b : Nat) : GeoPt :=
  match (geoOf p).next with
  | some x => if x.boundary = b then x else (geoOf p).cur
  | none => (geoOf p).cur

/-- Path units of a length in 2^-96 mm. -/
def pathUnits (d : Fx) : Int := fxToInt 71 (1000 * umUnits * d)

/-! ## Lead times (R188) -/

/-- The pressure of press_src [kPa] at `t`: a LOOP's measurement under the rule of R232, its last one where that has a fault; 0
without a source. -/
def chPressure (s : State) (t : Nat) (o : Obj) : F32 :=
  if o.typ ≠ tyNozzle then fZero
  else match objOf s (u32 o.act 68) with
    | none => fZero
    | some x => if x.typ = tyLoop then (lawMeas s t 33 x (modeLaw (max 1 (loopOf x).mode))).getD (loopOf x).y else fbValue x

/-- settle(p) in 2^-96 µs. -/
def chSettle (o : Obj) (p : F32) (s : State) : Fx × State :=
  if o.typ ≠ tyNozzle ∨ u32 o.act 64 = 0 then (0, s)
  else let x := curveAt (u32 o.act 64) p s; (1000 * fxF x.1, x.2)

/-- The largest lead time: 2,000 ms. -/
def leadMax : Fx := fxOf 2000000

/-- The lead time of an edge kind [2^-96 µs], with SCHED_LEAD_CLAMP where it is held to 2,000 ms. -/
def chLead (o : Obj) (on : Bool) (s : State) : Fx × State :=
  let r := chanOf o
  let st := if on then chSettle o r.press s else (0, s)
  let l := (if on then r.latOn else r.latOff) + fxOf (u32 o.act 52) + st.1
  if leadMax < l then (leadMax, raiseLimited secTicks 0x0647 0 (handleOf o) 0 o.epoch [BitVec.ofNat 8 (b2n on)] 0 0 st.2)
  else (l, st.2)

/-- Ticks of a lead time. -/
def leadTicks (l : Fx) : Int := fxToInt 70 (l * usTicks)

/-! ## Compares (R195) -/

/-- `compare_for`: the path position for a switch instant and a lead time in ticks; none for HOLD. -/
def compareFor (s : State) (p : Obj) (b : Nat) (tP lead : Int) : Option Int :=
  let x := geoFor p b
  let tc := tP - lead
  if (b : Int) ≤ tc then
    if (horizon : Int) < tc - b then none
    else some (x.s + pathUnits (predict s (recFor s b) p (tc - b).toNat).ds)
  else some (x.s - roundOpen 72 (2 * x.v * (b - tc)) frameTicks)

/-- The least number above `lo`, up to `hi`, with a property that holds from there to `hi`. -/
def bisect (q : Nat → Bool) : Nat → Nat → Nat → Nat
  | 0, _, hi => hi
  | fuel + 1, lo, hi =>
    if hi ≤ lo + 1 then hi
    else
      let m := (lo + hi) / 2
      if q m then bisect q fuel lo m else bisect q fuel m hi

/-- The first tick after boundary `b`, within the horizon, at which the prediction brings something about: `hit` sees
the prediction at two instants of one 10 ms step. -/
def predSearch (s : State) (rc : List Byte) (p : Obj) (hit : Pred → Pred → Bool) : Nat → Nat → Pred → Option Nat
  | 0, _, _ => none
  | fuel + 1, t, q =>
    let n := 10 * msTicks
    let q1 := predStep s rc p n q
    if hit q q1 then some (t + bisect (fun d => hit q (predStep s rc p d q)) 24 0 n)
    else predSearch s rc p hit fuel (t + n) q1

/-- The instant at which the predicted path position reaches `target`, from boundary `b` on (R204, R209). -/
def pathAhead (s : State) (p : Obj) (b : Nat) (target : Int) : Option Int :=
  let rc := recFor s b
  let x := geoFor p b
  let left (q : Pred) : Int := target - x.s - pathUnits q.ds
  if target = x.s then some b
  else (predSearch s rc p (fun q q1 => (decide (0 < left q) && decide (left q1 ≤ 0)) || (decide (left q < 0) && decide (0 ≤ left q1)))
    250 0 (predStart s rc p)).map fun t => ((b + t : Nat) : Int)

/-- The same where the point may have passed the place already (R195, its linear part). -/
def pathInstant (s : State) (p : Obj) (b : Nat) (target : Int) : Option Int :=
  let x := geoFor p b
  let d := target - x.s
  if d * x.v < 0 then some ((b : Int) - roundOpen 76 ((d.natAbs * frameTicks : Nat) : Int) (2 * x.v.natAbs))
  else pathAhead s p b target

/-- The side of a line on which a place lies: positive to its left. -/
def lineSide (l : List Int) (x y : Fx) : Int :=
  let a := l.getD 0 0
  let b := l.getD 1 0
  sgn (cross (l.getD 2 0 - a) (l.getD 3 0 - b) (x - fxOf a) (y - fxOf b))

/-- The way from one place to another meets the segment. -/
def meetsSegment (l : List Int) (x0 y0 x1 y1 : Fx) : Bool :=
  let c (i : Nat) : Int := sgn (cross (x1 - x0) (y1 - y0) (fxOf (l.getD i 0) - x0) (fxOf (l.getD (i + 1) 0) - y0))
  c 0 * c 2 ≤ 0

/-- Where a prediction puts the point: east and north. -/
def predAt (s : State) (rc : List Byte) (p : Obj) (q : Pred) : Fx × Fx := let x := predPose s rc p q; (x.1.x, x.1.y)

/-- t_P of an edge, where it is known: for LINE and PATH the first predicted instant, searched at every run (R209). -/
def edgeInstant (s : State) (p : Obj) (b : Nat) (lead : Int) (e : Edge) : Edge × Option Int :=
  let rc := recFor s b
  let x := geoFor p b
  let q0 := predStart s rc p
  let w := predAt s rc p q0
  let seen := some (x.s, w.1, w.2)
  if e.form = 0 then (e, some (b + lead))
  else if e.form = 1 then (e, some e.whenAt)
  else if e.form = 3 then
    let past := (e.seen.map fun z => decide ((e.whenAt - z.1) * (e.whenAt - x.s) ≤ 0)).getD false
    let t := if past then some (b : Int) else pathAhead s p b e.whenAt
    match t with
    | some t => ({ e with form := 1, whenAt := t }, some t)
    | none => ({ e with seen := seen }, none)
  else
    let side := if e.side ≠ 0 then e.side else lineSide e.line w.1 w.2
    let past := (e.seen.map fun z => lineSide e.line w.1 w.2 != side && meetsSegment e.line z.2.1 z.2.2 w.1 w.2).getD false
    let hit (a c : Pred) : Bool :=
      let u := predAt s rc p a
      let v := predAt s rc p c
      lineSide e.line u.1 u.2 == side && lineSide e.line v.1 v.2 != side && meetsSegment e.line u.1 u.2 v.1 v.2
    let t : Option Int := if side = 0 then none else if past then some (b : Int)
      else (predSearch s rc p hit 250 0 q0).map fun t => ((b + t : Nat) : Int)
    match t with
    | some t => ({ e with form := 1, whenAt := t, side := side }, some t)
    | none => ({ e with side := side, seen := seen }, none)

/-- The direction a compare is armed with (R197). -/
def pointDir (p : Obj) (x : GeoPt) (qual : Int) : Int :=
  if x.v ≠ 0 then sgn x.v else if (geoOf p).moved then (if (geoOf p).lastRev then -1 else 1) else qual

/-! ## Queueing (R200) -/

/-- The commanded state: after every queued edge. -/
def commanded (r : ChRt) : Bool := (r.queue.getLast?.map (·.on)).getD r.last

/-- What becomes of a new edge. -/
inductive Pushed where
  | same | full | queued
  deriving DecidableEq, Repr

/-- Where the point of an edge is at its acceptance, for the forms that search (R209). -/
def edgeSeen (s : State) (o : Obj) (e : Edge) : Edge :=
  match chPoint s o with
  | none => e
  | some p =>
    let w := predAt s s.kin.rcd p (predStart s s.kin.rcd p)
    { e with seen := some ((geoOf p).cur.s, w.1, w.2), side := if e.form = 2 then lineSide e.line w.1 w.2 else 0 }

/-- Compare one new edge at a job run: its value, and whether it removes the entry `prev` before it. -/
def edgeWrite (s : State) (o p : Obj) (b : Nat) (leadOn leadOff : Int) (prev : Option Edge) (e : Edge) : Edge :=
  let x := geoFor p b
  let lead := if e.on then leadOn else leadOff
  let f := edgeInstant s p b lead e
  let e := f.1
  let val := if e.form = 0 then some x.s else f.2.bind fun t => compareFor s p b t lead
  let e := match val with
    | none => e
    | some v =>
      let behind := match prev with
        | none => false
        | some q => q.st == 0 || decide ((v - q.value) * (if q.st = 2 then q.dir else pointDir p x q.qual) ≤ 0)
      { e with st := 1, value := v, dir := pointDir p x e.qual, load := b, removes := behind }
  if o.typ = tyRow ∧ e.on ∧ e.pre.1 = 0 ∧ ¬ e.removes ∧ fMag (f32 o.act 72) ≠ 0 then
    match f.2.bind fun t => compareFor s p b t (lead + ((u32 o.act 76 * usTicks : Nat) : Int)) with
    | none => e
    | some v => { e with pre := (1, v, 1) }
  else e

/-- Queue an edge behind the last entry. A fifth is refused with SCHED_QUEUE_FULL, but for one whose compare is not ahead of
the fourth, which it removes (R200): that one is written at once. -/
def chPush (o : Obj) (e : Edge) (s : State) : Pushed × State :=
  let r := ((objAt s o.idx).map chanOf).getD {}
  let put (e : Edge) : Pushed × State := (.queued, updChan o.idx (fun r => { r with queue := r.queue ++ [e] }) s)
  let full : Pushed × State := (.full, raiseLimited secTicks 0x0642 0 (handleOf o) 0 o.epoch [] 4 4 s)
  if e.on == commanded r then (.same, s)
  else
    let e := edgeSeen s o e
    if r.queue.length < 4 then put e
    else if 4 < r.queue.length then full
    else match chPoint s o with
      | none => full
      | some p =>
        let w := edgeWrite s o p (shadowBoundary s.gtc) ((r.leadOn * usTicks : Nat) : Int) ((r.leadOff * usTicks : Nat) : Int) r.queue.getLast? e
        if w.removes then put w else full

/-- Write the compares of a run, in the order of the queue; the entries that stand when those that remove have taken
their opposites are kept beside, last first. -/
def edgesWrite (s : State) (o p : Obj) (b : Nat) (leadOn leadOff : Int) (q : List Edge) : List Edge :=
  (q.foldl (fun (a : List Edge × List Edge) e =>
    let e := if e.st = 0 then edgeWrite s o p b leadOn leadOff a.2.head? e else e
    (a.1 ++ [e], if e.removes then a.2.tail else e :: a.2)) ([], [])).1

/-! ## Firing (R196, R213, R215) -/

/-- Learning is enabled for a kind of edge, so that it opens a sample window (R191). -/
def learns (o : Obj) (on : Bool) : Bool := bit (chFlags o) (if on then 2 else 3)

/-- The VBAT group of a sense channel. -/
def senseGroup (s : State) (h : Nat) : Nat :=
  match objOf s h with
  | some x => if x.typ = tySwitch then lineGroup (swLine x.act) else 0
  | none => 0

/-- The meter of a ROW. -/
def chMeter (s : State) (o : Obj) : Option Obj := if o.typ = tyRow then objOf s (chOut o) else none

/-- Protection of a sense channel that is in force: current limit, retry, thermal limiting, open load, a latch (R192). -/
def senseProtected (x : Obj) : Bool :=
  if x.typ = tySwitch then
    let r := swOf x
    r.limAt.isSome || r.retryAt.isSome || r.retryWait || r.dtOff || r.openLoad || r.latch != 0
  else x.typ == tySolenoid && (solOf x).latch != 0

/-- The failure that an edge's window begins with (R192), 0 for none. -/
def firstReason (s : State) (o : Obj) (r : ChRt) (e : Edge) : Nat :=
  if o.typ = tyRow then
    if ((chMeter s o).map fun a => a.ost == .faulted).getD false then 10
    else if e.on ∧ (e.pre.1 = 4 ∨ (r.preUntil.map fun t => decide (s.gtc < t)).getD false) then 10
    else if chSense s o = 0 then 9
    else if s.pwr.vbatLow.getD 0 false then 3
    else 0
  else
    let h := chSense s o
    let low := ((objOf s (chOut o)).map fun x => x.typ == tyPwmch && (pwmOf x).gate && !sideAct s.gtc (pwmOf x).h).getD false
    if chPulsed o ∧ (if e.on then decide (u8 o.act 73 * 1000 < u32 o.act 48) else low) then 2
    else if h = 0 then 9
    else if s.pwr.vbatLow.getD (senseGroup s h) false then 3
    else match objOf s h with
      | some x =>
        if x.typ = tySolenoid ∧ bankOther s x then 1
        else if senseProtected x then 6 else 0
      | none => 0

/-- The reason that the edge gave the window of the SOLENOID it drives and learns from: a boost skipped at once (R192). -/
def solReason (s : State) (o : Obj) : Nat :=
  if chSense s o = chOut o then (((objOf s (chOut o)).bind fun x => (solOf x).window).map fun w => if w.edge = s.gtc then w.reason else 0).getD 0
  else 0

/-- The output goes to the state of an edge. -/
def chDrive (o : Obj) (on : Bool) (s : State) : State :=
  if !on then chOff o s
  else
    let s := updChan o.idx (fun r => { r with output := true, preUntil := none, dryAt := s.gtc, seedPos := none }) s
    match chMeter s o with
    | some a => axTakeTarget a.idx { kind := 2, value := (chanOf o).want } false s
    | none =>
      let minpw := ((objOf s (chOut o)).map fun x => if x.typ = tyPwmch then u32 x.act 20 else 0).getD 0
      gateOpen (chOut o) (if chPulsed o then some (s.gtc + max (u8 o.act 73 * msTicks) minpw) else none) s

/-- An edge fires: `t` is the instant at the predictor, the present one that at the output. It ends the windows it falls
into, drives the output, gives its flow interval with the learned latency, and opens its own window (R189, R191, R192). -/
def chFire (o : Obj) (e : Edge) (t : Nat) (late : Bool) (dist : Nat) (s : State) : State :=
  let s := chReason o.idx 7 s
  match objAt s o.idx with
  | none => s
  | some o =>
    let r := chanOf o
    let reason := firstReason s o r e
    let tWas := r.tOn
    let settle := (chSettle o r.press s).1
    let tOn := s.gtc + fxTicks (r.latOn + fxOf (u32 o.act 52) + settle)
    let tOff := s.gtc + fxTicks (r.latOff + fxOf (u32 o.act 52))
    let s := updChan o.idx (fun r => { r with last := e.on }) (chDrive o e.on s)
    let s := if e.on ∧ ¬ outForced s (chOut o) then flowMark o.idx tOn true s else s
    let reason := if reason = 0 then solReason s o else reason
    if learns o e.on then
      updChan o.idx (fun r => { r with windows := r.windows ++ [{
        on := e.on, edge := s.gtc, reason := reason, settle := settle, cmd := e.cmd, late := late, dist := dist
        fired := t, prov := if e.on then tOn else tOff, was := tWas }] }) s
    else
      let s := updChan o.idx (fun r => { r with lastReason := 9 }) s
      edgeReport o e.cmd e.on (if late then .late else .fired) dist 9 t s

/-- A pre-charge starts: the meter turns its counts in prechg_time (R215). -/
def preRun (o : Obj) (s : State) : State :=
  match chMeter s o with
  | none => s
  | some a =>
    updChan o.idx (fun r => { r with preUntil := some (s.gtc + u32 o.act 76 * usTicks) })
      (axTakeTarget a.idx { kind := 3, value := axOfFx (fxF (f32 o.act 72)), dur := u32 o.act 76 } false s)

/-- A running pre-charge whose on edge goes stops at the meter's deceleration limit (R216). -/
def preStop (o : Obj) (e : Edge) (s : State) : State :=
  let r := ((objAt s o.idx).map chanOf).getD {}
  if e.pre.1 = 3 ∧ r.preUntil.isSome ∧ ¬ r.output then
    match chMeter s o with
    | some a => axTakeTarget a.idx { kind := 2, value := 0 } false (updChan o.idx (fun r => { r with preUntil := none }) s)
    | none => s
  else s

/-- An edge goes without firing: its command completes, its pre-charge goes with it. -/
def edgeDrop (o : Obj) (e : Edge) (k : EdgeEnd) (dist : Nat) (s : State) : State :=
  edgeReport o e.cmd e.on k dist 0 s.gtc (preStop o e s)

/-! ## Judging (R197, R199) -/

/-- The late-action policy of a channel (R199). -/
def lateAction (s : State) (o : Obj) : Nat :=
  match chSection s o with
  | some x => u8 x.act 19
  | none => 0

/-- The late window in path units. -/
def lateWindow (o : Obj) : Int := (u16 o.act 34 : Int) * 1000 * umUnits

/-- A pre-charge compare at its load boundary (R216). -/
def preJudge (o p : Obj) (e : Edge) (s : State) : Edge × State :=
  if e.pre.1 ≠ 1 then (e, s)
  else
    let x := (geoOf p).cur
    let dir := pointDir p x e.qual
    let d := (e.pre.2.1 - x.s) * dir
    if 0 ≤ d then ({ e with pre := (2, e.pre.2.1, dir) }, s)
    else if -d ≤ lateWindow o then ({ e with pre := (3, e.pre.2.1, dir) }, preRun o s)
    else ({ e with pre := (4, e.pre.2.1, dir) }, s)

/-- Count a LATE or BEHIND edge and raise its event (R226). -/
def lateEvent (o : Obj) (late on : Bool) (dist : Nat) (s : State) : State :=
  let s := updChan o.idx (fun r => { r with
    lastLate := dist
    late := if late then satInc 32 r.late else r.late
    behind := if late then r.behind else satInc 32 r.behind }) s
  raiseLimited secTicks (if late then 0x0640 else 0x0641) 0 (handleOf o) 0 o.epoch [BitVec.ofNat 8 (b2n on)] 4 4 s

/-- Judge the queue of a channel at boundary `b`, entry by entry; the entries that stay are collected. -/
def judgeQueue (o p : Obj) (b : Nat) : List Edge → List Edge → State → List Edge × State
  | [], kept, s => (kept, s)
  | e :: rest, kept, s =>
    let r := ((objAt s o.idx).map chanOf).getD {}
    let x := (geoOf p).cur
    let state := (kept.getLast?.map (·.on)).getD r.last
    let loads := decide (e.st = 1 ∧ e.load ≤ b)
    if loads && e.removes && !kept.isEmpty then
      let s := match kept.getLast? with
        | some q => edgeDrop o q .cancelled 0 s
        | none => s
      judgeQueue o p b rest kept.dropLast (edgeDrop o e .cancelled 0 s)
    else if e.on == state then judgeQueue o p b rest kept (edgeDrop o e .cancelled 0 s)
    else
      let pj := preJudge o p e s
      let e := pj.1
      let s := pj.2
      if !loads then judgeQueue o p b rest (kept ++ [e]) s
      else
        let dir := pointDir p x e.qual
        let d := (e.value - x.s) * dir
        let dist := (roundOpen 73 (-d) umUnits.toNat).toNat
        let armed : Edge := { e with st := 2, dir := dir, removes := false }
        let fire (late : Bool) (s : State) : List Edge × State :=
          if kept.isEmpty then judgeQueue o p b rest [] (chFire o e b late (if late then dist else 0) s)
          else judgeQueue o p b rest (kept ++ [{ armed with lateBy := if late then some dist else none }]) s
        if e.form = 0 then fire false s
        else if 0 ≤ d then judgeQueue o p b rest (kept ++ [armed]) s
        else if -d ≤ lateWindow o then
          let la := lateAction s o
          let s := lateEvent o true e.on dist s
          if la = 2 ∨ (la = 1 ∧ e.on) then judgeQueue o p b rest kept (edgeDrop o e .lateDropped dist s)
          else fire true s
        else
          let s := lateEvent o false e.on dist s
          if e.tc then judgeQueue o p b rest (kept ++ [{ e with st := 0, form := 0, removes := false }]) s
          else judgeQueue o p b rest kept (edgeDrop o e .behind dist s)

/-- A channel at boundary `b`: its point's state joins the ones kept for the marks, then its queue is judged. -/
def chBoundary (b : Nat) (o : Obj) (s : State) : State :=
  match chPoint s o with
  | none => s
  | some p =>
    let s := updChan o.idx (fun r => { r with hist := ((geoOf p).cur :: r.hist).take 12 }) s
    let q := (chanOf o).queue
    let x := judgeQueue o p b q [] s
    updChan o.idx (fun r => { r with queue := x.1 }) x.2

/-! ## Crossing (R196) -/

/-- (s(t) - value) × direction at tick `n` of the frame, in 1/48,000² path units. -/
def crossing (x : GeoPt) (value dir : Int) (n : Nat) : Int :=
  ((x.s - value) * 48000 * 48000 + 2 * x.v * 48000 * n + x.a * n * n) * dir

/-- The first tick of the frame at which the head entry fires, from tick `lo` on: on each side of the turning point of
the motion. -/
def crossTick (x : GeoPt) (value dir : Int) (lo : Nat) : Option Nat :=
  let q (n : Nat) : Bool := decide (0 ≤ crossing x value dir n)
  let turn : Nat := if x.a = 0 then 0 else (-(x.v * 48000) / x.a).toNat
  let last := frameTicks - 1
  if q lo then some lo
  else
    let m := if lo < turn ∧ turn < last then turn else lo
    if lo < m ∧ q m then some (bisect q 17 lo m)
    else if m + 1 ≤ last ∧ q (m + 1) then some (m + 1)
    else if q last then some (bisect q 17 (m + 1) last)
    else none

/-- PREDICTOR_FIRE: the head entry of an ENABLED channel is crossed within the frame that the present instant lies in;
its edge reaches the output `lag` ticks later, 96 at most, and the next entry becomes the head (R196). -/
def execPredictorFire (h lag : Nat) (s : State) : Host.Outcome State Fault Refusal :=
  .next (match objOf s h with
    | none => s
    | some o =>
      match chPoint s o, (chanOf o).queue with
      | some p, e :: rest =>
        let x := (geoOf p).cur
        if !isEnabled o || !isChan o || e.st != 2 then s
        else match crossTick x e.value e.dir 0 with
          | none => s
          | some n =>
            let t := max s.gtc (x.boundary + n)
            let s := updChan o.idx (fun r => { r with queue := rest }) (toInstant (t + min lag 96) s)
            chFire o e t e.lateBy.isSome (e.lateBy.getD 0) s
      | _, _ => s)

/-- PRECHARGE_FIRE: the armed pre-charge compare of a ROW's first on edge is crossed (R215, R216). -/
def execPrechargeFire (h lag : Nat) (s : State) : Host.Outcome State Fault Refusal :=
  .next (match objOf s h with
    | none => s
    | some o =>
      match chPoint s o, (chanOf o).queue.find? fun e => e.pre.1 == 2 with
      | some p, some e =>
        let x := (geoOf p).cur
        if !isEnabled o then s
        else match crossTick x e.pre.2.1 e.pre.2.2 0 with
          | none => s
          | some n =>
            let s := toInstant (max s.gtc (x.boundary + n) + min lag 96) s
            preRun o (updChan o.idx (fun r => { r with queue := r.queue.map fun y => if y = e then { y with pre := (3, e.pre.2) } else y }) s)
      | _, _ => s)

/-! ## Learning (R189 to R193) -/

/-- Put the end of an interval at another instant, in the status and for the marks that have still to tell of it. -/
def reflow (old new : Nat) (on : Bool) (r : ChRt) : ChRt :=
  { r with
    flows := r.flows.map fun f => if f = (old, on) then (new, on) else f
    tOn := if on && r.tOn == old then new else r.tOn
    tOff := if !on && r.tOff == old then new else r.tOff }

/-- An on edge without a signature opens no interval (R189): it is taken back, or ended where marks have told of it. -/
def unflow (t was now : Nat) (r : ChRt) : ChRt :=
  { r with
    flowing := false
    tOn := if r.tOn = t then was else r.tOn
    flows := if r.flows.contains (t, true) then r.flows.erase (t, true) else r.flows ++ [(now, false)] }

/-- The learned latency of a kind of edge after a sample `x` (R191). -/
def learned (ps : List Byte) (lat x : Fx) : Fx :=
  clampInt (fxOf (u32 ps 44)) (fxOf (u32 ps 48)) (lat + fxMul (fxF (f32 ps 56)) (x - lat))

/-- The outcome of a window (R191): its reason, and the channel with its learned latency and counts. -/
def closeWindow (o : Obj) (w : Sample) (sig : Option Nat) (r : ChRt) : Nat × ChRt :=
  let lat := if w.on then r.latOn else r.latOff
  if w.reason ≠ 0 then (w.reason, r)
  else match sig with
    | none => (4, r)
    | some t =>
      let x : Fx := fxFrac ((t : Int) - w.edge) usTicks
      if 3 * lat < 10 * fxAbs (x - lat) then
        let n := (if w.on then r.rejOn else r.rejOff) + 1
        let us := some (fxToInt 77 x).toNat
        (5, if w.on then { r with rejOn := n, shiftOn := if n = 16 then us else r.shiftOn }
            else { r with rejOff := n, shiftOff := if n = 16 then us else r.shiftOff })
      else
        let l := learned o.act lat x
        (0, if w.on then { r with rejOn := 0, latOn := l, samplesOn := satInc 16 r.samplesOn }
            else { r with rejOff := 0, latOff := l, samplesOff := satInc 16 r.samplesOff })

/-- The instant at which a window closes: lat_max after its edge, and for a ROW's off edge not before no pulse has followed the
last one for lat_max (R190, R191). -/
def windowEnds (o : Obj) (w : Sample) : Nat :=
  let m := u32 o.act 48 * usTicks
  max (w.edge + m) (if o.typ = tyRow ∧ ¬ w.on then ((w.sig.map (· + m)).getD 0) else 0)

/-- LATENCY_WINDOW_CLOSE: the oldest window of a channel closes. `codes` are the sense channel's conversions, `t0` the start of the
round of the first, `vbat` the lowest VBAT sample in the window [mV]; a ROW's signature is its seed pulse (R190 to R193, R292). -/
def execLatencyWindowClose (h vbat t0 : Nat) (codes : List Code) (s : State) : Host.Outcome State Fault Refusal :=
  .next (match objOf s h with
    | none => s
    | some o =>
      match (chanOf o).windows with
      | [] => s
      | w :: ws =>
        let row := o.typ == tyRow
        let s := toInstant (windowEnds o w) s
        let span := learnSpan o w.edge
        let sig := if row then w.sig.filter fun t => decide (span.1 ≤ t ∧ t ≤ span.2)
          else (objOf s (chSense s o)).bind fun x => signatureOf x w.on span.1 span.2 t0 codes
        let low := decide (vbat < u16 o.act 60) || s.pwr.vbatLow.getD (senseGroup s (chSense s o)) false
        let bad := row && ((chMeter s o).map fun a => a.ost == .faulted).getD false
        let w := if cutShort w.cut sig then { w with reason := 1 } else if w.reason ≠ 0 then w else if low then { w with reason := 3 } else if bad then { w with reason := 10 } else w
        let x := closeWindow o w sig (chanOf o)
        let r := { x.2 with windows := ws, lastReason := x.1, noSample := if x.1 = 0 then x.2.noSample else satInc 32 x.2.noSample }
        let r := match x.1, sig with
          | 0, some t => reflow w.prov (t + fxTicks (fxOf (u32 o.act 52) + if w.on then w.settle else 0)) w.on r
          | _, _ => r
        let confirm := o.typ == tyNozzle && bit (chFlags o) 1
        let r := if confirm ∧ w.on ∧ x.1 = 4 then unflow w.prov w.was s.gtc r else r
        let r := if w.on then { r with stuck := if x.1 = 4 then r.stuck + 1 else 0 } else r
        let s := updChan o.idx (fun _ => r) s
        edgeReport o w.cmd w.on (if w.late then .late else .fired) w.dist x.1 w.fired s)

/-- SCHED_LATENCY_SHIFT: the sixteenth consecutive outlier is reported (R191, R193). -/
def execSchedLatencyShift (h : Nat) (s : State) : Host.Outcome State Fault Refusal :=
  .next (match objOf s h with
    | none => s
    | some o =>
      let say (on : Bool) (us : Nat) (s : State) : State := raiseE 0x0643 0 h o.epoch ([BitVec.ofNat 8 (b2n on), 0, 0, 0] ++ leBytes 4 us) s
      match (chanOf o).shiftOn, (chanOf o).shiftOff with
      | some x, _ => say true x (updChan o.idx (fun r => { r with shiftOn := none }) s)
      | none, some x => say false x (updChan o.idx (fun r => { r with shiftOff := none }) s)
      | none, none => s)

/-- SCHED_VALVE_STUCK: three consecutive on edges of a confirm-flagged NOZZLE without a signature (R193). -/
def execSchedValveStuck (h : Nat) (s : State) : Host.Outcome State Fault Refusal :=
  .next (match objOf s h with
    | none => s
    | some o =>
      if o.typ = tyNozzle ∧ bit (chFlags o) 1 ∧ 3 ≤ (chanOf o).stuck then
        class1 h 0x0644 [] (updChan o.idx (fun r => { r with stuck := 0 }) s)
      else s)

end Sys2Proof.Machine
end

