-- ==== Sys2Proof/Machine/Decisions.lean ====
section
/-! DEFINITION. Decisions of the section scheduler (06, R201 to R217; 05, R167 to R171): the channel job with its marks,
queries, duty and meter speed, the section job, and delivery of decisions to members. -/

namespace Sys2Proof.Machine

/-! ## Rates (R211, R212, R214) -/

/-- The unit of the prescription layer, on a member of the lead's (R211). -/
def presUnit (s : State) : Option Nat :=
  if s.osl.role = 2 then s.osl.board.pres.map fun x => x.2.1 else (layerOn s false).map fun l => u8 l.act 54

/-- The application rate of a channel, its unit, and a unit received that does not fit (0 none). -/
def chRate (s : State) (o : Obj) : F32 × Nat × Nat :=
  match chSection s o with
  | none => (fZero, if o.typ = tyNozzle then 1 else 3, 0)
  | some sec =>
    let base := (f32 sec.act 44, u8 sec.act 43)
    let take (x : F32) (u : Nat) : F32 × Nat × Nat := if unitFits o.typ u then (x, u, 0) else (base.1, base.2, u)
    if u8 sec.act 42 = 1 then
      match (chanOf o).ans with
      | none => (base.1, base.2, 0)
      | some a =>
        if fIsNaN (f32 a.2 12) then (base.1, base.2, 0)
        else take (f32 a.2 12) ((presUnit s).getD base.2)
    else if u8 sec.act 42 = 2 then
      match (secOf sec).tcRate with
      | none => (base.1, base.2, 0)
      | some x => take x.1 x.2
    else (base.1, base.2, 0)

/-- The magnitude of a point's speed, as a fraction of mm/s. -/
def speedFrac (p : Obj) : Nat × Nat := ((geoOf p).cur.v.natAbs, 655360000)

/-- The flow of a pulsed NOZZLE [L/min] (R212). -/
def nozzleFlow (o p : Obj) (rate : F32) : F32 :=
  let v := speedFrac p
  fOpen 80 (fVal rate * v.1 * u16 o.act 30 * 6) (2 ^ 149 * v.2 * 1000000000)

/-- The number of curves whose pressure is at most `p`, of the first `n`. -/
def pressBelow (ps : List Byte) (p : F32) (n : Nat) : Nat := ((List.range n).filter fun k => fLe (f32 ps (92 + 4 * k)) p).length

/-- The duty at a flow and a pressure, and whether the flow lies outside a curve used (R212): each of the curves is evaluated,
and those whose pressures enclose p, or the outermost, give the duty. -/
def nozzleDuty (o : Obj) (flow p : F32) (s : State) : F32 × Bool × State :=
  let n := u8 o.act 74
  let h (k : Nat) : Nat := u32 o.act (76 + 4 * k)
  let out (k : Nat) : Bool := ((tableOf s (h k)).map fun b => curveOut b flow).getD false
  let y (k : Nat) : F32 := (curveAt (h k) flow s).1
  let s' := (List.range n).foldl (fun s k => (curveAt (h k) flow s).2) s
  let k := pressBelow o.act p n
  if k = 0 ∨ k = n then
    let j := if k = 0 then 0 else n - 1
    (fClamp fZero fOne (y j), out j, s')
  else
    let a := y (k - 1)
    let p0 := f32 o.act (92 + 4 * (k - 1))
    let p1 := f32 o.act (92 + 4 * k)
    (fClamp fZero fOne (fAdd a (fMul (fDiv (fSub p p0) (fSub p1 p0)) (fSub (y k) a))), out (k - 1) || out k, s')

/-- rate_m of a ROW [2^-96 seeds/m] (R214). -/
def rowRate (o : Obj) (rate : F32) (unit : Nat) : Fx := if unit = 4 then fxF rate else fxF rate * u16 o.act 30 / 10000000

/-- Duty and flow of a NOZZLE, or target velocity and seed rate of a ROW, in one run (R212 to R214). -/
def chOutputRun (o p : Obj) (s : State) : State :=
  let x := chRate s o
  let h := handleOf o
  let bad := (chanOf o).unitBad
  let s := if x.2.2 ≠ 0 ∧ x.2.2 ≠ bad then raiseE 0x064A 0 h o.epoch (leBytes 1 x.2.2) s else s
  let s := updChan o.idx (fun r => { r with unitBad := x.2.2 }) s
  if o.typ = tyRow then
    let m := rowRate o x.1 x.2.1
    let v := speedFrac p
    let perS := m * v.1 / ((v.2 * 1000 : Nat) : Int)
    let want := fxMul perS (fxF (f32 o.act 68)) / ((max 1 (u16 o.act 64) : Nat) : Int)
    let on := (chanOf o).output
    let s := updChan o.idx (fun r => { r with
      rateM := m, want := want, duty := if on then fxToF 81 want else fZero, flow := fxToF 82 perS
      dryAt := if on ∧ fxOf (kc16 s 152) < fxFrac v.1 v.2 then r.dryAt else s.gtc }) s
    match chMeter s o with
    | some a => if on then updAx a.idx (fun r => { r with inbox := some { kind := 2, value := want } }) s else s
    | none => s
  else if chPulsed o then
    let fl := nozzleFlow o p x.1
    let y := nozzleDuty o fl (chanOf o).press s
    let s := updChan o.idx (fun r => { r with duty := y.1, flow := fl }) y.2.2
    let s := if y.2.1 then raiseLimited secTicks 0x0646 0 h 0 o.epoch [] 4 4 s else s
    writeDuty (chOut o) y.1 (some (u8 o.act 72)) s
  else
    updChan o.idx (fun r => { r with flow := nozzleFlow o p x.1 }) s

/-! ## Marks (R167 to R170) -/

/-- A record goes to the board unit of this device, or upstream to the lead. -/
def sendRecord (query : Bool) (rec : List Byte) (s : State) : State :=
  if s.osl.role = 2 then
    { s with osl := { s.osl with outbox := s.osl.outbox ++ [{ kind := if query then .query else .mark, dst := 0, src := s.osl.position, body := rec }] } }
  else if query then { s with board := { s.board with queries := s.board.queries ++ [(s.osl.position, rec)] } }
  else queueMark { pos := s.osl.position, bytes := rec } s

/-- The point between the kept boundary states, by linear interpolation (R167). -/
def histAt : List GeoPt → Nat → GeoPt
  | [], _ => {}
  | [x], _ => x
  | x :: y :: rest, t =>
    if x.boundary ≤ t then x
    else if y.boundary ≤ t then
      let n : Int := (t : Int) - y.boundary
      let d := x.boundary - y.boundary
      let mid (tag : Nat) (a b : Int) : Int := a + roundOpen tag ((b - a) * n) (max 1 d)
      let hd := fxReduce (fxF x.heading - fxF y.heading)
      { pos := { x := mid 83 y.pos.x x.pos.x, y := mid 84 y.pos.y x.pos.y, z := 0 }
        heading := fxToF 85 ((fxF y.heading + hd * n / ((max 1 d : Nat) : Int)) % fxTwoPi) }
    else histAt (y :: rest) t

/-- A heading in 2π/65,536 rad. -/
def headingUnits (x : Fx) : Nat := ux 16 (fxToInt 86 (fxDiv (x * 65536) fxTwoPi))

/-- Form a mark record (R170). -/
def markSend (o : Obj) (flags : Nat) (g : GeoPt) (s : State) : State :=
  let r := ((objAt s o.idx).map chanOf).getD {}
  let nopos := if recPosValid s.kin.rcd then 0 else 4
  let rcd := leBytes 1 r.chan ++ leBytes 1 (flags + nopos) ++ leBytes 2 (u16 o.act 28) ++ iBytes 4 g.pos.x ++ iBytes 4 g.pos.y
    ++ leBytes 2 (headingUnits (fxF g.heading)) ++ leBytes 2 r.markSeq
  sendRecord false rcd (updChan o.idx (fun r => { r with markSeq := wrapInc 16 r.markSeq }) s)

/-- The earliest of some flow changes. -/
def firstFlow : List (Nat × Bool) → Option (Nat × Bool)
  | [] => none
  | x :: rest => match firstFlow rest with
    | none => some x
    | some y => if y.1 < x.1 then some y else some x

/-- The START and END records up to boundary `b`, in order of time, then the record for `b` while flowing (R167). -/
def marksRun (o : Obj) (b : Nat) : Nat → State → State
  | 0, s => s
  | fuel + 1, s =>
    let r := ((objAt s o.idx).map chanOf).getD {}
    match firstFlow (r.flows.filter fun f => decide (f.1 ≤ b)) with
    | some f =>
      let s := updChan o.idx (fun r => { r with flows := r.flows.erase f, marking := f.2 }) s
      marksRun o b fuel (if f.2 == r.marking then s else markSend o (if f.2 then 1 else 2) (histAt r.hist f.1) s)
    | none => if r.marking then markSend o 0 (histAt r.hist b) s else s

/-- Forget the flow changes up to a boundary, for a channel that does not mark. -/
def flowsPast (i b : Nat) (s : State) : State :=
  updChan i (fun r => { r with flows := r.flows.filter fun f => decide (b < f.1), marking := false }) s

/-! ## Queries (R171, R172, R204) -/

/-- The size of the squares of the coverage layer that serves this device (R171, R180). -/
def covSize (s : State) : Nat := if s.osl.role = 2 then s.osl.board.size else ((layerOn s true).map laySize).getD 0

/-- The signed length of the strip [2^-96 mm] (R171). -/
def stripLen (s : State) (p : Obj) (l : Fx) : Fx :=
  let sz := fxOf (covSize s)
  if sz ≤ fxAbs l then l else if (geoOf p).moved && (geoOf p).lastRev then -sz else sz

/-- Form the query of a channel due at boundary `b`, with the horizon `lead` in ticks (R171). -/
def querySend (o p : Obj) (b : Nat) (lead : Int) (s : State) : State :=
  let rc := s.kin.rcd
  let tau := (max 0 lead).toNat + 96000
  let q := predict s rc p tau
  let l := stripLen s p ((predict s rc p (tau + msTicks)).ds - q.ds)
  let w := predPose s rc p q
  let len := clampInt (-32768) 32767 (fxToInt 87 l)
  let rcd := leBytes 1 (chanOf o).chan ++ leBytes 1 (b2n (decide (horizon < tau)) + 2 * b2n (!recPosValid rc)) ++ leBytes 2 (u16 o.act 28)
    ++ iBytes 4 (fxToInt 88 w.1.x) ++ iBytes 4 (fxToInt 89 w.1.y) ++ leBytes 2 (headingUnits w.2) ++ iBytes 2 len
  let s := updChan o.idx (fun r => { r with queries := r.queries ++ [{ boundary := b, near := (geoOf p).cur.s + pathUnits q.ds, len := len, body := rcd }] }) s
  sendRecord true rcd s

/-- The answer that a member's channel takes from the lead's miss policy, with LATE set (R174): the squares are not counted there,
one stands for all (log 18). -/
def memberLate (v : BoardView) (q : Query) (last : Option (List Byte)) : List Byte :=
  let chan := u8 q.body 0
  let keep := (last.map fun a => (u8 a 10, f32 a 12)).getD (255, 0x7FC00000)
  let p : (Nat × F32) × Bool := match v.pres with
    | none => ((255, 0x7FC00000), false)
    | some x => if x.1 = 2 then (keep, true) else ((255, x.2.2), false)
  leBytes 1 chan ++ leBytes 1 (1 + 4 * b2n (v.miss == 2 || p.2) + 8 * b2n (bit (u8 q.body 1) 1)) ++ leBytes 2 1
    ++ leBytes 2 (if v.miss = 1 then 1 else 0) ++ [0, 0, 0, 0] ++ leBytes 1 p.1.1 ++ [0] ++ fBytes p.1.2

/-- The answers to members' channels in force for the lead's section-wide decisions (R206). -/
def farInForce (b : Nat) (s : State) : State :=
  { s with board := { s.board with chans := s.board.chans.map fun c => match c.next with
    | some x => if x.1 + 2 * frameTicks ≤ b then { c with ans := some x, next := none, ansNew := true } else c
    | none => c } }

/-- At slot 7 of a frame the answers to the queries of two frames before come in force; a channel whose answer is absent
takes one from the miss policy with LATE set, where there is a coverage layer (R174 step 6). -/
def answersInForce (b : Nat) (s : State) : State :=
  (s.objs.filter isChan).foldl (fun s o =>
    let due (q : Query) : Bool := decide (q.boundary + 2 * frameTicks ≤ b)
    let s := match (chanOf o).queries with
      | q :: qs =>
        if !due q then s
        else if s.osl.role = 2 then
          let a := memberLate s.osl.board q ((chanOf o).ans.map (·.2))
          updChan o.idx (fun r => { r with queries := qs, ansNext := if s.osl.board.cov then some (q, a) else r.ansNext }) s
        else if (layerOn s true).isSome then
          let a := answerOf s.osl.position q.body true s
          updChan o.idx (fun r => { r with queries := qs, ansNext := some (q, a.1) }) a.2
        else updChan o.idx (fun r => { r with queries := qs }) s
      | [] => s
    match ((objAt s o.idx).map chanOf).bind (·.ansNext) with
    | some x => if due x.1 then updChan o.idx (fun r => { r with ans := some x, ansNext := none, ansNew := true }) s else s
    | none => s) (farInForce b s)

/-! ## Board decisions (R204 to R206) -/

/-- The placement of the switch point in the strip, in quarters. -/
def placement (pref : Nat) (want : Bool) : Int :=
  if pref = 1 then (if want then 1 else 3) else if pref = 2 then (if want then 3 else 1) else 2

/-- A count's fraction of a total against a float32 threshold: below, equal or above. -/
def fracCmp (n total : Nat) (th : F32) : Ordering := compare ((n * 2 ^ 149 : Nat) : Int) (fVal th * total)

/-- The state that an answer asks for (R204): none for HOLD or where nothing decides. -/
def boardWant (sec : Obj) (cmd : Bool) (aflags total applied excluded : Nat) : Option Bool :=
  let ps := sec.act
  if bit aflags 2 then none
  else if bit aflags 3 then (if u8 ps 32 = 0 then none else some (u8 ps 32 == 1))
  else if total = 0 then none
  else
    let exc := fracCmp excluded total (f32 ps 28) == .gt
    if cmd then some (!(fracCmp applied total (f32 ps 20) != .lt || exc))
    else some (fracCmp applied total (f32 ps 24) != .gt && !exc)

/-- t_P of a board decision from a query (R204). -/
def boardInstant (s : State) (p : Obj) (b : Nat) (sec : Obj) (q : Query) (want : Bool) : Option Int :=
  pathInstant s p b (q.near + roundOpen 90 (placement (u8 sec.act 18) want * q.len * 1000 * umUnits) 4)

/-- A section makes decisions: its gate is open, and a lost wing does not hold it (R201, R203). -/
def secDecides (sec : Obj) : Bool := (secOf sec).gate && !((secOf sec).wingLost && u8 sec.act 33 == 1)

/-- A channel decides on a new answer (R204), in a section with the grain per channel. -/
def chDecide (o p : Obj) (b : Nat) (s : State) : State :=
  match chSection s o, (chanOf o).ans with
  | some sec, some a =>
    if u8 sec.act 16 ≠ 0 ∨ u8 sec.act 17 ≠ 0 ∨ !(chanOf o).ansNew then s
    else
      let s := updChan o.idx (fun r => { r with ansNew := false }) s
      let cmd := commanded (chanOf o)
      if !secDecides sec then s
      else match boardWant sec cmd (u8 a.2 1) (u16 a.2 2) (u16 a.2 4) (u16 a.2 6) with
        | none => s
        | some want =>
          if want == cmd then s
          else match boardInstant s p b sec a.1 want with
            | none => s
            | some t =>
              let s := updSec sec.idx (fun r => { r with lastTp := t }) s
              (chPush o { on := want, form := 1, whenAt := t } s).2
  | _, _ => s

/-! ## The channel job -/

/-- Microseconds of a lead time for the status, rounded openly. -/
def leadUs (l : Fx) : Nat := (fxToInt 78 l).toNat

/-- A run of a channel's job in the slot that begins at `tk` (R79, R188): lead times, output, decision, marks and query,
compares. -/
def chJob (tk i : Nat) (s : State) : State :=
  match objAt s i with
  | none => s
  | some o =>
    match chPoint s o with
    | none => s
    | some p =>
      let s := updChan i (fun r => { r with press := chPressure s tk o }) s
      match objAt s i with
      | none => s
      | some o =>
        let on := chLead o true s
        let off := chLead o false on.2
        let s := updChan i (fun r => { r with leadOn := leadUs on.1, leadOff := leadUs off.1 }) off.2
        let b := shadowBoundary (max tk s.gtc)
        let s := chOutputRun o p s
        let s := match objAt s i with
          | some o => chDecide o p b s
          | none => s
        match objAt s i with
        | none => s
        | some o =>
          let fs := frameStart tk
          let due := frameNo tk % 10 == (chanOf o).chan % 10
          let s := if !due then s else if bit (chFlags o) 0 then marksRun o fs 64 s else flowsPast i fs s
          let sec := chSection s o
          let asks := (sec.map fun x => u8 x.act 16 == 0 || u8 x.act 42 == 1).getD false
          let whole := (sec.map fun x => u8 x.act 16 == 0 && u8 x.act 17 == 1).getD false
          let tq : Int := match sec with
            | some x => if whole then (((secOf x).tq * usTicks : Nat) : Int)
                else if commanded (chanOf o) then leadTicks off.1 else leadTicks on.1
            | none => 0
          let s := if due && asks then querySend o p fs tq s else s
          updChan i (fun r => { r with queue := edgesWrite s o p b (leadTicks on.1) (leadTicks off.1) r.queue }) s

/-! ## Members on other devices (R76, R180, R202, R206, R207, log 19) -/

/-- A member on another device is absent: it was lost, or its position is not in the cluster (R76). -/
def farAbsent (s : State) (pos : Nat) : Bool := s.osl.role != 1 || s.osl.absent.contains pos || decide (s.osl.devices ≤ pos)

/-- A channel of another device, as last reported. -/
def farOf (s : State) (m : Nat × Nat) : Option FarChan := s.osl.far.find? fun c => c.pos == m.1 && c.handle == m.2

/-- The ENABLED members of a section on other devices that are present. -/
def farChans (s : State) (sec : Obj) : List FarChan :=
  (crefsOf tySection sec.act).filterMap fun m => if m.1 = s.osl.position || farAbsent s m.1 then none else (farOf s m).filter (·.on)

/-- The other devices, those present, that have members of a section. -/
def farPositions (s : State) (sec : Obj) : List Nat :=
  (((crefsOf tySection sec.act).map (·.1)).filter fun p => p != s.osl.position && !farAbsent s p).eraseDups

/-- What a member's channel holds of its section, or that it has none (log 19): kind 1, the section, the channel, flags, the Task
Controller's rate, bytes 16 to 47 of the block. -/
def sectionView (sec : Obj) (h : Nat) (on : Bool) : List Byte :=
  let r := secOf sec
  let x := r.tcRate.getD (0, 0)
  [1] ++ leBytes 4 (handleOf sec) ++ leBytes 4 h ++ leBytes 1 (b2n on + 2 * b2n r.gate + 4 * b2n r.wingLost + 8 * b2n r.tcRate.isSome)
    ++ leBytes 1 x.2 ++ fBytes x.1 ++ slice sec.act 16 32

/-- What a member holds of the lead's layers (log 19): kind 0, flags, policies, unit, square size, default rate. -/
def boardView (s : State) : List Byte :=
  let c := layerOn s true
  let p := layerOn s false
  [0] ++ leBytes 1 (b2n c.isSome + 2 * b2n p.isSome) ++ leBytes 1 ((c.map layMiss).getD 0) ++ leBytes 1 ((p.map layMiss).getD 0)
    ++ leBytes 1 ((p.map fun l => u8 l.act 54).getD 0) ++ leBytes 2 ((c.map laySize).getD 0) ++ fBytes ((p.map layDefault).getD 0)

/-- What the members present are to hold. -/
def viewsDue (s : State) : List (Nat × Nat × List Byte) :=
  let ps := ((List.range s.osl.devices).filter fun p => p != s.osl.position && !farAbsent s p)
  (ps.map fun p => (p, 0, boardView s)) ++
    ((objsOf s tySection).filter isEnabled).flatMap fun o =>
      ((crefsOf tySection o.act).filter fun m => ps.contains m.1).map fun m => (m.1, m.2, sectionView o m.2 true)

def sendView (pos : Nat) (body : List Byte) (s : State) : State :=
  { s with osl := { s.osl with outbox := s.osl.outbox ++ [{ kind := .view, dst := pos, src := s.osl.position, body := body }] } }

/-- At a boundary the lead tells the members present what has changed. -/
def viewBoundary (s : State) : State :=
  if s.osl.role ≠ 1 then s
  else
    let due := viewsDue s
    let gone := s.osl.told.filter fun x => !farAbsent s x.1 && !due.any fun y => y.1 == x.1 && y.2.1 == x.2.1
    let s := gone.foldl (fun s x => sendView x.1 (sectionView {} x.2.1 false) s) s
    let s := (due.filter fun y => !s.osl.told.contains y).foldl (fun s y => sendView y.1 y.2.2 s) s
    { s with osl := { s.osl with told := due } }

/-- A member's channel is shut by its closing gate (R201): its queue is cleared, and where it is on it gets an OFF edge at
once. -/
def chShut (o : Obj) (b : Nat) (s : State) : State :=
  let s := chClear o 0x0604 s
  if (chanOf o).last then chFire o { on := false } b false 0 s else s

/-- A member takes over what the lead tells it. -/
def viewReceive (v : List Byte) (s : State) : State :=
  if u8 v 0 = 0 then
    let fl := u8 v 1
    { s with osl := { s.osl with board := {
        cov := bit fl 0, miss := u8 v 2, size := u16 v 5
        pres := if bit fl 1 then some (u8 v 3, u8 v 4, f32 v 7) else none } } }
  else
    let h := u32 v 5
    let fl := u8 v 9
    let old := s.osl.secs.find? fun x => x.chan == h
    let new : SecView := {
      chan := h, sec := u32 v 1, ps := slice v 15 32, gate := bit fl 1, lost := bit fl 2
      tcRate := if bit fl 3 then some (f32 v 11, u8 v 10) else none
      tq := (old.map (·.tq)).getD 0, half := (old.map (·.half)).getD [] }
    let s := { s with osl := { s.osl with secs := (s.osl.secs.filter fun x => x.chan != h) ++ if bit fl 0 then [new] else [] } }
    match objOf s h with
    | none => s
    | some o => if bit fl 0 ∧ ¬ bit fl 1 ∧ (old.map (·.gate)).getD false ∧ isEnabled o then chShut o (frameStart s.gtc) s else s

/-- What a member reports of a channel each millisecond (log 19). -/
def chanRecord (s : State) (o : Obj) : List Byte :=
  let r := chanOf o
  let rate := chRate s o
  let relies := bit (chFlags o) 0 || ((chSection s o).map fun x => u8 x.act 16 == 0).getD false
  leBytes 4 (handleOf o) ++ leBytes 1 r.chan
    ++ leBytes 1 (b2n (isEnabled o) + 2 * b2n r.output + 4 * b2n (commanded r) + 8 * b2n relies + 16 * b2n (o.ost == .faulted) + 32 * (rate.2.1 % 8))
    ++ satBytes 3 r.leadOn ++ satBytes 3 r.leadOff ++ fBytes rate.1

/-- The lead keeps what a member at position `pos` reports. -/
def chanReport (pos : Nat) (b : List Byte) (s : State) : State :=
  let fl := u8 b 5
  let c : FarChan := {
    pos := pos, handle := u32 b 0, chan := u8 b 4, on := bit fl 0, out := bit fl 1, cmd := bit fl 2, relies := bit fl 3
    faulted := bit fl 4, unit := bits fl 5 3, leadOn := leNat (slice b 6 3), leadOff := leNat (slice b 9 3), rate := f32 b 12 }
  { s with osl := { s.osl with far := (s.osl.far.filter fun x => !(x.pos == pos && x.handle == c.handle)) ++ [c] } }

/-- A member's reports at boundary `b`: of every channel due that is ENABLED or was when last reported, and in frames of whole
milliseconds the demand of each section's channels here that are on (R232). -/
def memberReports (b : Nat) (s : State) : State :=
  if s.osl.role ≠ 2 then s
  else
    let send (k : PKind) (body : List Byte) (s : State) : State :=
      { s with osl := { s.osl with outbox := s.osl.outbox ++ [{ kind := k, dst := 0, src := s.osl.position, body := body }] } }
    let due := s.objs.filter fun o => isChan o && frameNo b % 10 == (chanOf o).chan % 10 && (isEnabled o || (chanOf o).told)
    let s := due.foldl (fun s o => updChan o.idx (fun r => { r with told := isEnabled o }) (send .chan (chanRecord s o) s)) s
    if frameNo b % 10 ≠ 0 then s
    else (s.osl.secs.map (·.sec)).eraseDups.foldl (fun s h =>
      let d := (s.osl.secs.filter fun v => v.sec == h).foldl (fun a v => match objOf s v.chan with
        | some c => if c.typ = tyNozzle ∧ (chanOf c).output then fAdd a (chanOf c).flow else a
        | none => a) fZero
      send .sect (leBytes 4 h ++ [0, 0x40, 0, 0] ++ fBytes d ++ [0, 0, 0, 0]) s) s

/-! ## Section records (R201, R202, R206, R209) -/

/-- The 16-byte records that take an edge to a section's far members (R202): the section, the edge kind and flags ([1] TC,
[2] reverse), the form, the position and channel of the query that a board decision answers or 0xFF twice, t_P. LINE takes
its four coordinates in two records. The layout is the model's (log 19). -/
def edgeRecords (h : Nat) (e : Edge) (query : Nat × Nat) : List (List Byte) :=
  let head (k : Nat) : List Byte :=
    leBytes 4 h ++ leBytes 1 (b2n e.on + 2 * b2n e.tc + 4 * b2n (decide (e.qual < 0))) ++ leBytes 1 k ++ leBytes 1 query.1 ++ leBytes 1 query.2
  if e.form = 2 then [head 2 ++ (e.line.take 2).flatMap (iBytes 4), head 0x22 ++ (e.line.drop 2).flatMap (iBytes 4)]
  else [head e.form ++ iBytes 8 e.whenAt]

/-- The records of a cancel and of T_q [µs]. -/
def cancelRecord (h : Nat) : List Byte := leBytes 4 h ++ [0, 0x20, 0xFF, 0xFF] ++ leBytes 8 0
def tqRecord (h t : Nat) : List Byte := leBytes 4 h ++ [0, 0x21, 0xFF, 0xFF] ++ leBytes 8 t

/-- A millisecond has passed since a section's last record (R202). -/
def secMaySend (s : State) (sec : Obj) : Bool := ((secOf sec).recAt.map fun t => decide (t + msTicks ≤ s.gtc)).getD true

/-- A section's first waiting record goes to the members, at most one a millisecond (R202). -/
def secPump (i : Nat) (s : State) : State :=
  match objAt s i with
  | none => s
  | some o => match (secOf o).recs with
    | [] => s
    | r :: rs =>
      if !secMaySend s o then s
      else updSec i (fun x => { x with recs := rs, recAt := some s.gtc })
        { s with osl := { s.osl with outbox := s.osl.outbox ++ [{ kind := .sect, dst := 0xFF, src := s.osl.position, body := r }] } }

def secSend (i : Nat) (rec : List Byte) (s : State) : State := secPump i (updSec i (fun r => { r with recs := r.recs ++ [rec] }) s)

/-- What the link carries at boundary `b`: the lead's views and waiting records, a member's reports. -/
def linkBoundary (b : Nat) (s : State) : State :=
  memberReports b ((objsOf s tySection).foldl (fun s o => secPump o.idx s) (viewBoundary s))

/-- Deliver an edge to a member of this device, or count one elsewhere as absent. -/
def deliverEdge (e : Edge) (m : Nat × Nat) (s : State) : State :=
  let report (k : EdgeEnd) (s : State) : State := match e.cmd with
    | some n => secReport n m k s
    | none => s
  if m.1 = s.osl.position then
    match objOf s m.2 with
    | none => report .absent s
    | some o =>
      if !isEnabled o then report .absent s
      else
        let x := chPush o e s
        if x.1 = .queued then x.2 else report .cancelled x.2
  else if farAbsent s m.1 then report .absent s
  else s

/-- Deliver an edge to every member: to those elsewhere by the section's records. -/
def deliverAll (sec : Obj) (e : Edge) (query : Nat × Nat) (s : State) : State :=
  let far := farPositions s sec
  let s := (crefsOf tySection sec.act).foldl (fun s m => deliverEdge e m s) s
  if far.isEmpty then s else (edgeRecords (handleOf sec) e query).foldl (fun s r => secSend sec.idx r s) s

/-- A closing gate at boundary `b` (R201) on the members of this device; those elsewhere are told that it is closed. -/
def gateShut (sec : Obj) (b : Nat) (s : State) : State :=
  ((localMembers s sec).filter isEnabled).foldl (fun s o => chShut o b s) s

/-- Clear the queues of some channels: the number of edges cleared. -/
def cancelQueues (hs : List Nat) (s : State) : Nat × State :=
  hs.foldl (fun (a : Nat × State) h => match objOf a.2 h with
    | none => a
    | some o => (a.1 + (chanOf o).queue.length, chClear o 0x0604 a.2)) (0, s)

/-- A section record at a member: an edge for each of its channels in the section, which acts on it in its next run. -/
def memberEdge (h : Nat) (e : Edge) (s : State) : State :=
  (s.osl.secs.filter fun v => v.sec == h).foldl (fun s v => match objOf s v.chan with
    | none => s
    | some o =>
      if !isChan o then s
      else if !isEnabled o then edgeReport o e.cmd e.on .absent 0 0 s.gtc s
      else
        let x := chPush o e s
        if x.1 = .queued then x.2 else edgeReport o e.cmd e.on .cancelled 0 0 s.gtc x.2) s

/-- SECTION_RECORD_RECEIVE: from position `pos`, an outcome (byte 5 from 128 on), a demand part (0x40) or the count of a cancel
(0x42) reaches the lead; an edge, the second half of a LINE (0x22), a cancel (0x20) or T_q (0x21) a member (R202, R232). -/
def execSectionRecordReceive (pos : Nat) (rec : List Byte) (s : State) : Host.Outcome State Fault Refusal :=
  .next (
    let h := u32 rec 0
    let k := u8 rec 5
    if 128 ≤ k then
      let out : EdgeEnd := if k = 128 then .fired else if k = 129 then .late else if k = 130 then .lateDropped
        else if k = 131 then .behind else if k = 132 then .cancelled else .absent
      match s.sched.cmds.find? (fun c => c.wait.contains (pos, h)) with
      | some c => secReport c.cmd (pos, h) out s
      | none => s
    else if k = 0x40 then
      match objOf s h with
      | none => s
      | some o => updSec o.idx (fun r => { r with parts := r.parts.filter (fun p => p.1 != pos) ++ [(pos, f32 rec 8, s.gtc)] }) s
    else if k = 0x42 then cancelReport pos h (u64 rec 8) s
    else
      let fl := u8 rec 4
      let e : Edge := { on := bit fl 0, form := k, qual := if bit fl 2 then -1 else 1, cmd := some farCmd, whenAt := i64 rec 8, tc := bit fl 1 }
      let mine (f : SecView → SecView) (s : State) : State :=
        { s with osl := { s.osl with secs := s.osl.secs.map fun v => if v.sec = h then f v else v } }
      if k ≤ 1 then memberEdge h e s
      else if k = 2 then mine (fun v => { v with half := slice rec 8 8 }) s
      else if k = 0x22 then
        let half := ((s.osl.secs.find? fun v => v.sec == h).map (·.half)).getD []
        let line := (List.range 4).map fun j => i32 (padTo 8 half ++ slice rec 8 8) (4 * j)
        memberEdge h { e with form := 2, whenAt := 0, line := line } s
      else if k = 0x21 then mine (fun v => { v with tq := u64 rec 8 }) s
      else if k = 0x20 then
        let r := cancelQueues ((s.osl.secs.filter fun v => v.sec == h).map (·.chan)) s
        { r.2 with osl := { r.2.osl with outbox := r.2.osl.outbox ++
          [{ kind := .sect, dst := 0, src := r.2.osl.position, body := leBytes 4 h ++ [0, 0x42, 0, 0] ++ leBytes 8 r.1 }] } }
      else s)

/-! ## The section job -/

/-- Wing sensing of a section (R203): lost while the wing's kflags bit is clear. -/
def secWing (sec : Obj) (s : State) : State :=
  match objOf s (u32 sec.act 36) with
  | none => s
  | some w =>
    let id := u8 w.act 0
    let lost := !bit (u16 s.kin.rcd 112) (8 + id)
    let r := secOf sec
    if lost == r.wingLost then s
    else
      let close := u8 sec.act 33 == 2
      let s := updSec sec.idx (fun r => { r with
        wingLost := lost
        gateNext := if close then some (if lost then false else r.gateReq) else r.gateNext }) s
      raiseE 0x0648 0 (handleOf sec) sec.epoch (leBytes 1 id ++ leBytes 1 (b2n lost)) s

/-- The largest lead time of an edge kind among the members present, rounded up to a millisecond, plus the margin (R207). -/
def secTime (s : State) (sec : Obj) (on : Bool) : Nat :=
  let us := (((localMembers s sec).filter isEnabled).map fun o => if on then (chanOf o).leadOn else (chanOf o).leadOff)
    ++ (farChans s sec).map fun c => if on then c.leadOn else c.leadOff
  (us.foldl max 0 + 999) / 1000 + u16 sec.act 40

/-- T_q of a section-wide grain: the largest lead time of the edge opposite to its member's commanded state; the far members are
told of a change when no record waits (R204, log 19). -/
def secTq (sec : Obj) (s : State) : State :=
  if u8 sec.act 16 ≠ 0 ∨ u8 sec.act 17 ≠ 1 then s
  else
    let us := (((localMembers s sec).filter isEnabled).map fun o => if commanded (chanOf o) then (chanOf o).leadOff else (chanOf o).leadOn)
      ++ (farChans s sec).map fun c => if c.cmd then c.leadOff else c.leadOn
    let t := us.foldl max 0
    let s := updSec sec.idx (fun r => { r with tq := t }) s
    if (secOf sec).tqTold = some t ∨ (secOf sec).recs ≠ [] ∨ (farPositions s sec).isEmpty ∨ ¬ secMaySend s sec then s
    else secSend sec.idx (tqRecord (handleOf sec) t) (updSec sec.idx (fun r => { r with tqTold := some t }) s)

/-- Reported times of a TC section: the first ones are those of its first run (R207). -/
def secTimes (sec : Obj) (s : State) : State :=
  if u8 sec.act 16 ≠ 1 then s
  else
    let a := secTime s sec true
    let b := secTime s sec false
    updSec sec.idx (fun r =>
      if r.repOn = 0 ∧ r.repOff = 0 then { r with nowOn := a, nowOff := b, repOn := a, repOff := b, repAt := s.gtc }
      else { r with nowOn := a, nowOff := b }) s

/-- The member of this device answered most recently. -/
def newestAnswer (ms : List Obj) : Option (Obj × Query × List Byte) :=
  ms.foldl (fun b o => match (chanOf o).ans with
    | none => b
    | some a =>
      match b with
      | none => some (o, a)
      | some x => if x.2.1.boundary < a.1.boundary then some (o, a) else b) none

/-- The far member answered most recently: its place at the board unit and its answer. -/
def newestFar (cs : List ChanBd) : Option (ChanBd × Nat × List Byte × List Byte) :=
  cs.foldl (fun b c => match c.ans with
    | none => b
    | some a =>
      match b with
      | none => some (c, a)
      | some x => if x.2.1 < a.1 then some (c, a) else b) none

/-- t_P of a decision on a far member's query (DESIGN CHOICE, log 19): the path of its point is not known here, so the switch
point is reached one T_q and 200 µs after the query's boundary, and later by its place in the strip at the implement's
predicted speed. -/
def farInstant (s : State) (sec : Obj) (bd : Nat) (query : List Byte) (want : Bool) : Option Int :=
  let p := virtualPoint s 0 0
  let tau := (secOf sec).tq * usTicks + 96000
  let d := (predict s s.kin.rcd p (tau + msTicks)).ds - (predict s s.kin.rcd p tau).ds
  if d = 0 then none
  else some (((bd + tau : Nat) : Int) + (placement (u8 sec.act 18) want * fxAbs (fxOf (i16 query 14)) * msTicks) / (4 * fxAbs d))

/-- The section-wide decision (R206): sums over the answers in force of the members present, on every device. -/
def secDecide (sec : Obj) (b : Nat) (s : State) : State :=
  if u8 sec.act 16 ≠ 0 ∨ u8 sec.act 17 ≠ 1 then s
  else
    let ms := (localMembers s sec).filter isEnabled
    let fs := (farChans s sec).map fun c => chanBd s c.pos c.chan
    if !ms.any (fun o => (chanOf o).ansNew) && !fs.any (·.ansNew) then s
    else
      let as := ms.filterMap (fun o => (chanOf o).ans.map (·.2)) ++ fs.filterMap fun c => c.ans.map fun a => a.2.2
      let sum (off : Nat) : Nat := (as.map fun a => u16 a off).foldl (· + ·) 0
      let total := sum 2
      let app := sum 4
      let exc := sum 6
      let s := ms.foldl (fun s o => updChan o.idx (fun r => { r with ansNew := false }) s) s
      let s := fs.foldl (fun s c => updChanBd c.pos c.chan (fun c => { c with ansNew := false }) s) s
      let s := updSec sec.idx (fun r => { r with
        fApp := if total = 0 then r.fApp else fOpen 91 app total, fExc := if total = 0 then r.fExc else fOpen 92 exc total }) s
      let decide' (fl : Nat) (query : Nat × Nat) (at' : Bool → Option Int) : State :=
        if !secDecides sec then s
        else match boardWant sec (secOf sec).decided fl total app exc with
          | none => s
          | some want =>
            if want == (secOf sec).decided then s
            else match at' want with
              | none => s
              | some t =>
                let s := updSec sec.idx (fun r => { r with decided := want, lastTp := t }) s
                deliverAll sec { on := want, form := 1, whenAt := t } query s
      let here : Option State := (newestAnswer ms).bind fun x =>
        (chPoint s x.1).map fun p => decide' (u8 x.2.2 1) (s.osl.position, (chanOf x.1).chan) (boardInstant s p b sec x.2.1)
      match newestAnswer ms, newestFar fs with
      | some x, some y =>
        if x.2.1.boundary < y.2.1 then decide' (u8 y.2.2.2 1) (y.1.pos, y.1.chan) (farInstant s sec y.2.1 y.2.2.1) else here.getD s
      | none, some y => decide' (u8 y.2.2.2 1) (y.1.pos, y.1.chan) (farInstant s sec y.2.1 y.2.2.1)
      | _, none => here.getD s

/-- A run of a section's job in the slot that begins at `tk`. -/
def secJob (tk i : Nat) (s : State) : State :=
  let on (f : Obj → State → State) (s : State) : State := match objAt s i with
    | some o => f o s
    | none => s
  on (fun o s => secDecide o (nextBoundary tk) s) (on secTq (on secTimes (on secWing s)))

/-- A section at boundary `b`: SCHED_RATE and the gate take effect (R201, R224). -/
def secBoundary (b : Nat) (sec : Obj) (s : State) : State :=
  let r := secOf sec
  let s := match r.rateNext with
    | none => s
    | some x =>
      let put (ps : List Byte) : List Byte := putAt (putAt ps 44 (fBytes x.1)) 43 (leBytes 1 x.2)
      updSec sec.idx (fun r => { r with rateNext := none }) (updObj sec.idx (fun o => { o with params := put o.params, act := put o.act }) s)
  match r.gateNext with
  | none => s
  | some g =>
    let s := updSec sec.idx (fun r => { r with gate := g, gateNext := none, decided := r.decided && g }) s
    if r.gate && !g then gateShut sec b s else s

/-- A Task Controller's setpoint state for a section that arrived at `t` (R208). -/
def tcSetpoint (sec : Obj) (on : Bool) (t : Nat) (s : State) : State :=
  let r := secOf sec
  let tp : Int := ((t + (if on then r.repOn else r.repOff) * msTicks : Nat) : Int)
  deliverAll sec { on := on, form := 1, whenAt := tp, tc := true } (0xFF, 0xFF) (updSec sec.idx (fun r => { r with decided := on, lastTp := tp }) s)

/-! ## Seeds (R190, R217) -/

/-- Of spacings with their targets: the singulated ones, skips and multiples. -/
def isSkip (x : Int × Int) : Bool := decide (3 * x.2 < 2 * x.1)
def isMulti (x : Int × Int) : Bool := decide (2 * x.1 < x.2)

/-- The figures of a full window of spacings (R217). -/
def rowFigures (o : Obj) (xs : List (Int × Int)) (r : ChRt) : ChRt :=
  let n := xs.length
  let total := (xs.map (·.1)).foldl (· + ·) 0
  let one := (xs.filter fun x => !isSkip x && !isMulti x).map (·.1)
  let m := one.length
  let mean1 : Fx := if m = 0 then 0 else one.foldl (· + ·) 0 / (m : Int)
  let var : Fx := if m = 0 then 0 else (one.map fun x => fxMul (x - mean1) (x - mean1)).foldl (· + ·) 0 / (m : Int)
  let frac (k : Nat) : F32 := fOpen 93 k n
  { r with
    spacings := []
    mean := fxToF 94 (total / (max 1 n : Nat))
    cv := if mean1 = 0 then fZero else fxToF 95 (fxDiv (fxSqrt var) mean1)
    single := frac m, skips := frac (xs.filter isSkip).length, multi := frac (xs.filter isMulti).length
    popn := if total = 0 then fZero else fOpen 96 ((n * 10000000000 * 2 ^ 96 : Nat) : Int) (total.natAbs * u16 o.act 30) }

/-- A seed pulse at `t` on the sensor of a ROW: its spacing from the last one, and the windows whose signature it may be. -/
def rowSeed (t : Nat) (o : Obj) (s : State) : State :=
  match chPoint s o with
  | none => s
  | some p =>
    let x := (geoOf p).cur
    let n : Int := (t : Int) - x.boundary
    let pos : Fx := fxFrac (x.s * 48000 * 48000 + 2 * x.v * 48000 * n + x.a * n * n) (48000 * 48000 * 13107200000000)
    updChan o.idx (fun r =>
      let target : Fx := if r.rateM ≤ 0 then 0 else fxDiv (fxOf 1000) r.rateM
      let sp := match r.seedPos with
        | some q => if r.rateM ≤ 0 then r.spacings else r.spacings ++ [(fxAbs (pos - q), target)]
        | none => r.spacings
      let r := { r with
        seedPos := some pos, dryAt := t, spacings := sp
        windows := r.windows.map fun w =>
          let m := u32 o.act 48 * usTicks
          if w.edge + u32 o.act 44 * usTicks ≤ t ∧ (if w.on then w.sig.isNone else decide (t ≤ windowEnds o w) && decide (t ≤ (w.sig.getD w.edge) + m))
          then { w with sig := some t } else w }
      if u16 o.act 82 ≤ sp.length ∧ sp ≠ [] then rowFigures o sp r else r) s

/-- A pulse of a FEEDBACK reaches the ROWs that it is the seed sensor of. -/
def seedPulse (fb t : Nat) (s : State) : State :=
  ((objsOf s tyRow).filter fun o => isEnabled o && u32 o.act 24 == fb).foldl (fun s o => rowSeed t o s) s

/-- ROW_NO_SEED_TIMEOUT: a row on and moving above standstill has had no seed pulse for blocked_ms; it counts anew (R217). -/
def execRowNoSeedTimeout (h : Nat) (s : State) : Host.Outcome State Fault Refusal :=
  .next (match objOf s h with
    | none => s
    | some o =>
      match chPoint s o with
      | none => s
      | some p =>
        let v := speedFrac p
        if o.typ = tyRow ∧ isEnabled o ∧ (chanOf o).output ∧ fxOf (kc16 s 152) < fxFrac v.1 v.2 then
          let s := toInstant ((chanOf o).dryAt + u16 o.act 80 * msTicks) s
          raiseLimited secTicks 0x064B 0 h 0 o.epoch [] 4 4 (updChan o.idx (fun r => { r with dryAt := s.gtc }) s)
        else s)

end Sys2Proof.Machine
end

