-- ==== Sys2Proof/Machine/Scheduler.lean ====
section
/-! DEFINITION. The opcodes of the section scheduling block (06, R193, R194, R209, R210, R224), and what ENABLE and
DISABLE do to its objects; their status blocks (R222, R223). -/

namespace Sys2Proof.Machine

/-! ## Host commands (R209, R210) -/

/-- The edge that a host command's bytes spell, with its command number. -/
def cmdEdge (d : Desc) (n : Nat) : Edge :=
  let form := u8 d.bytes 17
  { on := u8 d.bytes 16 == 1, form := form, qual := if u8 d.bytes 18 = 1 then -1 else 1, cmd := some n
    whenAt := if form = 1 then i64 d.bytes 24 else if form = 3 then i64 d.bytes 24 * umUnits else 0
    line := if form = 2 then (List.range 4).map (fun j => i32 d.bytes (24 + 4 * j)) else [] }

/-- Take a number for a host command. -/
def takeCmd (s : State) : Nat × State :=
  (s.sched.nextCmd, { s with sched := { s.sched with nextCmd := wrapInc 32 s.sched.nextCmd } })

/-- SCHED_CHANNEL_CMD: the checks of R209, then the edge is queued and the command completes with its outcome (R210). -/
def bodyChannelCmd (d : Desc) (o : Obj) (s : State) : State :=
  let b := d.bytes
  if 1 < u8 b 16 ∨ 3 < u8 b 17 ∨ 1 < u8 b 18 then fail d stBadParam s
  else if !isEnabled o then fail d stState s
  else
    let sec := chSection s o
    if (sec.map fun x => u8 x.act 16 != 2).getD false then fail d 0x0605 s
    else if (sec.map fun x => !(secOf x).gate).getD false then fail d 0x0606 s
    else
      let c := takeCmd s
      let x := chPush o (cmdEdge d c.1) c.2
      match x.1 with
      | .same => okWith d [0, 0, 0, 0, 0, d.bytes.getD 16 0] s
      | .full => failWith d 0x0607 [0, 0, 0, 0, 0, d.bytes.getD 16 0] x.2
      | .queued => defer d 0x0600 (handleOf o) 0 [] c.1 x.2

def execSchedChannelCmd (d : Desc) (s : State) : Host.Outcome State Fault Refusal := .next (runObj 0x0600 d (bodyChannelCmd d) s)

/-- SCHED_SECTION_CMD: the command goes to every member of a host-mode section and completes when all have reported. -/
def bodySectionCmd (d : Desc) (o : Obj) (s : State) : State :=
  let b := d.bytes
  if 1 < u8 b 16 ∨ 2 < u8 b 17 ∨ 1 < u8 b 18 then fail d stBadParam s
  else if !isEnabled o then fail d stState s
  else if u8 o.act 16 ≠ 2 then fail d 0x0605 s
  else if !(secOf o).gate then fail d 0x0606 s
  else
    let ms := crefsOf tySection o.act
    let on := u8 b 16 == 1
    let same (m : Nat × Nat) : Bool :=
      if m.1 = s.osl.position then ((objOf s m.2).map fun c => isEnabled c && commanded (chanOf c) == on).getD false
      else !farAbsent s m.1 && ((farOf s m).map fun c => c.on && c.cmd == on).getD false
    if ms.all same then ok d s
    else
      let c := takeCmd s
      let s := { c.2 with sched := { c.2.sched with cmds := c.2.sched.cmds ++ [{ cmd := c.1, wait := ms }] } }
      deliverAll o (cmdEdge d c.1) (0xFF, 0xFF) (defer d 0x0601 (handleOf o) 0 [] c.1 s)

def execSchedSectionCmd (d : Desc) (s : State) : Host.Outcome State Fault Refusal := .next (runObj 0x0601 d (bodySectionCmd d) s)

/-- SCHED_GATE: on a section in board or host mode, from the next boundary (R201, R224). -/
def bodySchedGate (d : Desc) (o : Obj) (s : State) : State :=
  let g := u8 d.bytes 16
  if 1 < g then fail d stBadParam s
  else if !isEnabled o then fail d stState s
  else if u8 o.act 16 = 1 then fail d 0x0605 s
  else
    let held := (secOf o).wingLost && u8 o.act 33 == 2
    ok d (updSec o.idx (fun r => { r with gateReq := g == 1, gateNext := if held then r.gateNext else some (g == 1) }) s)

def execSchedGate (d : Desc) (s : State) : Host.Outcome State Fault Refusal := .next (runObj 0x0602 d (bodySchedGate d) s)

/-- SCHED_RATE: rate and unit, from the next boundary; the unit must fit every member (R211, R224). -/
def bodySchedRate (d : Desc) (o : Obj) (s : State) : State :=
  let x := f32 d.bytes 16
  let u := u8 d.bytes 20
  if !fFinite x || u = 0 || 4 < u then fail d stBadParam s
  else if !(crefsOf tySection o.params).all (fun m => unitFits (hType m.2) u) then fail d 0x0608 s
  else if !isEnabled o then fail d stState s
  else ok d (updSec o.idx (fun r => { r with rateNext := some (x, u) }) s)

def execSchedRate (d : Desc) (s : State) : Host.Outcome State Fault Refusal := .next (runObj 0x0603 d (bodySchedRate d) s)

/-- SCHED_CANCEL: the queued unfired edges go at the next boundary (R224). -/
def bodySchedCancel (d : Desc) (o : Obj) (s : State) : State :=
  if !isEnabled o then fail d stState s
  else let c := takeCmd s; defer d 0x0604 (handleOf o) (nextBoundary s.gtc) [] c.1 c.2

def execSchedCancel (d : Desc) (s : State) : Host.Outcome State Fault Refusal := .next (runObj 0x0604 d (bodySchedCancel d) s)

/-- Cancels that fall due at boundary `b`: on a channel, or on every member of a section, those on other devices by a record,
whose count comes back (R224). -/
def cancelBoundary (b : Nat) (s : State) : State :=
  (s.hif.deferred.filter fun x => x.op == 0x0604 && decide (x.due ≤ b) && !s.sched.cancels.any fun c => c.cmd == x.arg).foldl (fun s x =>
    let sec := (objOf s x.handle).filter fun o => o.typ == tySection
    let hs := match sec with
      | some o => (localMembers s o).map handleOf
      | none => [x.handle]
    let r := cancelQueues hs s
    let far := (sec.map (farPositions s)).getD []
    match sec, far with
    | some o, _ :: _ =>
      secSend o.idx (cancelRecord x.handle) { r.2 with sched := { r.2.sched with
        cancels := r.2.sched.cancels ++ [{ cmd := x.arg, handle := x.handle, wait := far, count := r.1 }] } }
    | _, _ => completeDeferred x { result := satBytes 1 r.1 } r.2) s

/-! ## Latency store (R193, R194) -/

/-- SCHED_LATENCY_SET: either value within lat_min to lat_max, 0xFFFF_FFFF keeps one; the rejection counts are cleared. -/
def bodyLatencySet (d : Desc) (o : Obj) (s : State) : State :=
  let a := u32 d.bytes 16
  let b := u32 d.bytes 20
  let fits (x : Nat) : Bool := x == 0xFFFFFFFF || decide (u32 o.act 44 ≤ x ∧ x ≤ u32 o.act 48)
  if !fits a || !fits b then fail d stBadParam s
  else if o.ost = .disabled then fail d stState s
  else ok d (updChan o.idx (fun r => { r with
    latOn := if a = 0xFFFFFFFF then r.latOn else fxOf a
    latOff := if b = 0xFFFFFFFF then r.latOff else fxOf b
    rejOn := 0, rejOff := 0, shiftOn := none, shiftOff := none }) s)

def execSchedLatencySet (d : Desc) (s : State) : Host.Outcome State Fault Refusal := .next (runObj 0x0605 d (bodyLatencySet d) s)

/-- SCHED_LATENCY_SAVE: changed records are written; the command completes when they are. -/
def bodyLatencySave (d : Desc) (s : State) : State :=
  let s := latSave s
  if s.sched.saving.isEmpty then ok d s
  else { s with sched := { s.sched with saveDescs := s.sched.saveDescs ++ [d] } }

def execSchedLatencySave (d : Desc) (s : State) : Host.Outcome State Fault Refusal := .next (runDesc 0x0606 d (bodyLatencySave d) s)

/-- SCHED_LATENCY_ERASE: the record of a key is removed; a supply warning defers the write (R489). -/
def bodyLatencyErase (d : Desc) (s : State) : State :=
  let k := u16 d.bytes 16
  if k = 0 ∨ 4095 < k then fail d stBadParam s
  else mramWrite d (.latErase k) { s with sched := { s.sched with saving := s.sched.saving.filter fun x => x.key != k } }

def execSchedLatencyErase (d : Desc) (s : State) : Host.Outcome State Fault Refusal := .next (runDesc 0x0607 d (bodyLatencyErase d) s)

/-- LATENCY_PERIODIC_SAVE: 10 minutes after the last one (R194). -/
def execLatencyPeriodicSave (s : State) : Host.Outcome State Fault Refusal :=
  .next (latSave (toInstant (s.sched.savedAt + 600 * secTicks) s))

/-- Put a record into the store, by key. -/
def latPut (x : LatRec) : List LatRec → List LatRec
  | [] => [x]
  | y :: r => if x.key < y.key then x :: y :: r else if x.key = y.key then x :: r else y :: latPut x r

/-- The records on their way are in the store, and the descriptors that wait complete. -/
def latWritten (s : State) : State :=
  let ds := s.sched.saveDescs
  let s := { s with sched := { s.sched with
    store := s.sched.saving.foldl (fun st x => latPut x st) s.sched.store, saving := [], saveDescs := [] } }
  ds.foldl (fun s d => ok d s) s

/-- LATENCY_RECORDS_WRITTEN: not while a supply warning defers the write (R194). -/
def execLatencyRecordsWritten (s : State) : Host.Outcome State Fault Refusal := .next (if s.pwr.bow then s else latWritten s)

/-! ## ENABLE and DISABLE -/

/-- BOARD_ABSENT -/
def stBoardAbsent : Nat := 0x0507

/-- What ENABLE of a channel requires beside the generic rules, judged at the take-effect boundary: its point and output
(R219), of a NOZZLE a PWMCH in duty mode (R259) and, where it is pulsed, every curve counted (log 34); on a member that
marks or decides by the board, a coverage layer ENABLED on the lead (R180). -/
def chanEnableBad (s : State) (o : Obj) : Option Nat :=
  let compare (t : Obj) : Bool := t.typ == tyPwmch && u8 t.params 3 != 0
  let pulsed := o.typ == tyNozzle && bit (u8 o.params 32) 4
  if u32 o.params 16 = 0 ∨ u32 o.params 20 = 0 then some stBadParam
  else if ((objOf s (u32 o.params 20)).map compare).getD false then some stBadParam
  else if pulsed ∧ ((List.range (u8 o.params 74)).any fun k => u32 o.params (76 + 4 * k) == 0) then some stBadParam
  else if s.osl.role = 2 ∧ ¬ s.osl.board.cov ∧ (bit (u8 o.params 32) 0 ∨ ((chSection s o).map fun x => u8 x.act 16 == 0).getD false) then some stBoardAbsent
  else none

/-- The lowest channel index that no other channel has (log 19). -/
def freeChan (s : State) (i : Nat) : Nat :=
  ((List.range 48).find? fun c => !s.objs.any fun o => isChan o && o.idx != i && (chanOf o).chan == c).getD 0

/-- A channel becomes ENABLED: output off, nothing queued, the latencies nominal or those of its record (R194). -/
def chanEnable (i : Nat) (s : State) : State :=
  match objAt s i with
  | none => s
  | some o =>
    let key := u16 o.act 62
    let ok (x : LatRec) : Bool :=
      decide (u32 o.act 44 ≤ x.on ∧ x.on ≤ u32 o.act 48 ∧ u32 o.act 44 ≤ x.off ∧ x.off ≤ u32 o.act 48)
    let x := if key = 0 then none else (latStored s key).filter ok
    let s := updChan i (fun r => { r with
      output := false, last := false, queue := [], flows := [], flowing := false, marking := false, queries := [], ans := none, ansNext := none
      ansNew := false, told := false, hist := [], preUntil := none, seedPos := none, spacings := [], stuck := 0
      rejOn := 0, rejOff := 0, shiftOn := none, shiftOff := none, loaded := x.isSome
      latOn := fxOf ((x.map (·.on)).getD (u32 o.act 36)), latOff := fxOf ((x.map (·.off)).getD (u32 o.act 40))
      samplesOn := (x.map (·.samplesOn)).getD 0, samplesOff := (x.map (·.samplesOff)).getD 0 }) s
    match x with
    | some _ => raiseE 0x0645 0 (handleOf o) o.epoch (leBytes 2 key) s
    | none => s

/-- A channel becomes DISABLED: its output off or its meter target 0, its queue cleared, its record saved (R194, R218). -/
def chanDisable (i : Nat) (s : State) : State :=
  match objAt s i with
  | none => s
  | some o =>
    let rec' := latRec o
    let s := if rec'.key = 0 ∨ latStored s rec'.key = some rec' then s
      else { s with sched := { s.sched with saving := s.sched.saving ++ [rec'] } }
    let s := chClear o 0x0604 (chOff o s)
    updChan i (fun r => { r with last := false, duty := fZero, flow := fZero }) s

/-- Board mode needs a coverage layer ENABLED on this device (R205). -/
def sectEnableBad (s : State) (o : Obj) : Option Nat :=
  if u8 o.params 16 = 0 ∧ (layerOn s true).isNone then some stBoardAbsent else none

/-- A section becomes ENABLED with its gate closed (R201). -/
def sectEnable (i : Nat) (s : State) : State :=
  updSec i (fun r => { tcRate := r.tcRate, parts := r.parts, recs := r.recs, recAt := r.recAt }) s

/-- A section becomes DISABLED: its gate is closed, its members are left to SCHED_CHANNEL_CMD (R201). -/
def sectDisable (i : Nat) (s : State) : State := updSec i (fun r => { r with gate := false, gateReq := false, gateNext := none, rateNext := none }) s

/-- Some channel of the cluster relies on the coverage layer (R180). -/
def boardReliedOn (s : State) : Bool :=
  (s.objs.any fun o => isEnabled o && ((isChan o && bit (chFlags o) 0) || (o.typ == tySection && u8 o.act 16 == 0)))
    || s.osl.far.any fun c => c.on && c.relies && !farAbsent s c.pos

/-! ## Status (R222, R223) -/

/-- The latency that a channel's status reports: a DISABLED channel that has learned none reports the nominal one. -/
def latShown (o : Obj) (nominal lat samples : Nat) : Nat :=
  if o.ost == .disabled && samples == 0 && !(chanOf o).loaded then nominal else lat

def chanStatus (_s : State) (o : Obj) : List Byte :=
  let r := chanOf o
  leBytes 1 (b2n r.output) ++ leBytes 1 (b2n (commanded r)) ++ satBytes 1 r.queue.length ++ leBytes 1 r.lastReason
    ++ satBytes 4 (latShown o (u32 o.act 36) (fxToInt 74 r.latOn).toNat r.samplesOn)
    ++ satBytes 4 (latShown o (u32 o.act 40) (fxToInt 75 r.latOff).toNat r.samplesOff) ++ satBytes 4 r.leadOn ++ satBytes 4 r.leadOff
    ++ satBytes 2 r.samplesOn ++ satBytes 2 r.samplesOff ++ satBytes 4 r.late ++ satBytes 4 r.behind ++ satBytes 4 r.lastLate
    ++ fBytes r.duty ++ fBytes r.flow ++ satBytes 4 (r.rejOn + r.rejOff) ++ satBytes 4 r.noSample
    ++ leBytes 4 (b2n r.loaded + 2 * b2n r.flowing) ++ leBytes 8 r.tOn ++ leBytes 8 r.tOff
    ++ if o.typ = tyRow then
        fBytes r.mean ++ fBytes r.cv ++ fBytes r.single ++ fBytes r.skips ++ fBytes r.multi ++ fBytes r.popn
      else []

/-- Members that count as absent: FAULTED or not ENABLED, or lost. -/
def secAbsent (s : State) (o : Obj) : Nat :=
  ((crefsOf tySection o.act).filter fun m =>
    if m.1 = s.osl.position then !enabledH s m.2 else farAbsent s m.1 || ((farOf s m).map fun c => !c.on).getD false).length

def sectStatus (s : State) (o : Obj) : List Byte :=
  let r := secOf o
  leBytes 1 (b2n r.gate) ++ leBytes 1 (b2n r.decided) ++ satBytes 1 (secAbsent s o) ++ leBytes 1 (b2n r.wingLost)
    ++ satBytes 2 r.repOn ++ satBytes 2 r.repOff ++ fBytes r.fApp ++ fBytes r.fExc ++ iBytes 8 r.lastTp

end Sys2Proof.Machine
end

