-- ==== Sys2Proof/Machine/Isobus.lean ====
section
/-! DEFINITION. ISOBUS services (13, R389 to R399): address claim, messages and transport sessions, the Task Controller
client; and the CAN events that they share with the ports. -/

namespace Sys2Proof.Machine

/-! ## The configuration (R389) -/

def isbRun (s : State) : Bool := u8 s.isb.cfg 4 == 1
def isbName (s : State) : Nat := u64 s.isb.cfg 8
def isbTcOn (s : State) : Bool := u8 s.isb.cfg 16 == 1
/-- The services' port. -/
def isbPort (s : State) : Option Obj := (objOf s (u32 s.isb.cfg 0)).bind fun o => if o.typ = tyCanport then some o else none
def subscribed (s : State) (pgn : Nat) : Bool := (List.range (u8 s.isb.cfg 20)).any fun k => u32 s.isb.cfg (24 + 4 * k) == pgn

/-- PGNs of the services: Acknowledgement, transport, extended transport, Request, Process Data, Address Claimed (R392). -/
def servicePgns : List Nat := [0xE800, 0xEC00, 0xEB00, 0xC800, 0xC700, 0xEA00, 0xCB00, 0xEE00]

/-! ## Sending (R375, R380, R392) -/

/-- The 29-bit identifier of a message, as ISO 11783-3 has it (PRESUMED, log 23), with bit 30. -/
def jid (prio pgn dst sa : Nat) : Nat :=
  2 ^ 30 + prio * 2 ^ 26 + (if bits pgn 8 8 < 240 then pgn / 256 * 256 + dst else pgn) * 256 + sa

/-- A frame of the services goes into one of their buffers, 24 to 31, or waits for one. -/
def isbFrame (f : CanFrame) (msg : Option Nat) (s : State) : State :=
  match isbPort s with
  | none => s
  | some o =>
    match (List.range 8).find? (fun k => (txOf o (24 + k)).frame.isNone) with
    | some k => txQueue o.idx (24 + k) (updTx o.idx (24 + k) (fun t => { t with frame := some f, msg := msg }) s)
    | none => { s with isb := { s.isb with out := s.isb.out ++ [(f, msg)] } }

/-- A single-frame message of the services. -/
def isbSend (prio pgn dst sa : Nat) (data : List Byte) (msg : Option Nat) (s : State) : State :=
  isbFrame { id := jid prio pgn dst sa, eflags := 0, data := data } msg s

/-- Address Claimed from an address, or Cannot Claim Address from 254 (R390). -/
def sendClaim (sa : Nat) (s : State) : State := isbSend 6 0xEE00 255 sa (leBytes 8 (isbName s)) none s

/-- Connection Abort of a transport session (R391). -/
def sendAbort (peer pgn reason : Nat) (ext : Bool) (s : State) : State :=
  isbSend 7 (if ext then 0xC800 else 0xEC00) peer s.isb.address ([0xFF] ++ leBytes 1 reason ++ [0xFF, 0xFF, 0xFF] ++ leBytes 3 pgn) none s

/-- Negative Acknowledgement of a single frame (R391). -/
def sendNack (peer pgn : Nat) (s : State) : State :=
  isbSend 6 0xE800 255 s.isb.address ([1, 0xFF, 0xFF, 0xFF] ++ leBytes 1 peer ++ leBytes 3 pgn) none s

/-- An ISB_PGN_SEND ends. -/
def pgnSendEnd (n : Nat) (r : Reply) (s : State) : State :=
  match s.hif.deferred.find? fun x => x.op == 0x0D0B && x.arg == n with
  | some x => completeDeferred x r s
  | none => s

/-! ## The Task Controller client's state (R394) -/

/-- The client passes to a state. -/
def setTc (n : Nat) (s : State) : State :=
  if s.isb.tc = n then s
  else raise0 0x0D4B 0 (leBytes 1 n ++ leBytes 1 s.isb.tc) { s with isb := { s.isb with tc := n, meas := if n = 4 then [] else s.isb.meas } }

/-- Address claiming, the one thing that the services send without an address (R390). -/
def claimFrame (f : CanFrame) : Bool := pgnOf f.id == 0xEE00

/-- Without an address the services' frames leave their buffers and wait; suspended ones stay (R385, R390). -/
def holdServices (s : State) : State :=
  match isbPort s with
  | none => s
  | some o =>
    let held := (List.range 8).filterMap fun k =>
      let t := txOf o (24 + k)
      if t.susp then none else (t.frame.filter fun f => !claimFrame f).map fun f => (24 + k, f, t.msg)
    let s := held.foldl (fun s x => updTx o.idx x.1 (fun t => { t with frame := none, pend := false, msg := none }) s) s
    { s with isb := { s.isb with out := held.map (·.2) ++ s.isb.out } }

/-- The client runs while it is enabled and an address is claimed. -/
def tcFollow (s : State) : State :=
  let s := if s.isb.claim = 2 then s else holdServices s
  if isbRun s && isbTcOn s && s.isb.claim == 2 then (if s.isb.tc = 0 then setTc 1 s else s) else setTc 0 s

/-! ## Pools (R395, R396) -/

/-- The Function element that carries the sections, and its Section elements in ascending element number. -/
def poolSections (p : Config.Pool) : Option (Config.PoolElem × List Config.PoolElem) :=
  (p.elems.filter fun e => e.kind == .function).findSome? fun f =>
    let cs := p.elems.filter fun e => e.kind == .section_ && e.parent == f.id
    if cs.isEmpty || decide (256 < cs.length) then none
    else some (f, (List.range 4096).flatMap fun n => cs.filter fun e => e.num == n)

/-- Process data that R396 requires under the Function element, for some number of sections. -/
def requiredPds (sections : Nat) : List Pd :=
  [.setWorkState, .sectionControl, .actWorkState, .onTime, .offTime]
    ++ (List.range ((sections + 15) / 16)).flatMap fun g => [.setCondensed (g + 1), .actCondensed (g + 1)]

/-- The reason a pool is refused for (R395). -/
def poolBad (b : List Byte) : Option Nat :=
  if 262144 < b.length then some 6
  else match Config.poolParse b with
    | none => some 1
    | some p =>
      if p.devices ≠ 1 ∨ (p.elems.filter fun e => e.kind == .device).length ≠ 1 then some 2
      else match poolSections p with
        | none => some 3
        | some (f, cs) =>
          if p.elems.zipIdx.any (fun x => p.elems.zipIdx.any fun y => decide (x.2 < y.2) && x.1.num == y.1.num) then some 4
          else if !(requiredPds cs.length).all f.dpds.contains then some 5
          else none

/-- Sections of the loaded pool, and the element number of what a message addresses. -/
def poolNow (s : State) : Option (Config.PoolElem × List Config.PoolElem) :=
  (s.isb.pool.bind Config.poolParse).bind poolSections
def poolCount (s : State) : Nat := ((poolNow s).map fun x => x.2.length).getD 0
def elemNum (s : State) (e : TcElem) : Nat :=
  match poolNow s with
  | none => 0
  | some (f, cs) => match e with
    | .function => f.num
    | .section_ n => (cs[n]?.map (·.num)).getD 0

/-- A pool comes into force; a client that was refused starts again (R394). -/
def poolTake (b : List Byte) (s : State) : State :=
  let s := { s with isb := { s.isb with pool := some b } }
  if s.isb.tc = 5 then setTc 1 s else s

/-- ISB_POOL_LOAD. -/
def bodyPoolLoad (d : Desc) (s : State) : State :=
  match poolBad (blockOf s d) with
  | some e => failWith d 0x0D06 (leBytes 1 e) s
  | none => ok d (poolTake (blockOf s d) s)

def execIsbPoolLoad (d : Desc) (s : State) : Host.Outcome State Fault Refusal := .next (runDesc 0x0D09 d (bodyPoolLoad d) s)

/-- ISB_POOL_SAVE: while a supply warning defers MRAM writes it waits (R489). -/
def bodyPoolSave (d : Desc) (s : State) : State :=
  let key := u8 d.bytes 16
  if key = 0 ∨ 4 < key then fail d stBadParam s
  else match s.isb.pool with
    | none => fail d stState s
    | some b =>
      if 262144 < poolRoom key s + b.length then fail d 0x0305 s
      else mramWrite d (.pool key b) s

def execIsbPoolSave (d : Desc) (s : State) : Host.Outcome State Fault Refusal := .next (runDesc 0x0D0A d (bodyPoolSave d) s)

/-! ## ISB_CONFIG (R389) -/

/-- The block's own rules. -/
def isbCfgBad (s : State) (b : List Byte) : Option PErr :=
  firstErr [
    req (u32 b 0 == 0 || ((objOf s (u32 b 0)).map fun o => o.typ == tyCanport).getD false) (refInvalid 0),
    req (decide (u8 b 4 ≤ 1 ∧ u8 b 5 ≤ 253 ∧ u8 b 16 ≤ 1 ∧ u8 b 17 ≤ 1 ∧ u8 b 20 ≤ 16)) badParam,
    req (u8 b 17 == 0 || decide (1 ≤ u8 b 18 ∧ u8 b 18 ≤ 4)) badParam,
    req (u8 b 4 == 0 || u32 b 0 != 0) badParam,
    req (zeroBytes b 21 3 && zeroBytes b 88 8) badParam]

/-- ISB_CONFIG: of running services only run and tc_enable may change (log 23). -/
def bodyIsbConfig (d : Desc) (s : State) : State :=
  let b := blockOf s d
  let still (x : List Byte) : List Byte := putAt (putAt x 4 [0]) 16 [0]
  if s.osl.role = 2 then fail d 0x0309 s
  else match isbCfgBad s b with
    | some e => failWith d e.status e.result s
    | none =>
      let was := isbRun s
      if was && still b != still s.isb.cfg then fail d stBusy s
      else
        let start := !was && u8 b 4 == 1
        let load : Option (List Byte) := (s.isb.pools.find? fun x => x.1 == u8 b 18).map (·.2)
        if start ∧ u8 b 17 = 1 ∧ load.isNone then fail d 0x0306 s
        else match (if start ∧ u8 b 17 = 1 then load.bind poolBad else none) with
          | some e => failWith d 0x0D06 (leBytes 1 e) s
          | none =>
            let s := { s with isb := { s.isb with
              cfg := b
              pool := if start ∧ u8 b 17 = 1 then load else s.isb.pool
              claimDue := start || (s.isb.claimDue && u8 b 4 == 1)
              claim := if u8 b 4 = 0 then 0 else s.isb.claim
              address := if u8 b 4 = 0 then 254 else s.isb.address } }
            let s := if s.isb.tc = 5 && u8 b 16 == 1 then setTc 1 s else s
            ok d (tcFollow s)

def execIsbConfig (d : Desc) (s : State) : Host.Outcome State Fault Refusal := .next (runDesc 0x0D08 d (bodyIsbConfig d) s)

/-! ## Address claim (R390) -/

/-- ADDRESS_CLAIM_START: the services send Address Claimed with the preferred address. -/
def execAddressClaimStart (s : State) : Host.Outcome State Fault Refusal :=
  .next (match isbPort s with
    | none => s
    | some o =>
      if !isbRun s || !s.isb.claimDue || !isEnabled o || (canOf o).busOff then s
      else
        let a := u8 s.isb.cfg 5
        tcFollow (sendClaim a { s with isb := { s.isb with claimDue := false, claim := 1, address := 254, trying := a, claimAt := s.gtc } }))

/-- The next frame that the services may send takes a free buffer. -/
def isbRefill (s : State) : State :=
  match isbPort s, s.isb.out.find? fun x => s.isb.claim == 2 || claimFrame x.1 with
  | some o, some x =>
    if (List.range 8).any fun k => (txOf o (24 + k)).frame.isNone then
      isbFrame x.1 x.2 { s with isb := { s.isb with out := s.isb.out.erase x } }
    else s
  | _, _ => s

/-- The frame of a message with the address that has just been claimed. -/
def readdress (a : Nat) (f : CanFrame) : CanFrame := if claimFrame f then f else { f with id := f.id / 256 * 256 + a }

/-- With an address the services' suspended buffers and the frames that wait go out with it as their source (R385, R390). -/
def releaseSuspended (s : State) : State :=
  match isbPort s with
  | none => s
  | some o =>
    let a := s.isb.address
    let s := (List.range 8).foldl (fun s k =>
      if (txOf o (24 + k)).susp then
        txQueue o.idx (24 + k) (updTx o.idx (24 + k) (fun t => { t with susp := false, coll := 0, frame := t.frame.map (readdress a) }) s)
      else s) s
    (List.range 8).foldl (fun s _ => isbRefill s) { s with isb := { s.isb with out := s.isb.out.map fun x => (readdress a x.1, x.2) } }

/-- ADDRESS_CLAIM_TIMEOUT: 250 ms without contention. -/
def execAddressClaimTimeout (s : State) : Host.Outcome State Fault Refusal :=
  .next (
    if s.isb.claim ≠ 1 then s
    else
      let s := toInstant (s.isb.claimAt + 250 * msTicks) s
      let a := s.isb.trying
      confirmByClaim (tcFollow (releaseSuspended (raise0 0x0D48 0 (leBytes 1 a) { s with isb := { s.isb with claim := 2, address := a } }))))

/-- The next address of the self-configurable range after one, wrapping, that is not known to be claimed. -/
def nextAddress (s : State) (a : Nat) : Option Nat :=
  let lo := u8 s.isb.cfg 6
  let hi := u8 s.isb.cfg 7
  let all := (List.range (hi + 1 - lo)).map (lo + ·)
  ((all.filter fun x => decide (a < x)) ++ all.filter fun x => decide (x ≤ a)).find? fun x => x != a && !s.isb.taken.contains x

/-- A lost contention: try the next address, or cannot claim one. -/
def claimNext (s : State) : State :=
  match if bit (isbName s) 63 then nextAddress s s.isb.trying else none with
  | some a => sendClaim a { s with isb := { s.isb with claim := 1, address := 254, trying := a, claimAt := s.gtc } }
  | none => raise0 0x0D4A 0 [] (sendClaim 254 { s with isb := { s.isb with claim := 3, address := 254 } })

/-- ADDRESS_CLAIM_RECEIVED: the lower NAME keeps the address. -/
def execAddressClaimReceived (src name : Nat) (s : State) : Host.Outcome State Fault Refusal :=
  .next (
    if !isbRun s || decide (253 < src) then s
    else
      let mine := (s.isb.claim = 1 ∧ s.isb.trying = src) ∨ (s.isb.claim = 2 ∧ s.isb.address = src)
      if !mine then { s with isb := { s.isb with taken := s.isb.taken.filter (· != src) ++ [src] } }
      else if isbName s ≤ name then sendClaim src s
      else
        let s := { s with isb := { s.isb with taken := s.isb.taken.filter (· != src) ++ [src] } }
        let s := if s.isb.claim = 2 then raise0 0x0D49 0 (leBytes 1 src ++ leBytes 8 name) s else s
        tcFollow (claimNext s))

/-- REQUEST_FOR_ADDRESS_CLAIMED: answered with the address held or being claimed, or Cannot Claim Address. -/
def execRequestForAddressClaimed (_src : Nat) (s : State) : Host.Outcome State Fault Refusal :=
  .next (
    if !isbRun s then s
    else if s.isb.claim = 1 then sendClaim s.isb.trying s
    else if s.isb.claim = 2 then sendClaim s.isb.address s
    else if s.isb.claim = 3 then sendClaim 254 s
    else s)

/-! ## Messages and transport (R391, R392) -/

/-- A message as ISB_PGN_READ writes it. -/
def msgBytes (m : IsbMsg) : List Byte := leBytes 4 m.pgn ++ leBytes 1 m.src ++ leBytes 1 m.prio ++ [0, 0] ++ m.data

/-- The PGN that a pending read asks for fits. -/
def readFits (x : Deferred) (m : IsbMsg) : Bool := u32 x.st.desc.bytes 32 == 0xFFFFFFFF || u32 x.st.desc.bytes 32 == m.pgn

/-- A read takes a message. -/
def readTakes (x : Deferred) (m : IsbMsg) (s : State) : State :=
  deferredWrite x ((msgBytes m).take (dBlockLen x.st.desc)) { result := leBytes 4 (msgBytes m).length } s

/-- A received message goes to the host: to a read that waits, or to the eight that wait for one. -/
def deliverMsg (m : IsbMsg) (s : State) : State :=
  match s.hif.deferred.find? fun x => x.op == 0x0D0C && readFits x m with
  | some x => readTakes x m s
  | none =>
    let q := s.isb.msgs ++ [m]
    if 8 < q.length then { s with isb := { s.isb with msgs := q.drop 1, dropped := satInc 32 s.isb.dropped } }
    else { s with isb := { s.isb with msgs := q } }

/-- ISB_PGN_READ: the oldest message that fits, now or when one comes. -/
def bodyPgnRead (d : Desc) (s : State) : State :=
  let s := defer d 0x0D0C 0 0 [] 0 s
  match s.hif.deferred.getLast? with
  | none => s
  | some x => match s.isb.msgs.find? (readFits x) with
    | none => s
    | some m => readTakes x m { s with isb := { s.isb with msgs := s.isb.msgs.erase m } }

def execIsbPgnRead (d : Desc) (s : State) : Host.Outcome State Fault Refusal := .next (runDesc 0x0D0C d (bodyPgnRead d) s)

/-- A session aborted: counted and reported. -/
def tpAborted (peer pgn reason : Nat) (s : State) : State :=
  raise0 0x0D4E 0 (leBytes 4 pgn ++ leBytes 1 reason ++ leBytes 1 peer) { s with isb := { s.isb with aborted := satInc 32 s.isb.aborted } }

/-- Connection Abort's reason "system resources needed" (PRESUMED 2, log 23). -/
def noResources : Nat := 2

/-- ISB_PGN_SEND: a single frame, or a transport session (R391, R392). -/
def bodyPgnSend (d : Desc) (s : State) : State :=
  let b := blockOf s d
  let pgn := u32 b 0
  let dst := u8 b 4
  let data := b.drop 8
  if 2 ^ 18 ≤ pgn ∨ 7 < u8 b 5 ∨ u16 b 6 ≠ 0 ∨ (dst = 255 ∧ 1785 < data.length) then fail d stBadParam s
  else if servicePgns.contains pgn then fail d 0x0D07 s
  else if s.isb.claim ≠ 2 then fail d 0x0D05 s
  else if 262144 < data.length then failWith d 0x0D08 (leBytes 1 noResources) (tpAborted dst pgn noResources s)
  else if 8 < data.length ∧ 2 ≤ s.isb.send.length then fail d stNoResource s
  else
    let n := s.isb.nextMsg
    let s := defer d 0x0D0B 0 0 [] n { s with isb := { s.isb with nextMsg := n + 1 } }
    if data.length ≤ 8 then isbSend (u8 b 5) pgn dst s.isb.address data (some n) s
    else { s with isb := { s.isb with send := s.isb.send ++ [{ peer := dst, pgn := pgn, size := data.length, msg := some n }] } }

def execIsbPgnSend (d : Desc) (s : State) : Host.Outcome State Fault Refusal := .next (runDesc 0x0D0B d (bodyPgnSend d) s)

/-- TP_CONNECTION_REQUEST: accepted, or aborted beyond the limits; the reason for a PGN that nobody takes is open. -/
def execTpConnectionRequest (src pgn size : Nat) (bcast : Bool) (s : State) : Host.Outcome State Fault Refusal :=
  .next (
    let ext := decide (1785 < size)
    if !isbRun s || s.isb.claim != 2 then s
    else if bcast && !subscribed s pgn then s
    else if !subscribed s pgn && !servicePgns.contains pgn then
      let v := takeFree s
      tpAborted src pgn (v.1 % 256) (sendAbort src pgn (v.1 % 256) ext v.2)
    else if 4 ≤ s.isb.recv.length ∨ 262144 < size then
      tpAborted src pgn noResources (if bcast then s else sendAbort src pgn noResources ext s)
    else { s with isb := { s.isb with recv := s.isb.recv ++ [{ peer := src, pgn := pgn, size := size }] } })

/-- The first session of a list with a peer and a PGN. -/
def sessionWith (xs : List TpSession) (peer pgn : Nat) : Option TpSession := xs.find? fun x => x.peer == peer && x.pgn == pgn

/-- TP_MESSAGE_COMPLETE: a received message is whole, or the last packet of one sent is acknowledged or, broadcast, sent. -/
def execTpMessageComplete (send : Bool) (peer pgn prio : Nat) (data : List Byte) (s : State) : Host.Outcome State Fault Refusal :=
  .next (
    if send then
      match sessionWith s.isb.send peer pgn with
      | none => s
      | some x => if s.isb.claim ≠ 2 then s else pgnSendEnd (x.msg.getD 0) {} { s with isb := { s.isb with send := s.isb.send.erase x } }
    else
      match sessionWith s.isb.recv peer pgn with
      | none => s
      | some x =>
        if x.size ≠ data.length then s
        else
          let s := { s with isb := { s.isb with recv := s.isb.recv.erase x } }
          if subscribed s pgn then deliverMsg { pgn := pgn, src := peer, prio := prio % 8, data := data } s else s)

/-- TP_TIMEOUT: a session ends without its message, by a timeout or the peer's abort, for the reason given. -/
def execTpTimeout (send : Bool) (peer pgn reason : Nat) (s : State) : Host.Outcome State Fault Refusal :=
  .next (
    if send then
      match sessionWith s.isb.send peer pgn with
      | none => s
      | some x =>
        pgnSendEnd (x.msg.getD 0) { status := 0x0D08, result := leBytes 1 reason }
          (tpAborted peer pgn reason { s with isb := { s.isb with send := s.isb.send.erase x } })
    else
      match sessionWith s.isb.recv peer pgn with
      | none => s
      | some x => tpAborted peer pgn reason { s with isb := { s.isb with recv := s.isb.recv.erase x } })

/-! ## Frames on the bus (R376, R380, R383, R391) -/

/-- A frame of the services' port for the services: single frames of subscribed PGNs, and those that nobody takes. -/
def isbFrameIn (o : Obj) (f : CanFrame) (s : State) : State :=
  if !isbRun s || u32 s.isb.cfg 0 != handleOf o || !frExt f || frFd f || frRemote f then s
  else
    let pgn := pgnOf f.id
    let dst := dstOfId f.id
    if dst ≠ 255 ∧ (s.isb.claim ≠ 2 ∨ dst ≠ s.isb.address) then s
    else if subscribed s pgn then deliverMsg { pgn := pgn, src := srcOfId f.id, prio := bits f.id 26 3, data := f.data } s
    else if dst = 255 ∨ servicePgns.contains pgn then s
    else sendNack (srcOfId f.id) pgn s

/-- A frame that a port has received whole. -/
def canTake (o : Obj) (f : CanFrame) (s : State) : State :=
  let s := canCount o.idx (fun r => { r with rxFrames := satInc 32 r.rxFrames, rxErr := recDown r.rxErr }) s
  let s := canFilter o.idx f s
  let s := if isbRun s then speedMessage (handleOf o) f s else s
  isbFrameIn o f s

/-- CAN_FRAME_RECEIVED: the last bit of the end-of-frame field was sampled at `t`. A port in loopback hears no bus, and a
classical port no FD frame. -/
def execCanFrameReceived (h : Nat) (f : CanFrame) (t : Nat) (s : State) : Host.Outcome State Fault Refusal :=
  .next (match objOf s h with
    | none => s
    | some o =>
      if o.typ ≠ tyCanport ∨ !isEnabled o ∨ (canOf o).stopped ∨ (canOf o).busOff ∨ canDeaf s o ∨ bit (canFlags o) 2 ∨ (frFd f && !canFd o) then s
      else canTake o { f with data := f.data.take 64 } (toInstant t s))

/-- CAN_FRAME_TRANSMITTED: the buffer that arbitration at `start` picked has been sent and acknowledged at `t` (R380, R384). -/
def execCanFrameTransmitted (h buf start t : Nat) (s : State) : Host.Outcome State Fault Refusal :=
  .next (match objOf s h with
    | none => s
    | some o =>
      if o.typ ≠ tyCanport ∨ !canMay s o ∨ arbWinner o start ≠ some buf ∨ t < start then s
      else
        let s := toInstant t s
        let x := txOf o buf
        let s := updTx o.idx buf (fun x => { x with
          pend := false, coll := 0, gtc := s.gtc, single := false, frame := if 24 ≤ buf then none else x.frame, msg := none }) s
        let s := canCount o.idx (fun r => { r with txFrames := satInc 32 r.txFrames, tec := r.tec - 1, ackRun := 0 }) s
        let s := attemptEnd o.idx s
        let s := if (canOf o).lone then raise0 0x0D45 h [] (updCan o.idx (fun r => { r with lone := false }) s) else s
        let s := sendsEnd h buf 0 s
        let s := match x.msg with
          | some n => pgnSendEnd n {} s
          | none => s
        let s := if 24 ≤ buf then isbRefill s else s
        match x.frame with
        | some f => if bit (canFlags o) 2 then canTake o f s else s
        | none => s)

/-- CAN_BUS_OFF_RECOVERY: 128 occurrences of 11 recessive bits have passed (R383); the services claim again (R390). -/
def execCanBusOffRecovery (h : Nat) (s : State) : Host.Outcome State Fault Refusal :=
  .next (match objOf s h with
    | none => s
    | some o =>
      if o.typ ≠ tyCanport ∨ !(canOf o).busOff ∨ (canOf o).stopped then s
      else
        let n := satInc 32 (canOf o).busOffs
        let s := updCan o.idx (fun r => { r with busOff := false, tec := 0, rxErr := 0, busOffs := n }) s
        let s := raise0 0x0D42 h ([0, 0, 0, 0] ++ leBytes 4 n) s
        if isbRun s && u32 s.isb.cfg 0 == h then { s with isb := { s.isb with claimDue := true } } else s)

/-- The services after a wake: from address claim on (R386). -/
def isbResume (s : State) : State :=
  if isbRun s then tcFollow { s with isb := { s.isb with claimDue := true, claim := 0, address := 254, recv := [], send := [] } } else s

/-! ## The Task Controller client (R394 to R399) -/

/-- TC_STATUS_RECEIVED: a status message of a function instance, and the version that its exchange has given so far. -/
def execTcStatusReceived (inst addr : Nat) (version : Option Nat) (s : State) : Host.Outcome State Fault Refusal :=
  .next (
    if s.isb.tc = 0 ∨ inst ≠ u8 s.isb.cfg 19 then s
    else if s.isb.tc = 1 then setTc 2 { s with isb := { s.isb with tcAddr := addr, tcLast := s.gtc } }
    else if addr ≠ s.isb.tcAddr then s
    else
      let s := { s with isb := { s.isb with tcLast := s.gtc } }
      match version with
      | some v => if s.isb.tc = 2 then setTc 3 { s with isb := { s.isb with tcVer := v } } else s
      | none => s)

/-- TC_STATUS_LOST: no status for 6 s. The gates follow at the next boundary. -/
def execTcStatusLost (s : State) : Host.Outcome State Fault Refusal :=
  .next (
    if s.isb.tc < 2 then s
    else
      let s := toInstant (s.isb.tcLast + 6 * secTicks) s
      setTc 1 (raise0 0x0D4C 0 (leBytes 1 s.isb.tcAddr) s))

/-- TC_POOL_RESPONSE: the pool is active, or refused with an error code. -/
def execTcPoolResponse (ok : Bool) (err : Nat) (s : State) : Host.Outcome State Fault Refusal :=
  .next (
    if s.isb.tc ≠ 3 ∨ s.isb.pool.isNone then s
    else if ok then setTc 4 s
    else raise0 0x0D4D 0 (leBytes 2 err) (setTc 5 s))

/-- The SECTION objects that serve a tc_section. -/
def tcSections (s : State) (n : Nat) : List Obj := (objsOf s tySection).filter fun o => u16 o.act 34 == n
/-- A section in TC mode. -/
def tcMode (o : Obj) : Bool := isEnabled o && u8 o.act 16 == 1

/-- The tc_sections that a message addresses. -/
def tcReach (e : TcElem) : List Nat := match e with
  | .section_ n => [n]
  | .function => List.range 256

/-- SETPOINT_CONDENSED_WORK_STATE: stamped at `t`; each section with 0b00 or 0b01 acts on a change (R397). -/
def execSetpointCondensedWorkState (group value t : Nat) (s : State) : Host.Outcome State Fault Refusal :=
  .next (
    if s.isb.tc ≠ 4 ∨ group = 0 ∨ 16 < group then s
    else
      let s := toInstant t s
      let s := { s with isb := { s.isb with pdRecv := satInc 32 s.isb.pdRecv } }
      (List.range 16).foldl (fun s k =>
        let v := bits value (2 * k) 2
        if 1 < v then s
        else ((tcSections s (16 * (group - 1) + k)).filter tcMode).foldl (fun s o =>
          let r := secOf o
          if !secDecides o || r.decided == (v == 1) then s else tcSetpoint o (v == 1) t s) s) s)

/-- A measured value's frame (Process Data, PRESUMED layout, log 23). -/
def pdFrame (cmd : Nat) (e : TcElem) (pd : Pd) (data : List Byte) (s : State) : State :=
  let n := elemNum s e
  isbSend 3 0xCB00 s.isb.tcAddr s.isb.address
    (leBytes 1 (cmd % 16 + 16 * (n % 16)) ++ leBytes 1 (n / 16) ++ leBytes 2 (Config.ddi pd).toNat ++ data) none s

/-- The DDI of process data. -/
def ddiOf (pd : Pd) : Nat := match pd with
  | .other n => n % 65536
  | p => (Config.ddi p).toNat

/-- A command that the client does not honour (R399). -/
def pdRefuse (e : TcElem) (pd : Pd) (cmd : Nat) (s : State) : State :=
  raise0 0x0D4F 0 (leBytes 2 (ddiOf pd) ++ leBytes 1 cmd) (pdFrame 13 e pd [1, 0, 0, 0] s)

/-- Set or clear the bits of some tc_sections. -/
def putBits (m : Nat) (ns : List Nat) (b : Bool) : Nat := ns.foldl (fun m n => setBit m n b) m

/-- A setpoint rate in the unit of a SECTION: 0.01 L/ha, 0.01 kg/ha, and 0.001 seeds/m² (PRESUMED, log 23). -/
def tcRateOf (pd : Pd) (v : Int) : Option (F32 × Nat) := match pd with
  | .setVolume => some (fOfFrac v 100, 1)
  | .setMass => some (fOfFrac v 100, 2)
  | .setCount => some (fOfInt (10 * v), 3)
  | _ => none

/-- TC_PROCESS_DATA: a set value for an element (R396). -/
def execTcProcessData (e : TcElem) (pd : Pd) (value : Int) (s : State) : Host.Outcome State Fault Refusal :=
  .next (
    if s.isb.tc ≠ 4 then s
    else
      let s := { s with isb := { s.isb with pdRecv := satInc 32 s.isb.pdRecv } }
      match pd with
      | .setWorkState => { s with isb := { s.isb with sws := putBits s.isb.sws (tcReach e) (value == 1) } }
      | .sectionControl => { s with isb := { s.isb with scs := putBits s.isb.scs (tcReach e) (value == 1) } }
      | _ => match tcRateOf pd value with
        | none => pdRefuse e pd 3 s
        | some x => ((objsOf s tySection).filter fun o => (tcReach e).contains (u16 o.act 34)).foldl
            (fun s o => updSec o.idx (fun r => { r with tcRate := some x }) s) s)

/-! ## Reports (R398, R399) -/

/-- Whether the members present are all on, all off, or some FAULTED; a member elsewhere as last reported. -/
def secOutputs (s : State) (o : Obj) : List Bool × Bool :=
  let here := (localMembers s o).filter fun m => m.ost != .disabled
  let far := ((crefsOf tySection o.act).filterMap fun m => if m.1 = s.osl.position || farAbsent s m.1 then none else farOf s m).filter
    fun c => c.on || c.faulted
  (here.map (fun m => (chanOf m).output) ++ far.map (·.out), here.any (fun m => m.ost == .faulted) || far.any (·.faulted))

/-- The two bits of a section, given what was reported last (R398). -/
def acwsOf (s : State) (o : Obj) : Nat :=
  let x := secOutputs s o
  if x.2 then 2
  else if x.1.all (!·) then 0
  else if x.1.all id then 1
  else if (secOf o).dis then 2
  else (secOf o).acws

/-- The value of a condensed group: 0b11 for a section that no SECTION serves. -/
def acwsGroup (s : State) (g : Nat) : Nat :=
  ((List.range 16).map fun k => 4 ^ k * match (tcSections s (16 * (g - 1) + k)).find? isEnabled with
    | some o => (secOf o).acws
    | none => 3).foldl (· + ·) 0

/-- Mean rate over the members of the sections reached that are on and whose unit fits, in the DDI's unit (R396). -/
def meanRate (s : State) (e : TcElem) (unit num den : Nat) : Int :=
  let secs := (tcReach e).flatMap fun n => (tcSections s n).filter isEnabled
  let here := (secs.flatMap fun o => (localMembers s o).filter fun m => isEnabled m && (chanOf m).output).map fun m =>
    let r := chRate s m; (r.1, r.2.1)
  let far := (secs.flatMap fun o => (farChans s o).filter (·.out)).map fun c => (c.rate, c.unit)
  let rs := (here ++ far).filter fun r => r.2 == unit
  if rs.isEmpty then 0 else roundOpen 93 ((rs.map fun r => fVal r.1).foldl (· + ·) 0 * num) (2 ^ 149 * rs.length * den)

/-- A value that the client serves to the Task Controller (R396). -/
def pdValue (s : State) (e : TcElem) (pd : Pd) : Option Int :=
  let secs := ((tcReach e).flatMap fun n => tcSections s n).filter isEnabled
  let top (f : SecRt → Nat) : Int := (((secs.map fun o => f (secOf o)).foldl max 0 : Nat) : Int)
  match pd with
  | .sectionControl => some (if (tcReach e).all fun n => bit s.isb.scs n then 1 else 0)
  | .actCondensed g => some (acwsGroup s g : Nat)
  | .actWorkState => some (if secs.any fun o => (secOutputs s o).1.any id then 1 else 0)
  | .onTime => some (top (·.repOn))
  | .offTime => some (top (·.repOff))
  | .actVolume => some (meanRate s e 1 100 1)
  | .actMass => some (meanRate s e 2 100 1)
  | .actCount => some (meanRate s e 3 1 10)
  | _ => none

/-- Send a value. -/
def pdSend (e : TcElem) (pd : Pd) (s : State) : State :=
  match pdValue s e pd with
  | none => s
  | some v => pdFrame 3 e pd (iBytes 4 v) { s with isb := { s.isb with pdSent := satInc 32 s.isb.pdSent } }

/-- MEASUREMENT_COMMAND: 4 time interval [ms], 5 distance interval [mm], 6 minimum and 7 maximum threshold, 8 on change. -/
def execMeasurementCommand (e : TcElem) (pd : Pd) (cmd : Nat) (value : Int) (s : State) : Host.Outcome State Fault Refusal :=
  .next (
    if s.isb.tc ≠ 4 then s
    else
      let s := { s with isb := { s.isb with pdRecv := satInc 32 s.isb.pdRecv } }
      match pdValue s e pd with
      | none => pdRefuse e pd cmd s
      | some v =>
        if cmd < 4 ∨ 8 < cmd ∨ (cmd = 4 ∧ value < 100) ∨ (cmd = 5 ∧ value ≤ 0) then pdRefuse e pd cmd s
        else
          let m : Meas := { elem := e, pd := pd, cmd := cmd, value := value, at' := s.gtc, dist := s.isb.path, sent := v }
          { s with isb := { s.isb with meas := (s.isb.meas.filter fun x => !(x.elem == e && x.pd == pd && x.cmd == cmd)) ++ [m] } })

/-- A measurement is due at the present state; a time interval at its own instant. -/
def measDue (s : State) (m : Meas) (v : Int) : Bool :=
  if m.cmd = 4 then true
  else if m.cmd = 5 then decide (m.value * 10000 ≤ ((s.isb.path : Int) - m.dist))
  else if m.cmd = 6 then v != m.sent && decide (v < m.value)
  else if m.cmd = 7 then v != m.sent && decide (m.value < v)
  else v != m.sent && decide (m.value ≤ ((v - m.sent).natAbs : Int))

/-- PD_MEASUREMENT_TRIGGER: measurement `k` falls due and its value is sent. -/
def execPdMeasurementTrigger (k : Nat) (s : State) : Host.Outcome State Fault Refusal :=
  .next (match s.isb.meas[k]? with
    | none => s
    | some m =>
      if s.isb.tc ≠ 4 then s
      else
        let s := if m.cmd = 4 then toInstant (m.at' + m.value.toNat * msTicks) s else s
        match pdValue s m.elem m.pd with
        | none => s
        | some v =>
          if !measDue s m v then s
          else pdSend m.elem m.pd { s with isb := { s.isb with
            meas := s.isb.meas.set k { m with at' := s.gtc, dist := s.isb.path, sent := v } } })

/-- WORK_STATE_DISAGREE_TIMEOUT: the members' outputs have disagreed for 500 ms (R398). -/
def execWorkStateDisagreeTimeout (h : Nat) (s : State) : Host.Outcome State Fault Refusal :=
  .next (match objOf s h with
    | none => s
    | some o => match (secOf o).disSince with
      | none => s
      | some t => if o.typ = tySection then updSec o.idx (fun r => { r with dis := true }) (toInstant (t + 500 * msTicks) s) else s)

/-- TC_TIMES_RESEND: a reported time has moved by more than 10 ms, and 2 s have passed since the last report (R207); both
times are sent again (R399). -/
def execTcTimesResend (h : Nat) (s : State) : Host.Outcome State Fault Refusal :=
  .next (match objOf s h with
    | none => s
    | some o =>
      let r := secOf o
      let moved (a b : Nat) : Bool := decide (a + 10 < b ∨ b + 10 < a)
      if o.typ = tySection ∧ isEnabled o ∧ u8 o.act 16 = 1 ∧ (moved r.nowOn r.repOn || moved r.nowOff r.repOff) then
        let s := toInstant (r.repAt + 2 * secTicks) s
        let s := updSec o.idx (fun r => { r with repOn := r.nowOn, repOff := r.nowOff, repAt := s.gtc }) s
        let s := raiseE 0x0649 0 h o.epoch (satBytes 2 r.nowOn ++ satBytes 2 r.nowOff) s
        if s.isb.tc ≠ 4 then s
        else
          let e : TcElem := .section_ (u16 o.act 34)
          pdSend e .offTime (pdSend e .onTime s)
      else s)

/-- A gate that follows the Task Controller (R207, R397): what it is to be at the boundary. -/
def tcGate (o : Obj) (s : State) : State :=
  let n := u16 o.act 34
  let want := s.isb.tc == 4 && bit s.isb.sws n && bit s.isb.scs n
  if (secOf o).gateReq == want then s
  else updSec o.idx (fun r => { r with gateReq := want, gateNext := some (want && !(r.wingLost && u8 o.act 33 == 2)) }) s

/-- The report of a section as of the boundary. -/
def tcReport (b : Nat) (o : Obj) (s : State) : State :=
  let x := secOutputs s o
  let split := !(x.1.all id) && !(x.1.all (!·))
  updSec o.idx (fun r => { r with
    acws := acwsOf s o, disSince := if split then some (r.disSince.getD b) else none, dis := r.dis && split }) s

/-- Services at boundary `b`: the origin's path, the gates of TC sections, their reports, which are sent at each change. -/
def isbBoundary (b : Nat) (s : State) : State :=
  let v := Nat.sqrt ((i32 s.kin.rcd 40).natAbs ^ 2 + (i32 s.kin.rcd 44).natAbs ^ 2)
  let s := { s with isb := { s.isb with path := s.isb.path + v } }
  let s := (objsOf s tySection).foldl (fun s o => if isEnabled o then tcReport b o (if tcMode o then tcGate o s else s) else s) s
  if s.isb.tc ≠ 4 then s
  else (List.range ((poolCount s + 15) / 16)).foldl (fun s k =>
    let v := acwsGroup s (k + 1)
    if s.isb.sent.getD k 0 = v then s
    else pdSend .function (.actCondensed (k + 1)) { s with isb := { s.isb with sent := s.isb.sent.set k v } }) s

/-! ## Status (R401) -/

/-- ISB_STATUS. -/
def bodyIsbStatus (d : Desc) (s : State) : State :=
  let i := s.isb
  writeBack d (leBytes 1 i.address ++ leBytes 1 i.claim ++ leBytes 1 i.tc ++ leBytes 1 i.tcAddr ++ leBytes 1 i.tcVer
    ++ satBytes 1 (poolCount s) ++ [0, 0] ++ leBytes 8 (isbName s) ++ satBytes 4 i.aborted ++ satBytes 4 i.pdRecv
    ++ satBytes 4 i.pdSent ++ satBytes 4 i.dropped ++ leBytes 8 i.tcLast ++ List.replicate 24 0) {} s

def execIsbStatus (d : Desc) (s : State) : Host.Outcome State Fault Refusal := .next (runDesc 0x0D0D d (bodyIsbStatus d) s)

end Sys2Proof.Machine
end

