-- ==== Sys2Proof/Machine/Engines.lean ====
section
/-! DEFINITION. Engines and jobs (03, R77 to R90): costs, placement, flag fall and castling. -/

namespace Sys2Proof.Machine

/-! ## Slots (R79, R22) -/

/-- The slots a job runs in: s, and s + 8 at 20 kHz (R22). -/
def slotSet (rate s : Nat) : Nat := 2 ^ s + if rate = 0 then 2 ^ (s + 8) else 0

/-- The lowest slot of a mask. -/
def firstOf (msk : Nat) : Nat := ((maskSlots msk).head?).getD 0

/-- A job of this rate and slots runs in slot `q` of frame `fr` (R22). -/
def jobDue (rate msk q fr : Nat) : Bool :=
  bit msk q && (if rate ≤ 1 then true else if rate = 2 then fr % 2 == 0 else if rate = 3 then fr % 5 == 0 else fr % 10 == 0)

/-! ## Placement (R81) -/

/-- The score of a candidate, if every slot of its set admits the cost. -/
def placeScore (loads : List Nat) (msk cost : Nat) : Option Nat :=
  let after := (maskSlots msk).map fun q => loads.getD q 0 + cost
  if after.all (fun l => decide (l ≤ 1350)) then some (after.foldl max 0) else none

/-- Candidates of one engine in ascending first slot: engine, slot set, score. -/
def placeOn (x : Engine) (e ty rate cost : Nat) (pinS : Option Nat) : List (Nat × Nat × Nat) :=
  (firstSlots ty rate).filterMap fun q =>
    if (pinS.map (· != q)).getD false then none
    else (placeScore x.loads (slotSet rate q) cost).map fun sc => (e, slotSet rate q, sc)

/-- The best candidate: the first of the least score, so that ties keep the earlier one (R81). -/
def bestOf : List (Nat × Nat × Nat) → Option (Nat × Nat × Nat)
  | [] => none
  | c :: cs => match bestOf cs with
    | none => some c
    | some b => if b.2.2 < c.2.2 then some b else some c

/-- `place(job)` of R81: the engine and slot set, or nothing. -/
def placeFind (s : State) (ty rate cost : Nat) (pinE pinS excl : Option Nat) : Option (Nat × Nat) :=
  (bestOf ((s.eng.engines.zipIdx).flatMap fun xe =>
    if xe.1.svc ≠ 0 then []
    else if (pinE.map (· != xe.2)).getD false then []
    else if excl = some xe.2 then []
    else placeOn xe.1 xe.2 ty rate cost pinS)).map fun b => (b.1, b.2.1)

/-- The pins of a job head: engine for placements 1 and 2, slot for placement 2 (R78). -/
def headPinE (ps : List Byte) : Option Nat := if 1 ≤ jobPlacement ps then some (jobEngine ps) else none
def headPinS (ps : List Byte) : Option Nat := if jobPlacement ps = 2 then some (jobSlot ps) else none

/-- The next placement epoch (R88, R89): 65,535 is followed by 1, and the first is 1. -/
def epochNext (e : Nat) : Nat := if e = 65535 then 1 else e + 1

/-- Engine `e` is out of service. -/
def engineOut (s : State) (e : Nat) : Bool := ((s.eng.engines[e]?).map fun x => x.svc == 2).getD true

/-! ## Flag fall (R84 to R87) -/

/-- The jobs that an engine runs in a slot of a frame, in ascending handle index (R83). -/
def jobsIn (s : State) (e q fr : Nat) : List Obj :=
  s.objs.filter fun o => isEnabled o && o.engine == e && jobTypes.contains o.typ && jobDue (jobRate o.act) o.slots q fr

/-- One flag fall: the object's counts, the engine's, and FLAG_FALL at most once per 100 ms (R85, R111). -/
def flagFall (f : Falling) (s : State) : State :=
  match objAt s f.idx with
  | none => s
  | some o =>
    let s := updObj f.idx (fun o => { o with ffTotal := satInc 32 o.ffTotal, ffConsec := satInc 16 o.ffConsec }) s
    let s := updEngine f.engine (fun x => { x with falls := wrapInc 32 x.falls }) s
    raiseLimited (100 * msTicks) 0x0340 0 (handleOf o) 0 o.epoch
      (leBytes 1 f.engine ++ leBytes 1 f.slot ++ [BitVec.ofNat 8 (b2n f.victim), 0]) 4 4 s

/-- The run of frames with a flag fall, for one engine slot that ran at least one job (R87). -/
def fallRunNext (s : State) (q : Nat) (e : Nat) (x : Engine) : Engine :=
  if (jobsIn s e q (frameNo s.gtc)).isEmpty then x
  else
    let fell := s.eng.falling.any fun f => f.engine == e && f.slot == q
    { x with fallRun := x.fallRun.set q (if fell then x.fallRun.getD q 0 + 1 else 0) }

/-- SLOT_END: the fabric aborts the jobs still running; they and the later jobs of the slot flag fall, their results
discarded (R83 to R85); an ended run of three frames is counted for R87. -/
def execSlotEnd (slot : Nat) (s : State) : Host.Outcome State Fault Refusal :=
  .next (
    let s := toInstant (frameStart s.gtc + slotTicks * (slot + 1) - 1) s
    let mine := s.eng.falling.filter fun f => f.slot == slot
    let s := { s with eng := { s.eng with engines := s.eng.engines.mapIdx (fallRunNext s slot) } }
    let s := mine.foldl (fun s f => flagFall f s) s
    { s with eng := { s.eng with falling := s.eng.falling.filter fun f => f.slot != slot } })

/-- FLAG_FALL_LIMIT: ff_consec has reached a non-zero ff_limit (R85). -/
def execFlagFallLimit (h : Nat) (s : State) : Host.Outcome State Fault Refusal :=
  .next (match objOf s h with
    | none => s
    | some o =>
      if jobTypes.contains o.typ && jobFfLimit o.act != 0 && decide (jobFfLimit o.act ≤ o.ffConsec)
      then class1 h 0x0341 [] s else s)

/-! ## Castling (R88 to R90) -/

/-- Start a move: the new slots are loaded at acceptance, N is the next boundary (R88). -/
def startMove (o : Obj) (e msk cause : Nat) (pin : Bool) (s : State) : State :=
  let s := addLoad e msk (heldCost s o) false s
  let m : Move := { handle := handleOf o, oldE := o.engine, oldSlots := o.slots, newE := e, newSlots := msk,
                    boundary := nextBoundary s.gtc, cause := cause, pin := pin }
  { s with eng := { s.eng with moves := s.eng.moves ++ [m] } }

/-- The costliest automatically placed job with rebalance = 1 in an engine slot, the first of several (R87). -/
def costliest : List Obj → Option Obj
  | [] => none
  | o :: os => match costliest os with
    | none => some o
    | some b => if o.cost < b.cost then some b else some o

/-- REBALANCE_CASTLE: three consecutive running frames of an engine slot had a flag fall; its costliest movable job is
castled away, at most one at a time (R87). -/
def execRebalanceCastle (engine slot : Nat) (s : State) : Host.Outcome State Fault Refusal :=
  .next (
    let run := ((s.eng.engines[engine]?).map fun x => x.fallRun.getD slot 0).getD 0
    if run < 3 ∨ s.eng.moves.any (fun m => m.cause == 1) then s
    else
      let js := s.objs.filter fun o => isEnabled o && o.engine == engine && jobTypes.contains o.typ && bit o.slots slot
        && jobPlacement o.act == 0 && jobRebalance o.act && (moveOf s (handleOf o)).isNone
      match costliest js with
      | none => s
      | some o =>
        match placeFind s o.typ (jobRate o.act) (heldCost s o) none none (some engine) with
        | none => s
        | some p =>
          updEngine engine (fun x => { x with fallRun := x.fallRun.set slot 0 }) (startMove o p.1 p.2 1 false s))

/-- CASTLE_COPY_DONE: the working-set copy of frame N has ended (R88 step 3). -/
def execCastleCopyDone (h : Nat) (s : State) : Host.Outcome State Fault Refusal :=
  .next (match moveOf s h with
    | none => s
    | some m =>
      let s := toInstant m.boundary s
      { s with eng := { s.eng with moves := s.eng.moves.map fun x => if x = m then { x with copied := true } else x } })

/-- The job head after a take-over (R548): a pinned kind keeps its kind with the new engine and slot, byte 18 = 1
pins an automatic job to its new engine. -/
def headAfterMove (e msk : Nat) (pin : Bool) (ps : List Byte) : List Byte :=
  let b (n : Nat) : List Byte := leBytes 1 n
  if jobPlacement ps = 1 then putAt ps 1 (b e)
  else if jobPlacement ps = 2 then putAt ps 1 (b e ++ b (firstOf msk))
  else if pin then putAt ps 0 (b 1 ++ b e)
  else ps

/-- Result bytes of JOB_MOVE (R109). -/
def moveResult (oldE newE msk epoch : Nat) : List Byte :=
  leBytes 1 oldE ++ leBytes 1 newE ++ leBytes 2 msk ++ leBytes 2 epoch

/-- CASTLE_TAKEOVER: at boundary N+2 the new engine runs the job under the next epoch, the old loads are released,
CASTLE_DONE is raised and a JOB_MOVE completes (R88 step 5, R89, R111). -/
def execCastleTakeover (h : Nat) (s : State) : Host.Outcome State Fault Refusal :=
  .next (match moveOf s h, objOf s h with
    | some m, some o =>
      if !m.copied then s
      else
        let s := toInstant (m.boundary + 2 * frameTicks) s
        let ep := epochNext o.epoch
        let s := addLoad m.oldE m.oldSlots (heldCost s o) true s
        let s := updObj o.idx (fun o => { o with
          engine := m.newE, slots := m.newSlots, epoch := ep
          params := headAfterMove m.newE m.newSlots m.pin o.params
          act := headAfterMove m.newE m.newSlots m.pin o.act }) s
        let s := { s with eng := { s.eng with moves := s.eng.moves.erase m } }
        let s := raiseE 0x0342 0 h ep (leBytes 1 m.oldE ++ leBytes 1 m.newE ++ leBytes 1 m.cause ++ [0] ++ leBytes 2 ep) s
        finishDeferred 0x0300 h { result := moveResult m.oldE m.newE m.newSlots ep, epoch := ep } s
    | _, _ => s)

/-- Moves toward an engine that leaves service are abandoned with CASTLE_ABORTED (R90). -/
def abortMovesTo (e : Nat) (s : State) : State :=
  (s.eng.moves.filter fun m => m.newE == e).foldl
    (fun s m => raise0 0x0343 m.handle (leBytes 1 e) (abandonMove m.handle 0x030A s)) s

/-- Evacuate one job of a hung engine, or tell it that its job is lost (R86). A job that is being castled away already goes on
with that move, and none is told that it is lost: DESIGN CHOICE (log 25), R86 does not name it. -/
def evacuate (e : Nat) (o : Obj) (s : State) : State :=
  if (moveOf s (handleOf o)).isSome then s
  else if jobPlacement o.act ≠ 0 then class1 (handleOf o) 0x0345 (leBytes 1 e) s
  else match placeFind s o.typ (jobRate o.act) (heldCost s o) none none (some e) with
    | none => class1 (handleOf o) 0x0345 (leBytes 1 e) s
    | some p => startMove o p.1 p.2 2 false s

/-- ENGINE_HUNG: the engine leaves service, ENGINE_HUNG is raised, moves toward it are abandoned and its jobs are
evacuated or lost (R86, R90). -/
def execEngineHung (engine : Nat) (s : State) : Host.Outcome State Fault Refusal :=
  .next (if engine = 0 ∨ 24 ≤ engine ∨ engineOut s engine then s
  else
    let s := updEngine engine (fun x => { x with svc := 2 }) s
    let s := raise0 0x0344 0 (leBytes 1 engine) s
    let s := abortMovesTo engine s
    (s.objs.filter fun o => isEnabled o && o.engine == engine && jobTypes.contains o.typ).foldl
      (fun s o => evacuate engine o s) s)

/-- JOB_MOVE (R548, R109): byte 16 engine, byte 17 first slot, byte 18 pin. DESIGN CHOICE (log 25): of several refusals the first
of STATE, CASTLE_IN_PROGRESS, BAD_PARAM, ENGINE_OUT and PLACEMENT_FULL stands, and byte 18 pins nothing where the job stays in
its present placement; the manual gives no order and names no such pin. -/
def bodyJobMove (d : Desc) (o : Obj) (s : State) : State :=
  let e := u8 d.bytes 16
  let q := u8 d.bytes 17
  let rate := jobRate o.act
  if !isEnabled o then fail d stState s
  else if (moveOf s (handleOf o)).isSome then fail d 0x0302 s
  else if ¬ (e = 0xFF ∨ (1 ≤ e ∧ e ≤ 23)) ∨ ¬ (q = 0xFF ∨ (firstSlots o.typ rate).contains q) ∨ 2 ≤ u8 d.bytes 18 then
    fail d stBadParam s
  else if e ≠ 0xFF ∧ engineOut s e then fail d 0x030A s
  else
    match placeFind s o.typ rate (heldCost s o) (if e = 0xFF then none else some e) (if q = 0xFF then none else some q) none with
    | none => fail d 0x0301 s
    | some p =>
      if p = (o.engine, o.slots) then okWith d (moveResult o.engine o.engine o.slots o.epoch) s
      else
        let s := startMove o p.1 p.2 0 (u8 d.bytes 18 == 1) s
        defer d 0x0300 (handleOf o) (nextBoundary s.gtc + 2 * frameTicks) [] 0 s

/-- The most cycles that an engine's jobs can have used in one run of one slot of the last second: a slot has 1,500 (R81), and
an engine that had no load has used none. -/
def peakMax (s : State) (x : Engine) : Nat :=
  if x.svc ≠ 1 ∧ x.loads.all (· == 0) ∧ (x.busyAt.map fun t => decide (t + secTicks < s.gtc)).getD true then 0 else 1500

/-- One record of ENGINE_STATUS (R109). The peak is a measurement, open up to `peakMax` (log 7). The jobs are those not DISABLED
in their present placement: DESIGN CHOICE (log 25), R109 does not say whether one that a pending ENABLE or a castling has
placed counts. -/
def engineRecord (s : State) (e peak : Nat) (x : Engine) : List Byte :=
  leBytes 1 x.svc ++ leBytes 1 (s.objs.filter fun o => o.ost != .disabled && o.engine == e && jobTypes.contains o.typ).length
    ++ [0, 0] ++ leBytes 4 x.falls ++ (x.loads.flatMap (leBytes 2)) ++ leBytes 2 (peak % (peakMax s x + 1)) ++ List.replicate 6 0

/-- ENGINE_STATUS: 24 records of 48 B (R109). -/
def bodyEngineStatus (d : Desc) (s : State) : State :=
  writeBack d ((s.eng.engines.zipIdx).flatMap fun x => engineRecord s x.2 (Config.freeValue (s.freeCount + x.2)) x.1) {}
    { s with freeCount := s.freeCount + 24 }

/-- ENGINE_RESTORE: the self-test of an engine out of service, whose outcome the command carries (R86, R109). -/
def bodyEngineRestore (d : Desc) (pass : Bool) (s : State) : State :=
  let e := u8 d.bytes 16
  if e = 0 ∨ 24 ≤ e then fail d stBadParam s
  else if !engineOut s e then okWith d [0] s
  else if pass then okWith d [1] (updEngine e (fun x => { x with svc := 0 }) s)
  else fail d 0x030B s

end Sys2Proof.Machine
end

