-- ==== Sys2Proof/Machine/PulseGen.lean ====
section
/-! DEFINITION. Pulse generator (08, R255 to R279): period groups, edges, minimum pulse, dead time, trips and
commutation masks. -/

namespace Sys2Proof.Machine

/-! ## Period groups (R257, R258) -/

/-- The first period start of an aligned group at or after `b` (R258). -/
def alignedFrom (b : Nat) (anchor : Int) (period : Nat) : Nat :=
  (b : Int) + ((anchor - b) % (period : Int)) |>.toNat

/-- The ENABLED PWMCH objects of a group. -/
def groupChans (s : State) (g : Nat) : List Obj :=
  (objsOf s tyPwmch).filter fun o => isEnabled o && pwGroup o.act == g

/-- A FAULTED channel goes on counting its group's period starts since ENABLE (R276). -/
def countFaulted (s : State) (g : Nat) : State :=
  ((objsOf s tyPwmch).filter fun o => o.ost == .faulted && pwGroup o.act == g).foldl
    (fun s o => updPwm o.idx (fun r => { r with periods := satInc 32 r.periods }) s) s

/-- PG_GROUP_CONFIG (R257). -/
def bodyPgGroupConfig (d : Desc) (s : State) : State :=
  let g := u8 d.bytes 16
  let al := u8 d.bytes 17
  let p := u32 d.bytes 20
  let an := i64 d.bytes 24
  if 16 ≤ g ∨ 2 ≤ al ∨ p < 96 ∨ 268435455 < p then fail d stBadParam s
  else
    let x := pgGroup s g
    let b := nextBoundary s.gtc
    let fresh : PgGroup := { x with
      conf := true, aligned := al == 1, period := p, anchor := an, nextPeriod := none, start := none, k := 0
      next := some (if al = 1 then alignedFrom b an p else b) }
    if (groupChans s g).isEmpty then ok d (updGroup g (fun _ => fresh) s)
    else if x.conf && x.aligned == (al == 1) && x.period == p && x.anchor == an && x.nextPeriod.isNone then ok d s
    else if !x.aligned && al == 0 && x.anchor == an then ok d (updGroup g (fun x => { x with nextPeriod := some p }) s)
    else fail d stBusy s

def execPgGroupConfig (d : Desc) (s : State) : Host.Outcome State Fault Refusal :=
  .next (runDesc 0x0800 d (bodyPgGroupConfig d) s)

/-! ## Edges within a period (R259 to R261, R265) -/

/-- bitrev4 of R261. -/
def bitrev4 (k : Nat) : Nat := 8 * b2n (bit k 0) + 4 * b2n (bit k 1) + 2 * b2n (bit k 2) + b2n (bit k 3)

/-- The tick of a compare value in a period (R261). -/
def edgeTick (dither : Bool) (k c : Nat) : Nat :=
  let f := c % 16
  c / 16 + b2n (if dither then decide (bitrev4 k < f) else decide (8 ≤ f))

/-- The requested duty width in 1/16 TCLK (R259); a NaN gives the free value `free` (log 7). -/
def dutyWidth (duty : F32) (p free : Nat) : Nat :=
  if fIsNaN duty then free % (16 * p + 1) else (fRoundMul (fClamp fZero fOne duty) (16 * p)).toNat

/-- The dead-time estimate in 1/16 TCLK (R264, R265). -/
def deadEstimate (ps : List Byte) (r : PwmRt) (rising : Bool) : Nat :=
  if !pwPair ps then 0
  else if !pwAdaptive ps then 16 * pwDead ps rising
  else if (if rising then r.measR else r.measF) then 16 * (if rising then r.dtRise else r.dtFall)
  else 16 * u16 ps 28

/-- The edges of one period: SET and CLR compare values, the carry, H held or idle levels, suppressed pulses. -/
structure Plan where
  set : Option Nat := none
  clr : Option Nat := none
  /-- the latch takes this level at the period start -/
  level : Option Bool := none
  carry : Int := 0
  short : Nat := 0
  lOff : Bool := false
  deriving DecidableEq, Repr

/-- The minimum-pulse procedure (R265) on a requested width `w0` from `st` whose edges fall `wt` apart in this period
(R261), with `p` the period and `dr`, `df` the dead times, all in 1/16 TCLK. -/
def minPulse (st w0 wt p dr df minpw : Nat) (carry : Int) (pair stretch : Bool) : Plan :=
  let run (w : Int) : Plan := { set := some st, clr := some (((st + w) % (p : Int)).toNat) }
  if w0 = 0 then { level := some false }
  else if w0 = p then { level := some true }
  else if minpw = 0 then run w0
  else
    let w := (wt : Int) + carry
    if w - dr < minpw ∧ ¬ stretch then { carry := w, short := 1 }
    else
      let w := if w - dr < minpw then (minpw : Int) + dr else w
      let g := (p : Int) - w
      if g < minpw ∧ ¬ stretch then { set := some st, carry := -g, short := 1 }
      else
        let w := if g < minpw then (p : Int) - minpw else w
        if pair ∧ g - df < minpw then { run w with lOff := true, short := 1 } else run w

/-- What a channel runs in a period (R259, R260, R265): the procedure applies with its gate open and no force, and in
compare mode whenever both compares lie within the period. Its test uses the edge ticks of period index `k` (R261). -/
def planOf (ps : List Byte) (r : PwmRt) (p k free : Nat) : Plan :=
  let q := 16 * p
  let tick := edgeTick (bit (pwFlags ps) 3) k
  let wt (st w : Nat) : Nat := 16 * (tick (st + w) - tick st)
  let minpw := 16 * u32 ps 20
  let applies := r.gate && r.force.isNone
  let dr := deadEstimate ps r true
  let df := deadEstimate ps r false
  let pair := pwPair ps
  let stretch := bit (pwFlags ps) 0
  if u8 ps 3 = 0 then
    let st := match r.phase with
      | some ph => ph * p % q
      | none => u32 ps 8 % q
    let w := dutyWidth (f32 ps 16) p free
    minPulse st w (wt st w) q dr df (if applies then minpw else 0) (if applies then r.carry else 0) pair stretch
  else
    let a := u32 ps 8
    let c := u32 ps 12
    if a < q ∧ c < q ∧ a ≠ c then
      let w := (c + q - a) % q
      minPulse a w (wt a w) q dr df minpw r.carry pair stretch
    else { set := if a < q then some a else none, clr := if c < q then some c else none }

/-- Apply the edges that fall due by `t`, SET before CLR at one tick (R259, R272). -/
def dueEdges (t : Nat) (r : PwmRt) : PwmRt :=
  let isDue (x : Option Nat) : Bool := (x.map fun e => decide (e ≤ t)).getD false
  match isDue r.setEdge, isDue r.clrEdge with
  | false, false => r
  | true, false => { r with cmp := true, setEdge := none }
  | false, true => { r with cmp := false, clrEdge := none }
  | true, true => { r with cmp := decide (r.clrEdge.getD 0 < r.setEdge.getD 0), setEdge := none, clrEdge := none }

/-! ## Trips (R266 to R269) -/

def trip (s : State) (n : Nat) : Trip := s.pg.trips.getD n {}
def updTrip (n : Nat) (f : Trip → Trip) (s : State) : State :=
  { s with pg := { s.pg with trips := s.pg.trips.set n (f (trip s n)) } }

def tripBlankable (t : Trip) : Bool := bit t.flags 1
def tripClass1 (t : Trip) : Bool := bit t.flags 3

/-- Event data of PG_TRIP (R279). -/
def tripData (n : Nat) (t : Trip) : List Byte := leBytes 1 n ++ leBytes 1 (b2n t.latch) ++ [0, 0, 0, 0, 0, 0]

/-- A class 1 trip makes a PWMCH FAULTED at its safe levels and is raised to the object that drives it, or to the
PWMCH itself (R267). -/
def tripFault (n i : Nat) (s : State) : State :=
  match objAt s i with
  | none => s
  | some o =>
    let h := handleOf o
    let s := updPwm i (fun r => { r with tripped := true }) s
    match driverOf s h with
    | some x => class1 (handleOf x) 0x0840 (tripData n (trip s n)) (pwmGateClose i (becomeFaulted o s))
    | none => pwmRefresh i (class1 h 0x0840 (tripData n (trip s n)) s)

/-- Trip `n` acts on one channel by its class (R267); its carry clears (R265). -/
def tripOn (n i : Nat) (s : State) : State :=
  let t := trip s n
  if t.latch then
    let s := pwmRefresh i (updPwm i (fun r => { r with latched := setBit r.latched n true, carry := 0 }) s)
    if tripClass1 t then tripFault n i s else s
  else pwmRefresh i (updPwm i (fun r => { r with cyc := true, carry := 0 }) s)

/-- The ENABLED channels that trip `n` acts on. -/
def tripChans (s : State) (n : Nat) : List Obj :=
  (objsOf s tyPwmch).filter fun o => isEnabled o && bit (u8 o.act 34) n

/-- A channel ignores a blankable trip while its blanking runs (R268). -/
def blanked (s : State) (t : Trip) (o : Obj) : Bool := tripBlankable t && decide (s.gtc < (pwmOf o).blankUntil)

/-- An active trip acts on the given channels: a latch trip latches and is raised once on the device handle, a cycle
trip at most once per second (R267). -/
def tripActs (n : Nat) (os : List Obj) (s : State) : State :=
  let t := trip s n
  let s := if t.latch then
      (if t.latched then s else raise0 0x0840 0 (tripData n t) (updTrip n (fun t => { t with latched := true }) s))
    else raiseLimited secTicks 0x0840 0 0 n 0 (tripData n t) 4 4 s
  os.foldl (fun s o => tripOn n o.idx s) s

/-- An input that is active acts on every channel that does not blank it; with no channel in blanking a latch trip
latches even where it acts on none (log 14). -/
def tripArrive (n : Nat) (s : State) : State :=
  let t := trip s n
  if !t.en || !t.input || (t.latch && t.latched) then s
  else
    let all := tripChans s n
    let os := all.filter fun o => !blanked s t o
    if os.isEmpty && (!all.isEmpty || !t.latch) then s else tripActs n os s

/-- TRIP_INPUT_ASSERT: TRIPn is active after its filter (R267). -/
def execTripInputAssert (n : Nat) (s : State) : Host.Outcome State Fault Refusal :=
  .next (if 8 ≤ n ∨ (trip s n).input then s else tripArrive n (updTrip n (fun t => { t with input := true }) s))

/-- TRIP_INPUT_RELEASE: TRIPn is inactive after its filter (R267, R269). -/
def execTripInputRelease (n : Nat) (s : State) : Host.Outcome State Fault Refusal :=
  .next (if 8 ≤ n ∨ !(trip s n).input then s else updTrip n (fun t => { t with input := false, released := s.gtc }) s)

/-- Clear a latch: each affected channel that is not FAULTED resumes at its next period start (R269). -/
def tripClear (n cause : Nat) (s : State) : State :=
  let s := updTrip n (fun t => { t with latched := false }) s
  let s := (objsOf s tyPwmch).foldl (fun s o =>
    let r := pwmOf o
    if bit r.latched n then
      updPwm o.idx (fun r => { r with latched := setBit r.latched n false, await := isEnabled o, carry := 0 }) s
    else s) s
  raise0 0x0841 0 (leBytes 1 n ++ leBytes 1 cause) s

/-- TRIP_RELEASE_CLEAR: with clear on release, an input inactive for 10 µs clears the latch (R269). -/
def execTripReleaseClear (n : Nat) (s : State) : Host.Outcome State Fault Refusal :=
  .next (
    let t := trip s n
    if decide (n < 8) && t.latched && !t.input && bit t.flags 2 then tripClear n 1 (toInstant (t.released + 10 * usTicks) s)
    else s)

/-- PG_TRIP_CONFIG (R266): takes effect at the next frame boundary. -/
def bodyPgTripConfig (d : Desc) (s : State) : State :=
  let n := u8 d.bytes 16
  if 8 ≤ n ∨ 2 ≤ u8 d.bytes 17 ∨ 2 ≤ u8 d.bytes 18 ∨ 16 ≤ u8 d.bytes 19 ∨ 15 < u8 d.bytes 20 then fail d stBadParam s
  else if (trip s n).latched then fail d 0x0801 s
  else ok d (updTrip n (fun t => { t with next := some (slice d.bytes 17 4) }) s)

def execPgTripConfig (d : Desc) (s : State) : Host.Outcome State Fault Refusal :=
  .next (runDesc 0x0801 d (bodyPgTripConfig d) s)

/-- At a frame boundary the waiting configuration of a trip takes effect; an input that is active then acts (R266, R267). -/
def tripBoundary (n : Nat) (s : State) : State :=
  match (trip s n).next with
  | none => s
  | some b =>
    tripArrive n (updTrip n (fun t => { t with
      next := none, en := u8 b 0 == 1, latch := u8 b 1 == 1, flags := u8 b 2, filter := u8 b 3
      input := if bit t.flags 0 == bit (u8 b 2) 0 then t.input else !t.input }) s)

/-- PG_TRIP_CLEAR (R269): byte 16 the mask of trips. -/
def bodyPgTripClear (d : Desc) (s : State) : State :=
  let m := u8 d.bytes 16
  let s := ((List.range 8).filter fun n => bit m n && (trip s n).latched && !(trip s n).input).foldl (fun s n => tripClear n 0 s) s
  let left := ((List.range 8).filter fun n => bit m n && (trip s n).latched).foldl (fun a n => a + 2 ^ n) 0
  if left = 0 then ok d s else failWith d 0x0801 (leBytes 1 left) s

def execPgTripClear (d : Desc) (s : State) : Host.Outcome State Fault Refusal :=
  .next (runDesc 0x0802 d (bodyPgTripClear d) s)

/-- BLANKING_END: a blankable trip whose input is still active acts (R268). -/
def execBlankingEnd (h : Nat) (s : State) : Host.Outcome State Fault Refusal :=
  .next (match objOf s h with
    | none => s
    | some o =>
      if o.typ ≠ tyPwmch ∨ !isEnabled o ∨ (pwmOf o).blankUntil = 0 then s
      else
        let s := updPwm o.idx (fun r => { r with blankUntil := 0 }) (toInstant (pwmOf o).blankUntil s)
        ((List.range 8).filter fun n =>
            let t := trip s n
            t.en && t.input && tripBlankable t && bit (u8 o.act 34) n).foldl (fun s n => tripActs n [o] s) s)

/-! ## Period starts -/

/-- The shadow that a period start at `t` loads: the newest that was complete at least 48 TCLK before (R258). -/
def shadowAtStart (t : Nat) (o : Obj) : Option Shadow :=
  let r := pwmOf o
  (({ since := r.shadowAt, params := o.params, phase := r.phaseSh } : Shadow) :: r.past.reverse).find? fun x => decide (x.since + 48 ≤ t)

/-- At a period start `t` a channel takes up its shadow (R258); a trip that is latched acts on a channel whose trip mask now names
it (R267). -/
def chanLoad (t : Nat) (i : Nat) (s : State) : State :=
  match objAt s i with
  | none => s
  | some o =>
    let r := dueEdges t (pwmOf o)
    let x := (shadowAtStart t o).getD { params := o.act, phase := r.phase }
    let act := x.params
    let r := { r with
      phase := x.phase
      carry := if u8 o.act 3 != u8 act 3 then 0 else r.carry }
    let s := updObj i (fun o => { o with act := act, rt := .pwm r }) s
    ((List.range 8).filter fun n => bit (u8 act 34) n && (trip s n).latched && !bit r.latched n).foldl
      (fun s n => tripOn n i s) s

/-- A cycle trip that blanking does not touch is still active at a period start (R267). -/
def cycleHolds (s : State) (act : List Byte) : Bool :=
  (List.range 8).any fun n =>
    let t := trip s n
    t.en && t.input && !t.latch && !tripBlankable t && bit (u8 act 34) n

/-- A channel's period start at `t` (R258 to R265): edges due fall first, the shadow loads, cycle trips rearm, a cleared
channel resumes, a force ends, the minimum-pulse test runs. -/
def chanPeriod (t k p : Nat) (i : Nat) (s : State) : State :=
  let s := chanLoad t i s
  match objAt s i with
  | none => s
  | some o =>
    let act := o.act
    let r := pwmOf o
    let r := { r with
      cyc := cycleHolds s act, await := false, periods := satInc 32 r.periods
      force := if (r.force.map fun e => decide (e ≤ t)).getD false then none else r.force }
    let fr := takeFree s
    let s := if u8 act 3 = 0 ∧ fIsNaN (f32 act 16) then fr.2 else s
    let pl := planOf act r p k fr.1
    let dit := bit (pwFlags act) 3
    let r := { r with
      carry := pl.carry, shortPulse := min (2 ^ 32 - 1) (r.shortPulse + pl.short), lOff := pl.lOff
      cmp := pl.level.getD r.cmp
      setEdge := pl.set.map fun c => t + edgeTick dit k c
      clrEdge := pl.clr.map fun c => t + edgeTick dit k c }
    let e := dueEdges t r
    let fell := e.setEdge != r.setEdge || e.clrEdge != r.clrEdge
    let s := updPwm i (fun _ => { e with blankUntil := if fell && r.gate then t + u16 act 32 else e.blankUntil }) s
    let s := pwmRefresh i s
    if pl.short = 0 then s else raiseLimited secTicks 0x0842 0 (handleOf o) 0 0 (List.replicate 8 0) 4 4 s

/-- Cycle trips still active at a period start act again at once, on channels that do not blank them (R267). -/
def cycleAgain (g : Nat) (s : State) : State :=
  (List.range 8).foldl (fun s n =>
    let t := trip s n
    if t.en && t.input && !t.latch then
      let os := (groupChans s g).filter fun o => bit (u8 o.act 34) n && !blanked s t o
      if os.isEmpty then s else tripActs n os s
    else s) s

/-- PERIOD_START of a group (R258). -/
def execPeriodStart (g : Nat) (s : State) : Host.Outcome State Fault Refusal :=
  .next (
    let x := pgGroup s g
    match x.next with
    | none => s
    | some t =>
      let s := toInstant t s
      let p := x.nextPeriod.getD x.period
      let k := if x.start.isNone then (if x.aligned then (((t : Int) - x.anchor) / (p : Int) % 16).toNat else 0) else (x.k + 1) % 16
      let s := updGroup g (fun x => { x with period := p, nextPeriod := none, start := some t, next := some (t + p), k := k }) s
      let s := (axesOnGroup s g).foldl (fun s o => axDuties t p o s) s
      let s := countFaulted s g
      cycleAgain g ((groupChans s g).foldl (fun s o => chanPeriod t k p o.idx s) s))

/-- PG_COMPARE_EDGE: the SET or CLR edge of this period falls on its tick (R259, R272). -/
def execPgCompareEdge (h : Nat) (clr : Bool) (s : State) : Host.Outcome State Fault Refusal :=
  .next (match objOf s h with
    | none => s
    | some o =>
      if o.typ ≠ tyPwmch ∨ !isEnabled o then s
      else match (if clr then (pwmOf o).clrEdge else (pwmOf o).setEdge) with
        | none => s
        | some t =>
          let s := toInstant t s
          let gated := (pwmOf o).gate
          let s := updPwm o.idx (fun r => dueEdges t { r with blankUntil := if gated then t + u16 o.act 32 else r.blankUntil }) s
          pwmRefresh o.idx s)

/-! ## Adaptive dead time (R264) -/

/-- The incoming side of a PWMCH's transition goes active at `t` (R264). -/
def deadTimeEnd (i t : Nat) (rising : Bool) (start : Nat) (s : State) : State :=
  match objAt s i with
  | none => s
  | some o => updPwm i (pwTurned t o.act rising start) s

/-- SWN_TRANSITION: SWNp has reached a level at `t`; the incoming side that holds it goes active dt_add ticks later,
within the limits (R264). -/
def execSwnTransition (p : Nat) (high : Bool) (t : Nat) (s : State) : Host.Outcome State Fault Refusal :=
  .next (
    let s := toInstant t { s with pg := { s.pg with swn := s.pg.swn.set p high } }
    match pwmOnChan s (2 * p) with
    | none => s
    | some o =>
      match (pwmOf o).turn with
      | some (rising, start) =>
        if rising != high || !pwAdaptive o.act then s
        else deadTimeEnd o.idx (pwTurnAt o.act rising start t) rising start s
      | none => s)

/-- DEAD_TIME_MAX: the incoming side goes active whatever SWNp shows; a timeout is counted and reported at most once
per second (R264). -/
def execDeadTimeMax (h : Nat) (s : State) : Host.Outcome State Fault Refusal :=
  .next (match objOf s h with
    | none => s
    | some o =>
      match (pwmOf o).turn with
      | none => s
      | some (rising, start) =>
        let t := start + u16 o.act 28
        let s := deadTimeEnd o.idx t rising start (toInstant t s)
        let s := updPwm o.idx (fun r => { r with dtTimeouts := satInc 32 r.dtTimeouts }) s
        raiseLimited secTicks 0x0843 0 h 0 0 ([BitVec.ofNat 8 (b2n !rising)] ++ List.replicate 7 0) 4 4 s)

/-! ## Commutation (R270, R271) -/

/-- A commutation change reaches the masked pairs of the group. -/
def commRefresh (g : Nat) (s : State) : State :=
  ((objsOf s tyPwmch).filter fun o => pwGroup o.act == g && bit (pwFlags o.act) 5).foldl (fun s o => pwmRefresh o.idx s) s

/-- The judgement of a commutation block (R270, R518). -/
def commBad (s : State) (g : Nat) (b : List Byte) : Option Nat :=
  let n := u8 b 1
  if 16 ≤ g ∨ 2 < u8 b 0 ∨ n = 0 ∨ 8 < n ∨ 48 ≤ u8 b 2 ∨ 48 ≤ u8 b 3 ∨ 48 ≤ u8 b 4
      ∨ (48 ≤ u8 b 5 ∧ u8 b 5 ≠ 0xFF) ∨ n ≤ u8 b 6 ∨ u8 b 7 ≠ 0
      ∨ (List.range 8).any (fun i => u8 b (8 + i) != 0xFF && decide (n ≤ u8 b (8 + i))) then some stBadParam
  else
    let held := (s.objs.flatMap fun o => claimsOf s o.typ o.params) ++ claimsDevice s g
    if claimsBad held (commClaims b) then some stInUse else none

/-- PG_COMM_CONFIG (R270): the group in bytes 32 to 35, the block of 80 B. -/
def bodyPgCommConfig (d : Desc) (s : State) : State :=
  let b := blockOf s d
  match commBad s (dOffset d) b with
  | some e => fail d e s
  | none => ok d (commRefresh (dOffset d) (updGroup (dOffset d) (fun x => { x with comm := some b, step := u8 b 6, floating := false }) s))

def execPgCommConfig (d : Desc) (s : State) : Host.Outcome State Fault Refusal :=
  .next (runDesc 0x0803 d (bodyPgCommConfig d) s)

/-- The step after one step forward or back. -/
def commNext (n step : Nat) (back : Bool) : Nat := if back then (step + n - 1) % n else (step + 1) % n

/-- PG_COMMUTATE (R271, R277); a group without a mask table completes STATE (log 14). -/
def bodyPgCommutate (d : Desc) (s : State) : State :=
  let g := u8 d.bytes 16
  let op := u8 d.bytes 17
  let st := u8 d.bytes 18
  if 16 ≤ g ∨ 2 < op ∨ (op ≠ 2 ∧ st ≠ 0) then fail d stBadParam s
  else match (pgGroup s g).comm with
    | none => fail d stState s
    | some b =>
      if op = 2 ∧ u8 b 1 ≤ st then fail d stBadParam s
      else ok d (commRefresh g (updGroup g (fun x => { x with step := if op = 2 then st else commNext (u8 b 1) x.step (op == 1) }) s))

def execPgCommutate (d : Desc) (s : State) : Host.Outcome State Fault Refusal :=
  .next (runDesc 0x0804 d (bodyPgCommutate d) s)

/-- A GPIO's filtered level. -/
def gpioLevel (s : State) (g : Nat) : Bool := s.pg.gpio.getD g false
def setGpio (g : Nat) (v : Bool) (s : State) : State := { s with pg := { s.pg with gpio := s.pg.gpio.set g v } }

/-- GPIO `gpio` has a new filtered level: for a group that commutates by it, an edge of gpio_a advances the step, or the
hall code chooses it or sets FLOAT (R271). -/
def commInput (gpio g : Nat) (s : State) : State :=
  match (pgGroup s g).comm with
  | none => s
  | some b =>
    if u8 b 0 = 1 ∧ u8 b 2 = gpio then
      let back := u8 b 5 != 0xFF && gpioLevel s (u8 b 5)
      commRefresh g (updGroup g (fun x => { x with step := commNext (u8 b 1) x.step back }) s)
    else if u8 b 0 = 2 ∧ (u8 b 2 = gpio ∨ u8 b 3 = gpio ∨ u8 b 4 = gpio) then
      let code := 4 * b2n (gpioLevel s (u8 b 4)) + 2 * b2n (gpioLevel s (u8 b 3)) + b2n (gpioLevel s (u8 b 2))
      let st := u8 b (8 + code)
      if st = 0xFF then
        raiseLimited secTicks 0x0844 0 0 g 0 (leBytes 1 g ++ leBytes 1 code) 0 0
          (commRefresh g (updGroup g (fun x => { x with floating := true }) s))
      else commRefresh g (updGroup g (fun x => { x with floating := false, step := st }) s)
    else s

/-! ## Status (R276, R277) -/

/-- PG_STATUS: 16 group records, then the trips. -/
def bodyPgStatus (d : Desc) (s : State) : State :=
  let rec1 (x : PgGroup × Nat) : List Byte :=
    let chans := ((objsOf s tyPwmch).filter fun o => pwGroup o.params == x.2).map fun o => if pwPair o.params then 2 else 1
    leBytes 4 x.1.period ++ leBytes 1 (b2n x.1.aligned) ++ leBytes 1 x.1.step ++ leBytes 2 (chans.foldl (· + ·) 0)
      ++ leBytes 8 (x.1.next.getD 0)
  let mask (p : Trip → Bool) : Nat := (s.pg.trips.zipIdx.map fun x => 2 ^ x.2 * b2n (p x.1)).foldl (· + ·) 0
  writeBack d (s.pg.groups.zipIdx.flatMap rec1
    ++ leBytes 1 (mask (·.latched)) ++ leBytes 1 (mask fun t => t.input == bit t.flags 0) ++ List.replicate 6 0) {} s

def execPgStatus (d : Desc) (s : State) : Host.Outcome State Fault Refusal := .next (runDesc 0x0805 d (bodyPgStatus d) s)

/-- The type-specific part of a PWMCH's status (R276). -/
def pwmStatus (s : State) (o : Obj) : List Byte :=
  let r := pwmOf o
  let hA := sideAct s.gtc r.h
  let lA := sideAct s.gtc r.l
  let last := max (if hA then r.h.getD 0 else 0) (max (if lA then r.l.getD 0 else 0) r.lastEdge)
  let lv := b2n hA + 2 * b2n lA + 4 * b2n r.gate + 8 * b2n r.force.isSome + 16 * b2n (r.latched != 0) + 32 * b2n r.cyc
    + 64 * b2n (safeForced s || s.isl.estopLatch) + 128 * b2n (commMask s o.act != 0)
  leBytes 1 lv ++ leBytes 1 r.latched ++ [0, 0] ++ iBytes 4 r.carry ++ satBytes 4 r.shortPulse ++ leBytes 2 r.dtRise
    ++ leBytes 2 r.dtFall ++ satBytes 4 r.dtTimeouts ++ satBytes 4 r.periods ++ leBytes 8 last

end Sys2Proof.Machine
end

