-- ==== Sys2Proof/Machine/Feedback.lean ====
section
/-! DEFINITION. Position and speed feedback (12, R350 to R371) and the filtered inputs (R352, R518): one operation for a
GPIO's new level, which every reader of it goes through. -/

namespace Sys2Proof.Machine

def fbFlags (o : Obj) : Nat := u8 o.act 3

/-- FEEDBACK_FAULT, FB_FAULT, FB_FAULT_CLEARED (R371). -/
def evFbReader : Nat := 0x0C41
def evFbFault : Nat := 0x0C42

/-! ## Faults (R364, R365) -/

/-- The fault reaches the readers that take a class 1 event: an AXIS through fb, a ROW or NOZZLE through sense. A LOOP, the
kinematics unit and a WING read the flag at their own instant. -/
def fbReaders (h reason : Nat) (s : State) : State :=
  (s.objs.filter fun o => isEnabled o && ((o.typ == tyAxis && u32 o.act 56 == h) || (isChan o && u32 o.act 24 == h))).foldl
    (fun s o => class1 (handleOf o) evFbReader (leBytes 4 h ++ leBytes 1 reason) s) s

/-- A fault with a reason: the flag sets, FB_FAULT is raised, and the readers are reached unless the flag was set; the
reason already shown is not reported again (log 22). -/
def fbFault (i reason sub : Nat) (s : State) : State :=
  match objAt s i with
  | none => s
  | some o =>
    let r := fbOf o
    if r.fault && r.reason == reason then s
    else
      let h := handleOf o
      let s := raise0 evFbFault h (leBytes 1 reason ++ leBytes 1 sub) (updFb i (fun r => { r with fault := true, reason := reason }) s)
      if r.fault then s else fbReaders h reason s

/-- The condition of the present fault has ended (R364). -/
def fbFaultEnded (s : State) (o : Obj) : Bool :=
  let r := fbOf o
  if r.reason = 5 then r.rangeSince.isNone
  else if r.reason = 4 then !(r.glitchAt.any fun t => decide (s.gtc < t + secTicks))
  else true

/-- FB_CLEAR (R364, R369). -/
def bodyFbClear (d : Desc) (o : Obj) (s : State) : State :=
  let r := fbOf o
  if !r.fault then ok d s
  else if !fbFaultEnded s o then fail d 0x0C01 s
  else ok d (raise0 0x0C43 (handleOf o) [] (updFb o.idx (fun r => { r with fault := false, reason := 0, badRun := 0, idxMiss := 0, qerrAt := [] }) s))

def execFbClear (d : Desc) (s : State) : Host.Outcome State Fault Refusal := .next (runObj 0x0C01 d (bodyFbClear d) s)

/-! ## Counting (R353, R354, R361) -/

/-- One count of a kind 0 FEEDBACK at `t`: position, direction with its hysteresis, stored counts. -/
def fbStep (hyst : Nat) (up : Bool) (t : Nat) (r : FbRt) : FbRt :=
  let pos := r.pos + if up then 1 else -1
  let period := if r.tEdge = 0 then 0 else t - r.tEdge
  let r := { r with pos := pos, tEdge := t, period := period }
  if up == !r.rev then { r with opp := 0, edges := ((t, pos) :: r.edges).take 64 }
  else if hyst + 1 ≤ r.opp + 1 then { r with rev := !up, opp := 0, edges := [(t, pos)], idxFrom := none }
  else { r with opp := r.opp + 1, edges := ((t, pos) :: r.edges).take 64 }

/-- Kind 0 FEEDBACKs of an encoder input that count. -/
def encFbs (s : State) (n : Nat) : List Obj := (objsOf s tyFeedback).filter fun o => isEnabled o && fbKind o.act == 0 && fbInput o.act == n

/-- A change of A or B of encoder input `n` at `t`; with `both` the two changed at once, a quadrature error (R353). -/
def quadEdge (n : Nat) (isA both : Bool) (t : Nat) (s : State) : State :=
  let a := s.fbd.encA.getD n false
  let b := s.fbd.encB.getD n false
  (encFbs s n).foldl (fun s o =>
    let h := handleOf o
    if both then
      let at' := t :: ((fbOf o).qerrAt.filter fun x => decide (t < x + 100 * msTicks))
      let s := updFb o.idx (fun r => { r with qerr := satInc 32 r.qerr, qerrAt := at' }) s
      let s := raiseLimited secTicks 0x0C45 0 h 0 0 [] 4 4 s
      if u8 o.act 10 < at'.length then fbFault o.idx 2 0 s else s
    else
      let up := (if isA then a != b else b == a) != bit (fbFlags o) 0
      updFb o.idx (fbStep (u8 o.act 9) up t) s) s

/-- The check of an accepted index pulse (R356). -/
def idxCheck (o : Obj) (prev : Int) (from' : Option Bool) (s : State) : State :=
  let r := ((objAt s o.idx).map fbOf).getD {}
  let rev4 : Nat := 4 * u16 o.act 4
  if from' ≠ some r.rev then updFb o.idx (fun r => { r with idxFrom := some r.rev }) s
  else
    let m := (r.pos - prev).natAbs
    let d : Int := (m : Int) - rev4
    let s := updFb o.idx (fun r => { r with idxLast := m, idxFrom := some r.rev }) s
    if d.natAbs ≤ u16 o.act 6 then
      let s := updFb o.idx (fun r => { r with idxMiss := 0 }) s
      if !bit (fbFlags o) 3 then s
      else
        let ref := r.ref.getD r.pos
        let k : Int := if rev4 = 0 then 0 else fxNear (fxFrac (r.pos - ref) rev4)
        let c := ref + k * rev4 - r.pos
        updFb o.idx (fun r => { r with
          pos := r.pos + c, idxPos := r.pos + c, corr := c, reref := true, edges := r.edges.map fun e => (e.1, e.2 + c) }) s
    else
      let n := r.idxMiss + 1
      let s := raise0 0x0C40 (handleOf o) (satBytes 4 m ++ iBytes 4 d) (updFb o.idx (fun r => { r with idxMiss := min 255 n }) s)
      if 3 ≤ n then fbFault o.idx 1 0 s else s

/-- An edge of Z of encoder input `n` (R355). -/
def indexEdge (n : Nat) (level : Bool) (s : State) : State :=
  let high := s.fbd.encA.getD n false && s.fbd.encB.getD n false
  (encFbs s n).foldl (fun s o =>
    let fl := fbFlags o
    if !bit fl 2 || level == bit fl 4 || (u8 o.act 8 == 1 && !high) then s
    else
      let r := fbOf o
      let s := updFb o.idx (fun r => { r with idxPos := r.pos, ref := some (r.ref.getD r.pos) }) s
      idxCheck o r.idxPos r.idxFrom (axIndex (handleOf o) s)) s

/-- An edge of a kind 2 or 3 FEEDBACK (R361). -/
def pulseEdge (kind n : Nat) (level : Bool) (t : Nat) (s : State) : State :=
  ((objsOf s tyFeedback).filter fun o => isEnabled o && fbKind o.act == kind && fbInput o.act == n).foldl (fun s o =>
    let r := fbOf o
    if level == bit (fbFlags o) 1 then s
    else if r.edges ≠ [] ∧ t < r.tEdge + u32 o.act 20 * usTicks then
      let at' := t :: (r.glitchAt.filter fun x => decide (t < x + secTicks))
      let s := updFb o.idx (fun r => { r with glitches := satInc 32 r.glitches, glitchAt := at' }) s
      if u16 o.act 24 ≠ 0 ∧ u16 o.act 24 < at'.length then fbFault o.idx 4 0 s else s
    else
      seedPulse (handleOf o) t (updFb o.idx (fun r => { r with
        pos := r.pos + 1, period := if r.edges.isEmpty then 0 else t - r.tEdge, tEdge := t
        edges := ((t, r.pos + 1) :: r.edges).take 64 }) s)) s

/-! ## Filtered inputs (R352) -/

/-- A GPIO takes a new filtered level at `t`: every reader of it acts (R271, R283, R339, R341, R361). -/
def gpioEdge (g : Nat) (level : Bool) (t : Nat) (s : State) : State :=
  if gpioLevel s g == level then s
  else
    let s := setGpio g level s
    let s := swInput g level s
    let s := (List.range 16).foldl (fun s k => commInput g k s) s
    pulseEdge 3 g level t (axGpio g level s)

/-- SW_IN_PIN_EDGE: a filtered edge on a GPIO that is a switch's IN pin (R283). -/
def execSwInPinEdge (gpio : Nat) (level : Bool) (s : State) : Host.Outcome State Fault Refusal := .next (gpioEdge gpio level s.gtc s)

/-- COMMUTATION_INPUT: a filtered edge on a GPIO that group `g` commutates by (R271). -/
def execCommutationInput (g gpio : Nat) (level : Bool) (s : State) : Host.Outcome State Fault Refusal :=
  .next (match (pgGroup s g).comm with
    | none => s
    | some b => if (commClaims b).any (fun c => c.1 == gpio) then gpioEdge gpio level s.gtc s else s)

/-- AXIS_LIMIT_ASSERT: a filtered edge on a limit input (R339). -/
def execAxisLimitAssert (gpio : Nat) (level : Bool) (s : State) : Host.Outcome State Fault Refusal := .next (gpioEdge gpio level s.gtc s)

/-- HOME_INPUT_EDGE: a filtered edge on a home input (R341). -/
def execHomeInputEdge (gpio : Nat) (level : Bool) (s : State) : Host.Outcome State Fault Refusal := .next (gpioEdge gpio level s.gtc s)

/-- The pass-through outputs follow their encoder input (R366). -/
def encoPass (s : State) : State :=
  { s with fbd := { s.fbd with enco := s.fbd.enco.map fun e =>
      if e.mode = 1 then
        let a := s.fbd.encA.getD e.enc false
        let b := s.fbd.encB.getD e.enc false
        { e with a := if bit e.flags 0 then b else a, b := if bit e.flags 0 then a else b
                 z := s.fbd.encZ.getD e.enc false != bit e.flags 1 }
      else e } }

def setBool (xs : List Bool) (n : Nat) (v : Bool) : List Bool := xs.set n v

/-- The filt of the FEEDBACK of a kind that claims an input, or the N set for the input (R352). -/
def filterOf (s : State) (kind n : Nat) (unclaimed : Nat) : Nat :=
  match (objsOf s tyFeedback).find? fun o => fbKind o.params == kind && fbInput o.params == n with
  | some o => u8 o.act 2
  | none => unclaimed

/-- N of an input's filter [ACLK samples]. -/
def inpFilter (s : State) : Inp → Nat
  | .gpio n => filterOf s 3 n (s.fbd.filtGpio.getD n 8)
  | .stepin n => s.fbd.filtStepin.getD n 8
  | .pulse n => filterOf s 2 n (s.fbd.filtPulse.getD n 8)
  | .encA n | .encB n | .encAB n | .encZ n => filterOf s 0 n (s.fbd.filtEnc.getD n 8)

/-- FILTERED_EDGE: an input shows a level on `n` consecutive ACLK samples, the first of them at `t`; with fewer than its filter's N
they are ignored, and an input at that level already has no edge (R352). -/
def execFilteredEdge (i : Inp) (level : Bool) (t n : Nat) (s : State) : Host.Outcome State Fault Refusal :=
  .next (if n < inpFilter s i then s
  else
    let s := toInstant t s
    let f := s.fbd
    match i with
    | .gpio n => gpioEdge n level t s
    | .stepin n =>
      if f.stepin.getD n false == level then s
      else
        let s := { s with fbd := { f with stepin := setBool f.stepin n level } }
        if level then stepinEdge n t s else s
    | .pulse n =>
      if f.pulse.getD n false == level then s
      else pulseEdge 2 n level t { s with fbd := { f with pulse := setBool f.pulse n level } }
    | .encA n =>
      if f.encA.getD n false == level then s
      else encoPass (quadEdge n true false t { s with fbd := { f with encA := setBool f.encA n level } })
    | .encB n =>
      if f.encB.getD n false == level then s
      else encoPass (quadEdge n false false t { s with fbd := { f with encB := setBool f.encB n level } })
    | .encAB n =>
      encoPass (quadEdge n true true t { s with fbd := { f with
        encA := setBool f.encA n (!f.encA.getD n false), encB := setBool f.encB n (!f.encB.getD n false) } })
    | .encZ n =>
      if f.encZ.getD n false == level then s
      else encoPass (indexEdge n level { s with fbd := { f with encZ := setBool f.encZ n level } }))

/-- An input is claimed by a FEEDBACK or a serial port (R350, R352). -/
def inputClaimed (s : State) (cls n : Nat) : Bool :=
  (objsOf s tyFeedback).any fun o =>
    let k := fbKind o.params
    if cls = 0 then k == 3 && fbInput o.params == n
    else if cls = 2 then encInput o.params == some n
    else if cls = 3 then k == 2 && fbInput o.params == n
    else false

/-- FB_FILTER_SET (R352, R369). -/
def bodyFbFilterSet (d : Desc) (s : State) : State :=
  let c := u8 d.bytes 16
  let n := u8 d.bytes 17
  let len := u8 d.bytes 18
  let lim := if c = 0 then 48 else if c = 2 then 16 else 8
  if 3 < c ∨ lim ≤ n ∨ len = 0 then fail d stBadParam s
  else if inputClaimed s c n then fail d stInUse s
  else ok d { s with fbd :=
    if c = 0 then { s.fbd with filtGpio := s.fbd.filtGpio.set n len }
    else if c = 1 then { s.fbd with filtStepin := s.fbd.filtStepin.set n len }
    else if c = 2 then { s.fbd with filtEnc := s.fbd.filtEnc.set n len }
    else { s.fbd with filtPulse := s.fbd.filtPulse.set n len } }

def execFbFilterSet (d : Desc) (s : State) : Host.Outcome State Fault Refusal := .next (runDesc 0x0C02 d (bodyFbFilterSet d) s)

/-! ## Serial ports (R357 to R360) -/

/-- The FEEDBACK that reads a serial port. -/
def serialFb (s : State) (port : Nat) : Option Obj :=
  (objsOf s tyFeedback).find? fun o => isEnabled o && fbKind o.act == 1 && fbInput o.act == port

/-- SERIAL_READ_START: at the boundary of a frame whose number is a multiple of ser_div, the port's read begins (R357). -/
def execSerialReadStart (port : Nat) (s : State) : Host.Outcome State Fault Refusal :=
  .next (match serialFb s port with
    | none => s
    | some o =>
      if frameNo s.gtc % max 1 (u8 o.act 32) = 0 then updFb o.idx (fun r => { r with reading := some (frameStart s.gtc) }) s else s)

/-- The number that bits spell, most significant first. -/
def msbNat (bs : List Bool) : Nat := bs.foldl (fun n b => 2 * n + b2n b) 0

/-- The CRC of R359 over some bits: degree `n`, polynomial below its top term, initial value 0. -/
def serialCrc (n poly : Nat) (bs : List Bool) : Nat :=
  bs.foldl (fun c b =>
    let top := bit c (n - 1) != b
    let c := (2 * c) % 2 ^ n
    if top then c ^^^ (poly % 2 ^ n) else c) 0

/-- What a serial frame gives (R358, R359): the raw position, or a sub-reason; and the warning bit. `line` is the state the
port found before the bits: for SSI the data line high, for BiSS C the start bit seen. `bs` are the bits clocked. -/
def serialRead (ps : List Byte) (line : Bool) (bs : List Bool) : (Option Nat × Nat) × Bool :=
  let n := u8 ps 27
  let fl := u8 ps 35
  if u8 ps 26 ≤ 1 then
    if !line then ((none, 3), false)
    else
      let v := (bs.drop (u8 ps 33)).take n
      let par := bs.getD (u8 ps 33 + n) false
      let odd := (v.foldl (fun x b => x != b) false) != par
      if bit fl 0 && odd then ((none, 1), false)
      else ((some (if u8 ps 26 = 1 then grayToBin (msbNat v) else msbNat v), 0), false)
  else if !line then ((none, 2), false)
  else
    let v := (bs.drop 1).take n
    let ew := if bit fl 1 then (bs.drop (1 + n)).take 2 else []
    let len := u8 ps 34
    let got := msbNat (((bs.drop (1 + n + ew.length)).take len).map (!·))
    if len ≠ 0 ∧ got ≠ serialCrc len (u16 ps 36) (v ++ ew) then ((none, 1), false)
    else if ew.head? = some false then ((none, 4), false)
    else ((some (msbNat v), 0), ew.getLast? == some false)

/-- A bad read (R360). -/
def serialBad (o : Obj) (sub : Nat) (s : State) : State :=
  let n := (fbOf o).badRun + 1
  let s := updFb o.idx (fun r => { r with badFrames := satInc 32 r.badFrames, badRun := n, sub := sub }) s
  if u8 o.act 11 ≤ n then fbFault o.idx 3 sub s else s

/-- A read of value `v` stamped `t` (R360): the first sets the position, later ones add their difference. -/
def serialGood (o : Obj) (v t : Nat) (s : State) : State :=
  let r := fbOf o
  let n := u8 o.act 27
  let put (pos : Int) (s : State) : State := updFb o.idx (fun r => { r with
    pos := pos, raw := some v, badRun := 0, period := if r.raw.isNone then 0 else t - r.tEdge, tEdge := t
    reads := (t, pos) :: (r.reads.filter fun x => decide (t ≤ x.1 + u32 o.act 12 * usTicks)) }) s
  match r.raw with
  | none => put v s
  | some p =>
    let d := sx n (ux n ((v : Int) - p))
    let lim := if u32 o.act 40 = 0 then 2 ^ (n - 2) else u32 o.act 40
    if lim < d.natAbs then serialBad o 5 s else put (r.pos + d) s

/-- SERIAL_FRAME_DONE: the read in progress on a port ends (R358 to R360). -/
def execSerialFrameDone (port : Nat) (line : Bool) (bs : List Bool) (s : State) : Host.Outcome State Fault Refusal :=
  .next (match serialFb s port with
    | none => s
    | some o => match (fbOf o).reading with
      | none => s
      | some t =>
        let s := updFb o.idx (fun r => { r with reading := none }) s
        let x := serialRead o.act line bs
        let s := if x.2 then raiseLimited secTicks 0x0C44 0 (handleOf o) 0 0 [] 0 0 s else s
        match x.1.1 with
        | some v => serialGood o v t s
        | none => serialBad o x.1.2 s)

/-! ## Analog inputs (R362) -/

/-- V lies within ain_lo to ain_hi. -/
def ainInRange (ps : List Byte) (xs : List (Nat × Nat)) : Bool :=
  let v := voltsOf xs (u16 ps 60)
  decide (fVal (f32 ps 52) * (v.2 : Int) ≤ v.1 * 2 ^ 149 ∧ v.1 * 2 ^ 149 ≤ fVal (f32 ps 56) * (v.2 : Int))

/-- AIN_SAMPLE: input `n` gives the 12-bit code at `t` (R362). -/
def execAinSample (n t code : Nat) (s : State) : Host.Outcome State Fault Refusal :=
  .next (
    let s := toInstant t s
    let c := code % 4096
    let s := { s with fbd := { s.fbd with ain := s.fbd.ain.set n c } }
    ((objsOf s tyFeedback).filter fun o => isEnabled o && fbKind o.act == 4 && fbInput o.act == n).foldl (fun s o =>
      let keep := u32 o.act 12 * usTicks + (u16 o.act 60 + 1) * 24000
      let xs := (t, c) :: ((fbOf o).samples.filter fun x => decide (t ≤ x.1 + keep))
      updFb o.idx (fun r => { r with
        samples := xs, tEdge := t, rangeSince := if ainInRange o.act xs then none else some (r.rangeSince.getD t) }) s) s)

/-- AIN_RANGE_TIMEOUT: V has been outside its range for 10 ms (R362). -/
def execAinRangeTimeout (h : Nat) (s : State) : Host.Outcome State Fault Refusal :=
  .next (match objOf s h with
    | none => s
    | some o => match (fbOf o).rangeSince with
      | none => s
      | some t => if isEnabled o then fbFault o.idx 5 0 (toInstant (t + 10 * msTicks) s) else s)

/-! ## Position and boundaries (R367, R369) -/

/-- FB_SET_POS (R369). -/
def bodyFbSetPos (d : Desc) (o : Obj) (s : State) : State :=
  let k := fbKind o.params
  if k = 1 ∨ k = 4 then fail d 0x0C02 s
  else ok d (updFb o.idx (fun r => { r with setPos := some (i64 d.bytes 24) }) s)

def execFbSetPos (d : Desc) (s : State) : Host.Outcome State Fault Refusal := .next (runObj 0x0C00 d (bodyFbSetPos d) s)

/-- An ENABLED FEEDBACK at a boundary: a position set takes effect, the status takes the speed (R368, R369). -/
def fbBoundary (b : Nat) (o : Obj) (s : State) : State :=
  let s := updFb o.idx (fun r => match r.setPos with
    | none => r
    | some p => { r with pos := p, setPos := none, ref := none, idxFrom := none, edges := r.edges.map fun e => (e.1, e.2 + (p - r.pos)) }) s
  match objAt s o.idx with
  | none => s
  | some o => if isEnabled o then updFb o.idx (fun r => { r with speed := fbSpeed o b }) s else s

/-- A frame of a serial port must end within 40 µs (R357). -/
def fbEnableBad (o : Obj) : Option Nat :=
  if fbKind o.params = 1 ∧ 40 * u32 o.params 28 < serialClocks o.params * 1000000 then some stBadParam else none

/-- A FEEDBACK becomes ENABLED: the count of kinds 0, 2 and 3 is 0; nothing is stored yet (R360, R367). -/
def fbEnable (i : Nat) (s : State) : State :=
  match objAt s i with
  | none => s
  | some o =>
    let k := fbKind o.act
    updFb i (fun r => { r with
      pos := if k = 1 ∨ k = 4 then r.pos else 0
      edges := [], dirKnown := k == 0, rev := false, opp := 0, tEdge := 0, period := 0, idxMiss := 0, idxFrom := none, ref := none, reref := false
      qerrAt := [], glitchAt := [], badRun := 0, raw := none, reads := [], reading := none, samples := [], rangeSince := none, setPos := none }) s

/-- A FEEDBACK becomes DISABLED: the last values stay in the status. -/
def fbDisable (i : Nat) (s : State) : State := updFb i (fun r => { r with reading := none, setPos := none, rangeSince := none }) s

/-- Type-specific status of a FEEDBACK (R368). -/
def fbStatus (s : State) (o : Obj) : List Byte :=
  let r := fbOf o
  let moving := if isEnabled o then (fbSpeedFrac o s.gtc).1 != 0 else false
  iBytes 8 r.pos ++ fBytes r.speed ++ fBytes (fbValue o) ++ leBytes 8 r.tEdge ++ satBytes 4 r.period
    ++ leBytes 1 (b2n r.fault + 2 * b2n r.dirKnown + 4 * b2n r.rev + 8 * b2n moving + 16 * b2n r.reref)
    ++ leBytes 1 r.reason ++ leBytes 1 r.sub ++ leBytes 1 r.idxMiss ++ satBytes 4 r.idxLast ++ iBytes 4 r.corr ++ iBytes 8 r.idxPos
    ++ satBytes 4 r.qerr ++ satBytes 4 r.glitches ++ satBytes 4 r.badFrames ++ [0, 0, 0, 0]

/-! ## Encoder outputs (R366) -/

/-- FB_ENCO_CONFIG: checked, then in effect from the next boundary. -/
def bodyFbEncoConfig (d : Desc) (s : State) : State :=
  let b := d.bytes
  let mode := u8 b 17
  let src := objOf s (u32 b 20)
  if 1 < u8 b 16 ∨ 2 < mode ∨ 15 < u8 b 18 ∨ 3 < u8 b 19 then fail d stBadParam s
  else if mode = 2 ∧ (u16 b 24 = 0 ∨ u16 b 26 < 24 ∨ 4800 < u16 b 26) then fail d stBadParam s
  else if mode = 2 ∧ (!fFinite (f32 b 28) || fMag (f32 b 28) == 0) then fail d stBadParam s
  else if mode = 2 ∧ src.isNone then fail d stBadHandle s
  else if mode = 2 ∧ (src.map fun o => o.typ != tyFeedback && o.typ != tyAxis).getD false then fail d stWrongType s
  else ok d { s with fbd := { s.fbd with enco := s.fbd.enco.modify (u8 b 16) fun e => { e with next := some (slice b 16 16) } } }

def execFbEncoConfig (d : Desc) (s : State) : Host.Outcome State Fault Refusal := .next (runDesc 0x0C03 d (bodyFbEncoConfig d) s)

/-- The position of an encoder output's source [2^-96 counts]. -/
def encoPos (s : State) (h : Nat) : Fx :=
  match objOf s h with
  | none => 0
  | some o => if o.typ = tyAxis then axFx (axPosAt (axOf o) s.gtc) else if fbKind o.act = 4 then fxF (fbValue o) else fxOf (fbOf o).pos

/-- Levels of a synthesised output: A leads B for positive counts; Z high while the count modulo 4 × lines is 0. -/
def encoLevels (e : Enco) : Enco :=
  let q := (e.count % 4).toNat
  let a := q == 1 || q == 2
  let b := q == 2 || q == 3
  { e with a := if bit e.flags 0 then b else a, b := if bit e.flags 0 then a else b
           z := decide (e.count % ((4 * e.lines : Nat) : Int) = 0) != bit e.flags 1 }

/-- Encoder outputs at a boundary: a configuration takes effect. -/
def encoBoundary (s : State) : State :=
  encoPass { s with fbd := { s.fbd with enco := s.fbd.enco.map fun e => match e.next with
    | none => e
    | some b =>
      let e : Enco := { mode := u8 b 1, enc := u8 b 2, flags := u8 b 3, src := u32 b 4, lines := u16 b 8, minEdge := u16 b 10
                        scale := f32 b 12, base := encoPos s (u32 b 4), stepAt := s.gtc }
      if e.mode = 2 then encoLevels e else e } }

/-- The count that an output is to reach: round(scale × position from the configuration on); it stands where its source is gone. -/
def encoTarget (s : State) (e : Enco) : Int :=
  if (objOf s e.src).isNone then e.count else fxNear (fxMul (fxF e.scale) (encoPos s e.src - e.base))

/-- ENCO_SYNTH_STEP: output `j` owes a step, and min_edge has passed since its last one (R366). -/
def execEncoSynthStep (j : Nat) (s : State) : Host.Outcome State Fault Refusal :=
  .next (match s.fbd.enco[j]? with
    | none => s
    | some e =>
      let t := encoTarget s e
      if e.mode ≠ 2 ∨ t = e.count then s
      else
        let s := toInstant (e.stepAt + e.minEdge) s
        { s with fbd := { s.fbd with enco := s.fbd.enco.set j (encoLevels { e with count := e.count + sgn (t - e.count), stepAt := s.gtc }) } })

end Sys2Proof.Machine
end

