-- ==== Sys2Proof/Machine/Solenoids.lean ====
section
/-! DEFINITION. Solenoid banks and boost (10, R303 to R325). -/

namespace Sys2Proof.Machine

/-! ## The boost supply (R307 to R309) -/

/-- SOL_BOOST_CONFIG (R307). -/
def bodySolBoostConfig (d : Desc) (s : State) : State :=
  let b := d.bytes
  let x := s.boost
  let en := u8 b 16 == 1
  if 2 ≤ u8 b 16 ∨ u16 b 18 < 100 ∨ 1000 < u16 b 18 ∨ ¬ fIn (fk 24) (fk 65) (f32 b 20) ∨ ¬ fIn (fq 1 2) (fk 20) (f32 b 24)
      ∨ ¬ fIn (fk 5) (fk 100) (f32 b 28) ∨ u16 b 32 < 100 ∨ 10000 < u16 b 32 ∨ u16 b 34 = 0 ∨ 100 < u16 b 34
      ∨ fVal (f32 b 24) * fVal (f32 b 28) > 200 * 2 ^ 298 then fail d stBadParam s
  else if (objsOf s tySolenoid).any isEnabled
      && !(x.en == en && x.freq == u16 b 18 && x.ilim == f32 b 24 && x.rcs == f32 b 28) then fail d stBusy s
  else ok d { s with boost := { x with
    en := en, freq := u16 b 18, ilim := f32 b 24, rcs := f32 b 28, next := some (f32 b 20, u16 b 32, u16 b 34) } }

def execSolBoostConfig (d : Desc) (s : State) : Host.Outcome State Fault Refusal :=
  .next (runDesc 0x0A00 d (bodySolBoostConfig d) s)

/-- At a frame boundary the waiting vboost, boost_wait and t_chop take effect (R307). -/
def boostBoundary (s : State) : State :=
  match s.boost.next with
  | none => s
  | some (v, w, c) => { s with boost := { s.boost with next := none, vboost := v, boostWait := w, tChop := c } }

/-- BOOST_CONVERTER_PERIOD: Q_BST turns on at a period's start while a charge runs, and `off` ends it at the current
limit or 90 % of the period; the charge starts again 1 V below vboost, and the converter returns from an overvoltage
below vboost (R308, R309). -/
def execBoostConverterPeriod (t : Nat) (volts : F32) (limit : Bool) (s : State) : Host.Outcome State Fault Refusal :=
  .next (
    let s := toInstant t s
    let x := s.boost
    let s := boostSettle { s with boost := { x with
      volts := volts
      overV := x.overV && !fLt volts x.vboost
      charged := x.charged && !fLt volts (fSub x.vboost fOne) } }
    { s with boost := { s.boost with bstG := s.boost.charging && !limit } })

/-- VBOOST_REACHED: the charge is complete; the head channel begins its boost unless another runs (R308, R309). -/
def execVboostReached (t : Nat) (volts : F32) (s : State) : Host.Outcome State Fault Refusal :=
  .next (if (!s.boost.charging && !s.boost.charged) || !fLe s.boost.vboost volts then s
  else
    let s := toInstant t s
    let s := boostSettle { s with boost := { s.boost with
      volts := volts, charged := true, bstG := false
      lastCharge := if s.boost.charging then (s.gtc - s.boost.chargeAt) / usTicks else s.boost.lastCharge } }
    boostBegin s)

/-- BOOST_WAIT_EXPIRY: the head's wait has reached boost_wait (R309). -/
def execBoostWaitExpiry (h : Nat) (s : State) : Host.Outcome State Fault Refusal :=
  .next (match boostHead s with
    | none => s
    | some o =>
      if handleOf o ≠ h ∨ (solOf o).phase ≠ 1 then s
      else boostSettle (boostSkip o (toInstant ((solOf o).onAt + s.boost.boostWait * usTicks) s)))

/-- Every boost due while the converter is held off by an overvoltage is skipped (R309). -/
def skipDue (s : State) : State :=
  if s.boost.overV && s.boost.running.isNone then
    boostSettle ((s.boost.queue.filterMap (objOf s)).foldl (fun s o => boostSkip o s) s)
  else s

/-- BOOST_OVERVOLTAGE: VBOOST above vboost + 5 V or 68 V (R309). -/
def execBoostOvervoltage (volts : F32) (s : State) : Host.Outcome State Fault Refusal :=
  .next (if s.boost.overV || !(fLt (fAdd s.boost.vboost (fk 5)) volts || fLt (fk 68) volts) then s
  else
    let s := { s with boost := { s.boost with volts := volts, overV := true, bstG := false } }
    skipDue (boostSettle (raise0 0x0A41 0 (fBytes volts) s)))

/-- BOOST_END: at i_boost, or after t_boost (R310). -/
def execBoostEnd (h t : Nat) (atCurrent : Bool) (s : State) : Host.Outcome State Fault Refusal :=
  .next (match objOf s h with
    | none => s
    | some o =>
      if s.boost.running ≠ some h ∨ (solOf o).phase ≠ 2 then s
      else
        let start := (solOf o).phaseAt
        let s := toInstant (if atCurrent then t else start + u32 o.act 12 * usTicks) s
        let s := solPeak o.idx s
        let s := updSol o.idx (fun r => { r with tBoostMeas := (s.gtc - start) / usTicks, tBoostEnd := !atCurrent }) s
        skipDue (boostBegin (boostSettle (dequeue h s))))

/-! ## Actuation (R310 to R312) -/

/-- What SOL_CMD is refused with (R323, R324). -/
def solCmdBad (s : State) (o : Obj) (on : Bool) : Option Nat :=
  if (driverOf s (handleOf o)).isSome then some 0x0A01
  else if !isEnabled o then some stState
  else if on && (solOf o).latch != 0 then some 0x0A02
  else none

/-- A pending SOL_CMD takes effect: its edge opens a window and the descriptor waits for that window; where the gate is
already as commanded there is no edge, and it completes without a signature (log 14). -/
def solCmdRun (x : Deferred) (s : State) : State :=
  match objOf s x.handle with
  | none => completeDeferred x { status := stBadHandle } s
  | some o =>
    match solCmdBad s o (x.arg == 1) with
    | some e => completeDeferred x { status := e } s
    | none =>
      if (solOf o).gate == (x.arg == 1) then completeDeferred x { result := solResult none 9 } s
      else
        let s := if x.arg = 1 then solOn o.idx s else solOff o.idx s
        { s with hif := { s.hif with deferred := s.hif.deferred.map fun y => if y = x then { y with arg := y.arg + 2 } else y } }

/-- SOL_CMD (R323). -/
def bodySolCmd (d : Desc) (o : Obj) (s : State) : State :=
  let on := u8 d.bytes 16
  let g := u64 d.bytes 24
  if 2 ≤ on then fail d stBadParam s
  else match solCmdBad s o (on == 1) with
    | some e => fail d e s
    | none =>
      let x : Deferred := { st := startedOf s d, op := 0x0A01, handle := handleOf o, due := g, arg := on }
      let s := defer d 0x0A01 (handleOf o) g [] on s
      if g ≤ s.gtc then solCmdRun x s else s

def execSolCmd (d : Desc) (s : State) : Host.Outcome State Fault Refusal := .next (runObj 0x0A01 d (bodySolCmd d) s)

/-- SOL_ON_COMMAND: the gate opens at the GTC of a pending SOL_CMD; a driving object opens it itself (R310). -/
def execSolOnCommand (h : Nat) (s : State) : Host.Outcome State Fault Refusal :=
  .next (match firstDue s 0x0A01 h (· == 1) with
    | none => s
    | some x => solCmdRun x (toInstant x.due s))

/-- SOL_OFF_COMMAND: the gate closes at the GTC of a pending SOL_CMD (R311). -/
def execSolOffCommand (h : Nat) (s : State) : Host.Outcome State Fault Refusal :=
  .next (match firstDue s 0x0A01 h (· == 0) with
    | none => s
    | some x => solCmdRun x (toInstant x.due s))

/-- PEAK_END: t_peak expires (R310). -/
def execPeakEnd (h : Nat) (s : State) : Host.Outcome State Fault Refusal :=
  .next (match objOf s h with
    | none => s
    | some o =>
      if (solOf o).phase ≠ 3 then s
      else
        let s := toInstant ((solOf o).phaseAt + u32 o.act 20 * usTicks) s
        let s := solMissed o s
        updSol o.idx (fun r => { r with
          phase := 4, phaseAt := s.gtc, reached := false, target := r.loopTarget.getD (f32 o.act 24) }) s)

/-- SOL_REGULATOR_THRESHOLD: the current crosses the upper or lower threshold; alone in its bank the channel switches
the high side with its low side on, else its own low side; no chopping decision comes sooner than t_chop after the
gate's last change (R306, R314, R315). -/
def execSolRegulatorThreshold (h t : Nat) (upper : Bool) (s : State) : Host.Outcome State Fault Refusal :=
  .next (match objOf s h with
    | none => s
    | some o =>
      let r := solOf o
      if r.phase ≠ 3 ∧ r.phase ≠ 4 then s
      else
        let b := solBank o.act
        let single := decide ((bankActive s b).length ≤ 1)
        let last := if single then s.boost.hsAt.getD b 0 else r.lsAt
        let s := toInstant (max t (last + s.boost.tChop * usTicks)) s
        let s := updSol o.idx (fun r => { r with
          reached := true, target := if r.phase = 4 then r.loopTarget.getD r.target else r.target }) s
        if single then setLs o.idx true (setHs b (!upper) s) else setLs o.idx (!upper) s)

/-- SOL_DECAY_END: the current is below i_off (R311); an off edge's window still open has no later signature (R313). -/
def execSolDecayEnd (h t : Nat) (s : State) : Host.Outcome State Fault Refusal :=
  .next (match objOf s h with
    | none => s
    | some o =>
      if (solOf o).phase ≠ 5 then s
      else setLs o.idx false (windowCut o.idx (updSol o.idx (fun r => { r with phase := 0 }) (toInstant t s))))

/-! ## Protection (R318, R319) -/

/-- A latch sets: the gates turn off, SOL_LATCHED, and SOL_FAULT to the driving object. -/
def solLatch (o : Obj) (b : Nat) (fault : Bool) (s : State) : State :=
  let h := handleOf o
  let s := updSol o.idx (fun r => { r with latch := setBit r.latch b true, dead := true, gate := false }) s
  let s := solCut o.idx (windowReason o.idx 6 s)
  let s := raise0 0x0A42 h (leBytes 1 (2 ^ b)) (senseReason h 6 s)
  match driverOf s h with
  | some x => if fault then class1 (handleOf x) 0x0A43 (leBytes 4 h ++ leBytes 1 (setBit (solOf o).latch b true)) s else s
  | none => s

/-- SOL_TRIP_CURRENT: the current is at i_trip, in any phase (R318). -/
def execSolTripCurrent (h t : Nat) (s : State) : Host.Outcome State Fault Refusal :=
  .next (match objOf s h with
    | none => s
    | some o =>
      if o.typ ≠ tySolenoid ∨ (solOf o).phase = 0 ∨ bit (solOf o).latch 0 then s
      else solLatch o 0 true (toInstant t s))

/-- SOL_OPEN_TIMEOUT: the current has stayed below 10 % of the first target for t_open after the on command (R318). -/
def execSolOpenTimeout (h : Nat) (s : State) : Host.Outcome State Fault Refusal :=
  .next (match objOf s h with
    | none => s
    | some o =>
      if o.typ ≠ tySolenoid ∨ !(solOf o).gate ∨ !bit (u8 o.act 3) 0 ∨ bit (solOf o).latch 1 then s
      else solLatch o 1 (bit (u8 o.act 3) 1) (toInstant ((solOf o).lastOn + u16 o.act 52 * msTicks) s))

/-- SOL_CLEAR (R319). -/
def bodySolClear (d : Desc) (o : Obj) (s : State) : State :=
  let m := u8 d.bytes 16
  if 4 ≤ m then fail d stBadParam s
  else ok d (updSol o.idx (fun r => { r with latch := r.latch &&& (3 - m) }) s)

def execSolClear (d : Desc) (s : State) : Host.Outcome State Fault Refusal := .next (runObj 0x0A02 d (bodySolClear d) s)

/-! ## Windows and status (R313, R322, R323) -/

/-- The window of a SOLENOID's edges, from and to [µs]: lat_min to lat_max of the NOZZLE that drives it, else sig_min to sig_max
(R313). -/
def solSpan (s : State) (o : Obj) : Nat × Nat :=
  match driverOf s (handleOf o) with
  | some c => if c.typ = tyNozzle then (u32 c.act 44, u32 c.act 48) else (u32 o.act 44, u32 o.act 48)
  | none => (u32 o.act 44, u32 o.act 48)

/-- SOL_SIGNATURE_WINDOW_CLOSE: a window closes with the signature that its conversions show, if any; `last` are the codes of the
last millisecond, whose mean is the current. A reason found during the window, or a VBAT warning, prevails (R192, R313, R317). -/
def execSolSignatureWindowClose (h t0 : Nat) (codes last : List Code) (s : State) : Host.Outcome State Fault Refusal :=
  .next (match objOf s h with
    | none => s
    | some o =>
      match (solOf o).window with
      | none => s
      | some w =>
        let lo := w.edge + (solSpan s o).1 * usTicks
        let hi := w.edge + (solSpan s o).2 * usTicks
        let s := toInstant hi s
        let s := updSol o.idx (fun r => { r with
          current := shuntAmps 101 o (codeSum last) (max 1 last.length)
          iMax := fMax r.iMax (shuntAmps 102 o (codeMax (codes ++ last)) 1) }) s
        let sig := signatureOf o w.on lo hi t0 codes
        let reason := if cutShort w.cut sig then 1 else if w.reason ≠ 0 then w.reason else if s.pwr.vbatLow.getD 0 false then 3 else if sig.isNone then 4 else 0
        solWindowEnd o.idx (if reason = 0 then sig.map fun t => (t - w.edge) / usTicks else none) reason s)

/-- State of the boost converter (R323). -/
def boostState (b : Boost) : Nat :=
  if b.overV then 4 else if b.running.isSome then 3 else if b.charged then 2 else if b.charging then 1 else 0

/-- SOL_BOOST_STATUS. -/
def bodySolBoostStatus (d : Desc) (s : State) : State :=
  let b := s.boost
  writeBack d (fBytes b.volts ++ leBytes 1 (boostState b) ++ leBytes 1 b.queue.length ++ [0, 0] ++ leBytes 4 b.boosts
    ++ leBytes 4 b.skipped ++ leBytes 4 b.longestWait ++ leBytes 4 b.lastCharge ++ List.replicate 8 0) {} s

def execSolBoostStatus (d : Desc) (s : State) : Host.Outcome State Fault Refusal :=
  .next (runDesc 0x0A03 d (bodySolBoostStatus d) s)

/-- The type-specific part of a SOLENOID's status (R322). -/
def solStatus (s : State) (o : Obj) : List Byte :=
  let r := solOf o
  let fl := b2n (decide (2 ≤ (bankActive s (solBank o.act)).length) && solActive r) + 2 * b2n r.skippedLast + 4 * b2n r.notReached
    + 8 * b2n r.tBoostEnd + 16 * b2n (safeForced s || s.isl.estopLatch)
  leBytes 1 r.phase ++ leBytes 1 fl ++ leBytes 1 r.latch ++ leBytes 1 r.lastReason ++ fBytes r.current ++ fBytes r.iMax
    ++ leBytes 4 r.tWait ++ leBytes 4 r.tBoostMeas ++ leBytes 4 r.tSig ++ leBytes 4 r.boosts ++ leBytes 4 r.skipped
    ++ leBytes 4 r.overlaps ++ leBytes 4 r.onCmds ++ leBytes 8 r.lastOn

end Sys2Proof.Machine
end

