-- ==== Sys2Proof/Machine/Objects.lean ====
section
/-! DEFINITION. Objects (02, R58 to R63; 03, R69 to R76, R80, R82): costs, creation, parameter writes and reads,
cluster references, status, destruction. -/

namespace Sys2Proof.Machine

/-! ## Costs (R80, R230) -/

/-- The largest transition count of any state of a state machine. -/
def smTmax (b : List Byte) : Nat := ((List.range (smS b)).map fun i => u8 b (smStateAt i + 2)).foldl max 0

/-- One evaluation of a bound curve (R80). -/
def curveCost (s : State) (h : Nat) : Nat :=
  match tableOf s h with
  | none => 0
  | some b => if tabMode b % 4 = 2 then 60 else 40

/-- A bound state machine (R80). -/
def smCost (s : State) (h : Nat) : Nat :=
  match tableOf s h with
  | none => 0
  | some b => 40 + 4 * (10 * smTmax b + 100)

/-- The curves that one run of a job evaluates: settle_table and the pulsed nozzle's duty curves (R188, R212), the
feed-forward with ff_src and the schedule map with sched_adm of either law (R230, R238, R240). -/
def curvesRun (ty : Nat) (ps : List Byte) : List Nat :=
  if ty = tyNozzle then
    u32 ps 64 :: (if bit (u8 ps 32) 4 then (List.range (u8 ps 74)).map fun k => u32 ps (76 + 4 * k) else [])
  else if ty = tyLoop then
    [0, 1].flatMap fun l =>
      (if u8 ps (lawOff l + 6) = 0 then [] else [u32 ps (lawOff l + 36)]) ++ (if u8 ps 85 = 1 then [u32 ps (lawOff l + 40)] else [])
  else []

/-- The cost of one run of a job with this block (R80, R230). -/
def jobCost (s : State) (ty : Nat) (ps : List Byte) : Nat :=
  let own :=
    if ty = tyNozzle then 300
    else if ty = tyRow then 340
    else if ty = tySection then 120 + 8 * u8 ps 48
    else if ty = tyAxis then 150 + smCost s (u32 ps 52)
    else if ty = tyLoop then
      160 + 45 * u8 ps 84 + (if u8 ps 94 ≠ 0 ∨ u8 ps 174 ≠ 0 then 40 else 0)
        + (if fPos (f32 ps 140) || fPos (f32 ps 220) then 60 else 0)
        + (if bit (u8 ps 23) 0 then 220 else 0) + (if u8 ps 85 = 1 then 90 else 0)
    else 0
  if jobTypes.contains ty then own + ((curvesRun ty ps).map (curveCost s)).foldl (· + ·) 0 else 0

/-- The placements that a job's load counts in: its own, and the new one of a castling (R82, R88). -/
def placesOf (s : State) (o : Obj) : List (Nat × Nat) :=
  (if o.slots = 0 then [] else [(o.engine, o.slots)])
    ++ match moveOf s (handleOf o) with
      | some m => [(m.newE, m.newSlots)]
      | none => []

/-- The cost that an object's job will have when every accepted change has taken effect. -/
def costAhead (s : State) (o : Obj) : Int :=
  o.cost + ((s.eng.costs.filter fun c => c.handle == handleOf o).map (·.delta)).foldl (· + ·) 0

/-- A new cost of a placed job fits the admission limit where the job runs (R82). -/
def costFits (s : State) (o : Obj) (cost : Nat) : Bool :=
  o.ost == .disabled || decide ((cost : Int) ≤ costAhead s o)
    || (placesOf s o).all fun p =>
      (maskSlots p.2).all fun q =>
        decide (((s.eng.engines[p.1]?.map fun x => x.loads.getD q 0).getD 0 : Int) + (cost - costAhead s o) ≤ 1350)

/-- Reserve a cost change from acceptance for its boundary (R82). -/
def costReserve (o : Obj) (cost boundary tag : Nat) (s : State) : State :=
  let d : Int := (cost : Int) - costAhead s o
  if o.ost == .disabled || d == 0 then s
  else
    let s := if 0 < d then (placesOf s o).foldl (fun s p => addLoad p.1 p.2 d.toNat false s) s else s
    { s with eng := { s.eng with costs := s.eng.costs ++ [{ handle := handleOf o, delta := d, boundary := boundary, tag := tag }] } }

/-- Reserve the new costs of several jobs, all or none (R82). -/
def costReserveAll (boundary tag : Nat) : List (Obj × Nat) → State → Option State
  | [], s => some s
  | x :: xs, s =>
    if costFits s x.1 x.2 then costReserveAll boundary tag xs (costReserve x.1 x.2 boundary tag s) else none

/-- The tag of the cost changes that a deferred descriptor has reserved, and of those of an object's staged changes. -/
def costTag (d : Desc) : Nat := dCookie d * 16 + d.sq + 1
def stageTag (h : Nat) : Nat := 2 ^ 80 + h

/-- The reserved changes of a descriptor are given up. -/
def costDrop (tag : Nat) (s : State) : State :=
  let cs := s.eng.costs.filter fun c => c.tag == tag
  let s := cs.foldl (fun s c => match objOf s c.handle with
    | none => s
    | some o => (placesOf s o).foldl (fun s (p : Nat × Nat) => addLoad p.1 p.2 c.delta.toNat true s) s) s
  { s with eng := { s.eng with costs := s.eng.costs.filter fun c => c.tag != tag } }

/-- A reserved cost change takes effect: the cost in the status head changes, a decrease is released (R82). -/
def costApply (c : CostChange) (s : State) : State :=
  let s := match objOf s c.handle with
    | none => s
    | some o =>
      let s := if c.delta < 0 then (placesOf s o).foldl (fun s (p : Nat × Nat) => addLoad p.1 p.2 c.delta.natAbs true s) s else s
      updObj o.idx (fun o => { o with cost := ((o.cost : Int) + c.delta).toNat }) s
  { s with eng := { s.eng with costs := s.eng.costs.erase c } }

/-- Release everything a job holds (R70, R82). -/
def placeRelease (o : Obj) (s : State) : State :=
  let s := abandonMove (handleOf o) stState s
  let s := if o.slots = 0 then s else addLoad o.engine o.slots (heldCost s o) true s
  let s := { s with eng := { s.eng with costs := s.eng.costs.filter fun c => c.handle != handleOf o } }
  updObj o.idx (fun o => { o with engine := 0xFF, slots := 0, cost := 0 }) s

/-! ## Effects of a write on the lines -/

/-- The invert bits of a PWMCH on PWM pins go to the island as they are written, and are cleared at DESTROY (R274). -/
def setInvert (ps : List Byte) (clear : Bool) (s : State) : State :=
  let put (c : Nat) (b : Bool) (s : State) : State :=
    { s with isl := { s.isl with dispPwm := s.isl.dispPwm.set c (setBit (s.isl.dispPwm.getD c 0) 3 b) } }
  if 64 ≤ pwChan ps then s
  else
    let s := put (pwChan ps) (!clear && bit (pwFlags ps) 1) s
    if pwPair ps then put (pwChan ps + 1) (!clear && bit (pwFlags ps) 2) s else s

/-- A driving reference to `h` is set or removed: the gate closes; without a reference a PWMCH stays shut until its next
ENABLE (R262). -/
def driverChanged (removed : Bool) (h : Nat) (s : State) : State :=
  let s := gateClose h s
  match objOf s h with
  | some t => if removed && t.typ == tyPwmch then updPwm t.idx (fun r => { r with shut := true }) s else s
  | none => s

/-- The targets that one block drives and another does not. -/
def drivesOnly (ty : Nat) (a b : List Byte) : List Nat :=
  ((refsOf ty a).filter fun r => r.2 && !(refsOf ty b).contains r).map (·.1)

/-- The switch line that a PWMCH takes over or leaves follows its new source (R283). -/
def lineRefresh (ty : Nat) (ps : List Byte) (s : State) : State :=
  if ty = tyPwmch then
    match objOf s (u32 ps 4) with
    | some t => swRefresh t.idx s
    | none => s
  else s

/-! ## Cluster references (R75, R76) -/

/-- Send a reference check or a release, for an object of type `ty`, to the member at a position. -/
def sendRef (release : Bool) (ty : Nat) (m : Nat × Nat) (s : State) : State :=
  { s with osl := { s.osl with outbox := s.osl.outbox ++
      [{ kind := .refCheck, dst := m.1, src := s.osl.position, body := leBytes 4 m.2 ++ leBytes 1 (b2n release) ++ leBytes 1 ty }] } }

/-- The references to other devices that one block has and another has not. -/
def remoteOnly (s : State) (ty : Nat) (a b : List Byte) : List (Nat × Nat) :=
  (crefsOf ty a).filter fun r => r.1 != s.osl.position && !(crefsOf ty b).contains r

/-- Release the references of an object of type `ty` at other devices. -/
def releaseRefs (ty : Nat) (ms : List (Nat × Nat)) (s : State) : State := ms.foldl (fun s m => sendRef true ty m s) s

/-- REMOTE_REFUSED with the position and the member's status, 0xFFFF where it did not reply. -/
def remoteRefused (pos status : Nat) : PErr := { status := 0x0307, result := leBytes 1 pos ++ leBytes 2 status }

/-! ## CREATE and DESTROY -/

/-- How many objects of a type may exist (R59); NOZZLE and ROW count together. -/
def typeFull (s : State) (ty : Nat) : Bool :=
  let n (t : Nat) : Nat := (objsOf s t).length
  if ty = tyNozzle ∨ ty = tyRow then decide (48 ≤ n tyNozzle + n tyRow)
  else if ty = tySection then decide (64 ≤ n tySection)
  else if ty = tyLoop then decide (32 ≤ n tyLoop)
  else if ty = tyAxis then decide (48 ≤ n tyAxis)
  else if ty = tyTable then decide (256 ≤ n tyTable)
  else if ty = tyGeopoint then decide (512 ≤ n tyGeopoint)
  else if ty = tyWing then decide (8 ≤ n tyWing)
  else false

/-- Types that span devices: they live on the lead or on a standalone device; the lead's layers serve the cluster
(R75, R180). -/
def spanning (ty : Nat) : Bool := [tySection, tyWing, tyGroup, tyLayer].contains ty

/-- The running state an object of a type starts with. -/
def freshRt (s : State) (ty i : Nat) : Rt :=
  if ty = tyNozzle ∨ ty = tyRow then .chan { chan := freeChan s i }
  else if ty = tySection then .sect {}
  else if ty = tyLoop then .loop {}
  else if ty = tyAxis then .axis {}
  else if ty = tyFeedback then .fb {}
  else if ty = tySolenoid then .sol {}
  else if ty = tySwitch then .sw {}
  else if ty = tyPwmch then .pwm {}
  else if ty = tyCanport then .can {}
  else if ty = tyGeopoint then .geo {}
  else if ty = tyLayer then .layer {}
  else if ty = tyWing then .wing {}
  else .none

/-- Bytes that the tables take (R95). -/
def tableBytes (s : State) : Nat := ((objsOf s tyTable).map fun o => o.params.length).foldl (· + ·) 0

/-- What refuses an image: its format, then the store limits (R95). -/
def imageBad (s : State) (b : List Byte) : Option PErr :=
  match tableBad b with
  | some e => some { status := 0x0303, result := leBytes 1 e.1 ++ leBytes 2 e.2 }
  | none => req (!typeFull s tyTable && decide (tableBytes s + b.length ≤ 512 * 1024)) { status := stNoResource }

/-- Make an object of a judged block; its completion carries the new handle (R62). -/
def createNow (d : Desc) (ty : Nat) (ps : List Byte) (s : State) : State :=
  match takeIndex s with
  | none => fail d stNoResource s
  | some x =>
    let i := x.1.1
    let s := x.2
    let o : Obj := { idx := i, typ := ty, gen := x.1.2, params := ps, act := ps, rt := freshRt s ty i, changed := s.gtc }
    let s := { s with objs := insertObj o s.objs }
    let s := (drivesOnly ty ps []).foldl (fun s h => driverChanged false h s) s
    let s := if ty = tyPwmch then setInvert ps false s else s
    complete d { handle := some (handleOf o) } (loadMark (startedOf s d) ty (lineRefresh ty ps s))

/-- The block that CREATE gives: what was sent, and the defaults behind it (log 25). -/
def createBlock (ty : Nat) (b : List Byte) : List Byte :=
  let ps := b ++ (paramDefaults ty).drop b.length
  ps ++ List.replicate (paramLen ty ps - ps.length) 0

/-- The judgement of a new object's block. -/
def createBad (s : State) (ty : Nat) (b : List Byte) : Option PErr :=
  if spanning ty ∧ s.osl.role = 2 then some { status := 0x0309 }
  else if paramLen ty (createBlock ty b) < b.length then some { status := stBadLength }
  else match blockBad s 70000 ty (createBlock ty b) with
    | some e => some e
    | none => req (!typeFull s ty) { status := stNoResource }

/-- Ask the members for new references, and finish when they have answered (R75). -/
def awaitRefs (d : Desc) (op h : Nat) (ps : List Byte) (ms : List (Nat × Nat)) (s : State) : State :=
  let w : RefWait := { desc := d, op := op, handle := h, block := ps, waiting := ms, due := s.gtc + 2 * frameTicks }
  ms.foldl (fun s m => sendRef false (if op = 0x0001 then hType h else ((objOf s h).map (·.typ)).getD 0) m s) { s with eng := { s.eng with refWaits := s.eng.refWaits ++ [w] } }

/-- CREATE (R62): a TABLE from its image, any other object from the block or its defaults. -/
def bodyCreate (d : Desc) (s : State) : State :=
  let ty := hType (dHandle d)
  let b := if dPtr d then blockOf s d else []
  if ty = tyTable then
    match imageBad s b with
      | some e => failWith d e.status e.result s
      | none => createNow d ty b s
  else match createBad s ty b with
    | some e => failWith d e.status e.result s
    | none =>
      let ps := createBlock ty b
      let far := remoteOnly s ty ps []
      if far.isEmpty then createNow d ty ps s else awaitRefs d 0x0001 (dHandle d) ps far s

def execCreate (d : Desc) (s : State) : Host.Outcome State Fault Refusal := .next (runDesc 0x0001 d (bodyCreate d) s)

/-- An ENABLE of the object is pending. -/
def enablePending (s : State) (h : Nat) : Bool := (deferredOf s 0x0005 h).isSome

/-- DESTROY (R62, R70): the object must be DISABLED and unreferenced; its index takes the next generation (R60). -/
def bodyDestroy (d : Desc) (o : Obj) (s : State) : State :=
  let h := handleOf o
  if o.ost != .disabled || enablePending s h then fail d stState s
  else if referenced s h then fail d stInUse s
  else if o.typ = tyLayer ∧ ((layerOf o).tiles.any (·.dirty) ∨ (layerOf o).wbs ≠ []) then fail d 0x0505 s
  else
    let s := (drivesOnly o.typ o.params []).foldl (fun s t => driverChanged true t s) s
    let s := if o.typ = tyPwmch then setInvert o.params true s else s
    let s := releaseRefs o.typ (remoteOnly s o.typ o.params []) s
    let g := if o.gen = 255 then 1 else o.gen + 1
    let s := { s with
      objs := s.objs.filter fun x => x.idx != o.idx
      gens := (o.idx, g) :: s.gens.filter fun x => x.1 != o.idx }
    ok d (lineRefresh o.typ o.params s)

def execDestroy (d : Desc) (s : State) : Host.Outcome State Fault Refusal := .next (runObj 0x0002 d (bodyDestroy d) s)

/-! ## SET_PARAMS and GET_PARAMS (R63) -/

/-- The range that a SET_PARAMS or STAGE_PARAMS writes: offset and bytes; inline, 1 to 24 bytes. -/
def writeRange (s : State) (d : Desc) : Except Nat (Nat × List Byte) :=
  if dPtr d then .ok (dOffset d, blockOf s d)
  else
    let n := u16 d.bytes 18
    if n = 0 ∨ 24 < n then .error stBadParam else .ok (u16 d.bytes 16, slice d.bytes 20 n)

/-- A block with bytes written into it, in the length that it then has; none where the range runs beyond the map. -/
def writeBlock (ty : Nat) (ps : List Byte) (off : Nat) (bs : List Byte) : Option (List Byte) :=
  let raw := putAt (padTo (max ps.length (off + bs.length)) ps) off bs
  let n := paramLen ty raw
  if n < off + bs.length then none else some (padTo n raw)

/-- The judgement of a new block for an object: BUSY, the block, then the cost of a running job (R63, R72, R82). -/
def paramsBad (s : State) (o : Obj) (ps : List Byte) : Option PErr :=
  if o.ost == .enabled && busyBad o ps then some { status := stBusy }
  else match blockBad s o.idx o.typ ps with
    | some e => some e
    | none => req (costFits s o (jobCost s o.typ ps)) { status := 0x0301 }

/-- The machines of an object whose block is written: one whose reference changes is bound anew (R103). -/
def smRebind (s : State) (old new : List Byte) (ms : List Sm) : List Sm :=
  ms.filterMap fun m =>
    if u32 new m.off = u32 old m.off then some m else (tableOf s (u32 new m.off)).map (smBind m.off)

/-- Write a judged block: the object's own and, while DISABLED, the one in force; gates and the island follow; the cost is
reserved for the next boundary. -/
def applyParams (o : Obj) (ps : List Byte) (s : State) : State :=
  let lost := drivesOnly o.typ o.params ps
  let new := drivesOnly o.typ ps o.params
  let s := releaseRefs o.typ (remoteOnly s o.typ o.params ps) s
  let s := costReserve o (jobCost s o.typ ps) (nextBoundary s.gtc) 0 s
  let s := if o.typ = tyPwmch then shadowPush o.idx s else s
  let s := updObj o.idx (fun x => { x with
    params := ps, act := if o.ost == .disabled then ps else x.act, sms := smRebind s o.params ps x.sms }) s
  let s := lost.foldl (fun s h => driverChanged true h s) s
  let s := new.foldl (fun s h => driverChanged false h s) s
  if o.typ = tyPwmch then
    lineRefresh o.typ ps (lineRefresh o.typ o.params (pwmRefresh o.idx (setInvert ps false s)))
  else s

/-- A GROUP_COMMIT that was accepted before and takes effect by the next boundary holds staged changes of the object (R92). -/
def commitPending (s : State) (o : Obj) : Bool :=
  !o.staged.isEmpty
    && ((groupsWith s (handleOf o)).any (fun g => s.hif.deferred.any fun x =>
          x.op == 0x0309 && x.handle == handleOf g && decide (x.due ≤ nextBoundary s.gtc))
      || s.eng.lockHeld.any fun m => m.kind == 0 && decide (m.boundary ≤ nextBoundary s.gtc)
          && m.members.any fun r => r.2 == handleOf o)

/-- A SET_PARAMS that starts after such a GROUP_COMMIT stands at their common boundary: its bytes follow the staged ones
(R51). -/
def keepLater (d : Desc) (o : Obj) (s : State) : State :=
  match writeRange s d with
  | .ok w => if commitPending s o then updObj o.idx (fun o => { o with staged := o.staged ++ [w] }) s else s
  | .error _ => s

/-- SET_PARAMS (R62, R63): judged, and where it names objects of other devices, checked with them. -/
def bodySetParams (d : Desc) (o : Obj) (s : State) : State :=
  match writeRange s d with
  | .error e => fail d e s
  | .ok w =>
    match writeBlock o.typ o.params w.1 w.2 with
    | none => fail d stBadLength s
    | some ps =>
      match paramsBad s o ps with
      | some e => failWith d e.status e.result s
      | none =>
        let far := remoteOnly s o.typ ps o.params
        if far.isEmpty then ok d (loadMark (startedOf s d) o.typ (keepLater d o (applyParams o ps s))) else awaitRefs d 0x0003 (handleOf o) ps far s

def execSetParams (d : Desc) (s : State) : Host.Outcome State Fault Refusal := .next (runObj 0x0003 d (bodySetParams d) s)

/-- GET_PARAMS: a range of the block, or of a table's image (R62, R95). -/
def bodyGetParams (d : Desc) (o : Obj) (s : State) : State :=
  if o.params.length < dOffset d + dBlockLen d then fail d stBadLength s
  else writeBack d (slice o.params (dOffset d) (dBlockLen d)) {} s

def execGetParams (d : Desc) (s : State) : Host.Outcome State Fault Refusal := .next (runObj 0x0004 d (bodyGetParams d) s)

/-! ## Answers of members (R75) -/

/-- End a wait for references: the judgement is made anew, for the state may have moved on (log 25). -/
def refsDone (w : RefWait) (s : State) : State :=
  let s := { s with eng := { s.eng with refWaits := s.eng.refWaits.erase w } }
  if w.op = 0x0001 then
    let ty := hType w.handle
    match createBad s ty w.block with
    | some e => failWith w.desc e.status e.result (releaseRefs ty (remoteOnly s ty w.block []) s)
    | none => createNow w.desc ty w.block s
  else match objOf s w.handle with
    | none => fail w.desc stBadHandle s
    | some o =>
      match paramsBad s o w.block with
      | some e => failWith w.desc e.status e.result (releaseRefs o.typ (remoteOnly s o.typ w.block o.params) s)
      | none => ok w.desc (loadMark (startedOf s w.desc) o.typ (keepLater w.desc o (applyParams o w.block s)))

/-- The references that a wait asked for. -/
def refsAsked (s : State) (w : RefWait) : List (Nat × Nat) :=
  if w.op = 0x0001 then remoteOnly s (hType w.handle) w.block []
  else match objOf s w.handle with
    | none => []
    | some o => remoteOnly s o.typ w.block o.params

/-- A wait fails: the references already accepted are released and REMOTE_REFUSED names the position (R75). -/
def refsFail (w : RefWait) (pos status : Nat) (s : State) : State :=
  let got := (refsAsked s w).filter fun m => !w.waiting.contains m
  let e := remoteRefused pos status
  failWith w.desc e.status e.result
    (releaseRefs (if w.op = 0x0001 then hType w.handle else ((objOf s w.handle).map (·.typ)).getD 0) got { s with eng := { s.eng with refWaits := s.eng.refWaits.erase w } })

/-- A member's reply to a reference check. -/
def refReplied (pos h status : Nat) (s : State) : State :=
  match s.eng.refWaits.find? (fun w => w.waiting.contains (pos, h)) with
  | none => s
  | some w =>
    if status ≠ 0 then refsFail w pos status s
    else
      let w' : RefWait := { w with waiting := w.waiting.erase (pos, h) }
      let s := { s with eng := { s.eng with refWaits := s.eng.refWaits.map fun x => if x = w then w' else x } }
      if w'.waiting.isEmpty then refsDone w' s else s

/-- CLUSTER_REF_TIMEOUT: no reply within two frames (R75). -/
def execClusterRefTimeout (h pos : Nat) (s : State) : Host.Outcome State Fault Refusal :=
  .next (match s.eng.refWaits.find? (fun w => w.waiting.any fun m => m.1 == pos && m.2 == h) with
    | none => s
    | some w => refsFail w pos 0xFFFF (toInstant w.due s))

/-! ## GET_STATUS (R62, R74) -/

/-- The object is in a lock group, of this device or, on a member, of the lead (R74, R92). -/
def inGroup (s : State) (h : Nat) : Bool :=
  !(groupsWith s h).isEmpty || (s.osl.role == 2 && s.osl.leadRefs.contains (h, tyGroup))

/-- The status head (R74). -/
def statusHead (s : State) (o : Obj) : List Byte :=
  let pinned := jobTypes.contains o.typ && decide (1 ≤ jobPlacement o.act)
  let jf := b2n pinned + 2 * b2n (moveOf s (handleOf o)).isSome + 4 * b2n (inGroup s (handleOf o)) + 8 * b2n (!o.staged.isEmpty)
  leBytes 1 (ostByte o.ost) ++ leBytes 1 o.engine ++ leBytes 2 o.slots ++ leBytes 2 o.epoch ++ leBytes 1 jf ++ [0]
    ++ satBytes 4 o.ffTotal ++ satBytes 2 o.ffConsec ++ leBytes 2 o.lastFault ++ satBytes 4 o.discarded ++ leBytes 4 o.cost
    ++ leBytes 8 o.changed

/-- The type-specific part of a GROUP's status: bit k of 8 bytes, the k-th member is on a lost device (R76). The manual gives
no layout: DESIGN CHOICE (log 25). -/
def groupStatus (s : State) (o : Obj) : List Byte :=
  leBytes 8 (((crefsOf o.typ o.act).zipIdx.map fun x => if s.osl.absent.contains x.1.1 then 2 ^ x.2 else 0).foldl (· + ·) 0)

/-- The type-specific part. -/
def statusType (s : State) (o : Obj) : List Byte :=
  if o.typ = tyNozzle ∨ o.typ = tyRow then chanStatus s o
  else if o.typ = tySection then sectStatus s o
  else if o.typ = tyLoop then loopStatus s o
  else if o.typ = tyAxis then axisStatus s o
  else if o.typ = tyFeedback then fbStatus s o
  else if o.typ = tySolenoid then solStatus s o
  else if o.typ = tySwitch then swStatus s o
  else if o.typ = tyPwmch then pwmStatus s o
  else if o.typ = tyCanport then canStatus o
  else if o.typ = tyGeopoint then geoStatus s o
  else if o.typ = tyLayer then layerStatus s o
  else if o.typ = tyGroup then groupStatus s o
  else []

/-- GET_STATUS: at most the length given is written; the head's first 7 bytes are the result. -/
def bodyGetStatus (d : Desc) (o : Obj) (s : State) : State :=
  let b := statusHead s o ++ statusType s o
  writeBack d (b.take (dBlockLen d)) { result := b.take 7 } s

def execGetStatus (d : Desc) (s : State) : Host.Outcome State Fault Refusal := .next (runObj 0x0007 d (bodyGetStatus d) s)

end Sys2Proof.Machine
end

