-- ==== Sys2Proof/Machine/Lifecycle.lean ====
section
/-! DEFINITION. ENABLE and DISABLE (02, R62, R64; 03, R70, R71, R81, R91 to R94), lock groups and staged changes, ABORT. -/

namespace Sys2Proof.Machine

/-! ## What ENABLE requires (R70, R71) -/

/-- The conditions of a type on ENABLE; those that the manual judges at the take-effect boundary `b` only where `late`. -/
def typeEnableBad (s : State) (b : Nat) (late : Bool) (o : Obj) : Option Nat :=
  let ps := o.params
  let notYet (e : Option Nat) : Option Nat := if e = some stBoardAbsent ∧ ¬ late then none else e
  if o.typ = tyPwmch then
    if !(pgGroup s (pwGroup ps)).conf then some 0x0803
    else if ((objOf s (u32 ps 4)).map fun t => u8 t.params 3 == 2).getD false then some stState else none
  else if o.typ = tySolenoid then (if u32 ps 12 ≠ 0 ∧ ¬ s.boost.en then some 0x0A03 else none)
  else if o.typ = tyNozzle ∨ o.typ = tyRow then notYet (chanEnableBad s o)
  else if o.typ = tySection then notYet (sectEnableBad s o)
  else if o.typ = tyLoop then loopEnableBad s o
  else if o.typ = tyAxis then axEnableBad s o
  else if o.typ = tyFeedback then fbEnableBad o
  else if o.typ = tyCanport then canEnableBad o
  else if o.typ = tyLayer then
    if linkSpi s ∧ u64 ps 24 ≠ 0 ∧ ¬ ptrMailbox (u64 ps 24) then some stBadParam
    else if u8 ps 0 ≠ 1 ∧ u32 ps 56 = 0 then some stBadParam
    else if late && !(s.kin.originSet && s.kin.originId == u32 ps 16) then some 0x0501 else none
  else none

/-- The handles that must be ENABLED for this object: its references on this device but those to a TABLE, and the members
of a SECTION (R71). -/
def needs (s : State) (o : Obj) : List Nat :=
  ((refsOf o.typ o.params).filterMap fun r => if hType r.1 = tyTable then none else some r.1)
    ++ if o.typ = tyGroup then [] else (crefsOf o.typ o.params).filterMap fun r => if r.1 = s.osl.position then some r.2 else none

/-- A pending ENABLE or DISABLE of an object that takes effect at or before boundary `b`. -/
def pendingBy (s : State) (op b h : Nat) : Option Deferred :=
  s.hif.deferred.find? fun x => x.op == op && x.handle == h && decide (x.due ≤ b)

/-- The pinned engine of a block is out of service (R81). -/
def pinnedOut (s : State) (o : Obj) : Bool :=
  jobTypes.contains o.typ && ((headPinE o.params).map (engineOut s)).getD false

/-- The judgement of an ENABLE at boundary `b`; an object counts as ENABLED where a pending ENABLE that itself holds brings
it there (R71). A member may ENABLE channels once its skew calibration is complete (R27 step 7; the status is log 29's).
`seen` are the objects being judged with it. -/
def enableJudge (s : State) (b : Nat) (late : Bool) : Nat → List Nat → Obj → Option Nat
  | 0, _, _ => none
  | fuel + 1, seen, o =>
    match typeEnableBad s b late o with
    | some e => some e
    | none =>
      if pinnedOut s o then some 0x030A
      else if isChan o && s.osl.role == 2 && !s.osl.calDone then some stState
      else if late && !(needs s o).all (fun h => seen.contains h || enabledH s h ||
          ((pendingBy s 0x0005 b h).isSome
            && ((objOf s h).map fun t => (enableJudge s b late fuel (h :: seen) t).isNone).getD false)) then some stState
      else none

/-- How deep references are followed. -/
def refDepth : Nat := 8

/-- Place a job (R70, R81): a status, and the state with its load. -/
def placeJob (o : Obj) (s : State) : Nat × State :=
  if !jobTypes.contains o.typ then (0, s)
  else if pinnedOut s o then (0x030A, s)
  else
    let cost := jobCost s o.typ o.params
    match placeFind s o.typ (jobRate o.params) cost (headPinE o.params) (headPinS o.params) none with
    | none => (0x0301, s)
    | some p =>
      (0, updObj o.idx (fun o => { o with engine := p.1, slots := p.2, cost := cost }) (addLoad p.1 p.2 cost false s))

/-- The placement made at acceptance still stands at the boundary. -/
def placeStands (s : State) (o : Obj) : Bool :=
  !jobTypes.contains o.typ
    || (o.slots != 0 && !engineOut s o.engine && o.cost == jobCost s o.typ o.params
      && o.slots == slotSet (jobRate o.params) (firstOf o.slots) && (firstSlots o.typ (jobRate o.params)).contains (firstOf o.slots)
      && ((headPinE o.params).map (· == o.engine)).getD true && ((headPinS o.params).map (· == firstOf o.slots)).getD true)

/-! ## What ENABLE and DISABLE do to each type -/

/-- Disposition bits of an edge channel on a PWM pin in the island: the invert bit stays (R274, R475). -/
def setDispPwm (ps : List Byte) (on : Bool) (s : State) : State :=
  let put (c k : Nat) (s : State) : State :=
    let v := if on then bits (u8 ps 36) k 2 + 4 * pwDisp ps else 0
    { s with isl := { s.isl with dispPwm := s.isl.dispPwm.set c (v + 8 * b2n (bit (s.isl.dispPwm.getD c 0) 3)) } }
  if 64 ≤ pwChan ps then s
  else
    let s := put (pwChan ps) 0 s
    if pwPair ps then put (pwChan ps + 1) 2 s else s

/-- A PWMCH becomes ENABLED (R262, R267, R274): the island takes its disposition, latched trips hold it, its gate opens
where no object drives it. -/
def pwmEnable (i : Nat) (s : State) : State :=
  match objAt s i with
  | none => s
  | some o =>
    let ps := o.act
    let held := (List.range 8).filter fun n => bit (u8 ps 34) n && (trip s n).latched
    let s := updPwm i (fun r => { r with
      gate := false, shut := false, force := none, cmp := false, setEdge := none, clrEdge := none, lOff := false, cyc := false
      latched := (held.map fun n => 2 ^ n).foldl (· + ·) 0, await := false, tripped := false, dispHeld := false, carry := 0, periods := 0
      phase := r.phaseSh, past := [] }) (setDispPwm ps true s)
    let s := pwmRefresh i s
    let s := if (driverOf s (handleOf o)).isNone then pwmGateOpen i none s else s
    match held.find? fun n => tripClass1 (trip s n) with
    | some n => tripFault n i s
    | none => s

/-- A PWMCH becomes DISABLED: inactive levels, disposition OFF (R262, R274). -/
def pwmDisable (i : Nat) (s : State) : State :=
  match objAt s i with
  | none => s
  | some o =>
    pwmRefresh i (updPwm i (fun r => { r with tripped := false, dispHeld := false, latched := 0, await := false, cyc := false })
      (pwmGateClose i (setDispPwm o.act false s)))

/-- A SWITCH becomes ENABLED (R288, R290, R296, R297): the island takes its disposition; with swflags bit 2 a line in HOLD
is adopted without a gap, its gate opening by an on command (R284); with src 1 the input's level is taken. -/
def swEnable (i : Nat) (s : State) : State :=
  match objAt s i with
  | none => s
  | some o =>
    let k := swLine o.act
    let adopt := bit (u8 o.act 6) 2
    let was := s.isl.hold.contains k
    let s := { s with isl := { s.isl with
      hold := s.isl.hold.filter (· != k), dispSw := s.isl.dispSw.set k (u8 o.act 3)
      holdAdopted := s.isl.holdAdopted + b2n (adopt && was) } }
    let s := updSw i (fun r => { r with
      gate := adopt && was, cmd := adopt && was, out := adopt && was, adopted := adopt && was, inAct := false, inSince := s.gtc
      retries := u8 o.act 4, retryAt := none, retryWait := false, dtOff := false, limAt := none, dead := r.latch != 0, fuse := 0
      olRun := 0, openLoad := false }) s
    let s := if adopt && was then updSw i (fun r => { r with onCmds := satInc 32 r.onCmds, lastOn := s.gtc, iPeak := 0 }) s else s
    let s := if swSrc o.act = 1 then swInEdge (gpioLevel s (u8 o.act 2) != bit (u8 o.act 6) 0) i s else s
    let s := if adopt then raise0 0x0947 (handleOf o) [BitVec.ofNat 8 (b2n was)] s else s
    swRefresh i s

/-- A SWITCH becomes DISABLED: off, disposition OFF (R296). -/
def swDisable (i : Nat) (s : State) : State :=
  match objAt s i with
  | none => s
  | some o =>
    let s := { s with isl := { s.isl with dispSw := s.isl.dispSw.set (swLine o.act) 0 } }
    swOffCmd i (updSw i (fun r => { r with gate := false, inAct := false, adopted := false }) s)

/-- A SOLENOID becomes ENABLED with its gate closed (R310). -/
def solEnable (i : Nat) (s : State) : State := updSol i (fun r => { r with gate := false, dead := r.latch != 0, loopTarget := none }) s

/-- What an object does as it becomes ENABLED at boundary `b`. -/
def typeEnable (b : Nat) (o : Obj) (s : State) : State :=
  let i := o.idx
  if o.typ = tyPwmch then pwmEnable i s
  else if o.typ = tySwitch then swEnable i s
  else if o.typ = tySolenoid then solEnable i s
  else if o.typ = tyNozzle ∨ o.typ = tyRow then chanEnable i s
  else if o.typ = tySection then sectEnable i s
  else if o.typ = tyLoop then loopEnable i s
  else if o.typ = tyAxis then axEnable i s
  else if o.typ = tyFeedback then fbEnable i s
  else if o.typ = tyCanport then canEnable i s
  else if o.typ = tyGeopoint then
    (match objAt s i with
    | some o => geoStart b o s
    | none => s)
  else s

/-- Complete the pending descriptors of an opcode on a handle with a status. -/
def dropDeferred (op h status : Nat) (s : State) : State :=
  (s.hif.deferred.filter fun x => x.op == op && x.handle == h).foldl (fun s x => completeDeferred x { status := status } s) s

/-- What an object does as it becomes DISABLED; pending seals and modes of a loop end with `STATE` (log 25). -/
def typeDisable (o : Obj) (s : State) : State :=
  let i := o.idx
  if o.typ = tyPwmch then pwmDisable i s
  else if o.typ = tySwitch then swDisable i s
  else if o.typ = tySolenoid then solOff i s
  else if o.typ = tyNozzle ∨ o.typ = tyRow then chanDisable i s
  else if o.typ = tySection then sectDisable i s
  else if o.typ = tyLoop then dropDeferred 0x0703 (handleOf o) stState (dropDeferred 0x0701 (handleOf o) stState (loopDisable i s))
  else if o.typ = tyAxis then axDisable i s
  else if o.typ = tyFeedback then fbDisable i s
  else if o.typ = tyCanport then canDisable i s
  else s

/-- The object at an index becomes ENABLED: its block comes into force, its job starts a new placement epoch (R70, R89). -/
def enableObj (b i : Nat) (s : State) : State :=
  match objAt s i with
  | none => s
  | some o =>
    let s := updObj i (fun o => { o with
      act := o.params, epoch := if jobTypes.contains o.typ then epochNext o.epoch else o.epoch, ffConsec := 0 }) s
    typeEnable b o (setOst i .enabled s)

/-- The object becomes DISABLED: its job stops, its placement is released, its lines take their disabled levels (R70). A
block written meanwhile comes into force. -/
def disableObj (i : Nat) (s : State) : State :=
  match objAt s i with
  | none => s
  | some o =>
    let s := placeRelease o s
    let s := updObj i (fun o => { o with act := o.params }) (typeDisable o (setOst i .disabled s))
    if o.typ = tyPwmch then pwmRefresh i s else s

/-! ## ENABLE (R62, R64, R70, R71) -/

/-- The layers that a channel or a section relies on, whose pending ENABLE is to run first. -/
def layersFor (s : State) (o : Obj) : List Nat :=
  if [tyNozzle, tyRow, tySection].contains o.typ then
    ((objsOf s tyLayer).filter fun x => u8 x.params 0 == 1).map handleOf else []

/-- An accepted ENABLE takes effect (R70, R71): pending ones that it needs take effect before it. -/
def enableRun : Nat → Deferred → State → State
  | 0, _, s => s
  | fuel + 1, x, s =>
    let first := match objOf s x.handle with
      | none => []
      | some o => (needs s o ++ layersFor s o).filterMap (pendingBy s 0x0005 x.due)
    let s := (first.filter (· != x)).foldl (fun s y => enableRun fuel y s) s
    if !s.hif.deferred.contains x then s
    else match objOf s x.handle with
      | none => completeDeferred x { status := stBadHandle } s
      | some o =>
        if o.ost != .disabled then completeDeferred x { status := stState } s
        else match enableJudge s x.due true refDepth [x.handle] o with
          | some e => completeDeferred x { status := e } (placeRelease o s)
          | none =>
            let p := if placeStands s o then (0, s) else placeJob o (placeRelease o s)
            if p.1 ≠ 0 then completeDeferred x { status := p.1 } p.2
            else
              let s := enableObj x.due o.idx p.2
              completeDeferred x { result := x.result } (loadMark x.st o.typ s)

/-! ## Lock groups (R91 to R94) -/

/-- A group's members on this device, and those on other devices; it goes on without those of a lost one (R76). -/
def groupHere (s : State) (g : Obj) : List Obj := (groupMembers s g).filterMap (objOf s)
def groupFar (s : State) (g : Obj) : List (Nat × Nat) :=
  (crefsOf g.typ g.params).filter fun r => r.1 != s.osl.position && !s.osl.absent.contains r.1
def groupId (g : Obj) : Nat := u8 g.params 0

/-- When the next lock message of a group may be sent: at most one a millisecond (R93). -/
def lockSlot (s : State) (id : Nat) : Nat :=
  match (s.eng.lockQueue.filter fun m => m.group == id).getLast? with
  | some m => m.sendAt + msTicks
  | none => match s.eng.lockSent.find? fun p => p.1 == id with
    | some p => max s.gtc (p.2 + msTicks)
    | none => s.gtc

/-- Four lock messages of the group wait already (R93). -/
def lockFull (s : State) (g : Obj) : Bool :=
  !(groupFar s g).isEmpty && decide (4 ≤ (s.eng.lockQueue.filter fun m => m.group == groupId g).length)

/-- The take-effect boundary of a group's operation and the ticks it was moved (R64, R93): with members elsewhere it lies at
least two frames after acceptance. -/
def groupBoundary (s : State) (g : Obj) (req : Nat) : Nat × Nat :=
  if (groupFar s g).isEmpty then (takeEffect s.gtc req, takeEffectLate s.gtc req)
  else
    let b := boundaryAt (s.gtc + 2 * frameTicks)
    if b ≤ boundaryAt req then (boundaryAt req, 0) else (b, if req = 0 then 0 else b - req)

/-- The handles of a lock message for one device, as many to a packet as its four 16 B records hold: the first record holds
the message and one handle, the others four each (R26, log 25). -/
def lockChunks : Nat → List Nat → List (List Nat)
  | 0, _ => []
  | _ + 1, [] => []
  | n + 1, hs => hs.take 13 :: lockChunks n (hs.drop 13)

/-- The positions that a lock message goes to, one for each of its packets. -/
def lockTargets (m : LockMsg) : List (Nat × List Nat) :=
  (m.members.map (·.1)).eraseDups.flatMap fun p =>
    let hs := (m.members.filter fun r => r.1 == p).map (·.2)
    (lockChunks hs.length hs).map fun c => (p, c)

/-- A packet of a lock message. -/
def lockPacket (s : State) (m : LockMsg) (x : Nat × List Nat) : Packet :=
  { kind := .lock, dst := x.1, src := s.osl.position
    body := padTo (16 * ((x.2.length + 6) / 4)) (leBytes 1 m.group ++ leBytes 1 m.kind ++ leBytes 8 m.boundary ++ leBytes 1 x.2.length ++ [0]
      ++ x.2.flatMap (leBytes 4)) }

/-- Send one lock message to every device that it concerns. -/
def lockSend (m : LockMsg) (s : State) : State :=
  { s with
    osl := { s.osl with outbox := s.osl.outbox ++ (lockTargets m).map (lockPacket s m) }
    eng := { s.eng with
      lockQueue := s.eng.lockQueue.erase m
      lockSent := (m.group, m.sendAt) :: s.eng.lockSent.filter fun p => p.1 != m.group } }

/-- Send the lock messages whose time has come. -/
def lockPump (s : State) : State :=
  (s.eng.lockQueue.filter fun m => decide (m.sendAt ≤ s.gtc)).foldl (fun s m => lockSend m s) s

/-- Queue a group's lock message, if it has members elsewhere; each of its packets is to be acknowledged before its boundary
(R93, R94). -/
def lockPost (g : Obj) (kind b : Nat) (s : State) : State :=
  if (groupFar s g).isEmpty then s
  else
    let m : LockMsg := { group := groupId g, kind := kind, boundary := b, sendAt := lockSlot s (groupId g), members := groupFar s g }
    lockPump { s with eng := { s.eng with
      lockQueue := s.eng.lockQueue ++ [m], unacked := s.eng.unacked ++ (lockTargets m).map fun p => (m.group, m.boundary, p.1) } }

/-- Members in the order in which they are enabled: those that others refer to first. -/
def byDependence (os : List Obj) : List Obj :=
  [tyAxis, tyLoop, tyNozzle, tyRow, tySection].flatMap fun t => os.filter fun o => o.typ == t

/-- The members of an ENABLED group that its ENABLE acts on. -/
def groupOff (s : State) (g : Obj) : List Obj :=
  byDependence ((groupHere s g).filter fun o => o.ost == .disabled && !enablePending s (handleOf o))

/-- Place several jobs; the first that fails gives the status, and nothing stays placed. -/
def placeAll : List Obj → State → Nat × State
  | [], s => (0, s)
  | o :: os, s =>
    let p := placeJob o s
    if p.1 ≠ 0 then p
    else
      let q := placeAll os p.2
      if q.1 = 0 then q else (q.1, match objAt q.2 o.idx with
        | some o => placeRelease o q.2
        | none => q.2)

/-- ENABLE on an ENABLED group: its DISABLED members are judged and placed together (R92). -/
def groupEnable (d : Desc) (g : Obj) (s : State) : State :=
  let os := groupOff s g
  if lockFull s g then fail d stBusy s
  else match os.findSome? (enableJudge s 0 false refDepth (os.map handleOf)) with
    | some e => fail d e s
    | none =>
      let p := placeAll os s
      if p.1 ≠ 0 then fail d p.1 p.2
      else
        let b := groupBoundary s g (u64 d.bytes 16)
        lockPost g 1 b.1 (defer d 0x0005 (handleOf g) b.1 (leBytes 7 b.2) 1 p.2)

/-- Enable members at a boundary, all or none. -/
def membersEnable (b : Nat) (os : List Obj) (s : State) : Option Nat × State :=
  let first := (os.flatMap fun o => needs s o ++ layersFor s o).filterMap (pendingBy s 0x0005 b)
  let s := first.foldl (fun s y => if s.hif.deferred.contains y then enableRun refDepth y s else s) s
  match os.findSome? (enableJudge s b true refDepth (os.map handleOf)) with
  | some e => (some e, os.foldl (fun s o => placeRelease o s) s)
  | none =>
    let bad := os.filter fun o => !placeStands s o
    let p := placeAll bad (bad.foldl (fun s o => placeRelease o s) s)
    if p.1 ≠ 0 then (some p.1, os.foldl (fun s o => placeRelease o s) p.2)
    else (none, os.foldl (fun s o => enableObj b o.idx s) p.2)

/-- A group's ENABLE takes effect. -/
def groupEnableRun (x : Deferred) (s : State) : State :=
  match objOf s x.handle with
  | none => completeDeferred x { status := stBadHandle } s
  | some g =>
    let r := membersEnable x.due (groupOff s g) s
    match r.1 with
    | some e => completeDeferred x { status := e } r.2
    | none => completeDeferred x { result := x.result } r.2

/-- ENABLE (R62, R70): a group that is ENABLED acts on its members (R92). -/
def bodyEnable (d : Desc) (o : Obj) (s : State) : State :=
  let h := handleOf o
  let req := u64 d.bytes 16
  if o.typ = tyGroup ∧ isEnabled o then groupEnable d o s
  else if o.ost != .disabled || enablePending s h then fail d stState s
  else
    let b := if o.typ = tyGroup then groupBoundary s o req else (takeEffect s.gtc req, takeEffectLate s.gtc req)
    match enableJudge s b.1 false refDepth [h] o with
    | some e => fail d e s
    | none =>
      let p := placeJob o s
      if p.1 ≠ 0 then fail d p.1 p.2
      else defer d 0x0005 h b.1 (leBytes 7 b.2) 0 p.2

def execEnable (d : Desc) (s : State) : Host.Outcome State Fault Refusal := .next (runObj 0x0005 d (bodyEnable d) s)

/-- ENABLE_TAKE_EFFECT: the boundary of an accepted ENABLE. -/
def execEnableTakeEffect (h : Nat) (s : State) : Host.Outcome State Fault Refusal :=
  .next (match deferredOf s 0x0005 h with
    | none => s
    | some x =>
      let s := toInstant x.due s
      if x.arg = 1 then groupEnableRun x s else enableRun refDepth x s)

/-! ## DISABLE (R62, R70, R71) -/

/-- An ENABLED object other than a GROUP, or a channel of the board, relies on the object; those whose own DISABLE takes
effect by `b`, and those in `with`, do not count (R71, R180). -/
def reliedOn (s : State) (b : Nat) (also : List Nat) (o : Obj) : Bool :=
  let gone (x : Obj) : Bool := also.contains (handleOf x) || (pendingBy s 0x0006 b (handleOf x)).isSome
  let t := { s with objs := s.objs.filter fun x => !gone x }
  t.objs.any (fun x => isEnabled x && x.typ != tyGroup && x.idx != o.idx && (needs t x).contains (handleOf o))
    || (o.typ == tyLayer && u8 o.act 0 == 1 && boardReliedOn t)

/-- An accepted DISABLE takes effect: pending ones of the objects that refer to this one take effect before it. -/
def disableRun : Nat → Deferred → State → State
  | 0, _, s => s
  | fuel + 1, x, s =>
    let users := (s.objs.filter fun o => (needs s o).contains x.handle).filterMap fun o => pendingBy s 0x0006 x.due (handleOf o)
    let s := (users.filter (· != x)).foldl (fun s y => disableRun fuel y s) s
    if !s.hif.deferred.contains x then s
    else match objOf s x.handle with
      | none => completeDeferred x { status := stBadHandle } s
      | some o =>
        if o.ost == .disabled || reliedOn s x.due [] o then completeDeferred x { status := stState } s
        else completeDeferred x { result := x.result } (disableObj o.idx s)

/-- The members of a group and the group itself, in the order in which they are disabled. -/
def groupOn (s : State) (g : Obj) : List Obj := (byDependence ((groupHere s g).filter fun o => o.ost != .disabled)).reverse ++ [g]

/-- A group's DISABLE takes effect: every member and the group (R92, log 25). -/
def groupDisableRun (x : Deferred) (s : State) : State :=
  match objOf s x.handle with
  | none => completeDeferred x { status := stBadHandle } s
  | some g =>
    let os := groupOn s g
    if os.any (reliedOn s x.due (os.map handleOf)) then completeDeferred x { status := stState } s
    else completeDeferred x { result := x.result } (os.foldl (fun s o => disableObj o.idx s) s)

/-- DISABLE (R62, R70). -/
def bodyDisable (d : Desc) (o : Obj) (s : State) : State :=
  let req := u64 d.bytes 16
  if o.typ = tyGroup ∧ isEnabled o then
    if lockFull s o then fail d stBusy s
    else
      let b := groupBoundary s o req
      lockPost o 2 b.1 (defer d 0x0006 (handleOf o) b.1 (leBytes 7 b.2) 1 s)
  else if o.ost == .disabled then fail d stState s
  else defer d 0x0006 (handleOf o) (takeEffect s.gtc req) (leBytes 7 (takeEffectLate s.gtc req)) 0 s

def execDisable (d : Desc) (s : State) : Host.Outcome State Fault Refusal := .next (runObj 0x0006 d (bodyDisable d) s)

/-- DISABLE_TAKE_EFFECT: the boundary of an accepted DISABLE. -/
def execDisableTakeEffect (h : Nat) (s : State) : Host.Outcome State Fault Refusal :=
  .next (match deferredOf s 0x0006 h with
    | none => s
    | some x =>
      let s := toInstant x.due s
      if x.arg = 1 then groupDisableRun x s else disableRun refDepth x s)

/-! ## Staged changes (R92) -/

/-- The block that an object's staged changes give, or the error of the write that fails. -/
def stagedBlock (o : Obj) (ws : List (Nat × List Byte)) : Option (List Byte) :=
  ws.foldl (fun b w => b.bind fun ps => writeBlock o.typ ps w.1 w.2) (some o.params)

/-- STAGE_PARAMS: judged as SET_PARAMS would be with what is staged already, and held on the object; its cost is reserved from
now on (R82). -/
def bodyStageParams (d : Desc) (o : Obj) (s : State) : State :=
  if !inGroup s (handleOf o) then fail d stState s
  else match writeRange s d with
    | .error e => fail d e s
    | .ok w =>
      match stagedBlock o (o.staged ++ [w]) with
      | none => fail d stBadLength s
      | some ps =>
        match paramsBad s o ps with
        | some e => failWith d e.status e.result s
        | none => ok d (updObj o.idx (fun o => { o with staged := o.staged ++ [w] })
            (costReserve o (jobCost s o.typ ps) (nextBoundary s.gtc) (stageTag (handleOf o)) s))

def execStageParams (d : Desc) (s : State) : Host.Outcome State Fault Refusal := .next (runObj 0x0308 d (bodyStageParams d) s)

/-- The staged block of a member and its judgement. -/
def commitBad (s : State) (o : Obj) : Option PErr :=
  match stagedBlock o o.staged with
  | none => some { status := stBadLength }
  | some ps => paramsBad s o ps

/-- Apply a member's staged changes as one SET_PARAMS (R92). -/
def commitApply (o : Obj) (s : State) : State :=
  let s := (s.eng.costs.filter fun c => c.tag == stageTag (handleOf o)).foldl (fun s c => costApply c s) s
  match objAt s o.idx, stagedBlock o o.staged with
  | some o, some ps =>
    let s := applyParams o ps s
    updObj o.idx (fun o => { o with staged := [], act := if o.typ = tyPwmch ∨ o.typ = tySolenoid then o.act else ps }) s
  | _, _ => s

/-- GROUP_COMMIT: the new cost of every member is judged and reserved at acceptance (R82, R92). -/
def bodyGroupCommit (d : Desc) (g : Obj) (s : State) : State :=
  let os := (groupHere s g).filter fun o => !o.staged.isEmpty
  if lockFull s g then fail d stBusy s
  else match os.findSome? (commitBad s) with
    | some e => failWith d e.status e.result s
    | none =>
      let b := groupBoundary s g (u64 d.bytes 16)
      let cs := os.filterMap fun o => (stagedBlock o o.staged).map fun ps => (o, jobCost s o.typ ps)
      match costReserveAll b.1 (costTag d) cs s with
      | none => fail d 0x0301 s
      | some s => lockPost g 0 b.1 (defer d 0x0309 (handleOf g) b.1 (leBytes 7 b.2) 0 s)

def execGroupCommit (d : Desc) (s : State) : Host.Outcome State Fault Refusal := .next (runObj 0x0309 d (bodyGroupCommit d) s)

/-- GROUP_COMMIT_TAKE_EFFECT: the staged changes of every member apply together (R92). -/
def execGroupCommitTakeEffect (h : Nat) (s : State) : Host.Outcome State Fault Refusal :=
  .next (match deferredOf s 0x0309 h with
    | none => s
    | some x =>
      let s := toInstant x.due s
      let s := (s.eng.costs.filter fun c => c.tag == costTag x.st.desc).foldl (fun s c => costApply c s) s
      match objOf s h with
      | none => completeDeferred x { status := stBadHandle } s
      | some g =>
        completeDeferred x { result := x.result }
          (((groupHere s g).filter fun o => !o.staged.isEmpty).foldl (fun s o => commitApply o s) s))

/-- A packet of a lock message joins what is held of the message. -/
def lockJoin (m : LockMsg) : List LockMsg → List LockMsg
  | [] => [m]
  | x :: xs => if x.group = m.group ∧ x.kind = m.kind ∧ x.boundary = m.boundary then { x with members := x.members ++ m.members } :: xs
    else x :: lockJoin m xs

/-- GROUP_LOCK_MESSAGE: a member device takes a packet of a lock message and acknowledges it (R93, R94). -/
def lockReceive (m : LockMsg) (s : State) : State :=
  let ack : Packet := { kind := .lockAck, dst := 0, src := s.osl.position, body := leBytes 1 m.group ++ leBytes 8 m.boundary }
  { s with osl := { s.osl with outbox := s.osl.outbox ++ [ack] }, eng := { s.eng with lockHeld := lockJoin m s.eng.lockHeld } }

def execGroupLockMessage (group kind boundary : Nat) (members : List Nat) (s : State) : Host.Outcome State Fault Refusal :=
  .next (if s.osl.role ≠ 2 then s
  else lockReceive { group := group, kind := kind, boundary := boundary, members := members.map fun h => (s.osl.position, h) } s)

/-- The members of a held lock message that an ENABLE acts on are placed and enabled at its boundary. -/
def lockEnable (b : Nat) (os : List Obj) (s : State) : State :=
  let os := byDependence (os.filter fun o => o.ost == .disabled)
  let p := placeAll os s
  if p.1 ≠ 0 then p.2 else (membersEnable b os p.2).2

/-- A held lock message applies at its boundary (R92, R94). -/
def lockApply (m : LockMsg) (s : State) : State :=
  let s := { s with eng := { s.eng with lockHeld := s.eng.lockHeld.erase m } }
  let os := m.members.filterMap fun r => objOf s r.2
  if m.kind = 0 then (os.filter fun o => !o.staged.isEmpty && (commitBad s o).isNone).foldl (fun s o => commitApply o s) s
  else if m.kind = 1 then lockEnable m.boundary os s
  else (byDependence (os.filter fun o => o.ost != .disabled)).reverse.foldl (fun s o => disableObj o.idx s) s

/-- The lock messages whose boundary has come. -/
def lockBoundary (b : Nat) (s : State) : State :=
  (s.eng.lockHeld.filter fun m => decide (m.boundary ≤ b)).foldl (fun s m => lockApply m s) s

/-- GROUP_BROKEN to every member of a group on the devices that remain (R94). -/
def groupBroken (g : Obj) (pos : Nat) (s : State) : State :=
  let data := leBytes 1 (groupId g) ++ leBytes 1 pos
  let s := (groupFar s g).foldl (fun s m => if m.1 = pos ∨ s.osl.absent.contains m.1 then s else sendFault m.1 2 m.2 data s) s
  (groupMembers s g).foldl (fun s h => class1 h 0x034B data s) s

/-- GROUP_LOCK_UNACKED: the boundary of a lock message comes and a device has not acknowledged it (R94). -/
def execGroupLockUnacked (h pos : Nat) (s : State) : Host.Outcome State Fault Refusal :=
  .next (match objOf s h with
    | none => s
    | some g =>
      match s.eng.unacked.find? fun u => g.typ == tyGroup && u.1 == groupId g && u.2.2 == pos with
      | none => s
      | some u => groupBroken g pos (toInstant u.2.1 { s with eng := { s.eng with unacked := s.eng.unacked.erase u } }))

/-! ## ABORT (R62) -/

/-- Take a host command's edges out of every queue of this device. -/
def dropEdges (cmd : Nat) (s : State) : State :=
  (s.objs.filter fun o => o.typ == tyNozzle || o.typ == tyRow).foldl
    (fun s o => updChan o.idx (fun r => { r with queue := r.queue.filter fun e => e.cmd != some cmd }) s) s

/-- What the end of a cancelled descriptor takes with it; where an opcode is not named, nothing but the descriptor
(log 25). -/
def cancelEffect (x : Deferred) (s : State) : State :=
  let onObj (f : Obj → State → State) (s : State) : State :=
    match objOf s x.handle with
    | some o => f o s
    | none => s
  if x.op = 0x0005 then onObj (fun o s =>
    if x.arg = 1 then ((groupHere s o).filter fun m => m.ost == .disabled && !enablePending s (handleOf m)).foldl (fun s m => placeRelease m s) s
    else if o.ost == .disabled then placeRelease o s else s) s
  else if x.op = 0x0303 ∨ x.op = 0x0309 then costDrop (costTag x.st.desc) s
  else if x.op = 0x0304 ∨ x.op = 0x0306 then { s with eng := { s.eng with saves := s.eng.saves.filter fun y => y.desc != x.st.desc } }
  else if x.op = 0x0500 then onObj (fun o s => updLayer o.idx (fun r => { r with flushes := r.flushes.filter fun f => f.id != x.arg }) s) s
  else if x.op = 0x0501 then onObj (fun o s => updLayer o.idx (fun r => { r with paints := r.paints.filter fun f => f.id != x.arg }) s) s
  else if x.op = 0x0600 then dropEdges x.arg s
  else if x.op = 0x0601 then dropEdges x.arg { s with sched := { s.sched with cmds := s.sched.cmds.filter fun c => c.cmd != x.arg } }
  else if x.op = 0x0B02 then onObj (fun o s => updAx o.idx (fun r => { r with compares := r.compares.filter fun c => c.desc != x.st.desc }) s) s
  else if x.op = 0x0B03 then onObj (fun o s => axStop o.idx false (updAx o.idx (fun r => { r with homing := false, homed := false }) s)) s
  else if x.op = 0x0D00 ∨ x.op = 0x0D04 then onObj (fun o s => updTx o.idx x.arg (fun t => { t with pend := false }) s) s
  else if x.op = 0x0E00 then { s with leg := { s.leg with promoting := false } }
  else s

/-- ABORT: the pending deferred descriptor with the cookie, of the SQ of byte 24, completes `ABORTED`; the result says
whether one was found. -/
def bodyAbort (d : Desc) (s : State) : State :=
  let cookie := u64 d.bytes 16
  let sq := u8 d.bytes 24
  if 15 < sq then fail d stBadParam s
  else match s.hif.deferred.find? fun x => dCookie x.st.desc == cookie && x.st.desc.sq == sq && !x.st.orphan with
    | none => okWith d [0] s
    | some x =>
      if x.op = 0x0300 then okWith d [1] (abandonMove x.handle stAborted s)
      else okWith d [1] (cancelEffect x (completeDeferred x { status := stAborted } s))

def execAbort (d : Desc) (s : State) : Host.Outcome State Fault Refusal := .next (runDesc 0x0009 d (bodyAbort d) s)

/-! ## The engine opcodes (R109) -/

def execJobMove (d : Desc) (s : State) : Host.Outcome State Fault Refusal := .next (runObj 0x0300 d (bodyJobMove d) s)
def execEngineStatus (d : Desc) (s : State) : Host.Outcome State Fault Refusal := .next (runDesc 0x0301 d (bodyEngineStatus d) s)
def execEngineRestore (d : Desc) (pass : Bool) (s : State) : Host.Outcome State Fault Refusal :=
  .next (runDesc 0x0302 d (bodyEngineRestore d pass) s)

end Sys2Proof.Machine
end

