-- ==== Sys2Proof/Machine/TableStore.lean ====
section
/-! DEFINITION. Swapping, saving and restoring tables (03, R107, R108). -/

namespace Sys2Proof.Machine

/-! ## TABLE_SWAP (R107) -/

/-- A block with the references to one handle moved to another. -/
def swapRefs (old new ty : Nat) (ps : List Byte) : List Byte :=
  (paramMap ty ps).foldl (fun b f => match f.kind with
    | .ref _ _ => if fieldVal b f = old then putAt b f.off (leBytes f.size new) else b
    | _ => b) ps

/-- A 4 B handle at an offset, moved. -/
def swapAt (old new off : Nat) (b : List Byte) : List Byte := if u32 b off = old then putAt b off (leBytes 4 new) else b

/-- The references of a CANPORT's filters and periodic buffers, moved. -/
def swapCan (old new : Nat) (r : CanRt) : CanRt :=
  let f (b : List Byte) : List Byte :=
    (List.range (b.length / 16)).foldl (fun b k => if 3 ≤ u8 b (16 * k + 8) then swapAt old new (16 * k + 12) b else b) b
  { r with filt := f r.filt, filtNext := r.filtNext.map f
           tx := r.tx.map fun x => { x with cfg := x.cfg.map (swapAt old new 12) } }

/-- The state machines of an object whose reference moves: kept where the new table has their state, else reset. -/
def swapSms (old : Nat) (img : List Byte) (o : Obj) : List Sm × List Nat :=
  let hit (m : Sm) : Bool := u32 o.act m.off == old && decide (smS img ≤ m.state)
  (o.sms.map fun m => if hit m then smBind m.off img else m, (o.sms.filter hit).map (·.state))

/-- Move every reference of one object. -/
def swapObj (old new : Nat) (img : List Byte) (o : Obj) (s : State) : State :=
  let x := swapSms old img o
  let s := updObj o.idx (fun o => { o with
    sms := x.1, params := swapRefs old new o.typ o.params, act := swapRefs old new o.typ o.act }) s
  let s := if o.typ = tyCanport then updCan o.idx (swapCan old new) s else s
  x.2.foldl (fun s st => raiseE 0x0348 0 (handleOf o) o.epoch (leBytes 1 st) s) s

/-- The jobs whose cost a swap changes, with the cost they would have. -/
def swapCosts (s : State) (old new : Nat) : List (Obj × Nat) :=
  (s.objs.filter fun o => jobTypes.contains o.typ && o.ost != .disabled && (refsOf o.typ o.params).any fun r => r.1 == old).map
    fun o => (o, jobCost s o.typ (swapRefs old new o.typ o.params))

/-- TABLE_SWAP: the other table is judged and the costs reserved at acceptance (R82, R107). -/
def bodyTableSwap (d : Desc) (o : Obj) (s : State) : State :=
  let new := u32 d.bytes 16
  let req := u64 d.bytes 24
  match tableOf s new with
  | none => failWith d 0x0308 (leBytes 2 16) s
  | some b =>
    if tabType b ≠ tabType o.params ∨ (tabType b = 3 ∧ fmtLen b ≠ fmtLen o.params) then fail d 0x0304 s
    else
      let t := takeEffect s.gtc req
      match costReserveAll t (costTag d) (swapCosts s (handleOf o) new) s with
      | none => fail d 0x0301 s
      | some s => defer d 0x0303 (handleOf o) t (leBytes 7 (takeEffectLate s.gtc req)) new s

def execTableSwap (d : Desc) (s : State) : Host.Outcome State Fault Refusal := .next (runObj 0x0303 d (bodyTableSwap d) s)

/-- TABLE_SWAP_TAKE_EFFECT: every reference moves at the boundary, and the descriptor completes. -/
def execTableSwapTakeEffect (h : Nat) (s : State) : Host.Outcome State Fault Refusal :=
  .next (match deferredOf s 0x0303 h with
    | none => s
    | some x =>
      let s := toInstant x.due s
      let s := (s.eng.costs.filter fun c => c.tag == costTag x.st.desc).foldl (fun s c => costApply c s) s
      match tableOf s x.arg with
      | none => completeDeferred x { status := 0x0308, result := leBytes 2 16 } s
      | some img =>
        let s := { s with kin := { s.kin with cfg := swapAt h x.arg 40 s.kin.cfg } }
        let s := s.objs.foldl (fun s o => swapObj h x.arg img o s) s
        completeDeferred x { result := x.result } (raise0 0x034C h (leBytes 4 x.arg) s))

/-! ## The saved-table store (R108) -/

/-- Bytes of the store: 1 MiB. -/
def storeMax : Nat := 1024 * 1024

/-- Put an image into the store under a key, or free the key. -/
def storePut (key : Nat) (img : Option (List Byte)) (s : State) : State :=
  let rest := s.eng.store.filter fun x => x.1 != key
  let new := match img with
    | some b => rest.filter (fun x => decide (x.1 < key)) ++ (key, b) :: rest.filter (fun x => decide (key < x.1))
    | none => rest
  { s with eng := { s.eng with store := new } }

/-- What the store holds once the writes in progress are done. -/
def storeAhead (s : State) : List (Nat × List Byte) :=
  (s.eng.saves.foldl (fun s x => storePut x.key x.image s) s).eng.store

/-- A write of the store is on its way; under a supply warning it waits, and its descriptor is deferred (R108, R489). -/
def storeBegin (d : Desc) (op h key : Nat) (img : Option (List Byte)) (s : State) : State :=
  let s := { s with eng := { s.eng with saves := s.eng.saves ++ [{ desc := d, key := key, image := img, begun := !s.pwr.bow }] } }
  if s.pwr.bow then defer d op h 0 [] key s else s

/-- The writes that waited go on, in their order (R489). -/
def storeResume (s : State) : State := { s with eng := { s.eng with saves := s.eng.saves.map fun x => { x with begun := true } } }

/-- TABLE_SAVE: the image is on its way to the store; the descriptor completes when the write is done. -/
def bodyTableSave (d : Desc) (o : Obj) (s : State) : State :=
  let key := u8 d.bytes 16
  let used := (((storeAhead s).filter fun x => x.1 != key).map fun x => x.2.length).foldl (· + ·) 0
  if key = 0 then fail d stBadParam s
  else if storeMax < used + o.params.length then fail d 0x0305 s
  else storeBegin d 0x0304 (handleOf o) key (some o.params) s

def execTableSave (d : Desc) (s : State) : Host.Outcome State Fault Refusal := .next (runObj 0x0304 d (bodyTableSave d) s)

/-- TABLE_ERASE: frees the key. -/
def bodyTableErase (d : Desc) (s : State) : State :=
  let key := u8 d.bytes 16
  if key = 0 then fail d stBadParam s
  else if !(storeAhead s).any (fun x => x.1 == key) then fail d 0x0306 s
  else storeBegin d 0x0306 0 key none s

def execTableErase (d : Desc) (s : State) : Host.Outcome State Fault Refusal := .next (runDesc 0x0306 d (bodyTableErase d) s)

/-- A write of the store is done, and its descriptor completes. -/
def storeDone (x : TabSave) (s : State) : State :=
  let s := storePut x.key x.image { s with eng := { s.eng with saves := s.eng.saves.erase x } }
  match s.hif.deferred.find? fun y => (y.op == 0x0304 || y.op == 0x0306) && decide (y.st.desc = x.desc) with
  | some y => completeDeferred y {} s
  | none => ok x.desc s

/-- TABLE_SAVE_WRITTEN: the oldest write under a key is done, unless a supply warning that came first defers it (R489). -/
def execTableSaveWritten (key : Nat) (s : State) : Host.Outcome State Fault Refusal :=
  .next (match s.eng.saves.find? fun x => x.key == key with
    | none => s
    | some x => if x.begun then storeDone x s else s)

/-- TABLE_RESTORE: a table from the saved image, validated as at CREATE. -/
def bodyTableRestore (d : Desc) (s : State) : State :=
  let key := u8 d.bytes 16
  if key = 0 then fail d stBadParam s
  else match s.eng.store.find? fun x => x.1 == key with
    | none => fail d 0x0306 s
    | some x =>
      match imageBad s x.2 with
      | some e => failWith d e.status e.result s
      | none => createNow d tyTable x.2 s

def execTableRestore (d : Desc) (s : State) : Host.Outcome State Fault Refusal := .next (runDesc 0x0305 d (bodyTableRestore d) s)

/-- One entry of TABLE_LIST: type, version, reserved, CRC; zeros for a free key. -/
def storeEntry (s : State) (key : Nat) : List Byte :=
  match s.eng.store.find? fun x => x.1 == key with
  | none => List.replicate 8 0
  | some x => slice x.2 0 2 ++ [0, 0] ++ slice x.2 8 4

/-- TABLE_LIST: 255 entries in key order. -/
def bodyTableList (d : Desc) (s : State) : State :=
  writeBack d ((List.range 255).flatMap fun k => storeEntry s (k + 1)) {} s

def execTableList (d : Desc) (s : State) : Host.Outcome State Fault Refusal := .next (runDesc 0x0307 d (bodyTableList d) s)

end Sys2Proof.Machine
end

