-- ==== Sys2Proof/Machine/Boot.lean ====
section
/-! DEFINITION. Resets and boot (16, R462, R473, R475, R476, R479; 17, R493 to R496, R503 to R514). -/

namespace Sys2Proof.Machine

/-! ## What a reset keeps (R462, R495) -/

/-- A running lockout starts again at its full length (R450). -/
def relock (k : KeySlot) : KeySlot := { k with lockEnd := k.lockEnd.map fun _ => k.lockLen * secTicks }

/-- The records that the device writes of its own accord, as MRAM holds them. -/
def mramNow (s : State) : MramOld :=
  { slots := s.sec.slots.map (fun k => { k with key := none }), fails := s.leg.fails, lockLen := s.leg.lockLen, lockEnd := s.leg.lockEnd
    rollback := s.sec.rollback, candidate := s.sec.candidate, lastConfirmed := s.boot.lastConfirmed }

/-- A reset overtakes the writes that a supply warning deferred: the records are the old ones (R491). Keys are written by
descriptors, whose writes wait themselves. -/
def mramRevert (s : State) : State :=
  match s.pwr.mramOld with
  | none => s
  | some m => { s with
      sec := { s.sec with
        slots := s.sec.slots.mapIdx fun i k => { m.slots.getD i {} with key := k.key }
        rollback := m.rollback, candidate := m.candidate }
      leg := { s.leg with fails := m.fails, lockLen := m.lockLen, lockEnd := m.lockEnd }
      boot := { s.boot with lastConfirmed := m.lastConfirmed } }

/-- MRAM content and what lies outside the device: kept across every reset. -/
def keepMram (s f : State) : State :=
  { f with
    pending := s.pending, freeCount := s.freeCount, hostMem := s.hostMem
    eng := { f.eng with store := s.eng.store }
    sched := { f.sched with store := s.sched.store }
    isb := { f.isb with pools := s.isb.pools }
    leg := { f.leg with
      password := s.leg.password, record := s.leg.record, fails := s.leg.fails, lockLen := s.leg.lockLen
      lockEnd := s.leg.lockEnd.map fun _ => s.leg.lockLen * secTicks, enaHigh := s.leg.enaHigh }
    sec := { f.sec with
      slots := s.sec.slots.map relock, untagged := s.sec.untagged, zeroizing := s.sec.zeroizing, fwA := s.sec.fwA, fwB := s.sec.fwB
      running := s.sec.running, candidate := s.sec.candidate, rollback := s.sec.rollback }
    boot := { f.boot with policy := s.boot.policy, reports := s.boot.reports, lastConfirmed := s.boot.lastConfirmed }
    isl := { f.isl with
      log := s.isl.log, logIndex := s.isl.logIndex, logRead := s.isl.logRead, estopPin := s.isl.estopPin, zeroizePin := s.isl.zeroizePin }
    pwr := { f.pwr with
      viofOk := s.pwr.viofOk, viohOk := s.pwr.viohOk, vbatLow := s.pwr.vbatLow, vbatUvlo := s.pwr.vbatUvlo
      vbatHigh := s.pwr.vbatHigh, vdd := s.pwr.vdd, vbat := s.pwr.vbat }
    pg := { f.pg with gpio := s.pg.gpio }
    fbd := { f.fbd with encA := s.fbd.encA, encB := s.fbd.encB, encZ := s.fbd.encZ, pulse := s.fbd.pulse, stepin := s.fbd.stepin, ain := s.fbd.ain }
    cand := { f.cand with inh := s.cand.inh }
    clk := { f.clk with xtalPresent := s.clk.xtalPresent, synciPresent := s.clk.synciPresent } }

/-- Island registers and every RWL register: kept across every reset but POR. DEVICE_FAULT and its safe force clear; ESTOP_LATCH
stays (R462). A line in HOLD keeps its disposition, every other one has no SWITCH and holds OFF (R475). -/
def keepIsland (s f : State) : State :=
  let estop := s.isl.estopLatch || s.isl.estopPin
  { f with
    isl := { f.isl with
      logWrapped := s.isl.logWrapped, lastgaspLost := s.isl.lastgaspLost, badService := s.isl.badService
      estopLatch := estop, conditions := if estop && s.isl.conditions.contains 0x0151 then [0x0151] else []
      estopHighAt := s.isl.estopHighAt.map fun _ => 0
      fltC1 := s.isl.fltC1, logC1 := s.isl.logC1, locked := s.isl.locked, resetCount := satInc 8 s.isl.resetCount
      wdtEn := s.isl.wdtEn, wdtDebugPause := s.isl.wdtDebugPause, wdtTimeout := s.isl.wdtTimeout, wdtWindow := s.isl.wdtWindow
      dispPwm := s.isl.dispPwm }
    osl := { f.osl with
      role := s.osl.role, syncOutEn := s.osl.syncOutEn, devices := if s.osl.role = 1 then 1 else 0, enumDone := s.osl.role == 1 }
    clk := { f.clk with refSync := s.osl.role == 2, dstate := .free }
    pg := { f.pg with echMap := s.pg.echMap }
    pwr := { f.pwr with
      vddWarn := s.pwr.vddWarn, vbatWarn := s.pwr.vbatWarn, bow := s.pwr.bow, bowAt := 0, mramOld := s.pwr.mramOld.map fun _ => mramNow s, supplyLow := s.pwr.supplyLow, vddLow := s.pwr.vddLow
      wakeReason := s.pwr.wakeReason, wakeFrom := s.pwr.wakeFrom }
    boot := { f.boot with
      bootCount := s.boot.bootCount, error := s.boot.error, stage := s.boot.stage } }

/-! ## The reset (R473, R494) -/

/-- Causes of ISL_RESET_CAUSE. -/
def causeBor : Nat := 2
def causeResetN : Nat := 3
def causeWatchdog : Nat := 4
def causeSoft : Nat := 5
def causeFatal : Nat := 6
def causeClock : Nat := 7
def causePark : Nat := 8
def causeBoot : Nat := 9

/-- The switch lines that are on: those of SWITCH objects, and those that HOLD keeps on. -/
def linesOn (s : State) : List Nat :=
  (List.range 48).filter fun k => s.isl.hold.contains k || ((swOnLine s k).map fun o => (swOf o).out).getD false

def lineMask (ks : List Nat) : Nat := (ks.map fun k => 2 ^ k).foldl (· + ·) 0

/-- The lines that HOLD keeps on at a reset (R476): those with disposition HOLD that are on; while the timer runs, only lines
of its first reset. -/
def holdLines (s : State) : List Nat :=
  if s.isl.estopLatch then []
  else (linesOn s).filter fun k => s.isl.dispSw.getD k 0 == 2 && (!s.isl.holdActive || s.isl.holdFirst.contains k)

/-- Event bytes 20 to 30 of ISL_RESET (R481). -/
def resetData (cause code lines held : Nat) : List Byte :=
  leBytes 1 cause ++ [0] ++ leBytes 2 code ++ leBytes 6 lines ++ leBytes 1 held

/-- The error code that a reset of an unconfirmed boot records (R506). -/
def resetError (cause : Nat) : Nat :=
  if cause = causeWatchdog then 0x0A
  else if cause = causeFatal ∨ cause = causeClock then 0x0C
  else if cause = causeResetN ∨ cause = causeSoft then 0x0D
  else 0

/-- An unconfirmed boot records the error of its reset, and a candidate that it tried loses its candidacy (R504, R506). -/
def bootFailed (err : Nat) (s : State) : State :=
  if s.boot.confirmed || !s.boot.released then s
  else
    let i := b2n s.sec.running
    let e := if err = 0 then s.boot.error else err
    { s with
      boot := { s.boot with
        error := e
        reports := if 3 ≤ s.boot.stage then s.boot.reports.set i
            (max s.boot.stage (s.boot.reports.getD i (0, 0)).1, if err = 0 then (s.boot.reports.getD i (0, 0)).2 else err)
          else s.boot.reports }
      sec := { s.sec with candidate := if s.boot.tried then none else s.sec.candidate } }

/-- The logic die resets with the dispositions applied (R473, R475, R476, R479): the last-gasp record is written, lines in
HOLD stay on, the rest is lost; the device waits for reset release. -/
def dieReset (cause code err : Nat) (s : State) : State :=
  let on := lineMask (linesOn s)
  let held := holdLines s
  let first := if s.isl.holdActive then s.isl.holdFirst else held
  let left := if s.isl.holdActive then (s.isl.holdEnds.getD s.gtc) - s.gtc else 500 * msTicks
  let at' := frameStart s.gtc
  let s := bootFailed (if err = 0 then resetError cause else err) (mramRevert s)
  let s := { logWrite 0x0150 0 1 0 (resetData cause code on held.length) { s with gtc := at' } with gtc := s.gtc }
  let f := keepIsland s (keepMram s {})
  { f with isl := { f.isl with
      cause := cause, resetFault := code, resetGtc := at', lastgasp := true, resetLines := on, resetHeld := held.length
      safeReset := true, holdActive := s.isl.holdActive || !held.isEmpty, hold := held, holdFirst := first
      holdEnds := if s.isl.holdActive || !held.isEmpty then some left else none, holdAdopted := s.isl.holdAdopted
      dispSw := (List.range 48).map fun k => if held.contains k then 2 else 0 } }

/-- VDD falls below the brown-out level while a reset of the die is in progress: whether its last-gasp record had been
written by then is open (R479, log 7); where it had not, LASTGASP_LOST sets. -/
def gaspLost (s : State) : State :=
  if s.boot.mode ≠ .booting ∨ s.boot.released ∨ !s.isl.lastgasp ∨ s.isl.cause = causePark then s
  else
    let v := takeFree s
    if v.1 % 2 = 0 ∨ (s.isl.log.getLast?.map fun e => u16 e 0) ≠ some 0x0150 then v.2
    else { v.2 with isl := { v.2.isl with
      log := v.2.isl.log.dropLast, logIndex := (v.2.isl.logIndex + 2 ^ 32 - 1) % 2 ^ 32, lastgaspLost := true } }

/-- BROWN_OUT_RESET: every output OFF, HOLD lines too; no record (R476, R494). -/
def brownOut (s : State) : State :=
  let at' := frameStart s.gtc
  let s := gaspLost s
  let s := bootFailed 0 (mramRevert s)
  let f := keepIsland s (keepMram s {})
  { f with isl := { f.isl with cause := causeBor, resetGtc := at', safeReset := true } }

def execBrownOutReset (s : State) : Host.Outcome State Fault Refusal := .next (brownOut s)

/-- POWER_ON_RESET: every register at its reset value; MRAM is kept (R462, R494, R495). -/
def execPowerOnReset (s : State) : Host.Outcome State Fault Refusal :=
  .next (
    let f := keepMram (bootFailed 0 (mramRevert s)) {}
    { f with isl := { f.isl with estopLatch := s.isl.estopPin, conditions := if s.isl.estopPin then [0x0151] else [] } })

/-- RESET_N_LOW (R493). -/
def execResetNLow (s : State) : Host.Outcome State Fault Refusal := .next (dieReset causeResetN 0 0 s)

/-- SOFT_RESET_START: 1 ms after ISL_RESET, or PWR_RETRY_BOOT (R483, R510). -/
def execSoftResetStart (s : State) : Host.Outcome State Fault Refusal :=
  .next (match s.isl.softResetAt with
    | none => s
    | some t => let s := toInstant t s; dieReset s.isl.softCause 0 0 s)

/-- HOLD_TIMER_EXPIRY: 500 ms after the reset every line still in HOLD goes off, and ISL_HOLD_END reports them (R476). -/
def execHoldTimerExpiry (s : State) : Host.Outcome State Fault Refusal :=
  .next (match s.isl.holdEnds with
    | none => s
    | some t =>
      if !s.isl.holdActive then s
      else
        let s := toInstant t s
        let off := s.isl.hold
        let adopted := s.isl.holdAdopted
        let s := { s with isl := { s.isl with
          holdActive := false, hold := [], holdFirst := [], holdEnds := none, holdAdopted := 0
          dispSw := s.isl.dispSw.mapIdx fun k v => if off.contains k then 0 else v } }
        raise0 0x0159 0 (leBytes 6 (lineMask off) ++ leBytes 1 adopted) s)

/-! ## Reset release and the stages (R496, R503 to R506) -/

/-- Bare king (R509): outputs OFF, CAN off, the PCIe endpoint in reset, the SPI slave with rings in the mailbox. -/
def bareKing (reason : Nat) (s : State) : State :=
  { s with
    boot := { s.boot with mode := .bareKing, modeAt := 3, bkReason := reason }
    hif := { s.hif with link := 3 }
    isl := { s.isl with wdtRunning := false, hold := [] }
    cand := { s.cand with lowPower := true } }

/-- RESET_RELEASE: the straps are sampled and the boot ROM acts on the boot counter (R496, R503). -/
def execResetRelease (straps : Nat) (s : State) : Host.Outcome State Fault Refusal :=
  .next (if s.boot.mode ≠ .booting ∨ s.boot.released ∨ 4 ≤ straps then s
  else
    let n := if s.isl.cause = 1 then 0 else s.boot.bootCount
    let s := { s with
      boot := { s.boot with
        straps := straps, modeAt := if straps = 2 ∧ s.leg.record then 1 else straps, policyNow := s.boot.policy, bootCount := n, stage := 0, released := true }
      hif := { s.hif with link := if straps = 0 then s.hif.link else 3 }
      clk := { s.clk with pllLock := s.osl.role != 2, xtalPresent := s.clk.xtalPresent || s.osl.role != 2 } }
    if straps = 3 then bareKing 3 s
    else if 3 ≤ n then bareKing 1 s
    else { s with boot := { s.boot with bootCount := n + 1 } })

/-- What VERIFY finds wrong with a slot (R452, R506); the factory image, whose bytes the manual does not give, is whole. -/
def slotBad (s : State) (b : Bool) : Option Nat :=
  let f := fwSlot s b
  let h := fwBytes f 0 256
  if f.factory then (if fwRollback f < s.sec.rollback then some 0x06 else none)
  else if u32 h 0 ≠ 0x57464B50 then some 0x02
  else match fwBad s f with
    | none => none
    | some e =>
      if e = 0x0F0C then some 0x03
      else if e = 0x0F0D then some 0x06
      else if sha256 (fwBytes f 256 (u32 h 16)) ≠ slice h 32 32
        ∧ (sha256 (slice h 64 64) = beBytes 32 (Config.keyDigest false).toNat ∨ sha256 (slice h 64 64) = beBytes 32 (Config.keyDigest true).toNat)
        ∧ ecdsaVerify (sha256 (h.take 128)) (beNat (slice h 64 32)) (beNat (slice h 96 32)) (beNat (slice h 128 32)) (beNat (slice h 160 32)) then some 0x05
      else some 0x04

/-- Record a stage and an error for a slot in the boot report (R511). -/
def report (b : Bool) (stage err : Nat) (s : State) : State :=
  let old := s.boot.reports.getD (b2n b) (0, 0)
  { s with boot := { s.boot with reports := s.boot.reports.set (b2n b) (max old.1 stage, if err = 0 then old.2 else err) } }

/-- VERIFY (R504): the preferred slot, else the other; with neither, bare king. -/
def verify (s : State) : State :=
  let p := s.sec.candidate.getD (s.boot.lastConfirmed.getD false)
  let s := { s with boot := { s.boot with preferred := p, tried := s.sec.candidate.isSome } }
  let go (b fb : Bool) (s : State) : State :=
    report b 3 0 { s with
      boot := { s.boot with stage := 3, fallback := fb }
      sec := { s.sec with running := b } }
  match slotBad s p with
  | none => go p false s
  | some e =>
    let s := report p 2 e s
    let s := { s with sec := { s.sec with candidate := if s.boot.tried then none else s.sec.candidate } }
    match slotBad s (!p) with
    | none => raise0 0x0169 0 (leBytes 1 (b2n (!p)) ++ leBytes 1 e) (go (!p) true s)
    | some e2 => bareKing 2 { report (!p) 2 e2 s with boot := { (report (!p) 2 e2 s).boot with error := e2 } }

/-- BOOT_STAGE_COMPLETE: a stage ends, at an instant of the new GTC, and the next begins (R503, R505). -/
def execBootStageComplete (t : Nat) (s : State) : Host.Outcome State Fault Refusal :=
  .next (if s.boot.mode ≠ .booting ∨ ¬ s.boot.released ∨ 5 ≤ s.boot.stage then s
  else
    let s := toInstant t s
    if s.boot.stage = 2 then verify s
    else
      let n := s.boot.stage + 1
      let s := { s with boot := { s.boot with stage := n }, sec := { s.sec with selftestDone := s.sec.selftestDone || n == 2 } }
      if 3 < n then report s.sec.running n 0 s else s)

/-- BOOT_STAGE_FAIL: a stage fails with an error of R506; a self-test of R433 also logs SEC_SELFTEST_FAIL with the
algorithm. The device resets with cause BOOT. -/
def execBootStageFail (err alg : Nat) (s : State) : Host.Outcome State Fault Refusal :=
  .next (if s.boot.mode ≠ .booting ∨ ¬ s.boot.released then s
  else
    let s := if err = 0x01 then logWrite 0x0F48 3 0 0 (leBytes 1 alg) s else s
    dieReset causeBoot 0 (err % 256) s)

/-! ## End of boot (R505, R479, R514) -/

/-- The mode that the straps and the promotion record give (R496). -/
def strapMode (s : State) : Mode := if s.boot.straps = 2 ∧ ¬ s.leg.record then .fs216 else .native

/-- The event of a VBAT condition; what a boot sees enter or leave raises nothing before its end (R514). -/
def vbatEvent (code g enter mv : Nat) (s : State) : State :=
  if s.boot.mode = .booting then s
  else raise0 code 0 (leBytes 1 g ++ leBytes 1 enter ++ [0, 0] ++ leBytes 4 mv) s

/-- The VBAT conditions that hold at the end of boot are raised then. -/
def vbatAtBoot (s : State) : State :=
  (List.range 4).foldl (fun s g =>
    let mv := 10 * s.pwr.vbat.getD g 0
    let s := if s.pwr.vbatUvlo.getD g false then vbatEvent 0x0163 g 1 mv s else s
    let s := if s.pwr.vbatLow.getD g false then vbatEvent 0x0162 g 1 mv s else s
    if s.pwr.vbatHigh.getD g false then vbatEvent 0x0164 g 1 mv s else s) s

/-- ISL_RESET at the end of boot (R479): the reset entry is written here where no last-gasp record holds it. -/
def resetEvent (s : State) : State :=
  let i := s.isl
  let data := resetData i.cause i.resetFault (if i.lastgasp then i.resetLines else 0) (if i.lastgasp then i.resetHeld else 0)
  let s := if i.lastgasp then s else logWrite 0x0150 0 2 0 data s
  raisePlain s.gtc 0x0150 0 0 0 data s

/-- The watchdog does not count while an engine is halted and DEBUG_PAUSE is set; it goes on where it stood (R471). -/
def wdtPauseSync (s : State) : State :=
  match s.isl.wdtPausedAt, s.isl.wdtDebugPause && !s.isl.halted.isEmpty with
  | none, true => { s with isl := { s.isl with wdtPausedAt := some s.gtc } }
  | some t, false => { s with isl := { s.isl with wdtPausedAt := none, wdtServed := s.isl.wdtServed + (s.gtc - t) } }
  | _, _ => s

/-- The watchdog counts anew with its full timeout (R471, R495). -/
def wdtRestart (s : State) : State :=
  { s with isl := { s.isl with
      wdtRunning := s.isl.wdtEn, wdtServed := s.gtc, wdtBad := 0
      wdtPausedAt := if s.isl.wdtDebugPause && !s.isl.halted.isEmpty then some s.gtc else none } }

/-- END_OF_BOOT: the mode is set up, the safe force of the reset ends, the watchdog counts, ISL_RESET is raised and the rings
are served; policy SELFTEST confirms (R505, R507). -/
def execEndOfBoot (t : Nat) (s : State) : Host.Outcome State Fault Refusal :=
  .next (if s.boot.mode ≠ .booting ∨ s.boot.stage ≠ 5 then s
  else
    let s := toInstant t s
    let m := strapMode s
    let s := { s with
      boot := { s.boot with mode := m, stage := 6, gtcBoot := s.gtc }
      isl := { s.isl with safeReset := false } }
    let s := if m = .fs216 then legBoot s else wdtRestart s
    let s := vbatAtBoot (resetEvent (report s.sec.running 6 0 s))
    let s := if s.isl.cause = causePark then raise0 0x0167 0 (leBytes 1 s.pwr.wakeReason ++ [2]) s else s
    refreshAll (if s.boot.policyNow = 0 then confirmBoot s else s))

/-- BOOT_CONFIRM_TIMEOUT: no confirmation within 5 s of the end of boot (R507). -/
def execBootConfirmTimeout (s : State) : Host.Outcome State Fault Refusal :=
  .next (if !awaitsConfirm s || s.boot.mode == .booting || s.boot.mode == .parked then s
  else dieReset causeBoot 0 0x0B (toInstant (s.boot.gtcBoot + 5 * secTicks) s))

/-! ## Boot opcodes (R507 to R511) -/

/-- PWR_BOOT_POLICY: takes effect at the next boot; a supply warning defers the write (R489). -/
def bodyBootPolicy (d : Desc) (s : State) : State :=
  let v := u8 d.bytes 16
  if 2 < v then fail d stBadParam s
  else mramWrite d (.bootPolicy v) s

def execPwrBootPolicy (d : Desc) (s : State) : Host.Outcome State Fault Refusal := .next (runDesc 0x0113 d (bodyBootPolicy d) s)

/-- PWR_BOOT_CONFIRM. -/
def bodyBootConfirm (d : Desc) (s : State) : State :=
  if s.boot.confirmed then okWith d [0] s else okWith d [1] (confirmBoot s)

def execPwrBootConfirm (d : Desc) (s : State) : Host.Outcome State Fault Refusal := .next (runDesc 0x0114 d (bodyBootConfirm d) s)

/-- A slot record of the boot report (R511). -/
def slotRecord (s : State) (b : Bool) : List Byte :=
  let f := fwSlot s b
  let r := s.boot.reports.getD (b2n b) (0, 0)
  let is : Bool := f.factory || u32 (fwBytes f 0 4) 0 == 0x57464B50
  leBytes 1 r.1 ++ leBytes 1 r.2 ++ [0, 0] ++ leBytes 4 (if is then fwVersion f else 0) ++ leBytes 1 (fwRollback f) ++ List.replicate 7 0

/-- ISL_RESET_CAUSE. -/
def resetCauseReg (s : State) : Nat := s.isl.cause + 256 * s.isl.resetCount + 65536 * s.isl.resetFault

/-- PWR_BOOT_REPORT (R511). -/
def bodyBootReport (d : Desc) (s : State) : State :=
  writeBack d (leBytes 1 s.boot.bkReason ++ leBytes 1 s.boot.bootCount ++ leBytes 1 (b2n s.boot.preferred) ++ leBytes 1 s.boot.policyNow
    ++ leBytes 4 (resetCauseReg s) ++ slotRecord s false ++ slotRecord s true
    ++ leBytes 4 (s.boot.gtcBoot / usTicks) ++ leBytes 1 s.sec.rollback ++ List.replicate 19 0) {} s

def execPwrBootReport (d : Desc) (s : State) : Host.Outcome State Fault Refusal := .next (runDesc 0x0115 d (bodyBootReport d) s)

/-- PWR_RETRY_BOOT: BOOT_COUNT is cleared, and the device resets 1 ms later with cause BOOT; outside bare king `STATE` (R510). -/
def bodyRetryBoot (d : Desc) (s : State) : State :=
  if s.boot.mode ≠ .bareKing then fail d stState s
  else ok d { s with
    boot := { s.boot with bootCount := 0 }
    isl := { s.isl with softResetAt := some (s.gtc + msTicks), softCause := causeBoot } }

def execPwrRetryBoot (d : Desc) (s : State) : Host.Outcome State Fault Refusal := .next (runDesc 0x0116 d (bodyRetryBoot d) s)

end Sys2Proof.Machine
end

