-- ==== Sys2Proof/Machine/Clock.lean ====
section
/-! DEFINITION. Clock, GTC and PPS discipline (01, R17 to R21): the commands of the CLK/GTC block. -/

namespace Sys2Proof.Machine

/-- GTC_LO_READ: the low word is returned and the upper word latched into GTC_HI (R19). -/
def execGtcLoRead (s : State) : Host.Outcome State Fault Refusal :=
  .next { s with
    clk := { s.clk with gtcHi := gtcSeen s / 2 ^ 32 }
    hif := { s.hif with readData := leBytes 4 (gtcSeen s) } }

/-- PPS_CAP_LO_READ: the low word of the last accepted capture is returned, the upper word latched (R19). -/
def execPpsCapLoRead (s : State) : Host.Outcome State Fault Refusal :=
  .next { s with
    clk := { s.clk with ppsCapHi := s.clk.ppsCap / 2 ^ 32 }
    hif := { s.hif with readData := leBytes 4 s.clk.ppsCap } }

/-- GTC_DISC_ENABLE: DISC_EN becomes 1 and the procedure of R20 starts with no previous accepted edge; on a member
the bit is stored and ignored. Writing 1 to a bit that is 1 changes nothing. -/
def execGtcDiscEnable (s : State) : Host.Outcome State Fault Refusal :=
  .next (if s.clk.discEn then s
    else { s with clk := { s.clk with discEn := true, ppsLast := none, good := 0 } })

/-- GTC_DISC_DISABLE: DISC_EN becomes 0, the state FREE, the last adjustment is kept (R21); a member stays FOLLOWING. -/
def execGtcDiscDisable (s : State) : Host.Outcome State Fault Refusal :=
  .next { s with clk := { s.clk with
    discEn := false
    dstate := if s.osl.role = 2 then s.clk.dstate else .free } }

/-- The range of GTC_FREQ_ADJ (R17). -/
def freqLimit : Int := 429497

/-- GTC_FREQ_ADJ_WRITE: with FREQ_MAN = 1 and DISC_EN = 0, and not on a member, the value is clamped (R17) and waits
for the next boundary (R21); otherwise the register is read-only. -/
def execGtcFreqAdjWrite (v : Int) (s : State) : Host.Outcome State Fault Refusal :=
  .next (if s.clk.freqMan && !s.clk.discEn && s.osl.role != 2
    then { s with clk := { s.clk with freqNext := some (clampInt (-freqLimit) freqLimit v) } }
    else s)

/-- k in g = 2^-k: values 9 to 15 act as 8 (GTC_CTL.DISC_GAIN). -/
def discK (c : Clk) : Nat := min c.discGain 8

/-- The new adjustment for an interval error in ticks (R20); the rounding to 2^-32 is open (log 9). -/
def discAdj (c : Clk) (err : Int) : Int :=
  clampInt (-freqLimit) freqLimit
    (c.freqNext.getD c.freqAdj - roundOpen 1 (err * 2 ^ 32) (secTicks * 2 ^ discK c))

/-- The state after an accepted edge (R20). -/
def discState (d : DState) (good : Nat) : DState :=
  let d := if d = .acquiring ∧ 4 ≤ good then .locked else d
  let d := if d = .locked ∧ good = 0 then .acquiring else d
  if d = .holdover then .acquiring else d

/-- GTC_PPS_LOCKED, GTC_PPS_LOST, GTC_PPS_REJECTED (R30). -/
def evPpsLocked : Nat := 0x0140
def evPpsLost : Nat := 0x0141
def evPpsRejected : Nat := 0x0142

/-- The discipline procedure on one PPS edge captured at `t` (R20). -/
def ppsDiscipline (t : Nat) (s : State) : State :=
  let c := s.clk
  match c.ppsLast with
  | none => { s with clk := { c with ppsLast := some t, ppsFrom := t, dstate := .acquiring, good := 0 } }
  | some last =>
    let err : Int := (t : Int) - last - secTicks
    if err.natAbs > 48000 then
      raise0 evPpsRejected 0 []
        { s with clk := { c with ppsRejected := satInc 16 c.ppsRejected, ppsLast := some t, ppsRej := true } }
    else
      let good := if err.natAbs ≤ 48 then c.good + 1 else 0
      let s' := { s with clk := { c with
        ppsAccepted := satInc 16 c.ppsAccepted
        ppsLast := some t
        ppsFrom := t
        ppsCap := t
        freqNext := some (discAdj c err)
        good := good
        dstate := discState c.dstate good } }
      if c.dstate = .acquiring ∧ 4 ≤ good then raise0 evPpsLocked 0 [] s' else s'

/-- A PPS edge as the clock block sees it: of the selected polarity, with DISC_EN = 1, not on a member (R20). -/
def clkPpsEdge (t : Nat) (falling : Bool) (s : State) : State :=
  if s.clk.discEn && s.osl.role != 2 && falling == s.clk.ppsFalling then ppsDiscipline t s else s

/-- PPS_HOLDOVER_TIMEOUT: 2.5 s after the last accepted edge, in ACQUIRING or LOCKED, the state becomes HOLDOVER, the
adjustment is kept and GTC_PPS_LOST is raised (R21). -/
def execPpsHoldoverTimeout (s : State) : Host.Outcome State Fault Refusal :=
  .next (if s.clk.dstate = .acquiring ∨ s.clk.dstate = .locked then
    let s := toInstant (s.clk.ppsFrom + 2500 * msTicks) s
    raise0 evPpsLost 0 [] { s with clk := { s.clk with dstate := .holdover } }
  else s)

/-- GTC_FREQ_ADJ as the host reads it: the value in force, or while it is writable the one written (R11). -/
def freqRead (s : State) : Int :=
  if s.clk.freqMan && !s.clk.discEn && s.osl.role != 2 then s.clk.freqNext.getD s.clk.freqAdj else s.clk.freqAdj

/-- FREQ_ADJ_APPLY: at the boundary the word of the broadcast takes effect, on the lead as on its members; a standalone device
applies the waiting adjustment (R17, R21, R23 step 8). What a lead computes after its broadcast waits for the next one. -/
def freqAdjApply (s : State) : State :=
  if s.osl.role = 2 then
    { s with clk := { s.clk with
               freqAdj := s.osl.bcastFreq.getD s.clk.freqAdj
               dstate := if s.osl.bcastFreq.isSome then .following else s.clk.dstate }
             osl := { s.osl with bcastFreq := none } }
  else
    let w := s.osl.freqSent.getD (s.clk.freqNext.getD s.clk.freqAdj)
    { s with clk := { s.clk with freqAdj := w, freqNext := if s.clk.freqNext = some w then none else if s.osl.freqSent.isSome then s.clk.freqNext else none }
             osl := { s.osl with freqSent := none } }

end Sys2Proof.Machine
end

