-- ==== Sys2Proof/Machine/Island.lean ====
section
/-! DEFINITION. The safety island (16, R461 to R484): watchdog, ESTOP_N, clock monitors, debug halt, fault clearing, the log. -/

namespace Sys2Proof.Machine

/-- FAULT_N is driven low (R470). -/
def faultNLow (s : State) : Bool :=
  s.isl.deviceFault || s.isl.estopLatch || s.boot.mode == .booting || s.boot.mode == .bareKing
    || (s.isl.fltC1 && s.objs.any fun o => o.ost == .faulted) || legFaultLow s

/-! ## Set-up (R11, R471) -/

/-- ISL_LOCK_WRITE: closes the set-up lock until POR. -/
def execIslLockWrite (s : State) : Host.Outcome State Fault Refusal := .next { s with isl := { s.isl with locked := true } }

/-- HOST_BARRED: in FS-216 mode the host's writes to the watchdog set-up are ignored. -/
def hostBarred (s : State) : Bool := s.boot.mode == .fs216

/-- WDT_ARM: the counter starts with WDT_TIMEOUT and the token 0x5A; not before the end of boot nor in bare king. -/
def wdtArm (s : State) : State :=
  if s.isl.locked || hostBarred s || s.isl.wdtEn then s
  else
    let s := { s with isl := { s.isl with wdtEn := true, wdtToken := 0x5A } }
    if s.boot.mode = .native then wdtRestart s else s

def execWdtArm (s : State) : Host.Outcome State Fault Refusal := .next (wdtArm s)

/-- WDT_DISARM: not while the set-up lock is closed. -/
def wdtDisarm (s : State) : State :=
  if s.isl.locked || hostBarred s then s else { s with isl := { s.isl with wdtEn := false, wdtRunning := false } }

def execWdtDisarm (s : State) : Host.Outcome State Fault Refusal := .next (wdtDisarm s)

/-! ## Watchdog (R471 to R473) -/

/-- The watchdog expires: ISL_WDT_EXPIRED is logged, the dispositions are applied, the die resets (R473). -/
def wdtExpire (s : State) : State := dieReset causeWatchdog 0 0 (logWrite 0x0154 3 0 0 [] s)

/-- The window of a service in force: none where it is not below the timeout. -/
def wdtWindowTicks (s : State) : Nat := if s.isl.wdtWindow < s.isl.wdtTimeout then s.isl.wdtWindow * msTicks else 0

/-- A refused service; the second in a row expires the watchdog at once (R472). -/
def wdtRefuse (d : Desc) (tok : Nat) (s : State) : State :=
  let s := { s with isl := { s.isl with badService := true, wdtBad := s.isl.wdtBad + 1 } }
  let s := raise0 0x0153 0 (leBytes 1 tok ++ leBytes 1 s.isl.wdtToken) s
  let s := fail d 0x0102 s
  if 2 ≤ s.isl.wdtBad then wdtExpire s else s

/-- ISL_WDT_SERVICE (R472). -/
def bodyWdtService (d : Desc) (s : State) : State :=
  let tok := u8 d.bytes 16
  if s.boot.mode = .fs216 then fail d stModeRefused s
  else if !s.isl.wdtEn then fail d 0x0103 s
  else if tok = s.isl.wdtToken ∧ s.isl.wdtServed + wdtWindowTicks s ≤ s.gtc then
    ok d { s with isl := { s.isl with
      wdtToken := (s.isl.wdtToken + 0x3B) % 256, wdtServed := s.gtc, wdtBad := 0
      wdtPausedAt := s.isl.wdtPausedAt.map fun _ => s.gtc } }
  else wdtRefuse d tok s

def execIslWdtService (d : Desc) (s : State) : Host.Outcome State Fault Refusal := .next (runDesc 0x0100 d (bodyWdtService d) s)

/-- WATCHDOG_EXPIRY: between 0.95 and 1.05 times the timeout after the last accepted service; which instant is open (R471,
log 7). -/
def execWatchdogExpiry (s : State) : Host.Outcome State Fault Refusal :=
  .next (if !s.isl.wdtRunning || s.isl.wdtPausedAt.isSome then s
  else
    let full := s.isl.wdtTimeout * msTicks
    let v := takeFree s
    wdtExpire (toInstant (s.isl.wdtServed + full * 95 / 100 + v.1 % (full / 10 + 1)) v.2))

/-! ## ESTOP_N (R469) -/

/-- ESTOP_N has been low for 50 ns: ESTOP_LATCH, every output inactive, HOLD lines too, ISL_ESTOP. -/
def estopLow (s : State) : State :=
  if s.isl.estopPin then s
  else
    let s := refreshAll { s with isl := { s.isl with estopPin := true, estopLatch := true, estopHighAt := none, hold := [] } }
    class2 0x0151 0 [] s

def execEstopNLow (s : State) : Host.Outcome State Fault Refusal := .next (estopLow s)

/-- ESTOP_N_HIGH: the pin returns high, and its 10 ms run. -/
def execEstopNHigh (s : State) : Host.Outcome State Fault Refusal :=
  .next (if s.isl.estopPin then { s with isl := { s.isl with estopPin := false, estopHighAt := some s.gtc } } else s)

/-- ESTOP_RELEASE_TIMER: ESTOP_N high for 10 ms; the condition has ended, ISL_ESTOP_RELEASED is raised. -/
def execEstopReleaseTimer (s : State) : Host.Outcome State Fault Refusal :=
  .next (match s.isl.estopHighAt with
    | none => s
    | some t =>
      let s := toInstant (t + 10 * msTicks) s
      raise0 0x0152 0 [] (conditionEnded 0x0151 { s with isl := { s.isl with estopHighAt := none } }))

/-! ## Clock monitors (R474) -/

/-- A clock finding: class 3, logged before the reset; the device resets with cause CLOCK. -/
def clockFault (code : Nat) (data : List Byte) (s : State) : State := dieReset causeClock code 0 (logWrite code 3 0 0 data s)

def execTclkStop (s : State) : Host.Outcome State Fault Refusal := .next (clockFault 0x0155 [] s)

/-- PLL_UNLOCK: low for 2 µs after the first lock; in SLEEP the PLL is stopped. -/
def execPllUnlock (s : State) : Host.Outcome State Fault Refusal := .next (if s.clk.pllLock then clockFault 0x0156 [] s else s)

/-- ACLK_FREQ_DEVIATION: more than ±10 % off; the deviation in ppm comes with the command. -/
def execAclkFreqDeviation (ppm : Int) (s : State) : Host.Outcome State Fault Refusal :=
  .next (if ppm.natAbs ≤ 100000 then s else clockFault 0x0157 ([0, 0, 0, 0] ++ iBytes 4 ppm) s)

/-! ## Debug halt (R463, R471) and the power-die status bus (R468) -/

/-- DEBUG_HALT: an engine is halted through debug access, which engine debug must have been unlocked for (R455). -/
def execDebugHalt (engine : Nat) (s : State) : Host.Outcome State Fault Refusal :=
  .next (if 24 ≤ engine ∨ s.isl.halted.contains engine ∨ ¬ s.sec.debugScopes.contains 2 then s
  else
    let s := { s with isl := { s.isl with
      halted := s.isl.halted ++ [engine], safeDebug := true, hold := [] } }
    class2 0x0158 0 (leBytes 1 engine) (refreshAll (wdtPauseSync s)))

/-- ENGINE_DEBUG_RESUME: the last halted engine runs again; the debug-halt safe force and its condition end. -/
def execEngineDebugResume (engine : Nat) (s : State) : Host.Outcome State Fault Refusal :=
  .next (if !s.isl.halted.contains engine then s
  else
    let s := { s with isl := { s.isl with halted := s.isl.halted.erase engine } }
    if !s.isl.halted.isEmpty then s
    else refreshAll (conditionEnded 0x0158 { wdtPauseSync s with isl := { (wdtPauseSync s).isl with safeDebug := false } }))

def execPdieLinkLoss (s : State) : Host.Outcome State Fault Refusal := .next (class2 0x015B 0 [] s)
def execPdieLinkRestored (s : State) : Host.Outcome State Fault Refusal := .next (conditionEnded 0x015B s)

/-! ## Clearing a device fault (R468) -/

/-- The Osund faults, whose condition ends with a link that works again. -/
def oslFaults : List Nat := [evLinkDown, evClockLost, evMarkSlip, evSkewFault]

/-- The conditions that persist. -/
def persisting (s : State) : List Nat :=
  if s.osl.upLink && s.osl.calDone && !s.clk.holdover && s.osl.missedRun == 0 then s.isl.conditions.filter fun c => !oslFaults.contains c else s.isl.conditions

/-- ISL_FAULT_CLEAR: refused while a condition persists; acts at the next boundary. -/
def bodyFaultClear (d : Desc) (s : State) : State :=
  match persisting s with
  | c :: _ => failWith d 0x0101 (leBytes 2 c) s
  | [] => defer d 0x0101 0 (nextBoundary s.gtc) [] 0 s

def execIslFaultClear (d : Desc) (s : State) : Host.Outcome State Fault Refusal := .next (runDesc 0x0101 d (bodyFaultClear d) s)

/-- FAULT_CLEAR_TAKE_EFFECT: the safe force is released, FAULT_N rises unless another condition holds, ISL_FAULT_CLEARED is
raised; a condition that has come since keeps everything as it is. -/
def execFaultClearTakeEffect (s : State) : Host.Outcome State Fault Refusal :=
  .next (match deferredOf s 0x0101 0 with
    | none => s
    | some x =>
      let s := toInstant x.due s
      match persisting s with
      | c :: _ => completeDeferred x { status := 0x0101, result := leBytes 2 c } s
      | [] =>
        let code := s.isl.faultCode
        let s := refreshAll { s with isl := { s.isl with
          deviceFault := false, estopLatch := false, safeFault := false, faultCode := 0, faultHandle := 0, conditions := [] } }
        completeDeferred x {} (raise0 0x015A 0 (leBytes 2 code) s))

/-! ## Reset and log (R480, R483) -/

/-- ISL_RESET: byte 16 = 0xA5; completes, and resets 1 ms later with cause SOFT. -/
def bodyIslReset (d : Desc) (s : State) : State :=
  if u8 d.bytes 16 ≠ 0xA5 then fail d stBadParam s
  else ok d { s with isl := { s.isl with softResetAt := some (s.gtc + msTicks), softCause := causeSoft } }

def execIslReset (d : Desc) (s : State) : Host.Outcome State Fault Refusal := .next (runDesc 0x0102 d (bodyIslReset d) s)

/-- How many entries lie between an index and the next one to be written, modulo 2^32. -/
def logBack (s : State) (i : Nat) : Nat := (s.isl.logIndex + 2 ^ 32 - i) % 2 ^ 32

/-- ISL_LOG_READ (R480): from the index asked for, or from the oldest where that is older; an index that is yet to come reads
nothing. -/
def bodyLogRead (d : Desc) (s : State) : State :=
  let n := s.isl.log.length
  let oldest := (s.isl.logIndex + 2 ^ 32 - n) % 2 ^ 32
  let first := dOffset d
  let back := logBack s first
  let old := first != 0xFFFFFFFF && decide (n < back ∧ back < 2 ^ 31)
  let start := if first = 0xFFFFFFFF ∨ old then oldest else first
  let skip := if decide (2 ^ 31 ≤ back) && first != 0xFFFFFFFF then n else n - logBack s start
  let es := (s.isl.log.drop skip).take (dBlockLen d / 32)
  let s := { s with isl := { s.isl with
    logWrapped := false
    logRead := if start ≤ s.isl.logRead ∧ skip < n then max s.isl.logRead (start + es.length) else s.isl.logRead } }
  writeBack d es.flatten { result := leBytes 4 es.length ++ leBytes 1 (b2n old) } s

def execIslLogRead (d : Desc) (s : State) : Host.Outcome State Fault Refusal := .next (runDesc 0x0103 d (bodyLogRead d) s)

end Sys2Proof.Machine
end

