-- ==== Sys2Proof/Machine/Power.lean ====
section
/-! DEFINITION. Supplies (17, R487 to R492), SLEEP (R497 to R500), PARK (R501) and the wake sources (R387, R388, R502). -/

namespace Sys2Proof.Machine

/-! ## VDD (R489, R490) -/

/-- VDD_WARNING: below the warning level for 2 µs, at a reading in mV: BOW, and later MRAM writes are deferred. The latency
records that are being written complete (log 26). -/
def execVddWarning (mv : Nat) (s : State) : Host.Outcome State Fault Refusal :=
  .next (if s.pwr.bow then s
  else
    let s := latWritten s
    raise0 0x0160 0 ([1, 0, 0, 0] ++ leBytes 4 mv)
    { s with pwr := { s.pwr with bow := true, bowAt := s.gtc, vdd := mv, vddLow := mv, mramOld := some (mramNow s) } })

/-- The MRAM writes that a supply warning deferred proceed, except those whose end is a command of its own (R489). -/
def mramSavesRun (s : State) : State :=
  if s.boot.mode = .parked then s else mramWaitRun (legSavesRun s)

/-- VDD_WARNING_END: above the warning level + 50 mV for 1 ms; the reading and the lowest VDD seen, in mV. -/
def execVddWarningEnd (mv lowest : Nat) (s : State) : Host.Outcome State Fault Refusal :=
  .next (if !s.pwr.bow then s
  else
    let low := min lowest s.pwr.vddLow
    let s := conditionEnded 0x0161 { storeResume s with pwr := { s.pwr with bow := false, mramOld := none, supplyLow := false, vdd := mv, vddLow := low } }
    mramSavesRun (raise0 0x0160 0 ([0, 0, 0, 0] ++ leBytes 4 low) s))

/-- VDD_WARNING_SUSTAINED: 100 ms after the crossing the warning still runs: SUPPLY_LOW_SUSTAINED. -/
def execVddWarningSustained (s : State) : Host.Outcome State Fault Refusal :=
  .next (if !s.pwr.bow || s.pwr.supplyLow then s
  else
    let s := toInstant (s.pwr.bowAt + 100 * msTicks) s
    class2 0x0161 0 [] { s with pwr := { s.pwr with supplyLow := true } })

/-! ## VIO_F and VIO_H (R487) -/

/-- VIO_F_LOW: PWR_VIOF_LOW; ESTOP_N then reads low through its pull-down. -/
def execVioFLow (s : State) : Host.Outcome State Fault Refusal :=
  .next (if !s.pwr.viofOk then s else estopLow (class2 0x0165 0 [] { s with pwr := { s.pwr with viofOk := false } }))

/-- VIO_F_RECOVERED: the condition ends. -/
def execVioFRecovered (s : State) : Host.Outcome State Fault Refusal :=
  .next (conditionEnded 0x0165 { s with pwr := { s.pwr with viofOk := true } })

/-- VIO_H_LOW: PWR_VIOH_LOW; under the SPI strap, or in FS-216 mode, a detach. -/
def execVioHLow (s : State) : Host.Outcome State Fault Refusal :=
  .next (if !s.pwr.viohOk then s
  else
    let s := raise0 0x0166 0 [] { s with pwr := { s.pwr with viohOk := false } }
    if linkSpi s || s.boot.mode == .fs216 then detach 4 s else s)

/-- VIO_H_RECOVERED. -/
def execVioHRecovered (s : State) : Host.Outcome State Fault Refusal := .next { s with pwr := { s.pwr with viohOk := true } }

/-! ## VBAT (R492, R282, R317, R192) -/

/-- A VBAT reading in mV, kept in steps of 10 mV. -/
def vbatRead (g mv : Nat) (s : State) : State := { s with pwr := { s.pwr with vbat := s.pwr.vbat.set g (mv / 10) } }

/-- The outputs of a group after its lockout begins or ends. -/
def vbatOutputs (g : Nat) (s : State) : State :=
  let s := ((objsOf s tySwitch).filter fun o => lineGroup (swLine o.act) == g).foldl (fun s o => swRefresh o.idx s) s
  if g = 0 then refreshAll s else s

/-- VBAT_UVLO_ENTER: every channel of the group is off; on VBAT_A every bank gate and BST_G too. -/
def execVbatUvloEnter (group mv : Nat) (s : State) : Host.Outcome State Fault Refusal :=
  .next (if 4 ≤ group ∨ s.pwr.vbatUvlo.getD group false then s
  else
    let s := vbatRead group mv { s with pwr := { s.pwr with vbatUvlo := s.pwr.vbatUvlo.set group true } }
    vbatEvent 0x0163 group 1 mv (vbatOutputs group s))

/-- VBAT_UVLO_LEAVE: channels follow their control lines again; each solenoid whose gate is open starts a new actuation. -/
def execVbatUvloLeave (group mv : Nat) (s : State) : Host.Outcome State Fault Refusal :=
  .next (if ¬ s.pwr.vbatUvlo.getD group false then s
  else
    let s := vbatRead group mv { s with pwr := { s.pwr with vbatUvlo := s.pwr.vbatUvlo.set group false } }
    let s := vbatOutputs group s
    let s := if group = 0 ∧ ¬ banksOff s then
        ((objsOf s tySolenoid).filter fun o => isEnabled o && (solOf o).gate && !(solOf o).dead && (solOf o).latch == 0).foldl
          (fun s o => solStart o.idx s) s
      else s
    vbatEvent 0x0163 group 0 mv s)

/-- Learning windows close with LOW_VBAT: all of them on VBAT_A, those of the group's sense channels on another group. -/
def lowVbat (g : Nat) (s : State) : State :=
  let s := ((objsOf s tySwitch).filter fun o => lineGroup (swLine o.act) == g).foldl (fun s o => senseReason (handleOf o) 3 s) s
  if g = 0 then
    let s := (s.objs.filter isChan).foldl (fun s o => chReason o.idx 3 s) s
    (objsOf s tySolenoid).foldl (fun s o => windowReason o.idx 3 s) s
  else s

/-- VBAT_WARNING_ENTER: below PWR_VBAT_WARN for 100 µs; no output changes. -/
def execVbatWarningEnter (group mv : Nat) (s : State) : Host.Outcome State Fault Refusal :=
  .next (if 4 ≤ group ∨ s.pwr.vbatLow.getD group false then s
  else
    let s := vbatRead group mv { s with pwr := { s.pwr with vbatLow := s.pwr.vbatLow.set group true } }
    vbatEvent 0x0162 group 1 mv (lowVbat group s))

def execVbatWarningLeave (group mv : Nat) (s : State) : Host.Outcome State Fault Refusal :=
  .next (if ¬ s.pwr.vbatLow.getD group false then s
  else vbatEvent 0x0162 group 0 mv (vbatRead group mv { s with pwr := { s.pwr with vbatLow := s.pwr.vbatLow.set group false } }))

/-- VBAT_HIGH_ENTER: above 33.0 V for 100 µs; no output changes. -/
def execVbatHighEnter (group mv : Nat) (s : State) : Host.Outcome State Fault Refusal :=
  .next (if 4 ≤ group ∨ s.pwr.vbatHigh.getD group false then s
  else vbatEvent 0x0164 group 1 mv (vbatRead group mv { s with pwr := { s.pwr with vbatHigh := s.pwr.vbatHigh.set group true } }))

def execVbatHighLeave (group mv : Nat) (s : State) : Host.Outcome State Fault Refusal :=
  .next (if ¬ s.pwr.vbatHigh.getD group false then s
  else vbatEvent 0x0164 group 0 mv (vbatRead group mv { s with pwr := { s.pwr with vbatHigh := s.pwr.vbatHigh.set group false } }))

/-! ## SLEEP entry (R497, R498) -/

/-- A wake GPIO is at its level; it needs VIO_F (R502). -/
def gpioWakes (s : State) : Bool :=
  s.pwr.viofOk && (List.range 8).any fun i => bit s.pwr.wakeMask i && s.pg.gpio.getD i false == bit s.pwr.wakePol i

/-- A member of the lead's cluster is awake. -/
def memberAwake (s : State) : Bool :=
  s.osl.role == 1 && (List.range s.osl.devices).any fun p => p != 0 && !s.osl.asleep.contains p && !s.osl.absent.contains p

/-- What refuses PWR_SLEEP and PWR_PARK (R497, R501); a second entry while one runs completes BUSY (log 27). -/
def sleepBad (s : State) : Option Nat :=
  if s.boot.mode ≠ .native then some stModeRefused
  else if s.pwr.sleepAt.isSome || s.pwr.parkAt.isSome then some stBusy
  else if gpioWakes s then some 0x0111
  else if memberAwake s then some 0x0112
  else none

/-- Every pending deferred descriptor ends, except the CAN descriptors of R386. -/
def sleepAborts (s : State) : State :=
  (s.hif.deferred.filter fun x => x.op != 0x0D00 && x.op != 0x0D01 && x.op != 0x0D04).foldl
    (fun s x => if x.op = 0x0300 then abandonMove x.handle 0x0110 s
      else cancelEffect x (completeDeferred x { status := 0x0110 } s)) s

/-- PWR_SLEEP: accepted; no further descriptors are fetched, and it completes at step 3. -/
def bodySleep (d : Desc) (s : State) : State :=
  match sleepBad s with
  | some e => fail d e s
  | none => sleepAborts { s with pwr := { s.pwr with sleepAt := some (nextBoundary s.gtc) } }

def execPwrSleep (d : Desc) (s : State) : Host.Outcome State Fault Refusal := .next (runDesc 0x0110 d (bodySleep d) s)

/-- Types that SLEEP leaves as they are (R498). -/
def sleepKeeps : List Nat := [tyLayer, tyCanport, tyTable, tyWing, tyGroup]

/-- Every output line goes OFF and stays so (R495). -/
def allOff (s : State) : State :=
  refreshAll { s with
    pwr := { s.pwr with linesOff := true }
    isl := { s.isl with hold := [] }
    pg := { s.pg with ech := List.replicate 16 false } }

/-- SLEEP_ENTRY: at boundary E objects are disabled, without the checks of R71, the kinematics unit is OFF and the island
holds every line OFF. -/
def execSleepEntry (s : State) : Host.Outcome State Fault Refusal :=
  .next (match s.pwr.sleepAt with
    | none => s
    | some e =>
      if s.pwr.linesOff then s
      else
        let s := toInstant e s
        let s := (s.objs.filter fun o => isEnabled o && !sleepKeeps.contains o.typ).foldl (fun s o => disableObj o.idx s) s
        let s := setReverse false s
        let s := setKState 0 { s with kin := kinFresh s.kin }
        allOff s)

/-- MRAM writes in progress complete; those that a supply warning defers wait. -/
def mramFlush (s : State) : State :=
  if s.pwr.bow then s else latWritten (s.eng.saves.foldl (fun s x => storeDone x s) s)

/-- The executing descriptor of an opcode, if there is one. -/
def startedOp (s : State) (op : Nat) : Option Desc := (s.hif.started.find? fun x => dOp x.desc == op).map (·.desc)

/-- The GTC at which the wake timer fires (R502). -/
def wakeDue (s : State) : Option Nat := if s.pwr.wakeTimer = 0 then none else some (s.gtc + s.pwr.wakeTimer * msTicks)

/-- SLEEP_COMPLETE: by E + 2 ms CAN frames and MRAM writes in progress have ended; PWR_SLEEP completes with gtc = E, a member
reports itself asleep, engines and PLL stop. -/
def execSleepComplete (t : Nat) (s : State) : Host.Outcome State Fault Refusal :=
  .next (match s.pwr.sleepAt with
    | none => s
    | some e =>
      if !s.pwr.linesOff || s.boot.mode ≠ .native then s
      else
        let s := canSleep (mramFlush (toInstant (min (max t e) (e + 2 * msTicks)) s))
        let s := canHalt s
        let s := match startedOp s 0x0110 with
          | some d => complete d { gtc := some e } s
          | none => s
        let s := if s.osl.role = 2 then
            { s with osl := { s.osl with outbox := s.osl.outbox ++ [{ kind := .asleep, dst := 0, src := s.osl.position, body := [] }] } }
          else s
        { s with
          boot := { s.boot with mode := .sleeping }
          clk := { s.clk with pllLock := false }
          isl := { s.isl with wdtRunning := false }
          pwr := { s.pwr with wakeAt := wakeDue s } })

/-! ## PARK (R501) -/

/-- PWR_PARK: accepted; the outputs go OFF at the next boundary. -/
def bodyPark (d : Desc) (s : State) : State :=
  match sleepBad s with
  | some e => fail d e s
  | none => sleepAborts { s with pwr := { s.pwr with parkAt := some (nextBoundary s.gtc) } }

def execPwrPark (d : Desc) (s : State) : Host.Outcome State Fault Refusal := .next (runDesc 0x0111 d (bodyPark d) s)

/-- Steps 1 and 2 of PARK, at its boundary: every output OFF, changed latency records on their way. -/
def parkBoundary (b : Nat) (s : State) : State :=
  if s.pwr.parkAt.any (· ≤ b) && !s.pwr.linesOff then
    let s := latSave (allOff s)
    { s with pwr := { s.pwr with parkCount := s.sched.saving.length } }
  else s

/-- PARK_WRITES_DONE: the writes are done, or their 100 ms deferral has run out and they are abandoned; the reset record is
written, PWR_PARK completes and the device powers down. -/
def execParkWritesDone (s : State) : Host.Outcome State Fault Refusal :=
  .next (match s.pwr.parkAt with
    | none => s
    | some b =>
      if !s.pwr.linesOff || s.boot.mode ≠ .native then s
      else
        let s := if s.pwr.bow then
            let s := toInstant (b + 100 * msTicks) s
            { s with
              pwr := { s.pwr with parkCount := s.pwr.parkCount - s.sched.saving.length }
              sched := { s.sched with saving := [] } }
          else mramFlush s
        let at' := frameStart s.gtc
        let s := { logWrite 0x0150 0 1 0 (resetData causePark 0 0 0) { s with gtc := at' } with gtc := s.gtc }
        let s := match startedOp s 0x0111 with
          | some d => okWith d (leBytes 2 s.pwr.parkCount) s
          | none => s
        { s with
          boot := { s.boot with mode := .parked }
          isl := { s.isl with wdtRunning := false, resetGtc := at' }
          cand := { s.cand with lowPower := true }
          clk := { s.clk with pllLock := false }
          pwr := { s.pwr with wakeAt := wakeDue s } })

/-! ## Wake (R500 to R502, R387, R388) -/

/-- PWR_WAKE_CONFIG: the GPIOs it claims are shared inputs (R518). -/
def bodyWakeConfig (d : Desc) (s : State) : State :=
  let m := u8 d.bytes 16
  let f := u8 d.bytes 18
  let others := claimsHeld { s with pwr := { s.pwr with wakeMask := 0 } } 65536
  if 3 < f then failWith d stBadParam (leBytes 2 18) s
  else if claimsBad others (((List.range 8).filter fun i => bit m i).map fun i => (i, claimShared)) then fail d stInUse s
  else ok d { s with pwr := { s.pwr with wakeMask := m, wakePol := u8 d.bytes 17, wakeFlags := f, wakeTimer := u32 d.bytes 20 } }

def execPwrWakeConfig (d : Desc) (s : State) : Host.Outcome State Fault Refusal := .next (runDesc 0x0112 d (bodyWakeConfig d) s)

/-- A wake from SLEEP: the GTC goes on at a boundary, the engines run, the rings are served, the watchdog and the CAN
services start anew, PWR_WAKE is raised. -/
def sleepWake (reason t : Nat) (s : State) : State :=
  let s := toInstant (boundaryAt (max t s.gtc)) s
  let s := { s with
    boot := { s.boot with mode := .native }
    clk := { s.clk with pllLock := true }
    isl := { s.isl with boundaryGtc := s.gtc }
    osl := { s.osl with asleep := [] }
    pwr := { s.pwr with linesOff := false, sleepAt := none, wakeAt := none, wakeReason := reason, wakeFrom := 1 } }
  let s := isbResume (canResume s)
  refreshAll (raise0 0x0167 0 (leBytes 1 reason ++ [1]) (wdtRestart s))

/-- A wake from PARK: a boot with cause PARK_WAKE (R494, R501). -/
def parkWake (reason : Nat) (s : State) : State :=
  let f := keepIsland s (keepMram (bootFailed 0 (mramRevert s)) {})
  { f with
    isl := { f.isl with cause := causePark, resetGtc := s.isl.resetGtc, lastgasp := true, safeReset := true }
    cand := { f.cand with inh := true }
    pwr := { f.pwr with wakeReason := reason, wakeFrom := 2 } }

/-- Wake the device by a reason that its configuration arms. -/
def wakeBy (reason t : Nat) (s : State) : State :=
  if s.boot.mode = .sleeping then sleepWake reason t s
  else if s.boot.mode = .parked then parkWake reason s
  else s

/-- A wake source but CAN and the timer is armed: 5 a GPIO at its level, 7 a host access from SLEEP, 8 SYNC_MARKI on a member
from SLEEP. -/
def wakeArmed (s : State) (reason : Nat) : Bool :=
  if reason = 5 then gpioWakes s
  else if s.boot.mode ≠ .sleeping then false
  else if reason = 7 then bit s.pwr.wakeFlags 0
  else reason == 8 && s.osl.role == 2 && bit s.pwr.wakeFlags 1

/-- WAKE_SOURCE. -/
def execWakeSource (reason t : Nat) (s : State) : Host.Outcome State Fault Refusal :=
  .next (if wakeArmed s reason then wakeBy reason t s else s)

/-- WAKE_TIMER_EXPIRY: on the island oscillator. -/
def execWakeTimerExpiry (s : State) : Host.Outcome State Fault Refusal :=
  .next (match s.pwr.wakeAt with
    | none => s
    | some t => wakeBy 6 t s)

/-- CAN_WAKE: a source of CAN_WAKE_CONFIG in low-power mode; INH goes high, the device wakes, CAN_WAKE is raised. The levels of
CAN1 to CAN3 wake from SLEEP only. -/
def execCanWake (reason port : Nat) (f : CanFrame) (s : State) : Host.Outcome State Fault Refusal :=
  .next (if !canWakes s reason port f || (if reason = 4 then s.boot.mode != .sleeping else !s.cand.lowPower) then s
  else
    let s := wakeBy reason s.gtc { s with cand := { s.cand with inh := true, lowPower := false } }
    raise0 0x0D47 0 (leBytes 1 reason) s)

end Sys2Proof.Machine
end

