-- ==== Sys2Proof/Machine/Trace.lean ====
section
/-! DEFINITION. The trace (07, R249 to R251). What the manual leaves open about an arm, a stop and the trigger instant is in
log 28. -/

namespace Sys2Proof.Machine

/-! ## Probes (R249) -/

def trcHandle (s : State) (n : Nat) : Nat := s.trc.probeH.getD n 0
def trcSel (s : State) (n : Nat) : Nat := s.trc.probeS.getD n 0

/-- Bytes of a status field of type 0 int32, 1 uint32, 2 float32, 3 uint16, 4 uint8. -/
def ftypeSize (t : Nat) : Nat := if t < 3 then 4 else if t = 3 then 2 else 1

/-- A selector that is refused: an unknown signal or field type, a field that is not aligned. -/
def selBad (v : Nat) : Bool :=
  if bit v 15 then decide (4 < bits v 12 3) || bits v 0 12 % ftypeSize (bits v 12 3) != 0
  else decide (10 < bits v 0 12)

/-- A signal of a LOOP. -/
def loopSignal (s : State) (o : Obj) (n : Nat) : F32 :=
  let r := loopOf o
  let l := modeLaw (max 1 r.mode)
  if n = 0 then lawTarget s o l (lawDemand s s.gtc o l).1
  else [0, (lawOf r l).r, r.y, r.e, r.u, r.uff, r.urc, r.v, r.demand, r.region, r.phi].getD n 0

/-- A field of a status block, converted to float32. -/
def statusField (s : State) (o : Obj) (sel : Nat) : F32 :=
  let b := statusHead s o ++ statusType s o
  let off := bits sel 0 12
  match bits sel 12 3 with
  | 0 => fOfInt (i32 b off)
  | 1 => fOfInt (u32 b off)
  | 2 => f32 b off
  | 3 => fOfInt (u16 b off)
  | _ => fOfInt (u8 b off)

/-- The value of probe `n`: NaN where it is off, its handle stale, or a signal asked of another type. -/
def trcProbe (s : State) (n : Nat) : F32 :=
  match objOf s (trcHandle s n) with
  | none => fNaN
  | some o =>
    if bit (trcSel s n) 15 then statusField s o (trcSel s n)
    else if o.typ = tyLoop then loopSignal s o (bits (trcSel s n) 0 12) else fNaN

/-! ## Arm, stop, force (R251) -/

/-- Entries of a recorded instant (R250). -/
def trcGroups (s : State) : Nat := if (List.range 4).any fun k => trcHandle s (4 + k) != 0 then 2 else 1

def trcMax : Nat := 8192
/-- The trace stream ring. -/
def trcRing : Nat := 36

/-- What refuses an arm. -/
def armBad (s : State) : Bool :=
  (!s.trc.stream && (decide (trcMax < (s.trc.pre + s.trc.post) * trcGroups s) || decide (4 < s.trc.trig % 16)))
    || ((List.range 8).any fun n => trcHandle s n != 0 && selBad (trcSel s n)) || !(ringOf s trcRing).en

/-- ARM = 1: an idle trace that is enabled starts, or the arm is refused. -/
def trcArm (s : State) : State :=
  if s.trc.state ≠ 0 ∨ ¬ s.trc.en then s
  else if armBad s then { s with trc := { s.trc with cfgErr := true } }
  else { s with trc := { s.trc with
    state := if s.trc.stream then 4 else 1, ticks := 0, due := none, seq := 0, left := 0, buf := [], prev := none
    fired := !s.trc.stream && s.trc.trig % 16 == 0, gap := false, sent := 0 } }

/-- ARM = 0: a capture that records ends without its entries; a stream ends when its entries are written; a capture that
drains goes on. -/
def trcStop (s : State) : State :=
  if s.trc.state = 1 ∨ s.trc.state = 2 then { s with trc := { s.trc with state := 0, due := none, buf := [] } }
  else if s.trc.state = 4 then { s with trc := { s.trc with state := if s.trc.buf.isEmpty then 0 else 4, ending := !s.trc.buf.isEmpty, due := none } }
  else s

/-- FORCE = 1: the trigger of an armed capture. -/
def trcForce (s : State) : State := if s.trc.state = 1 then { s with trc := { s.trc with fired := true } } else s

def execTrcArm (s : State) : Host.Outcome State Fault Refusal := .next (trcArm s)
def execTrcStop (s : State) : Host.Outcome State Fault Refusal := .next (trcStop s)
def execTrcForce (s : State) : Host.Outcome State Fault Refusal := .next (trcForce s)

/-- A write of TRC_CTL. -/
def trcCtlWrite (v : Nat) (s : State) : State :=
  let s := { s with trc := { s.trc with decim := bits v 4 4, stream := bit v 2, en := bit v 0 } }
  let s := if bit v 1 && bit v 0 then trcArm s else trcStop s
  if bit v 3 then trcForce s else s

/-! ## Recording (R249, R250) -/

/-- The entry of group `g` for an instant. -/
def trcEntry (s : State) (t g flags : Nat) : List Byte :=
  leBytes 8 t ++ ((List.range 4).flatMap fun k => fBytes (trcProbe s (4 * g + k))) ++ leBytes 2 s.trc.seq ++ leBytes 1 g
    ++ leBytes 1 flags ++ [0, 0, 0, 0]

/-- The trigger condition at a recorded instant. -/
def trcTriggered (s : State) : Bool :=
  let src := s.trc.trig % 16
  let x := trcProbe s (bits s.trc.trig 4 3)
  let up := s.trc.prev.any fun p => fLt p s.trc.level && fLe s.trc.level x
  let dn := s.trc.prev.any fun p => fLt s.trc.level p && fLe x s.trc.level
  s.trc.fired || (src == 1 && up) || (src == 2 && dn) || (src == 3 && (up || dn))

/-- Put the entries of an instant into the buffer with their flags. -/
def trcKeep (t flags : Nat) (s : State) : State :=
  { s with trc := { s.trc with buf := s.trc.buf ++ (List.range (trcGroups s)).map fun g => (s.trc.seq, trcEntry s t g flags) } }

/-- An instant of a capture before its trigger: the oldest beyond PRE are overwritten. -/
def trcPre (t : Nat) (s : State) : State :=
  let s := trcKeep t 2 s
  { s with trc := { s.trc with buf := s.trc.buf.drop (s.trc.buf.length - s.trc.pre * trcGroups s) } }

/-- The trigger instant: the first of the POST instants; TRACE_TRIGGERED carries its GTC. -/
def trcTrigger (t : Nat) (s : State) : State :=
  let before := s.trc.buf.length / trcGroups s
  let left := max 1 s.trc.post - 1
  let s := trcKeep t 1 s
  let s := { s with trc := { s.trc with state := if left = 0 then 3 else 2, left := left, fired := false } }
  { raise0 0x0748 0 (leBytes 2 before) { s with gtc := t } with gtc := s.gtc }

/-- An instant of a stream: entries that find the buffer full are dropped and counted. -/
def trcStream (t : Nat) (s : State) : State :=
  (List.range (trcGroups s)).foldl (fun s g =>
    if s.trc.buf.length < trcMax then
      { s with trc := { s.trc with buf := s.trc.buf ++ [(s.trc.seq, trcEntry s t g (if s.trc.gap then 4 else 0))], gap := false } }
    else setRing trcRing (fun r => { r with lost := satInc 16 r.lost })
      { s with trc := { s.trc with lost := satInc 16 s.trc.lost, dropped := true, gap := true } }) s

/-- TRACE_RECORD: the clock instant that is to be recorded. -/
def execTraceRecord (s : State) : Host.Outcome State Fault Refusal :=
  .next (match s.trc.due with
    | none => s
    | some t =>
      let s := toInstant t { s with trc := { s.trc with due := none } }
      let s' :=
        if s.trc.state = 1 then (if trcTriggered s then trcTrigger t s else trcPre t s)
        else if s.trc.state = 2 then
          let s := trcKeep t 0 s
          { s with trc := { s.trc with left := s.trc.left - 1, state := if s.trc.left ≤ 1 then 3 else 2 } }
        else if s.trc.state = 4 ∧ ¬ s.trc.ending then trcStream t s
        else s
      { s' with trc := { s'.trc with seq := wrapInc 16 s'.trc.seq, prev := some (trcProbe s (bits s.trc.trig 4 3)) } })

/-- Write buffered entries while the ring has room, at most `n`. -/
def trcWrite : Nat → State → State
  | 0, s => s
  | n + 1, s =>
    match s.trc.buf with
    | [] => s
    | x :: r =>
      if ringServed s trcRing && ringRoom (ringOf s trcRing) then
        trcWrite n (ringProduce trcRing x.2 none false
          { s with trc := { s.trc with buf := r, written := satInc 16 s.trc.written, sent := s.trc.sent + 1 } })
      else s

/-- TRACE_DRAIN: a capture writes its buffer and is DONE; a stream writes what it has. -/
def execTraceDrain (s : State) : Host.Outcome State Fault Refusal :=
  .next (
    if s.trc.state = 3 then
      let s := trcWrite s.trc.buf.length s
      if s.trc.buf.isEmpty then
        raise0 0x0749 0 (leBytes 4 s.trc.sent) { s with trc := { s.trc with state := 0, done := true } }
      else s
    else if s.trc.state = 4 then
      let s := trcWrite s.trc.buf.length s
      if s.trc.ending && s.trc.buf.isEmpty then { s with trc := { s.trc with state := 0, ending := false } } else s
    else s)

end Sys2Proof.Machine
end

