-- ==== Sys2Proof/Machine/Registers.lean ====
section
/-! DEFINITION. The register spaces (R11, R33, R46): the BAR0 map, the doorbell page, the MSI-X table, and the quad SPI slave.
A write of a register word acts as the rows of its fields do. -/

namespace Sys2Proof.Machine

/-- Bits of a register, from a list of position and value. -/
def bitsOf (xs : List (Nat × Bool)) : Nat := (xs.map fun x => if x.2 then 2 ^ x.1 else 0).foldl (· + ·) 0

/-- A number of flags from bit 0 on. -/
def maskOf (xs : List Bool) : Nat := bitsOf (xs.zipIdx.map fun x => (x.2, x.1))

/-- The low 32 bits, and the next 32. -/
def lo32 (n : Nat) : Nat := n % 2 ^ 32
def hi32 (n : Nat) : Nat := n / 2 ^ 32 % 2 ^ 32

/-! ## Reads -/

/-- SYS registers (17, 18). -/
def sysRead (a : Nat) (s : State) : Nat :=
  let claimed := bitsOf (((claimsHeld s 65536).filter fun c => c.2 != claimShared && decide (c.1 < 48)).map (·.1) |>.eraseDups.map fun g => (g, true))
  match a with
  | 0x00 => 0x42489648
  | 0x04 => s.boot.straps + 4 * s.boot.modeAt + bitsOf [(4, s.leg.record), (5, s.boot.mode == .bareKing)]
  | 0x10 => s.pg.echMap
  | 0x14 => lo32 claimed
  | 0x18 => hi32 claimed
  | 0x1C => lo32 (maskOf s.pg.gpio)
  | 0x20 => hi32 (maskOf s.pg.gpio)
  | _ => 0

/-- Ring block registers (02). -/
def ringRead (r o : Nat) (s : State) : Nat :=
  let g := ringOf s r
  match o with
  | 0x00 => lo32 g.base
  | 0x04 => hi32 g.base
  | 0x08 => g.size + 2 ^ 16 * g.vector + 2 ^ 24 * g.bind + 2 ^ 28 * g.prio + bitsOf [(30, g.loc), (31, g.en)]
  | 0x0C => g.modCount + 2 ^ 16 * g.modTime
  | 0x10 => lo32 g.shadow
  | 0x14 => hi32 g.shadow
  | 0x18 => g.tail + 2 ^ 16 * g.head
  | 0x1C => bitsOf [(0, g.error), (1, 16 ≤ r || sqExecuting s r == 0), (2, g.phase)] + 16 * g.err + 2 ^ 16 * g.lost
  | _ => 0

/-- Which rings from `r` on, `n` of them, are stopped in error. -/
def ringErrs (s : State) (r n : Nat) : Nat := maskOf ((List.range n).map fun k => (ringOf s (r + k)).error)

/-- HIF registers (02). -/
def hifRead (a : Nat) (s : State) : Nat :=
  let h := s.hif
  match a with
  | 0x00 => 0x00012610
  | 0x04 => bitsOf [(0, h.ringsEn), (1, h.sealReq)] + 256 * h.errVec
  | 0x08 => 2 * h.link + bitsOf [(3, h.configLost), (4, h.detachSeen), (5, h.dmaFault), (6, h.dbInvalid), (7, h.heldOvf)]
  | 0x0C => h.intPend
  | 0x10 => h.intMask
  | 0x14 => ringErrs s 0 32
  | 0x18 => ringErrs s 32 6
  | 0x20 => h.evqMap
  | 0x24 => h.held.length + 2 ^ 16 * h.dropped
  | _ => 0

/-- Milliseconds that the watchdog has left, at the oscillator's nominal rate (log 26). -/
def wdtLeft (s : State) : Nat :=
  if s.isl.wdtRunning then (s.isl.wdtTimeout * msTicks - ((s.isl.wdtPausedAt.getD s.gtc) - s.isl.wdtServed)) / msTicks else 0

/-- ISL_BOOT. -/
def islBoot (s : State) : Nat :=
  let b := s.boot
  b.bootCount + 16 * b.policyNow + 256 * b.bkReason + 2 ^ 20 * b.stage + 2 ^ 24 * b.error
    + bitsOf [(6, b.confirmed), (7, b.mode == .bareKing), (16, b.fallback), (17, s.sec.running)]

/-- MRAM_DEFER: a supply warning defers a write of MRAM (R489). -/
def mramDeferred (s : State) : Bool :=
  s.pwr.bow && (!s.pwr.mramWait.isEmpty || s.eng.saves.any (fun x => !x.begun) || !s.sched.saving.isEmpty || s.leg.pwdNew.isSome
    || s.leg.recordDue || s.pwr.mramOld.any fun m => m != mramNow s)

/-- ISL and supply registers (16, 17). -/
def islRead (a : Nat) (s : State) : Nat :=
  let i := s.isl
  let p := s.pwr
  if 0x40 ≤ a ∧ a < 0x4C then ((List.range 16).map fun j => i.dispSw.getD (4 * (a - 0x40) + j) 0 * 4 ^ j).foldl (· + ·) 0
  else if 0x50 ≤ a ∧ a < 0x70 then ((List.range 8).map fun j => i.dispPwm.getD (2 * (a - 0x50) + j) 0 * 16 ^ j).foldl (· + ·) 0
  else match a with
  | 0x00 => bitsOf [(0, i.wdtRunning), (1, faultNLow s), (2, i.deviceFault), (3, i.estopLatch), (4, i.estopPin), (5, i.zeroizePin),
      (6, !i.halted.isEmpty), (7, safeForced s), (8, i.holdActive), (9, i.badService), (10, i.lastgaspLost), (11, i.logWrapped)]
  | 0x04 => bitsOf [(0, i.fltC1), (1, i.logC1)]
  | 0x08 => b2n i.locked
  | 0x0C => resetCauseReg s
  | 0x10 => lo32 i.resetGtc
  | 0x14 => hi32 i.resetGtc
  | 0x18 => i.faultCode
  | 0x1C => i.faultHandle
  | 0x20 => islBoot s
  | 0x24 => bitsOf [(0, i.wdtEn), (1, hostBarred s), (2, i.wdtDebugPause)]
  | 0x28 => i.wdtTimeout
  | 0x2C => i.wdtWindow
  | 0x30 => 256 * i.wdtToken + 2 ^ 16 * wdtLeft s
  | 0x34 => lo32 (lineMask i.hold)
  | 0x38 => hi32 (lineMask i.hold)
  | 0x80 => i.logIndex
  | 0x90 => bitsOf [(0, p.bow), (1, p.supplyLow), (2, p.viofOk), (3, p.viohOk), (16, mramDeferred s)]
      + 16 * maskOf p.vbatLow + 256 * maskOf p.vbatUvlo + 4096 * maskOf p.vbatHigh
  | 0x94 => p.vddWarn
  | 0x98 => p.vbatWarn
  | 0x9C => p.vdd % 2 ^ 16 + 2 ^ 16 * (p.vddLow % 2 ^ 16)
  | 0xA0 => p.vbat.getD 0 0 % 2 ^ 16 + 2 ^ 16 * (p.vbat.getD 1 0 % 2 ^ 16)
  | 0xA4 => p.vbat.getD 2 0 % 2 ^ 16 + 2 ^ 16 * (p.vbat.getD 3 0 % 2 ^ 16)
  | 0xA8 => p.wakeReason + 256 * p.wakeFrom
  | _ => 0

/-- SEC registers (R457). -/
def secRead (a : Nat) (s : State) : Nat :=
  match a with
  | 0x00 => secStat s
  | 0x04 => lo32 Config.uid.toNat
  | 0x08 => hi32 Config.uid.toNat
  | 0x0C => secSlots s
  | 0x10 => secFw s
  | 0x14 => secSess s
  | _ => 0

/-- The value of GTC_STAT.DSTATE. -/
def dstateCode : DState → Nat
  | .free => 0
  | .acquiring => 1
  | .locked => 2
  | .holdover => 3
  | .following => 4

/-- CLK/GTC registers (01), without what a read latches. -/
def clkRead (a : Nat) (s : State) : Nat :=
  let c := s.clk
  match a with
  | 0x04 => bitsOf [(0, c.pllLock), (3, c.xtalPresent), (4, c.synciPresent), (5, c.refSync), (6, c.holdover), (7, c.swRefused)]
  | 0x08 => lo32 (gtcSeen s)
  | 0x0C => c.gtcHi
  | 0x10 => bitsOf [(0, c.discEn), (1, c.freqMan), (4, c.ppsFalling)] + 256 * c.discGain
  | 0x14 => dstateCode c.dstate + bitsOf [(3, c.ppsRej)]
  | 0x18 => ux 32 (freqRead s)
  | 0x1C => lo32 c.ppsCap
  | 0x20 => c.ppsCapHi
  | 0x24 => c.ppsAccepted + 2 ^ 16 * c.ppsRejected
  | _ => 0

/-- OSL registers (01). -/
def oslRead (a : Nat) (s : State) : Nat :=
  let o := s.osl
  match a with
  | 0x00 => o.role + bitsOf [(4, o.syncOutEn)]
  | 0x04 => bitsOf [(1, o.upLink), (2, o.dnLink), (3, o.enumDone), (4, o.calDone), (6, o.markSlip), (7, o.skewFault)]
      + 2 ^ 16 * o.position + 2 ^ 20 * o.devices
  | 0x08 => ux 32 o.skew
  | 0x0C => o.missed + 2 ^ 16 * o.crcErrors
  | _ => 0

/-- TRC registers (R249). -/
def trcRead (a : Nat) (s : State) : Nat :=
  let t := s.trc
  if 0x40 ≤ a ∧ a < 0x80 then (if a % 8 = 0 then t.probeH else t.probeS).getD ((a - 0x40) / 8) 0
  else match a with
  | 0x00 => 16 * t.decim + bitsOf [(0, t.en), (1, t.state != 0), (2, t.stream)]
  | 0x04 => t.state + bitsOf [(5, t.done), (6, t.dropped), (7, t.cfgErr)]
  | 0x08 => t.clock
  | 0x0C => t.trig
  | 0x10 => t.level.toNat
  | 0x14 => t.pre
  | 0x18 => t.post
  | 0x1C => t.written + 2 ^ 16 * t.lost
  | _ => 0

/-- The word that a read of BAR0 returns; an address that no table lists reads 0. -/
def regValue (a : Nat) (s : State) : Nat :=
  if a < 0x1000 then sysRead a s
  else if a < 0x1100 then hifRead (a - 0x1000) s
  else if a < 0x1100 + 0x20 * 38 then ringRead ((a - 0x1100) / 0x20) ((a - 0x1100) % 0x20) s
  else if a < 0x2000 then 0
  else if a < 0x3000 then islRead (a - 0x2000) s
  else if a < 0x4000 then secRead (a - 0x3000) s
  else if a < 0x5000 then clkRead (a - 0x4000) s
  else if a < 0x6000 then oslRead (a - 0x5000) s
  else if a < 0x7000 then trcRead (a - 0x6000) s
  else if 0xF000 ≤ a ∧ a < 0xF200 then s.hif.msix.getD ((a - 0xF000) / 4) 0
  else if a = 0xF800 then s.hif.pba
  else 0

/-- What a read latches: GTC_HI and PPS_CAP_HI (R19). -/
def regLatch (a : Nat) (s : State) : State :=
  if a = 0x4008 then { s with clk := { s.clk with gtcHi := gtcSeen s / 2 ^ 32 } }
  else if a = 0x401C then { s with clk := { s.clk with ppsCapHi := s.clk.ppsCap / 2 ^ 32 } }
  else s

/-! ## Writes -/

/-- W1C: a bit written 1 clears. -/
def w1c (b : Bool) (v n : Nat) : Bool := b && !bit v n

/-- A write of a ring block register (R35): RING_MOD takes effect at once at any time, the others while EN = 0. -/
def ringWrite (r o v : Nat) (s : State) : State :=
  let g := ringOf s r
  if o = 0x0C then
    let s := setRing r (fun g => { g with modTime := v / 2 ^ 16, modCount := v % 2 ^ 16 }) s
    let g := ringOf s r
    if 16 ≤ r ∧ g.en ∧ s.hif.ringsEn ∧ 0 < g.unsig ∧ max 1 g.modCount ≤ g.unsig then ringSignal r s else s
  else if g.en then s
  else match o with
  | 0x00 => setRing r (fun g => { g with base := hi32 g.base * 2 ^ 32 + v }) s
  | 0x04 => setRing r (fun g => { g with base := lo32 g.base + v * 2 ^ 32 }) s
  | 0x08 => if bit v 31 then after (execRingEnable r v s) s else setRing r (ringCfg v) s
  | 0x10 => setRing r (fun g => { g with shadow := hi32 g.shadow * 2 ^ 32 + v }) s
  | 0x14 => setRing r (fun g => { g with shadow := lo32 g.shadow + v * 2 ^ 32 }) s
  | _ => s

def hifWrite (a v : Nat) (s : State) : State :=
  match a with
  | 0x04 =>
    let s := { s with hif := { s.hif with errVec := bits v 8 5, sealReq := bit v 1 } }
    if bit v 0 then after (execRingsEnSet s) s else after (execRingsEnClear s) s
  | 0x08 => { s with hif := { s.hif with
      configLost := w1c s.hif.configLost v 3, detachSeen := w1c s.hif.detachSeen v 4, dmaFault := w1c s.hif.dmaFault v 5
      dbInvalid := w1c s.hif.dbInvalid v 6, heldOvf := w1c s.hif.heldOvf v 7 } }
  | 0x0C => { s with hif := { s.hif with intPend := s.hif.intPend &&& (0xFFFFFFFF - v) } }
  | 0x10 => { s with hif := { s.hif with intMask := v } }
  | 0x1C => after (execHifRingReset (v % 2 ^ 16) s) s
  | 0x20 => { s with hif := { s.hif with evqMap := v } }
  | _ => s

/-- SYS_ECH_MAP: every bit whose edge channel a PWMCH uses stays (R519). -/
def echMapWrite (v : Nat) (s : State) : State :=
  if s.isl.locked then s
  else { s with pg := { s.pg with echMap := bitsOf ((List.range 16).map fun m =>
    (m, if (pwmOnChan s (112 + m)).isSome then bit s.pg.echMap m else bit v m)) } }

def execSysEchMapWrite (v : Nat) (s : State) : Host.Outcome State Fault Refusal := .next (echMapWrite v s)

/-- Writes of the watchdog set-up, which the lock closes and FS-216 mode bars (R11, R471). -/
def wdtWrite (f : Isl → Isl) (s : State) : State := if s.isl.locked || hostBarred s then s else { s with isl := f s.isl }

/-- Writes of RWL registers. -/
def rwl (f : State → State) (s : State) : State := if s.isl.locked then s else f s

def islWrite (a v : Nat) (s : State) : State :=
  match a with
  | 0x00 => { s with isl := { s.isl with
      badService := w1c s.isl.badService v 9, lastgaspLost := w1c s.isl.lastgaspLost v 10, logWrapped := w1c s.isl.logWrapped v 11 } }
  | 0x04 => rwl (fun s => { s with isl := { s.isl with fltC1 := bit v 0, logC1 := bit v 1 } }) s
  | 0x08 => if bit v 0 then { s with isl := { s.isl with locked := true } } else s
  | 0x24 =>
    let s := wdtPauseSync (wdtWrite (fun i => { i with wdtDebugPause := bit v 2 }) s)
    if bit v 0 then wdtArm s else wdtDisarm s
  | 0x28 => wdtWrite (fun i => { i with wdtTimeout := max 10 (min 60000 (v % 2 ^ 16)) }) s
  | 0x2C => wdtWrite (fun i => { i with wdtWindow := v % 2 ^ 16 }) s
  | 0x94 => rwl (fun s => { s with pwr := { s.pwr with vddWarn := v % 64 } }) s
  | 0x98 => rwl (fun s => { s with pwr := { s.pwr with vbatWarn := max 60 (min 300 (v % 512)) } }) s
  | _ => s

def clkWrite (a v : Nat) (s : State) : State :=
  match a with
  | 0x04 => { s with clk := { s.clk with swRefused := w1c s.clk.swRefused v 7 } }
  | 0x10 =>
    let s := { s with clk := { s.clk with discGain := bits v 8 4, ppsFalling := bit v 4, freqMan := bit v 1 } }
    if bit v 0 then after (execGtcDiscEnable s) s else if s.clk.discEn then after (execGtcDiscDisable s) s else s
  | 0x14 => { s with clk := { s.clk with ppsRej := w1c s.clk.ppsRej v 3 } }
  | 0x18 => after (execGtcFreqAdjWrite (sx 32 v) s) s
  | _ => s

/-- A write of OSL_CTL is refused as a whole while a channel is ENABLED or for ROLE 0b11 (R27). -/
def oslWrite (a v : Nat) (s : State) : State :=
  match a with
  | 0x00 =>
    if s.isl.locked then s
    else if channelEnabled s || v % 4 == 3 then oslRefuse s
    else after (execOslSyncOutWrite (bit v 4) (takeRole (v % 4) s)) s
  | 0x04 => { s with osl := { s.osl with markSlip := w1c s.osl.markSlip v 6, skewFault := w1c s.osl.skewFault v 7 } }
  | _ => s

def trcWriteReg (a v : Nat) (s : State) : State :=
  let n := (a - 0x40) / 8
  if 0x40 ≤ a ∧ a < 0x80 then
    if a % 8 = 0 then { s with trc := { s.trc with probeH := s.trc.probeH.set n v } }
    else { s with trc := { s.trc with probeS := s.trc.probeS.set n (v % 2 ^ 16) } }
  else match a with
  | 0x00 => trcCtlWrite v s
  | 0x04 => { s with trc := { s.trc with done := w1c s.trc.done v 5, dropped := w1c s.trc.dropped v 6, cfgErr := w1c s.trc.cfgErr v 7 } }
  | 0x08 => { s with trc := { s.trc with clock := v } }
  | 0x0C => { s with trc := { s.trc with trig := v - bits v 7 9 * 2 ^ 7 } }
  | 0x10 => { s with trc := { s.trc with level := BitVec.ofNat 32 v } }
  | 0x14 => { s with trc := { s.trc with pre := v % 2 ^ 13 } }
  | 0x18 => { s with trc := { s.trc with post := v % 2 ^ 13 } }
  | _ => s

/-- A write of an MSI-X table word (R32): a vector that is unmasked while it is pending is sent, at RINGS_EN = 1 (R547). -/
def msixWrite (k v : Nat) (s : State) : State := pbaSend { s with hif := { s.hif with msix := s.hif.msix.set k v } }

/-- A host write of a BAR0 word; one that no table lists, and a read-only one, is ignored (R11). -/
def regWrite (a v : Nat) (s : State) : State :=
  if a = 0x10 then echMapWrite v s
  else if a < 0x1000 then s
  else if a < 0x1100 then hifWrite (a - 0x1000) v s
  else if a < 0x1100 + 0x20 * 38 then ringWrite ((a - 0x1100) / 0x20) ((a - 0x1100) % 0x20) v s
  else if a < 0x2000 then s
  else if a < 0x3000 then islWrite (a - 0x2000) v s
  else if a < 0x4000 then s
  else if a < 0x5000 then clkWrite (a - 0x4000) v s
  else if a < 0x6000 then oslWrite (a - 0x5000) v s
  else if a < 0x7000 then trcWriteReg (a - 0x6000) v s
  else if 0xF000 ≤ a ∧ a < 0xF200 then msixWrite ((a - 0xF000) / 4) v s
  else s

/-- In PARK everything but the island is powered down, and no access reaches a register (R501). -/
def hostReaches (s : State) : Bool := s.boot.mode != .parked

/-- REGISTER_WRITE: a host write of a 32-bit word at a byte address of BAR0. -/
def execRegisterWrite (addr value : Nat) (s : State) : Host.Outcome State Fault Refusal :=
  .next (if addr % 4 = 0 ∧ hostReaches s then regWrite addr (value % 2 ^ 32) s else s)

/-! ## Doorbell page and mailbox (R33, R46) -/

/-- A doorbell write; other offsets are ignored. -/
def doorbell (off v : Nat) (s : State) : State :=
  let n := off / 4
  if n < 16 then after (execSqTailDoorbell n v s) s
  else if n < 32 then after (execCqHeadDoorbell (n - 16) v s) s
  else if n < 36 then after (execEqHeadDoorbell (n - 32) v s) s
  else if n < 38 then after (execStreamHeadDoorbell (n - 36) v s) s
  else s

/-- A 32-bit write to a space: 0 BAR0, 1 mailbox, 2 doorbell page. -/
def spaceWrite (space off v : Nat) (s : State) : State :=
  if space = 0 then regWrite off v s
  else if space = 1 then { s with mailbox := memWriteN s.mailbox off (leBytes 4 v) }
  else if space = 2 then doorbell off v s
  else s

/-- A 32-bit read from a space: doorbells read as 0. -/
def spaceRead (space off : Nat) (s : State) : Nat × State :=
  if space = 0 then (regValue off s, regLatch off s)
  else if space = 1 then (leNat (memReadN s.mailbox off 4), s)
  else (0, s)

/-! ## The quad SPI slave (R33) -/

/-- The slave carries the native commands: not in FS-216 mode, where it carries legacy frames (R404, R408), nor in PARK. -/
def spiNative (s : State) : Bool := hostReaches s && s.boot.mode != .fs216

def setDiscarded (b : Bool) (s : State) : State := { s with hif := { s.hif with spiDiscarded := b } }

/-- Whole words written at rising offsets; bytes beyond the space and a trailing partial word are ignored. -/
def spiWords (space : Nat) : Nat → Nat → List Byte → State → State
  | 0, _, _, s => s
  | n + 1, off, bs, s =>
    if bs.length < 4 ∨ mailboxSize ≤ off then s
    else spiWords space n (off + 4) (bs.drop 4) (spaceWrite space off (u32 bs 0) s)

/-- A transaction that writes: address [23:16] selects the space. -/
def spiWrite (addr : Nat) (data : List Byte) (s : State) : State :=
  let space := bits addr 16 8
  let off := addr % 2 ^ 16
  if !spiNative s then s
  else if space = 1 then
    setDiscarded false { s with mailbox := memWriteN s.mailbox off (data.take (mailboxSize - off)) }
  else if off % 4 ≠ 0 ∨ 2 < space then setDiscarded true s
  else spiWords space data.length off data (setDiscarded false s)

/-- Whole words read at rising offsets. -/
def spiFetch (space : Nat) : Nat → Nat → State → List Byte × State
  | 0, _, s => ([], s)
  | n + 1, off, s =>
    if mailboxSize ≤ off then (List.replicate (4 * (n + 1)) 0, s)
    else
      let x := spaceRead space off s
      let y := spiFetch space n (off + 4) x.2
      (leBytes 4 x.1 ++ y.1, y.2)

/-- A transaction that reads `len` bytes. -/
def spiRead (addr len : Nat) (s : State) : State :=
  let space := bits addr 16 8
  let off := addr % 2 ^ 16
  if !spiNative s then s
  else if space = 1 then
    setDiscarded false { s with hif := { s.hif with readData := padTo len (memReadN s.mailbox off (min len (mailboxSize - off))) } }
  else if off % 4 ≠ 0 ∨ 2 < space then setDiscarded true { s with hif := { s.hif with readData := List.replicate len 0 } }
  else
    let x := spiFetch space (len / 4) off (setDiscarded false s)
    { x.2 with hif := { x.2.hif with readData := x.1 } }

def execSpiWrite (addr : Nat) (data : List Byte) (s : State) : Host.Outcome State Fault Refusal := .next (spiWrite addr data s)
def execSpiQwrite (addr : Nat) (data : List Byte) (s : State) : Host.Outcome State Fault Refusal := .next (spiWrite addr data s)
def execSpiRead (addr len : Nat) (s : State) : Host.Outcome State Fault Refusal := .next (spiRead addr len s)
def execSpiQread (addr len : Nat) (s : State) : Host.Outcome State Fault Refusal := .next (spiRead addr len s)

/-- SPI_STATUS: [0] ready, once the device serves rings (log 28), [1] the last transaction was discarded. -/
def execSpiStatus (s : State) : Host.Outcome State Fault Refusal :=
  .next (if !spiNative s then s
  else { s with hif := { s.hif with readData := leBytes 1 (b2n (modeServed s.boot.mode) + 2 * b2n s.hif.spiDiscarded) } })

/-- SPI_BAD_COMMAND: the rest of the transaction is ignored, and STATUS bit 1 is set. -/
def execSpiBadCommand (cmd : Nat) (s : State) : Host.Outcome State Fault Refusal :=
  .next (if !spiNative s || [0x02, 0x0B, 0x32, 0x6B, 0x05].contains (cmd % 256) then s else setDiscarded true s)

end Sys2Proof.Machine
end

