-- ==== Sys2Proof/Machine/LegacyFrame.lean ====
section
/-! DEFINITION. The legacy frame and its registers (14, R408 to R412, R417 to R419, R421, R424). -/

namespace Sys2Proof.Machine

/-! ## Frames and replies (R409, R410) -/

/-- The check byte over the three bytes above it. -/
def legCheck (w : Nat) : Nat := 0xFF - (bits w 24 8 + bits w 16 8 + bits w 8 8) % 256

/-- The reply to the previous frame; bit 31 while any STAT bit is set. -/
def legReply (s : State) : Nat :=
  match s.leg.reply with
  | none => 0x000000FF
  | some r =>
    let w := (if legStat s = 0 then 0 else 2 ^ 31) + r.1 * 2 ^ 24 + r.2 * 2 ^ 8
    w + legCheck w

/-- The reply goes out during a frame, most significant byte first. -/
def legShift (s : State) : State := { s with hif := { s.hif with readData := (leBytes 4 (legReply s)).reverse } }

def setReply (addr data : Nat) (s : State) : State := { s with leg := { s.leg with reply := some (addr, data) } }

/-- An invalid frame: no effect but STAT.FRAME, the count, FS_FRAME_ERROR and the error reply. -/
def legInvalid (code : Nat) (s : State) : State :=
  let s := { s with leg := { s.leg with stat := setBit s.leg.stat 6 true, framesBad := satInc 32 s.leg.framesBad } }
  setReply 0x7F code (raiseLimited secTicks 0x0E43 0 0 0 0 [] 4 4 s)

/-! ## Registers (R412) -/

/-- Current of a section: min(1,023, floor(I × CALGAIN / 10,240)) with I in mA (R418). -/
def legCurrent (s : State) (k : Nat) : Nat :=
  let i := ((legObj s k).map fun o => fVal (swOf o).current).getD 0
  min 1023 (i.toNat * 1000 * s.leg.calgain / (10240 * 2 ^ 149))

/-- The highest section junction temperature, to a whole degree (log 9). -/
def legTemp (s : State) : Int :=
  let ts := (List.range 16).filterMap fun k => (legObj s k).map fun o => fVal (swOf o).tj
  roundOpen 21 (ts.foldl max (ts.headD 0)) (2 ^ 149)

/-- LKSTAT. -/
def legLkstat (s : State) : Nat :=
  256 * s.leg.fails + 4 * b2n s.sec.legacyPwd + 2 * b2n s.leg.lockEnd.isSome + b2n s.leg.unlocked

/-- The 16 bits that a register holds; write-only and undefined ones read 0. -/
def legValue (a : Nat) (s : State) : Nat :=
  let l := s.leg
  if 0x10 ≤ a ∧ a < 0x20 then l.dly.getD (a - 0x10) 0
  else if 0x20 ≤ a ∧ a < 0x30 then legCurrent s (a - 0x20)
  else if 0x70 ≤ a ∧ ¬ l.unlocked then 0
  else match a with
  | 0x00 => 0x0216
  | 0x01 => 0x0105
  | 0x02 => l.out
  | 0x03 => legOutst s
  | 0x04 => legStat s
  | 0x05 => l.ocflt
  | 0x06 => l.otflt
  | 0x07 => l.olflt
  | 0x08 => l.mask
  | 0x09 => l.inten
  | 0x0A => l.stagger
  | 0x0B => l.cfg
  | 0x0C => s.pwr.vbat.getD 0 0 / 5
  | 0x0D => ux 16 (legTemp s)
  | 0x30 => l.calgain
  | 0x3B => legLkstat s
  | 0x70 => l.xctl
  | 0x71 => l.xaddr
  | 0x72 => l.xlo
  | 0x73 => l.xhi
  | 0x74 => 2 + b2n l.xdiscard
  | _ => 0

/-! ## Reads (R411, R419, R424) -/

/-- The window's address of its next access: bits [1:0] of XADDR are ignored. -/
def xOff (s : State) : Nat := s.leg.xaddr / 4 * 4

/-- An access through the window has been made to space 3. -/
def xDiscard (s : State) : State := { s with leg := { s.leg with xdiscard := true } }

/-- A read of XDATA_LO reads the word and latches its upper half. -/
def windowRead (s : State) : State :=
  if s.leg.xctl = 3 then xDiscard { s with leg := { s.leg with xlo := 0, xhi := 0 } }
  else
    let x := spaceRead s.leg.xctl (xOff s) s
    { x.2 with leg := { x.2.leg with xlo := x.1 % 2 ^ 16, xhi := x.1 / 2 ^ 16 } }

/-- XADDR += 4. -/
def windowNext (s : State) : State := { s with leg := { s.leg with xaddr := (s.leg.xaddr + 4) % 2 ^ 16 } }

/-- A read frame: the value, with what the read clears or moves on. -/
def legRead (a : Nat) (s : State) : Nat × State :=
  let s := if a = 0x72 ∧ s.leg.unlocked then windowRead s else s
  let v := legValue a s
  (v, match a with
    | 0x04 => { s with leg := { s.leg with stat := 0 } }
    | 0x05 => { s with leg := { s.leg with ocflt := 0 } }
    | 0x06 => { s with leg := { s.leg with otflt := 0 } }
    | 0x07 => { s with leg := { s.leg with olflt := 0 } }
    | 0x73 => if s.leg.unlocked then windowNext s else s
    | 0x74 => if s.leg.unlocked then { s with leg := { s.leg with xdiscard := false } } else s
    | _ => s)

/-! ## Writes (R411, R413, R415, R421, R424) -/

/-- A new CFG sets the retries and the open-load mode of every section (R416). -/
def legCfg (v : Nat) (s : State) : State :=
  (List.range 16).foldl (fun s k => updObj (legBase + k) (fun o => { o with params := legParams v k, act := legParams v k }) s)
    { s with leg := { s.leg with cfg := v % 16 } }

/-- SOFTRST: as entry, except that the password, FAILS and the watchdog are unchanged; a promotion goes on (R422, R426). -/
def legSoftReset (s : State) : State :=
  let p := s.leg.promoting
  let s := legEntry s
  { s with leg := { s.leg with promoting := p } }

/-- A write of XDATA_HI writes the word. -/
def windowWrite (v : Nat) (s : State) : State :=
  let s := { s with leg := { s.leg with xhi := v } }
  windowNext (if s.leg.xctl = 3 then xDiscard s else spaceWrite s.leg.xctl (xOff s) (v * 2 ^ 16 + s.leg.xlo) s)

/-- Registers whose writes take effect only while the password interface is unlocked. -/
def legRwp (a v : Nat) (s : State) : State :=
  if !s.leg.unlocked then s
  else if 0x10 ≤ a ∧ a < 0x20 then { s with leg := { s.leg with dly := s.leg.dly.set (a - 0x10) v } }
  else match a with
  | 0x08 => legFollow { s with leg := { s.leg with mask := v } }
  | 0x0A => { s with leg := { s.leg with stagger := v % 256 } }
  | 0x0B => legCfg v s
  | 0x30 => { s with leg := { s.leg with calgain := v % 4096 } }
  | 0x70 => { s with leg := { s.leg with xctl := v % 4 } }
  | 0x71 => { s with leg := { s.leg with xaddr := v } }
  | 0x72 => { s with leg := { s.leg with xlo := v } }
  | 0x73 => windowWrite v s
  | _ => s

/-- The security module reports non-approved from the first write of a password register on (R421). -/
def legSeen (s : State) : State := { s with sec := { s.sec with legacyPwd := true } }

/-- A write frame to register `a`, with the KEY_HI and PWD_HI of the valid frame before; it ends at the present GTC. -/
def legWrite (a v : Nat) (key pwd : Option Nat) (s : State) : State :=
  match a with
  | 0x02 => legOutWrite v s.gtc s
  | 0x09 => { s with leg := { s.leg with inten := v % 512 } }
  | 0x38 => legSeen { s with leg := { s.leg with keyHi := some v } }
  | 0x39 => legUnlock v key (legSeen s)
  | 0x3A => { s with leg := { s.leg with unlocked := false } }
  | 0x3C => let s := legSeen s; { s with leg := { s.leg with pwdHi := if s.leg.unlocked then some v else none } }
  | 0x3D =>
    let s := legSeen s
    match pwd with
    | some hi => if s.leg.unlocked then legNewPwd (hi * 2 ^ 16 + v) s else s
    | none => s
  | 0x3E => if v = 0xA5C3 then legSoftReset s else s
  | _ => legRwp a v s

/-- Why a valid frame is refused: 3 PROMOTING, 4 LOCKOUT. -/
def legRefuse (s : State) (a : Nat) (w : Bool) : Option Nat :=
  if w && s.leg.promoting && ([0x02, 0x08, 0x0A, 0x0B].contains a || decide (0x10 ≤ a ∧ a < 0x20)) then some 3
  else if w && s.leg.lockEnd.isSome && (a == 0x38 || a == 0x39) then some 4
  else none

/-- A valid frame is executed, and its reply is set. -/
def legExecute (w : Nat) (s : State) : State :=
  let a := bits w 24 7
  let v := bits w 8 16
  let key := s.leg.keyHi
  let pwd := s.leg.pwdHi
  let s := { s with leg := { s.leg with
    keyHi := none, pwdHi := none, framesOk := satInc 32 s.leg.framesOk, frameAt := s.gtc, armed := true } }
  let s := confirmByFrame s
  match legRefuse s a (bit w 31) with
  | some e => setReply 0x7F e s
  | none =>
    if bit w 31 then
      let s := legWrite a v key pwd s
      if a = 0x3E ∧ v = 0xA5C3 then s else setReply a (legValue a s) s
    else
      let x := legRead a s
      setReply a x.1 x.2

/-- LEGACY_FRAME: a frame of 32 clocks ends. -/
def execLegacyFrame (w : Nat) (s : State) : Host.Outcome State Fault Refusal :=
  .next (
    if !s.leg.active then s
    else
      let w := w % 2 ^ 32
      let s := legShift s
      if w % 256 = legCheck w then legExecute w s else legInvalid 2 s)

/-- LEGACY_INVALID_FRAME: a clock count other than 32, or a wrong check byte. -/
def execLegacyInvalidFrame (clocks w : Nat) (s : State) : Host.Outcome State Fault Refusal :=
  .next (
    if !s.leg.active then s
    else if clocks ≠ 32 then legInvalid 1 (legShift s)
    else if w % 256 ≠ legCheck (w % 2 ^ 32) then legInvalid 2 (legShift s)
    else s)

end Sys2Proof.Machine
end

