-- ==== Sys2Proof/Machine/Boundary.lean ====
section
/-! DEFINITION. What the clock brings about: the frame boundary (01, R22, R23), the tempo slots (03, R83), a PPS edge, and
what arrives over the Osund link (01, R26). -/

namespace Sys2Proof.Machine

/-! ## The frame boundary (R23) -/

/-- Types whose written block comes into force at the frame boundary (R64). A PWMCH takes its block at a period start, a
SOLENOID at an on command, an AXIS and a LOOP when their job runs. -/
def boundaryTypes : List Nat :=
  [tyNozzle, tyRow, tySection, tyFeedback, tySwitch, tyTable, tyCanport, tyGeopoint, tyLayer, tyWing, tyGroup]

/-- Blocks written since the last boundary come into force; one that changes a fixed field of a FAULTED object at its DISABLE. -/
def paramsBoundary (s : State) : State :=
  let changed := s.objs.filter fun o => boundaryTypes.contains o.typ && o.act != o.params
    && !(o.ost == .faulted && busyBad { o with params := o.act } o.params)
  let s := changed.foldl (fun s o => updObj o.idx (fun o => { o with act := o.params }) s) s
  (changed.filter fun o => o.typ == tySwitch).foldl (fun s o => swRefresh o.idx s) s

/-- The record prepared for this boundary is the machine's state (R135); its word is the GTC_FREQ_ADJ in force (R17). -/
def recordBoundary (b : Nat) (s : State) : State :=
  if u64 s.kin.rcdNext 4 = b then { s with kin := { s.kin with rcd := recordFreq s.clk.freqAdj s.kin.rcdNext } } else s

/-- A phase correction moves by at most 1/16 TCLK per frame (R28). -/
def phaseBoundary (s : State) : State :=
  { s with osl := { s.osl with phaseLeft := if 0 < s.osl.phaseLeft then s.osl.phaseLeft - 1 else if s.osl.phaseLeft < 0 then s.osl.phaseLeft + 1 else 0 } }

/-- Cost changes whose boundary has come and that belong to no pending descriptor (R82). -/
def costBoundary (b : Nat) (s : State) : State :=
  (s.eng.costs.filter fun c => c.tag == 0 && decide (c.boundary ≤ b)).foldl (fun s c => costApply c s) s

/-- Every shadow of the device loads: points, then the state, then the channels' compares, which are judged (R23, R197). -/
def shadowLoad (b : Nat) (s : State) : State :=
  let s := ((objsOf s tyGeopoint).filter isEnabled).foldl (geoLoad b) s
  let s := recordBoundary b s
  let s := cancelBoundary b s
  let s := isbBoundary b s
  let s := (objsOf s tySection).foldl (fun s o => secBoundary b o s) s
  (s.objs.filter fun o => isChan o && isEnabled o).foldl (fun s o => chBoundary b o s) s

/-- Set-up of the other units that takes effect at a boundary. -/
def unitsBoundary (b : Nat) (s : State) : State :=
  let s := (List.range 8).foldl (fun s n => tripBoundary n s) s
  let s := canBoundary (boardBoundary (boostBoundary s))
  let s := (objsOf s tyFeedback).foldl (fun s o => fbBoundary b o s) s
  encoBoundary s

/-- The device works a frame's boundary: in native or FS-216 mode, not asleep. -/
def running (s : State) : Bool := s.boot.mode == .native || s.boot.mode == .fs216

/-- The boundary that comes next: the one after the last, or the one that starts the present frame where that is later; the
GTC wraps after 2^64 ticks, and 0 is a boundary (R18, R22). -/
def dueBoundary (s : State) : Nat :=
  if s.gtc < s.isl.boundaryGtc then frameStart s.gtc
  else
    let b := max (s.isl.boundaryGtc + frameTicks) (frameStart s.gtc)
    if b < 2 ^ 64 then b else 0

/-- What happens at boundary `b` while the device runs. -/
def boundaryWork (b : Nat) (s : State) : State :=
  let s := phaseBoundary (freqAdjApply { s with osl := { s.osl with outbox := [] } })
  let s := shadowLoad b (paramsBoundary s)
  let s := unitsBoundary b s
  let s := linkBoundary b (lockBoundary b (lockPump (costBoundary b s)))
  let s := parkBoundary b s
  if s.trc.clock = 0 then trcTick b s else s

/-- FRAME_BOUNDARY: at a GTC multiple of 48,000. -/
def execFrameBoundary (s : State) : Host.Outcome State Fault Refusal :=
  .next (if s.boot.mode = .parked then s
  else
    let b := dueBoundary s
    let s := if b = 0 ∧ s.isl.boundaryGtc ≠ 0 then { s with gtc := 0 } else toInstant b s
    let s := { s with isl := { s.isl with boundaryGtc := b }, osl := { s.osl with bcastSeen := false } }
    let s := if s.osl.role = 1 then markOut b s else s
    if running s then boundaryWork b s else s)

/-! ## Tempo slots (R22, R83) -/

/-- A job that has ended within its slot is committed: the object's outputs and state, and its run of flag falls ends. `s0` is
the state at the slot's start, where a loop's inputs are latched (R231). -/
def jobRun (tk i : Nat) (s0 s : State) : State :=
  match objAt s i with
  | none => s
  | some o =>
    if !isEnabled o || axFaulting o then s
    else
      let s := updObj i (fun o => { o with ffConsec := 0 }) s
      if o.typ = tySection then secJob tk i s
      else if o.typ = tyNozzle ∨ o.typ = tyRow then chJob tk i s
      else if o.typ = tyLoop then loopSample tk i s0 s
      else axJob tk (tk + slotTicks) i s

/-- The fabric discards what a run produced whose placement epoch has been retired since the slot began, and counts it
(R89). -/
def jobDiscard (i : Nat) (s : State) : State := updObj i (fun o => { o with discarded := satInc 32 o.discarded }) s

/-- A run begun under a placement epoch ends: it is committed where that is still in force. -/
def jobCommit (tk : Nat) (o : Obj) (s0 s : State) : State :=
  if epochRetired s (handleOf o) o.epoch then jobDiscard o.idx s else jobRun tk o.idx s0 s

/-- An engine's jobs of a slot in order: from the first one that does not end on, they fall. -/
def engineRun (tk e slot : Nat) (late : List Nat) (s0 : State) : List Obj → State → State
  | [], s => s
  | o :: os, s =>
    if late.contains o.idx then
      let fs : List Falling := (o :: os).zipIdx.map fun x => { idx := x.1.idx, engine := e, slot := slot, victim := x.2 != 0 }
      { s with eng := { s.eng with falling := s.eng.falling ++ fs } }
    else engineRun tk e slot late s0 os (jobCommit tk o s0 s)

/-- The jobs of an engine that runs; those of one out of service all fall (R86), a halted one runs none. -/
def engineSlot (tk slot : Nat) (late : List Nat) (s0 s : State) (e : Nat) : State :=
  let js := jobsIn s0 e slot (frameNo tk)
  if s0.isl.halted.contains e then s
  else engineRun tk e slot (if engineOut s0 e then js.map (·.idx) else late) s0 js s

/-- TEMPO_SLOT_RUN: at the start of slot `slot` every engine runs its jobs; `late` names the objects whose jobs do not end
within it, which no command but this tells. At slot 7 the board's answers come in force. -/
def execTempoSlotRun (slot : Nat) (late : List Nat) (s : State) : Host.Outcome State Fault Refusal :=
  .next (if 16 ≤ slot ∨ ¬ running s then s
  else
    let tk := frameStart s.gtc + slotTicks * slot
    let s := toInstant tk s
    let s := if slot = 7 then answersInForce (frameStart tk) s else s
    (List.range 24).foldl (engineSlot tk slot late s) s)

/-! ## PPS (R20, R120) -/

/-- PPS_EDGE: captured at `t`, for the discipline and for the kinematics unit. -/
def execPpsEdge (t : Nat) (falling : Bool) (s : State) : Host.Outcome State Fault Refusal :=
  .next (kinPpsEdge t falling (clkPpsEdge t falling (toInstant t s)))

/-! ## Packets of the Osund link (R26) -/

/-- A device that has its position is counted, and counts as present (R27). -/
def enumerate (pos : Nat) (s : State) : State :=
  if s.osl.role ≠ 1 ∨ 7 < pos then s
  else { s with osl := { s.osl with
    devices := max s.osl.devices (pos + 1), absent := s.osl.absent.erase pos, asleep := s.osl.asleep.erase pos } }

/-- A fault record (R75, R91, R94): 0 a referenced object had a class 1 fault, 1 take the fault action, 2 GROUP_BROKEN. -/
def faultReceive (src : Nat) (b : List Byte) (s : State) : State :=
  let h := u32 b 1
  match u8 b 0 with
  | 0 => linkFault src h s
  | 1 => faultObj h s
  | _ => class1 h 0x034B (slice b 5 2) s

/-- A packet of a lock message as a message. -/
def lockOf (s : State) (b : List Byte) : LockMsg :=
  { group := u8 b 0, kind := u8 b 1, boundary := u64 b 2, members := (List.range (u8 b 10)).map fun k => (s.osl.position, u32 b (12 + 4 * k)) }

/-- A packet for this device is consumed. -/
def packetConsume (p : Packet) (s : State) : State :=
  let b := p.body
  match p.kind with
  | .bcast => after (execBroadcastReceive b p.src s) s
  | .mark => after (execMarkRecordArrival p.src false b s) s
  | .query => after (execMarkRecordArrival p.src true b s) s
  | .answer => after (execAnswerReceive b s) s
  | .sect => after (execSectionRecordReceive p.src b s) s
  | .lock => if s.osl.role = 2 then lockReceive (lockOf s b) s else s
  | .lockAck => { s with eng := { s.eng with unacked := s.eng.unacked.erase (u8 b 0, u64 b 1, p.src) } }
  | .refCheck => after (execClusterRefCheck (u32 b 0) (u8 b 5) (u8 b 4 == 1) s) s
  | .refReply => refReplied p.src (u32 b 0) (u16 b 4) s
  | .enum => enumerate p.src s
  | .fault => faultReceive p.src b s
  | .view => viewReceive b s
  | .chan => chanReport p.src b s
  | .asleep => { s with osl := { s.osl with asleep := if s.osl.asleep.contains p.src then s.osl.asleep else s.osl.asleep ++ [p.src] } }

/-- Send a packet on; the broadcast goes before all that wait, from this device's position (R26, R27). -/
def packetForward (p : Packet) (s : State) : State :=
  { s with osl := { s.osl with outbox :=
      if p.kind = .bcast then { p with src := s.osl.position } :: s.osl.outbox else s.osl.outbox ++ [p] } }

/-- OSL_PACKET_RECEIVE: a packet with a bad CRC is dropped; the broadcast is consumed and sent on, another packet is consumed
where it is addressed and forwarded elsewhere. -/
def execOslPacketReceive (p : Packet) (crcOk : Bool) (s : State) : Host.Outcome State Fault Refusal :=
  .next (
    if s.osl.role = 0 ∨ ¬ running s then s
    else if !crcOk then raise0 evCrcError 0 [] { s with osl := { s.osl with crcErrors := satInc 16 s.osl.crcErrors } }
    else if p.dst = 0xFF then
      if s.osl.role = 2 then
        let s := packetConsume p s
        if s.osl.dnLink then packetForward p s else s
      else s
    else if p.dst = s.osl.position then packetConsume p s
    else packetForward p s)

end Sys2Proof.Machine
end

