-- ==== Sys2Proof/Machine/Dispatch.lean ====
section
/-! DEFINITION. The meaning of each command: one arm for each constructor of `Instr`. -/

namespace Sys2Proof.Machine

def exec (i : Instr) (s : State) : Host.Outcome State Fault Refusal :=
  match i with
  | .registerWrite addr value => Sys2Proof.Machine.execRegisterWrite addr value s
  | .gtcLoRead => Sys2Proof.Machine.execGtcLoRead s
  | .ppsCapLoRead => Sys2Proof.Machine.execPpsCapLoRead s
  | .gtcDiscEnable => Sys2Proof.Machine.execGtcDiscEnable s
  | .gtcDiscDisable => Sys2Proof.Machine.execGtcDiscDisable s
  | .gtcFreqAdjWrite v => Sys2Proof.Machine.execGtcFreqAdjWrite v s
  | .ppsEdge t falling => Sys2Proof.Machine.execPpsEdge t falling s
  | .ppsHoldoverTimeout => Sys2Proof.Machine.execPpsHoldoverTimeout s
  | .frameBoundary => Sys2Proof.Machine.execFrameBoundary s
  | .tempoSlotRun slot late => Sys2Proof.Machine.execTempoSlotRun slot late s
  | .slotEnd slot => Sys2Proof.Machine.execSlotEnd slot s
  | .flagFallLimit h => Sys2Proof.Machine.execFlagFallLimit h s
  | .rebalanceCastle engine slot => Sys2Proof.Machine.execRebalanceCastle engine slot s
  | .pathIntegratorRun => Sys2Proof.Machine.execPathIntegratorRun s
  | .kinematicBroadcastSend => Sys2Proof.Machine.execKinematicBroadcastSend s
  | .broadcastReceive rec upPos => Sys2Proof.Machine.execBroadcastReceive rec upPos s
  | .broadcastDeadline => Sys2Proof.Machine.execBroadcastDeadline s
  | .oslBcastStale => Sys2Proof.Machine.execOslBcastStale s
  | .geopointPropagate => Sys2Proof.Machine.execGeopointPropagate s
  | .oslRoleWrite role => Sys2Proof.Machine.execOslRoleWrite role s
  | .oslSyncOutWrite on => Sys2Proof.Machine.execOslSyncOutWrite on s
  | .memberPllLock => Sys2Proof.Machine.execMemberPllLock s
  | .oslLaneTrained port => Sys2Proof.Machine.execOslLaneTrained port s
  | .coarseLoad boundary => Sys2Proof.Machine.execCoarseLoad boundary s
  | .skewExchange t1 t2 t3 t4 upOffset => Sys2Proof.Machine.execSkewExchange t1 t2 t3 t4 upOffset s
  | .oslCalDone => Sys2Proof.Machine.execOslCalDone s
  | .syncMarkiArrival t => Sys2Proof.Machine.execSyncMarkiArrival t s
  | .oslMarkSlip => Sys2Proof.Machine.execOslMarkSlip s
  | .syncClkiLoss => Sys2Proof.Machine.execSyncClkiLoss s
  | .upstreamSilence => Sys2Proof.Machine.execUpstreamSilence s
  | .oslMemberLost pos => Sys2Proof.Machine.execOslMemberLost pos s
  | .oslPacketReceive p crcOk => Sys2Proof.Machine.execOslPacketReceive p crcOk s
  | .spiWrite addr data => Sys2Proof.Machine.execSpiWrite addr data s
  | .spiRead addr len => Sys2Proof.Machine.execSpiRead addr len s
  | .spiQwrite addr data => Sys2Proof.Machine.execSpiQwrite addr data s
  | .spiQread addr len => Sys2Proof.Machine.execSpiQread addr len s
  | .spiStatus => Sys2Proof.Machine.execSpiStatus s
  | .spiBadCommand cmd => Sys2Proof.Machine.execSpiBadCommand cmd s
  | .ringEnable r cfg => Sys2Proof.Machine.execRingEnable r cfg s
  | .hifRingReset r => Sys2Proof.Machine.execHifRingReset r s
  | .hostDetach cause => Sys2Proof.Machine.execHostDetach cause s
  | .ringsEnClear => Sys2Proof.Machine.execRingsEnClear s
  | .ringsEnSet => Sys2Proof.Machine.execRingsEnSet s
  | .sqTailDoorbell n value => Sys2Proof.Machine.execSqTailDoorbell n value s
  | .cqHeadDoorbell n value => Sys2Proof.Machine.execCqHeadDoorbell n value s
  | .eqHeadDoorbell n value => Sys2Proof.Machine.execEqHeadDoorbell n value s
  | .streamHeadDoorbell n value => Sys2Proof.Machine.execStreamHeadDoorbell n value s
  | .descriptorFetch d => Sys2Proof.Machine.execDescriptorFetch d s
  | .heldEventDrain => Sys2Proof.Machine.execHeldEventDrain s
  | .interruptModerationTimeout r => Sys2Proof.Machine.execInterruptModerationTimeout r s
  | .hostDmaFault a => Sys2Proof.Machine.execHostDmaFault a s
  | .eventIntervalEnd code h sub => Sys2Proof.Machine.execEventIntervalEnd code h sub s
  | .nop d => Sys2Proof.Machine.execNop d s
  | .create d => Sys2Proof.Machine.execCreate d s
  | .destroy d => Sys2Proof.Machine.execDestroy d s
  | .setParams d => Sys2Proof.Machine.execSetParams d s
  | .getParams d => Sys2Proof.Machine.execGetParams d s
  | .enable d => Sys2Proof.Machine.execEnable d s
  | .enableTakeEffect h => Sys2Proof.Machine.execEnableTakeEffect h s
  | .disable d => Sys2Proof.Machine.execDisable d s
  | .disableTakeEffect h => Sys2Proof.Machine.execDisableTakeEffect h s
  | .getStatus d => Sys2Proof.Machine.execGetStatus d s
  | .ringSync d => Sys2Proof.Machine.execRingSync d s
  | .abort d => Sys2Proof.Machine.execAbort d s
  | .class1Fault h code => Sys2Proof.Machine.execClass1Fault h code s
  | .clusterRefCheck h ty release => Sys2Proof.Machine.execClusterRefCheck h ty release s
  | .clusterRefTimeout h pos => Sys2Proof.Machine.execClusterRefTimeout h pos s
  | .jobMove d => Sys2Proof.Machine.execJobMove d s
  | .castleCopyDone h => Sys2Proof.Machine.execCastleCopyDone h s
  | .castleTakeover h => Sys2Proof.Machine.execCastleTakeover h s
  | .engineStatus d => Sys2Proof.Machine.execEngineStatus d s
  | .engineRestore d pass => Sys2Proof.Machine.execEngineRestore d pass s
  | .engineHung engine => Sys2Proof.Machine.execEngineHung engine s
  | .tableSwap d => Sys2Proof.Machine.execTableSwap d s
  | .tableSwapTakeEffect h => Sys2Proof.Machine.execTableSwapTakeEffect h s
  | .tableSave d => Sys2Proof.Machine.execTableSave d s
  | .tableSaveWritten key => Sys2Proof.Machine.execTableSaveWritten key s
  | .tableRestore d => Sys2Proof.Machine.execTableRestore d s
  | .tableErase d => Sys2Proof.Machine.execTableErase d s
  | .tableList d => Sys2Proof.Machine.execTableList d s
  | .stageParams d => Sys2Proof.Machine.execStageParams d s
  | .groupCommit d => Sys2Proof.Machine.execGroupCommit d s
  | .groupCommitTakeEffect h => Sys2Proof.Machine.execGroupCommitTakeEffect h s
  | .groupLockMessage group kind boundary members => Sys2Proof.Machine.execGroupLockMessage group kind boundary members s
  | .groupLockUnacked h pos => Sys2Proof.Machine.execGroupLockUnacked h pos s
  | .smEventArrival h off code => Sys2Proof.Machine.execSmEventArrival h off code s
  | .smTimerExpiry h off timer => Sys2Proof.Machine.execSmTimerExpiry h off timer s
  | .kinSetConfig d => Sys2Proof.Machine.execKinSetConfig d s
  | .kinGetConfig d => Sys2Proof.Machine.execKinGetConfig d s
  | .kinSetOrigin d => Sys2Proof.Machine.execKinSetOrigin d s
  | .kinEnable d => Sys2Proof.Machine.execKinEnable d s
  | .kinEnableTakeEffect => Sys2Proof.Machine.execKinEnableTakeEffect s
  | .kinDisable d => Sys2Proof.Machine.execKinDisable d s
  | .kinDisableTakeEffect => Sys2Proof.Machine.execKinDisableTakeEffect s
  | .kinFix d => Sys2Proof.Machine.execKinFix d s
  | .kinGetState d => Sys2Proof.Machine.execKinGetState d s
  | .kinPredict d => Sys2Proof.Machine.execKinPredict d s
  | .nmeaSentence chars tFirst tLast framing => Sys2Proof.Machine.execNmeaSentence chars tFirst tLast framing s
  | .epochIdleClose => Sys2Proof.Machine.execEpochIdleClose s
  | .imuSample t frame => Sys2Proof.Machine.execImuSample t frame s
  | .imuTimeout => Sys2Proof.Machine.execImuTimeout s
  | .imuRecovered => Sys2Proof.Machine.execImuRecovered s
  | .estimatorRun => Sys2Proof.Machine.execEstimatorRun s
  | .kinPosReset => Sys2Proof.Machine.execKinPosReset s
  | .gnssTimeout => Sys2Proof.Machine.execGnssTimeout s
  | .drLimitExpiry => Sys2Proof.Machine.execDrLimitExpiry s
  | .headingTimeout => Sys2Proof.Machine.execHeadingTimeout s
  | .pathValidTimeout => Sys2Proof.Machine.execPathValidTimeout s
  | .standstillDetect => Sys2Proof.Machine.execStandstillDetect s
  | .speedSourceImplausible k => Sys2Proof.Machine.execSpeedSourceImplausible k s
  | .speedSourceRestore k => Sys2Proof.Machine.execSpeedSourceRestore k s
  | .isobusSpeedTimeout k => Sys2Proof.Machine.execIsobusSpeedTimeout k s
  | .reverseDetect => Sys2Proof.Machine.execReverseDetect s
  | .hitchImplausibleTimeout => Sys2Proof.Machine.execHitchImplausibleTimeout s
  | .hitchRestore => Sys2Proof.Machine.execHitchRestore s
  | .steerHoldExpiry => Sys2Proof.Machine.execSteerHoldExpiry s
  | .wingHoldExpiry h => Sys2Proof.Machine.execWingHoldExpiry h s
  | .wingSensorRestore h => Sys2Proof.Machine.execWingSensorRestore h s
  | .boardFlush d => Sys2Proof.Machine.execBoardFlush d s
  | .boardFlushDone h => Sys2Proof.Machine.execBoardFlushDone h s
  | .boardFlushTimeout h => Sys2Proof.Machine.execBoardFlushTimeout h s
  | .boardPaint d => Sys2Proof.Machine.execBoardPaint d s
  | .boardPaintDone h => Sys2Proof.Machine.execBoardPaintDone h s
  | .boardTileRead d => Sys2Proof.Machine.execBoardTileRead d s
  | .boardTileWrite d => Sys2Proof.Machine.execBoardTileWrite d s
  | .boardTileAddr d => Sys2Proof.Machine.execBoardTileAddr d s
  | .boardInvalidate d => Sys2Proof.Machine.execBoardInvalidate d s
  | .boardQuery d => Sys2Proof.Machine.execBoardQuery d s
  | .prefetchCorridor t => Sys2Proof.Machine.execPrefetchCorridor t s
  | .tileFetchDone h group tx ty data => Sys2Proof.Machine.execTileFetchDone h group tx ty data s
  | .tileWritebackDone h tx ty => Sys2Proof.Machine.execTileWritebackDone h tx ty s
  | .tileFlushTimer h tx ty => Sys2Proof.Machine.execTileFlushTimer h tx ty s
  | .boardHostAccessFail h kind tx ty => Sys2Proof.Machine.execBoardHostAccessFail h kind tx ty s
  | .tileHoldoutRetry h group tx ty => Sys2Proof.Machine.execTileHoldoutRetry h group tx ty s
  | .writebackRetry h tx ty => Sys2Proof.Machine.execWritebackRetry h tx ty s
  | .boardDegradedEnd h => Sys2Proof.Machine.execBoardDegradedEnd h s
  | .markRecordArrival pos query rec => Sys2Proof.Machine.execMarkRecordArrival pos query rec s
  | .boardWindow => Sys2Proof.Machine.execBoardWindow s
  | .lateQuery pos rec => Sys2Proof.Machine.execLateQuery pos rec s
  | .answerReceive rec => Sys2Proof.Machine.execAnswerReceive rec s
  | .schedChannelCmd d => Sys2Proof.Machine.execSchedChannelCmd d s
  | .schedSectionCmd d => Sys2Proof.Machine.execSchedSectionCmd d s
  | .schedGate d => Sys2Proof.Machine.execSchedGate d s
  | .schedRate d => Sys2Proof.Machine.execSchedRate d s
  | .schedCancel d => Sys2Proof.Machine.execSchedCancel d s
  | .schedLatencySet d => Sys2Proof.Machine.execSchedLatencySet d s
  | .schedLatencySave d => Sys2Proof.Machine.execSchedLatencySave d s
  | .schedLatencyErase d => Sys2Proof.Machine.execSchedLatencyErase d s
  | .predictorFire h lag => Sys2Proof.Machine.execPredictorFire h lag s
  | .prechargeFire h lag => Sys2Proof.Machine.execPrechargeFire h lag s
  | .latencyWindowClose h vbat t0 codes => Sys2Proof.Machine.execLatencyWindowClose h vbat t0 codes s
  | .schedLatencyShift h => Sys2Proof.Machine.execSchedLatencyShift h s
  | .schedValveStuck h => Sys2Proof.Machine.execSchedValveStuck h s
  | .latencyPeriodicSave => Sys2Proof.Machine.execLatencyPeriodicSave s
  | .sectionRecordReceive pos rec => Sys2Proof.Machine.execSectionRecordReceive pos rec s
  | .tcTimesResend h => Sys2Proof.Machine.execTcTimesResend h s
  | .rowNoSeedTimeout h => Sys2Proof.Machine.execRowNoSeedTimeout h s
  | .loopStage d => Sys2Proof.Machine.execLoopStage d s
  | .loopSeal d => Sys2Proof.Machine.execLoopSeal d s
  | .loopSetpoint d => Sys2Proof.Machine.execLoopSetpoint d s
  | .loopMode d => Sys2Proof.Machine.execLoopMode d s
  | .loopManual d => Sys2Proof.Machine.execLoopManual d s
  | .loopRc d => Sys2Proof.Machine.execLoopRc d s
  | .loopBankRead d => Sys2Proof.Machine.execLoopBankRead d s
  | .transferTimeExpiry h => Sys2Proof.Machine.execTransferTimeExpiry h s
  | .loopFeTimeout h => Sys2Proof.Machine.execLoopFeTimeout h s
  | .trcArm => Sys2Proof.Machine.execTrcArm s
  | .trcStop => Sys2Proof.Machine.execTrcStop s
  | .trcForce => Sys2Proof.Machine.execTrcForce s
  | .traceRecord => Sys2Proof.Machine.execTraceRecord s
  | .traceDrain => Sys2Proof.Machine.execTraceDrain s
  | .pgGroupConfig d => Sys2Proof.Machine.execPgGroupConfig d s
  | .pgTripConfig d => Sys2Proof.Machine.execPgTripConfig d s
  | .pgTripClear d => Sys2Proof.Machine.execPgTripClear d s
  | .pgCommConfig d => Sys2Proof.Machine.execPgCommConfig d s
  | .pgCommutate d => Sys2Proof.Machine.execPgCommutate d s
  | .pgStatus d => Sys2Proof.Machine.execPgStatus d s
  | .periodStart g => Sys2Proof.Machine.execPeriodStart g s
  | .pgCompareEdge h clr => Sys2Proof.Machine.execPgCompareEdge h clr s
  | .tripInputAssert n => Sys2Proof.Machine.execTripInputAssert n s
  | .tripReleaseClear n => Sys2Proof.Machine.execTripReleaseClear n s
  | .blankingEnd h => Sys2Proof.Machine.execBlankingEnd h s
  | .swnTransition p high t => Sys2Proof.Machine.execSwnTransition p high t s
  | .deadTimeMax h => Sys2Proof.Machine.execDeadTimeMax h s
  | .commutationInput g gpio level => Sys2Proof.Machine.execCommutationInput g gpio level s
  | .swCmd d => Sys2Proof.Machine.execSwCmd d s
  | .swCmdTakeEffect h => Sys2Proof.Machine.execSwCmdTakeEffect h s
  | .swClear d => Sys2Proof.Machine.execSwClear d s
  | .swGroupStatus d => Sys2Proof.Machine.execSwGroupStatus d s
  | .swInPinEdge gpio level => Sys2Proof.Machine.execSwInPinEdge gpio level s
  | .swCurrentLimit line t => Sys2Proof.Machine.execSwCurrentLimit line t s
  | .swLimitTimeout line => Sys2Proof.Machine.execSwLimitTimeout line s
  | .swShortCircuit line t => Sys2Proof.Machine.execSwShortCircuit line t s
  | .swRetryDelayEnd line => Sys2Proof.Machine.execSwRetryDelayEnd line s
  | .swThermalConditionEnd line => Sys2Proof.Machine.execSwThermalConditionEnd line s
  | .swDtLimitReached line tj tcase => Sys2Proof.Machine.execSwDtLimitReached line tj tcase s
  | .swDtRecover line tj tcase => Sys2Proof.Machine.execSwDtRecover line tj tcase s
  | .swThermalLatch line tj => Sys2Proof.Machine.execSwThermalLatch line tj s
  | .swFuseTick line codes tj tcase => Sys2Proof.Machine.execSwFuseTick line codes tj tcase s
  | .swClampEvent line us => Sys2Proof.Machine.execSwClampEvent line us s
  | .swOpenLoadInterval line us peak => Sys2Proof.Machine.execSwOpenLoadInterval line us peak s
  | .swGroupAverage => Sys2Proof.Machine.execSwGroupAverage s
  | .solBoostConfig d => Sys2Proof.Machine.execSolBoostConfig d s
  | .solCmd d => Sys2Proof.Machine.execSolCmd d s
  | .solClear d => Sys2Proof.Machine.execSolClear d s
  | .solBoostStatus d => Sys2Proof.Machine.execSolBoostStatus d s
  | .solOnCommand h => Sys2Proof.Machine.execSolOnCommand h s
  | .solOffCommand h => Sys2Proof.Machine.execSolOffCommand h s
  | .boostConverterPeriod t volts limit => Sys2Proof.Machine.execBoostConverterPeriod t volts limit s
  | .vboostReached t volts => Sys2Proof.Machine.execVboostReached t volts s
  | .boostWaitExpiry h => Sys2Proof.Machine.execBoostWaitExpiry h s
  | .boostOvervoltage volts => Sys2Proof.Machine.execBoostOvervoltage volts s
  | .boostEnd h t atCurrent => Sys2Proof.Machine.execBoostEnd h t atCurrent s
  | .peakEnd h => Sys2Proof.Machine.execPeakEnd h s
  | .solRegulatorThreshold h t upper => Sys2Proof.Machine.execSolRegulatorThreshold h t upper s
  | .solDecayEnd h t => Sys2Proof.Machine.execSolDecayEnd h t s
  | .solTripCurrent h t => Sys2Proof.Machine.execSolTripCurrent h t s
  | .solOpenTimeout h => Sys2Proof.Machine.execSolOpenTimeout h s
  | .solSignatureWindowClose h t0 codes last => Sys2Proof.Machine.execSolSignatureWindowClose h t0 codes last s
  | .axisTarget d => Sys2Proof.Machine.execAxisTarget d s
  | .axisStop d => Sys2Proof.Machine.execAxisStop d s
  | .axisCompare d => Sys2Proof.Machine.execAxisCompare d s
  | .axisHome d => Sys2Proof.Machine.execAxisHome d s
  | .axisSetPos d => Sys2Proof.Machine.execAxisSetPos d s
  | .generatorUpdate => Sys2Proof.Machine.execGeneratorUpdate s
  | .axisCompareFire h => Sys2Proof.Machine.execAxisCompareFire h s
  | .stepinEdge n t => Sys2Proof.Machine.execStepinEdge n t s
  | .stepinTimeout h => Sys2Proof.Machine.execStepinTimeout h s
  | .axisIdleTimeout h => Sys2Proof.Machine.execAxisIdleTimeout h s
  | .axisEnableSetupEnd h => Sys2Proof.Machine.execAxisEnableSetupEnd h s
  | .axisLimitAssert gpio level => Sys2Proof.Machine.execAxisLimitAssert gpio level s
  | .limitChatter h gpio => Sys2Proof.Machine.execLimitChatter h gpio s
  | .homeInputEdge gpio level => Sys2Proof.Machine.execHomeInputEdge gpio level s
  | .axisFeTimeout h => Sys2Proof.Machine.execAxisFeTimeout h s
  | .fbSetPos d => Sys2Proof.Machine.execFbSetPos d s
  | .fbClear d => Sys2Proof.Machine.execFbClear d s
  | .fbFilterSet d => Sys2Proof.Machine.execFbFilterSet d s
  | .fbEncoConfig d => Sys2Proof.Machine.execFbEncoConfig d s
  | .filteredEdge inp level t n => Sys2Proof.Machine.execFilteredEdge inp level t n s
  | .serialReadStart port => Sys2Proof.Machine.execSerialReadStart port s
  | .serialFrameDone port line bs => Sys2Proof.Machine.execSerialFrameDone port line bs s
  | .ainSample n t code => Sys2Proof.Machine.execAinSample n t code s
  | .ainRangeTimeout h => Sys2Proof.Machine.execAinRangeTimeout h s
  | .encoSynthStep j => Sys2Proof.Machine.execEncoSynthStep j s
  | .canSend d => Sys2Proof.Machine.execCanSend d s
  | .canRead d => Sys2Proof.Machine.execCanRead d s
  | .canReadDone h fifo => Sys2Proof.Machine.execCanReadDone h fifo s
  | .canFilterSet d => Sys2Proof.Machine.execCanFilterSet d s
  | .canTxConfig d => Sys2Proof.Machine.execCanTxConfig d s
  | .canTxRelease d => Sys2Proof.Machine.execCanTxRelease d s
  | .canSignalWrite d => Sys2Proof.Machine.execCanSignalWrite d s
  | .canWakeConfig d => Sys2Proof.Machine.execCanWakeConfig d s
  | .canInhOff d => Sys2Proof.Machine.execCanInhOff d s
  | .canFrameReceived h f t => Sys2Proof.Machine.execCanFrameReceived h f t s
  | .canFrameTransmitted h buf start t => Sys2Proof.Machine.execCanFrameTransmitted h buf start t s
  | .canTxError h e => Sys2Proof.Machine.execCanTxError h e s
  | .canPeriodicQueue h buf => Sys2Proof.Machine.execCanPeriodicQueue h buf s
  | .canBusOffRecovery h => Sys2Proof.Machine.execCanBusOffRecovery h s
  | .loneNode h => Sys2Proof.Machine.execLoneNode h s
  | .loneNodeThrottle h => Sys2Proof.Machine.execLoneNodeThrottle h s
  | .idcoll h buf => Sys2Proof.Machine.execIdcoll h buf s
  | .canWake reason port f => Sys2Proof.Machine.execCanWake reason port f s
  | .isbConfig d => Sys2Proof.Machine.execIsbConfig d s
  | .isbPoolLoad d => Sys2Proof.Machine.execIsbPoolLoad d s
  | .isbPoolSave d => Sys2Proof.Machine.execIsbPoolSave d s
  | .isbPgnSend d => Sys2Proof.Machine.execIsbPgnSend d s
  | .isbPgnRead d => Sys2Proof.Machine.execIsbPgnRead d s
  | .isbStatus d => Sys2Proof.Machine.execIsbStatus d s
  | .addressClaimStart => Sys2Proof.Machine.execAddressClaimStart s
  | .addressClaimTimeout => Sys2Proof.Machine.execAddressClaimTimeout s
  | .addressClaimReceived src name => Sys2Proof.Machine.execAddressClaimReceived src name s
  | .requestForAddressClaimed src => Sys2Proof.Machine.execRequestForAddressClaimed src s
  | .tpConnectionRequest src pgn size bcast => Sys2Proof.Machine.execTpConnectionRequest src pgn size bcast s
  | .tpMessageComplete send peer pgn prio data => Sys2Proof.Machine.execTpMessageComplete send peer pgn prio data s
  | .tpTimeout send peer pgn reason => Sys2Proof.Machine.execTpTimeout send peer pgn reason s
  | .tcStatusReceived inst addr version => Sys2Proof.Machine.execTcStatusReceived inst addr version s
  | .tcStatusLost => Sys2Proof.Machine.execTcStatusLost s
  | .tcPoolResponse ok err => Sys2Proof.Machine.execTcPoolResponse ok err s
  | .setpointCondensedWorkState group value t => Sys2Proof.Machine.execSetpointCondensedWorkState group value t s
  | .tcProcessData e pd value => Sys2Proof.Machine.execTcProcessData e pd value s
  | .measurementCommand e pd cmd value => Sys2Proof.Machine.execMeasurementCommand e pd cmd value s
  | .pdMeasurementTrigger k => Sys2Proof.Machine.execPdMeasurementTrigger k s
  | .workStateDisagreeTimeout h => Sys2Proof.Machine.execWorkStateDisagreeTimeout h s
  | .legacyFrame w => Sys2Proof.Machine.execLegacyFrame w s
  | .legacyInvalidFrame clocks w => Sys2Proof.Machine.execLegacyInvalidFrame clocks w s
  | .legacyTick => Sys2Proof.Machine.execLegacyTick s
  | .enaNEdge high => Sys2Proof.Machine.execEnaNEdge high s
  | .legacyComloss => Sys2Proof.Machine.execLegacyComloss s
  | .legacyLockoutEnd => Sys2Proof.Machine.execLegacyLockoutEnd s
  | .fsPromote d => Sys2Proof.Machine.execFsPromote d s
  | .fsStatus d => Sys2Proof.Machine.execFsStatus d s
  | .promotionTakeEffect => Sys2Proof.Machine.execPromotionTakeEffect s
  | .secInfo d => Sys2Proof.Machine.execSecInfo d s
  | .secChallenge d => Sys2Proof.Machine.execSecChallenge d s
  | .secOpen d => Sys2Proof.Machine.execSecOpen d s
  | .secClose d => Sys2Proof.Machine.execSecClose d s
  | .secProvision d => Sys2Proof.Machine.execSecProvision d s
  | .secKeyLoad d => Sys2Proof.Machine.execSecKeyLoad d s
  | .secKeyErase d => Sys2Proof.Machine.execSecKeyErase d s
  | .secPolicy d => Sys2Proof.Machine.execSecPolicy d s
  | .secFwBegin d => Sys2Proof.Machine.execSecFwBegin d s
  | .secFwWrite d => Sys2Proof.Machine.execSecFwWrite d s
  | .secFwCommit d => Sys2Proof.Machine.execSecFwCommit d s
  | .secDebugUnlock d => Sys2Proof.Machine.execSecDebugUnlock d s
  | .secZeroize d => Sys2Proof.Machine.execSecZeroize d s
  | .challengeExpiry sq => Sys2Proof.Machine.execChallengeExpiry sq s
  | .sessionIdleTimeout sq => Sys2Proof.Machine.execSessionIdleTimeout sq s
  | .sessionTagFailures sq => Sys2Proof.Machine.execSessionTagFailures sq s
  | .secLockoutEnd slot => Sys2Proof.Machine.execSecLockoutEnd slot s
  | .zeroizePin => Sys2Proof.Machine.execZeroizePin s
  | .zeroizeEraseDone => Sys2Proof.Machine.execZeroizeEraseDone s
  | .islWdtService d => Sys2Proof.Machine.execIslWdtService d s
  | .islFaultClear d => Sys2Proof.Machine.execIslFaultClear d s
  | .faultClearTakeEffect => Sys2Proof.Machine.execFaultClearTakeEffect s
  | .islReset d => Sys2Proof.Machine.execIslReset d s
  | .softResetStart => Sys2Proof.Machine.execSoftResetStart s
  | .islLogRead d => Sys2Proof.Machine.execIslLogRead d s
  | .islLockWrite => Sys2Proof.Machine.execIslLockWrite s
  | .wdtArm => Sys2Proof.Machine.execWdtArm s
  | .wdtDisarm => Sys2Proof.Machine.execWdtDisarm s
  | .estopNLow => Sys2Proof.Machine.execEstopNLow s
  | .estopReleaseTimer => Sys2Proof.Machine.execEstopReleaseTimer s
  | .watchdogExpiry => Sys2Proof.Machine.execWatchdogExpiry s
  | .holdTimerExpiry => Sys2Proof.Machine.execHoldTimerExpiry s
  | .tclkStop => Sys2Proof.Machine.execTclkStop s
  | .pllUnlock => Sys2Proof.Machine.execPllUnlock s
  | .aclkFreqDeviation ppm => Sys2Proof.Machine.execAclkFreqDeviation ppm s
  | .debugHalt engine => Sys2Proof.Machine.execDebugHalt engine s
  | .pdieLinkLoss => Sys2Proof.Machine.execPdieLinkLoss s
  | .vioFLow => Sys2Proof.Machine.execVioFLow s
  | .vioHLow => Sys2Proof.Machine.execVioHLow s
  | .vddWarning mv => Sys2Proof.Machine.execVddWarning mv s
  | .vddWarningEnd mv lowest => Sys2Proof.Machine.execVddWarningEnd mv lowest s
  | .vddWarningSustained => Sys2Proof.Machine.execVddWarningSustained s
  | .brownOutReset => Sys2Proof.Machine.execBrownOutReset s
  | .powerOnReset => Sys2Proof.Machine.execPowerOnReset s
  | .resetNLow => Sys2Proof.Machine.execResetNLow s
  | .vbatUvloEnter group mv => Sys2Proof.Machine.execVbatUvloEnter group mv s
  | .vbatUvloLeave group mv => Sys2Proof.Machine.execVbatUvloLeave group mv s
  | .vbatWarningEnter group mv => Sys2Proof.Machine.execVbatWarningEnter group mv s
  | .vbatWarningLeave group mv => Sys2Proof.Machine.execVbatWarningLeave group mv s
  | .vbatHighEnter group mv => Sys2Proof.Machine.execVbatHighEnter group mv s
  | .vbatHighLeave group mv => Sys2Proof.Machine.execVbatHighLeave group mv s
  | .pwrSleep d => Sys2Proof.Machine.execPwrSleep d s
  | .sleepEntry => Sys2Proof.Machine.execSleepEntry s
  | .sleepComplete t => Sys2Proof.Machine.execSleepComplete t s
  | .wakeSource reason t => Sys2Proof.Machine.execWakeSource reason t s
  | .wakeTimerExpiry => Sys2Proof.Machine.execWakeTimerExpiry s
  | .pwrPark d => Sys2Proof.Machine.execPwrPark d s
  | .pwrWakeConfig d => Sys2Proof.Machine.execPwrWakeConfig d s
  | .pwrBootPolicy d => Sys2Proof.Machine.execPwrBootPolicy d s
  | .pwrBootConfirm d => Sys2Proof.Machine.execPwrBootConfirm d s
  | .pwrBootReport d => Sys2Proof.Machine.execPwrBootReport d s
  | .pwrRetryBoot d => Sys2Proof.Machine.execPwrRetryBoot d s
  | .resetRelease straps => Sys2Proof.Machine.execResetRelease straps s
  | .bootStageComplete t => Sys2Proof.Machine.execBootStageComplete t s
  | .bootStageFail err alg => Sys2Proof.Machine.execBootStageFail err alg s
  | .endOfBoot t => Sys2Proof.Machine.execEndOfBoot t s
  | .bootConfirmTimeout => Sys2Proof.Machine.execBootConfirmTimeout s
  | .sysEchMapWrite v => Sys2Proof.Machine.execSysEchMapWrite v s
  | .pcieLinkTrained lanes => Sys2Proof.Machine.execPcieLinkTrained lanes s
  | .latencyRecordsWritten => Sys2Proof.Machine.execLatencyRecordsWritten s
  | .parkWritesDone => Sys2Proof.Machine.execParkWritesDone s
  | .estopNHigh => Sys2Proof.Machine.execEstopNHigh s
  | .zeroizeNHigh => Sys2Proof.Machine.execZeroizeNHigh s
  | .vioFRecovered => Sys2Proof.Machine.execVioFRecovered s
  | .vioHRecovered => Sys2Proof.Machine.execVioHRecovered s
  | .pdieLinkRestored => Sys2Proof.Machine.execPdieLinkRestored s
  | .engineDebugResume engine => Sys2Proof.Machine.execEngineDebugResume engine s
  | .tripInputRelease n => Sys2Proof.Machine.execTripInputRelease n s

end Sys2Proof.Machine
end

