-- ==== Sys2Proof/WellFormed.lean ====
section
/-! DEFINITION. Well-formed commands: every operand within the range that its field, counter, pin or unit number has
(R7, R8, R34, R37, R58). The meanings are total and need no such premise; statements use it where a range matters. -/

namespace Sys2Proof

/-- A number below a limit. -/
def under (k n : Nat) : Bool := decide (n < k)

def w8 (n : Nat) : Bool := under (2 ^ 8) n
def w16 (n : Nat) : Bool := under (2 ^ 16) n
/-- A parameter group number has 18 bits (R391). -/
def w18 (n : Nat) : Bool := under (2 ^ 18) n
def w32 (n : Nat) : Bool := under (2 ^ 32) n
def w64 (n : Nat) : Bool := under (2 ^ 64) n
/-- A signed number of 32 bits. -/
def i32 (i : Int) : Bool := decide (-2 ^ 31 ≤ i ∧ i < 2 ^ 31)

/-- A descriptor: one of 16 submission rings, 64 bytes (R37), a block of at most 256 KiB (R38). -/
def Desc.wf (d : Desc) : Bool := under 16 d.sq && d.bytes.length == 64 && decide (d.block.length ≤ 2 ^ 18)

/-- The descriptor's opcode, bytes 0 and 1 (R37). -/
def Desc.isOp (code : Nat) (d : Desc) : Bool := leNat (d.bytes.take 2) == code

/-- A link packet between positions of a cluster (R26). -/
def Packet.wf (p : Packet) : Bool := under 16 p.src && under 256 p.dst

/-- A failed access names a ring that exists (R34, R67). -/
def DmaAccess.wf : DmaAccess → Bool
  | .fetch sq addr => under 16 sq && w64 addr
  | .entry ring addr => under 38 ring && w64 addr
  | .shadow sq addr => under 16 sq && w64 addr
  | .block d addr => d.wf && w64 addr

/-- A digital input that the device has (R350, R352). -/
def Inp.wf : Inp → Bool
  | .encA n => under 16 n
  | .encB n => under 16 n
  | .encAB n => under 16 n
  | .encZ n => under 16 n
  | .pulse n => under 8 n
  | .gpio n => under 48 n
  | .stepin n => under 8 n

/-- A CAN frame: an identifier of 11 or 29 bits with the format bit, at most 64 data bytes (R376). -/
def CanFrame.wf (f : CanFrame) : Bool := under (2 ^ 31) f.id && decide (f.data.length ≤ 64)

/-- A well-formed command. -/
def Instr.wf : Instr → Bool
  | .registerWrite addr value => w32 addr && w32 value
  | .gtcLoRead => true
  | .ppsCapLoRead => true
  | .gtcDiscEnable => true
  | .gtcDiscDisable => true
  | .gtcFreqAdjWrite v => i32 v
  | .ppsEdge t _ => w64 t
  | .ppsHoldoverTimeout => true
  | .frameBoundary => true
  | .tempoSlotRun slot late => under 16 slot && late.all w32
  | .slotEnd slot => under 16 slot
  | .flagFallLimit h => w32 h
  | .rebalanceCastle engine slot => under 24 engine && under 16 slot
  | .pathIntegratorRun => true
  | .kinematicBroadcastSend => true
  | .broadcastReceive _ upPos => under 16 upPos
  | .broadcastDeadline => true
  | .oslBcastStale => true
  | .geopointPropagate => true
  | .oslRoleWrite role => under 4 role
  | .oslSyncOutWrite _ => true
  | .memberPllLock => true
  | .oslLaneTrained port => under 2 port
  | .coarseLoad boundary => w64 boundary && boundary % frameTicks == 0
  | .skewExchange _ _ _ _ _ => true
  | .oslCalDone => true
  | .syncMarkiArrival t => w64 t
  | .oslMarkSlip => true
  | .syncClkiLoss => true
  | .upstreamSilence => true
  | .oslMemberLost pos => under 16 pos
  | .oslPacketReceive p _ => p.wf
  | .spiWrite addr _ => w32 addr
  | .spiRead addr _ => w32 addr
  | .spiQwrite addr _ => w32 addr
  | .spiQread addr _ => w32 addr
  | .spiStatus => true
  | .spiBadCommand cmd => w8 cmd
  | .ringEnable r cfg => under 38 r && w32 cfg
  | .hifRingReset r => w16 r
  | .hostDetach cause => under 6 cause
  | .ringsEnClear => true
  | .ringsEnSet => true
  | .sqTailDoorbell n value => under 16 n && w32 value
  | .cqHeadDoorbell n value => under 16 n && w32 value
  | .eqHeadDoorbell n value => under 4 n && w32 value
  | .streamHeadDoorbell n value => under 2 n && w32 value
  | .descriptorFetch d => d.wf
  | .heldEventDrain => true
  | .interruptModerationTimeout r => under 38 r
  | .hostDmaFault a => a.wf
  | .eventIntervalEnd code h _ => w16 code && w32 h
  | .nop d => d.wf && d.isOp 0x0000
  | .create d => d.wf && d.isOp 0x0001
  | .destroy d => d.wf && d.isOp 0x0002
  | .setParams d => d.wf && d.isOp 0x0003
  | .getParams d => d.wf && d.isOp 0x0004
  | .enable d => d.wf && d.isOp 0x0005
  | .enableTakeEffect h => w32 h
  | .disable d => d.wf && d.isOp 0x0006
  | .disableTakeEffect h => w32 h
  | .getStatus d => d.wf && d.isOp 0x0007
  | .ringSync d => d.wf && d.isOp 0x0008
  | .abort d => d.wf && d.isOp 0x0009
  | .class1Fault h code => w64 h && w16 code
  | .clusterRefCheck h ty _ => w32 h && w16 ty
  | .clusterRefTimeout h pos => w32 h && under 16 pos
  | .jobMove d => d.wf && d.isOp 0x0300
  | .castleCopyDone h => w32 h
  | .castleTakeover h => w32 h
  | .engineStatus d => d.wf && d.isOp 0x0301
  | .engineRestore d _ => d.wf && d.isOp 0x0302
  | .engineHung engine => under 24 engine
  | .tableSwap d => d.wf && d.isOp 0x0303
  | .tableSwapTakeEffect h => w32 h
  | .tableSave d => d.wf && d.isOp 0x0304
  | .tableSaveWritten key => w16 key
  | .tableRestore d => d.wf && d.isOp 0x0305
  | .tableErase d => d.wf && d.isOp 0x0306
  | .tableList d => d.wf && d.isOp 0x0307
  | .stageParams d => d.wf && d.isOp 0x0308
  | .groupCommit d => d.wf && d.isOp 0x0309
  | .groupCommitTakeEffect h => w32 h
  | .groupLockMessage group kind boundary members => under 8 group && under 3 kind && w64 boundary && members.all w32
  | .groupLockUnacked h pos => w32 h && under 16 pos
  | .smEventArrival h off code => w32 h && w16 off && w16 code
  | .smTimerExpiry h off timer => w32 h && w16 off && under 8 timer
  | .kinSetConfig d => d.wf && d.isOp 0x0400
  | .kinGetConfig d => d.wf && d.isOp 0x0401
  | .kinSetOrigin d => d.wf && d.isOp 0x0402
  | .kinEnable d => d.wf && d.isOp 0x0403
  | .kinEnableTakeEffect => true
  | .kinDisable d => d.wf && d.isOp 0x0404
  | .kinDisableTakeEffect => true
  | .kinFix d => d.wf && d.isOp 0x0405
  | .kinGetState d => d.wf && d.isOp 0x0406
  | .kinPredict d => d.wf && d.isOp 0x0407
  | .nmeaSentence _ tFirst tLast _ => w64 tFirst && w64 tLast
  | .epochIdleClose => true
  | .imuSample t _ => w64 t
  | .imuTimeout => true
  | .imuRecovered => true
  | .estimatorRun => true
  | .kinPosReset => true
  | .gnssTimeout => true
  | .drLimitExpiry => true
  | .headingTimeout => true
  | .pathValidTimeout => true
  | .standstillDetect => true
  | .speedSourceImplausible k => under 4 k
  | .speedSourceRestore k => under 4 k
  | .isobusSpeedTimeout k => under 4 k
  | .reverseDetect => true
  | .hitchImplausibleTimeout => true
  | .hitchRestore => true
  | .steerHoldExpiry => true
  | .wingHoldExpiry h => w32 h
  | .wingSensorRestore h => w32 h
  | .boardFlush d => d.wf && d.isOp 0x0500
  | .boardFlushDone h => w32 h
  | .boardFlushTimeout h => w32 h
  | .boardPaint d => d.wf && d.isOp 0x0501
  | .boardPaintDone h => w32 h
  | .boardTileRead d => d.wf && d.isOp 0x0502
  | .boardTileWrite d => d.wf && d.isOp 0x0503
  | .boardTileAddr d => d.wf && d.isOp 0x0504
  | .boardInvalidate d => d.wf && d.isOp 0x0505
  | .boardQuery d => d.wf && d.isOp 0x0506
  | .prefetchCorridor t => w64 t
  | .tileFetchDone h _ tx ty _ => w32 h && w16 tx && w16 ty
  | .tileWritebackDone h tx ty => w32 h && w16 tx && w16 ty
  | .tileFlushTimer h tx ty => w32 h && w16 tx && w16 ty
  | .boardHostAccessFail h kind tx ty => w32 h && under 3 kind && w16 tx && w16 ty
  | .tileHoldoutRetry h _ tx ty => w32 h && w16 tx && w16 ty
  | .writebackRetry h tx ty => w32 h && w16 tx && w16 ty
  | .boardDegradedEnd h => w32 h
  | .markRecordArrival pos _ _ => under 16 pos
  | .boardWindow => true
  | .lateQuery pos _ => under 16 pos
  | .answerReceive _ => true
  | .schedChannelCmd d => d.wf && d.isOp 0x0600
  | .schedSectionCmd d => d.wf && d.isOp 0x0601
  | .schedGate d => d.wf && d.isOp 0x0602
  | .schedRate d => d.wf && d.isOp 0x0603
  | .schedCancel d => d.wf && d.isOp 0x0604
  | .schedLatencySet d => d.wf && d.isOp 0x0605
  | .schedLatencySave d => d.wf && d.isOp 0x0606
  | .schedLatencyErase d => d.wf && d.isOp 0x0607
  | .predictorFire h _ => w32 h
  | .prechargeFire h _ => w32 h
  | .latencyWindowClose h vbat t0 _ => w32 h && w16 vbat && w64 t0
  | .schedLatencyShift h => w32 h
  | .schedValveStuck h => w32 h
  | .latencyPeriodicSave => true
  | .sectionRecordReceive pos _ => under 16 pos
  | .tcTimesResend h => w32 h
  | .rowNoSeedTimeout h => w32 h
  | .loopStage d => d.wf && d.isOp 0x0700
  | .loopSeal d => d.wf && d.isOp 0x0701
  | .loopSetpoint d => d.wf && d.isOp 0x0702
  | .loopMode d => d.wf && d.isOp 0x0703
  | .loopManual d => d.wf && d.isOp 0x0704
  | .loopRc d => d.wf && d.isOp 0x0705
  | .loopBankRead d => d.wf && d.isOp 0x0706
  | .transferTimeExpiry h => w32 h
  | .loopFeTimeout h => w32 h
  | .trcArm => true
  | .trcStop => true
  | .trcForce => true
  | .traceRecord => true
  | .traceDrain => true
  | .pgGroupConfig d => d.wf && d.isOp 0x0800
  | .pgTripConfig d => d.wf && d.isOp 0x0801
  | .pgTripClear d => d.wf && d.isOp 0x0802
  | .pgCommConfig d => d.wf && d.isOp 0x0803
  | .pgCommutate d => d.wf && d.isOp 0x0804
  | .pgStatus d => d.wf && d.isOp 0x0805
  | .periodStart g => under 16 g
  | .pgCompareEdge h _ => w32 h
  | .tripInputAssert n => under 8 n
  | .tripReleaseClear n => under 8 n
  | .blankingEnd h => w32 h
  | .swnTransition p _ t => under 32 p && w64 t
  | .deadTimeMax h => w32 h
  | .commutationInput g gpio _ => under 16 g && under 48 gpio
  | .swCmd d => d.wf && d.isOp 0x0900
  | .swCmdTakeEffect h => w32 h
  | .swClear d => d.wf && d.isOp 0x0901
  | .swGroupStatus d => d.wf && d.isOp 0x0902
  | .swInPinEdge gpio _ => under 48 gpio
  | .swCurrentLimit line t => under 48 line && w64 t
  | .swLimitTimeout line => under 48 line
  | .swShortCircuit line t => under 48 line && w64 t
  | .swRetryDelayEnd line => under 48 line
  | .swThermalConditionEnd line => under 48 line
  | .swDtLimitReached line _ _ => under 48 line
  | .swDtRecover line _ _ => under 48 line
  | .swThermalLatch line _ => under 48 line
  | .swFuseTick line codes _ _ => under 48 line && decide (codes.length ≤ 1000)
  | .swClampEvent line us => under 48 line && w32 us
  | .swOpenLoadInterval line us peak => under 48 line && w32 us && w32 peak
  | .swGroupAverage => true
  | .solBoostConfig d => d.wf && d.isOp 0x0A00
  | .solCmd d => d.wf && d.isOp 0x0A01
  | .solClear d => d.wf && d.isOp 0x0A02
  | .solBoostStatus d => d.wf && d.isOp 0x0A03
  | .solOnCommand h => w32 h
  | .solOffCommand h => w32 h
  | .boostConverterPeriod t _ _ => w64 t
  | .vboostReached t _ => w64 t
  | .boostWaitExpiry h => w32 h
  | .boostOvervoltage _ => true
  | .boostEnd h t _ => w32 h && w64 t
  | .peakEnd h => w32 h
  | .solRegulatorThreshold h t _ => w32 h && w64 t
  | .solDecayEnd h t => w32 h && w64 t
  | .solTripCurrent h t => w32 h && w64 t
  | .solOpenTimeout h => w32 h
  | .solSignatureWindowClose h t0 _ _ => w32 h && w64 t0
  | .axisTarget d => d.wf && d.isOp 0x0B00
  | .axisStop d => d.wf && d.isOp 0x0B01
  | .axisCompare d => d.wf && d.isOp 0x0B02
  | .axisHome d => d.wf && d.isOp 0x0B03
  | .axisSetPos d => d.wf && d.isOp 0x0B04
  | .generatorUpdate => true
  | .axisCompareFire h => w32 h
  | .stepinEdge n t => under 8 n && w64 t
  | .stepinTimeout h => w32 h
  | .axisIdleTimeout h => w32 h
  | .axisEnableSetupEnd h => w32 h
  | .axisLimitAssert gpio _ => under 48 gpio
  | .limitChatter h gpio => w32 h && under 48 gpio
  | .homeInputEdge gpio _ => under 48 gpio
  | .axisFeTimeout h => w32 h
  | .fbSetPos d => d.wf && d.isOp 0x0C00
  | .fbClear d => d.wf && d.isOp 0x0C01
  | .fbFilterSet d => d.wf && d.isOp 0x0C02
  | .fbEncoConfig d => d.wf && d.isOp 0x0C03
  | .filteredEdge inp _ t n => inp.wf && w64 t && w32 n
  | .serialReadStart port => under 4 port
  | .serialFrameDone port _ _ => under 4 port
  | .ainSample n t code => under 16 n && w64 t && under 4096 code
  | .ainRangeTimeout h => w32 h
  | .encoSynthStep j => under 2 j
  | .canSend d => d.wf && d.isOp 0x0D00
  | .canRead d => d.wf && d.isOp 0x0D01
  | .canReadDone h fifo => w32 h && under 8 fifo
  | .canFilterSet d => d.wf && d.isOp 0x0D02
  | .canTxConfig d => d.wf && d.isOp 0x0D03
  | .canTxRelease d => d.wf && d.isOp 0x0D04
  | .canSignalWrite d => d.wf && d.isOp 0x0D05
  | .canWakeConfig d => d.wf && d.isOp 0x0D06
  | .canInhOff d => d.wf && d.isOp 0x0D07
  | .canFrameReceived h f t => w32 h && f.wf && w64 t
  | .canFrameTransmitted h buf start t => w32 h && under 32 buf && w64 start && w64 t
  | .canTxError h _ => w32 h
  | .canPeriodicQueue h buf => w32 h && under 32 buf
  | .canBusOffRecovery h => w32 h
  | .loneNode h => w32 h
  | .loneNodeThrottle h => w32 h
  | .idcoll h buf => w32 h && under 32 buf
  | .canWake _ _ f => f.wf
  | .isbConfig d => d.wf && d.isOp 0x0D08
  | .isbPoolLoad d => d.wf && d.isOp 0x0D09
  | .isbPoolSave d => d.wf && d.isOp 0x0D0A
  | .isbPgnSend d => d.wf && d.isOp 0x0D0B
  | .isbPgnRead d => d.wf && d.isOp 0x0D0C
  | .isbStatus d => d.wf && d.isOp 0x0D0D
  | .addressClaimStart => true
  | .addressClaimTimeout => true
  | .addressClaimReceived src name => w8 src && w64 name
  | .requestForAddressClaimed src => w8 src
  | .tpConnectionRequest src pgn size _ => w8 src && w18 pgn && w16 size
  | .tpMessageComplete _ peer pgn prio _ => w8 peer && w18 pgn && under 8 prio
  | .tpTimeout _ peer pgn reason => w8 peer && w18 pgn && w8 reason
  | .tcStatusReceived inst addr _ => w8 inst && w8 addr
  | .tcStatusLost => true
  | .tcPoolResponse _ err => w8 err
  | .setpointCondensedWorkState group value t => w8 group && w32 value && w64 t
  | .tcProcessData _ _ value => i32 value
  | .measurementCommand _ _ cmd value => w8 cmd && i32 value
  | .pdMeasurementTrigger _ => true
  | .workStateDisagreeTimeout h => w32 h
  | .legacyFrame w => w32 w
  | .legacyInvalidFrame _ w => w32 w
  | .legacyTick => true
  | .enaNEdge _ => true
  | .legacyComloss => true
  | .legacyLockoutEnd => true
  | .fsPromote d => d.wf && d.isOp 0x0E00
  | .fsStatus d => d.wf && d.isOp 0x0E01
  | .promotionTakeEffect => true
  | .secInfo d => d.wf && d.isOp 0x0F00
  | .secChallenge d => d.wf && d.isOp 0x0F01
  | .secOpen d => d.wf && d.isOp 0x0F02
  | .secClose d => d.wf && d.isOp 0x0F03
  | .secProvision d => d.wf && d.isOp 0x0F04
  | .secKeyLoad d => d.wf && d.isOp 0x0F05
  | .secKeyErase d => d.wf && d.isOp 0x0F06
  | .secPolicy d => d.wf && d.isOp 0x0F07
  | .secFwBegin d => d.wf && d.isOp 0x0F08
  | .secFwWrite d => d.wf && d.isOp 0x0F09
  | .secFwCommit d => d.wf && d.isOp 0x0F0A
  | .secDebugUnlock d => d.wf && d.isOp 0x0F0B
  | .secZeroize d => d.wf && d.isOp 0x0F0C
  | .challengeExpiry sq => under 16 sq
  | .sessionIdleTimeout sq => under 16 sq
  | .sessionTagFailures sq => under 16 sq
  | .secLockoutEnd slot => under 8 slot
  | .zeroizePin => true
  | .zeroizeEraseDone => true
  | .islWdtService d => d.wf && d.isOp 0x0100
  | .islFaultClear d => d.wf && d.isOp 0x0101
  | .faultClearTakeEffect => true
  | .islReset d => d.wf && d.isOp 0x0102
  | .softResetStart => true
  | .islLogRead d => d.wf && d.isOp 0x0103
  | .islLockWrite => true
  | .wdtArm => true
  | .wdtDisarm => true
  | .estopNLow => true
  | .estopReleaseTimer => true
  | .watchdogExpiry => true
  | .holdTimerExpiry => true
  | .tclkStop => true
  | .pllUnlock => true
  | .aclkFreqDeviation _ => true
  | .debugHalt engine => under 24 engine
  | .pdieLinkLoss => true
  | .vioFLow => true
  | .vioHLow => true
  | .vddWarning mv => w16 mv
  | .vddWarningEnd mv lowest => w16 mv && w16 lowest
  | .vddWarningSustained => true
  | .brownOutReset => true
  | .powerOnReset => true
  | .resetNLow => true
  | .vbatUvloEnter group mv => under 4 group && w16 mv
  | .vbatUvloLeave group mv => under 4 group && w16 mv
  | .vbatWarningEnter group mv => under 4 group && w16 mv
  | .vbatWarningLeave group mv => under 4 group && w16 mv
  | .vbatHighEnter group mv => under 4 group && w16 mv
  | .vbatHighLeave group mv => under 4 group && w16 mv
  | .pwrSleep d => d.wf && d.isOp 0x0110
  | .sleepEntry => true
  | .sleepComplete t => w64 t
  | .wakeSource reason t => w8 reason && w64 t
  | .wakeTimerExpiry => true
  | .pwrPark d => d.wf && d.isOp 0x0111
  | .pwrWakeConfig d => d.wf && d.isOp 0x0112
  | .pwrBootPolicy d => d.wf && d.isOp 0x0113
  | .pwrBootConfirm d => d.wf && d.isOp 0x0114
  | .pwrBootReport d => d.wf && d.isOp 0x0115
  | .pwrRetryBoot d => d.wf && d.isOp 0x0116
  | .resetRelease straps => under 4 straps
  | .bootStageComplete t => w64 t
  | .bootStageFail err alg => w8 err && w8 alg
  | .endOfBoot t => w64 t
  | .bootConfirmTimeout => true
  | .sysEchMapWrite v => w32 v
  | .pcieLinkTrained lanes => lanes == 1 || lanes == 2
  | .latencyRecordsWritten => true
  | .parkWritesDone => true
  | .estopNHigh => true
  | .zeroizeNHigh => true
  | .vioFRecovered => true
  | .vioHRecovered => true
  | .pdieLinkRestored => true
  | .engineDebugResume engine => under 24 engine
  | .tripInputRelease n => under 8 n

end Sys2Proof
end

