-- ==== Sys2Proof/Safety.lean ====
section
/-! DEFINITION. What a safe run of the device is, in the terms that statements use: memories in canonical form, the
descriptors that pass the checks, and what the shared operations leave alone. -/

namespace Sys2Proof.Machine

/-- The two byte memories are in canonical form: addresses strictly rising, no cell equal to an unlisted byte. -/
abbrev MemOk (s : State) : Prop := memWf s.mailbox = true ∧ memWf s.hostMem = true

/-- The objects stand in the order of their indices, each index once (R58). -/
abbrev ObjsOk (s : State) : Prop := s.objs.Pairwise fun a b => a.idx < b.idx

/-- `t` differs from `s` only in what raising an event may touch: the host interface, the island's log, the trace's
pending trigger and the memories that hold the rings (R43 to R45, R57, R477). -/
def EvFrame (s t : State) : Prop :=
  t = { s with
    hif := t.hif, mailbox := t.mailbox, hostMem := t.hostMem
    isl := { s.isl with log := t.isl.log, logIndex := t.isl.logIndex, logWrapped := t.isl.logWrapped }
    trc := { s.trc with fired := t.trc.fired } }

/-- The role with which a descriptor executes: that of its fetch, else that of its session or of the policy (R436). -/
def roleNow (s : State) (d : Desc) : Nat :=
  if s.hif.started.any (fun x => decide (x.desc = d)) then (startedOf s d).role else roleOfDesc s d

/-- A descriptor of opcode `code` may execute in state `s` (its turn has come, R51, R52) and passes steps 4 to 7 of R41: served
in the mode, the role suffices, the form, the handle and the block are right, and the block can be read. -/
def passes (code : Nat) (d : Desc) (s : State) : Bool :=
  match opInfo code with
  | none => false
  | some i =>
    mayExecute s d && modeServes s.boot.mode code && decide (needRole code d ≤ roleNow s d) && (formBad s i d).isNone
      && !(dPtr d && i.reads && blockBeyond d)

end Sys2Proof.Machine
end

