-- ==== Sys2Proof/Certificates/Slice0/Obligations.lean ====
section
/-! DEFINITION. The statements for the provers, chapter by chapter of the spec. -/

open Sys2Proof Sys2Proof.Machine

/-- Whatever the state and the command, exec answers a next state and so does step: every error of the device is a
completion status, an event or a reset, never a stop of the machine. -/
def Obligations.EveryStepAnswersNextState : Prop :=
  (∀ c s, ∃ t, exec c s = .next t) ∧ (∀ s, ∃ t, step s = .next t)

/-- With command c at the front of its queue a state steps to exec of c on the state with the queue’s rest; with an empty
queue the block idles (the idle step is the model’s choice, log 1). -/
def Obligations.StepTakesTheFrontCommand : Prop :=
  (∀ c rest s, s.pending = c :: rest → step s = exec c { s with pending := rest })
    ∧ (∀ s, s.pending = [] → step s = .next s)

/-- GTC_LO_READ returns the low word of the GTC and latches its upper word; PPS_CAP_LO_READ does the same for the last
accepted capture. GTC_HI and PPS_CAP_HI read as the words latched, whatever the state. Outside SLEEP the value read is
the GTC (in SLEEP the counter is as of its last 96-tick step). Nothing else of the device changes but the record of
the bytes read. Bytes 8 to 15 of an event and 16 to 23 of a completion are the full 64-bit GTC. -/
def Obligations.GtcReadsAreCoherent : Prop :=
  (∀ s, ∃ g t, exec .gtcLoRead s = .next t ∧ (s.boot.mode ≠ .sleeping → g = s.gtc) ∧ g ≤ s.gtc ∧ s.gtc < g + 96
      ∧ t = { s with clk := { s.clk with gtcHi := g / 2 ^ 32 }, hif := { s.hif with readData := leBytes 4 g } }
      ∧ regValue 0x400C t = g / 2 ^ 32)
    ∧ (∀ s, ∃ t, exec .ppsCapLoRead s = .next t
      ∧ t = { s with clk := { s.clk with ppsCapHi := s.clk.ppsCap / 2 ^ 32 }, hif := { s.hif with readData := leBytes 4 s.clk.ppsCap } }
      ∧ regValue 0x4020 t = s.clk.ppsCap / 2 ^ 32)
    ∧ (∀ s, regValue 0x400C s = s.clk.gtcHi ∧ regValue 0x4020 s = s.clk.ppsCapHi)
    ∧ (∀ e, slice (evBytes e) 8 8 = leBytes 8 e.gtc) ∧ (∀ d r g, slice (completionBytes d r g) 16 8 = leBytes 8 (r.gtc.getD g))

/-- Clearing DISC_EN keeps the adjustment, in force and waiting, and sets the state FREE, but for a member, which stays as
it follows. Setting it, where it is clear, starts the procedure with no previous edge (the model’s choice, log 29). A
write of GTC_FREQ_ADJ with FREQ_MAN set and DISC_EN clear, not on a member, is clamped to the range of R17 and waits
for the next boundary, where it is in force unless a broadcast carried another word; in every other case it changes
nothing. PPS_HOLDOVER_TIMEOUT in ACQUIRING or LOCKED, 2.5 s after the last accepted edge, gives HOLDOVER, keeps the
adjustment and raises GTC_PPS_LOST; in another state it does nothing. Everything not named stays. -/
def Obligations.DisciplineControl : Prop :=
  (∀ s, exec .gtcDiscDisable s = .next { s with clk := { s.clk with
      discEn := false, dstate := if s.osl.role = 2 then s.clk.dstate else .free } })
    ∧ (∀ s, exec .gtcDiscEnable s
      = .next (if s.clk.discEn then s else { s with clk := { s.clk with discEn := true, ppsLast := none, good := 0 } }))
    ∧ (∀ s v, s.clk.freqMan = true → s.clk.discEn = false → s.osl.role ≠ 2 → ∃ a t,
      exec (.gtcFreqAdjWrite v) s = .next t ∧ t = { s with clk := { s.clk with freqNext := some a } }
        ∧ -429497 ≤ a ∧ a ≤ 429497 ∧ (-429497 ≤ v → v ≤ 429497 → a = v) ∧ (429497 < v → a = 429497)
        ∧ (v < -429497 → a = -429497) ∧ (freqAdjApply t).clk.freqAdj = s.osl.freqSent.getD a)
    ∧ (∀ s v, (s.clk.freqMan = false ∨ s.clk.discEn = true ∨ s.osl.role = 2) → exec (.gtcFreqAdjWrite v) s = .next s)
    ∧ (∀ s, (s.clk.dstate = .acquiring ∨ s.clk.dstate = .locked) → ∃ u,
      u = toInstant (s.clk.ppsFrom + 1200000000) s ∧ u.clk.freqAdj = s.clk.freqAdj ∧ u.clk.freqNext = s.clk.freqNext
        ∧ exec .ppsHoldoverTimeout s = .next (raise0 0x0141 0 [] { u with clk := { u.clk with dstate := .holdover } }))
    ∧ (∀ s, s.clk.dstate ≠ .acquiring → s.clk.dstate ≠ .locked → exec .ppsHoldoverTimeout s = .next s)

/-- An edge of the other polarity, with DISC_EN = 0 or on a member leaves the clock block. With DISC_EN = 1 on a device
that is no member, an edge of the selected polarity runs R20. The first one sets t_last and ACQUIRING. One whose
interval is more than 48,000 ticks off is counted rejected, becomes the reference and is reported GTC_PPS_REJECTED. An
accepted one is counted, is the new capture and reference, writes for the next boundary the clamped adjustment less g
· ferr · 2^32 to within one unit, counts good within 48 ticks and moves the state: LOCKED from ACQUIRING at four good
ones, ACQUIRING from LOCKED at none, ACQUIRING from HOLDOVER. The discipline settings stay. -/
def Obligations.PpsEdgeDisciplines : Prop :=
  (∀ s t f, (s.clk.discEn = false ∨ f ≠ s.clk.ppsFalling ∨ s.osl.role = 2) → ∃ u, exec (.ppsEdge t f) s = .next u ∧ u.clk = s.clk)
    ∧ (∀ s t f, s.clk.discEn = true → s.osl.role ≠ 2 → f = s.clk.ppsFalling → s.clk.ppsLast = none → ∃ u,
      exec (.ppsEdge t f) s = .next u ∧ u.clk = { s.clk with ppsLast := some t, ppsFrom := t, dstate := .acquiring, good := 0 })
    ∧ (∀ s (t : Nat) f (last : Nat), s.clk.discEn = true → s.osl.role ≠ 2 → f = s.clk.ppsFalling → s.clk.ppsLast = some last →
      48000 < ((t : Int) - last - 480000000).natAbs → ∃ u, exec (.ppsEdge t f) s = .next u
        ∧ u.clk = { s.clk with ppsLast := some t, ppsRej := true, ppsRejected := satInc 16 s.clk.ppsRejected }
        ∧ u.hif.evSeq = wrapInc 16 s.hif.evSeq)
    ∧ (∀ s (t : Nat) f (last : Nat) g, s.clk.discEn = true → s.osl.role ≠ 2 → f = s.clk.ppsFalling → s.clk.ppsLast = some last →
      ((t : Int) - last - 480000000).natAbs ≤ 48000 →
      g = (if ((t : Int) - last - 480000000).natAbs ≤ 48 then s.clk.good + 1 else 0) → ∃ u a x, exec (.ppsEdge t f) s = .next u
        ∧ a = clampInt (-429497) 429497 (s.clk.freqNext.getD s.clk.freqAdj - x)
        ∧ (x * (480000000 * 2 ^ min s.clk.discGain 8) - ((t : Int) - last - 480000000) * 2 ^ 32).natAbs
            < 480000000 * 2 ^ min s.clk.discGain 8
        ∧ u.clk = { s.clk with
            ppsLast := some t, ppsFrom := t, ppsCap := t, ppsAccepted := satInc 16 s.clk.ppsAccepted, freqNext := some a, good := g
            dstate := u.clk.dstate }
        ∧ (s.clk.dstate = .acquiring → u.clk.dstate = if 4 ≤ g then .locked else .acquiring)
        ∧ (s.clk.dstate = .locked → u.clk.dstate = if g = 0 then .acquiring else .locked)
        ∧ (s.clk.dstate = .holdover → u.clk.dstate = .acquiring)
        ∧ u.hif.evSeq = if s.clk.dstate = .acquiring ∧ 4 ≤ g then wrapInc 16 s.hif.evSeq else s.hif.evSeq)

/-- With the set-up lock open and no channel ENABLED, a new legal role is stored; a member takes SYNC_CLKI as its
reference, loses its lock until the PLL locks to it, follows, and starts its bring-up; the role the device has already
changes nothing; SYNC_OUT_EN is stored. While a channel object is ENABLED, or for role 0b11, the register stays and
CLK_STAT.SW_REFUSED is set. With the lock closed nothing changes. MEMBER_PLL_LOCK on a member sets PLL_LOCK, with
SYNC_CLKI as its reference (that it ends a holdover is the model’s choice, log 29); on another device it does nothing.
Only the clock and link registers change. -/
def Obligations.ClusterRoleAndSyncOut : Prop :=
  (∀ s role, s.isl.locked = false → channelEnabled s = false → role < 3 → role ≠ s.osl.role → ∃ t,
      exec (.oslRoleWrite role) s = .next t ∧ t.osl.role = role ∧ t.osl.calDone = false ∧ t.osl.syncOutEn = s.osl.syncOutEn
        ∧ (role = 2 → t.clk.refSync = true ∧ t.clk.pllLock = false ∧ t.clk.dstate = .following ∧ t.osl.enumDone = false)
        ∧ (role ≠ 2 → t.clk.refSync = false ∧ t.clk.pllLock = s.clk.pllLock)
        ∧ (role = 1 → t.osl.position = 0 ∧ t.osl.devices = 1 ∧ t.osl.enumDone = true)
        ∧ t.clk.freqAdj = s.clk.freqAdj ∧ t.clk.discEn = s.clk.discEn ∧ t.clk.swRefused = s.clk.swRefused
        ∧ t = { s with clk := t.clk, osl := t.osl })
    ∧ (∀ s, channelEnabled s = false → s.osl.role < 3 → exec (.oslRoleWrite s.osl.role) s = .next s)
    ∧ (∀ s on, s.isl.locked = false → channelEnabled s = false →
      exec (.oslSyncOutWrite on) s = .next { s with osl := { s.osl with syncOutEn := on } })
    ∧ (∀ s role on, s.isl.locked = false → (channelEnabled s = true ∨ 3 ≤ role) →
      exec (.oslRoleWrite role) s = .next { s with clk := { s.clk with swRefused := true } }
        ∧ (channelEnabled s = true → exec (.oslSyncOutWrite on) s = .next { s with clk := { s.clk with swRefused := true } }))
    ∧ (∀ s role on, s.isl.locked = true →
      exec (.oslRoleWrite role) s = .next s ∧ exec (.oslSyncOutWrite on) s = .next s)
    ∧ (∀ s, s.osl.role = 2 → exec .memberPllLock s
      = .next { s with clk := { s.clk with pllLock := true, synciPresent := true, refSync := true, holdover := false } })
    ∧ (∀ s, s.osl.role ≠ 2 → exec .memberPllLock s = .next s)

/-- COARSE_LOAD gives an enumerated uncalibrated member the lead’s boundary as its GTC, and takes that boundary as its
last; a calibrated one keeps its count. SKEW_EXCHANGE after it counts the exchange, reports as OSL_SKEW t2 − t1 less
the hop delay plus the upstream offset, where twice the delay differs from (t4 − t1) − (t3 − t2) by at most 1, and
adds it to the sum; after CAL_DONE the phase has the negated offset to move, and one above 24 ticks is OSL_SKEW_FAULT.
OSL_CAL_DONE after 256 exchanges steps the GTC once by a whole number of ticks within one of the mean offset, sets
CAL_DONE and raises its event; before that many it does nothing. A calibrated member counts consecutive marks more
than 24 ticks off, and one within ends the run; before CAL_DONE the arrival is noted. With SYNC_OUT_EN the mark is
re-driven. On a device in none of these states each does nothing. -/
def Obligations.MemberBringUp : Prop :=
  (∀ s b, s.osl.role = 2 → s.osl.enumDone = true → s.osl.calDone = false → b < 2 ^ 64 → ∃ t,
      exec (.coarseLoad b) s = .next t ∧ t.gtc = b ∧ t.osl.coarse = true ∧ t.osl.exchanges = 0 ∧ t.osl.offsetSum = 0
        ∧ (b % 48000 = 0 → t.isl.boundaryGtc = b)
        ∧ t = { s with gtc := t.gtc, osl := t.osl, isl := { s.isl with boundaryGtc := t.isl.boundaryGtc } })
    ∧ (∀ s b, (s.osl.role ≠ 2 ∨ s.osl.enumDone = false ∨ s.osl.calDone = true) → exec (.coarseLoad b) s = .next s)
    ∧ (∀ s t1 t2 t3 t4 up, s.osl.role = 2 → s.osl.coarse = true → ∃ off : Int, ∃ u : State,
      (2 * (t2 - t1 + up - off) - ((t4 - t1) - (t3 - t2))).natAbs ≤ 1
        ∧ u.osl = { s.osl with
            skew := off, hopDelay := t2 - t1 + up - off, exchanges := s.osl.exchanges + 1, offsetSum := s.osl.offsetSum + off
            phaseLeft := if s.osl.calDone then -off else s.osl.phaseLeft }
        ∧ u = { s with osl := u.osl }
        ∧ exec (.skewExchange t1 t2 t3 t4 up) s = .next (
            if s.osl.calDone = false then u
            else if 384 < off.natAbs then class2 0x014A 0 (iBytes 4 off) { u with osl := { u.osl with skewFault := true } }
            else conditionEnded 0x014A u))
    ∧ (∀ s, s.osl.role = 2 → s.osl.coarse = true → s.osl.calDone = false → 256 ≤ s.osl.exchanges → ∃ st m : Int, ∃ u : State,
      (16 * (s.osl.exchanges : Int) * st - s.osl.offsetSum).natAbs < 16 * s.osl.exchanges
        ∧ u.gtc = ux 64 (s.gtc - st) ∧ u.osl.calDone = true ∧ u = { s with gtc := u.gtc, osl := u.osl }
        ∧ exec .oslCalDone s = .next (raise0 0x0144 0 (iBytes 4 m) u))
    ∧ (∀ s t1 t2 t3 t4 up, (s.osl.role ≠ 2 ∨ s.osl.coarse = false) → exec (.skewExchange t1 t2 t3 t4 up) s = .next s)
    ∧ (∀ s, (s.osl.role ≠ 2 ∨ s.osl.coarse = false ∨ s.osl.calDone = true ∨ s.osl.exchanges < 256) → exec .oslCalDone s = .next s)
    ∧ (∀ s t e, s.osl.role = 2 → s.osl.calDone = true → s.osl.markExpected = some e → 24 < frameDist t e →
      exec (.syncMarkiArrival t) s = .next { toInstant t s with osl := { s.osl with
        slipRun := s.osl.slipRun + 1, markoAt := if s.osl.syncOutEn then some t else s.osl.markoAt } })
    ∧ (∀ s t e, s.osl.role = 2 → s.osl.calDone = true → s.osl.markExpected = some e → frameDist t e ≤ 24 → ∃ u,
      exec (.syncMarkiArrival t) s = .next u
        ∧ u.osl = { s.osl with slipRun := 0, markoAt := if s.osl.syncOutEn then some t else s.osl.markoAt })
    ∧ (∀ s t, s.osl.role = 2 → s.osl.calDone = false → exec (.syncMarkiArrival t) s = .next { toInstant t s with osl := { s.osl with
        markLast := some (t % 48000), markoAt := if s.osl.syncOutEn then some t else s.osl.markoAt } })
    ∧ (∀ s t, s.osl.role ≠ 2 → exec (.syncMarkiArrival t) s = .next s)

/-- Sixteen consecutive marks off raise OSL_MARK_SLIP; a measured offset above 24 ticks (384 sixteenths) after CAL_DONE
raises OSL_SKEW_FAULT; loss of SYNC_CLKI switches a member to XTAL_IN, keeps the frequency word and raises
OSL_CLOCK_LOST; a silent upstream lane raises OSL_LINK_DOWN: each the class 2 sequence with its code. OSL_MEMBER_LOST
on the lead marks the position absent, counts its waiting reports as absent and raises an event of class 0 with the
position. A port that trains sets its link bit and raises OSL_LINK_UP with the port. On a device in another state or
role each does nothing. -/
def Obligations.ClusterFaultsAreDeviceFaults : Prop :=
  (∀ s, s.osl.calDone = true → 16 ≤ s.osl.slipRun →
      exec .oslMarkSlip s = .next (class2 0x0149 0 [] { s with osl := { s.osl with markSlip := true, slipRun := 0 } }))
    ∧ (∀ s t1 t2 t3 t4 up, s.osl.role = 2 → s.osl.coarse = true → s.osl.calDone = true →
      384 < (t2 - t1 - hopDelayOf t1 t2 t3 t4 + up).natAbs → ∃ u : State, u = { s with osl := { u.osl with skewFault := true } } ∧
        exec (.skewExchange t1 t2 t3 t4 up) s = .next (class2 0x014A 0 (iBytes 4 (t2 - t1 - hopDelayOf t1 t2 t3 t4 + up)) u))
    ∧ (∀ s, (s.osl.calDone = false ∨ s.osl.slipRun < 16) → exec .oslMarkSlip s = .next s)
    ∧ (∀ s, s.osl.role = 2 → exec .syncClkiLoss s = .next (class2 0x0148 0 []
        { s with clk := { s.clk with refSync := false, holdover := true, synciPresent := false } }))
    ∧ (∀ s, s.osl.role ≠ 2 → exec .syncClkiLoss s = .next s ∧ exec .upstreamSilence s = .next s)
    ∧ (∀ s, s.osl.role = 2 →
      exec .upstreamSilence s = .next (class2 0x0147 0 [] { s with osl := { s.osl with upLink := false } }))
    ∧ (∀ s pos, s.osl.role = 1 → 1 ≤ pos → pos ≤ 7 → ∃ u : State, pos ∈ u.osl.absent ∧ (∀ p ∈ s.osl.absent, p ∈ u.osl.absent)
        ∧ u = { s with osl := { s.osl with absent := u.osl.absent, dnLink := s.osl.dnLink && pos != 1 } }
        ∧ exec (.oslMemberLost pos) s = .next (raise0 0x014B 0 (leBytes 1 pos) (lostReports pos u)))
    ∧ (∀ s pos, (s.osl.role ≠ 1 ∨ pos = 0 ∨ 7 < pos) → exec (.oslMemberLost pos) s = .next s)
    ∧ (∀ s port, ∃ u : State, u = { s with osl := u.osl, isl := { s.isl with conditions := u.isl.conditions } }
        ∧ (port = 0 → u.osl = { s.osl with upLink := true }) ∧ (port ≠ 0 → u.osl = { s.osl with dnLink := true })
        ∧ exec (.oslLaneTrained port) s = .next (raise0 0x0143 0 (leBytes 1 port) u))

/-- BROADCAST_RECEIVE of a valid record on a member (which records count as valid besides the CRC is the model’s choice,
log 29) stores it as the next boundary’s, takes its frequency word and ends the run of missed ones; the first gives
the position after the upstream neighbour’s; a record that makes the path invalid faults the channels with points. At
the deadline without one the member counts it in the register and the run, moves the record on and raises
OSL_BCAST_MISSED; with one it only notes the instant. At three in a row OSL_BCAST_STALE clears PATH_VALID of both
records and faults every channel in class 1; at fewer it does nothing. KINEMATIC_BROADCAST_SEND on the lead puts the
record of the next boundary, with the word it will apply, ahead of what waits on the link. On other devices these do
nothing. -/
def Obligations.MissedBroadcasts : Prop :=
  (∀ s r up, s.osl.role = 2 → bcastValid (padTo 128 r) s = true → ∃ u : State,
      u.kin = { s.kin with rcdNext := padTo 128 r }
      ∧ u.osl.missedRun = 0 ∧ u.osl.bcastSeen = true ∧ u.osl.bcastFreq = some (i32 (padTo 128 r) 12) ∧ u.osl.enumDone = true
      ∧ u.osl.position = (if s.osl.enumDone then s.osl.position else up + 1) ∧ u.osl.missed = s.osl.missed
      ∧ u = { s with osl := u.osl, kin := u.kin }
      ∧ exec (.broadcastReceive r up) s
        = .next (if recPathValid s.kin.rcd && !recPathValid (padTo 128 r) then pathInvalid u else u))
    ∧ (∀ s r up, (s.osl.role ≠ 2 ∨ bcastValid (padTo 128 r) s = false) → exec (.broadcastReceive r up) s = .next s)
    ∧ (∀ s, s.osl.role = 2 → s.osl.bcastSeen = false → ∃ u : State,
      u = { toInstant (frameStart s.gtc + 15000) s with
        osl := { s.osl with missed := satInc 16 s.osl.missed, missedRun := s.osl.missedRun + 1 }
        kin := { s.kin with rcdNext := recordNext s.kin.rcd } }
        ∧ exec .broadcastDeadline s = .next (raise0 0x0145 0 [] u))
    ∧ (∀ s, s.osl.role = 2 → s.osl.bcastSeen = true → exec .broadcastDeadline s = .next (toInstant (frameStart s.gtc + 15000) s))
    ∧ (∀ s, s.osl.role = 2 → 3 ≤ s.osl.missedRun → ∃ u : State,
      (s.kin.rcd.length = 128 → recPathValid u.kin.rcd = false) ∧ (s.kin.rcdNext.length = 128 → recPathValid u.kin.rcdNext = false)
        ∧ u = { s with kin := { s.kin with rcd := u.kin.rcd, rcdNext := u.kin.rcdNext } }
        ∧ exec .oslBcastStale s = .next (((pathInvalid u).objs.filter fun o => o.typ == tyNozzle || o.typ == tyRow).foldl
            (fun s o => class1 (handleOf o) 0x0146 [] s) (pathInvalid u)))
    ∧ (∀ s, (s.osl.role ≠ 2 ∨ s.osl.missedRun < 3) → exec .oslBcastStale s = .next s)
    ∧ (∀ s, s.osl.role ≠ 2 → exec .broadcastDeadline s = .next s)
    ∧ (∀ s, s.osl.role = 1 → ∃ r : List Byte,
      (s.kin.rcdNext.length = 128 → slice r 12 4 = iBytes 4 (s.clk.freqNext.getD s.clk.freqAdj) ∧ r.take 12 = s.kin.rcdNext.take 12 ∧ r.drop 16 = s.kin.rcdNext.drop 16)
      ∧ exec .kinematicBroadcastSend s = .next { toInstant (frameStart s.gtc + 6000) s with
        kin := { s.kin with rcdNext := r }
        osl := { s.osl with
          freqSent := some (s.clk.freqNext.getD s.clk.freqAdj)
          outbox := { kind := .bcast, dst := 0xFF, src := 0, body := r } :: s.osl.outbox } })
    ∧ (∀ s, s.osl.role ≠ 1 → exec .kinematicBroadcastSend s = .next s)

/-- For a ring that is not enabled the first failing check of R35 gives ERR and ERROR with EN 0: base alignment, SIZE, end
of a mailbox ring, BIND of an SQ, LOC under the SPI strap; if none fails the ring starts with head 0, tail 0, phase 1,
ERROR clear and ERR NONE. While EN = 1 writes of RING_CFG, of the base and of the shadow change nothing, and RING_MOD
takes effect at once: a count not above the entries unsignalled signals the vector. No other ring and nothing else of
the device changes. -/
def Obligations.RingEnableValidates : Prop :=
  (∀ s r cfg, r < 38 → s.hif.rings.length = 38 → (ringOf s r).en = false → ∃ t g,
      exec (.ringEnable r cfg) s = .next t ∧ t = setRing r (fun _ => g) s ∧ ringOf t r = g
        ∧ g.size = cfg % 2 ^ 13 ∧ g.bind = cfg / 2 ^ 24 % 16 ∧ g.vector = cfg / 2 ^ 16 % 32 ∧ g.prio = cfg / 2 ^ 28 % 4
        ∧ g.loc = bit cfg 30 ∧ g.base = (ringOf s r).base ∧ g.shadow = (ringOf s r).shadow
        ∧ (g.en = true ↔ g.error = false) ∧ (g.en = true → g.head = 0 ∧ g.tail = 0 ∧ g.phase = true)
        ∧ g.err =
          (if g.base % (if r < 16 then 64 else 32) ≠ 0 then 1
          else if g.size < 2 ∨ 4096 < g.size then 2
          else if g.loc = true ∧ 65536 < g.base % 2 ^ 63 + g.size * (if r < 16 then 64 else 32) then 1
          else if r < 16 ∧ (ringOf s (16 + g.bind)).en = false then 3
          else if s.hif.link = 3 ∧ g.loc = false then 4
          else 0)
        ∧ (g.error = true ↔ g.err ≠ 0))
    ∧ (∀ s r cfg v, r < 38 → (ringOf s r).en = true → exec (.ringEnable r cfg) s = .next s
        ∧ ∀ o ∈ [0x00, 0x04, 0x08, 0x10, 0x14], ringWrite r o v s = s)
    ∧ (∀ s r v, r < 38 → s.hif.rings.length = 38 → ∃ u : State,
        u = setRing r (fun g => { g with modTime := v / 2 ^ 16, modCount := v % 2 ^ 16 }) s
        ∧ (ringOf u r).modTime = v / 2 ^ 16 ∧ (ringOf u r).modCount = v % 2 ^ 16
        ∧ ringWrite r 0x0C v s = (if 16 ≤ r ∧ (ringOf s r).en = true ∧ s.hif.ringsEn = true ∧ 0 < (ringOf s r).unsig
            ∧ max 1 (v % 2 ^ 16) ≤ (ringOf s r).unsig then ringSignal r u else u))

/-- Resetting an SQ closes the session bound to it, drops the unfetched descriptors and stops fetching; where nothing of
the SQ executes, waits or is kept, EN, ERROR and ERR clear and RING_PTR is 0 at once, else its positions stay until
the last completion. A CQ to which an enabled SQ is bound only shows CQ_BOUND; another CQ, an EQ and a stream ring
lose EN at once, and LOST and the reserved slots are released. Other rings stay as they are. The value 0xFFFF is a
detach; another number names no ring and does nothing. -/
def Obligations.RingResets : Prop :=
  (∀ s r, r < 16 → exec (.hifRingReset r) s = .next (sqResetEnd r (setRing r
      (fun g => { g with resetting := true, tail := g.head, fenced := none }) (sessionClose r 2 s))))
    ∧ (∀ s r, sessionOn s r = none → sessionClose r 2 s = s)
    ∧ (∀ s r, r < 16 → s.hif.rings.length = 38 → sessionOn s r = none → sqBusy s r = false → ∃ t, exec (.hifRingReset r) s = .next t
        ∧ (ringOf t r).en = false ∧ (ringOf t r).error = false ∧ (ringOf t r).err = 0 ∧ (ringOf t r).head = 0 ∧ (ringOf t r).tail = 0
        ∧ (ringOf t r).base = (ringOf s r).base ∧ (∀ q, q ≠ r → ringOf t q = ringOf s q)
        ∧ t = { s with hif := { s.hif with rings := t.hif.rings } })
    ∧ (∀ s r, r < 16 → s.hif.rings.length = 38 → sessionOn s r = none → sqBusy s r = true → ∃ t, exec (.hifRingReset r) s = .next t
        ∧ ringOf t r = { ringOf s r with resetting := true, tail := (ringOf s r).head, fenced := none }
        ∧ (∀ q, q ≠ r → ringOf t q = ringOf s q) ∧ t = { s with hif := { s.hif with rings := t.hif.rings } })
    ∧ (∀ s r, 16 ≤ r → r < 32 → cqBound s r = true →
        exec (.hifRingReset r) s = .next (setRing r (fun g => { g with err := 9 }) s))
    ∧ (∀ s r, 16 ≤ r → r < 38 → s.hif.rings.length = 38 → (r < 32 → cqBound s r = false) → ∃ t, exec (.hifRingReset r) s = .next t
        ∧ (ringOf t r).en = false ∧ (ringOf t r).error = false ∧ (ringOf t r).lost = 0 ∧ (∀ q, q ≠ r → ringOf t q = ringOf s q)
        ∧ (r < 32 → (ringOf t r).reserved = 0)
        ∧ t = { s with hif := { s.hif with rings := t.hif.rings, kept := t.hif.kept } })
    ∧ (∀ s, exec (.hifRingReset 0xFFFF) s = exec (.hostDetach 5) s)
    ∧ (∀ s r, 38 ≤ r → r ≠ 0xFFFF → exec (.hifRingReset r) s = .next s)

/-- A doorbell of a ring that is not enabled, stopped or being reset changes nothing. An SQ tail doorbell below SIZE that
keeps unfetched and unfinished descriptors within SIZE − 1 sets the tail; otherwise the ring stops with DB_RANGE or
DB_OVERRUN. A head doorbell of a CQ, EQ or stream ring below SIZE that frees no slot the device has not written sets
the head; otherwise the same. An invalid doorbell sets ERROR, ERR and HIF_STAT.DB_INVALID, raises RING_ERROR with ring
and reason and signals ERR_VEC, and has no other effect: descriptors already fetched go on. -/
def Obligations.DoorbellsAreJudged : Prop :=
  (∀ s n v, n < 16 → ((ringOf s n).en = false ∨ (ringOf s n).error = true ∨ (ringOf s n).resetting = true) → exec (.sqTailDoorbell n v) s = .next s)
    ∧ (∀ s n v, n < 16 → dbIgnored (ringOf s n) = false → v % 2 ^ 16 < (ringOf s n).size →
        ringUsed (ringOf s n) + (v % 2 ^ 16 + (ringOf s n).size - (ringOf s n).tail) % (ringOf s n).size + sqExecuting s n ≤ (ringOf s n).size - 1 →
        exec (.sqTailDoorbell n v) s = .next (setRing n (fun g => { g with tail := v % 2 ^ 16 }) s))
    ∧ (∀ s n v, n < 16 → dbIgnored (ringOf s n) = false → v % 2 ^ 16 < (ringOf s n).size →
        (ringOf s n).size - 1 < ringUsed (ringOf s n) + (v % 2 ^ 16 + (ringOf s n).size - (ringOf s n).tail) % (ringOf s n).size + sqExecuting s n →
        exec (.sqTailDoorbell n v) s = .next (dbInvalid n 6 s))
    ∧ (∀ s n v, n < 16 → dbIgnored (ringOf s n) = false → (ringOf s n).size ≤ v % 2 ^ 16 →
        exec (.sqTailDoorbell n v) s = .next (dbInvalid n 5 s))
    ∧ (∀ s r v g, g = ringOf s r → ∃ t : State,
          (∀ n, n < 16 → r = 16 + n → exec (.cqHeadDoorbell n v) s = .next t)
          ∧ (∀ n, n < 4 → r = 32 + n → exec (.eqHeadDoorbell n v) s = .next t)
          ∧ (∀ n, n < 2 → r = 36 + n → exec (.streamHeadDoorbell n v) s = .next t)
          ∧ ((g.en = false ∨ g.error = true ∨ g.resetting = true) → t = s)
          ∧ (dbIgnored g = false → g.size ≤ v % 2 ^ 16 → t = dbInvalid r 5 s)
          ∧ (dbIgnored g = false → v % 2 ^ 16 < g.size → ringUsed g < (v % 2 ^ 16 + g.size - g.head) % g.size → t = dbInvalid r 6 s)
          ∧ (dbIgnored g = false → v % 2 ^ 16 < g.size → (v % 2 ^ 16 + g.size - g.head) % g.size ≤ ringUsed g →
              t = setRing r (fun g => { g with head := v % 2 ^ 16, unsig := if v % 2 ^ 16 = g.tail then 0 else g.unsig }) s))
    ∧ (∀ s q x, sqExecuting s q = (s.hif.started.filter fun x => x.desc.sq == q).length ∧ (x ∈ s.hif.started → x.desc.sq = q → 0 < sqExecuting s q))
    ∧ (∀ s r e, r < 38 → s.hif.rings.length = 38 → ∃ u : State, u.hif = { s.hif with dbInvalid := true, rings := u.hif.rings }
        ∧ (ringOf u r) = { ringOf s r with error := true, err := e } ∧ (∀ q, q ≠ r → ringOf u q = ringOf s q) ∧ u = { s with hif := u.hif }
        ∧ dbInvalid r e s = signalError (raise0 0x0081 0 (leBytes 1 r ++ leBytes 1 e) u)
        ∧ (dbInvalid r e s).hif.started = s.hif.started ∧ (dbInvalid r e s).hif.deferred = s.hif.deferred)

/-- An event of class 0 or 1, raised while nothing is held and its EQ has room and stays below its moderation count, is
the 32 bytes of R43 with the ring’s phase in bit 7 of byte 31, at the slot that the tail names; the tail moves by one
and wraps with the phase toggled; every other byte of host memory reads as before. With no EQ enabled the event is
appended to the holding queue below 256 events, and beyond that dropped and counted with HELD_OVF set. The sequence
number rises by one in each case. -/
def Obligations.EventReachesItsRing : Prop :=
  (∀ s code cls h ep data q, cls < 2 → logged s code cls = false → evqFor s code = some q → s.hif.held = [] → s.hif.reattach = false
      → q < 38 → s.hif.rings.length = 38 → ringServed s q = true → ringRoom (ringOf s q) = true → (ringOf s q).loc = false
      → (ringOf s q).unsig + 1 < (ringOf s q).modCount → (ringOf s q).tail < (ringOf s q).size → ∃ e,
      e = withPhase (ringOf s q).phase (evBytes
        { code := code, cls := cls, handle := evHandle h, gtc := s.gtc, epoch := ep, seq := s.hif.evSeq, data := padTo 11 data })
      ∧ e.length = 32
      ∧ memReadN (raiseE code cls h ep data s).hostMem ((ringOf s q).base + 32 * (ringOf s q).tail) 32 = e
      ∧ (∀ a, (a < (ringOf s q).base + 32 * (ringOf s q).tail ∨ (ringOf s q).base + 32 * (ringOf s q).tail + 32 ≤ a) →
          memRead (raiseE code cls h ep data s).hostMem a = memRead s.hostMem a)
      ∧ (raiseE code cls h ep data s).mailbox = s.mailbox
      ∧ (ringOf (raiseE code cls h ep data s) q).tail
          = (if (ringOf s q).tail + 1 = (ringOf s q).size then 0 else (ringOf s q).tail + 1)
      ∧ (ringOf (raiseE code cls h ep data s) q).phase
          = (if (ringOf s q).tail + 1 = (ringOf s q).size then !(ringOf s q).phase else (ringOf s q).phase)
      ∧ (raiseE code cls h ep data s).hif.evSeq = wrapInc 16 s.hif.evSeq)
    ∧ (∀ s code h data, logged s code 0 = false → evqFor s code = none → ∃ e : Ev,
      e.code = code ∧ e.seq = s.hif.evSeq ∧ e.gtc = s.gtc ∧ e.handle = evHandle h
      ∧ (s.hif.held.length < 256 → (raise0 code h data s).hif = { s.hif with evSeq := wrapInc 16 s.hif.evSeq, held := s.hif.held ++ [e] })
      ∧ (256 ≤ s.hif.held.length → (raise0 code h data s).hif = { s.hif with
          evSeq := wrapInc 16 s.hif.evSeq, dropped := satInc 16 s.hif.dropped, lost := s.hif.lost + 1, heldOvf := true
          firstLost := if s.hif.lost = 0 then s.hif.evSeq else s.hif.firstLost }))

/-- Whatever the code, class, handle and data, raising an event leaves every object, engine, register and unit of the
device as it is: only the host interface, the island’s log with its index, a trace’s pending trigger and the two
memories in which rings lie can change; completing a descriptor touches no more than the host interface and those
memories. -/
def Obligations.EventFrame : Prop :=
  (∀ s code cls h ep data, EvFrame s (raiseE code cls h ep data s))
    ∧ (∀ s len code cls h sub ep data at' n, EvFrame s (raiseLimited len code cls h sub ep data at' n s))
    ∧ (∀ s d r, ∃ t, t = complete d r s ∧ t = { s with hif := t.hif, mailbox := t.mailbox, hostMem := t.hostMem })

/-- A NOP that passes its checks completes. One that was fetched (the one descriptor that executes, its slot in the CQ
reserved), without NOCOMP and IRQ_NOW, writes the completion of R42 with status OK, the descriptor’s cookie, handle
and SQ and the present GTC into the slot of the CQ’s tail, with the phase bit; the tail moves by one, the reservation
is released and the descriptor has ended. Every other byte of memory reads as before. With NOCOMP nothing is written
and the slot is released. -/
def Obligations.CompletionIsWritten : Prop :=
  (∀ s d, passes 0x0000 d s = true → exec (.nop d) s = .next (ok d s))
    ∧ (∀ s d st r, s.hif.started = [st] → st.desc = d → st.cq = r → st.orphan = false → dNocomp d = false → dIrqNow d = false
      → 16 ≤ r → r < 32 → s.hif.rings.length = 38 → (ringOf s r).en = true → (ringOf s r).error = false → s.hif.ringsEn = true
      → (ringOf s d.sq).resetting = false → (ringOf s r).loc = false → (ringOf s r).tail < (ringOf s r).size
      → (ringOf s r).unsig + 1 < (ringOf s r).modCount → ∃ e,
      e = withPhase (ringOf s r).phase (completionBytes d {} s.gtc) ∧ e.length = 32
      ∧ memReadN (ok d s).hostMem ((ringOf s r).base + 32 * (ringOf s r).tail) 32 = e
      ∧ (∀ a, (a < (ringOf s r).base + 32 * (ringOf s r).tail ∨ (ringOf s r).base + 32 * (ringOf s r).tail + 32 ≤ a) →
          memRead (ok d s).hostMem a = memRead s.hostMem a)
      ∧ (ok d s).mailbox = s.mailbox ∧ (ok d s).hif.started = []
      ∧ (ringOf (ok d s) r).reserved = (ringOf s r).reserved - 1
      ∧ (ringOf (ok d s) r).tail = (if (ringOf s r).tail + 1 = (ringOf s r).size then 0 else (ringOf s r).tail + 1))
    ∧ (∀ s d st, s.hif.started = [st] → st.desc = d → st.orphan = false → dNocomp d = true
      → (ringOf s d.sq).resetting = false →
      ok d s = { unreserve st.cq s with hif := { (unreserve st.cq s).hif with started := [] } })

/-- When the arbitration serves the descriptor’s SQ and no fence holds it back, a fetch moves the SQ’s head by one with
wrap, reserves one slot in the bound CQ, writes the new head to a shadow in host memory, and starts the descriptor
that the slot gave (or that a fence had held), as the last one started, if it is untagged and passes the checks of the
fetch. A fenced descriptor whose SQ is busy is held at its head. An SQ that the arbitration does not serve is not
fetched. An SQ is served only while its ring and its CQ are, and a CQ slot is free; no served SQ has a smaller PRIO
than the one chosen. -/
def Obligations.DescriptorFetchReserves : Prop :=
  (∀ s d q g, sqNext s = some q → d.sq = q → g = ringOf s q → g.loc = false → d.bytes.length = 64 → (g.fenced = none ∨ g.fenced = some d)
      → (dFence d = false ∨ sqBusy s q = false) → dTagLen d = 0
      → fetchBad s (sessionOn s q) d = none → q < 16 → s.hif.rings.length = 38 → ∃ t, exec (.descriptorFetch d) s = .next t
        ∧ (ringOf t q).head = (if g.head + 1 = g.size then 0 else g.head + 1) ∧ (ringOf t q).tail = g.tail
        ∧ (ringOf t (16 + g.bind)).reserved = (ringOf s (16 + g.bind)).reserved + 1
        ∧ (g.shadow ≠ 0 → memReadN t.hostMem g.shadow 4 = leBytes 4 (ringOf t q).head)
        ∧ (∃ st : Started, t.hif.started = s.hif.started ++ [st] ∧ st.desc = d ∧ st.cq = 16 + g.bind ∧ st.role = s.sec.untagged
            ∧ st.verdict = none)
        ∧ t = { s with hif := { s.hif with rings := t.hif.rings, lastSq := q, started := t.hif.started }, hostMem := t.hostMem })
    ∧ (∀ s d, sqNext s = some d.sq → (dFence (headDesc s d) = false ∨ sqBusy s (headDesc s d).sq = false) →
        exec (.descriptorFetch d) s = .next (fetchStart (headDesc s d) (fetchAdvance (headDesc s d).sq s)))
    ∧ (∀ s d, sqNext s = some d.sq → dFence (headDesc s d) = true → sqBusy s (headDesc s d).sq = true →
        exec (.descriptorFetch d) s = .next (setRing (headDesc s d).sq (fun g => { g with fenced := some (headDesc s d) })
          { s with hif := { s.hif with lastSq := (headDesc s d).sq } }))
    ∧ (∀ s d, sqNext s ≠ some d.sq → exec (.descriptorFetch d) s = .next s)
    ∧ (∀ s q, sqNext s = some q → q < 16 ∧ (ringOf s q).en = true ∧ (ringOf s q).error = false ∧ s.hif.ringsEn = true
        ∧ (ringOf s q).head ≠ (ringOf s q).tail ∧ (ringOf s (16 + (ringOf s q).bind)).error = false
        ∧ ringUsed (ringOf s (16 + (ringOf s q).bind)) + (ringOf s (16 + (ringOf s q).bind)).reserved + 1
            < (ringOf s (16 + (ringOf s q).bind)).size
        ∧ ∀ p, p < 16 → sqReady s p = true → (ringOf s p).prio < 4 → (ringOf s q).prio ≤ (ringOf s p).prio)

/-- Clearing RINGS_EN changes that bit only. Setting it again writes the kept completions and drains the held events;
whatever there is to write, only the host interface, its memories and the log can change, and with nothing kept, held,
pending or due it changes that bit only; where it is set, nothing changes. A detach clears every ring block and HIF
register, sets DETACH_SEEN, marks what executes so that its completion will be dropped, and keeps what is held; every
object, output, engine, memory and unit stays as it was, sessions and what they load excepted. Training of the PCIe
link sets LINK (that the enumeration enables MSI-X with it is the model’s choice, log 8) unless the endpoint is held
in reset. -/
def Obligations.PauseAndDetach : Prop :=
  (∀ s, exec .ringsEnClear s = .next { s with hif := { s.hif with ringsEn := false } })
    ∧ (∀ s, ∃ t, exec .ringsEnSet s = .next t ∧ EvFrame s t ∧ t.hif.ringsEn = true)
    ∧ (∀ s, s.hif.ringsEn = true → exec .ringsEnSet s = .next s)
    ∧ (∀ s, s.hif.ringsEn = false → s.hif.kept = [] → s.hif.held = [] → s.hif.errDue = false → s.hif.reattach = false → s.hif.lost = 0 →
        s.hif.pba = 0 → (∀ q, q < 16 → (ringOf s q).resetting = false) →
        exec .ringsEnSet s = .next { s with hif := { s.hif with ringsEn := true } })
    ∧ (∀ s cause, ∃ t, exec (.hostDetach cause) s = .next t ∧ t.hif.detachSeen = true ∧ t.hif.ringsEn = false ∧ t.hif.sealReq = false
        ∧ t.hif.rings = List.replicate 38 {} ∧ t.hif.evqMap = 0 ∧ t.hif.intMask = 0 ∧ t.hif.configLost = false ∧ t.hif.reattach = true
        ∧ t.hif.intPend = 0 ∧ t.hif.errVec = 0 ∧ t.hif.dropped = 0 ∧ t.hif.kept = []
        ∧ (∀ x ∈ t.hif.started, x.orphan = true) ∧ (∀ x ∈ t.hif.deferred, x.st.orphan = true)
        ∧ t.hif.started.map (·.desc) = s.hif.started.map (·.desc)
        ∧ t.objs = s.objs ∧ t.gtc = s.gtc ∧ t.clk = s.clk ∧ t.eng = s.eng ∧ t.pg = s.pg ∧ t.swd = s.swd ∧ t.boost = s.boost
        ∧ t.kin = s.kin ∧ t.board = s.board ∧ t.boot = s.boot ∧ t.pwr = s.pwr ∧ t.sched.store = s.sched.store)
    ∧ (∀ s lanes, s.hif.link ≠ 3 → (lanes = 1 ∨ lanes = 2) →
        exec (.pcieLinkTrained lanes) s = .next { s with hif := { s.hif with link := lanes, msixOn := true, msixMask := false } })
    ∧ (∀ s lanes, s.hif.link = 3 → exec (.pcieLinkTrained lanes) s = .next s)

/-- HELD_EVENT_DRAIN writes the oldest held event first: with one held, its EQ served and with room, nothing lost, it
leaves the queue and goes to the slot of the EQ’s tail, with SUPERSEDED where its placement epoch has been retired;
with no EQ enabled nothing changes. Whatever is held, only the host interface, its memories and the log change. The
end of a rate-limit interval with occurrences counted raises the event with the data, epoch and gtc it holds and the
count in its place, and starts a new interval with no count; with none counted it only ends it; an interval that does
not run changes nothing. A moderation timeout of an enabled CQ, EQ or stream ring with entries not signalled signals
its vector and clears the count; else it does nothing. -/
def Obligations.HeldEventsAndIntervals : Prop :=
  (∀ s e q, s.hif.held = [e] → s.hif.lost = 0 → s.hif.reattach = false → evqFor s e.code = some q → ringServed s q = true
      → ringRoom (ringOf s q) = true → exec .heldEventDrain s
        = .next (ringProduce q (evBytes { e with superseded := epochRetired s e.handle e.epoch }) (some e) (decide (2 ≤ e.cls)) { s with hif := { s.hif with held := [] } }))
    ∧ (∀ s, (∀ c, evqFor s c = none) → (s.hif.lost = 0 ∨ s.hif.held ≠ []) → exec .heldEventDrain s = .next s)
    ∧ (∀ s, ∃ t, exec .heldEventDrain s = .next t ∧ EvFrame s t)
    ∧ (∀ s i c h k, s.hif.intervals.find? (fun i => i.code == c && i.handle == h && i.sub == k) = some i → i.count = 0 →
        exec (.eventIntervalEnd c h k) s = .next { toInstant i.ends s with hif := { s.hif with intervals := s.hif.intervals.erase i } })
    ∧ (∀ s i c h k, s.hif.intervals.find? (fun i => i.code == c && i.handle == h && i.sub == k) = some i → 0 < i.count → ∃ u : State,
        u = { toInstant i.ends s with hif := { s.hif with
          intervals := s.hif.intervals.erase i ++ [{ i with count := 0, ends := i.ends + i.length }] } }
        ∧ exec (.eventIntervalEnd c h k) s = .next (raiseAt i.gtc c i.cls h i.epoch
            (if i.countLen = 0 then i.data else putAt (padTo 11 i.data) i.countAt (satBytes i.countLen i.count)) u))
    ∧ (∀ s c h k, (∀ i ∈ s.hif.intervals, ¬ (i.code = c ∧ i.handle = h ∧ i.sub = k)) → exec (.eventIntervalEnd c h k) s = .next s)
    ∧ (∀ s r g, g = ringOf s r → ∃ u : State, u = toInstant (g.unsigAt + g.modTime * 480) s ∧ exec (.interruptModerationTimeout r) s
        = .next (if 16 ≤ r ∧ r < 38 ∧ g.en = true ∧ s.hif.ringsEn = true ∧ g.modTime ≠ 0 ∧ 0 < g.unsig
            then sendVector g.vector (setRing r (fun g => { g with unsig := 0 }) u) else s))

/-- A failed descriptor fetch of the SQ that is served stops it with DMA_READ, a failed shadow write of an enabled SQ with
DMA_WRITE; each sets HIF_STAT.DMA_FAULT, raises HOST_DMA_FAULT and signals ERR_VEC. A failed parameter block access
completes the descriptor DMA_ERROR with the event, and no ring stops for it. A failed entry write stops its ring with
DMA_WRITE, the slot holds what it held and the tail steps back: an event returns to the head of the holding queue (a
full queue drops its newest), a completion or stream entry is counted in LOST. An access of a ring that makes none
changes nothing. -/
def Obligations.HostMemoryFaults : Prop :=
  (∀ s q addr, sqNext s = some q → exec (.hostDmaFault (.fetch q addr)) s = .next (ringDmaFault q 7 addr s))
    ∧ (∀ s q addr, sqNext s ≠ some q → exec (.hostDmaFault (.fetch q addr)) s = .next s)
    ∧ (∀ s q e addr, q < 38 → s.hif.rings.length = 38 → ∃ u : State, u = { s with hif := { s.hif with dmaFault := true, rings := u.hif.rings } }
      ∧ (∀ p, p ≠ q → ringOf u p = ringOf s p) ∧ ringOf u q = { ringOf s q with error := true, err := e }
      ∧ ringDmaFault q e addr s = signalError (raise0 0x0083 0 (leBytes 4 q ++ leBytes 4 addr) u))
    ∧ (∀ s q addr, exec (.hostDmaFault (.shadow q addr)) s = .next (if (ringOf s q).en then ringDmaFault q 8 addr s else s))
    ∧ (∀ s d addr, exec (.hostDmaFault (.block d addr)) s
        = .next (fail d 0x000F (raise0 0x0083 0 ([0xFF, 0, 0, 0] ++ leBytes 4 addr) s)))
    ∧ (∀ s r addr e, (ringOf s r).en = true → (ringOf s r).prev ≠ [] → (ringOf s r).prevEv = some e
      → s.hif.held.length < 256 → ∃ u : State, u.hif.held = e :: s.hif.held
        ∧ exec (.hostDmaFault (.entry r addr)) s = .next (ringDmaFault r 8 addr u))
    ∧ (∀ s r addr e, (ringOf s r).en = true → (ringOf s r).prev ≠ [] → (ringOf s r).prevEv = some e
      → 256 ≤ s.hif.held.length → ∃ u : State, u.hif.held = e :: s.hif.held.dropLast ∧ u.hif.lost = s.hif.lost + 1 ∧ u.hif.heldOvf = true
        ∧ exec (.hostDmaFault (.entry r addr)) s = .next (ringDmaFault r 8 addr u))
    ∧ (∀ s r addr, r < 38 → s.hif.rings.length = 38 → (ringOf s r).en = true → (ringOf s r).prev ≠ [] → (ringOf s r).prevEv = none
      → ∃ u : State, (ringOf u r).lost = satInc 16 (ringOf s r).lost ∧ u.hif.held = s.hif.held
        ∧ (ringOf u r).tail = (if (ringOf s r).tail = 0 then (ringOf s r).size - 1 else (ringOf s r).tail - 1)
        ∧ exec (.hostDmaFault (.entry r addr)) s = .next (ringDmaFault r 8 addr u))
    ∧ (∀ s r addr, ((ringOf s r).en = false ∨ (ringOf s r).prev = []) → exec (.hostDmaFault (.entry r addr)) s = .next s)

/-- REGISTER_WRITE writes the addressed word of the register map; misaligned, or with no host side (PARKED), it changes
nothing. RW fields read back as written (HIF_INT_MASK, HIF_EVQ_MAP, GTC_CTL, TRC_CLOCK, a disabled ring’s base and
shadow, an MSI-X table word), W1C bits written 1 clear and those written 0 stay, RO registers and holes stay, an RWL
field is written only before the set-up lock is closed; ISL_LOCK closes it. WRITE and QWRITE of mailbox bytes and READ
and QREAD of them agree, bytes beyond 64 KiB are ignored and read 0; a word write of the register space is a register
write; a misaligned transaction, an unused space and an unknown command are discarded and set the flag that STATUS
returns. SYS_ECH_MAP bits of channels that no PWMCH uses take the value written, the others stay. -/
def Obligations.HostRegistersAndSpi : Prop :=
  (∀ s a v, exec (.registerWrite a v) s = .next (if a % 4 = 0 ∧ s.boot.mode ≠ .parked then regWrite a (v % 2 ^ 32) s else s))
    ∧ (∀ s v, s.boot.mode ≠ .parked → v < 2 ^ 32 →
      exec (.registerWrite 0x1020 v) s = .next { s with hif := { s.hif with evqMap := v } }
      ∧ exec (.registerWrite 0x1010 v) s = .next { s with hif := { s.hif with intMask := v } }
      ∧ exec (.registerWrite 0x6008 v) s = .next { s with trc := { s.trc with clock := v } }
      ∧ exec (.registerWrite 0x4008 v) s = .next s ∧ exec (.registerWrite 0x1000 v) s = .next s
      ∧ (∃ t, exec (.registerWrite 0x4010 v) s = .next t ∧ regValue 0x4010 t % 2 = v % 2 ∧ t.clk.discGain = v / 2 ^ 8 % 16
        ∧ t.clk.ppsFalling = bit v 4 ∧ t.clk.freqMan = bit v 1 ∧ t.clk.discEn = bit v 0 ∧ t = { s with clk := t.clk })
      ∧ (∃ t, exec (.registerWrite 0x1008 v) s = .next t ∧ t.hif.dbInvalid = (s.hif.dbInvalid && !bit v 6)
        ∧ t.hif.heldOvf = (s.hif.heldOvf && !bit v 7) ∧ t.hif.detachSeen = (s.hif.detachSeen && !bit v 4)
        ∧ t.hif.dmaFault = (s.hif.dmaFault && !bit v 5) ∧ t.hif.configLost = (s.hif.configLost && !bit v 3)
        ∧ t = { s with hif := t.hif } ∧ t.hif.rings = s.hif.rings)
      ∧ (s.isl.locked = false → ∃ t, exec (.registerWrite 0x2004 v) s = .next t ∧ t.isl.fltC1 = bit v 0 ∧ t.isl.logC1 = bit v 1)
      ∧ (s.isl.locked = true → exec (.registerWrite 0x2004 v) s = .next s ∧ exec (.sysEchMapWrite v) s = .next s))
    ∧ (∀ s r v, r < 38 → s.hif.rings.length = 38 → s.boot.mode ≠ .parked → v < 2 ^ 32 → (ringOf s r).en = false → ∃ t u,
      exec (.registerWrite (0x1100 + 0x20 * r) v) s = .next t ∧ (ringOf t r).base = (ringOf s r).base / 2 ^ 32 % 2 ^ 32 * 2 ^ 32 + v
      ∧ exec (.registerWrite (0x1110 + 0x20 * r) v) s = .next u ∧ (ringOf u r).shadow = (ringOf s r).shadow / 2 ^ 32 % 2 ^ 32 * 2 ^ 32 + v
      ∧ t = setRing r (fun _ => ringOf t r) s ∧ u = setRing r (fun _ => ringOf u r) s)
    ∧ (∀ s, exec .islLockWrite s = .next { s with isl := { s.isl with locked := true } })
    ∧ (∀ s off bs, off + bs.length ≤ 65536 → s.boot.mode = .native → ∃ t u,
      exec (.spiWrite (0x010000 + off) bs) s = .next t ∧ exec (.spiQwrite (0x010000 + off) bs) s = .next t
        ∧ exec (.spiRead (0x010000 + off) bs.length) t = .next u ∧ exec (.spiQread (0x010000 + off) bs.length) t = .next u
        ∧ u.hif.readData = bs ∧ (∀ a, (a < off ∨ off + bs.length ≤ a) → memRead t.mailbox a = memRead s.mailbox a)
        ∧ t = { s with mailbox := t.mailbox, hif := { s.hif with spiDiscarded := false } })
    ∧ (∀ s off (a b c d : Byte), off < 65536 → off % 4 = 0 → s.boot.mode = .native →
      exec (.spiWrite off [a, b, c, d]) s
        = .next (regWrite off (leNat [a, b, c, d]) { s with hif := { s.hif with spiDiscarded := false } }))
    ∧ (∀ s, s.boot.mode = .native → ∃ t, exec .spiStatus s = .next t
        ∧ t.hif.readData = [if s.hif.spiDiscarded then 3 else 1] ∧ t = { s with hif := { s.hif with readData := t.hif.readData } })
    ∧ (∀ s addr bs cmd, s.boot.mode = .native → addr < 2 ^ 24 → (addr / 65536 = 0 ∨ 2 ≤ addr / 65536) → (addr % 4 ≠ 0 ∨ 3 ≤ addr / 65536)
      → cmd < 256 → cmd ∉ [0x02, 0x0B, 0x32, 0x6B, 0x05] →
        exec (.spiBadCommand cmd) s = .next { s with hif := { s.hif with spiDiscarded := true } }
        ∧ exec (.spiWrite addr bs) s = .next { s with hif := { s.hif with spiDiscarded := true } }
        ∧ exec (.spiQwrite addr bs) s = .next { s with hif := { s.hif with spiDiscarded := true } })
    ∧ (∀ s v m, s.isl.locked = false → m < 16 → ∃ t, exec (.sysEchMapWrite v) s = .next t
      ∧ bit t.pg.echMap m = (if pwmOnChan s (112 + m) = none then bit v m else bit s.pg.echMap m)
      ∧ t = { s with pg := { s.pg with echMap := t.pg.echMap } })

/-- CREATE with a block (a TABLE with an image) that passes every check makes the object, at once where it names nothing
on other devices, else after their replies. One of a type other than PWMCH that drives nothing marks its session where
that made a NOZZLE or ROW, and adds one DISABLED object with that block, not placed, at an index that no object had;
the completion carries the handle of its generation, type and index. A block that fails completes with its status and
creates nothing, and without a free index NO_RESOURCE. DESTROY of a DISABLED object that nothing references, but for a
LAYER with marks not written back, removes it and gives the index its next generation, 1 after 255; one that drives
nothing leaves the rest as it is; an object that is not DISABLED completes STATE, a referenced one IN_USE, such a
LAYER its own status. CLUSTER_REF_CHECK of a member counts a handle that exists and replies OK, refuses another with
its status, and releases one. -/
def Obligations.ObjectsAreCreatedAndDestroyed : Prop :=
  (∀ s d ty b, passes 0x0001 d s = true → ty = hType (dHandle d) → b = (if dPtr d then blockOf s d else []) →
      (ty = tyTable → imageBad s b = none → exec (.create d) s = .next (createNow d tyTable b s))
      ∧ (ty ≠ tyTable → createBad s ty b = none → exec (.create d) s
        = .next (if (remoteOnly s ty (createBlock ty b) []).isEmpty then createNow d ty (createBlock ty b) s
            else awaitRefs d 0x0001 (dHandle d) (createBlock ty b) (remoteOnly s ty (createBlock ty b) []) s)))
    ∧ (∀ s d ty ps, takeIndex s = none → createNow d ty ps s = fail d 0x000B s)
    ∧ (∀ s d ty ps i g u, passes 0x0001 d s = true → ty = hType (dHandle d) → ty ≠ tyTable → ty ≠ tyPwmch
      → ps = createBlock ty (if dPtr d then blockOf s d else [])
      → createBad s ty (if dPtr d then blockOf s d else []) = none
      → remoteOnly s ty ps [] = [] → drivesOnly ty ps [] = [] → takeIndex s = some ((i, g), u) → ∃ o : Obj,
        o.idx = i ∧ o.typ = ty ∧ o.gen = g ∧ o.params = ps ∧ o.act = ps ∧ o.ost = .disabled ∧ o.slots = 0 ∧ o.engine = 0xFF ∧ o.epoch = 0
        ∧ o.changed = s.gtc ∧ objAt s i = none ∧ u = { s with freeCount := s.freeCount + 1 }
        ∧ exec (.create d) s = .next (complete d { handle := some (g * 2 ^ 24 + ty * 2 ^ 16 + i) }
          (loadMark (startedOf s d) ty { u with objs := insertObj o s.objs })))
    ∧ (∀ s d b i g u, passes 0x0001 d s = true → hType (dHandle d) = tyTable → dPtr d = true → b = blockOf s d → imageBad s b = none
      → drivesOnly tyTable b [] = [] → takeIndex s = some ((i, g), u) → ∃ o : Obj,
        o.idx = i ∧ o.typ = tyTable ∧ o.gen = g ∧ o.params = b ∧ o.ost = .disabled
        ∧ exec (.create d) s = .next (complete d { handle := some (g * 2 ^ 24 + tyTable * 2 ^ 16 + i) } { u with objs := insertObj o s.objs }))
    ∧ (∀ s d ty e, passes 0x0001 d s = true → ty = hType (dHandle d) → ty ≠ tyTable → createBad s ty (if dPtr d then blockOf s d else []) = some e →
        exec (.create d) s = .next (failWith d e.status e.result s))
    ∧ (∀ s d o, passes 0x0002 d s = true → objOf s (dHandle d) = some o → o.ost = .disabled → enablePending s (handleOf o) = false
      → referenced s (handleOf o) = false → o.typ ≠ tyLayer → o.typ ≠ tyPwmch → drivesOnly o.typ o.params [] = []
      → remoteOnly s o.typ o.params [] = [] →
        exec (.destroy d) s = .next (ok d { s with
          objs := s.objs.filter fun x => x.idx != o.idx
          gens := (o.idx, if o.gen = 255 then 1 else o.gen + 1) :: s.gens.filter fun x => x.1 != o.idx }))
    ∧ (∀ s d o, passes 0x0002 d s = true → objOf s (dHandle d) = some o → o.ost = .disabled → enablePending s (handleOf o) = false
      → referenced s (handleOf o) = false → (o.typ = tyLayer → (∀ t ∈ (layerOf o).tiles, t.dirty = false) ∧ (layerOf o).wbs = []) → ∃ u : State,
        exec (.destroy d) s = .next (ok d u) ∧ objAt u o.idx = none
        ∧ u.gens = (o.idx, if o.gen = 255 then 1 else o.gen + 1) :: s.gens.filter fun x => x.1 != o.idx)
    ∧ (∀ s d o, passes 0x0002 d s = true → objOf s (dHandle d) = some o → o.ost = .disabled → enablePending s (handleOf o) = false
      → referenced s (handleOf o) = false → o.typ = tyLayer → ((layerOf o).tiles.any (·.dirty) = true ∨ (layerOf o).wbs ≠ []) →
        exec (.destroy d) s = .next (fail d 0x0505 s))
    ∧ (∀ s d o, passes 0x0002 d s = true → objOf s (dHandle d) = some o → (o.ost ≠ .disabled ∨ enablePending s (handleOf o) = true) →
        exec (.destroy d) s = .next (fail d 0x000E s))
    ∧ (∀ s d o, passes 0x0002 d s = true → objOf s (dHandle d) = some o → o.ost = .disabled → enablePending s (handleOf o) = false
      → referenced s (handleOf o) = true → exec (.destroy d) s = .next (fail d 0x000D s))
    ∧ (∀ s h ty o, objOf s h = some o → exec (.clusterRefCheck h ty false) s = .next { s with osl := { s.osl with
          leadRefs := s.osl.leadRefs ++ [(h, ty)]
          outbox := s.osl.outbox ++ [{ kind := .refReply, dst := 0, src := s.osl.position, body := leBytes 4 h ++ leBytes 2 0 }] } })
    ∧ (∀ s h ty, objOf s h = none → ∃ st, (st = 0x0003 ∨ st = 0x0002) ∧ exec (.clusterRefCheck h ty false) s = .next { s with osl := { s.osl with
          outbox := s.osl.outbox ++ [{ kind := .refReply, dst := 0, src := s.osl.position, body := leBytes 4 h ++ leBytes 2 st }] } })
    ∧ (∀ s h ty, exec (.clusterRefCheck h ty true) s = .next { s with osl := { s.osl with leadRefs := s.osl.leadRefs.erase (h, ty) } })

/-- SET_PARAMS that passes every check gives the object a block whose written range holds the bytes sent and whose other
bytes stay, at once where it names no new object of another device, else after their replies; it comes into force at
once while the object is DISABLED. Where it drives nothing anew and its cost stays, nothing else changes but the state
machines of a table it binds anew, what a commit for the same boundary would overwrite, and the mark that its session
has loaded the configuration. A failing block completes with its status and writes nothing. STAGE_PARAMS, for an
object in a group, appends the range to the staged changes and reserves the cost; outside a group it completes STATE.
GET_PARAMS writes the range asked for where the block pointer says, beyond the block BAD_LENGTH. GET_STATUS writes the
32-byte head of R74 and the type’s part, at most the length given; the head’s first 7 bytes are the result. -/
def Obligations.ParametersAndStatus : Prop :=
  (∀ s d o w ps, passes 0x0003 d s = true → objOf s (dHandle d) = some o → writeRange s d = .ok w → writeBlock o.typ o.params w.1 w.2 = some ps
      → paramsBad s o ps = none →
        slice ps w.1 w.2.length = w.2
        ∧ (∀ k, (k < w.1 ∨ w.1 + w.2.length ≤ k) → k < o.params.length → k < ps.length → u8 ps k = u8 o.params k)
        ∧ exec (.setParams d) s = .next (if (remoteOnly s o.typ ps o.params).isEmpty
          then ok d (loadMark (startedOf s d) o.typ (keepLater d o (applyParams o ps s)))
          else awaitRefs d 0x0003 (handleOf o) ps (remoteOnly s o.typ ps o.params) s))
    ∧ (∀ s o ps, remoteOnly s o.typ o.params ps = [] → drivesOnly o.typ ps o.params = [] → drivesOnly o.typ o.params ps = [] → o.typ ≠ tyPwmch
      → (o.ost = .disabled ∨ (jobCost s o.typ ps : Int) = costAhead s o) →
        applyParams o ps s = updObj o.idx (fun x => { x with
          params := ps, act := if o.ost = .disabled then ps else x.act, sms := smRebind s o.params ps x.sms }) s)
    ∧ (∀ s d o, commitPending s o = false → keepLater d o s = s)
    ∧ (∀ s d o w ps e, passes 0x0003 d s = true → objOf s (dHandle d) = some o → writeRange s d = .ok w
      → writeBlock o.typ o.params w.1 w.2 = some ps → paramsBad s o ps = some e →
        exec (.setParams d) s = .next (failWith d e.status e.result s))
    ∧ (∀ s d o, passes 0x0003 d s = true → dPtr d = false → objOf s (dHandle d) = some o → (u16 d.bytes 18 = 0 ∨ 24 < u16 d.bytes 18) →
        exec (.setParams d) s = .next (fail d 0x0004 s))
    ∧ (∀ s d o w ps, passes 0x0308 d s = true → objOf s (dHandle d) = some o → inGroup s (handleOf o) = true → writeRange s d = .ok w
      → stagedBlock o (o.staged ++ [w]) = some ps → paramsBad s o ps = none →
        exec (.stageParams d) s = .next (ok d (updObj o.idx (fun x => { x with staged := x.staged ++ [w] })
          (costReserve o (jobCost s o.typ ps) (nextBoundary s.gtc) (stageTag (handleOf o)) s))))
    ∧ (∀ s d o, passes 0x0308 d s = true → objOf s (dHandle d) = some o → inGroup s (handleOf o) = false →
        exec (.stageParams d) s = .next (fail d 0x000E s))
    ∧ (∀ s d bs r, ptrMailbox (dBlockPtr d) = false →
        writeBack d bs r s = complete d { r with writeback := true } { s with hostMem := memWriteN s.hostMem (dBlockPtr d) bs })
    ∧ (∀ s d o, passes 0x0004 d s = true → objOf s (dHandle d) = some o → dOffset d + dBlockLen d ≤ o.params.length →
        exec (.getParams d) s = .next (writeBack d (slice o.params (dOffset d) (dBlockLen d)) {} s))
    ∧ (∀ s d o, passes 0x0004 d s = true → objOf s (dHandle d) = some o → o.params.length < dOffset d + dBlockLen d →
        exec (.getParams d) s = .next (fail d 0x0005 s))
    ∧ (∀ s d o, passes 0x0007 d s = true → objOf s (dHandle d) = some o → ∃ head jf,
        head = leBytes 1 (ostByte o.ost) ++ leBytes 1 o.engine ++ leBytes 2 o.slots ++ leBytes 2 o.epoch ++ leBytes 1 jf ++ [0]
          ++ satBytes 4 o.ffTotal ++ satBytes 2 o.ffConsec ++ leBytes 2 o.lastFault ++ satBytes 4 o.discarded ++ leBytes 4 o.cost ++ leBytes 8 o.changed
        ∧ head.length = 32 ∧ jf < 16 ∧ (bit jf 1 = true ↔ (moveOf s (handleOf o)).isSome) ∧ (bit jf 2 = true ↔ inGroup s (handleOf o) = true)
        ∧ (bit jf 3 = true ↔ o.staged ≠ []) ∧ (bit jf 0 = true ↔ jobTypes.contains o.typ = true ∧ 1 ≤ jobPlacement o.act)
        ∧ exec (.getStatus d) s = .next (writeBack d ((head ++ statusType s o).take (dBlockLen d)) { result := head.take 7 } s))

/-- ENABLE of a DISABLED object whose conditions hold is accepted: it is pending for the first boundary at or after the
GTC asked for (for a group with members elsewhere at least two frames on), and a job is placed at acceptance; a job
that no engine admits completes PLACEMENT_FULL, an object that is not DISABLED STATE, but an ENABLED GROUP, whose
DISABLED members are judged and placed. DISABLE of an object that is not DISABLED is pending likewise, an ENABLED
GROUP with its members. At the boundary the pending operation runs: a LAYER, WING or GROUP whose conditions still hold
becomes ENABLED with its block in force, and a GEOPOINT or WING that nothing relies on becomes DISABLED; the
descriptor then completes. ABORT completes a pending descriptor with ABORTED, undoes what it had reserved, and answers
whether one was found. RING_SYNC completes when nothing that was started before it executes, and waits till then. -/
def Obligations.EnableAndDisable : Prop :=
  (∀ s d op h due r a, ∃ u : State, u = { s with hif := { s.hif with
        started := s.hif.started.erase (startedOf s d)
        deferred := s.hif.deferred ++ [{ st := startedOf s d, op := op, handle := h, due := due, result := r, arg := a }] } }
      ∧ defer d op h due r a s = settle s.hif.started.length u
      ∧ ((∀ x ∈ u.hif.started, waitOver u x = false) → defer d op h due r a s = u))
    ∧ (∀ s d o b p, passes 0x0005 d s = true → objOf s (dHandle d) = some o → o.ost = .disabled → enablePending s (handleOf o) = false
      → b = (if o.typ = tyGroup then groupBoundary s o (u64 d.bytes 16) else (takeEffect s.gtc (u64 d.bytes 16), takeEffectLate s.gtc (u64 d.bytes 16)))
      → enableJudge s b.1 false refDepth [handleOf o] o = none → p = placeJob o s →
        exec (.enable d) s = .next (if p.1 = 0 then defer d 0x0005 (handleOf o) b.1 (leBytes 7 b.2) 0 p.2 else fail d p.1 p.2))
    ∧ (∀ s o, jobTypes.contains o.typ = false → placeJob o s = (0, s))
    ∧ (∀ s o c, jobTypes.contains o.typ = true → pinnedOut s o = false → c = jobCost s o.typ o.params → placeJob o s =
        (match placeFind s o.typ (jobRate o.params) c (headPinE o.params) (headPinS o.params) none with
          | some p => (0, updObj o.idx (fun y => { y with engine := p.1, slots := p.2, cost := c }) (addLoad p.1 p.2 c false s))
          | none => (0x0301, s)))
    ∧ (∀ s d g os p b, passes 0x0005 d s = true → objOf s (dHandle d) = some g → g.ost = .enabled → g.typ = tyGroup → lockFull s g = false
      → os = groupOff s g → os.findSome? (enableJudge s 0 false refDepth (os.map handleOf)) = none → p = placeAll os s → p.1 = 0
      → b = groupBoundary s g (u64 d.bytes 16) →
        exec (.enable d) s = .next (lockPost g 1 b.1 (defer d 0x0005 (handleOf g) b.1 (leBytes 7 b.2) 1 p.2)))
    ∧ (∀ s d o, passes 0x0005 d s = true → objOf s (dHandle d) = some o → (o.ost ≠ .disabled ∨ enablePending s (handleOf o) = true)
      → (o.typ ≠ tyGroup ∨ o.ost ≠ .enabled) → exec (.enable d) s = .next (fail d 0x000E s))
    ∧ (∀ s d o, passes 0x0006 d s = true → objOf s (dHandle d) = some o → o.ost = .disabled →
        exec (.disable d) s = .next (fail d 0x000E s))
    ∧ (∀ s d o, passes 0x0006 d s = true → objOf s (dHandle d) = some o → o.ost ≠ .disabled → (o.typ ≠ tyGroup ∨ o.ost ≠ .enabled) →
        exec (.disable d) s = .next (defer d 0x0006 (handleOf o) (takeEffect s.gtc (u64 d.bytes 16))
          (leBytes 7 (takeEffectLate s.gtc (u64 d.bytes 16))) 0 s))
    ∧ (∀ s d g b, passes 0x0006 d s = true → objOf s (dHandle d) = some g → g.typ = tyGroup → g.ost = .enabled → lockFull s g = false
      → b = groupBoundary s g (u64 d.bytes 16) →
        exec (.disable d) s = .next (lockPost g 2 b.1 (defer d 0x0006 (handleOf g) b.1 (leBytes 7 b.2) 1 s)))
    ∧ (∀ s h x, deferredOf s 0x0005 h = some x → exec (.enableTakeEffect h) s
        = .next (if x.arg = 1 then groupEnableRun x (toInstant x.due s) else enableRun refDepth x (toInstant x.due s)))
    ∧ (∀ s h x, deferredOf s 0x0006 h = some x → exec (.disableTakeEffect h) s
        = .next (if x.arg = 1 then groupDisableRun x (toInstant x.due s) else disableRun refDepth x (toInstant x.due s)))
    ∧ (∀ s h, (deferredOf s 0x0005 h = none → exec (.enableTakeEffect h) s = .next s)
        ∧ (deferredOf s 0x0006 h = none → exec (.disableTakeEffect h) s = .next s))
    ∧ (∀ s h x o, deferredOf s 0x0005 h = some x → x.arg = 0 → x.due ≤ s.gtc → objOf s h = some o → objAt s o.idx = some o → [tyLayer, tyWing, tyGroup].contains o.typ = true
      → o.ost = .disabled → needs s o = [] → enableJudge s x.due true refDepth [h] o = none →
        exec (.enableTakeEffect h) s = .next (completeDeferred x { result := x.result }
          (updObj o.idx (fun y => { y with act := y.params, ffConsec := 0, ost := .enabled, changed := s.gtc }) s)))
    ∧ (∀ s h x o, deferredOf s 0x0006 h = some x → x.arg = 0 → x.due ≤ s.gtc → objOf s h = some o → objAt s o.idx = some o → [tyGeopoint, tyWing].contains o.typ = true
      → o.ost ≠ .disabled → (∀ y ∈ s.objs, (needs s y).contains h = false) → reliedOn s x.due [] o = false
      → o.slots = 0 → moveOf s h = none → (∀ c ∈ s.eng.costs, c.handle ≠ h) →
        exec (.disableTakeEffect h) s = .next (completeDeferred x { result := x.result }
          (updObj o.idx (fun y => { y with ost := .disabled, changed := s.gtc, act := y.params, engine := 0xFF, slots := 0, cost := 0 }) s)))
    ∧ (∀ s d, passes 0x0009 d s = true → u8 d.bytes 24 < 16 → ∀ q, q = s.hif.deferred.find? (fun x =>
        dCookie x.st.desc == u64 d.bytes 16 && x.st.desc.sq == u8 d.bytes 24 && !x.st.orphan) →
        (q = none → exec (.abort d) s = .next (okWith d [0] s))
        ∧ (∀ x, q = some x → exec (.abort d) s = .next (okWith d [1] (if x.op = 0x0300 then abandonMove x.handle 0x0010 s
            else cancelEffect x (completeDeferred x { status := 0x0010 } s)))))
    ∧ (∀ s d, passes 0x0009 d s = true → 16 ≤ u8 d.bytes 24 → exec (.abort d) s = .next (fail d 0x0004 s))
    ∧ (∀ s x, x.op = 0x0006 → cancelEffect x s = s)
    ∧ (∀ s d, passes 0x0008 d s = true → exec (.ringSync d) s
        = .next (if startedOf s d ∉ s.hif.started ∨ startedBefore s (startedOf s d) = [] then ok d s else { s with hif := { s.hif with
            started := s.hif.started.map fun x => if x = startedOf s d then { x with sync := true } else x } }))

/-- CLASS1_FAULT raises the event with the object’s handle and epoch and sets its last fault; an object that is not
ENABLED, or an AXIS that is taking its fault action already, has nothing more done to it. An ENABLED object takes its
fault action, an AXIS to rest first, the members of its linked groups follow, and a member device tells the lead of an
object that it references. For an ENABLED SECTION, FEEDBACK, CANPORT, GEOPOINT, LAYER or WING, which drive no line,
that no channel drives, no lock group links, no castling moves and no lead references, the whole effect is that it is
FAULTED with the GTC of the change. A handle that names no object changes nothing. -/
def Obligations.ClassOneFaultStopsAnObject : Prop :=
  (∀ s h code o, objOf s h = some o → (o.ost ≠ .enabled ∨ axFaulting o = true) →
      exec (.class1Fault h code) s = .next (updH h (fun y => { y with lastFault := code }) (raiseE code 1 h o.epoch [] s)))
    ∧ (∀ s h code o, objOf s h = some o → objAt s o.idx = some o → o.ost = .enabled
      → [tySection, tyFeedback, tyCanport, tyGeopoint, tyLayer, tyWing].contains o.typ = true
      → moveOf s h = none → channelsOn s h = [] → linkGroups s s.osl.position h = [] → s.osl.leadRefs.any (·.1 == h) = false →
        exec (.class1Fault h code) s = .next (setOst o.idx .faulted (updH h (fun y => { y with lastFault := code }) (raiseE code 1 h o.epoch [] s))))
    ∧ (∀ s h code o, objOf s h = some o → o.ost = .enabled → axFaulting o = false → ∃ u v : State,
        u = updH h (fun y => { y with lastFault := code }) (raiseE code 1 h o.epoch [] s)
        ∧ v = linkFault u.osl.position h (faultObj h u)
        ∧ exec (.class1Fault h code) s = .next (if v.osl.role = 2 ∧ v.osl.leadRefs.any (·.1 == h) = true then sendFault 0 0 h [] v else v))
    ∧ (∀ s h o, objOf s h = some o → o.ost = .enabled → axFaulting o = false →
        faultObj h s = if o.typ = tyAxis then axFaultAct o (updAx o.idx (fun r => { r with faulting := true }) s)
          else becomeFaulted o (faultAct o s))
    ∧ (∀ s h code, objOf s h = none → exec (.class1Fault h code) s = .next s)

/-- In every state: a class 2 event is counted among the conditions. Where no device fault is latched it sets
DEVICE_FAULT, keeps the code and the handle as the first fault, asserts the safe force, empties the HOLD lines, and no
NOZZLE, ROW, SECTION, LOOP, AXIS, PWMCH, SWITCH or SOLENOID is ENABLED afterwards; every object keeps its index, type,
generation and written block. Where one is latched already, the first fault stays and no object changes. -/
def Obligations.DeviceFaultLeavesNothingEnabled : Prop :=
  (∀ s code h data, ∃ t, t = class2 code h data s
      ∧ t.isl.deviceFault = true ∧ code ∈ t.isl.conditions
      ∧ (s.isl.deviceFault = false → t.isl.faultCode = code ∧ t.isl.faultHandle = h ∧ t.isl.safeFault = true ∧ t.isl.hold = []
        ∧ (∀ o ∈ t.objs, faultTypes.contains o.typ = true → o.ost ≠ .enabled))
      ∧ (s.isl.deviceFault = true → t.isl.faultCode = s.isl.faultCode ∧ t.isl.faultHandle = s.isl.faultHandle ∧ t.objs = s.objs))
    ∧ (∀ s code h data, (class2 code h data s).objs.map (fun o => (o.idx, o.typ, o.gen, o.params))
        = s.objs.map fun o => (o.idx, o.typ, o.gen, o.params))

/-- JOB_MOVE of an ENABLED job to a placement other than the present one loads the new slots, records a move that starts
at the next boundary, and is pending for two frames later; to the present placement it completes OK with it. a job
that is not ENABLED completes STATE, one that moves CASTLE_IN_PROGRESS, an engine or pin outside its range BAD_PARAM.
CASTLE_COPY_DONE at that boundary marks the copy; CASTLE_TAKEOVER then, two frames later, gives the job its new
engine, slots, pins and next epoch, releases the old slots and ends the move. A slot’s end drops the slot’s falling
jobs and counts each. FLAG_FALL_LIMIT is a class 1 fault once the run reaches a non-zero limit. A hung engine leaves
service with its event, moves to it are abandoned, and each of its jobs is moved where one that is not pinned fits, or
lost; ENGINE_RESTORE with a passed self-test returns it. ENGINE_STATUS writes 24 records of 48 bytes, the peak open up
to its bound. After three slots with falls the costliest movable job of the slot is castled away. -/
def Obligations.EnginesRunAndMoveJobs : Prop :=
  (∀ s d o p, passes 0x0300 d s = true → objOf s (dHandle d) = some o → o.ost = .enabled → moveOf s (handleOf o) = none
      → (u8 d.bytes 16 = 0xFF ∨ 1 ≤ u8 d.bytes 16 ∧ u8 d.bytes 16 ≤ 23 ∧ engineOut s (u8 d.bytes 16) = false)
      → (u8 d.bytes 17 = 0xFF ∨ (firstSlots o.typ (jobRate o.act)).contains (u8 d.bytes 17) = true) → u8 d.bytes 18 < 2
      → placeFind s o.typ (jobRate o.act) (heldCost s o) (if u8 d.bytes 16 = 0xFF then none else some (u8 d.bytes 16))
          (if u8 d.bytes 17 = 0xFF then none else some (u8 d.bytes 17)) none = some p →
        (p = (o.engine, o.slots) → exec (.jobMove d) s = .next (okWith d
          (leBytes 1 o.engine ++ leBytes 1 o.engine ++ leBytes 2 o.slots ++ leBytes 2 o.epoch) s))
        ∧ (p ≠ (o.engine, o.slots) → ∃ u : State, ∃ m : Move,
          m = { handle := handleOf o, oldE := o.engine, oldSlots := o.slots, newE := p.1, newSlots := p.2, boundary := nextBoundary s.gtc
                cause := 0, pin := u8 d.bytes 18 == 1 }
          ∧ u = { addLoad p.1 p.2 (heldCost s o) false s with
                  eng := { (addLoad p.1 p.2 (heldCost s o) false s).eng with moves := s.eng.moves ++ [m] } }
          ∧ exec (.jobMove d) s = .next (defer d 0x0300 (handleOf o) (nextBoundary s.gtc + 2 * frameTicks) [] 0 u)))
    ∧ (∀ s d o, passes 0x0300 d s = true → objOf s (dHandle d) = some o →
        (o.ost ≠ .enabled → exec (.jobMove d) s = .next (fail d 0x000E s))
        ∧ (o.ost = .enabled → moveOf s (handleOf o) ≠ none → exec (.jobMove d) s = .next (fail d 0x0302 s))
        ∧ (o.ost = .enabled → moveOf s (handleOf o) = none → (u8 d.bytes 16 = 0 ∨ 24 ≤ u8 d.bytes 16 ∧ u8 d.bytes 16 ≠ 0xFF ∨ 2 ≤ u8 d.bytes 18) →
          exec (.jobMove d) s = .next (fail d 0x0004 s)))
    ∧ (∀ s h m, moveOf s h = some m → ∃ u : State, u = toInstant m.boundary s ∧ exec (.castleCopyDone h) s
        = .next { u with eng := { u.eng with moves := u.eng.moves.map fun x => if x = m then { x with copied := true } else x } })
    ∧ (∀ s h, moveOf s h = none → exec (.castleCopyDone h) s = .next s ∧ exec (.castleTakeover h) s = .next s)
    ∧ (∀ s h m, moveOf s h = some m → m.copied = false → exec (.castleTakeover h) s = .next s)
    ∧ (∀ s h m o ep, moveOf s h = some m → objOf s h = some o → m.copied = true
      → objAt s o.idx = some o → ep = (if o.epoch = 65535 then 1 else o.epoch + 1) → ∃ u t : State, u = toInstant (m.boundary + 2 * frameTicks) s
        ∧ exec (.castleTakeover h) s = .next t
        ∧ objAt t o.idx = some { o with engine := m.newE, slots := m.newSlots, epoch := ep
                                        params := headAfterMove m.newE m.newSlots m.pin o.params
                                        act := headAfterMove m.newE m.newSlots m.pin o.act }
        ∧ t.eng = { (addLoad m.oldE m.oldSlots (heldCost u o) true u).eng with moves := s.eng.moves.erase m }
        ∧ (∀ i, i ≠ o.idx → objAt t i = objAt s i))
    ∧ (∀ e msk ps, (jobPlacement ps = 1 → headAfterMove e msk false ps = putAt ps 1 (leBytes 1 e))
        ∧ (jobPlacement ps = 0 → headAfterMove e msk true ps = putAt ps 0 (leBytes 1 1 ++ leBytes 1 e) ∧ headAfterMove e msk false ps = ps))
    ∧ (∀ s slot u, (∀ f ∈ s.eng.falling, f.slot ≠ slot) → u = toInstant (s.gtc / 48000 * 48000 + 3000 * (slot + 1) - 1) s →
        exec (.slotEnd slot) s = .next { u with eng := { u.eng with engines := u.eng.engines.mapIdx (fallRunNext u slot) } })
    ∧ (∀ s slot, ∃ t, exec (.slotEnd slot) s = .next t ∧ t.eng.falling = s.eng.falling.filter (fun f => f.slot != slot)
        ∧ (∀ i, (∀ f ∈ s.eng.falling, f.slot = slot → f.idx ≠ i) → objAt t i = objAt s i)
        ∧ (∀ f o, s.eng.falling = [f] → f.slot = slot → objAt s f.idx = some o →
          objAt t f.idx = some { o with ffTotal := satInc 32 o.ffTotal, ffConsec := satInc 16 o.ffConsec }))
    ∧ (∀ s h o, objOf s h = some o → jobTypes.contains o.typ = true → jobFfLimit o.act ≠ 0 → jobFfLimit o.act ≤ o.ffConsec →
        exec (.flagFallLimit h) s = .next (class1 h 0x0341 [] s))
    ∧ (∀ s h, (objOf s h = none ∨ ∃ o, objOf s h = some o ∧ (jobFfLimit o.act = 0 ∨ o.ffConsec < jobFfLimit o.act)) →
        exec (.flagFallLimit h) s = .next s)
    ∧ (∀ s e, 1 ≤ e → e < 24 → engineOut s e = false → ∃ u : State,
        u = abortMovesTo e (raise0 0x0344 0 (leBytes 1 e) (updEngine e (fun x => { x with svc := 2 }) s))
        ∧ exec (.engineHung e) s = .next ((u.objs.filter fun o => isEnabled o && o.engine == e && jobTypes.contains o.typ).foldl
          (fun s o => evacuate e o s) u))
    ∧ (∀ s e o, moveOf s (handleOf o) = none → evacuate e o s
        = match (if jobPlacement o.act = 0 then placeFind s o.typ (jobRate o.act) (heldCost s o) none none (some e) else none) with
          | none => class1 (handleOf o) 0x0345 (leBytes 1 e) s
          | some p => startMove o p.1 p.2 2 false s)
    ∧ (∀ s e, (e = 0 ∨ 24 ≤ e ∨ engineOut s e = true) → exec (.engineHung e) s = .next s)
    ∧ (∀ s e, 1 ≤ e → e < 24 → engineOut s e = false → s.eng.moves = [] → (∀ o ∈ s.objs, o.engine ≠ e) →
        exec (.engineHung e) s = .next (raise0 0x0344 0 (leBytes 1 e) (updEngine e (fun x => { x with svc := 2 }) s)))
    ∧ (∀ s d, passes 0x0302 d s = true → 1 ≤ u8 d.bytes 16 → u8 d.bytes 16 < 24 →
        (engineOut s (u8 d.bytes 16) = true →
          exec (.engineRestore d true) s = .next (okWith d [1] (updEngine (u8 d.bytes 16) (fun x => { x with svc := 0 }) s))
          ∧ exec (.engineRestore d false) s = .next (fail d 0x030B s))
        ∧ (engineOut s (u8 d.bytes 16) = false → ∀ b, exec (.engineRestore d b) s = .next (okWith d [0] s)))
    ∧ (∀ s d b, passes 0x0302 d s = true → (u8 d.bytes 16 = 0 ∨ 24 ≤ u8 d.bytes 16) → exec (.engineRestore d b) s = .next (fail d 0x0004 s))
    ∧ (∀ s d, passes 0x0301 d s = true → ∃ bs,
        exec (.engineStatus d) s = .next (writeBack d bs {} { s with freeCount := s.freeCount + 24 })
        ∧ (s.eng.engines.length = 24 → (∀ x ∈ s.eng.engines, x.loads.length = 16) → bs.length = 1152
          ∧ ∀ e x, s.eng.engines[e]? = some x → u8 bs (48 * e) = x.svc % 256 ∧ u32 bs (48 * e + 4) = x.falls % 2 ^ 32
            ∧ u16 bs (48 * e + 40) ≤ peakMax s x
            ∧ ∀ q, q < 16 → u16 bs (48 * e + 8 + 2 * q) = x.loads.getD q 0 % 2 ^ 16))
    ∧ (∀ s e q o p, 3 ≤ ((s.eng.engines[e]?).map fun x => x.fallRun.getD q 0).getD 0 → (∀ m ∈ s.eng.moves, m.cause ≠ 1)
      → costliest (s.objs.filter fun o => isEnabled o && o.engine == e && jobTypes.contains o.typ && bit o.slots q
          && jobPlacement o.act == 0 && jobRebalance o.act && (moveOf s (handleOf o)).isNone) = some o
      → placeFind s o.typ (jobRate o.act) (heldCost s o) none none (some e) = some p → ∃ t u : State, ∃ m : Move,
        exec (.rebalanceCastle e q) s = .next t
        ∧ u = addLoad p.1 p.2 (heldCost s o) false s
        ∧ m.handle = handleOf o ∧ m.oldE = o.engine ∧ m.oldSlots = o.slots ∧ m.newE = p.1 ∧ m.newSlots = p.2 ∧ m.cause = 1
        ∧ m.copied = false ∧ m.boundary = nextBoundary s.gtc
        ∧ t = updEngine e (fun x => { x with fallRun := x.fallRun.set q 0 }) { u with eng := { u.eng with moves := s.eng.moves ++ [m] } })
    ∧ (∀ s e q, (((s.eng.engines[e]?).map fun x => x.fallRun.getD q 0).getD 0 < 3 ∨ ∃ m ∈ s.eng.moves, m.cause = 1) →
        exec (.rebalanceCastle e q) s = .next s)

/-- GROUP_COMMIT of a group in any state whose members have nothing staged that fails, and whose new costs fit, reserves
them, sends its lock message where members are elsewhere, and is pending for its boundary; four waiting messages
complete BUSY, a staged change that fails its status, costs that do not fit PLACEMENT_FULL. At the boundary the staged
blocks come into force together. A member device that gets a lock message joins it to what it holds and acknowledges
it. A device that has not acknowledged when the boundary comes is taken off the list and GROUP_BROKEN goes to each
member. A reference wait that times out completes REMOTE_REFUSED with the position and 0xFFFF. On a running device of
the cluster an Osund packet with a bad CRC is counted and dropped, one for this device is consumed, one for another
sent on; a member consumes the broadcast and sends it on first, from its own position. -/
def Obligations.GroupsAndClusterReferences : Prop :=
  (∀ s d g os b cs, passes 0x0309 d s = true → objOf s (dHandle d) = some g → lockFull s g = false
      → os = (groupHere s g).filter (fun o => !o.staged.isEmpty) → os.findSome? (commitBad s) = none → b = groupBoundary s g (u64 d.bytes 16)
      → cs = os.filterMap (fun o => (stagedBlock o o.staged).map fun ps => (o, jobCost s o.typ ps)) →
        (∀ u, costReserveAll b.1 (costTag d) cs s = some u →
          exec (.groupCommit d) s = .next (lockPost g 0 b.1 (defer d 0x0309 (handleOf g) b.1 (leBytes 7 b.2) 0 u)))
        ∧ (costReserveAll b.1 (costTag d) cs s = none → exec (.groupCommit d) s = .next (fail d 0x0301 s)))
    ∧ (∀ s d g, passes 0x0309 d s = true → objOf s (dHandle d) = some g → lockFull s g = true → exec (.groupCommit d) s = .next (fail d 0x000C s))
    ∧ (∀ s d g e, passes 0x0309 d s = true → objOf s (dHandle d) = some g → lockFull s g = false
      → ((groupHere s g).filter fun o => !o.staged.isEmpty).findSome? (commitBad s) = some e →
        exec (.groupCommit d) s = .next (failWith d e.status e.result s))
    ∧ (∀ s d g, passes 0x0309 d s = true → objOf s (dHandle d) = some g → groupFar s g = []
      → (∀ o ∈ groupHere s g, o.staged = [] ∨ o.ost = .disabled ∧ ∃ ps, stagedBlock o o.staged = some ps ∧ paramsBad s o ps = none) →
        exec (.groupCommit d) s = .next (defer d 0x0309 (handleOf g) (takeEffect s.gtc (u64 d.bytes 16))
          (leBytes 7 (takeEffectLate s.gtc (u64 d.bytes 16))) 0 s))
    ∧ (∀ s h x u g, deferredOf s 0x0309 h = some x
      → u = (s.eng.costs.filter fun c => c.tag == costTag x.st.desc).foldl (fun s c => costApply c s) (toInstant x.due s)
      → objOf u h = some g →
        exec (.groupCommitTakeEffect h) s = .next (completeDeferred x { result := x.result }
          (((groupHere u g).filter fun o => !o.staged.isEmpty).foldl (fun s o => commitApply o s) u)))
    ∧ (∀ s o ps, objAt s o.idx = some o → s.objs.Pairwise (fun a b => a.idx ≠ b.idx) → s.eng.costs = [] → o.ost = .disabled → o.typ ≠ tyPwmch → o.typ ≠ tySolenoid
      → stagedBlock o o.staged = some ps
      → remoteOnly s o.typ o.params ps = [] → drivesOnly o.typ o.params ps = [] → drivesOnly o.typ ps o.params = [] →
        commitApply o s = updObj o.idx (fun y => { y with params := ps, act := ps, staged := [], sms := smRebind s o.params ps y.sms }) s)
    ∧ (∀ s h, deferredOf s 0x0309 h = none → exec (.groupCommitTakeEffect h) s = .next s)
    ∧ (∀ s g k b ms, s.osl.role = 2 → ∃ m : LockMsg, m.group = g ∧ m.kind = k ∧ m.boundary = b ∧ m.members = ms.map (fun h => (s.osl.position, h))
        ∧ exec (.groupLockMessage g k b ms) s = .next { s with
          osl := { s.osl with outbox := s.osl.outbox ++
            [{ kind := .lockAck, dst := 0, src := s.osl.position, body := leBytes 1 g ++ leBytes 8 b }] }
          eng := { s.eng with lockHeld := lockJoin m s.eng.lockHeld } })
    ∧ (∀ m xs, (∀ x ∈ xs, ¬ (x.group = m.group ∧ x.kind = m.kind ∧ x.boundary = m.boundary)) → lockJoin m xs = xs ++ [m])
    ∧ (∀ s g k b ms, s.osl.role ≠ 2 → exec (.groupLockMessage g k b ms) s = .next s)
    ∧ (∀ s h pos g u, objOf s h = some g → g.typ = tyGroup → s.eng.unacked.find? (fun u => u.1 == groupId g && u.2.2 == pos) = some u →
        exec (.groupLockUnacked h pos) s
          = .next (groupBroken g pos (toInstant u.2.1 { s with eng := { s.eng with unacked := s.eng.unacked.erase u } })))
    ∧ (∀ s g pos, (∀ m ∈ groupFar s g, m.1 = pos) → groupBroken g pos s
        = (groupMembers s g).foldl (fun s h => class1 h 0x034B (leBytes 1 (groupId g) ++ leBytes 1 pos) s) s)
    ∧ (∀ s h pos, (∀ g, objOf s h = some g → ∀ u ∈ s.eng.unacked, u.1 = groupId g → u.2.2 ≠ pos) →
        exec (.groupLockUnacked h pos) s = .next s)
    ∧ (∀ s h pos w, s.eng.refWaits.find? (fun w => w.waiting.any fun m => m.1 == pos && m.2 == h) = some w →
        exec (.clusterRefTimeout h pos) s = .next (refsFail w pos 0xFFFF (toInstant w.due s)))
    ∧ (∀ s w pos st, (∀ m ∈ refsAsked s w, m ∈ w.waiting) → refsFail w pos st s = failWith w.desc 0x0307 (leBytes 1 pos ++ leBytes 2 st)
          { s with eng := { s.eng with refWaits := s.eng.refWaits.erase w } })
    ∧ (∀ s h pos, (∀ w ∈ s.eng.refWaits, (pos, h) ∉ w.waiting) → exec (.clusterRefTimeout h pos) s = .next s)
    ∧ (∀ s p, s.osl.role ≠ 0 → running s = true →
        exec (.oslPacketReceive p false) s = .next (raise0 evCrcError 0 [] { s with osl := { s.osl with crcErrors := satInc 16 s.osl.crcErrors } })
        ∧ (p.dst ≠ 0xFF → p.dst ≠ s.osl.position → p.kind ≠ .bcast →
          exec (.oslPacketReceive p true) s = .next { s with osl := { s.osl with outbox := s.osl.outbox ++ [p] } })
        ∧ (p.dst ≠ 0xFF → p.dst ≠ s.osl.position → exec (.oslPacketReceive p true) s = .next (packetForward p s))
        ∧ (p.dst ≠ 0xFF → p.dst = s.osl.position → exec (.oslPacketReceive p true) s = .next (packetConsume p s))
        ∧ (p.dst = 0xFF → exec (.oslPacketReceive p true) s = .next (if s.osl.role = 2 then
            (if (packetConsume p s).osl.dnLink then packetForward p (packetConsume p s) else packetConsume p s) else s)))
    ∧ (∀ s p, p.kind = .bcast → packetForward p s = { s with osl := { s.osl with outbox := { p with src := s.osl.position } :: s.osl.outbox } })
    ∧ (∀ s p, (p.kind = .lockAck → packetConsume p s
          = { s with eng := { s.eng with unacked := s.eng.unacked.erase (u8 p.body 0, u64 p.body 1, p.src) } })
        ∧ (p.kind = .bcast → exec (.broadcastReceive p.body p.src) s = .next (packetConsume p s))
        ∧ (p.kind = .mark → exec (.markRecordArrival p.src false p.body) s = .next (packetConsume p s))
        ∧ (p.kind = .query → exec (.markRecordArrival p.src true p.body) s = .next (packetConsume p s))
        ∧ (p.kind = .answer → exec (.answerReceive p.body) s = .next (packetConsume p s))
        ∧ (p.kind = .sect → exec (.sectionRecordReceive p.src p.body) s = .next (packetConsume p s)))
    ∧ (∀ s p b, (s.osl.role = 0 ∨ running s = false) → exec (.oslPacketReceive p b) s = .next s)

/-- TABLE_SWAP to a table of the same type, whose costs fit, is pending for its boundary, where every reference of an
object to the old table moves to the new one and the descriptor completes; a handle of no table completes REF_INVALID
with 16, a table of another type TABLE_MISMATCH. TABLE_SAVE and TABLE_ERASE put one write of the store on its way; one
that a supply warning finds is deferred and waits. TABLE_SAVE_WRITTEN makes a write that has begun, changes no other
key and completes the descriptor. TABLE_RESTORE makes a table of the image saved under a key; a free key completes
KEY_NOT_FOUND. TABLE_LIST writes 255 entries of 8 bytes. An event joins its machine’s queue below 16 entries and is
dropped with SM_QUEUE_OVERFLOW beyond; a timer’s expiry is kept, and joins at the next run. -/
def Obligations.TablesAreSwappedAndSaved : Prop :=
  (∀ s d o b, passes 0x0303 d s = true → objOf s (dHandle d) = some o →
      (tableOf s (u32 d.bytes 16) = none → exec (.tableSwap d) s = .next (failWith d 0x0308 (leBytes 2 16) s))
      ∧ (tableOf s (u32 d.bytes 16) = some b → (tabType b ≠ tabType o.params ∨ tabType b = 3 ∧ fmtLen b ≠ fmtLen o.params) →
          exec (.tableSwap d) s = .next (fail d 0x0304 s))
      ∧ (tableOf s (u32 d.bytes 16) = some b → tabType b = tabType o.params → (tabType b = 3 → fmtLen b = fmtLen o.params) → ∃ r,
          r = costReserveAll (takeEffect s.gtc (u64 d.bytes 24)) (costTag d) (swapCosts s (handleOf o) (u32 d.bytes 16)) s
          ∧ (swapCosts s (handleOf o) (u32 d.bytes 16) = [] → r = some s)
          ∧ (r = none → exec (.tableSwap d) s = .next (fail d 0x0301 s))
          ∧ (∀ u, r = some u → exec (.tableSwap d) s = .next (defer d 0x0303 (handleOf o) (takeEffect s.gtc (u64 d.bytes 24))
              (leBytes 7 (takeEffectLate s.gtc (u64 d.bytes 24))) (u32 d.bytes 16) u))))
    ∧ (∀ s h, deferredOf s 0x0303 h = none → exec (.tableSwapTakeEffect h) s = .next s)
    ∧ (∀ s h x u, deferredOf s 0x0303 h = some x
      → u = (s.eng.costs.filter fun c => c.tag == costTag x.st.desc).foldl (fun s c => costApply c s) (toInstant x.due s) →
        (tableOf u x.arg = none → exec (.tableSwapTakeEffect h) s
          = .next (completeDeferred x { status := 0x0308, result := leBytes 2 16 } u))
        ∧ (∀ img v, tableOf u x.arg = some img → v = { u with kin := { u.kin with cfg := swapAt h x.arg 40 u.kin.cfg } } →
          exec (.tableSwapTakeEffect h) s = .next (completeDeferred x { result := x.result }
            (raise0 0x034C h (leBytes 4 x.arg) (v.objs.foldl (fun s o => swapObj h x.arg img o s) v)))))
    ∧ (∀ s h x img, deferredOf s 0x0303 h = some x → x.due ≤ s.gtc → s.eng.costs = [] → tableOf s x.arg = some img
      → (∀ o ∈ s.objs, o.typ ≠ tyCanport ∧ o.sms = []) → s.objs.Pairwise (fun a b => a.idx ≠ b.idx) → ∃ t,
        exec (.tableSwapTakeEffect h) s = .next t
        ∧ t.objs = s.objs.map (fun o => { o with params := swapRefs h x.arg o.typ o.params, act := swapRefs h x.arg o.typ o.act })
        ∧ t.kin.cfg = swapAt h x.arg 40 s.kin.cfg ∧ t.hif.deferred = s.hif.deferred.erase x)
    ∧ (∀ s d o k, passes 0x0304 d s = true → objOf s (dHandle d) = some o → k = u8 d.bytes 16 → k ≠ 0
      → (((storeAhead s).filter fun x => x.1 != k).map fun x => x.2.length).foldl (· + ·) 0 + o.params.length ≤ 2 ^ 20 →
        exec (.tableSave d) s = .next (storeBegin d 0x0304 (handleOf o) k (some o.params) s))
    ∧ (∀ s d o k, passes 0x0304 d s = true → objOf s (dHandle d) = some o → k = u8 d.bytes 16 →
        (k = 0 → exec (.tableSave d) s = .next (fail d 0x0004 s))
        ∧ (k ≠ 0 → 2 ^ 20 < (((storeAhead s).filter fun x => x.1 != k).map fun x => x.2.length).foldl (· + ·) 0 + o.params.length →
          exec (.tableSave d) s = .next (fail d 0x0305 s)))
    ∧ (∀ s d op h k i, ∃ u : State, u = { s with eng := { s.eng with
          saves := s.eng.saves ++ [{ desc := d, key := k, image := i, begun := !s.pwr.bow }] } }
        ∧ storeBegin d op h k i s = if s.pwr.bow then defer d op h 0 [] k u else u)
    ∧ (∀ s d k, passes 0x0306 d s = true → k = u8 d.bytes 16 → k ≠ 0 →
        ((storeAhead s).any (fun x => x.1 == k) = true →
          exec (.tableErase d) s = .next (storeBegin d 0x0306 0 k none s))
        ∧ ((storeAhead s).any (fun x => x.1 == k) = false → exec (.tableErase d) s = .next (fail d 0x0306 s)))
    ∧ (∀ s d, passes 0x0306 d s = true → u8 d.bytes 16 = 0 → exec (.tableErase d) s = .next (fail d 0x0004 s))
    ∧ (∀ s k x, s.eng.saves = [x] → x.key = k → x.begun = true → ∃ u : State,
        ((∀ y ∈ s.hif.deferred, y.st.desc ≠ x.desc) → exec (.tableSaveWritten k) s = .next (ok x.desc u))
        ∧ (∀ y, s.hif.deferred = [y] → y.st.desc = x.desc → (y.op = 0x0304 ∨ y.op = 0x0306) → exec (.tableSaveWritten k) s = .next (completeDeferred y {} u))
        ∧ u = { s with eng := { s.eng with saves := [], store := u.eng.store } }
        ∧ (∀ b, x.image = some b → (k, b) ∈ u.eng.store) ∧ (x.image = none → ∀ y ∈ u.eng.store, y.1 ≠ k)
        ∧ (∀ y, y.1 ≠ k → (y ∈ u.eng.store ↔ y ∈ s.eng.store)))
    ∧ (∀ s k x, s.eng.saves.find? (fun x => x.key == k) = some x → exec (.tableSaveWritten k) s = .next (if x.begun then storeDone x s else s))
    ∧ (∀ s k, (∀ x ∈ s.eng.saves, x.key ≠ k) → exec (.tableSaveWritten k) s = .next s)
    ∧ (∀ s d k b i g u, passes 0x0305 d s = true → k = u8 d.bytes 16 → k ≠ 0 → s.eng.store.find? (fun x => x.1 == k) = some (k, b)
      → imageBad s b = none → takeIndex s = some ((i, g), u) → ∃ o : Obj, o.idx = i ∧ o.gen = g ∧ o.typ = tyTable ∧ o.params = b ∧ o.ost = .disabled
        ∧ exec (.tableRestore d) s = .next (complete d { handle := some (g * 2 ^ 24 + tyTable * 2 ^ 16 + i) } { u with objs := insertObj o s.objs }))
    ∧ (∀ s d k, passes 0x0305 d s = true → k = u8 d.bytes 16 → k ≠ 0 → s.eng.store.find? (fun x => x.1 == k) = none →
        exec (.tableRestore d) s = .next (fail d 0x0306 s))
    ∧ (∀ s d k b e, passes 0x0305 d s = true → k = u8 d.bytes 16 → k ≠ 0 → s.eng.store.find? (fun x => x.1 == k) = some (k, b)
      → imageBad s b = some e → exec (.tableRestore d) s = .next (failWith d e.status e.result s))
    ∧ (∀ s d, passes 0x0305 d s = true → u8 d.bytes 16 = 0 → exec (.tableRestore d) s = .next (fail d 0x0004 s))
    ∧ (∀ s d, passes 0x0307 d s = true → ∃ bs, bs.length = 2040
        ∧ (∀ k, k < 255 → slice bs (8 * k) 8 = match s.eng.store.find? (fun x => x.1 == k + 1) with
            | none => List.replicate 8 0
            | some x => slice x.2 0 2 ++ [0, 0] ++ slice x.2 8 4)
        ∧ exec (.tableList d) s = .next (writeBack d bs {} s))
    ∧ (∀ s h off code o m, objOf s h = some o → o.sms.find? (fun m => m.off == off) = some m →
        (m.queue.length < 16 → exec (.smEventArrival h off code) s = .next (updH h (fun o => { o with
            sms := o.sms.map fun m => if m.off = off then { m with queue := m.queue ++ [code] } else m }) s))
        ∧ (16 ≤ m.queue.length → exec (.smEventArrival h off code) s = .next (raise0 0x0347 h (leBytes 2 code) s)))
    ∧ (∀ s h off, ((objOf s h).bind fun o => o.sms.find? (fun m => m.off == off)) = none →
        (∀ code, exec (.smEventArrival h off code) s = .next s) ∧ (∀ n, exec (.smTimerExpiry h off n) s = .next s))
    ∧ (∀ s h off n o m, objOf s h = some o → o.sms.find? (fun m => m.off == off) = some m →
        (m.timers.getD n none = none → exec (.smTimerExpiry h off n) s = .next s)
        ∧ (∀ t, m.timers.getD n none = some t → exec (.smTimerExpiry h off n) s = .next (updH h (fun o => { o with
            sms := o.sms.map fun x => if x.off = off then { x with timers := x.timers.set n none, expired := x.expired ++ [n] } else x })
          (toInstant t s))))
    ∧ (∀ s h off n o m, objOf s h = some o → objAt s o.idx = some o → o.sms = [m] → m.off = off → m.expired = [n] → m.queue.length < 16 → ∃ t : State, t = smDue h off s
        ∧ objAt t o.idx = some { o with sms := [{ m with expired := [], queue := m.queue ++ [0xFF00 + n] }] })

/-- FRAME_BOUNDARY moves the GTC to the next boundary, 0 after the GTC’s wrap, and notes it, the lead with its marker; in
PARK it does nothing, and in another mode that does not run it does no more. On a running device without objects,
pending descriptors, held lock messages or a pending park, the frequency word, the machine record prepared for that
boundary and the boost settings that wait come into force and the phase correction moves one step; where objects are
only TABLE, WING and GROUP, their written blocks do. TEMPO_SLOT_RUN of a slot with no job only moves the GTC. Where
one engine has one job there, the job of that type runs, on the inputs at the slot’s start, and its run of falls ends;
named late or on an engine out of service, it is put among the falling jobs and nothing else happens; what runs under
a retired epoch is counted as discarded. -/
def Obligations.BoundariesAndSlots : Prop :=
  (∀ s, s.boot.mode = .parked → exec .frameBoundary s = .next s)
    ∧ (∀ s, (s.gtc < s.isl.boundaryGtc → dueBoundary s = s.gtc / 48000 * 48000)
        ∧ (s.isl.boundaryGtc ≤ s.gtc → ∃ b, b = max (s.isl.boundaryGtc + 48000) (s.gtc / 48000 * 48000) ∧ dueBoundary s = if b < 2 ^ 64 then b else 0))
    ∧ (∀ s b, s.boot.mode ≠ .parked → b = dueBoundary s → ∃ u v : State,
        u = (if b = 0 ∧ s.isl.boundaryGtc ≠ 0 then { s with gtc := 0 } else toInstant b s)
        ∧ v = { u with isl := { u.isl with boundaryGtc := b }
                       osl := { u.osl with bcastSeen := false, markoAt := if s.osl.role = 1 then some b else s.osl.markoAt } }
        ∧ (running s = false → exec .frameBoundary s = .next v)
        ∧ (running s = true → exec .frameBoundary s = .next (boundaryWork b v)))
    ∧ (∀ s b, running s = true → b = dueBoundary s → s.gtc ≤ b → b < 2 ^ 64
      → s.hif.deferred = [] → s.eng.lockHeld = [] → s.eng.costs = [] → s.pwr.parkAt = none → s.isb.tc ≠ 4 →
        (s.objs = [] → ∃ t, exec .frameBoundary s = .next t ∧ t.gtc = b ∧ t.isl.boundaryGtc = b ∧ t.objs = []
          ∧ t.clk.freqAdj = (if s.osl.role = 2 then s.osl.bcastFreq.getD s.clk.freqAdj else s.osl.freqSent.getD (s.clk.freqNext.getD s.clk.freqAdj))
          ∧ t.kin.rcd = (if u64 s.kin.rcdNext 4 = b then recordFreq t.clk.freqAdj s.kin.rcdNext else s.kin.rcd)
          ∧ t.osl.phaseLeft = (if 0 < s.osl.phaseLeft then s.osl.phaseLeft - 1 else if s.osl.phaseLeft < 0 then s.osl.phaseLeft + 1 else 0)
          ∧ (∀ v w c, s.boost.next = some (v, w, c) → t.boost = { s.boost with next := none, vboost := v, boostWait := w, tChop := c }))
        ∧ ((∀ o ∈ s.objs, [tyTable, tyWing, tyGroup].contains o.typ = true ∧ o.ost ≠ .faulted) → s.objs.Pairwise (fun a b => a.idx ≠ b.idx) → ∃ t,
          exec .frameBoundary s = .next t ∧ t.objs = s.objs.map fun o => { o with act := o.params }))
    ∧ (∀ s slot late, (16 ≤ slot ∨ running s = false) → exec (.tempoSlotRun slot late) s = .next s)
    ∧ (∀ s slot late tk, slot < 16 → running s = true → tk = s.gtc / 48000 * 48000 + 3000 * slot → ∃ u : State,
        u = (if slot = 7 then answersInForce (frameStart tk) (toInstant tk s) else toInstant tk s)
        ∧ exec (.tempoSlotRun slot late) s = .next ((List.range 24).foldl (engineSlot tk slot late u) u))
    ∧ (∀ s slot late tk, slot < 16 → slot ≠ 7 → running s = true → tk = s.gtc / 48000 * 48000 + 3000 * slot →
        ((∀ e, e < 24 → jobsIn s e slot (frameNo tk) = []) → exec (.tempoSlotRun slot late) s = .next (toInstant tk s))
        ∧ (∀ e o, e < 24 → (∀ x, x < 24 → x ≠ e → jobsIn s x slot (frameNo tk) = []) → jobsIn s e slot (frameNo tk) = [o]
          → s.isl.halted.contains e = false →
          ((late.contains o.idx = true ∨ engineOut s e = true) → ∃ u : State, u = toInstant tk s
            ∧ exec (.tempoSlotRun slot late) s = .next { u with eng := { u.eng with
              falling := u.eng.falling ++ [{ idx := o.idx, engine := e, slot := slot, victim := false }] } })
          ∧ (late.contains o.idx = false → engineOut s e = false → epochRetired s (handleOf o) o.epoch = false → objAt s o.idx = some o
            → axFaulting o = false → ∃ s0 u v : State, s0 = toInstant tk s
            ∧ u = updObj o.idx (fun y => { y with ffConsec := 0 }) s0
            ∧ v = (if o.typ = tySection then secJob tk o.idx u
              else if o.typ = tyNozzle ∨ o.typ = tyRow then chJob tk o.idx u
              else if o.typ = tyLoop then loopSample tk o.idx s0 u
              else axJob tk (tk + 3000) o.idx u)
            ∧ exec (.tempoSlotRun slot late) s = .next v)))
    ∧ (∀ tk o s0 s, epochRetired s (handleOf o) o.epoch = true →
        jobCommit tk o s0 s = updObj o.idx (fun y => { y with discarded := satInc 32 y.discarded }) s)

/-- KIN_SET_CONFIG replaces the block where it passes, or completes with the first offending field, BUSY where it changes
a fixed field of a unit that is not OFF; a member completes NOT_LEAD. KIN_GET_CONFIG and KIN_GET_STATE write 256 and
160 bytes. KIN_SET_ORIGIN, while the unit is OFF and the values are in range, sets the origin and raises its event;
out of range BAD_PARAM, not OFF BUSY. KIN_ENABLE and KIN_DISABLE are pending for a boundary and complete STATE where
the unit is already so, or will be; at the boundary the unit is WAITING, or FOLLOWING on a member, or OFF, unless a
point is ENABLED. KIN_FIX in time joins the measurements in order of validity, with its heading, or is rejected with
its event where its class or range fails; each other condition has its status. KIN_PREDICT answers travel, speed and
flags, HORIZON beyond 2.5 s. -/
def Obligations.KinematicsSetUp : Prop :=
  (∀ s d b, passes 0x0400 d s = true → s.osl.role ≠ 2 → b = blockOf s d
      → (s.kin.kstate = kOff ∨ ∀ i, i < 256 → kinLive i = false → u8 b i = u8 s.kin.cfg i) →
      (kinCfgBad s b = none → exec (.kinSetConfig d) s = .next (ok d { s with kin := { s.kin with cfg := b } }))
      ∧ (∀ e, kinCfgBad s b = some e → exec (.kinSetConfig d) s = .next (failWith d e.status e.result s)))
    ∧ (∀ s d i, passes 0x0400 d s = true → s.osl.role ≠ 2 → s.kin.kstate ≠ kOff → i < 256 → kinLive i = false
      → u8 (blockOf s d) i ≠ u8 s.kin.cfg i → exec (.kinSetConfig d) s = .next (fail d 0x000C s))
    ∧ (∀ s d, passes 0x0400 d s = true → s.osl.role = 2 → exec (.kinSetConfig d) s = .next (fail d 0x0309 s))
    ∧ (∀ s d, passes 0x0401 d s = true → exec (.kinGetConfig d) s = .next (writeBack d (padTo 256 s.kin.cfg) {} s))
    ∧ (∀ s d, passes 0x0406 d s = true → ∃ bs, bs.length = 32
        ∧ u8 bs 0 = (if s.osl.role = 2 then 5 else s.kin.kstate % 256) ∧ u8 bs 1 = s.kin.fixClass % 256 ∧ u32 bs 4 = s.kin.epochsUsed % 2 ^ 32
        ∧ u32 bs 8 = s.kin.epochsDiscarded % 2 ^ 32 ∧ u32 bs 12 = s.kin.sentDiscarded % 2 ^ 32 ∧ u32 bs 16 = s.kin.posResets % 2 ^ 32
        ∧ f32 bs 20 = s.kin.scale
        ∧ exec (.kinGetState d) s = .next (writeBack d (padTo 128 s.kin.rcd ++ bs) {} s))
    ∧ (∀ s d, passes 0x0402 d s = true → s.kin.kstate = kOff → f64Finite (f64 d.bytes 16) = true → f64Finite (f64 d.bytes 24) = true
      → fFinite (f32 d.bytes 32) = true → fxAbs (fxF64 (f64 d.bytes 16)) ≤ fxOf 90 → fxAbs (fxF64 (f64 d.bytes 24)) ≤ fxOf 180 →
        exec (.kinSetOrigin d) s = .next (ok d (raise0 0x044D 0 (leBytes 4 (u32 d.bytes 36)) { s with kin := { s.kin with
          originSet := true, lat0 := f64 d.bytes 16, lon0 := f64 d.bytes 24, h0 := f32 d.bytes 32, originId := u32 d.bytes 36 } })))
    ∧ (∀ s d, passes 0x0402 d s = true → s.kin.kstate ≠ kOff → exec (.kinSetOrigin d) s = .next (fail d 0x000C s))
    ∧ (∀ s d, passes 0x0402 d s = true → s.kin.kstate = kOff
      → (f64Finite (f64 d.bytes 16) = false ∨ f64Finite (f64 d.bytes 24) = false ∨ fFinite (f32 d.bytes 32) = false
        ∨ fxOf 90 < fxAbs (fxF64 (f64 d.bytes 16)) ∨ fxOf 180 < fxAbs (fxF64 (f64 d.bytes 24))) →
        exec (.kinSetOrigin d) s = .next (fail d 0x0004 s))
    ∧ (∀ s, (∀ x ∈ s.hif.deferred, x.op ≠ 0x0403 ∧ x.op ≠ 0x0404) → kinOnAfter s = (s.kin.kstate != kOff))
    ∧ (∀ s x, s.hif.deferred = [x] → (x.op = 0x0403 → kinOnAfter s = true) ∧ (x.op = 0x0404 → kinOnAfter s = false))
    ∧ (∀ s d, passes 0x0403 d s = true →
        (kinOnAfter s = true → exec (.kinEnable d) s = .next (fail d 0x000E s))
        ∧ (∀ e, kinOnAfter s = false → kinCfgBad s s.kin.cfg = some e → exec (.kinEnable d) s = .next (failWith d e.status e.result s))
        ∧ (kinOnAfter s = false → kinCfgBad s s.kin.cfg = none → imuTableBad s = true →
          exec (.kinEnable d) s = .next (failWith d 0x0004 (leBytes 2 40) s))
        ∧ (kinOnAfter s = false → kinCfgBad s s.kin.cfg = none → imuTableBad s = false →
          exec (.kinEnable d) s = .next (defer d 0x0403 0 (takeEffect s.gtc (u64 d.bytes 16)) (leBytes 7 (takeEffectLate s.gtc (u64 d.bytes 16))) 0 s)))
    ∧ (∀ s d, passes 0x0404 d s = true →
        ((kinOnAfter s = false ∨ ∃ o ∈ s.objs, o.typ = tyGeopoint ∧ o.ost = .enabled) → exec (.kinDisable d) s = .next (fail d 0x000E s))
        ∧ (kinOnAfter s = true → (∀ o ∈ s.objs, o.typ = tyGeopoint → o.ost ≠ .enabled) →
          exec (.kinDisable d) s = .next (defer d 0x0404 0 (takeEffect s.gtc (u64 d.bytes 16)) (leBytes 7 (takeEffectLate s.gtc (u64 d.bytes 16))) 0 s)))
    ∧ (∀ s, (deferredOf s 0x0403 0 = none → exec .kinEnableTakeEffect s = .next s) ∧ (deferredOf s 0x0404 0 = none → exec .kinDisableTakeEffect s = .next s))
    ∧ (∀ s x, deferredOf s 0x0403 0 = some x → ∃ t, exec .kinEnableTakeEffect s = .next t
        ∧ t.kin.kstate = (if s.osl.role = 2 then 5 else 1) ∧ t.kin.cfg = s.kin.cfg ∧ t.kin.rcd = s.kin.rcd ∧ t.kin.originSet = s.kin.originSet
        ∧ t.kin.meas = [] ∧ t.kin.headingValid = false ∧ t.kin.reverse = false
        ∧ t.kin.imuInit = (if kc8 s 36 = 1 then slice s.kin.cfg 60 (2 * kc8 s 56) else [])
        ∧ t.objs = s.objs ∧ t.hif.deferred = s.hif.deferred.erase x)
    ∧ (∀ s x, deferredOf s 0x0404 0 = some x →
        ((∀ o ∈ s.objs, o.typ = tyGeopoint → o.ost ≠ .enabled) → ∃ t, exec .kinDisableTakeEffect s = .next t
          ∧ t.kin.kstate = 0 ∧ t.kin.cfg = s.kin.cfg ∧ t.kin.originSet = s.kin.originSet ∧ t.kin.headingValid = false ∧ t.kin.pathValid = false
          ∧ t.objs = s.objs ∧ t.hif.deferred = s.hif.deferred.erase x)
        ∧ ((∃ o ∈ s.objs, o.typ = tyGeopoint ∧ o.ost = .enabled) →
          exec .kinDisableTakeEffect s = .next (completeDeferred x { status := 0x000E } (toInstant x.due s))))
    ∧ (∀ s d c v sg q, passes 0x0405 d s = true → c = u8 d.bytes 40 → 1 ≤ c → c ≤ 4 → kc8 s 0 = 1 → s.kin.originSet = true → s.kin.kstate ≠ kOff
      → (s.gtc : Int) - 120000000 ≤ i64 d.bytes 16 → i64 d.bytes 16 ≤ s.gtc
      → v = { x := i32 d.bytes 24, y := i32 d.bytes 28, z := i32 d.bytes 32 }
      → sg = (if u16 d.bytes 36 = 0 then kc16 s (12 + 2 * (c - 1)) else u16 d.bytes 36)
      → q = (if c < kc8 s 8 then fixRejected true 4 0 s else if inRange v = false then fixRejected true 3 0 s
          else addMeas { t := (i64 d.bytes 16).toNat, kind := 0, host := true, cls := c, sigma := sg, v := v } s) →
        exec (.kinFix d) s = .next (ok d (if u16 d.bytes 38 = 0xFFFF ∨ inRange v = false then q
          else addMeas { t := (i64 d.bytes 16).toNat, kind := 2, host := true, v := { x := fxDeg (fxFrac (u16 d.bytes 38) 100) } } q)))
    ∧ (∀ s d, passes 0x0405 d s = true → 1 ≤ u8 d.bytes 40 → u8 d.bytes 40 ≤ 4 →
        (kc8 s 0 ≠ 1 → exec (.kinFix d) s = .next (fail d 0x0404 s))
        ∧ (kc8 s 0 = 1 → s.kin.originSet = false → exec (.kinFix d) s = .next (fail d 0x0402 s))
        ∧ (kc8 s 0 = 1 → s.kin.originSet = true → s.kin.kstate = kOff → exec (.kinFix d) s = .next (fail d 0x0401 s))
        ∧ (kc8 s 0 = 1 → s.kin.originSet = true → s.kin.kstate ≠ kOff →
          (i64 d.bytes 16 < (s.gtc : Int) - 120000000 → exec (.kinFix d) s = .next (fail d 0x0403 s))
          ∧ ((s.gtc : Int) < i64 d.bytes 16 → exec (.kinFix d) s = .next (fail d 0x0004 s))))
    ∧ (∀ s d, passes 0x0405 d s = true → (u8 d.bytes 40 = 0 ∨ 4 < u8 d.bytes 40) → exec (.kinFix d) s = .next (fail d 0x0004 s))
    ∧ (∀ s d o, passes 0x0407 d s = true → objOf s (dHandle d) = some o → ∃ r, ∃ q : Pred, r.length = 7
        ∧ q = predict s s.kin.rcd o (u32 d.bytes 16 * 480) ∧ i32 r 0 = clampInt (-2147483648) 2147483647 (fxToInt 54 (1000 * q.ds))
        ∧ i16 r 4 = clampInt (-32768) 32767 (fxToInt 55 q.vp)
        ∧ (bit (u8 r 6) 0 = true ↔ 2500000 < u32 d.bytes 16) ∧ (bit (u8 r 6) 1 = true ↔ recPathValid s.kin.rcd = true)
        ∧ exec (.kinPredict d) s = .next (failWith d (if 2500000 < u32 d.bytes 16 then 0x0405 else 0) r s))

/-- A sentence is ignored while the unit is OFF or fixes come from the host; of a type that is read, one with a framing
error, of more than 82 characters or that does not parse is discarded and counted, another joins the epoch of its
time, or closes the open one and opens its own. An idle epoch closes and is counted as used or as discarded. An IMU
sample is kept with its counts; three missed, ten saturated or 100 like samples, or 20 ms of silence, lose the IMU,
with its event where IMU_OK was set; 100 good samples set it. An estimator run propagates, judges the waiting
measurements in order, each late, unused, rejected, a reset or applied, adds those of the run, commits its output and
then follows the states. The position reset takes the fix, counts and ends the rejections. An integrator run moves the
tractor along its heading and writes a 128-byte record for the next boundary; GEOPOINT_PROPAGATE gives every ENABLED
point its next position and speed and touches no other object. -/
def Obligations.KinematicsInputs : Prop :=
  (∀ s cs a b f, (s.kin.kstate = kOff ∨ kc8 s 0 ≠ 0) → exec (.nmeaSentence cs a b f) s = .next (toInstant b s))
    ∧ (∀ s cs a b f u, s.kin.kstate ≠ kOff → kc8 s 0 = 0
      → u = { toInstant b s with kin := { s.kin with epoch := s.kin.epoch.map fun e => { e with tLast := b } } } →
        (nmeaType cs = 0 → exec (.nmeaSentence cs a b f) s = .next u)
        ∧ (nmeaType cs ≠ 0 → (f = true ∨ 82 < cs.length ∨ parseNmea cs = none) → exec (.nmeaSentence cs a b f) s
          = .next (raiseLimited 480000000 0x0449 0 0 0 0 (List.replicate 4 0) 0 4 { u with kin := { u.kin with sentDiscarded := s.kin.sentDiscarded + 1 } }))
        ∧ (∀ n, nmeaType cs ≠ 0 → cs.length ≤ 82 → parseNmea cs = some n → exec (.nmeaSentence cs a b false) s = .next (takeSentence a b n u)))
    ∧ (∀ s a b u fix c, s.kin.epoch = none → ∃ e : Epoch, e.utc = u ∧ e.tArr = a ∧ e.tLast = b ∧ e.gga = some (fix.getD (0, 0, 0, 0, c))
        ∧ takeSentence a b (.gga u fix c) s = { s with kin := { s.kin with epoch := some e } })
    ∧ (∀ s a b u v, s.kin.epoch = none → ∃ e : Epoch, e.utc = u ∧ e.tArr = a ∧ e.tLast = b ∧ e.rmc = v ∧ e.gga = none
        ∧ takeSentence a b (.rmc u v) s = { s with kin := { s.kin with epoch := some e } })
    ∧ (∀ s a b e, s.kin.epoch = some e →
        (∀ v, takeSentence a b (.vtg v) s = { s with kin := { s.kin with epoch := some { e with tLast := b, vtg := v } } })
        ∧ (∀ h, takeSentence a b (.hdt h) s = { s with kin := { s.kin with epoch := some { e with tLast := b, hdt := some h } } })
        ∧ (∀ v, takeSentence a b (.rmc e.utc v) s = { s with kin := { s.kin with epoch := some { e with tLast := b, rmc := v } } })
        ∧ (∀ u n, u ≠ e.utc → (∃ v, n = .rmc u v) ∨ (∃ x c, n = .gga u x c) → takeSentence a b n s = takeSentence a b n (closeEpoch s)))
    ∧ (∀ s, s.kin.epoch = none → exec .epochIdleClose s = .next s)
    ∧ (∀ s e, s.kin.epoch = some e → ∃ t, exec .epochIdleClose s = .next t ∧ t.kin.epoch = none
        ∧ t.kin.epochsUsed + t.kin.epochsDiscarded = s.kin.epochsUsed + s.kin.epochsDiscarded + 1
        ∧ (s.kin.lastUtc = none → t.kin.epochsUsed = s.kin.epochsUsed + 1 ∧ t.kin.lastUtc = some e.utc) ∧ t.objs = s.objs)
    ∧ (∀ s t0 fr, (tableOf s (u32 s.kin.cfg 40) = none ∨ s.kin.kstate = kOff ∨ kc8 s 36 ≠ 1) →
        exec (.imuSample t0 fr) s = .next (toInstant t0 s))
    ∧ (∀ s t0 fr b, tableOf s (u32 s.kin.cfg 40) = some b → s.kin.kstate ≠ kOff → kc8 s 36 = 1 → ∃ u : State, ∃ miss same : Bool,
        u = { toInstant t0 s with kin := u.kin }
        ∧ miss = counterBad b (padTo (kc8 s 51) fr) (if s.kin.imuLast = none then none else s.kin.imuVars[7]?)
        ∧ (s.kin.imuLast = none → miss = false ∧ same = false)
        ∧ u.kin.imuLast = some t0 ∧ u.kin.imuMissed = (if miss then s.kin.imuMissed + 1 else 0)
        ∧ u.kin.imuFrozen = (if same then s.kin.imuFrozen + 1 else 0) ∧ u.kin.imuVars.length = 8 ∧ u.kin.imuSat.length = 6
        ∧ (∀ l, s.kin.imuLast = some l → u.kin.imuGood = if 9600000 ≤ t0 - l then 1 else s.kin.imuGood + 1)
        ∧ u.kin.imuOk = s.kin.imuOk ∧ u.kin.pos = s.kin.pos ∧ u.kin.imuTx = slice s.kin.cfg 52 (kc8 s 50)
        ∧ exec (.imuSample t0 fr) s = .next (if 3 ≤ u.kin.imuMissed then imuLost 2 u
            else if u.kin.imuSat.any (fun n => decide (10 ≤ n)) then imuLost 3 u
            else if 99 ≤ u.kin.imuFrozen then imuLost 4 u
            else if miss then { u with kin := { u.kin with imuGood := 0 } } else u))
    ∧ (∀ r s, imuLost r s = if s.kin.imuOk then raise0 0x0445 0 (leBytes 1 r) { s with kin := { s.kin with imuOk := false, imuGood := 0 } }
        else { s with kin := { s.kin with imuGood := 0 } })
    ∧ (∀ s t0, s.kin.imuLast = some t0 → s.kin.kstate ≠ kOff → exec .imuTimeout s = .next (imuLost 1 (toInstant (t0 + 9600000) s)))
    ∧ (∀ s, (s.kin.imuLast = none ∨ s.kin.kstate = kOff) → exec .imuTimeout s = .next s)
    ∧ (∀ s, s.kin.kstate ≠ kOff → kc8 s 36 = 1 → 100 ≤ s.kin.imuGood → exec .imuRecovered s = .next { s with kin := { s.kin with imuOk := true } })
    ∧ (∀ s, (s.kin.kstate = kOff ∨ kc8 s 36 ≠ 1 ∨ s.kin.imuGood < 100) → exec .imuRecovered s = .next s)
    ∧ (∀ s, (s.kin.kstate = kOff ∨ s.osl.role = 2) → exec .estimatorRun s = .next s)
    ∧ (∀ s tk u v w x, s.kin.kstate ≠ kOff → s.osl.role ≠ 2 → tk = s.gtc / 480000 * 480000
      → u = kfPropagateRun tk ((sources s).foldl readPulseSource (toInstant (tk + 12000) s))
      → v = auxMeas tk (u.kin.meas.foldl (measStep tk) { u with kin := { u.kin with meas := [] } })
      → w = (if v.kin.courses.length = 3 ∧ coursesAgree v.kin.courses = true then { v with kin := { v.kin with headingValid := true } } else v)
      → x = (if w.kin.lastVel = some w.gtc then { w with kin := { w.kin with pathValid := true } } else w) →
        exec .estimatorRun s = .next (kinStates (learnScale (fxToF 57 (x.kin.est.nom.getD 15 fxOne)) (kfCommit ((sources x).foldl trackSource x)))))
    ∧ (∀ s tk e, e = Config.kfPropagate s.kin.est (kfInput tk s) → (kfPropagateRun tk s).kin.est = e
        ∧ (kfPropagateRun tk s).kin.hist = ({ t := tk, est := e, imu := kfInput tk s } :: s.kin.hist).take 256)
    ∧ (∀ s tk m, s.osl.role ≠ 2 →
        (m.t + 120000000 < tk → measStep tk s m = measRejected m 2 ((tk - m.t) / 480000) s)
        ∧ (tk ≤ m.t + 120000000 → measUsed s m = false → measStep tk s m = s)
        ∧ (tk ≤ m.t + 120000000 → m.kind = 0 → resetDue s = true → measStep tk s m = posReset m s)
        ∧ (tk ≤ m.t + 120000000 → m.kind = 0 → resetDue s = false → kfDist m.t (kfMeasOf s m) s ≤ 1627 →
          measStep tk s m = positionAccepted m (kfApply m.t (kfMeasOf s m) s))
        ∧ (tk ≤ m.t + 120000000 → m.kind = 0 → resetDue s = false → 1627 < kfDist m.t (kfMeasOf s m) s →
          measStep tk s m = measRejected m 1 (kfDist m.t (kfMeasOf s m) s) s))
    ∧ (∀ s, (s.kin.rej4 < 5 ∧ s.kin.rejAny < 10 ∨ ∀ m ∈ s.kin.meas, m.kind ≠ 0) → exec .kinPosReset s = .next s)
    ∧ (∀ s m, (5 ≤ s.kin.rej4 ∨ 10 ≤ s.kin.rejAny) → s.kin.meas.find? (fun m => m.kind == 0) = some m → ∃ t, exec .kinPosReset s = .next t
        ∧ t.kin.pos = fromAntenna s m.v ∧ t.kin.posResets = s.kin.posResets + 1 ∧ t.kin.rej4 = 0 ∧ t.kin.rejAny = 0
        ∧ t.kin.meas = s.kin.meas.erase m ∧ t.kin.fixClass = m.cls ∧ t.objs = s.objs)
    ∧ (∀ s, s.osl.role = 2 → exec .pathIntegratorRun s = .next s)
    ∧ (∀ s, s.osl.role ≠ 2 → ∃ t, exec .pathIntegratorRun s = .next t ∧ t.gtc = s.gtc ∧ t.kin.rcdNext.length = 128
        ∧ u64 t.kin.rcdNext 4 = nextBoundary s.gtc % 2 ^ 64 ∧ t.kin.rcd = s.kin.rcd ∧ t.kin.cfg = s.kin.cfg ∧ t.kin.kstate = s.kin.kstate
        ∧ t.kin.pos = { s.kin.pos with x := s.kin.pos.x + fxMul (s.kin.u / 10000) (fxSin s.kin.heading)
                                       y := s.kin.pos.y + fxMul (s.kin.u / 10000) (fxCos s.kin.heading) }
        ∧ t.kin.heading = (s.kin.heading - s.kin.w0 / 10000) % fxTwoPi
        ∧ (objsOf s tyWing = [] → t.objs = s.objs))
    ∧ (∀ s, s.objs.Pairwise (fun a b => a.idx ≠ b.idx) → ∃ t u : State, exec .geopointPropagate s = .next t
        ∧ u = toInstant (s.gtc / 48000 * 48000 + 15000) s ∧ t = { u with objs := t.objs }
        ∧ (∀ i o, objAt s i = some o → ¬ (o.typ = tyGeopoint ∧ o.ost = .enabled) → objAt t i = some o)
        ∧ (∀ i o, objAt s i = some o → o.typ = tyGeopoint → o.ost = .enabled → ∃ p g : GeoRt, ∃ x : GeoPt, p = geoOf o
          ∧ objAt t i = some { o with rt := .geo g } ∧ g = { p with next := some x, nextAt := shadowBoundary u.gtc, sign := g.sign }
          ∧ x.s = p.cur.s + 2 * p.cur.v + p.cur.a ∧ x.v = p.cur.v + p.cur.a ∧ x.boundary = u64 s.kin.rcdNext 4))

/-- GNSS_TIMEOUT makes RUNNING DEAD_RECKONING and DR_LIMIT_EXPIRY clears POS_VALID, each at the commit of an estimator run
and with its event; in another state nothing happens. HEADING_TIMEOUT clears HEADING_VALID without an IMU;
PATH_VALID_TIMEOUT clears PATH_VALID and tells the channels with a geometry point. STANDSTILL_DETECT sets STANDSTILL.
A speed source that differs for 2 s becomes implausible with its event and after 5 s of agreement plausible again; an
ISOBUS source is invalid after 300 ms. REVERSE_DETECT takes the direction that the courses show. The hitch sensor is
implausible after 2 s and good again after 5 s; steer and wing angles fall to 0 after 200 ms and a wing is valid again
after 1 s. -/
def Obligations.KinematicsLimits : Prop :=
  (∀ n s, n ≠ s.kin.kstate → setKState n s = raise0 0x0440 0 (leBytes 1 n ++ leBytes 1 s.kin.kstate) { s with kin := { s.kin with kstate := n } })
    ∧ (∀ s t u, s.kin.lastPos = some t → s.kin.kstate = 3 → u = toInstant (commitAt (t + kc16 s 10 * 480000)) s →
        exec .gnssTimeout s = .next (raise0 0x0441 0 [] (setKState 4 { u with kin := { u.kin with drAt := u.gtc } })))
    ∧ (∀ s, (s.kin.kstate ≠ 3 ∨ s.kin.lastPos = none) → exec .gnssTimeout s = .next s)
    ∧ (∀ s, s.kin.kstate = 4 → s.kin.drExpired = false → exec .drLimitExpiry s
        = .next (raise0 0x0444 0 [] { toInstant (commitAt (s.kin.drAt + kc16 s 20 * 480000)) s with kin := { s.kin with drExpired := true } }))
    ∧ (∀ s, (s.kin.kstate ≠ 4 ∨ s.kin.drExpired = true) → exec .drLimitExpiry s = .next s)
    ∧ (∀ s, s.kin.headingValid = true → s.kin.imuOk = false → exec .headingTimeout s
        = .next { toInstant (commitAt (s.kin.lastHeading.getD 0 + 960000000)) s with kin := { s.kin with headingValid := false, courses := [] } })
    ∧ (∀ s, (s.kin.imuOk = true ∨ s.kin.headingValid = false) → exec .headingTimeout s = .next s)
    ∧ (∀ s t, s.kin.lastVel = some t → s.kin.pathValid = true → ∃ u : State,
        u = { toInstant (commitAt (t + 96000000)) s with kin := { s.kin with pathValid := false } }
        ∧ exec .pathValidTimeout s = .next ((pointedChannels u).foldl (fun s o => class1 (handleOf o) 0x0448 [] s) u))
    ∧ (∀ s, (s.kin.pathValid = false ∨ s.kin.lastVel = none) → exec .pathValidTimeout s = .next s)
    ∧ (∀ s t, s.kin.slowSince = some t → exec .standstillDetect s
        = .next { toInstant (t + 48000000) s with kin := { s.kin with standstill := s.kin.standstill || sourcesSlow s } })
    ∧ (∀ s, s.kin.slowSince = none → exec .standstillDetect s = .next s)
    ∧ (∀ s k t u d, (srcOf s k).badSince = some t → (srcOf s k).implausible = false → k < kc8 s 168 → u = toInstant (t + 960000000) s
      → d = fxToInt 40 (((srcDiff u k).map (·.1)).getD 0) → exec (.speedSourceImplausible k) s
        = .next (raiseLimited 480000000 0x0446 0 0 0 0 (leBytes 1 k ++ [0, 0, 0] ++ iBytes 4 d) 0 0 (updSrc k (fun x => { x with implausible := true }) u)))
    ∧ (∀ s k, ((srcOf s k).badSince = none ∨ (srcOf s k).implausible = true ∨ kc8 s 168 ≤ k) → exec (.speedSourceImplausible k) s = .next s)
    ∧ (∀ s k, ((srcOf s k).goodSince = none ∨ (srcOf s k).implausible = false) → exec (.speedSourceRestore k) s = .next s)
    ∧ (∀ s k, (srcKind s k < 3 ∨ kc8 s 168 ≤ k ∨ (srcOf s k).valid = false) → exec (.isobusSpeedTimeout k) s = .next s)
    ∧ (∀ s k t, (srcOf s k).goodSince = some t → (srcOf s k).implausible = true →
        exec (.speedSourceRestore k) s = .next (updSrc k (fun x => { x with implausible := false }) (toInstant (t + 2400000000) s)))
    ∧ (∀ s k, 3 ≤ srcKind s k → k < kc8 s 168 → (srcOf s k).valid = true →
        exec (.isobusSpeedTimeout k) s = .next (updSrc k (fun x => { x with valid := false }) (toInstant ((srcOf s k).last + 144000000) s)))
    ∧ (∀ s w t, s.kin.revSince = some (w, t) → courseDetects s = true → exec .reverseDetect s = .next (setReverse w (toInstant (t + 480000000) s)))
    ∧ (∀ w s, setReverse w s = if s.kin.reverse = w then s else raise0 0x044E 0 (leBytes 1 (b2n w)) { s with kin := { s.kin with reverse := w } })
    ∧ (∀ s, (s.kin.revSince = none ∨ courseDetects s = false) → exec .reverseDetect s = .next s)
    ∧ (∀ s, (s.kin.hitchOffSince = none ∨ s.kin.hitchBad = true) → exec .hitchImplausibleTimeout s = .next s)
    ∧ (∀ s, (s.kin.hitchOnSince = none ∨ s.kin.hitchBad = false) → exec .hitchRestore s = .next s)
    ∧ (∀ s, s.kin.steerBad = none → exec .steerHoldExpiry s = .next s)
    ∧ (∀ s h, (objOf s h = none ∨ ∃ o, objOf s h = some o ∧ (wingOf o).badSince = none) → exec (.wingHoldExpiry h) s = .next s)
    ∧ (∀ s h, (objOf s h = none ∨ ∃ o, objOf s h = some o ∧ ((wingOf o).goodSince = none ∨ (wingOf o).valid = true)) →
        exec (.wingSensorRestore h) s = .next s)
    ∧ (∀ s t, s.kin.hitchOffSince = some t → s.kin.hitchBad = false → exec .hitchImplausibleTimeout s
        = .next (raise0 0x044B 0 [0] { toInstant (t + 960000000) s with kin := { s.kin with hitchBad := true, hitchOnSince := none } }))
    ∧ (∀ s t, s.kin.hitchOnSince = some t → s.kin.hitchBad = true →
        exec .hitchRestore s = .next { toInstant (t + 2400000000) s with kin := { s.kin with hitchBad := false } })
    ∧ (∀ s t, s.kin.steerBad = some t →
        exec .steerHoldExpiry s = .next { toInstant (t + 96000000) s with kin := { s.kin with steer := 0 } })
    ∧ (∀ s h o t, objOf s h = some o → (wingOf o).badSince = some t →
        exec (.wingHoldExpiry h) s = .next (updWing o.idx (fun r => { r with angle := 0, rate := 0 }) (toInstant (t + 96000000) s)))
    ∧ (∀ s h o t, objOf s h = some o → (wingOf o).goodSince = some t → (wingOf o).valid = false → exec (.wingSensorRestore h) s
        = .next (updWing o.idx (fun r => { r with valid := true, badSince := none, goodSince := none }) (toInstant (t + 480000000) s)))
    ∧ (∀ i f s, updWing i f s = { s with objs := s.objs.map fun o => if o.idx = i then { o with rt := .wing (f (wingOf o)) } else o })

/-- BOARD_FLUSH is pending with a flush due at the next boundary; it completes when nothing is left, or FLUSH_INCOMPLETE 5
s after where a tile cannot be written. BOARD_PAINT of a coverage layer is pending with the tiles its polygon touches,
which are gone through in order behind the marks received before, an off-board or excluded tile counting as skipped,
and completes when none is left. BOARD_TILE_READ writes a cached tile’s bytes to the block pointer, a blank tile’s as
blank, waits for a missing one, and is refused off the board and for excluded tiles. BOARD_TILE_WRITE gives a tile the
bytes sent and makes it dirty. BOARD_TILE_ADDR writes the entry to the directory, and a cached tile takes it, is
written where it waited for storage, or is dirty where its place changes. BOARD_INVALIDATE drops the clean tiles of a
range and refuses a dirty one. BOARD_QUERY counts each square of the footprint once. Each refusal has its status. -/
def Obligations.BoardDescriptors : Prop :=
  (∀ i f s, updLayer i f s = { s with objs := s.objs.map fun o => if o.idx = i then { o with rt := .layer (f (layerOf o)) } else o })
    ∧ (∀ s d o a id, passes 0x0500 d s = true → objOf s (dHandle d) = some o → a = u8 d.bytes 16 → a < 2 → (a = 1 → o.ost = .disabled)
      → id = s.board.tick + 1 → exec (.boardFlush d) s = .next (defer d 0x0500 (handleOf o) (nextBoundary s.gtc) [] id
          (updLayer o.idx (fun r => { r with flushes := r.flushes ++ [{ id := id, due := nextBoundary s.gtc, discard := a == 1 }] })
            { s with board := { s.board with tick := id } })))
    ∧ (∀ s d o, passes 0x0500 d s = true → objOf s (dHandle d) = some o →
        (u8 d.bytes 16 = 1 → o.ost ≠ .disabled → exec (.boardFlush d) s = .next (fail d 0x000E s))
        ∧ (2 ≤ u8 d.bytes 16 → exec (.boardFlush d) s = .next (fail d 0x0004 s)))
    ∧ (∀ s h o f, objOf s h = some o →
        ((layerOf o).flushes.find? (fun f => f.started && f.left.isEmpty && f.flight.isEmpty) = some f →
          exec (.boardFlushDone h) s = .next (flushEnd o f 0 s))
        ∧ ((layerOf o).flushes.find? (fun f => f.started && f.left.any (unwritable o)) = some f →
          exec (.boardFlushTimeout h) s = .next (flushEnd o f 0x0508 (toInstant (f.due + 2400000000) s))))
    ∧ (∀ s h, (objOf s h = none ∨ ∃ o, objOf s h = some o ∧ ∀ f ∈ (layerOf o).flushes, f.started = false) →
        exec (.boardFlushDone h) s = .next s ∧ exec (.boardFlushTimeout h) s = .next s)
    ∧ (∀ s o f st u, u = updLayer o.idx (fun r => { r with
          flushes := r.flushes.filter fun x => x.id != f.id, lastFlush := if st = 0 then f.due else r.lastFlush }) s →
        (∀ x, u.hif.deferred.find? (fun x => x.op == 0x0500 && x.handle == handleOf o && x.arg == f.id) = some x → flushEnd o f st s
          = completeDeferred x { status := st, result := satBytes 2 f.written ++ satBytes 2 (f.dropped + f.left.length + f.flight.length) } u)
        ∧ (u.hif.deferred.find? (fun x => x.op == 0x0500 && x.handle == handleOf o && x.arg == f.id) = none → flushEnd o f st s = u))
    ∧ (∀ s d o b vs, passes 0x0501 d s = true → objOf s (dHandle d) = some o → b = blockOf s d
      → b.length = 8 + 8 * u8 b 1 → layCov o = true → u8 b 0 ≤ 3 → 3 ≤ u8 b 1 → u8 b 1 ≤ 64 → zeroBytes b 2 6 = true
      → vs = (List.range (u8 b 1)).map (fun k => (i32 b (8 + 8 * k), i32 b (12 + 8 * k))) → ∃ u : State, ∃ p : Paint,
        p = { id := s.board.tick + 1, value := u8 b 0, verts := vs, left := paintTiles o vs }
        ∧ u = updLayer o.idx (fun r => { r with paints := r.paints ++ [p] }) { s with board := { s.board with tick := s.board.tick + 1 } }
        ∧ exec (.boardPaint d) s = .next (defer d 0x0501 (handleOf o) 0 [] (s.board.tick + 1) (paintAll o.idx u)))
    ∧ (∀ s d o b, passes 0x0501 d s = true → objOf s (dHandle d) = some o → b = blockOf s d →
        ((b.length < 8 ∨ b.length ≠ 8 + 8 * u8 b 1) → exec (.boardPaint d) s = .next (fail d 0x0005 s))
        ∧ (b.length = 8 + 8 * u8 b 1 → layCov o = false → exec (.boardPaint d) s = .next (fail d 0x0502 s))
        ∧ (b.length = 8 + 8 * u8 b 1 → layCov o = true → (3 < u8 b 0 ∨ u8 b 1 < 3 ∨ 64 < u8 b 1 ∨ zeroBytes b 2 6 = false) →
          exec (.boardPaint d) s = .next (fail d 0x0004 s)))
    ∧ (∀ s i o n p tx ty rest, objAt s i = some o → p.left = (tx, ty) :: rest →
        ((∃ m ∈ s.board.marks, m.tick < p.id ∧ (tx, ty) ∈ m.tiles) → paintRun i (n + 1) p s = (p, s))
        ∧ ((∀ m ∈ s.board.marks, p.id ≤ m.tick ∨ (tx, ty) ∉ m.tiles) →
          ((viewTile s o tx ty = .off ∨ viewTile s o tx ty = .excl) →
            paintRun i (n + 1) p s = paintRun i n { p with left := rest, skipped := p.skipped + 1 } s)
          ∧ (∀ t x, viewTile s o tx ty = .here t → x = paintTile i p tx ty (touchTile o tx ty s) →
            paintRun i (n + 1) p s = paintRun i n { p with left := rest, brought := p.brought.erase (tx, ty), changed := p.changed + x.1 } x.2)))
    ∧ (∀ s h o p, objOf s h = some o → (layerOf o).paints.find? (fun p => p.left.isEmpty) = some p → ∃ u : State,
        u = updLayer o.idx (fun r => { r with paints := r.paints.erase p }) s
        ∧ (∀ x, s.hif.deferred.find? (fun x => x.op == 0x0501 && x.handle == h && x.arg == p.id) = some x → exec (.boardPaintDone h) s
          = .next (completeDeferred x { result := satBytes 4 p.changed ++ satBytes 2 p.skipped } u))
        ∧ (s.hif.deferred.find? (fun x => x.op == 0x0501 && x.handle == h && x.arg == p.id) = none → exec (.boardPaintDone h) s = .next u))
    ∧ (∀ s h, (objOf s h = none ∨ ∃ o, objOf s h = some o ∧ ∀ p ∈ (layerOf o).paints, p.left ≠ []) → exec (.boardPaintDone h) s = .next s)
    ∧ (∀ s d o tx ty, passes 0x0502 d s = true → objOf s (dHandle d) = some o → tx = u16 d.bytes 32 → ty = u16 d.bytes 34
      → tx < layW o → ty < layH o →
        (∀ t, viewTile s o tx ty = .here t → exec (.boardTileRead d) s = .next (writeBack d (tileImage o t) {} (touchTile o tx ty s)))
        ∧ (∀ e, viewTile s o tx ty = .blank e → exec (.boardTileRead d) s = .next (writeBack d (List.replicate (tileBytes o) (blankByte o)) {} s))
        ∧ ((viewTile s o tx ty = .off ∨ viewTile s o tx ty = .excl) → exec (.boardTileRead d) s = .next (fail d 0x0506 s))
        ∧ (∀ g w, viewTile s o tx ty = .missing g → w = askFetch o.idx g false false tx ty s →
          exec (.boardTileRead d) s = .next (if w.1 = .noWay then fail d 0x000B w.2
            else updLayer o.idx (fun r => { r with waiting := r.waiting ++ [d] }) w.2)))
    ∧ (∀ s d o, objOf s (dHandle d) = some o → (layW o ≤ u16 d.bytes 32 ∨ layH o ≤ u16 d.bytes 34) →
        (passes 0x0502 d s = true → exec (.boardTileRead d) s = .next (fail d 0x0504 s))
        ∧ (passes 0x0503 d s = true → exec (.boardTileWrite d) s = .next (fail d 0x0504 s)))
    ∧ (∀ s d o tx ty, passes 0x0503 d s = true → objOf s (dHandle d) = some o → tx = u16 d.bytes 32 → ty = u16 d.bytes 34
      → tx < layW o → ty < layH o →
        ((viewTile s o tx ty = .off ∨ viewTile s o tx ty = .excl) → exec (.boardTileWrite d) s = .next (fail d 0x0506 s))
        ∧ (∀ t, viewTile s o tx ty = .here t → exec (.boardTileWrite d) s = .next (ok d (tileDirty o.idx tx ty
            (updLayer o.idx (updTile tx ty fun t => { t with data := tileData o (blockOf s d) }) (touchTile o t.tx t.ty s)))))
        ∧ (viewTile s o tx ty = .missing true → exec (.boardTileWrite d) s
          = .next (updLayer o.idx (fun r => { r with waiting := r.waiting ++ [d] }) (demandTile o.idx true tx ty s)))
        ∧ (∀ e v p w, (viewTile s o tx ty = .blank e ∨ viewTile s o tx ty = .missing false ∧ entryOf o tx ty = some e)
          → v = unfetch o.idx tx ty s → objAt v o.idx = some p → w = makeWay p false tx ty v →
            (w.1 = .free → exec (.boardTileWrite d) s
              = .next (ok d (tileDirty o.idx tx ty (putTile o tx ty e (tileData o (blockOf w.2 d)) w.2))))
            ∧ (w.1 = .none → exec (.boardTileWrite d) s = .next (fail d 0x000B w.2))
            ∧ (∀ x y, w.1 = .after x y → exec (.boardTileWrite d) s
              = .next (updLayer p.idx (fun r => { r with waiting := r.waiting ++ [d] }) w.2))))
    ∧ (∀ s d o tx ty t, passes 0x0503 d s = true → objOf s (dHandle d) = some o → objAt s o.idx = some o → tx = u16 d.bytes 32
      → ty = u16 d.bytes 34 → tx < layW o → ty < layH o → viewTile s o tx ty = .here t → entryClass s o t.entry ≠ 2 →
        ∃ u c, exec (.boardTileWrite d) s = .next (ok d u) ∧ tileAt (layerAt u o.idx) tx ty = some c ∧ c.dirty = true
          ∧ tileImage o c = padTo (tileBytes o) (blockOf s d) ∧ (∀ i, i ≠ o.idx → objAt u i = objAt s i))
    ∧ (∀ s d o tx ty e, passes 0x0504 d s = true → objOf s (dHandle d) = some o → tx = u16 d.bytes 16 → ty = u16 d.bytes 18 → e = u64 d.bytes 24 →
        (layCacheOnly o = true → exec (.boardTileAddr d) s = .next (fail d stUnsupported s))
        ∧ (layCacheOnly o = false → (layW o ≤ tx ∨ layH o ≤ ty) → exec (.boardTileAddr d) s = .next (fail d 0x0504 s))
        ∧ (layCacheOnly o = false → tx < layW o → ty < layH o → entryValid s o e = false → exec (.boardTileAddr d) s = .next (fail d 0x0004 s))
        ∧ (layCacheOnly o = false → tx < layW o → ty < layH o → entryValid s o e = true →
          ((e % 8 = 0 ∨ e % 8 = 4 ∨ e % 8 = 5) → (lastCopy (layerOf o) tx ty ≠ none ∨ ∃ t, tileAt (layerOf o) tx ty = some t ∧ t.dirty = true) →
            exec (.boardTileAddr d) s = .next (fail d 0x0505 s))
          ∧ (¬ (e % 8 = 0 ∨ e % 8 = 4 ∨ e % 8 = 5) → ∀ a v, a = updLayer o.idx (dirSet o tx ty e) (dirWrite o tx ty e s)
            → v = (match lastCopy (layerOf o) tx ty with
              | some w => if entryAddr e = entryAddr w.tile.entry then a else rescue o w a
              | none => a) →
            (tileAt (layerAt v o.idx) tx ty = none → exec (.boardTileAddr d) s = .next (ok d v))
            ∧ (∀ t u, tileAt (layerAt v o.idx) tx ty = some t → u = updLayer o.idx (updTile tx ty fun t => { t with entry := e }) v →
              exec (.boardTileAddr d) s = .next (ok d (if t.pin = 1 ∧ (e % 8 = 1 ∨ e % 8 = 3) then
                  startWb o { t with entry := e, pin := 0 } (updLayer o.idx (updTile tx ty fun t => { t with pin := 0 }) u)
                else if entryAddr e ≠ entryAddr t.entry then tileDirty o.idx tx ty u else u))))))
    ∧ (∀ s o tx ty e, layCacheOnly o = false → ptrMailbox (layDir o + 8 * entryNo o tx ty) = false → dirWrite o tx ty e s
        = { s with hostMem := memWriteN s.hostMem (layDir o + 8 * (ty * layW o + tx)) (leBytes 8 e) })
    ∧ (∀ s d o inside, passes 0x0505 d s = true → objOf s (dHandle d) = some o → inside = (fun (x y : Nat) =>
        decide (u16 d.bytes 16 ≤ x ∧ x ≤ u16 d.bytes 20 ∧ u16 d.bytes 18 ≤ y ∧ y ≤ u16 d.bytes 22)) →
        ((layerOf o).tiles.any (fun t => inside t.tx t.ty && t.dirty) = true → exec (.boardInvalidate d) s = .next (fail d 0x0505 s))
        ∧ ((layerOf o).tiles.any (fun t => inside t.tx t.ty && t.dirty) = false → ∃ u, exec (.boardInvalidate d) s = .next (ok d u)
          ∧ (objAt s o.idx = some o → (layerAt u o.idx).tiles = (layerOf o).tiles.filter fun t => !inside t.tx t.ty)))
    ∧ (∀ s d o, passes 0x0506 d s = true → objOf s (dHandle d) = some o →
        (layCov o = false → exec (.boardQuery d) s = .next (fail d 0x0502 s))
        ∧ (layCov o = true → ∃ r t, exec (.boardQuery d) s = .next (okWith d r t) ∧ r.length = 7
          ∧ (objAt s o.idx = some o → u16 r 0 = (countedFoot o (footOf ([0, 0] ++ slice d.bytes 26 2 ++ slice d.bytes 16 4 ++ slice d.bytes 20 4
              ++ slice d.bytes 24 2 ++ slice d.bytes 28 2))).2.1.length % 2 ^ 16)))

/-- A fetched tile enters the cache clean with its directory entry and the bytes read, and its request ends, unless it
waits for the host or for a write-back; what nobody asked for changes nothing. A write-back puts the tile’s bytes at
the entry’s address and is counted. flush_ms after a tile became dirty its write-back starts and the tile is clean. A
failed access is reported and counted, a failed read holds the tile out for 1 s and is then asked for again; a pinned
tile’s write-back is retried after 100 ms; a DEGRADED layer recovers with its event. The corridor’s tiles are asked
for in order. Marks and queries queue in arrival order; a window goes through the marks, a channel that waits keeping
its later ones, then answers the queries, late ones beyond 12,288 visits; a late query is answered with LATE set; an
answer goes to the channel’s oldest query, not before slot 7 of the next frame. -/
def Obligations.BoardCacheAndRecords : Prop :=
  (∀ s h o g tx ty bs f, objOf s h = some o → (layerOf o).fetches.find? (fun f => f.group == g && f.tx == tx && f.ty == ty) = some f →
      exec (.tileFetchDone h g tx ty bs) s = .next (if fetchWaits s o f then s else retryTileOps o.idx (paintAll o.idx (fetchDone o f bs s))))
    ∧ (∀ s h g tx ty bs, (objOf s h = none ∨ ∃ o, objOf s h = some o ∧ (layerOf o).fetches = []) → exec (.tileFetchDone h g tx ty bs) s = .next s)
    ∧ (∀ s h o tx ty e bs, objOf s h = some o → objAt s o.idx = some o → (layerOf o).fetches = [{ group := false, tx := tx, ty := ty }]
      → fetchWaits s o { group := false, tx := tx, ty := ty } = false → entryOf o tx ty = some e → entryClass s o e = 1 → tileAt (layerOf o) tx ty = none
      → (layerOf o).paints = [] → (layerOf o).waiting = [] → ptrMailbox (entryAddr e) = false → ∃ t c, exec (.tileFetchDone h false tx ty bs) s = .next t
        ∧ tileAt (layerAt t o.idx) tx ty = some c ∧ c.entry = e ∧ c.dirty = false ∧ tileImage o c = padTo (tileBytes o) bs
        ∧ (layerAt t o.idx).fetches = [] ∧ (∀ i, i ≠ o.idx → objAt t i = objAt s i))
    ∧ (∀ s o f bs b, f.group = true → backing s (layDir o + 64 * f.tx) 64 bs = some b →
        fetchDone o f bs s = groupDone o f.tx b (updLayer o.idx (fun r => { r with fetches := r.fetches.erase f }) s))
    ∧ (∀ s h o tx ty, objOf s h = some o →
        (wbOf (layerOf o) tx ty = none → exec (.tileWritebackDone h tx ty) s = .next s)
        ∧ (∀ w, wbOf (layerOf o) tx ty = some w → exec (.tileWritebackDone h tx ty) s = .next (retryTileOps o.idx (paintAll o.idx (wbDone o w s)))))
    ∧ (∀ s h o w, objOf s h = some o → objAt s o.idx = some o → (layerOf o).wbs = [w] → (layerOf o).paints = [] → (layerOf o).waiting = []
      → w.tile.entry % 8 = 1 → tileGone s w.tile.entry = false → ptrMailbox (entryAddr w.tile.entry) = false →
        ∃ t, exec (.tileWritebackDone h w.tile.tx w.tile.ty) s = .next t
          ∧ t.hostMem = memWriteN s.hostMem (w.tile.entry / 1024 * 1024) (tileImage o w.tile)
          ∧ (layerAt t o.idx).wbs = [] ∧ (layerAt t o.idx).writebacks = satInc 32 (layerOf o).writebacks ∧ t = { s with hostMem := t.hostMem, objs := t.objs })
    ∧ (∀ s h o tx ty t, objOf s h = some o → objAt s o.idx = some o → tileAt (layerOf o) tx ty = some t → t.dirty = true → t.pin = 0 → u16 o.act 52 ≠ 0
      → layCacheOnly o = false → tileGone s t.entry = false → ∃ u, exec (.tileFlushTimer h tx ty) s = .next u
        ∧ u = { toInstant (t.first + u16 o.act 52 * 480000) s with objs := u.objs, board := { s.board with tick := s.board.tick + 1 } }
        ∧ (layerAt u o.idx).wbs = (layerOf o).wbs ++ [{ tile := t, tick := s.board.tick + 1, evicted := false }]
        ∧ (tileAt (layerAt u o.idx) tx ty).map (·.dirty) = some false)
    ∧ (∀ s h o tx ty t, objOf s h = some o → tileAt (layerOf o) tx ty = some t
      → (t.dirty = false ∨ t.pin ≠ 0 ∨ u16 o.act 52 = 0 ∨ layCacheOnly o = true ∨ tileGone s t.entry = true) → exec (.tileFlushTimer h tx ty) s = .next s)
    ∧ (∀ s h o tx ty, objOf s h = some o → tileAt (layerOf o) tx ty = none →
        exec (.tileFlushTimer h tx ty) s = .next s ∧ exec (.writebackRetry h tx ty) s = .next s)
    ∧ (∀ s h o k tx ty, objOf s h = some o →
        (∀ f, (k = 0 ∨ k = 2) → (layerOf o).fetches.find? (fun f => f.group == (k == 2) && f.tx == tx && f.ty == ty) = some f →
          exec (.boardHostAccessFail h k tx ty) s = .next (if fetchWaits s o f then s else readFail o f s))
        ∧ ((k = 0 ∨ k = 2) → (∀ f ∈ (layerOf o).fetches, f.tx ≠ tx ∨ f.ty ≠ ty) → exec (.boardHostAccessFail h k tx ty) s = .next s)
        ∧ (∀ w, k = 1 → wbOf (layerOf o) tx ty = some w →
          exec (.boardHostAccessFail h k tx ty) s = .next (if tileGone s w.tile.entry then s else wbFail o w s))
        ∧ (k = 1 → wbOf (layerOf o) tx ty = none → exec (.boardHostAccessFail h k tx ty) s = .next s)
        ∧ (3 ≤ k → exec (.boardHostAccessFail h k tx ty) s = .next (hostFault o 3 tx ty s)))
    ∧ (∀ s o f, objAt s o.idx = some o → s.board.marks = [] → f ∈ (layerOf o).fetches →
        (layerAt (readFail o f s) o.idx).fetches = (layerOf o).fetches.erase f
        ∧ (layerAt (readFail o f s) o.idx).held = (layerOf o).held ++ [{ group := f.group, tx := f.tx, ty := f.ty, ends := s.gtc + 480000000 }]
        ∧ (layerAt (readFail o f s) o.idx).faults = satInc 32 (layerOf o).faults)
    ∧ (∀ s o k tx ty t, objAt s o.idx = some o → (layerOf o).fails.length < 15 → t = hostFault o k tx ty s →
        (layerAt t o.idx).faults = satInc 32 (layerOf o).faults
        ∧ (layerAt t o.idx).tiles = (layerOf o).tiles ∧ (layerAt t o.idx).degraded = (layerOf o).degraded)
    ∧ (∀ s h o g tx ty x gone, objOf s h = some o → (layerOf o).held.find? (fun x => x.group == g && x.tx == tx && x.ty == ty) = some x
      → gone = (boardDetached s o || (!g && ((entryOf o tx ty).map (tileGone s)).getD false)) →
        (gone = true → exec (.tileHoldoutRetry h g tx ty) s = .next s)
        ∧ (gone = false → ∃ v : State, v = updLayer o.idx (fun r => { r with held := r.held.erase x }) (toInstant x.ends s)
          ∧ exec (.tileHoldoutRetry h g tx ty) s = .next (if g then askFetch o.idx true false false (8 * tx % max 1 (layW o)) (8 * tx / max 1 (layW o)) v
              else askFetch o.idx false false false tx ty v).2))
    ∧ (∀ s h o g tx ty, objOf s h = some o → (layerOf o).held = [] → exec (.tileHoldoutRetry h g tx ty) s = .next s)
    ∧ (∀ s i o tx ty, objAt s i = some o → (layerOf o).fetches = [] → (layerOf o).held = [] → (layerOf o).degraded = false → boardDetached s o = false →
        (askFetch i true false true tx ty s).1 = .going
        ∧ (layerAt (askFetch i true false true tx ty s).2 i).fetches = [{ group := true, tx := (ty * layW o + tx) / 8, ty := 0, way := none }])
    ∧ (∀ s h o tx ty t, objOf s h = some o → tileAt (layerOf o) tx ty = some t →
        (t.pin = 2 → t.dirty = true → tileGone s t.entry = false → wbOf (layerOf o) tx ty = none →
          exec (.writebackRetry h tx ty) s = .next (startWb o t (toInstant (t.failAt + 48000000) s)))
        ∧ ((t.pin ≠ 2 ∨ t.dirty = false ∨ tileGone s t.entry = true ∨ wbOf (layerOf o) tx ty ≠ none) → exec (.writebackRetry h tx ty) s = .next s))
    ∧ (∀ s h o, objOf s h = some o →
        ((layerOf o).degraded = true → exec (.boardDegradedEnd h) s = .next (raise0 0x0547 (handleOf o) [0, 0, 0, 0, 0]
          (updLayer o.idx (fun r => { r with degraded := false, demand := [] }) (toInstant ((layerOf o).fails.headD 0 + 4800000000) s))))
        ∧ ((layerOf o).degraded = false → exec (.boardDegradedEnd h) s = .next s))
    ∧ (∀ s h g tx ty, objOf s h = none → exec (.tileWritebackDone h tx ty) s = .next s ∧ exec (.tileFlushTimer h tx ty) s = .next s
        ∧ exec (.boardHostAccessFail h g tx ty) s = .next s ∧ exec (.writebackRetry h tx ty) s = .next s ∧ exec (.boardDegradedEnd h) s = .next s)
    ∧ (∀ s t, (∀ o ∈ s.objs, o.typ = tyLayer → o.ost = .enabled → bit (u8 o.act 3) 1 = false) → exec (.prefetchCorridor t) s = .next (toInstant t s))
    ∧ (∀ s t o u, objsOf s tyLayer = [o] → o.ost = .enabled → bit (u8 o.act 3) 1 = true → u = toInstant t s → exec (.prefetchCorridor t) s
        = .next ((corridorTiles u o).foldl (prefetchTile o.idx) (updLayer o.idx (fun r => { r with corridor := corridorTiles u o }) u)))
    ∧ (∀ s p rec, exec (.markRecordArrival p true rec) s
          = .next { s with board := { s.board with queries := s.board.queries ++ [(p, padTo 16 rec)] } }
        ∧ exec (.markRecordArrival p false rec) s = .next (queueMark { pos := p, bytes := padTo 16 rec } s)
        ∧ (s.board.marks.length < 4096 → ∃ m : QMark, m.pos = p ∧ m.bytes = padTo 16 rec ∧ m.tick = s.board.tick + 1 ∧ m.done = 0
          ∧ exec (.markRecordArrival p false rec) s
            = .next { s with board := { s.board with tick := s.board.tick + 1, marks := s.board.marks ++ [m] } }))
    ∧ (∀ s u v pt, pt = (fun s => (objsOf s tyLayer).foldl (fun s o => retryTileOps o.idx (paintAll o.idx s)) s)
      → u = pt (visitFrame (toInstant (s.gtc / 48000 * 48000 + 21000) s)) → v = pt (markLoop u.board.marks [] [] u) →
        exec .boardWindow s = .next (overload (queryLoop v.board.queries (decide (12288 < v.board.asked)) { v with board := { v.board with queries := [] } })))
    ∧ (∀ s p b qs full n late a, n = ((layerOn s true).map fun o => (countedFoot o (footOf b)).2.1.length).getD 0
      → late = (full || decide (12288 < s.board.visited + n))
      → a = answerOf p b late { s with board := { s.board with visited := s.board.visited + (if late then 0 else n), asked := s.board.asked + n } } →
        queryLoop ((p, b) :: qs) full s = queryLoop qs late (sendAnswer p b a.1 a.2))
    ∧ (∀ s m ms kept wait u w, s.board.visited < 12288 → wait.contains (m.pos, u8 m.bytes 0) = false
      → u = { s with board := { s.board with marks := kept ++ m :: ms } } → w = doMark m u → markLoop (m :: ms) kept wait s = match w.1 with
        | none => markLoop ms kept wait w.2
        | some m => markLoop ms (kept ++ [m]) ((m.pos, u8 m.bytes 0) :: wait) w.2)
    ∧ (∀ s p rec r u, r = padTo 16 rec → u = { s with board := { s.board with queries := s.board.queries.filter fun q => q != (p, r) } } → ∃ a v,
        exec (.lateQuery p rec) s = .next (sendAnswer p r a v) ∧ answerOf p r true u = (a, v)
        ∧ a.length = 16 ∧ bit (u8 a 1) 0 = true ∧ u8 a 0 = u8 r 0 ∧ u16 a 8 = 0)
    ∧ (∀ s p q a, (p ≠ s.osl.position → sendAnswer p q a s = updChanBd p (u8 a 0)
          (fun c => { c with next := some (s.gtc / 48000 * 48000 - 48000, q, a) }) { s with osl := { s.osl with
        outbox := s.osl.outbox ++ [{ kind := .answer, dst := p, src := s.osl.position, body := a }] } })
        ∧ (p = s.osl.position → exec (.answerReceive (padTo 16 a)) s = .next (sendAnswer p q (padTo 16 a) s)))
    ∧ (∀ s rec o q qs, chanByIndex s (u8 (padTo 16 rec) 0) = some o → (chanOf o).queries = q :: qs →
        exec (.answerReceive rec) s = .next (if s.gtc < q.boundary + 69000 then s
          else updChan o.idx (fun r => { r with queries := qs, ansNext := some (q, padTo 16 rec) }) s))
    ∧ (∀ s rec, (chanByIndex s (u8 (padTo 16 rec) 0) = none ∨ ∃ o, chanByIndex s (u8 (padTo 16 rec) 0) = some o ∧ (chanOf o).queries = []) →
        exec (.answerReceive rec) s = .next s)

/-- SCHED_CHANNEL_CMD on an ENABLED channel queues its edge at the end of the queue and stays pending; an edge to the
state already commanded completes OK at once, with the edge in result byte 29; a fifth entry that does not remove the
fourth is refused with QUEUE_FULL and the edge in that byte (the model’s reading of R210, log 19); a channel of a
section that is not in host mode is refused, and one whose gate is closed. SCHED_SECTION_CMD goes to every member, to
those of other devices by records, and completes with the counts. SCHED_GATE and SCHED_RATE act at the next boundary;
SCHED_CANCEL is pending until it, and for a section until the other devices have told. SCHED_LATENCY_SET writes the
latencies within lat_min to lat_max and refuses others. SCHED_LATENCY_SAVE waits for the changed records, which reach
the store by key with LATENCY_RECORDS_WRITTEN, not while a supply warning defers the write; SCHED_LATENCY_ERASE
removes a key, after a supply warning where one lasts. -/
def Obligations.SchedulerCommands : Prop :=
  (∀ i f s, updChan i f s = { s with objs := s.objs.map fun o => if o.idx = i then { o with rt := .chan (f (chanOf o)) } else o })
    ∧ (∀ d n, (cmdEdge d n).on = (u8 d.bytes 16 == 1) ∧ (cmdEdge d n).form = u8 d.bytes 17 ∧ (cmdEdge d n).cmd = some n
      ∧ (cmdEdge d n).qual = (if u8 d.bytes 18 = 1 then -1 else 1) ∧ (u8 d.bytes 17 = 1 → (cmdEdge d n).whenAt = i64 d.bytes 24)
      ∧ (u8 d.bytes 17 = 3 → (cmdEdge d n).whenAt = i64 d.bytes 24 * 13107200000)
      ∧ (u8 d.bytes 17 = 2 → (cmdEdge d n).line = [i32 d.bytes 24, i32 d.bytes 28, i32 d.bytes 32, i32 d.bytes 36]))
    ∧ (∀ s d o, passes 0x0600 d s = true → objOf s (dHandle d) = some o →
        ((1 < u8 d.bytes 16 ∨ 3 < u8 d.bytes 17 ∨ 1 < u8 d.bytes 18) → exec (.schedChannelCmd d) s = .next (fail d 0x0004 s))
        ∧ (u8 d.bytes 16 ≤ 1 → u8 d.bytes 17 ≤ 3 → u8 d.bytes 18 ≤ 1 →
          (isEnabled o = false → exec (.schedChannelCmd d) s = .next (fail d 0x000E s))
          ∧ (∀ x, isEnabled o = true → chSection s o = some x →
            (u8 x.act 16 ≠ 2 → exec (.schedChannelCmd d) s = .next (fail d 0x0605 s))
            ∧ (u8 x.act 16 = 2 → (secOf x).gate = false → exec (.schedChannelCmd d) s = .next (fail d 0x0606 s)))
          ∧ (∀ n x, isEnabled o = true → (∀ y, chSection s o = some y → u8 y.act 16 = 2 ∧ (secOf y).gate = true) → n = s.sched.nextCmd
            → x = chPush o (cmdEdge d n) { s with sched := { s.sched with nextCmd := wrapInc 32 n } } →
            (x.1 = .same → exec (.schedChannelCmd d) s = .next (okWith d [0, 0, 0, 0, 0, d.bytes.getD 16 0] s))
            ∧ (x.1 = .full → exec (.schedChannelCmd d) s = .next (failWith d 0x0607 [0, 0, 0, 0, 0, d.bytes.getD 16 0] x.2))
            ∧ (x.1 = .queued → exec (.schedChannelCmd d) s = .next (defer d 0x0600 (handleOf o) 0 [] n x.2)))))
    ∧ (∀ s o e c r f, objAt s o.idx = some c → r = chanOf c → f = raiseLimited 480000000 0x0642 0 (handleOf o) 0 o.epoch [] 4 4 s →
        (e.on = commanded r → chPush o e s = (.same, s))
        ∧ (e.on ≠ commanded r → r.queue.length < 4 →
          chPush o e s = (.queued, updChan o.idx (fun r => { r with queue := r.queue ++ [edgeSeen s o e] }) s))
        ∧ (e.on ≠ commanded r → (4 < r.queue.length ∨ r.queue.length = 4 ∧ chPoint s o = none) → chPush o e s = (.full, f))
        ∧ (∀ p w, e.on ≠ commanded r → r.queue.length = 4 → chPoint s o = some p
          → w = edgeWrite s o p (shadowBoundary s.gtc) ((r.leadOn * 480 : Nat) : Int) ((r.leadOff * 480 : Nat) : Int) r.queue.getLast? (edgeSeen s o e) →
          (w.removes = true → chPush o e s = (.queued, updChan o.idx (fun r => { r with queue := r.queue ++ [w] }) s))
          ∧ (w.removes = false → chPush o e s = (.full, f))))
    ∧ (∀ s d o u, passes 0x0600 d s = true → objOf s (dHandle d) = some o → objAt s o.idx = some o → u8 d.bytes 16 ≤ 1 → u8 d.bytes 17 = 0
      → u8 d.bytes 18 ≤ 1 → isEnabled o = true → chSection s o = none → (u8 d.bytes 16 == 1) ≠ commanded (chanOf o) → (chanOf o).queue.length < 4
      → exec (.schedChannelCmd d) s = .next u → ∃ v e, u = defer d 0x0600 (handleOf o) 0 [] s.sched.nextCmd v ∧ e.on = (u8 d.bytes 16 == 1)
        ∧ e.form = 0 ∧ e.cmd = some s.sched.nextCmd ∧ objAt v o.idx = some { o with rt := .chan { chanOf o with queue := (chanOf o).queue ++ [e] } }
        ∧ (∀ i, i ≠ o.idx → objAt v i = objAt s i) ∧ v.hif = s.hif ∧ v.gtc = s.gtc)
    ∧ (∀ s d o n same, passes 0x0601 d s = true → objOf s (dHandle d) = some o → n = s.sched.nextCmd → same = (fun (m : Nat × Nat) =>
        if m.1 = s.osl.position then ((objOf s m.2).map fun c => isEnabled c && commanded (chanOf c) == (u8 d.bytes 16 == 1)).getD false
        else !farAbsent s m.1 && ((farOf s m).map fun c => c.on && c.cmd == (u8 d.bytes 16 == 1)).getD false) →
        ((1 < u8 d.bytes 16 ∨ 2 < u8 d.bytes 17 ∨ 1 < u8 d.bytes 18) → exec (.schedSectionCmd d) s = .next (fail d 0x0004 s))
        ∧ (u8 d.bytes 16 ≤ 1 → u8 d.bytes 17 ≤ 2 → u8 d.bytes 18 ≤ 1 →
          (isEnabled o = false → exec (.schedSectionCmd d) s = .next (fail d 0x000E s))
          ∧ (isEnabled o = true → u8 o.act 16 ≠ 2 → exec (.schedSectionCmd d) s = .next (fail d 0x0605 s))
          ∧ (isEnabled o = true → u8 o.act 16 = 2 → (secOf o).gate = false → exec (.schedSectionCmd d) s = .next (fail d 0x0606 s))
          ∧ (isEnabled o = true → u8 o.act 16 = 2 → (secOf o).gate = true →
            ((crefsOf tySection o.act).all same = true → exec (.schedSectionCmd d) s = .next (ok d s))
            ∧ ((crefsOf tySection o.act).all same = false → exec (.schedSectionCmd d) s = .next (deliverAll o (cmdEdge d n) (0xFF, 0xFF)
              (defer d 0x0601 (handleOf o) 0 [] n { s with sched := { s.sched with
                nextCmd := wrapInc 32 n, cmds := s.sched.cmds ++ [{ cmd := n, wait := crefsOf tySection o.act }] } }))))))
    ∧ (∀ s m c e, m.1 = s.osl.position → objOf s m.2 = some c → isEnabled c = true → (chPush c e s).1 = .queued → deliverEdge e m s = (chPush c e s).2)
    ∧ (∀ s m n e, e.cmd = some n → (m.1 = s.osl.position ∧ objOf s m.2 = none ∨ m.1 ≠ s.osl.position ∧ farAbsent s m.1 = true) →
        deliverEdge e m s = secReport n m .absent s)
    ∧ (∀ s sec e q, deliverAll sec e q s = (if farPositions s sec = [] then (crefsOf tySection sec.act).foldl (fun s m => deliverEdge e m s) s
        else (edgeRecords (handleOf sec) e q).foldl (fun s r => secSend sec.idx r s) ((crefsOf tySection sec.act).foldl (fun s m => deliverEdge e m s) s)))
    ∧ (∀ s n m k c, s.sched.cmds = [c] → c.cmd = n → c.wait = [m] → ∀ x, s.hif.deferred.find? (fun x => x.op == 0x0601 && x.arg == n) = some x →
        secReport n m k s = completeDeferred x { result := (satBytes 2 (c.fired + b2n (k == .fired || k == .late))
            ++ satBytes 2 (c.late + b2n (k == .late || k == .lateDropped)) ++ satBytes 2 (c.behind + b2n (k == .behind))
            ++ satBytes 1 (c.absent + b2n (k == .absent))) } { s with sched := { s.sched with cmds := [] } })
    ∧ (∀ s d o g, passes 0x0602 d s = true → objOf s (dHandle d) = some o → g = u8 d.bytes 16 →
        (1 < g → exec (.schedGate d) s = .next (fail d 0x0004 s))
        ∧ (g ≤ 1 → isEnabled o = false → exec (.schedGate d) s = .next (fail d 0x000E s))
        ∧ (g ≤ 1 → isEnabled o = true → u8 o.act 16 = 1 → exec (.schedGate d) s = .next (fail d 0x0605 s))
        ∧ (g ≤ 1 → isEnabled o = true → u8 o.act 16 ≠ 1 → exec (.schedGate d) s = .next (ok d { s with objs := s.objs.map fun x =>
          if x.idx = o.idx then { x with rt := .sect { secOf x with gateReq := g == 1, gateNext :=
            (if (secOf o).wingLost = true ∧ u8 o.act 33 = 2 then (secOf x).gateNext else some (g == 1)) } } else x })))
    ∧ (∀ s d o u, passes 0x0603 d s = true → objOf s (dHandle d) = some o → u = u8 d.bytes 20 →
        ((fFinite (f32 d.bytes 16) = false ∨ u = 0 ∨ 4 < u) → exec (.schedRate d) s = .next (fail d 0x0004 s))
        ∧ (fFinite (f32 d.bytes 16) = true → u ≠ 0 → u ≤ 4 →
          ((crefsOf tySection o.params).all (fun m => unitFits (hType m.2) u) = false → exec (.schedRate d) s = .next (fail d 0x0608 s))
          ∧ ((crefsOf tySection o.params).all (fun m => unitFits (hType m.2) u) = true →
            (isEnabled o = false → exec (.schedRate d) s = .next (fail d 0x000E s))
            ∧ (isEnabled o = true → exec (.schedRate d) s = .next (ok d { s with objs := s.objs.map fun x =>
              if x.idx = o.idx then { x with rt := .sect { secOf x with rateNext := some (f32 d.bytes 16, u) } } else x })))))
    ∧ (∀ s d o, passes 0x0604 d s = true → objOf s (dHandle d) = some o →
        (isEnabled o = true → exec (.schedCancel d) s = .next (defer d 0x0604 (handleOf o) (nextBoundary s.gtc) [] s.sched.nextCmd
          { s with sched := { s.sched with nextCmd := wrapInc 32 s.sched.nextCmd } }))
        ∧ (isEnabled o = false → exec (.schedCancel d) s = .next (fail d 0x000E s)))
    ∧ (∀ b s x o, s.hif.deferred = [x] → x.op = 0x0604 → x.due ≤ b → s.sched.cancels = [] → objOf s x.handle = some o → o.typ ≠ tySection →
        cancelBoundary b s = completeDeferred x { result := satBytes 1 (chanOf o).queue.length } (chClear o 0x0604 s))
    ∧ (∀ b s x o, s.hif.deferred = [x] → x.op = 0x0604 → x.due ≤ b → s.sched.cancels = [] → objOf s x.handle = some o → o.typ = tySection →
      ∀ r, r = cancelQueues ((localMembers s o).map handleOf) s →
        (farPositions s o = [] → cancelBoundary b s = completeDeferred x { result := satBytes 1 r.1 } r.2)
        ∧ (farPositions s o ≠ [] → cancelBoundary b s = secSend o.idx (cancelRecord x.handle) { r.2 with sched := { r.2.sched with
            cancels := r.2.sched.cancels ++ [{ cmd := x.arg, handle := x.handle, wait := farPositions s o, count := r.1 }] } }))
    ∧ (∀ s d o a b fits, passes 0x0605 d s = true → objOf s (dHandle d) = some o → a = u32 d.bytes 16 → b = u32 d.bytes 20
      → fits = (fun (x : Nat) => x = 0xFFFFFFFF ∨ u32 o.act 44 ≤ x ∧ x ≤ u32 o.act 48) →
        (fits a → fits b → o.ost ≠ .disabled → exec (.schedLatencySet d) s = .next (ok d (updChan o.idx (fun r => { r with
            latOn := if a = 0xFFFFFFFF then r.latOn else (a : Int) * 2 ^ 96
            latOff := if b = 0xFFFFFFFF then r.latOff else (b : Int) * 2 ^ 96
            rejOn := 0, rejOff := 0, shiftOn := none, shiftOff := none }) s)))
        ∧ (fits a → fits b → o.ost = .disabled → exec (.schedLatencySet d) s = .next (fail d 0x000E s))
        ∧ ((¬ fits a ∨ ¬ fits b) → exec (.schedLatencySet d) s = .next (fail d 0x0004 s)))
    ∧ (∀ s, latSave s = { s with sched := { s.sched with saving := s.sched.saving ++ latChanged s, savedAt := s.gtc } })
    ∧ (∀ s x, x ∈ latChanged s ↔ ∃ o ∈ s.objs, (o.typ = tyNozzle ∨ o.typ = tyRow) ∧ o.ost ≠ .disabled ∧ u16 o.act 62 ≠ 0 ∧ x = latRec o
        ∧ latStored s x.key ≠ some x)
    ∧ (∀ s d, passes 0x0606 d s = true →
        ((latSave s).sched.saving = [] → exec (.schedLatencySave d) s = .next (ok d (latSave s)))
        ∧ ((latSave s).sched.saving ≠ [] → exec (.schedLatencySave d) s = .next
          { latSave s with sched := { (latSave s).sched with saveDescs := s.sched.saveDescs ++ [d] } }))
    ∧ (∀ s, exec .latencyPeriodicSave s = .next (latSave (toInstant (s.sched.savedAt + 288000000000) s)))
    ∧ (∀ s, (s.pwr.bow = true → exec .latencyRecordsWritten s = .next s)
        ∧ (s.pwr.bow = false → exec .latencyRecordsWritten s = .next (s.sched.saveDescs.foldl (fun t d => ok d t)
            { s with sched := { s.sched with
              store := s.sched.saving.foldl (fun st x => latPut x st) s.sched.store, saving := [], saveDescs := [] } })))
    ∧ (∀ x st, (latPut x st).find? (fun y => y.key == x.key) = some x
        ∧ ∀ k, k ≠ x.key → (latPut x st).filter (fun y => y.key == k) = st.filter (fun y => y.key == k))
    ∧ (∀ s d k x, passes 0x0607 d s = true → k = u16 d.bytes 16
      → x = { s with sched := { s.sched with saving := s.sched.saving.filter fun x => x.key != k } } →
        ((k = 0 ∨ 4095 < k) → exec (.schedLatencyErase d) s = .next (fail d 0x0004 s))
        ∧ (k ≠ 0 → k ≤ 4095 → s.pwr.bow = true → exec (.schedLatencyErase d) s
          = .next { x with pwr := { s.pwr with mramWait := s.pwr.mramWait ++ [(d, .latErase k)] } })
        ∧ (k ≠ 0 → k ≤ 4095 → s.pwr.bow = false → exec (.schedLatencyErase d) s = .next (ok d { s with sched := { s.sched with
          store := s.sched.store.filter (fun x => x.key != k), saving := s.sched.saving.filter (fun x => x.key != k) } })))

/-- PREDICTOR_FIRE drives an edge when the head of an ENABLED channel is armed and crossed within the frame, and does
nothing otherwise; an on edge starts its flow interval unless the output is held off; one whose direction does not
learn opens no window, and its reason NOT_SENSED is not counted (the model’s reading of R191, log 19). PRECHARGE_FIRE
gives the meter its counts. A window closes lat_max after its edge: with a signature inside it the latency moves by
the learning rate towards the sample, held to its limits; otherwise the latency stays, the reason is kept and counted;
a sample far outside is an outlier. The sixteenth outlier is reported once; three on edges without a signature fault a
confirm-flagged NOZZLE. A section record (its layout is the model’s, log 19) queues its edge on the channels of the
section, brings a cancel or T_q, or to the lead an outcome, a demand part or a count. Reported section times are sent
again two seconds after the last report when they moved by more than 10 ms, and ROW_NO_SEED is raised after
blocked_ms. -/
def Obligations.PredictorsAndLearning : Prop :=
  (∀ s h lag o p e rest, objOf s h = some o → chPoint s o = some p → (chanOf o).queue = e :: rest →
        (∀ n, isEnabled o = true → isChan o = true → e.st = 2 → crossTick (geoOf p).cur e.value e.dir 0 = some n → exec (.predictorFire h lag) s
          = .next (chFire o e (max s.gtc ((geoOf p).cur.boundary + n)) e.lateBy.isSome (e.lateBy.getD 0) (updChan o.idx (fun r => { r with queue := rest })
            (toInstant (max s.gtc ((geoOf p).cur.boundary + n) + min lag 96) s))))
        ∧ ((isEnabled o = false ∨ isChan o = false ∨ e.st ≠ 2 ∨ crossTick (geoOf p).cur e.value e.dir 0 = none) →
          exec (.predictorFire h lag) s = .next s))
    ∧ (∀ s h lag, (objOf s h = none ∨ ∃ o, objOf s h = some o ∧ (chPoint s o = none ∨ (chanOf o).queue = [])) → exec (.predictorFire h lag) s = .next s)
    ∧ (∀ x v d lo n, lo < 48000 → crossTick x v d lo = some n → 0 ≤ crossing x v d n ∧ lo ≤ n ∧ n < 48000)
    ∧ (∀ s o c e t late dist u v w, u = chReason o.idx 7 s → objAt u o.idx = some c → v = updChan c.idx (fun r => { r with last := e.on }) (chDrive c e.on u)
      → w = (if e.on = true ∧ outForced v (chOut c) = false then flowMark c.idx (u.gtc + fxTicks ((chanOf c).latOn + fxOf (u32 c.act 52)
          + (chSettle c (chanOf c).press u).1)) true v else v) →
        (learns c e.on = false → chFire o e t late dist s
          = edgeReport c e.cmd e.on (if late then .late else .fired) dist 9 t (updChan c.idx (fun r => { r with lastReason := 9 }) w))
        ∧ (learns c e.on = true → ∃ x : Sample, chFire o e t late dist s = updChan c.idx (fun r => { r with windows := r.windows ++ [x] }) w
          ∧ x.on = e.on ∧ x.edge = w.gtc ∧ x.fired = t ∧ x.cmd = e.cmd ∧ x.late = late ∧ x.dist = dist ∧ x.sig = none))
    ∧ (∀ s i t, flowMark i t true s = updChan i (fun r => { r with flowing := true, tOn := t, flows := r.flows ++ [(t, true)] }) s)
    ∧ (∀ s o, chDrive o false s = chOff o s)
    ∧ (∀ s o e t dist u, objAt s o.idx = some o → o.typ = tyNozzle → (chanOf o).windows = [] → objOf s (chOut o) = none → e.on = true → learns o true = false
      → e.cmd = none → u = chFire o e t false dist s → ∃ r, objAt u o.idx = some { o with rt := .chan r } ∧ r.output = true ∧ r.last = true
        ∧ r.windows = [] ∧ r.lastReason = 9 ∧ r.noSample = (chanOf o).noSample ∧ (∀ i, i ≠ o.idx → objAt u i = objAt s i))
    ∧ (∀ s h lag o p e, objOf s h = some o → chPoint s o = some p → (chanOf o).queue.find? (fun e => e.pre.1 == 2) = some e →
        (∀ n, isEnabled o = true → crossTick (geoOf p).cur e.pre.2.1 e.pre.2.2 0 = some n → exec (.prechargeFire h lag) s
          = .next (preRun o (updChan o.idx (fun r => { r with queue := r.queue.map fun y => if y = e then { y with pre := (3, e.pre.2) } else y })
            (toInstant (max s.gtc ((geoOf p).cur.boundary + n) + min lag 96) s))))
        ∧ ((isEnabled o = false ∨ crossTick (geoOf p).cur e.pre.2.1 e.pre.2.2 0 = none) → exec (.prechargeFire h lag) s = .next s))
    ∧ (∀ s h lag, (objOf s h = none ∨ ∃ o, objOf s h = some o ∧ (chPoint s o = none ∨ ∀ e ∈ (chanOf o).queue, e.pre.1 ≠ 2)) →
        exec (.prechargeFire h lag) s = .next s)
    ∧ (∀ s o, (chMeter s o = none → preRun o s = s)
        ∧ (∀ a, chMeter s o = some a → preRun o s = updChan o.idx (fun r => { r with preUntil := some (s.gtc + u32 o.act 76 * 480) })
            (axTakeTarget a.idx { kind := 3, value := axOfFx (fxF (f32 o.act 72)), dur := u32 o.act 76 } false s)))
    ∧ (∀ s h vbat t0 codes, (objOf s h = none ∨ ∃ o, objOf s h = some o ∧ (chanOf o).windows = []) → exec (.latencyWindowClose h vbat t0 codes) s = .next s)
    ∧ (∀ x on lo hi t0 codes t, signatureOf x on lo hi t0 codes = some t → lo ≤ t ∧ t ≤ hi)
    ∧ (∀ s h vbat t0 codes o w ws u span sig low, objOf s h = some o → (chanOf o).windows = w :: ws → u = toInstant (windowEnds o w) s
      → span = (w.edge + u32 o.act 44 * 480, w.edge + u32 o.act 48 * 480)
      → sig = (if o.typ = tyRow then w.sig.filter (fun t => decide (span.1 ≤ t ∧ t ≤ span.2))
          else (objOf u (chSense u o)).bind fun x => signatureOf x w.on span.1 span.2 t0 codes)
      → low = (decide (vbat < u16 o.act 60) || s.pwr.vbatLow.getD (senseGroup u (chSense u o)) false) → ∃ r : ChRt, ∃ k : Nat,
        exec (.latencyWindowClose h vbat t0 codes) s
          = .next (edgeReport o w.cmd w.on (if w.late then .late else .fired) w.dist k w.fired (updChan o.idx (fun _ => r) u))
        ∧ r.windows = ws ∧ r.lastReason = k ∧ r.queue = (chanOf o).queue ∧ r.output = (chanOf o).output ∧ r.last = (chanOf o).last
        ∧ (k = 0 → r.noSample = (chanOf o).noSample) ∧ (k ≠ 0 → r.noSample = satInc 32 (chanOf o).noSample)
        ∧ (k ≠ 0 → r.latOn = (chanOf o).latOn ∧ r.latOff = (chanOf o).latOff)
        ∧ (cutShort w.cut sig = true → k = 1)
        ∧ (cutShort w.cut sig = false → w.reason ≠ 0 → k = w.reason)
        ∧ (cutShort w.cut sig = false → w.reason = 0 → low = true → k = 3)
        ∧ (cutShort w.cut sig = false → w.reason = 0 → low = false → o.typ = tyRow → (∃ a, chMeter u o = some a ∧ a.ost = .faulted) → k = 10)
        ∧ (cutShort w.cut sig = false → w.reason = 0 → low = false → (o.typ ≠ tyRow ∨ ∀ a, chMeter u o = some a → a.ost ≠ .faulted) →
          (sig = none → k = 4)
          ∧ (∀ t y lat, sig = some t → y = fxFrac ((t : Int) - w.edge) 480 → lat = (if w.on then (chanOf o).latOn else (chanOf o).latOff) →
            (10 * fxAbs (y - lat) ≤ 3 * lat → k = 0
              ∧ (w.on = true → r.rejOn = 0 ∧ r.samplesOn = satInc 16 (chanOf o).samplesOn ∧ r.latOff = (chanOf o).latOff
                ∧ r.latOn = clampInt (fxOf (u32 o.act 44)) (fxOf (u32 o.act 48)) (lat + fxMul (fxF (f32 o.act 56)) (y - lat)))
              ∧ (w.on = false → r.rejOff = 0 ∧ r.samplesOff = satInc 16 (chanOf o).samplesOff ∧ r.latOn = (chanOf o).latOn
                ∧ r.latOff = clampInt (fxOf (u32 o.act 44)) (fxOf (u32 o.act 48)) (lat + fxMul (fxF (f32 o.act 56)) (y - lat))))
            ∧ (3 * lat < 10 * fxAbs (y - lat) → k = 5
              ∧ (w.on = true → r.rejOn = (chanOf o).rejOn + 1 ∧ r.shiftOn = (if (chanOf o).rejOn = 15 then some (fxToInt 77 y).toNat else (chanOf o).shiftOn))
              ∧ (w.on = false → r.rejOff = (chanOf o).rejOff + 1
                ∧ r.shiftOff = (if (chanOf o).rejOff = 15 then some (fxToInt 77 y).toNat else (chanOf o).shiftOff)))))
        ∧ (o.typ = tyNozzle → bit (chFlags o) 1 = true → w.on = true → k = 4 → r.flowing = false)
        ∧ (w.on = true → r.stuck = (if k = 4 then (chanOf o).stuck + 1 else 0)) ∧ (w.on = false → r.stuck = (chanOf o).stuck))
    ∧ (∀ s h o, objOf s h = some o →
        (∀ us, (chanOf o).shiftOn = some us → exec (.schedLatencyShift h) s
          = .next (raiseE 0x0643 0 h o.epoch ([1, 0, 0, 0] ++ leBytes 4 us) (updChan o.idx (fun r => { r with shiftOn := none }) s)))
        ∧ (∀ us, (chanOf o).shiftOn = none → (chanOf o).shiftOff = some us → exec (.schedLatencyShift h) s
          = .next (raiseE 0x0643 0 h o.epoch ([0, 0, 0, 0] ++ leBytes 4 us) (updChan o.idx (fun r => { r with shiftOff := none }) s)))
        ∧ ((chanOf o).shiftOn = none → (chanOf o).shiftOff = none → exec (.schedLatencyShift h) s = .next s))
    ∧ (∀ s h, objOf s h = none → exec (.schedLatencyShift h) s = .next s ∧ exec (.schedValveStuck h) s = .next s)
    ∧ (∀ s h o, objOf s h = some o →
        (o.typ = tyNozzle → bit (chFlags o) 1 = true → 3 ≤ (chanOf o).stuck → exec (.schedValveStuck h) s
          = .next (class1 h 0x0644 [] (updChan o.idx (fun r => { r with stuck := 0 }) s)))
        ∧ ((o.typ ≠ tyNozzle ∨ bit (chFlags o) 1 = false ∨ (chanOf o).stuck < 3) → exec (.schedValveStuck h) s = .next s))
    ∧ (∀ s pos rec h k e secs, h = u32 rec 0 → k = u8 rec 5 → secs = (fun (f : SecView → SecView) =>
          { s with osl := { s.osl with secs := s.osl.secs.map fun v => if v.sec = h then f v else v } })
      → e = {
          on := bit (u8 rec 4) 0, form := k, qual := if bit (u8 rec 4) 2 then -1 else 1, cmd := some (2 ^ 32), whenAt := i64 rec 8, tc := bit (u8 rec 4) 1 } →
        (k ≤ 1 → exec (.sectionRecordReceive pos rec) s = .next (memberEdge h e s))
        ∧ (k = 2 → exec (.sectionRecordReceive pos rec) s = .next (secs fun v => { v with half := slice rec 8 8 }))
        ∧ (k = 0x22 → ∃ l, exec (.sectionRecordReceive pos rec) s = .next (memberEdge h { e with form := 2, whenAt := 0, line := l } s)
          ∧ ∀ v, s.osl.secs.find? (fun v => v.sec == h) = some v → v.half.length = 8 → l = [i32 v.half 0, i32 v.half 4, i32 rec 8, i32 rec 12])
        ∧ (k = 0x21 → exec (.sectionRecordReceive pos rec) s = .next (secs fun v => { v with tq := u64 rec 8 }))
        ∧ (k = 0x20 → ∀ r, r = cancelQueues ((s.osl.secs.filter fun v => v.sec == h).map (·.chan)) s → exec (.sectionRecordReceive pos rec) s
          = .next { r.2 with osl := { r.2.osl with outbox := r.2.osl.outbox ++
            [{ kind := .sect, dst := 0, src := r.2.osl.position, body := leBytes 4 h ++ [0, 0x42, 0, 0] ++ leBytes 8 r.1 }] } })
        ∧ (k = 0x40 → objOf s h = none → exec (.sectionRecordReceive pos rec) s = .next s)
        ∧ (∀ o, k = 0x40 → objOf s h = some o → exec (.sectionRecordReceive pos rec) s = .next (updSec o.idx (fun r => { r with
            parts := r.parts.filter (fun x => x.1 != pos) ++ [(pos, f32 rec 8, s.gtc)] }) s))
        ∧ (k = 0x42 → exec (.sectionRecordReceive pos rec) s = .next (cancelReport pos h (u64 rec 8) s))
        ∧ (128 ≤ k → ∀ c, s.sched.cmds.find? (fun c => c.wait.contains (pos, h)) = some c → exec (.sectionRecordReceive pos rec) s
          = .next (secReport c.cmd (pos, h) (if k = 128 then .fired else if k = 129 then .late else if k = 130 then .lateDropped
            else if k = 131 then .behind else if k = 132 then .cancelled else .absent) s))
        ∧ (128 ≤ k → (∀ c ∈ s.sched.cmds, (pos, h) ∉ c.wait) → exec (.sectionRecordReceive pos rec) s = .next s)
        ∧ (2 < k → k < 128 → k ≠ 0x20 → k ≠ 0x21 → k ≠ 0x22 → k ≠ 0x40 → k ≠ 0x42 → exec (.sectionRecordReceive pos rec) s = .next s))
    ∧ (∀ s h e v o, s.osl.secs.filter (fun v => v.sec == h) = [v] → objOf s v.chan = some o → isChan o = true →
        (isEnabled o = true → (chPush o e s).1 = .queued → memberEdge h e s = (chPush o e s).2)
        ∧ (isEnabled o = false → memberEdge h e s = edgeReport o e.cmd e.on .absent 0 0 s.gtc s))
    ∧ (∀ s h o a b u moved, objOf s h = some o → a = secOf o → b = toInstant (a.repAt + 960000000) s
      → moved = (fun (x y : Nat) => x + 10 < y ∨ y + 10 < x)
      → u = raiseE 0x0649 0 h o.epoch (satBytes 2 a.nowOn ++ satBytes 2 a.nowOff)
          (updSec o.idx (fun r => { r with repOn := r.nowOn, repOff := r.nowOff, repAt := b.gtc }) b) →
        (o.typ = tySection → isEnabled o = true → u8 o.act 16 = 1 → (moved a.nowOn a.repOn ∨ moved a.nowOff a.repOff) →
          (s.isb.tc ≠ 4 → exec (.tcTimesResend h) s = .next u)
          ∧ (s.isb.tc = 4 → exec (.tcTimesResend h) s = .next (pdSend (.section_ (u16 o.act 34)) .offTime (pdSend (.section_ (u16 o.act 34)) .onTime u))))
        ∧ ((o.typ ≠ tySection ∨ isEnabled o = false ∨ u8 o.act 16 ≠ 1 ∨ (¬ moved a.nowOn a.repOn ∧ ¬ moved a.nowOff a.repOff)) →
          exec (.tcTimesResend h) s = .next s))
    ∧ (∀ s h o p u, objOf s h = some o → chPoint s o = some p → u = toInstant ((chanOf o).dryAt + u16 o.act 80 * 480000) s →
        (o.typ = tyRow → isEnabled o = true → (chanOf o).output = true → fxOf (kc16 s 152) < fxFrac (geoOf p).cur.v.natAbs 655360000 →
          exec (.rowNoSeedTimeout h) s = .next (raiseLimited 480000000 0x064B 0 h 0 o.epoch [] 4 4
            (updChan o.idx (fun r => { r with dryAt := u.gtc }) u)))
        ∧ ((o.typ ≠ tyRow ∨ isEnabled o = false ∨ (chanOf o).output = false ∨ fxFrac (geoOf p).cur.v.natAbs 655360000 ≤ fxOf (kc16 s 152)) →
          exec (.rowNoSeedTimeout h) s = .next s))
    ∧ (∀ s h, (objOf s h = none ∨ ∃ o, objOf s h = some o ∧ chPoint s o = none) → exec (.rowNoSeedTimeout h) s = .next s)
    ∧ (∀ s h, objOf s h = none → exec (.tcTimesResend h) s = .next s)

/-- LOOP_STAGE stages a good bank for a law and refuses one while a seal is pending. LOOP_SEAL of a DISABLED loop swaps
the staged banks at once, of an ENABLED one it is pending for its sample; a law without a staged bank is refused.
LOOP_SETPOINT sets the target of a law that takes it from the host. LOOP_MODE is pending for its sample, and refused
for a law without a measurement or a bank. LOOP_MANUAL gives a loop in manual mode its next output. LOOP_RC clears the
bins, or freezes and resumes learning. LOOP_BANK_READ writes the bank or the staged bank, and completes NO_BANK
without one (the model’s reading, log 21). A transfer whose limit does not bind at the first sample after its time
ends with its event, one that is too far off is divergent; a following error that lasts to a sample faults the loop. -/
def Obligations.LoopCommands : Prop :=
  (∀ i f s, updLoop i f s = { s with objs := s.objs.map fun o => if o.idx = i then { o with rt := .loop (f (loopOf o)) } else o })
    ∧ (∀ s d o b l, passes 0x0700 d s = true → objOf s (dHandle d) = some o → b = blockOf s d → l = dOffset d →
        (2 ≤ l → exec (.loopStage d) s = .next (fail d 0x0004 s))
        ∧ (l < 2 → sealPending s (handleOf o) = true → exec (.loopStage d) s = .next (fail d 0x0704 s))
        ∧ (l < 2 → sealPending s (handleOf o) = false →
          (bankBad o.params b = none → exec (.loopStage d) s = .next (ok d (updLoop o.idx (fun r =>
            if l = 0 then { r with lawA := { r.lawA with stage := b } } else { r with lawB := { r.lawB with stage := b } }) s)))
          ∧ (∀ e, bankBad o.params b = some e → exec (.loopStage d) s = .next (failWith d e.status e.result s))
          ∧ (b.length ≠ 48 + max 1 (u8 b 2) * u8 b 0 * 20 → exec (.loopStage d) s = .next (fail d 0x0005 s))))
    ∧ (∀ s d o m, passes 0x0701 d s = true → objOf s (dHandle d) = some o → m = u8 d.bytes 16 →
        ((m = 0 ∨ 4 ≤ m) → exec (.loopSeal d) s = .next (fail d 0x0004 s))
        ∧ (0 < m → m < 4 → sealPending s (handleOf o) = true → exec (.loopSeal d) s = .next (fail d 0x0704 s))
        ∧ (0 < m → m < 4 → sealPending s (handleOf o) = false →
          ((m ≠ 2 ∧ (loopOf o).lawA.stage = [] ∨ m ≠ 1 ∧ (loopOf o).lawB.stage = []) → exec (.loopSeal d) s = .next (fail d 0x0701 s))
          ∧ ((m = 2 ∨ (loopOf o).lawA.stage ≠ []) → (m = 1 ∨ (loopOf o).lawB.stage ≠ []) →
            (isEnabled o = true → exec (.loopSeal d) s = .next (defer d 0x0701 (handleOf o) (u64 d.bytes 24) [] m s))
            ∧ (isEnabled o = false → exec (.loopSeal d) s = .next (ok d (updLoop o.idx (fun r => { r with
              lawA := if m = 2 then r.lawA else sealLaw r.lawA, lawB := if m = 1 then r.lawB else sealLaw r.lawB }) s))))))
    ∧ (∀ x, (sealLaw x).bank = x.stage ∧ (sealLaw x).stage = [] ∧ (sealLaw x).target = x.target ∧ (sealLaw x).z.length = 8
        ∧ ∀ k, k < min (u8 x.bank 0) (u8 x.stage 0) → k < 8 → k < x.z.length → (sealLaw x).z.getD k (0, 0) = x.z.getD k (0, 0))
    ∧ (∀ s d o l, passes 0x0702 d s = true → objOf s (dHandle d) = some o → l = u8 d.bytes 20 →
        ((2 ≤ l ∨ fFinite (f32 d.bytes 16) = false) → exec (.loopSetpoint d) s = .next (fail d 0x0004 s))
        ∧ (l < 2 → fFinite (f32 d.bytes 16) = true →
          (isEnabled o = true → u8 o.params (93 + 80 * l) = 0 → exec (.loopSetpoint d) s = .next (ok d (updLoop o.idx (fun r =>
            if l = 0 then { r with lawA := { r.lawA with target := f32 d.bytes 16 } } else { r with lawB := { r.lawB with target := f32 d.bytes 16 } }) s)))
          ∧ ((isEnabled o = false ∨ u8 o.params (93 + 80 * l) ≠ 0) → exec (.loopSetpoint d) s = .next (fail d 0x000E s))))
    ∧ (∀ s d o m, passes 0x0703 d s = true → objOf s (dHandle d) = some o → m = u8 d.bytes 16 →
        ((3 ≤ m ∨ 2 ≤ u8 d.bytes 17 ∨ fFinite (f32 d.bytes 20) = false) → exec (.loopMode d) s = .next (fail d 0x0004 s))
        ∧ (m < 3 → u8 d.bytes 17 < 2 → fFinite (f32 d.bytes 20) = true →
          (isEnabled o = false → exec (.loopMode d) s = .next (fail d 0x000E s))
          ∧ (isEnabled o = true → m ≠ 0 → u32 o.params (8 + 80 * m) = 0 → exec (.loopMode d) s = .next (fail d 0x000E s))
          ∧ (isEnabled o = true → m ≠ 0 → u32 o.params (8 + 80 * m) ≠ 0 → (if m = 1 then (loopOf o).lawA.bank else (loopOf o).lawB.bank) = [] →
            exec (.loopMode d) s = .next (fail d 0x0701 s))
          ∧ (isEnabled o = true → (m = 0 ∨ u32 o.params (8 + 80 * m) ≠ 0 ∧ (if m = 1 then (loopOf o).lawA.bank else (loopOf o).lawB.bank) ≠ []) →
            exec (.loopMode d) s = .next (defer d 0x0703 (handleOf o) (u64 d.bytes 24) [] m s))))
    ∧ (∀ s d o, passes 0x0704 d s = true → objOf s (dHandle d) = some o →
        (fFinite (f32 d.bytes 16) = false → exec (.loopManual d) s = .next (fail d 0x0004 s))
        ∧ (fFinite (f32 d.bytes 16) = true → isEnabled o = true → (loopOf o).mode = 0 → exec (.loopManual d) s
          = .next (ok d (updLoop o.idx (fun r => { r with manNext := some (f32 d.bytes 16) }) s)))
        ∧ (fFinite (f32 d.bytes 16) = true → (isEnabled o = false ∨ (loopOf o).mode ≠ 0) → exec (.loopManual d) s = .next (fail d 0x000E s)))
    ∧ (∀ s d o, passes 0x0705 d s = true → objOf s (dHandle d) = some o →
        (3 ≤ u8 d.bytes 16 → exec (.loopRc d) s = .next (fail d 0x0004 s))
        ∧ (u8 d.bytes 16 = 0 → exec (.loopRc d) s = .next (ok d (updLoop o.idx (fun r => { r with bins := List.replicate 256 0 }) s)))
        ∧ (∀ k, k = u8 d.bytes 16 → k = 1 ∨ k = 2 → objAt s o.idx = some o → 24 ≤ o.params.length → 24 ≤ o.act.length →
          ∃ u p, exec (.loopRc d) s = .next (ok d u)
          ∧ objAt u o.idx = some p ∧ bit (u8 p.params 23) 1 = (k == 2) ∧ bit (u8 p.act 23) 1 = (k == 2) ∧ bit (u8 p.params 23) 0 = bit (u8 o.params 23) 0
          ∧ p.rt = o.rt ∧ (∀ i, i ≠ 23 → u8 p.params i = u8 o.params i)))
    ∧ (∀ s d o q b, passes 0x0706 d s = true → objOf s (dHandle d) = some o → q = dOffset d
      → b = (if q = 0 then (loopOf o).lawA.bank else if q = 1 then (loopOf o).lawB.bank else if q = 256 then (loopOf o).lawA.stage
          else (loopOf o).lawB.stage) →
        (q ≠ 0 → q ≠ 1 → q ≠ 256 → q ≠ 257 → exec (.loopBankRead d) s = .next (fail d 0x0004 s))
        ∧ ((q = 0 ∨ q = 1 ∨ q = 256 ∨ q = 257) →
          (b = [] → exec (.loopBankRead d) s = .next (fail d 0x0701 s))
          ∧ (b ≠ [] → exec (.loopBankRead d) s = .next (writeBack d (b.take (dBlockLen d)) {} s))
          ∧ (b ≠ [] → ptrMailbox (dBlockPtr d) = false → exec (.loopBankRead d) s = .next (complete d { writeback := true }
            { s with hostMem := memWriteN s.hostMem (dBlockPtr d) (b.take (dBlockLen d)) }))))
    ∧ (∀ s h, (objOf s h = none ∨ ∃ o, objOf s h = some o ∧ (loopOf o).xfer = 0) → exec (.transferTimeExpiry h) s = .next s)
    ∧ (∀ s h o, objOf s h = some o → (loopOf o).xfer ≠ 0 → exec (.transferTimeExpiry h) s
        = .next (xferJudge o.idx (toInstant ((loopOf o).xAt + u32 o.act 52 * 480) s)))
    ∧ (∀ s i o r, objAt s i = some o → r = loopOf o →
        ((r.xfer = 0 ∨ r.lastTk < r.xAt + u32 o.act 52 * 480) → xferJudge i s = s)
        ∧ (r.xfer ≠ 0 → r.xAt + u32 o.act 52 * 480 ≤ r.lastTk →
          (r.xBind = false → xferJudge i s = raiseE 0x0743 0 (handleOf o) o.epoch (leBytes 1 r.xFrom ++ leBytes 1 r.mode ++ leBytes 1 (b2n r.matched))
            (updLoop i (fun r => { r with xfer := 0, xTimed := false }) s))
          ∧ (r.xBind = true → r.xTimed = true → xferJudge i s = s)
          ∧ (r.xBind = true → r.xTimed = false →
            (fLt (fMul (f32 o.act 56) (fSub (f32 o.act 28) (f32 o.act 24))) r.xGap = true → xferJudge i s
              = raiseE 0x0742 0 (handleOf o) o.epoch (fBytes r.xGap) (updLoop i (fun r => { r with xfer := 2, xTimed := true }) s))
            ∧ (fLt (fMul (f32 o.act 56) (fSub (f32 o.act 28) (f32 o.act 24))) r.xGap = false → xferJudge i s
              = updLoop i (fun r => { r with xTimed := true }) s))))
    ∧ (∀ s h, (objOf s h = none ∨ ∃ o, objOf s h = some o ∧ (loopOf o).feSince = none) → exec (.loopFeTimeout h) s = .next s)
    ∧ (∀ s h o t l, objOf s h = some o → (loopOf o).feSince = some t → l = (loopOf o).mode - 1 →
        ((loopOf o).lastTk < t + u32 o.act (156 + 80 * l) * 480 → exec (.loopFeTimeout h) s = .next s)
        ∧ (t + u32 o.act (156 + 80 * l) * 480 ≤ (loopOf o).lastTk → exec (.loopFeTimeout h) s
          = .next (class1 h 0x0740 (fBytes (loopOf o).fe ++ leBytes 1 l) (updLoop o.idx (fun r => { r with feSince := none }) s))))
    ∧ (∀ o l t fe r, loopSupervise o l t fe r = { r with
        fe := fe, fePeak := fMax r.fePeak fe
        feSince := if fPos (f32 o.act (152 + 80 * l)) = true ∧ fLt (f32 o.act (152 + 80 * l)) fe = true then some (r.feSince.getD t) else none })

/-- Arming an enabled idle trace whose configuration is good starts it empty; a bad one sets CFG_ERR and starts nothing;
an armed trace is left alone. Stopping a recording capture returns it to idle without its entries; a stream with
entries ends when they are written. Forcing triggers an armed capture. A due instant of a capture that has not been
triggered keeps PRE instants; one after the trigger counts down to the drain. An instant of a stream is buffered, or
dropped and counted when the buffer is full. The drain writes the oldest entries while the ring has room, and at the
end of a capture raises TRACE_DONE with their number. -/
def Obligations.TraceCaptures : Prop :=
  (∀ s, s.trc.state = 0 → s.trc.en = true →
      (armBad s = true → exec .trcArm s = .next { s with trc := { s.trc with cfgErr := true } })
      ∧ (armBad s = false → exec .trcArm s = .next { s with trc := { s.trc with
          state := if s.trc.stream then 4 else 1, ticks := 0, due := none, seq := 0, left := 0, buf := [], prev := none
          fired := !s.trc.stream && s.trc.trig % 16 == 0, gap := false, sent := 0 } }))
    ∧ (∀ s, (s.trc.state ≠ 0 ∨ s.trc.en = false) → exec .trcArm s = .next s)
    ∧ (∀ s, s.trc.stream = false → 8192 < s.trc.pre + s.trc.post → armBad s = true)
    ∧ (∀ s, ((s.trc.state = 1 ∨ s.trc.state = 2) → exec .trcStop s = .next { s with trc := { s.trc with state := 0, due := none, buf := [] } })
        ∧ (s.trc.state = 4 → s.trc.buf ≠ [] → exec .trcStop s = .next { s with trc := { s.trc with ending := true, due := none } })
        ∧ ((s.trc.state = 0 ∨ s.trc.state = 3) → exec .trcStop s = .next s)
        ∧ (s.trc.state = 1 → exec .trcForce s = .next { s with trc := { s.trc with fired := true } })
        ∧ (s.trc.state ≠ 1 → exec .trcForce s = .next s))
    ∧ (∀ s, s.trc.state = 4 → s.trc.buf = [] → exec .trcStop s = .next { s with trc := { s.trc with state := 0, ending := false, due := none } })
    ∧ (∀ s, s.trc.due = none → exec .traceRecord s = .next s)
    ∧ (∀ s, trcGroups s = 1 ∨ trcGroups s = 2)
    ∧ (∀ s t, s.trc.due = some t → s.trc.state = 2 → ∃ u x, exec .traceRecord s = .next u
        ∧ u.trc.buf = s.trc.buf ++ x ∧ x.length = trcGroups s ∧ (s.trc.left ≤ 1 → u.trc.state = 3)
        ∧ (1 < s.trc.left → u.trc.state = 2 ∧ u.trc.left = s.trc.left - 1) ∧ u = { toInstant t s with trc := u.trc })
    ∧ (∀ s t v, s.trc.due = some t → s.trc.state = 1 → v = toInstant t { s with trc := { s.trc with due := none } } →
        (trcTriggered v = false → ∃ u, exec .traceRecord s = .next u
          ∧ u.trc.state = 1 ∧ u.trc.buf.length = min (s.trc.buf.length + trcGroups s) (s.trc.pre * trcGroups s) ∧ u.trc.seq = (s.trc.seq + 1) % 2 ^ 16
          ∧ u = { toInstant t s with trc := u.trc })
        ∧ (trcTriggered v = true → ∃ u w, exec .traceRecord s = .next { u with trc := { u.trc with seq := wrapInc 16 u.trc.seq, prev := w } }
          ∧ u = trcTrigger t v))
    ∧ (∀ s, (s.trc.fired = true → trcTriggered s = true) ∧ (s.trc.fired = false → (s.trc.trig % 16 = 0 ∨ 4 ≤ s.trc.trig % 16) → trcTriggered s = false))
    ∧ (∀ t s w, w = trcKeep t 1 s → ∃ v, trcTrigger t s = { v with gtc := s.gtc } ∧ v = raise0 0x0748 0 (leBytes 2 (s.trc.buf.length / trcGroups s))
        { w with gtc := t, trc := { w.trc with state := if max 1 s.trc.post = 1 then 3 else 2, left := max 1 s.trc.post - 1, fired := false } })
    ∧ (∀ s t, s.trc.due = some t → (s.trc.state = 0 ∨ s.trc.state = 3 ∨ 4 < s.trc.state ∨ s.trc.state = 4 ∧ s.trc.ending = true) →
        ∃ w, exec .traceRecord s = .next { toInstant t s with trc := { s.trc with due := none, seq := wrapInc 16 s.trc.seq, prev := w } })
    ∧ (∀ s t v, s.trc.due = some t → s.trc.state = 4 → s.trc.ending = false → v = toInstant t { s with trc := { s.trc with due := none } } →
        ∃ u w, exec .traceRecord s = .next { u with trc := { u.trc with seq := wrapInc 16 u.trc.seq, prev := w } } ∧ u = trcStream t v)
    ∧ (∀ t s, trcGroups s = 1 →
        (s.trc.buf.length < 8192 → trcStream t s = { s with trc := { s.trc with
          buf := s.trc.buf ++ [(s.trc.seq, trcEntry s t 0 (if s.trc.gap then 4 else 0))], gap := false } })
        ∧ (8192 ≤ s.trc.buf.length → trcStream t s = setRing 36 (fun r => { r with lost := satInc 16 r.lost })
          { s with trc := { s.trc with lost := satInc 16 s.trc.lost, dropped := true, gap := true } }))
    ∧ (∀ s v, s.trc.state = 3 → v = trcWrite s.trc.buf.length s →
        (v.trc.buf = [] → exec .traceDrain s = .next (raise0 0x0749 0 (leBytes 4 v.trc.sent) { v with trc := { v.trc with state := 0, done := true } }))
        ∧ (v.trc.buf ≠ [] → exec .traceDrain s = .next v))
    ∧ (∀ s v, s.trc.state = 4 → v = trcWrite s.trc.buf.length s →
        (v.trc.ending = true → v.trc.buf = [] → exec .traceDrain s = .next { v with trc := { v.trc with state := 0, ending := false } })
        ∧ ((v.trc.ending = false ∨ v.trc.buf ≠ []) → exec .traceDrain s = .next v))
    ∧ (∀ s n x rest k, s.trc.buf = (n, x) :: rest →
        (ringServed s 36 = true → ringRoom (ringOf s 36) = true → trcWrite (k + 1) s = trcWrite k (ringProduce 36 x none false
          { s with trc := { s.trc with buf := rest, written := satInc 16 s.trc.written, sent := s.trc.sent + 1 } }))
        ∧ ((ringServed s 36 = false ∨ ringRoom (ringOf s 36) = false) → trcWrite (k + 1) s = s))
    ∧ (∀ s, s.trc.state ≠ 3 → s.trc.state ≠ 4 → exec .traceDrain s = .next s)

/-- PG_GROUP_CONFIG of a group without ENABLED channels gives it the period and puts its first period start at the next
frame boundary, or at the first multiple of the period from the anchor after it; an aligned group in use cannot
change. PG_TRIP_CONFIG waits for the next boundary and is refused while the trip is latched. PG_TRIP_CLEAR clears
latched trips whose input is inactive, and completes with the mask of those still latched. PG_COMM_CONFIG sets the
mask table and the initial step, PG_COMMUTATE sets or moves the step modulo the count. PG_STATUS writes 264 bytes that
begin with the groups’ periods. -/
def Obligations.PulseGeneratorCommands : Prop :=
  (∀ s d g al p an x, passes 0x0800 d s = true → g = u8 d.bytes 16 → al = u8 d.bytes 17 → p = u32 d.bytes 20 → an = i64 d.bytes 24 → x = pgGroup s g →
      ((16 ≤ g ∨ 2 ≤ al ∨ p < 96 ∨ 268435455 < p) → exec (.pgGroupConfig d) s = .next (fail d 0x0004 s))
      ∧ (g < 16 → al < 2 → 96 ≤ p → p ≤ 268435455 →
        (groupChans s g = [] → ∃ n, exec (.pgGroupConfig d) s = .next (ok d (updGroup g (fun x => { x with
            conf := true, aligned := al == 1, period := p, anchor := an, nextPeriod := none, start := none, k := 0, next := some n }) s))
          ∧ (al = 0 → n = nextBoundary s.gtc)
          ∧ (al = 1 → nextBoundary s.gtc ≤ n ∧ n < nextBoundary s.gtc + p ∧ ((n : Int) - an) % (p : Int) = 0))
        ∧ (groupChans s g ≠ [] → x.conf = true → x.aligned = (al == 1) → x.period = p → x.anchor = an → x.nextPeriod = none →
          exec (.pgGroupConfig d) s = .next (ok d s))
        ∧ (groupChans s g ≠ [] → x.aligned = false → al = 0 → x.anchor = an → (x.conf = false ∨ x.period ≠ p ∨ x.nextPeriod ≠ none) →
          exec (.pgGroupConfig d) s = .next (ok d (updGroup g (fun x => { x with nextPeriod := some p }) s)))
        ∧ (groupChans s g ≠ [] → (x.aligned = true ∨ al = 1 ∨ x.anchor ≠ an) →
            (x.conf = false ∨ x.aligned ≠ (al == 1) ∨ x.period ≠ p ∨ x.anchor ≠ an ∨ x.nextPeriod ≠ none) →
          exec (.pgGroupConfig d) s = .next (fail d 0x000C s))))
    ∧ (∀ s d n bad, passes 0x0801 d s = true → n = u8 d.bytes 16
      → bad = (8 ≤ n ∨ 2 ≤ u8 d.bytes 17 ∨ 2 ≤ u8 d.bytes 18 ∨ 16 ≤ u8 d.bytes 19 ∨ 15 < u8 d.bytes 20) →
        (bad → exec (.pgTripConfig d) s = .next (fail d 0x0004 s))
        ∧ (¬ bad → (trip s n).latched = true → exec (.pgTripConfig d) s = .next (fail d 0x0801 s))
        ∧ (¬ bad → (trip s n).latched = false → exec (.pgTripConfig d) s
          = .next (ok d (updTrip n (fun t => { t with next := some (slice d.bytes 17 4) }) s))))
    ∧ (∀ s n c, (trip s n).next = some c → tripBoundary n s = tripArrive n (updTrip n (fun t => { t with
          next := none, en := u8 c 0 == 1, latch := u8 c 1 == 1, flags := u8 c 2, filter := u8 c 3
          input := if bit t.flags 0 = bit (u8 c 2) 0 then t.input else !t.input }) s))
    ∧ (∀ s d m u, passes 0x0802 d s = true → m = u8 d.bytes 16
      → u = ((List.range 8).filter fun n => bit m n && (trip s n).latched && !(trip s n).input).foldl (fun s n => tripClear n 0 s) s →
        ((∀ n, n < 8 → bit m n = true → (trip u n).latched = false) → exec (.pgTripClear d) s = .next (ok d u))
        ∧ ((∃ n, n < 8 ∧ bit m n = true ∧ (trip u n).latched = true) → ∃ k, exec (.pgTripClear d) s = .next (failWith d 0x0801 (leBytes 1 k) u)
          ∧ ∀ n, n < 8 → bit k n = (bit m n && (trip u n).latched)))
    ∧ (∀ s d n, passes 0x0802 d s = true → n < 8 → u8 d.bytes 16 = 2 ^ n →
        ((trip s n).latched = false → exec (.pgTripClear d) s = .next (ok d s))
        ∧ ((trip s n).latched = true → (trip s n).input = true → exec (.pgTripClear d) s = .next (failWith d 0x0801 (leBytes 1 (2 ^ n)) s))
        ∧ ((trip s n).latched = true → (trip s n).input = false → s.pg.trips.length = 8 → (∀ o ∈ s.objs, o.typ ≠ tyPwmch) → exec (.pgTripClear d) s
          = .next (ok d (raise0 0x0841 0 (leBytes 1 n ++ [0]) (updTrip n (fun t => { t with latched := false }) s)))))
    ∧ (∀ s n c o, s.objs = [o] → o.typ = tyPwmch → bit (pwmOf o).latched n = true → tripClear n c s
        = raise0 0x0841 0 (leBytes 1 n ++ leBytes 1 c) (updPwm o.idx (fun r => { r with
            latched := setBit r.latched n false, await := isEnabled o, carry := 0 }) (updTrip n (fun t => { t with latched := false }) s)))
    ∧ (∀ s d b g, passes 0x0803 d s = true → b = blockOf s d → g = dOffset d →
        (commBad s g b = none → exec (.pgCommConfig d) s
          = .next (ok d (commRefresh g (updGroup g (fun x => { x with comm := some b, step := u8 b 6, floating := false }) s))))
        ∧ (∀ e, commBad s g b = some e → exec (.pgCommConfig d) s = .next (fail d e s))
        ∧ ((16 ≤ g ∨ 2 < u8 b 0 ∨ u8 b 1 = 0 ∨ 8 < u8 b 1 ∨ u8 b 1 ≤ u8 b 6 ∨ u8 b 7 ≠ 0) → exec (.pgCommConfig d) s = .next (fail d 0x0004 s)))
    ∧ (∀ g s, (∀ o ∈ s.objs, o.typ ≠ tyPwmch) → commRefresh g s = s)
    ∧ (∀ s d g op st, passes 0x0804 d s = true → g = u8 d.bytes 16 → op = u8 d.bytes 17 → st = u8 d.bytes 18 →
        ((16 ≤ g ∨ 2 < op ∨ op ≠ 2 ∧ st ≠ 0) → exec (.pgCommutate d) s = .next (fail d 0x0004 s))
        ∧ (g < 16 → op ≤ 2 → (op = 2 ∨ st = 0) →
          ((pgGroup s g).comm = none → exec (.pgCommutate d) s = .next (fail d 0x000E s))
          ∧ (∀ b, (pgGroup s g).comm = some b →
            (op = 2 → u8 b 1 ≤ st → exec (.pgCommutate d) s = .next (fail d 0x0004 s))
            ∧ (op = 2 → st < u8 b 1 → exec (.pgCommutate d) s = .next (ok d (commRefresh g (updGroup g (fun x => { x with step := st }) s))))
            ∧ (op = 0 → exec (.pgCommutate d) s = .next (ok d (commRefresh g (updGroup g (fun x => { x with step := (x.step + 1) % u8 b 1 }) s))))
            ∧ (op = 1 → exec (.pgCommutate d) s
              = .next (ok d (commRefresh g (updGroup g (fun x => { x with step := (x.step + u8 b 1 - 1) % u8 b 1 }) s)))))))
    ∧ (∀ s d, passes 0x0805 d s = true → ∃ bs, exec (.pgStatus d) s = .next (writeBack d bs {} s)
        ∧ (s.pg.groups.length = 16 → bs.length = 264)
        ∧ (∀ g, g < 16 → s.pg.groups.length = 16 → u32 bs (16 * g) = (pgGroup s g).period % 2 ^ 32 ∧ u8 bs (16 * g + 5) = (pgGroup s g).step % 256))

/-- A period start moves the group to its next period with the next one a period later, and takes up a new period. Minimum
pulse: 0 and full width hold a level, a pulse that is too short is left out and carried. A compare edge sets or clears
the latch of an ENABLED channel on its tick where no higher source holds the channel. A trip input that becomes active
latches an enabled latch trip with its event, once; it is released with its GTC; a latched trip with clear on release
clears 10 µs after. A transition of SWN is kept; with the incoming side waiting, dead time ends with it or at dt_max,
with a timeout counted. A blankable trip still active acts at the end of the blanking. An edge of the GPIO a group
commutates by moves its step. -/
def Obligations.PulseEdgesAndTrips : Prop :=
  (∀ s g t u p k, (pgGroup s g).next = some t → p = (pgGroup s g).nextPeriod.getD (pgGroup s g).period
      → ((pgGroup s g).start ≠ none → k = ((pgGroup s g).k + 1) % 16)
      → ((pgGroup s g).start = none → (pgGroup s g).aligned = false → k = 0)
      → ((pgGroup s g).start = none → (pgGroup s g).aligned = true → k = (((t : Int) - (pgGroup s g).anchor) / (p : Int) % 16).toNat)
      → u = updGroup g (fun x => { x with period := p, nextPeriod := none, start := some t, next := some (t + p), k := k }) (toInstant t s) →
        (∀ v, v = countFaulted ((axesOnGroup u g).foldl (fun s o => axDuties t p o s) u) g → exec (.periodStart g) s
          = .next (cycleAgain g ((groupChans v g).foldl (fun s o => chanPeriod t k p o.idx s) v)))
        ∧ ((∀ o ∈ s.objs, o.typ ≠ tyPwmch ∧ o.typ ≠ tyAxis) → (∀ x ∈ s.pg.trips, x.en = false) → exec (.periodStart g) s = .next u))
    ∧ (∀ s g, (pgGroup s g).next = none → exec (.periodStart g) s = .next s)
    ∧ (∀ st w wt p dr df mp c pair str, minPulse st 0 wt p dr df mp c pair str = { level := some false }
        ∧ (0 < p → minPulse st p wt p dr df mp c pair str = { level := some true })
        ∧ (w ≠ 0 → w ≠ p → minPulse st w wt p dr df 0 c pair str = { set := some st, clr := some ((st + w) % p) })
        ∧ (w ≠ 0 → w ≠ p → mp ≠ 0 → (wt : Int) + c - dr < mp → minPulse st w wt p dr df mp c pair false = { carry := (wt : Int) + c, short := 1 }))
    ∧ (∀ s t o, (pwmOf o).shadowAt + 48 ≤ t → shadowAtStart t o = some { since := (pwmOf o).shadowAt, params := o.params, phase := (pwmOf o).phaseSh }
        ∧ (objAt s o.idx = some o → (∀ x ∈ s.pg.trips, x.latched = false) → ∃ r, chanLoad t o.idx s
            = updObj o.idx (fun c => { c with act := o.params, rt := .pwm r }) s ∧ r.phase = (pwmOf o).phaseSh))
    ∧ (∀ s h c, (objOf s h = none ∨ ∃ o, objOf s h = some o ∧ (o.typ ≠ tyPwmch ∨ isEnabled o = false
          ∨ (if c then (pwmOf o).clrEdge else (pwmOf o).setEdge) = none)) → exec (.pgCompareEdge h c) s = .next s)
    ∧ (∀ s h c o t, objOf s h = some o → o.typ = tyPwmch → isEnabled o = true → (if c then (pwmOf o).clrEdge else (pwmOf o).setEdge) = some t →
        exec (.pgCompareEdge h c) s = .next (pwmRefresh o.idx (updPwm o.idx (fun r => dueEdges t { r with
          blankUntil := if (pwmOf o).gate then t + u16 o.act 32 else r.blankUntil }) (toInstant t s))))
    ∧ (∀ s h o t, objOf s h = some o → objAt s o.idx = some o → o.typ = tyPwmch → isEnabled o = true → pwChan o.act < 64 →
        (pwHeld s o (pwmOf o) = false → (pwmOf o).tripped = false → (pwmOf o).dispHeld = false → (pwmOf o).setEdge = some t → (pwmOf o).clrEdge = none →
          ∃ u r, exec (.pgCompareEdge h false) s = .next u
          ∧ u = { toInstant t s with objs := u.objs } ∧ objAt u o.idx = some { o with rt := .pwm r } ∧ r.cmp = true ∧ r.setEdge = none
          ∧ (∀ i, i ≠ o.idx → objAt u i = objAt s i))
        ∧ (pwHeld s o (pwmOf o) = false → (pwmOf o).tripped = false → (pwmOf o).dispHeld = false → (pwmOf o).clrEdge = some t → (pwmOf o).setEdge = none →
          ∃ u r, exec (.pgCompareEdge h true) s = .next u
          ∧ objAt u o.idx = some { o with rt := .pwm r } ∧ r.cmp = false ∧ r.clrEdge = none))
    ∧ (∀ s n, (8 ≤ n ∨ (trip s n).input = true → exec (.tripInputAssert n) s = .next s)
        ∧ (n < 8 → (trip s n).input = false → exec (.tripInputAssert n) s = .next (tripArrive n (updTrip n (fun t => { t with input := true }) s)))
        ∧ (8 ≤ n ∨ (trip s n).input = false → exec (.tripInputRelease n) s = .next s)
        ∧ (n < 8 → (trip s n).input = true → exec (.tripInputRelease n) s = .next (updTrip n (fun t => { t with input := false, released := s.gtc }) s)))
    ∧ (∀ s n t os, t = trip s n → os = (tripChans s n).filter (fun o => !blanked s t o) →
        ((t.en = false ∨ t.input = false ∨ t.latch = true ∧ t.latched = true) → tripArrive n s = s)
        ∧ (t.en = true → t.input = true → (t.latch = false ∨ t.latched = false) →
          (os ≠ [] → tripArrive n s = tripActs n os s)
          ∧ (os = [] → t.latch = true → tripChans s n = [] → tripArrive n s = tripActs n [] s)
          ∧ (os = [] → (t.latch = false ∨ tripChans s n ≠ []) → tripArrive n s = s)))
    ∧ (∀ s n os, tripActs n os s = os.foldl (fun s o => tripOn n o.idx s) (
        if (trip s n).latch = false then raiseLimited 480000000 0x0840 0 0 n 0 (leBytes 1 n ++ [0, 0, 0, 0, 0, 0, 0]) 4 4 s
        else if (trip s n).latched = true then s
        else raise0 0x0840 0 (leBytes 1 n ++ [1, 0, 0, 0, 0, 0, 0]) (updTrip n (fun t => { t with latched := true }) s)))
    ∧ (∀ s n i, ((trip s n).latch = false → tripOn n i s = pwmRefresh i (updPwm i (fun r => { r with cyc := true, carry := 0 }) s))
        ∧ ((trip s n).latch = true → ∀ u, u = pwmRefresh i (updPwm i (fun r => { r with latched := setBit r.latched n true, carry := 0 }) s) →
          tripOn n i s = (if bit (trip s n).flags 3 = true then tripFault n i u else u)))
    ∧ (∀ s n, n < 8 → s.pg.trips.length = 8 → (trip s n).input = false → (trip s n).en = true → (trip s n).latch = true → (trip s n).latched = false
      → tripChans s n = [] → exec (.tripInputAssert n) s
        = .next (raise0 0x0840 0 (leBytes 1 n ++ [1, 0, 0, 0, 0, 0, 0]) (updTrip n (fun t => { t with input := true, latched := true }) s)))
    ∧ (∀ s n, ((8 ≤ n ∨ (trip s n).latched = false ∨ (trip s n).input = true ∨ bit (trip s n).flags 2 = false) → exec (.tripReleaseClear n) s = .next s)
        ∧ (n < 8 → (trip s n).latched = true → (trip s n).input = false → bit (trip s n).flags 2 = true →
          exec (.tripReleaseClear n) s = .next (tripClear n 1 (toInstant ((trip s n).released + 4800) s))))
    ∧ (∀ s p high t u, u = toInstant t { s with pg := { s.pg with swn := s.pg.swn.set p high } } →
        ((pwmOnChan s (2 * p) = none ∨ ∃ o, pwmOnChan s (2 * p) = some o ∧ ((pwmOf o).turn = none ∨ pwAdaptive o.act = false
            ∨ ∃ x, (pwmOf o).turn = some (!high, x))) → exec (.swnTransition p high t) s = .next u)
        ∧ (∀ o x, pwmOnChan s (2 * p) = some o → objAt s o.idx = some o → pwAdaptive o.act = true → (pwmOf o).turn = some (high, x) →
          exec (.swnTransition p high t) s = .next (updPwm o.idx (pwTurned
            (clampNat (x + u16 o.act (if high then 24 else 26)) (x + u16 o.act 28) (t + u16 o.act 30)) o.act high x) u)))
    ∧ (∀ t ps x r, pwTurned t ps true x r = { r with turn := none, blankUntil := t + u16 ps 32, h := some t, dtRise := t - x, measR := true }
        ∧ pwTurned t ps false x r = { r with turn := none, blankUntil := t + u16 ps 32, l := some t, dtFall := t - x, measF := true })
    ∧ (∀ s h o rising x, objOf s h = some o → objAt s o.idx = some o → (pwmOf o).turn = some (rising, x) → exec (.deadTimeMax h) s
        = .next (raiseLimited 480000000 0x0843 0 h 0 0 [if rising then 0 else 1, 0, 0, 0, 0, 0, 0, 0] 4 4
            (updPwm o.idx (fun r => { r with dtTimeouts := satInc 32 r.dtTimeouts })
              (updPwm o.idx (pwTurned (x + u16 o.act 28) o.act rising x) (toInstant (x + u16 o.act 28) s)))))
    ∧ (∀ s h, (objOf s h = none ∨ ∃ o, objOf s h = some o ∧ (pwmOf o).turn = none) → exec (.deadTimeMax h) s = .next s)
    ∧ (∀ s h, (objOf s h = none ∨ ∃ o, objOf s h = some o ∧ (o.typ ≠ tyPwmch ∨ isEnabled o = false ∨ (pwmOf o).blankUntil = 0)) →
        exec (.blankingEnd h) s = .next s)
    ∧ (∀ s h o u, objOf s h = some o → o.typ = tyPwmch → isEnabled o = true → (pwmOf o).blankUntil ≠ 0
      → u = updPwm o.idx (fun r => { r with blankUntil := 0 }) (toInstant (pwmOf o).blankUntil s) →
        exec (.blankingEnd h) s = .next (((List.range 8).filter fun n =>
          (trip s n).en && (trip s n).input && bit (trip s n).flags 1 && bit (u8 o.act 34) n).foldl (fun s n => tripActs n [o] s) u)
        ∧ (u8 o.act 34 = 0 → exec (.blankingEnd h) s = .next u)
        ∧ (u8 o.act 34 = 1 → (trip s 0).en = true → (trip s 0).input = true → bit (trip s 0).flags 1 = true → exec (.blankingEnd h) s = .next (tripActs 0 [o] u)))
    ∧ (∀ s g x lv, ((pgGroup s g).comm = none ∨ ∃ b, (pgGroup s g).comm = some b ∧ ∀ c ∈ commClaims b, c.1 ≠ x) → exec (.commutationInput g x lv) s = .next s)
    ∧ (∀ s g x lv b, (pgGroup s g).comm = some b → (∃ c ∈ commClaims b, c.1 = x) → exec (.commutationInput g x lv) s = .next (gpioEdge x lv s.gtc s))
    ∧ (∀ s g x b, (pgGroup s g).comm = some b → u8 b 0 = 1 → u8 b 2 = x → commInput x g s = commRefresh g (updGroup g (fun y => { y with
          step := if u8 b 5 ≠ 0xFF ∧ gpioLevel s (u8 b 5) = true then (y.step + u8 b 1 - 1) % u8 b 1 else (y.step + 1) % u8 b 1 }) s))
    ∧ (∀ s g x b c, (pgGroup s g).comm = some b → u8 b 0 = 2 → (u8 b 2 = x ∨ u8 b 3 = x ∨ u8 b 4 = x)
      → c = 4 * b2n (gpioLevel s (u8 b 4)) + 2 * b2n (gpioLevel s (u8 b 3)) + b2n (gpioLevel s (u8 b 2)) →
        (u8 b (8 + c) ≠ 0xFF → commInput x g s = commRefresh g (updGroup g (fun y => { y with floating := false, step := u8 b (8 + c) }) s))
        ∧ (u8 b (8 + c) = 0xFF → commInput x g s = raiseLimited 480000000 0x0844 0 0 g 0 (leBytes 1 g ++ leBytes 1 c) 0 0
          (commRefresh g (updGroup g (fun y => { y with floating := true }) s))))
    ∧ (∀ s g x lv b, s.objs = [] → g < 16 → s.pg.groups.length = 16 → (pgGroup s g).comm = some b → (∀ j, j ≠ g → (pgGroup s j).comm = none)
      → u8 b 0 = 1 → u8 b 2 = x → u8 b 5 = 0xFF → gpioLevel s x ≠ lv → ∃ t, exec (.commutationInput g x lv) s = .next t
        ∧ (pgGroup t g).step = ((pgGroup s g).step + 1) % u8 b 1 ∧ (∀ j, j ≠ g → pgGroup t j = pgGroup s j))

/-- SW_CMD of an ENABLED static line that no object drives is pending until its take-effect GTC; one that has passed acts
at acceptance; a driven or pin-controlled line is refused, a latched one refuses on. At its GTC the gate opens or
closes and the command completes. SW_CLEAR clears the latches of its mask, except THERMAL above 150 °C and FUSE above
one half, and says which stay. SW_GROUP_STATUS writes 64 bytes that begin with the group means. A GPIO edge is a new
level for the readers of the pin: a SWITCH with that IN pin takes it. -/
def Obligations.SwitchCommands : Prop :=
  (∀ i f s, updSw i f s = { s with objs := s.objs.map fun o => if o.idx = i then { o with rt := .sw (f (swOf o)) } else o })
    ∧ (∀ s d o on x u, passes 0x0900 d s = true → objOf s (dHandle d) = some o → on = u8 d.bytes 16
      → x = { st := startedOf s d, op := 0x0900, handle := handleOf o, due := u64 d.bytes 24, arg := on }
      → u = defer d 0x0900 (handleOf o) (u64 d.bytes 24) [] on s →
        (2 ≤ on → exec (.swCmd d) s = .next (fail d 0x0004 s))
        ∧ (on < 2 → (driverOf s (handleOf o) ≠ none ∨ swSrc o.params = 1) → exec (.swCmd d) s = .next (fail d 0x0901 s))
        ∧ (on < 2 → driverOf s (handleOf o) = none → swSrc o.params ≠ 1 →
          (isEnabled o = false → exec (.swCmd d) s = .next (fail d 0x000E s))
          ∧ (isEnabled o = true → (swOf o).latch ≠ 0 → on = 1 → exec (.swCmd d) s = .next (fail d 0x0903 s))
          ∧ (isEnabled o = true → ((swOf o).latch = 0 ∨ on = 0) →
            (s.gtc < u64 d.bytes 24 → exec (.swCmd d) s = .next u) ∧ (u64 d.bytes 24 ≤ s.gtc → exec (.swCmd d) s = .next (swCmdRun x u)))))
    ∧ (∀ s x, objOf s x.handle = none → swCmdRun x s = completeDeferred x { status := 0x0002 } s)
    ∧ (∀ s x o, objOf s x.handle = some o →
        ((driverOf s (handleOf o) ≠ none ∨ swSrc o.params = 1) → swCmdRun x s = completeDeferred x { status := 0x0901 } s)
        ∧ (driverOf s (handleOf o) = none → swSrc o.params ≠ 1 →
          (isEnabled o = false → swCmdRun x s = completeDeferred x { status := 0x000E } s)
          ∧ (isEnabled o = true → (swOf o).latch ≠ 0 → x.arg = 1 → swCmdRun x s = completeDeferred x { status := 0x0903 } s)
          ∧ (∀ u, isEnabled o = true → ((swOf o).latch = 0 ∨ x.arg ≠ 1)
            → u = updSw o.idx (fun r => if r.dead && r.retryAt.isNone && !r.retryWait then { r with cmd := false } else r) s →
            swCmdRun x s = completeDeferred x {} (if x.arg = 1 then gateOpen x.handle none u else gateClose x.handle u))))
    ∧ (∀ s h x, firstDue s 0x0900 h (fun _ => true) = some x → exec (.swCmdTakeEffect h) s = .next (swCmdRun x (toInstant x.due s)))
    ∧ (∀ s h, firstDue s 0x0900 h (fun _ => true) = none → exec (.swCmdTakeEffect h) s = .next s)
    ∧ (∀ s d o m left, passes 0x0901 d s = true → objOf s (dHandle d) = some o → m = u8 d.bytes 16 → left = swHeld (swOf o) m →
        (16 ≤ m → exec (.swClear d) s = .next (fail d 0x0004 s))
        ∧ (m < 16 → left &&& m = 0 → exec (.swClear d) s = .next (ok d (updSw o.idx (fun r => { r with latch := left }) s)))
        ∧ (m < 16 → left &&& m ≠ 0 → exec (.swClear d) s
          = .next (failWith d 0x0902 (leBytes 1 left) (updSw o.idx (fun r => { r with latch := left }) s))))
    ∧ (∀ r m b, b < 4 → bit (swHeld r m) b = (bit r.latch b && !(bit m b && (if b = 1 then fLt r.tj (fk 150) else if b = 2 then fLe r.fuse (fq 1 2) else true))))
    ∧ (∀ s d, passes 0x0902 d s = true → ∃ bs, exec (.swGroupStatus d) s = .next (writeBack d bs {} s) ∧ bs.length = 64
        ∧ (∀ g, g < 5 → f32 bs (12 * g) = s.swd.means.getD g 0))
    ∧ (∀ s g lv, exec (.swInPinEdge g lv) s = .next (gpioEdge g lv s.gtc s))
    ∧ (∀ s g lv, gpioLevel s g = lv → exec (.swInPinEdge g lv) s = .next s)
    ∧ (∀ s act o r, objAt s o.idx = some o → r = swOf o →
        (r.inAct = act → swInEdge act o.idx s = s)
        ∧ (r.inAct = true → act = false → swInEdge act o.idx s = swRefresh o.idx (updSw o.idx (fun r => { r with inAct := false, inSince := s.gtc }) s))
        ∧ (r.inAct = false → act = true → r.inSince + 480000 ≤ s.gtc → isEnabled o = true → swInEdge act o.idx s = swOnCmd o.idx
          (updSw o.idx (fun r => { r with cmd := false, retryAt := none, retryWait := false }) (updSw o.idx (fun r => { r with inAct := true }) s)))
        ∧ (r.inAct = false → act = true → (s.gtc < r.inSince + 480000 ∨ isEnabled o = false) → swInEdge act o.idx s
          = swRefresh o.idx (updSw o.idx (fun r => { r with inAct := true }) s)))
    ∧ (∀ s g lv o, g < 48 → s.pg.gpio.length = 48 → gpioLevel s g ≠ lv → s.objs = [o] → o.typ = tySwitch → isEnabled o = true → swSrc o.act = 1 → u8 o.act 2 = g
      → bit (u8 o.act 6) 0 = false → (∀ x ∈ s.pg.groups, x.comm = none) → ∃ t, exec (.swInPinEdge g lv) s = .next t ∧ gpioLevel t g = lv
        ∧ (∀ k, k ≠ g → gpioLevel t k = gpioLevel s k) ∧ (objAt t o.idx).map (fun x => (swOf x).inAct) = some lv)

/-- On the line of a SWITCH: limiting is noted once; the limit time or a short while limiting shuts the line down, with a
retry while one is left; the retry delay ends in a retry, or waits for the thermal condition, and a waiting one
proceeds when none holds. The ΔT limit turns a line off until it has fallen 15 K below; 170 °C latches. A tick keeps
the measurements and latches a spent fuse. Clamps are counted and latch above eight in a second; an open load is
raised after its count of intervals. A line in HOLD leaves it at a shutdown. Averages of a second are kept, with an
event for each above its limit. -/
def Obligations.SwitchProtection : Prop :=
  (∀ s k u, s.isl.hold.contains k = true → u = { s with isl := { s.isl with hold := s.isl.hold.erase k } } →
        (∀ t, exec (.swLimitTimeout k) s = .next u ∧ exec (.swShortCircuit k t) s = .next u)
        ∧ (∀ a b, exec (.swDtLimitReached k a b) s = .next u ∧ exec (.swThermalLatch k a) s = .next u)
        ∧ (∀ t, exec (.swCurrentLimit k t) s = .next s) ∧ exec (.swRetryDelayEnd k) s = .next s ∧ exec (.swThermalConditionEnd k) s = .next s
        ∧ (∀ a b us, exec (.swDtRecover k a b) s = .next s ∧ exec (.swClampEvent k us) s = .next s ∧ exec (.swOpenLoadInterval k us a.toNat) s = .next s)
        ∧ (∀ cs a b, exec (.swFuseTick k cs a b) s = .next (groupAdd k (currentCodes s k cs) s)))
    ∧ (∀ s k, s.isl.hold.contains k = false → swOnLine s k = none →
        (∀ t, exec (.swCurrentLimit k t) s = .next s ∧ exec (.swLimitTimeout k) s = .next s ∧ exec (.swShortCircuit k t) s = .next s)
        ∧ exec (.swRetryDelayEnd k) s = .next s ∧ exec (.swThermalConditionEnd k) s = .next s
        ∧ (∀ a b, exec (.swDtLimitReached k a b) s = .next s ∧ exec (.swDtRecover k a b) s = .next s ∧ exec (.swThermalLatch k a) s = .next s)
        ∧ (∀ us n, exec (.swClampEvent k us) s = .next s ∧ exec (.swOpenLoadInterval k us n) s = .next s)
        ∧ (∀ cs a b, exec (.swFuseTick k cs a b) s = .next (groupAdd k (currentCodes s k cs) s)))
    ∧ (∀ s k o r, s.isl.hold.contains k = false → swOnLine s k = some o → r = swOf o →
        (∀ t, (r.out = false ∨ r.limAt ≠ none) → exec (.swCurrentLimit k t) s = .next s)
        ∧ (∀ t u, r.out = true → r.limAt = none → u = toInstant t s → exec (.swCurrentLimit k t) s = .next (senseReason (handleOf o) 6
          (updSw o.idx (fun r => { r with limAt := some u.gtc, limInrush := decide (u.gtc ≤ r.turnOn + u16 o.act 18 * 480000) }) u)))
        ∧ (r.limAt = none → exec (.swLimitTimeout k) s = .next s ∧ ∀ t, exec (.swShortCircuit k t) s = .next s)
        ∧ (∀ t, r.limAt = some t → exec (.swLimitTimeout k) s
          = .next (swShutdown o 0 (toInstant (t + u16 o.act (if r.limInrush then 16 else 14) * 480) s)))
        ∧ (∀ t, r.limAt ≠ none → exec (.swShortCircuit k t) s = .next (swShutdown o 1 (toInstant (max t (r.turnOn + u16 o.act 22 * 480)) s)))
        ∧ (r.retryAt = none → exec (.swRetryDelayEnd k) s = .next s)
        ∧ (∀ t, r.retryAt = some t → swThermal r = true → exec (.swRetryDelayEnd k) s
          = .next (updSw o.idx (fun r => { r with retryAt := none, retryWait := true }) (toInstant t s)))
        ∧ (∀ t, r.retryAt = some t → swThermal r = false → exec (.swRetryDelayEnd k) s = .next (swRestart o (toInstant t s)))
        ∧ (r.retryWait = true → swThermal r = false → exec (.swThermalConditionEnd k) s = .next (swRestart o s))
        ∧ ((r.retryWait = false ∨ swThermal r = true) → exec (.swThermalConditionEnd k) s = .next s))
    ∧ (∀ r, swThermal r = (r.dtOff || bit r.latch 1))
    ∧ (∀ s o u, u = updSw o.idx (fun r => { r with retryAt := none, retryWait := false }) s →
        ((swCmdEnded u o = true ∨ (swOf o).latch ≠ 0) → swRestart o s = u)
        ∧ (swCmdEnded u o = false → (swOf o).latch = 0 → swRestart o s
          = swRefresh o.idx (updSw o.idx (fun r => { r with retries := r.retries - 1, dead := false }) u)))
    ∧ (∀ s o c n u, n = (swOf o).retries → u = senseReason (handleOf o) 6 (raiseLimited 48000000 0x0940 0 (handleOf o) 0 0
          (leBytes 1 c ++ leBytes 1 n ++ [0, 0, 0, 0, 0, 0]) 4 4 (swRefresh o.idx (updSw o.idx (fun r => { r with
            ocLimit := if c = 0 then satInc 32 r.ocLimit else r.ocLimit, ocShort := if c = 1 then satInc 32 r.ocShort else r.ocShort
            dead := true, retryAt := if n = 0 then none else some (s.gtc + u16 o.act 20 * 480000) }) s))) →
        (n ≠ 0 → swShutdown o c s = u) ∧ (n = 0 → swShutdown o c s = swLatch o 0 u))
    ∧ (∀ s k o r, s.isl.hold.contains k = false → swOnLine s k = some o → r = swOf o →
        (∀ tj tc, (r.dtOff = true ∨ r.out = false ∧ r.retryAt = none ∨ fLe (fk (u8 o.act 7)) (fSub tj tc) = false) →
          exec (.swDtLimitReached k tj tc) s = .next (swTemps o tj tc s))
        ∧ (∀ tj tc, fLe (fk (u8 o.act 7)) (fSub tj tc) = true → r.dtOff = false → (r.out = true ∨ r.retryAt ≠ none) → exec (.swDtLimitReached k tj tc) s
          = .next (raiseLimited 480000000 0x0943 0 (handleOf o) 1 0 [1] 0 0 (senseReason (handleOf o) 6 (swRefresh o.idx (updSw o.idx (fun r => { r with
            dtOff := true, dtCycles := if r.out then satInc 32 r.dtCycles else r.dtCycles }) (swTemps o tj tc s))))))
        ∧ (∀ tj tc, (r.dtOff = false ∨ fLe (fSub tj tc) (fk ((u8 o.act 7 : Int) - 15)) = false) → exec (.swDtRecover k tj tc) s = .next (swTemps o tj tc s))
        ∧ (∀ tj tc, fLe (fSub tj tc) (fk ((u8 o.act 7 : Int) - 15)) = true → r.dtOff = true → exec (.swDtRecover k tj tc) s
          = .next (raiseLimited 480000000 0x0943 0 (handleOf o) 0 0 [0] 0 0 (swRefresh o.idx (updSw o.idx (fun r => { r with dtOff := false })
            (swTemps o tj tc s)))))
        ∧ (∀ tj, fLe (fk 170) tj = true → bit r.latch 1 = false → exec (.swThermalLatch k tj) s
          = .next (swLatch o 1 (updSw o.idx (fun r => { r with tj := tj }) s)))
        ∧ (∀ tj, (fLe (fk 170) tj = false ∨ bit r.latch 1 = true) → exec (.swThermalLatch k tj) s = .next s)
        ∧ (∀ cs tj tc c x u, c = currentCodes s k cs → x = fuseNext o r.fuse (if r.out then switchRms c else fZero) (swTemps o tj tc (groupAdd k c s))
          → u = updSw o.idx (fun r => { r with current := switchMean c, iPeak := fMax r.iPeak (switchPeak c), fuse := x.1 }) x.2 →
          (isEnabled o = true → fLe fOne x.1 = true → bit r.latch 2 = false → exec (.swFuseTick k cs tj tc) s = .next (swLatch o 2 u))
          ∧ ((isEnabled o = false ∨ fLe fOne x.1 = false ∨ bit r.latch 2 = true) → exec (.swFuseTick k cs tj tc) s = .next u))
        ∧ (∀ us q u, q = (r.clampAt.filter fun t => decide (s.gtc < t + 480000000)) ++ [s.gtc]
          → u = raiseLimited 480000000 0x0944 0 (handleOf o) 0 0 (satBytes 1 q.length) 0 0
            (updSw o.idx (fun r => { r with clamps := satInc 32 r.clamps, clampAt := q }) s) →
          ((8 ≤ q.length ∨ 200 < us) → bit r.latch 3 = false → exec (.swClampEvent k us) s = .next (swLatch o 3 u))
          ∧ ((q.length < 8 ∧ us ≤ 200 ∨ bit r.latch 3 = true) → exec (.swClampEvent k us) s = .next u))
        ∧ (∀ us n, (isEnabled o = false ∨ u8 o.act 5 = 0 ∨ us ≤ u16 o.act 26) → exec (.swOpenLoadInterval k us n) s = .next s)
        ∧ (∀ us n, isEnabled o = true → u8 o.act 5 ≠ 0 → u16 o.act 26 < us →
          (olThreshold o.act ≤ n → r.openLoad = true → exec (.swOpenLoadInterval k us n) s
            = .next (raise0 0x0945 (handleOf o) [0] (updSw o.idx (fun r => { r with olRun := 0, openLoad := false }) s)))
          ∧ (olThreshold o.act ≤ n → r.openLoad = false → exec (.swOpenLoadInterval k us n) s
            = .next (updSw o.idx (fun r => { r with olRun := 0, openLoad := false }) s))
          ∧ (n < olThreshold o.act → (r.openLoad = true ∨ r.olRun + 1 < u8 o.act 28) → exec (.swOpenLoadInterval k us n) s
            = .next (updSw o.idx (fun r => { r with olRun := r.olRun + 1 }) s))
          ∧ (∀ u, n < olThreshold o.act → r.openLoad = false → u8 o.act 28 ≤ r.olRun + 1 → u = raise0 0x0945 (handleOf o) [1] (legFlag o.idx 7
              (senseReason (handleOf o) 6 (updSw o.idx (fun r => { r with openLoad := true, olEvents := satInc 32 r.olEvents })
                (updSw o.idx (fun r => { r with olRun := r.olRun + 1 }) s)))) →
            exec (.swOpenLoadInterval k us n) s = .next (if bit (u8 o.act 6) 1 then swFault (handleOf o) 0x80 u else u))))
    ∧ (∀ ps, (u8 ps 5 = 1 → olThreshold ps = u16 ps 24 / 10 * 10 * 500) ∧ (u8 ps 5 ≠ 1 → olThreshold ps = u16 ps 24 * 500))
    ∧ (∀ s o b, objAt s o.idx = some o → o.typ = tySwitch → (s.objs.Pairwise fun x y => x.idx ≠ y.idx) → swFaultTarget s (handleOf o) = none → b < 4 →
        ∃ x, objAt (swLatch o b s) o.idx = some x ∧ (swOf x).latch = setBit (swOf o).latch b true ∧ (swOf x).dead = true ∧ (swOf x).retryAt = none)
    ∧ (∀ s n u, n = s.swd.acc ++ [s.swd.acc.foldl (· + ·) 0] → u = { s with swd := { s.swd with
          means := n.map fun (x : Nat) => fOpen 100 ((x * 25 : Nat) : Int) (10 ^ 10), acc := [0, 0, 0, 0] } } →
        exec .swGroupAverage s = .next ((List.range 5).foldl (fun s g => if (if g = 4 then 36 else 10) * 10 ^ 10 < n.getD g 0 * 25 then
            raise0 0x0946 0 (leBytes 1 g ++ [0, 0, 0] ++ leBytes 4 (roundOpen 22 ((n.getD g 0 * 25 : Nat) * 1000) (10 ^ 10)).toNat) s else s) u)
        ∧ ((∀ x ∈ n, x * 25 ≤ 10 * 10 ^ 10) → exec .swGroupAverage s = .next u))

/-- SOL_BOOST_CONFIG within its ranges sets the converter and holds the voltage, the wait and t_chop for the next
boundary; beyond a range it is refused. SOL_CMD of an ENABLED channel that nothing drives is pending until its GTC and
acts at once when that has passed; a driven one, and on while latched, is refused. At its GTC an edge turns the
channel on or off and the command waits for its window, and one that finds the gate as commanded completes without a
signature. SOL_CLEAR clears the latches of its mask. SOL_BOOST_STATUS writes 32 bytes. -/
def Obligations.SolenoidCommands : Prop :=
  (∀ i f s, updSol i f s = { s with objs := s.objs.map fun o => if o.idx = i then { o with rt := .sol (f (solOf o)) } else o })
    ∧ (∀ s d b bad x same, passes 0x0A00 d s = true → b = d.bytes → x = s.boost
      → bad = (2 ≤ u8 b 16 ∨ u16 b 18 < 100 ∨ 1000 < u16 b 18 ∨ fIn (fk 24) (fk 65) (f32 b 20) = false ∨ fIn (fq 1 2) (fk 20) (f32 b 24) = false
          ∨ fIn (fk 5) (fk 100) (f32 b 28) = false ∨ u16 b 32 < 100 ∨ 10000 < u16 b 32 ∨ u16 b 34 = 0 ∨ 100 < u16 b 34
          ∨ 200 * 2 ^ 298 < fVal (f32 b 24) * fVal (f32 b 28))
      → same = (x.en = (u8 b 16 == 1) ∧ x.freq = u16 b 18 ∧ x.ilim = f32 b 24 ∧ x.rcs = f32 b 28) →
        (bad → exec (.solBoostConfig d) s = .next (fail d 0x0004 s))
        ∧ (¬ bad → (objsOf s tySolenoid).any isEnabled = true → ¬ same → exec (.solBoostConfig d) s = .next (fail d 0x000C s))
        ∧ (¬ bad → ((objsOf s tySolenoid).any isEnabled = false ∨ same) → exec (.solBoostConfig d) s = .next (ok d { s with boost := { x with
          en := u8 b 16 == 1, freq := u16 b 18, ilim := f32 b 24, rcs := f32 b 28, next := some (f32 b 20, u16 b 32, u16 b 34) } })))
    ∧ (∀ s v w c, s.boost.next = some (v, w, c) → boostBoundary s = { s with boost := { s.boost with next := none, vboost := v, boostWait := w, tChop := c } })
    ∧ (∀ s d o on x u, passes 0x0A01 d s = true → objOf s (dHandle d) = some o → on = u8 d.bytes 16
      → x = { st := startedOf s d, op := 0x0A01, handle := handleOf o, due := u64 d.bytes 24, arg := on }
      → u = defer d 0x0A01 (handleOf o) (u64 d.bytes 24) [] on s →
        (2 ≤ on → exec (.solCmd d) s = .next (fail d 0x0004 s))
        ∧ (on < 2 → driverOf s (handleOf o) ≠ none → exec (.solCmd d) s = .next (fail d 0x0A01 s))
        ∧ (on < 2 → driverOf s (handleOf o) = none →
          (isEnabled o = false → exec (.solCmd d) s = .next (fail d 0x000E s))
          ∧ (isEnabled o = true → (solOf o).latch ≠ 0 → on = 1 → exec (.solCmd d) s = .next (fail d 0x0A02 s))
          ∧ (isEnabled o = true → ((solOf o).latch = 0 ∨ on = 0) →
            (s.gtc < u64 d.bytes 24 → exec (.solCmd d) s = .next u) ∧ (u64 d.bytes 24 ≤ s.gtc → exec (.solCmd d) s = .next (solCmdRun x u)))))
    ∧ (∀ s x, objOf s x.handle = none → solCmdRun x s = completeDeferred x { status := 0x0002 } s)
    ∧ (∀ s x o, objOf s x.handle = some o →
        (driverOf s (handleOf o) ≠ none → solCmdRun x s = completeDeferred x { status := 0x0A01 } s)
        ∧ (driverOf s (handleOf o) = none →
          (isEnabled o = false → solCmdRun x s = completeDeferred x { status := 0x000E } s)
          ∧ (isEnabled o = true → (solOf o).latch ≠ 0 → x.arg = 1 → solCmdRun x s = completeDeferred x { status := 0x0A02 } s)
          ∧ (isEnabled o = true → ((solOf o).latch = 0 ∨ x.arg ≠ 1) → (solOf o).gate = (x.arg == 1) →
            solCmdRun x s = completeDeferred x { result := [0xFF, 0xFF, 0xFF, 0xFF, 9] } s)
          ∧ (∀ u, isEnabled o = true → ((solOf o).latch = 0 ∨ x.arg ≠ 1) → (solOf o).gate ≠ (x.arg == 1)
            → u = (if x.arg = 1 then solOn o.idx s else solOff o.idx s) → solCmdRun x s = { u with hif := { u.hif with
              deferred := u.hif.deferred.map fun y => if y = x then { y with arg := y.arg + 2 } else y } })))
    ∧ (∀ s h x, (firstDue s 0x0A01 h (· == 1) = some x → exec (.solOnCommand h) s = .next (solCmdRun x (toInstant x.due s)))
        ∧ (firstDue s 0x0A01 h (· == 0) = some x → exec (.solOffCommand h) s = .next (solCmdRun x (toInstant x.due s))))
    ∧ (∀ s h, (firstDue s 0x0A01 h (· == 1) = none → exec (.solOnCommand h) s = .next s)
        ∧ (firstDue s 0x0A01 h (· == 0) = none → exec (.solOffCommand h) s = .next s))
    ∧ (∀ s d o m, passes 0x0A02 d s = true → objOf s (dHandle d) = some o → m = u8 d.bytes 16 →
        (4 ≤ m → exec (.solClear d) s = .next (fail d 0x0004 s))
        ∧ (m < 4 → ∃ f : Nat → Nat, exec (.solClear d) s = .next (ok d (updSol o.idx (fun r => { r with latch := f r.latch }) s))
          ∧ ∀ x b, b < 2 → bit (f x) b = (bit x b && !bit m b)))
    ∧ (∀ s d, passes 0x0A03 d s = true → ∃ bs, exec (.solBoostStatus d) s = .next (writeBack d bs {} s) ∧ bs.length = 32
        ∧ f32 bs 0 = s.boost.volts ∧ u8 bs 5 = s.boost.queue.length % 256 ∧ u32 bs 8 = s.boost.boosts % 2 ^ 32)

/-- A converter period keeps the voltage and turns Q_BST on while charging below its limit. A charge that reaches vboost
ends, and the head of the queue boosts. The head’s wait ends without boost at boost_wait. An overvoltage is raised
once and holds the converter off. A boost ends at its current or after t_boost in the peak, whose end is the hold with
the hold target. Crossing a threshold switches the high side of a channel alone in its bank, else its own low side, no
sooner than t_chop. A decay ends with the channel idle. i_trip latches; an open load latches when its detection is on.
A window closes at its end with its signature or its reason, OVERLAP where the low side turned off before the
signature. -/
def Obligations.SolenoidPhases : Prop :=
  (∀ s t v lim u w, u = toInstant t s → w = boostSettle { u with boost := { u.boost with
          volts := v, overV := u.boost.overV && !fLt v u.boost.vboost, charged := u.boost.charged && !fLt v (fSub u.boost.vboost fOne) } } →
        exec (.boostConverterPeriod t v lim) s = .next { w with boost := { w.boost with bstG := w.boost.charging && !lim } })
    ∧ (∀ s want, want = (s.boost.en && !s.boost.overV && !s.boost.queue.isEmpty && !banksOff s) → boostSettle s = { s with boost := { s.boost with
          charging := want && !s.boost.charged, charged := s.boost.charged && want, bstG := s.boost.bstG && want
          chargeAt := if want && !s.boost.charging && !s.boost.charged then s.gtc else s.boost.chargeAt } })
    ∧ (∀ s t v, (s.boost.charging = false ∧ s.boost.charged = false ∨ fLe s.boost.vboost v = false) → exec (.vboostReached t v) s = .next s)
    ∧ (∀ s t v u, (s.boost.charging = true ∨ s.boost.charged = true) → fLe s.boost.vboost v = true → u = toInstant t s → ∃ n,
        exec (.vboostReached t v) s = .next (boostBegin (boostSettle { u with boost := { u.boost with volts := v, charged := true, bstG := false, lastCharge := n } }))
        ∧ (s.boost.charging = true → n = (u.gtc - s.boost.chargeAt) / 480) ∧ (s.boost.charging = false → n = s.boost.lastCharge))
    ∧ (∀ s, ((s.boost.queue = [] ∨ s.boost.running ≠ none ∨ s.boost.charged = false ∨ fLe s.boost.vboost s.boost.volts = false) → boostBegin s = s)
        ∧ (∀ o, s.boost.queue.head? = some (handleOf o) → objOf s (handleOf o) = some o → s.boost.running = none → s.boost.charged = true
          → fLe s.boost.vboost s.boost.volts = true → (solOf o).phase = 1 → boostBegin s = boostStart o s))
    ∧ (∀ s h o, objOf s h = some o → objAt s o.idx = some o → o.typ = tySolenoid → (s.objs.Pairwise fun x y => x.idx ≠ y.idx) → ∃ x, objAt (boostStart o s) o.idx = some x ∧ (solOf x).phase = 2 ∧ (solOf x).phaseAt = s.gtc
        ∧ (boostStart o s).boost.running = some h)
    ∧ (∀ s h, (s.boost.queue.head?.bind (objOf s) = none ∨ ∃ o, s.boost.queue.head?.bind (objOf s) = some o ∧ (handleOf o ≠ h ∨ (solOf o).phase ≠ 1)) →
        exec (.boostWaitExpiry h) s = .next s)
    ∧ (∀ s h o, s.boost.queue.head? = some h → objOf s h = some o → (solOf o).phase = 1 → exec (.boostWaitExpiry h) s
        = .next (boostSettle (boostSkip o (toInstant ((solOf o).onAt + s.boost.boostWait * 480) s))))
    ∧ (∀ s o w, w = (s.gtc - (solOf o).onAt) / 480 → boostSkip o s = solPeak o.idx (windowReason o.idx 8 (dequeue (handleOf o)
          (raise0 0x0A40 (handleOf o) ([0, 0, 0, 0] ++ leBytes 4 w) (let u := updSol o.idx (fun r => { r with
            skippedLast := true, skipped := satInc 32 r.skipped, tWait := w }) s
           { u with boost := { u.boost with skipped := wrapInc 32 u.boost.skipped, longestWait := max u.boost.longestWait w } })))))
    ∧ (∀ s v, ((s.boost.overV = true ∨ fLt (fAdd s.boost.vboost (fk 5)) v = false ∧ fLt (fk 68) v = false) → exec (.boostOvervoltage v) s = .next s)
        ∧ (s.boost.overV = false → (fLt (fAdd s.boost.vboost (fk 5)) v = true ∨ fLt (fk 68) v = true) → exec (.boostOvervoltage v) s
          = .next (skipDue (boostSettle (raise0 0x0A41 0 (fBytes v) { s with boost := { s.boost with volts := v, overV := true, bstG := false } })))))
    ∧ (∀ s, ((s.boost.overV = false ∨ s.boost.running ≠ none) → skipDue s = s)
        ∧ (s.boost.overV = true → s.boost.running = none → skipDue s
          = boostSettle ((s.boost.queue.filterMap (objOf s)).foldl (fun s o => boostSkip o s) s)))
    ∧ (∀ s h t c, (objOf s h = none ∨ s.boost.running ≠ some h ∨ ∃ o, objOf s h = some o ∧ (solOf o).phase ≠ 2) → exec (.boostEnd h t c) s = .next s)
    ∧ (∀ s h t c o u, objOf s h = some o → s.boost.running = some h → (solOf o).phase = 2
      → u = solPeak o.idx (toInstant (if c then t else (solOf o).phaseAt + u32 o.act 12 * 480) s) → exec (.boostEnd h t c) s
        = .next (skipDue (boostBegin (boostSettle (dequeue h (updSol o.idx (fun r => { r with
            tBoostMeas := (u.gtc - (solOf o).phaseAt) / 480, tBoostEnd := !c }) u))))))
    ∧ (∀ s h, dequeue h s = { s with boost := { s.boost with
        queue := s.boost.queue.filter (· != h), running := if s.boost.running = some h then none else s.boost.running } })
    ∧ (∀ s i o b u, objAt s i = some o → b = solBank o.act → u = updSol i (fun r => { r with
          phase := if u32 o.act 20 = 0 then 4 else 3, target := if u32 o.act 20 = 0 then r.loopTarget.getD (f32 o.act 24) else f32 o.act 16
          phaseAt := if r.phase = 2 then s.gtc else r.onAt, reached := false }) s →
        solPeak i s = bankSettle b (bankActive s b).length (setLs i true (setHs b true u)))
    ∧ (∀ s h, (objOf s h = none ∨ ∃ o, objOf s h = some o ∧ (solOf o).phase ≠ 3) → exec (.peakEnd h) s = .next s)
    ∧ (∀ s h o u, objOf s h = some o → (solOf o).phase = 3 → u = toInstant ((solOf o).phaseAt + u32 o.act 20 * 480) s →
        exec (.peakEnd h) s = .next (updSol o.idx (fun r => { r with
            phase := 4, phaseAt := (solMissed o u).gtc, reached := false, target := r.loopTarget.getD (f32 o.act 24) }) (solMissed o u)))
    ∧ (∀ s o, ((solOf o).reached = true → solMissed o s = s)
        ∧ ((solOf o).reached = false → ∀ u, u = updSol o.idx (fun r => { r with notReached := true }) s →
          solMissed o s = (if s.pwr.vbatLow.getD 0 false = true then
            raiseLimited 480000000 0x0A44 0 (handleOf o) 0 0 (leBytes 1 (solOf o).phase ++ [0, 0, 0, 0, 0, 0, 0]) 4 4 u else u)))
    ∧ (∀ s h t up, (objOf s h = none ∨ ∃ o, objOf s h = some o ∧ (solOf o).phase ≠ 3 ∧ (solOf o).phase ≠ 4) → exec (.solRegulatorThreshold h t up) s = .next s)
    ∧ (∀ s h t up o b w, objOf s h = some o → b = solBank o.act → ((solOf o).phase = 3 ∨ (solOf o).phase = 4) →
        ((bankActive s b).length ≤ 1 → w = toInstant (max t (s.boost.hsAt.getD b 0 + s.boost.tChop * 480)) s →
          exec (.solRegulatorThreshold h t up) s = .next (setLs o.idx true (setHs b (!up) (updSol o.idx (fun r => { r with
            reached := true, target := if r.phase = 4 then r.loopTarget.getD r.target else r.target }) w))))
        ∧ (1 < (bankActive s b).length → w = toInstant (max t ((solOf o).lsAt + s.boost.tChop * 480)) s →
          exec (.solRegulatorThreshold h t up) s = .next (setLs o.idx (!up) (updSol o.idx (fun r => { r with
            reached := true, target := if r.phase = 4 then r.loopTarget.getD r.target else r.target }) w))))
    ∧ (∀ s h t, (objOf s h = none ∨ ∃ o, objOf s h = some o ∧ (solOf o).phase ≠ 5) → exec (.solDecayEnd h t) s = .next s)
    ∧ (∀ s h t o, objOf s h = some o → (solOf o).phase = 5 → exec (.solDecayEnd h t) s
        = .next (setLs o.idx false (windowCut o.idx (updSol o.idx (fun r => { r with phase := 0 }) (toInstant t s)))))
    ∧ (∀ s h t, objOf s h = none → exec (.solTripCurrent h t) s = .next s ∧ exec (.solOpenTimeout h) s = .next s)
    ∧ (∀ s h t o, objOf s h = some o →
        ((o.typ ≠ tySolenoid ∨ (solOf o).phase = 0 ∨ bit (solOf o).latch 0 = true) → exec (.solTripCurrent h t) s = .next s)
        ∧ (o.typ = tySolenoid → (solOf o).phase ≠ 0 → bit (solOf o).latch 0 = false → exec (.solTripCurrent h t) s = .next (solLatch o 0 true (toInstant t s)))
        ∧ ((o.typ ≠ tySolenoid ∨ (solOf o).gate = false ∨ bit (u8 o.act 3) 0 = false ∨ bit (solOf o).latch 1 = true) → exec (.solOpenTimeout h) s = .next s)
        ∧ (o.typ = tySolenoid → (solOf o).gate = true → bit (u8 o.act 3) 0 = true → bit (solOf o).latch 1 = false → exec (.solOpenTimeout h) s
          = .next (solLatch o 1 (bit (u8 o.act 3) 1) (toInstant ((solOf o).lastOn + u16 o.act 52 * 480000) s))))
    ∧ (∀ s o b f u, u = raise0 0x0A42 (handleOf o) (leBytes 1 (2 ^ b)) (senseReason (handleOf o) 6 (solCut o.idx (windowReason o.idx 6
          (updSol o.idx (fun r => { r with latch := setBit r.latch b true, dead := true, gate := false }) s)))) →
        ((f = false ∨ driverOf u (handleOf o) = none) → solLatch o b f s = u)
        ∧ (∀ x, f = true → driverOf u (handleOf o) = some x → solLatch o b f s
          = class1 (handleOf x) 0x0A43 (leBytes 4 (handleOf o) ++ leBytes 1 (setBit (solOf o).latch b true)) u))
    ∧ (∀ s h t0 cs ls, (objOf s h = none ∨ ∃ o, objOf s h = some o ∧ (solOf o).window = none) → exec (.solSignatureWindowClose h t0 cs ls) s = .next s)
    ∧ (∀ s h t0 cs ls o w lo hi u sig k, objOf s h = some o → (solOf o).window = some w
      → lo = w.edge + (solSpan s o).1 * 480 → hi = w.edge + (solSpan s o).2 * 480 → sig = signatureOf o w.on lo hi t0 cs
      → u = updSol o.idx (fun r => { r with current := shuntAmps 101 o (codeSum ls) (max 1 ls.length), iMax := (
          fMax r.iMax (shuntAmps 102 o (codeMax (cs ++ ls)) 1)) }) (toInstant hi s)
      → k = (if cutShort w.cut sig = true then 1 else if w.reason ≠ 0 then w.reason else if s.pwr.vbatLow.getD 0 false = true then 3
          else if sig = none then 4 else 0) →
        (k ≠ 0 → exec (.solSignatureWindowClose h t0 cs ls) s = .next (solWindowEnd o.idx none k u))
        ∧ (∀ t, k = 0 → sig = some t → exec (.solSignatureWindowClose h t0 cs ls) s = .next (solWindowEnd o.idx (some ((t - w.edge) / 480)) 0 u)))
    ∧ (∀ s i o sig k u, objAt s i = some o → (solOf o).window ≠ none
      → u = updSol i (fun r => { r with window := none, lastReason := k, tSig := sig.getD 0xFFFFFFFF }) s →
        (firstDue u 0x0A01 (handleOf o) (fun a => decide (2 ≤ a)) = none → solWindowEnd i sig k s = u)
        ∧ (∀ x, firstDue u 0x0A01 (handleOf o) (fun a => decide (2 ≤ a)) = some x → solWindowEnd i sig k s
          = completeDeferred x { result := leBytes 4 (sig.getD 0xFFFFFFFF) ++ leBytes 1 k } u))

/-- AXIS_TARGET of an ENABLED axis that nothing drives and that does not home is pending until its GTC, after the pending
target before it ended REPLACED; a driven axis, a homing one and bad bytes are refused. AXIS_STOP waits for rest, by
quick stop or cut, and is refused while DISABLED. AXIS_COMPARE adds one of at most four compares. AXIS_HOME starts
homing with the state machine of the homing table, and is refused without a table, while driven and while homing.
AXIS_SET_POS at rest sets the position and cancels the compares; in motion it is refused. -/
def Obligations.AxisCommands : Prop :=
  (∀ i f s, updAx i f s = { s with objs := s.objs.map fun o => if o.idx = i then { o with rt := .axis (f (axOf o)) } else o })
    ∧ (∀ s d o k bad, passes 0x0B00 d s = true → objOf s (dHandle d) = some o → k = u8 d.bytes 16
      → bad = (4 ≤ k ∨ k = 2 ∧ fFinite (f32 d.bytes 24) = false) →
        (bad → exec (.axisTarget d) s = .next (fail d 0x0004 s))
        ∧ (¬ bad → (isEnabled o = false ∨ axFaulting o = true) → exec (.axisTarget d) s = .next (fail d 0x000E s))
        ∧ (¬ bad → isEnabled o = true → axFaulting o = false →
          (driverOf s (handleOf o) ≠ none → exec (.axisTarget d) s = .next (fail d 0x0B08 s))
          ∧ (driverOf s (handleOf o) = none → (axOf o).homing = true → exec (.axisTarget d) s = .next (fail d 0x0B06 s))
          ∧ (driverOf s (handleOf o) = none → (axOf o).homing = false → exec (.axisTarget d) s
            = .next (defer d 0x0B00 (handleOf o) (u64 d.bytes 32) [] 0 (axDropPending o.idx 0x0B03 s)))))
    ∧ (∀ s i o n, objAt s i = some o →
        (firstDue s 0x0B00 (handleOf o) (· == 0) = none → axDropPending i n s = s)
        ∧ (∀ x, firstDue s 0x0B00 (handleOf o) (· == 0) = some x → axDropPending i n s = completeDeferred x { status := n } s))
    ∧ (∀ s t i o x b tgt, objAt s i = some o → firstDue s 0x0B00 (handleOf o) (· == 0) = some x → b = x.st.desc.bytes
      → tgt = { kind := u8 b 16, dur := u32 b 20, value := if u8 b 16 = 2 then fxF (f32 b 24) else i64 b 24 * axCount } →
        (t < x.due → axHostTarget t i s = s)
        ∧ (x.due ≤ t → (axOf o).homing = true → axHostTarget t i s = completeDeferred x { status := 0x0B06 } s)
        ∧ (x.due ≤ t → (axOf o).homing = false → axBlocked s o.act (axTgtDir (axOf o) tgt) = true → axHostTarget t i s = completeDeferred x { status := 0x0B05 } s)
        ∧ (∀ u, x.due ≤ t → (axOf o).homing = false → axBlocked s o.act (axTgtDir (axOf o) tgt) = false → u = axTakeTarget i tgt true s →
          axHostTarget t i s = { u with hif := { u.hif with deferred := u.hif.deferred.map fun y => if y = x then { y with arg := 1 } else y } }))
    ∧ (∀ s d o u, passes 0x0B01 d s = true → objOf s (dHandle d) = some o → u = axHomeFail o.idx 3 s →
        (2 ≤ u8 d.bytes 16 → exec (.axisStop d) s = .next (fail d 0x0004 s))
        ∧ (u8 d.bytes 16 < 2 → o.ost = .disabled → exec (.axisStop d) s = .next (fail d 0x000E s))
        ∧ (u8 d.bytes 16 = 0 → o.ost ≠ .disabled → exec (.axisStop d) s
          = .next (axStop o.idx false (updAx o.idx (fun r => { r with stopDescs := r.stopDescs ++ [d] }) u)))
        ∧ (u8 d.bytes 16 = 1 → o.ost ≠ .disabled → exec (.axisStop d) s
          = .next (axStop o.idx true (updAx o.idx (fun r => { r with stopDescs := r.stopDescs ++ [d], atRest := 1 }) u))))
    ∧ (∀ s i o n, objAt s i = some o → ((axOf o).homing = false → axHomeFail i n s = s)
        ∧ ((axOf o).homing = true → axHomeFail i n s = raiseE 0x0B42 0 (handleOf o) o.epoch (leBytes 1 n)
          (updAx i (fun r => { r with homing := false, homed := false, homeFail := n }) s)))
    ∧ (∀ s i c, axStop i c s = axSettle i (updAx i (fun r => if c then axHalt (axEnd i 0x0B04 s).gtc r else axQuick r) (axEnd i 0x0B04 s)))
    ∧ (∀ r n, (axQuick r).tgtV = 0 ∧ (axQuick r).mode = 1 ∧ (axQuick r).p = r.p ∧ (axHalt n r).v = 0 ∧ (axHalt n r).a = 0 ∧ (axHalt n r).p = axPosAt r n)
    ∧ (∀ s d o c bad, passes 0x0B02 d s = true → objOf s (dHandle d) = some o → c = u8 d.bytes 17
      → bad = (2 ≤ u8 d.bytes 16 ∨ 2 ≤ u8 d.bytes 18 ∨ c < 112 ∨ 128 ≤ c ∧ c ≠ 255) →
        (bad → exec (.axisCompare d) s = .next (fail d 0x0004 s))
        ∧ (¬ bad → isEnabled o = false → exec (.axisCompare d) s = .next (fail d 0x000E s))
        ∧ (¬ bad → isEnabled o = true → c ≠ 255 → pwmOnChan s c ≠ none → exec (.axisCompare d) s = .next (fail d 0x000D s))
        ∧ (¬ bad → isEnabled o = true → (c = 255 ∨ pwmOnChan s c = none) →
          (4 ≤ (axOf o).compares.length → exec (.axisCompare d) s = .next (fail d 0x0B09 s))
          ∧ ((axOf o).compares.length < 4 → exec (.axisCompare d) s = .next (defer d 0x0B02 (handleOf o) 0 [] 0 (updAx o.idx (fun r => { r with
            compares := r.compares ++ [{ desc := d, value := i64 d.bytes 24, rev := u8 d.bytes 16 == 1, edge := c, level := u8 d.bytes 18 == 1 }] }) s)))))
    ∧ (∀ s d o, passes 0x0B03 d s = true → objOf s (dHandle d) = some o →
        ((tableOf s (u32 o.act 52) = none ∨ isEnabled o = false) → exec (.axisHome d) s = .next (fail d 0x000E s))
        ∧ (∀ b, tableOf s (u32 o.act 52) = some b → isEnabled o = true →
          (driverOf s (handleOf o) ≠ none → exec (.axisHome d) s = .next (fail d 0x0B08 s))
          ∧ (driverOf s (handleOf o) = none → (axOf o).homing = true → exec (.axisHome d) s = .next (fail d 0x0B06 s))
          ∧ (driverOf s (handleOf o) = none → (axOf o).homing = false → ∃ u,
            exec (.axisHome d) s = .next (defer d 0x0B03 (handleOf o) 0 [] 0 u) ∧ u = { s with objs := u.objs }
            ∧ (objAt s o.idx = some o → ∃ x m, objAt u o.idx = some x ∧ (axOf x).homing = true ∧ (axOf x).limits = 0 ∧ x.sms = [m]
              ∧ m.state = u8 b 16 ∧ m.off = 52 ∧ (∀ n, o.sms.find? (fun n => n.off == 52) = some n → m.vars = n.vars) ∧ (axOf x).p = (axOf o).p))))
    ∧ (∀ s d o, passes 0x0B04 d s = true → objOf s (dHandle d) = some o →
        ((axOf o).v = 0 → (axOf o).busy = false → (axOf o).homing = false → exec (.axisSetPos d) s = .next (ok d (axCancel o.idx (updAx o.idx (fun r => { r with
            p := i64 d.bytes 24 * axCount, p0 := i64 d.bytes 24 * axCount, v0 := 0, tgtP := i64 d.bytes 24 * axCount }) s))))
        ∧ (((axOf o).v ≠ 0 ∨ (axOf o).busy = true ∨ (axOf o).homing = true) → exec (.axisSetPos d) s = .next (fail d 0x000E s)))
    ∧ (∀ s i o, objAt s i = some o → axCancel i s = (s.hif.deferred.filter fun x => x.op == 0x0B02 && x.handle == handleOf o).foldl
        (fun s x => completeDeferred x { status := 0x0604 } s) (updAx i (fun r => { r with compares := [] }) s))

/-- The generators move on at the next multiple of 1,200 TCLK, every axis once. An armed compare that is reached within
the interval completes with its tick and drives its edge channel. A step input edge moves the target of the ENABLED
axes that follow it; without an edge for stepin_to the velocity estimate is 0. idle_ms of standstill brings the
standstill option; en_setup after en_gpio motion may start. More than chat_k transitions in the window stop the axis
with a fault; a limit input asserted against the direction of motion raises its event without a stop. A following
error that persists for fe_time faults the axis. -/
def Obligations.AxisHappenings : Prop :=
  (∀ s t, t = (s.gtc / 1200 + 1) * 1200 → exec .generatorUpdate s
        = .next ((objsOf s tyAxis).foldl (fun s o => axUpdate t o.idx s) (toInstant t s)))
    ∧ (∀ s, (∀ o ∈ s.objs, o.typ ≠ tyAxis) → exec .generatorUpdate s = .next (toInstant ((s.gtc / 1200 + 1) * 1200) s))
    ∧ (∀ s o, objsOf s tyAxis = [o] → exec .generatorUpdate s = .next (axUpdate ((s.gtc / 1200 + 1) * 1200) o.idx (toInstant ((s.gtc / 1200 + 1) * 1200) s)))
    ∧ (∀ s h, (objOf s h = none ∨ ∃ o, objOf s h = some o ∧ ∀ c ∈ (axOf o).compares, c.armed = false) → exec (.axisCompareFire h) s = .next s)
    ∧ (∀ s h o c, objOf s h = some o → (axOf o).compares = [c] → c.armed = true →
        (∀ t, axFirstTick (axOf o) (fun p => decide (0 ≤ (p - c.value * axCount) * c.dir)) = some t →
          exec (.axisCompareFire h) s = .next (axCompareEnd o c 0 t 0 (driveEch c.edge c.level (toInstant t s))))
        ∧ (axFirstTick (axOf o) (fun p => decide (0 ≤ (p - c.value * axCount) * c.dir)) = none → exec (.axisCompareFire h) s = .next s))
    ∧ (∀ r q t, axFirstTick r q = some t → r.t0 ≤ t ∧ t ≤ r.t0 + 1200 ∧ q (axPosAt r t) = true ∧ ∀ u, r.t0 ≤ u → u < t → q (axPosAt r u) = false)
    ∧ (∀ s o c k t n u, u = updAx o.idx (fun r => { r with compares := r.compares.erase c }) s →
        (s.hif.deferred.find? (fun x => x.op == 0x0B02 && x.handle == handleOf o && decide (x.st.desc = c.desc)) = none → axCompareEnd o c k t n s = u)
        ∧ (∀ x, s.hif.deferred.find? (fun x => x.op == 0x0B02 && x.handle == handleOf o && decide (x.st.desc = c.desc)) = some x →
          axCompareEnd o c k t n s = completeDeferred x { status := k, gtc := some t, result := fBytes (fxToF 66 (axFx n)) } u))
    ∧ (∀ s c lv, (s.isl.estopLatch = false → safeForced s = false → 112 ≤ c → c < 128 → driveEch c lv s = { s with pg := { s.pg with ech := s.pg.ech.set (c - 112) lv } })
        ∧ ((s.isl.estopLatch = true ∨ safeForced s = true ∨ c < 112 ∨ 128 ≤ c) → driveEch c lv s = s))
    ∧ (∀ s n t, (∀ o ∈ s.objs, o.typ ≠ tyAxis ∨ isEnabled o = false ∨ (axOf o).mode ≠ 2 ∨ u8 o.act 101 ≠ n) → exec (.stepinEdge n t) s = .next (toInstant t s))
    ∧ (∀ s n t o k e, objsOf s tyAxis = [o] → isEnabled o = true → (axOf o).mode = 2 → u8 o.act 101 = n
      → k = (if u8 o.act 102 ≠ 255 ∧ s.pg.gpio.getD (u8 o.act 102) false = true then -(u8 o.act 103 : Int) else u8 o.act 103)
      → e = (fun (r : AxRt) => match r.stepLast with
          | none => 0
          | some l => if t - l ≤ u16 o.act 110 * 480000 ∧ l < t then k * 2 ^ 96 * 480000000 / ((t - l : Nat) : Int) else 0) →
        exec (.stepinEdge n t) s = .next (axWake o.idx (updAx o.idx (fun r => { r with
          tgtP := r.tgtP + k * axCount, vEst := e r, stepLast := some t }) (toInstant t s))))
    ∧ (∀ s i o, objAt s i = some o → (axOf o).optIn = false → axWake i s = s)
    ∧ (∀ s h, objOf s h = none → exec (.stepinTimeout h) s = .next s ∧ exec (.axisIdleTimeout h) s = .next s ∧ exec (.axisEnableSetupEnd h) s = .next s
        ∧ exec (.axisFeTimeout h) s = .next s ∧ ∀ g, exec (.limitChatter h g) s = .next s)
    ∧ (∀ s h o, objOf s h = some o →
        (∀ l, (axOf o).stepLast = some l → exec (.stepinTimeout h) s
          = .next (updAx o.idx (fun r => { r with vEst := 0, stepLast := none }) (toInstant (l + u16 o.act 110 * 480000) s)))
        ∧ ((axOf o).stepLast = none → exec (.stepinTimeout h) s = .next s)
        ∧ (∀ t, (axOf o).stillAt = some t → isEnabled o = true → (axOf o).optIn = false → exec (.axisIdleTimeout h) s
          = .next (axOption o.idx (u8 o.act 23) (toInstant (t + u16 o.act 28 * 480000) s)))
        ∧ (((axOf o).stillAt = none ∨ isEnabled o = false ∨ (axOf o).optIn = true) → exec (.axisIdleTimeout h) s = .next s)
        ∧ ((axOf o).wait = 1 → exec (.axisEnableSetupEnd h) s
          = .next (updAx o.idx (fun r => { r with wait := 0 }) (toInstant ((axOf o).enAt + u16 o.act 30 * 480) s)))
        ∧ ((axOf o).wait ≠ 1 → exec (.axisEnableSetupEnd h) s = .next s)
        ∧ (∀ t, (axOf o).feSince = some t → exec (.axisFeTimeout h) s = .next (class1 h 0x0B44 (fBytes (axOf o).feDiff)
          (updAx o.idx (fun r => { r with feSince := none }) (toInstant (t + u32 o.act 68 * 480) s))))
        ∧ ((axOf o).feSince = none → exec (.axisFeTimeout h) s = .next s))
    ∧ (∀ s i o n u, objAt s i = some o → u = updAx i (fun r => { r with optIn := true, opt := n, en := if n = 2 ∧ axKind o.act = 0 then false else r.en }) s →
        ((n ≠ 2 ∨ axKind o.act ≠ 1) → axOption i n s = u)
        ∧ (n = 2 → axKind o.act = 1 → axOption i n s = (axPairs o.act).foldl (fun s h => gateClose h s) u))
    ∧ (∀ s h o g n, objOf s h = some o → n = axTransitions o.act (axOf o) g s.gtc →
        (o.typ = tyAxis → isEnabled o = true → u8 o.act 49 < n → exec (.limitChatter h g) s = .next (class1 h 0x0B41 (leBytes 1 g ++ [0, 0, 0] ++ leBytes 4 n)
          (updAx o.idx (fun r => { r with chatter := true, trans := [] }) s)))
        ∧ ((o.typ ≠ tyAxis ∨ isEnabled o = false ∨ n ≤ u8 o.act 49) → exec (.limitChatter h g) s = .next s))
    ∧ (∀ s g lv, exec (.axisLimitAssert g lv) s = .next (gpioEdge g lv s.gtc s) ∧ exec (.homeInputEdge g lv) s = .next (gpioEdge g lv s.gtc s))
    ∧ (∀ s g lv t, gpioLevel s g = lv → gpioEdge g lv t s = s)
    ∧ (∀ s g lv, g < 48 → s.pg.gpio.length = 48 → gpioLevel s g ≠ lv → s.objs = [] → (∀ x ∈ s.pg.groups, x.comm = none) → ∃ t u,
        exec (.axisLimitAssert g lv) s = .next t ∧ exec (.homeInputEdge g lv) s = .next u ∧ gpioLevel t g = lv ∧ gpioLevel u g = lv
        ∧ (∀ k, k ≠ g → gpioLevel t k = gpioLevel s k))
    ∧ (∀ s o pos side dir, side = (if pos then 0 else 1) → dir = (if (axOf o).v ≠ 0 then sgn (axOf o).v
          else if (axOf o).busy then sgn (axCommand o.act (axOf o) (axFx ((axOf o).tgtP - (axOf o).p))) else 0) →
        ((axOf o).homing = false → dir = (if pos then 1 else -1) → axLimitOn pos o s = raiseE 0x0B40 0 (handleOf o) o.epoch [side, 1] (axStop o.idx false
          (updAx o.idx (fun r => { r with limStop := true, limitStops := satInc 32 r.limitStops }) s)))
        ∧ ((axOf o).homing = false → dir ≠ (if pos then 1 else -1) → axLimitOn pos o s = raiseE 0x0B40 0 (handleOf o) o.epoch [side, 0] s)
        ∧ ((axOf o).homing = true → ∀ u, u = axEvent o (if pos then 0x0B60 else 0x0B61) (updAx o.idx (fun r => { r with limits := r.limits + 1 }) s) →
          axLimitOn pos o s = (if 1 ≤ (axOf o).limits then axStop o.idx false (axHomeFail o.idx 1 u) else u)))

/-- FB_SET_POS of a counting kind is kept for the next boundary; a serial or analog one is refused. FB_CLEAR ends a fault
whose condition has ended, and refuses one that lasts. FB_FILTER_SET sets the filter of an unclaimed input.
FB_ENCO_CONFIG is kept for the boundary. An edge seen on as many samples as its filter asks acts on its input’s
readers: one of A counts one up while A then differs from B, else one down; both at once count a quadrature error; an
input at its level has no edge. A serial read starts at its boundary; its first good value sets the position. A sample
is kept with the time outside the range, which after 10 ms is a fault. An encoder output steps by one towards its
target, its spacing kept. -/
def Obligations.FeedbackInputs : Prop :=
  (∀ i f s, updFb i f s = { s with objs := s.objs.map fun o => if o.idx = i then { o with rt := .fb (f (fbOf o)) } else o })
    ∧ (∀ s d o k, passes 0x0C00 d s = true → objOf s (dHandle d) = some o → k = fbKind o.params →
        (k ≠ 1 → k ≠ 4 → exec (.fbSetPos d) s = .next (ok d (updFb o.idx (fun r => { r with setPos := some (i64 d.bytes 24) }) s)))
        ∧ ((k = 1 ∨ k = 4) → exec (.fbSetPos d) s = .next (fail d 0x0C02 s)))
    ∧ (∀ s d o r, passes 0x0C01 d s = true → objOf s (dHandle d) = some o → r = fbOf o →
        (r.fault = false → exec (.fbClear d) s = .next (ok d s))
        ∧ (r.fault = true → (r.reason = 5 ∧ r.rangeSince ≠ none ∨ r.reason = 4 ∧ ∃ t ∈ r.glitchAt, s.gtc < t + 480000000) →
          exec (.fbClear d) s = .next (fail d 0x0C01 s))
        ∧ (r.fault = true → (r.reason = 5 → r.rangeSince = none) → (r.reason = 4 → ∀ t ∈ r.glitchAt, t + 480000000 ≤ s.gtc) → exec (.fbClear d) s
          = .next (ok d (raise0 0x0C43 (handleOf o) [] (updFb o.idx (fun r => { r with fault := false, reason := 0, badRun := 0, idxMiss := 0, qerrAt := [] }) s)))))
    ∧ (∀ s d c n k bad, passes 0x0C02 d s = true → c = u8 d.bytes 16 → n = u8 d.bytes 17 → k = u8 d.bytes 18
      → bad = (3 < c ∨ k = 0 ∨ c = 0 ∧ 48 ≤ n ∨ c = 2 ∧ 16 ≤ n ∨ (c = 1 ∨ c = 3) ∧ 8 ≤ n) →
        (bad → exec (.fbFilterSet d) s = .next (fail d 0x0004 s))
        ∧ (¬ bad → inputClaimed s c n = true → exec (.fbFilterSet d) s = .next (fail d 0x000D s))
        ∧ (¬ bad → inputClaimed s c n = false →
          (c = 0 → exec (.fbFilterSet d) s = .next (ok d { s with fbd := { s.fbd with filtGpio := s.fbd.filtGpio.set n k } }))
          ∧ (c = 1 → exec (.fbFilterSet d) s = .next (ok d { s with fbd := { s.fbd with filtStepin := s.fbd.filtStepin.set n k } }))
          ∧ (c = 2 → exec (.fbFilterSet d) s = .next (ok d { s with fbd := { s.fbd with filtEnc := s.fbd.filtEnc.set n k } }))
          ∧ (c = 3 → exec (.fbFilterSet d) s = .next (ok d { s with fbd := { s.fbd with filtPulse := s.fbd.filtPulse.set n k } }))))
    ∧ (∀ s d b m bad, passes 0x0C03 d s = true → b = d.bytes → m = u8 b 17
      → bad = (1 < u8 b 16 ∨ 2 < m ∨ 15 < u8 b 18 ∨ 3 < u8 b 19 ∨ m = 2 ∧ (u16 b 24 = 0 ∨ u16 b 26 < 24 ∨ 4800 < u16 b 26
          ∨ fFinite (f32 b 28) = false ∨ fMag (f32 b 28) = 0)) →
        (bad → exec (.fbEncoConfig d) s = .next (fail d 0x0004 s))
        ∧ (¬ bad → m = 2 → objOf s (u32 b 20) = none → exec (.fbEncoConfig d) s = .next (fail d 0x0002 s))
        ∧ (∀ o, ¬ bad → m = 2 → objOf s (u32 b 20) = some o → o.typ ≠ tyFeedback → o.typ ≠ tyAxis → exec (.fbEncoConfig d) s = .next (fail d 0x0003 s))
        ∧ (¬ bad → (m = 2 → ∃ o, objOf s (u32 b 20) = some o ∧ (o.typ = tyFeedback ∨ o.typ = tyAxis)) → exec (.fbEncoConfig d) s = .next (ok d { s with
          fbd := { s.fbd with enco := s.fbd.enco.modify (u8 b 16) fun e => { e with next := some (slice b 16 16) } } })))
    ∧ (∀ s i lv t n, n < inpFilter s i → exec (.filteredEdge i lv t n) s = .next s)
    ∧ (∀ s k lv t n u, u = toInstant t s →
        (inpFilter s (.gpio k) ≤ n → exec (.filteredEdge (.gpio k) lv t n) s = .next (gpioEdge k lv t u))
        ∧ (inpFilter s (.stepin k) ≤ n → s.fbd.stepin.getD k false = lv → exec (.filteredEdge (.stepin k) lv t n) s = .next u)
        ∧ (inpFilter s (.stepin k) ≤ n → s.fbd.stepin.getD k false ≠ lv → lv = false →
          exec (.filteredEdge (.stepin k) lv t n) s = .next { u with fbd := { u.fbd with stepin := u.fbd.stepin.set k false } })
        ∧ (inpFilter s (.stepin k) ≤ n → s.fbd.stepin.getD k false ≠ lv → lv = true →
          exec (.filteredEdge (.stepin k) lv t n) s = .next (stepinEdge k t { u with fbd := { u.fbd with stepin := u.fbd.stepin.set k true } }))
        ∧ (inpFilter s (.pulse k) ≤ n → s.fbd.pulse.getD k false = lv → exec (.filteredEdge (.pulse k) lv t n) s = .next u)
        ∧ (inpFilter s (.pulse k) ≤ n → s.fbd.pulse.getD k false ≠ lv →
          exec (.filteredEdge (.pulse k) lv t n) s = .next (pulseEdge 2 k lv t { u with fbd := { u.fbd with pulse := u.fbd.pulse.set k lv } }))
        ∧ (inpFilter s (.encA k) ≤ n → s.fbd.encA.getD k false = lv → exec (.filteredEdge (.encA k) lv t n) s = .next u)
        ∧ (inpFilter s (.encA k) ≤ n → s.fbd.encA.getD k false ≠ lv →
          exec (.filteredEdge (.encA k) lv t n) s = .next (encoPass (quadEdge k true false t { u with fbd := { u.fbd with encA := u.fbd.encA.set k lv } })))
        ∧ (inpFilter s (.encB k) ≤ n → s.fbd.encB.getD k false = lv → exec (.filteredEdge (.encB k) lv t n) s = .next u)
        ∧ (inpFilter s (.encB k) ≤ n → s.fbd.encB.getD k false ≠ lv →
          exec (.filteredEdge (.encB k) lv t n) s = .next (encoPass (quadEdge k false false t { u with fbd := { u.fbd with encB := u.fbd.encB.set k lv } })))
        ∧ (inpFilter s (.encAB k) ≤ n → exec (.filteredEdge (.encAB k) lv t n) s = .next (encoPass (quadEdge k true true t { u with fbd := { u.fbd with
          encA := u.fbd.encA.set k (!u.fbd.encA.getD k false), encB := u.fbd.encB.set k (!u.fbd.encB.getD k false) } })))
        ∧ (inpFilter s (.encZ k) ≤ n → s.fbd.encZ.getD k false = lv → exec (.filteredEdge (.encZ k) lv t n) s = .next u)
        ∧ (inpFilter s (.encZ k) ≤ n → s.fbd.encZ.getD k false ≠ lv →
          exec (.filteredEdge (.encZ k) lv t n) s = .next (encoPass (indexEdge k lv { u with fbd := { u.fbd with encZ := u.fbd.encZ.set k lv } }))))
    ∧ (∀ s n t lv m o f, s.objs = [o] → o.typ = tyFeedback → isEnabled o = true → fbKind o.act = 0 → fbInput o.act = n → n < s.fbd.encA.length
      → s.fbd.encA.getD n false ≠ lv → bit (fbFlags o) 0 = false → (∀ e ∈ s.fbd.enco, e.mode ≠ 1) → inpFilter s (.encA n) ≤ m →
      f = (fun (up : Bool) => { o with rt := .fb (fbStep (u8 o.act 9) up t (fbOf o)) }) →
        exec (.filteredEdge (.encA n) lv t m) s = .next { toInstant t s with
          fbd := { s.fbd with encA := s.fbd.encA.set n lv }, objs := [f (lv != s.fbd.encB.getD n false)] })
    ∧ (∀ s n t o r, encFbs s n = [o] → r = fbOf o → ∀ u w, u = updFb o.idx (fun r => { r with qerr := satInc 32 r.qerr, qerrAt := w }) s
      → w = t :: (r.qerrAt.filter fun x => decide (t < x + 48000000)) → ∀ v, v = raiseLimited 480000000 0x0C45 0 (handleOf o) 0 0 [] 4 4 u → ∀ a,
        (w.length ≤ u8 o.act 10 → quadEdge n a true t s = v) ∧ (u8 o.act 10 < w.length → quadEdge n a true t s = fbFault o.idx 2 0 v))
    ∧ (∀ s i o k m, objAt s i = some o →
        ((fbOf o).fault = true → (fbOf o).reason = k → fbFault i k m s = s)
        ∧ (((fbOf o).fault = false ∨ (fbOf o).reason ≠ k) → ∀ u, u = raise0 0x0C42 (handleOf o) (leBytes 1 k ++ leBytes 1 m)
            (updFb i (fun r => { r with fault := true, reason := k }) s) →
          fbFault i k m s = (if (fbOf o).fault then u else fbReaders (handleOf o) k u)))
    ∧ (∀ h up t r, (fbStep h up t r).pos = r.pos + (if up then 1 else -1) ∧ (fbStep h up t r).tEdge = t
        ∧ (up = !r.rev → (fbStep h up t r).rev = r.rev ∧ (fbStep h up t r).opp = 0)
        ∧ (up = r.rev → r.opp < h → (fbStep h up t r).rev = r.rev ∧ (fbStep h up t r).opp = r.opp + 1)
        ∧ (up = r.rev → h ≤ r.opp → (fbStep h up t r).rev = !r.rev ∧ (fbStep h up t r).opp = 0))
    ∧ (∀ s p, serialFb s p = none → exec (.serialReadStart p) s = .next s ∧ ∀ l bs, exec (.serialFrameDone p l bs) s = .next s)
    ∧ (∀ s p o, serialFb s p = some o →
        (frameNo s.gtc % max 1 (u8 o.act 32) = 0 → exec (.serialReadStart p) s
          = .next (updFb o.idx (fun r => { r with reading := some (s.gtc / 48000 * 48000) }) s))
        ∧ (frameNo s.gtc % max 1 (u8 o.act 32) ≠ 0 → exec (.serialReadStart p) s = .next s)
        ∧ (∀ l bs, (fbOf o).reading = none → exec (.serialFrameDone p l bs) s = .next s)
        ∧ (∀ t l bs x u v, (fbOf o).reading = some t → x = serialRead o.act l bs → u = updFb o.idx (fun r => { r with reading := none }) s
          → v = (if x.2 = true then raiseLimited 480000000 0x0C44 0 (handleOf o) 0 0 [] 0 0 u else u) →
          (∀ y, x.1.1 = some y → exec (.serialFrameDone p l bs) s = .next (serialGood o y t v))
          ∧ (x.1.1 = none → exec (.serialFrameDone p l bs) s = .next (serialBad o x.1.2 v))))
    ∧ (∀ s o y t r n d put, r = fbOf o → n = u8 o.act 27 → put = (fun (q : Int) => updFb o.idx (fun r => { r with
          pos := q, raw := some y, badRun := 0, period := if r.raw.isNone then 0 else t - r.tEdge, tEdge := t
          reads := (t, q) :: (r.reads.filter fun x => decide (t ≤ x.1 + u32 o.act 12 * 480)) }) s) →
        (r.raw = none → serialGood o y t s = put y)
        ∧ (∀ x, r.raw = some x → d = sx n (ux n ((y : Int) - x)) →
          ((if u32 o.act 40 = 0 then 2 ^ (n - 2) else u32 o.act 40) < d.natAbs → serialGood o y t s = serialBad o 5 s)
          ∧ (d.natAbs ≤ (if u32 o.act 40 = 0 then 2 ^ (n - 2) else u32 o.act 40) → serialGood o y t s = put (r.pos + d))))
    ∧ (∀ s o m n u, n = (fbOf o).badRun + 1 → u = updFb o.idx (fun r => { r with badFrames := satInc 32 r.badFrames, badRun := n, sub := m }) s →
        (n < u8 o.act 11 → serialBad o m s = u) ∧ (u8 o.act 11 ≤ n → serialBad o m s = fbFault o.idx 3 m u))
    ∧ (∀ s n t c u keep, u = toInstant t s → keep = (fun (o : Obj) => u32 o.act 12 * 480 + (u16 o.act 60 + 1) * 24000) → exec (.ainSample n t c) s
        = .next (((objsOf s tyFeedback).filter fun o => isEnabled o && fbKind o.act == 4 && fbInput o.act == n).foldl (fun s o => updFb o.idx (fun r => { r with
            samples := (t, c % 4096) :: ((fbOf o).samples.filter fun x => decide (t ≤ x.1 + keep o)), tEdge := t
            rangeSince := if ainInRange o.act ((t, c % 4096) :: ((fbOf o).samples.filter fun x => decide (t ≤ x.1 + keep o))) = true then none
              else some (r.rangeSince.getD t) }) s) { u with fbd := { u.fbd with ain := u.fbd.ain.set n (c % 4096) } }))
    ∧ (∀ s n t c o, s.objs = [o] → o.typ = tyFeedback → isEnabled o = true → fbKind o.act = 4 → fbInput o.act = n → ∃ u r, exec (.ainSample n t c) s = .next u
        ∧ objAt u o.idx = some { o with rt := .fb r } ∧ r.samples.head? = some (t, c % 4096) ∧ r.tEdge = t
        ∧ r.rangeSince = (if ainInRange o.act r.samples then none else some ((fbOf o).rangeSince.getD t)))
    ∧ (∀ s h, (objOf s h = none ∨ ∃ o, objOf s h = some o ∧ ((fbOf o).rangeSince = none ∨ isEnabled o = false)) → exec (.ainRangeTimeout h) s = .next s)
    ∧ (∀ s h o t, objOf s h = some o → (fbOf o).rangeSince = some t → isEnabled o = true →
        exec (.ainRangeTimeout h) s = .next (fbFault o.idx 5 0 (toInstant (t + 4800000) s)))
    ∧ (∀ s j, s.fbd.enco[j]? = none → exec (.encoSynthStep j) s = .next s)
    ∧ (∀ s j e d, s.fbd.enco[j]? = some e → d = encoTarget s e - e.count →
        ((e.mode ≠ 2 ∨ d = 0) → exec (.encoSynthStep j) s = .next s)
        ∧ (e.mode = 2 → d ≠ 0 → ∃ t f, exec (.encoSynthStep j) s = .next t ∧ t.fbd.enco[j]? = some f ∧ f.count = e.count + (if 0 < d then 1 else -1)
          ∧ f.src = e.src ∧ t.objs = s.objs ∧ t.gtc = (toInstant (e.stepAt + e.minEdge) s).gtc))
    ∧ (∀ s e, (objOf s e.src = none → encoTarget s e = e.count)
        ∧ (objOf s e.src ≠ none → encoTarget s e = fxNear (fxMul (fxF e.scale) (encoPos s e.src - e.base))))

/-- CAN_SEND, with its frame inline or in a block, queues it in the named buffer, in some free buffer for 0xFF, or
replaces the data of a periodic buffer, and is pending; a buffer still pending, none free or a bad frame is refused.
CAN_READ is pending with its time limit, one per FIFO; it ends when the FIFO holds the least number or the time is
out, and writes the oldest frames that fit. CAN_FILTER_SET keeps a good list for the boundary and refuses the first
bad element. CAN_TX_CONFIG sets the periodic buffer with its first period, or ends it. CAN_TX_RELEASE queues a
suspended buffer again; a periodic one goes on at its next instant. CAN_SIGNAL_WRITE sets the signals. CAN_WAKE_CONFIG
keeps its bytes and CAN_INH_OFF lowers INH and the transceiver to low power. Which free buffer 0xFF takes is open (log
7). -/
def Obligations.CanCommands : Prop :=
  (∀ i f s, updCan i f s = { s with objs := s.objs.map fun o => if o.idx = i then { o with rt := .can (f (canOf o)) } else o })
    ∧ (∀ i b f s, updTx i b f s = updCan i (fun r => { r with tx := r.tx.modify b f }) s)
    ∧ (∀ s d b fl n, dPtr d = false → b = d.bytes → fl = u8 b 17 → n = u8 b 18 → sendFrame d s = (u8 b 16,
        { id := u32 b 20 % 2 ^ 30 + if bit fl 0 then 2 ^ 30 else 0, eflags := bits fl 1 2, data := slice b 24 n }, bit fl 3, decide (fl < 16 ∧ n ≤ 20 ∧ u32 b 20 < 2 ^ 30)))
    ∧ (∀ s d b, dPtr d = true → b = blockOf s d → sendFrame d s = (u8 b 6, { id := u32 b 0, eflags := u8 b 4, data := slice b 16 (u8 b 5) }, false,
        decide (u8 b 4 < 16 ∧ u8 b 5 ≤ 64) && u8 b 7 == 0))
    ∧ (∀ s d o b f g w bad put, passes 0x0D00 d s = true → objOf s (dHandle d) = some o → sendFrame d s = (b, f, g, w) →
        bad = (w = false ∨ 24 ≤ b ∧ b ≠ 255 ∨ idOk f.id = false ∨ lengthOk (frFd f) f.data.length = false ∨ frFd f = true ∧ (canFd o = false ∨ frRemote f = true)) →
        put = (fun (k : Nat) (u : State) => updTx o.idx k (fun t => { t with pend := true, since := u.gtc })
          (updTx o.idx k (fun t => { t with frame := some f, single := g }) (defer d 0x0D00 (dHandle d) 0 [] k u))) →
        (bad → exec (.canSend d) s = .next (fail d stBadParam s))
        ∧ (¬ bad → b < 24 → (txOf o b).cfg = none → (txOf o b).pend = false → exec (.canSend d) s = .next (put b s))
        ∧ (¬ bad → b < 24 → (txOf o b).cfg = none → (txOf o b).pend = true → exec (.canSend d) s = .next (fail d 0x0D04 s))
        ∧ (∀ c, ¬ bad → b < 24 → (txOf o b).cfg = some c → exec (.canSend d) s = .next (defer d 0x0D00 (dHandle d) 0 [] b (updTx o.idx b (fun t => { t with
            frame := some { id := u32 c 4 % 2 ^ 30 + (if bit (u8 c 1) 0 then 2 ^ 30 else 0), eflags := bits (u8 c 1) 1 2, data := padTo (u8 c 2) f.data } }) s)))
        ∧ (¬ bad → b = 255 → (∀ k, k < 24 → (txOf o k).pend = true ∨ (txOf o k).cfg ≠ none) → exec (.canSend d) s = .next (fail d stNoResource s))
        ∧ (¬ bad → b = 255 → (∃ k, k < 24 ∧ (txOf o k).pend = false ∧ (txOf o k).cfg = none) →
          ∃ k, k < 24 ∧ (txOf o k).pend = false ∧ (txOf o k).cfg = none ∧ exec (.canSend d) s = .next (put k (takeFree s).2)))
    ∧ (∀ s d o q n ms bad, passes 0x0D01 d s = true → objOf s (dHandle d) = some o → q = u8 d.bytes 32 → n = u8 d.bytes 33 → ms = u16 d.bytes 34 →
        bad = (1 < q ∨ n = 0 ∨ 64 < n) →
        (bad → exec (.canRead d) s = .next (fail d stBadParam s))
        ∧ (¬ bad → readOf s (dHandle d) q ≠ none → exec (.canRead d) s = .next (fail d stBusy s))
        ∧ (¬ bad → readOf s (dHandle d) q = none → ms ≠ 0 → exec (.canRead d) s = .next (defer d 0x0D01 (dHandle d) (s.gtc + ms * 480000) [] q s))
        ∧ (¬ bad → readOf s (dHandle d) q = none → ms = 0 → exec (.canRead d) s = .next (defer d 0x0D01 (dHandle d) 0 [] q s)))
    ∧ (∀ s h q, (readOf s h q = none ∨ objOf s h = none) → exec (.canReadDone h q) s = .next s)
    ∧ (∀ s h q x o l, readOf s h q = some x → objOf s h = some o → l = (if q = 0 then (canOf o).rx0 else (canOf o).rx1) →
        (u8 x.st.desc.bytes 33 ≤ l.length → exec (.canReadDone h q) s = .next (readEnd x s))
        ∧ (l.length < u8 x.st.desc.bytes 33 → x.due = 0 → exec (.canReadDone h q) s = .next s)
        ∧ (l.length < u8 x.st.desc.bytes 33 → x.due ≠ 0 → exec (.canReadDone h q) s = .next (readEnd x (toInstant x.due s))))
    ∧ (∀ s x o l n u bs, objOf s x.handle = some o → l = (if x.arg = 0 then (canOf o).rx0 else (canOf o).rx1) → n = min l.length (dBlockLen x.st.desc / 80) →
        u = updCan o.idx (fun r => if x.arg = 0 then { r with rx0 := l.drop n } else { r with rx1 := l.drop n }) s →
        bs = ((l.take n).flatMap fun e => elementBytes e.frame e.filter e.gtc) →
        (∀ v, ptrWrite (dBlockPtr x.st.desc) bs u = some v → readEnd x s
          = completeDeferred x { result := leBytes 2 n ++ leBytes 2 (l.length - n), writeback := true } v)
        ∧ (ptrWrite (dBlockPtr x.st.desc) bs u = none → readEnd x s
          = completeDeferred x { status := stDmaError } (raise0 0x0083 0 ([0xFF, 0, 0, 0] ++ leBytes 4 (dBlockPtr x.st.desc % 65536)) u)))
    ∧ (∀ s d o b, passes 0x0D02 d s = true → objOf s (dHandle d) = some o → b = blockOf s d →
        ((∀ k, k < b.length / 16 → filterBad s b k = none) → exec (.canFilterSet d) s = .next (ok d (updCan o.idx (fun r => { r with filtNext := some b }) s)))
        ∧ (∀ k e, k < b.length / 16 → filterBad s b k = some e → (∀ j, j < k → filterBad s b j = none) →
          exec (.canFilterSet d) s = .next (failWith d e.status e.result s)))
    ∧ (∀ s d o c bad tab, passes 0x0D03 d s = true → objOf s (dHandle d) = some o → c = slice d.bytes 16 28 →
        bad = (24 ≤ u8 c 0 ∨ 32 ≤ u8 c 1 ∨ u32 c 8 < 1000 ∨ 60000000 < u32 c 8 ∨ 2 ^ 30 ≤ u32 c 4 ∨ idOk (u32 c 4 + if bit (u8 c 1) 0 then 2 ^ 30 else 0) = false
          ∨ lengthOk (bit (u8 c 1) 1) (u8 c 2) = false ∨ bit (u8 c 1) 1 = true ∧ canFd o = false) →
        tab = ((bit (u8 c 1) 3 = true ∨ u32 c 12 ≠ 0) ∧ sigTableOk s (u32 c 12) = false) →
        (bad → exec (.canTxConfig d) s = .next (fail d stBadParam s))
        ∧ (¬ bad → tab → exec (.canTxConfig d) s = .next (failWith d 0x0308 (leBytes 2 28) s))
        ∧ (¬ bad → ¬ tab → bit (u8 c 1) 4 = true → exec (.canTxConfig d) s = .next (ok d (updTx o.idx (u8 c 0) (fun t => { t with
            cfg := some c, nextAt := firstPeriod (nextBoundary s.gtc) (i64 c 16) (u32 c 8 * 480) }) s)))
        ∧ (¬ bad → ¬ tab → bit (u8 c 1) 4 = false → exec (.canTxConfig d) s = .next (ok d (updTx o.idx (u8 c 0) (fun t => { t with cfg := none }) s))))
    ∧ (∀ s d o b, passes 0x0D04 d s = true → objOf s (dHandle d) = some o → b = u8 d.bytes 16 →
        (24 ≤ b → exec (.canTxRelease d) s = .next (fail d stBadParam s))
        ∧ (b < 24 → (txOf o b).susp = false → exec (.canTxRelease d) s = .next (fail d stState s))
        ∧ (b < 24 → (txOf o b).susp = true → exec (.canTxRelease d) s = .next (updTx o.idx b (fun t => { t with pend := true, since := s.gtc })
          (updTx o.idx b (fun t => txRealign s.gtc { t with susp := false, coll := 0 }) (defer d 0x0D04 (dHandle d) 0 [] b s)))))
    ∧ (∀ s d o a n bad, passes 0x0D05 d s = true → objOf s (dHandle d) = some o → a = u8 d.bytes 16 → n = u8 d.bytes 17 → bad = (n = 0 ∨ 6 < n ∨ 64 < a + n) →
        (bad → exec (.canSignalWrite d) s = .next (fail d stBadParam s))
        ∧ (¬ bad → exec (.canSignalWrite d) s = .next (ok d (updCan o.idx (fun r => { r with
            sig := (List.range n).foldl (fun g k => g.set (a + k) (f32 d.bytes (20 + 4 * k))) r.sig }) s))))
    ∧ (∀ s d b bad, passes 0x0D06 d s = true → b = d.bytes → bad = (2 < u8 b 16 ∨ 3 < u8 b 17 ∨ 8 < u8 b 18 ∨ u8 b 19 % 2 = 1 ∨ 16 ≤ u8 b 19 ∨ idOk (u32 b 20) = false) →
        (bad → exec (.canWakeConfig d) s = .next (fail d stBadParam s))
        ∧ (¬ bad → exec (.canWakeConfig d) s = .next (ok d { s with cand := { s.cand with wake := slice b 16 28 } })))
    ∧ (∀ s d, passes 0x0D07 d s = true → exec (.canInhOff d) s = .next (ok d { s with cand := { s.cand with inh := false, lowPower := true } }))

/-- A port that runs takes a received frame; a stopped, off, deaf or looped port, and a classical one for an FD frame,
does not. The first filter element that accepts it drops it, stores it in a FIFO with its number and GTC or decodes it
into the signals; a full FIFO drops and counts. A buffer that arbitration picked and that was sent is free again and
counted, its descriptors complete and a lone node ends; another is not. Errors of a receiver and a transmitter raise
their counters (steps of ISO 11898-1, log 23); a change of error state raises its event; above 255 a transmitter is
off the bus, from which it recovers with counters of 0. 64 unacknowledged frames make a lone node once; its throttle
gives an attempt 50 ms after the last. A third collision suspends the buffer and ends its descriptors. A periodic
buffer is queued at its period, or counted late. An armed wake source raises INH, wakes the device and is reported;
another does nothing. -/
def Obligations.CanBus : Prop :=
  (∀ s h f t, objOf s h = none → exec (.canFrameReceived h f t) s = .next s)
    ∧ (∀ s h f t o hears, objOf s h = some o → hears = (o.typ = tyCanport ∧ isEnabled o = true ∧ (canOf o).stopped = false ∧ (canOf o).busOff = false ∧ canDeaf s o = false
          ∧ bit (canFlags o) 2 = false ∧ (frFd f = true → canFd o = true)) →
        (hears → exec (.canFrameReceived h f t) s = .next (canTake o { f with data := f.data.take 64 } (toInstant t s)))
        ∧ (¬ hears → exec (.canFrameReceived h f t) s = .next s))
    ∧ (∀ s o f u, u = canFilter o.idx f (canCount o.idx (fun r => { r with
          rxFrames := satInc 32 r.rxFrames, rxErr := if 127 < r.rxErr then 127 else r.rxErr - 1 }) s) →
        (isbRun u = true → canTake o f s = isbFrameIn o f (speedMessage (handleOf o) f u))
        ∧ (isbRun u = false → canTake o f s = u))
    ∧ (∀ s o f b, objAt s o.idx = some o → b = (canOf o).filt →
        ((∀ k, k < b.length / 16 → filterHit b k f = false) → canFilter o.idx f s = s)
        ∧ (∀ k x u, k < b.length / 16 → filterHit b k f = true → (∀ j, j < k → filterHit b j f = false) → x = ({ frame := f, filter := k, gtc := s.gtc } : CanRx) →
          (u8 b (16 * k + 8) = 0 → canFilter o.idx f s = s)
          ∧ (u8 b (16 * k + 8) = 1 → canFilter o.idx f s = fifoPut o.idx 0 x s)
          ∧ (u8 b (16 * k + 8) = 2 → canFilter o.idx f s = fifoPut o.idx 1 x s)
          ∧ (u = decodeInto o.idx (u32 b (16 * k + 12)) f s →
            (u8 b (16 * k + 8) = 3 → canFilter o.idx f s = u) ∧ (u8 b (16 * k + 8) = 4 → canFilter o.idx f s = fifoPut o.idx 0 { x with gtc := s.gtc } u))))
    ∧ (∀ s o q x l, objAt s o.idx = some o → l = (if q = 0 then (canOf o).rx0 else (canOf o).rx1) →
        (l.length < fifoSize o q → fifoPut o.idx q x s = updCan o.idx (fun r => if q = 0 then { r with rx0 := r.rx0 ++ [x] } else { r with rx1 := r.rx1 ++ [x] }) s)
        ∧ (fifoSize o q ≤ l.length → fifoPut o.idx q x s = raiseLimited 480000000 0x0D46 0 (handleOf o) 0 0 (leBytes 1 q) 4 4
            (updCan o.idx (fun r => { r with rxDropped := satInc 32 r.rxDropped }) s)))
    ∧ (∀ s i h f, (tableOf s h = none → decodeInto i h f s = s)
        ∧ (∀ b, tableOf s h = some b → f.data.length < fmtLen b → decodeInto i h f s = updCan i (fun r => { r with undecoded := satInc 32 r.undecoded }) s)
        ∧ (∀ b, tableOf s h = some b → fmtLen b ≤ f.data.length → decodeInto i h f s
          = updCan i (fun r => { r with sig := (fmtDecodeAll b f.data).foldl (fun g x => g.set x.1 x.2) r.sig }) s))
    ∧ (∀ s h b x t, objOf s h = none → exec (.canFrameTransmitted h b x t) s = .next s)
    ∧ (∀ s h b x t o sent, objOf s h = some o → sent = (o.typ = tyCanport ∧ canMay s o = true ∧ arbWinner o x = some b ∧ x ≤ t) →
        (¬ sent → exec (.canFrameTransmitted h b x t) s = .next s)
        ∧ (∀ u v w y z p, sent → u = toInstant t s → v = canCount o.idx (fun r => { r with txFrames := satInc 32 r.txFrames, tec := r.tec - 1, ackRun := 0 })
              (updTx o.idx b (fun e => { e with
                pend := false, coll := 0, gtc := u.gtc, single := false, msg := none, frame := if 24 ≤ b then none else e.frame }) u) →
            w = updCan o.idx (fun r => { r with attemptAt := v.gtc, attempt := false }) v →
            y = (if (canOf o).lone = true then raise0 0x0D45 h [] (updCan o.idx (fun r => { r with lone := false }) w) else w) →
            z = sendsEnd h b 0 y → p = (match (txOf o b).msg with
              | none => z
              | some n => pgnSendEnd n {} z) →
            ∀ q, q = (if 24 ≤ b then isbRefill p else p) →
            (bit (canFlags o) 2 = false → exec (.canFrameTransmitted h b x t) s = .next q)
            ∧ (∀ f, bit (canFlags o) 2 = true → (txOf o b).frame = some f → exec (.canFrameTransmitted h b x t) s = .next (canTake o f q))))
    ∧ (∀ s h e, objOf s h = none → exec (.canTxError h e) s = .next s)
    ∧ (∀ s h e o on, objOf s h = some o → on = (o.typ = tyCanport ∧ isEnabled o = true ∧ (canOf o).busOff = false ∧ canDeaf s o = false ∧ 0 < e.code ∧ e.code ≤ 6) →
        (¬ on → exec (.canTxError h e) s = .next s)
        ∧ (on → e.tx = false → exec (.canTxError h e) s
          = .next (canCount o.idx (fun r => { r with lastErr := e.code, rxErr := min 255 (r.rxErr + 1 + 8 * e.more) }) s))
        ∧ (on → e.tx = true → (canMay s o = false ∨ ∀ x ∈ offered o s.gtc, x.2 ≠ e.buf) → exec (.canTxError h e) s = .next s)
        ∧ (∀ free u v, on → e.tx = true → canMay s o = true → (∃ x ∈ offered o s.gtc, x.2 = e.buf) →
          free = (e.quiet = true ∧ (e.code = 1 ∨ e.code = 3 ∧ canEstate (canOf o) = 1)) →
          (free → u = canCount o.idx (fun r => { r with lastErr := e.code, tec := r.tec + 8 * e.more, ackRun := if e.code = 3 then r.ackRun + 1 else 0 }) s) →
          (¬ free → u = canCount o.idx (fun r => { r with lastErr := e.code, tec := r.tec + 8 + 8 * e.more, ackRun := if e.code = 3 then r.ackRun + 1 else 0 }) s) →
          v = (if (txOf o e.buf).single = true ∧ (txOf o e.buf).pend = true then
              sendsEnd (handleOf o) e.buf 0x0D03 (updTx o.idx e.buf (fun t => { t with pend := false }) u) else u) →
          exec (.canTxError h e) s = .next (updCan o.idx (fun r => { r with attemptAt := v.gtc, attempt := false }) v)))
    ∧ (∀ r, canEstate r = (if r.stopped = true then 3 else if r.busOff = true then 2 else if 128 ≤ r.tec ∨ 128 ≤ r.rxErr then 1 else 0))
    ∧ (∀ s o f r a b u, objAt s o.idx = some o → r = { f (canOf o) with busOff := (f (canOf o)).busOff || decide (255 < (f (canOf o)).tec) } → a = canEstate (canOf o) →
        b = canEstate r → u = updCan o.idx (fun _ => r) s →
        (a = b → canCount o.idx f s = u)
        ∧ (a ≠ b → b = 2 → canCount o.idx f s = raise0 0x0D41 (handleOf o) [] u)
        ∧ (a ≠ b → b = 1 → canCount o.idx f s = raise0 0x0D40 (handleOf o) [1] u)
        ∧ (a = 1 → b ≠ 1 → b ≠ 2 → canCount o.idx f s = raise0 0x0D40 (handleOf o) [0] u)
        ∧ (a ≠ 1 → b ≠ 1 → b ≠ 2 → canCount o.idx f s = u))
    ∧ (∀ s h, objOf s h = none → exec (.canBusOffRecovery h) s = .next s ∧ exec (.loneNode h) s = .next s ∧ exec (.loneNodeThrottle h) s = .next s)
    ∧ (∀ s h o n off u, objOf s h = some o → n = satInc 32 (canOf o).busOffs → off = (o.typ = tyCanport ∧ (canOf o).busOff = true ∧ (canOf o).stopped = false) →
        u = raise0 0x0D42 h ([0, 0, 0, 0] ++ leBytes 4 n) (updCan o.idx (fun r => { r with busOff := false, tec := 0, rxErr := 0, busOffs := n }) s) →
        (¬ off → exec (.canBusOffRecovery h) s = .next s)
        ∧ (off → isbRun u = true → u32 u.isb.cfg 0 = h → exec (.canBusOffRecovery h) s = .next { u with isb := { u.isb with claimDue := true } })
        ∧ (off → (isbRun u = false ∨ u32 u.isb.cfg 0 ≠ h) → exec (.canBusOffRecovery h) s = .next u))
    ∧ (∀ s h o alone, objOf s h = some o → alone = (o.typ = tyCanport ∧ isEnabled o = true ∧ 64 ≤ (canOf o).ackRun ∧ (canOf o).lone = false) →
        (alone → exec (.loneNode h) s = .next (raise0 0x0D44 h [if bit (canFlags o) 3 then 0 else 1]
          (updCan o.idx (fun r => { r with lone := true, attemptAt := s.gtc, attempt := false }) s)))
        ∧ (¬ alone → exec (.loneNode h) s = .next s))
    ∧ (∀ s h o held, objOf s h = some o → held = (o.typ = tyCanport ∧ isEnabled o = true ∧ (canOf o).lone = true ∧ bit (canFlags o) 3 = false ∧ (canOf o).attempt = false) →
        (held → exec (.loneNodeThrottle h) s = .next (updCan o.idx (fun r => { r with attempt := true }) (toInstant ((canOf o).attemptAt + 24000000) s)))
        ∧ (¬ held → exec (.loneNodeThrottle h) s = .next s))
    ∧ (∀ s h b, objOf s h = none → exec (.idcoll h b) s = .next s ∧ exec (.canPeriodicQueue h b) s = .next s)
    ∧ (∀ s h b o hit u, objOf s h = some o → hit = (o.typ = tyCanport ∧ canMay s o = true ∧ b < 32 ∧ (txOf o b).pend = true ∧ (txOf o b).susp = false) →
        u = raise0 0x0D43 h (leBytes 4 (((txOf o b).frame.map (·.id)).getD 0) ++ leBytes 1 b ++ satBytes 1 ((txOf o b).coll + 1))
          (updCan o.idx (fun r => { r with idcoll := satInc 32 r.idcoll, tx := r.tx.modify b fun x => { x with coll := (txOf o b).coll + 1 } }) s) →
        (¬ hit → exec (.idcoll h b) s = .next s)
        ∧ (hit → (txOf o b).coll < 2 → exec (.idcoll h b) s = .next u)
        ∧ (hit → 2 ≤ (txOf o b).coll → exec (.idcoll h b) s = .next (sendsEnd h b 0x0D01 (updTx o.idx b (fun x => { x with susp := true }) u))))
    ∧ (∀ s h b x, sendsEnd h b x s = ((s.hif.deferred.filter fun e => (e.op == 0x0D00 || e.op == 0x0D04) && e.handle == h && e.arg == b).foldl
        (fun t e => completeDeferred e { status := x } t) s))
    ∧ (∀ s h b o, objOf s h = some o → ((txOf o b).cfg = none ∨ o.typ ≠ tyCanport ∨ isEnabled o = false ∨ (txOf o b).susp = true) →
        exec (.canPeriodicQueue h b) s = .next s)
    ∧ (∀ s h b o c u x put, objOf s h = some o → (txOf o b).cfg = some c → o.typ = tyCanport → isEnabled o = true → (txOf o b).susp = false →
        u = updTx o.idx b (fun t => { t with nextAt := t.nextAt + u32 c 8 * 480 }) (toInstant (txOf o b).nextAt s) →
        x = fmtBuild (u32 c 12) (fun v => (canOf o).sig.getD v 0) u →
        put = (fun (bs : List Byte) (v : State) => updTx o.idx b (fun t => { t with pend := true, since := v.gtc }) (updTx o.idx b (fun t => { t with
          single := false, frame := some { id := u32 c 4 + (if bit (u8 c 1) 0 then 2 ^ 30 else 0), eflags := bits (u8 c 1) 1 2, data := padTo (u8 c 2) bs } }) v)) →
        ((txOf o b).pend = true → exec (.canPeriodicQueue h b) s = .next (updCan o.idx (fun r => { r with txLate := satInc 32 r.txLate }) u))
        ∧ ((txOf o b).pend = false → bit (u8 c 1) 3 = true → exec (.canPeriodicQueue h b) s = .next (put x.1 x.2))
        ∧ ((txOf o b).pend = false → bit (u8 c 1) 3 = false → exec (.canPeriodicQueue h b) s = .next (put (((txOf o b).frame.map (·.data)).getD []) u)))
    ∧ (∀ s r p f on, on = (canWakes s r p f = true ∧ (r = 4 → s.boot.mode = .sleeping) ∧ (r ≠ 4 → s.cand.lowPower = true)) →
        (¬ on → exec (.canWake r p f) s = .next s)
        ∧ (on → exec (.canWake r p f) s = .next (raise0 0x0D47 0 (leBytes 1 r) (wakeBy r s.gtc { s with cand := { s.cand with inh := true, lowPower := false } }))))
    ∧ (∀ s r p f w, w = s.cand.wake → (canWakes s r p f = true ↔ r = 1 ∧ u8 w 0 = 1 ∨ r = 2 ∧ u8 w 0 = 2 ∧ wakeFrame w f = true ∨ r = 3 ∧ u8 w 0 = 2
        ∨ r = 4 ∧ 1 ≤ p ∧ p ≤ 3 ∧ bit (u8 w 3) p = true))

/-- ISB_CONFIG starts, with a stored pool if asked, or stops the services: their address is then 254; a block that changes
more than run and tc_enable is refused while they run (log 23), and on a member. ISB_POOL_LOAD takes a good pool.
ISB_POOL_SAVE stores it under its key if it fits, or waits while a supply warning defers the write. PGN_SEND needs a
claimed address, and a group that is not the services’ own; up to 8 bytes go in one frame, more in a session. PGN_READ
takes the oldest message that fits or waits for one. A claim starts with the preferred address and stands 250 ms
later; a contender with a higher NAME is answered, one with a lower takes the address and the next one is tried; a
request is answered. A transport request for a subscribed group opens a session within the limits, or is aborted; a
session ends with its message or its timeout. ISB_STATUS writes its 64 bytes. -/
def Obligations.IsobusServices : Prop :=
  (∀ s d, passes 0x0D08 d s = true → s.osl.role = 2 → exec (.isbConfig d) s = .next (fail d 0x0309 s))
    ∧ (∀ s d b, passes 0x0D08 d s = true → b = blockOf s d → s.osl.role ≠ 2 →
        (∀ e, isbCfgBad s b = some e → exec (.isbConfig d) s = .next (failWith d e.status e.result s))
        ∧ (∀ locked start load u v, isbCfgBad s b = none →
          locked = (isbRun s = true ∧ putAt (putAt b 4 [0]) 16 [0] ≠ putAt (putAt s.isb.cfg 4 [0]) 16 [0]) → start = (isbRun s = false ∧ u8 b 4 = 1) →
          load = (s.isb.pools.find? fun x => x.1 == u8 b 18).map (·.2) →
          u = (fun (pl : Option (List Byte)) => { s with isb := { s.isb with cfg := b, pool := pl, claimDue := (!isbRun s && u8 b 4 == 1) || (s.isb.claimDue && u8 b 4 == 1)
                                                                             claim := if u8 b 4 = 0 then 0 else s.isb.claim, address := if u8 b 4 = 0 then 254 else s.isb.address } }) →
          v = (fun (pl : Option (List Byte)) => tcFollow (if s.isb.tc = 5 ∧ u8 b 16 = 1 then setTc 1 (u pl) else u pl)) →
          (locked → exec (.isbConfig d) s = .next (fail d stBusy s))
          ∧ (¬ locked → start → u8 b 17 = 1 → load = none → exec (.isbConfig d) s = .next (fail d 0x0306 s))
          ∧ (∀ x e, ¬ locked → start → u8 b 17 = 1 → load = some x → poolBad x = some e → exec (.isbConfig d) s = .next (failWith d 0x0D06 (leBytes 1 e) s))
          ∧ (∀ x, ¬ locked → start → u8 b 17 = 1 → load = some x → poolBad x = none → exec (.isbConfig d) s = .next (ok d (v load)))
          ∧ (¬ locked → ¬ (start ∧ u8 b 17 = 1) → exec (.isbConfig d) s = .next (ok d (v s.isb.pool)))))
    ∧ (∀ s n, (s.isb.tc = n → setTc n s = s)
        ∧ (s.isb.tc ≠ n → setTc n s = raise0 0x0D4B 0 (leBytes 1 n ++ leBytes 1 s.isb.tc) { s with isb := { s.isb with
            tc := n, meas := if n = 4 then [] else s.isb.meas } }))
    ∧ (∀ s u, u = (if s.isb.claim = 2 then s else holdServices s) →
        (isbRun u = true → u8 u.isb.cfg 16 = 1 → u.isb.claim = 2 → tcFollow s = if u.isb.tc = 0 then setTc 1 u else u)
        ∧ ((isbRun u = false ∨ u8 u.isb.cfg 16 ≠ 1 ∨ u.isb.claim ≠ 2) → tcFollow s = setTc 0 u))
    ∧ (∀ s d, passes 0x0D09 d s = true →
        (∀ e, poolBad (blockOf s d) = some e → exec (.isbPoolLoad d) s = .next (failWith d 0x0D06 (leBytes 1 e) s))
        ∧ (poolBad (blockOf s d) = none → s.isb.tc ≠ 5 → exec (.isbPoolLoad d) s = .next (ok d { s with isb := { s.isb with pool := some (blockOf s d) } }))
        ∧ (poolBad (blockOf s d) = none → s.isb.tc = 5 → exec (.isbPoolLoad d) s
          = .next (ok d (setTc 1 { s with isb := { s.isb with pool := some (blockOf s d) } }))))
    ∧ (∀ s d k, passes 0x0D0A d s = true → k = u8 d.bytes 16 →
        ((k = 0 ∨ 4 < k) → exec (.isbPoolSave d) s = .next (fail d stBadParam s))
        ∧ (0 < k → k ≤ 4 → s.isb.pool = none → exec (.isbPoolSave d) s = .next (fail d stState s))
        ∧ (∀ b, 0 < k → k ≤ 4 → s.isb.pool = some b →
          (262144 < poolRoom k s + b.length → exec (.isbPoolSave d) s = .next (fail d 0x0305 s))
          ∧ (poolRoom k s + b.length ≤ 262144 → s.pwr.bow = false → exec (.isbPoolSave d) s = .next (ok d (poolPut k b s)))
          ∧ (poolRoom k s + b.length ≤ 262144 → s.pwr.bow = true → exec (.isbPoolSave d) s
            = .next { s with pwr := { s.pwr with mramWait := s.pwr.mramWait ++ [(d, .pool k b)] } })))
    ∧ (∀ s d b g n bad u, passes 0x0D0B d s = true → b = blockOf s d → g = u32 b 0 → n = (b.drop 8).length →
        bad = (2 ^ 18 ≤ g ∨ 7 < u8 b 5 ∨ u16 b 6 ≠ 0 ∨ u8 b 4 = 255 ∧ 1785 < n) →
        u = defer d 0x0D0B 0 0 [] s.isb.nextMsg { s with isb := { s.isb with nextMsg := s.isb.nextMsg + 1 } } →
        (bad → exec (.isbPgnSend d) s = .next (fail d stBadParam s))
        ∧ (¬ bad → servicePgns.contains g = true → exec (.isbPgnSend d) s = .next (fail d 0x0D07 s))
        ∧ (¬ bad → servicePgns.contains g = false → s.isb.claim ≠ 2 → exec (.isbPgnSend d) s = .next (fail d 0x0D05 s))
        ∧ (¬ bad → servicePgns.contains g = false → s.isb.claim = 2 →
          (262144 < n → exec (.isbPgnSend d) s = .next (failWith d 0x0D08 [2] (tpAborted (u8 b 4) g 2 s)))
          ∧ (n ≤ 262144 → 8 < n → 2 ≤ s.isb.send.length → exec (.isbPgnSend d) s = .next (fail d stNoResource s))
          ∧ (n ≤ 8 → exec (.isbPgnSend d) s = .next (isbSend (u8 b 5) g (u8 b 4) u.isb.address (b.drop 8) (some s.isb.nextMsg) u))
          ∧ (n ≤ 262144 → 8 < n → s.isb.send.length < 2 → exec (.isbPgnSend d) s = .next { u with isb := { u.isb with
              send := u.isb.send ++ [{ peer := u8 b 4, pgn := g, size := n, msg := some s.isb.nextMsg }] } })))
    ∧ (∀ s f n, (isbPort s = none → isbFrame f n s = s)
        ∧ (∀ o, isbPort s = some o → (∀ k, k < 8 → (txOf o (24 + k)).frame ≠ none) → isbFrame f n s = { s with isb := { s.isb with out := s.isb.out ++ [(f, n)] } })
        ∧ (∀ o k, isbPort s = some o → k < 8 → (txOf o (24 + k)).frame = none → (∀ j, j < k → (txOf o (24 + j)).frame ≠ none) → isbFrame f n s
          = updTx o.idx (24 + k) (fun t => { t with pend := true, since := s.gtc }) (updTx o.idx (24 + k) (fun t => { t with frame := some f, msg := n }) s)))
    ∧ (∀ s d u x, passes 0x0D0C d s = true → u = defer d 0x0D0C 0 0 [] 0 s → u.hif.deferred.getLast? = some x →
        ((∀ m ∈ u.isb.msgs, readFits x m = false) → exec (.isbPgnRead d) s = .next u)
        ∧ (∀ l m r, u.isb.msgs = l ++ m :: r → readFits x m = true → (∀ y ∈ l, readFits x y = false) →
          exec (.isbPgnRead d) s = .next (readTakes x m { u with isb := { u.isb with msgs := l ++ r } })))
    ∧ (∀ s d i, passes 0x0D0D d s = true → i = s.isb → exec (.isbStatus d) s = .next (writeBack d (leBytes 1 i.address ++ leBytes 1 i.claim ++ leBytes 1 i.tc
          ++ leBytes 1 i.tcAddr ++ leBytes 1 i.tcVer ++ satBytes 1 (poolCount s) ++ [0, 0] ++ leBytes 8 (u64 i.cfg 8) ++ satBytes 4 i.aborted ++ satBytes 4 i.pdRecv
          ++ satBytes 4 i.pdSent ++ satBytes 4 i.dropped ++ leBytes 8 i.tcLast ++ List.replicate 24 0) {} s))
    ∧ (∀ s, isbPort s = none → exec .addressClaimStart s = .next s)
    ∧ (∀ s o a on, isbPort s = some o → a = u8 s.isb.cfg 5 → on = (isbRun s = true ∧ s.isb.claimDue = true ∧ isEnabled o = true ∧ (canOf o).busOff = false) →
        (¬ on → exec .addressClaimStart s = .next s)
        ∧ (on → exec .addressClaimStart s = .next (tcFollow (sendClaim a { s with isb := { s.isb with claimDue := false, claim := 1, address := 254, trying := a, claimAt := s.gtc } }))))
    ∧ (∀ s, s.isb.claim ≠ 1 → exec .addressClaimTimeout s = .next s)
    ∧ (∀ s u, s.isb.claim = 1 → u = { toInstant (s.isb.claimAt + 120000000) s with isb := { s.isb with claim := 2, address := s.isb.trying } } →
        exec .addressClaimTimeout s = .next (confirmByClaim (tcFollow (releaseSuspended (raise0 0x0D48 0 (leBytes 1 s.isb.trying) u)))))
    ∧ (∀ s a n, (isbRun s = false ∨ 253 < a) → exec (.addressClaimReceived a n) s = .next s)
    ∧ (∀ s a n mine u, isbRun s = true → a ≤ 253 → mine = (s.isb.claim = 1 ∧ s.isb.trying = a ∨ s.isb.claim = 2 ∧ s.isb.address = a) →
        u = { s with isb := { s.isb with taken := s.isb.taken.filter (fun x => x != a) ++ [a] } } →
        (¬ mine → exec (.addressClaimReceived a n) s = .next u)
        ∧ (mine → isbName s ≤ n → exec (.addressClaimReceived a n) s = .next (sendClaim a s))
        ∧ (mine → n < isbName s → s.isb.claim = 2 → exec (.addressClaimReceived a n) s = .next (tcFollow (claimNext (raise0 0x0D49 0 (leBytes 1 a ++ leBytes 8 n) u))))
        ∧ (mine → n < isbName s → s.isb.claim = 1 → exec (.addressClaimReceived a n) s = .next (tcFollow (claimNext u))))
    ∧ (∀ s, ((bit (isbName s) 63 = false ∨ nextAddress s s.isb.trying = none) → claimNext s
          = raise0 0x0D4A 0 [] (sendClaim 254 { s with isb := { s.isb with claim := 3, address := 254 } }))
        ∧ (∀ a, bit (isbName s) 63 = true → nextAddress s s.isb.trying = some a → claimNext s
          = sendClaim a { s with isb := { s.isb with claim := 1, address := 254, trying := a, claimAt := s.gtc } }))
    ∧ (∀ s x, (isbRun s = false → exec (.requestForAddressClaimed x) s = .next s)
        ∧ (isbRun s = true → s.isb.claim = 1 → exec (.requestForAddressClaimed x) s = .next (sendClaim s.isb.trying s))
        ∧ (isbRun s = true → s.isb.claim = 2 → exec (.requestForAddressClaimed x) s = .next (sendClaim s.isb.address s))
        ∧ (isbRun s = true → s.isb.claim = 3 → exec (.requestForAddressClaimed x) s = .next (sendClaim 254 s))
        ∧ ((s.isb.claim = 0 ∨ 3 < s.isb.claim) → exec (.requestForAddressClaimed x) s = .next s))
    ∧ (∀ s x p n bc, (isbRun s = false ∨ s.isb.claim ≠ 2) → exec (.tpConnectionRequest x p n bc) s = .next s)
    ∧ (∀ s x p n bc r, isbRun s = true → s.isb.claim = 2 → r = (takeFree s).1 % 256 →
        (bc = true → subscribed s p = false → exec (.tpConnectionRequest x p n bc) s = .next s)
        ∧ (bc = false → subscribed s p = false → servicePgns.contains p = false → exec (.tpConnectionRequest x p n bc) s
          = .next (tpAborted x p r (sendAbort x p r (decide (1785 < n)) (takeFree s).2)))
        ∧ ((subscribed s p = true ∨ bc = false ∧ servicePgns.contains p = true) →
          (bc = true → (4 ≤ s.isb.recv.length ∨ 262144 < n) → exec (.tpConnectionRequest x p n bc) s = .next (tpAborted x p 2 s))
          ∧ (bc = false → (4 ≤ s.isb.recv.length ∨ 262144 < n) → exec (.tpConnectionRequest x p n bc) s
            = .next (tpAborted x p 2 (sendAbort x p 2 (decide (1785 < n)) s)))
          ∧ (s.isb.recv.length < 4 → n ≤ 262144 → exec (.tpConnectionRequest x p n bc) s
            = .next { s with isb := { s.isb with recv := s.isb.recv ++ [{ peer := x, pgn := p, size := n }] } })))
    ∧ (∀ s q p pr bs r, (sessionWith s.isb.recv q p = none → exec (.tpMessageComplete false q p pr bs) s = .next s ∧ exec (.tpTimeout false q p r) s = .next s)
        ∧ (sessionWith s.isb.send q p = none → exec (.tpMessageComplete true q p pr bs) s = .next s ∧ exec (.tpTimeout true q p r) s = .next s))
    ∧ (∀ s q p pr bs x u, sessionWith s.isb.recv q p = some x → u = { s with isb := { s.isb with recv := s.isb.recv.erase x } } →
        (x.size = bs.length → subscribed s p = true → exec (.tpMessageComplete false q p pr bs) s
          = .next (deliverMsg { pgn := p, src := q, prio := pr % 8, data := bs } u))
        ∧ (x.size = bs.length → subscribed s p = false → exec (.tpMessageComplete false q p pr bs) s = .next u)
        ∧ (x.size ≠ bs.length → exec (.tpMessageComplete false q p pr bs) s = .next s)
        ∧ (∀ r, exec (.tpTimeout false q p r) s = .next (tpAborted q p r u)))
    ∧ (∀ s q p pr bs x, sessionWith s.isb.send q p = some x →
        (s.isb.claim = 2 → exec (.tpMessageComplete true q p pr bs) s
          = .next (pgnSendEnd (x.msg.getD 0) {} { s with isb := { s.isb with send := s.isb.send.erase x } }))
        ∧ (s.isb.claim ≠ 2 → exec (.tpMessageComplete true q p pr bs) s = .next s)
        ∧ (∀ r, exec (.tpTimeout true q p r) s = .next (pgnSendEnd (x.msg.getD 0) { status := 0x0D08, result := leBytes 1 r }
          (tpAborted q p r { s with isb := { s.isb with send := s.isb.send.erase x } }))))
    ∧ (∀ s m, (∀ x, s.hif.deferred.find? (fun x => x.op == 0x0D0C && readFits x m) = some x → deliverMsg m s
          = deferredWrite x ((msgBytes m).take (dBlockLen x.st.desc)) { result := leBytes 4 (m.data.length + 8) } s)
        ∧ (s.hif.deferred.find? (fun x => x.op == 0x0D0C && readFits x m) = none → s.isb.msgs.length < 8 → deliverMsg m s
          = { s with isb := { s.isb with msgs := s.isb.msgs ++ [m] } })
        ∧ (s.hif.deferred.find? (fun x => x.op == 0x0D0C && readFits x m) = none → 8 ≤ s.isb.msgs.length → deliverMsg m s
          = { s with isb := { s.isb with msgs := (s.isb.msgs ++ [m]).drop 1, dropped := satInc 32 s.isb.dropped } }))

/-- The status of the configured instance moves a searching client to the exchange, whose version moves it on to its pool;
another instance is not heard. A status lost for 6 s returns it to the search with its event. A pool accepted makes it
active, one refused an error. While active, a condensed setpoint turns each section that decides and changes on or off
from its instant; work-state bits set the sections’ states, a rate is kept for the sections it reaches, any other is
refused; a measurement command of a value that exists is kept in place of the one before, one out of range refused. A
measurement is due by its time, path, threshold or change and is then sent with its value. Outputs that disagree for
500 ms show it. Nothing of this happens while the client is not active. -/
def Obligations.TaskController : Prop :=
  (∀ s i a v, ((s.isb.tc = 0 ∨ i ≠ u8 s.isb.cfg 19) → exec (.tcStatusReceived i a v) s = .next s)
      ∧ (i = u8 s.isb.cfg 19 → s.isb.tc = 1 → exec (.tcStatusReceived i a v) s
        = .next (raise0 0x0D4B 0 [2, 1] { s with isb := { s.isb with tc := 2, tcAddr := a, tcLast := s.gtc } }))
      ∧ (2 ≤ s.isb.tc → a ≠ s.isb.tcAddr → exec (.tcStatusReceived i a v) s = .next s)
      ∧ (i = u8 s.isb.cfg 19 → s.isb.tc = 2 → a = s.isb.tcAddr → ∀ x, v = some x → exec (.tcStatusReceived i a v) s
        = .next (raise0 0x0D4B 0 [3, 2] { s with isb := { s.isb with tc := 3, tcVer := x, tcLast := s.gtc } }))
      ∧ (i = u8 s.isb.cfg 19 → 2 ≤ s.isb.tc → a = s.isb.tcAddr → (v = none ∨ s.isb.tc ≠ 2) → exec (.tcStatusReceived i a v) s
        = .next { s with isb := { s.isb with tcLast := s.gtc } }))
    ∧ (∀ s, (s.isb.tc < 2 → exec .tcStatusLost s = .next s)
        ∧ (2 ≤ s.isb.tc → exec .tcStatusLost s = .next (setTc 1 (raise0 0x0D4C 0 (leBytes 1 s.isb.tcAddr) (toInstant (s.isb.tcLast + 2880000000) s)))))
    ∧ (∀ s g e, ((s.isb.tc ≠ 3 ∨ s.isb.pool = none) → exec (.tcPoolResponse g e) s = .next s)
        ∧ (s.isb.tc = 3 → s.isb.pool ≠ none → g = true → exec (.tcPoolResponse g e) s
          = .next (raise0 0x0D4B 0 [4, 3] { s with isb := { s.isb with tc := 4, meas := [] } }))
        ∧ (s.isb.tc = 3 → s.isb.pool ≠ none → g = false → exec (.tcPoolResponse g e) s
          = .next (raise0 0x0D4D 0 (leBytes 2 e) (raise0 0x0D4B 0 [5, 3] { s with isb := { s.isb with tc := 5 } }))))
    ∧ (∀ s, s.isb.tc ≠ 4 → (∀ g v t, exec (.setpointCondensedWorkState g v t) s = .next s) ∧ (∀ e p v, exec (.tcProcessData e p v) s = .next s)
        ∧ (∀ e p c v, exec (.measurementCommand e p c v) s = .next s) ∧ (∀ k, exec (.pdMeasurementTrigger k) s = .next s))
    ∧ (∀ s g v t act, s.isb.tc = 4 →
        act = (fun (n : Nat) (on : Bool) (u : State) => ((objsOf u tySection).filter fun o => u16 o.act 34 == n && isEnabled o && u8 o.act 16 == 1).foldl (fun w o =>
          if secDecides o = true ∧ (secOf o).decided ≠ on then tcSetpoint o on t w else w) u) →
        ((g = 0 ∨ 16 < g) → exec (.setpointCondensedWorkState g v t) s = .next s)
        ∧ (0 < g → g ≤ 16 → exec (.setpointCondensedWorkState g v t) s = .next ((List.range 16).foldl (fun u k =>
            if bits v (2 * k) 2 = 0 then act (16 * (g - 1) + k) false u else if bits v (2 * k) 2 = 1 then act (16 * (g - 1) + k) true u else u)
          { toInstant t s with isb := { s.isb with pdRecv := satInc 32 s.isb.pdRecv } })))
    ∧ (∀ n, tcReach (.section_ n) = [n]) ∧ tcReach .function = List.range 256
    ∧ (∀ s e v u, s.isb.tc = 4 → u = { s with isb := { s.isb with pdRecv := satInc 32 s.isb.pdRecv } } →
        exec (.tcProcessData e .setWorkState v) s = .next { u with isb := { u.isb with sws := (tcReach e).foldl (fun m n => setBit m n (v == 1)) s.isb.sws } }
        ∧ exec (.tcProcessData e .sectionControl v) s = .next { u with isb := { u.isb with scs := (tcReach e).foldl (fun m n => setBit m n (v == 1)) s.isb.scs } }
        ∧ (∀ p x, tcRateOf p v = some x → exec (.tcProcessData e p v) s = .next (((objsOf u tySection).filter fun o => (tcReach e).contains (u16 o.act 34)).foldl
            (fun w o => updSec o.idx (fun r => { r with tcRate := some x }) w) u))
        ∧ (∀ p, p ≠ .setWorkState → p ≠ .sectionControl → tcRateOf p v = none → exec (.tcProcessData e p v) s = .next (pdRefuse e p 3 u)))
    ∧ (∀ v, tcRateOf .setVolume v = some (fOfFrac v 100, 1) ∧ tcRateOf .setMass v = some (fOfFrac v 100, 2) ∧ tcRateOf .setCount v = some (fOfInt (10 * v), 3))
    ∧ (∀ s e p c v u bad, s.isb.tc = 4 → u = { s with isb := { s.isb with pdRecv := satInc 32 s.isb.pdRecv } } →
        bad = (c < 4 ∨ 8 < c ∨ c = 4 ∧ v < 100 ∨ c = 5 ∧ v ≤ 0) →
        ((bad ∨ pdValue u e p = none) → exec (.measurementCommand e p c v) s = .next (pdRefuse e p c u))
        ∧ (∀ x, ¬ bad → pdValue u e p = some x → exec (.measurementCommand e p c v) s = .next { u with isb := { u.isb with
            meas := (s.isb.meas.filter fun y => !(y.elem == e && y.pd == p && y.cmd == c))
              ++ [{ elem := e, pd := p, cmd := c, value := v, at' := s.gtc, dist := s.isb.path, sent := x }] } }))
    ∧ (∀ s k, s.isb.meas[k]? = none → exec (.pdMeasurementTrigger k) s = .next s)
    ∧ (∀ s m x, (m.cmd = 4 → measDue s m x = true)
        ∧ (m.cmd = 5 → (measDue s m x = true ↔ m.value * 10000 ≤ (s.isb.path : Int) - m.dist))
        ∧ (m.cmd = 6 → (measDue s m x = true ↔ x ≠ m.sent ∧ x < m.value))
        ∧ (m.cmd = 7 → (measDue s m x = true ↔ x ≠ m.sent ∧ m.value < x))
        ∧ (m.cmd = 8 → (measDue s m x = true ↔ x ≠ m.sent ∧ m.value ≤ ((x - m.sent).natAbs : Int))))
    ∧ (∀ s k m u, s.isb.meas[k]? = some m → s.isb.tc = 4 → u = (if m.cmd = 4 then toInstant (m.at' + m.value.toNat * 480000) s else s) →
        (pdValue u m.elem m.pd = none → exec (.pdMeasurementTrigger k) s = .next u)
        ∧ (∀ x, pdValue u m.elem m.pd = some x → measDue u m x = false → exec (.pdMeasurementTrigger k) s = .next u)
        ∧ (∀ x, pdValue u m.elem m.pd = some x → measDue u m x = true → exec (.pdMeasurementTrigger k) s
          = .next (pdSend m.elem m.pd { u with isb := { u.isb with meas := u.isb.meas.set k { m with at' := u.gtc, dist := u.isb.path, sent := x } } })))
    ∧ (∀ s h, (objOf s h = none ∨ ∃ o, objOf s h = some o ∧ ((secOf o).disSince = none ∨ o.typ ≠ tySection)) → exec (.workStateDisagreeTimeout h) s = .next s)
    ∧ (∀ s h o t, objOf s h = some o → (secOf o).disSince = some t → o.typ = tySection → exec (.workStateDisagreeTimeout h) s
          = .next (updSec o.idx (fun r => { r with dis := true }) (toInstant (t + 240000000) s)))

/-- A 32-clock frame with its check byte is executed, counted and answered; a wrong check byte or another clock count has
no effect but STAT.FRAME, the count, the event and the error reply, and outside the mode nothing. A write has its
register’s effect, the protected registers only while unlocked, and is answered with the register’s value; one refused
while promoting or locked out is answered with its reason; a read of STAT or a fault register clears it. The right key
unlocks, another fails and from the fifth on locks out. Each tick services the watchdog and applies what is due,
turn-ons staggered. ENA_N is kept, a high level in STAT. Without a frame for 500 ms every request falls, the interface
locks, the loss is raised and a promotion is cancelled. A lockout ends. FS_PROMOTE is pending with the sections to
keep until its GTC, takes effect with no change pending, and ends the mode; FS_STATUS writes 32 bytes and clears
nothing. -/
def Obligations.LegacyController : Prop :=
  (∀ s, s.leg.active = false → (∀ w, exec (.legacyFrame w) s = .next s) ∧ (∀ c w, exec (.legacyInvalidFrame c w) s = .next s)
      ∧ exec .legacyTick s = .next s ∧ (∀ b, exec (.enaNEdge b) s = .next s) ∧ exec .legacyComloss s = .next s)
    ∧ (∀ s w v x, s.leg.active = true → v = w % 2 ^ 32 → x = { s with hif := { s.hif with readData := (leBytes 4 (legReply s)).reverse } } →
        (v % 256 = legCheck v → exec (.legacyFrame w) s = .next (legExecute v x))
        ∧ (v % 256 ≠ legCheck v → exec (.legacyFrame w) s = .next (legInvalid 2 x))
        ∧ (v % 256 ≠ legCheck v → exec (.legacyInvalidFrame 32 w) s = .next (legInvalid 2 x))
        ∧ (v % 256 = legCheck v → exec (.legacyInvalidFrame 32 w) s = .next s)
        ∧ (∀ c, c ≠ 32 → exec (.legacyInvalidFrame c w) s = .next (legInvalid 1 x)))
    ∧ (∀ s c, legInvalid c s = { raiseLimited 480000000 0x0E43 0 0 0 0 [] 4 4 { s with leg := { s.leg with
            stat := setBit s.leg.stat 6 true, framesBad := satInc 32 s.leg.framesBad } } with
        leg := { s.leg with stat := setBit s.leg.stat 6 true, framesBad := satInc 32 s.leg.framesBad, reply := some (0x7F, c) } })
    ∧ (∀ s w a v u held, a = bits w 24 7 → v = bits w 8 16 → u = confirmByFrame { s with leg := { s.leg with
            keyHi := none, pwdHi := none, framesOk := satInc 32 s.leg.framesOk, frameAt := s.gtc, armed := true } } →
        held = (a = 0x02 ∨ a = 0x08 ∨ a = 0x0A ∨ a = 0x0B ∨ 0x10 ≤ a ∧ a < 0x20) →
        (bit w 31 = true → u.leg.promoting = true → held → legExecute w s = { u with leg := { u.leg with reply := some (0x7F, 3) } })
        ∧ (bit w 31 = true → u.leg.lockEnd ≠ none → (a = 0x38 ∨ a = 0x39) → legExecute w s = { u with leg := { u.leg with reply := some (0x7F, 4) } })
        ∧ (∀ t, bit w 31 = true → ¬ (u.leg.promoting = true ∧ held) → ¬ (u.leg.lockEnd ≠ none ∧ (a = 0x38 ∨ a = 0x39)) → t = legWrite a v s.leg.keyHi s.leg.pwdHi u →
          (a = 0x3E → v = 0xA5C3 → legExecute w s = t)
          ∧ (¬ (a = 0x3E ∧ v = 0xA5C3) → legExecute w s = { t with leg := { t.leg with reply := some (a, legValue a t) } }))
        ∧ (∀ x t, bit w 31 = false → (x, t) = legRead a u → legExecute w s = { t with leg := { t.leg with reply := some (a, x) } }))
    ∧ (∀ s v key pwd, legWrite 0x02 v key pwd s = legOutWrite v s.gtc s ∧ legWrite 0x09 v key pwd s = { s with leg := { s.leg with inten := v % 512 } }
        ∧ legWrite 0x38 v key pwd s = { s with leg := { s.leg with keyHi := some v }, sec := { s.sec with legacyPwd := true } }
        ∧ legWrite 0x3A v key pwd s = { s with leg := { s.leg with unlocked := false } }
        ∧ (v = 0xA5C3 → legWrite 0x3E v key pwd s = legSoftReset s) ∧ (v ≠ 0xA5C3 → legWrite 0x3E v key pwd s = s))
    ∧ (∀ s v key pwd u, u = { s with sec := { s.sec with legacyPwd := true } } →
        (∀ h, key = some h → h * 65536 + v = legPassword s → legWrite 0x39 v key pwd s = { u with leg := { u.leg with unlocked := true, fails := 0, lockLen := 0 } })
        ∧ ((∀ h, key = some h → h * 65536 + v ≠ legPassword s) → legWrite 0x39 v key pwd s = legFail u)
        ∧ (s.leg.unlocked = true → legWrite 0x3C v key pwd s = { u with leg := { u.leg with pwdHi := some v } })
        ∧ (s.leg.unlocked = false → legWrite 0x3C v key pwd s = { u with leg := { u.leg with pwdHi := none } })
        ∧ ((pwd = none ∨ s.leg.unlocked = false) → legWrite 0x3D v key pwd s = u)
        ∧ (∀ h x, pwd = some h → s.leg.unlocked = true → x = h * 65536 + v →
          (x = 0xFFFFFFFF → legWrite 0x3D v key pwd s = u)
          ∧ (x ≠ 0xFFFFFFFF → s.pwr.bow = true → legWrite 0x3D v key pwd s = { u with leg := { u.leg with pwdNew := some x } })
          ∧ (x ≠ 0xFFFFFFFF → s.pwr.bow = false → legWrite 0x3D v key pwd s = { u with leg := { u.leg with password := x, pwdNew := none } })))
    ∧ (∀ s a v key pwd, (a = 0x08 ∨ a = 0x0A ∨ a = 0x0B ∨ 0x10 ≤ a ∧ a < 0x20 ∨ a = 0x30 ∨ 0x70 ≤ a) → s.leg.unlocked = false → legWrite a v key pwd s = s)
    ∧ (∀ s v key pwd, s.leg.unlocked = true → legWrite 0x08 v key pwd s = legFollow { s with leg := { s.leg with mask := v } }
        ∧ legWrite 0x0A v key pwd s = { s with leg := { s.leg with stagger := v % 256 } } ∧ legWrite 0x0B v key pwd s = legCfg v s
        ∧ legWrite 0x30 v key pwd s = { s with leg := { s.leg with calgain := v % 4096 } } ∧ legWrite 0x70 v key pwd s = { s with leg := { s.leg with xctl := v % 4 } }
        ∧ legWrite 0x71 v key pwd s = { s with leg := { s.leg with xaddr := v } } ∧ legWrite 0x72 v key pwd s = { s with leg := { s.leg with xlo := v } }
        ∧ legWrite 0x73 v key pwd s = windowWrite v s
        ∧ ∀ k, k < 16 → legWrite (0x10 + k) v key pwd s = { s with leg := { s.leg with dly := s.leg.dly.set k v } })
    ∧ (∀ s n len, n = min 255 (s.leg.fails + 1) → len = (if s.leg.lockLen = 0 then 30 else min 3600 (2 * s.leg.lockLen)) →
        (n < 5 → legFail s = raise0 0x0E41 0 (leBytes 1 n ++ [0, 0, 0] ++ leBytes 4 0) { s with leg := { s.leg with fails := n, attemptsBad := satInc 32 s.leg.attemptsBad } })
        ∧ (5 ≤ n → legFail s = raise0 0x0E41 0 (leBytes 1 n ++ [0, 0, 0] ++ leBytes 4 len) { s with leg := { s.leg with
            fails := n, attemptsBad := satInc 32 s.leg.attemptsBad, lockLen := len, lockEnd := some (s.gtc + len * 480000000) } }))
    ∧ (∀ s, legRead 0x04 s = (legValue 4 s, { s with leg := { s.leg with stat := 0 } }) ∧ legRead 0x05 s = (s.leg.ocflt, { s with leg := { s.leg with ocflt := 0 } })
        ∧ legRead 0x06 s = (s.leg.otflt, { s with leg := { s.leg with otflt := 0 } }) ∧ legRead 0x07 s = (s.leg.olflt, { s with leg := { s.leg with olflt := 0 } })
        ∧ ∀ a, a ≠ 4 → a ≠ 5 → a ≠ 6 → a ≠ 7 → (a < 0x70 ∨ s.leg.unlocked = false) → legRead a s = (legValue a s, s))
    ∧ (∀ s t due offs ons wait u v, s.leg.active = true → t = toInstant (max (s.leg.tick / 480000 * 480000 + 480000) (s.gtc / 480000 * 480000)) s →
        due = t.leg.pend.filter (fun x => decide (x.2.2 ≤ t.gtc)) → offs = due.filter (fun x => !x.2.1) →
        ons = (List.range 16).filter (fun k => (due.any fun x => x.2.1 && x.1 == k) && !(offs.any fun x => x.1 == k)) →
        u = offs.foldl (fun w x => legApply x.1 false w) { t with
          leg := { t.leg with tick := t.gtc, queue := t.leg.queue.filter fun k => !(offs.any fun x => x.1 == k), pend := t.leg.pend.filter fun x => decide (t.gtc < x.2.2) }
          isl := { t.isl with wdtServed := t.gtc } } →
        v = (ons.filter (legHeld u)).foldl (fun w k => { w with leg := { w.leg with want := setBit w.leg.want k true } }) u → wait = ons.filter (fun k => !legHeld v k) →
        exec .legacyTick s = .next (legSticky (legTurns { v with leg := { v.leg with
          stagAt := if v.leg.queue.isEmpty then v.gtc else v.leg.stagAt, queue := v.leg.queue ++ wait } } 16)))
    ∧ (∀ s, legTurns s 0 = s ∧ ∀ n, ((s.leg.queue = [] ∨ s.gtc < s.leg.stagAt) → legTurns s (n + 1) = s)
        ∧ ∀ k r, s.leg.queue = k :: r → s.leg.stagAt ≤ s.gtc → legTurns s (n + 1)
          = legTurns (legApply k true { s with leg := { s.leg with queue := r, stagAt := s.gtc + s.leg.stagger * 480000 } }) n)
    ∧ (∀ s hi, s.leg.active = true → exec (.enaNEdge hi) s
        = .next (legFollow { s with leg := { s.leg with enaHigh := hi, stat := setBit s.leg.stat 7 (bit s.leg.stat 7 || hi) } }))
    ∧ (∀ s, s.leg.active = true → s.leg.armed = false → exec .legacyComloss s = .next s)
    ∧ (∀ s t u, s.leg.active = true → s.leg.armed = true → t = toInstant (s.leg.frameAt + 240000000) s →
        u = raise0 0x0E40 0 (leBytes 2 (legOutst t)) ((List.range 16).foldl (fun w k => legApply k false w) { t with leg := { t.leg with
            pend := [], queue := [], out := 0, unlocked := false, keyHi := none, pwdHi := none, armed := false
            stat := setBit t.leg.stat 0 true, comLosses := satInc 32 t.leg.comLosses } }) →
        (u.leg.promoting = false → exec .legacyComloss s = .next u)
        ∧ (u.leg.promoting = true → exec .legacyComloss s = .next (finishDeferred 0x0E00 0 { status := 0x0E01 } { u with leg := { u.leg with promoting := false } })))
    ∧ (∀ s, (s.leg.lockEnd = none → exec .legacyLockoutEnd s = .next s)
        ∧ (∀ t, s.leg.lockEnd = some t → exec .legacyLockoutEnd s = .next { toInstant t s with leg := { (toInstant t s).leg with lockEnd := none } }))
    ∧ (∀ s d b wd bad, passes 0x0E00 d s = true → b = blockOf s d → wd = u32 b 4 →
        bad = (u16 b 2 ≠ 0 ∨ wd ≠ 0 ∧ (wd < 10 ∨ 60000 < wd) ∨ wd = 0 ∧ s.isl.locked = true) →
        (s.leg.promoting = true → exec (.fsPromote d) s = .next (fail d stState s))
        ∧ (s.leg.promoting = false → bad → exec (.fsPromote d) s = .next (fail d stBadParam s))
        ∧ (s.leg.promoting = false → ¬ bad → (freeIndices s).length < popCount (u16 b 0) → exec (.fsPromote d) s = .next (fail d stNoResource s))
        ∧ (s.leg.promoting = false → ¬ bad → popCount (u16 b 0) ≤ (freeIndices s).length → exec (.fsPromote d) s
          = .next (defer d 0x0E00 0 (takeEffect s.gtc (u64 b 8)) [] (u16 b 0 + 65536 * wd) { s with leg := { s.leg with promoting := true } })))
    ∧ (∀ s, deferredOf s 0x0E00 0 = none → exec .promotionTakeEffect s = .next s)
    ∧ (∀ s x, deferredOf s 0x0E00 0 = some x →
        ((s.leg.pend ≠ [] ∨ s.leg.queue ≠ []) → exec .promotionTakeEffect s = .next s)
        ∧ (s.leg.pend = [] → s.leg.queue = [] → exec .promotionTakeEffect s = .next (legPromote x (toInstant (max x.due (boundaryAt s.gtc)) s))))
    ∧ (∀ s x, (legPromote x s).leg.active = false ∧ (legPromote x s).boot.mode = .native ∧ (legPromote x s).isl.wdtEn = decide (x.arg / 65536 ≠ 0)
        ∧ (legPromote x s).leg.promoting = false)
    ∧ (∀ s x, x.arg % 65536 = 0 → ∀ o ∈ (legPromote x s).objs, o.idx < legBase)
    ∧ (∀ s d l, passes 0x0E01 d s = true → l = s.leg → exec (.fsStatus d) s = .next (writeBack d (leBytes 2 l.out ++ leBytes 2 (legOutst s) ++ leBytes 2 l.mask
          ++ leBytes 2 (l.stat + if l.promoting then 256 else 0) ++ satBytes 4 l.framesOk ++ satBytes 4 l.framesBad ++ satBytes 4 l.comLosses ++ satBytes 4 l.attemptsBad
          ++ List.replicate 8 0) {} s))

/-- SEC_INFO writes 32 bytes with the status words. SEC_CHALLENGE makes a challenge of 5 s for its ring, in place of the
one before; a zeroized device, a slot without a key and a ring with a session refuse it. SEC_OPEN refuses an unknown
challenge, counts a wrong answer against the slot, and with the right answer opens the session and resets the
failures. SEC_CLOSE closes the session under which it was tagged and starts the writing of the latency records where
that session has loaded the configuration, which the completion of a NOZZLE’s or ROW’s CREATE, SET_PARAMS or ENABLE
marks; where the session is closed already it only completes. SEC_PROVISION loads slot 0 once; SEC_KEY_LOAD unwraps a
key with the session’s; SEC_KEY_ERASE erases; SEC_POLICY sets the role of untagged descriptors. An update erases the
header of the other slot, takes writes within it and makes it the candidate when good. While a supply warning runs
such a write waits with its descriptor. SEC_DEBUG_UNLOCK opens a scope. Nonce and identifier of a challenge are free
values (log 7), its byte in SEC_SESS the lowest free one (log 35). -/
def Obligations.SecurityDescriptors : Prop :=
  (∀ s d, passes 0x0F00 d s = true → exec (.secInfo d) s = .next (writeBack d (leBytes 4 (secStat s) ++ leBytes 4 (secSlots s) ++ leBytes 4 (secFw s)
        ++ leBytes 4 (secSess s) ++ leBytes 8 Config.uid.toNat ++ List.replicate 8 0) {} s))
    ∧ (∀ s d b r sl q bad, passes 0x0F01 d s = true → b = blockOf s d → r = u8 b 0 → sl = u8 b 1 → q = u8 b 2 →
        bad = (r = 0 ∨ 3 < r ∨ 8 ≤ sl ∨ slotRole sl ≠ r ∨ 16 ≤ q ∨ u16 b 4 < 10 ∨ 3600 < u16 b 4 ∨ zeroBytes b 3 1 = false ∨ zeroBytes b 6 2 = false
          ∨ zeroBytes b 52 12 = false) →
        (zeroizeBars s = true → exec (.secChallenge d) s = .next (fail d stZeroized s))
        ∧ (zeroizeBars s = false → bad → exec (.secChallenge d) s = .next (fail d stBadParam s))
        ∧ (zeroizeBars s = false → ¬ bad →
          ((keySlot s sl).key = none → exec (.secChallenge d) s = .next (fail d 0x0F08 s))
          ∧ (∀ t, (keySlot s sl).key ≠ none → (keySlot s sl).lockEnd = some t → exec (.secChallenge d) s
            = .next (failWith d 0x0F05 (leBytes 4 ((t - s.gtc + 479999999) / 480000000)) s))
          ∧ ((keySlot s sl).key ≠ none → (keySlot s sl).lockEnd = none → sessionOn s q ≠ none → exec (.secChallenge d) s = .next (fail d stState s))
          ∧ ((keySlot s sl).key ≠ none → (keySlot s sl).lockEnd = none → sessionOn s q = none → ∃ u v nd c, (nd, u) = takeNonce s ∧ v = takeFree u
            ∧ c = ({
              sq := q, role := r, slot := sl, ttl := u16 b 4, sid := v.1 % 2 ^ 32, expires := s.gtc + 2400000000,
              ctx := leBytes 4 (v.1 % 2 ^ 32) ++ leBytes 1 r ++ leBytes 1 sl ++ leBytes 1 q ++ slice b 8 16 ++ nd ++ leBytes 8 Config.uid.toNat } : Challenge)
            ∧ exec (.secChallenge d) s = .next (writeBack d (b.take 24 ++ nd ++ leBytes 4 c.sid ++ leBytes 8 Config.uid.toNat ++ List.replicate 12 0) {}
                { v.2 with sec := { v.2.sec with challenges := (v.2.sec.challenges.filter fun x => x.sq != q) ++ [c] } }))))
    ∧ (∀ s d b, passes 0x0F02 d s = true → b = blockOf s d →
        (zeroBytes b 4 12 = false → exec (.secOpen d) s = .next (fail d stBadParam s))
        ∧ (zeroBytes b 4 12 = true → (∀ c ∈ s.sec.challenges, c.sid = u32 b 0 → c.expires ≤ s.gtc) → exec (.secOpen d) s = .next (fail d 0x0F06 s))
        ∧ (∀ c u k, zeroBytes b 4 12 = true → s.sec.challenges.find? (fun c => c.sid == u32 b 0 && decide (s.gtc < c.expires)) = some c →
          u = { s with sec := { s.sec with challenges := s.sec.challenges.erase c } } → k = (keySlot s c.slot).key →
          (∀ t, (keySlot s c.slot).lockEnd = some t → exec (.secOpen d) s = .next (failWith d 0x0F05 (leBytes 4 ((t - s.gtc + 479999999) / 480000000)) u))
          ∧ ((keySlot s c.slot).lockEnd = none → (k = none ∨ slice b 16 32 ≠ hmac (k.getD []) (asciiHost ++ c.ctx)) →
            exec (.secOpen d) s = .next (fail d 0x0F04 (authFail c.slot u)))
          ∧ (∀ key, (keySlot s c.slot).lockEnd = none → k = some key → slice b 16 32 = hmac key (asciiHost ++ c.ctx) →
            (sessionRoom u c = false → exec (.secOpen d) s = .next (fail d 0x0F07 u))
            ∧ (sessionRoom u c = true → ∃ x, x = ({
                  idx := sessionIndex u, sq := c.sq, role := c.role, slot := c.slot, sid := c.sid, kTag := sessionKey key c.ctx 1,
                  kWrap := sessionKey key c.ctx 2, ttl := c.ttl, lastTagged := s.gtc } : Session)
              ∧ exec (.secOpen d) s = .next (raise0 0x0F40 0 ([BitVec.ofNat 8 c.role, BitVec.ofNat 8 c.slot, BitVec.ofNat 8 c.sq, 0] ++ leBytes 4 c.sid)
                  (writeBack d (b.take 48 ++ hmac key (asciiDev ++ c.ctx)) {}
                    (updSlot c.slot (fun k => { k with fails := 0, nextLock := 30 }) { u with sec := { u.sec with sessions := u.sec.sessions ++ [x] } })))))))
    ∧ (∀ s c, sessionRoom s c = true ↔ s.sec.sessions.length < 4 ∧ sessionOn s c.sq = none ∧ (c.role = 3 → ∀ x ∈ s.sec.sessions, x.role ≠ 3))
    ∧ (∀ s d, passes 0x0F03 d s = true →
        (dTagLen d ≠ 16 → exec (.secClose d) s = .next (fail d stBadParam s))
        ∧ (dTagLen d = 16 → (∀ x, sessionOn s d.sq = some x → (startedOf s d).sid ≠ some x.sid) → exec (.secClose d) s = .next (okWith d [0] s))
        ∧ (∀ x u, dTagLen d = 16 → sessionOn s d.sq = some x → (startedOf s d).sid = some x.sid
          → u = raise0 0x0F41 0 ([0, 0, 0, 0] ++ leBytes 4 x.sid) { s with sec := { s.sec with sessions := s.sec.sessions.filter fun y => y.sq != d.sq } } →
            exec (.secClose d) s = .next (okWith d [1] (if x.loaded then latSave u else u))))
    ∧ (∀ s st ty x i, st.sid = some i → x.sid = i → sessionOn s st.desc.sq = some x →
        (sessionOn (loadMark st ty s) st.desc.sq).map (·.loaded) = some (x.loaded || ty == tyNozzle || ty == tyRow))
    ∧ (∀ s d w, (s.pwr.bow = true → mramWrite d w s = { s with pwr := { s.pwr with mramWait := s.pwr.mramWait ++ [(d, w)] } })
        ∧ (s.pwr.bow = false → mramWrite d w s = mramApply d w s))
    ∧ (∀ s d i k, (zeroizeBars s = true → mramApply d (.key i (some k)) s = fail d stZeroized s)
        ∧ (zeroizeBars s = false → mramApply d (.key i (some k)) s = ok d (updSlot i (fun x => { x with key := some k }) s))
        ∧ mramApply d (.key i none) s = ok d (updSlot i (fun x => { x with key := none }) s)
        ∧ mramApply d (.policy i) s = ok d { s with sec := { s.sec with untagged := i } })
    ∧ (∀ s d held, passes 0x0F04 d s = true → held = ((keySlot s 0).key ≠ none ∨ ∃ x ∈ s.pwr.mramWait, ownerKey x.2 = true) →
        (zeroizeBars s = true → exec (.secProvision d) s = .next (fail d stZeroized s))
        ∧ (zeroizeBars s = false → held → exec (.secProvision d) s = .next (fail d 0x0F09 s))
        ∧ (zeroizeBars s = false → ¬ held → exec (.secProvision d) s = .next (mramWrite d (.key 0 (some (blockOf s d))) s)))
    ∧ (∀ s d b bad, passes 0x0F05 d s = true → b = blockOf s d → bad = (8 ≤ u8 b 0 ∨ zeroBytes b 1 7 = false) →
        (zeroizeBars s = true → exec (.secKeyLoad d) s = .next (fail d stZeroized s))
        ∧ (zeroizeBars s = false → bad → exec (.secKeyLoad d) s = .next (fail d stBadParam s))
        ∧ (zeroizeBars s = false → ¬ bad → (∀ w, (startedOf s d).wrap = some w → keyUnwrap w (slice b 8 40) = none) → exec (.secKeyLoad d) s = .next (fail d 0x0F0A s))
        ∧ (∀ w k, zeroizeBars s = false → ¬ bad → (startedOf s d).wrap = some w → keyUnwrap w (slice b 8 40) = some k →
          exec (.secKeyLoad d) s = .next (mramWrite d (.key (u8 b 0) (some k)) s)))
    ∧ (∀ s d i, passes 0x0F06 d s = true → i = u8 d.bytes 16 →
        (0 < i → i < 8 → exec (.secKeyErase d) s = .next (mramWrite d (.key i none) s))
        ∧ ((i = 0 ∨ 8 ≤ i) → exec (.secKeyErase d) s = .next (fail d stBadParam s)))
    ∧ (∀ s d, passes 0x0F07 d s = true →
        (u8 d.bytes 16 < 2 → exec (.secPolicy d) s = .next (mramWrite d (.policy (u8 d.bytes 16)) s))
        ∧ (2 ≤ u8 d.bytes 16 → exec (.secPolicy d) s = .next (fail d stBadParam s)))
    ∧ (∀ s d i b, passes 0x0F08 d s = true → i = u8 d.bytes 16 → b = decide (i = 1) →
        (2 ≤ i → exec (.secFwBegin d) s = .next (fail d stBadParam s))
        ∧ (i < 2 → b = s.sec.running → s.boot.mode ≠ .bareKing → exec (.secFwBegin d) s = .next (fail d stState s))
        ∧ (i < 2 → (b ≠ s.sec.running ∨ s.boot.mode = .bareKing) → exec (.secFwBegin d) s = .next (mramWrite d (.fwErase b) { s with sec := { s.sec with updating := some b } })))
    ∧ (∀ s d, mramApply d (.fwErase true) s = ok d { s with sec := { s.sec with
          fwB := { s.sec.fwB with factory := false, bytes := memWriteN s.sec.fwB.bytes 0 (List.replicate 256 0) }
          updating := some true, candidate := if s.sec.candidate = some true then none else s.sec.candidate } }
        ∧ mramApply d (.fwErase false) s = ok d { s with sec := { s.sec with
          fwA := { s.sec.fwA with factory := false, bytes := memWriteN s.sec.fwA.bytes 0 (List.replicate 256 0) }
          updating := some false, candidate := if s.sec.candidate = some false then none else s.sec.candidate } })
    ∧ (∀ s d, passes 0x0F09 d s = true →
        (s.sec.updating = none → exec (.secFwWrite d) s = .next (fail d stState s))
        ∧ (∀ b, s.sec.updating = some b → fwSize < dOffset d + dBlockLen d → exec (.secFwWrite d) s = .next (fail d stBadParam s))
        ∧ (∀ b, s.sec.updating = some b → dOffset d + dBlockLen d ≤ fwSize → exec (.secFwWrite d) s = .next (mramWrite d (.fwData b (dOffset d) (blockOf s d)) s)))
    ∧ (∀ s d o bs, mramApply d (.fwData true o bs) s = ok d { s with sec := { s.sec with fwB := { s.sec.fwB with bytes := memWriteN s.sec.fwB.bytes o bs } } }
        ∧ mramApply d (.fwData false o bs) s = ok d { s with sec := { s.sec with fwA := { s.sec.fwA with bytes := memWriteN s.sec.fwA.bytes o bs } } })
    ∧ (∀ s d, passes 0x0F0A d s = true →
        (s.sec.updating = none → exec (.secFwCommit d) s = .next (fail d stState s))
        ∧ (∀ b, s.sec.updating = some b → exec (.secFwCommit d) s = .next (mramWrite d (.fwCommit b) s)))
    ∧ (∀ s d b f, f = (if b then s.sec.fwB else s.sec.fwA) →
        (∀ e, fwBad s f = some e → mramApply d (.fwCommit b) s = fail d e s)
        ∧ (fwBad s f = none → mramApply d (.fwCommit b) s = okWith d (leBytes 4 (fwVersion f)) (raise0 0x0F45 0 ([if b then 1 else 0, 0, 0, 0] ++ leBytes 4 (fwVersion f)) { s with
            sec := { s.sec with updating := none, candidate := some b }
            boot := { s.boot with tried := false, bootCount := if s.boot.mode = .bareKing then 0 else s.boot.bootCount } })))
    ∧ (∀ s d c, passes 0x0F0B d s = true → c = u8 d.bytes 16 →
        ((c = 1 ∨ c = 2) → exec (.secDebugUnlock d) s = .next (ok d (raise0 0x0F47 0 (leBytes 1 c) { s with sec := { s.sec with
            debugOpen := true, debugScopes := if s.sec.debugScopes.contains c then s.sec.debugScopes else s.sec.debugScopes ++ [c] } })))
        ∧ (c ≠ 1 → c ≠ 2 → exec (.secDebugUnlock d) s = .next (fail d stBadParam s)))

/-- A challenge goes at its expiry; a session closes after its idle time, and after three wrong tags with a failure of its
slot; a lockout ends at its time. A failure is counted and raised; the fifth locks the slot out. Zeroization started
by the descriptor or by the pin closes every session and drops the challenges, once, and a key load under way
completes ZEROIZED; the descriptor is pending. When the erase is done no slot holds a key, no debug scope is open, and
the legacy password is back at its default, with the event in the log. ZEROIZE_N high ends the pin’s level. -/
def Obligations.SecurityTimersAndZeroization : Prop :=
  (∀ s q, s.sec.challenges.find? (fun c => c.sq == q) = none → exec (.challengeExpiry q) s = .next s)
    ∧ (∀ s q c, s.sec.challenges.find? (fun c => c.sq == q) = some c → exec (.challengeExpiry q) s
        = .next { toInstant c.expires s with sec := { s.sec with challenges := s.sec.challenges.erase c } })
    ∧ (∀ s q, sessionOn s q = none → exec (.sessionIdleTimeout q) s = .next s ∧ exec (.sessionTagFailures q) s = .next s)
    ∧ (∀ s q r x u, sessionOn s q = some x → r ≠ 6 → u = raise0 0x0F41 0 (leBytes 4 r ++ leBytes 4 x.sid)
          { s with sec := { s.sec with sessions := s.sec.sessions.filter fun y => y.sq != q } } → sessionClose q r s = if x.loaded = true then latSave u else u)
    ∧ (∀ s q x, sessionOn s q = some x →
        exec (.sessionIdleTimeout q) s = .next (sessionClose q 1 (toInstant (x.lastTagged + x.ttl * 480000000) s))
        ∧ (x.badRun < 3 → exec (.sessionTagFailures q) s = .next s)
        ∧ (3 ≤ x.badRun → exec (.sessionTagFailures q) s = .next (authFail x.slot (sessionClose q 3 s))))
    ∧ (∀ s k, ((keySlot s k).lockEnd = none → exec (.secLockoutEnd k) s = .next s)
        ∧ (∀ t, (keySlot s k).lockEnd = some t → exec (.secLockoutEnd k) s = .next (updSlot k (fun x => { x with lockEnd := none }) (toInstant t s))))
    ∧ (∀ s k u x, k < s.sec.slots.length → x = keySlot s k →
        u = raise0 0x0F42 0 (leBytes 1 k ++ satBytes 1 (x.fails + 1)) (updSlot k (fun x => { x with fails := x.fails + 1 }) s) →
        ((x.fails < 4 ∨ x.lockEnd ≠ none) → authFail k s = u)
        ∧ (4 ≤ x.fails → x.lockEnd = none → authFail k s = raise0 0x0F43 0 (leBytes 4 k ++ leBytes 4 x.nextLock) (updSlot k (fun x => { x with
            lockLen := x.nextLock, lockEnd := some (s.gtc + x.nextLock * 480000000), nextLock := min 3600 (2 * x.nextLock) }) u)))
    ∧ (∀ s d, passes 0x0F0C d s = true → exec (.secZeroize d) s = .next (defer d 0x0F0C 0 0 [] 0 (zeroizeStart 1 s)))
    ∧ (∀ s, exec .zeroizePin s = .next (zeroizeStart 0 { s with isl := { s.isl with zeroizePin := true } }))
    ∧ (∀ s, exec .zeroizeNHigh s = .next { s with isl := { s.isl with zeroizePin := false } })
    ∧ (∀ s c, s.sec.zeroizing ≠ none → zeroizeStart c s = s)
    ∧ (∀ s c, s.sec.zeroizing = none → (zeroizeStart c s).sec.zeroizing = some c ∧ (zeroizeStart c s).sec.sessions = [] ∧ (zeroizeStart c s).sec.challenges = []
        ∧ (zeroizeStart c s).objs = s.objs)
    ∧ (∀ s d k b c, s.sec.zeroizing = none → s.sec.sessions = [] → s.pwr.mramWait = [(d, .key k (some b))] →
        zeroizeStart c s = { fail d stZeroized { s with sec := { s.sec with zeroizing := some c }, pwr := { s.pwr with mramWait := [] } } with
          sec := { s.sec with zeroizing := some c, challenges := [] } })
    ∧ (∀ s, s.sec.zeroizing = none → exec .zeroizeEraseDone s = .next s)
    ∧ (∀ s c u, s.sec.zeroizing = some c → u = logWrite 0x0F44 0 0 0 (leBytes 1 c) { s with
          sec := { s.sec with zeroizing := none, debugScopes := [], slots := s.sec.slots.map fun k => { k with key := none } }
          leg := { s.leg with password := 0x02160000, pwdNew := none } } →
        exec .zeroizeEraseDone s = .next (finishDeferred 0x0F0C 0 {} (raisePlain u.gtc 0x0F44 0 0 0 (leBytes 1 c) u)))

/-- WDT_ARM starts the counter with token 0x5A; WDT_DISARM stops it unless the set-up lock is closed. A service with the
right token outside the window restarts the counter and steps the token by 0x3B; another is BAD_SERVICE, and the
second in a row resets the device. An expiry, whose instant within ±5 % is free (log 7), logs and resets. ESTOP_N low
latches the stop, empties HOLD and raises class 2; 10 ms after its rise the condition ends. A debug halt is class 2;
the last resume ends it. ISL_FAULT_CLEAR fails with the first condition that persists, else is pending until the
boundary, where it clears both latches. ISL_RESET needs 0xA5 and resets 1 ms later. ISL_LOG_READ keeps the log and
clears LOG_WRAPPED. At the end of HOLD no line is held. -/
def Obligations.WatchdogEstopAndFaultClear : Prop :=
  (∀ s, s.isl.locked = false → hostBarred s = false →
        (s.isl.wdtEn = false → s.boot.mode = .native → exec .wdtArm s = .next { s with isl := { s.isl with
          wdtEn := true, wdtToken := 0x5A, wdtRunning := true, wdtServed := s.gtc, wdtBad := 0
          wdtPausedAt := if s.isl.wdtDebugPause = true ∧ s.isl.halted ≠ [] then some s.gtc else none } })
        ∧ (s.isl.wdtEn = false → s.boot.mode ≠ .native → exec .wdtArm s = .next { s with isl := { s.isl with wdtEn := true, wdtToken := 0x5A } })
        ∧ (s.isl.wdtEn = true → exec .wdtArm s = .next s)
        ∧ exec .wdtDisarm s = .next { s with isl := { s.isl with wdtEn := false, wdtRunning := false } })
    ∧ (∀ s, s.isl.locked = true ∨ hostBarred s = true → exec .wdtArm s = .next s ∧ exec .wdtDisarm s = .next s)
    ∧ (∀ s d, passes 0x0100 d s = true →
        (s.boot.mode = .fs216 → exec (.islWdtService d) s = .next (fail d stModeRefused s))
        ∧ (s.boot.mode ≠ .fs216 → s.isl.wdtEn = false → exec (.islWdtService d) s = .next (fail d 0x0103 s))
        ∧ (s.boot.mode ≠ .fs216 → s.isl.wdtEn = true → u8 d.bytes 16 = s.isl.wdtToken → s.isl.wdtServed + wdtWindowTicks s ≤ s.gtc →
            exec (.islWdtService d) s = .next (ok d { s with isl := { s.isl with
              wdtToken := (s.isl.wdtToken + 0x3B) % 256, wdtServed := s.gtc, wdtBad := 0, wdtPausedAt := s.isl.wdtPausedAt.map fun _ => s.gtc } }))
        ∧ (s.boot.mode ≠ .fs216 → s.isl.wdtEn = true → u8 d.bytes 16 ≠ s.isl.wdtToken ∨ s.gtc < s.isl.wdtServed + wdtWindowTicks s →
            ∃ t, t = fail d 0x0102 (raise0 0x0153 0 (leBytes 1 (u8 d.bytes 16) ++ leBytes 1 s.isl.wdtToken)
              { s with isl := { s.isl with badService := true, wdtBad := s.isl.wdtBad + 1 } })
            ∧ (s.isl.wdtBad = 0 → exec (.islWdtService d) s = .next t)
            ∧ (1 ≤ s.isl.wdtBad → exec (.islWdtService d) s = .next (dieReset causeWatchdog 0 0 (logWrite 0x0154 3 0 0 [] t)))))
    ∧ (∀ s, s.isl.wdtRunning = false ∨ s.isl.wdtPausedAt ≠ none → exec .watchdogExpiry s = .next s)
    ∧ (∀ s, s.isl.wdtRunning = true → s.isl.wdtPausedAt = none → ∃ k, k ≤ s.isl.wdtTimeout * msTicks / 10 ∧ exec .watchdogExpiry s
        = .next (dieReset causeWatchdog 0 0 (logWrite 0x0154 3 0 0 []
          (toInstant (s.isl.wdtServed + s.isl.wdtTimeout * msTicks * 95 / 100 + k) { s with freeCount := s.freeCount + 1 }))))
    ∧ (∀ s, s.isl.estopPin = true → exec .estopNLow s = .next s
        ∧ exec .estopNHigh s = .next { s with isl := { s.isl with estopPin := false, estopHighAt := some s.gtc } })
    ∧ (∀ s, s.isl.estopPin = false → exec .estopNHigh s = .next s ∧ exec .estopNLow s = .next (class2 0x0151 0 [] (refreshAll
        { s with isl := { s.isl with estopPin := true, estopLatch := true, estopHighAt := none, hold := [] } })))
    ∧ (∀ s, s.isl.estopHighAt = none → exec .estopReleaseTimer s = .next s)
    ∧ (∀ s t, s.isl.estopHighAt = some t → exec .estopReleaseTimer s = .next (raise0 0x0152 0 [] (conditionEnded 0x0151
        { toInstant (t + 10 * msTicks) s with isl := { s.isl with estopHighAt := none } })))
    ∧ (∀ s e, e < 24 → e ∉ s.isl.halted → 2 ∈ s.sec.debugScopes → exec (.debugHalt e) s
        = .next (class2 0x0158 0 (leBytes 1 e) (refreshAll (wdtPauseSync { s with isl := { s.isl with halted := s.isl.halted ++ [e], safeDebug := true, hold := [] } }))))
    ∧ (∀ s e, (24 ≤ e ∨ e ∈ s.isl.halted ∨ 2 ∉ s.sec.debugScopes) → exec (.debugHalt e) s = .next s)
    ∧ (∀ s on, on = (s.isl.wdtDebugPause = true ∧ s.isl.halted ≠ []) →
        (s.isl.wdtPausedAt = none → on → wdtPauseSync s = { s with isl := { s.isl with wdtPausedAt := some s.gtc } })
        ∧ (∀ t, s.isl.wdtPausedAt = some t → ¬ on → wdtPauseSync s = { s with isl := { s.isl with wdtPausedAt := none, wdtServed := s.isl.wdtServed + (s.gtc - t) } })
        ∧ (s.isl.wdtPausedAt = none → ¬ on → wdtPauseSync s = s) ∧ (s.isl.wdtPausedAt ≠ none → on → wdtPauseSync s = s))
    ∧ (∀ s e, e ∉ s.isl.halted → exec (.engineDebugResume e) s = .next s)
    ∧ (∀ s e, e ∈ s.isl.halted → s.isl.halted.erase e ≠ [] → exec (.engineDebugResume e) s
        = .next { s with isl := { s.isl with halted := s.isl.halted.erase e } })
    ∧ (∀ s e u, s.isl.halted = [e] → u = wdtPauseSync { s with isl := { s.isl with halted := [] } } → exec (.engineDebugResume e) s
        = .next (refreshAll (conditionEnded 0x0158 { u with isl := { u.isl with safeDebug := false } })))
    ∧ (∀ s, exec .pdieLinkLoss s = .next (class2 0x015B 0 [] s) ∧ exec .pdieLinkRestored s = .next (conditionEnded 0x015B s))
    ∧ (∀ s d, passes 0x0101 d s = true →
        (persisting s = [] → exec (.islFaultClear d) s = .next (defer d 0x0101 0 (nextBoundary s.gtc) [] 0 s))
        ∧ (∀ c r, persisting s = c :: r → exec (.islFaultClear d) s = .next (failWith d 0x0101 (leBytes 2 c) s)))
    ∧ (∀ s, deferredOf s 0x0101 0 = none → exec .faultClearTakeEffect s = .next s)
    ∧ (∀ s x, deferredOf s 0x0101 0 = some x →
        (persisting s = [] → exec .faultClearTakeEffect s = .next (completeDeferred x {} (raise0 0x015A 0 (leBytes 2 s.isl.faultCode)
          (refreshAll { toInstant x.due s with isl := { s.isl with
            deviceFault := false, estopLatch := false, safeFault := false, faultCode := 0, faultHandle := 0, conditions := [] } }))))
        ∧ (∀ c r, persisting s = c :: r → exec .faultClearTakeEffect s
            = .next (completeDeferred x { status := 0x0101, result := leBytes 2 c } (toInstant x.due s))))
    ∧ (∀ s d, passes 0x0102 d s = true →
        (u8 d.bytes 16 ≠ 0xA5 → exec (.islReset d) s = .next (fail d stBadParam s))
        ∧ (u8 d.bytes 16 = 0xA5 → exec (.islReset d) s
            = .next (ok d { s with isl := { s.isl with softResetAt := some (s.gtc + msTicks), softCause := causeSoft } })))
    ∧ (∀ s d n f back old start skip es, passes 0x0103 d s = true → n = s.isl.log.length → f = dOffset d → back = (s.isl.logIndex + 2 ^ 32 - f) % 2 ^ 32 →
        old = (f ≠ 0xFFFFFFFF ∧ n < back ∧ back < 2 ^ 31) → (f = 0xFFFFFFFF ∨ old → start = (s.isl.logIndex + 2 ^ 32 - n) % 2 ^ 32) →
        (¬ (f = 0xFFFFFFFF ∨ old) → start = f) → (2 ^ 31 ≤ back → f ≠ 0xFFFFFFFF → skip = n) →
        (back < 2 ^ 31 ∨ f = 0xFFFFFFFF → skip = n - (s.isl.logIndex + 2 ^ 32 - start) % 2 ^ 32) → es = (s.isl.log.drop skip).take (dBlockLen d / 32) → ∃ b : Byte, ∃ r,
        (old → b = 1) ∧ (¬ old → b = 0) ∧ exec (.islLogRead d) s = .next (writeBack d es.flatten { result := leBytes 4 es.length ++ [b] }
          { s with isl := { s.isl with logWrapped := false, logRead := r } }) ∧ s.isl.logRead ≤ r)
    ∧ (∀ s, s.isl.holdActive = false ∨ s.isl.holdEnds = none → exec .holdTimerExpiry s = .next s)
    ∧ (∀ s e, s.isl.holdActive = true → s.isl.holdEnds = some e → exec .holdTimerExpiry s = .next (raise0 0x0159 0 (leBytes 6 (lineMask s.isl.hold)
        ++ leBytes 1 s.isl.holdAdopted) { toInstant e s with isl := { s.isl with
          holdActive := false, hold := [], holdFirst := [], holdEnds := none, holdAdopted := 0
          dispSw := s.isl.dispSw.mapIdx fun k v => if s.isl.hold.contains k then 0 else v } }))

/-- A VDD warning that is not in force completes the latency records being written (log 26), sets BOW, keeps the reading
and the lowest VDD and raises PWR_BOW with 1; in force, it changes nothing. Its end clears BOW and the sustained
condition, raises PWR_BOW with 0 and the lowest VDD, and runs the deferred MRAM writes in their order, but not in
PARK. 100 ms after the crossing a warning still in force is class 2. VIO_F low is class 2 with ESTOP_N low after it;
its recovery ends the condition. VIO_H low is an event, and a detach under the SPI strap or in FS-216 mode. Each VBAT
level of a group is entered and left once, with its event; the warning and the high level change no output, the
lockout those of the group; with VBAT_A back, each solenoid whose gate is open starts anew unless the banks stay off. -/
def Obligations.SupplyMonitors : Prop :=
  (∀ s mv, s.pwr.bow = true → exec (.vddWarning mv) s = .next s)
    ∧ (∀ s mv u, s.pwr.bow = false → u = latWritten s → exec (.vddWarning mv) s = .next (raise0 0x0160 0 ([1, 0, 0, 0] ++ leBytes 4 mv)
        { u with pwr := { u.pwr with bow := true, bowAt := u.gtc, vdd := mv, vddLow := mv, mramOld := some (mramNow u) } }))
    ∧ (∀ s mv low, s.pwr.bow = false → exec (.vddWarningEnd mv low) s = .next s ∧ exec .vddWarningSustained s = .next s)
    ∧ (∀ s mv low l, s.pwr.bow = true → l = min low s.pwr.vddLow → exec (.vddWarningEnd mv low) s
        = .next (mramSavesRun (raise0 0x0160 0 ([0, 0, 0, 0] ++ leBytes 4 l)
          (conditionEnded 0x0161 { storeResume s with pwr := { s.pwr with bow := false, mramOld := none, supplyLow := false, vdd := mv, vddLow := l } }))))
    ∧ (∀ s, (s.boot.mode = .parked → mramSavesRun s = s) ∧ (s.boot.mode ≠ .parked → mramSavesRun s = mramWaitRun (legSavesRun s)))
    ∧ (∀ s, mramWaitRun s = s.pwr.mramWait.foldl (fun u x => mramApply x.1 x.2 u) { s with pwr := { s.pwr with mramWait := [] } })
    ∧ (∀ s, s.pwr.supplyLow = true → exec .vddWarningSustained s = .next s)
    ∧ (∀ s, s.pwr.bow = true → s.pwr.supplyLow = false → exec .vddWarningSustained s = .next (class2 0x0161 0 []
        { toInstant (s.pwr.bowAt + 100 * msTicks) s with pwr := { s.pwr with supplyLow := true } }))
    ∧ (∀ s, s.pwr.viofOk = false → exec .vioFLow s = .next s)
    ∧ (∀ s, s.pwr.viofOk = true → ∃ t, t = class2 0x0165 0 [] { s with pwr := { s.pwr with viofOk := false } }
        ∧ (s.isl.estopPin = true → exec .vioFLow s = .next t)
        ∧ (s.isl.estopPin = false → exec .vioFLow s = .next (class2 0x0151 0 [] (refreshAll
          { t with isl := { t.isl with estopPin := true, estopLatch := true, estopHighAt := none, hold := [] } }))))
    ∧ (∀ s, exec .vioFRecovered s = .next { s with
        pwr := { s.pwr with viofOk := true }, isl := { s.isl with conditions := s.isl.conditions.erase 0x0165 } })
    ∧ (∀ s, exec .vioHRecovered s = .next { s with pwr := { s.pwr with viohOk := true } })
    ∧ (∀ s, s.pwr.viohOk = false → exec .vioHLow s = .next s)
    ∧ (∀ s, s.pwr.viohOk = true → ∃ t, t = raise0 0x0166 0 [] { s with pwr := { s.pwr with viohOk := false } }
        ∧ (linkSpi s = true ∨ s.boot.mode = .fs216 → exec .vioHLow s = .next (detach 4 t))
        ∧ (linkSpi s = false → s.boot.mode ≠ .fs216 → exec .vioHLow s = .next t))
    ∧ (∀ s g mv, s.pwr.vbatUvlo.getD g false = false → g < 4 → exec (.vbatUvloLeave g mv) s = .next s
        ∧ exec (.vbatUvloEnter g mv) s = .next (vbatEvent 0x0163 g 1 mv (vbatOutputs g
          { s with pwr := { s.pwr with vbatUvlo := s.pwr.vbatUvlo.set g true, vbat := s.pwr.vbat.set g (mv / 10) } })))
    ∧ (∀ s g mv, s.pwr.vbatUvlo.getD g false = true → exec (.vbatUvloEnter g mv) s = .next s
        ∧ (g ≠ 0 → exec (.vbatUvloLeave g mv) s = .next (vbatEvent 0x0163 g 0 mv (vbatOutputs g
          { s with pwr := { s.pwr with vbatUvlo := s.pwr.vbatUvlo.set g false, vbat := s.pwr.vbat.set g (mv / 10) } }))))
    ∧ (∀ s mv u, s.pwr.vbatUvlo.getD 0 false = true → u = vbatOutputs 0 { s with pwr := { s.pwr with vbatUvlo := s.pwr.vbatUvlo.set 0 false, vbat := s.pwr.vbat.set 0 (mv / 10) } } →
        (banksOff u = true → exec (.vbatUvloLeave 0 mv) s = .next (vbatEvent 0x0163 0 0 mv u))
        ∧ (banksOff u = false → exec (.vbatUvloLeave 0 mv) s = .next (vbatEvent 0x0163 0 0 mv (((objsOf u tySolenoid).filter fun o =>
            isEnabled o && (solOf o).gate && !(solOf o).dead && (solOf o).latch == 0).foldl (fun v o => solStart o.idx v) u))))
    ∧ (∀ s g mv, s.pwr.vbatLow.getD g false = false → g < 4 → exec (.vbatWarningLeave g mv) s = .next s
        ∧ exec (.vbatWarningEnter g mv) s = .next (vbatEvent 0x0162 g 1 mv (lowVbat g
          { s with pwr := { s.pwr with vbatLow := s.pwr.vbatLow.set g true, vbat := s.pwr.vbat.set g (mv / 10) } })))
    ∧ (∀ s g mv, s.pwr.vbatLow.getD g false = true → exec (.vbatWarningEnter g mv) s = .next s
        ∧ exec (.vbatWarningLeave g mv) s = .next (vbatEvent 0x0162 g 0 mv
          { s with pwr := { s.pwr with vbatLow := s.pwr.vbatLow.set g false, vbat := s.pwr.vbat.set g (mv / 10) } }))
    ∧ (∀ s g mv, s.pwr.vbatHigh.getD g false = false → g < 4 → exec (.vbatHighLeave g mv) s = .next s
        ∧ exec (.vbatHighEnter g mv) s = .next (vbatEvent 0x0164 g 1 mv
          { s with pwr := { s.pwr with vbatHigh := s.pwr.vbatHigh.set g true, vbat := s.pwr.vbat.set g (mv / 10) } }))
    ∧ (∀ s g mv, s.pwr.vbatHigh.getD g false = true → exec (.vbatHighEnter g mv) s = .next s
        ∧ exec (.vbatHighLeave g mv) s = .next (vbatEvent 0x0164 g 0 mv
          { s with pwr := { s.pwr with vbatHigh := s.pwr.vbatHigh.set g false, vbat := s.pwr.vbat.set g (mv / 10) } }))
    ∧ (∀ s g mv, 4 ≤ g → exec (.vbatUvloEnter g mv) s = .next s ∧ exec (.vbatWarningEnter g mv) s = .next s ∧ exec (.vbatHighEnter g mv) s = .next s)

/-- PWR_SLEEP and PWR_PARK fail with WAKE_PENDING while an armed GPIO is at its level and with CLUSTER_AWAKE on a lead
with an awake member; else they abort the deferred descriptors and the entry is due at the next boundary. At E objects
of the types that SLEEP stops are disabled and every line goes off, once. SLEEP_COMPLETE completes the descriptor with
gtc = E, stops PLL and watchdog and starts the wake timer. PARK_WRITES_DONE writes the reset record, completes with
the records written and powers down; under a supply warning it abandons the writes after 100 ms. A wake from SLEEP
continues the GTC at a boundary and serves the rings again; one from PARK is a boot with cause PARK_WAKE that loses
objects and sessions and keeps the stores. A source that is not armed changes nothing. -/
def Obligations.SleepParkAndWake : Prop :=
  (∀ s d, passes 0x0110 d s = true →
        (∀ e, sleepBad s = some e → exec (.pwrSleep d) s = .next (fail d e s))
        ∧ (sleepBad s = none → exec (.pwrSleep d) s = .next (sleepAborts { s with pwr := { s.pwr with sleepAt := some (nextBoundary s.gtc) } })))
    ∧ (∀ s d, passes 0x0111 d s = true →
        (∀ e, sleepBad s = some e → exec (.pwrPark d) s = .next (fail d e s))
        ∧ (sleepBad s = none → exec (.pwrPark d) s = .next (sleepAborts { s with pwr := { s.pwr with parkAt := some (nextBoundary s.gtc) } })))
    ∧ (∀ s, s.boot.mode = .native → s.pwr.sleepAt = none → s.pwr.parkAt = none →
        (gpioWakes s = true → sleepBad s = some 0x0111)
        ∧ (gpioWakes s = false → memberAwake s = true → sleepBad s = some 0x0112)
        ∧ (gpioWakes s = false → memberAwake s = false → sleepBad s = none))
    ∧ (∀ s, s.boot.mode ≠ .native → sleepBad s = some stModeRefused)
    ∧ (∀ s, s.pwr.sleepAt ≠ none ∨ s.pwr.parkAt ≠ none → s.boot.mode = .native → sleepBad s = some stBusy)
    ∧ (∀ s, sleepAborts s = (s.hif.deferred.filter fun x => x.op != 0x0D00 && x.op != 0x0D01 && x.op != 0x0D04).foldl
        (fun u x => if x.op = 0x0300 then abandonMove x.handle 0x0110 u else cancelEffect x (completeDeferred x { status := 0x0110 } u)) s)
    ∧ (∀ s, s.pwr.sleepAt = none ∨ s.pwr.linesOff = true → exec .sleepEntry s = .next s)
    ∧ (∀ s e u, s.pwr.sleepAt = some e → s.pwr.linesOff = false
      → u = setReverse false (((toInstant e s).objs.filter fun o => isEnabled o && !sleepKeeps.contains o.typ).foldl (fun v o => disableObj o.idx v) (toInstant e s)) →
        exec .sleepEntry s = .next (allOff (setKState 0 { u with kin := kinFresh u.kin })))
    ∧ (∀ s, allOff s = refreshAll { s with
        pwr := { s.pwr with linesOff := true }, isl := { s.isl with hold := [] }, pg := { s.pg with ech := List.replicate 16 false } })
    ∧ (∀ s t, s.pwr.sleepAt = none ∨ s.pwr.linesOff = false ∨ s.boot.mode ≠ .native → exec (.sleepComplete t) s = .next s)
    ∧ (∀ s t e u v w z, s.pwr.sleepAt = some e → s.pwr.linesOff = true → s.boot.mode = .native
      → u = canHalt (canSleep (mramFlush (toInstant (min (max t e) (e + 960000)) s)))
      → (startedOp u 0x0110 = none → v = u) → (∀ d, startedOp u 0x0110 = some d → v = complete d { gtc := some e } u)
      → w = { v with osl := { v.osl with outbox := v.osl.outbox ++ [{ kind := .asleep, dst := 0, src := v.osl.position, body := [] }] } }
      → z = (fun (x : State) => { x with
          boot := { x.boot with mode := .sleeping }, clk := { x.clk with pllLock := false }, isl := { x.isl with wdtRunning := false }
          pwr := { x.pwr with wakeAt := wakeDue x } }) →
        (v.osl.role ≠ 2 → exec (.sleepComplete t) s = .next (z v)) ∧ (v.osl.role = 2 → exec (.sleepComplete t) s = .next (z w)))
    ∧ (∀ s, (s.pwr.wakeTimer = 0 → wakeDue s = none) ∧ (s.pwr.wakeTimer ≠ 0 → wakeDue s = some (s.gtc + s.pwr.wakeTimer * 480000)))
    ∧ (∀ s, (s.pwr.bow = true → mramFlush s = s) ∧ (s.pwr.bow = false → mramFlush s = latWritten (s.eng.saves.foldl (fun u x => storeDone x u) s)))
    ∧ (∀ s, s.pwr.parkAt = none ∨ s.pwr.linesOff = false ∨ s.boot.mode ≠ .native → exec .parkWritesDone s = .next s)
    ∧ (∀ s b u v w, s.pwr.parkAt = some b → s.pwr.linesOff = true → s.boot.mode = .native
      → u = (if s.pwr.bow then { toInstant (b + 100 * msTicks) s with
          pwr := { s.pwr with parkCount := s.pwr.parkCount - s.sched.saving.length }, sched := { s.sched with saving := [] } } else mramFlush s)
      → v = { logWrite 0x0150 0 1 0 (resetData causePark 0 0 0) { u with gtc := frameStart u.gtc } with gtc := u.gtc } → (startedOp v 0x0111 = none → w = v)
      → (∀ d, startedOp v 0x0111 = some d → w = okWith d (leBytes 2 v.pwr.parkCount) v) → exec .parkWritesDone s = .next { w with
          boot := { w.boot with mode := .parked }, isl := { w.isl with wdtRunning := false, resetGtc := frameStart u.gtc }
          cand := { w.cand with lowPower := true }, clk := { w.clk with pllLock := false }, pwr := { w.pwr with wakeAt := wakeDue w } })
    ∧ (∀ s d m f, passes 0x0112 d s = true → m = u8 d.bytes 16 → f = u8 d.bytes 18 →
        (3 < f → exec (.pwrWakeConfig d) s = .next (failWith d stBadParam (leBytes 2 18) s))
        ∧ (f ≤ 3 → claimsBad (claimsHeld { s with pwr := { s.pwr with wakeMask := 0 } } 65536)
            (((List.range 8).filter fun i => bit m i).map fun i => (i, claimShared)) = true → exec (.pwrWakeConfig d) s = .next (fail d stInUse s))
        ∧ (f ≤ 3 → claimsBad (claimsHeld { s with pwr := { s.pwr with wakeMask := 0 } } 65536)
            (((List.range 8).filter fun i => bit m i).map fun i => (i, claimShared)) = false → exec (.pwrWakeConfig d) s
            = .next (ok d { s with pwr := { s.pwr with wakeMask := m, wakePol := u8 d.bytes 17, wakeFlags := f, wakeTimer := u32 d.bytes 20 } })))
    ∧ (∀ s r t, wakeArmed s r = false → exec (.wakeSource r t) s = .next s)
    ∧ (∀ s r t, wakeArmed s r = true → (s.boot.mode = .sleeping → exec (.wakeSource r t) s = .next (sleepWake r t s))
        ∧ (s.boot.mode = .parked → exec (.wakeSource r t) s = .next (parkWake r s))
        ∧ (s.boot.mode ≠ .sleeping → s.boot.mode ≠ .parked → exec (.wakeSource r t) s = .next s))
    ∧ (∀ s, s.pwr.wakeAt = none → exec .wakeTimerExpiry s = .next s)
    ∧ (∀ s t, s.pwr.wakeAt = some t → (s.boot.mode = .sleeping → exec .wakeTimerExpiry s = .next (sleepWake 6 t s))
        ∧ (s.boot.mode = .parked → exec .wakeTimerExpiry s = .next (parkWake 6 s))
        ∧ (s.boot.mode ≠ .sleeping → s.boot.mode ≠ .parked → exec .wakeTimerExpiry s = .next s))
    ∧ (∀ s r, wakeArmed s r = true ↔ r = 5 ∧ gpioWakes s = true ∨ s.boot.mode = .sleeping ∧ (r = 7 ∧ bit s.pwr.wakeFlags 0 = true
        ∨ r = 8 ∧ s.osl.role = 2 ∧ bit s.pwr.wakeFlags 1 = true))
    ∧ (∀ s, gpioWakes s = true ↔ s.pwr.viofOk = true ∧ ∃ i, i < 8 ∧ bit s.pwr.wakeMask i = true ∧ s.pg.gpio.getD i false = bit s.pwr.wakePol i)
    ∧ (∀ s r t u, u = toInstant (boundaryAt (max t s.gtc)) s → sleepWake r t s = refreshAll (raise0 0x0167 0 (leBytes 1 r ++ [1]) (wdtRestart
        (isbResume (canResume { u with
          boot := { u.boot with mode := .native }, clk := { u.clk with pllLock := true }, isl := { u.isl with boundaryGtc := u.gtc }
          osl := { u.osl with asleep := [] }
          pwr := { u.pwr with linesOff := false, sleepAt := none, wakeAt := none, wakeReason := r, wakeFrom := 1 } })))))
    ∧ (∀ s r, (parkWake r s).boot.mode = .booting ∧ (parkWake r s).isl.cause = 8 ∧ (parkWake r s).objs = [] ∧ (parkWake r s).sec.sessions = []
        ∧ (parkWake r s).gtc = 0 ∧ (parkWake r s).pwr.wakeReason = r ∧ (parkWake r s).pwr.wakeFrom = 2 ∧ (parkWake r s).isl.log = s.isl.log
        ∧ (parkWake r s).sched.store = s.sched.store ∧ (parkWake r s).eng.store = s.eng.store ∧ (parkWake r s).isl.wdtEn = s.isl.wdtEn)

/-- Each clock finding logs its event and resets with cause CLOCK; RESET_N, the soft reset at its instant, a failed stage
and a confirmation time-out reset with their causes. A reset loses objects, sessions and GTC and clears DEVICE_FAULT;
it keeps stores, watchdog set-up and lock. BOR keeps the island too and writes no record; POR resets it. RESET_RELEASE
enters bare king by straps 3 or at three unconfirmed boots, else counts. VERIFY boots the preferred slot if it passes,
else the other as a fall-back, else enters bare king. END_OF_BOOT sets the mode, ends the safe force and raises the
events; policy SELFTEST confirms: the counter is 0 and the slot the last confirmed. The boot opcodes act as tabled; a
policy write waits under a supply warning. -/
def Obligations.ResetsAndBoot : Prop :=
  (∀ s, exec .tclkStop s = .next (dieReset causeClock 0x0155 0 (logWrite 0x0155 3 0 0 [] s)))
    ∧ (∀ s, s.clk.pllLock = true → exec .pllUnlock s = .next (dieReset causeClock 0x0156 0 (logWrite 0x0156 3 0 0 [] s)))
    ∧ (∀ s, s.clk.pllLock = false → exec .pllUnlock s = .next s)
    ∧ (∀ s (p : Int), p.natAbs ≤ 100000 → exec (.aclkFreqDeviation p) s = .next s)
    ∧ (∀ s (p : Int), 100000 < p.natAbs → exec (.aclkFreqDeviation p) s
        = .next (dieReset causeClock 0x0157 0 (logWrite 0x0157 3 0 0 ([0, 0, 0, 0] ++ iBytes 4 p) s)))
    ∧ (∀ s, exec .resetNLow s = .next (dieReset causeResetN 0 0 s))
    ∧ (∀ s, s.isl.softResetAt = none → exec .softResetStart s = .next s)
    ∧ (∀ s t, s.isl.softResetAt = some t → exec .softResetStart s = .next (dieReset s.isl.softCause 0 0 (toInstant t s)))
    ∧ (∀ s c k e, ∃ t, t = dieReset c k e s ∧ t.boot.mode = .booting ∧ t.boot.released = false ∧ t.isl.cause = c ∧ t.isl.resetFault = k ∧ t.objs = []
        ∧ t.sec.sessions = [] ∧ t.gtc = 0 ∧ t.isl.deviceFault = false ∧ t.isl.safeReset = true ∧ t.isl.estopLatch = (s.isl.estopLatch || s.isl.estopPin)
        ∧ t.eng.store = s.eng.store ∧ t.sched.store = s.sched.store ∧ t.isl.wdtEn = s.isl.wdtEn ∧ t.isl.locked = s.isl.locked
        ∧ t.boot.bootCount = s.boot.bootCount ∧ t.pending = s.pending ∧ t.isl.hold = holdLines s)
    ∧ (∀ s, (s.boot.mode ≠ .booting ∨ s.boot.released = true ∨ s.isl.lastgasp = false ∨ s.isl.cause = 8) → gaspLost s = s)
    ∧ (∀ s v, s.boot.mode = .booting → s.boot.released = false → s.isl.lastgasp = true → s.isl.cause ≠ 8 → v = takeFree s →
        (v.1 % 2 = 0 ∨ (s.isl.log.getLast?.map fun e => u16 e 0) ≠ some 0x0150 → gaspLost s = v.2)
        ∧ (v.1 % 2 = 1 → (s.isl.log.getLast?.map fun e => u16 e 0) = some 0x0150 → gaspLost s = { v.2 with isl := { v.2.isl with
            log := v.2.isl.log.dropLast, logIndex := (v.2.isl.logIndex + 2 ^ 32 - 1) % 2 ^ 32, lastgaspLost := true } }))
    ∧ (∀ s, ∃ t, exec .brownOutReset s = .next t ∧ t.boot.mode = .booting ∧ t.isl.cause = causeBor ∧ t.objs = [] ∧ t.isl.hold = [] ∧ t.isl.log = (gaspLost s).isl.log
        ∧ t.eng.store = s.eng.store ∧ t.sched.store = s.sched.store ∧ t.isl.wdtEn = s.isl.wdtEn ∧ t.boot.bootCount = s.boot.bootCount ∧ t.pending = s.pending)
    ∧ (∀ s, ∃ t, exec .powerOnReset s = .next t ∧ t.boot.mode = .booting ∧ t.boot.bootCount = 0 ∧ t.isl.wdtEn = false ∧ t.isl.locked = false ∧ t.objs = []
        ∧ t.isl.hold = [] ∧ t.isl.log = s.isl.log ∧ t.eng.store = s.eng.store ∧ t.sched.store = s.sched.store ∧ t.leg.record = s.leg.record ∧ t.pending = s.pending)
    ∧ (∀ s k, s.boot.mode ≠ .booting ∨ s.boot.released = true ∨ 4 ≤ k → exec (.resetRelease k) s = .next s)
    ∧ (∀ s k n u, s.boot.mode = .booting → s.boot.released = false → k < 4 → n = (if s.isl.cause = 1 then 0 else s.boot.bootCount) → u = { s with
          boot := { s.boot with straps := k, modeAt := if k = 2 ∧ s.leg.record = true then 1 else k, policyNow := s.boot.policy, bootCount := n, stage := 0, released := true }
          hif := { s.hif with link := if k = 0 then s.hif.link else 3 }
          clk := { s.clk with pllLock := s.osl.role != 2, xtalPresent := s.clk.xtalPresent || s.osl.role != 2 } } →
        (k = 3 → exec (.resetRelease k) s = .next (bareKing 3 u))
        ∧ (k ≠ 3 → 3 ≤ n → exec (.resetRelease k) s = .next (bareKing 1 u))
        ∧ (k ≠ 3 → n < 3 → exec (.resetRelease k) s = .next { u with boot := { u.boot with bootCount := n + 1 } }))
    ∧ (∀ s k, (bareKing k s).boot.mode = .bareKing ∧ (bareKing k s).boot.bkReason = k ∧ (bareKing k s).isl.hold = [] ∧ (bareKing k s).isl.wdtRunning = false
        ∧ (bareKing k s).boot.bootCount = s.boot.bootCount ∧ (bareKing k s).cand.lowPower = true)
    ∧ (∀ s t, s.boot.mode ≠ .booting ∨ s.boot.released = false ∨ 5 ≤ s.boot.stage → exec (.bootStageComplete t) s = .next s)
    ∧ (∀ s t n, s.boot.mode = .booting → s.boot.released = true → s.boot.stage < 2 → n = s.boot.stage + 1 → exec (.bootStageComplete t) s
        = .next { toInstant t s with boot := { s.boot with stage := n }, sec := { s.sec with selftestDone := s.sec.selftestDone || n == 2 } })
    ∧ (∀ s t n, s.boot.mode = .booting → s.boot.released = true → 2 < s.boot.stage → s.boot.stage < 5 → n = s.boot.stage + 1 → exec (.bootStageComplete t) s
        = .next (report s.sec.running n 0 { toInstant t s with boot := { s.boot with stage := n } }))
    ∧ (∀ s t p, s.boot.mode = .booting → s.boot.released = true → s.boot.stage = 2 → p = s.sec.candidate.getD (s.boot.lastConfirmed.getD false) →
        (slotBad s p = none → ∃ u, exec (.bootStageComplete t) s = .next u ∧ u.boot.stage = 3 ∧ u.sec.running = p ∧ u.boot.fallback = false
          ∧ u.boot.mode = .booting)
        ∧ (∀ e, slotBad s p = some e → slotBad s (!p) = none → ∃ u, exec (.bootStageComplete t) s = .next u ∧ u.boot.stage = 3
          ∧ u.sec.running = !p ∧ u.boot.fallback = true ∧ u.boot.mode = .booting)
        ∧ (∀ e f, slotBad s p = some e → slotBad s (!p) = some f → ∃ u, exec (.bootStageComplete t) s = .next u ∧ u.boot.mode = .bareKing ∧ u.boot.bkReason = 2
          ∧ u.boot.error = f))
    ∧ (∀ s e a, s.boot.mode ≠ .booting ∨ s.boot.released = false → exec (.bootStageFail e a) s = .next s)
    ∧ (∀ s e a, s.boot.mode = .booting → s.boot.released = true → (e ≠ 1 → exec (.bootStageFail e a) s = .next (dieReset causeBoot 0 (e % 256) s))
        ∧ (e = 1 → exec (.bootStageFail e a) s = .next (dieReset causeBoot 0 1 (logWrite 0x0F48 3 0 0 (leBytes 1 a) s))))
    ∧ (∀ s t, s.boot.mode ≠ .booting ∨ s.boot.stage ≠ 5 → exec (.endOfBoot t) s = .next s)
    ∧ (∀ s t u v w, s.boot.mode = .booting → s.boot.stage = 5 → u = toInstant t s → v = { u with
          boot := { u.boot with mode := strapMode s, stage := 6, gtcBoot := u.gtc }
          isl := { u.isl with safeReset := false } }
      → ∀ x, x = vbatAtBoot (resetEvent (report s.sec.running 6 0 (if strapMode s = .fs216 then legBoot v else wdtRestart v)))
      → (x.isl.cause ≠ 8 → w = x) → (x.isl.cause = 8 → w = raise0 0x0167 0 (leBytes 1 x.pwr.wakeReason ++ [2]) x) →
        (w.boot.policyNow = 0 → exec (.endOfBoot t) s = .next (refreshAll (confirmBoot w)))
        ∧ (w.boot.policyNow ≠ 0 → exec (.endOfBoot t) s = .next (refreshAll w)))
    ∧ (∀ s, strapMode s = (if s.boot.straps = 2 ∧ s.leg.record = false then .fs216 else .native))
    ∧ (∀ s, s.boot.stage = 6 → s.boot.confirmed = false → (confirmBoot s).boot.confirmed = true ∧ (confirmBoot s).boot.bootCount = 0
        ∧ (confirmBoot s).boot.lastConfirmed = some s.sec.running ∧ s.sec.rollback ≤ (confirmBoot s).sec.rollback ∧ (confirmBoot s).objs = s.objs)
    ∧ (∀ s, awaitsConfirm s = false ∨ s.boot.mode = .booting ∨ s.boot.mode = .parked → exec .bootConfirmTimeout s = .next s)
    ∧ (∀ s, awaitsConfirm s = true → s.boot.mode ≠ .booting → s.boot.mode ≠ .parked → exec .bootConfirmTimeout s
        = .next (dieReset causeBoot 0 0x0B (toInstant (s.boot.gtcBoot + 5 * secTicks) s)))
    ∧ (∀ s d v, passes 0x0113 d s = true → v = u8 d.bytes 16 → (2 < v → exec (.pwrBootPolicy d) s = .next (fail d stBadParam s))
        ∧ (v ≤ 2 → s.pwr.bow = false → exec (.pwrBootPolicy d) s = .next (ok d { s with boot := { s.boot with policy := v } }))
        ∧ (v ≤ 2 → s.pwr.bow = true → exec (.pwrBootPolicy d) s = .next { s with pwr := { s.pwr with mramWait := s.pwr.mramWait ++ [(d, .bootPolicy v)] } })
        ∧ (s.pwr.mramWait = [(d, .bootPolicy v)] → mramWaitRun s = ok d { s with pwr := { s.pwr with mramWait := [] }, boot := { s.boot with policy := v } }))
    ∧ (∀ s d, passes 0x0114 d s = true → (s.boot.confirmed = true → exec (.pwrBootConfirm d) s = .next (okWith d [0] s))
        ∧ (s.boot.confirmed = false → exec (.pwrBootConfirm d) s = .next (okWith d [1] (confirmBoot s))))
    ∧ (∀ s d, passes 0x0115 d s = true → exec (.pwrBootReport d) s = .next (writeBack d (leBytes 1 s.boot.bkReason ++ leBytes 1 s.boot.bootCount
        ++ leBytes 1 (b2n s.boot.preferred) ++ leBytes 1 s.boot.policyNow ++ leBytes 4 (resetCauseReg s) ++ slotRecord s false ++ slotRecord s true
        ++ leBytes 4 (s.boot.gtcBoot / usTicks) ++ leBytes 1 s.sec.rollback ++ List.replicate 19 0) {} s))
    ∧ (∀ s d, passes 0x0116 d s = true → (s.boot.mode ≠ .bareKing → exec (.pwrRetryBoot d) s = .next (fail d stState s))
        ∧ (s.boot.mode = .bareKing → exec (.pwrRetryBoot d) s = .next (ok d { s with
          boot := { s.boot with bootCount := 0 }, isl := { s.isl with softResetAt := some (s.gtc + msTicks), softCause := causeBoot } })))

/-- In every state whose mailbox and host memory are in canonical form (addresses strictly rising, no cell equal to an
unlisted byte) and whose objects stand in the order of their indices, each index once: if the step answers a next
state, that holds there too, and the queue of the next state is the old queue without its front command, whatever the
command was, every reset included. -/
def Obligations.EveryStepKeepsTheCanonicalForms : Prop :=
  ∀ s t : State, MemOk s → ObjsOk s → step s = .next t → MemOk t ∧ ObjsOk t ∧ t.pending = s.pending.tail

/-- State.reset has canonical memories, no object, an empty queue, the GTC at 0, every ring disabled, mode booting with
FAULT_N low, watchdog disarmed with WDT_TIMEOUT 1000 and token 0x5A, the set-up lock open, no fault latched and no
line held, and it reads SYS_ID 0x4248_9648, ISL_STAT 2, ISL_RESET_CAUSE 1, ISL_BOOT 0, WDT_CTL 0, PWR_VDD_WARN 0 and
PWR_VBAT_WARN 80. The step on the empty queue changes nothing; that it idles is the model’s choice (log 1). -/
def Obligations.ResetState : Prop :=
  MemOk State.reset ∧ ObjsOk State.reset ∧ State.reset.pending = [] ∧ State.reset.objs = [] ∧ State.reset.gtc = 0
    ∧ (∀ r < 38, (ringOf State.reset r).en = false) ∧ State.reset.boot.mode = .booting ∧ State.reset.boot.bootCount = 0 ∧ faultNLow State.reset = true
    ∧ State.reset.isl.wdtEn = false ∧ State.reset.isl.wdtTimeout = 1000 ∧ State.reset.isl.wdtToken = 0x5A ∧ State.reset.isl.locked = false
    ∧ State.reset.isl.deviceFault = false ∧ State.reset.isl.estopLatch = false ∧ State.reset.isl.hold = []
    ∧ [0x0000, 0x2000, 0x200C, 0x2020, 0x2024, 0x2028, 0x2094, 0x2098].map (fun a => regValue a State.reset) = [0x42489648, 2, 1, 0, 0, 1000, 0, 80]
    ∧ step State.reset = .next State.reset
end

