-- ==== Sys2Proof/Laws/Memory.lean ====
section
/-! SUPPORT. The byte memories: writes keep the canonical form, a read after a write, other addresses unchanged. -/

namespace Sys2Proof.Machine

/-- A form from an address up holds from every lower one. -/
theorem memWfFrom_mono : ∀ (m : List Host.Cell) (lo hi : Nat), hi ≤ lo → memWfFrom lo m = true → memWfFrom hi m = true
  | [], _, _, _, _ => rfl
  | (x, y) :: r, lo, hi, h, k => by
    simp only [memWfFrom, Bool.and_eq_true, decide_eq_true_eq] at k ⊢
    exact ⟨⟨Nat.le_trans h k.1.1, k.1.2⟩, k.2⟩

/-- One write keeps the form from an address up. -/
theorem memWfFrom_write : ∀ (m : List Host.Cell) (lo a : Nat) (b : Byte), lo ≤ a → memWfFrom lo m = true → memWfFrom lo (memWrite m a b) = true
  | [], lo, a, b, h, _ => by
    unfold memWrite; split
    · rfl
    · next hb => simp only [memWfFrom, Bool.and_eq_true, decide_eq_true_eq, bne_iff_ne]; exact ⟨⟨h, hb⟩, trivial⟩
  | (x, y) :: r, lo, a, b, h, k => by
    simp only [memWfFrom, Bool.and_eq_true, decide_eq_true_eq, bne_iff_ne] at k
    unfold memWrite
    split
    · next h1 =>
      split
      · simp only [memWfFrom, Bool.and_eq_true, decide_eq_true_eq, bne_iff_ne]; exact k
      · next hb =>
        simp only [memWfFrom, Bool.and_eq_true, decide_eq_true_eq, bne_iff_ne]
        exact ⟨⟨h, hb⟩, ⟨by omega, k.1.2⟩, k.2⟩
    · split
      · next h1 h2 =>
        split
        · exact memWfFrom_mono _ _ _ (by omega) k.2
        · next hb =>
          subst h2
          simp only [memWfFrom, Bool.and_eq_true, decide_eq_true_eq, bne_iff_ne]
          exact ⟨⟨h, hb⟩, k.2⟩
      · next h1 h2 =>
        simp only [memWfFrom, Bool.and_eq_true, decide_eq_true_eq, bne_iff_ne]
        exact ⟨k.1, memWfFrom_write r (x + 1) a b (by omega) k.2⟩


/-- Writing bytes keeps the canonical form. -/
theorem memWf_writeN : ∀ (bs : List Byte) (m : List Host.Cell) (a : Nat), memWf m = true → memWf (memWriteN m a bs) = true
  | [], _, _, h => h
  | _ :: bs, _, _, h => memWf_writeN bs _ _ (memWfFrom_write _ 0 _ _ (Nat.zero_le _) h)

/-- A write keeps the canonical form. -/
theorem memWf_write {m : List Host.Cell} (a : Nat) (b : Byte) (h : memWf m = true) : memWf (memWrite m a b) = true :=
  memWfFrom_write m 0 a b (Nat.zero_le _) h

/-- Below the first listed address every byte reads 0. -/
theorem memRead_below : ∀ (m : List Host.Cell) (lo a : Nat), memWfFrom lo m = true → a < lo → memRead m a = 0
  | [], _, _, _, _ => rfl
  | (x, y) :: r, lo, a, h, k => by
    simp only [memWfFrom, Bool.and_eq_true, decide_eq_true_eq] at h
    have hx : x ≠ a := by omega
    simp only [memRead, if_neg hx]
    exact memRead_below r (x + 1) a h.2 (by omega)

/-- A byte reads as it was written. -/
theorem memRead_write_same : ∀ (m : List Host.Cell) (lo a : Nat) (b : Byte), memWfFrom lo m = true → memRead (memWrite m a b) a = b
  | [], _, a, b, _ => by
    unfold memWrite; split
    · next h => simp [memRead, h]
    · simp [memRead]
  | (x, y) :: r, lo, a, b, h => by
    simp only [memWfFrom, Bool.and_eq_true, decide_eq_true_eq] at h
    unfold memWrite
    split
    · next h1 =>
      split
      · next hb =>
        have hx : x ≠ a := by omega
        simp only [memRead, if_neg hx, hb]
        exact memRead_below r (x + 1) a h.2 (by omega)
      · simp [memRead]
    · split
      · next h1 h2 =>
        subst h2
        split
        · next hb => rw [hb]; exact memRead_below r (a + 1) a h.2 (by omega)
        · simp [memRead]
      · next h1 h2 =>
        have hx : x ≠ a := fun e => h2 e.symm
        simp only [memRead, if_neg hx]
        exact memRead_write_same r (x + 1) a b h.2

/-- Another byte reads as before. -/
theorem memRead_write_other : ∀ (m : List Host.Cell) (a c : Nat) (b : Byte), c ≠ a → memRead (memWrite m a b) c = memRead m c
  | [], a, c, b, h => by
    unfold memWrite; split
    · rfl
    · simp [memRead, Ne.symm h]
  | (x, y) :: r, a, c, b, h => by
    unfold memWrite
    split
    · split
      · rfl
      · simp [memRead, Ne.symm h]
    · split
      · next h1 h2 =>
        subst h2
        split <;> simp [memRead, Ne.symm h]
      · simp only [memRead]
        split
        · rfl
        · exact memRead_write_other r a c b h

/-- Bytes outside the written ones read as before. -/
theorem memRead_writeN_other : ∀ (bs : List Byte) (m : List Host.Cell) (a c : Nat), c < a ∨ a + bs.length ≤ c →
    memRead (memWriteN m a bs) c = memRead m c
  | [], _, _, _, _ => rfl
  | b :: bs, m, a, c, h => by
    simp only [List.length_cons] at h
    rw [memWriteN, memRead_writeN_other bs _ _ _ (by omega), memRead_write_other _ _ _ _ (by omega)]

/-- The written bytes read back. -/
theorem memReadN_writeN : ∀ (bs : List Byte) (m : List Host.Cell) (a : Nat), memWf m = true → memReadN (memWriteN m a bs) a bs.length = bs
  | [], _, _, _ => rfl
  | b :: bs, m, a, h => by
    simp only [List.length_cons, memReadN, memWriteN]
    rw [memRead_writeN_other bs _ _ _ (by omega), memRead_write_same m 0 a b h, memReadN_writeN bs _ _ (memWf_write a b h)]

end Sys2Proof.Machine
end

