-- ==== Sys2Proof/Laws/Frames.lean ====
section
/-! SUPPORT. What events, log entries and completions can do: they touch the host interface, the log, the pending trace
trigger and the memories that hold the rings, keep the canonical forms, and leave everything else. -/

namespace Sys2Proof.Machine

/-- The frame of events and completions, with the canonical form of the memories. -/
structure Touches (s t : State) : Prop where
  frame : EvFrame s t
  mem : MemOk s → MemOk t

/-- Nothing is touched. -/
theorem Touches.refl (s : State) : Touches s s := ⟨rfl, id⟩

/-- One after the other. -/
theorem Touches.trans {s t u : State} (h : Touches s t) (k : Touches t u) : Touches s u :=
  ⟨by have a := h.frame; have b := k.frame; unfold EvFrame at *; rw [b, a], fun m => k.mem (h.mem m)⟩

/-- A change of the host interface alone. -/
theorem touches_hif (s : State) (h : Hif) : Touches s { s with hif := h } := ⟨rfl, id⟩

/-- Fields that the frame leaves alone. -/
theorem Touches.objs {s t : State} (h : Touches s t) : t.objs = s.objs := by rw [h.frame]
theorem Touches.pending {s t : State} (h : Touches s t) : t.pending = s.pending := by rw [h.frame]
theorem Touches.gtc {s t : State} (h : Touches s t) : t.gtc = s.gtc := by rw [h.frame]
theorem Touches.sec {s t : State} (h : Touches s t) : t.sec = s.sec := by rw [h.frame]
theorem Touches.boot {s t : State} (h : Touches s t) : t.boot = s.boot := by rw [h.frame]
theorem Touches.pwr {s t : State} (h : Touches s t) : t.pwr = s.pwr := by rw [h.frame]
theorem Touches.eng {s t : State} (h : Touches s t) : t.eng = s.eng := by rw [h.frame]
theorem Touches.sched {s t : State} (h : Touches s t) : t.sched = s.sched := by rw [h.frame]
theorem Touches.leg {s t : State} (h : Touches s t) : t.leg = s.leg := by rw [h.frame]
theorem Touches.conditions {s t : State} (h : Touches s t) : t.isl.conditions = s.isl.conditions := by rw [h.frame]

theorem touches_fold {α : Type} {f : State → α → State} (h : ∀ s x, Touches s (f s x)) : ∀ (l : List α) (s : State), Touches s (l.foldl f s)
  | [], s => Touches.refl s
  | x :: l, s => (h s x).trans (touches_fold h l (f s x))

theorem touches_mailbox (s : State) (a : Nat) (bs : List Byte) : Touches s { s with mailbox := memWriteN s.mailbox a bs } :=
  ⟨rfl, fun h => ⟨memWf_writeN _ _ _ h.1, h.2⟩⟩

theorem touches_hostMem (s : State) (a : Nat) (bs : List Byte) : Touches s { s with hostMem := memWriteN s.hostMem a bs } :=
  ⟨rfl, fun h => ⟨h.1, memWf_writeN _ _ _ h.2⟩⟩

theorem touches_setRing (r : Nat) (f : Ring → Ring) (s : State) : Touches s (setRing r f s) := touches_hif s _

theorem touches_sendVector (v : Nat) (s : State) : Touches s (sendVector v s) := by
  unfold sendVector
  split
  · exact touches_hif s _
  · split
    · exact Touches.refl s
    · split
      · exact touches_hif s _
      · exact ⟨rfl, fun h => ⟨h.1, memWf_writeN _ _ _ h.2⟩⟩

theorem touches_signalError (s : State) : Touches s (signalError s) := by
  unfold signalError; split
  · exact touches_sendVector _ s
  · exact touches_hif s _

theorem touches_ringMemWrite (g : Ring) (o : Nat) (bs : List Byte) (s : State) : Touches s (ringMemWrite g o bs s) := by
  unfold ringMemWrite; split
  · exact touches_mailbox s _ _
  · exact touches_hostMem s _ _

theorem touches_ringSignal (r : Nat) (s : State) : Touches s (ringSignal r s) :=
  (touches_setRing _ _ _).trans (touches_sendVector _ _)

theorem touches_ringProduce (r : Nat) (e : List Byte) (ev : Option Ev) (now : Bool) (s : State) : Touches s (ringProduce r e ev now s) := by
  unfold ringProduce
  have h := (touches_ringMemWrite (ringOf s r) (32 * (ringOf s r).tail) (withPhase (ringOf s r).phase e) s).trans (touches_setRing r
    (ringAdvance (ringMemWrite (ringOf s r) (32 * (ringOf s r).tail) (withPhase (ringOf s r).phase e) s).gtc
      (ringMemRead s (ringOf s r) (32 * (ringOf s r).tail) 32) ev) _)
  dsimp only
  split
  · exact h.trans (touches_ringSignal _ _)
  · exact h

theorem touches_streamWrite (r : Nat) (e : List Byte) (s : State) : Touches s (streamWrite r e s) := by
  unfold streamWrite; split
  · exact Touches.refl s
  · split
    · exact touches_ringProduce _ _ _ _ s
    · exact touches_setRing _ _ s

/-- A log entry changes the log, its index, and the log stream's ring. -/
theorem touches_logPut (e : List Byte) (s : State) : Touches s (logPut e s) := by
  unfold logPut
  exact Touches.trans (t := { s with isl := { s.isl with
    log := if (s.isl.log ++ [e]).length > logMax then (s.isl.log ++ [e]).drop 1 else s.isl.log ++ [e]
    logIndex := wrapInc 32 s.isl.logIndex } }) ⟨rfl, id⟩ (touches_streamWrite _ _ _)

theorem touches_holdEvent (e : Ev) (s : State) : Touches s (holdEvent e s) := by
  unfold holdEvent; split <;> exact touches_hif s _

theorem touches_deliver (e : Ev) (s : State) : Touches s (deliver e s) := by
  unfold deliver; split
  · exact touches_holdEvent e s
  · split
    · exact touches_ringProduce _ _ _ _ s
    · exact touches_holdEvent e s

theorem touches_trcEvent (c : Nat) (s : State) : Touches s (trcEvent c s) := by
  unfold trcEvent; split
  · exact ⟨rfl, id⟩
  · exact Touches.refl s

theorem touches_raisePlain (t c k h ep : Nat) (d : List Byte) (s : State) : Touches s (raisePlain t c k h ep d s) := by
  unfold raisePlain
  exact ((touches_hif s _).trans (touches_deliver _ _)).trans (touches_trcEvent _ _)

theorem touches_logWriteAt (t c k l h : Nat) (d : List Byte) (s : State) : Touches s (logWriteAt t c k l h d s) := by
  unfold logWriteAt
  have a := touches_logPut (logBytes c k l h t s.isl.logIndex d) s
  dsimp only
  split
  · refine ((a.trans ?_).trans (touches_logPut _ _)).trans (touches_raisePlain _ _ _ _ _ _ _)
    exact ⟨rfl, id⟩
  · exact a

theorem touches_logWrite (c k l h : Nat) (d : List Byte) (s : State) : Touches s (logWrite c k l h d s) :=
  touches_logWriteAt _ _ _ _ _ _ s

theorem touches_raiseAt (t c k h ep : Nat) (d : List Byte) (s : State) : Touches s (raiseAt t c k h ep d s) := by
  unfold raiseAt; split
  · exact (touches_logWriteAt _ _ _ _ _ _ s).trans (touches_raisePlain _ _ _ _ _ _ _)
  · exact touches_raisePlain _ _ _ _ _ _ s

/-- Raising an event. -/
theorem touches_raiseE (c k h ep : Nat) (d : List Byte) (s : State) : Touches s (raiseE c k h ep d s) := touches_raiseAt _ _ _ _ _ _ s

theorem touches_raise0 (c h : Nat) (d : List Byte) (s : State) : Touches s (raise0 c h d s) := touches_raiseE _ _ _ _ _ s

theorem touches_raiseHeld (b : Bool) (len c k h sub ep : Nat) (d : List Byte) (a n : Nat) (s : State) :
    Touches s (raiseHeld b len c k h sub ep d a n s) := by
  unfold raiseHeld; split
  · exact touches_hif s _
  · exact (touches_hif s _).trans (touches_raiseE _ _ _ _ _ _)

theorem touches_raiseLimited (len c k h sub ep : Nat) (d : List Byte) (a n : Nat) (s : State) :
    Touches s (raiseLimited len c k h sub ep d a n s) := touches_raiseHeld _ _ _ _ _ _ _ _ _ _ s

theorem touches_sqResetEnd (q : Nat) (s : State) : Touches s (sqResetEnd q s) := by
  unfold sqResetEnd; split
  · exact touches_setRing _ _ s
  · exact Touches.refl s

theorem touches_unreserve (q : Nat) (s : State) : Touches s (unreserve q s) := touches_setRing _ _ s

theorem touches_cqEntry (q : Nat) (e : List Byte) (b : Bool) (s : State) : Touches s (cqEntry q e b s) := by
  unfold cqEntry; split
  · exact Touches.refl s
  · split
    · exact (touches_unreserve _ s).trans (touches_setRing _ _ _)
    · exact (touches_unreserve _ s).trans (touches_ringProduce _ _ _ _ _)

theorem touches_postCompletion (x : Started) (r : Reply) (s : State) : Touches s (postCompletion x r s) := by
  unfold postCompletion
  dsimp only
  split
  · split
    · exact Touches.refl s
    · exact touches_unreserve _ s
  · split
    · exact touches_hif s _
    · split
      · exact touches_hif s _
      · exact touches_cqEntry _ _ _ s

/-- The end of one started descriptor. -/
theorem touches_finish (x : Started) (r : Reply) (s : State) : Touches s (finish x r s) := by
  unfold finish
  exact ((touches_postCompletion x r s).trans (touches_hif _ _)).trans (touches_sqResetEnd _ _)

/-- The descriptors whose wait is over end, one after the other. -/
theorem touches_settle : ∀ (n : Nat) (s : State), Touches s (settle n s)
  | 0, s => Touches.refl s
  | n + 1, s => by
    unfold settle; split
    · exact Touches.refl s
    · exact (touches_finish _ _ s).trans (touches_settle n _)

/-- Completing a descriptor. -/
theorem touches_complete (d : Desc) (r : Reply) (s : State) : Touches s (complete d r s) := by
  unfold complete
  exact (touches_finish _ r s).trans (touches_settle _ _)

theorem touches_fail (d : Desc) (n : Nat) (s : State) : Touches s (fail d n s) := touches_complete d _ s
theorem touches_failWith (d : Desc) (n : Nat) (r : List Byte) (s : State) : Touches s (failWith d n r s) := touches_complete d _ s
theorem touches_okWith (d : Desc) (r : List Byte) (s : State) : Touches s (okWith d r s) := touches_complete d _ s
theorem touches_ok (d : Desc) (s : State) : Touches s (ok d s) := touches_complete d _ s

/-- Accepting a deferred descriptor. -/
theorem touches_defer (d : Desc) (op h due : Nat) (r : List Byte) (a : Nat) (s : State) : Touches s (defer d op h due r a s) := by
  unfold defer
  exact (touches_hif s _).trans (touches_settle _ _)

/-- Completing a deferred descriptor. -/
theorem touches_completeDeferred (x : Deferred) (r : Reply) (s : State) : Touches s (completeDeferred x r s) := by
  unfold completeDeferred
  exact ((touches_postCompletion _ _ s).trans (touches_hif _ _)).trans (touches_sqResetEnd _ _)

theorem touches_finishDeferred (op h : Nat) (r : Reply) (s : State) : Touches s (finishDeferred op h r s) := by
  unfold finishDeferred; split
  · exact Touches.refl s
  · exact touches_completeDeferred _ _ s

/-- Writing where a pointer says. -/
theorem touches_ptrWrite {p : Nat} {bs : List Byte} {s t : State} (h : ptrWrite p bs s = some t) : Touches s t := by
  unfold ptrWrite at h
  split at h
  · split at h
    · cases h
    · cases h; exact touches_mailbox s _ _
  · cases h; exact touches_hostMem s _ _

/-- Writing a block back and completing. -/
theorem touches_writeBack (d : Desc) (bs : List Byte) (r : Reply) (s : State) : Touches s (writeBack d bs r s) := by
  unfold writeBack; split
  · next t h => exact (touches_ptrWrite h).trans (touches_complete d _ t)
  · exact (touches_raise0 _ _ _ s).trans (touches_complete d _ _)

end Sys2Proof.Machine
end

