-- ==== Sys2Proof/Laws/Descr.lean ====
section
/-! SUPPORT. Running a descriptor: where the checks pass the body runs; where they fail only the completion is written. -/

namespace Sys2Proof.Machine

/-- A descriptor that passes the checks of R41 runs its body. -/
theorem runDesc_passes {code : Nat} {d : Desc} {s : State} (body : State → State) (h : passes code d s = true) :
    runDesc code d body s = body s := by
  unfold passes at h
  unfold runDesc
  cases hi : opInfo code with
  | none => rw [hi] at h; cases h
  | some i =>
    rw [hi] at h
    simp only [Bool.and_eq_true, decide_eq_true_eq, Bool.not_eq_true'] at h
    obtain ⟨⟨⟨⟨ht, hm⟩, hr⟩, hf⟩, hb⟩ := h
    have hr' : ¬ (if s.hif.started.any (fun x => decide (x.desc = d)) then (startedOf s d).role else roleOfDesc s d) < needRole code d := by
      unfold roleNow at hr; omega
    have hf' : formBad s i d = none := by cases hx : formBad s i d with
      | none => rfl
      | some e => rw [hx] at hf; cases hf
    simp only [ht, hm, hf', hb, Bool.not_true, Bool.false_eq_true, if_false, if_neg hr']

/-- As `runDesc_passes`, for an opcode on an object. -/
theorem runObj_passes {code : Nat} {d : Desc} {s : State} {o : Obj} (body : Obj → State → State) (h : passes code d s = true)
    (k : objOf s (dHandle d) = some o) : runObj code d body s = body o s := by
  unfold runObj
  rw [runDesc_passes _ h, k]

/-- What a body keeps, with what completions keep, a run of the descriptor keeps. -/
theorem runDesc_cases {P : State → Prop} {code : Nat} {d : Desc} {body : State → State} {s : State}
    (hb : P (body s)) (ht : ∀ t, Touches s t → P t) : P (runDesc code d body s) := by
  unfold runDesc
  extract_lets role
  split
  · exact ht s (Touches.refl s)
  · split
    · exact ht _ (touches_fail _ _ s)
    · split
      · exact ht _ (touches_fail _ _ s)
      · split
        · exact ht _ (touches_fail _ _ s)
        · split
          · exact ht _ (touches_fail _ _ s)
          · split
            · exact ht _ ((touches_raise0 _ _ _ s).trans (touches_fail _ _ _))
            · exact hb

end Sys2Proof.Machine
end

