-- ==== Sys2Proof/Laws/Objects.lean ====
section
/-! SUPPORT. The list of objects: the operations on it keep the order of the indices. -/

namespace Sys2Proof.Machine

/-- Mapping objects without changing their indices keeps the order. -/
theorem objsOk_map {f : Obj → Obj} (h : ∀ o, (f o).idx = o.idx) {l : List Obj} (k : l.Pairwise fun a b => a.idx < b.idx) :
    (l.map f).Pairwise fun a b => a.idx < b.idx := by
  rw [List.pairwise_map]; simpa [h] using k

/-- The same, where only some objects change. -/
theorem objsOk_mapIf (p : Obj → Prop) [DecidablePred p] {f : Obj → Obj} (h : ∀ o, (f o).idx = o.idx) {l : List Obj}
    (k : l.Pairwise fun a b => a.idx < b.idx) : (l.map fun o => if p o then f o else o).Pairwise fun a b => a.idx < b.idx :=
  objsOk_map (fun o => by split <;> simp only [h]) k

/-- Changing the object at an index keeps the order. -/
theorem objsOk_updObj (i : Nat) {f : Obj → Obj} (h : ∀ o, (f o).idx = o.idx) {s : State} (k : ObjsOk s) : ObjsOk (updObj i f s) :=
  objsOk_mapIf (fun o => o.idx = i) h k

/-- Changing the object that a handle names keeps the order. -/
theorem objsOk_updH (n : Nat) {f : Obj → Obj} (h : ∀ o, (f o).idx = o.idx) {s : State} (k : ObjsOk s) : ObjsOk (updH n f s) :=
  objsOk_mapIf (fun o => handleOf o = n) h k

/-- An object of the list after an insertion is the new one or an old one. -/
theorem insert_mem (o : Obj) : ∀ (l : List Obj) (x : Obj), x ∈ insertObj o l → x = o ∨ x ∈ l
  | [], x, h => by simpa [insertObj] using h
  | y :: r, x, h => by
    unfold insertObj at h
    split at h
    · simpa using h
    · split at h
      · rcases List.mem_cons.1 h with h | h
        · exact .inl h
        · exact .inr (List.mem_cons_of_mem _ h)
      · rcases List.mem_cons.1 h with h | h
        · exact .inr (h ▸ List.mem_cons_self)
        · rcases insert_mem o r x h with h | h
          · exact .inl h
          · exact .inr (List.mem_cons_of_mem _ h)

/-- An insertion keeps the order. -/
theorem insert_ok (o : Obj) : ∀ (l : List Obj), l.Pairwise (fun a b => a.idx < b.idx) → (insertObj o l).Pairwise fun a b => a.idx < b.idx
  | [], _ => by simp [insertObj]
  | y :: r, h => by
    rw [List.pairwise_cons] at h
    unfold insertObj
    split
    · next h1 =>
      refine List.pairwise_cons.2 ⟨fun b hb => ?_, List.pairwise_cons.2 h⟩
      rcases List.mem_cons.1 hb with hb | hb
      · exact hb ▸ h1
      · exact Nat.lt_trans h1 (h.1 b hb)
    · split
      · next h1 h2 => exact List.pairwise_cons.2 ⟨fun b hb => h2 ▸ h.1 b hb, h.2⟩
      · next h1 h2 =>
        refine List.pairwise_cons.2 ⟨fun b hb => ?_, insert_ok o r h.2⟩
        rcases insert_mem o r b hb with hb | hb
        · subst hb; omega
        · exact h.1 b hb

end Sys2Proof.Machine
end

