-- ==== Sys2Proof/Laws/Keeps.lean ====
section
/-! SUPPORT. What every operation keeps: the queue, and the canonical forms of the memories and of the objects. -/

namespace Sys2Proof.Machine

/-- What every operation keeps: the queue, and the canonical forms of the memories and the objects. -/

structure Keeps (s t : State) : Prop where
  pending : t.pending = s.pending
  mem : MemOk s → MemOk t
  objs : ObjsOk s → ObjsOk t

/-- Nothing changes. -/
theorem Keeps.refl (s : State) : Keeps s s := ⟨rfl, id, id⟩

/-- One after the other. -/
theorem Keeps.trans {s t u : State} (h : Keeps s t) (k : Keeps t u) : Keeps s u :=
  ⟨k.pending.trans h.pending, fun m => k.mem (h.mem m), fun m => k.objs (h.objs m)⟩

/-- A fold of operations that keep it. -/
theorem keeps_foldl {α : Type} {f : State → α → State} (h : ∀ s x, Keeps s (f s x)) : ∀ (l : List α) (s : State), Keeps s (l.foldl f s)
  | [], s => Keeps.refl s
  | x :: l, s => (h s x).trans (keeps_foldl h l (f s x))

/-- Either branch. -/
theorem keeps_ite {c : Prop} {_ : Decidable c} {s a b : State} (h : Keeps s a) (k : Keeps s b) : Keeps s (if c then a else b) := by split <;>
    assumption

theorem keeps_ite2 {α : Type} {c : Prop} {_ : Decidable c} {s : State} {a b : α × State} (h : Keeps s a.2) (k : Keeps s b.2) : Keeps s (if c then a
    else b).2 := by
  split <;> assumption

/-- The same, with an accumulator beside the state. -/
theorem keeps_foldlP {α β : Type} {f : α × State → β → α × State} (h : ∀ r x, Keeps r.2 (f r x).2) : ∀ (l : List β) (r : α × State), Keeps r.2
    (l.foldl f r).2
  | [], r => Keeps.refl r.2
  | x :: l, r => (h r x).trans (keeps_foldlP h l (f r x))

/-- Changing an object without its index. -/
theorem keeps_updObj (i : Nat) {f : Obj → Obj} (h : ∀ o, (f o).idx = o.idx) (s : State) : Keeps s (updObj i f s) where
  pending := rfl
  mem := id
  objs := objsOk_mapIf (fun o => o.idx = i) h

theorem keeps_updH (i : Nat) {f : Obj → Obj} (h : ∀ o, (f o).idx = o.idx) (s : State) : Keeps s (updH i f s) where
  pending := rfl
  mem := id
  objs := objsOk_mapIf (fun o => handleOf o = i) h

/-- A change of any field but the queue, the memories and the objects. -/
theorem keeps_mk {t : State} {x_gtc : Nat} {x_freeCount : Nat} {x_clk : Clk} {x_osl : Osl} {x_hif : Hif} {x_gens : List (Nat × Nat)} {x_eng : Eng}
    {x_isl : Isl} {x_sec : Sec} {x_sched : Sched} {x_boot : Boot} {x_pwr : Pwr} {x_leg : Leg} {x_pg : Pg} {x_swd : SwDev} {x_boost : Boost} {x_fbd :
    FbDev} {x_isb : Isb} {x_cand : CanDev} {x_kin : Kin} {x_board : Board} {x_trc : Trc} : Keeps t (State.mk t.pending x_gtc x_freeCount x_clk x_osl
    x_hif t.mailbox t.hostMem t.objs x_gens x_eng x_isl x_sec x_sched x_boot x_pwr x_leg x_pg x_swd x_boost x_fbd x_isb x_cand x_kin x_board x_trc)
    := ⟨rfl, id, id⟩

/-- With bytes written to the mailbox. -/
theorem keeps_mkMailbox {t : State} {x_gtc : Nat} {x_freeCount : Nat} {x_clk : Clk} {x_osl : Osl} {x_hif : Hif} {x_gens : List (Nat × Nat)} {x_eng :
    Eng} {x_isl : Isl} {x_sec : Sec} {x_sched : Sched} {x_boot : Boot} {x_pwr : Pwr} {x_leg : Leg} {x_pg : Pg} {x_swd : SwDev} {x_boost : Boost}
    {x_fbd : FbDev} {x_isb : Isb} {x_cand : CanDev} {x_kin : Kin} {x_board : Board} {x_trc : Trc} {a : Nat} {bs : List Byte} : Keeps t (State.mk
    t.pending x_gtc x_freeCount x_clk x_osl x_hif (memWriteN t.mailbox a bs) t.hostMem t.objs x_gens x_eng x_isl x_sec x_sched x_boot x_pwr x_leg
    x_pg x_swd x_boost x_fbd x_isb x_cand x_kin x_board x_trc) :=
  ⟨rfl, fun h => ⟨memWf_writeN _ _ _ h.1, h.2⟩, id⟩

/-- With bytes written to host memory. -/
theorem keeps_mkHostMem {t : State} {x_gtc : Nat} {x_freeCount : Nat} {x_clk : Clk} {x_osl : Osl} {x_hif : Hif} {x_gens : List (Nat × Nat)} {x_eng :
    Eng} {x_isl : Isl} {x_sec : Sec} {x_sched : Sched} {x_boot : Boot} {x_pwr : Pwr} {x_leg : Leg} {x_pg : Pg} {x_swd : SwDev} {x_boost : Boost}
    {x_fbd : FbDev} {x_isb : Isb} {x_cand : CanDev} {x_kin : Kin} {x_board : Board} {x_trc : Trc} {a : Nat} {bs : List Byte} : Keeps t (State.mk
    t.pending x_gtc x_freeCount x_clk x_osl x_hif t.mailbox (memWriteN t.hostMem a bs) t.objs x_gens x_eng x_isl x_sec x_sched x_boot x_pwr x_leg
    x_pg x_swd x_boost x_fbd x_isb x_cand x_kin x_board x_trc) :=
  ⟨rfl, fun h => ⟨h.1, memWf_writeN _ _ _ h.2⟩, id⟩

/-- With objects removed. -/
theorem keeps_mkFilter {t : State} {x_gtc : Nat} {x_freeCount : Nat} {x_clk : Clk} {x_osl : Osl} {x_hif : Hif} {x_gens : List (Nat × Nat)} {x_eng :
    Eng} {x_isl : Isl} {x_sec : Sec} {x_sched : Sched} {x_boot : Boot} {x_pwr : Pwr} {x_leg : Leg} {x_pg : Pg} {x_swd : SwDev} {x_boost : Boost}
    {x_fbd : FbDev} {x_isb : Isb} {x_cand : CanDev} {x_kin : Kin} {x_board : Board} {x_trc : Trc} {p : Obj → Bool} : Keeps t (State.mk t.pending
    x_gtc x_freeCount x_clk x_osl x_hif t.mailbox t.hostMem (t.objs.filter p) x_gens x_eng x_isl x_sec x_sched x_boot x_pwr x_leg x_pg x_swd x_boost
    x_fbd x_isb x_cand x_kin x_board x_trc) :=
  ⟨rfl, id, fun k => List.Pairwise.filter _ k⟩

/-- One after the other, the last first. -/
theorem Keeps.after {s t u : State} (k : Keeps t u) (h : Keeps s t) : Keeps s u := h.trans k

end Sys2Proof.Machine
end

