-- ==== Sys2Proof/Laws/KeepsShared.lean ====
section
/-! SUPPORT. `Keeps` for every operation and meaning: events, completions, tables, lines, faults, the link, engines, sessions, descriptors. Each meaning answers a next state. -/

namespace Sys2Proof.Machine

/-! ## Ops -/

theorem keeps_toInstant (t : Nat) (s : State)  : Keeps s (toInstant t s) := by
  unfold toInstant
  exact (keeps_ite keeps_mk (Keeps.refl _))

theorem keeps_takeFree (s : State) : Keeps s (takeFree s).2 := by
  unfold takeFree
  exact keeps_mk

theorem keeps_ptrWrite {p : Nat} {bs : List Byte} {s t : State} (h : ptrWrite p bs s = some t) : Keeps s t := by
  unfold ptrWrite at h
  split at h
  · split at h
    · cases h
    · cases h; exact keeps_mkMailbox
  · cases h; exact keeps_mkHostMem

theorem keeps_setRing (r : Nat) (f : Ring → Ring) (s : State)  : Keeps s (setRing r f s) := by
  unfold setRing
  exact keeps_mk

theorem keeps_sendVector (v : Nat) (s : State)  : Keeps s (sendVector v s) := by
  unfold sendVector
  exact (keeps_ite keeps_mk (keeps_ite (Keeps.refl _) (keeps_ite keeps_mk keeps_mkHostMem)))

theorem keeps_signalError (s : State)  : Keeps s (signalError s) := by
  unfold signalError
  exact (keeps_ite (keeps_sendVector ..) keeps_mk)

theorem keeps_ringMemWrite (g : Ring) (off : Nat) (bs : List Byte) (s : State)  : Keeps s (ringMemWrite g off bs s) := by
  unfold ringMemWrite
  exact (keeps_ite keeps_mkMailbox keeps_mkHostMem)

theorem keeps_ringSignal (r : Nat) (s : State)  : Keeps s (ringSignal r s) := by
  unfold ringSignal
  exact (Keeps.after (keeps_sendVector ..) (keeps_setRing ..))

theorem keeps_ringProduce (r : Nat) (e : List Byte) (ev : Option Ev) (now : Bool) (s : State)  : Keeps s (ringProduce r e ev now s) := by
  unfold ringProduce
  exact (Keeps.after (keeps_ite (keeps_ringSignal ..) (Keeps.refl _)) (Keeps.after (keeps_setRing ..) (keeps_ringMemWrite ..)))

theorem keeps_streamWrite (r : Nat) (e : List Byte) (s : State)  : Keeps s (streamWrite r e s) := by
  unfold streamWrite
  exact (keeps_ite (Keeps.refl _) (keeps_ite (keeps_ringProduce ..) (keeps_setRing ..)))

theorem keeps_logPut (e : List Byte) (s : State)  : Keeps s (logPut e s) := by
  unfold logPut
  exact (Keeps.after (keeps_streamWrite ..) keeps_mk)

theorem keeps_holdEvent (e : Ev) (s : State)  : Keeps s (holdEvent e s) := by
  unfold holdEvent
  exact (keeps_ite keeps_mk keeps_mk)

theorem keeps_deliver (e : Ev) (s : State) : Keeps s (deliver e s) := by
  unfold deliver; split
  · exact keeps_holdEvent ..
  · split
    · exact keeps_ringProduce ..
    · exact keeps_holdEvent ..

theorem keeps_trcEvent (code : Nat) (s : State)  : Keeps s (trcEvent code s) := by
  unfold trcEvent
  exact (keeps_ite keeps_mk (Keeps.refl _))

theorem keeps_raisePlain (t code cls handle epoch : Nat) (data : List Byte) (s : State)  : Keeps s (raisePlain t code cls handle epoch data s) := by
  unfold raisePlain
  exact (Keeps.after (keeps_trcEvent ..) (Keeps.after (keeps_deliver ..) keeps_mk))

theorem keeps_logWriteAt (t code cls lflags handle : Nat) (data : List Byte) (s : State)  : Keeps s (logWriteAt t code cls lflags handle data s) := by
  unfold logWriteAt
  exact (Keeps.after (keeps_ite (Keeps.after (keeps_raisePlain ..) (Keeps.after (keeps_logPut ..) keeps_mk)) (Keeps.refl _)) (keeps_logPut ..))

theorem keeps_logWrite (code cls lflags handle : Nat) (data : List Byte) (s : State)  : Keeps s (logWrite code cls lflags handle data s) := by
  unfold logWrite
  exact (keeps_logWriteAt ..)

theorem keeps_raiseAt (t code cls handle epoch : Nat) (data : List Byte) (s : State)  : Keeps s (raiseAt t code cls handle epoch data s) := by
  unfold raiseAt
  exact (Keeps.after (keeps_raisePlain ..) (keeps_ite (keeps_logWriteAt ..) (Keeps.refl _)))

theorem keeps_raiseE (code cls handle epoch : Nat) (data : List Byte) (s : State)  : Keeps s (raiseE code cls handle epoch data s) := by
  unfold raiseE
  exact (keeps_raiseAt ..)

theorem keeps_raise0 (code handle : Nat) (data : List Byte) (s : State)  : Keeps s (raise0 code handle data s) := by
  unfold raise0
  exact (keeps_raiseE ..)

theorem keeps_raiseHeld (first : Bool) (len code cls handle sub epoch : Nat) (data : List Byte) (countAt countLen : Nat) (s : State)  : Keeps s
    (raiseHeld first len code cls handle sub epoch data countAt countLen s) := by
  unfold raiseHeld
  exact (keeps_ite keeps_mk (Keeps.after (keeps_raiseE ..) keeps_mk))

theorem keeps_raiseLimited (len code cls handle sub epoch : Nat) (data : List Byte) (countAt countLen : Nat) (s : State)  : Keeps s (raiseLimited len
    code cls handle sub epoch data countAt countLen s) := by
  unfold raiseLimited
  exact (keeps_raiseHeld ..)

theorem keeps_sqResetEnd (sq : Nat) (s : State)  : Keeps s (sqResetEnd sq s) := by
  unfold sqResetEnd
  exact (keeps_ite (keeps_setRing ..) (Keeps.refl _))

theorem keeps_unreserve (cq : Nat) (s : State)  : Keeps s (unreserve cq s) := by
  unfold unreserve
  exact (keeps_setRing ..)

theorem keeps_cqEntry (cq : Nat) (e : List Byte) (now : Bool) (s : State)  : Keeps s (cqEntry cq e now s) := by
  unfold cqEntry
  exact (keeps_ite (Keeps.refl _) (keeps_ite (Keeps.after (keeps_setRing ..) (keeps_unreserve ..)) (Keeps.after (keeps_ringProduce ..)
      (keeps_unreserve ..))))

theorem keeps_postCompletion (st : Started) (r : Reply) (s : State)  : Keeps s (postCompletion st r s) := by
  unfold postCompletion
  exact (keeps_ite (keeps_ite (Keeps.refl _) (keeps_unreserve ..)) (keeps_ite keeps_mk (keeps_ite keeps_mk (keeps_cqEntry ..))))

theorem keeps_finish (x : Started) (r : Reply) (s : State)  : Keeps s (finish x r s) := by
  unfold finish
  exact (Keeps.after (keeps_sqResetEnd ..) (Keeps.after keeps_mk (keeps_postCompletion ..)))

theorem keeps_settle : ∀ (n : Nat) (s : State), Keeps s (settle n s)
  | 0, s => Keeps.refl s
  | n + 1, s => by
    unfold settle; split
    · exact Keeps.refl s
    · exact (keeps_finish ..).trans (keeps_settle n _)

theorem keeps_complete (d : Desc) (r : Reply) (s : State)  : Keeps s (complete d r s) := by
  unfold complete
  exact (Keeps.after (keeps_settle ..) (keeps_finish ..))

theorem keeps_fail (d : Desc) (status : Nat) (s : State)  : Keeps s (fail d status s) := by
  unfold fail
  exact (keeps_complete ..)

theorem keeps_failWith (d : Desc) (status : Nat) (result : List Byte) (s : State)  : Keeps s (failWith d status result s) := by
  unfold failWith
  exact (keeps_complete ..)

theorem keeps_okWith (d : Desc) (result : List Byte) (s : State)  : Keeps s (okWith d result s) := by
  unfold okWith
  exact (keeps_complete ..)

theorem keeps_ok (d : Desc) (s : State)  : Keeps s (ok d s) := by
  unfold ok
  exact (keeps_complete ..)

theorem keeps_defer (d : Desc) (op handle due : Nat) (result : List Byte) (arg : Nat) (s : State)  : Keeps s (defer d op handle due result arg s) :=
    by
  unfold defer
  exact (Keeps.after (keeps_settle ..) keeps_mk)

theorem keeps_completeDeferred (x : Deferred) (r : Reply) (s : State)  : Keeps s (completeDeferred x r s) := by
  unfold completeDeferred
  exact (Keeps.after (keeps_sqResetEnd ..) (Keeps.after keeps_mk (keeps_postCompletion ..)))

theorem keeps_finishDeferred (op h : Nat) (r : Reply) (s : State) : Keeps s (finishDeferred op h r s) := by
  unfold finishDeferred; split
  · exact Keeps.refl s
  · exact keeps_completeDeferred ..

theorem keeps_writeBack (d : Desc) (bs : List Byte) (r : Reply) (s : State) : Keeps s (writeBack d bs r s) := by
  unfold writeBack; split
  · next t h => exact (keeps_ptrWrite h).trans (keeps_complete ..)
  · exact (keeps_raise0 ..).trans (keeps_complete ..)



theorem keeps_setOst (i : Nat) (st : OState) (s : State)  : Keeps s (setOst i st s) := by
  unfold setOst
  exact (keeps_updObj _ (by intro _; rfl) _)

theorem keeps_after {r : Host.Outcome State Fault Refusal} {s t : State} (h : ∃ u, r = .next u ∧ Keeps s u) : Keeps s (after r t) := by
  obtain ⟨u, rfl, k⟩ := h
  exact k

/-! ## Clock -/

theorem keeps_execGtcLoRead (s : State) : ∃ u, execGtcLoRead s = .next u ∧ Keeps s u := by
  unfold execGtcLoRead
  exact ⟨_, rfl, keeps_mk⟩

theorem keeps_execPpsCapLoRead (s : State) : ∃ u, execPpsCapLoRead s = .next u ∧ Keeps s u := by
  unfold execPpsCapLoRead
  exact ⟨_, rfl, keeps_mk⟩

theorem keeps_execGtcDiscEnable (s : State) : ∃ u, execGtcDiscEnable s = .next u ∧ Keeps s u := by
  unfold execGtcDiscEnable
  exact ⟨_, rfl, (keeps_ite (Keeps.refl _) keeps_mk)⟩

theorem keeps_execGtcDiscDisable (s : State) : ∃ u, execGtcDiscDisable s = .next u ∧ Keeps s u := by
  unfold execGtcDiscDisable
  exact ⟨_, rfl, keeps_mk⟩

theorem keeps_execGtcFreqAdjWrite (v : Int) (s : State) : ∃ u, execGtcFreqAdjWrite v s = .next u ∧ Keeps s u := by
  unfold execGtcFreqAdjWrite
  exact ⟨_, rfl, (keeps_ite keeps_mk (Keeps.refl _))⟩

theorem keeps_ppsDiscipline (t : Nat) (s : State)  : Keeps s (ppsDiscipline t s) := by
  unfold ppsDiscipline
  exact (by (try extract_lets); split; exact keeps_mk; exact (keeps_ite (Keeps.after (keeps_raise0 ..) keeps_mk) (Keeps.after (keeps_ite (keeps_raise0 ..) (Keeps.refl _)) keeps_mk)))

theorem keeps_clkPpsEdge (t : Nat) (falling : Bool) (s : State)  : Keeps s (clkPpsEdge t falling s) := by
  unfold clkPpsEdge
  exact (keeps_ite (keeps_ppsDiscipline ..) (Keeps.refl _))

theorem keeps_execPpsHoldoverTimeout (s : State) : ∃ u, execPpsHoldoverTimeout s = .next u ∧ Keeps s u := by
  unfold execPpsHoldoverTimeout
  exact ⟨_, rfl, (keeps_ite (Keeps.after (keeps_raise0 ..) (Keeps.after keeps_mk (keeps_toInstant ..))) (Keeps.refl _))⟩

theorem keeps_freqAdjApply (s : State)  : Keeps s (freqAdjApply s) := by
  unfold freqAdjApply
  exact (keeps_ite keeps_mk keeps_mk)

/-! ## Tables -/

theorem keeps_curveAt (h : Nat) (v : F32) (s : State) : Keeps s (curveAt h v s).2 := by
  unfold curveAt
  exact (by (try extract_lets); split; exact (Keeps.refl _); exact (keeps_ite (keeps_raiseLimited ..) (Keeps.refl _)))

theorem keeps_smQueue (h off code : Nat) (s : State)  : Keeps s (smQueue h off code s) := by
  unfold smQueue
  exact (by (try extract_lets); split; exact (Keeps.refl _); exact (by (try extract_lets); split; exact (Keeps.refl _); exact (keeps_ite (keeps_updH _ (by intro _; rfl) _) (keeps_raise0 ..))))

theorem keeps_execSmEventArrival (h off code : Nat) (s : State) : ∃ u, execSmEventArrival h off code s = .next u ∧ Keeps s u := by
  unfold execSmEventArrival
  exact ⟨_, rfl, (keeps_smQueue ..)⟩

theorem keeps_updSm (h off : Nat) (f : Sm → Sm) (s : State)  : Keeps s (updSm h off f s) := by
  unfold updSm
  exact (keeps_updH _ (by intro _; rfl) _)

theorem keeps_smDue (h off : Nat) (s : State)  : Keeps s (smDue h off s) := by
  unfold smDue
  exact (by (try extract_lets); split; exact (Keeps.refl _); exact (Keeps.after (keeps_foldl (fun _ _ => (keeps_smQueue ..)) _ _) (keeps_updSm ..)))

theorem keeps_execSmTimerExpiry (h off timer : Nat) (s : State) : ∃ u, execSmTimerExpiry h off timer s = .next u ∧ Keeps s u := by
  unfold execSmTimerExpiry
  exact ⟨_, rfl, (by (try extract_lets); split; exact (Keeps.refl _); exact (Keeps.after (keeps_updSm ..) (keeps_toInstant ..)))⟩

theorem keeps_fmtBuild (h : Nat) (vars : Nat → F32) (s : State) : Keeps s (fmtBuild h vars s).2 := by
  unfold fmtBuild
  exact (by (try extract_lets); split; exact (Keeps.refl _); exact (keeps_foldl (fun _ _ => (keeps_raiseLimited ..)) _ _))

/-! ## Params -/

theorem keeps_takeIndex {s : State} {x : (Nat × Nat) × State} (h : takeIndex s = some x) : Keeps s x.2 := by
  unfold takeIndex at h
  generalize freeIndices s = fr at h
  dsimp only at h
  split at h
  · cases h
  · cases h; exact keeps_takeFree ..

/-! ## Outputs -/

theorem keeps_updPwm (i : Nat) (f : PwmRt → PwmRt) (s : State)  : Keeps s (updPwm i f s) := by
  unfold updPwm
  exact (keeps_updObj _ (by intro _; rfl) _)

theorem keeps_updSw (i : Nat) (f : SwRt → SwRt) (s : State)  : Keeps s (updSw i f s) := by
  unfold updSw
  exact (keeps_updObj _ (by intro _; rfl) _)

theorem keeps_updSol (i : Nat) (f : SolRt → SolRt) (s : State)  : Keeps s (updSol i f s) := by
  unfold updSol
  exact (keeps_updObj _ (by intro _; rfl) _)

theorem keeps_updChan (i : Nat) (f : ChRt → ChRt) (s : State)  : Keeps s (updChan i f s) := by
  unfold updChan
  exact (keeps_updObj _ (by intro _; rfl) _)

theorem keeps_chReason (i reason : Nat) (s : State)  : Keeps s (chReason i reason s) := by
  unfold chReason
  exact (keeps_updChan ..)

theorem keeps_senseReason (h reason : Nat) (s : State)  : Keeps s (senseReason h reason s) := by
  unfold senseReason
  exact (keeps_foldl (fun _ _ => (keeps_chReason ..)) _ _)

theorem keeps_flowMark (i t : Nat) (on : Bool) (s : State)  : Keeps s (flowMark i t on s) := by
  unfold flowMark
  exact (keeps_updChan ..)

theorem keeps_flowEnd (o : Obj) (s : State)  : Keeps s (flowEnd o s) := by
  unfold flowEnd
  exact (keeps_ite (keeps_flowMark ..) (Keeps.refl _))

theorem keeps_forcedOff (h : Nat) (s : State)  : Keeps s (forcedOff h s) := by
  unfold forcedOff
  exact (keeps_foldl (fun _ _ => (keeps_flowEnd ..)) _ _)

theorem keeps_updGroup (g : Nat) (f : PgGroup → PgGroup) (s : State)  : Keeps s (updGroup g f s) := by
  unfold updGroup
  exact keeps_mk

theorem keeps_swRefresh (i : Nat) (s : State)  : Keeps s (swRefresh i s) := by
  unfold swRefresh
  exact (by (try extract_lets); split; exact (Keeps.refl _); exact (Keeps.after (keeps_ite (keeps_forcedOff ..) (Keeps.refl _)) (keeps_ite (Keeps.refl _) (keeps_updSw ..))))

theorem keeps_swOnCmd (i : Nat) (s : State)  : Keeps s (swOnCmd i s) := by
  unfold swOnCmd
  exact (by (try extract_lets); split; exact (Keeps.refl _); exact (keeps_ite (Keeps.refl _) (Keeps.after (keeps_swRefresh ..) (keeps_updSw ..))))

theorem keeps_swOffCmd (i : Nat) (s : State)  : Keeps s (swOffCmd i s) := by
  unfold swOffCmd
  exact (Keeps.after (keeps_swRefresh ..) (keeps_updSw ..))

theorem keeps_pwmRefresh (i : Nat) (s : State)  : Keeps s (pwmRefresh i s) := by
  unfold pwmRefresh
  exact (by (try extract_lets); split; exact (Keeps.refl _); exact (keeps_ite (by (try extract_lets); split; exact (Keeps.after (keeps_swRefresh ..) (keeps_ite (Keeps.after (keeps_forcedOff ..) (keeps_updPwm ..)) (keeps_updPwm ..))); exact (keeps_ite (Keeps.after (keeps_forcedOff ..) (keeps_updPwm ..)) (keeps_updPwm ..))) (keeps_ite (Keeps.after (keeps_forcedOff ..) (keeps_updPwm ..)) (keeps_updPwm ..))))

theorem keeps_pwmGateClose (i : Nat) (s : State)  : Keeps s (pwmGateClose i s) := by
  unfold pwmGateClose
  exact (by (try extract_lets); split; exact (Keeps.after (keeps_swOffCmd ..) (Keeps.after (keeps_pwmRefresh ..) (keeps_updPwm ..))); exact (Keeps.after (keeps_pwmRefresh ..) (keeps_updPwm ..)))

theorem keeps_pwmGateOpen (i : Nat) (force : Option Nat) (s : State)  : Keeps s (pwmGateOpen i force s) := by
  unfold pwmGateOpen
  exact (by (try extract_lets); split; exact (Keeps.refl _); exact (keeps_ite (Keeps.refl _) (Keeps.after (keeps_pwmRefresh ..) (by (try extract_lets); split; exact (Keeps.after (keeps_swOnCmd ..) (keeps_updPwm ..)); exact (keeps_updPwm ..)))))

theorem keeps_setHs (b : Nat) (on : Bool) (s : State)  : Keeps s (setHs b on s) := by
  unfold setHs
  exact (keeps_ite (Keeps.refl _) keeps_mk)

theorem keeps_setLs (i : Nat) (on : Bool) (s : State)  : Keeps s (setLs i on s) := by
  unfold setLs
  exact (keeps_updSol ..)

theorem keeps_windowReason (i : Nat) (reason : Nat) (s : State)  : Keeps s (windowReason i reason s) := by
  unfold windowReason
  exact (Keeps.after (keeps_updSol ..) (by (try extract_lets); split; exact (keeps_senseReason ..); exact (Keeps.refl _)))

theorem keeps_windowCut (i : Nat) (s : State)  : Keeps s (windowCut i s) := by
  unfold windowCut
  exact (Keeps.after (keeps_updSol ..) (by (try extract_lets); split; exact (keeps_foldl (fun _ _ => (keeps_updChan ..)) _ _); exact (Keeps.refl _)))

theorem keeps_bankSettle (b : Nat) (was : Nat) (s : State)  : Keeps s (bankSettle b was s) := by
  unfold bankSettle
  exact (Keeps.after (keeps_ite (keeps_setHs ..) (keeps_ite (keeps_setHs ..) (Keeps.refl _))) (Keeps.after (keeps_ite (keeps_foldl (fun _ _ =>
      (keeps_updSol ..)) _ _) (Keeps.refl _)) (keeps_foldl (fun _ _ => (keeps_windowReason ..)) _ _)))

theorem keeps_boostSettle (s : State)  : Keeps s (boostSettle s) := by
  unfold boostSettle
  exact keeps_mk

theorem keeps_solPeak (i : Nat) (s : State)  : Keeps s (solPeak i s) := by
  unfold solPeak
  exact (by (try extract_lets); split; exact (Keeps.refl _); exact (Keeps.after (keeps_bankSettle ..) (Keeps.after (keeps_setLs ..) (Keeps.after (keeps_setHs ..) (keeps_updSol ..)))))

theorem keeps_dequeue (h : Nat) (s : State)  : Keeps s (dequeue h s) := by
  unfold dequeue
  exact keeps_mk

theorem keeps_boostSkip (o : Obj) (s : State)  : Keeps s (boostSkip o s) := by
  unfold boostSkip
  exact (Keeps.after (keeps_solPeak ..) (Keeps.after (keeps_windowReason ..) (Keeps.after (keeps_dequeue ..) (Keeps.after (keeps_raise0 ..)
      (Keeps.after keeps_mk (keeps_updSol ..))))))

theorem keeps_boostStart (o : Obj) (s : State)  : Keeps s (boostStart o s) := by
  unfold boostStart
  exact (Keeps.after (keeps_boostSettle ..) (Keeps.after (keeps_bankSettle ..) (Keeps.after (keeps_setLs ..) (Keeps.after (keeps_setHs ..)
      (Keeps.after keeps_mk (keeps_updSol ..))))))

theorem keeps_boostBegin (s : State)  : Keeps s (boostBegin s) := by
  unfold boostBegin
  exact (by (try extract_lets); split; exact (Keeps.refl _); exact (keeps_ite (keeps_boostStart ..) (Keeps.refl _)))

theorem keeps_solMissed (o : Obj) (s : State)  : Keeps s (solMissed o s) := by
  unfold solMissed
  exact (keeps_ite (Keeps.refl _) (Keeps.after (keeps_ite (keeps_raiseLimited ..) (Keeps.refl _)) (keeps_updSol ..)))

theorem keeps_solStart (i : Nat) (s : State)  : Keeps s (solStart i s) := by
  unfold solStart
  exact (by (try extract_lets); split; exact (Keeps.refl _); exact (Keeps.after (keeps_ite (keeps_solPeak ..) (keeps_ite (keeps_boostSkip ..) (Keeps.after (keeps_boostSettle ..) (Keeps.after keeps_mk (Keeps.after (keeps_setLs ..) (keeps_updSol ..)))))) (Keeps.after (keeps_updSol ..) (keeps_foldl (fun _ _ => (Keeps.after (keeps_setLs ..) (keeps_windowCut ..))) _ _))))

theorem keeps_solWindowEnd (i : Nat) (sig : Option Nat) (reason : Nat) (s : State)  : Keeps s (solWindowEnd i sig reason s) := by
  unfold solWindowEnd
  exact (by (try extract_lets); split; exact (Keeps.refl _); exact (keeps_ite (Keeps.refl _) (by (try extract_lets); split; exact (keeps_updSol ..); exact (Keeps.after (keeps_completeDeferred ..) (keeps_updSol ..)))))

theorem keeps_windowOpen (i : Nat) (on : Bool) (s : State)  : Keeps s (windowOpen i on s) := by
  unfold windowOpen
  exact (by (try extract_lets); split; exact (Keeps.refl _); exact (keeps_updSol ..))

theorem keeps_solOn (i : Nat) (s : State)  : Keeps s (solOn i s) := by
  unfold solOn
  exact (by (try extract_lets); split; exact (Keeps.refl _); exact (keeps_ite (Keeps.refl _) (keeps_ite (keeps_updSol ..) (Keeps.after (keeps_ite (Keeps.refl _) (keeps_solStart ..)) (Keeps.after (keeps_windowOpen ..) (Keeps.after (keeps_updSol ..) (Keeps.after (keeps_updObj _ (by intro _; rfl) _) (keeps_solWindowEnd ..))))))))

theorem keeps_solRelease (i : Nat) (s : State)  : Keeps s (solRelease i s) := by
  unfold solRelease
  exact (by (try extract_lets); split; exact (Keeps.refl _); exact (Keeps.after (keeps_boostBegin ..) (Keeps.after (keeps_boostSettle ..) (Keeps.after (keeps_ite (Keeps.after (keeps_bankSettle ..) (Keeps.after (keeps_setLs ..) (keeps_updSol ..))) (keeps_updSol ..)) (keeps_dequeue ..)))))

theorem keeps_solOff (i : Nat) (s : State)  : Keeps s (solOff i s) := by
  unfold solOff
  exact (by (try extract_lets); split; exact (Keeps.refl _); exact (keeps_ite (Keeps.refl _) (Keeps.after (keeps_solRelease ..) (Keeps.after (keeps_windowOpen ..) (Keeps.after (keeps_updSol ..) (Keeps.after (keeps_solWindowEnd ..) (keeps_ite (keeps_solMissed ..) (Keeps.refl _))))))))

theorem keeps_solCut (i : Nat) (s : State)  : Keeps s (solCut i s) := by
  unfold solCut
  exact (by (try extract_lets); split; exact (Keeps.refl _); exact (Keeps.after (keeps_boostBegin ..) (Keeps.after (keeps_boostSettle ..) (Keeps.after (keeps_bankSettle ..) (Keeps.after (keeps_setLs ..) (Keeps.after (keeps_updSol ..) (Keeps.after (keeps_forcedOff ..) (Keeps.after (keeps_windowCut ..) (keeps_dequeue ..)))))))))

theorem keeps_gateOpen (h : Nat) (force : Option Nat) (s : State)  : Keeps s (gateOpen h force s) := by
  unfold gateOpen
  exact (by (try extract_lets); split; exact (Keeps.refl _); exact (keeps_ite (keeps_pwmGateOpen ..) (keeps_ite (Keeps.after (keeps_swOnCmd ..) (keeps_updSw ..)) (keeps_ite (keeps_solOn ..) (Keeps.refl _)))))

theorem keeps_gateClose (h : Nat) (s : State)  : Keeps s (gateClose h s) := by
  unfold gateClose
  exact (by (try extract_lets); split; exact (Keeps.refl _); exact (keeps_ite (keeps_pwmGateClose ..) (keeps_ite (Keeps.after (keeps_swOffCmd ..) (keeps_updSw ..)) (keeps_ite (keeps_solOff ..) (Keeps.refl _)))))

theorem keeps_shadowPush (i : Nat) (s : State)  : Keeps s (shadowPush i s) := by
  unfold shadowPush
  exact (keeps_updObj _ (by intro _; rfl) _)

theorem keeps_writeDuty (h : Nat) (duty : F32) (phase : Option Nat) (s : State)  : Keeps s (writeDuty h duty phase s) := by
  unfold writeDuty
  exact (by (try extract_lets); split; exact (Keeps.refl _); exact (Keeps.after (keeps_updPwm ..) (Keeps.after (keeps_updObj _ (by intro _; rfl) _) (keeps_shadowPush ..))))

/-! ## Readings -/

theorem keeps_updFb (i : Nat) (f : FbRt → FbRt) (s : State)  : Keeps s (updFb i f s) := by
  unfold updFb
  exact (keeps_updObj _ (by intro _; rfl) _)

/-! ## Loads -/

theorem keeps_updEngine (e : Nat) (f : Engine → Engine) (s : State)  : Keeps s (updEngine e f s) := by
  unfold updEngine
  exact keeps_mk

theorem keeps_addLoad (e msk cost : Nat) (sub : Bool) (s : State)  : Keeps s (addLoad e msk cost sub s) := by
  unfold addLoad
  exact (keeps_updEngine ..)

theorem keeps_abandonMove (h status : Nat) (s : State)  : Keeps s (abandonMove h status s) := by
  unfold abandonMove
  exact (by (try extract_lets); split; exact (Keeps.refl _); exact (Keeps.after (keeps_finishDeferred ..) (Keeps.after keeps_mk (keeps_addLoad ..))))

/-! ## Motors -/

theorem keeps_updAx (i : Nat) (f : AxRt → AxRt) (s : State)  : Keeps s (updAx i f s) := by
  unfold updAx
  exact (keeps_updObj _ (by intro _; rfl) _)

theorem keeps_axDuties (t p : Nat) (o : Obj) (s : State)  : Keeps s (axDuties t p o s) := by
  unfold axDuties
  exact (Keeps.after (keeps_updAx ..) (keeps_foldl (fun _ _ => (by (try extract_lets); split; exact (Keeps.refl _); exact (Keeps.after (keeps_updPwm ..) (keeps_updObj _ (by intro _; rfl) _)))) _ _))

theorem keeps_axOption (i opt : Nat) (s : State)  : Keeps s (axOption i opt s) := by
  unfold axOption
  exact (by (try extract_lets); split; exact (Keeps.refl _); exact (Keeps.after (keeps_ite (keeps_foldl (fun _ _ => (keeps_gateClose ..)) _ _) (Keeps.refl _)) (keeps_updAx ..)))

theorem keeps_axWake (i : Nat) (s : State)  : Keeps s (axWake i s) := by
  unfold axWake
  exact (by (try extract_lets); split; exact (Keeps.refl _); exact (keeps_ite (Keeps.refl _) (Keeps.after (keeps_ite (keeps_foldl (fun _ _ => (keeps_gateOpen ..)) _ _) (Keeps.refl _)) (keeps_updAx ..))))

theorem keeps_axEnd (i status : Nat) (s : State)  : Keeps s (axEnd i status s) := by
  unfold axEnd
  exact (by (try extract_lets); split; exact (Keeps.refl _); exact (keeps_ite (Keeps.refl _) (keeps_ite (keeps_updAx ..) (by (try extract_lets); split; exact (keeps_updAx ..); exact (Keeps.after (keeps_completeDeferred ..) (keeps_updAx ..))))))

theorem keeps_axDropPending (i status : Nat) (s : State)  : Keeps s (axDropPending i status s) := by
  unfold axDropPending
  exact (by (try extract_lets); split; exact (Keeps.refl _); exact (by (try extract_lets); split; exact (Keeps.refl _); exact (keeps_completeDeferred ..)))

theorem keeps_axCancel (i : Nat) (s : State)  : Keeps s (axCancel i s) := by
  unfold axCancel
  exact (by (try extract_lets); split; exact (Keeps.refl _); exact (Keeps.after (keeps_foldl (fun _ _ => (keeps_completeDeferred ..)) _ _) (keeps_updAx ..)))

theorem keeps_axHomeFail (i reason : Nat) (s : State)  : Keeps s (axHomeFail i reason s) := by
  unfold axHomeFail
  exact (by (try extract_lets); split; exact (Keeps.refl _); exact (keeps_ite (Keeps.refl _) (Keeps.after (keeps_raiseE ..) (keeps_updAx ..))))

theorem keeps_becomeFaulted (o : Obj) (s : State)  : Keeps s (becomeFaulted o s) := by
  unfold becomeFaulted
  exact (Keeps.after (keeps_forcedOff ..) (Keeps.after (keeps_abandonMove ..) (keeps_setOst ..)))

theorem keeps_axSettle (i : Nat) (s : State)  : Keeps s (axSettle i s) := by
  unfold axSettle
  exact (by (try extract_lets); split; exact (Keeps.refl _); exact (keeps_ite (Keeps.refl _) (Keeps.after (keeps_ite (keeps_becomeFaulted ..) (Keeps.refl _)) (Keeps.after (keeps_ite (keeps_axOption ..) (keeps_ite (keeps_ite (keeps_axOption ..) (keeps_axOption ..)) (Keeps.refl _))) (Keeps.after (keeps_ite (Keeps.refl _) (keeps_finishDeferred ..)) (Keeps.after (keeps_foldl (fun _ _ => (keeps_ok ..)) _ _) (keeps_updAx ..)))))))

theorem keeps_axStop (i : Nat) (cut : Bool) (s : State)  : Keeps s (axStop i cut s) := by
  unfold axStop
  exact (Keeps.after (keeps_axSettle ..) (Keeps.after (keeps_updAx ..) (keeps_axEnd ..)))

theorem keeps_axFaultAct (o : Obj) (s : State)  : Keeps s (axFaultAct o s) := by
  unfold axFaultAct
  exact (Keeps.after (keeps_axStop ..) (Keeps.after (keeps_updAx ..) (Keeps.after (keeps_axCancel ..) (Keeps.after (keeps_axDropPending ..)
      (keeps_axHomeFail ..)))))

theorem keeps_axDeviceFault (o : Obj) (s : State)  : Keeps s (axDeviceFault o s) := by
  unfold axDeviceFault
  exact (Keeps.after (keeps_axStop ..) (Keeps.after (keeps_updAx ..) (Keeps.after (keeps_axCancel ..) (Keeps.after (keeps_axDropPending ..)
      (keeps_axHomeFail ..)))))

theorem keeps_axSafe (i : Nat) (s : State)  : Keeps s (axSafe i s) := by
  unfold axSafe
  exact (keeps_updAx ..)

theorem keeps_axTakeTarget (i : Nat) (t : ATgt) (host : Bool) (s : State)  : Keeps s (axTakeTarget i t host s) := by
  unfold axTakeTarget
  exact (by (try extract_lets); split; exact (Keeps.refl _); exact (Keeps.after (keeps_ite (keeps_axWake ..) (Keeps.refl _)) (Keeps.after (keeps_updAx ..) (Keeps.after (keeps_ite (keeps_takeFree ..) (Keeps.refl _)) (keeps_axEnd ..)))))

/-! ## Channels -/

theorem keeps_updSec (i : Nat) (f : SecRt → SecRt) (s : State)  : Keeps s (updSec i f s) := by
  unfold updSec
  exact (keeps_updObj _ (by intro _; rfl) _)

theorem keeps_secReport (n : Nat) (m : Nat × Nat) (k : EdgeEnd) (s : State)  : Keeps s (secReport n m k s) := by
  unfold secReport
  exact (by (try extract_lets); split; exact (Keeps.refl _); exact (keeps_ite (by (try extract_lets); split; exact (Keeps.after (keeps_completeDeferred ..) keeps_mk); exact keeps_mk) keeps_mk))

theorem keeps_cancelReport (pos h n : Nat) (s : State)  : Keeps s (cancelReport pos h n s) := by
  unfold cancelReport
  exact (by (try extract_lets); split; exact (Keeps.refl _); exact (keeps_ite (by (try extract_lets); split; exact (Keeps.after (keeps_completeDeferred ..) keeps_mk); exact keeps_mk) keeps_mk))

theorem keeps_lostReports (pos : Nat) (s : State)  : Keeps s (lostReports pos s) := by
  unfold lostReports
  exact (Keeps.after (keeps_foldl (fun _ _ => (keeps_cancelReport ..)) _ _) (keeps_foldl (fun _ _ => (keeps_secReport ..)) _ _))

theorem keeps_edgeReport (o : Obj) (cmd : Option Nat) (on : Bool) (k : EdgeEnd) (dist reason t : Nat) (s : State)  : Keeps s (edgeReport o cmd on k
    dist reason t s) := by
  unfold edgeReport
  exact (by (try extract_lets); split; exact (Keeps.refl _); exact (by (try extract_lets); split; exact (keeps_completeDeferred ..); exact (keeps_ite keeps_mk (keeps_secReport ..))))

theorem keeps_chOff (o : Obj) (s : State)  : Keeps s (chOff o s) := by
  unfold chOff
  exact (Keeps.after (keeps_ite (keeps_flowEnd ..) (Keeps.refl _)) (keeps_ite (by (try extract_lets); split; exact (keeps_ite (Keeps.after (keeps_axTakeTarget ..) (keeps_updChan ..)) (keeps_updChan ..)); exact (keeps_updChan ..)) (Keeps.after (keeps_gateClose ..) (keeps_updChan ..))))

theorem keeps_chClear (o : Obj) (status : Nat) (s : State)  : Keeps s (chClear o status s) := by
  unfold chClear
  exact (by (try extract_lets); split; exact (Keeps.refl _); exact (Keeps.after (keeps_foldl (fun _ _ => (keeps_edgeReport ..)) _ _) (keeps_ite (by (try extract_lets); split; exact (Keeps.after (keeps_axTakeTarget ..) (keeps_updChan ..)); exact (keeps_updChan ..)) (keeps_updChan ..))))

theorem keeps_chFaultAct (o : Obj) (s : State)  : Keeps s (chFaultAct o s) := by
  unfold chFaultAct
  exact (Keeps.after (keeps_chClear ..) (keeps_ite (keeps_chOff ..) (Keeps.refl _)))

theorem keeps_latSave (s : State)  : Keeps s (latSave s) := by
  unfold latSave
  exact keeps_mk

/-! ## FaultActs -/

theorem keeps_refreshAll (s : State)  : Keeps s (refreshAll s) := by
  unfold refreshAll
  exact (Keeps.after (keeps_ite (Keeps.after keeps_mk (keeps_foldl (fun _ _ => (keeps_solCut ..)) _ _)) (Keeps.refl _)) (Keeps.after (keeps_ite
      (keeps_foldl (fun _ _ => (Keeps.after (keeps_forcedOff ..) (keeps_axSafe ..))) _ _) (Keeps.refl _)) (Keeps.after (keeps_foldl (fun _ _ =>
      (keeps_swRefresh ..)) _ _) (keeps_foldl (fun _ _ => (keeps_pwmRefresh ..)) _ _))))

theorem keeps_safeForce (s : State)  : Keeps s (safeForce s) := by
  unfold safeForce
  exact (Keeps.after (keeps_refreshAll ..) keeps_mk)

theorem keeps_updLoop (i : Nat) (f : LoopRt → LoopRt) (s : State)  : Keeps s (updLoop i f s) := by
  unfold updLoop
  exact (keeps_updObj _ (by intro _; rfl) _)

theorem keeps_loopWrite (o : Obj) (u : F32) (s : State)  : Keeps s (loopWrite o u s) := by
  unfold loopWrite
  exact (by (try extract_lets); split; exact (keeps_updLoop ..); exact (keeps_ite (Keeps.after (keeps_writeDuty ..) (keeps_updLoop ..)) (keeps_ite (Keeps.after (keeps_updSol ..) (keeps_updLoop ..)) (keeps_ite (Keeps.after (keeps_updAx ..) (keeps_updLoop ..)) (keeps_updLoop ..)))))

theorem keeps_faultAct (o : Obj) (s : State)  : Keeps s (faultAct o s) := by
  unfold faultAct
  exact (keeps_ite (keeps_gateClose ..) (keeps_ite (keeps_chFaultAct ..) (keeps_ite (keeps_loopWrite ..) (Keeps.refl _))))

/-! ## Faults -/

theorem keeps_faultObj (h : Nat) (s : State)  : Keeps s (faultObj h s) := by
  unfold faultObj
  exact (by (try extract_lets); split; exact (Keeps.refl _); exact (keeps_ite (Keeps.refl _) (keeps_ite (Keeps.after (keeps_axFaultAct ..) (keeps_updAx ..)) (Keeps.after (keeps_becomeFaulted ..) (keeps_faultAct ..)))))

theorem keeps_sendFault (pos kind h : Nat) (data : List Byte) (s : State)  : Keeps s (sendFault pos kind h data s) := by
  unfold sendFault
  exact keeps_mk

theorem keeps_linkFault (pos h : Nat) (s : State)  : Keeps s (linkFault pos h s) := by
  unfold linkFault
  exact (keeps_foldl (fun _ _ => (keeps_ite (keeps_faultObj ..) (keeps_ite (Keeps.refl _) (keeps_sendFault ..)))) _ _)

theorem keeps_class1 (h code : Nat) (data : List Byte) (s : State)  : Keeps s (class1 h code data s) := by
  unfold class1
  exact (Keeps.after (keeps_ite (Keeps.after (keeps_ite (keeps_sendFault ..) (Keeps.refl _)) (Keeps.after (keeps_linkFault ..) (keeps_faultObj ..)))
      (Keeps.refl _)) (Keeps.after (keeps_updH _ (by intro _; rfl) _) (keeps_raiseE ..)))

theorem keeps_execClass1Fault (h code : Nat) (s : State) : ∃ u, execClass1Fault h code s = .next u ∧ Keeps s u := by
  unfold execClass1Fault
  exact ⟨_, rfl, (by (try extract_lets); split; exact (Keeps.refl _); exact (keeps_class1 ..))⟩

theorem keeps_holdDisposition (o : Obj) (s : State)  : Keeps s (holdDisposition o s) := by
  unfold holdDisposition
  exact (keeps_ite (keeps_updPwm ..) (keeps_ite (keeps_axDeviceFault ..) (keeps_ite (keeps_gateClose ..) (keeps_ite (Keeps.after (keeps_chClear ..)
      (keeps_chOff ..)) (Keeps.refl _)))))

theorem keeps_faultAll (s : State)  : Keeps s (faultAll s) := by
  unfold faultAll
  exact (keeps_foldl (fun _ _ => (Keeps.after (keeps_holdDisposition ..) (keeps_becomeFaulted ..))) _ _)

theorem keeps_class2 (code handle : Nat) (data : List Byte) (s : State)  : Keeps s (class2 code handle data s) := by
  unfold class2
  exact (Keeps.after (keeps_ite (Keeps.refl _) (Keeps.after (keeps_faultAll ..) (Keeps.after (keeps_safeForce ..) keeps_mk))) (Keeps.after keeps_mk
      (keeps_raiseE ..)))

theorem keeps_conditionEnded (code : Nat) (s : State)  : Keeps s (conditionEnded code s) := by
  unfold conditionEnded
  exact keeps_mk

/-! ## Link -/

theorem keeps_oslRefuse (s : State)  : Keeps s (oslRefuse s) := by
  unfold oslRefuse
  exact keeps_mk

theorem keeps_takeRole (role : Nat) (s : State)  : Keeps s (takeRole role s) := by
  unfold takeRole
  exact (keeps_ite (Keeps.refl _) keeps_mk)

theorem keeps_execOslRoleWrite (role : Nat) (s : State) : ∃ u, execOslRoleWrite role s = .next u ∧ Keeps s u := by
  unfold execOslRoleWrite
  exact ⟨_, rfl, (keeps_ite (Keeps.refl _) (keeps_ite (keeps_oslRefuse ..) (keeps_takeRole ..)))⟩

theorem keeps_execOslSyncOutWrite (on : Bool) (s : State) : ∃ u, execOslSyncOutWrite on s = .next u ∧ Keeps s u := by
  unfold execOslSyncOutWrite
  exact ⟨_, rfl, (keeps_ite (Keeps.refl _) (keeps_ite (keeps_oslRefuse ..) keeps_mk))⟩

theorem keeps_markOut (t : Nat) (s : State)  : Keeps s (markOut t s) := by
  unfold markOut
  exact (keeps_ite keeps_mk (Keeps.refl _))

theorem keeps_execMemberPllLock (s : State) : ∃ u, execMemberPllLock s = .next u ∧ Keeps s u := by
  unfold execMemberPllLock
  exact ⟨_, rfl, (keeps_ite keeps_mk (Keeps.refl _))⟩

theorem keeps_execOslLaneTrained (port : Nat) (s : State) : ∃ u, execOslLaneTrained port s = .next u ∧ Keeps s u := by
  unfold execOslLaneTrained
  exact ⟨_, rfl, (Keeps.after (keeps_raise0 ..) (keeps_ite (Keeps.after (keeps_conditionEnded ..) keeps_mk) keeps_mk))⟩

theorem keeps_execCoarseLoad (boundary : Nat) (s : State) : ∃ u, execCoarseLoad boundary s = .next u ∧ Keeps s u := by
  unfold execCoarseLoad
  exact ⟨_, rfl, (keeps_ite keeps_mk (Keeps.refl _))⟩

theorem keeps_execSkewExchange (t1 t2 t3 t4 upOffset : Int) (s : State) : ∃ u, execSkewExchange t1 t2 t3 t4 upOffset s = .next u ∧ Keeps s u := by
  unfold execSkewExchange
  exact ⟨_, rfl, (keeps_ite (Keeps.refl _) (Keeps.after (keeps_ite (keeps_ite (Keeps.after (keeps_class2 ..) keeps_mk) (keeps_conditionEnded ..))
      (Keeps.refl _)) keeps_mk))⟩

theorem keeps_execOslCalDone (s : State) : ∃ u, execOslCalDone s = .next u ∧ Keeps s u := by
  unfold execOslCalDone
  exact ⟨_, rfl, (keeps_ite (Keeps.after (keeps_raise0 ..) keeps_mk) (Keeps.refl _))⟩

theorem keeps_execSyncMarkiArrival (t : Nat) (s : State) : ∃ u, execSyncMarkiArrival t s = .next u ∧ Keeps s u := by
  unfold execSyncMarkiArrival
  exact ⟨_, rfl, (keeps_ite (Keeps.refl _) (keeps_ite (Keeps.after keeps_mk (Keeps.after (keeps_markOut ..) (keeps_toInstant ..))) (by (try extract_lets); split; exact (Keeps.after keeps_mk (Keeps.after (keeps_markOut ..) (keeps_toInstant ..))); exact (keeps_ite (Keeps.after keeps_mk (Keeps.after (keeps_markOut ..) (keeps_toInstant ..))) (Keeps.after (keeps_conditionEnded ..) (Keeps.after keeps_mk (Keeps.after (keeps_markOut ..) (keeps_toInstant ..))))))))⟩

theorem keeps_execOslMarkSlip (s : State) : ∃ u, execOslMarkSlip s = .next u ∧ Keeps s u := by
  unfold execOslMarkSlip
  exact ⟨_, rfl, (keeps_ite (Keeps.after (keeps_class2 ..) keeps_mk) (Keeps.refl _))⟩

theorem keeps_execSyncClkiLoss (s : State) : ∃ u, execSyncClkiLoss s = .next u ∧ Keeps s u := by
  unfold execSyncClkiLoss
  exact ⟨_, rfl, (keeps_ite (Keeps.after (keeps_class2 ..) keeps_mk) (Keeps.refl _))⟩

theorem keeps_execUpstreamSilence (s : State) : ∃ u, execUpstreamSilence s = .next u ∧ Keeps s u := by
  unfold execUpstreamSilence
  exact ⟨_, rfl, (keeps_ite (Keeps.after (keeps_class2 ..) keeps_mk) (Keeps.refl _))⟩

theorem keeps_execOslMemberLost (pos : Nat) (s : State) : ∃ u, execOslMemberLost pos s = .next u ∧ Keeps s u := by
  unfold execOslMemberLost
  exact ⟨_, rfl, (keeps_ite (Keeps.after (keeps_raise0 ..) (Keeps.after (keeps_lostReports ..) keeps_mk)) (Keeps.refl _))⟩

theorem keeps_execClusterRefCheck (h ty : Nat) (release : Bool) (s : State) : ∃ u, execClusterRefCheck h ty release s = .next u ∧ Keeps s u := by
  unfold execClusterRefCheck
  exact ⟨_, rfl, (keeps_ite keeps_mk keeps_mk)⟩

/-! ## Engines -/

theorem keeps_flagFall (f : Falling) (s : State)  : Keeps s (flagFall f s) := by
  unfold flagFall
  exact (by (try extract_lets); split; exact (Keeps.refl _); exact (Keeps.after (keeps_raiseLimited ..) (Keeps.after (keeps_updEngine ..) (keeps_updObj _ (by intro _; rfl) _))))

theorem keeps_execSlotEnd (slot : Nat) (s : State) : ∃ u, execSlotEnd slot s = .next u ∧ Keeps s u := by
  unfold execSlotEnd
  exact ⟨_, rfl, (Keeps.after keeps_mk (Keeps.after (keeps_foldl (fun _ _ => (keeps_flagFall ..)) _ _) (Keeps.after keeps_mk (keeps_toInstant ..))))⟩

theorem keeps_execFlagFallLimit (h : Nat) (s : State) : ∃ u, execFlagFallLimit h s = .next u ∧ Keeps s u := by
  unfold execFlagFallLimit
  exact ⟨_, rfl, (by (try extract_lets); split; exact (Keeps.refl _); exact (keeps_ite (keeps_class1 ..) (Keeps.refl _)))⟩

theorem keeps_startMove (o : Obj) (e msk cause : Nat) (pin : Bool) (s : State)  : Keeps s (startMove o e msk cause pin s) := by
  unfold startMove
  exact (Keeps.after keeps_mk (keeps_addLoad ..))

theorem keeps_execRebalanceCastle (engine slot : Nat) (s : State) : ∃ u, execRebalanceCastle engine slot s = .next u ∧ Keeps s u := by
  unfold execRebalanceCastle
  exact ⟨_, rfl, (keeps_ite (Keeps.refl _) (by (try extract_lets); split; exact (Keeps.refl _); exact (by (try extract_lets); split; exact (Keeps.refl _); exact (Keeps.after (keeps_updEngine ..) (keeps_startMove ..)))))⟩

theorem keeps_execCastleCopyDone (h : Nat) (s : State) : ∃ u, execCastleCopyDone h s = .next u ∧ Keeps s u := by
  unfold execCastleCopyDone
  exact ⟨_, rfl, (by (try extract_lets); split; exact (Keeps.refl _); exact (Keeps.after keeps_mk (keeps_toInstant ..)))⟩

theorem keeps_execCastleTakeover (h : Nat) (s : State) : ∃ u, execCastleTakeover h s = .next u ∧ Keeps s u := by
  unfold execCastleTakeover
  exact ⟨_, rfl, (by (try extract_lets); split; exact (keeps_ite (Keeps.refl _) (Keeps.after (keeps_finishDeferred ..) (Keeps.after (keeps_raiseE ..) (Keeps.after keeps_mk (Keeps.after (keeps_updObj _ (by intro _; rfl) _) (Keeps.after (keeps_addLoad ..) (keeps_toInstant ..))))))); exact (Keeps.refl _))⟩

theorem keeps_abortMovesTo (e : Nat) (s : State)  : Keeps s (abortMovesTo e s) := by
  unfold abortMovesTo
  exact (keeps_foldl (fun _ _ => (Keeps.after (keeps_raise0 ..) (keeps_abandonMove ..))) _ _)

theorem keeps_evacuate (e : Nat) (o : Obj) (s : State)  : Keeps s (evacuate e o s) := by
  unfold evacuate
  exact (keeps_ite (Keeps.refl _) (keeps_ite (keeps_class1 ..) (by (try extract_lets); split; exact (keeps_class1 ..); exact (keeps_startMove ..))))

theorem keeps_execEngineHung (engine : Nat) (s : State) : ∃ u, execEngineHung engine s = .next u ∧ Keeps s u := by
  unfold execEngineHung
  exact ⟨_, rfl, (keeps_ite (Keeps.refl _) (Keeps.after (keeps_foldl (fun _ _ => (keeps_evacuate ..)) _ _) (Keeps.after (keeps_abortMovesTo ..)
      (Keeps.after (keeps_raise0 ..) (keeps_updEngine ..)))))⟩

theorem keeps_bodyJobMove (d : Desc) (o : Obj) (s : State)  : Keeps s (bodyJobMove d o s) := by
  unfold bodyJobMove
  exact (keeps_ite (keeps_fail ..) (keeps_ite (keeps_fail ..) (keeps_ite (keeps_fail ..) (keeps_ite (keeps_fail ..) (by (try extract_lets); split; exact (keeps_fail ..); exact (keeps_ite (keeps_okWith ..) (Keeps.after (keeps_defer ..) (keeps_startMove ..))))))))

theorem keeps_bodyEngineStatus (d : Desc) (s : State)  : Keeps s (bodyEngineStatus d s) := by
  unfold bodyEngineStatus
  exact (Keeps.after (keeps_writeBack ..) keeps_mk)

theorem keeps_bodyEngineRestore (d : Desc) (pass : Bool) (s : State)  : Keeps s (bodyEngineRestore d pass s) := by
  unfold bodyEngineRestore
  exact (keeps_ite (keeps_fail ..) (keeps_ite (keeps_okWith ..) (keeps_ite (Keeps.after (keeps_okWith ..) (keeps_updEngine ..)) (keeps_fail ..))))

/-! ## Sessions -/

theorem keeps_updSlot (i : Nat) (f : KeySlot → KeySlot) (s : State)  : Keeps s (updSlot i f s) := by
  unfold updSlot
  exact keeps_mk

theorem keeps_updSession (sq : Nat) (f : Session → Session) (s : State)  : Keeps s (updSession sq f s) := by
  unfold updSession
  exact keeps_mk

theorem keeps_loadMark (st : Started) (ty : Nat) (s : State)  : Keeps s (loadMark st ty s) := by
  unfold loadMark
  exact (by (try extract_lets); split; exact (Keeps.refl _); exact (keeps_ite (keeps_updSession ..) (Keeps.refl _)))

theorem keeps_sessionClose (sq reason : Nat) (s : State)  : Keeps s (sessionClose sq reason s) := by
  unfold sessionClose
  exact (by (try extract_lets); split; exact (Keeps.refl _); exact (Keeps.after (keeps_ite (Keeps.refl _) (Keeps.after (keeps_ite (keeps_latSave ..) (Keeps.refl _)) (keeps_raise0 ..))) keeps_mk))

theorem keeps_sessionsCloseAll (reason : Nat) (s : State)  : Keeps s (sessionsCloseAll reason s) := by
  unfold sessionsCloseAll
  exact (keeps_foldl (fun _ _ => (keeps_sessionClose ..)) _ _)

theorem keeps_lockoutStart (slot : Nat) (s : State)  : Keeps s (lockoutStart slot s) := by
  unfold lockoutStart
  exact (Keeps.after (keeps_raise0 ..) (keeps_updSlot ..))

theorem keeps_authFail (slot : Nat) (s : State)  : Keeps s (authFail slot s) := by
  unfold authFail
  exact (Keeps.after (keeps_ite (keeps_lockoutStart ..) (Keeps.refl _)) (Keeps.after (keeps_raise0 ..) (keeps_updSlot ..)))

theorem keeps_execChallengeExpiry (sq : Nat) (s : State) : ∃ u, execChallengeExpiry sq s = .next u ∧ Keeps s u := by
  unfold execChallengeExpiry
  exact ⟨_, rfl, (by (try extract_lets); split; exact (Keeps.refl _); exact (Keeps.after keeps_mk (keeps_toInstant ..)))⟩

theorem keeps_execSessionIdleTimeout (sq : Nat) (s : State) : ∃ u, execSessionIdleTimeout sq s = .next u ∧ Keeps s u := by
  unfold execSessionIdleTimeout
  exact ⟨_, rfl, (by (try extract_lets); split; exact (Keeps.refl _); exact (Keeps.after (keeps_sessionClose ..) (keeps_toInstant ..)))⟩

theorem keeps_execSessionTagFailures (sq : Nat) (s : State) : ∃ u, execSessionTagFailures sq s = .next u ∧ Keeps s u := by
  unfold execSessionTagFailures
  exact ⟨_, rfl, (by (try extract_lets); split; exact (Keeps.refl _); exact (keeps_ite (Keeps.after (keeps_authFail ..) (keeps_sessionClose ..)) (Keeps.refl _)))⟩

theorem keeps_execSecLockoutEnd (slot : Nat) (s : State) : ∃ u, execSecLockoutEnd slot s = .next u ∧ Keeps s u := by
  unfold execSecLockoutEnd
  exact ⟨_, rfl, (by (try extract_lets); split; exact (Keeps.refl _); exact (Keeps.after (keeps_updSlot ..) (keeps_toInstant ..)))⟩

/-! ## Descr -/

theorem keeps_blockFault (d : Desc) (s : State)  : Keeps s (blockFault d s) := by
  unfold blockFault
  exact (keeps_raise0 ..)

theorem keeps_runDesc (code : Nat) (d : Desc) (body : State → State) (s : State) (h_body : ∀ s, Keeps s (body s)) : Keeps s (runDesc code d body s)
    := by
  unfold runDesc
  exact (keeps_ite (Keeps.refl _) (by (try extract_lets); split; exact (keeps_fail ..); exact (keeps_ite (keeps_fail ..) (keeps_ite (keeps_fail ..) (by (try extract_lets); split; exact (keeps_fail ..); exact (keeps_ite (Keeps.after (keeps_fail ..) (keeps_blockFault ..)) (h_body ..)))))))

theorem keeps_runObj (code : Nat) (d : Desc) (body : Obj → State → State) (s : State) (h_body : ∀ o s, Keeps s (body o s)) : Keeps s (runObj code d
    body s) := by
  unfold runObj
  exact (keeps_runDesc (h_body := (fun _ => (by (try extract_lets); split; exact (h_body ..); exact (keeps_fail ..)))) ..)

end Sys2Proof.Machine
end

