-- ==== Sys2Proof/Laws/KeepsMotion.lean ====
section
/-! SUPPORT. `Keeps` for every operation and meaning: axes, loops, kinematics, CAN, the coverage board. Each meaning answers a next state. -/

namespace Sys2Proof.Machine

/-! ## Axes -/

theorem keeps_axEvent (o : Obj) (code : Nat) (s : State)  : Keeps s (axEvent o code s) := by
  unfold axEvent
  exact (keeps_ite (keeps_smQueue ..) (Keeps.refl _))

theorem keeps_axSmOut (slotEnd : Nat) (o : Obj) (s : State) (x : SmOut)  : Keeps s (axSmOut slotEnd o s x) := by
  unfold axSmOut
  exact (by (try extract_lets); split; exact (keeps_updAx ..); exact (keeps_updAx ..); exact (Keeps.refl _); exact (keeps_updAx ..); exact (Keeps.after (keeps_axCancel ..) (keeps_updAx ..)); exact (Keeps.after (keeps_finishDeferred ..) (Keeps.after (keeps_raiseE ..) (keeps_updAx ..))); exact (Keeps.after (keeps_axStop ..) (keeps_axHomeFail ..)); exact (Keeps.refl _); exact (keeps_raiseE ..); exact (keeps_class1 ..))

theorem keeps_axHomeRun (tk slotEnd : Nat) (o : Obj) (s : State)  : Keeps s (axHomeRun tk slotEnd o s) := by
  unfold axHomeRun
  exact (by (try extract_lets); split; exact (Keeps.after (keeps_foldl (fun _ _ => (keeps_axSmOut ..)) _ _) (Keeps.after (keeps_updObj _ (by intro _; rfl) _) (keeps_smDue ..))); exact (keeps_smDue ..))

theorem keeps_axHostTarget (t i : Nat) (s : State)  : Keeps s (axHostTarget t i s) := by
  unfold axHostTarget
  exact (by (try extract_lets); split; exact (Keeps.refl _); exact (by (try extract_lets); split; exact (Keeps.refl _); exact (keeps_ite (Keeps.refl _) (keeps_ite (keeps_completeDeferred ..) (keeps_ite (keeps_completeDeferred ..) (Keeps.after keeps_mk (keeps_axTakeTarget ..)))))))

theorem keeps_axJobTarget (t i : Nat) (s : State)  : Keeps s (axJobTarget t i s) := by
  unfold axJobTarget
  exact (by (try extract_lets); split; exact (Keeps.refl _); exact (keeps_ite (Keeps.refl _) (Keeps.after (keeps_axTakeTarget ..) (keeps_updAx ..))))

theorem keeps_driveEch (c : Nat) (level : Bool) (s : State)  : Keeps s (driveEch c level s) := by
  unfold driveEch
  exact (keeps_ite (Keeps.refl _) keeps_mk)

theorem keeps_axCompareEnd (o : Obj) (c : ACmp) (status t : Nat) (dist : Int) (s : State)  : Keeps s (axCompareEnd o c status t dist s) := by
  unfold axCompareEnd
  exact (by (try extract_lets); split; exact (keeps_updAx ..); exact (Keeps.after (keeps_completeDeferred ..) (keeps_updAx ..)))

theorem keeps_axJudge (t : Nat) (o : Obj) (c : ACmp) (s : State)  : Keeps s (axJudge t o c s) := by
  unfold axJudge
  exact (by (try extract_lets); split; exact (Keeps.refl _); exact (keeps_ite (keeps_updAx ..) (keeps_ite (Keeps.after (keeps_axCompareEnd ..) (Keeps.after (keeps_driveEch ..) (keeps_updAx ..))) (Keeps.after (keeps_axCompareEnd ..) (keeps_updAx ..)))))

theorem keeps_axEnds (t : Nat) (arrived : Bool) (i : Nat) (s : State)  : Keeps s (axEnds t arrived i s) := by
  unfold axEnds
  exact (by (try extract_lets); split; exact (Keeps.refl _); exact (Keeps.after (keeps_axSettle ..) (Keeps.after (keeps_updAx ..) (keeps_ite (Keeps.after (keeps_axEvent ..) (Keeps.after (keeps_axEnd ..) (keeps_updAx ..))) (keeps_ite (Keeps.after (keeps_ite (keeps_axEvent ..) (Keeps.refl _)) (Keeps.after (keeps_axEnd ..) (keeps_ite (keeps_updAx ..) (Keeps.refl _)))) (Keeps.refl _))))))

theorem keeps_axUpdate (t i : Nat) (s : State)  : Keeps s (axUpdate t i s) := by
  unfold axUpdate
  exact (keeps_ite (Keeps.after (keeps_axSettle ..) (keeps_axSafe ..)) (by (try extract_lets); split; exact (Keeps.after (keeps_axHostTarget ..) (Keeps.after (keeps_axJobTarget ..) (keeps_updAx ..))); exact (Keeps.after (keeps_axEnds ..) (Keeps.after (keeps_foldl (fun _ _ => (keeps_axJudge ..)) _ _) (Keeps.after (keeps_updAx ..) (Keeps.after (keeps_axHostTarget ..) (Keeps.after (keeps_axJobTarget ..) (keeps_updAx ..))))))))

theorem keeps_execGeneratorUpdate (s : State) : ∃ u, execGeneratorUpdate s = .next u ∧ Keeps s u := by
  unfold execGeneratorUpdate
  exact ⟨_, rfl, (Keeps.after (keeps_foldl (fun _ _ => (keeps_axUpdate ..)) _ _) (keeps_toInstant ..))⟩

theorem keeps_execAxisCompareFire (h : Nat) (s : State) : ∃ u, execAxisCompareFire h s = .next u ∧ Keeps s u := by
  unfold execAxisCompareFire
  exact ⟨_, rfl, (by (try extract_lets); split; exact (Keeps.refl _); exact (by (try extract_lets); split; exact (Keeps.refl _); exact (Keeps.after (keeps_axCompareEnd ..) (Keeps.after (keeps_driveEch ..) (keeps_toInstant ..)))))⟩

theorem keeps_bodyAxisTarget (d : Desc) (o : Obj) (s : State)  : Keeps s (bodyAxisTarget d o s) := by
  unfold bodyAxisTarget
  exact (keeps_ite (keeps_fail ..) (keeps_ite (keeps_fail ..) (keeps_ite (keeps_fail ..) (keeps_ite (keeps_fail ..) (Keeps.after (keeps_defer ..)
      (keeps_axDropPending ..))))))

theorem keeps_execAxisTarget (d : Desc) (s : State) : ∃ u, execAxisTarget d s = .next u ∧ Keeps s u := by
  unfold execAxisTarget
  exact ⟨_, rfl, (keeps_runObj (h_body := (fun _ => (fun _ => (keeps_bodyAxisTarget ..)))) ..)⟩

theorem keeps_bodyAxisStop (d : Desc) (o : Obj) (s : State)  : Keeps s (bodyAxisStop d o s) := by
  unfold bodyAxisStop
  exact (keeps_ite (keeps_fail ..) (keeps_ite (keeps_fail ..) (Keeps.after (keeps_axStop ..) (Keeps.after (keeps_updAx ..) (keeps_axHomeFail ..)))))

theorem keeps_execAxisStop (d : Desc) (s : State) : ∃ u, execAxisStop d s = .next u ∧ Keeps s u := by
  unfold execAxisStop
  exact ⟨_, rfl, (keeps_runObj (h_body := (fun _ => (fun _ => (keeps_bodyAxisStop ..)))) ..)⟩

theorem keeps_bodyAxisCompare (d : Desc) (o : Obj) (s : State)  : Keeps s (bodyAxisCompare d o s) := by
  unfold bodyAxisCompare
  exact (keeps_ite (keeps_fail ..) (keeps_ite (keeps_fail ..) (keeps_ite (keeps_fail ..) (keeps_ite (keeps_fail ..) (Keeps.after (keeps_defer ..)
      (keeps_updAx ..))))))

theorem keeps_execAxisCompare (d : Desc) (s : State) : ∃ u, execAxisCompare d s = .next u ∧ Keeps s u := by
  unfold execAxisCompare
  exact ⟨_, rfl, (keeps_runObj (h_body := (fun _ => (fun _ => (keeps_bodyAxisCompare ..)))) ..)⟩

theorem keeps_bodyAxisHome (d : Desc) (o : Obj) (s : State)  : Keeps s (bodyAxisHome d o s) := by
  unfold bodyAxisHome
  exact (by (try extract_lets); split; exact (keeps_fail ..); exact (keeps_ite (keeps_fail ..) (keeps_ite (keeps_fail ..) (keeps_ite (keeps_fail ..) (Keeps.after (keeps_defer ..) (Keeps.after (keeps_updAx ..) (keeps_updObj _ (by intro _; rfl) _)))))))

theorem keeps_execAxisHome (d : Desc) (s : State) : ∃ u, execAxisHome d s = .next u ∧ Keeps s u := by
  unfold execAxisHome
  exact ⟨_, rfl, (keeps_runObj (h_body := (fun _ => (fun _ => (keeps_bodyAxisHome ..)))) ..)⟩

theorem keeps_bodyAxisSetPos (d : Desc) (o : Obj) (s : State)  : Keeps s (bodyAxisSetPos d o s) := by
  unfold bodyAxisSetPos
  exact (keeps_ite (keeps_fail ..) (Keeps.after (keeps_ok ..) (Keeps.after (keeps_axCancel ..) (keeps_updAx ..))))

theorem keeps_execAxisSetPos (d : Desc) (s : State) : ∃ u, execAxisSetPos d s = .next u ∧ Keeps s u := by
  unfold execAxisSetPos
  exact ⟨_, rfl, (keeps_runObj (h_body := (fun _ => (fun _ => (keeps_bodyAxisSetPos ..)))) ..)⟩

theorem keeps_axLimitOn (pos : Bool) (o : Obj) (s : State)  : Keeps s (axLimitOn pos o s) := by
  unfold axLimitOn
  exact (keeps_ite (Keeps.after (keeps_ite (Keeps.after (keeps_axStop ..) (keeps_axHomeFail ..)) (Keeps.refl _)) (Keeps.after (keeps_axEvent ..)
      (keeps_updAx ..))) (keeps_ite (Keeps.after (keeps_raiseE ..) (Keeps.after (keeps_axStop ..) (keeps_updAx ..))) (keeps_raiseE ..)))

theorem keeps_axGpioOne (g : Nat) (level : Bool) (i : Nat) (s : State)  : Keeps s (axGpioOne g level i s) := by
  unfold axGpioOne
  exact (by (try extract_lets); split; exact (Keeps.refl _); exact (keeps_ite (Keeps.refl _) (Keeps.after (keeps_ite (keeps_axLimitOn ..) (Keeps.refl _)) (Keeps.after (keeps_ite (keeps_axLimitOn ..) (Keeps.refl _)) (Keeps.after (keeps_ite (keeps_axEvent ..) (Keeps.refl _)) (keeps_updAx ..))))))

theorem keeps_axGpio (g : Nat) (level : Bool) (s : State)  : Keeps s (axGpio g level s) := by
  unfold axGpio
  exact (keeps_foldl (fun _ _ => (keeps_axGpioOne ..)) _ _)

theorem keeps_execLimitChatter (h gpio : Nat) (s : State) : ∃ u, execLimitChatter h gpio s = .next u ∧ Keeps s u := by
  unfold execLimitChatter
  exact ⟨_, rfl, (by (try extract_lets); split; exact (Keeps.refl _); exact (keeps_ite (Keeps.refl _) (Keeps.after (keeps_class1 ..) (keeps_updAx ..))))⟩

theorem keeps_axIndex (fb : Nat) (s : State)  : Keeps s (axIndex fb s) := by
  unfold axIndex
  exact (keeps_foldl (fun _ _ => (Keeps.after (keeps_axEvent ..) (keeps_updAx ..))) _ _)

theorem keeps_stepinEdge (n t : Nat) (s : State)  : Keeps s (stepinEdge n t s) := by
  unfold stepinEdge
  exact (Keeps.after (keeps_foldl (fun _ _ => (Keeps.after (keeps_axWake ..) (keeps_updAx ..))) _ _) (keeps_toInstant ..))

theorem keeps_execStepinEdge (n t : Nat) (s : State) : ∃ u, execStepinEdge n t s = .next u ∧ Keeps s u := by
  unfold execStepinEdge
  exact ⟨_, rfl, (keeps_stepinEdge ..)⟩

theorem keeps_execStepinTimeout (h : Nat) (s : State) : ∃ u, execStepinTimeout h s = .next u ∧ Keeps s u := by
  unfold execStepinTimeout
  exact ⟨_, rfl, (by (try extract_lets); split; exact (Keeps.refl _); exact (by (try extract_lets); split; exact (Keeps.refl _); exact (Keeps.after (keeps_updAx ..) (keeps_toInstant ..))))⟩

theorem keeps_execAxisIdleTimeout (h : Nat) (s : State) : ∃ u, execAxisIdleTimeout h s = .next u ∧ Keeps s u := by
  unfold execAxisIdleTimeout
  exact ⟨_, rfl, (by (try extract_lets); split; exact (Keeps.refl _); exact (by (try extract_lets); split; exact (Keeps.refl _); exact (keeps_ite (Keeps.refl _) (Keeps.after (keeps_axOption ..) (keeps_toInstant ..)))))⟩

theorem keeps_execAxisEnableSetupEnd (h : Nat) (s : State) : ∃ u, execAxisEnableSetupEnd h s = .next u ∧ Keeps s u := by
  unfold execAxisEnableSetupEnd
  exact ⟨_, rfl, (by (try extract_lets); split; exact (Keeps.refl _); exact (keeps_ite (Keeps.after (keeps_updAx ..) (keeps_toInstant ..)) (Keeps.refl _)))⟩

theorem keeps_execAxisFeTimeout (h : Nat) (s : State) : ∃ u, execAxisFeTimeout h s = .next u ∧ Keeps s u := by
  unfold execAxisFeTimeout
  exact ⟨_, rfl, (by (try extract_lets); split; exact (Keeps.refl _); exact (by (try extract_lets); split; exact (Keeps.refl _); exact (Keeps.after (keeps_class1 ..) (Keeps.after (keeps_updAx ..) (keeps_toInstant ..)))))⟩

theorem keeps_axJob (tk slotEnd i : Nat) (s : State)  : Keeps s (axJob tk slotEnd i s) := by
  unfold axJob
  exact (by (try extract_lets); split; exact (Keeps.after (keeps_updAx ..) (keeps_updObj _ (by intro _; rfl) _)); exact (by (try extract_lets); split; exact (keeps_ite (Keeps.after (keeps_axHomeRun ..) (Keeps.after (keeps_updAx ..) (keeps_updObj _ (by intro _; rfl) _))) (Keeps.after (keeps_updAx ..) (keeps_updObj _ (by intro _; rfl) _))); exact (Keeps.after (keeps_updAx ..) (keeps_ite (Keeps.after (keeps_axHomeRun ..) (Keeps.after (keeps_updAx ..) (keeps_updObj _ (by intro _; rfl) _))) (Keeps.after (keeps_updAx ..) (keeps_updObj _ (by intro _; rfl) _))))))

theorem keeps_axEnable (i : Nat) (s : State)  : Keeps s (axEnable i s) := by
  unfold axEnable
  exact (by (try extract_lets); split; exact (Keeps.refl _); exact (Keeps.after (keeps_ite (keeps_foldl (fun _ _ => (keeps_gateOpen ..)) _ _) (Keeps.refl _)) (keeps_updAx ..)))

theorem keeps_axDisable (i : Nat) (s : State)  : Keeps s (axDisable i s) := by
  unfold axDisable
  exact (by (try extract_lets); split; exact (Keeps.refl _); exact (Keeps.after (keeps_axStop ..) (Keeps.after (keeps_updAx ..) (Keeps.after (keeps_axCancel ..) (Keeps.after (keeps_axDropPending ..) (keeps_axHomeFail ..))))))

/-! ## Loops -/

theorem keeps_xferJudge (i : Nat) (s : State)  : Keeps s (xferJudge i s) := by
  unfold xferJudge
  exact (by (try extract_lets); split; exact (Keeps.refl _); exact (keeps_ite (Keeps.refl _) (keeps_ite (Keeps.after (keeps_raiseE ..) (keeps_updLoop ..)) (keeps_ite (Keeps.refl _) (keeps_ite (Keeps.after (keeps_raiseE ..) (keeps_updLoop ..)) (keeps_updLoop ..))))))

theorem keeps_execTransferTimeExpiry (h : Nat) (s : State) : ∃ u, execTransferTimeExpiry h s = .next u ∧ Keeps s u := by
  unfold execTransferTimeExpiry
  exact ⟨_, rfl, (by (try extract_lets); split; exact (Keeps.refl _); exact (keeps_ite (Keeps.refl _) (Keeps.after (keeps_xferJudge ..) (keeps_toInstant ..))))⟩

theorem keeps_loopSeals (i t : Nat) (s : State) : Keeps s (loopSeals i t s).2 := by
  unfold loopSeals
  exact (by (try extract_lets); split; exact (Keeps.refl _); exact (by (try extract_lets); split; exact (Keeps.refl _); exact (Keeps.after (keeps_completeDeferred ..) (keeps_updLoop ..))))

theorem keeps_lawFf (o : Obj) (l : Nat) (bank : List Byte) (r demand : F32) (s : State) : Keeps s (lawFf o l bank r demand s).2 := by
  unfold lawFf
  exact (keeps_ite2 (Keeps.refl _) (keeps_ite2 (Keeps.refl _) (keeps_curveAt ..)))

theorem keeps_lawRho (o : Obj) (l : Nat) (bank : List Byte) (r y demand : F32) (s : State) : Keeps s (lawRho o l bank r y demand s).2 := by
  unfold lawRho
  exact (keeps_ite2 (Keeps.refl _) (keeps_ite2 (Keeps.refl _) (keeps_curveAt ..)))

theorem keeps_lawRun (o : Obj) (l t : Nat) (y : F32) (seed bump : Bool) (rc : RcView) (s0 s : State) : Keeps s (lawRun o l t y seed bump rc s0 s).2
    := by
  unfold lawRun
  exact (Keeps.after (keeps_lawRho ..) (keeps_lawFf ..))

theorem keeps_loopNonfinite (i h : Nat) (s : State)  : Keeps s (loopNonfinite i h s) := by
  unfold loopNonfinite
  exact (Keeps.after (keeps_class1 ..) (keeps_updLoop ..))

theorem keeps_modeComplete (ds : List Deferred) (i t : Nat) (s : State)  : Keeps s (modeComplete ds i t s) := by
  unfold modeComplete
  exact (keeps_foldl (fun _ _ => (by (try extract_lets); split; exact (keeps_completeDeferred ..); exact (Keeps.refl _))) _ _)

theorem keeps_loopCommit (i t : Nat) (lims : F32 × F32 × F32) (raw : F32) (s : State)  : Keeps s (loopCommit i t lims raw s) := by
  unfold loopCommit
  exact (by (try extract_lets); split; exact (Keeps.refl _); exact (by (try extract_lets); split; exact (Keeps.after (keeps_loopWrite ..) (keeps_updLoop ..)); exact (keeps_ite (Keeps.after (keeps_xferJudge ..) (Keeps.after (keeps_loopWrite ..) (keeps_updLoop ..))) (Keeps.after (keeps_loopWrite ..) (keeps_updLoop ..)))))

theorem keeps_rcReport (o : Obj) (ev : Option (Nat × List Byte)) (s : State)  : Keeps s (rcReport o ev s) := by
  unfold rcReport
  exact (by (try extract_lets); split; exact (keeps_raiseE ..); exact (Keeps.refl _))

theorem keeps_loopManual (i t : Nat) (s0 s : State)  : Keeps s (loopManual i t s0 s) := by
  unfold loopManual
  exact (by (try extract_lets); split; exact (Keeps.refl _); exact (keeps_ite (keeps_loopNonfinite ..) (Keeps.after (keeps_rcReport ..) (Keeps.after (keeps_loopCommit ..) (keeps_updLoop ..)))))

theorem keeps_loopLaw (i t : Nat) (seed bump : Bool) (s0 s : State) : Keeps s (loopLaw i t seed bump s0 s) := by
  unfold loopLaw
  split
  · exact Keeps.refl s
  · extract_lets h r l rc active
    split
    · exact keeps_class1 ..
    · extract_lets w x raw lims law learned fe src r' s1 s2
      have hw : Keeps s w.2 := keeps_lawRun ..
      have h1 : Keeps s s1 := hw.trans ((keeps_updLoop ..).trans (keeps_loopCommit ..))
      have h2 : Keeps s s2 := h1.trans (keeps_rcReport ..)
      split
      · exact hw.trans (keeps_loopNonfinite ..)
      · split
        · exact h2.trans (keeps_raiseLimited ..)
        · exact h2

theorem keeps_trcTick (t : Nat) (s : State)  : Keeps s (trcTick t s) := by
  unfold trcTick
  exact (keeps_ite keeps_mk (Keeps.refl _))

theorem keeps_loopSample (t i : Nat) (s0 s : State)  : Keeps s (loopSample t i s0 s) := by
  unfold loopSample
  exact (by (try extract_lets); split; exact (Keeps.after (keeps_loopSeals ..) (Keeps.after (keeps_updLoop ..) (keeps_updObj _ (by intro _; rfl) _))); exact (Keeps.after (keeps_ite (keeps_trcTick ..) (Keeps.refl _)) (Keeps.after (keeps_modeComplete ..) (Keeps.after (keeps_ite (keeps_loopManual ..) (keeps_loopLaw ..)) (by (try extract_lets); split; exact (Keeps.after (keeps_updLoop ..) (keeps_ite (Keeps.after (keeps_xferJudge ..) (Keeps.after (keeps_loopSeals ..) (Keeps.after (keeps_updLoop ..) (keeps_updObj _ (by intro _; rfl) _)))) (Keeps.after (keeps_loopSeals ..) (Keeps.after (keeps_updLoop ..) (keeps_updObj _ (by intro _; rfl) _))))); exact (keeps_ite (Keeps.after (keeps_xferJudge ..) (Keeps.after (keeps_loopSeals ..) (Keeps.after (keeps_updLoop ..) (keeps_updObj _ (by intro _; rfl) _)))) (Keeps.after (keeps_loopSeals ..) (Keeps.after (keeps_updLoop ..) (keeps_updObj _ (by intro _; rfl) _)))))))))

theorem keeps_execLoopFeTimeout (h : Nat) (s : State) : ∃ u, execLoopFeTimeout h s = .next u ∧ Keeps s u := by
  unfold execLoopFeTimeout
  exact ⟨_, rfl, (by (try extract_lets); split; exact (Keeps.refl _); exact (by (try extract_lets); split; exact (Keeps.refl _); exact (keeps_ite (Keeps.refl _) (Keeps.after (keeps_class1 ..) (keeps_updLoop ..)))))⟩

theorem keeps_bodyLoopStage (d : Desc) (o : Obj) (s : State)  : Keeps s (bodyLoopStage d o s) := by
  unfold bodyLoopStage
  exact (keeps_ite (keeps_fail ..) (keeps_ite (keeps_fail ..) (by (try extract_lets); split; exact (keeps_failWith ..); exact (Keeps.after (keeps_ok ..) (keeps_updLoop ..)))))

theorem keeps_execLoopStage (d : Desc) (s : State) : ∃ u, execLoopStage d s = .next u ∧ Keeps s u := by
  unfold execLoopStage
  exact ⟨_, rfl, (keeps_runObj (h_body := (fun _ => (fun _ => (keeps_bodyLoopStage ..)))) ..)⟩

theorem keeps_bodyLoopSeal (d : Desc) (o : Obj) (s : State)  : Keeps s (bodyLoopSeal d o s) := by
  unfold bodyLoopSeal
  exact (keeps_ite (keeps_fail ..) (keeps_ite (keeps_fail ..) (keeps_ite (keeps_fail ..) (keeps_ite (keeps_defer ..) (Keeps.after (keeps_ok ..)
      (keeps_updLoop ..))))))

theorem keeps_execLoopSeal (d : Desc) (s : State) : ∃ u, execLoopSeal d s = .next u ∧ Keeps s u := by
  unfold execLoopSeal
  exact ⟨_, rfl, (keeps_runObj (h_body := (fun _ => (fun _ => (keeps_bodyLoopSeal ..)))) ..)⟩

theorem keeps_bodyLoopSetpoint (d : Desc) (o : Obj) (s : State)  : Keeps s (bodyLoopSetpoint d o s) := by
  unfold bodyLoopSetpoint
  exact (keeps_ite (keeps_fail ..) (keeps_ite (keeps_fail ..) (Keeps.after (keeps_ok ..) (keeps_updLoop ..))))

theorem keeps_execLoopSetpoint (d : Desc) (s : State) : ∃ u, execLoopSetpoint d s = .next u ∧ Keeps s u := by
  unfold execLoopSetpoint
  exact ⟨_, rfl, (keeps_runObj (h_body := (fun _ => (fun _ => (keeps_bodyLoopSetpoint ..)))) ..)⟩

theorem keeps_bodyLoopMode (d : Desc) (o : Obj) (s : State)  : Keeps s (bodyLoopMode d o s) := by
  unfold bodyLoopMode
  exact (keeps_ite (keeps_fail ..) (keeps_ite (keeps_fail ..) (by (try extract_lets); split; exact (keeps_fail ..); exact (keeps_defer ..))))

theorem keeps_execLoopMode (d : Desc) (s : State) : ∃ u, execLoopMode d s = .next u ∧ Keeps s u := by
  unfold execLoopMode
  exact ⟨_, rfl, (keeps_runObj (h_body := (fun _ => (fun _ => (keeps_bodyLoopMode ..)))) ..)⟩

theorem keeps_bodyLoopManual (d : Desc) (o : Obj) (s : State)  : Keeps s (bodyLoopManual d o s) := by
  unfold bodyLoopManual
  exact (keeps_ite (keeps_fail ..) (keeps_ite (keeps_fail ..) (Keeps.after (keeps_ok ..) (keeps_updLoop ..))))

theorem keeps_execLoopManual (d : Desc) (s : State) : ∃ u, execLoopManual d s = .next u ∧ Keeps s u := by
  unfold execLoopManual
  exact ⟨_, rfl, (keeps_runObj (h_body := (fun _ => (fun _ => (keeps_bodyLoopManual ..)))) ..)⟩

theorem keeps_bodyLoopRc (d : Desc) (o : Obj) (s : State)  : Keeps s (bodyLoopRc d o s) := by
  unfold bodyLoopRc
  exact (keeps_ite (keeps_fail ..) (keeps_ite (Keeps.after (keeps_ok ..) (keeps_updLoop ..)) (Keeps.after (keeps_ok ..) (keeps_updObj _
      (by intro _; rfl) _))))

theorem keeps_execLoopRc (d : Desc) (s : State) : ∃ u, execLoopRc d s = .next u ∧ Keeps s u := by
  unfold execLoopRc
  exact ⟨_, rfl, (keeps_runObj (h_body := (fun _ => (fun _ => (keeps_bodyLoopRc ..)))) ..)⟩

theorem keeps_bodyLoopBankRead (d : Desc) (o : Obj) (s : State)  : Keeps s (bodyLoopBankRead d o s) := by
  unfold bodyLoopBankRead
  exact (keeps_ite (keeps_fail ..) (keeps_ite (keeps_fail ..) (keeps_writeBack ..)))

theorem keeps_execLoopBankRead (d : Desc) (s : State) : ∃ u, execLoopBankRead d s = .next u ∧ Keeps s u := by
  unfold execLoopBankRead
  exact ⟨_, rfl, (keeps_runObj (h_body := (fun _ => (fun _ => (keeps_bodyLoopBankRead ..)))) ..)⟩

theorem keeps_loopEnable (i : Nat) (s : State)  : Keeps s (loopEnable i s) := by
  unfold loopEnable
  exact (by (try extract_lets); split; exact (Keeps.refl _); exact (Keeps.after (keeps_gateOpen ..) (keeps_updLoop ..)))

theorem keeps_loopDisable (i : Nat) (s : State)  : Keeps s (loopDisable i s) := by
  unfold loopDisable
  exact (by (try extract_lets); split; exact (Keeps.refl _); exact (Keeps.after (keeps_loopWrite ..) (keeps_updLoop ..)))

/-! ## Kinematics -/

theorem keeps_setKState (n : Nat) (s : State)  : Keeps s (setKState n s) := by
  unfold setKState
  exact (keeps_ite (Keeps.refl _) (Keeps.after (keeps_raise0 ..) keeps_mk))

theorem keeps_bodyKinSetConfig (d : Desc) (s : State)  : Keeps s (bodyKinSetConfig d s) := by
  unfold bodyKinSetConfig
  exact (keeps_ite (keeps_fail ..) (keeps_ite (keeps_fail ..) (by (try extract_lets); split; exact (keeps_failWith ..); exact (Keeps.after (keeps_ok ..) keeps_mk))))

theorem keeps_execKinSetConfig (d : Desc) (s : State) : ∃ u, execKinSetConfig d s = .next u ∧ Keeps s u := by
  unfold execKinSetConfig
  exact ⟨_, rfl, (keeps_runDesc (h_body := (fun _ => (keeps_bodyKinSetConfig ..))) ..)⟩

theorem keeps_bodyKinGetConfig (d : Desc) (s : State)  : Keeps s (bodyKinGetConfig d s) := by
  unfold bodyKinGetConfig
  exact (keeps_writeBack ..)

theorem keeps_execKinGetConfig (d : Desc) (s : State) : ∃ u, execKinGetConfig d s = .next u ∧ Keeps s u := by
  unfold execKinGetConfig
  exact ⟨_, rfl, (keeps_runDesc (h_body := (fun _ => (keeps_bodyKinGetConfig ..))) ..)⟩

theorem keeps_bodyKinSetOrigin (d : Desc) (s : State)  : Keeps s (bodyKinSetOrigin d s) := by
  unfold bodyKinSetOrigin
  exact (keeps_ite (keeps_fail ..) (keeps_ite (keeps_fail ..) (Keeps.after (keeps_ok ..) (Keeps.after (keeps_raise0 ..) keeps_mk))))

theorem keeps_execKinSetOrigin (d : Desc) (s : State) : ∃ u, execKinSetOrigin d s = .next u ∧ Keeps s u := by
  unfold execKinSetOrigin
  exact ⟨_, rfl, (keeps_runDesc (h_body := (fun _ => (keeps_bodyKinSetOrigin ..))) ..)⟩

theorem keeps_bodyKinEnable (d : Desc) (s : State)  : Keeps s (bodyKinEnable d s) := by
  unfold bodyKinEnable
  exact (keeps_ite (keeps_fail ..) (by (try extract_lets); split; exact (keeps_failWith ..); exact (keeps_ite (keeps_failWith ..) (keeps_defer ..))))

theorem keeps_execKinEnable (d : Desc) (s : State) : ∃ u, execKinEnable d s = .next u ∧ Keeps s u := by
  unfold execKinEnable
  exact ⟨_, rfl, (keeps_runDesc (h_body := (fun _ => (keeps_bodyKinEnable ..))) ..)⟩

theorem keeps_bodyKinDisable (d : Desc) (s : State)  : Keeps s (bodyKinDisable d s) := by
  unfold bodyKinDisable
  exact (keeps_ite (keeps_fail ..) (keeps_defer ..))

theorem keeps_execKinDisable (d : Desc) (s : State) : ∃ u, execKinDisable d s = .next u ∧ Keeps s u := by
  unfold execKinDisable
  exact ⟨_, rfl, (keeps_runDesc (h_body := (fun _ => (keeps_bodyKinDisable ..))) ..)⟩

theorem keeps_setReverse (r : Bool) (s : State)  : Keeps s (setReverse r s) := by
  unfold setReverse
  exact (keeps_ite (Keeps.refl _) (Keeps.after (keeps_raise0 ..) keeps_mk))

theorem keeps_execKinEnableTakeEffect (s : State) : ∃ u, execKinEnableTakeEffect s = .next u ∧ Keeps s u := by
  unfold execKinEnableTakeEffect
  exact ⟨_, rfl, (by (try extract_lets); split; exact (Keeps.refl _); exact (Keeps.after (keeps_completeDeferred ..) (Keeps.after (keeps_setKState ..) (Keeps.after keeps_mk (Keeps.after (keeps_setReverse ..) (keeps_toInstant ..))))))⟩

theorem keeps_execKinDisableTakeEffect (s : State) : ∃ u, execKinDisableTakeEffect s = .next u ∧ Keeps s u := by
  unfold execKinDisableTakeEffect
  exact ⟨_, rfl, (by (try extract_lets); split; exact (Keeps.refl _); exact (Keeps.after (keeps_ite (keeps_completeDeferred ..) (Keeps.after (keeps_completeDeferred ..) (Keeps.after (keeps_setKState ..) (Keeps.after keeps_mk (keeps_setReverse ..))))) (keeps_toInstant ..)))⟩

theorem keeps_fixRejected (host : Bool) (reason value : Nat) (s : State)  : Keeps s (fixRejected host reason value s) := by
  unfold fixRejected
  exact (keeps_raiseLimited ..)

theorem keeps_addMeas (m : KMeas) (s : State)  : Keeps s (addMeas m s) := by
  unfold addMeas
  exact keeps_mk

theorem keeps_addPosition (t : Nat) (host : Bool) (cls sigma : Nat) (v : Vec3) (s : State)  : Keeps s (addPosition t host cls sigma v s) := by
  unfold addPosition
  exact (keeps_ite (keeps_fixRejected ..) (keeps_ite (keeps_fixRejected ..) (keeps_addMeas ..)))

theorem keeps_epochValid (e : Epoch) (s : State) : Keeps s (epochValid e s).2 := by
  unfold epochValid
  exact (keeps_ite2 (Keeps.refl _) (by (try extract_lets); split; exact (keeps_ite (keeps_raiseLimited ..) (Keeps.refl _)); exact (keeps_ite2 keeps_mk (keeps_ite (keeps_raiseLimited ..) (Keeps.refl _)))))

theorem keeps_closeEpoch (s : State) : Keeps s (closeEpoch s) := by
  unfold closeEpoch
  split
  · exact Keeps.refl s
  · next e he =>
    extract_lets src s1 day src2 s2 tv t s3 lon s4 sg s5
    have h3 : Keeps s s3 := Keeps.after (keeps_epochValid ..) (Keeps.after keeps_mk keeps_mk)
    have h4 : Keeps s s4 := by
      unfold s4; split
      · exact h3
      · split
        · exact h3
        · extract_lets sig; split
          · exact h3.trans (keeps_fixRejected ..)
          · exact h3.trans (keeps_addPosition ..)
    have h5 : Keeps s s5 := by
      unfold s5; split
      · exact h4
      · exact h4.trans ((keeps_addMeas ..).trans (keeps_addMeas ..))
    split
    · exact Keeps.after keeps_mk keeps_mk
    · split
      · exact h5
      · exact h5.trans (keeps_addMeas ..)

theorem keeps_takeSentence (tFirst tLast : Nat) (n : Nmea) (s : State)  : Keeps s (takeSentence tFirst tLast n s) := by
  unfold takeSentence
  exact (Keeps.after keeps_mk (by (try extract_lets); split; exact (Keeps.refl _); exact keeps_mk; exact (keeps_ite (Keeps.refl _) (Keeps.after keeps_mk (keeps_closeEpoch ..)))))

theorem keeps_sentenceBad (s : State)  : Keeps s (sentenceBad s) := by
  unfold sentenceBad
  exact (Keeps.after (keeps_raiseLimited ..) keeps_mk)

theorem keeps_execNmeaSentence (chars : List Byte) (tFirst tLast : Nat) (framing : Bool) (s : State) : ∃ u, execNmeaSentence chars tFirst tLast
    framing s = .next u ∧ Keeps s u := by
  unfold execNmeaSentence
  exact ⟨_, rfl, (keeps_ite (keeps_toInstant ..) (keeps_ite (Keeps.after keeps_mk (keeps_toInstant ..)) (keeps_ite (Keeps.after (keeps_sentenceBad ..) (Keeps.after keeps_mk (keeps_toInstant ..))) (by (try extract_lets); split; exact (Keeps.after (keeps_sentenceBad ..) (Keeps.after keeps_mk (keeps_toInstant ..))); exact (Keeps.after (keeps_takeSentence ..) (Keeps.after keeps_mk (keeps_toInstant ..)))))))⟩

theorem keeps_execEpochIdleClose (s : State) : ∃ u, execEpochIdleClose s = .next u ∧ Keeps s u := by
  unfold execEpochIdleClose
  exact ⟨_, rfl, (by (try extract_lets); split; exact (Keeps.refl _); exact (Keeps.after (keeps_closeEpoch ..) (keeps_toInstant ..)))⟩

theorem keeps_kinPpsEdge (t : Nat) (falling : Bool) (s : State)  : Keeps s (kinPpsEdge t falling s) := by
  unfold kinPpsEdge
  exact (keeps_ite keeps_mk (Keeps.refl _))

theorem keeps_bodyKinFix (d : Desc) (s : State)  : Keeps s (bodyKinFix d s) := by
  unfold bodyKinFix
  exact (keeps_ite (keeps_fail ..) (keeps_ite (keeps_fail ..) (keeps_ite (keeps_fail ..) (keeps_ite (keeps_fail ..) (keeps_ite (keeps_fail ..)
      (keeps_ite (keeps_fail ..) (Keeps.after (keeps_ok ..) (Keeps.after (keeps_ite (Keeps.refl _) (keeps_addMeas ..)) (keeps_addPosition ..)))))))))

theorem keeps_execKinFix (d : Desc) (s : State) : ∃ u, execKinFix d s = .next u ∧ Keeps s u := by
  unfold execKinFix
  exact ⟨_, rfl, (keeps_runDesc (h_body := (fun _ => (keeps_bodyKinFix ..))) ..)⟩

theorem keeps_imuLost (reason : Nat) (s : State)  : Keeps s (imuLost reason s) := by
  unfold imuLost
  exact (keeps_ite (Keeps.after (keeps_raise0 ..) keeps_mk) keeps_mk)

theorem keeps_execImuSample (t : Nat) (frame : List Byte) (s : State) : ∃ u, execImuSample t frame s = .next u ∧ Keeps s u := by
  unfold execImuSample
  exact ⟨_, rfl, (by (try extract_lets); split; exact (keeps_toInstant ..); exact (keeps_ite (keeps_toInstant ..) (Keeps.after (keeps_ite (keeps_imuLost ..) (keeps_ite (keeps_imuLost ..) (keeps_ite (keeps_imuLost ..) (keeps_ite keeps_mk (Keeps.refl _))))) (Keeps.after keeps_mk (keeps_toInstant ..)))))⟩

theorem keeps_execImuTimeout (s : State) : ∃ u, execImuTimeout s = .next u ∧ Keeps s u := by
  unfold execImuTimeout
  exact ⟨_, rfl, (by (try extract_lets); split; exact (Keeps.refl _); exact (keeps_ite (Keeps.refl _) (Keeps.after (keeps_imuLost ..) (keeps_toInstant ..))))⟩

theorem keeps_execImuRecovered (s : State) : ∃ u, execImuRecovered s = .next u ∧ Keeps s u := by
  unfold execImuRecovered
  exact ⟨_, rfl, (keeps_ite keeps_mk (Keeps.refl _))⟩

theorem keeps_updSrc (k : Nat) (f : SpeedSrc → SpeedSrc) (s : State)  : Keeps s (updSrc k f s) := by
  unfold updSrc
  exact keeps_mk

theorem keeps_readPulseSource (s : State) (k : Nat)  : Keeps s (readPulseSource s k) := by
  unfold readPulseSource
  exact (keeps_ite (Keeps.refl _) (by (try extract_lets); split; exact (keeps_updSrc ..); exact (keeps_updSrc ..)))

theorem keeps_isobusSpeed (port kind : Nat) (v : Option Nat) (rev : Option Bool) (s : State)  : Keeps s (isobusSpeed port kind v rev s) := by
  unfold isobusSpeed
  exact (keeps_foldl (fun _ _ => (keeps_ite (by (try extract_lets); split; exact (keeps_updSrc ..); exact (keeps_updSrc ..)) (Keeps.refl _))) _ _)

theorem keeps_execIsobusSpeedTimeout (k : Nat) (s : State) : ∃ u, execIsobusSpeedTimeout k s = .next u ∧ Keeps s u := by
  unfold execIsobusSpeedTimeout
  exact ⟨_, rfl, (keeps_ite (Keeps.after (keeps_updSrc ..) (keeps_toInstant ..)) (Keeps.refl _))⟩

theorem keeps_trackSource (s : State) (k : Nat)  : Keeps s (trackSource s k) := by
  unfold trackSource
  exact (keeps_updSrc ..)

theorem keeps_execSpeedSourceImplausible (k : Nat) (s : State) : ∃ u, execSpeedSourceImplausible k s = .next u ∧ Keeps s u := by
  unfold execSpeedSourceImplausible
  exact ⟨_, rfl, (by (try extract_lets); split; exact (Keeps.refl _); exact (keeps_ite (Keeps.refl _) (Keeps.after (keeps_raiseLimited ..) (Keeps.after (keeps_updSrc ..) (keeps_toInstant ..)))))⟩

theorem keeps_execSpeedSourceRestore (k : Nat) (s : State) : ∃ u, execSpeedSourceRestore k s = .next u ∧ Keeps s u := by
  unfold execSpeedSourceRestore
  exact ⟨_, rfl, (by (try extract_lets); split; exact (Keeps.refl _); exact (keeps_ite (Keeps.after (keeps_updSrc ..) (keeps_toInstant ..)) (Keeps.refl _)))⟩

theorem keeps_readDirection (s : State)  : Keeps s (readDirection s) := by
  unfold readDirection
  exact (keeps_ite (keeps_setReverse ..) (keeps_ite (by (try extract_lets); split; exact (keeps_setReverse ..); exact (Keeps.refl _)) (Keeps.refl _)))

theorem keeps_trackCourse (course speed : Fx) (s : State)  : Keeps s (trackCourse course speed s) := by
  unfold trackCourse
  exact keeps_mk

theorem keeps_execReverseDetect (s : State) : ∃ u, execReverseDetect s = .next u ∧ Keeps s u := by
  unfold execReverseDetect
  exact ⟨_, rfl, (by (try extract_lets); split; exact (Keeps.refl _); exact (keeps_ite (Keeps.after (keeps_setReverse ..) (keeps_toInstant ..)) (Keeps.refl _)))⟩

theorem keeps_positionAccepted (m : KMeas) (s : State)  : Keeps s (positionAccepted m s) := by
  unfold positionAccepted
  exact keeps_mk

theorem keeps_kinStates (s : State)  : Keeps s (kinStates s) := by
  unfold kinStates
  exact (Keeps.after (keeps_ite (keeps_setKState ..) (Keeps.refl _)) (Keeps.after (keeps_ite (keeps_setKState ..) (Keeps.refl _)) (keeps_ite
      (keeps_setKState ..) (Keeps.refl _))))

theorem keeps_kfPropagateRun (tk : Nat) (s : State)  : Keeps s (kfPropagateRun tk s) := by
  unfold kfPropagateRun
  exact keeps_mk

theorem keeps_kfRewrite (k : Nat) (f : Config.KfEst → Config.KfEst) (s : State)  : Keeps s (kfRewrite k f s) := by
  unfold kfRewrite
  exact (by (try extract_lets); split; exact (Keeps.refl _); exact keeps_mk)

theorem keeps_kfApply (t : Nat) (m : Config.KfMeas) (s : State)  : Keeps s (kfApply t m s) := by
  unfold kfApply
  exact (keeps_kfRewrite ..)

theorem keeps_posReset (m : KMeas) (s : State)  : Keeps s (posReset m s) := by
  unfold posReset
  exact (Keeps.after (keeps_positionAccepted ..) (Keeps.after (keeps_raise0 ..) (Keeps.after keeps_mk (keeps_kfRewrite ..))))

theorem keeps_execKinPosReset (s : State) : ∃ u, execKinPosReset s = .next u ∧ Keeps s u := by
  unfold execKinPosReset
  exact ⟨_, rfl, (keeps_ite (Keeps.refl _) (by (try extract_lets); split; exact (Keeps.refl _); exact (Keeps.after (keeps_kinStates ..) (Keeps.after (keeps_posReset ..) keeps_mk))))⟩

theorem keeps_velocityAccepted (m : KMeas) (s : State)  : Keeps s (velocityAccepted m s) := by
  unfold velocityAccepted
  exact (Keeps.after keeps_mk (Keeps.after (keeps_trackCourse ..) keeps_mk))

theorem keeps_measRejected (m : KMeas) (reason value : Nat) (s : State)  : Keeps s (measRejected m reason value s) := by
  unfold measRejected
  exact (Keeps.after (keeps_ite keeps_mk (keeps_ite keeps_mk (Keeps.refl _))) (keeps_fixRejected ..))

theorem keeps_measStep (tk : Nat) (s : State) (m : KMeas)  : Keeps s (measStep tk s m) := by
  unfold measStep
  exact (keeps_ite (keeps_measRejected ..) (keeps_ite (Keeps.refl _) (keeps_ite (keeps_posReset ..) (keeps_ite (keeps_ite (Keeps.refl _)
      (keeps_measRejected ..)) (Keeps.after (keeps_ite (keeps_positionAccepted ..) (keeps_ite (keeps_velocityAccepted ..) (keeps_ite keeps_mk
      keeps_mk))) (keeps_kfApply ..))))))

theorem keeps_learnScale (sc : F32) (s : State)  : Keeps s (learnScale sc s) := by
  unfold learnScale
  exact (by (try extract_lets); split; exact (Keeps.refl _); exact (keeps_ite (Keeps.refl _) (Keeps.after (keeps_ite (Keeps.after (keeps_raise0 ..) keeps_mk) (Keeps.refl _)) keeps_mk)))

theorem keeps_kfCommit (s : State)  : Keeps s (kfCommit s) := by
  unfold kfCommit
  exact keeps_mk

theorem keeps_runMeas (tk dim : Nat) (m : Config.KfMeas) (s : State) : Keeps s (runMeas tk dim m s).2 := by
  unfold runMeas
  exact (keeps_ite2 (Keeps.refl _) (keeps_kfApply ..))

theorem keeps_auxMeas (tk : Nat) (s : State)  : Keeps s (auxMeas tk s) := by
  unfold auxMeas
  exact (Keeps.after (keeps_ite (keeps_ite (Keeps.after keeps_mk (keeps_runMeas ..)) (keeps_runMeas ..)) (Keeps.refl _)) (Keeps.after (keeps_ite
      (keeps_runMeas ..) (Keeps.refl _)) (keeps_foldl (fun _ _ => (keeps_ite (Keeps.after keeps_mk (keeps_runMeas ..)) (keeps_runMeas ..))) _ _)))

theorem keeps_execEstimatorRun (s : State) : ∃ u, execEstimatorRun s = .next u ∧ Keeps s u := by
  unfold execEstimatorRun
  exact ⟨_, rfl, (keeps_ite (Keeps.refl _) (Keeps.after (keeps_kinStates ..) (Keeps.after (keeps_learnScale ..) (Keeps.after (keeps_kfCommit ..)
      (Keeps.after (keeps_foldl (fun _ _ => (keeps_trackSource ..)) _ _) (Keeps.after (keeps_ite keeps_mk (Keeps.refl _)) (Keeps.after (keeps_ite
      keeps_mk (Keeps.refl _)) (Keeps.after (keeps_auxMeas ..) (Keeps.after (keeps_foldl (fun _ _ => (keeps_measStep ..)) _ _) (Keeps.after keeps_mk
      (Keeps.after (keeps_kfPropagateRun ..) (Keeps.after (keeps_foldl (fun _ _ => (keeps_readPulseSource ..)) _ _) (keeps_toInstant ..)))))))))))))⟩

theorem keeps_execGnssTimeout (s : State) : ∃ u, execGnssTimeout s = .next u ∧ Keeps s u := by
  unfold execGnssTimeout
  exact ⟨_, rfl, (by (try extract_lets); split; exact (Keeps.refl _); exact (keeps_ite (Keeps.after (keeps_raise0 ..) (Keeps.after (keeps_setKState ..) (Keeps.after keeps_mk (keeps_toInstant ..)))) (Keeps.refl _)))⟩

theorem keeps_execDrLimitExpiry (s : State) : ∃ u, execDrLimitExpiry s = .next u ∧ Keeps s u := by
  unfold execDrLimitExpiry
  exact ⟨_, rfl, (keeps_ite (Keeps.after (keeps_raise0 ..) (Keeps.after keeps_mk (keeps_toInstant ..))) (Keeps.refl _))⟩

theorem keeps_execHeadingTimeout (s : State) : ∃ u, execHeadingTimeout s = .next u ∧ Keeps s u := by
  unfold execHeadingTimeout
  exact ⟨_, rfl, (keeps_ite (Keeps.after keeps_mk (keeps_toInstant ..)) (Keeps.refl _))⟩

theorem keeps_pathInvalid (s : State)  : Keeps s (pathInvalid s) := by
  unfold pathInvalid
  exact (keeps_foldl (fun _ _ => (keeps_class1 ..)) _ _)

theorem keeps_execPathValidTimeout (s : State) : ∃ u, execPathValidTimeout s = .next u ∧ Keeps s u := by
  unfold execPathValidTimeout
  exact ⟨_, rfl, (by (try extract_lets); split; exact (Keeps.refl _); exact (keeps_ite (Keeps.after (keeps_pathInvalid ..) (Keeps.after keeps_mk (keeps_toInstant ..))) (Keeps.refl _)))⟩

theorem keeps_execStandstillDetect (s : State) : ∃ u, execStandstillDetect s = .next u ∧ Keeps s u := by
  unfold execStandstillDetect
  exact ⟨_, rfl, (by (try extract_lets); split; exact (Keeps.refl _); exact (Keeps.after (keeps_ite keeps_mk (Keeps.refl _)) (keeps_toInstant ..)))⟩

theorem keeps_execHitchImplausibleTimeout (s : State) : ∃ u, execHitchImplausibleTimeout s = .next u ∧ Keeps s u := by
  unfold execHitchImplausibleTimeout
  exact ⟨_, rfl, (by (try extract_lets); split; exact (Keeps.refl _); exact (keeps_ite (Keeps.refl _) (Keeps.after (keeps_raise0 ..) (Keeps.after keeps_mk (keeps_toInstant ..)))))⟩

theorem keeps_execHitchRestore (s : State) : ∃ u, execHitchRestore s = .next u ∧ Keeps s u := by
  unfold execHitchRestore
  exact ⟨_, rfl, (by (try extract_lets); split; exact (Keeps.refl _); exact (keeps_ite (Keeps.after keeps_mk (keeps_toInstant ..)) (Keeps.refl _)))⟩

theorem keeps_execSteerHoldExpiry (s : State) : ∃ u, execSteerHoldExpiry s = .next u ∧ Keeps s u := by
  unfold execSteerHoldExpiry
  exact ⟨_, rfl, (by (try extract_lets); split; exact (Keeps.refl _); exact (Keeps.after keeps_mk (keeps_toInstant ..)))⟩

/-! ## Can -/

theorem keeps_updCan (i : Nat) (f : CanRt → CanRt) (s : State)  : Keeps s (updCan i f s) := by
  unfold updCan
  exact (keeps_updObj _ (by intro _; rfl) _)

theorem keeps_canEnable (i : Nat) (s : State)  : Keeps s (canEnable i s) := by
  unfold canEnable
  exact (keeps_updCan ..)

theorem keeps_canDisable (i : Nat) (s : State)  : Keeps s (canDisable i s) := by
  unfold canDisable
  exact (keeps_updCan ..)

theorem keeps_bodyCanFilterSet (d : Desc) (o : Obj) (s : State)  : Keeps s (bodyCanFilterSet d o s) := by
  unfold bodyCanFilterSet
  exact (by (try extract_lets); split; exact (keeps_failWith ..); exact (Keeps.after (keeps_ok ..) (keeps_updCan ..)))

theorem keeps_execCanFilterSet (d : Desc) (s : State) : ∃ u, execCanFilterSet d s = .next u ∧ Keeps s u := by
  unfold execCanFilterSet
  exact ⟨_, rfl, (keeps_runObj (h_body := (fun _ => (fun _ => (keeps_bodyCanFilterSet ..)))) ..)⟩

theorem keeps_canBoundary (s : State)  : Keeps s (canBoundary s) := by
  unfold canBoundary
  exact (keeps_foldl (fun _ _ => (by (try extract_lets); split; exact (Keeps.refl _); exact (keeps_updCan ..))) _ _)

theorem keeps_canCount (i : Nat) (f : CanRt → CanRt) (s : State)  : Keeps s (canCount i f s) := by
  unfold canCount
  exact (by (try extract_lets); split; exact (Keeps.refl _); exact (Keeps.after (keeps_ite (Keeps.refl _) (keeps_ite (keeps_raise0 ..) (keeps_ite (keeps_raise0 ..) (keeps_ite (keeps_raise0 ..) (Keeps.refl _))))) (keeps_updCan ..)))

theorem keeps_fifoPut (i fifo : Nat) (x : CanRx) (s : State)  : Keeps s (fifoPut i fifo x s) := by
  unfold fifoPut
  exact (by (try extract_lets); split; exact (Keeps.refl _); exact (keeps_ite (keeps_updCan ..) (Keeps.after (keeps_raiseLimited ..) (keeps_updCan ..))))

theorem keeps_decodeInto (i table : Nat) (f : CanFrame) (s : State)  : Keeps s (decodeInto i table f s) := by
  unfold decodeInto
  exact (by (try extract_lets); split; exact (Keeps.refl _); exact (keeps_ite (keeps_updCan ..) (keeps_updCan ..)))

theorem keeps_canFilter (i : Nat) (f : CanFrame) (s : State)  : Keeps s (canFilter i f s) := by
  unfold canFilter
  exact (by (try extract_lets); split; exact (Keeps.refl _); exact (by (try extract_lets); split; exact (Keeps.refl _); exact (Keeps.after (keeps_ite (keeps_fifoPut ..) (keeps_ite (keeps_fifoPut ..) (Keeps.refl _))) (keeps_ite (keeps_decodeInto ..) (Keeps.refl _)))))

theorem keeps_speedMessage (h : Nat) (f : CanFrame) (s : State)  : Keeps s (speedMessage h f s) := by
  unfold speedMessage
  exact (keeps_ite (Keeps.refl _) (keeps_isobusSpeed ..))

theorem keeps_updTx (i b : Nat) (f : CanTx → CanTx) (s : State)  : Keeps s (updTx i b f s) := by
  unfold updTx
  exact (keeps_updCan ..)

theorem keeps_sendsEnd (h b status : Nat) (s : State)  : Keeps s (sendsEnd h b status s) := by
  unfold sendsEnd
  exact (keeps_foldl (fun _ _ => (keeps_completeDeferred ..)) _ _)

theorem keeps_txQueue (i b : Nat) (s : State)  : Keeps s (txQueue i b s) := by
  unfold txQueue
  exact (keeps_updTx ..)

theorem keeps_bodyCanSend (d : Desc) (o : Obj) (s : State)  : Keeps s (bodyCanSend d o s) := by
  unfold bodyCanSend
  exact (keeps_ite (keeps_fail ..) (keeps_ite (keeps_fail ..) (keeps_ite (keeps_ite (keeps_fail ..) (Keeps.after (keeps_txQueue ..) (Keeps.after (keeps_updTx ..) (Keeps.after (keeps_defer ..) (keeps_takeFree ..))))) (by (try extract_lets); split; exact (Keeps.after (keeps_defer ..) (keeps_updTx ..)); exact (keeps_ite (keeps_fail ..) (Keeps.after (keeps_txQueue ..) (Keeps.after (keeps_updTx ..) (keeps_defer ..))))))))

theorem keeps_execCanSend (d : Desc) (s : State) : ∃ u, execCanSend d s = .next u ∧ Keeps s u := by
  unfold execCanSend
  exact ⟨_, rfl, (keeps_runObj (h_body := (fun _ => (fun _ => (keeps_bodyCanSend ..)))) ..)⟩

theorem keeps_bodyCanTxConfig (d : Desc) (o : Obj) (s : State)  : Keeps s (bodyCanTxConfig d o s) := by
  unfold bodyCanTxConfig
  exact (keeps_ite (keeps_fail ..) (keeps_ite (keeps_fail ..) (keeps_ite (keeps_fail ..) (keeps_ite (keeps_failWith ..) (keeps_ite (Keeps.after
      (keeps_ok ..) (keeps_updTx ..)) (Keeps.after (keeps_ok ..) (keeps_updTx ..)))))))

theorem keeps_execCanTxConfig (d : Desc) (s : State) : ∃ u, execCanTxConfig d s = .next u ∧ Keeps s u := by
  unfold execCanTxConfig
  exact ⟨_, rfl, (keeps_runObj (h_body := (fun _ => (fun _ => (keeps_bodyCanTxConfig ..)))) ..)⟩

theorem keeps_execCanPeriodicQueue (h buf : Nat) (s : State) : ∃ u, execCanPeriodicQueue h buf s = .next u ∧ Keeps s u := by
  unfold execCanPeriodicQueue
  exact ⟨_, rfl, (by (try extract_lets); split; exact (Keeps.refl _); exact (by (try extract_lets); split; exact (Keeps.refl _); exact (keeps_ite (Keeps.refl _) (Keeps.after (keeps_ite (keeps_updCan ..) (Keeps.after (keeps_txQueue ..) (Keeps.after (keeps_updTx ..) (keeps_ite2 (keeps_fmtBuild ..) (Keeps.refl _))))) (Keeps.after (keeps_updTx ..) (keeps_toInstant ..))))))⟩

theorem keeps_bodyCanTxRelease (d : Desc) (o : Obj) (s : State)  : Keeps s (bodyCanTxRelease d o s) := by
  unfold bodyCanTxRelease
  exact (keeps_ite (keeps_fail ..) (keeps_ite (keeps_fail ..) (Keeps.after (keeps_txQueue ..) (Keeps.after (keeps_updTx ..) (keeps_defer ..)))))

theorem keeps_execCanTxRelease (d : Desc) (s : State) : ∃ u, execCanTxRelease d s = .next u ∧ Keeps s u := by
  unfold execCanTxRelease
  exact ⟨_, rfl, (keeps_runObj (h_body := (fun _ => (fun _ => (keeps_bodyCanTxRelease ..)))) ..)⟩

theorem keeps_bodyCanSignalWrite (d : Desc) (o : Obj) (s : State)  : Keeps s (bodyCanSignalWrite d o s) := by
  unfold bodyCanSignalWrite
  exact (keeps_ite (keeps_fail ..) (Keeps.after (keeps_ok ..) (keeps_updCan ..)))

theorem keeps_execCanSignalWrite (d : Desc) (s : State) : ∃ u, execCanSignalWrite d s = .next u ∧ Keeps s u := by
  unfold execCanSignalWrite
  exact ⟨_, rfl, (keeps_runObj (h_body := (fun _ => (fun _ => (keeps_bodyCanSignalWrite ..)))) ..)⟩

theorem keeps_attemptEnd (i : Nat) (s : State)  : Keeps s (attemptEnd i s) := by
  unfold attemptEnd
  exact (keeps_updCan ..)

theorem keeps_bodyCanRead (d : Desc) (o : Obj) (s : State)  : Keeps s (bodyCanRead d o s) := by
  unfold bodyCanRead
  exact (keeps_ite (keeps_fail ..) (keeps_ite (keeps_fail ..) (keeps_defer ..)))

theorem keeps_execCanRead (d : Desc) (s : State) : ∃ u, execCanRead d s = .next u ∧ Keeps s u := by
  unfold execCanRead
  exact ⟨_, rfl, (keeps_runObj (h_body := (fun _ => (fun _ => (keeps_bodyCanRead ..)))) ..)⟩

theorem keeps_deferredWrite (x : Deferred) (bs : List Byte) (r : Reply) (s : State) : Keeps s (deferredWrite x bs r s) := by
  unfold deferredWrite; split
  · next t h => exact (keeps_ptrWrite h).trans (keeps_completeDeferred ..)
  · exact (keeps_raise0 ..).trans (keeps_completeDeferred ..)

theorem keeps_readEnd (x : Deferred) (s : State)  : Keeps s (readEnd x s) := by
  unfold readEnd
  exact (by (try extract_lets); split; exact (keeps_completeDeferred ..); exact (Keeps.after (keeps_deferredWrite ..) (keeps_updCan ..)))

theorem keeps_execCanReadDone (h fifo : Nat) (s : State) : ∃ u, execCanReadDone h fifo s = .next u ∧ Keeps s u := by
  unfold execCanReadDone
  exact ⟨_, rfl, (by (try extract_lets); split; exact (keeps_ite (keeps_readEnd ..) (keeps_ite (Keeps.refl _) (Keeps.after (keeps_readEnd ..) (keeps_toInstant ..)))); exact (Keeps.refl _))⟩

theorem keeps_singleFailed (o : Obj) (b : Nat) (s : State)  : Keeps s (singleFailed o b s) := by
  unfold singleFailed
  exact (keeps_ite (Keeps.after (keeps_sendsEnd ..) (keeps_updTx ..)) (Keeps.refl _))

theorem keeps_execCanTxError (h : Nat) (e : CanErr) (s : State) : ∃ u, execCanTxError h e s = .next u ∧ Keeps s u := by
  unfold execCanTxError
  exact ⟨_, rfl, (by (try extract_lets); split; exact (Keeps.refl _); exact (keeps_ite (Keeps.refl _) (keeps_ite (keeps_ite (Keeps.refl _) (Keeps.after (keeps_attemptEnd ..) (Keeps.after (keeps_singleFailed ..) (keeps_canCount ..)))) (keeps_canCount ..))))⟩

theorem keeps_execLoneNode (h : Nat) (s : State) : ∃ u, execLoneNode h s = .next u ∧ Keeps s u := by
  unfold execLoneNode
  exact ⟨_, rfl, (by (try extract_lets); split; exact (Keeps.refl _); exact (keeps_ite (Keeps.after (keeps_raise0 ..) (keeps_updCan ..)) (Keeps.refl _)))⟩

theorem keeps_execLoneNodeThrottle (h : Nat) (s : State) : ∃ u, execLoneNodeThrottle h s = .next u ∧ Keeps s u := by
  unfold execLoneNodeThrottle
  exact ⟨_, rfl, (by (try extract_lets); split; exact (Keeps.refl _); exact (keeps_ite (Keeps.after (keeps_updCan ..) (keeps_toInstant ..)) (Keeps.refl _)))⟩

theorem keeps_execIdcoll (h buf : Nat) (s : State) : ∃ u, execIdcoll h buf s = .next u ∧ Keeps s u := by
  unfold execIdcoll
  exact ⟨_, rfl, (by (try extract_lets); split; exact (Keeps.refl _); exact (keeps_ite (Keeps.refl _) (Keeps.after (keeps_ite (Keeps.refl _) (Keeps.after (keeps_sendsEnd ..) (keeps_updTx ..))) (Keeps.after (keeps_raise0 ..) (keeps_updCan ..)))))⟩

theorem keeps_bodyCanWakeConfig (d : Desc) (s : State)  : Keeps s (bodyCanWakeConfig d s) := by
  unfold bodyCanWakeConfig
  exact (keeps_ite (keeps_fail ..) (Keeps.after (keeps_ok ..) keeps_mk))

theorem keeps_execCanWakeConfig (d : Desc) (s : State) : ∃ u, execCanWakeConfig d s = .next u ∧ Keeps s u := by
  unfold execCanWakeConfig
  exact ⟨_, rfl, (keeps_runDesc (h_body := (fun _ => (keeps_bodyCanWakeConfig ..))) ..)⟩

theorem keeps_bodyCanInhOff (d : Desc) (s : State)  : Keeps s (bodyCanInhOff d s) := by
  unfold bodyCanInhOff
  exact (Keeps.after (keeps_ok ..) keeps_mk)

theorem keeps_execCanInhOff (d : Desc) (s : State) : ∃ u, execCanInhOff d s = .next u ∧ Keeps s u := by
  unfold execCanInhOff
  exact ⟨_, rfl, (keeps_runDesc (h_body := (fun _ => (keeps_bodyCanInhOff ..))) ..)⟩

theorem keeps_canSleep (s : State)  : Keeps s (canSleep s) := by
  unfold canSleep
  exact (Keeps.after (keeps_foldl (fun _ _ => (keeps_readEnd ..)) _ _) (keeps_foldl (fun _ _ => (Keeps.after (keeps_completeDeferred ..) (by (try extract_lets); split; exact (keeps_updTx ..); exact (Keeps.refl _)))) _ _))

theorem keeps_canHalt (s : State)  : Keeps s (canHalt s) := by
  unfold canHalt
  exact (Keeps.after (keeps_foldl (fun _ _ => (keeps_updCan ..)) _ _) keeps_mk)

theorem keeps_canResume (s : State)  : Keeps s (canResume s) := by
  unfold canResume
  exact (Keeps.after (keeps_foldl (fun _ _ => (keeps_updCan ..)) _ _) keeps_mk)

/-! ## Motion -/

theorem keeps_updWing (i : Nat) (f : WingRt → WingRt) (s : State)  : Keeps s (updWing i f s) := by
  unfold updWing
  exact (keeps_updObj _ (by intro _; rfl) _)

theorem keeps_wingFrame (s : State) (o : Obj)  : Keeps s (wingFrame s o) := by
  unfold wingFrame
  exact (keeps_ite (keeps_updWing ..) (by (try extract_lets); split; exact (Keeps.after (keeps_ite (keeps_raise0 ..) (Keeps.refl _)) (keeps_updWing ..)); exact (keeps_updWing ..)))

theorem keeps_execWingHoldExpiry (h : Nat) (s : State) : ∃ u, execWingHoldExpiry h s = .next u ∧ Keeps s u := by
  unfold execWingHoldExpiry
  exact ⟨_, rfl, (by (try extract_lets); split; exact (Keeps.refl _); exact (by (try extract_lets); split; exact (Keeps.refl _); exact (Keeps.after (keeps_updWing ..) (keeps_toInstant ..))))⟩

theorem keeps_execWingSensorRestore (h : Nat) (s : State) : ∃ u, execWingSensorRestore h s = .next u ∧ Keeps s u := by
  unfold execWingSensorRestore
  exact ⟨_, rfl, (by (try extract_lets); split; exact (Keeps.refl _); exact (by (try extract_lets); split; exact (Keeps.refl _); exact (keeps_ite (Keeps.refl _) (Keeps.after (keeps_updWing ..) (keeps_toInstant ..)))))⟩

theorem keeps_trackHitch (s : State)  : Keeps s (trackHitch s) := by
  unfold trackHitch
  exact (keeps_ite (Keeps.refl _) (by (try extract_lets); split; exact (Keeps.after (keeps_ite (Keeps.refl _) (keeps_raise0 ..)) keeps_mk); exact keeps_mk))

theorem keeps_trackSteer (s : State)  : Keeps s (trackSteer s) := by
  unfold trackSteer
  exact (keeps_ite (Keeps.refl _) (by (try extract_lets); split; exact keeps_mk; exact (keeps_ite (Keeps.refl _) (Keeps.after (keeps_raise0 ..) keeps_mk))))

theorem keeps_trackStandstill (s : State)  : Keeps s (trackStandstill s) := by
  unfold trackStandstill
  exact keeps_mk

theorem keeps_startCorrections (s : State)  : Keeps s (startCorrections s) := by
  unfold startCorrections
  exact (keeps_ite keeps_mk (Keeps.refl _))

theorem keeps_moveTractor (s : State)  : Keeps s (moveTractor s) := by
  unfold moveTractor
  exact keeps_mk

theorem keeps_moveImplement (b : Nat) (s : State)  : Keeps s (moveImplement b s) := by
  unfold moveImplement
  exact (Keeps.after keeps_mk keeps_mk)

theorem keeps_execPathIntegratorRun (s : State) : ∃ u, execPathIntegratorRun s = .next u ∧ Keeps s u := by
  unfold execPathIntegratorRun
  exact ⟨_, rfl, (keeps_ite (Keeps.refl _) (Keeps.after (keeps_moveImplement ..) (Keeps.after (keeps_trackStandstill ..) (Keeps.after
      (keeps_moveTractor ..) (Keeps.after (keeps_startCorrections ..) (Keeps.after (keeps_foldl (fun _ _ => (keeps_wingFrame ..)) _ _) (Keeps.after
      (keeps_trackSteer ..) (Keeps.after (keeps_trackHitch ..) (keeps_ite (Keeps.refl _) (keeps_readDirection ..))))))))))⟩

theorem keeps_execKinematicBroadcastSend (s : State) : ∃ u, execKinematicBroadcastSend s = .next u ∧ Keeps s u := by
  unfold execKinematicBroadcastSend
  exact ⟨_, rfl, (keeps_ite (Keeps.after keeps_mk (keeps_toInstant ..)) (Keeps.refl _))⟩

theorem keeps_execBroadcastReceive (rec : List Byte) (upPos : Nat) (s : State) : ∃ u, execBroadcastReceive rec upPos s = .next u ∧ Keeps s u := by
  unfold execBroadcastReceive
  exact ⟨_, rfl, (keeps_ite (Keeps.refl _) (Keeps.after (keeps_ite (keeps_pathInvalid ..) (Keeps.refl _)) keeps_mk))⟩

theorem keeps_execBroadcastDeadline (s : State) : ∃ u, execBroadcastDeadline s = .next u ∧ Keeps s u := by
  unfold execBroadcastDeadline
  exact ⟨_, rfl, (keeps_ite (Keeps.refl _) (Keeps.after (keeps_ite (Keeps.refl _) (Keeps.after (keeps_raise0 ..) keeps_mk)) (keeps_toInstant ..)))⟩

theorem keeps_execOslBcastStale (s : State) : ∃ u, execOslBcastStale s = .next u ∧ Keeps s u := by
  unfold execOslBcastStale
  exact ⟨_, rfl, (keeps_ite (Keeps.after (keeps_foldl (fun _ _ => (keeps_class1 ..)) _ _) (Keeps.after (keeps_pathInvalid ..) keeps_mk)) (Keeps.refl
      _))⟩

theorem keeps_updGeo (i : Nat) (f : GeoRt → GeoRt) (s : State)  : Keeps s (updGeo i f s) := by
  unfold updGeo
  exact (keeps_updObj _ (by intro _; rfl) _)

theorem keeps_geoPropagate (s : State) (o : Obj)  : Keeps s (geoPropagate s o) := by
  unfold geoPropagate
  exact (keeps_updGeo ..)

theorem keeps_execGeopointPropagate (s : State) : ∃ u, execGeopointPropagate s = .next u ∧ Keeps s u := by
  unfold execGeopointPropagate
  exact ⟨_, rfl, (Keeps.after (keeps_foldl (fun _ _ => (keeps_geoPropagate ..)) _ _) (keeps_toInstant ..))⟩

theorem keeps_geoLoad (b : Nat) (s : State) (o : Obj)  : Keeps s (geoLoad b s o) := by
  unfold geoLoad
  exact (by (try extract_lets); split; exact (Keeps.refl _); exact (keeps_ite (Keeps.refl _) (keeps_updGeo ..)))

theorem keeps_geoStart (b : Nat) (o : Obj) (s : State)  : Keeps s (geoStart b o s) := by
  unfold geoStart
  exact (keeps_updGeo ..)

theorem keeps_bodyKinGetState (d : Desc) (s : State)  : Keeps s (bodyKinGetState d s) := by
  unfold bodyKinGetState
  exact (keeps_writeBack ..)

theorem keeps_execKinGetState (d : Desc) (s : State) : ∃ u, execKinGetState d s = .next u ∧ Keeps s u := by
  unfold execKinGetState
  exact ⟨_, rfl, (keeps_runDesc (h_body := (fun _ => (keeps_bodyKinGetState ..))) ..)⟩

theorem keeps_bodyKinPredict (d : Desc) (o : Obj) (s : State)  : Keeps s (bodyKinPredict d o s) := by
  unfold bodyKinPredict
  exact (keeps_failWith ..)

theorem keeps_execKinPredict (d : Desc) (s : State) : ∃ u, execKinPredict d s = .next u ∧ Keeps s u := by
  unfold execKinPredict
  exact ⟨_, rfl, (keeps_runObj (h_body := (fun _ => (fun _ => (keeps_bodyKinPredict ..)))) ..)⟩

/-! ## Board -/

theorem keeps_updLayer (i : Nat) (f : LayerRt → LayerRt) (s : State)  : Keeps s (updLayer i f s) := by
  unfold updLayer
  exact (keeps_updObj _ (by intro _; rfl) _)

theorem keeps_hostFault (o : Obj) (kind tx ty : Nat) (s : State)  : Keeps s (hostFault o kind tx ty s) := by
  unfold hostFault
  exact (Keeps.after (keeps_ite (keeps_raise0 ..) (Keeps.refl _)) (Keeps.after (keeps_updLayer ..) (keeps_raise0 ..)))

theorem keeps_dirWrite (o : Obj) (tx ty e : Nat) (s : State) : Keeps s (dirWrite o tx ty e s) := by
  unfold dirWrite
  split
  · exact Keeps.refl s
  · cases h : ptrWrite (layDir o + 8 * entryNo o tx ty) (leBytes 8 e) s with
    | none => exact keeps_hostFault ..
    | some t => exact keeps_ptrWrite h

theorem keeps_marksLost (o : Obj) (tx ty reason : Nat) (s : State)  : Keeps s (marksLost o tx ty reason s) := by
  unfold marksLost
  exact (Keeps.after (keeps_raise0 ..) (keeps_updLayer ..))

theorem keeps_startWb (o : Obj) (t : CTile) (s : State)  : Keeps s (startWb o t s) := by
  unfold startWb
  exact (Keeps.after (keeps_updLayer ..) keeps_mk)

theorem keeps_evict (o : Obj) (t : CTile) (s : State)  : Keeps s (evict o t s) := by
  unfold evict
  exact (Keeps.after (keeps_updLayer ..) (keeps_ite (Keeps.refl _) (keeps_ite (keeps_marksLost ..) (keeps_startWb ..))))

theorem keeps_makeWay (o : Obj) (demand : Bool) (tx ty : Nat) (s : State) : Keeps s (makeWay o demand tx ty s).2 := by
  unfold makeWay
  exact (keeps_ite2 (Keeps.refl _) (by (try extract_lets); split; exact (Keeps.refl _); exact (by (try extract_lets); split; exact (Keeps.refl _); exact (keeps_evict ..))))

theorem keeps_putTile (o : Obj) (tx ty e : Nat) (data : List Host.Cell) (s : State)  : Keeps s (putTile o tx ty e data s) := by
  unfold putTile
  exact (Keeps.after (keeps_updLayer ..) keeps_mk)

theorem keeps_touchTile (o : Obj) (tx ty : Nat) (s : State)  : Keeps s (touchTile o tx ty s) := by
  unfold touchTile
  exact (Keeps.after (keeps_updLayer ..) keeps_mk)

theorem keeps_hitTile (i tx ty : Nat) (s : State)  : Keeps s (hitTile i tx ty s) := by
  unfold hitTile
  exact (Keeps.after (keeps_updLayer ..) keeps_mk)

theorem keeps_limitPins (i : Nat) (s : State)  : Keeps s (limitPins i s) := by
  unfold limitPins
  exact (by (try extract_lets); split; exact (Keeps.refl _); exact (keeps_ite (Keeps.refl _) (by (try extract_lets); split; exact (Keeps.refl _); exact (Keeps.after (keeps_marksLost ..) (keeps_updLayer ..)))))

theorem keeps_tileDirty (i tx ty : Nat) (s : State)  : Keeps s (tileDirty i tx ty s) := by
  unfold tileDirty
  exact (by (try extract_lets); split; exact (Keeps.refl _); exact (by (try extract_lets); split; exact (Keeps.refl _); exact (Keeps.after (keeps_ite (Keeps.after (keeps_limitPins ..) (keeps_raise0 ..)) (Keeps.refl _)) (keeps_updLayer ..))))

theorem keeps_askFetch (i : Nat) (group pre take : Bool) (tx ty : Nat) (s : State) : Keeps s (askFetch i group pre take tx ty s).2 := by
  unfold askFetch
  split
  · exact Keeps.refl s
  · next o ho =>
    extract_lets r key gone w go
    have hw : Keeps s w.2 := by
      unfold w; split
      · exact Keeps.refl s
      · exact keeps_makeWay ..
    split
    · exact Keeps.refl s
    · split
      · exact Keeps.refl s
      · split
        · exact Keeps.refl s
        · split
          · exact hw
          · unfold go; dsimp only; exact hw.trans (keeps_updLayer ..)
          · unfold go; dsimp only; exact hw.trans (keeps_updLayer ..)

theorem keeps_demandTile (i : Nat) (group : Bool) (tx ty : Nat) (s : State)  : Keeps s (demandTile i group tx ty s) := by
  unfold demandTile
  exact (keeps_askFetch ..)

theorem keeps_bringTile (i tx ty : Nat) (s : State) : Keeps s (bringTile i tx ty s).2 := by
  unfold bringTile
  exact (by (try extract_lets); split; exact (Keeps.refl _); exact (by (try extract_lets); split; exact (keeps_touchTile ..); exact (by (try extract_lets); split; exact (Keeps.after (keeps_putTile ..) (keeps_makeWay ..)); exact (keeps_makeWay ..)); exact (keeps_demandTile ..); exact (Keeps.refl _)))

theorem keeps_updChanBd (pos chan : Nat) (f : ChanBd → ChanBd) (s : State)  : Keeps s (updChanBd pos chan f s) := by
  unfold updChanBd
  exact keeps_mk

theorem keeps_markSquare (i : Nat) (guard : List (Quad × Int)) (pos chan : Nat) (s : State) (q : Int × Int)  : Keeps s (markSquare i guard pos chan s
    q) := by
  unfold markSquare
  exact (by (try extract_lets); split; exact (Keeps.refl _); exact (by (try extract_lets); split; exact (Keeps.after (keeps_raiseLimited ..) (keeps_updLayer ..)); exact (Keeps.after (keeps_ite (Keeps.refl _) (Keeps.after (keeps_tileDirty ..) (keeps_updLayer ..))) (keeps_hitTile ..)); exact (Keeps.refl _)))

theorem keeps_markRun (i tick : Nat) (guard : List (Quad × Int)) (pos chan : Nat) :
    ∀ (qs : List (Int × Int)) (n : Nat) (s : State), Keeps s (markRun i tick guard pos chan qs n s).2
  | [], n, s => by unfold markRun; exact Keeps.refl s
  | _ :: _, 0, s => by unfold markRun; exact Keeps.refl s
  | q :: qs, n + 1, s => by
    unfold markRun; split
    · exact Keeps.refl s
    · dsimp only; exact (keeps_markSquare ..).trans (keeps_markRun i tick guard pos chan qs n _)

theorem keeps_bringTiles (i : Nat) (qs : List (Int × Int)) (s : State) : Keeps s (bringTiles i qs s) := by
  unfold bringTiles
  split
  · exact Keeps.refl s
  · exact keeps_foldl (fun _ _ => keeps_bringTile ..) _ _

theorem keeps_recTaken (m : QMark) (s : State)  : Keeps s (recTaken m s) := by
  unfold recTaken
  exact (keeps_updChanBd ..)

theorem keeps_visitFrame (s : State)  : Keeps s (visitFrame s) := by
  unfold visitFrame
  exact (keeps_ite (Keeps.refl _) keeps_mk)

theorem keeps_visits (made asked : Nat) (s : State)  : Keeps s (visits made asked s) := by
  unfold visits
  exact keeps_mk

theorem keeps_overload (s : State)  : Keeps s (overload s) := by
  unfold overload
  exact (by (try extract_lets); split; exact (Keeps.refl _); exact (keeps_ite (Keeps.refl _) (keeps_raiseLimited ..)))

theorem keeps_applyPatch (o : Obj) (m : QMark) (q : Quad) (s : State) : Keeps s (applyPatch o m q s).2 := by
  unfold applyPatch
  extract_lets chan c all qs room w s1 s2 tol len
  have h1 : Keeps s s1 := (keeps_bringTiles ..).trans ((keeps_markRun ..).trans (keeps_visits ..))
  have h2 : Keeps s s2 := h1.trans (keeps_updLayer ..)
  split
  · exact h1
  · exact h2.trans (keeps_ite (Keeps.refl _) (keeps_updChanBd ..))

theorem keeps_unmarked (o : Obj) (m : QMark) (s : State)  : Keeps s (unmarked o m s) := by
  unfold unmarked
  exact (Keeps.after (keeps_ite (Keeps.refl _) (Keeps.after (keeps_raise0 ..) (keeps_updChanBd ..))) (keeps_updLayer ..))

theorem keeps_doMark (m : QMark) (s : State) : Keeps s (doMark m s).2 := by
  unfold doMark
  split
  · exact keeps_recTaken ..
  · extract_lets c
    split
    · exact (keeps_marksLost ..).trans (keeps_recTaken ..)
    · split
      · exact keeps_recTaken ..
      · split
        · dsimp only; exact (keeps_unmarked ..).trans ((keeps_recTaken ..).trans (keeps_updChanBd ..))
        · next q hq _ =>
          extract_lets w
          have hw : Keeps s w.2 := keeps_applyPatch ..
          split
          · exact hw
          · exact hw.trans (keeps_recTaken ..)

theorem keeps_queueMark (m : QMark) (s : State)  : Keeps s (queueMark m s) := by
  unfold queueMark
  exact (keeps_ite keeps_mk (by (try extract_lets); split; exact keeps_mk; exact (Keeps.after (keeps_marksLost ..) keeps_mk)))

theorem keeps_markLoop : ∀ (ms kept : List QMark) (wait : List (Nat × Nat)) (s : State), Keeps s (markLoop ms kept wait s)
  | [], _, _, _ => keeps_mk
  | m :: ms, kept, wait, s => by
    unfold markLoop
    extract_lets key src s1 w
    have h1 : Keeps s s1 := keeps_mk
    split
    · exact h1.trans ((keeps_visits ..).trans (keeps_markLoop ms _ _ _))
    · split
      · exact h1.trans (keeps_markLoop ms _ _ _)
      · have hw : Keeps s w.2 := h1.trans (keeps_doMark ..)
        split
        · exact hw.trans (keeps_markLoop ms _ _ _)
        · exact hw.trans (keeps_markLoop ms _ _ _)

theorem keeps_missSquare (o : Obj) (g : Bool) (tx ty : Nat) (s : State)  : Keeps s (missSquare o g tx ty s) := by
  unfold missSquare
  exact (Keeps.after (keeps_demandTile ..) (Keeps.after (keeps_raiseHeld ..) (keeps_updLayer ..)))

theorem keeps_countSquare (i : Nat) (a : Counts × State) (q : Int × Int) : Keeps a.2 (countSquare i a q).2 := by
  unfold countSquare
  split
  · exact Keeps.refl _
  · extract_lets t c kept
    split
    · exact Keeps.refl _
    · exact Keeps.refl _
    · exact Keeps.refl _
    · dsimp only; exact keeps_hitTile ..
    · dsimp only; exact keeps_missSquare ..

theorem keeps_prescription (s : State) (f : Foot) (last : Nat × F32) : Keeps s (prescription s f last).2.2.2 := by
  unfold prescription
  split
  · exact Keeps.refl s
  · extract_lets cx cy q t rate
    split
    · dsimp only; exact keeps_hitTile ..
    · next g =>
      extract_lets s1
      have h1 : Keeps s s1 := keeps_missSquare ..
      split <;> exact h1
    · exact Keeps.refl s

theorem keeps_answerOf (pos : Nat) (b : List Byte) (late : Bool) (s : State) : Keeps s (answerOf pos b late s).2 := by
  unfold answerOf
  extract_lets chan c cov x n miss r l p missed held fl
  have hr : Keeps s r.2 := by
    unfold r
    cases cov with
    | none => exact Keeps.refl s
    | some o =>
      dsimp only; split
      · dsimp only; exact keeps_updLayer ..
      · exact keeps_foldlP (fun r q => keeps_countSquare _ r q) _ ({}, s)
  have hp : Keeps s p.2.2.2 := by
    unfold p; split
    · exact hr
    · exact hr.trans (keeps_prescription ..)
  dsimp only; exact hp.trans (keeps_updChanBd ..)

theorem keeps_takeAnswer (rec : List Byte) (s : State)  : Keeps s (takeAnswer rec s) := by
  unfold takeAnswer
  exact (by (try extract_lets); split; exact (Keeps.refl _); exact (by (try extract_lets); split; exact (Keeps.refl _); exact (keeps_ite (Keeps.refl _) (keeps_updChan ..))))

theorem keeps_sendAnswer (pos : Nat) (query rec : List Byte) (s : State)  : Keeps s (sendAnswer pos query rec s) := by
  unfold sendAnswer
  exact (keeps_ite (keeps_takeAnswer ..) (Keeps.after (keeps_updChanBd ..) keeps_mk))

theorem keeps_queryLoop : ∀ (qs : List (Nat × List Byte)) (full : Bool) (s : State), Keeps s (queryLoop qs full s)
  | [], _, s => Keeps.refl s
  | (pos, b) :: qs, full, s => by
    unfold queryLoop
    extract_lets size late a
    exact (keeps_visits ..).trans ((keeps_answerOf ..).trans ((keeps_sendAnswer ..).trans (keeps_queryLoop qs _ _)))

theorem keeps_paintTile (i : Nat) (p : Paint) (tx ty : Nat) (s : State) : Keeps s (paintTile i p tx ty s).2 := by
  unfold paintTile
  exact (by (try extract_lets); split; exact (Keeps.refl _); exact (by (try extract_lets); split; exact (Keeps.refl _); exact (keeps_ite (Keeps.refl _) (Keeps.after (keeps_tileDirty ..) (keeps_updLayer ..)))))

theorem keeps_paintRun (i : Nat) : ∀ (n : Nat) (p : Paint) (s : State), Keeps s (paintRun i n p s).2
  | 0, _, s => Keeps.refl s
  | n + 1, p, s => by
    unfold paintRun
    split
    · split
      · exact Keeps.refl s
      · split
        · exact keeps_paintRun i n _ s
        · exact keeps_paintRun i n _ s
        · extract_lets p w x
          have hw : Keeps s w.2 := keeps_bringTile ..
          split
          · exact hw
          · exact (hw.trans (keeps_paintTile ..)).trans (keeps_paintRun i n _ _)
    · exact Keeps.refl s

theorem keeps_paintAll (i : Nat) (s : State)  : Keeps s (paintAll i s) := by
  unfold paintAll
  exact (keeps_foldl (fun _ _ => (Keeps.after (keeps_updLayer ..) (keeps_paintRun ..))) _ _)

theorem keeps_bodyBoardPaint (d : Desc) (o : Obj) (s : State)  : Keeps s (bodyBoardPaint d o s) := by
  unfold bodyBoardPaint
  exact (keeps_ite (keeps_fail ..) (keeps_ite (keeps_fail ..) (keeps_ite (keeps_fail ..) (Keeps.after (keeps_defer ..) (Keeps.after (keeps_paintAll
      ..) (Keeps.after (keeps_updLayer ..) keeps_mk))))))

theorem keeps_execBoardPaint (d : Desc) (s : State) : ∃ u, execBoardPaint d s = .next u ∧ Keeps s u := by
  unfold execBoardPaint
  exact ⟨_, rfl, (keeps_runObj (h_body := (fun _ => (fun _ => (keeps_bodyBoardPaint ..)))) ..)⟩

theorem keeps_execBoardPaintDone (h : Nat) (s : State) : ∃ u, execBoardPaintDone h s = .next u ∧ Keeps s u := by
  unfold execBoardPaintDone
  exact ⟨_, rfl, (by (try extract_lets); split; exact (Keeps.refl _); exact (by (try extract_lets); split; exact (Keeps.refl _); exact (by (try extract_lets); split; exact (keeps_updLayer ..); exact (Keeps.after (keeps_completeDeferred ..) (keeps_updLayer ..)))))⟩

theorem keeps_tileWait (i : Nat) (d : Desc) (s : State)  : Keeps s (tileWait i d s) := by
  unfold tileWait
  exact (keeps_updLayer ..)

theorem keeps_bodyTileRead (d : Desc) (o : Obj) (s : State)  : Keeps s (bodyTileRead d o s) := by
  unfold bodyTileRead
  exact (keeps_ite (keeps_fail ..) (by (try extract_lets); split; exact (keeps_fail ..); exact (keeps_fail ..); exact (Keeps.after (keeps_writeBack ..) (keeps_touchTile ..)); exact (keeps_writeBack ..); exact (keeps_ite (Keeps.after (keeps_fail ..) (keeps_askFetch ..)) (Keeps.after (keeps_tileWait ..) (keeps_askFetch ..)))))

theorem keeps_execBoardTileRead (d : Desc) (s : State) : ∃ u, execBoardTileRead d s = .next u ∧ Keeps s u := by
  unfold execBoardTileRead
  exact ⟨_, rfl, (keeps_runObj (h_body := (fun _ => (fun _ => (keeps_bodyTileRead ..)))) ..)⟩

theorem keeps_unfetch (i tx ty : Nat) (s : State)  : Keeps s (unfetch i tx ty s) := by
  unfold unfetch
  exact (keeps_updLayer ..)

theorem keeps_bodyTileWrite (d : Desc) (o : Obj) (s : State) : Keeps s (bodyTileWrite d o s) := by
  unfold bodyTileWrite
  extract_lets tx ty put s1 fresh
  have hp : ∀ e t, Keeps t (put e t) := fun e t => (keeps_putTile ..).trans ((keeps_tileDirty ..).trans (keeps_ok ..))
  have hf : ∀ e, Keeps s (fresh e) := by
    intro e
    unfold fresh
    have h1 : Keeps s s1 := keeps_unfetch ..
    split
    · exact h1
    · extract_lets w
      have hw : Keeps s w.2 := h1.trans (keeps_makeWay ..)
      split
      · exact hw.trans (hp _ _)
      · exact hw.trans (keeps_tileWait ..)
      · exact hw.trans (keeps_fail ..)
  split
  · exact keeps_fail ..
  · split
    · exact keeps_fail ..
    · exact keeps_fail ..
    · exact (keeps_touchTile ..).trans ((keeps_updLayer ..).trans ((keeps_tileDirty ..).trans (keeps_ok ..)))
    · exact hf _
    · exact (keeps_demandTile ..).trans (keeps_tileWait ..)
    · split
      · exact hf _
      · exact keeps_tileWait ..

theorem keeps_execBoardTileWrite (d : Desc) (s : State) : ∃ u, execBoardTileWrite d s = .next u ∧ Keeps s u := by
  unfold execBoardTileWrite
  exact ⟨_, rfl, (keeps_runObj (h_body := (fun _ => (fun _ => (keeps_bodyTileWrite ..)))) ..)⟩

theorem keeps_retryTileOps (i : Nat) (s : State)  : Keeps s (retryTileOps i s) := by
  unfold retryTileOps
  exact (Keeps.after (keeps_foldl (fun _ _ => (by (try extract_lets); split; exact (Keeps.refl _); exact (keeps_ite (keeps_bodyTileRead ..) (keeps_bodyTileWrite ..)))) _ _) (keeps_updLayer ..))

theorem keeps_rescue (o : Obj) (w : WriteBack) (s : State)  : Keeps s (rescue o w s) := by
  unfold rescue
  exact (keeps_updLayer ..)

theorem keeps_bodyTileAddr (d : Desc) (o : Obj) (s : State)  : Keeps s (bodyTileAddr d o s) := by
  unfold bodyTileAddr
  exact (keeps_ite (keeps_fail ..) (keeps_ite (keeps_fail ..) (keeps_ite (keeps_fail ..) (keeps_ite (keeps_fail ..) (Keeps.after (keeps_ok ..) (by (try extract_lets); split; exact (keeps_ite (Keeps.after (keeps_unfetch ..) (by (try extract_lets); split; exact (keeps_ite (Keeps.after (keeps_updLayer ..) (keeps_dirWrite ..)) (Keeps.after (keeps_rescue ..) (Keeps.after (keeps_updLayer ..) (keeps_dirWrite ..)))); exact (Keeps.after (keeps_updLayer ..) (keeps_dirWrite ..)))) (by (try extract_lets); split; exact (keeps_ite (Keeps.after (keeps_updLayer ..) (keeps_dirWrite ..)) (Keeps.after (keeps_rescue ..) (Keeps.after (keeps_updLayer ..) (keeps_dirWrite ..)))); exact (Keeps.after (keeps_updLayer ..) (keeps_dirWrite ..)))); exact (keeps_ite (Keeps.after (keeps_updLayer ..) (by (try extract_lets); split; exact (keeps_ite (Keeps.after (keeps_updLayer ..) (keeps_dirWrite ..)) (Keeps.after (keeps_rescue ..) (Keeps.after (keeps_updLayer ..) (keeps_dirWrite ..)))); exact (Keeps.after (keeps_updLayer ..) (keeps_dirWrite ..)))) (Keeps.after (keeps_ite (Keeps.after (keeps_startWb ..) (keeps_updLayer ..)) (keeps_ite (keeps_tileDirty ..) (Keeps.refl _))) (Keeps.after (keeps_updLayer ..) (by (try extract_lets); split; exact (keeps_ite (Keeps.after (keeps_updLayer ..) (keeps_dirWrite ..)) (Keeps.after (keeps_rescue ..) (Keeps.after (keeps_updLayer ..) (keeps_dirWrite ..)))); exact (Keeps.after (keeps_updLayer ..) (keeps_dirWrite ..))))))))))))

theorem keeps_execBoardTileAddr (d : Desc) (s : State) : ∃ u, execBoardTileAddr d s = .next u ∧ Keeps s u := by
  unfold execBoardTileAddr
  exact ⟨_, rfl, (keeps_runObj (h_body := (fun _ => (fun _ => (keeps_bodyTileAddr ..)))) ..)⟩

theorem keeps_bodyInvalidate (d : Desc) (o : Obj) (s : State)  : Keeps s (bodyInvalidate d o s) := by
  unfold bodyInvalidate
  exact (keeps_ite (keeps_fail ..) (Keeps.after (keeps_ok ..) (Keeps.after (keeps_updLayer ..) (keeps_foldl (fun _ _ => (keeps_evict ..)) _ _))))

theorem keeps_execBoardInvalidate (d : Desc) (s : State) : ∃ u, execBoardInvalidate d s = .next u ∧ Keeps s u := by
  unfold execBoardInvalidate
  exact ⟨_, rfl, (keeps_runObj (h_body := (fun _ => (fun _ => (keeps_bodyInvalidate ..)))) ..)⟩

theorem keeps_bodyBoardQuery (d : Desc) (o : Obj) (s : State) : Keeps s (bodyBoardQuery d o s) := by
  unfold bodyBoardQuery
  extract_lets b rec16 x n s1 late s2 r miss fl
  have h2 : Keeps s s2 := (keeps_visitFrame ..).trans ((keeps_visits ..).trans (keeps_overload ..))
  have hr : Keeps s r.2 := by
    unfold r; split
    · dsimp only; exact h2.trans (keeps_updLayer ..)
    · exact h2.trans (keeps_foldlP (fun r q => keeps_countSquare o.idx r q) x.2.1 ({}, s2))
  split
  · exact keeps_fail ..
  · exact hr.trans (keeps_okWith ..)

theorem keeps_execBoardQuery (d : Desc) (s : State) : ∃ u, execBoardQuery d s = .next u ∧ Keeps s u := by
  unfold execBoardQuery
  exact ⟨_, rfl, (keeps_runObj (h_body := (fun _ => (fun _ => (keeps_bodyBoardQuery ..)))) ..)⟩

theorem keeps_bodyBoardFlush (d : Desc) (o : Obj) (s : State)  : Keeps s (bodyBoardFlush d o s) := by
  unfold bodyBoardFlush
  exact (keeps_ite (keeps_fail ..) (keeps_ite (keeps_fail ..) (Keeps.after (keeps_defer ..) (Keeps.after (keeps_updLayer ..) keeps_mk))))

theorem keeps_execBoardFlush (d : Desc) (s : State) : ∃ u, execBoardFlush d s = .next u ∧ Keeps s u := by
  unfold execBoardFlush
  exact ⟨_, rfl, (keeps_runObj (h_body := (fun _ => (fun _ => (keeps_bodyBoardFlush ..)))) ..)⟩

theorem keeps_flushStart (i : Nat) (f : Flush) (s : State)  : Keeps s (flushStart i f s) := by
  unfold flushStart
  exact (by (try extract_lets); split; exact (Keeps.refl _); exact (keeps_ite (keeps_updLayer ..) (Keeps.after (keeps_ite (Keeps.refl _) (keeps_foldl (fun _ _ => (keeps_startWb ..)) _ _)) (keeps_updLayer ..))))

theorem keeps_boardBoundary (s : State)  : Keeps s (boardBoundary s) := by
  unfold boardBoundary
  exact (keeps_foldl (fun _ _ => (keeps_foldl (fun _ _ => (keeps_flushStart ..)) _ _)) _ _)

theorem keeps_flushEnd (o : Obj) (f : Flush) (status : Nat) (s : State)  : Keeps s (flushEnd o f status s) := by
  unfold flushEnd
  exact (by (try extract_lets); split; exact (keeps_updLayer ..); exact (Keeps.after (keeps_completeDeferred ..) (keeps_updLayer ..)))

theorem keeps_execBoardFlushDone (h : Nat) (s : State) : ∃ u, execBoardFlushDone h s = .next u ∧ Keeps s u := by
  unfold execBoardFlushDone
  exact ⟨_, rfl, (by (try extract_lets); split; exact (Keeps.refl _); exact (by (try extract_lets); split; exact (Keeps.refl _); exact (keeps_flushEnd ..)))⟩

theorem keeps_execBoardFlushTimeout (h : Nat) (s : State) : ∃ u, execBoardFlushTimeout h s = .next u ∧ Keeps s u := by
  unfold execBoardFlushTimeout
  exact ⟨_, rfl, (by (try extract_lets); split; exact (Keeps.refl _); exact (by (try extract_lets); split; exact (Keeps.refl _); exact (Keeps.after (keeps_flushEnd ..) (keeps_toInstant ..))))⟩

theorem keeps_wbFail (o : Obj) (w : WriteBack) (s : State)  : Keeps s (wbFail o w s) := by
  unfold wbFail
  exact (Keeps.after (keeps_limitPins ..) (Keeps.after (keeps_hostFault ..) (Keeps.after (keeps_updLayer ..) (Keeps.after (keeps_ite (keeps_rescue
      ..) (Keeps.refl _)) (Keeps.after (keeps_updLayer ..) (keeps_updLayer ..))))))

theorem keeps_wbDone (o : Obj) (w : WriteBack) (s : State) : Keeps s (wbDone o w s) := by
  unfold wbDone
  extract_lets k e blank
  split
  · exact Keeps.refl s
  · cases h : ptrWrite (entryAddr e) (tileImage o w.tile) s with
    | none => exact keeps_wbFail ..
    | some t =>
      dsimp only
      refine Keeps.trans ?_ (keeps_updLayer ..)
      exact (keeps_ptrWrite h).trans (keeps_ite ((keeps_dirWrite ..).trans (keeps_updLayer ..)) (Keeps.refl _))

theorem keeps_execTileWritebackDone (h tx ty : Nat) (s : State) : ∃ u, execTileWritebackDone h tx ty s = .next u ∧ Keeps s u := by
  refine ⟨_, rfl, ?_⟩
  split
  · exact Keeps.refl s
  · split
    · exact Keeps.refl s
    · exact (keeps_wbDone ..).trans ((keeps_paintAll ..).trans (keeps_retryTileOps ..))

theorem keeps_execTileFlushTimer (h tx ty : Nat) (s : State) : ∃ u, execTileFlushTimer h tx ty s = .next u ∧ Keeps s u := by
  unfold execTileFlushTimer
  exact ⟨_, rfl, (by (try extract_lets); split; exact (Keeps.refl _); exact (by (try extract_lets); split; exact (Keeps.refl _); exact (keeps_ite (Keeps.after (keeps_startWb ..) (keeps_toInstant ..)) (Keeps.refl _))))⟩

theorem keeps_groupDone (o : Obj) (g : Nat) (bs : List Byte) (s : State)  : Keeps s (groupDone o g bs s) := by
  unfold groupDone
  exact (Keeps.after (keeps_foldl (fun _ _ => (keeps_ite (Keeps.refl _) (keeps_raise0 ..))) _ _) (keeps_updLayer ..))

theorem keeps_dropMarksFor (o : Obj) (p : Nat × Nat → Bool) (s : State)  : Keeps s (dropMarksFor o p s) := by
  unfold dropMarksFor
  exact (Keeps.after (keeps_foldl (fun _ _ => (Keeps.after (keeps_recTaken ..) (keeps_marksLost ..))) _ _) keeps_mk)

theorem keeps_readFail (o : Obj) (f : Fetch) (s : State)  : Keeps s (readFail o f s) := by
  unfold readFail
  exact (Keeps.after (keeps_hostFault ..) (Keeps.after (keeps_ite (keeps_dropMarksFor ..) (Keeps.refl _)) (keeps_updLayer ..)))

theorem keeps_fetchDone (o : Obj) (f : Fetch) (data : List Byte) (s : State)  : Keeps s (fetchDone o f data s) := by
  unfold fetchDone
  exact (keeps_ite (by (try extract_lets); split; exact (keeps_readFail ..); exact (Keeps.after (keeps_groupDone ..) (keeps_updLayer ..))) (by (try extract_lets); split; exact (keeps_updLayer ..); exact (keeps_ite (keeps_updLayer ..) (by (try extract_lets); split; exact (keeps_readFail ..); exact (Keeps.after (keeps_putTile ..) (Keeps.after (keeps_updLayer ..) (keeps_updLayer ..)))))))

theorem keeps_execTileFetchDone (h : Nat) (group : Bool) (tx ty : Nat) (data : List Byte) (s : State) : ∃ u, execTileFetchDone h group tx ty data s =
    .next u ∧ Keeps s u := by
  unfold execTileFetchDone
  exact ⟨_, rfl, (by (try extract_lets); split; exact (Keeps.refl _); exact (by (try extract_lets); split; exact (Keeps.refl _); exact (keeps_ite (Keeps.refl _) (Keeps.after (keeps_retryTileOps ..) (Keeps.after (keeps_paintAll ..) (keeps_fetchDone ..))))))⟩

theorem keeps_execBoardHostAccessFail (h kind tx ty : Nat) (s : State) : ∃ u, execBoardHostAccessFail h kind tx ty s = .next u ∧ Keeps s u := by
  unfold execBoardHostAccessFail
  exact ⟨_, rfl, (by (try extract_lets); split; exact (Keeps.refl _); exact (keeps_ite (by (try extract_lets); split; exact (Keeps.refl _); exact (keeps_ite (Keeps.refl _) (keeps_readFail ..))) (keeps_ite (by (try extract_lets); split; exact (Keeps.refl _); exact (keeps_ite (Keeps.refl _) (keeps_wbFail ..))) (keeps_hostFault ..))))⟩

theorem keeps_execTileHoldoutRetry (h : Nat) (group : Bool) (tx ty : Nat) (s : State) : ∃ u, execTileHoldoutRetry h group tx ty s = .next u ∧ Keeps s
    u := by
  unfold execTileHoldoutRetry
  exact ⟨_, rfl, (by (try extract_lets); split; exact (Keeps.refl _); exact (by (try extract_lets); split; exact (Keeps.refl _); exact (keeps_ite (Keeps.refl _) (Keeps.after (keeps_ite2 (keeps_askFetch ..) (keeps_askFetch ..)) (Keeps.after (keeps_updLayer ..) (keeps_toInstant ..))))))⟩

theorem keeps_execWritebackRetry (h tx ty : Nat) (s : State) : ∃ u, execWritebackRetry h tx ty s = .next u ∧ Keeps s u := by
  unfold execWritebackRetry
  exact ⟨_, rfl, (by (try extract_lets); split; exact (Keeps.refl _); exact (by (try extract_lets); split; exact (Keeps.refl _); exact (keeps_ite (Keeps.after (keeps_startWb ..) (keeps_toInstant ..)) (Keeps.refl _))))⟩

theorem keeps_execBoardDegradedEnd (h : Nat) (s : State) : ∃ u, execBoardDegradedEnd h s = .next u ∧ Keeps s u := by
  unfold execBoardDegradedEnd
  exact ⟨_, rfl, (by (try extract_lets); split; exact (Keeps.refl _); exact (keeps_ite (Keeps.refl _) (Keeps.after (keeps_raise0 ..) (Keeps.after (keeps_updLayer ..) (keeps_toInstant ..)))))⟩

theorem keeps_prefetchTile (i : Nat) (s : State) (t : Nat × Nat)  : Keeps s (prefetchTile i s t) := by
  unfold prefetchTile
  exact (by (try extract_lets); split; exact (Keeps.refl _); exact (by (try extract_lets); split; exact (keeps_ite (keeps_askFetch ..) (Keeps.after (keeps_raiseLimited ..) (Keeps.after (keeps_updLayer ..) (keeps_askFetch ..)))); exact (Keeps.refl _)))

theorem keeps_execPrefetchCorridor (t : Nat) (s : State) : ∃ u, execPrefetchCorridor t s = .next u ∧ Keeps s u := by
  unfold execPrefetchCorridor
  exact ⟨_, rfl, (Keeps.after (keeps_foldl (fun _ _ => (Keeps.after (keeps_foldl (fun _ _ => (keeps_prefetchTile ..)) _ _) (keeps_updLayer ..))) _ _)
      (keeps_toInstant ..))⟩

theorem keeps_execMarkRecordArrival (pos : Nat) (query : Bool) (rec : List Byte) (s : State) : ∃ u, execMarkRecordArrival pos query rec s = .next u ∧
    Keeps s u := by
  unfold execMarkRecordArrival
  exact ⟨_, rfl, (keeps_ite keeps_mk (keeps_queueMark ..))⟩

theorem keeps_execBoardWindow (s : State) : ∃ u, execBoardWindow s = .next u ∧ Keeps s u := by
  unfold execBoardWindow
  exact ⟨_, rfl, (Keeps.after (keeps_overload ..) (Keeps.after (keeps_queryLoop ..) (Keeps.after keeps_mk (Keeps.after (keeps_foldl (fun _ _ =>
      (Keeps.after (keeps_retryTileOps ..) (keeps_paintAll ..))) _ _) (Keeps.after (keeps_markLoop ..) (Keeps.after (keeps_foldl (fun _ _ =>
      (Keeps.after (keeps_retryTileOps ..) (keeps_paintAll ..))) _ _) (Keeps.after (keeps_visitFrame ..) (keeps_toInstant ..))))))))⟩

theorem keeps_execLateQuery (pos : Nat) (rec : List Byte) (s : State) : ∃ u, execLateQuery pos rec s = .next u ∧ Keeps s u := by
  unfold execLateQuery
  exact ⟨_, rfl, (Keeps.after (keeps_sendAnswer ..) (Keeps.after (keeps_answerOf ..) keeps_mk))⟩

theorem keeps_execAnswerReceive (rec : List Byte) (s : State) : ∃ u, execAnswerReceive rec s = .next u ∧ Keeps s u := by
  unfold execAnswerReceive
  exact ⟨_, rfl, (keeps_takeAnswer ..)⟩

end Sys2Proof.Machine
end

