-- ==== Sys2Proof/Laws/KeepsSections.lean ====
section
/-! SUPPORT. `Keeps` for every operation and meaning: predictors, decisions, security, the scheduler, ISOBUS. Each meaning answers a next state. -/

namespace Sys2Proof.Machine

/-! ## Predictor -/

theorem keeps_chSettle (o : Obj) (p : F32) (s : State) : Keeps s (chSettle o p s).2 := by
  unfold chSettle
  exact (keeps_ite2 (Keeps.refl _) (keeps_curveAt ..))

theorem keeps_chLead (o : Obj) (on : Bool) (s : State) : Keeps s (chLead o on s).2 := by
  unfold chLead
  exact (keeps_ite2 (Keeps.after (keeps_raiseLimited ..) (keeps_ite2 (keeps_chSettle ..) (Keeps.refl _))) (keeps_ite2 (keeps_chSettle ..) (Keeps.refl
      _)))

theorem keeps_chPush (o : Obj) (e : Edge) (s : State) : Keeps s (chPush o e s).2 := by
  unfold chPush
  extract_lets r put full e'
  have hp : ∀ x, Keeps s (put x).2 := fun x => by unfold put; dsimp only; exact keeps_updChan ..
  have hf : Keeps s full.2 := by unfold full; dsimp only; exact keeps_raiseLimited ..
  split
  · exact Keeps.refl s
  · split
    · exact hp _
    · split
      · exact hf
      · split
        · exact hf
        · extract_lets w
          split
          · exact hp _
          · exact hf

theorem keeps_chDrive (o : Obj) (on : Bool) (s : State)  : Keeps s (chDrive o on s) := by
  unfold chDrive
  exact (keeps_ite (keeps_chOff ..) (by (try extract_lets); split; exact (Keeps.after (keeps_axTakeTarget ..) (keeps_updChan ..)); exact (Keeps.after (keeps_gateOpen ..) (keeps_updChan ..))))

theorem keeps_chFire (o : Obj) (e : Edge) (t : Nat) (late : Bool) (dist : Nat) (s : State)  : Keeps s (chFire o e t late dist s) := by
  unfold chFire
  exact (by (try extract_lets); split; exact (keeps_chReason ..); exact (Keeps.after (keeps_ite (keeps_updChan ..) (Keeps.after (keeps_edgeReport ..) (keeps_updChan ..))) (Keeps.after (keeps_ite (keeps_flowMark ..) (Keeps.refl _)) (Keeps.after (keeps_updChan ..) (Keeps.after (keeps_chDrive ..) (keeps_chReason ..))))))

theorem keeps_preRun (o : Obj) (s : State)  : Keeps s (preRun o s) := by
  unfold preRun
  exact (by (try extract_lets); split; exact (Keeps.refl _); exact (Keeps.after (keeps_updChan ..) (keeps_axTakeTarget ..)))

theorem keeps_preStop (o : Obj) (e : Edge) (s : State)  : Keeps s (preStop o e s) := by
  unfold preStop
  exact (keeps_ite (by (try extract_lets); split; exact (Keeps.after (keeps_axTakeTarget ..) (keeps_updChan ..)); exact (Keeps.refl _)) (Keeps.refl _))

theorem keeps_edgeDrop (o : Obj) (e : Edge) (k : EdgeEnd) (dist : Nat) (s : State)  : Keeps s (edgeDrop o e k dist s) := by
  unfold edgeDrop
  exact (Keeps.after (keeps_edgeReport ..) (keeps_preStop ..))

theorem keeps_preJudge (o p : Obj) (e : Edge) (s : State) : Keeps s (preJudge o p e s).2 := by
  unfold preJudge
  exact (keeps_ite2 (Keeps.refl _) (keeps_ite2 (Keeps.refl _) (keeps_ite2 (keeps_preRun ..) (Keeps.refl _))))

theorem keeps_lateEvent (o : Obj) (late on : Bool) (dist : Nat) (s : State)  : Keeps s (lateEvent o late on dist s) := by
  unfold lateEvent
  exact (Keeps.after (keeps_raiseLimited ..) (keeps_updChan ..))

theorem keeps_judgeQueue (o p : Obj) (b : Nat) : ∀ (q kept : List Edge) (s : State), Keeps s (judgeQueue o p b q kept s).2
  | [], _, s => Keeps.refl s
  | e :: rest, kept, s => by
    have ih := keeps_judgeQueue o p b rest
    unfold judgeQueue
    extract_lets r x state loads s1 pj e' s2 dir d dist armed fire la s3 s4
    have h1 : Keeps s s1 := by
      unfold s1; split
      · exact keeps_edgeDrop ..
      · exact Keeps.refl s
    have h2 : Keeps s s2 := keeps_preJudge ..
    have h3 : Keeps s s3 := h2.trans (keeps_lateEvent ..)
    have h4 : Keeps s s4 := h2.trans (keeps_lateEvent ..)
    have hf : ∀ late t, Keeps t (fire late t).2 := by
      intro late t
      unfold fire
      split
      · exact (keeps_chFire ..).trans (ih _ _)
      · exact ih _ _
    split
    · exact (h1.trans (keeps_edgeDrop ..)).trans (ih _ _)
    · split
      · exact (keeps_edgeDrop ..).trans (ih _ _)
      · split
        · exact h2.trans (ih _ _)
        · split
          · exact h2.trans (hf _ _)
          · split
            · exact h2.trans (ih _ _)
            · split
              · split
                · exact h3.trans ((keeps_edgeDrop ..).trans (ih _ _))
                · exact h3.trans (hf _ _)
              · split
                · exact h4.trans (ih _ _)
                · exact h4.trans ((keeps_edgeDrop ..).trans (ih _ _))

theorem keeps_chBoundary (b : Nat) (o : Obj) (s : State)  : Keeps s (chBoundary b o s) := by
  unfold chBoundary
  exact (by (try extract_lets); split; exact (Keeps.refl _); exact (Keeps.after (keeps_updChan ..) (Keeps.after (keeps_judgeQueue ..) (keeps_updChan ..))))

theorem keeps_execPredictorFire (h lag : Nat) (s : State) : ∃ u, execPredictorFire h lag s = .next u ∧ Keeps s u := by
  unfold execPredictorFire
  exact ⟨_, rfl, (by (try extract_lets); split; exact (Keeps.refl _); exact (by (try extract_lets); split; exact (keeps_ite (Keeps.refl _) (by (try extract_lets); split; exact (Keeps.refl _); exact (Keeps.after (keeps_chFire ..) (Keeps.after (keeps_updChan ..) (keeps_toInstant ..))))); exact (Keeps.refl _)))⟩

theorem keeps_execPrechargeFire (h lag : Nat) (s : State) : ∃ u, execPrechargeFire h lag s = .next u ∧ Keeps s u := by
  unfold execPrechargeFire
  exact ⟨_, rfl, (by (try extract_lets); split; exact (Keeps.refl _); exact (by (try extract_lets); split; exact (keeps_ite (Keeps.refl _) (by (try extract_lets); split; exact (Keeps.refl _); exact (Keeps.after (keeps_preRun ..) (Keeps.after (keeps_updChan ..) (keeps_toInstant ..))))); exact (Keeps.refl _)))⟩

theorem keeps_execLatencyWindowClose (h vbat t0 : Nat) (codes : List Code) (s : State) : ∃ u, execLatencyWindowClose h vbat t0 codes s = .next u ∧
    Keeps s u := by
  unfold execLatencyWindowClose
  exact ⟨_, rfl, (by (try extract_lets); split; exact (Keeps.refl _); exact (by (try extract_lets); split; exact (Keeps.refl _); exact (Keeps.after (keeps_edgeReport ..) (Keeps.after (keeps_updChan ..) (keeps_toInstant ..)))))⟩

theorem keeps_execSchedLatencyShift (h : Nat) (s : State) : ∃ u, execSchedLatencyShift h s = .next u ∧ Keeps s u := by
  unfold execSchedLatencyShift
  exact ⟨_, rfl, (by (try extract_lets); split; exact (Keeps.refl _); exact (by (try extract_lets); split; exact (Keeps.after (keeps_raiseE ..) (keeps_updChan ..)); exact (Keeps.after (keeps_raiseE ..) (keeps_updChan ..)); exact (Keeps.refl _)))⟩

theorem keeps_execSchedValveStuck (h : Nat) (s : State) : ∃ u, execSchedValveStuck h s = .next u ∧ Keeps s u := by
  unfold execSchedValveStuck
  exact ⟨_, rfl, (by (try extract_lets); split; exact (Keeps.refl _); exact (keeps_ite (Keeps.after (keeps_class1 ..) (keeps_updChan ..)) (Keeps.refl _)))⟩

/-! ## Decisions -/

theorem keeps_nozzleDuty (o : Obj) (flow p : F32) (s : State) : Keeps s (nozzleDuty o flow p s).2.2 := by
  unfold nozzleDuty
  extract_lets n h out y s1 k
  have h1 : Keeps s s1 := keeps_foldl (fun _ _ => keeps_curveAt ..) _ _
  split
  · exact h1
  · exact h1

theorem keeps_chOutputRun (o p : Obj) (s : State)  : Keeps s (chOutputRun o p s) := by
  unfold chOutputRun
  exact (keeps_ite (by (try extract_lets); split; exact (keeps_ite (Keeps.after (keeps_updAx ..) (Keeps.after (keeps_updChan ..) (Keeps.after (keeps_updChan ..) (keeps_ite (keeps_raiseE ..) (Keeps.refl _))))) (Keeps.after (keeps_updChan ..) (Keeps.after (keeps_updChan ..) (keeps_ite (keeps_raiseE ..) (Keeps.refl _))))); exact (Keeps.after (keeps_updChan ..) (Keeps.after (keeps_updChan ..) (keeps_ite (keeps_raiseE ..) (Keeps.refl _))))) (keeps_ite (Keeps.after (keeps_writeDuty ..) (Keeps.after (keeps_ite (keeps_raiseLimited ..) (Keeps.refl _)) (Keeps.after (keeps_updChan ..) (Keeps.after (keeps_nozzleDuty ..) (Keeps.after (keeps_updChan ..) (keeps_ite (keeps_raiseE ..) (Keeps.refl _))))))) (Keeps.after (keeps_updChan ..) (Keeps.after (keeps_updChan ..) (keeps_ite (keeps_raiseE ..) (Keeps.refl _))))))

theorem keeps_sendRecord (query : Bool) (rec : List Byte) (s : State)  : Keeps s (sendRecord query rec s) := by
  unfold sendRecord
  exact (keeps_ite keeps_mk (keeps_ite keeps_mk (keeps_queueMark ..)))

theorem keeps_markSend (o : Obj) (flags : Nat) (g : GeoPt) (s : State)  : Keeps s (markSend o flags g s) := by
  unfold markSend
  exact (Keeps.after (keeps_sendRecord ..) (keeps_updChan ..))

theorem keeps_marksRun (o : Obj) (b : Nat) : ∀ (n : Nat) (s : State), Keeps s (marksRun o b n s)
  | 0, s => Keeps.refl s
  | n + 1, s => by
    unfold marksRun
    extract_lets r
    split
    · extract_lets s1
      have h1 : Keeps s s1 := keeps_updChan ..
      refine h1.trans (Keeps.trans ?_ (keeps_marksRun o b n _))
      split
      · exact Keeps.refl _
      · exact keeps_markSend ..
    · split
      · exact keeps_markSend ..
      · exact Keeps.refl s

theorem keeps_flowsPast (i b : Nat) (s : State)  : Keeps s (flowsPast i b s) := by
  unfold flowsPast
  exact (keeps_updChan ..)

theorem keeps_querySend (o p : Obj) (b : Nat) (lead : Int) (s : State)  : Keeps s (querySend o p b lead s) := by
  unfold querySend
  exact (Keeps.after (keeps_sendRecord ..) (keeps_updChan ..))

theorem keeps_farInForce (b : Nat) (s : State)  : Keeps s (farInForce b s) := by
  unfold farInForce
  exact keeps_mk

theorem keeps_answersInForce (b : Nat) (s : State) : Keeps s (answersInForce b s) := by
  unfold answersInForce
  refine (keeps_farInForce ..).trans (keeps_foldl (fun s o => ?_) _ _)
  extract_lets due s1
  have h1 : Keeps s s1 := by
    unfold s1; split
    · split
      · exact Keeps.refl s
      · split
        · exact keeps_updChan ..
        · split
          · exact (keeps_answerOf ..).trans (keeps_updChan ..)
          · exact keeps_updChan ..
    · exact Keeps.refl s
  split
  · split
    · exact h1.trans (keeps_updChan ..)
    · exact h1
  · exact h1

theorem keeps_chDecide (o p : Obj) (b : Nat) (s : State)  : Keeps s (chDecide o p b s) := by
  unfold chDecide
  exact (by (try extract_lets); split; exact (keeps_ite (Keeps.refl _) (keeps_ite (keeps_updChan ..) (by (try extract_lets); split; exact (keeps_updChan ..); exact (keeps_ite (keeps_updChan ..) (by (try extract_lets); split; exact (keeps_updChan ..); exact (Keeps.after (keeps_chPush ..) (Keeps.after (keeps_updSec ..) (keeps_updChan ..)))))))); exact (Keeps.refl _))

theorem keeps_chJob (tk i : Nat) (s : State) : Keeps s (chJob tk i s) := by
  unfold chJob
  split
  · exact Keeps.refl s
  · split
    · exact Keeps.refl s
    · next p _ =>
      extract_lets s1
      have h1 : Keeps s s1 := keeps_updChan ..
      clear_value s1
      split
      · exact h1
      · next o1 _ =>
        extract_lets on off s2 b s3 s4
        have h3 : Keeps s s3 := h1.trans ((keeps_chLead ..).trans ((keeps_chLead ..).trans ((keeps_updChan ..).trans (keeps_chOutputRun ..))))
        have h4 : Keeps s s4 := by
          unfold s4; split
          · exact h3.trans (keeps_chDecide ..)
          · exact h3
        clear_value s4
        split
        · exact h4
        · next o4 _ =>
          extract_lets due s5 sec asks whole tq s6
          have h5 : Keeps s s5 := by
            unfold s5; split
            · exact h4
            · split
              · exact h4.trans (keeps_marksRun ..)
              · exact h4.trans (keeps_flowsPast ..)
          have h6 : Keeps s s6 := by
            unfold s6; split
            · exact h5.trans (keeps_querySend ..)
            · exact h5
          exact h6.trans (keeps_updChan ..)

theorem keeps_sendView (pos : Nat) (body : List Byte) (s : State)  : Keeps s (sendView pos body s) := by
  unfold sendView
  exact keeps_mk

theorem keeps_viewBoundary (s : State)  : Keeps s (viewBoundary s) := by
  unfold viewBoundary
  exact (keeps_ite (Keeps.refl _) (Keeps.after keeps_mk (Keeps.after (keeps_foldl (fun _ _ => (keeps_sendView ..)) _ _) (keeps_foldl (fun _ _ =>
      (keeps_sendView ..)) _ _))))

theorem keeps_chShut (o : Obj) (b : Nat) (s : State)  : Keeps s (chShut o b s) := by
  unfold chShut
  exact (Keeps.after (keeps_ite (keeps_chFire ..) (Keeps.refl _)) (keeps_chClear ..))

theorem keeps_viewReceive (v : List Byte) (s : State)  : Keeps s (viewReceive v s) := by
  unfold viewReceive
  exact (keeps_ite keeps_mk (by (try extract_lets); split; exact keeps_mk; exact (keeps_ite (Keeps.after (keeps_chShut ..) keeps_mk) keeps_mk)))

theorem keeps_chanReport (pos : Nat) (b : List Byte) (s : State)  : Keeps s (chanReport pos b s) := by
  unfold chanReport
  exact keeps_mk

theorem keeps_memberReports (b : Nat) (s : State)  : Keeps s (memberReports b s) := by
  unfold memberReports
  exact (keeps_ite (Keeps.refl _) (Keeps.after (keeps_ite (Keeps.refl _) (keeps_foldl (fun _ _ => keeps_mk) _ _)) (keeps_foldl (fun _ _ =>
      (Keeps.after (keeps_updChan ..) keeps_mk)) _ _)))

theorem keeps_secPump (i : Nat) (s : State)  : Keeps s (secPump i s) := by
  unfold secPump
  exact (by (try extract_lets); split; exact (Keeps.refl _); exact (by (try extract_lets); split; exact (Keeps.refl _); exact (keeps_ite (Keeps.refl _) (Keeps.after (keeps_updSec ..) keeps_mk))))

theorem keeps_secSend (i : Nat) (rec : List Byte) (s : State)  : Keeps s (secSend i rec s) := by
  unfold secSend
  exact (Keeps.after (keeps_secPump ..) (keeps_updSec ..))

theorem keeps_linkBoundary (b : Nat) (s : State)  : Keeps s (linkBoundary b s) := by
  unfold linkBoundary
  exact (Keeps.after (keeps_memberReports ..) (Keeps.after (keeps_foldl (fun _ _ => (keeps_secPump ..)) _ _) (keeps_viewBoundary ..)))

theorem keeps_deliverEdge (e : Edge) (m : Nat × Nat) (s : State)  : Keeps s (deliverEdge e m s) := by
  unfold deliverEdge
  exact (keeps_ite (by (try extract_lets); split; exact (by (try extract_lets); split; exact (keeps_secReport ..); exact (Keeps.refl _)); exact (keeps_ite (by (try extract_lets); split; exact (keeps_secReport ..); exact (Keeps.refl _)) (keeps_ite (keeps_chPush ..) (by (try extract_lets); split; exact (Keeps.after (keeps_secReport ..) (keeps_chPush ..)); exact (keeps_chPush ..))))) (keeps_ite (by (try extract_lets); split; exact (keeps_secReport ..); exact (Keeps.refl _)) (Keeps.refl _)))

theorem keeps_deliverAll (sec : Obj) (e : Edge) (query : Nat × Nat) (s : State)  : Keeps s (deliverAll sec e query s) := by
  unfold deliverAll
  exact (Keeps.after (keeps_ite (Keeps.refl _) (keeps_foldl (fun _ _ => (keeps_secSend ..)) _ _)) (keeps_foldl (fun _ _ => (keeps_deliverEdge ..)) _
      _))

theorem keeps_gateShut (sec : Obj) (b : Nat) (s : State)  : Keeps s (gateShut sec b s) := by
  unfold gateShut
  exact (keeps_foldl (fun _ _ => (keeps_chShut ..)) _ _)

theorem keeps_cancelQueues (hs : List Nat) (s : State) : Keeps s (cancelQueues hs s).2 := by
  unfold cancelQueues
  refine keeps_foldlP (fun a h => ?_) hs (0, s)
  split
  · exact Keeps.refl _
  · exact keeps_chClear ..

theorem keeps_memberEdge (h : Nat) (e : Edge) (s : State)  : Keeps s (memberEdge h e s) := by
  unfold memberEdge
  exact (keeps_foldl (fun _ _ => (by (try extract_lets); split; exact (Keeps.refl _); exact (keeps_ite (Keeps.refl _) (keeps_ite (keeps_edgeReport ..) (keeps_ite (keeps_chPush ..) (Keeps.after (keeps_edgeReport ..) (keeps_chPush ..))))))) _ _)

theorem keeps_execSectionRecordReceive (pos : Nat) (rec : List Byte) (s : State) : ∃ u, execSectionRecordReceive pos rec s = .next u ∧ Keeps s u := by
  unfold execSectionRecordReceive
  exact ⟨_, rfl, (keeps_ite (by (try extract_lets); split; exact (keeps_secReport ..); exact (Keeps.refl _)) (keeps_ite (by (try extract_lets); split; exact (Keeps.refl _); exact (keeps_updSec ..)) (keeps_ite (keeps_cancelReport ..) (keeps_ite (keeps_memberEdge ..) (keeps_ite keeps_mk (keeps_ite (keeps_memberEdge ..) (keeps_ite keeps_mk (keeps_ite (Keeps.after keeps_mk (keeps_cancelQueues ..)) (Keeps.refl _)))))))))⟩

theorem keeps_secWing (sec : Obj) (s : State)  : Keeps s (secWing sec s) := by
  unfold secWing
  exact (by (try extract_lets); split; exact (Keeps.refl _); exact (keeps_ite (Keeps.refl _) (Keeps.after (keeps_raiseE ..) (keeps_updSec ..))))

theorem keeps_secTq (sec : Obj) (s : State)  : Keeps s (secTq sec s) := by
  unfold secTq
  exact (keeps_ite (Keeps.refl _) (Keeps.after (keeps_ite (Keeps.refl _) (Keeps.after (keeps_secSend ..) (keeps_updSec ..))) (keeps_updSec ..)))

theorem keeps_secTimes (sec : Obj) (s : State)  : Keeps s (secTimes sec s) := by
  unfold secTimes
  exact (keeps_ite (Keeps.refl _) (keeps_updSec ..))

theorem keeps_secDecide (sec : Obj) (b : Nat) (s : State) : Keeps s (secDecide sec b s) := by
  unfold secDecide
  split
  · exact Keeps.refl s
  · extract_lets ms fs as sum total app exc s1 s2 s3 dec here
    split
    · exact Keeps.refl s
    · have h1 : Keeps s s1 := keeps_foldl (fun _ _ => keeps_updChan ..) _ _
      have h2 : Keeps s s2 := h1.trans (keeps_foldl (fun _ _ => keeps_updChanBd ..) _ _)
      have h3 : Keeps s s3 := h2.trans (keeps_updSec ..)
      have hd : ∀ fl q f, Keeps s (dec fl q f) := by
        intro fl q f
        unfold dec
        split
        · exact h3
        · split
          · exact h3
          · split
            · exact h3
            · split
              · exact h3
              · exact h3.trans ((keeps_updSec ..).trans (keeps_deliverAll ..))
      have hh : Keeps s (here.getD s3) := by
        unfold here
        cases newestAnswer ms with
        | none => exact h3
        | some x =>
          dsimp only [Option.bind]
          cases chPoint s3 x.1 with
          | none => exact h3
          | some p => exact hd _ _ _
      clear_value dec here
      split
      · split
        · exact hd _ _ _
        · exact hh
      · exact hd _ _ _
      · exact hh

theorem keeps_secJob (tk i : Nat) (s : State) : Keeps s (secJob tk i s) := by
  have on (f : Obj → State → State) (h : ∀ o s, Keeps s (f o s)) (s : State) : Keeps s (match objAt s i with | some o => f o s | none => s) := by
    split
    · exact h _ _
    · exact Keeps.refl s
  unfold secJob
  exact Keeps.after (on (fun o s => secDecide o (nextBoundary tk) s) (fun _ _ => keeps_secDecide ..) _)
    (Keeps.after (on secTq (fun _ _ => keeps_secTq ..) _) (Keeps.after (on secTimes (fun _ _ => keeps_secTimes ..) _)
      (on secWing (fun _ _ => keeps_secWing ..) s)))

theorem keeps_secBoundary (b : Nat) (sec : Obj) (s : State) : Keeps s (secBoundary b sec s) := by
  unfold secBoundary
  extract_lets r s1
  have h1 : Keeps s s1 := by
    unfold s1; split
    · exact Keeps.refl s
    · exact (keeps_updObj _ (by intro _; rfl) _).trans (keeps_updSec ..)
  split
  · exact h1
  · exact h1.trans (Keeps.trans (keeps_updSec ..) (keeps_ite (keeps_gateShut ..) (Keeps.refl _)))

theorem keeps_tcSetpoint (sec : Obj) (on : Bool) (t : Nat) (s : State)  : Keeps s (tcSetpoint sec on t s) := by
  unfold tcSetpoint
  exact (Keeps.after (keeps_deliverAll ..) (keeps_updSec ..))

theorem keeps_rowSeed (t : Nat) (o : Obj) (s : State)  : Keeps s (rowSeed t o s) := by
  unfold rowSeed
  exact (by (try extract_lets); split; exact (Keeps.refl _); exact (keeps_updChan ..))

theorem keeps_seedPulse (fb t : Nat) (s : State)  : Keeps s (seedPulse fb t s) := by
  unfold seedPulse
  exact (keeps_foldl (fun _ _ => (keeps_rowSeed ..)) _ _)

theorem keeps_execRowNoSeedTimeout (h : Nat) (s : State) : ∃ u, execRowNoSeedTimeout h s = .next u ∧ Keeps s u := by
  unfold execRowNoSeedTimeout
  exact ⟨_, rfl, (by (try extract_lets); split; exact (Keeps.refl _); exact (by (try extract_lets); split; exact (Keeps.refl _); exact (keeps_ite (Keeps.after (keeps_raiseLimited ..) (Keeps.after (keeps_updChan ..) (keeps_toInstant ..))) (Keeps.refl _))))⟩

/-! ## Security -/

theorem keeps_setFwSlot (b : Bool) (f : FwSlot → FwSlot) (s : State)  : Keeps s (setFwSlot b f s) := by
  unfold setFwSlot
  exact (keeps_ite keeps_mk keeps_mk)

theorem keeps_bodySecInfo (d : Desc) (s : State)  : Keeps s (bodySecInfo d s) := by
  unfold bodySecInfo
  exact (keeps_writeBack ..)

theorem keeps_execSecInfo (d : Desc) (s : State) : ∃ u, execSecInfo d s = .next u ∧ Keeps s u := by
  unfold execSecInfo
  exact ⟨_, rfl, (keeps_runDesc (h_body := (fun _ => (keeps_bodySecInfo ..))) ..)⟩

theorem keeps_takeNonce (s : State) : Keeps s (takeNonce s).2 := by
  unfold takeNonce
  exact (keeps_takeFree ..)

theorem keeps_bodySecChallenge (d : Desc) (s : State)  : Keeps s (bodySecChallenge d s) := by
  unfold bodySecChallenge
  exact (keeps_ite (keeps_fail ..) (keeps_ite (keeps_fail ..) (keeps_ite (keeps_fail ..) (keeps_ite (keeps_failWith ..) (keeps_ite (keeps_fail ..)
      (Keeps.after (keeps_writeBack ..) (Keeps.after keeps_mk (Keeps.after (keeps_takeFree ..) (keeps_takeNonce ..)))))))))

theorem keeps_execSecChallenge (d : Desc) (s : State) : ∃ u, execSecChallenge d s = .next u ∧ Keeps s u := by
  unfold execSecChallenge
  exact ⟨_, rfl, (keeps_runDesc (h_body := (fun _ => (keeps_bodySecChallenge ..))) ..)⟩

theorem keeps_bodySecOpen (d : Desc) (s : State)  : Keeps s (bodySecOpen d s) := by
  unfold bodySecOpen
  exact (keeps_ite (keeps_fail ..) (by (try extract_lets); split; exact (keeps_fail ..); exact (Keeps.after (keeps_ite (keeps_failWith ..) (keeps_ite (Keeps.after (keeps_fail ..) (keeps_authFail ..)) (keeps_ite (keeps_fail ..) (Keeps.after (keeps_raise0 ..) (Keeps.after (keeps_writeBack ..) (Keeps.after (keeps_updSlot ..) keeps_mk)))))) keeps_mk)))

theorem keeps_execSecOpen (d : Desc) (s : State) : ∃ u, execSecOpen d s = .next u ∧ Keeps s u := by
  unfold execSecOpen
  exact ⟨_, rfl, (keeps_runDesc (h_body := (fun _ => (keeps_bodySecOpen ..))) ..)⟩

theorem keeps_bodySecClose (d : Desc) (s : State)  : Keeps s (bodySecClose d s) := by
  unfold bodySecClose
  exact (keeps_ite (keeps_fail ..) (keeps_ite (keeps_okWith ..) (Keeps.after (keeps_okWith ..) (keeps_sessionClose ..))))

theorem keeps_execSecClose (d : Desc) (s : State) : ∃ u, execSecClose d s = .next u ∧ Keeps s u := by
  unfold execSecClose
  exact ⟨_, rfl, (keeps_runDesc (h_body := (fun _ => (keeps_bodySecClose ..))) ..)⟩

theorem keeps_fwCommitRun (d : Desc) (b : Bool) (s : State) : Keeps s (fwCommitRun d b s) := by
  unfold fwCommitRun
  split
  · exact keeps_fail ..
  · exact Keeps.after (keeps_okWith ..) (Keeps.after (keeps_raise0 ..) keeps_mk)

theorem keeps_poolPut (key : Nat) (b : List Byte) (s : State)  : Keeps s (poolPut key b s) := by
  unfold poolPut
  exact keeps_mk

theorem keeps_mramApply (d : Desc) (w : MramOp) (s : State)  : Keeps s (mramApply d w s) := by
  unfold mramApply
  exact (by (try extract_lets); split; exact (keeps_ite (keeps_fail ..) (Keeps.after (keeps_ok ..) (keeps_updSlot ..))); exact (Keeps.after (keeps_ok ..) keeps_mk); exact (Keeps.after (keeps_ok ..) (Keeps.after keeps_mk (keeps_setFwSlot ..))); exact (Keeps.after (keeps_ok ..) (keeps_setFwSlot ..)); exact (keeps_fwCommitRun ..); exact (keeps_ite (keeps_fail ..) (Keeps.after (keeps_ok ..) (keeps_poolPut ..))); exact (Keeps.after (keeps_ok ..) keeps_mk); exact (Keeps.after (keeps_ok ..) keeps_mk))

theorem keeps_mramWrite (d : Desc) (w : MramOp) (s : State)  : Keeps s (mramWrite d w s) := by
  unfold mramWrite
  exact (keeps_ite keeps_mk (keeps_mramApply ..))

theorem keeps_mramWaitRun (s : State)  : Keeps s (mramWaitRun s) := by
  unfold mramWaitRun
  exact (Keeps.after (keeps_foldl (fun _ _ => (keeps_mramApply ..)) _ _) keeps_mk)

theorem keeps_bodySecProvision (d : Desc) (s : State)  : Keeps s (bodySecProvision d s) := by
  unfold bodySecProvision
  exact (keeps_ite (keeps_fail ..) (keeps_ite (keeps_fail ..) (keeps_mramWrite ..)))

theorem keeps_execSecProvision (d : Desc) (s : State) : ∃ u, execSecProvision d s = .next u ∧ Keeps s u := by
  unfold execSecProvision
  exact ⟨_, rfl, (keeps_runDesc (h_body := (fun _ => (keeps_bodySecProvision ..))) ..)⟩

theorem keeps_bodySecKeyLoad (d : Desc) (s : State)  : Keeps s (bodySecKeyLoad d s) := by
  unfold bodySecKeyLoad
  exact (keeps_ite (keeps_fail ..) (keeps_ite (keeps_fail ..) (by (try extract_lets); split; exact (keeps_fail ..); exact (keeps_mramWrite ..))))

theorem keeps_execSecKeyLoad (d : Desc) (s : State) : ∃ u, execSecKeyLoad d s = .next u ∧ Keeps s u := by
  unfold execSecKeyLoad
  exact ⟨_, rfl, (keeps_runDesc (h_body := (fun _ => (keeps_bodySecKeyLoad ..))) ..)⟩

theorem keeps_bodySecKeyErase (d : Desc) (s : State)  : Keeps s (bodySecKeyErase d s) := by
  unfold bodySecKeyErase
  exact (keeps_ite (keeps_fail ..) (keeps_mramWrite ..))

theorem keeps_execSecKeyErase (d : Desc) (s : State) : ∃ u, execSecKeyErase d s = .next u ∧ Keeps s u := by
  unfold execSecKeyErase
  exact ⟨_, rfl, (keeps_runDesc (h_body := (fun _ => (keeps_bodySecKeyErase ..))) ..)⟩

theorem keeps_bodySecPolicy (d : Desc) (s : State)  : Keeps s (bodySecPolicy d s) := by
  unfold bodySecPolicy
  exact (keeps_ite (keeps_fail ..) (keeps_mramWrite ..))

theorem keeps_execSecPolicy (d : Desc) (s : State) : ∃ u, execSecPolicy d s = .next u ∧ Keeps s u := by
  unfold execSecPolicy
  exact ⟨_, rfl, (keeps_runDesc (h_body := (fun _ => (keeps_bodySecPolicy ..))) ..)⟩

theorem keeps_bodySecFwBegin (d : Desc) (s : State)  : Keeps s (bodySecFwBegin d s) := by
  unfold bodySecFwBegin
  exact (keeps_ite (keeps_fail ..) (keeps_ite (keeps_fail ..) (Keeps.after (keeps_mramWrite ..) keeps_mk)))

theorem keeps_execSecFwBegin (d : Desc) (s : State) : ∃ u, execSecFwBegin d s = .next u ∧ Keeps s u := by
  unfold execSecFwBegin
  exact ⟨_, rfl, (keeps_runDesc (h_body := (fun _ => (keeps_bodySecFwBegin ..))) ..)⟩

theorem keeps_bodySecFwWrite (d : Desc) (s : State)  : Keeps s (bodySecFwWrite d s) := by
  unfold bodySecFwWrite
  exact (by (try extract_lets); split; exact (keeps_fail ..); exact (keeps_ite (keeps_fail ..) (keeps_mramWrite ..)))

theorem keeps_execSecFwWrite (d : Desc) (s : State) : ∃ u, execSecFwWrite d s = .next u ∧ Keeps s u := by
  unfold execSecFwWrite
  exact ⟨_, rfl, (keeps_runDesc (h_body := (fun _ => (keeps_bodySecFwWrite ..))) ..)⟩

theorem keeps_bodySecFwCommit (d : Desc) (s : State)  : Keeps s (bodySecFwCommit d s) := by
  unfold bodySecFwCommit
  exact (by (try extract_lets); split; exact (keeps_fail ..); exact (keeps_mramWrite ..))

theorem keeps_execSecFwCommit (d : Desc) (s : State) : ∃ u, execSecFwCommit d s = .next u ∧ Keeps s u := by
  unfold execSecFwCommit
  exact ⟨_, rfl, (keeps_runDesc (h_body := (fun _ => (keeps_bodySecFwCommit ..))) ..)⟩

theorem keeps_bodySecDebugUnlock (d : Desc) (s : State)  : Keeps s (bodySecDebugUnlock d s) := by
  unfold bodySecDebugUnlock
  exact (keeps_ite (keeps_fail ..) (Keeps.after (keeps_ok ..) (Keeps.after (keeps_raise0 ..) keeps_mk)))

theorem keeps_execSecDebugUnlock (d : Desc) (s : State) : ∃ u, execSecDebugUnlock d s = .next u ∧ Keeps s u := by
  unfold execSecDebugUnlock
  exact ⟨_, rfl, (keeps_runDesc (h_body := (fun _ => (keeps_bodySecDebugUnlock ..))) ..)⟩

theorem keeps_keyLoadsDrop (s : State)  : Keeps s (keyLoadsDrop s) := by
  unfold keyLoadsDrop
  exact (Keeps.after (keeps_foldl (fun _ _ => (keeps_fail ..)) _ _) keeps_mk)

theorem keeps_zeroizeStart (cause : Nat) (s : State)  : Keeps s (zeroizeStart cause s) := by
  unfold zeroizeStart
  exact (keeps_ite (Keeps.refl _) (Keeps.after keeps_mk (Keeps.after (keeps_sessionsCloseAll ..) (Keeps.after (keeps_keyLoadsDrop ..) keeps_mk))))

theorem keeps_bodySecZeroize (d : Desc) (s : State)  : Keeps s (bodySecZeroize d s) := by
  unfold bodySecZeroize
  exact (Keeps.after (keeps_defer ..) (keeps_zeroizeStart ..))

theorem keeps_execSecZeroize (d : Desc) (s : State) : ∃ u, execSecZeroize d s = .next u ∧ Keeps s u := by
  unfold execSecZeroize
  exact ⟨_, rfl, (keeps_runDesc (h_body := (fun _ => (keeps_bodySecZeroize ..))) ..)⟩

theorem keeps_execZeroizePin (s : State) : ∃ u, execZeroizePin s = .next u ∧ Keeps s u := by
  unfold execZeroizePin
  exact ⟨_, rfl, (Keeps.after (keeps_zeroizeStart ..) keeps_mk)⟩

theorem keeps_execZeroizeNHigh (s : State) : ∃ u, execZeroizeNHigh s = .next u ∧ Keeps s u := by
  unfold execZeroizeNHigh
  exact ⟨_, rfl, keeps_mk⟩

theorem keeps_execZeroizeEraseDone (s : State) : ∃ u, execZeroizeEraseDone s = .next u ∧ Keeps s u := by
  unfold execZeroizeEraseDone
  exact ⟨_, rfl, (by (try extract_lets); split; exact (Keeps.refl _); exact (Keeps.after (keeps_finishDeferred ..) (Keeps.after (keeps_raisePlain ..) (Keeps.after (keeps_logWrite ..) keeps_mk))))⟩

/-! ## Scheduler -/

theorem keeps_takeCmd (s : State) : Keeps s (takeCmd s).2 := by
  unfold takeCmd
  exact keeps_mk

theorem keeps_bodyChannelCmd (d : Desc) (o : Obj) (s : State)  : Keeps s (bodyChannelCmd d o s) := by
  unfold bodyChannelCmd
  exact (keeps_ite (keeps_fail ..) (keeps_ite (keeps_fail ..) (keeps_ite (keeps_fail ..) (keeps_ite (keeps_fail ..) (by (try extract_lets); split; exact (keeps_okWith ..); exact (Keeps.after (keeps_failWith ..) (Keeps.after (keeps_chPush ..) (keeps_takeCmd ..))); exact (Keeps.after (keeps_defer ..) (Keeps.after (keeps_chPush ..) (keeps_takeCmd ..))))))))

theorem keeps_execSchedChannelCmd (d : Desc) (s : State) : ∃ u, execSchedChannelCmd d s = .next u ∧ Keeps s u := by
  unfold execSchedChannelCmd
  exact ⟨_, rfl, (keeps_runObj (h_body := (fun _ => (fun _ => (keeps_bodyChannelCmd ..)))) ..)⟩

theorem keeps_bodySectionCmd (d : Desc) (o : Obj) (s : State)  : Keeps s (bodySectionCmd d o s) := by
  unfold bodySectionCmd
  exact (keeps_ite (keeps_fail ..) (keeps_ite (keeps_fail ..) (keeps_ite (keeps_fail ..) (keeps_ite (keeps_fail ..) (keeps_ite (keeps_ok ..)
      (Keeps.after (keeps_deliverAll ..) (Keeps.after (keeps_defer ..) (Keeps.after keeps_mk (keeps_takeCmd ..)))))))))

theorem keeps_execSchedSectionCmd (d : Desc) (s : State) : ∃ u, execSchedSectionCmd d s = .next u ∧ Keeps s u := by
  unfold execSchedSectionCmd
  exact ⟨_, rfl, (keeps_runObj (h_body := (fun _ => (fun _ => (keeps_bodySectionCmd ..)))) ..)⟩

theorem keeps_bodySchedGate (d : Desc) (o : Obj) (s : State)  : Keeps s (bodySchedGate d o s) := by
  unfold bodySchedGate
  exact (keeps_ite (keeps_fail ..) (keeps_ite (keeps_fail ..) (keeps_ite (keeps_fail ..) (Keeps.after (keeps_ok ..) (keeps_updSec ..)))))

theorem keeps_execSchedGate (d : Desc) (s : State) : ∃ u, execSchedGate d s = .next u ∧ Keeps s u := by
  unfold execSchedGate
  exact ⟨_, rfl, (keeps_runObj (h_body := (fun _ => (fun _ => (keeps_bodySchedGate ..)))) ..)⟩

theorem keeps_bodySchedRate (d : Desc) (o : Obj) (s : State)  : Keeps s (bodySchedRate d o s) := by
  unfold bodySchedRate
  exact (keeps_ite (keeps_fail ..) (keeps_ite (keeps_fail ..) (keeps_ite (keeps_fail ..) (Keeps.after (keeps_ok ..) (keeps_updSec ..)))))

theorem keeps_execSchedRate (d : Desc) (s : State) : ∃ u, execSchedRate d s = .next u ∧ Keeps s u := by
  unfold execSchedRate
  exact ⟨_, rfl, (keeps_runObj (h_body := (fun _ => (fun _ => (keeps_bodySchedRate ..)))) ..)⟩

theorem keeps_bodySchedCancel (d : Desc) (o : Obj) (s : State)  : Keeps s (bodySchedCancel d o s) := by
  unfold bodySchedCancel
  exact (keeps_ite (keeps_fail ..) (Keeps.after (keeps_defer ..) (keeps_takeCmd ..)))

theorem keeps_execSchedCancel (d : Desc) (s : State) : ∃ u, execSchedCancel d s = .next u ∧ Keeps s u := by
  unfold execSchedCancel
  exact ⟨_, rfl, (keeps_runObj (h_body := (fun _ => (fun _ => (keeps_bodySchedCancel ..)))) ..)⟩

theorem keeps_cancelBoundary (b : Nat) (s : State) : Keeps s (cancelBoundary b s) := by
  unfold cancelBoundary
  refine keeps_foldl (fun s x => ?_) _ _
  extract_lets sec hs r far
  have hr : Keeps s r.2 := keeps_cancelQueues ..
  clear_value r far hs sec
  cases sec with
  | none => exact hr.trans (keeps_completeDeferred ..)
  | some o => cases far with
    | nil => exact hr.trans (keeps_completeDeferred ..)
    | cons p ps => exact hr.trans (Keeps.after (keeps_secSend ..) keeps_mk)

theorem keeps_bodyLatencySet (d : Desc) (o : Obj) (s : State)  : Keeps s (bodyLatencySet d o s) := by
  unfold bodyLatencySet
  exact (keeps_ite (keeps_fail ..) (keeps_ite (keeps_fail ..) (Keeps.after (keeps_ok ..) (keeps_updChan ..))))

theorem keeps_execSchedLatencySet (d : Desc) (s : State) : ∃ u, execSchedLatencySet d s = .next u ∧ Keeps s u := by
  unfold execSchedLatencySet
  exact ⟨_, rfl, (keeps_runObj (h_body := (fun _ => (fun _ => (keeps_bodyLatencySet ..)))) ..)⟩

theorem keeps_bodyLatencySave (d : Desc) (s : State)  : Keeps s (bodyLatencySave d s) := by
  unfold bodyLatencySave
  exact (Keeps.after (keeps_ite (keeps_ok ..) keeps_mk) (keeps_latSave ..))

theorem keeps_execSchedLatencySave (d : Desc) (s : State) : ∃ u, execSchedLatencySave d s = .next u ∧ Keeps s u := by
  unfold execSchedLatencySave
  exact ⟨_, rfl, (keeps_runDesc (h_body := (fun _ => (keeps_bodyLatencySave ..))) ..)⟩

theorem keeps_bodyLatencyErase (d : Desc) (s : State)  : Keeps s (bodyLatencyErase d s) := by
  unfold bodyLatencyErase
  exact (keeps_ite (keeps_fail ..) (Keeps.after (keeps_mramWrite ..) keeps_mk))

theorem keeps_execSchedLatencyErase (d : Desc) (s : State) : ∃ u, execSchedLatencyErase d s = .next u ∧ Keeps s u := by
  unfold execSchedLatencyErase
  exact ⟨_, rfl, (keeps_runDesc (h_body := (fun _ => (keeps_bodyLatencyErase ..))) ..)⟩

theorem keeps_execLatencyPeriodicSave (s : State) : ∃ u, execLatencyPeriodicSave s = .next u ∧ Keeps s u := by
  unfold execLatencyPeriodicSave
  exact ⟨_, rfl, (Keeps.after (keeps_latSave ..) (keeps_toInstant ..))⟩

theorem keeps_latWritten (s : State)  : Keeps s (latWritten s) := by
  unfold latWritten
  exact (Keeps.after (keeps_foldl (fun _ _ => (keeps_ok ..)) _ _) keeps_mk)

theorem keeps_execLatencyRecordsWritten (s : State) : ∃ u, execLatencyRecordsWritten s = .next u ∧ Keeps s u := by
  unfold execLatencyRecordsWritten
  exact ⟨_, rfl, (keeps_ite (Keeps.refl _) (keeps_latWritten ..))⟩

theorem keeps_chanEnable (i : Nat) (s : State) : Keeps s (chanEnable i s) := by
  unfold chanEnable
  split
  · exact Keeps.refl s
  · extract_lets key ok x s1
    have h1 : Keeps s s1 := keeps_updChan ..
    clear_value s1 x
    split
    · exact h1.trans (keeps_raiseE ..)
    · exact h1

theorem keeps_chanDisable (i : Nat) (s : State)  : Keeps s (chanDisable i s) := by
  unfold chanDisable
  exact (by (try extract_lets); split; exact (Keeps.refl _); exact (Keeps.after (keeps_updChan ..) (Keeps.after (keeps_chClear ..) (Keeps.after (keeps_chOff ..) (keeps_ite (Keeps.refl _) keeps_mk)))))

theorem keeps_sectEnable (i : Nat) (s : State)  : Keeps s (sectEnable i s) := by
  unfold sectEnable
  exact (keeps_updSec ..)

theorem keeps_sectDisable (i : Nat) (s : State)  : Keeps s (sectDisable i s) := by
  unfold sectDisable
  exact (keeps_updSec ..)

/-! ## Confirm -/

theorem keeps_confirmBoot (s : State)  : Keeps s (confirmBoot s) := by
  unfold confirmBoot
  exact (keeps_ite (Keeps.refl _) (Keeps.after (keeps_raise0 ..) (Keeps.after (keeps_ite (Keeps.after (keeps_raise0 ..) keeps_mk) (Keeps.refl _))
      keeps_mk)))

theorem keeps_confirmByFrame (s : State)  : Keeps s (confirmByFrame s) := by
  unfold confirmByFrame
  exact (keeps_ite (keeps_confirmBoot ..) (Keeps.refl _))

theorem keeps_confirmByClaim (s : State)  : Keeps s (confirmByClaim s) := by
  unfold confirmByClaim
  exact (keeps_ite (keeps_confirmBoot ..) (Keeps.refl _))

/-! ## Isobus -/

theorem keeps_isbFrame (f : CanFrame) (msg : Option Nat) (s : State)  : Keeps s (isbFrame f msg s) := by
  unfold isbFrame
  exact (by (try extract_lets); split; exact (Keeps.refl _); exact (by (try extract_lets); split; exact (Keeps.after (keeps_txQueue ..) (keeps_updTx ..)); exact keeps_mk))

theorem keeps_isbSend (prio pgn dst sa : Nat) (data : List Byte) (msg : Option Nat) (s : State)  : Keeps s (isbSend prio pgn dst sa data msg s) := by
  unfold isbSend
  exact (keeps_isbFrame ..)

theorem keeps_sendClaim (sa : Nat) (s : State)  : Keeps s (sendClaim sa s) := by
  unfold sendClaim
  exact (keeps_isbSend ..)

theorem keeps_sendAbort (peer pgn reason : Nat) (ext : Bool) (s : State)  : Keeps s (sendAbort peer pgn reason ext s) := by
  unfold sendAbort
  exact (keeps_isbSend ..)

theorem keeps_sendNack (peer pgn : Nat) (s : State)  : Keeps s (sendNack peer pgn s) := by
  unfold sendNack
  exact (keeps_isbSend ..)

theorem keeps_pgnSendEnd (n : Nat) (r : Reply) (s : State)  : Keeps s (pgnSendEnd n r s) := by
  unfold pgnSendEnd
  exact (by (try extract_lets); split; exact (keeps_completeDeferred ..); exact (Keeps.refl _))

theorem keeps_setTc (n : Nat) (s : State)  : Keeps s (setTc n s) := by
  unfold setTc
  exact (keeps_ite (Keeps.refl _) (Keeps.after (keeps_raise0 ..) keeps_mk))

theorem keeps_holdServices (s : State)  : Keeps s (holdServices s) := by
  unfold holdServices
  exact (by (try extract_lets); split; exact (Keeps.refl _); exact (Keeps.after keeps_mk (keeps_foldl (fun _ _ => (keeps_updTx ..)) _ _)))

theorem keeps_tcFollow (s : State)  : Keeps s (tcFollow s) := by
  unfold tcFollow
  exact (Keeps.after (keeps_ite (keeps_ite (keeps_setTc ..) (Keeps.refl _)) (keeps_setTc ..)) (keeps_ite (Keeps.refl _) (keeps_holdServices ..)))

theorem keeps_poolTake (b : List Byte) (s : State)  : Keeps s (poolTake b s) := by
  unfold poolTake
  exact (Keeps.after (keeps_ite (keeps_setTc ..) (Keeps.refl _)) keeps_mk)

theorem keeps_bodyPoolLoad (d : Desc) (s : State)  : Keeps s (bodyPoolLoad d s) := by
  unfold bodyPoolLoad
  exact (by (try extract_lets); split; exact (keeps_failWith ..); exact (Keeps.after (keeps_ok ..) (keeps_poolTake ..)))

theorem keeps_execIsbPoolLoad (d : Desc) (s : State) : ∃ u, execIsbPoolLoad d s = .next u ∧ Keeps s u := by
  unfold execIsbPoolLoad
  exact ⟨_, rfl, (keeps_runDesc (h_body := (fun _ => (keeps_bodyPoolLoad ..))) ..)⟩

theorem keeps_bodyPoolSave (d : Desc) (s : State)  : Keeps s (bodyPoolSave d s) := by
  unfold bodyPoolSave
  exact (keeps_ite (keeps_fail ..) (by (try extract_lets); split; exact (keeps_fail ..); exact (keeps_ite (keeps_fail ..) (keeps_mramWrite ..))))

theorem keeps_execIsbPoolSave (d : Desc) (s : State) : ∃ u, execIsbPoolSave d s = .next u ∧ Keeps s u := by
  unfold execIsbPoolSave
  exact ⟨_, rfl, (keeps_runDesc (h_body := (fun _ => (keeps_bodyPoolSave ..))) ..)⟩

theorem keeps_bodyIsbConfig (d : Desc) (s : State)  : Keeps s (bodyIsbConfig d s) := by
  unfold bodyIsbConfig
  exact (keeps_ite (keeps_fail ..) (by (try extract_lets); split; exact (keeps_failWith ..); exact (keeps_ite (keeps_fail ..) (keeps_ite (keeps_fail ..) (by (try extract_lets); split; exact (keeps_failWith ..); exact (Keeps.after (keeps_ok ..) (Keeps.after (keeps_tcFollow ..) (Keeps.after (keeps_ite (keeps_setTc ..) (Keeps.refl _)) keeps_mk))))))))

theorem keeps_execIsbConfig (d : Desc) (s : State) : ∃ u, execIsbConfig d s = .next u ∧ Keeps s u := by
  unfold execIsbConfig
  exact ⟨_, rfl, (keeps_runDesc (h_body := (fun _ => (keeps_bodyIsbConfig ..))) ..)⟩

theorem keeps_execAddressClaimStart (s : State) : ∃ u, execAddressClaimStart s = .next u ∧ Keeps s u := by
  unfold execAddressClaimStart
  exact ⟨_, rfl, (by (try extract_lets); split; exact (Keeps.refl _); exact (keeps_ite (Keeps.refl _) (Keeps.after (keeps_tcFollow ..) (Keeps.after (keeps_sendClaim ..) keeps_mk))))⟩

theorem keeps_isbRefill (s : State)  : Keeps s (isbRefill s) := by
  unfold isbRefill
  exact (by (try extract_lets); split; exact (keeps_ite (Keeps.after (keeps_isbFrame ..) keeps_mk) (Keeps.refl _)); exact (Keeps.refl _))

theorem keeps_releaseSuspended (s : State)  : Keeps s (releaseSuspended s) := by
  unfold releaseSuspended
  exact (by (try extract_lets); split; exact (Keeps.refl _); exact (Keeps.after (keeps_foldl (fun _ _ => (keeps_isbRefill ..)) _ _) (Keeps.after keeps_mk (keeps_foldl (fun _ _ => (keeps_ite (Keeps.after (keeps_txQueue ..) (keeps_updTx ..)) (Keeps.refl _))) _ _))))

theorem keeps_execAddressClaimTimeout (s : State) : ∃ u, execAddressClaimTimeout s = .next u ∧ Keeps s u := by
  unfold execAddressClaimTimeout
  exact ⟨_, rfl, (keeps_ite (Keeps.refl _) (Keeps.after (keeps_confirmByClaim ..) (Keeps.after (keeps_tcFollow ..) (Keeps.after
      (keeps_releaseSuspended ..) (Keeps.after (keeps_raise0 ..) (Keeps.after keeps_mk (keeps_toInstant ..)))))))⟩

theorem keeps_claimNext (s : State)  : Keeps s (claimNext s) := by
  unfold claimNext
  exact (by (try extract_lets); split; exact (Keeps.after (keeps_sendClaim ..) keeps_mk); exact (Keeps.after (keeps_raise0 ..) (Keeps.after (keeps_sendClaim ..) keeps_mk)))

theorem keeps_execAddressClaimReceived (src name : Nat) (s : State) : ∃ u, execAddressClaimReceived src name s = .next u ∧ Keeps s u := by
  unfold execAddressClaimReceived
  exact ⟨_, rfl, (keeps_ite (Keeps.refl _) (keeps_ite keeps_mk (keeps_ite (keeps_sendClaim ..) (Keeps.after (keeps_tcFollow ..) (Keeps.after
      (keeps_claimNext ..) (Keeps.after (keeps_ite (keeps_raise0 ..) (Keeps.refl _)) keeps_mk))))))⟩

theorem keeps_execRequestForAddressClaimed (_src : Nat) (s : State) : ∃ u, execRequestForAddressClaimed _src s = .next u ∧ Keeps s u := by
  unfold execRequestForAddressClaimed
  exact ⟨_, rfl, (keeps_ite (Keeps.refl _) (keeps_ite (keeps_sendClaim ..) (keeps_ite (keeps_sendClaim ..) (keeps_ite (keeps_sendClaim ..)
      (Keeps.refl _)))))⟩

theorem keeps_readTakes (x : Deferred) (m : IsbMsg) (s : State)  : Keeps s (readTakes x m s) := by
  unfold readTakes
  exact (keeps_deferredWrite ..)

theorem keeps_deliverMsg (m : IsbMsg) (s : State)  : Keeps s (deliverMsg m s) := by
  unfold deliverMsg
  exact (by (try extract_lets); split; exact (keeps_readTakes ..); exact (keeps_ite keeps_mk keeps_mk))

theorem keeps_bodyPgnRead (d : Desc) (s : State)  : Keeps s (bodyPgnRead d s) := by
  unfold bodyPgnRead
  exact (by (try extract_lets); split; exact (keeps_defer ..); exact (by (try extract_lets); split; exact (keeps_defer ..); exact (Keeps.after (keeps_readTakes ..) (Keeps.after keeps_mk (keeps_defer ..)))))

theorem keeps_execIsbPgnRead (d : Desc) (s : State) : ∃ u, execIsbPgnRead d s = .next u ∧ Keeps s u := by
  unfold execIsbPgnRead
  exact ⟨_, rfl, (keeps_runDesc (h_body := (fun _ => (keeps_bodyPgnRead ..))) ..)⟩

theorem keeps_tpAborted (peer pgn reason : Nat) (s : State)  : Keeps s (tpAborted peer pgn reason s) := by
  unfold tpAborted
  exact (Keeps.after (keeps_raise0 ..) keeps_mk)

theorem keeps_bodyPgnSend (d : Desc) (s : State)  : Keeps s (bodyPgnSend d s) := by
  unfold bodyPgnSend
  exact (keeps_ite (keeps_fail ..) (keeps_ite (keeps_fail ..) (keeps_ite (keeps_fail ..) (keeps_ite (Keeps.after (keeps_failWith ..) (keeps_tpAborted
      ..)) (keeps_ite (keeps_fail ..) (Keeps.after (keeps_ite (keeps_isbSend ..) keeps_mk) (Keeps.after (keeps_defer ..) keeps_mk)))))))

theorem keeps_execIsbPgnSend (d : Desc) (s : State) : ∃ u, execIsbPgnSend d s = .next u ∧ Keeps s u := by
  unfold execIsbPgnSend
  exact ⟨_, rfl, (keeps_runDesc (h_body := (fun _ => (keeps_bodyPgnSend ..))) ..)⟩

theorem keeps_execTpConnectionRequest (src pgn size : Nat) (bcast : Bool) (s : State) : ∃ u, execTpConnectionRequest src pgn size bcast s = .next u ∧
    Keeps s u := by
  unfold execTpConnectionRequest
  exact ⟨_, rfl, (keeps_ite (Keeps.refl _) (keeps_ite (Keeps.refl _) (keeps_ite (Keeps.after (keeps_tpAborted ..) (Keeps.after (keeps_sendAbort ..)
      (keeps_takeFree ..))) (keeps_ite (Keeps.after (keeps_tpAborted ..) (keeps_ite (Keeps.refl _) (keeps_sendAbort ..))) keeps_mk))))⟩

theorem keeps_execTpMessageComplete (send : Bool) (peer pgn prio : Nat) (data : List Byte) (s : State) : ∃ u, execTpMessageComplete send peer pgn
    prio data s = .next u ∧ Keeps s u := by
  unfold execTpMessageComplete
  exact ⟨_, rfl, (keeps_ite (by (try extract_lets); split; exact (Keeps.refl _); exact (keeps_ite (Keeps.refl _) (Keeps.after (keeps_pgnSendEnd ..) keeps_mk))) (by (try extract_lets); split; exact (Keeps.refl _); exact (keeps_ite (Keeps.refl _) (Keeps.after (keeps_ite (keeps_deliverMsg ..) (Keeps.refl _)) keeps_mk))))⟩

theorem keeps_execTpTimeout (send : Bool) (peer pgn reason : Nat) (s : State) : ∃ u, execTpTimeout send peer pgn reason s = .next u ∧ Keeps s u := by
  unfold execTpTimeout
  exact ⟨_, rfl, (keeps_ite (by (try extract_lets); split; exact (Keeps.refl _); exact (Keeps.after (keeps_pgnSendEnd ..) (Keeps.after (keeps_tpAborted ..) keeps_mk))) (by (try extract_lets); split; exact (Keeps.refl _); exact (Keeps.after (keeps_tpAborted ..) keeps_mk)))⟩

theorem keeps_isbFrameIn (o : Obj) (f : CanFrame) (s : State)  : Keeps s (isbFrameIn o f s) := by
  unfold isbFrameIn
  exact (keeps_ite (Keeps.refl _) (keeps_ite (Keeps.refl _) (keeps_ite (keeps_deliverMsg ..) (keeps_ite (Keeps.refl _) (keeps_sendNack ..)))))

theorem keeps_canTake (o : Obj) (f : CanFrame) (s : State)  : Keeps s (canTake o f s) := by
  unfold canTake
  exact (Keeps.after (keeps_isbFrameIn ..) (Keeps.after (keeps_ite (keeps_speedMessage ..) (Keeps.refl _)) (Keeps.after (keeps_canFilter ..)
      (keeps_canCount ..))))

theorem keeps_execCanFrameReceived (h : Nat) (f : CanFrame) (t : Nat) (s : State) : ∃ u, execCanFrameReceived h f t s = .next u ∧ Keeps s u := by
  unfold execCanFrameReceived
  exact ⟨_, rfl, (by (try extract_lets); split; exact (Keeps.refl _); exact (keeps_ite (Keeps.refl _) (Keeps.after (keeps_canTake ..) (keeps_toInstant ..))))⟩

theorem keeps_execCanFrameTransmitted (h buf start t : Nat) (s : State) : ∃ u, execCanFrameTransmitted h buf start t s = .next u ∧ Keeps s u := by
  refine ⟨_, rfl, ?_⟩
  split
  · exact Keeps.refl s
  · split
    · exact Keeps.refl s
    · extract_lets s1 x s2 s3 s4 s5 s6 s7 s8
      have h4 : Keeps s s4 := (((keeps_toInstant ..).trans (keeps_updTx ..)).trans (keeps_canCount ..)).trans (keeps_attemptEnd ..)
      have h5 : Keeps s s5 := by
        unfold s5; split
        · exact h4.trans ((keeps_updCan ..).trans (keeps_raise0 ..))
        · exact h4
      have h6 : Keeps s s6 := h5.trans (keeps_sendsEnd ..)
      have h7 : Keeps s s7 := by
        unfold s7; split
        · exact h6.trans (keeps_pgnSendEnd ..)
        · exact h6
      have h8 : Keeps s s8 := by
        unfold s8; split
        · exact h7.trans (keeps_isbRefill ..)
        · exact h7
      split
      · split
        · exact h8.trans (keeps_canTake ..)
        · exact h8
      · exact h8

theorem keeps_execCanBusOffRecovery (h : Nat) (s : State) : ∃ u, execCanBusOffRecovery h s = .next u ∧ Keeps s u := by
  unfold execCanBusOffRecovery
  exact ⟨_, rfl, (by (try extract_lets); split; exact (Keeps.refl _); exact (keeps_ite (Keeps.refl _) (Keeps.after (keeps_ite keeps_mk (Keeps.refl _)) (Keeps.after (keeps_raise0 ..) (keeps_updCan ..)))))⟩

theorem keeps_isbResume (s : State)  : Keeps s (isbResume s) := by
  unfold isbResume
  exact (keeps_ite (Keeps.after (keeps_tcFollow ..) keeps_mk) (Keeps.refl _))

theorem keeps_execTcStatusReceived (inst addr : Nat) (version : Option Nat) (s : State) : ∃ u, execTcStatusReceived inst addr version s = .next u ∧
    Keeps s u := by
  unfold execTcStatusReceived
  exact ⟨_, rfl, (keeps_ite (Keeps.refl _) (keeps_ite (Keeps.after (keeps_setTc ..) keeps_mk) (keeps_ite (Keeps.refl _) (by (try extract_lets); split; exact (keeps_ite (Keeps.after (keeps_setTc ..) (Keeps.after keeps_mk keeps_mk)) keeps_mk); exact keeps_mk))))⟩

theorem keeps_execTcStatusLost (s : State) : ∃ u, execTcStatusLost s = .next u ∧ Keeps s u := by
  unfold execTcStatusLost
  exact ⟨_, rfl, (keeps_ite (Keeps.refl _) (Keeps.after (keeps_setTc ..) (Keeps.after (keeps_raise0 ..) (keeps_toInstant ..))))⟩

theorem keeps_execTcPoolResponse (ok : Bool) (err : Nat) (s : State) : ∃ u, execTcPoolResponse ok err s = .next u ∧ Keeps s u := by
  unfold execTcPoolResponse
  exact ⟨_, rfl, (keeps_ite (Keeps.refl _) (keeps_ite (keeps_setTc ..) (Keeps.after (keeps_raise0 ..) (keeps_setTc ..))))⟩

theorem keeps_execSetpointCondensedWorkState (group value t : Nat) (s : State) : ∃ u, execSetpointCondensedWorkState group value t s = .next u ∧
    Keeps s u := by
  unfold execSetpointCondensedWorkState
  exact ⟨_, rfl, (keeps_ite (Keeps.refl _) (Keeps.after (keeps_foldl (fun _ _ => (keeps_ite (Keeps.refl _) (keeps_foldl (fun _ _ => (keeps_ite
      (Keeps.refl _) (keeps_tcSetpoint ..))) _ _))) _ _) (Keeps.after keeps_mk (keeps_toInstant ..))))⟩

theorem keeps_pdFrame (cmd : Nat) (e : TcElem) (pd : Pd) (data : List Byte) (s : State)  : Keeps s (pdFrame cmd e pd data s) := by
  unfold pdFrame
  exact (keeps_isbSend ..)

theorem keeps_pdRefuse (e : TcElem) (pd : Pd) (cmd : Nat) (s : State)  : Keeps s (pdRefuse e pd cmd s) := by
  unfold pdRefuse
  exact (Keeps.after (keeps_raise0 ..) (keeps_pdFrame ..))

theorem keeps_execTcProcessData (e : TcElem) (pd : Pd) (value : Int) (s : State) : ∃ u, execTcProcessData e pd value s = .next u ∧ Keeps s u := by
  unfold execTcProcessData
  exact ⟨_, rfl, (keeps_ite (Keeps.refl _) (by (try extract_lets); split; exact (Keeps.after keeps_mk keeps_mk); exact (Keeps.after keeps_mk keeps_mk); exact (by (try extract_lets); split; exact (Keeps.after (keeps_pdRefuse ..) keeps_mk); exact (Keeps.after (keeps_foldl (fun _ _ => (keeps_updSec ..)) _ _) keeps_mk))))⟩

theorem keeps_pdSend (e : TcElem) (pd : Pd) (s : State)  : Keeps s (pdSend e pd s) := by
  unfold pdSend
  exact (by (try extract_lets); split; exact (Keeps.refl _); exact (Keeps.after (keeps_pdFrame ..) keeps_mk))

theorem keeps_execMeasurementCommand (e : TcElem) (pd : Pd) (cmd : Nat) (value : Int) (s : State) : ∃ u, execMeasurementCommand e pd cmd value s =
    .next u ∧ Keeps s u := by
  unfold execMeasurementCommand
  exact ⟨_, rfl, (keeps_ite (Keeps.refl _) (by (try extract_lets); split; exact (Keeps.after (keeps_pdRefuse ..) keeps_mk); exact (keeps_ite (Keeps.after (keeps_pdRefuse ..) keeps_mk) (Keeps.after keeps_mk keeps_mk))))⟩

theorem keeps_execPdMeasurementTrigger (k : Nat) (s : State) : ∃ u, execPdMeasurementTrigger k s = .next u ∧ Keeps s u := by
  unfold execPdMeasurementTrigger
  exact ⟨_, rfl, (by (try extract_lets); split; exact (Keeps.refl _); exact (keeps_ite (Keeps.refl _) (by (try extract_lets); split; exact (keeps_ite (keeps_toInstant ..) (Keeps.refl _)); exact (keeps_ite (keeps_ite (keeps_toInstant ..) (Keeps.refl _)) (Keeps.after (keeps_pdSend ..) (Keeps.after keeps_mk (keeps_ite (keeps_toInstant ..) (Keeps.refl _))))))))⟩

theorem keeps_execWorkStateDisagreeTimeout (h : Nat) (s : State) : ∃ u, execWorkStateDisagreeTimeout h s = .next u ∧ Keeps s u := by
  unfold execWorkStateDisagreeTimeout
  exact ⟨_, rfl, (by (try extract_lets); split; exact (Keeps.refl _); exact (by (try extract_lets); split; exact (Keeps.refl _); exact (keeps_ite (Keeps.after (keeps_updSec ..) (keeps_toInstant ..)) (Keeps.refl _))))⟩

theorem keeps_execTcTimesResend (h : Nat) (s : State) : ∃ u, execTcTimesResend h s = .next u ∧ Keeps s u := by
  unfold execTcTimesResend
  exact ⟨_, rfl, (by (try extract_lets); split; exact (Keeps.refl _); exact (keeps_ite (Keeps.after (keeps_ite (Keeps.refl _) (Keeps.after (keeps_pdSend ..) (keeps_pdSend ..))) (Keeps.after (keeps_raiseE ..) (Keeps.after (keeps_updSec ..) (keeps_toInstant ..)))) (Keeps.refl _)))⟩

theorem keeps_tcGate (o : Obj) (s : State)  : Keeps s (tcGate o s) := by
  unfold tcGate
  exact (keeps_ite (Keeps.refl _) (keeps_updSec ..))

theorem keeps_tcReport (b : Nat) (o : Obj) (s : State)  : Keeps s (tcReport b o s) := by
  unfold tcReport
  exact (keeps_updSec ..)

theorem keeps_isbBoundary (b : Nat) (s : State)  : Keeps s (isbBoundary b s) := by
  unfold isbBoundary
  exact (Keeps.after (keeps_ite (Keeps.refl _) (keeps_foldl (fun _ _ => (keeps_ite (Keeps.refl _) (Keeps.after (keeps_pdSend ..) keeps_mk))) _ _))
      (Keeps.after (keeps_foldl (fun _ _ => (keeps_ite (Keeps.after (keeps_tcReport ..) (keeps_ite (keeps_tcGate ..) (Keeps.refl _))) (Keeps.refl
      _))) _ _) keeps_mk))

theorem keeps_bodyIsbStatus (d : Desc) (s : State)  : Keeps s (bodyIsbStatus d s) := by
  unfold bodyIsbStatus
  exact (keeps_writeBack ..)

theorem keeps_execIsbStatus (d : Desc) (s : State) : ∃ u, execIsbStatus d s = .next u ∧ Keeps s u := by
  unfold execIsbStatus
  exact ⟨_, rfl, (keeps_runDesc (h_body := (fun _ => (keeps_bodyIsbStatus ..))) ..)⟩

end Sys2Proof.Machine
end

