-- ==== Sys2Proof/Laws/KeepsOutputs.lean ====
section
/-! SUPPORT. `Keeps` for every operation and meaning: rings, pulse generator, switches, solenoids, feedback. Each meaning answers a next state. -/

namespace Sys2Proof.Machine

/-! ## Rings -/

theorem keeps_execRingEnable (r cfg : Nat) (s : State) : ∃ u, execRingEnable r cfg s = .next u ∧ Keeps s u := by
  unfold execRingEnable
  exact ⟨_, rfl, (keeps_ite (Keeps.refl _) (by (try extract_lets); split; exact (keeps_setRing ..); exact (keeps_setRing ..)))⟩

theorem keeps_resetSq (r : Nat) (s : State)  : Keeps s (resetSq r s) := by
  unfold resetSq
  exact (Keeps.after (keeps_sqResetEnd ..) (Keeps.after (keeps_setRing ..) (keeps_sessionClose ..)))

theorem keeps_resetCq (r : Nat) (s : State)  : Keeps s (resetCq r s) := by
  unfold resetCq
  exact (keeps_ite (keeps_setRing ..) (Keeps.after keeps_mk (keeps_setRing ..)))

theorem keeps_resetEq (r : Nat) (s : State)  : Keeps s (resetEq r s) := by
  unfold resetEq
  exact (keeps_setRing ..)

theorem keeps_detach (cause : Nat) (s : State)  : Keeps s (detach cause s) := by
  unfold detach
  exact (Keeps.after keeps_mk (keeps_sessionsCloseAll ..))

theorem keeps_execHostDetach (cause : Nat) (s : State) : ∃ u, execHostDetach cause s = .next u ∧ Keeps s u := by
  unfold execHostDetach
  exact ⟨_, rfl, (keeps_detach ..)⟩

theorem keeps_execHifRingReset (r : Nat) (s : State) : ∃ u, execHifRingReset r s = .next u ∧ Keeps s u := by
  unfold execHifRingReset
  exact ⟨_, rfl, (keeps_ite (keeps_detach ..) (keeps_ite (keeps_resetSq ..) (keeps_ite (keeps_resetCq ..) (keeps_ite (keeps_resetEq ..) (Keeps.refl
      _)))))⟩

theorem keeps_dbInvalid (r err : Nat) (s : State)  : Keeps s (dbInvalid r err s) := by
  unfold dbInvalid
  exact (Keeps.after (keeps_signalError ..) (Keeps.after (keeps_raise0 ..) (Keeps.after keeps_mk (keeps_setRing ..))))

theorem keeps_execSqTailDoorbell (n value : Nat) (s : State) : ∃ u, execSqTailDoorbell n value s = .next u ∧ Keeps s u := by
  unfold execSqTailDoorbell
  exact ⟨_, rfl, (keeps_ite (Keeps.refl _) (keeps_ite (keeps_dbInvalid ..) (keeps_ite (keeps_dbInvalid ..) (keeps_setRing ..))))⟩

theorem keeps_headDoorbell (r value : Nat) (s : State)  : Keeps s (headDoorbell r value s) := by
  unfold headDoorbell
  exact (keeps_ite (Keeps.refl _) (keeps_ite (keeps_dbInvalid ..) (keeps_ite (keeps_dbInvalid ..) (keeps_setRing ..))))

theorem keeps_execCqHeadDoorbell (n value : Nat) (s : State) : ∃ u, execCqHeadDoorbell n value s = .next u ∧ Keeps s u := by
  unfold execCqHeadDoorbell
  exact ⟨_, rfl, (keeps_ite (Keeps.refl _) (keeps_headDoorbell ..))⟩

theorem keeps_execEqHeadDoorbell (n value : Nat) (s : State) : ∃ u, execEqHeadDoorbell n value s = .next u ∧ Keeps s u := by
  unfold execEqHeadDoorbell
  exact ⟨_, rfl, (keeps_ite (Keeps.refl _) (keeps_headDoorbell ..))⟩

theorem keeps_execStreamHeadDoorbell (n value : Nat) (s : State) : ∃ u, execStreamHeadDoorbell n value s = .next u ∧ Keeps s u := by
  unfold execStreamHeadDoorbell
  exact ⟨_, rfl, (keeps_ite (Keeps.refl _) (keeps_headDoorbell ..))⟩

theorem keeps_ringDmaFault (r err addr : Nat) (s : State)  : Keeps s (ringDmaFault r err addr s) := by
  unfold ringDmaFault
  exact (Keeps.after (keeps_signalError ..) (Keeps.after (keeps_raise0 ..) (Keeps.after keeps_mk (keeps_setRing ..))))

theorem keeps_fetchAdvance (q : Nat) (s : State)  : Keeps s (fetchAdvance q s) := by
  unfold fetchAdvance
  exact (Keeps.after (keeps_ite (Keeps.refl _) (keeps_ite (keeps_ite (keeps_ringDmaFault ..) keeps_mkMailbox) keeps_mkHostMem)) (Keeps.after keeps_mk
      (Keeps.after (keeps_setRing ..) (keeps_setRing ..))))

theorem keeps_tagCount (q : Nat) (s : State)  : Keeps s (tagCount q s) := by
  unfold tagCount
  exact (by (try extract_lets); split; exact (keeps_ite (Keeps.after (keeps_sessionClose ..) (keeps_updSession ..)) (keeps_updSession ..)); exact (keeps_updSession ..))

theorem keeps_fetchStart (d : Desc) (s : State)  : Keeps s (fetchStart d s) := by
  unfold fetchStart
  exact (by (try extract_lets); split; exact (Keeps.after keeps_mk (keeps_ite (Keeps.after (keeps_updSession ..) (keeps_ite (keeps_tagCount ..) (Keeps.refl _))) (keeps_ite (keeps_tagCount ..) (Keeps.refl _)))); exact (Keeps.after (keeps_settle ..) (Keeps.after keeps_mk (keeps_ite (Keeps.after (keeps_updSession ..) (keeps_ite (keeps_tagCount ..) (Keeps.refl _))) (keeps_ite (Keeps.after (keeps_blockFault ..) (keeps_ite (keeps_tagCount ..) (Keeps.refl _))) (keeps_ite (keeps_tagCount ..) (Keeps.refl _)))))))

theorem keeps_execDescriptorFetch (d : Desc) (s : State) : ∃ u, execDescriptorFetch d s = .next u ∧ Keeps s u := by
  unfold execDescriptorFetch
  exact ⟨_, rfl, (keeps_ite (Keeps.refl _) (keeps_ite (Keeps.after (keeps_setRing ..) keeps_mk) (Keeps.after (keeps_fetchStart ..)
      (keeps_fetchAdvance ..))))⟩

theorem keeps_writeReattached (s : State)  : Keeps s (writeReattached s) := by
  unfold writeReattached
  exact (keeps_ite (Keeps.refl _) (by (try extract_lets); split; exact (Keeps.refl _); exact (keeps_ite (Keeps.after (keeps_ringProduce ..) keeps_mk) (Keeps.refl _))))

theorem keeps_drainHeld : ∀ (n : Nat) (s : State), Keeps s (drainHeld n s)
  | 0, s => Keeps.refl s
  | n + 1, s => by
    unfold drainHeld
    split
    · exact Keeps.refl s
    · split
      · exact Keeps.refl s
      · split
        · exact Keeps.trans (Keeps.after (keeps_ringProduce ..) keeps_mk) (keeps_drainHeld n _)
        · exact Keeps.refl s

theorem keeps_writeEventLost (s : State)  : Keeps s (writeEventLost s) := by
  unfold writeEventLost
  exact (keeps_ite (Keeps.refl _) (Keeps.after (keeps_raise0 ..) keeps_mk))

theorem keeps_drain (s : State)  : Keeps s (drain s) := by
  unfold drain
  exact (Keeps.after (keeps_ite (Keeps.refl _) (Keeps.after (keeps_writeEventLost ..) (keeps_drainHeld ..))) (keeps_writeReattached ..))

theorem keeps_execHeldEventDrain (s : State) : ∃ u, execHeldEventDrain s = .next u ∧ Keeps s u := by
  unfold execHeldEventDrain
  exact ⟨_, rfl, (keeps_drain ..)⟩

theorem keeps_execRingsEnClear (s : State) : ∃ u, execRingsEnClear s = .next u ∧ Keeps s u := by
  unfold execRingsEnClear
  exact ⟨_, rfl, keeps_mk⟩

theorem keeps_pbaSend (s : State)  : Keeps s (pbaSend s) := by
  unfold pbaSend
  exact (keeps_foldl (fun _ _ => (keeps_ite (Keeps.after (keeps_sendVector ..) keeps_mk) (Keeps.refl _))) _ _)

theorem keeps_execRingsEnSet (s : State) : ∃ u, execRingsEnSet s = .next u ∧ Keeps s u := by
  unfold execRingsEnSet
  exact ⟨_, rfl, (keeps_ite (Keeps.refl _) (Keeps.after (keeps_drain ..) (Keeps.after (keeps_foldl (fun _ _ => (keeps_sqResetEnd ..)) _ _)
      (Keeps.after (keeps_foldl (fun _ _ => (keeps_cqEntry ..)) _ _) (Keeps.after (keeps_pbaSend ..) (Keeps.after (keeps_ite (keeps_sendVector ..)
      (Keeps.refl _)) keeps_mk))))))⟩

theorem keeps_execInterruptModerationTimeout (r : Nat) (s : State) : ∃ u, execInterruptModerationTimeout r s = .next u ∧ Keeps s u := by
  unfold execInterruptModerationTimeout
  exact ⟨_, rfl, (keeps_ite (Keeps.after (keeps_ringSignal ..) (keeps_toInstant ..)) (Keeps.refl _))⟩

theorem keeps_execEventIntervalEnd (code h sub : Nat) (s : State) : ∃ u, execEventIntervalEnd code h sub s = .next u ∧ Keeps s u := by
  unfold execEventIntervalEnd
  exact ⟨_, rfl, (by (try extract_lets); split; exact (Keeps.refl _); exact (Keeps.after (keeps_ite (Keeps.refl _) (Keeps.after (keeps_raiseAt ..) keeps_mk)) (Keeps.after keeps_mk (keeps_toInstant ..))))⟩

theorem keeps_unwriteEntry (r : Nat) (s : State)  : Keeps s (unwriteEntry r s) := by
  unfold unwriteEntry
  exact (Keeps.after (keeps_setRing ..) (keeps_ringMemWrite ..))

theorem keeps_reholdEvent (e : Ev) (s : State)  : Keeps s (reholdEvent e s) := by
  unfold reholdEvent
  exact (keeps_ite keeps_mk keeps_mk)

theorem keeps_execHostDmaFault (a : DmaAccess) (s : State) : ∃ u, execHostDmaFault a s = .next u ∧ Keeps s u := by
  unfold execHostDmaFault
  exact ⟨_, rfl, (by (try extract_lets); split; exact (keeps_ite (keeps_ringDmaFault ..) (Keeps.refl _)); exact (keeps_ite (keeps_ringDmaFault ..) (Keeps.refl _)); exact (keeps_ite (Keeps.refl _) (Keeps.after (keeps_ringDmaFault ..) (by (try extract_lets); split; exact (Keeps.after (keeps_reholdEvent ..) (keeps_unwriteEntry ..)); exact (Keeps.after (keeps_setRing ..) (keeps_unwriteEntry ..))))); exact (Keeps.after (keeps_fail ..) (keeps_raise0 ..)))⟩

theorem keeps_execNop (d : Desc) (s : State) : ∃ u, execNop d s = .next u ∧ Keeps s u := by
  unfold execNop
  exact ⟨_, rfl, (keeps_runDesc (h_body := (fun _ => (keeps_ok ..))) ..)⟩

theorem keeps_bodyRingSync (d : Desc) (s : State)  : Keeps s (bodyRingSync d s) := by
  unfold bodyRingSync
  exact (keeps_ite (keeps_ok ..) keeps_mk)

theorem keeps_execRingSync (d : Desc) (s : State) : ∃ u, execRingSync d s = .next u ∧ Keeps s u := by
  unfold execRingSync
  exact ⟨_, rfl, (keeps_runDesc (h_body := (fun _ => (keeps_bodyRingSync ..))) ..)⟩

theorem keeps_execPcieLinkTrained (lanes : Nat) (s : State) : ∃ u, execPcieLinkTrained lanes s = .next u ∧ Keeps s u := by
  unfold execPcieLinkTrained
  exact ⟨_, rfl, (keeps_ite (Keeps.refl _) keeps_mk)⟩

/-! ## PulseGen -/

theorem keeps_countFaulted (s : State) (g : Nat)  : Keeps s (countFaulted s g) := by
  unfold countFaulted
  exact (keeps_foldl (fun _ _ => (keeps_updPwm ..)) _ _)

theorem keeps_bodyPgGroupConfig (d : Desc) (s : State)  : Keeps s (bodyPgGroupConfig d s) := by
  unfold bodyPgGroupConfig
  exact (keeps_ite (keeps_fail ..) (keeps_ite (Keeps.after (keeps_ok ..) (keeps_updGroup ..)) (keeps_ite (keeps_ok ..) (keeps_ite (Keeps.after
      (keeps_ok ..) (keeps_updGroup ..)) (keeps_fail ..)))))

theorem keeps_execPgGroupConfig (d : Desc) (s : State) : ∃ u, execPgGroupConfig d s = .next u ∧ Keeps s u := by
  unfold execPgGroupConfig
  exact ⟨_, rfl, (keeps_runDesc (h_body := (fun _ => (keeps_bodyPgGroupConfig ..))) ..)⟩

theorem keeps_updTrip (n : Nat) (f : Trip → Trip) (s : State)  : Keeps s (updTrip n f s) := by
  unfold updTrip
  exact keeps_mk

theorem keeps_tripFault (n i : Nat) (s : State)  : Keeps s (tripFault n i s) := by
  unfold tripFault
  exact (by (try extract_lets); split; exact (Keeps.refl _); exact (by (try extract_lets); split; exact (Keeps.after (keeps_class1 ..) (Keeps.after (keeps_pwmGateClose ..) (Keeps.after (keeps_becomeFaulted ..) (keeps_updPwm ..)))); exact (Keeps.after (keeps_pwmRefresh ..) (Keeps.after (keeps_class1 ..) (keeps_updPwm ..)))))

theorem keeps_tripOn (n i : Nat) (s : State)  : Keeps s (tripOn n i s) := by
  unfold tripOn
  exact (keeps_ite (Keeps.after (keeps_ite (keeps_tripFault ..) (Keeps.refl _)) (Keeps.after (keeps_pwmRefresh ..) (keeps_updPwm ..))) (Keeps.after
      (keeps_pwmRefresh ..) (keeps_updPwm ..)))

theorem keeps_tripActs (n : Nat) (os : List Obj) (s : State)  : Keeps s (tripActs n os s) := by
  unfold tripActs
  exact (Keeps.after (keeps_foldl (fun _ _ => (keeps_tripOn ..)) _ _) (keeps_ite (keeps_ite (Keeps.refl _) (Keeps.after (keeps_raise0 ..)
      (keeps_updTrip ..))) (keeps_raiseLimited ..)))

theorem keeps_tripArrive (n : Nat) (s : State)  : Keeps s (tripArrive n s) := by
  unfold tripArrive
  exact (keeps_ite (Keeps.refl _) (keeps_ite (Keeps.refl _) (keeps_tripActs ..)))

theorem keeps_execTripInputAssert (n : Nat) (s : State) : ∃ u, execTripInputAssert n s = .next u ∧ Keeps s u := by
  unfold execTripInputAssert
  exact ⟨_, rfl, (keeps_ite (Keeps.refl _) (Keeps.after (keeps_tripArrive ..) (keeps_updTrip ..)))⟩

theorem keeps_execTripInputRelease (n : Nat) (s : State) : ∃ u, execTripInputRelease n s = .next u ∧ Keeps s u := by
  unfold execTripInputRelease
  exact ⟨_, rfl, (keeps_ite (Keeps.refl _) (keeps_updTrip ..))⟩

theorem keeps_tripClear (n cause : Nat) (s : State)  : Keeps s (tripClear n cause s) := by
  unfold tripClear
  exact (Keeps.after (keeps_raise0 ..) (Keeps.after (keeps_foldl (fun _ _ => (keeps_ite (keeps_updPwm ..) (Keeps.refl _))) _ _) (keeps_updTrip ..)))

theorem keeps_execTripReleaseClear (n : Nat) (s : State) : ∃ u, execTripReleaseClear n s = .next u ∧ Keeps s u := by
  unfold execTripReleaseClear
  exact ⟨_, rfl, (keeps_ite (Keeps.after (keeps_tripClear ..) (keeps_toInstant ..)) (Keeps.refl _))⟩

theorem keeps_bodyPgTripConfig (d : Desc) (s : State)  : Keeps s (bodyPgTripConfig d s) := by
  unfold bodyPgTripConfig
  exact (keeps_ite (keeps_fail ..) (keeps_ite (keeps_fail ..) (Keeps.after (keeps_ok ..) (keeps_updTrip ..))))

theorem keeps_execPgTripConfig (d : Desc) (s : State) : ∃ u, execPgTripConfig d s = .next u ∧ Keeps s u := by
  unfold execPgTripConfig
  exact ⟨_, rfl, (keeps_runDesc (h_body := (fun _ => (keeps_bodyPgTripConfig ..))) ..)⟩

theorem keeps_tripBoundary (n : Nat) (s : State)  : Keeps s (tripBoundary n s) := by
  unfold tripBoundary
  exact (by (try extract_lets); split; exact (Keeps.refl _); exact (Keeps.after (keeps_tripArrive ..) (keeps_updTrip ..)))

theorem keeps_bodyPgTripClear (d : Desc) (s : State)  : Keeps s (bodyPgTripClear d s) := by
  unfold bodyPgTripClear
  exact (Keeps.after (keeps_ite (keeps_ok ..) (keeps_failWith ..)) (keeps_foldl (fun _ _ => (keeps_tripClear ..)) _ _))

theorem keeps_execPgTripClear (d : Desc) (s : State) : ∃ u, execPgTripClear d s = .next u ∧ Keeps s u := by
  unfold execPgTripClear
  exact ⟨_, rfl, (keeps_runDesc (h_body := (fun _ => (keeps_bodyPgTripClear ..))) ..)⟩

theorem keeps_execBlankingEnd (h : Nat) (s : State) : ∃ u, execBlankingEnd h s = .next u ∧ Keeps s u := by
  unfold execBlankingEnd
  exact ⟨_, rfl, (by (try extract_lets); split; exact (Keeps.refl _); exact (keeps_ite (Keeps.refl _) (Keeps.after (keeps_foldl (fun _ _ => (keeps_tripActs ..)) _ _) (Keeps.after (keeps_updPwm ..) (keeps_toInstant ..)))))⟩

theorem keeps_chanLoad (t : Nat) (i : Nat) (s : State)  : Keeps s (chanLoad t i s) := by
  unfold chanLoad
  exact (by (try extract_lets); split; exact (Keeps.refl _); exact (Keeps.after (keeps_foldl (fun _ _ => (keeps_tripOn ..)) _ _) (keeps_updObj _ (by intro _; rfl) _)))

theorem keeps_chanPeriod (t k p : Nat) (i : Nat) (s : State)  : Keeps s (chanPeriod t k p i s) := by
  unfold chanPeriod
  exact (by (try extract_lets); split; exact (keeps_chanLoad ..); exact (Keeps.after (keeps_ite (Keeps.refl _) (keeps_raiseLimited ..)) (Keeps.after (keeps_pwmRefresh ..) (Keeps.after (keeps_updPwm ..) (keeps_ite (Keeps.after (keeps_takeFree ..) (keeps_chanLoad ..)) (keeps_chanLoad ..))))))

theorem keeps_cycleAgain (g : Nat) (s : State)  : Keeps s (cycleAgain g s) := by
  unfold cycleAgain
  exact (keeps_foldl (fun _ _ => (keeps_ite (keeps_ite (Keeps.refl _) (keeps_tripActs ..)) (Keeps.refl _))) _ _)

theorem keeps_execPeriodStart (g : Nat) (s : State) : ∃ u, execPeriodStart g s = .next u ∧ Keeps s u := by
  unfold execPeriodStart
  exact ⟨_, rfl, (by (try extract_lets); split; exact (Keeps.refl _); exact (Keeps.after (keeps_cycleAgain ..) (Keeps.after (keeps_foldl (fun _ _ => (keeps_chanPeriod ..)) _ _) (Keeps.after (keeps_countFaulted ..) (Keeps.after (keeps_foldl (fun _ _ => (keeps_axDuties ..)) _ _) (Keeps.after (keeps_updGroup ..) (keeps_toInstant ..)))))))⟩

theorem keeps_execPgCompareEdge (h : Nat) (clr : Bool) (s : State) : ∃ u, execPgCompareEdge h clr s = .next u ∧ Keeps s u := by
  unfold execPgCompareEdge
  exact ⟨_, rfl, (by (try extract_lets); split; exact (Keeps.refl _); exact (keeps_ite (Keeps.refl _) (by (try extract_lets); split; exact (Keeps.refl _); exact (Keeps.after (keeps_pwmRefresh ..) (Keeps.after (keeps_updPwm ..) (keeps_toInstant ..))))))⟩

theorem keeps_deadTimeEnd (i t : Nat) (rising : Bool) (start : Nat) (s : State)  : Keeps s (deadTimeEnd i t rising start s) := by
  unfold deadTimeEnd
  exact (by (try extract_lets); split; exact (Keeps.refl _); exact (keeps_updPwm ..))

theorem keeps_execSwnTransition (p : Nat) (high : Bool) (t : Nat) (s : State) : ∃ u, execSwnTransition p high t s = .next u ∧ Keeps s u := by
  unfold execSwnTransition
  exact ⟨_, rfl, (by (try extract_lets); split; exact (Keeps.after (keeps_toInstant ..) keeps_mk); exact (by (try extract_lets); split; exact (keeps_ite (Keeps.after (keeps_toInstant ..) keeps_mk) (Keeps.after (keeps_deadTimeEnd ..) (Keeps.after (keeps_toInstant ..) keeps_mk))); exact (Keeps.after (keeps_toInstant ..) keeps_mk)))⟩

theorem keeps_execDeadTimeMax (h : Nat) (s : State) : ∃ u, execDeadTimeMax h s = .next u ∧ Keeps s u := by
  unfold execDeadTimeMax
  exact ⟨_, rfl, (by (try extract_lets); split; exact (Keeps.refl _); exact (by (try extract_lets); split; exact (Keeps.refl _); exact (Keeps.after (keeps_raiseLimited ..) (Keeps.after (keeps_updPwm ..) (Keeps.after (keeps_deadTimeEnd ..) (keeps_toInstant ..))))))⟩

theorem keeps_commRefresh (g : Nat) (s : State)  : Keeps s (commRefresh g s) := by
  unfold commRefresh
  exact (keeps_foldl (fun _ _ => (keeps_pwmRefresh ..)) _ _)

theorem keeps_bodyPgCommConfig (d : Desc) (s : State)  : Keeps s (bodyPgCommConfig d s) := by
  unfold bodyPgCommConfig
  exact (by (try extract_lets); split; exact (keeps_fail ..); exact (Keeps.after (keeps_ok ..) (Keeps.after (keeps_commRefresh ..) (keeps_updGroup ..))))

theorem keeps_execPgCommConfig (d : Desc) (s : State) : ∃ u, execPgCommConfig d s = .next u ∧ Keeps s u := by
  unfold execPgCommConfig
  exact ⟨_, rfl, (keeps_runDesc (h_body := (fun _ => (keeps_bodyPgCommConfig ..))) ..)⟩

theorem keeps_bodyPgCommutate (d : Desc) (s : State)  : Keeps s (bodyPgCommutate d s) := by
  unfold bodyPgCommutate
  exact (keeps_ite (keeps_fail ..) (by (try extract_lets); split; exact (keeps_fail ..); exact (keeps_ite (keeps_fail ..) (Keeps.after (keeps_ok ..) (Keeps.after (keeps_commRefresh ..) (keeps_updGroup ..))))))

theorem keeps_execPgCommutate (d : Desc) (s : State) : ∃ u, execPgCommutate d s = .next u ∧ Keeps s u := by
  unfold execPgCommutate
  exact ⟨_, rfl, (keeps_runDesc (h_body := (fun _ => (keeps_bodyPgCommutate ..))) ..)⟩

theorem keeps_setGpio (g : Nat) (v : Bool) (s : State)  : Keeps s (setGpio g v s) := by
  unfold setGpio
  exact keeps_mk

theorem keeps_commInput (gpio g : Nat) (s : State)  : Keeps s (commInput gpio g s) := by
  unfold commInput
  exact (by (try extract_lets); split; exact (Keeps.refl _); exact (keeps_ite (Keeps.after (keeps_commRefresh ..) (keeps_updGroup ..)) (keeps_ite (keeps_ite (Keeps.after (keeps_raiseLimited ..) (Keeps.after (keeps_commRefresh ..) (keeps_updGroup ..))) (Keeps.after (keeps_commRefresh ..) (keeps_updGroup ..))) (Keeps.refl _))))

theorem keeps_bodyPgStatus (d : Desc) (s : State)  : Keeps s (bodyPgStatus d s) := by
  unfold bodyPgStatus
  exact (keeps_writeBack ..)

theorem keeps_execPgStatus (d : Desc) (s : State) : ∃ u, execPgStatus d s = .next u ∧ Keeps s u := by
  unfold execPgStatus
  exact ⟨_, rfl, (keeps_runDesc (h_body := (fun _ => (keeps_bodyPgStatus ..))) ..)⟩

/-! ## Switches -/

theorem keeps_swFault (h bitsv : Nat) (s : State)  : Keeps s (swFault h bitsv s) := by
  unfold swFault
  exact (by (try extract_lets); split; exact (Keeps.refl _); exact (keeps_class1 ..))

theorem keeps_legFlag (i b : Nat) (s : State)  : Keeps s (legFlag i b s) := by
  unfold legFlag
  exact (keeps_ite (Keeps.refl _) keeps_mk)

theorem keeps_swLatch (o : Obj) (b : Nat) (s : State)  : Keeps s (swLatch o b s) := by
  unfold swLatch
  exact (Keeps.after (keeps_swFault ..) (Keeps.after (keeps_raise0 ..) (Keeps.after (keeps_legFlag ..) (Keeps.after (keeps_senseReason ..)
      (Keeps.after (keeps_swRefresh ..) (keeps_updSw ..))))))

theorem keeps_holdShutdown (k : Nat) (s : State)  : Keeps s (holdShutdown k s) := by
  unfold holdShutdown
  exact keeps_mk

theorem keeps_onLine (k : Nat) (shutdown : Bool) (f : Obj → State → State) (s : State) (h_f : ∀ o s, Keeps s (f o s)) : Keeps s (onLine k shutdown f
    s) := by
  unfold onLine
  exact (keeps_ite (keeps_ite (keeps_holdShutdown ..) (Keeps.refl _)) (by (try extract_lets); split; exact (Keeps.refl _); exact (h_f ..)))

theorem keeps_swGate (h : Nat) (on : Bool) (s : State)  : Keeps s (swGate h on s) := by
  unfold swGate
  exact (keeps_ite (keeps_gateOpen ..) (keeps_gateClose ..))

theorem keeps_swCmdRun (x : Deferred) (s : State)  : Keeps s (swCmdRun x s) := by
  unfold swCmdRun
  exact (by (try extract_lets); split; exact (keeps_completeDeferred ..); exact (by (try extract_lets); split; exact (keeps_completeDeferred ..); exact (Keeps.after (keeps_completeDeferred ..) (Keeps.after (keeps_swGate ..) (keeps_updSw ..)))))

theorem keeps_bodySwCmd (d : Desc) (o : Obj) (s : State)  : Keeps s (bodySwCmd d o s) := by
  unfold bodySwCmd
  exact (keeps_ite (keeps_fail ..) (by (try extract_lets); split; exact (keeps_fail ..); exact (Keeps.after (keeps_ite (keeps_swCmdRun ..) (Keeps.refl _)) (keeps_defer ..))))

theorem keeps_execSwCmd (d : Desc) (s : State) : ∃ u, execSwCmd d s = .next u ∧ Keeps s u := by
  unfold execSwCmd
  exact ⟨_, rfl, (keeps_runObj (h_body := (fun _ => (fun _ => (keeps_bodySwCmd ..)))) ..)⟩

theorem keeps_execSwCmdTakeEffect (h : Nat) (s : State) : ∃ u, execSwCmdTakeEffect h s = .next u ∧ Keeps s u := by
  unfold execSwCmdTakeEffect
  exact ⟨_, rfl, (by (try extract_lets); split; exact (Keeps.refl _); exact (Keeps.after (keeps_swCmdRun ..) (keeps_toInstant ..)))⟩

theorem keeps_bodySwClear (d : Desc) (o : Obj) (s : State)  : Keeps s (bodySwClear d o s) := by
  unfold bodySwClear
  exact (keeps_ite (keeps_fail ..) (Keeps.after (keeps_ite (keeps_ok ..) (keeps_failWith ..)) (keeps_updSw ..)))

theorem keeps_execSwClear (d : Desc) (s : State) : ∃ u, execSwClear d s = .next u ∧ Keeps s u := by
  unfold execSwClear
  exact ⟨_, rfl, (keeps_runObj (h_body := (fun _ => (fun _ => (keeps_bodySwClear ..)))) ..)⟩

theorem keeps_bodySwGroupStatus (d : Desc) (s : State)  : Keeps s (bodySwGroupStatus d s) := by
  unfold bodySwGroupStatus
  exact (keeps_writeBack ..)

theorem keeps_execSwGroupStatus (d : Desc) (s : State) : ∃ u, execSwGroupStatus d s = .next u ∧ Keeps s u := by
  unfold execSwGroupStatus
  exact ⟨_, rfl, (keeps_runDesc (h_body := (fun _ => (keeps_bodySwGroupStatus ..))) ..)⟩

theorem keeps_swInEdge (act : Bool) (i : Nat) (s : State)  : Keeps s (swInEdge act i s) := by
  unfold swInEdge
  exact (by (try extract_lets); split; exact (Keeps.refl _); exact (keeps_ite (Keeps.refl _) (keeps_ite (Keeps.after (keeps_swRefresh ..) (keeps_updSw ..)) (Keeps.after (keeps_ite (Keeps.after (keeps_swOnCmd ..) (keeps_updSw ..)) (keeps_swRefresh ..)) (keeps_updSw ..)))))

theorem keeps_swInput (gpio : Nat) (level : Bool) (s : State)  : Keeps s (swInput gpio level s) := by
  unfold swInput
  exact (keeps_foldl (fun _ _ => (keeps_swInEdge ..)) _ _)

theorem keeps_execSwCurrentLimit (line t : Nat) (s : State) : ∃ u, execSwCurrentLimit line t s = .next u ∧ Keeps s u := by
  unfold execSwCurrentLimit
  exact ⟨_, rfl, (keeps_onLine (h_f := (fun _ => (fun _ => (keeps_ite (Keeps.refl _) (Keeps.after (keeps_senseReason ..) (Keeps.after (keeps_updSw
      ..) (keeps_toInstant ..))))))) ..)⟩

theorem keeps_swShutdown (o : Obj) (cause : Nat) (s : State)  : Keeps s (swShutdown o cause s) := by
  unfold swShutdown
  exact (Keeps.after (keeps_ite (keeps_swLatch ..) (Keeps.refl _)) (Keeps.after (keeps_senseReason ..) (Keeps.after (keeps_raiseLimited ..)
      (Keeps.after (keeps_swRefresh ..) (keeps_updSw ..)))))

theorem keeps_execSwLimitTimeout (line : Nat) (s : State) : ∃ u, execSwLimitTimeout line s = .next u ∧ Keeps s u := by
  unfold execSwLimitTimeout
  exact ⟨_, rfl, (keeps_onLine (h_f := (fun _ => (fun _ => (by (try extract_lets); split; exact (Keeps.refl _); exact (Keeps.after (keeps_swShutdown ..) (keeps_toInstant ..)))))) ..)⟩

theorem keeps_execSwShortCircuit (line t : Nat) (s : State) : ∃ u, execSwShortCircuit line t s = .next u ∧ Keeps s u := by
  unfold execSwShortCircuit
  exact ⟨_, rfl, (keeps_onLine (h_f := (fun _ => (fun _ => (keeps_ite (Keeps.refl _) (Keeps.after (keeps_swShutdown ..) (keeps_toInstant ..)))))) ..)⟩

theorem keeps_swRestart (o : Obj) (s : State)  : Keeps s (swRestart o s) := by
  unfold swRestart
  exact (Keeps.after (keeps_ite (Keeps.refl _) (Keeps.after (keeps_swRefresh ..) (keeps_updSw ..))) (keeps_updSw ..))

theorem keeps_execSwRetryDelayEnd (line : Nat) (s : State) : ∃ u, execSwRetryDelayEnd line s = .next u ∧ Keeps s u := by
  unfold execSwRetryDelayEnd
  exact ⟨_, rfl, (keeps_onLine (h_f := (fun _ => (fun _ => (by (try extract_lets); split; exact (Keeps.refl _); exact (Keeps.after (keeps_ite (keeps_updSw ..) (keeps_swRestart ..)) (keeps_toInstant ..)))))) ..)⟩

theorem keeps_execSwThermalConditionEnd (line : Nat) (s : State) : ∃ u, execSwThermalConditionEnd line s = .next u ∧ Keeps s u := by
  unfold execSwThermalConditionEnd
  exact ⟨_, rfl, (keeps_onLine (h_f := (fun _ => (fun _ => (keeps_ite (keeps_swRestart ..) (Keeps.refl _))))) ..)⟩

theorem keeps_swTemps (o : Obj) (tj tcase : F32) (s : State)  : Keeps s (swTemps o tj tcase s) := by
  unfold swTemps
  exact (Keeps.after (keeps_updSw ..) keeps_mk)

theorem keeps_execSwDtLimitReached (line : Nat) (tj tcase : F32) (s : State) : ∃ u, execSwDtLimitReached line tj tcase s = .next u ∧ Keeps s u := by
  unfold execSwDtLimitReached
  exact ⟨_, rfl, (keeps_onLine (h_f := (fun _ => (fun _ => (Keeps.after (keeps_ite (Keeps.refl _) (Keeps.after (keeps_raiseLimited ..) (Keeps.after
      (keeps_senseReason ..) (Keeps.after (keeps_swRefresh ..) (keeps_updSw ..))))) (keeps_swTemps ..))))) ..)⟩

theorem keeps_execSwDtRecover (line : Nat) (tj tcase : F32) (s : State) : ∃ u, execSwDtRecover line tj tcase s = .next u ∧ Keeps s u := by
  unfold execSwDtRecover
  exact ⟨_, rfl, (keeps_onLine (h_f := (fun _ => (fun _ => (Keeps.after (keeps_ite (Keeps.refl _) (Keeps.after (keeps_raiseLimited ..) (Keeps.after
      (keeps_swRefresh ..) (keeps_updSw ..)))) (keeps_swTemps ..))))) ..)⟩

theorem keeps_execSwThermalLatch (line : Nat) (tj : F32) (s : State) : ∃ u, execSwThermalLatch line tj s = .next u ∧ Keeps s u := by
  unfold execSwThermalLatch
  exact ⟨_, rfl, (keeps_onLine (h_f := (fun _ => (fun _ => (keeps_ite (Keeps.refl _) (Keeps.after (keeps_swLatch ..) (keeps_updSw ..)))))) ..)⟩

theorem keeps_fuseNext (o : Obj) (f irms : F32) (s : State) : Keeps s (fuseNext o f irms s).2 := by
  unfold fuseNext
  exact (keeps_ite2 (keeps_ite2 (Keeps.refl _) (keeps_curveAt ..)) (Keeps.refl _))

theorem keeps_groupAdd (line : Nat) (codes : List Code) (s : State)  : Keeps s (groupAdd line codes s) := by
  unfold groupAdd
  exact keeps_mk

theorem keeps_execSwFuseTick (line : Nat) (codes : List Code) (tj tcase : F32) (s : State) :
    ∃ u, execSwFuseTick line codes tj tcase s = .next u ∧ Keeps s u := by
  refine ⟨_, rfl, (keeps_groupAdd ..).trans (keeps_onLine _ _ _ _ fun o t => ?_)⟩
  extract_lets s1 r x f s2 s3
  have h3 : Keeps t s3 := (keeps_swTemps ..).trans ((keeps_fuseNext ..).trans (keeps_updSw ..))
  exact keeps_ite (h3.trans (keeps_swLatch ..)) h3

theorem keeps_execSwClampEvent (line us : Nat) (s : State) : ∃ u, execSwClampEvent line us s = .next u ∧ Keeps s u := by
  unfold execSwClampEvent
  exact ⟨_, rfl, (keeps_onLine (h_f := (fun _ => (fun _ => (Keeps.after (keeps_ite (keeps_swLatch ..) (Keeps.refl _)) (Keeps.after
      (keeps_raiseLimited ..) (keeps_updSw ..)))))) ..)⟩

theorem keeps_execSwOpenLoadInterval (line us peak : Nat) (s : State) : ∃ u, execSwOpenLoadInterval line us peak s = .next u ∧ Keeps s u := by
  unfold execSwOpenLoadInterval
  exact ⟨_, rfl, (keeps_onLine (h_f := (fun _ => (fun _ => (keeps_ite (Keeps.refl _) (keeps_ite (Keeps.after (keeps_ite (Keeps.refl _) (Keeps.after
      (keeps_ite (keeps_swFault ..) (Keeps.refl _)) (Keeps.after (keeps_raise0 ..) (Keeps.after (keeps_legFlag ..) (Keeps.after (keeps_senseReason
      ..) (keeps_updSw ..)))))) (keeps_updSw ..)) (Keeps.after (keeps_ite (keeps_raise0 ..) (Keeps.refl _)) (keeps_updSw ..))))))) ..)⟩

theorem keeps_execSwGroupAverage (s : State) : ∃ u, execSwGroupAverage s = .next u ∧ Keeps s u := by
  unfold execSwGroupAverage
  exact ⟨_, rfl, (Keeps.after (keeps_foldl (fun _ _ => (keeps_ite (keeps_raise0 ..) (Keeps.refl _))) _ _) keeps_mk)⟩

/-! ## Solenoids -/

theorem keeps_bodySolBoostConfig (d : Desc) (s : State)  : Keeps s (bodySolBoostConfig d s) := by
  unfold bodySolBoostConfig
  exact (keeps_ite (keeps_fail ..) (keeps_ite (keeps_fail ..) (Keeps.after (keeps_ok ..) keeps_mk)))

theorem keeps_execSolBoostConfig (d : Desc) (s : State) : ∃ u, execSolBoostConfig d s = .next u ∧ Keeps s u := by
  unfold execSolBoostConfig
  exact ⟨_, rfl, (keeps_runDesc (h_body := (fun _ => (keeps_bodySolBoostConfig ..))) ..)⟩

theorem keeps_boostBoundary (s : State)  : Keeps s (boostBoundary s) := by
  unfold boostBoundary
  exact (by (try extract_lets); split; exact (Keeps.refl _); exact keeps_mk)

theorem keeps_execBoostConverterPeriod (t : Nat) (volts : F32) (limit : Bool) (s : State) : ∃ u, execBoostConverterPeriod t volts limit s = .next u ∧
    Keeps s u := by
  unfold execBoostConverterPeriod
  exact ⟨_, rfl, (Keeps.after keeps_mk (Keeps.after (keeps_boostSettle ..) (Keeps.after keeps_mk (keeps_toInstant ..))))⟩

theorem keeps_execVboostReached (t : Nat) (volts : F32) (s : State) : ∃ u, execVboostReached t volts s = .next u ∧ Keeps s u := by
  unfold execVboostReached
  exact ⟨_, rfl, (keeps_ite (Keeps.refl _) (Keeps.after (keeps_boostBegin ..) (Keeps.after (keeps_boostSettle ..) (Keeps.after keeps_mk
      (keeps_toInstant ..)))))⟩

theorem keeps_execBoostWaitExpiry (h : Nat) (s : State) : ∃ u, execBoostWaitExpiry h s = .next u ∧ Keeps s u := by
  unfold execBoostWaitExpiry
  exact ⟨_, rfl, (by (try extract_lets); split; exact (Keeps.refl _); exact (keeps_ite (Keeps.refl _) (Keeps.after (keeps_boostSettle ..) (Keeps.after (keeps_boostSkip ..) (keeps_toInstant ..)))))⟩

theorem keeps_skipDue (s : State)  : Keeps s (skipDue s) := by
  unfold skipDue
  exact (keeps_ite (Keeps.after (keeps_boostSettle ..) (keeps_foldl (fun _ _ => (keeps_boostSkip ..)) _ _)) (Keeps.refl _))

theorem keeps_execBoostOvervoltage (volts : F32) (s : State) : ∃ u, execBoostOvervoltage volts s = .next u ∧ Keeps s u := by
  unfold execBoostOvervoltage
  exact ⟨_, rfl, (keeps_ite (Keeps.refl _) (Keeps.after (keeps_skipDue ..) (Keeps.after (keeps_boostSettle ..) (Keeps.after (keeps_raise0 ..)
      keeps_mk))))⟩

theorem keeps_execBoostEnd (h t : Nat) (atCurrent : Bool) (s : State) : ∃ u, execBoostEnd h t atCurrent s = .next u ∧ Keeps s u := by
  unfold execBoostEnd
  exact ⟨_, rfl, (by (try extract_lets); split; exact (Keeps.refl _); exact (keeps_ite (Keeps.refl _) (Keeps.after (keeps_skipDue ..) (Keeps.after (keeps_boostBegin ..) (Keeps.after (keeps_boostSettle ..) (Keeps.after (keeps_dequeue ..) (Keeps.after (keeps_updSol ..) (Keeps.after (keeps_solPeak ..) (keeps_toInstant ..)))))))))⟩

theorem keeps_solCmdRun (x : Deferred) (s : State)  : Keeps s (solCmdRun x s) := by
  unfold solCmdRun
  exact (by (try extract_lets); split; exact (keeps_completeDeferred ..); exact (by (try extract_lets); split; exact (keeps_completeDeferred ..); exact (keeps_ite (keeps_completeDeferred ..) (Keeps.after keeps_mk (keeps_ite (keeps_solOn ..) (keeps_solOff ..))))))

theorem keeps_bodySolCmd (d : Desc) (o : Obj) (s : State)  : Keeps s (bodySolCmd d o s) := by
  unfold bodySolCmd
  exact (keeps_ite (keeps_fail ..) (by (try extract_lets); split; exact (keeps_fail ..); exact (Keeps.after (keeps_ite (keeps_solCmdRun ..) (Keeps.refl _)) (keeps_defer ..))))

theorem keeps_execSolCmd (d : Desc) (s : State) : ∃ u, execSolCmd d s = .next u ∧ Keeps s u := by
  unfold execSolCmd
  exact ⟨_, rfl, (keeps_runObj (h_body := (fun _ => (fun _ => (keeps_bodySolCmd ..)))) ..)⟩

theorem keeps_execSolOnCommand (h : Nat) (s : State) : ∃ u, execSolOnCommand h s = .next u ∧ Keeps s u := by
  unfold execSolOnCommand
  exact ⟨_, rfl, (by (try extract_lets); split; exact (Keeps.refl _); exact (Keeps.after (keeps_solCmdRun ..) (keeps_toInstant ..)))⟩

theorem keeps_execSolOffCommand (h : Nat) (s : State) : ∃ u, execSolOffCommand h s = .next u ∧ Keeps s u := by
  unfold execSolOffCommand
  exact ⟨_, rfl, (by (try extract_lets); split; exact (Keeps.refl _); exact (Keeps.after (keeps_solCmdRun ..) (keeps_toInstant ..)))⟩

theorem keeps_execPeakEnd (h : Nat) (s : State) : ∃ u, execPeakEnd h s = .next u ∧ Keeps s u := by
  unfold execPeakEnd
  exact ⟨_, rfl, (by (try extract_lets); split; exact (Keeps.refl _); exact (keeps_ite (Keeps.refl _) (Keeps.after (keeps_updSol ..) (Keeps.after (keeps_solMissed ..) (keeps_toInstant ..)))))⟩

theorem keeps_execSolRegulatorThreshold (h t : Nat) (upper : Bool) (s : State) : ∃ u, execSolRegulatorThreshold h t upper s = .next u ∧ Keeps s u :=
    by
  unfold execSolRegulatorThreshold
  exact ⟨_, rfl, (by (try extract_lets); split; exact (Keeps.refl _); exact (keeps_ite (Keeps.refl _) (Keeps.after (keeps_ite (Keeps.after (keeps_setLs ..) (keeps_setHs ..)) (keeps_setLs ..)) (Keeps.after (keeps_updSol ..) (keeps_toInstant ..)))))⟩

theorem keeps_execSolDecayEnd (h t : Nat) (s : State) : ∃ u, execSolDecayEnd h t s = .next u ∧ Keeps s u := by
  unfold execSolDecayEnd
  exact ⟨_, rfl, (by (try extract_lets); split; exact (Keeps.refl _); exact (keeps_ite (Keeps.refl _) (Keeps.after (keeps_setLs ..) (Keeps.after (keeps_windowCut ..) (Keeps.after (keeps_updSol ..) (keeps_toInstant ..))))))⟩

theorem keeps_solLatch (o : Obj) (b : Nat) (fault : Bool) (s : State)  : Keeps s (solLatch o b fault s) := by
  unfold solLatch
  exact (by (try extract_lets); split; exact (keeps_ite (Keeps.after (keeps_class1 ..) (Keeps.after (keeps_raise0 ..) (Keeps.after (keeps_senseReason ..) (Keeps.after (keeps_solCut ..) (Keeps.after (keeps_windowReason ..) (keeps_updSol ..)))))) (Keeps.after (keeps_raise0 ..) (Keeps.after (keeps_senseReason ..) (Keeps.after (keeps_solCut ..) (Keeps.after (keeps_windowReason ..) (keeps_updSol ..)))))); exact (Keeps.after (keeps_raise0 ..) (Keeps.after (keeps_senseReason ..) (Keeps.after (keeps_solCut ..) (Keeps.after (keeps_windowReason ..) (keeps_updSol ..))))))

theorem keeps_execSolTripCurrent (h t : Nat) (s : State) : ∃ u, execSolTripCurrent h t s = .next u ∧ Keeps s u := by
  unfold execSolTripCurrent
  exact ⟨_, rfl, (by (try extract_lets); split; exact (Keeps.refl _); exact (keeps_ite (Keeps.refl _) (Keeps.after (keeps_solLatch ..) (keeps_toInstant ..))))⟩

theorem keeps_execSolOpenTimeout (h : Nat) (s : State) : ∃ u, execSolOpenTimeout h s = .next u ∧ Keeps s u := by
  unfold execSolOpenTimeout
  exact ⟨_, rfl, (by (try extract_lets); split; exact (Keeps.refl _); exact (keeps_ite (Keeps.refl _) (Keeps.after (keeps_solLatch ..) (keeps_toInstant ..))))⟩

theorem keeps_bodySolClear (d : Desc) (o : Obj) (s : State)  : Keeps s (bodySolClear d o s) := by
  unfold bodySolClear
  exact (keeps_ite (keeps_fail ..) (Keeps.after (keeps_ok ..) (keeps_updSol ..)))

theorem keeps_execSolClear (d : Desc) (s : State) : ∃ u, execSolClear d s = .next u ∧ Keeps s u := by
  unfold execSolClear
  exact ⟨_, rfl, (keeps_runObj (h_body := (fun _ => (fun _ => (keeps_bodySolClear ..)))) ..)⟩

theorem keeps_execSolSignatureWindowClose (h t0 : Nat) (codes last : List Code) (s : State) : ∃ u, execSolSignatureWindowClose h t0 codes last s =
    .next u ∧ Keeps s u := by
  unfold execSolSignatureWindowClose
  exact ⟨_, rfl, (by (try extract_lets); split; exact (Keeps.refl _); exact (by (try extract_lets); split; exact (Keeps.refl _); exact (Keeps.after (keeps_solWindowEnd ..) (Keeps.after (keeps_updSol ..) (keeps_toInstant ..)))))⟩

theorem keeps_bodySolBoostStatus (d : Desc) (s : State)  : Keeps s (bodySolBoostStatus d s) := by
  unfold bodySolBoostStatus
  exact (keeps_writeBack ..)

theorem keeps_execSolBoostStatus (d : Desc) (s : State) : ∃ u, execSolBoostStatus d s = .next u ∧ Keeps s u := by
  unfold execSolBoostStatus
  exact ⟨_, rfl, (keeps_runDesc (h_body := (fun _ => (keeps_bodySolBoostStatus ..))) ..)⟩

/-! ## Feedback -/

theorem keeps_fbReaders (h reason : Nat) (s : State)  : Keeps s (fbReaders h reason s) := by
  unfold fbReaders
  exact (keeps_foldl (fun _ _ => (keeps_class1 ..)) _ _)

theorem keeps_fbFault (i reason sub : Nat) (s : State)  : Keeps s (fbFault i reason sub s) := by
  unfold fbFault
  exact (by (try extract_lets); split; exact (Keeps.refl _); exact (keeps_ite (Keeps.refl _) (Keeps.after (keeps_ite (Keeps.refl _) (keeps_fbReaders ..)) (Keeps.after (keeps_raise0 ..) (keeps_updFb ..)))))

theorem keeps_bodyFbClear (d : Desc) (o : Obj) (s : State)  : Keeps s (bodyFbClear d o s) := by
  unfold bodyFbClear
  exact (keeps_ite (keeps_ok ..) (keeps_ite (keeps_fail ..) (Keeps.after (keeps_ok ..) (Keeps.after (keeps_raise0 ..) (keeps_updFb ..)))))

theorem keeps_execFbClear (d : Desc) (s : State) : ∃ u, execFbClear d s = .next u ∧ Keeps s u := by
  unfold execFbClear
  exact ⟨_, rfl, (keeps_runObj (h_body := (fun _ => (fun _ => (keeps_bodyFbClear ..)))) ..)⟩

theorem keeps_quadEdge (n : Nat) (isA both : Bool) (t : Nat) (s : State)  : Keeps s (quadEdge n isA both t s) := by
  unfold quadEdge
  exact (keeps_foldl (fun _ _ => (keeps_ite (Keeps.after (keeps_ite (keeps_fbFault ..) (Keeps.refl _)) (Keeps.after (keeps_raiseLimited ..)
      (keeps_updFb ..))) (keeps_updFb ..))) _ _)

theorem keeps_idxCheck (o : Obj) (prev : Int) (from' : Option Bool) (s : State)  : Keeps s (idxCheck o prev from' s) := by
  unfold idxCheck
  exact (keeps_ite (keeps_updFb ..) (Keeps.after (keeps_ite (Keeps.after (keeps_ite (Keeps.refl _) (keeps_updFb ..)) (keeps_updFb ..)) (Keeps.after
      (keeps_ite (keeps_fbFault ..) (Keeps.refl _)) (Keeps.after (keeps_raise0 ..) (keeps_updFb ..)))) (keeps_updFb ..)))

theorem keeps_indexEdge (n : Nat) (level : Bool) (s : State)  : Keeps s (indexEdge n level s) := by
  unfold indexEdge
  exact (keeps_foldl (fun _ _ => (keeps_ite (Keeps.refl _) (Keeps.after (keeps_idxCheck ..) (Keeps.after (keeps_axIndex ..) (keeps_updFb ..))))) _ _)

theorem keeps_pulseEdge (kind n : Nat) (level : Bool) (t : Nat) (s : State)  : Keeps s (pulseEdge kind n level t s) := by
  unfold pulseEdge
  exact (keeps_foldl (fun _ _ => (keeps_ite (Keeps.refl _) (keeps_ite (Keeps.after (keeps_ite (keeps_fbFault ..) (Keeps.refl _)) (keeps_updFb ..))
      (Keeps.after (keeps_seedPulse ..) (keeps_updFb ..))))) _ _)

theorem keeps_gpioEdge (g : Nat) (level : Bool) (t : Nat) (s : State)  : Keeps s (gpioEdge g level t s) := by
  unfold gpioEdge
  exact (keeps_ite (Keeps.refl _) (Keeps.after (keeps_pulseEdge ..) (Keeps.after (keeps_axGpio ..) (Keeps.after (keeps_foldl (fun _ _ =>
      (keeps_commInput ..)) _ _) (Keeps.after (keeps_swInput ..) (keeps_setGpio ..))))))

theorem keeps_execSwInPinEdge (gpio : Nat) (level : Bool) (s : State) : ∃ u, execSwInPinEdge gpio level s = .next u ∧ Keeps s u := by
  unfold execSwInPinEdge
  exact ⟨_, rfl, (keeps_gpioEdge ..)⟩

theorem keeps_execCommutationInput (g gpio : Nat) (level : Bool) (s : State) : ∃ u, execCommutationInput g gpio level s = .next u ∧ Keeps s u := by
  unfold execCommutationInput
  exact ⟨_, rfl, (by (try extract_lets); split; exact (Keeps.refl _); exact (keeps_ite (keeps_gpioEdge ..) (Keeps.refl _)))⟩

theorem keeps_execAxisLimitAssert (gpio : Nat) (level : Bool) (s : State) : ∃ u, execAxisLimitAssert gpio level s = .next u ∧ Keeps s u := by
  unfold execAxisLimitAssert
  exact ⟨_, rfl, (keeps_gpioEdge ..)⟩

theorem keeps_execHomeInputEdge (gpio : Nat) (level : Bool) (s : State) : ∃ u, execHomeInputEdge gpio level s = .next u ∧ Keeps s u := by
  unfold execHomeInputEdge
  exact ⟨_, rfl, (keeps_gpioEdge ..)⟩

theorem keeps_encoPass (s : State)  : Keeps s (encoPass s) := by
  unfold encoPass
  exact keeps_mk

theorem keeps_execFilteredEdge (i : Inp) (level : Bool) (t n : Nat) (s : State) : ∃ u, execFilteredEdge i level t n s = .next u ∧ Keeps s u := by
  unfold execFilteredEdge
  exact ⟨_, rfl, (keeps_ite (Keeps.refl _) (by (try extract_lets); split; exact (Keeps.after (keeps_gpioEdge ..) (keeps_toInstant ..)); exact (keeps_ite (keeps_toInstant ..) (Keeps.after (keeps_ite (keeps_stepinEdge ..) (Keeps.refl _)) (Keeps.after keeps_mk (keeps_toInstant ..)))); exact (keeps_ite (keeps_toInstant ..) (Keeps.after (keeps_pulseEdge ..) (Keeps.after keeps_mk (keeps_toInstant ..)))); exact (keeps_ite (keeps_toInstant ..) (Keeps.after (keeps_encoPass ..) (Keeps.after (keeps_quadEdge ..) (Keeps.after keeps_mk (keeps_toInstant ..))))); exact (keeps_ite (keeps_toInstant ..) (Keeps.after (keeps_encoPass ..) (Keeps.after (keeps_quadEdge ..) (Keeps.after keeps_mk (keeps_toInstant ..))))); exact (Keeps.after (keeps_encoPass ..) (Keeps.after (keeps_quadEdge ..) (Keeps.after keeps_mk (keeps_toInstant ..)))); exact (keeps_ite (keeps_toInstant ..) (Keeps.after (keeps_encoPass ..) (Keeps.after (keeps_indexEdge ..) (Keeps.after keeps_mk (keeps_toInstant ..)))))))⟩

theorem keeps_bodyFbFilterSet (d : Desc) (s : State)  : Keeps s (bodyFbFilterSet d s) := by
  unfold bodyFbFilterSet
  exact (keeps_ite (keeps_fail ..) (keeps_ite (keeps_fail ..) (Keeps.after (keeps_ok ..) keeps_mk)))

theorem keeps_execFbFilterSet (d : Desc) (s : State) : ∃ u, execFbFilterSet d s = .next u ∧ Keeps s u := by
  unfold execFbFilterSet
  exact ⟨_, rfl, (keeps_runDesc (h_body := (fun _ => (keeps_bodyFbFilterSet ..))) ..)⟩

theorem keeps_execSerialReadStart (port : Nat) (s : State) : ∃ u, execSerialReadStart port s = .next u ∧ Keeps s u := by
  unfold execSerialReadStart
  exact ⟨_, rfl, (by (try extract_lets); split; exact (Keeps.refl _); exact (keeps_ite (keeps_updFb ..) (Keeps.refl _)))⟩

theorem keeps_serialBad (o : Obj) (sub : Nat) (s : State)  : Keeps s (serialBad o sub s) := by
  unfold serialBad
  exact (Keeps.after (keeps_ite (keeps_fbFault ..) (Keeps.refl _)) (keeps_updFb ..))

theorem keeps_serialGood (o : Obj) (v t : Nat) (s : State)  : Keeps s (serialGood o v t s) := by
  unfold serialGood
  exact (by (try extract_lets); split; exact (keeps_updFb ..); exact (keeps_ite (keeps_serialBad ..) (keeps_updFb ..)))

theorem keeps_execSerialFrameDone (port : Nat) (line : Bool) (bs : List Bool) (s : State) : ∃ u, execSerialFrameDone port line bs s = .next u ∧ Keeps
    s u := by
  unfold execSerialFrameDone
  exact ⟨_, rfl, (by (try extract_lets); split; exact (Keeps.refl _); exact (by (try extract_lets); split; exact (Keeps.refl _); exact (by (try extract_lets); split; exact (Keeps.after (keeps_serialGood ..) (keeps_ite (Keeps.after (keeps_raiseLimited ..) (keeps_updFb ..)) (keeps_updFb ..))); exact (Keeps.after (keeps_serialBad ..) (keeps_ite (Keeps.after (keeps_raiseLimited ..) (keeps_updFb ..)) (keeps_updFb ..))))))⟩

theorem keeps_execAinSample (n t code : Nat) (s : State) : ∃ u, execAinSample n t code s = .next u ∧ Keeps s u := by
  unfold execAinSample
  exact ⟨_, rfl, (Keeps.after (keeps_foldl (fun _ _ => (keeps_updFb ..)) _ _) (Keeps.after keeps_mk (keeps_toInstant ..)))⟩

theorem keeps_execAinRangeTimeout (h : Nat) (s : State) : ∃ u, execAinRangeTimeout h s = .next u ∧ Keeps s u := by
  unfold execAinRangeTimeout
  exact ⟨_, rfl, (by (try extract_lets); split; exact (Keeps.refl _); exact (by (try extract_lets); split; exact (Keeps.refl _); exact (keeps_ite (Keeps.after (keeps_fbFault ..) (keeps_toInstant ..)) (Keeps.refl _))))⟩

theorem keeps_bodyFbSetPos (d : Desc) (o : Obj) (s : State)  : Keeps s (bodyFbSetPos d o s) := by
  unfold bodyFbSetPos
  exact (keeps_ite (keeps_fail ..) (Keeps.after (keeps_ok ..) (keeps_updFb ..)))

theorem keeps_execFbSetPos (d : Desc) (s : State) : ∃ u, execFbSetPos d s = .next u ∧ Keeps s u := by
  unfold execFbSetPos
  exact ⟨_, rfl, (keeps_runObj (h_body := (fun _ => (fun _ => (keeps_bodyFbSetPos ..)))) ..)⟩

theorem keeps_fbBoundary (b : Nat) (o : Obj) (s : State)  : Keeps s (fbBoundary b o s) := by
  unfold fbBoundary
  exact (by (try extract_lets); split; exact (keeps_updFb ..); exact (keeps_ite (Keeps.after (keeps_updFb ..) (keeps_updFb ..)) (keeps_updFb ..)))

theorem keeps_fbEnable (i : Nat) (s : State)  : Keeps s (fbEnable i s) := by
  unfold fbEnable
  exact (by (try extract_lets); split; exact (Keeps.refl _); exact (keeps_updFb ..))

theorem keeps_fbDisable (i : Nat) (s : State)  : Keeps s (fbDisable i s) := by
  unfold fbDisable
  exact (keeps_updFb ..)

theorem keeps_bodyFbEncoConfig (d : Desc) (s : State)  : Keeps s (bodyFbEncoConfig d s) := by
  unfold bodyFbEncoConfig
  exact (keeps_ite (keeps_fail ..) (keeps_ite (keeps_fail ..) (keeps_ite (keeps_fail ..) (keeps_ite (keeps_fail ..) (keeps_ite (keeps_fail ..)
      (Keeps.after (keeps_ok ..) keeps_mk))))))

theorem keeps_execFbEncoConfig (d : Desc) (s : State) : ∃ u, execFbEncoConfig d s = .next u ∧ Keeps s u := by
  unfold execFbEncoConfig
  exact ⟨_, rfl, (keeps_runDesc (h_body := (fun _ => (keeps_bodyFbEncoConfig ..))) ..)⟩

theorem keeps_encoBoundary (s : State)  : Keeps s (encoBoundary s) := by
  unfold encoBoundary
  exact (Keeps.after (keeps_encoPass ..) keeps_mk)

theorem keeps_execEncoSynthStep (j : Nat) (s : State) : ∃ u, execEncoSynthStep j s = .next u ∧ Keeps s u := by
  unfold execEncoSynthStep
  exact ⟨_, rfl, (by (try extract_lets); split; exact (Keeps.refl _); exact (keeps_ite (Keeps.refl _) (Keeps.after keeps_mk (keeps_toInstant ..))))⟩

end Sys2Proof.Machine
end

