-- ==== Sys2Proof/Laws/KeepsSystem.lean ====
section
/-! SUPPORT. `Keeps` for every operation and meaning: the legacy block, objects, life cycle, boot, island, power, trace, registers, boundaries. Each meaning answers a next state. -/

namespace Sys2Proof.Machine

/-! ## Legacy -/

theorem keeps_legEntry (s : State) : Keeps s (legEntry s) := by
  refine ⟨rfl, id, fun k => ?_⟩
  have h1 : ∀ l : List Obj, l.Pairwise (fun a b => a.idx < b.idx) → ∀ z c n, ((l.filter fun o => o.idx < legBase) ++ (List.range n).map
      (legSection z c)).Pairwise fun a b => a.idx < b.idx := by
    intro l hl z c n
    rw [List.pairwise_append]
    refine ⟨hl.filter _, ?_, ?_⟩
    · rw [List.pairwise_map]
      exact List.pairwise_lt_range.imp fun {a b} hab => Nat.add_lt_add_left hab legBase
    · intro a ha b hb
      obtain ⟨j, -, rfl⟩ := List.mem_map.1 hb
      have := (List.mem_filter.1 ha).2
      exact Nat.lt_of_lt_of_le (of_decide_eq_true this) (Nat.le_add_right legBase j)
  exact h1 s.objs k s _ 16

theorem keeps_legBoot (s : State)  : Keeps s (legBoot s) := by
  unfold legBoot
  exact (Keeps.after keeps_mk (Keeps.after (keeps_legEntry ..) keeps_mk))

theorem keeps_legDrive (k : Nat) (on : Bool) (s : State)  : Keeps s (legDrive k on s) := by
  unfold legDrive
  exact (by (try extract_lets); split; exact (Keeps.refl _); exact (keeps_ite (Keeps.refl _) (Keeps.after (keeps_ite (keeps_swOnCmd ..) (keeps_swOffCmd ..)) (keeps_updSw ..))))

theorem keeps_legWant (k : Nat) (on : Bool) (s : State)  : Keeps s (legWant k on s) := by
  unfold legWant
  exact keeps_mk

theorem keeps_legApply (k : Nat) (on : Bool) (s : State)  : Keeps s (legApply k on s) := by
  unfold legApply
  exact (Keeps.after (keeps_legDrive ..) (keeps_legWant ..))

theorem keeps_legAgain (k : Nat) (s : State)  : Keeps s (legAgain k s) := by
  unfold legAgain
  exact (by (try extract_lets); split; exact (Keeps.refl _); exact (keeps_ite (Keeps.after (keeps_legDrive ..) (keeps_updSw ..)) (Keeps.refl _)))

theorem keeps_legOutBit (k : Nat) (on : Bool) (t : Nat) (s : State)  : Keeps s (legOutBit k on t s) := by
  unfold legOutBit
  exact (keeps_ite (Keeps.refl _) (Keeps.after (keeps_ite (keeps_ite (keeps_legAgain ..) (Keeps.refl _)) keeps_mk) keeps_mk))

theorem keeps_legOutWrite (v t : Nat) (s : State)  : Keeps s (legOutWrite v t s) := by
  unfold legOutWrite
  exact (Keeps.after (keeps_foldl (fun _ _ => (Keeps.after (keeps_legOutBit ..) (keeps_ite (Keeps.refl _) (keeps_updSw ..)))) _ _) keeps_mk)

theorem keeps_legReturn (k : Nat) (s : State)  : Keeps s (legReturn k s) := by
  unfold legReturn
  exact (keeps_ite (Keeps.after keeps_mk (keeps_legWant ..)) (Keeps.refl _))

theorem keeps_legFollow (s : State)  : Keeps s (legFollow s) := by
  unfold legFollow
  exact (keeps_foldl (fun _ _ => (keeps_ite (keeps_legDrive ..) (keeps_legReturn ..))) _ _)

theorem keeps_execEnaNEdge (high : Bool) (s : State) : ∃ u, execEnaNEdge high s = .next u ∧ Keeps s u := by
  unfold execEnaNEdge
  exact ⟨_, rfl, (keeps_ite (Keeps.refl _) (Keeps.after (keeps_legFollow ..) keeps_mk))⟩

theorem keeps_legTurn (s : State)  : Keeps s (legTurn s) := by
  unfold legTurn
  exact (by (try extract_lets); split; exact (Keeps.refl _); exact (Keeps.after (keeps_legApply ..) keeps_mk))

theorem keeps_legTurns : ∀ (n : Nat) (s : State), Keeps s (legTurns s n)
  | 0, s => Keeps.refl s
  | n + 1, s => by
    unfold legTurns
    split
    · exact Keeps.refl s
    · exact (keeps_legTurn ..).trans (keeps_legTurns n _)

theorem keeps_legSticky (s : State)  : Keeps s (legSticky s) := by
  unfold legSticky
  exact keeps_mk

theorem keeps_execLegacyTick (s : State) : ∃ u, execLegacyTick s = .next u ∧ Keeps s u := by
  unfold execLegacyTick
  exact ⟨_, rfl, (keeps_ite (Keeps.refl _) (Keeps.after (keeps_legSticky ..) (Keeps.after (keeps_legTurns ..) (Keeps.after keeps_mk (Keeps.after
      (keeps_foldl (fun _ _ => (keeps_legWant ..)) _ _) (Keeps.after (keeps_foldl (fun _ _ => (keeps_legApply ..)) _ _) (Keeps.after keeps_mk
      (keeps_toInstant ..))))))))⟩

theorem keeps_legCancel (status : Nat) (s : State)  : Keeps s (legCancel status s) := by
  unfold legCancel
  exact (keeps_ite (Keeps.after (keeps_finishDeferred ..) keeps_mk) (Keeps.refl _))

theorem keeps_execLegacyComloss (s : State) : ∃ u, execLegacyComloss s = .next u ∧ Keeps s u := by
  unfold execLegacyComloss
  exact ⟨_, rfl, (keeps_ite (Keeps.refl _) (Keeps.after (keeps_legCancel ..) (Keeps.after (keeps_raise0 ..) (Keeps.after (keeps_foldl (fun _ _ =>
      (keeps_legApply ..)) _ _) (Keeps.after keeps_mk (keeps_toInstant ..))))))⟩

theorem keeps_legFail (s : State)  : Keeps s (legFail s) := by
  unfold legFail
  exact (Keeps.after (keeps_raise0 ..) keeps_mk)

theorem keeps_legUnlock (lo : Nat) (hi : Option Nat) (s : State)  : Keeps s (legUnlock lo hi s) := by
  unfold legUnlock
  exact (keeps_ite keeps_mk (keeps_legFail ..))

theorem keeps_legNewPwd (v : Nat) (s : State)  : Keeps s (legNewPwd v s) := by
  unfold legNewPwd
  exact (keeps_ite (Keeps.refl _) (keeps_ite keeps_mk keeps_mk))

theorem keeps_legSavesRun (s : State)  : Keeps s (legSavesRun s) := by
  unfold legSavesRun
  exact keeps_mk

theorem keeps_execLegacyLockoutEnd (s : State) : ∃ u, execLegacyLockoutEnd s = .next u ∧ Keeps s u := by
  unfold execLegacyLockoutEnd
  exact ⟨_, rfl, (by (try extract_lets); split; exact (Keeps.refl _); exact (Keeps.after keeps_mk (keeps_toInstant ..)))⟩

theorem keeps_bodyFsPromote (d : Desc) (s : State)  : Keeps s (bodyFsPromote d s) := by
  unfold bodyFsPromote
  exact (keeps_ite (keeps_fail ..) (keeps_ite (keeps_fail ..) (keeps_ite (keeps_fail ..) (Keeps.after (keeps_defer ..) keeps_mk))))

theorem keeps_execFsPromote (d : Desc) (s : State) : ∃ u, execFsPromote d s = .next u ∧ Keeps s u := by
  unfold execFsPromote
  exact ⟨_, rfl, (keeps_runDesc (h_body := (fun _ => (keeps_bodyFsPromote ..))) ..)⟩

theorem keeps_legKeep (k : Nat) (s : State) : Keeps s (legKeep k s).2 := by
  unfold legKeep
  split
  · next o x t _ hx =>
    have h1 : Keeps s t := keeps_takeIndex hx
    exact h1.trans ⟨rfl, id, fun q => insert_ok _ _ (List.Pairwise.filter _ q)⟩
  · exact Keeps.refl s

theorem keeps_legPromote (x : Deferred) (s : State) : Keeps s (legPromote x s) := by
  unfold legPromote
  extract_lets keep wd on r s1 x1 x2 x3 s2 s3 s4
  have h1 : Keeps s s1 := keeps_foldlP (fun r k => by
    dsimp only
    split
    · exact keeps_legKeep ..
    · exact Keeps.refl _) (List.range 16) (([] : List Nat), s)
  have h2 : Keeps s s2 := Keeps.after keeps_mkFilter h1
  have h3 : Keeps s s3 := by
    unfold s3; split
    · next t ht => exact h2.trans (keeps_ptrWrite ht)
    · exact h2
  exact h3.trans ((keeps_completeDeferred ..).trans (keeps_raise0 ..))

theorem keeps_execPromotionTakeEffect (s : State) : ∃ u, execPromotionTakeEffect s = .next u ∧ Keeps s u := by
  unfold execPromotionTakeEffect
  exact ⟨_, rfl, (by (try extract_lets); split; exact (Keeps.refl _); exact (keeps_ite (Keeps.refl _) (Keeps.after (keeps_legPromote ..) (keeps_toInstant ..))))⟩

theorem keeps_bodyFsStatus (d : Desc) (s : State)  : Keeps s (bodyFsStatus d s) := by
  unfold bodyFsStatus
  exact (keeps_writeBack ..)

theorem keeps_execFsStatus (d : Desc) (s : State) : ∃ u, execFsStatus d s = .next u ∧ Keeps s u := by
  unfold execFsStatus
  exact ⟨_, rfl, (keeps_runDesc (h_body := (fun _ => (keeps_bodyFsStatus ..))) ..)⟩

/-! ## Objects -/

theorem keeps_costReserve (o : Obj) (cost boundary tag : Nat) (s : State)  : Keeps s (costReserve o cost boundary tag s) := by
  unfold costReserve
  exact (keeps_ite (Keeps.refl _) (Keeps.after keeps_mk (keeps_ite (keeps_foldl (fun _ _ => (keeps_addLoad ..)) _ _) (Keeps.refl _))))

theorem keeps_costReserveAll (b tag : Nat) : ∀ (l : List (Obj × Nat)) (s : State) {t : State}, costReserveAll b tag l s = some t → Keeps s t
  | [], s, t, h => by cases h; exact Keeps.refl _
  | x :: xs, s, t, h => by
    unfold costReserveAll at h
    split at h
    · exact (keeps_costReserve ..).trans (keeps_costReserveAll b tag xs _ h)
    · cases h

theorem keeps_costDrop (tag : Nat) (s : State)  : Keeps s (costDrop tag s) := by
  unfold costDrop
  exact (Keeps.after keeps_mk (keeps_foldl (fun _ _ => (by (try extract_lets); split; exact (Keeps.refl _); exact (keeps_foldl (fun _ _ => (keeps_addLoad ..)) _ _))) _ _))

theorem keeps_costApply (c : CostChange) (s : State)  : Keeps s (costApply c s) := by
  unfold costApply
  exact (Keeps.after keeps_mk (by (try extract_lets); split; exact (Keeps.refl _); exact (Keeps.after (keeps_updObj _ (by intro _; rfl) _) (keeps_ite (keeps_foldl (fun _ _ => (keeps_addLoad ..)) _ _) (Keeps.refl _)))))

theorem keeps_placeRelease (o : Obj) (s : State)  : Keeps s (placeRelease o s) := by
  unfold placeRelease
  exact (Keeps.after (keeps_updObj _ (by intro _; rfl) _) (Keeps.after keeps_mk (Keeps.after (keeps_ite (Keeps.refl _) (keeps_addLoad ..))
      (keeps_abandonMove ..))))

theorem keeps_setInvert (ps : List Byte) (clear : Bool) (s : State)  : Keeps s (setInvert ps clear s) := by
  unfold setInvert
  exact (keeps_ite (Keeps.refl _) (Keeps.after (keeps_ite keeps_mk (Keeps.refl _)) keeps_mk))

theorem keeps_driverChanged (removed : Bool) (h : Nat) (s : State)  : Keeps s (driverChanged removed h s) := by
  unfold driverChanged
  exact (by (try extract_lets); split; exact (keeps_ite (Keeps.after (keeps_updPwm ..) (keeps_gateClose ..)) (keeps_gateClose ..)); exact (keeps_gateClose ..))

theorem keeps_lineRefresh (ty : Nat) (ps : List Byte) (s : State)  : Keeps s (lineRefresh ty ps s) := by
  unfold lineRefresh
  exact (keeps_ite (by (try extract_lets); split; exact (keeps_swRefresh ..); exact (Keeps.refl _)) (Keeps.refl _))

theorem keeps_sendRef (release : Bool) (ty : Nat) (m : Nat × Nat) (s : State)  : Keeps s (sendRef release ty m s) := by
  unfold sendRef
  exact keeps_mk

theorem keeps_releaseRefs (ty : Nat) (ms : List (Nat × Nat)) (s : State)  : Keeps s (releaseRefs ty ms s) := by
  unfold releaseRefs
  exact (keeps_foldl (fun _ _ => (keeps_sendRef ..)) _ _)

theorem keeps_createNow (d : Desc) (ty : Nat) (ps : List Byte) (s : State) : Keeps s (createNow d ty ps s) := by
  unfold createNow
  split
  · exact keeps_fail ..
  · next x hx =>
    extract_lets i s1 o s2 s3 s4
    have h1 : Keeps s s1 := keeps_takeIndex hx
    have h2 : Keeps s1 s2 := ⟨rfl, id, fun k => insert_ok o s1.objs k⟩
    have h3 : Keeps s2 s3 := keeps_foldl (fun _ _ => keeps_driverChanged ..) _ _
    have h4 : Keeps s3 s4 := by
      unfold s4; split
      · exact keeps_setInvert ..
      · exact Keeps.refl _
    exact (((h1.trans h2).trans h3).trans h4).trans ((keeps_lineRefresh ..).trans ((keeps_loadMark ..).trans (keeps_complete ..)))

theorem keeps_awaitRefs (d : Desc) (op h : Nat) (ps : List Byte) (ms : List (Nat × Nat)) (s : State)  : Keeps s (awaitRefs d op h ps ms s) := by
  unfold awaitRefs
  exact (Keeps.after (keeps_foldl (fun _ _ => (keeps_sendRef ..)) _ _) keeps_mk)

theorem keeps_bodyCreate (d : Desc) (s : State)  : Keeps s (bodyCreate d s) := by
  unfold bodyCreate
  exact (keeps_ite (by (try extract_lets); split; exact (keeps_failWith ..); exact (keeps_createNow ..)) (by (try extract_lets); split; exact (keeps_failWith ..); exact (keeps_ite (keeps_createNow ..) (keeps_awaitRefs ..))))

theorem keeps_execCreate (d : Desc) (s : State) : ∃ u, execCreate d s = .next u ∧ Keeps s u := by
  unfold execCreate
  exact ⟨_, rfl, (keeps_runDesc (h_body := (fun _ => (keeps_bodyCreate ..))) ..)⟩

theorem keeps_bodyDestroy (d : Desc) (o : Obj) (s : State)  : Keeps s (bodyDestroy d o s) := by
  unfold bodyDestroy
  exact (keeps_ite (keeps_fail ..) (keeps_ite (keeps_fail ..) (keeps_ite (keeps_fail ..) (Keeps.after (keeps_ok ..) (Keeps.after (keeps_lineRefresh
      ..) (Keeps.after keeps_mkFilter (Keeps.after (keeps_releaseRefs ..) (Keeps.after (keeps_ite (keeps_setInvert ..) (Keeps.refl _)) (keeps_foldl
      (fun _ _ => (keeps_driverChanged ..)) _ _)))))))))

theorem keeps_execDestroy (d : Desc) (s : State) : ∃ u, execDestroy d s = .next u ∧ Keeps s u := by
  unfold execDestroy
  exact ⟨_, rfl, (keeps_runObj (h_body := (fun _ => (fun _ => (keeps_bodyDestroy ..)))) ..)⟩

theorem keeps_applyParams (o : Obj) (ps : List Byte) (s : State)  : Keeps s (applyParams o ps s) := by
  unfold applyParams
  exact (Keeps.after (keeps_ite (Keeps.after (keeps_lineRefresh ..) (Keeps.after (keeps_lineRefresh ..) (Keeps.after (keeps_pwmRefresh ..)
      (keeps_setInvert ..)))) (Keeps.refl _)) (Keeps.after (keeps_foldl (fun _ _ => (keeps_driverChanged ..)) _ _) (Keeps.after (keeps_foldl (fun _ _
      => (keeps_driverChanged ..)) _ _) (Keeps.after (keeps_updObj _ (by intro _; rfl) _) (Keeps.after (keeps_ite (keeps_shadowPush ..) (Keeps.refl
      _)) (Keeps.after (keeps_costReserve ..) (keeps_releaseRefs ..)))))))

theorem keeps_keepLater (d : Desc) (o : Obj) (s : State)  : Keeps s (keepLater d o s) := by
  unfold keepLater
  exact (by (try extract_lets); split; exact (keeps_ite (keeps_updObj _ (by intro _; rfl) _) (Keeps.refl _)); exact (Keeps.refl _))

theorem keeps_bodySetParams (d : Desc) (o : Obj) (s : State)  : Keeps s (bodySetParams d o s) := by
  unfold bodySetParams
  exact (by (try extract_lets); split; exact (keeps_fail ..); exact (by (try extract_lets); split; exact (keeps_fail ..); exact (by (try extract_lets); split; exact (keeps_failWith ..); exact (keeps_ite (Keeps.after (keeps_ok ..) (Keeps.after (keeps_loadMark ..) (Keeps.after (keeps_keepLater ..) (keeps_applyParams ..)))) (keeps_awaitRefs ..)))))

theorem keeps_execSetParams (d : Desc) (s : State) : ∃ u, execSetParams d s = .next u ∧ Keeps s u := by
  unfold execSetParams
  exact ⟨_, rfl, (keeps_runObj (h_body := (fun _ => (fun _ => (keeps_bodySetParams ..)))) ..)⟩

theorem keeps_bodyGetParams (d : Desc) (o : Obj) (s : State)  : Keeps s (bodyGetParams d o s) := by
  unfold bodyGetParams
  exact (keeps_ite (keeps_fail ..) (keeps_writeBack ..))

theorem keeps_execGetParams (d : Desc) (s : State) : ∃ u, execGetParams d s = .next u ∧ Keeps s u := by
  unfold execGetParams
  exact ⟨_, rfl, (keeps_runObj (h_body := (fun _ => (fun _ => (keeps_bodyGetParams ..)))) ..)⟩

theorem keeps_refsDone (w : RefWait) (s : State)  : Keeps s (refsDone w s) := by
  unfold refsDone
  exact (keeps_ite (by (try extract_lets); split; exact (Keeps.after (keeps_failWith ..) (Keeps.after (keeps_releaseRefs ..) keeps_mk)); exact (Keeps.after (keeps_createNow ..) keeps_mk)) (by (try extract_lets); split; exact (Keeps.after (keeps_fail ..) keeps_mk); exact (by (try extract_lets); split; exact (Keeps.after (keeps_failWith ..) (Keeps.after (keeps_releaseRefs ..) keeps_mk)); exact (Keeps.after (keeps_ok ..) (Keeps.after (keeps_loadMark ..) (Keeps.after (keeps_keepLater ..) (Keeps.after (keeps_applyParams ..) keeps_mk)))))))

theorem keeps_refsFail (w : RefWait) (pos status : Nat) (s : State)  : Keeps s (refsFail w pos status s) := by
  unfold refsFail
  exact (Keeps.after (keeps_failWith ..) (Keeps.after (keeps_releaseRefs ..) keeps_mk))

theorem keeps_refReplied (pos h status : Nat) (s : State)  : Keeps s (refReplied pos h status s) := by
  unfold refReplied
  exact (by (try extract_lets); split; exact (Keeps.refl _); exact (keeps_ite (keeps_refsFail ..) (Keeps.after (keeps_ite (keeps_refsDone ..) (Keeps.refl _)) keeps_mk)))

theorem keeps_execClusterRefTimeout (h pos : Nat) (s : State) : ∃ u, execClusterRefTimeout h pos s = .next u ∧ Keeps s u := by
  unfold execClusterRefTimeout
  exact ⟨_, rfl, (by (try extract_lets); split; exact (Keeps.refl _); exact (Keeps.after (keeps_refsFail ..) (keeps_toInstant ..)))⟩

theorem keeps_bodyGetStatus (d : Desc) (o : Obj) (s : State)  : Keeps s (bodyGetStatus d o s) := by
  unfold bodyGetStatus
  exact (keeps_writeBack ..)

theorem keeps_execGetStatus (d : Desc) (s : State) : ∃ u, execGetStatus d s = .next u ∧ Keeps s u := by
  unfold execGetStatus
  exact ⟨_, rfl, (keeps_runObj (h_body := (fun _ => (fun _ => (keeps_bodyGetStatus ..)))) ..)⟩

/-! ## Lifecycle -/

theorem keeps_placeJob (o : Obj) (s : State) : Keeps s (placeJob o s).2 := by
  unfold placeJob
  exact (keeps_ite2 (Keeps.refl _) (keeps_ite2 (Keeps.refl _) (by (try extract_lets); split; exact (Keeps.refl _); exact (Keeps.after (keeps_updObj _ (by intro _; rfl) _) (keeps_addLoad ..)))))

theorem keeps_setDispPwm (ps : List Byte) (on : Bool) (s : State)  : Keeps s (setDispPwm ps on s) := by
  unfold setDispPwm
  exact (keeps_ite (Keeps.refl _) (Keeps.after (keeps_ite keeps_mk (Keeps.refl _)) keeps_mk))

theorem keeps_pwmEnable (i : Nat) (s : State)  : Keeps s (pwmEnable i s) := by
  unfold pwmEnable
  exact (by (try extract_lets); split; exact (Keeps.refl _); exact (by (try extract_lets); split; exact (Keeps.after (keeps_tripFault ..) (keeps_ite (Keeps.after (keeps_pwmGateOpen ..) (Keeps.after (keeps_pwmRefresh ..) (Keeps.after (keeps_updPwm ..) (keeps_setDispPwm ..)))) (Keeps.after (keeps_pwmRefresh ..) (Keeps.after (keeps_updPwm ..) (keeps_setDispPwm ..))))); exact (keeps_ite (Keeps.after (keeps_pwmGateOpen ..) (Keeps.after (keeps_pwmRefresh ..) (Keeps.after (keeps_updPwm ..) (keeps_setDispPwm ..)))) (Keeps.after (keeps_pwmRefresh ..) (Keeps.after (keeps_updPwm ..) (keeps_setDispPwm ..))))))

theorem keeps_pwmDisable (i : Nat) (s : State)  : Keeps s (pwmDisable i s) := by
  unfold pwmDisable
  exact (by (try extract_lets); split; exact (Keeps.refl _); exact (Keeps.after (keeps_pwmRefresh ..) (Keeps.after (keeps_updPwm ..) (Keeps.after (keeps_pwmGateClose ..) (keeps_setDispPwm ..)))))

theorem keeps_swEnable (i : Nat) (s : State)  : Keeps s (swEnable i s) := by
  unfold swEnable
  exact (by (try extract_lets); split; exact (Keeps.refl _); exact (Keeps.after (keeps_swRefresh ..) (Keeps.after (keeps_ite (keeps_raise0 ..) (Keeps.refl _)) (Keeps.after (keeps_ite (keeps_swInEdge ..) (Keeps.refl _)) (Keeps.after (keeps_ite (keeps_updSw ..) (Keeps.refl _)) (Keeps.after (keeps_updSw ..) keeps_mk))))))

theorem keeps_swDisable (i : Nat) (s : State)  : Keeps s (swDisable i s) := by
  unfold swDisable
  exact (by (try extract_lets); split; exact (Keeps.refl _); exact (Keeps.after (keeps_swOffCmd ..) (Keeps.after (keeps_updSw ..) keeps_mk)))

theorem keeps_solEnable (i : Nat) (s : State)  : Keeps s (solEnable i s) := by
  unfold solEnable
  exact (keeps_updSol ..)

theorem keeps_typeEnable (b : Nat) (o : Obj) (s : State)  : Keeps s (typeEnable b o s) := by
  unfold typeEnable
  exact (keeps_ite (keeps_pwmEnable ..) (keeps_ite (keeps_swEnable ..) (keeps_ite (keeps_solEnable ..) (keeps_ite (keeps_chanEnable ..) (keeps_ite (keeps_sectEnable ..) (keeps_ite (keeps_loopEnable ..) (keeps_ite (keeps_axEnable ..) (keeps_ite (keeps_fbEnable ..) (keeps_ite (keeps_canEnable ..) (keeps_ite (by (try extract_lets); split; exact (keeps_geoStart ..); exact (Keeps.refl _)) (Keeps.refl _)))))))))))

theorem keeps_dropDeferred (op h status : Nat) (s : State)  : Keeps s (dropDeferred op h status s) := by
  unfold dropDeferred
  exact (keeps_foldl (fun _ _ => (keeps_completeDeferred ..)) _ _)

theorem keeps_typeDisable (o : Obj) (s : State)  : Keeps s (typeDisable o s) := by
  unfold typeDisable
  exact (keeps_ite (keeps_pwmDisable ..) (keeps_ite (keeps_swDisable ..) (keeps_ite (keeps_solOff ..) (keeps_ite (keeps_chanDisable ..) (keeps_ite
      (keeps_sectDisable ..) (keeps_ite (Keeps.after (keeps_dropDeferred ..) (Keeps.after (keeps_dropDeferred ..) (keeps_loopDisable ..))) (keeps_ite
      (keeps_axDisable ..) (keeps_ite (keeps_fbDisable ..) (keeps_ite (keeps_canDisable ..) (Keeps.refl _))))))))))

theorem keeps_enableObj (b i : Nat) (s : State)  : Keeps s (enableObj b i s) := by
  unfold enableObj
  exact (by (try extract_lets); split; exact (Keeps.refl _); exact (Keeps.after (keeps_typeEnable ..) (Keeps.after (keeps_setOst ..) (keeps_updObj _ (by intro _; rfl) _))))

theorem keeps_disableObj (i : Nat) (s : State)  : Keeps s (disableObj i s) := by
  unfold disableObj
  exact (by (try extract_lets); split; exact (Keeps.refl _); exact (Keeps.after (keeps_ite (keeps_pwmRefresh ..) (Keeps.refl _)) (Keeps.after (keeps_updObj _ (by intro _; rfl) _) (Keeps.after (keeps_typeDisable ..) (Keeps.after (keeps_setOst ..) (keeps_placeRelease ..))))))

theorem keeps_enableRun : ∀ (n : Nat) (x : Deferred) (s : State), Keeps s (enableRun n x s)
  | 0, _, s => Keeps.refl s
  | n + 1, x, s => by
    unfold enableRun
    extract_lets first s1
    have h1 : Keeps s s1 := keeps_foldl (fun s y => keeps_enableRun n y s) _ _
    split
    · exact h1
    · split
      · exact h1.trans (keeps_completeDeferred ..)
      · split
        · exact h1.trans (keeps_completeDeferred ..)
        · split
          · exact h1.trans ((keeps_placeRelease ..).trans (keeps_completeDeferred ..))
          · extract_lets p
            have hp : Keeps s p.2 := by
              unfold p; split
              · exact h1
              · exact h1.trans ((keeps_placeRelease ..).trans (keeps_placeJob ..))
            split
            · exact hp.trans (keeps_completeDeferred ..)
            · exact hp.trans ((keeps_enableObj ..).trans ((keeps_loadMark ..).trans (keeps_completeDeferred ..)))

theorem keeps_lockSend (m : LockMsg) (s : State)  : Keeps s (lockSend m s) := by
  unfold lockSend
  exact keeps_mk

theorem keeps_lockPump (s : State)  : Keeps s (lockPump s) := by
  unfold lockPump
  exact (keeps_foldl (fun _ _ => (keeps_lockSend ..)) _ _)

theorem keeps_lockPost (g : Obj) (kind b : Nat) (s : State)  : Keeps s (lockPost g kind b s) := by
  unfold lockPost
  exact (keeps_ite (Keeps.refl _) (Keeps.after (keeps_lockPump ..) keeps_mk))

theorem keeps_placeAll : ∀ (l : List Obj) (s : State), Keeps s (placeAll l s).2
  | [], s => Keeps.refl s
  | o :: os, s => by
    unfold placeAll
    extract_lets p q
    have hp : Keeps s p.2 := keeps_placeJob ..
    split
    · exact hp
    · have hq : Keeps s q.2 := hp.trans (keeps_placeAll os _)
      split
      · exact hq
      · dsimp only
        split
        · exact hq.trans (keeps_placeRelease ..)
        · exact hq

theorem keeps_groupEnable (d : Desc) (g : Obj) (s : State) : Keeps s (groupEnable d g s) := by
  unfold groupEnable
  extract_lets os p b
  split
  · exact keeps_fail ..
  · split
    · exact keeps_fail ..
    · have hp : Keeps s p.2 := keeps_placeAll ..
      split
      · exact hp.trans (keeps_fail ..)
      · exact hp.trans ((keeps_defer ..).trans (keeps_lockPost ..))

theorem keeps_membersEnable (b : Nat) (os : List Obj) (s : State) : Keeps s (membersEnable b os s).2 := by
  unfold membersEnable
  extract_lets first s1 bad p
  have h1 : Keeps s s1 := keeps_foldl (fun s y => keeps_ite (keeps_enableRun ..) (Keeps.refl _)) _ _
  have rel : ∀ s, Keeps s (os.foldl (fun s o => placeRelease o s) s) := fun s => keeps_foldl (fun _ _ => keeps_placeRelease ..) _ _
  split
  · exact h1.trans (rel _)
  · have hp : Keeps s p.2 := h1.trans (Keeps.trans (keeps_foldl (fun _ _ => keeps_placeRelease ..) _ _) (keeps_placeAll ..))
    split
    · exact hp.trans (rel _)
    · exact hp.trans (keeps_foldl (fun _ _ => keeps_enableObj ..) _ _)

theorem keeps_groupEnableRun (x : Deferred) (s : State) : Keeps s (groupEnableRun x s) := by
  unfold groupEnableRun
  split
  · exact keeps_completeDeferred ..
  · extract_lets r
    have hr : Keeps s r.2 := keeps_membersEnable ..
    split
    · exact hr.trans (keeps_completeDeferred ..)
    · exact hr.trans (keeps_completeDeferred ..)

theorem keeps_bodyEnable (d : Desc) (o : Obj) (s : State)  : Keeps s (bodyEnable d o s) := by
  unfold bodyEnable
  exact (keeps_ite (keeps_groupEnable ..) (keeps_ite (keeps_fail ..) (by (try extract_lets); split; exact (keeps_fail ..); exact (keeps_ite (Keeps.after (keeps_fail ..) (keeps_placeJob ..)) (Keeps.after (keeps_defer ..) (keeps_placeJob ..))))))

theorem keeps_execEnable (d : Desc) (s : State) : ∃ u, execEnable d s = .next u ∧ Keeps s u := by
  unfold execEnable
  exact ⟨_, rfl, (keeps_runObj (h_body := (fun _ => (fun _ => (keeps_bodyEnable ..)))) ..)⟩

theorem keeps_execEnableTakeEffect (h : Nat) (s : State) : ∃ u, execEnableTakeEffect h s = .next u ∧ Keeps s u := by
  unfold execEnableTakeEffect
  exact ⟨_, rfl, (by (try extract_lets); split; exact (Keeps.refl _); exact (Keeps.after (keeps_ite (keeps_groupEnableRun ..) (keeps_enableRun ..)) (keeps_toInstant ..)))⟩

theorem keeps_disableRun : ∀ (n : Nat) (x : Deferred) (s : State), Keeps s (disableRun n x s)
  | 0, _, s => Keeps.refl s
  | n + 1, x, s => by
    unfold disableRun
    extract_lets users s1
    have h1 : Keeps s s1 := keeps_foldl (fun s y => keeps_disableRun n y s) _ _
    split
    · exact h1
    · split
      · exact h1.trans (keeps_completeDeferred ..)
      · split
        · exact h1.trans (keeps_completeDeferred ..)
        · exact h1.trans ((keeps_disableObj ..).trans (keeps_completeDeferred ..))

theorem keeps_groupDisableRun (x : Deferred) (s : State)  : Keeps s (groupDisableRun x s) := by
  unfold groupDisableRun
  exact (by (try extract_lets); split; exact (keeps_completeDeferred ..); exact (keeps_ite (keeps_completeDeferred ..) (Keeps.after (keeps_completeDeferred ..) (keeps_foldl (fun _ _ => (keeps_disableObj ..)) _ _))))

theorem keeps_bodyDisable (d : Desc) (o : Obj) (s : State)  : Keeps s (bodyDisable d o s) := by
  unfold bodyDisable
  exact (keeps_ite (keeps_ite (keeps_fail ..) (Keeps.after (keeps_lockPost ..) (keeps_defer ..))) (keeps_ite (keeps_fail ..) (keeps_defer ..)))

theorem keeps_execDisable (d : Desc) (s : State) : ∃ u, execDisable d s = .next u ∧ Keeps s u := by
  unfold execDisable
  exact ⟨_, rfl, (keeps_runObj (h_body := (fun _ => (fun _ => (keeps_bodyDisable ..)))) ..)⟩

theorem keeps_execDisableTakeEffect (h : Nat) (s : State) : ∃ u, execDisableTakeEffect h s = .next u ∧ Keeps s u := by
  unfold execDisableTakeEffect
  exact ⟨_, rfl, (by (try extract_lets); split; exact (Keeps.refl _); exact (Keeps.after (keeps_ite (keeps_groupDisableRun ..) (keeps_disableRun ..)) (keeps_toInstant ..)))⟩

theorem keeps_bodyStageParams (d : Desc) (o : Obj) (s : State)  : Keeps s (bodyStageParams d o s) := by
  unfold bodyStageParams
  exact (keeps_ite (keeps_fail ..) (by (try extract_lets); split; exact (keeps_fail ..); exact (by (try extract_lets); split; exact (keeps_fail ..); exact (by (try extract_lets); split; exact (keeps_failWith ..); exact (Keeps.after (keeps_ok ..) (Keeps.after (keeps_updObj _ (by intro _; rfl) _) (keeps_costReserve ..)))))))

theorem keeps_execStageParams (d : Desc) (s : State) : ∃ u, execStageParams d s = .next u ∧ Keeps s u := by
  unfold execStageParams
  exact ⟨_, rfl, (keeps_runObj (h_body := (fun _ => (fun _ => (keeps_bodyStageParams ..)))) ..)⟩

theorem keeps_commitApply (o : Obj) (s : State)  : Keeps s (commitApply o s) := by
  unfold commitApply
  exact (by (try extract_lets); split; exact (Keeps.after (keeps_updObj _ (by intro _; rfl) _) (Keeps.after (keeps_applyParams ..) (keeps_foldl (fun _ _ => (keeps_costApply ..)) _ _))); exact (keeps_foldl (fun _ _ => (keeps_costApply ..)) _ _))

theorem keeps_bodyGroupCommit (d : Desc) (g : Obj) (s : State) : Keeps s (bodyGroupCommit d g s) := by
  unfold bodyGroupCommit
  extract_lets os b cs
  split
  · exact keeps_fail ..
  · split
    · exact keeps_failWith ..
    · split
      · exact keeps_fail ..
      · next t h => exact (keeps_costReserveAll _ _ _ _ h).trans ((keeps_defer ..).trans (keeps_lockPost ..))

theorem keeps_execGroupCommit (d : Desc) (s : State) : ∃ u, execGroupCommit d s = .next u ∧ Keeps s u := by
  unfold execGroupCommit
  exact ⟨_, rfl, (keeps_runObj (h_body := (fun _ => (fun _ => (keeps_bodyGroupCommit ..)))) ..)⟩

theorem keeps_execGroupCommitTakeEffect (h : Nat) (s : State) : ∃ u, execGroupCommitTakeEffect h s = .next u ∧ Keeps s u := by
  unfold execGroupCommitTakeEffect
  exact ⟨_, rfl, (by (try extract_lets); split; exact (Keeps.refl _); exact (by (try extract_lets); split; exact (Keeps.after (keeps_completeDeferred ..) (Keeps.after (keeps_foldl (fun _ _ => (keeps_costApply ..)) _ _) (keeps_toInstant ..))); exact (Keeps.after (keeps_completeDeferred ..) (Keeps.after (keeps_foldl (fun _ _ => (keeps_commitApply ..)) _ _) (Keeps.after (keeps_foldl (fun _ _ => (keeps_costApply ..)) _ _) (keeps_toInstant ..))))))⟩

theorem keeps_lockReceive (m : LockMsg) (s : State)  : Keeps s (lockReceive m s) := by
  unfold lockReceive
  exact keeps_mk

theorem keeps_execGroupLockMessage (group kind boundary : Nat) (members : List Nat) (s : State) : ∃ u, execGroupLockMessage group kind boundary
    members s = .next u ∧ Keeps s u := by
  unfold execGroupLockMessage
  exact ⟨_, rfl, (keeps_ite (Keeps.refl _) (keeps_lockReceive ..))⟩

theorem keeps_lockEnable (b : Nat) (os : List Obj) (s : State) : Keeps s (lockEnable b os s) := by
  unfold lockEnable
  extract_lets os' p
  have hp : Keeps s p.2 := keeps_placeAll ..
  split
  · exact hp
  · exact hp.trans (keeps_membersEnable ..)

theorem keeps_lockApply (m : LockMsg) (s : State)  : Keeps s (lockApply m s) := by
  unfold lockApply
  exact (Keeps.after (keeps_ite (keeps_foldl (fun _ _ => (keeps_commitApply ..)) _ _) (keeps_ite (keeps_lockEnable ..) (keeps_foldl (fun _ _ =>
      (keeps_disableObj ..)) _ _))) keeps_mk)

theorem keeps_lockBoundary (b : Nat) (s : State)  : Keeps s (lockBoundary b s) := by
  unfold lockBoundary
  exact (keeps_foldl (fun _ _ => (keeps_lockApply ..)) _ _)

theorem keeps_groupBroken (g : Obj) (pos : Nat) (s : State)  : Keeps s (groupBroken g pos s) := by
  unfold groupBroken
  exact (Keeps.after (keeps_foldl (fun _ _ => (keeps_class1 ..)) _ _) (keeps_foldl (fun _ _ => (keeps_ite (Keeps.refl _) (keeps_sendFault ..))) _ _))

theorem keeps_execGroupLockUnacked (h pos : Nat) (s : State) : ∃ u, execGroupLockUnacked h pos s = .next u ∧ Keeps s u := by
  unfold execGroupLockUnacked
  exact ⟨_, rfl, (by (try extract_lets); split; exact (Keeps.refl _); exact (by (try extract_lets); split; exact (Keeps.refl _); exact (Keeps.after (keeps_groupBroken ..) (Keeps.after (keeps_toInstant ..) keeps_mk))))⟩

theorem keeps_dropEdges (cmd : Nat) (s : State)  : Keeps s (dropEdges cmd s) := by
  unfold dropEdges
  exact (keeps_foldl (fun _ _ => (keeps_updChan ..)) _ _)

theorem keeps_cancelEffect (x : Deferred) (s : State) : Keeps s (cancelEffect x s) := by
  unfold cancelEffect
  extract_lets onObj
  have on (f : Obj → State → State) (h : ∀ o s, Keeps s (f o s)) : Keeps s (onObj f s) := by
    unfold onObj
    split
    · exact h _ _
    · exact Keeps.refl s
  clear_value onObj
  exact keeps_ite
    (on _ fun _ _ => keeps_ite (keeps_foldl (fun _ _ => keeps_placeRelease ..) _ _) (keeps_ite (keeps_placeRelease ..) (Keeps.refl _)))
    (keeps_ite (keeps_costDrop ..) (keeps_ite keeps_mk (keeps_ite (on _ fun _ _ => keeps_updLayer ..) (keeps_ite (on _ fun _ _ => keeps_updLayer ..)
      (keeps_ite (keeps_dropEdges ..) (keeps_ite (Keeps.after (keeps_dropEdges ..) keeps_mk) (keeps_ite (on _ fun _ _ => keeps_updAx ..)
        (keeps_ite (on _ fun _ _ => Keeps.after (keeps_axStop ..) (keeps_updAx ..)) (keeps_ite (on _ fun _ _ => keeps_updTx ..)
          (keeps_ite keeps_mk (Keeps.refl s)))))))))))

theorem keeps_bodyAbort (d : Desc) (s : State)  : Keeps s (bodyAbort d s) := by
  unfold bodyAbort
  exact (keeps_ite (keeps_fail ..) (by (try extract_lets); split; exact (keeps_okWith ..); exact (keeps_ite (Keeps.after (keeps_okWith ..) (keeps_abandonMove ..)) (Keeps.after (keeps_okWith ..) (Keeps.after (keeps_cancelEffect ..) (keeps_completeDeferred ..))))))

theorem keeps_execAbort (d : Desc) (s : State) : ∃ u, execAbort d s = .next u ∧ Keeps s u := by
  unfold execAbort
  exact ⟨_, rfl, (keeps_runDesc (h_body := (fun _ => (keeps_bodyAbort ..))) ..)⟩

theorem keeps_execJobMove (d : Desc) (s : State) : ∃ u, execJobMove d s = .next u ∧ Keeps s u := by
  unfold execJobMove
  exact ⟨_, rfl, (keeps_runObj (h_body := (fun _ => (fun _ => (keeps_bodyJobMove ..)))) ..)⟩

theorem keeps_execEngineStatus (d : Desc) (s : State) : ∃ u, execEngineStatus d s = .next u ∧ Keeps s u := by
  unfold execEngineStatus
  exact ⟨_, rfl, (keeps_runDesc (h_body := (fun _ => (keeps_bodyEngineStatus ..))) ..)⟩

theorem keeps_execEngineRestore (d : Desc) (pass : Bool) (s : State) : ∃ u, execEngineRestore d pass s = .next u ∧ Keeps s u := by
  unfold execEngineRestore
  exact ⟨_, rfl, (keeps_runDesc (h_body := (fun _ => (keeps_bodyEngineRestore ..))) ..)⟩

/-! ## TableStore -/

theorem keeps_swapObj (old new : Nat) (img : List Byte) (o : Obj) (s : State)  : Keeps s (swapObj old new img o s) := by
  unfold swapObj
  exact (Keeps.after (keeps_foldl (fun _ _ => (keeps_raiseE ..)) _ _) (Keeps.after (keeps_ite (keeps_updCan ..) (Keeps.refl _)) (keeps_updObj _
      (by intro _; rfl) _)))

theorem keeps_bodyTableSwap (d : Desc) (o : Obj) (s : State) : Keeps s (bodyTableSwap d o s) := by
  unfold bodyTableSwap
  extract_lets new req t
  split
  · exact keeps_failWith ..
  · split
    · exact keeps_fail ..
    · split
      · exact keeps_fail ..
      · next u h => exact (keeps_costReserveAll _ _ _ _ h).trans (keeps_defer ..)

theorem keeps_execTableSwap (d : Desc) (s : State) : ∃ u, execTableSwap d s = .next u ∧ Keeps s u := by
  unfold execTableSwap
  exact ⟨_, rfl, (keeps_runObj (h_body := (fun _ => (fun _ => (keeps_bodyTableSwap ..)))) ..)⟩

theorem keeps_execTableSwapTakeEffect (h : Nat) (s : State) : ∃ u, execTableSwapTakeEffect h s = .next u ∧ Keeps s u := by
  unfold execTableSwapTakeEffect
  exact ⟨_, rfl, (by (try extract_lets); split; exact (Keeps.refl _); exact (by (try extract_lets); split; exact (Keeps.after (keeps_completeDeferred ..) (Keeps.after (keeps_foldl (fun _ _ => (keeps_costApply ..)) _ _) (keeps_toInstant ..))); exact (Keeps.after (keeps_completeDeferred ..) (Keeps.after (keeps_raise0 ..) (Keeps.after (keeps_foldl (fun _ _ => (keeps_swapObj ..)) _ _) (Keeps.after keeps_mk (Keeps.after (keeps_foldl (fun _ _ => (keeps_costApply ..)) _ _) (keeps_toInstant ..))))))))⟩

theorem keeps_storePut (key : Nat) (img : Option (List Byte)) (s : State)  : Keeps s (storePut key img s) := by
  unfold storePut
  exact keeps_mk

theorem keeps_storeBegin (d : Desc) (op h key : Nat) (img : Option (List Byte)) (s : State)  : Keeps s (storeBegin d op h key img s) := by
  unfold storeBegin
  exact (Keeps.after (keeps_ite (keeps_defer ..) (Keeps.refl _)) keeps_mk)

theorem keeps_storeResume (s : State)  : Keeps s (storeResume s) := by
  unfold storeResume
  exact keeps_mk

theorem keeps_bodyTableSave (d : Desc) (o : Obj) (s : State)  : Keeps s (bodyTableSave d o s) := by
  unfold bodyTableSave
  exact (keeps_ite (keeps_fail ..) (keeps_ite (keeps_fail ..) (keeps_storeBegin ..)))

theorem keeps_execTableSave (d : Desc) (s : State) : ∃ u, execTableSave d s = .next u ∧ Keeps s u := by
  unfold execTableSave
  exact ⟨_, rfl, (keeps_runObj (h_body := (fun _ => (fun _ => (keeps_bodyTableSave ..)))) ..)⟩

theorem keeps_bodyTableErase (d : Desc) (s : State)  : Keeps s (bodyTableErase d s) := by
  unfold bodyTableErase
  exact (keeps_ite (keeps_fail ..) (keeps_ite (keeps_fail ..) (keeps_storeBegin ..)))

theorem keeps_execTableErase (d : Desc) (s : State) : ∃ u, execTableErase d s = .next u ∧ Keeps s u := by
  unfold execTableErase
  exact ⟨_, rfl, (keeps_runDesc (h_body := (fun _ => (keeps_bodyTableErase ..))) ..)⟩

theorem keeps_storeDone (x : TabSave) (s : State)  : Keeps s (storeDone x s) := by
  unfold storeDone
  exact (by (try extract_lets); split; exact (Keeps.after (keeps_completeDeferred ..) (Keeps.after (keeps_storePut ..) keeps_mk)); exact (Keeps.after (keeps_ok ..) (Keeps.after (keeps_storePut ..) keeps_mk)))

theorem keeps_execTableSaveWritten (key : Nat) (s : State) : ∃ u, execTableSaveWritten key s = .next u ∧ Keeps s u := by
  unfold execTableSaveWritten
  exact ⟨_, rfl, (by (try extract_lets); split; exact (Keeps.refl _); exact (keeps_ite (keeps_storeDone ..) (Keeps.refl _)))⟩

theorem keeps_bodyTableRestore (d : Desc) (s : State)  : Keeps s (bodyTableRestore d s) := by
  unfold bodyTableRestore
  exact (keeps_ite (keeps_fail ..) (by (try extract_lets); split; exact (keeps_fail ..); exact (by (try extract_lets); split; exact (keeps_failWith ..); exact (keeps_createNow ..))))

theorem keeps_execTableRestore (d : Desc) (s : State) : ∃ u, execTableRestore d s = .next u ∧ Keeps s u := by
  unfold execTableRestore
  exact ⟨_, rfl, (keeps_runDesc (h_body := (fun _ => (keeps_bodyTableRestore ..))) ..)⟩

theorem keeps_bodyTableList (d : Desc) (s : State)  : Keeps s (bodyTableList d s) := by
  unfold bodyTableList
  exact (keeps_writeBack ..)

theorem keeps_execTableList (d : Desc) (s : State) : ∃ u, execTableList d s = .next u ∧ Keeps s u := by
  unfold execTableList
  exact ⟨_, rfl, (keeps_runDesc (h_body := (fun _ => (keeps_bodyTableList ..))) ..)⟩

/-! ## Boot -/

theorem keeps_mramRevert (s : State)  : Keeps s (mramRevert s) := by
  unfold mramRevert
  exact (by (try extract_lets); split; exact (Keeps.refl _); exact keeps_mk)

theorem keepMram_pending (s f : State) : (keepMram s f).pending = s.pending := rfl

theorem keeps_keepMram (s : State) : Keeps s (keepMram s {}) := ⟨rfl, fun h => ⟨rfl, h.2⟩, fun _ => List.Pairwise.nil⟩

theorem keeps_keepIsland (s f : State) : Keeps f (keepIsland s f) := ⟨rfl, id, id⟩

theorem keeps_bootFailed (err : Nat) (s : State)  : Keeps s (bootFailed err s) := by
  unfold bootFailed
  exact (keeps_ite (Keeps.refl _) keeps_mk)

theorem keeps_dieReset (cause code err : Nat) (s : State)  : Keeps s (dieReset cause code err s) := by
  unfold dieReset
  exact (Keeps.after keeps_mk (Keeps.after (keeps_keepIsland ..) (Keeps.after (keeps_keepMram ..) (Keeps.after keeps_mk (Keeps.after (keeps_logWrite
      ..) (Keeps.after keeps_mk (Keeps.after (keeps_bootFailed ..) (keeps_mramRevert ..))))))))

theorem keeps_gaspLost (s : State)  : Keeps s (gaspLost s) := by
  unfold gaspLost
  exact (keeps_ite (Keeps.refl _) (keeps_ite (keeps_takeFree ..) (Keeps.after keeps_mk (keeps_takeFree ..))))

theorem keeps_brownOut (s : State)  : Keeps s (brownOut s) := by
  unfold brownOut
  exact (Keeps.after keeps_mk (Keeps.after (keeps_keepIsland ..) (Keeps.after (keeps_keepMram ..) (Keeps.after (keeps_bootFailed ..) (Keeps.after
      (keeps_mramRevert ..) (keeps_gaspLost ..))))))

theorem keeps_execBrownOutReset (s : State) : ∃ u, execBrownOutReset s = .next u ∧ Keeps s u := by
  unfold execBrownOutReset
  exact ⟨_, rfl, (keeps_brownOut ..)⟩

theorem keeps_execPowerOnReset (s : State) : ∃ u, execPowerOnReset s = .next u ∧ Keeps s u := by
  unfold execPowerOnReset
  exact ⟨_, rfl, (Keeps.after keeps_mk (Keeps.after (keeps_keepMram ..) (Keeps.after (keeps_bootFailed ..) (keeps_mramRevert ..))))⟩

theorem keeps_execResetNLow (s : State) : ∃ u, execResetNLow s = .next u ∧ Keeps s u := by
  unfold execResetNLow
  exact ⟨_, rfl, (keeps_dieReset ..)⟩

theorem keeps_execSoftResetStart (s : State) : ∃ u, execSoftResetStart s = .next u ∧ Keeps s u := by
  unfold execSoftResetStart
  exact ⟨_, rfl, (by (try extract_lets); split; exact (Keeps.refl _); exact (Keeps.after (keeps_dieReset ..) (keeps_toInstant ..)))⟩

theorem keeps_execHoldTimerExpiry (s : State) : ∃ u, execHoldTimerExpiry s = .next u ∧ Keeps s u := by
  unfold execHoldTimerExpiry
  exact ⟨_, rfl, (by (try extract_lets); split; exact (Keeps.refl _); exact (keeps_ite (Keeps.refl _) (Keeps.after (keeps_raise0 ..) (Keeps.after keeps_mk (keeps_toInstant ..)))))⟩

theorem keeps_bareKing (reason : Nat) (s : State)  : Keeps s (bareKing reason s) := by
  unfold bareKing
  exact keeps_mk

theorem keeps_execResetRelease (straps : Nat) (s : State) : ∃ u, execResetRelease straps s = .next u ∧ Keeps s u := by
  unfold execResetRelease
  exact ⟨_, rfl, (keeps_ite (Keeps.refl _) (Keeps.after (keeps_ite (keeps_bareKing ..) (keeps_ite (keeps_bareKing ..) keeps_mk)) keeps_mk))⟩

theorem keeps_report (b : Bool) (stage err : Nat) (s : State)  : Keeps s (report b stage err s) := by
  unfold report
  exact keeps_mk

theorem keeps_verify (s : State)  : Keeps s (verify s) := by
  unfold verify
  exact (by (try extract_lets); split; exact (Keeps.after (keeps_report ..) (Keeps.after keeps_mk keeps_mk)); exact (by (try extract_lets); split; exact (Keeps.after (keeps_raise0 ..) (Keeps.after (keeps_report ..) (Keeps.after keeps_mk (Keeps.after keeps_mk (Keeps.after (keeps_report ..) keeps_mk))))); exact (Keeps.after (keeps_bareKing ..) (Keeps.after keeps_mk (Keeps.after (keeps_report ..) (Keeps.after keeps_mk (Keeps.after (keeps_report ..) keeps_mk)))))))

theorem keeps_execBootStageComplete (t : Nat) (s : State) : ∃ u, execBootStageComplete t s = .next u ∧ Keeps s u := by
  unfold execBootStageComplete
  exact ⟨_, rfl, (keeps_ite (Keeps.refl _) (Keeps.after (keeps_ite (keeps_verify ..) (Keeps.after (keeps_ite (keeps_report ..) (Keeps.refl _))
      keeps_mk)) (keeps_toInstant ..)))⟩

theorem keeps_execBootStageFail (err alg : Nat) (s : State) : ∃ u, execBootStageFail err alg s = .next u ∧ Keeps s u := by
  unfold execBootStageFail
  exact ⟨_, rfl, (keeps_ite (Keeps.refl _) (Keeps.after (keeps_dieReset ..) (keeps_ite (keeps_logWrite ..) (Keeps.refl _))))⟩

theorem keeps_vbatEvent (code g enter mv : Nat) (s : State)  : Keeps s (vbatEvent code g enter mv s) := by
  unfold vbatEvent
  exact (keeps_ite (Keeps.refl _) (keeps_raise0 ..))

theorem keeps_vbatAtBoot (s : State)  : Keeps s (vbatAtBoot s) := by
  unfold vbatAtBoot
  exact (keeps_foldl (fun _ _ => (Keeps.after (keeps_ite (keeps_vbatEvent ..) (Keeps.refl _)) (Keeps.after (keeps_ite (keeps_vbatEvent ..)
      (Keeps.refl _)) (keeps_ite (keeps_vbatEvent ..) (Keeps.refl _))))) _ _)

theorem keeps_resetEvent (s : State)  : Keeps s (resetEvent s) := by
  unfold resetEvent
  exact (Keeps.after (keeps_raisePlain ..) (keeps_ite (Keeps.refl _) (keeps_logWrite ..)))

theorem keeps_wdtPauseSync (s : State)  : Keeps s (wdtPauseSync s) := by
  unfold wdtPauseSync
  exact (by (try extract_lets); split; exact keeps_mk; exact keeps_mk; exact (Keeps.refl _))

theorem keeps_wdtRestart (s : State)  : Keeps s (wdtRestart s) := by
  unfold wdtRestart
  exact keeps_mk

theorem keeps_execEndOfBoot (t : Nat) (s : State) : ∃ u, execEndOfBoot t s = .next u ∧ Keeps s u := by
  unfold execEndOfBoot
  exact ⟨_, rfl, (keeps_ite (Keeps.refl _) (Keeps.after (keeps_refreshAll ..) (Keeps.after (keeps_ite (keeps_confirmBoot ..) (Keeps.refl _))
      (Keeps.after (keeps_ite (keeps_raise0 ..) (Keeps.refl _)) (Keeps.after (keeps_vbatAtBoot ..) (Keeps.after (keeps_resetEvent ..) (Keeps.after
      (keeps_report ..) (Keeps.after (keeps_ite (keeps_legBoot ..) (keeps_wdtRestart ..)) (Keeps.after keeps_mk (keeps_toInstant ..))))))))))⟩

theorem keeps_execBootConfirmTimeout (s : State) : ∃ u, execBootConfirmTimeout s = .next u ∧ Keeps s u := by
  unfold execBootConfirmTimeout
  exact ⟨_, rfl, (keeps_ite (Keeps.refl _) (Keeps.after (keeps_dieReset ..) (keeps_toInstant ..)))⟩

theorem keeps_bodyBootPolicy (d : Desc) (s : State)  : Keeps s (bodyBootPolicy d s) := by
  unfold bodyBootPolicy
  exact (keeps_ite (keeps_fail ..) (keeps_mramWrite ..))

theorem keeps_execPwrBootPolicy (d : Desc) (s : State) : ∃ u, execPwrBootPolicy d s = .next u ∧ Keeps s u := by
  unfold execPwrBootPolicy
  exact ⟨_, rfl, (keeps_runDesc (h_body := (fun _ => (keeps_bodyBootPolicy ..))) ..)⟩

theorem keeps_bodyBootConfirm (d : Desc) (s : State)  : Keeps s (bodyBootConfirm d s) := by
  unfold bodyBootConfirm
  exact (keeps_ite (keeps_okWith ..) (Keeps.after (keeps_okWith ..) (keeps_confirmBoot ..)))

theorem keeps_execPwrBootConfirm (d : Desc) (s : State) : ∃ u, execPwrBootConfirm d s = .next u ∧ Keeps s u := by
  unfold execPwrBootConfirm
  exact ⟨_, rfl, (keeps_runDesc (h_body := (fun _ => (keeps_bodyBootConfirm ..))) ..)⟩

theorem keeps_bodyBootReport (d : Desc) (s : State)  : Keeps s (bodyBootReport d s) := by
  unfold bodyBootReport
  exact (keeps_writeBack ..)

theorem keeps_execPwrBootReport (d : Desc) (s : State) : ∃ u, execPwrBootReport d s = .next u ∧ Keeps s u := by
  unfold execPwrBootReport
  exact ⟨_, rfl, (keeps_runDesc (h_body := (fun _ => (keeps_bodyBootReport ..))) ..)⟩

theorem keeps_bodyRetryBoot (d : Desc) (s : State)  : Keeps s (bodyRetryBoot d s) := by
  unfold bodyRetryBoot
  exact (keeps_ite (keeps_fail ..) (Keeps.after (keeps_ok ..) keeps_mk))

theorem keeps_execPwrRetryBoot (d : Desc) (s : State) : ∃ u, execPwrRetryBoot d s = .next u ∧ Keeps s u := by
  unfold execPwrRetryBoot
  exact ⟨_, rfl, (keeps_runDesc (h_body := (fun _ => (keeps_bodyRetryBoot ..))) ..)⟩

/-! ## Island -/

theorem keeps_execIslLockWrite (s : State) : ∃ u, execIslLockWrite s = .next u ∧ Keeps s u := by
  unfold execIslLockWrite
  exact ⟨_, rfl, keeps_mk⟩

theorem keeps_wdtArm (s : State)  : Keeps s (wdtArm s) := by
  unfold wdtArm
  exact (keeps_ite (Keeps.refl _) (Keeps.after (keeps_ite (keeps_wdtRestart ..) (Keeps.refl _)) keeps_mk))

theorem keeps_execWdtArm (s : State) : ∃ u, execWdtArm s = .next u ∧ Keeps s u := by
  unfold execWdtArm
  exact ⟨_, rfl, (keeps_wdtArm ..)⟩

theorem keeps_wdtDisarm (s : State)  : Keeps s (wdtDisarm s) := by
  unfold wdtDisarm
  exact (keeps_ite (Keeps.refl _) keeps_mk)

theorem keeps_execWdtDisarm (s : State) : ∃ u, execWdtDisarm s = .next u ∧ Keeps s u := by
  unfold execWdtDisarm
  exact ⟨_, rfl, (keeps_wdtDisarm ..)⟩

theorem keeps_wdtExpire (s : State)  : Keeps s (wdtExpire s) := by
  unfold wdtExpire
  exact (Keeps.after (keeps_dieReset ..) (keeps_logWrite ..))

theorem keeps_wdtRefuse (d : Desc) (tok : Nat) (s : State)  : Keeps s (wdtRefuse d tok s) := by
  unfold wdtRefuse
  exact (Keeps.after (keeps_ite (keeps_wdtExpire ..) (Keeps.refl _)) (Keeps.after (keeps_fail ..) (Keeps.after (keeps_raise0 ..) keeps_mk)))

theorem keeps_bodyWdtService (d : Desc) (s : State)  : Keeps s (bodyWdtService d s) := by
  unfold bodyWdtService
  exact (keeps_ite (keeps_fail ..) (keeps_ite (keeps_fail ..) (keeps_ite (Keeps.after (keeps_ok ..) keeps_mk) (keeps_wdtRefuse ..))))

theorem keeps_execIslWdtService (d : Desc) (s : State) : ∃ u, execIslWdtService d s = .next u ∧ Keeps s u := by
  unfold execIslWdtService
  exact ⟨_, rfl, (keeps_runDesc (h_body := (fun _ => (keeps_bodyWdtService ..))) ..)⟩

theorem keeps_execWatchdogExpiry (s : State) : ∃ u, execWatchdogExpiry s = .next u ∧ Keeps s u := by
  unfold execWatchdogExpiry
  exact ⟨_, rfl, (keeps_ite (Keeps.refl _) (Keeps.after (keeps_wdtExpire ..) (Keeps.after (keeps_toInstant ..) (keeps_takeFree ..))))⟩

theorem keeps_estopLow (s : State)  : Keeps s (estopLow s) := by
  unfold estopLow
  exact (keeps_ite (Keeps.refl _) (Keeps.after (keeps_class2 ..) (Keeps.after (keeps_refreshAll ..) keeps_mk)))

theorem keeps_execEstopNLow (s : State) : ∃ u, execEstopNLow s = .next u ∧ Keeps s u := by
  unfold execEstopNLow
  exact ⟨_, rfl, (keeps_estopLow ..)⟩

theorem keeps_execEstopNHigh (s : State) : ∃ u, execEstopNHigh s = .next u ∧ Keeps s u := by
  unfold execEstopNHigh
  exact ⟨_, rfl, (keeps_ite keeps_mk (Keeps.refl _))⟩

theorem keeps_execEstopReleaseTimer (s : State) : ∃ u, execEstopReleaseTimer s = .next u ∧ Keeps s u := by
  unfold execEstopReleaseTimer
  exact ⟨_, rfl, (by (try extract_lets); split; exact (Keeps.refl _); exact (Keeps.after (keeps_raise0 ..) (Keeps.after (keeps_conditionEnded ..) (Keeps.after keeps_mk (keeps_toInstant ..)))))⟩

theorem keeps_clockFault (code : Nat) (data : List Byte) (s : State)  : Keeps s (clockFault code data s) := by
  unfold clockFault
  exact (Keeps.after (keeps_dieReset ..) (keeps_logWrite ..))

theorem keeps_execTclkStop (s : State) : ∃ u, execTclkStop s = .next u ∧ Keeps s u := by
  unfold execTclkStop
  exact ⟨_, rfl, (keeps_clockFault ..)⟩

theorem keeps_execPllUnlock (s : State) : ∃ u, execPllUnlock s = .next u ∧ Keeps s u := by
  unfold execPllUnlock
  exact ⟨_, rfl, (keeps_ite (keeps_clockFault ..) (Keeps.refl _))⟩

theorem keeps_execAclkFreqDeviation (ppm : Int) (s : State) : ∃ u, execAclkFreqDeviation ppm s = .next u ∧ Keeps s u := by
  unfold execAclkFreqDeviation
  exact ⟨_, rfl, (keeps_ite (Keeps.refl _) (keeps_clockFault ..))⟩

theorem keeps_execDebugHalt (engine : Nat) (s : State) : ∃ u, execDebugHalt engine s = .next u ∧ Keeps s u := by
  unfold execDebugHalt
  exact ⟨_, rfl, (keeps_ite (Keeps.refl _) (Keeps.after (keeps_class2 ..) (Keeps.after (keeps_refreshAll ..) (Keeps.after (keeps_wdtPauseSync ..)
      keeps_mk))))⟩

theorem keeps_execEngineDebugResume (engine : Nat) (s : State) : ∃ u, execEngineDebugResume engine s = .next u ∧ Keeps s u := by
  unfold execEngineDebugResume
  exact ⟨_, rfl, (keeps_ite (Keeps.refl _) (Keeps.after (keeps_ite (Keeps.refl _) (Keeps.after (keeps_refreshAll ..) (Keeps.after
      (keeps_conditionEnded ..) (Keeps.after keeps_mk (keeps_wdtPauseSync ..))))) keeps_mk))⟩

theorem keeps_execPdieLinkLoss (s : State) : ∃ u, execPdieLinkLoss s = .next u ∧ Keeps s u := by
  unfold execPdieLinkLoss
  exact ⟨_, rfl, (keeps_class2 ..)⟩

theorem keeps_execPdieLinkRestored (s : State) : ∃ u, execPdieLinkRestored s = .next u ∧ Keeps s u := by
  unfold execPdieLinkRestored
  exact ⟨_, rfl, (keeps_conditionEnded ..)⟩

theorem keeps_bodyFaultClear (d : Desc) (s : State)  : Keeps s (bodyFaultClear d s) := by
  unfold bodyFaultClear
  exact (by (try extract_lets); split; exact (keeps_failWith ..); exact (keeps_defer ..))

theorem keeps_execIslFaultClear (d : Desc) (s : State) : ∃ u, execIslFaultClear d s = .next u ∧ Keeps s u := by
  unfold execIslFaultClear
  exact ⟨_, rfl, (keeps_runDesc (h_body := (fun _ => (keeps_bodyFaultClear ..))) ..)⟩

theorem keeps_execFaultClearTakeEffect (s : State) : ∃ u, execFaultClearTakeEffect s = .next u ∧ Keeps s u := by
  unfold execFaultClearTakeEffect
  exact ⟨_, rfl, (by (try extract_lets); split; exact (Keeps.refl _); exact (by (try extract_lets); split; exact (Keeps.after (keeps_completeDeferred ..) (keeps_toInstant ..)); exact (Keeps.after (keeps_completeDeferred ..) (Keeps.after (keeps_raise0 ..) (Keeps.after (keeps_refreshAll ..) (Keeps.after keeps_mk (keeps_toInstant ..)))))))⟩

theorem keeps_bodyIslReset (d : Desc) (s : State)  : Keeps s (bodyIslReset d s) := by
  unfold bodyIslReset
  exact (keeps_ite (keeps_fail ..) (Keeps.after (keeps_ok ..) keeps_mk))

theorem keeps_execIslReset (d : Desc) (s : State) : ∃ u, execIslReset d s = .next u ∧ Keeps s u := by
  unfold execIslReset
  exact ⟨_, rfl, (keeps_runDesc (h_body := (fun _ => (keeps_bodyIslReset ..))) ..)⟩

theorem keeps_bodyLogRead (d : Desc) (s : State)  : Keeps s (bodyLogRead d s) := by
  unfold bodyLogRead
  exact (Keeps.after (keeps_writeBack ..) keeps_mk)

theorem keeps_execIslLogRead (d : Desc) (s : State) : ∃ u, execIslLogRead d s = .next u ∧ Keeps s u := by
  unfold execIslLogRead
  exact ⟨_, rfl, (keeps_runDesc (h_body := (fun _ => (keeps_bodyLogRead ..))) ..)⟩

/-! ## Power -/

theorem keeps_execVddWarning (mv : Nat) (s : State) : ∃ u, execVddWarning mv s = .next u ∧ Keeps s u := by
  unfold execVddWarning
  exact ⟨_, rfl, (keeps_ite (Keeps.refl _) (Keeps.after (keeps_raise0 ..) (Keeps.after keeps_mk (keeps_latWritten ..))))⟩

theorem keeps_mramSavesRun (s : State)  : Keeps s (mramSavesRun s) := by
  unfold mramSavesRun
  exact (keeps_ite (Keeps.refl _) (Keeps.after (keeps_mramWaitRun ..) (keeps_legSavesRun ..)))

theorem keeps_execVddWarningEnd (mv lowest : Nat) (s : State) : ∃ u, execVddWarningEnd mv lowest s = .next u ∧ Keeps s u := by
  unfold execVddWarningEnd
  exact ⟨_, rfl, (keeps_ite (Keeps.refl _) (Keeps.after (keeps_mramSavesRun ..) (Keeps.after (keeps_raise0 ..) (Keeps.after (keeps_conditionEnded ..)
      (Keeps.after keeps_mk (keeps_storeResume ..))))))⟩

theorem keeps_execVddWarningSustained (s : State) : ∃ u, execVddWarningSustained s = .next u ∧ Keeps s u := by
  unfold execVddWarningSustained
  exact ⟨_, rfl, (keeps_ite (Keeps.refl _) (Keeps.after (keeps_class2 ..) (Keeps.after keeps_mk (keeps_toInstant ..))))⟩

theorem keeps_execVioFLow (s : State) : ∃ u, execVioFLow s = .next u ∧ Keeps s u := by
  unfold execVioFLow
  exact ⟨_, rfl, (keeps_ite (Keeps.refl _) (Keeps.after (keeps_estopLow ..) (Keeps.after (keeps_class2 ..) keeps_mk)))⟩

theorem keeps_execVioFRecovered (s : State) : ∃ u, execVioFRecovered s = .next u ∧ Keeps s u := by
  unfold execVioFRecovered
  exact ⟨_, rfl, (Keeps.after (keeps_conditionEnded ..) keeps_mk)⟩

theorem keeps_execVioHLow (s : State) : ∃ u, execVioHLow s = .next u ∧ Keeps s u := by
  unfold execVioHLow
  exact ⟨_, rfl, (keeps_ite (Keeps.refl _) (Keeps.after (keeps_ite (keeps_detach ..) (Keeps.refl _)) (Keeps.after (keeps_raise0 ..) keeps_mk)))⟩

theorem keeps_execVioHRecovered (s : State) : ∃ u, execVioHRecovered s = .next u ∧ Keeps s u := by
  unfold execVioHRecovered
  exact ⟨_, rfl, keeps_mk⟩

theorem keeps_vbatRead (g mv : Nat) (s : State)  : Keeps s (vbatRead g mv s) := by
  unfold vbatRead
  exact keeps_mk

theorem keeps_vbatOutputs (g : Nat) (s : State)  : Keeps s (vbatOutputs g s) := by
  unfold vbatOutputs
  exact (Keeps.after (keeps_ite (keeps_refreshAll ..) (Keeps.refl _)) (keeps_foldl (fun _ _ => (keeps_swRefresh ..)) _ _))

theorem keeps_execVbatUvloEnter (group mv : Nat) (s : State) : ∃ u, execVbatUvloEnter group mv s = .next u ∧ Keeps s u := by
  unfold execVbatUvloEnter
  exact ⟨_, rfl, (keeps_ite (Keeps.refl _) (Keeps.after (keeps_vbatEvent ..) (Keeps.after (keeps_vbatOutputs ..) (Keeps.after (keeps_vbatRead ..)
      keeps_mk))))⟩

theorem keeps_execVbatUvloLeave (group mv : Nat) (s : State) : ∃ u, execVbatUvloLeave group mv s = .next u ∧ Keeps s u := by
  unfold execVbatUvloLeave
  exact ⟨_, rfl, (keeps_ite (Keeps.refl _) (Keeps.after (keeps_vbatEvent ..) (Keeps.after (keeps_ite (keeps_foldl (fun _ _ => (keeps_solStart ..)) _
      _) (Keeps.refl _)) (Keeps.after (keeps_vbatOutputs ..) (Keeps.after (keeps_vbatRead ..) keeps_mk)))))⟩

theorem keeps_lowVbat (g : Nat) (s : State)  : Keeps s (lowVbat g s) := by
  unfold lowVbat
  exact (Keeps.after (keeps_ite (Keeps.after (keeps_foldl (fun _ _ => (keeps_windowReason ..)) _ _) (keeps_foldl (fun _ _ => (keeps_chReason ..)) _
      _)) (Keeps.refl _)) (keeps_foldl (fun _ _ => (keeps_senseReason ..)) _ _))

theorem keeps_execVbatWarningEnter (group mv : Nat) (s : State) : ∃ u, execVbatWarningEnter group mv s = .next u ∧ Keeps s u := by
  unfold execVbatWarningEnter
  exact ⟨_, rfl, (keeps_ite (Keeps.refl _) (Keeps.after (keeps_vbatEvent ..) (Keeps.after (keeps_lowVbat ..) (Keeps.after (keeps_vbatRead ..)
      keeps_mk))))⟩

theorem keeps_execVbatWarningLeave (group mv : Nat) (s : State) : ∃ u, execVbatWarningLeave group mv s = .next u ∧ Keeps s u := by
  unfold execVbatWarningLeave
  exact ⟨_, rfl, (keeps_ite (Keeps.refl _) (Keeps.after (keeps_vbatEvent ..) (Keeps.after (keeps_vbatRead ..) keeps_mk)))⟩

theorem keeps_execVbatHighEnter (group mv : Nat) (s : State) : ∃ u, execVbatHighEnter group mv s = .next u ∧ Keeps s u := by
  unfold execVbatHighEnter
  exact ⟨_, rfl, (keeps_ite (Keeps.refl _) (Keeps.after (keeps_vbatEvent ..) (Keeps.after (keeps_vbatRead ..) keeps_mk)))⟩

theorem keeps_execVbatHighLeave (group mv : Nat) (s : State) : ∃ u, execVbatHighLeave group mv s = .next u ∧ Keeps s u := by
  unfold execVbatHighLeave
  exact ⟨_, rfl, (keeps_ite (Keeps.refl _) (Keeps.after (keeps_vbatEvent ..) (Keeps.after (keeps_vbatRead ..) keeps_mk)))⟩

theorem keeps_sleepAborts (s : State)  : Keeps s (sleepAborts s) := by
  unfold sleepAborts
  exact (keeps_foldl (fun _ _ => (keeps_ite (keeps_abandonMove ..) (Keeps.after (keeps_cancelEffect ..) (keeps_completeDeferred ..)))) _ _)

theorem keeps_bodySleep (d : Desc) (s : State)  : Keeps s (bodySleep d s) := by
  unfold bodySleep
  exact (by (try extract_lets); split; exact (keeps_fail ..); exact (Keeps.after (keeps_sleepAborts ..) keeps_mk))

theorem keeps_execPwrSleep (d : Desc) (s : State) : ∃ u, execPwrSleep d s = .next u ∧ Keeps s u := by
  unfold execPwrSleep
  exact ⟨_, rfl, (keeps_runDesc (h_body := (fun _ => (keeps_bodySleep ..))) ..)⟩

theorem keeps_allOff (s : State)  : Keeps s (allOff s) := by
  unfold allOff
  exact (Keeps.after (keeps_refreshAll ..) keeps_mk)

theorem keeps_execSleepEntry (s : State) : ∃ u, execSleepEntry s = .next u ∧ Keeps s u := by
  unfold execSleepEntry
  exact ⟨_, rfl, (by (try extract_lets); split; exact (Keeps.refl _); exact (keeps_ite (Keeps.refl _) (Keeps.after (keeps_allOff ..) (Keeps.after (keeps_setKState ..) (Keeps.after keeps_mk (Keeps.after (keeps_setReverse ..) (Keeps.after (keeps_foldl (fun _ _ => (keeps_disableObj ..)) _ _) (keeps_toInstant ..))))))))⟩

theorem keeps_mramFlush (s : State)  : Keeps s (mramFlush s) := by
  unfold mramFlush
  exact (keeps_ite (Keeps.refl _) (Keeps.after (keeps_latWritten ..) (keeps_foldl (fun _ _ => (keeps_storeDone ..)) _ _)))

theorem keeps_execSleepComplete (t : Nat) (s : State) : ∃ u, execSleepComplete t s = .next u ∧ Keeps s u := by
  refine ⟨_, rfl, ?_⟩
  generalize s.pwr.sleepAt = q
  cases q with
  | none => exact Keeps.refl s
  | some e =>
    have h0 : Keeps s (canHalt (canSleep (mramFlush (toInstant (min (max t e) (e + 2 * msTicks)) s)))) :=
      Keeps.after (keeps_canHalt ..) (Keeps.after (keeps_canSleep ..) (Keeps.after (keeps_mramFlush ..) (keeps_toInstant ..)))
    refine keeps_ite (Keeps.refl _) (Keeps.after keeps_mk (Keeps.after (keeps_ite keeps_mk (Keeps.refl _)) (h0.trans ?_)))
    generalize canHalt (canSleep (mramFlush (toInstant (min (max t e) (e + 2 * msTicks)) s))) = v
    generalize startedOp v 0x0110 = w
    cases w with
    | none => exact Keeps.refl v
    | some d => exact keeps_complete ..

theorem keeps_bodyPark (d : Desc) (s : State)  : Keeps s (bodyPark d s) := by
  unfold bodyPark
  exact (by (try extract_lets); split; exact (keeps_fail ..); exact (Keeps.after (keeps_sleepAborts ..) keeps_mk))

theorem keeps_execPwrPark (d : Desc) (s : State) : ∃ u, execPwrPark d s = .next u ∧ Keeps s u := by
  unfold execPwrPark
  exact ⟨_, rfl, (keeps_runDesc (h_body := (fun _ => (keeps_bodyPark ..))) ..)⟩

theorem keeps_parkBoundary (b : Nat) (s : State)  : Keeps s (parkBoundary b s) := by
  unfold parkBoundary
  exact (keeps_ite (Keeps.after keeps_mk (Keeps.after (keeps_latSave ..) (keeps_allOff ..))) (Keeps.refl _))

theorem keeps_execParkWritesDone (s : State) : ∃ u, execParkWritesDone s = .next u ∧ Keeps s u := by
  unfold execParkWritesDone
  exact ⟨_, rfl, (by (try extract_lets); split; exact (Keeps.refl _); exact (keeps_ite (Keeps.refl _) (Keeps.after keeps_mk (by (try extract_lets); split; exact (Keeps.after (keeps_okWith ..) (Keeps.after keeps_mk (Keeps.after (keeps_logWrite ..) (Keeps.after keeps_mk (keeps_ite (Keeps.after keeps_mk (keeps_toInstant ..)) (keeps_mramFlush ..)))))); exact (Keeps.after keeps_mk (Keeps.after (keeps_logWrite ..) (Keeps.after keeps_mk (keeps_ite (Keeps.after keeps_mk (keeps_toInstant ..)) (keeps_mramFlush ..)))))))))⟩

theorem keeps_bodyWakeConfig (d : Desc) (s : State)  : Keeps s (bodyWakeConfig d s) := by
  unfold bodyWakeConfig
  exact (keeps_ite (keeps_failWith ..) (keeps_ite (keeps_fail ..) (Keeps.after (keeps_ok ..) keeps_mk)))

theorem keeps_execPwrWakeConfig (d : Desc) (s : State) : ∃ u, execPwrWakeConfig d s = .next u ∧ Keeps s u := by
  unfold execPwrWakeConfig
  exact ⟨_, rfl, (keeps_runDesc (h_body := (fun _ => (keeps_bodyWakeConfig ..))) ..)⟩

theorem keeps_sleepWake (reason t : Nat) (s : State)  : Keeps s (sleepWake reason t s) := by
  unfold sleepWake
  exact (Keeps.after (keeps_refreshAll ..) (Keeps.after (keeps_raise0 ..) (Keeps.after (keeps_wdtRestart ..) (Keeps.after (keeps_isbResume ..)
      (Keeps.after (keeps_canResume ..) (Keeps.after keeps_mk (keeps_toInstant ..)))))))

theorem keeps_parkWake (reason : Nat) (s : State)  : Keeps s (parkWake reason s) := by
  unfold parkWake
  exact (Keeps.after keeps_mk (Keeps.after (keeps_keepIsland ..) (Keeps.after (keeps_keepMram ..) (Keeps.after (keeps_bootFailed ..)
      (keeps_mramRevert ..)))))

theorem keeps_wakeBy (reason t : Nat) (s : State)  : Keeps s (wakeBy reason t s) := by
  unfold wakeBy
  exact (keeps_ite (keeps_sleepWake ..) (keeps_ite (keeps_parkWake ..) (Keeps.refl _)))

theorem keeps_execWakeSource (reason t : Nat) (s : State) : ∃ u, execWakeSource reason t s = .next u ∧ Keeps s u := by
  unfold execWakeSource
  exact ⟨_, rfl, (keeps_ite (keeps_wakeBy ..) (Keeps.refl _))⟩

theorem keeps_execWakeTimerExpiry (s : State) : ∃ u, execWakeTimerExpiry s = .next u ∧ Keeps s u := by
  unfold execWakeTimerExpiry
  exact ⟨_, rfl, (by (try extract_lets); split; exact (Keeps.refl _); exact (keeps_wakeBy ..))⟩

theorem keeps_execCanWake (reason port : Nat) (f : CanFrame) (s : State) : ∃ u, execCanWake reason port f s = .next u ∧ Keeps s u := by
  unfold execCanWake
  exact ⟨_, rfl, (keeps_ite (Keeps.refl _) (Keeps.after (keeps_raise0 ..) (Keeps.after (keeps_wakeBy ..) keeps_mk)))⟩

/-! ## Trace -/

theorem keeps_trcArm (s : State)  : Keeps s (trcArm s) := by
  unfold trcArm
  exact (keeps_ite (Keeps.refl _) (keeps_ite keeps_mk keeps_mk))

theorem keeps_trcStop (s : State)  : Keeps s (trcStop s) := by
  unfold trcStop
  exact (keeps_ite keeps_mk (keeps_ite keeps_mk (Keeps.refl _)))

theorem keeps_trcForce (s : State)  : Keeps s (trcForce s) := by
  unfold trcForce
  exact (keeps_ite keeps_mk (Keeps.refl _))

theorem keeps_execTrcArm (s : State) : ∃ u, execTrcArm s = .next u ∧ Keeps s u := by
  unfold execTrcArm
  exact ⟨_, rfl, (keeps_trcArm ..)⟩

theorem keeps_execTrcStop (s : State) : ∃ u, execTrcStop s = .next u ∧ Keeps s u := by
  unfold execTrcStop
  exact ⟨_, rfl, (keeps_trcStop ..)⟩

theorem keeps_execTrcForce (s : State) : ∃ u, execTrcForce s = .next u ∧ Keeps s u := by
  unfold execTrcForce
  exact ⟨_, rfl, (keeps_trcForce ..)⟩

theorem keeps_trcCtlWrite (v : Nat) (s : State)  : Keeps s (trcCtlWrite v s) := by
  unfold trcCtlWrite
  exact (Keeps.after (keeps_ite (keeps_trcForce ..) (Keeps.refl _)) (Keeps.after (keeps_ite (keeps_trcArm ..) (keeps_trcStop ..)) keeps_mk))

theorem keeps_trcKeep (t flags : Nat) (s : State)  : Keeps s (trcKeep t flags s) := by
  unfold trcKeep
  exact keeps_mk

theorem keeps_trcPre (t : Nat) (s : State)  : Keeps s (trcPre t s) := by
  unfold trcPre
  exact (Keeps.after keeps_mk (keeps_trcKeep ..))

theorem keeps_trcTrigger (t : Nat) (s : State)  : Keeps s (trcTrigger t s) := by
  unfold trcTrigger
  exact (Keeps.after keeps_mk (Keeps.after (keeps_raise0 ..) (Keeps.after keeps_mk (Keeps.after keeps_mk (keeps_trcKeep ..)))))

theorem keeps_trcStream (t : Nat) (s : State)  : Keeps s (trcStream t s) := by
  unfold trcStream
  exact (keeps_foldl (fun _ _ => (keeps_ite keeps_mk (Keeps.after (keeps_setRing ..) keeps_mk))) _ _)

theorem keeps_execTraceRecord (s : State) : ∃ u, execTraceRecord s = .next u ∧ Keeps s u := by
  unfold execTraceRecord
  exact ⟨_, rfl, (by (try extract_lets); split; exact (Keeps.refl _); exact (Keeps.after keeps_mk (Keeps.after (keeps_ite (keeps_ite (keeps_trcTrigger ..) (keeps_trcPre ..)) (keeps_ite (Keeps.after keeps_mk (keeps_trcKeep ..)) (keeps_ite (keeps_trcStream ..) (Keeps.refl _)))) (Keeps.after (keeps_toInstant ..) keeps_mk))))⟩

theorem keeps_trcWrite : ∀ (n : Nat) (s : State), Keeps s (trcWrite n s)
  | 0, s => Keeps.refl s
  | n + 1, s => by
    unfold trcWrite
    split
    · exact Keeps.refl s
    · split
      · exact Keeps.trans (Keeps.after (keeps_ringProduce ..) keeps_mk) (keeps_trcWrite n _)
      · exact Keeps.refl s

theorem keeps_execTraceDrain (s : State) : ∃ u, execTraceDrain s = .next u ∧ Keeps s u := by
  unfold execTraceDrain
  exact ⟨_, rfl, (keeps_ite (Keeps.after (keeps_ite (Keeps.after (keeps_raise0 ..) keeps_mk) (Keeps.refl _)) (keeps_trcWrite ..)) (keeps_ite
      (Keeps.after (keeps_ite keeps_mk (Keeps.refl _)) (keeps_trcWrite ..)) (Keeps.refl _)))⟩

/-! ## Registers -/

theorem keeps_regLatch (a : Nat) (s : State)  : Keeps s (regLatch a s) := by
  unfold regLatch
  exact (keeps_ite keeps_mk (keeps_ite keeps_mk (Keeps.refl _)))

theorem keeps_ringWrite (r o v : Nat) (s : State)  : Keeps s (ringWrite r o v s) := by
  unfold ringWrite
  exact (keeps_ite (Keeps.after (keeps_ite (keeps_ringSignal ..) (Keeps.refl _)) (keeps_setRing ..)) (keeps_ite (Keeps.refl _) (by (try extract_lets); split; exact (keeps_setRing ..); exact (keeps_setRing ..); exact (keeps_ite (keeps_after (keeps_execRingEnable ..)) (keeps_setRing ..)); exact (keeps_setRing ..); exact (keeps_setRing ..); exact (Keeps.refl _))))

theorem keeps_hifWrite (a v : Nat) (s : State)  : Keeps s (hifWrite a v s) := by
  unfold hifWrite
  exact (by (try extract_lets); split; exact (Keeps.after (keeps_ite (keeps_after (keeps_execRingsEnSet ..)) (keeps_after (keeps_execRingsEnClear ..))) keeps_mk); exact keeps_mk; exact keeps_mk; exact keeps_mk; exact (keeps_after (keeps_execHifRingReset ..)); exact keeps_mk; exact (Keeps.refl _))

theorem keeps_echMapWrite (v : Nat) (s : State)  : Keeps s (echMapWrite v s) := by
  unfold echMapWrite
  exact (keeps_ite (Keeps.refl _) keeps_mk)

theorem keeps_execSysEchMapWrite (v : Nat) (s : State) : ∃ u, execSysEchMapWrite v s = .next u ∧ Keeps s u := by
  unfold execSysEchMapWrite
  exact ⟨_, rfl, (keeps_echMapWrite ..)⟩

theorem keeps_wdtWrite (f : Isl → Isl) (s : State)  : Keeps s (wdtWrite f s) := by
  unfold wdtWrite
  exact (keeps_ite (Keeps.refl _) keeps_mk)

theorem keeps_rwl (f : State → State) (s : State) (h_f : ∀ s, Keeps s (f s)) : Keeps s (rwl f s) := by
  unfold rwl
  exact (keeps_ite (Keeps.refl _) (h_f ..))

theorem keeps_islWrite (a v : Nat) (s : State)  : Keeps s (islWrite a v s) := by
  unfold islWrite
  exact (by (try extract_lets); split; exact keeps_mk; exact (keeps_rwl (h_f := (fun _ => keeps_mk)) ..); exact (keeps_ite keeps_mk (Keeps.refl _)); exact (Keeps.after (keeps_ite (keeps_wdtArm ..) (keeps_wdtDisarm ..)) (Keeps.after (keeps_wdtPauseSync ..) (keeps_wdtWrite ..))); exact (keeps_wdtWrite ..); exact (keeps_wdtWrite ..); exact (keeps_rwl (h_f := (fun _ => keeps_mk)) ..); exact (keeps_rwl (h_f := (fun _ => keeps_mk)) ..); exact (Keeps.refl _))

theorem keeps_clkWrite (a v : Nat) (s : State)  : Keeps s (clkWrite a v s) := by
  unfold clkWrite
  exact (by (try extract_lets); split; exact keeps_mk; exact (Keeps.after (keeps_ite (keeps_after (keeps_execGtcDiscEnable ..)) (keeps_ite (keeps_after (keeps_execGtcDiscDisable ..)) (Keeps.refl _))) keeps_mk); exact keeps_mk; exact (keeps_after (keeps_execGtcFreqAdjWrite ..)); exact (Keeps.refl _))

theorem keeps_oslWrite (a v : Nat) (s : State)  : Keeps s (oslWrite a v s) := by
  unfold oslWrite
  exact (by (try extract_lets); split; exact (keeps_ite (Keeps.refl _) (keeps_ite (keeps_oslRefuse ..) (Keeps.after (keeps_after (keeps_execOslSyncOutWrite ..)) (keeps_takeRole ..)))); exact keeps_mk; exact (Keeps.refl _))

theorem keeps_trcWriteReg (a v : Nat) (s : State)  : Keeps s (trcWriteReg a v s) := by
  unfold trcWriteReg
  exact (keeps_ite (keeps_ite keeps_mk keeps_mk) (by (try extract_lets); split; exact (keeps_trcCtlWrite ..); exact keeps_mk; exact keeps_mk; exact keeps_mk; exact keeps_mk; exact keeps_mk; exact keeps_mk; exact (Keeps.refl _)))

theorem keeps_msixWrite (k v : Nat) (s : State)  : Keeps s (msixWrite k v s) := by
  unfold msixWrite
  exact (Keeps.after (keeps_pbaSend ..) keeps_mk)

theorem keeps_regWrite (a v : Nat) (s : State)  : Keeps s (regWrite a v s) := by
  unfold regWrite
  exact (keeps_ite (keeps_echMapWrite ..) (keeps_ite (Keeps.refl _) (keeps_ite (keeps_hifWrite ..) (keeps_ite (keeps_ringWrite ..) (keeps_ite
      (Keeps.refl _) (keeps_ite (keeps_islWrite ..) (keeps_ite (Keeps.refl _) (keeps_ite (keeps_clkWrite ..) (keeps_ite (keeps_oslWrite ..)
      (keeps_ite (keeps_trcWriteReg ..) (keeps_ite (keeps_msixWrite ..) (Keeps.refl _))))))))))))

theorem keeps_execRegisterWrite (addr value : Nat) (s : State) : ∃ u, execRegisterWrite addr value s = .next u ∧ Keeps s u := by
  unfold execRegisterWrite
  exact ⟨_, rfl, (keeps_ite (keeps_regWrite ..) (Keeps.refl _))⟩

theorem keeps_doorbell (off v : Nat) (s : State)  : Keeps s (doorbell off v s) := by
  unfold doorbell
  exact (keeps_ite (keeps_after (keeps_execSqTailDoorbell ..)) (keeps_ite (keeps_after (keeps_execCqHeadDoorbell ..)) (keeps_ite (keeps_after
      (keeps_execEqHeadDoorbell ..)) (keeps_ite (keeps_after (keeps_execStreamHeadDoorbell ..)) (Keeps.refl _)))))

theorem keeps_spaceWrite (space off v : Nat) (s : State)  : Keeps s (spaceWrite space off v s) := by
  unfold spaceWrite
  exact (keeps_ite (keeps_regWrite ..) (keeps_ite keeps_mkMailbox (keeps_ite (keeps_doorbell ..) (Keeps.refl _))))

theorem keeps_spaceRead (space off : Nat) (s : State) : Keeps s (spaceRead space off s).2 := by
  unfold spaceRead
  exact (keeps_ite2 (keeps_regLatch ..) (keeps_ite2 (Keeps.refl _) (Keeps.refl _)))

theorem keeps_setDiscarded (b : Bool) (s : State)  : Keeps s (setDiscarded b s) := by
  unfold setDiscarded
  exact keeps_mk

theorem keeps_spiWords (space : Nat) : ∀ (n off : Nat) (bs : List Byte) (s : State), Keeps s (spiWords space n off bs s)
  | 0, _, _, s => Keeps.refl s
  | n + 1, off, bs, s => by
    unfold spiWords
    split
    · exact Keeps.refl s
    · exact (keeps_spaceWrite ..).trans (keeps_spiWords space n _ _ _)

theorem keeps_spiWrite (addr : Nat) (data : List Byte) (s : State)  : Keeps s (spiWrite addr data s) := by
  unfold spiWrite
  exact (keeps_ite (Keeps.refl _) (keeps_ite (Keeps.after (keeps_setDiscarded ..) keeps_mkMailbox) (keeps_ite (keeps_setDiscarded ..) (Keeps.after
      (keeps_spiWords ..) (keeps_setDiscarded ..)))))

theorem keeps_spiFetch (space : Nat) : ∀ (n off : Nat) (s : State), Keeps s (spiFetch space n off s).2
  | 0, _, s => Keeps.refl s
  | n + 1, off, s => by
    unfold spiFetch
    split
    · exact Keeps.refl s
    · exact (keeps_spaceRead ..).trans (keeps_spiFetch space n _ _)

theorem keeps_spiRead (addr len : Nat) (s : State)  : Keeps s (spiRead addr len s) := by
  unfold spiRead
  exact (keeps_ite (Keeps.refl _) (keeps_ite (Keeps.after (keeps_setDiscarded ..) keeps_mk) (keeps_ite (Keeps.after (keeps_setDiscarded ..) keeps_mk)
      (Keeps.after keeps_mk (Keeps.after (keeps_spiFetch ..) (keeps_setDiscarded ..))))))

theorem keeps_execSpiWrite (addr : Nat) (data : List Byte) (s : State) : ∃ u, execSpiWrite addr data s = .next u ∧ Keeps s u := by
  unfold execSpiWrite
  exact ⟨_, rfl, (keeps_spiWrite ..)⟩

theorem keeps_execSpiQwrite (addr : Nat) (data : List Byte) (s : State) : ∃ u, execSpiQwrite addr data s = .next u ∧ Keeps s u := by
  unfold execSpiQwrite
  exact ⟨_, rfl, (keeps_spiWrite ..)⟩

theorem keeps_execSpiRead (addr len : Nat) (s : State) : ∃ u, execSpiRead addr len s = .next u ∧ Keeps s u := by
  unfold execSpiRead
  exact ⟨_, rfl, (keeps_spiRead ..)⟩

theorem keeps_execSpiQread (addr len : Nat) (s : State) : ∃ u, execSpiQread addr len s = .next u ∧ Keeps s u := by
  unfold execSpiQread
  exact ⟨_, rfl, (keeps_spiRead ..)⟩

theorem keeps_execSpiStatus (s : State) : ∃ u, execSpiStatus s = .next u ∧ Keeps s u := by
  unfold execSpiStatus
  exact ⟨_, rfl, (keeps_ite (Keeps.refl _) keeps_mk)⟩

theorem keeps_execSpiBadCommand (cmd : Nat) (s : State) : ∃ u, execSpiBadCommand cmd s = .next u ∧ Keeps s u := by
  unfold execSpiBadCommand
  exact ⟨_, rfl, (keeps_ite (Keeps.refl _) (keeps_setDiscarded ..))⟩

/-! ## LegacyFrame -/

theorem keeps_legShift (s : State)  : Keeps s (legShift s) := by
  unfold legShift
  exact keeps_mk

theorem keeps_setReply (addr data : Nat) (s : State)  : Keeps s (setReply addr data s) := by
  unfold setReply
  exact keeps_mk

theorem keeps_legInvalid (code : Nat) (s : State)  : Keeps s (legInvalid code s) := by
  unfold legInvalid
  exact (Keeps.after (keeps_setReply ..) (Keeps.after (keeps_raiseLimited ..) keeps_mk))

theorem keeps_xDiscard (s : State)  : Keeps s (xDiscard s) := by
  unfold xDiscard
  exact keeps_mk

theorem keeps_windowRead (s : State)  : Keeps s (windowRead s) := by
  unfold windowRead
  exact (keeps_ite (Keeps.after (keeps_xDiscard ..) keeps_mk) (Keeps.after keeps_mk (keeps_spaceRead ..)))

theorem keeps_windowNext (s : State)  : Keeps s (windowNext s) := by
  unfold windowNext
  exact keeps_mk

theorem keeps_legRead (a : Nat) (s : State) : Keeps s (legRead a s).2 := by
  unfold legRead
  exact (by (try extract_lets); split; exact (Keeps.after keeps_mk (keeps_ite (keeps_windowRead ..) (Keeps.refl _))); exact (Keeps.after keeps_mk (keeps_ite (keeps_windowRead ..) (Keeps.refl _))); exact (Keeps.after keeps_mk (keeps_ite (keeps_windowRead ..) (Keeps.refl _))); exact (Keeps.after keeps_mk (keeps_ite (keeps_windowRead ..) (Keeps.refl _))); exact (keeps_ite (Keeps.after (keeps_windowNext ..) (keeps_ite (keeps_windowRead ..) (Keeps.refl _))) (keeps_ite (keeps_windowRead ..) (Keeps.refl _))); exact (keeps_ite (Keeps.after keeps_mk (keeps_ite (keeps_windowRead ..) (Keeps.refl _))) (keeps_ite (keeps_windowRead ..) (Keeps.refl _))); exact (keeps_ite (keeps_windowRead ..) (Keeps.refl _)))

theorem keeps_legCfg (v : Nat) (s : State)  : Keeps s (legCfg v s) := by
  unfold legCfg
  exact (Keeps.after (keeps_foldl (fun _ _ => (keeps_updObj _ (by intro _; rfl) _)) _ _) keeps_mk)

theorem keeps_legSoftReset (s : State)  : Keeps s (legSoftReset s) := by
  unfold legSoftReset
  exact (Keeps.after keeps_mk (keeps_legEntry ..))

theorem keeps_windowWrite (v : Nat) (s : State)  : Keeps s (windowWrite v s) := by
  unfold windowWrite
  exact (Keeps.after (keeps_windowNext ..) (Keeps.after (keeps_ite (keeps_xDiscard ..) (keeps_spaceWrite ..)) keeps_mk))

theorem keeps_legRwp (a v : Nat) (s : State)  : Keeps s (legRwp a v s) := by
  unfold legRwp
  exact (keeps_ite (Keeps.refl _) (keeps_ite keeps_mk (by (try extract_lets); split; exact (Keeps.after (keeps_legFollow ..) keeps_mk); exact keeps_mk; exact (keeps_legCfg ..); exact keeps_mk; exact keeps_mk; exact keeps_mk; exact keeps_mk; exact (keeps_windowWrite ..); exact (Keeps.refl _))))

theorem keeps_legSeen (s : State)  : Keeps s (legSeen s) := by
  unfold legSeen
  exact keeps_mk

theorem keeps_legWrite (a v : Nat) (key pwd : Option Nat) (s : State)  : Keeps s (legWrite a v key pwd s) := by
  unfold legWrite
  exact (by (try extract_lets); split; exact (keeps_legOutWrite ..); exact keeps_mk; exact (Keeps.after (keeps_legSeen ..) keeps_mk); exact (Keeps.after (keeps_legUnlock ..) (keeps_legSeen ..)); exact keeps_mk; exact (Keeps.after keeps_mk (keeps_legSeen ..)); exact (by (try extract_lets); split; exact (keeps_ite (Keeps.after (keeps_legNewPwd ..) (keeps_legSeen ..)) (keeps_legSeen ..)); exact (keeps_legSeen ..)); exact (keeps_ite (keeps_legSoftReset ..) (Keeps.refl _)); exact (keeps_legRwp ..))

theorem keeps_legExecute (w : Nat) (s : State)  : Keeps s (legExecute w s) := by
  unfold legExecute
  exact (by (try extract_lets); split; exact (Keeps.after (keeps_setReply ..) (Keeps.after (keeps_confirmByFrame ..) keeps_mk)); exact (keeps_ite (Keeps.after (keeps_ite (Keeps.refl _) (keeps_setReply ..)) (Keeps.after (keeps_legWrite ..) (Keeps.after (keeps_confirmByFrame ..) keeps_mk))) (Keeps.after (keeps_setReply ..) (Keeps.after (keeps_legRead ..) (Keeps.after (keeps_confirmByFrame ..) keeps_mk)))))

theorem keeps_execLegacyFrame (w : Nat) (s : State) : ∃ u, execLegacyFrame w s = .next u ∧ Keeps s u := by
  unfold execLegacyFrame
  exact ⟨_, rfl, (keeps_ite (Keeps.refl _) (Keeps.after (keeps_ite (keeps_legExecute ..) (keeps_legInvalid ..)) (keeps_legShift ..)))⟩

theorem keeps_execLegacyInvalidFrame (clocks w : Nat) (s : State) : ∃ u, execLegacyInvalidFrame clocks w s = .next u ∧ Keeps s u := by
  unfold execLegacyInvalidFrame
  exact ⟨_, rfl, (keeps_ite (Keeps.refl _) (keeps_ite (Keeps.after (keeps_legInvalid ..) (keeps_legShift ..)) (keeps_ite (Keeps.after
      (keeps_legInvalid ..) (keeps_legShift ..)) (Keeps.refl _))))⟩

/-! ## Boundary -/

theorem keeps_paramsBoundary (s : State)  : Keeps s (paramsBoundary s) := by
  unfold paramsBoundary
  exact (Keeps.after (keeps_foldl (fun _ _ => (keeps_swRefresh ..)) _ _) (keeps_foldl (fun _ _ => (keeps_updObj _ (by intro _; rfl) _)) _ _))

theorem keeps_recordBoundary (b : Nat) (s : State)  : Keeps s (recordBoundary b s) := by
  unfold recordBoundary
  exact (keeps_ite keeps_mk (Keeps.refl _))

theorem keeps_phaseBoundary (s : State)  : Keeps s (phaseBoundary s) := by
  unfold phaseBoundary
  exact keeps_mk

theorem keeps_costBoundary (b : Nat) (s : State)  : Keeps s (costBoundary b s) := by
  unfold costBoundary
  exact (keeps_foldl (fun _ _ => (keeps_costApply ..)) _ _)

theorem keeps_shadowLoad (b : Nat) (s : State)  : Keeps s (shadowLoad b s) := by
  unfold shadowLoad
  exact (Keeps.after (keeps_foldl (fun _ _ => (keeps_chBoundary ..)) _ _) (Keeps.after (keeps_foldl (fun _ _ => (keeps_secBoundary ..)) _ _)
      (Keeps.after (keeps_isbBoundary ..) (Keeps.after (keeps_cancelBoundary ..) (Keeps.after (keeps_recordBoundary ..) (keeps_foldl (fun _ _ =>
      (keeps_geoLoad ..)) _ _))))))

theorem keeps_unitsBoundary (b : Nat) (s : State)  : Keeps s (unitsBoundary b s) := by
  unfold unitsBoundary
  exact (Keeps.after (keeps_encoBoundary ..) (Keeps.after (keeps_foldl (fun _ _ => (keeps_fbBoundary ..)) _ _) (Keeps.after (keeps_canBoundary ..)
      (Keeps.after (keeps_boardBoundary ..) (Keeps.after (keeps_boostBoundary ..) (keeps_foldl (fun _ _ => (keeps_tripBoundary ..)) _ _))))))

theorem keeps_boundaryWork (b : Nat) (s : State)  : Keeps s (boundaryWork b s) := by
  unfold boundaryWork
  exact (Keeps.after (keeps_ite (keeps_trcTick ..) (Keeps.refl _)) (Keeps.after (keeps_parkBoundary ..) (Keeps.after (keeps_linkBoundary ..)
      (Keeps.after (keeps_lockBoundary ..) (Keeps.after (keeps_lockPump ..) (Keeps.after (keeps_costBoundary ..) (Keeps.after (keeps_unitsBoundary
      ..) (Keeps.after (keeps_shadowLoad ..) (Keeps.after (keeps_paramsBoundary ..) (Keeps.after (keeps_phaseBoundary ..) (Keeps.after
      (keeps_freqAdjApply ..) keeps_mk)))))))))))

theorem keeps_execFrameBoundary (s : State) : ∃ u, execFrameBoundary s = .next u ∧ Keeps s u := by
  unfold execFrameBoundary
  exact ⟨_, rfl, (keeps_ite (Keeps.refl _) (Keeps.after (keeps_ite (keeps_boundaryWork ..) (Keeps.refl _)) (Keeps.after (keeps_ite (keeps_markOut ..)
      (Keeps.refl _)) (Keeps.after keeps_mk (keeps_ite keeps_mk (keeps_toInstant ..))))))⟩

theorem keeps_jobRun (tk i : Nat) (s0 s : State)  : Keeps s (jobRun tk i s0 s) := by
  unfold jobRun
  exact (by (try extract_lets); split; exact (Keeps.refl _); exact (keeps_ite (Keeps.refl _) (Keeps.after (keeps_ite (keeps_secJob ..) (keeps_ite (keeps_chJob ..) (keeps_ite (keeps_loopSample ..) (keeps_axJob ..)))) (keeps_updObj _ (by intro _; rfl) _))))

theorem keeps_jobDiscard (i : Nat) (s : State)  : Keeps s (jobDiscard i s) := by
  unfold jobDiscard
  exact (keeps_updObj _ (by intro _; rfl) _)

theorem keeps_jobCommit (tk : Nat) (o : Obj) (s0 s : State)  : Keeps s (jobCommit tk o s0 s) := by
  unfold jobCommit
  exact (keeps_ite (keeps_jobDiscard ..) (keeps_jobRun ..))

theorem keeps_engineRun (tk e slot : Nat) (late : List Nat) (s0 : State) : ∀ (l : List Obj) (s : State), Keeps s (engineRun tk e slot late s0 l s)
  | [], s => Keeps.refl s
  | o :: os, s => by
    unfold engineRun
    split
    · exact keeps_mk
    · exact (keeps_jobCommit ..).trans (keeps_engineRun tk e slot late s0 os _)

theorem keeps_engineSlot (tk slot : Nat) (late : List Nat) (s0 s : State) (e : Nat)  : Keeps s (engineSlot tk slot late s0 s e) := by
  unfold engineSlot
  exact (keeps_ite (Keeps.refl _) (keeps_engineRun ..))

theorem keeps_execTempoSlotRun (slot : Nat) (late : List Nat) (s : State) : ∃ u, execTempoSlotRun slot late s = .next u ∧ Keeps s u := by
  unfold execTempoSlotRun
  exact ⟨_, rfl, (keeps_ite (Keeps.refl _) (Keeps.after (keeps_foldl (fun _ _ => (keeps_engineSlot ..)) _ _) (Keeps.after (keeps_ite
      (keeps_answersInForce ..) (Keeps.refl _)) (keeps_toInstant ..))))⟩

theorem keeps_execPpsEdge (t : Nat) (falling : Bool) (s : State) : ∃ u, execPpsEdge t falling s = .next u ∧ Keeps s u := by
  unfold execPpsEdge
  exact ⟨_, rfl, (Keeps.after (keeps_kinPpsEdge ..) (Keeps.after (keeps_clkPpsEdge ..) (keeps_toInstant ..)))⟩

theorem keeps_enumerate (pos : Nat) (s : State)  : Keeps s (enumerate pos s) := by
  unfold enumerate
  exact (keeps_ite (Keeps.refl _) keeps_mk)

theorem keeps_faultReceive (src : Nat) (b : List Byte) (s : State)  : Keeps s (faultReceive src b s) := by
  unfold faultReceive
  exact (by (try extract_lets); split; exact (keeps_linkFault ..); exact (keeps_faultObj ..); exact (keeps_class1 ..))

theorem keeps_packetConsume (p : Packet) (s : State)  : Keeps s (packetConsume p s) := by
  unfold packetConsume
  exact (by (try extract_lets); split; exact (keeps_after (keeps_execBroadcastReceive ..)); exact (keeps_after (keeps_execMarkRecordArrival ..)); exact (keeps_after (keeps_execMarkRecordArrival ..)); exact (keeps_after (keeps_execAnswerReceive ..)); exact (keeps_after (keeps_execSectionRecordReceive ..)); exact (keeps_ite (keeps_lockReceive ..) (Keeps.refl _)); exact keeps_mk; exact (keeps_after (keeps_execClusterRefCheck ..)); exact (keeps_refReplied ..); exact (keeps_enumerate ..); exact (keeps_faultReceive ..); exact (keeps_viewReceive ..); exact (keeps_chanReport ..); exact keeps_mk)

theorem keeps_packetForward (p : Packet) (s : State)  : Keeps s (packetForward p s) := by
  unfold packetForward
  exact keeps_mk

theorem keeps_execOslPacketReceive (p : Packet) (crcOk : Bool) (s : State) : ∃ u, execOslPacketReceive p crcOk s = .next u ∧ Keeps s u := by
  unfold execOslPacketReceive
  exact ⟨_, rfl, (keeps_ite (Keeps.refl _) (keeps_ite (Keeps.after (keeps_raise0 ..) keeps_mk) (keeps_ite (keeps_ite (Keeps.after (keeps_ite
      (keeps_packetForward ..) (Keeps.refl _)) (keeps_packetConsume ..)) (Keeps.refl _)) (keeps_ite (keeps_packetConsume ..) (keeps_packetForward
      ..)))))⟩

end Sys2Proof.Machine
end

