-- ==== Sys2Proof/Laws/State.lean ====
section
/-! SUPPORT. Each field of the state after each of the named updates that leave it alone, for the simplifier. -/

namespace Sys2Proof.Machine

/-! ### setRing -/

@[simp] theorem setRing_pending (r : Nat) (f : Ring → Ring) (s : State) : (setRing r f s).pending = s.pending := rfl
@[simp] theorem setRing_gtc (r : Nat) (f : Ring → Ring) (s : State) : (setRing r f s).gtc = s.gtc := rfl
@[simp] theorem setRing_freeCount (r : Nat) (f : Ring → Ring) (s : State) : (setRing r f s).freeCount = s.freeCount := rfl
@[simp] theorem setRing_clk (r : Nat) (f : Ring → Ring) (s : State) : (setRing r f s).clk = s.clk := rfl
@[simp] theorem setRing_osl (r : Nat) (f : Ring → Ring) (s : State) : (setRing r f s).osl = s.osl := rfl
@[simp] theorem setRing_mailbox (r : Nat) (f : Ring → Ring) (s : State) : (setRing r f s).mailbox = s.mailbox := rfl
@[simp] theorem setRing_hostMem (r : Nat) (f : Ring → Ring) (s : State) : (setRing r f s).hostMem = s.hostMem := rfl
@[simp] theorem setRing_objs (r : Nat) (f : Ring → Ring) (s : State) : (setRing r f s).objs = s.objs := rfl
@[simp] theorem setRing_gens (r : Nat) (f : Ring → Ring) (s : State) : (setRing r f s).gens = s.gens := rfl
@[simp] theorem setRing_eng (r : Nat) (f : Ring → Ring) (s : State) : (setRing r f s).eng = s.eng := rfl
@[simp] theorem setRing_isl (r : Nat) (f : Ring → Ring) (s : State) : (setRing r f s).isl = s.isl := rfl
@[simp] theorem setRing_sec (r : Nat) (f : Ring → Ring) (s : State) : (setRing r f s).sec = s.sec := rfl
@[simp] theorem setRing_sched (r : Nat) (f : Ring → Ring) (s : State) : (setRing r f s).sched = s.sched := rfl
@[simp] theorem setRing_boot (r : Nat) (f : Ring → Ring) (s : State) : (setRing r f s).boot = s.boot := rfl
@[simp] theorem setRing_pwr (r : Nat) (f : Ring → Ring) (s : State) : (setRing r f s).pwr = s.pwr := rfl
@[simp] theorem setRing_leg (r : Nat) (f : Ring → Ring) (s : State) : (setRing r f s).leg = s.leg := rfl
@[simp] theorem setRing_pg (r : Nat) (f : Ring → Ring) (s : State) : (setRing r f s).pg = s.pg := rfl
@[simp] theorem setRing_swd (r : Nat) (f : Ring → Ring) (s : State) : (setRing r f s).swd = s.swd := rfl
@[simp] theorem setRing_boost (r : Nat) (f : Ring → Ring) (s : State) : (setRing r f s).boost = s.boost := rfl
@[simp] theorem setRing_fbd (r : Nat) (f : Ring → Ring) (s : State) : (setRing r f s).fbd = s.fbd := rfl
@[simp] theorem setRing_isb (r : Nat) (f : Ring → Ring) (s : State) : (setRing r f s).isb = s.isb := rfl
@[simp] theorem setRing_cand (r : Nat) (f : Ring → Ring) (s : State) : (setRing r f s).cand = s.cand := rfl
@[simp] theorem setRing_kin (r : Nat) (f : Ring → Ring) (s : State) : (setRing r f s).kin = s.kin := rfl
@[simp] theorem setRing_board (r : Nat) (f : Ring → Ring) (s : State) : (setRing r f s).board = s.board := rfl
@[simp] theorem setRing_trc (r : Nat) (f : Ring → Ring) (s : State) : (setRing r f s).trc = s.trc := rfl

/-! ### updObj -/

@[simp] theorem updObj_pending (i : Nat) (f : Obj → Obj) (s : State) : (updObj i f s).pending = s.pending := rfl
@[simp] theorem updObj_gtc (i : Nat) (f : Obj → Obj) (s : State) : (updObj i f s).gtc = s.gtc := rfl
@[simp] theorem updObj_freeCount (i : Nat) (f : Obj → Obj) (s : State) : (updObj i f s).freeCount = s.freeCount := rfl
@[simp] theorem updObj_clk (i : Nat) (f : Obj → Obj) (s : State) : (updObj i f s).clk = s.clk := rfl
@[simp] theorem updObj_osl (i : Nat) (f : Obj → Obj) (s : State) : (updObj i f s).osl = s.osl := rfl
@[simp] theorem updObj_hif (i : Nat) (f : Obj → Obj) (s : State) : (updObj i f s).hif = s.hif := rfl
@[simp] theorem updObj_mailbox (i : Nat) (f : Obj → Obj) (s : State) : (updObj i f s).mailbox = s.mailbox := rfl
@[simp] theorem updObj_hostMem (i : Nat) (f : Obj → Obj) (s : State) : (updObj i f s).hostMem = s.hostMem := rfl
@[simp] theorem updObj_gens (i : Nat) (f : Obj → Obj) (s : State) : (updObj i f s).gens = s.gens := rfl
@[simp] theorem updObj_eng (i : Nat) (f : Obj → Obj) (s : State) : (updObj i f s).eng = s.eng := rfl
@[simp] theorem updObj_isl (i : Nat) (f : Obj → Obj) (s : State) : (updObj i f s).isl = s.isl := rfl
@[simp] theorem updObj_sec (i : Nat) (f : Obj → Obj) (s : State) : (updObj i f s).sec = s.sec := rfl
@[simp] theorem updObj_sched (i : Nat) (f : Obj → Obj) (s : State) : (updObj i f s).sched = s.sched := rfl
@[simp] theorem updObj_boot (i : Nat) (f : Obj → Obj) (s : State) : (updObj i f s).boot = s.boot := rfl
@[simp] theorem updObj_pwr (i : Nat) (f : Obj → Obj) (s : State) : (updObj i f s).pwr = s.pwr := rfl
@[simp] theorem updObj_leg (i : Nat) (f : Obj → Obj) (s : State) : (updObj i f s).leg = s.leg := rfl
@[simp] theorem updObj_pg (i : Nat) (f : Obj → Obj) (s : State) : (updObj i f s).pg = s.pg := rfl
@[simp] theorem updObj_swd (i : Nat) (f : Obj → Obj) (s : State) : (updObj i f s).swd = s.swd := rfl
@[simp] theorem updObj_boost (i : Nat) (f : Obj → Obj) (s : State) : (updObj i f s).boost = s.boost := rfl
@[simp] theorem updObj_fbd (i : Nat) (f : Obj → Obj) (s : State) : (updObj i f s).fbd = s.fbd := rfl
@[simp] theorem updObj_isb (i : Nat) (f : Obj → Obj) (s : State) : (updObj i f s).isb = s.isb := rfl
@[simp] theorem updObj_cand (i : Nat) (f : Obj → Obj) (s : State) : (updObj i f s).cand = s.cand := rfl
@[simp] theorem updObj_kin (i : Nat) (f : Obj → Obj) (s : State) : (updObj i f s).kin = s.kin := rfl
@[simp] theorem updObj_board (i : Nat) (f : Obj → Obj) (s : State) : (updObj i f s).board = s.board := rfl
@[simp] theorem updObj_trc (i : Nat) (f : Obj → Obj) (s : State) : (updObj i f s).trc = s.trc := rfl

/-! ### updH -/

@[simp] theorem updH_pending (h : Nat) (f : Obj → Obj) (s : State) : (updH h f s).pending = s.pending := rfl
@[simp] theorem updH_gtc (h : Nat) (f : Obj → Obj) (s : State) : (updH h f s).gtc = s.gtc := rfl
@[simp] theorem updH_freeCount (h : Nat) (f : Obj → Obj) (s : State) : (updH h f s).freeCount = s.freeCount := rfl
@[simp] theorem updH_clk (h : Nat) (f : Obj → Obj) (s : State) : (updH h f s).clk = s.clk := rfl
@[simp] theorem updH_osl (h : Nat) (f : Obj → Obj) (s : State) : (updH h f s).osl = s.osl := rfl
@[simp] theorem updH_hif (h : Nat) (f : Obj → Obj) (s : State) : (updH h f s).hif = s.hif := rfl
@[simp] theorem updH_mailbox (h : Nat) (f : Obj → Obj) (s : State) : (updH h f s).mailbox = s.mailbox := rfl
@[simp] theorem updH_hostMem (h : Nat) (f : Obj → Obj) (s : State) : (updH h f s).hostMem = s.hostMem := rfl
@[simp] theorem updH_gens (h : Nat) (f : Obj → Obj) (s : State) : (updH h f s).gens = s.gens := rfl
@[simp] theorem updH_eng (h : Nat) (f : Obj → Obj) (s : State) : (updH h f s).eng = s.eng := rfl
@[simp] theorem updH_isl (h : Nat) (f : Obj → Obj) (s : State) : (updH h f s).isl = s.isl := rfl
@[simp] theorem updH_sec (h : Nat) (f : Obj → Obj) (s : State) : (updH h f s).sec = s.sec := rfl
@[simp] theorem updH_sched (h : Nat) (f : Obj → Obj) (s : State) : (updH h f s).sched = s.sched := rfl
@[simp] theorem updH_boot (h : Nat) (f : Obj → Obj) (s : State) : (updH h f s).boot = s.boot := rfl
@[simp] theorem updH_pwr (h : Nat) (f : Obj → Obj) (s : State) : (updH h f s).pwr = s.pwr := rfl
@[simp] theorem updH_leg (h : Nat) (f : Obj → Obj) (s : State) : (updH h f s).leg = s.leg := rfl
@[simp] theorem updH_pg (h : Nat) (f : Obj → Obj) (s : State) : (updH h f s).pg = s.pg := rfl
@[simp] theorem updH_swd (h : Nat) (f : Obj → Obj) (s : State) : (updH h f s).swd = s.swd := rfl
@[simp] theorem updH_boost (h : Nat) (f : Obj → Obj) (s : State) : (updH h f s).boost = s.boost := rfl
@[simp] theorem updH_fbd (h : Nat) (f : Obj → Obj) (s : State) : (updH h f s).fbd = s.fbd := rfl
@[simp] theorem updH_isb (h : Nat) (f : Obj → Obj) (s : State) : (updH h f s).isb = s.isb := rfl
@[simp] theorem updH_cand (h : Nat) (f : Obj → Obj) (s : State) : (updH h f s).cand = s.cand := rfl
@[simp] theorem updH_kin (h : Nat) (f : Obj → Obj) (s : State) : (updH h f s).kin = s.kin := rfl
@[simp] theorem updH_board (h : Nat) (f : Obj → Obj) (s : State) : (updH h f s).board = s.board := rfl
@[simp] theorem updH_trc (h : Nat) (f : Obj → Obj) (s : State) : (updH h f s).trc = s.trc := rfl

/-! ### updGroup -/

@[simp] theorem updGroup_pending (g : Nat) (f : PgGroup → PgGroup) (s : State) : (updGroup g f s).pending = s.pending := rfl
@[simp] theorem updGroup_gtc (g : Nat) (f : PgGroup → PgGroup) (s : State) : (updGroup g f s).gtc = s.gtc := rfl
@[simp] theorem updGroup_freeCount (g : Nat) (f : PgGroup → PgGroup) (s : State) : (updGroup g f s).freeCount = s.freeCount := rfl
@[simp] theorem updGroup_clk (g : Nat) (f : PgGroup → PgGroup) (s : State) : (updGroup g f s).clk = s.clk := rfl
@[simp] theorem updGroup_osl (g : Nat) (f : PgGroup → PgGroup) (s : State) : (updGroup g f s).osl = s.osl := rfl
@[simp] theorem updGroup_hif (g : Nat) (f : PgGroup → PgGroup) (s : State) : (updGroup g f s).hif = s.hif := rfl
@[simp] theorem updGroup_mailbox (g : Nat) (f : PgGroup → PgGroup) (s : State) : (updGroup g f s).mailbox = s.mailbox := rfl
@[simp] theorem updGroup_hostMem (g : Nat) (f : PgGroup → PgGroup) (s : State) : (updGroup g f s).hostMem = s.hostMem := rfl
@[simp] theorem updGroup_objs (g : Nat) (f : PgGroup → PgGroup) (s : State) : (updGroup g f s).objs = s.objs := rfl
@[simp] theorem updGroup_gens (g : Nat) (f : PgGroup → PgGroup) (s : State) : (updGroup g f s).gens = s.gens := rfl
@[simp] theorem updGroup_eng (g : Nat) (f : PgGroup → PgGroup) (s : State) : (updGroup g f s).eng = s.eng := rfl
@[simp] theorem updGroup_isl (g : Nat) (f : PgGroup → PgGroup) (s : State) : (updGroup g f s).isl = s.isl := rfl
@[simp] theorem updGroup_sec (g : Nat) (f : PgGroup → PgGroup) (s : State) : (updGroup g f s).sec = s.sec := rfl
@[simp] theorem updGroup_sched (g : Nat) (f : PgGroup → PgGroup) (s : State) : (updGroup g f s).sched = s.sched := rfl
@[simp] theorem updGroup_boot (g : Nat) (f : PgGroup → PgGroup) (s : State) : (updGroup g f s).boot = s.boot := rfl
@[simp] theorem updGroup_pwr (g : Nat) (f : PgGroup → PgGroup) (s : State) : (updGroup g f s).pwr = s.pwr := rfl
@[simp] theorem updGroup_leg (g : Nat) (f : PgGroup → PgGroup) (s : State) : (updGroup g f s).leg = s.leg := rfl
@[simp] theorem updGroup_swd (g : Nat) (f : PgGroup → PgGroup) (s : State) : (updGroup g f s).swd = s.swd := rfl
@[simp] theorem updGroup_boost (g : Nat) (f : PgGroup → PgGroup) (s : State) : (updGroup g f s).boost = s.boost := rfl
@[simp] theorem updGroup_fbd (g : Nat) (f : PgGroup → PgGroup) (s : State) : (updGroup g f s).fbd = s.fbd := rfl
@[simp] theorem updGroup_isb (g : Nat) (f : PgGroup → PgGroup) (s : State) : (updGroup g f s).isb = s.isb := rfl
@[simp] theorem updGroup_cand (g : Nat) (f : PgGroup → PgGroup) (s : State) : (updGroup g f s).cand = s.cand := rfl
@[simp] theorem updGroup_kin (g : Nat) (f : PgGroup → PgGroup) (s : State) : (updGroup g f s).kin = s.kin := rfl
@[simp] theorem updGroup_board (g : Nat) (f : PgGroup → PgGroup) (s : State) : (updGroup g f s).board = s.board := rfl
@[simp] theorem updGroup_trc (g : Nat) (f : PgGroup → PgGroup) (s : State) : (updGroup g f s).trc = s.trc := rfl

/-! ### updEngine -/

@[simp] theorem updEngine_pending (e : Nat) (f : Engine → Engine) (s : State) : (updEngine e f s).pending = s.pending := rfl
@[simp] theorem updEngine_gtc (e : Nat) (f : Engine → Engine) (s : State) : (updEngine e f s).gtc = s.gtc := rfl
@[simp] theorem updEngine_freeCount (e : Nat) (f : Engine → Engine) (s : State) : (updEngine e f s).freeCount = s.freeCount := rfl
@[simp] theorem updEngine_clk (e : Nat) (f : Engine → Engine) (s : State) : (updEngine e f s).clk = s.clk := rfl
@[simp] theorem updEngine_osl (e : Nat) (f : Engine → Engine) (s : State) : (updEngine e f s).osl = s.osl := rfl
@[simp] theorem updEngine_hif (e : Nat) (f : Engine → Engine) (s : State) : (updEngine e f s).hif = s.hif := rfl
@[simp] theorem updEngine_mailbox (e : Nat) (f : Engine → Engine) (s : State) : (updEngine e f s).mailbox = s.mailbox := rfl
@[simp] theorem updEngine_hostMem (e : Nat) (f : Engine → Engine) (s : State) : (updEngine e f s).hostMem = s.hostMem := rfl
@[simp] theorem updEngine_objs (e : Nat) (f : Engine → Engine) (s : State) : (updEngine e f s).objs = s.objs := rfl
@[simp] theorem updEngine_gens (e : Nat) (f : Engine → Engine) (s : State) : (updEngine e f s).gens = s.gens := rfl
@[simp] theorem updEngine_isl (e : Nat) (f : Engine → Engine) (s : State) : (updEngine e f s).isl = s.isl := rfl
@[simp] theorem updEngine_sec (e : Nat) (f : Engine → Engine) (s : State) : (updEngine e f s).sec = s.sec := rfl
@[simp] theorem updEngine_sched (e : Nat) (f : Engine → Engine) (s : State) : (updEngine e f s).sched = s.sched := rfl
@[simp] theorem updEngine_boot (e : Nat) (f : Engine → Engine) (s : State) : (updEngine e f s).boot = s.boot := rfl
@[simp] theorem updEngine_pwr (e : Nat) (f : Engine → Engine) (s : State) : (updEngine e f s).pwr = s.pwr := rfl
@[simp] theorem updEngine_leg (e : Nat) (f : Engine → Engine) (s : State) : (updEngine e f s).leg = s.leg := rfl
@[simp] theorem updEngine_pg (e : Nat) (f : Engine → Engine) (s : State) : (updEngine e f s).pg = s.pg := rfl
@[simp] theorem updEngine_swd (e : Nat) (f : Engine → Engine) (s : State) : (updEngine e f s).swd = s.swd := rfl
@[simp] theorem updEngine_boost (e : Nat) (f : Engine → Engine) (s : State) : (updEngine e f s).boost = s.boost := rfl
@[simp] theorem updEngine_fbd (e : Nat) (f : Engine → Engine) (s : State) : (updEngine e f s).fbd = s.fbd := rfl
@[simp] theorem updEngine_isb (e : Nat) (f : Engine → Engine) (s : State) : (updEngine e f s).isb = s.isb := rfl
@[simp] theorem updEngine_cand (e : Nat) (f : Engine → Engine) (s : State) : (updEngine e f s).cand = s.cand := rfl
@[simp] theorem updEngine_kin (e : Nat) (f : Engine → Engine) (s : State) : (updEngine e f s).kin = s.kin := rfl
@[simp] theorem updEngine_board (e : Nat) (f : Engine → Engine) (s : State) : (updEngine e f s).board = s.board := rfl
@[simp] theorem updEngine_trc (e : Nat) (f : Engine → Engine) (s : State) : (updEngine e f s).trc = s.trc := rfl

/-! ### sendFault -/

@[simp] theorem sendFault_pending (pos kind h : Nat) (data : List Byte) (s : State) : (sendFault pos kind h data s).pending = s.pending := rfl
@[simp] theorem sendFault_gtc (pos kind h : Nat) (data : List Byte) (s : State) : (sendFault pos kind h data s).gtc = s.gtc := rfl
@[simp] theorem sendFault_freeCount (pos kind h : Nat) (data : List Byte) (s : State) : (sendFault pos kind h data s).freeCount = s.freeCount := rfl
@[simp] theorem sendFault_clk (pos kind h : Nat) (data : List Byte) (s : State) : (sendFault pos kind h data s).clk = s.clk := rfl
@[simp] theorem sendFault_hif (pos kind h : Nat) (data : List Byte) (s : State) : (sendFault pos kind h data s).hif = s.hif := rfl
@[simp] theorem sendFault_mailbox (pos kind h : Nat) (data : List Byte) (s : State) : (sendFault pos kind h data s).mailbox = s.mailbox := rfl
@[simp] theorem sendFault_hostMem (pos kind h : Nat) (data : List Byte) (s : State) : (sendFault pos kind h data s).hostMem = s.hostMem := rfl
@[simp] theorem sendFault_objs (pos kind h : Nat) (data : List Byte) (s : State) : (sendFault pos kind h data s).objs = s.objs := rfl
@[simp] theorem sendFault_gens (pos kind h : Nat) (data : List Byte) (s : State) : (sendFault pos kind h data s).gens = s.gens := rfl
@[simp] theorem sendFault_eng (pos kind h : Nat) (data : List Byte) (s : State) : (sendFault pos kind h data s).eng = s.eng := rfl
@[simp] theorem sendFault_isl (pos kind h : Nat) (data : List Byte) (s : State) : (sendFault pos kind h data s).isl = s.isl := rfl
@[simp] theorem sendFault_sec (pos kind h : Nat) (data : List Byte) (s : State) : (sendFault pos kind h data s).sec = s.sec := rfl
@[simp] theorem sendFault_sched (pos kind h : Nat) (data : List Byte) (s : State) : (sendFault pos kind h data s).sched = s.sched := rfl
@[simp] theorem sendFault_boot (pos kind h : Nat) (data : List Byte) (s : State) : (sendFault pos kind h data s).boot = s.boot := rfl
@[simp] theorem sendFault_pwr (pos kind h : Nat) (data : List Byte) (s : State) : (sendFault pos kind h data s).pwr = s.pwr := rfl
@[simp] theorem sendFault_leg (pos kind h : Nat) (data : List Byte) (s : State) : (sendFault pos kind h data s).leg = s.leg := rfl
@[simp] theorem sendFault_pg (pos kind h : Nat) (data : List Byte) (s : State) : (sendFault pos kind h data s).pg = s.pg := rfl
@[simp] theorem sendFault_swd (pos kind h : Nat) (data : List Byte) (s : State) : (sendFault pos kind h data s).swd = s.swd := rfl
@[simp] theorem sendFault_boost (pos kind h : Nat) (data : List Byte) (s : State) : (sendFault pos kind h data s).boost = s.boost := rfl
@[simp] theorem sendFault_fbd (pos kind h : Nat) (data : List Byte) (s : State) : (sendFault pos kind h data s).fbd = s.fbd := rfl
@[simp] theorem sendFault_isb (pos kind h : Nat) (data : List Byte) (s : State) : (sendFault pos kind h data s).isb = s.isb := rfl
@[simp] theorem sendFault_cand (pos kind h : Nat) (data : List Byte) (s : State) : (sendFault pos kind h data s).cand = s.cand := rfl
@[simp] theorem sendFault_kin (pos kind h : Nat) (data : List Byte) (s : State) : (sendFault pos kind h data s).kin = s.kin := rfl
@[simp] theorem sendFault_board (pos kind h : Nat) (data : List Byte) (s : State) : (sendFault pos kind h data s).board = s.board := rfl
@[simp] theorem sendFault_trc (pos kind h : Nat) (data : List Byte) (s : State) : (sendFault pos kind h data s).trc = s.trc := rfl

/-! ### conditionEnded -/

@[simp] theorem conditionEnded_pending (code : Nat) (s : State) : (conditionEnded code s).pending = s.pending := rfl
@[simp] theorem conditionEnded_gtc (code : Nat) (s : State) : (conditionEnded code s).gtc = s.gtc := rfl
@[simp] theorem conditionEnded_freeCount (code : Nat) (s : State) : (conditionEnded code s).freeCount = s.freeCount := rfl
@[simp] theorem conditionEnded_clk (code : Nat) (s : State) : (conditionEnded code s).clk = s.clk := rfl
@[simp] theorem conditionEnded_osl (code : Nat) (s : State) : (conditionEnded code s).osl = s.osl := rfl
@[simp] theorem conditionEnded_hif (code : Nat) (s : State) : (conditionEnded code s).hif = s.hif := rfl
@[simp] theorem conditionEnded_mailbox (code : Nat) (s : State) : (conditionEnded code s).mailbox = s.mailbox := rfl
@[simp] theorem conditionEnded_hostMem (code : Nat) (s : State) : (conditionEnded code s).hostMem = s.hostMem := rfl
@[simp] theorem conditionEnded_objs (code : Nat) (s : State) : (conditionEnded code s).objs = s.objs := rfl
@[simp] theorem conditionEnded_gens (code : Nat) (s : State) : (conditionEnded code s).gens = s.gens := rfl
@[simp] theorem conditionEnded_eng (code : Nat) (s : State) : (conditionEnded code s).eng = s.eng := rfl
@[simp] theorem conditionEnded_sec (code : Nat) (s : State) : (conditionEnded code s).sec = s.sec := rfl
@[simp] theorem conditionEnded_sched (code : Nat) (s : State) : (conditionEnded code s).sched = s.sched := rfl
@[simp] theorem conditionEnded_boot (code : Nat) (s : State) : (conditionEnded code s).boot = s.boot := rfl
@[simp] theorem conditionEnded_pwr (code : Nat) (s : State) : (conditionEnded code s).pwr = s.pwr := rfl
@[simp] theorem conditionEnded_leg (code : Nat) (s : State) : (conditionEnded code s).leg = s.leg := rfl
@[simp] theorem conditionEnded_pg (code : Nat) (s : State) : (conditionEnded code s).pg = s.pg := rfl
@[simp] theorem conditionEnded_swd (code : Nat) (s : State) : (conditionEnded code s).swd = s.swd := rfl
@[simp] theorem conditionEnded_boost (code : Nat) (s : State) : (conditionEnded code s).boost = s.boost := rfl
@[simp] theorem conditionEnded_fbd (code : Nat) (s : State) : (conditionEnded code s).fbd = s.fbd := rfl
@[simp] theorem conditionEnded_isb (code : Nat) (s : State) : (conditionEnded code s).isb = s.isb := rfl
@[simp] theorem conditionEnded_cand (code : Nat) (s : State) : (conditionEnded code s).cand = s.cand := rfl
@[simp] theorem conditionEnded_kin (code : Nat) (s : State) : (conditionEnded code s).kin = s.kin := rfl
@[simp] theorem conditionEnded_board (code : Nat) (s : State) : (conditionEnded code s).board = s.board := rfl
@[simp] theorem conditionEnded_trc (code : Nat) (s : State) : (conditionEnded code s).trc = s.trc := rfl

/-! ### updSlot -/

@[simp] theorem updSlot_pending (i : Nat) (f : KeySlot → KeySlot) (s : State) : (updSlot i f s).pending = s.pending := rfl
@[simp] theorem updSlot_gtc (i : Nat) (f : KeySlot → KeySlot) (s : State) : (updSlot i f s).gtc = s.gtc := rfl
@[simp] theorem updSlot_freeCount (i : Nat) (f : KeySlot → KeySlot) (s : State) : (updSlot i f s).freeCount = s.freeCount := rfl
@[simp] theorem updSlot_clk (i : Nat) (f : KeySlot → KeySlot) (s : State) : (updSlot i f s).clk = s.clk := rfl
@[simp] theorem updSlot_osl (i : Nat) (f : KeySlot → KeySlot) (s : State) : (updSlot i f s).osl = s.osl := rfl
@[simp] theorem updSlot_hif (i : Nat) (f : KeySlot → KeySlot) (s : State) : (updSlot i f s).hif = s.hif := rfl
@[simp] theorem updSlot_mailbox (i : Nat) (f : KeySlot → KeySlot) (s : State) : (updSlot i f s).mailbox = s.mailbox := rfl
@[simp] theorem updSlot_hostMem (i : Nat) (f : KeySlot → KeySlot) (s : State) : (updSlot i f s).hostMem = s.hostMem := rfl
@[simp] theorem updSlot_objs (i : Nat) (f : KeySlot → KeySlot) (s : State) : (updSlot i f s).objs = s.objs := rfl
@[simp] theorem updSlot_gens (i : Nat) (f : KeySlot → KeySlot) (s : State) : (updSlot i f s).gens = s.gens := rfl
@[simp] theorem updSlot_eng (i : Nat) (f : KeySlot → KeySlot) (s : State) : (updSlot i f s).eng = s.eng := rfl
@[simp] theorem updSlot_isl (i : Nat) (f : KeySlot → KeySlot) (s : State) : (updSlot i f s).isl = s.isl := rfl
@[simp] theorem updSlot_sched (i : Nat) (f : KeySlot → KeySlot) (s : State) : (updSlot i f s).sched = s.sched := rfl
@[simp] theorem updSlot_boot (i : Nat) (f : KeySlot → KeySlot) (s : State) : (updSlot i f s).boot = s.boot := rfl
@[simp] theorem updSlot_pwr (i : Nat) (f : KeySlot → KeySlot) (s : State) : (updSlot i f s).pwr = s.pwr := rfl
@[simp] theorem updSlot_leg (i : Nat) (f : KeySlot → KeySlot) (s : State) : (updSlot i f s).leg = s.leg := rfl
@[simp] theorem updSlot_pg (i : Nat) (f : KeySlot → KeySlot) (s : State) : (updSlot i f s).pg = s.pg := rfl
@[simp] theorem updSlot_swd (i : Nat) (f : KeySlot → KeySlot) (s : State) : (updSlot i f s).swd = s.swd := rfl
@[simp] theorem updSlot_boost (i : Nat) (f : KeySlot → KeySlot) (s : State) : (updSlot i f s).boost = s.boost := rfl
@[simp] theorem updSlot_fbd (i : Nat) (f : KeySlot → KeySlot) (s : State) : (updSlot i f s).fbd = s.fbd := rfl
@[simp] theorem updSlot_isb (i : Nat) (f : KeySlot → KeySlot) (s : State) : (updSlot i f s).isb = s.isb := rfl
@[simp] theorem updSlot_cand (i : Nat) (f : KeySlot → KeySlot) (s : State) : (updSlot i f s).cand = s.cand := rfl
@[simp] theorem updSlot_kin (i : Nat) (f : KeySlot → KeySlot) (s : State) : (updSlot i f s).kin = s.kin := rfl
@[simp] theorem updSlot_board (i : Nat) (f : KeySlot → KeySlot) (s : State) : (updSlot i f s).board = s.board := rfl
@[simp] theorem updSlot_trc (i : Nat) (f : KeySlot → KeySlot) (s : State) : (updSlot i f s).trc = s.trc := rfl

/-! ### updSession -/

@[simp] theorem updSession_pending (sq : Nat) (f : Session → Session) (s : State) : (updSession sq f s).pending = s.pending := rfl
@[simp] theorem updSession_gtc (sq : Nat) (f : Session → Session) (s : State) : (updSession sq f s).gtc = s.gtc := rfl
@[simp] theorem updSession_freeCount (sq : Nat) (f : Session → Session) (s : State) : (updSession sq f s).freeCount = s.freeCount := rfl
@[simp] theorem updSession_clk (sq : Nat) (f : Session → Session) (s : State) : (updSession sq f s).clk = s.clk := rfl
@[simp] theorem updSession_osl (sq : Nat) (f : Session → Session) (s : State) : (updSession sq f s).osl = s.osl := rfl
@[simp] theorem updSession_hif (sq : Nat) (f : Session → Session) (s : State) : (updSession sq f s).hif = s.hif := rfl
@[simp] theorem updSession_mailbox (sq : Nat) (f : Session → Session) (s : State) : (updSession sq f s).mailbox = s.mailbox := rfl
@[simp] theorem updSession_hostMem (sq : Nat) (f : Session → Session) (s : State) : (updSession sq f s).hostMem = s.hostMem := rfl
@[simp] theorem updSession_objs (sq : Nat) (f : Session → Session) (s : State) : (updSession sq f s).objs = s.objs := rfl
@[simp] theorem updSession_gens (sq : Nat) (f : Session → Session) (s : State) : (updSession sq f s).gens = s.gens := rfl
@[simp] theorem updSession_eng (sq : Nat) (f : Session → Session) (s : State) : (updSession sq f s).eng = s.eng := rfl
@[simp] theorem updSession_isl (sq : Nat) (f : Session → Session) (s : State) : (updSession sq f s).isl = s.isl := rfl
@[simp] theorem updSession_sched (sq : Nat) (f : Session → Session) (s : State) : (updSession sq f s).sched = s.sched := rfl
@[simp] theorem updSession_boot (sq : Nat) (f : Session → Session) (s : State) : (updSession sq f s).boot = s.boot := rfl
@[simp] theorem updSession_pwr (sq : Nat) (f : Session → Session) (s : State) : (updSession sq f s).pwr = s.pwr := rfl
@[simp] theorem updSession_leg (sq : Nat) (f : Session → Session) (s : State) : (updSession sq f s).leg = s.leg := rfl
@[simp] theorem updSession_pg (sq : Nat) (f : Session → Session) (s : State) : (updSession sq f s).pg = s.pg := rfl
@[simp] theorem updSession_swd (sq : Nat) (f : Session → Session) (s : State) : (updSession sq f s).swd = s.swd := rfl
@[simp] theorem updSession_boost (sq : Nat) (f : Session → Session) (s : State) : (updSession sq f s).boost = s.boost := rfl
@[simp] theorem updSession_fbd (sq : Nat) (f : Session → Session) (s : State) : (updSession sq f s).fbd = s.fbd := rfl
@[simp] theorem updSession_isb (sq : Nat) (f : Session → Session) (s : State) : (updSession sq f s).isb = s.isb := rfl
@[simp] theorem updSession_cand (sq : Nat) (f : Session → Session) (s : State) : (updSession sq f s).cand = s.cand := rfl
@[simp] theorem updSession_kin (sq : Nat) (f : Session → Session) (s : State) : (updSession sq f s).kin = s.kin := rfl
@[simp] theorem updSession_board (sq : Nat) (f : Session → Session) (s : State) : (updSession sq f s).board = s.board := rfl
@[simp] theorem updSession_trc (sq : Nat) (f : Session → Session) (s : State) : (updSession sq f s).trc = s.trc := rfl

/-! ### updTrip -/

@[simp] theorem updTrip_pending (n : Nat) (f : Trip → Trip) (s : State) : (updTrip n f s).pending = s.pending := rfl
@[simp] theorem updTrip_gtc (n : Nat) (f : Trip → Trip) (s : State) : (updTrip n f s).gtc = s.gtc := rfl
@[simp] theorem updTrip_freeCount (n : Nat) (f : Trip → Trip) (s : State) : (updTrip n f s).freeCount = s.freeCount := rfl
@[simp] theorem updTrip_clk (n : Nat) (f : Trip → Trip) (s : State) : (updTrip n f s).clk = s.clk := rfl
@[simp] theorem updTrip_osl (n : Nat) (f : Trip → Trip) (s : State) : (updTrip n f s).osl = s.osl := rfl
@[simp] theorem updTrip_hif (n : Nat) (f : Trip → Trip) (s : State) : (updTrip n f s).hif = s.hif := rfl
@[simp] theorem updTrip_mailbox (n : Nat) (f : Trip → Trip) (s : State) : (updTrip n f s).mailbox = s.mailbox := rfl
@[simp] theorem updTrip_hostMem (n : Nat) (f : Trip → Trip) (s : State) : (updTrip n f s).hostMem = s.hostMem := rfl
@[simp] theorem updTrip_objs (n : Nat) (f : Trip → Trip) (s : State) : (updTrip n f s).objs = s.objs := rfl
@[simp] theorem updTrip_gens (n : Nat) (f : Trip → Trip) (s : State) : (updTrip n f s).gens = s.gens := rfl
@[simp] theorem updTrip_eng (n : Nat) (f : Trip → Trip) (s : State) : (updTrip n f s).eng = s.eng := rfl
@[simp] theorem updTrip_isl (n : Nat) (f : Trip → Trip) (s : State) : (updTrip n f s).isl = s.isl := rfl
@[simp] theorem updTrip_sec (n : Nat) (f : Trip → Trip) (s : State) : (updTrip n f s).sec = s.sec := rfl
@[simp] theorem updTrip_sched (n : Nat) (f : Trip → Trip) (s : State) : (updTrip n f s).sched = s.sched := rfl
@[simp] theorem updTrip_boot (n : Nat) (f : Trip → Trip) (s : State) : (updTrip n f s).boot = s.boot := rfl
@[simp] theorem updTrip_pwr (n : Nat) (f : Trip → Trip) (s : State) : (updTrip n f s).pwr = s.pwr := rfl
@[simp] theorem updTrip_leg (n : Nat) (f : Trip → Trip) (s : State) : (updTrip n f s).leg = s.leg := rfl
@[simp] theorem updTrip_swd (n : Nat) (f : Trip → Trip) (s : State) : (updTrip n f s).swd = s.swd := rfl
@[simp] theorem updTrip_boost (n : Nat) (f : Trip → Trip) (s : State) : (updTrip n f s).boost = s.boost := rfl
@[simp] theorem updTrip_fbd (n : Nat) (f : Trip → Trip) (s : State) : (updTrip n f s).fbd = s.fbd := rfl
@[simp] theorem updTrip_isb (n : Nat) (f : Trip → Trip) (s : State) : (updTrip n f s).isb = s.isb := rfl
@[simp] theorem updTrip_cand (n : Nat) (f : Trip → Trip) (s : State) : (updTrip n f s).cand = s.cand := rfl
@[simp] theorem updTrip_kin (n : Nat) (f : Trip → Trip) (s : State) : (updTrip n f s).kin = s.kin := rfl
@[simp] theorem updTrip_board (n : Nat) (f : Trip → Trip) (s : State) : (updTrip n f s).board = s.board := rfl
@[simp] theorem updTrip_trc (n : Nat) (f : Trip → Trip) (s : State) : (updTrip n f s).trc = s.trc := rfl

/-! ### setGpio -/

@[simp] theorem setGpio_pending (g : Nat) (v : Bool) (s : State) : (setGpio g v s).pending = s.pending := rfl
@[simp] theorem setGpio_gtc (g : Nat) (v : Bool) (s : State) : (setGpio g v s).gtc = s.gtc := rfl
@[simp] theorem setGpio_freeCount (g : Nat) (v : Bool) (s : State) : (setGpio g v s).freeCount = s.freeCount := rfl
@[simp] theorem setGpio_clk (g : Nat) (v : Bool) (s : State) : (setGpio g v s).clk = s.clk := rfl
@[simp] theorem setGpio_osl (g : Nat) (v : Bool) (s : State) : (setGpio g v s).osl = s.osl := rfl
@[simp] theorem setGpio_hif (g : Nat) (v : Bool) (s : State) : (setGpio g v s).hif = s.hif := rfl
@[simp] theorem setGpio_mailbox (g : Nat) (v : Bool) (s : State) : (setGpio g v s).mailbox = s.mailbox := rfl
@[simp] theorem setGpio_hostMem (g : Nat) (v : Bool) (s : State) : (setGpio g v s).hostMem = s.hostMem := rfl
@[simp] theorem setGpio_objs (g : Nat) (v : Bool) (s : State) : (setGpio g v s).objs = s.objs := rfl
@[simp] theorem setGpio_gens (g : Nat) (v : Bool) (s : State) : (setGpio g v s).gens = s.gens := rfl
@[simp] theorem setGpio_eng (g : Nat) (v : Bool) (s : State) : (setGpio g v s).eng = s.eng := rfl
@[simp] theorem setGpio_isl (g : Nat) (v : Bool) (s : State) : (setGpio g v s).isl = s.isl := rfl
@[simp] theorem setGpio_sec (g : Nat) (v : Bool) (s : State) : (setGpio g v s).sec = s.sec := rfl
@[simp] theorem setGpio_sched (g : Nat) (v : Bool) (s : State) : (setGpio g v s).sched = s.sched := rfl
@[simp] theorem setGpio_boot (g : Nat) (v : Bool) (s : State) : (setGpio g v s).boot = s.boot := rfl
@[simp] theorem setGpio_pwr (g : Nat) (v : Bool) (s : State) : (setGpio g v s).pwr = s.pwr := rfl
@[simp] theorem setGpio_leg (g : Nat) (v : Bool) (s : State) : (setGpio g v s).leg = s.leg := rfl
@[simp] theorem setGpio_swd (g : Nat) (v : Bool) (s : State) : (setGpio g v s).swd = s.swd := rfl
@[simp] theorem setGpio_boost (g : Nat) (v : Bool) (s : State) : (setGpio g v s).boost = s.boost := rfl
@[simp] theorem setGpio_fbd (g : Nat) (v : Bool) (s : State) : (setGpio g v s).fbd = s.fbd := rfl
@[simp] theorem setGpio_isb (g : Nat) (v : Bool) (s : State) : (setGpio g v s).isb = s.isb := rfl
@[simp] theorem setGpio_cand (g : Nat) (v : Bool) (s : State) : (setGpio g v s).cand = s.cand := rfl
@[simp] theorem setGpio_kin (g : Nat) (v : Bool) (s : State) : (setGpio g v s).kin = s.kin := rfl
@[simp] theorem setGpio_board (g : Nat) (v : Bool) (s : State) : (setGpio g v s).board = s.board := rfl
@[simp] theorem setGpio_trc (g : Nat) (v : Bool) (s : State) : (setGpio g v s).trc = s.trc := rfl

/-! ### wdtRestart -/

@[simp] theorem wdtRestart_pending (s : State) : (wdtRestart s).pending = s.pending := rfl
@[simp] theorem wdtRestart_gtc (s : State) : (wdtRestart s).gtc = s.gtc := rfl
@[simp] theorem wdtRestart_freeCount (s : State) : (wdtRestart s).freeCount = s.freeCount := rfl
@[simp] theorem wdtRestart_clk (s : State) : (wdtRestart s).clk = s.clk := rfl
@[simp] theorem wdtRestart_osl (s : State) : (wdtRestart s).osl = s.osl := rfl
@[simp] theorem wdtRestart_hif (s : State) : (wdtRestart s).hif = s.hif := rfl
@[simp] theorem wdtRestart_mailbox (s : State) : (wdtRestart s).mailbox = s.mailbox := rfl
@[simp] theorem wdtRestart_hostMem (s : State) : (wdtRestart s).hostMem = s.hostMem := rfl
@[simp] theorem wdtRestart_objs (s : State) : (wdtRestart s).objs = s.objs := rfl
@[simp] theorem wdtRestart_gens (s : State) : (wdtRestart s).gens = s.gens := rfl
@[simp] theorem wdtRestart_eng (s : State) : (wdtRestart s).eng = s.eng := rfl
@[simp] theorem wdtRestart_sec (s : State) : (wdtRestart s).sec = s.sec := rfl
@[simp] theorem wdtRestart_sched (s : State) : (wdtRestart s).sched = s.sched := rfl
@[simp] theorem wdtRestart_boot (s : State) : (wdtRestart s).boot = s.boot := rfl
@[simp] theorem wdtRestart_pwr (s : State) : (wdtRestart s).pwr = s.pwr := rfl
@[simp] theorem wdtRestart_leg (s : State) : (wdtRestart s).leg = s.leg := rfl
@[simp] theorem wdtRestart_pg (s : State) : (wdtRestart s).pg = s.pg := rfl
@[simp] theorem wdtRestart_swd (s : State) : (wdtRestart s).swd = s.swd := rfl
@[simp] theorem wdtRestart_boost (s : State) : (wdtRestart s).boost = s.boost := rfl
@[simp] theorem wdtRestart_fbd (s : State) : (wdtRestart s).fbd = s.fbd := rfl
@[simp] theorem wdtRestart_isb (s : State) : (wdtRestart s).isb = s.isb := rfl
@[simp] theorem wdtRestart_cand (s : State) : (wdtRestart s).cand = s.cand := rfl
@[simp] theorem wdtRestart_kin (s : State) : (wdtRestart s).kin = s.kin := rfl
@[simp] theorem wdtRestart_board (s : State) : (wdtRestart s).board = s.board := rfl
@[simp] theorem wdtRestart_trc (s : State) : (wdtRestart s).trc = s.trc := rfl

/-! ### vbatRead -/

@[simp] theorem vbatRead_pending (g mv : Nat) (s : State) : (vbatRead g mv s).pending = s.pending := rfl
@[simp] theorem vbatRead_gtc (g mv : Nat) (s : State) : (vbatRead g mv s).gtc = s.gtc := rfl
@[simp] theorem vbatRead_freeCount (g mv : Nat) (s : State) : (vbatRead g mv s).freeCount = s.freeCount := rfl
@[simp] theorem vbatRead_clk (g mv : Nat) (s : State) : (vbatRead g mv s).clk = s.clk := rfl
@[simp] theorem vbatRead_osl (g mv : Nat) (s : State) : (vbatRead g mv s).osl = s.osl := rfl
@[simp] theorem vbatRead_hif (g mv : Nat) (s : State) : (vbatRead g mv s).hif = s.hif := rfl
@[simp] theorem vbatRead_mailbox (g mv : Nat) (s : State) : (vbatRead g mv s).mailbox = s.mailbox := rfl
@[simp] theorem vbatRead_hostMem (g mv : Nat) (s : State) : (vbatRead g mv s).hostMem = s.hostMem := rfl
@[simp] theorem vbatRead_objs (g mv : Nat) (s : State) : (vbatRead g mv s).objs = s.objs := rfl
@[simp] theorem vbatRead_gens (g mv : Nat) (s : State) : (vbatRead g mv s).gens = s.gens := rfl
@[simp] theorem vbatRead_eng (g mv : Nat) (s : State) : (vbatRead g mv s).eng = s.eng := rfl
@[simp] theorem vbatRead_isl (g mv : Nat) (s : State) : (vbatRead g mv s).isl = s.isl := rfl
@[simp] theorem vbatRead_sec (g mv : Nat) (s : State) : (vbatRead g mv s).sec = s.sec := rfl
@[simp] theorem vbatRead_sched (g mv : Nat) (s : State) : (vbatRead g mv s).sched = s.sched := rfl
@[simp] theorem vbatRead_boot (g mv : Nat) (s : State) : (vbatRead g mv s).boot = s.boot := rfl
@[simp] theorem vbatRead_leg (g mv : Nat) (s : State) : (vbatRead g mv s).leg = s.leg := rfl
@[simp] theorem vbatRead_pg (g mv : Nat) (s : State) : (vbatRead g mv s).pg = s.pg := rfl
@[simp] theorem vbatRead_swd (g mv : Nat) (s : State) : (vbatRead g mv s).swd = s.swd := rfl
@[simp] theorem vbatRead_boost (g mv : Nat) (s : State) : (vbatRead g mv s).boost = s.boost := rfl
@[simp] theorem vbatRead_fbd (g mv : Nat) (s : State) : (vbatRead g mv s).fbd = s.fbd := rfl
@[simp] theorem vbatRead_isb (g mv : Nat) (s : State) : (vbatRead g mv s).isb = s.isb := rfl
@[simp] theorem vbatRead_cand (g mv : Nat) (s : State) : (vbatRead g mv s).cand = s.cand := rfl
@[simp] theorem vbatRead_kin (g mv : Nat) (s : State) : (vbatRead g mv s).kin = s.kin := rfl
@[simp] theorem vbatRead_board (g mv : Nat) (s : State) : (vbatRead g mv s).board = s.board := rfl
@[simp] theorem vbatRead_trc (g mv : Nat) (s : State) : (vbatRead g mv s).trc = s.trc := rfl

/-! ### toInstant -/

@[simp] theorem toInstant_pending (t : Nat) (s : State) : (toInstant t s).pending = s.pending := by unfold toInstant; split <;> rfl
@[simp] theorem toInstant_freeCount (t : Nat) (s : State) : (toInstant t s).freeCount = s.freeCount := by unfold toInstant; split <;> rfl
@[simp] theorem toInstant_clk (t : Nat) (s : State) : (toInstant t s).clk = s.clk := by unfold toInstant; split <;> rfl
@[simp] theorem toInstant_osl (t : Nat) (s : State) : (toInstant t s).osl = s.osl := by unfold toInstant; split <;> rfl
@[simp] theorem toInstant_hif (t : Nat) (s : State) : (toInstant t s).hif = s.hif := by unfold toInstant; split <;> rfl
@[simp] theorem toInstant_mailbox (t : Nat) (s : State) : (toInstant t s).mailbox = s.mailbox := by unfold toInstant; split <;> rfl
@[simp] theorem toInstant_hostMem (t : Nat) (s : State) : (toInstant t s).hostMem = s.hostMem := by unfold toInstant; split <;> rfl
@[simp] theorem toInstant_objs (t : Nat) (s : State) : (toInstant t s).objs = s.objs := by unfold toInstant; split <;> rfl
@[simp] theorem toInstant_gens (t : Nat) (s : State) : (toInstant t s).gens = s.gens := by unfold toInstant; split <;> rfl
@[simp] theorem toInstant_eng (t : Nat) (s : State) : (toInstant t s).eng = s.eng := by unfold toInstant; split <;> rfl
@[simp] theorem toInstant_isl (t : Nat) (s : State) : (toInstant t s).isl = s.isl := by unfold toInstant; split <;> rfl
@[simp] theorem toInstant_sec (t : Nat) (s : State) : (toInstant t s).sec = s.sec := by unfold toInstant; split <;> rfl
@[simp] theorem toInstant_sched (t : Nat) (s : State) : (toInstant t s).sched = s.sched := by unfold toInstant; split <;> rfl
@[simp] theorem toInstant_boot (t : Nat) (s : State) : (toInstant t s).boot = s.boot := by unfold toInstant; split <;> rfl
@[simp] theorem toInstant_pwr (t : Nat) (s : State) : (toInstant t s).pwr = s.pwr := by unfold toInstant; split <;> rfl
@[simp] theorem toInstant_leg (t : Nat) (s : State) : (toInstant t s).leg = s.leg := by unfold toInstant; split <;> rfl
@[simp] theorem toInstant_pg (t : Nat) (s : State) : (toInstant t s).pg = s.pg := by unfold toInstant; split <;> rfl
@[simp] theorem toInstant_swd (t : Nat) (s : State) : (toInstant t s).swd = s.swd := by unfold toInstant; split <;> rfl
@[simp] theorem toInstant_boost (t : Nat) (s : State) : (toInstant t s).boost = s.boost := by unfold toInstant; split <;> rfl
@[simp] theorem toInstant_fbd (t : Nat) (s : State) : (toInstant t s).fbd = s.fbd := by unfold toInstant; split <;> rfl
@[simp] theorem toInstant_isb (t : Nat) (s : State) : (toInstant t s).isb = s.isb := by unfold toInstant; split <;> rfl
@[simp] theorem toInstant_cand (t : Nat) (s : State) : (toInstant t s).cand = s.cand := by unfold toInstant; split <;> rfl
@[simp] theorem toInstant_kin (t : Nat) (s : State) : (toInstant t s).kin = s.kin := by unfold toInstant; split <;> rfl
@[simp] theorem toInstant_board (t : Nat) (s : State) : (toInstant t s).board = s.board := by unfold toInstant; split <;> rfl
@[simp] theorem toInstant_trc (t : Nat) (s : State) : (toInstant t s).trc = s.trc := by unfold toInstant; split <;> rfl

/-- An instant that has passed moves nothing. -/
theorem toInstant_past {t : Nat} {s : State} (h : t ≤ s.gtc) : toInstant t s = s := by
  unfold toInstant; exact if_neg (by omega)

/-- A later instant becomes the GTC. -/
theorem toInstant_gtc {t : Nat} {s : State} (h : s.gtc < t) (k : t < 2 ^ 64) : (toInstant t s).gtc = t := by
  unfold toInstant; rw [if_pos h]; exact Nat.mod_eq_of_lt k

end Sys2Proof.Machine
end

