-- ==== Sys2Proof/Tests/Slice0.lean ====
section
/-! SUPPORT. The model's own tests: well-formedness, worked examples of the spec, and for every statement with
hypotheses a state and operands that meet them. -/

namespace Sys2Proof.Tests

open Sys2Proof.Machine

set_option maxRecDepth 8000
set_option Elab.async false

/-- The device running in native mode. -/
def sNative : State := { State.reset with boot := { mode := .native, released := true } }
/-- A lead and a member of a cluster. -/
def sLead : State := { sNative with osl := { role := 1, enumDone := true, devices := 2, dnLink := true } }
def sMember : State := { sNative with osl := { role := 2, position := 1, enumDone := true, upLink := true } }

/-! ## Well-formed commands: one that every check accepts, and for each kind of check one that it refuses -/

theorem test_wf_accepts : Instr.wf (.registerWrite 0x1004 1) = true ∧ Instr.wf (.nop { sq := 0, bytes := List.replicate 64 0, block := [] }) = true := by decide +kernel
theorem test_wf_address : Instr.wf (.registerWrite 0x100000000 1) = false := by decide +kernel
theorem test_wf_instant : Instr.wf (.syncMarkiArrival (2 ^ 64)) = false := by decide +kernel
theorem test_wf_signed : Instr.wf (.gtcFreqAdjWrite (2 ^ 31)) = false := by decide +kernel
theorem test_wf_half : Instr.wf (.hifRingReset 65536) = false := by decide +kernel
theorem test_wf_byte : Instr.wf (.spiBadCommand 256) = false := by decide +kernel
theorem test_wf_slot : Instr.wf (.tempoSlotRun 16 []) = false ∧ Instr.wf (.tempoSlotRun 3 [2 ^ 32]) = false := by decide +kernel
theorem test_wf_engine : Instr.wf (.rebalanceCastle 24 0) = false := by decide +kernel
theorem test_wf_role : Instr.wf (.oslRoleWrite 4) = false := by decide +kernel
theorem test_wf_port : Instr.wf (.oslLaneTrained 2) = false := by decide +kernel
theorem test_wf_boundary : Instr.wf (.coarseLoad 48001) = false ∧ Instr.wf (.coarseLoad 96000) = true := by decide +kernel
theorem test_wf_packet : Instr.wf (.oslPacketReceive { kind := .asleep, dst := 0, src := 16, body := [] } false) = false := by decide +kernel
theorem test_wf_detach : Instr.wf (.hostDetach 6) = false := by decide +kernel
theorem test_wf_ring : Instr.wf (.hostDmaFault (.entry 38 0)) = false ∧ Instr.wf (.ringEnable 38 0) = false := by decide +kernel
theorem test_wf_sq : Instr.wf (.nop { sq := 16, bytes := List.replicate 64 0, block := [] }) = false := by decide +kernel
theorem test_wf_length : Instr.wf (.nop { sq := 0, bytes := List.replicate 63 0, block := [] }) = false := by decide +kernel
theorem test_wf_opcode : Instr.wf (.create { sq := 0, bytes := List.replicate 64 0, block := [] }) = false := by decide +kernel
theorem test_wf_lock_kind : Instr.wf (.groupLockMessage 0 3 0 []) = false ∧ Instr.wf (.groupLockMessage 0 0 0 [2 ^ 32]) = false := by decide +kernel
theorem test_wf_input : Instr.wf (.filteredEdge (.pulse 8) true 0 0) = false ∧ Instr.wf (.filteredEdge (.gpio 48) true 0 0) = false := by decide +kernel
theorem test_wf_swn : Instr.wf (.swnTransition 32 true 0) = false := by decide +kernel
theorem test_wf_ain : Instr.wf (.ainSample 0 0 4096) = false := by decide +kernel
theorem test_wf_can : Instr.wf (.canFrameReceived 0 { id := 2 ^ 31, data := [], eflags := 0 } 0) = false := by decide +kernel
theorem test_wf_lanes : Instr.wf (.pcieLinkTrained 3) = false := by decide +kernel

theorem wit_front : ∃ c rest, ({ State.reset with pending := [Instr.gtcLoRead, .spiStatus] } : State).pending = c :: rest :=
  ⟨.gtcLoRead, [.spiStatus], rfl⟩
theorem wit_idle : State.reset.pending = [] := rfl

theorem wit_awake : sNative.boot.mode ≠ .sleeping := by decide +kernel

def sManual : State := { sNative with clk := { freqMan := true } }
def sLocked : State := { sNative with clk := { discEn := true, dstate := .locked, ppsLast := some 960000000, ppsFrom := 960000000, good := 5 } }
theorem wit_discipline : sManual.osl.role ≠ 2 ∧ sManual.clk.discEn = false ∧ sManual.clk.freqMan = true
    ∧ sNative.clk.freqMan = false ∧ sLocked.clk.discEn = true ∧ (sLocked.clk.dstate = .acquiring ∨ sLocked.clk.dstate = .locked)
    ∧ sNative.clk.dstate ≠ .acquiring ∧ sNative.clk.dstate ≠ .locked := by decide +kernel

def sAcq : State := { sNative with clk := { discEn := true, dstate := .acquiring, ppsLast := some 1000, good := 3 } }
theorem wit_pps : ({ sNative with clk := { discEn := true } } : State).clk.ppsLast = none ∧ sAcq.clk.discEn = true ∧ sAcq.osl.role ≠ 2
    ∧ sAcq.clk.ppsLast = some 1000 ∧ ((480001048 : Int) - 1000 - 480000000).natAbs ≤ 48
    ∧ 48000 < ((480049001 : Int) - 1000 - 480000000).natAbs ∧ sLocked.clk.dstate = .locked
    ∧ ({ sAcq.clk with dstate := .holdover } : Clk).dstate = .holdover := by decide +kernel

def chanOn : Obj := { idx := 3, typ := tyNozzle, ost := .enabled }
theorem wit_role : sNative.isl.locked = false ∧ channelEnabled sNative = false ∧ (2 : Nat) ≠ sNative.osl.role ∧ sNative.osl.role < 3
    ∧ channelEnabled { sNative with objs := [chanOn] } = true ∧ ({ sNative.isl with locked := true } : Isl).locked = true
    ∧ sMember.osl.role = 2 ∧ sNative.osl.role ≠ 2 := by decide +kernel

def sCoarse : State := { sMember with osl := { sMember.osl with coarse := true, exchanges := 256, offsetSum := 4096 } }
def sCal : State := { sMember with osl := { sMember.osl with coarse := true, calDone := true, markExpected := some 100 } }
theorem wit_bringup : sMember.osl.role = 2 ∧ sMember.osl.enumDone = true ∧ sMember.osl.calDone = false ∧ sCal.osl.calDone = true
    ∧ sCoarse.osl.coarse = true ∧ sCoarse.osl.calDone = false ∧ 256 ≤ sCoarse.osl.exchanges ∧ sMember.osl.exchanges < 256
    ∧ sCal.osl.markExpected = some 100 ∧ 24 < frameDist 125 100 ∧ frameDist 124 100 ≤ 24 ∧ 24 < frameDist 47000 100 := by decide +kernel

theorem wit_slip : ({ sCal.osl with slipRun := 16 } : Osl).calDone = true ∧ 16 ≤ ({ sCal.osl with slipRun := 16 } : Osl).slipRun
    ∧ sCal.osl.role = 2 ∧ sCal.osl.coarse = true ∧ sLead.osl.role = 1 := by decide +kernel
theorem wit_skew : 384 < ((385 : Int) - 0 - hopDelayOf 0 385 385 770 + 385).natAbs := by decide +kernel

def rec1 : List Byte := leBytes 2 1 ++ leBytes 2 128 ++ leBytes 8 48000 ++ List.replicate 116 0
theorem wit_missed : sMember.osl.bcastSeen = false ∧ ({ sMember.osl with bcastSeen := true } : Osl).bcastSeen = true
    ∧ 3 ≤ ({ sMember.osl with missedRun := 3 } : Osl).missedRun ∧ sMember.kin.rcd.length = 128 ∧ sMember.kin.rcdNext.length = 128
    ∧ sMember.osl.missedRun < 3 ∧ bcastValid (padTo 128 rec1) sMember = true ∧ bcastValid (padTo 128 []) sMember = false
    ∧ sLead.osl.role = 1 ∧ sLead.osl.role ≠ 2 ∧ sNative.osl.role ≠ 1 := by decide +kernel

/-- CQ0 and EQ0 enabled in host memory, SQ0 bound to CQ0; the rings are served. -/
def ringEq : Ring := { en := true, base := 0x10000, size := 8, modCount := 4 }
def ringCq : Ring := { en := true, base := 0x20000, size := 4, modCount := 4, reserved := 1 }
def ringSq : Ring := { en := true, base := 0x30000, size := 8, bind := 0 }
def withRings (s : State) : State :=
  setRing 0 (fun _ => ringSq) (setRing 16 (fun _ => ringCq) (setRing 32 (fun _ => ringEq) { s with hif := { s.hif with ringsEn := true, link := 2 } }))
def sRings : State := withRings sNative
theorem wit_ring_enable : (ringOf sRings 1).en = false ∧ sRings.hif.rings.length = 38 ∧ (ringOf sRings 0).en = true := by decide +kernel
theorem test_ring_bad_size : (ringOf (after (exec (.ringEnable 1 0x80000001) sRings) sRings) 1).err = 2 := by decide +kernel

theorem wit_ring_reset : sessionOn sRings 0 = none ∧ sqBusy sRings 0 = false ∧ cqBound sRings 16 = true ∧ cqBound sRings 17 = false
    ∧ sRings.hif.rings.length = 38
    ∧ sqBusy { sRings with hif := { sRings.hif with started := [{ desc := { sq := 0, bytes := [], block := [] } }] } } 0 = true := by decide +kernel

theorem wit_doorbells : (ringOf sRings 5).en = false ∧ dbIgnored (ringOf sRings 0) = false ∧ dbIgnored (ringOf sRings 16) = false
    ∧ ringUsed (ringOf sRings 0) + (7 % 2 ^ 16 + 8 - 0) % 8 + sqExecuting sRings 0 ≤ (ringOf sRings 0).size - 1
    ∧ (ringOf sRings 0).size - 1 < ringUsed (ringOf (setRing 0 (fun g => { g with tail := 5 }) sRings) 0) + (4 % 2 ^ 16 + 8 - 5) % 8
        + sqExecuting sRings 0
    ∧ (ringOf sRings 0).size ≤ 8 ∧ (0 + 4 - 0) % 4 ≤ ringUsed (ringOf sRings 16)
    ∧ ringUsed (ringOf sRings 16) < (1 + 4 - 0) % 4 ∧ (ringOf sRings 16).size ≤ 4 ∧ sRings.hif.rings.length = 38 := by decide +kernel
theorem test_doorbell_worked_case : (ringOf (after (exec (.sqTailDoorbell 0 6) sRings) sRings) 0).tail = 6 := by decide +kernel

theorem wit_event : logged sRings 0x0140 0 = false ∧ evqFor sRings 0x0140 = some 32 ∧ sRings.hif.held = [] ∧ sRings.hif.reattach = false
    ∧ ringServed sRings 32 = true ∧ ringRoom (ringOf sRings 32) = true ∧ (ringOf sRings 32).loc = false
    ∧ (ringOf sRings 32).unsig + 1 < (ringOf sRings 32).modCount ∧ (ringOf sRings 32).tail < (ringOf sRings 32).size
    ∧ evqFor sNative 0x0140 = none ∧ sNative.hif.held.length < 256
    ∧ 256 ≤ ({ sNative.hif with held := List.replicate 256 {} } : Hif).held.length := by decide +kernel

/-- A descriptor of an opcode in SQ0 with a handle and inline bytes. -/
def mkDesc (op h : Nat) (inl : List Byte) : Desc :=
  { sq := 0, bytes := padTo 64 (leBytes 2 op ++ [0, 0] ++ leBytes 4 h ++ leBytes 8 0x1234 ++ inl), block := [] }
/-- The same with a parameter block at host address 0x1000. -/
def mkPtr (op h off : Nat) (len : Nat) (block : List Byte) : Desc :=
  { sq := 0, bytes := padTo 64 (leBytes 2 op ++ [0x40, 0] ++ leBytes 4 h ++ leBytes 8 0x1234 ++ leBytes 8 0x1000 ++ leBytes 4 len ++ [0, 0, 0, 0]
      ++ leBytes 4 off), block := block }
/-- The descriptor has been fetched into SQ0 and executes. -/
def execs (s : State) (d : Desc) : State :=
  { s with hif := { s.hif with started := [{ desc := d, role := 3, cq := 16 }] } }
def dNop : Desc := mkDesc 0x0000 0 []
theorem wit_nop : passes 0x0000 dNop (execs sRings dNop) = true ∧ (execs sRings dNop).hif.started = [{ desc := dNop, role := 3, cq := 16 }]
    ∧ dNocomp dNop = false ∧ dIrqNow dNop = false ∧ (ringOf sRings 16).en = true ∧ (ringOf sRings 16).error = false
    ∧ (ringOf sRings 0).resetting = false ∧ (ringOf sRings 16).loc = false ∧ (ringOf sRings 16).tail < (ringOf sRings 16).size
    ∧ (ringOf sRings 16).unsig + 1 < (ringOf sRings 16).modCount
    ∧ dNocomp { dNop with bytes := putAt dNop.bytes 2 [0x10] } = true := by decide +kernel

def sFetch : State := setRing 0 (fun g => { g with tail := 2, shadow := 0x500 }) sRings
def dFenced : Desc := { dNop with bytes := putAt dNop.bytes 2 [0x20] }
theorem wit_fetch : sqNext sFetch = some 0 ∧ (ringOf sFetch 0).loc = false ∧ dNop.bytes.length = 64 ∧ dFence dNop = false ∧ dTagLen dNop = 0
    ∧ (ringOf sFetch 0).fenced = none ∧ fetchBad sFetch (sessionOn sFetch 0) dNop = none ∧ sqNext sRings ≠ some 0 ∧ sqReady sFetch 0 = true
    ∧ (ringOf sFetch 0).prio < 4 ∧ dFence (headDesc (execs sFetch dNop) dFenced) = true ∧ sqNext (execs sFetch dNop) = some 0
    ∧ sqBusy (execs sFetch dNop) 0 = true := by
  decide +kernel

theorem wit_pause : sNative.hif.ringsEn = false ∧ sNative.hif.kept = [] ∧ sNative.hif.held = [] ∧ sNative.hif.errDue = false
    ∧ sNative.hif.reattach = false ∧ sNative.hif.lost = 0 ∧ sNative.hif.pba = 0 ∧ (∀ q, q < 16 → (ringOf sNative q).resetting = false)
    ∧ sNative.hif.link ≠ 3 ∧ ({ sNative.hif with link := 3 } : Hif).link = 3 ∧ sRings.hif.ringsEn = true := by decide +kernel

def sHeld : State := { sRings with hif := { sRings.hif with held := [{ code := 0x0140 }] } }
def sIval (n : Nat) : State := { sNative with gtc := 100, hif := { sNative.hif with intervals := [{ code := 0x0340, ends := 100, length := 50, count := n }] } }
def sUnsig : State := { setRing 16 (fun g => { g with unsig := 1, modTime := 50 }) sRings with gtc := 24000 }
theorem wit_held : sHeld.hif.held = [{ code := 0x0140 }] ∧ sHeld.hif.lost = 0 ∧ sHeld.hif.reattach = false ∧ evqFor sHeld 0x0140 = some 32
    ∧ ringServed sHeld 32 = true ∧ ringRoom (ringOf sHeld 32) = true ∧ sNative.hif.lost = 0
    ∧ ((sIval 2).hif.intervals.find? (fun i => i.code == 0x0340 && i.handle == 0 && i.sub == 0)).map (·.count) = some 2
    ∧ ((sIval 0).hif.intervals.find? (fun i => i.code == 0x0340 && i.handle == 0 && i.sub == 0)).map (·.count) = some 0
    ∧ (ringOf sUnsig 16).en = true ∧ sUnsig.hif.ringsEn = true ∧ (ringOf sUnsig 16).modTime ≠ 0 ∧ 0 < (ringOf sUnsig 16).unsig := by decide +kernel
theorem wit_no_eq : ∀ c, evqFor sNative c = none := by
  intro c
  have h : ∀ q, (ringOf sNative q).en = false := by
    intro q
    by_cases hq : q < 38
    · exact (by decide +kernel : ∀ q : Fin 38, (ringOf sNative q).en = false) ⟨q, hq⟩
    · have hl : sNative.hif.rings.length = 38 := by decide +kernel
      have : sNative.hif.rings[q]? = none := List.getElem?_eq_none (by omega)
      simp [ringOf, List.getD, this]
  simp [evqFor, h]

def sWritten : State := setRing 32 (fun g => { g with tail := 1, prev := List.replicate 32 0, prevEv := some {} }) sRings
def sWrittenC : State := setRing 16 (fun g => { g with tail := 1, prev := List.replicate 32 0 }) sRings
theorem wit_dma : sqNext sFetch = some 0 ∧ sqNext sRings ≠ some 0 ∧ (ringOf sRings 0).en = true ∧ (ringOf sWritten 32).en = true
    ∧ (ringOf sWritten 32).prev ≠ [] ∧ (ringOf sWritten 32).prevEv = some {} ∧ sWritten.hif.held.length < 256
    ∧ 256 ≤ ({ sWritten.hif with held := List.replicate 256 {} } : Hif).held.length
    ∧ (ringOf sWrittenC 16).prevEv = none ∧ (ringOf sWrittenC 16).prev ≠ [] ∧ (ringOf sWrittenC 16).en = true
    ∧ sWrittenC.hif.rings.length = 38 ∧ (ringOf sRings 32).prev = [] := by decide +kernel

theorem wit_registers : sNative.boot.mode ≠ .parked ∧ sNative.boot.mode = .native ∧ sNative.isl.locked = false
    ∧ ({ sNative.isl with locked := true } : Isl).locked = true ∧ bit 0x40 6 = true ∧ bit 0 6 = false ∧ 0xFFFC + 4 ≤ 65536
    ∧ (ringOf sNative 5).en = false ∧ sNative.hif.rings.length = 38 ∧ (0x1022 / 65536 = 0 ∨ 2 ≤ 0x1022 / 65536)
    ∧ (0x1022 % 4 ≠ 0 ∨ 3 ≤ 0x1022 / 65536) ∧ 0x99 ∉ [0x02, 0x0B, 0x32, 0x6B, 0x05] ∧ 4096 % 4 = 0 := by decide +kernel

def oFb : Obj := { idx := 7, typ := tyFeedback, gen := 3, params := createBlock tyFeedback [], act := createBlock tyFeedback [] }
def withObj (o : Obj) (s : State) : State := { s with objs := insertObj o s.objs }
def hFb : Nat := 0x03060007
def dCreateFb : Desc := mkDesc 0x0001 0x00060000 []
def dDestroyFb : Desc := mkDesc 0x0002 hFb []
theorem wit_create : passes 0x0001 dCreateFb sRings = true ∧ createBad sRings tyFeedback [] = none ∧ remoteOnly sRings tyFeedback (createBlock tyFeedback []) [] = []
    ∧ drivesOnly tyFeedback (createBlock tyFeedback []) [] = []
    ∧ passes 0x0002 dDestroyFb (withObj oFb sRings) = true ∧ objOf (withObj oFb sRings) hFb = some oFb ∧ oFb.ost = .disabled
    ∧ enablePending (withObj oFb sRings) hFb = false ∧ referenced (withObj oFb sRings) hFb = false ∧ drivesOnly oFb.typ oFb.params [] = []
    ∧ remoteOnly sRings oFb.typ oFb.params [] = [] := by decide +kernel
theorem wit_destroy : objOf sRings hFb = none ∧ oFb.typ ≠ tyLayer ∧ imageBad sRings [] ≠ none := by decide +kernel
theorem wit_free_index : (takeIndex sRings).isSome = true := by decide +kernel

def dSet (n : Nat) : Desc := mkDesc 0x0003 hFb (leBytes 2 12 ++ leBytes 2 n ++ leBytes 4 5000)
def dStage : Desc := { dSet 4 with bytes := putAt (dSet 4).bytes 0 (leBytes 2 0x0308) }
def dGet (op h off len : Nat) : Desc := mkPtr op h off len []
def oLead (o : Obj) (s : State) : State := { s with osl := { s.osl with role := 2, leadRefs := [(handleOf o, tyGroup)] } }
def sFb : State := withObj oFb sRings
def psFb : List Byte := putAt oFb.params 12 (leBytes 4 5000)
theorem wit_params : passes 0x0003 (dSet 4) sFb = true ∧ objOf sFb (dHandle (dSet 4)) = some oFb
    ∧ writeBlock oFb.typ oFb.params 12 (leBytes 4 5000) = some psFb
    ∧ paramsBad sFb oFb psFb = none ∧ remoteOnly sFb oFb.typ psFb oFb.params = [] ∧ drivesOnly oFb.typ psFb oFb.params = []
    ∧ remoteOnly sFb oFb.typ oFb.params psFb = [] ∧ commitPending sFb oFb = false
    ∧ drivesOnly oFb.typ oFb.params psFb = [] ∧ passes 0x0003 (dSet 0) sFb = true ∧ dPtr (dSet 0) = false ∧ u16 (dSet 0).bytes 18 = 0 := by decide +kernel
theorem wit_params_range : writeRange sFb (dSet 4) = .ok (12, leBytes 4 5000) := by rfl
theorem wit_params_enabled : paramsBad (withObj { oFb with ost := .enabled } sRings) { oFb with ost := .enabled } psFb = none
    ∧ (jobCost sFb oFb.typ psFb : Int) = costAhead sFb oFb
    ∧ paramsBad sFb oFb (putAt oFb.params 12 (leBytes 4 5)) = some { status := 4 } := by decide +kernel
theorem wit_stage : passes 0x0308 dStage (oLead oFb sFb) = true ∧ inGroup (oLead oFb sFb) (handleOf oFb) = true ∧ inGroup sFb (handleOf oFb) = false
    ∧ stagedBlock oFb [(12, leBytes 4 5000)] = some psFb ∧ passes 0x0308 dStage sFb = true := by decide +kernel
theorem wit_get : passes 0x0004 (dGet 0x0004 hFb 8 16) sFb = true ∧ ptrMailbox (dBlockPtr (dGet 0x0004 hFb 8 16)) = false
    ∧ dOffset (dGet 0x0004 hFb 8 16) + dBlockLen (dGet 0x0004 hFb 8 16) ≤ oFb.params.length ∧ oFb.params.length < 60 + 16
    ∧ passes 0x0007 (dGet 0x0007 hFb 0 64) sFb = true := by decide +kernel

def dEn (h : Nat) : Desc := mkDesc 0x0005 h []
def dDis (h : Nat) : Desc := mkDesc 0x0006 h []
def dAbort (cookie sq : Nat) : Desc := mkDesc 0x0009 0 (leBytes 8 cookie ++ leBytes 1 sq)
def dSync : Desc := mkDesc 0x0008 0 []
/-- A WING, an AXIS and a SECTION of default blocks. -/
def oWing : Obj := { idx := 2, typ := tyWing, params := createBlock tyWing [], act := createBlock tyWing [] }
def oAxis : Obj := { idx := 3, typ := tyAxis, params := createBlock tyAxis [], act := createBlock tyAxis [] }
def hWing : Nat := 0x010E0002
def hAxis : Nat := 0x01050003
def sObjs : State := withObj oWing (withObj oAxis sRings)
def oGrp : Obj := { idx := 9, typ := tyGroup, ost := .enabled, params := createBlock tyGroup [], act := createBlock tyGroup [] }
theorem wit_enable_group : passes 0x0005 (mkDesc 0x0005 0x010F0009 []) (withObj oGrp sRings) = true ∧ objOf (withObj oGrp sRings) 0x010F0009 = some oGrp
    ∧ lockFull (withObj oGrp sRings) oGrp = false ∧ groupOff (withObj oGrp sRings) oGrp = [] ∧ (placeAll [] sRings).1 = 0
    ∧ passes 0x0006 (mkDesc 0x0006 0x010F0009 []) (withObj oGrp sRings) = true := by decide +kernel
def pend (x : Deferred) (s : State) : State := { s with hif := { s.hif with deferred := [x] } }
def on (o : Obj) : Obj := { o with ost := .enabled }
def xWing (op : Nat) : Deferred := { st := { desc := dEn hWing, cq := 16 }, op := op, handle := hWing, due := 0 }
theorem wit_enable : passes 0x0005 (dEn hWing) sObjs = true ∧ objOf sObjs hWing = some oWing ∧ enablePending sObjs hWing = false
    ∧ enableJudge sObjs 48000 false refDepth [hWing] oWing = none ∧ jobTypes.contains oWing.typ = false
    ∧ jobTypes.contains oAxis.typ = true ∧ objOf sObjs hAxis = some oAxis ∧ takeEffect 0 0 = 48000
    ∧ needs sObjs oWing = [] ∧ deferredOf (pend (xWing 5) sObjs) 0x0005 hWing = some (xWing 5) := by decide +kernel
theorem wit_disable : passes 0x0006 (dDis hWing) (withObj (on oWing) sRings) = true ∧ passes 0x0006 (dDis hWing) sObjs = true
    ∧ reliedOn (withObj (on oWing) sRings) 0 [] (on oWing) = false ∧ passes 0x0005 (dEn hWing) (withObj (on oWing) sRings) = true
    ∧ deferredOf sObjs 0x0006 hWing = none := by decide +kernel
theorem wit_abort : passes 0x0009 (dAbort 0x1234 0) (pend (xWing 6) sObjs) = true ∧ u8 (dAbort 0x1234 0).bytes 24 < 16
    ∧ passes 0x0009 (dAbort 0 16) sObjs = true ∧ dCookie (xWing 6).st.desc = 0x1234
    ∧ passes 0x0008 dSync (execs sRings dSync) = true ∧ (execs sRings dSync).hif.started.head? = some (startedOf (execs sRings dSync) dSync) := by
  decide +kernel
theorem wit_place : enableJudge sObjs 48000 false refDepth [hAxis] oAxis = none ∧ enableJudge sObjs 0 true refDepth [hWing] oWing = none
    ∧ placeFind sObjs oAxis.typ (jobRate oAxis.params) (jobCost sObjs oAxis.typ oAxis.params) none none none ≠ none
    ∧ placeFind sObjs oAxis.typ (jobRate oAxis.params) 2000 none none none = none := by decide +kernel

theorem wit_class1 : objOf sFb hFb = some oFb ∧ objOf (withObj (on oFb) sRings) hFb = some (on oFb) ∧ moveOf (withObj (on oFb) sRings) hFb = none
    ∧ linkGroups (withObj (on oFb) sRings) 0 hFb = [] ∧ channelsOn (withObj (on oFb) sRings) hFb = [] ∧ axFaulting (on oFb) = false ∧ sRings.osl.leadRefs = [] ∧ objOf sRings hFb = none := by decide +kernel

theorem wit_class2 : sNative.isl.deviceFault = false ∧ ({ sNative.isl with deviceFault := true } : Isl).deviceFault = true := by decide +kernel

def dMove (e q pin : Nat) : Desc := mkDesc 0x0300 hAxis (leBytes 1 e ++ leBytes 1 q ++ leBytes 1 pin)
def oAxisOn : Obj := { oAxis with ost := .enabled, engine := 1, slots := 1, cost := 150 }
def sAxis : State := addLoad 1 1 150 false (withObj oAxisOn sRings)
def mAxis : Move := { handle := hAxis, oldE := 1, oldSlots := 1, newE := 2, newSlots := 4, boundary := 48000, copied := true }
def sMove : State := { sAxis with eng := { sAxis.eng with moves := [mAxis] } }
def sFall : State := { sAxis with eng := { sAxis.eng with falling := [{ idx := 3, engine := 1, slot := 0 }] } }
theorem wit_move : passes 0x0300 (dMove 0xFF 0xFF 0) sAxis = true ∧ objOf sAxis hAxis = some oAxisOn ∧ moveOf sAxis hAxis = none
    ∧ placeFind sAxis oAxis.typ (jobRate oAxis.act) (heldCost sAxis oAxisOn) none none none = some (1, 2)
    ∧ placeFind sAxis oAxis.typ (jobRate oAxis.act) (heldCost sAxis oAxisOn) (some 1) (some 0) none = some (1, 1)
    ∧ (firstSlots oAxis.typ (jobRate oAxis.act)).contains 0 = true ∧ engineOut sAxis 1 = false
    ∧ passes 0x0300 (dMove 1 0 0) sAxis = true ∧ passes 0x0300 (dMove 1 0 0) sObjs = true := by decide +kernel
theorem wit_castle : moveOf sMove hAxis = some mAxis ∧ objOf sMove hAxis = some oAxisOn ∧ mAxis.pin = false ∧ jobPlacement oAxis.params = 0
    ∧ objAt sMove 3 = some oAxisOn ∧ mAxis.copied = true ∧ sFall.eng.moves = [] ∧ sFall.eng.falling = [{ idx := 3, engine := 1, slot := 0 }]
    ∧ objAt sFall 3 = some oAxisOn ∧ jobFfLimit oAxis.act = 3 := by decide +kernel
theorem wit_engines : engineOut sRings 5 = false ∧ engineOut (updEngine 5 (fun x => { x with svc := 2 }) sRings) 5 = true ∧ sRings.eng.moves = []
    ∧ passes 0x0302 (mkDesc 0x0302 0 [5]) { sRings with sec := { sRings.sec with untagged := 3 } } = true
    ∧ passes 0x0301 (mkPtr 0x0301 0 0 1152 []) sRings = true ∧ sRings.eng.engines.length = 24
    ∧ (∀ x ∈ sRings.eng.engines, x.loads.length = 16) ∧ roleNow sRings dNop = roleNow sAxis dNop := by decide +kernel
def sRun : State := updEngine 1 (fun x => { x with fallRun := x.fallRun.set 0 3 }) sAxis
theorem wit_rebalance : 3 ≤ ((sRun.eng.engines[1]?).map fun x => x.fallRun.getD 0 0).getD 0
    ∧ costliest (sRun.objs.filter fun o => isEnabled o && o.engine == 1 && jobTypes.contains o.typ && bit o.slots 0
          && jobPlacement o.act == 0 && jobRebalance o.act && (moveOf sRun (handleOf o)).isNone) = some oAxisOn
    ∧ (∀ m ∈ sRun.eng.moves, m.cause ≠ 1) ∧ placeFind sRun oAxis.typ (jobRate oAxis.act) (heldCost sRun oAxisOn) none none (some 1) = some (2, 1) := by decide +kernel

/-- A GROUP of one member: a SECTION’s place is taken by an AXIS with one staged change. -/
def oGroup : Obj := { idx := 9, typ := tyGroup, ost := .enabled
                      params := leBytes 8 0x010000 ++ leBytes 4 0 ++ leBytes 4 hAxis, act := leBytes 8 0x010000 ++ leBytes 4 0 ++ leBytes 4 hAxis }
def hGroup : Nat := 0x010F0009
def oAxisSt : Obj := { oAxis with staged := [(28, leBytes 2 600)] }
def psSt : List Byte := putAt oAxis.params 28 (leBytes 2 600)
def dCommit : Desc := mkDesc 0x0309 hGroup []
def sGroup (o : Obj) : State := withObj oGroup (withObj o sRings)
def xGroup : Deferred := { st := { desc := dCommit, cq := 16 }, op := 0x0309, handle := hGroup, due := 0 }
theorem wit_group : passes 0x0309 dCommit (sGroup oAxisSt) = true ∧ objOf (sGroup oAxisSt) hGroup = some oGroup
    ∧ groupFar (sGroup oAxisSt) oGroup = [] ∧ groupHere (sGroup oAxisSt) oGroup = [oAxisSt] ∧ groupHere (sGroup oAxis) oGroup = [oAxis]
    ∧ stagedBlock oAxisSt oAxisSt.staged = some psSt ∧ paramsBad (sGroup oAxisSt) oAxisSt psSt = none
    ∧ drivesOnly oAxis.typ oAxis.params psSt = [] ∧ remoteOnly (sGroup oAxisSt) oAxis.typ oAxis.params psSt = []
    ∧ deferredOf (pend xGroup (sGroup oAxisSt)) 0x0309 hGroup = some xGroup ∧ (sGroup oAxisSt).eng.costs = []
    ∧ passes 0x0309 dCommit (withObj { oGroup with ost := .disabled } sRings) = true ∧ lockFull (sGroup oAxisSt) oGroup = false
    ∧ [oAxisSt].findSome? (commitBad (sGroup oAxisSt)) = none ∧ objAt (sGroup oAxisSt) 3 = some oAxisSt := by decide +kernel
def oFar : Obj := { oGroup with params := leBytes 8 0x010000 ++ leBytes 4 1 ++ leBytes 4 hAxis }
def sUnacked : State := { withObj oFar sLead with eng := { sLead.eng with unacked := [(0, 0, 1)] } }
def wRef : RefWait := { desc := dCreateFb, op := 0x0001, handle := 0x000F0000, block := oFar.params, waiting := [(1, hAxis)], due := 0 }
theorem wit_far : objOf sUnacked hGroup = some oFar ∧ groupFar sUnacked oFar = [(1, hAxis)] ∧ groupId oFar = 0
    ∧ refsAsked sLead wRef = [(1, hAxis)] ∧ wRef.waiting = [(1, hAxis)] ∧ sMember.osl.role = 2 ∧ running sMember = true
    ∧ sUnacked.eng.unacked.find? (fun u => u.1 == groupId oFar && u.2.2 == 1) = some (0, 0, 1) ∧ running sRings = true ∧ sRings.osl.role = 0 := by decide +kernel

/-- A curve of one point, with its CRC. -/
def imgZero : List Byte := [1, 1, 0, 0] ++ leBytes 4 24 ++ [0, 0, 0, 0] ++ leBytes 2 1 ++ [0, 0] ++ List.replicate 8 0
def img : List Byte := putAt imgZero 8 (leBytes 4 (crc32 imgZero))
def oTab (i : Nat) : Obj := { idx := i, typ := tyTable, params := img, act := img }
def hTab (i : Nat) : Nat := 0x010A0000 + i
def oSwitch : Obj := { idx := 6, typ := tySwitch, params := putAt (createBlock tySwitch []) 8 (leBytes 4 (hTab 4)), act := createBlock tySwitch [] }
def sTab : State := withObj oSwitch (withObj (oTab 5) (withObj (oTab 4) { sRings with sec := { sRings.sec with untagged := 3 } }))
def dSwap (h : Nat) : Desc := mkDesc 0x0303 (hTab 4) (leBytes 4 h)
def xSwap : Deferred := { st := { desc := dSwap (hTab 5), cq := 16 }, op := 0x0303, handle := hTab 4, due := 0, arg := hTab 5 }
def sStore : State := { sTab with eng := { sTab.eng with store := [(7, img)], saves := [{ desc := dSwap 0, key := 7, image := some img, begun := true }] } }
theorem wit_swap : passes 0x0303 (dSwap (hTab 5)) sTab = true ∧ objOf sTab (hTab 4) = some (oTab 4) ∧ tableOf sTab (hTab 5) = some img
    ∧ tableOf sTab 0 = none ∧ swapCosts sTab (hTab 4) (hTab 5) = [] ∧ deferredOf (pend xSwap sTab) 0x0303 (hTab 4) = some xSwap
    ∧ u32 (swapRefs (hTab 4) (hTab 5) tySwitch oSwitch.params) 8 = hTab 5 ∧ tabType (putAt img 0 [2]) ≠ tabType img := by decide +kernel
theorem wit_store : imageBad sTab img = none ∧ passes 0x0304 (mkDesc 0x0304 (hTab 4) [7]) sTab = true ∧ passes 0x0306 (mkDesc 0x0306 0 [7]) sStore = true
    ∧ (storeAhead sStore).any (fun x => x.1 == 7) = true ∧ (storeAhead sTab).any (fun x => x.1 == 7) = false
    ∧ sStore.eng.saves = [{ desc := dSwap 0, key := 7, image := some img, begun := true }] ∧ sStore.hif.deferred = []
    ∧ sStore.eng.store.find? (fun x => x.1 == 7) = some (7, img) ∧ passes 0x0305 (mkDesc 0x0305 0x000A0000 [7]) sStore = true
    ∧ passes 0x0307 (mkPtr 0x0307 0 0 2040 []) sTab = true ∧ sTab.pwr.bow = false := by decide +kernel
def dCreateTab : Desc := mkPtr 0x0001 0x000A0000 0 24 img
theorem wit_create_table : passes 0x0001 dCreateTab sTab = true ∧ hType (dHandle dCreateTab) = tyTable ∧ dPtr dCreateTab = true
    ∧ blockOf sTab dCreateTab = img ∧ drivesOnly tyTable img [] = [] := by decide +kernel
def mOne : Sm := { off := 76, timers := List.replicate 8 (some 5) }
def sSm : State := { withObj { oFb with sms := [mOne] } sRings with gtc := 5 }
theorem wit_sm_due : ∃ m : Sm, m.off = 76 ∧ m.expired = [3] ∧ m.queue.length < 16
    ∧ objOf (withObj { oFb with sms := [m] } sRings) hFb = some { oFb with sms := [m] } :=
  ⟨{ off := 76, expired := [3] }, by decide +kernel⟩
theorem wit_sm : objOf sSm hFb = some { oFb with sms := [mOne] } ∧ mOne.queue.length < 16 ∧ mOne.timers.getD 3 none = some 5 := by decide +kernel

def sBound : State := { sNative with clk := { sNative.clk with freqNext := some 5 } }
theorem wit_boundary : running sNative = true ∧ sNative.hif.deferred = [] ∧ sNative.eng.lockHeld = [] ∧ sNative.eng.costs = [] ∧ sNative.pwr.parkAt = none ∧ sNative.isb.tc ≠ 4
    ∧ sNative.objs = [] ∧ running State.reset = false ∧ State.reset.boot.mode ≠ .parked ∧ oWing.typ = tyWing := by decide +kernel
theorem test_boundary_frequency : (after (exec .frameBoundary sBound) sBound).clk.freqAdj = 5 ∧ (after (exec .frameBoundary sBound) sBound).gtc = 48000 := by
  decide +kernel
theorem wit_slot : jobsIn sAxis 1 0 0 = [oAxisOn] ∧ (∀ x : Fin 24, x.val ≠ 1 → jobsIn sAxis x.val 0 0 = []) ∧ running sAxis = true
    ∧ epochRetired sAxis (handleOf oAxisOn) 0 = false ∧ axFaulting oAxisOn = false ∧ dueBoundary sNative = 48000
    ∧ epochRetired (withObj { oAxisOn with epoch := 2 } sRings) (handleOf oAxisOn) 1 = true
    ∧ sAxis.isl.halted.contains 1 = false ∧ engineOut sAxis 1 = false ∧ (∀ x : Fin 24, jobsIn sAxis x.val 3 0 = []) := by
  decide +kernel

/-- The block of the kinematics unit as it is at reset, sent with KIN_SET_CONFIG. -/
def dKin (op : Nat) (inl : List Byte) : Desc := mkDesc op 0 inl
def dKinCfg : Desc := mkPtr 0x0400 0 0 256 State.reset.kin.cfg
def sService (s : State) : State := { s with sec := { s.sec with untagged := 3 } }
def dOrigin : Desc := dKin 0x0402 (leBytes 8 0x4049000000000000 ++ leBytes 8 0x4024000000000000 ++ leBytes 4 0x42C80000 ++ leBytes 4 7)
def sKinOn : State := { sRings with gtc := 24000000, kin := { sRings.kin with kstate := 1, originSet := true, cfg := putAt sRings.kin.cfg 0 [1] } }
def dFix : Desc := dKin 0x0405 (leBytes 8 20000000 ++ leBytes 4 1000 ++ leBytes 4 2000 ++ leBytes 4 0 ++ leBytes 2 0 ++ leBytes 2 0xFFFF ++ leBytes 1 4)
def xKin (op : Nat) : Deferred := { st := { desc := dKin op [], cq := 16 }, op := op, handle := 0, due := 0 }
def oGeo : Obj := { idx := 4, typ := tyGeopoint, params := createBlock tyGeopoint [], act := createBlock tyGeopoint [], rt := .geo {} }
def dPredict (tau : Nat) : Desc := mkDesc 0x0407 0x010C0004 (leBytes 4 tau)
theorem wit_kin_cfg : passes 0x0400 dKinCfg (sService sRings) = true ∧ sRings.osl.role ≠ 2 ∧ sRings.kin.kstate = kOff
    ∧ kinCfgBad (sService sRings) (blockOf (sService sRings) dKinCfg) = none
    ∧ kinLive 0 = false ∧ u8 (putAt sRings.kin.cfg 0 [3]) 0 ≠ u8 sRings.kin.cfg 0
    ∧ kinCfgBad sRings (putAt sRings.kin.cfg 0 [3]) = some { status := 4, result := [0, 0] } := by decide +kernel
theorem wit_kin_get : passes 0x0401 (mkPtr 0x0401 0 0 256 []) sRings = true ∧ sRings.kin.cfg.length = 256
    ∧ passes 0x0406 (mkPtr 0x0406 0 0 160 []) sRings = true ∧ sRings.kin.rcd.length = 128 := by decide +kernel
theorem wit_kin_origin : passes 0x0402 dOrigin sRings = true ∧ f64Finite (f64 dOrigin.bytes 16) = true ∧ f64Finite (f64 dOrigin.bytes 24) = true
    ∧ fFinite (f32 dOrigin.bytes 32) = true ∧ fxAbs (fxF64 (f64 dOrigin.bytes 16)) ≤ fxOf 90 ∧ fxAbs (fxF64 (f64 dOrigin.bytes 24)) ≤ fxOf 180
    ∧ passes 0x0402 dOrigin sKinOn = true := by decide +kernel
theorem wit_kin_enable : passes 0x0403 (dKin 0x0403 []) sRings = true ∧ passes 0x0404 (dKin 0x0404 []) sKinOn = true ∧ sRings.hif.deferred = [] ∧ kinOnAfter sRings = false ∧ kinOnAfter sKinOn = true
    ∧ kinCfgBad sRings sRings.kin.cfg = none ∧ imuTableBad sRings = false ∧ deferredOf (pend (xKin 0x0403) sRings) 0x0403 0 = some (xKin 0x0403)
    ∧ deferredOf (pend (xKin 0x0404) sKinOn) 0x0404 0 = some (xKin 0x0404) ∧ sKinOn.kin.kstate ≠ kOff := by decide +kernel
theorem wit_kin_fix : passes 0x0405 dFix sKinOn = true ∧ u8 dFix.bytes 40 = 4 ∧ kc8 sKinOn 0 = 1 ∧ (sKinOn.gtc : Int) - 120000000 ≤ i64 dFix.bytes 16
    ∧ i64 dFix.bytes 16 ≤ sKinOn.gtc ∧ kc8 sKinOn 8 ≤ 4 ∧ u16 dFix.bytes 38 = 0xFFFF ∧ inRange { x := 1000, y := 2000, z := 0 } = true
    ∧ passes 0x0407 (dPredict 100) (withObj oGeo sRings) = true ∧ objOf (withObj oGeo sRings) 0x010C0004 = some oGeo := by decide +kernel

/-- “$GPGGA,000000,…” of quality 0, with its checksum left to the test of parsing. -/
def ascii (xs : String) : List Byte := xs.toList.map fun c => BitVec.ofNat 8 c.toNat
def gga0 : List Byte := ascii "$GPGGA,010203.0,,,,,0,00,,,M,,M,,*78"
def sKin (k : Kin) : State := { sNative with kin := k }
def kOn : Kin := { State.reset.kin with kstate := 3, imuLast := some 5, imuOk := true, imuGood := 100, cfg := putAt State.reset.kin.cfg 36 [1] }
def mFix : KMeas := { kind := 0, cls := 4 }
theorem wit_nmea : (kOn.kstate ≠ kOff ∧ kc8 (sKin kOn) 0 = 0 ∧ kOn.epoch = none) ∧ gga0.length ≤ 82 ∧ nmeaType gga0 = 1
    ∧ (parseNmea gga0).isSome = true ∧ nmeaType (ascii "$GPGSV,1*00") = 0 ∧ State.reset.kin.kstate = kOff := by decide +kernel
/-- A sentence’s checksum is the exclusive or of the characters between the dollar sign and the star. -/
theorem test_nmea_checksum : parseNmea gga0 = some (.gga 3723000000000 none 0) ∧ parseNmea (ascii "$GPGGA,010203.0,,,,,0,00,,,M,,M,,*79") = none := by
  decide +kernel
/-- A format of one field of 16 bits for variable 0 in a frame of two bytes. -/
def imgFmt : List Byte := [3, 1, 0, 0] ++ leBytes 4 36 ++ [0, 0, 0, 0] ++ leBytes 2 1 ++ [0, 0] ++ [2, 0, 0, 0]
  ++ leBytes 2 0 ++ [16, 0] ++ leBytes 4 0x3F800000 ++ leBytes 4 0 ++ leBytes 2 0 ++ [0, 0]
def oFmt : Obj := { idx := 5, typ := tyTable, params := imgFmt, act := imgFmt }
def sImu : State := withObj oFmt (sKin { kOn with imuLast := none, cfg := putAt kOn.cfg 40 (leBytes 4 (hTab 5)) })
theorem wit_imu : tableOf sImu (u32 sImu.kin.cfg 40) = some imgFmt ∧ kc8 sImu 36 = 1
    ∧ sImu.kin.kstate ≠ kOff ∧ kOn.imuLast = some 5
    ∧ kc8 (sKin kOn) 36 = 1 := by decide +kernel
theorem wit_estimator : kOn.meas = [] ∧ kOn.kstate ≠ kOff ∧ sNative.osl.role ≠ 2 ∧ resetDue (sKin kOn) = false ∧ measUsed (sKin kOn) mFix = true
    ∧ resetDue (sKin { kOn with rej4 := 5 }) = true ∧ kfDist 0 (kfMeasOf (sKin kOn) mFix) (sKin kOn) = 0
    ∧ ({ kOn with rej4 := 5, meas := [mFix] } : Kin).meas.find? (fun m => m.kind == 0) = some mFix ∧ kOn.rej4 < 5 ∧ kOn.rejAny < 10
    ∧ objsOf sNative tyWing = [] ∧ (on oGeo).ost = .enabled := by decide +kernel

def kLim : Kin := { kOn with lastPos := some 5, lastVel := some 5, headingValid := true, pathValid := true, slowSince := some 5, hitchOffSince := some 5
                             steerBad := some 5, revSince := some (true, 5), imuOk := false, cfg := putAt (putAt (putAt kOn.cfg 168 [1]) 176 [3]) 114 [0]
                             speeds := [{ badSince := some 5, goodSince := some 5, valid := true }, {}, {}, {}] }
def oWingBad : Obj := { oWing with rt := .wing { badSince := some 5, goodSince := some 5 } }
theorem wit_limits : kLim.kstate = 3 ∧ kLim.drExpired = false ∧ sourcesSlow (sKin { kLim with speeds := [{}, {}, {}, {}] }) = true
    ∧ (srcOf (sKin kLim) 0).implausible = false ∧ 0 < kc8 (sKin kLim) 168 ∧ 3 ≤ srcKind (sKin kLim) 0 ∧ courseDetects (sKin kLim) = true
    ∧ kLim.reverse ≠ true ∧ kLim.hitchBad = false ∧ (wingOf oWingBad).valid = false
    ∧ objOf (withObj oWingBad sNative) hWing = some oWingBad := by decide +kernel

/-- A coverage layer of 2 × 2 tiles of 50 mm squares, and its cache-only and stored forms. -/
def layPs (flags : Nat) (dir : Nat) : List Byte :=
  [1, 0, 0] ++ leBytes 1 flags ++ leBytes 2 50 ++ leBytes 2 0 ++ List.replicate 12 0 ++ leBytes 2 2 ++ leBytes 2 2 ++ leBytes 8 dir ++ List.replicate 32 0
def tBd (d : Bool) : CTile := { tx := 0, ty := 0, entry := 0x8001, dirty := d }
def oLay (flags : Nat) (r : LayerRt) : Obj :=
  { idx := 8, typ := tyLayer, params := layPs flags 0x4000, act := layPs flags 0x4000, rt := .layer r }
def hLay : Nat := 0x010D0008
def rBd : LayerRt := { dir := [(0, [0x8001, 2, 4, 1, 0, 0, 0, 0])], tiles := [tBd false], paints := [{ id := 4 }]
                       flushes := [{ id := 3, started := true, due := 9 }, { id := 5, started := true, left := [(0, 1)] }] }
def rBd0 : LayerRt := { rBd with paints := [], flushes := [] }
def sBd (flags : Nat) (r : LayerRt) : State := withObj (oLay flags r) sRings
def dBd (op : Nat) (inl : List Byte) : Desc := mkDesc op hLay inl
def xBd (op arg : Nat) : Deferred := { st := { desc := dBd op [], cq := 16 }, op := op, handle := hLay, due := 0, arg := arg }
def dTile (op tx ty : Nat) : Desc := mkPtr op hLay (tx + 65536 * ty) 1024 (List.replicate 1024 0x55)
def poly (e : Int) : List Byte := [2, 3, 0, 0, 0, 0, 0, 0] ++ iBytes 4 e ++ iBytes 4 0 ++ iBytes 4 (e + 200) ++ iBytes 4 0 ++ iBytes 4 e ++ iBytes 4 200
def dPaint (e : Int) : Desc := mkPtr 0x0501 hLay 0 32 (poly e)
theorem wit_bd_flush : passes 0x0500 (dBd 0x0500 [0]) (sBd 0 rBd) = true ∧ objOf (sBd 0 rBd) hLay = some (oLay 0 rBd) ∧ u8 (dBd 0x0500 [0]).bytes 16 = 0
    ∧ (pend (xBd 0x0500 3) (sBd 0 rBd)).hif.deferred.find? (fun x => x.op == 0x0500 && x.handle == hLay && x.arg == 3) = some (xBd 0x0500 3)
    ∧ (layerOf (oLay 0 rBd)).flushes.find? (fun f => f.started && f.left.isEmpty && f.flight.isEmpty) = some { id := 3, started := true, due := 9 }
    ∧ (layerOf (oLay 0 rBd)).flushes.find? (fun f => f.started && f.left.any (unwritable (oLay 0 rBd))) = some { id := 5, started := true, left := [(0, 1)] }
    ∧ passes 0x0500 (dBd 0x0500 [1]) (withObj (on (oLay 0 rBd)) sRings) = true := by decide +kernel
theorem wit_bd_paint : passes 0x0501 (dPaint 3300) (sBd 0 rBd0) = true ∧ objAt (sBd 0 rBd0) 8 = some (oLay 0 rBd0)
    ∧ (blockOf (sBd 0 rBd0) (dPaint 3300)).length = 8 + 8 * u8 (blockOf (sBd 0 rBd0) (dPaint 3300)) 1 ∧ layCov (oLay 0 rBd0) = true
    ∧ zeroBytes (blockOf (sBd 0 rBd0) (dPaint 3300)) 2 6 = true ∧ viewTile (sBd 0 rBd0) (oLay 0 rBd0) 0 1 = .excl
    ∧ (layerOf (oLay 0 rBd)).paints.find? (fun p => p.left.isEmpty) = some { id := 4 } := by decide +kernel
theorem wit_bd_tile : passes 0x0502 (dTile 0x0502 0 0) (sBd 0 rBd) = true ∧ dBlockLen (dTile 0x0502 0 0) = tileBytes (oLay 0 rBd)
    ∧ viewTile (sBd 0 rBd) (oLay 0 rBd) 0 0 = .here (tBd false) ∧ viewTile (sBd 0 rBd) (oLay 0 rBd) 1 0 = .blank 2
    ∧ (makeWay (oLay 0 rBd) false 1 0 (unfetch 8 1 0 (sBd 0 rBd))).1 = .free ∧ tileImage (oLay 0 rBd) { entry := 2 } = List.replicate 1024 0
    ∧ passes 0x0503 (dTile 0x0503 0 0) (sBd 0 rBd) = true ∧ entryClass (sBd 0 rBd) (oLay 0 rBd) 0x8001 ≠ 2 ∧ layW (oLay 0 rBd) = 2 := by decide +kernel
def dAddr (tx ty e : Nat) : Desc := dBd 0x0504 (leBytes 2 tx ++ leBytes 2 ty ++ [0, 0, 0, 0] ++ leBytes 8 e)
theorem wit_bd_addr : passes 0x0504 (dAddr 1 0 0x8401) (sBd 0 rBd) = true ∧ layCacheOnly (oLay 0 rBd) = false
    ∧ entryValid (sBd 0 rBd) (oLay 0 rBd) 0x8401 = true ∧ tileAt (layerOf (oLay 0 rBd)) 1 0 = none ∧ lastCopy (layerOf (oLay 0 rBd)) 1 0 = none
    ∧ ptrMailbox (layDir (oLay 0 rBd) + 8 * entryNo (oLay 0 rBd) 1 0) = false
    ∧ passes 0x0505 (dBd 0x0505 (List.replicate 8 0)) (sBd 0 rBd) = true ∧ passes 0x0506 (dBd 0x0506 (List.replicate 14 0)) (sBd 0 rBd) = true
    ∧ (layerOf (oLay 0 { rBd with tiles := [tBd true] })).tiles.any (fun t => decide (t.tx = 0) && t.dirty) = true := by decide +kernel

def rFe : LayerRt := { rBd0 with tiles := [], fetches := [{ group := false, tx := 0, ty := 0 }] }
def fBd : Fetch := { group := false, tx := 0, ty := 0 }
def rWb : LayerRt := { rBd0 with tiles := [{ tBd true with pin := 2 }], wbs := [{ tile := tBd true }], held := [{ tx := 1, ty := 1, ends := 5 }], degraded := true }
def rDirty : LayerRt := { rBd0 with tiles := [tBd true] }
theorem wit_bd_cache : objOf (sBd 0 rFe) hLay = some (oLay 0 rFe) ∧ entryOf (oLay 0 rFe) 0 0 = some 0x8001 ∧ ptrMailbox (entryAddr 0x8001) = false
    ∧ (layerOf (oLay 0 rWb)).wbs = [{ tile := tBd true }] ∧ (tBd true).entry % 8 = 1 ∧ tileAt (layerOf (oLay 0 rDirty)) 0 0 = some (tBd true)
    ∧ tileGone (sBd 0 rDirty) 0x8001 = false ∧ fetchWaits (sBd 0 rFe) (oLay 0 rFe) fBd = false
    ∧ entryClass (sBd 0 rFe) (oLay 0 rFe) 0x8001 = 1 ∧ boardDetached (sBd 0 rDirty) (oLay 0 rDirty) = false ∧ tileAt (layerOf (oLay 0 rBd0)) 0 0 = some (tBd false)
    ∧ (layerOf (oLay 0 rWb)).held = [{ tx := 1, ty := 1, ends := 5 }] ∧ (rWb.fails.length < 15) := by decide +kernel
def oLayTimer : Obj := { oLay 0 rDirty with act := putAt (layPs 0 0x4000) 52 (leBytes 2 1000) }
def oLayOn : Obj := { oLay 2 rBd0 with ost := .enabled }
def recQ : List Byte := [3, 0] ++ leBytes 2 100 ++ List.replicate 12 0
def oChanQ : Obj := { idx := 11, typ := tyNozzle, params := createBlock tyNozzle [], act := createBlock tyNozzle []
                      rt := .chan { chan := 3, queries := [{ body := recQ }] } }
theorem wit_bd_records : u16 oLayTimer.act 52 ≠ 0 ∧ objsOf (withObj oLayOn sRings) tyLayer = [oLayOn] ∧ bit (u8 oLayOn.act 3) 1 = true
    ∧ layerOn (withObj oLayOn sRings) true = some oLayOn ∧ recQ.length = 16 ∧ (countedFoot oLayOn (footOf recQ)).2.1.length ≤ 12288
    ∧ chanByIndex (withObj oChanQ sRings) (u8 recQ 0) = some oChanQ ∧ chanByIndex sRings (u8 recQ 0) = none ∧ (3 : Nat) ≠ sRings.osl.position := by
  decide +kernel

def secPs (mode : Nat) (m : Nat) : List Byte :=
  putAt (putAt (putAt (createBlock tySection []) 16 [BitVec.ofNat 8 mode]) 48 [1, 0, 0, 0, 0, 0, 0, 0]) 56 (leBytes 4 0 ++ leBytes 4 m)
def hNoz : Nat := 0x0101000B
def oSec (mode : Nat) (r : SecRt) : Obj := { idx := 12, typ := tySection, ost := .enabled, params := secPs mode hNoz, act := secPs mode hNoz, rt := .sect r }
def hSec : Nat := 0x0103000C
def nozPs : List Byte := putAt (putAt (createBlock tyNozzle []) 44 (leBytes 4 5000)) 48 (leBytes 4 50000)
def oNoz (r : ChRt) : Obj := { idx := 11, typ := tyNozzle, ost := .enabled, params := nozPs, act := nozPs, rt := .chan r }
def dSch (op h : Nat) (inl : List Byte) : Desc := mkDesc op h inl
def sNoz (r : ChRt) : State := withObj (oNoz r) sRings
def sSec (mode : Nat) (g : Bool) : State := withObj (oSec mode { gate := g }) (sNoz {})
theorem wit_sched_channel : passes 0x0600 (dSch 0x0600 hNoz [1, 0, 0]) (sNoz {}) = true ∧ objOf (sNoz {}) hNoz = some (oNoz {}) ∧ objAt (sNoz {}) 11 = some (oNoz {})
    ∧ chSection (sNoz {}) (oNoz {}) = none ∧ commanded {} = false ∧ (chPush (oNoz {}) (cmdEdge (dSch 0x0600 hNoz [1, 0, 0]) 0) (sNoz {})).1 = .queued
    ∧ (chPush (oNoz {}) (cmdEdge (dSch 0x0600 hNoz [0, 0, 0]) 0) (sNoz {})).1 = .same
    ∧ (chPush (oNoz {}) (cmdEdge (dSch 0x0600 hNoz [1, 0, 0]) 0) (sNoz { queue := [{}, {}, {}, {}] })).1 = .full ∧ ({ queue := [{}, {}, {}, {}] } : ChRt).queue.length = 4
    ∧ passes 0x0600 (dSch 0x0600 hNoz [1, 0, 0]) (sNoz { queue := [{}, {}, {}, {}] }) = true
    ∧ passes 0x0600 (dSch 0x0600 hNoz [1, 0, 0]) (sSec 1 false) = true ∧ chSection (sSec 1 false) (oNoz {}) = some (oSec 1 { gate := false })
    ∧ chSection (sSec 2 false) (oNoz {}) = some (oSec 2 { gate := false }) := by decide +kernel
theorem wit_sched_section : passes 0x0601 (dSch 0x0601 hSec [1, 0, 0]) (sSec 2 true) = true ∧ objOf (sSec 2 true) hSec = some (oSec 2 { gate := true })
    ∧ crefsOf tySection (oSec 2 {}).act = [(0, hNoz)] ∧ objOf (sSec 2 true) hNoz = some (oNoz {}) ∧ objAt (sSec 2 true) 11 = some (oNoz {})
    ∧ u8 (oSec 2 {}).act 16 = 2 ∧ u8 (oSec 1 {}).act 16 = 1 ∧ passes 0x0601 (dSch 0x0601 hSec [0, 0, 0]) (sSec 2 true) = true
    ∧ objOf (withObj { oSec 2 {} with ost := .disabled } sRings) hSec = some { oSec 2 {} with ost := .disabled } := by decide +kernel
theorem wit_sched_gate : passes 0x0602 (dSch 0x0602 hSec [1]) (sSec 2 true) = true ∧ passes 0x0602 (dSch 0x0602 hSec [1]) (sSec 1 true) = true
    ∧ passes 0x0603 (dSch 0x0603 hSec [0, 0, 0x80, 0x3F, 1]) (sSec 2 true) = true ∧ fFinite (f32 (dSch 0x0603 hSec [0, 0, 0x80, 0x3F, 1]).bytes 16) = true
    ∧ (crefsOf tySection (oSec 2 {}).params).all (fun m => unitFits (hType m.2) 1) = true ∧ passes 0x0603 (dSch 0x0603 hSec [0, 0, 0x80, 0x3F, 4]) (sSec 2 true) = true
    ∧ (crefsOf tySection (oSec 2 {}).params).all (fun m => unitFits (hType m.2) 4) = false
    ∧ passes 0x0604 (dSch 0x0604 hSec []) (sSec 2 true) = true ∧ passes 0x0605 (dSch 0x0605 hNoz (leBytes 4 9000 ++ leBytes 4 0xFFFFFFFF)) (sService (sNoz {})) = true
    ∧ passes 0x0606 (dSch 0x0606 0 []) sRings = true ∧ sRings.objs = [] ∧ sRings.sched.saving = [] ∧ sRings.pwr.bow = false
    ∧ passes 0x0607 (dSch 0x0607 0 [5]) (sService sRings) = true ∧ u16 (dSch 0x0607 0 [5]).bytes 16 = 5 := by decide +kernel

def oPt (x : GeoPt) : Obj := { idx := 4, typ := tyGeopoint, ost := .enabled, params := createBlock tyGeopoint [], act := createBlock tyGeopoint []
                               rt := .geo { cur := x } }
def oNozP (ps : List Byte) (r : ChRt) : Obj := { oNoz r with act := putAt ps 16 (leBytes 4 0x010C0004) }
def ptMove : GeoPt := { boundary := 96000, s := -1000, v := 100 }
def eArmed : Edge := { on := true, st := 2, value := -950, dir := 1 }
def rFire : ChRt := { queue := [eArmed] }
def sFire (r : ChRt) : State := withObj (oPt ptMove) (withObj (oNozP nozPs r) sRings)
def oNozQ : Obj := { oNoz {} with act := putAt nozPs 32 [0] }
theorem wit_fire : objOf (sFire rFire) hNoz = some (oNozP nozPs rFire) ∧ chPoint (sFire rFire) (oNozP nozPs rFire) = some (oPt ptMove)
    ∧ crossTick ptMove (-950) 1 0 = some 12000 ∧ isChan (oNozP nozPs rFire) = true ∧ objOf (sNoz {}) (chOut (oNoz {})) = none
    ∧ objAt (withObj oNozQ sRings) 11 = some oNozQ ∧ (chanOf oNozQ).windows = [] ∧ objOf (withObj oNozQ sRings) (chOut oNozQ) = none
    ∧ learns oNozQ true = false ∧ chMeter (sFire rFire) (oNozP nozPs rFire) = none := by decide +kernel
def wOff : Sample := { edge := 480000 }
def rWin : ChRt := { windows := [wOff], latOff := 20000 * 2 ^ 96, shiftOn := some 9, stuck := 3, queue := [{ pre := (2, -950, 1) }] }
def oConf (r : ChRt) : Obj := { oNoz r with act := putAt nozPs 32 [2] }
theorem wit_window : objOf (sNoz rWin) hNoz = some (oNoz rWin) ∧ objAt (sNoz rWin) 11 = some (oNoz rWin) ∧ (chanOf (oNoz rWin)).windows = [wOff]
    ∧ (sNoz rWin).pwr.vbatLow.getD (senseGroup (sNoz rWin) (chSense (sNoz rWin) (oNoz rWin))) false = false ∧ cutShort wOff.cut none = false
    ∧ signatureOf { idx := 3, typ := tySwitch, act := createBlock tySwitch [] } true 0 48000 0
      (List.replicate 9 0 ++ List.replicate 12 3000 ++ List.replicate 12 2000 ++ List.replicate 12 2900) = some 13440
    ∧ 10 * fxAbs (fxFrac (21000 * 480) 480 - rWin.latOff) ≤ 3 * rWin.latOff ∧ 3 * rWin.latOff < 10 * fxAbs (fxFrac (30000 * 480) 480 - rWin.latOff)
    ∧ bit (chFlags (oConf rWin)) 1 = true ∧ objOf (withObj (oConf rWin) sRings) hNoz = some (oConf rWin) := by decide +kernel
def recOn : List Byte := leBytes 4 hNoz ++ [1, 0, 0, 0]
def rSecTc : SecRt := { repOn := 5, nowOn := 16 }
def oRow : Obj := { idx := 13, typ := tyRow, ost := .enabled, params := createBlock tyRow [], act := putAt (createBlock tyRow []) 16 (leBytes 4 0x010C0004)
                    rt := .chan { output := true } }
def sRow : State := withObj (oPt { v := 1000000000000 }) (withObj oRow sRings)
theorem wit_sched_records : u32 recOn 0 = hNoz ∧ (u8 recOn 4 == 1) ≠ commanded (chanOf (oNoz {})) ∧ u8 recOn 5 = 0 ∧ bit (u8 recOn 6) 3 = false
    ∧ objOf (withObj (oSec 1 rSecTc) sRings) hSec = some (oSec 1 rSecTc) ∧ u8 (oSec 1 rSecTc).act 16 = 1 ∧ sRings.isb.tc ≠ 4
    ∧ objOf sRow 0x0102000D = some oRow ∧ chPoint sRow oRow = some (oPt { v := 1000000000000 })
    ∧ fxOf (kc16 sRow 152) < fxFrac 1000000000000 655360000 := by decide +kernel

def bk1 : List Byte := [1, 0xFF, 0, 0] ++ List.replicate 64 0
def loopPs : List Byte := putAt (createBlock tyLoop []) 84 [1]
def oLoop (ost : OState) (r : LoopRt) : Obj := { idx := 14, typ := tyLoop, ost := ost, params := loopPs, act := loopPs, rt := .loop r }
def hLoop : Nat := 0x0104000E
def sLoop (ost : OState) (r : LoopRt) : State := withObj (oLoop ost r) sRings
def dStageBank (l : Nat) (b : List Byte) : Desc := mkPtr 0x0700 hLoop l b.length b
def dLoop (op : Nat) (inl : List Byte) : Desc := mkDesc op hLoop inl
def rBanks : LoopRt := { lawA := { bank := bk1, stage := bk1 }, lawB := { stage := bk1 }, mode := 1, xfer := 1, lastTk := 300000000, feSince := some 5 }
theorem wit_loop_stage : passes 0x0700 (dStageBank 0 bk1) (sLoop .disabled {}) = true ∧ bankBad loopPs (blockOf (sLoop .disabled {}) (dStageBank 0 bk1)) = none
    ∧ passes 0x0700 (dStageBank 1 bk1) (sLoop .disabled {}) = true ∧ sealPending (sLoop .disabled {}) hLoop = false
    ∧ sealPending (pend { st := { desc := dNop, cq := 16 }, op := 0x0701, handle := hLoop, due := 0 } (sLoop .enabled {})) hLoop = true
    ∧ objOf (sLoop .disabled {}) hLoop = some (oLoop .disabled {})
    ∧ (blockOf (sLoop .disabled {}) (dStageBank 0 (putAt bk1 0 [2]))).length ≠ 88 ∧ passes 0x0700 (dStageBank 0 (putAt bk1 0 [2])) (sLoop .disabled {}) = true := by decide +kernel
theorem wit_loop_seal : passes 0x0701 (dLoop 0x0701 [1]) (sLoop .enabled rBanks) = true ∧ rBanks.lawA.stage ≠ [] ∧ rBanks.lawB.stage ≠ []
    ∧ passes 0x0701 (dLoop 0x0701 [1]) (sLoop .disabled rBanks) = true ∧ isEnabled (oLoop .disabled rBanks) = false
    ∧ passes 0x0702 (dLoop 0x0702 [0, 0, 0, 0, 0]) (sLoop .enabled rBanks) = true ∧ u8 (oLoop .enabled {}).params (lawOff 0 + 5) = 0
    ∧ passes 0x0703 (dLoop 0x0703 [1]) (sLoop .enabled rBanks) = true ∧ u32 loopPs (lawOff 0) = 0
    ∧ passes 0x0704 (dLoop 0x0704 []) (sLoop .enabled {}) = true ∧ passes 0x0705 (dLoop 0x0705 [2]) (sLoop .enabled {}) = true
    ∧ objAt (sLoop .enabled {}) 14 = some (oLoop .enabled {}) ∧ 24 ≤ loopPs.length := by decide +kernel
def oLoopM (r : LoopRt) : Obj := { oLoop .enabled r with params := putAt loopPs 88 (leBytes 4 hFb) }
theorem wit_loop_mode : passes 0x0703 (dLoop 0x0703 [1]) (withObj (oLoopM rBanks) sRings) = true ∧ u32 (oLoopM {}).params (lawOff 0) ≠ 0
    ∧ objOf (withObj (oLoopM rBanks) sRings) hLoop = some (oLoopM rBanks) ∧ u8 (putAt loopPs (lawOff 0 + 5) [1]) (lawOff 0 + 5) ≠ 0
    ∧ passes 0x0706 (mkPtr 0x0706 hLoop 0 68 []) (sLoop .enabled rBanks) = true ∧ passes 0x0706 (mkPtr 0x0706 hLoop 257 68 []) (sLoop .enabled rBanks) = true
    ∧ rBanks.xAt + u32 (oLoop .enabled rBanks).act 52 * 480 ≤ rBanks.lastTk ∧ rBanks.xBind = false := by decide +kernel

def sTrc (t : Trc) : State := { setRing 36 (fun _ => ringEq) sRings with trc := t }
theorem wit_trace : armBad (sTrc { en := true, post := 4 }) = false ∧ armBad (sTrc { en := true, post := 9000 }) = true
    ∧ (sTrc { due := some 5, state := 2, left := 2 }).trc.state = 2 ∧ ({ due := some 5, state := 1, trig := 4, pre := 2 } : Trc).trig % 16 = 4
    ∧ ringServed (sTrc {}) 36 = true ∧ ringRoom (ringOf (sTrc {}) 36) = true := by decide +kernel
theorem test_trace_pre : (after (exec .traceRecord (sTrc { due := some 5, state := 1, trig := 4, pre := 2 })) sNative).trc.buf.length = 1 := by decide +kernel

def dPg (op : Nat) (inl : List Byte) : Desc := mkDesc op 0 inl
def dGrp (al p : Nat) : Desc := dPg 0x0800 ([3, BitVec.ofNat 8 al, 0, 0] ++ leBytes 4 p)
def pwmPs : List Byte := putAt (createBlock tyPwmch []) 2 [3]
def oPwm (r : PwmRt) : Obj := { idx := 15, typ := tyPwmch, ost := .enabled, params := pwmPs, act := pwmPs, rt := .pwm r }
def hPwm : Nat := 0x0109000F
def sPwm (r : PwmRt) : State := withObj (oPwm r) sRings
def gComm : List Byte := [0, 6] ++ List.replicate 78 0
def sTrip (t : Trip) : State := { sRings with pg := { sRings.pg with trips := sRings.pg.trips.set 1 t } }
theorem wit_pg_group : passes 0x0800 (dGrp 0 9600) sRings = true ∧ passes 0x0800 (dGrp 1 9600) sRings = true ∧ groupChans sRings 3 = []
    ∧ groupChans (sPwm {}) 3 ≠ [] ∧ (pgGroup (sPwm {}) 3).period ≠ 9600 ∧ (pgGroup (sPwm {}) 3).aligned = false ∧ (pgGroup (sPwm {}) 3).anchor = i64 (dGrp 0 9600).bytes 24
    ∧ u32 (dGrp 0 9600).bytes 20 = 9600 ∧ passes 0x0800 (dGrp 0 90) sRings = true ∧ passes 0x0800 (dGrp 0 9600) (sPwm {}) = true := by decide +kernel
theorem wit_pg_trip : passes 0x0801 (dPg 0x0801 [1, 1, 1, 0, 2]) (sTrip {}) = true ∧ (trip (sTrip { latched := true }) 1).latched = true
    ∧ passes 0x0802 (dPg 0x0802 [2]) (sTrip { latched := true, input := true }) = true ∧ (sTrip {}).pg.trips.length = 8 := by decide +kernel
def dComm (b : List Byte) : Desc := mkPtr 0x0803 0 2 80 b
def sComm (b : List Byte) : State := { sRings with pg := { sRings.pg with groups := sRings.pg.groups.set 2 { comm := some b, step := 5 } } }
theorem wit_pg_comm : passes 0x0803 (dComm gComm) sRings = true ∧ commBad sRings 2 (blockOf sRings (dComm gComm)) = none ∧ sRings.objs = []
    ∧ u8 (blockOf sRings (dComm (putAt gComm 1 [9]))) 1 = 9 ∧ passes 0x0804 (dPg 0x0804 [2, 0, 0]) (sComm gComm) = true ∧ u8 gComm 1 = 6
    ∧ passes 0x0804 (dPg 0x0804 [2, 2, 7]) (sComm gComm) = true ∧ (pgGroup sRings 2).comm = none ∧ (pgGroup (sComm gComm) 2).comm = some gComm
    ∧ passes 0x0805 (mkPtr 0x0805 0 0 264 []) sRings = true ∧ sRings.pg.groups.length = 16 := by decide +kernel

def rPwm : PwmRt := { setEdge := some 5, turn := some (true, 7), blankUntil := 9 }
def sPwmT (r : PwmRt) (t : Trip) : State := { sPwm r with pg := { sRings.pg with trips := sRings.pg.trips.set 0 t } }
def oPwm2 (ps : List Byte) (r : PwmRt) : Obj := { oPwm r with act := ps }
theorem wit_pg_edge : objOf (sPwm rPwm) hPwm = some (oPwm rPwm) ∧ objAt (sPwm rPwm) 15 = some (oPwm rPwm) ∧ pwChan (oPwm rPwm).act < 64
    ∧ isEnabled (oPwm rPwm) = true ∧ (pwmOf (oPwm { clrEdge := some 5 })).setEdge = none ∧ u8 (oPwm rPwm).act 34 = 0
    ∧ pwHeld (sPwm rPwm) (oPwm rPwm) rPwm = true
    ∧ pwHeld (sPwm { rPwm with gate := true }) (oPwm { rPwm with gate := true }) { rPwm with gate := true } = false
    ∧ (pgGroup { sRings with pg := { sRings.pg with groups := sRings.pg.groups.set 2 { next := some 96000 } } } 2).next = some 96000
    ∧ (∀ x ∈ sRings.pg.trips, x.en = false) ∧ u8 (putAt pwmPs 34 [1]) 34 = 1 := by decide +kernel
theorem wit_pg_trips : (trip (sTrip { en := true }) 1).latch = true ∧ tripChans (sTrip { en := true }) 1 = []
    ∧ (trip (sTrip { latched := true, flags := 4 }) 1).latched = true ∧ bit 4 2 = true ∧ (sTrip {}).objs = []
    ∧ (trip (sPwmT rPwm { en := true, input := true, flags := 2 }) 0).en = true ∧ bit 2 1 = true := by decide +kernel
def adaPs : List Byte := putAt (putAt pwmPs 1 [1]) 35 [0x10]
def gHall : List Byte := [1, 6, 3, 3, 3, 0xFF] ++ List.replicate 74 0
theorem wit_pg_dead : pwmOnChan sRings 6 = none ∧ pwmOnChan (withObj (oPwm2 adaPs rPwm) sRings) 0 = some (oPwm2 adaPs rPwm) ∧ pwAdaptive adaPs = true
    ∧ (pgGroup (sComm gHall) 2).comm = some gHall ∧ (sComm gHall).objs = [] ∧ gpioLevel (sComm gHall) 3 ≠ true
    ∧ (∀ j : Fin 16, j.val ≠ 2 → (pgGroup (sComm gHall) j).comm = none) := by decide +kernel

def swPs (line : Nat) : List Byte := putAt (createBlock tySwitch []) 0 [BitVec.ofNat 8 line]
def oSw (ps : List Byte) (r : SwRt) : Obj := { idx := 16, typ := tySwitch, ost := .enabled, params := ps, act := ps, rt := .sw r }
def hSw : Nat := 0x01080010
def sSw (r : SwRt) : State := withObj (oSw (swPs 5) r) sRings
def dSw (op : Nat) (inl : List Byte) : Desc := mkDesc op hSw inl
def oPwmSw : Obj := { oPwm {} with params := putAt pwmPs 4 (leBytes 4 hSw) }
def xSw : Deferred := { st := { desc := dSw 0x0900 [1], cq := 16 }, op := 0x0900, handle := hSw, due := 9, arg := 1 }
theorem wit_sw_cmd : passes 0x0900 (dSw 0x0900 [1]) (sSw {}) = true ∧ objOf (sSw {}) hSw = some (oSw (swPs 5) {}) ∧ driverOf (sSw {}) hSw = none
    ∧ swSrc (swPs 5) ≠ 1 ∧ u64 (dSw 0x0900 [1, 0, 0, 0, 0, 0, 0, 0, 9]).bytes 24 = 9 ∧ passes 0x0900 (dSw 0x0900 [1, 0, 0, 0, 0, 0, 0, 0, 9]) (sSw {}) = true
    ∧ driverOf (withObj oPwmSw (sSw {})) hSw ≠ none ∧ passes 0x0900 (dSw 0x0900 [1]) (sSw { latch := 1 }) = true
    ∧ (sSw {}).objs = [oSw (swPs 5) {}] ∧ (oSw (swPs 5) {}).rt = .sw (swOf (oSw (swPs 5) {})) ∧ firstDue (pend xSw (sSw {})) 0x0900 hSw (fun _ => true) = some xSw
    ∧ firstDue (sSw {}) 0x0900 hSw (fun _ => true) = none ∧ passes 0x0900 (dSw 0x0900 [1]) (withObj oPwmSw (sSw {})) = true := by decide +kernel
def pinPs : List Byte := putAt (putAt (swPs 5) 1 [1]) 2 [9]
theorem wit_sw_clear : passes 0x0901 (dSw 0x0901 [15]) (sSw { latch := 5 }) = true ∧ fLt (0 : F32) (fk 150) = true ∧ fLe (0 : F32) (fq 1 2) = true
    ∧ fLt (fk 160) (fk 150) = false ∧ passes 0x0901 (dSw 0x0901 [2]) (sSw { latch := 2, tj := fk 160 }) = true ∧ passes 0x0901 (dSw 0x0901 [1]) (sSw { latch := 3 }) = true
    ∧ passes 0x0902 (mkPtr 0x0902 0 0 64 []) sRings = true ∧ gpioLevel sRings 9 ≠ true ∧ swSrc pinPs = 1 ∧ u8 pinPs 2 = 9 ∧ bit (u8 pinPs 6) 0 = false
    ∧ (∀ x ∈ sRings.pg.groups, x.comm = none) ∧ sRings.pg.gpio.length = 48 := by decide +kernel

def olPs : List Byte := putAt (putAt (swPs 5) 5 [1]) 28 [3]
def sSwP (r : SwRt) : State := withObj (oSw olPs r) sRings
theorem wit_sw_line : (sSw {}).isl.hold.contains 5 = false ∧ swOnLine (sSw {}) 5 = some (oSw (swPs 5) {}) ∧ swThermal {} = false ∧ swThermal { latch := 2 } = true
    ∧ ({ sRings.isl with hold := [5] } : Isl).hold.contains 5 = true ∧ fLe (fk (u8 (swPs 5) 7)) (fSub (fk 200) (fk 50)) = true
    ∧ fLe (fk (u8 (swPs 5) 7)) (fSub (fk 50) (fk 50)) = false ∧ fLe (fSub (fk 50) (fk 50)) (fk ((u8 (swPs 5) 7 : Int) - 15)) = true
    ∧ fLe (fk 170) (fk 171) = true ∧ fLe (fk 170) (fk 169) = false ∧ u8 olPs 5 ≠ 0 ∧ u8 olPs 28 = 3 ∧ u16 olPs 26 < 60000
    ∧ swOnLine (sSwP { limAt := some 9 }) 5 = some (oSw olPs { limAt := some 9 }) ∧ swFaultTarget (sSw {}) hSw = none ∧ swCmdEnded (sSw {}) (oSw (swPs 5) { cmd := true }) = false
    ∧ olThreshold olPs = u16 olPs 24 / 10 * 10 * 500 ∧ swOnLine sRings 5 = none ∧ (∀ x ∈ sRings.swd.acc ++ [sRings.swd.acc.foldl (· + ·) 0], x * 25 ≤ 10 * 10 ^ 10)
    ∧ (List.replicate 7 0 ++ [0]).length = 8 := by decide +kernel
theorem test_sw_limit : ((objAt (after (exec (.swCurrentLimit 5 7) (sSw { out := true })) sNative) 16).map fun o => (swOf o).limAt) = some (some 7) := by decide +kernel

def oSol (r : SolRt) : Obj := { idx := 17, typ := tySolenoid, ost := .enabled, params := createBlock tySolenoid [], act := createBlock tySolenoid [], rt := .sol r }
def hSol : Nat := 0x01070011
def sSol (r : SolRt) : State := withObj (oSol r) sRings
def dSol (op : Nat) (inl : List Byte) : Desc := mkDesc op hSol inl
def xSol (a : Nat) : Deferred := { st := { desc := dSol 0x0A01 [1], cq := 16 }, op := 0x0A01, handle := hSol, due := 9, arg := a }
def dBoost (f : Nat) : Desc := mkDesc 0x0A00 0 ([1, 0] ++ leBytes 2 f ++ fBytes (fk 50) ++ fBytes (fk 10) ++ fBytes (fk 10) ++ leBytes 2 500 ++ leBytes 2 20)
theorem wit_sol_boost : passes 0x0A00 (dBoost 300) sRings = true ∧ fIn (fk 24) (fk 65) (f32 (dBoost 300).bytes 20) = true
    ∧ fIn (fq 1 2) (fk 20) (f32 (dBoost 300).bytes 24) = true ∧ fIn (fk 5) (fk 100) (f32 (dBoost 300).bytes 28) = true ∧ u16 (dBoost 300).bytes 32 = 500
    ∧ u16 (dBoost 300).bytes 34 = 20 ∧ fVal (f32 (dBoost 300).bytes 24) * fVal (f32 (dBoost 300).bytes 28) ≤ 200 * 2 ^ 298
    ∧ (objsOf (sSol {}) tySolenoid).any isEnabled = true ∧ sRings.boost.freq ≠ 301 ∧ passes 0x0A00 (dBoost 1001) sRings = true
    ∧ passes 0x0A00 (dBoost 301) (sSol {}) = true := by decide +kernel
def oChSol : Obj := { oNoz {} with params := putAt nozPs 20 (leBytes 4 hSol) }
theorem wit_sol_cmd : passes 0x0A01 (dSol 0x0A01 [1]) (sSol {}) = true ∧ objOf (sSol {}) hSol = some (oSol {}) ∧ driverOf (sSol {}) hSol = none
    ∧ passes 0x0A01 (dSol 0x0A01 [1, 0, 0, 0, 0, 0, 0, 0, 9]) (sSol {}) = true ∧ u64 (dSol 0x0A01 [1, 0, 0, 0, 0, 0, 0, 0, 9]).bytes 24 = 9
    ∧ passes 0x0A01 (dSol 0x0A01 [1]) (withObj oChSol (sSol {})) = true ∧ driverOf (withObj oChSol (sSol {})) hSol ≠ none
    ∧ passes 0x0A01 (dSol 0x0A01 [1]) (sSol { latch := 1 }) = true ∧ firstDue (pend (xSol 1) (sSol {})) 0x0A01 hSol (· == 1) = some (xSol 1)
    ∧ firstDue (pend (xSol 0) (sSol {})) 0x0A01 hSol (· == 0) = some (xSol 0) ∧ firstDue (sSol {}) 0x0A01 hSol (· == 1) = none
    ∧ passes 0x0A02 (dSol 0x0A02 [3]) (sSol {}) = true ∧ passes 0x0A02 (dSol 0x0A02 [4]) (sSol {}) = true
    ∧ passes 0x0A03 (mkPtr 0x0A03 0 0 32 []) sRings = true := by decide +kernel

def sBst (b : Boost) (r : SolRt) : State := { sSol r with boost := b }
def rPk : SolRt := { phase := 3, reached := true, window := some { on := true }, gate := true }
theorem wit_sol_boosts : fLe (fk 48) (fk 50) = true ∧ objOf (sSol { phase := 1 }) hSol = some (oSol { phase := 1 }) ∧ handleOf (oSol {}) = hSol
    ∧ (sBst { queue := [hSol], charging := true } { phase := 1 }).boost.queue.head? = some hSol ∧ objAt (sSol {}) 17 = some (oSol {})
    ∧ fLt (fk 68) (fk 69) = true ∧ fLt (fAdd (fk 60) (fk 5)) (fk 50) = false ∧ (solOf (oSol { phase := 2 })).phase = 2 := by decide +kernel
theorem wit_sol_phases : objOf (sSol rPk) hSol = some (oSol rPk) ∧ (bankActive (sSol rPk) (solBank (oSol rPk).act)).length ≤ 1
    ∧ bit (solOf (oSol rPk)).latch 0 = false ∧ bit (u8 (putAt (oSol rPk).act 3 [1]) 3) 0 = true ∧ bit (u8 (putAt (oSol rPk).act 3 [0]) 3) 0 = false
    ∧ (sSol rPk).pwr.vbatLow.getD 0 false = false ∧ cutShort ({ on := true } : Window).cut none = false
    ∧ driverOf (sSol rPk) hSol = none ∧ (solOf (oSol rPk)).window ≠ none
    ∧ (bankActive (withObj { oSol rPk with idx := 18 } (sSol rPk)) (solBank (oSol rPk).act)).length = 2 := by decide +kernel

def oAx (ost : OState) (r : AxRt) : Obj := { idx := 18, typ := tyAxis, ost := ost, params := createBlock tyAxis [], act := createBlock tyAxis [], rt := .axis r }
def hAx : Nat := 0x01050012
def sAx (r : AxRt) : State := withObj (oAx .enabled r) sRings
def dAx (op : Nat) (inl : List Byte) : Desc := mkDesc op hAx inl
def oLoopAx : Obj := { oLoop .enabled {} with params := putAt loopPs 16 (leBytes 4 hAx) }
def oAxHome : Obj := { oAx .enabled {} with act := putAt (oAx .enabled {}).act 52 (leBytes 4 (hTab 4)) }
def aCmp : ACmp := { desc := dNop, armed := true, value := 0, dir := 1 }
theorem wit_axis_cmds : passes 0x0B00 (dAx 0x0B00 [0]) (sAx {}) = true ∧ objOf (sAx {}) hAx = some (oAx .enabled {}) ∧ driverOf (sAx {}) hAx = none
    ∧ driverOf (withObj oLoopAx (sAx {})) hAx ≠ none ∧ passes 0x0B00 (dAx 0x0B00 [0]) (withObj oLoopAx (sAx {})) = true
    ∧ passes 0x0B00 (dAx 0x0B00 [4]) (sAx {}) = true ∧ objAt (sAx {}) 18 = some (oAx .enabled {}) ∧ firstDue (sAx {}) 0x0B00 hAx (· == 0) = none
    ∧ passes 0x0B01 (dAx 0x0B01 [1]) (sAx {}) = true ∧ passes 0x0B02 (dAx 0x0B02 [0, 0xFF, 1]) (sAx {}) = true
    ∧ passes 0x0B02 (dAx 0x0B02 [0, 112, 1]) (sAx {}) = true ∧ pwmOnChan (sAx {}) 112 = none
    ∧ pwmOnChan (withObj { oPwm {} with params := putAt pwmPs 0 [112] } (sAx {})) 112 ≠ none
    ∧ passes 0x0B04 (dAx 0x0B04 []) (sAx {}) = true ∧ passes 0x0B00 (dAx 0x0B00 [0]) (withObj (oAx .disabled {}) sRings) = true := by decide +kernel
theorem wit_axis_home : tableOf (withObj (oTab 4) (withObj oAxHome sRings)) (u32 oAxHome.act 52) = some img ∧ tableOf (sAx {}) (u32 (oAx .enabled {}).act 52) = none
    ∧ passes 0x0B03 (dAx 0x0B03 []) (withObj (oTab 4) (withObj oAxHome sRings)) = true ∧ driverOf (withObj (oTab 4) (withObj oAxHome sRings)) hAx = none
    ∧ passes 0x0B03 (dAx 0x0B03 []) (sAx {}) = true := by decide +kernel

def oStep : Obj := { oAx .enabled { mode := 2, stepLast := some 9, feSince := some 9, stillAt := some 9, wait := 1 } with act := putAt (oAx .enabled {}).act 101 [3, 0xFF, 2] }
def sStep : State := withObj oStep sRings
def rCh : AxRt := { trans := (List.range 40).map fun k => (7, k) }
theorem wit_axis_events : objsOf sStep tyAxis = [oStep] ∧ objAt sStep 18 = some oStep ∧ u8 oStep.act 101 = 3 ∧ objOf sStep hAx = some oStep
    ∧ u8 (oAx .enabled rCh).act 49 < axTransitions (oAx .enabled rCh).act rCh 7 0 ∧ axTransitions (oAx .enabled rCh).act rCh 8 0 ≤ u8 (oAx .enabled rCh).act 49
    ∧ sRings.isl.estopLatch = false ∧ safeForced sRings = false ∧ (axFirstTick { compares := [aCmp] } (fun p => decide (0 ≤ (p - 0 * axCount) * 1))) = some 0 := by
  decide +kernel

def fbPs (k n : Nat) : List Byte := putAt (createBlock tyFeedback []) 0 [BitVec.ofNat 8 k, BitVec.ofNat 8 n]
def oFbk (k n : Nat) (r : FbRt) : Obj := { idx := 7, typ := tyFeedback, gen := 3, ost := .enabled, params := fbPs k n, act := fbPs k n, rt := .fb r }
def sFbk (k n : Nat) (r : FbRt) : State := withObj (oFbk k n r) sRings
def dFb (op : Nat) (inl : List Byte) : Desc := mkDesc op hFb inl
theorem wit_fb_cmds : passes 0x0C00 (dFb 0x0C00 []) (sFbk 0 2 {}) = true ∧ objOf (sFbk 0 2 {}) hFb = some (oFbk 0 2 {}) ∧ fbKind (fbPs 0 2) = 0
    ∧ passes 0x0C00 (dFb 0x0C00 []) (sFbk 4 2 {}) = true ∧ fbKind (fbPs 4 2) = 4 ∧ passes 0x0C01 (dFb 0x0C01 []) (sFbk 4 2 { fault := true, reason := 5, rangeSince := some 3 }) = true
    ∧ passes 0x0C01 (dFb 0x0C01 []) (sFbk 4 2 { fault := true, reason := 3 }) = true ∧ passes 0x0C02 (mkDesc 0x0C02 0 [2, 9, 4]) sRings = true
    ∧ inputClaimed sRings 2 9 = false ∧ passes 0x0C02 (mkDesc 0x0C02 0 [0, 40, 4]) sRings = true ∧ passes 0x0C02 (mkDesc 0x0C02 0 [0, 40, 0]) sRings = true
    ∧ passes 0x0C03 (mkDesc 0x0C03 0 [1, 1, 3, 2]) sRings = true ∧ passes 0x0C03 (mkDesc 0x0C03 0 [1, 2, 3, 2]) sRings = true := by decide +kernel
def sEnco : State := { sFbk 0 2 { pos := 7 } with fbd := { sRings.fbd with enco := [{ mode := 2, src := hFb }] } }
theorem wit_fb_inputs : (sFbk 0 2 {}).objs = [oFbk 0 2 {}] ∧ 2 < (sFbk 0 2 {}).fbd.encA.length ∧ (sFbk 0 2 {}).fbd.encA.getD 2 false ≠ true
    ∧ bit (fbFlags (oFbk 0 2 {})) 0 = false ∧ (∀ e ∈ (sFbk 0 2 {}).fbd.enco, e.mode ≠ 1) ∧ fbInput (fbPs 0 2) = 2
    ∧ serialFb sRings 1 = none ∧ serialFb (sFbk 1 1 { reading := some 5 }) 1 = some (oFbk 1 1 { reading := some 5 })
    ∧ (serialRead (fbPs 1 1) false []) = ((none, 3), false) ∧ 0 + 1 < u8 (fbPs 1 1) 11
    ∧ (serialRead (putAt (fbPs 1 1) 27 [4]) true [true, false, true, true]) = ((some 11, 0), false)
    ∧ frameNo (sFbk 1 1 {}).gtc % max 1 (u8 (fbPs 1 1) 32) = 0 ∧ fbKind (fbPs 4 3) = 4 ∧ fbInput (fbPs 4 3) = 3
    ∧ sEnco.fbd.enco[0]? = some { mode := 2, src := hFb } ∧ encoTarget sEnco { mode := 2, src := hFb } - 0 = 7 := by decide +kernel
theorem test_quadrature_up : ((objAt (after (exec (.filteredEdge (.encA 2) true 9 255) (sFbk 0 2 {})) sNative) 7).map fun o => (fbOf o).pos) = some 1 := by decide +kernel

def canPs (ty : Nat) : List Byte := putAt (createBlock tyCanport []) 0 [BitVec.ofNat 8 ty]
def oCan (r : CanRt) : Obj := { idx := 19, typ := tyCanport, ost := .enabled, params := canPs 1, act := canPs 1, rt := .can r }
def hCan : Nat := 0x010B0013
def sCan (r : CanRt) : State := withObj (oCan r) sRings
def dCan (op : Nat) (inl : List Byte) : Desc := mkDesc op hCan inl
def txs (t : CanTx) : CanRt := { stopped := false, tx := ({} : CanRt).tx.set 3 t }
def dRead : Desc := mkPtr 0x0D01 hCan (1 + 256 * 2 + 65536 * 5) 160 []
def xRead (f due : Nat) : Deferred := { st := { desc := dRead, cq := 16 }, op := 0x0D01, handle := hCan, due := due, arg := f }
def rx1 : CanRx := { frame := { id := 5, eflags := 0, data := [1] } }
theorem wit_can_send : passes 0x0D00 (dCan 0x0D00 [3, 0, 1, 0, 5]) (sCan {}) = true ∧ objOf (sCan {}) hCan = some (oCan {}) ∧ dPtr (dCan 0x0D00 [3, 0, 1, 0, 5]) = false
    ∧ u32 (dCan 0x0D00 [3, 0, 1, 0, 5]).bytes 20 = 5 ∧ (txOf (oCan {}) 3).cfg = none ∧ (txOf (oCan (txs { pend := true })) 3).pend = true
    ∧ passes 0x0D00 (dCan 0x0D00 [3, 0, 1, 0, 5]) (sCan (txs { pend := true })) = true ∧ passes 0x0D01 dRead (sCan {}) = true ∧ u8 dRead.bytes 32 = 1
    ∧ u8 dRead.bytes 33 = 2 ∧ u16 dRead.bytes 34 = 5 ∧ readOf (sCan {}) hCan 1 = none ∧ readOf (pend (xRead 1 9) (sCan {})) hCan 1 = some (xRead 1 9)
    ∧ readOf (pend (xRead 0 0) (sCan { rx0 := [rx1, rx1] })) hCan 0 = some (xRead 0 0) := by decide +kernel
def filt1 : List Byte := leBytes 4 5 ++ leBytes 4 0x7FF ++ [1, 1] ++ List.replicate 6 0
def dTxc (fl : Byte) : Desc := dCan 0x0D03 ([3, fl, 1, 0] ++ leBytes 4 5 ++ leBytes 4 1000)
theorem wit_can_config : passes 0x0D02 (mkPtr 0x0D02 hCan 0 16 filt1) (sCan {}) = true ∧ filterBad (sCan {}) (blockOf (sCan {}) (mkPtr 0x0D02 hCan 0 16 filt1)) 0 = none
    ∧ (blockOf (sCan {}) (mkPtr 0x0D02 hCan 0 16 filt1)).length = 16 ∧ passes 0x0D03 (dTxc 16) (sCan {}) = true ∧ passes 0x0D03 (dTxc 0) (sCan {}) = true
    ∧ u32 (slice (dTxc 16).bytes 16 28) 8 = 1000 ∧ passes 0x0D04 (dCan 0x0D04 [3]) (sCan {}) = true ∧ (txOf (oCan (txs { susp := true })) 3).susp = true
    ∧ passes 0x0D04 (dCan 0x0D04 [3]) (sCan (txs { susp := true })) = true ∧ passes 0x0D05 (dCan 0x0D05 [9, 1]) (sCan {}) = true
    ∧ passes 0x0D06 (mkDesc 0x0D06 0 [1, 2, 3, 4, 5]) sRings = true ∧ u32 (mkDesc 0x0D06 0 [1, 2, 3, 4, 5]).bytes 20 = 5
    ∧ passes 0x0D07 (mkDesc 0x0D07 0 []) sRings = true := by decide +kernel

def frA : CanFrame := { id := 5, eflags := 0, data := [1, 2] }
def txA (p : Bool) : CanTx := { pend := p, frame := some frA, cfg := some ([3, 16, 1, 0] ++ leBytes 4 5 ++ leBytes 4 1000 ++ List.replicate 16 0) }
def rA : CanRt := { txs (txA true) with filt := filt1 }
def oCanF (f : Byte) (r : CanRt) : Obj := { oCan r with act := putAt (canPs 1) 2 [f] }
theorem wit_can_bus : objOf (sCan rA) hCan = some (oCan rA) ∧ objAt (sCan rA) 19 = some (oCan rA) ∧ canDeaf (sCan rA) (oCan rA) = false ∧ canMay (sCan rA) (oCan rA) = true
    ∧ filterHit filt1 0 frA = true ∧ filterHit filt1 0 { frA with id := 6 } = false ∧ u8 filt1 8 = 1 ∧ (canOf (oCan rA)).rx0.length < fifoSize (oCan rA) 0
    ∧ arbWinner (oCan rA) 5 = some 3 ∧ (sCan rA).objs = [oCan rA] ∧ bit (canFlags (oCan rA)) 2 = false ∧ bit (canFlags (oCan rA)) 3 = false
    ∧ bit (canFlags (oCanF 4 rA)) 2 = true ∧ frFd frA = false ∧ isbRun (sCan rA) = false ∧ (txOf (oCan rA) 3).cfg = (txA true).cfg
    ∧ u8 ([3, 16, 1, 0] ++ leBytes 4 5 ++ leBytes 4 1000 ++ List.replicate 16 0) 1 = 16 ∧ (txOf (oCan (txs (txA false))) 3).pend = false := by decide +kernel
def sWake : State := { sRings with cand := { sRings.cand with wake := [1] ++ List.replicate 27 0, lowPower := true } }
theorem wit_can_wake : canWakes sWake 1 0 frA = true ∧ sWake.cand.lowPower = true ∧ canWakes sWake 2 0 frA = false ∧ arbWinner (oCan {}) 5 ≠ some 3
    ∧ canWakes { sWake with cand := { sWake.cand with wake := [0, 0, 0, 2] ++ List.replicate 24 0 }, boot := { sWake.boot with mode := .sleeping } } 4 1 frA = true
    ∧ 255 < ({ ({} : CanRt) with tec := 256 } : CanRt).tec ∧ canEstate { ({} : CanRt) with stopped := false, tec := 128 } = 1 := by decide +kernel
def sCanAll : State := withObj (oCan rA) { sRings with objs := [] }
def txErr : CanErr := { tx := true, code := 3, buf := 3, quiet := true, more := 0 }
theorem wit_can_error : (∃ x ∈ offered (oCan rA) 5, x.2 = txErr.buf) ∧ (txOf (oCan (txs { pend := true, single := true })) 3).single = true
    ∧ canThrottled (oCan { ({} : CanRt) with lone := true }) = true ∧ readOf (sCan {}) hCan 0 = none
    ∧ ptrWrite (dBlockPtr (xRead 1 9).st.desc) [1] (sCan {}) ≠ none := by decide +kernel
theorem wit_can_any : passes 0x0D00 (dCan 0x0D00 [255, 0, 1, 0, 5]) (sCan {}) = true ∧ (txOf (oCan {}) 0).pend = false ∧ (txOf (oCan {}) 0).cfg = none
    ∧ (∀ k, k < 24 → (txOf (oCan { ({} : CanRt) with tx := List.replicate 24 { pend := true } }) k).pend = true)
    ∧ sendFrame (dCan 0x0D00 [255, 0, 1, 0, 5]) (sCan {}) = (255, { id := 5, eflags := 0, data := [0] }, false, true) := by decide +kernel

def dIsb (op : Nat) (b : List Byte) : Desc := mkPtr op 0 0 b.length b
def isbB (a : Byte) : List Byte := putAt (List.replicate 96 0) 5 [a]
def sIsb (f : Isb → Isb) : State := sService { sRings with isb := f sRings.isb }
def isbOn : List Byte := putAt (isbB 7) 0 (leBytes 4 hCan ++ [1])
theorem wit_isb_cfg : passes 0x0D08 (dIsb 0x0D08 (isbB 7)) (sIsb id) = true ∧ isbCfgBad (sIsb id) (blockOf (sIsb id) (dIsb 0x0D08 (isbB 7))) = none
    ∧ u8 (isbB 7) 4 = 0 ∧ u8 (isbB 7) 16 = 0 ∧ isbRun (sIsb id) = false ∧ (sIsb id).isb.tc = 0 ∧ (sIsb id).isb.pool = none ∧ (sIsb id).isb.pools = []
    ∧ isbRun (sIsb fun i => { i with cfg := isbOn }) = true ∧ passes 0x0D0A (mkDesc 0x0D0A 0 [2]) (sIsb id) = true
    ∧ passes 0x0D09 (dIsb 0x0D09 [1]) (sIsb id) = true ∧ passes 0x0D0D (dIsb 0x0D0D (isbB 7 |>.take 64)) sRings = true := by decide +kernel
def pg (n : Nat) : List Byte := leBytes 4 0x1F00 ++ [9, 6, 0, 0] ++ List.replicate n 1
theorem wit_isb_pgn : passes 0x0D0B (dIsb 0x0D0B (pg 4)) (sIsb id) = true ∧ servicePgns.contains 0x1F00 = false ∧ servicePgns.contains 0xEE00 = true
    ∧ u32 (pg 4) 0 = 0x1F00 ∧ u8 (pg 4) 4 = 9 ∧ passes 0x0D0B (dIsb 0x0D0B (pg 20)) (sIsb id) = true ∧ passes 0x0D0C (dIsb 0x0D0C (pg 4)) (sIsb id) = true
    ∧ (sIsb id).isb.msgs = [] := by decide +kernel
def sClaim (f : Isb → Isb) : State := withObj (oCan { stopped := false }) (sIsb fun i => f { i with cfg := putAt isbOn 20 ([1, 0, 0, 0] ++ leBytes 4 0x1F00), claim := 2, address := 7 })
def ses : TpSession := { peer := 9, pgn := 0x1F00, size := 3 }
theorem wit_isb_claim : isbPort (sClaim fun i => { i with claimDue := true }) = some (oCan { stopped := false }) ∧ isbRun (sClaim id) = true
    ∧ isbPort (sIsb id) = none ∧ isbName (sClaim id) ≤ 5 ∧ subscribed (sClaim id) 0x1F00 = true ∧ (sClaim id).isb.recv.length < 4
    ∧ sessionWith (sClaim fun i => { i with recv := [ses], send := [ses] }).isb.recv 9 0x1F00 = some ses
    ∧ isbName (sClaim fun i => { i with cfg := putAt isbOn 8 [9] }) = 9 := by decide +kernel

def sTc (n : Nat) : State := sIsb fun i => { i with tc := n, tcAddr := 38, pool := some [], meas := [{ elem := .function, pd := .sectionControl, cmd := 4, value := 200, at' := 5, dist := 0, sent := 0 }] }
theorem wit_tc : (sTc 2).isb.tc = 2 ∧ u8 (sTc 2).isb.cfg 19 = 0 ∧ (sTc 3).isb.pool ≠ none ∧ (sTc 4).objs = []
    ∧ pdValue (sTc 4) .function .sectionControl = some 0 ∧ pdValue (sTc 4) .function .setMass = none ∧ pdValue (sTc 4) (.section_ 4) .onTime = some 0
    ∧ (sTc 4).isb.meas[1]? = none ∧ (sIsb fun i => { i with tc := 4 }).isb.meas = []
    ∧ objOf (withObj (oSec 1 { disSince := some 9 }) sRings) hSec = some (oSec 1 { disSince := some 9 }) := by decide +kernel

def sFs (f : Leg → Leg) : State := { sRings with boot := { sRings.boot with mode := .fs216 }, leg := f { active := true, armed := true } }
def dProm (wd : Nat) : Desc := mkPtr 0x0E00 0 0 80 (leBytes 2 3 ++ [0, 0] ++ leBytes 4 wd ++ List.replicate 72 0)
def xProm : Deferred := { st := { desc := dProm 100, cq := 16 }, op := 0x0E00, handle := 0, due := 0 }
theorem wit_legacy : (sFs id).leg.active = true ∧ 0x09000100 % 256 ≠ legCheck 0x09000100 ∧ (0x090001F5 : Nat) % 256 = legCheck 0x090001F5
    ∧ (sFs id).boot.policyNow = 0 ∧ (sFs fun l => { l with lockEnd := some 5 }).leg.lockEnd ≠ none ∧ (sFs id).leg.pend = [] ∧ (sFs id).leg.queue = []
    ∧ (sFs id).objs = [] ∧ (sFs id).leg.want = 0 ∧ (sFs id).leg.armed = true := by decide +kernel
theorem wit_promote : passes 0x0E00 (dProm 100) (sFs id) = true ∧ u32 (blockOf (sFs id) (dProm 100)) 4 = 100 ∧ u16 (blockOf (sFs id) (dProm 100)) 2 = 0
    ∧ passes 0x0E00 (dProm 5) (sFs id) = true ∧ deferredOf (pend xProm (sFs id)) 0x0E00 0 = some xProm ∧ xProm.arg = 0
    ∧ passes 0x0E01 (mkPtr 0x0E01 0 0 32 []) (sFs id) = true := by decide +kernel
theorem wit_free_indices : popCount (u16 (blockOf (sFs id) (dProm 100)) 0) ≤ (freeIndices (sFs id)).length := by decide +kernel

def own (d : Desc) : State := execs sRings d
def sSec2 (f : Sec → Sec) (d : Desc) : State := { own d with sec := f sRings.sec }
def chB (role slot : Byte) : List Byte := [role, slot, 2, 0] ++ leBytes 2 60 ++ List.replicate 58 0
def dChal (role slot : Byte) : Desc := mkPtr 0x0F01 0 0 64 (chB role slot)
def keyed (x : Sec) : Sec := { x with slots := x.slots.map fun k => { k with key := some (List.replicate 32 1) } }
theorem wit_sec_info : passes 0x0F00 (mkPtr 0x0F00 0 0 32 []) sRings = true ∧ passes 0x0F01 (dChal 1 3) sRings = true ∧ zeroizeBars sRings = false
    ∧ slotRole 3 = 1 ∧ (keySlot sRings 3).key = none ∧ (keySlot (sSec2 keyed (dChal 1 3)) 3).key ≠ none ∧ sessionOn sRings 2 = none
    ∧ zeroizeBars { sRings with isl := { sRings.isl with zeroizePin := true } } = true ∧ blockOf sRings (dChal 1 3) = chB 1 3
    ∧ zeroBytes (chB 1 3) 3 1 = true ∧ zeroBytes (chB 1 3) 6 2 = true ∧ zeroBytes (chB 1 3) 52 12 = true ∧ (keySlot sRings 3).lockEnd = none
    ∧ passes 0x0F01 (dChal 1 3) (sSec2 keyed (dChal 1 3)) = true ∧ passes 0x0F01 (dChal 0 3) sRings = true := by decide +kernel
def ch1 : Challenge := { sq := 2, role := 1, slot := 3, ttl := 60, sid := 7, ctx := [], expires := 9 }
def dOpen : Desc := mkPtr 0x0F02 0 0 80 (leBytes 4 7 ++ List.replicate 76 0)
def opened : Session := { sq := 0, role := 3, slot := 1, sid := 7, kTag := [], kWrap := [], ttl := 60, lastTagged := 0, badRun := 3 }
theorem wit_sec_open : passes 0x0F02 dOpen (sSec2 (fun x => { keyed x with challenges := [ch1] }) dOpen) = true ∧ u32 (blockOf sRings dOpen) 0 = 7
    ∧ zeroBytes (blockOf sRings dOpen) 4 12 = true ∧ (sSec2 (fun x => { keyed x with challenges := [ch1] }) dOpen).gtc < ch1.expires
    ∧ sessionRoom sRings ch1 = true ∧ passes 0x0F03 (mkDesc 0x0F03 0 []) (own (mkDesc 0x0F03 0 [])) = true
    ∧ dTagLen { dNop with bytes := putAt dNop.bytes 3 [16] } = 16 ∧ sessionOn (sSec2 (fun x => { x with sessions := [opened] }) dNop) 0 = some opened := by decide +kernel
def dTagged : Desc := { dNop with bytes := putAt (padTo 64 (leBytes 2 0x0F03)) 3 [16] }
def sTagged : State := { sRings with sec := { sRings.sec with sessions := [opened] } }
def dPriv (op : Nat) (inl : List Byte) : Desc := mkDesc op 0 inl
theorem wit_sec_keys : passes 0x0F03 dTagged (own dTagged) = true ∧ passes 0x0F03 dTagged sTagged = true ∧ (startedOf sTagged dTagged).sid = some opened.sid
    ∧ sessionOn sTagged 0 = some opened ∧ passes 0x0F04 (mkPtr 0x0F04 0 0 32 []) sRings = true ∧ (keySlot sRings 0).key = none
    ∧ passes 0x0F05 (mkPtr 0x0F05 0 0 48 []) (own (mkPtr 0x0F05 0 0 48 [])) = true ∧ u8 (blockOf sRings (mkPtr 0x0F05 0 0 48 [])) 0 = 0
    ∧ zeroBytes (blockOf sRings (mkPtr 0x0F05 0 0 48 [])) 1 7 = true ∧ passes 0x0F06 (dPriv 0x0F06 [3]) (own (dPriv 0x0F06 [3])) = true
    ∧ passes 0x0F07 (dPriv 0x0F07 [1]) (own (dPriv 0x0F07 [1])) = true ∧ passes 0x0F07 (dPriv 0x0F07 [2]) (own (dPriv 0x0F07 [2])) = true
    ∧ passes 0x0F08 (dPriv 0x0F08 [1]) (own (dPriv 0x0F08 [1])) = true ∧ sRings.sec.running = false ∧ sRings.boot.mode ≠ .bareKing
    ∧ passes 0x0F09 (mkPtr 0x0F09 0 64 32 []) (own (mkPtr 0x0F09 0 64 32 [])) = true ∧ 64 + 32 ≤ fwSize ∧ passes 0x0F0A (dPriv 0x0F0A []) (own (dPriv 0x0F0A [])) = true
    ∧ passes 0x0F0B (dPriv 0x0F0B [1]) (own (dPriv 0x0F0B [1])) = true ∧ sRings.sec.debugScopes = [] ∧ sRings.sec.updating = none
    ∧ passes 0x0F09 (mkPtr 0x0F09 0 (fwSize - 8) 32 []) (own (mkPtr 0x0F09 0 (fwSize - 8) 32 [])) = true := by decide +kernel

def sSes (x : Session) : State := sSec2 (fun y => { y with sessions := [x], challenges := [ch1] }) dNop
theorem wit_sec_timers : (sSes opened).sec.challenges.find? (fun c => c.sq == 2) = some ch1 ∧ sessionOn (sSes opened) 0 = some opened ∧ opened.loaded = false
    ∧ sessionOn (sSes opened) 5 = none ∧ (sSes opened).sec.challenges.find? (fun c => c.sq == 9) = none ∧ 3 < sRings.sec.slots.length
    ∧ (keySlot sRings 3).fails < 4 ∧ (keySlot (sSec2 (fun x => { x with slots := x.slots.map fun k => { k with fails := 4, lockEnd := some 5 } }) dNop) 3).lockEnd = some 5
    ∧ passes 0x0F0C (dPriv 0x0F0C []) (own (dPriv 0x0F0C [])) = true ∧ sRings.sec.zeroizing = none := by decide +kernel

def sIsl (f : Isl → Isl) : State := { sRings with isl := f sRings.isl }
def dWdt (tok : Byte) : Desc := mkDesc 0x0100 0 [tok]
def sWdt (d : Desc) : State := { own d with isl := { sRings.isl with wdtEn := true, wdtRunning := true } }
theorem wit_watchdog : sRings.isl.locked = false ∧ hostBarred sRings = false ∧ sRings.isl.wdtEn = false ∧ sRings.boot.mode = .native
    ∧ State.reset.boot.mode ≠ .native ∧ passes 0x0100 (dWdt 0x5A) (sWdt (dWdt 0x5A)) = true ∧ u8 (dWdt 0x5A).bytes 16 = (sWdt (dWdt 0x5A)).isl.wdtToken
    ∧ wdtWindowTicks (sWdt (dWdt 0x5A)) = 0 ∧ passes 0x0100 (dWdt 0x5B) (sWdt (dWdt 0x5B)) = true ∧ (sWdt (dWdt 0x5B)).isl.wdtBad = 0
    ∧ (sWdt (dWdt 0x5B)).isl.wdtPausedAt = none ∧ passes 0x0100 (dWdt 0x5A) { own (dWdt 0x5A) with boot := { sRings.boot with mode := .fs216 } } = true := by decide +kernel
def estopped : Isl := { sRings.isl with estopPin := true, estopLatch := true, conditions := [0x0151], halted := [3], holdActive := true, holdEnds := some 5, estopHighAt := some 7 }
def dClr : Desc := mkDesc 0x0101 0 []
def xClr : Deferred := { st := { desc := dClr, role := 3, cq := 16 }, op := 0x0101, handle := 0, due := 48000 }
theorem wit_fault_clear : (sIsl fun _ => estopped).isl.estopPin = true ∧ sRings.isl.estopPin = false ∧ sRings.isl.estopHighAt = none ∧ sRings.sec.debugScopes = []
    ∧ (sSec2 (fun x => { x with debugScopes := [2] }) dNop).isl.halted = [] ∧ sRings.isl.wdtDebugPause = false ∧ estopped.halted = [3]
    ∧ passes 0x0101 dClr (own dClr) = true ∧ persisting (own dClr) = [] ∧ persisting (sIsl fun _ => estopped) = [0x0151]
    ∧ passes 0x0101 dClr { own dClr with isl := estopped } = true ∧ deferredOf (pend xClr sRings) 0x0101 0 = some xClr ∧ deferredOf sRings 0x0101 0 = none
    ∧ passes 0x0102 (mkDesc 0x0102 0 [0xA5]) (own (mkDesc 0x0102 0 [0xA5])) = true ∧ passes 0x0102 (mkDesc 0x0102 0 [0xA4]) (own (mkDesc 0x0102 0 [0xA4])) = true
    ∧ passes 0x0103 (mkPtr 0x0103 0 0xFFFFFFFF 64 []) sRings = true ∧ sRings.isl.log = [] ∧ sRings.isl.logIndex = 0 ∧ [3, 4].erase 3 ≠ [] := by decide +kernel

def sPwr (f : Pwr → Pwr) : State := { sRings with pwr := f sRings.pwr }
theorem wit_supply : sRings.pwr.bow = false ∧ (sPwr fun p => { p with bow := true }).pwr.bow = true ∧ sRings.pwr.supplyLow = false
    ∧ sRings.pwr.vbatUvlo.getD 3 false = false ∧ sRings.pwr.vbatLow.getD 0 false = false ∧ sRings.pwr.vbatHigh.getD 1 false = false
    ∧ (sPwr fun p => { p with viofOk := true }).isl.estopPin = false ∧ linkSpi sRings = false ∧ sRings.boot.mode ≠ .fs216
    ∧ linkSpi { sRings with hif := { sRings.hif with link := 3 } } = true ∧ banksOff sRings = false
    ∧ (sPwr fun p => { p with vbatUvlo := [false, true, false, false], vbatLow := [true, false, false, false], vbatHigh := [true, false, false, false] }).pwr.vbatUvlo.getD 1 false = true := by decide +kernel

def dSleep : Desc := mkDesc 0x0110 0 []
def dPark : Desc := mkDesc 0x0111 0 []
def sEnter (d : Desc) (f : Pwr → Pwr) : State := { own d with pwr := f sRings.pwr }
def asleepAt (p : Pwr) : Pwr := { p with sleepAt := some 48000, linesOff := true }
def parkedAt (p : Pwr) : Pwr := { p with parkAt := some 48000, linesOff := true }
theorem wit_sleep : passes 0x0110 dSleep (own dSleep) = true ∧ passes 0x0111 dPark (own dPark) = true ∧ sleepBad (own dSleep) = none
    ∧ sleepBad (sEnter dSleep fun p => { p with viofOk := true, wakeMask := 1 }) = some 0x0111 ∧ memberAwake sLead = true ∧ gpioWakes sLead = false
    ∧ State.reset.boot.mode ≠ .native ∧ sRings.hif.deferred = [] ∧ (sEnter dSleep fun p => { p with sleepAt := some 48000 }).pwr.linesOff = false
    ∧ startedOp (canHalt (canSleep (mramFlush (toInstant 48000 (sEnter dSleep asleepAt))))) 0x0110 = some dSleep
    ∧ sRings.pwr.parkAt = none ∧ sRings.pwr.sleepAt = none ∧ sRings.pwr.wakeAt = none
    ∧ (complete dSleep { gtc := some 48000 } (own dSleep)).osl.role ≠ 2 := by decide +kernel
def dWake (m f : Byte) : Desc := mkDesc 0x0112 0 [m, 0, f]
theorem wit_wake : startedOp (mramFlush (sEnter dPark parkedAt)) 0x0111 = some dPark ∧ passes 0x0112 (dWake 3 1) (own (dWake 3 1)) = true
    ∧ passes 0x0112 (dWake 3 4) (own (dWake 3 4)) = true ∧ u8 (dWake 3 4).bytes 18 = 4 ∧ wakeArmed sRings 7 = false
    ∧ claimsBad (claimsHeld { own (dWake 3 1) with pwr := { sRings.pwr with wakeMask := 0 } } 65536) [(0, claimShared), (1, claimShared)] = false
    ∧ wakeArmed { sRings with boot := { sRings.boot with mode := .sleeping }, pwr := { sRings.pwr with wakeFlags := 1 } } 7 = true
    ∧ wakeArmed { sRings with boot := { sRings.boot with mode := .parked }, pwr := { sRings.pwr with viofOk := true, wakeMask := 1 } } 5 = true
    ∧ wakeArmed (sEnter dSleep fun p => { p with viofOk := true, wakeMask := 1 }) 5 = true
    ∧ (sEnter dSleep fun p => { p with wakeAt := some 5 }).pwr.wakeAt = some 5 := by decide +kernel

def sBoot (st : Nat) : State := { State.reset with boot := { State.reset.boot with released := true, stage := st } }
theorem wit_boot : State.reset.boot.mode = .booting ∧ State.reset.boot.released = false ∧ (sBoot 1).boot.mode = .booting ∧ slotBad (sBoot 2) false = none
    ∧ slotBad { sBoot 2 with sec := { State.reset.sec with candidate := some true } } true = some 0x02 ∧ State.reset.isl.softResetAt = none
    ∧ slotBad { sBoot 2 with sec := { State.reset.sec with fwA := State.reset.sec.fwB } } false = some 0x02 ∧ strapMode (sBoot 5) = .native
    ∧ awaitsConfirm { sNative with boot := { sNative.boot with stage := 6 } } = true ∧ awaitsConfirm sNative = false := by decide +kernel
theorem wit_boot_opcodes : passes 0x0113 (mkDesc 0x0113 0 [2]) (own (mkDesc 0x0113 0 [2])) = true ∧ passes 0x0113 (mkDesc 0x0113 0 [3]) (own (mkDesc 0x0113 0 [3])) = true
    ∧ passes 0x0114 (mkDesc 0x0114 0 []) (own (mkDesc 0x0114 0 [])) = true ∧ passes 0x0115 (mkPtr 0x0115 0 0 64 []) sRings = true
    ∧ passes 0x0116 (mkDesc 0x0116 0 []) (own (mkDesc 0x0116 0 [])) = true
    ∧ passes 0x0116 (mkDesc 0x0116 0 []) { own (mkDesc 0x0116 0 []) with boot := { sRings.boot with mode := .bareKing } } = true := by decide +kernel

theorem wit_invariant : MemOk sRings ∧ ObjsOk sRings ∧ ObjsOk sObjs := by decide +kernel
theorem wit_invariant_step : ∃ t, step sRings = .next t := ⟨_, rfl⟩

end Sys2Proof.Tests
end

section
/-! PROOFS. Architecture (01): the clock, the cluster's bring-up and its faults, groups and references, boundaries and slots. -/

namespace Sys2Proof.Machine

/-! ## Shared laws: rounding, events, bytes -/

/-- An open rounding is less than one unit off the exact quotient. -/
theorem roundOpen_natAbs_lt (tag : Nat) (n : Int) {d : Nat} (hd : 0 < d) : (roundOpen tag n d * d - n).natAbs < d := by
  have hdiv := Int.mul_ediv_add_emod n d
  have hlo := Int.emod_nonneg n (b := (d : Int)) (by omega)
  have hhi := Int.emod_lt_of_pos n (b := (d : Int)) (by omega)
  unfold roundOpen
  split
  · rw [Int.mul_comm]; omega
  · split
    · rw [Int.add_mul, Int.mul_comm]; omega
    · rw [Int.add_zero, Int.mul_comm]; omega

/-- Events of class 0 outside the island's own codes are not logged. -/
theorem logged_class0 (s : State) {code : Nat} (h : islandEvent code = false) : logged s code 0 = false := by
  simp [logged, h]

@[simp] theorem sendVector_evSeq (v : Nat) (s : State) : (sendVector v s).hif.evSeq = s.hif.evSeq := by
  unfold sendVector; split
  · rfl
  · split
    · rfl
    · split <;> rfl

@[simp] theorem setRing_evSeq (r : Nat) (f : Ring → Ring) (s : State) : (setRing r f s).hif.evSeq = s.hif.evSeq := rfl

@[simp] theorem ringMemWrite_hif (g : Ring) (off : Nat) (bs : List Byte) (s : State) : (ringMemWrite g off bs s).hif = s.hif := by
  unfold ringMemWrite; split <;> rfl

@[simp] theorem ringProduce_evSeq (r : Nat) (e : List Byte) (ev : Option Ev) (now : Bool) (s : State) :
    (ringProduce r e ev now s).hif.evSeq = s.hif.evSeq := by
  unfold ringProduce; dsimp only; split <;> simp [ringSignal]

@[simp] theorem holdEvent_evSeq (e : Ev) (s : State) : (holdEvent e s).hif.evSeq = s.hif.evSeq := by
  unfold holdEvent; split <;> rfl

@[simp] theorem deliver_evSeq (e : Ev) (s : State) : (deliver e s).hif.evSeq = s.hif.evSeq := by
  unfold deliver; split
  · simp
  · split <;> simp

@[simp] theorem trcEvent_hif (code : Nat) (s : State) : (trcEvent code s).hif = s.hif := by
  unfold trcEvent; split <;> rfl

/-- An event takes one sequence number (R43). -/
theorem raisePlain_evSeq (t code cls h ep : Nat) (data : List Byte) (s : State) :
    (raisePlain t code cls h ep data s).hif.evSeq = wrapInc 16 s.hif.evSeq := by
  simp [raisePlain]

/-- An event of class 0 that the log does not receive takes one sequence number. -/
theorem raise0_evSeq {code : Nat} (h : Nat) (data : List Byte) (s : State) (hc : islandEvent code = false) :
    (raise0 code h data s).hif.evSeq = wrapInc 16 s.hif.evSeq := by
  simp [raise0, raiseE, raiseAt, logged_class0 s hc, raisePlain_evSeq]

@[simp] theorem raise0_clk (code h : Nat) (data : List Byte) (s : State) : (raise0 code h data s).clk = s.clk := by
  rw [(touches_raise0 code h data s).frame]

/-! ## Reads of the GTC (O3) -/

theorem exec_gtcLoRead (s : State) : exec .gtcLoRead s = execGtcLoRead s := rfl
theorem exec_ppsCapLoRead (s : State) : exec .ppsCapLoRead s = execPpsCapLoRead s := rfl

/-- The registers that a read latches. -/
theorem regValue_gtcHi (s : State) : regValue 0x400C s = s.clk.gtcHi := by simp [regValue, clkRead]
theorem regValue_ppsCapHi (s : State) : regValue 0x4020 s = s.clk.ppsCapHi := by simp [regValue, clkRead]

/-- The GTC as seen is at most the GTC, less than one 96-tick step behind, and the GTC itself outside SLEEP (R499). -/
theorem gtcSeen_awake {s : State} (h : s.boot.mode ≠ .sleeping) : gtcSeen s = s.gtc := if_neg h
theorem gtcSeen_le (s : State) : gtcSeen s ≤ s.gtc := by unfold gtcSeen; split <;> omega
theorem lt_gtcSeen_add (s : State) : s.gtc < gtcSeen s + 96 := by unfold gtcSeen; split <;> omega

/-- Bytes 8 to 15 of an event are its instant (R43). -/
theorem slice_evBytes_gtc (e : Ev) : slice (evBytes e) 8 8 = leBytes 8 e.gtc := by
  simp [slice, evBytes, leBytes]

/-- Bytes 16 to 23 of a completion are its instant (R42). -/
theorem slice_completionBytes_gtc (d : Desc) (r : Reply) (g : Nat) :
    slice (completionBytes d r g) 16 8 = leBytes 8 (r.gtc.getD g) := by
  simp [slice, completionBytes, leBytes]

/-- Settles O3: each read answers the latched state, and the GTC's place in events and completions is a fact of their bytes. -/
theorem gtcReadsAreCoherent : Obligations.GtcReadsAreCoherent := by
  refine ⟨fun s => ?_, fun s => ?_, fun s => ⟨regValue_gtcHi s, regValue_ppsCapHi s⟩, slice_evBytes_gtc, slice_completionBytes_gtc⟩
  · exact ⟨gtcSeen s, _, exec_gtcLoRead s, gtcSeen_awake, gtcSeen_le s, lt_gtcSeen_add s, rfl, regValue_gtcHi _⟩
  · exact ⟨_, exec_ppsCapLoRead s, rfl, regValue_ppsCapHi _⟩

/-! ## Discipline (O4, O5) -/

theorem exec_gtcDiscDisable (s : State) : exec .gtcDiscDisable s = execGtcDiscDisable s := rfl
theorem exec_gtcDiscEnable (s : State) : exec .gtcDiscEnable s = execGtcDiscEnable s := rfl
theorem exec_gtcFreqAdjWrite (v : Int) (s : State) : exec (.gtcFreqAdjWrite v) s = execGtcFreqAdjWrite v s := rfl
theorem exec_ppsHoldoverTimeout (s : State) : exec .ppsHoldoverTimeout s = execPpsHoldoverTimeout s := rfl
theorem exec_ppsEdge (t : Nat) (f : Bool) (s : State) : exec (.ppsEdge t f) s = execPpsEdge t f s := rfl

/-- A word written by the host is clamped to the range of R17. -/
theorem clampInt_freqLimit (v : Int) :
    -429497 ≤ clampInt (-freqLimit) freqLimit v ∧ clampInt (-freqLimit) freqLimit v ≤ 429497
      ∧ (-429497 ≤ v → v ≤ 429497 → clampInt (-freqLimit) freqLimit v = v)
      ∧ (429497 < v → clampInt (-freqLimit) freqLimit v = 429497)
      ∧ (v < -429497 → clampInt (-freqLimit) freqLimit v = -429497) := by
  unfold clampInt freqLimit
  split
  · omega
  · split <;> omega

/-- On a device that is no member the word in force at the boundary is that of the broadcast sent, else the waiting one. -/
theorem freqAdjApply_freqAdj {s : State} (h : s.osl.role ≠ 2) :
    (freqAdjApply s).clk.freqAdj = s.osl.freqSent.getD (s.clk.freqNext.getD s.clk.freqAdj) := by
  simp [freqAdjApply, h]

/-- Settles O4, write by write. -/
theorem disciplineControl : Obligations.DisciplineControl := by
  refine ⟨exec_gtcDiscDisable, exec_gtcDiscEnable, fun s v hman hen hrole => ?_, fun s v h => ?_, fun s h => ?_, fun s ha hl => ?_⟩
  · obtain ⟨hlo, hhi, hin, hup, hdn⟩ := clampInt_freqLimit v
    refine ⟨_, _, ?_, rfl, hlo, hhi, hin, hup, hdn, freqAdjApply_freqAdj hrole⟩
    simp [exec_gtcFreqAdjWrite, execGtcFreqAdjWrite, hman, hen, hrole]
  · rw [exec_gtcFreqAdjWrite, execGtcFreqAdjWrite, if_neg]
    rcases h with h | h | h <;> simp [h]
  · refine ⟨_, rfl, by simp, by simp, ?_⟩
    rw [exec_ppsHoldoverTimeout, execPpsHoldoverTimeout, if_pos h]
    rfl
  · rw [exec_ppsHoldoverTimeout, execPpsHoldoverTimeout, if_neg (by simp [ha, hl])]

@[simp] theorem kinPpsEdge_clk (t : Nat) (f : Bool) (s : State) : (kinPpsEdge t f s).clk = s.clk := by
  unfold kinPpsEdge; split <;> rfl

@[simp] theorem kinPpsEdge_hif (t : Nat) (f : Bool) (s : State) : (kinPpsEdge t f s).hif = s.hif := by
  unfold kinPpsEdge; split <;> rfl

/-- An edge that the clock block does not take leaves it. -/
theorem clkPpsEdge_ignored {s : State} {f : Bool} (t : Nat) (h : s.clk.discEn = false ∨ f ≠ s.clk.ppsFalling ∨ s.osl.role = 2) :
    clkPpsEdge t f s = s := by
  unfold clkPpsEdge
  rw [if_neg]
  rcases h with h | h | h <;> simp [h]

/-- An edge of the selected polarity with DISC_EN = 1 on a device that is no member runs the procedure. -/
theorem clkPpsEdge_taken {s : State} {f : Bool} (t : Nat) (hen : s.clk.discEn = true) (hrole : s.osl.role ≠ 2) (hf : f = s.clk.ppsFalling) :
    clkPpsEdge t f s = ppsDiscipline t s := by
  unfold clkPpsEdge
  rw [if_pos (by simp [hen, hrole, hf])]

theorem ppsDiscipline_first {s : State} (t : Nat) (h : s.clk.ppsLast = none) :
    ppsDiscipline t s = { s with clk := { s.clk with ppsLast := some t, ppsFrom := t, dstate := .acquiring, good := 0 } } := by
  simp only [ppsDiscipline, h]

theorem ppsDiscipline_rejected {s : State} {t last : Nat} (h : s.clk.ppsLast = some last)
    (hfar : 48000 < ((t : Int) - last - 480000000).natAbs) :
    ppsDiscipline t s = raise0 evPpsRejected 0 []
      { s with clk := { s.clk with ppsRejected := satInc 16 s.clk.ppsRejected, ppsLast := some t, ppsRej := true } } := by
  simp only [ppsDiscipline, h]
  exact if_pos hfar

/-- `good` after an accepted edge (R20). -/
def goodAfter (c : Clk) (err : Int) : Nat := if err.natAbs ≤ 48 then c.good + 1 else 0

/-- The clock block after an accepted edge (R20). -/
def clkAccepted (t last : Nat) (c : Clk) : Clk :=
  let err : Int := (t : Int) - last - 480000000
  { c with
    ppsAccepted := satInc 16 c.ppsAccepted, ppsLast := some t, ppsFrom := t, ppsCap := t
    freqNext := some (discAdj c err), good := goodAfter c err, dstate := discState c.dstate (goodAfter c err) }

theorem ppsDiscipline_accepted {s : State} {t last : Nat} (h : s.clk.ppsLast = some last)
    (hnear : ((t : Int) - last - 480000000).natAbs ≤ 48000) :
    ppsDiscipline t s = (if s.clk.dstate = .acquiring ∧ 4 ≤ goodAfter s.clk ((t : Int) - last - 480000000)
      then raise0 evPpsLocked 0 [] { s with clk := clkAccepted t last s.clk } else { s with clk := clkAccepted t last s.clk }) := by
  simp only [ppsDiscipline, h]
  exact if_neg (Nat.not_lt.mpr hnear)

theorem discState_acquiring (g : Nat) : discState .acquiring g = if 4 ≤ g then .locked else .acquiring := by
  unfold discState
  by_cases h : 4 ≤ g
  · have : g ≠ 0 := by omega
    simp [h, this]
  · simp [h]

theorem discState_locked (g : Nat) : discState .locked g = if g = 0 then .acquiring else .locked := by
  unfold discState
  by_cases h : g = 0 <;> simp [h]

theorem discState_holdover (g : Nat) : discState .holdover g = .acquiring := by simp [discState]

/-- What an accepted edge leaves in the clock block, and the state it moves to (R20). -/
theorem of_clkAccepted {u s : State} {t last g : Nat} (hg : goodAfter s.clk ((t : Int) - last - 480000000) = g)
    (hu : u.clk = clkAccepted t last s.clk) :
    u.clk = { s.clk with
        ppsLast := some t, ppsFrom := t, ppsCap := t, ppsAccepted := satInc 16 s.clk.ppsAccepted
        freqNext := some (discAdj s.clk ((t : Int) - last - 480000000)), good := g, dstate := u.clk.dstate }
      ∧ (s.clk.dstate = .acquiring → u.clk.dstate = if 4 ≤ g then .locked else .acquiring)
      ∧ (s.clk.dstate = .locked → u.clk.dstate = if g = 0 then .acquiring else .locked)
      ∧ (s.clk.dstate = .holdover → u.clk.dstate = .acquiring) := by
  rw [hu, clkAccepted, hg]
  exact ⟨rfl, fun h => by rw [h]; exact discState_acquiring g, fun h => by rw [h]; exact discState_locked g,
    fun h => by rw [h]; exact discState_holdover g⟩

/-- Settles O5: the edge is ignored, the first, rejected or accepted; the instant and the kinematics unit leave the clock
block alone. -/
theorem ppsEdgeDisciplines : Obligations.PpsEdgeDisciplines := by
  refine ⟨fun s t f h => ⟨_, exec_ppsEdge t f s, ?_⟩, fun s t f hen hrole hf hlast => ⟨_, exec_ppsEdge t f s, ?_⟩,
    fun s t f last hen hrole hf hlast hfar => ⟨_, exec_ppsEdge t f s, ?_⟩, fun s t f last g hen hrole hf hlast hnear hg => ?_⟩
  · rw [clkPpsEdge_ignored t (by simpa using h)]
    simp
  · rw [clkPpsEdge_taken t (by simpa) (by simpa) (by simpa), ppsDiscipline_first t (by simpa)]
    simp
  · rw [clkPpsEdge_taken t (by simpa) (by simpa) (by simpa), ppsDiscipline_rejected (by simpa) hfar]
    simp [raise0_evSeq 0 [] _ (show islandEvent evPpsRejected = false by decide)]
  · refine ⟨_, discAdj s.clk ((t : Int) - last - 480000000), _, exec_ppsEdge t f s, rfl, ?_, ?_⟩
    · have hd : 0 < secTicks * 2 ^ discK s.clk := Nat.mul_pos (by decide) (by positivity)
      have hx := roundOpen_natAbs_lt 1 (((t : Int) - last - 480000000) * 2 ^ 32) hd
      push_cast [secTicks, discK] at hx ⊢
      exact hx
    · rw [clkPpsEdge_taken t (by simpa) (by simpa) (by simpa), ppsDiscipline_accepted (by simpa) hnear]
      have hga : goodAfter s.clk ((t : Int) - last - 480000000) = g := hg.symm
      simp only [toInstant_clk, hga]
      split
      · obtain ⟨hclk, hacq, hlock, hhold⟩ := of_clkAccepted hga
          (u := kinPpsEdge t f (raise0 evPpsLocked 0 [] { toInstant t s with clk := clkAccepted t last s.clk })) (by simp)
        refine ⟨hclk, hacq, hlock, hhold, ?_⟩
        simp [raise0_evSeq 0 [] _ (show islandEvent evPpsLocked = false by decide)]
      · obtain ⟨hclk, hacq, hlock, hhold⟩ := of_clkAccepted hga
          (u := kinPpsEdge t f { toInstant t s with clk := clkAccepted t last s.clk }) (by simp)
        exact ⟨hclk, hacq, hlock, hhold, by simp⟩

end Sys2Proof.Machine
end

section
/-! PROOFS. Architecture (01): the Osund link: roles, bring-up, broadcasts and the faults of the cluster. -/

namespace Sys2Proof.Machine

theorem exec_oslRoleWrite (role : Nat) (s : State) : exec (.oslRoleWrite role) s = execOslRoleWrite role s := rfl
theorem exec_oslSyncOutWrite (on : Bool) (s : State) : exec (.oslSyncOutWrite on) s = execOslSyncOutWrite on s := rfl
theorem exec_memberPllLock (s : State) : exec .memberPllLock s = execMemberPllLock s := rfl

/-! ## OSL_CTL (O6) -/

theorem execOslRoleWrite_locked {s : State} (role : Nat) (h : s.isl.locked = true) : execOslRoleWrite role s = .next s := by
  simp [execOslRoleWrite, h]

theorem execOslRoleWrite_refused {s : State} {role : Nat} (hl : s.isl.locked = false) (h : channelEnabled s = true ∨ 3 ≤ role) :
    execOslRoleWrite role s = .next (oslRefuse s) := by
  simp [execOslRoleWrite, hl, h]

theorem execOslRoleWrite_taken {s : State} {role : Nat} (hl : s.isl.locked = false) (hc : channelEnabled s = false) (hr : role < 3) :
    execOslRoleWrite role s = .next (takeRole role s) := by
  have : ¬ 3 ≤ role := by omega
  simp [execOslRoleWrite, hl, hc, this]

theorem takeRole_same (s : State) : takeRole s.osl.role s = s := if_pos rfl

/-- Settles O6, write by write; `takeRole` says what a new role changes. -/
theorem clusterRoleAndSyncOut : Obligations.ClusterRoleAndSyncOut := by
  refine ⟨fun s role hl hc hr hne => ?_, fun s hc hr => ?_, fun s on hl hc => ?_, fun s role on hl h => ⟨?_, fun hc => ?_⟩,
    fun s role on hl => ⟨execOslRoleWrite_locked role hl, ?_⟩, fun s h => ?_, fun s h => ?_⟩
  · refine ⟨takeRole role s, (exec_oslRoleWrite role s).trans (execOslRoleWrite_taken hl hc hr), ?_⟩
    rw [takeRole, if_neg hne]
    exact ⟨rfl, rfl, rfl, fun h => by simp [h], fun h => by simp [h], fun h => by simp [h], rfl, rfl, rfl, rfl⟩
  · rw [exec_oslRoleWrite]
    cases hl : s.isl.locked with
    | true => exact execOslRoleWrite_locked _ hl
    | false => rw [execOslRoleWrite_taken hl hc hr, takeRole_same]
  · simp [exec_oslSyncOutWrite, execOslSyncOutWrite, hl, hc]
  · exact execOslRoleWrite_refused hl h
  · simp [exec_oslSyncOutWrite, execOslSyncOutWrite, hl, hc, oslRefuse]
  · simp [exec_oslSyncOutWrite, execOslSyncOutWrite, hl]
  · rw [exec_memberPllLock, execMemberPllLock, if_pos h]
  · rw [exec_memberPllLock, execMemberPllLock, if_neg h]

/-! ## Bring-up (O7) -/

theorem exec_coarseLoad (b : Nat) (s : State) : exec (.coarseLoad b) s = execCoarseLoad b s := rfl
theorem exec_skewExchange (t1 t2 t3 t4 up : Int) (s : State) : exec (.skewExchange t1 t2 t3 t4 up) s = execSkewExchange t1 t2 t3 t4 up s := rfl
theorem exec_oslCalDone (s : State) : exec .oslCalDone s = execOslCalDone s := rfl
theorem exec_syncMarkiArrival (t : Nat) (s : State) : exec (.syncMarkiArrival t) s = execSyncMarkiArrival t s := rfl

/-- A boundary starts its own frame. -/
theorem frameStart_of_boundary {b : Nat} (h : b % 48000 = 0) : frameStart b = b := by unfold frameStart frameTicks; omega

/-- Twice the hop delay is within one of the exchange's difference (R28). -/
theorem hopDelayOf_half (t1 t2 t3 t4 : Int) : (2 * hopDelayOf t1 t2 t3 t4 - ((t4 - t1) - (t3 - t2))).natAbs ≤ 1 := by
  have h := roundOpen_natAbs_lt 2 ((t4 - t1) - (t3 - t2)) (d := 2) (by decide)
  unfold hopDelayOf
  omega

/-- The offset to the lead that an exchange measures (R28). -/
def skewOffset (t1 t2 t3 t4 up : Int) : Int := t2 - t1 - hopDelayOf t1 t2 t3 t4 + up

/-- The link block after an exchange. -/
def oslExchanged (off delay : Int) (o : Osl) : Osl :=
  { o with
    skew := off, hopDelay := delay, exchanges := o.exchanges + 1, offsetSum := o.offsetSum + off
    phaseLeft := if o.calDone then -off else o.phaseLeft }

/-- What an exchange does on a member after its coarse load. -/
theorem execSkewExchange_member {s : State} (t1 t2 t3 t4 up : Int) (hr : s.osl.role = 2) (hc : s.osl.coarse = true) {u : State}
    (hu : u = { s with osl := oslExchanged (skewOffset t1 t2 t3 t4 up) (hopDelayOf t1 t2 t3 t4) s.osl }) :
    execSkewExchange t1 t2 t3 t4 up s = .next (
      if s.osl.calDone = false then u
      else if 384 < (skewOffset t1 t2 t3 t4 up).natAbs then
        class2 0x014A 0 (iBytes 4 (skewOffset t1 t2 t3 t4 up)) { u with osl := { u.osl with skewFault := true } }
      else conditionEnded 0x014A u) := by
  have h : execSkewExchange t1 t2 t3 t4 up s = .next (
      if s.osl.calDone = true then
        if 384 < (skewOffset t1 t2 t3 t4 up).natAbs then
          class2 0x014A 0 (iBytes 4 (skewOffset t1 t2 t3 t4 up)) { u with osl := { u.osl with skewFault := true } }
        else conditionEnded 0x014A u
      else u) := by
    subst hu
    exact congrArg Host.Outcome.next (if_neg (by simp [hr, hc]))
  rw [h]
  cases s.osl.calDone <;> rfl

theorem execSkewExchange_other {s : State} (t1 t2 t3 t4 up : Int) (h : s.osl.role ≠ 2 ∨ s.osl.coarse = false) :
    execSkewExchange t1 t2 t3 t4 up s = .next s := by
  exact congrArg Host.Outcome.next (if_pos (by simpa using h))

/-- The mark re-driven by a member (R25). -/
theorem markOut_member {s : State} (t : Nat) (h : s.osl.role = 2) :
    markOut t s = { s with osl := { s.osl with markoAt := if s.osl.syncOutEn then some t else s.osl.markoAt } } := by
  unfold markOut
  rw [h]
  cases hs : s.osl.syncOutEn <;> simp

/-- Settles O7, happening by happening. -/
theorem memberBringUp : Obligations.MemberBringUp := by
  refine ⟨fun s b hr he hd hb => ?_, fun s b h => ?_, fun s t1 t2 t3 t4 up hr hc => ?_, fun s hr hc hd hx => ?_,
    fun s t1 t2 t3 t4 up h => execSkewExchange_other t1 t2 t3 t4 up h, fun s h => ?_, fun s t e hr hd he hfar => ?_,
    fun s t e hr hd he hnear => ?_, fun s t hr hd => ?_, fun s t hr => ?_⟩
  · rw [exec_coarseLoad, execCoarseLoad, if_pos (by simp [hr, he, hd]), Nat.mod_eq_of_lt hb]
    exact ⟨_, rfl, rfl, rfl, rfl, rfl, frameStart_of_boundary, rfl⟩
  · rw [exec_coarseLoad, execCoarseLoad, if_neg]
    rcases h with h | h | h <;> simp [h]
  · refine ⟨skewOffset t1 t2 t3 t4 up, _, ?_, ?_, ?_, (exec_skewExchange t1 t2 t3 t4 up s).trans (execSkewExchange_member t1 t2 t3 t4 up hr hc rfl)⟩
    · have h := hopDelayOf_half t1 t2 t3 t4
      unfold skewOffset
      omega
    · have h : t2 - t1 + up - skewOffset t1 t2 t3 t4 up = hopDelayOf t1 t2 t3 t4 := by unfold skewOffset; omega
      rw [h]; rfl
    · rfl
  · have hround := roundOpen_natAbs_lt 3 s.osl.offsetSum (d := 16 * s.osl.exchanges) (by omega)
    rw [exec_oslCalDone, execOslCalDone, if_pos (by simp [hr, hc, hd, hx])]
    refine ⟨roundOpen 3 s.osl.offsetSum (16 * s.osl.exchanges), _, _, ?_, ?_, ?_, ?_, rfl⟩
    · push_cast at hround ⊢
      rwa [mul_comm]
    all_goals rfl
  · rw [exec_oslCalDone, execOslCalDone, if_neg]
    rcases h with h | h | h | h
    · simp [h]
    · simp [h]
    · simp [h]
    · exact fun k => absurd k.2.2.2 (by omega)
  · rw [exec_syncMarkiArrival, execSyncMarkiArrival, if_neg (by simp [hr]), markOut_member t (by simpa)]
    simp [hd, he, hfar]
  · rw [exec_syncMarkiArrival, execSyncMarkiArrival, if_neg (by simp [hr]), markOut_member t (by simpa)]
    simp [hd, he, Nat.not_lt.mpr hnear, conditionEnded]
  · rw [exec_syncMarkiArrival, execSyncMarkiArrival, if_neg (by simp [hr]), markOut_member t (by simpa)]
    simp [hd, frameTicks]
  · rw [exec_syncMarkiArrival, execSyncMarkiArrival, if_pos hr]

/-! ## Faults of the cluster (O8) -/

theorem exec_oslMarkSlip (s : State) : exec .oslMarkSlip s = execOslMarkSlip s := rfl
theorem exec_syncClkiLoss (s : State) : exec .syncClkiLoss s = execSyncClkiLoss s := rfl
theorem exec_upstreamSilence (s : State) : exec .upstreamSilence s = execUpstreamSilence s := rfl
theorem exec_oslMemberLost (pos : Nat) (s : State) : exec (.oslMemberLost pos) s = execOslMemberLost pos s := rfl
theorem exec_oslLaneTrained (port : Nat) (s : State) : exec (.oslLaneTrained port) s = execOslLaneTrained port s := rfl

/-- The positions that the lead takes as absent, with one more. -/
def withAbsent (pos : Nat) (l : List Nat) : List Nat := if l.contains pos then l else l ++ [pos]

theorem mem_withAbsent (pos : Nat) (l : List Nat) : pos ∈ withAbsent pos l := by
  unfold withAbsent
  split
  · next h => exact List.contains_iff_mem.mp h
  · simp

theorem subset_withAbsent (pos : Nat) (l : List Nat) : ∀ p ∈ l, p ∈ withAbsent pos l := by
  intro p hp
  unfold withAbsent
  split
  · exact hp
  · exact List.mem_append_left _ hp

/-- Settles O8: each loss in its state is the class 2 sequence with its code, and in every other state nothing. -/
theorem clusterFaultsAreDeviceFaults : Obligations.ClusterFaultsAreDeviceFaults := by
  refine ⟨fun s hd hrun => ?_, fun s t1 t2 t3 t4 up hr hc hd hoff => ?_, fun s h => ?_, fun s hr => ?_, fun s hr => ⟨?_, ?_⟩,
    fun s hr => ?_, fun s pos hr h1 h7 => ?_, fun s pos h => ?_, fun s port => ?_⟩
  · rw [exec_oslMarkSlip, execOslMarkSlip, if_pos ⟨hd, hrun⟩]; rfl
  · refine ⟨{ s with osl := { oslExchanged (skewOffset t1 t2 t3 t4 up) (hopDelayOf t1 t2 t3 t4) s.osl with skewFault := true } }, rfl, ?_⟩
    rw [exec_skewExchange, execSkewExchange_member t1 t2 t3 t4 up hr hc rfl, if_neg (by simp [hd])]
    exact congrArg Host.Outcome.next (if_pos hoff)
  · rw [exec_oslMarkSlip, execOslMarkSlip, if_neg]
    rcases h with h | h
    · simp [h]
    · exact fun k => absurd k.2 (by omega)
  · rw [exec_syncClkiLoss, execSyncClkiLoss, if_pos hr]; rfl
  · rw [exec_syncClkiLoss, execSyncClkiLoss, if_neg hr]
  · rw [exec_upstreamSilence, execUpstreamSilence, if_neg hr]
  · rw [exec_upstreamSilence, execUpstreamSilence, if_pos hr]; rfl
  · refine ⟨{ s with osl := { s.osl with absent := withAbsent pos s.osl.absent, dnLink := s.osl.dnLink && pos != 1 } },
      mem_withAbsent pos _, subset_withAbsent pos _, rfl, ?_⟩
    rw [exec_oslMemberLost, execOslMemberLost, if_pos ⟨hr, h1, h7⟩]
    rfl
  · rw [exec_oslMemberLost, execOslMemberLost, if_neg]
    omega
  · rw [exec_oslLaneTrained, execOslLaneTrained]
    by_cases hp : port = 0
    · rw [if_pos hp]
      exact ⟨_, rfl, fun _ => rfl, fun h => absurd hp h, rfl⟩
    · rw [if_neg hp]
      exact ⟨_, rfl, fun h => absurd h hp, fun _ => rfl, rfl⟩

/-! ## Broadcasts (O9) -/

theorem exec_broadcastReceive (r : List Byte) (up : Nat) (s : State) : exec (.broadcastReceive r up) s = execBroadcastReceive r up s := rfl
theorem exec_broadcastDeadline (s : State) : exec .broadcastDeadline s = execBroadcastDeadline s := rfl
theorem exec_oslBcastStale (s : State) : exec .oslBcastStale s = execOslBcastStale s := rfl
theorem exec_kinematicBroadcastSend (s : State) : exec .kinematicBroadcastSend s = execKinematicBroadcastSend s := rfl

@[simp] theorem leBytes_length (k n : Nat) : (leBytes k n).length = k := by
  induction k generalizing n with
  | zero => rfl
  | succ k ih => simp [leBytes, ih]

/-- Little-endian bytes spell the number they were made of, in their width (R8). -/
theorem leNat_leBytes (k n : Nat) : leNat (leBytes k n) = n % 256 ^ k := by
  induction k generalizing n with
  | zero => simp [leBytes, leNat, Nat.mod_one]
  | succ k ih =>
    have h : (BitVec.ofNat 8 n).toNat = n % 256 := by simp
    rw [leBytes, leNat, ih, h, pow_succ, mul_comm (256 ^ k), Nat.mod_mul]

/-- The bytes put at an offset within the block read back. -/
theorem slice_putAt {bs v : List Byte} {off : Nat} (h : off ≤ bs.length) : slice (putAt bs off v) off v.length = v := by
  have hl : (bs.take off).length = off := by simp [h]
  simp [slice, putAt, List.append_assoc, hl]

/-- Before the bytes put nothing changes. -/
theorem take_putAt {bs v : List Byte} {off : Nat} (h : off ≤ bs.length) : (putAt bs off v).take off = bs.take off := by
  simp [putAt, List.append_assoc, h]

/-- After the bytes put nothing changes. -/
theorem drop_putAt {bs v : List Byte} {off : Nat} (h : off ≤ bs.length) :
    (putAt bs off v).drop (off + v.length) = bs.drop (off + v.length) := by
  simp [putAt, List.append_assoc, List.drop_append, h]

/-- A record with its PATH_VALID flag cleared. -/
def clearPathValid (r : List Byte) : List Byte := putAt r 112 (leBytes 2 (setBit (u16 r 112) 1 false))

/-- A bit cleared reads 0. -/
theorem bit_setBit_false (n i : Nat) : bit (setBit n i false) i = false := by
  unfold setBit
  cases h : bit n i with
  | false => simpa using h
  | true =>
    have hodd : n / 2 ^ i % 2 = 1 := by simpa [bit] using h
    have hle : 2 ^ i ≤ n := by
      by_contra hlt
      rw [Nat.div_eq_of_lt (by omega)] at hodd
      omega
    have hdiv : (n - 2 ^ i) / 2 ^ i = n / 2 ^ i - 1 := by
      have := Nat.sub_mul_div n (2 ^ i) 1
      simpa using this
    simp only [Bool.true_beq, Bool.false_eq_true, if_false, bit, hdiv]
    have : (n / 2 ^ i - 1) % 2 = 0 := by omega
    simp [this]

theorem recPathValid_clearPathValid {r : List Byte} (h : r.length = 128) : recPathValid (clearPathValid r) = false := by
  have hs := slice_putAt (v := leBytes 2 (setBit (u16 r 112) 1 false)) (show 112 ≤ r.length by omega)
  rw [leBytes_length] at hs
  have hb := bit_setBit_false (u16 r 112) 1
  rw [recPathValid, u16, clearPathValid, hs, leNat_leBytes]
  simp only [bit, pow_one, beq_eq_false_iff_ne] at hb ⊢
  omega

/-- A member with a valid record: the next boundary's record, its frequency word, the position after its neighbour's, which a
first record makes it report (R24, R27). -/
def recordTaken (r : List Byte) (up : Nat) (s : State) : State :=
  let pos := if s.osl.enumDone then s.osl.position else up + 1
  let hello : List Packet := if s.osl.enumDone then [] else [{ kind := .enum, dst := 0, src := pos, body := [] }]
  { s with
    osl := { s.osl with
      bcastSeen := true, missedRun := 0, bcastFreq := some (i32 r 12), position := pos, enumDone := true, outbox := s.osl.outbox ++ hello }
    kin := { s.kin with rcdNext := r } }

/-- Settles O9, happening by happening. -/
theorem missedBroadcasts : Obligations.MissedBroadcasts := by
  refine ⟨fun s r up hr hv => ?_, fun s r up h => ?_, fun s hr hseen => ?_, fun s hr hseen => ?_, fun s hr hrun => ?_, fun s h => ?_,
    fun s hr => ?_, fun s hr => ?_, fun s hr => ?_⟩
  · have hin : ¬ (s.osl.role ≠ 2 ∨ ¬ bcastValid (padTo 128 r) s = true) := by simp [hr, hv]
    rw [exec_broadcastReceive, execBroadcastReceive, if_neg hin]
    exact ⟨recordTaken (padTo 128 r) up s, rfl, rfl, rfl, rfl, rfl, rfl, rfl, rfl, rfl⟩
  · rw [exec_broadcastReceive, execBroadcastReceive, if_pos (by simpa using h)]
  · refine ⟨_, rfl, ?_⟩
    rw [exec_broadcastDeadline, execBroadcastDeadline, if_neg (by simp [hr])]
    simp [hseen, slotTicks, evBcastMissed]
  · rw [exec_broadcastDeadline, execBroadcastDeadline, if_neg (by simp [hr])]
    simp [hseen, slotTicks]
  · refine ⟨{ s with kin := { s.kin with rcd := clearPathValid s.kin.rcd, rcdNext := clearPathValid s.kin.rcdNext } },
      recPathValid_clearPathValid, recPathValid_clearPathValid, rfl, ?_⟩
    rw [exec_oslBcastStale, execOslBcastStale, if_pos ⟨hr, hrun⟩]
    rfl
  · rw [exec_oslBcastStale, execOslBcastStale, if_neg]
    omega
  · rw [exec_broadcastDeadline, execBroadcastDeadline, if_pos hr]
  · refine ⟨recordFreq (s.clk.freqNext.getD s.clk.freqAdj) s.kin.rcdNext, fun hl => ?_, ?_⟩
    · have hlen : (iBytes 4 (s.clk.freqNext.getD s.clk.freqAdj)).length = 4 := leBytes_length 4 _
      have hoff : 12 ≤ s.kin.rcdNext.length := by omega
      unfold recordFreq
      refine ⟨?_, take_putAt hoff, ?_⟩
      · simpa only [hlen] using slice_putAt (v := iBytes 4 (s.clk.freqNext.getD s.clk.freqAdj)) hoff
      · simpa only [hlen] using drop_putAt (v := iBytes 4 (s.clk.freqNext.getD s.clk.freqAdj)) hoff
    · rw [exec_kinematicBroadcastSend, execKinematicBroadcastSend, if_pos hr]
      simp [slotTicks]
  · rw [exec_kinematicBroadcastSend, execKinematicBroadcastSend, if_neg hr]

end Sys2Proof.Machine
end

section
/-! PROOFS. Architecture (01) and tables (03): groups, lock messages, cluster references, packets of the Osund link. -/

namespace Sys2Proof.Machine

theorem exec_groupCommit (d : Desc) (s : State) : exec (.groupCommit d) s = execGroupCommit d s := rfl
theorem exec_groupCommitTakeEffect (h : Nat) (s : State) : exec (.groupCommitTakeEffect h) s = execGroupCommitTakeEffect h s := rfl
theorem exec_groupLockMessage (g k b : Nat) (ms : List Nat) (s : State) : exec (.groupLockMessage g k b ms) s = execGroupLockMessage g k b ms s := rfl
theorem exec_groupLockUnacked (h pos : Nat) (s : State) : exec (.groupLockUnacked h pos) s = execGroupLockUnacked h pos s := rfl
theorem exec_clusterRefTimeout (h pos : Nat) (s : State) : exec (.clusterRefTimeout h pos) s = execClusterRefTimeout h pos s := rfl
theorem exec_oslPacketReceive (p : Packet) (b : Bool) (s : State) : exec (.oslPacketReceive p b) s = execOslPacketReceive p b s := rfl
theorem exec_markRecordArrival (pos : Nat) (q : Bool) (r : List Byte) (s : State) :
    exec (.markRecordArrival pos q r) s = execMarkRecordArrival pos q r s := rfl
theorem exec_answerReceive (r : List Byte) (s : State) : exec (.answerReceive r) s = execAnswerReceive r s := rfl
theorem exec_sectionRecordReceive (pos : Nat) (r : List Byte) (s : State) :
    exec (.sectionRecordReceive pos r) s = execSectionRecordReceive pos r s := rfl

/-! ## GROUP_COMMIT (R92) -/

/-- The members of a group on this device that have staged changes. -/
def stagedHere (s : State) (g : Obj) : List Obj := (groupHere s g).filter fun o => !o.staged.isEmpty

/-- The new costs that a commit reserves. -/
def commitCosts (s : State) (os : List Obj) : List (Obj × Nat) :=
  os.filterMap fun o => (stagedBlock o o.staged).map fun ps => (o, jobCost s o.typ ps)

/-- A GROUP_COMMIT that passes runs its body on the group. -/
theorem exec_groupCommit_passes {s : State} {d : Desc} {g : Obj} (hp : passes 0x0309 d s = true) (hg : objOf s (dHandle d) = some g) :
    exec (.groupCommit d) s = .next (bodyGroupCommit d g s) := by
  rw [exec_groupCommit, execGroupCommit, runObj_passes _ hp hg]

theorem bodyGroupCommit_busy {s : State} {g : Obj} (d : Desc) (h : lockFull s g = true) : bodyGroupCommit d g s = fail d 0x000C s :=
  if_pos h

theorem bodyGroupCommit_bad {s : State} {g : Obj} {e : PErr} (d : Desc) (hf : lockFull s g = false)
    (h : (stagedHere s g).findSome? (commitBad s) = some e) : bodyGroupCommit d g s = failWith d e.status e.result s := by
  unfold stagedHere at h
  simp [bodyGroupCommit, hf, h]

theorem bodyGroupCommit_full {s : State} {g : Obj} (d : Desc) (hf : lockFull s g = false)
    (h : (stagedHere s g).findSome? (commitBad s) = none)
    (hr : costReserveAll (groupBoundary s g (u64 d.bytes 16)).1 (costTag d) (commitCosts s (stagedHere s g)) s = none) :
    bodyGroupCommit d g s = fail d 0x0301 s := by
  unfold stagedHere at h
  unfold stagedHere commitCosts at hr
  simp only [bodyGroupCommit, hf, h, hr, Bool.false_eq_true, if_false]

theorem bodyGroupCommit_reserved {s u : State} {g : Obj} (d : Desc) (hf : lockFull s g = false)
    (h : (stagedHere s g).findSome? (commitBad s) = none)
    (hr : costReserveAll (groupBoundary s g (u64 d.bytes 16)).1 (costTag d) (commitCosts s (stagedHere s g)) s = some u) :
    bodyGroupCommit d g s = lockPost g 0 (groupBoundary s g (u64 d.bytes 16)).1
      (defer d 0x0309 (handleOf g) (groupBoundary s g (u64 d.bytes 16)).1 (leBytes 7 (groupBoundary s g (u64 d.bytes 16)).2) 0 u) := by
  unfold stagedHere at h
  unfold stagedHere commitCosts at hr
  simp only [bodyGroupCommit, hf, h, hr, Bool.false_eq_true, if_false]

/-- A group without members elsewhere has no lock message to wait for or to send. -/
theorem lockFull_of_near {s : State} {g : Obj} (h : groupFar s g = []) : lockFull s g = false := by simp [lockFull, h]

theorem lockPost_of_near {s : State} {g : Obj} (kind b : Nat) (h : groupFar s g = []) : lockPost g kind b s = s := by simp [lockPost, h]

theorem groupBoundary_of_near {s : State} {g : Obj} (req : Nat) (h : groupFar s g = []) :
    groupBoundary s g req = (takeEffect s.gtc req, takeEffectLate s.gtc req) := by simp [groupBoundary, h]

/-- What events and completions touch does not include the link. -/
theorem Touches.osl {s t : State} (h : Touches s t) : t.osl = s.osl := by rw [h.frame]

/-- Which members are elsewhere is a matter of the link alone. -/
theorem groupFar_congr {s t : State} (g : Obj) (h : t.osl = s.osl) : groupFar t g = groupFar s g := by simp [groupFar, h]

/-- The costs of DISABLED objects fit and reserve nothing (R82). -/
theorem costReserveAll_disabled (b tag : Nat) (s : State) :
    ∀ cs : List (Obj × Nat), (∀ x ∈ cs, x.1.ost = .disabled) → costReserveAll b tag cs s = some s
  | [], _ => rfl
  | x :: xs, h => by
    have hx : x.1.ost = .disabled := h x List.mem_cons_self
    have hfit : costFits s x.1 x.2 = true := by simp [costFits, hx]
    have hres : costReserve x.1 x.2 b tag s = s := by simp [costReserve, hx]
    rw [costReserveAll, if_pos hfit, hres]
    exact costReserveAll_disabled b tag s xs fun y hy => h y (List.mem_cons_of_mem _ hy)

/-- Members that are DISABLED with staged changes that pass: nothing fails, and the costs need no room. -/
theorem commit_of_disabled {s : State} {os : List Obj} (b tag : Nat)
    (h : ∀ o ∈ os, o.ost = .disabled ∧ ∃ ps, stagedBlock o o.staged = some ps ∧ paramsBad s o ps = none) :
    os.findSome? (commitBad s) = none ∧ costReserveAll b tag (commitCosts s os) s = some s := by
  constructor
  · rw [List.findSome?_eq_none_iff]
    intro o ho
    obtain ⟨-, ps, hps, hok⟩ := h o ho
    simp [commitBad, hps, hok]
  · refine costReserveAll_disabled b tag s _ fun x hx => ?_
    obtain ⟨o, ho, hxo⟩ := List.mem_filterMap.mp hx
    obtain ⟨ps, -, rfl⟩ := Option.map_eq_some_iff.mp hxo
    exact (h o ho).1

/-- The object of the list at an index, where no other has it. -/
theorem eq_of_idx {s : State} {o : Obj} (ho : objAt s o.idx = some o) (hp : s.objs.Pairwise fun a b => a.idx ≠ b.idx) :
    ∀ x ∈ s.objs, x.idx = o.idx → x = o := by
  have hnd : (s.objs.map (·.idx)).Nodup := List.pairwise_map.mpr hp
  exact fun x hx hi => List.inj_on_of_nodup_map hnd hx (List.mem_of_find?_eq_some ho) hi

/-- Two updates of the object at an index are one. -/
theorem updObj_updObj (i : Nat) {f g k : Obj → Obj} {s : State} (h : ∀ x ∈ s.objs, x.idx = i → (f x).idx = i ∧ g (f x) = k x) :
    updObj i g (updObj i f s) = updObj i k s := by
  unfold updObj
  simp only [List.map_map]
  congr 1
  refine List.map_congr_left fun x hx => ?_
  by_cases hi : x.idx = i
  · simp [hi, h x hx hi]
  · simp [hi]

/-- The block of a DISABLED object that is no PWMCH and changes no driven target and no reference elsewhere. -/
theorem applyParams_disabled {s : State} {o : Obj} {ps : List Byte} (hd : o.ost = .disabled) (hp : o.typ ≠ tyPwmch)
    (hrem : remoteOnly s o.typ o.params ps = []) (hold : drivesOnly o.typ o.params ps = []) (hnew : drivesOnly o.typ ps o.params = []) :
    applyParams o ps s = updObj o.idx (fun x => { x with params := ps, act := ps, sms := smRebind s o.params ps x.sms }) s := by
  simp [applyParams, hrem, hold, hnew, hd, hp, releaseRefs, costReserve]

/-- The staged changes of a DISABLED member come into force as one write (R92). -/
theorem commitApply_disabled {s : State} {o : Obj} {ps : List Byte} (ho : objAt s o.idx = some o)
    (hu : s.objs.Pairwise fun a b => a.idx ≠ b.idx) (hc : s.eng.costs = []) (hd : o.ost = .disabled)
    (hp : o.typ ≠ tyPwmch) (hs : o.typ ≠ tySolenoid) (hps : stagedBlock o o.staged = some ps)
    (hrem : remoteOnly s o.typ o.params ps = []) (hold : drivesOnly o.typ o.params ps = []) (hnew : drivesOnly o.typ ps o.params = []) :
    commitApply o s = updObj o.idx (fun y => { y with params := ps, act := ps, staged := [], sms := smRebind s o.params ps y.sms }) s := by
  simp only [commitApply, hc, List.filter_nil, List.foldl_nil, ho, hps, applyParams_disabled hd hp hrem hold hnew]
  refine updObj_updObj o.idx fun x hx hi => ⟨hi, ?_⟩
  rw [eq_of_idx ho hu x hx hi]
  simp [hp, hs]

/-! ## Lock messages (R93, R94) -/

/-- A packet of a message of which nothing is held is held as it came. -/
theorem lockJoin_new (m : LockMsg) :
    ∀ xs : List LockMsg, (∀ x ∈ xs, ¬ (x.group = m.group ∧ x.kind = m.kind ∧ x.boundary = m.boundary)) → lockJoin m xs = xs ++ [m]
  | [], _ => rfl
  | x :: xs, h => by
    rw [lockJoin, if_neg (h x List.mem_cons_self), lockJoin_new m xs fun y hy => h y (List.mem_cons_of_mem _ hy)]
    rfl

/-- GROUP_BROKEN where no member is on a third device. -/
theorem groupBroken_of_near {s : State} {g : Obj} {pos : Nat} (h : ∀ m ∈ groupFar s g, m.1 = pos) :
    groupBroken g pos s = (groupMembers s g).foldl (fun s h => class1 h 0x034B (leBytes 1 (groupId g) ++ leBytes 1 pos) s) s := by
  have hskip : ∀ (l : List (Nat × Nat)) (t : State), (∀ m ∈ l, m.1 = pos) → l.foldl (fun s m => if m.1 = pos ∨ s.osl.absent.contains m.1 then s
      else sendFault m.1 2 m.2 (leBytes 1 (groupId g) ++ leBytes 1 pos) s) t = t := by
    intro l
    induction l with
    | nil => intros; rfl
    | cons m l ih =>
      intro t hl
      rw [List.foldl_cons, if_pos (.inl (hl m List.mem_cons_self))]
      exact ih t fun x hx => hl x (List.mem_cons_of_mem _ hx)
  rw [groupBroken, hskip _ s h]

/-! ## Packets (R26) -/

/-- A meaning that answers a next state answers the state after it. -/
theorem next_after {r : Host.Outcome State Fault Refusal} {s : State} (h : ∃ t, r = .next t ∧ Keeps s t) : r = .next (after r s) := by
  obtain ⟨t, rfl, -⟩ := h
  rfl

/-- A packet on a running device of the cluster. -/
theorem execOslPacketReceive_running {s : State} (p : Packet) (b : Bool) (hr : s.osl.role ≠ 0) (hrun : running s = true) :
    execOslPacketReceive p b s = .next (
      if !b then raise0 evCrcError 0 [] { s with osl := { s.osl with crcErrors := satInc 16 s.osl.crcErrors } }
      else if p.dst = 0xFF then
        if s.osl.role = 2 then
          if (packetConsume p s).osl.dnLink then packetForward p (packetConsume p s) else packetConsume p s
        else s
      else if p.dst = s.osl.position then packetConsume p s
      else packetForward p s) :=
  congrArg Host.Outcome.next (if_neg (by simp [hr, hrun]))

/-- Settles O27: the commit by its four outcomes, its boundary, the lock messages, the waits and the packets. -/
theorem groupsAndClusterReferences : Obligations.GroupsAndClusterReferences := by
  refine ⟨fun s d g os b cs hp hg hf hos hbad hb hcs => ⟨fun u hr => ?_, fun hr => ?_⟩, fun s d g hp hg hf => ?_,
    fun s d g e hp hg hf hbad => ?_, fun s d g hp hg hnear hst => ?_, fun s h x u g hx hu hg => ?_,
    fun s o ps ho hu hc hd hpw hso hps hrem hold hnew => commitApply_disabled ho hu hc hd hpw hso hps hrem hold hnew,
    fun s h hx => ?_, fun s g k b ms hr => ?_, lockJoin_new, fun s g k b ms hr => ?_, fun s h pos g u hg ht hu => ?_,
    fun s g pos h => groupBroken_of_near h, fun s h pos hno => ?_, fun s h pos w hw => ?_, fun s w pos st hall => ?_,
    fun s h pos hno => ?_, fun s p hr hrun => ?_, fun s p hk => ?_, fun s p => ?_, fun s p b h => ?_⟩
  · subst hos hb hcs
    rw [exec_groupCommit_passes hp hg, bodyGroupCommit_reserved d hf hbad hr]
  · subst hos hb hcs
    rw [exec_groupCommit_passes hp hg, bodyGroupCommit_full d hf hbad hr]
  · rw [exec_groupCommit_passes hp hg, bodyGroupCommit_busy d hf]
  · rw [exec_groupCommit_passes hp hg, bodyGroupCommit_bad d hf hbad]
  · have hall : ∀ o ∈ stagedHere s g, o.ost = .disabled ∧ ∃ ps, stagedBlock o o.staged = some ps ∧ paramsBad s o ps = none := by
      intro o ho
      obtain ⟨hmem, hne⟩ := List.mem_filter.mp ho
      exact (hst o hmem).resolve_left fun h => by simp [h] at hne
    obtain ⟨hbad, hres⟩ := commit_of_disabled (groupBoundary s g (u64 d.bytes 16)).1 (costTag d) hall
    rw [exec_groupCommit_passes hp hg, bodyGroupCommit_reserved d (lockFull_of_near hnear) hbad hres, lockPost_of_near, groupBoundary_of_near _ hnear]
    rw [groupFar_congr g (touches_defer ..).osl, hnear]
  · subst hu
    simp only [exec_groupCommitTakeEffect, execGroupCommitTakeEffect, hx]
    simp only [toInstant_eng, hg]
  · simp only [exec_groupCommitTakeEffect, execGroupCommitTakeEffect, hx]
  · refine ⟨{ group := g, kind := k, boundary := b, members := ms.map fun h => (s.osl.position, h) }, rfl, rfl, rfl, rfl, ?_⟩
    rw [exec_groupLockMessage, execGroupLockMessage, if_neg (by simp [hr])]
    rfl
  · rw [exec_groupLockMessage, execGroupLockMessage, if_pos hr]
  · simp only [exec_groupLockUnacked, execGroupLockUnacked, hg, ht, beq_self_eq_true, Bool.true_and, hu]
  · rw [exec_groupLockUnacked, execGroupLockUnacked]
    cases hg : objOf s h with
    | none => rfl
    | some g =>
      have hnone : (s.eng.unacked.find? fun u => g.typ == tyGroup && u.1 == groupId g && u.2.2 == pos) = none := by
        rw [List.find?_eq_none]
        intro u hu
        simp only [Bool.and_eq_true, beq_iff_eq, not_and]
        exact fun hid => hno g hg u hu hid.2
      simp only [hnone]
  · simp only [exec_clusterRefTimeout, execClusterRefTimeout, hw]
  · have hnone : (refsAsked s w).filter (fun m => !w.waiting.contains m) = [] := by
      rw [List.filter_eq_nil_iff]
      intro m hm
      simp [hall m hm]
    simp only [refsFail, hnone]
    rfl
  · have hnone : (s.eng.refWaits.find? fun w => w.waiting.any fun m => m.1 == pos && m.2 == h) = none := by
      rw [List.find?_eq_none]
      intro w hw
      simp only [List.any_eq_true, Bool.and_eq_true, beq_iff_eq, not_exists, not_and]
      rintro ⟨p, k⟩ hm rfl rfl
      exact hno w hw hm
    simp only [exec_clusterRefTimeout, execClusterRefTimeout, hnone]
  · refine ⟨?_, fun h1 h2 h3 => ?_, fun h1 h2 => ?_, fun h1 h2 => ?_, fun h1 => ?_⟩ <;>
      rw [exec_oslPacketReceive, execOslPacketReceive_running p _ hr hrun]
    · rfl
    · simp [h1, h2, h3, packetForward]
    · simp [h1, h2]
    · simp only [Bool.not_true, Bool.false_eq_true, if_false, if_neg h1, if_pos h2]
    · simp [h1]
  · simp [packetForward, hk]
  · refine ⟨fun hk => ?_, fun hk => ?_, fun hk => ?_, fun hk => ?_, fun hk => ?_, fun hk => ?_⟩ <;> simp only [packetConsume, hk]
    · exact (exec_broadcastReceive ..).trans (next_after (keeps_execBroadcastReceive ..))
    · exact (exec_markRecordArrival ..).trans (next_after (keeps_execMarkRecordArrival ..))
    · exact (exec_markRecordArrival ..).trans (next_after (keeps_execMarkRecordArrival ..))
    · exact (exec_answerReceive ..).trans (next_after (keeps_execAnswerReceive ..))
    · exact (exec_sectionRecordReceive ..).trans (next_after (keeps_execSectionRecordReceive ..))
  · rw [exec_oslPacketReceive, execOslPacketReceive, if_pos (by simpa using h)]

end Sys2Proof.Machine
end

section
/-! PROOFS. Architecture (01): the frame boundary and the tempo slots. -/

namespace Sys2Proof.Machine

theorem exec_frameBoundary (s : State) : exec .frameBoundary s = execFrameBoundary s := rfl
theorem exec_tempoSlotRun (slot : Nat) (late : List Nat) (s : State) : exec (.tempoSlotRun slot late) s = execTempoSlotRun slot late s := rfl

/-! ## What a boundary leaves alone where only set-up objects exist -/

/-- Only objects without running parts of their own exist: tables, wings, groups. -/
def SetupOnly (s : State) : Prop := ∀ o ∈ s.objs, [tyTable, tyWing, tyGroup].contains o.typ = true

theorem setup_typ {o : Obj} (h : [tyTable, tyWing, tyGroup].contains o.typ = true) : o.typ = tyTable ∨ o.typ = tyWing ∨ o.typ = tyGroup := by
  simpa using h

theorem SetupOnly.of_objs {s t : State} (h : SetupOnly s) (k : t.objs = s.objs) : SetupOnly t := by
  unfold SetupOnly; rw [k]; exact h

/-- No object passes a test that only objects of other types pass. -/
theorem SetupOnly.filter_eq_nil {s : State} (h : SetupOnly s) {p : Obj → Bool}
    (hp : ∀ o, [tyTable, tyWing, tyGroup].contains o.typ = true → p o = false) : s.objs.filter p = [] := by
  rw [List.filter_eq_nil_iff]
  exact fun o ho => by simp [hp o (h o ho)]

/-- No object is of another type. -/
theorem SetupOnly.objsOf_eq_nil {s : State} (h : SetupOnly s) {ty : Nat} (ht : [tyTable, tyWing, tyGroup].contains ty = false) :
    objsOf s ty = [] := by
  refine h.filter_eq_nil fun o ho => ?_
  by_contra hne
  rw [show o.typ = ty by simpa using hne, ht] at ho
  cases ho

/-- A pass over the objects of another type does nothing. -/
theorem SetupOnly.foldl_objsOf {s : State} (h : SetupOnly s) {ty : Nat} (ht : [tyTable, tyWing, tyGroup].contains ty = false)
    (f : State → Obj → State) (t : State) : (objsOf s ty).foldl f t = t := by
  rw [h.objsOf_eq_nil ht, List.foldl_nil]

/-- No object is a channel of the board. -/
theorem isChan_of_setup {o : Obj} (h : [tyTable, tyWing, tyGroup].contains o.typ = true) : isChan o = false := by
  rcases setup_typ h with h | h | h <;> rw [isChan, h] <;> decide

/-- What the units, the link and the trace leave of the device at a boundary: time, clock, kinematics, objects, boost, supplies
and what the groups hold. -/
structure UnitsFrame (s t : State) : Prop where
  gtc : t.gtc = s.gtc
  clk : t.clk = s.clk
  kin : t.kin = s.kin
  objs : t.objs = s.objs
  boost : t.boost = s.boost
  pwr : t.pwr = s.pwr
  boundary : t.isl.boundaryGtc = s.isl.boundaryGtc
  phase : t.osl.phaseLeft = s.osl.phaseLeft
  held : t.eng.lockHeld = s.eng.lockHeld
  costs : t.eng.costs = s.eng.costs

theorem UnitsFrame.refl (s : State) : UnitsFrame s s := ⟨rfl, rfl, rfl, rfl, rfl, rfl, rfl, rfl, rfl, rfl⟩

theorem UnitsFrame.trans {s t u : State} (h : UnitsFrame s t) (k : UnitsFrame t u) : UnitsFrame s u :=
  ⟨k.gtc.trans h.gtc, k.clk.trans h.clk, k.kin.trans h.kin, k.objs.trans h.objs, k.boost.trans h.boost, k.pwr.trans h.pwr,
    k.boundary.trans h.boundary, k.phase.trans h.phase, k.held.trans h.held, k.costs.trans h.costs⟩

/-- A fold of operations, each with the frame from states that satisfy what the frame keeps. -/
theorem unitsFrame_foldl {α : Type} {f : State → α → State} {s : State} (h : ∀ t x, t.objs = s.objs → UnitsFrame t (f t x)) :
    ∀ (l : List α) (t : State), t.objs = s.objs → UnitsFrame t (l.foldl f t)
  | [], t, _ => .refl t
  | x :: l, t, ht => (h t x ht).trans (unitsFrame_foldl h l (f t x) ((h t x ht).objs.trans ht))

/-- Events stay within the frame. -/
theorem Touches.unitsFrame {s t : State} (h : Touches s t) : UnitsFrame s t := by
  have hf := h.frame
  unfold EvFrame at hf
  rw [hf]
  exact ⟨rfl, rfl, rfl, rfl, rfl, rfl, rfl, rfl, rfl, rfl⟩

/-! ## The parts of a boundary's work -/

theorem unitsFrame_updTrip (n : Nat) (f : Trip → Trip) (s : State) : UnitsFrame s (updTrip n f s) :=
  ⟨rfl, rfl, rfl, rfl, rfl, rfl, rfl, rfl, rfl, rfl⟩

/-- A trip's new configuration, with no channel to act on. -/
theorem unitsFrame_tripBoundary {s : State} (hs : SetupOnly s) (n : Nat) : UnitsFrame s (tripBoundary n s) := by
  have harrive : ∀ t : State, t.objs = s.objs → UnitsFrame t (tripArrive n t) := by
    intro t ht
    have hnone : tripChans t n = [] := by
      rw [tripChans, (hs.of_objs ht).objsOf_eq_nil (by decide), List.filter_nil]
    unfold tripArrive
    simp only [hnone, List.filter_nil, List.isEmpty_nil, Bool.not_true, Bool.false_or, Bool.true_and]
    split
    · exact .refl t
    · split
      · exact .refl t
      · next hlatch =>
        have hl : (trip t n).latch = true := by simpa using hlatch
        unfold tripActs
        simp only [hl, if_true, List.foldl_nil]
        split
        · exact .refl t
        · exact (unitsFrame_updTrip n _ t).trans (touches_raise0 ..).unitsFrame
  unfold tripBoundary
  split
  · exact .refl s
  · exact (unitsFrame_updTrip n _ s).trans (harrive _ rfl)

/-- The waiting set-up of the boost converter comes into force; nothing else of the frame changes. -/
theorem boostBoundary_frame (s : State) : ∃ x, boostBoundary s = { s with boost := x }
    ∧ ∀ v w c, s.boost.next = some (v, w, c) → x = { s.boost with next := none, vboost := v, boostWait := w, tChop := c } := by
  unfold boostBoundary
  split
  · next h => exact ⟨s.boost, rfl, fun v w c hv => by rw [h] at hv; cases hv⟩
  · next v w c h => exact ⟨_, rfl, fun v' w' c' hv => by rw [h] at hv; cases hv; rfl⟩

theorem unitsFrame_encoBoundary (s : State) : UnitsFrame s (encoBoundary s) :=
  ⟨rfl, rfl, rfl, rfl, rfl, rfl, rfl, rfl, rfl, rfl⟩

/-- The other units: a boost set-up that waits comes into force, the rest of the frame stays. -/
theorem unitsBoundary_frame {s : State} (hs : SetupOnly s) (b : Nat) : ∃ x, UnitsFrame { s with boost := x } (unitsBoundary b s)
    ∧ ∀ v w c, s.boost.next = some (v, w, c) → x = { s.boost with next := none, vboost := v, boostWait := w, tChop := c } := by
  have htrips : UnitsFrame s ((List.range 8).foldl (fun s n => tripBoundary n s) s) :=
    unitsFrame_foldl (s := s) (fun t n ht => unitsFrame_tripBoundary (hs.of_objs ht) n) _ s rfl
  unfold unitsBoundary
  dsimp only
  generalize (List.range 8).foldl (fun s n => tripBoundary n s) s = t at htrips ⊢
  obtain ⟨x, hx, hnext⟩ := boostBoundary_frame t
  have ht : SetupOnly (boostBoundary t) := by rw [hx]; exact hs.of_objs htrips.objs
  refine ⟨x, ?_, ?_⟩
  · rw [boardBoundary, ht.foldl_objsOf (by decide), canBoundary, ht.foldl_objsOf (by decide), ht.foldl_objsOf (by decide), hx]
    have hboost : UnitsFrame { s with boost := x } { t with boost := x } :=
      ⟨htrips.gtc, htrips.clk, htrips.kin, htrips.objs, rfl, htrips.pwr, htrips.boundary, htrips.phase, htrips.held, htrips.costs⟩
    exact hboost.trans (unitsFrame_encoBoundary _)
  · rw [← htrips.boost]
    exact hnext

theorem unitsFrame_lockSend (m : LockMsg) (s : State) : UnitsFrame s (lockSend m s) :=
  ⟨rfl, rfl, rfl, rfl, rfl, rfl, rfl, rfl, rfl, rfl⟩

theorem unitsFrame_lockPump (s : State) : UnitsFrame s (lockPump s) := by
  unfold lockPump
  exact unitsFrame_foldl (s := s) (fun t m _ => unitsFrame_lockSend m t) _ s rfl

theorem unitsFrame_sendView (pos : Nat) (body : List Byte) (s : State) : UnitsFrame s (sendView pos body s) :=
  ⟨rfl, rfl, rfl, rfl, rfl, rfl, rfl, rfl, rfl, rfl⟩

theorem unitsFrame_viewBoundary (s : State) : UnitsFrame s (viewBoundary s) := by
  unfold viewBoundary
  split
  · exact .refl s
  · extract_lets due gone s1 s2
    have h1 : UnitsFrame s s1 := unitsFrame_foldl (s := s) (fun t x _ => unitsFrame_sendView x.1 _ t) gone s rfl
    have h2 : UnitsFrame s1 s2 := unitsFrame_foldl (s := s1) (fun t y _ => unitsFrame_sendView y.1 y.2.2 t) _ s1 rfl
    exact (h1.trans h2).trans ⟨rfl, rfl, rfl, rfl, rfl, rfl, rfl, rfl, rfl, rfl⟩

theorem unitsFrame_memberReports {s : State} (hs : SetupOnly s) (b : Nat) : UnitsFrame s (memberReports b s) := by
  have hdue : (s.objs.filter fun o => isChan o && frameNo b % 10 == (chanOf o).chan % 10 && (isEnabled o || (chanOf o).told)) = [] :=
    hs.filter_eq_nil fun o ho => by simp [isChan_of_setup ho]
  unfold memberReports
  split
  · exact .refl s
  · simp only [hdue, List.foldl_nil]
    split
    · exact .refl s
    · refine unitsFrame_foldl (s := s) (fun t h _ => ?_) _ s rfl
      exact ⟨rfl, rfl, rfl, rfl, rfl, rfl, rfl, rfl, rfl, rfl⟩

theorem unitsFrame_linkBoundary {s : State} (hs : SetupOnly s) (b : Nat) : UnitsFrame s (linkBoundary b s) := by
  have hview := unitsFrame_viewBoundary s
  unfold linkBoundary
  rw [hs.foldl_objsOf (by decide)]
  exact hview.trans (unitsFrame_memberReports (hs.of_objs hview.objs) b)

theorem unitsFrame_trcTick (b : Nat) (s : State) : UnitsFrame s (trcTick b s) := by
  unfold trcTick
  split
  · exact ⟨rfl, rfl, rfl, rfl, rfl, rfl, rfl, rfl, rfl, rfl⟩
  · exact .refl s

/-- What is held and pending comes to its boundary: with nothing of it, nothing happens. -/
theorem costBoundary_nil {s : State} (b : Nat) (h : s.eng.costs = []) : costBoundary b s = s := by simp [costBoundary, h]
theorem lockBoundary_nil {s : State} (b : Nat) (h : s.eng.lockHeld = []) : lockBoundary b s = s := by simp [lockBoundary, h]
theorem parkBoundary_none {s : State} (b : Nat) (h : s.pwr.parkAt = none) : parkBoundary b s = s := by simp [parkBoundary, h]
theorem cancelBoundary_nil {s : State} (b : Nat) (h : s.hif.deferred = []) : cancelBoundary b s = s := by simp [cancelBoundary, h]

/-- The services without sections, and without a Task Controller that is connected: only the path grows. -/
theorem isbBoundary_setup {s : State} (hs : SetupOnly s) (b : Nat) (htc : s.isb.tc ≠ 4) : ∃ x, isbBoundary b s = { s with isb := x } := by
  have hs1 : ∀ i : Isb, SetupOnly { s with isb := i } := fun _ => hs
  unfold isbBoundary
  dsimp only
  rw [(hs1 _).foldl_objsOf (by decide)]
  exact ⟨_, if_pos htc⟩

theorem recordBoundary_eq (b : Nat) (s : State) : recordBoundary b s
    = { s with kin := { s.kin with rcd := if u64 s.kin.rcdNext 4 = b then recordFreq s.clk.freqAdj s.kin.rcdNext else s.kin.rcd } } := by
  unfold recordBoundary
  split <;> rfl

/-- The shadows without points, sections and channels: the machine record alone loads. -/
theorem shadowLoad_setup {s : State} (hs : SetupOnly s) (b : Nat) (hd : s.hif.deferred = []) (htc : s.isb.tc ≠ 4) :
    ∃ x, shadowLoad b s = { recordBoundary b s with isb := x } := by
  have hrec := recordBoundary_eq b s
  have hs' : SetupOnly (recordBoundary b s) := by rw [hrec]; exact hs
  obtain ⟨x, hx⟩ := isbBoundary_setup hs' b (by rw [hrec]; exact htc)
  have hs2 : SetupOnly { recordBoundary b s with isb := x } := hs'
  refine ⟨x, ?_⟩
  unfold shadowLoad
  dsimp only
  rw [hs.objsOf_eq_nil (by decide), List.filter_nil, List.foldl_nil, cancelBoundary_nil b (by rw [hrec]; exact hd), hx,
    hs2.foldl_objsOf (by decide), hs2.filter_eq_nil (fun o ho => by simp [isChan_of_setup ho]), List.foldl_nil]

/-- A run of updates of the objects at some indices. -/
theorem foldl_updObj (f : Obj → Obj) (hf : ∀ o, (f o).idx = o.idx) (hff : ∀ o, f (f o) = f o) :
    ∀ (l : List Obj) (s : State), l.foldl (fun s o => updObj o.idx f s) s
      = { s with objs := s.objs.map fun x => if x.idx ∈ l.map (·.idx) then f x else x }
  | [], s => by simp
  | o :: l, s => by
    rw [List.foldl_cons, foldl_updObj f hf hff l]
    simp only [updObj, List.map_map, List.map_cons, List.mem_cons]
    congr 1
    refine List.map_congr_left fun x _ => ?_
    by_cases h : x.idx = o.idx
    · simp [h, hf, hff]
    · simp [h]

/-- The written block of an object comes into force. -/
def takeBlock (o : Obj) : Obj := { o with act := o.params }

/-- The blocks of tables, wings and groups that are not FAULTED come into force (R64). -/
theorem paramsBoundary_setup {s : State} (hs : SetupOnly s) (hf : ∀ o ∈ s.objs, o.ost ≠ .faulted) :
    paramsBoundary s = { s with objs := s.objs.map takeBlock } := by
  unfold paramsBoundary
  extract_lets changed s1
  have hsw : (changed.filter fun o => o.typ == tySwitch) = [] := by
    rw [List.filter_eq_nil_iff]
    intro o ho
    rcases setup_typ (hs o (List.mem_of_mem_filter ho)) with h | h | h <;> rw [h] <;> decide
  rw [hsw, List.foldl_nil]
  refine (foldl_updObj takeBlock (fun _ => rfl) (fun _ => rfl) changed s).trans ?_
  congr 1
  refine List.map_congr_left fun o ho => ?_
  by_cases hact : o.act = o.params
  · have : takeBlock o = o := by cases o; simp_all [takeBlock]
    simp [this]
  · have hmem : o ∈ changed := by
      have htyp : boundaryTypes.contains o.typ = true := by
        rcases setup_typ (hs o ho) with h | h | h <;> rw [h] <;> decide
      exact List.mem_filter.mpr ⟨ho, by simp [List.contains_iff_mem.mp htyp, hact, hf o ho]⟩
    rw [if_pos (List.mem_map_of_mem hmem)]

theorem setupOnly_takeBlock {s : State} (hs : SetupOnly s) : SetupOnly { s with objs := s.objs.map takeBlock } := by
  intro o ho
  obtain ⟨x, hx, rfl⟩ := List.mem_map.mp ho
  exact hs x hx

/-! ## FRAME_BOUNDARY (O29) -/

/-- The word in force after a boundary, and the part of a phase correction that is left (R17, R21, R28). -/
def freqAfter (s : State) : Int :=
  if s.osl.role = 2 then s.osl.bcastFreq.getD s.clk.freqAdj else s.osl.freqSent.getD (s.clk.freqNext.getD s.clk.freqAdj)
def phaseAfter (p : Int) : Int := if 0 < p then p - 1 else if p < 0 then p + 1 else 0

/-- The start of a boundary's work: the word, the phase, and nothing waiting on the link. -/
def boundaryStart (s : State) : State := phaseBoundary (freqAdjApply { s with osl := { s.osl with outbox := [] } })

theorem boundaryStart_frame (s : State) : ∃ c o, boundaryStart s = { s with clk := c, osl := o }
    ∧ c.freqAdj = freqAfter s ∧ o.phaseLeft = phaseAfter s.osl.phaseLeft := by
  unfold boundaryStart freqAdjApply freqAfter
  by_cases h : s.osl.role = 2 <;> simp only [h, if_true, if_false]
  · exact ⟨_, _, rfl, rfl, rfl⟩
  · exact ⟨_, _, rfl, rfl, rfl⟩

/-- What a boundary does where only set-up objects exist and nothing is held or pending. -/
theorem boundaryWork_setup {s : State} (b : Nat) (hs : SetupOnly s) (hf : ∀ o ∈ s.objs, o.ost ≠ .faulted) (hd : s.hif.deferred = [])
    (hl : s.eng.lockHeld = []) (hc : s.eng.costs = []) (hp : s.pwr.parkAt = none) (htc : s.isb.tc ≠ 4) :
    ∃ t, boundaryWork b s = t ∧ t.gtc = s.gtc ∧ t.isl.boundaryGtc = s.isl.boundaryGtc ∧ t.objs = s.objs.map takeBlock
      ∧ t.clk.freqAdj = freqAfter s ∧ t.osl.phaseLeft = phaseAfter s.osl.phaseLeft
      ∧ t.kin.rcd = (if u64 s.kin.rcdNext 4 = b then recordFreq (freqAfter s) s.kin.rcdNext else s.kin.rcd)
      ∧ ∀ v w c, s.boost.next = some (v, w, c) → t.boost = { s.boost with next := none, vboost := v, boostWait := w, tChop := c } := by
  obtain ⟨c, o, hstart, hfreq, hphase⟩ := boundaryStart_frame s
  have hparams : paramsBoundary (boundaryStart s) = { s with clk := c, osl := o, objs := s.objs.map takeBlock } := by
    rw [hstart]; exact paramsBoundary_setup hs hf
  have hs1 : SetupOnly { s with clk := c, osl := o, objs := s.objs.map takeBlock } := setupOnly_takeBlock hs
  obtain ⟨i, hshadow⟩ := shadowLoad_setup hs1 b hd htc
  rw [recordBoundary_eq] at hshadow
  generalize hz : shadowLoad b { s with clk := c, osl := o, objs := s.objs.map takeBlock } = z at hshadow
  have hs2 : SetupOnly z := by rw [hshadow]; exact hs1
  obtain ⟨x, hunits, hboost⟩ := unitsBoundary_frame hs2 b
  generalize hu : unitsBoundary b z = u at hunits
  have hpump := unitsFrame_lockPump u
  have hlink : UnitsFrame (lockPump u) (linkBoundary b (lockPump u)) :=
    unitsFrame_linkBoundary (hs2.of_objs (hpump.objs.trans hunits.objs)) b
  have hall := (hunits.trans hpump).trans hlink
  have hcosts : costBoundary b u = u := costBoundary_nil b (by rw [hunits.costs, hshadow]; exact hc)
  have hlock : lockBoundary b (lockPump u) = lockPump u := lockBoundary_nil b (by rw [hpump.held, hunits.held, hshadow]; exact hl)
  have hpark : parkBoundary b (linkBoundary b (lockPump u)) = linkBoundary b (lockPump u) :=
    parkBoundary_none b (by rw [hall.pwr, hshadow]; exact hp)
  have htick : UnitsFrame (linkBoundary b (lockPump u)) (boundaryWork b s) := by
    unfold boundaryWork
    dsimp only
    rw [show phaseBoundary (freqAdjApply { s with osl := { s.osl with outbox := [] } }) = boundaryStart s from rfl, hparams, hz, hu, hcosts, hlock,
      hpark]
    split
    · exact unitsFrame_trcTick b _
    · exact .refl _
  have hend := hall.trans htick
  refine ⟨_, rfl, ?_, ?_, ?_, ?_, ?_, ?_, fun v w c hn => ?_⟩
  · rw [hend.gtc, hshadow]
  · rw [hend.boundary, hshadow]
  · rw [hend.objs, hshadow]
  · rw [hend.clk, hshadow]; exact hfreq
  · rw [hend.phase, hshadow]; exact hphase
  · rw [hend.kin, hshadow]
    simp only [hfreq]
  · rw [hend.boost]
    have hz : z.boost = s.boost := by rw [hshadow]
    rw [hz] at hboost
    exact hboost v w c hn

/-- The boundary that comes next (R18, R22). -/
theorem dueBoundary_within {s : State} (h : s.gtc < s.isl.boundaryGtc) : dueBoundary s = s.gtc / 48000 * 48000 := if_pos h

theorem dueBoundary_next {s : State} (h : s.isl.boundaryGtc ≤ s.gtc) : ∃ b, b = max (s.isl.boundaryGtc + 48000) (s.gtc / 48000 * 48000)
    ∧ dueBoundary s = if b < 2 ^ 64 then b else 0 := ⟨_, rfl, if_neg (by omega)⟩

/-- The time at boundary `b`: the GTC has come to it, or starts anew. -/
def boundaryTime (b : Nat) (s : State) : State := if b = 0 ∧ s.isl.boundaryGtc ≠ 0 then { s with gtc := 0 } else toInstant b s

/-- The boundary is noted, by the lead with its marker. -/
def boundaryNoted (b : Nat) (s : State) : State :=
  { s with
    isl := { s.isl with boundaryGtc := b }
    osl := { s.osl with bcastSeen := false, markoAt := if s.osl.role = 1 then some b else s.osl.markoAt } }

theorem boundaryTime_frame (b : Nat) (s : State) : ∃ g, boundaryTime b s = { s with gtc := g } := by
  unfold boundaryTime toInstant
  split
  · exact ⟨_, rfl⟩
  · split
    · exact ⟨_, rfl⟩
    · exact ⟨s.gtc, rfl⟩

/-- A boundary that is not before the GTC is the GTC then. -/
theorem boundaryTime_gtc {b : Nat} {s : State} (h : s.gtc ≤ b) (hb : b < 2 ^ 64) : (boundaryTime b s).gtc = b := by
  unfold boundaryTime
  split
  · next h0 => exact h0.1.symm
  · rcases Nat.lt_or_eq_of_le h with hlt | heq
    · exact toInstant_gtc hlt hb
    · rw [toInstant_past (by omega)]; exact heq

theorem execFrameBoundary_parked {s : State} (h : s.boot.mode = .parked) : execFrameBoundary s = .next s := by
  rw [execFrameBoundary, if_pos h]

theorem execFrameBoundary_noted {s : State} (h : s.boot.mode ≠ .parked) :
    execFrameBoundary s = .next (if running s then boundaryWork (dueBoundary s) (boundaryNoted (dueBoundary s) (boundaryTime (dueBoundary s) s))
      else boundaryNoted (dueBoundary s) (boundaryTime (dueBoundary s) s)) := by
  obtain ⟨g, hg⟩ := boundaryTime_frame (dueBoundary s) s
  have hmark : ∀ t : State, (if t.osl.role = 1 then markOut (dueBoundary s) { t with
      isl := { t.isl with boundaryGtc := dueBoundary s }, osl := { t.osl with bcastSeen := false } } else { t with
      isl := { t.isl with boundaryGtc := dueBoundary s }, osl := { t.osl with bcastSeen := false } }) = boundaryNoted (dueBoundary s) t := by
    intro t
    unfold boundaryNoted markOut
    by_cases hr : t.osl.role = 1 <;> simp [hr]
  rw [execFrameBoundary, if_neg h]
  dsimp only
  rw [show (if dueBoundary s = 0 ∧ s.isl.boundaryGtc ≠ 0 then { s with gtc := 0 } else toInstant (dueBoundary s) s)
    = boundaryTime (dueBoundary s) s from rfl, hmark]
  rw [show running (boundaryNoted (dueBoundary s) (boundaryTime (dueBoundary s) s)) = running s by rw [hg]; rfl]

/-- What a boundary brings where only set-up objects exist and nothing is held or pending. -/
theorem execFrameBoundary_setup {s : State} {b : Nat} (hs : SetupOnly s) (hf : ∀ o ∈ s.objs, o.ost ≠ .faulted) (hr : running s = true)
    (hb : b = dueBoundary s) (hle : s.gtc ≤ b) (hlt : b < 2 ^ 64) (hd : s.hif.deferred = []) (hl : s.eng.lockHeld = [])
    (hc : s.eng.costs = []) (hp : s.pwr.parkAt = none) (htc : s.isb.tc ≠ 4) :
    ∃ t, execFrameBoundary s = .next t ∧ t.gtc = b ∧ t.isl.boundaryGtc = b ∧ t.objs = s.objs.map takeBlock
      ∧ t.clk.freqAdj = freqAfter s
      ∧ t.osl.phaseLeft = phaseAfter s.osl.phaseLeft
      ∧ t.kin.rcd = (if u64 s.kin.rcdNext 4 = b then recordFreq (freqAfter s) s.kin.rcdNext else s.kin.rcd)
      ∧ ∀ v w c, s.boost.next = some (v, w, c) → t.boost = { s.boost with next := none, vboost := v, boostWait := w, tChop := c } := by
  have hm : s.boot.mode ≠ .parked := by
    intro h
    rw [running, h] at hr
    exact absurd hr (by decide)
  obtain ⟨g, hg⟩ := boundaryTime_frame b s
  have hgtc := boundaryTime_gtc hle hlt
  rw [hg] at hgtc
  rw [execFrameBoundary_noted hm, hr, if_pos rfl, ← hb, hg]
  obtain ⟨t, ht, h1, h⟩ := boundaryWork_setup (s := boundaryNoted b { s with gtc := g }) b hs hf hd hl hc hp htc
  exact ⟨t, congrArg Host.Outcome.next ht, h1.trans hgtc, h⟩

/-! ## TEMPO_SLOT_RUN (O29) -/

/-- The jobs of a slot are a matter of the objects. -/
theorem jobsIn_congr {s t : State} (h : t.objs = s.objs) (e q fr : Nat) : jobsIn t e q fr = jobsIn s e q fr := by simp [jobsIn, h]

theorem engineOut_congr {s t : State} (h : t.eng = s.eng) (e : Nat) : engineOut t e = engineOut s e := by simp [engineOut, h]

/-- An engine without a job in the slot does nothing. -/
theorem engineSlot_idle {tk slot : Nat} {late : List Nat} {s0 : State} {e : Nat} (s : State) (h : jobsIn s0 e slot (frameNo tk) = []) :
    engineSlot tk slot late s0 s e = s := by
  simp [engineSlot, h, engineRun]

/-- Where only engine `e` has jobs, the slot is that engine's. -/
theorem foldl_engineSlot_one {tk slot : Nat} {late : List Nat} {s0 : State} {e : Nat} :
    ∀ (l : List Nat) (s : State), (∀ x ∈ l, x ≠ e → jobsIn s0 x slot (frameNo tk) = []) → l.Nodup →
      l.foldl (engineSlot tk slot late s0) s = if e ∈ l then engineSlot tk slot late s0 s e else s
  | [], _, _, _ => rfl
  | x :: l, s, h, hn => by
    obtain ⟨hx, hl⟩ := List.nodup_cons.mp hn
    rw [List.foldl_cons, foldl_engineSlot_one l _ (fun y hy => h y (List.mem_cons_of_mem _ hy)) hl]
    by_cases he : x = e
    · subst he
      simp [hx]
    · rw [engineSlot_idle s (h x List.mem_cons_self he)]
      simp [Ne.symm he]

/-- An engine's one job, named late or on an engine out of service, falls. -/
theorem engineSlot_falls {tk slot : Nat} {late : List Nat} {s0 : State} {e : Nat} {o : Obj} (s : State)
    (h : jobsIn s0 e slot (frameNo tk) = [o]) (hh : s0.isl.halted.contains e = false)
    (hl : late.contains o.idx = true ∨ engineOut s0 e = true) :
    engineSlot tk slot late s0 s e
      = { s with eng := { s.eng with falling := s.eng.falling ++ [{ idx := o.idx, engine := e, slot := slot, victim := false }] } } := by
  have hlate : (if engineOut s0 e then [o].map (·.idx) else late).contains o.idx = true := by
    split
    · simp
    · next hout => exact hl.resolve_right hout
  simp only [engineSlot, h, hh, Bool.false_eq_true, if_false]
  rw [engineRun, if_pos hlate]
  rfl

/-- An engine's one job that ends in time is committed. -/
theorem engineSlot_commits {tk slot : Nat} {late : List Nat} {s0 : State} {e : Nat} {o : Obj} (s : State)
    (h : jobsIn s0 e slot (frameNo tk) = [o]) (hh : s0.isl.halted.contains e = false)
    (hl : late.contains o.idx = false) (ho : engineOut s0 e = false) :
    engineSlot tk slot late s0 s e = jobCommit tk o s0 s := by
  simp only [engineSlot, h, hh, ho, Bool.false_eq_true, if_false]
  rw [engineRun, if_neg (by rw [hl]; decide)]
  rfl

/-- The job of an ENABLED object that is not in its fault action runs by its type. -/
theorem jobRun_enabled {tk i : Nat} {s0 s : State} {o : Obj} (h : objAt s i = some o) (he : isEnabled o = true) (hf : axFaulting o = false)
    {u : State} (hu : u = updObj i (fun y => { y with ffConsec := 0 }) s) :
    jobRun tk i s0 s = if o.typ = tySection then secJob tk i u
      else if o.typ = tyNozzle ∨ o.typ = tyRow then chJob tk i u
      else if o.typ = tyLoop then loopSample tk i s0 u
      else axJob tk (tk + 3000) i u := by
  subst hu
  simp only [jobRun, h, he, hf, Bool.not_true, Bool.or_self, Bool.false_eq_true, if_false]
  rfl

theorem jobCommit_current {tk : Nat} {o : Obj} {s0 s : State} (h : epochRetired s (handleOf o) o.epoch = false) :
    jobCommit tk o s0 s = jobRun tk o.idx s0 s := by
  rw [jobCommit, h]; rfl

theorem jobCommit_retired {tk : Nat} {o : Obj} {s0 s : State} (h : epochRetired s (handleOf o) o.epoch = true) :
    jobCommit tk o s0 s = jobDiscard o.idx s := by
  rw [jobCommit, h]; rfl

/-- The jobs of a slot are those of ENABLED objects. -/
theorem isEnabled_of_mem_jobsIn {s : State} {e q fr : Nat} {o : Obj} (h : o ∈ jobsIn s e q fr) : isEnabled o = true := by
  have hp := (List.mem_filter.mp h).2
  simp only [Bool.and_eq_true] at hp
  exact hp.1.1.1

theorem execTempoSlotRun_idle {s : State} {slot : Nat} (late : List Nat) (h : 16 ≤ slot ∨ running s = false) :
    execTempoSlotRun slot late s = .next s := by
  rw [execTempoSlotRun, if_pos (by simpa using h)]

theorem execTempoSlotRun_running {s : State} {slot tk : Nat} (late : List Nat) (h : slot < 16) (hr : running s = true)
    (ht : tk = s.gtc / 48000 * 48000 + 3000 * slot) {u : State}
    (hu : u = if slot = 7 then answersInForce (frameStart tk) (toInstant tk s) else toInstant tk s) :
    execTempoSlotRun slot late s = .next ((List.range 24).foldl (engineSlot tk slot late u) u) := by
  subst hu ht
  rw [execTempoSlotRun, if_neg (by simp [hr]; omega)]
  rfl

/-- Outside slot 7, where only engine `e` has jobs, the slot is that engine's. -/
theorem execTempoSlotRun_one {s : State} {slot tk e : Nat} (late : List Nat) (h : slot < 16) (h7 : slot ≠ 7) (hr : running s = true)
    (ht : tk = s.gtc / 48000 * 48000 + 3000 * slot) (he : e < 24) (hone : ∀ x, x < 24 → x ≠ e → jobsIn s x slot (frameNo tk) = []) :
    execTempoSlotRun slot late s = .next (engineSlot tk slot late (toInstant tk s) (toInstant tk s) e) := by
  rw [execTempoSlotRun_running late h hr ht (if_neg h7).symm, foldl_engineSlot_one (e := e) _ _ _ List.nodup_range,
    if_pos (List.mem_range.mpr he)]
  intro x hx hne
  rw [jobsIn_congr (toInstant_objs tk s)]
  exact hone x (List.mem_range.mp hx) hne

/-- Settles O29: the boundary from its parts, and the slot engine by engine. -/
theorem boundariesAndSlots : Obligations.BoundariesAndSlots := by
  refine ⟨fun s h => execFrameBoundary_parked h, fun s => ⟨dueBoundary_within, dueBoundary_next⟩, fun s b hm hb => ?_,
    fun s b hr hb hle hlt hd hl hc hp htc => ?_, fun s slot late h => execTempoSlotRun_idle late h,
    fun s slot late tk h hr ht => ⟨_, rfl, execTempoSlotRun_running late h hr ht rfl⟩,
    fun s slot late tk h h7 hr ht => ⟨fun hnone => ?_, fun e o he hone hjob hhalt => ⟨fun hlate => ?_, fun hlate hout hep hat hfault => ?_⟩⟩,
    fun tk o s0 s h => jobCommit_retired h⟩
  · subst hb
    obtain ⟨g, hg⟩ := boundaryTime_frame (dueBoundary s) s
    have hosl : (boundaryTime (dueBoundary s) s).osl = s.osl := by rw [hg]
    refine ⟨boundaryTime (dueBoundary s) s, boundaryNoted (dueBoundary s) (boundaryTime (dueBoundary s) s), rfl, ?_, fun hr => ?_, fun hr => ?_⟩
    · rw [boundaryNoted, hosl]
    · rw [exec_frameBoundary, execFrameBoundary_noted hm, hr, if_neg Bool.false_ne_true]
    · rw [exec_frameBoundary, execFrameBoundary_noted hm, hr, if_pos rfl]
  · refine ⟨fun hnil => ?_, fun hset _ => ?_⟩
    · have hnone : ∀ P : Obj → Prop, ∀ o ∈ s.objs, P o := by intro P o ho; rw [hnil] at ho; cases ho
      obtain ⟨t, ht, hgtc, hbd, hobjs, hfreq, hphase, hrcd, hboost⟩ :=
        execFrameBoundary_setup (hnone _) (hnone _) hr hb hle hlt hd hl hc hp htc
      exact ⟨t, (exec_frameBoundary s).trans ht, hgtc, hbd, by rw [hobjs, hnil]; rfl, hfreq, by rw [hrcd, hfreq], hphase, hboost⟩
    · obtain ⟨t, ht, -, -, hobjs, -⟩ :=
        execFrameBoundary_setup (fun o ho => (hset o ho).1) (fun o ho => (hset o ho).2) hr hb hle hlt hd hl hc hp htc
      exact ⟨t, (exec_frameBoundary s).trans ht, hobjs⟩
  · rw [exec_tempoSlotRun, execTempoSlotRun_one late h h7 hr ht (show 0 < 24 by decide) (fun x hx _ => hnone x hx),
      engineSlot_idle _ (by rw [jobsIn_congr (toInstant_objs tk s)]; exact hnone 0 (by decide))]
  · refine ⟨_, rfl, ?_⟩
    rw [exec_tempoSlotRun, execTempoSlotRun_one late h h7 hr ht he hone, engineSlot_falls]
    · rw [jobsIn_congr (toInstant_objs tk s)]; exact hjob
    · rw [toInstant_isl]; exact hhalt
    · rw [engineOut_congr (toInstant_eng tk s)]; exact hlate
  · refine ⟨_, _, _, rfl, rfl, rfl, ?_⟩
    rw [exec_tempoSlotRun, execTempoSlotRun_one late h h7 hr ht he hone, engineSlot_commits]
    · rw [jobCommit_current, jobRun_enabled _ _ hfault rfl]
      · rw [objAt, toInstant_objs]; exact hat
      · exact isEnabled_of_mem_jobsIn (hjob ▸ List.mem_singleton_self o)
      · rw [epochRetired, objOf, toInstant_objs]; exact hep
    · rw [jobsIn_congr (toInstant_objs tk s)]; exact hjob
    · rw [toInstant_isl]; exact hhalt
    · exact hlate
    · rw [engineOut_congr (toInstant_eng tk s)]; exact hout

end Sys2Proof.Machine
end

section
/-! PROOFS. Rings and handles (02): every step, and what it keeps. -/

namespace Sys2Proof.Machine

/-- Every command answers a next state, and that state keeps the queue and the canonical forms: the arms of `exec` one by one. -/
theorem exec_keeps (c : Instr) (s : State) : ∃ t, exec c s = .next t ∧ Keeps s t :=
  match c with
  | .registerWrite addr value => keeps_execRegisterWrite addr value s
  | .gtcLoRead => keeps_execGtcLoRead s
  | .ppsCapLoRead => keeps_execPpsCapLoRead s
  | .gtcDiscEnable => keeps_execGtcDiscEnable s
  | .gtcDiscDisable => keeps_execGtcDiscDisable s
  | .gtcFreqAdjWrite v => keeps_execGtcFreqAdjWrite v s
  | .ppsEdge t falling => keeps_execPpsEdge t falling s
  | .ppsHoldoverTimeout => keeps_execPpsHoldoverTimeout s
  | .frameBoundary => keeps_execFrameBoundary s
  | .tempoSlotRun slot late => keeps_execTempoSlotRun slot late s
  | .slotEnd slot => keeps_execSlotEnd slot s
  | .flagFallLimit h => keeps_execFlagFallLimit h s
  | .rebalanceCastle engine slot => keeps_execRebalanceCastle engine slot s
  | .pathIntegratorRun => keeps_execPathIntegratorRun s
  | .kinematicBroadcastSend => keeps_execKinematicBroadcastSend s
  | .broadcastReceive rec upPos => keeps_execBroadcastReceive rec upPos s
  | .broadcastDeadline => keeps_execBroadcastDeadline s
  | .oslBcastStale => keeps_execOslBcastStale s
  | .geopointPropagate => keeps_execGeopointPropagate s
  | .oslRoleWrite role => keeps_execOslRoleWrite role s
  | .oslSyncOutWrite on => keeps_execOslSyncOutWrite on s
  | .memberPllLock => keeps_execMemberPllLock s
  | .oslLaneTrained port => keeps_execOslLaneTrained port s
  | .coarseLoad boundary => keeps_execCoarseLoad boundary s
  | .skewExchange t1 t2 t3 t4 upOffset => keeps_execSkewExchange t1 t2 t3 t4 upOffset s
  | .oslCalDone => keeps_execOslCalDone s
  | .syncMarkiArrival t => keeps_execSyncMarkiArrival t s
  | .oslMarkSlip => keeps_execOslMarkSlip s
  | .syncClkiLoss => keeps_execSyncClkiLoss s
  | .upstreamSilence => keeps_execUpstreamSilence s
  | .oslMemberLost pos => keeps_execOslMemberLost pos s
  | .oslPacketReceive p crcOk => keeps_execOslPacketReceive p crcOk s
  | .spiWrite addr data => keeps_execSpiWrite addr data s
  | .spiRead addr len => keeps_execSpiRead addr len s
  | .spiQwrite addr data => keeps_execSpiQwrite addr data s
  | .spiQread addr len => keeps_execSpiQread addr len s
  | .spiStatus => keeps_execSpiStatus s
  | .spiBadCommand cmd => keeps_execSpiBadCommand cmd s
  | .ringEnable r cfg => keeps_execRingEnable r cfg s
  | .hifRingReset r => keeps_execHifRingReset r s
  | .hostDetach cause => keeps_execHostDetach cause s
  | .ringsEnClear => keeps_execRingsEnClear s
  | .ringsEnSet => keeps_execRingsEnSet s
  | .sqTailDoorbell n value => keeps_execSqTailDoorbell n value s
  | .cqHeadDoorbell n value => keeps_execCqHeadDoorbell n value s
  | .eqHeadDoorbell n value => keeps_execEqHeadDoorbell n value s
  | .streamHeadDoorbell n value => keeps_execStreamHeadDoorbell n value s
  | .descriptorFetch d => keeps_execDescriptorFetch d s
  | .heldEventDrain => keeps_execHeldEventDrain s
  | .interruptModerationTimeout r => keeps_execInterruptModerationTimeout r s
  | .hostDmaFault a => keeps_execHostDmaFault a s
  | .eventIntervalEnd code h sub => keeps_execEventIntervalEnd code h sub s
  | .nop d => keeps_execNop d s
  | .create d => keeps_execCreate d s
  | .destroy d => keeps_execDestroy d s
  | .setParams d => keeps_execSetParams d s
  | .getParams d => keeps_execGetParams d s
  | .enable d => keeps_execEnable d s
  | .enableTakeEffect h => keeps_execEnableTakeEffect h s
  | .disable d => keeps_execDisable d s
  | .disableTakeEffect h => keeps_execDisableTakeEffect h s
  | .getStatus d => keeps_execGetStatus d s
  | .ringSync d => keeps_execRingSync d s
  | .abort d => keeps_execAbort d s
  | .class1Fault h code => keeps_execClass1Fault h code s
  | .clusterRefCheck h ty release => keeps_execClusterRefCheck h ty release s
  | .clusterRefTimeout h pos => keeps_execClusterRefTimeout h pos s
  | .jobMove d => keeps_execJobMove d s
  | .castleCopyDone h => keeps_execCastleCopyDone h s
  | .castleTakeover h => keeps_execCastleTakeover h s
  | .engineStatus d => keeps_execEngineStatus d s
  | .engineRestore d pass => keeps_execEngineRestore d pass s
  | .engineHung engine => keeps_execEngineHung engine s
  | .tableSwap d => keeps_execTableSwap d s
  | .tableSwapTakeEffect h => keeps_execTableSwapTakeEffect h s
  | .tableSave d => keeps_execTableSave d s
  | .tableSaveWritten key => keeps_execTableSaveWritten key s
  | .tableRestore d => keeps_execTableRestore d s
  | .tableErase d => keeps_execTableErase d s
  | .tableList d => keeps_execTableList d s
  | .stageParams d => keeps_execStageParams d s
  | .groupCommit d => keeps_execGroupCommit d s
  | .groupCommitTakeEffect h => keeps_execGroupCommitTakeEffect h s
  | .groupLockMessage group kind boundary members => keeps_execGroupLockMessage group kind boundary members s
  | .groupLockUnacked h pos => keeps_execGroupLockUnacked h pos s
  | .smEventArrival h off code => keeps_execSmEventArrival h off code s
  | .smTimerExpiry h off timer => keeps_execSmTimerExpiry h off timer s
  | .kinSetConfig d => keeps_execKinSetConfig d s
  | .kinGetConfig d => keeps_execKinGetConfig d s
  | .kinSetOrigin d => keeps_execKinSetOrigin d s
  | .kinEnable d => keeps_execKinEnable d s
  | .kinEnableTakeEffect => keeps_execKinEnableTakeEffect s
  | .kinDisable d => keeps_execKinDisable d s
  | .kinDisableTakeEffect => keeps_execKinDisableTakeEffect s
  | .kinFix d => keeps_execKinFix d s
  | .kinGetState d => keeps_execKinGetState d s
  | .kinPredict d => keeps_execKinPredict d s
  | .nmeaSentence chars tFirst tLast framing => keeps_execNmeaSentence chars tFirst tLast framing s
  | .epochIdleClose => keeps_execEpochIdleClose s
  | .imuSample t frame => keeps_execImuSample t frame s
  | .imuTimeout => keeps_execImuTimeout s
  | .imuRecovered => keeps_execImuRecovered s
  | .estimatorRun => keeps_execEstimatorRun s
  | .kinPosReset => keeps_execKinPosReset s
  | .gnssTimeout => keeps_execGnssTimeout s
  | .drLimitExpiry => keeps_execDrLimitExpiry s
  | .headingTimeout => keeps_execHeadingTimeout s
  | .pathValidTimeout => keeps_execPathValidTimeout s
  | .standstillDetect => keeps_execStandstillDetect s
  | .speedSourceImplausible k => keeps_execSpeedSourceImplausible k s
  | .speedSourceRestore k => keeps_execSpeedSourceRestore k s
  | .isobusSpeedTimeout k => keeps_execIsobusSpeedTimeout k s
  | .reverseDetect => keeps_execReverseDetect s
  | .hitchImplausibleTimeout => keeps_execHitchImplausibleTimeout s
  | .hitchRestore => keeps_execHitchRestore s
  | .steerHoldExpiry => keeps_execSteerHoldExpiry s
  | .wingHoldExpiry h => keeps_execWingHoldExpiry h s
  | .wingSensorRestore h => keeps_execWingSensorRestore h s
  | .boardFlush d => keeps_execBoardFlush d s
  | .boardFlushDone h => keeps_execBoardFlushDone h s
  | .boardFlushTimeout h => keeps_execBoardFlushTimeout h s
  | .boardPaint d => keeps_execBoardPaint d s
  | .boardPaintDone h => keeps_execBoardPaintDone h s
  | .boardTileRead d => keeps_execBoardTileRead d s
  | .boardTileWrite d => keeps_execBoardTileWrite d s
  | .boardTileAddr d => keeps_execBoardTileAddr d s
  | .boardInvalidate d => keeps_execBoardInvalidate d s
  | .boardQuery d => keeps_execBoardQuery d s
  | .prefetchCorridor t => keeps_execPrefetchCorridor t s
  | .tileFetchDone h group tx ty data => keeps_execTileFetchDone h group tx ty data s
  | .tileWritebackDone h tx ty => keeps_execTileWritebackDone h tx ty s
  | .tileFlushTimer h tx ty => keeps_execTileFlushTimer h tx ty s
  | .boardHostAccessFail h kind tx ty => keeps_execBoardHostAccessFail h kind tx ty s
  | .tileHoldoutRetry h group tx ty => keeps_execTileHoldoutRetry h group tx ty s
  | .writebackRetry h tx ty => keeps_execWritebackRetry h tx ty s
  | .boardDegradedEnd h => keeps_execBoardDegradedEnd h s
  | .markRecordArrival pos query rec => keeps_execMarkRecordArrival pos query rec s
  | .boardWindow => keeps_execBoardWindow s
  | .lateQuery pos rec => keeps_execLateQuery pos rec s
  | .answerReceive rec => keeps_execAnswerReceive rec s
  | .schedChannelCmd d => keeps_execSchedChannelCmd d s
  | .schedSectionCmd d => keeps_execSchedSectionCmd d s
  | .schedGate d => keeps_execSchedGate d s
  | .schedRate d => keeps_execSchedRate d s
  | .schedCancel d => keeps_execSchedCancel d s
  | .schedLatencySet d => keeps_execSchedLatencySet d s
  | .schedLatencySave d => keeps_execSchedLatencySave d s
  | .schedLatencyErase d => keeps_execSchedLatencyErase d s
  | .predictorFire h lag => keeps_execPredictorFire h lag s
  | .prechargeFire h lag => keeps_execPrechargeFire h lag s
  | .latencyWindowClose h vbat t0 codes => keeps_execLatencyWindowClose h vbat t0 codes s
  | .schedLatencyShift h => keeps_execSchedLatencyShift h s
  | .schedValveStuck h => keeps_execSchedValveStuck h s
  | .latencyPeriodicSave => keeps_execLatencyPeriodicSave s
  | .sectionRecordReceive pos rec => keeps_execSectionRecordReceive pos rec s
  | .tcTimesResend h => keeps_execTcTimesResend h s
  | .rowNoSeedTimeout h => keeps_execRowNoSeedTimeout h s
  | .loopStage d => keeps_execLoopStage d s
  | .loopSeal d => keeps_execLoopSeal d s
  | .loopSetpoint d => keeps_execLoopSetpoint d s
  | .loopMode d => keeps_execLoopMode d s
  | .loopManual d => keeps_execLoopManual d s
  | .loopRc d => keeps_execLoopRc d s
  | .loopBankRead d => keeps_execLoopBankRead d s
  | .transferTimeExpiry h => keeps_execTransferTimeExpiry h s
  | .loopFeTimeout h => keeps_execLoopFeTimeout h s
  | .trcArm => keeps_execTrcArm s
  | .trcStop => keeps_execTrcStop s
  | .trcForce => keeps_execTrcForce s
  | .traceRecord => keeps_execTraceRecord s
  | .traceDrain => keeps_execTraceDrain s
  | .pgGroupConfig d => keeps_execPgGroupConfig d s
  | .pgTripConfig d => keeps_execPgTripConfig d s
  | .pgTripClear d => keeps_execPgTripClear d s
  | .pgCommConfig d => keeps_execPgCommConfig d s
  | .pgCommutate d => keeps_execPgCommutate d s
  | .pgStatus d => keeps_execPgStatus d s
  | .periodStart g => keeps_execPeriodStart g s
  | .pgCompareEdge h clr => keeps_execPgCompareEdge h clr s
  | .tripInputAssert n => keeps_execTripInputAssert n s
  | .tripReleaseClear n => keeps_execTripReleaseClear n s
  | .blankingEnd h => keeps_execBlankingEnd h s
  | .swnTransition p high t => keeps_execSwnTransition p high t s
  | .deadTimeMax h => keeps_execDeadTimeMax h s
  | .commutationInput g gpio level => keeps_execCommutationInput g gpio level s
  | .swCmd d => keeps_execSwCmd d s
  | .swCmdTakeEffect h => keeps_execSwCmdTakeEffect h s
  | .swClear d => keeps_execSwClear d s
  | .swGroupStatus d => keeps_execSwGroupStatus d s
  | .swInPinEdge gpio level => keeps_execSwInPinEdge gpio level s
  | .swCurrentLimit line t => keeps_execSwCurrentLimit line t s
  | .swLimitTimeout line => keeps_execSwLimitTimeout line s
  | .swShortCircuit line t => keeps_execSwShortCircuit line t s
  | .swRetryDelayEnd line => keeps_execSwRetryDelayEnd line s
  | .swThermalConditionEnd line => keeps_execSwThermalConditionEnd line s
  | .swDtLimitReached line tj tcase => keeps_execSwDtLimitReached line tj tcase s
  | .swDtRecover line tj tcase => keeps_execSwDtRecover line tj tcase s
  | .swThermalLatch line tj => keeps_execSwThermalLatch line tj s
  | .swFuseTick line codes tj tcase => keeps_execSwFuseTick line codes tj tcase s
  | .swClampEvent line us => keeps_execSwClampEvent line us s
  | .swOpenLoadInterval line us peak => keeps_execSwOpenLoadInterval line us peak s
  | .swGroupAverage => keeps_execSwGroupAverage s
  | .solBoostConfig d => keeps_execSolBoostConfig d s
  | .solCmd d => keeps_execSolCmd d s
  | .solClear d => keeps_execSolClear d s
  | .solBoostStatus d => keeps_execSolBoostStatus d s
  | .solOnCommand h => keeps_execSolOnCommand h s
  | .solOffCommand h => keeps_execSolOffCommand h s
  | .boostConverterPeriod t volts limit => keeps_execBoostConverterPeriod t volts limit s
  | .vboostReached t volts => keeps_execVboostReached t volts s
  | .boostWaitExpiry h => keeps_execBoostWaitExpiry h s
  | .boostOvervoltage volts => keeps_execBoostOvervoltage volts s
  | .boostEnd h t atCurrent => keeps_execBoostEnd h t atCurrent s
  | .peakEnd h => keeps_execPeakEnd h s
  | .solRegulatorThreshold h t upper => keeps_execSolRegulatorThreshold h t upper s
  | .solDecayEnd h t => keeps_execSolDecayEnd h t s
  | .solTripCurrent h t => keeps_execSolTripCurrent h t s
  | .solOpenTimeout h => keeps_execSolOpenTimeout h s
  | .solSignatureWindowClose h t0 codes last => keeps_execSolSignatureWindowClose h t0 codes last s
  | .axisTarget d => keeps_execAxisTarget d s
  | .axisStop d => keeps_execAxisStop d s
  | .axisCompare d => keeps_execAxisCompare d s
  | .axisHome d => keeps_execAxisHome d s
  | .axisSetPos d => keeps_execAxisSetPos d s
  | .generatorUpdate => keeps_execGeneratorUpdate s
  | .axisCompareFire h => keeps_execAxisCompareFire h s
  | .stepinEdge n t => keeps_execStepinEdge n t s
  | .stepinTimeout h => keeps_execStepinTimeout h s
  | .axisIdleTimeout h => keeps_execAxisIdleTimeout h s
  | .axisEnableSetupEnd h => keeps_execAxisEnableSetupEnd h s
  | .axisLimitAssert gpio level => keeps_execAxisLimitAssert gpio level s
  | .limitChatter h gpio => keeps_execLimitChatter h gpio s
  | .homeInputEdge gpio level => keeps_execHomeInputEdge gpio level s
  | .axisFeTimeout h => keeps_execAxisFeTimeout h s
  | .fbSetPos d => keeps_execFbSetPos d s
  | .fbClear d => keeps_execFbClear d s
  | .fbFilterSet d => keeps_execFbFilterSet d s
  | .fbEncoConfig d => keeps_execFbEncoConfig d s
  | .filteredEdge inp level t n => keeps_execFilteredEdge inp level t n s
  | .serialReadStart port => keeps_execSerialReadStart port s
  | .serialFrameDone port line bs => keeps_execSerialFrameDone port line bs s
  | .ainSample n t code => keeps_execAinSample n t code s
  | .ainRangeTimeout h => keeps_execAinRangeTimeout h s
  | .encoSynthStep j => keeps_execEncoSynthStep j s
  | .canSend d => keeps_execCanSend d s
  | .canRead d => keeps_execCanRead d s
  | .canReadDone h fifo => keeps_execCanReadDone h fifo s
  | .canFilterSet d => keeps_execCanFilterSet d s
  | .canTxConfig d => keeps_execCanTxConfig d s
  | .canTxRelease d => keeps_execCanTxRelease d s
  | .canSignalWrite d => keeps_execCanSignalWrite d s
  | .canWakeConfig d => keeps_execCanWakeConfig d s
  | .canInhOff d => keeps_execCanInhOff d s
  | .canFrameReceived h f t => keeps_execCanFrameReceived h f t s
  | .canFrameTransmitted h buf start t => keeps_execCanFrameTransmitted h buf start t s
  | .canTxError h e => keeps_execCanTxError h e s
  | .canPeriodicQueue h buf => keeps_execCanPeriodicQueue h buf s
  | .canBusOffRecovery h => keeps_execCanBusOffRecovery h s
  | .loneNode h => keeps_execLoneNode h s
  | .loneNodeThrottle h => keeps_execLoneNodeThrottle h s
  | .idcoll h buf => keeps_execIdcoll h buf s
  | .canWake reason port f => keeps_execCanWake reason port f s
  | .isbConfig d => keeps_execIsbConfig d s
  | .isbPoolLoad d => keeps_execIsbPoolLoad d s
  | .isbPoolSave d => keeps_execIsbPoolSave d s
  | .isbPgnSend d => keeps_execIsbPgnSend d s
  | .isbPgnRead d => keeps_execIsbPgnRead d s
  | .isbStatus d => keeps_execIsbStatus d s
  | .addressClaimStart => keeps_execAddressClaimStart s
  | .addressClaimTimeout => keeps_execAddressClaimTimeout s
  | .addressClaimReceived src name => keeps_execAddressClaimReceived src name s
  | .requestForAddressClaimed src => keeps_execRequestForAddressClaimed src s
  | .tpConnectionRequest src pgn size bcast => keeps_execTpConnectionRequest src pgn size bcast s
  | .tpMessageComplete send peer pgn prio data => keeps_execTpMessageComplete send peer pgn prio data s
  | .tpTimeout send peer pgn reason => keeps_execTpTimeout send peer pgn reason s
  | .tcStatusReceived inst addr version => keeps_execTcStatusReceived inst addr version s
  | .tcStatusLost => keeps_execTcStatusLost s
  | .tcPoolResponse ok err => keeps_execTcPoolResponse ok err s
  | .setpointCondensedWorkState group value t => keeps_execSetpointCondensedWorkState group value t s
  | .tcProcessData e pd value => keeps_execTcProcessData e pd value s
  | .measurementCommand e pd cmd value => keeps_execMeasurementCommand e pd cmd value s
  | .pdMeasurementTrigger k => keeps_execPdMeasurementTrigger k s
  | .workStateDisagreeTimeout h => keeps_execWorkStateDisagreeTimeout h s
  | .legacyFrame w => keeps_execLegacyFrame w s
  | .legacyInvalidFrame clocks w => keeps_execLegacyInvalidFrame clocks w s
  | .legacyTick => keeps_execLegacyTick s
  | .enaNEdge high => keeps_execEnaNEdge high s
  | .legacyComloss => keeps_execLegacyComloss s
  | .legacyLockoutEnd => keeps_execLegacyLockoutEnd s
  | .fsPromote d => keeps_execFsPromote d s
  | .fsStatus d => keeps_execFsStatus d s
  | .promotionTakeEffect => keeps_execPromotionTakeEffect s
  | .secInfo d => keeps_execSecInfo d s
  | .secChallenge d => keeps_execSecChallenge d s
  | .secOpen d => keeps_execSecOpen d s
  | .secClose d => keeps_execSecClose d s
  | .secProvision d => keeps_execSecProvision d s
  | .secKeyLoad d => keeps_execSecKeyLoad d s
  | .secKeyErase d => keeps_execSecKeyErase d s
  | .secPolicy d => keeps_execSecPolicy d s
  | .secFwBegin d => keeps_execSecFwBegin d s
  | .secFwWrite d => keeps_execSecFwWrite d s
  | .secFwCommit d => keeps_execSecFwCommit d s
  | .secDebugUnlock d => keeps_execSecDebugUnlock d s
  | .secZeroize d => keeps_execSecZeroize d s
  | .challengeExpiry sq => keeps_execChallengeExpiry sq s
  | .sessionIdleTimeout sq => keeps_execSessionIdleTimeout sq s
  | .sessionTagFailures sq => keeps_execSessionTagFailures sq s
  | .secLockoutEnd slot => keeps_execSecLockoutEnd slot s
  | .zeroizePin => keeps_execZeroizePin s
  | .zeroizeEraseDone => keeps_execZeroizeEraseDone s
  | .islWdtService d => keeps_execIslWdtService d s
  | .islFaultClear d => keeps_execIslFaultClear d s
  | .faultClearTakeEffect => keeps_execFaultClearTakeEffect s
  | .islReset d => keeps_execIslReset d s
  | .softResetStart => keeps_execSoftResetStart s
  | .islLogRead d => keeps_execIslLogRead d s
  | .islLockWrite => keeps_execIslLockWrite s
  | .wdtArm => keeps_execWdtArm s
  | .wdtDisarm => keeps_execWdtDisarm s
  | .estopNLow => keeps_execEstopNLow s
  | .estopReleaseTimer => keeps_execEstopReleaseTimer s
  | .watchdogExpiry => keeps_execWatchdogExpiry s
  | .holdTimerExpiry => keeps_execHoldTimerExpiry s
  | .tclkStop => keeps_execTclkStop s
  | .pllUnlock => keeps_execPllUnlock s
  | .aclkFreqDeviation ppm => keeps_execAclkFreqDeviation ppm s
  | .debugHalt engine => keeps_execDebugHalt engine s
  | .pdieLinkLoss => keeps_execPdieLinkLoss s
  | .vioFLow => keeps_execVioFLow s
  | .vioHLow => keeps_execVioHLow s
  | .vddWarning mv => keeps_execVddWarning mv s
  | .vddWarningEnd mv lowest => keeps_execVddWarningEnd mv lowest s
  | .vddWarningSustained => keeps_execVddWarningSustained s
  | .brownOutReset => keeps_execBrownOutReset s
  | .powerOnReset => keeps_execPowerOnReset s
  | .resetNLow => keeps_execResetNLow s
  | .vbatUvloEnter group mv => keeps_execVbatUvloEnter group mv s
  | .vbatUvloLeave group mv => keeps_execVbatUvloLeave group mv s
  | .vbatWarningEnter group mv => keeps_execVbatWarningEnter group mv s
  | .vbatWarningLeave group mv => keeps_execVbatWarningLeave group mv s
  | .vbatHighEnter group mv => keeps_execVbatHighEnter group mv s
  | .vbatHighLeave group mv => keeps_execVbatHighLeave group mv s
  | .pwrSleep d => keeps_execPwrSleep d s
  | .sleepEntry => keeps_execSleepEntry s
  | .sleepComplete t => keeps_execSleepComplete t s
  | .wakeSource reason t => keeps_execWakeSource reason t s
  | .wakeTimerExpiry => keeps_execWakeTimerExpiry s
  | .pwrPark d => keeps_execPwrPark d s
  | .pwrWakeConfig d => keeps_execPwrWakeConfig d s
  | .pwrBootPolicy d => keeps_execPwrBootPolicy d s
  | .pwrBootConfirm d => keeps_execPwrBootConfirm d s
  | .pwrBootReport d => keeps_execPwrBootReport d s
  | .pwrRetryBoot d => keeps_execPwrRetryBoot d s
  | .resetRelease straps => keeps_execResetRelease straps s
  | .bootStageComplete t => keeps_execBootStageComplete t s
  | .bootStageFail err alg => keeps_execBootStageFail err alg s
  | .endOfBoot t => keeps_execEndOfBoot t s
  | .bootConfirmTimeout => keeps_execBootConfirmTimeout s
  | .sysEchMapWrite v => keeps_execSysEchMapWrite v s
  | .pcieLinkTrained lanes => keeps_execPcieLinkTrained lanes s
  | .latencyRecordsWritten => keeps_execLatencyRecordsWritten s
  | .parkWritesDone => keeps_execParkWritesDone s
  | .estopNHigh => keeps_execEstopNHigh s
  | .zeroizeNHigh => keeps_execZeroizeNHigh s
  | .vioFRecovered => keeps_execVioFRecovered s
  | .vioHRecovered => keeps_execVioHRecovered s
  | .pdieLinkRestored => keeps_execPdieLinkRestored s
  | .engineDebugResume engine => keeps_execEngineDebugResume engine s
  | .tripInputRelease n => keeps_execTripInputRelease n s

/-- The step answers a next state, which keeps the canonical forms; the front command is gone from its queue. -/
theorem step_keeps (s : State) : ∃ t, step s = .next t ∧ t.pending = s.pending.tail ∧ (MemOk s → MemOk t) ∧ (ObjsOk s → ObjsOk t) := by
  rcases hp : s.pending with _ | ⟨c, rest⟩
  · exact ⟨s, by simp only [step, hp], hp, id, id⟩
  · obtain ⟨t, ht, hk⟩ := exec_keeps c { s with pending := rest }
    exact ⟨t, by simp only [step, hp, ht], hk.pending, hk.mem, hk.objs⟩

/-- Settles O59: what `exec` keeps of every command, taken to the step. -/
theorem everyStepKeepsTheCanonicalForms : Obligations.EveryStepKeepsTheCanonicalForms := by
  intro s t hm ho h
  obtain ⟨u, hu, hp, hmem, hobjs⟩ := step_keeps s
  obtain rfl : u = t := by rw [hu] at h; injection h
  exact ⟨hmem hm, hobjs ho, hp⟩

/-- Settles O1: each command answers a next state, and so does the idle step. -/
theorem everyStepAnswersNextState : Obligations.EveryStepAnswersNextState :=
  ⟨fun c s => (exec_keeps c s).imp fun _ h => h.1, fun s => (step_keeps s).imp fun _ h => h.1⟩

end Sys2Proof.Machine
end

section
/-! PROOFS. Rings and handles (02): one rule for each operation on rings: what a ring reads after a change, and what the
writing of an entry, an event and a completion leaves alone. -/

namespace Sys2Proof.Machine

/-! ## A ring after a change -/

theorem ringOf_setRing_same {s : State} {r : Nat} (f : Ring → Ring) (h : r < s.hif.rings.length) :
    ringOf (setRing r f s) r = f (ringOf s r) := by
  simp [ringOf, setRing, List.getD_eq_getElem?_getD, h]

theorem ringOf_setRing_ne {r q : Nat} (f : Ring → Ring) (s : State) (h : q ≠ r) : ringOf (setRing r f s) q = ringOf s q := by
  simp [ringOf, setRing, List.getD_eq_getElem?_getD, Ne.symm h]

theorem ringOf_congr {s t : State} (h : t.hif.rings = s.hif.rings) (r : Nat) : ringOf t r = ringOf s r := by
  simp [ringOf, h]

@[simp] theorem setRing_rings_length (r : Nat) (f : Ring → Ring) (s : State) :
    (setRing r f s).hif.rings.length = s.hif.rings.length := by simp [setRing]

/-! ## What the writing of an entry leaves alone -/

/-- Of the host interface, writing entries and sending vectors change the rings, the counts of sent and pending vectors
and the error signal that is due. -/
def EntryHif (s t : State) : Prop :=
  t.hif = { s.hif with
    rings := t.hif.rings, intPend := t.hif.intPend, pba := t.hif.pba, vecSent := t.hif.vecSent, errDue := t.hif.errDue }

theorem EntryHif.trans {s t u : State} (h : EntryHif s t) (k : EntryHif t u) : EntryHif s u := by
  unfold EntryHif at *; rw [k, h]
theorem EntryHif.of_eq {s t : State} (h : t.hif = s.hif) : EntryHif s t := by unfold EntryHif; rw [h]

theorem EntryHif.held {s t : State} (h : EntryHif s t) : t.hif.held = s.hif.held := by rw [h]
theorem EntryHif.lost {s t : State} (h : EntryHif s t) : t.hif.lost = s.hif.lost := by rw [h]
theorem EntryHif.started {s t : State} (h : EntryHif s t) : t.hif.started = s.hif.started := by rw [h]

theorem entryHif_setRing (r : Nat) (f : Ring → Ring) (s : State) : EntryHif s (setRing r f s) := rfl

theorem entryHif_sendVector (v : Nat) (s : State) : EntryHif s (sendVector v s) := by
  unfold sendVector
  split
  · rfl
  · split
    · rfl
    · split <;> rfl

theorem entryHif_signalError (s : State) : EntryHif s (signalError s) := by
  unfold signalError
  split
  · exact entryHif_sendVector _ s
  · rfl

theorem entryHif_ringSignal (r : Nat) (s : State) : EntryHif s (ringSignal r s) :=
  (entryHif_setRing _ _ s).trans (entryHif_sendVector _ _)

theorem entryHif_ringProduce (r : Nat) (e : List Byte) (ev : Option Ev) (now : Bool) (s : State) :
    EntryHif s (ringProduce r e ev now s) := by
  have h := fun f t => (EntryHif.of_eq (ringMemWrite_hif (ringOf s r) (32 * (ringOf s r).tail) t s)).trans (entryHif_setRing r f _)
  unfold ringProduce
  dsimp only
  split
  · exact (h _ _).trans (entryHif_ringSignal _ _)
  · exact h _ _

theorem entryHif_streamWrite (r : Nat) (e : List Byte) (s : State) : EntryHif s (streamWrite r e s) := by
  unfold streamWrite
  split
  · rfl
  · split
    · exact entryHif_ringProduce _ _ _ _ s
    · rfl

/-! ## What raising an event leaves alone -/

/-- What executes and what is deferred stay. -/
structure RunsKept (s t : State) : Prop where
  started : t.hif.started = s.hif.started
  deferred : t.hif.deferred = s.hif.deferred

theorem RunsKept.trans {s t u : State} (h : RunsKept s t) (k : RunsKept t u) : RunsKept s u :=
  ⟨k.started.trans h.started, k.deferred.trans h.deferred⟩
theorem EntryHif.runs {s t : State} (h : EntryHif s t) : RunsKept s t := ⟨by rw [h], by rw [h]⟩

theorem runsKept_holdEvent (e : Ev) (s : State) : RunsKept s (holdEvent e s) := by
  unfold holdEvent; split <;> exact ⟨rfl, rfl⟩

theorem runsKept_deliver (e : Ev) (s : State) : RunsKept s (deliver e s) := by
  unfold deliver
  split
  · exact runsKept_holdEvent e s
  · split
    · exact (entryHif_ringProduce _ _ _ _ s).runs
    · exact runsKept_holdEvent e s

theorem runsKept_raisePlain (t code cls h ep : Nat) (data : List Byte) (s : State) :
    RunsKept s (raisePlain t code cls h ep data s) := by
  unfold raisePlain
  refine RunsKept.trans ?_ ((runsKept_deliver _ _).trans (EntryHif.of_eq (trcEvent_hif _ _)).runs)
  exact ⟨rfl, rfl⟩

theorem runsKept_streamWrite {s t : State} (r : Nat) (e : List Byte) (h : t.hif = s.hif) : RunsKept s (streamWrite r e t) :=
  (EntryHif.of_eq h).runs.trans (entryHif_streamWrite r e t).runs

theorem runsKept_logPut (e : List Byte) (s : State) : RunsKept s (logPut e s) := by
  unfold logPut; exact runsKept_streamWrite 37 e rfl

theorem runsKept_logWriteAt (t code cls lflags h : Nat) (data : List Byte) (s : State) :
    RunsKept s (logWriteAt t code cls lflags h data s) := by
  unfold logWriteAt
  have a := runsKept_logPut (logBytes code cls lflags h t s.isl.logIndex data) s
  dsimp only
  split
  · refine ((a.trans ?_).trans (runsKept_logPut _ _)).trans (runsKept_raisePlain _ _ _ _ _ _ _)
    exact ⟨rfl, rfl⟩
  · exact a

theorem runsKept_raiseE (code cls h ep : Nat) (data : List Byte) (s : State) : RunsKept s (raiseE code cls h ep data s) := by
  unfold raiseE raiseAt
  split
  · exact (runsKept_logWriteAt _ _ _ _ _ _ s).trans (runsKept_raisePlain _ _ _ _ _ _ _)
  · exact runsKept_raisePlain _ _ _ _ _ _ s

/-! ## What completing a descriptor leaves alone -/

/-- Only the host interface and the two memories in which rings lie change. -/
def RingFrame (s t : State) : Prop := t = { s with hif := t.hif, mailbox := t.mailbox, hostMem := t.hostMem }

theorem RingFrame.refl (s : State) : RingFrame s s := rfl
theorem RingFrame.trans {s t u : State} (h : RingFrame s t) (k : RingFrame t u) : RingFrame s u := by
  unfold RingFrame at *; rw [k, h]
theorem ringFrame_hif (s : State) (h : Hif) : RingFrame s { s with hif := h } := rfl

theorem ringFrame_sendVector (v : Nat) (s : State) : RingFrame s (sendVector v s) := by
  unfold sendVector
  split
  · rfl
  · split
    · rfl
    · split <;> rfl

theorem ringFrame_ringMemWrite (g : Ring) (off : Nat) (bs : List Byte) (s : State) : RingFrame s (ringMemWrite g off bs s) := by
  unfold ringMemWrite; split <;> rfl

theorem ringFrame_setRing (r : Nat) (f : Ring → Ring) (s : State) : RingFrame s (setRing r f s) := rfl

theorem ringFrame_ringProduce (r : Nat) (e : List Byte) (ev : Option Ev) (now : Bool) (s : State) :
    RingFrame s (ringProduce r e ev now s) := by
  have h := fun f t => (ringFrame_ringMemWrite (ringOf s r) (32 * (ringOf s r).tail) t s).trans (ringFrame_setRing r f _)
  unfold ringProduce
  dsimp only
  split
  · exact (h _ _).trans ((ringFrame_setRing _ _ _).trans (ringFrame_sendVector _ _))
  · exact h _ _

theorem ringFrame_cqEntry (q : Nat) (e : List Byte) (now : Bool) (s : State) : RingFrame s (cqEntry q e now s) := by
  unfold cqEntry
  split
  · rfl
  · split
    · rfl
    · exact (ringFrame_setRing _ _ s).trans (ringFrame_ringProduce _ _ _ _ _)

theorem ringFrame_postCompletion (x : Started) (r : Reply) (s : State) : RingFrame s (postCompletion x r s) := by
  unfold postCompletion
  dsimp only
  split
  · split <;> rfl
  · split
    · rfl
    · split
      · rfl
      · exact ringFrame_cqEntry _ _ _ s

theorem ringFrame_sqResetEnd (q : Nat) (s : State) : RingFrame s (sqResetEnd q s) := by
  unfold sqResetEnd; split <;> rfl

theorem ringFrame_finish (x : Started) (r : Reply) (s : State) : RingFrame s (finish x r s) :=
  ((ringFrame_postCompletion x r s).trans (ringFrame_hif _ _)).trans (ringFrame_sqResetEnd _ _)

theorem ringFrame_settle : ∀ (n : Nat) (s : State), RingFrame s (settle n s)
  | 0, s => RingFrame.refl s
  | n + 1, s => by
    unfold settle
    split
    · rfl
    · exact (ringFrame_finish _ _ s).trans (ringFrame_settle n _)

theorem ringFrame_complete (d : Desc) (r : Reply) (s : State) : RingFrame s (complete d r s) :=
  (ringFrame_finish _ r s).trans (ringFrame_settle _ _)

/-- Settles O14: the frames of events, and the narrower one of completions. -/
theorem eventFrame : Obligations.EventFrame :=
  ⟨fun s code cls h ep data => (touches_raiseE code cls h ep data s).frame,
    fun s len code cls h sub ep data at' n => (touches_raiseLimited len code cls h sub ep data at' n s).frame,
    fun s d r => ⟨_, rfl, ringFrame_complete d r s⟩⟩

end Sys2Proof.Machine
end

section
/-! PROOFS. Rings and handles (02): enabling and resetting a ring, doorbells, held events and intervals. -/

namespace Sys2Proof.Machine

theorem exec_hifRingReset (r : Nat) (s : State) : exec (.hifRingReset r) s = execHifRingReset r s := rfl
theorem exec_sqTailDoorbell (n v : Nat) (s : State) : exec (.sqTailDoorbell n v) s = execSqTailDoorbell n v s := rfl
theorem exec_cqHeadDoorbell (n v : Nat) (s : State) : exec (.cqHeadDoorbell n v) s = execCqHeadDoorbell n v s := rfl
theorem exec_eqHeadDoorbell (n v : Nat) (s : State) : exec (.eqHeadDoorbell n v) s = execEqHeadDoorbell n v s := rfl
theorem exec_streamHeadDoorbell (n v : Nat) (s : State) : exec (.streamHeadDoorbell n v) s = execStreamHeadDoorbell n v s := rfl
theorem exec_heldEventDrain (s : State) : exec .heldEventDrain s = .next (drain s) := rfl
theorem exec_interruptModerationTimeout (r : Nat) (s : State) :
    exec (.interruptModerationTimeout r) s = execInterruptModerationTimeout r s := rfl

/-! ## RING_ENABLE (R35) -/

/-- The checks of R35 as one error code, 0 where none fails. -/
theorem ringCheck_getD (s : State) (r : Nat) (g : Ring) : (ringCheck s r g).getD 0 =
    if g.base % (if r < 16 then 64 else 32) ≠ 0 then 1
    else if g.size < 2 ∨ 4096 < g.size then 2
    else if g.loc = true ∧ 65536 < g.base % 2 ^ 63 + g.size * (if r < 16 then 64 else 32) then 1
    else if r < 16 ∧ (ringOf s (16 + g.bind)).en = false then 3
    else if s.hif.link = 3 ∧ g.loc = false then 4
    else 0 := by
  unfold ringCheck entrySize mailboxSize mailboxBase linkSpi
  simp only [Bool.not_eq_true, beq_iff_eq, apply_ite (Option.getD · 0), Option.getD_some, Option.getD_none]

theorem ringCheck_ne_zero {s : State} {r e : Nat} {g : Ring} (h : ringCheck s r g = some e) : e ≠ 0 := by
  unfold ringCheck at h
  grind

theorem ringCfg_size (cfg : Nat) (g : Ring) : (ringCfg cfg g).size = cfg % 2 ^ 13 := by simp [ringCfg, bits]

/-- The ring block that RING_CFG with EN = 1 leaves. -/
def ringStarted (cfg : Nat) (g : Ring) : Option Nat → Ring
  | some e => { ringCfg cfg g with error := true, err := e }
  | none => { ringCfg cfg g with
      en := true, error := false, err := 0, head := 0, tail := 0, phase := true, reserved := 0, unsig := 0, fenced := none }

theorem execRingEnable_enabled {s : State} {r : Nat} (cfg : Nat) (h : (ringOf s r).en = true) : execRingEnable r cfg s = .next s := by
  simp [execRingEnable, h]

theorem execRingEnable_disabled {s : State} {r : Nat} (cfg : Nat) (hr : r < 38) (h : (ringOf s r).en = false) :
    execRingEnable r cfg s
      = .next (setRing r (fun _ => ringStarted cfg (ringOf s r) (ringCheck s r (ringCfg cfg (ringOf s r)))) s) := by
  rw [execRingEnable, if_neg (by simp [h]; omega)]
  dsimp only
  cases ringCheck s r (ringCfg cfg (ringOf s r)) <;> rfl

/-- While a ring is enabled only RING_MOD of its block can be written. -/
theorem ringWrite_enabled {s : State} {r o : Nat} (v : Nat) (h : (ringOf s r).en = true) (ho : o ≠ 0x0C) : ringWrite r o v s = s := by
  simp [ringWrite, h, ho]

/-- Settles O10: the ring block that `ringStarted` gives, check by check. -/
theorem ringEnableValidates : Obligations.RingEnableValidates := by
  refine ⟨fun s r cfg hr hl hen => ?_, fun s r cfg v hr hen => ⟨execRingEnable_enabled cfg hen, fun o ho => ringWrite_enabled v hen ?_⟩,
    fun s r v hr hl => ?_⟩
  · have hg := ringCheck_getD s r (ringCfg cfg (ringOf s r))
    refine ⟨_, ringStarted cfg (ringOf s r) (ringCheck s r (ringCfg cfg (ringOf s r))), execRingEnable_disabled cfg hr hen, rfl,
      ringOf_setRing_same _ (by omega), ?_⟩
    cases hc : ringCheck s r (ringCfg cfg (ringOf s r)) with
    | some e =>
      rw [hc, Option.getD_some] at hg
      simp only [ringStarted]
      refine ⟨ringCfg_size cfg _, rfl, rfl, rfl, rfl, rfl, rfl, ?_, ?_, hg, ?_⟩
      · simp [ringCfg, hen]
      · simp [ringCfg, hen]
      · simpa using ringCheck_ne_zero hc
    | none =>
      rw [hc, Option.getD_none] at hg
      simp only [ringStarted]
      exact ⟨ringCfg_size cfg _, rfl, rfl, rfl, rfl, rfl, rfl, by simp, by simp, hg, by simp⟩
  · simp only [List.mem_cons, List.not_mem_nil, or_false] at ho
    omega
  · have hsame := ringOf_setRing_same (fun g => { g with modTime := v / 2 ^ 16, modCount := v % 2 ^ 16 }) (s := s) (r := r) (by omega)
    refine ⟨_, rfl, by rw [hsame], by rw [hsame], ?_⟩
    unfold ringWrite
    rw [if_pos rfl]
    dsimp only
    rw [hsame]
    rfl

/-! ## HIF_RING_RESET (R36, R48, R68) -/

theorem execHifRingReset_sq {s : State} {r : Nat} (h : r < 16) : execHifRingReset r s = .next (resetSq r s) := by
  rw [execHifRingReset, if_neg (by omega), if_pos h]

theorem execHifRingReset_cq {s : State} {r : Nat} (h : 16 ≤ r) (k : r < 32) : execHifRingReset r s = .next (resetCq r s) := by
  rw [execHifRingReset, if_neg (by omega), if_neg (by omega), if_pos k]

theorem execHifRingReset_eq {s : State} {r : Nat} (h : 32 ≤ r) (k : r < 38) : execHifRingReset r s = .next (resetEq r s) := by
  rw [execHifRingReset, if_neg (by omega), if_neg (by omega), if_neg (by omega), if_pos k]

theorem sessionClose_none {s : State} {q : Nat} (reason : Nat) (h : sessionOn s q = none) : sessionClose q reason s = s := by
  simp [sessionClose, h]

/-- The reset of an SQ with no session: fetching stops, and the unfetched descriptors are dropped. -/
def sqStopped (r : Nat) (s : State) : State := setRing r (fun g => { g with resetting := true, tail := g.head, fenced := none }) s

theorem sqBusy_sqStopped (r q : Nat) (s : State) : sqBusy (sqStopped r s) q = sqBusy s q := rfl

theorem resetSq_none {s : State} {r : Nat} (h : sessionOn s r = none) : resetSq r s = sqResetEnd r (sqStopped r s) := by
  rw [resetSq, sessionClose_none _ h]; rfl

/-- The ring block of an SQ whose reset has ended. -/
def sqCleared (g : Ring) : Ring :=
  { g with en := false, error := false, err := 0, head := 0, tail := 0, resetting := false, fenced := none }

theorem sqResetEnd_done {s : State} {r : Nat} (h : (ringOf s r).resetting = true) (hb : sqBusy s r = false) :
    sqResetEnd r s = setRing r sqCleared s := if_pos (by simp [h, hb])

theorem sqResetEnd_busy {s : State} {r : Nat} (hb : sqBusy s r = true) : sqResetEnd r s = s := if_neg (by simp [hb])

/-- The ring block of a CQ that was reset, and the state with it: completions kept for the CQ are gone. -/
def cqCleared (g : Ring) : Ring :=
  { g with en := false, error := false, err := 0, lost := 0, reserved := 0, head := 0, tail := 0, unsig := 0 }
def cqReset (r : Nat) (s : State) : State :=
  { setRing r cqCleared s with hif := { (setRing r cqCleared s).hif with kept := s.hif.kept.filter fun k => k.cq != r } }

theorem resetCq_unbound {s : State} {r : Nat} (h : cqBound s r = false) : resetCq r s = cqReset r s := if_neg (by simp [h])

/-- Settles O11: the resets by the kind of the ring, and an SQ's by whether something of it still executes. -/
theorem ringResets : Obligations.RingResets := by
  refine ⟨fun s r h => execHifRingReset_sq h, fun s r h => sessionClose_none 2 h, fun s r h hl hs hb => ?_, fun s r h hl hs hb => ?_,
    fun s r h k hc => ?_, fun s r h k hl hc => ?_, fun s => rfl, fun s r h k => ?_⟩
  · have hst : ringOf (sqStopped r s) r = _ := ringOf_setRing_same _ (by omega)
    have hcl : ringOf (setRing r sqCleared (sqStopped r s)) r = _ := ringOf_setRing_same _ (by simp [sqStopped]; omega)
    refine ⟨setRing r sqCleared (sqStopped r s), ?_, ?_⟩
    · rw [exec_hifRingReset, execHifRingReset_sq h, resetSq_none hs, sqResetEnd_done (by rw [hst]) ((sqBusy_sqStopped r r s).trans hb)]
    · rw [hcl, hst]
      exact ⟨rfl, rfl, rfl, rfl, rfl, rfl, fun q hq => by rw [ringOf_setRing_ne _ _ hq, sqStopped, ringOf_setRing_ne _ _ hq], rfl⟩
  · refine ⟨sqStopped r s, ?_, ringOf_setRing_same _ (by omega), fun q hq => ringOf_setRing_ne _ _ hq, rfl⟩
    rw [exec_hifRingReset, execHifRingReset_sq h, resetSq_none hs, sqResetEnd_busy ((sqBusy_sqStopped r r s).trans hb)]
  · rw [exec_hifRingReset, execHifRingReset_cq h k, resetCq, if_pos hc]
  · rcases Nat.lt_or_ge r 32 with h32 | h32
    · have hself : ringOf (cqReset r s) r = cqCleared (ringOf s r) := (ringOf_congr rfl r).trans (ringOf_setRing_same cqCleared (by omega))
      refine ⟨cqReset r s, by rw [exec_hifRingReset, execHifRingReset_cq h h32, resetCq_unbound (hc h32)], ?_⟩
      rw [hself]
      exact ⟨rfl, rfl, rfl, fun q hq => (ringOf_congr rfl q).trans (ringOf_setRing_ne cqCleared s hq), fun _ => rfl, rfl⟩
    · have hself : ringOf (resetEq r s) r = _ := ringOf_setRing_same _ (by omega)
      refine ⟨resetEq r s, by rw [exec_hifRingReset, execHifRingReset_eq h32 k], ?_⟩
      rw [hself]
      exact ⟨rfl, rfl, rfl, fun q hq => ringOf_setRing_ne _ _ hq, fun h => by omega, rfl⟩
  · rw [exec_hifRingReset, execHifRingReset, if_neg k, if_neg (by omega), if_neg (by omega), if_neg (by omega)]

/-! ## Doorbells (R46, R47) -/

theorem dbIgnored_iff {g : Ring} : dbIgnored g = true ↔ g.en = false ∨ g.error = true ∨ g.resetting = true := by
  simp [dbIgnored, or_assoc]

theorem headDoorbell_ignored {s : State} {r : Nat} (v : Nat) (h : dbIgnored (ringOf s r) = true) : headDoorbell r v s = s := if_pos h

theorem headDoorbell_range {s : State} {r v : Nat} (h : dbIgnored (ringOf s r) = false) (hv : (ringOf s r).size ≤ v % 2 ^ 16) :
    headDoorbell r v s = dbInvalid r 5 s := by
  simp only [headDoorbell, h, Bool.false_eq_true, if_false, if_pos hv]

theorem headDoorbell_overrun {s : State} {r v : Nat} (h : dbIgnored (ringOf s r) = false) (hv : v % 2 ^ 16 < (ringOf s r).size)
    (hu : ringUsed (ringOf s r) < (v % 2 ^ 16 + (ringOf s r).size - (ringOf s r).head) % (ringOf s r).size) :
    headDoorbell r v s = dbInvalid r 6 s := by
  simp only [headDoorbell, h, Bool.false_eq_true, if_false, if_neg (Nat.not_le.mpr hv), if_pos hu]

theorem headDoorbell_taken {s : State} {r v : Nat} (h : dbIgnored (ringOf s r) = false) (hv : v % 2 ^ 16 < (ringOf s r).size)
    (hu : (v % 2 ^ 16 + (ringOf s r).size - (ringOf s r).head) % (ringOf s r).size ≤ ringUsed (ringOf s r)) :
    headDoorbell r v s = setRing r (fun g => { g with head := v % 2 ^ 16, unsig := if v % 2 ^ 16 = g.tail then 0 else g.unsig }) s := by
  simp only [headDoorbell, h, Bool.false_eq_true, if_false, if_neg (Nat.not_le.mpr hv), if_neg (Nat.not_lt.mpr hu)]

/-- The ring is stopped with its error, and DB_INVALID is set. -/
def ringError (e : Nat) (g : Ring) : Ring := { g with error := true, err := e }
def ringStopped (r e : Nat) (s : State) : State :=
  { setRing r (ringError e) s with hif := { (setRing r (ringError e) s).hif with dbInvalid := true } }

theorem dbInvalid_eq (r e : Nat) (s : State) :
    dbInvalid r e s = signalError (raise0 0x0081 0 (leBytes 1 r ++ leBytes 1 e) (ringStopped r e s)) := rfl

/-- What executes and what is deferred go on after an invalid doorbell. -/
theorem runsKept_dbInvalid (r e : Nat) (s : State) : RunsKept s (dbInvalid r e s) := by
  rw [dbInvalid_eq]
  refine RunsKept.trans ⟨?_, ?_⟩ ((runsKept_raiseE 0x0081 0 0 0 _ (ringStopped r e s)).trans (entryHif_signalError _).runs) <;> rfl

/-- Settles O12: the judgement of a tail doorbell and of a head doorbell, and what an invalid one does. -/
theorem doorbellsAreJudged : Obligations.DoorbellsAreJudged := by
  refine ⟨fun s n v hn h => ?_, fun s n v hn h hv hu => ?_, fun s n v hn h hv hu => ?_, fun s n v hn h hv => ?_, fun s r v g hg => ?_,
    fun s q x => ⟨rfl, fun hx hq => ?_⟩, fun s r e hr hl => ?_⟩
  · rw [exec_sqTailDoorbell, execSqTailDoorbell]
    exact congrArg _ (if_pos (Or.inr (dbIgnored_iff.mpr h)))
  · simp only [exec_sqTailDoorbell, execSqTailDoorbell, h, Nat.not_le.mpr hn, Nat.not_le.mpr hv, Nat.not_lt.mpr hu,
      Bool.false_eq_true, or_self, if_false]
  · simp only [exec_sqTailDoorbell, execSqTailDoorbell, h, Nat.not_le.mpr hn, Nat.not_le.mpr hv, hu, Bool.false_eq_true, or_self,
      if_false, if_true]
  · simp only [exec_sqTailDoorbell, execSqTailDoorbell, h, Nat.not_le.mpr hn, hv, Bool.false_eq_true, or_self, if_false, if_true]
  · subst hg
    refine ⟨headDoorbell r v s, fun n hn hr => ?_, fun n hn hr => ?_, fun n hn hr => ?_, fun h => headDoorbell_ignored v (dbIgnored_iff.mpr h),
      headDoorbell_range, headDoorbell_overrun, headDoorbell_taken⟩
    · rw [exec_cqHeadDoorbell, execCqHeadDoorbell, if_neg (by omega), hr]
    · rw [exec_eqHeadDoorbell, execEqHeadDoorbell, if_neg (by omega), hr]
    · rw [exec_streamHeadDoorbell, execStreamHeadDoorbell, if_neg (by omega), hr]
  · exact List.length_pos_of_mem (List.mem_filter.mpr ⟨hx, by simp [hq]⟩)
  · have hk := runsKept_dbInvalid r e s
    have hself : ringOf (ringStopped r e s) r = ringError e (ringOf s r) := (ringOf_congr rfl r).trans (ringOf_setRing_same _ (by omega))
    exact ⟨ringStopped r e s, rfl, hself, fun q hq => (ringOf_congr rfl q).trans (ringOf_setRing_ne (ringError e) s hq), rfl, dbInvalid_eq r e s,
      hk.started, hk.deferred⟩

/-! ## HELD_EVENT_DRAIN, intervals and moderation (R54, R55, R57, R545) -/

theorem touches_writeReattached (s : State) : Touches s (writeReattached s) := by
  unfold writeReattached
  split
  · exact Touches.refl s
  · split
    · exact Touches.refl s
    · split
      · exact (touches_hif s _).trans (touches_ringProduce _ _ _ _ _)
      · exact Touches.refl s

theorem touches_drainHeld : ∀ (n : Nat) (s : State), Touches s (drainHeld n s)
  | 0, s => Touches.refl s
  | n + 1, s => by
    unfold drainHeld
    split
    · exact Touches.refl s
    · split
      · exact Touches.refl s
      · split
        · exact ((touches_hif s _).trans (touches_ringProduce _ _ _ _ _)).trans (touches_drainHeld n _)
        · exact Touches.refl s

theorem touches_writeEventLost (s : State) : Touches s (writeEventLost s) := by
  unfold writeEventLost
  split
  · exact Touches.refl s
  · exact (touches_hif s _).trans (touches_raise0 _ _ _ _)

theorem touches_drain (s : State) : Touches s (drain s) := by
  unfold drain
  dsimp only
  split
  · exact touches_writeReattached s
  · exact ((touches_writeReattached s).trans (touches_drainHeld _ _)).trans (touches_writeEventLost _)

theorem drainHeld_nil {s : State} (n : Nat) (h : s.hif.held = []) : drainHeld n s = s := by
  cases n with
  | zero => rfl
  | succ n => simp only [drainHeld, h]

theorem drainHeld_noQueue {s : State} (n : Nat) (h : ∀ c, evqFor s c = none) : drainHeld n s = s := by
  cases n with
  | zero => rfl
  | succ n => cases hs : s.hif.held <;> simp only [drainHeld, hs, h]

/-- The oldest held event goes to its EQ where that has room. -/
theorem drainHeld_cons {s : State} {e : Ev} {rest : List Ev} {q : Nat} (n : Nat) (h : s.hif.held = e :: rest) (hq : evqFor s e.code = some q)
    (hs : ringServed s q = true) (hr : ringRoom (ringOf s q) = true) : drainHeld (n + 1) s
      = drainHeld n (ringProduce q (evBytes (evLate s e)) (some e) (evUrgent e) { s with hif := { s.hif with held := rest } }) := by
  rw [drainHeld]
  simp only [h, hq, hs, hr, Bool.and_self, if_true]

theorem writeEventLost_none {s : State} (h : s.hif.lost = 0) : writeEventLost s = s := if_pos (Or.inl h)
theorem writeEventLost_held {s : State} (h : s.hif.held ≠ []) : writeEventLost s = s := if_pos (by simp [h])

theorem writeReattached_none {s : State} (h : s.hif.reattach = false ∨ evqFor s 0x0082 = none) : writeReattached s = s := by
  rcases h with h | h
  · exact if_pos (by simp [h])
  · unfold writeReattached
    split
    · rfl
    · simp only [evReattached, h]

/-- Where HIF_REATTACHED is not due, the drain is that of the queue, and of EVENT_LOST after it. -/
theorem drain_attached {s : State} (h : s.hif.reattach = false) : drain s = writeEventLost (drainHeld 256 s) := by
  rw [drain, writeReattached_none (.inl h)]
  exact if_neg (by simp [h])

/-- With one event held and nothing lost, the drain writes that event. -/
theorem drain_one {s : State} {e : Ev} {q : Nat} (h : s.hif.held = [e]) (hl : s.hif.lost = 0) (ha : s.hif.reattach = false)
    (hq : evqFor s e.code = some q) (hs : ringServed s q = true) (hr : ringRoom (ringOf s q) = true) :
    drain s = ringProduce q (evBytes (evLate s e)) (some e) (evUrgent e) { s with hif := { s.hif with held := [] } } := by
  have hk := entryHif_ringProduce q (evBytes (evLate s e)) (some e) (evUrgent e) { s with hif := { s.hif with held := [] } }
  rw [drain_attached ha, drainHeld_cons 255 h hq hs hr, drainHeld_nil _ hk.held, writeEventLost_none (hk.lost.trans hl)]

/-- With no EQ enabled nothing is written. -/
theorem drain_noQueue {s : State} (h : ∀ c, evqFor s c = none) (hl : s.hif.lost = 0 ∨ s.hif.held ≠ []) : drain s = s := by
  rw [drain, writeReattached_none (.inr (h _)), drainHeld_noQueue _ h]
  split
  · rfl
  · exact hl.elim writeEventLost_none writeEventLost_held

/-- The interval of a code, a handle and a part that runs. -/
def intervalOf (s : State) (c h k : Nat) : Option Interval := s.hif.intervals.find? fun i => i.code == c && i.handle == h && i.sub == k

theorem execEventIntervalEnd_silent {s : State} {i : Interval} {c h k : Nat} (hi : intervalOf s c h k = some i) (h0 : i.count = 0) :
    execEventIntervalEnd c h k s = .next { toInstant i.ends s with hif := { s.hif with intervals := s.hif.intervals.erase i } } := by
  rw [intervalOf] at hi
  simp only [execEventIntervalEnd, hi, h0, if_true, toInstant_hif]

theorem execEventIntervalEnd_counted {s : State} {i : Interval} {c h k : Nat} (hi : intervalOf s c h k = some i) (h0 : 0 < i.count) :
    execEventIntervalEnd c h k s = .next (raiseAt i.gtc c i.cls h i.epoch
      (if i.countLen = 0 then i.data else putAt (padTo 11 i.data) i.countAt (satBytes i.countLen i.count))
      { toInstant i.ends s with hif := { s.hif with
        intervals := s.hif.intervals.erase i ++ [{ i with count := 0, ends := i.ends + i.length }] } }) := by
  rw [intervalOf] at hi
  simp only [execEventIntervalEnd, hi, if_neg (Nat.ne_of_gt h0), toInstant_hif]

theorem execEventIntervalEnd_idle {s : State} {c h k : Nat} (hi : intervalOf s c h k = none) : execEventIntervalEnd c h k s = .next s := by
  rw [intervalOf] at hi
  simp only [execEventIntervalEnd, hi]

/-- Settles O18: the drain, the end of an interval and the moderation timeout, each by what there is to write. -/
theorem heldEventsAndIntervals : Obligations.HeldEventsAndIntervals := by
  refine ⟨fun s e q h hl ha hq hs hr => ?_, fun s h hl => ?_, fun s => ⟨drain s, rfl, (touches_drain s).frame⟩,
    fun s i c h k hi h0 => execEventIntervalEnd_silent hi h0, fun s i c h k hi h0 => ⟨_, rfl, execEventIntervalEnd_counted hi h0⟩,
    fun s c h k hi => execEventIntervalEnd_idle ?_, fun s r g hg => ⟨_, rfl, ?_⟩⟩
  · rw [exec_heldEventDrain, drain_one h hl ha hq hs hr]; rfl
  · rw [exec_heldEventDrain, drain_noQueue h hl]
  · exact List.find?_eq_none.mpr fun i hm => by have := hi i hm; simpa [and_assoc] using this
  · subst hg
    rw [exec_interruptModerationTimeout, execInterruptModerationTimeout]
    dsimp only
    have hrings : ringOf (toInstant ((ringOf s r).unsigAt + (ringOf s r).modTime * 480) s) r = ringOf s r :=
      ringOf_congr (by rw [toInstant_hif]) r
    split
    · rw [ringSignal, show usTicks = 480 from rfl, hrings]
    · rfl

end Sys2Proof.Machine
end

section
/-! PROOFS. Rings and handles (02): objects are created, destroyed, and referenced from the lead. -/

namespace Sys2Proof.Machine

theorem exec_create (d : Desc) (s : State) : exec (.create d) s = execCreate d s := rfl
theorem exec_destroy (d : Desc) (s : State) : exec (.destroy d) s = execDestroy d s := rfl

/-! ## What closing a gate leaves alone: the generations and the indices of the objects -/

/-- No index is taken, freed or given a new generation. -/
structure IndexKept (s t : State) : Prop where
  gens : t.gens = s.gens
  idx : t.objs.map (·.idx) = s.objs.map (·.idx)

theorem IndexKept.refl (s : State) : IndexKept s s := ⟨rfl, rfl⟩
theorem IndexKept.trans {s t u : State} (h : IndexKept s t) (k : IndexKept t u) : IndexKept s u :=
  ⟨k.gens.trans h.gens, k.idx.trans h.idx⟩
theorem IndexKept.after {s t u : State} (k : IndexKept t u) (h : IndexKept s t) : IndexKept s u := h.trans k
theorem Touches.index {s t : State} (h : Touches s t) : IndexKept s t := ⟨by rw [h.frame], by rw [h.frame]⟩

theorem indexKept_foldl {α : Type} {f : State → α → State} (h : ∀ s x, IndexKept s (f s x)) : ∀ (l : List α) (s : State), IndexKept s (l.foldl f s)
  | [], s => .refl s
  | x :: l, s => (h s x).trans (indexKept_foldl h l (f s x))

theorem indexKept_ite {c : Prop} {_ : Decidable c} {s a b : State} (h : IndexKept s a) (k : IndexKept s b) :
    IndexKept s (if c then a else b) := by split <;> assumption

theorem indexKept_updObj (i : Nat) {f : Obj → Obj} (h : ∀ o, (f o).idx = o.idx) (s : State) : IndexKept s (updObj i f s) := by
  refine ⟨rfl, ?_⟩
  simp only [updObj, List.map_map]
  refine List.map_congr_left fun o _ => ?_
  simp only [Function.comp_apply, apply_ite Obj.idx, h, ite_self]

theorem indexKept_updPwm (i : Nat) (f : PwmRt → PwmRt) (s : State) : IndexKept s (updPwm i f s) := by
  unfold updPwm; exact indexKept_updObj i (by intro _; rfl) s
theorem indexKept_updSw (i : Nat) (f : SwRt → SwRt) (s : State) : IndexKept s (updSw i f s) := by
  unfold updSw; exact indexKept_updObj i (by intro _; rfl) s
theorem indexKept_updSol (i : Nat) (f : SolRt → SolRt) (s : State) : IndexKept s (updSol i f s) := by
  unfold updSol; exact indexKept_updObj i (by intro _; rfl) s
theorem indexKept_updChan (i : Nat) (f : ChRt → ChRt) (s : State) : IndexKept s (updChan i f s) := by
  unfold updChan; exact indexKept_updObj i (by intro _; rfl) s
theorem indexKept_boost (s : State) (b : Boost) : IndexKept s { s with boost := b } := ⟨rfl, rfl⟩

theorem indexKept_flowEnd (o : Obj) (s : State) : IndexKept s (flowEnd o s) := by
  unfold flowEnd flowMark
  exact indexKept_ite (indexKept_updChan ..) (.refl s)

theorem indexKept_forcedOff (h : Nat) (s : State) : IndexKept s (forcedOff h s) :=
  indexKept_foldl (fun s o => indexKept_flowEnd o s) _ s

theorem indexKept_swRefresh (i : Nat) (s : State) : IndexKept s (swRefresh i s) := by
  unfold swRefresh
  split
  · exact .refl s
  · exact .after (indexKept_ite (indexKept_forcedOff ..) (.refl _)) (indexKept_ite (.refl s) (indexKept_updSw ..))

theorem indexKept_swOffCmd (i : Nat) (s : State) : IndexKept s (swOffCmd i s) := by
  unfold swOffCmd
  exact .after (indexKept_swRefresh ..) (indexKept_updSw ..)

theorem indexKept_pwmRefresh (i : Nat) (s : State) : IndexKept s (pwmRefresh i s) := by
  unfold pwmRefresh
  split
  · exact .refl s
  · extract_lets s₁ s₂
    have h : IndexKept s s₂ := .after (indexKept_ite (indexKept_forcedOff ..) (.refl _)) (indexKept_updPwm ..)
    split
    · split
      · exact .after (indexKept_swRefresh ..) h
      · exact h
    · exact h

theorem indexKept_pwmGateClose (i : Nat) (s : State) : IndexKept s (pwmGateClose i s) := by
  unfold pwmGateClose
  extract_lets tgt blank s₁
  have h : IndexKept s s₁ := .after (indexKept_pwmRefresh ..) (indexKept_updPwm ..)
  split
  · exact .after (indexKept_swOffCmd ..) h
  · exact h

theorem indexKept_setHs (b : Nat) (on : Bool) (s : State) : IndexKept s (setHs b on s) := by
  unfold setHs
  exact indexKept_ite (.refl s) (indexKept_boost s _)

theorem indexKept_setLs (i : Nat) (on : Bool) (s : State) : IndexKept s (setLs i on s) := by
  unfold setLs; exact indexKept_updSol ..

theorem indexKept_windowReason (i reason : Nat) (s : State) : IndexKept s (windowReason i reason s) := by
  unfold windowReason
  refine .after (indexKept_updSol ..) ?_
  split
  · unfold senseReason chReason
    exact indexKept_foldl (fun _ _ => indexKept_updChan ..) _ s
  · exact .refl s

theorem indexKept_bankSettle (b was : Nat) (s : State) : IndexKept s (bankSettle b was s) := by
  unfold bankSettle
  exact .after (indexKept_ite (indexKept_setHs ..) (indexKept_ite (indexKept_setHs ..) (.refl _)))
    (.after (indexKept_ite (indexKept_foldl (fun _ _ => indexKept_updSol ..) ..) (.refl _))
      (indexKept_foldl (fun _ _ => indexKept_windowReason ..) ..))

theorem indexKept_boostSettle (s : State) : IndexKept s (boostSettle s) := ⟨rfl, rfl⟩

theorem indexKept_boostStart (o : Obj) (s : State) : IndexKept s (boostStart o s) := by
  unfold boostStart
  exact .after (indexKept_boostSettle ..) (.after (indexKept_bankSettle ..) (.after (indexKept_setLs ..) (.after (indexKept_setHs ..)
    (.after (indexKept_boost ..) (indexKept_updSol ..)))))

theorem indexKept_boostBegin (s : State) : IndexKept s (boostBegin s) := by
  unfold boostBegin
  split
  · exact .refl s
  · exact indexKept_ite (indexKept_boostStart ..) (.refl s)

theorem indexKept_solMissed (o : Obj) (s : State) : IndexKept s (solMissed o s) := by
  unfold solMissed
  exact indexKept_ite (.refl s) (.after (indexKept_ite (touches_raiseLimited ..).index (.refl _)) (indexKept_updSol ..))

theorem indexKept_solWindowEnd (i : Nat) (sig : Option Nat) (reason : Nat) (s : State) : IndexKept s (solWindowEnd i sig reason s) := by
  unfold solWindowEnd
  split
  · exact .refl s
  · refine indexKept_ite (.refl s) ?_
    extract_lets s₁
    have h : IndexKept s s₁ := indexKept_updSol ..
    split
    · exact h
    · exact .after (touches_completeDeferred ..).index h

theorem indexKept_windowOpen (i : Nat) (on : Bool) (s : State) : IndexKept s (windowOpen i on s) := by
  unfold windowOpen
  split
  · exact .refl s
  · exact indexKept_updSol ..

theorem indexKept_dequeue (h : Nat) (s : State) : IndexKept s (dequeue h s) := ⟨rfl, rfl⟩

theorem indexKept_solRelease (i : Nat) (s : State) : IndexKept s (solRelease i s) := by
  unfold solRelease
  split
  · exact .refl s
  · exact .after (indexKept_boostBegin ..) (.after (indexKept_boostSettle ..) (.after
      (indexKept_ite (.after (indexKept_bankSettle ..) (.after (indexKept_setLs ..) (indexKept_updSol ..))) (indexKept_updSol ..))
      (indexKept_dequeue ..)))

theorem indexKept_solOff (i : Nat) (s : State) : IndexKept s (solOff i s) := by
  unfold solOff
  split
  · exact .refl s
  · exact indexKept_ite (.refl s) (.after (indexKept_solRelease ..) (.after (indexKept_windowOpen ..) (.after (indexKept_updSol ..)
      (.after (indexKept_solWindowEnd ..) (indexKept_ite (indexKept_solMissed ..) (.refl s))))))

theorem indexKept_gateClose (h : Nat) (s : State) : IndexKept s (gateClose h s) := by
  unfold gateClose
  split
  · exact .refl s
  · exact indexKept_ite (indexKept_pwmGateClose ..) (indexKept_ite (.after (indexKept_swOffCmd ..) (indexKept_updSw ..))
      (indexKept_ite (indexKept_solOff ..) (.refl s)))

theorem indexKept_driverChanged (removed : Bool) (h : Nat) (s : State) : IndexKept s (driverChanged removed h s) := by
  unfold driverChanged
  extract_lets s₁
  have hg : IndexKept s s₁ := indexKept_gateClose ..
  split
  · exact .after (indexKept_ite (indexKept_updPwm ..) (.refl _)) hg
  · exact hg

theorem indexKept_setInvert (ps : List Byte) (clear : Bool) (s : State) : IndexKept s (setInvert ps clear s) := by
  unfold setInvert
  exact indexKept_ite (.refl s) (indexKept_ite ⟨rfl, rfl⟩ ⟨rfl, rfl⟩)

theorem indexKept_sendRef (release : Bool) (ty : Nat) (m : Nat × Nat) (s : State) : IndexKept s (sendRef release ty m s) := ⟨rfl, rfl⟩

theorem indexKept_releaseRefs (ty : Nat) (ms : List (Nat × Nat)) (s : State) : IndexKept s (releaseRefs ty ms s) :=
  indexKept_foldl (fun s m => indexKept_sendRef true ty m s) ms s

theorem indexKept_lineRefresh (ty : Nat) (ps : List Byte) (s : State) : IndexKept s (lineRefresh ty ps s) := by
  unfold lineRefresh
  refine indexKept_ite ?_ (.refl s)
  split
  · exact indexKept_swRefresh ..
  · exact .refl s

theorem objAt_none_of_indexKept {s t : State} {i : Nat} (h : IndexKept s t) (hs : objAt s i = none) : objAt t i = none := by
  have hmem (u : State) : objAt u i = none ↔ i ∉ u.objs.map (·.idx) := by simp [objAt]
  rw [hmem] at hs ⊢
  rwa [h.idx]

/-! ## CREATE (R62) -/

theorem exec_create_passes {s : State} {d : Desc} (h : passes 0x0001 d s = true) : exec (.create d) s = .next (bodyCreate d s) := by
  rw [exec_create, execCreate, runDesc_passes _ h]

theorem bodyCreate_table {s : State} {d : Desc} {b : List Byte} (ht : hType (dHandle d) = tyTable)
    (hb : b = if dPtr d then blockOf s d else []) (h : imageBad s b = none) : bodyCreate d s = createNow d tyTable b s := by
  subst hb
  simp only [bodyCreate, ht, if_true, h]

theorem bodyCreate_object {s : State} {d : Desc} {ty : Nat} {b : List Byte} (ht : ty = hType (dHandle d)) (hn : ty ≠ tyTable)
    (hb : b = if dPtr d then blockOf s d else []) (h : createBad s ty b = none) :
    bodyCreate d s = if (remoteOnly s ty (createBlock ty b) []).isEmpty then createNow d ty (createBlock ty b) s
      else awaitRefs d 0x0001 (dHandle d) (createBlock ty b) (remoteOnly s ty (createBlock ty b) []) s := by
  subst ht hb
  simp only [bodyCreate, if_neg hn, h]

theorem bodyCreate_bad {s : State} {d : Desc} {ty : Nat} {e : PErr} (ht : ty = hType (dHandle d)) (hn : ty ≠ tyTable)
    (h : createBad s ty (if dPtr d then blockOf s d else []) = some e) : bodyCreate d s = failWith d e.status e.result s := by
  subst ht
  simp only [bodyCreate, if_neg hn, h]

theorem createNow_full {s : State} (d : Desc) (ty : Nat) (ps : List Byte) (h : takeIndex s = none) : createNow d ty ps s = fail d 0x000B s := by
  unfold createNow
  rw [h, stNoResource]

/-- CREATE takes an index that no object has. -/
theorem takeIndex_some {s u : State} {i g : Nat} (h : takeIndex s = some ((i, g), u)) :
    objAt s i = none ∧ u = { s with freeCount := s.freeCount + 1 } := by
  unfold takeIndex at h
  dsimp only at h
  split at h
  · cases h
  · next hne =>
    have hpos : 0 < (freeIndices s).length := List.length_pos_iff.mpr (by simpa using hne)
    simp only [Option.some.injEq, Prod.mk.injEq] at h
    obtain ⟨⟨hi, -⟩, hu⟩ := h
    have hmem : i ∈ freeIndices s := by
      rw [← hi, List.getD_eq_getElem _ _ (Nat.mod_lt _ hpos)]
      exact List.getElem_mem _
    refine ⟨?_, hu.symm⟩
    simpa [objAt] using (List.mem_filter.mp hmem).2

/-- The object that CREATE makes. -/
def newObj (s : State) (ty i g : Nat) (ps : List Byte) : Obj :=
  { idx := i, typ := ty, gen := g, params := ps, act := ps, rt := freshRt s ty i, changed := s.gtc }

theorem lineRefresh_other {ty : Nat} (ps : List Byte) (s : State) (h : ty ≠ tyPwmch) : lineRefresh ty ps s = s := if_neg h

theorem loadMark_other (st : Started) {ty : Nat} (s : State) (h : ty ≠ tyNozzle) (k : ty ≠ tyRow) : loadMark st ty s = s := by
  unfold loadMark
  split
  · rfl
  · exact if_neg (by simp [h, k])

/-- The record of a descriptor that executes is a matter of the rings and the sessions. -/
theorem startedOf_objs (s : State) (os : List Obj) (n : Nat) (d : Desc) :
    startedOf { s with objs := os, freeCount := n } d = startedOf s d := by
  simp [startedOf, ringOf, sessionOn]

/-- Making an object that drives nothing adds it to the list, and its session notes the load. -/
theorem createNow_plain {s u : State} {ty i g : Nat} {ps : List Byte} (d : Desc) (hp : ty ≠ tyPwmch) (hd : drivesOnly ty ps [] = [])
    (h : takeIndex s = some ((i, g), u)) : createNow d ty ps s = complete d { handle := some (g * 2 ^ 24 + ty * 2 ^ 16 + i) }
      (loadMark (startedOf s d) ty { u with objs := insertObj (newObj u ty i g ps) s.objs }) := by
  obtain ⟨-, rfl⟩ := takeIndex_some h
  unfold createNow
  rw [h]
  simp only [hd, List.foldl_nil, if_neg hp, lineRefresh_other ps _ hp, handleOf, mkHandle, newObj]
  rw [startedOf_objs]

/-! ## DESTROY (R62, R70) -/

theorem exec_destroy_passes {s : State} {d : Desc} {o : Obj} (h : passes 0x0002 d s = true) (k : objOf s (dHandle d) = some o) :
    exec (.destroy d) s = .next (bodyDestroy d o s) := by
  rw [exec_destroy, execDestroy, runObj_passes _ h k]

/-- The object is removed, and its index takes the next generation. -/
def removeObj (o : Obj) (s : State) : State :=
  { s with
    objs := s.objs.filter fun x => x.idx != o.idx
    gens := (o.idx, if o.gen = 255 then 1 else o.gen + 1) :: s.gens.filter fun x => x.1 != o.idx }

/-- What an object drives and references elsewhere is let go. -/
def releaseObj (o : Obj) (s : State) : State :=
  let s := (drivesOnly o.typ o.params []).foldl (fun s t => driverChanged true t s) s
  let s := if o.typ = tyPwmch then setInvert o.params true s else s
  releaseRefs o.typ (remoteOnly s o.typ o.params []) s

/-- A DISABLED object that nothing references, and no LAYER with marks not written back, is let go and removed. -/
theorem bodyDestroy_removes {s : State} {o : Obj} (d : Desc) (hd : o.ost = .disabled) (he : enablePending s (handleOf o) = false)
    (hr : referenced s (handleOf o) = false) (hl : ¬ (o.typ = tyLayer ∧ ((layerOf o).tiles.any (·.dirty) ∨ (layerOf o).wbs ≠ []))) :
    bodyDestroy d o s = ok d (lineRefresh o.typ o.params (removeObj o (releaseObj o s))) := by
  simp only [bodyDestroy, hd, he, hr, if_neg hl, bne_self_eq_false, Bool.or_self, Bool.false_eq_true, if_false]
  rfl

theorem releaseObj_plain {o : Obj} {s : State} (hp : o.typ ≠ tyPwmch) (hd : drivesOnly o.typ o.params [] = [])
    (hr : remoteOnly s o.typ o.params [] = []) : releaseObj o s = s := by
  simp only [releaseObj, hd, List.foldl_nil, if_neg hp, hr, releaseRefs]

theorem indexKept_releaseObj (o : Obj) (s : State) : IndexKept s (releaseObj o s) := by
  unfold releaseObj
  exact .after (indexKept_releaseRefs ..) (.after (indexKept_ite (indexKept_setInvert ..) (.refl _))
    (indexKept_foldl (fun _ _ => indexKept_driverChanged ..) ..))

theorem objAt_removeObj (o : Obj) (s : State) : objAt (removeObj o s) o.idx = none := by
  simp [objAt, removeObj]

theorem bodyDestroy_layer {s : State} {o : Obj} (d : Desc) (hd : o.ost = .disabled) (he : enablePending s (handleOf o) = false)
    (hr : referenced s (handleOf o) = false) (hl : o.typ = tyLayer ∧ ((layerOf o).tiles.any (·.dirty) ∨ (layerOf o).wbs ≠ [])) :
    bodyDestroy d o s = fail d 0x0505 s := by
  simp only [bodyDestroy, hd, he, hr, if_pos hl, bne_self_eq_false, Bool.or_self, Bool.false_eq_true, if_false]

theorem bodyDestroy_state {s : State} {o : Obj} (d : Desc) (h : o.ost ≠ .disabled ∨ enablePending s (handleOf o) = true) :
    bodyDestroy d o s = fail d 0x000E s := if_pos (by simpa using h)

theorem bodyDestroy_inUse {s : State} {o : Obj} (d : Desc) (hd : o.ost = .disabled) (he : enablePending s (handleOf o) = false)
    (hr : referenced s (handleOf o) = true) : bodyDestroy d o s = fail d 0x000D s := by
  simp only [bodyDestroy, hd, he, hr, bne_self_eq_false, Bool.or_self, Bool.false_eq_true, if_false, if_true, stInUse]

/-! ## CLUSTER_REF_CHECK (R75) -/

theorem execClusterRefCheck_present {s : State} {h ty : Nat} {o : Obj} (ho : objOf s h = some o) :
    execClusterRefCheck h ty false s = .next { s with osl := { s.osl with
      leadRefs := s.osl.leadRefs ++ [(h, ty)]
      outbox := s.osl.outbox ++ [{ kind := .refReply, dst := 0, src := s.osl.position, body := leBytes 4 h ++ leBytes 2 0 }] } } := by
  simp [execClusterRefCheck, ho, stOk]

theorem execClusterRefCheck_absent {s : State} {h ty : Nat} (ho : objOf s h = none) :
    ∃ st, (st = 0x0003 ∨ st = 0x0002) ∧ execClusterRefCheck h ty false s = .next { s with osl := { s.osl with
      outbox := s.osl.outbox ++ [{ kind := .refReply, dst := 0, src := s.osl.position, body := leBytes 4 h ++ leBytes 2 st }] } } := by
  cases hx : s.objs.any (fun o => o.idx == hIndex h && o.typ != hType h) with
  | true => exact ⟨3, .inl rfl, by simp [execClusterRefCheck, ho, hx, stOk, stWrongType]⟩
  | false => exact ⟨2, .inr rfl, by simp [execClusterRefCheck, ho, hx, stOk, stBadHandle]⟩

/-- Settles O21: CREATE and DESTROY by the outcome of their checks, and the references of the lead. -/
theorem objectsAreCreatedAndDestroyed : Obligations.ObjectsAreCreatedAndDestroyed := by
  refine ⟨fun s d ty b hp ht hb => ⟨fun htab hi => ?_, fun hn hc => ?_⟩, fun s d ty ps h => createNow_full d ty ps h,
    fun s d ty ps i g u hp ht hn hpw hps hc hrem hdr hti => ?_, fun s d b i g u hp ht hptr hb hi hdr hti => ?_,
    fun s d ty e hp ht hn hc => ?_, fun s d o hp ho hd he hr hl hpw hdr hrem => ?_, fun s d o hp ho hd he hr hl => ?_,
    fun s d o hp ho hd he hr hl hw => ?_, fun s d o hp ho h => ?_, fun s d o hp ho hd he hr => ?_,
    fun s h ty o ho => execClusterRefCheck_present ho, fun s h ty ho => execClusterRefCheck_absent ho, fun s h ty => rfl⟩
  · rw [exec_create_passes hp, bodyCreate_table (ht ▸ htab) hb hi]
  · rw [exec_create_passes hp, bodyCreate_object ht hn hb hc]
  · refine ⟨newObj u ty i g ps, rfl, rfl, rfl, rfl, rfl, rfl, rfl, rfl, rfl, ?_, (takeIndex_some hti).1, (takeIndex_some hti).2, ?_⟩
    · rw [(takeIndex_some hti).2]; rfl
    · rw [exec_create_passes hp, bodyCreate_object ht hn rfl hc, ← hps, hrem, List.isEmpty_nil, if_pos rfl, createNow_plain d hpw hdr hti]
  · refine ⟨newObj u tyTable i g b, rfl, rfl, rfl, rfl, rfl, ?_⟩
    rw [exec_create_passes hp, bodyCreate_table ht (by rw [hb, if_pos hptr]) hi, createNow_plain d (by decide) hdr hti,
      loadMark_other _ _ (by decide) (by decide)]
  · rw [exec_create_passes hp, bodyCreate_bad ht hn hc]
  · rw [exec_destroy_passes hp ho, bodyDestroy_removes d hd he hr (fun h => hl h.1), releaseObj_plain hpw hdr hrem, lineRefresh_other _ _ hpw]
    rfl
  · have hclean : ¬ (o.typ = tyLayer ∧ ((layerOf o).tiles.any (·.dirty) ∨ (layerOf o).wbs ≠ [])) := by
      rintro ⟨ht, h⟩
      obtain ⟨htiles, hwbs⟩ := hl ht
      rcases h with h | h
      · obtain ⟨t, hm, hdirty⟩ := List.any_eq_true.mp h
        rw [htiles t hm] at hdirty
        cases hdirty
      · exact h hwbs
    have hline := indexKept_lineRefresh o.typ o.params (removeObj o (releaseObj o s))
    refine ⟨lineRefresh o.typ o.params (removeObj o (releaseObj o s)), ?_, objAt_none_of_indexKept hline (objAt_removeObj _ _), ?_⟩
    · rw [exec_destroy_passes hp ho, bodyDestroy_removes d hd he hr hclean]
    · rw [hline.gens, removeObj, (indexKept_releaseObj o s).gens]
  · rw [exec_destroy_passes hp ho, bodyDestroy_layer d hd he hr ⟨hl, hw⟩]
  · rw [exec_destroy_passes hp ho, bodyDestroy_state d h]
  · rw [exec_destroy_passes hp ho, bodyDestroy_inUse d hd he hr]

end Sys2Proof.Machine
end

section
/-! PROOFS. Rings and handles (02): parameters are written, staged and read, and the status is read. -/

namespace Sys2Proof.Machine

theorem exec_setParams (d : Desc) (s : State) : exec (.setParams d) s = execSetParams d s := rfl
theorem exec_stageParams (d : Desc) (s : State) : exec (.stageParams d) s = execStageParams d s := rfl
theorem exec_getParams (d : Desc) (s : State) : exec (.getParams d) s = execGetParams d s := rfl
theorem exec_getStatus (d : Desc) (s : State) : exec (.getStatus d) s = execGetStatus d s := rfl

/-! ## Bytes of a block -/

@[simp] theorem padTo_length (n : Nat) (bs : List Byte) : (padTo n bs).length = n := by
  simp [padTo]; omega

theorem getD_padTo {n k : Nat} (bs : List Byte) (h : k < n) : (padTo n bs).getD k 0 = bs.getD k 0 := by
  simp only [padTo, List.getD_eq_getElem?_getD, List.getElem?_take, h, if_true, List.getElem?_append, List.getElem?_replicate]
  split
  · rfl
  · next hk =>
    rw [List.getElem?_eq_none (by omega)]
    split <;> rfl

theorem getD_putAt_other {bs v : List Byte} {off k : Nat} (h : off ≤ bs.length) (hk : k < off ∨ off + v.length ≤ k) :
    (putAt bs off v).getD k 0 = bs.getD k 0 := by
  rcases hk with hk | hk
  · have := congrArg (·[k]?) (take_putAt (v := v) h)
    simp only [List.getElem?_take, hk, if_true] at this
    simp only [List.getD_eq_getElem?_getD, this]
  · have := congrArg (·[k - (off + v.length)]?) (drop_putAt (v := v) h)
    simp only [List.getElem?_drop, Nat.add_sub_cancel' hk] at this
    simp only [List.getD_eq_getElem?_getD, this]

/-- A slice is its bytes one by one, 0 beyond the end. -/
theorem slice_eq_map (bs : List Byte) (off n : Nat) : slice bs off n = (List.range n).map fun j => bs.getD (off + j) 0 := by
  refine List.ext_getElem? fun j => ?_
  simp only [slice, List.getElem?_append, List.getElem?_take, List.getElem?_drop, List.getElem?_replicate, List.getElem?_map,
    List.length_take, List.length_drop, List.getD_eq_getElem?_getD]
  grind

theorem slice_padTo {n off k : Nat} (bs : List Byte) (h : off + k ≤ n) : slice (padTo n bs) off k = slice bs off k := by
  rw [slice_eq_map, slice_eq_map]
  exact List.map_congr_left fun j hj => getD_padTo bs (by have := List.mem_range.mp hj; omega)

/-- The block that a write gives: the bytes written, and every other byte as it was. -/
theorem writeBlock_some {ty off : Nat} {ps bs qs : List Byte} (h : writeBlock ty ps off bs = some qs) :
    slice qs off bs.length = bs ∧ ∀ k, (k < off ∨ off + bs.length ≤ k) → k < ps.length → k < qs.length → u8 qs k = u8 ps k := by
  have hoff : off ≤ (padTo (max ps.length (off + bs.length)) ps).length := by rw [padTo_length]; omega
  unfold writeBlock at h
  dsimp only at h
  split at h
  · cases h
  · next hn =>
    injection h with h
    subst h
    refine ⟨?_, fun k hk hps hqs => ?_⟩
    · rw [slice_padTo _ (by omega), slice_putAt hoff]
    · rw [padTo_length] at hqs
      rw [u8, u8, getD_padTo _ hqs, getD_putAt_other hoff hk, getD_padTo _ (by omega)]

/-! ## SET_PARAMS (R62, R63) -/

theorem exec_setParams_passes {s : State} {d : Desc} {o : Obj} (h : passes 0x0003 d s = true) (k : objOf s (dHandle d) = some o) :
    exec (.setParams d) s = .next (bodySetParams d o s) := by
  rw [exec_setParams, execSetParams, runObj_passes _ h k]

theorem bodySetParams_bad {s : State} {d : Desc} {o : Obj} {w : Nat × List Byte} {ps : List Byte} {e : PErr} (hw : writeRange s d = .ok w)
    (hb : writeBlock o.typ o.params w.1 w.2 = some ps) (h : paramsBad s o ps = some e) :
    bodySetParams d o s = failWith d e.status e.result s := by
  simp only [bodySetParams, hw, hb, h]

theorem bodySetParams_judged {s : State} {d : Desc} {o : Obj} {w : Nat × List Byte} {ps : List Byte} (hw : writeRange s d = .ok w)
    (hb : writeBlock o.typ o.params w.1 w.2 = some ps) (h : paramsBad s o ps = none) :
    bodySetParams d o s = if (remoteOnly s o.typ ps o.params).isEmpty
      then ok d (loadMark (startedOf s d) o.typ (keepLater d o (applyParams o ps s)))
      else awaitRefs d 0x0003 (handleOf o) ps (remoteOnly s o.typ ps o.params) s := by
  simp only [bodySetParams, hw, hb, h]

/-- Inline bytes number 1 to 24. -/
theorem writeRange_inline {s : State} {d : Desc} (hp : dPtr d = false) (hn : u16 d.bytes 18 = 0 ∨ 24 < u16 d.bytes 18) :
    writeRange s d = .error 0x0004 := by
  simp only [writeRange, hp, Bool.false_eq_true, if_false, if_pos hn, stBadParam]

theorem keepLater_none {s : State} {o : Obj} (d : Desc) (h : commitPending s o = false) : keepLater d o s = s := by
  unfold keepLater
  split
  · simp [h]
  · rfl

/-- No cost is reserved for a DISABLED object, nor where the cost stays (R82). -/
theorem costReserve_none {s : State} {o : Obj} {cost : Nat} (b tag : Nat) (h : o.ost = .disabled ∨ (cost : Int) = costAhead s o) :
    costReserve o cost b tag s = s := by
  rcases h with h | h <;> simp [costReserve, h]

theorem applyParams_plain {s : State} {o : Obj} {ps : List Byte} (hrem : remoteOnly s o.typ o.params ps = [])
    (hnew : drivesOnly o.typ ps o.params = []) (hold : drivesOnly o.typ o.params ps = []) (hp : o.typ ≠ tyPwmch)
    (hc : o.ost = .disabled ∨ (jobCost s o.typ ps : Int) = costAhead s o) : applyParams o ps s
      = updObj o.idx (fun x => { x with params := ps, act := if o.ost = .disabled then ps else x.act, sms := smRebind s o.params ps x.sms }) s := by
  simp only [applyParams, hrem, hnew, hold, releaseRefs, List.foldl_nil, costReserve_none _ _ hc, if_neg hp, beq_iff_eq]

/-! ## STAGE_PARAMS (R92) -/

theorem exec_stageParams_passes {s : State} {d : Desc} {o : Obj} (h : passes 0x0308 d s = true) (k : objOf s (dHandle d) = some o) :
    exec (.stageParams d) s = .next (bodyStageParams d o s) := by
  rw [exec_stageParams, execStageParams, runObj_passes _ h k]

theorem bodyStageParams_state {s : State} {o : Obj} (d : Desc) (h : inGroup s (handleOf o) = false) : bodyStageParams d o s = fail d 0x000E s :=
  if_pos (by simp [h])

theorem bodyStageParams_taken {s : State} {d : Desc} {o : Obj} {w : Nat × List Byte} {ps : List Byte} (hg : inGroup s (handleOf o) = true)
    (hw : writeRange s d = .ok w) (hb : stagedBlock o (o.staged ++ [w]) = some ps) (hok : paramsBad s o ps = none) :
    bodyStageParams d o s = ok d (updObj o.idx (fun x => { x with staged := x.staged ++ [w] })
      (costReserve o (jobCost s o.typ ps) (nextBoundary s.gtc) (stageTag (handleOf o)) s)) := by
  simp only [bodyStageParams, hg, hw, hb, hok, Bool.not_true, Bool.false_eq_true, if_false]

/-! ## GET_PARAMS and GET_STATUS (R62, R74) -/

theorem writeBack_host {d : Desc} {s : State} (bs : List Byte) (r : Reply) (h : ptrMailbox (dBlockPtr d) = false) :
    writeBack d bs r s = complete d { r with writeback := true } { s with hostMem := memWriteN s.hostMem (dBlockPtr d) bs } := by
  simp only [writeBack, ptrWrite, h, Bool.false_eq_true, if_false]

theorem exec_getParams_passes {s : State} {d : Desc} {o : Obj} (h : passes 0x0004 d s = true) (k : objOf s (dHandle d) = some o) :
    exec (.getParams d) s = .next (bodyGetParams d o s) := by
  rw [exec_getParams, execGetParams, runObj_passes _ h k]

theorem exec_getStatus_passes {s : State} {d : Desc} {o : Obj} (h : passes 0x0007 d s = true) (k : objOf s (dHandle d) = some o) :
    exec (.getStatus d) s = .next (bodyGetStatus d o s) := by
  rw [exec_getStatus, execGetStatus, runObj_passes _ h k]

/-- The flags of the status head: pinned, castling, in a group, changes staged. -/
def statusFlags (s : State) (o : Obj) : Nat :=
  b2n (jobTypes.contains o.typ && decide (1 ≤ jobPlacement o.act)) + 2 * b2n (moveOf s (handleOf o)).isSome
    + 4 * b2n (inGroup s (handleOf o)) + 8 * b2n (!o.staged.isEmpty)

/-- Four flags as a number are read back bit by bit. -/
theorem bit_flags (a b c d : Bool) : b2n a + 2 * b2n b + 4 * b2n c + 8 * b2n d < 16
    ∧ bit (b2n a + 2 * b2n b + 4 * b2n c + 8 * b2n d) 0 = a ∧ bit (b2n a + 2 * b2n b + 4 * b2n c + 8 * b2n d) 1 = b
    ∧ bit (b2n a + 2 * b2n b + 4 * b2n c + 8 * b2n d) 2 = c ∧ bit (b2n a + 2 * b2n b + 4 * b2n c + 8 * b2n d) 3 = d := by
  revert a b c d; decide

theorem statusHead_length (s : State) (o : Obj) : (statusHead s o).length = 32 := by
  simp [statusHead, satBytes]

theorem bodyGetStatus_eq (d : Desc) (o : Obj) (s : State) : bodyGetStatus d o s
    = writeBack d ((statusHead s o ++ statusType s o).take (dBlockLen d)) { result := (statusHead s o).take 7 } s := by
  have h : (statusHead s o ++ statusType s o).take 7 = (statusHead s o).take 7 :=
    List.take_append_of_le_length (by rw [statusHead_length]; decide)
  rw [bodyGetStatus, h]

/-- Settles O22: the written block, then each opcode by the outcome of its checks. -/
theorem parametersAndStatus : Obligations.ParametersAndStatus := by
  refine ⟨fun s d o w ps hp ho hw hb hok => ?_, fun s o ps hrem hnew hold hpw hc => applyParams_plain hrem hnew hold hpw hc,
    fun s d o h => keepLater_none d h, fun s d o w ps e hp ho hw hb hbad => ?_, fun s d o hp hptr ho hn => ?_,
    fun s d o w ps hp ho hg hw hb hok => ?_, fun s d o hp ho hg => ?_, fun s d bs r h => writeBack_host bs r h,
    fun s d o hp ho hl => ?_, fun s d o hp ho hl => ?_, fun s d o hp ho => ?_⟩
  · obtain ⟨hin, hout⟩ := writeBlock_some hb
    refine ⟨hin, hout, ?_⟩
    rw [exec_setParams_passes hp ho, bodySetParams_judged hw hb hok]
  · rw [exec_setParams_passes hp ho, bodySetParams_bad hw hb hbad]
  · rw [exec_setParams_passes hp ho, bodySetParams, writeRange_inline hptr hn]
  · rw [exec_stageParams_passes hp ho, bodyStageParams_taken hg hw hb hok]
  · rw [exec_stageParams_passes hp ho, bodyStageParams_state d hg]
  · rw [exec_getParams_passes hp ho, bodyGetParams, if_neg (by omega)]
  · rw [exec_getParams_passes hp ho, bodyGetParams, if_pos hl]; rfl
  · obtain ⟨hlt, h0, h1, h2, h3⟩ := bit_flags (jobTypes.contains o.typ && decide (1 ≤ jobPlacement o.act)) (moveOf s (handleOf o)).isSome
      (inGroup s (handleOf o)) (!o.staged.isEmpty)
    refine ⟨statusHead s o, statusFlags s o, rfl, statusHead_length s o, hlt, ?_, ?_, ?_, ?_, ?_⟩
    · rw [statusFlags, h1]
    · rw [statusFlags, h2]
    · rw [statusFlags, h3]; simp
    · rw [statusFlags, h0]; simp
    · rw [exec_getStatus_passes hp ho, bodyGetStatus_eq]

end Sys2Proof.Machine
end

section
/-! PROOFS. Rings and handles (02): in canonical host memory, which every step keeps, the entries of rings and the head shadows
read back. -/

namespace Sys2Proof.Machine

theorem withPhase_length {e : List Byte} (ph : Bool) (h : e.length = 32) : (withPhase ph e).length = 32 := by
  simp [withPhase, h]

theorem evBytes_length (e : Ev) : (evBytes e).length = 32 := by simp [evBytes]

theorem completionBytes_length (d : Desc) (r : Reply) (gtc : Nat) : (completionBytes d r gtc).length = 32 := by
  simp [completionBytes]

/-- An entry of a ring in host memory that stays below its moderation count is written, and no vector is sent. -/
theorem ringProduce_quiet {s : State} {r : Nat} (e : List Byte) (ev : Option Ev) (hr : r < s.hif.rings.length)
    (hl : (ringOf s r).loc = false) (hu : (ringOf s r).unsig + 1 < (ringOf s r).modCount) :
    ringProduce r e ev false s = setRing r (ringAdvance s.gtc (ringMemRead s (ringOf s r) (32 * (ringOf s r).tail) 32) ev)
      { s with hostMem := memWriteN s.hostMem ((ringOf s r).base + 32 * (ringOf s r).tail) (withPhase (ringOf s r).phase e) } := by
  have hw : ringMemWrite (ringOf s r) (32 * (ringOf s r).tail) (withPhase (ringOf s r).phase e) s
      = { s with hostMem := memWriteN s.hostMem ((ringOf s r).base + 32 * (ringOf s r).tail) (withPhase (ringOf s r).phase e) } := by
    simp only [ringMemWrite, hl, Bool.false_eq_true, if_false]
  rw [ringProduce, hw]
  refine if_neg ?_
  rw [ringOf_setRing_same _ (by exact hr)]
  simp only [ringAdvance, Bool.false_or, decide_eq_true_eq]
  exact Nat.not_le.mpr (lt_max_of_lt_right hu)

/-- An entry in canonical host memory reads back. -/
theorem memReadN_ringProduce {s : State} {r : Nat} {e : List Byte} (ev : Option Ev) (he : e.length = 32) (hm : memWf s.hostMem = true)
    (hr : r < s.hif.rings.length) (hl : (ringOf s r).loc = false) (hu : (ringOf s r).unsig + 1 < (ringOf s r).modCount) :
    memReadN (ringProduce r e ev false s).hostMem ((ringOf s r).base + 32 * (ringOf s r).tail) 32 = withPhase (ringOf s r).phase e := by
  rw [ringProduce_quiet e ev hr hl hu, setRing_hostMem]
  simpa only [withPhase_length _ he] using memReadN_writeN (withPhase (ringOf s r).phase e) s.hostMem _ hm

/-- The event of the present instant, as it is numbered. -/
def eventOf (s : State) (code cls h ep : Nat) (data : List Byte) : Ev :=
  { code := code, cls := cls, handle := evHandle h, gtc := s.gtc, epoch := ep, seq := s.hif.evSeq, data := padTo 11 data }

@[simp] theorem trcEvent_hostMem (code : Nat) (s : State) : (trcEvent code s).hostMem = s.hostMem := by
  unfold trcEvent; split <;> rfl

/-- The first clause of O13 on memory, where host memory is in canonical form: the event reads back from the slot of its EQ's tail. -/
theorem event_reads_back {s : State} {code cls h ep q : Nat} {data : List Byte} (hm : memWf s.hostMem = true) (hc : cls < 2)
    (hlog : logged s code cls = false) (hq : evqFor s code = some q) (hh : s.hif.held = []) (ha : s.hif.reattach = false)
    (hlen : q < s.hif.rings.length) (hs : ringServed s q = true) (hroom : ringRoom (ringOf s q) = true) (hl : (ringOf s q).loc = false)
    (hu : (ringOf s q).unsig + 1 < (ringOf s q).modCount) :
    memReadN (raiseE code cls h ep data s).hostMem ((ringOf s q).base + 32 * (ringOf s q).tail) 32
      = withPhase (ringOf s q).phase (evBytes (eventOf s code cls h ep data)) := by
  have hurgent : evUrgent (eventOf s code cls h ep data) = false := decide_eq_false (Nat.not_le.mpr hc)
  have hd : deliver (eventOf s code cls h ep data) { s with hif := { s.hif with evSeq := wrapInc 16 s.hif.evSeq } }
      = ringProduce q (evBytes (eventOf s code cls h ep data)) (some (eventOf s code cls h ep data)) false
          { s with hif := { s.hif with evSeq := wrapInc 16 s.hif.evSeq } } := by
    have hq' : evqFor { s with hif := { s.hif with evSeq := wrapInc 16 s.hif.evSeq } } (eventOf s code cls h ep data).code = some q := hq
    have hroom' : (s.hif.held.isEmpty && !s.hif.reattach && ringServed s q && ringRoom (ringOf s q)) = true := by simp [hh, ha, hs, hroom]
    rw [deliver, hq', hurgent]
    exact if_pos hroom'
  rw [raiseE, raiseAt, hlog, if_neg Bool.false_ne_true, raisePlain, trcEvent_hostMem]
  refine (congrArg (fun t : State => memReadN t.hostMem _ 32) hd).trans ?_
  exact memReadN_ringProduce (s := { s with hif := { s.hif with evSeq := wrapInc 16 s.hif.evSeq } }) _ (evBytes_length _) hm hlen hl hu

/-! ## Completions -/

@[simp] theorem sqResetEnd_hostMem (q : Nat) (s : State) : (sqResetEnd q s).hostMem = s.hostMem := by
  unfold sqResetEnd; split <;> rfl

@[simp] theorem sqResetEnd_started (q : Nat) (s : State) : (sqResetEnd q s).hif.started = s.hif.started := by
  unfold sqResetEnd; split <;> rfl

theorem settle_nil {s : State} (n : Nat) (h : s.hif.started = []) : settle n s = s := by
  cases n with
  | zero => rfl
  | succ n => simp only [settle, h, List.find?_nil]

/-- The one descriptor that executes completes into its CQ: nothing else waits for it. -/
theorem ok_hostMem {s : State} {d : Desc} {st : Started} (hs : s.hif.started = [st]) (hd : st.desc = d) (ho : st.orphan = false)
    (hn : dNocomp d = false) (hi : dIrqNow d = false) (hen : (ringOf s st.cq).en = true) (her : (ringOf s st.cq).error = false)
    (hrings : s.hif.ringsEn = true) :
    (ok d s).hostMem = (ringProduce st.cq (completionBytes d {} s.gtc) none false (unreserve st.cq s)).hostMem := by
  subst hd
  have hst : startedOf s st.desc = st := by simp [startedOf, hs]
  have hpost : postCompletion st {} s = ringProduce st.cq (completionBytes st.desc {} s.gtc) none false (unreserve st.cq s) := by
    simp only [postCompletion, cqEntry, ho, hn, hi, hen, her, hrings, Bool.false_and, Bool.not_true, Bool.false_eq_true, if_false]
  have hstarted := (entryHif_ringProduce st.cq (completionBytes st.desc {} s.gtc) none false (unreserve st.cq s)).started
  have hnil : (finish st {} s).hif.started = [] := by
    rw [finish, hpost, sqResetEnd_started, hstarted, unreserve, entryHif_setRing st.cq _ s |>.started, hs]
    simp
  rw [ok, complete, hst, settle_nil _ hnil, finish, hpost, sqResetEnd_hostMem]

/-- The second clause of O15 on memory, where host memory is in canonical form: the completion reads back from the slot of its CQ's tail. -/
theorem completion_reads_back {s : State} {d : Desc} {st : Started} (hm : memWf s.hostMem = true) (hs : s.hif.started = [st])
    (hd : st.desc = d) (ho : st.orphan = false) (hn : dNocomp d = false) (hi : dIrqNow d = false) (hlen : st.cq < s.hif.rings.length)
    (hen : (ringOf s st.cq).en = true) (her : (ringOf s st.cq).error = false) (hrings : s.hif.ringsEn = true)
    (hl : (ringOf s st.cq).loc = false) (hu : (ringOf s st.cq).unsig + 1 < (ringOf s st.cq).modCount) :
    memReadN (ok d s).hostMem ((ringOf s st.cq).base + 32 * (ringOf s st.cq).tail) 32
      = withPhase (ringOf s st.cq).phase (completionBytes d {} s.gtc) := by
  have hring : ringOf (unreserve st.cq s) st.cq = _ := ringOf_setRing_same _ hlen
  have hread := memReadN_ringProduce (s := unreserve st.cq s) (r := st.cq) none (completionBytes_length d {} s.gtc) hm
    (by rwa [unreserve, setRing_rings_length]) (by rw [hring]; exact hl) (by rw [hring]; exact hu)
  rw [hring] at hread
  rw [ok_hostMem hs hd ho hn hi hen her hrings]
  exact hread

/-! ## Head shadows -/

/-- The judgement at the fetch of an untagged descriptor asks for the seal, the mode and the role of untagged ones. -/
theorem fetchBad_untagged {s t : State} {d : Desc} (x y : Option Session) (ht : dTagLen d = 0) (hseal : t.hif.sealReq = s.hif.sealReq)
    (hboot : t.boot = s.boot) (hsec : t.sec = s.sec) : fetchBad t x d = fetchBad s y d := by
  simp only [fetchBad, sealBad, ht, hseal, hboot, hsec]
  rfl

/-- A fetch from an SQ in host memory writes its new head to the shadow. -/
theorem fetchAdvance_host {s : State} {q : Nat} (hl : (ringOf s q).loc = false) (hsh : (ringOf s q).shadow ≠ 0) :
    (fetchAdvance q s).hostMem = memWriteN s.hostMem (ringOf s q).shadow
      (leBytes 4 (if (ringOf s q).head + 1 = (ringOf s q).size then 0 else (ringOf s q).head + 1)) := by
  simp only [fetchAdvance, hsh, hl, Bool.false_eq_true, if_false]
  rfl

/-- The first clause of O16 on memory, where host memory is in canonical form: the new head reads back from the shadow. -/
theorem headShadow_reads_back {s t : State} {d : Desc} {q : Nat} (hm : memWf s.hostMem = true) (hq : sqNext s = some q) (hd : d.sq = q)
    (hl : (ringOf s q).loc = false) (hb : d.bytes.length = 64) (hf : (ringOf s q).fenced = none ∨ (ringOf s q).fenced = some d)
    (hfence : dFence d = false ∨ sqBusy s q = false) (ht : dTagLen d = 0) (hbad : fetchBad s (sessionOn s q) d = none)
    (hsh : (ringOf s q).shadow ≠ 0) (h : exec (.descriptorFetch d) s = .next t) :
    memReadN t.hostMem (ringOf s q).shadow 4
      = leBytes 4 (if (ringOf s q).head + 1 = (ringOf s q).size then 0 else (ringOf s q).head + 1) := by
  subst hd
  have hhead : headDesc s d = d := by
    rcases hf with hf | hf
    · rw [headDesc, hf, hl, Option.getD_none, if_neg Bool.false_ne_true, padTo, hb]
      simp [← hb]
    · rw [headDesc, hf, Option.getD_some]
  have hadv : (fetchAdvance d.sq s).hif.sealReq = s.hif.sealReq ∧ (fetchAdvance d.sq s).boot = s.boot ∧ (fetchAdvance d.sq s).sec = s.sec := by
    simp only [fetchAdvance, hsh, hl, Bool.false_eq_true, if_false]
    exact ⟨rfl, rfl, rfl⟩
  have hgood : fetchBad (fetchAdvance d.sq s) (sessionOn (fetchAdvance d.sq s) d.sq) d = none :=
    (fetchBad_untagged _ _ ht hadv.1 hadv.2.1 hadv.2.2).trans hbad
  have hstart : (fetchStart d (fetchAdvance d.sq s)).hostMem = (fetchAdvance d.sq s).hostMem := by
    simp only [fetchStart, ht, hgood, OfNat.zero_ne_ofNat, if_false]
  have hexec : exec (.descriptorFetch d) s = .next (fetchStart d (fetchAdvance d.sq s)) := by
    change execDescriptorFetch d s = _
    rw [execDescriptorFetch, if_neg (by simp [hq])]
    dsimp only
    rw [hhead, if_neg (by rcases hfence with h | h <;> simp [h])]
  obtain rfl : fetchStart d (fetchAdvance d.sq s) = t := by rw [hexec] at h; injection h
  rw [hstart, fetchAdvance_host hl hsh]
  simpa only [leBytes_length] using memReadN_writeN (leBytes 4 _) s.hostMem (ringOf s d.sq).shadow hm

end Sys2Proof.Machine
end

section
/-! PROOFS. Rings and handles (02): an accepted ENABLE takes effect on a LAYER, a WING or a GROUP that shares its index with no
other object. -/

namespace Sys2Proof.Machine

theorem exec_enableTakeEffect (h : Nat) (s : State) : exec (.enableTakeEffect h) s = execEnableTakeEffect h s := rfl

/-- A type that has no job and that ENABLE only sets going. -/
theorem typ_of_setUp {ty : Nat} (h : [tyLayer, tyWing, tyGroup].contains ty = true) : ty = tyLayer ∨ ty = tyWing ∨ ty = tyGroup := by
  simpa using h

theorem setUp_not_job {ty : Nat} (h : [tyLayer, tyWing, tyGroup].contains ty = true) : jobTypes.contains ty = false := by
  rcases typ_of_setUp h with rfl | rfl | rfl <;> decide

theorem typeEnable_setUp {o : Obj} (b : Nat) (s : State) (h : [tyLayer, tyWing, tyGroup].contains o.typ = true) : typeEnable b o s = s := by
  rcases typ_of_setUp h with h | h | h <;> (rw [typeEnable, h]; rfl)

theorem loadMark_setUp {ty : Nat} (st : Started) (s : State) (h : [tyLayer, tyWing, tyGroup].contains ty = true) : loadMark st ty s = s := by
  rcases typ_of_setUp h with rfl | rfl | rfl <;> exact loadMark_other st s (by decide) (by decide)

theorem layersFor_setUp {o : Obj} (s : State) (h : [tyLayer, tyWing, tyGroup].contains o.typ = true) : layersFor s o = [] := by
  rcases typ_of_setUp h with h | h | h <;> (rw [layersFor, h]; rfl)

/-- The object at an index becomes ENABLED with its block in force, where no other object has the index. -/
theorem enableObj_setUp {s : State} {o : Obj} (b : Nat) (hu : ObjsOk s) (ho : objAt s o.idx = some o)
    (ht : [tyLayer, tyWing, tyGroup].contains o.typ = true) : enableObj b o.idx s
      = updObj o.idx (fun y => { y with act := y.params, ffConsec := 0, ost := .enabled, changed := s.gtc }) s := by
  unfold enableObj
  rw [ho]
  dsimp only
  rw [typeEnable_setUp b _ ht, setOst]
  refine updObj_updObj o.idx fun x hx hi => ⟨hi, ?_⟩
  rw [eq_of_idx ho (hu.imp fun h => Nat.ne_of_lt h) x hx hi, setUp_not_job ht]
  rfl

/-- The clause of O23 on the boundary of an ENABLE, where each index stands once, as every step keeps it. -/
theorem enableTakeEffect_setUp {s : State} {h : Nat} {x : Deferred} {o : Obj} (hu : ObjsOk s) (hx : deferredOf s 0x0005 h = some x)
    (harg : x.arg = 0) (hdue : x.due ≤ s.gtc) (ho : objOf s h = some o) (hat : objAt s o.idx = some o)
    (ht : [tyLayer, tyWing, tyGroup].contains o.typ = true) (hd : o.ost = .disabled) (hn : needs s o = [])
    (hj : enableJudge s x.due true refDepth [h] o = none) : exec (.enableTakeEffect h) s = .next (completeDeferred x { result := x.result }
      (updObj o.idx (fun y => { y with act := y.params, ffConsec := 0, ost := .enabled, changed := s.gtc }) s)) := by
  have hmem : s.hif.deferred.contains x = true := by simpa using List.mem_of_find?_eq_some hx
  have hh : x.handle = h := by have := List.find?_some hx; simp at this; exact this.2
  have hstands : placeStands s o = true := by rw [placeStands, setUp_not_job ht]; rfl
  subst hh
  rw [exec_enableTakeEffect, execEnableTakeEffect, hx]
  dsimp only
  rw [toInstant_past hdue, if_neg (by simp [harg]), show refDepth = 7 + 1 from rfl]
  unfold enableRun
  simp only [ho, hn, layersFor_setUp s ht, List.append_nil, List.filterMap_nil, List.filter_nil, List.foldl_nil, hmem, hd, hj, hstands,
    Bool.not_true, Bool.false_eq_true, bne_self_eq_false, if_false, if_true, ne_eq, not_true_eq_false, loadMark_setUp _ _ ht,
    enableObj_setUp x.due hu hat ht]

end Sys2Proof.Machine
end

section
/-! PROOFS. Rings and handles (02): statements that fail for want of a premise, in states no run reaches: a host memory that is
not in canonical form, and two objects at one index. With that premise, which every step keeps (O59), the clauses refuted
here hold: `event_reads_back`, `completion_reads_back`, `headShadow_reads_back` and `enableTakeEffect_setUp`. -/

namespace Sys2Proof.Machine

/-- Two cells out of order: a zero written to the lower address stops at the higher cell, so the byte behind it stays. -/
def unsortedMem (a : Nat) : List Host.Cell := [(a + 1, 1), (a, 1)]

/-- A native device with rings served, CQ0 and EQ0 in host memory, SQ0 with one descriptor to fetch, and host memory out of order. -/
def unsortedState (a : Nat) : State :=
  setRing 0 (fun _ => { en := true, base := 0x30000, size := 8, tail := 1, shadow := 0x500 })
    (setRing 16 (fun _ => { en := true, base := 0x20000, size := 4, modCount := 4 })
      (setRing 32 (fun _ => { en := true, base := 0x10000, size := 8, modCount := 4 })
        { State.reset with
          boot := { mode := .native, released := true }
          hif := { State.reset.hif with ringsEn := true, link := 2 }
          hostMem := unsortedMem a }))

/-- A NOP of SQ0. -/
def nopDesc : Desc := { sq := 0, bytes := List.replicate 64 0, block := [] }

/-- Refutes O13: with host memory out of order the reserved byte 3 of the event, a zero, does not reach address 0x10003. -/
theorem not_eventReachesItsRing : ¬ Obligations.EventReachesItsRing := by
  intro h
  obtain ⟨e, he, -, hr, -⟩ := h.1 (unsortedState 0x10003) 0x0140 0 0 0 [] 32 (by decide) (by decide +kernel) (by decide +kernel) rfl rfl
    (by decide) rfl (by decide +kernel) (by decide +kernel) rfl (by decide +kernel) (by decide +kernel)
  exact absurd (hr.trans he) (by decide +kernel)

/-- The device that executes the NOP. -/
def unsortedRun : State :=
  { unsortedState 0x20000 with hif := { (unsortedState 0x20000).hif with started := [{ desc := nopDesc, cq := 16 }] } }

/-- Refutes O15: with host memory out of order the first byte of the cookie, a zero, does not reach address 0x20000. -/
theorem not_completionIsWritten : ¬ Obligations.CompletionIsWritten := by
  intro h
  obtain ⟨e, he, -, hr, -⟩ := h.2.1 unsortedRun nopDesc { desc := nopDesc, cq := 16 } 16 rfl rfl rfl rfl (by decide) (by decide)
    (by decide) (by decide) rfl rfl rfl rfl rfl rfl (by decide +kernel) (by decide +kernel)
  exact absurd (hr.trans he) (by decide +kernel)

/-- Refutes O16: with host memory out of order the second byte of the head shadow, a zero, does not reach address 0x501. -/
theorem not_descriptorFetchReserves : ¬ Obligations.DescriptorFetchReserves := by
  intro h
  obtain ⟨t, ht, -, -, -, hr, -⟩ := h.1 (unsortedState 0x501) nopDesc 0 _ (by decide +kernel) rfl rfl rfl rfl (by decide) (by decide)
    (by decide) (by decide +kernel) (by decide) rfl
  have hafter : t = after (exec (.descriptorFetch nopDesc) (unsortedState 0x501)) (unsortedState 0x501) := by rw [ht]; rfl
  exact absurd (hr (by decide +kernel)) (by rw [hafter]; decide +kernel)

/-- A WING and an AXIS at one index, and an accepted ENABLE of the WING. -/
def twinWing : Obj := { idx := 2, typ := tyWing }
def twinAxis : Obj := { idx := 2, typ := tyAxis }
def twinEnable : Deferred := { st := { desc := nopDesc, cq := 16 }, op := 0x0005, handle := handleOf twinWing, due := 0 }
def twinState : State := { State.reset with objs := [twinWing, twinAxis], hif := { State.reset.hif with deferred := [twinEnable] } }

/-- Refutes O23: the ENABLE of the WING takes effect on every object at its index, and starts a placement epoch of the AXIS. -/
theorem not_enableAndDisable : ¬ Obligations.EnableAndDisable := by
  intro h
  obtain ⟨-, -, -, -, -, -, -, -, -, -, -, -, h, -⟩ := h
  have hrun := h twinState (handleOf twinWing) twinEnable twinWing (by decide +kernel) rfl (by decide) (by decide +kernel) (by decide +kernel)
    (by decide) rfl (by decide +kernel) (by decide +kernel)
  exact absurd (congrArg (fun r => (after r twinState).objs.map (·.epoch)) hrun) (by decide +kernel)

end Sys2Proof.Machine
end

section
/-! PROOFS. Objects found after a change, and class 1 faults (03, R70; 16, R465). -/

namespace Sys2Proof.Machine

/-! ## Which object is found after a change

The key by which an object is looked for is a variable here: a handle is a sum of products with large factors, which the kernel must
not evaluate. -/

/-- A handle names the object of the list that carries it. -/
theorem handleOf_of_objOf {s : State} {h : Nat} {o : Obj} (ho : objOf s h = some o) : handleOf o = h :=
  beq_iff_eq.mp (List.find?_some (p := fun x => handleOf x == h) ho)

theorem idx_of_objAt {s : State} {i : Nat} {o : Obj} (ho : objAt s i = some o) : o.idx = i := by
  simpa using List.find?_some ho

theorem objOf_congr {s t : State} (h : t.objs = s.objs) (k : Nat) : objOf t k = objOf s k := by simp only [objOf, h]
theorem objAt_congr {s t : State} (h : t.objs = s.objs) (i : Nat) : objAt t i = objAt s i := by simp only [objAt, h]

/-- A change that leaves the key is seen under every key. -/
theorem find?_map_key {f : Obj → Obj} {key : Obj → Nat} (hf : ∀ o, key (f o) = key o) (k : Nat) (l : List Obj) :
    (l.map f).find? (fun o => key o == k) = (l.find? fun o => key o == k).map f := by
  simp [List.find?_map, hf]

/-- A change of some objects that leaves a property of those leaves it of all. -/
theorem ite_key {α : Type} {p : Obj → Prop} [DecidablePred p] {f : Obj → Obj} {key : Obj → α} (hf : ∀ o, key (f o) = key o) (o : Obj) :
    key (if p o then f o else o) = key o := by
  split
  · exact hf o
  · rfl

theorem objOf_map {s t : State} {f : Obj → Obj} (ht : t.objs = s.objs.map f) (hf : ∀ o, handleOf (f o) = handleOf o) (k : Nat) :
    objOf t k = (objOf s k).map f := by
  rw [objOf, ht]
  exact find?_map_key hf k s.objs

theorem objAt_map {s t : State} {f : Obj → Obj} (ht : t.objs = s.objs.map f) (hf : ∀ o, (f o).idx = o.idx) (i : Nat) :
    objAt t i = (objAt s i).map f := by
  rw [objAt, ht]
  exact find?_map_key hf i s.objs

theorem objOf_mapIf {s t : State} {p : Obj → Prop} [DecidablePred p] {f : Obj → Obj}
    (ht : t.objs = s.objs.map fun o => if p o then f o else o) (hf : ∀ o, handleOf (f o) = handleOf o) (k : Nat) :
    objOf t k = (objOf s k).map fun o => if p o then f o else o := objOf_map ht (ite_key hf) k

theorem objAt_mapIf {s t : State} {p : Obj → Prop} [DecidablePred p] {f : Obj → Obj}
    (ht : t.objs = s.objs.map fun o => if p o then f o else o) (hf : ∀ o, (f o).idx = o.idx) (i : Nat) :
    objAt t i = (objAt s i).map fun o => if p o then f o else o := objAt_map ht (ite_key hf) i

/-- The object that a handle names is found changed. -/
theorem objOf_updH {s : State} {h : Nat} {o : Obj} {f : Obj → Obj} (hf : ∀ o, handleOf (f o) = handleOf o) (ho : objOf s h = some o) :
    objOf (updH h f s) h = some (f o) := by
  rw [objOf_mapIf (t := updH h f s) (p := fun o => handleOf o = h) rfl hf, ho]
  exact congrArg some (if_pos (handleOf_of_objOf ho))

/-- The object at an index, where the handle names it, is found changed. -/
theorem objAt_updH {s : State} {h : Nat} {o : Obj} {f : Obj → Obj} (hf : ∀ o, (f o).idx = o.idx) (ho : objAt s o.idx = some o)
    (hh : handleOf o = h) : objAt (updH h f s) o.idx = some (f o) := by
  rw [objAt_mapIf (t := updH h f s) (p := fun o => handleOf o = h) rfl hf, ho]
  exact congrArg some (if_pos hh)

theorem objAt_updObj_same {s : State} {i : Nat} {o : Obj} {f : Obj → Obj} (hf : ∀ o, (f o).idx = o.idx) (ho : objAt s i = some o) :
    objAt (updObj i f s) i = some (f o) := by
  rw [objAt_mapIf (t := updObj i f s) (p := fun o => o.idx = i) rfl hf, ho]
  exact congrArg some (if_pos (idx_of_objAt ho))

theorem objAt_updObj_other {s : State} {i j : Nat} {f : Obj → Obj} (hf : ∀ o, (f o).idx = o.idx) (hj : j ≠ i) :
    objAt (updObj i f s) j = objAt s j := by
  rw [objAt_mapIf (t := updObj i f s) (p := fun o => o.idx = i) rfl hf]
  cases ho : objAt s j with
  | none => rfl
  | some o => exact congrArg some (if_neg (by rw [idx_of_objAt ho]; exact hj))

/-! ## What depends on the objects' blocks alone -/

/-- A change of objects that leaves what they are and what their blocks say. -/
structure KeepsBlocks (f : Obj → Obj) : Prop where
  handle : ∀ o, handleOf (f o) = handleOf o
  typ : ∀ o, (f o).typ = o.typ
  params : ∀ o, (f o).params = o.params
  act : ∀ o, (f o).act = o.act

theorem KeepsBlocks.ite {p : Obj → Prop} [DecidablePred p] {f : Obj → Obj} (hf : KeepsBlocks f) :
    KeepsBlocks fun o => if p o then f o else o :=
  ⟨ite_key hf.handle, ite_key hf.typ, ite_key hf.params, ite_key hf.act⟩

/-- The channels that drive an output are a matter of the blocks. -/
theorem channelsOn_map {s t : State} {f : Obj → Obj} (ht : t.objs = s.objs.map f) (hf : KeepsBlocks f) (h : Nat) :
    channelsOn t h = (channelsOn s h).map f := by
  simp [channelsOn, ht, List.filter_map, Function.comp_def, chOut, objOf_map ht hf.handle, hf.typ, hf.act]

/-- The linked groups of an object are a matter of the blocks. -/
theorem linkGroups_map {s t : State} {f : Obj → Obj} (ht : t.objs = s.objs.map f) (hf : KeepsBlocks f) (pos h : Nat) :
    linkGroups t pos h = (linkGroups s pos h).map f := by
  simp [linkGroups, objsOf, ht, List.filter_map, Function.comp_def, hf.typ, hf.act, hf.params]

/-- Where no channel drives through the object, holding it off ends no interval. -/
theorem forcedOff_of_no_channels {s : State} {h : Nat} (hc : channelsOn s h = []) : forcedOff h s = s := by
  simp [forcedOff, hc]

theorem linkFault_of_no_groups {s : State} {pos h : Nat} (hg : linkGroups s pos h = []) : linkFault pos h s = s := by
  simp [linkFault, hg]

theorem abandonMove_of_no_move {s : State} {h status : Nat} (hm : moveOf s h = none) : abandonMove h status s = s := by
  simp [abandonMove, hm]

/-! ## Class 1 (R70, R465) -/

theorem exec_class1Fault (h code : Nat) (s : State) : exec (.class1Fault h code) s = execClass1Fault h code s := rfl

/-- The last fault of an object is a code. -/
def withLastFault (code : Nat) (o : Obj) : Obj := { o with lastFault := code }

theorem keepsBlocks_withLastFault (code : Nat) : KeepsBlocks (withLastFault code) :=
  ⟨fun _ => rfl, fun _ => rfl, fun _ => rfl, fun _ => rfl⟩

/-- An object in a state, with the GTC of the change. -/
def withState (st : OState) (t : Nat) (o : Obj) : Obj := { o with ost := st, changed := t }

theorem keepsBlocks_withState (st : OState) (t : Nat) : KeepsBlocks (withState st t) :=
  ⟨fun _ => rfl, fun _ => rfl, fun _ => rfl, fun _ => rfl⟩

/-- The event of a class 1 fault is raised, and the object's last fault is its code. -/
def faultNoted (h code : Nat) (o : Obj) (s : State) : State := updH h (withLastFault code) (raiseE code 1 h o.epoch [] s)

/-- The noted fault changes one field of the objects that the handle names. -/
theorem faultNoted_objs (h code : Nat) (o : Obj) (s : State) :
    (faultNoted h code o s).objs = s.objs.map fun y => if handleOf y = h then withLastFault code y else y := by
  rw [faultNoted, updH, (touches_raiseE code 1 h o.epoch [] s).objs]

theorem objOf_faultNoted {s : State} {h : Nat} {o : Obj} (code : Nat) (ho : objOf s h = some o) :
    objOf (faultNoted h code o s) h = some (withLastFault code o) :=
  objOf_updH (keepsBlocks_withLastFault code).handle ((objOf_congr (touches_raiseE code 1 h o.epoch [] s).objs h).trans ho)

theorem faultNoted_osl (h code : Nat) (o : Obj) (s : State) : (faultNoted h code o s).osl = s.osl := by
  rw [faultNoted, updH_osl, (touches_raiseE code 1 h o.epoch [] s).osl]

theorem faultNoted_eng (h code : Nat) (o : Obj) (s : State) : (faultNoted h code o s).eng = s.eng := by
  rw [faultNoted, updH_eng, (touches_raiseE code 1 h o.epoch [] s).eng]

/-- A handle that names no object: the event has no subject. -/
theorem execClass1Fault_unnamed {s : State} {h : Nat} (code : Nat) (ho : objOf s h = none) : execClass1Fault h code s = .next s := by
  rw [execClass1Fault, ho]

/-- A member device tells the lead of an object that it references (R70). -/
def tellLead (h : Nat) (s : State) : State :=
  if s.osl.role = 2 ∧ s.osl.leadRefs.any (·.1 == h) = true then sendFault 0 0 h [] s else s

/-- A class 1 fault of an object is noted; it goes further where the object is ENABLED and not in its fault action. -/
theorem execClass1Fault_named {s : State} {h : Nat} {o : Obj} (code : Nat) (ho : objOf s h = some o) :
    execClass1Fault h code s = .next (if isEnabled o && !axFaulting o then
        tellLead h (linkFault s.osl.position h (faultObj h (faultNoted h code o s)))
      else faultNoted h code o s) := by
  have hn := objOf_faultNoted code ho
  have hp := congrArg Osl.position (faultNoted_osl h code o s)
  rw [execClass1Fault, ho]
  dsimp only
  unfold faultNoted withLastFault at *
  simp only [class1, ho, Option.map_some, Option.getD_some, hn, hp, tellLead]
  rfl

/-- An object that is not ENABLED, or that comes to rest already, has nothing more done to it. -/
theorem execClass1Fault_noted {s : State} {h : Nat} {o : Obj} (code : Nat) (ho : objOf s h = some o)
    (hi : o.ost ≠ .enabled ∨ axFaulting o = true) : execClass1Fault h code s = .next (faultNoted h code o s) := by
  rw [execClass1Fault_named code ho, if_neg]
  rcases hi with hi | hi <;> simp [isEnabled, hi]

/-- The fault of an ENABLED object goes further. -/
theorem execClass1Fault_acts {s : State} {h : Nat} {o : Obj} (code : Nat) (ho : objOf s h = some o) (he : o.ost = .enabled)
    (hf : axFaulting o = false) : execClass1Fault h code s
      = .next (tellLead h (linkFault s.osl.position h (faultObj h (faultNoted h code o s)))) := by
  rw [execClass1Fault_named code ho, if_pos (by simp [isEnabled, he, hf])]

/-- An ENABLED object takes its fault action: an axis to rest first, another one at once (R70). -/
theorem faultObj_enabled {s : State} {h : Nat} {o : Obj} (ho : objOf s h = some o) (he : o.ost = .enabled) (hf : axFaulting o = false) :
    faultObj h s = if o.typ = tyAxis then axFaultAct o (updAx o.idx (fun r => { r with faulting := true }) s)
      else becomeFaulted o (faultAct o s) := by
  rw [faultObj, ho]
  exact if_neg (by simp [isEnabled, he, hf])

/-- A type that drives no line of its own. -/
def linelessTypes : List Nat := [tySection, tyFeedback, tyCanport, tyGeopoint, tyLayer, tyWing]

theorem typ_ne_of_lineless {o : Obj} (ht : linelessTypes.contains o.typ = true) {ty : Nat} (hty : linelessTypes.contains ty = false) :
    o.typ ≠ ty := fun h => by rw [h, hty] at ht; cases ht

/-- It has no fault action of its own (R70). -/
theorem faultAct_lineless {o : Obj} (s : State) (ht : linelessTypes.contains o.typ = true) : faultAct o s = s := by
  have hne {ty : Nat} (hty : linelessTypes.contains ty = false) : o.typ ≠ ty := typ_ne_of_lineless ht hty
  rw [faultAct, if_neg (by rintro (h | h | h) <;> exact hne (by decide) h), if_neg (by rintro (h | h) <;> exact hne (by decide) h),
    if_neg (fun h => hne (by decide) h.1)]

/-- An object that nothing drives through and that no castling moves only changes its state. -/
theorem becomeFaulted_alone {s : State} {o : Obj} (hm : moveOf s (handleOf o) = none) (hc : channelsOn s (handleOf o) = []) :
    becomeFaulted o s = setOst o.idx .faulted s := by
  have hm' : moveOf (setOst o.idx .faulted s) (handleOf o) = none := hm
  have hc' : channelsOn (setOst o.idx .faulted s) (handleOf o) = [] := by
    rw [channelsOn_map (t := setOst o.idx .faulted s) rfl (keepsBlocks_withState .faulted s.gtc).ite, hc, List.map_nil]
  rw [becomeFaulted, abandonMove_of_no_move hm', forcedOff_of_no_channels hc']

/-- What a fault leaves of an ENABLED object without lines, channels, groups, castling and a lead that references it. -/
theorem fault_alone {s : State} {o : Obj} (code : Nat) (ho : objOf s (handleOf o) = some o) (he : o.ost = .enabled)
    (ht : linelessTypes.contains o.typ = true) (hm : moveOf s (handleOf o) = none) (hc : channelsOn s (handleOf o) = []) :
    faultObj (handleOf o) (faultNoted (handleOf o) code o s) = setOst o.idx .faulted (faultNoted (handleOf o) code o s) := by
  have hax : (withLastFault code o).typ ≠ tyAxis := typ_ne_of_lineless (o := withLastFault code o) ht (by decide)
  have hm' : moveOf (faultNoted (handleOf o) code o s) (handleOf (withLastFault code o)) = none := by
    rw [moveOf, faultNoted_eng, (keepsBlocks_withLastFault code).handle]; exact hm
  have hc' : channelsOn (faultNoted (handleOf o) code o s) (handleOf (withLastFault code o)) = [] := by
    rw [(keepsBlocks_withLastFault code).handle, channelsOn_map (faultNoted_objs _ code o s) (keepsBlocks_withLastFault code).ite, hc,
      List.map_nil]
  rw [faultObj_enabled (objOf_faultNoted code ho) he (by simp [axFaulting, hax]), if_neg hax,
    faultAct_lineless (o := withLastFault code o) _ ht]
  exact becomeFaulted_alone hm' hc'

/-- Settles O24: a fault is noted; `execClass1Fault_named` says what follows, and `fault_alone` what of it is left of an object
without lines. -/
theorem classOneFaultStopsAnObject : Obligations.ClassOneFaultStopsAnObject := by
  refine ⟨fun s h code o ho hi => execClass1Fault_noted code ho hi, fun s h code o ho _ he ht hm hc hg hl => ?_,
    fun s h code o ho he hf => ⟨faultNoted h code o s, _, rfl, rfl, ?_⟩, fun s h o ho he hf => faultObj_enabled ho he hf,
    fun s h code ho => execClass1Fault_unnamed code ho⟩
  · obtain rfl := handleOf_of_objOf ho
    have hax : axFaulting o = false := by simp [axFaulting, typ_ne_of_lineless ht (ty := tyAxis) (by decide)]
    have hg' : linkGroups (setOst o.idx .faulted (faultNoted (handleOf o) code o s)) s.osl.position (handleOf o) = [] := by
      rw [linkGroups_map (t := setOst o.idx .faulted _) rfl (keepsBlocks_withState .faulted _).ite,
        linkGroups_map (faultNoted_objs _ code o s) (keepsBlocks_withLastFault code).ite, hg]
      rfl
    have hosl : (setOst o.idx .faulted (faultNoted (handleOf o) code o s)).osl = s.osl := by
      rw [setOst, updObj_osl, faultNoted_osl]
    rw [exec_class1Fault, execClass1Fault_acts code ho he hax, fault_alone code ho he ht hm hc, linkFault_of_no_groups hg', tellLead,
      if_neg (by rw [hosl, hl]; simp), faultNoted]
    rfl
  · have hp := congrArg Osl.position (faultNoted_osl h code o s)
    rw [exec_class1Fault, execClass1Fault_acts code ho he hf, ← hp, tellLead]

end Sys2Proof.Machine
end

section
/-! PROOFS. Channels, engines and tables (03): swapping tables, the saved-table store, and what arrives at a state machine (R95, R103,
R107, R108). -/

namespace Sys2Proof.Machine

/-! ## What a completion leaves of the deferred descriptors -/

theorem postCompletion_deferred (x : Started) (r : Reply) (s : State) : (postCompletion x r s).hif.deferred = s.hif.deferred := by
  have hentry (q : Nat) (e : List Byte) (b : Bool) : (cqEntry q e b s).hif.deferred = s.hif.deferred := by
    unfold cqEntry
    split
    · rfl
    · split
      · rfl
      · exact (entryHif_ringProduce _ _ _ _ _).runs.deferred
  unfold postCompletion
  dsimp only
  split
  · split <;> rfl
  · split
    · rfl
    · split
      · rfl
      · exact hentry _ _ _

theorem sqResetEnd_deferred (q : Nat) (s : State) : (sqResetEnd q s).hif.deferred = s.hif.deferred := by
  unfold sqResetEnd; split <;> rfl

/-- The completed descriptor alone is no longer pending (R52). -/
theorem completeDeferred_deferred (x : Deferred) (r : Reply) (s : State) :
    (completeDeferred x r s).hif.deferred = s.hif.deferred.erase x := by
  rw [completeDeferred, sqResetEnd_deferred, postCompletion_deferred]

theorem Touches.kin {s t : State} (h : Touches s t) : t.kin = s.kin := by rw [h.frame]

/-! ## TABLE_SWAP (R107) -/

theorem exec_tableSwap (d : Desc) (s : State) : exec (.tableSwap d) s = execTableSwap d s := rfl
theorem exec_tableSwapTakeEffect (h : Nat) (s : State) : exec (.tableSwapTakeEffect h) s = execTableSwapTakeEffect h s := rfl

theorem exec_tableSwap_passes {s : State} {d : Desc} {o : Obj} (hp : passes 0x0303 d s = true) (ho : objOf s (dHandle d) = some o) :
    exec (.tableSwap d) s = .next (bodyTableSwap d o s) := by
  rw [exec_tableSwap, execTableSwap, runObj_passes _ hp ho]

/-- Reserving costs loads engines alone. -/
theorem costReserve_gtc (o : Obj) (cost b tag : Nat) (s : State) : (costReserve o cost b tag s).gtc = s.gtc := by
  have hfold (n : Nat) (l : List (Nat × Nat)) : ∀ t : State, (l.foldl (fun s p => addLoad p.1 p.2 n false s) t).gtc = t.gtc := by
    induction l with
    | nil => exact fun _ => rfl
    | cons p l ih => exact fun t => ih _
  unfold costReserve
  dsimp only
  split
  · rfl
  · split
    · exact hfold _ _ s
    · rfl

theorem costReserveAll_gtc {b tag : Nat} : ∀ {l : List (Obj × Nat)} {s u : State}, costReserveAll b tag l s = some u → u.gtc = s.gtc
  | [], _, _, h => by cases h; rfl
  | x :: l, s, u, h => by
    unfold costReserveAll at h
    split at h
    · rw [costReserveAll_gtc h, costReserve_gtc]
    · cases h

theorem bodyTableSwap_unnamed {s : State} {d : Desc} (o : Obj) (hb : tableOf s (u32 d.bytes 16) = none) :
    bodyTableSwap d o s = failWith d 0x0308 (leBytes 2 16) s := by
  simp only [bodyTableSwap, hb]

theorem bodyTableSwap_mismatch {s : State} {d : Desc} {o : Obj} {b : List Byte} (hb : tableOf s (u32 d.bytes 16) = some b)
    (h : tabType b ≠ tabType o.params ∨ tabType b = 3 ∧ fmtLen b ≠ fmtLen o.params) : bodyTableSwap d o s = fail d 0x0304 s := by
  simp only [bodyTableSwap, hb, if_pos h]

/-- The costs that a swap of table `o` reserves for its boundary (R82). -/
def swapReserve (d : Desc) (o : Obj) (s : State) : Option State :=
  costReserveAll (takeEffect s.gtc (u64 d.bytes 24)) (costTag d) (swapCosts s (handleOf o) (u32 d.bytes 16)) s

/-- Tables of one type, formats of one length: not the refusal TABLE_MISMATCH. -/
theorem tables_match {b c : List Byte} (ht : tabType b = tabType c) (hf : tabType b = 3 → fmtLen b = fmtLen c) :
    ¬ (tabType b ≠ tabType c ∨ tabType b = 3 ∧ fmtLen b ≠ fmtLen c) := by
  rintro (h | ⟨h3, hl⟩)
  · exact h ht
  · exact hl (hf h3)

theorem bodyTableSwap_full {s : State} {d : Desc} {o : Obj} {b : List Byte} (hb : tableOf s (u32 d.bytes 16) = some b)
    (ht : tabType b = tabType o.params) (hf : tabType b = 3 → fmtLen b = fmtLen o.params) (hr : swapReserve d o s = none) :
    bodyTableSwap d o s = fail d 0x0301 s := by
  unfold swapReserve at hr
  simp only [bodyTableSwap, hb, if_neg (tables_match ht hf), hr]

theorem bodyTableSwap_reserved {s u : State} {d : Desc} {o : Obj} {b : List Byte} (hb : tableOf s (u32 d.bytes 16) = some b)
    (ht : tabType b = tabType o.params) (hf : tabType b = 3 → fmtLen b = fmtLen o.params) (hr : swapReserve d o s = some u) :
    bodyTableSwap d o s = defer d 0x0303 (handleOf o) (takeEffect s.gtc (u64 d.bytes 24))
      (leBytes 7 (takeEffectLate s.gtc (u64 d.bytes 24))) (u32 d.bytes 16) u := by
  unfold swapReserve at hr
  simp only [bodyTableSwap, hb, if_neg (tables_match ht hf), hr, costReserveAll_gtc hr]

theorem execTableSwapTakeEffect_idle {s : State} {h : Nat} (hx : deferredOf s 0x0303 h = none) : execTableSwapTakeEffect h s = .next s := by
  simp only [execTableSwapTakeEffect, hx]

/-- The state in which a swap takes effect: at its boundary, with the costs that it has reserved (R82). -/
def swapInstant (x : Deferred) (s : State) : State :=
  (s.eng.costs.filter fun c => c.tag == costTag x.st.desc).foldl (fun s c => costApply c s) (toInstant x.due s)

theorem swapInstant_past {x : Deferred} {s : State} (hd : x.due ≤ s.gtc) (hc : s.eng.costs = []) : swapInstant x s = s := by
  simp [swapInstant, hc, toInstant_past hd]

/-- Every reference to a table moves: that of the kinematics unit, and those of the objects. -/
def swapAll (old new : Nat) (img : List Byte) (s : State) : State :=
  s.objs.foldl (fun s o => swapObj old new img o s) { s with kin := { s.kin with cfg := swapAt old new 40 s.kin.cfg } }

theorem execTableSwapTakeEffect_gone {s : State} {h : Nat} {x : Deferred} (hx : deferredOf s 0x0303 h = some x)
    (ht : tableOf (swapInstant x s) x.arg = none) : execTableSwapTakeEffect h s
      = .next (completeDeferred x { status := 0x0308, result := leBytes 2 16 } (swapInstant x s)) := by
  unfold swapInstant at *
  simp only [execTableSwapTakeEffect, hx, toInstant_eng, ht]

theorem execTableSwapTakeEffect_swaps {s : State} {h : Nat} {x : Deferred} {img : List Byte} (hx : deferredOf s 0x0303 h = some x)
    (ht : tableOf (swapInstant x s) x.arg = some img) : execTableSwapTakeEffect h s
      = .next (completeDeferred x { result := x.result } (raise0 0x034C h (leBytes 4 x.arg) (swapAll h x.arg img (swapInstant x s)))) := by
  unfold swapInstant at *
  simp only [execTableSwapTakeEffect, hx, toInstant_eng, ht, swapAll]

/-- Each object of a list of distinct indices changes once. -/
theorem foldl_updObj_nodup {f : Obj → Obj} (hf : ∀ o, (f o).idx = o.idx) :
    ∀ (l : List Obj), (l.map (·.idx)).Nodup → ∀ s : State, l.foldl (fun s o => updObj o.idx f s) s
      = { s with objs := s.objs.map fun x => if x.idx ∈ l.map (·.idx) then f x else x }
  | [], _, s => by simp
  | o :: l, hl, s => by
    obtain ⟨ho, hl'⟩ := List.nodup_cons.mp hl
    rw [List.foldl_cons, foldl_updObj_nodup hf l hl']
    simp only [updObj, List.map_map, List.map_cons, List.mem_cons]
    congr 1
    refine List.map_congr_left fun x _ => ?_
    by_cases hx : x.idx = o.idx
    · simp only [Function.comp_apply, hx, if_true, hf, ho, if_false, true_or]
    · simp only [Function.comp_apply, hx, if_false, false_or]

/-- The references of an object's two blocks moved. -/
def swapBlocks (old new : Nat) (o : Obj) : Obj :=
  { o with params := swapRefs old new o.typ o.params, act := swapRefs old new o.typ o.act }

/-- The same, for an object that then has no machine. -/
def swapPlain (old new : Nat) (o : Obj) : Obj := { swapBlocks old new o with sms := [] }

/-- An object without machines and CAN filters has only its blocks changed. -/
theorem swapObj_plain {old new : Nat} {img : List Byte} {o : Obj} (s : State) (ht : o.typ ≠ tyCanport) (hs : o.sms = []) :
    swapObj old new img o s = updObj o.idx (swapPlain old new) s := by
  simp only [swapObj, swapSms, hs, List.map_nil, List.filter_nil, List.foldl_nil, if_neg ht]
  rfl

/-- A swap among objects without machines and CAN filters. -/
theorem swapAll_plain {old new : Nat} {img : List Byte} {s : State} (ho : ∀ o ∈ s.objs, o.typ ≠ tyCanport ∧ o.sms = [])
    (hi : s.objs.Pairwise fun a b => a.idx ≠ b.idx) : swapAll old new img s
      = { s with objs := s.objs.map (swapBlocks old new), kin := { s.kin with cfg := swapAt old new 40 s.kin.cfg } } := by
  have hnd : (s.objs.map (·.idx)).Nodup := List.pairwise_map.mpr hi
  rw [swapAll, List.foldl_ext _ _ _ fun t o hm => swapObj_plain t (ho o hm).1 (ho o hm).2,
    foldl_updObj_nodup (f := swapPlain old new) (fun _ => rfl) _ hnd]
  congr 1
  refine List.map_congr_left fun x hx => ?_
  rw [if_pos (List.mem_map_of_mem hx)]
  simp only [swapPlain, swapBlocks, (ho x hx).2]

/-! ## The saved-table store (R108) -/

theorem exec_tableSave (d : Desc) (s : State) : exec (.tableSave d) s = execTableSave d s := rfl
theorem exec_tableErase (d : Desc) (s : State) : exec (.tableErase d) s = execTableErase d s := rfl
theorem exec_tableSaveWritten (k : Nat) (s : State) : exec (.tableSaveWritten k) s = execTableSaveWritten k s := rfl
theorem exec_tableRestore (d : Desc) (s : State) : exec (.tableRestore d) s = execTableRestore d s := rfl
theorem exec_tableList (d : Desc) (s : State) : exec (.tableList d) s = execTableList d s := rfl

theorem exec_tableSave_passes {s : State} {d : Desc} {o : Obj} (hp : passes 0x0304 d s = true) (ho : objOf s (dHandle d) = some o) :
    exec (.tableSave d) s = .next (bodyTableSave d o s) := by
  rw [exec_tableSave, execTableSave, runObj_passes _ hp ho]

/-- Bytes that the store will hold under the other keys once its writes are done. -/
def usedBeside (s : State) (k : Nat) : Nat := (((storeAhead s).filter fun x => x.1 != k).map fun x => x.2.length).foldl (· + ·) 0

theorem bodyTableSave_noKey {s : State} {d : Desc} (o : Obj) (hk : u8 d.bytes 16 = 0) : bodyTableSave d o s = fail d 0x0004 s := if_pos hk

theorem bodyTableSave_full {s : State} {d : Desc} {o : Obj} (hk : u8 d.bytes 16 ≠ 0)
    (hu : 2 ^ 20 < usedBeside s (u8 d.bytes 16) + o.params.length) : bodyTableSave d o s = fail d 0x0305 s := by
  rw [bodyTableSave, if_neg hk]
  exact if_pos hu

theorem bodyTableSave_begins {s : State} {d : Desc} {o : Obj} (hk : u8 d.bytes 16 ≠ 0)
    (hu : usedBeside s (u8 d.bytes 16) + o.params.length ≤ 2 ^ 20) :
    bodyTableSave d o s = storeBegin d 0x0304 (handleOf o) (u8 d.bytes 16) (some o.params) s := by
  rw [bodyTableSave, if_neg hk]
  exact if_neg (Nat.not_lt.mpr hu)

theorem exec_tableErase_passes {s : State} {d : Desc} (hp : passes 0x0306 d s = true) :
    exec (.tableErase d) s = .next (bodyTableErase d s) := by
  rw [exec_tableErase, execTableErase, runDesc_passes _ hp]

theorem bodyTableErase_noKey {s : State} {d : Desc} (hk : u8 d.bytes 16 = 0) : bodyTableErase d s = fail d 0x0004 s := if_pos hk

theorem bodyTableErase_begins {s : State} {d : Desc} (hk : u8 d.bytes 16 ≠ 0)
    (ha : (storeAhead s).any (fun x => x.1 == u8 d.bytes 16) = true) :
    bodyTableErase d s = storeBegin d 0x0306 0 (u8 d.bytes 16) none s := by
  rw [bodyTableErase, if_neg hk, if_neg (by simp [ha])]

theorem bodyTableErase_free {s : State} {d : Desc} (hk : u8 d.bytes 16 ≠ 0)
    (ha : (storeAhead s).any (fun x => x.1 == u8 d.bytes 16) = false) : bodyTableErase d s = fail d 0x0306 s := by
  rw [bodyTableErase, if_neg hk, if_pos (by simp [ha])]

/-- A write of the store changes the store alone. -/
theorem storePut_frame (k : Nat) (i : Option (List Byte)) (s : State) :
    storePut k i s = { s with eng := { s.eng with store := (storePut k i s).eng.store } } := rfl

/-- A saved image stands under its key. -/
theorem mem_storePut_self (k : Nat) (b : List Byte) (s : State) : (k, b) ∈ (storePut k (some b) s).eng.store := by
  simp [storePut]

/-- An erased key is free. -/
theorem storePut_none_free {k : Nat} {s : State} : ∀ y ∈ (storePut k none s).eng.store, y.1 ≠ k := by
  simp [storePut]

/-- Every other key keeps what it has. -/
theorem mem_storePut_other {k : Nat} {y : Nat × List Byte} (i : Option (List Byte)) (s : State) (hy : y.1 ≠ k) :
    y ∈ (storePut k i s).eng.store ↔ y ∈ s.eng.store := by
  cases i with
  | none => simp [storePut, hy]
  | some b =>
    have hne : y ≠ (k, b) := fun h => hy (by rw [h])
    have hlt := Nat.lt_or_gt_of_ne hy
    simp only [storePut, List.mem_append, List.mem_cons, List.mem_filter, hne, false_or, bne_iff_ne, ne_eq, hy, not_false_eq_true,
      and_true, decide_eq_true_eq]
    tauto

/-- The state with a write done, its descriptor still to complete. -/
def storeWritten (x : TabSave) (s : State) : State := storePut x.key x.image { s with eng := { s.eng with saves := s.eng.saves.erase x } }

/-- A write that no supply warning deferred completes the descriptor that still executes. -/
theorem storeDone_prompt {x : TabSave} {s : State} (hd : ∀ y ∈ s.hif.deferred, y.st.desc ≠ x.desc) :
    storeDone x s = ok x.desc (storeWritten x s) := by
  have hnone : (storeWritten x s).hif.deferred.find? (fun y => (y.op == 0x0304 || y.op == 0x0306) && decide (y.st.desc = x.desc)) = none := by
    rw [List.find?_eq_none]
    intro y hy
    simp [hd y hy]
  unfold storeWritten at *
  simp only [storeDone, hnone]

/-- A deferred one completes the pending descriptor of its save or erase. -/
theorem storeDone_deferred {x : TabSave} {y : Deferred} {s : State} (hd : s.hif.deferred = [y]) (hy : y.st.desc = x.desc)
    (hop : y.op = 0x0304 ∨ y.op = 0x0306) : storeDone x s = completeDeferred y {} (storeWritten x s) := by
  have hsome : (storeWritten x s).hif.deferred.find? (fun y => (y.op == 0x0304 || y.op == 0x0306) && decide (y.st.desc = x.desc))
      = some y := by
    have hd' : (storeWritten x s).hif.deferred = [y] := hd
    rw [hd', List.find?_cons_of_pos]
    rcases hop with hop | hop <;> simp [hop, hy]
  unfold storeWritten at *
  simp only [storeDone, hsome]

theorem execTableSaveWritten_found {s : State} {k : Nat} {x : TabSave} (hx : s.eng.saves.find? (fun x => x.key == k) = some x) :
    execTableSaveWritten k s = .next (if x.begun then storeDone x s else s) := by
  simp only [execTableSaveWritten, hx]

theorem execTableSaveWritten_idle {s : State} {k : Nat} (hx : ∀ x ∈ s.eng.saves, x.key ≠ k) : execTableSaveWritten k s = .next s := by
  have hnone : s.eng.saves.find? (fun x => x.key == k) = none := by
    rw [List.find?_eq_none]
    intro x hm
    simp [hx x hm]
  simp only [execTableSaveWritten, hnone]

theorem execTableSaveWritten_only {s : State} {k : Nat} {x : TabSave} (hs : s.eng.saves = [x]) (hk : x.key = k) (hb : x.begun = true) :
    execTableSaveWritten k s = .next (storeDone x s) := by
  rw [execTableSaveWritten_found (x := x) (by simp [hs, hk]), if_pos hb]

theorem exec_tableRestore_passes {s : State} {d : Desc} (hp : passes 0x0305 d s = true) :
    exec (.tableRestore d) s = .next (bodyTableRestore d s) := by
  rw [exec_tableRestore, execTableRestore, runDesc_passes _ hp]

theorem bodyTableRestore_noKey {s : State} {d : Desc} (hk : u8 d.bytes 16 = 0) : bodyTableRestore d s = fail d 0x0004 s := if_pos hk

theorem bodyTableRestore_free {s : State} {d : Desc} (hk : u8 d.bytes 16 ≠ 0)
    (hx : s.eng.store.find? (fun x => x.1 == u8 d.bytes 16) = none) : bodyTableRestore d s = fail d 0x0306 s := by
  simp only [bodyTableRestore, if_neg hk, hx]

theorem bodyTableRestore_bad {s : State} {d : Desc} {x : Nat × List Byte} {e : PErr} (hk : u8 d.bytes 16 ≠ 0)
    (hx : s.eng.store.find? (fun x => x.1 == u8 d.bytes 16) = some x) (hb : imageBad s x.2 = some e) :
    bodyTableRestore d s = failWith d e.status e.result s := by
  simp only [bodyTableRestore, if_neg hk, hx, hb]

theorem bodyTableRestore_makes {s : State} {d : Desc} {x : Nat × List Byte} (hk : u8 d.bytes 16 ≠ 0)
    (hx : s.eng.store.find? (fun x => x.1 == u8 d.bytes 16) = some x) (hb : imageBad s x.2 = none) :
    bodyTableRestore d s = createNow d tyTable x.2 s := by
  simp only [bodyTableRestore, if_neg hk, hx, hb]

/-- A table refers to nothing. -/
theorem refsOf_table (ps : List Byte) : refsOf tyTable ps = [] := rfl

theorem drivesOnly_table (a b : List Byte) : drivesOnly tyTable a b = [] := by
  simp only [drivesOnly, refsOf_table, List.filter_nil, List.map_nil]

/-! ## Records of one length behind each other -/

@[simp] theorem slice_length (bs : List Byte) (off n : Nat) : (slice bs off n).length = n := by simp [slice_eq_map]

/-- Records of `n` bytes: the first `k` of them are `n * k` bytes. -/
theorem drop_flatMap_records {α : Type} {f : α → List Byte} {n : Nat} :
    ∀ (l : List α), (∀ x ∈ l, (f x).length = n) → ∀ k, (l.flatMap f).drop (n * k) = (l.drop k).flatMap f
  | _, _, 0 => by simp
  | [], _, _ + 1 => by simp
  | x :: l, h, k + 1 => by
    rw [List.flatMap_cons, Nat.mul_succ, Nat.add_comm, ← List.drop_drop, List.drop_left' (h x List.mem_cons_self), List.drop_succ_cons,
      drop_flatMap_records l (fun y hy => h y (List.mem_cons_of_mem _ hy)) k]

theorem length_flatMap_records {α : Type} {f : α → List Byte} {n : Nat} {l : List α} (h : ∀ x ∈ l, (f x).length = n) :
    (l.flatMap f).length = n * l.length := by
  rw [List.length_flatMap, List.map_congr_left h, List.map_const', List.sum_replicate, smul_eq_mul, Nat.mul_comm]

/-- A byte of the record with number `k`. -/
theorem getD_flatMap_records {α : Type} {f : α → List Byte} {n k j : Nat} {l : List α} {x : α} (h : ∀ x ∈ l, (f x).length = n)
    (hx : l[k]? = some x) (hj : j < n) : (l.flatMap f).getD (n * k + j) 0 = (f x).getD j 0 := by
  obtain ⟨hk, rfl⟩ := List.getElem?_eq_some_iff.mp hx
  have hdrop := drop_flatMap_records l h k
  rw [List.drop_eq_getElem_cons hk, List.flatMap_cons] at hdrop
  simp only [List.getD_eq_getElem?_getD, ← List.getElem?_drop, hdrop]
  rw [List.getElem?_append_left (by rw [h _ (List.getElem_mem hk)]; exact hj)]

/-- Bytes within the record with number `k`. -/
theorem slice_flatMap_records {α : Type} {f : α → List Byte} {n k off m : Nat} {l : List α} {x : α} (h : ∀ x ∈ l, (f x).length = n)
    (hx : l[k]? = some x) (hm : off + m ≤ n) : slice (l.flatMap f) (n * k + off) m = slice (f x) off m := by
  rw [slice_eq_map, slice_eq_map]
  refine List.map_congr_left fun j hj => ?_
  have := List.mem_range.mp hj
  rw [Nat.add_assoc]
  exact getD_flatMap_records h hx (by omega)

/-- A record whole. -/
theorem slice_whole (bs : List Byte) : slice bs 0 bs.length = bs := by simp [slice]

/-- The entries of TABLE_LIST. -/
def tableEntries (s : State) : List Byte := (List.range 255).flatMap fun k => storeEntry s (k + 1)

theorem storeEntry_length (s : State) (k : Nat) : (storeEntry s k).length = 8 := by
  unfold storeEntry
  split <;> simp

theorem tableEntries_length (s : State) : (tableEntries s).length = 2040 := by
  rw [tableEntries, length_flatMap_records fun k _ => storeEntry_length s (k + 1), List.length_range]

theorem slice_tableEntries (s : State) {k : Nat} (hk : k < 255) : slice (tableEntries s) (8 * k) 8 = storeEntry s (k + 1) := by
  have h := slice_flatMap_records (off := 0) (m := 8) (fun k _ => storeEntry_length s (k + 1)) (List.getElem?_range hk) (Nat.le_refl 8)
  have hw := slice_whole (storeEntry s (k + 1))
  rw [storeEntry_length] at hw
  exact h.trans hw

/-! ## State machines (R103) -/

theorem exec_smEventArrival (h off code : Nat) (s : State) : exec (.smEventArrival h off code) s = execSmEventArrival h off code s := rfl
theorem exec_smTimerExpiry (h off n : Nat) (s : State) : exec (.smTimerExpiry h off n) s = execSmTimerExpiry h off n s := rfl

/-- The machine bound at a field of an object. -/
def smAt (s : State) (h off : Nat) : Option Sm := (objOf s h).bind fun o => o.sms.find? fun m => m.off == off

theorem smAt_of {s : State} {h off : Nat} {o : Obj} {m : Sm} (ho : objOf s h = some o) (hm : o.sms.find? (fun m => m.off == off) = some m) :
    smAt s h off = some m := by rw [smAt, ho]; exact hm

theorem smQueue_unbound {s : State} {h off : Nat} (code : Nat) (hm : smAt s h off = none) : smQueue h off code s = s := by
  unfold smQueue
  cases ho : objOf s h with
  | none => rfl
  | some o =>
    rw [smAt, ho, Option.bind_some] at hm
    simp only [hm]

/-- An event joins the queue below 16 entries. -/
theorem smQueue_room {s : State} {h off : Nat} {m : Sm} (code : Nat) (hm : smAt s h off = some m) (hq : m.queue.length < 16) :
    smQueue h off code s = updSm h off (fun m => { m with queue := m.queue ++ [code] }) s := by
  unfold smAt at hm
  obtain ⟨o, ho, hf⟩ := Option.bind_eq_some_iff.mp hm
  simp only [smQueue, ho, hf, if_pos hq, updSm]

/-- Beyond, it is dropped. -/
theorem smQueue_full {s : State} {h off : Nat} {m : Sm} (code : Nat) (hm : smAt s h off = some m) (hq : 16 ≤ m.queue.length) :
    smQueue h off code s = raise0 0x0347 h (leBytes 2 code) s := by
  unfold smAt at hm
  obtain ⟨o, ho, hf⟩ := Option.bind_eq_some_iff.mp hm
  simp only [smQueue, ho, hf, if_neg (Nat.not_lt.mpr hq)]

/-- A timer that does not run does not expire. -/
theorem execSmTimerExpiry_idle {s : State} {h off n : Nat} (hm : ((smAt s h off).bind fun m => m.timers.getD n none) = none) :
    execSmTimerExpiry h off n s = .next s := by
  rw [smAt, Option.bind_assoc] at hm
  simp only [execSmTimerExpiry, hm]

/-- An expiry is kept for the next run of the job. -/
theorem execSmTimerExpiry_kept {s : State} {h off n t : Nat} {m : Sm} (hm : smAt s h off = some m) (ht : m.timers.getD n none = some t) :
    execSmTimerExpiry h off n s
      = .next (updSm h off (fun m => { m with timers := m.timers.set n none, expired := m.expired ++ [n] }) (toInstant t s)) := by
  have hb : ((objOf s h).bind fun o => (o.sms.find? fun m => m.off == off).bind fun m => m.timers.getD n none) = some t := by
    rw [← Option.bind_assoc, ← smAt, hm]
    exact ht
  simp only [execSmTimerExpiry, hb]

/-- A run takes over the expiries since the last one. -/
theorem smDue_bound {s : State} {h off : Nat} {m : Sm} (hm : smAt s h off = some m) : smDue h off s
    = m.expired.foldl (fun s n => smQueue h off (0xFF00 + n) s) (updSm h off (fun m => { m with expired := [] }) s) := by
  unfold smAt at hm
  simp only [smDue, hm]

/-- The machine of an object at a field changed. -/
def withSm (off : Nat) (f : Sm → Sm) (o : Obj) : Obj := { o with sms := o.sms.map fun m => if m.off = off then f m else m }

/-- Where an object has one machine, a change of it is found under its handle and at its index. -/
theorem updSm_only {s : State} {h off : Nat} {o : Obj} {m : Sm} {f : Sm → Sm} (ho : objOf s h = some o) (hat : objAt s o.idx = some o)
    (hs : o.sms = [m]) (hm : m.off = off) : objOf (updSm h off f s) h = some { o with sms := [f m] }
      ∧ objAt (updSm h off f s) o.idx = some { o with sms := [f m] } := by
  have hw : withSm off f o = { o with sms := [f m] } := by simp [withSm, hs, hm]
  rw [← hw]
  exact ⟨objOf_updH (f := withSm off f) (fun _ => rfl) ho, objAt_updH (f := withSm off f) (fun _ => rfl) hat (handleOf_of_objOf ho)⟩

theorem smAt_only {s : State} {h off : Nat} {o : Obj} {m : Sm} (ho : objOf s h = some o) (hs : o.sms = [m]) (hm : m.off = off) :
    smAt s h off = some m := smAt_of ho (by simp [hs, hm])

/-- One expiry joins the queue of an object's only machine. -/
theorem smDue_only {s : State} {h off n : Nat} {o : Obj} {m : Sm} (ho : objOf s h = some o) (hat : objAt s o.idx = some o)
    (hs : o.sms = [m]) (hm : m.off = off) (he : m.expired = [n]) (hq : m.queue.length < 16) :
    objAt (smDue h off s) o.idx = some { o with sms := [{ m with expired := [], queue := m.queue ++ [0xFF00 + n] }] } := by
  obtain ⟨ho', hat'⟩ := updSm_only (f := fun m => { m with expired := [] }) ho hat hs hm
  rw [smDue_bound (smAt_only ho hs hm), he, List.foldl_cons, List.foldl_nil, smQueue_room _ (smAt_only ho' rfl hm) hq]
  exact (updSm_only ho' hat' rfl hm).2

/-- Settles O28, opcode by opcode, then the two happenings at a state machine and the run that takes over an expiry. -/
theorem tablesAreSwappedAndSaved : Obligations.TablesAreSwappedAndSaved := by
  refine ⟨fun s d o b hp ho => ⟨fun hb => ?_, fun hb h => ?_, fun hb ht hf => ⟨_, rfl, fun hn => ?_, fun hr => ?_, fun u hr => ?_⟩⟩,
    fun s h hx => execTableSwapTakeEffect_idle hx, fun s h x u hx hu => ?_, fun s h x img hx hdue hc ht ho hi => ?_,
    fun s d o k hp ho hk h0 hu => ?_, fun s d o k hp ho hk => ⟨fun h0 => ?_, fun h0 hu => ?_⟩, fun s d op h k i => ⟨_, rfl, rfl⟩,
    fun s d k hp hk h0 => ⟨fun ha => ?_, fun ha => ?_⟩, fun s d hp h0 => ?_,
    fun s k x hs hk hb => ⟨storeWritten x s, fun hd => ?_, fun y hd hy hop => ?_, ?_, fun b hi => ?_, fun hi => ?_, fun y hy => ?_⟩,
    fun s k x hx => execTableSaveWritten_found hx, fun s k hx => execTableSaveWritten_idle hx,
    fun s d k b i g u hp hk h0 hx hb hti => ?_, fun s d k hp hk h0 hx => ?_, fun s d k b e hp hk h0 hx hb => ?_, fun s d hp h0 => ?_,
    fun s d hp => ⟨tableEntries s, tableEntries_length s, fun k hk => ?_, ?_⟩,
    fun s h off code o m ho hm => ⟨fun hq => ?_, fun hq => ?_⟩, fun s h off hm => ⟨fun code => ?_, fun n => ?_⟩,
    fun s h off n o m ho hm => ⟨fun ht => ?_, fun t ht => ?_⟩,
    fun s h off n o m ho hat hs hm he hq => ⟨_, rfl, smDue_only ho hat hs hm he hq⟩⟩
  · rw [exec_tableSwap_passes hp ho, bodyTableSwap_unnamed o hb]
  · rw [exec_tableSwap_passes hp ho, bodyTableSwap_mismatch hb h]
  · rw [hn]; rfl
  · rw [exec_tableSwap_passes hp ho, bodyTableSwap_full hb ht hf hr]
  · rw [exec_tableSwap_passes hp ho, bodyTableSwap_reserved hb ht hf hr]
  · rw [exec_tableSwapTakeEffect]
    subst hu
    refine ⟨fun ht => execTableSwapTakeEffect_gone hx ht, fun img v ht hv => ?_⟩
    subst hv
    exact execTableSwapTakeEffect_swaps hx ht
  · have hpast := swapInstant_past hdue hc
    have hraise := touches_raise0 0x034C h (leBytes 4 x.arg) (swapAll h x.arg img s)
    have hdone := touches_completeDeferred x { result := x.result } (raise0 0x034C h (leBytes 4 x.arg) (swapAll h x.arg img s))
    refine ⟨_, (execTableSwapTakeEffect_swaps hx (by rw [hpast]; exact ht)).trans (by rw [hpast]), ?_, ?_, ?_⟩
    · rw [hdone.objs, hraise.objs, swapAll_plain ho hi]; rfl
    · rw [hdone.kin, hraise.kin, swapAll_plain ho hi]
    · rw [completeDeferred_deferred, raise0, (runsKept_raiseE _ _ _ _ _ _).deferred, swapAll_plain ho hi]
  · subst hk
    rw [exec_tableSave_passes hp ho, bodyTableSave_begins h0 hu]
  · rw [exec_tableSave_passes hp ho, bodyTableSave_noKey o (hk ▸ h0)]
  · subst hk
    rw [exec_tableSave_passes hp ho, bodyTableSave_full h0 hu]
  · subst hk
    rw [exec_tableErase_passes hp, bodyTableErase_begins h0 ha]
  · subst hk
    rw [exec_tableErase_passes hp, bodyTableErase_free h0 ha]
  · rw [exec_tableErase_passes hp, bodyTableErase_noKey h0]
  · rw [exec_tableSaveWritten, execTableSaveWritten_only hs hk hb, storeDone_prompt hd]
  · rw [exec_tableSaveWritten, execTableSaveWritten_only hs hk hb, storeDone_deferred hd hy hop]
  · rw [storeWritten, storePut_frame]
    simp [hs]
  · rw [storeWritten, hi, hk]
    exact mem_storePut_self k b _
  · rw [storeWritten, hi, hk]
    exact storePut_none_free
  · rw [storeWritten, hk]
    exact mem_storePut_other x.image _ hy
  · subst hk
    refine ⟨newObj u tyTable i g b, rfl, rfl, rfl, rfl, rfl, ?_⟩
    rw [exec_tableRestore_passes hp, bodyTableRestore_makes h0 hx hb, createNow_plain d (by decide) (drivesOnly_table _ _) hti,
      loadMark_other _ _ (by decide) (by decide)]
  · subst hk
    rw [exec_tableRestore_passes hp, bodyTableRestore_free h0 hx]
  · subst hk
    rw [exec_tableRestore_passes hp, bodyTableRestore_bad h0 hx hb]
  · rw [exec_tableRestore_passes hp, bodyTableRestore_noKey h0]
  · rw [slice_tableEntries s hk]
    rfl
  · rw [exec_tableList, execTableList, runDesc_passes _ hp]
    rfl
  · rw [exec_smEventArrival, execSmEventArrival, smQueue_room code (smAt_of ho hm) hq]
    rfl
  · rw [exec_smEventArrival, execSmEventArrival, smQueue_full code (smAt_of ho hm) hq]
  · rw [exec_smEventArrival, execSmEventArrival, smQueue_unbound code hm]
  · exact execSmTimerExpiry_idle (by rw [smAt, hm]; rfl)
  · exact execSmTimerExpiry_idle (by rw [smAt_of ho hm]; exact ht)
  · exact execSmTimerExpiry_kept (smAt_of ho hm) ht

end Sys2Proof.Machine
end

section
/-! PROOFS. Channels, engines and tables (03): flag falls and castling (R84 to R90, R109, R548). -/

namespace Sys2Proof.Machine

theorem exec_jobMove (d : Desc) (s : State) : exec (.jobMove d) s = execJobMove d s := rfl
theorem exec_castleCopyDone (h : Nat) (s : State) : exec (.castleCopyDone h) s = execCastleCopyDone h s := rfl
theorem exec_castleTakeover (h : Nat) (s : State) : exec (.castleTakeover h) s = execCastleTakeover h s := rfl
theorem exec_slotEnd (slot : Nat) (s : State) : exec (.slotEnd slot) s = execSlotEnd slot s := rfl
theorem exec_flagFallLimit (h : Nat) (s : State) : exec (.flagFallLimit h) s = execFlagFallLimit h s := rfl
theorem exec_engineHung (e : Nat) (s : State) : exec (.engineHung e) s = execEngineHung e s := rfl
theorem exec_engineRestore (d : Desc) (b : Bool) (s : State) : exec (.engineRestore d b) s = execEngineRestore d b s := rfl
theorem exec_engineStatus (d : Desc) (s : State) : exec (.engineStatus d) s = execEngineStatus d s := rfl
theorem exec_rebalanceCastle (e q : Nat) (s : State) : exec (.rebalanceCastle e q) s = execRebalanceCastle e q s := rfl

/-! ## JOB_MOVE (R109, R548) -/

theorem exec_jobMove_passes {s : State} {d : Desc} {o : Obj} (hp : passes 0x0300 d s = true) (ho : objOf s (dHandle d) = some o) :
    exec (.jobMove d) s = .next (bodyJobMove d o s) := by
  rw [exec_jobMove, execJobMove, runObj_passes _ hp ho]

theorem bodyJobMove_state {s : State} {o : Obj} (d : Desc) (he : o.ost ≠ .enabled) : bodyJobMove d o s = fail d 0x000E s :=
  if_pos (by simp [isEnabled, he])

theorem bodyJobMove_castling {s : State} {o : Obj} (d : Desc) (he : o.ost = .enabled) (hm : moveOf s (handleOf o) ≠ none) :
    bodyJobMove d o s = fail d 0x0302 s := by
  rw [bodyJobMove, if_neg (by simp [isEnabled, he]), if_pos (Option.isSome_iff_ne_none.mpr hm)]

theorem bodyJobMove_param {s : State} {d : Desc} {o : Obj} (he : o.ost = .enabled) (hm : moveOf s (handleOf o) = none)
    (hb : u8 d.bytes 16 = 0 ∨ 24 ≤ u8 d.bytes 16 ∧ u8 d.bytes 16 ≠ 0xFF ∨ 2 ≤ u8 d.bytes 18) : bodyJobMove d o s = fail d 0x0004 s := by
  rw [bodyJobMove, if_neg (by simp [isEnabled, he]), if_neg (by simp [hm])]
  refine if_pos ?_
  rcases hb with h | ⟨h, hf⟩ | h
  · exact .inl (by omega)
  · exact .inl (by omega)
  · exact .inr (.inr h)

/-- The placement that a JOB_MOVE asks for: any engine or first slot where it names none. -/
def moveFind (d : Desc) (o : Obj) (s : State) : Option (Nat × Nat) :=
  placeFind s o.typ (jobRate o.act) (heldCost s o) (if u8 d.bytes 16 = 0xFF then none else some (u8 d.bytes 16))
    (if u8 d.bytes 17 = 0xFF then none else some (u8 d.bytes 17)) none

/-- A JOB_MOVE that a placement fits: no move where the job stays, else one that the take-over completes. -/
theorem bodyJobMove_placed {s : State} {d : Desc} {o : Obj} {p : Nat × Nat} (he : o.ost = .enabled) (hm : moveOf s (handleOf o) = none)
    (hE : u8 d.bytes 16 = 0xFF ∨ 1 ≤ u8 d.bytes 16 ∧ u8 d.bytes 16 ≤ 23 ∧ engineOut s (u8 d.bytes 16) = false)
    (hQ : u8 d.bytes 17 = 0xFF ∨ (firstSlots o.typ (jobRate o.act)).contains (u8 d.bytes 17) = true) (hpin : u8 d.bytes 18 < 2)
    (hp : moveFind d o s = some p) : bodyJobMove d o s
      = if p = (o.engine, o.slots) then okWith d (moveResult o.engine o.engine o.slots o.epoch) s
        else defer d 0x0300 (handleOf o) (nextBoundary s.gtc + 2 * frameTicks) [] 0 (startMove o p.1 p.2 0 (u8 d.bytes 18 == 1) s) := by
  have hrange : ¬ (¬ (u8 d.bytes 16 = 0xFF ∨ (1 ≤ u8 d.bytes 16 ∧ u8 d.bytes 16 ≤ 23))
      ∨ ¬ (u8 d.bytes 17 = 0xFF ∨ (firstSlots o.typ (jobRate o.act)).contains (u8 d.bytes 17) = true) ∨ 2 ≤ u8 d.bytes 18) := by
    rintro (h | h | h)
    · exact h (hE.imp_right fun h => ⟨h.1, h.2.1⟩)
    · exact h hQ
    · omega
  have hin : ¬ (u8 d.bytes 16 ≠ 0xFF ∧ engineOut s (u8 d.bytes 16) = true) := by
    rintro ⟨hne, hout⟩
    obtain hff | ⟨-, -, hserves⟩ := hE
    · exact hne hff
    · rw [hserves] at hout; cases hout
  unfold moveFind at hp
  rw [bodyJobMove, if_neg (by simp [isEnabled, he]), if_neg (by simp [hm])]
  simp only [if_neg hrange, if_neg hin, hp]
  rfl

/-! ## Castling (R88 to R90) -/

theorem execCastleCopyDone_idle {s : State} {h : Nat} (hm : moveOf s h = none) : execCastleCopyDone h s = .next s := by
  simp only [execCastleCopyDone, hm]

/-- The copy of a move ends at its boundary. -/
theorem execCastleCopyDone_moves {s : State} {h : Nat} {m : Move} (hm : moveOf s h = some m) : execCastleCopyDone h s
    = .next { toInstant m.boundary s with eng := { (toInstant m.boundary s).eng with
        moves := (toInstant m.boundary s).eng.moves.map fun x => if x = m then { x with copied := true } else x } } := by
  simp only [execCastleCopyDone, hm]

theorem execCastleTakeover_idle {s : State} {h : Nat} (hm : moveOf s h = none) : execCastleTakeover h s = .next s := by
  simp only [execCastleTakeover, hm]

theorem execCastleTakeover_uncopied {s : State} {h : Nat} {m : Move} (hm : moveOf s h = some m) (hc : m.copied = false) :
    execCastleTakeover h s = .next s := by
  rw [execCastleTakeover, hm]
  cases objOf s h with
  | none => rfl
  | some o => simp only [hc, Bool.not_false, if_true]

/-- A job on its new engine, in its new slots, under its next epoch (R88, R89). -/
def onNewEngine (m : Move) (ep : Nat) (o : Obj) : Obj :=
  { o with engine := m.newE, slots := m.newSlots, epoch := ep
           params := headAfterMove m.newE m.newSlots m.pin o.params
           act := headAfterMove m.newE m.newSlots m.pin o.act }

/-- The take-over itself: the old slots are released, the job changes engines, the move ends. -/
def takenOver (m : Move) (o : Obj) (s : State) : State :=
  let t := updObj o.idx (onNewEngine m (epochNext o.epoch)) (addLoad m.oldE m.oldSlots (heldCost s o) true s)
  { t with eng := { t.eng with moves := t.eng.moves.erase m } }

/-- The take-over is followed by its event and the completion of a JOB_MOVE, which leave objects and engines. -/
theorem execCastleTakeover_copied {s : State} {h : Nat} {m : Move} {o : Obj} (hm : moveOf s h = some m) (ho : objOf s h = some o)
    (hc : m.copied = true) : ∃ t, execCastleTakeover h s = .next t ∧ Touches (takenOver m o (toInstant (m.boundary + 2 * frameTicks) s)) t := by
  rw [execCastleTakeover, hm, ho]
  simp only [hc, Bool.not_true, Bool.false_eq_true, if_false]
  exact ⟨_, rfl, (touches_raiseE _ _ _ _ _ _).trans (touches_finishDeferred _ _ _ _)⟩

theorem objAt_takenOver_same {m : Move} {o : Obj} {s : State} (hat : objAt s o.idx = some o) :
    objAt (takenOver m o s) o.idx = some (onNewEngine m (epochNext o.epoch) o) :=
  objAt_updObj_same (s := addLoad m.oldE m.oldSlots (heldCost s o) true s) (fun _ => rfl) hat

theorem objAt_takenOver_other {m : Move} {o : Obj} {i : Nat} (s : State) (hi : i ≠ o.idx) : objAt (takenOver m o s) i = objAt s i :=
  objAt_updObj_other (s := addLoad m.oldE m.oldSlots (heldCost s o) true s) (fun _ => rfl) hi

/-! ## Flag fall (R84 to R87) -/

/-- One more flag fall of an object. -/
def withFlagFall (o : Obj) : Obj := { o with ffTotal := satInc 32 o.ffTotal, ffConsec := satInc 16 o.ffConsec }

/-- A flag fall of an object, before its event. -/
def fallCounted (f : Falling) (s : State) : State :=
  updEngine f.engine (fun x => { x with falls := wrapInc 32 x.falls }) (updObj f.idx withFlagFall s)

theorem flagFall_unplaced {f : Falling} {s : State} (ho : objAt s f.idx = none) : flagFall f s = s := by
  simp only [flagFall, ho]

/-- A flag fall counts, and its event touches nothing else. -/
theorem flagFall_touches {f : Falling} {s : State} {o : Obj} (ho : objAt s f.idx = some o) : Touches (fallCounted f s) (flagFall f s) := by
  simp only [flagFall, ho]
  exact touches_raiseLimited _ _ _ _ _ _ _ _ _ _

theorem flagFall_falling (f : Falling) (s : State) : (flagFall f s).eng.falling = s.eng.falling := by
  cases ho : objAt s f.idx with
  | none => rw [flagFall_unplaced ho]
  | some o => rw [(flagFall_touches ho).eng]; rfl

theorem objAt_flagFall_other {f : Falling} {i : Nat} (s : State) (hi : f.idx ≠ i) : objAt (flagFall f s) i = objAt s i := by
  cases ho : objAt s f.idx with
  | none => rw [flagFall_unplaced ho]
  | some o =>
    rw [objAt_congr (flagFall_touches ho).objs]
    exact objAt_updObj_other (fun _ => rfl) (Ne.symm hi)

theorem objAt_flagFall_same {f : Falling} {s : State} {o : Obj} (ho : objAt s f.idx = some o) :
    objAt (flagFall f s) f.idx = some (withFlagFall o) := by
  rw [objAt_congr (flagFall_touches ho).objs]
  exact objAt_updObj_same (fun _ => rfl) ho

/-- The flag falls of several jobs leave the list of falling jobs and every other object. -/
theorem foldl_flagFall_falling : ∀ (l : List Falling) (s : State), (l.foldl (fun s f => flagFall f s) s).eng.falling = s.eng.falling
  | [], _ => rfl
  | f :: l, s => by rw [List.foldl_cons, foldl_flagFall_falling l, flagFall_falling]

theorem objAt_foldl_flagFall {i : Nat} : ∀ (l : List Falling) (s : State), (∀ f ∈ l, f.idx ≠ i) →
    objAt (l.foldl (fun s f => flagFall f s) s) i = objAt s i
  | [], _, _ => rfl
  | f :: l, s, h => by
    rw [List.foldl_cons, objAt_foldl_flagFall l _ fun g hg => h g (List.mem_cons_of_mem _ hg),
      objAt_flagFall_other s (h f List.mem_cons_self)]

/-- The jobs that fall at the end of a slot (R83). -/
def fallsIn (s : State) (slot : Nat) : List Falling := s.eng.falling.filter fun f => f.slot == slot

/-- The end of a slot, its runs of falls counted (R87). -/
def slotEnded (slot : Nat) (s : State) : State :=
  let u := toInstant (frameStart s.gtc + slotTicks * (slot + 1) - 1) s
  { u with eng := { u.eng with engines := u.eng.engines.mapIdx (fallRunNext u slot) } }

theorem slotEnded_falling (slot : Nat) (s : State) : (slotEnded slot s).eng.falling = s.eng.falling := by
  simp [slotEnded]

theorem objAt_slotEnded (slot : Nat) (s : State) (i : Nat) : objAt (slotEnded slot s) i = objAt s i :=
  objAt_congr (by simp [slotEnded]) i

/-- The end of a slot with the flag falls of its jobs. -/
def slotFallen (slot : Nat) (s : State) : State := (fallsIn s slot).foldl (fun s f => flagFall f s) (slotEnded slot s)

theorem execSlotEnd_eq (slot : Nat) (s : State) : execSlotEnd slot s
    = .next { slotFallen slot s with eng := { (slotFallen slot s).eng with falling := s.eng.falling.filter fun f => f.slot != slot } } := by
  have hf : (slotFallen slot s).eng.falling = s.eng.falling := (foldl_flagFall_falling _ _).trans (slotEnded_falling slot s)
  rw [← hf]
  unfold slotFallen fallsIn slotEnded
  rw [execSlotEnd]
  simp only [toInstant_eng]

/-- Where no job falls in the slot, only the runs of falls change. -/
theorem execSlotEnd_quiet {s : State} {slot : Nat} (h : ∀ f ∈ s.eng.falling, f.slot ≠ slot) :
    execSlotEnd slot s = .next (slotEnded slot s) := by
  have hnone : fallsIn s slot = [] := List.filter_eq_nil_iff.mpr fun f hf => by simp [h f hf]
  have hall : s.eng.falling.filter (fun f => f.slot != slot) = s.eng.falling := List.filter_eq_self.mpr fun f hf => by simp [h f hf]
  have hsame (t : State) : { t with eng := { t.eng with falling := t.eng.falling } } = t := rfl
  rw [execSlotEnd_eq, slotFallen, hnone, hall, List.foldl_nil, ← slotEnded_falling slot s, hsame]

theorem execFlagFallLimit_reached {s : State} {h : Nat} {o : Obj} (ho : objOf s h = some o) (ht : jobTypes.contains o.typ = true)
    (h0 : jobFfLimit o.act ≠ 0) (hl : jobFfLimit o.act ≤ o.ffConsec) : execFlagFallLimit h s = .next (class1 h 0x0341 [] s) := by
  rw [execFlagFallLimit, ho]
  exact congrArg Host.Outcome.next (if_pos (by rw [ht]; simp [h0, hl]))

theorem execFlagFallLimit_unnamed {s : State} {h : Nat} (ho : objOf s h = none) : execFlagFallLimit h s = .next s := by
  rw [execFlagFallLimit, ho]

theorem execFlagFallLimit_below {s : State} {h : Nat} {o : Obj} (ho : objOf s h = some o)
    (hl : jobFfLimit o.act = 0 ∨ o.ffConsec < jobFfLimit o.act) : execFlagFallLimit h s = .next s := by
  rw [execFlagFallLimit, ho]
  refine congrArg Host.Outcome.next (if_neg ?_)
  simp only [Bool.and_eq_true, decide_eq_true_eq, bne_iff_ne]
  rintro ⟨⟨-, h0⟩, hle⟩
  omega

/-! ## Hung engines and their restore (R86, R90) -/

/-- An engine leaves service, with its event and the moves to it abandoned. -/
def engineLeaves (e : Nat) (s : State) : State :=
  abortMovesTo e (raise0 0x0344 0 (leBytes 1 e) (updEngine e (fun x => { x with svc := 2 }) s))

/-- The enabled jobs of an engine, in the order of their indices. -/
def jobsOn (e : Nat) (s : State) : List Obj := s.objs.filter fun o => isEnabled o && o.engine == e && jobTypes.contains o.typ

theorem execEngineHung_idle {s : State} {e : Nat} (h : e = 0 ∨ 24 ≤ e ∨ engineOut s e = true) : execEngineHung e s = .next s := by
  rw [execEngineHung, if_pos h]

theorem execEngineHung_leaves {s : State} {e : Nat} (h1 : 1 ≤ e) (h24 : e < 24) (ho : engineOut s e = false) :
    execEngineHung e s = .next ((jobsOn e (engineLeaves e s)).foldl (fun s o => evacuate e o s) (engineLeaves e s)) := by
  have h : ¬ (e = 0 ∨ 24 ≤ e ∨ engineOut s e = true) := by
    rintro (h | h | h)
    · omega
    · omega
    · rw [ho] at h; cases h
  rw [execEngineHung, if_neg h]
  rfl

theorem abortMovesTo_of_no_moves {s : State} (e : Nat) (h : s.eng.moves = []) : abortMovesTo e s = s := by
  rw [abortMovesTo, h]; rfl

/-- An engine without moves and jobs just leaves. -/
theorem execEngineHung_empty {s : State} {e : Nat} (h1 : 1 ≤ e) (h24 : e < 24) (ho : engineOut s e = false) (hm : s.eng.moves = [])
    (hj : ∀ o ∈ s.objs, o.engine ≠ e) :
    execEngineHung e s = .next (raise0 0x0344 0 (leBytes 1 e) (updEngine e (fun x => { x with svc := 2 }) s)) := by
  have hraise := touches_raise0 0x0344 0 (leBytes 1 e) (updEngine e (fun x => { x with svc := 2 }) s)
  have hleaves : engineLeaves e s = raise0 0x0344 0 (leBytes 1 e) (updEngine e (fun x => { x with svc := 2 }) s) :=
    abortMovesTo_of_no_moves e (by rw [hraise.eng]; exact hm)
  have hnone : jobsOn e (engineLeaves e s) = [] := by
    rw [jobsOn, hleaves, hraise.objs]
    exact List.filter_eq_nil_iff.mpr fun o hm => by simp [hj o hm]
  rw [execEngineHung_leaves h1 h24 ho, hnone, hleaves, List.foldl_nil]

theorem evacuate_pinned {s : State} {o : Obj} (e : Nat) (hm : moveOf s (handleOf o) = none) (hp : jobPlacement o.act ≠ 0) :
    evacuate e o s = class1 (handleOf o) 0x0345 (leBytes 1 e) s := by
  rw [evacuate, if_neg (by simp [hm]), if_pos hp]

theorem evacuate_unfit {s : State} {o : Obj} {e : Nat} (hm : moveOf s (handleOf o) = none) (hp : jobPlacement o.act = 0)
    (hf : placeFind s o.typ (jobRate o.act) (heldCost s o) none none (some e) = none) :
    evacuate e o s = class1 (handleOf o) 0x0345 (leBytes 1 e) s := by
  rw [evacuate, if_neg (by simp [hm]), if_neg (by simp [hp]), hf]

theorem evacuate_fits {s : State} {o : Obj} {e : Nat} {p : Nat × Nat} (hm : moveOf s (handleOf o) = none) (hp : jobPlacement o.act = 0)
    (hf : placeFind s o.typ (jobRate o.act) (heldCost s o) none none (some e) = some p) :
    evacuate e o s = startMove o p.1 p.2 2 false s := by
  rw [evacuate, if_neg (by simp [hm]), if_neg (by simp [hp]), hf]

theorem exec_engineRestore_passes {s : State} {d : Desc} (b : Bool) (hp : passes 0x0302 d s = true) :
    exec (.engineRestore d b) s = .next (bodyEngineRestore d b s) := by
  rw [exec_engineRestore, execEngineRestore, runDesc_passes _ hp]

theorem bodyEngineRestore_param {s : State} {d : Desc} (b : Bool) (h : u8 d.bytes 16 = 0 ∨ 24 ≤ u8 d.bytes 16) :
    bodyEngineRestore d b s = fail d 0x0004 s := if_pos h

/-- The outcome of ENGINE_RESTORE for an engine that there is. -/
theorem bodyEngineRestore_engine {s : State} {d : Desc} (b : Bool) (h1 : 1 ≤ u8 d.bytes 16) (h24 : u8 d.bytes 16 < 24) :
    bodyEngineRestore d b s = if engineOut s (u8 d.bytes 16) then
        if b then okWith d [1] (updEngine (u8 d.bytes 16) (fun x => { x with svc := 0 }) s) else fail d 0x030B s
      else okWith d [0] s := by
  rw [bodyEngineRestore, if_neg (by omega)]
  cases engineOut s (u8 d.bytes 16) <;> rfl

/-! ## ENGINE_STATUS (R109) -/

/-- Bytes in the middle of a block. -/
theorem slice_append_mid {a v c : List Byte} {n off m : Nat} (ha : a.length = n) (hm : off + m ≤ v.length) :
    slice (a ++ (v ++ c)) (n + off) m = slice v off m := by
  subst ha
  rw [slice_eq_map, slice_eq_map]
  refine List.map_congr_left fun j hj => ?_
  have hj' := List.mem_range.mp hj
  simp only [List.getD_eq_getElem?_getD]
  rw [List.getElem?_append_right (by omega), List.getElem?_append_left (by omega)]
  congr 2
  omega

/-- A number in the middle of a block. -/
theorem leNat_append_mid {a c : List Byte} {n : Nat} (k v : Nat) (ha : a.length = n) :
    leNat (slice (a ++ (leBytes k v ++ c)) n k) = v % 256 ^ k := by
  have hv := slice_whole (leBytes k v)
  rw [leBytes_length] at hv
  rw [show n = n + 0 from rfl, slice_append_mid ha (by simp), hv, leNat_leBytes]

/-- The loads of an engine as they are written. -/
def loadBytes (x : Engine) : List Byte := x.loads.flatMap (leBytes 2)

theorem loadBytes_length {x : Engine} (hl : x.loads.length = 16) : (loadBytes x).length = 32 := by
  rw [loadBytes, length_flatMap_records fun l _ => leBytes_length 2 l, hl]

theorem u16_loadBytes {x : Engine} {q : Nat} (hl : x.loads.length = 16) (hq : q < 16) :
    leNat (slice (loadBytes x) (2 * q) 2) = x.loads.getD q 0 % 2 ^ 16 := by
  have hx : x.loads[q]? = some (x.loads[q]) := List.getElem?_eq_getElem (by omega)
  have hw := slice_whole (leBytes 2 x.loads[q])
  rw [leBytes_length] at hw
  have hs := slice_flatMap_records (off := 0) (m := 2) (fun l _ => leBytes_length 2 l) hx (Nat.le_refl 2)
  rw [loadBytes, show 2 * q = 2 * q + 0 from rfl, hs, hw, leNat_leBytes, List.getD_eq_getElem?_getD, hx]
  rfl

/-- The first four bytes of an engine's record. -/
def engineHead (s : State) (e : Nat) (x : Engine) : List Byte :=
  leBytes 1 x.svc ++ leBytes 1 (s.objs.filter fun o => o.ost != .disabled && o.engine == e && jobTypes.contains o.typ).length ++ [0, 0]

section
variable {s : State} {e peak : Nat} {x : Engine}

theorem engineHead_length : (engineHead s e x).length = 4 := by simp [engineHead]

theorem engineRecord_eq : engineRecord s e peak x = engineHead s e x ++ (leBytes 4 x.falls
    ++ (loadBytes x ++ (leBytes 2 (peak % (peakMax s x + 1)) ++ List.replicate 6 0))) := by
  simp only [engineRecord, engineHead, loadBytes, List.append_assoc]

theorem engineRecord_length (hl : x.loads.length = 16) : (engineRecord s e peak x).length = 48 := by
  simp [engineRecord_eq, engineHead_length, loadBytes_length hl]

theorem engineRecord_svc : u8 (engineRecord s e peak x) 0 = x.svc % 256 := by
  simp [engineRecord, u8, leBytes]

theorem engineRecord_falls : u32 (engineRecord s e peak x) 4 = x.falls % 2 ^ 32 := by
  rw [u32, engineRecord_eq, leNat_append_mid 4 x.falls engineHead_length, show 256 ^ 4 = 2 ^ 32 by decide]

theorem engineRecord_load (hl : x.loads.length = 16) {q : Nat} (hq : q < 16) :
    u16 (engineRecord s e peak x) (8 + 2 * q) = x.loads.getD q 0 % 2 ^ 16 := by
  have hlen : (engineHead s e x ++ leBytes 4 x.falls).length = 8 := by simp [engineHead_length]
  rw [u16, engineRecord_eq, ← List.append_assoc (engineHead s e x),
    slice_append_mid hlen (by rw [loadBytes_length hl]; omega), u16_loadBytes hl hq]

/-- The peak is at most a slot's cycles. -/
theorem engineRecord_peak (hl : x.loads.length = 16) : u16 (engineRecord s e peak x) 40 ≤ peakMax s x := by
  have hlen : ((engineHead s e x ++ leBytes 4 x.falls) ++ loadBytes x).length = 40 := by simp [engineHead_length, loadBytes_length hl]
  have hmod : peak % (peakMax s x + 1) < peakMax s x + 1 := Nat.mod_lt _ (by omega)
  have hle : peak % (peakMax s x + 1) % 256 ^ 2 ≤ peak % (peakMax s x + 1) := Nat.mod_le _ _
  rw [u16, engineRecord_eq, ← List.append_assoc (engineHead s e x), ← List.append_assoc (engineHead s e x ++ leBytes 4 x.falls),
    leNat_append_mid 2 _ hlen]
  omega

end

/-- The records that ENGINE_STATUS writes. -/
def engineRecords (s : State) : List Byte :=
  s.eng.engines.zipIdx.flatMap fun x => engineRecord s x.2 (Config.freeValue (s.freeCount + x.2)) x.1

theorem exec_engineStatus_passes {s : State} {d : Desc} (hp : passes 0x0301 d s = true) :
    exec (.engineStatus d) s = .next (writeBack d (engineRecords s) {} { s with freeCount := s.freeCount + 24 }) := by
  rw [exec_engineStatus, execEngineStatus, runDesc_passes _ hp]
  rfl

section
variable {s : State} (hl : ∀ x ∈ s.eng.engines, x.loads.length = 16)
include hl

theorem engineRecord_length_of_mem (x : Engine × Nat) (hx : x ∈ s.eng.engines.zipIdx) :
    (engineRecord s x.2 (Config.freeValue (s.freeCount + x.2)) x.1).length = 48 :=
  engineRecord_length (hl _ (List.fst_mem_of_mem_zipIdx hx))

theorem engineRecords_length (hn : s.eng.engines.length = 24) : (engineRecords s).length = 1152 := by
  rw [engineRecords, length_flatMap_records (engineRecord_length_of_mem hl), List.length_zipIdx, hn]

/-- Bytes of one engine's record. -/
theorem slice_engineRecords {e off m : Nat} {x : Engine} (hx : s.eng.engines[e]? = some x) (hm : off + m ≤ 48) :
    slice (engineRecords s) (48 * e + off) m = slice (engineRecord s e (Config.freeValue (s.freeCount + e)) x) off m :=
  slice_flatMap_records (x := (x, e)) (engineRecord_length_of_mem hl) (by simp [List.getElem?_zipIdx, hx]) hm

theorem u8_engineRecords {e : Nat} {x : Engine} (hx : s.eng.engines[e]? = some x) :
    u8 (engineRecords s) (48 * e) = u8 (engineRecord s e (Config.freeValue (s.freeCount + e)) x) 0 :=
  congrArg BitVec.toNat (getD_flatMap_records (x := (x, e)) (j := 0) (engineRecord_length_of_mem hl)
    (by simp [List.getElem?_zipIdx, hx]) (by decide))

end

/-! ## REBALANCE_CASTLE (R87) -/

/-- Frames in a row with a flag fall in a slot of an engine. -/
def fallRunOf (s : State) (e q : Nat) : Nat := ((s.eng.engines[e]?).map fun x => x.fallRun.getD q 0).getD 0

/-- The jobs of an engine slot that may be castled away. -/
def movableIn (s : State) (e q : Nat) : List Obj :=
  s.objs.filter fun o => isEnabled o && o.engine == e && jobTypes.contains o.typ && bit o.slots q && jobPlacement o.act == 0
    && jobRebalance o.act && (moveOf s (handleOf o)).isNone

theorem execRebalanceCastle_idle {s : State} {e q : Nat} (h : fallRunOf s e q < 3 ∨ ∃ m ∈ s.eng.moves, m.cause = 1) :
    execRebalanceCastle e q s = .next s := by
  rw [execRebalanceCastle]
  refine congrArg Host.Outcome.next (if_pos (h.imp_right ?_))
  rintro ⟨m, hm, hc⟩
  exact List.any_eq_true.mpr ⟨m, hm, by simp [hc]⟩

theorem execRebalanceCastle_castles {s : State} {e q : Nat} {o : Obj} {p : Nat × Nat} (hr : 3 ≤ fallRunOf s e q)
    (hm : ∀ m ∈ s.eng.moves, m.cause ≠ 1) (hc : costliest (movableIn s e q) = some o)
    (hp : placeFind s o.typ (jobRate o.act) (heldCost s o) none none (some e) = some p) : execRebalanceCastle e q s
      = .next (updEngine e (fun x => { x with fallRun := x.fallRun.set q 0 }) (startMove o p.1 p.2 1 false s)) := by
  have h : ¬ (fallRunOf s e q < 3 ∨ s.eng.moves.any (fun m => m.cause == 1) = true) := by
    rintro (h | h)
    · omega
    · obtain ⟨m, hmem, h1⟩ := List.any_eq_true.mp h
      exact hm m hmem (by simpa using h1)
  unfold fallRunOf at h
  unfold movableIn at hc
  rw [execRebalanceCastle]
  simp only [if_neg h, hc, hp]

/-- Settles O26, opcode by opcode and happening by happening. -/
theorem enginesRunAndMoveJobs : Obligations.EnginesRunAndMoveJobs := by
  refine ⟨fun s d o p hp ho he hm hE hQ hpin hf => ⟨fun hsame => ?_, fun hne => ⟨_, _, rfl, rfl, ?_⟩⟩,
    fun s d o hp ho => ⟨fun he => ?_, fun he hm => ?_, fun he hm hb => ?_⟩,
    fun s h m hm => ⟨_, rfl, execCastleCopyDone_moves hm⟩, fun s h hm => ⟨execCastleCopyDone_idle hm, execCastleTakeover_idle hm⟩,
    fun s h m hm hc => execCastleTakeover_uncopied hm hc, fun s h m o ep hm ho hc hat hep => ?_,
    fun e msk ps => ⟨fun h => if_pos h, fun h => ⟨?_, ?_⟩⟩, fun s slot u hno hu => ?_, fun s slot => ?_,
    fun s h o ho ht h0 hl => execFlagFallLimit_reached ho ht h0 hl, fun s h hno => ?_,
    fun s e h1 h24 ho => ⟨_, rfl, execEngineHung_leaves h1 h24 ho⟩, fun s e o hm => ?_, fun s e h => execEngineHung_idle h,
    fun s e h1 h24 ho hm hj => execEngineHung_empty h1 h24 ho hm hj, fun s d hp h1 h24 => ⟨fun ho => ⟨?_, ?_⟩, fun ho b => ?_⟩,
    fun s d b hp h => ?_, fun s d hp => ⟨engineRecords s, exec_engineStatus_passes hp, fun hn hl =>
      ⟨engineRecords_length hl hn, fun e x hx => ⟨?_, ?_, ?_, fun q hq => ?_⟩⟩⟩,
    fun s e q o p hr hm hc hp => ⟨_, _, _, execRebalanceCastle_castles hr hm hc hp, rfl, rfl, rfl, rfl, rfl, rfl, rfl, rfl, rfl, rfl⟩,
    fun s e q h => execRebalanceCastle_idle h⟩
  · rw [exec_jobMove_passes hp ho, bodyJobMove_placed he hm hE hQ hpin hf, if_pos hsame]
    rfl
  · rw [exec_jobMove_passes hp ho, bodyJobMove_placed he hm hE hQ hpin hf, if_neg hne]
    rfl
  · rw [exec_jobMove_passes hp ho, bodyJobMove_state d he]
  · rw [exec_jobMove_passes hp ho, bodyJobMove_castling d he hm]
  · rw [exec_jobMove_passes hp ho, bodyJobMove_param he hm hb]
  · obtain rfl : ep = epochNext o.epoch := hep
    obtain ⟨t, ht, htouch⟩ := execCastleTakeover_copied hm ho hc
    have hobjs (i : Nat) : objAt (toInstant (m.boundary + 2 * frameTicks) s) i = objAt s i := objAt_congr (toInstant_objs _ s) i
    refine ⟨_, t, rfl, ht, ?_, ?_, fun i hi => ?_⟩
    · rw [objAt_congr htouch.objs, objAt_takenOver_same ((hobjs _).trans hat)]
      rfl
    · rw [htouch.eng, takenOver]
      simp [addLoad, updEngine]
    · rw [objAt_congr htouch.objs, objAt_takenOver_other _ hi, hobjs]
  · simp [headAfterMove, h]
  · simp [headAfterMove, h]
  · subst hu
    exact execSlotEnd_quiet hno
  · refine ⟨_, execSlotEnd_eq slot s, rfl, fun i hi => ?_, fun f o hf hslot ho => ?_⟩
    · exact (objAt_foldl_flagFall _ _ fun f hf => by
        obtain ⟨hmem, hslot⟩ := List.mem_filter.mp hf
        exact hi f hmem (by simpa using hslot)).trans (objAt_slotEnded slot s i)
    · have hmine : fallsIn s slot = [f] := by simp [fallsIn, hf, hslot]
      have hfall : objAt (slotFallen slot s) f.idx = some (withFlagFall o) := by
        rw [slotFallen, hmine, List.foldl_cons, List.foldl_nil]
        exact objAt_flagFall_same ((objAt_slotEnded slot s _).trans ho)
      exact hfall
  · obtain ho | ⟨o, ho, hl⟩ := hno
    · exact execFlagFallLimit_unnamed ho
    · exact execFlagFallLimit_below ho hl
  · by_cases hp : jobPlacement o.act = 0
    · rw [if_pos hp]
      split
      · next hf => exact evacuate_unfit hm hp hf
      · next p hf => exact evacuate_fits hm hp hf
    · rw [if_neg hp, evacuate_pinned e hm hp]
  · rw [exec_engineRestore_passes _ hp, bodyEngineRestore_engine _ h1 h24, if_pos ho, if_pos rfl]
  · rw [exec_engineRestore_passes _ hp, bodyEngineRestore_engine _ h1 h24, if_pos ho]
    rfl
  · rw [exec_engineRestore_passes _ hp, bodyEngineRestore_engine _ h1 h24, ho]
    rfl
  · rw [exec_engineRestore_passes _ hp, bodyEngineRestore_param b h]
  · rw [u8_engineRecords hl hx, engineRecord_svc]
  · rw [u32, slice_engineRecords hl hx (by decide), ← u32, engineRecord_falls]
  · rw [u16, slice_engineRecords hl hx (by decide), ← u16]
    exact engineRecord_peak (hl x (List.mem_of_getElem? hx))
  · rw [u16, Nat.add_assoc, slice_engineRecords hl hx (by omega), ← u16, engineRecord_load (hl x (List.mem_of_getElem? hx)) hq]

end Sys2Proof.Machine
end

section
/-! PROOFS. Kinematics (04): the block, the origin, enabling and disabling, host fixes, the state block and prediction (R112, R113,
R115 to R117, R121, R147 to R149). -/

namespace Sys2Proof.Machine

/-! ## What depends on the unit's own state alone, and how its state and its direction change -/

section
variable {s t : State} (h : t.kin = s.kin)
include h

theorem kc8_congr (off : Nat) : kc8 t off = kc8 s off := by rw [kc8, h, kc8]

theorem sources_congr : sources t = sources s := by simp only [sources, srcPrio, kc8, h]

theorem srcOf_congr (k : Nat) : srcOf t k = srcOf s k := by simp only [srcOf, h]

end

theorem setReverse_eq (w : Bool) (s : State) : setReverse w s
    = if s.kin.reverse = w then s else raise0 0x044E 0 (leBytes 1 (b2n w)) { s with kin := { s.kin with reverse := w } } := by
  simp only [setReverse, beq_iff_eq]

/-- REVERSE has the value given, and an event may have been raised (R127). -/
theorem touches_setReverse (w : Bool) (s : State) : Touches { s with kin := { s.kin with reverse := w } } (setReverse w s) := by
  rw [setReverse_eq]
  split
  · next h => subst h; exact Touches.refl s
  · exact touches_raise0 _ _ _ _

theorem setReverse_deferred (w : Bool) (s : State) : (setReverse w s).hif.deferred = s.hif.deferred := by
  rw [setReverse_eq]
  split
  · rfl
  · exact (runsKept_raiseE _ _ _ _ _ _).deferred

/-- The unit has the state given, and an event may have been raised (R115). -/
theorem touches_setKState (n : Nat) (s : State) : Touches { s with kin := { s.kin with kstate := n } } (setKState n s) := by
  unfold setKState
  split
  · next h => subst h; exact Touches.refl s
  · exact touches_raise0 _ _ _ _

theorem setKState_deferred (n : Nat) (s : State) : (setKState n s).hif.deferred = s.hif.deferred := by
  unfold setKState
  split
  · rfl
  · exact (runsKept_raiseE _ _ _ _ _ _).deferred

/-! ## Fields of blocks one behind the other, and signed fields (R8) -/

theorem slice_leBytes_skip {k off : Nat} (v : Nat) (c : List Byte) (m : Nat) (h : k ≤ off) :
    slice (leBytes k v ++ c) off m = slice c (off - k) m := by
  obtain ⟨j, rfl⟩ := Nat.exists_eq_add_of_le h
  have hdrop : (leBytes k v).drop (k + j) = [] := List.drop_eq_nil_of_le (by simp)
  simp [slice, List.drop_append, hdrop]

theorem slice_leBytes_here (k v : Nat) (c : List Byte) : slice (leBytes k v ++ c) 0 k = leBytes k v := by
  simp [slice]

theorem u8_eq_leNat (bs : List Byte) (off : Nat) : u8 bs off = leNat (slice bs off 1) := by
  simp [u8, slice_eq_map, leNat]

/-- A signed number that fits its width reads back. -/
theorem sx_ux {w : Nat} {i : Int} (hlo : -(2 ^ w : Nat) ≤ 2 * i) (hhi : 2 * i < (2 ^ w : Nat)) : sx w (ux w i % 2 ^ w) = i := by
  have hlt := Int.emod_lt_of_pos i (b := ((2 ^ w : Nat) : Int)) (by positivity)
  have hge := Int.emod_nonneg i (b := ((2 ^ w : Nat) : Int)) (by positivity)
  have hmod : i % ((2 ^ w : Nat) : Int) = if 0 ≤ i then i else i + (2 ^ w : Nat) := by
    split
    · exact Int.emod_eq_of_lt (by omega) (by omega)
    · rw [← Int.add_emod_right, Int.emod_eq_of_lt (by omega) (by omega)]
  simp only [sx, ux, Nat.mod_mod]
  rw [Nat.mod_eq_of_lt (by omega), hmod]
  generalize 2 ^ w = m at *
  split <;> split <;> omega

theorem clampInt_bounds {lo hi : Int} (h : lo ≤ hi) (x : Int) : lo ≤ clampInt lo hi x ∧ clampInt lo hi x ≤ hi := by
  unfold clampInt
  split
  · omega
  · split <;> omega

/-! ## KIN_SET_CONFIG, KIN_GET_CONFIG, KIN_SET_ORIGIN (R113, R116, R149) -/

theorem exec_kinSetConfig_passes {s : State} {d : Desc} (hp : passes 0x0400 d s = true) :
    exec (.kinSetConfig d) s = .next (bodyKinSetConfig d s) := congrArg Host.Outcome.next (runDesc_passes _ hp)

theorem exec_kinGetConfig_passes {s : State} {d : Desc} (hp : passes 0x0401 d s = true) :
    exec (.kinGetConfig d) s = .next (bodyKinGetConfig d s) := congrArg Host.Outcome.next (runDesc_passes _ hp)

theorem exec_kinSetOrigin_passes {s : State} {d : Desc} (hp : passes 0x0402 d s = true) :
    exec (.kinSetOrigin d) s = .next (bodyKinSetOrigin d s) := congrArg Host.Outcome.next (runDesc_passes _ hp)

/-- A block changes a field that is fixed while the unit is not OFF (R116). -/
def changesFixed (b : List Byte) (s : State) : Bool := (List.range 256).any fun i => u8 b i != u8 s.kin.cfg i && !kinLive i

theorem changesFixed_iff {b : List Byte} {s : State} :
    changesFixed b s = true ↔ ∃ i, i < 256 ∧ kinLive i = false ∧ u8 b i ≠ u8 s.kin.cfg i := by
  simp [changesFixed, and_comm]

theorem bodyKinSetConfig_member {s : State} (d : Desc) (hr : s.osl.role = 2) : bodyKinSetConfig d s = fail d 0x0309 s := if_pos hr

theorem bodyKinSetConfig_busy {s : State} {d : Desc} (hr : s.osl.role ≠ 2) (hk : s.kin.kstate ≠ kOff)
    (hc : changesFixed (blockOf s d) s = true) : bodyKinSetConfig d s = fail d 0x000C s := by
  unfold changesFixed at hc
  rw [bodyKinSetConfig, if_neg hr, if_pos ⟨hk, hc⟩]
  rfl

section
variable {s : State} {d : Desc} (hr : s.osl.role ≠ 2) (hc : s.kin.kstate = kOff ∨ changesFixed (blockOf s d) s = false)
include hr hc

theorem bodyKinSetConfig_taken (hb : kinCfgBad s (blockOf s d) = none) :
    bodyKinSetConfig d s = ok d { s with kin := { s.kin with cfg := blockOf s d } } := by
  unfold changesFixed at hc
  rw [bodyKinSetConfig, if_neg hr, if_neg fun h => hc.elim h.1 fun hf => by simp [hf] at h]
  simp only [hb]

theorem bodyKinSetConfig_bad {e : PErr} (hb : kinCfgBad s (blockOf s d) = some e) :
    bodyKinSetConfig d s = failWith d e.status e.result s := by
  unfold changesFixed at hc
  rw [bodyKinSetConfig, if_neg hr, if_neg fun h => hc.elim h.1 fun hf => by simp [hf] at h]
  simp only [hb]

end

/-- The origin of KIN_SET_ORIGIN is in range (R113). -/
def OriginOk (d : Desc) : Prop :=
  f64Finite (f64 d.bytes 16) = true ∧ f64Finite (f64 d.bytes 24) = true ∧ fFinite (f32 d.bytes 32) = true
    ∧ fxAbs (fxF64 (f64 d.bytes 16)) ≤ fxOf 90 ∧ fxAbs (fxF64 (f64 d.bytes 24)) ≤ fxOf 180

theorem originBad_iff {d : Desc} : ¬ OriginOk d ↔ (!f64Finite (f64 d.bytes 16) || !f64Finite (f64 d.bytes 24) || !fFinite (f32 d.bytes 32)
    || decide (fxOf 90 < fxAbs (fxF64 (f64 d.bytes 16))) || decide (fxOf 180 < fxAbs (fxF64 (f64 d.bytes 24)))) = true := by
  simp only [OriginOk, Bool.or_eq_true, Bool.not_eq_true', decide_eq_true_eq, ← Int.not_le, ← Bool.not_eq_true]
  tauto

theorem bodyKinSetOrigin_busy {s : State} (d : Desc) (hk : s.kin.kstate ≠ kOff) : bodyKinSetOrigin d s = fail d 0x000C s := if_pos hk

theorem bodyKinSetOrigin_bad {s : State} {d : Desc} (hk : s.kin.kstate = kOff) (ho : ¬ OriginOk d) :
    bodyKinSetOrigin d s = fail d 0x0004 s := by
  rw [bodyKinSetOrigin, if_neg (not_not_intro hk), if_pos (originBad_iff.mp ho)]
  rfl

theorem bodyKinSetOrigin_set {s : State} {d : Desc} (hk : s.kin.kstate = kOff) (ho : OriginOk d) :
    bodyKinSetOrigin d s = ok d (raise0 0x044D 0 (leBytes 4 (u32 d.bytes 36)) { s with kin := { s.kin with
      originSet := true, lat0 := f64 d.bytes 16, lon0 := f64 d.bytes 24, h0 := f32 d.bytes 32, originId := u32 d.bytes 36 } }) := by
  rw [bodyKinSetOrigin, if_neg (not_not_intro hk), if_neg fun h => originBad_iff.mpr h ho]

/-! ## KIN_GET_STATE (R149) -/

/-- The diagnostic block behind the record. -/
def kinDiag (s : State) : List Byte :=
  leBytes 1 (if s.osl.role = 2 then kFollowing else s.kin.kstate) ++ (leBytes 1 s.kin.fixClass
    ++ (leBytes 2 (if s.kin.fixClass = 0 then 0xFFFF else min 0xFFFF ((s.gtc - s.kin.fixAt) / msTicks))
    ++ (leBytes 4 s.kin.epochsUsed ++ (leBytes 4 s.kin.epochsDiscarded ++ (leBytes 4 s.kin.sentDiscarded ++ (leBytes 4 s.kin.posResets
    ++ (fBytes s.kin.scale ++ (leBytes 4 (if s.kin.kstate = kDead then (s.gtc - s.kin.drAt) / msTicks else 0) ++ [0, 0, 0, 0]))))))))

theorem exec_kinGetState_passes {s : State} {d : Desc} (hp : passes 0x0406 d s = true) :
    exec (.kinGetState d) s = .next (writeBack d (padTo 128 s.kin.rcd ++ kinDiag s) {} s) := by
  refine congrArg Host.Outcome.next ((runDesc_passes _ hp).trans ?_)
  simp only [bodyKinGetState, kinDiag, List.append_assoc]

theorem kinDiag_length (s : State) : (kinDiag s).length = 32 := by simp [kinDiag, fBytes]

/-- The fields of the diagnostic block at their offsets. -/
theorem kinDiag_fields (s : State) : u8 (kinDiag s) 0 = (if s.osl.role = 2 then kFollowing else s.kin.kstate) % 256
    ∧ u8 (kinDiag s) 1 = s.kin.fixClass % 256 ∧ u32 (kinDiag s) 4 = s.kin.epochsUsed % 2 ^ 32
    ∧ u32 (kinDiag s) 8 = s.kin.epochsDiscarded % 2 ^ 32 ∧ u32 (kinDiag s) 12 = s.kin.sentDiscarded % 2 ^ 32
    ∧ u32 (kinDiag s) 16 = s.kin.posResets % 2 ^ 32 ∧ f32 (kinDiag s) 20 = s.kin.scale := by
  simp [kinDiag, fBytes, u8_eq_leNat, u32, f32, slice_leBytes_skip, slice_leBytes_here, leNat_leBytes]
  exact BitVec.eq_of_toNat_eq (by simpa using s.kin.scale.isLt)

/-! ## KIN_ENABLE and KIN_DISABLE (R115, R117) -/

theorem exec_kinEnable_passes {s : State} {d : Desc} (hp : passes 0x0403 d s = true) :
    exec (.kinEnable d) s = .next (bodyKinEnable d s) := congrArg Host.Outcome.next (runDesc_passes _ hp)

theorem exec_kinDisable_passes {s : State} {d : Desc} (hp : passes 0x0404 d s = true) :
    exec (.kinDisable d) s = .next (bodyKinDisable d s) := congrArg Host.Outcome.next (runDesc_passes _ hp)

theorem exec_kinEnableTakeEffect (s : State) : exec .kinEnableTakeEffect s = execKinEnableTakeEffect s := rfl
theorem exec_kinDisableTakeEffect (s : State) : exec .kinDisableTakeEffect s = execKinDisableTakeEffect s := rfl

theorem kinOnAfter_none {s : State} (h : ∀ x ∈ s.hif.deferred, x.op ≠ 0x0403 ∧ x.op ≠ 0x0404) :
    kinOnAfter s = (s.kin.kstate != kOff) := by
  have hnone : (s.hif.deferred.filter fun x => x.op == 0x0403 || x.op == 0x0404) = [] := by
    rw [List.filter_eq_nil_iff]
    intro x hx
    simp [h x hx]
  rw [kinOnAfter, hnone, List.foldl_nil]

theorem kinOnAfter_one {s : State} {x : Deferred} (h : s.hif.deferred = [x]) :
    (x.op = 0x0403 → kinOnAfter s = true) ∧ (x.op = 0x0404 → kinOnAfter s = false) := by
  constructor <;> intro hx <;> simp [kinOnAfter, h, hx]

theorem bodyKinEnable_state {s : State} (d : Desc) (h : kinOnAfter s = true) : bodyKinEnable d s = fail d 0x000E s := if_pos h

section
variable {s : State} (d : Desc) (h : kinOnAfter s = false)
include h

theorem bodyKinEnable_bad {e : PErr} (hb : kinCfgBad s s.kin.cfg = some e) :
    bodyKinEnable d s = failWith d e.status e.result s := by
  simp only [bodyKinEnable, h, hb, Bool.false_eq_true, if_false]

theorem bodyKinEnable_table (hb : kinCfgBad s s.kin.cfg = none) (hi : imuTableBad s = true) :
    bodyKinEnable d s = failWith d 0x0004 (leBytes 2 40) s := by
  simp only [bodyKinEnable, h, hb, hi, Bool.false_eq_true, if_false, if_true]
  rfl

theorem bodyKinEnable_pending (hb : kinCfgBad s s.kin.cfg = none) (hi : imuTableBad s = false) :
    bodyKinEnable d s = defer d 0x0403 0 (takeEffect s.gtc (u64 d.bytes 16)) (leBytes 7 (takeEffectLate s.gtc (u64 d.bytes 16))) 0 s := by
  simp only [bodyKinEnable, h, hb, hi, Bool.false_eq_true, if_false]

end

/-- A GEOPOINT is ENABLED. -/
def pointOn (s : State) : Bool := (objsOf s tyGeopoint).any isEnabled

theorem pointOn_iff {s : State} : pointOn s = true ↔ ∃ o ∈ s.objs, o.typ = tyGeopoint ∧ o.ost = .enabled := by
  simp [pointOn, objsOf, isEnabled]

theorem bodyKinDisable_state {s : State} (d : Desc) (h : kinOnAfter s = false ∨ pointOn s = true) :
    bodyKinDisable d s = fail d 0x000E s := by
  unfold pointOn at h
  rw [bodyKinDisable, if_pos (by simpa using h)]
  rfl

theorem bodyKinDisable_pending {s : State} (d : Desc) (h : kinOnAfter s = true) (hp : pointOn s = false) :
    bodyKinDisable d s = defer d 0x0404 0 (takeEffect s.gtc (u64 d.bytes 16)) (leBytes 7 (takeEffectLate s.gtc (u64 d.bytes 16))) 0 s := by
  unfold pointOn at hp
  rw [bodyKinDisable, if_neg (by simp [h, hp])]

/-- The unit as KIN_ENABLE starts it (R115, R117, R122). -/
def kinStarted (s : State) : Kin :=
  { kinFresh { s.kin with reverse := false } with
    est := { Config.kfStart with nom := Config.kfStart.nom.take 15 ++ [fxOne] }
    imuInit := if kc8 s 36 = 1 then slice s.kin.cfg 60 (2 * kc8 s 56) else []
    kstate := if s.osl.role = 2 then kFollowing else kWaiting }

theorem execKinEnableTakeEffect_starts {s : State} {x : Deferred} (hx : deferredOf s 0x0403 0 = some x) :
    ∃ t, execKinEnableTakeEffect s = .next t ∧ t.kin = kinStarted s ∧ t.objs = s.objs ∧ t.hif.deferred = s.hif.deferred.erase x := by
  unfold execKinEnableTakeEffect
  rw [hx]
  have hrev := touches_setReverse false (toInstant x.due s)
  refine ⟨_, rfl, ?_, ?_, ?_⟩
  · rw [(touches_completeDeferred _ _ _).kin, (touches_setKState _ _).kin]
    simp only [kc8, hrev.kin, hrev.osl, toInstant_kin, toInstant_osl]
    rfl
  · rw [(touches_completeDeferred _ _ _).objs, (touches_setKState _ _).objs]
    exact hrev.objs.trans (toInstant_objs _ _)
  · rw [completeDeferred_deferred, setKState_deferred]
    exact congrArg (List.erase · x) ((setReverse_deferred _ _).trans (by rw [toInstant_hif]))

theorem execKinDisableTakeEffect_stops {s : State} {x : Deferred} (hx : deferredOf s 0x0404 0 = some x) (hp : pointOn s = false) :
    ∃ t, execKinDisableTakeEffect s = .next t ∧ t.kin = { kinFresh { s.kin with reverse := false } with kstate := kOff }
      ∧ t.objs = s.objs ∧ t.hif.deferred = s.hif.deferred.erase x := by
  unfold execKinDisableTakeEffect
  rw [hx]
  have hrev := touches_setReverse false (toInstant x.due s)
  have hoff : ¬ (objsOf (toInstant x.due s) tyGeopoint).any isEnabled = true := by
    rw [objsOf, toInstant_objs]
    exact Bool.eq_false_iff.mp hp
  refine ⟨_, congrArg Host.Outcome.next (if_neg hoff), ?_, ?_, ?_⟩
  · rw [(touches_completeDeferred _ _ _).kin, (touches_setKState _ _).kin]
    simp only [hrev.kin, toInstant_kin]
  · rw [(touches_completeDeferred _ _ _).objs, (touches_setKState _ _).objs]
    exact hrev.objs.trans (toInstant_objs _ _)
  · rw [completeDeferred_deferred, setKState_deferred]
    exact congrArg (List.erase · x) ((setReverse_deferred _ _).trans (by rw [toInstant_hif]))

theorem execKinDisableTakeEffect_state {s : State} {x : Deferred} (hx : deferredOf s 0x0404 0 = some x) (hp : pointOn s = true) :
    execKinDisableTakeEffect s = .next (completeDeferred x { status := 0x000E } (toInstant x.due s)) := by
  unfold execKinDisableTakeEffect
  rw [hx]
  refine congrArg Host.Outcome.next (if_pos ?_)
  rw [objsOf, toInstant_objs]
  exact hp

/-! ## KIN_FIX (R121) -/

theorem exec_kinFix_passes {s : State} {d : Desc} (hp : passes 0x0405 d s = true) :
    exec (.kinFix d) s = .next (bodyKinFix d s) := congrArg Host.Outcome.next (runDesc_passes _ hp)

theorem bodyKinFix_class {s : State} {d : Desc} (hc : u8 d.bytes 40 = 0 ∨ 4 < u8 d.bytes 40) : bodyKinFix d s = fail d 0x0004 s := if_pos hc

section
variable {s : State} {d : Desc} (h1 : 1 ≤ u8 d.bytes 40) (h4 : u8 d.bytes 40 ≤ 4)
include h1 h4

theorem bodyKinFix_source (h0 : kc8 s 0 ≠ 1) : bodyKinFix d s = fail d 0x0404 s := by
  rw [bodyKinFix, if_neg (by omega), if_pos h0]

variable (h0 : kc8 s 0 = 1)
include h0

theorem bodyKinFix_noOrigin (ho : s.kin.originSet = false) : bodyKinFix d s = fail d 0x0402 s := by
  rw [bodyKinFix, if_neg (by omega), if_neg (not_not_intro h0), if_pos (by simp [ho])]

variable (ho : s.kin.originSet = true)
include ho

theorem bodyKinFix_off (hk : s.kin.kstate = kOff) : bodyKinFix d s = fail d 0x0401 s := by
  rw [bodyKinFix, if_neg (by omega), if_neg (not_not_intro h0), if_neg (by simp [ho]), if_pos hk]

variable (hk : s.kin.kstate ≠ kOff)
include hk

theorem bodyKinFix_late (hl : i64 d.bytes 16 < (s.gtc : Int) - 250 * (msTicks : Int)) : bodyKinFix d s = fail d 0x0403 s := by
  rw [bodyKinFix, if_neg (by omega), if_neg (not_not_intro h0), if_neg (by simp [ho]), if_neg hk, if_pos hl]

theorem bodyKinFix_ahead (hl : (s.gtc : Int) < i64 d.bytes 16) : bodyKinFix d s = fail d 0x0004 s := by
  have hms : (0 : Int) ≤ (msTicks : Int) := Int.natCast_nonneg _
  rw [bodyKinFix, if_neg (by omega), if_neg (not_not_intro h0), if_neg (by simp [ho]), if_neg hk, if_neg (by omega), if_pos hl]
  rfl

theorem bodyKinFix_inTime (hl : (s.gtc : Int) - 250 * (msTicks : Int) ≤ i64 d.bytes 16) (hn : i64 d.bytes 16 ≤ s.gtc) {v : Vec3} {q : State}
    (hv : v = { x := i32 d.bytes 24, y := i32 d.bytes 28, z := i32 d.bytes 32 })
    (hq : q = addPosition (i64 d.bytes 16).toNat true (u8 d.bytes 40)
      (if u16 d.bytes 36 = 0 then sigmaQ s (u8 d.bytes 40) else u16 d.bytes 36) v s) :
    bodyKinFix d s = ok d (if u16 d.bytes 38 = 0xFFFF ∨ inRange v = false then q
      else addMeas { t := (i64 d.bytes 16).toNat, kind := 2, host := true, v := { x := fxDeg (fxFrac (u16 d.bytes 38) 100) } } q) := by
  subst hv hq
  rw [bodyKinFix, if_neg (by omega), if_neg (not_not_intro h0), if_neg (by simp [ho]), if_neg hk, if_neg (by omega), if_neg (by omega)]
  simp only [Bool.not_eq_true']

end

theorem addPosition_eq (t : Nat) (host : Bool) (cls sigma : Nat) (v : Vec3) (s : State) : addPosition t host cls sigma v s
    = if cls < kc8 s 8 then fixRejected host 4 0 s else if inRange v = false then fixRejected host 3 0 s
      else addMeas { t := t, kind := 0, host := host, cls := cls, sigma := sigma, v := v } s := by
  simp only [addPosition, Bool.not_eq_true']

/-! ## KIN_PREDICT (R147, R148) -/

/-- The result of a prediction: travel, speed and flags. -/
def predResult (s : State) (tau : Nat) (p : Pred) : List Byte :=
  iBytes 4 (clampInt (-2147483648) 2147483647 (fxToInt 54 (1000 * p.ds))) ++ (iBytes 2 (clampInt (-32768) 32767 (fxToInt 55 p.vp))
    ++ leBytes 1 (b2n (decide (2500000 < tau)) + 2 * b2n (recPathValid s.kin.rcd)))

theorem exec_kinPredict_passes {s : State} {d : Desc} {o : Obj} (hp : passes 0x0407 d s = true) (ho : objOf s (dHandle d) = some o) :
    exec (.kinPredict d) s = .next (failWith d (if 2500000 < u32 d.bytes 16 then 0x0405 else 0)
      (predResult s (u32 d.bytes 16) (predict s s.kin.rcd o (u32 d.bytes 16 * usTicks))) s) := by
  refine congrArg Host.Outcome.next ((runObj_passes _ hp ho).trans ?_)
  simp only [bodyKinPredict, predResult, List.append_assoc, decide_eq_true_eq, stOk]

theorem predResult_length (s : State) (tau : Nat) (p : Pred) : (predResult s tau p).length = 7 := by simp [predResult, iBytes]

theorem predResult_travel (s : State) (tau : Nat) (p : Pred) :
    i32 (predResult s tau p) 0 = clampInt (-2147483648) 2147483647 (fxToInt 54 (1000 * p.ds)) := by
  obtain ⟨hlo, hhi⟩ := clampInt_bounds (lo := -2147483648) (hi := 2147483647) (by decide) (fxToInt 54 (1000 * p.ds))
  rw [i32, u32, predResult, iBytes, slice_leBytes_here, leNat_leBytes]
  exact sx_ux (w := 32) (by norm_num; omega) (by norm_num; omega)

theorem predResult_speed (s : State) (tau : Nat) (p : Pred) :
    i16 (predResult s tau p) 4 = clampInt (-32768) 32767 (fxToInt 55 p.vp) := by
  obtain ⟨hlo, hhi⟩ := clampInt_bounds (lo := -32768) (hi := 32767) (by decide) (fxToInt 55 p.vp)
  rw [i16, u16, predResult, iBytes, slice_leBytes_skip _ _ _ (by decide), iBytes, slice_leBytes_here, leNat_leBytes]
  exact sx_ux (w := 16) (by norm_num; omega) (by norm_num; omega)

theorem predResult_flags (s : State) (tau : Nat) (p : Pred) : (bit (u8 (predResult s tau p) 6) 0 = true ↔ 2500000 < tau)
    ∧ (bit (u8 (predResult s tau p) 6) 1 = true ↔ recPathValid s.kin.rcd = true) := by
  have hflags : ∀ a b : Bool, bit ((b2n a + 2 * b2n b) % 256) 0 = a ∧ bit ((b2n a + 2 * b2n b) % 256) 1 = b := by decide
  obtain ⟨h0, h1⟩ := hflags (decide (2500000 < tau)) (recPathValid s.kin.rcd)
  have hbyte : u8 (predResult s tau p) 6 = (b2n (decide (2500000 < tau)) + 2 * b2n (recPathValid s.kin.rcd)) % 256 := by
    simp [predResult, iBytes, u8, leBytes]
  rw [hbyte, h0, h1, decide_eq_true_eq]
  exact ⟨Iff.rfl, Iff.rfl⟩

/-- Settles O30: each command by the outcome of its checks, each boundary by what is pending for it. -/
theorem kinematicsSetUp : Obligations.KinematicsSetUp := by
  refine ⟨fun s d b hp hr hb hfix => ?_, fun s d i hp hr hk hi hl hne => ?_, fun s d hp hr => ?_, fun s d hp => exec_kinGetConfig_passes hp,
    fun s d hp => ?_, fun s d hp hk h1 h2 h3 h4 h5 => ?_, fun s d hp hk => ?_, fun s d hp hk hbad => ?_,
    fun s h => kinOnAfter_none h, fun s x h => kinOnAfter_one h, fun s d hp => ?_, fun s d hp => ?_, fun s => ?_,
    fun s x hx => ?_, fun s x hx => ?_, fun s d c v sg q hp hc h1 h4 h0 ho hk hl hn hv hsg hq => ?_, fun s d hp h1 h4 => ?_,
    fun s d hp hc => ?_, fun s d o hp ho => ?_⟩
  · subst hb
    have hc : s.kin.kstate = kOff ∨ changesFixed (blockOf s d) s = false := hfix.imp_right fun h => by
      rw [Bool.eq_false_iff, ne_eq, changesFixed_iff]
      rintro ⟨i, hi, hl, hne⟩
      exact hne (h i hi hl)
    rw [exec_kinSetConfig_passes hp]
    exact ⟨fun h => by rw [bodyKinSetConfig_taken hr hc h], fun e h => by rw [bodyKinSetConfig_bad hr hc h]⟩
  · rw [exec_kinSetConfig_passes hp, bodyKinSetConfig_busy hr hk (changesFixed_iff.mpr ⟨i, hi, hl, hne⟩)]
  · rw [exec_kinSetConfig_passes hp, bodyKinSetConfig_member d hr]
  · obtain ⟨hstate, hclass, hused, hdisc, hsent, hreset, hscale⟩ := kinDiag_fields s
    refine ⟨kinDiag s, kinDiag_length s, ?_, hclass, hused, hdisc, hsent, hreset, hscale, exec_kinGetState_passes hp⟩
    rw [hstate]
    split <;> rfl
  · rw [exec_kinSetOrigin_passes hp, bodyKinSetOrigin_set hk ⟨h1, h2, h3, h4, h5⟩]
  · rw [exec_kinSetOrigin_passes hp, bodyKinSetOrigin_busy d hk]
  · rw [exec_kinSetOrigin_passes hp, bodyKinSetOrigin_bad hk]
    rintro ⟨h1, h2, h3, h4, h5⟩
    rcases hbad with h | h | h | h | h
    · simp [h1] at h
    · simp [h2] at h
    · simp [h3] at h
    · exact Int.not_lt.mpr h4 h
    · exact Int.not_lt.mpr h5 h
  · rw [exec_kinEnable_passes hp]
    exact ⟨fun h => by rw [bodyKinEnable_state d h], fun e h hb => by rw [bodyKinEnable_bad d h hb],
      fun h hb hi => by rw [bodyKinEnable_table d h hb hi], fun h hb hi => by rw [bodyKinEnable_pending d h hb hi]⟩
  · rw [exec_kinDisable_passes hp, ← pointOn_iff]
    refine ⟨fun h => by rw [bodyKinDisable_state d h], fun h hno => ?_⟩
    rw [bodyKinDisable_pending d h]
    rw [Bool.eq_false_iff, ne_eq, pointOn_iff]
    rintro ⟨o, ho, ht, he⟩
    exact hno o ho ht he
  · refine ⟨fun h => ?_, fun h => ?_⟩
    · rw [exec_kinEnableTakeEffect, execKinEnableTakeEffect, h]
    · rw [exec_kinDisableTakeEffect, execKinDisableTakeEffect, h]
  · obtain ⟨t, ht, hkin, hobjs, hdef⟩ := execKinEnableTakeEffect_starts hx
    refine ⟨t, ht, ?_, ?_, ?_, ?_, ?_, ?_, ?_, ?_, hobjs, hdef⟩ <;> rw [hkin] <;> rfl
  · refine ⟨fun hno => ?_, fun h => execKinDisableTakeEffect_state hx (pointOn_iff.mpr h)⟩
    have hoff : pointOn s = false := by
      rw [Bool.eq_false_iff, ne_eq, pointOn_iff]
      rintro ⟨o, ho, ht, he⟩
      exact hno o ho ht he
    obtain ⟨t, ht, hkin, hobjs, hdef⟩ := execKinDisableTakeEffect_stops hx hoff
    refine ⟨t, ht, ?_, ?_, ?_, ?_, ?_, hobjs, hdef⟩ <;> rw [hkin] <;> rfl
  · subst hc hsg hq
    rw [exec_kinFix_passes hp, bodyKinFix_inTime h1 h4 h0 ho hk hl hn hv (addPosition_eq _ _ _ _ _ _).symm]
    rfl
  · rw [exec_kinFix_passes hp]
    exact ⟨fun h0 => by rw [bodyKinFix_source h1 h4 h0], fun h0 ho => by rw [bodyKinFix_noOrigin h1 h4 h0 ho],
      fun h0 ho hk => by rw [bodyKinFix_off h1 h4 h0 ho hk],
      fun h0 ho hk => ⟨fun hl => by rw [bodyKinFix_late h1 h4 h0 ho hk hl], fun hn => by rw [bodyKinFix_ahead h1 h4 h0 ho hk hn]⟩⟩
  · rw [exec_kinFix_passes hp, bodyKinFix_class hc]
  · obtain ⟨hhorizon, hpath⟩ := predResult_flags s (u32 d.bytes 16) (predict s s.kin.rcd o (u32 d.bytes 16 * usTicks))
    exact ⟨predResult s (u32 d.bytes 16) (predict s s.kin.rcd o (u32 d.bytes 16 * usTicks)), predict s s.kin.rcd o (u32 d.bytes 16 * usTicks),
      predResult_length _ _ _, rfl, predResult_travel _ _ _, predResult_speed _ _ _, hhorizon, hpath, exec_kinPredict_passes hp ho⟩

end Sys2Proof.Machine
end

section
/-! PROOFS. Kinematics (04): sentences, IMU samples, estimator and integrator runs, and the points (R118, R119, R122 to R124, R129 to
R131, R134, R135, R144). -/

namespace Sys2Proof.Machine

/-! ## Sentences (R118, R119) -/

theorem exec_nmeaSentence (cs : List Byte) (a b : Nat) (f : Bool) (s : State) :
    exec (.nmeaSentence cs a b f) s = execNmeaSentence cs a b f s := rfl

theorem execNmeaSentence_ignored {s : State} (cs : List Byte) (a b : Nat) (f : Bool) (h : s.kin.kstate = kOff ∨ kc8 s 0 ≠ 0) :
    execNmeaSentence cs a b f s = .next (toInstant b s) := by
  refine congrArg Host.Outcome.next (if_pos ?_)
  rwa [kc8_congr (toInstant_kin b s), toInstant_kin]

/-- The state at the last character of a sentence, from which the open epoch waits for silence anew (R119). -/
def sentenceHeard (b : Nat) (s : State) : State :=
  { toInstant b s with kin := { s.kin with epoch := s.kin.epoch.map fun e => { e with tLast := b } } }

section
variable {s : State} {cs : List Byte} (a b : Nat) (hk : s.kin.kstate ≠ kOff) (h0 : kc8 s 0 = 0)
include hk h0

/-- Where sentences are read, their type is looked at first, then their form (R118). -/
theorem execNmeaSentence_read (f : Bool) : execNmeaSentence cs a b f s
    = .next (if nmeaType cs = 0 then sentenceHeard b s else if f || decide (82 < cs.length) then sentenceBad (sentenceHeard b s)
      else (parseNmea cs).elim (sentenceBad (sentenceHeard b s)) fun n => takeSentence a b n (sentenceHeard b s)) := by
  have hon : ¬ ((toInstant b s).kin.kstate = kOff ∨ kc8 (toInstant b s) 0 ≠ 0) := by
    rw [kc8_congr (toInstant_kin b s), toInstant_kin]
    exact fun h => h.elim hk fun h => h h0
  unfold execNmeaSentence
  simp only [if_neg hon]
  rw [toInstant_kin]
  cases parseNmea cs <;> rfl

theorem execNmeaSentence_other (f : Bool) (ht : nmeaType cs = 0) : execNmeaSentence cs a b f s = .next (sentenceHeard b s) := by
  rw [execNmeaSentence_read a b hk h0, if_pos ht]

theorem execNmeaSentence_bad {f : Bool} (ht : nmeaType cs ≠ 0) (hb : f = true ∨ 82 < cs.length ∨ parseNmea cs = none) :
    execNmeaSentence cs a b f s = .next (sentenceBad (sentenceHeard b s)) := by
  rw [execNmeaSentence_read a b hk h0, if_neg ht]
  split
  · rfl
  · next hform =>
    have hparse : parseNmea cs = none := by
      rcases hb with h | h | h
      · simp [h] at hform
      · simp [h] at hform
      · exact h
    rw [hparse]
    rfl

theorem execNmeaSentence_taken {n : Nmea} (ht : nmeaType cs ≠ 0) (hl : cs.length ≤ 82) (hn : parseNmea cs = some n) :
    execNmeaSentence cs a b false s = .next (takeSentence a b n (sentenceHeard b s)) := by
  rw [execNmeaSentence_read a b hk h0, if_neg ht, if_neg (by simp; omega), hn]
  rfl

end

/-! ## Epochs (R119, R120) -/

/-- Of the unit, a closing epoch changes the waiting measurements and the pairing with a PPS edge, beside the counts. -/
structure TakesMeas (s t : State) : Prop where
  kin : t.kin = { s.kin with meas := t.kin.meas, pairedSec := t.kin.pairedSec, pairedAt := t.kin.pairedAt }
  objs : t.objs = s.objs

theorem TakesMeas.refl (s : State) : TakesMeas s s := ⟨rfl, rfl⟩
theorem TakesMeas.trans {s t u : State} (h : TakesMeas s t) (k : TakesMeas t u) : TakesMeas s u :=
  ⟨by rw [k.kin, h.kin], k.objs.trans h.objs⟩
theorem Touches.takesMeas {s t : State} (h : Touches s t) : TakesMeas s t := ⟨by rw [h.kin], h.objs⟩

theorem takesMeas_addMeas (m : KMeas) (s : State) : TakesMeas s (addMeas m s) := ⟨rfl, rfl⟩

theorem touches_fixRejected (host : Bool) (reason value : Nat) (s : State) : Touches s (fixRejected host reason value s) :=
  touches_raiseLimited _ _ _ _ _ _ _ _ _ _

theorem takesMeas_addPosition (t : Nat) (host : Bool) (cls sigma : Nat) (v : Vec3) (s : State) :
    TakesMeas s (addPosition t host cls sigma v s) := by
  rw [addPosition_eq]
  split
  · exact (touches_fixRejected _ _ _ s).takesMeas
  · split
    · exact (touches_fixRejected _ _ _ s).takesMeas
    · exact takesMeas_addMeas _ s

theorem takesMeas_epochValid (e : Epoch) (s : State) : TakesMeas s (epochValid e s).2 := by
  have hplain : TakesMeas s (if (kc8 s 1 == 1) = true then raiseLimited secTicks 0x044A 0 0 0 0 [] 0 0 s else s) := by
    split
    · exact (touches_raiseLimited _ _ _ _ _ _ _ _ _ s).takesMeas
    · exact TakesMeas.refl s
  unfold epochValid
  dsimp only
  split
  · exact TakesMeas.refl s
  · split
    · exact hplain
    · split
      · exact ⟨rfl, rfl⟩
      · exact hplain

/-- The longitude that an epoch gives. -/
def epochLon (e : Epoch) : Option Fx := (e.gga.filter fun g => g.2.2.2.2 != 0).map fun g => g.2.1

/-- An epoch's position (R119). -/
def epochPosition (e : Epoch) (t : Nat) (s : State) : State :=
  match e.gga with
  | none => s
  | some (la, lo, h, hd, c) =>
    if !s.kin.originSet then s
    else if c = 0 then fixRejected false 4 0 s
    else addPosition t false c (fxNear (sigmaQ s c * max fxOne hd)).toNat (enuOf s la lo h) s

theorem takesMeas_epochPosition (e : Epoch) (t : Nat) (s : State) : TakesMeas s (epochPosition e t s) := by
  unfold epochPosition
  split
  · exact TakesMeas.refl s
  · split
    · exact TakesMeas.refl s
    · split
      · exact (touches_fixRejected _ _ _ s).takesMeas
      · exact takesMeas_addPosition _ _ _ _ _ s

/-- An epoch's velocity and course (R119, R129). -/
def epochVelocity (e : Epoch) (t : Nat) (s : State) : State :=
  let sg := velSigma ((e.gga.filter fun g => g.2.2.2.2 != 0).map fun g => (fxNear (sigmaQ s g.2.2.2.2 * max fxOne g.2.2.2.1)).toNat) s
  match e.vtg.or e.rmc with
  | none => s
  | some (c, v) =>
    addMeas { t := t, kind := 3, sigma := sg, v := { x := toGrid s (epochLon e) c, y := v } }
      (addMeas { t := t, kind := 1, sigma := sg, v := { x := toGrid s (epochLon e) c, y := v } } s)

theorem takesMeas_epochVelocity (e : Epoch) (t : Nat) (s : State) : TakesMeas s (epochVelocity e t s) := by
  unfold epochVelocity
  dsimp only
  split
  · exact TakesMeas.refl s
  · exact ⟨rfl, rfl⟩

/-- An epoch's heading (R119). -/
def epochHeading (e : Epoch) (t : Nat) (s : State) : State :=
  match e.hdt with
  | none => s
  | some h => addMeas { t := t, kind := 2, v := { x := toGrid s (epochLon e) (h + fxDeg (fxFrac (i16 s.kin.cfg 22) 100)) } } s

theorem takesMeas_epochHeading (e : Epoch) (t : Nat) (s : State) : TakesMeas s (epochHeading e t s) := by
  unfold epochHeading
  split
  · exact TakesMeas.refl s
  · exact takesMeas_addMeas _ s

/-- An epoch follows the last used one too soon (R119). -/
def epochTooSoon (e : Epoch) (s : State) : Bool :=
  (s.kin.lastUtc.map fun u => decide ((e.utc + 86400000000000 - u) % 86400000000000 < 45000000)).getD false

/-- A used epoch is counted before it gives its measurements. -/
def epochCounted (e : Epoch) (s : State) : State :=
  { s with kin := { s.kin with epoch := none, lastUtc := some e.utc, epochsUsed := s.kin.epochsUsed + 1 } }

section
variable {s : State} {e : Epoch} (he : s.kin.epoch = some e)
include he

theorem closeEpoch_discarded (hs : epochTooSoon e s = true) :
    closeEpoch s = { s with kin := { s.kin with epoch := none, epochsDiscarded := s.kin.epochsDiscarded + 1 } } := by
  unfold closeEpoch
  rw [he]
  exact if_pos hs

theorem closeEpoch_used (hs : epochTooSoon e s = false) : TakesMeas (epochCounted e s) (closeEpoch s) := by
  have heq : closeEpoch s = epochHeading e (epochValid e (epochCounted e s)).1 (epochVelocity e (epochValid e (epochCounted e s)).1
      (epochPosition e (epochValid e (epochCounted e s)).1 (epochValid e (epochCounted e s)).2)) := by
    unfold closeEpoch
    rw [he]
    exact if_neg (Bool.eq_false_iff.mp hs)
  rw [heq]
  exact (((takesMeas_epochValid e _).trans (takesMeas_epochPosition e _ _)).trans (takesMeas_epochVelocity e _ _)).trans
    (takesMeas_epochHeading e _ _)

theorem closeEpoch_epoch : (closeEpoch s).kin.epoch = none := by
  cases hs : epochTooSoon e s with
  | true => rw [closeEpoch_discarded he hs]
  | false => rw [(closeEpoch_used he hs).kin]; rfl

theorem closeEpoch_objs : (closeEpoch s).objs = s.objs := by
  cases hs : epochTooSoon e s with
  | true => rw [closeEpoch_discarded he hs]
  | false => exact (closeEpoch_used he hs).objs

/-- The epoch is counted once, as used or as discarded (R119). -/
theorem closeEpoch_counted : (closeEpoch s).kin.epochsUsed + (closeEpoch s).kin.epochsDiscarded
    = s.kin.epochsUsed + s.kin.epochsDiscarded + 1 := by
  cases hs : epochTooSoon e s with
  | true => rw [closeEpoch_discarded he hs]; exact (Nat.add_assoc _ _ _).symm
  | false => rw [(closeEpoch_used he hs).kin]; exact Nat.add_right_comm _ _ _

/-- The first epoch is used. -/
theorem closeEpoch_first (hl : s.kin.lastUtc = none) :
    (closeEpoch s).kin.epochsUsed = s.kin.epochsUsed + 1 ∧ (closeEpoch s).kin.lastUtc = some e.utc := by
  have hs : epochTooSoon e s = false := by rw [epochTooSoon, hl]; rfl
  rw [(closeEpoch_used he hs).kin]
  exact ⟨rfl, rfl⟩

end

theorem takeSentence_gga_opens {s : State} (a b u : Nat) (fix : Option (Fx × Fx × Fx × Fx × Nat)) (c : Nat) (he : s.kin.epoch = none) :
    takeSentence a b (.gga u fix c) s = { s with kin := { s.kin with
      epoch := some { utc := u, tArr := a, tLast := b, gga := some (fix.getD (0, 0, 0, 0, c)) } } } := by
  unfold takeSentence
  rw [he]
  rfl

theorem takeSentence_rmc_opens {s : State} (a b u : Nat) (v : Option (Fx × Fx)) (he : s.kin.epoch = none) :
    takeSentence a b (.rmc u v) s
      = { s with kin := { s.kin with epoch := some { utc := u, tArr := a, tLast := b, rmc := v } } } := by
  unfold takeSentence
  rw [he]
  rfl

section
variable {s : State} {e : Epoch} (a b : Nat) (he : s.kin.epoch = some e)
include he

theorem takeSentence_vtg_joins (v : Option (Fx × Fx)) :
    takeSentence a b (.vtg v) s = { s with kin := { s.kin with epoch := some { e with tLast := b, vtg := v } } } := by
  simp only [takeSentence, he, Option.map_some]

theorem takeSentence_hdt_joins (h : Fx) :
    takeSentence a b (.hdt h) s = { s with kin := { s.kin with epoch := some { e with tLast := b, hdt := some h } } } := by
  simp only [takeSentence, he, Option.map_some]

theorem takeSentence_rmc_joins (v : Option (Fx × Fx)) :
    takeSentence a b (.rmc e.utc v) s = { s with kin := { s.kin with epoch := some { e with tLast := b, rmc := v } } } := by
  simp only [takeSentence, he, Option.map_some, if_true]

/-- A sentence of another time closes the open epoch, and opens its own as where none is open (R119). -/
theorem takeSentence_closes {u : Nat} {n : Nmea} (hu : u ≠ e.utc) (hn : (∃ v, n = .rmc u v) ∨ ∃ x c, n = .gga u x c) :
    takeSentence a b n s = takeSentence a b n (closeEpoch s) := by
  have hclosed := closeEpoch_epoch he
  rcases hn with ⟨v, rfl⟩ | ⟨x, c, rfl⟩ <;> simp only [takeSentence, he, hclosed, if_neg (Ne.symm hu)]

end

theorem execEpochIdleClose_none {s : State} (he : s.kin.epoch = none) : execEpochIdleClose s = .next s := by
  rw [execEpochIdleClose, he]

theorem execEpochIdleClose_open {s : State} {e : Epoch} (he : s.kin.epoch = some e) :
    execEpochIdleClose s = .next (closeEpoch (toInstant (e.tLast + 2 * msTicks) s)) := by
  rw [execEpochIdleClose, he]

/-! ## IMU samples (R122 to R124) -/

theorem tableOf_congr {s t : State} (h : t.objs = s.objs) (k : Nat) : tableOf t k = tableOf s k := by
  simp only [tableOf, objOf_congr h]

/-- Without a counter value before there is no missed sample. -/
theorem counterBad_none (b fr : List Byte) : counterBad b fr none = false := by
  unfold counterBad
  split
  · next h => cases h
  · rfl

section
variable (t0 : Nat) (b fr : List Byte) (s : State)

/-- A decoded variable of a frame, 0 where the format does not give it. -/
def imuVar (v : Nat) : F32 := (((fmtDecodeAll b (padTo (kc8 s 51) fr)).find? fun x => x.1 == v).map (·.2)).getD fZero

/-- A sample was missed before this one (R123). -/
def imuMiss : Bool := counterBad b (padTo (kc8 s 51) fr) (if s.kin.imuLast.isNone then none else s.kin.imuVars[7]?)

/-- The sample reads as the one before (R124). -/
def imuSame : Bool := s.kin.imuLast.isSome && (List.range 6).all fun a => s.kin.imuVars[a]? == some (imuVar b fr s a)

/-- Samples in a row at a raw extreme, per axis (R124). -/
def imuSaturated : List Nat := (List.range 6).map fun a =>
  if ((fieldOf b a).map (rawExtreme b (padTo (kc8 s 51) fr))).getD false then s.kin.imuSat.getD a 0 + 1 else 0

/-- The state with a sample and its counts kept (R122 to R124). -/
def imuKept : State :=
  { s with kin := { s.kin with
    imuLast := some t0, imuVars := (List.range 8).map (imuVar b fr s)
    imuMissed := if imuMiss b fr s then s.kin.imuMissed + 1 else 0
    imuSat := imuSaturated b fr s, imuFrozen := if imuSame b fr s then s.kin.imuFrozen + 1 else 0
    imuGood := if (s.kin.imuLast.map fun l => decide (20 * msTicks ≤ t0 - l)).getD false then 1 else s.kin.imuGood + 1
    imuTx := slice s.kin.cfg 52 (kc8 s 50)
    imuBuf := ((t0, imuVector s ((List.range 8).map (imuVar b fr s))) :: s.kin.imuBuf).filter fun x => decide (t0 < x.1 + 2 * msTicks) } }

/-- What the counts of a kept sample do (R124). -/
def imuJudged (miss : Bool) (u : State) : State :=
  if 3 ≤ u.kin.imuMissed then imuLost 2 u
  else if u.kin.imuSat.any (fun n => decide (10 ≤ n)) then imuLost 3 u
  else if 99 ≤ u.kin.imuFrozen then imuLost 4 u
  else if miss then { u with kin := { u.kin with imuGood := 0 } } else u

end

/-- Before a first sample nothing is missed and nothing is alike. -/
theorem imuFirst {s : State} (b fr : List Byte) (h : s.kin.imuLast = none) : imuMiss b fr s = false ∧ imuSame b fr s = false := by
  simp [imuMiss, imuSame, h, counterBad_none]

/-- A gap of 20 ms starts the recovery anew (R124). -/
theorem imuKept_good {s : State} {l : Nat} (t0 : Nat) (b fr : List Byte) (h : s.kin.imuLast = some l) :
    (imuKept t0 b fr s).kin.imuGood = if 9600000 ≤ t0 - l then 1 else s.kin.imuGood + 1 := by
  by_cases hg : 9600000 ≤ t0 - l <;> simp [imuKept, h, hg, msTicks]

theorem execImuSample_idle {s : State} (t0 : Nat) (fr : List Byte)
    (h : tableOf s (u32 s.kin.cfg 40) = none ∨ s.kin.kstate = kOff ∨ kc8 s 36 ≠ 1) : execImuSample t0 fr s = .next (toInstant t0 s) := by
  rw [← tableOf_congr (toInstant_objs t0 s), ← kc8_congr (toInstant_kin t0 s), ← toInstant_kin t0 s] at h
  unfold execImuSample
  dsimp only
  split
  · rfl
  · next b hb => rw [if_pos (h.resolve_left (by rw [hb]; exact Option.some_ne_none b))]

theorem execImuSample_kept {s : State} (t0 : Nat) (fr : List Byte) {b : List Byte} (hb : tableOf s (u32 s.kin.cfg 40) = some b)
    (hk : s.kin.kstate ≠ kOff) (h36 : kc8 s 36 = 1) :
    execImuSample t0 fr s = .next (imuJudged (imuMiss b fr (toInstant t0 s)) (imuKept t0 b fr (toInstant t0 s))) := by
  rw [← tableOf_congr (toInstant_objs t0 s), ← toInstant_kin t0 s] at hb
  rw [← toInstant_kin t0 s] at hk
  rw [← kc8_congr (toInstant_kin t0 s)] at h36
  unfold execImuSample
  dsimp only
  rw [hb]
  exact congrArg Host.Outcome.next (if_neg fun h => h.elim hk fun h => h h36)

theorem imuLost_eq (r : Nat) (s : State) : imuLost r s
    = if s.kin.imuOk then raise0 0x0445 0 (leBytes 1 r) { s with kin := { s.kin with imuOk := false, imuGood := 0 } }
      else { s with kin := { s.kin with imuGood := 0 } } := rfl

theorem execImuTimeout_silent {s : State} {t0 : Nat} (hl : s.kin.imuLast = some t0) (hk : s.kin.kstate ≠ kOff) :
    execImuTimeout s = .next (imuLost 1 (toInstant (t0 + 9600000) s)) := by
  simp only [execImuTimeout, hl, if_neg hk, msTicks, Nat.reduceMul]

theorem execImuTimeout_idle {s : State} (h : s.kin.imuLast = none ∨ s.kin.kstate = kOff) : execImuTimeout s = .next s := by
  unfold execImuTimeout
  split
  · rfl
  · next t ht => rw [if_pos (h.resolve_left (by simp [ht]))]

theorem execImuRecovered_good {s : State} (hk : s.kin.kstate ≠ kOff) (h36 : kc8 s 36 = 1) (hg : 100 ≤ s.kin.imuGood) :
    execImuRecovered s = .next { s with kin := { s.kin with imuOk := true } } := by
  rw [execImuRecovered, if_pos ⟨hk, h36, hg⟩]

theorem execImuRecovered_idle {s : State} (h : s.kin.kstate = kOff ∨ kc8 s 36 ≠ 1 ∨ s.kin.imuGood < 100) :
    execImuRecovered s = .next s := by
  rw [execImuRecovered, if_neg]
  rintro ⟨hk, h36, hg⟩
  rcases h with h | h | h
  · exact hk h
  · exact h h36
  · omega

/-! ## The estimator (R129 to R131) -/

theorem exec_estimatorRun (s : State) : exec .estimatorRun s = execEstimatorRun s := rfl

section
variable {s : State} {m : KMeas} {tk : Nat}

theorem measStep_late (h : m.t + 120000000 < tk) : measStep tk s m = measRejected m 2 ((tk - m.t) / 480000) s := if_pos h

variable (ht : tk ≤ m.t + 120000000)
include ht

theorem measStep_unused (h : measUsed s m = false) : measStep tk s m = s := by
  simp only [measStep, msTicks, Nat.reduceMul, if_neg (Nat.not_lt.mpr ht), h, Bool.not_false, if_true]

/-- A position in time is a reset, rejected by its gate, or applied (R130, R131). -/
theorem measStep_position (hm : m.kind = 0) : measStep tk s m = if resetDue s then posReset m s
    else if 1627 < kfDist m.t (kfMeasOf s m) s then measRejected m 1 (kfDist m.t (kfMeasOf s m) s) s
    else positionAccepted m (kfApply m.t (kfMeasOf s m) s) := by
  have hu : measUsed s m = true := by simp [measUsed, hm]
  have hg : gateOf (measDim m) = 1627 := by simp [gateOf, measDim, hm]
  simp only [measStep, msTicks, Nat.reduceMul, if_neg (Nat.not_lt.mpr ht), hu, hg, hm, Bool.not_true, Bool.false_eq_true, if_false,
    true_and, if_true]
  rfl

end

/-- The start of a run: the pulse sources are read, the estimate is propagated and stored (R125, R130). -/
def runStarted (tk : Nat) (s : State) : State := kfPropagateRun tk ((sources s).foldl readPulseSource s)

/-- The waiting measurements are judged in their order, then those of the run itself (R129, R130). -/
def runJudged (tk : Nat) (u : State) : State := auxMeas tk (u.kin.meas.foldl (measStep tk) { u with kin := { u.kin with meas := [] } })

/-- Three courses that agree make the heading valid (R132). -/
def runHeading (v : State) : State :=
  if v.kin.courses.length = 3 ∧ coursesAgree v.kin.courses then { v with kin := { v.kin with headingValid := true } } else v

/-- A velocity of this run makes the path valid (R132). -/
def runPath (w : State) : State := if w.kin.lastVel = some w.gtc then { w with kin := { w.kin with pathValid := true } } else w

/-- The output is committed and the states follow (R128, R132, R134). -/
def runCommitted (x : State) : State :=
  kinStates (learnScale (fxToF 57 (x.kin.est.nom.getD 15 fxOne)) (kfCommit ((sources x).foldl trackSource x)))

/-- A run is its stages in order. Each stage is generalized before the next is looked at: the kernel must not evaluate one inside
another. -/
theorem execEstimatorRun_runs {s : State} {tk : Nat} (hk : s.kin.kstate ≠ kOff) (hr : s.osl.role ≠ 2) (htk : tk = s.gtc / 480000 * 480000) :
    execEstimatorRun s = .next (runCommitted (runPath (runHeading (runJudged tk (runStarted tk (toInstant (tk + 12000) s)))))) := by
  rw [execEstimatorRun, if_neg fun h => h.elim hk hr, show 10 * frameTicks = 480000 from rfl, show 4 * slotTicks = 12000 from rfl, ← htk]
  extract_lets tk' s0 u xs uk judged v vk w wk x
  have hs0 : s0 = toInstant (tk + 12000) s := rfl
  clear_value s0
  have hu : u = runStarted tk s0 := rfl
  clear_value u
  have hv : v = runJudged tk u := rfl
  clear_value v
  have hw : w = runHeading v := rfl
  clear_value w
  have hx : x = runPath w := rfl
  clear_value x
  rw [← hs0, ← hu, ← hv, ← hw, ← hx]
  rfl

/-- A rewritten run changes the stored runs and the estimate (R130). -/
theorem kfRewrite_frame (k : Nat) (f : Config.KfEst → Config.KfEst) (s : State) :
    ∃ h e, kfRewrite k f s = { s with kin := { s.kin with hist := h, est := e } } := by
  unfold kfRewrite
  split
  · exact ⟨_, _, rfl⟩
  · exact ⟨_, _, rfl⟩

/-- The unit after a position reset (R131). -/
theorem posReset_kin (m : KMeas) (s : State) : ∃ h e, (posReset m s).objs = s.objs ∧ (posReset m s).kin = { s.kin with
    hist := h, est := e, pos := fromAntenna s m.v, sigmaH := min m.sigma 0xFFFF, posResets := s.kin.posResets + 1
    lastPos := some (posReset m s).gtc, fixClass := m.cls, fixAt := m.t, rej4 := 0, rejAny := 0, drExpired := false } := by
  obtain ⟨h, e, hrw⟩ := kfRewrite_frame (kfRunAt m.t s) (kfPosSet (fromAntenna s m.v) (fxOf m.sigma)) s
  refine ⟨h, e, ?_, ?_⟩
  · simp only [posReset, hrw, positionAccepted]
    exact (touches_raise0 _ _ _ _).objs
  · simp only [posReset, hrw, positionAccepted, (touches_raise0 _ _ _ _).kin]

/-- Of the unit and the objects, only the unit's state may have changed (R115). -/
structure StateMoves (s t : State) : Prop where
  kin : t.kin = { s.kin with kstate := t.kin.kstate }
  objs : t.objs = s.objs

theorem StateMoves.trans {s t u : State} (h : StateMoves s t) (k : StateMoves t u) : StateMoves s u :=
  ⟨by rw [k.kin, h.kin], k.objs.trans h.objs⟩

theorem stateMoves_if (c : Prop) [Decidable c] (n : Nat) (s : State) : StateMoves s (if c then setKState n s else s) := by
  split
  · exact ⟨by rw [(touches_setKState n s).kin], (touches_setKState n s).objs⟩
  · exact ⟨rfl, rfl⟩

theorem stateMoves_kinStates (s : State) : StateMoves s (kinStates s) := by
  unfold kinStates
  exact ((stateMoves_if _ _ s).trans (stateMoves_if _ _ _)).trans (stateMoves_if _ _ _)

theorem execKinPosReset_idle {s : State} (h : s.kin.rej4 < 5 ∧ s.kin.rejAny < 10 ∨ ∀ m ∈ s.kin.meas, m.kind ≠ 0) :
    execKinPosReset s = .next s := by
  rcases h with ⟨h4, hany⟩ | h
  · rw [execKinPosReset, if_pos (by simp [resetDue]; omega)]
  · have hnone : s.kin.meas.find? (fun m => m.kind == 0) = none := by simpa using h
    rw [execKinPosReset, hnone]
    exact congrArg Host.Outcome.next (ite_self s)

theorem execKinPosReset_due {s : State} {m : KMeas} (h : 5 ≤ s.kin.rej4 ∨ 10 ≤ s.kin.rejAny)
    (hm : s.kin.meas.find? (fun m => m.kind == 0) = some m) :
    execKinPosReset s = .next (kinStates (posReset m { s with kin := { s.kin with meas := s.kin.meas.erase m } })) := by
  rw [execKinPosReset, if_neg (by simp [show resetDue s = true from decide_eq_true h]), hm]

/-! ## The path integrator (R134, R135) -/

/-- Of the unit, what the direction, the hitch sensor and the steer sensor change. -/
structure SensorsRead (s t : State) : Prop where
  gtc : t.gtc = s.gtc
  kin : t.kin = { s.kin with
    reverse := t.kin.reverse, hitchBad := t.kin.hitchBad, hitchOffSince := t.kin.hitchOffSince
    hitchOnSince := t.kin.hitchOnSince, steerBad := t.kin.steerBad }
  objs : t.objs = s.objs

theorem SensorsRead.refl (s : State) : SensorsRead s s := ⟨rfl, rfl, rfl⟩
theorem SensorsRead.trans {s t u : State} (h : SensorsRead s t) (k : SensorsRead t u) : SensorsRead s u :=
  ⟨k.gtc.trans h.gtc, by rw [k.kin, h.kin], k.objs.trans h.objs⟩
theorem Touches.sensorsRead {s t : State} (h : Touches s t) : SensorsRead s t := ⟨h.gtc, by rw [h.kin], h.objs⟩

theorem sensorsRead_setReverse (w : Bool) (s : State) : SensorsRead s (setReverse w s) := by
  refine SensorsRead.trans ?_ (touches_setReverse w s).sensorsRead
  exact ⟨rfl, rfl, rfl⟩

theorem sensorsRead_readDirection (s : State) : SensorsRead s (readDirection s) := by
  unfold readDirection
  split
  · exact sensorsRead_setReverse _ s
  · split
    · split
      · exact sensorsRead_setReverse _ s
      · exact SensorsRead.refl s
    · exact SensorsRead.refl s

theorem sensorsRead_trackHitch (s : State) : SensorsRead s (trackHitch s) := by
  unfold trackHitch
  split
  · exact SensorsRead.refl s
  · split
    · dsimp only
      split
      · exact ⟨rfl, rfl, rfl⟩
      · refine SensorsRead.trans ?_ (touches_raise0 _ _ _ _).sensorsRead
        exact ⟨rfl, rfl, rfl⟩
    · exact ⟨rfl, rfl, rfl⟩

theorem sensorsRead_trackSteer (s : State) : SensorsRead s (trackSteer s) := by
  unfold trackSteer
  split
  · exact SensorsRead.refl s
  · split
    · exact ⟨rfl, rfl, rfl⟩
    · split
      · exact SensorsRead.refl s
      · refine SensorsRead.trans ?_ (touches_raise0 _ _ _ _).sensorsRead
        exact ⟨rfl, rfl, rfl⟩

/-- A wing's frame leaves the time and the unit (R141). -/
theorem wingFrame_keeps (s : State) (o : Obj) : (wingFrame s o).gtc = s.gtc ∧ (wingFrame s o).kin = s.kin := by
  unfold wingFrame
  split
  · exact ⟨rfl, rfl⟩
  · split
    · dsimp only
      split
      · exact ⟨(touches_raise0 _ _ _ _).gtc, (touches_raise0 _ _ _ _).kin⟩
      · exact ⟨rfl, rfl⟩
    · exact ⟨rfl, rfl⟩

theorem foldl_wingFrame_keeps : ∀ (l : List Obj) (s : State), (l.foldl wingFrame s).gtc = s.gtc ∧ (l.foldl wingFrame s).kin = s.kin
  | [], _ => ⟨rfl, rfl⟩
  | o :: l, s => by
    obtain ⟨hgtc, hkin⟩ := foldl_wingFrame_keeps l (wingFrame s o)
    exact ⟨hgtc.trans (wingFrame_keeps s o).1, hkin.trans (wingFrame_keeps s o).2⟩

/-- The direction and the sensors are read. -/
def sensorsIn (s : State) : State := trackSteer (trackHitch (if s.kin.kstate = kOff then s else readDirection s))

theorem sensorsRead_sensorsIn (s : State) : SensorsRead s (sensorsIn s) := by
  have hdir : SensorsRead s (if s.kin.kstate = kOff then s else readDirection s) := by
    split
    · exact SensorsRead.refl s
    · exact sensorsRead_readDirection s
  exact (hdir.trans (sensorsRead_trackHitch _)).trans (sensorsRead_trackSteer _)

/-- The wings have had their frame too. -/
def inputsIn (s : State) : State := (objsOf (sensorsIn s) tyWing).foldl wingFrame (sensorsIn s)

theorem inputsIn_gtc (s : State) : (inputsIn s).gtc = s.gtc :=
  (foldl_wingFrame_keeps _ _).1.trans (sensorsRead_sensorsIn s).gtc

theorem inputsIn_kin (s : State) : (inputsIn s).kin = { s.kin with
    reverse := (inputsIn s).kin.reverse, hitchBad := (inputsIn s).kin.hitchBad, hitchOffSince := (inputsIn s).kin.hitchOffSince
    hitchOnSince := (inputsIn s).kin.hitchOnSince, steerBad := (inputsIn s).kin.steerBad } := by
  have hkin : (inputsIn s).kin = (sensorsIn s).kin := (foldl_wingFrame_keeps _ _).2
  rw [hkin]
  exact (sensorsRead_sensorsIn s).kin

/-- The inputs of a run leave the motion as it is. -/
theorem inputsIn_motion (s : State) : (inputsIn s).kin.pos = s.kin.pos ∧ (inputsIn s).kin.heading = s.kin.heading
    ∧ (inputsIn s).kin.u = s.kin.u ∧ (inputsIn s).kin.w0 = s.kin.w0 := by
  rw [inputsIn_kin]
  exact ⟨rfl, rfl, rfl, rfl⟩

/-- The inputs of a run leave the record, the block and the state as they are. -/
theorem inputsIn_record (s : State) : (inputsIn s).kin.rcd = s.kin.rcd ∧ (inputsIn s).kin.cfg = s.kin.cfg
    ∧ (inputsIn s).kin.kstate = s.kin.kstate := by
  rw [inputsIn_kin]
  exact ⟨rfl, rfl, rfl⟩

theorem inputsIn_objs {s : State} (h : objsOf s tyWing = []) : (inputsIn s).objs = s.objs := by
  have hobjs := (sensorsRead_sensorsIn s).objs
  have hnone : objsOf (sensorsIn s) tyWing = [] := by rw [objsOf, hobjs]; exact h
  rw [inputsIn, hnone]
  exact hobjs

/-- The state of the next boundary: the motion, then the implement and the record. -/
def integrated (s : State) : State := moveImplement (nextBoundary s.gtc) (trackStandstill (moveTractor (startCorrections s)))

theorem execPathIntegratorRun_member {s : State} (hr : s.osl.role = 2) : execPathIntegratorRun s = .next s :=
  congrArg Host.Outcome.next (if_pos hr)

theorem execPathIntegratorRun_runs {s : State} (hr : s.osl.role ≠ 2) : execPathIntegratorRun s = .next (integrated (inputsIn s)) :=
  congrArg Host.Outcome.next (if_neg hr)

theorem startCorrections_frame (s : State) :
    ∃ g d, startCorrections s = { s with kin := { s.kin with dGamma := g, dSteer := d } } := by
  unfold startCorrections
  split
  · exact ⟨_, _, rfl⟩
  · exact ⟨_, _, rfl⟩

theorem iBytes_length (k : Nat) (i : Int) : (iBytes k i).length = k := leBytes_length k _

section
variable (s : State) (b : Nat) (origin : Vec3) (hd vx vy ax ay w tw : Fx)

theorem recordBytes_length : (recordBytes s b origin hd vx vy ax ay w tw).length = 128 := by
  unfold recordBytes
  extract_lets k level i4 fl
  have hi4 (x : Fx) : (i4 x).length = 4 := iBytes_length 4 _
  have hfl (x : Fx) : (fl x).length = 4 := leBytes_length 4 _
  have hwing (rate : Bool) : ((List.range 8).flatMap fun i => iBytes 2 (wingField s i rate)).length = 16 := by
    rw [length_flatMap_records (n := 2) fun i _ => iBytes_length 2 _, List.length_range]
  simp only [List.length_append, leBytes_length, iBytes_length, hi4, hfl, hwing, List.length_cons, List.length_nil]

/-- The boundary that a record is for (R26). -/
theorem recordBytes_boundary : u64 (recordBytes s b origin hd vx vy ax ay w tw) 4 = b % 2 ^ 64 := by
  unfold recordBytes
  extract_lets k level i4 fl
  simp only [u64, List.append_assoc]
  rw [slice_leBytes_skip _ _ _ (by decide), slice_leBytes_skip _ _ _ (by decide), slice_leBytes_here, leNat_leBytes,
    show 256 ^ 8 = 2 ^ 64 by decide]

end

theorem moveImplement_record (b : Nat) (s : State) :
    (moveImplement b s).kin.rcdNext.length = 128 ∧ u64 (moveImplement b s).kin.rcdNext 4 = b % 2 ^ 64 :=
  ⟨recordBytes_length _ _ _ _ _ _ _ _ _ _, recordBytes_boundary _ _ _ _ _ _ _ _ _ _⟩

/-- The record of the next boundary (R26). -/
theorem integrated_record (s : State) : (integrated s).kin.rcdNext.length = 128
    ∧ u64 (integrated s).kin.rcdNext 4 = nextBoundary s.gtc % 2 ^ 64 := by
  rw [integrated]
  exact moveImplement_record _ _

/-- The implement's step for the next boundary leaves where the tractor is. -/
theorem moveImplement_keeps (b : Nat) (s : State) : (moveImplement b s).gtc = s.gtc ∧ (moveImplement b s).objs = s.objs
    ∧ (moveImplement b s).kin.rcd = s.kin.rcd ∧ (moveImplement b s).kin.cfg = s.kin.cfg ∧ (moveImplement b s).kin.kstate = s.kin.kstate
    ∧ (moveImplement b s).kin.pos = s.kin.pos ∧ (moveImplement b s).kin.heading = s.kin.heading :=
  ⟨rfl, rfl, rfl, rfl, rfl, rfl, rfl⟩

/-- The motion of one frame, from the state before it (R134). -/
theorem moveTractor_moves (s : State) : (moveTractor s).gtc = s.gtc ∧ (moveTractor s).objs = s.objs
    ∧ (moveTractor s).kin.rcd = s.kin.rcd ∧ (moveTractor s).kin.cfg = s.kin.cfg ∧ (moveTractor s).kin.kstate = s.kin.kstate
    ∧ (moveTractor s).kin.pos = { s.kin.pos with
        x := s.kin.pos.x + fxMul (perFrame s.kin.u) (fxSin s.kin.heading)
        y := s.kin.pos.y + fxMul (perFrame s.kin.u) (fxCos s.kin.heading) }
    ∧ (moveTractor s).kin.heading = (s.kin.heading - perFrame s.kin.w0) % fxTwoPi :=
  ⟨rfl, rfl, rfl, rfl, rfl, rfl, rfl⟩

/-- Where the tractor is at the next boundary, and what stays (R134). -/
theorem integrated_moves (s : State) : (integrated s).gtc = s.gtc ∧ (integrated s).objs = s.objs ∧ (integrated s).kin.rcd = s.kin.rcd
    ∧ (integrated s).kin.cfg = s.kin.cfg ∧ (integrated s).kin.kstate = s.kin.kstate
    ∧ (integrated s).kin.pos = { s.kin.pos with
        x := s.kin.pos.x + fxMul (perFrame s.kin.u) (fxSin s.kin.heading)
        y := s.kin.pos.y + fxMul (perFrame s.kin.u) (fxCos s.kin.heading) }
    ∧ (integrated s).kin.heading = (s.kin.heading - perFrame s.kin.w0) % fxTwoPi := by
  obtain ⟨g, d, h⟩ := startCorrections_frame s
  rw [integrated, h]
  obtain ⟨igtc, iobjs, ircd, icfg, istate, ipos, ihead⟩ := moveImplement_keeps (nextBoundary s.gtc)
    (trackStandstill (moveTractor { s with kin := { s.kin with dGamma := g, dSteer := d } }))
  obtain ⟨tgtc, tobjs, trcd, tcfg, tstate, tpos, thead⟩ := moveTractor_moves { s with kin := { s.kin with dGamma := g, dSteer := d } }
  exact ⟨igtc.trans tgtc, iobjs.trans tobjs, ircd.trans trcd, icfg.trans tcfg, istate.trans tstate, ipos.trans tpos, ihead.trans thead⟩

/-! ## Geometry points (R144) -/

theorem exec_geopointPropagate (s : State) : exec .geopointPropagate s = execGeopointPropagate s := rfl

/-- A point `o` that is `o'` after the step for the next record: path position and speed have moved on by a frame, and wait for
their boundary. -/
def PointMoved (u : State) (o o' : Obj) : Prop := ∃ p g : GeoRt, ∃ x : GeoPt, p = geoOf o
  ∧ o' = { o with rt := .geo g } ∧ g = { p with next := some x, nextAt := shadowBoundary u.gtc, sign := g.sign }
  ∧ x.s = p.cur.s + 2 * p.cur.v + p.cur.a ∧ x.v = p.cur.v + p.cur.a ∧ x.boundary = u64 u.kin.rcdNext 4

theorem geoPropagate_same {s : State} {o : Obj} (ho : objAt s o.idx = some o) :
    ∃ o', objAt (geoPropagate s o) o.idx = some o' ∧ PointMoved s o o' := by
  refine ⟨_, objAt_updObj_same (fun _ => rfl) ho, geoOf o, _, _, rfl, rfl, rfl, rfl, rfl, rfl⟩

theorem geoPropagate_other {s : State} {o : Obj} {i : Nat} (hi : i ≠ o.idx) : objAt (geoPropagate s o) i = objAt s i :=
  objAt_updObj_other (fun _ => rfl) hi

theorem foldl_geoPropagate_frame : ∀ (l : List Obj) (s : State),
    l.foldl geoPropagate s = { s with objs := (l.foldl geoPropagate s).objs }
  | [], _ => rfl
  | o :: l, s => foldl_geoPropagate_frame l (geoPropagate s o)

theorem foldl_geoPropagate_other {i : Nat} : ∀ (l : List Obj) (s : State), (∀ o ∈ l, o.idx ≠ i) →
    objAt (l.foldl geoPropagate s) i = objAt s i
  | [], _, _ => rfl
  | o :: l, s, h => by
    rw [List.foldl_cons, foldl_geoPropagate_other l _ fun x hx => h x (List.mem_cons_of_mem _ hx)]
    exact geoPropagate_other (Ne.symm (h o List.mem_cons_self))

theorem foldl_geoPropagate_same {o : Obj} : ∀ (l : List Obj) (s : State), l.Pairwise (fun a b => a.idx ≠ b.idx) → o ∈ l →
    objAt s o.idx = some o → ∃ o', objAt (l.foldl geoPropagate s) o.idx = some o' ∧ PointMoved s o o'
  | [], _, _, h, _ => nomatch h
  | x :: l, s, hp, hmem, ho => by
    obtain ⟨hx, hl⟩ := List.pairwise_cons.mp hp
    rw [List.foldl_cons]
    rcases List.mem_cons.mp hmem with rfl | hmem
    · rw [foldl_geoPropagate_other l _ fun y hy => Ne.symm (hx y hy)]
      exact geoPropagate_same ho
    · exact foldl_geoPropagate_same l (geoPropagate s x) hl hmem ((geoPropagate_other (Ne.symm (hx o hmem))).trans ho)

theorem execGeopointPropagate_eq (s : State) : execGeopointPropagate s
    = .next (((objsOf s tyGeopoint).filter isEnabled).foldl geoPropagate (toInstant (s.gtc / 48000 * 48000 + 15000) s)) := by
  have hpoints : objsOf (toInstant (s.gtc / 48000 * 48000 + 15000) s) tyGeopoint = objsOf s tyGeopoint := by rw [objsOf, toInstant_objs]; rfl
  rw [← hpoints]
  rfl

theorem mem_enabledPoints {s : State} {o : Obj} : o ∈ (objsOf s tyGeopoint).filter isEnabled
    ↔ o ∈ s.objs ∧ o.typ = tyGeopoint ∧ o.ost = .enabled := by
  simp [objsOf, isEnabled]
  tauto

/-- Settles O31: each sentence, sample and run by the branch of its meaning that it takes. -/
theorem kinematicsInputs : Obligations.KinematicsInputs := by
  refine ⟨fun s cs a b f h => execNmeaSentence_ignored cs a b f h, fun s cs a b f u hk h0 hu => ?_,
    fun s a b u fix c he => ⟨_, rfl, rfl, rfl, rfl, takeSentence_gga_opens a b u fix c he⟩,
    fun s a b u v he => ⟨_, rfl, rfl, rfl, rfl, rfl, takeSentence_rmc_opens a b u v he⟩,
    fun s a b e he => ⟨takeSentence_vtg_joins a b he, takeSentence_hdt_joins a b he, takeSentence_rmc_joins a b he,
      fun u n hu hn => takeSentence_closes a b he hu hn⟩,
    fun s he => execEpochIdleClose_none he, fun s e he => ?_, fun s t0 fr h => execImuSample_idle t0 fr h,
    fun s t0 fr b hb hk h36 => ?_, imuLost_eq, fun s t0 hl hk => execImuTimeout_silent hl hk, fun s h => execImuTimeout_idle h,
    fun s hk h36 hg => execImuRecovered_good hk h36 hg, fun s h => execImuRecovered_idle h, fun s h => ?_,
    fun s tk u v w x hk hr htk hu hv hw hx => ?_, fun s tk e he => ?_, fun s tk m hr => ?_, fun s h => execKinPosReset_idle h,
    fun s m h hm => ?_, fun s hr => execPathIntegratorRun_member hr, fun s hr => ?_, fun s hp => ?_⟩
  · have hheard : u = sentenceHeard b s := hu
    rw [hheard, exec_nmeaSentence]
    exact ⟨execNmeaSentence_other a b hk h0 f, execNmeaSentence_bad a b hk h0,
      fun n ht hl hn => execNmeaSentence_taken a b hk h0 ht hl hn⟩
  · have hkin := toInstant_kin (e.tLast + 2 * msTicks) s
    have hopen : (toInstant (e.tLast + 2 * msTicks) s).kin.epoch = some e := by rw [hkin, he]
    refine ⟨_, execEpochIdleClose_open he, closeEpoch_epoch hopen, ?_, fun hl => ?_, ?_⟩
    · rw [closeEpoch_counted hopen, hkin]
    · rw [← hkin] at hl
      rw [← hkin]
      exact closeEpoch_first hopen hl
    · rw [closeEpoch_objs hopen, toInstant_objs]
  · have hkin := toInstant_kin t0 s
    refine ⟨imuKept t0 b fr (toInstant t0 s), imuMiss b fr (toInstant t0 s), imuSame b fr (toInstant t0 s), rfl, ?_, fun h => ?_, rfl, ?_, ?_,
      ?_, ?_, fun l hl => ?_, ?_, ?_, ?_, execImuSample_kept t0 fr hb hk h36⟩
    · simp only [imuMiss, kc8_congr hkin, hkin, Option.isNone_iff_eq_none]
    · rw [← hkin] at h
      exact imuFirst b fr h
    · rw [← hkin]; rfl
    · rw [← hkin]; rfl
    · simp [imuKept]
    · simp [imuKept, imuSaturated]
    · rw [← hkin] at hl ⊢
      exact imuKept_good t0 b fr hl
    · rw [← hkin]; rfl
    · rw [← hkin]; rfl
    · rw [← kc8_congr hkin, ← hkin]; rfl
  · rw [exec_estimatorRun, execEstimatorRun, if_pos h]
  · have hsources := sources_congr (toInstant_kin (tk + 12000) s)
    rw [exec_estimatorRun, execEstimatorRun_runs hk hr htk]
    generalize toInstant (tk + 12000) s = s0 at hu hsources ⊢
    rw [← hsources] at hu
    have hu' : u = runStarted tk s0 := hu
    have hv' : v = runJudged tk u := hv
    have hw' : w = runHeading v := hw
    have hx' : x = runPath w := hx
    rw [← hu', ← hv', ← hw', ← hx', runCommitted]
  · subst he
    exact ⟨rfl, rfl⟩
  · exact ⟨measStep_late, measStep_unused, fun ht hm h => by rw [measStep_position ht hm, if_pos h],
      fun ht hm h hd => by rw [measStep_position ht hm, if_neg (by simp [h]), if_neg (by omega)],
      fun ht hm h hd => by rw [measStep_position ht hm, if_neg (by simp [h]), if_pos hd]⟩
  · obtain ⟨hist, est, hobjs, hreset⟩ := posReset_kin m { s with kin := { s.kin with meas := s.kin.meas.erase m } }
    have hstate := stateMoves_kinStates (posReset m { s with kin := { s.kin with meas := s.kin.meas.erase m } })
    refine ⟨_, execKinPosReset_due h hm, ?_, ?_, ?_, ?_, ?_, ?_, hstate.objs.trans hobjs⟩
    · rw [hstate.kin, hreset]; rfl
    · rw [hstate.kin, hreset]
    · rw [hstate.kin, hreset]
    · rw [hstate.kin, hreset]
    · rw [hstate.kin, hreset]
    · rw [hstate.kin, hreset]
  · obtain ⟨hgtc, hobjs, hrcd, hcfg, hstate, hpos, hhead⟩ := integrated_moves (inputsIn s)
    obtain ⟨hlen, hboundary⟩ := integrated_record (inputsIn s)
    obtain ⟨inpos, inheading, inu, inw0⟩ := inputsIn_motion s
    obtain ⟨inrcd, incfg, instate⟩ := inputsIn_record s
    refine ⟨_, execPathIntegratorRun_runs hr, hgtc.trans (inputsIn_gtc s), hlen, ?_, hrcd.trans inrcd,
      hcfg.trans incfg, hstate.trans instate, ?_, ?_, fun hw => hobjs.trans (inputsIn_objs hw)⟩
    · rw [hboundary, inputsIn_gtc]
    · rw [hpos, inpos, inheading, inu, perFrame]
    · rw [hhead, inheading, inw0, perFrame]
  · refine ⟨_, _, (exec_geopointPropagate s).trans (execGeopointPropagate_eq s), rfl, foldl_geoPropagate_frame _ _, fun i o ho hno => ?_,
      fun i o ho ht he => ?_⟩
    · obtain rfl : o.idx = i := idx_of_objAt ho
      rw [foldl_geoPropagate_other, objAt_congr (toInstant_objs _ s), ho]
      intro x hx hidx
      obtain ⟨hx, ht, he⟩ := mem_enabledPoints.mp hx
      obtain rfl := eq_of_idx ho hp x hx hidx
      exact hno ⟨ht, he⟩
    · obtain rfl : o.idx = i := idx_of_objAt ho
      obtain ⟨o', hat, p, g, x, hgeo, ho', hg, hs, hv, hb⟩ := foldl_geoPropagate_same _ (toInstant (s.gtc / 48000 * 48000 + 15000) s)
        ((hp.filter _).filter _) (mem_enabledPoints.mpr ⟨List.mem_of_find?_eq_some ho, ht, he⟩)
        ((objAt_congr (toInstant_objs _ s) _).trans ho)
      rw [toInstant_kin] at hb
      exact ⟨p, g, x, hgeo, ho' ▸ hat, hg, hs, hv, hb⟩

end Sys2Proof.Machine
end

section
/-! PROOFS. Kinematics (04): what a limit in time does to the unit (R124 to R127, R130, R132, R133, R138, R141). -/

namespace Sys2Proof.Machine

theorem exec_drLimitExpiry (s : State) : exec .drLimitExpiry s = execDrLimitExpiry s := rfl
theorem exec_pathValidTimeout (s : State) : exec .pathValidTimeout s = execPathValidTimeout s := rfl
theorem exec_standstillDetect (s : State) : exec .standstillDetect s = execStandstillDetect s := rfl
theorem exec_steerHoldExpiry (s : State) : exec .steerHoldExpiry s = execSteerHoldExpiry s := rfl

/-! ## The unit's state and its flags (R132, R133) -/

theorem setKState_other {n : Nat} {s : State} (h : n ≠ s.kin.kstate) :
    setKState n s = raise0 0x0440 0 (leBytes 1 n ++ leBytes 1 s.kin.kstate) { s with kin := { s.kin with kstate := n } } := if_neg h

theorem execGnssTimeout_running {s : State} {t : Nat} (ht : s.kin.lastPos = some t) (hk : s.kin.kstate = kRunning) {u : State}
    (hu : u = toInstant (commitAt (t + kc16 s 10 * msTicks)) s) :
    execGnssTimeout s = .next (raise0 0x0441 0 [] (setKState kDead { u with kin := { u.kin with drAt := u.gtc } })) := by
  subst hu
  simp only [execGnssTimeout, ht, if_pos hk]

theorem execGnssTimeout_idle {s : State} (h : s.kin.kstate ≠ kRunning ∨ s.kin.lastPos = none) : execGnssTimeout s = .next s := by
  unfold execGnssTimeout
  split
  · rfl
  · next t ht => rw [if_neg (h.resolve_right (by simp [ht]))]

theorem execHeadingTimeout_expires {s : State} (hv : s.kin.headingValid = true) (hi : s.kin.imuOk = false) : execHeadingTimeout s
    = .next { toInstant (commitAt ((s.kin.lastHeading.getD 0) + 2 * secTicks)) s with
        kin := { s.kin with headingValid := false, courses := [] } } := by
  rw [execHeadingTimeout, if_pos (by simp [hv, hi])]

theorem execHeadingTimeout_idle {s : State} (h : s.kin.imuOk = true ∨ s.kin.headingValid = false) : execHeadingTimeout s = .next s := by
  rw [execHeadingTimeout, if_neg (by rcases h with h | h <;> simp [h])]

theorem execPathValidTimeout_expires {s : State} {t : Nat} (ht : s.kin.lastVel = some t) (hv : s.kin.pathValid = true) :
    execPathValidTimeout s
      = .next (pathInvalid { toInstant (commitAt (t + 96000000)) s with kin := { s.kin with pathValid := false } }) := by
  simp only [execPathValidTimeout, ht, if_pos hv, msTicks, Nat.reduceMul]

theorem execPathValidTimeout_idle {s : State} (h : s.kin.pathValid = false ∨ s.kin.lastVel = none) :
    execPathValidTimeout s = .next s := by
  unfold execPathValidTimeout
  split
  · rfl
  · next t ht => rw [if_neg (by simpa [ht] using h)]

theorem sourcesSlow_congr {s t : State} (h : t.kin = s.kin) : sourcesSlow t = sourcesSlow s := by
  simp only [sourcesSlow, sources_congr h, srcOf_congr h, kc16, h]
  rfl

/-- STANDSTILL is set where every source is slow, and stays otherwise (R130). -/
theorem standstill_of_slow {s u : State} (hk : u.kin = s.kin) :
    (if sourcesSlow u then { u with kin := { u.kin with standstill := true } } else u)
      = { u with kin := { s.kin with standstill := s.kin.standstill || sourcesSlow s } } := by
  rw [← sourcesSlow_congr hk, ← hk]
  split
  · next h => rw [h, Bool.or_true]
  · next h => rw [Bool.eq_false_iff.mpr h, Bool.or_false]

theorem execStandstillDetect_slow {s : State} {t : Nat} (ht : s.kin.slowSince = some t) : execStandstillDetect s
    = .next { toInstant (t + 48000000) s with kin := { s.kin with standstill := s.kin.standstill || sourcesSlow s } } := by
  rw [← standstill_of_slow (toInstant_kin (t + 48000000) s)]
  simp only [execStandstillDetect, msTicks, Nat.reduceMul]
  rw [ht]
  rfl

/-! ## Speed sources (R125 to R127) -/

theorem execSpeedSourceImplausible_differs {s : State} {k t : Nat} (ht : (srcOf s k).badSince = some t)
    (hi : (srcOf s k).implausible = false) (hk : k < kc8 s 168) {u : State} (hu : u = toInstant (t + 2 * secTicks) s) :
    execSpeedSourceImplausible k s = .next (raiseLimited secTicks 0x0446 0 0 0 0
      (leBytes 1 k ++ [0, 0, 0] ++ iBytes 4 (fxToInt 40 (((srcDiff u k).map (·.1)).getD 0))) 0 0
      (updSrc k (fun x => { x with implausible := true }) u)) := by
  subst hu
  have hon : ¬ ((srcOf s k).implausible || decide (kc8 s 168 ≤ k)) = true := by simp [hi, hk]
  simp only [execSpeedSourceImplausible, ht, if_neg hon]

theorem execSpeedSourceImplausible_idle {s : State} {k : Nat}
    (h : (srcOf s k).badSince = none ∨ (srcOf s k).implausible = true ∨ kc8 s 168 ≤ k) :
    execSpeedSourceImplausible k s = .next s := by
  unfold execSpeedSourceImplausible
  split
  · rfl
  · next t ht => rw [if_pos (by simpa [ht] using h)]

theorem execSpeedSourceRestore_agrees {s : State} {k t : Nat} (ht : (srcOf s k).goodSince = some t)
    (hi : (srcOf s k).implausible = true) : execSpeedSourceRestore k s
      = .next (updSrc k (fun x => { x with implausible := false }) (toInstant (t + 5 * secTicks) s)) := by
  simp only [execSpeedSourceRestore, ht, if_pos hi]

theorem execSpeedSourceRestore_idle {s : State} {k : Nat} (h : (srcOf s k).goodSince = none ∨ (srcOf s k).implausible = false) :
    execSpeedSourceRestore k s = .next s := by
  unfold execSpeedSourceRestore
  split
  · rfl
  · next t ht => rw [if_neg (by simpa [ht] using h)]

theorem execIsobusSpeedTimeout_silent {s : State} {k : Nat} (hi : 3 ≤ srcKind s k) (hk : k < kc8 s 168) (hv : (srcOf s k).valid = true) :
    execIsobusSpeedTimeout k s
      = .next (updSrc k (fun x => { x with valid := false }) (toInstant ((srcOf s k).last + 300 * msTicks) s)) := by
  rw [execIsobusSpeedTimeout, if_pos ⟨hi, hk, hv⟩]

theorem execIsobusSpeedTimeout_idle {s : State} {k : Nat} (h : srcKind s k < 3 ∨ kc8 s 168 ≤ k ∨ (srcOf s k).valid = false) :
    execIsobusSpeedTimeout k s = .next s := by
  rw [execIsobusSpeedTimeout, if_neg]
  rintro ⟨hi, hk, hv⟩
  rcases h with h | h | h
  · omega
  · omega
  · rw [h] at hv; cases hv

theorem execReverseDetect_detects {s : State} {w : Bool} {t : Nat} (ht : s.kin.revSince = some (w, t)) (hc : courseDetects s = true) :
    execReverseDetect s = .next (setReverse w (toInstant (t + secTicks) s)) := by
  simp only [execReverseDetect, ht, if_pos hc]

theorem execReverseDetect_idle {s : State} (h : s.kin.revSince = none ∨ courseDetects s = false) : execReverseDetect s = .next s := by
  unfold execReverseDetect
  split
  · rfl
  · next w t ht => rw [if_neg (by simpa [ht] using h)]

/-! ## Hitch, steer and wings (R138, R141) -/

theorem execHitchImplausibleTimeout_idle {s : State} (h : s.kin.hitchOffSince = none ∨ s.kin.hitchBad = true) :
    execHitchImplausibleTimeout s = .next s := by
  unfold execHitchImplausibleTimeout
  split
  · rfl
  · next t ht => rw [if_pos (by simpa [ht] using h)]

theorem execHitchImplausibleTimeout_off {s : State} {t : Nat} (ht : s.kin.hitchOffSince = some t) (hb : s.kin.hitchBad = false) :
    execHitchImplausibleTimeout s = .next (raise0 0x044B 0 [0]
      { toInstant (t + 2 * secTicks) s with kin := { s.kin with hitchBad := true, hitchOnSince := none } }) := by
  simp only [execHitchImplausibleTimeout, ht, hb, Bool.false_eq_true, if_false]

theorem execHitchRestore_idle {s : State} (h : s.kin.hitchOnSince = none ∨ s.kin.hitchBad = false) : execHitchRestore s = .next s := by
  unfold execHitchRestore
  split
  · rfl
  · next t ht => rw [if_neg (by simpa [ht] using h)]

theorem execHitchRestore_on {s : State} {t : Nat} (ht : s.kin.hitchOnSince = some t) (hb : s.kin.hitchBad = true) :
    execHitchRestore s = .next { toInstant (t + 5 * secTicks) s with kin := { s.kin with hitchBad := false } } := by
  simp only [execHitchRestore, ht, if_pos hb]

theorem execWingHoldExpiry_idle {s : State} {h : Nat} (hw : objOf s h = none ∨ ∃ o, objOf s h = some o ∧ (wingOf o).badSince = none) :
    execWingHoldExpiry h s = .next s := by
  rcases hw with ho | ⟨o, ho, hb⟩
  · simp only [execWingHoldExpiry, ho]
  · simp only [execWingHoldExpiry, ho, hb]

theorem execWingHoldExpiry_bad {s : State} {h t : Nat} {o : Obj} (ho : objOf s h = some o) (hb : (wingOf o).badSince = some t) :
    execWingHoldExpiry h s = .next (updWing o.idx (fun r => { r with angle := 0, rate := 0 }) (toInstant (t + 200 * msTicks) s)) := by
  simp only [execWingHoldExpiry, ho, hb]

theorem execWingSensorRestore_idle {s : State} {h : Nat}
    (hw : objOf s h = none ∨ ∃ o, objOf s h = some o ∧ ((wingOf o).goodSince = none ∨ (wingOf o).valid = true)) :
    execWingSensorRestore h s = .next s := by
  rcases hw with ho | ⟨o, ho, hg | hv⟩
  · simp only [execWingSensorRestore, ho]
  · simp only [execWingSensorRestore, ho, hg]
  · simp only [execWingSensorRestore, ho]
    split
    · rfl
    · rw [if_pos hv]

theorem execWingSensorRestore_good {s : State} {h t : Nat} {o : Obj} (ho : objOf s h = some o) (hg : (wingOf o).goodSince = some t)
    (hv : (wingOf o).valid = false) : execWingSensorRestore h s
      = .next (updWing o.idx (fun r => { r with valid := true, badSince := none, goodSince := none }) (toInstant (t + secTicks) s)) := by
  simp only [execWingSensorRestore, ho, hg, hv, Bool.false_eq_true, if_false]

/-- Settles O32: each limit by its own rule. -/
theorem kinematicsLimits : Obligations.KinematicsLimits := by
  refine ⟨fun n s h => setKState_other h, fun s t u ht hk hu => execGnssTimeout_running ht hk hu, fun s h => execGnssTimeout_idle h,
    fun s hk hd => ?_, fun s h => ?_, fun s hv hi => execHeadingTimeout_expires hv hi, fun s h => execHeadingTimeout_idle h,
    fun s t ht hv => ⟨_, rfl, ?_⟩, fun s h => execPathValidTimeout_idle h,
    fun s t ht => execStandstillDetect_slow ht, fun s h => ?_,
    fun s k t u d ht hi hk hu hd => ?_, fun s k h => execSpeedSourceImplausible_idle h, fun s k h => execSpeedSourceRestore_idle h,
    fun s k h => execIsobusSpeedTimeout_idle h, fun s k t ht hi => execSpeedSourceRestore_agrees ht hi,
    fun s k hi hk hv => execIsobusSpeedTimeout_silent hi hk hv, fun s w t ht hc => execReverseDetect_detects ht hc,
    setReverse_eq, fun s h => execReverseDetect_idle h, fun s h => execHitchImplausibleTimeout_idle h,
    fun s h => execHitchRestore_idle h, fun s h => ?_, fun s h hw => execWingHoldExpiry_idle hw,
    fun s h hw => execWingSensorRestore_idle hw, fun s t ht hb => execHitchImplausibleTimeout_off ht hb,
    fun s t ht hb => execHitchRestore_on ht hb, fun s t ht => ?_, fun s h o t ho hb => execWingHoldExpiry_bad ho hb,
    fun s h o t ho hg hv => execWingSensorRestore_good ho hg hv, fun i f s => rfl⟩
  · rw [exec_drLimitExpiry, execDrLimitExpiry, if_pos ⟨hk, by simp [hd]⟩]
    rfl
  · rw [exec_drLimitExpiry, execDrLimitExpiry, if_neg]
    rintro ⟨hk, hd⟩
    exact h.elim (fun h => h hk) hd
  · rw [exec_pathValidTimeout, execPathValidTimeout_expires ht hv, pathInvalid]
  · rw [exec_standstillDetect, execStandstillDetect, h]
  · rw [hd]
    exact execSpeedSourceImplausible_differs ht hi hk hu
  · rw [exec_steerHoldExpiry, execSteerHoldExpiry, h]
  · rw [exec_steerHoldExpiry, execSteerHoldExpiry, ht]
    rfl

end Sys2Proof.Machine
end

section
/-! PROOFS. Coverage board (05): a layer after a change, its cached tiles, and their bytes. -/

namespace Sys2Proof.Machine

/-! ## A layer after a change -/

@[simp] theorem updLayer_hif (i : Nat) (f : LayerRt → LayerRt) (s : State) : (updLayer i f s).hif = s.hif := rfl

/-- A layer with another running state. -/
def withLayer (o : Obj) (r : LayerRt) : Obj := { o with rt := .layer r }

@[simp] theorem layerOf_withLayer (o : Obj) (r : LayerRt) : layerOf (withLayer o r) = r := rfl

theorem objAt_updLayer {s : State} {i : Nat} {o : Obj} (f : LayerRt → LayerRt) (ho : objAt s i = some o) :
    objAt (updLayer i f s) i = some (withLayer o (f (layerOf o))) :=
  objAt_updObj_same (f := fun o => { o with rt := .layer (f (layerOf o)) }) (fun _ => rfl) ho

theorem objAt_updLayer_other {i j : Nat} (f : LayerRt → LayerRt) (s : State) (hj : j ≠ i) : objAt (updLayer i f s) j = objAt s j :=
  objAt_updObj_other (f := fun o => { o with rt := .layer (f (layerOf o)) }) (fun _ => rfl) hj

theorem layerAt_of_objAt {s : State} {i : Nat} {o : Obj} (ho : objAt s i = some o) : layerAt s i = layerOf o := by
  rw [layerAt, ho]
  rfl

theorem layerAt_congr {s t : State} (h : t.objs = s.objs) (i : Nat) : layerAt t i = layerAt s i := by
  rw [layerAt, layerAt, objAt_congr h]

theorem layerAt_updLayer {s : State} {i : Nat} (f : LayerRt → LayerRt) (hi : objAt s i ≠ none) :
    layerAt (updLayer i f s) i = f (layerAt s i) := by
  obtain ⟨o, ho⟩ := Option.ne_none_iff_exists'.mp hi
  rw [layerAt_of_objAt (objAt_updLayer f ho), layerAt_of_objAt ho, layerOf_withLayer]

/-! ## The cached tiles of a layer -/

section
variable {tx ty : Nat}

theorem tileAt_place {r : LayerRt} {t : CTile} (h : tileAt r tx ty = some t) : t.tx = tx ∧ t.ty = ty := by
  simpa using List.find?_some h

/-- A tile is found with the change made to it. -/
theorem tileAt_updTile {f : CTile → CTile} (hx : ∀ t, (f t).tx = t.tx) (hy : ∀ t, (f t).ty = t.ty) (r : LayerRt) :
    tileAt (updTile tx ty f r) tx ty = (tileAt r tx ty).map f := by
  have hkey (t : CTile) : ((if t.tx = tx ∧ t.ty = ty then f t else t).tx == tx && (if t.tx = tx ∧ t.ty = ty then f t else t).ty == ty)
      = (t.tx == tx && t.ty == ty) := by split <;> simp only [hx, hy]
  simp only [tileAt, updTile, List.find?_map, Function.comp_def, hkey]
  cases ht : tileAt r tx ty with
  | none => rw [show r.tiles.find? _ = none from ht]; rfl
  | some t =>
    rw [show r.tiles.find? _ = some t from ht]
    exact congrArg some (if_pos (tileAt_place ht))

theorem tileAt_updTile_some {r : LayerRt} {t : CTile} {f : CTile → CTile} (hx : ∀ t, (f t).tx = t.tx) (hy : ∀ t, (f t).ty = t.ty)
    (ht : tileAt r tx ty = some t) : tileAt (updTile tx ty f r) tx ty = some (f t) := by
  rw [tileAt_updTile hx hy, ht]
  rfl

/-- What a change of a layer makes of one of its tiles, where it changes that tile alone. -/
theorem tileAt_updLayer_updTile {s : State} {i : Nat} {o : Obj} {t : CTile} {f : CTile → CTile} (hx : ∀ t, (f t).tx = t.tx)
    (hy : ∀ t, (f t).ty = t.ty) (ho : objAt s i = some o) (ht : tileAt (layerOf o) tx ty = some t) :
    tileAt (layerAt (updLayer i (updTile tx ty f) s) i) tx ty = some (f t) := by
  rw [layerAt_of_objAt (objAt_updLayer _ ho), layerOf_withLayer, tileAt_updTile_some hx hy ht]

end

/-! ## The bytes of a tile -/

theorem memReadN_eq_map (m : List Host.Cell) (a n : Nat) : memReadN m a n = (List.range n).map fun k => memRead m (a + k) := by
  induction n generalizing a with
  | zero => rfl
  | succ n ih =>
    rw [memReadN, ih, List.range_succ_eq_map]
    simp [Function.comp_def, Nat.add_assoc, Nat.add_comm 1]

/-- A tile has the bytes it was given, in the size of its kind (R157). -/
theorem tileImage_tileData (o : Obj) {t : CTile} {bs : List Byte} (ht : t.data = tileData o bs) :
    tileImage o t = padTo (tileBytes o) bs := by
  have hread := memReadN_writeN ((padTo (tileBytes o) bs).map fun b => b ^^^ blankByte o) [] 0 rfl
  rw [List.length_map, padTo_length, memReadN_eq_map] at hread
  have himg : tileImage o t
      = ((List.range (tileBytes o)).map fun k => memRead (tileData o bs) (0 + k)).map fun b => b ^^^ blankByte o := by
    simp [tileImage, tileByte, ht, Function.comp_def]
  rw [himg, show tileData o bs = _ from rfl, tileData, hread]
  simp [Function.comp_def]

/-- A tile without content of its own is blank (R157). -/
theorem tileImage_blank (o : Obj) (e : Nat) : tileImage o { entry := e } = List.replicate (tileBytes o) (blankByte o) := by
  have hblank : tileByte o { entry := e } = fun _ => blankByte o := funext fun k => by simp [tileByte, memRead]
  simp [tileImage, hblank]

theorem padTo_padTo (n : Nat) (bs : List Byte) : padTo n (padTo n bs) = padTo n bs := by
  rw [padTo, padTo_length, Nat.sub_self, List.replicate_zero, List.append_nil, List.take_of_length_le (padTo_length n bs).le]

/-! ## The indices of the objects under the operations on layers -/

theorem objAt_ne_none_of_indexKept {s t : State} {i : Nat} (h : IndexKept s t) (hs : objAt s i ≠ none) : objAt t i ≠ none :=
  fun ht => hs (objAt_none_of_indexKept ⟨h.gens.symm, h.idx.symm⟩ ht)

theorem indexKept_board (b : Board) (s : State) : IndexKept s { s with board := b } := ⟨rfl, rfl⟩

theorem indexKept_updLayer (i : Nat) (f : LayerRt → LayerRt) (s : State) : IndexKept s (updLayer i f s) :=
  indexKept_updObj i (f := fun o => { o with rt := .layer (f (layerOf o)) }) (fun _ => rfl) s

theorem indexKept_hitTile (i tx ty : Nat) (s : State) : IndexKept s (hitTile i tx ty s) := by
  unfold hitTile
  exact (indexKept_updLayer ..).after (indexKept_board ..)

theorem indexKept_startWb (o : Obj) (t : CTile) (s : State) : IndexKept s (startWb o t s) := by
  unfold startWb
  exact (indexKept_updLayer ..).after (indexKept_board ..)

theorem indexKept_marksLost (o : Obj) (tx ty reason : Nat) (s : State) : IndexKept s (marksLost o tx ty reason s) :=
  (indexKept_updLayer ..).trans (touches_raise0 ..).index

theorem indexKept_evict (o : Obj) (t : CTile) (s : State) : IndexKept s (evict o t s) := by
  unfold evict
  exact (indexKept_updLayer ..).after (indexKept_ite (.refl s) (indexKept_ite (indexKept_marksLost ..) (indexKept_startWb ..)))

theorem indexKept_makeWay (o : Obj) (demand : Bool) (tx ty : Nat) (s : State) : IndexKept s (makeWay o demand tx ty s).2 := by
  unfold makeWay
  extract_lets n
  split
  · exact .refl s
  · split
    · exact .refl s
    · split
      · exact .refl s
      · exact indexKept_evict ..

theorem indexKept_askFetch (i : Nat) (group pre take : Bool) (tx ty : Nat) (s : State) :
    IndexKept s (askFetch i group pre take tx ty s).2 := by
  unfold askFetch
  split
  · exact .refl s
  · next o ho =>
    extract_lets r key gone w go
    have hw : IndexKept s w.2 := by
      unfold w
      split
      · exact .refl s
      · exact indexKept_makeWay ..
    have hgo (way : Option (Nat × Nat)) : IndexKept s (go way).2 := by
      unfold go
      dsimp only
      exact hw.trans (indexKept_updLayer ..)
    split
    · exact .refl s
    · split
      · exact .refl s
      · split
        · exact .refl s
        · split
          · exact hw
          · exact hgo none
          · exact hgo _

theorem indexKept_missSquare (o : Obj) (g : Bool) (tx ty : Nat) (s : State) : IndexKept s (missSquare o g tx ty s) :=
  ((indexKept_updLayer ..).trans (touches_raiseHeld ..).index).trans (indexKept_askFetch ..)

theorem indexKept_countSquare (i : Nat) (a : Counts × State) (q : Int × Int) : IndexKept a.2 (countSquare i a q).2 := by
  unfold countSquare
  split
  · exact .refl _
  · extract_lets t c kept
    split
    · exact .refl _
    · exact .refl _
    · exact .refl _
    · exact indexKept_hitTile ..
    · exact indexKept_missSquare ..

end Sys2Proof.Machine
end

section
/-! PROOFS. Coverage board (05): the board's descriptors (R157, R161, R181, R182, R183, R185). -/

namespace Sys2Proof.Machine

/-! ## BOARD_FLUSH (R183) -/

theorem exec_boardFlush_passes {s : State} {d : Desc} {o : Obj} (hp : passes 0x0500 d s = true) (ho : objOf s (dHandle d) = some o) :
    exec (.boardFlush d) s = .next (bodyBoardFlush d o s) := congrArg Host.Outcome.next (runObj_passes _ hp ho)

theorem bodyBoardFlush_pending {s : State} {d : Desc} {o : Obj} (ha : u8 d.bytes 16 < 2) (hd : u8 d.bytes 16 = 1 → o.ost = .disabled) :
    bodyBoardFlush d o s = defer d 0x0500 (handleOf o) (nextBoundary s.gtc) [] (s.board.tick + 1)
      (updLayer o.idx (fun r => { r with flushes := r.flushes ++
          [{ id := s.board.tick + 1, due := nextBoundary s.gtc, discard := u8 d.bytes 16 == 1 }] })
        { s with board := { s.board with tick := s.board.tick + 1 } }) := by
  rw [bodyBoardFlush, if_neg (by omega), if_neg (fun h => h.2 (hd h.1))]
  rfl

theorem bodyBoardFlush_state {s : State} {d : Desc} {o : Obj} (ha : u8 d.bytes 16 = 1) (hd : o.ost ≠ .disabled) :
    bodyBoardFlush d o s = fail d 0x000E s := by
  rw [bodyBoardFlush, if_neg (by omega), if_pos ⟨ha, hd⟩, stState]

theorem bodyBoardFlush_param {s : State} {d : Desc} {o : Obj} (ha : 2 ≤ u8 d.bytes 16) : bodyBoardFlush d o s = fail d 0x0004 s := by
  rw [bodyBoardFlush, if_pos ha, stBadParam]

theorem execBoardFlushDone_ends {s : State} {h : Nat} {o : Obj} {f : Flush} (ho : objOf s h = some o)
    (hf : (layerOf o).flushes.find? (fun f => f.started && f.left.isEmpty && f.flight.isEmpty) = some f) :
    execBoardFlushDone h s = .next (flushEnd o f 0 s) := by
  simp only [execBoardFlushDone, ho, hf, stOk]

theorem execBoardFlushTimeout_ends {s : State} {h : Nat} {o : Obj} {f : Flush} (ho : objOf s h = some o)
    (hf : (layerOf o).flushes.find? (fun f => f.started && f.left.any (unwritable o)) = some f) :
    execBoardFlushTimeout h s = .next (flushEnd o f 0x0508 (toInstant (f.due + 2400000000) s)) := by
  simp only [execBoardFlushTimeout, ho, hf, secTicks, Nat.reduceMul]

section
variable {s : State} {h : Nat} (hw : objOf s h = none ∨ ∃ o, objOf s h = some o ∧ ∀ f ∈ (layerOf o).flushes, f.started = false)
include hw

/-- Before its snapshot no flush ends. -/
theorem execBoardFlushDone_idle : execBoardFlushDone h s = .next s := by
  rcases hw with ho | ⟨o, ho, hf⟩
  · simp only [execBoardFlushDone, ho]
  · have hnone : (layerOf o).flushes.find? (fun f => f.started && f.left.isEmpty && f.flight.isEmpty) = none :=
      List.find?_eq_none.mpr fun f hm => by simp [hf f hm]
    simp only [execBoardFlushDone, ho, hnone]

theorem execBoardFlushTimeout_idle : execBoardFlushTimeout h s = .next s := by
  rcases hw with ho | ⟨o, ho, hf⟩
  · simp only [execBoardFlushTimeout, ho]
  · have hnone : (layerOf o).flushes.find? (fun f => f.started && f.left.any (unwritable o)) = none :=
      List.find?_eq_none.mpr fun f hm => by simp [hf f hm]
    simp only [execBoardFlushTimeout, ho, hnone]

end

/-- The layer without a flush that has ended. -/
def flushRemoved (o : Obj) (f : Flush) (st : Nat) (s : State) : State :=
  updLayer o.idx (fun r => { r with
    flushes := r.flushes.filter fun x => x.id != f.id, lastFlush := if st = 0 then f.due else r.lastFlush }) s

theorem flushEnd_completes {s : State} {o : Obj} {f : Flush} {st : Nat} {x : Deferred}
    (hx : s.hif.deferred.find? (fun x => x.op == 0x0500 && x.handle == handleOf o && x.arg == f.id) = some x) :
    flushEnd o f st s = completeDeferred x
      { status := st, result := satBytes 2 f.written ++ satBytes 2 (f.dropped + f.left.length + f.flight.length) }
      (flushRemoved o f st s) := by
  simp only [flushEnd, updLayer_hif, hx]
  rfl

theorem flushEnd_alone {s : State} {o : Obj} {f : Flush} {st : Nat}
    (hx : s.hif.deferred.find? (fun x => x.op == 0x0500 && x.handle == handleOf o && x.arg == f.id) = none) :
    flushEnd o f st s = flushRemoved o f st s := by
  simp only [flushEnd, updLayer_hif, hx]
  rfl

/-! ## BOARD_PAINT (R181) -/

theorem exec_boardPaint_passes {s : State} {d : Desc} {o : Obj} (hp : passes 0x0501 d s = true) (ho : objOf s (dHandle d) = some o) :
    exec (.boardPaint d) s = .next (bodyBoardPaint d o s) := congrArg Host.Outcome.next (runObj_passes _ hp ho)

/-- The vertices of a polygon's block. -/
def paintVerts (b : List Byte) : List (Int × Int) := (List.range (u8 b 1)).map fun k => (i32 b (8 + 8 * k), i32 b (12 + 8 * k))

/-- The paint that a block asks for. -/
def paintOf (s : State) (o : Obj) (b : List Byte) : Paint :=
  { id := s.board.tick + 1, value := u8 b 0, verts := paintVerts b, left := paintTiles o (paintVerts b) }

/-- The layer with one more paint. -/
def paintQueued (o : Obj) (p : Paint) (s : State) : State :=
  updLayer o.idx (fun r => { r with paints := r.paints ++ [p] }) { s with board := { s.board with tick := s.board.tick + 1 } }

theorem bodyBoardPaint_length {s : State} {d : Desc} {o : Obj} {b : List Byte} (hb : b = blockOf s d)
    (hl : b.length < 8 ∨ b.length ≠ 8 + 8 * u8 b 1) : bodyBoardPaint d o s = fail d 0x0005 s := by
  subst hb
  rw [bodyBoardPaint, if_pos hl, stBadLength]

section
variable {s : State} {d : Desc} {o : Obj} {b : List Byte} (hb : b = blockOf s d) (hl : b.length = 8 + 8 * u8 b 1)
include hb hl

theorem bodyBoardPaint_kind (hc : layCov o = false) : bodyBoardPaint d o s = fail d 0x0502 s := by
  subst hb
  rw [bodyBoardPaint, if_neg (by omega), if_pos (by simp [hc])]

theorem bodyBoardPaint_param (hc : layCov o = true) (hv : 3 < u8 b 0 ∨ u8 b 1 < 3 ∨ 64 < u8 b 1 ∨ zeroBytes b 2 6 = false) :
    bodyBoardPaint d o s = fail d 0x0004 s := by
  subst hb
  rw [bodyBoardPaint, if_neg (by omega), if_neg (by simp [hc]), if_pos (by simpa using hv), stBadParam]

theorem bodyBoardPaint_pending (hc : layCov o = true) (h0 : u8 b 0 ≤ 3) (h3 : 3 ≤ u8 b 1) (h64 : u8 b 1 ≤ 64) (hz : zeroBytes b 2 6 = true) :
    bodyBoardPaint d o s
      = defer d 0x0501 (handleOf o) 0 [] (s.board.tick + 1) (paintAll o.idx (paintQueued o (paintOf s o b) s)) := by
  subst hb
  rw [bodyBoardPaint, if_neg (by omega), if_neg (by simp [hc]), if_neg (by simp [hz]; omega)]
  rfl

end

section
variable {s : State} {i n tx ty : Nat} {o : Obj} {p : Paint} {rest : List (Nat × Nat)} (ho : objAt s i = some o)
  (hl : p.left = (tx, ty) :: rest)
include ho hl

/-- A paint waits for the marks received before it (R181). -/
theorem paintRun_behindMark (hm : ∃ m ∈ s.board.marks, m.tick < p.id ∧ (tx, ty) ∈ m.tiles) : paintRun i (n + 1) p s = (p, s) := by
  have hany : s.board.marks.any (fun m => decide (m.tick < p.id) && m.tiles.contains (tx, ty)) = true := by simpa using hm
  simp only [paintRun, hl, ho, hany, if_true]

variable (hm : ∀ m ∈ s.board.marks, p.id ≤ m.tick ∨ (tx, ty) ∉ m.tiles)
include hm

theorem paintRun_skips (hv : viewTile s o tx ty = .off ∨ viewTile s o tx ty = .excl) :
    paintRun i (n + 1) p s = paintRun i n { p with left := rest, skipped := p.skipped + 1 } s := by
  have hany : s.board.marks.any (fun m => decide (m.tick < p.id) && m.tiles.contains (tx, ty)) = false := by
    simpa [Bool.eq_false_iff, imp_iff_not_or] using hm
  rcases hv with hv | hv <;> simp only [paintRun, hl, ho, hany, hv, Bool.false_eq_true, if_false]

theorem paintRun_here {t : CTile} (hv : viewTile s o tx ty = .here t) : paintRun i (n + 1) p s
    = paintRun i n { p with
        left := rest, brought := p.brought.erase (tx, ty), changed := p.changed + (paintTile i p tx ty (touchTile o tx ty s)).1 }
        (paintTile i p tx ty (touchTile o tx ty s)).2 := by
  have hany : s.board.marks.any (fun m => decide (m.tick < p.id) && m.tiles.contains (tx, ty)) = false := by
    simpa [Bool.eq_false_iff, imp_iff_not_or] using hm
  have hbring : bringTile i tx ty s = (true, touchTile o tx ty s) := by simp only [bringTile, ho, hv]
  simp only [paintRun, hl, ho, hany, hv, hbring, Bool.false_eq_true, Bool.not_true, if_false]

end

section
variable {s : State} {h : Nat} {o : Obj} {p : Paint} (ho : objOf s h = some o)
  (hp : (layerOf o).paints.find? (fun p => p.left.isEmpty) = some p)
include ho hp

theorem execBoardPaintDone_completes {x : Deferred}
    (hx : s.hif.deferred.find? (fun x => x.op == 0x0501 && x.handle == h && x.arg == p.id) = some x) : execBoardPaintDone h s
      = .next (completeDeferred x { result := satBytes 4 p.changed ++ satBytes 2 p.skipped }
          (updLayer o.idx (fun r => { r with paints := r.paints.erase p }) s)) := by
  simp only [execBoardPaintDone, ho, hp, updLayer_hif, hx]

theorem execBoardPaintDone_alone
    (hx : s.hif.deferred.find? (fun x => x.op == 0x0501 && x.handle == h && x.arg == p.id) = none) :
    execBoardPaintDone h s = .next (updLayer o.idx (fun r => { r with paints := r.paints.erase p }) s) := by
  simp only [execBoardPaintDone, ho, hp, updLayer_hif, hx]

end

theorem execBoardPaintDone_idle {s : State} {h : Nat}
    (hw : objOf s h = none ∨ ∃ o, objOf s h = some o ∧ ∀ p ∈ (layerOf o).paints, p.left ≠ []) : execBoardPaintDone h s = .next s := by
  rcases hw with ho | ⟨o, ho, hp⟩
  · simp only [execBoardPaintDone, ho]
  · have hnone : (layerOf o).paints.find? (fun p => p.left.isEmpty) = none :=
      List.find?_eq_none.mpr fun p hm => by simp [hp p hm]
    simp only [execBoardPaintDone, ho, hnone]

/-! ## BOARD_TILE_READ (R182) -/

theorem exec_boardTileRead_passes {s : State} {d : Desc} {o : Obj} (hp : passes 0x0502 d s = true) (ho : objOf s (dHandle d) = some o) :
    exec (.boardTileRead d) s = .next (bodyTileRead d o s) := congrArg Host.Outcome.next (runObj_passes _ hp ho)
theorem exec_boardTileWrite_passes {s : State} {d : Desc} {o : Obj} (hp : passes 0x0503 d s = true) (ho : objOf s (dHandle d) = some o) :
    exec (.boardTileWrite d) s = .next (bodyTileWrite d o s) := congrArg Host.Outcome.next (runObj_passes _ hp ho)

theorem bodyTileRead_outside {s : State} {d : Desc} {o : Obj} (h : layW o ≤ u16 d.bytes 32 ∨ layH o ≤ u16 d.bytes 34) :
    bodyTileRead d o s = fail d 0x0504 s := by
  rw [bodyTileRead, if_pos h]

theorem bodyTileWrite_outside {s : State} {d : Desc} {o : Obj} (h : layW o ≤ u16 d.bytes 32 ∨ layH o ≤ u16 d.bytes 34) :
    bodyTileWrite d o s = fail d 0x0504 s := by
  rw [bodyTileWrite, if_pos h]

section
variable {s : State} {d : Desc} {o : Obj} {tx ty : Nat} (hx : tx = u16 d.bytes 32) (hy : ty = u16 d.bytes 34) (hw : tx < layW o)
  (hh : ty < layH o)
include hx hy hw hh

theorem bodyTileRead_here {t : CTile} (hv : viewTile s o tx ty = .here t) :
    bodyTileRead d o s = writeBack d (tileImage o t) {} (touchTile o tx ty s) := by
  subst hx hy
  simp only [bodyTileRead, if_neg (not_or.mpr ⟨hw.not_ge, hh.not_ge⟩), hv]

theorem bodyTileRead_blank {e : Nat} (hv : viewTile s o tx ty = .blank e) :
    bodyTileRead d o s = writeBack d (List.replicate (tileBytes o) (blankByte o)) {} s := by
  subst hx hy
  simp only [bodyTileRead, if_neg (not_or.mpr ⟨hw.not_ge, hh.not_ge⟩), hv, tileImage_blank]

theorem bodyTileRead_refused (hv : viewTile s o tx ty = .off ∨ viewTile s o tx ty = .excl) : bodyTileRead d o s = fail d 0x0506 s := by
  subst hx hy
  rcases hv with hv | hv <;> simp only [bodyTileRead, if_neg (not_or.mpr ⟨hw.not_ge, hh.not_ge⟩), hv]

theorem bodyTileRead_missing {g : Bool} (hv : viewTile s o tx ty = .missing g) : bodyTileRead d o s
    = if (askFetch o.idx g false false tx ty s).1 = .noWay then fail d 0x000B (askFetch o.idx g false false tx ty s).2
      else updLayer o.idx (fun r => { r with waiting := r.waiting ++ [d] }) (askFetch o.idx g false false tx ty s).2 := by
  subst hx hy
  simp only [bodyTileRead, if_neg (not_or.mpr ⟨hw.not_ge, hh.not_ge⟩), hv, tileWait, stNoResource]

/-! ## BOARD_TILE_WRITE (R182) -/

theorem bodyTileWrite_refused (hv : viewTile s o tx ty = .off ∨ viewTile s o tx ty = .excl) : bodyTileWrite d o s = fail d 0x0506 s := by
  subst hx hy
  rcases hv with hv | hv <;> simp only [bodyTileWrite, if_neg (not_or.mpr ⟨hw.not_ge, hh.not_ge⟩), hv]

theorem bodyTileWrite_here {t : CTile} (hv : viewTile s o tx ty = .here t) : bodyTileWrite d o s
    = ok d (tileDirty o.idx tx ty
        (updLayer o.idx (updTile tx ty fun t => { t with data := tileData o (blockOf s d) }) (touchTile o t.tx t.ty s))) := by
  subst hx hy
  simp only [bodyTileWrite, if_neg (not_or.mpr ⟨hw.not_ge, hh.not_ge⟩), hv]

theorem bodyTileWrite_missingGroup (hv : viewTile s o tx ty = .missing true) : bodyTileWrite d o s
    = updLayer o.idx (fun r => { r with waiting := r.waiting ++ [d] }) (demandTile o.idx true tx ty s) := by
  subst hx hy
  simp only [bodyTileWrite, if_neg (not_or.mpr ⟨hw.not_ge, hh.not_ge⟩), hv, tileWait]

section
variable {e : Nat} {p : Obj}
  (hv : viewTile s o tx ty = .blank e ∨ viewTile s o tx ty = .missing false ∧ entryOf o tx ty = some e)
  (hp : objAt (unfetch o.idx tx ty s) o.idx = some p)
include hv hp

/-- A tile that is not cached enters the cache with the bytes sent, where a way of its set is free. -/
theorem bodyTileWrite_free (hway : (makeWay p false tx ty (unfetch o.idx tx ty s)).1 = .free) : bodyTileWrite d o s
    = ok d (tileDirty o.idx tx ty (putTile o tx ty e (tileData o (blockOf (makeWay p false tx ty (unfetch o.idx tx ty s)).2 d))
        (makeWay p false tx ty (unfetch o.idx tx ty s)).2)) := by
  subst hx hy
  rcases hv with hv | ⟨hv, he⟩
  · simp only [bodyTileWrite, if_neg (not_or.mpr ⟨hw.not_ge, hh.not_ge⟩), hv, hp, hway]
  · simp only [bodyTileWrite, if_neg (not_or.mpr ⟨hw.not_ge, hh.not_ge⟩), hv, he, hp, hway]

theorem bodyTileWrite_noWay (hway : (makeWay p false tx ty (unfetch o.idx tx ty s)).1 = .none) :
    bodyTileWrite d o s = fail d 0x000B (makeWay p false tx ty (unfetch o.idx tx ty s)).2 := by
  subst hx hy
  rcases hv with hv | ⟨hv, he⟩
  · simp only [bodyTileWrite, if_neg (not_or.mpr ⟨hw.not_ge, hh.not_ge⟩), hv, hp, hway, stNoResource]
  · simp only [bodyTileWrite, if_neg (not_or.mpr ⟨hw.not_ge, hh.not_ge⟩), hv, he, hp, hway, stNoResource]

theorem bodyTileWrite_waits {x y : Nat} (hway : (makeWay p false tx ty (unfetch o.idx tx ty s)).1 = .after x y) : bodyTileWrite d o s
    = updLayer p.idx (fun r => { r with waiting := r.waiting ++ [d] }) (makeWay p false tx ty (unfetch o.idx tx ty s)).2 := by
  subst hx hy
  rcases hv with hv | ⟨hv, he⟩
  · simp only [bodyTileWrite, if_neg (not_or.mpr ⟨hw.not_ge, hh.not_ge⟩), hv, hp, hway, tileWait]
  · simp only [bodyTileWrite, if_neg (not_or.mpr ⟨hw.not_ge, hh.not_ge⟩), hv, he, hp, hway, tileWait]

end

end

/-- A cached tile becomes dirty, and was first so now unless it was before (R164). -/
def tileMarkedDirty (now : Nat) (t : CTile) : CTile := { t with dirty := true, first := if t.dirty then t.first else now }

/-- A tile that has storage, or is pinned already, asks for none when it becomes dirty (R159). -/
theorem tileDirty_stored {s : State} {i tx ty : Nat} {o : Obj} {t : CTile} (ho : objAt s i = some o)
    (ht : tileAt (layerOf o) tx ty = some t) (he : entryClass s o t.entry ≠ 2) :
    tileDirty i tx ty s = updLayer i (updTile tx ty (tileMarkedDirty s.gtc)) s := by
  have hask : (!layCacheOnly o && t.pin == 0 && entryClass s o t.entry == 2) = false := by simp [he]
  simp only [tileDirty, ho, ht, hask, Bool.false_eq_true, if_false]
  rfl

/-- The bytes of a cached tile are replaced (R182). -/
theorem tileWritten {s : State} {o : Obj} {tx ty : Nat} {t : CTile} (bs : List Byte) (ho : objAt s o.idx = some o)
    (ht : tileAt (layerOf o) tx ty = some t) (he : entryClass s o t.entry ≠ 2) : ∃ u c,
      tileDirty o.idx tx ty (updLayer o.idx (updTile tx ty fun t => { t with data := tileData o bs }) (touchTile o t.tx t.ty s)) = u
      ∧ tileAt (layerAt u o.idx) tx ty = some c ∧ c.dirty = true ∧ tileImage o c = padTo (tileBytes o) bs
      ∧ ∀ i, i ≠ o.idx → objAt u i = objAt s i := by
  obtain ⟨rfl, rfl⟩ := tileAt_place ht
  have hused := objAt_updLayer (s := { s with board := { s.board with tick := s.board.tick + 1 } })
    (updTile t.tx t.ty fun t => { t with used := s.board.tick + 1 }) ho
  have hput := objAt_updLayer (updTile t.tx t.ty fun t => { t with data := tileData o bs }) hused
  have htput : tileAt (updTile t.tx t.ty (fun t => { t with data := tileData o bs })
      (updTile t.tx t.ty (fun t => { t with used := s.board.tick + 1 }) (layerOf o))) t.tx t.ty
      = some { t with data := tileData o bs, used := s.board.tick + 1 } := by
    refine tileAt_updTile_some (t := { t with used := s.board.tick + 1 }) ?_ ?_ (tileAt_updTile_some ?_ ?_ ht) <;> exact fun _ => rfl
  refine ⟨_, _, tileDirty_stored hput htput he, tileAt_updLayer_updTile (fun _ => rfl) (fun _ => rfl) hput htput, rfl,
    tileImage_tileData o rfl, fun i hi => ?_⟩
  rw [objAt_updLayer_other _ _ hi, objAt_updLayer_other _ _ hi]
  exact objAt_updLayer_other _ _ hi

/-- A tile is seen in the cache where it is. -/
theorem tileAt_of_view_here {s : State} {o : Obj} {tx ty : Nat} {t : CTile} (hv : viewTile s o tx ty = .here t) :
    tileAt (layerOf o) tx ty = some t := by
  unfold viewTile at hv
  split at hv
  · cases hv
  · extract_lets x y at hv
    split at hv
    · cases hv
    · split at hv
      · cases hv
      · next e he =>
        extract_lets c at hv
        split at hv
        · cases hv
        · split at hv
          · cases hv
          · split at hv
            · next u hu =>
              split at hv
              · cases hv
              · cases hv
                exact hu
            · split at hv <;> cases hv

/-! ## BOARD_TILE_ADDR (R161) -/

theorem exec_boardTileAddr_passes {s : State} {d : Desc} {o : Obj} (hp : passes 0x0504 d s = true) (ho : objOf s (dHandle d) = some o) :
    exec (.boardTileAddr d) s = .next (bodyTileAddr d o s) := congrArg Host.Outcome.next (runObj_passes _ hp ho)

theorem bodyTileAddr_cacheOnly {s : State} {d : Desc} {o : Obj} (hc : layCacheOnly o = true) :
    bodyTileAddr d o s = fail d stUnsupported s := by
  rw [bodyTileAddr, if_pos hc]

theorem bodyTileAddr_outside {s : State} {d : Desc} {o : Obj} (hc : layCacheOnly o = false)
    (h : layW o ≤ u16 d.bytes 16 ∨ layH o ≤ u16 d.bytes 18) : bodyTileAddr d o s = fail d 0x0504 s := by
  rw [bodyTileAddr, if_neg (by simp [hc]), if_pos h]

/-- The entry is written to the directory, and the tile's last copy on its way to other storage comes back (R161). -/
def entryStored (o : Obj) (tx ty e : Nat) (s : State) : State :=
  match lastCopy (layerOf o) tx ty with
  | some w =>
    if entryAddr e = entryAddr w.tile.entry then updLayer o.idx (dirSet o tx ty e) (dirWrite o tx ty e s)
    else rescue o w (updLayer o.idx (dirSet o tx ty e) (dirWrite o tx ty e s))
  | none => updLayer o.idx (dirSet o tx ty e) (dirWrite o tx ty e s)

section
variable {s : State} {d : Desc} {o : Obj} {tx ty e : Nat} (hx : tx = u16 d.bytes 16) (hy : ty = u16 d.bytes 18) (he : e = u64 d.bytes 24)
  (hc : layCacheOnly o = false) (hw : tx < layW o) (hh : ty < layH o)
include hx hy he hc hw hh

theorem bodyTileAddr_param (hv : entryValid s o e = false) : bodyTileAddr d o s = fail d 0x0004 s := by
  subst hx hy he
  rw [bodyTileAddr, if_neg (by simp [hc]), if_neg (not_or.mpr ⟨hw.not_ge, hh.not_ge⟩), if_pos (by simp [hv]), stBadParam]

variable (hv : entryValid s o e = true)
include hv

/-- A tile whose bytes are not yet written keeps its storage (R161). -/
theorem bodyTileAddr_dirty (hg : e % 8 = 0 ∨ e % 8 = 4 ∨ e % 8 = 5)
    (hd : lastCopy (layerOf o) tx ty ≠ none ∨ ∃ t, tileAt (layerOf o) tx ty = some t ∧ t.dirty = true) :
    bodyTileAddr d o s = fail d 0x0505 s := by
  subst hx hy he
  rw [bodyTileAddr, if_neg (by simp [hc]), if_neg (not_or.mpr ⟨hw.not_ge, hh.not_ge⟩), if_neg (by simp [hv]), if_pos]
  simp only [Bool.and_eq_true, Bool.or_eq_true, beq_iff_eq, Option.isSome_iff_ne_none]
  refine ⟨by omega, hd.imp id ?_⟩
  rintro ⟨t, ht, hd⟩
  simp [ht, hd]

variable (hg : ¬(e % 8 = 0 ∨ e % 8 = 4 ∨ e % 8 = 5))
include hg

theorem bodyTileAddr_uncached (ht : tileAt (layerAt (entryStored o tx ty e s) o.idx) tx ty = none) :
    bodyTileAddr d o s = ok d (entryStored o tx ty e s) := by
  subst hx hy he
  have hgone : (u64 d.bytes 24 % 8 == 0 || u64 d.bytes 24 % 8 == 4 || u64 d.bytes 24 % 8 == 5) = false := by simpa [not_or, and_assoc] using hg
  rw [bodyTileAddr, if_neg (by simp [hc]), if_neg (not_or.mpr ⟨hw.not_ge, hh.not_ge⟩), if_neg (by simp [hv])]
  cases hl : lastCopy (layerOf o) (u16 d.bytes 16) (u16 d.bytes 18) <;>
  · simp only [entryStored, hl] at ht
    simp only [entryStored, hl, hgone, ht, Bool.false_and, Bool.false_eq_true, if_false]

theorem bodyTileAddr_cached {t : CTile} (ht : tileAt (layerAt (entryStored o tx ty e s) o.idx) tx ty = some t) : bodyTileAddr d o s
    = ok d (if t.pin = 1 ∧ (e % 8 = 1 ∨ e % 8 = 3) then
        startWb o { t with entry := e, pin := 0 } (updLayer o.idx (updTile tx ty fun t => { t with pin := 0 })
          (updLayer o.idx (updTile tx ty fun t => { t with entry := e }) (entryStored o tx ty e s)))
      else if entryAddr e ≠ entryAddr t.entry then
        tileDirty o.idx tx ty (updLayer o.idx (updTile tx ty fun t => { t with entry := e }) (entryStored o tx ty e s))
      else updLayer o.idx (updTile tx ty fun t => { t with entry := e }) (entryStored o tx ty e s)) := by
  subst hx hy he
  have hgone : (u64 d.bytes 24 % 8 == 0 || u64 d.bytes 24 % 8 == 4 || u64 d.bytes 24 % 8 == 5) = false := by simpa [not_or, and_assoc] using hg
  rw [bodyTileAddr, if_neg (by simp [hc]), if_neg (not_or.mpr ⟨hw.not_ge, hh.not_ge⟩), if_neg (by simp [hv])]
  cases hl : lastCopy (layerOf o) (u16 d.bytes 16) (u16 d.bytes 18) <;>
  · simp only [entryStored, hl] at ht
    simp only [entryStored, hl, hgone, ht, Bool.false_and, Bool.false_eq_true, if_false, Bool.or_eq_true, beq_iff_eq]

end

/-- An entry of a directory in host memory is written at its place (R158). -/
theorem dirWrite_host {o : Obj} {tx ty : Nat} (e : Nat) (s : State) (hc : layCacheOnly o = false)
    (hp : ptrMailbox (layDir o + 8 * entryNo o tx ty) = false) : dirWrite o tx ty e s
      = { s with hostMem := memWriteN s.hostMem (layDir o + 8 * (ty * layW o + tx)) (leBytes 8 e) } := by
  rw [dirWrite, if_neg (by simp [hc]), ptrWrite, if_neg (by simp [hp])]
  rfl

/-! ## BOARD_INVALIDATE (R182) -/

theorem exec_boardInvalidate_passes {s : State} {d : Desc} {o : Obj} (hp : passes 0x0505 d s = true) (ho : objOf s (dHandle d) = some o) :
    exec (.boardInvalidate d) s = .next (bodyInvalidate d o s) := congrArg Host.Outcome.next (runObj_passes _ hp ho)

/-- A tile lies in the range of a descriptor. -/
def inRangeOf (d : Desc) (x y : Nat) : Bool :=
  decide (u16 d.bytes 16 ≤ x ∧ x ≤ u16 d.bytes 20 ∧ u16 d.bytes 18 ≤ y ∧ y ≤ u16 d.bytes 22)

theorem bodyInvalidate_dirty {s : State} {d : Desc} {o : Obj}
    (h : (layerOf o).tiles.any (fun t => inRangeOf d t.tx t.ty && t.dirty) = true) : bodyInvalidate d o s = fail d 0x0505 s := by
  rw [bodyInvalidate, if_pos (by rw [List.any_filter]; exact h)]

/-- The tiles of a layer that lie in the range of a descriptor. -/
def tilesInRange (d : Desc) (o : Obj) : List CTile := (layerOf o).tiles.filter fun t => inRangeOf d t.tx t.ty

/-- The directory groups with an entry in the range go (R182). -/
def dirLeft (d : Desc) (o : Obj) (r : LayerRt) : LayerRt :=
  { r with dir := r.dir.filter fun g => !(List.range 8).any fun k =>
      inRangeOf d ((8 * g.1 + k) % max 1 (layW o)) ((8 * g.1 + k) / max 1 (layW o)) }

theorem bodyInvalidate_clean {s : State} {d : Desc} {o : Obj}
    (h : (layerOf o).tiles.any (fun t => inRangeOf d t.tx t.ty && t.dirty) = false) :
    bodyInvalidate d o s = ok d (updLayer o.idx (dirLeft d o) ((tilesInRange d o).foldl (fun s t => evict o t s) s)) := by
  rw [bodyInvalidate, if_neg (by rw [List.any_filter]; simpa [inRangeOf] using h)]
  rfl

/-- Clean tiles that are taken out of the cache leave the others. -/
theorem tiles_foldl_evict_clean {o : Obj} : ∀ (ts : List CTile) (s : State), (∀ t ∈ ts, t.dirty = false) → objAt s o.idx ≠ none →
    (layerAt (ts.foldl (fun s t => evict o t s) s) o.idx).tiles
      = (layerAt s o.idx).tiles.filter fun x => ts.all fun t => !(x.tx == t.tx && x.ty == t.ty)
  | [], s, _, _ => by simp
  | t :: ts, s, ht, hs => by
    have hclean : t.dirty = false := ht t List.mem_cons_self
    have hfirst : (layerAt (evict o t s) o.idx).tiles = (layerAt s o.idx).tiles.filter fun x => !(x.tx == t.tx && x.ty == t.ty) := by
      simp only [evict, hclean, Bool.not_false, if_true]
      rw [layerAt_updLayer _ hs]
      rfl
    rw [List.foldl_cons, tiles_foldl_evict_clean ts _ (fun x hx => ht x (List.mem_cons_of_mem _ hx))
      (objAt_ne_none_of_indexKept (indexKept_evict o t s) hs), hfirst, List.filter_filter]
    refine List.filter_congr fun x _ => ?_
    rw [List.all_cons, Bool.and_comm]

theorem tiles_invalidated {s : State} {d : Desc} {o : Obj} (ho : objAt s o.idx = some o)
    (h : (layerOf o).tiles.any (fun t => inRangeOf d t.tx t.ty && t.dirty) = false) :
    (layerAt (updLayer o.idx (dirLeft d o) ((tilesInRange d o).foldl (fun s t => evict o t s) s)) o.idx).tiles
      = (layerOf o).tiles.filter fun t => !inRangeOf d t.tx t.ty := by
  have hs : objAt s o.idx ≠ none := by simp [ho]
  have hclean : ∀ t ∈ tilesInRange d o, t.dirty = false := by
    intro t ht
    obtain ⟨hm, hin⟩ := List.mem_filter.mp ht
    have := List.any_eq_false.mp h t hm
    simpa [hin] using this
  rw [layerAt_updLayer _ (objAt_ne_none_of_indexKept (indexKept_foldl (fun s t => indexKept_evict o t s) _ s) hs)]
  refine (tiles_foldl_evict_clean _ s hclean hs).trans ?_
  rw [layerAt_of_objAt ho]
  refine List.filter_congr fun x hx => ?_
  cases hin : inRangeOf d x.tx x.ty with
  | true =>
    refine List.all_eq_false.mpr ⟨x, List.mem_filter.mpr ⟨hx, hin⟩, by simp⟩
  | false =>
    refine List.all_eq_true.mpr fun t ht => ?_
    have htin := (List.mem_filter.mp ht).2
    rw [Bool.not_eq_true', Bool.eq_false_iff]
    intro heq
    simp only [Bool.and_eq_true, beq_iff_eq] at heq
    rw [heq.1, heq.2, htin] at hin
    cases hin

/-! ## BOARD_QUERY (R171, R173, R185) -/

theorem exec_boardQuery_passes {s : State} {d : Desc} {o : Obj} (hp : passes 0x0506 d s = true) (ho : objOf s (dHandle d) = some o) :
    exec (.boardQuery d) s = .next (bodyBoardQuery d o s) := congrArg Host.Outcome.next (runObj_passes _ hp ho)

theorem bodyBoardQuery_kind {s : State} {d : Desc} {o : Obj} (hc : layCov o = false) : bodyBoardQuery d o s = fail d 0x0502 s := by
  rw [bodyBoardQuery, if_pos (by simp [hc])]

/-- Each square is counted once. -/
theorem countSquare_total {i : Nat} {a : Counts × State} (q : Int × Int) (ha : objAt a.2 i ≠ none) :
    (countSquare i a q).1.total = a.1.total + 1 := by
  obtain ⟨o, ho⟩ := Option.ne_none_iff_exists'.mp ha
  simp only [countSquare, ho]
  split <;> rfl

theorem foldl_countSquare_total {i : Nat} : ∀ (qs : List (Int × Int)) (a : Counts × State), objAt a.2 i ≠ none →
    (qs.foldl (countSquare i) a).1.total = a.1.total + qs.length
  | [], _, _ => rfl
  | q :: qs, a, ha => by
    rw [List.foldl_cons, foldl_countSquare_total qs _ (objAt_ne_none_of_indexKept (indexKept_countSquare i a q) ha),
      countSquare_total q ha, List.length_cons]
    omega

/-- All squares count, with a late answer and with another. -/
theorem counted_total {i : Nat} {s t : State} {c : Counts} (late : Bool) {qs : List (Int × Int)} (hc : c.total = qs.length)
    (hs : objAt s i ≠ none) : (if late then (c, t) else qs.foldl (countSquare i) ({}, s)).1.total = qs.length := by
  cases late with
  | true => exact hc
  | false => exact (foldl_countSquare_total qs _ hs).trans (Nat.zero_add _)

/-- The query record that stands in a descriptor. -/
def queryRecord (d : Desc) : List Byte :=
  [0, 0] ++ slice d.bytes 26 2 ++ slice d.bytes 16 4 ++ slice d.bytes 20 4 ++ slice d.bytes 24 2 ++ slice d.bytes 28 2

theorem objs_visitFrame (s : State) : (visitFrame s).objs = s.objs := by
  unfold visitFrame
  split <;> rfl

theorem touches_overload (s : State) : Touches s (overload s) := by
  unfold overload
  split
  · exact Touches.refl s
  · split
    · exact Touches.refl s
    · exact touches_raiseLimited ..

theorem objs_overload_visits (s : State) (made asked : Nat) : (overload (visits made asked (visitFrame s))).objs = s.objs :=
  (touches_overload _).objs.trans (objs_visitFrame s)

/-- The result of BOARD_QUERY begins with the number of squares. -/
theorem bodyBoardQuery_counts {s : State} {d : Desc} {o : Obj} (hc : layCov o = true) : ∃ r t, bodyBoardQuery d o s = okWith d r t
    ∧ r.length = 7 ∧ (objAt s o.idx = some o → u16 r 0 = (countedFoot o (footOf (queryRecord d))).2.1.length % 2 ^ 16) := by
  rw [bodyBoardQuery, if_neg (by simp [hc])]
  extract_lets rec16 x n s1 late s2 r miss fl
  -- the footprint and whether it is late stay closed: the unifier must not compute them
  have hx : x.2.1.length = (countedFoot o (footOf (queryRecord d))).2.1.length := rfl
  clear_value x
  have hobjs : s2.objs = s.objs := objs_overload_visits s _ n
  clear_value s2 late
  refine ⟨_, _, rfl, by simp, fun ho => ?_⟩
  have hpresent : objAt s2 o.idx ≠ none := by
    rw [objAt_congr hobjs, ho]
    simp
  have htotal : r.1.total = x.2.1.length := counted_total late rfl hpresent
  rw [htotal, u16, List.append_assoc, List.append_assoc, slice_leBytes_here, leNat_leBytes, hx, show 256 ^ 2 = 2 ^ 16 by decide]

/-- Settles O33, descriptor by descriptor, then the happenings that end the deferred ones. -/
theorem boardDescriptors : Obligations.BoardDescriptors := by
  refine ⟨fun i f s => rfl, fun s d o a id hp ho ha hlt hd hid => ?_, fun s d o hp ho => ?_, fun s h o f ho => ?_, fun s h hw => ?_,
    fun s o f st u hu => ?_, fun s d o b vs hp ho hb hl hc h0 h3 h64 hz hvs => ?_, fun s d o b hp ho hb => ?_,
    fun s i o n p tx ty rest ho hl => ?_, fun s h o p ho hf => ?_, fun s h hw => ?_, fun s d o tx ty hp ho hx hy hw hh => ?_,
    fun s d o ho hout => ?_, fun s d o tx ty hp ho hx hy hw hh => ?_, fun s d o tx ty t hp ho hat hx hy hw hh hv he => ?_,
    fun s d o tx ty e hp ho hx hy he => ?_, fun s o tx ty e hc hm => dirWrite_host e s hc hm, fun s d o inside hp ho hin => ?_,
    fun s d o hp ho => ?_⟩
  · subst ha hid
    rw [exec_boardFlush_passes hp ho, bodyBoardFlush_pending hlt hd]
  · rw [exec_boardFlush_passes hp ho]
    exact ⟨fun ha hd => by rw [bodyBoardFlush_state ha hd], fun ha => by rw [bodyBoardFlush_param ha]⟩
  · exact ⟨fun hf => execBoardFlushDone_ends ho hf, fun hf => execBoardFlushTimeout_ends ho hf⟩
  · exact ⟨execBoardFlushDone_idle hw, execBoardFlushTimeout_idle hw⟩
  · subst hu
    exact ⟨fun x hx => flushEnd_completes hx, fun hx => flushEnd_alone hx⟩
  · subst hvs
    refine ⟨_, _, rfl, rfl, ?_⟩
    rw [exec_boardPaint_passes hp ho, bodyBoardPaint_pending hb hl hc h0 h3 h64 hz]
    rfl
  · rw [exec_boardPaint_passes hp ho]
    exact ⟨fun hl => by rw [bodyBoardPaint_length hb hl], fun hl hc => by rw [bodyBoardPaint_kind hb hl hc],
      fun hl hc hv => by rw [bodyBoardPaint_param hb hl hc hv]⟩
  · refine ⟨paintRun_behindMark ho hl, fun hm => ⟨paintRun_skips ho hl hm, fun t x hv hx => ?_⟩⟩
    subst hx
    exact paintRun_here ho hl hm hv
  · exact ⟨_, rfl, fun x hx => execBoardPaintDone_completes ho hf hx, fun hx => execBoardPaintDone_alone ho hf hx⟩
  · exact execBoardPaintDone_idle hw
  · rw [exec_boardTileRead_passes hp ho]
    refine ⟨fun t hv => by rw [bodyTileRead_here hx hy hw hh hv], fun e hv => by rw [bodyTileRead_blank hx hy hw hh hv],
      fun hv => by rw [bodyTileRead_refused hx hy hw hh hv], fun g w hv hg => ?_⟩
    subst hg
    rw [bodyTileRead_missing hx hy hw hh hv]
  · exact ⟨fun hp => by rw [exec_boardTileRead_passes hp ho, bodyTileRead_outside hout],
      fun hp => by rw [exec_boardTileWrite_passes hp ho, bodyTileWrite_outside hout]⟩
  · rw [exec_boardTileWrite_passes hp ho]
    refine ⟨fun hv => by rw [bodyTileWrite_refused hx hy hw hh hv], fun t hv => by rw [bodyTileWrite_here hx hy hw hh hv],
      fun hv => by rw [bodyTileWrite_missingGroup hx hy hw hh hv], fun e v p w hv hu hat hway => ?_⟩
    subst hu hway
    exact ⟨fun h => by rw [bodyTileWrite_free hx hy hw hh hv hat h], fun h => by rw [bodyTileWrite_noWay hx hy hw hh hv hat h],
      fun x y h => by rw [bodyTileWrite_waits hx hy hw hh hv hat h]⟩
  · obtain ⟨u, c, hu, hc, hdirty, himg, hother⟩ := tileWritten (blockOf s d) hat (tileAt_of_view_here hv) he
    refine ⟨u, c, ?_, hc, hdirty, himg, hother⟩
    rw [exec_boardTileWrite_passes hp ho, bodyTileWrite_here hx hy hw hh hv, hu]
  · rw [exec_boardTileAddr_passes hp ho]
    refine ⟨fun hc => by rw [bodyTileAddr_cacheOnly hc], fun hc hout => by rw [bodyTileAddr_outside hc (hx ▸ hy ▸ hout)],
      fun hc hw hh hv => by rw [bodyTileAddr_param hx hy he hc hw hh hv], fun hc hw hh hv => ⟨fun hg hd => ?_, fun hg a v ha hstored => ?_⟩⟩
    · rw [bodyTileAddr_dirty hx hy he hc hw hh hv hg hd]
    · obtain rfl : v = entryStored o tx ty e s := by rw [hstored, ha]; rfl
      refine ⟨fun ht => by rw [bodyTileAddr_uncached hx hy he hc hw hh hv hg ht], fun t u ht hu => ?_⟩
      rw [hu, bodyTileAddr_cached hx hy he hc hw hh hv hg ht]
  · obtain rfl : inside = inRangeOf d := hin
    rw [exec_boardInvalidate_passes hp ho]
    exact ⟨fun h => by rw [bodyInvalidate_dirty h], fun h => ⟨_, by rw [bodyInvalidate_clean h], fun hat => tiles_invalidated hat h⟩⟩
  · rw [exec_boardQuery_passes hp ho]
    refine ⟨fun hc => by rw [bodyBoardQuery_kind hc], fun hc => ?_⟩
    obtain ⟨r, t, hr, hlen, hcount⟩ := bodyBoardQuery_counts (s := s) (d := d) hc
    exact ⟨r, t, by rw [hr], hlen, hcount⟩

end Sys2Proof.Machine
end

section
/-! PROOFS. Coverage board (05): fetches, write-backs, failed accesses and prefetch (R159, R163, R164, R165, R177). -/

namespace Sys2Proof.Machine

theorem exec_tileFetchDone (h : Nat) (g : Bool) (tx ty : Nat) (bs : List Byte) (s : State) :
    exec (.tileFetchDone h g tx ty bs) s = execTileFetchDone h g tx ty bs s := rfl
theorem exec_tileWritebackDone (h tx ty : Nat) (s : State) : exec (.tileWritebackDone h tx ty) s = execTileWritebackDone h tx ty s := rfl
theorem exec_tileHoldoutRetry (h : Nat) (g : Bool) (tx ty : Nat) (s : State) :
    exec (.tileHoldoutRetry h g tx ty) s = execTileHoldoutRetry h g tx ty s := rfl

/-! ## What goes on when an access ends -/

theorem paintAll_none {s : State} {i : Nat} (h : (layerAt s i).paints = []) : paintAll i s = s := by
  rw [paintAll, h, List.foldl_nil]

theorem retryTileOps_none {s : State} {i : Nat} (h : (layerAt s i).waiting = []) :
    retryTileOps i s = updLayer i (fun r => { r with waiting := [] }) s := by
  simp only [retryTileOps, h, List.foldl_nil]

/-- Where no paint and no descriptor waits for the layer, only its list of waiting ones is written. -/
theorem resume_none {s : State} {i : Nat} (hp : (layerAt s i).paints = []) (hw : (layerAt s i).waiting = []) :
    retryTileOps i (paintAll i s) = updLayer i (fun r => { r with waiting := [] }) s := by
  rw [paintAll_none hp, retryTileOps_none hw]

/-! ## Fetches (R163) -/

theorem execTileFetchDone_found {s : State} {h tx ty : Nat} {g : Bool} {o : Obj} {f : Fetch} (bs : List Byte) (ho : objOf s h = some o)
    (hf : (layerOf o).fetches.find? (fun f => f.group == g && f.tx == tx && f.ty == ty) = some f) : execTileFetchDone h g tx ty bs s
      = .next (if fetchWaits s o f then s else retryTileOps o.idx (paintAll o.idx (fetchDone o f bs s))) := by
  simp only [execTileFetchDone, ho, hf]

theorem execTileFetchDone_idle {s : State} {h : Nat} (g : Bool) (tx ty : Nat) (bs : List Byte)
    (hw : objOf s h = none ∨ ∃ o, objOf s h = some o ∧ (layerOf o).fetches = []) : execTileFetchDone h g tx ty bs s = .next s := by
  rcases hw with ho | ⟨o, ho, hf⟩
  · simp only [execTileFetchDone, ho]
  · simp only [execTileFetchDone, ho, hf, List.find?_nil]

theorem fetchDone_group {s : State} {o : Obj} {f : Fetch} {bs b : List Byte} (hg : f.group = true)
    (hb : backing s (layDir o + 64 * f.tx) 64 bs = some b) :
    fetchDone o f bs s = groupDone o f.tx b (updLayer o.idx (fun r => { r with fetches := r.fetches.erase f }) s) := by
  simp only [fetchDone, hg, hb, if_true]

/-- The layer with a tile put into its cache, clean. -/
def tilePut (tx ty e : Nat) (data : List Host.Cell) (n : Nat) (r : LayerRt) : LayerRt :=
  { dropTile tx ty r with
    tiles := (dropTile tx ty r).tiles ++ [{ tx := tx, ty := ty, entry := e, data := data, used := n }] }

theorem tileAt_tilePut (tx ty e : Nat) (data : List Host.Cell) (n : Nat) (r : LayerRt) :
    tileAt (tilePut tx ty e data n r) tx ty = some { tx := tx, ty := ty, entry := e, data := data, used := n } := by
  have hdrop : (dropTile tx ty r).tiles.find? (fun t => t.tx == tx && t.ty == ty) = none :=
    List.find?_eq_none.mpr fun t ht => by simpa [imp_iff_not_or] using (List.mem_filter.mp ht).2
  simp [tileAt, tilePut, List.find?_append, hdrop]

theorem objAt_putTile {s : State} {o p : Obj} (tx ty e : Nat) (data : List Host.Cell) (hp : objAt s o.idx = some p) : ∃ n,
    objAt (putTile o tx ty e data s) o.idx = some (withLayer p (tilePut tx ty e data n (layerOf p))) :=
  ⟨_, objAt_updLayer (s := { s with board := { s.board with tick := s.board.tick + 1 } }) (tilePut tx ty e data (s.board.tick + 1)) hp⟩

theorem objAt_putTile_other {o : Obj} {i : Nat} (tx ty e : Nat) (data : List Host.Cell) (s : State) (hi : i ≠ o.idx) :
    objAt (putTile o tx ty e data s) i = objAt s i :=
  objAt_updLayer_other (tilePut tx ty e data (s.board.tick + 1)) { s with board := { s.board with tick := s.board.tick + 1 } } hi

/-- The layer without a request that has been answered, and one more tile counted as fetched. -/
def fetchCounted (f : Fetch) (r : LayerRt) : LayerRt := { r with fetches := r.fetches.erase f, fetched := satInc 32 r.fetched }

section
variable {s : State} {o : Obj} {f : Fetch} {e : Nat} (bs : List Byte) (hat : objAt s o.idx = some o) (hg : f.group = false)
  (he : entryOf o f.tx f.ty = some e) (hc : entryClass s o e = 1) (ht : tileAt (layerOf o) f.tx f.ty = none)
  (hm : ptrMailbox (entryAddr e) = false)
include hat hg he hc ht hm

/-- A tile read from host memory takes its place in the cache (R159, R163). -/
theorem fetchDone_tile : ∃ n, objAt (fetchDone o f bs s) o.idx
      = some (withLayer o (tilePut f.tx f.ty e (tileData o (padTo (tileBytes o) bs)) n (fetchCounted f (layerOf o))))
    ∧ ∀ i, i ≠ o.idx → objAt (fetchDone o f bs s) i = objAt s i := by
  have hb : backing s (entryAddr e) (tileBytes o) bs = some (padTo (tileBytes o) bs) := by simp [backing, hm]
  have hput : fetchDone o f bs s = putTile o f.tx f.ty e (tileData o (padTo (tileBytes o) bs))
      (updLayer o.idx (fun r => { r with fetched := satInc 32 r.fetched }) (updLayer o.idx (fun r => { r with fetches := r.fetches.erase f }) s)) := by
    simp only [fetchDone, hg, he, hc, ht, hb, Bool.false_eq_true, if_false, ne_eq, not_true_eq_false, Option.isSome_none, or_self]
  have hcounted := objAt_updLayer (fun r => { r with fetched := satInc 32 r.fetched })
    (objAt_updLayer (fun r => { r with fetches := r.fetches.erase f }) hat)
  obtain ⟨n, hobj⟩ := objAt_putTile f.tx f.ty e (tileData o (padTo (tileBytes o) bs)) hcounted
  rw [hput]
  refine ⟨n, hobj, fun i hi => ?_⟩
  rw [objAt_putTile_other _ _ _ _ _ hi, objAt_updLayer_other _ _ hi, objAt_updLayer_other _ _ hi]

/-- Where nothing else waits for it, the tile is in the cache, clean, with the bytes read, and its request is gone. -/
theorem tileFetched (hf : (layerOf o).fetches = [f]) (hp : (layerOf o).paints = []) (hw : (layerOf o).waiting = []) :
    ∃ t c, retryTileOps o.idx (paintAll o.idx (fetchDone o f bs s)) = t ∧ tileAt (layerAt t o.idx) f.tx f.ty = some c ∧ c.entry = e
      ∧ c.dirty = false ∧ tileImage o c = padTo (tileBytes o) bs ∧ (layerAt t o.idx).fetches = []
      ∧ ∀ i, i ≠ o.idx → objAt t i = objAt s i := by
  obtain ⟨n, hdone, hother⟩ := fetchDone_tile bs hat hg he hc ht hm
  have hlayer := layerAt_of_objAt hdone
  rw [layerOf_withLayer] at hlayer
  refine ⟨_, { tx := f.tx, ty := f.ty, entry := e, data := tileData o (padTo (tileBytes o) bs), used := n },
    resume_none (by rw [hlayer]; exact hp) (by rw [hlayer]; exact hw), ?_⟩
  rw [layerAt_updLayer _ (by rw [hdone]; simp), hlayer]
  refine ⟨tileAt_tilePut .., rfl, rfl, ?_, ?_, fun i hi => (objAt_updLayer_other _ _ hi).trans (hother i hi)⟩
  · rw [tileImage_tileData o rfl, padTo_padTo]
  · show (layerOf o).fetches.erase f = []
    rw [hf, List.erase_cons_head]

end

/-! ## Write-backs (R159, R164) -/

theorem execTileWritebackDone_none {s : State} {h tx ty : Nat} {o : Obj} (ho : objOf s h = some o) (hw : wbOf (layerOf o) tx ty = none) :
    execTileWritebackDone h tx ty s = .next s := by
  simp only [execTileWritebackDone, ho, hw]

theorem execTileWritebackDone_found {s : State} {h tx ty : Nat} {o : Obj} {w : WriteBack} (ho : objOf s h = some o)
    (hw : wbOf (layerOf o) tx ty = some w) :
    execTileWritebackDone h tx ty s = .next (retryTileOps o.idx (paintAll o.idx (wbDone o w s))) := by
  simp only [execTileWritebackDone, ho, hw]

/-- A copy that has storage of its own in host memory is written there, and leaves the layer's list. -/
theorem wbDone_stored {s : State} {o : Obj} {w : WriteBack} (he : w.tile.entry % 8 = 1) (hg : tileGone s w.tile.entry = false)
    (hm : ptrMailbox (entryAddr w.tile.entry) = false) : ∃ g : LayerRt → LayerRt,
      wbDone o w s = updLayer o.idx g { s with hostMem := memWriteN s.hostMem (entryAddr w.tile.entry) (tileImage o w.tile) }
      ∧ ∀ r, (g r).wbs = r.wbs.erase w ∧ (g r).writebacks = satInc 32 r.writebacks ∧ (g r).paints = r.paints ∧ (g r).waiting = r.waiting := by
  have hwrite : ptrWrite (entryAddr w.tile.entry) (tileImage o w.tile) s
      = some { s with hostMem := memWriteN s.hostMem (entryAddr w.tile.entry) (tileImage o w.tile) } := by
    rw [ptrWrite, if_neg (by simp [hm])]
  have hblank : (w.tile.entry % 8 == 3) = false := by simp [he]
  simp only [wbDone, hg, hwrite, hblank, Bool.false_and, Bool.or_self, Bool.false_eq_true, if_false]
  exact ⟨_, rfl, fun r => ⟨rfl, rfl, rfl, rfl⟩⟩

theorem tileWrittenBack {s : State} {o : Obj} {w : WriteBack} (hat : objAt s o.idx = some o) (hw : (layerOf o).wbs = [w])
    (hp : (layerOf o).paints = []) (hq : (layerOf o).waiting = []) (he : w.tile.entry % 8 = 1) (hg : tileGone s w.tile.entry = false)
    (hm : ptrMailbox (entryAddr w.tile.entry) = false) : ∃ t, retryTileOps o.idx (paintAll o.idx (wbDone o w s)) = t
      ∧ t.hostMem = memWriteN s.hostMem (w.tile.entry / 1024 * 1024) (tileImage o w.tile)
      ∧ (layerAt t o.idx).wbs = [] ∧ (layerAt t o.idx).writebacks = satInc 32 (layerOf o).writebacks
      ∧ t = { s with hostMem := t.hostMem, objs := t.objs } := by
  obtain ⟨g, hdone, hleft⟩ := wbDone_stored (o := o) he hg hm
  have hobj := objAt_updLayer (s := { s with hostMem := memWriteN s.hostMem (entryAddr w.tile.entry) (tileImage o w.tile) }) g hat
  have hlayer := layerAt_of_objAt hobj
  rw [layerOf_withLayer] at hlayer
  obtain ⟨hwbs, hcount, hpaints, hwaiting⟩ := hleft (layerOf o)
  rw [hdone, resume_none (by rw [hlayer, hpaints, hp]) (by rw [hlayer, hwaiting, hq])]
  refine ⟨_, rfl, rfl, ?_⟩
  rw [layerAt_updLayer _ (by rw [hobj]; simp), hlayer]
  refine ⟨?_, hcount, rfl⟩
  show (g (layerOf o)).wbs = []
  rw [hwbs, hw, List.erase_cons_head]

/-! ## The flush timer and the retry of a write-back (R164, R177) -/

theorem execTileFlushTimer_starts {s : State} {h tx ty : Nat} {o : Obj} {t : CTile} (ho : objOf s h = some o)
    (ht : tileAt (layerOf o) tx ty = some t) (hd : t.dirty = true) (hp : t.pin = 0) (hf : u16 o.act 52 ≠ 0) (hc : layCacheOnly o = false)
    (hg : tileGone s t.entry = false) :
    execTileFlushTimer h tx ty s = .next (startWb o t (toInstant (t.first + u16 o.act 52 * 480000) s)) := by
  simp only [execTileFlushTimer, ho, ht]
  rw [if_pos ⟨hd, hp, hf, by simp [hc], by simp [hg]⟩, msTicks]

theorem execTileFlushTimer_idle {s : State} {h tx ty : Nat} {o : Obj} {t : CTile} (ho : objOf s h = some o)
    (ht : tileAt (layerOf o) tx ty = some t)
    (hw : t.dirty = false ∨ t.pin ≠ 0 ∨ u16 o.act 52 = 0 ∨ layCacheOnly o = true ∨ tileGone s t.entry = true) :
    execTileFlushTimer h tx ty s = .next s := by
  simp only [execTileFlushTimer, ho, ht]
  rw [if_neg]
  rintro ⟨hd, hp, hf, hc, hg⟩
  rcases hw with h | h | h | h | h
  · rw [hd] at h; cases h
  · exact h hp
  · exact hf h
  · exact hc h
  · exact hg h

/-- As a write-back starts, the tile is copied and clean (R164). -/
theorem startWb_copies {s : State} {o : Obj} {t : CTile} (hat : objAt s o.idx = some o) (ht : tileAt (layerOf o) t.tx t.ty = some t) :
    (layerAt (startWb o t s) o.idx).wbs = (layerOf o).wbs ++ [{ tile := t, tick := s.board.tick + 1, evicted := false }]
    ∧ (tileAt (layerAt (startWb o t s) o.idx) t.tx t.ty).map (·.dirty) = some false := by
  have hlayer := layerAt_of_objAt (objAt_updLayer (s := { s with board := { s.board with tick := s.board.tick + 1 } })
    (fun r => { updTile t.tx t.ty (fun t => { t with dirty := false }) r with wbs := r.wbs ++ [{ tile := t, tick := s.board.tick + 1 }] }) hat)
  rw [startWb, hlayer, layerOf_withLayer]
  refine ⟨rfl, ?_⟩
  have hclean : tileAt (updTile t.tx t.ty (fun t => { t with dirty := false }) (layerOf o)) t.tx t.ty = some { t with dirty := false } := by
    refine tileAt_updTile_some ?_ ?_ ht <;> exact fun _ => rfl
  exact congrArg (Option.map (·.dirty)) hclean

theorem startWb_frame (o : Obj) (t : CTile) (s : State) : startWb o t s
    = { s with objs := (startWb o t s).objs, board := { s.board with tick := s.board.tick + 1 } } := rfl

theorem execTileFlushTimer_uncached {s : State} {h tx ty : Nat} {o : Obj} (ho : objOf s h = some o) (ht : tileAt (layerOf o) tx ty = none) :
    execTileFlushTimer h tx ty s = .next s := by
  simp only [execTileFlushTimer, ho, ht]

theorem execWritebackRetry_uncached {s : State} {h tx ty : Nat} {o : Obj} (ho : objOf s h = some o) (ht : tileAt (layerOf o) tx ty = none) :
    execWritebackRetry h tx ty s = .next s := by
  simp only [execWritebackRetry, ho, ht]

theorem execWritebackRetry_starts {s : State} {h tx ty : Nat} {o : Obj} {t : CTile} (ho : objOf s h = some o)
    (ht : tileAt (layerOf o) tx ty = some t) (hp : t.pin = 2) (hd : t.dirty = true) (hg : tileGone s t.entry = false)
    (hw : wbOf (layerOf o) tx ty = none) : execWritebackRetry h tx ty s = .next (startWb o t (toInstant (t.failAt + 48000000) s)) := by
  simp only [execWritebackRetry, ho, ht]
  rw [if_pos ⟨hp, hd, by simp [hg], by simp [hw]⟩, msTicks]

theorem execWritebackRetry_idle {s : State} {h tx ty : Nat} {o : Obj} {t : CTile} (ho : objOf s h = some o)
    (ht : tileAt (layerOf o) tx ty = some t)
    (hw : t.pin ≠ 2 ∨ t.dirty = false ∨ tileGone s t.entry = true ∨ wbOf (layerOf o) tx ty ≠ none) :
    execWritebackRetry h tx ty s = .next s := by
  simp only [execWritebackRetry, ho, ht]
  rw [if_neg]
  rintro ⟨hp, hd, hg, hn⟩
  rcases hw with h | h | h | h
  · exact h hp
  · rw [hd] at h; cases h
  · exact hg h
  · exact h (Option.isNone_iff_eq_none.mp hn)

/-! ## Failed accesses (R177) -/

section
variable {s : State} {h k tx ty : Nat} {o : Obj} (ho : objOf s h = some o)
include ho

theorem execBoardHostAccessFail_read {f : Fetch} (hk : k = 0 ∨ k = 2)
    (hf : (layerOf o).fetches.find? (fun f => f.group == (k == 2) && f.tx == tx && f.ty == ty) = some f) :
    execBoardHostAccessFail h k tx ty s = .next (if fetchWaits s o f then s else readFail o f s) := by
  simp only [execBoardHostAccessFail, ho, if_pos hk, hf]

theorem execBoardHostAccessFail_noRead (hk : k = 0 ∨ k = 2) (hf : ∀ f ∈ (layerOf o).fetches, f.tx ≠ tx ∨ f.ty ≠ ty) :
    execBoardHostAccessFail h k tx ty s = .next s := by
  have hnone : (layerOf o).fetches.find? (fun f => f.group == (k == 2) && f.tx == tx && f.ty == ty) = none := by
    refine List.find?_eq_none.mpr fun f hm hfound => ?_
    simp only [Bool.and_eq_true, beq_iff_eq] at hfound
    exact (hf f hm).elim (fun h => h hfound.1.2) fun h => h hfound.2
  simp only [execBoardHostAccessFail, ho, if_pos hk, hnone]

theorem execBoardHostAccessFail_write {w : WriteBack} (hw : wbOf (layerOf o) tx ty = some w) :
    execBoardHostAccessFail h 1 tx ty s = .next (if tileGone s w.tile.entry then s else wbFail o w s) := by
  simp only [execBoardHostAccessFail, ho, hw, Nat.reduceEqDiff, or_self, if_false, if_true]

theorem execBoardHostAccessFail_noWrite (hw : wbOf (layerOf o) tx ty = none) : execBoardHostAccessFail h 1 tx ty s = .next s := by
  simp only [execBoardHostAccessFail, ho, hw, Nat.reduceEqDiff, or_self, if_false, if_true]

theorem execBoardHostAccessFail_dir (hk : 3 ≤ k) : execBoardHostAccessFail h k tx ty s = .next (hostFault o 3 tx ty s) := by
  simp only [execBoardHostAccessFail, ho]
  rw [if_neg (by omega), if_neg (by omega)]

end

/-- A layer after a failed access, with the failures of the last second. -/
def faultCounted (fs : List Nat) (r : LayerRt) : LayerRt :=
  { r with
    faults := satInc 32 r.faults, fails := fs.take 16, degraded := r.degraded || (decide (16 ≤ fs.length) && !r.degraded) }

/-- A failed access is counted; the failures of the last second decide whether the layer becomes DEGRADED. -/
theorem layerAt_hostFault {s : State} {o : Obj} (k tx ty : Nat) (hs : objAt s o.idx ≠ none) : ∃ fs : List Nat,
    fs.length ≤ (layerAt s o.idx).fails.length + 1
    ∧ layerAt (hostFault o k tx ty s) o.idx = faultCounted fs (layerAt s o.idx) := by
  unfold hostFault
  extract_lets place u now r fs deg v
  have hu : u.objs = s.objs := (touches_raise0 ..).objs
  have hr : r = layerAt s o.idx := layerAt_congr hu _
  have hv : layerAt v o.idx = faultCounted fs (layerAt s o.idx) := by
    rw [← hr]
    exact layerAt_updLayer _ (by rw [objAt_congr hu]; exact hs)
  refine ⟨fs, ?_, ?_⟩
  · rw [← hr]
    exact Nat.succ_le_succ (List.length_filter_le _ _)
  · split
    · exact (layerAt_congr (touches_raise0 ..).objs _).trans hv
    · exact hv

theorem hostFault_notDegraded {s : State} {o : Obj} (k tx ty : Nat) (hat : objAt s o.idx = some o) (hn : (layerOf o).fails.length < 15) :
    (layerAt (hostFault o k tx ty s) o.idx).faults = satInc 32 (layerOf o).faults
    ∧ (layerAt (hostFault o k tx ty s) o.idx).tiles = (layerOf o).tiles
    ∧ (layerAt (hostFault o k tx ty s) o.idx).degraded = (layerOf o).degraded := by
  obtain ⟨fs, hfs, hfault⟩ := layerAt_hostFault k tx ty (s := s) (o := o) (by rw [hat]; simp)
  rw [layerAt_of_objAt hat] at hfs hfault
  have hfew : decide (16 ≤ fs.length) = false := by simp; omega
  rw [hfault]
  refine ⟨rfl, rfl, ?_⟩
  rw [faultCounted, hfew, Bool.false_and, Bool.or_false]

theorem dropMarksFor_objs {s : State} (o : Obj) (p : Nat × Nat → Bool) (hm : s.board.marks = []) : (dropMarksFor o p s).objs = s.objs := by
  simp [dropMarksFor, hm]

/-- A failed read ends its request and is held out for 1 s (R177). -/
theorem readFail_heldOut {s : State} {o : Obj} (f : Fetch) (hat : objAt s o.idx = some o) (hm : s.board.marks = []) :
    (layerAt (readFail o f s) o.idx).fetches = (layerOf o).fetches.erase f
    ∧ (layerAt (readFail o f s) o.idx).held
      = (layerOf o).held ++ [{ group := f.group, tx := f.tx, ty := f.ty, ends := s.gtc + 480000000 }]
    ∧ (layerAt (readFail o f s) o.idx).faults = satInc 32 (layerOf o).faults := by
  unfold readFail
  extract_lets u hit
  have hu := objAt_updLayer (fun r => { r with
    fetches := r.fetches.erase f
    held := r.held ++ [{ group := f.group, tx := f.tx, ty := f.ty, ends := s.gtc + secTicks }] }) hat
  have hdrop : (if layCov o then dropMarksFor o hit u else u).objs = u.objs := by
    split
    · exact dropMarksFor_objs o hit hm
    · rfl
  have hobj := (objAt_congr hdrop o.idx).trans hu
  obtain ⟨fs, -, hfault⟩ := layerAt_hostFault (if f.group then 2 else 0) f.tx f.ty (o := o) (by rw [hobj]; simp)
  rw [layerAt_of_objAt hobj, layerOf_withLayer] at hfault
  rw [hfault]
  exact ⟨rfl, rfl, rfl⟩

theorem execTileHoldoutRetry_found {s : State} {h tx ty : Nat} {g : Bool} {o : Obj} {x : HeldOut} (ho : objOf s h = some o)
    (hx : (layerOf o).held.find? (fun x => x.group == g && x.tx == tx && x.ty == ty) = some x) : execTileHoldoutRetry h g tx ty s
      = .next (if boardDetached s o || (!g && ((entryOf o tx ty).map (tileGone s)).getD false) then s
        else (if g then askFetch o.idx true false false (8 * tx % max 1 (layW o)) (8 * tx / max 1 (layW o))
            (updLayer o.idx (fun r => { r with held := r.held.erase x }) (toInstant x.ends s))
          else askFetch o.idx false false false tx ty (updLayer o.idx (fun r => { r with held := r.held.erase x }) (toInstant x.ends s))).2) := by
  simp only [execTileHoldoutRetry, ho, hx]

theorem execTileHoldoutRetry_none {s : State} {h : Nat} {o : Obj} (g : Bool) (tx ty : Nat) (ho : objOf s h = some o)
    (hx : (layerOf o).held = []) : execTileHoldoutRetry h g tx ty s = .next s := by
  simp only [execTileHoldoutRetry, ho, hx, List.find?_nil]

/-- The layer with a directory group asked for; a DEGRADED one remembers when (R177). -/
def groupAsked (n now : Nat) (r : LayerRt) : LayerRt :=
  { r with
    fetches := r.fetches ++ [{ group := true, tx := n, ty := 0, way := none }]
    demand := if r.degraded then (r.demand.filter fun d => d.1 != (n, 0)) ++ [((n, 0), now)] else r.demand }

/-- A directory group is asked for at once where nothing stands in its way. -/
theorem askFetch_group {s : State} {i : Nat} {o : Obj} (tx ty : Nat) (hat : objAt s i = some o) (hf : (layerOf o).fetches = [])
    (hh : (layerOf o).held = []) (hd : (layerOf o).degraded = false) (hb : boardDetached s o = false) :
    (askFetch i true false true tx ty s).1 = .going
    ∧ (layerAt (askFetch i true false true tx ty s).2 i).fetches = [{ group := true, tx := (ty * layW o + tx) / 8, ty := 0, way := none }] := by
  have hgo : askFetch i true false true tx ty s = (.going, updLayer i (groupAsked (entryNo o tx ty / 8) s.gtc) s) := by
    simp [askFetch, hat, hf, hh, hd, hb, heldOut]
    rfl
  rw [hgo]
  refine ⟨rfl, ?_⟩
  rw [layerAt_updLayer _ (by rw [hat]; simp), layerAt_of_objAt hat, groupAsked, hf]
  rfl

theorem execBoardDegradedEnd_recovers {s : State} {h : Nat} {o : Obj} (ho : objOf s h = some o) (hd : (layerOf o).degraded = true) :
    execBoardDegradedEnd h s = .next (raise0 0x0547 (handleOf o) [0, 0, 0, 0, 0]
      (updLayer o.idx (fun r => { r with degraded := false, demand := [] }) (toInstant ((layerOf o).fails.headD 0 + 4800000000) s))) := by
  simp only [execBoardDegradedEnd, ho, hd, Bool.not_true, Bool.false_eq_true, if_false, secTicks, Nat.reduceMul]

theorem execBoardDegradedEnd_idle {s : State} {h : Nat} {o : Obj} (ho : objOf s h = some o) (hd : (layerOf o).degraded = false) :
    execBoardDegradedEnd h s = .next s := by
  simp only [execBoardDegradedEnd, ho, hd, Bool.not_false, if_true]

/-- A handle that names no object has no traffic. -/
theorem boardTraffic_absent {s : State} {h : Nat} (k tx ty : Nat) (ho : objOf s h = none) :
    execTileWritebackDone h tx ty s = .next s ∧ execTileFlushTimer h tx ty s = .next s ∧ execBoardHostAccessFail h k tx ty s = .next s
    ∧ execWritebackRetry h tx ty s = .next s ∧ execBoardDegradedEnd h s = .next s := by
  simp only [execTileWritebackDone, execTileFlushTimer, execBoardHostAccessFail, execWritebackRetry, execBoardDegradedEnd, ho, and_self]

/-! ## Prefetch (R165) -/

theorem execPrefetchCorridor_none {s : State} (t : Nat)
    (h : ∀ o ∈ s.objs, o.typ = tyLayer → o.ost = .enabled → bit (u8 o.act 3) 1 = false) :
    execPrefetchCorridor t s = .next (toInstant t s) := by
  have hnone : ((objsOf (toInstant t s) tyLayer).filter fun o => isEnabled o && bit (u8 o.act 3) 1) = [] := by
    refine List.filter_eq_nil_iff.mpr fun o ho hon => ?_
    simp only [objsOf, toInstant_objs, List.mem_filter, beq_iff_eq] at ho
    simp only [Bool.and_eq_true, isEnabled, beq_iff_eq] at hon
    simp [h o ho.1 ho.2 hon.1] at hon
  simp only [execPrefetchCorridor, hnone, List.foldl_nil]

theorem execPrefetchCorridor_one {s : State} {o : Obj} (t : Nat) (hl : objsOf s tyLayer = [o]) (he : o.ost = .enabled)
    (hb : bit (u8 o.act 3) 1 = true) : execPrefetchCorridor t s
      = .next ((corridorTiles (toInstant t s) o).foldl (prefetchTile o.idx)
          (updLayer o.idx (fun r => { r with corridor := corridorTiles (toInstant t s) o }) (toInstant t s))) := by
  have hone : ((objsOf (toInstant t s) tyLayer).filter fun o => isEnabled o && bit (u8 o.act 3) 1) = [o] := by
    rw [show objsOf (toInstant t s) tyLayer = [o] by rw [← hl]; simp [objsOf]]
    simp [isEnabled, he, hb]
  simp only [execPrefetchCorridor, hone, List.foldl_cons, List.foldl_nil]

end Sys2Proof.Machine
end

section
/-! PROOFS. Coverage board (05): marks, queries, windows and answers (R170, R174, R175, R177). -/

namespace Sys2Proof.Machine

/-! ## Marks and queries queue in their order (R170, R174) -/

theorem execMarkRecordArrival_query (p : Nat) (rec : List Byte) (s : State) : execMarkRecordArrival p true rec s
    = .next { s with board := { s.board with queries := s.board.queries ++ [(p, padTo 16 rec)] } } := rfl

theorem execMarkRecordArrival_mark (p : Nat) (rec : List Byte) (s : State) :
    execMarkRecordArrival p false rec s = .next (queueMark { pos := p, bytes := padTo 16 rec } s) := rfl

/-- A mark as it is queued: the latest of all, with the tiles that it will touch. -/
def markQueued (m : QMark) (s : State) : QMark :=
  { m with
    tick := s.board.tick + 1
    tiles := ((layerOn s true).map fun o => onBoard o (tilesOf (markSquares s s.board.marks m))).getD [] }

theorem queueMark_room {s : State} (m : QMark) (h : s.board.marks.length < 4096) : queueMark m s
    = { s with board := { s.board with tick := s.board.tick + 1, marks := s.board.marks ++ [markQueued m s] } } := by
  have hroom : (s.board.marks ++ [markQueued m s]).length ≤ 4096 := by
    rw [List.length_append, List.length_singleton]
    exact h
  unfold queueMark
  extract_lets n qs m' ms b u
  have hms : ms.length ≤ 4096 := hroom
  have hu : u = { s with board := { s.board with tick := s.board.tick + 1, marks := s.board.marks ++ [markQueued m s] } } := by
    unfold u
    rw [if_pos hms]
    rfl
  exact (if_pos hms).trans hu

/-! ## BOARD_WINDOW (R174, R175) -/

/-- The paints and the waiting tile descriptors of every layer go on. -/
def layersResume (s : State) : State := (objsOf s tyLayer).foldl (fun s o => retryTileOps o.idx (paintAll o.idx s)) s

theorem execBoardWindow_eq {s u v : State} (hu : u = layersResume (visitFrame (toInstant (s.gtc / 48000 * 48000 + 21000) s)))
    (hv : v = layersResume (markLoop u.board.marks [] [] u)) : execBoardWindow s
      = .next (overload (queryLoop v.board.queries (decide (12288 < v.board.asked)) { v with board := { v.board with queries := [] } })) := by
  have hstart : frameStart s.gtc + 7 * slotTicks = s.gtc / 48000 * 48000 + 21000 := rfl
  unfold execBoardWindow
  extract_lets s₁ paints s₂ s₃ qs
  have hpainted : u = s₂ := by
    rw [hu, ← hstart]
    rfl
  have hmarked : v = s₃ := by
    rw [hv, hpainted]
    rfl
  -- the state before the queries stays closed: the unifier must not compute it
  clear_value s₃
  subst hmarked
  rfl

theorem queryLoop_cons {s : State} {n : Nat} (p : Nat) (b : List Byte) (qs : List (Nat × List Byte)) (full : Bool)
    (hn : n = ((layerOn s true).map fun o => (countedFoot o (footOf b)).2.1.length).getD 0) {late : Bool}
    (hl : late = (full || decide (12288 < s.board.visited + n))) {a : List Byte × State}
    (ha : a = answerOf p b late { s with board := { s.board with
      visited := s.board.visited + (if late then 0 else n), asked := s.board.asked + n } }) :
    queryLoop ((p, b) :: qs) full s = queryLoop qs late (sendAnswer p b a.1 a.2) := by
  rw [queryLoop, ← hn, show visitMax = 12288 from rfl, ← hl, visits, ← ha]

theorem applyPatch_same {o : Obj} {m x : QMark} {q : Quad} {s : State} (h : (applyPatch o m q s).1 = some x) :
    x.pos = m.pos ∧ x.bytes = m.bytes := by
  unfold applyPatch at h
  extract_lets at h
  split at h
  · cases h
    exact ⟨rfl, rfl⟩
  · cases h

/-- What is left of a mark is of the same record. -/
theorem doMark_same {m x : QMark} {s : State} (h : (doMark m s).1 = some x) : x.pos = m.pos ∧ x.bytes = m.bytes := by
  unfold doMark at h
  split at h
  · cases h
  · next o ho =>
    extract_lets c at h
    split at h
    · cases h
    · split at h
      · cases h
      · next q hq =>
        split at h
        · cases h
        · extract_lets w at h
          split at h
          · next y hy =>
            cases h
            exact applyPatch_same hy
          · cases h

section
variable {s : State} {m : QMark} {ms kept : List QMark} {wait : List (Nat × Nat)} (hv : s.board.visited < 12288)
  (hw : wait.contains (m.pos, u8 m.bytes 0) = false)
include hv hw

/-- A mark that is carried out whole leaves the queue. -/
theorem markLoop_done (hd : (doMark m { s with board := { s.board with marks := kept ++ m :: ms } }).1 = none) :
    markLoop (m :: ms) kept wait s = markLoop ms kept wait (doMark m { s with board := { s.board with marks := kept ++ m :: ms } }).2 := by
  have hroom : ¬ visitMax ≤ s.board.visited := hv.not_ge
  simp only [markLoop, if_neg hroom, hw, hd, Bool.false_eq_true, if_false]

/-- What is left of a mark waits, and its channel with it (R174). -/
theorem markLoop_waits {x : QMark} (hd : (doMark m { s with board := { s.board with marks := kept ++ m :: ms } }).1 = some x) :
    markLoop (m :: ms) kept wait s = markLoop ms (kept ++ [x]) ((x.pos, u8 x.bytes 0) :: wait)
      (doMark m { s with board := { s.board with marks := kept ++ m :: ms } }).2 := by
  obtain ⟨hpos, hbytes⟩ := doMark_same hd
  have hroom : ¬ visitMax ≤ s.board.visited := hv.not_ge
  simp only [markLoop, if_neg hroom, hw, hd, Bool.false_eq_true, if_false, hpos, hbytes]

end

/-! ## Answers (R173, R174) -/

/-- A late answer: its channel, a flag byte with LATE, two counts of squares, none excluded or missing, and the prescription. -/
theorem answerOf_late (p : Nat) (b : List Byte) (s : State) : ∃ fl n k c x, fl % 2 = 1 ∧ (answerOf p b true s).1
    = (leBytes 1 (u8 b 0) ++ (leBytes 1 fl ++ (leBytes 2 n ++ leBytes 2 k ++ leBytes 2 0)))
      ++ (leBytes 2 0 ++ (leBytes 1 c ++ [0] ++ fBytes x)) := by
  unfold answerOf
  extract_lets chan c cov x n miss r l q missed held fl
  -- the footprint stays closed: the unifier must not compute it
  clear_value x cov
  have hr : r.1.excluded = 0 ∧ r.1.missing = 0 := by
    cases cov <;> exact ⟨rfl, rfl⟩
  refine ⟨fl, r.1.total, r.1.applied, q.1.1, q.1.2, ?_, ?_⟩
  · unfold fl
    simp only [b2n, if_true]
    omega
  · simp only [hr.1, hr.2, List.append_assoc]
    rfl

theorem answerOf_late_fields (p : Nat) (b : List Byte) (s : State) : (answerOf p b true s).1.length = 16
    ∧ bit (u8 (answerOf p b true s).1 1) 0 = true ∧ u8 (answerOf p b true s).1 0 = u8 b 0 ∧ u16 (answerOf p b true s).1 8 = 0 := by
  obtain ⟨fl, n, k, c, x, hfl, ha⟩ := answerOf_late p b s
  rw [ha]
  refine ⟨by simp [fBytes], ?_, ?_, ?_⟩
  · rw [List.append_assoc, List.append_assoc, u8_eq_leNat, leNat_append_mid 1 fl (leBytes_length 1 _)]
    simp only [bit, beq_iff_eq]
    omega
  · rw [List.append_assoc, u8_eq_leNat, slice_leBytes_here, leNat_leBytes]
    exact Nat.mod_eq_of_lt (b.getD 0 0).isLt
  · rw [u16, leNat_append_mid 2 0 (by simp), Nat.zero_mod]

/-- An answer for a channel of another device is sent to it and kept (R206). -/
theorem sendAnswer_away {s : State} {p : Nat} (q a : List Byte) (hp : p ≠ s.osl.position) : sendAnswer p q a s
    = updChanBd p (u8 a 0) (fun c => { c with next := some (s.gtc / 48000 * 48000 - 48000, q, a) })
        { s with osl := { s.osl with outbox := s.osl.outbox ++ [{ kind := .answer, dst := p, src := s.osl.position, body := a }] } } := by
  rw [sendAnswer, if_neg hp]
  rfl

theorem sendAnswer_here {s : State} {p : Nat} (q a : List Byte) (hp : p = s.osl.position) : sendAnswer p q a s = takeAnswer a s :=
  if_pos hp

theorem execAnswerReceive_padded (a : List Byte) (s : State) : execAnswerReceive (padTo 16 a) s = .next (takeAnswer (padTo 16 a) s) := by
  rw [execAnswerReceive, padTo_padTo]

/-- An answer belongs to the channel's oldest query, and none comes before slot 7 of the frame after that query's boundary. -/
theorem takeAnswer_oldest {s : State} {rec : List Byte} {o : Obj} {q : Query} {qs : List Query} (ho : chanByIndex s (u8 rec 0) = some o)
    (hq : (chanOf o).queries = q :: qs) : takeAnswer rec s
      = if s.gtc < q.boundary + 69000 then s else updChan o.idx (fun r => { r with queries := qs, ansNext := some (q, rec) }) s := by
  simp only [takeAnswer, ho, hq, frameTicks, slotTicks, Nat.reduceMul, Nat.add_assoc, Nat.reduceAdd]

theorem takeAnswer_unasked {s : State} {rec : List Byte}
    (h : chanByIndex s (u8 rec 0) = none ∨ ∃ o, chanByIndex s (u8 rec 0) = some o ∧ (chanOf o).queries = []) : takeAnswer rec s = s := by
  rcases h with ho | ⟨o, ho, hq⟩
  · simp only [takeAnswer, ho]
  · simp only [takeAnswer, ho, hq]

/-- Settles O34: each access by what it finds of the layer, then the records of a window in their order. -/
theorem boardCacheAndRecords : Obligations.BoardCacheAndRecords := by
  refine ⟨fun s h o g tx ty bs f ho hf => execTileFetchDone_found bs ho hf, fun s h g tx ty bs hw => execTileFetchDone_idle g tx ty bs hw,
    fun s h o tx ty e bs ho hat hf hwait he hc ht hp hw hm => ?_, fun s o f bs b hg hb => fetchDone_group hg hb,
    fun s h o tx ty ho => ⟨execTileWritebackDone_none ho, fun w hw => execTileWritebackDone_found ho hw⟩,
    fun s h o w ho hat hw hp hq he hg hm => ?_, fun s h o tx ty t ho hat ht hd hp hf hc hg => ?_,
    fun s h o tx ty t ho ht hw => execTileFlushTimer_idle ho ht hw,
    fun s h o tx ty ho ht => ⟨execTileFlushTimer_uncached ho ht, execWritebackRetry_uncached ho ht⟩, fun s h o k tx ty ho => ?_,
    fun s o f hat hm hf => readFail_heldOut f hat hm, fun s o k tx ty t hat hn ht => ?_, fun s h o g tx ty x gone ho hx hgone => ?_,
    fun s h o g tx ty ho hx => execTileHoldoutRetry_none g tx ty ho hx,
    fun s i o tx ty hat hf hh hd hb => askFetch_group tx ty hat hf hh hd hb, fun s h o tx ty t ho ht => ?_, fun s h o ho => ?_,
    fun s h g tx ty ho => boardTraffic_absent g tx ty ho, fun s t h => execPrefetchCorridor_none t h, fun s t o u hl he hb hu => ?_,
    fun s p rec => ?_, fun s u v pt hpt hu hv => ?_, fun s p b qs full n late a hn hl ha => queryLoop_cons p b qs full hn hl ha,
    fun s m ms kept wait u w hv hwait hu hw => ?_, fun s p rec r u hr hu => ?_, fun s p q a => ?_, fun s rec o q qs ho hq => ?_,
    fun s rec h => ?_⟩
  · have hfound : (layerOf o).fetches.find? (fun f => f.group == false && f.tx == tx && f.ty == ty)
        = some { group := false, tx := tx, ty := ty } := by simp [hf]
    obtain ⟨t, c, hdone, hfetched⟩ := tileFetched (f := { group := false, tx := tx, ty := ty }) bs hat rfl he hc ht hm hf hp hw
    refine ⟨t, c, ?_, hfetched⟩
    rw [exec_tileFetchDone, execTileFetchDone_found bs ho hfound, hwait, ← hdone]
    rfl
  · have hfound : wbOf (layerOf o) w.tile.tx w.tile.ty = some w := by simp [wbOf, hw]
    obtain ⟨t, hdone, hwritten⟩ := tileWrittenBack hat hw hp hq he hg hm
    refine ⟨t, ?_, hwritten⟩
    rw [exec_tileWritebackDone, execTileWritebackDone_found ho hfound, hdone]
  · obtain ⟨rfl, rfl⟩ := tileAt_place ht
    have hlater : objAt (toInstant (t.first + u16 o.act 52 * 480000) s) o.idx = some o := by rw [objAt_congr (toInstant_objs _ s), hat]
    obtain ⟨hwbs, hclean⟩ := startWb_copies hlater ht
    have hframe := startWb_frame o t (toInstant (t.first + u16 o.act 52 * 480000) s)
    rw [toInstant_board] at hwbs hframe
    exact ⟨_, execTileFlushTimer_starts ho ht hd hp hf hc hg, hframe, hwbs, hclean⟩
  · exact ⟨fun f hk hf => execBoardHostAccessFail_read ho hk hf, fun hk hf => execBoardHostAccessFail_noRead ho hk hf,
      fun w hk hw => hk ▸ execBoardHostAccessFail_write ho hw, fun hk hw => hk ▸ execBoardHostAccessFail_noWrite ho hw,
      fun hk => execBoardHostAccessFail_dir ho hk⟩
  · subst ht
    exact hostFault_notDegraded k tx ty hat hn
  · subst hgone
    rw [exec_tileHoldoutRetry, execTileHoldoutRetry_found ho hx]
    exact ⟨fun hg => by rw [if_pos hg], fun hg => ⟨_, rfl, by rw [hg]; rfl⟩⟩
  · exact ⟨fun hp hd hg hw => execWritebackRetry_starts ho ht hp hd hg hw, fun hw => execWritebackRetry_idle ho ht hw⟩
  · exact ⟨execBoardDegradedEnd_recovers ho, execBoardDegradedEnd_idle ho⟩
  · subst hu
    exact execPrefetchCorridor_one t hl he hb
  · refine ⟨execMarkRecordArrival_query p rec s, execMarkRecordArrival_mark p rec s,
      fun hm => ⟨markQueued { pos := p, bytes := padTo 16 rec } s, rfl, rfl, rfl, rfl, ?_⟩⟩
    rw [exec_markRecordArrival, execMarkRecordArrival_mark, queueMark_room _ hm]
  · subst hpt
    exact execBoardWindow_eq hu hv
  · subst hu hw
    cases hd : (doMark m { s with board := { s.board with marks := kept ++ m :: ms } }).1 with
    | none => exact markLoop_done hv hwait hd
    | some x => exact markLoop_waits hv hwait hd
  · subst hr hu
    exact ⟨_, _, rfl, (Prod.eta _).symm, answerOf_late_fields ..⟩
  · refine ⟨sendAnswer_away q a, fun hp => ?_⟩
    rw [exec_answerReceive, execAnswerReceive_padded, sendAnswer_here _ _ hp]
  · rw [exec_answerReceive, execAnswerReceive, takeAnswer_oldest ho hq]
  · rw [exec_answerReceive, execAnswerReceive, takeAnswer_unasked h]

end Sys2Proof.Machine
end

section
/-! PROOFS. Section scheduling (06): the queue of a channel, the commands on channels and sections, and the latency store (R194, R200,
R201, R209 to R211, R224). -/

namespace Sys2Proof.Machine

/-! ## A channel after a change -/

/-- A channel with another running state. -/
def withChan (o : Obj) (r : ChRt) : Obj := { o with rt := .chan r }

@[simp] theorem chanOf_withChan (o : Obj) (r : ChRt) : chanOf (withChan o r) = r := rfl
@[simp] theorem withChan_withChan (o : Obj) (q r : ChRt) : withChan (withChan o q) r = withChan o r := rfl

theorem objAt_updChan {s : State} {i : Nat} {o : Obj} (f : ChRt → ChRt) (ho : objAt s i = some o) :
    objAt (updChan i f s) i = some (withChan o (f (chanOf o))) :=
  objAt_updObj_same (f := fun o => { o with rt := .chan (f (chanOf o)) }) (fun _ => rfl) ho

theorem objAt_updChan_other {i j : Nat} (f : ChRt → ChRt) (s : State) (hj : j ≠ i) : objAt (updChan i f s) j = objAt s j :=
  objAt_updObj_other (f := fun o => { o with rt := .chan (f (chanOf o)) }) (fun _ => rfl) hj

/-! ## The queue of a channel (R200) -/

/-- What the search at the acceptance notes leaves of an edge (R209). -/
theorem edgeSeen_keeps (s : State) (o : Obj) (e : Edge) : (edgeSeen s o e).on = e.on ∧ (edgeSeen s o e).form = e.form
    ∧ (edgeSeen s o e).cmd = e.cmd := by
  unfold edgeSeen
  split <;> exact ⟨rfl, rfl, rfl⟩

section
variable {s : State} {o c : Obj} {e : Edge} (hc : objAt s o.idx = some c)
include hc

theorem chPush_same (he : e.on = commanded (chanOf c)) : chPush o e s = (.same, s) := by
  simp only [chPush, hc, Option.map_some, Option.getD_some, he, beq_self_eq_true, if_true]

variable (he : e.on ≠ commanded (chanOf c))
include he

theorem chPush_room (hl : (chanOf c).queue.length < 4) :
    chPush o e s = (.queued, updChan o.idx (fun r => { r with queue := r.queue ++ [edgeSeen s o e] }) s) := by
  simp only [chPush, hc, Option.map_some, Option.getD_some, beq_eq_false_iff_ne.mpr he, Bool.false_eq_true, if_false, if_pos hl]

/-- A fifth edge that has no place to be compared at, and any edge after it, is refused. -/
theorem chPush_full (hl : 4 < (chanOf c).queue.length ∨ (chanOf c).queue.length = 4 ∧ chPoint s o = none) :
    chPush o e s = (.full, raiseLimited secTicks 0x0642 0 (handleOf o) 0 o.epoch [] 4 4 s) := by
  simp only [chPush, hc, Option.map_some, Option.getD_some, beq_eq_false_iff_ne.mpr he, Bool.false_eq_true, if_false]
  rcases hl with hl | ⟨hl, hp⟩
  · rw [if_neg (by omega), if_pos hl]
  · rw [if_neg (by omega), if_neg (by omega), hp]

/-- A fifth edge is compared at once, and queued where it removes the fourth. -/
theorem chPush_fifth {p : Obj} {w : Edge} (hl : (chanOf c).queue.length = 4) (hp : chPoint s o = some p)
    (hw : w = edgeWrite s o p (shadowBoundary s.gtc) (((chanOf c).leadOn * usTicks : Nat) : Int) (((chanOf c).leadOff * usTicks : Nat) : Int)
      (chanOf c).queue.getLast? (edgeSeen s o e)) :
    chPush o e s = if w.removes then (.queued, updChan o.idx (fun r => { r with queue := r.queue ++ [w] }) s)
      else (.full, raiseLimited secTicks 0x0642 0 (handleOf o) 0 o.epoch [] 4 4 s) := by
  subst hw
  simp only [chPush, hc, Option.map_some, Option.getD_some, beq_eq_false_iff_ne.mpr he, Bool.false_eq_true, if_false]
  rw [if_neg (by omega), if_neg (by omega), hp]

end

/-! ## SCHED_CHANNEL_CMD (R209, R210) -/

theorem exec_schedChannelCmd (d : Desc) (s : State) : exec (.schedChannelCmd d) s = execSchedChannelCmd d s := rfl

theorem exec_schedChannelCmd_passes {s : State} {d : Desc} {o : Obj} (hp : passes 0x0600 d s = true) (ho : objOf s (dHandle d) = some o) :
    exec (.schedChannelCmd d) s = .next (bodyChannelCmd d o s) := by
  rw [exec_schedChannelCmd, execSchedChannelCmd, runObj_passes _ hp ho]

/-- The fields of an edge that a host command spells. -/
theorem cmdEdge_fields (d : Desc) (n : Nat) : (cmdEdge d n).on = (u8 d.bytes 16 == 1) ∧ (cmdEdge d n).form = u8 d.bytes 17
    ∧ (cmdEdge d n).cmd = some n ∧ (cmdEdge d n).qual = (if u8 d.bytes 18 = 1 then -1 else 1)
    ∧ (u8 d.bytes 17 = 1 → (cmdEdge d n).whenAt = i64 d.bytes 24)
    ∧ (u8 d.bytes 17 = 3 → (cmdEdge d n).whenAt = i64 d.bytes 24 * 13107200000)
    ∧ (u8 d.bytes 17 = 2 → (cmdEdge d n).line = [i32 d.bytes 24, i32 d.bytes 28, i32 d.bytes 32, i32 d.bytes 36]) := by
  refine ⟨rfl, rfl, rfl, rfl, fun h => if_pos h, fun h => ?_, fun h => ?_⟩
  · simp only [cmdEdge, h, umUnits]; rfl
  · simp only [cmdEdge, h]; rfl

theorem bodyChannelCmd_param {s : State} {d : Desc} (o : Obj) (h : 1 < u8 d.bytes 16 ∨ 3 < u8 d.bytes 17 ∨ 1 < u8 d.bytes 18) :
    bodyChannelCmd d o s = fail d 0x0004 s := if_pos h

section
variable {s : State} {d : Desc} {o : Obj} (hon : u8 d.bytes 16 ≤ 1) (hform : u8 d.bytes 17 ≤ 3) (hqual : u8 d.bytes 18 ≤ 1)
include hon hform hqual

theorem bodyChannelCmd_state (he : isEnabled o = false) : bodyChannelCmd d o s = fail d 0x000E s := by
  rw [bodyChannelCmd, if_neg (by omega)]
  exact if_pos (by rw [he]; rfl)

variable (he : isEnabled o = true)
include he

/-- A channel of a section takes commands of the host in host mode alone. -/
theorem bodyChannelCmd_mode {x : Obj} (hx : chSection s o = some x) (hm : u8 x.act 16 ≠ 2) : bodyChannelCmd d o s = fail d 0x0605 s := by
  rw [bodyChannelCmd, if_neg (by omega), if_neg (by simp [he]), hx]
  exact if_pos (by simpa using hm)

theorem bodyChannelCmd_gate {x : Obj} (hx : chSection s o = some x) (hm : u8 x.act 16 = 2) (hg : (secOf x).gate = false) :
    bodyChannelCmd d o s = fail d 0x0606 s := by
  rw [bodyChannelCmd, if_neg (by omega), if_neg (by simp [he]), hx]
  dsimp only
  rw [if_neg (by simp [hm]), if_pos (by simp [hg])]

/-- Where the section lets it, the command's outcome is that of its edge at the queue. -/
theorem bodyChannelCmd_pushed {n : Nat} {x : Pushed × State} (hs : ∀ y, chSection s o = some y → u8 y.act 16 = 2 ∧ (secOf y).gate = true)
    (hn : n = s.sched.nextCmd) (hx : x = chPush o (cmdEdge d n) { s with sched := { s.sched with nextCmd := wrapInc 32 n } }) :
    (x.1 = .same → bodyChannelCmd d o s = okWith d [0, 0, 0, 0, 0, d.bytes.getD 16 0] s)
    ∧ (x.1 = .full → bodyChannelCmd d o s = failWith d 0x0607 [0, 0, 0, 0, 0, d.bytes.getD 16 0] x.2)
    ∧ (x.1 = .queued → bodyChannelCmd d o s = defer d 0x0600 (handleOf o) 0 [] n x.2) := by
  have hmode : ((chSection s o).map fun x => u8 x.act 16 != 2).getD false = false := by
    cases hy : chSection s o with
    | none => rfl
    | some y => simp [(hs y hy).1]
  have hgate : ((chSection s o).map fun x => !(secOf x).gate).getD false = false := by
    cases hy : chSection s o with
    | none => rfl
    | some y => simp [(hs y hy).2]
  subst hn
  rw [bodyChannelCmd, if_neg (by omega), if_neg (by simp [he])]
  dsimp only
  rw [if_neg (by simp [hmode]), if_neg (by simp [hgate])]
  simp only [takeCmd, ← hx]
  exact ⟨fun h => by rw [h], fun h => by rw [h], fun h => by rw [h]⟩

/-- An edge NOW for a channel without a section, with room in its queue: it stands last in the queue, the command is pending. -/
theorem bodyChannelCmd_queues (hform0 : u8 d.bytes 17 = 0) (hat : objAt s o.idx = some o) (hs : chSection s o = none)
    (hne : (u8 d.bytes 16 == 1) ≠ commanded (chanOf o)) (hl : (chanOf o).queue.length < 4) :
    ∃ v e, bodyChannelCmd d o s = defer d 0x0600 (handleOf o) 0 [] s.sched.nextCmd v ∧ e.on = (u8 d.bytes 16 == 1) ∧ e.form = 0
      ∧ e.cmd = some s.sched.nextCmd ∧ objAt v o.idx = some (withChan o { chanOf o with queue := (chanOf o).queue ++ [e] })
      ∧ (∀ i, i ≠ o.idx → objAt v i = objAt s i) ∧ v.hif = s.hif ∧ v.gtc = s.gtc := by
  let t : State := { s with sched := { s.sched with nextCmd := wrapInc 32 s.sched.nextCmd } }
  have hpush := chPush_room (s := t) (e := cmdEdge d s.sched.nextCmd) hat hne hl
  have hbody := (bodyChannelCmd_pushed hon hform hqual he (fun y hy => by rw [hs] at hy; cases hy) rfl hpush.symm).2.2 rfl
  obtain ⟨hkon, hkform, hkcmd⟩ := edgeSeen_keeps t o (cmdEdge d s.sched.nextCmd)
  exact ⟨_, edgeSeen t o (cmdEdge d s.sched.nextCmd), hbody, hkon, hkform.trans hform0, hkcmd, objAt_updChan (s := t) _ hat,
    fun i hi => objAt_updChan_other _ t hi, rfl, rfl⟩

end

/-! ## SCHED_SECTION_CMD (R210) -/

theorem exec_schedSectionCmd (d : Desc) (s : State) : exec (.schedSectionCmd d) s = execSchedSectionCmd d s := rfl

theorem exec_schedSectionCmd_passes {s : State} {d : Desc} {o : Obj} (hp : passes 0x0601 d s = true) (ho : objOf s (dHandle d) = some o) :
    exec (.schedSectionCmd d) s = .next (bodySectionCmd d o s) := by
  rw [exec_schedSectionCmd, execSchedSectionCmd, runObj_passes _ hp ho]

/-- A member of a section is commanded to a state already. -/
def memberIs (on : Bool) (s : State) (m : Nat × Nat) : Bool :=
  if m.1 = s.osl.position then ((objOf s m.2).map fun c => isEnabled c && commanded (chanOf c) == on).getD false
  else !farAbsent s m.1 && ((farOf s m).map fun c => c.on && c.cmd == on).getD false

/-- A section command is taken up: it waits for every member of the section. -/
def sectionCmdTaken (o : Obj) (s : State) : State :=
  { s with sched := { s.sched with
    nextCmd := wrapInc 32 s.sched.nextCmd, cmds := s.sched.cmds ++ [{ cmd := s.sched.nextCmd, wait := crefsOf tySection o.act }] } }

theorem bodySectionCmd_param {s : State} {d : Desc} (o : Obj) (h : 1 < u8 d.bytes 16 ∨ 2 < u8 d.bytes 17 ∨ 1 < u8 d.bytes 18) :
    bodySectionCmd d o s = fail d 0x0004 s := if_pos h

section
variable {s : State} {d : Desc} {o : Obj} (hon : u8 d.bytes 16 ≤ 1) (hform : u8 d.bytes 17 ≤ 2) (hqual : u8 d.bytes 18 ≤ 1)
include hon hform hqual

theorem bodySectionCmd_state (he : isEnabled o = false) : bodySectionCmd d o s = fail d 0x000E s := by
  rw [bodySectionCmd, if_neg (by omega)]
  exact if_pos (by rw [he]; rfl)

variable (he : isEnabled o = true)
include he

theorem bodySectionCmd_mode (hm : u8 o.act 16 ≠ 2) : bodySectionCmd d o s = fail d 0x0605 s := by
  rw [bodySectionCmd, if_neg (by omega), if_neg (by simp [he]), if_pos hm]

variable (hm : u8 o.act 16 = 2)
include hm

theorem bodySectionCmd_gate (hg : (secOf o).gate = false) : bodySectionCmd d o s = fail d 0x0606 s := by
  rw [bodySectionCmd, if_neg (by omega), if_neg (by simp [he]), if_neg (by simp [hm]), if_pos (by simp [hg])]

variable (hg : (secOf o).gate = true)
include hg

/-- Where a member is not there yet, the command goes to every member and is pending. -/
theorem bodySectionCmd_open : bodySectionCmd d o s = if (crefsOf tySection o.act).all (memberIs (u8 d.bytes 16 == 1) s) then ok d s
    else deliverAll o (cmdEdge d s.sched.nextCmd) (0xFF, 0xFF)
      (defer d 0x0601 (handleOf o) 0 [] s.sched.nextCmd (sectionCmdTaken o s)) := by
  rw [bodySectionCmd, if_neg (by omega), if_neg (by simp [he]), if_neg (by simp [hm]), if_neg (by simp [hg])]
  rfl

end

section
variable {s : State} {m : Nat × Nat} {e : Edge}

theorem deliverEdge_queued {c : Obj} (hm : m.1 = s.osl.position) (ho : objOf s m.2 = some c) (he : isEnabled c = true)
    (hq : (chPush c e s).1 = .queued) : deliverEdge e m s = (chPush c e s).2 := by
  simp only [deliverEdge, if_pos hm, ho, he, Bool.not_true, Bool.false_eq_true, if_false, if_pos hq]

theorem deliverEdge_absent {n : Nat} (hn : e.cmd = some n)
    (h : m.1 = s.osl.position ∧ objOf s m.2 = none ∨ m.1 ≠ s.osl.position ∧ farAbsent s m.1 = true) :
    deliverEdge e m s = secReport n m .absent s := by
  rcases h with ⟨hm, ho⟩ | ⟨hm, ha⟩
  · simp only [deliverEdge, if_pos hm, ho, hn]
  · simp only [deliverEdge, if_neg hm, ha, if_true, hn]

end

theorem deliverAll_eq (s : State) (sec : Obj) (e : Edge) (q : Nat × Nat) : deliverAll sec e q s
    = if farPositions s sec = [] then (crefsOf tySection sec.act).foldl (fun s m => deliverEdge e m s) s
      else (edgeRecords (handleOf sec) e q).foldl (fun s r => secSend sec.idx r s)
        ((crefsOf tySection sec.act).foldl (fun s m => deliverEdge e m s) s) := by
  simp only [deliverAll, List.isEmpty_iff]

/-- The counts of a section command after a member's outcome (R210). -/
theorem secReport_counts {s : State} {n : Nat} {m : Nat × Nat} {c : SecCmd} {x : Deferred} (k : EdgeEnd) (hcs : s.sched.cmds = [c])
    (hn : c.cmd = n) (hw : c.wait = [m]) (hx : s.hif.deferred.find? (fun x => x.op == 0x0601 && x.arg == n) = some x) :
    secReport n m k s = completeDeferred x { result := (satBytes 2 (c.fired + b2n (k == .fired || k == .late))
        ++ satBytes 2 (c.late + b2n (k == .late || k == .lateDropped)) ++ satBytes 2 (c.behind + b2n (k == .behind))
        ++ satBytes 1 (c.absent + b2n (k == .absent))) } { s with sched := { s.sched with cmds := [] } } := by
  have hfind : s.sched.cmds.find? (fun c => c.cmd == n && c.wait.contains m) = some c := by simp [hcs, hn, hw]
  have hrest : s.sched.cmds.filter (fun x => x.cmd != n) = [] := by simp [hcs, hn]
  simp only [secReport, hfind, hrest, hw, List.erase_cons_head, List.isEmpty_nil, if_true, hx, secCmdResult]
  cases k <;> rfl

/-! ## SCHED_GATE and SCHED_RATE (R201, R211, R224) -/

theorem exec_schedGate (d : Desc) (s : State) : exec (.schedGate d) s = execSchedGate d s := rfl
theorem exec_schedRate (d : Desc) (s : State) : exec (.schedRate d) s = execSchedRate d s := rfl

theorem exec_schedGate_passes {s : State} {d : Desc} {o : Obj} (hp : passes 0x0602 d s = true) (ho : objOf s (dHandle d) = some o) :
    exec (.schedGate d) s = .next (bodySchedGate d o s) := by
  rw [exec_schedGate, execSchedGate, runObj_passes _ hp ho]

theorem exec_schedRate_passes {s : State} {d : Desc} {o : Obj} (hp : passes 0x0603 d s = true) (ho : objOf s (dHandle d) = some o) :
    exec (.schedRate d) s = .next (bodySchedRate d o s) := by
  rw [exec_schedRate, execSchedRate, runObj_passes _ hp ho]

theorem bodySchedGate_param {s : State} {d : Desc} (o : Obj) (h : 1 < u8 d.bytes 16) : bodySchedGate d o s = fail d 0x0004 s := if_pos h

section
variable {s : State} {d : Desc} {o : Obj} (hv : u8 d.bytes 16 ≤ 1)
include hv

theorem bodySchedGate_state (he : isEnabled o = false) : bodySchedGate d o s = fail d 0x000E s := by
  rw [bodySchedGate, if_neg (by omega)]
  exact if_pos (by rw [he]; rfl)

variable (he : isEnabled o = true)
include he

theorem bodySchedGate_mode (hm : u8 o.act 16 = 1) : bodySchedGate d o s = fail d 0x0605 s := by
  rw [bodySchedGate, if_neg (by omega), if_neg (by simp [he]), if_pos hm]

/-- The gate is asked for; while a lost wing holds it, the boundary does not move it (R203). -/
theorem bodySchedGate_taken (hm : u8 o.act 16 ≠ 1) : bodySchedGate d o s = ok d (updSec o.idx (fun r => { r with
    gateReq := u8 d.bytes 16 == 1
    gateNext := if (secOf o).wingLost = true ∧ u8 o.act 33 = 2 then r.gateNext else some (u8 d.bytes 16 == 1) }) s) := by
  rw [bodySchedGate, if_neg (by omega), if_neg (by simp [he]), if_neg hm]
  simp only [Bool.and_eq_true, beq_iff_eq]

end

theorem bodySchedRate_param {s : State} {d : Desc} (o : Obj) (h : fFinite (f32 d.bytes 16) = false ∨ u8 d.bytes 20 = 0 ∨ 4 < u8 d.bytes 20) :
    bodySchedRate d o s = fail d 0x0004 s := by
  rw [bodySchedRate]
  exact if_pos (by rcases h with h | h | h <;> simp [h])

section
variable {s : State} {d : Desc} {o : Obj} (hf : fFinite (f32 d.bytes 16) = true) (h0 : u8 d.bytes 20 ≠ 0) (h4 : u8 d.bytes 20 ≤ 4)
include hf h0 h4

theorem bodySchedRate_unit (hu : (crefsOf tySection o.params).all (fun m => unitFits (hType m.2) (u8 d.bytes 20)) = false) :
    bodySchedRate d o s = fail d 0x0608 s := by
  rw [bodySchedRate, if_neg (by simp [hf, h0, h4]), if_pos (by rw [hu]; rfl)]

variable (hu : (crefsOf tySection o.params).all (fun m => unitFits (hType m.2) (u8 d.bytes 20)) = true)
include hu

theorem bodySchedRate_state (he : isEnabled o = false) : bodySchedRate d o s = fail d 0x000E s := by
  rw [bodySchedRate, if_neg (by simp [hf, h0, h4]), if_neg (by rw [hu]; simp)]
  exact if_pos (by rw [he]; rfl)

theorem bodySchedRate_taken (he : isEnabled o = true) :
    bodySchedRate d o s = ok d (updSec o.idx (fun r => { r with rateNext := some (f32 d.bytes 16, u8 d.bytes 20) }) s) := by
  rw [bodySchedRate, if_neg (by simp [hf, h0, h4]), if_neg (by rw [hu]; simp), if_neg (by simp [he])]

end

/-! ## SCHED_CANCEL (R224) -/

theorem exec_schedCancel (d : Desc) (s : State) : exec (.schedCancel d) s = execSchedCancel d s := rfl

theorem exec_schedCancel_passes {s : State} {d : Desc} {o : Obj} (hp : passes 0x0604 d s = true) (ho : objOf s (dHandle d) = some o) :
    exec (.schedCancel d) s = .next (bodySchedCancel d o s) := by
  rw [exec_schedCancel, execSchedCancel, runObj_passes _ hp ho]

theorem bodySchedCancel_pending {s : State} {o : Obj} (d : Desc) (he : isEnabled o = true) : bodySchedCancel d o s
    = defer d 0x0604 (handleOf o) (nextBoundary s.gtc) [] s.sched.nextCmd
      { s with sched := { s.sched with nextCmd := wrapInc 32 s.sched.nextCmd } } := if_neg (by simp [he])

theorem bodySchedCancel_state {s : State} {o : Obj} (d : Desc) (he : isEnabled o = false) : bodySchedCancel d o s = fail d 0x000E s :=
  if_pos (by rw [he]; rfl)

theorem cancelQueues_one {s : State} {h : Nat} {o : Obj} (ho : objOf s h = some o) :
    cancelQueues [h] s = ((chanOf o).queue.length, chClear o 0x0604 s) := by
  simp only [cancelQueues, List.foldl_cons, List.foldl_nil, ho, Nat.zero_add]

section
variable {s : State} {b : Nat} {x : Deferred} {o : Obj} (hx : s.hif.deferred = [x]) (hop : x.op = 0x0604) (hdue : x.due ≤ b)
  (hcs : s.sched.cancels = []) (ho : objOf s x.handle = some o)
include hx hop hdue hcs

/-- One cancel is due at the boundary. -/
theorem cancelsDue_one : (s.hif.deferred.filter fun x => x.op == 0x0604 && decide (x.due ≤ b) && !s.sched.cancels.any fun c => c.cmd == x.arg)
    = [x] := by
  simp [hx, hop, hdue, hcs]

include ho

theorem cancelBoundary_channel (ht : o.typ ≠ tySection) :
    cancelBoundary b s = completeDeferred x { result := satBytes 1 (chanOf o).queue.length } (chClear o 0x0604 s) := by
  have hsec : (objOf s x.handle).filter (fun o => o.typ == tySection) = none := by simp [ho, Option.filter, ht]
  rw [cancelBoundary, cancelsDue_one hx hop hdue hcs]
  simp only [List.foldl_cons, List.foldl_nil, hsec, cancelQueues_one ho]

/-- A cancel on a section clears the queues of its members here; where other devices have members, it waits for their counts. -/
theorem cancelBoundary_section {r : Nat × State} (ht : o.typ = tySection) (hr : r = cancelQueues ((localMembers s o).map handleOf) s) :
    cancelBoundary b s = if farPositions s o = [] then completeDeferred x { result := satBytes 1 r.1 } r.2
      else secSend o.idx (cancelRecord x.handle) { r.2 with sched := { r.2.sched with
        cancels := r.2.sched.cancels ++ [{ cmd := x.arg, handle := x.handle, wait := farPositions s o, count := r.1 }] } } := by
  subst hr
  have hsec : (objOf s x.handle).filter (fun o => o.typ == tySection) = some o := by simp [ho, Option.filter, ht]
  rw [cancelBoundary, cancelsDue_one hx hop hdue hcs]
  simp only [List.foldl_cons, List.foldl_nil, hsec, Option.map_some, Option.getD_some]
  cases hfar : farPositions s o with
  | nil => rfl
  | cons p ps => rfl

end

/-! ## The latency store (R193, R194) -/

theorem exec_schedLatencySet (d : Desc) (s : State) : exec (.schedLatencySet d) s = execSchedLatencySet d s := rfl
theorem exec_schedLatencySave (d : Desc) (s : State) : exec (.schedLatencySave d) s = execSchedLatencySave d s := rfl
theorem exec_schedLatencyErase (d : Desc) (s : State) : exec (.schedLatencyErase d) s = execSchedLatencyErase d s := rfl

theorem exec_schedLatencySet_passes {s : State} {d : Desc} {o : Obj} (hp : passes 0x0605 d s = true) (ho : objOf s (dHandle d) = some o) :
    exec (.schedLatencySet d) s = .next (bodyLatencySet d o s) := by
  rw [exec_schedLatencySet, execSchedLatencySet, runObj_passes _ hp ho]

theorem exec_schedLatencySave_passes {s : State} {d : Desc} (hp : passes 0x0606 d s = true) :
    exec (.schedLatencySave d) s = .next (bodyLatencySave d s) := by
  rw [exec_schedLatencySave, execSchedLatencySave, runDesc_passes _ hp]

theorem exec_schedLatencyErase_passes {s : State} {d : Desc} (hp : passes 0x0607 d s = true) :
    exec (.schedLatencyErase d) s = .next (bodyLatencyErase d s) := by
  rw [exec_schedLatencyErase, execSchedLatencyErase, runDesc_passes _ hp]

/-- A latency that SCHED_LATENCY_SET takes: the mark that keeps the present one, or one within lat_min to lat_max. -/
def latFits (o : Obj) (x : Nat) : Prop := x = 0xFFFFFFFF ∨ u32 o.act 44 ≤ x ∧ x ≤ u32 o.act 48

theorem latRefused_iff (o : Obj) (a b : Nat) : (!(a == 0xFFFFFFFF || decide (u32 o.act 44 ≤ a ∧ a ≤ u32 o.act 48))
    || !(b == 0xFFFFFFFF || decide (u32 o.act 44 ≤ b ∧ b ≤ u32 o.act 48))) = true ↔ ¬ latFits o a ∨ ¬ latFits o b := by
  simp only [latFits, Bool.or_eq_true, Bool.not_eq_true', Bool.or_eq_false_iff, beq_eq_false_iff_ne, decide_eq_false_iff_not, not_or]

/-- A channel with its latencies set, in 2^-96 µs, and its counts of outliers cleared. -/
def latenciesSet (a b : Nat) (r : ChRt) : ChRt :=
  { r with
    latOn := if a = 0xFFFFFFFF then r.latOn else (a : Int) * 2 ^ 96
    latOff := if b = 0xFFFFFFFF then r.latOff else (b : Int) * 2 ^ 96
    rejOn := 0, rejOff := 0, shiftOn := none, shiftOff := none }

theorem bodyLatencySet_param {s : State} {d : Desc} {o : Obj} (h : ¬ latFits o (u32 d.bytes 16) ∨ ¬ latFits o (u32 d.bytes 20)) :
    bodyLatencySet d o s = fail d 0x0004 s := if_pos ((latRefused_iff ..).mpr h)

section
variable {s : State} {d : Desc} {o : Obj} (ha : latFits o (u32 d.bytes 16)) (hb : latFits o (u32 d.bytes 20))
include ha hb

theorem not_latRefused : ¬ (¬ latFits o (u32 d.bytes 16) ∨ ¬ latFits o (u32 d.bytes 20)) := by simp [ha, hb]

theorem bodyLatencySet_state (hd : o.ost = .disabled) : bodyLatencySet d o s = fail d 0x000E s :=
  (if_neg (mt (latRefused_iff ..).mp (not_latRefused ha hb))).trans (if_pos hd)

theorem bodyLatencySet_taken (hd : o.ost ≠ .disabled) :
    bodyLatencySet d o s = ok d (updChan o.idx (latenciesSet (u32 d.bytes 16) (u32 d.bytes 20)) s) :=
  (if_neg (mt (latRefused_iff ..).mp (not_latRefused ha hb))).trans (if_neg hd)

end

/-- The records to save are those of channels with a key that are in use and differ from what stands under it. -/
theorem mem_latChanged {s : State} {x : LatRec} : x ∈ latChanged s ↔ ∃ o ∈ s.objs, (o.typ = tyNozzle ∨ o.typ = tyRow)
    ∧ o.ost ≠ .disabled ∧ u16 o.act 62 ≠ 0 ∧ x = latRec o ∧ latStored s x.key ≠ some x := by
  simp only [latChanged, List.mem_filterMap, List.mem_filter, Bool.and_eq_true, Bool.or_eq_true, beq_iff_eq, bne_iff_ne]
  refine exists_congr fun o => ⟨?_, ?_⟩
  · rintro ⟨⟨ho, ⟨ht, hd⟩, hk⟩, hx⟩
    split at hx
    · cases hx
    · next hs =>
      cases hx
      exact ⟨ho, ht, hd, hk, rfl, hs⟩
  · rintro ⟨ho, ht, hd, hk, rfl, hs⟩
    exact ⟨⟨ho, ⟨ht, hd⟩, hk⟩, if_neg hs⟩

theorem bodyLatencySave_eq (d : Desc) (s : State) : bodyLatencySave d s = if (latSave s).sched.saving = [] then ok d (latSave s)
    else { latSave s with sched := { (latSave s).sched with saveDescs := s.sched.saveDescs ++ [d] } } := by
  simp only [bodyLatencySave, List.isEmpty_iff]
  rfl

/-- A record is found under its key once it is put. -/
theorem latPut_found (x : LatRec) : ∀ st, (latPut x st).find? (fun y => y.key == x.key) = some x
  | [] => by simp [latPut]
  | y :: r => by
    rw [latPut]
    split
    · simp
    · next hlt =>
      split
      · simp
      · next hne => rw [List.find?_cons_of_neg (by simpa using fun h => hne h.symm), latPut_found x r]

/-- The records under other keys stay. -/
theorem latPut_others (x : LatRec) {k : Nat} (hk : k ≠ x.key) : ∀ st, (latPut x st).filter (fun y => y.key == k) = st.filter fun y => y.key == k
  | [] => by simp [latPut, hk.symm]
  | y :: r => by
    rw [latPut]
    split
    · rw [List.filter_cons_of_neg (by simpa using hk.symm)]
    · split
      · next heq => rw [List.filter_cons_of_neg (by simpa using hk.symm), List.filter_cons_of_neg (by simpa [← heq] using hk.symm)]
      · simp only [List.filter_cons, latPut_others x hk r]

theorem execLatencyRecordsWritten_deferred {s : State} (h : s.pwr.bow = true) : execLatencyRecordsWritten s = .next s :=
  congrArg Host.Outcome.next (if_pos h)

theorem execLatencyRecordsWritten_written {s : State} (h : s.pwr.bow = false) : execLatencyRecordsWritten s = .next (latWritten s) :=
  congrArg Host.Outcome.next (if_neg (by simp [h]))

theorem bodyLatencyErase_param {s : State} {d : Desc} (h : u16 d.bytes 16 = 0 ∨ 4095 < u16 d.bytes 16) :
    bodyLatencyErase d s = fail d 0x0004 s := if_pos h

/-- The records under a key that are on their way to the store are dropped. -/
def savingErased (k : Nat) (s : State) : State := { s with sched := { s.sched with saving := s.sched.saving.filter fun x => x.key != k } }

section
variable {s : State} {d : Desc} (h0 : u16 d.bytes 16 ≠ 0) (hk : u16 d.bytes 16 ≤ 4095)
include h0 hk

theorem bodyLatencyErase_key : bodyLatencyErase d s = mramWrite d (.latErase (u16 d.bytes 16)) (savingErased (u16 d.bytes 16) s) :=
  if_neg (by omega)

/-- A supply warning defers the write (R489). -/
theorem bodyLatencyErase_deferred (h : s.pwr.bow = true) : bodyLatencyErase d s = { savingErased (u16 d.bytes 16) s with
    pwr := { s.pwr with mramWait := s.pwr.mramWait ++ [(d, .latErase (u16 d.bytes 16))] } } :=
  (bodyLatencyErase_key h0 hk).trans (if_pos h)

theorem bodyLatencyErase_erased (h : s.pwr.bow = false) : bodyLatencyErase d s = ok d { s with sched := { s.sched with
    store := s.sched.store.filter (fun x => x.key != u16 d.bytes 16), saving := s.sched.saving.filter (fun x => x.key != u16 d.bytes 16) } } :=
  (bodyLatencyErase_key h0 hk).trans (if_neg (by simp [savingErased, h]))

end

/-- Settles O35: each command by the outcome of its checks, then what becomes of the edges, cancels and records that it leaves. -/
theorem schedulerCommands : Obligations.SchedulerCommands := by
  refine ⟨fun i f s => rfl, cmdEdge_fields, fun s d o hp ho => ?_, fun s o e c r f hc hr hf => ?_,
    fun s d o u hp ho hat hon hform hqual he hs hne hl hu => ?_, fun s d o n same hp ho hn hsame => ?_,
    fun s m c e hm ho he hq => deliverEdge_queued hm ho he hq, fun s m n e hn h => deliverEdge_absent hn h, deliverAll_eq,
    fun s n m k c hcs hn hw x hx => secReport_counts k hcs hn hw hx, fun s d o g hp ho hg => ?_, fun s d o u hp ho hu => ?_,
    fun s d o hp ho => ?_, fun b s x o hx hop hdue hcs ho ht => cancelBoundary_channel hx hop hdue hcs ho ht,
    fun b s x o hx hop hdue hcs ho ht r hr => ?_, fun s d o a b fits hp ho ha hb hfits => ?_, fun s => rfl, fun s x => mem_latChanged,
    fun s d hp => ?_, fun s => rfl, fun s => ?_, fun x st => ⟨latPut_found x st, fun k hk => latPut_others x hk st⟩,
    fun s d k x hp hk hx => ?_⟩
  · rw [exec_schedChannelCmd_passes hp ho]
    refine ⟨fun h => congrArg _ (bodyChannelCmd_param o h), fun hon hform hqual =>
      ⟨fun he => congrArg _ (bodyChannelCmd_state hon hform hqual he),
        fun x he hx => ⟨fun hm => congrArg _ (bodyChannelCmd_mode hon hform hqual he hx hm),
        fun hm hg => congrArg _ (bodyChannelCmd_gate hon hform hqual he hx hm hg)⟩, fun n x he hs hn hx => ?_⟩⟩
    obtain ⟨hsame, hfull, hqueued⟩ := bodyChannelCmd_pushed hon hform hqual he hs hn hx
    exact ⟨fun h => congrArg _ (hsame h), fun h => congrArg _ (hfull h), fun h => congrArg _ (hqueued h)⟩
  · subst hr hf
    refine ⟨chPush_same hc, chPush_room hc, chPush_full hc, fun p w he hl hp hw => ?_⟩
    rw [chPush_fifth hc he hl hp hw]
    exact ⟨fun h => if_pos h, fun h => if_neg (by simp [h])⟩
  · obtain ⟨v, e, hbody, hrest⟩ := bodyChannelCmd_queues hon (by omega) hqual he hform hat hs hne hl
    rw [exec_schedChannelCmd_passes hp ho, hbody] at hu
    cases hu
    exact ⟨v, e, rfl, hrest⟩
  · subst hn hsame
    rw [exec_schedSectionCmd_passes hp ho]
    refine ⟨fun h => congrArg _ (bodySectionCmd_param o h), fun hon hform hqual =>
      ⟨fun he => congrArg _ (bodySectionCmd_state hon hform hqual he), fun he hm => congrArg _ (bodySectionCmd_mode hon hform hqual he hm),
      fun he hm hg => congrArg _ (bodySectionCmd_gate hon hform hqual he hm hg), fun he hm hg => ?_⟩⟩
    rw [bodySectionCmd_open hon hform hqual he hm hg]
    exact ⟨fun h => congrArg _ (if_pos h), fun h => congrArg _ (if_neg (by rw [Bool.not_eq_true]; exact h))⟩
  · subst hg
    rw [exec_schedGate_passes hp ho]
    exact ⟨fun h => congrArg _ (bodySchedGate_param o h), fun hv he => congrArg _ (bodySchedGate_state hv he),
      fun hv he hm => congrArg _ (bodySchedGate_mode hv he hm), fun hv he hm => congrArg _ (bodySchedGate_taken hv he hm)⟩
  · subst hu
    rw [exec_schedRate_passes hp ho]
    exact ⟨fun h => congrArg _ (bodySchedRate_param o h), fun hf h0 h4 => ⟨fun hu => congrArg _ (bodySchedRate_unit hf h0 h4 hu),
      fun hu => ⟨fun he => congrArg _ (bodySchedRate_state hf h0 h4 hu he), fun he => congrArg _ (bodySchedRate_taken hf h0 h4 hu he)⟩⟩⟩
  · rw [exec_schedCancel_passes hp ho]
    exact ⟨fun he => congrArg _ (bodySchedCancel_pending d he), fun he => congrArg _ (bodySchedCancel_state d he)⟩
  · rw [cancelBoundary_section hx hop hdue hcs ho ht hr]
    exact ⟨fun h => if_pos h, fun h => if_neg h⟩
  · subst ha hb hfits
    rw [exec_schedLatencySet_passes hp ho]
    exact ⟨fun ha hb hd => congrArg _ (bodyLatencySet_taken ha hb hd), fun ha hb hd => congrArg _ (bodyLatencySet_state ha hb hd),
      fun h => congrArg _ (bodyLatencySet_param h)⟩
  · rw [exec_schedLatencySave_passes hp, bodyLatencySave_eq]
    exact ⟨fun h => congrArg _ (if_pos h), fun h => congrArg _ (if_neg h)⟩
  · exact ⟨execLatencyRecordsWritten_deferred, execLatencyRecordsWritten_written⟩
  · subst hk hx
    rw [exec_schedLatencyErase_passes hp]
    exact ⟨fun h => congrArg _ (bodyLatencyErase_param h), fun h0 hk h => congrArg _ (bodyLatencyErase_deferred h0 hk h),
      fun h0 hk h => congrArg _ (bodyLatencyErase_erased h0 hk h)⟩

end Sys2Proof.Machine
end

section
/-! PROOFS. Section scheduling (06): predictors, pre-charges, and the windows in which latencies are learned (R189 to R193, R196, R215,
R216). -/

namespace Sys2Proof.Machine

/-! ## Crossing (R196) -/

/-- A bisection whose upper end has a property finds a number in its span that has it. -/
theorem bisect_hits (q : Nat → Bool) : ∀ fuel lo hi, lo < hi → q hi = true →
    q (bisect q fuel lo hi) = true ∧ lo < bisect q fuel lo hi ∧ bisect q fuel lo hi ≤ hi
  | 0, lo, hi, hlt, hq => ⟨hq, hlt, Nat.le_refl hi⟩
  | fuel + 1, lo, hi, hlt, hq => by
    rw [bisect]
    split
    · exact ⟨hq, hlt, Nat.le_refl hi⟩
    · next hwide =>
      dsimp only
      split
      · next hm =>
        obtain ⟨hhit, hlo, hhi⟩ := bisect_hits q fuel lo ((lo + hi) / 2) (by omega) hm
        exact ⟨hhit, hlo, by omega⟩
      · obtain ⟨hhit, hlo, hhi⟩ := bisect_hits q fuel ((lo + hi) / 2) hi (by omega) hq
        exact ⟨hhit, by omega, hhi⟩

/-- A tick of a crossing lies in the frame, from the tick given on, and the value is reached there. -/
theorem crossTick_reached {x : GeoPt} {v d : Int} {lo n : Nat} (hlo : lo < 48000) (h : crossTick x v d lo = some n) :
    0 ≤ crossing x v d n ∧ lo ≤ n ∧ n < 48000 := by
  rw [← decide_eq_true_iff (p := 0 ≤ crossing x v d n)]
  unfold crossTick at h
  extract_lets q turn last m at h
  have hlast : last = 47999 := rfl
  have hm : lo ≤ m ∧ m ≤ last := by
    simp only [m]
    split <;> omega
  have hm_lo : m = last → lo = m := by
    simp only [m]
    split <;> omega
  split at h
  · next hq => cases h; exact ⟨hq, Nat.le_refl lo, hlo⟩
  · next hq =>
    split at h
    · next hbefore =>
      cases h
      obtain ⟨hhit, hgt, hle⟩ := bisect_hits q 17 lo m hbefore.1 hbefore.2
      exact ⟨hhit, by omega, by omega⟩
    · split at h
      · next hnext => cases h; exact ⟨hnext.2, by omega, by omega⟩
      · next hnext =>
        split at h
        · next hend =>
          cases h
          have hlt : m + 1 < last := by
            refine Nat.lt_of_le_of_ne ?_ fun heq => hnext ⟨heq.le, heq ▸ hend⟩
            refine Nat.succ_le_of_lt (Nat.lt_of_le_of_ne hm.2 fun heq => ?_)
            exact hq (hm_lo heq ▸ heq ▸ hend)
          obtain ⟨hhit, hgt, hle⟩ := bisect_hits q 17 (m + 1) last hlt hend
          exact ⟨hhit, by omega, by omega⟩
        · cases h

/-! ## PREDICTOR_FIRE (R196) -/

section
variable {s : State} {h : Nat} {o p : Obj} {e : Edge} {rest : List Edge} (lag : Nat) (ho : objOf s h = some o) (hp : chPoint s o = some p)
  (hq : (chanOf o).queue = e :: rest)
include ho hp hq

theorem execPredictorFire_crossed {n : Nat} (he : isEnabled o = true) (hc : isChan o = true) (hst : e.st = 2)
    (hn : crossTick (geoOf p).cur e.value e.dir 0 = some n) : execPredictorFire h lag s
      = .next (chFire o e (max s.gtc ((geoOf p).cur.boundary + n)) e.lateBy.isSome (e.lateBy.getD 0)
          (updChan o.idx (fun r => { r with queue := rest }) (toInstant (max s.gtc ((geoOf p).cur.boundary + n) + min lag 96) s))) := by
  simp only [execPredictorFire, ho, hp, hq, he, hc, hst, hn, Bool.not_true, bne_self_eq_false, Bool.or_self, Bool.false_eq_true, if_false]

theorem execPredictorFire_idle (hi : isEnabled o = false ∨ isChan o = false ∨ e.st ≠ 2 ∨ crossTick (geoOf p).cur e.value e.dir 0 = none) :
    execPredictorFire h lag s = .next s := by
  simp only [execPredictorFire, ho, hp, hq]
  split
  · rfl
  · next hrun =>
    simp only [Bool.or_eq_true, Bool.not_eq_true', bne_iff_ne, not_or, Bool.not_eq_false, not_not] at hrun
    obtain ⟨⟨he, hc⟩, hst⟩ := hrun
    rcases hi with hi | hi | hi | hi
    · rw [he] at hi; cases hi
    · rw [hc] at hi; cases hi
    · exact absurd hst hi
    · rw [hi]

end

theorem execPredictorFire_headless {s : State} {h : Nat} (lag : Nat)
    (hi : objOf s h = none ∨ ∃ o, objOf s h = some o ∧ (chPoint s o = none ∨ (chanOf o).queue = [])) :
    execPredictorFire h lag s = .next s := by
  rcases hi with ho | ⟨o, ho, hp | hq⟩
  · simp only [execPredictorFire, ho]
  · simp only [execPredictorFire, ho, hp]
  · simp only [execPredictorFire, ho, hq]
    cases chPoint s o <;> rfl

/-! ## An edge fires (R189, R191) -/

section
variable {s u v w : State} {o c : Obj} {e : Edge} (t : Nat) (late : Bool) (dist : Nat) (hu : u = chReason o.idx 7 s)
  (hc : objAt u o.idx = some c) (hv : v = updChan c.idx (fun r => { r with last := e.on }) (chDrive c e.on u))
  (hw : w = if e.on = true ∧ outForced v (chOut c) = false then flowMark c.idx
      (u.gtc + fxTicks ((chanOf c).latOn + fxOf (u32 c.act 52) + (chSettle c (chanOf c).press u).1)) true v else v)
include hu hc hv hw

/-- An edge whose direction does not learn opens no window: its outcome is reported at once, as NOT_SENSED. -/
theorem chFire_notSensed (hl : learns c e.on = false) : chFire o e t late dist s
    = edgeReport c e.cmd e.on (if late then .late else .fired) dist 9 t (updChan c.idx (fun r => { r with lastReason := 9 }) w) := by
  subst hu hv hw
  simp only [chFire, hc, Bool.not_eq_true]
  rw [if_neg (by simp [hl])]

theorem chFire_learns (hl : learns c e.on = true) : ∃ x : Sample,
    chFire o e t late dist s = updChan c.idx (fun r => { r with windows := r.windows ++ [x] }) w
    ∧ x.on = e.on ∧ x.edge = w.gtc ∧ x.fired = t ∧ x.cmd = e.cmd ∧ x.late = late ∧ x.dist = dist ∧ x.sig = none := by
  subst hu hv hw
  simp only [chFire, hc, Bool.not_eq_true]
  rw [if_pos hl]
  exact ⟨_, rfl, rfl, rfl, rfl, rfl, rfl, rfl, rfl⟩

end

theorem objOf_updChan_none {s : State} {i h : Nat} (f : ChRt → ChRt) (ho : objOf s h = none) : objOf (updChan i f s) h = none := by
  rw [objOf_mapIf (t := updChan i f s) (p := fun o => o.idx = i) (f := fun o => { o with rt := .chan (f (chanOf o)) }) rfl (fun _ => rfl), ho]
  rfl

/-- A channel whose output reference names no object has nothing to drive: only the channel itself goes on. -/
theorem chDrive_unconnected {s : State} {o : Obj} (ht : o.typ = tyNozzle) (ho : objOf s (chOut o) = none) :
    chDrive o true s = updChan o.idx (fun r => { r with output := true, preUntil := none, dryAt := s.gtc, seedPos := none }) s := by
  have hm (t : State) : chMeter t o = none := if_neg (by rw [ht]; decide)
  simp only [chDrive, hm, gateOpen, objOf_updChan_none _ ho, Bool.not_true, Bool.false_eq_true, if_false]

/-- An on edge that nothing senses, of a channel without an output and without windows: only the channel changes. -/
theorem chFire_unconnected {s : State} {o : Obj} {e : Edge} (t dist : Nat) (hat : objAt s o.idx = some o) (ht : o.typ = tyNozzle)
    (hw : (chanOf o).windows = []) (hout : objOf s (chOut o) = none) (hon : e.on = true) (hl : learns o true = false) (hcmd : e.cmd = none) :
    ∃ r, objAt (chFire o e t false dist s) o.idx = some (withChan o r) ∧ r.output = true ∧ r.last = true ∧ r.windows = [] ∧ r.lastReason = 9
      ∧ r.noSample = (chanOf o).noSample ∧ ∀ i, i ≠ o.idx → objAt (chFire o e t false dist s) i = objAt s i := by
  have hu := objAt_updChan (fun r => { r with windows := r.windows.map fun w => if w.reason = 0 then { w with reason := 7 } else w }) hat
  rw [hw, List.map_nil] at hu
  obtain ⟨c, hc⟩ : ∃ c, c = withChan o { chanOf o with windows := [] } := ⟨_, rfl⟩
  obtain ⟨u, hu'⟩ : ∃ u, u = chReason o.idx 7 s := ⟨_, rfl⟩
  obtain ⟨v, hv⟩ : ∃ v, v = updChan c.idx (fun r => { r with last := e.on }) (chDrive c e.on u) := ⟨_, rfl⟩
  have hout' : objOf u (chOut c) = none := by rw [hu', hc]; exact objOf_updChan_none _ hout
  have hfire := chFire_notSensed (e := e) t false dist hu' (by rw [hu', hc]; exact hu) hv rfl (by rw [hon, hc]; exact hl)
  rw [hon, chDrive_unconnected (by rw [hc]; exact ht) hout'] at hv
  have hforced : outForced v (chOut c) = true := by rw [hv, outForced, objOf_updChan_none _ (objOf_updChan_none _ hout')]
  simp only [hforced, Bool.true_eq_false, and_false, if_false, hcmd, edgeReport] at hfire
  have hlast := objAt_updChan (fun r => { r with lastReason := 9 }) (objAt_updChan (fun r => { r with last := true })
    (objAt_updChan (fun r => { r with output := true, preUntil := none, dryAt := u.gtc, seedPos := none }) hu))
  simp only [withChan_withChan, chanOf_withChan] at hlast
  subst hc hv hu'
  rw [hfire]
  refine ⟨_, hlast, rfl, rfl, rfl, rfl, rfl, fun i hi => ?_⟩
  exact (objAt_updChan_other _ _ hi).trans ((objAt_updChan_other _ _ hi).trans ((objAt_updChan_other _ _ hi).trans (objAt_updChan_other _ _ hi)))

/-! ## PRECHARGE_FIRE (R215, R216) -/

section
variable {s : State} {h : Nat} {o p : Obj} {e : Edge} (lag : Nat) (ho : objOf s h = some o) (hp : chPoint s o = some p)
  (hq : (chanOf o).queue.find? (fun e => e.pre.1 == 2) = some e)
include ho hp hq

theorem execPrechargeFire_crossed {n : Nat} (he : isEnabled o = true) (hn : crossTick (geoOf p).cur e.pre.2.1 e.pre.2.2 0 = some n) :
    execPrechargeFire h lag s
      = .next (preRun o (updChan o.idx (fun r => { r with queue := r.queue.map fun y => if y = e then { y with pre := (3, e.pre.2) } else y })
          (toInstant (max s.gtc ((geoOf p).cur.boundary + n) + min lag 96) s))) := by
  simp only [execPrechargeFire, ho, hp, hq, he, hn, Bool.not_true, Bool.false_eq_true, if_false]

theorem execPrechargeFire_idle (hi : isEnabled o = false ∨ crossTick (geoOf p).cur e.pre.2.1 e.pre.2.2 0 = none) :
    execPrechargeFire h lag s = .next s := by
  simp only [execPrechargeFire, ho, hp, hq]
  split
  · rfl
  · next he =>
    rcases hi with hi | hi
    · simp [hi] at he
    · rw [hi]

end

theorem execPrechargeFire_unarmed {s : State} {h : Nat} (lag : Nat)
    (hi : objOf s h = none ∨ ∃ o, objOf s h = some o ∧ (chPoint s o = none ∨ ∀ e ∈ (chanOf o).queue, e.pre.1 ≠ 2)) :
    execPrechargeFire h lag s = .next s := by
  rcases hi with ho | ⟨o, ho, hp | hq⟩
  · simp only [execPrechargeFire, ho]
  · simp only [execPrechargeFire, ho, hp]
  · have hnone : (chanOf o).queue.find? (fun e => e.pre.1 == 2) = none := List.find?_eq_none.mpr fun e he => by simpa using hq e he
    simp only [execPrechargeFire, ho, hnone]
    cases chPoint s o <;> rfl

theorem preRun_unmetered {s : State} {o : Obj} (hm : chMeter s o = none) : preRun o s = s := by
  simp only [preRun, hm]

theorem preRun_metered {s : State} {o a : Obj} (hm : chMeter s o = some a) : preRun o s
    = updChan o.idx (fun r => { r with preUntil := some (s.gtc + u32 o.act 76 * 480) })
      (axTakeTarget a.idx { kind := 3, value := axOfFx (fxF (f32 o.act 72)), dur := u32 o.act 76 } false s) := by
  simp only [preRun, hm, usTicks]

/-! ## The signature lies in its window (R293, R313) -/

section
variable {P : Nat → Prop} {a b : Int} {n : Nat}

theorem bumpPeak_of_forall : ∀ {ys : List (Nat × Int)} {t : Nat} {hi : Int}, P t → (∀ y ∈ ys, P y.1) →
    bumpPeak a b t hi ys = some n → P n
  | [], _, _, _, _, h => by cases h
  | y :: ys, t, hi, ht, hys, h => by
    obtain ⟨hy, hys⟩ := List.forall_mem_cons.mp hys
    rw [bumpPeak] at h
    split at h
    · exact bumpPeak_of_forall hy hys h
    · split at h
      · cases h; exact ht
      · exact bumpPeak_of_forall ht hys h

theorem bump_of_forall : ∀ {ys : List (Nat × Int)} {low : Int}, (∀ y ∈ ys, P y.1) → bump a b low ys = some n → P n
  | [], _, _, h => by cases h
  | y :: ys, low, hys, h => by
    obtain ⟨hy, hys⟩ := List.forall_mem_cons.mp hys
    rw [bump] at h
    split at h
    · exact bump_of_forall hys h
    · split at h
      · exact bumpPeak_of_forall hy hys h
      · exact bump_of_forall hys h

end

theorem signatureOf_within {x : Obj} {on : Bool} {lo hi t0 t : Nat} {codes : List Code} (h : signatureOf x on lo hi t0 codes = some t) :
    lo ≤ t ∧ t ≤ hi := by
  unfold signatureOf at h
  extract_lets inside ys zs at h
  have hin : ∀ y ∈ (runningSums zs).filter inside, lo ≤ y.1 ∧ y.1 ≤ hi := fun y hy => of_decide_eq_true (List.mem_filter.mp hy).2
  split at h
  · cases h
  · next y rest hys =>
    rw [hys] at hin
    exact bump_of_forall (P := fun t => lo ≤ t ∧ t ≤ hi) (List.forall_mem_cons.mp hin).2 h

/-! ## LATENCY_WINDOW_CLOSE (R190 to R193) -/

/-- The reason that a window ends with before its signature is judged: cut short, the one it began with, supply low, meter faulted. -/
def reasonAtEnd (w : Sample) (sig : Option Nat) (low bad : Bool) : Nat :=
  if cutShort w.cut sig then 1 else if w.reason ≠ 0 then w.reason else if low then 3 else if bad then 10 else w.reason

/-- A window with the reason that it ends with. -/
def endedWindow (w : Sample) (sig : Option Nat) (low bad : Bool) : Sample := { w with reason := reasonAtEnd w sig low bad }

theorem endedWindow_eq (w : Sample) (sig : Option Nat) (low bad : Bool) : endedWindow w sig low bad
    = if cutShort w.cut sig then { w with reason := 1 } else if w.reason ≠ 0 then w else if low then { w with reason := 3 }
      else if bad then { w with reason := 10 } else w := by
  unfold endedWindow reasonAtEnd
  split_ifs <;> rfl

section
variable {w : Sample} {sig : Option Nat} {low bad : Bool}

theorem reasonAtEnd_cut (hc : cutShort w.cut sig = true) : reasonAtEnd w sig low bad = 1 := if_pos hc

variable (hc : cutShort w.cut sig = false)
include hc

theorem reasonAtEnd_first (h : w.reason ≠ 0) : reasonAtEnd w sig low bad = w.reason := by
  rw [reasonAtEnd, if_neg (by simp [hc]), if_pos h]

variable (h0 : w.reason = 0)
include h0

theorem reasonAtEnd_low (hl : low = true) : reasonAtEnd w sig low bad = 3 := by
  rw [reasonAtEnd, if_neg (by simp [hc]), if_neg (by simp [h0]), if_pos hl]

theorem reasonAtEnd_meter (hl : low = false) (hb : bad = true) : reasonAtEnd w sig low bad = 10 := by
  rw [reasonAtEnd, if_neg (by simp [hc]), if_neg (by simp [h0]), if_neg (by simp [hl]), if_pos hb]

theorem reasonAtEnd_none (hl : low = false) (hb : bad = false) : reasonAtEnd w sig low bad = 0 := by
  rw [reasonAtEnd, if_neg (by simp [hc]), if_neg (by simp [h0]), if_neg (by simp [hl]), if_neg (by simp [hb]), h0]

end

section
variable {o : Obj} {w : Sample} {sig : Option Nat} {r : ChRt}

theorem closeWindow_failed (hr : w.reason ≠ 0) : closeWindow o w sig r = (w.reason, r) := if_pos hr

theorem closeWindow_unsensed (hr : w.reason = 0) (hs : sig = none) : closeWindow o w sig r = (4, r) := by
  unfold closeWindow
  dsimp only
  rw [if_neg (by simp [hr]), hs]

section
variable {t : Nat} {y lat : Fx} (hr : w.reason = 0) (hs : sig = some t) (hy : y = fxFrac ((t : Int) - w.edge) 480)
  (hlat : lat = if w.on then r.latOn else r.latOff)
include hr hs hy hlat

/-- An outlier leaves the latency; the sixteenth in a row is to be reported. -/
theorem closeWindow_outlier (ho : 3 * lat < 10 * fxAbs (y - lat)) : closeWindow o w sig r = (5, if w.on
    then { r with rejOn := r.rejOn + 1, shiftOn := if r.rejOn = 15 then some (fxToInt 77 y).toNat else r.shiftOn }
    else { r with rejOff := r.rejOff + 1, shiftOff := if r.rejOff = 15 then some (fxToInt 77 y).toNat else r.shiftOff }) := by
  subst hs hy hlat
  unfold closeWindow
  dsimp only
  rw [if_neg (by simp [hr])]
  refine (if_pos ho).trans ?_
  cases w.on <;> simp only [Nat.reduceEqDiff] <;> rfl

theorem closeWindow_sample (hi : 10 * fxAbs (y - lat) ≤ 3 * lat) : closeWindow o w sig r = (0, if w.on
    then { r with rejOn := 0, latOn := learned o.act lat y, samplesOn := satInc 16 r.samplesOn }
    else { r with rejOff := 0, latOff := learned o.act lat y, samplesOff := satInc 16 r.samplesOff }) := by
  subst hs hy hlat
  unfold closeWindow
  dsimp only
  rw [if_neg (by simp [hr])]
  exact if_neg (Int.not_lt.mpr hi)

end

/-- A window leaves the queue, the output and the counts of edges without a sample as they are; without a sample, the latencies too. -/
theorem closeWindow_keeps (o : Obj) (w : Sample) (sig : Option Nat) (r : ChRt) : (closeWindow o w sig r).2.queue = r.queue
    ∧ (closeWindow o w sig r).2.output = r.output ∧ (closeWindow o w sig r).2.last = r.last ∧ (closeWindow o w sig r).2.noSample = r.noSample
    ∧ (closeWindow o w sig r).2.stuck = r.stuck
    ∧ ((closeWindow o w sig r).1 ≠ 0 → (closeWindow o w sig r).2.latOn = r.latOn ∧ (closeWindow o w sig r).2.latOff = r.latOff) := by
  by_cases hr : w.reason = 0
  · cases hs : sig with
    | none =>
      rw [closeWindow_unsensed hr rfl]
      exact ⟨rfl, rfl, rfl, rfl, rfl, fun _ => ⟨rfl, rfl⟩⟩
    | some t =>
      rcases lt_or_ge (3 * if w.on then r.latOn else r.latOff)
        (10 * fxAbs (fxFrac ((t : Int) - w.edge) 480 - if w.on then r.latOn else r.latOff)) with ho | hi
      · rw [closeWindow_outlier hr rfl rfl rfl ho]
        cases w.on <;> exact ⟨rfl, rfl, rfl, rfl, rfl, fun _ => ⟨rfl, rfl⟩⟩
      · rw [closeWindow_sample hr rfl rfl rfl hi]
        cases w.on <;> exact ⟨rfl, rfl, rfl, rfl, rfl, fun h => absurd rfl h⟩
  · rw [closeWindow_failed hr]
    exact ⟨rfl, rfl, rfl, rfl, rfl, fun _ => ⟨rfl, rfl⟩⟩

end

/-- Only what the channel tells of its flow differs. -/
def FlowsOnly (q r : ChRt) : Prop := r = { q with flowing := r.flowing, tOn := r.tOn, tOff := r.tOff, flows := r.flows }

theorem FlowsOnly.refl (q : ChRt) : FlowsOnly q q := rfl
theorem flowsOnly_reflow (old new : Nat) (on : Bool) (q : ChRt) : FlowsOnly q (reflow old new on q) := rfl
theorem FlowsOnly.unflow {q r : ChRt} (t was now : Nat) (h : FlowsOnly q r) : FlowsOnly q (unflow t was now r) := by
  rw [FlowsOnly] at h ⊢
  rw [Machine.unflow, h]

/-- The flow of a channel after a window: a learned interval is put right, one that did not begin is taken back (R189). -/
def flowAfter (o : Obj) (w : Sample) (sig : Option Nat) (now k : Nat) (r : ChRt) : ChRt :=
  let r := match k, sig with
    | 0, some t => reflow w.prov (t + fxTicks (fxOf (u32 o.act 52) + if w.on then w.settle else 0)) w.on r
    | _, _ => r
  if (o.typ == tyNozzle && bit (chFlags o) 1) = true ∧ w.on = true ∧ k = 4 then unflow w.prov w.was now r else r

theorem flowsOnly_flowAfter (o : Obj) (w : Sample) (sig : Option Nat) (now k : Nat) (r : ChRt) : FlowsOnly r (flowAfter o w sig now k r) := by
  unfold flowAfter
  extract_lets q
  have hq : FlowsOnly r q := by
    simp only [q]
    split
    · exact flowsOnly_reflow ..
    · exact .refl r
  split
  · exact hq.unflow ..
  · exact hq

/-- An on edge of a confirm-flagged NOZZLE without a signature leaves no interval open. -/
theorem flowAfter_unconfirmed {o : Obj} {w : Sample} (sig : Option Nat) (now : Nat) {k : Nat} (r : ChRt) (ht : o.typ = tyNozzle)
    (hf : bit (chFlags o) 1 = true) (hon : w.on = true) (hk : k = 4) : (flowAfter o w sig now k r).flowing = false := by
  unfold flowAfter
  dsimp only
  rw [if_pos ⟨by simp [ht, hf], hon, hk⟩]
  rfl

/-- The channel without its oldest window, with the reason and the count of its outcome `x`. -/
def windowCounted (ws : List Sample) (x : Nat × ChRt) : ChRt :=
  { x.2 with windows := ws, lastReason := x.1, noSample := if x.1 = 0 then x.2.noSample else satInc 32 x.2.noSample }

/-- The channel after its oldest window with outcome `x`: its reason and counts, and its flow. -/
def windowClosed (o : Obj) (w : Sample) (ws : List Sample) (sig : Option Nat) (now : Nat) (x : Nat × ChRt) : ChRt :=
  let r := flowAfter o w sig now x.1 (windowCounted ws x)
  if w.on then { r with stuck := if x.1 = 4 then r.stuck + 1 else 0 } else r

/-- Beside what it tells of its flow, the closed window changes the windows, the reason and the counts. -/
theorem windowClosed_eq (o : Obj) (w : Sample) (ws : List Sample) (sig : Option Nat) (now : Nat) (x : Nat × ChRt) :
    windowClosed o w ws sig now x = { windowCounted ws x with
      stuck := if w.on then (if x.1 = 4 then x.2.stuck + 1 else 0) else x.2.stuck
      flowing := (windowClosed o w ws sig now x).flowing, tOn := (windowClosed o w ws sig now x).tOn
      tOff := (windowClosed o w ws sig now x).tOff, flows := (windowClosed o w ws sig now x).flows } := by
  unfold windowClosed
  extract_lets r
  have hr : FlowsOnly (windowCounted ws x) r := flowsOnly_flowAfter o w sig now x.1 _
  rw [FlowsOnly] at hr
  cases w.on
  · exact hr
  · rw [hr]; rfl

section
variable (o : Obj) (w : Sample) (ws : List Sample) (sig : Option Nat) (now : Nat) (x : Nat × ChRt)

@[simp] theorem windowClosed_windows : (windowClosed o w ws sig now x).windows = ws := (congrArg ChRt.windows (windowClosed_eq ..)).trans rfl
@[simp] theorem windowClosed_lastReason : (windowClosed o w ws sig now x).lastReason = x.1 :=
  (congrArg ChRt.lastReason (windowClosed_eq ..)).trans rfl
@[simp] theorem windowClosed_queue : (windowClosed o w ws sig now x).queue = x.2.queue := (congrArg ChRt.queue (windowClosed_eq ..)).trans rfl
@[simp] theorem windowClosed_output : (windowClosed o w ws sig now x).output = x.2.output := (congrArg ChRt.output (windowClosed_eq ..)).trans rfl
@[simp] theorem windowClosed_last : (windowClosed o w ws sig now x).last = x.2.last := (congrArg ChRt.last (windowClosed_eq ..)).trans rfl
@[simp] theorem windowClosed_latOn : (windowClosed o w ws sig now x).latOn = x.2.latOn := (congrArg ChRt.latOn (windowClosed_eq ..)).trans rfl
@[simp] theorem windowClosed_latOff : (windowClosed o w ws sig now x).latOff = x.2.latOff := (congrArg ChRt.latOff (windowClosed_eq ..)).trans rfl
@[simp] theorem windowClosed_samplesOn : (windowClosed o w ws sig now x).samplesOn = x.2.samplesOn :=
  (congrArg ChRt.samplesOn (windowClosed_eq ..)).trans rfl
@[simp] theorem windowClosed_samplesOff : (windowClosed o w ws sig now x).samplesOff = x.2.samplesOff :=
  (congrArg ChRt.samplesOff (windowClosed_eq ..)).trans rfl
@[simp] theorem windowClosed_rejOn : (windowClosed o w ws sig now x).rejOn = x.2.rejOn := (congrArg ChRt.rejOn (windowClosed_eq ..)).trans rfl
@[simp] theorem windowClosed_rejOff : (windowClosed o w ws sig now x).rejOff = x.2.rejOff := (congrArg ChRt.rejOff (windowClosed_eq ..)).trans rfl
@[simp] theorem windowClosed_shiftOn : (windowClosed o w ws sig now x).shiftOn = x.2.shiftOn := (congrArg ChRt.shiftOn (windowClosed_eq ..)).trans rfl
@[simp] theorem windowClosed_shiftOff : (windowClosed o w ws sig now x).shiftOff = x.2.shiftOff :=
  (congrArg ChRt.shiftOff (windowClosed_eq ..)).trans rfl
@[simp] theorem windowClosed_noSample : (windowClosed o w ws sig now x).noSample = if x.1 = 0 then x.2.noSample else satInc 32 x.2.noSample :=
  (congrArg ChRt.noSample (windowClosed_eq ..)).trans rfl
@[simp] theorem windowClosed_stuck : (windowClosed o w ws sig now x).stuck
    = if w.on then (if x.1 = 4 then x.2.stuck + 1 else 0) else x.2.stuck := (congrArg ChRt.stuck (windowClosed_eq ..)).trans rfl

end

theorem windowClosed_unconfirmed {o : Obj} {w : Sample} (ws : List Sample) (sig : Option Nat) (now : Nat) {x : Nat × ChRt} (ht : o.typ = tyNozzle)
    (hf : bit (chFlags o) 1 = true) (hon : w.on = true) (hk : x.1 = 4) : (windowClosed o w ws sig now x).flowing = false := by
  unfold windowClosed
  dsimp only
  rw [if_pos hon]
  exact flowAfter_unconfirmed sig now _ ht hf hon hk

section
variable {o : Obj} {w v : Sample} (ws : List Sample) {sig : Option Nat} (now : Nat) {x : Nat × ChRt} {t : Nat} {y lat : Fx}
  (hx : x = closeWindow o v sig (chanOf o)) (hr : v.reason = 0) (hs : sig = some t) (hy : y = fxFrac ((t : Int) - v.edge) 480)
  (hlat : lat = if v.on then (chanOf o).latOn else (chanOf o).latOff)
include hx hr hs hy hlat

/-- A sample near the latency moves it, within its limits, and ends the row of outliers. -/
theorem windowClosed_sample (hi : 10 * fxAbs (y - lat) ≤ 3 * lat) : x.1 = 0
    ∧ (v.on = true → (windowClosed o w ws sig now x).rejOn = 0 ∧ (windowClosed o w ws sig now x).samplesOn = satInc 16 (chanOf o).samplesOn
      ∧ (windowClosed o w ws sig now x).latOff = (chanOf o).latOff ∧ (windowClosed o w ws sig now x).latOn = learned o.act lat y)
    ∧ (v.on = false → (windowClosed o w ws sig now x).rejOff = 0 ∧ (windowClosed o w ws sig now x).samplesOff = satInc 16 (chanOf o).samplesOff
      ∧ (windowClosed o w ws sig now x).latOn = (chanOf o).latOn ∧ (windowClosed o w ws sig now x).latOff = learned o.act lat y) := by
  rw [closeWindow_sample hr hs hy hlat hi] at hx
  subst hx
  exact ⟨rfl, fun hon => by simp [hon], fun hoff => by simp [hoff]⟩

theorem windowClosed_outlier (hi : 3 * lat < 10 * fxAbs (y - lat)) : x.1 = 5
    ∧ (v.on = true → (windowClosed o w ws sig now x).rejOn = (chanOf o).rejOn + 1
      ∧ (windowClosed o w ws sig now x).shiftOn = if (chanOf o).rejOn = 15 then some (fxToInt 77 y).toNat else (chanOf o).shiftOn)
    ∧ (v.on = false → (windowClosed o w ws sig now x).rejOff = (chanOf o).rejOff + 1
      ∧ (windowClosed o w ws sig now x).shiftOff = if (chanOf o).rejOff = 15 then some (fxToInt 77 y).toNat else (chanOf o).shiftOff) := by
  rw [closeWindow_outlier hr hs hy hlat hi] at hx
  subst hx
  exact ⟨rfl, fun hon => by simp [hon], fun hoff => by simp [hoff]⟩

end

section
variable {s u : State} {h : Nat} {o : Obj}

theorem execLatencyWindowClose_idle (vbat t0 : Nat) (codes : List Code)
    (hi : objOf s h = none ∨ ∃ o, objOf s h = some o ∧ (chanOf o).windows = []) : execLatencyWindowClose h vbat t0 codes s = .next s := by
  rcases hi with ho | ⟨o, ho, hw⟩
  · simp only [execLatencyWindowClose, ho]
  · simp only [execLatencyWindowClose, ho, hw]

/-- The meter of a ROW has a fault. -/
def meterBad (s : State) (o : Obj) : Bool := o.typ == tyRow && ((chMeter s o).map fun a => a.ost == .faulted).getD false

theorem meterBad_true {a : Obj} (ht : o.typ = tyRow) (ha : chMeter u o = some a) (hf : a.ost = .faulted) : meterBad u o = true := by
  simp [meterBad, ht, ha, hf]

theorem meterBad_false (hi : o.typ ≠ tyRow ∨ ∀ a, chMeter u o = some a → a.ost ≠ .faulted) : meterBad u o = false := by
  rcases hi with ht | ha
  · simp [meterBad, ht]
  · cases hm : chMeter u o with
    | none => simp [meterBad, hm]
    | some a => simp [meterBad, hm, ha a hm]

/-- The oldest window closes: its outcome is judged, kept and reported. -/
theorem execLatencyWindowClose_closes {w : Sample} {ws : List Sample} {sig : Option Nat} {low : Bool} {x : Nat × ChRt} (vbat t0 : Nat)
    (codes : List Code) (ho : objOf s h = some o) (hw : (chanOf o).windows = w :: ws) (hu : u = toInstant (windowEnds o w) s)
    (hsig : sig = if o.typ = tyRow then w.sig.filter (fun t => decide ((learnSpan o w.edge).1 ≤ t ∧ t ≤ (learnSpan o w.edge).2))
      else (objOf u (chSense u o)).bind fun x => signatureOf x w.on (learnSpan o w.edge).1 (learnSpan o w.edge).2 t0 codes)
    (hlow : low = (decide (vbat < u16 o.act 60) || s.pwr.vbatLow.getD (senseGroup u (chSense u o)) false))
    (hx : x = closeWindow o (endedWindow w sig low (meterBad u o)) sig (chanOf o)) :
    execLatencyWindowClose h vbat t0 codes s = .next (edgeReport o w.cmd w.on (if w.late then .late else .fired) w.dist x.1 w.fired
      (updChan o.idx (fun _ => windowClosed o w ws sig u.gtc x) u)) := by
  subst hx
  rw [← toInstant_pwr (windowEnds o w) s, ← hu] at hlow
  unfold execLatencyWindowClose
  rw [ho]
  dsimp only
  rw [hw]
  dsimp only
  rw [← hu]
  have hsig' : (if (o.typ == tyRow) = true then w.sig.filter (fun t => decide ((learnSpan o w.edge).1 ≤ t ∧ t ≤ (learnSpan o w.edge).2))
      else (objOf u (chSense u o)).bind fun x => signatureOf x w.on (learnSpan o w.edge).1 (learnSpan o w.edge).2 t0 codes) = sig := by
    rw [hsig]; simp only [beq_iff_eq]
  have hended := endedWindow_eq w sig low (meterBad u o)
  rw [hsig', ← hlow]
  rw [show (o.typ == tyRow && ((chMeter u o).map fun a => a.ost == .faulted).getD false) = meterBad u o from rfl, ← hended]
  rfl

end

end Sys2Proof.Machine
end

section
/-! PROOFS. Section scheduling (06): the events of learned valves and dry rows, the records of a section and its reported times (R193,
R202, R207, R217). -/

namespace Sys2Proof.Machine

/-! ## SCHED_LATENCY_SHIFT and SCHED_VALVE_STUCK (R193) -/

section
variable {s : State} {h : Nat} {o : Obj} (ho : objOf s h = some o)
include ho

theorem execSchedLatencyShift_on {us : Nat} (hs : (chanOf o).shiftOn = some us) : execSchedLatencyShift h s
    = .next (raiseE 0x0643 0 h o.epoch ([1, 0, 0, 0] ++ leBytes 4 us) (updChan o.idx (fun r => { r with shiftOn := none }) s)) := by
  simp only [execSchedLatencyShift, ho, hs]
  rfl

theorem execSchedLatencyShift_off {us : Nat} (hn : (chanOf o).shiftOn = none) (hs : (chanOf o).shiftOff = some us) : execSchedLatencyShift h s
    = .next (raiseE 0x0643 0 h o.epoch ([0, 0, 0, 0] ++ leBytes 4 us) (updChan o.idx (fun r => { r with shiftOff := none }) s)) := by
  simp only [execSchedLatencyShift, ho, hn, hs]
  rfl

theorem execSchedLatencyShift_idle (hn : (chanOf o).shiftOn = none) (hf : (chanOf o).shiftOff = none) : execSchedLatencyShift h s = .next s := by
  simp only [execSchedLatencyShift, ho, hn, hf]

theorem execSchedValveStuck_faults (ht : o.typ = tyNozzle) (hf : bit (chFlags o) 1 = true) (hk : 3 ≤ (chanOf o).stuck) :
    execSchedValveStuck h s = .next (class1 h 0x0644 [] (updChan o.idx (fun r => { r with stuck := 0 }) s)) := by
  simp only [execSchedValveStuck, ho, if_pos (And.intro ht (And.intro hf hk))]

theorem execSchedValveStuck_idle (hi : o.typ ≠ tyNozzle ∨ bit (chFlags o) 1 = false ∨ (chanOf o).stuck < 3) :
    execSchedValveStuck h s = .next s := by
  have hno : ¬ (o.typ = tyNozzle ∧ bit (chFlags o) 1 = true ∧ 3 ≤ (chanOf o).stuck) := by
    rintro ⟨ht, hf, hk⟩
    rcases hi with hi | hi | hi
    · exact hi ht
    · rw [hf] at hi; cases hi
    · omega
  simp only [execSchedValveStuck, ho, if_neg hno]

end

theorem valveEvents_absent {s : State} {h : Nat} (ho : objOf s h = none) :
    execSchedLatencyShift h s = .next s ∧ execSchedValveStuck h s = .next s := by
  simp only [execSchedLatencyShift, execSchedValveStuck, ho, and_self]

/-! ## SECTION_RECORD_RECEIVE (R202, R232) -/

/-- The edge that a section record spells. -/
def recordEdge (rec : List Byte) : Edge :=
  { on := bit (u8 rec 4) 0, form := u8 rec 5, qual := if bit (u8 rec 4) 2 then -1 else 1, cmd := some farCmd, whenAt := i64 rec 8
    tc := bit (u8 rec 4) 1 }

/-- What a member holds of a section changes. -/
def updSecView (h : Nat) (f : SecView → SecView) (s : State) : State :=
  { s with osl := { s.osl with secs := s.osl.secs.map fun v => if v.sec = h then f v else v } }

/-- The line of two records: its first half as the member holds it, and the second. -/
def recordLine (rec : List Byte) (s : State) : List Int :=
  let half := ((s.osl.secs.find? fun v => v.sec == u32 rec 0).map (·.half)).getD []
  (List.range 4).map fun j => i32 (padTo 8 half ++ slice rec 8 8) (4 * j)

/-- The outcome that a record of an outcome tells. -/
def recordOutcome (k : Nat) : EdgeEnd :=
  if k = 128 then .fired else if k = 129 then .late else if k = 130 then .lateDropped else if k = 131 then .behind
  else if k = 132 then .cancelled else .absent

/-- The queues of the section's channels are cleared, and their count goes back to the lead. -/
def recordCancel (h : Nat) (s : State) : State :=
  let r := cancelQueues ((s.osl.secs.filter fun v => v.sec == h).map (·.chan)) s
  { r.2 with osl := { r.2.osl with outbox := r.2.osl.outbox ++
    [{ kind := .sect, dst := 0, src := r.2.osl.position, body := leBytes 4 h ++ [0, 0x42, 0, 0] ++ leBytes 8 r.1 }] } }

section
variable {s : State} {pos : Nat} {rec : List Byte}

/-- Records by their kind: below 128, other than to the lead. -/
theorem execSectionRecordReceive_member (hk : u8 rec 5 < 128) (h40 : u8 rec 5 ≠ 0x40) (h42 : u8 rec 5 ≠ 0x42) :
    execSectionRecordReceive pos rec s = .next (if u8 rec 5 ≤ 1 then memberEdge (u32 rec 0) (recordEdge rec) s
      else if u8 rec 5 = 2 then updSecView (u32 rec 0) (fun v => { v with half := slice rec 8 8 }) s
      else if u8 rec 5 = 0x22 then memberEdge (u32 rec 0) { recordEdge rec with form := 2, whenAt := 0, line := recordLine rec s } s
      else if u8 rec 5 = 0x21 then updSecView (u32 rec 0) (fun v => { v with tq := u64 rec 8 }) s
      else if u8 rec 5 = 0x20 then recordCancel (u32 rec 0) s
      else s) := by
  unfold execSectionRecordReceive
  dsimp only
  rw [if_neg (by omega), if_neg h40, if_neg h42]
  rfl

theorem execSectionRecordReceive_edge (hk : u8 rec 5 ≤ 1) :
    execSectionRecordReceive pos rec s = .next (memberEdge (u32 rec 0) (recordEdge rec) s) := by
  rw [execSectionRecordReceive_member (by omega) (by omega) (by omega), if_pos hk]

theorem execSectionRecordReceive_half (hk : u8 rec 5 = 2) : execSectionRecordReceive pos rec s
    = .next (updSecView (u32 rec 0) (fun v => { v with half := slice rec 8 8 }) s) := by
  rw [execSectionRecordReceive_member (by omega) (by omega) (by omega), if_neg (by omega), if_pos hk]

theorem execSectionRecordReceive_line (hk : u8 rec 5 = 0x22) : execSectionRecordReceive pos rec s
    = .next (memberEdge (u32 rec 0) { recordEdge rec with form := 2, whenAt := 0, line := recordLine rec s } s) := by
  rw [execSectionRecordReceive_member (by omega) (by omega) (by omega), if_neg (by omega), if_neg (by omega), if_pos hk]

theorem execSectionRecordReceive_tq (hk : u8 rec 5 = 0x21) : execSectionRecordReceive pos rec s
    = .next (updSecView (u32 rec 0) (fun v => { v with tq := u64 rec 8 }) s) := by
  rw [execSectionRecordReceive_member (by omega) (by omega) (by omega), if_neg (by omega), if_neg (by omega), if_neg (by omega), if_pos hk]

theorem execSectionRecordReceive_cancel (hk : u8 rec 5 = 0x20) : execSectionRecordReceive pos rec s = .next (recordCancel (u32 rec 0) s) := by
  rw [execSectionRecordReceive_member (by omega) (by omega) (by omega), if_neg (by omega), if_neg (by omega), if_neg (by omega),
    if_neg (by omega), if_pos hk]

theorem execSectionRecordReceive_other (hlo : 2 < u8 rec 5) (hk : u8 rec 5 < 128) (h20 : u8 rec 5 ≠ 0x20) (h21 : u8 rec 5 ≠ 0x21)
    (h22 : u8 rec 5 ≠ 0x22) (h40 : u8 rec 5 ≠ 0x40) (h42 : u8 rec 5 ≠ 0x42) : execSectionRecordReceive pos rec s = .next s := by
  rw [execSectionRecordReceive_member hk h40 h42, if_neg (by omega), if_neg (by omega), if_neg h22, if_neg h21, if_neg h20]

theorem execSectionRecordReceive_part {o : Obj} (hk : u8 rec 5 = 0x40) (ho : objOf s (u32 rec 0) = some o) :
    execSectionRecordReceive pos rec s = .next (updSec o.idx (fun r => { r with
      parts := r.parts.filter (fun x => x.1 != pos) ++ [(pos, f32 rec 8, s.gtc)] }) s) := by
  unfold execSectionRecordReceive
  dsimp only
  rw [if_neg (by omega), if_pos hk, ho]

theorem execSectionRecordReceive_partAbsent (hk : u8 rec 5 = 0x40) (ho : objOf s (u32 rec 0) = none) :
    execSectionRecordReceive pos rec s = .next s := by
  unfold execSectionRecordReceive
  dsimp only
  rw [if_neg (by omega), if_pos hk, ho]

theorem execSectionRecordReceive_count (hk : u8 rec 5 = 0x42) :
    execSectionRecordReceive pos rec s = .next (cancelReport pos (u32 rec 0) (u64 rec 8) s) := by
  unfold execSectionRecordReceive
  dsimp only
  rw [if_neg (by omega), if_neg (by omega), if_pos hk]

theorem execSectionRecordReceive_outcome {c : SecCmd} (hk : 128 ≤ u8 rec 5)
    (hc : s.sched.cmds.find? (fun c => c.wait.contains (pos, u32 rec 0)) = some c) :
    execSectionRecordReceive pos rec s = .next (secReport c.cmd (pos, u32 rec 0) (recordOutcome (u8 rec 5)) s) := by
  unfold execSectionRecordReceive
  dsimp only
  rw [if_pos hk, hc]
  rfl

theorem execSectionRecordReceive_unasked (hk : 128 ≤ u8 rec 5) (hc : ∀ c ∈ s.sched.cmds, (pos, u32 rec 0) ∉ c.wait) :
    execSectionRecordReceive pos rec s = .next s := by
  have hnone : s.sched.cmds.find? (fun c => c.wait.contains (pos, u32 rec 0)) = none :=
    List.find?_eq_none.mpr fun c hm => by simpa using hc c hm
  unfold execSectionRecordReceive
  dsimp only
  rw [if_pos hk, hnone]

end

/-- A signed field within the first of two blocks, and within the second. -/
theorem i32_append_left {a : List Byte} {off : Nat} (c : List Byte) (h : off + 4 ≤ a.length) : i32 (a ++ c) off = i32 a off := by
  have hs := slice_append_mid (a := []) (c := c) (n := 0) rfl h
  rw [Nat.zero_add, List.nil_append] at hs
  rw [i32, u32, hs, i32, u32]

theorem i32_append_right {a c : List Byte} {n off : Nat} (ha : a.length = n) (h : off + 4 ≤ c.length) : i32 (a ++ c) (n + off) = i32 c off := by
  have hs := slice_append_mid (c := []) ha h
  rw [List.append_nil] at hs
  rw [i32, u32, hs, i32, u32]

theorem i32_slice {bs : List Byte} {o n off : Nat} (h : off + 4 ≤ n) : i32 (slice bs o n) off = i32 bs (o + off) := by
  have hs : slice (slice bs o n) off 4 = slice bs (o + off) 4 := by
    rw [slice_eq_map (slice bs o n), slice_eq_map bs (o + off)]
    refine List.map_congr_left fun j hj => ?_
    have hj := List.mem_range.mp hj
    rw [slice_eq_map, List.getD_eq_getElem?_getD, List.getElem?_map, List.getElem?_range (by omega)]
    simp [Nat.add_assoc]
  rw [i32, u32, hs, i32, u32]

/-- The line of a LINE edge has the two places of its two records. -/
theorem recordLine_eq {s : State} {rec : List Byte} {v : SecView} (hv : s.osl.secs.find? (fun v => v.sec == u32 rec 0) = some v)
    (hl : v.half.length = 8) : recordLine rec s = [i32 v.half 0, i32 v.half 4, i32 rec 8, i32 rec 12] := by
  have hpad : padTo 8 v.half = v.half := by rw [padTo, List.take_append_of_le_length (by omega), List.take_of_length_le (by omega)]
  have h0 := i32_append_left (a := v.half) (off := 0) (slice rec 8 8) (by omega)
  have h4 := i32_append_left (a := v.half) (off := 4) (slice rec 8 8) (by omega)
  have h8 := (i32_append_right (off := 0) hl (by simp)).trans (i32_slice (bs := rec) (o := 8) (n := 8) (by omega))
  have h12 := (i32_append_right (off := 4) hl (by simp)).trans (i32_slice (bs := rec) (o := 8) (n := 8) (by omega))
  simp only [recordLine, hv, Option.map_some, Option.getD_some, hpad]
  exact congrArg₂ _ h0 (congrArg₂ _ h4 (congrArg₂ _ h8 (congrArg₂ _ h12 rfl)))

section
variable {s : State} {h : Nat} {e : Edge} {v : SecView} {o : Obj} (hv : s.osl.secs.filter (fun v => v.sec == h) = [v])
  (ho : objOf s v.chan = some o) (hc : isChan o = true)
include hv ho hc

theorem memberEdge_queued (he : isEnabled o = true) (hq : (chPush o e s).1 = .queued) : memberEdge h e s = (chPush o e s).2 := by
  simp only [memberEdge, hv, List.foldl_cons, List.foldl_nil, ho, hc, he, Bool.not_true, Bool.false_eq_true, if_false, if_pos hq]

theorem memberEdge_absent (he : isEnabled o = false) : memberEdge h e s = edgeReport o e.cmd e.on .absent 0 0 s.gtc s := by
  simp only [memberEdge, hv, List.foldl_cons, List.foldl_nil, ho, hc, he, Bool.not_true, Bool.not_false, Bool.false_eq_true, if_false, if_true]

end

/-! ## TC_TIMES_RESEND (R207) -/

theorem exec_tcTimesResend (h : Nat) (s : State) : exec (.tcTimesResend h) s = execTcTimesResend h s := rfl

/-- A time has moved by more than 10 ms. -/
def timeMoved (x y : Nat) : Prop := x + 10 < y ∨ y + 10 < x

/-- A section whose times are to be sent again. -/
def TimesDue (o : Obj) : Prop := o.typ = tySection ∧ isEnabled o = true ∧ u8 o.act 16 = 1
  ∧ (timeMoved (secOf o).nowOn (secOf o).repOn ∨ timeMoved (secOf o).nowOff (secOf o).repOff)

/-- The times are kept as reported at the instant, and told to the host. -/
def timesReported (h : Nat) (o : Obj) (b : State) : State :=
  raiseE 0x0649 0 h o.epoch (satBytes 2 (secOf o).nowOn ++ satBytes 2 (secOf o).nowOff)
    (updSec o.idx (fun r => { r with repOn := r.nowOn, repOff := r.nowOff, repAt := b.gtc }) b)

section
variable {s : State} {h : Nat} {o : Obj} (ho : objOf s h = some o)
include ho

theorem execTcTimesResend_due (hd : TimesDue o) : execTcTimesResend h s
    = .next (if (timesReported h o (toInstant ((secOf o).repAt + 960000000) s)).isb.tc ≠ 4 then
        timesReported h o (toInstant ((secOf o).repAt + 960000000) s)
      else pdSend (.section_ (u16 o.act 34)) .offTime (pdSend (.section_ (u16 o.act 34)) .onTime
        (timesReported h o (toInstant ((secOf o).repAt + 960000000) s)))) := by
  obtain ⟨ht, he, hm, hmoved⟩ := hd
  unfold execTcTimesResend
  rw [ho]
  dsimp only
  rw [if_pos ⟨ht, he, hm, by simpa only [Bool.or_eq_true, decide_eq_true_eq, timeMoved] using hmoved⟩]
  rfl

theorem execTcTimesResend_idle (hd : ¬ TimesDue o) : execTcTimesResend h s = .next s := by
  unfold execTcTimesResend
  rw [ho]
  dsimp only
  rw [if_neg fun hc => hd ⟨hc.1, hc.2.1, hc.2.2.1, by simpa only [Bool.or_eq_true, decide_eq_true_eq, timeMoved] using hc.2.2.2⟩]

end

theorem Touches.isb {s t : State} (h : Touches s t) : t.isb = s.isb := by rw [h.frame]

theorem timesReported_tc (h : Nat) (o : Obj) (t : Nat) (s : State) : (timesReported h o (toInstant t s)).isb.tc = s.isb.tc := by
  rw [timesReported, (touches_raiseE ..).isb, updSec, updObj_isb, toInstant_isb]

theorem execTcTimesResend_absent {s : State} {h : Nat} (ho : objOf s h = none) : execTcTimesResend h s = .next s := by
  simp only [execTcTimesResend, ho]

/-! ## ROW_NO_SEED (R217) -/

/-- A row that is to sow, over ground that moves fast enough for it. -/
def RowDue (s : State) (o p : Obj) : Prop := o.typ = tyRow ∧ isEnabled o = true ∧ (chanOf o).output = true
  ∧ fxOf (kc16 s 152) < fxFrac (geoOf p).cur.v.natAbs 655360000

section
variable {s : State} {h : Nat} {o p : Obj} (ho : objOf s h = some o) (hp : chPoint s o = some p)
include ho hp

theorem execRowNoSeedTimeout_due {u : State} (hd : RowDue s o p) (hu : u = toInstant ((chanOf o).dryAt + u16 o.act 80 * 480000) s) :
    execRowNoSeedTimeout h s = .next (raiseLimited 480000000 0x064B 0 h 0 o.epoch [] 4 4 (updChan o.idx (fun r => { r with dryAt := u.gtc }) u)) := by
  subst hu
  unfold execRowNoSeedTimeout
  rw [ho]
  dsimp only
  rw [hp]
  exact congrArg _ (if_pos hd)

theorem execRowNoSeedTimeout_idle (hd : ¬ RowDue s o p) : execRowNoSeedTimeout h s = .next s := by
  unfold execRowNoSeedTimeout
  rw [ho]
  dsimp only
  rw [hp]
  exact congrArg _ (if_neg hd)

end

theorem execRowNoSeedTimeout_absent {s : State} {h : Nat} (hi : objOf s h = none ∨ ∃ o, objOf s h = some o ∧ chPoint s o = none) :
    execRowNoSeedTimeout h s = .next s := by
  rcases hi with ho | ⟨o, ho, hp⟩
  · simp only [execRowNoSeedTimeout, ho]
  · simp only [execRowNoSeedTimeout, ho, hp]

/-! ## The statement -/

/-- Settles O36: an edge and a pre-charge by what they find, a window by its reason and its signature, a record by its kind. -/
theorem predictorsAndLearning : Obligations.PredictorsAndLearning := by
  refine ⟨fun s h lag o p e rest ho hp hq => ⟨fun n he hc hst hn => execPredictorFire_crossed lag ho hp hq he hc hst hn,
      execPredictorFire_idle lag ho hp hq⟩, fun s h lag hi => execPredictorFire_headless lag hi,
    fun x v d lo n hlo hn => crossTick_reached hlo hn, fun s o c e t late dist u v w hu hc hv hw =>
      ⟨chFire_notSensed t late dist hu hc hv hw, chFire_learns t late dist hu hc hv hw⟩, fun s i t => rfl, fun s o => rfl,
    fun s o e t dist u hat ht hw hout hon hl hcmd hu => ?_, fun s h lag o p e ho hp hq => ⟨fun n he hn =>
      execPrechargeFire_crossed lag ho hp hq he hn, execPrechargeFire_idle lag ho hp hq⟩, fun s h lag hi => execPrechargeFire_unarmed lag hi,
    fun s o => ⟨preRun_unmetered, fun a hm => preRun_metered hm⟩, fun s h vbat t0 codes hi => execLatencyWindowClose_idle vbat t0 codes hi,
    fun x on lo hi t0 codes t ht => signatureOf_within ht, fun s h vbat t0 codes o w ws u span sig low ho hw hu hspan hsig hlow => ?_,
    fun s h o ho => ⟨fun us => execSchedLatencyShift_on ho, fun us => execSchedLatencyShift_off ho, execSchedLatencyShift_idle ho⟩,
    fun s h ho => valveEvents_absent ho, fun s h o ho => ⟨execSchedValveStuck_faults ho, execSchedValveStuck_idle ho⟩,
    fun s pos rec h k e secs hh hk hsecs he => ?_, fun s h e v o hv ho hc => ⟨memberEdge_queued hv ho hc, memberEdge_absent hv ho hc⟩,
    fun s h o a b u moved ho ha hb hm hu => ?_, fun s h o p u ho hp hu => ?_, fun s h hi => execRowNoSeedTimeout_absent hi,
    fun s h ho => execTcTimesResend_absent ho⟩
  · subst hu
    exact chFire_unconnected t dist hat ht hw hout hon hl hcmd
  · subst hspan
    obtain ⟨x, hx⟩ : ∃ x, x = closeWindow o (endedWindow w sig low (meterBad u o)) sig (chanOf o) := ⟨_, rfl⟩
    obtain ⟨hqueue, houtput, hlast, hno, hstuck, hlat⟩ := hx ▸ closeWindow_keeps o (endedWindow w sig low (meterBad u o)) sig (chanOf o)
    have hfailed {n : Nat} (hn : reasonAtEnd w sig low (meterBad u o) = n) (h0 : n ≠ 0) : x.1 = n := by
      rw [hx, closeWindow_failed (by rw [endedWindow, hn]; exact h0)]
      exact hn
    refine ⟨windowClosed o w ws sig u.gtc x, x.1, execLatencyWindowClose_closes vbat t0 codes ho hw hu hsig hlow hx, windowClosed_windows ..,
      windowClosed_lastReason .., (windowClosed_queue ..).trans hqueue, (windowClosed_output ..).trans houtput,
      (windowClosed_last ..).trans hlast, fun hk => ?_, fun hk => ?_, fun hk => ?_, fun hc => hfailed (reasonAtEnd_cut hc) (by decide),
      fun hc h => hfailed (reasonAtEnd_first hc h) h, fun hc h0 hl => hfailed (reasonAtEnd_low hc h0 hl) (by decide),
      fun hc h0 hl ht ⟨a, ha, hf⟩ => hfailed (reasonAtEnd_meter hc h0 hl (meterBad_true ht ha hf)) (by decide),
      fun hc h0 hl hm => ?_, fun ht hf hon hk => windowClosed_unconfirmed ws sig u.gtc ht hf hon hk, fun hon => ?_, fun hoff => ?_⟩
    · rw [windowClosed_noSample, if_pos hk, hno]
    · rw [windowClosed_noSample, if_neg hk, hno]
    · rw [windowClosed_latOn, windowClosed_latOff]
      exact hlat hk
    · have hr : (endedWindow w sig low (meterBad u o)).reason = 0 := reasonAtEnd_none hc h0 hl (meterBad_false hm)
      refine ⟨fun hs => by rw [hx, closeWindow_unsensed hr hs], fun t y lat hs hy hlt => ⟨fun hi => ?_, fun hi => ?_⟩⟩
      · exact windowClosed_sample (v := endedWindow w sig low (meterBad u o)) ws u.gtc hx hr hs hy hlt hi
      · exact windowClosed_outlier (v := endedWindow w sig low (meterBad u o)) ws u.gtc hx hr hs hy hlt hi
    · rw [windowClosed_stuck, if_pos hon, hstuck]
    · rw [windowClosed_stuck, if_neg (by simp [hoff]), hstuck]
  · subst hh hk hsecs he
    refine ⟨execSectionRecordReceive_edge, execSectionRecordReceive_half,
      fun hk => ⟨_, execSectionRecordReceive_line hk, fun v hv hl => recordLine_eq hv hl⟩, execSectionRecordReceive_tq,
      fun hk r hr => hr ▸ execSectionRecordReceive_cancel hk, execSectionRecordReceive_partAbsent, fun o => execSectionRecordReceive_part,
      execSectionRecordReceive_count, fun hk c => execSectionRecordReceive_outcome hk, execSectionRecordReceive_unasked,
      execSectionRecordReceive_other⟩
  · subst ha hm hu hb
    refine ⟨fun ht he hmode hmoved => ?_, fun hi => execTcTimesResend_idle ho ?_⟩
    · rw [exec_tcTimesResend, execTcTimesResend_due ho ⟨ht, he, hmode, hmoved⟩, timesReported_tc]
      exact ⟨fun htc => congrArg _ (if_pos htc), fun htc => congrArg _ (if_neg (not_not.mpr htc))⟩
    · rintro ⟨ht, he, hmode, hmoved⟩
      rcases hi with hi | hi | hi | ⟨hon, hoff⟩
      · exact hi ht
      · rw [he] at hi; cases hi
      · exact hi hmode
      · exact hmoved.elim hon hoff
  · refine ⟨fun ht he hout hv => execRowNoSeedTimeout_due ho hp ⟨ht, he, hout, hv⟩ hu, fun hi => execRowNoSeedTimeout_idle ho hp ?_⟩
    rintro ⟨ht, he, hout, hv⟩
    rcases hi with hi | hi | hi | hi
    · exact hi ht
    · rw [he] at hi; cases hi
    · rw [hout] at hi; cases hi
    · exact absurd hv (not_lt.mpr hi)

end Sys2Proof.Machine
end

section
/-! PROOFS. Rate loops (07): the descriptors of a loop, the end of its transfers, and its following error (R230, R237, R242, R244, R245,
R252, R253). -/

namespace Sys2Proof.Machine

/-! ## The laws of a loop (R229, R242) -/

/-- A change of one law, written out for the two. -/
theorem setLaw_lawOf (f : LawRt → LawRt) (l : Nat) (r : LoopRt) :
    setLaw l (f (lawOf r l)) r = if l = 0 then { r with lawA := f r.lawA } else { r with lawB := f r.lawB } := by
  unfold setLaw lawOf
  split <;> rfl

theorem z8_length (z : List (F32 × F32)) : (z8 z).length = 8 := by simp [z8]

/-- A state that is there stays where it is. -/
theorem getD_z8 {z : List (F32 × F32)} {k : Nat} (h8 : k < 8) (hz : k < z.length) : (z8 z).getD k (0, 0) = z.getD k (0, 0) := by
  simp only [z8, List.getD_eq_getElem?_getD, List.getElem?_take, h8, if_true, List.getElem?_append_left hz]

/-- The sections that both banks have keep their states. -/
theorem sealLaw_states {x : LawRt} {k : Nat} (hk : k < min (u8 x.bank 0) (u8 x.stage 0)) (h8 : k < 8) (hz : k < x.z.length) :
    (sealLaw x).z.getD k (0, 0) = x.z.getD k (0, 0) := by
  have hn : k < min (bkSecs x.bank) (bkSecs x.stage) := hk
  have ht : k < (x.z.take (min (bkSecs x.bank) (bkSecs x.stage))).length := by
    rw [List.length_take]
    exact lt_min hn hz
  refine (getD_z8 h8 ht).trans ?_
  simp only [List.getD_eq_getElem?_getD, List.getElem?_take, hn, if_true]

section
variable {d : Desc} {o : Obj} {s : State}

/-! ## LOOP_STAGE (R230, R234, R242) -/

theorem exec_loopStage_passes (hp : passes 0x0700 d s = true) (ho : objOf s (dHandle d) = some o) :
    exec (.loopStage d) s = .next (bodyLoopStage d o s) := congrArg _ (runObj_passes _ hp ho)

theorem bankBad_of_length {b : List Byte} (ps : List Byte) (h : b.length ≠ 48 + max 1 (u8 b 2) * u8 b 0 * 20) :
    bankBad ps b = some { status := stBadLength } := by
  have hl : (b.length == 48 + bkSets b * bkSecs b * 20) = false := beq_eq_false_iff_ne.mpr h
  simp only [bankBad, hl, req, firstErr, Bool.false_eq_true, if_false]

theorem bodyLoopStage_noLaw (hl : 2 ≤ dOffset d) : bodyLoopStage d o s = fail d 0x0004 s := if_pos hl

theorem bodyLoopStage_sealing (hl : dOffset d < 2) (hs : sealPending s (handleOf o) = true) : bodyLoopStage d o s = fail d 0x0704 s := by
  unfold bodyLoopStage
  dsimp only
  rw [if_neg (by omega), if_pos hs]

section
variable (hl : dOffset d < 2) (hs : sealPending s (handleOf o) = false)
include hl hs

theorem bodyLoopStage_bad {e : PErr} (hb : bankBad o.params (blockOf s d) = some e) :
    bodyLoopStage d o s = failWith d e.status e.result s := by
  unfold bodyLoopStage
  dsimp only
  rw [if_neg (by omega), if_neg (by simp [hs]), hb]

theorem bodyLoopStage_badLength
    (hn : (blockOf s d).length ≠ 48 + max 1 (u8 (blockOf s d) 2) * u8 (blockOf s d) 0 * 20) : bodyLoopStage d o s = fail d 0x0005 s := by
  rw [bodyLoopStage_bad hl hs (bankBad_of_length o.params hn)]
  rfl

theorem bodyLoopStage_stages (hb : bankBad o.params (blockOf s d) = none) :
    bodyLoopStage d o s = ok d (updLoop o.idx (fun r => if dOffset d = 0 then { r with lawA := { r.lawA with stage := blockOf s d } }
      else { r with lawB := { r.lawB with stage := blockOf s d } }) s) := by
  unfold bodyLoopStage
  dsimp only
  rw [if_neg (by omega), if_neg (by simp [hs]), hb]
  simp only [setLaw_lawOf fun x => { x with stage := blockOf s d }]

end

/-! ## LOOP_SEAL (R242) -/

theorem exec_loopSeal_passes (hp : passes 0x0701 d s = true) (ho : objOf s (dHandle d) = some o) :
    exec (.loopSeal d) s = .next (bodyLoopSeal d o s) := congrArg _ (runObj_passes _ hp ho)

theorem bodyLoopSeal_noLaw (hm : u8 d.bytes 16 = 0 ∨ 4 ≤ u8 d.bytes 16) : bodyLoopSeal d o s = fail d 0x0004 s := if_pos hm

/-- Which laws a mask of laws names: 1 law A, 2 law B, 3 both. -/
theorem lawMask_bits {m : Nat} (h0 : 0 < m) (h4 : m < 4) : bit m 0 = decide (m ≠ 2) ∧ bit m 1 = decide (m ≠ 1) := by
  interval_cases m <;> decide

section
variable (h0 : 0 < u8 d.bytes 16) (h4 : u8 d.bytes 16 < 4)
include h0 h4

theorem bodyLoopSeal_sealing (hs : sealPending s (handleOf o) = true) : bodyLoopSeal d o s = fail d 0x0704 s := by
  unfold bodyLoopSeal
  dsimp only
  rw [if_neg (by omega), if_pos hs]

variable (hs : sealPending s (handleOf o) = false)
include hs

theorem bodyLoopSeal_unstaged
    (hu : u8 d.bytes 16 ≠ 2 ∧ (loopOf o).lawA.stage = [] ∨ u8 d.bytes 16 ≠ 1 ∧ (loopOf o).lawB.stage = []) :
    bodyLoopSeal d o s = fail d 0x0701 s := by
  obtain ⟨hA, hB⟩ := lawMask_bits h0 h4
  unfold bodyLoopSeal
  dsimp only
  rw [if_neg (by omega), if_neg (by simp [hs]), hA, hB, if_pos (by simpa using hu)]

variable (hA : u8 d.bytes 16 = 2 ∨ (loopOf o).lawA.stage ≠ []) (hB : u8 d.bytes 16 = 1 ∨ (loopOf o).lawB.stage ≠ [])
include hA hB

/-- A seal of staged banks waits for the sample of an ENABLED loop, else it is made. -/
theorem bodyLoopSeal_staged : bodyLoopSeal d o s =
    if isEnabled o then defer d 0x0701 (handleOf o) (u64 d.bytes 24) [] (u8 d.bytes 16) s
    else ok d (updLoop o.idx (fun r => { r with
      lawA := if u8 d.bytes 16 = 2 then r.lawA else sealLaw r.lawA, lawB := if u8 d.bytes 16 = 1 then r.lawB else sealLaw r.lawB }) s) := by
  obtain ⟨hbitA, hbitB⟩ := lawMask_bits h0 h4
  have hno : ¬ (u8 d.bytes 16 ≠ 2 ∧ (loopOf o).lawA.stage = [] ∨ u8 d.bytes 16 ≠ 1 ∧ (loopOf o).lawB.stage = []) := by tauto
  unfold bodyLoopSeal
  dsimp only
  rw [if_neg (by omega), if_neg (by simp [hs]), hbitA, hbitB, if_neg (by simpa using hno)]
  congr 3
  funext r
  by_cases h2 : u8 d.bytes 16 = 2
  · simp [h2, setLaw]
  · by_cases h1 : u8 d.bytes 16 = 1 <;> simp [h1, h2, setLaw]

end

/-! ## LOOP_SETPOINT (R232) -/

theorem exec_loopSetpoint_passes (hp : passes 0x0702 d s = true) (ho : objOf s (dHandle d) = some o) :
    exec (.loopSetpoint d) s = .next (bodyLoopSetpoint d o s) := congrArg _ (runObj_passes _ hp ho)

theorem bodyLoopSetpoint_param (h : 2 ≤ u8 d.bytes 20 ∨ fFinite (f32 d.bytes 16) = false) : bodyLoopSetpoint d o s = fail d 0x0004 s :=
  if_pos (by simpa using h)

section
variable (hl : u8 d.bytes 20 < 2) (hf : fFinite (f32 d.bytes 16) = true)
include hl hf

theorem bodyLoopSetpoint_state (h : isEnabled o = false ∨ u8 o.params (93 + 80 * u8 d.bytes 20) ≠ 0) :
    bodyLoopSetpoint d o s = fail d 0x000E s := by
  have hsrc : lawOff (u8 d.bytes 20) + 5 = 93 + 80 * u8 d.bytes 20 := by unfold lawOff; omega
  unfold bodyLoopSetpoint
  dsimp only
  rw [if_neg (by simp [hf]; omega), hsrc, if_pos (by simpa using h)]
  rfl

theorem bodyLoopSetpoint_sets (he : isEnabled o = true) (hz : u8 o.params (93 + 80 * u8 d.bytes 20) = 0) :
    bodyLoopSetpoint d o s = ok d (updLoop o.idx (fun r =>
      if u8 d.bytes 20 = 0 then { r with lawA := { r.lawA with target := f32 d.bytes 16 } }
      else { r with lawB := { r.lawB with target := f32 d.bytes 16 } }) s) := by
  have hsrc : lawOff (u8 d.bytes 20) + 5 = 93 + 80 * u8 d.bytes 20 := by unfold lawOff; omega
  unfold bodyLoopSetpoint
  dsimp only
  rw [if_neg (by simp [hf]; omega), hsrc, if_neg (by simp [he, hz])]
  simp only [setLaw_lawOf fun x => { x with target := f32 d.bytes 16 }]

end

/-! ## LOOP_MODE (R229, R244, R253) -/

theorem exec_loopMode_passes (hp : passes 0x0703 d s = true) (ho : objOf s (dHandle d) = some o) :
    exec (.loopMode d) s = .next (bodyLoopMode d o s) := congrArg _ (runObj_passes _ hp ho)

/-- The law of a mode and its block: mode 1 law A, mode 2 law B. -/
theorem modeLaw_off {m : Nat} (h0 : m ≠ 0) : lawOff (modeLaw m) = 8 + 80 * m := by unfold lawOff modeLaw; omega

theorem lawOf_modeLaw {m : Nat} (h0 : m ≠ 0) (h3 : m < 3) (r : LoopRt) : lawOf r (modeLaw m) = if m = 1 then r.lawA else r.lawB := by
  unfold lawOf modeLaw
  have : m - 1 = 0 ↔ m = 1 := by omega
  simp only [this]

theorem lawEnterBad_unmeasured {m : Nat} (h0 : m ≠ 0) (hu : u32 o.params (8 + 80 * m) = 0) : lawEnterBad o m = some 0x000E := by
  rw [lawEnterBad, if_neg h0, modeLaw_off h0, if_pos hu]
  rfl

theorem lawEnterBad_bankless {m : Nat} (h0 : m ≠ 0) (h3 : m < 3) (hu : u32 o.params (8 + 80 * m) ≠ 0)
    (hb : (if m = 1 then (loopOf o).lawA.bank else (loopOf o).lawB.bank) = []) : lawEnterBad o m = some 0x0701 := by
  rw [lawEnterBad, if_neg h0, modeLaw_off h0, if_neg hu, lawOf_modeLaw h0 h3, apply_ite LawRt.bank, hb]
  rfl

theorem lawEnterBad_none {m : Nat} (h3 : m < 3)
    (h : m = 0 ∨ u32 o.params (8 + 80 * m) ≠ 0 ∧ (if m = 1 then (loopOf o).lawA.bank else (loopOf o).lawB.bank) ≠ []) :
    lawEnterBad o m = none := by
  by_cases h0 : m = 0
  · exact if_pos h0
  · obtain ⟨hu, hb⟩ := h.resolve_left h0
    rw [lawEnterBad, if_neg h0, modeLaw_off h0, if_neg hu, lawOf_modeLaw h0 h3, apply_ite LawRt.bank, if_neg (by simpa using hb)]

theorem bodyLoopMode_param (h : 3 ≤ u8 d.bytes 16 ∨ 2 ≤ u8 d.bytes 17 ∨ fFinite (f32 d.bytes 20) = false) :
    bodyLoopMode d o s = fail d 0x0004 s := if_pos (by simpa using h)

section
variable (h3 : u8 d.bytes 16 < 3) (h2 : u8 d.bytes 17 < 2) (hf : fFinite (f32 d.bytes 20) = true)
include h3 h2 hf

theorem bodyLoopMode_state (he : isEnabled o = false) : bodyLoopMode d o s = fail d 0x000E s := by
  unfold bodyLoopMode
  dsimp only
  rw [if_neg (by simp [hf]; omega), if_pos (by simp [he])]
  rfl

variable (he : isEnabled o = true)
include he

theorem bodyLoopMode_refused {e : Nat} (hb : lawEnterBad o (u8 d.bytes 16) = some e) : bodyLoopMode d o s = fail d e s := by
  unfold bodyLoopMode
  dsimp only
  rw [if_neg (by simp [hf]; omega), if_neg (by simp [he]), hb]

theorem bodyLoopMode_pends (hb : lawEnterBad o (u8 d.bytes 16) = none) :
    bodyLoopMode d o s = defer d 0x0703 (handleOf o) (u64 d.bytes 24) [] (u8 d.bytes 16) s := by
  unfold bodyLoopMode
  dsimp only
  rw [if_neg (by simp [hf]; omega), if_neg (by simp [he]), hb]

end

/-! ## LOOP_MANUAL (R237) -/

theorem exec_loopManual_passes (hp : passes 0x0704 d s = true) (ho : objOf s (dHandle d) = some o) :
    exec (.loopManual d) s = .next (bodyLoopManual d o s) := congrArg _ (runObj_passes _ hp ho)

theorem bodyLoopManual_param (hf : fFinite (f32 d.bytes 16) = false) : bodyLoopManual d o s = fail d 0x0004 s := if_pos (by simp [hf])

theorem bodyLoopManual_state (hf : fFinite (f32 d.bytes 16) = true) (h : isEnabled o = false ∨ (loopOf o).mode ≠ 0) :
    bodyLoopManual d o s = fail d 0x000E s := by
  rw [bodyLoopManual, if_neg (by simp [hf]), if_pos (by simpa using h)]
  rfl

theorem bodyLoopManual_sets (hf : fFinite (f32 d.bytes 16) = true) (he : isEnabled o = true) (hm : (loopOf o).mode = 0) :
    bodyLoopManual d o s = ok d (updLoop o.idx (fun r => { r with manNext := some (f32 d.bytes 16) }) s) := by
  rw [bodyLoopManual, if_neg (by simp [hf]), if_neg (by simp [he, hm])]

/-! ## LOOP_RC (R252) -/

theorem exec_loopRc_passes (hp : passes 0x0705 d s = true) (ho : objOf s (dHandle d) = some o) :
    exec (.loopRc d) s = .next (bodyLoopRc d o s) := congrArg _ (runObj_passes _ hp ho)

/-- A block with the learning flag of its repetitive controller set or cleared. -/
def withLearning (on : Bool) (ps : List Byte) : List Byte := putAt ps 23 (leBytes 1 (setBit (u8 ps 23) 1 on))

/-- A loop that learns or is frozen. -/
def learningLoop (on : Bool) (o : Obj) : Obj := { o with params := withLearning on o.params, act := withLearning on o.act }

theorem bodyLoopRc_param (h : 3 ≤ u8 d.bytes 16) : bodyLoopRc d o s = fail d 0x0004 s := if_pos h

theorem bodyLoopRc_clears (h : u8 d.bytes 16 = 0) :
    bodyLoopRc d o s = ok d (updLoop o.idx (fun r => { r with bins := List.replicate 256 0 }) s) := by
  unfold bodyLoopRc
  dsimp only
  rw [if_neg (by omega), if_pos h]

theorem bodyLoopRc_learning (h : u8 d.bytes 16 = 1 ∨ u8 d.bytes 16 = 2) :
    bodyLoopRc d o s = ok d (updObj o.idx (learningLoop (u8 d.bytes 16 == 2)) s) := by
  unfold bodyLoopRc
  dsimp only
  rw [if_neg (by omega), if_neg (by omega)]
  rfl

/-- Setting bit 1 of a byte: it stays a byte, and bit 0 is left. -/
theorem setBit_one {n : Nat} (hn : n < 256) (b : Bool) :
    setBit n 1 b < 256 ∧ bit (setBit n 1 b) 1 = b ∧ bit (setBit n 1 b) 0 = bit n 0 := by
  unfold setBit
  cases h : bit n 1 <;> cases b <;> simp [bit] at h ⊢ <;> omega

theorem u8_lt (bs : List Byte) (off : Nat) : u8 bs off < 256 := (bs.getD off 0).isLt

theorem u8_withLearning_same {ps : List Byte} (on : Bool) (hl : 24 ≤ ps.length) :
    u8 (withLearning on ps) 23 = setBit (u8 ps 23) 1 on := by
  have hs := slice_putAt (v := leBytes 1 (setBit (u8 ps 23) 1 on)) (show 23 ≤ ps.length by omega)
  rw [leBytes_length] at hs
  rw [u8_eq_leNat, withLearning, hs, leNat_leBytes]
  exact Nat.mod_eq_of_lt (setBit_one (u8_lt ps 23) on).1

theorem u8_withLearning_other {ps : List Byte} (on : Bool) (hl : 24 ≤ ps.length) {i : Nat} (hi : i ≠ 23) :
    u8 (withLearning on ps) i = u8 ps i :=
  congrArg BitVec.toNat (getD_putAt_other (by omega) (by rw [leBytes_length]; omega))

theorem bits_withLearning {ps : List Byte} (on : Bool) (hl : 24 ≤ ps.length) :
    bit (u8 (withLearning on ps) 23) 1 = on ∧ bit (u8 (withLearning on ps) 23) 0 = bit (u8 ps 23) 0 := by
  rw [u8_withLearning_same on hl]
  exact (setBit_one (u8_lt ps 23) on).2

/-! ## LOOP_BANK_READ (R252) -/

theorem exec_loopBankRead_passes (hp : passes 0x0706 d s = true) (ho : objOf s (dHandle d) = some o) :
    exec (.loopBankRead d) s = .next (bodyLoopBankRead d o s) := congrArg _ (runObj_passes _ hp ho)

/-- The bank that an offset names: a law's bank, or from 256 on its staged one. -/
def bankNamed (q : Nat) (r : LoopRt) : List Byte :=
  if q = 0 then r.lawA.bank else if q = 1 then r.lawB.bank else if q = 256 then r.lawA.stage else r.lawB.stage

theorem bodyLoopBankRead_noBank (h0 : dOffset d ≠ 0) (h1 : dOffset d ≠ 1) (h256 : dOffset d ≠ 256) (h257 : dOffset d ≠ 257) :
    bodyLoopBankRead d o s = fail d 0x0004 s := if_pos (by omega)

/-- A bank that is named is written, unless it is empty. -/
theorem bodyLoopBankRead_named (h : dOffset d = 0 ∨ dOffset d = 1 ∨ dOffset d = 256 ∨ dOffset d = 257) :
    bodyLoopBankRead d o s = if (bankNamed (dOffset d) (loopOf o)).isEmpty then fail d 0x0701 s
      else writeBack d ((bankNamed (dOffset d) (loopOf o)).take (dBlockLen d)) {} s := by
  unfold bodyLoopBankRead bankNamed
  dsimp only
  rw [if_neg (by omega)]
  rcases h with h | h | h | h <;> rw [h] <;> rfl

theorem bodyLoopBankRead_absent (h : dOffset d = 0 ∨ dOffset d = 1 ∨ dOffset d = 256 ∨ dOffset d = 257)
    (hb : bankNamed (dOffset d) (loopOf o) = []) : bodyLoopBankRead d o s = fail d 0x0701 s := by
  rw [bodyLoopBankRead_named h, hb]
  rfl

theorem bodyLoopBankRead_writes (h : dOffset d = 0 ∨ dOffset d = 1 ∨ dOffset d = 256 ∨ dOffset d = 257)
    (hb : bankNamed (dOffset d) (loopOf o) ≠ []) :
    bodyLoopBankRead d o s = writeBack d ((bankNamed (dOffset d) (loopOf o)).take (dBlockLen d)) {} s := by
  rw [bodyLoopBankRead_named h, if_neg (by simpa using hb)]

end

/-! ## Transfers (R244) -/

theorem exec_transferTimeExpiry (h : Nat) (s : State) : exec (.transferTimeExpiry h) s = execTransferTimeExpiry h s := rfl

theorem execTransferTimeExpiry_idle {s : State} {h : Nat} (hi : objOf s h = none ∨ ∃ o, objOf s h = some o ∧ (loopOf o).xfer = 0) :
    execTransferTimeExpiry h s = .next s := by
  rcases hi with ho | ⟨o, ho, hx⟩
  · simp only [execTransferTimeExpiry, ho]
  · simp only [execTransferTimeExpiry, ho, hx, if_true]

theorem execTransferTimeExpiry_judges {s : State} {h : Nat} {o : Obj} (ho : objOf s h = some o) (hx : (loopOf o).xfer ≠ 0) :
    execTransferTimeExpiry h s = .next (xferJudge o.idx (toInstant ((loopOf o).xAt + u32 o.act 52 * 480) s)) := by
  simp only [execTransferTimeExpiry, ho, hx, if_false, usTicks]

/-- A transfer that has reached its time at its last sample. -/
theorem xfer_timeReached {o : Obj} (hx : (loopOf o).xfer ≠ 0) (ht : (loopOf o).xAt + u32 o.act 52 * 480 ≤ (loopOf o).lastTk) :
    ¬ ((loopOf o).xfer = 0 ∨ (loopOf o).lastTk < (loopOf o).xAt + u32 o.act 52 * usTicks) := by
  rw [usTicks]
  omega

section
variable {s : State} {i : Nat} {o : Obj} (ho : objAt s i = some o)
include ho

theorem xferJudge_early (h : (loopOf o).xfer = 0 ∨ (loopOf o).lastTk < (loopOf o).xAt + u32 o.act 52 * 480) : xferJudge i s = s := by
  unfold xferJudge
  rw [ho]
  exact if_pos h

variable (hx : (loopOf o).xfer ≠ 0) (ht : (loopOf o).xAt + u32 o.act 52 * 480 ≤ (loopOf o).lastTk)
include hx ht

/-- A transfer whose limit does not bind at its last sample ends. -/
theorem xferJudge_ends (hb : (loopOf o).xBind = false) : xferJudge i s
    = raiseE 0x0743 0 (handleOf o) o.epoch (leBytes 1 (loopOf o).xFrom ++ leBytes 1 (loopOf o).mode ++ leBytes 1 (b2n (loopOf o).matched))
      (updLoop i (fun r => { r with xfer := 0, xTimed := false }) s) := by
  unfold xferJudge
  rw [ho]
  dsimp only
  rw [if_neg (xfer_timeReached hx ht), if_pos (by simp [hb])]

variable (hb : (loopOf o).xBind = true)
include hb

theorem xferJudge_timed (hd : (loopOf o).xTimed = true) : xferJudge i s = s := by
  unfold xferJudge
  rw [ho]
  dsimp only
  rw [if_neg (xfer_timeReached hx ht), if_neg (by simp [hb]), if_pos hd]

variable (hd : (loopOf o).xTimed = false)
include hd

theorem xferJudge_diverges (hg : fLt (fMul (f32 o.act 56) (fSub (f32 o.act 28) (f32 o.act 24))) (loopOf o).xGap = true) : xferJudge i s
    = raiseE 0x0742 0 (handleOf o) o.epoch (fBytes (loopOf o).xGap) (updLoop i (fun r => { r with xfer := 2, xTimed := true }) s) := by
  unfold xferJudge
  rw [ho]
  dsimp only
  rw [if_neg (xfer_timeReached hx ht), if_neg (by simp [hb]), if_neg (by simp [hd]), if_pos hg]

theorem xferJudge_goesOn (hg : fLt (fMul (f32 o.act 56) (fSub (f32 o.act 28) (f32 o.act 24))) (loopOf o).xGap = false) :
    xferJudge i s = updLoop i (fun r => { r with xTimed := true }) s := by
  unfold xferJudge
  rw [ho]
  dsimp only
  rw [if_neg (xfer_timeReached hx ht), if_neg (by simp [hb]), if_neg (by simp [hd]), if_neg (by simp [hg])]

end

/-! ## The following error (R245, R246) -/

theorem exec_loopFeTimeout (h : Nat) (s : State) : exec (.loopFeTimeout h) s = execLoopFeTimeout h s := rfl

theorem execLoopFeTimeout_idle {s : State} {h : Nat} (hi : objOf s h = none ∨ ∃ o, objOf s h = some o ∧ (loopOf o).feSince = none) :
    execLoopFeTimeout h s = .next s := by
  rcases hi with ho | ⟨o, ho, hf⟩
  · simp only [execLoopFeTimeout, ho]
  · simp only [execLoopFeTimeout, ho, hf]

/-- FE_TIME of the law of a mode. -/
theorem feTime_off (l : Nat) : lawOff l + 68 = 156 + 80 * l := by unfold lawOff; omega

section
variable {s : State} {h t : Nat} {o : Obj} (ho : objOf s h = some o) (hf : (loopOf o).feSince = some t)
include ho hf

theorem execLoopFeTimeout_early (ht : (loopOf o).lastTk < t + u32 o.act (156 + 80 * ((loopOf o).mode - 1)) * 480) :
    execLoopFeTimeout h s = .next s := by
  simp only [execLoopFeTimeout, ho, hf, modeLaw, feTime_off, usTicks, if_pos ht]

theorem execLoopFeTimeout_faults (ht : t + u32 o.act (156 + 80 * ((loopOf o).mode - 1)) * 480 ≤ (loopOf o).lastTk) :
    execLoopFeTimeout h s = .next (class1 h 0x0740 (fBytes (loopOf o).fe ++ leBytes 1 ((loopOf o).mode - 1))
      (updLoop o.idx (fun r => { r with feSince := none }) s)) := by
  simp only [execLoopFeTimeout, ho, hf, modeLaw, feTime_off, usTicks, if_neg (not_lt.mpr ht)]

end

/-- The timer runs from the first sample that exceeds a limit in force. -/
theorem loopSupervise_eq (o : Obj) (l t : Nat) (fe : F32) (r : LoopRt) : loopSupervise o l t fe r = { r with
    fe := fe, fePeak := fMax r.fePeak fe
    feSince := if fPos (f32 o.act (152 + 80 * l)) = true ∧ fLt (f32 o.act (152 + 80 * l)) fe = true then some (r.feSince.getD t) else none } := by
  have hoff : lawOff l + 64 = 152 + 80 * l := by unfold lawOff; omega
  simp only [loopSupervise, hoff, Bool.and_eq_true]

/-! ## The statement -/

/-- Settles O37: each descriptor by its refusals and what it does, a transfer and a following error by the last sample. -/
theorem loopCommands : Obligations.LoopCommands := by
  refine ⟨fun i f s => rfl, fun s d o b l hp ho hb hl => ?_, fun s d o m hp ho hm => ?_,
    fun x => ⟨rfl, rfl, rfl, z8_length _, fun k => sealLaw_states⟩, fun s d o l hp ho hl => ?_, fun s d o m hp ho hm => ?_,
    fun s d o hp ho => ?_, fun s d o hp ho => ?_, fun s d o q b hp ho hq hb => ?_, fun s h hi => execTransferTimeExpiry_idle hi,
    fun s h o ho hx => execTransferTimeExpiry_judges ho hx, fun s i o r ho hr => ?_, fun s h hi => execLoopFeTimeout_idle hi,
    fun s h o t l ho hf hl => ?_, loopSupervise_eq⟩
  · subst hb hl
    rw [exec_loopStage_passes hp ho]
    exact ⟨fun h => congrArg _ (bodyLoopStage_noLaw h), fun h hs => congrArg _ (bodyLoopStage_sealing h hs), fun h hs =>
      ⟨fun hg => congrArg _ (bodyLoopStage_stages h hs hg), fun e he => congrArg _ (bodyLoopStage_bad h hs he),
        fun hn => congrArg _ (bodyLoopStage_badLength h hs hn)⟩⟩
  · subst hm
    rw [exec_loopSeal_passes hp ho]
    refine ⟨fun h => congrArg _ (bodyLoopSeal_noLaw h), fun h0 h4 hs => congrArg _ (bodyLoopSeal_sealing h0 h4 hs), fun h0 h4 hs =>
      ⟨fun hu => congrArg _ (bodyLoopSeal_unstaged h0 h4 hs hu), fun hA hB => ?_⟩⟩
    rw [bodyLoopSeal_staged h0 h4 hs hA hB]
    exact ⟨fun he => congrArg _ (if_pos he), fun he => congrArg _ (if_neg (by simp [he]))⟩
  · subst hl
    rw [exec_loopSetpoint_passes hp ho]
    exact ⟨fun h => congrArg _ (bodyLoopSetpoint_param h), fun h hf => ⟨fun he hz => congrArg _ (bodyLoopSetpoint_sets h hf he hz),
      fun hn => congrArg _ (bodyLoopSetpoint_state h hf hn)⟩⟩
  · subst hm
    rw [exec_loopMode_passes hp ho]
    exact ⟨fun h => congrArg _ (bodyLoopMode_param h), fun h3 h2 hf => ⟨fun he => congrArg _ (bodyLoopMode_state h3 h2 hf he),
      fun he h0 hu => congrArg _ (bodyLoopMode_refused h3 h2 hf he (lawEnterBad_unmeasured h0 hu)),
      fun he h0 hu hb => congrArg _ (bodyLoopMode_refused h3 h2 hf he (lawEnterBad_bankless h0 h3 hu hb)),
      fun he h => congrArg _ (bodyLoopMode_pends h3 h2 hf he (lawEnterBad_none h3 h))⟩⟩
  · rw [exec_loopManual_passes hp ho]
    exact ⟨fun hf => congrArg _ (bodyLoopManual_param hf), fun hf he hm => congrArg _ (bodyLoopManual_sets hf he hm),
      fun hf h => congrArg _ (bodyLoopManual_state hf h)⟩
  · rw [exec_loopRc_passes hp ho]
    refine ⟨fun h => congrArg _ (bodyLoopRc_param h), fun h => congrArg _ (bodyLoopRc_clears h), fun k hk h hat hps hact => ?_⟩
    subst hk
    obtain ⟨hlearn, hon⟩ := bits_withLearning (u8 d.bytes 16 == 2) hps
    exact ⟨_, learningLoop (u8 d.bytes 16 == 2) o, congrArg _ (bodyLoopRc_learning h), objAt_updObj_same (fun _ => rfl) hat, hlearn,
      (bits_withLearning _ hact).1, hon, rfl, fun i hi => u8_withLearning_other _ hps hi⟩
  · subst hq hb
    rw [exec_loopBankRead_passes hp ho]
    refine ⟨fun h0 h1 h256 h257 => congrArg _ (bodyLoopBankRead_noBank h0 h1 h256 h257), fun h =>
      ⟨fun hb => congrArg _ (bodyLoopBankRead_absent h hb), fun hb => congrArg _ (bodyLoopBankRead_writes h hb), fun hb hh => ?_⟩⟩
    exact congrArg _ ((bodyLoopBankRead_writes h hb).trans (writeBack_host _ {} hh))
  · subst hr
    exact ⟨xferJudge_early ho, fun hx ht => ⟨xferJudge_ends ho hx ht, xferJudge_timed ho hx ht,
      fun hb hd => ⟨xferJudge_diverges ho hx ht hb hd, xferJudge_goesOn ho hx ht hb hd⟩⟩⟩
  · subst hl
    exact ⟨execLoopFeTimeout_early ho hf, execLoopFeTimeout_faults ho hf⟩

end Sys2Proof.Machine
end

section
/-! PROOFS. The trace (07): arm, stop and force, the recorded instants, and the drain (R249 to R251). -/

namespace Sys2Proof.Machine

/-! ## Arm, stop, force (R251) -/

theorem exec_trcArm (s : State) : exec .trcArm s = .next (trcArm s) := rfl
theorem exec_trcStop (s : State) : exec .trcStop s = .next (trcStop s) := rfl
theorem exec_trcForce (s : State) : exec .trcForce s = .next (trcForce s) := rfl
theorem exec_traceRecord (s : State) : exec .traceRecord s = execTraceRecord s := rfl
theorem exec_traceDrain (s : State) : exec .traceDrain s = execTraceDrain s := rfl

theorem trcGroups_cases (s : State) : trcGroups s = 1 ∨ trcGroups s = 2 := by
  unfold trcGroups
  split
  · exact .inr rfl
  · exact .inl rfl

/-- More instants than the buffer has room for are refused. -/
theorem armBad_of_long {s : State} (hm : s.trc.stream = false) (hn : 8192 < s.trc.pre + s.trc.post) : armBad s = true := by
  have hl : trcMax < (s.trc.pre + s.trc.post) * trcGroups s := by
    unfold trcMax
    rcases trcGroups_cases s with hg | hg <;> rw [hg] <;> omega
  simp only [armBad, hm, hl, Bool.not_false, decide_true, Bool.true_and, Bool.true_or]

section
variable {s : State}

theorem trcArm_idle (h : s.trc.state ≠ 0 ∨ s.trc.en = false) : trcArm s = s := if_pos (by simpa using h)

theorem trcArm_bad (hs : s.trc.state = 0) (he : s.trc.en = true) (hb : armBad s = true) :
    trcArm s = { s with trc := { s.trc with cfgErr := true } } := by
  rw [trcArm, if_neg (by simp [hs, he]), if_pos hb]

theorem trcArm_starts (hs : s.trc.state = 0) (he : s.trc.en = true) (hb : armBad s = false) : trcArm s = { s with trc := { s.trc with
    state := if s.trc.stream then 4 else 1, ticks := 0, due := none, seq := 0, left := 0, buf := [], prev := none
    fired := !s.trc.stream && s.trc.trig % 16 == 0, gap := false, sent := 0 } } := by
  rw [trcArm, if_neg (by simp [hs, he]), if_neg (by simp [hb])]

theorem trcStop_recording (h : s.trc.state = 1 ∨ s.trc.state = 2) :
    trcStop s = { s with trc := { s.trc with state := 0, due := none, buf := [] } } := if_pos h

/-- A stream with entries ends later, one without at once. -/
theorem trcStop_stream (h : s.trc.state = 4) : trcStop s = { s with trc := { s.trc with
    state := if s.trc.buf.isEmpty then 0 else 4, ending := !s.trc.buf.isEmpty, due := none } } := by
  rw [trcStop, if_neg (by omega), if_pos h]

theorem trcStop_streamFull (h : s.trc.state = 4) (hb : s.trc.buf ≠ []) :
    trcStop s = { s with trc := { s.trc with ending := true, due := none } } := by
  have he : s.trc.buf.isEmpty = false := by simpa using hb
  rw [trcStop_stream h, he, ← h]
  rfl

theorem trcStop_streamEmpty (h : s.trc.state = 4) (hb : s.trc.buf = []) :
    trcStop s = { s with trc := { s.trc with state := 0, ending := false, due := none } } := by
  rw [trcStop_stream h, hb]
  rfl

theorem trcStop_idle (h : s.trc.state = 0 ∨ s.trc.state = 3) : trcStop s = s := by
  rw [trcStop, if_neg (by omega), if_neg (by omega)]

theorem trcForce_armed (h : s.trc.state = 1) : trcForce s = { s with trc := { s.trc with fired := true } } := if_pos h
theorem trcForce_idle (h : s.trc.state ≠ 1) : trcForce s = s := if_neg h

end

/-! ## Recorded instants (R249, R250) -/

/-- The state at a due instant, which is no longer due. -/
def dueTaken (t : Nat) (s : State) : State := toInstant t { s with trc := { s.trc with due := none } }

theorem dueTaken_eq (t : Nat) (s : State) : dueTaken t s = { toInstant t s with trc := { s.trc with due := none } } := by
  unfold dueTaken toInstant
  split <;> rfl

theorem dueTaken_trc (t : Nat) (s : State) : (dueTaken t s).trc = { s.trc with due := none } := toInstant_trc ..

@[simp] theorem dueTaken_state (t : Nat) (s : State) : (dueTaken t s).trc.state = s.trc.state := by rw [dueTaken_trc]
@[simp] theorem dueTaken_ending (t : Nat) (s : State) : (dueTaken t s).trc.ending = s.trc.ending := by rw [dueTaken_trc]
@[simp] theorem dueTaken_buf (t : Nat) (s : State) : (dueTaken t s).trc.buf = s.trc.buf := by rw [dueTaken_trc]
@[simp] theorem dueTaken_left (t : Nat) (s : State) : (dueTaken t s).trc.left = s.trc.left := by rw [dueTaken_trc]
@[simp] theorem dueTaken_pre (t : Nat) (s : State) : (dueTaken t s).trc.pre = s.trc.pre := by rw [dueTaken_trc]
@[simp] theorem dueTaken_seq (t : Nat) (s : State) : (dueTaken t s).trc.seq = s.trc.seq := by rw [dueTaken_trc]

/-- The instant is numbered, and its probe kept to compare the next with. -/
def numberInstant (p : Option F32) (s : State) : State := { s with trc := { s.trc with seq := wrapInc 16 s.trc.seq, prev := p } }

/-- The probe that the trigger compares. -/
def trigProbe (s : State) : Option F32 := some (trcProbe s (bits s.trc.trig 4 3))

/-- An instant after the trigger: one fewer is left, and the last begins the drain. -/
def trcPost (t : Nat) (s : State) : State :=
  { trcKeep t 0 s with trc := { (trcKeep t 0 s).trc with left := s.trc.left - 1, state := if s.trc.left ≤ 1 then 3 else 2 } }

/-- What a recorded instant does, by the state of the capture. -/
def traceInstant (t : Nat) (v : State) : State :=
  if v.trc.state = 1 then (if trcTriggered v then trcTrigger t v else trcPre t v)
  else if v.trc.state = 2 then trcPost t v
  else if v.trc.state = 4 ∧ ¬ v.trc.ending then trcStream t v
  else v

/-- Instants of a capture touch the trace alone. -/
theorem numberInstant_trcPost (p : Option F32) (t : Nat) (v : State) :
    numberInstant p (trcPost t v) = { v with trc := (numberInstant p (trcPost t v)).trc } := rfl
theorem numberInstant_trcPre (p : Option F32) (t : Nat) (v : State) :
    numberInstant p (trcPre t v) = { v with trc := (numberInstant p (trcPre t v)).trc } := rfl

theorem trcPost_state (t : Nat) (v : State) : (trcPost t v).trc.state = if v.trc.left ≤ 1 then 3 else 2 := rfl
theorem trcPost_left (t : Nat) (v : State) : (trcPost t v).trc.left = v.trc.left - 1 := rfl
theorem trcPre_state (t : Nat) (v : State) : (trcPre t v).trc.state = v.trc.state := rfl
theorem trcPre_seq (t : Nat) (v : State) : (trcPre t v).trc.seq = v.trc.seq := rfl

theorem execTraceRecord_idle {s : State} (h : s.trc.due = none) : execTraceRecord s = .next s := by
  simp only [execTraceRecord, h]

theorem execTraceRecord_due {s v : State} {t : Nat} (h : s.trc.due = some t) (hv : v = dueTaken t s) :
    execTraceRecord s = .next (numberInstant (trigProbe v) (traceInstant t v)) := by
  subst hv
  unfold execTraceRecord
  rw [h]
  rfl

section
variable {v : State} (t : Nat)

theorem traceInstant_armed (h : v.trc.state = 1) : traceInstant t v = if trcTriggered v then trcTrigger t v else trcPre t v := if_pos h

theorem traceInstant_post (h : v.trc.state = 2) : traceInstant t v = trcPost t v := by
  rw [traceInstant, if_neg (by omega), if_pos h]

theorem traceInstant_stream (h : v.trc.state = 4) (he : v.trc.ending = false) : traceInstant t v = trcStream t v := by
  rw [traceInstant, if_neg (by omega), if_neg (by omega), if_pos ⟨h, by simp [he]⟩]

/-- An idle or draining trace, or a stream that ends, keeps nothing of an instant. -/
theorem traceInstant_nothing (h : v.trc.state = 0 ∨ v.trc.state = 3 ∨ 4 < v.trc.state ∨ v.trc.state = 4 ∧ v.trc.ending = true) :
    traceInstant t v = v := by
  have h4 : ¬ (v.trc.state = 4 ∧ ¬ v.trc.ending = true) := by
    rintro ⟨h4, hne⟩
    rcases h with h | h | h | ⟨_, he⟩
    · omega
    · omega
    · omega
    · exact hne he
  rw [traceInstant, if_neg (by omega), if_neg (by omega), if_neg h4]

end

/-- What changes the trace alone after a due instant differs from that instant in the trace alone. -/
theorem eq_of_dueTaken {u s : State} {t : Nat} (h : u = { dueTaken t s with trc := u.trc }) : u = { toInstant t s with trc := u.trc } := by
  rwa [dueTaken_eq] at h

theorem trcGroups_dueTaken (t : Nat) (s : State) : trcGroups (dueTaken t s) = trcGroups s := by
  unfold trcGroups trcHandle
  rw [dueTaken_trc]

/-- The entries of an instant, one for each group. -/
theorem trcKeep_buf (t flags : Nat) (s : State) : ∃ x, (trcKeep t flags s).trc.buf = s.trc.buf ++ x ∧ x.length = trcGroups s :=
  ⟨_, rfl, by rw [List.length_map, List.length_range]⟩

theorem trcPre_length (t : Nat) (s : State) :
    (trcPre t s).trc.buf.length = min (s.trc.buf.length + trcGroups s) (s.trc.pre * trcGroups s) := by
  obtain ⟨x, hx, hl⟩ := trcKeep_buf t 2 s
  have hbuf : (trcPre t s).trc.buf = (trcKeep t 2 s).trc.buf.drop ((trcKeep t 2 s).trc.buf.length - s.trc.pre * trcGroups s) := rfl
  rw [hbuf, List.length_drop, hx, List.length_append, hl]
  omega

/-! ## The trigger (R249) -/

theorem trcTriggered_fired {s : State} (h : s.trc.fired = true) : trcTriggered s = true := by simp only [trcTriggered, h, Bool.true_or]

/-- Only the sources 1 to 3 compare the probe. -/
theorem trcTriggered_unfired {s : State} (h : s.trc.fired = false) (hs : s.trc.trig % 16 = 0 ∨ 4 ≤ s.trc.trig % 16) :
    trcTriggered s = false := by
  have h1 : (s.trc.trig % 16 == 1) = false := beq_eq_false_iff_ne.mpr (by omega)
  have h2 : (s.trc.trig % 16 == 2) = false := beq_eq_false_iff_ne.mpr (by omega)
  have h3 : (s.trc.trig % 16 == 3) = false := beq_eq_false_iff_ne.mpr (by omega)
  simp only [trcTriggered, h, h1, h2, h3, Bool.false_and, Bool.or_false]

/-- The trigger instant counts as the first of POST, and its event carries its GTC. -/
theorem trcTrigger_eq (t : Nat) (s : State) : trcTrigger t s = { raise0 0x0748 0 (leBytes 2 (s.trc.buf.length / trcGroups s))
    { trcKeep t 1 s with gtc := t, trc := { (trcKeep t 1 s).trc with
      state := if max 1 s.trc.post = 1 then 3 else 2, left := max 1 s.trc.post - 1, fired := false } } with gtc := s.gtc } := by
  have hleft : (max 1 s.trc.post - 1 = 0) = (max 1 s.trc.post = 1) := propext (by omega)
  unfold trcTrigger
  dsimp only
  simp only [hleft]
  rfl

/-! ## A stream (R250) -/

section
variable {s : State} (t : Nat) (hg : trcGroups s = 1)
include hg

theorem trcStream_room (hl : s.trc.buf.length < 8192) : trcStream t s = { s with trc := { s.trc with
    buf := s.trc.buf ++ [(s.trc.seq, trcEntry s t 0 (if s.trc.gap then 4 else 0))], gap := false } } := by
  unfold trcStream
  rw [hg]
  exact if_pos hl

theorem trcStream_full (hl : 8192 ≤ s.trc.buf.length) : trcStream t s = setRing 36 (fun r => { r with lost := satInc 16 r.lost })
    { s with trc := { s.trc with lost := satInc 16 s.trc.lost, dropped := true, gap := true } } := by
  unfold trcStream
  rw [hg]
  exact if_neg (not_lt.mpr hl)

end

/-! ## The drain (R251) -/

section
variable {s : State} {n k : Nat} {x : List Byte} {rest : List (Nat × List Byte)} (hb : s.trc.buf = (n, x) :: rest)
include hb

theorem trcWrite_room (hs : ringServed s 36 = true) (hr : ringRoom (ringOf s 36) = true) :
    trcWrite (k + 1) s = trcWrite k (ringProduce 36 x none false
      { s with trc := { s.trc with buf := rest, written := satInc 16 s.trc.written, sent := s.trc.sent + 1 } }) := by
  rw [trcWrite, hb]
  exact if_pos (by simp [trcRing, hs, hr])

theorem trcWrite_stops (h : ringServed s 36 = false ∨ ringRoom (ringOf s 36) = false) : trcWrite (k + 1) s = s := by
  rw [trcWrite, hb]
  exact if_neg (by rcases h with h | h <;> simp [trcRing, h])

end

section
variable {s : State}

/-- A capture drains, and with its last entry it is DONE. -/
theorem execTraceDrain_capture (h : s.trc.state = 3) {v : State} (hv : v = trcWrite s.trc.buf.length s) : execTraceDrain s
    = .next (if v.trc.buf.isEmpty then raise0 0x0749 0 (leBytes 4 v.trc.sent) { v with trc := { v.trc with state := 0, done := true } }
      else v) := by
  subst hv
  exact congrArg _ (if_pos h)

/-- A stream writes what it has, and one that ends is idle with its last entry. -/
theorem execTraceDrain_stream (h : s.trc.state = 4) {v : State} (hv : v = trcWrite s.trc.buf.length s) : execTraceDrain s
    = .next (if v.trc.ending && v.trc.buf.isEmpty then { v with trc := { v.trc with state := 0, ending := false } } else v) := by
  subst hv
  exact congrArg _ ((if_neg (by omega)).trans (if_pos h))

theorem execTraceDrain_idle (h3 : s.trc.state ≠ 3) (h4 : s.trc.state ≠ 4) : execTraceDrain s = .next s :=
  congrArg _ ((if_neg h3).trans (if_neg h4))

end

/-! ## The statement -/

/-- Settles O38: arm, stop and force by the state they find, a recorded instant by the state of the capture, the drain entry by
entry. -/
theorem traceCaptures : Obligations.TraceCaptures := by
  refine ⟨fun s hs he => ⟨fun hb => congrArg _ (trcArm_bad hs he hb), fun hb => congrArg _ (trcArm_starts hs he hb)⟩,
    fun s h => congrArg _ (trcArm_idle h), fun s => armBad_of_long,
    fun s => ⟨fun h => congrArg _ (trcStop_recording h), fun h hb => congrArg _ (trcStop_streamFull h hb),
      fun h => congrArg _ (trcStop_idle h), fun h => congrArg _ (trcForce_armed h), fun h => congrArg _ (trcForce_idle h)⟩,
    fun s h hb => congrArg _ (trcStop_streamEmpty h hb), fun s h => execTraceRecord_idle h, trcGroups_cases, fun s t hd h => ?_,
    fun s t v hd h hv => ⟨fun hn => ?_, fun ht => ?_⟩, fun s => ⟨trcTriggered_fired, trcTriggered_unfired⟩,
    fun t s w hw => ⟨_, ?_, rfl⟩, fun s t hd h => ⟨trigProbe (dueTaken t s), ?_⟩,
    fun s t v hd h he hv => ⟨_, trigProbe v, ?_, rfl⟩,
    fun t s hg => ⟨trcStream_room t hg, trcStream_full t hg⟩, fun s v h hv => ?_, fun s v h hv => ?_,
    fun s n x rest k hb => ⟨trcWrite_room hb, trcWrite_stops hb⟩, fun s h3 h4 => execTraceDrain_idle h3 h4⟩
  · obtain ⟨x, hx, hl⟩ := trcKeep_buf t 0 (dueTaken t s)
    rw [dueTaken_buf] at hx
    refine ⟨numberInstant (trigProbe (dueTaken t s)) (trcPost t (dueTaken t s)), x, ?_, hx, hl.trans (trcGroups_dueTaken t s), fun hn => ?_,
      fun hn => ⟨?_, ?_⟩, eq_of_dueTaken (numberInstant_trcPost _ t _)⟩
    · rw [exec_traceRecord, execTraceRecord_due hd rfl, traceInstant_post t (by simpa using h)]
    · exact (trcPost_state t (dueTaken t s)).trans (if_pos (by simpa using hn))
    · exact (trcPost_state t (dueTaken t s)).trans (if_neg (by simpa using hn))
    · exact (trcPost_left t (dueTaken t s)).trans (by simp)
  · refine ⟨numberInstant (trigProbe (dueTaken t s)) (trcPre t (dueTaken t s)), ?_, ?_, ?_, ?_, eq_of_dueTaken (numberInstant_trcPre _ t _)⟩
    · replace hv : v = dueTaken t s := hv
      rw [hv] at hn
      rw [exec_traceRecord, execTraceRecord_due hd rfl, traceInstant_armed t (by simpa using h), if_neg (by simp [hn])]
    · exact (trcPre_state t (dueTaken t s)).trans ((dueTaken_state t s).trans h)
    · refine (trcPre_length t (dueTaken t s)).trans ?_
      rw [trcGroups_dueTaken, dueTaken_buf, dueTaken_pre]
    · exact congrArg (wrapInc 16) ((trcPre_seq t (dueTaken t s)).trans (dueTaken_seq t s))
  · have hs : v.trc.state = s.trc.state := hv ▸ dueTaken_state t s
    refine ⟨_, trigProbe v, ?_, rfl⟩
    rw [exec_traceRecord, execTraceRecord_due hd hv, traceInstant_armed t (hs.trans h), if_pos ht]
    rfl
  · subst hw
    exact trcTrigger_eq t s
  · rw [exec_traceRecord, execTraceRecord_due hd rfl, traceInstant_nothing t (by simpa using h), numberInstant, dueTaken_eq]
  · have hs : v.trc.state = s.trc.state := hv ▸ dueTaken_state t s
    have hn : v.trc.ending = s.trc.ending := hv ▸ dueTaken_ending t s
    rw [exec_traceRecord, execTraceRecord_due hd hv, traceInstant_stream t (hs.trans h) (hn.trans he)]
    rfl
  · rw [exec_traceDrain, execTraceDrain_capture h hv]
    exact ⟨fun hb => congrArg _ (if_pos (by simp [hb])), fun hb => congrArg _ (if_neg (by simpa using hb))⟩
  · rw [exec_traceDrain, execTraceDrain_stream h hv]
    refine ⟨fun he hb => congrArg _ (if_pos (by simp [he, hb])), fun hn => congrArg _ (if_neg ?_)⟩
    rcases hn with hn | hn <;> simp [hn]

end Sys2Proof.Machine
end

section
/-! PROOFS. Pulse generator (08): groups and trips after a change, and the descriptors of the unit (R257, R266, R269, R270, R271,
R277). -/

namespace Sys2Proof.Machine

/-! ## Groups, trips and channels after a change -/

theorem Touches.pg {s t : State} (h : Touches s t) : t.pg = s.pg := by rw [h.frame]

theorem pgGroup_congr {s t : State} (h : t.pg = s.pg) (g : Nat) : pgGroup t g = pgGroup s g := by simp only [pgGroup, h]
theorem trip_congr {s t : State} (h : t.pg = s.pg) (n : Nat) : trip t n = trip s n := by simp only [trip, h]

@[simp] theorem trip_toInstant (t : Nat) (s : State) (n : Nat) : trip (toInstant t s) n = trip s n := trip_congr (toInstant_pg t s) n
@[simp] theorem trip_updPwm (i : Nat) (f : PwmRt → PwmRt) (s : State) (n : Nat) : trip (updPwm i f s) n = trip s n := rfl

theorem pgGroup_updGroup_same {s : State} {g : Nat} (f : PgGroup → PgGroup) (hg : g < s.pg.groups.length) :
    pgGroup (updGroup g f s) g = f (pgGroup s g) := by
  simp [pgGroup, updGroup, hg]

theorem pgGroup_updGroup_other {s : State} {g j : Nat} (f : PgGroup → PgGroup) (hj : j ≠ g) :
    pgGroup (updGroup g f s) j = pgGroup s j := by
  simp [pgGroup, updGroup, List.getElem?_set_ne (Ne.symm hj)]

theorem trip_updTrip_same {s : State} {n : Nat} (f : Trip → Trip) (hn : n < s.pg.trips.length) :
    trip (updTrip n f s) n = f (trip s n) := by
  simp [trip, updTrip, hn]

/-- Two updates of one trip are one. -/
theorem updTrip_updTrip {s : State} {n : Nat} (f g : Trip → Trip) (hn : n < s.pg.trips.length) :
    updTrip n g (updTrip n f s) = updTrip n (fun t => g (f t)) s := by
  rw [updTrip, trip_updTrip_same f hn]
  simp [updTrip]

/-- A trip is one of the list, or the one of reset. -/
theorem trip_of_forall {s : State} {P : Trip → Prop} (h : ∀ x ∈ s.pg.trips, P x) (hdef : P {}) (n : Nat) : P (trip s n) := by
  rw [trip, List.getD_eq_getElem?_getD]
  cases hx : s.pg.trips[n]? with
  | none => exact hdef
  | some x => exact h x (List.mem_of_getElem? hx)

theorem objsOf_eq_nil {s : State} {ty : Nat} (h : ∀ o ∈ s.objs, o.typ ≠ ty) : objsOf s ty = [] := by
  simpa [objsOf] using h

theorem objsOf_congr {s t : State} (h : t.objs = s.objs) (ty : Nat) : objsOf t ty = objsOf s ty := by simp only [objsOf, h]

/-! ## PG_GROUP_CONFIG (R257, R258) -/

section
variable {d : Desc} {s : State}

theorem exec_pgGroupConfig_passes (hp : passes 0x0800 d s = true) : exec (.pgGroupConfig d) s = .next (bodyPgGroupConfig d s) :=
  congrArg _ (runDesc_passes _ hp)

/-- The first period start of an aligned group is the first multiple of the period from the anchor at or after the boundary. -/
theorem alignedFrom_spec (b : Nat) (an : Int) {p : Nat} (hp : 0 < p) :
    b ≤ alignedFrom b an p ∧ alignedFrom b an p < b + p ∧ ((alignedFrom b an p : Int) - an) % (p : Int) = 0 := by
  have h0 := Int.emod_nonneg (an - b) (b := (p : Int)) (by omega)
  have hlt := Int.emod_lt_of_pos (an - b) (b := (p : Int)) (by omega)
  have hn : (alignedFrom b an p : Int) = b + (an - b) % p := Int.toNat_of_nonneg (by omega)
  refine ⟨by omega, by omega, ?_⟩
  have hdiv := Int.emod_add_mul_ediv (an - b) (p : Int)
  rw [hn, show (b : Int) + (an - b) % p - an = (p : Int) * -((an - b) / p) by rw [Int.mul_neg]; omega]
  exact Int.mul_emod_right ..

/-- The first period start of a configured group: the boundary, or for an aligned group what R258 says. -/
def firstStart (d : Desc) (s : State) : Nat :=
  if u8 d.bytes 17 = 1 then alignedFrom (nextBoundary s.gtc) (i64 d.bytes 24) (u32 d.bytes 20) else nextBoundary s.gtc

theorem bodyPgGroupConfig_param
    (h : 16 ≤ u8 d.bytes 16 ∨ 2 ≤ u8 d.bytes 17 ∨ u32 d.bytes 20 < 96 ∨ 268435455 < u32 d.bytes 20) :
    bodyPgGroupConfig d s = fail d 0x0004 s := if_pos h

/-- The configuration asked is the one in force, with no change waiting. -/
abbrev sameConfig (d : Desc) (x : PgGroup) : Prop :=
  x.conf = true ∧ x.aligned = (u8 d.bytes 17 == 1) ∧ x.period = u32 d.bytes 20 ∧ x.anchor = i64 d.bytes 24 ∧ x.nextPeriod = none

section
variable (hok : ¬ (16 ≤ u8 d.bytes 16 ∨ 2 ≤ u8 d.bytes 17 ∨ u32 d.bytes 20 < 96 ∨ 268435455 < u32 d.bytes 20))
include hok

theorem bodyPgGroupConfig_fresh (hc : groupChans s (u8 d.bytes 16) = []) :
    bodyPgGroupConfig d s = ok d (updGroup (u8 d.bytes 16) (fun x => { x with
      conf := true, aligned := u8 d.bytes 17 == 1, period := u32 d.bytes 20, anchor := i64 d.bytes 24, nextPeriod := none
      start := none, k := 0, next := some (firstStart d s) }) s) :=
  (if_neg hok).trans (if_pos (by rw [hc]; rfl))

/-- A group in use: the same configuration again, a new period of a free group, or neither. -/
theorem bodyPgGroupConfig_used (hc : groupChans s (u8 d.bytes 16) ≠ []) :
    bodyPgGroupConfig d s = if sameConfig d (pgGroup s (u8 d.bytes 16)) then ok d s
      else if (pgGroup s (u8 d.bytes 16)).aligned = false ∧ u8 d.bytes 17 = 0 ∧ (pgGroup s (u8 d.bytes 16)).anchor = i64 d.bytes 24
        then ok d (updGroup (u8 d.bytes 16) (fun x => { x with nextPeriod := some (u32 d.bytes 20) }) s)
      else fail d 0x000C s := by
  refine (if_neg hok).trans ((if_neg (by simpa using hc)).trans ?_)
  simp only [sameConfig, Bool.and_eq_true, beq_iff_eq, Option.isNone_iff_eq_none, Bool.not_eq_true', and_assoc, stBusy]

theorem bodyPgGroupConfig_same (hc : groupChans s (u8 d.bytes 16) ≠ []) (h : sameConfig d (pgGroup s (u8 d.bytes 16))) :
    bodyPgGroupConfig d s = ok d s := by
  rw [bodyPgGroupConfig_used hok hc, if_pos h]

theorem bodyPgGroupConfig_period (hc : groupChans s (u8 d.bytes 16) ≠ []) (h : ¬ sameConfig d (pgGroup s (u8 d.bytes 16)))
    (hf : (pgGroup s (u8 d.bytes 16)).aligned = false ∧ u8 d.bytes 17 = 0 ∧ (pgGroup s (u8 d.bytes 16)).anchor = i64 d.bytes 24) :
    bodyPgGroupConfig d s = ok d (updGroup (u8 d.bytes 16) (fun x => { x with nextPeriod := some (u32 d.bytes 20) }) s) := by
  rw [bodyPgGroupConfig_used hok hc, if_neg h, if_pos hf]

theorem bodyPgGroupConfig_busy (hc : groupChans s (u8 d.bytes 16) ≠ []) (h : ¬ sameConfig d (pgGroup s (u8 d.bytes 16)))
    (hf : ¬ ((pgGroup s (u8 d.bytes 16)).aligned = false ∧ u8 d.bytes 17 = 0
      ∧ (pgGroup s (u8 d.bytes 16)).anchor = i64 d.bytes 24)) : bodyPgGroupConfig d s = fail d 0x000C s := by
  rw [bodyPgGroupConfig_used hok hc, if_neg h, if_neg hf]

end

/-! ## PG_TRIP_CONFIG (R266) -/

theorem exec_pgTripConfig_passes (hp : passes 0x0801 d s = true) : exec (.pgTripConfig d) s = .next (bodyPgTripConfig d s) :=
  congrArg _ (runDesc_passes _ hp)

/-- A configuration that no trip takes. -/
def tripConfigBad (d : Desc) : Prop :=
  8 ≤ u8 d.bytes 16 ∨ 2 ≤ u8 d.bytes 17 ∨ 2 ≤ u8 d.bytes 18 ∨ 16 ≤ u8 d.bytes 19 ∨ 15 < u8 d.bytes 20

theorem bodyPgTripConfig_param (h : tripConfigBad d) : bodyPgTripConfig d s = fail d 0x0004 s := if_pos h

theorem bodyPgTripConfig_latched (h : ¬ tripConfigBad d) (hl : (trip s (u8 d.bytes 16)).latched = true) :
    bodyPgTripConfig d s = fail d 0x0801 s := (if_neg h).trans (if_pos hl)

theorem bodyPgTripConfig_waits (h : ¬ tripConfigBad d) (hl : (trip s (u8 d.bytes 16)).latched = false) :
    bodyPgTripConfig d s = ok d (updTrip (u8 d.bytes 16) (fun t => { t with next := some (slice d.bytes 17 4) }) s) :=
  (if_neg h).trans (if_neg (by simp [hl]))

/-- The waiting configuration comes into force, with the input read by its new polarity. -/
theorem tripBoundary_waiting {n : Nat} {c : List Byte} (h : (trip s n).next = some c) :
    tripBoundary n s = tripArrive n (updTrip n (fun t => { t with
      next := none, en := u8 c 0 == 1, latch := u8 c 1 == 1, flags := u8 c 2, filter := u8 c 3
      input := if bit t.flags 0 = bit (u8 c 2) 0 then t.input else !t.input }) s) := by
  simp only [tripBoundary, h, beq_iff_eq]

/-! ## PG_TRIP_CLEAR (R269) -/

theorem bit_eq_testBit (n i : Nat) : bit n i = n.testBit i := by
  rw [Nat.testBit_eq_decide_div_mod_eq, bit]
  rfl

/-- The mask of the numbers below `k` that satisfy `p`. -/
def maskBelow (k : Nat) (p : Nat → Bool) : Nat := ((List.range k).filter p).foldl (fun a n => a + 2 ^ n) 0

theorem maskBelow_succ (k : Nat) (p : Nat → Bool) : maskBelow (k + 1) p = if p k then 2 ^ k + maskBelow k p else maskBelow k p := by
  rw [maskBelow, List.range_succ, List.filter_append, List.foldl_append]
  cases h : p k <;> simp [maskBelow, h, Nat.add_comm]

theorem maskBelow_lt (k : Nat) (p : Nat → Bool) : maskBelow k p < 2 ^ k := by
  induction k with
  | zero => exact Nat.one_pos
  | succ k ih =>
    rw [maskBelow_succ, Nat.pow_succ]
    split <;> omega

theorem testBit_maskBelow {k n : Nat} (p : Nat → Bool) (hn : n < k) : (maskBelow k p).testBit n = p n := by
  induction k with
  | zero => omega
  | succ k ih =>
    rw [maskBelow_succ]
    rcases Nat.lt_succ_iff_lt_or_eq.mp hn with hlt | rfl
    · split
      · rw [Nat.testBit_two_pow_add_gt hlt, ih hlt]
      · exact ih hlt
    · have hout := Nat.testBit_lt_two_pow (maskBelow_lt n p)
      cases h : p n
      · exact hout
      · simp [Nat.testBit_two_pow_add_eq, hout]

theorem bit_maskBelow {k n : Nat} (p : Nat → Bool) (hn : n < k) : bit (maskBelow k p) n = p n :=
  (bit_eq_testBit ..).trans (testBit_maskBelow p hn)

theorem maskBelow_eq_zero {k : Nat} {p : Nat → Bool} (h : ∀ n, n < k → p n = false) : maskBelow k p = 0 := by
  have hnil : (List.range k).filter p = [] := List.filter_eq_nil_iff.mpr fun n hn => by simp [h n (List.mem_range.mp hn)]
  rw [maskBelow, hnil, List.foldl_nil]

/-- Of a mask of one bit only that number is left. -/
theorem filter_range_single {k n : Nat} (q : Nat → Bool) (hn : n < k) :
    ((List.range k).filter fun m => bit (2 ^ n) m && q m) = if q n then [n] else [] := by
  have hbit : (fun m => bit (2 ^ n) m && q m) = fun m => q m && (m == n) := funext fun m => by
    rw [bit_eq_testBit, Nat.testBit_two_pow, Bool.and_comm]
    exact congrArg (q m && ·) ((Bool.beq_eq_decide_eq m n).trans (decide_eq_decide.mpr eq_comm)).symm
  rw [hbit, ← List.filter_filter, List.filter_beq, List.count_eq_one_of_mem List.nodup_range (List.mem_range.mpr hn)]
  cases h : q n <;> simp [h]

end

section
variable {s : State}

/-- The latches that PG_TRIP_CLEAR clears, cleared one after the other. -/
def tripsCleared (m : Nat) (s : State) : State :=
  ((List.range 8).filter fun n => bit m n && (trip s n).latched && !(trip s n).input).foldl (fun s n => tripClear n 0 s) s

/-- The trips of a mask that are latched. -/
def latchedMask (m : Nat) (s : State) : Nat := maskBelow 8 fun n => bit m n && (trip s n).latched

variable {d : Desc}

theorem exec_pgTripClear_passes (hp : passes 0x0802 d s = true) : exec (.pgTripClear d) s = .next (bodyPgTripClear d s) :=
  congrArg _ (runDesc_passes _ hp)

theorem bodyPgTripClear_eq (d : Desc) (s : State) : bodyPgTripClear d s =
    if latchedMask (u8 d.bytes 16) (tripsCleared (u8 d.bytes 16) s) = 0 then ok d (tripsCleared (u8 d.bytes 16) s)
    else failWith d 0x0801 (leBytes 1 (latchedMask (u8 d.bytes 16) (tripsCleared (u8 d.bytes 16) s))) (tripsCleared (u8 d.bytes 16) s) := rfl

theorem bit_latchedMask {m n : Nat} (s : State) (hn : n < 8) : bit (latchedMask m s) n = (bit m n && (trip s n).latched) := bit_maskBelow _ hn

theorem bodyPgTripClear_all (h : ∀ n, n < 8 → bit (u8 d.bytes 16) n = true → (trip (tripsCleared (u8 d.bytes 16) s) n).latched = false) :
    bodyPgTripClear d s = ok d (tripsCleared (u8 d.bytes 16) s) := by
  refine (bodyPgTripClear_eq d s).trans (if_pos (maskBelow_eq_zero fun n hn => ?_))
  cases hb : bit (u8 d.bytes 16) n with
  | false => rfl
  | true => exact h n hn hb

theorem bodyPgTripClear_some {n : Nat} (hn : n < 8) (hb : bit (u8 d.bytes 16) n = true)
    (hl : (trip (tripsCleared (u8 d.bytes 16) s) n).latched = true) :
    bodyPgTripClear d s = failWith d 0x0801 (leBytes 1 (latchedMask (u8 d.bytes 16) (tripsCleared (u8 d.bytes 16) s)))
      (tripsCleared (u8 d.bytes 16) s) := by
  refine (bodyPgTripClear_eq d s).trans (if_neg fun h0 => ?_)
  have hbit := bit_latchedMask (m := u8 d.bytes 16) (tripsCleared (u8 d.bytes 16) s) hn
  rw [h0, hb, hl, bit_eq_testBit, Nat.zero_testBit] at hbit
  cases hbit

/-- A mask of one trip clears that one or nothing. -/
theorem tripsCleared_single {n : Nat} (s : State) (hn : n < 8) :
    tripsCleared (2 ^ n) s = if (trip s n).latched && !(trip s n).input then tripClear n 0 s else s := by
  have hf := filter_range_single (fun m => (trip s m).latched && !(trip s m).input) hn
  simp only [← Bool.and_assoc] at hf
  rw [tripsCleared, hf]
  split <;> rfl

theorem latchedMask_single {n : Nat} (s : State) (hn : n < 8) : latchedMask (2 ^ n) s = if (trip s n).latched then 2 ^ n else 0 := by
  rw [latchedMask, maskBelow, filter_range_single (fun m => (trip s m).latched) hn]
  split <;> simp

/-- PG_TRIP_CLEAR of one trip. -/
theorem bodyPgTripClear_single {n : Nat} (hm : u8 d.bytes 16 = 2 ^ n) (hn : n < 8) {u : State}
    (hu : u = if (trip s n).latched && !(trip s n).input then tripClear n 0 s else s) :
    bodyPgTripClear d s = if (trip u n).latched then failWith d 0x0801 (leBytes 1 (2 ^ n)) u else ok d u := by
  rw [bodyPgTripClear_eq, hm, tripsCleared_single s hn, ← hu, latchedMask_single u hn]
  cases (trip u n).latched <;> simp

/-- The latch of a trip cleared on the channels of a list. -/
def unlatch (n : Nat) (s : State) (o : Obj) : State :=
  if bit (pwmOf o).latched n then
    updPwm o.idx (fun r => { r with latched := setBit r.latched n false, await := isEnabled o, carry := 0 }) s
  else s

theorem tripClear_eq (n c : Nat) (s : State) : tripClear n c s = raise0 0x0841 0 (leBytes 1 n ++ leBytes 1 c)
    ((objsOf s tyPwmch).foldl (unlatch n) (updTrip n (fun t => { t with latched := false }) s)) := rfl

theorem tripClear_of_no_channels (n c : Nat) (h : ∀ o ∈ s.objs, o.typ ≠ tyPwmch) : tripClear n c s
    = raise0 0x0841 0 (leBytes 1 n ++ leBytes 1 c) (updTrip n (fun t => { t with latched := false }) s) := by
  rw [tripClear_eq, objsOf_eq_nil h, List.foldl_nil]

theorem tripClear_of_one {n : Nat} {o : Obj} (c : Nat) (hs : s.objs = [o]) (ht : o.typ = tyPwmch) (hl : bit (pwmOf o).latched n = true) :
    tripClear n c s = raise0 0x0841 0 (leBytes 1 n ++ leBytes 1 c) (updPwm o.idx (fun r => { r with
      latched := setBit r.latched n false, await := isEnabled o, carry := 0 }) (updTrip n (fun t => { t with latched := false }) s)) := by
  have hone : objsOf s tyPwmch = [o] := by simp [objsOf, hs, ht]
  rw [tripClear_eq, hone, List.foldl_cons, List.foldl_nil, unlatch, if_pos hl]

theorem trip_tripClear_of_no_channels {n : Nat} (c : Nat) (h : ∀ o ∈ s.objs, o.typ ≠ tyPwmch) (hn : n < s.pg.trips.length) :
    (trip (tripClear n c s) n).latched = false := by
  rw [tripClear_of_no_channels n c h, trip_congr (touches_raise0 ..).pg, trip_updTrip_same _ hn]

end

/-! ## PG_COMM_CONFIG and PG_COMMUTATE (R270, R271, R277) -/

section
variable {d : Desc} {s : State}

theorem exec_pgCommConfig_passes (hp : passes 0x0803 d s = true) : exec (.pgCommConfig d) s = .next (bodyPgCommConfig d s) :=
  congrArg _ (runDesc_passes _ hp)

theorem commBad_param {g : Nat} {b : List Byte}
    (h : 16 ≤ g ∨ 2 < u8 b 0 ∨ u8 b 1 = 0 ∨ 8 < u8 b 1 ∨ u8 b 1 ≤ u8 b 6 ∨ u8 b 7 ≠ 0) : commBad s g b = some 0x0004 :=
  if_pos (by omega)

theorem bodyPgCommConfig_bad {e : Nat} (h : commBad s (dOffset d) (blockOf s d) = some e) : bodyPgCommConfig d s = fail d e s := by
  simp only [bodyPgCommConfig, h]

theorem bodyPgCommConfig_sets (h : commBad s (dOffset d) (blockOf s d) = none) : bodyPgCommConfig d s
    = ok d (commRefresh (dOffset d) (updGroup (dOffset d)
      (fun x => { x with comm := some (blockOf s d), step := u8 (blockOf s d) 6, floating := false }) s)) := by
  simp only [bodyPgCommConfig, h]

theorem commRefresh_of_no_channels (g : Nat) (h : ∀ o ∈ s.objs, o.typ ≠ tyPwmch) : commRefresh g s = s := by
  rw [commRefresh, objsOf_eq_nil h, List.filter_nil, List.foldl_nil]

theorem exec_pgCommutate_passes (hp : passes 0x0804 d s = true) : exec (.pgCommutate d) s = .next (bodyPgCommutate d s) :=
  congrArg _ (runDesc_passes _ hp)

theorem bodyPgCommutate_param (h : 16 ≤ u8 d.bytes 16 ∨ 2 < u8 d.bytes 17 ∨ u8 d.bytes 17 ≠ 2 ∧ u8 d.bytes 18 ≠ 0) :
    bodyPgCommutate d s = fail d 0x0004 s := if_pos h

section
variable (hok : ¬ (16 ≤ u8 d.bytes 16 ∨ 2 < u8 d.bytes 17 ∨ u8 d.bytes 17 ≠ 2 ∧ u8 d.bytes 18 ≠ 0))
include hok

theorem bodyPgCommutate_tableless (hc : (pgGroup s (u8 d.bytes 16)).comm = none) : bodyPgCommutate d s = fail d 0x000E s := by
  refine (if_neg hok).trans ?_
  simp only [hc]
  rfl

variable {b : List Byte} (hc : (pgGroup s (u8 d.bytes 16)).comm = some b)
include hc

theorem bodyPgCommutate_beyond (h2 : u8 d.bytes 17 = 2) (hn : u8 b 1 ≤ u8 d.bytes 18) : bodyPgCommutate d s = fail d 0x0004 s := by
  refine (if_neg hok).trans ?_
  simp only [hc]
  exact if_pos ⟨h2, hn⟩

/-- The step that is asked, or the next one forward or back. -/
theorem bodyPgCommutate_steps (h : u8 d.bytes 17 = 2 → u8 d.bytes 18 < u8 b 1) : bodyPgCommutate d s
    = ok d (commRefresh (u8 d.bytes 16) (updGroup (u8 d.bytes 16) (fun x => { x with
      step := if u8 d.bytes 17 = 2 then u8 d.bytes 18 else commNext (u8 b 1) x.step (u8 d.bytes 17 == 1) }) s)) := by
  refine (if_neg hok).trans ?_
  simp only [hc]
  exact if_neg fun hx => absurd (h hx.1) (by omega)

end

/-! ## PG_STATUS (R277) -/

/-- The edge channels that a PWMCH takes. -/
def edgeCount (o : Obj) : Nat := if pwPair o.params then 2 else 1

/-- The edge channels of a group. -/
def groupEdges (s : State) (g : Nat) : Nat :=
  (((objsOf s tyPwmch).filter fun o => pwGroup o.params == g).map edgeCount).foldl (· + ·) 0

/-- The record of a group in PG_STATUS. -/
def groupRecord (s : State) (x : PgGroup × Nat) : List Byte :=
  leBytes 4 x.1.period ++ (leBytes 1 (b2n x.1.aligned) ++ (leBytes 1 x.1.step ++ (leBytes 2 (groupEdges s x.2) ++ leBytes 8 (x.1.next.getD 0))))

/-- The mask of the trips with a property. -/
def tripMask (s : State) (p : Trip → Bool) : Nat := (s.pg.trips.zipIdx.map fun x => 2 ^ x.2 * b2n (p x.1)).foldl (· + ·) 0

/-- The bytes that PG_STATUS writes. -/
def pgStatusBytes (s : State) : List Byte :=
  s.pg.groups.zipIdx.flatMap (groupRecord s)
    ++ (leBytes 1 (tripMask s (·.latched)) ++ (leBytes 1 (tripMask s fun t => t.input == bit t.flags 0) ++ List.replicate 6 0))

theorem exec_pgStatus_passes (hp : passes 0x0805 d s = true) : exec (.pgStatus d) s = .next (writeBack d (pgStatusBytes s) {} s) := by
  have hrec : pgStatusBytes s = s.pg.groups.zipIdx.flatMap (groupRecord s) ++ leBytes 1 (tripMask s (·.latched))
      ++ leBytes 1 (tripMask s fun t => t.input == bit t.flags 0) ++ List.replicate 6 0 := by
    simp only [pgStatusBytes, List.append_assoc]
  refine congrArg _ ((runDesc_passes _ hp).trans ?_)
  rw [hrec]
  unfold groupRecord
  simp only [← List.append_assoc]
  rfl

theorem groupRecord_length (s : State) (x : PgGroup × Nat) : (groupRecord s x).length = 16 := by simp [groupRecord]

theorem pgStatusBytes_length (hl : s.pg.groups.length = 16) : (pgStatusBytes s).length = 264 := by
  simp [pgStatusBytes, length_flatMap_records fun x _ => groupRecord_length s x, hl]

/-- Bytes of a group's record. -/
theorem slice_pgStatusBytes {g off m : Nat} (hl : s.pg.groups.length = 16) (hg : g < 16) (hm : off + m ≤ 16) :
    slice (pgStatusBytes s) (16 * g + off) m = slice (groupRecord s (pgGroup s g, g)) off m := by
  have hx : s.pg.groups.zipIdx[g]? = some (pgGroup s g, g) := by
    have hlt : g < s.pg.groups.length := by omega
    simp [pgGroup, hlt]
  have hlen := length_flatMap_records (l := s.pg.groups.zipIdx) fun x _ => groupRecord_length s x
  rw [List.length_zipIdx, hl] at hlen
  have hhead := slice_append_mid (a := []) (v := s.pg.groups.zipIdx.flatMap (groupRecord s)) (off := 16 * g + off) (m := m)
    (c := leBytes 1 (tripMask s (·.latched)) ++ (leBytes 1 (tripMask s fun t => t.input == bit t.flags 0) ++ List.replicate 6 0))
    rfl (by omega)
  rw [List.length_nil, Nat.zero_add] at hhead
  exact hhead.trans (slice_flatMap_records (fun x _ => groupRecord_length s x) hx hm)

theorem pgStatusBytes_period {g : Nat} (hl : s.pg.groups.length = 16) (hg : g < 16) :
    u32 (pgStatusBytes s) (16 * g) = (pgGroup s g).period % 2 ^ 32 := by
  rw [u32, show 16 * g = 16 * g + 0 from rfl, slice_pgStatusBytes hl hg (by decide), groupRecord, slice_leBytes_here, leNat_leBytes]
  rfl

theorem pgStatusBytes_step {g : Nat} (hl : s.pg.groups.length = 16) (hg : g < 16) :
    u8 (pgStatusBytes s) (16 * g + 5) = (pgGroup s g).step % 256 := by
  rw [u8_eq_leNat, slice_pgStatusBytes hl hg (by decide), groupRecord, slice_leBytes_skip _ _ _ (by decide),
    slice_leBytes_skip _ _ _ (by decide), slice_leBytes_here, leNat_leBytes]
  rfl

end

/-! ## The statement -/

/-- Settles O39: each descriptor by the check that it fails or the change that it makes; a mask of one trip clears that trip
alone. -/
theorem pulseGeneratorCommands : Obligations.PulseGeneratorCommands := by
  refine ⟨fun s d g al p an x hp hg hal hpd han hx => ?_, fun s d n bad hp hn hbad => ?_, fun s n c h => tripBoundary_waiting h,
    fun s d m u hp hm hu => ?_, fun s d n hp hn hm => ?_, fun s n c o hs ht hl => tripClear_of_one c hs ht hl,
    fun s d b g hp hb hg => ?_, fun g s h => commRefresh_of_no_channels g h, fun s d g op st hp hg hop hst => ?_, fun s d hp => ?_⟩
  · subst hg hal hpd han hx
    rw [exec_pgGroupConfig_passes hp]
    refine ⟨fun h => congrArg _ (bodyPgGroupConfig_param h), fun h16 h2 h96 hmax => ?_⟩
    have hok : ¬ (16 ≤ u8 d.bytes 16 ∨ 2 ≤ u8 d.bytes 17 ∨ u32 d.bytes 20 < 96 ∨ 268435455 < u32 d.bytes 20) := by omega
    refine ⟨fun hc => ⟨firstStart d s, congrArg _ (bodyPgGroupConfig_fresh hok hc), fun h0 => if_neg (by omega), fun h1 => ?_⟩,
      fun hc h1 h2 h3 h4 h5 => congrArg _ (bodyPgGroupConfig_same hok hc ⟨h1, h2, h3, h4, h5⟩), fun hc ha h0 han hd => ?_, fun hc hf hd => ?_⟩
    · rw [show firstStart d s = _ from if_pos h1]
      exact alignedFrom_spec _ _ (by omega)
    · refine congrArg _ (bodyPgGroupConfig_period hok hc ?_ ⟨ha, h0, han⟩)
      rintro ⟨h1, -, h3, -, h5⟩
      simp [h1, h3, h5] at hd
    · refine congrArg _ (bodyPgGroupConfig_busy hok hc ?_ ?_)
      · rintro ⟨h1, h2, h3, h4, h5⟩
        simp [h1, h2, h3, h4, h5] at hd
      · rintro ⟨h1, h2, h3⟩
        simp [h1, h2, h3] at hf
  · subst hn
    rw [exec_pgTripConfig_passes hp, show bad = tripConfigBad d from hbad]
    exact ⟨fun h => congrArg _ (bodyPgTripConfig_param h), fun h hl => congrArg _ (bodyPgTripConfig_latched h hl),
      fun h hl => congrArg _ (bodyPgTripConfig_waits h hl)⟩
  · subst hm
    rw [exec_pgTripClear_passes hp, show u = tripsCleared (u8 d.bytes 16) s from hu]
    refine ⟨fun h => congrArg _ (bodyPgTripClear_all h), fun ⟨n, hn, hb, hl⟩ => ?_⟩
    exact ⟨_, congrArg _ (bodyPgTripClear_some hn hb hl), fun n hn => bit_latchedMask _ hn⟩
  · rw [exec_pgTripClear_passes hp]
    refine ⟨fun hl => ?_, fun hl hi => ?_, fun hl hi h8 hc => ?_⟩
    · rw [bodyPgTripClear_single hm hn (u := s) (by simp [hl]), if_neg (by simp [hl])]
    · rw [bodyPgTripClear_single hm hn (u := s) (by simp [hi]), if_pos hl]
    · rw [bodyPgTripClear_single hm hn (u := tripClear n 0 s) (by simp [hl, hi]),
        if_neg (by simp [trip_tripClear_of_no_channels 0 hc (show n < s.pg.trips.length by omega)]), tripClear_of_no_channels n 0 hc]
      rfl
  · subst hb hg
    rw [exec_pgCommConfig_passes hp]
    exact ⟨fun h => congrArg _ (bodyPgCommConfig_sets h), fun e h => congrArg _ (bodyPgCommConfig_bad h),
      fun h => congrArg _ (bodyPgCommConfig_bad (commBad_param h))⟩
  · subst hg hop hst
    rw [exec_pgCommutate_passes hp]
    refine ⟨fun h => congrArg _ (bodyPgCommutate_param h), fun h16 h2 hst => ?_⟩
    have hok : ¬ (16 ≤ u8 d.bytes 16 ∨ 2 < u8 d.bytes 17 ∨ u8 d.bytes 17 ≠ 2 ∧ u8 d.bytes 18 ≠ 0) := by omega
    refine ⟨fun hc => congrArg _ (bodyPgCommutate_tableless hok hc), fun b hc => ⟨fun ho hn => congrArg _ (bodyPgCommutate_beyond hok hc ho hn),
      fun ho hn => ?_, fun ho => ?_, fun ho => ?_⟩⟩
    · simp only [bodyPgCommutate_steps hok hc fun _ => hn, ho, if_true]
    · simp [bodyPgCommutate_steps hok hc (by omega), ho, commNext]
    · simp [bodyPgCommutate_steps hok hc (by omega), ho, commNext]
  · exact ⟨pgStatusBytes s, exec_pgStatus_passes hp, pgStatusBytes_length, fun g hg hl => ⟨pgStatusBytes_period hl hg, pgStatusBytes_step hl hg⟩⟩

end Sys2Proof.Machine
end

section
/-! PROOFS. Pulse generator (08): period starts, edges, trips, dead time, blanking and commutation inputs (R258, R259, R264, R265, R267
to R269, R271, R272, R276). -/

namespace Sys2Proof.Machine

/-- A fold whose every step leaves the state as it is. -/
theorem foldl_of_fixed {α : Type} {f : State → α → State} {s : State} : ∀ l : List α, (∀ x ∈ l, f s x = s) → l.foldl f s = s
  | [], _ => rfl
  | x :: l, h => by
    rw [List.foldl_cons, h x List.mem_cons_self]
    exact foldl_of_fixed l fun y hy => h y (List.mem_cons_of_mem _ hy)

/-- A fold in which one element acts, and no other before it or after it. -/
theorem foldl_of_one {α : Type} {f : State → α → State} {s : State} {a : α} {l : List α} (hn : l.Nodup) (ha : a ∈ l)
    (hbefore : ∀ x ∈ l, x ≠ a → f s x = s) (hafter : ∀ x ∈ l, x ≠ a → f (f s a) x = f s a) : l.foldl f s = f s a := by
  obtain ⟨l₁, l₂, rfl⟩ := List.append_of_mem ha
  obtain ⟨-, hn₂, hd⟩ := List.nodup_append.mp hn
  rw [List.foldl_append, foldl_of_fixed l₁ fun x hx => hbefore x (by simp [hx]) (hd x hx a (by simp)), List.foldl_cons]
  exact foldl_of_fixed l₂ fun x hx => hafter x (by simp [hx]) fun hxa => (List.nodup_cons.mp hn₂).1 (hxa ▸ hx)

/-! ## Period starts (R258) -/

@[simp] theorem updGroup_trips (g : Nat) (f : PgGroup → PgGroup) (s : State) : (updGroup g f s).pg.trips = s.pg.trips := rfl

/-- The index of the period that starts at `t` (R258). -/
def periodIndex (x : PgGroup) (t p : Nat) : Nat :=
  if x.start.isNone then (if x.aligned then (((t : Int) - x.anchor) / (p : Int) % 16).toNat else 0) else (x.k + 1) % 16

theorem eq_periodIndex {x : PgGroup} {t p k : Nat} (hrun : x.start ≠ none → k = (x.k + 1) % 16)
    (hfree : x.start = none → x.aligned = false → k = 0)
    (haligned : x.start = none → x.aligned = true → k = (((t : Int) - x.anchor) / (p : Int) % 16).toNat) : k = periodIndex x t p := by
  unfold periodIndex
  by_cases hs : x.start = none
  · rw [if_pos (by simp [hs])]
    cases ha : x.aligned with
    | false => exact hfree hs ha
    | true => exact haligned hs ha
  · rw [if_neg (by simpa using hs)]
    exact hrun hs

section
variable {s : State} {g : Nat}

theorem execPeriodStart_idle (h : (pgGroup s g).next = none) : execPeriodStart g s = .next s := by
  simp only [execPeriodStart, h]

/-- The group moves on; then the axes write their duties, FAULTED channels count, and each channel starts its period. -/
theorem execPeriodStart_due {t p k : Nat} {u v : State} (h : (pgGroup s g).next = some t)
    (hp : p = (pgGroup s g).nextPeriod.getD (pgGroup s g).period) (hk : k = periodIndex (pgGroup s g) t p)
    (hu : u = updGroup g (fun x => { x with period := p, nextPeriod := none, start := some t, next := some (t + p), k := k }) (toInstant t s))
    (hv : v = countFaulted ((axesOnGroup u g).foldl (fun s o => axDuties t p o s) u) g) :
    execPeriodStart g s = .next (cycleAgain g ((groupChans v g).foldl (fun s o => chanPeriod t k p o.idx s) v)) := by
  subst hv hu hk hp
  simp only [execPeriodStart, h]
  rfl

theorem groupChans_of_no_channels (g : Nat) (h : ∀ o ∈ s.objs, o.typ ≠ tyPwmch) : groupChans s g = [] := by
  rw [groupChans, objsOf_eq_nil h, List.filter_nil]

theorem countFaulted_of_no_channels (g : Nat) (h : ∀ o ∈ s.objs, o.typ ≠ tyPwmch) : countFaulted s g = s := by
  rw [countFaulted, objsOf_eq_nil h, List.filter_nil, List.foldl_nil]

theorem axesOnGroup_of_no_axes (g : Nat) (h : ∀ o ∈ s.objs, o.typ ≠ tyAxis) : axesOnGroup s g = [] := by
  rw [axesOnGroup, objsOf_eq_nil h, List.filter_nil]

/-- Trips that are not enabled do not act again. -/
theorem cycleAgain_of_disabled (g : Nat) (h : ∀ x ∈ s.pg.trips, x.en = false) : cycleAgain g s = s := by
  refine foldl_of_fixed _ fun n _ => ?_
  have hen : (trip s n).en = false := trip_of_forall h rfl n
  simp [hen]

/-- Without PWMCHs, axes and enabled trips only the group changes. -/
theorem periodStart_of_no_users {t k p : Nat} (hc : ∀ o ∈ s.objs, o.typ ≠ tyPwmch) (ha : ∀ o ∈ s.objs, o.typ ≠ tyAxis)
    (ht : ∀ x ∈ s.pg.trips, x.en = false) {v : State} (hv : v = countFaulted ((axesOnGroup s g).foldl (fun s o => axDuties t p o s) s) g) :
    cycleAgain g ((groupChans v g).foldl (fun s o => chanPeriod t k p o.idx s) v) = s := by
  rw [axesOnGroup_of_no_axes g ha, List.foldl_nil, countFaulted_of_no_channels g hc] at hv
  rw [hv, groupChans_of_no_channels g hc, List.foldl_nil, cycleAgain_of_disabled g ht]

end

/-! ## Minimum pulse (R265) -/

section
variable {st w wt p dr df mp : Nat} {c : Int} {pair str : Bool}

theorem minPulse_zero : minPulse st 0 wt p dr df mp c pair str = { level := some false } := by
  rw [minPulse, if_pos rfl]

theorem minPulse_full (hp : 0 < p) : minPulse st p wt p dr df mp c pair str = { level := some true } :=
  (if_neg (by omega)).trans (if_pos rfl)

theorem minPulse_unlimited (h0 : w ≠ 0) (hp : w ≠ p) :
    minPulse st w wt p dr df 0 c pair str = { set := some st, clr := some ((st + w) % p) } := by
  have hclr : (((st + w : Nat) : Int) % (p : Int)).toNat = (st + w) % p := by rw [← Int.natCast_emod, Int.toNat_natCast]
  refine (if_neg h0).trans ((if_neg hp).trans ((if_pos rfl).trans ?_))
  rw [← hclr]
  rfl

theorem minPulse_tooShort (h0 : w ≠ 0) (hp : w ≠ p) (hm : mp ≠ 0) (hs : (wt : Int) + c - dr < mp) :
    minPulse st w wt p dr df mp c pair false = { carry := (wt : Int) + c, short := 1 } :=
  (if_neg h0).trans ((if_neg hp).trans ((if_neg hm).trans (if_pos ⟨hs, by decide⟩)))

end

/-! ## The shadow at a period start (R258) -/

theorem shadowAtStart_present {t : Nat} {o : Obj} (h : (pwmOf o).shadowAt + 48 ≤ t) :
    shadowAtStart t o = some { since := (pwmOf o).shadowAt, params := o.params, phase := (pwmOf o).phaseSh } := by
  simp only [shadowAtStart, List.find?_cons, h, decide_true]

/-- A channel's running state once it has taken up a shadow. -/
def loaded (t : Nat) (o : Obj) (x : Shadow) : PwmRt :=
  { dueEdges t (pwmOf o) with phase := x.phase, carry := if u8 o.act 3 != u8 x.params 3 then 0 else (dueEdges t (pwmOf o)).carry }

theorem chanLoad_unlatched {s : State} {t : Nat} {o : Obj} {x : Shadow} (ho : objAt s o.idx = some o) (hx : shadowAtStart t o = some x)
    (hl : ∀ x ∈ s.pg.trips, x.latched = false) :
    chanLoad t o.idx s = updObj o.idx (fun c => { c with act := x.params, rt := .pwm (loaded t o x) }) s := by
  unfold chanLoad
  simp only [ho, hx, Option.getD_some]
  rw [List.filter_eq_nil_iff.mpr fun n _ => ?_, List.foldl_nil]
  · rfl
  · have hn : (trip s n).latched = false := trip_of_forall hl rfl n
    simp [trip_congr (updObj_pg _ _ s), hn]

/-! ## Compare edges (R259, R272) -/

/-- What an edge and the driving of a channel leave of its latch and its edges. -/
structure LatchKept (r q : PwmRt) : Prop where
  cmp : q.cmp = r.cmp
  setEdge : q.setEdge = r.setEdge
  clrEdge : q.clrEdge = r.clrEdge

theorem LatchKept.refl (r : PwmRt) : LatchKept r r := ⟨rfl, rfl, rfl⟩

theorem LatchKept.trans {r q x : PwmRt} (h : LatchKept r q) (k : LatchKept q x) : LatchKept r x :=
  ⟨k.cmp.trans h.cmp, k.setEdge.trans h.setEdge, k.clrEdge.trans h.clrEdge⟩

theorem LatchKept.ite {c : Prop} [Decidable c] {r q x : PwmRt} (h : LatchKept r q) (k : LatchKept r x) : LatchKept r (if c then q else x) := by
  split
  · exact h
  · exact k

theorem latchKept_pwSideOff (now : Nat) (ps : List Byte) (hard rising : Bool) (r : PwmRt) : LatchKept r (pwSideOff now ps hard rising r) := by
  unfold pwSideOff
  extract_lets q cur
  have hturn : LatchKept r q := .ite ⟨rfl, rfl, rfl⟩ (.refl r)
  clear_value q cur
  cases cur with
  | none => exact hturn
  | some t =>
    have hedge : LatchKept q (if t ≤ now then
        { q with lastEdge := now, blankUntil := if hard then q.blankUntil else now + u16 ps 32 } else q) := .ite ⟨rfl, rfl, rfl⟩ (.refl q)
    exact (hturn.trans hedge).trans (.ite ⟨rfl, rfl, rfl⟩ ⟨rfl, rfl, rfl⟩)

theorem latchKept_pwSideOn (now : Nat) (ps : List Byte) (hard rising : Bool) (r : PwmRt) : LatchKept r (pwSideOn now ps hard rising r) := by
  unfold pwSideOn
  extract_lets put
  have hput (t : Nat) : LatchKept r (put t) := .ite ⟨rfl, rfl, rfl⟩ ⟨rfl, rfl, rfl⟩
  exact .ite (.refl r) (.ite (hput _) (.ite (.ite (.refl r) ⟨rfl, rfl, rfl⟩) (hput _)))

theorem latchKept_pwTurned (t : Nat) (ps : List Byte) (rising : Bool) (start : Nat) (r : PwmRt) :
    LatchKept r (pwTurned t ps rising start r) := .ite ⟨rfl, rfl, rfl⟩ ⟨rfl, rfl, rfl⟩

theorem latchKept_pwSwnThere (now : Nat) (ps : List Byte) (swn : Bool) (r : PwmRt) : LatchKept r (pwSwnThere now ps swn r) := by
  unfold pwSwnThere
  split
  · exact .ite (latchKept_pwTurned ..) (.refl r)
  · exact .refl r

/-- Driving a channel changes neither its latch nor its edges. -/
theorem latchKept_pwDrive (now : Nat) (ps : List Byte) (swn : Bool) (w : (Bool × Bool) × Bool) (r : PwmRt) :
    LatchKept r (pwDrive now ps swn w r) := by
  unfold pwDrive
  extract_lets r₁ r₂ r₃
  have h₁ : LatchKept r r₁ := .ite (.refl r) (latchKept_pwSideOff ..)
  have h₂ : LatchKept r₁ r₂ := .ite (.refl r₁) (latchKept_pwSideOff ..)
  have h₃ : LatchKept r₂ r₃ := .ite (latchKept_pwSideOn ..) (.refl r₂)
  exact (h₁.trans (h₂.trans (h₃.trans (.ite (latchKept_pwSideOn ..) (.refl r₃))))).trans (latchKept_pwSwnThere ..)

/-- What decides, beside the device, whether a source above the compares holds a channel. -/
structure SourcesKept (r q : PwmRt) : Prop where
  gate : q.gate = r.gate
  force : q.force = r.force
  cyc : q.cyc = r.cyc
  latched : q.latched = r.latched
  await : q.await = r.await
  tripped : q.tripped = r.tripped
  dispHeld : q.dispHeld = r.dispHeld

theorem sourcesKept_dueEdges (t : Nat) (r : PwmRt) : SourcesKept r (dueEdges t r) := by
  unfold dueEdges
  extract_lets isDue
  split <;> exact ⟨rfl, rfl, rfl, rfl, rfl, rfl, rfl⟩

theorem commMask_congr {s u : State} (h : u.pg = s.pg) (ps : List Byte) : commMask u ps = commMask s ps := by
  unfold commMask
  rw [pgGroup_congr h]

theorem pwHeld_congr {s u : State} {o : Obj} {r q : PwmRt} (hisl : u.isl = s.isl) (hpwr : u.pwr = s.pwr) (hpg : u.pg = s.pg)
    (hr : SourcesKept r q) : pwHeld u { o with rt := .pwm q } q = pwHeld s o r := by
  simp only [pwHeld, safeForced, commMask_congr hpg, hisl, hpwr, hr.gate, hr.force, hr.cyc, hr.latched, hr.await]

/-- What `pwmRefresh` makes of a channel. -/
def pwSettled (s : State) (o : Obj) (r : PwmRt) : PwmRt :=
  if pwHeld s o r then { pwDrive s.gtc o.act (s.pg.swn.getD (pwChan o.act / 2) false) (pwWant s o r) r with cmp := (pwWant s o r).1.1 }
  else pwDrive s.gtc o.act (s.pg.swn.getD (pwChan o.act / 2) false) (pwWant s o r) r

theorem latchKept_pwSettled {s : State} {o : Obj} {r : PwmRt} (h : pwHeld s o r = false) : LatchKept r (pwSettled s o r) := by
  rw [pwSettled, if_neg (by simp [h])]
  exact latchKept_pwDrive ..

/-- A channel that no higher source holds is not held inactive by one. -/
theorem pwForced_free {s : State} {o : Obj} (hh : pwHeld s o (pwmOf o) = false) (ht : (pwmOf o).tripped = false)
    (hd : (pwmOf o).dispHeld = false) : pwForced s o = false := by
  simp only [pwHeld, Bool.or_eq_false_iff, bne_eq_false_iff_eq] at hh
  obtain ⟨⟨⟨⟨⟨⟨⟨⟨⟨hestop, hoff⟩, hsafe⟩, hen⟩, hlatched⟩, hawait⟩, -⟩, -⟩, -⟩, -⟩ := hh
  simp [pwForced, isEnabled, hestop, hoff, hsafe, hen, hlatched, hawait, ht, hd]

/-- A channel on a PWM pin that no higher source holds is driven, and nothing else happens. -/
theorem pwmRefresh_free {s : State} {i : Nat} {o : Obj} (ho : objAt s i = some o) (hc : pwChan o.act < 64)
    (hh : pwHeld s o (pwmOf o) = false) (ht : (pwmOf o).tripped = false) (hd : (pwmOf o).dispHeld = false) :
    pwmRefresh i s = updPwm i (pwSettled s o) s := by
  have hforced : pwForced (updPwm i (pwSettled s o) s) o = false := pwForced_free hh ht hd
  simp only [pwmRefresh, ho]
  exact (if_neg (by omega)).trans (if_neg (ne_true_of_eq_false hforced))

theorem objAt_updPwm {s : State} {i : Nat} {o : Obj} (f : PwmRt → PwmRt) (ho : objAt s i = some o) :
    objAt (updPwm i f s) i = some { o with rt := .pwm (f (pwmOf o)) } := objAt_updObj_same (fun _ => rfl) ho

theorem objAt_updPwm_other {s : State} {i j : Nat} (f : PwmRt → PwmRt) (hj : j ≠ i) : objAt (updPwm i f s) j = objAt s j :=
  objAt_updObj_other (fun _ => rfl) hj

/-- A channel's running state after an edge on tick `t`, before its sides follow; an open gate blanks anew (R268). -/
def edgeFallen (t : Nat) (o : Obj) (r : PwmRt) : PwmRt :=
  dueEdges t { r with blankUntil := if (pwmOf o).gate then t + u16 o.act 32 else r.blankUntil }

theorem edgeFallen_set {t : Nat} {o : Obj} (hs : (pwmOf o).setEdge = some t) (hc : (pwmOf o).clrEdge = none) :
    (edgeFallen t o (pwmOf o)).cmp = true ∧ (edgeFallen t o (pwmOf o)).setEdge = none := by
  simp [edgeFallen, dueEdges, hs, hc]

theorem edgeFallen_clr {t : Nat} {o : Obj} (hc : (pwmOf o).clrEdge = some t) (hs : (pwmOf o).setEdge = none) :
    (edgeFallen t o (pwmOf o)).cmp = false ∧ (edgeFallen t o (pwmOf o)).clrEdge = none := by
  simp [edgeFallen, dueEdges, hs, hc]

section
variable {s : State} {h : Nat} {c : Bool}

theorem execPgCompareEdge_idle (hi : objOf s h = none ∨ ∃ o, objOf s h = some o ∧ (o.typ ≠ tyPwmch ∨ isEnabled o = false
    ∨ (if c then (pwmOf o).clrEdge else (pwmOf o).setEdge) = none)) : execPgCompareEdge h c s = .next s := by
  rcases hi with ho | ⟨o, ho, hx⟩
  · simp only [execPgCompareEdge, ho]
  · simp only [execPgCompareEdge, ho]
    refine congrArg _ ?_
    by_cases hg : o.typ ≠ tyPwmch ∨ (!isEnabled o) = true
    · exact if_pos hg
    · rw [if_neg hg]
      simp only [not_or, not_not, Bool.not_eq_true, Bool.not_eq_false'] at hg
      rw [(hx.resolve_left (not_not.mpr hg.1)).resolve_left (by simp [hg.2])]

variable {o : Obj} {t : Nat} (ho : objOf s h = some o) (ht : o.typ = tyPwmch) (he : isEnabled o = true)
  (hd : (if c then (pwmOf o).clrEdge else (pwmOf o).setEdge) = some t)
include ho ht he hd

theorem execPgCompareEdge_due :
    execPgCompareEdge h c s = .next (pwmRefresh o.idx (updPwm o.idx (edgeFallen t o) (toInstant t s))) := by
  simp only [execPgCompareEdge, ho]
  rw [if_neg (by simp [ht, he]), hd]
  rfl

/-- On a free channel the edge acts on its latch; only this channel changes, and the time. -/
theorem compareEdge_free (hat : objAt s o.idx = some o) (hc : pwChan o.act < 64) (hh : pwHeld s o (pwmOf o) = false)
    (htr : (pwmOf o).tripped = false) (hdh : (pwmOf o).dispHeld = false) :
    ∃ u r, execPgCompareEdge h c s = .next u ∧ u = { toInstant t s with objs := u.objs } ∧ objAt u o.idx = some { o with rt := .pwm r }
      ∧ LatchKept (edgeFallen t o (pwmOf o)) r ∧ ∀ i, i ≠ o.idx → objAt u i = objAt s i := by
  have hsrc : SourcesKept (pwmOf o) (edgeFallen t o (pwmOf o)) := by
    obtain ⟨h₁, h₂, h₃, h₄, h₅, h₆, h₇⟩ := sourcesKept_dueEdges t
      { pwmOf o with blankUntil := if (pwmOf o).gate then t + u16 o.act 32 else (pwmOf o).blankUntil }
    exact ⟨h₁, h₂, h₃, h₄, h₅, h₆, h₇⟩
  have hat' : objAt (toInstant t s) o.idx = some o := (objAt_congr (toInstant_objs t s) _).trans hat
  have hfallen := objAt_updPwm (edgeFallen t o) hat'
  have hfree : pwHeld (updPwm o.idx (edgeFallen t o) (toInstant t s)) { o with rt := .pwm (edgeFallen t o (pwmOf o)) }
      (edgeFallen t o (pwmOf o)) = false :=
    (pwHeld_congr (toInstant_isl t s) (toInstant_pwr t s) (toInstant_pg t s) hsrc).trans hh
  have hrefresh := pwmRefresh_free hfallen hc hfree (hsrc.tripped.trans htr) (hsrc.dispHeld.trans hdh)
  have hdriven := objAt_updPwm (pwSettled (updPwm o.idx (edgeFallen t o) (toInstant t s)) { o with rt := .pwm (edgeFallen t o (pwmOf o)) }) hfallen
  refine ⟨_, _, (execPgCompareEdge_due ho ht he hd).trans (congrArg _ hrefresh), rfl, hdriven, latchKept_pwSettled hfree, fun i hi => ?_⟩
  rw [objAt_updPwm_other _ hi, objAt_updPwm_other _ hi, objAt_congr (toInstant_objs t s)]

end

/-! ## Trips (R266 to R269) -/

section
variable {s : State} {n : Nat}

theorem execTripInputAssert_idle (h : 8 ≤ n ∨ (trip s n).input = true) : execTripInputAssert n s = .next s := congrArg _ (if_pos h)

theorem execTripInputAssert_arrives (hn : n < 8) (hi : (trip s n).input = false) :
    execTripInputAssert n s = .next (tripArrive n (updTrip n (fun t => { t with input := true }) s)) :=
  congrArg _ (if_neg (by simp [hi, hn]))

theorem execTripInputRelease_idle (h : 8 ≤ n ∨ (trip s n).input = false) : execTripInputRelease n s = .next s :=
  congrArg _ (if_pos (by simpa using h))

theorem execTripInputRelease_releases (hn : n < 8) (hi : (trip s n).input = true) :
    execTripInputRelease n s = .next (updTrip n (fun t => { t with input := false, released := s.gtc }) s) :=
  congrArg _ (if_neg (by simp [hi, hn]))

theorem tripArrive_idle (h : (trip s n).en = false ∨ (trip s n).input = false ∨ (trip s n).latch = true ∧ (trip s n).latched = true) :
    tripArrive n s = s :=
  if_pos (by simpa [or_assoc] using h)

/-- The channels that a trip acts on as it arrives: those that do not blank it. -/
def tripTakers (s : State) (n : Nat) : List Obj := (tripChans s n).filter fun o => !blanked s (trip s n) o

section
variable (he : (trip s n).en = true) (hi : (trip s n).input = true) (hl : (trip s n).latch = false ∨ (trip s n).latched = false)
include he hi hl

/-- An enabled trip with an active input and no latch acts on its takers, unless all blank it or a cycle trip has none. -/
theorem tripArrive_active : tripArrive n s =
    if (tripTakers s n).isEmpty && (!(tripChans s n).isEmpty || !(trip s n).latch) then s else tripActs n (tripTakers s n) s :=
  if_neg (by rcases hl with hl | hl <;> simp [he, hi, hl])

theorem tripArrive_takers (h : tripTakers s n ≠ []) : tripArrive n s = tripActs n (tripTakers s n) s := by
  rw [tripArrive_active he hi hl, if_neg (by simp [h])]

theorem tripArrive_unnamed (h : (trip s n).latch = true) (hc : tripChans s n = []) : tripArrive n s = tripActs n [] s := by
  have ht : tripTakers s n = [] := by rw [tripTakers, hc, List.filter_nil]
  rw [tripArrive_active he hi hl, ht, hc, h]
  rfl

theorem tripArrive_blanked (h : tripTakers s n = []) (hc : (trip s n).latch = false ∨ tripChans s n ≠ []) : tripArrive n s = s := by
  rw [tripArrive_active he hi hl, h]
  exact if_pos (by rcases hc with hc | hc <;> simp [hc])

end

theorem tripData_of_cycle {t : Trip} (n : Nat) (h : t.latch = false) : tripData n t = leBytes 1 n ++ [0, 0, 0, 0, 0, 0, 0] := by
  rw [tripData, h]
  rfl

theorem tripData_of_latch {t : Trip} (n : Nat) (h : t.latch = true) : tripData n t = leBytes 1 n ++ [1, 0, 0, 0, 0, 0, 0] := by
  rw [tripData, h]
  rfl

/-- A cycle trip is raised once a second; a latch trip latches and is raised once; then the channels follow. -/
theorem tripActs_eq (n : Nat) (os : List Obj) (s : State) : tripActs n os s = os.foldl (fun s o => tripOn n o.idx s) (
    if (trip s n).latch = false then raiseLimited 480000000 0x0840 0 0 n 0 (leBytes 1 n ++ [0, 0, 0, 0, 0, 0, 0]) 4 4 s
    else if (trip s n).latched = true then s
    else raise0 0x0840 0 (leBytes 1 n ++ [1, 0, 0, 0, 0, 0, 0]) (updTrip n (fun t => { t with latched := true }) s)) := by
  unfold tripActs
  cases hl : (trip s n).latch with
  | false => simp only [hl, tripData_of_cycle n hl, Bool.false_eq_true, if_false, if_true, secTicks]
  | true => simp only [hl, tripData_of_latch n hl, if_true, Bool.true_eq_false, if_false]

theorem tripOn_cycle (i : Nat) (h : (trip s n).latch = false) :
    tripOn n i s = pwmRefresh i (updPwm i (fun r => { r with cyc := true, carry := 0 }) s) := if_neg (by simp [h])

theorem tripOn_latch {i : Nat} (h : (trip s n).latch = true) {u : State}
    (hu : u = pwmRefresh i (updPwm i (fun r => { r with latched := setBit r.latched n true, carry := 0 }) s)) :
    tripOn n i s = if bit (trip s n).flags 3 = true then tripFault n i u else u := by
  subst hu
  exact if_pos h

/-- An enabled latch trip that no channel names latches as its input becomes active (log 14). -/
theorem tripInputAssert_latches (hn : n < 8) (hlen : s.pg.trips.length = 8) (hi : (trip s n).input = false)
    (he : (trip s n).en = true) (hl : (trip s n).latch = true) (hd : (trip s n).latched = false) (hc : tripChans s n = []) :
    execTripInputAssert n s = .next (raise0 0x0840 0 (leBytes 1 n ++ [1, 0, 0, 0, 0, 0, 0])
      (updTrip n (fun t => { t with input := true, latched := true }) s)) := by
  have hlt : n < s.pg.trips.length := by omega
  have ht : trip (updTrip n (fun t => { t with input := true }) s) n = { trip s n with input := true } := trip_updTrip_same _ hlt
  have harrive : tripArrive n (updTrip n (fun t => { t with input := true }) s) = tripActs n [] (updTrip n (fun t => { t with input := true }) s) :=
    tripArrive_unnamed (by rw [ht, he]) (by rw [ht]) (.inr (by rw [ht, hd])) (by rw [ht, hl]) hc
  rw [execTripInputAssert_arrives hn hi, harrive, tripActs_eq, ht, if_neg (by simp [hl]), if_neg (by simp [hd]), updTrip_updTrip _ _ hlt]
  rfl

theorem execTripReleaseClear_idle
    (h : 8 ≤ n ∨ (trip s n).latched = false ∨ (trip s n).input = true ∨ bit (trip s n).flags 2 = false) :
    execTripReleaseClear n s = .next s :=
  congrArg _ (if_neg (by rcases h with h | h | h | h <;> simp [h]))

theorem execTripReleaseClear_clears (hn : n < 8) (hl : (trip s n).latched = true) (hi : (trip s n).input = false)
    (hf : bit (trip s n).flags 2 = true) :
    execTripReleaseClear n s = .next (tripClear n 1 (toInstant ((trip s n).released + 4800) s)) :=
  congrArg _ (if_pos (by simp [hn, hl, hi, hf]))

end

/-! ## Dead time (R264) -/

section
variable {s : State}

theorem pwTurned_rising (t : Nat) (ps : List Byte) (x : Nat) (r : PwmRt) : pwTurned t ps true x r
    = { r with turn := none, blankUntil := t + u16 ps 32, h := some t, dtRise := t - x, measR := true } := rfl

theorem pwTurned_falling (t : Nat) (ps : List Byte) (x : Nat) (r : PwmRt) : pwTurned t ps false x r
    = { r with turn := none, blankUntil := t + u16 ps 32, l := some t, dtFall := t - x, measF := true } := rfl

theorem deadTimeEnd_present {i t start : Nat} {rising : Bool} {o : Obj} (ho : objAt s i = some o) :
    deadTimeEnd i t rising start s = updPwm i (pwTurned t o.act rising start) s := by
  simp only [deadTimeEnd, ho]

section
variable {p t : Nat} {high : Bool} {u : State} (hu : u = toInstant t { s with pg := { s.pg with swn := s.pg.swn.set p high } })
include hu

theorem objs_of_swn : u.objs = s.objs := by rw [hu, toInstant_objs]

theorem pwmOnChan_of_swn (c : Nat) : pwmOnChan u c = pwmOnChan s c := by
  rw [pwmOnChan, pwmOnChan, objsOf_congr (objs_of_swn hu)]

theorem execSwnTransition_kept (h : pwmOnChan s (2 * p) = none ∨ ∃ o, pwmOnChan s (2 * p) = some o ∧ ((pwmOf o).turn = none
    ∨ pwAdaptive o.act = false ∨ ∃ x, (pwmOf o).turn = some (!high, x))) : execSwnTransition p high t s = .next u := by
  rw [← pwmOnChan_of_swn hu] at h
  simp only [execSwnTransition, ← hu]
  rcases h with h | ⟨o, h, hx⟩
  · rw [h]
  · simp only [h]
    cases hturn : (pwmOf o).turn with
    | none => rfl
    | some x =>
      refine congrArg _ (if_pos ?_)
      rcases hx with hx | hx | ⟨y, hx⟩
      · simp [hturn] at hx
      · simp [hx]
      · simp [Option.some.inj (hturn.symm.trans hx)]

theorem execSwnTransition_ends {o : Obj} {x : Nat} (ho : pwmOnChan s (2 * p) = some o) (hat : objAt s o.idx = some o)
    (ha : pwAdaptive o.act = true) (hturn : (pwmOf o).turn = some (high, x)) : execSwnTransition p high t s
      = .next (updPwm o.idx (pwTurned (pwTurnAt o.act high x t) o.act high x) u) := by
  rw [← pwmOnChan_of_swn hu] at ho
  simp only [execSwnTransition, ← hu, ho, hturn]
  refine congrArg _ ((if_neg (by simp [ha])).trans (deadTimeEnd_present ?_))
  rw [objAt_congr (objs_of_swn hu), hat]

end

variable {h : Nat}

theorem execDeadTimeMax_idle (hi : objOf s h = none ∨ ∃ o, objOf s h = some o ∧ (pwmOf o).turn = none) :
    execDeadTimeMax h s = .next s := by
  rcases hi with ho | ⟨o, ho, hturn⟩
  · simp only [execDeadTimeMax, ho]
  · simp only [execDeadTimeMax, ho, hturn]

theorem execDeadTimeMax_ends {o : Obj} {rising : Bool} {x : Nat} (ho : objOf s h = some o) (hat : objAt s o.idx = some o)
    (hturn : (pwmOf o).turn = some (rising, x)) : execDeadTimeMax h s
      = .next (raiseLimited 480000000 0x0843 0 h 0 0 [if rising then 0 else 1, 0, 0, 0, 0, 0, 0, 0] 4 4
          (updPwm o.idx (fun r => { r with dtTimeouts := satInc 32 r.dtTimeouts })
            (updPwm o.idx (pwTurned (x + u16 o.act 28) o.act rising x) (toInstant (x + u16 o.act 28) s)))) := by
  have hat' : objAt (toInstant (x + u16 o.act 28) s) o.idx = some o := (objAt_congr (toInstant_objs ..) _).trans hat
  simp only [execDeadTimeMax, ho, hturn, deadTimeEnd_present hat']
  cases rising <;> rfl

/-! ## The end of blanking (R268) -/

theorem execBlankingEnd_idle (hi : objOf s h = none ∨ ∃ o, objOf s h = some o ∧ (o.typ ≠ tyPwmch ∨ isEnabled o = false
    ∨ (pwmOf o).blankUntil = 0)) : execBlankingEnd h s = .next s := by
  rcases hi with ho | ⟨o, ho, hx⟩
  · simp only [execBlankingEnd, ho]
  · simp only [execBlankingEnd, ho]
    exact congrArg _ (if_pos (by simpa using hx))

/-- The blankable trips of a mask that are enabled and active. -/
def blankedTrips (s : State) (m : Nat) : List Nat :=
  (List.range 8).filter fun n => (trip s n).en && (trip s n).input && bit (trip s n).flags 1 && bit m n

theorem blankedTrips_none (s : State) : blankedTrips s 0 = [] := by
  refine List.filter_eq_nil_iff.mpr fun n _ => ?_
  simp [bit_eq_testBit]

theorem blankedTrips_first (he : (trip s 0).en = true) (hi : (trip s 0).input = true) (hb : bit (trip s 0).flags 1 = true) :
    blankedTrips s 1 = [0] := by
  have hf := filter_range_single (k := 8) (n := 0) (fun n => (trip s n).en && (trip s n).input && bit (trip s n).flags 1) (by decide)
  simp only [he, hi, hb, Bool.and_true, if_true] at hf
  rw [← hf]
  exact List.filter_congr fun n _ => Bool.and_comm ..

theorem execBlankingEnd_due {o : Obj} {u : State} (ho : objOf s h = some o) (ht : o.typ = tyPwmch) (he : isEnabled o = true)
    (hb : (pwmOf o).blankUntil ≠ 0) (hu : u = updPwm o.idx (fun r => { r with blankUntil := 0 }) (toInstant (pwmOf o).blankUntil s)) :
    execBlankingEnd h s = .next ((blankedTrips s (u8 o.act 34)).foldl (fun s n => tripActs n [o] s) u) := by
  simp only [execBlankingEnd, ho]
  rw [if_neg (by simp [ht, he, hb]), ← hu]
  have htrip (n : Nat) : trip u n = trip s n := by rw [hu, trip_updPwm, trip_toInstant]
  simp only [htrip]
  rfl

end

/-! ## Commutation inputs (R271) -/

section
variable {s : State} {g x : Nat} {lv : Bool} {b : List Byte}

theorem execCommutationInput_idle (h : (pgGroup s g).comm = none ∨ ∃ b, (pgGroup s g).comm = some b ∧ ∀ c ∈ commClaims b, c.1 ≠ x) :
    execCommutationInput g x lv s = .next s := by
  rcases h with h | ⟨b, h, hx⟩
  · simp only [execCommutationInput, h]
  · simp only [execCommutationInput, h]
    exact congrArg _ (if_neg (by simpa using fun c hc => hx (x, c) hc))

theorem execCommutationInput_edge (h : (pgGroup s g).comm = some b) (hx : ∃ c ∈ commClaims b, c.1 = x) :
    execCommutationInput g x lv s = .next (gpioEdge x lv s.gtc s) := by
  simp only [execCommutationInput, h]
  exact congrArg _ (if_pos (by simpa using hx))

theorem commInput_tableless (h : (pgGroup s g).comm = none) : commInput x g s = s := by
  simp only [commInput, h]

/-- An edge of gpio_a moves the step, back where gpio_dir says so. -/
theorem commInput_steps (h : (pgGroup s g).comm = some b) (h0 : u8 b 0 = 1) (hx : u8 b 2 = x) :
    commInput x g s = commRefresh g (updGroup g (fun y => { y with
      step := if u8 b 5 ≠ 0xFF ∧ gpioLevel s (u8 b 5) = true then (y.step + u8 b 1 - 1) % u8 b 1 else (y.step + 1) % u8 b 1 }) s) := by
  simp only [commInput, h]
  rw [if_pos ⟨h0, hx⟩]
  simp [commNext]

section
variable (h : (pgGroup s g).comm = some b) (h0 : u8 b 0 = 2) (hx : u8 b 2 = x ∨ u8 b 3 = x ∨ u8 b 4 = x) {c : Nat}
  (hc : c = 4 * b2n (gpioLevel s (u8 b 4)) + 2 * b2n (gpioLevel s (u8 b 3)) + b2n (gpioLevel s (u8 b 2)))
include h h0 hx hc

theorem commInput_hall (hs : u8 b (8 + c) ≠ 0xFF) :
    commInput x g s = commRefresh g (updGroup g (fun y => { y with floating := false, step := u8 b (8 + c) }) s) := by
  simp only [commInput, h]
  rw [if_neg (by omega), if_pos ⟨h0, hx⟩, ← hc, if_neg hs]

theorem commInput_hallInvalid (hs : u8 b (8 + c) = 0xFF) :
    commInput x g s = raiseLimited 480000000 0x0844 0 0 g 0 (leBytes 1 g ++ leBytes 1 c) 0 0
      (commRefresh g (updGroup g (fun y => { y with floating := true }) s)) := by
  simp only [commInput, h]
  rw [if_neg (by omega), if_pos ⟨h0, hx⟩, ← hc, if_pos hs, secTicks]

end

/-- Without objects a new level reaches the commutating groups alone. -/
theorem gpioEdge_of_no_objs {t : Nat} {u : State} (hs : s.objs = []) (hl : gpioLevel s x ≠ lv)
    (hu : u = (List.range 16).foldl (fun s k => commInput x k s) (setGpio x lv s)) (huo : u.objs = []) : gpioEdge x lv t s = u := by
  have hnone {v : State} (hv : v.objs = []) (ty : Nat) : objsOf v ty = [] := objsOf_eq_nil (by simp [hv])
  have hsw : swInput x lv (setGpio x lv s) = setGpio x lv s := by
    rw [swInput, hnone (v := setGpio x lv s) hs, List.filter_nil, List.foldl_nil]
  have hax : axGpio x lv u = u := by rw [axGpio, hnone huo, List.foldl_nil]
  have hpulse : pulseEdge 3 x lv t u = u := by rw [pulseEdge, hnone huo, List.filter_nil, List.foldl_nil]
  refine (if_neg (by simpa using hl)).trans ?_
  simp only [hsw, ← hu, hax, hpulse]

/-- With one commutating group and no objects an edge of its gpio_a moves its step forward and nothing else of the groups. -/
theorem gpioEdge_commutates {t : Nat} (hs : s.objs = []) (hg : g < 16) (h : (pgGroup s g).comm = some b)
    (hother : ∀ j, j ≠ g → (pgGroup s j).comm = none) (h0 : u8 b 0 = 1) (hx : u8 b 2 = x) (h5 : u8 b 5 = 0xFF) (hl : gpioLevel s x ≠ lv) :
    gpioEdge x lv t s = updGroup g (fun y => { y with step := (y.step + 1) % u8 b 1 }) (setGpio x lv s) := by
  have hobjs : (setGpio x lv s).objs = [] := hs
  have hgroup (j : Nat) : pgGroup (setGpio x lv s) j = pgGroup s j := rfl
  have hstep : commInput x g (setGpio x lv s) = updGroup g (fun y => { y with step := (y.step + 1) % u8 b 1 }) (setGpio x lv s) := by
    rw [commInput_steps ((hgroup g).symm ▸ h) h0 hx, commRefresh_of_no_channels g (by simp [hs])]
    simp only [h5, ne_eq, not_true_eq_false, false_and, if_false]
  refine gpioEdge_of_no_objs hs hl ?_ hobjs
  rw [← hstep]
  refine (foldl_of_one (f := fun s k => commInput x k s) List.nodup_range (List.mem_range.mpr hg) (fun j _ hj => ?_) fun j _ hj => ?_).symm
  · exact commInput_tableless (hother j hj)
  · rw [hstep]
    exact commInput_tableless ((congrArg PgGroup.comm (pgGroup_updGroup_other _ hj)).trans (hother j hj))

end

/-! ## The statement -/

/-- Settles O40: each happening by the condition under which it does nothing and by what it does otherwise. -/
theorem pulseEdgesAndTrips : Obligations.PulseEdgesAndTrips := by
  refine ⟨fun s g t u p k h hp hrun hfree hal hu => ?_, fun s g h => execPeriodStart_idle h, fun st w wt p dr df mp c pair str => ?_,
    fun s t o ht => ?_, fun s h c hi => execPgCompareEdge_idle hi, fun s h c o t ho hty he hd => execPgCompareEdge_due ho hty he hd,
    fun s h o t ho hat hty he hch => ⟨fun hh htr hdh hset hclr => ?_, fun hh htr hdh hclr hset => ?_⟩, fun s n => ?_,
    fun s n t os ht hos => ?_, fun s n os => tripActs_eq n os s, fun s n i => ⟨tripOn_cycle i, fun hl u hu => tripOn_latch hl hu⟩,
    fun s n hn hlen hi he hl hd hc => tripInputAssert_latches hn hlen hi he hl hd hc,
    fun s n => ⟨execTripReleaseClear_idle, execTripReleaseClear_clears⟩, fun s p high t u hu => ?_,
    fun t ps x r => ⟨pwTurned_rising t ps x r, pwTurned_falling t ps x r⟩, fun s h o rising x ho hat hturn => execDeadTimeMax_ends ho hat hturn,
    fun s h hi => execDeadTimeMax_idle hi, fun s h hi => execBlankingEnd_idle hi, fun s h o u ho hty he hb hu => ?_,
    fun s g x lv h => execCommutationInput_idle h, fun s g x lv b h hx => execCommutationInput_edge h hx,
    fun s g x b h h0 hx => commInput_steps h h0 hx, fun s g x b c h h0 hx hc => ⟨commInput_hall h h0 hx hc, commInput_hallInvalid h h0 hx hc⟩,
    fun s g x lv b hs hg hlen h hother h0 hx h5 hl => ?_⟩
  · have hk := eq_periodIndex hrun hfree hal
    refine ⟨fun v hv => execPeriodStart_due h hp hk hu hv, fun ho ht => (execPeriodStart_due h hp hk hu rfl).trans ?_⟩
    have hobjs : u.objs = s.objs := by rw [hu, updGroup_objs, toInstant_objs]
    have htrips : u.pg.trips = s.pg.trips := by rw [hu, updGroup_trips, toInstant_pg]
    exact congrArg _ (periodStart_of_no_users (fun o hm => (ho o (hobjs ▸ hm)).1) (fun o hm => (ho o (hobjs ▸ hm)).2) (htrips ▸ ht) rfl)
  · exact ⟨minPulse_zero, minPulse_full, minPulse_unlimited, minPulse_tooShort⟩
  · have hx := shadowAtStart_present ht
    exact ⟨hx, fun hat hl => ⟨_, chanLoad_unlatched hat hx hl, rfl⟩⟩
  · obtain ⟨u, r, hu, hframe, hou, hr, hoth⟩ := compareEdge_free (c := false) ho hty he hset hat hch hh htr hdh
    obtain ⟨hcmp, hedge⟩ := edgeFallen_set hset hclr
    exact ⟨u, r, hu, hframe, hou, hr.cmp.trans hcmp, hr.setEdge.trans hedge, hoth⟩
  · obtain ⟨u, r, hu, -, hou, hr, -⟩ := compareEdge_free (c := true) ho hty he hclr hat hch hh htr hdh
    obtain ⟨hcmp, hedge⟩ := edgeFallen_clr hclr hset
    exact ⟨u, r, hu, hou, hr.cmp.trans hcmp, hr.clrEdge.trans hedge⟩
  · exact ⟨execTripInputAssert_idle, execTripInputAssert_arrives, execTripInputRelease_idle, execTripInputRelease_releases⟩
  · subst hos ht
    exact ⟨tripArrive_idle, fun he hi hl => ⟨tripArrive_takers he hi hl, fun _ => tripArrive_unnamed he hi hl, tripArrive_blanked he hi hl⟩⟩
  · exact ⟨execSwnTransition_kept hu, fun o x ho hat ha hturn => execSwnTransition_ends hu ho hat ha hturn⟩
  · have hend : exec (.blankingEnd h) s = _ := execBlankingEnd_due ho hty he hb hu
    refine ⟨hend, fun hm => ?_, fun hm hen hin hbl => ?_⟩
    · rw [hend, hm, blankedTrips_none, List.foldl_nil]
    · rw [hend, hm, blankedTrips_first hen hin hbl, List.foldl_cons, List.foldl_nil]
  · have hclaim : ∃ c ∈ commClaims b, c.1 = x := ⟨(x, claimShared), by simp [commClaims, h0, hx], rfl⟩
    refine ⟨_, (execCommutationInput_edge h hclaim).trans (congrArg _ (gpioEdge_commutates hs hg h hother h0 hx h5 hl)), ?_, fun j hj => ?_⟩
    · exact congrArg PgGroup.step (pgGroup_updGroup_same (s := setGpio x lv s) _ (show g < s.pg.groups.length by omega))
    · exact pgGroup_updGroup_other (s := setGpio x lv s) _ hj

end Sys2Proof.Machine
end

section
/-! PROOFS. Protected switch channels (09): what changes running states alone, and the commands of a line (R281, R283, R284, R295, R300,
R301). -/

namespace Sys2Proof.Machine

/-! ## Changes of running states alone -/

/-- What the objects are and what their blocks say. -/
def blocksOf (s : State) : List (Nat × Nat × List Byte) := s.objs.map fun o => (o.idx, o.typ, o.params)

/-- Only running states of objects change. -/
structure RtOnly (s t : State) : Prop where
  frame : t = { s with objs := t.objs }
  blocks : blocksOf t = blocksOf s

theorem RtOnly.refl (s : State) : RtOnly s s := ⟨rfl, rfl⟩
theorem RtOnly.trans {s t u : State} (h : RtOnly s t) (k : RtOnly t u) : RtOnly s u :=
  ⟨k.frame.trans (by rw [h.frame]), k.blocks.trans h.blocks⟩
theorem RtOnly.pg {s t : State} (h : RtOnly s t) : t.pg = s.pg := by rw [h.frame]

/-- The objects are of the types that they were of. -/
theorem RtOnly.forall_typ {s t : State} {P : Nat → Prop} (h : RtOnly s t) (hs : ∀ x ∈ s.objs, P x.typ) : ∀ x ∈ t.objs, P x.typ := by
  intro x hx
  have hmem : (x.idx, x.typ, x.params) ∈ blocksOf s := h.blocks ▸ List.mem_map_of_mem hx
  obtain ⟨y, hy, heq⟩ := List.mem_map.mp hmem
  simp only [Prod.mk.injEq] at heq
  exact heq.2.1 ▸ hs y hy

theorem rtOnly_ite {c : Prop} {_ : Decidable c} {s a b : State} (h : RtOnly s a) (k : RtOnly s b) : RtOnly s (if c then a else b) := by
  split <;> assumption

theorem rtOnly_foldl {α : Type} {f : State → α → State} (h : ∀ s x, RtOnly s (f s x)) : ∀ (l : List α) (s : State), RtOnly s (l.foldl f s)
  | [], s => .refl s
  | x :: l, s => (h s x).trans (rtOnly_foldl h l (f s x))

theorem rtOnly_updObj (i : Nat) {f : Obj → Obj} (hf : ∀ o, ((f o).idx, (f o).typ, (f o).params) = (o.idx, o.typ, o.params)) (s : State) :
    RtOnly s (updObj i f s) := by
  refine ⟨rfl, ?_⟩
  simp only [blocksOf, updObj, List.map_map]
  exact List.map_congr_left fun o _ => ite_key (p := fun o => o.idx = i) (key := fun o => (o.idx, o.typ, o.params)) hf o

theorem rtOnly_updSw (i : Nat) (f : SwRt → SwRt) (s : State) : RtOnly s (updSw i f s) := by
  unfold updSw; exact rtOnly_updObj i (by intro _; rfl) s
theorem rtOnly_updChan (i : Nat) (f : ChRt → ChRt) (s : State) : RtOnly s (updChan i f s) := by
  unfold updChan; exact rtOnly_updObj i (by intro _; rfl) s

theorem rtOnly_senseReason (h reason : Nat) (s : State) : RtOnly s (senseReason h reason s) :=
  rtOnly_foldl (fun _ _ => rtOnly_updChan ..) _ s

theorem rtOnly_forcedOff (h : Nat) (s : State) : RtOnly s (forcedOff h s) :=
  rtOnly_foldl (fun s _ => rtOnly_ite (rtOnly_updChan ..) (.refl s)) _ s

theorem rtOnly_swRefresh (i : Nat) (s : State) : RtOnly s (swRefresh i s) := by
  unfold swRefresh
  split
  · exact .refl s
  · exact .trans (rtOnly_ite (.refl s) (rtOnly_updSw ..)) (rtOnly_ite (rtOnly_forcedOff ..) (.refl _))

theorem rtOnly_swOnCmd (i : Nat) (s : State) : RtOnly s (swOnCmd i s) := by
  unfold swOnCmd
  split
  · exact .refl s
  · exact rtOnly_ite (.refl s) (.trans (rtOnly_updSw ..) (rtOnly_swRefresh ..))

theorem rtOnly_swInEdge (act : Bool) (i : Nat) (s : State) : RtOnly s (swInEdge act i s) := by
  unfold swInEdge
  split
  · exact .refl s
  · exact rtOnly_ite (.refl s) (rtOnly_ite (.trans (rtOnly_updSw ..) (rtOnly_swRefresh ..))
      (.trans (rtOnly_updSw ..) (rtOnly_ite (.trans (rtOnly_updSw ..) (rtOnly_swOnCmd ..)) (rtOnly_swRefresh ..))))

/-! ## The SWITCH at an index -/

/-- Whatever object is at the index is a SWITCH. -/
def SwitchAt (i : Nat) (s : State) : Prop := ∀ x ∈ blocksOf s, x.1 = i → x.2.1 = tySwitch

theorem RtOnly.switchAt {i : Nat} {s t : State} (h : RtOnly s t) (hs : SwitchAt i s) : SwitchAt i t := by
  rw [SwitchAt, h.blocks]
  exact hs

theorem SwitchAt.idx_ne {i : Nat} {s : State} {c : Obj} (hs : SwitchAt i s) (hc : c ∈ s.objs) (ht : c.typ ≠ tySwitch) : c.idx ≠ i :=
  fun hi => ht (hs _ (List.mem_map_of_mem hc) hi)

/-- Where no two objects share an index, a SWITCH found at one is the object there. -/
theorem switchAt_of_pairwise {s : State} {o : Obj} (ho : objAt s o.idx = some o) (ht : o.typ = tySwitch)
    (hd : s.objs.Pairwise fun x y => x.idx ≠ y.idx) : SwitchAt o.idx s := by
  have hmem : o ∈ s.objs := List.mem_of_find?_eq_some ho
  intro x hx hi
  obtain ⟨y, hy, rfl⟩ := List.mem_map.mp hx
  have hinj := List.inj_on_of_nodup_map (f := Obj.idx) (List.pairwise_map.mpr hd)
  exact hinj hy hmem hi ▸ ht

section
variable {s : State} {i : Nat}

/-- The running state of the SWITCH at an index. -/
def swAt (s : State) (i : Nat) : Option SwRt := (objAt s i).map swOf

theorem swAt_congr {t : State} (h : t.objs = s.objs) (i : Nat) : swAt t i = swAt s i := congrArg _ (objAt_congr h i)

theorem swAt_updSw (i : Nat) (f : SwRt → SwRt) (s : State) : swAt (updSw i f s) i = (swAt s i).map f := by
  have hmap : objAt (updSw i f s) i = (objAt s i).map fun o => if o.idx = i then { o with rt := .sw (f (swOf o)) } else o :=
    objAt_mapIf (t := updSw i f s) (p := fun o => o.idx = i) rfl (fun _ => rfl) i
  rw [swAt, hmap, swAt]
  cases ho : objAt s i with
  | none => rfl
  | some o => exact congrArg (some ∘ swOf) (if_pos (idx_of_objAt ho))

/-- Work on other objects leaves the object at an index. -/
theorem objAt_foldl_other {f : State → Obj → State} (hf : ∀ s c, c.idx ≠ i → objAt (f s c) i = objAt s i) :
    ∀ (l : List Obj) (s : State), (∀ c ∈ l, c.idx ≠ i) → objAt (l.foldl f s) i = objAt s i
  | [], _, _ => rfl
  | c :: l, s, hl => (objAt_foldl_other hf l (f s c) fun x hx => hl x (List.mem_cons_of_mem _ hx)).trans (hf s c (hl c List.mem_cons_self))

/-- The reasons given to learning channels are no matter of a SWITCH. -/
theorem objAt_senseReason (h reason : Nat) (hs : SwitchAt i s) : objAt (senseReason h reason s) i = objAt s i := by
  refine objAt_foldl_other (fun s c hc => objAt_updChan_other _ s hc.symm) _ s fun c hc => ?_
  obtain ⟨hmem, hp⟩ := List.mem_filter.mp hc
  have ht : c.typ = tyNozzle := by simpa using (Bool.and_eq_true_iff.mp hp).1
  exact hs.idx_ne hmem (by rw [ht]; decide)

/-- Nor are the intervals of the channels that are held off. -/
theorem objAt_forcedOff (h : Nat) (hs : SwitchAt i s) : objAt (forcedOff h s) i = objAt s i := by
  refine objAt_foldl_other (fun s c hc => ?_) _ s fun c hc => ?_
  · unfold flowEnd
    dsimp only
    split
    · exact objAt_updChan_other _ s hc.symm
    · rfl
  · obtain ⟨hmem, hp⟩ := List.mem_filter.mp (List.mem_filter.mp hc).1
    have ht : c.typ = tyNozzle ∨ c.typ = tyRow := by simpa using (Bool.and_eq_true_iff.mp hp).1
    exact hs.idx_ne hmem (by rcases ht with ht | ht <;> rw [ht] <;> decide)

/-- What does not look at the output, the limiting and the turn-on finds a SWITCH after a refresh as before it. -/
theorem swAt_swRefresh {α : Type} {g : SwRt → α} (hg : ∀ r b l t, g { r with out := b, limAt := l, turnOn := t } = g r)
    (hs : SwitchAt i s) : (swAt (swRefresh i s) i).map g = (swAt s i).map g := by
  unfold swRefresh
  cases ho : objAt s i with
  | none => rfl
  | some o =>
    dsimp -zeta only
    extract_lets w r s₁
    have hrt : RtOnly s s₁ := rtOnly_ite (.refl s) (rtOnly_updSw ..)
    have hdriven : (swAt s₁ i).map g = (swAt s i).map g := by
      unfold s₁
      split
      · rfl
      · rw [swAt_updSw, Option.map_map]
        exact congrArg (Option.map · _) (funext fun r => hg r w none _)
    split
    · exact (congrArg (fun x => (Option.map swOf x).map g) (objAt_forcedOff _ (hrt.switchAt hs))).trans hdriven
    · exact hdriven

theorem inAct_swOnCmd (hs : SwitchAt i s) : (swAt (swOnCmd i s) i).map (·.inAct) = (swAt s i).map (·.inAct) := by
  unfold swOnCmd
  split
  · rfl
  · split
    · rfl
    · rw [swAt_swRefresh (fun _ _ _ _ => rfl) ((rtOnly_updSw ..).switchAt hs), swAt_updSw, Option.map_map]
      rfl

end

/-! ## SW_CMD (R300) -/

theorem updSw_eq (i : Nat) (f : SwRt → SwRt) (s : State) :
    updSw i f s = { s with objs := s.objs.map fun o => if o.idx = i then { o with rt := .sw (f (swOf o)) } else o } := rfl

section
variable {s : State} {o : Obj} {on : Bool}

theorem swCmdBad_controlled (h : driverOf s (handleOf o) ≠ none ∨ swSrc o.params = 1) : swCmdBad s o on = some 0x0901 :=
  if_pos (by simpa [Option.isSome_iff_ne_none] using h)

section
variable (hd : driverOf s (handleOf o) = none) (hsrc : swSrc o.params ≠ 1)
include hd hsrc

theorem swCmdBad_disabled (he : isEnabled o = false) : swCmdBad s o on = some 0x000E := by
  simp [swCmdBad, hd, hsrc, he, stState]

theorem swCmdBad_latched (he : isEnabled o = true) (hl : (swOf o).latch ≠ 0) (hon : on = true) : swCmdBad s o on = some 0x0903 := by
  simp [swCmdBad, hd, hsrc, he, hl, hon]

theorem swCmdBad_none (he : isEnabled o = true) (hl : (swOf o).latch = 0 ∨ on = false) : swCmdBad s o on = none := by
  rcases hl with hl | hl <;> simp [swCmdBad, hd, hsrc, he, hl]

end

section
variable {x : Deferred}

theorem swCmdRun_unnamed (h : objOf s x.handle = none) : swCmdRun x s = completeDeferred x { status := 0x0002 } s := by
  simp only [swCmdRun, h, stBadHandle]

theorem swCmdRun_refused {e : Nat} (ho : objOf s x.handle = some o) (hb : swCmdBad s o (x.arg == 1) = some e) :
    swCmdRun x s = completeDeferred x { status := e } s := by
  simp only [swCmdRun, ho, hb]

theorem swCmdRun_acts {u : State} (ho : objOf s x.handle = some o) (hb : swCmdBad s o (x.arg == 1) = none)
    (hu : u = updSw o.idx (fun r => if r.dead && r.retryAt.isNone && !r.retryWait then { r with cmd := false } else r) s) :
    swCmdRun x s = completeDeferred x {} (if x.arg = 1 then gateOpen x.handle none u else gateClose x.handle u) := by
  simp only [swCmdRun, ho, hb, ← hu, swGate, beq_iff_eq]

end

variable {d : Desc}

theorem exec_swCmd_passes (hp : passes 0x0900 d s = true) (ho : objOf s (dHandle d) = some o) :
    exec (.swCmd d) s = .next (bodySwCmd d o s) := congrArg _ (runObj_passes _ hp ho)

theorem bodySwCmd_param (h : 2 ≤ u8 d.bytes 16) : bodySwCmd d o s = fail d 0x0004 s := if_pos h

theorem bodySwCmd_refused {e : Nat} (h : u8 d.bytes 16 < 2) (hb : swCmdBad s o (u8 d.bytes 16 == 1) = some e) :
    bodySwCmd d o s = fail d e s := by
  refine (if_neg (by omega)).trans ?_
  simp only [hb]

/-- An accepted SW_CMD waits for its GTC, and acts now when that has passed. -/
theorem bodySwCmd_accepted (h : u8 d.bytes 16 < 2) (hb : swCmdBad s o (u8 d.bytes 16 == 1) = none) {u : State}
    (hu : u = defer d 0x0900 (handleOf o) (u64 d.bytes 24) [] (u8 d.bytes 16) s) :
    bodySwCmd d o s = if u64 d.bytes 24 ≤ s.gtc then
      swCmdRun { st := startedOf s d, op := 0x0900, handle := handleOf o, due := u64 d.bytes 24, arg := u8 d.bytes 16 } u else u := by
  have hg : u.gtc = s.gtc := hu ▸ (touches_defer ..).gtc
  refine (if_neg (by omega)).trans ?_
  simp only [hb, ← hu, hg]

theorem execSwCmdTakeEffect_due {h : Nat} {x : Deferred} (hx : firstDue s 0x0900 h (fun _ => true) = some x) :
    execSwCmdTakeEffect h s = .next (swCmdRun x (toInstant x.due s)) := by
  simp only [execSwCmdTakeEffect, hx]

theorem execSwCmdTakeEffect_idle {h : Nat} (hx : firstDue s 0x0900 h (fun _ => true) = none) : execSwCmdTakeEffect h s = .next s := by
  simp only [execSwCmdTakeEffect, hx]

/-! ## SW_CLEAR (R295) -/

theorem exec_swClear_passes (hp : passes 0x0901 d s = true) (ho : objOf s (dHandle d) = some o) :
    exec (.swClear d) s = .next (bodySwClear d o s) := congrArg _ (runObj_passes _ hp ho)

theorem bodySwClear_param (h : 16 ≤ u8 d.bytes 16) : bodySwClear d o s = fail d 0x0004 s := if_pos h

theorem bodySwClear_all (h : u8 d.bytes 16 < 16) (hl : swHeld (swOf o) (u8 d.bytes 16) &&& u8 d.bytes 16 = 0) :
    bodySwClear d o s = ok d (updSw o.idx (fun r => { r with latch := swHeld (swOf o) (u8 d.bytes 16) }) s) :=
  (if_neg (by omega)).trans (if_pos hl)

theorem bodySwClear_some (h : u8 d.bytes 16 < 16) (hl : swHeld (swOf o) (u8 d.bytes 16) &&& u8 d.bytes 16 ≠ 0) :
    bodySwClear d o s = failWith d 0x0902 (leBytes 1 (swHeld (swOf o) (u8 d.bytes 16)))
      (updSw o.idx (fun r => { r with latch := swHeld (swOf o) (u8 d.bytes 16) }) s) :=
  (if_neg (by omega)).trans (if_neg hl)

/-- A latch stays unless the mask names it and its condition has ended. -/
theorem bit_swHeld (r : SwRt) (m : Nat) {b : Nat} (hb : b < 4) : bit (swHeld r m) b = (bit r.latch b
    && !(bit m b && (if b = 1 then fLt r.tj (fk 150) else if b = 2 then fLe r.fuse (fq 1 2) else true))) :=
  bit_maskBelow (fun b => bit r.latch b
    && !(bit m b && (if b = 1 then fLt r.tj (fk 150) else if b = 2 then fLe r.fuse (fq 1 2) else true))) hb

/-! ## SW_GROUP_STATUS (R281) -/

/-- The lines with a property that are on. -/
def switchesOn (s : State) (p : Nat → Bool) : Nat :=
  ((objsOf s tySwitch).filter fun o => (swOf o).out && p (swLine o.act)).length + (s.isl.hold.filter p).length

/-- The record of a group, or of the device, in SW_GROUP_STATUS. -/
def switchGroupRecord (s : State) (g : Nat) : List Byte :=
  fBytes (s.swd.means.getD g 0) ++ (fBytes (if g = 4 then fMaxOf s.swd.tcase else s.swd.tcase.getD g 0)
    ++ (leBytes 2 (switchesOn s fun k => g == 4 || lineGroup k == g) ++ [0, 0]))

/-- The bytes that SW_GROUP_STATUS writes. -/
def switchGroupBytes (s : State) : List Byte := (List.range 5).flatMap (switchGroupRecord s) ++ List.replicate 4 0

theorem exec_swGroupStatus_passes (hp : passes 0x0902 d s = true) :
    exec (.swGroupStatus d) s = .next (writeBack d (switchGroupBytes s) {} s) := by
  refine congrArg _ ((runDesc_passes _ hp).trans ?_)
  unfold bodySwGroupStatus switchGroupBytes switchGroupRecord switchesOn
  simp only [List.append_assoc]

theorem switchGroupRecord_length (s : State) (g : Nat) : (switchGroupRecord s g).length = 12 := by simp [switchGroupRecord, fBytes]

theorem switchGroupBytes_length (s : State) : (switchGroupBytes s).length = 64 := by
  simp [switchGroupBytes, length_flatMap_records fun g _ => switchGroupRecord_length s g]

theorem ofNat_fBytes (x : F32) : BitVec.ofNat 32 (leNat (fBytes x)) = x := by
  rw [fBytes, leNat_leBytes]
  exact BitVec.eq_of_toNat_eq (by simpa using x.isLt)

/-- The record of a group begins with its mean. -/
theorem switchGroupBytes_mean (s : State) {g : Nat} (hg : g < 5) : f32 (switchGroupBytes s) (12 * g) = s.swd.means.getD g 0 := by
  have hlen := length_flatMap_records (l := List.range 5) fun g _ => switchGroupRecord_length s g
  rw [List.length_range] at hlen
  have hhead : slice (switchGroupBytes s) (12 * g) 4 = slice ((List.range 5).flatMap (switchGroupRecord s)) (12 * g) 4 := by
    have h := slice_append_mid (a := []) (v := (List.range 5).flatMap (switchGroupRecord s)) (off := 12 * g) (m := 4)
      (c := List.replicate 4 0) rfl (by omega)
    rwa [List.length_nil, Nat.zero_add] at h
  have hrec : slice ((List.range 5).flatMap (switchGroupRecord s)) (12 * g) 4 = slice (switchGroupRecord s g) 0 4 :=
    slice_flatMap_records (off := 0) (fun g _ => switchGroupRecord_length s g) (List.getElem?_range hg) (by decide)
  rw [f32, u32, hhead, hrec, switchGroupRecord, fBytes, slice_leBytes_here]
  exact ofNat_fBytes _

end

/-! ## IN pins (R283, R284) -/

section
variable {s : State} {o : Obj} {act : Bool}

section
variable (ho : objAt s o.idx = some o)
include ho

theorem swInEdge_same (h : (swOf o).inAct = act) : swInEdge act o.idx s = s := by
  simp only [swInEdge, ho]
  exact if_pos (by simp [h])

theorem swInEdge_inactive (h : (swOf o).inAct = true) (ha : act = false) :
    swInEdge act o.idx s = swRefresh o.idx (updSw o.idx (fun r => { r with inAct := false, inSince := s.gtc }) s) := by
  simp [swInEdge, ho, h, ha]

/-- An active level is an on command of an ENABLED SWITCH after 1 ms, and else a level that the output follows. -/
theorem swInEdge_active (h : (swOf o).inAct = false) : swInEdge true o.idx s =
    if (swOf o).inSince + 480000 ≤ s.gtc ∧ isEnabled o = true then swOnCmd o.idx
      (updSw o.idx (fun r => { r with cmd := false, retryAt := none, retryWait := false }) (updSw o.idx (fun r => { r with inAct := true }) s))
    else swRefresh o.idx (updSw o.idx (fun r => { r with inAct := true }) s) := by
  simp only [swInEdge, ho, h]
  rfl

theorem swInEdge_command (h : (swOf o).inAct = false) (ha : act = true) (ht : (swOf o).inSince + 480000 ≤ s.gtc)
    (he : isEnabled o = true) : swInEdge act o.idx s = swOnCmd o.idx
      (updSw o.idx (fun r => { r with cmd := false, retryAt := none, retryWait := false }) (updSw o.idx (fun r => { r with inAct := true }) s)) := by
  rw [ha, swInEdge_active ho h, if_pos ⟨ht, he⟩]

theorem swInEdge_follow (h : (swOf o).inAct = false) (ha : act = true) (ht : s.gtc < (swOf o).inSince + 480000 ∨ isEnabled o = false) :
    swInEdge act o.idx s = swRefresh o.idx (updSw o.idx (fun r => { r with inAct := true }) s) := by
  rw [ha, swInEdge_active ho h, if_neg]
  rintro ⟨hlate, he⟩
  rcases ht with ht | ht
  · omega
  · exact Bool.false_ne_true (ht.symm.trans he)

/-- The IN pin's level is the one that it took. -/
theorem inAct_swInEdge (hs : SwitchAt o.idx s) : (swAt (swInEdge act o.idx s) o.idx).map (·.inAct) = some act := by
  have hrt : swAt s o.idx = some (swOf o) := by rw [swAt, ho]; rfl
  have hactive : (swAt (updSw o.idx (fun r => { r with inAct := true }) s) o.idx).map (·.inAct) = some true := by
    rw [swAt_updSw, hrt]; rfl
  have hs' : SwitchAt o.idx (updSw o.idx (fun r => { r with inAct := true }) s) := (rtOnly_updSw ..).switchAt hs
  cases hin : (swOf o).inAct <;> cases ha : act
  · rw [swInEdge_same ho hin, hrt]; exact congrArg some hin
  · rw [swInEdge_active ho hin]
    split
    · rw [inAct_swOnCmd ((rtOnly_updSw ..).switchAt hs'), swAt_updSw, Option.map_map]
      exact hactive
    · rw [swAt_swRefresh (fun _ _ _ _ => rfl) hs']
      exact hactive
  · rw [swInEdge_inactive ho hin rfl, swAt_swRefresh (fun _ _ _ _ => rfl) ((rtOnly_updSw ..).switchAt hs), swAt_updSw, hrt]; rfl
  · rw [swInEdge_same ho hin, hrt]; exact congrArg some hin

end

variable {g : Nat} {lv : Bool}

theorem gpioEdge_same {t : Nat} (h : gpioLevel s g = lv) : gpioEdge g lv t s = s := if_pos (by simp [h])

/-- Where no group commutates, a new level is no matter of the groups. -/
theorem commInputs_of_no_tables {u : State} (h : ∀ x ∈ u.pg.groups, x.comm = none) (g : Nat) :
    (List.range 16).foldl (fun s k => commInput g k s) u = u := by
  refine foldl_of_fixed _ fun k _ => commInput_tableless ?_
  rw [pgGroup, List.getD_eq_getElem?_getD]
  cases hx : u.pg.groups[k]? with
  | none => rfl
  | some x => exact h x (List.mem_of_getElem? hx)

/-- With one SWITCH and no commutating group, an edge of the IN pin reaches the SWITCH alone. -/
theorem gpioEdge_switch {t : Nat} (hs : s.objs = [o]) (ht : o.typ = tySwitch) (hsrc : swSrc o.act = 1) (hpin : u8 o.act 2 = g)
    (hinv : bit (u8 o.act 6) 0 = false) (hcomm : ∀ x ∈ s.pg.groups, x.comm = none) (hl : gpioLevel s g ≠ lv) :
    gpioEdge g lv t s = swInEdge lv o.idx (setGpio g lv s) := by
  have hsw : swInput g lv (setGpio g lv s) = swInEdge lv o.idx (setGpio g lv s) := by
    simp [swInput, objsOf, setGpio_objs, hs, ht, hsrc, hpin, hinv]
  have hrt : RtOnly (setGpio g lv s) (swInEdge lv o.idx (setGpio g lv s)) := rtOnly_swInEdge ..
  refine (if_neg (by simpa using hl)).trans ?_
  simp only [hsw]
  generalize swInEdge lv o.idx (setGpio g lv s) = u at hrt
  have htyp : ∀ x ∈ u.objs, x.typ = tySwitch := hrt.forall_typ (P := (· = tySwitch)) (by simp [setGpio_objs, hs, ht])
  have hnone {ty : Nat} (hty : tySwitch ≠ ty) : objsOf u ty = [] := objsOf_eq_nil fun x hx => (htyp x hx).trans_ne hty
  have hgroups : u.pg.groups = s.pg.groups := by rw [hrt.pg]; rfl
  have hax : axGpio g lv u = u := by rw [axGpio, hnone (by decide), List.foldl_nil]
  rw [commInputs_of_no_tables (hgroups ▸ hcomm), hax, pulseEdge, hnone (by decide), List.filter_nil, List.foldl_nil]

theorem gpioLevel_congr {t : State} (h : t.pg = s.pg) (k : Nat) : gpioLevel t k = gpioLevel s k := by simp only [gpioLevel, h]

theorem gpioLevel_setGpio_same (v : Bool) (hg : g < s.pg.gpio.length) : gpioLevel (setGpio g v s) g = v := by
  simp [gpioLevel, setGpio, hg]

theorem gpioLevel_setGpio_other {k : Nat} (v : Bool) (hk : k ≠ g) : gpioLevel (setGpio g v s) k = gpioLevel s k := by
  simp [gpioLevel, setGpio, List.getElem?_set_ne hk.symm]

end

/-! ## The statement -/

/-- Settles O41: each command by the condition under which it is refused and by what it does otherwise. -/
theorem switchCommands : Obligations.SwitchCommands := by
  refine ⟨updSw_eq, fun s d o on x u hp ho hon hx hu => ?_, fun s x h => swCmdRun_unnamed h, fun s x o ho => ?_,
    fun s h x hx => execSwCmdTakeEffect_due hx, fun s h hx => execSwCmdTakeEffect_idle hx, fun s d o m left hp ho hm hleft => ?_,
    fun r m b hb => bit_swHeld r m hb, fun s d hp => ?_, fun s g lv => rfl, fun s g lv h => congrArg _ (gpioEdge_same h),
    fun s act o r ho hr => ?_, fun s g lv o hg hlen hl hs ht _ hsrc hpin hinv hcomm => ?_⟩
  · subst hon hx
    have hacc := fun h hb => bodySwCmd_accepted (s := s) (o := o) (d := d) h hb hu
    rw [exec_swCmd_passes hp ho]
    refine ⟨fun h => congrArg _ (bodySwCmd_param h), fun h hc => congrArg _ (bodySwCmd_refused h (swCmdBad_controlled hc)),
      fun h hd hsrc => ⟨fun he => congrArg _ (bodySwCmd_refused h (swCmdBad_disabled hd hsrc he)),
        fun he hl hon => congrArg _ (bodySwCmd_refused h (swCmdBad_latched hd hsrc he hl (by simp [hon]))), fun he hl => ?_⟩⟩
    have hb : swCmdBad s o (u8 d.bytes 16 == 1) = none := swCmdBad_none hd hsrc he (hl.imp_right fun h0 => by simp [h0])
    exact ⟨fun hlt => congrArg _ ((hacc h hb).trans (if_neg (Nat.not_le.mpr hlt))), fun hle => congrArg _ ((hacc h hb).trans (if_pos hle))⟩
  · refine ⟨fun hc => swCmdRun_refused ho (swCmdBad_controlled hc), fun hd hsrc => ⟨fun he => swCmdRun_refused ho (swCmdBad_disabled hd hsrc he),
      fun he hl hon => swCmdRun_refused ho (swCmdBad_latched hd hsrc he hl (by simp [hon])), fun u he hl hu => swCmdRun_acts ho ?_ hu⟩⟩
    exact swCmdBad_none hd hsrc he (hl.imp_right fun h0 => by simp [h0])
  · subst hm hleft
    rw [exec_swClear_passes hp ho]
    exact ⟨fun h => congrArg _ (bodySwClear_param h), fun h hl => congrArg _ (bodySwClear_all h hl), fun h hl => congrArg _ (bodySwClear_some h hl)⟩
  · exact ⟨switchGroupBytes s, exec_swGroupStatus_passes hp, switchGroupBytes_length s, fun g => switchGroupBytes_mean s⟩
  · subst hr
    exact ⟨swInEdge_same ho, swInEdge_inactive ho, swInEdge_command ho, swInEdge_follow ho⟩
  · have hrt : RtOnly (setGpio g lv s) (swInEdge lv o.idx (setGpio g lv s)) := rtOnly_swInEdge ..
    have hat : objAt (setGpio g lv s) o.idx = some o := by simp [objAt, setGpio_objs, hs]
    have hsw : SwitchAt o.idx (setGpio g lv s) := switchAt_of_pairwise hat ht (by simp [setGpio_objs, hs])
    refine ⟨_, congrArg Host.Outcome.next (gpioEdge_switch hs ht hsrc hpin hinv hcomm hl), ?_, fun k hk => ?_, ?_⟩
    · rw [gpioLevel_congr hrt.pg, gpioLevel_setGpio_same lv (by omega)]
    · rw [gpioLevel_congr hrt.pg, gpioLevel_setGpio_other lv hk]
    · have h := inAct_swInEdge (act := lv) hat hsw
      rwa [swAt, Option.map_map] at h

end Sys2Proof.Machine
end

section
/-! PROOFS. Protected switch channels (09): the protection of a line, and the averages of a second (R281, R285 to R291, R294, R297). -/

namespace Sys2Proof.Machine

/-! ## A line with its HOLD or its SWITCH (R297) -/

section
variable {s : State} {k : Nat} (f : Obj → State → State)

theorem onLine_hold_ends (h : s.isl.hold.contains k = true) :
    onLine k true f s = { s with isl := { s.isl with hold := s.isl.hold.erase k } } := (if_pos h).trans (if_pos rfl)

theorem onLine_hold_kept (h : s.isl.hold.contains k = true) : onLine k false f s = s := (if_pos h).trans (if_neg Bool.false_ne_true)

variable (b : Bool) (hh : s.isl.hold.contains k = false)
include hh

theorem onLine_bare (ho : swOnLine s k = none) : onLine k b f s = s := by
  simp only [onLine, hh, ho, Bool.false_eq_true, if_false]

theorem onLine_switch {o : Obj} (ho : swOnLine s k = some o) : onLine k b f s = f o s := by
  simp only [onLine, hh, ho, Bool.false_eq_true, if_false]

end

/-! ## Overcurrent and retries (R285, R288) -/

section
variable {s : State} {k : Nat} {o : Obj} (hh : s.isl.hold.contains k = false) (ho : swOnLine s k = some o)
include hh ho

theorem exec_swCurrentLimit_idle {t : Nat} (h : (swOf o).out = false ∨ (swOf o).limAt ≠ none) : exec (.swCurrentLimit k t) s = .next s :=
  congrArg Host.Outcome.next ((onLine_switch _ _ hh ho).trans (if_pos (by simpa [Option.isSome_iff_ne_none] using h)))

/-- Limiting is noted with its start, which says whether it lies in the inrush window. -/
theorem exec_swCurrentLimit_limits {t : Nat} {u : State} (hout : (swOf o).out = true) (hl : (swOf o).limAt = none)
    (hu : u = toInstant t s) : exec (.swCurrentLimit k t) s = .next (senseReason (handleOf o) 6 (updSw o.idx (fun r => { r with
      limAt := some u.gtc, limInrush := decide (u.gtc ≤ r.turnOn + u16 o.act 18 * 480000) }) u)) := by
  subst hu
  exact congrArg Host.Outcome.next ((onLine_switch _ _ hh ho).trans (if_neg (by simp [hout, hl])))

theorem exec_swLimitTimeout_idle (hl : (swOf o).limAt = none) : exec (.swLimitTimeout k) s = .next s :=
  congrArg Host.Outcome.next ((onLine_switch _ _ hh ho).trans (by simp only [hl]))

theorem exec_swLimitTimeout_ends {t : Nat} (hl : (swOf o).limAt = some t) : exec (.swLimitTimeout k) s
    = .next (swShutdown o 0 (toInstant (t + u16 o.act (if (swOf o).limInrush then 16 else 14) * 480) s)) :=
  congrArg Host.Outcome.next ((onLine_switch _ _ hh ho).trans (by simp only [hl]; rfl))

theorem exec_swShortCircuit_idle {t : Nat} (hl : (swOf o).limAt = none) : exec (.swShortCircuit k t) s = .next s :=
  congrArg Host.Outcome.next ((onLine_switch _ _ hh ho).trans (if_pos (by simp [hl])))

theorem exec_swShortCircuit_limiting {t : Nat} (hl : (swOf o).limAt ≠ none) : exec (.swShortCircuit k t) s
    = .next (swShutdown o 1 (toInstant (max t ((swOf o).turnOn + u16 o.act 22 * 480)) s)) :=
  congrArg Host.Outcome.next ((onLine_switch _ _ hh ho).trans (if_neg (by simpa using hl)))

theorem exec_swRetryDelayEnd_idle (hr : (swOf o).retryAt = none) : exec (.swRetryDelayEnd k) s = .next s :=
  congrArg Host.Outcome.next ((onLine_switch _ _ hh ho).trans (by simp only [hr]))

theorem exec_swRetryDelayEnd_due {t : Nat} (hr : (swOf o).retryAt = some t) : exec (.swRetryDelayEnd k) s
    = .next (if swThermal (swOf o) then updSw o.idx (fun r => { r with retryAt := none, retryWait := true }) (toInstant t s)
      else swRestart o (toInstant t s)) :=
  congrArg Host.Outcome.next ((onLine_switch _ _ hh ho).trans (by simp only [hr]))

theorem exec_swThermalConditionEnd_proceeds (hw : (swOf o).retryWait = true) (ht : swThermal (swOf o) = false) :
    exec (.swThermalConditionEnd k) s = .next (swRestart o s) :=
  congrArg Host.Outcome.next ((onLine_switch _ _ hh ho).trans (if_pos (by simp [hw, ht])))

theorem exec_swThermalConditionEnd_idle (h : (swOf o).retryWait = false ∨ swThermal (swOf o) = true) :
    exec (.swThermalConditionEnd k) s = .next s :=
  congrArg Host.Outcome.next ((onLine_switch _ _ hh ho).trans (if_neg (by rcases h with h | h <;> simp [h])))

/-! ## Temperature (R286, R287) -/

theorem exec_swDtLimitReached_kept {tj tc : F32} (h : (swOf o).dtOff = true ∨ (swOf o).out = false ∧ (swOf o).retryAt = none
    ∨ fLe (fk (u8 o.act 7)) (fSub tj tc) = false) : exec (.swDtLimitReached k tj tc) s = .next (swTemps o tj tc s) :=
  congrArg Host.Outcome.next ((onLine_switch _ _ hh ho).trans (if_pos (by
    rcases h with h | ⟨hout, hr⟩ | h
    · simp [h]
    · simp [hout, hr]
    · simp [h])))

theorem exec_swDtLimitReached_limits {tj tc : F32} (hd : fLe (fk (u8 o.act 7)) (fSub tj tc) = true) (hoff : (swOf o).dtOff = false)
    (h : (swOf o).out = true ∨ (swOf o).retryAt ≠ none) : exec (.swDtLimitReached k tj tc) s
      = .next (raiseLimited 480000000 0x0943 0 (handleOf o) 1 0 [1] 0 0 (senseReason (handleOf o) 6 (swRefresh o.idx (updSw o.idx (fun r => { r with
          dtOff := true, dtCycles := if r.out then satInc 32 r.dtCycles else r.dtCycles }) (swTemps o tj tc s))))) :=
  congrArg Host.Outcome.next ((onLine_switch _ _ hh ho).trans (if_neg (by
    have hon : ((swOf o).out || (swOf o).retryAt.isSome) = true := by simpa [Option.isSome_iff_ne_none] using h
    simp [hd, hoff, hon])))

theorem exec_swDtRecover_kept {tj tc : F32} (h : (swOf o).dtOff = false ∨ fLe (fSub tj tc) (fk ((u8 o.act 7 : Int) - 15)) = false) :
    exec (.swDtRecover k tj tc) s = .next (swTemps o tj tc s) :=
  congrArg Host.Outcome.next ((onLine_switch _ _ hh ho).trans (if_pos (by rcases h with h | h <;> simp [h])))

theorem exec_swDtRecover_recovers {tj tc : F32} (hd : fLe (fSub tj tc) (fk ((u8 o.act 7 : Int) - 15)) = true)
    (hoff : (swOf o).dtOff = true) : exec (.swDtRecover k tj tc) s = .next (raiseLimited 480000000 0x0943 0 (handleOf o) 0 0 [0] 0 0
      (swRefresh o.idx (updSw o.idx (fun r => { r with dtOff := false }) (swTemps o tj tc s)))) :=
  congrArg Host.Outcome.next ((onLine_switch _ _ hh ho).trans (if_neg (by simp [hd, hoff])))

theorem exec_swThermalLatch_latches {tj : F32} (ht : fLe (fk 170) tj = true) (hl : bit (swOf o).latch 1 = false) :
    exec (.swThermalLatch k tj) s = .next (swLatch o 1 (updSw o.idx (fun r => { r with tj := tj }) s)) :=
  congrArg Host.Outcome.next ((onLine_switch _ _ hh ho).trans (if_neg (by simp [ht, hl])))

theorem exec_swThermalLatch_idle {tj : F32} (h : fLe (fk 170) tj = false ∨ bit (swOf o).latch 1 = true) :
    exec (.swThermalLatch k tj) s = .next s :=
  congrArg Host.Outcome.next ((onLine_switch _ _ hh ho).trans (if_pos (by rcases h with h | h <;> simp [h])))

/-! ## Fuse (R289) -/

/-- A tick keeps the measurements, and a spent fuse of an ENABLED SWITCH latches. -/
theorem exec_swFuseTick {cs c : List Code} {tj tc : F32} {x : F32 × State} {u : State} (hc : c = currentCodes s k cs)
    (hx : x = fuseNext o (swOf o).fuse (if (swOf o).out then switchRms c else fZero) (swTemps o tj tc (groupAdd k c s)))
    (hu : u = updSw o.idx (fun r => { r with current := switchMean c, iPeak := fMax r.iPeak (switchPeak c), fuse := x.1 }) x.2) :
    exec (.swFuseTick k cs tj tc) s
      = .next (if isEnabled o && fLe fOne x.1 && !bit (swOf o).latch 2 then swLatch o 2 u else u) := by
  subst hu hx hc
  exact congrArg Host.Outcome.next (onLine_switch (s := groupAdd k _ s) _ _ hh ho)

/-! ## Clamp and open load (R290, R291) -/

/-- A clamp event is counted and raised; eight in a second, or a long one, latch FREEWHEEL_MISSING. -/
theorem exec_swClampEvent {us : Nat} {q : List Nat} {u : State}
    (hq : q = ((swOf o).clampAt.filter fun t => decide (s.gtc < t + 480000000)) ++ [s.gtc])
    (hu : u = raiseLimited 480000000 0x0944 0 (handleOf o) 0 0 (satBytes 1 q.length) 0 0
      (updSw o.idx (fun r => { r with clamps := satInc 32 r.clamps, clampAt := q }) s)) :
    exec (.swClampEvent k us) s
      = .next (if (8 ≤ q.length ∨ 200 < us) ∧ ¬ bit (swOf o).latch 3 = true then swLatch o 3 u else u) := by
  subst hu hq
  exact congrArg Host.Outcome.next (onLine_switch _ _ hh ho)

theorem exec_swOpenLoadInterval_uncounted {us n : Nat} (h : isEnabled o = false ∨ u8 o.act 5 = 0 ∨ us ≤ u16 o.act 26) :
    exec (.swOpenLoadInterval k us n) s = .next s :=
  congrArg Host.Outcome.next ((onLine_switch _ _ hh ho).trans (if_pos (by rcases h with h | h | h <;> simp [h])))

section
variable {us n : Nat} (he : isEnabled o = true) (hm : u8 o.act 5 ≠ 0) (hus : u16 o.act 26 < us)
include he hm hus

/-- An interval that is not open clears the condition, with an event where it was set. -/
theorem exec_swOpenLoadInterval_closed (hn : olThreshold o.act ≤ n) : exec (.swOpenLoadInterval k us n) s
    = .next (if (swOf o).openLoad then raise0 0x0945 (handleOf o) [0] (updSw o.idx (fun r => { r with olRun := 0, openLoad := false }) s)
      else updSw o.idx (fun r => { r with olRun := 0, openLoad := false }) s) :=
  congrArg Host.Outcome.next ((onLine_switch _ _ hh ho).trans ((if_neg (by simp [he, hm]; omega)).trans (if_neg (by omega))))

/-- An open interval is counted; the condition sets where it is not set and the count is reached. -/
theorem exec_swOpenLoadInterval_open (hn : n < olThreshold o.act) {u : State} (hu : u = raise0 0x0945 (handleOf o) [1] (legFlag o.idx 7
      (senseReason (handleOf o) 6 (updSw o.idx (fun r => { r with openLoad := true, olEvents := satInc 32 r.olEvents })
        (updSw o.idx (fun r => { r with olRun := r.olRun + 1 }) s))))) : exec (.swOpenLoadInterval k us n) s
    = .next (if (swOf o).openLoad = true ∨ (swOf o).olRun + 1 < u8 o.act 28 then updSw o.idx (fun r => { r with olRun := r.olRun + 1 }) s
      else if bit (u8 o.act 6) 1 then swFault (handleOf o) 0x80 u else u) := by
  subst hu
  exact congrArg Host.Outcome.next ((onLine_switch _ _ hh ho).trans ((if_neg (by simp [he, hm]; omega)).trans (if_pos hn)))

end

end

/-! ## Shutdowns, restarts and latches (R288, R294) -/

section
variable {s : State} {o : Obj}

/-- A retry proceeds unless the on command has ended or a latch is set. -/
theorem swRestart_eq {u : State} (hu : u = updSw o.idx (fun r => { r with retryAt := none, retryWait := false }) s) :
    swRestart o s = if swCmdEnded u o || (swOf o).latch != 0 then u
      else swRefresh o.idx (updSw o.idx (fun r => { r with retries := r.retries - 1, dead := false }) u) := by
  subst hu
  rfl

/-- The line is off after an overcurrent shutdown, which is counted and raised; a retry waits where one is left. -/
def shutOff (o : Obj) (c : Nat) (s : State) : State :=
  senseReason (handleOf o) 6 (raiseLimited 48000000 0x0940 0 (handleOf o) 0 0
    (leBytes 1 c ++ leBytes 1 (swOf o).retries ++ [0, 0, 0, 0, 0, 0]) 4 4 (swRefresh o.idx (updSw o.idx (fun r => { r with
      ocLimit := if c = 0 then satInc 32 r.ocLimit else r.ocLimit, ocShort := if c = 1 then satInc 32 r.ocShort else r.ocShort
      dead := true, retryAt := if (swOf o).retries = 0 then none else some (s.gtc + u16 o.act 20 * 480000) }) s)))

theorem swShutdown_eq (o : Obj) (c : Nat) (s : State) :
    swShutdown o c s = if (swOf o).retries = 0 then swLatch o 0 (shutOff o c s) else shutOff o c s := rfl

theorem driverOf_none_of_blocks {t : State} {h : Nat} (hb : blocksOf t = blocksOf s) (hd : driverOf s h = none) : driverOf t h = none := by
  have hs : ∀ p ∈ blocksOf s, ¬ (refsOf p.2.1 p.2.2).contains (h, true) = true := by
    intro p hp
    obtain ⟨x, hx, rfl⟩ := List.mem_map.mp hp
    exact List.find?_eq_none.mp hd x hx
  rw [← hb] at hs
  exact List.find?_eq_none.mpr fun x hx => hs _ (List.mem_map_of_mem hx)

theorem driverOf_none_of_target {h : Nat} (ht : swFaultTarget s h = none) : driverOf s h = none := by
  unfold swFaultTarget at ht
  split at ht
  · assumption
  · split at ht <;> cases ht

theorem swFault_of_undriven {h : Nat} (bitsv : Nat) (hd : driverOf s h = none) : swFault h bitsv s = s := by
  simp only [swFault, swFaultTarget, hd]

theorem legFlag_objs (i b : Nat) (s : State) : (legFlag i b s).objs = s.objs := by
  unfold legFlag
  split <;> rfl

/-- The line of a SWITCH is off and ignored after a latch. -/
def latchOff (o : Obj) (b : Nat) (s : State) : State :=
  senseReason (handleOf o) 6 (swRefresh o.idx (updSw o.idx (fun r => { r with
    latch := setBit r.latch b true, dead := true, retryAt := none, retryWait := false }) s))

theorem rtOnly_latchOff (o : Obj) (b : Nat) (s : State) : RtOnly s (latchOff o b s) :=
  (rtOnly_updSw ..).trans ((rtOnly_swRefresh ..).trans (rtOnly_senseReason ..))

theorem swLatch_eq (o : Obj) (b : Nat) (s : State) : swLatch o b s
    = swFault (handleOf o) (2 ^ b) (raise0 0x0941 (handleOf o) (leBytes 1 (2 ^ b)) (legFlag o.idx b (latchOff o b s))) := rfl

/-- Where nothing drives the SWITCH, a latch of it changes the objects only by turning its line off. -/
theorem swLatch_objs (b : Nat) (hd : driverOf s (handleOf o) = none) : (swLatch o b s).objs = (latchOff o b s).objs := by
  have hraised : (raise0 0x0941 (handleOf o) (leBytes 1 (2 ^ b)) (legFlag o.idx b (latchOff o b s))).objs = (latchOff o b s).objs :=
    (touches_raise0 ..).objs.trans (legFlag_objs ..)
  have hblocks := congrArg (List.map fun x : Obj => (x.idx, x.typ, x.params)) hraised
  rw [swLatch_eq, swFault_of_undriven _ (driverOf_none_of_blocks (hblocks.trans (rtOnly_latchOff o b s).blocks) hd), hraised]

/-- The SWITCH has the latch, ignores its line and waits for no retry. -/
theorem swAt_latchOff (b : Nat) (ho : objAt s o.idx = some o) (hs : SwitchAt o.idx s) :
    (swAt (latchOff o b s) o.idx).map (fun r => (r.latch, r.dead, r.retryAt)) = some (setBit (swOf o).latch b true, true, none) := by
  have hs₁ := (rtOnly_updSw o.idx (fun r => { r with
    latch := setBit r.latch b true, dead := true, retryAt := none, retryWait := false }) s).switchAt hs
  have hs₂ := (rtOnly_swRefresh o.idx _).switchAt hs₁
  rw [latchOff, swAt, objAt_senseReason _ _ hs₂, ← swAt, swAt_swRefresh (g := fun r => (r.latch, r.dead, r.retryAt)) (fun _ _ _ _ => rfl) hs₁,
    swAt_updSw, swAt, ho]
  rfl

theorem swLatch_latches (b : Nat) (ho : objAt s o.idx = some o) (ht : o.typ = tySwitch) (hp : s.objs.Pairwise fun x y => x.idx ≠ y.idx)
    (hd : driverOf s (handleOf o) = none) : ∃ x, objAt (swLatch o b s) o.idx = some x ∧ (swOf x).latch = setBit (swOf o).latch b true
      ∧ (swOf x).dead = true ∧ (swOf x).retryAt = none := by
  have h := swAt_latchOff b ho (switchAt_of_pairwise ho ht hp)
  rw [← swAt_congr (swLatch_objs b hd), swAt, Option.map_map] at h
  obtain ⟨x, hx, heq⟩ := Option.map_eq_some_iff.mp h
  simp only [Function.comp_apply, Prod.mk.injEq] at heq
  exact ⟨x, hx, heq⟩

end

theorem olThreshold_standard {ps : List Byte} (h : u8 ps 5 = 1) : olThreshold ps = u16 ps 24 / 10 * 10 * 500 := by
  rw [olThreshold, if_pos h]

theorem olThreshold_fine {ps : List Byte} (h : u8 ps 5 ≠ 1) : olThreshold ps = u16 ps 24 * 500 := by
  rw [olThreshold, if_neg h]

/-! ## Averages of a second (R281) -/

/-- The event of an average above its limit: a group's of 10 A, the device's of 36 A. -/
def averageEvent (n : List Nat) (s : State) (g : Nat) : State :=
  if (if g = 4 then 36 else 10) * 10 ^ 10 < n.getD g 0 * 25 then
    raise0 0x0946 0 (leBytes 1 g ++ [0, 0, 0] ++ leBytes 4 (roundOpen 22 ((n.getD g 0 * 25 : Nat) * 1000) (10 ^ 10)).toNat) s
  else s

theorem exec_swGroupAverage {s u : State} {n : List Nat} (hn : n = s.swd.acc ++ [s.swd.acc.foldl (· + ·) 0])
    (hu : u = { s with swd := { s.swd with
      means := n.map fun (x : Nat) => fOpen 100 ((x * 25 : Nat) : Int) (10 ^ 10), acc := [0, 0, 0, 0] } }) :
    exec .swGroupAverage s = .next ((List.range 5).foldl (averageEvent n) u) := by
  subst hu hn
  rfl

/-- No limit is below 10 A. -/
theorem averageEvent_quiet {n : List Nat} (h : ∀ x ∈ n, x * 25 ≤ 10 * 10 ^ 10) (s : State) (g : Nat) : averageEvent n s g = s := by
  have hg : n.getD g 0 * 25 ≤ 10 * 10 ^ 10 := by
    rw [List.getD_eq_getElem?_getD]
    cases hx : n[g]? with
    | none => exact Nat.zero_le _
    | some x => exact h x (List.mem_of_getElem? hx)
  refine if_neg ?_
  split <;> omega

/-! ## The statement -/

/-- Settles O42: each happening on a line in HOLD, on a line without a SWITCH, and on the line of one, by the condition under which it
does nothing and by what it does otherwise. -/
theorem switchProtection : Obligations.SwitchProtection := by
  refine ⟨fun s k u h hu => ?_, fun s k hh ho => ?_, fun s k o r hh ho hr => ?_, fun r => rfl, fun s o u hu => ?_,
    fun s o c n u hn hu => ?_, fun s k o r hh ho hr => ?_, fun ps => ⟨olThreshold_standard, olThreshold_fine⟩,
    fun s o b ho ht hp hd _ => swLatch_latches b ho ht hp (driverOf_none_of_target hd), fun s n u hn hu => ?_⟩
  · subst hu
    have ends f := congrArg (Host.Outcome.next (φ := Fault) (ρ := Refusal)) (onLine_hold_ends f h)
    have kept f := congrArg (Host.Outcome.next (φ := Fault) (ρ := Refusal)) (onLine_hold_kept f h)
    exact ⟨fun t => ⟨ends _, ends _⟩, fun a b => ⟨ends _, ends _⟩, fun t => kept _, kept _, kept _,
      fun a b us => ⟨kept _, kept _, kept _⟩, fun cs a b => congrArg Host.Outcome.next (onLine_hold_kept (s := groupAdd k _ s) _ h)⟩
  · have bare b f := congrArg (Host.Outcome.next (φ := Fault) (ρ := Refusal)) (onLine_bare f b hh ho)
    exact ⟨fun t => ⟨bare _ _, bare _ _, bare _ _⟩, bare _ _, bare _ _, fun a b => ⟨bare _ _, bare _ _, bare _ _⟩,
      fun us n => ⟨bare _ _, bare _ _⟩, fun cs a b => congrArg Host.Outcome.next (onLine_bare (s := groupAdd k _ s) _ _ hh ho)⟩
  · subst hr
    refine ⟨fun t => exec_swCurrentLimit_idle hh ho, fun t u => exec_swCurrentLimit_limits hh ho,
      fun hl => ⟨exec_swLimitTimeout_idle hh ho hl, fun t => exec_swShortCircuit_idle hh ho hl⟩, fun t => exec_swLimitTimeout_ends hh ho,
      fun t => exec_swShortCircuit_limiting hh ho, exec_swRetryDelayEnd_idle hh ho, fun t hr ht => ?_, fun t hr ht => ?_,
      exec_swThermalConditionEnd_proceeds hh ho, exec_swThermalConditionEnd_idle hh ho⟩
    · rw [exec_swRetryDelayEnd_due hh ho hr, if_pos ht]
    · rw [exec_swRetryDelayEnd_due hh ho hr, if_neg (Bool.eq_false_iff.mp ht)]
  · rw [swRestart_eq hu]
    exact ⟨fun h => if_pos (by simpa using h), fun he hl => if_neg (by simp [he, hl])⟩
  · subst hn
    have hu' : u = shutOff o c s := hu
    rw [swShutdown_eq, ← hu']
    exact ⟨fun h => if_neg h, fun h => if_pos h⟩
  · subst hr
    refine ⟨fun tj tc => exec_swDtLimitReached_kept hh ho, fun tj tc => exec_swDtLimitReached_limits hh ho,
      fun tj tc => exec_swDtRecover_kept hh ho, fun tj tc => exec_swDtRecover_recovers hh ho, fun tj => exec_swThermalLatch_latches hh ho,
      fun tj => exec_swThermalLatch_idle hh ho, fun cs tj tc c x u hc hx hu => ?_, fun us q u hq hu => ?_,
      fun us n => exec_swOpenLoadInterval_uncounted hh ho, fun us n he hm hus => ⟨fun hn hl => ?_, fun hn hl => ?_, fun hn h => ?_,
        fun u hn hl hc hu => ?_⟩⟩
    · rw [exec_swFuseTick hh ho hc hx hu]
      exact ⟨fun he hf hl => congrArg _ (if_pos (by simp [he, hf, hl])), fun h => congrArg _ (if_neg (by rcases h with h | h | h <;> simp [h]))⟩
    · rw [exec_swClampEvent hh ho hq hu]
      exact ⟨fun h hl => congrArg _ (if_pos ⟨h, by simp [hl]⟩), fun h => congrArg _ (if_neg fun hc => hc.2 (h.resolve_left (by omega)))⟩
    · rw [exec_swOpenLoadInterval_closed hh ho he hm hus hn, if_pos hl]
    · rw [exec_swOpenLoadInterval_closed hh ho he hm hus hn, if_neg (Bool.eq_false_iff.mp hl)]
    · rw [exec_swOpenLoadInterval_open hh ho he hm hus hn rfl, if_pos h]
    · rw [exec_swOpenLoadInterval_open hh ho he hm hus hn hu, if_neg (by simp [hl]; omega)]
  · refine ⟨exec_swGroupAverage hn hu, fun h => ?_⟩
    rw [exec_swGroupAverage hn hu, foldl_of_fixed _ fun g _ => averageEvent_quiet h u g]

end Sys2Proof.Machine
end

section
/-! PROOFS. Solenoid banks (10): the set-up of the boost converter, and the commands of a channel (R307, R310, R311, R313, R319, R323,
R324). -/

namespace Sys2Proof.Machine

theorem updSol_eq (i : Nat) (f : SolRt → SolRt) (s : State) :
    updSol i f s = { s with objs := s.objs.map fun o => if o.idx = i then { o with rt := .sol (f (solOf o)) } else o } := rfl

section
variable {s : State} {o : Obj} {d : Desc}

/-! ## SOL_BOOST_CONFIG (R307) -/

/-- A field of the set-up, or the product of current limit and sense resistance, is beyond its range. -/
def BoostConfigBad (b : List Byte) : Prop :=
  2 ≤ u8 b 16 ∨ u16 b 18 < 100 ∨ 1000 < u16 b 18 ∨ fIn (fk 24) (fk 65) (f32 b 20) = false ∨ fIn (fq 1 2) (fk 20) (f32 b 24) = false
    ∨ fIn (fk 5) (fk 100) (f32 b 28) = false ∨ u16 b 32 < 100 ∨ 10000 < u16 b 32 ∨ u16 b 34 = 0 ∨ 100 < u16 b 34
    ∨ 200 * 2 ^ 298 < fVal (f32 b 24) * fVal (f32 b 28)

/-- The set-up leaves what may not change while a SOLENOID is ENABLED. -/
def BoostConfigSame (x : Boost) (b : List Byte) : Prop :=
  x.en = (u8 b 16 == 1) ∧ x.freq = u16 b 18 ∧ x.ilim = f32 b 24 ∧ x.rcs = f32 b 28

theorem exec_solBoostConfig_passes (hp : passes 0x0A00 d s = true) : exec (.solBoostConfig d) s = .next (bodySolBoostConfig d s) :=
  congrArg _ (runDesc_passes _ hp)

theorem bodySolBoostConfig_param (h : BoostConfigBad d.bytes) : bodySolBoostConfig d s = fail d 0x0004 s :=
  if_pos (by simpa only [BoostConfigBad, Bool.not_eq_true, gt_iff_lt] using h)

section
variable (hb : ¬ BoostConfigBad d.bytes)
include hb

/-- Within the ranges, only the same converter may be set while a SOLENOID is ENABLED. -/
theorem bodySolBoostConfig_inRange : bodySolBoostConfig d s =
    if (objsOf s tySolenoid).any isEnabled && !(s.boost.en == (u8 d.bytes 16 == 1) && s.boost.freq == u16 d.bytes 18
      && s.boost.ilim == f32 d.bytes 24 && s.boost.rcs == f32 d.bytes 28) then fail d 0x000C s
    else ok d { s with boost := { s.boost with en := u8 d.bytes 16 == 1, freq := u16 d.bytes 18, ilim := f32 d.bytes 24
                                               rcs := f32 d.bytes 28, next := some (f32 d.bytes 20, u16 d.bytes 32, u16 d.bytes 34) } } :=
  if_neg (by simpa only [BoostConfigBad, Bool.not_eq_true, gt_iff_lt] using hb)

theorem bodySolBoostConfig_busy (he : (objsOf s tySolenoid).any isEnabled = true) (hs : ¬ BoostConfigSame s.boost d.bytes) :
    bodySolBoostConfig d s = fail d 0x000C s :=
  (bodySolBoostConfig_inRange hb).trans (if_pos (by
    rw [he, Bool.true_and, Bool.not_eq_true', Bool.eq_false_iff]
    simpa only [BoostConfigSame, ne_eq, Bool.and_eq_true, beq_iff_eq, and_assoc] using hs))

theorem bodySolBoostConfig_sets (h : (objsOf s tySolenoid).any isEnabled = false ∨ BoostConfigSame s.boost d.bytes) :
    bodySolBoostConfig d s = ok d { s with boost := { s.boost with
      en := u8 d.bytes 16 == 1, freq := u16 d.bytes 18, ilim := f32 d.bytes 24, rcs := f32 d.bytes 28
      next := some (f32 d.bytes 20, u16 d.bytes 32, u16 d.bytes 34) } } :=
  (bodySolBoostConfig_inRange hb).trans (if_neg (by
    rcases h with h | ⟨hen, hf, hi, hr⟩
    · simp [h]
    · simp [hen, hf, hi, hr]))

end

theorem boostBoundary_waiting {v : F32} {w c : Nat} (h : s.boost.next = some (v, w, c)) :
    boostBoundary s = { s with boost := { s.boost with next := none, vboost := v, boostWait := w, tChop := c } } := by
  simp only [boostBoundary, h]

/-! ## SOL_CMD (R323, R324) -/

section
variable {on : Bool}

theorem solCmdBad_driven (h : driverOf s (handleOf o) ≠ none) : solCmdBad s o on = some 0x0A01 :=
  if_pos (Option.isSome_iff_ne_none.mpr h)

variable (hd : driverOf s (handleOf o) = none)
include hd

theorem solCmdBad_disabled (he : isEnabled o = false) : solCmdBad s o on = some 0x000E := by
  simp [solCmdBad, hd, he, stState]

theorem solCmdBad_latched (he : isEnabled o = true) (hl : (solOf o).latch ≠ 0) (hon : on = true) : solCmdBad s o on = some 0x0A02 := by
  simp [solCmdBad, hd, he, hl, hon]

theorem solCmdBad_none (he : isEnabled o = true) (hl : (solOf o).latch = 0 ∨ on = false) : solCmdBad s o on = none := by
  rcases hl with hl | hl <;> simp [solCmdBad, hd, he, hl]

end

section
variable {x : Deferred}

theorem solCmdRun_unnamed (h : objOf s x.handle = none) : solCmdRun x s = completeDeferred x { status := 0x0002 } s := by
  simp only [solCmdRun, h, stBadHandle]

variable (ho : objOf s x.handle = some o)
include ho

theorem solCmdRun_refused {e : Nat} (hb : solCmdBad s o (x.arg == 1) = some e) : solCmdRun x s = completeDeferred x { status := e } s := by
  simp only [solCmdRun, ho, hb]

variable (hb : solCmdBad s o (x.arg == 1) = none)
include hb

/-- A gate that is as commanded has no edge, and so no signature. -/
theorem solCmdRun_same (hg : (solOf o).gate = (x.arg == 1)) :
    solCmdRun x s = completeDeferred x { result := [0xFF, 0xFF, 0xFF, 0xFF, 9] } s := by
  simp only [solCmdRun, ho, hb]
  exact if_pos (beq_iff_eq.mpr hg)

/-- An edge acts, and the command waits for the window of it. -/
theorem solCmdRun_edge {u : State} (hg : (solOf o).gate ≠ (x.arg == 1)) (hu : u = if x.arg = 1 then solOn o.idx s else solOff o.idx s) :
    solCmdRun x s = { u with hif := { u.hif with
      deferred := u.hif.deferred.map fun y => if y = x then { y with arg := y.arg + 2 } else y } } := by
  subst hu
  simp only [solCmdRun, ho, hb]
  exact if_neg (by simpa using hg)

end

theorem exec_solCmd_passes (hp : passes 0x0A01 d s = true) (ho : objOf s (dHandle d) = some o) :
    exec (.solCmd d) s = .next (bodySolCmd d o s) := congrArg _ (runObj_passes _ hp ho)

theorem bodySolCmd_param (h : 2 ≤ u8 d.bytes 16) : bodySolCmd d o s = fail d 0x0004 s := if_pos h

section
variable (h : u8 d.bytes 16 < 2)
include h

theorem bodySolCmd_refused {e : Nat} (hb : solCmdBad s o (u8 d.bytes 16 == 1) = some e) : bodySolCmd d o s = fail d e s := by
  refine (if_neg (by omega)).trans ?_
  simp only [hb]

/-- An accepted SOL_CMD waits for its GTC, and acts now when that has passed. -/
theorem bodySolCmd_accepted {u : State} (hb : solCmdBad s o (u8 d.bytes 16 == 1) = none)
    (hu : u = defer d 0x0A01 (handleOf o) (u64 d.bytes 24) [] (u8 d.bytes 16) s) :
    bodySolCmd d o s = if u64 d.bytes 24 ≤ s.gtc then
      solCmdRun { st := startedOf s d, op := 0x0A01, handle := handleOf o, due := u64 d.bytes 24, arg := u8 d.bytes 16 } u else u := by
  have hg : u.gtc = s.gtc := hu ▸ (touches_defer ..).gtc
  refine (if_neg (by omega)).trans ?_
  simp only [hb, ← hu, hg]

end

section
variable {h : Nat} {x : Deferred}

theorem execSolOnCommand_due (hx : firstDue s 0x0A01 h (· == 1) = some x) : execSolOnCommand h s = .next (solCmdRun x (toInstant x.due s)) := by
  simp only [execSolOnCommand, hx]

theorem execSolOffCommand_due (hx : firstDue s 0x0A01 h (· == 0) = some x) : execSolOffCommand h s = .next (solCmdRun x (toInstant x.due s)) := by
  simp only [execSolOffCommand, hx]

theorem execSolOnCommand_idle (hx : firstDue s 0x0A01 h (· == 1) = none) : execSolOnCommand h s = .next s := by
  simp only [execSolOnCommand, hx]

theorem execSolOffCommand_idle (hx : firstDue s 0x0A01 h (· == 0) = none) : execSolOffCommand h s = .next s := by
  simp only [execSolOffCommand, hx]

end

/-! ## SOL_CLEAR (R319) -/

/-- The latches that a mask does not clear. -/
def solHeld (m n : Nat) : Nat := n &&& (3 - m)

theorem bit_solHeld {m b : Nat} (n : Nat) (hm : m < 4) (hb : b < 2) : bit (solHeld m n) b = (bit n b && !bit m b) := by
  have hmask : ∀ m < 4, ∀ b < 2, (3 - m).testBit b = !m.testBit b := by decide
  rw [solHeld, bit_eq_testBit, bit_eq_testBit, bit_eq_testBit, Nat.testBit_and, hmask m hm b hb]

theorem exec_solClear_passes (hp : passes 0x0A02 d s = true) (ho : objOf s (dHandle d) = some o) :
    exec (.solClear d) s = .next (bodySolClear d o s) := congrArg _ (runObj_passes _ hp ho)

theorem bodySolClear_param (h : 4 ≤ u8 d.bytes 16) : bodySolClear d o s = fail d 0x0004 s := if_pos h

theorem bodySolClear_clears (h : u8 d.bytes 16 < 4) :
    bodySolClear d o s = ok d (updSol o.idx (fun r => { r with latch := solHeld (u8 d.bytes 16) r.latch }) s) := if_neg (Nat.not_le.mpr h)

/-! ## SOL_BOOST_STATUS (R323) -/

/-- The bytes that SOL_BOOST_STATUS writes. -/
def boostStatusBytes (b : Boost) : List Byte :=
  fBytes b.volts ++ (leBytes 1 (boostState b) ++ (leBytes 1 b.queue.length ++ (leBytes 2 0 ++ (leBytes 4 b.boosts
    ++ (leBytes 4 b.skipped ++ (leBytes 4 b.longestWait ++ (leBytes 4 b.lastCharge ++ List.replicate 8 0)))))))

theorem exec_solBoostStatus_passes (hp : passes 0x0A03 d s = true) :
    exec (.solBoostStatus d) s = .next (writeBack d (boostStatusBytes s.boost) {} s) := by
  refine congrArg _ ((runDesc_passes _ hp).trans ?_)
  simp only [boostStatusBytes, ← List.append_assoc]
  rfl

theorem boostStatusBytes_length (b : Boost) : (boostStatusBytes b).length = 32 := by simp [boostStatusBytes, fBytes]

theorem boostStatusBytes_volts (b : Boost) : f32 (boostStatusBytes b) 0 = b.volts := by
  rw [f32, u32, boostStatusBytes, fBytes, slice_leBytes_here]
  exact ofNat_fBytes _

theorem boostStatusBytes_queue (b : Boost) : u8 (boostStatusBytes b) 5 = b.queue.length % 256 := by
  rw [u8_eq_leNat, boostStatusBytes, fBytes, slice_leBytes_skip _ _ _ (by decide), slice_leBytes_skip _ _ _ (by decide),
    slice_leBytes_here, leNat_leBytes]
  rfl

theorem boostStatusBytes_boosts (b : Boost) : u32 (boostStatusBytes b) 8 = b.boosts % 2 ^ 32 := by
  rw [u32, boostStatusBytes, fBytes, slice_leBytes_skip _ _ _ (by decide), slice_leBytes_skip _ _ _ (by decide),
    slice_leBytes_skip _ _ _ (by decide), slice_leBytes_skip _ _ _ (by decide), slice_leBytes_here, leNat_leBytes]
  rfl

end

/-! ## The statement -/

/-- Settles O43: each command by the condition under which it is refused and by what it does otherwise. -/
theorem solenoidCommands : Obligations.SolenoidCommands := by
  refine ⟨updSol_eq, fun s d b bad x same hp hb hx hbad hsame => ?_, fun s v w c => boostBoundary_waiting, fun s d o on x u hp ho hon hx hu => ?_,
    fun s x => solCmdRun_unnamed, fun s x o ho => ?_, fun s h x => ⟨execSolOnCommand_due, execSolOffCommand_due⟩,
    fun s h => ⟨execSolOnCommand_idle, execSolOffCommand_idle⟩, fun s d o m hp ho hm => ?_, fun s d hp => ?_⟩
  · subst hb hx hbad hsame
    rw [exec_solBoostConfig_passes hp]
    exact ⟨fun h => congrArg _ (bodySolBoostConfig_param h), fun h he hs => congrArg _ (bodySolBoostConfig_busy h he hs),
      fun h hs => congrArg _ (bodySolBoostConfig_sets h hs)⟩
  · subst hon hx
    rw [exec_solCmd_passes hp ho]
    refine ⟨fun h => congrArg _ (bodySolCmd_param h), fun h hd => congrArg _ (bodySolCmd_refused h (solCmdBad_driven hd)),
      fun h hd => ⟨fun he => congrArg _ (bodySolCmd_refused h (solCmdBad_disabled hd he)),
        fun he hl hon => congrArg _ (bodySolCmd_refused h (solCmdBad_latched hd he hl (by simp [hon]))), fun he hl => ?_⟩⟩
    have hacc := bodySolCmd_accepted h (solCmdBad_none hd he (hl.imp_right fun h0 => by simp [h0])) hu
    exact ⟨fun hlt => congrArg _ (hacc.trans (if_neg (Nat.not_le.mpr hlt))), fun hle => congrArg _ (hacc.trans (if_pos hle))⟩
  · have hnone hd he (hl : (solOf o).latch = 0 ∨ x.arg ≠ 1) : solCmdBad s o (x.arg == 1) = none :=
      solCmdBad_none hd he (hl.imp_right fun h => beq_eq_false_iff_ne.mpr h)
    exact ⟨fun hd => solCmdRun_refused ho (solCmdBad_driven hd), fun hd => ⟨fun he => solCmdRun_refused ho (solCmdBad_disabled hd he),
      fun he hl hon => solCmdRun_refused ho (solCmdBad_latched hd he hl (beq_iff_eq.mpr hon)),
      fun he hl hg => solCmdRun_same ho (hnone hd he hl) hg, fun u he hl hg hu => solCmdRun_edge ho (hnone hd he hl) hg hu⟩⟩
  · subst hm
    rw [exec_solClear_passes hp ho]
    exact ⟨fun h => congrArg _ (bodySolClear_param h),
      fun h => ⟨solHeld (u8 d.bytes 16), congrArg _ (bodySolClear_clears h), fun x b => bit_solHeld x h⟩⟩
  · exact ⟨boostStatusBytes s.boost, exec_solBoostStatus_passes hp, boostStatusBytes_length _, boostStatusBytes_volts _, boostStatusBytes_queue _,
      boostStatusBytes_boosts _⟩

end Sys2Proof.Machine
end

section
/-! PROOFS. Solenoid banks (10): the boost converter, the phases of a channel, its protection and its windows (R306, R308 to R311, R313 to
R315, R317, R318, R322). -/

namespace Sys2Proof.Machine

section
variable {s : State} {o : Obj} {h : Nat}

/-- A SOLENOID's running state after a change. -/
theorem objAt_updSol {i : Nat} (f : SolRt → SolRt) (ho : objAt s i = some o) :
    objAt (updSol i f s) i = some { o with rt := .sol (f (solOf o)) } := objAt_updObj_same (fun _ => rfl) ho

theorem objAt_updSol_other {i j : Nat} (f : SolRt → SolRt) (hj : j ≠ i) : objAt (updSol i f s) j = objAt s j :=
  objAt_updObj_other (fun _ => rfl) hj

theorem rtOnly_updSol (i : Nat) (f : SolRt → SolRt) (s : State) : RtOnly s (updSol i f s) := by
  unfold updSol; exact rtOnly_updObj i (by intro _; rfl) s

/-! ## A boost begins (R309, R310) -/

/-- The SOLENOID at an index boosts since an instant, and the converter knows. -/
structure Boosting (i t h : Nat) (s : State) : Prop where
  phase : ∃ x, objAt s i = some x ∧ (solOf x).phase = 2 ∧ (solOf x).phaseAt = t
  solenoid : ∀ x ∈ blocksOf s, x.1 = i → x.2.1 = tySolenoid
  running : s.boost.running = some h

section
variable {i t : Nat}

theorem Boosting.ite {c : Prop} {_ : Decidable c} {a b : State} (ha : Boosting i t h a) (hb : Boosting i t h b) :
    Boosting i t h (if c then a else b) := by
  split <;> assumption

/-- A change of the converter that leaves which channel boosts. -/
theorem Boosting.withBoost (hs : Boosting i t h s) {b : Boost} (hb : b.running = s.boost.running) : Boosting i t h { s with boost := b } :=
  ⟨hs.phase, hs.solenoid, hb.trans hs.running⟩

/-- A change of SOLENOIDs that leaves their phases. -/
theorem Boosting.updSol (hs : Boosting i t h s) (j : Nat) {f : SolRt → SolRt} (hf : ∀ r, (f r).phase = r.phase ∧ (f r).phaseAt = r.phaseAt) :
    Boosting i t h (updSol j f s) := by
  refine ⟨?_, (rtOnly_updSol j f s).blocks ▸ hs.solenoid, hs.running⟩
  obtain ⟨x, hx, hp, ht⟩ := hs.phase
  by_cases hj : i = j
  · subst hj
    exact ⟨_, objAt_updSol f hx, (hf _).1.trans hp, (hf _).2.trans ht⟩
  · exact ⟨x, (objAt_updSol_other f hj).trans hx, hp, ht⟩

/-- A change of another object's channel. -/
theorem Boosting.updChan (hs : Boosting i t h s) {j : Nat} (hj : i ≠ j) (f : ChRt → ChRt) : Boosting i t h (updChan j f s) := by
  refine ⟨?_, (rtOnly_updChan j f s).blocks ▸ hs.solenoid, hs.running⟩
  obtain ⟨x, hx, hph⟩ := hs.phase
  exact ⟨x, (objAt_updChan_other f s hj).trans hx, hph⟩

theorem Boosting.foldl {α : Type} {f : State → α → State} {l : List α} (hs : Boosting i t h s)
    (hf : ∀ u, Boosting i t h u → ∀ x ∈ l, Boosting i t h (f u x)) : Boosting i t h (l.foldl f s) :=
  List.foldlRecOn (motive := Boosting i t h) l f hs hf

/-- The reasons go to NOZZLEs, and so to no SOLENOID. -/
theorem Boosting.senseReason (hs : Boosting i t h s) (k reason : Nat) : Boosting i t h (senseReason k reason s) := by
  refine hs.foldl fun u hu c hc => hu.updChan (fun hi => ?_) _
  obtain ⟨hmem, hp⟩ := List.mem_filter.mp hc
  have ht : c.typ = tyNozzle := by simpa using (Bool.and_eq_true_iff.mp hp).1
  exact absurd ((hs.solenoid _ (List.mem_map_of_mem hmem) hi.symm).symm.trans ht) (by decide)

theorem Boosting.windowReason (hs : Boosting i t h s) (j reason : Nat) : Boosting i t h (windowReason j reason s) := by
  unfold Machine.windowReason
  refine Boosting.updSol ?_ j fun _ => ⟨rfl, rfl⟩
  split
  · exact hs.senseReason ..
  · exact hs

theorem Boosting.setHs (hs : Boosting i t h s) (b : Nat) (on : Bool) : Boosting i t h (setHs b on s) :=
  hs.ite (hs.withBoost rfl)

theorem Boosting.setLs (hs : Boosting i t h s) (j : Nat) (on : Bool) : Boosting i t h (setLs j on s) :=
  hs.updSol j fun r => by split <;> exact ⟨rfl, rfl⟩

theorem Boosting.bankSettle (hs : Boosting i t h s) (b was : Nat) : Boosting i t h (bankSettle b was s) := by
  unfold Machine.bankSettle
  extract_lets n s₁ s₂
  have h₁ : Boosting i t h s₁ := hs.foldl fun u hu x _ => hu.windowReason ..
  have h₂ : Boosting i t h s₂ := .ite (h₁.foldl fun u hu x _ => hu.updSol _ fun _ => ⟨rfl, rfl⟩) h₁
  exact .ite (h₂.setHs ..) (.ite (h₂.setHs ..) h₂)

theorem Boosting.boostSettle (hs : Boosting i t h s) : Boosting i t h (boostSettle s) := hs.withBoost rfl

end

/-- Where no two objects share an index, a SOLENOID whose boost starts boosts from now on. -/
theorem boosting_boostStart (ho : objAt s o.idx = some o) (ht : o.typ = tySolenoid) (hd : s.objs.Pairwise fun x y => x.idx ≠ y.idx) :
    Boosting o.idx s.gtc (handleOf o) (boostStart o s) := by
  have hinj := List.inj_on_of_nodup_map (f := Obj.idx) (List.pairwise_map.mpr hd)
  have hsol : ∀ x ∈ blocksOf s, x.1 = o.idx → x.2.1 = tySolenoid := by
    intro x hx hi
    obtain ⟨y, hy, rfl⟩ := List.mem_map.mp hx
    exact (congrArg Obj.typ (hinj hy (List.mem_of_find?_eq_some ho) hi)).trans ht
  unfold boostStart
  extract_lets k b was w s₁ x s₂
  have hphase : ∃ x, objAt s₁ o.idx = some x ∧ (solOf x).phase = 2 ∧ (solOf x).phaseAt = s.gtc := ⟨_, objAt_updSol _ ho, rfl, rfl⟩
  have hblocks : blocksOf s₁ = blocksOf s := (rtOnly_updSol ..).blocks
  have hs₂ : Boosting o.idx s.gtc (handleOf o) s₂ := ⟨hphase, hblocks ▸ hsol, rfl⟩
  exact (((hs₂.setHs ..).setLs ..).bankSettle ..).boostSettle

theorem boostBegin_idle (hi : s.boost.queue = [] ∨ s.boost.running ≠ none ∨ s.boost.charged = false
    ∨ fLe s.boost.vboost s.boost.volts = false) : boostBegin s = s := by
  unfold boostBegin
  split
  · rfl
  · next o ho =>
    refine if_neg fun hc => ?_
    simp only [Bool.and_eq_true, Option.isNone_iff_eq_none] at hc
    obtain ⟨⟨⟨hch, hle⟩, hrun⟩, -⟩ := hc
    rcases hi with hq | hr | hc | hv
    · simp [boostHead, hq] at ho
    · exact hr hrun
    · exact Bool.false_ne_true (hc.symm.trans hch)
    · exact Bool.false_ne_true (hv.symm.trans hle)

theorem boostHead_of (hq : s.boost.queue.head? = some h) (ho : objOf s h = some o) : boostHead s = some o := by
  rw [boostHead, hq, Option.bind_some, ho]

theorem boostBegin_starts (hh : boostHead s = some o) (hr : s.boost.running = none) (hc : s.boost.charged = true)
    (hv : fLe s.boost.vboost s.boost.volts = true) (hp : (solOf o).phase = 1) : boostBegin s = boostStart o s := by
  simp only [boostBegin, hh]
  exact if_pos (by simp [hr, hc, hv, hp])

/-! ## The converter (R308, R309) -/

theorem execVboostReached_idle {t : Nat} {v : F32}
    (hi : s.boost.charging = false ∧ s.boost.charged = false ∨ fLe s.boost.vboost v = false) : execVboostReached t v s = .next s :=
  congrArg _ (if_pos (by rcases hi with ⟨hg, hd⟩ | hv <;> simp [*]))

/-- The charge that ends is timed; a reservoir that was full keeps the time of its charge. -/
theorem execVboostReached_charged {t : Nat} {v : F32} {u : State} (hc : s.boost.charging = true ∨ s.boost.charged = true)
    (hv : fLe s.boost.vboost v = true) (hu : u = toInstant t s) : execVboostReached t v s = .next (boostBegin (boostSettle { u with
      boost := { u.boost with
        volts := v, charged := true, bstG := false
        lastCharge := if s.boost.charging then (u.gtc - s.boost.chargeAt) / 480 else s.boost.lastCharge } })) := by
  have hb : u.boost = s.boost := hu ▸ toInstant_boost t s
  rw [← hb]
  subst hu
  exact congrArg _ (if_neg (by rcases hc with hc | hc <;> simp [hc, hv]))

theorem execBoostWaitExpiry_idle
    (hi : boostHead s = none ∨ ∃ o, boostHead s = some o ∧ (handleOf o ≠ h ∨ (solOf o).phase ≠ 1)) : execBoostWaitExpiry h s = .next s := by
  rcases hi with hn | ⟨o, hh, hx⟩
  · simp only [execBoostWaitExpiry, hn]
  · simp only [execBoostWaitExpiry, hh]
    exact congrArg _ (if_pos hx)

theorem execBoostWaitExpiry_skips (hq : s.boost.queue.head? = some h) (ho : objOf s h = some o) (hp : (solOf o).phase = 1) :
    execBoostWaitExpiry h s = .next (boostSettle (boostSkip o (toInstant ((solOf o).onAt + s.boost.boostWait * 480) s))) := by
  simp only [execBoostWaitExpiry, boostHead_of hq ho]
  exact congrArg _ (if_neg (by simp [handleOf_of_objOf ho, hp]))

theorem execBoostOvervoltage_idle {v : F32}
    (hi : s.boost.overV = true ∨ fLt (fAdd s.boost.vboost (fk 5)) v = false ∧ fLt (fk 68) v = false) : execBoostOvervoltage v s = .next s :=
  congrArg _ (if_pos (by rcases hi with h | ⟨h, k⟩ <;> simp [*]))

theorem execBoostOvervoltage_raises {v : F32} (ho : s.boost.overV = false)
    (hv : fLt (fAdd s.boost.vboost (fk 5)) v = true ∨ fLt (fk 68) v = true) : execBoostOvervoltage v s
      = .next (skipDue (boostSettle (raise0 0x0A41 0 (fBytes v) { s with boost := { s.boost with volts := v, overV := true, bstG := false } }))) :=
  congrArg _ (if_neg (by rcases hv with hv | hv <;> simp [ho, hv]))

theorem skipDue_idle (hi : s.boost.overV = false ∨ s.boost.running ≠ none) : skipDue s = s :=
  if_neg (by rcases hi with h | h <;> simp [h])

theorem skipDue_skips (ho : s.boost.overV = true) (hr : s.boost.running = none) :
    skipDue s = boostSettle ((s.boost.queue.filterMap (objOf s)).foldl (fun s o => boostSkip o s) s) :=
  if_pos (by simp [ho, hr])

theorem execBoostEnd_idle {t : Nat} {c : Bool}
    (hi : objOf s h = none ∨ s.boost.running ≠ some h ∨ ∃ o, objOf s h = some o ∧ (solOf o).phase ≠ 2) : execBoostEnd h t c s = .next s := by
  cases ho : objOf s h with
  | none => simp only [execBoostEnd, ho]
  | some o =>
    have hx : s.boost.running ≠ some h ∨ (solOf o).phase ≠ 2 := by simpa [ho] using hi
    simp only [execBoostEnd, ho]
    exact congrArg _ (if_pos hx)

/-- A boost ends in the peak, which begins at the current or at t_boost. -/
theorem execBoostEnd_peaks {t : Nat} {c : Bool} {u : State} (ho : objOf s h = some o) (hr : s.boost.running = some h) (hp : (solOf o).phase = 2)
    (hu : u = solPeak o.idx (toInstant (if c then t else (solOf o).phaseAt + u32 o.act 12 * 480) s)) :
    execBoostEnd h t c s = .next (skipDue (boostBegin (boostSettle (dequeue h (updSol o.idx (fun r => { r with
      tBoostMeas := (u.gtc - (solOf o).phaseAt) / 480, tBoostEnd := !c }) u))))) := by
  subst hu
  simp only [execBoostEnd, ho]
  exact congrArg _ (if_neg (by simp [hr, hp]))

/-! ## Peak, hold and decay (R306, R310, R311, R314, R315) -/

theorem solPeak_eq {i b : Nat} {u : State} (ho : objAt s i = some o) (hb : b = solBank o.act) (hu : u = updSol i (fun r => { r with
      phase := if u32 o.act 20 = 0 then 4 else 3, target := if u32 o.act 20 = 0 then r.loopTarget.getD (f32 o.act 24) else f32 o.act 16
      phaseAt := if r.phase = 2 then s.gtc else r.onAt, reached := false }) s) :
    solPeak i s = bankSettle b (bankActive s b).length (setLs i true (setHs b true u)) := by
  subst hb hu
  simp only [solPeak, ho]

theorem execPeakEnd_idle (hi : objOf s h = none ∨ ∃ o, objOf s h = some o ∧ (solOf o).phase ≠ 3) : execPeakEnd h s = .next s := by
  rcases hi with ho | ⟨o, ho, hp⟩
  · simp only [execPeakEnd, ho]
  · simp only [execPeakEnd, ho]
    exact congrArg _ (if_pos hp)

theorem execPeakEnd_holds {u : State} (ho : objOf s h = some o) (hp : (solOf o).phase = 3)
    (hu : u = toInstant ((solOf o).phaseAt + u32 o.act 20 * 480) s) : execPeakEnd h s = .next (updSol o.idx (fun r => { r with
      phase := 4, phaseAt := (solMissed o u).gtc, reached := false, target := r.loopTarget.getD (f32 o.act 24) }) (solMissed o u)) := by
  subst hu
  simp only [execPeakEnd, ho]
  exact congrArg _ (if_neg (not_not.mpr hp))

theorem solMissed_reached (hr : (solOf o).reached = true) : solMissed o s = s := if_pos hr

theorem solMissed_noted {u : State} (hr : (solOf o).reached = false) (hu : u = updSol o.idx (fun r => { r with notReached := true }) s) :
    solMissed o s = if s.pwr.vbatLow.getD 0 false = true then
      raiseLimited 480000000 0x0A44 0 (handleOf o) 0 0 (leBytes 1 (solOf o).phase ++ [0, 0, 0, 0, 0, 0, 0]) 4 4 u else u := by
  subst hu
  exact if_neg (Bool.eq_false_iff.mp hr)

theorem execSolRegulatorThreshold_idle {t : Nat} {up : Bool}
    (hi : objOf s h = none ∨ ∃ o, objOf s h = some o ∧ (solOf o).phase ≠ 3 ∧ (solOf o).phase ≠ 4) :
    execSolRegulatorThreshold h t up s = .next s := by
  rcases hi with ho | ⟨o, ho, hp⟩
  · simp only [execSolRegulatorThreshold, ho]
  · simp only [execSolRegulatorThreshold, ho]
    exact congrArg _ (if_pos hp)

/-- The target is reached, and a LOOP's new target is taken over in the hold. -/
def targetReached (i : Nat) (s : State) : State :=
  updSol i (fun r => { r with reached := true, target := if r.phase = 4 then r.loopTarget.getD r.target else r.target }) s

section
variable {t b : Nat} {up : Bool} {w : State} (ho : objOf s h = some o) (hb : b = solBank o.act) (hp : (solOf o).phase = 3 ∨ (solOf o).phase = 4)
include ho hb hp

theorem execSolRegulatorThreshold_alone (hn : (bankActive s b).length ≤ 1)
    (hw : w = toInstant (max t (s.boost.hsAt.getD b 0 + s.boost.tChop * 480)) s) :
    execSolRegulatorThreshold h t up s = .next (setLs o.idx true (setHs b (!up) (targetReached o.idx w))) := by
  subst hb hw
  have hreg : ¬ ((solOf o).phase ≠ 3 ∧ (solOf o).phase ≠ 4) := by omega
  simp only [execSolRegulatorThreshold, ho, if_neg hreg, hn, decide_true, if_true]
  rfl

theorem execSolRegulatorThreshold_overlap (hn : 1 < (bankActive s b).length)
    (hw : w = toInstant (max t ((solOf o).lsAt + s.boost.tChop * 480)) s) :
    execSolRegulatorThreshold h t up s = .next (setLs o.idx (!up) (targetReached o.idx w)) := by
  subst hb hw
  have hreg : ¬ ((solOf o).phase ≠ 3 ∧ (solOf o).phase ≠ 4) := by omega
  have hsingle : decide ((bankActive s (solBank o.act)).length ≤ 1) = false := decide_eq_false (Nat.not_le.mpr hn)
  simp only [execSolRegulatorThreshold, ho, if_neg hreg, hsingle, Bool.false_eq_true, if_false]
  rfl

end

theorem execSolDecayEnd_idle {t : Nat} (hi : objOf s h = none ∨ ∃ o, objOf s h = some o ∧ (solOf o).phase ≠ 5) :
    execSolDecayEnd h t s = .next s := by
  rcases hi with ho | ⟨o, ho, hp⟩
  · simp only [execSolDecayEnd, ho]
  · simp only [execSolDecayEnd, ho]
    exact congrArg _ (if_pos hp)

theorem execSolDecayEnd_ends {t : Nat} (ho : objOf s h = some o) (hp : (solOf o).phase = 5) :
    execSolDecayEnd h t s = .next (setLs o.idx false (windowCut o.idx (updSol o.idx (fun r => { r with phase := 0 }) (toInstant t s)))) := by
  simp only [execSolDecayEnd, ho]
  exact congrArg _ (if_neg (not_not.mpr hp))

/-! ## Protection (R318) -/

theorem execSolTripCurrent_unnamed {t : Nat} (ho : objOf s h = none) : execSolTripCurrent h t s = .next s := by
  simp only [execSolTripCurrent, ho]

theorem execSolOpenTimeout_unnamed (ho : objOf s h = none) : execSolOpenTimeout h s = .next s := by
  simp only [execSolOpenTimeout, ho]

section
variable (ho : objOf s h = some o)
include ho

theorem execSolTripCurrent_idle {t : Nat} (hi : o.typ ≠ tySolenoid ∨ (solOf o).phase = 0 ∨ bit (solOf o).latch 0 = true) :
    execSolTripCurrent h t s = .next s := by
  simp only [execSolTripCurrent, ho]
  exact congrArg _ (if_pos hi)

theorem execSolTripCurrent_latches {t : Nat} (ht : o.typ = tySolenoid) (hp : (solOf o).phase ≠ 0) (hl : bit (solOf o).latch 0 = false) :
    execSolTripCurrent h t s = .next (solLatch o 0 true (toInstant t s)) := by
  simp only [execSolTripCurrent, ho]
  exact congrArg _ (if_neg (by simp [ht, hp, hl]))

theorem execSolOpenTimeout_idle (hi : o.typ ≠ tySolenoid ∨ (solOf o).gate = false ∨ bit (u8 o.act 3) 0 = false ∨ bit (solOf o).latch 1 = true) :
    execSolOpenTimeout h s = .next s := by
  simp only [execSolOpenTimeout, ho]
  exact congrArg _ (if_pos (by simpa using hi))

theorem execSolOpenTimeout_latches (ht : o.typ = tySolenoid) (hg : (solOf o).gate = true) (hd : bit (u8 o.act 3) 0 = true)
    (hl : bit (solOf o).latch 1 = false) : execSolOpenTimeout h s
      = .next (solLatch o 1 (bit (u8 o.act 3) 1) (toInstant ((solOf o).lastOn + u16 o.act 52 * 480000) s)) := by
  simp only [execSolOpenTimeout, ho]
  exact congrArg _ (if_neg (by simp [ht, hg, hd, hl]))

end

/-- The latch is set, the gates are off and the event is raised. -/
def solLatched (o : Obj) (b : Nat) (s : State) : State :=
  raise0 0x0A42 (handleOf o) (leBytes 1 (2 ^ b)) (senseReason (handleOf o) 6 (solCut o.idx (windowReason o.idx 6
    (updSol o.idx (fun r => { r with latch := setBit r.latch b true, dead := true, gate := false }) s))))

/-- The fault goes to the object that drives the channel. -/
theorem solLatch_eq (o : Obj) (b : Nat) (f : Bool) (s : State) :
    solLatch o b f s = (driverOf (solLatched o b s) (handleOf o)).elim (solLatched o b s) fun x =>
      if f then class1 (handleOf x) 0x0A43 (leBytes 4 (handleOf o) ++ leBytes 1 (setBit (solOf o).latch b true)) (solLatched o b s)
      else solLatched o b s := by
  unfold solLatch
  extract_lets k s₁ s₂ u
  change _ = (driverOf u k).elim u _
  cases driverOf u k <;> rfl

theorem solLatch_alone {b : Nat} {f : Bool} (hi : f = false ∨ driverOf (solLatched o b s) (handleOf o) = none) :
    solLatch o b f s = solLatched o b s := by
  rw [solLatch_eq]
  rcases hi with rfl | hd
  · cases driverOf (solLatched o b s) (handleOf o) <;> rfl
  · rw [hd, Option.elim_none]

theorem solLatch_faults {b : Nat} {x : Obj} (hd : driverOf (solLatched o b s) (handleOf o) = some x) : solLatch o b true s
    = class1 (handleOf x) 0x0A43 (leBytes 4 (handleOf o) ++ leBytes 1 (setBit (solOf o).latch b true)) (solLatched o b s) := by
  rw [solLatch_eq, hd, Option.elim_some, if_pos rfl]

/-! ## Signature windows (R313, R317) -/

theorem execSolSignatureWindowClose_idle {t0 : Nat} {cs ls : List Code}
    (hi : objOf s h = none ∨ ∃ o, objOf s h = some o ∧ (solOf o).window = none) : execSolSignatureWindowClose h t0 cs ls s = .next s := by
  rcases hi with ho | ⟨o, ho, hw⟩
  · simp only [execSolSignatureWindowClose, ho]
  · simp only [execSolSignatureWindowClose, ho, hw]

/-- The reason that a window closes with: Q_Ln off before the signature, one found during the window, a warning, or no signature. -/
def closeReason (s : State) (w : Window) (sig : Option Nat) : Nat :=
  if cutShort w.cut sig = true then 1 else if w.reason ≠ 0 then w.reason else if s.pwr.vbatLow.getD 0 false = true then 3
    else if sig = none then 4 else 0

theorem execSolSignatureWindowClose_open {t0 lo hi : Nat} {cs ls : List Code} {w : Window} {sig : Option Nat} {u : State}
    (ho : objOf s h = some o) (hw : (solOf o).window = some w) (hlo : lo = w.edge + (solSpan s o).1 * 480)
    (hhi : hi = w.edge + (solSpan s o).2 * 480) (hsig : sig = signatureOf o w.on lo hi t0 cs)
    (hu : u = updSol o.idx (fun r => { r with
      current := shuntAmps 101 o (codeSum ls) (max 1 ls.length), iMax := fMax r.iMax (shuntAmps 102 o (codeMax (cs ++ ls)) 1) })
      (toInstant hi s)) :
    execSolSignatureWindowClose h t0 cs ls s = .next (solWindowEnd o.idx
      (if closeReason s w sig = 0 then sig.map fun t => (t - w.edge) / 480 else none) (closeReason s w sig) u) := by
  have hk : closeReason s w sig = closeReason u w sig := by
    have hpwr : u.pwr = s.pwr := hu ▸ toInstant_pwr hi s
    simp only [closeReason, hpwr]
  rw [hk]
  subst hlo hhi hsig hu
  simp only [execSolSignatureWindowClose, ho, hw, Option.isNone_iff_eq_none]
  rfl

section
variable {i k : Nat} {sig : Option Nat} {u : State} (ho : objAt s i = some o) (hw : (solOf o).window ≠ none)
  (hu : u = updSol i (fun r => { r with window := none, lastReason := k, tSig := sig.getD 0xFFFFFFFF }) s)
include ho hw hu

theorem solWindowEnd_kept (hx : firstDue u 0x0A01 (handleOf o) (fun a => decide (2 ≤ a)) = none) : solWindowEnd i sig k s = u := by
  subst hu
  simp only [solWindowEnd, ho, Option.isNone_iff_eq_none, if_neg hw, hx]

/-- The SOL_CMD of the window's edge completes with what the window found. -/
theorem solWindowEnd_completes {x : Deferred} (hx : firstDue u 0x0A01 (handleOf o) (fun a => decide (2 ≤ a)) = some x) :
    solWindowEnd i sig k s = completeDeferred x { result := leBytes 4 (sig.getD 0xFFFFFFFF) ++ leBytes 1 k } u := by
  subst hu
  simp only [solWindowEnd, ho, Option.isNone_iff_eq_none, if_neg hw, hx, solResult]

end

end

/-! ## The statement -/

/-- Settles O44: each happening by the condition under which it does nothing and by what it does otherwise. -/
theorem solenoidPhases : Obligations.SolenoidPhases := by
  refine ⟨fun s t v lim u w hu hw => ?_, fun s want hwant => ?_, fun s t v => execVboostReached_idle, fun s t v u hc hv hu => ?_,
    fun s => ⟨boostBegin_idle, fun o hq ho hr hc hv hp => boostBegin_starts (boostHead_of hq ho) hr hc hv hp⟩, fun s h o ho hat ht hd => ?_,
    fun s h => execBoostWaitExpiry_idle, fun s h o => execBoostWaitExpiry_skips, fun s o w hw => ?_,
    fun s v => ⟨execBoostOvervoltage_idle, execBoostOvervoltage_raises⟩, fun s => ⟨skipDue_idle, skipDue_skips⟩,
    fun s h t c => execBoostEnd_idle, fun s h t c o u => execBoostEnd_peaks, fun s h => rfl, fun s i o b u => solPeak_eq,
    fun s h => execPeakEnd_idle, fun s h o u => execPeakEnd_holds, fun s o => ⟨solMissed_reached, fun hr u => solMissed_noted hr⟩,
    fun s h t up => execSolRegulatorThreshold_idle, fun s h t up o b w ho hb hp =>
      ⟨execSolRegulatorThreshold_alone ho hb hp, execSolRegulatorThreshold_overlap ho hb hp⟩,
    fun s h t => execSolDecayEnd_idle, fun s h t o => execSolDecayEnd_ends,
    fun s h t ho => ⟨execSolTripCurrent_unnamed ho, execSolOpenTimeout_unnamed ho⟩,
    fun s h t o ho => ⟨execSolTripCurrent_idle ho, execSolTripCurrent_latches ho, execSolOpenTimeout_idle ho, execSolOpenTimeout_latches ho⟩,
    fun s o b f u hu => ?_, fun s h t0 cs ls => execSolSignatureWindowClose_idle,
    fun s h t0 cs ls o w lo hi u sig k ho hw hlo hhi hsig hu hk => ?_,
    fun s i o sig k u ho hw hu => ⟨solWindowEnd_kept ho hw hu, fun x => solWindowEnd_completes ho hw hu⟩⟩
  · subst hw hu; rfl
  · subst hwant; rfl
  · exact ⟨_, execVboostReached_charged hc hv hu, fun h => if_pos h, fun h => if_neg (Bool.eq_false_iff.mp h)⟩
  · obtain ⟨⟨x, hx, hp, hpt⟩, -, hr⟩ := boosting_boostStart hat ht hd
    exact ⟨x, hx, hp, hpt, hr.trans (congrArg some (handleOf_of_objOf ho))⟩
  · subst hw; rfl
  · subst hu
    refine ⟨solLatch_alone, fun x hf hd => ?_⟩
    subst hf
    exact solLatch_faults hd
  · have hclose := execSolSignatureWindowClose_open ho hw hlo hhi hsig hu
    have hk' : closeReason s w sig = k := hk.symm
    rw [hk'] at hclose
    refine ⟨fun h0 => hclose.trans ?_, fun t h0 ht => hclose.trans ?_⟩
    · rw [if_neg h0]
    · rw [if_pos h0, h0, ht, Option.map_some]

end Sys2Proof.Machine
end

section
/-! PROOFS. Motion axes (11): the descriptors of an axis: target, stop, compare, home and set position (R328, R331, R332, R338, R341, R342,
R347). -/

namespace Sys2Proof.Machine

theorem updAx_eq (i : Nat) (f : AxRt → AxRt) (s : State) :
    updAx i f s = { s with objs := s.objs.map fun o => if o.idx = i then { o with rt := .axis (f (axOf o)) } else o } := rfl

section
variable {s : State} {o : Obj} {d : Desc}

/-- An AXIS's running state after a change. -/
theorem objAt_updAx {i : Nat} (f : AxRt → AxRt) (ho : objAt s i = some o) :
    objAt (updAx i f s) i = some { o with rt := .axis (f (axOf o)) } := objAt_updObj_same (fun _ => rfl) ho

/-! ## What the commands share: pending targets, homing that fails, stops, compares (R328, R332, R338, R342, R343) -/

section
variable {i n : Nat} (ho : objAt s i = some o)
include ho

theorem axDropPending_idle (hx : firstDue s 0x0B00 (handleOf o) (· == 0) = none) : axDropPending i n s = s := by
  simp only [axDropPending, ho, hx]

theorem axDropPending_ends {x : Deferred} (hx : firstDue s 0x0B00 (handleOf o) (· == 0) = some x) :
    axDropPending i n s = completeDeferred x { status := n } s := by
  simp only [axDropPending, ho, hx]

theorem axHomeFail_idle (hh : (axOf o).homing = false) : axHomeFail i n s = s := by
  simp only [axHomeFail, ho]
  exact if_pos (by simp [hh])

theorem axHomeFail_homing (hh : (axOf o).homing = true) : axHomeFail i n s = raiseE 0x0B42 0 (handleOf o) o.epoch (leBytes 1 n)
    (updAx i (fun r => { r with homing := false, homed := false, homeFail := n }) s) := by
  simp only [axHomeFail, ho]
  exact if_neg (by simp [hh])

/-- The compares go, and their descriptors complete CANCELLED. -/
theorem axCancel_eq : axCancel i s = (s.hif.deferred.filter fun x => x.op == 0x0B02 && x.handle == handleOf o).foldl
    (fun s x => completeDeferred x { status := 0x0604 } s) (updAx i (fun r => { r with compares := [] }) s) := by
  simp only [axCancel, ho]
  rfl

end

theorem axStop_eq (i : Nat) (cut : Bool) (s : State) : axStop i cut s
    = axSettle i (updAx i (fun r => if cut then axHalt (axEnd i 0x0B04 s).gtc r else axQuick r) (axEnd i 0x0B04 s)) := rfl

/-! ## AXIS_TARGET (R328, R331, R332) -/

/-- No target has this kind, or its velocity is no number. -/
def AxisTargetBad (b : List Byte) : Prop := 4 ≤ u8 b 16 ∨ u8 b 16 = 2 ∧ fFinite (f32 b 24) = false

theorem exec_axisTarget_passes (hp : passes 0x0B00 d s = true) (ho : objOf s (dHandle d) = some o) :
    exec (.axisTarget d) s = .next (bodyAxisTarget d o s) := congrArg _ (runObj_passes _ hp ho)

theorem bodyAxisTarget_param (h : AxisTargetBad d.bytes) : bodyAxisTarget d o s = fail d 0x0004 s :=
  if_pos (by simpa only [AxisTargetBad, Bool.not_eq_true'] using h)

section
variable (hb : ¬ AxisTargetBad d.bytes)
include hb

/-- A target of good bytes is judged by its axis. -/
theorem bodyAxisTarget_good : bodyAxisTarget d o s =
    if !isEnabled o || axFaulting o then fail d 0x000E s
    else if (driverOf s (handleOf o)).isSome then fail d 0x0B08 s
    else if (axOf o).homing then fail d 0x0B06 s
    else defer d 0x0B00 (handleOf o) (u64 d.bytes 32) [] 0 (axDropPending o.idx 0x0B03 s) :=
  if_neg (by simpa only [AxisTargetBad, Bool.not_eq_true'] using hb)

theorem bodyAxisTarget_state (h : isEnabled o = false ∨ axFaulting o = true) : bodyAxisTarget d o s = fail d 0x000E s :=
  (bodyAxisTarget_good hb).trans (if_pos (by rcases h with h | h <;> simp [h]))

variable (he : isEnabled o = true) (hf : axFaulting o = false)
include he hf

theorem bodyAxisTarget_driven (hd : driverOf s (handleOf o) ≠ none) : bodyAxisTarget d o s = fail d 0x0B08 s := by
  rw [bodyAxisTarget_good hb, if_neg (by simp [he, hf]), if_pos (Option.isSome_iff_ne_none.mpr hd)]

variable (hd : driverOf s (handleOf o) = none)
include hd

theorem bodyAxisTarget_homing (hh : (axOf o).homing = true) : bodyAxisTarget d o s = fail d 0x0B06 s := by
  rw [bodyAxisTarget_good hb, if_neg (by simp [he, hf]), if_neg (by simp [hd]), if_pos hh]

/-- An accepted target takes the place of the one that is pending. -/
theorem bodyAxisTarget_pends (hh : (axOf o).homing = false) : bodyAxisTarget d o s
    = defer d 0x0B00 (handleOf o) (u64 d.bytes 32) [] 0 (axDropPending o.idx 0x0B03 s) := by
  rw [bodyAxisTarget_good hb, if_neg (by simp [he, hf]), if_neg (by simp [hd]), if_neg (by simp [hh])]

end

/-- The target that a descriptor asks for. -/
def targetOf (b : List Byte) : ATgt :=
  { kind := u8 b 16, dur := u32 b 20, value := if u8 b 16 = 2 then fxF (f32 b 24) else i64 b 24 * axCount }

section
variable {t i : Nat} {x : Deferred} (ho : objAt s i = some o) (hx : firstDue s 0x0B00 (handleOf o) (· == 0) = some x)
include ho hx

/-- What becomes of the pending target at an update. -/
theorem axHostTarget_pending : axHostTarget t i s =
    if t < x.due then s
    else if (axOf o).homing then completeDeferred x { status := 0x0B06 } s
    else if axBlocked s o.act (axTgtDir (axOf o) (targetOf x.st.desc.bytes)) then completeDeferred x { status := 0x0B05 } s
    else
      let u := axTakeTarget i (targetOf x.st.desc.bytes) true s
      { u with hif := { u.hif with deferred := u.hif.deferred.map fun y => if y = x then { y with arg := 1 } else y } } := by
  simp only [axHostTarget, ho, hx]
  rfl

theorem axHostTarget_early (hlt : t < x.due) : axHostTarget t i s = s := (axHostTarget_pending ho hx).trans (if_pos hlt)

variable (hle : x.due ≤ t)
include hle

theorem axHostTarget_homing (hh : (axOf o).homing = true) : axHostTarget t i s = completeDeferred x { status := 0x0B06 } s := by
  rw [axHostTarget_pending ho hx, if_neg (Nat.not_lt.mpr hle), if_pos hh]

variable (hh : (axOf o).homing = false)
include hh

theorem axHostTarget_blocked (hb : axBlocked s o.act (axTgtDir (axOf o) (targetOf x.st.desc.bytes)) = true) :
    axHostTarget t i s = completeDeferred x { status := 0x0B05 } s := by
  rw [axHostTarget_pending ho hx, if_neg (Nat.not_lt.mpr hle), if_neg (Bool.eq_false_iff.mp hh), if_pos hb]

theorem axHostTarget_takes {u : State} (hb : axBlocked s o.act (axTgtDir (axOf o) (targetOf x.st.desc.bytes)) = false)
    (hu : u = axTakeTarget i (targetOf x.st.desc.bytes) true s) : axHostTarget t i s
      = { u with hif := { u.hif with deferred := u.hif.deferred.map fun y => if y = x then { y with arg := 1 } else y } } := by
  rw [axHostTarget_pending ho hx, if_neg (Nat.not_lt.mpr hle), if_neg (Bool.eq_false_iff.mp hh), if_neg (Bool.eq_false_iff.mp hb), hu]

end

/-! ## AXIS_STOP (R342, R347) -/

theorem exec_axisStop_passes (hp : passes 0x0B01 d s = true) (ho : objOf s (dHandle d) = some o) :
    exec (.axisStop d) s = .next (bodyAxisStop d o s) := congrArg _ (runObj_passes _ hp ho)

theorem bodyAxisStop_param (h : 2 ≤ u8 d.bytes 16) : bodyAxisStop d o s = fail d 0x0004 s := if_pos h

theorem bodyAxisStop_disabled (h : u8 d.bytes 16 < 2) (hd : o.ost = .disabled) : bodyAxisStop d o s = fail d 0x000E s :=
  (if_neg (Nat.not_le.mpr h)).trans (if_pos hd)

section
variable {u : State} (hu : u = axHomeFail o.idx 3 s) (hd : o.ost ≠ .disabled)
include hu hd

theorem bodyAxisStop_quick (hk : u8 d.bytes 16 = 0) : bodyAxisStop d o s
    = axStop o.idx false (updAx o.idx (fun r => { r with stopDescs := r.stopDescs ++ [d] }) u) := by
  subst hu
  simp only [bodyAxisStop, hk, if_neg hd]
  rfl

/-- A cut is followed by the standstill option. -/
theorem bodyAxisStop_cut (hk : u8 d.bytes 16 = 1) : bodyAxisStop d o s
    = axStop o.idx true (updAx o.idx (fun r => { r with stopDescs := r.stopDescs ++ [d], atRest := 1 }) u) := by
  subst hu
  simp only [bodyAxisStop, hk, if_neg hd]
  rfl

end

/-! ## AXIS_COMPARE (R338) -/

/-- A direction or a level is none, or the channel is no edge channel. -/
def AxisCompareBad (b : List Byte) : Prop := 2 ≤ u8 b 16 ∨ 2 ≤ u8 b 18 ∨ u8 b 17 < 112 ∨ 128 ≤ u8 b 17 ∧ u8 b 17 ≠ 255

/-- The compare that a descriptor asks for. -/
def compareOf (d : Desc) : ACmp :=
  { desc := d, value := i64 d.bytes 24, rev := u8 d.bytes 16 == 1, edge := u8 d.bytes 17, level := u8 d.bytes 18 == 1 }

theorem exec_axisCompare_passes (hp : passes 0x0B02 d s = true) (ho : objOf s (dHandle d) = some o) :
    exec (.axisCompare d) s = .next (bodyAxisCompare d o s) := congrArg _ (runObj_passes _ hp ho)

theorem axisCompareBad_iff {b : List Byte} : AxisCompareBad b ↔
    2 ≤ u8 b 16 ∨ 2 ≤ u8 b 18 ∨ ¬ (u8 b 17 = 0xFF ∨ (112 ≤ u8 b 17 ∧ u8 b 17 < 128)) := by
  unfold AxisCompareBad; omega

theorem bodyAxisCompare_param (h : AxisCompareBad d.bytes) : bodyAxisCompare d o s = fail d 0x0004 s := if_pos (axisCompareBad_iff.mp h)

section
variable (hb : ¬ AxisCompareBad d.bytes)
include hb

/-- A compare of good bytes is judged by its axis and its channel. -/
theorem bodyAxisCompare_good : bodyAxisCompare d o s =
    if !isEnabled o then fail d 0x000E s
    else if u8 d.bytes 17 ≠ 0xFF ∧ (pwmOnChan s (u8 d.bytes 17)).isSome then fail d 0x000D s
    else if 4 ≤ (axOf o).compares.length then fail d 0x0B09 s
    else defer d 0x0B02 (handleOf o) 0 [] 0 (updAx o.idx (fun r => { r with compares := r.compares ++ [compareOf d] }) s) :=
  if_neg fun h => hb (axisCompareBad_iff.mpr h)

theorem bodyAxisCompare_state (he : isEnabled o = false) : bodyAxisCompare d o s = fail d 0x000E s :=
  (bodyAxisCompare_good hb).trans (if_pos (by simp [he]))

variable (he : isEnabled o = true)
include he

theorem bodyAxisCompare_inUse (hc : u8 d.bytes 17 ≠ 255) (hw : pwmOnChan s (u8 d.bytes 17) ≠ none) :
    bodyAxisCompare d o s = fail d 0x000D s := by
  rw [bodyAxisCompare_good hb, if_neg (by simp [he]), if_pos ⟨hc, Option.isSome_iff_ne_none.mpr hw⟩]

variable (hc : u8 d.bytes 17 = 255 ∨ pwmOnChan s (u8 d.bytes 17) = none)
include hc

/-- A compare whose channel is free is judged by the number of compares. -/
theorem bodyAxisCompare_free : bodyAxisCompare d o s =
    if 4 ≤ (axOf o).compares.length then fail d 0x0B09 s
    else defer d 0x0B02 (handleOf o) 0 [] 0 (updAx o.idx (fun r => { r with compares := r.compares ++ [compareOf d] }) s) := by
  rw [bodyAxisCompare_good hb, if_neg (by simp [he]), if_neg (by rcases hc with h | h <;> simp [h])]

theorem bodyAxisCompare_full (hn : 4 ≤ (axOf o).compares.length) : bodyAxisCompare d o s = fail d 0x0B09 s :=
  (bodyAxisCompare_free hb he hc).trans (if_pos hn)

theorem bodyAxisCompare_adds (hn : (axOf o).compares.length < 4) : bodyAxisCompare d o s
    = defer d 0x0B02 (handleOf o) 0 [] 0 (updAx o.idx (fun r => { r with compares := r.compares ++ [compareOf d] }) s) :=
  (bodyAxisCompare_free hb he hc).trans (if_neg (Nat.not_le.mpr hn))

end

/-! ## AXIS_HOME (R341) -/

theorem exec_axisHome_passes (hp : passes 0x0B03 d s = true) (ho : objOf s (dHandle d) = some o) :
    exec (.axisHome d) s = .next (bodyAxisHome d o s) := congrArg _ (runObj_passes _ hp ho)

theorem bodyAxisHome_state (h : tableOf s (u32 o.act 52) = none ∨ isEnabled o = false) : bodyAxisHome d o s = fail d 0x000E s := by
  cases ht : tableOf s (u32 o.act 52) with
  | none => simp only [bodyAxisHome, ht, stState]
  | some b =>
    have he : isEnabled o = false := by simpa [ht] using h
    simp only [bodyAxisHome, ht]
    exact if_pos (by simp [he])

/-- The axis at an index begins to home by the table with this image. -/
def homeStart (b : List Byte) (i : Nat) (s : State) : State :=
  updAx i (fun r => { r with homing := true, homeFail := 0, limits := 0 })
    (updObj i (fun o => { o with sms := [smRestart b (o.sms.find? fun m => m.off == 52)] }) s)

/-- An axis that begins to home has one state machine, that of its homing table in its initial state. -/
theorem objAt_homeStart {b : List Byte} {i : Nat} (ho : objAt s i = some o) : objAt (homeStart b i s) i
    = some { o with sms := [smRestart b (o.sms.find? fun m => m.off == 52)],
                    rt := .axis { axOf o with homing := true, homeFail := 0, limits := 0 } } :=
  objAt_updAx _ (objAt_updObj_same (f := fun o => { o with sms := [smRestart b (o.sms.find? fun m => m.off == 52)] }) (fun _ => rfl) ho)

theorem smRestart_vars {b : List Byte} {m : Option Sm} {n : Sm} (hm : m = some n) : (smRestart b m).vars = n.vars := by
  subst hm; rfl

section
variable {b : List Byte} (ht : tableOf s (u32 o.act 52) = some b) (he : isEnabled o = true)
include ht he

/-- An ENABLED axis with a homing table homes unless it is driven or homes already. -/
theorem bodyAxisHome_table : bodyAxisHome d o s =
    if (driverOf s (handleOf o)).isSome then fail d 0x0B08 s
    else if (axOf o).homing then fail d 0x0B06 s
    else defer d 0x0B03 (handleOf o) 0 [] 0 (homeStart b o.idx s) := by
  simp only [bodyAxisHome, ht, he]
  rfl

theorem bodyAxisHome_driven (hd : driverOf s (handleOf o) ≠ none) : bodyAxisHome d o s = fail d 0x0B08 s :=
  (bodyAxisHome_table ht he).trans (if_pos (Option.isSome_iff_ne_none.mpr hd))

variable (hd : driverOf s (handleOf o) = none)
include hd

theorem bodyAxisHome_homing (hh : (axOf o).homing = true) : bodyAxisHome d o s = fail d 0x0B06 s := by
  rw [bodyAxisHome_table ht he, if_neg (by simp [hd]), if_pos hh]

theorem bodyAxisHome_starts (hh : (axOf o).homing = false) :
    bodyAxisHome d o s = defer d 0x0B03 (handleOf o) 0 [] 0 (homeStart b o.idx s) := by
  rw [bodyAxisHome_table ht he, if_neg (by simp [hd]), if_neg (by simp [hh])]

end

/-! ## AXIS_SET_POS (R347, R348) -/

theorem exec_axisSetPos_passes (hp : passes 0x0B04 d s = true) (ho : objOf s (dHandle d) = some o) :
    exec (.axisSetPos d) s = .next (bodyAxisSetPos d o s) := congrArg _ (runObj_passes _ hp ho)

theorem bodyAxisSetPos_state (h : (axOf o).v ≠ 0 ∨ (axOf o).busy = true ∨ (axOf o).homing = true) :
    bodyAxisSetPos d o s = fail d 0x000E s := if_pos h

theorem bodyAxisSetPos_sets (hv : (axOf o).v = 0) (hb : (axOf o).busy = false) (hh : (axOf o).homing = false) :
    bodyAxisSetPos d o s = ok d (axCancel o.idx (updAx o.idx (fun r => { r with
      p := i64 d.bytes 24 * axCount, p0 := i64 d.bytes 24 * axCount, v0 := 0, tgtP := i64 d.bytes 24 * axCount }) s)) :=
  if_neg (by simp [hv, hb, hh])

end

/-! ## The statement -/

/-- Settles O45: each descriptor by the conditions under which it is refused and by what it does otherwise. -/
theorem axisCommands : Obligations.AxisCommands := by
  refine ⟨updAx_eq, fun s d o k bad hp ho hk hbad => ?_, fun s i o n ho => ⟨axDropPending_idle ho, fun x => axDropPending_ends ho⟩,
    fun s t i o x b tgt ho hx hb htgt => ?_, fun s d o u hp ho hu => ?_, fun s i o n ho => ⟨axHomeFail_idle ho, axHomeFail_homing ho⟩,
    fun s i c => axStop_eq i c s, fun r n => ⟨rfl, rfl, rfl, rfl, rfl, rfl⟩, fun s d o c bad hp ho hc hbad => ?_, fun s d o hp ho => ?_,
    fun s d o hp ho => ?_, fun s i o => axCancel_eq⟩
  · subst hk hbad
    rw [exec_axisTarget_passes hp ho]
    exact ⟨fun h => congrArg _ (bodyAxisTarget_param h), fun h hs => congrArg _ (bodyAxisTarget_state h hs),
      fun h he hf => ⟨fun hd => congrArg _ (bodyAxisTarget_driven h he hf hd), fun hd hh => congrArg _ (bodyAxisTarget_homing h he hf hd hh),
        fun hd hh => congrArg _ (bodyAxisTarget_pends h he hf hd hh)⟩⟩
  · subst hb htgt
    exact ⟨axHostTarget_early ho hx, axHostTarget_homing ho hx, axHostTarget_blocked ho hx,
      fun u hle hh => axHostTarget_takes ho hx hle hh⟩
  · rw [exec_axisStop_passes hp ho]
    exact ⟨fun h => congrArg _ (bodyAxisStop_param h), fun h hd => congrArg _ (bodyAxisStop_disabled h hd),
      fun hk hd => congrArg _ (bodyAxisStop_quick hu hd hk), fun hk hd => congrArg _ (bodyAxisStop_cut hu hd hk)⟩
  · subst hc hbad
    rw [exec_axisCompare_passes hp ho]
    exact ⟨fun h => congrArg _ (bodyAxisCompare_param h), fun h he => congrArg _ (bodyAxisCompare_state h he),
      fun h he hc hw => congrArg _ (bodyAxisCompare_inUse h he hc hw), fun h he hc =>
        ⟨fun hn => congrArg _ (bodyAxisCompare_full h he hc hn), fun hn => congrArg _ (bodyAxisCompare_adds h he hc hn)⟩⟩
  · rw [exec_axisHome_passes hp ho]
    refine ⟨fun h => congrArg _ (bodyAxisHome_state h), fun b ht he => ⟨fun hd => congrArg _ (bodyAxisHome_driven ht he hd),
      fun hd hh => congrArg _ (bodyAxisHome_homing ht he hd hh), fun hd hh => ?_⟩⟩
    exact ⟨homeStart b o.idx s, congrArg _ (bodyAxisHome_starts ht he hd hh), rfl, fun hat =>
      ⟨_, _, objAt_homeStart hat, rfl, rfl, rfl, rfl, rfl, fun n hn => smRestart_vars hn, rfl⟩⟩
  · rw [exec_axisSetPos_passes hp ho]
    exact ⟨fun hv hb hh => congrArg _ (bodyAxisSetPos_sets hv hb hh), fun h => congrArg _ (bodyAxisSetPos_state h)⟩

end Sys2Proof.Machine
end

section
/-! PROOFS. Motion axes (11): the generators, compares, step inputs, timers, chatter, limit and home inputs (R326, R329, R336 to R341,
R343). -/

namespace Sys2Proof.Machine

section
variable {s : State} {o : Obj} {h : Nat}

/-! ## The generators (R326, R329) -/

theorem execGeneratorUpdate_eq (s : State) : execGeneratorUpdate s = .next ((objsOf s tyAxis).foldl
    (fun u o => axUpdate ((s.gtc / 1200 + 1) * 1200) o.idx u) (toInstant ((s.gtc / 1200 + 1) * 1200) s)) := by
  rw [← objsOf_congr (toInstant_objs ((s.gtc / 1200 + 1) * 1200) s)]
  rfl

theorem execGeneratorUpdate_of_no_axes (hs : ∀ o ∈ s.objs, o.typ ≠ tyAxis) :
    execGeneratorUpdate s = .next (toInstant ((s.gtc / 1200 + 1) * 1200) s) := by
  rw [execGeneratorUpdate_eq, objsOf_eq_nil hs, List.foldl_nil]

theorem execGeneratorUpdate_of_one_axis (hs : objsOf s tyAxis = [o]) : execGeneratorUpdate s
    = .next (axUpdate ((s.gtc / 1200 + 1) * 1200) o.idx (toInstant ((s.gtc / 1200 + 1) * 1200) s)) := by
  rw [execGeneratorUpdate_eq, hs, List.foldl_cons, List.foldl_nil]

/-! ## Compares (R338) -/

/-- The first tick at which a condition holds lies in the present interval, and the condition holds at no earlier one. -/
theorem axFirstTick_spec {r : AxRt} {q : Int → Bool} {t : Nat} (ht : axFirstTick r q = some t) :
    r.t0 ≤ t ∧ t ≤ r.t0 + 1200 ∧ q (axPosAt r t) = true ∧ ∀ u, r.t0 ≤ u → u < t → q (axPosAt r u) = false := by
  obtain ⟨k, hk, rfl⟩ := Option.map_eq_some_iff.mp ht
  obtain ⟨hq, hmem, hbefore⟩ := List.find?_range_eq_some.mp hk
  have hle : k < 1200 + 1 := List.mem_range.mp hmem
  refine ⟨Nat.le_add_right .., by omega, hq, fun u hu hlt => ?_⟩
  obtain ⟨j, rfl⟩ := Nat.exists_eq_add_of_le hu
  simpa using hbefore j (by omega)

/-- The tick of the present interval at which the axis reaches an armed compare. -/
def compareTick (o : Obj) (c : ACmp) : Option Nat :=
  axFirstTick (axOf o) fun p => decide (0 ≤ (p - c.value * axCount) * c.dir)

theorem execAxisCompareFire_idle
    (hi : objOf s h = none ∨ ∃ o, objOf s h = some o ∧ ∀ c ∈ (axOf o).compares, c.armed = false) : execAxisCompareFire h s = .next s := by
  rcases hi with ho | ⟨o, ho, hc⟩
  · simp only [execAxisCompareFire, ho]
  · have hdue : ((axOf o).compares.filterMap fun c => if c.armed then (compareTick o c).map fun t => (t, c) else none) = [] :=
      List.filterMap_eq_nil_iff.mpr fun c hm => if_neg (by simp [hc c hm])
    unfold compareTick at hdue
    simp only [execAxisCompareFire, ho, hdue, List.foldl_nil]

section
variable {c : ACmp} (ho : objOf s h = some o) (hc : (axOf o).compares = [c]) (ha : c.armed = true)
include ho hc ha

/-- One armed compare fires where it is reached, and nothing happens where it is not. -/
theorem execAxisCompareFire_armed : execAxisCompareFire h s = .next ((compareTick o c).elim s
    fun t => axCompareEnd o c 0 t 0 (driveEch c.edge c.level (toInstant t s))) := by
  simp only [execAxisCompareFire, ho, hc, compareTick, List.filterMap_cons, List.filterMap_nil, ha, if_true]
  cases axFirstTick (axOf o) fun p => decide (0 ≤ (p - c.value * axCount) * c.dir) <;> rfl

theorem execAxisCompareFire_fires {t : Nat} (ht : compareTick o c = some t) :
    execAxisCompareFire h s = .next (axCompareEnd o c 0 t 0 (driveEch c.edge c.level (toInstant t s))) := by
  rw [execAxisCompareFire_armed ho hc ha, ht, Option.elim_some]

theorem execAxisCompareFire_ahead (ht : compareTick o c = none) : execAxisCompareFire h s = .next s := by
  rw [execAxisCompareFire_armed ho hc ha, ht, Option.elim_none]

end

section
variable {c : ACmp} {k t : Nat} {n : Int} {u : State} (hu : u = updAx o.idx (fun r => { r with compares := r.compares.erase c }) s)
include hu

theorem axCompareEnd_undescribed
    (hx : s.hif.deferred.find? (fun x => x.op == 0x0B02 && x.handle == handleOf o && decide (x.st.desc = c.desc)) = none) :
    axCompareEnd o c k t n s = u := by
  have hh : u.hif = s.hif := hu ▸ rfl
  rw [← hh] at hx
  simp only [axCompareEnd, ← hu, hx]

/-- The compare's descriptor completes with the tick and the distance. -/
theorem axCompareEnd_completes {x : Deferred}
    (hx : s.hif.deferred.find? (fun x => x.op == 0x0B02 && x.handle == handleOf o && decide (x.st.desc = c.desc)) = some x) :
    axCompareEnd o c k t n s = completeDeferred x { status := k, gtc := some t, result := fBytes (fxToF 66 (axFx n)) } u := by
  have hh : u.hif = s.hif := hu ▸ rfl
  rw [← hh] at hx
  simp only [axCompareEnd, ← hu, hx]

end

section
variable {c : Nat} {lv : Bool}

theorem driveEch_drives (he : s.isl.estopLatch = false) (hf : safeForced s = false) (hlo : 112 ≤ c) (hhi : c < 128) :
    driveEch c lv s = { s with pg := { s.pg with ech := s.pg.ech.set (c - 112) lv } } := if_neg (by simp [he, hf]; omega)

theorem driveEch_held (hi : s.isl.estopLatch = true ∨ safeForced s = true ∨ c < 112 ∨ 128 ≤ c) : driveEch c lv s = s :=
  if_pos (by tauto)

end

/-! ## Step inputs (R336) -/

/-- The counts of one step: backwards where the direction input is high. -/
def stepCounts (s : State) (o : Obj) : Int :=
  if u8 o.act 102 ≠ 255 ∧ s.pg.gpio.getD (u8 o.act 102) false = true then -(u8 o.act 103 : Int) else u8 o.act 103

/-- The velocity that a step of so many counts at an instant gives with the step before it. -/
def stepEstimate (o : Obj) (k : Int) (t : Nat) (r : AxRt) : Int :=
  match r.stepLast with
  | none => 0
  | some l => if t - l ≤ u16 o.act 110 * 480000 ∧ l < t then k * 2 ^ 96 * 480000000 / ((t - l : Nat) : Int) else 0

/-- An axis takes one step at an instant. -/
def axTakeStep (k : Int) (t : Nat) (o : Obj) (s : State) : State :=
  axWake o.idx (updAx o.idx (fun r => { r with tgtP := r.tgtP + k * axCount, vEst := stepEstimate o k t r, stepLast := some t }) s)

/-- Every axis that follows the input takes the step. -/
theorem stepinEdge_eq (n t : Nat) (s : State) : stepinEdge n t s
    = ((objsOf s tyAxis).filter fun o => isEnabled o && (axOf o).mode == 2 && u8 o.act 101 == n).foldl
      (fun u o => axTakeStep (stepCounts u o) t o u) (toInstant t s) := by
  rw [← objsOf_congr (toInstant_objs t s)]
  unfold stepinEdge
  extract_lets v
  congr 1
  funext u o
  have hback : (u8 o.act 102 != 0xFF && u.pg.gpio.getD (u8 o.act 102) false) = true
      ↔ u8 o.act 102 ≠ 255 ∧ u.pg.gpio.getD (u8 o.act 102) false = true := by simp
  simp only [axTakeStep, stepCounts, hback]
  rfl

theorem stepinEdge_of_no_followers {n t : Nat}
    (hs : ∀ o ∈ s.objs, o.typ ≠ tyAxis ∨ isEnabled o = false ∨ (axOf o).mode ≠ 2 ∨ u8 o.act 101 ≠ n) :
    stepinEdge n t s = toInstant t s := by
  have hnone : ((objsOf s tyAxis).filter fun o => isEnabled o && (axOf o).mode == 2 && u8 o.act 101 == n) = [] := by
    refine List.filter_eq_nil_iff.mpr fun o hm hf => ?_
    obtain ⟨hmem, ht⟩ := List.mem_filter.mp hm
    simp only [Bool.and_eq_true, beq_iff_eq] at hf ht
    obtain ⟨⟨he, hmode⟩, hn⟩ := hf
    rcases hs o hmem with hx | hx | hx | hx
    · exact hx ht
    · exact Bool.false_ne_true (hx.symm.trans he)
    · exact hx hmode
    · exact hx hn
  rw [stepinEdge_eq, hnone, List.foldl_nil]

theorem stepinEdge_of_one_follower {n t : Nat} (hs : objsOf s tyAxis = [o]) (he : isEnabled o = true) (hm : (axOf o).mode = 2)
    (hn : u8 o.act 101 = n) : stepinEdge n t s = axTakeStep (stepCounts s o) t o (toInstant t s) := by
  have hk : stepCounts (toInstant t s) o = stepCounts s o := by simp only [stepCounts, toInstant_pg]
  rw [stepinEdge_eq, hs, List.filter_cons_of_pos (by simp [he, hm, hn]), List.filter_nil, List.foldl_cons, List.foldl_nil, hk]

theorem execStepinTimeout_unnamed (ho : objOf s h = none) : execStepinTimeout h s = .next s := by
  simp only [execStepinTimeout, ho]

section
variable (ho : objOf s h = some o)
include ho

theorem execStepinTimeout_ends {l : Nat} (hl : (axOf o).stepLast = some l) : execStepinTimeout h s
    = .next (updAx o.idx (fun r => { r with vEst := 0, stepLast := none }) (toInstant (l + u16 o.act 110 * 480000) s)) := by
  simp only [execStepinTimeout, ho, hl, msTicks]

theorem execStepinTimeout_idle (hl : (axOf o).stepLast = none) : execStepinTimeout h s = .next s := by
  simp only [execStepinTimeout, ho, hl]

end

/-! ## Standstill and the enable output (R337) -/

theorem axWake_awake {i : Nat} (ho : objAt s i = some o) (hi : (axOf o).optIn = false) : axWake i s = s := by
  simp only [axWake, ho]
  exact if_pos (by simp [hi])

section
variable {i n : Nat} {u : State} (ho : objAt s i = some o)
  (hu : u = updAx i (fun r => { r with optIn := true, opt := n, en := if n = 2 ∧ axKind o.act = 0 then false else r.en }) s)
include ho hu

theorem axOption_plain (hn : n ≠ 2 ∨ axKind o.act ≠ 1) : axOption i n s = u := by
  subst hu
  simp only [axOption, ho]
  exact if_neg (by tauto)

/-- The off option of local microstepping closes the gates of the pairs. -/
theorem axOption_pairsOff (hn : n = 2) (hk : axKind o.act = 1) : axOption i n s = (axPairs o.act).foldl (fun s h => gateClose h s) u := by
  subst hu
  simp only [axOption, ho]
  exact if_pos ⟨hn, hk⟩

end

theorem execAxisIdleTimeout_unnamed (ho : objOf s h = none) : execAxisIdleTimeout h s = .next s := by
  simp only [execAxisIdleTimeout, ho]

theorem execAxisEnableSetupEnd_unnamed (ho : objOf s h = none) : execAxisEnableSetupEnd h s = .next s := by
  simp only [execAxisEnableSetupEnd, ho]

section
variable (ho : objOf s h = some o)
include ho

theorem execAxisIdleTimeout_option {t : Nat} (ht : (axOf o).stillAt = some t) (he : isEnabled o = true) (hi : (axOf o).optIn = false) :
    execAxisIdleTimeout h s = .next (axOption o.idx (u8 o.act 23) (toInstant (t + u16 o.act 28 * 480000) s)) := by
  simp only [execAxisIdleTimeout, ho, ht]
  exact congrArg _ (if_neg (by simp [he, hi]))

theorem execAxisIdleTimeout_idle (hi : (axOf o).stillAt = none ∨ isEnabled o = false ∨ (axOf o).optIn = true) :
    execAxisIdleTimeout h s = .next s := by
  cases ht : (axOf o).stillAt with
  | none => simp only [execAxisIdleTimeout, ho, ht]
  | some t =>
    have hx : isEnabled o = false ∨ (axOf o).optIn = true := by simpa [ht] using hi
    simp only [execAxisIdleTimeout, ho, ht]
    exact congrArg _ (if_pos (by simpa using hx))

theorem execAxisEnableSetupEnd_starts (hw : (axOf o).wait = 1) : execAxisEnableSetupEnd h s
    = .next (updAx o.idx (fun r => { r with wait := 0 }) (toInstant ((axOf o).enAt + u16 o.act 30 * 480) s)) := by
  simp only [execAxisEnableSetupEnd, ho]
  exact congrArg _ (if_pos hw)

theorem execAxisEnableSetupEnd_idle (hw : (axOf o).wait ≠ 1) : execAxisEnableSetupEnd h s = .next s := by
  simp only [execAxisEnableSetupEnd, ho]
  exact congrArg _ (if_neg hw)

end

/-! ## The following error (R343) -/

theorem execAxisFeTimeout_unnamed (ho : objOf s h = none) : execAxisFeTimeout h s = .next s := by
  simp only [execAxisFeTimeout, ho]

section
variable (ho : objOf s h = some o)
include ho

theorem execAxisFeTimeout_faults {t : Nat} (ht : (axOf o).feSince = some t) : execAxisFeTimeout h s
    = .next (class1 h 0x0B44 (fBytes (axOf o).feDiff)
      (updAx o.idx (fun r => { r with feSince := none }) (toInstant (t + u32 o.act 68 * 480) s))) := by
  simp only [execAxisFeTimeout, ho, ht, usTicks]

theorem execAxisFeTimeout_idle (ht : (axOf o).feSince = none) : execAxisFeTimeout h s = .next s := by
  simp only [execAxisFeTimeout, ho, ht]

end

/-! ## Chatter, limit and home inputs (R339, R340, R341) -/

theorem execLimitChatter_unnamed {g : Nat} (ho : objOf s h = none) : execLimitChatter h g s = .next s := by
  simp only [execLimitChatter, ho]

section
variable {g n : Nat} (ho : objOf s h = some o) (hn : n = axTransitions o.act (axOf o) g s.gtc)
include ho hn

theorem execLimitChatter_faults (ht : o.typ = tyAxis) (he : isEnabled o = true) (hk : u8 o.act 49 < n) : execLimitChatter h g s
    = .next (class1 h 0x0B41 (leBytes 1 g ++ [0, 0, 0] ++ leBytes 4 n) (updAx o.idx (fun r => { r with chatter := true, trans := [] }) s)) := by
  simp only [execLimitChatter, ho, ← hn]
  exact congrArg _ (if_neg (by simp [ht, he, hk]))

theorem execLimitChatter_idle (hi : o.typ ≠ tyAxis ∨ isEnabled o = false ∨ n ≤ u8 o.act 49) : execLimitChatter h g s = .next s := by
  simp only [execLimitChatter, ho, ← hn]
  exact congrArg _ (if_pos (by simpa using hi))

end

/-- Without objects and commutating groups an edge changes its level alone. -/
theorem gpioEdge_alone {g t : Nat} {lv : Bool} (hs : s.objs = []) (hcomm : ∀ x ∈ s.pg.groups, x.comm = none) (hl : gpioLevel s g ≠ lv) :
    gpioEdge g lv t s = setGpio g lv s :=
  gpioEdge_of_no_objs hs hl (commInputs_of_no_tables (u := setGpio g lv s) hcomm g).symm hs

/-- The direction in which an axis moves, or is about to. -/
def axHeading (o : Obj) : Int :=
  if (axOf o).v ≠ 0 then sgn (axOf o).v
  else if (axOf o).busy then sgn (axCommand o.act (axOf o) (axFx ((axOf o).tgtP - (axOf o).p))) else 0

section
variable {pos : Bool} {side : Byte}

theorem leBytes_side (hside : side = if pos then 0 else 1) : leBytes 1 (if pos then 0 else 1) = [side] := by
  subst hside
  cases pos <;> rfl

section
variable (hside : side = if pos then 0 else 1) (hh : (axOf o).homing = false)
include hside hh

/-- Motion towards the limit is stopped. -/
theorem axLimitOn_towards (hd : axHeading o = if pos then 1 else -1) : axLimitOn pos o s
    = raiseE 0x0B40 0 (handleOf o) o.epoch [side, 1] (axStop o.idx false
      (updAx o.idx (fun r => { r with limStop := true, limitStops := satInc 32 r.limitStops }) s)) := by
  unfold axHeading at hd
  simp only [axLimitOn, hh, hd, leBytes_side hside, if_true, Bool.false_eq_true, if_false]
  rfl

theorem axLimitOn_away (hd : axHeading o ≠ if pos then 1 else -1) : axLimitOn pos o s
    = raiseE 0x0B40 0 (handleOf o) o.epoch [side, 0] s := by
  unfold axHeading at hd
  simp only [axLimitOn, hh, if_neg hd, leBytes_side hside, Bool.false_eq_true, if_false]
  rfl

end

/-- While homing the limit is an event of the homing table; the second limit ends the homing. -/
theorem axLimitOn_homing {u : State} (hh : (axOf o).homing = true)
    (hu : u = axEvent o (if pos then 0x0B60 else 0x0B61) (updAx o.idx (fun r => { r with limits := r.limits + 1 }) s)) :
    axLimitOn pos o s = if 1 ≤ (axOf o).limits then axStop o.idx false (axHomeFail o.idx 1 u) else u := by
  subst hu
  exact if_pos hh

end

end

/-! ## The statement -/

/-- Settles O46: each happening by the condition under which it does nothing and by what it does otherwise. -/
theorem axisHappenings : Obligations.AxisHappenings := by
  refine ⟨fun s t ht => ?_, fun s => execGeneratorUpdate_of_no_axes, fun s o => execGeneratorUpdate_of_one_axis,
    fun s h => execAxisCompareFire_idle,
    fun s h o c ho hc ha => ⟨fun t => execAxisCompareFire_fires ho hc ha, execAxisCompareFire_ahead ho hc ha⟩,
    fun r q t => axFirstTick_spec, fun s o c k t n u hu => ⟨axCompareEnd_undescribed hu, fun x => axCompareEnd_completes hu⟩,
    fun s c lv => ⟨driveEch_drives, driveEch_held⟩, fun s n t hs => congrArg _ (stepinEdge_of_no_followers hs),
    fun s n t o k e hs he hm hn hk hest => ?_, fun s i o => axWake_awake,
    fun s h ho => ⟨execStepinTimeout_unnamed ho, execAxisIdleTimeout_unnamed ho, execAxisEnableSetupEnd_unnamed ho,
      execAxisFeTimeout_unnamed ho, fun g => execLimitChatter_unnamed ho⟩,
    fun s h o ho => ⟨fun l => execStepinTimeout_ends ho, execStepinTimeout_idle ho, fun t => execAxisIdleTimeout_option ho,
      execAxisIdleTimeout_idle ho, execAxisEnableSetupEnd_starts ho, execAxisEnableSetupEnd_idle ho,
      fun t => execAxisFeTimeout_faults ho, execAxisFeTimeout_idle ho⟩,
    fun s i o n u ho hu => ⟨axOption_plain ho hu, axOption_pairsOff ho hu⟩,
    fun s h o g n ho hn => ⟨execLimitChatter_faults ho hn, execLimitChatter_idle ho hn⟩, fun s g lv => ⟨rfl, rfl⟩,
    fun s g lv t => gpioEdge_same, fun s g lv hg hlen hl hs hcomm => ?_, fun s o pos side dir hside hdir => ?_⟩
  · subst ht
    exact execGeneratorUpdate_eq s
  · obtain rfl : e = stepEstimate o k t := hest
    subst hk
    exact congrArg _ (stepinEdge_of_one_follower hs he hm hn)
  · have hedge := gpioEdge_alone (t := s.gtc) hs hcomm hl
    have hset := gpioLevel_setGpio_same lv (hlen.symm ▸ hg)
    exact ⟨setGpio g lv s, setGpio g lv s, congrArg _ hedge, congrArg _ hedge, hset, hset, fun k hk => gpioLevel_setGpio_other lv hk⟩
  · subst hdir
    exact ⟨axLimitOn_towards hside, axLimitOn_away hside, fun hh u => axLimitOn_homing hh⟩

end Sys2Proof.Machine
end

section
/-! PROOFS. Safety island (16): a device fault leaves no object of a driving type ENABLED (R466, R467). -/

namespace Sys2Proof.Machine

/-! ## What the forcing of the outputs off can do to the objects and to the island -/

/-- What an object is: its index, type, generation and written block. -/
def blockKey (o : Obj) : Nat × Nat × Nat × List Byte := (o.idx, o.typ, o.gen, o.params)

/-- From `s` to `t` no object comes or goes, each stays what it is, none becomes ENABLED, and of the island only the log changes. -/
structure Quiets (s t : State) : Prop where
  block : t.objs.map blockKey = s.objs.map blockKey
  wakes : ∀ o ∈ t.objs, o.ost = .enabled → ∃ p ∈ s.objs, p.idx = o.idx ∧ p.typ = o.typ ∧ p.ost = .enabled
  isl : t.isl = { s.isl with log := t.isl.log, logIndex := t.isl.logIndex, logWrapped := t.isl.logWrapped }

theorem Quiets.refl (s : State) : Quiets s s := ⟨rfl, fun o ho he => ⟨o, ho, rfl, rfl, he⟩, rfl⟩

theorem Quiets.trans {s t u : State} (h : Quiets s t) (k : Quiets t u) : Quiets s u where
  block := k.block.trans h.block
  wakes o ho he := by
    obtain ⟨p, hp, hi, ht, hpe⟩ := k.wakes o ho he
    obtain ⟨q, hq, hi', ht', hqe⟩ := h.wakes p hp hpe
    exact ⟨q, hq, hi'.trans hi, ht'.trans ht, hqe⟩
  isl := by rw [k.isl, h.isl]

theorem Quiets.after {s t u : State} (k : Quiets t u) (h : Quiets s t) : Quiets s u := h.trans k

theorem Touches.quiets {s t : State} (h : Touches s t) : Quiets s t where
  block := by rw [h.objs]
  wakes o ho he := ⟨o, h.objs ▸ ho, rfl, rfl, he⟩
  isl := congrArg State.isl h.frame

/-- A change that leaves the objects and the island. -/
theorem quiets_of_eq {s t : State} (ho : t.objs = s.objs) (hi : t.isl = s.isl) : Quiets s t where
  block := by rw [ho]
  wakes o h he := ⟨o, ho ▸ h, rfl, rfl, he⟩
  isl := by rw [hi]

theorem quiets_foldl {α : Type} {f : State → α → State} (h : ∀ s x, Quiets s (f s x)) : ∀ (l : List α) (s : State), Quiets s (l.foldl f s)
  | [], s => .refl s
  | x :: l, s => (h s x).trans (quiets_foldl h l (f s x))

theorem quiets_ite {c : Prop} {_ : Decidable c} {s a b : State} (h : Quiets s a) (k : Quiets s b) :
    Quiets s (if c then a else b) := by split <;> assumption

/-- A change of the object at an index that leaves what it is and makes it not ENABLED. -/
theorem quiets_updObj {i : Nat} {f : Obj → Obj} (hk : ∀ o, blockKey (f o) = blockKey o)
    (he : ∀ o, (f o).ost = .enabled → o.ost = .enabled) (s : State) : Quiets s (updObj i f s) where
  block := by
    simp only [updObj, List.map_map]
    exact List.map_congr_left fun o _ => by simp only [Function.comp_apply, apply_ite blockKey, hk, ite_self]
  wakes o ho hen := by
    obtain ⟨p, hp, rfl⟩ := List.mem_map.mp ho
    have hkey : blockKey (if p.idx = i then f p else p) = blockKey p := by rw [apply_ite blockKey, hk, ite_self]
    refine ⟨p, hp, (congrArg (·.1) hkey).symm, (congrArg (·.2.1) hkey).symm, ?_⟩
    split at hen
    · exact he p hen
    · exact hen
  isl := rfl

theorem quiets_updPwm (i : Nat) (f : PwmRt → PwmRt) (s : State) : Quiets s (updPwm i f s) := by
  unfold updPwm; exact quiets_updObj (by intro _; rfl) (by intro _ h; exact h) s
theorem quiets_updSw (i : Nat) (f : SwRt → SwRt) (s : State) : Quiets s (updSw i f s) := by
  unfold updSw; exact quiets_updObj (by intro _; rfl) (by intro _ h; exact h) s
theorem quiets_updSol (i : Nat) (f : SolRt → SolRt) (s : State) : Quiets s (updSol i f s) := by
  unfold updSol; exact quiets_updObj (by intro _; rfl) (by intro _ h; exact h) s
theorem quiets_updChan (i : Nat) (f : ChRt → ChRt) (s : State) : Quiets s (updChan i f s) := by
  unfold updChan; exact quiets_updObj (by intro _; rfl) (by intro _ h; exact h) s
theorem quiets_updAx (i : Nat) (f : AxRt → AxRt) (s : State) : Quiets s (updAx i f s) := by
  unfold updAx; exact quiets_updObj (by intro _; rfl) (by intro _ h; exact h) s
theorem quiets_setFaulted (i : Nat) (s : State) : Quiets s (setOst i .faulted s) := by
  unfold setOst; exact quiets_updObj (by intro _; rfl) (by intro _ h; cases h) s

theorem quiets_takeFree (s : State) : Quiets s (takeFree s).2 := quiets_of_eq rfl rfl

/-! ### Lines (08, 09) -/

theorem quiets_flowEnd (o : Obj) (s : State) : Quiets s (flowEnd o s) := by
  unfold flowEnd flowMark
  exact quiets_ite (quiets_updChan ..) (.refl s)

theorem quiets_forcedOff (h : Nat) (s : State) : Quiets s (forcedOff h s) := quiets_foldl (fun s o => quiets_flowEnd o s) _ s

theorem quiets_swRefresh (i : Nat) (s : State) : Quiets s (swRefresh i s) := by
  unfold swRefresh
  split
  · exact .refl s
  · exact .after (quiets_ite (quiets_forcedOff ..) (.refl _)) (quiets_ite (.refl s) (quiets_updSw ..))

theorem quiets_swOnCmd (i : Nat) (s : State) : Quiets s (swOnCmd i s) := by
  unfold swOnCmd
  split
  · exact .refl s
  · exact quiets_ite (.refl s) (.after (quiets_swRefresh ..) (quiets_updSw ..))

theorem quiets_swOffCmd (i : Nat) (s : State) : Quiets s (swOffCmd i s) := .after (quiets_swRefresh ..) (quiets_updSw ..)

theorem quiets_pwmRefresh (i : Nat) (s : State) : Quiets s (pwmRefresh i s) := by
  unfold pwmRefresh
  split
  · exact .refl s
  · extract_lets s₁ s₂
    have h : Quiets s s₂ := .after (quiets_ite (quiets_forcedOff ..) (.refl _)) (quiets_updPwm ..)
    split
    · split
      · exact .after (quiets_swRefresh ..) h
      · exact h
    · exact h

theorem quiets_pwmGateClose (i : Nat) (s : State) : Quiets s (pwmGateClose i s) := by
  unfold pwmGateClose
  extract_lets tgt blank s₁
  have h : Quiets s s₁ := .after (quiets_pwmRefresh ..) (quiets_updPwm ..)
  split
  · exact .after (quiets_swOffCmd ..) h
  · exact h

theorem quiets_pwmGateOpen (i : Nat) (force : Option Nat) (s : State) : Quiets s (pwmGateOpen i force s) := by
  unfold pwmGateOpen
  split
  · exact .refl s
  · refine quiets_ite (.refl s) (.after (quiets_pwmRefresh ..) ?_)
    split
    · exact .after (quiets_swOnCmd ..) (quiets_updPwm ..)
    · exact quiets_updPwm ..

/-! ### Solenoids and the boost converter (10) -/

theorem quiets_boost (s : State) (b : Boost) : Quiets s { s with boost := b } := quiets_of_eq rfl rfl

theorem quiets_setHs (b : Nat) (on : Bool) (s : State) : Quiets s (setHs b on s) := by
  unfold setHs
  exact quiets_ite (.refl s) (quiets_boost s _)

theorem quiets_setLs (i : Nat) (on : Bool) (s : State) : Quiets s (setLs i on s) := quiets_updSol ..

theorem quiets_windowReason (i reason : Nat) (s : State) : Quiets s (windowReason i reason s) := by
  unfold windowReason
  refine .after (quiets_updSol ..) ?_
  split
  · exact quiets_foldl (fun _ _ => quiets_updChan ..) _ s
  · exact .refl s

theorem quiets_windowCut (i : Nat) (s : State) : Quiets s (windowCut i s) := by
  unfold windowCut
  refine .after (quiets_updSol ..) ?_
  split
  · exact quiets_foldl (fun _ _ => quiets_updChan ..) _ s
  · exact .refl s

theorem quiets_bankSettle (b was : Nat) (s : State) : Quiets s (bankSettle b was s) := by
  unfold bankSettle
  exact .after (quiets_ite (quiets_setHs ..) (quiets_ite (quiets_setHs ..) (.refl _)))
    (.after (quiets_ite (quiets_foldl (fun _ _ => quiets_updSol ..) ..) (.refl _)) (quiets_foldl (fun _ _ => quiets_windowReason ..) ..))

theorem quiets_boostSettle (s : State) : Quiets s (boostSettle s) := quiets_of_eq rfl rfl
theorem quiets_dequeue (h : Nat) (s : State) : Quiets s (dequeue h s) := quiets_of_eq rfl rfl

theorem quiets_solPeak (i : Nat) (s : State) : Quiets s (solPeak i s) := by
  unfold solPeak
  split
  · exact .refl s
  · exact .after (quiets_bankSettle ..) (.after (quiets_setLs ..) (.after (quiets_setHs ..) (quiets_updSol ..)))

theorem quiets_boostSkip (o : Obj) (s : State) : Quiets s (boostSkip o s) := by
  unfold boostSkip
  exact .after (quiets_solPeak ..) (.after (quiets_windowReason ..) (.after (quiets_dequeue ..) (.after (touches_raise0 ..).quiets
    (.after (quiets_boost ..) (quiets_updSol ..)))))

theorem quiets_boostStart (o : Obj) (s : State) : Quiets s (boostStart o s) := by
  unfold boostStart
  exact .after (quiets_boostSettle ..) (.after (quiets_bankSettle ..) (.after (quiets_setLs ..) (.after (quiets_setHs ..)
    (.after (quiets_boost ..) (quiets_updSol ..)))))

theorem quiets_boostBegin (s : State) : Quiets s (boostBegin s) := by
  unfold boostBegin
  split
  · exact .refl s
  · exact quiets_ite (quiets_boostStart ..) (.refl s)

theorem quiets_solMissed (o : Obj) (s : State) : Quiets s (solMissed o s) :=
  quiets_ite (.refl s) (.after (quiets_ite (touches_raiseLimited ..).quiets (.refl _)) (quiets_updSol ..))

theorem quiets_solStart (i : Nat) (s : State) : Quiets s (solStart i s) := by
  unfold solStart
  split
  · exact .refl s
  · exact .after (quiets_ite (quiets_solPeak ..) (quiets_ite (quiets_boostSkip ..) (.after (quiets_boostSettle ..)
        (.after (quiets_boost ..) (.after (quiets_setLs ..) (quiets_updSol ..))))))
      (.after (quiets_updSol ..) (quiets_foldl (fun _ _ => .after (quiets_setLs ..) (quiets_windowCut ..)) ..))

theorem quiets_solWindowEnd (i : Nat) (sig : Option Nat) (reason : Nat) (s : State) : Quiets s (solWindowEnd i sig reason s) := by
  unfold solWindowEnd
  split
  · exact .refl s
  · refine quiets_ite (.refl s) ?_
    extract_lets s₁
    have h : Quiets s s₁ := quiets_updSol ..
    split
    · exact h
    · exact .after (touches_completeDeferred ..).quiets h

theorem quiets_windowOpen (i : Nat) (on : Bool) (s : State) : Quiets s (windowOpen i on s) := by
  unfold windowOpen
  split
  · exact .refl s
  · exact quiets_updSol ..

theorem quiets_solOn (i : Nat) (s : State) : Quiets s (solOn i s) := by
  unfold solOn
  split
  · exact .refl s
  · exact quiets_ite (.refl s) (quiets_ite (quiets_updSol ..) (.after (quiets_ite (.refl _) (quiets_solStart ..))
      (.after (quiets_windowOpen ..) (.after (quiets_updSol ..) (.after (quiets_updObj (by intro _; rfl) (by intro _ h; exact h) _) (quiets_solWindowEnd ..))))))

theorem quiets_solRelease (i : Nat) (s : State) : Quiets s (solRelease i s) := by
  unfold solRelease
  split
  · exact .refl s
  · exact .after (quiets_boostBegin ..) (.after (quiets_boostSettle ..) (.after
      (quiets_ite (.after (quiets_bankSettle ..) (.after (quiets_setLs ..) (quiets_updSol ..))) (quiets_updSol ..)) (quiets_dequeue ..)))

theorem quiets_solOff (i : Nat) (s : State) : Quiets s (solOff i s) := by
  unfold solOff
  split
  · exact .refl s
  · exact quiets_ite (.refl s) (.after (quiets_solRelease ..) (.after (quiets_windowOpen ..) (.after (quiets_updSol ..)
      (.after (quiets_solWindowEnd ..) (quiets_ite (quiets_solMissed ..) (.refl s))))))

theorem quiets_solCut (i : Nat) (s : State) : Quiets s (solCut i s) := by
  unfold solCut
  split
  · exact .refl s
  · exact .after (quiets_boostBegin ..) (.after (quiets_boostSettle ..) (.after (quiets_bankSettle ..) (.after (quiets_setLs ..)
      (.after (quiets_updSol ..) (.after (quiets_forcedOff ..) (.after (quiets_windowCut ..) (quiets_dequeue ..)))))))

theorem quiets_gateOpen (h : Nat) (force : Option Nat) (s : State) : Quiets s (gateOpen h force s) := by
  unfold gateOpen
  split
  · exact .refl s
  · exact quiets_ite (quiets_pwmGateOpen ..) (quiets_ite (.after (quiets_swOnCmd ..) (quiets_updSw ..)) (quiets_ite (quiets_solOn ..) (.refl s)))

theorem quiets_gateClose (h : Nat) (s : State) : Quiets s (gateClose h s) := by
  unfold gateClose
  split
  · exact .refl s
  · exact quiets_ite (quiets_pwmGateClose ..) (quiets_ite (.after (quiets_swOffCmd ..) (quiets_updSw ..)) (quiets_ite (quiets_solOff ..) (.refl s)))

/-! ### Axes (11) -/

theorem quiets_axOption (i opt : Nat) (s : State) : Quiets s (axOption i opt s) := by
  unfold axOption
  split
  · exact .refl s
  · exact .after (quiets_ite (quiets_foldl (fun _ _ => quiets_gateClose ..) ..) (.refl _)) (quiets_updAx ..)

theorem quiets_axWake (i : Nat) (s : State) : Quiets s (axWake i s) := by
  unfold axWake
  split
  · exact .refl s
  · exact quiets_ite (.refl s) (.after (quiets_ite (quiets_foldl (fun _ _ => quiets_gateOpen ..) ..) (.refl _)) (quiets_updAx ..))

theorem quiets_axEnd (i status : Nat) (s : State) : Quiets s (axEnd i status s) := by
  unfold axEnd
  split
  · exact .refl s
  · refine quiets_ite (.refl s) (quiets_ite (quiets_updAx ..) ?_)
    split
    · exact quiets_updAx ..
    · exact .after (touches_completeDeferred ..).quiets (quiets_updAx ..)

theorem quiets_axDropPending (i status : Nat) (s : State) : Quiets s (axDropPending i status s) := by
  unfold axDropPending
  split
  · exact .refl s
  · split
    · exact .refl s
    · exact (touches_completeDeferred ..).quiets

theorem quiets_axCancel (i : Nat) (s : State) : Quiets s (axCancel i s) := by
  unfold axCancel
  split
  · exact .refl s
  · exact .after (quiets_foldl (fun _ _ => (touches_completeDeferred ..).quiets) ..) (quiets_updAx ..)

theorem quiets_axHomeFail (i reason : Nat) (s : State) : Quiets s (axHomeFail i reason s) := by
  unfold axHomeFail
  split
  · exact .refl s
  · exact quiets_ite (.refl s) (.after (touches_raiseE ..).quiets (quiets_updAx ..))

theorem quiets_abandonMove (h status : Nat) (s : State) : Quiets s (abandonMove h status s) := by
  unfold abandonMove
  split
  · exact .refl s
  · exact .after (touches_finishDeferred ..).quiets (quiets_of_eq rfl rfl)

theorem quiets_becomeFaulted (o : Obj) (s : State) : Quiets s (becomeFaulted o s) :=
  .after (quiets_forcedOff ..) (.after (quiets_abandonMove ..) (quiets_setFaulted ..))

theorem quiets_axSettle (i : Nat) (s : State) : Quiets s (axSettle i s) := by
  unfold axSettle
  split
  · exact .refl s
  · exact quiets_ite (.refl s) (.after (quiets_ite (quiets_becomeFaulted ..) (.refl _))
      (.after (quiets_ite (quiets_axOption ..) (quiets_ite (quiets_ite (quiets_axOption ..) (quiets_axOption ..)) (.refl _)))
        (.after (quiets_ite (.refl _) (touches_finishDeferred ..).quiets)
          (.after (quiets_foldl (fun _ _ => (touches_ok ..).quiets) ..) (quiets_updAx ..)))))

theorem quiets_axStop (i : Nat) (cut : Bool) (s : State) : Quiets s (axStop i cut s) :=
  .after (quiets_axSettle ..) (.after (quiets_updAx ..) (quiets_axEnd ..))

theorem quiets_axDeviceFault (o : Obj) (s : State) : Quiets s (axDeviceFault o s) :=
  .after (quiets_axStop ..) (.after (quiets_updAx ..) (.after (quiets_axCancel ..) (.after (quiets_axDropPending ..) (quiets_axHomeFail ..))))

theorem quiets_axSafe (i : Nat) (s : State) : Quiets s (axSafe i s) := quiets_updAx ..

theorem quiets_axTakeTarget (i : Nat) (t : ATgt) (host : Bool) (s : State) : Quiets s (axTakeTarget i t host s) := by
  unfold axTakeTarget
  split
  · exact .refl s
  · exact .after (quiets_ite (quiets_axWake ..) (.refl _)) (.after (quiets_updAx ..)
      (.after (quiets_ite (quiets_takeFree _) (.refl _)) (quiets_axEnd ..)))

/-! ### Channels (06) -/

theorem quiets_secReport (n : Nat) (m : Nat × Nat) (k : EdgeEnd) (s : State) : Quiets s (secReport n m k s) := by
  unfold secReport
  split
  · exact .refl s
  · refine quiets_ite ?_ (quiets_of_eq rfl rfl)
    split
    · exact .after (touches_completeDeferred ..).quiets (quiets_of_eq rfl rfl)
    · exact quiets_of_eq rfl rfl

theorem quiets_edgeReport (o : Obj) (cmd : Option Nat) (on : Bool) (k : EdgeEnd) (dist reason t : Nat) (s : State) :
    Quiets s (edgeReport o cmd on k dist reason t s) := by
  unfold edgeReport
  split
  · exact .refl s
  · split
    · exact (touches_completeDeferred ..).quiets
    · exact quiets_ite (quiets_of_eq rfl rfl) (quiets_secReport ..)

theorem quiets_chOff (o : Obj) (s : State) : Quiets s (chOff o s) := by
  unfold chOff
  extract_lets was s₁ s₂
  have h₁ : Quiets s s₁ := quiets_updChan ..
  refine .after (quiets_ite (quiets_flowEnd ..) (.refl _)) (quiets_ite ?_ (.after (quiets_gateClose ..) h₁))
  split
  · exact quiets_ite (.after (quiets_axTakeTarget ..) h₁) h₁
  · exact h₁

theorem quiets_chClear (o : Obj) (status : Nat) (s : State) : Quiets s (chClear o status s) := by
  unfold chClear
  split
  · exact .refl s
  · extract_lets r run s₁ s₂
    have h₁ : Quiets s s₁ := quiets_updChan ..
    refine .after (quiets_foldl (fun _ _ => quiets_edgeReport ..) ..) (quiets_ite ?_ h₁)
    split
    · exact .after (quiets_axTakeTarget ..) h₁
    · exact h₁

/-! ### The device (16) -/

theorem quiets_refreshAll (s : State) : Quiets s (refreshAll s) := by
  unfold refreshAll
  exact .after (quiets_ite (.after (quiets_boost ..) (quiets_foldl (fun _ _ => quiets_solCut ..) ..)) (.refl _))
    (.after (quiets_ite (quiets_foldl (fun _ _ => .after (quiets_forcedOff ..) (quiets_axSafe ..)) ..) (.refl _))
      (.after (quiets_foldl (fun _ _ => quiets_swRefresh ..) ..) (quiets_foldl (fun _ _ => quiets_pwmRefresh ..) ..)))

theorem quiets_holdDisposition (o : Obj) (s : State) : Quiets s (holdDisposition o s) :=
  quiets_ite (quiets_updPwm ..) (quiets_ite (quiets_axDeviceFault ..) (quiets_ite (quiets_gateClose ..)
    (quiets_ite (.after (quiets_chClear ..) (quiets_chOff ..)) (.refl s))))

/-! ## The objects after a device fault -/

/-- What step 4 of R466 does to one object. -/
def deviceFaulted (s : State) (o : Obj) : State := holdDisposition o (becomeFaulted o s)

theorem quiets_deviceFaulted (s : State) (o : Obj) : Quiets s (deviceFaulted s o) := .after (quiets_holdDisposition ..) (quiets_becomeFaulted ..)

/-- No object at its index is ENABLED after that. -/
theorem deviceFaulted_notEnabled (s : State) (o : Obj) : ∀ p ∈ (deviceFaulted s o).objs, p.idx = o.idx → p.ost ≠ .enabled := by
  intro p hp hi he
  have hq : Quiets (setOst o.idx .faulted s) (deviceFaulted s o) :=
    .after (quiets_holdDisposition ..) (.after (quiets_forcedOff ..) (quiets_abandonMove ..))
  obtain ⟨q, hmem, hidx, -, hen⟩ := hq.wakes p hp he
  obtain ⟨x, -, rfl⟩ := List.mem_map.mp hmem
  by_cases hx : x.idx = o.idx
  · rw [if_pos hx] at hen; cases hen
  · rw [if_neg hx] at hidx; exact hx (hidx.trans hi)

/-- After step 4 of R466 has been taken on each of a list, no object at the index of one of them is ENABLED. -/
theorem deviceFaulted_fold_notEnabled : ∀ (l : List Obj) (s : State), ∀ p ∈ (l.foldl deviceFaulted s).objs,
    (∃ o ∈ l, o.idx = p.idx) → p.ost ≠ .enabled
  | [], _, _, _, ⟨_, ho, _⟩ => nomatch ho
  | x :: l, s, p, hp, ⟨o, ho, hi⟩ => by
    intro he
    obtain ⟨q, hq, hqi, -, hqe⟩ := (quiets_foldl quiets_deviceFaulted l (deviceFaulted s x)).wakes p hp he
    rcases List.mem_cons.mp ho with rfl | hl
    · exact deviceFaulted_notEnabled s o q hq (hqi.trans hi.symm) hqe
    · exact deviceFaulted_fold_notEnabled l _ p hp ⟨o, hl, hi⟩ he

theorem quiets_faultAll (s : State) : Quiets s (faultAll s) := quiets_foldl quiets_deviceFaulted _ s

/-- An object of a driving type that were ENABLED after step 4 of R466 was so before, and so was made FAULTED. -/
theorem faultAll_notEnabled (s : State) : ∀ p ∈ (faultAll s).objs, faultTypes.contains p.typ = true → p.ost ≠ .enabled := by
  intro p hp ht he
  obtain ⟨o, ho, hi, hty, hoe⟩ := (quiets_faultAll s).wakes p hp he
  refine deviceFaulted_fold_notEnabled _ s p hp ⟨o, List.mem_filter.mpr ⟨ho, ?_⟩, hi⟩ he
  rw [isEnabled, hoe, hty, ht]
  rfl

/-! ## The class 2 sequence (R466, R467) -/

/-- The event is raised and its condition counted. -/
def class2Noted (code h : Nat) (data : List Byte) (s : State) : State :=
  let u := raiseE code 2 h 0 data s
  { u with isl := { u.isl with conditions := if u.isl.conditions.contains code then u.isl.conditions else u.isl.conditions ++ [code] } }

/-- The first class 2 event is kept, and the safe force asserted. -/
def faultLatched (code h : Nat) (s : State) : State :=
  { s with
    isl := { s.isl with deviceFault := true, faultCode := code, faultHandle := h, safeFault := true, hold := [] }
    pg := { s.pg with ech := List.replicate 16 false } }

theorem class2_eq (code h : Nat) (data : List Byte) (s : State) : class2 code h data s =
    if (class2Noted code h data s).isl.deviceFault = true then class2Noted code h data s
    else faultAll (refreshAll (faultLatched code h (class2Noted code h data s))) := rfl

theorem class2Noted_objs (code h : Nat) (data : List Byte) (s : State) : (class2Noted code h data s).objs = s.objs :=
  (touches_raiseE code 2 h 0 data s).objs

theorem class2Noted_conditions (code h : Nat) (data : List Byte) (s : State) : code ∈ (class2Noted code h data s).isl.conditions := by
  simp only [class2Noted]
  split
  · next hc => simpa using hc
  · simp

/-- What a noted event leaves of the island. -/
theorem class2Noted_isl (code h : Nat) (data : List Byte) (s : State) : ∃ l i w c, (class2Noted code h data s).isl
    = { s.isl with log := l, logIndex := i, logWrapped := w, conditions := c } := by
  have hi := congrArg State.isl (touches_raiseE code 2 h 0 data s).frame
  exact ⟨_, _, _, _, by rw [class2Noted, hi]⟩

theorem class2_later {s : State} (code h : Nat) (data : List Byte) (hs : s.isl.deviceFault = true) :
    class2 code h data s = class2Noted code h data s := by
  obtain ⟨l, i, w, c, hi⟩ := class2Noted_isl code h data s
  rw [class2_eq, if_pos (by rw [hi]; exact hs)]

theorem class2_first {s : State} (code h : Nat) (data : List Byte) (hs : s.isl.deviceFault = false) :
    class2 code h data s = faultAll (refreshAll (faultLatched code h (class2Noted code h data s))) := by
  obtain ⟨l, i, w, c, hi⟩ := class2Noted_isl code h data s
  rw [class2_eq, if_neg (by rw [hi]; exact Bool.eq_false_iff.mp hs)]

/-- What the first fault forces off. -/
theorem quiets_class2_first (u : State) : Quiets u (faultAll (refreshAll u)) := .after (quiets_faultAll _) (quiets_refreshAll u)

theorem class2_block (code h : Nat) (data : List Byte) (s : State) : (class2 code h data s).objs.map blockKey = s.objs.map blockKey := by
  cases hs : s.isl.deviceFault with
  | true => rw [class2_later code h data hs, class2Noted_objs]
  | false =>
    rw [class2_first code h data hs, (quiets_class2_first _).block]
    exact congrArg (List.map blockKey) (class2Noted_objs code h data s)

/-- Settles O25: a noted event keeps the latched fault; the first one latches it, and what is forced off then (`Quiets`) wakes nothing. -/
theorem deviceFaultLeavesNothingEnabled : Obligations.DeviceFaultLeavesNothingEnabled := by
  refine ⟨fun s code h data => ⟨_, rfl, ?_⟩, fun s code h data => class2_block code h data s⟩
  have hc := class2Noted_conditions code h data s
  obtain ⟨l, i, w, c, hi⟩ := class2Noted_isl code h data s
  cases hs : s.isl.deviceFault with
  | true =>
    rw [class2_later code h data hs]
    refine ⟨by rw [hi]; exact hs, hc, fun h => (Bool.noConfusion h), fun _ => ⟨by rw [hi], by rw [hi], class2Noted_objs code h data s⟩⟩
  | false =>
    rw [class2_first code h data hs]
    have hq := (quiets_class2_first (faultLatched code h (class2Noted code h data s))).isl
    refine ⟨by rw [hq]; rfl, by rw [hq]; exact hc, fun _ => ⟨by rw [hq]; rfl, by rw [hq]; rfl, by rw [hq]; rfl, by rw [hq]; rfl,
      faultAll_notEnabled _⟩, fun h => Bool.noConfusion h⟩

end Sys2Proof.Machine
end

section
/-! PROOFS. The step and the state after a power-on reset (01, 16, 17). -/

namespace Sys2Proof.Machine

/-- Settles O2: the step is one match on the queue. -/
theorem stepTakesTheFrontCommand : Obligations.StepTakesTheFrontCommand :=
  ⟨fun _ _ s hs => by rw [step, hs], fun s hs => by rw [step, hs]⟩

/-- The registers that the statement lists read as their reset values (R12, R461, R462, R472, R488, R492). -/
theorem regValue_reset : [0x0000, 0x2000, 0x200C, 0x2020, 0x2024, 0x2028, 0x2094, 0x2098].map (fun a => regValue a State.reset)
    = [0x42489648, 2, 1, 0, 0, 1000, 0, 80] := by decide

theorem rings_reset_disabled : ∀ r < 38, (ringOf State.reset r).en = false := by decide

/-- Settles O60: the fields of `State.reset` are read off, its registers evaluated. -/
theorem resetState : Obligations.ResetState :=
  ⟨⟨rfl, rfl⟩, .nil, rfl, rfl, rfl, rings_reset_disabled, rfl, rfl, rfl, rfl, rfl, rfl, rfl, rfl, rfl, rfl, regValue_reset, rfl⟩

end Sys2Proof.Machine
end

section
/-! PROOFS. Safety island and boot (16, R462, R473, R474, R479, R483; 17, R493 to R511): every kind of reset and what it keeps, reset
release, the stages of a boot, its end and its confirmation. -/

namespace Sys2Proof.Machine

section
variable {s : State}

/-! ## What a reset keeps (R462, R473, R479, R494, R495) -/

/-- From `s` to `t` only what MRAM records changes: keys and failures, the legacy lockout, the reports of boots. -/
def RecordFrame (s t : State) : Prop :=
  t = { s with
    sec := t.sec
    leg := { s.leg with fails := t.leg.fails, lockLen := t.leg.lockLen, lockEnd := t.leg.lockEnd }
    boot := { s.boot with lastConfirmed := t.boot.lastConfirmed, error := t.boot.error, reports := t.boot.reports } }

theorem recordFrame_mramRevert (s : State) : RecordFrame s (mramRevert s) := by
  unfold RecordFrame mramRevert
  split <;> rfl

theorem recordFrame_bootFailed (err : Nat) (s : State) : RecordFrame s (bootFailed err s) := by
  unfold RecordFrame bootFailed
  split <;> rfl

theorem RecordFrame.trans {s t u : State} (h : RecordFrame s t) (k : RecordFrame t u) : RecordFrame s u := by
  unfold RecordFrame at *
  rw [k, h]

/-- What becomes of the records at a reset with an error of the boot. -/
def resetRecords (err : Nat) (s : State) : State := bootFailed err (mramRevert s)

theorem recordFrame_resetRecords (err : Nat) (s : State) : RecordFrame s (resetRecords err s) :=
  (recordFrame_mramRevert s).trans (recordFrame_bootFailed err _)

/-- The state that a reset of the die leaves to keep: the records, and the last-gasp record written at the frame's start. -/
def gasped (cause code err : Nat) (s : State) : State :=
  let v := resetRecords (if err = 0 then resetError cause else err) s
  { logWrite 0x0150 0 1 0 (resetData cause code (lineMask (linesOn s)) (holdLines s).length) { v with gtc := frameStart s.gtc } with gtc := v.gtc }

/-- What `gasped` leaves of the parts that a reset keeps. -/
theorem gasped_keeps (cause code err : Nat) (s : State) : ∃ v, v = gasped cause code err s ∧ v.pending = s.pending ∧ v.eng = s.eng
    ∧ v.sched = s.sched ∧ v.boot.bootCount = s.boot.bootCount ∧ v.isl.wdtEn = s.isl.wdtEn ∧ v.isl.locked = s.isl.locked
    ∧ v.isl.estopLatch = s.isl.estopLatch ∧ v.isl.estopPin = s.isl.estopPin := by
  have hr := recordFrame_resetRecords (if err = 0 then resetError cause else err) s
  have hw := (touches_logWrite 0x0150 0 1 0 (resetData cause code (lineMask (linesOn s)) (holdLines s).length)
    { resetRecords (if err = 0 then resetError cause else err) s with gtc := frameStart s.gtc }).frame
  refine ⟨_, rfl, ?_⟩
  unfold RecordFrame at hr
  unfold EvFrame at hw
  simp only [gasped]
  rw [hw, hr]
  exact ⟨rfl, rfl, rfl, rfl, rfl, rfl, rfl, rfl⟩

/-- A reset of the die (R473, R475, R476, R494, R495). -/
theorem dieReset_keeps (s : State) (c k e : Nat) : ∃ t, t = dieReset c k e s ∧ t.boot.mode = .booting ∧ t.boot.released = false ∧ t.isl.cause = c
    ∧ t.isl.resetFault = k ∧ t.objs = [] ∧ t.sec.sessions = [] ∧ t.gtc = 0 ∧ t.isl.deviceFault = false ∧ t.isl.safeReset = true
    ∧ t.isl.estopLatch = (s.isl.estopLatch || s.isl.estopPin) ∧ t.eng.store = s.eng.store ∧ t.sched.store = s.sched.store
    ∧ t.isl.wdtEn = s.isl.wdtEn ∧ t.isl.locked = s.isl.locked ∧ t.boot.bootCount = s.boot.bootCount ∧ t.pending = s.pending
    ∧ t.isl.hold = holdLines s := by
  obtain ⟨v, hv, hpending, heng, hsched, hcount, hwdt, hlock, hlatch, hpin⟩ := gasped_keeps c k e s
  refine ⟨_, rfl, rfl, rfl, rfl, rfl, rfl, rfl, rfl, rfl, rfl, ?_, ?_, ?_, ?_, ?_, ?_, ?_, rfl⟩
  · rw [← hlatch, ← hpin, hv]; rfl
  · rw [← heng, hv]; rfl
  · rw [← hsched, hv]; rfl
  · rw [← hwdt, hv]; rfl
  · rw [← hlock, hv]; rfl
  · rw [← hcount, hv]; rfl
  · rw [← hpending, hv]; rfl

/-- Whether a last-gasp record had been written is open only while a reset of the die is in progress (R479). -/
theorem gaspLost_idle (h : s.boot.mode ≠ .booting ∨ s.boot.released = true ∨ s.isl.lastgasp = false ∨ s.isl.cause = 8) : gaspLost s = s :=
  if_pos (by simpa [causePark] using h)

section
variable (hm : s.boot.mode = .booting) (hr : s.boot.released = false) (hl : s.isl.lastgasp = true) (hc : s.isl.cause ≠ 8)
include hm hr hl hc

theorem gaspLost_open : gaspLost s = if (takeFree s).1 % 2 = 0 ∨ ((takeFree s).2.isl.log.getLast?.map fun e => u16 e 0) ≠ some 0x0150 then (takeFree s).2
    else { (takeFree s).2 with isl := { (takeFree s).2.isl with
      log := (takeFree s).2.isl.log.dropLast, logIndex := ((takeFree s).2.isl.logIndex + 2 ^ 32 - 1) % 2 ^ 32, lastgaspLost := true } } :=
  if_neg (by simp [hm, hr, hl, hc, causePark])

theorem gaspLost_written (h : (takeFree s).1 % 2 = 0 ∨ (s.isl.log.getLast?.map fun e => u16 e 0) ≠ some 0x0150) :
    gaspLost s = (takeFree s).2 := (gaspLost_open hm hr hl hc).trans (if_pos h)

theorem gaspLost_lost (hv : (takeFree s).1 % 2 = 1) (he : (s.isl.log.getLast?.map fun e => u16 e 0) = some 0x0150) :
    gaspLost s = { (takeFree s).2 with isl := { (takeFree s).2.isl with
      log := (takeFree s).2.isl.log.dropLast, logIndex := ((takeFree s).2.isl.logIndex + 2 ^ 32 - 1) % 2 ^ 32, lastgaspLost := true } } :=
  (gaspLost_open hm hr hl hc).trans (if_neg (by rintro (h | h); omega; exact h he))

end

/-- A lost record changes nothing that a reset keeps but the log. -/
theorem gaspLost_keeps (s : State) : ∃ v, v = gaspLost s ∧ v.pending = s.pending ∧ v.eng = s.eng ∧ v.sched = s.sched ∧ v.boot = s.boot
    ∧ v.isl.wdtEn = s.isl.wdtEn := by
  refine ⟨_, rfl, ?_⟩
  unfold gaspLost
  split
  · exact ⟨rfl, rfl, rfl, rfl, rfl⟩
  · dsimp only
    split <;> exact ⟨rfl, rfl, rfl, rfl, rfl⟩

/-- A brown-out keeps the island, and no line in HOLD (R476, R494). -/
theorem execBrownOutReset_keeps (s : State) : ∃ t, exec .brownOutReset s = .next t ∧ t.boot.mode = .booting ∧ t.isl.cause = causeBor ∧ t.objs = []
    ∧ t.isl.hold = [] ∧ t.isl.log = (gaspLost s).isl.log ∧ t.eng.store = s.eng.store ∧ t.sched.store = s.sched.store
    ∧ t.isl.wdtEn = s.isl.wdtEn ∧ t.boot.bootCount = s.boot.bootCount ∧ t.pending = s.pending := by
  obtain ⟨v, hv, hpending, heng, hsched, hboot, hwdt⟩ := gaspLost_keeps s
  have hr := recordFrame_resetRecords 0 v
  unfold RecordFrame at hr
  have he : exec .brownOutReset s = .next (brownOut s) := rfl
  refine ⟨_, he, rfl, rfl, rfl, rfl, ?_, ?_, ?_, ?_, ?_, ?_⟩
  · rw [← hv, ← congrArg (·.isl.log) hr, hv]; rfl
  · rw [← heng, ← congrArg (·.eng.store) hr, hv]; rfl
  · rw [← hsched, ← congrArg (·.sched.store) hr, hv]; rfl
  · rw [← hwdt, ← congrArg (·.isl.wdtEn) hr, hv]; rfl
  · rw [← hboot, ← congrArg (·.boot.bootCount) hr, hv]; rfl
  · rw [← hpending, ← congrArg (·.pending) hr, hv]; rfl

/-- A power-on reset keeps MRAM alone (R462, R494). -/
theorem execPowerOnReset_keeps (s : State) : ∃ t, exec .powerOnReset s = .next t ∧ t.boot.mode = .booting ∧ t.boot.bootCount = 0
    ∧ t.isl.wdtEn = false ∧ t.isl.locked = false ∧ t.objs = [] ∧ t.isl.hold = [] ∧ t.isl.log = s.isl.log ∧ t.eng.store = s.eng.store
    ∧ t.sched.store = s.sched.store ∧ t.leg.record = s.leg.record ∧ t.pending = s.pending := by
  have hr := recordFrame_resetRecords 0 s
  unfold RecordFrame at hr
  refine ⟨_, rfl, rfl, rfl, rfl, rfl, rfl, rfl, ?_, ?_, ?_, ?_, ?_⟩
  · exact congrArg (·.isl.log) hr
  · exact congrArg (·.eng.store) hr
  · exact congrArg (·.sched.store) hr
  · exact congrArg (·.leg.record) hr
  · exact congrArg (·.pending) hr


/-! ## Clock findings and what starts a reset (R474, R483, R493) -/

theorem execPllUnlock_locked (h : s.clk.pllLock = true) :
    exec .pllUnlock s = .next (dieReset causeClock 0x0156 0 (logWrite 0x0156 3 0 0 [] s)) := congrArg _ (if_pos h)

theorem execPllUnlock_stopped (h : s.clk.pllLock = false) : exec .pllUnlock s = .next s := congrArg _ (if_neg (by simp [h]))

theorem execAclkFreqDeviation_within {p : Int} (h : p.natAbs ≤ 100000) : exec (.aclkFreqDeviation p) s = .next s := congrArg _ (if_pos h)

theorem execAclkFreqDeviation_beyond {p : Int} (h : 100000 < p.natAbs) : exec (.aclkFreqDeviation p) s
    = .next (dieReset causeClock 0x0157 0 (logWrite 0x0157 3 0 0 ([0, 0, 0, 0] ++ iBytes 4 p) s)) := congrArg _ (if_neg (Nat.not_le.mpr h))

theorem exec_softResetStart (s : State) : exec .softResetStart s = .next (match s.isl.softResetAt with
    | none => s
    | some t => dieReset (toInstant t s).isl.softCause 0 0 (toInstant t s)) := rfl

theorem execSoftResetStart_none (h : s.isl.softResetAt = none) : exec .softResetStart s = .next s := by
  rw [exec_softResetStart, h]

theorem execSoftResetStart_due {t : Nat} (h : s.isl.softResetAt = some t) :
    exec .softResetStart s = .next (dieReset s.isl.softCause 0 0 (toInstant t s)) := by
  simp only [exec_softResetStart, h, toInstant_isl]

/-! ## Reset release (R496, R503, R509) -/

theorem execResetRelease_ignored {k : Nat} (h : s.boot.mode ≠ .booting ∨ s.boot.released = true ∨ 4 ≤ k) :
    exec (.resetRelease k) s = .next s := congrArg _ (if_pos h)

section
variable {k n : Nat} {u : State} (hm : s.boot.mode = .booting) (hr : s.boot.released = false) (hk : k < 4)
  (hn : n = if s.isl.cause = 1 then 0 else s.boot.bootCount)
  (hu : u = { s with
    boot := { s.boot with straps := k, modeAt := if k = 2 ∧ s.leg.record = true then 1 else k, policyNow := s.boot.policy, bootCount := n, stage := 0, released := true }
    hif := { s.hif with link := if k = 0 then s.hif.link else 3 }
    clk := { s.clk with pllLock := s.osl.role != 2, xtalPresent := s.clk.xtalPresent || s.osl.role != 2 } })
include hm hr hk hn hu

/-- The boot ROM acts on the straps and on the boot counter. -/
theorem execResetRelease_acts : exec (.resetRelease k) s = .next (if k = 3 then bareKing 3 u
    else if 3 ≤ n then bareKing 1 u else { u with boot := { u.boot with bootCount := n + 1 } }) := by
  subst hu hn
  exact congrArg _ (if_neg (by rintro (h | h | h); exacts [h hm, by simp [hr] at h, Nat.not_le.mpr hk h]))

theorem execResetRelease_strapped (h : k = 3) : exec (.resetRelease k) s = .next (bareKing 3 u) :=
  (execResetRelease_acts hm hr hk hn hu).trans (congrArg _ (if_pos h))

theorem execResetRelease_unconfirmed (h : k ≠ 3) (h3 : 3 ≤ n) : exec (.resetRelease k) s = .next (bareKing 1 u) :=
  (execResetRelease_acts hm hr hk hn hu).trans (congrArg _ ((if_neg h).trans (if_pos h3)))

theorem execResetRelease_counts (h : k ≠ 3) (h3 : n < 3) :
    exec (.resetRelease k) s = .next { u with boot := { u.boot with bootCount := n + 1 } } :=
  (execResetRelease_acts hm hr hk hn hu).trans (congrArg _ ((if_neg h).trans (if_neg (Nat.not_le.mpr h3))))

end

/-! ## The stages of a boot (R503 to R506) -/

theorem execBootStageComplete_ignored {t : Nat} (h : s.boot.mode ≠ .booting ∨ s.boot.released = false ∨ 5 ≤ s.boot.stage) :
    exec (.bootStageComplete t) s = .next s := congrArg _ (if_pos (by simpa using h))

section
variable {t : Nat} (hm : s.boot.mode = .booting) (hr : s.boot.released = true)
include hm hr

/-- A stage that is not VERIFY ends, and the next begins. -/
theorem execBootStageComplete_next (h5 : s.boot.stage < 5) (h2 : s.boot.stage ≠ 2) : exec (.bootStageComplete t) s = .next (
    let n := s.boot.stage + 1
    let u := { toInstant t s with boot := { s.boot with stage := n }, sec := { s.sec with selftestDone := s.sec.selftestDone || n == 2 } }
    if 3 < n then report s.sec.running n 0 u else u) := by
  refine (congrArg _ (if_neg (by simp [hm, hr, h5]))).trans ?_
  simp only [toInstant_boot, toInstant_sec, if_neg h2]

theorem execBootStageComplete_early {n : Nat} (h2 : s.boot.stage < 2) (hn : n = s.boot.stage + 1) : exec (.bootStageComplete t) s
    = .next { toInstant t s with boot := { s.boot with stage := n }, sec := { s.sec with selftestDone := s.sec.selftestDone || n == 2 } } := by
  subst hn
  rw [execBootStageComplete_next hm hr (by omega) (by omega)]
  exact congrArg _ (if_neg (by omega))

theorem execBootStageComplete_late {n : Nat} (h2 : 2 < s.boot.stage) (h5 : s.boot.stage < 5) (hn : n = s.boot.stage + 1) :
    exec (.bootStageComplete t) s = .next (report s.sec.running n 0 { toInstant t s with boot := { s.boot with stage := n } }) := by
  subst hn
  have hb : (s.boot.stage + 1 == 2) = false := by simp; omega
  rw [execBootStageComplete_next hm hr h5 (by omega)]
  refine (congrArg _ (if_pos (by omega))).trans ?_
  simp only [hb, Bool.or_false]
  rw [← toInstant_sec t s]

theorem execBootStageComplete_verify (h2 : s.boot.stage = 2) : exec (.bootStageComplete t) s = .next (verify (toInstant t s)) := by
  refine (congrArg _ (if_neg (by simp [hm, hr, h2]))).trans ?_
  simp only [toInstant_boot, if_pos h2]

end

/-- What VERIFY finds wrong with a slot is a matter of the slots and of the anti-rollback counter. -/
theorem slotBad_congr {u v : State} (b : Bool) (ha : v.sec.fwA = u.sec.fwA) (hb : v.sec.fwB = u.sec.fwB) (hr : v.sec.rollback = u.sec.rollback) :
    slotBad v b = slotBad u b := by
  have hf : fwSlot v b = fwSlot u b := by simp only [fwSlot, ha, hb]
  have hw (f : FwSlot) : fwBad v f = fwBad u f := by simp only [fwBad, hr]
  simp only [slotBad, hf, hw, hr]

/-- VERIFY has chosen its preferred slot. -/
def verifying (s : State) : State :=
  { s with boot := { s.boot with preferred := s.sec.candidate.getD (s.boot.lastConfirmed.getD false), tried := s.sec.candidate.isSome } }

/-- VERIFY boots a slot, as a fall-back or not. -/
def verified (b fallback : Bool) (s : State) : State :=
  report b 3 0 { s with boot := { s.boot with stage := 3, fallback := fallback }, sec := { s.sec with running := b } }

/-- VERIFY has recorded what is wrong with the preferred slot; a candidate that was tried is none any more. -/
def verifyFailed (b : Bool) (e : Nat) (s : State) : State :=
  let v := report b 2 e s
  { v with sec := { v.sec with candidate := if v.boot.tried then none else v.sec.candidate } }

/-- VERIFY in its two judgements. -/
theorem verify_eq {p : Bool} (hp : p = s.sec.candidate.getD (s.boot.lastConfirmed.getD false)) : verify s = match slotBad (verifying s) p with
    | none => verified p false (verifying s)
    | some e => match slotBad (verifyFailed p e (verifying s)) (!p) with
      | none => raise0 0x0169 0 (leBytes 1 (b2n (!p)) ++ leBytes 1 e) (verified (!p) true (verifyFailed p e (verifying s)))
      | some f => bareKing 2 { report (!p) 2 f (verifyFailed p e (verifying s)) with
          boot := { (report (!p) 2 f (verifyFailed p e (verifying s))).boot with error := f } } := by
  subst hp; rfl

theorem slotBad_verifying (b : Bool) (s : State) : slotBad (verifying s) b = slotBad s b := slotBad_congr b rfl rfl rfl

theorem slotBad_verifyFailed (p : Bool) (e : Nat) (b : Bool) (s : State) : slotBad (verifyFailed p e (verifying s)) b = slotBad s b :=
  slotBad_congr b rfl rfl rfl

section
variable {p : Bool} (hp : p = s.sec.candidate.getD (s.boot.lastConfirmed.getD false))
include hp

theorem verify_preferred (h : slotBad s p = none) : verify s = verified p false (verifying s) := by
  simp only [verify_eq hp, slotBad_verifying, h]

theorem verify_fallback {e : Nat} (h : slotBad s p = some e) (ho : slotBad s (!p) = none) : verify s
    = raise0 0x0169 0 (leBytes 1 (b2n (!p)) ++ leBytes 1 e) (verified (!p) true (verifyFailed p e (verifying s))) := by
  simp only [verify_eq hp, slotBad_verifying, h, slotBad_verifyFailed, ho]

theorem verify_fails {e f : Nat} (h : slotBad s p = some e) (ho : slotBad s (!p) = some f) : verify s
    = bareKing 2 { report (!p) 2 f (verifyFailed p e (verifying s)) with
        boot := { (report (!p) 2 f (verifyFailed p e (verifying s))).boot with error := f } } := by
  simp only [verify_eq hp, slotBad_verifying, h, slotBad_verifyFailed, ho]

end

/-- VERIFY boots the preferred slot, else the other one, else the device enters bare king (R504). -/
theorem execBootStageComplete_verifies {t : Nat} {p : Bool} (hm : s.boot.mode = .booting) (hr : s.boot.released = true) (h2 : s.boot.stage = 2)
    (hp : p = s.sec.candidate.getD (s.boot.lastConfirmed.getD false)) :
    (slotBad s p = none → ∃ u, exec (.bootStageComplete t) s = .next u ∧ u.boot.stage = 3 ∧ u.sec.running = p ∧ u.boot.fallback = false
      ∧ u.boot.mode = .booting)
    ∧ (∀ e, slotBad s p = some e → slotBad s (!p) = none → ∃ u, exec (.bootStageComplete t) s = .next u ∧ u.boot.stage = 3
      ∧ u.sec.running = !p ∧ u.boot.fallback = true ∧ u.boot.mode = .booting)
    ∧ (∀ e f, slotBad s p = some e → slotBad s (!p) = some f → ∃ u, exec (.bootStageComplete t) s = .next u ∧ u.boot.mode = .bareKing ∧ u.boot.bkReason = 2
      ∧ u.boot.error = f) := by
  have hbad (b : Bool) : slotBad (toInstant t s) b = slotBad s b := by
    have hs := toInstant_sec t s
    exact slotBad_congr b (by rw [hs]) (by rw [hs]) (by rw [hs])
  have hp' : p = (toInstant t s).sec.candidate.getD ((toInstant t s).boot.lastConfirmed.getD false) := by
    rw [toInstant_sec, toInstant_boot]; exact hp
  have hm' : (toInstant t s).boot.mode = .booting := by rw [toInstant_boot]; exact hm
  rw [execBootStageComplete_verify hm hr h2]
  refine ⟨fun h => ⟨_, rfl, ?_⟩, fun e h ho => ⟨_, rfl, ?_⟩, fun e f h ho => ⟨_, rfl, ?_⟩⟩
  · rw [verify_preferred hp' ((hbad p).trans h)]
    exact ⟨rfl, rfl, rfl, hm'⟩
  · have ht := touches_raise0 0x0169 0 (leBytes 1 (b2n (!p)) ++ leBytes 1 e) (verified (!p) true (verifyFailed p e (verifying (toInstant t s))))
    rw [verify_fallback hp' ((hbad p).trans h) ((hbad (!p)).trans ho), ht.boot, ht.sec]
    exact ⟨rfl, rfl, rfl, hm'⟩
  · rw [verify_fails hp' ((hbad p).trans h) ((hbad (!p)).trans ho)]
    exact ⟨rfl, rfl, rfl⟩

theorem execBootStageFail_ignored {e a : Nat} (h : s.boot.mode ≠ .booting ∨ s.boot.released = false) :
    exec (.bootStageFail e a) s = .next s := congrArg _ (if_pos (by simpa using h))

section
variable {e a : Nat} (hm : s.boot.mode = .booting) (hr : s.boot.released = true)
include hm hr

/-- A failed self-test is logged; then the device resets. -/
theorem execBootStageFail_resets : exec (.bootStageFail e a) s
    = .next (dieReset causeBoot 0 (e % 256) (if e = 1 then logWrite 0x0F48 3 0 0 (leBytes 1 a) s else s)) :=
  congrArg _ (if_neg (by simp [hm, hr]))

theorem execBootStageFail_stage (h : e ≠ 1) : exec (.bootStageFail e a) s = .next (dieReset causeBoot 0 (e % 256) s) := by
  rw [execBootStageFail_resets hm hr, if_neg h]

theorem execBootStageFail_selftest (h : e = 1) :
    exec (.bootStageFail e a) s = .next (dieReset causeBoot 0 1 (logWrite 0x0F48 3 0 0 (leBytes 1 a) s)) := by
  rw [execBootStageFail_resets hm hr, if_pos h, h]

end

/-! ## The end of boot and its confirmation (R479, R496, R505, R507, R508) -/

theorem strapMode_eq (s : State) : strapMode s = (if s.boot.straps = 2 ∧ s.leg.record = false then .fs216 else .native) := by
  simp [strapMode]

theorem execEndOfBoot_ignored {t : Nat} (h : s.boot.mode ≠ .booting ∨ s.boot.stage ≠ 5) : exec (.endOfBoot t) s = .next s :=
  congrArg _ (if_pos h)

section
variable {t : Nat} {u v w x : State} (hm : s.boot.mode = .booting) (h5 : s.boot.stage = 5) (hu : u = toInstant t s)
  (hv : v = { u with boot := { u.boot with mode := strapMode s, stage := 6, gtcBoot := u.gtc }, isl := { u.isl with safeReset := false } })
  (hx : x = vbatAtBoot (resetEvent (report s.sec.running 6 0 (if strapMode s = .fs216 then legBoot v else wdtRestart v))))
  (hw : x.isl.cause ≠ 8 → w = x) (hw8 : x.isl.cause = 8 → w = raise0 0x0167 0 (leBytes 1 x.pwr.wakeReason ++ [2]) x)
include hm h5 hu hv hx hw hw8

/-- The mode is set up, the events are raised, the policy may confirm, and every output comes back (R505, R507). -/
theorem execEndOfBoot_ends : exec (.endOfBoot t) s = .next (refreshAll (if w.boot.policyNow = 0 then confirmBoot w else w)) := by
  have hmode : strapMode (toInstant t s) = strapMode s := by simp only [strapMode, toInstant_boot, toInstant_leg]
  have hrun : (if strapMode s = .fs216 then legBoot v else wdtRestart v).sec.running = s.sec.running := by
    have : (if strapMode s = .fs216 then legBoot v else wdtRestart v).sec = v.sec := by split <;> rfl
    rw [this, hv, hu, toInstant_sec]
  have hcause : w = if x.isl.cause = causePark then raise0 0x0167 0 (leBytes 1 x.pwr.wakeReason ++ [2]) x else x := by
    by_cases hc : x.isl.cause = 8
    · rw [hw8 hc]; exact (if_pos hc).symm
    · rw [hw hc]; exact (if_neg hc).symm
  have he : exec (.endOfBoot t) s = execEndOfBoot t s := rfl
  rw [he, execEndOfBoot, if_neg (by simp [hm, h5]), hcause, hx, ← hrun, hv, hu, ← hmode]

theorem execEndOfBoot_confirms (hp : w.boot.policyNow = 0) : exec (.endOfBoot t) s = .next (refreshAll (confirmBoot w)) := by
  rw [execEndOfBoot_ends hm h5 hu hv hx hw hw8, if_pos hp]

theorem execEndOfBoot_awaits (hp : w.boot.policyNow ≠ 0) : exec (.endOfBoot t) s = .next (refreshAll w) := by
  rw [execEndOfBoot_ends hm h5 hu hv hx hw hw8, if_neg hp]

end

/-- The counter is cleared, the running slot is the last confirmed one, and no candidate any more. -/
def confirmed (s : State) : State :=
  { s with
    boot := { s.boot with
      bootCount := 0, confirmed := true, stage := 7, lastConfirmed := some s.sec.running
      reports := s.boot.reports.set (b2n s.sec.running) (7, ((s.boot.reports.getD (b2n s.sec.running) (0, 0)).2)) }
    sec := { s.sec with candidate := if s.sec.candidate = some s.sec.running then none else s.sec.candidate } }

/-- The anti-rollback counter advances to that of the running slot (R454). -/
def rollbackRaised (rb : Nat) (s : State) : State :=
  if s.sec.rollback < rb then raise0 0x0F46 0 (leBytes 1 rb) { s with sec := { s.sec with rollback := rb } } else s

theorem rollbackRaised_keeps (rb : Nat) (s : State) : (rollbackRaised rb s).boot = s.boot ∧ (rollbackRaised rb s).objs = s.objs
    ∧ s.sec.rollback ≤ (rollbackRaised rb s).sec.rollback := by
  unfold rollbackRaised
  split
  · next hlt =>
    have ht := touches_raise0 0x0F46 0 (leBytes 1 rb) { s with sec := { s.sec with rollback := rb } }
    exact ⟨ht.boot, ht.objs, by rw [ht.sec]; exact Nat.le_of_lt hlt⟩
  · exact ⟨rfl, rfl, Nat.le_refl _⟩

theorem confirmBoot_eq (h6 : s.boot.stage = 6) (hc : s.boot.confirmed = false) : ∃ data, confirmBoot s
    = raise0 0x0168 0 data (rollbackRaised (fwRollback (fwSlot s s.sec.running)) (confirmed s)) :=
  ⟨_, if_neg (by simp [awaitsConfirm, h6, hc])⟩

/-- A confirmed boot clears the counter, and the anti-rollback counter never goes back (R454, R508). -/
theorem confirmBoot_confirms (h6 : s.boot.stage = 6) (hc : s.boot.confirmed = false) : (confirmBoot s).boot.confirmed = true
    ∧ (confirmBoot s).boot.bootCount = 0 ∧ (confirmBoot s).boot.lastConfirmed = some s.sec.running
    ∧ s.sec.rollback ≤ (confirmBoot s).sec.rollback ∧ (confirmBoot s).objs = s.objs := by
  obtain ⟨data, he⟩ := confirmBoot_eq h6 hc
  obtain ⟨hboot, hobjs, hrb⟩ := rollbackRaised_keeps (fwRollback (fwSlot s s.sec.running)) (confirmed s)
  have ht := touches_raise0 0x0168 0 data (rollbackRaised (fwRollback (fwSlot s s.sec.running)) (confirmed s))
  rw [he, ht.boot, ht.sec, ht.objs, hboot, hobjs]
  exact ⟨rfl, rfl, rfl, hrb, rfl⟩

theorem execBootConfirmTimeout_idle (h : awaitsConfirm s = false ∨ s.boot.mode = .booting ∨ s.boot.mode = .parked) :
    exec .bootConfirmTimeout s = .next s := congrArg _ (if_pos (by simpa [or_assoc] using h))

theorem execBootConfirmTimeout_resets (ha : awaitsConfirm s = true) (hb : s.boot.mode ≠ .booting) (hp : s.boot.mode ≠ .parked) :
    exec .bootConfirmTimeout s = .next (dieReset causeBoot 0 0x0B (toInstant (s.boot.gtcBoot + 5 * secTicks) s)) :=
  congrArg _ (if_neg (by simp [ha, hb, hp]))

/-! ## The boot opcodes (R489, R507 to R511) -/

section
variable {d : Desc}

theorem exec_pwrBootPolicy_passes (hp : passes 0x0113 d s = true) : exec (.pwrBootPolicy d) s = .next (bodyBootPolicy d s) :=
  congrArg _ (runDesc_passes _ hp)

theorem bodyBootPolicy_param (h : 2 < u8 d.bytes 16) : bodyBootPolicy d s = fail d stBadParam s := if_pos h

theorem bodyBootPolicy_writes (h : u8 d.bytes 16 ≤ 2) (hb : s.pwr.bow = false) :
    bodyBootPolicy d s = ok d { s with boot := { s.boot with policy := u8 d.bytes 16 } } :=
  (if_neg (Nat.not_lt.mpr h)).trans (if_neg (by simp [hb]))

theorem bodyBootPolicy_waits (h : u8 d.bytes 16 ≤ 2) (hb : s.pwr.bow = true) :
    bodyBootPolicy d s = { s with pwr := { s.pwr with mramWait := s.pwr.mramWait ++ [(d, .bootPolicy (u8 d.bytes 16))] } } :=
  (if_neg (Nat.not_lt.mpr h)).trans (if_pos hb)

theorem mramWaitRun_bootPolicy {v : Nat} (h : s.pwr.mramWait = [(d, .bootPolicy v)]) :
    mramWaitRun s = ok d { s with pwr := { s.pwr with mramWait := [] }, boot := { s.boot with policy := v } } := by
  rw [mramWaitRun, h]; rfl

theorem exec_pwrBootConfirm_passes (hp : passes 0x0114 d s = true) : exec (.pwrBootConfirm d) s = .next (bodyBootConfirm d s) :=
  congrArg _ (runDesc_passes _ hp)

theorem bodyBootConfirm_again (h : s.boot.confirmed = true) : bodyBootConfirm d s = okWith d [0] s := if_pos h
theorem bodyBootConfirm_first (h : s.boot.confirmed = false) : bodyBootConfirm d s = okWith d [1] (confirmBoot s) := if_neg (by simp [h])

theorem exec_pwrBootReport_passes (hp : passes 0x0115 d s = true) : exec (.pwrBootReport d) s = .next (bodyBootReport d s) :=
  congrArg _ (runDesc_passes _ hp)

theorem exec_pwrRetryBoot_passes (hp : passes 0x0116 d s = true) : exec (.pwrRetryBoot d) s = .next (bodyRetryBoot d s) :=
  congrArg _ (runDesc_passes _ hp)

theorem bodyRetryBoot_elsewhere (h : s.boot.mode ≠ .bareKing) : bodyRetryBoot d s = fail d stState s := if_pos h
theorem bodyRetryBoot_bareKing (h : s.boot.mode = .bareKing) : bodyRetryBoot d s = ok d { s with
    boot := { s.boot with bootCount := 0 }, isl := { s.isl with softResetAt := some (s.gtc + msTicks), softCause := causeBoot } } := if_neg (by simp [h])

end

end

/-! ## The statement -/

/-- Settles O58: each reset by what it keeps, each stage by what it finds, each opcode by its outcomes. -/
theorem resetsAndBoot : Obligations.ResetsAndBoot := by
  refine ⟨fun _ => rfl, fun _ => execPllUnlock_locked, fun _ => execPllUnlock_stopped, fun _ _ => execAclkFreqDeviation_within,
    fun _ _ => execAclkFreqDeviation_beyond, fun _ => rfl, fun _ => execSoftResetStart_none, fun _ _ => execSoftResetStart_due,
    dieReset_keeps, fun _ => gaspLost_idle, fun s v hm hr hl hc hv => ?_, fun s => execBrownOutReset_keeps s, fun s => execPowerOnReset_keeps s,
    fun _ _ => execResetRelease_ignored, fun _ _ _ _ hm hr hk hn hu => ⟨execResetRelease_strapped hm hr hk hn hu,
      execResetRelease_unconfirmed hm hr hk hn hu, execResetRelease_counts hm hr hk hn hu⟩, fun _ _ => ⟨rfl, rfl, rfl, rfl, rfl, rfl⟩,
    fun _ _ => execBootStageComplete_ignored, fun _ _ _ hm hr => execBootStageComplete_early hm hr,
    fun _ _ _ hm hr => execBootStageComplete_late hm hr, fun _ _ _ hm hr => execBootStageComplete_verifies hm hr,
    fun _ _ _ => execBootStageFail_ignored, fun _ _ _ hm hr => ⟨execBootStageFail_stage hm hr, execBootStageFail_selftest hm hr⟩,
    fun _ _ => execEndOfBoot_ignored, fun _ _ _ _ _ hm h5 hu hv _ hx hw hw8 => ⟨execEndOfBoot_confirms hm h5 hu hv hx hw hw8,
      execEndOfBoot_awaits hm h5 hu hv hx hw hw8⟩, strapMode_eq, fun _ => confirmBoot_confirms, fun _ => execBootConfirmTimeout_idle,
    fun _ => execBootConfirmTimeout_resets, fun s d v hp hv => ?_, fun s d hp => ?_, fun s d hp => ?_, fun s d hp => ?_⟩
  · subst hv
    exact ⟨gaspLost_written hm hr hl hc, gaspLost_lost hm hr hl hc⟩
  · subst hv
    rw [exec_pwrBootPolicy_passes hp]
    exact ⟨fun h => congrArg _ (bodyBootPolicy_param h), fun h hb => congrArg _ (bodyBootPolicy_writes h hb),
      fun h hb => congrArg _ (bodyBootPolicy_waits h hb), mramWaitRun_bootPolicy⟩
  · rw [exec_pwrBootConfirm_passes hp]
    exact ⟨fun h => congrArg _ (bodyBootConfirm_again h), fun h => congrArg _ (bodyBootConfirm_first h)⟩
  · exact exec_pwrBootReport_passes hp
  · rw [exec_pwrRetryBoot_passes hp]
    exact ⟨fun h => congrArg _ (bodyRetryBoot_elsewhere h), fun h => congrArg _ (bodyRetryBoot_bareKing h)⟩

end Sys2Proof.Machine
end

section
/-! PROOFS. Power (17, R495, R497 to R502): SLEEP and PARK, their entry and completion, the wake sources and what a wake gives. -/

namespace Sys2Proof.Machine

section
variable {s : State} {d : Desc}

/-! ## What refuses SLEEP and PARK (R497, R501, R502) -/

theorem gpioWakes_iff (s : State) : gpioWakes s = true ↔
    s.pwr.viofOk = true ∧ ∃ i, i < 8 ∧ bit s.pwr.wakeMask i = true ∧ s.pg.gpio.getD i false = bit s.pwr.wakePol i := by
  simp [gpioWakes]

theorem sleepBad_mode (h : s.boot.mode ≠ .native) : sleepBad s = some stModeRefused := if_pos h

section
variable (hm : s.boot.mode = .native)
include hm

theorem sleepBad_busy (h : s.pwr.sleepAt ≠ none ∨ s.pwr.parkAt ≠ none) : sleepBad s = some stBusy :=
  (if_neg (by simp [hm])).trans (if_pos (by simpa [Option.isSome_iff_ne_none] using h))

variable (hs : s.pwr.sleepAt = none) (hk : s.pwr.parkAt = none)
include hs hk

/-- Where no entry runs, a wake GPIO at its level refuses it, then an awake member. -/
theorem sleepBad_native : sleepBad s = if gpioWakes s then some 0x0111 else if memberAwake s then some 0x0112 else none :=
  (if_neg (by simp [hm])).trans (if_neg (by simp [hs, hk]))

theorem sleepBad_gpio (hg : gpioWakes s = true) : sleepBad s = some 0x0111 := (sleepBad_native hm hs hk).trans (if_pos hg)

theorem sleepBad_member (hg : gpioWakes s = false) (ha : memberAwake s = true) : sleepBad s = some 0x0112 := by
  rw [sleepBad_native hm hs hk, if_neg (by simp [hg]), if_pos ha]

theorem sleepBad_none (hg : gpioWakes s = false) (ha : memberAwake s = false) : sleepBad s = none := by
  rw [sleepBad_native hm hs hk, if_neg (by simp [hg]), if_neg (by simp [ha])]

end

theorem exec_pwrSleep_passes (hp : passes 0x0110 d s = true) : exec (.pwrSleep d) s = .next (bodySleep d s) := congrArg _ (runDesc_passes _ hp)
theorem exec_pwrPark_passes (hp : passes 0x0111 d s = true) : exec (.pwrPark d) s = .next (bodyPark d s) := congrArg _ (runDesc_passes _ hp)

theorem bodySleep_refused {e : Nat} (h : sleepBad s = some e) : bodySleep d s = fail d e s := by simp only [bodySleep, h]
theorem bodySleep_accepted (h : sleepBad s = none) :
    bodySleep d s = sleepAborts { s with pwr := { s.pwr with sleepAt := some (nextBoundary s.gtc) } } := by simp only [bodySleep, h]
theorem bodyPark_refused {e : Nat} (h : sleepBad s = some e) : bodyPark d s = fail d e s := by simp only [bodyPark, h]
theorem bodyPark_accepted (h : sleepBad s = none) :
    bodyPark d s = sleepAborts { s with pwr := { s.pwr with parkAt := some (nextBoundary s.gtc) } } := by simp only [bodyPark, h]

/-! ## The entry into SLEEP (R498) -/

/-- The objects that SLEEP stops are disabled, and the kinematics unit is OFF. -/
def sleepStops (s : State) : State :=
  let u := setReverse false ((s.objs.filter fun o => isEnabled o && !sleepKeeps.contains o.typ).foldl (fun v o => disableObj o.idx v) s)
  setKState 0 { u with kin := kinFresh u.kin }

theorem exec_sleepEntry (s : State) : exec .sleepEntry s = .next (match s.pwr.sleepAt with
    | none => s
    | some e => if s.pwr.linesOff then s else allOff (sleepStops (toInstant e s))) := rfl

theorem execSleepEntry_idle (h : s.pwr.sleepAt = none ∨ s.pwr.linesOff = true) : exec .sleepEntry s = .next s := by
  rw [exec_sleepEntry]
  cases hs : s.pwr.sleepAt with
  | none => rfl
  | some e => exact congrArg _ (if_pos (h.resolve_left (by simp [hs])))

theorem execSleepEntry_enters {e : Nat} (hs : s.pwr.sleepAt = some e) (hl : s.pwr.linesOff = false) :
    exec .sleepEntry s = .next (allOff (sleepStops (toInstant e s))) := by
  simp only [exec_sleepEntry, hs, hl, Bool.false_eq_true, if_false]

/-! ## The end of the entries (R499 to R501) -/

theorem mramFlush_waits (h : s.pwr.bow = true) : mramFlush s = s := if_pos h
theorem mramFlush_completes (h : s.pwr.bow = false) : mramFlush s = latWritten (s.eng.saves.foldl (fun u x => storeDone x u) s) :=
  if_neg (by simp [h])

theorem wakeDue_none (h : s.pwr.wakeTimer = 0) : wakeDue s = none := if_pos h
theorem wakeDue_some (h : s.pwr.wakeTimer ≠ 0) : wakeDue s = some (s.gtc + s.pwr.wakeTimer * 480000) := by
  rw [wakeDue, if_neg h, msTicks]

/-- The executing descriptor of PWR_SLEEP, if it still waits, completes with the GTC of the entry. -/
def sleepCompletes (e : Nat) (s : State) : State :=
  match startedOp s 0x0110 with
  | some d => complete d { gtc := some e } s
  | none => s

/-- A member reports itself asleep. -/
def reportsAsleep (s : State) : State :=
  { s with osl := { s.osl with outbox := s.osl.outbox ++ [{ kind := .asleep, dst := 0, src := s.osl.position, body := [] }] } }

/-- PLL and watchdog stop, and the wake timer starts. -/
def asleep (s : State) : State :=
  { s with
    boot := { s.boot with mode := .sleeping }, clk := { s.clk with pllLock := false }, isl := { s.isl with wdtRunning := false }
    pwr := { s.pwr with wakeAt := wakeDue s } }

theorem exec_sleepComplete (t : Nat) (s : State) : exec (.sleepComplete t) s = execSleepComplete t s := rfl

theorem execSleepComplete_idle {t : Nat} (h : s.pwr.sleepAt = none ∨ s.pwr.linesOff = false ∨ s.boot.mode ≠ .native) :
    exec (.sleepComplete t) s = .next s := by
  rw [exec_sleepComplete, execSleepComplete]
  cases hs : s.pwr.sleepAt with
  | none => rfl
  | some e => exact congrArg _ (if_pos (by simpa [hs] using h))

theorem sleepCompletes_none {e : Nat} (h : startedOp s 0x0110 = none) : sleepCompletes e s = s := by simp only [sleepCompletes, h]
theorem sleepCompletes_some {e : Nat} (h : startedOp s 0x0110 = some d) : sleepCompletes e s = complete d { gtc := some e } s := by
  simp only [sleepCompletes, h]

section
variable {t e : Nat} {v : State} (hs : s.pwr.sleepAt = some e) (hl : s.pwr.linesOff = true) (hm : s.boot.mode = .native)
  (hv : v = sleepCompletes e (canHalt (canSleep (mramFlush (toInstant (min (max t e) (e + 2 * msTicks)) s)))))
include hs hl hm hv

theorem execSleepComplete_completes : exec (.sleepComplete t) s = .next (asleep (if v.osl.role = 2 then reportsAsleep v else v)) := by
  subst hv
  simp only [exec_sleepComplete, execSleepComplete, hs]
  rw [if_neg (by simp [hl, hm])]
  generalize canHalt (canSleep (mramFlush (toInstant (min (max t e) (e + 2 * msTicks)) s))) = u
  rfl

theorem execSleepComplete_alone (hr : v.osl.role ≠ 2) : exec (.sleepComplete t) s = .next (asleep v) := by
  rw [execSleepComplete_completes hs hl hm hv, if_neg hr]

theorem execSleepComplete_member (hr : v.osl.role = 2) : exec (.sleepComplete t) s = .next (asleep (reportsAsleep v)) := by
  rw [execSleepComplete_completes hs hl hm hv, if_pos hr]

end

/-- The writes of PARK are done, or a supply warning has deferred them for too long. -/
def parkWritten (b : Nat) (s : State) : State :=
  if s.pwr.bow then { toInstant (b + 100 * msTicks) s with
    pwr := { s.pwr with parkCount := s.pwr.parkCount - s.sched.saving.length }, sched := { s.sched with saving := [] } } else mramFlush s

/-- The reset record is written with the GTC of the frame's start. -/
def parkLogged (s : State) : State :=
  { logWrite 0x0150 0 1 0 (resetData causePark 0 0 0) { s with gtc := frameStart s.gtc } with gtc := s.gtc }

/-- The executing descriptor of PWR_PARK, if it still waits, completes with the records written. -/
def parkCompletes (s : State) : State :=
  match startedOp s 0x0111 with
  | some d => okWith d (leBytes 2 s.pwr.parkCount) s
  | none => s

/-- The device powers down. -/
def poweredDown (resetGtc : Nat) (s : State) : State :=
  { s with
    boot := { s.boot with mode := .parked }, isl := { s.isl with wdtRunning := false, resetGtc := resetGtc }
    cand := { s.cand with lowPower := true }, clk := { s.clk with pllLock := false }, pwr := { s.pwr with wakeAt := wakeDue s } }

theorem exec_parkWritesDone (s : State) : exec .parkWritesDone s = execParkWritesDone s := rfl

theorem execParkWritesDone_idle (h : s.pwr.parkAt = none ∨ s.pwr.linesOff = false ∨ s.boot.mode ≠ .native) :
    exec .parkWritesDone s = .next s := by
  rw [exec_parkWritesDone, execParkWritesDone]
  cases hs : s.pwr.parkAt with
  | none => rfl
  | some e =>
    have hc : (!s.pwr.linesOff || decide (s.boot.mode ≠ .native)) = true := by simpa [hs] using h
    simp only [hc, if_true]

theorem execParkWritesDone_parks {b : Nat} (hs : s.pwr.parkAt = some b) (hl : s.pwr.linesOff = true) (hm : s.boot.mode = .native) :
    exec .parkWritesDone s = .next (poweredDown (frameStart (parkWritten b s).gtc) (parkCompletes (parkLogged (parkWritten b s)))) := by
  simp only [exec_parkWritesDone, execParkWritesDone, hs, toInstant_pwr, toInstant_sched, parkWritten]
  rw [if_neg (by simp [hl, hm])]
  generalize (if s.pwr.bow = true then _ else mramFlush s) = u
  rfl

theorem parkCompletes_none (h : startedOp s 0x0111 = none) : parkCompletes s = s := by simp only [parkCompletes, h]
theorem parkCompletes_some (h : startedOp s 0x0111 = some d) : parkCompletes s = okWith d (leBytes 2 s.pwr.parkCount) s := by
  simp only [parkCompletes, h]

/-! ## The wake sources (R502) -/

theorem exec_pwrWakeConfig_passes (hp : passes 0x0112 d s = true) : exec (.pwrWakeConfig d) s = .next (bodyWakeConfig d s) :=
  congrArg _ (runDesc_passes _ hp)

/-- The GPIO that a configuration claims are claimed otherwise. -/
def wakeClaimed (s : State) (m : Nat) : Bool :=
  claimsBad (claimsHeld { s with pwr := { s.pwr with wakeMask := 0 } } 65536) (((List.range 8).filter fun i => bit m i).map fun i => (i, claimShared))

theorem bodyWakeConfig_flags (h : 3 < u8 d.bytes 18) : bodyWakeConfig d s = failWith d stBadParam (leBytes 2 18) s := if_pos h

theorem bodyWakeConfig_inUse (h : u8 d.bytes 18 ≤ 3) (hc : wakeClaimed s (u8 d.bytes 16) = true) : bodyWakeConfig d s = fail d stInUse s :=
  (if_neg (Nat.not_lt.mpr h)).trans (if_pos hc)

theorem bodyWakeConfig_sets (h : u8 d.bytes 18 ≤ 3) (hc : wakeClaimed s (u8 d.bytes 16) = false) : bodyWakeConfig d s
    = ok d { s with pwr := { s.pwr with wakeMask := u8 d.bytes 16, wakePol := u8 d.bytes 17, wakeFlags := u8 d.bytes 18, wakeTimer := u32 d.bytes 20 } } :=
  (if_neg (Nat.not_lt.mpr h)).trans (if_neg (Bool.eq_false_iff.mp hc))

theorem wakeArmed_iff (s : State) (r : Nat) : wakeArmed s r = true ↔ r = 5 ∧ gpioWakes s = true
    ∨ s.boot.mode = .sleeping ∧ (r = 7 ∧ bit s.pwr.wakeFlags 0 = true ∨ r = 8 ∧ s.osl.role = 2 ∧ bit s.pwr.wakeFlags 1 = true) := by
  unfold wakeArmed
  by_cases h5 : r = 5
  · simp [h5]
  · by_cases hm : s.boot.mode = .sleeping
    · by_cases h7 : r = 7
      · simp [h7, hm]
      · simp [h5, hm, h7, and_assoc]
    · simp [h5, hm]

theorem wakeBy_sleeping {r t : Nat} (h : s.boot.mode = .sleeping) : wakeBy r t s = sleepWake r t s := if_pos h
theorem wakeBy_parked {r t : Nat} (h : s.boot.mode = .parked) : wakeBy r t s = parkWake r s := (if_neg (by simp [h])).trans (if_pos h)
theorem wakeBy_awake {r t : Nat} (hs : s.boot.mode ≠ .sleeping) (hp : s.boot.mode ≠ .parked) : wakeBy r t s = s :=
  (if_neg hs).trans (if_neg hp)

theorem execWakeSource_unarmed {r t : Nat} (h : wakeArmed s r = false) : exec (.wakeSource r t) s = .next s := congrArg _ (if_neg (by simp [h]))
theorem execWakeSource_armed {r t : Nat} (h : wakeArmed s r = true) : exec (.wakeSource r t) s = .next (wakeBy r t s) := congrArg _ (if_pos h)

theorem exec_wakeTimerExpiry (s : State) : exec .wakeTimerExpiry s = .next (match s.pwr.wakeAt with
    | none => s
    | some t => wakeBy 6 t s) := rfl

theorem execWakeTimerExpiry_stopped (h : s.pwr.wakeAt = none) : exec .wakeTimerExpiry s = .next s := by rw [exec_wakeTimerExpiry, h]
theorem execWakeTimerExpiry_runs {t : Nat} (h : s.pwr.wakeAt = some t) : exec .wakeTimerExpiry s = .next (wakeBy 6 t s) := by
  rw [exec_wakeTimerExpiry, h]

/-! ## What a wake gives (R494, R500, R501) -/

theorem parkWake_keeps (s : State) (r : Nat) : (parkWake r s).boot.mode = .booting ∧ (parkWake r s).isl.cause = 8 ∧ (parkWake r s).objs = []
    ∧ (parkWake r s).sec.sessions = [] ∧ (parkWake r s).gtc = 0 ∧ (parkWake r s).pwr.wakeReason = r ∧ (parkWake r s).pwr.wakeFrom = 2
    ∧ (parkWake r s).isl.log = s.isl.log ∧ (parkWake r s).sched.store = s.sched.store ∧ (parkWake r s).eng.store = s.eng.store
    ∧ (parkWake r s).isl.wdtEn = s.isl.wdtEn := by
  have hr := recordFrame_resetRecords 0 s
  unfold RecordFrame at hr
  exact ⟨rfl, rfl, rfl, rfl, rfl, rfl, rfl, congrArg (·.isl.log) hr, congrArg (·.sched.store) hr, congrArg (·.eng.store) hr, rfl⟩

end

/-! ## The statement -/

/-- Settles O57: each descriptor by what refuses it, each happening by whether an entry runs, each source by whether it is armed. -/
theorem sleepParkAndWake : Obligations.SleepParkAndWake := by
  refine ⟨fun s d hp => ?_, fun s d hp => ?_, fun _ hm hs hk => ⟨sleepBad_gpio hm hs hk, sleepBad_member hm hs hk, sleepBad_none hm hs hk⟩,
    fun _ => sleepBad_mode, fun _ h hm => sleepBad_busy hm h, fun _ => rfl, fun _ => execSleepEntry_idle, fun s e u hs hl hu => ?_,
    fun _ => rfl, fun _ _ => execSleepComplete_idle, fun s t e u v w z hs hl hm hu hv hv' hw hz => ?_, fun _ => ⟨wakeDue_none, wakeDue_some⟩,
    fun _ => ⟨mramFlush_waits, mramFlush_completes⟩, fun _ => execParkWritesDone_idle, fun s b u v w hs hl hm hu hv hw hw' => ?_,
    fun s d m f hp hm hf => ?_, fun _ _ _ => execWakeSource_unarmed, fun s r t ha => ?_, fun _ => execWakeTimerExpiry_stopped,
    fun s t ht => ?_, wakeArmed_iff, gpioWakes_iff, fun s r t u hu => by subst hu; rfl, parkWake_keeps⟩
  · rw [exec_pwrSleep_passes hp]
    exact ⟨fun e h => congrArg _ (bodySleep_refused h), fun h => congrArg _ (bodySleep_accepted h)⟩
  · rw [exec_pwrPark_passes hp]
    exact ⟨fun e h => congrArg _ (bodyPark_refused h), fun h => congrArg _ (bodyPark_accepted h)⟩
  · subst hu
    exact execSleepEntry_enters hs hl
  · have hv2 : v = sleepCompletes e u := by
      cases hd : startedOp u 0x0110 with
      | none => rw [hv hd, sleepCompletes_none hd]
      | some d => rw [hv' d hd, sleepCompletes_some hd]
    rw [show (960000 : Nat) = 2 * msTicks from rfl] at hu
    subst hw hz hu
    exact ⟨execSleepComplete_alone hs hl hm hv2, execSleepComplete_member hs hl hm hv2⟩
  · have hw2 : w = parkCompletes v := by
      cases hd : startedOp v 0x0111 with
      | none => rw [hw hd, parkCompletes_none hd]
      | some d => rw [hw' d hd, parkCompletes_some hd]
    subst hw2 hv hu
    exact execParkWritesDone_parks hs hl hm
  · subst hm hf
    rw [exec_pwrWakeConfig_passes hp]
    exact ⟨fun h => congrArg _ (bodyWakeConfig_flags h), fun h hc => congrArg _ (bodyWakeConfig_inUse h hc),
      fun h hc => congrArg _ (bodyWakeConfig_sets h hc)⟩
  · rw [execWakeSource_armed ha]
    exact ⟨fun h => congrArg _ (wakeBy_sleeping h), fun h => congrArg _ (wakeBy_parked h), fun h k => congrArg _ (wakeBy_awake h k)⟩
  · rw [execWakeTimerExpiry_runs ht]
    exact ⟨fun h => congrArg _ (wakeBy_sleeping h), fun h => congrArg _ (wakeBy_parked h), fun h k => congrArg _ (wakeBy_awake h k)⟩

end Sys2Proof.Machine
end

section
/-! PROOFS. Power (17, R487, R489, R490, R492, R514): the VDD warning, the I/O domains and the VBAT levels of the four groups. -/

namespace Sys2Proof.Machine

section
variable {s : State} {g mv : Nat}

/-! ## VDD (R489, R490) -/

theorem execVddWarning_inForce (h : s.pwr.bow = true) : exec (.vddWarning mv) s = .next s := congrArg _ (if_pos h)

theorem execVddWarning_begins {u : State} (h : s.pwr.bow = false) (hu : u = latWritten s) : exec (.vddWarning mv) s
    = .next (raise0 0x0160 0 ([1, 0, 0, 0] ++ leBytes 4 mv)
      { u with pwr := { u.pwr with bow := true, bowAt := u.gtc, vdd := mv, vddLow := mv, mramOld := some (mramNow u) } }) := by
  subst hu
  exact congrArg _ (if_neg (Bool.eq_false_iff.mp h))

theorem execVddWarningEnd_none {low : Nat} (h : s.pwr.bow = false) : exec (.vddWarningEnd mv low) s = .next s :=
  congrArg _ (if_pos (by simp [h]))

theorem execVddWarningEnd_ends {low l : Nat} (h : s.pwr.bow = true) (hl : l = min low s.pwr.vddLow) : exec (.vddWarningEnd mv low) s
    = .next (mramSavesRun (raise0 0x0160 0 ([0, 0, 0, 0] ++ leBytes 4 l)
      (conditionEnded 0x0161 { storeResume s with pwr := { s.pwr with bow := false, mramOld := none, supplyLow := false, vdd := mv, vddLow := l } }))) := by
  subst hl
  exact congrArg _ (if_neg (by simp [h]))

theorem mramSavesRun_parked (h : s.boot.mode = .parked) : mramSavesRun s = s := if_pos h
theorem mramSavesRun_runs (h : s.boot.mode ≠ .parked) : mramSavesRun s = mramWaitRun (legSavesRun s) := if_neg h

theorem execVddWarningSustained_idle (h : s.pwr.bow = false ∨ s.pwr.supplyLow = true) : exec .vddWarningSustained s = .next s :=
  congrArg _ (if_pos (by simpa using h))

theorem execVddWarningSustained_faults (hb : s.pwr.bow = true) (hl : s.pwr.supplyLow = false) : exec .vddWarningSustained s
    = .next (class2 0x0161 0 [] { toInstant (s.pwr.bowAt + 100 * msTicks) s with pwr := { s.pwr with supplyLow := true } }) := by
  have he : exec .vddWarningSustained s = execVddWarningSustained s := rfl
  rw [he, execVddWarningSustained, if_neg (by simp [hb, hl])]
  simp only [toInstant_pwr]

/-! ## VIO_F and VIO_H (R487) -/

theorem exec_vioFLow (s : State) : exec .vioFLow s = execVioFLow s := rfl

theorem execVioFLow_already (h : s.pwr.viofOk = false) : exec .vioFLow s = .next s := by
  rw [exec_vioFLow, execVioFLow, if_pos (by simp [h])]

/-- VIO_F is lost. -/
def viofLost (s : State) : State := class2 0x0165 0 [] { s with pwr := { s.pwr with viofOk := false } }

/-- ESTOP_N reads low after it. -/
theorem execVioFLow_lost (h : s.pwr.viofOk = true) : exec .vioFLow s = .next (estopLow (viofLost s)) := by
  rw [exec_vioFLow, execVioFLow, if_neg (by simp [h]), viofLost]

theorem estopLow_held (h : s.isl.estopPin = true) : estopLow s = s := if_pos h

theorem estopLow_latches (h : s.isl.estopPin = false) : estopLow s = class2 0x0151 0 [] (refreshAll
    { s with isl := { s.isl with estopPin := true, estopLatch := true, estopHighAt := none, hold := [] } }) := if_neg (Bool.eq_false_iff.mp h)

theorem exec_vioHLow (s : State) : exec .vioHLow s = execVioHLow s := rfl

theorem execVioHLow_already (h : s.pwr.viohOk = false) : exec .vioHLow s = .next s := by
  rw [exec_vioHLow, execVioHLow, if_pos (by simp [h])]

theorem Quiets.estopPin {s t : State} (h : Quiets s t) : t.isl.estopPin = s.isl.estopPin := by rw [h.isl]

theorem faultLatched_estopPin (code h : Nat) (s : State) : (faultLatched code h s).isl.estopPin = s.isl.estopPin := rfl

/-- A class 2 event leaves the pin as it is. -/
theorem class2_estopPin {s : State} (code h : Nat) (data : List Byte) : (class2 code h data s).isl.estopPin = s.isl.estopPin := by
  obtain ⟨l, i, w, c, hi⟩ := class2Noted_isl code h data s
  cases hs : s.isl.deviceFault with
  | true => rw [class2_later code h data hs, hi]
  | false =>
    rw [class2_first code h data hs, (quiets_class2_first _).estopPin, faultLatched_estopPin, hi]

theorem viofLost_estopPin (s : State) : (viofLost s).isl.estopPin = s.isl.estopPin := class2_estopPin ..

/-! ### The host's interface under an event -/

theorem deliver_link (e : Ev) (s : State) : (deliver e s).hif.link = s.hif.link := by
  have hheld : (holdEvent e s).hif.link = s.hif.link := by unfold holdEvent; split <;> rfl
  unfold deliver
  split
  · exact hheld
  · split
    · rw [entryHif_ringProduce]
    · exact hheld

theorem raisePlain_link (t code cls h ep : Nat) (data : List Byte) (s : State) : (raisePlain t code cls h ep data s).hif.link = s.hif.link := by
  unfold raisePlain
  rw [trcEvent_hif, deliver_link]

theorem logPut_link (e : List Byte) (s : State) : (logPut e s).hif.link = s.hif.link := by
  unfold logPut
  rw [entryHif_streamWrite]

theorem logWriteAt_link (t code cls lflags h : Nat) (data : List Byte) (s : State) : (logWriteAt t code cls lflags h data s).hif.link = s.hif.link := by
  unfold logWriteAt
  dsimp only
  split
  · rw [raisePlain_link, logPut_link]
    exact logPut_link _ s
  · exact logPut_link _ s

theorem raise0_link (code h : Nat) (data : List Byte) (s : State) : (raise0 code h data s).hif.link = s.hif.link := by
  unfold raise0 raiseE raiseAt
  rw [raisePlain_link]
  split
  · exact logWriteAt_link ..
  · rfl

/-- VIO_H is lost. -/
def viohLost (s : State) : State := raise0 0x0166 0 [] { s with pwr := { s.pwr with viohOk := false } }

/-- A detach where the host's interface is on VIO_H: under the SPI strap, or in FS-216 mode. -/
theorem execVioHLow_lost (h : s.pwr.viohOk = true) :
    exec .vioHLow s = .next (if linkSpi s || s.boot.mode == .fs216 then detach 4 (viohLost s) else viohLost s) := by
  have hl : linkSpi (viohLost s) = linkSpi s := by rw [linkSpi, viohLost, raise0_link]; rfl
  have hb : (viohLost s).boot = s.boot := (touches_raise0 ..).boot
  have he : exec .vioHLow s
      = .next (if linkSpi (viohLost s) || (viohLost s).boot.mode == .fs216 then detach 4 (viohLost s) else viohLost s) := by
    rw [exec_vioHLow, execVioHLow, if_neg (by simp [h]), viohLost]
  rw [he, hl, hb]

theorem execVioHLow_detaches (h : s.pwr.viohOk = true) (hd : linkSpi s = true ∨ s.boot.mode = .fs216) :
    exec .vioHLow s = .next (detach 4 (viohLost s)) := by
  rw [execVioHLow_lost h, if_pos (by simpa using hd)]

theorem execVioHLow_reports (h : s.pwr.viohOk = true) (hl : linkSpi s = false) (hm : s.boot.mode ≠ .fs216) :
    exec .vioHLow s = .next (viohLost s) := by
  rw [execVioHLow_lost h, if_neg (by simp [hl, hm])]

/-! ## VBAT (R282, R317, R492, R514) -/

section
variable (h : s.pwr.vbatUvlo.getD g false = false)
include h

theorem execVbatUvloLeave_none : exec (.vbatUvloLeave g mv) s = .next s := congrArg _ (if_pos (Bool.eq_false_iff.mp h))

theorem execVbatUvloEnter_enters (hg : g < 4) : exec (.vbatUvloEnter g mv) s = .next (vbatEvent 0x0163 g 1 mv (vbatOutputs g
    { s with pwr := { s.pwr with vbatUvlo := s.pwr.vbatUvlo.set g true, vbat := s.pwr.vbat.set g (mv / 10) } })) :=
  congrArg _ (if_neg (not_or.mpr ⟨Nat.not_le.mpr hg, Bool.eq_false_iff.mp h⟩))

end

theorem execVbatUvloEnter_already (h : 4 ≤ g ∨ s.pwr.vbatUvlo.getD g false = true) : exec (.vbatUvloEnter g mv) s = .next s := congrArg _ (if_pos h)

/-- The lockout of a group ends: its outputs are back. -/
def uvloLeft (g mv : Nat) (s : State) : State :=
  vbatOutputs g { s with pwr := { s.pwr with vbatUvlo := s.pwr.vbatUvlo.set g false, vbat := s.pwr.vbat.set g (mv / 10) } }

/-- Each SOLENOID whose gate is open starts a new actuation (R317). -/
def solenoidsRestart (s : State) : State :=
  ((objsOf s tySolenoid).filter fun o => isEnabled o && (solOf o).gate && !(solOf o).dead && (solOf o).latch == 0).foldl (fun v o => solStart o.idx v) s

section
variable (h : s.pwr.vbatUvlo.getD g false = true)
include h

theorem execVbatUvloLeave_leaves : exec (.vbatUvloLeave g mv) s = .next (vbatEvent 0x0163 g 0 mv
    (if g = 0 ∧ ¬ banksOff (uvloLeft g mv s) then solenoidsRestart (uvloLeft g mv s) else uvloLeft g mv s)) :=
  congrArg _ (if_neg (not_not.mpr h))

theorem execVbatUvloLeave_other (hg : g ≠ 0) : exec (.vbatUvloLeave g mv) s = .next (vbatEvent 0x0163 g 0 mv (uvloLeft g mv s)) := by
  rw [execVbatUvloLeave_leaves h, if_neg fun k => hg k.1]

theorem execVbatUvloLeave_banksOff (hb : banksOff (uvloLeft g mv s) = true) :
    exec (.vbatUvloLeave g mv) s = .next (vbatEvent 0x0163 g 0 mv (uvloLeft g mv s)) := by
  rw [execVbatUvloLeave_leaves h, if_neg fun k => k.2 hb]

theorem execVbatUvloLeave_restarts (hg : g = 0) (hb : banksOff (uvloLeft g mv s) = false) :
    exec (.vbatUvloLeave g mv) s = .next (vbatEvent 0x0163 g 0 mv (solenoidsRestart (uvloLeft g mv s))) := by
  rw [execVbatUvloLeave_leaves h, if_pos ⟨hg, Bool.eq_false_iff.mp hb⟩]

end

theorem execVbatWarningLeave_none (h : s.pwr.vbatLow.getD g false = false) : exec (.vbatWarningLeave g mv) s = .next s :=
  congrArg _ (if_pos (Bool.eq_false_iff.mp h))

theorem execVbatWarningEnter_enters (h : s.pwr.vbatLow.getD g false = false) (hg : g < 4) : exec (.vbatWarningEnter g mv) s
    = .next (vbatEvent 0x0162 g 1 mv (lowVbat g
      { s with pwr := { s.pwr with vbatLow := s.pwr.vbatLow.set g true, vbat := s.pwr.vbat.set g (mv / 10) } })) :=
  congrArg _ (if_neg (not_or.mpr ⟨Nat.not_le.mpr hg, Bool.eq_false_iff.mp h⟩))

theorem execVbatWarningEnter_already (h : 4 ≤ g ∨ s.pwr.vbatLow.getD g false = true) : exec (.vbatWarningEnter g mv) s = .next s :=
  congrArg _ (if_pos h)

theorem execVbatWarningLeave_leaves (h : s.pwr.vbatLow.getD g false = true) : exec (.vbatWarningLeave g mv) s
    = .next (vbatEvent 0x0162 g 0 mv { s with pwr := { s.pwr with vbatLow := s.pwr.vbatLow.set g false, vbat := s.pwr.vbat.set g (mv / 10) } }) :=
  congrArg _ (if_neg (not_not.mpr h))

theorem execVbatHighLeave_none (h : s.pwr.vbatHigh.getD g false = false) : exec (.vbatHighLeave g mv) s = .next s :=
  congrArg _ (if_pos (Bool.eq_false_iff.mp h))

theorem execVbatHighEnter_enters (h : s.pwr.vbatHigh.getD g false = false) (hg : g < 4) : exec (.vbatHighEnter g mv) s
    = .next (vbatEvent 0x0164 g 1 mv { s with pwr := { s.pwr with vbatHigh := s.pwr.vbatHigh.set g true, vbat := s.pwr.vbat.set g (mv / 10) } }) :=
  congrArg _ (if_neg (not_or.mpr ⟨Nat.not_le.mpr hg, Bool.eq_false_iff.mp h⟩))

theorem execVbatHighEnter_already (h : 4 ≤ g ∨ s.pwr.vbatHigh.getD g false = true) : exec (.vbatHighEnter g mv) s = .next s :=
  congrArg _ (if_pos h)

theorem execVbatHighLeave_leaves (h : s.pwr.vbatHigh.getD g false = true) : exec (.vbatHighLeave g mv) s
    = .next (vbatEvent 0x0164 g 0 mv { s with pwr := { s.pwr with vbatHigh := s.pwr.vbatHigh.set g false, vbat := s.pwr.vbat.set g (mv / 10) } }) :=
  congrArg _ (if_neg (not_not.mpr h))

end

/-! ## The statement -/

/-- Settles O56: each happening by the condition under which it does nothing and by what it does otherwise. -/
theorem supplyMonitors : Obligations.SupplyMonitors := by
  refine ⟨fun _ _ => execVddWarning_inForce, fun _ _ _ => execVddWarning_begins,
    fun _ _ _ h => ⟨execVddWarningEnd_none h, execVddWarningSustained_idle (.inl h)⟩, fun _ _ _ _ => execVddWarningEnd_ends,
    fun _ => ⟨mramSavesRun_parked, mramSavesRun_runs⟩, fun _ => rfl, fun _ h => execVddWarningSustained_idle (.inr h),
    fun _ => execVddWarningSustained_faults, fun _ => execVioFLow_already, fun s h => ⟨viofLost s, rfl, fun hp => ?_, fun hp => ?_⟩,
    fun _ => rfl, fun _ => rfl, fun _ => execVioHLow_already, fun s h => ⟨viohLost s, rfl, execVioHLow_detaches h, execVioHLow_reports h⟩,
    fun _ _ _ h hg => ⟨execVbatUvloLeave_none h, execVbatUvloEnter_enters h hg⟩,
    fun _ _ _ h => ⟨execVbatUvloEnter_already (.inr h), execVbatUvloLeave_other h⟩,
    fun s mv u h hu => by subst hu; exact ⟨execVbatUvloLeave_banksOff h, execVbatUvloLeave_restarts h rfl⟩,
    fun _ _ _ h hg => ⟨execVbatWarningLeave_none h, execVbatWarningEnter_enters h hg⟩,
    fun _ _ _ h => ⟨execVbatWarningEnter_already (.inr h), execVbatWarningLeave_leaves h⟩,
    fun _ _ _ h hg => ⟨execVbatHighLeave_none h, execVbatHighEnter_enters h hg⟩,
    fun _ _ _ h => ⟨execVbatHighEnter_already (.inr h), execVbatHighLeave_leaves h⟩,
    fun _ _ _ h => ⟨execVbatUvloEnter_already (.inl h), execVbatWarningEnter_already (.inl h), execVbatHighEnter_already (.inl h)⟩⟩
  · rw [execVioFLow_lost h, estopLow_held ((viofLost_estopPin s).trans hp)]
  · rw [execVioFLow_lost h, estopLow_latches ((viofLost_estopPin s).trans hp)]

end Sys2Proof.Machine
end

section
/-! PROOFS. Safety island (16, R463, R466 to R473, R476, R480, R483): the watchdog, ESTOP_N, debug halt, the status bus, the clearing of a
device fault, ISL_RESET, the log read and the HOLD timer. -/

namespace Sys2Proof.Machine

section
variable {s : State} {d : Desc}

/-! ## The watchdog (R471 to R473) -/

/-- The set-up is barred by the lock or in FS-216 mode. -/
theorem wdtSetup_barred (h : s.isl.locked = true ∨ hostBarred s = true) : exec .wdtArm s = .next s ∧ exec .wdtDisarm s = .next s := by
  have hc : (s.isl.locked || hostBarred s) = true := by simpa using h
  exact ⟨congrArg _ (if_pos (by simp [hc])), congrArg _ (if_pos hc)⟩

section
variable (hl : s.isl.locked = false) (hb : hostBarred s = false)
include hl hb

omit hl hb in
theorem execWdtArm_armed (he : s.isl.wdtEn = true) : exec .wdtArm s = .next s := congrArg _ (if_pos (by simp [he]))

theorem execWdtArm_arms (he : s.isl.wdtEn = false) : exec .wdtArm s
    = .next (if s.boot.mode = .native then wdtRestart { s with isl := { s.isl with wdtEn := true, wdtToken := 0x5A } }
      else { s with isl := { s.isl with wdtEn := true, wdtToken := 0x5A } }) := congrArg _ (if_neg (by simp [hl, hb, he]))

theorem execWdtArm_native (he : s.isl.wdtEn = false) (hm : s.boot.mode = .native) : exec .wdtArm s = .next { s with isl := { s.isl with
    wdtEn := true, wdtToken := 0x5A, wdtRunning := true, wdtServed := s.gtc, wdtBad := 0
    wdtPausedAt := if s.isl.wdtDebugPause = true ∧ s.isl.halted ≠ [] then some s.gtc else none } } := by
  rw [execWdtArm_arms hl hb he, if_pos hm]
  simp [wdtRestart]

theorem execWdtArm_elsewhere (he : s.isl.wdtEn = false) (hm : s.boot.mode ≠ .native) :
    exec .wdtArm s = .next { s with isl := { s.isl with wdtEn := true, wdtToken := 0x5A } } := by
  rw [execWdtArm_arms hl hb he, if_neg hm]

theorem execWdtDisarm_stops : exec .wdtDisarm s = .next { s with isl := { s.isl with wdtEn := false, wdtRunning := false } } :=
  congrArg _ (if_neg (by simp [hl, hb]))

end

theorem exec_islWdtService_passes (hp : passes 0x0100 d s = true) : exec (.islWdtService d) s = .next (bodyWdtService d s) :=
  congrArg _ (runDesc_passes _ hp)

theorem bodyWdtService_fs216 (h : s.boot.mode = .fs216) : bodyWdtService d s = fail d stModeRefused s := if_pos h

section
variable (hm : s.boot.mode ≠ .fs216)
include hm

theorem bodyWdtService_disabled (he : s.isl.wdtEn = false) : bodyWdtService d s = fail d 0x0103 s := (if_neg hm).trans (if_pos (by simp [he]))

variable (he : s.isl.wdtEn = true)
include he

theorem bodyWdtService_serves (ht : u8 d.bytes 16 = s.isl.wdtToken) (hw : s.isl.wdtServed + wdtWindowTicks s ≤ s.gtc) :
    bodyWdtService d s = ok d { s with isl := { s.isl with
      wdtToken := (s.isl.wdtToken + 0x3B) % 256, wdtServed := s.gtc, wdtBad := 0, wdtPausedAt := s.isl.wdtPausedAt.map fun _ => s.gtc } } :=
  (if_neg hm).trans ((if_neg (by simp [he])).trans (if_pos ⟨ht, hw⟩))

theorem bodyWdtService_refuses (h : u8 d.bytes 16 ≠ s.isl.wdtToken ∨ s.gtc < s.isl.wdtServed + wdtWindowTicks s) :
    bodyWdtService d s = wdtRefuse d (u8 d.bytes 16) s :=
  (if_neg hm).trans ((if_neg (by simp [he])).trans (if_neg fun k => h.elim (· k.1) (Nat.not_lt.mpr k.2)))

end

/-- A refused service is counted and reported. -/
def wdtRefused (d : Desc) (s : State) : State :=
  fail d 0x0102 (raise0 0x0153 0 (leBytes 1 (u8 d.bytes 16) ++ leBytes 1 s.isl.wdtToken)
    { s with isl := { s.isl with badService := true, wdtBad := s.isl.wdtBad + 1 } })

theorem wdtRefused_wdtBad (d : Desc) (s : State) : (wdtRefused d s).isl.wdtBad = s.isl.wdtBad + 1 := by
  have ht := (touches_raise0 0x0153 0 (leBytes 1 (u8 d.bytes 16) ++ leBytes 1 s.isl.wdtToken)
    { s with isl := { s.isl with badService := true, wdtBad := s.isl.wdtBad + 1 } }).trans (touches_fail d 0x0102 _)
  exact congrArg (·.isl.wdtBad) ht.frame

/-- The second in a row expires the watchdog at once. -/
theorem wdtRefuse_eq (d : Desc) (s : State) :
    wdtRefuse d (u8 d.bytes 16) s = if 1 ≤ s.isl.wdtBad then wdtExpire (wdtRefused d s) else wdtRefused d s := by
  have hb : (2 ≤ (wdtRefused d s).isl.wdtBad) = (1 ≤ s.isl.wdtBad) := by rw [wdtRefused_wdtBad]; simp
  simp only [← hb]
  rfl

theorem execWatchdogExpiry_idle (h : s.isl.wdtRunning = false ∨ s.isl.wdtPausedAt ≠ none) : exec .watchdogExpiry s = .next s :=
  congrArg _ (if_pos (by simpa [Option.isSome_iff_ne_none] using h))

theorem execWatchdogExpiry_expires (hr : s.isl.wdtRunning = true) (hp : s.isl.wdtPausedAt = none) : exec .watchdogExpiry s
    = .next (wdtExpire (toInstant (s.isl.wdtServed + s.isl.wdtTimeout * msTicks * 95 / 100
      + (takeFree s).1 % (s.isl.wdtTimeout * msTicks / 10 + 1)) (takeFree s).2)) := congrArg _ (if_neg (by simp [hr, hp]))

theorem wdtPauseSync_pauses (hn : s.isl.wdtPausedAt = none) (hd : s.isl.wdtDebugPause = true) (hh : s.isl.halted ≠ []) :
    wdtPauseSync s = { s with isl := { s.isl with wdtPausedAt := some s.gtc } } := by
  have hc : (s.isl.wdtDebugPause && !s.isl.halted.isEmpty) = true := by simp [hd, hh]
  simp only [wdtPauseSync, hn, hc]

theorem wdtPauseSync_resumes {t : Nat} (hn : s.isl.wdtPausedAt = some t) (h : ¬ (s.isl.wdtDebugPause = true ∧ s.isl.halted ≠ [])) :
    wdtPauseSync s = { s with isl := { s.isl with wdtPausedAt := none, wdtServed := s.isl.wdtServed + (s.gtc - t) } } := by
  have hc : (s.isl.wdtDebugPause && !s.isl.halted.isEmpty) = false := by simpa using h
  simp only [wdtPauseSync, hn, hc]

theorem wdtPauseSync_running (hn : s.isl.wdtPausedAt = none) (h : ¬ (s.isl.wdtDebugPause = true ∧ s.isl.halted ≠ [])) : wdtPauseSync s = s := by
  have hc : (s.isl.wdtDebugPause && !s.isl.halted.isEmpty) = false := by simpa using h
  simp only [wdtPauseSync, hn, hc]

theorem wdtPauseSync_paused (hn : s.isl.wdtPausedAt ≠ none) (h : s.isl.wdtDebugPause = true ∧ s.isl.halted ≠ []) : wdtPauseSync s = s := by
  have hc : (s.isl.wdtDebugPause && !s.isl.halted.isEmpty) = true := by simpa using h
  obtain ⟨t, ht⟩ := Option.ne_none_iff_exists'.mp hn
  simp only [wdtPauseSync, ht, hc]

/-! ## ESTOP_N, debug halt (R463, R469) -/

theorem execEstopNHigh_high (h : s.isl.estopPin = false) : exec .estopNHigh s = .next s := congrArg _ (if_neg (Bool.eq_false_iff.mp h))
theorem execEstopNHigh_rises (h : s.isl.estopPin = true) :
    exec .estopNHigh s = .next { s with isl := { s.isl with estopPin := false, estopHighAt := some s.gtc } } := congrArg _ (if_pos h)

theorem exec_estopNLow (s : State) : exec .estopNLow s = .next (estopLow s) := rfl

theorem exec_estopReleaseTimer (s : State) : exec .estopReleaseTimer s = execEstopReleaseTimer s := rfl

theorem execEstopReleaseTimer_idle (h : s.isl.estopHighAt = none) : exec .estopReleaseTimer s = .next s := by
  rw [exec_estopReleaseTimer, execEstopReleaseTimer, h]

theorem execEstopReleaseTimer_releases {t : Nat} (h : s.isl.estopHighAt = some t) : exec .estopReleaseTimer s = .next (raise0 0x0152 0 []
    (conditionEnded 0x0151 { toInstant (t + 10 * msTicks) s with isl := { s.isl with estopHighAt := none } })) := by
  simp only [exec_estopReleaseTimer, execEstopReleaseTimer, h, toInstant_isl]

theorem execDebugHalt_ignored {e : Nat} (h : 24 ≤ e ∨ e ∈ s.isl.halted ∨ 2 ∉ s.sec.debugScopes) : exec (.debugHalt e) s = .next s :=
  congrArg _ (if_pos (by simpa using h))

theorem execDebugHalt_halts {e : Nat} (he : e < 24) (hh : e ∉ s.isl.halted) (hs : 2 ∈ s.sec.debugScopes) : exec (.debugHalt e) s
    = .next (class2 0x0158 0 (leBytes 1 e) (refreshAll (wdtPauseSync
      { s with isl := { s.isl with halted := s.isl.halted ++ [e], safeDebug := true, hold := [] } }))) :=
  congrArg _ (if_neg (by simp [he, hh, hs]))

theorem execEngineDebugResume_running {e : Nat} (h : e ∉ s.isl.halted) : exec (.engineDebugResume e) s = .next s :=
  congrArg _ (if_pos (by simpa using h))

theorem execEngineDebugResume_others {e : Nat} (h : e ∈ s.isl.halted) (hr : s.isl.halted.erase e ≠ []) :
    exec (.engineDebugResume e) s = .next { s with isl := { s.isl with halted := s.isl.halted.erase e } } := by
  have hc : (!(s.isl.halted.erase e).isEmpty) = true := by simpa using hr
  exact congrArg _ ((if_neg (by simpa using h)).trans (if_pos hc))

theorem execEngineDebugResume_last {e : Nat} {u : State} (h : s.isl.halted = [e]) (hu : u = wdtPauseSync { s with isl := { s.isl with halted := [] } }) :
    exec (.engineDebugResume e) s = .next (refreshAll (conditionEnded 0x0158 { u with isl := { u.isl with safeDebug := false } })) := by
  have he : s.isl.halted.erase e = [] := by simp [h]
  have hx : exec (.engineDebugResume e) s = execEngineDebugResume e s := rfl
  subst hu
  rw [hx, execEngineDebugResume, if_neg (by simp [h]), he]
  rfl

/-! ## Clearing a device fault, ISL_RESET (R468, R483) -/

theorem exec_islFaultClear_passes (hp : passes 0x0101 d s = true) : exec (.islFaultClear d) s = .next (bodyFaultClear d s) :=
  congrArg _ (runDesc_passes _ hp)

theorem bodyFaultClear_defers (h : persisting s = []) : bodyFaultClear d s = defer d 0x0101 0 (nextBoundary s.gtc) [] 0 s := by
  rw [bodyFaultClear, h]

theorem bodyFaultClear_persists {c : Nat} {r : List Nat} (h : persisting s = c :: r) :
    bodyFaultClear d s = failWith d 0x0101 (leBytes 2 c) s := by rw [bodyFaultClear, h]

theorem persisting_toInstant (t : Nat) (s : State) : persisting (toInstant t s) = persisting s := by
  simp only [persisting, toInstant_osl, toInstant_clk, toInstant_isl]

theorem exec_faultClearTakeEffect (s : State) : exec .faultClearTakeEffect s = execFaultClearTakeEffect s := rfl

theorem execFaultClearTakeEffect_none (h : deferredOf s 0x0101 0 = none) : exec .faultClearTakeEffect s = .next s := by
  rw [exec_faultClearTakeEffect, execFaultClearTakeEffect, h]

section
variable {x : Deferred} (hx : deferredOf s 0x0101 0 = some x)
include hx

theorem execFaultClearTakeEffect_clears (h : persisting s = []) : exec .faultClearTakeEffect s = .next (completeDeferred x {}
    (raise0 0x015A 0 (leBytes 2 s.isl.faultCode) (refreshAll { toInstant x.due s with isl := { s.isl with
      deviceFault := false, estopLatch := false, safeFault := false, faultCode := 0, faultHandle := 0, conditions := [] } }))) := by
  simp only [exec_faultClearTakeEffect, execFaultClearTakeEffect, hx, persisting_toInstant, h, toInstant_isl]

theorem execFaultClearTakeEffect_persists {c : Nat} {r : List Nat} (h : persisting s = c :: r) : exec .faultClearTakeEffect s
    = .next (completeDeferred x { status := 0x0101, result := leBytes 2 c } (toInstant x.due s)) := by
  simp only [exec_faultClearTakeEffect, execFaultClearTakeEffect, hx, persisting_toInstant, h]

end

theorem exec_islReset_passes (hp : passes 0x0102 d s = true) : exec (.islReset d) s = .next (bodyIslReset d s) := congrArg _ (runDesc_passes _ hp)

theorem bodyIslReset_param (h : u8 d.bytes 16 ≠ 0xA5) : bodyIslReset d s = fail d stBadParam s := if_pos h
theorem bodyIslReset_resets (h : u8 d.bytes 16 = 0xA5) :
    bodyIslReset d s = ok d { s with isl := { s.isl with softResetAt := some (s.gtc + msTicks), softCause := causeSoft } } := if_neg (not_not.mpr h)

/-! ## The log read and the HOLD timer (R476, R480) -/

theorem exec_islLogRead_passes (hp : passes 0x0103 d s = true) : exec (.islLogRead d) s = .next (bodyLogRead d s) := congrArg _ (runDesc_passes _ hp)

theorem exec_holdTimerExpiry (s : State) : exec .holdTimerExpiry s = execHoldTimerExpiry s := rfl

theorem execHoldTimerExpiry_idle (h : s.isl.holdActive = false ∨ s.isl.holdEnds = none) : exec .holdTimerExpiry s = .next s := by
  rw [exec_holdTimerExpiry, execHoldTimerExpiry]
  cases he : s.isl.holdEnds with
  | none => rfl
  | some t => exact congrArg _ (if_pos (by simpa [he] using h))

theorem execHoldTimerExpiry_ends {e : Nat} (ha : s.isl.holdActive = true) (he : s.isl.holdEnds = some e) : exec .holdTimerExpiry s
    = .next (raise0 0x0159 0 (leBytes 6 (lineMask s.isl.hold) ++ leBytes 1 s.isl.holdAdopted) { toInstant e s with isl := { s.isl with
      holdActive := false, hold := [], holdFirst := [], holdEnds := none, holdAdopted := 0
      dispSw := s.isl.dispSw.mapIdx fun k v => if s.isl.hold.contains k then 0 else v } }) := by
  simp only [exec_holdTimerExpiry, execHoldTimerExpiry, he, ha, Bool.not_true, Bool.false_eq_true, if_false, toInstant_isl]

section
variable {n f back start skip : Nat} {old : Prop} {es : List (List Byte)} (hn : n = s.isl.log.length) (hf : f = dOffset d)
  (hback : back = (s.isl.logIndex + 2 ^ 32 - f) % 2 ^ 32) (hold : old = (f ≠ 0xFFFFFFFF ∧ n < back ∧ back < 2 ^ 31))
  (hstart : f = 0xFFFFFFFF ∨ old → start = (s.isl.logIndex + 2 ^ 32 - n) % 2 ^ 32) (hstart' : ¬ (f = 0xFFFFFFFF ∨ old) → start = f)
  (hskip : 2 ^ 31 ≤ back → f ≠ 0xFFFFFFFF → skip = n)
  (hskip' : back < 2 ^ 31 ∨ f = 0xFFFFFFFF → skip = n - (s.isl.logIndex + 2 ^ 32 - start) % 2 ^ 32)
  (hes : es = (s.isl.log.drop skip).take (dBlockLen d / 32))
include hn hf hback hold hstart hstart' hskip hskip' hes

/-- The read begins at the index asked for, or at the oldest entry where that is older; an index yet to come reads nothing. -/
theorem bodyLogRead_reads : ∃ b : Byte, ∃ r, (old → b = 1) ∧ (¬ old → b = 0)
    ∧ bodyLogRead d s = writeBack d es.flatten { result := leBytes 4 es.length ++ [b] }
      { s with isl := { s.isl with logWrapped := false, logRead := r } } ∧ s.isl.logRead ≤ r := by
  have : Decidable old := Classical.propDecidable old
  have hb : (f != 0xFFFFFFFF && decide (n < back ∧ back < 2 ^ 31)) = decide old := by
    rw [Bool.eq_iff_iff]
    simp [hold]
  have hs : start = if f = 0xFFFFFFFF ∨ decide old = true then (s.isl.logIndex + 2 ^ 32 - n) % 2 ^ 32 else f := by
    simp only [decide_eq_true_eq]
    split
    · next h => exact hstart h
    · next h => exact hstart' h
  have hk : skip = if (decide (2 ^ 31 ≤ back) && f != 0xFFFFFFFF) = true then n else n - logBack s start := by
    split
    · next h =>
      simp only [Bool.and_eq_true, decide_eq_true_eq, bne_iff_ne] at h
      exact hskip h.1 h.2
    · next h =>
      simp only [Bool.and_eq_true, decide_eq_true_eq, bne_iff_ne, not_and_or, not_not, Nat.not_le] at h
      exact hskip' h
  refine ⟨BitVec.ofNat 8 (b2n (decide old)), if start ≤ s.isl.logRead ∧ skip < n then max s.isl.logRead (start + es.length) else s.isl.logRead,
    fun h => by simp [h, b2n], fun h => by simp [h, b2n], ?_, by split <;> omega⟩
  have hlog : back = logBack s f := hback
  subst hes hn hf
  rw [hlog] at hb hk
  rw [bodyLogRead]
  dsimp only
  rw [hb, ← hs, ← hk]
  rfl

end

end

/-! ## The statement -/

/-- Settles O55: each command by the condition under which it is refused or does nothing, and by what it does otherwise. -/
theorem watchdogEstopAndFaultClear : Obligations.WatchdogEstopAndFaultClear := by
  refine ⟨fun _ hl hb => ⟨execWdtArm_native hl hb, execWdtArm_elsewhere hl hb, execWdtArm_armed, execWdtDisarm_stops hl hb⟩,
    fun _ => wdtSetup_barred, fun s d hp => ?_, fun _ => execWatchdogExpiry_idle, fun s hr hp => ?_,
    fun s h => ⟨?_, execEstopNHigh_rises h⟩, fun s h => ⟨execEstopNHigh_high h, ?_⟩, fun _ => execEstopReleaseTimer_idle,
    fun _ _ => execEstopReleaseTimer_releases, fun _ _ => execDebugHalt_halts, fun _ _ => execDebugHalt_ignored,
    fun s on hon => ?_, fun _ _ => execEngineDebugResume_running, fun _ _ => execEngineDebugResume_others, fun _ _ _ => execEngineDebugResume_last,
    fun _ => ⟨rfl, rfl⟩, fun s d hp => ?_, fun _ => execFaultClearTakeEffect_none,
    fun _ _ hx => ⟨execFaultClearTakeEffect_clears hx, fun _ _ => execFaultClearTakeEffect_persists hx⟩, fun s d hp => ?_,
    fun s d n f back old start skip es hp hn hf hback hold hstart hstart' hskip hskip' hes => ?_, fun _ => execHoldTimerExpiry_idle,
    fun _ _ => execHoldTimerExpiry_ends⟩
  · rw [exec_islWdtService_passes hp]
    refine ⟨fun h => congrArg _ (bodyWdtService_fs216 h), fun hm he => congrArg _ (bodyWdtService_disabled hm he),
      fun hm he ht hw => congrArg _ (bodyWdtService_serves hm he ht hw), fun hm he h => ⟨wdtRefused d s, rfl, fun h0 => ?_, fun h1 => ?_⟩⟩
    · rw [bodyWdtService_refuses hm he h, wdtRefuse_eq, if_neg (by omega)]
    · rw [bodyWdtService_refuses hm he h, wdtRefuse_eq, if_pos h1, wdtExpire]
  · exact ⟨_, Nat.le_of_lt_succ (Nat.mod_lt _ (Nat.succ_pos _)), execWatchdogExpiry_expires hr hp⟩
  · rw [exec_estopNLow, estopLow_held h]
  · rw [exec_estopNLow, estopLow_latches h]
  · subst hon
    exact ⟨fun hn h => wdtPauseSync_pauses hn h.1 h.2, fun t => wdtPauseSync_resumes, wdtPauseSync_running, wdtPauseSync_paused⟩
  · rw [exec_islFaultClear_passes hp]
    exact ⟨fun h => congrArg _ (bodyFaultClear_defers h), fun c r h => congrArg _ (bodyFaultClear_persists h)⟩
  · rw [exec_islReset_passes hp]
    exact ⟨fun h => congrArg _ (bodyIslReset_param h), fun h => congrArg _ (bodyIslReset_resets h)⟩
  · rw [exec_islLogRead_passes hp]
    obtain ⟨b, r, hb, hb', he, hr⟩ := bodyLogRead_reads hn hf hback hold hstart hstart' hskip hskip' hes
    exact ⟨b, r, hb, hb', congrArg _ he, hr⟩

end Sys2Proof.Machine
end

section
/-! PROOFS. Security, timers and zeroization (15, R443, R446, R448, R449, R456, R458): expiry of challenges, sessions and
lockouts, failures of a slot, and zeroization from its start to its end. -/

namespace Sys2Proof.Machine

section
variable {s : State} {d : Desc} {q : Nat}

/-! ## Sessions and their timers (R443, R446, R449) -/

/-- The sessions without those of a ring. -/
def sessionsOff (q : Nat) (s : State) : State := { s with sec := { s.sec with sessions := s.sec.sessions.filter fun y => y.sq != q } }

/-- A close for any reason but a reset raises SEC_SESSION_CLOSED and starts the latency records of a loading session. -/
theorem sessionClose_some {x : Session} {r : Nat} (hx : sessionOn s q = some x) (hr : r ≠ 6) :
    sessionClose q r s = if x.loaded = true then latSave (raise0 0x0F41 0 (leBytes 4 r ++ leBytes 4 x.sid) (sessionsOff q s))
      else raise0 0x0F41 0 (leBytes 4 r ++ leBytes 4 x.sid) (sessionsOff q s) := by
  rw [sessionClose, hx]
  exact if_neg hr

/-- A close leaves the security module as it was but for the ring's sessions, and every object. -/
theorem sessionClose_sec_objs (q r : Nat) (s : State) :
    (sessionClose q r s).sec = { s.sec with sessions := s.sec.sessions.filter fun y => y.sq != q } ∧ (sessionClose q r s).objs = s.objs := by
  cases hx : sessionOn s q with
  | none =>
    have hf : s.sec.sessions.filter (fun y => y.sq != q) = s.sec.sessions := by
      rw [List.filter_eq_self]
      simpa [sessionOn] using hx
    rw [sessionClose_none r hx, hf]
    exact ⟨rfl, rfl⟩
  | some x =>
    by_cases hr : r = 6
    · rw [sessionClose, hx]
      simp [hr, closeReset]
    · have ht := touches_raise0 0x0F41 0 (leBytes 4 r ++ leBytes 4 x.sid) (sessionsOff q s)
      rw [sessionClose_some hx hr]
      split
      · exact ⟨ht.sec, ht.objs⟩
      · exact ⟨ht.sec, ht.objs⟩

theorem exec_challengeExpiry (q : Nat) (s : State) : exec (.challengeExpiry q) s = execChallengeExpiry q s := rfl

theorem execChallengeExpiry_none (h : s.sec.challenges.find? (fun c => c.sq == q) = none) : exec (.challengeExpiry q) s = .next s := by
  rw [exec_challengeExpiry, execChallengeExpiry, h]

theorem execChallengeExpiry_expires {c : Challenge} (h : s.sec.challenges.find? (fun c => c.sq == q) = some c) : exec (.challengeExpiry q) s
    = .next { toInstant c.expires s with sec := { s.sec with challenges := s.sec.challenges.erase c } } := by
  rw [exec_challengeExpiry, execChallengeExpiry, h]
  simp only [toInstant_sec]

theorem exec_sessionIdleTimeout (q : Nat) (s : State) : exec (.sessionIdleTimeout q) s = execSessionIdleTimeout q s := rfl
theorem exec_sessionTagFailures (q : Nat) (s : State) : exec (.sessionTagFailures q) s = execSessionTagFailures q s := rfl

theorem sessionTimers_none (h : sessionOn s q = none) : exec (.sessionIdleTimeout q) s = .next s ∧ exec (.sessionTagFailures q) s = .next s := by
  rw [exec_sessionIdleTimeout, exec_sessionTagFailures, execSessionIdleTimeout, execSessionTagFailures, h]
  exact ⟨rfl, rfl⟩

theorem execSessionIdleTimeout_closes {x : Session} (h : sessionOn s q = some x) :
    exec (.sessionIdleTimeout q) s = .next (sessionClose q 1 (toInstant (x.lastTagged + x.ttl * 480000000) s)) := by
  rw [exec_sessionIdleTimeout, execSessionIdleTimeout, h]
  rfl

theorem execSessionTagFailures_few {x : Session} (h : sessionOn s q = some x) (hb : x.badRun < 3) : exec (.sessionTagFailures q) s = .next s := by
  simp only [exec_sessionTagFailures, execSessionTagFailures, h, if_neg (Nat.not_le.mpr hb)]

theorem execSessionTagFailures_closes {x : Session} (h : sessionOn s q = some x) (hb : 3 ≤ x.badRun) :
    exec (.sessionTagFailures q) s = .next (authFail x.slot (sessionClose q 3 s)) := by
  simp only [exec_sessionTagFailures, execSessionTagFailures, h, if_pos hb, closeTagFailures]

/-! ## Lockouts (R450) -/

theorem exec_secLockoutEnd (k : Nat) (s : State) : exec (.secLockoutEnd k) s = execSecLockoutEnd k s := rfl

theorem execSecLockoutEnd_none {k : Nat} (h : (keySlot s k).lockEnd = none) : exec (.secLockoutEnd k) s = .next s := by
  rw [exec_secLockoutEnd, execSecLockoutEnd, h]

theorem execSecLockoutEnd_ends {k t : Nat} (h : (keySlot s k).lockEnd = some t) :
    exec (.secLockoutEnd k) s = .next (updSlot k (fun x => { x with lockEnd := none }) (toInstant t s)) := by
  rw [exec_secLockoutEnd, execSecLockoutEnd, h]

theorem keySlot_updSlot_same {k : Nat} (f : KeySlot → KeySlot) (h : k < s.sec.slots.length) : keySlot (updSlot k f s) k = f (keySlot s k) := by
  simp [keySlot, updSlot, h]

theorem keySlot_touches {t : State} (h : Touches s t) (k : Nat) : keySlot t k = keySlot s k := by rw [keySlot, keySlot, h.sec]

/-- A failure of a slot is counted and raised. -/
def failureNoted (k : Nat) (s : State) : State :=
  raise0 0x0F42 0 (leBytes 1 k ++ satBytes 1 ((keySlot s k).fails + 1)) (updSlot k (fun x => { x with fails := x.fails + 1 }) s)

section
variable {k : Nat} (hk : k < s.sec.slots.length)
include hk

theorem keySlot_failureNoted : keySlot (failureNoted k s) k = { keySlot s k with fails := (keySlot s k).fails + 1 } :=
  (keySlot_touches (touches_raise0 ..) k).trans (keySlot_updSlot_same _ hk)

theorem authFail_eq : authFail k s = if (keySlot s k).lockEnd.isNone && decide (5 ≤ (keySlot s k).fails + 1) then lockoutStart k (failureNoted k s)
    else failureNoted k s := by
  rw [authFail]
  simp only [keySlot_updSlot_same _ hk]
  rfl

theorem authFail_counts (h : (keySlot s k).fails < 4 ∨ (keySlot s k).lockEnd ≠ none) : authFail k s = failureNoted k s := by
  rw [authFail_eq hk]
  refine if_neg ?_
  simp only [Bool.and_eq_true, Option.isNone_iff_eq_none, decide_eq_true_eq, not_and, Nat.not_le]
  intro hn
  have := h.resolve_right (absurd hn)
  omega

theorem authFail_locks (h : 4 ≤ (keySlot s k).fails) (hn : (keySlot s k).lockEnd = none) :
    authFail k s = raise0 0x0F43 0 (leBytes 4 k ++ leBytes 4 (keySlot s k).nextLock) (updSlot k (fun x => { x with
      lockLen := x.nextLock, lockEnd := some (s.gtc + x.nextLock * 480000000), nextLock := min 3600 (2 * x.nextLock) }) (failureNoted k s)) := by
  have hg : (failureNoted k s).gtc = s.gtc := (touches_raise0 ..).gtc
  have hl : (keySlot (failureNoted k s) k).nextLock = (keySlot s k).nextLock := congrArg (·.nextLock) (keySlot_failureNoted hk)
  rw [authFail_eq hk, if_pos (by simp [hn, h]), lockoutStart]
  rw [hg, hl]
  rfl

end

/-! ## Zeroization (R456, R458) -/

theorem exec_secZeroize_passes (hp : passes 0x0F0C d s = true) : exec (.secZeroize d) s = .next (defer d 0x0F0C 0 0 [] 0 (zeroizeStart 1 s)) :=
  congrArg _ (runDesc_passes _ hp)

theorem zeroizeStart_again {c : Nat} (h : s.sec.zeroizing ≠ none) : zeroizeStart c s = s :=
  if_pos (Option.isSome_iff_ne_none.mpr h)

/-- The state in which the sessions close: ZEROIZING set, the key loads under way completed. -/
def zeroizeBegun (c : Nat) (s : State) : State := keyLoadsDrop { s with sec := { s.sec with zeroizing := some c } }

theorem zeroizeStart_starts {c : Nat} (h : s.sec.zeroizing = none) : zeroizeStart c s
    = { sessionsCloseAll 5 (zeroizeBegun c s) with sec := { (sessionsCloseAll 5 (zeroizeBegun c s)).sec with challenges := [] } } :=
  if_neg (by simp [h])

theorem keyLoadsDrop_sec_objs (s : State) : (keyLoadsDrop s).sec = s.sec ∧ (keyLoadsDrop s).objs = s.objs := by
  have ht := touches_fold (f := fun s (x : Desc × MramOp) => fail x.1 stZeroized s) (fun s x => touches_fail x.1 _ s)
  exact ⟨(ht _ _).sec, (ht _ _).objs⟩

/-- Closing the sessions of a list of rings removes the sessions of those rings and nothing else of the security module. -/
theorem sessionClose_fold (r : Nat) (l : List Session) (s : State) :
    let t := l.foldl (fun s x => sessionClose x.sq r s) s
    t.sec = { s.sec with sessions := s.sec.sessions.filter fun y => l.all fun x => y.sq != x.sq } ∧ t.objs = s.objs := by
  induction l generalizing s with
  | nil => simp
  | cons x xs ih =>
    obtain ⟨hsec, hobjs⟩ := sessionClose_sec_objs x.sq r s
    obtain ⟨ihs, iho⟩ := ih (sessionClose x.sq r s)
    refine ⟨?_, iho.trans hobjs⟩
    rw [List.foldl_cons, ihs, hsec]
    simp [List.filter_filter, Bool.and_comm]

theorem sessionsCloseAll_sec_objs (r : Nat) (s : State) :
    (sessionsCloseAll r s).sec = { s.sec with sessions := [] } ∧ (sessionsCloseAll r s).objs = s.objs := by
  obtain ⟨hs, ho⟩ := sessionClose_fold r s.sec.sessions s
  refine ⟨hs.trans ?_, ho⟩
  have hf : (s.sec.sessions.filter fun y => s.sec.sessions.all fun x => y.sq != x.sq) = [] :=
    List.filter_eq_nil_iff.mpr fun y hy h => by simpa using List.all_eq_true.mp h y hy
  rw [hf]

/-- Zeroization leaves no session and no challenge, and every object as it was. -/
theorem zeroizeStart_clears {c : Nat} (h : s.sec.zeroizing = none) :
    (zeroizeStart c s).sec = { s.sec with zeroizing := some c, sessions := [], challenges := [] } ∧ (zeroizeStart c s).objs = s.objs := by
  obtain ⟨hs, ho⟩ := sessionsCloseAll_sec_objs 5 (zeroizeBegun c s)
  obtain ⟨hks, hko⟩ := keyLoadsDrop_sec_objs { s with sec := { s.sec with zeroizing := some c } }
  rw [zeroizeStart_starts h]
  refine ⟨?_, ho.trans hko⟩
  dsimp only
  rw [hs, zeroizeBegun, hks]

/-- With no session open a key load under way is all that the start completes. -/
theorem zeroizeStart_keyLoad {k c : Nat} {b : List Byte} (h : s.sec.zeroizing = none) (hs : s.sec.sessions = [])
    (hw : s.pwr.mramWait = [(d, .key k (some b))]) :
    zeroizeStart c s = { fail d stZeroized { s with sec := { s.sec with zeroizing := some c }, pwr := { s.pwr with mramWait := [] } } with
      sec := { s.sec with zeroizing := some c, challenges := [] } } := by
  have hb : zeroizeBegun c s = fail d stZeroized { s with sec := { s.sec with zeroizing := some c }, pwr := { s.pwr with mramWait := [] } } := by
    simp [zeroizeBegun, keyLoadsDrop, hw]
  have hsec := (touches_fail d stZeroized { s with sec := { s.sec with zeroizing := some c }, pwr := { s.pwr with mramWait := [] } }).sec
  have hall : sessionsCloseAll 5 (zeroizeBegun c s) = zeroizeBegun c s := by rw [sessionsCloseAll, hb, hsec, hs, List.foldl_nil]
  rw [zeroizeStart_starts h, hall, hb, hsec]

theorem exec_zeroizeEraseDone (s : State) : exec .zeroizeEraseDone s = execZeroizeEraseDone s := rfl

theorem execZeroizeEraseDone_idle (h : s.sec.zeroizing = none) : exec .zeroizeEraseDone s = .next s := by
  rw [exec_zeroizeEraseDone, execZeroizeEraseDone, h]

theorem execZeroizeEraseDone_ends {c : Nat} {u : State} (h : s.sec.zeroizing = some c) (hu : u = logWrite 0x0F44 0 0 0 (leBytes 1 c) { s with
      sec := { s.sec with zeroizing := none, debugScopes := [], slots := s.sec.slots.map fun k => { k with key := none } }
      leg := { s.leg with password := 0x02160000, pwdNew := none } }) :
    exec .zeroizeEraseDone s = .next (finishDeferred 0x0F0C 0 {} (raisePlain u.gtc 0x0F44 0 0 0 (leBytes 1 c) u)) := by
  rw [exec_zeroizeEraseDone, execZeroizeEraseDone, h, hu]

end

/-! ## The statement -/

/-- Settles O54: the timers by whether what they watch exists, and zeroization by what its start and its end leave. -/
theorem securityTimersAndZeroization : Obligations.SecurityTimersAndZeroization := by
  refine ⟨fun _ _ => execChallengeExpiry_none, fun _ _ _ => execChallengeExpiry_expires, fun _ _ => sessionTimers_none,
    fun s q r x u hx hr hu => ?_, fun _ _ x hx => ⟨execSessionIdleTimeout_closes hx, execSessionTagFailures_few hx, execSessionTagFailures_closes hx⟩,
    fun _ _ => ⟨execSecLockoutEnd_none, fun _ => execSecLockoutEnd_ends⟩, fun s k u x hk hx hu => ?_, fun _ _ => exec_secZeroize_passes,
    fun _ => rfl, fun _ => rfl, fun _ _ => zeroizeStart_again, fun s c h => ?_, fun _ _ _ _ _ => zeroizeStart_keyLoad,
    fun _ => execZeroizeEraseDone_idle, fun _ _ _ => execZeroizeEraseDone_ends⟩
  · rw [hu]
    exact sessionClose_some hx hr
  · subst hx hu
    exact ⟨authFail_counts hk, authFail_locks hk⟩
  · obtain ⟨hs, ho⟩ := zeroizeStart_clears (c := c) h
    exact ⟨by rw [hs], by rw [hs], by rw [hs], ho⟩

end Sys2Proof.Machine
end

section
/-! PROOFS. Security descriptors (15, R439 to R455): info, challenge and open, close, keys, policy, firmware, debug unlock. -/

namespace Sys2Proof.Machine

section
variable {s : State} {d : Desc} {b : List Byte}

theorem not_all_true_iff {p q r : Bool} : ¬ (p = true ∧ q = true ∧ r = true) ↔ p = false ∨ q = false ∨ r = false := by
  cases p <;> cases q <;> cases r <;> decide

/-! ## Info, challenge and open (R442, R443, R458) -/

theorem exec_secInfo_passes (hp : passes 0x0F00 d s = true) : exec (.secInfo d) s = .next (writeBack d (leBytes 4 (secStat s) ++ leBytes 4 (secSlots s)
    ++ leBytes 4 (secFw s) ++ leBytes 4 (secSess s) ++ leBytes 8 Config.uid.toNat ++ List.replicate 8 0) {} s) := congrArg _ (runDesc_passes _ hp)

theorem exec_secChallenge_passes (hp : passes 0x0F01 d s = true) : exec (.secChallenge d) s = .next (bodySecChallenge d s) :=
  congrArg _ (runDesc_passes _ hp)

theorem bodySecChallenge_zeroized (h : zeroizeBars s = true) : bodySecChallenge d s = fail d stZeroized s := if_pos h

/-- The block of a challenge is malformed, in the words of the model. -/
def challengeBad (b : List Byte) : Prop :=
  u8 b 0 = 0 ∨ 3 < u8 b 0 ∨ 8 ≤ u8 b 1 ∨ slotRole (u8 b 1) ≠ u8 b 0 ∨ 16 ≤ u8 b 2 ∨ u16 b 4 < 10 ∨ 3600 < u16 b 4
    ∨ ¬ (zeroBytes b 3 1 ∧ zeroBytes b 6 2 ∧ zeroBytes b 52 12)

theorem challengeBad_iff : challengeBad b ↔ (u8 b 0 = 0 ∨ 3 < u8 b 0 ∨ 8 ≤ u8 b 1 ∨ slotRole (u8 b 1) ≠ u8 b 0 ∨ 16 ≤ u8 b 2 ∨ u16 b 4 < 10
    ∨ 3600 < u16 b 4 ∨ zeroBytes b 3 1 = false ∨ zeroBytes b 6 2 = false ∨ zeroBytes b 52 12 = false) := by
  rw [challengeBad, not_all_true_iff]

/-- Seconds that remain of a lockout, rounded up. -/
theorem lockRemaining_some {k t : Nat} (h : (keySlot s k).lockEnd = some t) : lockRemaining s k = (t - s.gtc + 479999999) / 480000000 := by
  rw [lockRemaining, h, show secTicks = 480000000 from rfl, Option.map_some, Option.getD_some, Nat.add_sub_assoc (by decide)]

section
variable (hz : zeroizeBars s = false)
include hz

theorem bodySecChallenge_param (h : challengeBad (blockOf s d)) : bodySecChallenge d s = fail d stBadParam s :=
  (if_neg (by simp [hz])).trans (if_pos h)

variable (hb : ¬ challengeBad (blockOf s d))
include hb

theorem bodySecChallenge_noKey (hk : (keySlot s (u8 (blockOf s d) 1)).key = none) : bodySecChallenge d s = fail d 0x0F08 s :=
  (if_neg (by simp [hz])).trans ((if_neg hb).trans (if_pos (by simp [hk])))

variable (hk : (keySlot s (u8 (blockOf s d) 1)).key ≠ none)
include hk

theorem bodySecChallenge_locked {t : Nat} (hl : (keySlot s (u8 (blockOf s d) 1)).lockEnd = some t) :
    bodySecChallenge d s = failWith d 0x0F05 (leBytes 4 ((t - s.gtc + 479999999) / 480000000)) s := by
  rw [← lockRemaining_some hl]
  exact (if_neg (by simp [hz])).trans ((if_neg hb).trans ((if_neg (by simpa using hk)).trans (if_pos (by simp [hl]))))

variable (hl : (keySlot s (u8 (blockOf s d) 1)).lockEnd = none)
include hl

theorem bodySecChallenge_session (hs : sessionOn s (u8 (blockOf s d) 2) ≠ none) : bodySecChallenge d s = fail d stState s :=
  (if_neg (by simp [hz])).trans ((if_neg hb).trans ((if_neg (by simpa using hk)).trans ((if_neg (by simp [hl])).trans
    (if_pos (Option.isSome_iff_ne_none.mpr hs)))))

end

/-- The challenge that a good block makes from a nonce and an identifier. -/
def challengeMade (b nd : List Byte) (sid : Nat) (s : State) : Challenge :=
  { sq := u8 b 2, role := u8 b 0, slot := u8 b 1, ttl := u16 b 4, sid := sid, expires := s.gtc + 5 * secTicks
    ctx := contextOf sid (u8 b 0) (u8 b 1) (u8 b 2) (slice b 8 16) nd }

theorem bodySecChallenge_makes (hz : zeroizeBars s = false) (hb : ¬ challengeBad (blockOf s d)) (hk : (keySlot s (u8 (blockOf s d) 1)).key ≠ none)
    (hl : (keySlot s (u8 (blockOf s d) 1)).lockEnd = none) (hs : sessionOn s (u8 (blockOf s d) 2) = none) {v : Nat × State} {c : Challenge}
    (hv : v = takeFree (takeNonce s).2) (hc : c = challengeMade (blockOf s d) (takeNonce s).1 (v.1 % 2 ^ 32) s) :
    bodySecChallenge d s = writeBack d ((blockOf s d).take 24 ++ (takeNonce s).1 ++ leBytes 4 c.sid ++ leBytes 8 Config.uid.toNat ++ List.replicate 12 0) {}
      { v.2 with sec := { v.2.sec with challenges := (v.2.sec.challenges.filter fun x => x.sq != u8 (blockOf s d) 2) ++ [c] } } := by
  subst hc hv
  exact (if_neg (by simp [hz])).trans ((if_neg hb).trans ((if_neg (by simpa using hk)).trans ((if_neg (by simp [hl])).trans (if_neg (by simp [hs])))))

theorem exec_secOpen_passes (hp : passes 0x0F02 d s = true) : exec (.secOpen d) s = .next (bodySecOpen d s) := congrArg _ (runDesc_passes _ hp)

theorem bodySecOpen_param (h : zeroBytes (blockOf s d) 4 12 = false) : bodySecOpen d s = fail d stBadParam s := if_pos (by simp [h])

/-- The live challenge that a SEC_OPEN names. -/
def challengeOf (d : Desc) (s : State) : Option Challenge :=
  s.sec.challenges.find? fun c => c.sid == u32 (blockOf s d) 0 && decide (s.gtc < c.expires)

theorem challengeOf_none (h : ∀ c ∈ s.sec.challenges, c.sid = u32 (blockOf s d) 0 → c.expires ≤ s.gtc) : challengeOf d s = none := by
  rw [challengeOf, List.find?_eq_none]
  simpa using h

/-- A challenge used up. -/
def challengeUsed (c : Challenge) (s : State) : State := { s with sec := { s.sec with challenges := s.sec.challenges.erase c } }

/-- The session that a right answer opens. -/
def sessionMade (c : Challenge) (key : List Byte) (s : State) : Session :=
  { idx := sessionIndex s, sq := c.sq, role := c.role, slot := c.slot, sid := c.sid, kTag := sessionKey key c.ctx 1
    kWrap := sessionKey key c.ctx 2, ttl := c.ttl, lastTagged := s.gtc }

/-- The session opened, the failures of its slot reset, the device's answer written and the event raised. -/
def sessionOpened (d : Desc) (b : List Byte) (c : Challenge) (key : List Byte) (s : State) : State :=
  raise0 0x0F40 0 ([BitVec.ofNat 8 c.role, BitVec.ofNat 8 c.slot, BitVec.ofNat 8 c.sq, 0] ++ leBytes 4 c.sid)
    (writeBack d (b.take 48 ++ hmac key (asciiDev ++ c.ctx)) {}
      (updSlot c.slot (fun k => { k with fails := 0, nextLock := 30 }) { s with sec := { s.sec with sessions := s.sec.sessions ++ [sessionMade c key s] } }))

section
variable (hz : zeroBytes (blockOf s d) 4 12 = true)
include hz

theorem bodySecOpen_unknown (h : challengeOf d s = none) : bodySecOpen d s = fail d 0x0F06 s := by
  rw [challengeOf] at h
  simp only [bodySecOpen, hz, h, Bool.not_true, Bool.false_eq_true, if_false]

/-- A live challenge is used up; the lockout, the answer and the room for a session decide in that order. -/
theorem bodySecOpen_live {c : Challenge} {u : State} {k : Option (List Byte)} (h : challengeOf d s = some c) (hu : u = challengeUsed c s)
    (hk : k = (keySlot s c.slot).key) : bodySecOpen d s = if (keySlot s c.slot).lockEnd.isSome then failWith d 0x0F05 (leBytes 4 (lockRemaining s c.slot)) u
      else if k.isNone ∨ slice (blockOf s d) 16 32 ≠ hmac (k.getD []) (asciiHost ++ c.ctx) then fail d 0x0F04 (authFail c.slot u)
      else if !sessionRoom u c then fail d 0x0F07 u else sessionOpened d (blockOf s d) c (k.getD []) u := by
  subst hu hk
  rw [challengeOf] at h
  simp only [bodySecOpen, hz, h, Bool.not_true, Bool.false_eq_true, if_false]
  rfl

end

theorem sessionRoom_iff {c : Challenge} : sessionRoom s c = true ↔ s.sec.sessions.length < 4 ∧ sessionOn s c.sq = none
    ∧ (c.role = 3 → ∀ x ∈ s.sec.sessions, x.role ≠ 3) := by
  simp only [sessionRoom, roleOwner, Bool.and_eq_true, decide_eq_true_eq, Option.isNone_iff_eq_none, Bool.not_eq_true', Bool.and_eq_false_imp,
    beq_iff_eq, List.any_eq_false, and_assoc]

/-! ## Close (R448, R449) -/

theorem exec_secClose_passes (hp : passes 0x0F03 d s = true) : exec (.secClose d) s = .next (bodySecClose d s) := congrArg _ (runDesc_passes _ hp)

theorem bodySecClose_untagged (h : dTagLen d ≠ 16) : bodySecClose d s = fail d stBadParam s := if_pos h

section
variable (h : dTagLen d = 16)
include h

theorem bodySecClose_closed (hx : ∀ x, sessionOn s d.sq = some x → (startedOf s d).sid ≠ some x.sid) : bodySecClose d s = okWith d [0] s := by
  refine (if_neg (not_not.mpr h)).trans (if_pos ?_)
  simpa [Option.any_eq_false] using hx

theorem bodySecClose_closes {x : Session} (hx : sessionOn s d.sq = some x) (hi : (startedOf s d).sid = some x.sid) :
    bodySecClose d s = okWith d [1] (sessionClose d.sq 0 s) :=
  (if_neg (not_not.mpr h)).trans (if_neg (by simp [hx, hi]))

end

theorem sessionOn_updSession {q : Nat} {x : Session} (f : Session → Session) (hf : ∀ y, (f y).sq = y.sq) (hx : sessionOn s q = some x) :
    sessionOn (updSession q f s) q = some (f x) := by
  have hp : ((fun x : Session => x.sq == q) ∘ fun x => if x.sq = q then f x else x) = fun x => x.sq == q := by
    funext y
    by_cases hy : y.sq = q <;> simp [hy, hf]
  have hq : x.sq = q := by simpa using List.find?_some hx
  rw [sessionOn] at hx
  rw [sessionOn, updSession, List.find?_map, hp, hx, Option.map_some, if_pos hq]

/-- The completion of a NOZZLE's or ROW's descriptor marks the session under which it was tagged. -/
theorem loadMark_loaded {st : Started} {ty i : Nat} {x : Session} (hi : st.sid = some i) (hxi : x.sid = i) (hx : sessionOn s st.desc.sq = some x) :
    (sessionOn (loadMark st ty s) st.desc.sq).map (·.loaded) = some (x.loaded || ty == tyNozzle || ty == tyRow) := by
  rw [loadMark, hi]
  by_cases ht : ty = tyNozzle ∨ ty = tyRow
  · have hm : sessionOn (updSession st.desc.sq (fun x => if x.sid = i then { x with loaded := true } else x) s) st.desc.sq
        = some { x with loaded := true } := by
      rw [sessionOn_updSession _ (fun y => by split <;> rfl) hx, if_pos hxi]
    simp only [if_pos ht, hm]
    obtain rfl | rfl := ht <;> simp
  · have hn : (ty == tyNozzle) = false ∧ (ty == tyRow) = false := by simpa using ht
    simp [if_neg ht, hx, hn]

/-! ## Keys and policy (R437, R439, R440) -/

theorem mramWrite_waits (w : MramOp) (h : s.pwr.bow = true) : mramWrite d w s = { s with pwr := { s.pwr with mramWait := s.pwr.mramWait ++ [(d, w)] } } :=
  if_pos h

theorem mramWrite_applies (w : MramOp) (h : s.pwr.bow = false) : mramWrite d w s = mramApply d w s := if_neg (by simp [h])

theorem mramApply_key_zeroized (i : Nat) (k : List Byte) (h : zeroizeBars s = true) : mramApply d (.key i (some k)) s = fail d stZeroized s :=
  if_pos (by simp [h])

theorem mramApply_key_some (i : Nat) (k : List Byte) (h : zeroizeBars s = false) :
    mramApply d (.key i (some k)) s = ok d (updSlot i (fun x => { x with key := some k }) s) := if_neg (by simp [h])

theorem exec_secProvision_passes (hp : passes 0x0F04 d s = true) : exec (.secProvision d) s = .next (bodySecProvision d s) :=
  congrArg _ (runDesc_passes _ hp)

theorem bodySecProvision_zeroized (h : zeroizeBars s = true) : bodySecProvision d s = fail d stZeroized s := if_pos h

theorem slotHeld_iff : ((keySlot s 0).key.isSome || s.pwr.mramWait.any fun x => ownerKey x.2) = true
    ↔ (keySlot s 0).key ≠ none ∨ ∃ x ∈ s.pwr.mramWait, ownerKey x.2 = true := by
  simp [Option.isSome_iff_ne_none]

theorem bodySecProvision_held (hz : zeroizeBars s = false) (h : (keySlot s 0).key ≠ none ∨ ∃ x ∈ s.pwr.mramWait, ownerKey x.2 = true) :
    bodySecProvision d s = fail d 0x0F09 s := (if_neg (by simp [hz])).trans (if_pos (slotHeld_iff.mpr h))

theorem bodySecProvision_writes (hz : zeroizeBars s = false) (h : ¬ ((keySlot s 0).key ≠ none ∨ ∃ x ∈ s.pwr.mramWait, ownerKey x.2 = true)) :
    bodySecProvision d s = mramWrite d (.key 0 (some (blockOf s d))) s := (if_neg (by simp [hz])).trans (if_neg (slotHeld_iff.not.mpr h))

theorem exec_secKeyLoad_passes (hp : passes 0x0F05 d s = true) : exec (.secKeyLoad d) s = .next (bodySecKeyLoad d s) := congrArg _ (runDesc_passes _ hp)

theorem bodySecKeyLoad_zeroized (h : zeroizeBars s = true) : bodySecKeyLoad d s = fail d stZeroized s := if_pos h

section
variable (hz : zeroizeBars s = false)
include hz

theorem bodySecKeyLoad_param (h : 8 ≤ u8 (blockOf s d) 0 ∨ zeroBytes (blockOf s d) 1 7 = false) : bodySecKeyLoad d s = fail d stBadParam s :=
  (if_neg (by simp [hz])).trans (if_pos (by simpa using h))

variable (hb : ¬ (8 ≤ u8 (blockOf s d) 0 ∨ zeroBytes (blockOf s d) 1 7 = false))
include hb

/-- A good block's key is unwrapped with the wrapping key of the session. -/
theorem bodySecKeyLoad_unwraps : bodySecKeyLoad d s = match (startedOf s d).wrap.bind fun k => keyUnwrap k (slice (blockOf s d) 8 40) with
    | none => fail d 0x0F0A s
    | some key => mramWrite d (.key (u8 (blockOf s d) 0) (some key)) s :=
  (if_neg (by simp [hz])).trans (if_neg (by simpa using hb))

theorem bodySecKeyLoad_refused (h : ∀ w, (startedOf s d).wrap = some w → keyUnwrap w (slice (blockOf s d) 8 40) = none) :
    bodySecKeyLoad d s = fail d 0x0F0A s := by
  rw [bodySecKeyLoad_unwraps hz hb, Option.bind_eq_none_iff.mpr h]

theorem bodySecKeyLoad_loads {w k : List Byte} (hw : (startedOf s d).wrap = some w) (hk : keyUnwrap w (slice (blockOf s d) 8 40) = some k) :
    bodySecKeyLoad d s = mramWrite d (.key (u8 (blockOf s d) 0) (some k)) s := by
  have hu : ((startedOf s d).wrap.bind fun k => keyUnwrap k (slice (blockOf s d) 8 40)) = some k := by rw [hw, Option.bind_some, hk]
  rw [bodySecKeyLoad_unwraps hz hb, hu]

end

theorem exec_secKeyErase_passes (hp : passes 0x0F06 d s = true) : exec (.secKeyErase d) s = .next (bodySecKeyErase d s) := congrArg _ (runDesc_passes _ hp)

theorem bodySecKeyErase_erases (h0 : 0 < u8 d.bytes 16) (h8 : u8 d.bytes 16 < 8) : bodySecKeyErase d s = mramWrite d (.key (u8 d.bytes 16) none) s :=
  if_neg (by omega)
theorem bodySecKeyErase_param (h : u8 d.bytes 16 = 0 ∨ 8 ≤ u8 d.bytes 16) : bodySecKeyErase d s = fail d stBadParam s := if_pos h

theorem exec_secPolicy_passes (hp : passes 0x0F07 d s = true) : exec (.secPolicy d) s = .next (bodySecPolicy d s) := congrArg _ (runDesc_passes _ hp)

theorem bodySecPolicy_writes (h : u8 d.bytes 16 < 2) : bodySecPolicy d s = mramWrite d (.policy (u8 d.bytes 16)) s := if_neg (Nat.not_le.mpr h)
theorem bodySecPolicy_param (h : 2 ≤ u8 d.bytes 16) : bodySecPolicy d s = fail d stBadParam s := if_pos h

/-! ## Firmware update, debug unlock (R451 to R455) -/

theorem exec_secFwBegin_passes (hp : passes 0x0F08 d s = true) : exec (.secFwBegin d) s = .next (bodySecFwBegin d s) := congrArg _ (runDesc_passes _ hp)

section
variable {t : Bool}

theorem bodySecFwBegin_param (h : 2 ≤ u8 d.bytes 16) : bodySecFwBegin d s = fail d stBadParam s := if_pos h

variable (h : u8 d.bytes 16 < 2) (ht : t = decide (u8 d.bytes 16 = 1))
include h ht

theorem bodySecFwBegin_running (hr : t = s.sec.running) (hm : s.boot.mode ≠ .bareKing) : bodySecFwBegin d s = fail d stState s :=
  (if_neg (Nat.not_le.mpr h)).trans (if_pos (by
    have hc : (u8 d.bytes 16 == 1) = s.sec.running := ht.symm.trans hr
    simp [hc, hm]))

theorem bodySecFwBegin_erases (hr : t ≠ s.sec.running ∨ s.boot.mode = .bareKing) :
    bodySecFwBegin d s = mramWrite d (.fwErase t) { s with sec := { s.sec with updating := some t } } := by
  have hc : (u8 d.bytes 16 == 1) = t := ht.symm
  refine (if_neg (Nat.not_le.mpr h)).trans ((if_neg ?_).trans ?_)
  · rw [hc]
    simpa [← imp_iff_not_or] using hr
  · rw [hc]

end

theorem exec_secFwWrite_passes (hp : passes 0x0F09 d s = true) : exec (.secFwWrite d) s = .next (bodySecFwWrite d s) := congrArg _ (runDesc_passes _ hp)

theorem bodySecFwWrite_none (h : s.sec.updating = none) : bodySecFwWrite d s = fail d stState s := by rw [bodySecFwWrite, h]

section
variable {t : Bool} (h : s.sec.updating = some t)
include h

theorem bodySecFwWrite_beyond (hs : fwSize < dOffset d + dBlockLen d) : bodySecFwWrite d s = fail d stBadParam s := by
  simp only [bodySecFwWrite, h, if_pos hs]

theorem bodySecFwWrite_writes (hs : dOffset d + dBlockLen d ≤ fwSize) :
    bodySecFwWrite d s = mramWrite d (.fwData t (dOffset d) (blockOf s d)) s := by
  simp only [bodySecFwWrite, h, if_neg (Nat.not_lt.mpr hs)]

end

theorem exec_secFwCommit_passes (hp : passes 0x0F0A d s = true) : exec (.secFwCommit d) s = .next (bodySecFwCommit d s) := congrArg _ (runDesc_passes _ hp)

theorem bodySecFwCommit_none (h : s.sec.updating = none) : bodySecFwCommit d s = fail d stState s := by rw [bodySecFwCommit, h]
theorem bodySecFwCommit_writes {t : Bool} (h : s.sec.updating = some t) : bodySecFwCommit d s = mramWrite d (.fwCommit t) s := by rw [bodySecFwCommit, h]

theorem mramApply_fwCommit (t : Bool) : mramApply d (.fwCommit t) s = fwCommitRun d t s := rfl

theorem fwCommitRun_bad {t : Bool} {e : Nat} (h : fwBad s (fwSlot s t) = some e) : fwCommitRun d t s = fail d e s := by rw [fwCommitRun, h]

theorem fwCommitRun_good {t : Bool} (h : fwBad s (fwSlot s t) = none) : fwCommitRun d t s = okWith d (leBytes 4 (fwVersion (fwSlot s t)))
    (raise0 0x0F45 0 (leBytes 4 (b2n t) ++ leBytes 4 (fwVersion (fwSlot s t))) { s with
      sec := { s.sec with updating := none, candidate := some t }
      boot := { s.boot with tried := false, bootCount := if s.boot.mode = .bareKing then 0 else s.boot.bootCount } }) := by rw [fwCommitRun, h]

theorem leBytes_b2n (t : Bool) : leBytes 4 (b2n t) = [(if t then 1 else 0), 0, 0, 0] := by cases t <;> decide

theorem exec_secDebugUnlock_passes (hp : passes 0x0F0B d s = true) : exec (.secDebugUnlock d) s = .next (bodySecDebugUnlock d s) :=
  congrArg _ (runDesc_passes _ hp)

theorem bodySecDebugUnlock_opens (h : u8 d.bytes 16 = 1 ∨ u8 d.bytes 16 = 2) : bodySecDebugUnlock d s
    = ok d (raise0 0x0F47 0 (leBytes 1 (u8 d.bytes 16)) { s with sec := { s.sec with
      debugOpen := true
      debugScopes := if s.sec.debugScopes.contains (u8 d.bytes 16) then s.sec.debugScopes else s.sec.debugScopes ++ [u8 d.bytes 16] } }) := if_neg (by omega)

theorem bodySecDebugUnlock_param (h1 : u8 d.bytes 16 ≠ 1) (h2 : u8 d.bytes 16 ≠ 2) : bodySecDebugUnlock d s = fail d stBadParam s := if_pos ⟨h1, h2⟩

end

/-! ## The statement -/

/-- Settles O53: each descriptor by the conditions under which it is refused, in their order, and by what it does otherwise. -/
theorem securityDescriptors : Obligations.SecurityDescriptors := by
  refine ⟨fun _ _ => exec_secInfo_passes, fun s d b r sl q bad hp hb hr hsl hq hbad => ?_, fun s d b hp hb => ?_, fun _ _ => sessionRoom_iff, fun s d hp => ?_,
    fun _ _ _ _ _ => loadMark_loaded, fun _ _ w => ⟨mramWrite_waits w, mramWrite_applies w⟩,
    fun _ _ i k => ⟨mramApply_key_zeroized i k, mramApply_key_some i k, rfl, rfl⟩, fun s d held hp hh => ?_, fun s d b bad hp hb hbad => ?_,
    fun s d i hp hi => ?_, fun s d hp => ?_, fun s d i b hp hi hb => ?_, fun _ _ => ⟨rfl, rfl⟩, fun s d hp => ?_, fun _ _ _ _ => ⟨rfl, rfl⟩,
    fun s d hp => ?_, fun s d b f hf => ?_, fun s d c hp hc => ?_⟩
  · subst hb hr hsl hq hbad
    rw [exec_secChallenge_passes hp, ← challengeBad_iff]
    refine ⟨fun hz => congrArg _ (bodySecChallenge_zeroized hz), fun hz h => congrArg _ (bodySecChallenge_param hz h), fun hz h =>
      ⟨fun hk => congrArg _ (bodySecChallenge_noKey hz h hk), fun t hk hl => congrArg _ (bodySecChallenge_locked hz h hk hl),
        fun hk hl hs => congrArg _ (bodySecChallenge_session hz h hk hl hs), fun hk hl hs => ?_⟩⟩
    exact ⟨_, _, _, _, rfl, rfl, rfl, congrArg _ (bodySecChallenge_makes hz h hk hl hs rfl rfl)⟩
  · subst hb
    rw [exec_secOpen_passes hp]
    refine ⟨fun hz => congrArg _ (bodySecOpen_param hz), fun hz h => congrArg _ (bodySecOpen_unknown hz (challengeOf_none h)),
      fun c u k hz hc hu hk => ?_⟩
    rw [bodySecOpen_live hz hc hu hk]
    refine ⟨fun t hl => ?_, fun hl h => ?_, fun key hl hkey h => ⟨fun hr => ?_, fun hr => ⟨_, rfl, ?_⟩⟩⟩
    · rw [← lockRemaining_some hl]
      exact congrArg _ (if_pos (by simp [hl]))
    · exact congrArg _ ((if_neg (by simp [hl])).trans (if_pos (by simpa using h)))
    · exact congrArg _ ((if_neg (by simp [hl])).trans ((if_neg (by simp [hkey, h])).trans (if_pos (by simp [hr]))))
    · subst hu
      rw [if_neg (by simp [hl]), if_neg (by simp [hkey, h]), if_neg (by simp [hr]), hkey]
      rfl
  · rw [exec_secClose_passes hp]
    refine ⟨fun h => congrArg _ (bodySecClose_untagged h), fun h hx => congrArg _ (bodySecClose_closed h hx), fun x u h hx hi hu => ?_⟩
    rw [bodySecClose_closes h hx hi, sessionClose_some hx (by decide), hu]
    rfl
  · subst hh
    rw [exec_secProvision_passes hp]
    exact ⟨fun h => congrArg _ (bodySecProvision_zeroized h), fun hz h => congrArg _ (bodySecProvision_held hz h),
      fun hz h => congrArg _ (bodySecProvision_writes hz h)⟩
  · subst hb hbad
    rw [exec_secKeyLoad_passes hp]
    exact ⟨fun h => congrArg _ (bodySecKeyLoad_zeroized h), fun hz h => congrArg _ (bodySecKeyLoad_param hz h),
      fun hz hb h => congrArg _ (bodySecKeyLoad_refused hz hb h), fun w k hz hb hw hk => congrArg _ (bodySecKeyLoad_loads hz hb hw hk)⟩
  · subst hi
    rw [exec_secKeyErase_passes hp]
    exact ⟨fun h0 h8 => congrArg _ (bodySecKeyErase_erases h0 h8), fun h => congrArg _ (bodySecKeyErase_param h)⟩
  · rw [exec_secPolicy_passes hp]
    exact ⟨fun h => congrArg _ (bodySecPolicy_writes h), fun h => congrArg _ (bodySecPolicy_param h)⟩
  · subst hi
    rw [exec_secFwBegin_passes hp]
    exact ⟨fun h => congrArg _ (bodySecFwBegin_param h), fun h hr hm => congrArg _ (bodySecFwBegin_running h hb hr hm),
      fun h hr => congrArg _ (bodySecFwBegin_erases h hb hr)⟩
  · rw [exec_secFwWrite_passes hp]
    exact ⟨fun h => congrArg _ (bodySecFwWrite_none h), fun b h hs => congrArg _ (bodySecFwWrite_beyond h hs),
      fun b h hs => congrArg _ (bodySecFwWrite_writes h hs)⟩
  · rw [exec_secFwCommit_passes hp]
    exact ⟨fun h => congrArg _ (bodySecFwCommit_none h), fun b h => congrArg _ (bodySecFwCommit_writes h)⟩
  · have hs : f = fwSlot s b := hf
    subst hs
    rw [mramApply_fwCommit, ← leBytes_b2n]
    exact ⟨fun e => fwCommitRun_bad, fwCommitRun_good⟩
  · subst hc
    rw [exec_secDebugUnlock_passes hp]
    exact ⟨fun h => congrArg _ (bodySecDebugUnlock_opens h), fun h1 h2 => congrArg _ (bodySecDebugUnlock_param h1 h2)⟩

end Sys2Proof.Machine
end

section
/-! PROOFS. Task Controller client (13, R394 to R398): status, pool response, setpoints, measurements and the disagreement of
work states. -/

namespace Sys2Proof.Machine

section
variable {s : State} {i a : Nat}

/-! ## The client's state (R394) -/

theorem setTc_same {n : Nat} (h : s.isb.tc = n) : setTc n s = s := if_pos h

theorem setTc_passes {n : Nat} (h : s.isb.tc ≠ n) : setTc n s = raise0 0x0D4B 0 (leBytes 1 n ++ leBytes 1 s.isb.tc)
    { s with isb := { s.isb with tc := n, meas := if n = 4 then [] else s.isb.meas } } := if_neg h

/-- Each state but ACTIVE keeps the measurements. -/
theorem setTc_from {m n : Nat} (hm : s.isb.tc = m) (hn : m ≠ n) (h4 : n ≠ 4) :
    setTc n s = raise0 0x0D4B 0 (leBytes 1 n ++ leBytes 1 m) { s with isb := { s.isb with tc := n } } := by
  rw [setTc_passes (hm ▸ hn), hm, if_neg h4]

theorem exec_tcStatusReceived (i a : Nat) (v : Option Nat) (s : State) : exec (.tcStatusReceived i a v) s = execTcStatusReceived i a v s := rfl

theorem execTcStatusReceived_unheard (v : Option Nat) (h : s.isb.tc = 0 ∨ i ≠ u8 s.isb.cfg 19) : exec (.tcStatusReceived i a v) s = .next s :=
  congrArg _ (if_pos h)

theorem execTcStatusReceived_found (v : Option Nat) (hi : i = u8 s.isb.cfg 19) (h : s.isb.tc = 1) : exec (.tcStatusReceived i a v) s
    = .next (raise0 0x0D4B 0 [2, 1] { s with isb := { s.isb with tc := 2, tcAddr := a, tcLast := s.gtc } }) := by
  rw [exec_tcStatusReceived, execTcStatusReceived, if_neg (by simp [hi, h]), if_pos h]
  exact congrArg _ (setTc_from (m := 1) h (by decide) (by decide))

theorem execTcStatusReceived_stranger (v : Option Nat) (h : 2 ≤ s.isb.tc) (ha : a ≠ s.isb.tcAddr) : exec (.tcStatusReceived i a v) s = .next s := by
  by_cases hu : s.isb.tc = 0 ∨ i ≠ u8 s.isb.cfg 19
  · exact execTcStatusReceived_unheard v hu
  · rw [exec_tcStatusReceived, execTcStatusReceived, if_neg hu, if_neg (by omega), if_pos ha]

section
variable (hi : i = u8 s.isb.cfg 19) (ha : a = s.isb.tcAddr)
include hi ha

theorem execTcStatusReceived_version {x : Nat} (h : s.isb.tc = 2) : exec (.tcStatusReceived i a (some x)) s
    = .next (raise0 0x0D4B 0 [3, 2] { s with isb := { s.isb with tc := 3, tcVer := x, tcLast := s.gtc } }) := by
  rw [exec_tcStatusReceived, execTcStatusReceived, if_neg (by simp [hi, h]), if_neg (by omega), if_neg (not_not.mpr ha)]
  dsimp only
  rw [if_pos h]
  exact congrArg _ (setTc_from (m := 2) h (by decide) (by decide))

theorem execTcStatusReceived_kept {v : Option Nat} (h : 2 ≤ s.isb.tc) (hv : v = none ∨ s.isb.tc ≠ 2) : exec (.tcStatusReceived i a v) s
    = .next { s with isb := { s.isb with tcLast := s.gtc } } := by
  rw [exec_tcStatusReceived, execTcStatusReceived, if_neg (by omega), if_neg (by omega), if_neg (not_not.mpr ha)]
  cases v with
  | none => rfl
  | some x => exact congrArg _ (if_neg (hv.resolve_left (by simp)))

end

theorem exec_tcStatusLost (s : State) : exec .tcStatusLost s = execTcStatusLost s := rfl

theorem execTcStatusLost_idle (h : s.isb.tc < 2) : exec .tcStatusLost s = .next s := congrArg _ (if_pos h)

theorem execTcStatusLost_searches (h : 2 ≤ s.isb.tc) : exec .tcStatusLost s
    = .next (setTc 1 (raise0 0x0D4C 0 (leBytes 1 s.isb.tcAddr) (toInstant (s.isb.tcLast + 2880000000) s))) := by
  rw [exec_tcStatusLost, execTcStatusLost, if_neg (Nat.not_lt.mpr h), show 6 * secTicks = 2880000000 from rfl]
  dsimp only
  rw [toInstant_isb]

theorem exec_tcPoolResponse (g : Bool) (e : Nat) (s : State) : exec (.tcPoolResponse g e) s = execTcPoolResponse g e s := rfl

theorem execTcPoolResponse_idle {g : Bool} {e : Nat} (h : s.isb.tc ≠ 3 ∨ s.isb.pool = none) : exec (.tcPoolResponse g e) s = .next s :=
  congrArg _ (if_pos (by simpa using h))

section
variable {e : Nat} (h : s.isb.tc = 3) (hp : s.isb.pool ≠ none)
include h hp

theorem execTcPoolResponse_good : exec (.tcPoolResponse true e) s
    = .next (raise0 0x0D4B 0 [4, 3] { s with isb := { s.isb with tc := 4, meas := [] } }) := by
  rw [exec_tcPoolResponse, execTcPoolResponse, if_neg (by simp [h, hp]), if_pos rfl, setTc_passes (by omega), h]
  rfl

theorem execTcPoolResponse_bad : exec (.tcPoolResponse false e) s
    = .next (raise0 0x0D4D 0 (leBytes 2 e) (raise0 0x0D4B 0 [5, 3] { s with isb := { s.isb with tc := 5 } })) := by
  rw [exec_tcPoolResponse, execTcPoolResponse, if_neg (by simp [h, hp]), if_neg (by decide), setTc_from h (by decide) (by decide)]
  rfl

end

/-- A client that is not ACTIVE takes no process data, command or measurement. -/
theorem tc_inactive (h : s.isb.tc ≠ 4) : (∀ g v t, exec (.setpointCondensedWorkState g v t) s = .next s)
    ∧ (∀ e p v, exec (.tcProcessData e p v) s = .next s) ∧ (∀ e p c v, exec (.measurementCommand e p c v) s = .next s)
    ∧ (∀ k, exec (.pdMeasurementTrigger k) s = .next s) := by
  refine ⟨fun g v t => congrArg _ (if_pos (.inl h)), fun e p v => congrArg _ (if_pos h), fun e p c v => congrArg _ (if_pos h), fun k => ?_⟩
  have hx : exec (.pdMeasurementTrigger k) s = execPdMeasurementTrigger k s := rfl
  rw [hx, execPdMeasurementTrigger]
  cases s.isb.meas[k]? with
  | none => rfl
  | some m => exact congrArg _ (if_pos h)

/-! ## Setpoints (R396, R397) -/

/-- The message counted. -/
def pdCounted (s : State) : State := { s with isb := { s.isb with pdRecv := satInc 32 s.isb.pdRecv } }

theorem pdCounted_toInstant (t : Nat) (s : State) :
    pdCounted (toInstant t s) = { toInstant t s with isb := { s.isb with pdRecv := satInc 32 s.isb.pdRecv } } := by
  rw [pdCounted, toInstant_isb]

/-- The sections in TC mode that serve a tc_section act on a change. -/
def tcAct (t n : Nat) (on : Bool) (s : State) : State :=
  ((objsOf s tySection).filter fun o => u16 o.act 34 == n && isEnabled o && u8 o.act 16 == 1).foldl
    (fun w o => if secDecides o = true ∧ (secOf o).decided ≠ on then tcSetpoint o on t w else w) s

theorem tcSections_tcMode (s : State) (n : Nat) :
    (tcSections s n).filter tcMode = (objsOf s tySection).filter fun o => u16 o.act 34 == n && isEnabled o && u8 o.act 16 == 1 := by
  rw [tcSections, List.filter_filter]
  refine congrArg (fun p => List.filter p (objsOf s tySection)) (funext fun o => ?_)
  rw [tcMode, Bool.and_comm, Bool.and_assoc]

theorem tcAct_eq (t n : Nat) (on : Bool) (s : State) : ((tcSections s n).filter tcMode).foldl
    (fun s o => if !secDecides o || (secOf o).decided == on then s else tcSetpoint o on t s) s = tcAct t n on s := by
  rw [tcSections_tcMode, tcAct]
  refine congrArg (fun f => List.foldl f s _) (funext fun w => funext fun o => ?_)
  by_cases hd : secDecides o = true <;> by_cases hn : (secOf o).decided = on <;> simp [hd, hn]

theorem exec_setpointCondensedWorkState (g v t : Nat) (s : State) :
    exec (.setpointCondensedWorkState g v t) s = execSetpointCondensedWorkState g v t s := rfl

theorem execSetpointCondensedWorkState_group {g v t : Nat} (h : g = 0 ∨ 16 < g) : exec (.setpointCondensedWorkState g v t) s = .next s :=
  congrArg _ (if_pos (.inr h))

/-- Each of the sixteen sections acts as its two bits say; 0b10 and 0b11 leave it. -/
theorem execSetpointCondensedWorkState_acts {g v t : Nat} (h : s.isb.tc = 4) (h0 : 0 < g) (h16 : g ≤ 16) :
    exec (.setpointCondensedWorkState g v t) s = .next ((List.range 16).foldl (fun u k =>
        if bits v (2 * k) 2 = 0 then tcAct t (16 * (g - 1) + k) false u else if bits v (2 * k) 2 = 1 then tcAct t (16 * (g - 1) + k) true u else u)
      (pdCounted (toInstant t s))) := by
  rw [exec_setpointCondensedWorkState, execSetpointCondensedWorkState, if_neg (by omega)]
  refine congrArg (fun f => Host.Outcome.next (List.foldl f (pdCounted (toInstant t s)) (List.range 16))) (funext fun u => funext fun k => ?_)
  dsimp only
  generalize bits v (2 * k) 2 = b
  match b with
  | 0 => exact tcAct_eq ..
  | 1 => exact tcAct_eq ..
  | b + 2 => rfl

theorem exec_tcProcessData (e : TcElem) (p : Pd) (v : Int) (s : State) : exec (.tcProcessData e p v) s = execTcProcessData e p v s := rfl

section
variable {e : TcElem} {v : Int} (h : s.isb.tc = 4)
include h

theorem execTcProcessData_workState : exec (.tcProcessData e .setWorkState v) s
    = .next { pdCounted s with isb := { (pdCounted s).isb with sws := (tcReach e).foldl (fun m n => setBit m n (v == 1)) s.isb.sws } } :=
  congrArg _ (if_neg (not_not.mpr h))

theorem execTcProcessData_control : exec (.tcProcessData e .sectionControl v) s
    = .next { pdCounted s with isb := { (pdCounted s).isb with scs := (tcReach e).foldl (fun m n => setBit m n (v == 1)) s.isb.scs } } :=
  congrArg _ (if_neg (not_not.mpr h))

/-- Process data other than the work-state bits is a rate or is refused. -/
theorem execTcProcessData_other {p : Pd} (hw : p ≠ .setWorkState) (hc : p ≠ .sectionControl) : exec (.tcProcessData e p v) s
    = .next (match tcRateOf p v with
      | none => pdRefuse e p 3 (pdCounted s)
      | some x => ((objsOf s tySection).filter fun o => (tcReach e).contains (u16 o.act 34)).foldl
          (fun w o => updSec o.idx (fun r => { r with tcRate := some x }) w) (pdCounted s)) := by
  rw [exec_tcProcessData, execTcProcessData, if_neg (not_not.mpr h)]
  cases p
  case setWorkState => exact absurd rfl hw
  case sectionControl => exact absurd rfl hc
  all_goals rfl

theorem execTcProcessData_rate {p : Pd} {x : F32 × Nat} (hx : tcRateOf p v = some x) : exec (.tcProcessData e p v) s
    = .next (((objsOf s tySection).filter fun o => (tcReach e).contains (u16 o.act 34)).foldl
      (fun w o => updSec o.idx (fun r => { r with tcRate := some x }) w) (pdCounted s)) := by
  have hw : p ≠ .setWorkState := by
    rintro rfl
    cases hx
  have hc : p ≠ .sectionControl := by
    rintro rfl
    cases hx
  rw [execTcProcessData_other h hw hc, hx]

theorem execTcProcessData_refused {p : Pd} (hw : p ≠ .setWorkState) (hc : p ≠ .sectionControl) (hn : tcRateOf p v = none) :
    exec (.tcProcessData e p v) s = .next (pdRefuse e p 3 (pdCounted s)) := by rw [execTcProcessData_other h hw hc, hn]

end

/-! ## Measurements (R396, R398) -/

theorem exec_measurementCommand (e : TcElem) (p : Pd) (c : Nat) (v : Int) (s : State) :
    exec (.measurementCommand e p c v) s = execMeasurementCommand e p c v s := rfl

section
variable {e : TcElem} {p : Pd} {c : Nat} {v : Int} (h : s.isb.tc = 4)
include h

theorem execMeasurementCommand_refused (hb : (c < 4 ∨ 8 < c ∨ c = 4 ∧ v < 100 ∨ c = 5 ∧ v ≤ 0) ∨ pdValue (pdCounted s) e p = none) :
    exec (.measurementCommand e p c v) s = .next (pdRefuse e p c (pdCounted s)) := by
  rw [exec_measurementCommand, execMeasurementCommand, if_neg (not_not.mpr h), ← pdCounted]
  dsimp only
  cases hv : pdValue (pdCounted s) e p with
  | none => rfl
  | some x => exact congrArg _ (if_pos (hb.resolve_right (by simp [hv])))

theorem execMeasurementCommand_kept {x : Int} (hb : ¬ (c < 4 ∨ 8 < c ∨ c = 4 ∧ v < 100 ∨ c = 5 ∧ v ≤ 0)) (hv : pdValue (pdCounted s) e p = some x) :
    exec (.measurementCommand e p c v) s = .next { pdCounted s with isb := { (pdCounted s).isb with
      meas := (s.isb.meas.filter fun y => !(y.elem == e && y.pd == p && y.cmd == c))
        ++ [{ elem := e, pd := p, cmd := c, value := v, at' := s.gtc, dist := s.isb.path, sent := x }] } } := by
  rw [exec_measurementCommand, execMeasurementCommand, if_neg (not_not.mpr h), ← pdCounted]
  dsimp only
  rw [hv]
  exact congrArg _ (if_neg hb)

end

theorem measDue_iff (s : State) (m : Meas) (x : Int) : (m.cmd = 4 → measDue s m x = true)
    ∧ (m.cmd = 5 → (measDue s m x = true ↔ m.value * 10000 ≤ (s.isb.path : Int) - m.dist))
    ∧ (m.cmd = 6 → (measDue s m x = true ↔ x ≠ m.sent ∧ x < m.value))
    ∧ (m.cmd = 7 → (measDue s m x = true ↔ x ≠ m.sent ∧ m.value < x))
    ∧ (m.cmd = 8 → (measDue s m x = true ↔ x ≠ m.sent ∧ m.value ≤ ((x - m.sent).natAbs : Int))) := by
  rw [measDue]
  refine ⟨?_, ?_, ?_, ?_, ?_⟩ <;> intro h <;> simp [h]

theorem exec_pdMeasurementTrigger (k : Nat) (s : State) : exec (.pdMeasurementTrigger k) s = execPdMeasurementTrigger k s := rfl

theorem execPdMeasurementTrigger_none {k : Nat} (h : s.isb.meas[k]? = none) : exec (.pdMeasurementTrigger k) s = .next s := by
  rw [exec_pdMeasurementTrigger, execPdMeasurementTrigger, h]

section
variable {k : Nat} {m : Meas} {u : State} (hm : s.isb.meas[k]? = some m) (h : s.isb.tc = 4)
  (hu : u = if m.cmd = 4 then toInstant (m.at' + m.value.toNat * 480000) s else s)
include hm h hu

/-- The measurement's value at its instant decides. -/
theorem execPdMeasurementTrigger_eq : exec (.pdMeasurementTrigger k) s = .next (match pdValue u m.elem m.pd with
    | none => u
    | some v => if !measDue u m v then u else pdSend m.elem m.pd { u with isb := { u.isb with
        meas := u.isb.meas.set k { m with at' := u.gtc, dist := u.isb.path, sent := v } } }) := by
  subst hu
  simp only [exec_pdMeasurementTrigger, execPdMeasurementTrigger, hm, if_neg (not_not.mpr h), show msTicks = 480000 from rfl] <;> rfl

theorem execPdMeasurementTrigger_noValue (hv : pdValue u m.elem m.pd = none) : exec (.pdMeasurementTrigger k) s = .next u := by
  rw [execPdMeasurementTrigger_eq hm h hu, hv]

theorem execPdMeasurementTrigger_notDue {x : Int} (hv : pdValue u m.elem m.pd = some x) (hd : measDue u m x = false) :
    exec (.pdMeasurementTrigger k) s = .next u := by
  rw [execPdMeasurementTrigger_eq hm h hu, hv]
  exact congrArg _ (if_pos (by simp [hd]))

theorem execPdMeasurementTrigger_sends {x : Int} (hv : pdValue u m.elem m.pd = some x) (hd : measDue u m x = true) :
    exec (.pdMeasurementTrigger k) s = .next (pdSend m.elem m.pd { u with isb := { u.isb with
      meas := u.isb.meas.set k { m with at' := u.gtc, dist := u.isb.path, sent := x } } }) := by
  rw [execPdMeasurementTrigger_eq hm h hu, hv]
  exact congrArg _ (if_neg (by simp [hd]))

end

/-! ## Work states that disagree (R398) -/

theorem exec_workStateDisagreeTimeout (h : Nat) (s : State) : exec (.workStateDisagreeTimeout h) s = execWorkStateDisagreeTimeout h s := rfl

theorem execWorkStateDisagreeTimeout_idle {h : Nat}
    (hn : objOf s h = none ∨ ∃ o, objOf s h = some o ∧ ((secOf o).disSince = none ∨ o.typ ≠ tySection)) :
    exec (.workStateDisagreeTimeout h) s = .next s := by
  rw [exec_workStateDisagreeTimeout, execWorkStateDisagreeTimeout]
  obtain hn | ⟨o, ho, hd⟩ := hn
  · rw [hn]
  · rw [ho]
    cases hs : (secOf o).disSince with
    | none => simp only [hs]
    | some t => simp only [hs, if_neg (hd.resolve_left (by simp [hs]))]

theorem execWorkStateDisagreeTimeout_shows {h t : Nat} {o : Obj} (ho : objOf s h = some o) (hd : (secOf o).disSince = some t) (ht : o.typ = tySection) :
    exec (.workStateDisagreeTimeout h) s = .next (updSec o.idx (fun r => { r with dis := true }) (toInstant (t + 240000000) s)) := by
  simp only [exec_workStateDisagreeTimeout, execWorkStateDisagreeTimeout, ho, hd, if_pos ht]
  rfl

end

/-! ## The statement -/

/-- Settles O51: each message by the client's state in which it does nothing, and by what it does otherwise. -/
theorem taskController : Obligations.TaskController := by
  refine ⟨fun _ _ _ v => ⟨execTcStatusReceived_unheard v, execTcStatusReceived_found v, execTcStatusReceived_stranger v, fun hi h ha x hx => ?_,
      fun hi h ha hv => execTcStatusReceived_kept hi ha h hv⟩, fun _ => ⟨execTcStatusLost_idle, execTcStatusLost_searches⟩,
    fun _ _ _ => ⟨execTcPoolResponse_idle, fun h hp hg => ?_, fun h hp hg => ?_⟩, fun _ => tc_inactive, fun s g v t act h hact => ?_, fun _ => rfl, rfl,
    fun s e v u h hu => ?_, fun _ => ⟨rfl, rfl, rfl⟩, fun s e p c v u bad h hu hb => ?_, fun _ _ => execPdMeasurementTrigger_none, measDue_iff,
    fun _ _ _ _ hm h hu => ⟨execPdMeasurementTrigger_noValue hm h hu, fun _ => execPdMeasurementTrigger_notDue hm h hu,
      fun _ => execPdMeasurementTrigger_sends hm h hu⟩, fun _ _ => execWorkStateDisagreeTimeout_idle, fun _ _ _ _ => execWorkStateDisagreeTimeout_shows⟩
  · subst hx
    exact execTcStatusReceived_version hi ha h
  · subst hg
    exact execTcPoolResponse_good h hp
  · subst hg
    exact execTcPoolResponse_bad h hp
  · have ha : act = tcAct t := hact
    subst ha
    exact ⟨execSetpointCondensedWorkState_group, fun h0 h16 => pdCounted_toInstant t s ▸ execSetpointCondensedWorkState_acts h h0 h16⟩
  · subst hu
    exact ⟨execTcProcessData_workState h, execTcProcessData_control h, fun _ _ => execTcProcessData_rate h, fun _ => execTcProcessData_refused h⟩
  · subst hu hb
    exact ⟨execMeasurementCommand_refused h, fun _ => execMeasurementCommand_kept h⟩

end Sys2Proof.Machine
end

section
/-! PROOFS. ISOBUS services (13, R389 to R392, R395, R399): configuration, pools, messages, address claiming, transport sessions
and status. -/

namespace Sys2Proof.Machine

section
variable {s : State} {d : Desc} {b : List Byte}

/-! ## ISB_CONFIG (R389) -/

theorem exec_isbConfig_passes (hp : passes 0x0D08 d s = true) : exec (.isbConfig d) s = .next (bodyIsbConfig d s) := congrArg _ (runDesc_passes _ hp)

theorem bodyIsbConfig_member (h : s.osl.role = 2) : bodyIsbConfig d s = fail d 0x0309 s := if_pos h

/-- A block without what may change of running services. -/
def cfgStill (b : List Byte) : List Byte := putAt (putAt b 4 [0]) 16 [0]

/-- The block starts the services with the stored pool that it names. -/
def cfgLoads (b : List Byte) (s : State) : Prop := (isbRun s = false ∧ u8 b 4 = 1) ∧ u8 b 17 = 1

/-- The configuration in force with a pool. -/
def cfgTaken (b : List Byte) (pool : Option (List Byte)) (s : State) : State :=
  { s with isb := { s.isb with
    cfg := b, pool := pool, claimDue := (!isbRun s && u8 b 4 == 1) || (s.isb.claimDue && u8 b 4 == 1)
    claim := if u8 b 4 = 0 then 0 else s.isb.claim, address := if u8 b 4 = 0 then 254 else s.isb.address } }

/-- The client follows the configuration; one that was refused starts again. -/
def cfgFollowed (b : List Byte) (pool : Option (List Byte)) (s : State) : State :=
  tcFollow (if s.isb.tc = 5 ∧ u8 b 16 = 1 then setTc 1 (cfgTaken b pool s) else cfgTaken b pool s)

/-- The stored pool that the block names. -/
def cfgPool (b : List Byte) (s : State) : Option (List Byte) := (s.isb.pools.find? fun x => x.1 == u8 b 18).map (·.2)

section
variable (hr : s.osl.role ≠ 2)
include hr

theorem bodyIsbConfig_bad {e : PErr} (h : isbCfgBad s (blockOf s d) = some e) : bodyIsbConfig d s = failWith d e.status e.result s := by
  simp only [bodyIsbConfig, if_neg hr, h]

variable (hb : isbCfgBad s (blockOf s d) = none)
include hb

theorem bodyIsbConfig_busy (h : isbRun s = true ∧ cfgStill (blockOf s d) ≠ cfgStill s.isb.cfg) : bodyIsbConfig d s = fail d stBusy s := by
  simp only [bodyIsbConfig, if_neg hr, hb]
  exact if_pos (by simpa [cfgStill] using h)

variable (hl : ¬ (isbRun s = true ∧ cfgStill (blockOf s d) ≠ cfgStill s.isb.cfg))
include hl

/-- A block that may change what it changes: the pool that it loads decides. -/
theorem bodyIsbConfig_judged : bodyIsbConfig d s =
    if (!isbRun s && u8 (blockOf s d) 4 == 1) = true ∧ u8 (blockOf s d) 17 = 1 ∧ (cfgPool (blockOf s d) s).isNone then fail d 0x0306 s
    else match (if (!isbRun s && u8 (blockOf s d) 4 == 1) = true ∧ u8 (blockOf s d) 17 = 1 then (cfgPool (blockOf s d) s).bind poolBad else none) with
      | some e => failWith d 0x0D06 (leBytes 1 e) s
      | none => ok d (cfgFollowed (blockOf s d)
          (if (!isbRun s && u8 (blockOf s d) 4 == 1) = true ∧ u8 (blockOf s d) 17 = 1 then cfgPool (blockOf s d) s else s.isb.pool) s) := by
  simp only [bodyIsbConfig, if_neg hr, hb]
  rw [if_neg (by simpa [cfgStill] using hl)]
  simp only [cfgFollowed, Bool.and_eq_true, decide_eq_true_eq, beq_iff_eq]
  rfl

theorem bodyIsbConfig_absent (h : cfgLoads (blockOf s d) s) (hn : cfgPool (blockOf s d) s = none) : bodyIsbConfig d s = fail d 0x0306 s := by
  obtain ⟨⟨hrun, h4⟩, h17⟩ := h
  rw [bodyIsbConfig_judged hr hb hl, if_pos (by simp [hrun, h4, h17, hn])]

variable {x : List Byte}

theorem bodyIsbConfig_badPool {e : Nat} (h : cfgLoads (blockOf s d) s) (hx : cfgPool (blockOf s d) s = some x) (he : poolBad x = some e) :
    bodyIsbConfig d s = failWith d 0x0D06 (leBytes 1 e) s := by
  obtain ⟨⟨hrun, h4⟩, h17⟩ := h
  rw [bodyIsbConfig_judged hr hb hl, if_neg (by simp [hx]), if_pos (by simp [hrun, h4, h17]), hx, Option.bind_some, he]

theorem bodyIsbConfig_loads (h : cfgLoads (blockOf s d) s) (hx : cfgPool (blockOf s d) s = some x) (he : poolBad x = none) :
    bodyIsbConfig d s = ok d (cfgFollowed (blockOf s d) (cfgPool (blockOf s d) s) s) := by
  obtain ⟨⟨hrun, h4⟩, h17⟩ := h
  have hc : (!isbRun s && u8 (blockOf s d) 4 == 1) = true ∧ u8 (blockOf s d) 17 = 1 := by simp [hrun, h4, h17]
  rw [bodyIsbConfig_judged hr hb hl, if_neg (by simp [hx]), if_pos hc, if_pos hc, hx, Option.bind_some, he]

theorem bodyIsbConfig_plain (h : ¬ cfgLoads (blockOf s d) s) : bodyIsbConfig d s = ok d (cfgFollowed (blockOf s d) s.isb.pool s) := by
  have hc : ¬ ((!isbRun s && u8 (blockOf s d) 4 == 1) = true ∧ u8 (blockOf s d) 17 = 1) := by simpa [cfgLoads] using h
  rw [bodyIsbConfig_judged hr hb hl, if_neg fun k => hc ⟨k.1, k.2.1⟩, if_neg hc, if_neg hc]

end

/-! ## The client follows the services (R394) -/

section
variable {u : State} (hu : u = if s.isb.claim = 2 then s else holdServices s)
include hu

theorem tcFollow_runs (h1 : isbRun u = true) (h2 : u8 u.isb.cfg 16 = 1) (h3 : u.isb.claim = 2) :
    tcFollow s = if u.isb.tc = 0 then setTc 1 u else u := by
  subst hu
  exact if_pos (by simp [h1, isbTcOn, h2, h3])

theorem tcFollow_stops (h : isbRun u = false ∨ u8 u.isb.cfg 16 ≠ 1 ∨ u.isb.claim ≠ 2) : tcFollow s = setTc 0 u := by
  subst hu
  refine if_neg ?_
  simp only [Bool.and_eq_true, isbTcOn, beq_iff_eq, not_and_or, Bool.not_eq_true, or_assoc]
  exact h

end

/-! ## Pools (R395) -/

theorem exec_isbPoolLoad_passes (hp : passes 0x0D09 d s = true) : exec (.isbPoolLoad d) s = .next (bodyPoolLoad d s) := congrArg _ (runDesc_passes _ hp)

theorem bodyPoolLoad_bad {e : Nat} (h : poolBad (blockOf s d) = some e) : bodyPoolLoad d s = failWith d 0x0D06 (leBytes 1 e) s := by
  rw [bodyPoolLoad, h]

theorem bodyPoolLoad_good (h : poolBad (blockOf s d) = none) : bodyPoolLoad d s = ok d (poolTake (blockOf s d) s) := by rw [bodyPoolLoad, h]

theorem poolTake_kept (b : List Byte) (h : s.isb.tc ≠ 5) : poolTake b s = { s with isb := { s.isb with pool := some b } } := if_neg h
theorem poolTake_restarts (b : List Byte) (h : s.isb.tc = 5) : poolTake b s = setTc 1 { s with isb := { s.isb with pool := some b } } := if_pos h

theorem exec_isbPoolSave_passes (hp : passes 0x0D0A d s = true) : exec (.isbPoolSave d) s = .next (bodyPoolSave d s) := congrArg _ (runDesc_passes _ hp)

theorem bodyPoolSave_param (h : u8 d.bytes 16 = 0 ∨ 4 < u8 d.bytes 16) : bodyPoolSave d s = fail d stBadParam s := if_pos h

section
variable (h0 : 0 < u8 d.bytes 16) (h4 : u8 d.bytes 16 ≤ 4)
include h0 h4

theorem bodyPoolSave_none (h : s.isb.pool = none) : bodyPoolSave d s = fail d stState s := by
  rw [bodyPoolSave, h]
  exact if_neg (by omega)

variable {p : List Byte} (h : s.isb.pool = some p)
include h

theorem bodyPoolSave_full (hs : 262144 < poolRoom (u8 d.bytes 16) s + p.length) : bodyPoolSave d s = fail d 0x0305 s := by
  rw [bodyPoolSave, h]
  exact (if_neg (by omega)).trans (if_pos hs)

theorem bodyPoolSave_writes (hs : poolRoom (u8 d.bytes 16) s + p.length ≤ 262144) :
    bodyPoolSave d s = mramWrite d (.pool (u8 d.bytes 16) p) s := by
  rw [bodyPoolSave, h]
  exact (if_neg (by omega)).trans (if_neg (Nat.not_lt.mpr hs))

end

theorem mramApply_pool {k : Nat} {p : List Byte} (hs : poolRoom k s + p.length ≤ 262144) : mramApply d (.pool k p) s = ok d (poolPut k p s) :=
  if_neg (Nat.not_lt.mpr hs)

/-! ## Messages (R392) -/

theorem exec_isbPgnSend_passes (hp : passes 0x0D0B d s = true) : exec (.isbPgnSend d) s = .next (bodyPgnSend d s) := congrArg _ (runDesc_passes _ hp)

/-- The block of a send is malformed. -/
def sendBad (b : List Byte) : Prop := 2 ^ 18 ≤ u32 b 0 ∨ 7 < u8 b 5 ∨ u16 b 6 ≠ 0 ∨ u8 b 4 = 255 ∧ 1785 < (b.drop 8).length

/-- The send accepted, under the next message number. -/
def sendTaken (d : Desc) (s : State) : State :=
  defer d 0x0D0B 0 0 [] s.isb.nextMsg { s with isb := { s.isb with nextMsg := s.isb.nextMsg + 1 } }

theorem bodyPgnSend_param (h : sendBad (blockOf s d)) : bodyPgnSend d s = fail d stBadParam s := if_pos h

section
variable (hb : ¬ sendBad (blockOf s d))
include hb

theorem bodyPgnSend_service (h : servicePgns.contains (u32 (blockOf s d) 0) = true) : bodyPgnSend d s = fail d 0x0D07 s :=
  (if_neg hb).trans (if_pos h)

variable (hg : servicePgns.contains (u32 (blockOf s d) 0) = false)
include hg

theorem bodyPgnSend_unclaimed (h : s.isb.claim ≠ 2) : bodyPgnSend d s = fail d 0x0D05 s :=
  (if_neg hb).trans ((if_neg (Bool.eq_false_iff.mp hg)).trans (if_pos h))

variable (hc : s.isb.claim = 2)
include hc

theorem bodyPgnSend_long (h : 262144 < ((blockOf s d).drop 8).length) :
    bodyPgnSend d s = failWith d 0x0D08 [2] (tpAborted (u8 (blockOf s d) 4) (u32 (blockOf s d) 0) 2 s) :=
  (if_neg hb).trans ((if_neg (Bool.eq_false_iff.mp hg)).trans ((if_neg (not_not.mpr hc)).trans (if_pos h)))

theorem bodyPgnSend_room (h : ((blockOf s d).drop 8).length ≤ 262144) (h8 : 8 < ((blockOf s d).drop 8).length) (h2 : 2 ≤ s.isb.send.length) :
    bodyPgnSend d s = fail d stNoResource s :=
  (if_neg hb).trans ((if_neg (Bool.eq_false_iff.mp hg)).trans ((if_neg (not_not.mpr hc)).trans ((if_neg (Nat.not_lt.mpr h)).trans (if_pos ⟨h8, h2⟩))))

theorem bodyPgnSend_taken (h : ((blockOf s d).drop 8).length ≤ 262144) (h2 : ((blockOf s d).drop 8).length ≤ 8 ∨ s.isb.send.length < 2) :
    bodyPgnSend d s = if ((blockOf s d).drop 8).length ≤ 8 then
        isbSend (u8 (blockOf s d) 5) (u32 (blockOf s d) 0) (u8 (blockOf s d) 4) (sendTaken d s).isb.address ((blockOf s d).drop 8) (some s.isb.nextMsg)
          (sendTaken d s)
      else { sendTaken d s with isb := { (sendTaken d s).isb with send := (sendTaken d s).isb.send
        ++ [{ peer := u8 (blockOf s d) 4, pgn := u32 (blockOf s d) 0, size := ((blockOf s d).drop 8).length, msg := some s.isb.nextMsg }] } } :=
  (if_neg hb).trans ((if_neg (Bool.eq_false_iff.mp hg)).trans ((if_neg (not_not.mpr hc)).trans ((if_neg (Nat.not_lt.mpr h)).trans (if_neg (by omega)))))

end

theorem isbFrame_portless {f : CanFrame} {n : Option Nat} (h : isbPort s = none) : isbFrame f n s = s := by rw [isbFrame, h]

section
variable {f : CanFrame} {n : Option Nat} {o : Obj} (h : isbPort s = some o)
include h

theorem isbFrame_waits (hk : ∀ k, k < 8 → (txOf o (24 + k)).frame ≠ none) : isbFrame f n s = { s with isb := { s.isb with out := s.isb.out ++ [(f, n)] } } := by
  have hf : (List.range 8).find? (fun k => (txOf o (24 + k)).frame.isNone) = none := by
    rw [List.find?_range_eq_none]
    simpa [Option.isSome_iff_ne_none] using hk
  simp only [isbFrame, h, hf]

theorem isbFrame_queued {k : Nat} (hk : k < 8) (hn : (txOf o (24 + k)).frame = none) (hj : ∀ j, j < k → (txOf o (24 + j)).frame ≠ none) :
    isbFrame f n s = updTx o.idx (24 + k) (fun t => { t with pend := true, since := s.gtc })
      (updTx o.idx (24 + k) (fun t => { t with frame := some f, msg := n }) s) := by
  have hf : (List.range 8).find? (fun k => (txOf o (24 + k)).frame.isNone) = some k := by
    rw [List.find?_range_eq_some]
    exact ⟨by simp [hn], List.mem_range.mpr hk, by simpa [Option.isSome_iff_ne_none] using hj⟩
  simp only [isbFrame, h, hf]
  rfl

end

theorem exec_isbPgnRead_passes (hp : passes 0x0D0C d s = true) : exec (.isbPgnRead d) s = .next (bodyPgnRead d s) := congrArg _ (runDesc_passes _ hp)

section
variable {u : State} {x : Deferred} (hu : u = defer d 0x0D0C 0 0 [] 0 s) (hx : u.hif.deferred.getLast? = some x)
include hu hx

theorem bodyPgnRead_waits (h : ∀ m ∈ u.isb.msgs, readFits x m = false) : bodyPgnRead d s = u := by
  have hf : u.isb.msgs.find? (readFits x) = none := List.find?_eq_none.mpr fun m hm => by simp [h m hm]
  subst hu
  simp only [bodyPgnRead, hx, hf]

/-- The oldest message that fits is taken. -/
theorem bodyPgnRead_takes {l r : List IsbMsg} {m : IsbMsg} (hm : u.isb.msgs = l ++ m :: r) (hf : readFits x m = true)
    (hl : ∀ y ∈ l, readFits x y = false) : bodyPgnRead d s = readTakes x m { u with isb := { u.isb with msgs := l ++ r } } := by
  have hfind : u.isb.msgs.find? (readFits x) = some m := by
    rw [List.find?_eq_some_iff_append]
    exact ⟨hf, l, r, hm, fun y hy => by simp [hl y hy]⟩
  have herase : u.isb.msgs.erase m = l ++ r := by
    have hn : m ∉ l := fun h => by simp [hl m h] at hf
    rw [hm, List.erase_append_right _ hn, List.erase_cons_head]
  subst hu
  simp only [bodyPgnRead, hx, hfind, herase]

end

theorem msgBytes_length (m : IsbMsg) : (msgBytes m).length = m.data.length + 8 := by
  simp [msgBytes, leBytes_length]
  omega

theorem deliverMsg_taken {m : IsbMsg} {x : Deferred} (h : s.hif.deferred.find? (fun x => x.op == 0x0D0C && readFits x m) = some x) :
    deliverMsg m s = deferredWrite x ((msgBytes m).take (dBlockLen x.st.desc)) { result := leBytes 4 (m.data.length + 8) } s := by
  simp only [deliverMsg, h, readTakes, msgBytes_length]

section
variable {m : IsbMsg} (h : s.hif.deferred.find? (fun x => x.op == 0x0D0C && readFits x m) = none)
include h

theorem deliverMsg_kept (hl : s.isb.msgs.length < 8) : deliverMsg m s = { s with isb := { s.isb with msgs := s.isb.msgs ++ [m] } } := by
  have hn : ¬ 8 < (s.isb.msgs ++ [m]).length := by simp; omega
  simp only [deliverMsg, h, if_neg hn]

theorem deliverMsg_dropped (hl : 8 ≤ s.isb.msgs.length) : deliverMsg m s
    = { s with isb := { s.isb with msgs := (s.isb.msgs ++ [m]).drop 1, dropped := satInc 32 s.isb.dropped } } := by
  have hn : 8 < (s.isb.msgs ++ [m]).length := by simp; omega
  simp only [deliverMsg, h, if_pos hn]

end

theorem exec_isbStatus_passes (hp : passes 0x0D0D d s = true) : exec (.isbStatus d) s = .next (bodyIsbStatus d s) := congrArg _ (runDesc_passes _ hp)

/-! ## Address claiming (R390) -/

theorem exec_addressClaimStart (s : State) : exec .addressClaimStart s = execAddressClaimStart s := rfl

theorem execAddressClaimStart_portless (h : isbPort s = none) : exec .addressClaimStart s = .next s := by
  rw [exec_addressClaimStart, execAddressClaimStart, h]

section
variable {o : Obj} (h : isbPort s = some o)
include h

theorem execAddressClaimStart_idle (hn : ¬ (isbRun s = true ∧ s.isb.claimDue = true ∧ isEnabled o = true ∧ (canOf o).busOff = false)) :
    exec .addressClaimStart s = .next s := by
  rw [exec_addressClaimStart, execAddressClaimStart, h]
  refine congrArg _ (if_pos ?_)
  simp only [Bool.or_eq_true, Bool.not_eq_true']
  by_contra hc
  simp only [not_or, Bool.not_eq_false, Bool.not_eq_true] at hc
  obtain ⟨⟨⟨h1, h2⟩, h3⟩, h4⟩ := hc
  exact hn ⟨h1, h2, h3, h4⟩

theorem execAddressClaimStart_claims (hr : isbRun s = true) (hd : s.isb.claimDue = true) (he : isEnabled o = true) (hb : (canOf o).busOff = false) :
    exec .addressClaimStart s = .next (tcFollow (sendClaim (u8 s.isb.cfg 5)
      { s with isb := { s.isb with claimDue := false, claim := 1, address := 254, trying := u8 s.isb.cfg 5, claimAt := s.gtc } })) := by
  rw [exec_addressClaimStart, execAddressClaimStart, h]
  exact congrArg _ (if_neg (by simp [hr, hd, he, hb]))

end

theorem exec_addressClaimTimeout (s : State) : exec .addressClaimTimeout s = execAddressClaimTimeout s := rfl

theorem execAddressClaimTimeout_idle (h : s.isb.claim ≠ 1) : exec .addressClaimTimeout s = .next s := congrArg _ (if_pos h)

theorem execAddressClaimTimeout_stands {u : State} (h : s.isb.claim = 1)
    (hu : u = { toInstant (s.isb.claimAt + 120000000) s with isb := { s.isb with claim := 2, address := s.isb.trying } }) :
    exec .addressClaimTimeout s = .next (confirmByClaim (tcFollow (releaseSuspended (raise0 0x0D48 0 (leBytes 1 s.isb.trying) u)))) := by
  rw [exec_addressClaimTimeout, execAddressClaimTimeout, if_neg (not_not.mpr h), show 250 * msTicks = 120000000 from rfl, hu]
  dsimp only
  rw [toInstant_isb]

theorem exec_addressClaimReceived (a n : Nat) (s : State) : exec (.addressClaimReceived a n) s = execAddressClaimReceived a n s := rfl

section
variable {a n : Nat}

theorem execAddressClaimReceived_unheard (h : isbRun s = false ∨ 253 < a) : exec (.addressClaimReceived a n) s = .next s :=
  congrArg _ (if_pos (by simpa using h))

/-- The address is the services' own, or the one that they claim. -/
def addressMine (a : Nat) (s : State) : Prop := s.isb.claim = 1 ∧ s.isb.trying = a ∨ s.isb.claim = 2 ∧ s.isb.address = a

/-- The address noted as another's. -/
def addressTaken (a : Nat) (s : State) : State := { s with isb := { s.isb with taken := s.isb.taken.filter (fun x => x != a) ++ [a] } }

variable (hr : isbRun s = true) (ha : a ≤ 253)
include hr ha

theorem execAddressClaimReceived_other (h : ¬ addressMine a s) : exec (.addressClaimReceived a n) s = .next (addressTaken a s) := by
  rw [exec_addressClaimReceived, execAddressClaimReceived, if_neg (by simp [hr, ha])]
  exact congrArg _ (if_pos (by
    rw [Bool.not_eq_true', decide_eq_false_iff_not]
    exact h))

variable (hm : addressMine a s)
include hm

theorem execAddressClaimReceived_answered (h : isbName s ≤ n) : exec (.addressClaimReceived a n) s = .next (sendClaim a s) := by
  rw [exec_addressClaimReceived, execAddressClaimReceived, if_neg (by simp [hr, ha])]
  exact congrArg _ ((if_neg (by
    simp only [Bool.not_eq_true', decide_eq_false_iff_not, not_not]
    exact hm)).trans (if_pos h))

theorem execAddressClaimReceived_lost (h : n < isbName s) : exec (.addressClaimReceived a n) s = .next (tcFollow (claimNext
    (if s.isb.claim = 2 then raise0 0x0D49 0 (leBytes 1 a ++ leBytes 8 n) (addressTaken a s) else addressTaken a s))) := by
  rw [exec_addressClaimReceived, execAddressClaimReceived, if_neg (by simp [hr, ha])]
  exact congrArg _ ((if_neg (by
    simp only [Bool.not_eq_true', decide_eq_false_iff_not, not_not]
    exact hm)).trans (if_neg (Nat.not_le.mpr h)))

end

theorem claimNext_none (h : bit (isbName s) 63 = false ∨ nextAddress s s.isb.trying = none) :
    claimNext s = raise0 0x0D4A 0 [] (sendClaim 254 { s with isb := { s.isb with claim := 3, address := 254 } }) := by
  have hn : (if bit (isbName s) 63 then nextAddress s s.isb.trying else none) = none := by
    obtain h | h := h <;> simp [h]
  rw [claimNext, hn]

theorem claimNext_tries {a : Nat} (hb : bit (isbName s) 63 = true) (h : nextAddress s s.isb.trying = some a) :
    claimNext s = sendClaim a { s with isb := { s.isb with claim := 1, address := 254, trying := a, claimAt := s.gtc } } := by
  rw [claimNext, if_pos hb, h]

theorem exec_requestForAddressClaimed (x : Nat) (s : State) : exec (.requestForAddressClaimed x) s = execRequestForAddressClaimed x s := rfl

/-- A request is answered by running services in every state of the claim but the first. -/
theorem execRequestForAddressClaimed_answers (x : Nat) (s : State) : (isbRun s = false → exec (.requestForAddressClaimed x) s = .next s)
    ∧ (isbRun s = true → s.isb.claim = 1 → exec (.requestForAddressClaimed x) s = .next (sendClaim s.isb.trying s))
    ∧ (isbRun s = true → s.isb.claim = 2 → exec (.requestForAddressClaimed x) s = .next (sendClaim s.isb.address s))
    ∧ (isbRun s = true → s.isb.claim = 3 → exec (.requestForAddressClaimed x) s = .next (sendClaim 254 s))
    ∧ ((s.isb.claim = 0 ∨ 3 < s.isb.claim) → exec (.requestForAddressClaimed x) s = .next s) := by
  rw [exec_requestForAddressClaimed, execRequestForAddressClaimed]
  refine ⟨fun hr => ?_, fun hr hc => ?_, fun hr hc => ?_, fun hr hc => ?_, fun hc => ?_⟩
  · rw [if_pos (by simp [hr])]
  · rw [if_neg (by simp [hr]), if_pos hc]
  · rw [if_neg (by simp [hr]), if_neg (by omega), if_pos hc]
  · rw [if_neg (by simp [hr]), if_neg (by omega), if_neg (by omega), if_pos hc]
  · rw [if_neg (c := s.isb.claim = 1) (by omega), if_neg (c := s.isb.claim = 2) (by omega), if_neg (c := s.isb.claim = 3) (by omega), ite_self]

/-! ## Transport sessions (R391) -/

theorem exec_tpConnectionRequest (x p n : Nat) (bc : Bool) (s : State) :
    exec (.tpConnectionRequest x p n bc) s = execTpConnectionRequest x p n bc s := rfl

section
variable {x p n : Nat} {bc : Bool}

theorem execTpConnectionRequest_idle (h : isbRun s = false ∨ s.isb.claim ≠ 2) : exec (.tpConnectionRequest x p n bc) s = .next s :=
  congrArg _ (if_pos (by simpa using h))

variable (hr : isbRun s = true) (hc : s.isb.claim = 2)
include hr hc

theorem execTpConnectionRequest_broadcast (hp : subscribed s p = false) : exec (.tpConnectionRequest x p n true) s = .next s := by
  rw [exec_tpConnectionRequest, execTpConnectionRequest]
  exact congrArg _ ((if_neg (by simp [hr, hc])).trans (if_pos (by simp [hp])))

theorem execTpConnectionRequest_unwanted (hp : subscribed s p = false) (hv : servicePgns.contains p = false) :
    exec (.tpConnectionRequest x p n false) s = .next (tpAborted x p ((takeFree s).1 % 256)
      (sendAbort x p ((takeFree s).1 % 256) (decide (1785 < n)) (takeFree s).2)) := by
  rw [exec_tpConnectionRequest, execTpConnectionRequest]
  exact congrArg _ ((if_neg (by simp [hr, hc])).trans ((if_neg (by simp)).trans (if_pos (by simp only [hp, hv]; rfl))))

/-- A group that somebody takes: the limits decide. -/
theorem execTpConnectionRequest_wanted (hw : subscribed s p = true ∨ bc = false ∧ servicePgns.contains p = true) :
    exec (.tpConnectionRequest x p n bc) s = .next (if 4 ≤ s.isb.recv.length ∨ 262144 < n then
        tpAborted x p 2 (if bc then s else sendAbort x p 2 (decide (1785 < n)) s)
      else { s with isb := { s.isb with recv := s.isb.recv ++ [{ peer := x, pgn := p, size := n }] } }) := by
  have h1 : (bc && !subscribed s p) = false := by
    obtain h | ⟨h, -⟩ := hw
    · rw [h, Bool.not_true, Bool.and_false]
    · rw [h, Bool.false_and]
  have h2 : (!subscribed s p && !servicePgns.contains p) = false := by
    obtain h | ⟨-, h⟩ := hw
    · rw [h, Bool.not_true, Bool.false_and]
    · rw [h, Bool.not_true, Bool.and_false]
  rw [exec_tpConnectionRequest, execTpConnectionRequest]
  exact congrArg _ ((if_neg (by simp [hr, hc])).trans ((if_neg (by simp [h1])).trans (if_neg (Bool.eq_false_iff.mp h2))))

end

theorem exec_tpMessageComplete (w : Bool) (q p pr : Nat) (bs : List Byte) (s : State) :
    exec (.tpMessageComplete w q p pr bs) s = execTpMessageComplete w q p pr bs s := rfl
theorem exec_tpTimeout (w : Bool) (q p r : Nat) (s : State) : exec (.tpTimeout w q p r) s = execTpTimeout w q p r s := rfl

section
variable {q p pr r : Nat} {bs : List Byte} {x : TpSession}

theorem tpReceive_none (h : sessionWith s.isb.recv q p = none) :
    exec (.tpMessageComplete false q p pr bs) s = .next s ∧ exec (.tpTimeout false q p r) s = .next s := by
  rw [exec_tpMessageComplete, exec_tpTimeout, execTpMessageComplete, execTpTimeout, h]
  exact ⟨rfl, rfl⟩

theorem tpSend_none (h : sessionWith s.isb.send q p = none) :
    exec (.tpMessageComplete true q p pr bs) s = .next s ∧ exec (.tpTimeout true q p r) s = .next s := by
  rw [exec_tpMessageComplete, exec_tpTimeout, execTpMessageComplete, execTpTimeout, h]
  exact ⟨rfl, rfl⟩

/-- The session of a received message ended. -/
def recvEnded (x : TpSession) (s : State) : State := { s with isb := { s.isb with recv := s.isb.recv.erase x } }

section
variable (h : sessionWith s.isb.recv q p = some x)
include h

theorem execTpMessageComplete_receives : exec (.tpMessageComplete false q p pr bs) s = .next (if x.size ≠ bs.length then s
    else if subscribed s p then deliverMsg { pgn := p, src := q, prio := pr % 8, data := bs } (recvEnded x s) else recvEnded x s) := by
  rw [exec_tpMessageComplete, execTpMessageComplete, h]
  rfl

theorem execTpTimeout_receive : exec (.tpTimeout false q p r) s = .next (tpAborted q p r (recvEnded x s)) := by
  rw [exec_tpTimeout, execTpTimeout, h]
  rfl

end

section
variable (h : sessionWith s.isb.send q p = some x)
include h

theorem execTpMessageComplete_sends : exec (.tpMessageComplete true q p pr bs) s = .next (if s.isb.claim ≠ 2 then s
    else pgnSendEnd (x.msg.getD 0) {} { s with isb := { s.isb with send := s.isb.send.erase x } }) := by
  rw [exec_tpMessageComplete, execTpMessageComplete, h]
  rfl

theorem execTpTimeout_send : exec (.tpTimeout true q p r) s = .next (pgnSendEnd (x.msg.getD 0) { status := 0x0D08, result := leBytes 1 r }
    (tpAborted q p r { s with isb := { s.isb with send := s.isb.send.erase x } })) := by
  rw [exec_tpTimeout, execTpTimeout, h]
  rfl

end

end

end

/-! ## The statement -/

/-- Settles O50: each command and happening by the conditions under which it is refused or does nothing, and by what it does
otherwise. -/
theorem isobusServices : Obligations.IsobusServices := by
  refine ⟨fun s d hp h => by rw [exec_isbConfig_passes hp, bodyIsbConfig_member h], fun s d b hp hb hr => ?_, fun _ _ => ⟨setTc_same, setTc_passes⟩,
    fun _ _ hu => ⟨tcFollow_runs hu, tcFollow_stops hu⟩, fun s d hp => ?_, fun s d k hp hk => ?_, fun s d b g n bad u hp hb hg hn hbad hu => ?_,
    fun _ _ _ => ⟨isbFrame_portless, fun _ => isbFrame_waits, fun _ _ ho => isbFrame_queued ho⟩, fun s d u x hp hu hx => ?_, fun s d i hp hi => ?_,
    fun _ => execAddressClaimStart_portless, fun s o a on ho ha hon => ?_, fun _ => execAddressClaimTimeout_idle,
    fun _ _ => execAddressClaimTimeout_stands, fun _ _ _ => execAddressClaimReceived_unheard, fun s a n mine u hr ha hm hu => ?_,
    fun _ => ⟨claimNext_none, fun _ => claimNext_tries⟩, fun s x => execRequestForAddressClaimed_answers x s, fun _ _ _ _ _ => execTpConnectionRequest_idle,
    fun s x p n bc r hr hc hfree => ?_, fun _ _ _ _ _ _ => ⟨tpReceive_none, tpSend_none⟩, fun s q p pr bs x u h hu => ?_, fun s q p pr bs x h => ?_,
    fun _ _ => ⟨fun _ => deliverMsg_taken, deliverMsg_kept, deliverMsg_dropped⟩⟩
  · subst hb
    rw [exec_isbConfig_passes hp]
    refine ⟨fun e h => congrArg _ (bodyIsbConfig_bad hr h), fun locked start load u v hb hl hst hld hu hv => ?_⟩
    have hpool : load = cfgPool (blockOf s d) s := hld
    have hfol : v = fun pool => cfgFollowed (blockOf s d) pool s := by rw [hv, hu]; rfl
    subst hl hst hpool hfol
    exact ⟨fun h => congrArg _ (bodyIsbConfig_busy hr hb h), fun hl h h17 hn => congrArg _ (bodyIsbConfig_absent hr hb hl ⟨h, h17⟩ hn),
      fun x e hl h h17 hx he => congrArg _ (bodyIsbConfig_badPool hr hb hl ⟨h, h17⟩ hx he),
      fun x hl h h17 hx he => congrArg _ (bodyIsbConfig_loads hr hb hl ⟨h, h17⟩ hx he), fun hl h => congrArg _ (bodyIsbConfig_plain hr hb hl h)⟩
  · rw [exec_isbPoolLoad_passes hp]
    refine ⟨fun e h => congrArg _ (bodyPoolLoad_bad h), fun h h5 => ?_, fun h h5 => ?_⟩
    · rw [bodyPoolLoad_good h, poolTake_kept _ h5]
    · rw [bodyPoolLoad_good h, poolTake_restarts _ h5]
  · subst hk
    rw [exec_isbPoolSave_passes hp]
    refine ⟨fun h => congrArg _ (bodyPoolSave_param h), fun h0 h4 h => congrArg _ (bodyPoolSave_none h0 h4 h), fun p h0 h4 h =>
      ⟨fun hs => congrArg _ (bodyPoolSave_full h0 h4 h hs), fun hs hw => ?_, fun hs hw => ?_⟩⟩
    · rw [bodyPoolSave_writes h0 h4 h hs, mramWrite, if_neg (by simp [hw]), mramApply_pool hs]
    · rw [bodyPoolSave_writes h0 h4 h hs, mramWrite, if_pos hw]
  · subst hb hg hn hbad
    have hu' : u = sendTaken d s := hu
    subst hu'
    rw [exec_isbPgnSend_passes hp]
    refine ⟨fun h => congrArg _ (bodyPgnSend_param h), fun hb h => congrArg _ (bodyPgnSend_service hb h),
      fun hb hg h => congrArg _ (bodyPgnSend_unclaimed hb hg h), fun hb hg hc => ⟨fun h => congrArg _ (bodyPgnSend_long hb hg hc h),
        fun h h8 h2 => congrArg _ (bodyPgnSend_room hb hg hc h h8 h2), fun h8 => ?_, fun h h8 h2 => ?_⟩⟩
    · rw [bodyPgnSend_taken hb hg hc (by omega) (.inl h8), if_pos h8]
    · rw [bodyPgnSend_taken hb hg hc h (.inr h2), if_neg (Nat.not_le.mpr h8)]
  · rw [exec_isbPgnRead_passes hp]
    exact ⟨fun h => congrArg _ (bodyPgnRead_waits hu hx h), fun l m r hm hf hl => congrArg _ (bodyPgnRead_takes hu hx hm hf hl)⟩
  · subst hi
    rw [exec_isbStatus_passes hp]
    rfl
  · subst ha hon
    exact ⟨execAddressClaimStart_idle ho, fun ⟨h1, h2, h3, h4⟩ => execAddressClaimStart_claims ho h1 h2 h3 h4⟩
  · subst hm
    have hu' : u = addressTaken a s := hu
    subst hu'
    refine ⟨execAddressClaimReceived_other hr ha, execAddressClaimReceived_answered hr ha, fun hm h hc => ?_, fun hm h hc => ?_⟩
    · rw [execAddressClaimReceived_lost hr ha hm h, if_pos hc]
    · rw [execAddressClaimReceived_lost hr ha hm h, if_neg (by omega)]
  · subst hfree
    refine ⟨fun hb hp => ?_, fun hb hp hv => ?_, fun hw => ⟨fun hb h => ?_, fun hb h => ?_, fun h4 hn => ?_⟩⟩
    · rw [hb, execTpConnectionRequest_broadcast hr hc hp]
    · rw [hb, execTpConnectionRequest_unwanted hr hc hp hv]
    · rw [execTpConnectionRequest_wanted hr hc hw, if_pos h, if_pos hb]
    · rw [execTpConnectionRequest_wanted hr hc hw, if_pos h, if_neg (by simp [hb])]
    · rw [execTpConnectionRequest_wanted hr hc hw, if_neg (by omega)]
  · have hu' : u = recvEnded x s := hu
    subst hu'
    refine ⟨fun hs hp => ?_, fun hs hp => ?_, fun hs => ?_, fun r => execTpTimeout_receive h⟩
    · rw [execTpMessageComplete_receives h, if_neg (not_not.mpr hs), if_pos hp]
    · rw [execTpMessageComplete_receives h, if_neg (not_not.mpr hs), if_neg (by simp [hp])]
    · rw [execTpMessageComplete_receives h, if_pos hs]
  · refine ⟨fun hc => ?_, fun hc => ?_, fun r => execTpTimeout_send h⟩
    · rw [execTpMessageComplete_sends h, if_neg (not_not.mpr hc)]
    · rw [execTpMessageComplete_sends h, if_pos hc]

end Sys2Proof.Machine
end

section
/-! PROOFS. FS-216 mode (14, R410 to R415, R420 to R422, R426, R429): frames, registers, ticks, ENA_N, communication loss, the
password interface, promotion and status. -/

namespace Sys2Proof.Machine

section
variable {s : State} {d : Desc}

/-! ## Frames (R409, R410) -/

theorem exec_legacyFrame (w : Nat) (s : State) : exec (.legacyFrame w) s = execLegacyFrame w s := rfl
theorem exec_legacyInvalidFrame (c w : Nat) (s : State) : exec (.legacyInvalidFrame c w) s = execLegacyInvalidFrame c w s := rfl
theorem exec_legacyTick (s : State) : exec .legacyTick s = execLegacyTick s := rfl
theorem exec_enaNEdge (b : Bool) (s : State) : exec (.enaNEdge b) s = execEnaNEdge b s := rfl
theorem exec_legacyComloss (s : State) : exec .legacyComloss s = execLegacyComloss s := rfl

/-- Outside the mode the block does nothing. -/
theorem legacy_inactive (h : s.leg.active = false) : (∀ w, exec (.legacyFrame w) s = .next s) ∧ (∀ c w, exec (.legacyInvalidFrame c w) s = .next s)
    ∧ exec .legacyTick s = .next s ∧ (∀ b, exec (.enaNEdge b) s = .next s) ∧ exec .legacyComloss s = .next s := by
  have hc : (!s.leg.active) = true := by simp [h]
  exact ⟨fun _ => congrArg _ (if_pos hc), fun _ _ => congrArg _ (if_pos hc), congrArg _ (if_pos hc), fun _ => congrArg _ (if_pos hc),
    congrArg _ (if_pos (by simp [h]))⟩

theorem lowByte_mod (w : Nat) : w % 2 ^ 32 % 256 = w % 256 := Nat.mod_mod_of_dvd w (by decide)

section
variable {w : Nat} (ha : s.leg.active = true)
include ha

theorem execLegacyFrame_good (h : w % 2 ^ 32 % 256 = legCheck (w % 2 ^ 32)) : exec (.legacyFrame w) s = .next (legExecute (w % 2 ^ 32) (legShift s)) := by
  rw [exec_legacyFrame, execLegacyFrame, if_neg (by simp [ha])]
  exact congrArg _ (if_pos h)

theorem execLegacyFrame_bad (h : w % 2 ^ 32 % 256 ≠ legCheck (w % 2 ^ 32)) : exec (.legacyFrame w) s = .next (legInvalid 2 (legShift s)) := by
  rw [exec_legacyFrame, execLegacyFrame, if_neg (by simp [ha])]
  exact congrArg _ (if_neg h)

theorem execLegacyInvalidFrame_good (h : w % 2 ^ 32 % 256 = legCheck (w % 2 ^ 32)) :
    exec (.legacyInvalidFrame 32 w) s = .next s := by
  rw [lowByte_mod] at h
  rw [exec_legacyInvalidFrame, execLegacyInvalidFrame, if_neg (by simp [ha]), if_neg (by decide), if_neg (not_not.mpr h)]

theorem execLegacyInvalidFrame_bad (h : w % 2 ^ 32 % 256 ≠ legCheck (w % 2 ^ 32)) :
    exec (.legacyInvalidFrame 32 w) s = .next (legInvalid 2 (legShift s)) := by
  rw [lowByte_mod] at h
  rw [exec_legacyInvalidFrame, execLegacyInvalidFrame, if_neg (by simp [ha]), if_neg (by decide), if_pos h]

theorem execLegacyInvalidFrame_clocks {c : Nat} (h : c ≠ 32) : exec (.legacyInvalidFrame c w) s = .next (legInvalid 1 (legShift s)) := by
  rw [exec_legacyInvalidFrame, execLegacyInvalidFrame, if_neg (by simp [ha]), if_pos h]

end

theorem legInvalid_eq (s : State) (c : Nat) : legInvalid c s = { raiseLimited 480000000 0x0E43 0 0 0 0 [] 4 4 { s with leg := { s.leg with
      stat := setBit s.leg.stat 6 true, framesBad := satInc 32 s.leg.framesBad } } with
    leg := { s.leg with stat := setBit s.leg.stat 6 true, framesBad := satInc 32 s.leg.framesBad, reply := some (0x7F, c) } } := by
  have hl := (touches_raiseLimited 480000000 0x0E43 0 0 0 0 [] 4 4 { s with leg := { s.leg with
      stat := setBit s.leg.stat 6 true, framesBad := satInc 32 s.leg.framesBad } }).leg
  rw [legInvalid, setReply, show secTicks = 480000000 from rfl]
  dsimp only
  rw [hl]

/-! ## Execution (R411, R412, R421) -/

/-- The state in which a valid frame acts: counted, the loss timer started, KEY_HI and PWD_HI of the frame before taken. -/
def legNoted (s : State) : State := confirmByFrame { s with leg := { s.leg with
  keyHi := none, pwdHi := none, framesOk := satInc 32 s.leg.framesOk, frameAt := s.gtc, armed := true } }

/-- The registers whose writes a promotion that waits refuses. -/
def legPinned (a : Nat) : Prop := a = 0x02 ∨ a = 0x08 ∨ a = 0x0A ∨ a = 0x0B ∨ 0x10 ≤ a ∧ a < 0x20

theorem legPinned_iff {a : Nat} : ([0x02, 0x08, 0x0A, 0x0B].contains a || decide (0x10 ≤ a ∧ a < 0x20)) = true ↔ legPinned a := by
  simp [legPinned, or_assoc]

theorem legExecute_eq (w : Nat) (s : State) : legExecute w s = match legRefuse (legNoted s) (bits w 24 7) (bit w 31) with
    | some e => setReply 0x7F e (legNoted s)
    | none =>
      if bit w 31 then
        if bits w 24 7 = 0x3E ∧ bits w 8 16 = 0xA5C3 then legWrite (bits w 24 7) (bits w 8 16) s.leg.keyHi s.leg.pwdHi (legNoted s)
        else setReply (bits w 24 7) (legValue (bits w 24 7) (legWrite (bits w 24 7) (bits w 8 16) s.leg.keyHi s.leg.pwdHi (legNoted s)))
          (legWrite (bits w 24 7) (bits w 8 16) s.leg.keyHi s.leg.pwdHi (legNoted s))
      else setReply (bits w 24 7) (legRead (bits w 24 7) (legNoted s)).1 (legRead (bits w 24 7) (legNoted s)).2 := rfl

section
variable {u : State} {a : Nat}

theorem legRefuse_promoting (hp : u.leg.promoting = true) (h : legPinned a) : legRefuse u a true = some 3 :=
  if_pos (by simpa [hp] using legPinned_iff.mpr h)

theorem legRefuse_lockout (hl : u.leg.lockEnd ≠ none) (h : a = 0x38 ∨ a = 0x39) : legRefuse u a true = some 4 := by
  have hn : ¬ legPinned a := by
    rw [legPinned]
    omega
  have hc := legPinned_iff.not.mpr hn
  exact (if_neg fun k => hc (Bool.and_elim_right k)).trans (if_pos (by simpa [Option.isSome_iff_ne_none, hl] using h))

theorem legRefuse_none (hp : ¬ (u.leg.promoting = true ∧ legPinned a)) (hl : ¬ (u.leg.lockEnd ≠ none ∧ (a = 0x38 ∨ a = 0x39))) :
    legRefuse u a true = none := by
  rw [← legPinned_iff] at hp
  exact (if_neg (by simpa using hp)).trans (if_neg (by simpa [Option.isSome_iff_ne_none] using hl))

theorem legRefuse_read : legRefuse u a false = none := rfl

end

/-! ## Writes (R411, R412, R421) -/

/-- Every register but those that the password does not protect is written through `legRwp`. -/
theorem legWrite_protected {a : Nat} (h : a = 0x08 ∨ a = 0x0A ∨ a = 0x0B ∨ 0x10 ≤ a ∧ a < 0x20 ∨ a = 0x30 ∨ 0x70 ≤ a) (v : Nat) (key pwd : Option Nat)
    (s : State) : legWrite a v key pwd s = legRwp a v s := by
  unfold legWrite
  split
  case h_9 => rfl
  all_goals omega

theorem legRwp_locked {a v : Nat} (h : s.leg.unlocked = false) : legRwp a v s = s := if_pos (by simp [h])

theorem legWrite_keyLo (v : Nat) (key pwd : Option Nat) (s : State) : legWrite 0x39 v key pwd s = legUnlock v key (legSeen s) := rfl
theorem legPassword_legSeen (s : State) : legPassword (legSeen s) = legPassword s := rfl

theorem legUnlock_right {v h : Nat} {key : Option Nat} (hk : key = some h) (hp : h * 65536 + v = legPassword s) :
    legUnlock v key s = { s with leg := { s.leg with unlocked := true, fails := 0, lockLen := 0 } } := by
  rw [legUnlock, hk]
  exact if_pos (by simp [hp])

theorem legUnlock_wrong {v : Nat} {key : Option Nat} (h : ∀ k, key = some k → k * 65536 + v ≠ legPassword s) : legUnlock v key s = legFail s :=
  if_neg (by simpa [Option.any_eq_true] using h)

/-- A new password is kept, and written unless a supply warning runs. -/
theorem legNewPwd_eq {x : Nat} (h : x ≠ 0xFFFFFFFF) : legNewPwd x s
    = if s.pwr.bow then { s with leg := { s.leg with pwdNew := some x } } else { s with leg := { s.leg with password := x, pwdNew := none } } := if_neg h

theorem legWrite_pwdLo {v h : Nat} (hu : s.leg.unlocked = true) (key : Option Nat) :
    legWrite 0x3D v key (some h) s = legNewPwd (h * 65536 + v) (legSeen s) := if_pos hu

theorem legWrite_pwdLo_ignored {v : Nat} {key pwd : Option Nat} (h : pwd = none ∨ s.leg.unlocked = false) :
    legWrite 0x3D v key pwd s = legSeen s := by
  cases pwd with
  | none => rfl
  | some x => exact if_neg (Bool.eq_false_iff.mp (h.resolve_left (by simp)))

theorem legWrite_pwdHi {v : Nat} {key pwd : Option Nat} :
    legWrite 0x3C v key pwd s = { legSeen s with leg := { (legSeen s).leg with pwdHi := if s.leg.unlocked then some v else none } } := rfl

section
variable {v : Nat} (h : s.leg.unlocked = true)
include h

theorem legRwp_unlocked_delay {k : Nat} (hk : k < 16) : legRwp (0x10 + k) v s = { s with leg := { s.leg with dly := s.leg.dly.set k v } } := by
  refine (if_neg (by simp [h])).trans ((if_pos (by omega)).trans ?_)
  rw [Nat.add_sub_cancel_left]

theorem legWrite_unlocked_delay {k : Nat} (key pwd : Option Nat) (hk : k < 16) :
    legWrite (0x10 + k) v key pwd s = { s with leg := { s.leg with dly := s.leg.dly.set k v } } :=
  (legWrite_protected (by omega) v key pwd s).trans (legRwp_unlocked_delay h hk)

/-- An unlocked write of each protected register but the delays. -/
theorem legWrite_unlocked (key pwd : Option Nat) : legWrite 0x08 v key pwd s = legFollow { s with leg := { s.leg with mask := v } }
    ∧ legWrite 0x0A v key pwd s = { s with leg := { s.leg with stagger := v % 256 } } ∧ legWrite 0x0B v key pwd s = legCfg v s
    ∧ legWrite 0x30 v key pwd s = { s with leg := { s.leg with calgain := v % 4096 } } ∧ legWrite 0x70 v key pwd s = { s with leg := { s.leg with xctl := v % 4 } }
    ∧ legWrite 0x71 v key pwd s = { s with leg := { s.leg with xaddr := v } } ∧ legWrite 0x72 v key pwd s = { s with leg := { s.leg with xlo := v } }
    ∧ legWrite 0x73 v key pwd s = windowWrite v s := by
  have hl : ¬ (!s.leg.unlocked) = true := by simp [h]
  exact ⟨(if_neg hl).trans (if_neg (by decide)), (if_neg hl).trans (if_neg (by decide)), (if_neg hl).trans (if_neg (by decide)),
    (if_neg hl).trans (if_neg (by decide)), (if_neg hl).trans (if_neg (by decide)), (if_neg hl).trans (if_neg (by decide)),
    (if_neg hl).trans (if_neg (by decide)), (if_neg hl).trans (if_neg (by decide))⟩

end

theorem legFail_few (h : min 255 (s.leg.fails + 1) < 5) : legFail s = raise0 0x0E41 0 (leBytes 1 (min 255 (s.leg.fails + 1)) ++ [0, 0, 0] ++ leBytes 4 0)
    { s with leg := { s.leg with fails := min 255 (s.leg.fails + 1), attemptsBad := satInc 32 s.leg.attemptsBad } } := by
  rw [legFail]
  simp only [if_pos h]

theorem legFail_locks {len : Nat} (h : 5 ≤ min 255 (s.leg.fails + 1)) (hl : len = if s.leg.lockLen = 0 then 30 else min 3600 (2 * s.leg.lockLen)) :
    legFail s = raise0 0x0E41 0 (leBytes 1 (min 255 (s.leg.fails + 1)) ++ [0, 0, 0] ++ leBytes 4 len) { s with leg := { s.leg with
      fails := min 255 (s.leg.fails + 1), attemptsBad := satInc 32 s.leg.attemptsBad, lockLen := len, lockEnd := some (s.gtc + len * 480000000) } } := by
  rw [legFail]
  simp only [if_neg (Nat.not_lt.mpr h), ← hl]
  rfl

/-! ## Reads (R411, R424) -/

/-- A read outside the window, the fault registers and STAT gives the value and changes nothing. -/
theorem legRead_plain {a : Nat} (h4 : a ≠ 4) (h5 : a ≠ 5) (h6 : a ≠ 6) (h7 : a ≠ 7) (h : a < 0x70 ∨ s.leg.unlocked = false) :
    legRead a s = (legValue a s, s) := by
  have hw : ¬ (a = 0x72 ∧ s.leg.unlocked = true) := by
    rintro ⟨rfl, hu⟩
    simp [hu] at h
  unfold legRead
  rw [if_neg hw]
  refine Prod.ext rfl ?_
  dsimp only
  split
  · exact absurd rfl h4
  · exact absurd rfl h5
  · exact absurd rfl h6
  · exact absurd rfl h7
  · exact if_neg (Bool.eq_false_iff.mp (h.resolve_left (by decide)))
  · exact if_neg (Bool.eq_false_iff.mp (h.resolve_left (by decide)))
  · rfl

/-! ## The tick, ENA_N and communication loss (R405, R413 to R415, R420) -/

theorem legTurns_stays {n : Nat} (h : s.leg.queue = [] ∨ s.gtc < s.leg.stagAt) : legTurns s (n + 1) = s := if_pos (by simpa using h)

theorem legTurns_turns {n k : Nat} {r : List Nat} (hq : s.leg.queue = k :: r) (h : s.leg.stagAt ≤ s.gtc) :
    legTurns s (n + 1) = legTurns (legApply k true { s with leg := { s.leg with queue := r, stagAt := s.gtc + s.leg.stagger * 480000 } }) n := by
  rw [legTurns, if_neg (by simp [hq, h]), legTurn, hq]
  rfl

/-- The tick at the present instant: the watchdog served, what is due taken from what waits. -/
def legDue (t : State) : List (Nat × Bool × Nat) := t.leg.pend.filter fun x => decide (x.2.2 ≤ t.gtc)
def legOffs (t : State) : List (Nat × Bool × Nat) := (legDue t).filter fun x => !x.2.1
def legOns (t : State) : List Nat := (List.range 16).filter fun k => ((legDue t).any fun x => x.2.1 && x.1 == k) && !((legOffs t).any fun x => x.1 == k)

def legServed (t : State) : State :=
  { t with
    leg := { t.leg with
      tick := t.gtc, queue := t.leg.queue.filter fun k => !((legOffs t).any fun x => x.1 == k), pend := t.leg.pend.filter fun x => decide (t.gtc < x.2.2) }
    isl := { t.isl with wdtServed := t.gtc } }

/-- The turn-offs applied, and the requests of the sections that are held off kept. -/
def legFell (t : State) : State := (legOffs t).foldl (fun w x => legApply x.1 false w) (legServed t)
def legAsked (t : State) : State := ((legOns t).filter (legHeld (legFell t))).foldl (fun w k => legWant k true w) (legFell t)

/-- The turn-ons queued, and those whose turn has come applied. -/
def legTicked (t : State) : State :=
  legSticky (legTurns { legAsked t with leg := { (legAsked t).leg with
    stagAt := if (legAsked t).leg.queue.isEmpty then (legAsked t).gtc else (legAsked t).leg.stagAt
    queue := (legAsked t).leg.queue ++ (legOns t).filter fun k => !legHeld (legAsked t) k } } 16)

theorem tickInstant_eq (s : State) : max (nextTick s.leg.tick) (s.gtc / tickTicks * tickTicks)
    = max (s.leg.tick / 480000 * 480000 + 480000) (s.gtc / 480000 * 480000) := by rw [nextTick, tickTicks]

theorem execLegacyTick_ticks (ha : s.leg.active = true) : exec .legacyTick s
    = .next (legTicked (toInstant (max (s.leg.tick / 480000 * 480000 + 480000) (s.gtc / 480000 * 480000)) s)) := by
  rw [exec_legacyTick, execLegacyTick, if_neg (by simp [ha]), tickInstant_eq]
  rfl

theorem execEnaNEdge_follows {hi : Bool} (ha : s.leg.active = true) : exec (.enaNEdge hi) s
    = .next (legFollow { s with leg := { s.leg with enaHigh := hi, stat := setBit s.leg.stat 7 (bit s.leg.stat 7 || hi) } }) :=
  congrArg _ (if_neg (by simp [ha]))

theorem execLegacyComloss_unarmed (h : s.leg.armed = false) : exec .legacyComloss s = .next s := congrArg _ (if_pos (by simp [h]))

/-- The loss: every request falls and the interface locks. -/
def legLost (t : State) : State :=
  raise0 0x0E40 0 (leBytes 2 (legOutst t)) ((List.range 16).foldl (fun w k => legApply k false w) { t with leg := { t.leg with
    pend := [], queue := [], out := 0, unlocked := false, keyHi := none, pwdHi := none, armed := false
    stat := setBit t.leg.stat 0 true, comLosses := satInc 32 t.leg.comLosses } })

theorem execLegacyComloss_loses (ha : s.leg.active = true) (hr : s.leg.armed = true) :
    exec .legacyComloss s = .next (legCancel 0x0E01 (legLost (toInstant (s.leg.frameAt + 240000000) s))) := by
  rw [exec_legacyComloss, execLegacyComloss, if_neg (by simp [ha, hr]), show 500 * msTicks = 240000000 from rfl]
  rfl

theorem legCancel_none {c : Nat} (h : s.leg.promoting = false) : legCancel c s = s := if_neg (Bool.eq_false_iff.mp h)
theorem legCancel_cancels {c : Nat} (h : s.leg.promoting = true) :
    legCancel c s = finishDeferred 0x0E00 0 { status := c } { s with leg := { s.leg with promoting := false } } := if_pos h

theorem exec_legacyLockoutEnd (s : State) : exec .legacyLockoutEnd s = execLegacyLockoutEnd s := rfl

theorem execLegacyLockoutEnd_none (h : s.leg.lockEnd = none) : exec .legacyLockoutEnd s = .next s := by
  rw [exec_legacyLockoutEnd, execLegacyLockoutEnd, h]

theorem execLegacyLockoutEnd_ends {t : Nat} (h : s.leg.lockEnd = some t) :
    exec .legacyLockoutEnd s = .next { toInstant t s with leg := { (toInstant t s).leg with lockEnd := none } } := by
  rw [exec_legacyLockoutEnd, execLegacyLockoutEnd, h]

/-! ## Promotion and status (R426 to R429) -/

theorem exec_fsPromote_passes (hp : passes 0x0E00 d s = true) : exec (.fsPromote d) s = .next (bodyFsPromote d s) := congrArg _ (runDesc_passes _ hp)

/-- The block of a promotion is refused. -/
def promoteBad (b : List Byte) (s : State) : Prop :=
  u16 b 2 ≠ 0 ∨ u32 b 4 ≠ 0 ∧ (u32 b 4 < 10 ∨ 60000 < u32 b 4) ∨ u32 b 4 = 0 ∧ s.isl.locked = true

theorem bodyFsPromote_state (h : s.leg.promoting = true) : bodyFsPromote d s = fail d stState s := if_pos h

section
variable (h : s.leg.promoting = false)
include h

theorem bodyFsPromote_param (hb : promoteBad (blockOf s d) s) : bodyFsPromote d s = fail d stBadParam s :=
  (if_neg (Bool.eq_false_iff.mp h)).trans (if_pos hb)

variable (hb : ¬ promoteBad (blockOf s d) s)
include hb

theorem bodyFsPromote_room (hn : (freeIndices s).length < popCount (u16 (blockOf s d) 0)) : bodyFsPromote d s = fail d stNoResource s :=
  (if_neg (Bool.eq_false_iff.mp h)).trans ((if_neg hb).trans (if_pos hn))

theorem bodyFsPromote_waits (hn : popCount (u16 (blockOf s d) 0) ≤ (freeIndices s).length) : bodyFsPromote d s
    = defer d 0x0E00 0 (takeEffect s.gtc (u64 (blockOf s d) 8)) [] (u16 (blockOf s d) 0 + 65536 * u32 (blockOf s d) 4)
      { s with leg := { s.leg with promoting := true } } :=
  (if_neg (Bool.eq_false_iff.mp h)).trans ((if_neg hb).trans (if_neg (Nat.not_lt.mpr hn)))

end

theorem exec_promotionTakeEffect (s : State) : exec .promotionTakeEffect s = execPromotionTakeEffect s := rfl

theorem execPromotionTakeEffect_none (h : deferredOf s 0x0E00 0 = none) : exec .promotionTakeEffect s = .next s := by
  rw [exec_promotionTakeEffect, execPromotionTakeEffect, h]

section
variable {x : Deferred} (h : deferredOf s 0x0E00 0 = some x)
include h

theorem execPromotionTakeEffect_waits (hc : s.leg.pend ≠ [] ∨ s.leg.queue ≠ []) : exec .promotionTakeEffect s = .next s := by
  rw [exec_promotionTakeEffect, execPromotionTakeEffect, h]
  exact congrArg _ (if_pos (by simpa using hc))

theorem execPromotionTakeEffect_promotes (hp : s.leg.pend = []) (hq : s.leg.queue = []) :
    exec .promotionTakeEffect s = .next (legPromote x (toInstant (max x.due (boundaryAt s.gtc)) s)) := by
  rw [exec_promotionTakeEffect, execPromotionTakeEffect, h]
  exact congrArg _ (if_neg (by simp [hp, hq]))

end

/-- The mode ended, before the completion and the event: no section left, the watchdog as asked. -/
def legEnded (wd : Nat) (s : State) : State :=
  { s with
    objs := s.objs.filter fun o => o.idx < legBase
    leg := { s.leg with
      active := false, promoting := false, unlocked := false, pend := [], queue := [], reply := none
      record := s.leg.record || !s.pwr.bow, recordDue := s.pwr.bow }
    boot := { s.boot with mode := .native }
    isl := { s.isl with
      wdtEn := wd != 0, wdtRunning := wd != 0, wdtTimeout := if wd = 0 then s.isl.wdtTimeout else wd
      wdtServed := s.gtc, wdtBad := 0 } }

/-- The sections to keep become SWITCHes, in ascending order; their handles, and the state. -/
def legKept (keep : Nat) (s : State) : List Nat × State :=
  (List.range 16).foldl (fun r k => if bit keep k then let y := legKeep k r.2; (r.1 ++ [y.1], y.2) else (r.1 ++ [0], r.2)) ([], s)

/-- After the mode has ended a promotion only writes its handles, completes and raises its event. -/
theorem legPromote_touches (x : Deferred) (s : State) : Touches (legEnded (x.arg / 65536) (legKept (x.arg % 65536) s).2) (legPromote x s) := by
  rw [legPromote]
  refine Touches.trans ?_ ((touches_completeDeferred x _ _).trans (touches_raise0 ..))
  split
  · next u hu => exact touches_ptrWrite hu
  · exact .refl _

theorem legPromote_ends (x : Deferred) (s : State) : (legPromote x s).leg.active = false ∧ (legPromote x s).boot.mode = .native
    ∧ (legPromote x s).isl.wdtEn = decide (x.arg / 65536 ≠ 0) ∧ (legPromote x s).leg.promoting = false := by
  have ht := legPromote_touches x s
  have hi : (legPromote x s).isl.wdtEn = (x.arg / 65536 != 0) := congrArg (·.isl.wdtEn) ht.frame
  refine ⟨by rw [ht.leg]; rfl, by rw [ht.boot]; rfl, hi.trans decide_not.symm, by rw [ht.leg]; rfl⟩

theorem legPromote_sections (x : Deferred) (s : State) : ∀ o ∈ (legPromote x s).objs, o.idx < legBase := by
  have ht := legPromote_touches x s
  rw [ht.objs]
  intro o ho
  simpa using (List.mem_filter.mp ho).2

theorem exec_fsStatus_passes (hp : passes 0x0E01 d s = true) : exec (.fsStatus d) s = .next (writeBack d (leBytes 2 s.leg.out ++ leBytes 2 (legOutst s)
    ++ leBytes 2 s.leg.mask ++ leBytes 2 (legStat s) ++ satBytes 4 s.leg.framesOk ++ satBytes 4 s.leg.framesBad ++ satBytes 4 s.leg.comLosses
    ++ satBytes 4 s.leg.attemptsBad ++ List.replicate 8 0) {} s) := congrArg _ (runDesc_passes _ hp)

theorem legStat_eq (s : State) : legStat s = s.leg.stat + if s.leg.promoting then 256 else 0 := by
  rw [legStat]
  cases s.leg.promoting <;> rfl

end

/-! ## The statement -/

/-- Settles O52: each frame, register and happening by the conditions under which it is refused or does nothing, and by what it
does otherwise. -/
theorem legacyController : Obligations.LegacyController := by
  refine ⟨fun _ => legacy_inactive, fun s w v x ha hv hx => ?_, legInvalid_eq, fun s w a v u held ha hv hu hh => ?_,
    fun s v key pwd => ⟨rfl, rfl, rfl, rfl, fun h => if_pos h, fun h => if_neg h⟩, fun s v key pwd u hu => ?_, fun s a v key pwd ha hu => ?_, fun s v key pwd hu => ?_,
    fun s n len hn hl => ?_, fun s => ⟨rfl, rfl, rfl, rfl, fun _ => legRead_plain⟩, fun s t due offs ons wait u v ha ht hd ho hn hu hv hw => ?_,
    fun s => ⟨rfl, fun _ => ⟨legTurns_stays, fun _ _ => legTurns_turns⟩⟩, fun _ _ => execEnaNEdge_follows, fun _ _ => execLegacyComloss_unarmed,
    fun s t u ha hr ht hu => ?_, fun _ => ⟨execLegacyLockoutEnd_none, fun _ => execLegacyLockoutEnd_ends⟩, fun s d b wd bad hp hb hw hbad => ?_,
    fun _ => execPromotionTakeEffect_none, fun _ _ hx => ⟨execPromotionTakeEffect_waits hx, execPromotionTakeEffect_promotes hx⟩,
    fun s x => legPromote_ends x s, fun s x _ => legPromote_sections x s, fun s d l hp hl => ?_⟩
  · have hx' : x = legShift s := hx
    subst hv hx'
    exact ⟨execLegacyFrame_good ha, execLegacyFrame_bad ha, execLegacyInvalidFrame_bad ha, execLegacyInvalidFrame_good ha,
      fun _ => execLegacyInvalidFrame_clocks ha⟩
  · have hu' : u = legNoted s := hu
    have hh' : held = legPinned a := hh
    subst ha hv hu' hh'
    rw [legExecute_eq]
    refine ⟨fun hw hp h => ?_, fun hw hl h => ?_, fun t hw hp hl ht => ?_, fun x t hw ht => ?_⟩
    · rw [hw, legRefuse_promoting hp h]
      rfl
    · rw [hw, legRefuse_lockout hl h]
      rfl
    · subst ht
      rw [hw, legRefuse_none hp hl]
      exact ⟨fun h1 h2 => (if_pos rfl).trans (if_pos ⟨h1, h2⟩), fun h => (if_pos rfl).trans (if_neg h)⟩
    · rw [hw, legRefuse_read, ← ht]
      rfl
  · have hu' : u = legSeen s := hu
    subst hu'
    rw [legWrite_keyLo, ← legPassword_legSeen]
    refine ⟨fun h hk hp => legUnlock_right hk hp, fun h => legUnlock_wrong h, fun h => ?_, fun h => ?_, legWrite_pwdLo_ignored, fun h x hp hl hx => ?_⟩
    · rw [legWrite_pwdHi, if_pos h]
    · rw [legWrite_pwdHi, if_neg (Bool.eq_false_iff.mp h)]
    · rw [hp, legWrite_pwdLo hl, ← hx]
      exact ⟨fun hx => if_pos hx, fun hx hb => (legNewPwd_eq hx).trans (if_pos hb), fun hx hb => (legNewPwd_eq hx).trans (if_neg (Bool.eq_false_iff.mp hb))⟩
  · rw [legWrite_protected ha, legRwp_locked hu]
  · obtain ⟨h08, h0a, h0b, h30, h70, h71, h72, h73⟩ := legWrite_unlocked (v := v) hu key pwd
    exact ⟨h08, h0a, h0b, h30, h70, h71, h72, h73, fun k hk => legWrite_unlocked_delay hu key pwd hk⟩
  · subst hn
    exact ⟨legFail_few, fun h => legFail_locks h hl⟩
  · rw [execLegacyTick_ticks ha]
    subst hd ho hn hu hv hw
    rw [← ht]
    rfl
  · have hu' : u = legLost t := hu
    rw [execLegacyComloss_loses ha hr, ← ht, ← hu']
    exact ⟨fun h => congrArg _ (legCancel_none h), fun h => congrArg _ (legCancel_cancels h)⟩
  · subst hb hw
    have hbad' : bad = promoteBad (blockOf s d) s := hbad
    subst hbad'
    rw [exec_fsPromote_passes hp]
    exact ⟨fun h => congrArg _ (bodyFsPromote_state h), fun h hb => congrArg _ (bodyFsPromote_param h hb),
      fun h hb hn => congrArg _ (bodyFsPromote_room h hb hn), fun h hb hn => congrArg _ (bodyFsPromote_waits h hb hn)⟩
  · subst hl
    rw [exec_fsStatus_passes hp, legStat_eq]

end Sys2Proof.Machine
end

section
/-! PROOFS. CAN commands (13, R376 to R381, R385, R387, R388): send, read, filters, transmit configuration, release, signals, wake
configuration and INH. -/

namespace Sys2Proof.Machine

section
variable {s : State} {d : Desc} {o : Obj}

/-! ## The first of a range that judges -/

theorem findSome_range_first {α : Type} {f : Nat → Option α} {n k : Nat} {a : α} (hk : k < n) (hf : f k = some a) (hj : ∀ j, j < k → f j = none) :
    (List.range n).findSome? f = some a := by
  rw [List.findSome?_eq_some_iff]
  refine ⟨List.range k, k, (List.range (n - k - 1)).map (k + 1 + ·), ?_, hf, fun j h => hj j (List.mem_range.mp h)⟩
  have hn : n = k + 1 + (n - k - 1) := by omega
  conv_lhs => rw [hn, List.range_add, List.range_succ]
  simp

/-! ## CAN_SEND (R380) -/

theorem sendFrame_inline (h : dPtr d = false) : sendFrame d s = (u8 d.bytes 16,
    { id := u32 d.bytes 20 % 2 ^ 30 + if bit (u8 d.bytes 17) 0 then 2 ^ 30 else 0, eflags := bits (u8 d.bytes 17) 1 2
      data := slice d.bytes 24 (u8 d.bytes 18) }, bit (u8 d.bytes 17) 3,
    decide (u8 d.bytes 17 < 16 ∧ u8 d.bytes 18 ≤ 20 ∧ u32 d.bytes 20 < 2 ^ 30)) := if_neg (Bool.eq_false_iff.mp h)

theorem sendFrame_block (h : dPtr d = true) : sendFrame d s = (u8 (blockOf s d) 6,
    { id := u32 (blockOf s d) 0, eflags := u8 (blockOf s d) 4, data := slice (blockOf s d) 16 (u8 (blockOf s d) 5) }, false,
    decide (u8 (blockOf s d) 4 < 16 ∧ u8 (blockOf s d) 5 ≤ 64) && u8 (blockOf s d) 7 == 0) := if_pos h

theorem exec_canSend_passes (hp : passes 0x0D00 d s = true) (ho : objOf s (dHandle d) = some o) : exec (.canSend d) s = .next (bodyCanSend d o s) :=
  congrArg _ (runObj_passes _ hp ho)

/-- A frame goes into a buffer and its descriptor is pending. -/
def sendPut (d : Desc) (o : Obj) (f : CanFrame) (g : Bool) (k : Nat) (s : State) : State :=
  updTx o.idx k (fun t => { t with pend := true, since := s.gtc })
    (updTx o.idx k (fun t => { t with frame := some f, single := g }) (defer d 0x0D00 (dHandle d) 0 [] k s))

theorem txQueue_deferred (op h due arg i k : Nat) (r : List Byte) (f : CanTx → CanTx) (s : State) :
    txQueue i k (updTx i k f (defer d op h due r arg s))
      = updTx i k (fun t => { t with pend := true, since := s.gtc }) (updTx i k f (defer d op h due r arg s)) := by
  have hg : (updTx i k f (defer d op h due r arg s)).gtc = s.gtc := (touches_defer d op h due r arg s).gtc
  rw [txQueue, hg]

/-- The buffers that 0xFF may take. -/
def freeBuffers (o : Obj) : List Nat := (List.range 24).filter fun k => !(txOf o k).pend && (txOf o k).cfg.isNone

theorem mem_freeBuffers {k : Nat} : k ∈ freeBuffers o ↔ k < 24 ∧ (txOf o k).pend = false ∧ (txOf o k).cfg = none := by simp [freeBuffers]

section
variable {b : Nat} {f : CanFrame} {g w : Bool} (hs : sendFrame d s = (b, f, g, w))
include hs

/-- The refusals of a send: its frame, its buffer, its lengths. -/
def sendRefused (o : Obj) (b : Nat) (f : CanFrame) (w : Bool) : Prop :=
  w = false ∨ 24 ≤ b ∧ b ≠ 255 ∨ idOk f.id = false ∨ lengthOk (frFd f) f.data.length = false ∨ frFd f = true ∧ (canFd o = false ∨ frRemote f = true)

omit hs in
theorem sendRefused_iff : sendRefused o b f w ↔ (!w || !(decide (b < 24) || b == 0xFF) || !idOk f.id) = true
    ∨ (!lengthOk (frFd f) f.data.length || (frFd f && !canFd o) || (frFd f && frRemote f)) = true := by
  simp only [sendRefused, Bool.or_eq_true, Bool.and_eq_true, Bool.not_eq_true', Bool.or_eq_false_iff, decide_eq_false_iff_not, Nat.not_lt,
    beq_eq_false_iff_ne, ne_eq, or_assoc, and_or_left]

/-- A good frame goes to the buffer named, or to a free one. -/
theorem bodyCanSend_eq : bodyCanSend d o s =
    if (!w || !(decide (b < 24) || b == 0xFF) || !idOk f.id) = true then fail d stBadParam s
    else if (!lengthOk (frFd f) f.data.length || (frFd f && !canFd o) || (frFd f && frRemote f)) = true then fail d stBadParam s
    else if b = 0xFF then
      if (freeBuffers o).isEmpty then fail d stNoResource s
      else sendPut d o f g ((freeBuffers o).getD ((takeFree s).1 % (freeBuffers o).length) 0) (takeFree s).2
    else match (txOf o b).cfg with
      | some c => defer d 0x0D00 (dHandle d) 0 [] b (updTx o.idx b (fun t => { t with
          frame := some { id := u32 c 4 % 2 ^ 30 + (if bit (u8 c 1) 0 then 2 ^ 30 else 0), eflags := bits (u8 c 1) 1 2, data := padTo (u8 c 2) f.data } }) s)
      | none => if (txOf o b).pend then fail d 0x0D04 s else sendPut d o f g b s := by
  simp only [bodyCanSend, hs, txQueue_deferred]
  rfl

theorem bodyCanSend_refused (h : sendRefused o b f w) : bodyCanSend d o s = fail d stBadParam s := by
  rw [bodyCanSend_eq hs]
  obtain h | h := sendRefused_iff.mp h
  · exact if_pos h
  · rw [if_pos h, ite_self]

variable (h : ¬ sendRefused o b f w)
include h

theorem bodyCanSend_named (hb : b < 24) : bodyCanSend d o s = match (txOf o b).cfg with
      | some c => defer d 0x0D00 (dHandle d) 0 [] b (updTx o.idx b (fun t => { t with
          frame := some { id := u32 c 4 % 2 ^ 30 + (if bit (u8 c 1) 0 then 2 ^ 30 else 0), eflags := bits (u8 c 1) 1 2, data := padTo (u8 c 2) f.data } }) s)
      | none => if (txOf o b).pend then fail d 0x0D04 s else sendPut d o f g b s := by
  rw [sendRefused_iff, not_or] at h
  rw [bodyCanSend_eq hs, if_neg h.1, if_neg h.2, if_neg (by omega)]

theorem bodyCanSend_any (hb : b = 255) : bodyCanSend d o s = if (freeBuffers o).isEmpty then fail d stNoResource s
    else sendPut d o f g ((freeBuffers o).getD ((takeFree s).1 % (freeBuffers o).length) 0) (takeFree s).2 := by
  rw [sendRefused_iff, not_or] at h
  rw [bodyCanSend_eq hs, if_neg h.1, if_neg h.2, if_pos hb]

theorem bodyCanSend_full (hb : b = 255) (hk : ∀ k, k < 24 → (txOf o k).pend = true ∨ (txOf o k).cfg ≠ none) : bodyCanSend d o s = fail d stNoResource s := by
  have he : freeBuffers o = [] := by
    refine List.eq_nil_iff_forall_not_mem.mpr fun k hm => ?_
    obtain ⟨h24, hp, hc⟩ := mem_freeBuffers.mp hm
    obtain h | h := hk k h24
    · simp [hp] at h
    · exact h hc
  rw [bodyCanSend_any hs h hb, he]
  rfl

theorem bodyCanSend_free (hb : b = 255) (hk : ∃ k, k < 24 ∧ (txOf o k).pend = false ∧ (txOf o k).cfg = none) :
    ∃ k, k < 24 ∧ (txOf o k).pend = false ∧ (txOf o k).cfg = none ∧ bodyCanSend d o s = sendPut d o f g k (takeFree s).2 := by
  obtain ⟨j, hj⟩ := hk
  have hne : freeBuffers o ≠ [] := List.ne_nil_of_mem (mem_freeBuffers.mpr hj)
  have hlt : (takeFree s).1 % (freeBuffers o).length < (freeBuffers o).length := Nat.mod_lt _ (List.length_pos_iff.mpr hne)
  have hm : (freeBuffers o).getD ((takeFree s).1 % (freeBuffers o).length) 0 ∈ freeBuffers o := by
    rw [List.getD_eq_getElem _ _ hlt]
    exact List.getElem_mem hlt
  obtain ⟨h24, hp, hc⟩ := mem_freeBuffers.mp hm
  refine ⟨_, h24, hp, hc, ?_⟩
  rw [bodyCanSend_any hs h hb, if_neg (by simpa using hne)]

end

/-! ## CAN_READ (R378) -/

theorem exec_canRead_passes (hp : passes 0x0D01 d s = true) (ho : objOf s (dHandle d) = some o) : exec (.canRead d) s = .next (bodyCanRead d o s) :=
  congrArg _ (runObj_passes _ hp ho)

theorem bodyCanRead_param (h : 1 < u8 d.bytes 32 ∨ u8 d.bytes 33 = 0 ∨ 64 < u8 d.bytes 33) : bodyCanRead d o s = fail d stBadParam s := if_pos h

section
variable (h : ¬ (1 < u8 d.bytes 32 ∨ u8 d.bytes 33 = 0 ∨ 64 < u8 d.bytes 33))
include h

theorem bodyCanRead_busy (hr : readOf s (dHandle d) (u8 d.bytes 32) ≠ none) : bodyCanRead d o s = fail d stBusy s :=
  (if_neg h).trans (if_pos (Option.isSome_iff_ne_none.mpr hr))

/-- An accepted read is pending, with its time limit if it has one. -/
theorem bodyCanRead_waits (hr : readOf s (dHandle d) (u8 d.bytes 32) = none) : bodyCanRead d o s
    = defer d 0x0D01 (dHandle d) (if u16 d.bytes 34 = 0 then 0 else s.gtc + u16 d.bytes 34 * 480000) [] (u8 d.bytes 32) s :=
  (if_neg h).trans (if_neg (by simp [hr]))

end

theorem exec_canReadDone (h q : Nat) (s : State) : exec (.canReadDone h q) s = execCanReadDone h q s := rfl

theorem execCanReadDone_none {h q : Nat} (hn : readOf s h q = none ∨ objOf s h = none) : exec (.canReadDone h q) s = .next s := by
  rw [exec_canReadDone, execCanReadDone]
  obtain hn | hn := hn
  · rw [hn]
  · rw [hn]
    cases readOf s h q <;> rfl

/-- The frames of a FIFO. -/
def fifoOf (o : Obj) (q : Nat) : List CanRx := if q = 0 then (canOf o).rx0 else (canOf o).rx1

theorem execCanReadDone_judged {h q : Nat} {x : Deferred} (hx : readOf s h q = some x) (ho : objOf s h = some o) : exec (.canReadDone h q) s
    = .next (if u8 x.st.desc.bytes 33 ≤ (fifoOf o q).length then readEnd x s else if x.due = 0 then s else readEnd x (toInstant x.due s)) := by
  rw [exec_canReadDone, execCanReadDone, hx, ho]
  rfl

theorem readEnd_eq {x : Deferred} (ho : objOf s x.handle = some o) {n : Nat} (hn : n = min (fifoOf o x.arg).length (dBlockLen x.st.desc / 80)) : readEnd x s
    = deferredWrite x (((fifoOf o x.arg).take n).flatMap fun e => elementBytes e.frame e.filter e.gtc)
      { result := leBytes 2 n ++ leBytes 2 ((fifoOf o x.arg).length - n) }
      (updCan o.idx (fun r => if x.arg = 0 then { r with rx0 := (fifoOf o x.arg).drop n } else { r with rx1 := (fifoOf o x.arg).drop n }) s) := by
  rw [readEnd, ho, hn]
  rfl

theorem deferredWrite_written {x : Deferred} {bs : List Byte} {r : Reply} {v : State} (h : ptrWrite (dBlockPtr x.st.desc) bs s = some v) :
    deferredWrite x bs r s = completeDeferred x { r with writeback := true } v := by rw [deferredWrite, h]

theorem deferredWrite_failed {x : Deferred} {bs : List Byte} {r : Reply} (h : ptrWrite (dBlockPtr x.st.desc) bs s = none) : deferredWrite x bs r s
    = completeDeferred x { status := stDmaError } (raise0 0x0083 0 ([0xFF, 0, 0, 0] ++ leBytes 4 (dBlockPtr x.st.desc % mailboxSize)) s) := by
  rw [deferredWrite, h]

/-! ## Filters, transmit configuration and release (R377, R381, R385) -/

theorem exec_canFilterSet_passes (hp : passes 0x0D02 d s = true) (ho : objOf s (dHandle d) = some o) :
    exec (.canFilterSet d) s = .next (bodyCanFilterSet d o s) := congrArg _ (runObj_passes _ hp ho)

theorem bodyCanFilterSet_good (h : ∀ k, k < (blockOf s d).length / 16 → filterBad s (blockOf s d) k = none) :
    bodyCanFilterSet d o s = ok d (updCan o.idx (fun r => { r with filtNext := some (blockOf s d) }) s) := by
  have hn : (List.range ((blockOf s d).length / 16)).findSome? (filterBad s (blockOf s d)) = none :=
    List.findSome?_eq_none_iff.mpr fun k hk => h k (List.mem_range.mp hk)
  simp only [bodyCanFilterSet, hn]

theorem bodyCanFilterSet_bad {k : Nat} {e : PErr} (hk : k < (blockOf s d).length / 16) (he : filterBad s (blockOf s d) k = some e)
    (hj : ∀ j, j < k → filterBad s (blockOf s d) j = none) : bodyCanFilterSet d o s = failWith d e.status e.result s := by
  simp only [bodyCanFilterSet, findSome_range_first hk he hj]

theorem exec_canTxConfig_passes (hp : passes 0x0D03 d s = true) (ho : objOf s (dHandle d) = some o) :
    exec (.canTxConfig d) s = .next (bodyCanTxConfig d o s) := congrArg _ (runObj_passes _ hp ho)

/-- The 28 bytes of a transmit configuration that are refused. -/
def txCfgBad (o : Obj) (c : List Byte) : Prop :=
  24 ≤ u8 c 0 ∨ 32 ≤ u8 c 1 ∨ u32 c 8 < 1000 ∨ 60000000 < u32 c 8 ∨ 2 ^ 30 ≤ u32 c 4 ∨ idOk (u32 c 4 + if bit (u8 c 1) 0 then 2 ^ 30 else 0) = false
    ∨ lengthOk (bit (u8 c 1) 1) (u8 c 2) = false ∨ bit (u8 c 1) 1 = true ∧ canFd o = false

theorem txCfgBad_iff {c : List Byte} : txCfgBad o c ↔ (24 ≤ u8 c 0 ∨ 32 ≤ u8 c 1 ∨ u32 c 8 < 1000 ∨ 60000000 < u32 c 8)
    ∨ (2 ^ 30 ≤ u32 c 4 ∨ (!idOk (u32 c 4 + if bit (u8 c 1) 0 then 2 ^ 30 else 0)) = true)
    ∨ (!lengthOk (bit (u8 c 1) 1) (u8 c 2) || (bit (u8 c 1) 1 && !canFd o)) = true := by
  simp only [txCfgBad, Bool.or_eq_true, Bool.and_eq_true, Bool.not_eq_true', or_assoc]

/-- The signal table that a configuration names, or needs, is not usable. -/
def txTableBad (s : State) (c : List Byte) : Prop := (bit (u8 c 1) 3 = true ∨ u32 c 12 ≠ 0) ∧ sigTableOk s (u32 c 12) = false

theorem bodyCanTxConfig_param (h : txCfgBad o (slice d.bytes 16 28)) : bodyCanTxConfig d o s = fail d stBadParam s := by
  rw [txCfgBad_iff] at h
  rw [bodyCanTxConfig]
  obtain h | h | h := h
  · exact if_pos h
  · rw [if_pos h, ite_self]
  · rw [if_pos h, ite_self, ite_self]

section
variable (h : ¬ txCfgBad o (slice d.bytes 16 28))
include h

theorem bodyCanTxConfig_judged : bodyCanTxConfig d o s = if (bit (u8 (slice d.bytes 16 28) 1) 3 = true ∨ u32 (slice d.bytes 16 28) 12 ≠ 0)
      ∧ (!sigTableOk s (u32 (slice d.bytes 16 28) 12)) = true then failWith d 0x0308 (leBytes 2 28) s
    else if bit (u8 (slice d.bytes 16 28) 1) 4 then ok d (updTx o.idx (u8 (slice d.bytes 16 28) 0) (fun t => { t with
        cfg := some (slice d.bytes 16 28)
        nextAt := firstPeriod (nextBoundary s.gtc) (i64 (slice d.bytes 16 28) 16) (u32 (slice d.bytes 16 28) 8 * 480) }) s)
    else ok d (updTx o.idx (u8 (slice d.bytes 16 28) 0) (fun t => { t with cfg := none }) s) := by
  obtain ⟨h1, h23⟩ := not_or.mp (txCfgBad_iff.not.mp h)
  obtain ⟨h2, h3⟩ := not_or.mp h23
  exact (if_neg h1).trans ((if_neg h2).trans (if_neg h3))

theorem bodyCanTxConfig_table (ht : txTableBad s (slice d.bytes 16 28)) : bodyCanTxConfig d o s = failWith d 0x0308 (leBytes 2 28) s := by
  rw [bodyCanTxConfig_judged h, if_pos ⟨ht.1, by simp [ht.2]⟩]

variable (ht : ¬ txTableBad s (slice d.bytes 16 28))
include ht

theorem bodyCanTxConfig_taken : bodyCanTxConfig d o s = if bit (u8 (slice d.bytes 16 28) 1) 4 then ok d (updTx o.idx (u8 (slice d.bytes 16 28) 0) (fun t => { t with
        cfg := some (slice d.bytes 16 28)
        nextAt := firstPeriod (nextBoundary s.gtc) (i64 (slice d.bytes 16 28) 16) (u32 (slice d.bytes 16 28) 8 * 480) }) s)
    else ok d (updTx o.idx (u8 (slice d.bytes 16 28) 0) (fun t => { t with cfg := none }) s) := by
  rw [bodyCanTxConfig_judged h, if_neg fun k => ht ⟨k.1, by simpa using k.2⟩]

end

theorem exec_canTxRelease_passes (hp : passes 0x0D04 d s = true) (ho : objOf s (dHandle d) = some o) :
    exec (.canTxRelease d) s = .next (bodyCanTxRelease d o s) := congrArg _ (runObj_passes _ hp ho)

theorem bodyCanTxRelease_param (h : 24 ≤ u8 d.bytes 16) : bodyCanTxRelease d o s = fail d stBadParam s := if_pos h

section
variable (h : u8 d.bytes 16 < 24)
include h

theorem bodyCanTxRelease_state (hs : (txOf o (u8 d.bytes 16)).susp = false) : bodyCanTxRelease d o s = fail d stState s :=
  (if_neg (Nat.not_le.mpr h)).trans (if_pos (by simp [hs]))

theorem bodyCanTxRelease_queues (hs : (txOf o (u8 d.bytes 16)).susp = true) : bodyCanTxRelease d o s
    = updTx o.idx (u8 d.bytes 16) (fun t => { t with pend := true, since := s.gtc }) (updTx o.idx (u8 d.bytes 16)
      (fun t => txRealign s.gtc { t with susp := false, coll := 0 }) (defer d 0x0D04 (dHandle d) 0 [] (u8 d.bytes 16) s)) :=
  (if_neg (Nat.not_le.mpr h)).trans ((if_neg (by simp [hs])).trans (txQueue_deferred ..))

end

/-! ## Signals, wake configuration and INH (R379, R387, R388) -/

theorem exec_canSignalWrite_passes (hp : passes 0x0D05 d s = true) (ho : objOf s (dHandle d) = some o) :
    exec (.canSignalWrite d) s = .next (bodyCanSignalWrite d o s) := congrArg _ (runObj_passes _ hp ho)

theorem bodyCanSignalWrite_param (h : u8 d.bytes 17 = 0 ∨ 6 < u8 d.bytes 17 ∨ 64 < u8 d.bytes 16 + u8 d.bytes 17) :
    bodyCanSignalWrite d o s = fail d stBadParam s := if_pos h

theorem bodyCanSignalWrite_sets (h : ¬ (u8 d.bytes 17 = 0 ∨ 6 < u8 d.bytes 17 ∨ 64 < u8 d.bytes 16 + u8 d.bytes 17)) : bodyCanSignalWrite d o s
    = ok d (updCan o.idx (fun r => { r with
      sig := (List.range (u8 d.bytes 17)).foldl (fun g k => g.set (u8 d.bytes 16 + k) (f32 d.bytes (20 + 4 * k))) r.sig }) s) := if_neg h

theorem exec_canWakeConfig_passes (hp : passes 0x0D06 d s = true) : exec (.canWakeConfig d) s = .next (bodyCanWakeConfig d s) :=
  congrArg _ (runDesc_passes _ hp)

/-- The wake configuration is refused. -/
def wakeBad (b : List Byte) : Prop := 2 < u8 b 16 ∨ 3 < u8 b 17 ∨ 8 < u8 b 18 ∨ u8 b 19 % 2 = 1 ∨ 16 ≤ u8 b 19 ∨ idOk (u32 b 20) = false

theorem wakeBad_iff {b : List Byte} : wakeBad b ↔ 2 < u8 b 16 ∨ 3 < u8 b 17 ∨ 8 < u8 b 18 ∨ u8 b 19 % 2 = 1 ∨ 16 ≤ u8 b 19 ∨ (!idOk (u32 b 20)) = true := by
  rw [wakeBad, Bool.not_eq_true']

theorem bodyCanWakeConfig_param (h : wakeBad d.bytes) : bodyCanWakeConfig d s = fail d stBadParam s := if_pos (wakeBad_iff.mp h)
theorem bodyCanWakeConfig_keeps (h : ¬ wakeBad d.bytes) : bodyCanWakeConfig d s = ok d { s with cand := { s.cand with wake := slice d.bytes 16 28 } } :=
  if_neg (wakeBad_iff.not.mp h)

theorem exec_canInhOff_passes (hp : passes 0x0D07 d s = true) :
    exec (.canInhOff d) s = .next (ok d { s with cand := { s.cand with inh := false, lowPower := true } }) := congrArg _ (runDesc_passes _ hp)

end

/-! ## The statement -/

/-- Settles O48: each descriptor by the conditions under which it is refused, and by what it does otherwise. -/
theorem canCommands : Obligations.CanCommands := by
  refine ⟨fun _ _ _ => rfl, fun _ _ _ _ => rfl, fun s d b fl n h hb hf hn => ?_, fun s d b h hb => ?_, fun s d o b f g w bad put hp ho hs hb hput => ?_,
    fun s d o q n ms bad hp ho hq hn hm hb => ?_, fun _ _ _ => execCanReadDone_none, fun s h q x o l hx ho hl => ?_, fun s x o l n u bs ho hl hn hu hbs => ?_,
    fun s d o b hp ho hb => ?_, fun s d o c bad tab hp ho hc hb ht => ?_, fun s d o b hp ho hb => ?_, fun s d o a n bad hp ho ha hn hb => ?_,
    fun s d b bad hp hb hbad => ?_, fun _ _ => exec_canInhOff_passes⟩
  · subst hb hf hn
    exact sendFrame_inline h
  · subst hb
    exact sendFrame_block h
  · have hbad : bad = sendRefused o b f w := hb
    have hput' : put = sendPut d o f g := hput
    subst hbad hput'
    rw [exec_canSend_passes hp ho]
    refine ⟨fun h => congrArg _ (bodyCanSend_refused hs h), fun h h24 hc hpend => ?_, fun h h24 hc hpend => ?_, fun c h h24 hc => ?_,
      fun h hb hk => congrArg _ (bodyCanSend_full hs h hb hk), fun h hb hk => ?_⟩
    · rw [bodyCanSend_named hs h h24, hc]
      exact congrArg _ (if_neg (Bool.eq_false_iff.mp hpend))
    · rw [bodyCanSend_named hs h h24, hc]
      exact congrArg _ (if_pos hpend)
    · rw [bodyCanSend_named hs h h24, hc]
    · obtain ⟨k, h24, hpend, hc, he⟩ := bodyCanSend_free hs h hb hk
      exact ⟨k, h24, hpend, hc, congrArg _ he⟩
  · subst hq hn hm hb
    rw [exec_canRead_passes hp ho]
    refine ⟨fun h => congrArg _ (bodyCanRead_param h), fun h hr => congrArg _ (bodyCanRead_busy h hr), fun h hr hm => ?_, fun h hr hm => ?_⟩
    · rw [bodyCanRead_waits h hr, if_neg hm]
    · rw [bodyCanRead_waits h hr, if_pos hm]
  · have hl' : l = fifoOf o q := hl
    subst hl'
    rw [execCanReadDone_judged hx ho]
    refine ⟨fun h => congrArg _ (if_pos h), fun h hd => ?_, fun h hd => ?_⟩
    · rw [if_neg (Nat.not_le.mpr h), if_pos hd]
    · rw [if_neg (Nat.not_le.mpr h), if_neg hd]
  · have hl' : l = fifoOf o x.arg := hl
    subst hl'
    rw [readEnd_eq ho hn, ← hu, ← hbs]
    exact ⟨fun v h => deferredWrite_written h, fun h => deferredWrite_failed h⟩
  · subst hb
    rw [exec_canFilterSet_passes hp ho]
    exact ⟨fun h => congrArg _ (bodyCanFilterSet_good h), fun k e hk he hj => congrArg _ (bodyCanFilterSet_bad hk he hj)⟩
  · have hb' : bad = txCfgBad o c := hb
    have ht' : tab = txTableBad s c := ht
    subst hc hb' ht'
    rw [exec_canTxConfig_passes hp ho]
    refine ⟨fun h => congrArg _ (bodyCanTxConfig_param h), fun h ht => congrArg _ (bodyCanTxConfig_table h ht), fun h ht hf => ?_, fun h ht hf => ?_⟩
    · rw [bodyCanTxConfig_taken h ht, if_pos hf]
    · rw [bodyCanTxConfig_taken h ht, if_neg (Bool.eq_false_iff.mp hf)]
  · subst hb
    rw [exec_canTxRelease_passes hp ho]
    exact ⟨fun h => congrArg _ (bodyCanTxRelease_param h), fun h hs => congrArg _ (bodyCanTxRelease_state h hs),
      fun h hs => congrArg _ (bodyCanTxRelease_queues h hs)⟩
  · subst ha hn hb
    rw [exec_canSignalWrite_passes hp ho]
    exact ⟨fun h => congrArg _ (bodyCanSignalWrite_param h), fun h => congrArg _ (bodyCanSignalWrite_sets h)⟩
  · have hbad' : bad = wakeBad b := hbad
    subst hb hbad'
    rw [exec_canWakeConfig_passes hp]
    exact ⟨fun h => congrArg _ (bodyCanWakeConfig_param h), fun h => congrArg _ (bodyCanWakeConfig_keeps h)⟩

end Sys2Proof.Machine
end

section
/-! PROOFS. The CAN bus (13, R376, R377, R380 to R386): frames received and sent, errors, bus-off recovery, the lone node, identifier
collisions, periodic queueing and the wake frame. -/

namespace Sys2Proof.Machine

section
variable {s : State} {o : Obj} {h : Nat}

/-! ## Reception (R376, R377) -/

theorem exec_canFrameReceived (h : Nat) (f : CanFrame) (t : Nat) (s : State) : exec (.canFrameReceived h f t) s = execCanFrameReceived h f t s := rfl

theorem execCanFrameReceived_none {f : CanFrame} {t : Nat} (hn : objOf s h = none) : exec (.canFrameReceived h f t) s = .next s := by
  rw [exec_canFrameReceived, execCanFrameReceived, hn]

/-- The port hears the frame. -/
def canHears (s : State) (o : Obj) (f : CanFrame) : Prop :=
  o.typ = tyCanport ∧ isEnabled o = true ∧ (canOf o).stopped = false ∧ (canOf o).busOff = false ∧ canDeaf s o = false
    ∧ bit (canFlags o) 2 = false ∧ (frFd f = true → canFd o = true)

theorem canHears_iff {f : CanFrame} : canHears s o f ↔ ¬ (o.typ ≠ tyCanport ∨ (!isEnabled o) = true ∨ (canOf o).stopped = true ∨ (canOf o).busOff = true
    ∨ canDeaf s o = true ∨ bit (canFlags o) 2 = true ∨ (frFd f && !canFd o) = true) := by
  simp [canHears]

section
variable {f : CanFrame} {t : Nat} (ho : objOf s h = some o)
include ho

theorem execCanFrameReceived_takes (hh : canHears s o f) :
    exec (.canFrameReceived h f t) s = .next (canTake o { f with data := f.data.take 64 } (toInstant t s)) := by
  rw [exec_canFrameReceived, execCanFrameReceived, ho]
  exact congrArg _ (if_neg (canHears_iff.mp hh))

theorem execCanFrameReceived_deaf (hh : ¬ canHears s o f) : exec (.canFrameReceived h f t) s = .next s := by
  rw [exec_canFrameReceived, execCanFrameReceived, ho]
  exact congrArg _ (if_pos (not_not.mp (canHears_iff.not.mp hh)))

end

/-- A frame counted and filtered. -/
def canTaken (o : Obj) (f : CanFrame) (s : State) : State :=
  canFilter o.idx f (canCount o.idx (fun r => { r with rxFrames := satInc 32 r.rxFrames, rxErr := if 127 < r.rxErr then 127 else r.rxErr - 1 }) s)

theorem canTake_services {f : CanFrame} (hr : isbRun (canTaken o f s) = true) :
    canTake o f s = isbFrameIn o f (speedMessage (handleOf o) f (canTaken o f s)) := by
  have ht : canTake o f s = isbFrameIn o f (if isbRun (canTaken o f s) then speedMessage (handleOf o) f (canTaken o f s) else canTaken o f s) := rfl
  rw [ht, if_pos hr]

theorem canTake_plain {f : CanFrame} (hr : isbRun (canTaken o f s) = false) : canTake o f s = canTaken o f s := by
  have ht : canTake o f s = isbFrameIn o f (if isbRun (canTaken o f s) then speedMessage (handleOf o) f (canTaken o f s) else canTaken o f s) := rfl
  rw [ht, if_neg (Bool.eq_false_iff.mp hr)]
  exact if_pos (by simp [hr])

section
variable {f : CanFrame} (ho : objAt s o.idx = some o)
include ho

theorem canFilter_none (hn : ∀ k, k < (canOf o).filt.length / 16 → filterHit (canOf o).filt k f = false) : canFilter o.idx f s = s := by
  have hf : (List.range ((canOf o).filt.length / 16)).find? (fun k => filterHit (canOf o).filt k f) = none := by
    rw [List.find?_range_eq_none]
    simpa using hn
  simp only [canFilter, ho, hf]

/-- The first element that accepts the frame decides by its target. -/
theorem canFilter_first {k : Nat} (hk : k < (canOf o).filt.length / 16) (hit : filterHit (canOf o).filt k f = true)
    (hj : ∀ j, j < k → filterHit (canOf o).filt j f = false) {x : CanRx} (hx : x = { frame := f, filter := k, gtc := s.gtc }) {n : Nat}
    (hn : n = u8 (canOf o).filt (16 * k + 8)) {u : State} (hu : u = if 3 ≤ n then decodeInto o.idx (u32 (canOf o).filt (16 * k + 12)) f s else s) :
    canFilter o.idx f s = if n = 1 ∨ n = 4 then fifoPut o.idx 0 x u else if n = 2 then fifoPut o.idx 1 x u else u := by
  have hf : (List.range ((canOf o).filt.length / 16)).find? (fun k => filterHit (canOf o).filt k f) = some k := by
    rw [List.find?_range_eq_some]
    exact ⟨hit, List.mem_range.mpr hk, by simpa using hj⟩
  subst hx hn hu
  simp only [canFilter, ho, hf]

end

section
variable {q : Nat} {x : CanRx} (ho : objAt s o.idx = some o)
include ho

theorem fifoPut_stores (hl : (fifoOf o q).length < fifoSize o q) :
    fifoPut o.idx q x s = updCan o.idx (fun r => if q = 0 then { r with rx0 := r.rx0 ++ [x] } else { r with rx1 := r.rx1 ++ [x] }) s := by
  rw [fifoPut, ho]
  exact if_pos hl

theorem fifoPut_drops (hl : fifoSize o q ≤ (fifoOf o q).length) :
    fifoPut o.idx q x s = raiseLimited 480000000 0x0D46 0 (handleOf o) 0 0 (leBytes 1 q) 4 4
      (updCan o.idx (fun r => { r with rxDropped := satInc 32 r.rxDropped }) s) := by
  rw [fifoPut, ho]
  exact if_neg (Nat.not_lt.mpr hl)

end

section
variable {i : Nat} {f : CanFrame} {b : List Byte}

theorem decodeInto_none (hn : tableOf s h = none) : decodeInto i h f s = s := by rw [decodeInto, hn]

theorem decodeInto_short (hb : tableOf s h = some b) (hl : f.data.length < fmtLen b) :
    decodeInto i h f s = updCan i (fun r => { r with undecoded := satInc 32 r.undecoded }) s := by
  rw [decodeInto, hb]
  exact if_pos hl

theorem decodeInto_decodes (hb : tableOf s h = some b) (hl : fmtLen b ≤ f.data.length) :
    decodeInto i h f s = updCan i (fun r => { r with sig := (fmtDecodeAll b f.data).foldl (fun g x => g.set x.1 x.2) r.sig }) s := by
  rw [decodeInto, hb]
  exact if_neg (Nat.not_lt.mpr hl)

end

/-! ## Transmission (R380, R384) -/

theorem exec_canFrameTransmitted (h b x t : Nat) (s : State) : exec (.canFrameTransmitted h b x t) s = execCanFrameTransmitted h b x t s := rfl

theorem execCanFrameTransmitted_none {b x t : Nat} (hn : objOf s h = none) : exec (.canFrameTransmitted h b x t) s = .next s := by
  rw [exec_canFrameTransmitted, execCanFrameTransmitted, hn]

/-- The buffer that arbitration picked has been sent. -/
def canSent (s : State) (o : Obj) (b x t : Nat) : Prop := o.typ = tyCanport ∧ canMay s o = true ∧ arbWinner o x = some b ∧ x ≤ t

theorem canSent_iff {b x t : Nat} : canSent s o b x t ↔ ¬ (o.typ ≠ tyCanport ∨ (!canMay s o) = true ∨ arbWinner o x ≠ some b ∨ t < x) := by
  simp [canSent]

/-- The buffer free again and counted. -/
def txFreed (o : Obj) (b : Nat) (u : State) : State :=
  canCount o.idx (fun r => { r with txFrames := satInc 32 r.txFrames, tec := r.tec - 1, ackRun := 0 }) (updTx o.idx b (fun e => { e with
    pend := false, coll := 0, gtc := u.gtc, single := false, msg := none, frame := if 24 ≤ b then none else e.frame }) u)

/-- A lone node that has sent ends. -/
def txAttempted (o : Obj) (h : Nat) (v : State) : State :=
  let w := updCan o.idx (fun r => { r with attemptAt := v.gtc, attempt := false }) v
  if (canOf o).lone = true then raise0 0x0D45 h [] (updCan o.idx (fun r => { r with lone := false }) w) else w

/-- The descriptors and the message that waited for the buffer complete; a buffer of the services is refilled. -/
def txCompleted (o : Obj) (h b : Nat) (y : State) : State :=
  let p := match (txOf o b).msg with
    | none => sendsEnd h b 0 y
    | some n => pgnSendEnd n {} (sendsEnd h b 0 y)
  if 24 ≤ b then isbRefill p else p

def txDone (o : Obj) (h b t : Nat) (s : State) : State := txCompleted o h b (txAttempted o h (txFreed o b (toInstant t s)))

section
variable {b x t : Nat} (ho : objOf s h = some o)
include ho

theorem execCanFrameTransmitted_not (hn : ¬ canSent s o b x t) : exec (.canFrameTransmitted h b x t) s = .next s := by
  rw [exec_canFrameTransmitted, execCanFrameTransmitted, ho]
  exact congrArg _ (if_pos (not_not.mp (canSent_iff.not.mp hn)))

theorem execCanFrameTransmitted_sent (hs : canSent s o b x t) : exec (.canFrameTransmitted h b x t) s = .next (match (txOf o b).frame with
    | some f => if bit (canFlags o) 2 then canTake o f (txDone o h b t s) else txDone o h b t s
    | none => txDone o h b t s) := by
  rw [exec_canFrameTransmitted, execCanFrameTransmitted, txDone, txCompleted]
  simp only [ho, if_neg (canSent_iff.mp hs)]
  cases hmsg : (txOf o b).msg with
  | none => rfl
  | some n => rfl

end

/-! ## Errors (R382, R383) -/

theorem exec_canTxError (h : Nat) (e : CanErr) (s : State) : exec (.canTxError h e) s = execCanTxError h e s := rfl

theorem execCanTxError_none {e : CanErr} (hn : objOf s h = none) : exec (.canTxError h e) s = .next s := by
  rw [exec_canTxError, execCanTxError, hn]

/-- The port runs and the error is one of the table. -/
def errSeen (s : State) (o : Obj) (e : CanErr) : Prop :=
  o.typ = tyCanport ∧ isEnabled o = true ∧ (canOf o).busOff = false ∧ canDeaf s o = false ∧ 0 < e.code ∧ e.code ≤ 6

theorem errSeen_iff {e : CanErr} : errSeen s o e ↔ ¬ (o.typ ≠ tyCanport ∨ (!isEnabled o) = true ∨ (canOf o).busOff = true ∨ canDeaf s o = true
    ∨ e.code = 0 ∨ 6 < e.code) := by
  simp [errSeen, Nat.pos_iff_ne_zero]

/-- The error does not count against a transmitter. -/
def errFree (o : Obj) (e : CanErr) : Prop := e.quiet = true ∧ (e.code = 1 ∨ e.code = 3 ∧ canEstate (canOf o) = 1)

theorem errFree_iff {e : CanErr} : errFree o e ↔ (e.quiet && (if e.code = 3 then decide (canEstate (canOf o) = 1) else e.code == 1)) = true := by
  by_cases h3 : e.code = 3
  · simp [errFree, h3]
  · simp [errFree, h3]

/-- The counters of a transmitter after an error that raises TEC by `n` and `m` more. -/
def txErrCounted (o : Obj) (e : CanErr) (n : Nat) (s : State) : State :=
  canCount o.idx (fun r => { r with lastErr := e.code, tec := r.tec + n + 8 * e.more, ackRun := if e.code = 3 then r.ackRun + 1 else 0 }) s

section
variable {e : CanErr} (ho : objOf s h = some o)
include ho

theorem execCanTxError_not (hn : ¬ errSeen s o e) : exec (.canTxError h e) s = .next s := by
  rw [exec_canTxError, execCanTxError, ho]
  exact congrArg _ (if_pos (not_not.mp (errSeen_iff.not.mp hn)))

variable (hs : errSeen s o e)
include hs

theorem execCanTxError_receiver (ht : e.tx = false) : exec (.canTxError h e) s
    = .next (canCount o.idx (fun r => { r with lastErr := e.code, rxErr := min 255 (r.rxErr + 1 + 8 * e.more) }) s) := by
  rw [exec_canTxError, execCanTxError, ho]
  exact congrArg _ ((if_neg (errSeen_iff.mp hs)).trans (if_neg (Bool.eq_false_iff.mp ht)))

variable (ht : e.tx = true)
include ht

theorem execCanTxError_silent (hm : canMay s o = false ∨ ∀ x ∈ offered o s.gtc, x.2 ≠ e.buf) : exec (.canTxError h e) s = .next s := by
  rw [exec_canTxError, execCanTxError, ho]
  refine congrArg _ ((if_neg (errSeen_iff.mp hs)).trans ((if_pos ht).trans (if_pos ?_)))
  simpa using hm

theorem execCanTxError_transmitter (hm : canMay s o = true) (hb : ∃ x ∈ offered o s.gtc, x.2 = e.buf) {n : Nat} (hf : errFree o e → n = 0)
    (hn : ¬ errFree o e → n = 8) : exec (.canTxError h e) s = .next (attemptEnd o.idx (singleFailed o e.buf (txErrCounted o e n s))) := by
  have hc : n = if (e.quiet && (if e.code = 3 then decide (canEstate (canOf o) = 1) else e.code == 1)) = true then 0 else 8 := by
    by_cases k : errFree o e
    · rw [if_pos (errFree_iff.mp k), hf k]
    · rw [if_neg (errFree_iff.not.mp k), hn k]
  have hany : ¬ (!canMay s o || !((offered o s.gtc).any fun x => x.2 == e.buf)) = true := by
    obtain ⟨x, hx, hxb⟩ := hb
    have ha : ((offered o s.gtc).any fun x => x.2 == e.buf) = true := List.any_eq_true.mpr ⟨x, hx, by simp [hxb]⟩
    simp [hm, ha]
  subst hc
  rw [exec_canTxError, execCanTxError, ho]
  exact congrArg _ ((if_neg (errSeen_iff.mp hs)).trans ((if_pos ht).trans (if_neg hany)))

end

theorem attemptEnd_eq (i : Nat) (s : State) : attemptEnd i s = updCan i (fun r => { r with attemptAt := s.gtc, attempt := false }) s := rfl

theorem singleFailed_eq (o : Obj) (b : Nat) (s : State) : singleFailed o b s = if (txOf o b).single = true ∧ (txOf o b).pend = true then
    sendsEnd (handleOf o) b 0x0D03 (updTx o.idx b (fun t => { t with pend := false }) s) else s := by
  simp only [singleFailed, Bool.and_eq_true]

section
variable {f : CanRt → CanRt} {r : CanRt} (ho : objAt s o.idx = some o)
  (hr : r = { f (canOf o) with busOff := (f (canOf o)).busOff || decide (255 < (f (canOf o)).tec) })
include ho hr

/-- A change of error state raises its event. -/
theorem canCount_eq : canCount o.idx f s = if canEstate (canOf o) = canEstate r then updCan o.idx (fun _ => r) s
    else if canEstate r = 2 then raise0 0x0D41 (handleOf o) [] (updCan o.idx (fun _ => r) s)
    else if canEstate r = 1 then raise0 0x0D40 (handleOf o) [1] (updCan o.idx (fun _ => r) s)
    else if canEstate (canOf o) = 1 then raise0 0x0D40 (handleOf o) [0] (updCan o.idx (fun _ => r) s) else updCan o.idx (fun _ => r) s := by
  rw [canCount, ho, hr]

end

/-! ## Bus-off recovery, the lone node (R383, R384) -/

theorem exec_canBusOffRecovery (h : Nat) (s : State) : exec (.canBusOffRecovery h) s = execCanBusOffRecovery h s := rfl
theorem exec_loneNode (h : Nat) (s : State) : exec (.loneNode h) s = execLoneNode h s := rfl
theorem exec_loneNodeThrottle (h : Nat) (s : State) : exec (.loneNodeThrottle h) s = execLoneNodeThrottle h s := rfl

theorem canTimers_none (hn : objOf s h = none) :
    exec (.canBusOffRecovery h) s = .next s ∧ exec (.loneNode h) s = .next s ∧ exec (.loneNodeThrottle h) s = .next s := by
  rw [exec_canBusOffRecovery, exec_loneNode, exec_loneNodeThrottle, execCanBusOffRecovery, execLoneNode, execLoneNodeThrottle, hn]
  exact ⟨rfl, rfl, rfl⟩

/-- The port back on the bus with counters of 0. -/
def busRecovered (o : Obj) (h : Nat) (s : State) : State :=
  raise0 0x0D42 h ([0, 0, 0, 0] ++ leBytes 4 (satInc 32 (canOf o).busOffs))
    (updCan o.idx (fun r => { r with busOff := false, tec := 0, rxErr := 0, busOffs := satInc 32 (canOf o).busOffs }) s)

section
variable (ho : objOf s h = some o)
include ho

theorem execCanBusOffRecovery_not (hn : ¬ (o.typ = tyCanport ∧ (canOf o).busOff = true ∧ (canOf o).stopped = false)) :
    exec (.canBusOffRecovery h) s = .next s := by
  rw [exec_canBusOffRecovery, execCanBusOffRecovery, ho]
  refine congrArg _ (if_pos ?_)
  by_contra hc
  exact hn (by simpa using hc)

theorem execCanBusOffRecovery_recovers (ht : o.typ = tyCanport) (hb : (canOf o).busOff = true) (hs : (canOf o).stopped = false) :
    exec (.canBusOffRecovery h) s = .next (if isbRun (busRecovered o h s) && u32 (busRecovered o h s).isb.cfg 0 == h then
      { busRecovered o h s with isb := { (busRecovered o h s).isb with claimDue := true } } else busRecovered o h s) := by
  rw [exec_canBusOffRecovery, execCanBusOffRecovery, ho]
  exact congrArg _ (if_neg (by simp [ht, hb, hs]))

/-- The port has become a lone node. -/
def nodeAlone (o : Obj) : Prop := o.typ = tyCanport ∧ isEnabled o = true ∧ 64 ≤ (canOf o).ackRun ∧ (canOf o).lone = false

omit ho in
theorem leBytes_not (b : Bool) : leBytes 1 (b2n (!b)) = [(if b then 0 else 1)] := by cases b <;> decide

theorem execLoneNode_alone (ha : nodeAlone o) : exec (.loneNode h) s = .next (raise0 0x0D44 h [(if bit (canFlags o) 3 then 0 else 1)]
    (updCan o.idx (fun r => { r with lone := true, attemptAt := s.gtc, attempt := false }) s)) := by
  rw [exec_loneNode, execLoneNode, ho, ← leBytes_not]
  exact congrArg _ (if_pos (by simpa [nodeAlone] using ha))

theorem execLoneNode_not (ha : ¬ nodeAlone o) : exec (.loneNode h) s = .next s := by
  rw [exec_loneNode, execLoneNode, ho]
  exact congrArg _ (if_neg (by simpa [nodeAlone] using ha))

/-- The throttle of a lone node holds its next attempt. -/
def nodeHeld (o : Obj) : Prop :=
  o.typ = tyCanport ∧ isEnabled o = true ∧ (canOf o).lone = true ∧ bit (canFlags o) 3 = false ∧ (canOf o).attempt = false

omit ho in
theorem nodeHeld_iff : nodeHeld o ↔ o.typ = tyCanport ∧ isEnabled o = true ∧ canThrottled o = true ∧ (!(canOf o).attempt) = true := by
  simp only [nodeHeld, canThrottled, Bool.and_eq_true, Bool.not_eq_true', and_assoc]

theorem execLoneNodeThrottle_held (hh : nodeHeld o) :
    exec (.loneNodeThrottle h) s = .next (updCan o.idx (fun r => { r with attempt := true }) (toInstant ((canOf o).attemptAt + 24000000) s)) := by
  rw [exec_loneNodeThrottle, execLoneNodeThrottle, ho, show 50 * msTicks = 24000000 from rfl]
  exact congrArg _ (if_pos (nodeHeld_iff.mp hh))

theorem execLoneNodeThrottle_not (hh : ¬ nodeHeld o) : exec (.loneNodeThrottle h) s = .next s := by
  rw [exec_loneNodeThrottle, execLoneNodeThrottle, ho]
  exact congrArg _ (if_neg (nodeHeld_iff.not.mp hh))

end

/-! ## Identifier collisions and periodic buffers (R381, R385) -/

theorem exec_idcoll (h b : Nat) (s : State) : exec (.idcoll h b) s = execIdcoll h b s := rfl
theorem exec_canPeriodicQueue (h b : Nat) (s : State) : exec (.canPeriodicQueue h b) s = execCanPeriodicQueue h b s := rfl

theorem canBuffers_none {b : Nat} (hn : objOf s h = none) : exec (.idcoll h b) s = .next s ∧ exec (.canPeriodicQueue h b) s = .next s := by
  rw [exec_idcoll, exec_canPeriodicQueue, execIdcoll, execCanPeriodicQueue, hn]
  exact ⟨rfl, rfl⟩

/-- A buffer of a port that sends collided. -/
def collHit (s : State) (o : Obj) (b : Nat) : Prop :=
  o.typ = tyCanport ∧ canMay s o = true ∧ b < 32 ∧ (txOf o b).pend = true ∧ (txOf o b).susp = false

/-- The collision counted and raised. -/
def collNoted (o : Obj) (h b : Nat) (s : State) : State :=
  raise0 0x0D43 h (leBytes 4 (((txOf o b).frame.map (·.id)).getD 0) ++ leBytes 1 b ++ satBytes 1 ((txOf o b).coll + 1))
    (updCan o.idx (fun r => { r with idcoll := satInc 32 r.idcoll, tx := r.tx.modify b fun x => { x with coll := (txOf o b).coll + 1 } }) s)

section
variable {b : Nat} (ho : objOf s h = some o)
include ho

theorem execIdcoll_not (hn : ¬ collHit s o b) : exec (.idcoll h b) s = .next s := by
  rw [exec_idcoll, execIdcoll, ho]
  refine congrArg _ (if_pos ?_)
  by_contra hc
  refine hn ?_
  simp only [Bool.not_eq_true', not_or, not_not, Bool.not_eq_false, Bool.not_eq_true, Nat.not_le] at hc
  obtain ⟨h1, h2, h3, h4, h5⟩ := hc
  exact ⟨h1, h2, h5, h3, h4⟩

theorem execIdcoll_hit (hh : collHit s o b) : exec (.idcoll h b) s = .next (if (txOf o b).coll + 1 < 3 then collNoted o h b s
    else sendsEnd h b 0x0D01 (updTx o.idx b (fun x => { x with susp := true }) (collNoted o h b s))) := by
  obtain ⟨h1, h2, h3, h4, h5⟩ := hh
  rw [exec_idcoll, execIdcoll, ho]
  exact congrArg _ (if_neg (by simp [h1, h2, h3, h4, h5]))

theorem execCanPeriodicQueue_idle (hi : (txOf o b).cfg = none ∨ o.typ ≠ tyCanport ∨ isEnabled o = false ∨ (txOf o b).susp = true) :
    exec (.canPeriodicQueue h b) s = .next s := by
  rw [exec_canPeriodicQueue, execCanPeriodicQueue, ho]
  dsimp only
  cases hc : (txOf o b).cfg with
  | none => rfl
  | some c =>
    refine congrArg _ (if_pos ?_)
    simpa [hc] using hi

/-- The buffer's next instant. -/
def periodStepped (o : Obj) (b : Nat) (c : List Byte) (s : State) : State :=
  updTx o.idx b (fun t => { t with nextAt := t.nextAt + u32 c 8 * 480 }) (toInstant (txOf o b).nextAt s)

/-- The data of a periodic frame queued. -/
def periodPut (o : Obj) (b : Nat) (c : List Byte) (bs : List Byte) (v : State) : State :=
  updTx o.idx b (fun t => { t with pend := true, since := v.gtc }) (updTx o.idx b (fun t => { t with
    single := false
    frame := some { id := u32 c 4 + (if bit (u8 c 1) 0 then 2 ^ 30 else 0), eflags := bits (u8 c 1) 1 2, data := padTo (u8 c 2) bs } }) v)

theorem execCanPeriodicQueue_due {c : List Byte} (hc : (txOf o b).cfg = some c) (ht : o.typ = tyCanport) (he : isEnabled o = true)
    (hs : (txOf o b).susp = false) : exec (.canPeriodicQueue h b) s = .next (if (txOf o b).pend then
        updCan o.idx (fun r => { r with txLate := satInc 32 r.txLate }) (periodStepped o b c s)
      else
        let x := if bit (u8 c 1) 3 then fmtBuild (u32 c 12) (fun v => (canOf o).sig.getD v 0) (periodStepped o b c s)
          else (((txOf o b).frame.map (·.data)).getD [], periodStepped o b c s)
        periodPut o b c x.1 x.2) := by
  rw [exec_canPeriodicQueue, execCanPeriodicQueue, ho]
  dsimp only
  rw [hc]
  exact congrArg _ (if_neg (by simp [ht, he, hs]))

end

/-! ## The wake sources (R386) -/

theorem exec_canWake (r p : Nat) (f : CanFrame) (s : State) : exec (.canWake r p f) s = execCanWake r p f s := rfl

/-- The source is armed, and the port or the transceiver sleeps. -/
def canWakeDue (s : State) (r p : Nat) (f : CanFrame) : Prop :=
  canWakes s r p f = true ∧ (r = 4 → s.boot.mode = .sleeping) ∧ (r ≠ 4 → s.cand.lowPower = true)

theorem canWakeDue_iff {r p : Nat} {f : CanFrame} : canWakeDue s r p f
    ↔ ¬ (!canWakes s r p f || (if r = 4 then s.boot.mode != .sleeping else !s.cand.lowPower)) = true := by
  by_cases h4 : r = 4
  · simp [canWakeDue, h4]
  · simp [canWakeDue, h4]

theorem execCanWake_not {r p : Nat} {f : CanFrame} (hn : ¬ canWakeDue s r p f) : exec (.canWake r p f) s = .next s :=
  congrArg _ (if_pos (not_not.mp (canWakeDue_iff.not.mp hn)))

theorem execCanWake_wakes {r p : Nat} {f : CanFrame} (hw : canWakeDue s r p f) : exec (.canWake r p f) s
    = .next (raise0 0x0D47 0 (leBytes 1 r) (wakeBy r s.gtc { s with cand := { s.cand with inh := true, lowPower := false } })) :=
  congrArg _ (if_neg (canWakeDue_iff.mp hw))

theorem canWakes_iff (s : State) (r p : Nat) (f : CanFrame) : canWakes s r p f = true ↔ r = 1 ∧ u8 s.cand.wake 0 = 1
    ∨ r = 2 ∧ u8 s.cand.wake 0 = 2 ∧ wakeFrame s.cand.wake f = true ∨ r = 3 ∧ u8 s.cand.wake 0 = 2
    ∨ r = 4 ∧ 1 ≤ p ∧ p ≤ 3 ∧ bit (u8 s.cand.wake 3) p = true := by
  rw [canWakes]
  by_cases h1 : r = 1
  · simp [h1]
  by_cases h2 : r = 2
  · simp [h2]
  by_cases h3 : r = 3
  · simp [h3]
  simp [h1, h2, h3, and_assoc]

end

/-! ## The statement -/

/-- Settles O49: each happening by the conditions under which it does nothing, and by what it does otherwise. -/
theorem canBus : Obligations.CanBus := by
  refine ⟨fun _ _ _ _ => execCanFrameReceived_none, fun s h f t o hears ho hh => ?_, fun s o f u hu => ?_, fun s o f b ho hb => ?_,
    fun s o q x l ho hl => ?_, fun _ _ _ _ => ⟨decodeInto_none, fun _ => decodeInto_short, fun _ => decodeInto_decodes⟩,
    fun _ _ _ _ _ => execCanFrameTransmitted_none, fun s h b x t o sent ho hsent => ?_, fun _ _ _ => execCanTxError_none,
    fun s h e o on ho hon => ?_, fun _ => rfl, fun s o f r a b u ho hr ha hb hu => ?_, fun _ _ => canTimers_none, fun s h o n off u ho hn hoff hu => ?_,
    fun s h o alone ho ha => ?_, fun s h o held ho hh => ?_, fun _ _ _ => canBuffers_none, fun s h b o hit u ho hhit hu => ?_, fun _ _ _ _ => rfl,
    fun _ _ _ _ => execCanPeriodicQueue_idle, fun s h b o c u x put ho hc ht he hs hu hx hput => ?_, fun s r p f on hon => ?_, fun s r p f w hw => ?_⟩
  · have hh' : hears = canHears s o f := hh
    subst hh'
    exact ⟨execCanFrameReceived_takes ho, execCanFrameReceived_deaf ho⟩
  · have hu' : u = canTaken o f s := hu
    subst hu'
    exact ⟨canTake_services, canTake_plain⟩
  · subst hb
    refine ⟨canFilter_none ho, fun k x u hk hit hj hx => ?_⟩
    have hfirst := canFilter_first ho hk hit hj hx rfl rfl
    refine ⟨fun hn => ?_, fun hn => ?_, fun hn => ?_, fun hu => ⟨fun hn => ?_, fun hn => ?_⟩⟩
    · simp [hfirst, hn]
    · simp [hfirst, hn]
    · simp [hfirst, hn]
    · simp [hfirst, hn, hu]
    · have hx' : { x with gtc := s.gtc } = x := by rw [hx]
      simp [hfirst, hn, hu, hx']
  · have hl' : l = fifoOf o q := hl
    subst hl'
    exact ⟨fifoPut_stores ho, fifoPut_drops ho⟩
  · have hs' : sent = canSent s o b x t := hsent
    subst hs'
    refine ⟨execCanFrameTransmitted_not ho, fun u v w y z p hs hu hv hw hy hz hp q hq => ?_⟩
    have hdone : q = txDone o h b t s := by
      subst hu hv hw hy hz hp
      rw [hq, txDone, txCompleted]
      cases (txOf o b).msg with
      | none => rfl
      | some n => rfl
    subst hdone
    rw [execCanFrameTransmitted_sent ho hs]
    refine ⟨fun hf => ?_, fun f hf hfr => ?_⟩
    · cases (txOf o b).frame with
      | none => rfl
      | some f => exact congrArg _ (if_neg (Bool.eq_false_iff.mp hf))
    · rw [hfr]
      exact congrArg _ (if_pos hf)
  · have hon' : on = errSeen s o e := hon
    subst hon'
    refine ⟨execCanTxError_not ho, fun hs ht => execCanTxError_receiver ho hs ht, fun hs ht => execCanTxError_silent ho hs ht,
      fun free u v hs ht hm hb hfree hu0 hu8 hv => ?_⟩
    have hfree' : free = errFree o e := hfree
    subst hfree'
    rw [hv, ← singleFailed_eq, ← attemptEnd_eq]
    by_cases hf : errFree o e
    · rw [execCanTxError_transmitter ho hs ht hm hb (n := 0) (fun _ => rfl) (absurd hf), hu0 hf]
      rfl
    · rw [execCanTxError_transmitter ho hs ht hm hb (n := 8) (fun k => absurd k hf) (fun _ => rfl), hu8 hf]
      rfl
  · subst ha hb hu
    rw [canCount_eq ho hr]
    refine ⟨fun h => if_pos h, fun h h2 => ?_, fun h h1 => ?_, fun ha h1 h2 => ?_, fun ha h1 h2 => ?_⟩
    · rw [if_neg h, if_pos h2]
    · rw [if_neg h, if_neg (by omega), if_pos h1]
    · rw [if_neg (by omega), if_neg h2, if_neg h1, if_pos ha]
    · rw [if_neg h2, if_neg h1, if_neg ha, ite_self]
  · subst hn
    have hu' : u = busRecovered o h s := hu
    subst hoff hu'
    refine ⟨execCanBusOffRecovery_not ho, fun ⟨ht, hb, hs⟩ hr hc => ?_, fun ⟨ht, hb, hs⟩ hr => ?_⟩
    · rw [execCanBusOffRecovery_recovers ho ht hb hs, if_pos (by simp [hr, hc])]
    · rw [execCanBusOffRecovery_recovers ho ht hb hs, if_neg (by
        obtain hr | hr := hr <;> simp [hr])]
  · have ha' : alone = nodeAlone o := ha
    subst ha'
    exact ⟨execLoneNode_alone ho, execLoneNode_not ho⟩
  · have hh' : held = nodeHeld o := hh
    subst hh'
    exact ⟨execLoneNodeThrottle_held ho, execLoneNodeThrottle_not ho⟩
  · have hh' : hit = collHit s o b := hhit
    have hu' : u = collNoted o h b s := hu
    subst hh' hu'
    refine ⟨execIdcoll_not ho, fun hh hc => ?_, fun hh hc => ?_⟩
    · rw [execIdcoll_hit ho hh, if_pos (by omega)]
    · rw [execIdcoll_hit ho hh, if_neg (by omega)]
  · have hu' : u = periodStepped o b c s := hu
    have hput' : put = periodPut o b c := hput
    subst hu' hput' hx
    rw [execCanPeriodicQueue_due ho hc ht he hs]
    refine ⟨fun hp => congrArg _ (if_pos hp), fun hp hf => ?_, fun hp hf => ?_⟩
    · rw [if_neg (Bool.eq_false_iff.mp hp), if_pos hf]
    · rw [if_neg (Bool.eq_false_iff.mp hp), if_neg (Bool.eq_false_iff.mp hf)]
  · have hon' : on = canWakeDue s r p f := hon
    subst hon'
    exact ⟨execCanWake_not, execCanWake_wakes⟩
  · subst hw
    exact canWakes_iff s r p f

end Sys2Proof.Machine
end

section
/-! PROOFS. Position feedback (12, R352 to R354, R357 to R369): position set, clear, filters, encoder outputs, filtered edges,
serial reads and analog samples. -/

namespace Sys2Proof.Machine

section
variable {s : State} {d : Desc} {o : Obj}

/-! ## FB_SET_POS, FB_CLEAR (R364, R369) -/

theorem exec_fbSetPos_passes (hp : passes 0x0C00 d s = true) (ho : objOf s (dHandle d) = some o) : exec (.fbSetPos d) s = .next (bodyFbSetPos d o s) :=
  congrArg _ (runObj_passes _ hp ho)

theorem bodyFbSetPos_keeps (h1 : fbKind o.params ≠ 1) (h4 : fbKind o.params ≠ 4) :
    bodyFbSetPos d o s = ok d (updFb o.idx (fun r => { r with setPos := some (i64 d.bytes 24) }) s) := if_neg (not_or.mpr ⟨h1, h4⟩)

theorem bodyFbSetPos_refused (h : fbKind o.params = 1 ∨ fbKind o.params = 4) : bodyFbSetPos d o s = fail d 0x0C02 s := if_pos h

theorem exec_fbClear_passes (hp : passes 0x0C01 d s = true) (ho : objOf s (dHandle d) = some o) : exec (.fbClear d) s = .next (bodyFbClear d o s) :=
  congrArg _ (runObj_passes _ hp ho)

/-- The condition of a range fault or of a glitch fault lasts. -/
def fbFaultLasts (s : State) (o : Obj) : Prop :=
  (fbOf o).reason = 5 ∧ (fbOf o).rangeSince ≠ none ∨ (fbOf o).reason = 4 ∧ ∃ t ∈ (fbOf o).glitchAt, s.gtc < t + 480000000

theorem fbFaultEnded_iff : fbFaultEnded s o = true ↔ ¬ fbFaultLasts s o := by
  rw [fbFaultEnded, show secTicks = 480000000 from rfl, fbFaultLasts]
  by_cases h5 : (fbOf o).reason = 5
  · simp [h5]
  · by_cases h4 : (fbOf o).reason = 4
    · simp [h4]
    · simp [h5, h4]

theorem bodyFbClear_none (hf : (fbOf o).fault = false) : bodyFbClear d o s = ok d s := if_pos (by simp [hf])

theorem bodyFbClear_lasts (hf : (fbOf o).fault = true) (h : fbFaultLasts s o) : bodyFbClear d o s = fail d 0x0C01 s :=
  (if_neg (by simp [hf])).trans (if_pos (by simpa [Bool.not_eq_true] using fbFaultEnded_iff.not.mpr (not_not.mpr h)))

theorem bodyFbClear_clears (hf : (fbOf o).fault = true) (h : ¬ fbFaultLasts s o) : bodyFbClear d o s = ok d (raise0 0x0C43 (handleOf o) []
    (updFb o.idx (fun r => { r with fault := false, reason := 0, badRun := 0, idxMiss := 0, qerrAt := [] }) s)) :=
  (if_neg (by simp [hf])).trans (if_neg (by simp [fbFaultEnded_iff.mpr h]))

theorem fbFaultLasts_not (h5 : (fbOf o).reason = 5 → (fbOf o).rangeSince = none)
    (h4 : (fbOf o).reason = 4 → ∀ t ∈ (fbOf o).glitchAt, t + 480000000 ≤ s.gtc) : ¬ fbFaultLasts s o := by
  rintro (⟨h, hr⟩ | ⟨h, t, ht, hl⟩)
  · exact hr (h5 h)
  · exact Nat.not_le.mpr hl (h4 h t ht)

/-! ## FB_FILTER_SET, FB_ENCO_CONFIG (R352, R366) -/

theorem exec_fbFilterSet_passes (hp : passes 0x0C02 d s = true) : exec (.fbFilterSet d) s = .next (bodyFbFilterSet d s) := congrArg _ (runDesc_passes _ hp)

/-- The class, the input or the length of a filter is out of range. -/
def filterRefused (c n k : Nat) : Prop := 3 < c ∨ k = 0 ∨ c = 0 ∧ 48 ≤ n ∨ c = 2 ∧ 16 ≤ n ∨ (c = 1 ∨ c = 3) ∧ 8 ≤ n

theorem filterRefused_iff {c n k : Nat} : filterRefused c n k ↔ 3 < c ∨ (if c = 0 then 48 else if c = 2 then 16 else 8) ≤ n ∨ k = 0 := by
  rw [filterRefused]
  split
  · omega
  · split <;> omega

/-- The filter of an input set. -/
def filterSet (c n k : Nat) (s : State) : State :=
  { s with fbd :=
    if c = 0 then { s.fbd with filtGpio := s.fbd.filtGpio.set n k }
    else if c = 1 then { s.fbd with filtStepin := s.fbd.filtStepin.set n k }
    else if c = 2 then { s.fbd with filtEnc := s.fbd.filtEnc.set n k }
    else { s.fbd with filtPulse := s.fbd.filtPulse.set n k } }

theorem bodyFbFilterSet_eq : bodyFbFilterSet d s
    = if 3 < u8 d.bytes 16 ∨ (if u8 d.bytes 16 = 0 then 48 else if u8 d.bytes 16 = 2 then 16 else 8) ≤ u8 d.bytes 17 ∨ u8 d.bytes 18 = 0 then fail d stBadParam s
      else if inputClaimed s (u8 d.bytes 16) (u8 d.bytes 17) then fail d stInUse s
      else ok d (filterSet (u8 d.bytes 16) (u8 d.bytes 17) (u8 d.bytes 18) s) := rfl

section
variable {c n k : Nat} (hc : c = u8 d.bytes 16) (hn : n = u8 d.bytes 17) (hk : k = u8 d.bytes 18)
include hc hn hk

theorem bodyFbFilterSet_refused (h : filterRefused c n k) : bodyFbFilterSet d s = fail d stBadParam s := by
  rw [filterRefused_iff] at h
  rw [bodyFbFilterSet_eq, ← hc, ← hn, ← hk, if_pos h]

theorem bodyFbFilterSet_claimed (h : ¬ filterRefused c n k) (hi : inputClaimed s c n = true) : bodyFbFilterSet d s = fail d stInUse s := by
  rw [filterRefused_iff] at h
  rw [bodyFbFilterSet_eq, ← hc, ← hn, ← hk, if_neg h, if_pos hi]

theorem bodyFbFilterSet_sets (h : ¬ filterRefused c n k) (hi : inputClaimed s c n = false) : bodyFbFilterSet d s = ok d (filterSet c n k s) := by
  rw [filterRefused_iff] at h
  rw [bodyFbFilterSet_eq, ← hc, ← hn, ← hk, if_neg h, if_neg (Bool.eq_false_iff.mp hi)]

end

theorem exec_fbEncoConfig_passes (hp : passes 0x0C03 d s = true) : exec (.fbEncoConfig d) s = .next (bodyFbEncoConfig d s) := congrArg _ (runDesc_passes _ hp)

/-- The parameters of an encoder output are refused. -/
def encoRefused (b : List Byte) : Prop :=
  1 < u8 b 16 ∨ 2 < u8 b 17 ∨ 15 < u8 b 18 ∨ 3 < u8 b 19 ∨ u8 b 17 = 2 ∧ (u16 b 24 = 0 ∨ u16 b 26 < 24 ∨ 4800 < u16 b 26
    ∨ fFinite (f32 b 28) = false ∨ fMag (f32 b 28) = 0)

theorem encoRefused_iff {b : List Byte} : encoRefused b ↔ (1 < u8 b 16 ∨ 2 < u8 b 17 ∨ 15 < u8 b 18 ∨ 3 < u8 b 19)
    ∨ (u8 b 17 = 2 ∧ (u16 b 24 = 0 ∨ u16 b 26 < 24 ∨ 4800 < u16 b 26)) ∨ u8 b 17 = 2 ∧ (!fFinite (f32 b 28) || fMag (f32 b 28) == 0) = true := by
  simp only [encoRefused, Bool.or_eq_true, Bool.not_eq_true', beq_iff_eq, and_or_left, or_assoc]

theorem bodyFbEncoConfig_refused (h : encoRefused d.bytes) : bodyFbEncoConfig d s = fail d stBadParam s := by
  rw [bodyFbEncoConfig]
  obtain h | h | h := encoRefused_iff.mp h
  · exact if_pos h
  · rw [if_pos h, ite_self]
  · rw [if_pos h, ite_self, ite_self]

section
variable (h : ¬ encoRefused d.bytes)
include h

/-- A good configuration is judged by the source that a synthesised output names. -/
theorem bodyFbEncoConfig_judged : bodyFbEncoConfig d s = if u8 d.bytes 17 = 2 ∧ (objOf s (u32 d.bytes 20)).isNone = true then fail d stBadHandle s
    else if u8 d.bytes 17 = 2 ∧ ((objOf s (u32 d.bytes 20)).map fun o => o.typ != tyFeedback && o.typ != tyAxis).getD false = true then fail d stWrongType s
    else ok d { s with fbd := { s.fbd with enco := s.fbd.enco.modify (u8 d.bytes 16) fun e => { e with next := some (slice d.bytes 16 16) } } } := by
  obtain ⟨h1, h23⟩ := not_or.mp (encoRefused_iff.not.mp h)
  obtain ⟨h2, h3⟩ := not_or.mp h23
  exact (if_neg h1).trans ((if_neg h2).trans (if_neg h3))

theorem bodyFbEncoConfig_absent (hm : u8 d.bytes 17 = 2) (hn : objOf s (u32 d.bytes 20) = none) : bodyFbEncoConfig d s = fail d stBadHandle s := by
  rw [bodyFbEncoConfig_judged h, if_pos ⟨hm, by simp [hn]⟩]

theorem bodyFbEncoConfig_type (hm : u8 d.bytes 17 = 2) (ho : objOf s (u32 d.bytes 20) = some o) (hf : o.typ ≠ tyFeedback) (ha : o.typ ≠ tyAxis) :
    bodyFbEncoConfig d s = fail d stWrongType s := by
  rw [bodyFbEncoConfig_judged h, if_neg (by simp [ho]), if_pos ⟨hm, by simp [ho, hf, ha]⟩]

theorem bodyFbEncoConfig_keeps (hm : u8 d.bytes 17 = 2 → ∃ o, objOf s (u32 d.bytes 20) = some o ∧ (o.typ = tyFeedback ∨ o.typ = tyAxis)) : bodyFbEncoConfig d s
    = ok d { s with fbd := { s.fbd with enco := s.fbd.enco.modify (u8 d.bytes 16) fun e => { e with next := some (slice d.bytes 16 16) } } } := by
  rw [bodyFbEncoConfig_judged h]
  by_cases h2 : u8 d.bytes 17 = 2
  · obtain ⟨o, ho, ht⟩ := hm h2
    rw [if_neg (by simp [ho]), if_neg (by
      rintro ⟨-, hw⟩
      simp only [ho, Option.map_some, Option.getD_some, Bool.and_eq_true, bne_iff_ne] at hw
      exact ht.elim hw.1 hw.2)]
  · rw [if_neg fun k => h2 k.1, if_neg fun k => h2 k.1]

end

/-! ## Filtered edges (R352 to R354) -/

theorem exec_filteredEdge (i : Inp) (lv : Bool) (t n : Nat) (s : State) : exec (.filteredEdge i lv t n) s = execFilteredEdge i lv t n s := rfl

theorem execFilteredEdge_short {i : Inp} {lv : Bool} {t n : Nat} (h : n < inpFilter s i) : exec (.filteredEdge i lv t n) s = .next s := congrArg _ (if_pos h)

/-- What an edge seen long enough does in the state at its instant. -/
def edgeActs (i : Inp) (lv : Bool) (t : Nat) (u : State) : State :=
  match i with
  | .gpio k => gpioEdge k lv t u
  | .stepin k =>
    if u.fbd.stepin.getD k false == lv then u
    else if lv then stepinEdge k t { u with fbd := { u.fbd with stepin := u.fbd.stepin.set k lv } }
    else { u with fbd := { u.fbd with stepin := u.fbd.stepin.set k lv } }
  | .pulse k => if u.fbd.pulse.getD k false == lv then u else pulseEdge 2 k lv t { u with fbd := { u.fbd with pulse := u.fbd.pulse.set k lv } }
  | .encA k =>
    if u.fbd.encA.getD k false == lv then u else encoPass (quadEdge k true false t { u with fbd := { u.fbd with encA := u.fbd.encA.set k lv } })
  | .encB k =>
    if u.fbd.encB.getD k false == lv then u else encoPass (quadEdge k false false t { u with fbd := { u.fbd with encB := u.fbd.encB.set k lv } })
  | .encAB k => encoPass (quadEdge k true true t { u with fbd := { u.fbd with
      encA := u.fbd.encA.set k (!u.fbd.encA.getD k false), encB := u.fbd.encB.set k (!u.fbd.encB.getD k false) } })
  | .encZ k => if u.fbd.encZ.getD k false == lv then u else encoPass (indexEdge k lv { u with fbd := { u.fbd with encZ := u.fbd.encZ.set k lv } })

theorem execFilteredEdge_acts {i : Inp} {lv : Bool} {t n : Nat} (h : inpFilter s i ≤ n) :
    exec (.filteredEdge i lv t n) s = .next (edgeActs i lv t (toInstant t s)) := by
  rw [exec_filteredEdge, execFilteredEdge, if_neg (Nat.not_lt.mpr h)]
  cases i <;> rfl

/-- An input at its level has no edge; another takes the level and its readers act. -/
theorem ite_level {α : Type} {x lv : Bool} {a b : α} : (x = lv → (if x == lv then a else b) = a) ∧ (x ≠ lv → (if x == lv then a else b) = b) :=
  ⟨fun h => if_pos (by simp [h]), fun h => if_neg (by simpa using h)⟩

/-- Without a pass-through output the outputs stay. -/
theorem encoPass_none (h : ∀ e ∈ s.fbd.enco, e.mode ≠ 1) : encoPass s = s := by
  have hm : (s.fbd.enco.map fun e =>
      if e.mode = 1 then
        let a := s.fbd.encA.getD e.enc false
        let b := s.fbd.encB.getD e.enc false
        { e with a := if bit e.flags 0 then b else a, b := if bit e.flags 0 then a else b
                 z := s.fbd.encZ.getD e.enc false != bit e.flags 1 }
      else e) = s.fbd.enco := by
    conv_rhs => rw [← List.map_id s.fbd.enco]
    exact List.map_congr_left fun e he => if_neg (h e he)
  rw [encoPass, hm]

theorem updFb_only {i : Nat} {f : FbRt → FbRt} (ho : s.objs = [o]) (hi : o.idx = i) :
    updFb i f s = { s with objs := [{ o with rt := .fb (f (fbOf o)) }] } := by
  simp [updFb, updObj, ho, hi]

/-- A change of A with one reader counts it up where A then differs from B. -/
theorem quadEdge_single {n t : Nat} (ho : encFbs s n = [o]) (hb : bit (fbFlags o) 0 = false) :
    quadEdge n true false t s = updFb o.idx (fbStep (u8 o.act 9) (s.fbd.encA.getD n false != s.fbd.encB.getD n false) t) s := by
  simp only [quadEdge, ho, List.foldl_cons, List.foldl_nil, Bool.false_eq_true, if_false, if_true, hb, Bool.bne_false]

/-- The quadrature errors of the last 100 ms with the present one. -/
theorem quadEdge_both {n t : Nat} {a : Bool} {u v : State} {w : List Nat} (ho : encFbs s n = [o])
    (hu : u = updFb o.idx (fun r => { r with qerr := satInc 32 r.qerr, qerrAt := w }) s)
    (hw : w = t :: ((fbOf o).qerrAt.filter fun x => decide (t < x + 48000000))) (hv : v = raiseLimited 480000000 0x0C45 0 (handleOf o) 0 0 [] 4 4 u) :
    quadEdge n a true t s = if u8 o.act 10 < w.length then fbFault o.idx 2 0 v else v := by
  simp only [quadEdge, ho, List.foldl_cons, List.foldl_nil, if_true, show 100 * msTicks = 48000000 from rfl, show secTicks = 480000000 from rfl, ← hw,
    ← hu, ← hv]

theorem encFbs_only {n : Nat} (ho : s.objs = [o]) (ht : o.typ = tyFeedback) (he : isEnabled o = true) (hk : fbKind o.act = 0) (hi : fbInput o.act = n) :
    encFbs s n = [o] := by
  simp [encFbs, objsOf, ho, ht, he, hk, hi]

/-- Input A of an encoder at a level. -/
def encALevel (n : Nat) (lv : Bool) (u : State) : State := { u with fbd := { u.fbd with encA := u.fbd.encA.set n lv } }

/-- The one reader of an encoder input counts an edge of A. -/
theorem edgeActs_encA_only {u : State} {n t : Nat} {lv : Bool} (ho : u.objs = [o]) (hf : encFbs u n = [o]) (hn : n < u.fbd.encA.length)
    (hl : u.fbd.encA.getD n false ≠ lv) (hb : bit (fbFlags o) 0 = false) (hp : ∀ e ∈ u.fbd.enco, e.mode ≠ 1) :
    edgeActs (.encA n) lv t u = { u with
      fbd := { u.fbd with encA := u.fbd.encA.set n lv }
      objs := [{ o with rt := .fb (fbStep (u8 o.act 9) (lv != u.fbd.encB.getD n false) t (fbOf o)) }] } := by
  have hs : (encALevel n lv u).fbd.encA.getD n false = lv := by simp [encALevel, hn]
  have hq : quadEdge n true false t (encALevel n lv u) = updFb o.idx (fbStep (u8 o.act 9) (lv != u.fbd.encB.getD n false) t) (encALevel n lv u) := by
    rw [quadEdge_single (s := encALevel n lv u) hf hb, hs]
    rfl
  have ho' : (encALevel n lv u).objs = [o] := ho
  calc edgeActs (.encA n) lv t u = encoPass (quadEdge n true false t (encALevel n lv u)) := ite_level.2 hl
    _ = encoPass { encALevel n lv u with objs := [{ o with rt := .fb (fbStep (u8 o.act 9) (lv != u.fbd.encB.getD n false) t (fbOf o)) }] } := by
      rw [hq, updFb_only ho' rfl]
    _ = _ := encoPass_none hp

/-! ## Faults and counts (R353, R364) -/

section
variable {i k m : Nat} (ho : objAt s i = some o)
include ho

theorem fbFault_shown (hf : (fbOf o).fault = true) (hr : (fbOf o).reason = k) : fbFault i k m s = s := by
  simp only [fbFault, ho]
  exact if_pos (by simp [hf, hr])

theorem fbFault_raises (h : (fbOf o).fault = false ∨ (fbOf o).reason ≠ k) {u : State}
    (hu : u = raise0 0x0C42 (handleOf o) (leBytes 1 k ++ leBytes 1 m) (updFb i (fun r => { r with fault := true, reason := k }) s)) :
    fbFault i k m s = if (fbOf o).fault then u else fbReaders (handleOf o) k u := by
  have hc : ((fbOf o).fault && (fbOf o).reason == k) = false := by
    obtain h | h := h
    · simp [h]
    · simp [h]
  subst hu
  simp only [fbFault, ho, hc]
  rfl

end

/-- One count: its position, its time, its direction with the hysteresis. -/
theorem fbStep_counts (h : Nat) (up : Bool) (t : Nat) (r : FbRt) : (fbStep h up t r).pos = r.pos + (if up then 1 else -1) ∧ (fbStep h up t r).tEdge = t
    ∧ (up = !r.rev → (fbStep h up t r).rev = r.rev ∧ (fbStep h up t r).opp = 0)
    ∧ (up = r.rev → r.opp < h → (fbStep h up t r).rev = r.rev ∧ (fbStep h up t r).opp = r.opp + 1)
    ∧ (up = r.rev → h ≤ r.opp → (fbStep h up t r).rev = !r.rev ∧ (fbStep h up t r).opp = 0) := by
  unfold fbStep
  dsimp only
  by_cases hd : up = !r.rev
  · have hn : up ≠ r.rev := by simp [hd]
    rw [if_pos (by simp [hd])]
    exact ⟨rfl, rfl, fun _ => ⟨rfl, rfl⟩, fun k => absurd k hn, fun k => absurd k hn⟩
  · have hu : up = r.rev := by simpa using hd
    rw [if_neg (by simpa using hd)]
    by_cases hh : h ≤ r.opp
    · rw [if_pos (by omega)]
      exact ⟨rfl, rfl, fun k => absurd k hd, fun _ k => absurd hh (Nat.not_le.mpr k), fun _ _ => ⟨by rw [hu], rfl⟩⟩
    · rw [if_neg (by omega)]
      exact ⟨rfl, rfl, fun k => absurd k hd, fun _ _ => ⟨rfl, rfl⟩, fun _ k => absurd k hh⟩

/-! ## Serial reads (R357, R360) -/

theorem exec_serialReadStart (p : Nat) (s : State) : exec (.serialReadStart p) s = execSerialReadStart p s := rfl
theorem exec_serialFrameDone (p : Nat) (l : Bool) (bs : List Bool) (s : State) : exec (.serialFrameDone p l bs) s = execSerialFrameDone p l bs s := rfl

theorem serial_none {p : Nat} (h : serialFb s p = none) :
    exec (.serialReadStart p) s = .next s ∧ ∀ l bs, exec (.serialFrameDone p l bs) s = .next s := by
  refine ⟨?_, fun l bs => ?_⟩
  · rw [exec_serialReadStart, execSerialReadStart, h]
  · rw [exec_serialFrameDone, execSerialFrameDone, h]

section
variable {p : Nat} (ho : serialFb s p = some o)
include ho

theorem execSerialReadStart_judged : exec (.serialReadStart p) s = .next (if frameNo s.gtc % max 1 (u8 o.act 32) = 0 then
    updFb o.idx (fun r => { r with reading := some (s.gtc / 48000 * 48000) }) s else s) := by
  rw [exec_serialReadStart, execSerialReadStart, ho]
  rfl

variable {l : Bool} {bs : List Bool}

theorem execSerialFrameDone_idle (hr : (fbOf o).reading = none) : exec (.serialFrameDone p l bs) s = .next s := by
  simp only [exec_serialFrameDone, execSerialFrameDone, ho, hr]

/-- The read in progress ends with what its bits give. -/
theorem execSerialFrameDone_ends {t : Nat} {x : (Option Nat × Nat) × Bool} {u v : State} (hr : (fbOf o).reading = some t) (hx : x = serialRead o.act l bs)
    (hu : u = updFb o.idx (fun r => { r with reading := none }) s)
    (hv : v = if x.2 = true then raiseLimited 480000000 0x0C44 0 (handleOf o) 0 0 [] 0 0 u else u) :
    exec (.serialFrameDone p l bs) s = .next (match x.1.1 with
      | some y => serialGood o y t v
      | none => serialBad o x.1.2 v) := by
  simp only [exec_serialFrameDone, execSerialFrameDone, ho, hr, show secTicks = 480000000 from rfl, ← hx, ← hu, ← hv] <;> rfl

end

/-- A good read of position `q`. -/
def serialPut (o : Obj) (y t : Nat) (q : Int) (s : State) : State :=
  updFb o.idx (fun r => { r with
    pos := q, raw := some y, badRun := 0, period := if r.raw.isNone then 0 else t - r.tEdge, tEdge := t
    reads := (t, q) :: (r.reads.filter fun x => decide (t ≤ x.1 + u32 o.act 12 * 480)) }) s

/-- The largest step that a read may make. -/
def serialLimit (o : Obj) : Nat := if u32 o.act 40 = 0 then 2 ^ (u8 o.act 27 - 2) else u32 o.act 40

theorem serialGood_first {y t : Nat} (h : (fbOf o).raw = none) : serialGood o y t s = serialPut o y t y s := by
  simp only [serialGood, h]
  rfl

theorem serialGood_next {y t x : Nat} {e : Int} (h : (fbOf o).raw = some x) (he : e = sx (u8 o.act 27) (ux (u8 o.act 27) ((y : Int) - x))) :
    serialGood o y t s = if serialLimit o < e.natAbs then serialBad o 5 s else serialPut o y t ((fbOf o).pos + e) s := by
  subst he
  simp only [serialGood, h]
  rfl

theorem serialBad_eq {m n : Nat} {u : State} (hn : n = (fbOf o).badRun + 1)
    (hu : u = updFb o.idx (fun r => { r with badFrames := satInc 32 r.badFrames, badRun := n, sub := m }) s) :
    serialBad o m s = if u8 o.act 11 ≤ n then fbFault o.idx 3 m u else u := by
  subst hu hn
  rfl

/-! ## Analog samples (R362) -/

/-- The ticks for which the samples of an analog input are kept. -/
def ainKeep (o : Obj) : Nat := u32 o.act 12 * 480 + (u16 o.act 60 + 1) * 24000

/-- The samples kept with a new one. -/
def ainKept (t c : Nat) (o : Obj) : List (Nat × Nat) := (t, c % 4096) :: ((fbOf o).samples.filter fun x => decide (t ≤ x.1 + ainKeep o))

/-- What a reader is after a sample. -/
def ainTaken (t c : Nat) (o : Obj) (r : FbRt) : FbRt :=
  { r with samples := ainKept t c o, tEdge := t, rangeSince := if ainInRange o.act (ainKept t c o) = true then none else some (r.rangeSince.getD t) }

/-- A reader takes a sample. -/
def ainTake (t c : Nat) (s : State) (o : Obj) : State := updFb o.idx (ainTaken t c o) s

/-- The sample of an analog input. -/
def ainLevel (n c : Nat) (u : State) : State := { u with fbd := { u.fbd with ain := u.fbd.ain.set n (c % 4096) } }

theorem exec_ainSample (n t c : Nat) (s : State) : exec (.ainSample n t c) s = execAinSample n t c s := rfl

theorem execAinSample_eq {n t c : Nat} {u : State} (hu : u = toInstant t s) : exec (.ainSample n t c) s
    = .next (((objsOf s tyFeedback).filter fun o => isEnabled o && fbKind o.act == 4 && fbInput o.act == n).foldl (ainTake t c)
      (ainLevel n c u)) := by
  have ho : objsOf s tyFeedback = objsOf (toInstant t s) tyFeedback := (objsOf_congr (toInstant_objs t s) tyFeedback).symm
  rw [ho, exec_ainSample, execAinSample, hu]
  rfl

/-- The one reader of an analog input keeps the sample with the time outside the range. -/
theorem execAinSample_only {n t c : Nat} (ho : s.objs = [o]) (ht : o.typ = tyFeedback) (he : isEnabled o = true) (hk : fbKind o.act = 4)
    (hi : fbInput o.act = n) : ∃ u r, exec (.ainSample n t c) s = .next u ∧ objAt u o.idx = some { o with rt := .fb r }
      ∧ r.samples.head? = some (t, c % 4096) ∧ r.tEdge = t
      ∧ r.rangeSince = (if ainInRange o.act r.samples then none else some ((fbOf o).rangeSince.getD t)) := by
  have hf : ((objsOf s tyFeedback).filter fun o => isEnabled o && fbKind o.act == 4 && fbInput o.act == n) = [o] := by
    simp [objsOf, ho, ht, he, hk, hi]
  have hu : (ainLevel n c (toInstant t s)).objs = [o] := (toInstant_objs t s).trans ho
  refine ⟨_, ainTaken t c o (fbOf o), execAinSample_eq rfl, ?_, rfl, rfl, rfl⟩
  rw [hf, List.foldl_cons, List.foldl_nil, ainTake, updFb_only hu rfl]
  simp only [objAt, List.find?_cons, beq_self_eq_true]

theorem exec_ainRangeTimeout (h : Nat) (s : State) : exec (.ainRangeTimeout h) s = execAinRangeTimeout h s := rfl

theorem execAinRangeTimeout_idle {h : Nat} (hn : objOf s h = none ∨ ∃ o, objOf s h = some o ∧ ((fbOf o).rangeSince = none ∨ isEnabled o = false)) :
    exec (.ainRangeTimeout h) s = .next s := by
  rw [exec_ainRangeTimeout, execAinRangeTimeout]
  obtain hn | ⟨o, ho, hi⟩ := hn
  · rw [hn]
  · rw [ho]
    cases hs : (fbOf o).rangeSince with
    | none => simp only [hs]
    | some t =>
      have he := hi.resolve_left (by simp [hs])
      simp only [hs, if_neg (Bool.eq_false_iff.mp he)]

theorem execAinRangeTimeout_faults {h t : Nat} (ho : objOf s h = some o) (hr : (fbOf o).rangeSince = some t) (he : isEnabled o = true) :
    exec (.ainRangeTimeout h) s = .next (fbFault o.idx 5 0 (toInstant (t + 4800000) s)) := by
  simp only [exec_ainRangeTimeout, execAinRangeTimeout, ho, hr, if_pos he, show 10 * msTicks = 4800000 from rfl]

/-! ## Encoder outputs (R366) -/

theorem exec_encoSynthStep (j : Nat) (s : State) : exec (.encoSynthStep j) s = execEncoSynthStep j s := rfl

theorem execEncoSynthStep_none {j : Nat} (h : s.fbd.enco[j]? = none) : exec (.encoSynthStep j) s = .next s := by
  rw [exec_encoSynthStep, execEncoSynthStep, h]

/-- An output after a step at `t` towards a target that is `x` away. -/
def encoStepped (e : Enco) (x : Int) (t : Nat) : Enco := encoLevels { e with count := e.count + sgn x, stepAt := t }

section
variable {j : Nat} {e : Enco} (h : s.fbd.enco[j]? = some e)
include h

theorem execEncoSynthStep_stands (hs : e.mode ≠ 2 ∨ encoTarget s e - e.count = 0) : exec (.encoSynthStep j) s = .next s := by
  rw [exec_encoSynthStep, execEncoSynthStep, h]
  exact congrArg _ (if_pos (by rwa [sub_eq_zero] at hs))

/-- A step towards the target. -/
theorem execEncoSynthStep_steps (hm : e.mode = 2) (hd : encoTarget s e - e.count ≠ 0) : exec (.encoSynthStep j) s
    = .next { toInstant (e.stepAt + e.minEdge) s with fbd := { (toInstant (e.stepAt + e.minEdge) s).fbd with
      enco := (toInstant (e.stepAt + e.minEdge) s).fbd.enco.set j (encoStepped e (encoTarget s e - e.count) (toInstant (e.stepAt + e.minEdge) s).gtc) } } := by
  rw [exec_encoSynthStep, execEncoSynthStep, h]
  exact congrArg _ (if_neg (by
    rw [sub_ne_zero] at hd
    simp [hm, hd]))

end

theorem sgn_of_ne {x : Int} (h : x ≠ 0) : sgn x = if 0 < x then 1 else -1 := by
  rw [sgn]
  split
  · rfl
  · rw [if_pos (by omega)]

theorem encoTarget_none {e : Enco} (h : objOf s e.src = none) : encoTarget s e = e.count := if_pos (by simp [h])
theorem encoTarget_some {e : Enco} (h : objOf s e.src ≠ none) : encoTarget s e = fxNear (fxMul (fxF e.scale) (encoPos s e.src - e.base)) :=
  if_neg (by simpa using h)

end

/-! ## The statement -/

/-- Settles O47: each command and happening by the conditions under which it is refused or does nothing, and by what it does
otherwise. -/
theorem feedbackInputs : Obligations.FeedbackInputs := by
  refine ⟨fun _ _ _ => rfl, fun s d o k hp ho hk => ?_, fun s d o r hp ho hr => ?_, fun s d c n k bad hp hc hn hk hb => ?_,
    fun s d b m bad hp hb hm hbad => ?_, fun _ _ _ _ _ => execFilteredEdge_short, fun s k lv t n u hu => ?_,
    fun s n t lv m o f ho ht he hk hi hn hl hb hp hm hf => ?_, fun s n t o r ho hr u w hu hw v hv a => ?_,
    fun _ _ _ _ _ ho => ⟨fbFault_shown ho, fun h _ hu => fbFault_raises ho h hu⟩, fbStep_counts, fun _ _ => serial_none, fun s p o ho => ?_,
    fun s o y t r n d put hr hn hput => ?_, fun s o m n u hn hu => ?_, fun s n t c u keep hu hk => ?_, fun _ _ _ _ _ => execAinSample_only,
    fun _ _ => execAinRangeTimeout_idle, fun _ _ _ _ => execAinRangeTimeout_faults, fun _ _ => execEncoSynthStep_none, fun s j e d h hd => ?_,
    fun _ _ => ⟨encoTarget_none, encoTarget_some⟩⟩
  · subst hk
    rw [exec_fbSetPos_passes hp ho]
    exact ⟨fun h1 h4 => congrArg _ (bodyFbSetPos_keeps h1 h4), fun h => congrArg _ (bodyFbSetPos_refused h)⟩
  · subst hr
    rw [exec_fbClear_passes hp ho]
    exact ⟨fun h => congrArg _ (bodyFbClear_none h), fun h hl => congrArg _ (bodyFbClear_lasts h hl),
      fun h h5 h4 => congrArg _ (bodyFbClear_clears h (fbFaultLasts_not h5 h4))⟩
  · have hb' : bad = filterRefused c n k := hb
    subst hb'
    rw [exec_fbFilterSet_passes hp]
    refine ⟨fun h => congrArg _ (bodyFbFilterSet_refused hc hn hk h), fun h hi => congrArg _ (bodyFbFilterSet_claimed hc hn hk h hi), fun h hi => ?_⟩
    rw [bodyFbFilterSet_sets hc hn hk h hi]
    refine ⟨fun h => ?_, fun h => ?_, fun h => ?_, fun h => ?_⟩ <;> rw [h] <;> rfl
  · have hb' : bad = encoRefused b := by rw [hbad, hm]; rfl
    subst hb hm hb'
    rw [exec_fbEncoConfig_passes hp]
    exact ⟨fun h => congrArg _ (bodyFbEncoConfig_refused h), fun h hm hn => congrArg _ (bodyFbEncoConfig_absent h hm hn),
      fun o h hm ho hf ha => congrArg _ (bodyFbEncoConfig_type h hm ho hf ha), fun h hm => congrArg _ (bodyFbEncoConfig_keeps h hm)⟩
  · have hfbd : s.fbd = u.fbd := by rw [hu, toInstant_fbd]
    rw [hfbd]
    refine ⟨fun h => ?_, fun h hl => ?_, fun h hl hv => ?_, fun h hl hv => ?_, fun h hl => ?_, fun h hl => ?_, fun h hl => ?_, fun h hl => ?_,
      fun h hl => ?_, fun h hl => ?_, fun h => ?_, fun h hl => ?_, fun h hl => ?_⟩
    all_goals rw [execFilteredEdge_acts h, ← hu]
    · rfl
    · exact congrArg _ (ite_level.1 hl)
    · subst hv
      exact congrArg _ (ite_level.2 hl)
    · subst hv
      exact congrArg _ (ite_level.2 hl)
    · exact congrArg _ (ite_level.1 hl)
    · exact congrArg _ (ite_level.2 hl)
    · exact congrArg _ (ite_level.1 hl)
    · exact congrArg _ (ite_level.2 hl)
    · exact congrArg _ (ite_level.1 hl)
    · exact congrArg _ (ite_level.2 hl)
    · rfl
    · exact congrArg _ (ite_level.1 hl)
    · exact congrArg _ (ite_level.2 hl)
  · have hou : (toInstant t s).objs = [o] := (toInstant_objs t s).trans ho
    have hfu : encFbs (toInstant t s) n = [o] := encFbs_only hou ht he hk hi
    rw [← toInstant_fbd t s] at hn hl hp
    rw [execFilteredEdge_acts hm, edgeActs_encA_only hou hfu hn hl hb hp, toInstant_fbd, hf]
  · subst hr
    rw [quadEdge_both ho hu hw hv]
    exact ⟨fun h => if_neg (Nat.not_lt.mpr h), fun h => if_pos h⟩
  · rw [execSerialReadStart_judged ho]
    refine ⟨fun h => congrArg _ (if_pos h), fun h => congrArg _ (if_neg h), fun l bs hr => execSerialFrameDone_idle ho hr,
      fun t l bs x u v hr hx hu hv => ?_⟩
    rw [execSerialFrameDone_ends ho hr hx hu hv]
    refine ⟨fun y hy => ?_, fun hy => ?_⟩
    · rw [hy]
    · rw [hy]
  · have hput' : put = fun q => serialPut o y t q s := hput
    subst hr hn hput'
    refine ⟨serialGood_first, fun x hx hd => ⟨fun hl => ?_, fun hl => ?_⟩⟩
    · exact (serialGood_next hx hd).trans (if_pos hl)
    · exact (serialGood_next hx hd).trans (if_neg (Nat.not_lt.mpr hl))
  · rw [serialBad_eq hn hu]
    exact ⟨fun h => if_neg (Nat.not_le.mpr h), fun h => if_pos h⟩
  · have hk' : keep = ainKeep := hk
    subst hk'
    exact execAinSample_eq hu
  · subst hd
    refine ⟨execEncoSynthStep_stands h, fun hm hd => ⟨_, encoStepped e (encoTarget s e - e.count) (toInstant (e.stepAt + e.minEdge) s).gtc, execEncoSynthStep_steps h hm hd, ?_, ?_, rfl, toInstant_objs _ s, rfl⟩⟩
    · have hj : j < (toInstant (e.stepAt + e.minEdge) s).fbd.enco.length := by
        rw [toInstant_fbd]
        exact (List.getElem?_eq_some_iff.mp h).1
      exact List.getElem?_set_self hj
    · rw [← sgn_of_ne hd]
      rfl

end Sys2Proof.Machine
end
